-- ==== Sys2Proof/Word.lean ====
section
/-! DEFINITION. The word types of the block and the shape of its sparse tables. -/

namespace Sys2Proof

/-- A BAR0 register, 32 bits (R4). -/
abbrev Word := BitVec 32

/-- One byte of host memory, of a two-wire transaction or of the two-wire buffer. -/
abbrev Byte := BitVec 8

/-- A string of bytes, the lowest address (or the first on the wire) first. -/
abbrev Bytes := List Byte

/-- FRAC (R8): a time within the frame in progress, in units of 1/65,536 frame. -/
abbrev Frac := BitVec 16

/-- A sparse table over numbers, in canonical form: keys strictly rising, and no entry equal to
what an unlisted key reads as (see `Machine.tget` and `Machine.tput`). -/
abbrev Tbl (α : Type) := List (Nat × α)

end Sys2Proof
end

