-- ==== Sys2Proof/Syntax.lean ====
section
/-! DEFINITION. The commands the block takes: one constructor of `Instr` per row of the table of
operations and events, with the operands the row carries. -/

namespace Sys2Proof

/-- Who writes a setting or sends a command: the owners of R302. -/
inductive Owner where
  | host | tw | peer
  deriving DecidableEq, Repr

/-- The two mix halves, MXA and MXB. -/
inductive Half where
  | a | b
  deriving DecidableEq, Repr

/-- A Hepex command as the command processor holds it: the entry of R291 (from the command ring) or
of R346 (from the two-wire bus), without its OPCODE, which the row itself is. -/
structure Cmd where
  /-- `host` for the command ring, `tw` for the two-wire bus. -/
  src : Owner
  /-- Byte 2, FLAGS; bit 0 is NO_IRQ. -/
  flags : Byte
  /-- Bits 6:0 of byte 3, which must be 0. -/
  phaseLow : BitVec 7
  /-- CMD_ID. -/
  id : Word
  /-- Ring index of the entry; 0 for a two-wire command. -/
  idx : BitVec 12
  /-- PW0 to PW6. -/
  pw : List (BitVec 64)
  deriving DecidableEq, Repr

/-- What the host sets in the configuration space of the function (R286): bus mastering, relaxed ordering, MSI-X Enable
and Function Mask, PME_En, Max_Payload_Size and Max_Read_Request_Size as their codes, and the completion timeout range. -/
structure FnCfg where
  busMaster : Bool
  relaxed : Bool
  msixEn : Bool
  msixMask : Bool
  pmeEn : Bool
  mps : BitVec 3
  mrrs : BitVec 3
  timeout : BitVec 4
  deriving DecidableEq, Repr

/-- The link and the function after a change (R308–R310): LINK_UP, the link in L2, SPEED, WIDTH, ASPM, DSTATE, and the
configuration space. [log: DESIGN CHOICE 99] -/
structure LinkIn where
  up : Bool
  l2 : Bool
  speed : Fin 4
  width : Fin 5
  aspm : Fin 4
  dstate : Fin 4
  fn : FnCfg
  deriving DecidableEq, Repr

/-- What a DMA read (or a read of the two-wire buffer) of a command's data gives: `none` for a failed
read, else the bytes read. For a two-wire command the operand is not used: the data lie in State.
[log: DESIGN CHOICE 7] -/
abbrev Dma := Option Bytes

/-- The two-wire bus at an instant (R355, R362): free, busy with another device's transaction or one addressed to the
module, or busy with a message that the module sends. [log: DEDUCED 16] -/
inductive BusUse where
  | free | busy | controller
  deriving DecidableEq, Repr

/-- What a read of registers finds outside the module's state: oscillator cycles since the last RTC command, whether the
retained word is uncorrectable, and the two-wire bus. [log: DESIGN CHOICE 31] -/
structure ReadIn where
  cycles : Nat
  retBad : Bool
  bus : BusUse
  deriving DecidableEq, Repr

/-- What the arbiters decide for a write of registers over the host link or over the two-wire bus: a receive or transmit slot mask with
port timing completes after the mark of the next frame start (R228), and a conversion runs or its start wins
against SC_URGENT (R280). -/
structure WriteIn where
  /-- Single-bit errors corrected in the crosspoint read of a lookup (R51). -/
  corrected : Nat
  lateRx : Bool
  lateTx : Bool
  startWins : Bool
  /-- Oscillator cycles since the last RTC command, at a write of the RTC or of the command doorbell.
  [log: DESIGN CHOICE 31] -/
  cycles : Nat := 0
  deriving DecidableEq, Repr

/-- No arbiter decides against the write, and nothing is corrected. -/
def WriteIn.quiet : WriteIn := { corrected := 0, lateRx := false, lateTx := false, startWins := false }

/-- One 32-bit or 64-bit access to BAR0 (R4) or BAR2 (R328): a write with its byte enables and data, or a read.
[log: DESIGN CHOICE 99] -/
structure BarWrite where
  /-- An access to BAR2 (the stream pages of R328), else to BAR0. -/
  bar2 : Bool
  /-- A 64-bit access, performed as two 32-bit accesses, the lower address first. -/
  wide : Bool
  /-- Offset in the BAR. -/
  off : BitVec 21
  /-- Byte enables, bit `i` for byte `i` of the access. -/
  be : BitVec 8
  /-- Data; bits 31:0 of it for a 32-bit access. -/
  data : BitVec 64
  /-- What the arbiters decide for a write. -/
  env : WriteIn := WriteIn.quiet
  /-- A read access, and what it finds; `none` for a write. -/
  read : Option ReadIn := none
  deriving DecidableEq, Repr

/-- What a stream read of host memory gives (R335). -/
inductive ReadResult where
  | ok (b : Bytes)
  | errorCompletion
  | poisoned
  | timeout
  deriving DecidableEq, Repr

/-- Halt causes of R335. -/
inductive StreamCause where
  | check | errorCompletion | poisoned | timeout
  deriving DecidableEq, Repr

/-- Causes of an engine failure (R105, R108). -/
inductive FailCause where
  | residue | recipeMemory | stateMemory
  deriving DecidableEq, Repr

/-- Result of an engine self-test (R106, R108). -/
inductive TestResult where
  | pass | arithmetic | memory
  deriving DecidableEq, Repr

/-- The registers of PS_CONFIG_WRITE (R119): PS_CH_CFG, PS_DX_CFG and PS_DX_FB. -/
inductive PsReg where
  | chCfg | dxCfg | dxFb
  deriving DecidableEq, Repr

/-- The power dies P-A and P-B. -/
inductive PowerDie where
  | a | b
  deriving DecidableEq, Repr

/-- Supply causes of R125: PVDD under- and over-voltage, VGATE undervoltage. -/
inductive SupplyCause where
  | pvddUnder | pvddOver | vgateUnder
  deriving DecidableEq, Repr

/-- The leg that an output short names (R211). -/
inductive ShortLeg where
  | headphone | lineP | lineN
  deriving DecidableEq, Repr

/-- One bit clock of a serial port: FS and DIN as its rising and its falling edge sample them (R213). -/
structure BitClock where
  fsRise : Bool
  dinRise : Bool
  fsFall : Bool
  dinFall : Bool
  deriving DecidableEq, Repr

/-- What a serial port finds at a frame start (R213–R225). [log: DESIGN CHOICE 7] -/
structure PortFrame where
  /-- The bit clocks from the frame start before, or from a bit clock that precedes the first one, to this frame start,
  with both. -/
  clocks : List BitClock
  /-- The period differs from the tracked one by more than 1 %. -/
  periodOff : Bool
  /-- Port rate outside 8–216 kHz, or bit clock above 50 MHz. -/
  outOfRange : Bool
  /-- Converter buffer fill more than 2 port frames from its centre. -/
  slip : Bool
  /-- Phase error within ±2^-6 port frame. -/
  inPhase : Bool
  /-- Where the frame start stands between two strobes, as timestamped for the converters (R221). -/
  phase : Word
  /-- Ratio in Q4.28 and port rate in 0.01 Hz as the loop has them. -/
  ratio : Word
  rate : BitVec 28
  deriving DecidableEq, Repr

/-- The reference sources other than the crystal, r = 1 to 13 (R242): `n` stands for r = n + 1. -/
abbrev RefSource := Fin 13


/-- A frame that the stream store holds with an uncorrectable error (R335). -/
structure LostFrame where
  ctx : Fin 256
  fn : BitVec 48
  deriving DecidableEq, Repr

/-- What the circuits outside the self-timed core deliver at a strobe. [log: DESIGN CHOICE 7] -/
structure StrobeIn where
  /-- The bits of lines PDM_D0 to PDM_D15 in the frame, by line: one pair a clock cycle, as sampled at the rising and at the
  falling edge (R183). -/
  pdmLines : Tbl (List (Bool × Bool))
  /-- The differential voltage in µV at the balls of each analog input, at the eight samples of the frame at 8 × fs, as the
  modulators of paths H and L measure it once the path matching has trimmed them (R172, R174). -/
  paths : Tbl (List (Int × Int))
  /-- Differential output voltage measured at the terminals of each power channel, in binary32 volts (R111). -/
  volts : Tbl Word
  /-- Analog inputs whose converter overloaded in the frame (R193). -/
  overloaded : List Nat
  /-- What measures the load current of each power channel in the frame before, in binary32: amperes for a bridge,
  ISP − ISN in volts for a drive channel (R144). -/
  current : Tbl Word
  /-- Power channels with at least one clipped switching cycle in the frame before, each with the rail that clipped it, in
  binary32 volts (R112). -/
  loopClip : Tbl Word
  /-- Load current of each MICBIAS in 0.1 mA (R195). -/
  bias : List (BitVec 7)
  /-- The negative rail of the outputs lies within 10 % of −VANA33 (R200). -/
  railOk : Bool
  /-- PVDD of P-A and P-B in 10 mV, and their temperatures in 1/16 °C (R129, R141). -/
  pvddA : BitVec 16
  pvddB : BitVec 16
  tempA : BitVec 16
  tempB : BitVec 16
  /-- δ in 10^-12 and the phase error in 0.1 ns as the tracking loop has them (R246). -/
  dco : Int
  phaseErr : Int
  /-- Measured offset of each reference source from FREQ in 0.1 ppm, by r − 1 (R244, R260). -/
  offsets : Tbl Int
  /-- Ports whose converter buffers are found more than 2 port frames from their centre (R223). -/
  slips : List Nat
  /-- Frames that the stream store is found to hold with an uncorrectable error (R335): of a playback context the frame of
  the strobe, of a record context any frame held and not written. -/
  storeLost : List LostFrame
  deriving DecidableEq, Repr

/-- Single-bit errors corrected in reads that no other row counts: of the crosspoint table (R51) and of the delay store
(R92). [log: DESIGN CHOICE 7] -/
structure EccIn where
  table : Nat
  delay : Nat
  deriving DecidableEq, Repr

/-- A crosspoint entry read with a double-bit error (R51): the crosspoint, the entry's position and SOURCE as read. -/
structure Damage where
  sink : Fin 4096
  source : Fin 8192
  pos : Word
  asRead : BitVec 16
  deriving DecidableEq, Repr

/-- What the arbiter decided for accesses that the module times itself at a drain, and the errors of its reads. -/
structure DrainIn where
  /-- (port, receive) of each frame-staged slot mask that completes after the mark of the next frame start (R228). -/
  maskLate : List (Nat × Bool)
  ecc : EccIn
  /-- Entries found with a double-bit error while the head commit is applied (R51). -/
  damaged : List Damage
  /-- Announced descriptors as read of the contexts that stop at the boundary, in ring order (R331). -/
  descs : List (Fin 256 × ReadResult)
  deriving DecidableEq, Repr

/-- How CLK comes up at bring-up (R428, step 4): with what the first strobe captures, without a crystal within its windows
(R236), or without power good in time (R394, R474). -/
inductive ClkUp where
  | up (x : StrobeIn)
  | xtalFail
  | fault
  deriving DecidableEq, Repr

/-- A line of the Pantry in which a read corrects bit errors, one to three of them (R385). -/
structure Correction where
  line : BitVec 16
  bits : Fin 4
  deriving DecidableEq, Repr

/-- An uncorrectable line of the Pantry (R385): of a line of CAL, the entries of the sense calibration record on it. -/
structure PantryLoss where
  line : BitVec 16
  entries : List (Fin 512)
  deriving DecidableEq, Repr

/-- What a sense converter measures in one conversion (R263, R264, R266): its samples in pipeline mode, the integrator's
output in integrating mode, whether the input was above V_REF, and the result of a point with factory trim.
[log: DESIGN CHOICE 7] -/
structure AdcIn where
  samples : List (BitVec 14)
  integral : BitVec 24
  beyond : Bool
  trimmed : BitVec 24
  deriving DecidableEq, Repr

/-- What a long operation without a row of its own brings (LONG_OPERATION_DONE). -/
structure LongDone where
  /-- SV_FW_STAGE: the image's own structure holds (R371, step 7). [log: DESIGN CHOICE 7] -/
  fwOk : Bool
  /-- The nonvolatile write or the fuses verified. -/
  nvOk : Bool
  /-- Corrections in the Pantry's reads of the interval (R385). -/
  reads : List Correction
  deriving DecidableEq, Repr

/-- How a two-wire transaction ends (R344). -/
inductive TwEnd where
  | stop | restart | timeout
  deriving DecidableEq, Repr

/-- A two-wire transaction addressed to the module, after its code byte (R343, R487). -/
structure TwTx where
  /-- Bytes written after the code byte: count, data and PEC as sent. -/
  wr : Bytes
  /-- Bytes the controller clocks after a repeated START with read, if there is one. -/
  rd : Option Nat
  /-- How a transaction without a read part ends. -/
  fin : TwEnd
  /-- The code byte came before the fetch of the long operation in progress (R348). -/
  early : Bool
  /-- Oscillator cycles since the last RTC command, at a write that wakes the module from STANDBY (R401).
  [log: DESIGN CHOICE 31] -/
  cycles : Nat := 0
  deriving DecidableEq, Repr

/-- What becomes of a message the module sends as controller (R354–R359). -/
inductive CtlResult where
  /-- Delivered. -/
  | sent
  /-- NACKed at a byte, 0 for the address. -/
  | nacked (byte : Nat)
  /-- Arbitration lost at a byte and bit, and whether the byte names the module's own address (R358). -/
  | lost (byte : Nat) (bit : Fin 8) (asTarget : Bool)
  /-- Nothing is sent: SDA still low after the ninth clock (R356, step 3). -/
  | stuck
  /-- Abandoned: another device held SCL low for more than 25 ms (R359). -/
  | abandoned
  deriving DecidableEq, Repr

/-- HELLO (R382): certificate chain, nonce of 48 bytes, ephemeral P-384 public key, CFG_SEL role, DEBUG_OFF, and the
hashes of the ENROLLED slots. -/
structure Hello where
  chain : Bytes
  nonce : Bytes
  eph : Bytes
  role : BitVec 2
  debugOff : Bool
  hashes : List Bytes
  deriving DecidableEq, Repr

/-- What the device certificate of a chain names (R364): subject serial and the public key DIK.
[log: DESIGN CHOICE 7] -/
structure PeerCert where
  serial : BitVec 64
  dik : Bytes
  deriving DecidableEq, Repr

/-- The heartbeat of R443. -/
structure Heartbeat where
  pfn : BitVec 48
  flags : Byte
  state : Byte
  digest : Word
  digestPrev : Word
  flagsPrev : Byte
  live : BitVec 16
  rec_ : BitVec 48
  level : BitVec 16
  ack : Word
  deriving DecidableEq, Repr

/-- What a mirrored item carries (R446, R447). -/
inductive PeerBody where
  /-- A frame-staged register. -/
  | reg (off : BitVec 20) (v : Word)
  /-- A record list of MIX_COMMIT, its TARGET_FN in PFN; with a scene's list its parameter sets. -/
  | commit (list : Bytes) (sets : List (Nat × List (Nat × Word)))
  /-- Parameter sets by engine as (word, value), and NOTIFY. -/
  | params (sets : List (Nat × List (Nat × Word))) (notify : Bool)
  | rate (code : BitVec 4)
  | fsw (v : BitVec 10)
  /-- PL_CONTROL. -/
  | pl (op : BitVec 4)
  /-- A swap, clear, envelope load or envelope clear that waits for its match: kind 0 to 3, engine or mask,
  the two identifiers, and the PFN of its staging. -/
  | meet (kind : Fin 4) (unit : BitVec 16) (id ver : Word) (at_ : BitVec 48)
  deriving DecidableEq, Repr

/-- An item from the peer: sequence number, issuing owner, body. -/
structure PeerItem where
  seq : Word
  owner : Owner
  body : PeerBody
  deriving DecidableEq, Repr

/-- A packet from the peer (R437): whether its tag holds, its sequence number, the heartbeat (R443), the answers to this module's items
(sequence number, 0 for accepted else a status, PFN of the frame that answered), the items, and the mirrored input block. -/
structure Packet where
  tagOk : Bool
  seq : Word
  hb : Bytes
  answers : List (Word × BitVec 16 × BitVec 48)
  items : List PeerItem
  inputs : Option (Tbl Int)
  /-- PFN − FN of the receiver, as the strobe alignment over the link gives it (R441). -/
  ofs : Int
  /-- HL_OWNER[g].PEER of the sender, by group (R446). [log: DEDUCED 82] -/
  peerBits : BitVec 58
  deriving DecidableEq, Repr

/-- What the standby reports to the checks of R442. -/
structure PeerView where
  rate : BitVec 4
  fsw : BitVec 10
  phaseLock : Bool
  /-- By engine: state code, RECIPE_ID, RECIPE_VER. -/
  engines : List (Nat × Word × Word)
  /-- By channel: ENV_ID, ENV_VER, LOCKED. -/
  envs : List (Word × Word × Bool)
  /-- HL_OWNER[g].PEER by group. -/
  peerBits : List Bool
  ready : Bool
  deriving DecidableEq, Repr

/-- What the standby receives in the copy of R442: crosspoint entries (key sink × 8192 + source, CUR_GAIN),
parameter words (engine, word, value) and registers (BAR0 offset, value). -/
structure SyncCopy where
  xp : List (Nat × Int)
  params : List (Nat × Nat × Word)
  regs : List (Nat × Word)
  deriving DecidableEq, Repr

/-- Rails with a supply monitor (R415). -/
inductive Rail where
  | vcore | vmem | vioh
  deriving DecidableEq, Repr

/-- What option loading finds (R424–R427): the resistance at CFG_SEL in ohms (an open ball: any above 170 kΩ), which of
its two neighbours is read between two windows, the ECC of fuses and trims. [log: DESIGN CHOICE 7] -/
structure Options where
  ohms : Nat
  upper : Bool
  fuseOk : Bool
  trimOk : Bool
  deriving DecidableEq, Repr

/-- What the Larder finds at bring-up step 3 (R366, R376, R379, R385): a failing self-test, which firmware
slots verify, the lines its reads find uncorrectable or correct, and the µs of a CONTROL reset since its assertion
(R434). -/
structure LarderIn where
  failing : Option Byte
  fwA : Bool
  fwB : Bool
  lost : List PantryLoss
  reads : List Correction
  us : Word
  deriving DecidableEq, Repr

/-- The commands. `t` is FRAC of the occurrence (R8); `c` is the entry of a Hepex command. -/
inductive Instr where
  -- Frame and mix
  /-- FRAME_STROBE: what the blocks outside the self-timed core deliver for the frame. -/
  | frameStrobe (x : StrobeIn)
  /-- FRAME_DRAIN. -/
  | frameDrain (t : Frac) (x : DrainIn)
  /-- PRE_STROBE_MARK. -/
  | preStrobeMark (t : Frac)
  /-- ABORT_END. -/
  | abortEnd (t : Frac) (x : EccIn)
  /-- SINK_COMPLETE: the sink; whether single-bit errors were corrected on the way, and how many. -/
  | sinkComplete (t : Frac) (k : Fin 4096) (corrected : Nat)
  /-- ENGINE_INPUTS_COMPLETE. -/
  | engineInputsComplete (t : Frac) (e : Fin 16)
  /-- ENGINE_FRAME_COMPLETE: single-bit errors of the delay store corrected in the frame. -/
  | engineFrameComplete (t : Frac) (e : Fin 16) (corrected : Nat)
  /-- ENGINE_FAILURE: cause and the stage running at detection. -/
  | engineFailure (t : Frac) (e : Fin 16) (cause : FailCause) (stage : Fin 32)
  /-- DELAY_UNCORRECTABLE: the stage, and the word as a sample of the blocks that hold its lines. -/
  | delayUncorrectable (t : Frac) (e : Fin 16) (stage : Fin 32) (n : Nat)
  /-- LANE_ERROR: the lane and the sinks with a partial sum through it. -/
  | laneError (t : Frac) (lane : Fin 64) (sinks : List Nat)
  /-- TABLE_UNCORRECTABLE: the entry, by sink and source, whether a computing frame read it, its position
  in the table and its SOURCE as read. -/
  | tableUncorrectable (t : Frac) (sink : Fin 4096) (source : Fin 8192) (inFrame : Bool) (pos : Word) (asRead : BitVec 16)
  /-- MX_TIME_READ. -/
  | mxTimeRead (t : Frac)
  /-- XP_LOOKUP: the value written to MX_XP_QUERY. -/
  | xpLookup (t : Frac) (src : Owner) (v : Word) (corrected : Nat)
  /-- SLACK_REARM. -/
  | slackRearm (t : Frac) (src : Owner)
  /-- SLACK_CLEAR. -/
  | slackClear (t : Frac) (src : Owner)
  /-- CLIP_CLEAR: the value written to MX_CLIP_CLEAR. -/
  | clipClear (t : Frac) (src : Owner) (v : Word)
  /-- REGISTER_WRITE. -/
  | registerWrite (t : Frac) (src : Owner) (w : BarWrite)
  /-- MIX_COMMIT: what the reads of the commit list give. -/
  | mixCommit (t : Frac) (c : Cmd) (d : Dma) (corrected : Nat)
  /-- FX_LOAD: what the reads of the image give. -/
  | fxLoad (t : Frac) (c : Cmd) (d : Dma)
  /-- FX_LOAD_STAGED: the length of the interval in µs, what the Larder found in the container, and the order in which
  the module takes free delay blocks. -/
  | fxLoadStaged (t : Frac) (us : Word) (nvOk : Bool) (blocks : List (Fin 1024))
  /-- FX_CLEAR. -/
  | fxClear (t : Frac) (c : Cmd)
  /-- FX_TEST. -/
  | fxTest (t : Frac) (c : Cmd)
  /-- ENGINE_TEST_DONE: the interval in µs, the result and the failing vector. -/
  | engineTestDone (t : Frac) (us : Word) (r : TestResult) (vector : Word)
  /-- FX_PDATA_ACCESS: a read, or the value written. -/
  | fxPdataAccess (t : Frac) (src : Owner) (w : Option Word)
  /-- FX_PCOMMIT: the value written. -/
  | fxPcommit (t : Frac) (src : Owner) (v : Word)
  -- Commands of the host link and of the two-wire bus
  /-- NOP. -/
  | nop (t : Frac) (c : Cmd)
  /-- SETUP_LOCK. -/
  | setupLock (t : Frac) (c : Cmd)
  /-- RESET. -/
  | reset (t : Frac) (c : Cmd)
  /-- MX_HALF with OP OUT. -/
  | mxHalfOut (t : Frac) (c : Cmd)
  /-- MX_HALF with OP IN. -/
  | mxHalfIn (t : Frac) (c : Cmd)
  /-- MX_HALF with OP TEST. -/
  | mxHalfTest (t : Frac) (c : Cmd)
  /-- HALF_TEST_DONE: the interval in µs, the lanes that failed, and a memory failure. -/
  | halfTestDone (t : Frac) (us : Word) (failed : Word) (memBad : Bool)
  /-- SCENE_SAVE with MODE 0. -/
  | sceneSaveStore (t : Frac) (c : Cmd) (d : Dma)
  /-- SCENE_SAVE with MODE 1. -/
  | sceneSaveCapture (t : Frac) (c : Cmd)
  /-- SCENE_RECALL, and the corrections in its reads of the Pantry. -/
  | sceneRecall (t : Frac) (c : Cmd) (reads : List Correction)
  /-- SCENE_DELETE. -/
  | sceneDelete (t : Frac) (c : Cmd)
  /-- SCENE_READ, and the corrections in its reads of the Pantry. -/
  | sceneRead (t : Frac) (c : Cmd) (reads : List Correction)
  /-- PD_DOMAIN. -/
  | pdDomain (t : Frac) (c : Cmd)
  /-- DOMAIN_POWER_GOOD: the domain; for a half the lanes and memory that fail its power-up test; for CLK what
  its first strobe captures. -/
  | domainPowerGood (t : Frac) (d : Fin 10) (failed : Word) (memBad : Bool) (x : StrobeIn)
  /-- DOMAIN_FAULT. -/
  | domainFault (t : Frac) (d : Fin 10) (begun : BitVec 10)
  /-- PD_STATE with STANDBY. -/
  | pdStateStandby (t : Frac) (c : Cmd)
  /-- PD_STATE with SLEEP. -/
  | pdStateSleep (t : Frac) (c : Cmd)
  /-- STATE_ENTRY_HALT. -/
  | stateEntryHalt (t : Frac)
  /-- SLEEP_POWER_DOWN. -/
  | sleepPowerDown (t : Frac)
  /-- SV_FW_STAGE. -/
  | svFwStage (t : Frac) (c : Cmd) (d : Dma)
  /-- SV_FW_ACTIVATE. -/
  | svFwActivate (t : Frac) (c : Cmd)
  /-- FW_CONFIRMED. -/
  | fwConfirmed (t : Frac)
  /-- SV_ATTEST: what the read of the challenge gives. -/
  | svAttest (t : Frac) (c : Cmd) (d : Dma)
  /-- SV_KEYGEN. -/
  | svKeygen (t : Frac) (c : Cmd)
  /-- SV_OWNER_ENROL: what the read of the key hash gives. -/
  | svOwnerEnrol (t : Frac) (c : Cmd) (d : Dma)
  /-- SV_OWNER_REVOKE. -/
  | svOwnerRevoke (t : Frac) (c : Cmd)
  /-- SV_CERT_READ, and the corrections in its reads of the Pantry. -/
  | svCertRead (t : Frac) (c : Cmd) (reads : List Correction)
  /-- PL_CONTROL with OP PAIR; `peerReady` is whether the peer is in READY. -/
  | plPair (t : Frac) (c : Cmd)
  /-- PL_CONTROL with OP UNPAIR. -/
  | plUnpair (t : Frac) (c : Cmd)
  /-- PL_CONTROL with OP FAILOVER. -/
  | plFailover (t : Frac) (c : Cmd)
  /-- PL_CONTROL with OP RESUME. -/
  | plResume (t : Frac) (c : Cmd)
  /-- UNKNOWN_COMMAND: the opcode. -/
  | unknownCommand (t : Frac) (op : BitVec 16) (c : Cmd)
  -- Rings
  /-- COMMAND_DOORBELL: byte enables cover the register, value. -/
  | commandDoorbell (t : Frac) (full : Bool) (v : Word) (cycles : Nat)
  /-- COMPLETION_DOORBELL. -/
  | completionDoorbell (t : Frac) (full : Bool) (v : Word)
  /-- EVENT_DOORBELL. -/
  | eventDoorbell (t : Frac) (full : Bool) (v : Word)
  /-- RING_CFG_WRITE: ring 0 command, 1 completion, 2 event. -/
  | ringCfgWrite (t : Frac) (src : Owner) (r : Fin 3) (v : Word)
  /-- RING_BASE_WRITE. -/
  | ringBaseWrite (t : Frac) (src : Owner) (r : Fin 3) (hi : Bool) (v : Word)
  /-- COMMAND_FETCH: what the read of the entry gives, 64 bytes. -/
  | commandFetch (t : Frac) (d : Dma)
  /-- EVENTS_LOST. -/
  | eventsLost (t : Frac)
  /-- IRQ_HOLDOFF_EXPIRY. -/
  | irqHoldoffExpiry (t : Frac) (v : Fin 64)
  /-- FUNCTION_LEVEL_RESET. -/
  | functionLevelReset (t : Frac)
  /-- LINK_CHANGED: the link after the change, and byte 2 of the event, 0 for a change that raises none. -/
  | linkChanged (t : Frac) (x : LinkIn) (what : Fin 4)
  -- Power stage and protection
  /-- CH_ENABLE. -/
  | chEnable (t : Frac) (c : Fin 12)
  /-- CH_DISABLE. -/
  | chDisable (t : Frac) (c : Fin 12)
  /-- CH_MUTE: the value MUTE changes to. -/
  | chMute (t : Frac) (c : Fin 12) (mute : Bool)
  /-- CH_REARM. -/
  | chRearm (t : Frac) (c : Fin 12)
  /-- PS_CONFIG_WRITE: the register and the value written. -/
  | psConfigWrite (t : Frac) (src : Owner) (c : Fin 12) (r : PsReg) (v : Word)
  /-- BOOTSTRAP_CHARGE_END. -/
  | bootstrapChargeEnd (t : Frac) (c : Fin 12)
  /-- SOFT_START_END. -/
  | softStartEnd (t : Frac) (c : Fin 12)
  /-- STOP_RAMP_END. -/
  | stopRampEnd (t : Frac) (c : Fin 12)
  /-- BR_OVERCURRENT: PVDD at the trip in 10 mV units. -/
  | brOvercurrent (t : Frac) (c : Fin 8) (pvdd : BitVec 16)
  /-- DX_CYCLE_LIMIT: whether the cycle before this one was limited too. -/
  | dxCycleLimit (t : Frac) (d : Fin 4) (consecutive : Bool)
  /-- DX_LIMIT_SHUTDOWN. -/
  | dxLimitShutdown (t : Frac) (d : Fin 4)
  /-- HICCUP_END. -/
  | hiccupEnd (t : Frac) (d : Fin 4)
  /-- CLOCK_MUTE: a missing edge, or (`false`) a frequency error. -/
  | clockMute (t : Frac) (missing : Bool)
  /-- CLOCK_RESUME. -/
  | clockResume (t : Frac)
  /-- DC_FAULT. -/
  | dcFault (t : Frac) (c : Fin 12)
  /-- SUPPLY_MUTE: the die, the supply cause and the voltage in 10 mV units. -/
  | supplyMute (t : Frac) (d : PowerDie) (cause : SupplyCause) (v : BitVec 16)
  /-- SUPPLY_RESUME: the cause that has been good for 1 ms. -/
  | supplyResume (t : Frac) (d : PowerDie) (cause : SupplyCause)
  /-- TEMP_SHUTDOWN: the temperature in 1/16 °C. -/
  | tempShutdown (t : Frac) (d : PowerDie) (temp : BitVec 16)
  /-- TEMP_RESUME. -/
  | tempResume (t : Frac) (d : PowerDie) (temp : BitVec 16)
  /-- PVDD_SAG: the lowest PVDD of the following 1 ms, in 10 mV units. -/
  | pvddSag (t : Frac) (d : PowerDie) (lowest : BitVec 16)
  /-- TEMP_WARN. -/
  | tempWarn (t : Frac) (d : PowerDie) (temp : BitVec 16)
  /-- QUIET_ENTRY. -/
  | quietEntry (t : Frac) (c : Fin 12)
  /-- DOMAIN_IDLE_OFF. -/
  | domainIdleOff (t : Frac) (d : PowerDie)
  /-- IDLE_WAKE_SOFT_START. -/
  | idleWakeSoftStart (t : Frac) (d : PowerDie)
  /-- IDLE_WAKE_RUN. -/
  | idleWakeRun (t : Frac) (d : PowerDie)
  /-- PILOT_WINDOW_END. -/
  | pilotWindowEnd (t : Frac) (c : Fin 12)
  /-- IMP_LATCH_CLEAR. -/
  | impLatchClear (t : Frac) (c : Fin 12)
  /-- PEAK_CLEAR. -/
  | peakClear (t : Frac) (c : Fin 12)
  /-- SP_REGISTER_WRITE: the offset within the channel block, and the value. -/
  | spRegisterWrite (t : Frac) (src : Owner) (c : Fin 12) (off : Fin 64) (v : Word)
  /-- SP_ENV_LOAD: what the reads of the image give. -/
  | spEnvLoad (t : Frac) (c : Cmd) (d : Dma)
  /-- SP_ENV_CLEAR. -/
  | spEnvClear (t : Frac) (c : Cmd)
  -- Analog and PDM inputs
  /-- AI_ENABLE. -/
  | aiEnable (t : Frac) (n : Fin 16)
  /-- AI_PRECHARGE_END. -/
  | aiPrechargeEnd (t : Frac) (n : Fin 16)
  /-- AI_SETTLE_END. -/
  | aiSettleEnd (t : Frac) (q : Fin 48)
  /-- AI_DISABLE. -/
  | aiDisable (t : Frac) (q : Fin 48)
  /-- PGA_GAIN_CHANGE: the new GAIN. -/
  | pgaGainChange (t : Frac) (n : Fin 16) (gain : Fin 121)
  /-- PGA_ZERO_CROSSING. -/
  | pgaZeroCrossing (t : Frac) (n : Fin 16)
  /-- PGA_ZC_TIMEOUT. -/
  | pgaZcTimeout (t : Frac) (n : Fin 16)
  /-- PATH_H_TO_L. -/
  | pathHToL (t : Frac) (n : Fin 16)
  /-- PATH_L_TO_H. -/
  | pathLToH (t : Frac) (n : Fin 16)
  /-- PATH_FORCED. -/
  | pathForced (t : Frac) (n : Fin 16)
  /-- BIAS_ENABLE: enabled, or disabled. -/
  | biasEnable (t : Frac) (b : Fin 4) (en : Bool)
  /-- BIAS_SHORT: CURRENT at switch-off. -/
  | biasShort (t : Frac) (b : Fin 4) (current : Fin 128)
  /-- PDM_STUCK: the value held. -/
  | pdmStuck (t : Frac) (m : Fin 32) (value : Bool)
  /-- PDM_RECOVERED. -/
  | pdmRecovered (t : Frac) (m : Fin 32)
  /-- JACK_CHANGED. -/
  | jackChanged (t : Frac) (j : Fin 8) (cycles : Nat)
  /-- JACK_PLUG_RELEASE. -/
  | jackPlugRelease (t : Frac) (j : Fin 8)
  /-- AI_PEAK_CLEAR: the value written. -/
  | aiPeakClear (t : Frac) (src : Owner) (v : Word)
  -- Analog outputs
  /-- OUT_ENABLE. -/
  | outEnable (t : Frac) (o : Fin 24)
  /-- OUT_CONVERTER_START. -/
  | outConverterStart (t : Frac) (o : Fin 24)
  /-- OUT_SHUNT_OPEN. -/
  | outShuntOpen (t : Frac) (o : Fin 24)
  /-- OUT_STARTED. -/
  | outStarted (t : Frac) (o : Fin 24)
  /-- OUT_DISABLE. -/
  | outDisable (t : Frac) (o : Fin 24)
  /-- OUT_SHUNT_CLOSE. -/
  | outShuntClose (t : Frac) (o : Fin 24)
  /-- OUT_STOPPED. -/
  | outStopped (t : Frac) (o : Fin 24)
  /-- OUT_SHORT: the leg of byte 1 of OUT_SHORT. -/
  | outShort (t : Frac) (o : Fin 24) (leg : ShortLeg)
  /-- CP_FAULT: magnitude of the negative rail in 10 mV units. -/
  | cpFault (t : Frac) (rail : BitVec 16)
  /-- CP_RESUMED. -/
  | cpResumed (t : Frac)
  /-- SUPPLY_CLAMP: VANA33 in 10 mV units. -/
  | supplyClamp (t : Frac) (v : BitVec 16)
  /-- CP_STOP. -/
  | cpStop (t : Frac)
  /-- HP_JACK_CHANGED. -/
  | hpJackChanged (t : Frac) (h : Fin 4) (cycles : Nat)
  /-- HP_JACK_UNMUTE. -/
  | hpJackUnmute (t : Frac) (h : Fin 4)
  /-- OUT_RATE_SETTLE_END. -/
  | outRateSettleEnd (t : Frac) (o : Fin 24)
  -- Serial ports
  /-- PORT_ENABLE. -/
  | portEnable (t : Frac) (p : Fin 8)
  /-- PORT_DISABLE. -/
  | portDisable (t : Frac) (p : Fin 8)
  /-- PORT_FMT_WRITE: the value written. -/
  | portFmtWrite (t : Frac) (src : Owner) (p : Fin 8) (v : Word)
  /-- PORT_FRAME: what the frame start and the frame before it show. -/
  | portFrame (t : Frac) (p : Fin 8) (x : PortFrame)
  /-- SRC_LOCKED. -/
  | srcLocked (t : Frac) (p : Fin 8)
  /-- FS_MISSING_TIMEOUT. -/
  | fsMissingTimeout (t : Frac) (p : Fin 8)
  /-- MASK_WRITE: the direction (`true` receive), the value, and whether it completes after the mark of
  the next frame start. -/
  | maskWrite (t : Frac) (src : Owner) (p : Fin 8) (rx : Bool) (v : Word) (late : Bool)
  -- Clocks
  /-- SET_FRAME_RATE. -/
  | setFrameRate (t : Frac) (c : Cmd)
  /-- FRAME_RATE_APPLIED: the busy interval in µs, and what the first strobe captures. -/
  | frameRateApplied (us : Word) (x : StrobeIn)
  /-- SET_FSW. -/
  | setFsw (t : Frac) (c : Cmd)
  /-- PLL_LOCKED: the PLL, its band, whether the cached band locked, and the lock time in µs. -/
  | pllLocked (t : Frac) (j : Fin 4) (band : Fin 64) (cached : Bool) (us : BitVec 16)
  /-- PLL_UNLOCKED: by phase, or (`false`) by frequency. -/
  | pllUnlocked (t : Frac) (j : Fin 4) (phase : Bool)
  /-- STROBE_RESTART: the unlock of the strobe PLL, by phase or by frequency (R240). -/
  | strobeRestart (t : Frac) (phase : Bool)
  /-- REF_EDGE_TIMEOUT. -/
  | refEdgeTimeout (t : Frac) (r : RefSource)
  /-- REF_QUALIFIED: the measured offset in 0.1 ppm. -/
  | refQualified (t : Frac) (r : RefSource) (offset : BitVec 24)
  /-- REF_FREQUENCY_OUT_OF_WINDOW. -/
  | refFrequencyOutOfWindow (t : Frac) (r : RefSource) (offset : BitVec 24)
  /-- REF_EDGE_RETURN. -/
  | refEdgeReturn (t : Frac) (r : RefSource)
  /-- REF_HOLDOFF_EXPIRY. -/
  | refHoldoffExpiry (t : Frac) (r : RefSource)
  /-- REF_FREQ_ACQ_END: the measured offset in 10^-12, and whether the nearer alignment is later than the strobe. -/
  | refFreqAcqEnd (t : Frac) (offset : Int) (later : Bool)
  /-- REF_PHASE_WALK_END: the phase error in 0.1 ns. -/
  | refPhaseWalkEnd (t : Frac) (err : Word)
  /-- REF_LOCKED: the phase error in 0.1 ns. -/
  | refLocked (t : Frac) (err : Word)
  /-- CK_STEER_WRITE: the value written. -/
  | ckSteerWrite (t : Frac) (src : Owner) (v : Word)
  /-- SPREAD_APPLY. -/
  | spreadApply (t : Frac)
  /-- XTAL_FAIL. -/
  | xtalFail (t : Frac)
  /-- XTAL_RESTORED. -/
  | xtalRestored (t : Frac)
  /-- FP_OUT_STATE: the output, and whether it runs again. -/
  | fpOutState (t : Frac) (k : Fin 2) (run : Bool)
  /-- CACHE_FLUSH: the value written. -/
  | cacheFlush (t : Frac) (src : Owner) (v : Word)
  -- Ladle
  /-- SC_CAL with STEP ZERO. -/
  | scCalZero (t : Frac) (c : Cmd)
  /-- SC_CAL with STEP FULL. -/
  | scCalFull (t : Frac) (c : Cmd)
  /-- SC_CAL with STEP SAVE. -/
  | scCalSave (t : Frac) (c : Cmd)
  /-- SCAN_START. -/
  | scanStart (t : Frac) (src : Owner) (k : Fin 2)
  /-- SCAN_STOP: a write of STOP, or (`none`) AIN powering off. -/
  | scanStop (t : Frac) (src : Option Owner) (k : Fin 2)
  /-- SC_CONVERSION_DONE: converter, entry, what it measured, sampling instant, whether this is an urgent conversion, and
  what SC1 measured at the same instant under GANG (R269). -/
  | scConversionDone (t : Frac) (k : Fin 2) (e : Fin 512) (x : AdcIn) (fn : BitVec 48) (frac : Frac) (urgent : Bool)
      (twin : AdcIn)
  /-- URGENT_CONVERSION: the value written, and whether a conversion runs or its start wins. -/
  | urgentConversion (t : Frac) (src : Owner) (k : Fin 2) (v : Word) (startWins : Bool)
  -- Streams
  /-- GROUP_START. -/
  | groupStart (t : Frac) (c : Cmd)
  /-- CTX_STOP. -/
  | ctxStop (t : Frac) (c : Cmd)
  /-- STREAM_DOORBELL: context, byte enables cover the register, value. -/
  | streamDoorbell (t : Frac) (k : Fin 256) (full : Bool) (v : Word)
  /-- STREAM_ENABLE: the value written to STR_CFG, with EN = 1. -/
  | streamEnable (t : Frac) (src : Owner) (k : Fin 256) (v : Word)
  /-- DESCRIPTOR_FETCH: what the read of the next announced descriptor gives. -/
  | descriptorFetch (t : Frac) (k : Fin 256) (d : ReadResult)
  /-- PLAYBACK_READ_LANDED: the frame and the bytes of its channels. -/
  | playbackReadLanded (t : Frac) (k : Fin 256) (fn : BitVec 48) (d : ReadResult)
  /-- RECORD_DEADLINE. -/
  | recordDeadline (t : Frac) (k : Fin 256)
  /-- DESCRIPTOR_RETIRE. -/
  | descriptorRetire (t : Frac) (k : Fin 256)
  /-- STREAM_ERROR: the halt cause of R335. -/
  | streamError (t : Frac) (k : Fin 256) (cause : StreamCause)
  /-- GROUP_START_FRAME: the playback contexts whose frame the stream store holds with an uncorrectable error (R335). -/
  | groupStartFrame (t : Frac) (g : Fin 32) (lost : List (Fin 256))
  /-- STR_POS_READ. -/
  | strPosRead (t : Frac) (k : Fin 256)
  -- Two-wire bus
  /-- TW_REG_READ. -/
  | twRegRead (t : Frac) (x : TwTx) (r : ReadIn)
  /-- TW_REG_WRITE. -/
  | twRegWrite (t : Frac) (x : TwTx) (w : WriteIn)
  /-- TW_CMD. -/
  | twCmd (t : Frac) (x : TwTx)
  /-- TW_CMD_RESULT. -/
  | twCmdResult (t : Frac) (x : TwTx)
  /-- TW_BUF_WRITE. -/
  | twBufWrite (t : Frac) (x : TwTx)
  /-- TW_BUF_READ. -/
  | twBufRead (t : Frac) (x : TwTx)
  /-- TW_EVENT_READ. -/
  | twEventRead (t : Frac) (x : TwTx)
  /-- TW_STATUS_READ. -/
  | twStatusRead (t : Frac) (x : TwTx)
  /-- TW_RESET. -/
  | twReset (t : Frac) (x : TwTx)
  /-- TW_UNKNOWN_CODE: the code byte. -/
  | twUnknownCode (t : Frac) (code : Byte)
  /-- ALERT_RESPONSE: whether the module loses arbitration. -/
  | alertResponse (t : Frac) (lost : Bool)
  /-- ALERT_REARM. -/
  | alertRearm (t : Frac)
  /-- HOST_NOTIFY: what becomes of the first attempt. -/
  | hostNotify (t : Frac) (r : CtlResult)
  /-- NOTIFY_RETRY: what becomes of the attempt. -/
  | notifyRetry (t : Frac) (r : CtlResult)
  /-- CONTROLLER_RETRY: what becomes of the retry of a lost or abandoned message. -/
  | controllerRetry (t : Frac) (r : CtlResult)
  /-- TW_SDA_STUCK: SDA still low after the ninth clock of a first attempt. -/
  | twSdaStuck (t : Frac)
  /-- SDA_STUCK_RETRY: freed, with what becomes of the message, or still low. -/
  | sdaStuckRetry (t : Frac) (freed : Option CtlResult)
  /-- TW_STRETCH_RESET: as target with the command code, or as controller. -/
  | twStretchReset (t : Frac) (target : Bool) (code : Byte) (write : Bool)
  /-- TW_SCL_LOW: the use of the bus, and whether a transaction of the target was interrupted. -/
  | twSclLow (t : Frac) (role : BusUse) (inTx : Bool)
  /-- TW_SDA_LOW: whether the module's own target logic drove SDA, and a transaction was interrupted. -/
  | twSdaLow (t : Frac) (own inTx : Bool)
  /-- TW_WAKE_MATCH: the address byte's seven bits. -/
  | twWakeMatch (t : Frac) (addr : BitVec 7) (cycles : Nat)
  /-- TW_WAKE_KNOCK: SCL rising edges with SDA high, and whether SDA was low at any. -/
  | twWakeKnock (t : Frac) (edges : Nat) (low : Bool) (cycles : Nat)
  -- VCORE request
  /-- VCORE_LEVEL_RAISE: what becomes of the message. -/
  | vcoreLevelRaise (t : Frac) (r : CtlResult)
  /-- VCORE_LEVEL_LOWER. -/
  | vcoreLevelLower (t : Frac) (r : CtlResult)
  /-- CT_VID_WRITE: the value written, and what becomes of a message it causes. -/
  | ctVidWrite (t : Frac) (src : Owner) (v : Word) (r : CtlResult)
  -- Trust
  /-- PANTRY_UNCORRECTABLE. -/
  | pantryUncorrectable (t : Frac) (x : PantryLoss)
  /-- PAIR_HELLO: the message, and its device certificate where the chain holds against the Neroutur root. -/
  | pairHello (t : Frac) (h : Hello) (cert : Option PeerCert)
  /-- PAIR_FINISH: the signature. -/
  | pairFinish (t : Frac) (sig : Bytes)
  /-- PAIR_AUTH_TIMEOUT. -/
  | pairAuthTimeout (t : Frac)
  /-- PAIR_AUTH_RETRY. -/
  | pairAuthRetry (t : Frac)
  -- Domains, wake and the real-time clock
  /-- WAKE_SOURCE: the source, the comparator when it is AWC, for DP0_FS the gaps in µs between its last rising edges
  (R230), and RTC cycles since the last RTC command. -/
  | wakeSource (t : Frac) (src : Fin 10) (awc : Fin 8) (gaps : List (BitVec 16)) (cycles : Nat)
  /-- STANDBY_WAKE_STROBE: what the first strobe captures. -/
  | standbyWakeStrobe (cycles : Nat) (x : StrobeIn)
  /-- RTC_ALARM: oscillator cycles since the last RTC command. -/
  | rtcAlarm (t : Frac) (cycles : Nat)
  /-- RTC_OSC_FAIL: oscillator cycles since the last RTC command. -/
  | rtcOscFail (t : Frac) (cycles : Nat)
  /-- RTC_OSC_RESTART. -/
  | rtcOscRestart (t : Frac)
  /-- RTC_SET: the value written to PD_RTC_SET_HI, and oscillator cycles since the last RTC command. -/
  | rtcSet (t : Frac) (src : Owner) (v : Word) (cycles : Nat)
  /-- RTC_READ: oscillator cycles since the last RTC command. -/
  | rtcRead (t : Frac) (cycles : Nat)
  /-- RET_DATA_ACCESS: a read (whether the word is uncorrectable), or the value written. -/
  | retDataAccess (t : Frac) (src : Owner) (w : Option Word) (bad : Bool)
  /-- AWC_CHANGED: the comparator, and the voltages in mV of its ball and of VAON on which two samples agree. -/
  | awcChanged (t : Frac) (k : Fin 8) (ball vaon : BitVec 16) (cycles : Nat)
  -- Reset and bring-up
  /-- POWER_ON_RESET. -/
  | powerOnReset (t : Frac)
  /-- SUPPLY_MONITOR_RESET. -/
  | supplyMonitorReset (t : Frac) (r : Rail)
  /-- SUPPLY_MONITOR_CLEAR. -/
  | supplyMonitorClear (t : Frac) (r : Rail)
  /-- RST_N_ASSERT: driven low from outside for long enough to be taken (R421). -/
  | rstNAssert (t : Frac)
  /-- RST_N_RELEASE: the module releases RST_N; whether it still reads low 20 µs later. -/
  | rstNRelease (t : Frac) (stillLow : Bool)
  /-- RST_N_EXTENSION_END. -/
  | rstNExtensionEnd (t : Frac)
  /-- PERST_ASSERT. -/
  | perstAssert (t : Frac)
  /-- PERST_RELEASE. -/
  | perstRelease (t : Frac) (cycles : Nat)
  /-- WATCHDOG_RESET: oscillator cycles since the last RTC command. -/
  | watchdogReset (t : Frac) (cycles : Nat)
  /-- CRITICAL_ERROR: region 1 to 5 and word address. -/
  | criticalError (t : Frac) (region : Fin 6) (word : BitVec 16)
  /-- OPTION_LOADING_DONE. -/
  | optionLoadingDone (t : Frac) (o : Options)
  /-- BRINGUP_CTRL_UP: whether the journal record of an interrupted commit is complete (R386). -/
  | bringupCtrlUp (t : Frac) (complete : Bool)
  /-- BRINGUP_LARDER_DONE. -/
  | bringupLarderDone (t : Frac) (x : LarderIn)
  /-- BRINGUP_CLK_UP. -/
  | bringupClkUp (x : ClkUp)
  /-- BRINGUP_HOST_UP: µs from assertion to the end of bring-up. -/
  | bringupHostUp (t : Frac) (us : Word)
  -- Pair
  /-- STRELLIN_CHANGED: LANES. -/
  | strellinChanged (t : Frac) (lanes : BitVec 2)
  /-- LINK_DELAY_MEASURE: half the round trip in 0.1 ns. -/
  | linkDelayMeasure (t : Frac) (delay : BitVec 16)
  /-- PAIR_PACKET. -/
  | pairPacket (t : Frac) (p : Packet)
  /-- HEARTBEAT_MISSED: the PFN missed. -/
  | heartbeatMissed (t : Frac) (pfn : BitVec 48)
  /-- SYNC_CHECK_RETRY: what the standby reports. -/
  | syncCheckRetry (t : Frac) (v : PeerView)
  /-- SYNC_COPY_DONE: what the standby received. -/
  | syncCopyDone (t : Frac) (x : SyncCopy)
  /-- RENDEZVOUS_TIMEOUT: the item's sequence number. -/
  | rendezvousTimeout (t : Frac) (seq : Word)
  /-- RELAY_DELAY_EXPIRY. -/
  | relayDelayExpiry (t : Frac)
  /-- FAILOVER_PIN_LOW. -/
  | failoverPinLow (t : Frac)
  /-- FAILOVER_PIN_HIGH. -/
  | failoverPinHigh (t : Frac)
  /-- PEER_RESET_SEND: the value written to PL_PEER_CMD. -/
  | peerResetSend (t : Frac) (src : Owner) (v : Word)
  /-- PEER_RESET_REQUEST: the scope the peer names. -/
  | peerResetRequest (t : Frac) (scope : BitVec 2)
  /-- LONG_OPERATION_DONE: the interval in µs and what it brings. -/
  | longOperationDone (t : Frac) (us : Word) (r : LongDone)
  /-- LINK_REAUTHENTICATION. -/
  | linkReauthentication (t : Frac)
  deriving DecidableEq, Repr

end Sys2Proof
end

