-- ==== Sys2Proof/Decode.lean ====
section
/-! DEFINITION. The command that a word of the table of operations and events spells. The table gives none of
its rows bits, so no word spells a command: commands come with their operands, in the queue. -/

namespace Sys2Proof

/-- No row of the table gives bits. [log: DEDUCED 2] -/
def decodeTableWord (_nbits _w : Nat) : Option Instr := none

end Sys2Proof
end

