-- ==== Sys2Proof/Config.lean ====
section
/-! DEFINITION. What a module is made with, and the free values: constants without a body, so that no
proof can rest on a value the spec leaves open. In every file, `[log: mark n]` at the end of a comment names the row
`notes/assumptions/n.md` on which the definition rests. -/

namespace Sys2Proof.Config

open Sys2Proof

/-- A value the spec leaves open, by the number of the draw (`State.draws`). [log: DESIGN CHOICE 8] -/
opaque free : Nat → BitVec 64

/-- STEP_MAJOR and STEP_MINOR of CT_ID, and CT_BEHAVIOUR.LEVEL (R14, R15: per stepping). [log: DESIGN CHOICE 34] -/
opaque stepMajor : BitVec 8
opaque stepMinor : BitVec 8
/-- [log: DESIGN CHOICE 34] -/
opaque levelCode : BitVec 16
/-- CT_BEHAVIOUR.LEVEL: never 0x0000 (R15). -/
def level : BitVec 16 := if levelCode = 0 then 1 else levelCode

/-- Device serial and the fuse that disables every debug path (R364, R365). [log: DESIGN CHOICE 34] -/
opaque serial : BitVec 64
opaque debugOff : Bool

/-- Subsystem and subsystem vendor IDs in the product owner's fuses, 0x0000 each when unfused (R286).
[log: DESIGN CHOICE 34] -/
opaque subsystem : Word

/-- The fuses of State as they leave Neroutur test (R364): the device root key, and the hash of the Neroutur firmware
key. [log: DESIGN CHOICE 34] -/
opaque drk : Bytes
opaque nerouturHash : Bytes

/-- The first content key of a module, its record in the Pantry, and the IV under which K_STORE encrypts each later one, by
its number: the spec gives no IV (R364, R377). [log: DESIGN CHOICE 34] -/
opaque dck : Nat
opaque dckRecord : Bytes
opaque storeIv : Nat → BitVec 96

/-- The frame sequence number at which the modules authenticate again, below 2^32 (R383). [log: DESIGN CHOICE 34] -/
opaque reauthSeq : Nat

/-- VCORE level fused at Neroutur test is 0b10, else 0b01 (R476). [log: DESIGN CHOICE 11] -/
opaque fusedHigh : Bool

/-- The board's crystal is 22.5792 MHz, else 24.576 MHz (R236). [log: DESIGN CHOICE 34] -/
opaque crystal22 : Bool

/-- The device and the intermediate certificate in DER (R364). [log: DESIGN CHOICE 34] -/
opaque certDevice : Bytes
opaque certInter : Bytes

/-- The final decimation filter of an analog input (R179), of which the spec gives the response and not the
coefficients: its state after eight more samples at 8 × fs, and its output before it saturates, by rate and filter.
[log: DESIGN CHOICE 98] -/
opaque decimatorStep : Nat → Nat → List Int → Nat
/-- [log: DESIGN CHOICE 98] -/
opaque decimatorOut : Nat → Nat → Int

/-- An interpolator of the power stage (R110) or of an analog output (R201), of which the spec gives delay and response and
not the coefficients: its state after one more sample, and value `k` at the raised rate of the frame that follows; by
its kind. [log: DESIGN CHOICE 97] -/
opaque interpolatorStep : Nat → Nat → Word → Nat
/-- [log: DESIGN CHOICE 97] -/
opaque interpolatorOut : Nat → Nat → Nat → Word

/-- The rate converter of one slot (R221, R222), of which the spec gives figures and not the coefficients: its state after
one more sample, by the ratio and by where the sample came between two strobes; and its output in Q1.31.
[log: DESIGN CHOICE 98] -/
opaque converterStep : Nat → Word → Word → Int → Nat
/-- [log: DESIGN CHOICE 98] -/
opaque converterOut : Nat → Word → Word → Word

/-- What a field of a report shows for a value outside its format, by the field's width and the value (`none`
for what is no finite number). [log: DESIGN CHOICE 36] -/
opaque outOfRange : Nat → Option Int → Nat

end Sys2Proof.Config
end

