-- ==== Sys2Proof/Machine/Util.lean ====
section
/-! DEFINITION. Sparse tables, bit fields, byte order and integer helpers shared by every meaning. -/

namespace Sys2Proof.Machine

open Sys2Proof

/-! ### Sparse tables -/

/-- What key `k` reads as; `d` is what an unlisted key reads as. -/
def tget {α : Type} (d : α) : Tbl α → Nat → α
  | [], _ => d
  | (k', v) :: r, k => if k' = k then v else tget d r k

/-- A table without key `k`. -/
def tdel {α : Type} (t : Tbl α) (k : Nat) : Tbl α := t.filter (fun e => e.1 != k)

/-- Insert an entry ahead of the first greater key. -/
def tins {α : Type} : Tbl α → Nat → α → Tbl α
  | [], k, v => [(k, v)]
  | (k', v') :: r, k, v => if k < k' then (k, v) :: (k', v') :: r else (k', v') :: tins r k v

/-- Write `v` at key `k`, keeping the keys rising and dropping an entry equal to the default. -/
def tput {α : Type} [DecidableEq α] (d : α) (t : Tbl α) (k : Nat) (v : α) : Tbl α :=
  if v = d then tdel t k else tins (tdel t k) k v

/-- Rewrite the value at one key. -/
def tmod {α : Type} [DecidableEq α] (d : α) (t : Tbl α) (k : Nat) (f : α → α) : Tbl α :=
  tput d t k (f (tget d t k))

/-- Rewrite every listed value, dropping what becomes the default. -/
def tmapv {α : Type} [DecidableEq α] (d : α) (f : Nat → α → α) (t : Tbl α) : Tbl α :=
  (t.map (fun e => (e.1, f e.1 e.2))).filter (fun e => !decide (e.2 = d))

/-- The listed keys. -/
def tkeys {α : Type} (t : Tbl α) : List Nat := t.map Prod.fst

/-- Every listed key is above `b`, the keys rise, and no value is the default. -/
def twfFrom {α : Type} [DecidableEq α] (d : α) : Option Nat → Tbl α → Bool
  | _, [] => true
  | b, (k, v) :: r =>
    (match b with | none => true | some x => decide (x < k)) && !decide (v = d) && twfFrom d (some k) r

/-- The canonical form of a table. -/
def twf {α : Type} [DecidableEq α] (d : α) (t : Tbl α) : Bool := twfFrom d none t

/-- A table from a list of writes, later writes over earlier ones. -/
def tmk {α : Type} [DecidableEq α] (d : α) (l : List (Nat × α)) : Tbl α :=
  l.foldl (fun t e => tput d t e.1 e.2) []

/-! ### Integers -/

/-- A count that stays at its largest value (R43, R75 and every counter field). -/
def satTo (m n : Nat) : Nat := if n ≤ m then n else m

/-- One more, on a counter of 32 bits that saturates. -/
def inc32 (n : Nat) : Nat := satTo 0xFFFFFFFF (n + 1)

/-- One more, on a counter of 16 bits that saturates. -/
def inc16 (n : Nat) : Nat := satTo 0xFFFF (n + 1)

/-- One more, on a counter of 8 bits that saturates. -/
def inc8 (n : Nat) : Nat := satTo 0xFF (n + 1)

/-- `sat()` of R53: clamp to the range of a signed number of 32 bits. -/
def sat32 (x : Int) : Int :=
  if x > 2147483647 then 2147483647 else if x < -2147483648 then -2147483648 else x

/-- Clamp to a signed range. -/
def clampI (lo hi x : Int) : Int := if x > hi then hi else if x < lo then lo else x

/-- The signed value of the low `w` bits of `n`. -/
def sext (w n : Nat) : Int :=
  let m := n % 2 ^ w
  if m < 2 ^ (w - 1) then (m : Int) else (m : Int) - 2 ^ w

/-- The low `w` bits of a signed number, as an unsigned number. -/
def toU (w : Nat) (x : Int) : Nat := (x % (2 ^ w : Nat)).toNat

/-- The integer square root, bit by bit from bit `b`. -/
def isqrtAux (n : Nat) : Nat → Nat → Nat
  | 0, r => if (r + 1) * (r + 1) ≤ n then r + 1 else r
  | b + 1, r =>
    let r' := r + 2 ^ (b + 1)
    isqrtAux n b (if r' * r' ≤ n then r' else r)

/-- The largest `r` below 2^65 with `r * r ≤ n`. -/
def isqrt (n : Nat) : Nat := isqrtAux n 64 0

/-- `ceil(log2 n)` for `n ≥ 1`, found with at most 32 doublings. -/
def clog2Aux (n : Nat) : Nat → Nat → Nat
  | 0, c => c
  | f + 1, c => if n ≤ 2 ^ c then c else clog2Aux n f (c + 1)

def clog2 (n : Nat) : Nat := clog2Aux n 32 0

/-! ### Bit fields and byte order -/

/-- Field `hi:lo` of a number. -/
def fldN (n hi lo : Nat) : Nat := n / 2 ^ lo % 2 ^ (hi + 1 - lo)

/-- Field `hi:lo` of a register. -/
def fld (w : Word) (hi lo : Nat) : Nat := fldN w.toNat hi lo

/-- Bit `b` of a register. -/
def bit (w : Word) (b : Nat) : Bool := fld w b b == 1

/-- Bit `b` of a number. -/
def bitN (n b : Nat) : Bool := n / 2 ^ b % 2 == 1

/-- 1 for true. -/
def b2n (b : Bool) : Nat := if b then 1 else 0

/-- A register put together from (low bit, value) pairs. -/
def mkW (l : List (Nat × Nat)) : Word := BitVec.ofNat 32 (l.foldl (fun a e => a + e.2 * 2 ^ e.1) 0)

/-- A mask with bits `hi:lo` set. -/
def maskN (hi lo : Nat) : Nat := 2 ^ (hi + 1) - 2 ^ lo

/-- The bit mask of a list of bit numbers below `n` for which `p` holds. -/
def maskOf (n : Nat) (p : Nat → Bool) : Nat :=
  (List.range n).foldl (fun a i => if p i then a + 2 ^ i else a) 0

/-- A little-endian number from bytes. -/
def leNat : Bytes → Nat
  | [] => 0
  | b :: r => b.toNat + 256 * leNat r

/-- The `n` little-endian bytes of a number. -/
def toLE : Nat → Nat → Bytes
  | 0, _ => []
  | n + 1, v => BitVec.ofNat 8 v :: toLE n (v / 256)

/-- The little-endian number in `n` bytes from byte `o` of a string. -/
def leAt (b : Bytes) (o n : Nat) : Nat := leNat ((b.drop o).take n)

/-- A string cut in pieces of `w` bytes, the first `n` of them. -/
def chunks (w : Nat) : Nat → Bytes → List Bytes
  | 0, _ => []
  | n + 1, b => b.take w :: chunks w n (b.drop w)

/-- The 16-byte PAYLOAD of an event record (R10), from (first byte, bytes, value) parts;
a part wider than its bytes is cut to them, and unused bytes read 0. -/
def pay (l : List (Nat × Nat × Nat)) : BitVec 128 :=
  BitVec.ofNat 128 (l.foldl (fun a e => a + e.2.2 % 2 ^ (8 * e.2.1) * 2 ^ (8 * e.1)) 0)

end Sys2Proof.Machine
end

