-- ==== Sys2Proof/Machine/F32.lean ====
section
/-! DEFINITION. IEEE 754 binary32 arithmetic, held as its 32 bits: every result is the exact one rounded to
nearest, ties to even (R143). -/

namespace Sys2Proof.Machine.F32

open Sys2Proof Sys2Proof.Machine

def nan : Word := 0x7FC00000
def inf : Word := 0x7F800000
def zero : Word := 0
def one : Word := 0x3F800000

def sign (w : Word) : Bool := bit w 31
def isNan (w : Word) : Bool := fld w 30 23 == 255 && fld w 22 0 != 0
def isInf (w : Word) : Bool := fld w 30 0 == 0x7F800000
def isZero (w : Word) : Bool := fld w 30 0 == 0

/-- |w| of a finite value as a number of units of 2^-149. -/
def mag (w : Word) : Nat :=
  let e := fld w 30 23
  if e = 0 then fld w 22 0 else (2 ^ 23 + fld w 22 0) * 2 ^ (e - 1)

/-- A finite value as a signed number of units of 2^-149. -/
def units (w : Word) : Int := if sign w then -(mag w : Int) else mag w

/-- Put a sign to the bits of a magnitude. -/
def withSign (neg : Bool) (m : Nat) : Word := BitVec.ofNat 32 (m + if neg then 2 ^ 31 else 0)

/-- The bits of the magnitude `m × 2^e`, in units of 2^-149, rounded; `sticky` says that a part below is left out. -/
def roundMag (m : Nat) (e : Int) (sticky : Bool) : Nat :=
  if m = 0 then 0
  else
    let top : Int := (Nat.log2 m : Int) + e
    let q : Int := if top ≤ 23 then 0 else top - 23
    let k := (q - e).toNat
    let p := if q ≤ e then m * 2 ^ (e - q).toNat else m / 2 ^ k
    let rem := if q ≤ e then 0 else m % 2 ^ k
    let half := if k = 0 then 0 else 2 ^ (k - 1)
    let up : Bool := !(decide (q ≤ e)) && (decide (half < rem) || (rem == half && (sticky || p % 2 == 1)))
    let r := q.toNat * 2 ^ 23 + p + b2n up
    if 0x7F800000 ≤ r then 0x7F800000 else r

/-- A quotient of integers, rounded. -/
def ofRatio (n : Int) (d : Nat) : Word :=
  if n = 0 ∨ d = 0 then 0
  else
    let a := n.natAbs * 2 ^ 213
    withSign (decide (n < 0)) (roundMag (a / d) (-64) (a % d != 0))

def ofInt (n : Int) : Word := ofRatio n 1

def neg (w : Word) : Word := w ^^^ 0x80000000
def abs (w : Word) : Word := w &&& 0x7FFFFFFF

def add (a b : Word) : Word :=
  if isNan a || isNan b then nan
  else if isInf a then (if isInf b && sign a != sign b then nan else a)
  else if isInf b then b
  else
    let s := units a + units b
    if s = 0 then (if sign a && sign b then withSign true 0 else 0)
    else withSign (decide (s < 0)) (roundMag s.natAbs 0 false)

def sub (a b : Word) : Word := add a (neg b)

def mul (a b : Word) : Word :=
  let neg := sign a != sign b
  if isNan a || isNan b then nan
  else if isInf a || isInf b then (if isZero a || isZero b then nan else withSign neg 0x7F800000)
  else withSign neg (roundMag (mag a * mag b) (-149) false)

def div (a b : Word) : Word :=
  let neg := sign a != sign b
  if isNan a || isNan b then nan
  else if isInf a then (if isInf b then nan else withSign neg 0x7F800000)
  else if isInf b then withSign neg 0
  else if isZero b then (if isZero a then nan else withSign neg 0x7F800000)
  else
    let n := mag a * 2 ^ 320
    withSign neg (roundMag (n / mag b) (149 - 320) (n % mag b != 0))

/-- The integer square root of a number below 2^(2n), by bits from the highest. -/
def rootAux (n : Nat) : Nat → Nat → Nat
  | 0, r => r
  | k + 1, r =>
    let r' := r + 2 ^ k
    rootAux n k (if r' * r' ≤ n then r' else r)

def sqrt (a : Word) : Word :=
  if isNan a then nan
  else if isZero a then a
  else if sign a then nan
  else if isInf a then a
  else
    let n := mag a * 2 ^ 201
    let r := rootAux n 240 0
    withSign false (roundMag r (-26) (r * r != n))

/-- `a < b`, false when either is not a number. -/
def lt (a b : Word) : Bool :=
  if isNan a || isNan b then false
  else if isInf a then sign a && !(isInf b && sign b)
  else if isInf b then !sign b
  else decide (units a < units b)

/-- `a ≤ b`, false when either is not a number. -/
def le (a b : Word) : Bool := !isNan a && !isNan b && !lt b a

def max (a b : Word) : Word := if lt a b then b else a
def min (a b : Word) : Word := if lt b a then b else a

/-- The nearest integer, halves away from zero; none for what is no finite number. -/
def toInt (a : Word) : Option Int :=
  if isNan a || isInf a then none
  else
    let m : Int := ((2 * mag a + 2 ^ 149) / 2 ^ 150 : Nat)
    some (if sign a then -m else m)

end Sys2Proof.Machine.F32
end

