-- ==== Sys2Proof/Machine/Aes.lean ====
section
/-! DEFINITION. AES-256 in Galois counter mode, as the Larder uses it (R370, R383). -/

namespace Sys2Proof.Machine

open Sys2Proof

/-! ### AES-256 -/

/-- The substitution of bytes, 32 in each number, the lowest first. -/
def aesTable : List Nat :=
  [0xC072A49CAFA2D4ADF04759FA7DC982CA76ABD7FE2B670130C56F6BF27B777C63,
   0x75B227EBE28012079A059618C323C7041531D871F1E5A534CCF73F362693FDB7,
   0xCF584C4A39BECB6A5BB1FC20ED00D153842FE329B3D63B52A05A6E1B1A2C8309,
   0xD2F3FF1021DAB6BCF5389D928F40A351A89F3C507F02F94585334D43FBAAEFD0,
   0xDB0B5EDE14B8EE4688902A22DC4F816073195D643D7EA7C41744975FEC130CCD,
   0x08AE7A65EAF4566CA94ED58D6D37C8E779E4959162ACD3C25C2406490A3A32E0,
   0x9E1DC186B95735610EF6034866B53E708A8BBD4B1F74DDE8C6B4A61C2E2578BA,
   0x16BB54B00F2D99416842E6BF0D89A18CDF2855CEE9871E9B948ED9691198F8E1]

def aesSub (x : Nat) : Nat := aesTable.getD (x / 32) 0 >>> (8 * (x % 32)) % 256

/-- Twice a byte in GF(2^8). -/
def aesTwice (x : Nat) : Nat := if x < 128 then 2 * x else (2 * x) ^^^ 0x11B

/-- Bytes computed one after the other, before what uses them. -/
def strictAll {α : Type} : List Nat → (List Nat → α) → α
  | [], k => k []
  | x :: r, k => strict x (fun x => strictAll r (fun l => k (x :: l)))

def xorAll (a b : List Nat) : List Nat := (a.zip b).map (fun p => p.1 ^^^ p.2)

/-- The words of the key schedule after the last eight, `i` counting from 8. -/
def aesWords : Nat → Nat → Nat → List (List Nat) → List (List Nat)
  | 0, _, _, _ => []
  | n + 1, i, rc, w =>
    let p := w.getD 7 []
    let t := if i % 8 = 0 then
        xorAll ((p.drop 1 ++ p.take 1).map aesSub) [rc, 0, 0, 0]
      else if i % 8 = 4 then p.map aesSub else p
    strictAll (xorAll (w.headD []) t) (fun x =>
      x :: aesWords n (i + 1) (if i % 8 = 0 then aesTwice rc else rc) (w.drop 1 ++ [x]))

/-- Lists cut in pieces of `w`, the first `n` of them. -/
def pieces (w : Nat) : Nat → List Nat → List (List Nat)
  | 0, _ => []
  | n + 1, l => l.take w :: pieces w n (l.drop w)

/-- The fifteen round keys of a key of 32 bytes. -/
def aesKeys (key : Bytes) : List (List Nat) :=
  let w := pieces 4 8 (key.map (·.toNat))
  pieces 16 15 ((w ++ aesWords 52 8 1 w).flatMap id)

/-- The rows of a block turned left, and its columns mixed. -/
def aesShift (b : List Nat) : List Nat := (List.range 16).map (fun i => b.getD ((i + 4 * (i % 4)) % 16) 0)

def aesMixCol (c : List Nat) : List Nat :=
  let all := c.foldl (· ^^^ ·) 0
  (List.range 4).map (fun i => c.getD i 0 ^^^ all ^^^ aesTwice (c.getD i 0 ^^^ c.getD ((i + 1) % 4) 0))

def aesMix (b : List Nat) : List Nat := (pieces 4 4 b).flatMap aesMixCol

/-- The rounds after the first key, the last without mixing. -/
def aesRounds : List (List Nat) → List Nat → List Nat
  | [], b => b
  | [k], b => xorAll (aesShift (b.map aesSub)) k
  | k :: ks, b => strictAll (aesShift (b.map aesSub)) (fun b => strictAll (xorAll (aesMix b) k) (aesRounds ks))

/-- One block of 16 bytes under the round keys. -/
def aesBlock (ks : List (List Nat)) (b : Bytes) : Bytes :=
  (aesRounds (ks.drop 1) (xorAll (b.map (·.toNat)) (ks.headD []))).map (BitVec.ofNat 8)

/-! ### Galois counter mode -/

/-- Products in GF(2^128), whose first bit is the highest: the bits of one factor left, the other factor, the sum. -/
def ghashBits : List Bool → Nat → Nat → Nat
  | [], _, z => z
  | b :: r, v, z =>
    strict (if b then z ^^^ v else z) (fun z =>
      strict (if v % 2 = 1 then (v / 2) ^^^ (0xE1 <<< 120) else v / 2) (fun v => ghashBits r v z))

def ghashMul (x h : Nat) : Nat := ghashBits ((List.range 128).reverse.map (bitN x)) h 0

/-- Bytes filled with zeros to whole blocks. -/
def fill16 (b : Bytes) : Bytes := b ++ List.replicate ((16 - b.length % 16) % 16) 0

/-- The hash of whole blocks. -/
def ghash (h : Nat) (b : Bytes) : Nat :=
  ((chunks 16 (b.length / 16) b).map beNat).foldl (fun y x => ghashMul (y ^^^ x) h) 0

/-- The key stream over a text, from counter `n` on. -/
def gcmStream (ks : List (List Nat)) (iv : Bytes) : List Bytes → Nat → Bytes
  | [], _ => []
  | c :: r, n => (c.zip (aesBlock ks (iv ++ toBE 4 n))).map (fun p => p.1 ^^^ p.2) ++ gcmStream ks iv r (n + 1)

def gcmText (ks : List (List Nat)) (iv text : Bytes) : Bytes :=
  gcmStream ks iv (chunks 16 ((text.length + 15) / 16) text) 2

/-- The tag of 16 bytes over additional data and ciphertext, for an IV of 12 bytes. -/
def gcmTag (ks : List (List Nat)) (iv aad cipher : Bytes) : Bytes :=
  let h := beNat (aesBlock ks (List.replicate 16 0))
  let y := ghash h (fill16 aad ++ fill16 cipher ++ toBE 8 (8 * aad.length) ++ toBE 8 (8 * cipher.length))
  ((aesBlock ks (iv ++ toBE 4 1)).zip (toBE 16 y)).map (fun p => p.1 ^^^ p.2)

/-- AES-256-GCM: the ciphertext and its tag. -/
def gcmSeal (key iv aad plain : Bytes) : Bytes × Bytes :=
  let ks := aesKeys key
  let c := gcmText ks iv plain
  (c, gcmTag ks iv aad c)

/-- The plaintext, when the tag holds. -/
def gcmOpen (key iv aad cipher tag : Bytes) : Option Bytes :=
  let ks := aesKeys key
  if gcmTag ks iv aad cipher = tag then some (gcmText ks iv cipher) else none

end Sys2Proof.Machine
end

