-- ==== Sys2Proof/Machine/Curve.lean ====
section
/-! DEFINITION. The elliptic curve P-384, its signatures and its key agreement, as the Larder uses them (R364, R370,
R382, R383). -/

namespace Sys2Proof.Machine

open Sys2Proof

/-! ### The field and the curve y² = x³ − 3x + b -/

def p384 : Nat :=
  0xFFFFFFFFFFFFFFFFFFFFFFFFFFFFFFFFFFFFFFFFFFFFFFFFFFFFFFFFFFFFFFFEFFFFFFFF0000000000000000FFFFFFFF

/-- The order of the base point. -/
def n384 : Nat :=
  0xFFFFFFFFFFFFFFFFFFFFFFFFFFFFFFFFFFFFFFFFFFFFFFFFC7634D81F4372DDF581A0DB248B0A77AECEC196ACCC52973

def b384 : Nat :=
  0xB3312FA7E23EE7E4988E056BE3F82D19181D9C6EFE8141120314088F5013875AC656398D8A2ED19D2A85C8EDD3EC2AEF

/-- A point in Jacobian coordinates, which stands for x / z², y / z³; z = 0 is the point at infinity. -/
structure Point where
  x : Nat
  y : Nat
  z : Nat
  deriving DecidableEq, Repr

def infinity : Point := { x := 1, y := 1, z := 0 }

/-- The base point. -/
def base384 : Point :=
  { x := 0xAA87CA22BE8B05378EB1C71EF320AD746E1D3B628BA79B9859F741E082542A385502F25DBF55296C3A545E3872760AB7,
    y := 0x3617DE4A96262C6F5D9E98BF9292DC29F8F41DBD289A147CE9DA3113B5F0B8C00A60B1CE1D7E819D7A431D7C90EA0E5F,
    z := 1 }

/-- Difference of two numbers below the prime. -/
def subP (a b : Nat) : Nat := (a + p384 - b) % p384

/-- A point from its coordinates, each computed first. -/
def mkPoint (x y z : Nat) : Point := strict x (fun x => strict y (fun y => strict z (fun z => { x := x, y := y, z := z })))

/-- Twice a point. -/
def double (a : Point) : Point :=
  strict (a.z * a.z % p384) (fun d => strict (a.y * a.y % p384) (fun g => strict (a.x * g % p384) (fun b =>
    strict (3 * subP a.x d * (a.x + d) % p384) (fun m => strict (subP (m * m % p384) (8 * b % p384)) (fun x =>
      mkPoint x (subP (m * subP (4 * b % p384) x % p384) (8 * (g * g) % p384)) (2 * a.y * a.z % p384))))))

/-- Sum of two points. -/
def addP (a b : Point) : Point :=
  if a.z = 0 then b
  else if b.z = 0 then a
  else
    strict (a.z * a.z % p384) (fun z1 => strict (b.z * b.z % p384) (fun z2 =>
      strict (a.x * z2 % p384) (fun u1 => strict (b.x * z1 % p384) (fun u2 =>
        strict (a.y * b.z * z2 % p384) (fun s1 => strict (b.y * a.z * z1 % p384) (fun s2 =>
          if u1 = u2 then (if s1 = s2 then double a else infinity)
          else
            strict (subP u2 u1) (fun h => strict (subP s2 s1) (fun r => strict (h * h % p384) (fun h2 =>
              strict (h2 * h % p384) (fun h3 => strict (u1 * h2 % p384) (fun v =>
                strict (subP (r * r % p384) ((h3 + 2 * v) % p384)) (fun x =>
                  mkPoint x (subP (r * subP v x % p384) (s1 * h3 % p384)) (h * a.z * b.z % p384)))))))))))))

/-- The low `w` bits of a number, the highest first. -/
def bitsOf (w k : Nat) : List Bool := (List.range w).reverse.map (bitN k)

/-- A multiple of a point, by bits of the factor. -/
def mulBits (q : Point) : List Bool → Point → Point
  | [], a => a
  | b :: r, a =>
    let d := double a
    mulBits q r (if b then addP d q else d)

/-- A multiple of a point; the factor lies below the order. -/
def mulP (k : Nat) (q : Point) : Point := mulBits q (bitsOf 384 k) infinity

/-- A power modulo `m`, by bits of the exponent. -/
def powBits (m a : Nat) : List Bool → Nat → Nat
  | [], x => x
  | b :: r, x => strict (x * x * (if b then a else 1) % m) (powBits m a r)

/-- The inverse modulo a prime of 384 bits. -/
def invMod (m a : Nat) : Nat := powBits m a (bitsOf 384 (m - 2)) 1

/-- The x-coordinate of a point that is not at infinity. -/
def xOf (a : Point) : Nat :=
  let i := invMod p384 a.z
  a.x * (i * i % p384) % p384

/-- The y-coordinate of a point that is not at infinity. -/
def yOf (a : Point) : Nat :=
  let i := invMod p384 a.z
  a.y * (i * i % p384 * i % p384) % p384

/-! ### Keys -/

/-- A public key in uncompressed SEC1, 97 bytes: 0x04, X, Y. -/
def pubBytes (a : Point) : Bytes := 0x04 :: (toBE 48 (xOf a) ++ toBE 48 (yOf a))

/-- The point that 97 bytes name, when they name one on the curve. -/
def pubPoint (b : Bytes) : Option Point :=
  let x := beAt b 1 48
  let y := beAt b 49 48
  if b.length = 97 ∧ b.head? = some 0x04 ∧ x < p384 ∧ y < p384 ∧ y * y % p384 = (x * x * x + (p384 - 3) * x + b384) % p384
  then some { x := x, y := y, z := 1 } else none

/-- The public key of a private scalar. -/
def pubOf (d : Nat) : Bytes := pubBytes (mulP d base384)

/-- A number brought into [1, n − 1]. -/
def scalar (x : Nat) : Nat := x % (n384 - 1) + 1

/-- ECDH: the 48-byte x-coordinate (R370, R383); none for bytes that are no public key. -/
def ecdh (d : Nat) (pub : Bytes) : Option Bytes := (pubPoint pub).map (fun q => toBE 48 (xOf (mulP d q)))

/-! ### ECDSA -/

/-- A signature of 96 bytes, r then s, holds for a digest of 48 bytes under a public key. -/
def verifies (pub digest sig : Bytes) : Bool :=
  let r := beAt sig 0 48
  let s := beAt sig 48 48
  match pubPoint pub with
  | none => false
  | some q =>
    if sig.length = 96 ∧ 0 < r ∧ r < n384 ∧ 0 < s ∧ s < n384 then
      let w := invMod n384 s
      let v := addP (mulP (beNat digest * w % n384) base384) (mulP (r * w % n384) q)
      v.z != 0 && xOf v % n384 == r
    else false

/-- The signature of a digest with a private scalar and a fresh number. -/
def signWith (d k : Nat) (digest : Bytes) : Bytes :=
  let r := xOf (mulP k base384) % n384
  toBE 48 r ++ toBE 48 (invMod n384 k * (beNat digest + r * d) % n384)

end Sys2Proof.Machine
end

