-- ==== Sys2Proof/Machine/State.lean ====
section
/-! DEFINITION. The state of the block: every register, table, queue, counter and timer the spec
gives the module, the waiting commands, and the state right after reset. -/

namespace Sys2Proof.Machine

open Sys2Proof

/-- Stops of the machine. [log: DESIGN CHOICE 9] -/
inductive Fault where
  /-- Raised by no meaning: the spec gives the block no fault that stops it. Kept so that the type is
  inhabited by a name; safe. -/
  | unreachable
  deriving DecidableEq, Repr

/-- Refusals. [log: DESIGN CHOICE 9] -/
inductive Refusal where
  /-- A command that has no meaning yet; raised by `exec` only. Safe. -/
  | notModelled (mnemonic : String)
  deriving DecidableEq, Repr

/-- An event record (R10), without PHASE. -/
structure Event where
  code : Nat
  unit : Nat
  fn : Nat
  frac : Frac
  payload : BitVec 128
  deriving DecidableEq, Repr

/-- A completion entry (R293), without its phase. -/
structure Completion where
  id : Word
  status : Nat
  opcode : Nat
  result : Nat
  idx : BitVec 12
  deriving DecidableEq, Repr

/-! ### Effect engines -/

/-- A stage descriptor (R83). -/
structure Stage where
  type : Nat
  size : Nat
  inp : Nat
  out : Nat
  aux : Nat
  flags : Nat
  pbase : Nat
  deriving DecidableEq, Repr

/-- A recipe (R82): its stages, its live parameter words, the lock map (values other than OPEN) and the
range entries by word as (MIN, MAX). -/
structure Recipe where
  stages : List Stage
  nparam : Nat
  words : Tbl Word
  lock : Tbl Nat
  ranges : Tbl (Int × Int)
  id : Nat
  ver : Nat
  cost : Nat
  blocks : Nat
  /-- The block table (R90): the delay blocks of the engine's half that hold its lines, stage after stage. -/
  table : List Nat
  /-- Owner slot that signed it, 0xFF for a plain recipe. -/
  signer : Nat
  encrypted : Bool
  deriving DecidableEq, Repr

/-- The state of one stage: its numbered registers (filter histories, envelope, phase), its lines, and the cells that
DELAY_UNCORRECTABLE zeroed and that the line has not written since (R92). -/
structure StageSt where
  reg : Tbl Int
  line : Tbl Int
  lost : List Nat
  deriving DecidableEq, Repr

def StageSt.zero : StageSt := { reg := [], line := [], lost := [] }

/-- Engine states of FX_ENG_STATUS. -/
inductive EngState where
  | empty | running | failed | testing | unavailable
  deriving DecidableEq, Repr

/-- One owner's shadow of an engine (R93): its words, and the words written since its previous commit. -/
structure Shadow where
  words : Tbl Word
  dirty : List Nat
  deriving DecidableEq, Repr

def Shadow.zero : Shadow := { words := [], dirty := [] }

structure Engine where
  st : EngState
  recipe : Option Recipe
  /-- FAILED when its half left service (R103). -/
  keepFailed : Bool
  stages : List StageSt
  /-- Frames the recipe has run, which places the lines. -/
  frames : Nat
  /-- The outputs its sources carry at the next strobe. -/
  out : List Int
  started : Bool
  complete : Bool
  /-- A failure detected in the frame: cause, stage running, FN of the last good output (R105). -/
  failure : Option (Nat × Nat × Nat)
  clips : Nat
  sat : Nat
  /-- First clip of the frame: output and slot value, raised at the drain (R79). -/
  clipNote : Option (Nat × Int)
  refused : Nat
  refusedAt : Nat
  errors : Nat
  lat : Nat
  shHost : Shadow
  shTw : Shadow
  shPeer : Shadow
  /-- What FX_ENG_BYPASS reads until the next strobe, once a boundary has applied a write (R107). [log: DEDUCED 48] -/
  oldBypass : Option Word
  deriving DecidableEq, Repr

/-- [log: DEDUCED 33] -/
def Engine.reset : Engine :=
  { st := .unavailable, recipe := none, keepFailed := false, stages := [], frames := 0, out := [],
    started := false, complete := false, failure := none, clips := 0, sat := 0, clipNote := none,
    refused := 0, refusedAt := 0, errors := 0, lat := 0, shHost := .zero, shTw := .zero, shPeer := .zero,
    oldBypass := none }

/-- An FX_PADDR pointer, one for each owner (R302). -/
structure Paddr where
  auto : Bool
  view : Bool
  eng : Nat
  word : Nat
  deriving DecidableEq, Repr

def Paddr.zero : Paddr := { auto := false, view := false, eng := 0, word := 0 }

structure Fx where
  eng : Tbl Engine
  pHost : Paddr
  pTw : Paddr
  pPeer : Paddr
  /-- [log: DESIGN CHOICE 21] -/
  pattr : Nat
  /-- [log: DESIGN CHOICE 21] -/
  pmin : Word
  /-- [log: DESIGN CHOICE 21] -/
  pmax : Word
  /-- [log: DESIGN CHOICE 21] -/
  pcRefused : Bool
  eccCorrected : Nat
  eccUncorrected : Nat
  deriving DecidableEq, Repr

/-! ### Frame engine -/

/-- An installed envelope (R158–R161): its header fields, the ten words, TAMB_MIN and the owner slot that signed it. -/
structure Env where
  id : Nat
  ver : Nat
  mask : Nat
  flags : Nat
  words : List Word
  tambMin : Int
  locked : Bool
  slot : Nat
  deriving DecidableEq, Repr

/-- One item bound to a boundary (R31, R32). The list order of the items is the arbiter's order. -/
inductive Item where
  /-- A write of a frame-staged register, by BAR0 offset. -/
  | reg (off : Nat) (v : Word)
  /-- The parameter sets of one FX_PCOMMIT write (R94), by engine, and its NOTIFY. -/
  | params (sets : List (Nat × Tbl Word)) (notify : Bool)
  /-- A mirrored commit, by QSLOT, whose binding waits for the peer (R446). -/
  | commit (qslot : Nat)
  /-- A staged recipe swap (R100). -/
  | swap (eng : Nat) (r : Recipe)
  /-- A staged clear of an engine (R101). -/
  | clear (eng : Nat)
  /-- A staged envelope (R161), by channel. -/
  | env (envs : List (Nat × Env))
  /-- A staged return to reset values (R161). -/
  | envClear (mask : Nat)
  /-- MX_HALF OUT and IN (R457, R459). -/
  | halfOut (h : Half)
  | halfIn (h : Half)
  /-- SET_FRAME_RATE (R252): the rate code. -/
  | rate (code : Nat)
  /-- SET_FSW (R249) with its completion slot. -/
  | fsw (v : Nat) (slot : Nat)
  /-- PD_DOMAIN (R393): domains to power up and down, with its completion slot. -/
  | domain (on off : Nat) (slot : Nat)
  /-- SV_FW_ACTIVATE (R379). -/
  | fwActivate
  /-- Step 2 of R400. -/
  | enterState
  /-- PL_CONTROL (R440): the OP; 5 is the end of the copy of R442. -/
  | pair (op : Nat)
  /-- CTX_STOP (R331), by context. -/
  | ctxStop (ctx : Nat)
  /-- GROUP_START (R329): group and start frame. -/
  | groupStart (g start : Nat)
  deriving DecidableEq, Repr

/-- An item with the owner that staged it, the boundary it was bound to (R32) and the time its staging completed,
in 2^-16 frame (R36). -/
structure Staged where
  owner : Owner
  bound : Nat
  item : Item
  at_ : Nat
  deriving DecidableEq, Repr

/-- What an overrun leaves to be reported at abort end (R39, R40). -/
structure Overrun where
  /-- Incomplete sinks. -/
  sinks : Nat
  /-- Incomplete engines, bit `e` for FX e. -/
  engines : Nat
  /-- At least one item moved. -/
  moved : Bool
  deriving DecidableEq, Repr

/-- The frame counter, the phase of the frame, the boundary and the slack monitor (R7, R20, R31–R43). -/
structure Frame where
  /-- Time run so far, in 1/28,224,000 s, up to the last strobe (the model's clock; see the assumption log).
  [log: DESIGN CHOICE 5] -/
  ticks : Nat
  /-- FN: the frame in progress. -/
  fn : Nat
  /-- FN that the next strobe carries (R7). -/
  next : Nat
  /-- Strobes run. -/
  running : Bool
  /-- Frame FN has been reported drained. -/
  drained : Bool
  /-- The pre-strobe mark won against frame FN (R34), and its FRAC. -/
  marked : Bool
  markAt : Frac
  /-- A strobe won against the drain of frame FN - 1 and its abort has not ended (R39). -/
  overrun : Option Overrun
  /-- Frame rate code of MX_FRAME_STATUS. -/
  rate : Nat
  /-- Value captured for MX_TIME_HI (R41): FN[47:32], and FRAC. -/
  timeFn : Nat
  timeFrac : Frac
  /-- [log: DEDUCED 38] -/
  slackValid : Bool
  slack : Nat
  slackMin : Nat
  slackMax : Nat
  /-- SLACK_LOW is armed, and the run of frames at or above the floor (R38). -/
  armed : Bool
  /-- [log: DEDUCED 37] -/
  run : Nat
  /-- MX_SLACK_CTRL.CLEAR waits for the next strobe. -/
  clearPend : Bool
  lowCount : Nat
  overrunCount : Nat
  deferCount : Nat
  /-- MX_FRAME_FLAGS. -/
  fDeferred : Bool
  fSlackLow : Bool
  fOverrun : Bool
  /-- Items bound to a boundary, in arbiter order. -/
  staged : List Staged
  deriving DecidableEq, Repr

/-! ### Stockpot -/

/-- A crosspoint entry (R49), without the indices its key gives: CUR_GAIN, PEND, PEND_GAIN and QSLOT. -/
structure Xp where
  cur : Int
  pend : Bool
  gain : Int
  qslot : Nat
  /-- Marked lost by a double-bit error (R51). -/
  lost : Bool
  deriving DecidableEq, Repr

/-- An entry no crosspoint occupies. -/
def Xp.none : Xp := { cur := 0, pend := false, gain := 0, qslot := 0, lost := false }

/-- The scene a commit belongs to (R307): slot, SCENE_ID, engines skipped, parameter sets by engine. -/
structure SceneRef where
  slot : Nat
  id : Nat
  skipped : Nat
  sets : List (Nat × Tbl Word)
  deriving DecidableEq, Repr

/-- A queued commit (R33, R59, R65). -/
structure Commit where
  owner : Owner
  qslot : Nat
  tag : Nat
  count : Nat
  notify : Bool
  atFn : Bool
  target : Nat
  late : Bool
  /-- [log: DEDUCED 41] -/
  bound : Nat
  /-- Sinks of its RESTORE_SINK records. -/
  restore : List Nat
  /-- Its records (R60), as the pair mirrors them (R446). -/
  recs : Bytes
  scene : Option SceneRef
  deriving DecidableEq, Repr

/-- Scale of a sink (R57): scale in use at the start of the glide, target, and frames of glide done. -/
structure Glide where
  ms : Nat
  mt : Nat
  j : Nat
  deriving DecidableEq, Repr

/-- The scale of a sink that never glided. -/
def Glide.unity : Glide := { ms := 8388608, mt := 8388608, j := 64 }

/-- Silence detector of a source (R58): frames below threshold, and the flag. [log: DEDUCED 46] -/
structure Sil where
  run : Nat
  silent : Bool
  deriving DecidableEq, Repr

/-- State of a lane (R69, R75). -/
inductive LaneState where
  | scheduled | spare | retired | out
  deriving DecidableEq, Repr

structure Lane where
  st : LaneState
  /-- The lane is retired, also while its half is out of service and its STATE reads so (R430, R457, R458). -/
  bad : Bool
  errors : Nat
  deriving DecidableEq, Repr

def Lane.off : Lane := { st := .out, bad := false, errors := 0 }

/-- A lane error of the frame (R71): its lane, the affected sinks, the lane that recomputes them,
and whether the recomputation was abandoned. -/
structure LaneErr where
  lane : Nat
  sinks : List Nat
  by_ : Option Nat
  /-- [log: DEDUCED 42] -/
  repeated : Bool
  deriving DecidableEq, Repr

/-- A tone and test generator (R74). -/
structure Gen where
  phase : Nat
  noise : Nat
  deriving DecidableEq, Repr

def Gen.reset : Gen := { phase := 0, noise := 1 }

/-- A sink's clip of the frame in progress that waits for the drain: the unsaturated value (R54, R76). -/
abbrev ClipNote := Nat × Nat

structure Mix where
  /-- The crosspoint table, keyed `sink * 8192 + source`. -/
  xp : Tbl Xp
  queue : List Commit
  /-- Samples captured at the last strobe, by source (R21). -/
  src : Tbl Int
  /-- Results of the frame in progress, by sink, where complete (R20). -/
  res : Tbl (Option Int)
  /-- Samples presented at the last strobe, by sink. -/
  present : Tbl Int
  /-- Sinks marked incomplete by a lost entry found in this frame (R51). -/
  held : List Nat
  glide : Tbl Glide
  /-- n_k of the last boundary (R55). [log: DEDUCED 46] -/
  nk : Tbl Nat
  clips : Tbl Nat
  /-- First clips of the frame, raised at its drain (R54). -/
  clipNotes : List ClipNote
  /-- [log: DEDUCED 43] -/
  shed : Tbl Bool
  sil : Tbl Sil
  gen : Tbl Gen
  lane : Tbl Lane
  laneErrs : List LaneErr
  /-- Lanes to retire at the next boundary that applies items (R71, step 5). -/
  retire : List Nat
  /-- Halves in service. -/
  inA : Bool
  inB : Bool
  /-- L, lanes scheduled in each half (R28). -/
  lA : Nat
  lB : Nat
  budget : Nat
  cost : Nat
  feed : Nat
  costQueued : Nat
  refusedReason : Nat
  refusedCost : Nat
  lastApplyFn : Nat
  lastApplyTag : Nat
  eccCorrected : Nat
  eccUncorrected : Nat
  /-- The entry the last lookup found (R67). -/
  found : Option Xp
  /-- Damaged entries to report (R51): (key, entry position, SOURCE as read). -/
  damaged : List (Nat × Nat × Nat)
  /-- Lanes that passed a test after they were retired, and have not entered service since (R459). -/
  healed : List Nat
  /-- Halves powered again after a WARM reset, which return to service at the first boundary (R430).
  [log: DEDUCED 86] -/
  returned : List Nat
  deriving DecidableEq, Repr

/-! ### Slopes and filters -/

/-- A linear ramp in time, from one value to another over `len` ticks; gains are in units of 2^-30. -/
structure Slope where
  first : Int
  last : Int
  at_ : Nat
  len : Nat
  deriving DecidableEq, Repr

/-- The history of a second-order filter: two inputs in LSB of Q1.31, two outputs with 24 more fraction bits (R128,
R181). [log: DEDUCED 35] -/
structure Iir where
  x1 : Int
  x2 : Int
  y1 : Int
  y2 : Int
  deriving DecidableEq, Repr

def Iir.zero : Iir := { x1 := 0, x2 := 0, y1 := 0, y2 := 0 }

/-! ### Power stage -/

/-- Channel states of R118. -/
inductive ChState where
  | off | starting | run | quiet | muted | hiccup | latched | domainOff | stopping
  deriving DecidableEq, Repr

/-- Where a STARTING channel stands in R120 or R136. -/
inductive StartPhase where
  | idle | bootstrap | softStart | domainWake
  deriving DecidableEq, Repr

/-- A power channel (R109–R138). -/
structure PsCh where
  st : ChState
  cause : Nat
  phase : StartPhase
  /-- Start cause of CH_STARTED. -/
  startCause : Nat
  /-- The ramp of the last change of MUTE (R121). -/
  muteRamp : Option Slope
  /-- The start or stop ramp (R120, R136). -/
  ramp : Option Slope
  /-- FN + 1 of the boundary that last applied EN = 0 (R132). -/
  disabledAt : Nat
  /-- FN, FRAC and time of a REARM applied at the boundary (R126, R132): it takes effect as the window closes. -/
  rearm : Option (Nat × Frac × Nat)
  /-- State of the interpolator (R110). [log: DESIGN CHOICE 97] -/
  interp : Nat
  /-- The channel samples that the interpolator gives for the frame, at the raised rate (R110). -/
  wave : List Word
  /-- The half frame of them that the modulator and the loop hold back (R110). -/
  mod_ : List Word
  /-- The differential output voltages of the frame before, in volts, at the raised rate (R111, R112). -/
  drive : List Word
  trips : Nat
  loopClips : Nat
  retries : Nat
  /-- Consecutive limited cycles (R127). -/
  limited : Nat
  /-- Time of the last over-current trip (R126), in ticks. -/
  tripAt : Option Nat
  /-- State of the DC filter and its output in 10 mV (R128). -/
  dcSt : Iir
  dc : Int
  /-- Time since which |DC| has been above THRESH. -/
  dcSince : Option Nat
  /-- Frames below the quiet threshold (R134). -/
  quietRun : Nat
  deriving DecidableEq, Repr

def PsCh.reset : PsCh :=
  { st := .off, cause := 0, phase := .idle, startCause := 0, muteRamp := none, ramp := none, disabledAt := 0,
    rearm := none, interp := 0, wave := [], mod_ := [], drive := [], trips := 0, loopClips := 0, retries := 0, limited := 0, tripAt := none, dcSt := .zero,
    dc := 0, dcSince := none, quietRun := 0 }

/-- A power die (R125, R129, R135): the causes present, what is measured, and its idle hold. -/
structure Die where
  uv : Bool
  ov : Bool
  vg : Bool
  ot : Bool
  pvdd : Nat
  temp : Int
  /-- PVDD_SAG armed, and the time since which PVDD has been at or above the level. -/
  sagArmed : Bool
  sagSince : Option Nat
  warnArmed : Bool
  /-- Off by idle power-down. -/
  idleOff : Bool
  /-- Time since which every channel has been QUIET, OFF or LATCHED. -/
  idleSince : Option Nat
  /-- Wake from idle power-down requested at a boundary. -/
  waking : Bool
  deriving DecidableEq, Repr

/-- [log: DESIGN CHOICE 12] -/
def Die.reset : Die :=
  { uv := true, ov := false, vg := true, ot := false, pvdd := 0, temp := 0, sagArmed := true,
    sagSince := none, warnArmed := true, idleOff := false, idleSince := none, waking := false }

structure Power where
  ch : Tbl PsCh
  dieA : Die
  dieB : Die
  /-- The clock cause of R125 is present. [log: DEDUCED 71] -/
  clock : Bool
  ready : Bool
  refused : Nat
  deriving DecidableEq, Repr

/-! ### Loudspeaker protection -/

/-- Protection block of a channel (R143–R168). Quantities in binary32 are held as their 32 bits. -/
structure SpCh where
  thC : Word
  thM : Word
  tEst : Word
  g : Word
  gT : Word
  /-- Excursion filter: v(n-1), v(n-2), x(n-1), x(n-2). -/
  v1 : Word
  v2 : Word
  x1 : Word
  x2 : Word
  ms : Word
  /-- Programme high-pass: two inputs and two outputs back. -/
  h1 : Word
  h2 : Word
  k1 : Word
  k2 : Word
  /-- Pilot phase. -/
  phase : Nat
  /-- Pilot phases of the last four frames, newest first: the oldest produced the sample at the terminals (R110,
  R153). -/
  phases : List Nat
  /-- The last pass: the programme g × g_T × h × u and the pilot, whose sum is y (R143); the next strobe passes them to
  the interpolator. -/
  prog : Word
  pilot : Word
  /-- V_I, V_Q, I_I and I_Q of the window so far (R153). -/
  vi : Word
  vq : Word
  ii : Word
  iq : Word
  rMeas : Word
  xMeas : Word
  tMeas : Word
  valid : Bool
  latch : Bool
  open_ : Bool
  solo : Bool
  /-- SOLO as the factors of R166 use it, and the −6 dB of R454, for the sample of the frame in progress.
  [log: DEDUCED 85] -/
  soloUsed : Bool
  /-- [log: DEDUCED 85] -/
  halved : Bool
  act : Nat
  gr : Nat
  /-- g × g_T was below 0.999 after the last frame, and the frames with a gain below 1 since the last release (R150).
  [log: DEDUCED 57] -/
  dipped : Bool
  limFrames : Nat
  /-- THERMAL_MUTE armed (R147). [log: DEDUCED 57] -/
  thArmed : Bool
  xOver : Nat
  /-- Time of the last X_OVER event, plus one. -/
  xOverAt : Nat
  impLatches : Nat
  vrmsPeak : Nat
  xPeak : Nat
  /-- Frames of the pilot window so far (R153, R157). -/
  winFrames : Nat
  lowRun : Nat
  openRun : Nat
  validRun : Nat
  badRun : Nat
  lost : Bool
  env : Option Env
  deriving DecidableEq, Repr

/-- 1.0 in binary32. -/
def f32One : Word := 0x3F800000

/-- [log: DESIGN CHOICE 12] -/
def SpCh.reset : SpCh :=
  { thC := 0, thM := 0, tEst := 0, g := f32One, gT := f32One, v1 := 0, v2 := 0, x1 := 0, x2 := 0, ms := 0,
    h1 := 0, h2 := 0, k1 := 0, k2 := 0, phase := 0, phases := [], prog := 0, pilot := 0, vi := 0, vq := 0, ii := 0,
    iq := 0, rMeas := 0, xMeas := 0, tMeas := 0, valid := false, latch := false, open_ := false, solo := false,
    soloUsed := false, halved := false, act := 0, gr := 0, dipped := false, limFrames := 0, thArmed := true, xOver := 0,
    xOverAt := 0, impLatches := 0, vrmsPeak := 0, xPeak := 0, winFrames := 0, lowRun := 0, openRun := 0, validRun := 0, badRun := 0,
    lost := false, env := none }

structure Protect where
  ch : Tbl SpCh
  refused : Nat
  deriving DecidableEq, Repr

/-! ### Analog and PDM inputs -/

/-- AI_CH_STAT.STATE. -/
inductive AiState where
  | off | precharge | settling | running
  deriving DecidableEq, Repr

/-- An analog input (R171–R193); its settings are in the register file. -/
structure AiCh where
  st : AiState
  /-- Frames left of a settling in progress (R187): the source presents 0 until it ends. [log: DEDUCED 60] -/
  settle : Option Nat
  gain : Nat
  /-- A gain change waits for a sign change (ZC_PEND): the gain to switch to, and the strobe from which the sign change
  and the 20 ms count (R173). -/
  zc : Option (Nat × Nat)
  /-- Weight of path H in sixteenths, and the direction of a crossfade: toward H, or toward L (R174).
  [log: DEDUCED 63] -/
  weight : Nat
  fade : Option Bool
  /-- Weight of path H and gain of the PGA at the samples at 8 × fs so far in the frame (R173, R174). -/
  ws : List (Nat × Nat)
  forced : Nat
  forcedAt : Nat
  overloads : Nat
  deriving DecidableEq, Repr

def AiCh.reset : AiCh :=
  { st := .off, settle := none, gain := 0, zc := none, weight := 0, fade := none, ws := [], forced := 0,
    forcedAt := 0, overloads := 0 }

/-- What every input q keeps (R179, R181, R192, R193): the state of the final decimation filter, the states of the
offset and wind filters, PEAK, CLIPS and the time of the last INPUT_OVERLOAD plus one. -/
structure AiSrc where
  /-- [log: DESIGN CHOICE 98] -/
  dec : Nat
  offset : Iir
  wind : Iir
  peak : Nat
  clips : Nat
  overAt : Nat
  deriving DecidableEq, Repr

def AiSrc.reset : AiSrc := { dec := 0, offset := .zero, wind := .zero, peak := 0, clips := 0, overAt := 0 }

/-- A PDM microphone (R185, R187). -/
structure Pdm where
  stuck : Bool
  stuckAt : Nat
  /-- Time until which the microphone wakes (WAKE of R184), and frames of settling after it (R187). -/
  wake : Nat
  settle : Option Nat
  deriving DecidableEq, Repr

def Pdm.reset : Pdm := { stuck := false, stuckAt := 0, wake := 0, settle := none }

/-- A PDM clock (R182, R184): running, stopped as invalid, and the SEL it runs with. -/
structure PdmClock where
  run : Bool
  /-- [log: DEDUCED 61] -/
  invalid : Bool
  sel : Nat
  deriving DecidableEq, Repr

def PdmClock.reset : PdmClock := { run := false, invalid := false, sel := 0 }

/-- A microphone bias (R177, R178): wanted on, SHORT, the ramp of its voltage in mV, and CURRENT (R195). -/
structure Bias where
  on : Bool
  short : Bool
  volt : Slope
  current : Nat
  deriving DecidableEq, Repr

def Bias.reset : Bias := { on := false, short := false, volt := { first := 0, last := 0, at_ := 0, len := 0 }, current := 0 }

/-- A jack follower (R190, R208): STATE; a change whose boundary action waits; whether its inputs or channels
have been released and, for R190, its biases allowed; since when it follows its comparator, and when STATE last changed.
[log: DEDUCED 62] -/
structure Jack where
  plugged : Bool
  pend : Bool
  released : Bool
  biasOk : Bool
  since : Nat
  changedAt : Nat
  deriving DecidableEq, Repr

def Jack.reset : Jack :=
  { plugged := false, pend := false, released := false, biasOk := false, since := 0, changedAt := 0 }

structure Inputs where
  ch : Tbl AiCh
  src : Tbl AiSrc
  pdm : Tbl Pdm
  clk : Tbl PdmClock
  bias : Tbl Bias
  jack : Tbl Jack
  /-- AI_PEAK_CLEAR requests waiting for the next boundary, by input (R195). -/
  clear : List Nat
  /-- A write has configured PDM_CLK0 and PDM_CLK1, and MICBIAS0–3, since the last COLD or WARM reset (R432).
  [log: DEDUCED 102] -/
  pdmConf : Bool
  biasConf : Bool
  deriving DecidableEq, Repr

/-! ### Analog outputs -/

/-- Output states of R203. -/
inductive OutState where
  | shunted | starting | running | stopping | fault
  deriving DecidableEq, Repr

/-- Where an output stands within R204. -/
inductive OutPhase where
  | idle | pump | driver | ramp | rampDown | closed
  deriving DecidableEq, Repr

/-- A linear ramp over `len` frames: frames of gain reached, and whether it rises, falls or stands. -/
structure Ramp where
  pos : Nat
  len : Nat
  up : Bool
  moving : Bool
  deriving DecidableEq, Repr

/-- Gain 0, at rest. -/
def Ramp.zero : Ramp := { pos := 0, len := 1, up := false, moving := false }

/-- Gain 1, at rest. -/
def Ramp.one : Ramp := { pos := 1, len := 1, up := true, moving := false }

structure Outp where
  st : OutState
  phase : OutPhase
  /-- Channel gain of the start and stop ramps, of MUTE and of the jack mute. -/
  gain : Ramp
  mute : Ramp
  jack : Ramp
  jackMute : Bool
  cause : Nat
  startCause : Nat
  shorts : Nat
  /-- Frames left at 0 V after a rate change (R202). -/
  hold : Option Nat
  /-- The time of the boundary that applied EN = 0, plus one (R208). -/
  stopAt : Nat
  /-- State of the interpolator (R201), and the sample the driver puts out, in Q1.31. [log: DESIGN CHOICE 97] -/
  interp : Nat
  out : Int
  deriving DecidableEq, Repr

/-- [log: DESIGN CHOICE 12] -/
def Outp.reset : Outp :=
  { st := .shunted, phase := .idle, gain := .zero, mute := .one, jack := .one, jackMute := false, cause := 0,
    startCause := 1, shorts := 0, hold := none, stopAt := 0, interp := 0, out := 0 }

structure Outputs where
  ch : Tbl Outp
  cpRun : Bool
  /-- The negative rail as last measured (R200). -/
  cpOk : Bool
  /-- A charge-pump fault or a supply clamp from which the outputs have not recovered (R206, R207). -/
  cpFault : Bool
  /-- VANA33 as SUPPLY_CLAMP reported it, in 10 mV, until it has recovered (R207). -/
  clamp : Option Nat
  jack : Tbl Jack
  deriving DecidableEq, Repr

/-! ### Serial ports -/

/-- Port states of R219. -/
inductive PortState where
  | off | wait | acquire | running
  deriving DecidableEq, Repr

/-- A slot mask in one direction (R228, R229): in force, pending for the next frame start, pending for
the one after, and the port frame at which the mask in force took effect. [log: DEDUCED 67] -/
structure SlotMask where
  active : Word
  pend : Option Word
  next : Option Word
  pfn : Nat
  deriving DecidableEq, Repr

def SlotMask.reset : SlotMask := { active := 0, pend := none, next := none, pfn := 0 }

structure Port where
  st : PortState
  pfn : Nat
  flen : Nat
  /-- Port frames of correct length since step 1 of R221, and those within phase tolerance since step 2. -/
  good : Nat
  phaseOk : Nat
  /-- Runs of wrong-length frames and of off periods (R223). -/
  wrong : Nat
  offPeriod : Nat
  ratio : Word
  rate : Nat
  lastUnlock : Nat
  unlocks : Nat
  frameErrors : Nat
  errorAt : Nat
  lateFs : Nat
  maskLate : Nat
  /-- The FS-missing timeout won, and its frame start is awaited (R224); step 1 of R221 is awaited. -/
  missing : Bool
  restart : Bool
  /-- Number of the last port frame of correct length. -/
  lastGood : Nat
  rx : SlotMask
  tx : SlotMask
  /-- Words of the last port frame as Q1.31 samples given to the converter (R214, R225). -/
  words : List Int
  /-- EN = 0 applied; stops at the end of the port frame (R232). -/
  stopping : Bool
  /-- FN of the strobe on which a controller port's first frame start must fall (R217, R225). -/
  first : Option Nat
  /-- The converters of the receive and transmit slots (R221), and when each receive slot last carried a sample of an
  active slot, 0 for never (R227). [log: DESIGN CHOICE 98] -/
  rxConv : List Nat
  txConv : List Nat
  fed : List Nat
  /-- The frame start, in 2^-16 frame, at which the receive converters last took samples (R222). -/
  fedAt : Nat
  /-- Bits of the last transmit slot that fall into the first bit clocks of the next port frame (R213). -/
  tail : List (Option Bool)
  deriving DecidableEq, Repr

def Port.reset : Port :=
  { st := .off, pfn := 0, flen := 0, good := 0, phaseOk := 0, wrong := 0, offPeriod := 0, ratio := 0, rate := 0,
    lastUnlock := 0, unlocks := 0, frameErrors := 0, errorAt := 0, lateFs := 0, maskLate := 0, missing := false, restart := false, lastGood := 0,
    rx := .reset, tx := .reset, words := [], stopping := false,
    first := none, rxConv := [], txConv := [], fed := [], fedAt := 0, tail := [] }

structure Ports where
  port : Tbl Port
  refused : Nat
  deriving DecidableEq, Repr

/-! ### Clocks -/

/-- An entry of a band cache (R239): key, band, and when it was last used. -/
structure CacheEnt where
  valid : Bool
  key : Nat
  band : Nat
  use : Nat
  deriving DecidableEq, Repr

def CacheEnt.free : CacheEnt := { valid := false, key := 0, band := 0, use := 0 }

structure Pll where
  on : Bool
  lock : Bool
  cached : Bool
  band : Nat
  searches : Nat
  cache : Tbl CacheEnt
  uses : Nat
  deriving DecidableEq, Repr

def Pll.reset : Pll :=
  { on := false, lock := false, cached := false, band := 0, searches := 0, cache := [], uses := 0 }

/-- States of CK_REF_STAT. -/
inductive RefState where
  | disabled | absent | qualifying | qualified | invalid
  deriving DecidableEq, Repr

structure Ref where
  st : RefState
  offset : Int
  disquals : Nat
  late : Nat
  /-- Time since which the source has been QUALIFIED, and whether its HOLDOFF has expired (R245). -/
  since : Nat
  held : Bool
  deriving DecidableEq, Repr

def Ref.reset : Ref := { st := .disabled, offset := 0, disquals := 0, late := 0, since := 0, held := false }

/-- CK_STATUS.SEL_STATE. -/
inductive SelState where
  | freeRun | freqAcq | phaseWalk | locked
  deriving DecidableEq, Repr

/-- Why the strobes are stopped until FRAME_RATE_APPLIED (R252, R253, R255): the old and new rate codes,
and whether the change has a command to complete. -/
structure Gap where
  old : Nat
  new : Nat
  command : Bool
  deriving DecidableEq, Repr

structure Clocks where
  xtalOk : Bool
  xtalFreq : Bool
  pll : Tbl Pll
  active : Nat
  sel : SelState
  phaseLock : Bool
  /-- PHASE_WALK has ended and the source's bandwidth is tracked (R246). -/
  tracking : Bool
  /-- δ in 10^-12 (CK_DCO), and the error of CK_PHASE_ERR. -/
  dco : Int
  phaseErr : Int
  /-- The move of R247: δ at entry and the time of entry; `none` once it has ended. -/
  move : Option (Int × Nat)
  selAt : Nat
  ref : Tbl Ref
  fsw : Nat
  /-- SET_FSW changes in progress: new FSW, completion slot and FN of the boundary (R249). -/
  fswNew : List (Nat × Nat × Nat)
  /-- Clock-error detection suspended (R249). -/
  suspended : Bool
  /-- Spread fields in force, bits 31:25 of CK_PLLS_CFG (R250). -/
  spread : Nat
  gap : Option Gap
  switches : Nat
  restarts : Nat
  xtalFails : Nat
  clamps : Nat
  clampAt : Nat
  /-- FN at which the strobes stopped (R255). -/
  stopFn : Nat
  /-- Frame-pulse outputs that are stopped for missing edges (R258). -/
  fpStop : Tbl Bool
  /-- A write has configured MCLK_OUT0 and MCLK_OUT1, and FP_OUTk, since the last COLD or WARM reset (R432).
  [log: DEDUCED 102] -/
  mclkConf : Bool
  fpConf : Tbl Bool
  deriving DecidableEq, Repr

/-! ### Ladle -/

/-- Converter states of SC_STATUS. -/
inductive ConvState where
  | stopped | running | waiting | calibrating
  deriving DecidableEq, Repr

/-- KSTATE of R276. -/
inductive KeyState where
  | rest | armed | down | releasing
  deriving DecidableEq, Repr

/-- What an entry keeps: its last result, its key state and stamps (R274–R279). -/
structure ScEntry where
  value : Nat
  seq : Nat
  key : KeyState
  out : Bool
  /-- Position and stamp of the previous conversion of the run. -/
  prev : Option (Nat × Nat)
  /-- Stamp of t_A or t_B'. -/
  stamp : Nat
  /-- Z of SC_CAL (R281). -/
  zero : Option Nat
  deriving DecidableEq, Repr

def ScEntry.reset : ScEntry :=
  { value := 0, seq := 0, key := .rest, out := false, prev := none, stamp := 0, zero := none }

structure Conv where
  st : ConvState
  /-- Next entry of the pass, counted from BASE (R268). -/
  pos : Nat
  /-- Status of SC_URGENT, and SC_URGENT_RES. -/
  urgent : Nat
  urgentDone : Bool
  urgentVal : Nat
  /-- Entry of the urgent conversion that waits or runs (R280). -/
  urgentRun : Option Nat
  overruns : Nat
  urgentDrops : Nat
  keyAborts : Nat
  overrange : Nat
  pass : Nat
  overrunAt : Nat
  /-- Raw results of the entries that the calibration step in progress has converted, in order (R281). -/
  cal : List Nat
  deriving DecidableEq, Repr

def Conv.reset : Conv :=
  { st := .stopped, pos := 0, urgent := 0, urgentDone := false, urgentVal := 0, urgentRun := none, overruns := 0,
    urgentDrops := 0, keyAborts := 0, overrange := 0, pass := 0, overrunAt := 0, cal := [] }

structure Sense where
  c0 : Conv
  c1 : Conv
  ent : Tbl ScEntry
  /-- What SMUX_A0–A2 drive; `none` for high impedance (R262, R267). -/
  smux : Option Nat
  refused : Nat
  /-- FN of the strobes that raised FRAME_RATE_APPLIED, newest first, for the RATE flag of R278. [log: DEDUCED 76] -/
  rates : List Nat
  /-- A write has configured SNS_REF since the last COLD or WARM reset (R432). [log: DEDUCED 102] -/
  refConf : Bool
  deriving DecidableEq, Repr

/-! ### Host link -/

/-- One command-side ring (R290): EN, SIZE, the two indices and the phase of the module's next access. -/
structure Ring where
  en : Bool
  size : Nat
  prod : Nat
  cons : Nat
  phase : Bool
  deriving DecidableEq, Repr

def Ring.reset : Ring := { en := false, size := 4, prod := 0, cons := 0, phase := true }

/-- A fetched command whose completion is not written yet, in fetch order (R294): the slot number the
model gives it, its source and entry fields, and STATUS and RESULT once they are known. -/
structure CmpSlot where
  slot : Nat
  src : Owner
  noIrq : Bool
  id : Word
  idx : BitVec 12
  opcode : Nat
  done : Option (Nat × Nat)
  deriving DecidableEq, Repr

/-- A long operation in progress (R300): its opcode, its completion slot, what was dropped in the interval, the time of
its fetch, and once it has ended its length in µs and the time of its end. -/
structure Busy where
  op : Nat
  slot : Nat
  doorbells : Nat
  writes : Nat
  since : Nat
  over_ : Option (Nat × Nat)
  deriving DecidableEq, Repr

/-- What the long operation works on, until the row that ends it runs. [log: DEDUCED 26] -/
inductive LongOp where
  /-- FX_LOAD (R100): engine, container or plain body, image, issuing owner. -/
  | fxLoad (eng : Nat) (container : Bool) (image : Bytes) (src : Owner)
  /-- FX_TEST (R106). -/
  | fxTest (eng : Nat)
  /-- MX_HALF TEST (R458). -/
  | halfTest (h : Half)
  /-- SP_ENV_LOAD (R160). -/
  | envLoad (container : Bool) (image : Bytes) (src : Owner)
  /-- SET_FRAME_RATE (R252): the rate code. -/
  | rate (code : Nat)
  /-- SC_CAL (R281): step, converter, first entry, count, target. -/
  | scCal (step k e n : Nat) (target : Int)
  /-- SCENE_SAVE (R306): slot and the body it writes. -/
  | sceneStore (slot : Nat) (body : Bytes)
  | sceneCapture (slot : Nat) (lo hi : Nat) (engs : Nat)
  /-- SCENE_DELETE (R306). -/
  | sceneDelete (slot : Nat)
  /-- SV_FW_STAGE (R378). -/
  | fwStage (image : Bytes)
  /-- SV_KEYGEN (R377): the new private scalar. -/
  | keygen (key : Nat)
  /-- SV_OWNER_ENROL (R367): slot and key hash. -/
  | enrol (slot : Nat) (hash : Bytes)
  /-- SV_OWNER_REVOKE (R368). -/
  | revoke (slot : Nat)
  /-- A command whose data could not be read (R486). -/
  | dmaFail
  deriving DecidableEq, Repr

/-- The new data of a nonvolatile commit (R386). -/
inductive NvCommit where
  /-- A scene slot and its body, empty for a deletion (R306). -/
  | scene (slot : Nat) (body : Bytes)
  /-- The calibration record (R281). -/
  | cal (regs : Tbl Word)
  /-- The content key (R377). -/
  | dck (key : Nat)
  /-- A firmware image (R378). -/
  | fw (image : Bytes)
  /-- An envelope container, with the counter that it advances (R373, R374). -/
  | env (image : Bytes)
  /-- An anti-rollback counter (R373): signer, index, version. -/
  | ctr (signer index version : Nat)
  deriving DecidableEq, Repr

/-- A fetched entry of the command ring: OPCODE and the command (R291). -/
structure Fetched where
  op : Nat
  cmd : Cmd
  deriving DecidableEq, Repr

/-- Module states of R397. -/
inductive ModState where
  | active | quiet | standby | sleep
  deriving DecidableEq, Repr

/-- What begins once the completion of its command is written: a reset of a scope (R297), or the entry of a module state
(R400). -/
inductive AfterDone where
  | reset (scope : Nat)
  | enter (m : ModState)
  deriving DecidableEq, Repr

/-- The configuration space after a reset of the function. [log: PRESUMED 100] -/
def fnReset : FnCfg :=
  { busMaster := false, relaxed := true, msixEn := false, msixMask := false, pmeEn := false, mps := 0, mrrs := 2,
    timeout := 0 }

/-- The host link: rings, the command processor, owners, the link and the function (R286–R310). -/
structure HostSide where
  cmd : Ring
  cmp : Ring
  evt : Ring
  /-- HL_STATUS. -/
  halted : Bool
  cfgErr : Bool
  locked : Bool
  busy : Option Busy
  long : Option LongOp
  /-- First boundary of the capture in progress already reported (R306). -/
  captureTold : Bool
  order : List CmpSlot
  nextSlot : Nat
  /-- Entry fetched from the command ring whose command has not run (R292). -/
  fetched : Option Fetched
  /-- The command fetched was in hand at a HOST reset: its completion is discarded (R287). -/
  orphan : Bool
  /-- A RESET or PD_STATE whose completion waits for earlier ones, with its slot (R294, R297, R400). -/
  afterDone : Option (AfterDone × Nat)
  dbDropped : Nat
  regDropped : Nat
  dbBad : Nat
  evLost : Nat
  ownerDropped : Nat
  superseded : Nat
  /-- Events dropped and not yet reported, with the FN of the first and the last (R295). -/
  lost : Nat
  lostFirst : Nat
  lostLast : Nat
  /-- How many of the records that wait come before EVENTS_LOST (R290, R295). [log: DEDUCED 22] -/
  lostAt : Nat
  /-- Records held for the ring (R290, R428, R405). -/
  held : List Event
  /-- Events detected while the link was down (R295). -/
  waiting : List Event
  /-- FN + 1 of the frame in which OWNER_REFUSED was last raised, by group (R303). -/
  refusedAt : Tbl Nat
  /-- FN + 1 at which WRITE_SUPERSEDED was last raised, by group: for settings of a boundary, and for settings that take
  effect at once (R304). -/
  supersededAt : Tbl Nat
  supersededNow : Tbl Nat
  /-- Last writer of a register that takes effect at once: FN + 1, FRAC and the owner (R304). -/
  writer : Tbl (Nat × Nat × Owner)
  linkUp : Bool
  speed : Nat
  width : Nat
  aspm : Nat
  dstate : Nat
  /-- The link is in L2, and WAKE_N is driven low for an event that waits (R308). -/
  l2 : Bool
  pmeWake : Bool
  /-- Configuration space (R286). -/
  fn : FnCfg
  /-- MSI-X table words that differ from reset, by word index 0–255, and PBA bits (R296). [log: DEDUCED 23] -/
  msix : Tbl Word
  pba : Tbl Bool
  /-- Vectors within their holdoff, and vectors with entries written meanwhile (R296). -/
  holdoff : Tbl Bool
  irqWait : Tbl Bool
  /-- Ring index of the long operation that a CONTROL reset interrupted and that is to be fetched again, with BUSY kept
  (R423). -/
  rerun : Option Nat
  /-- Scene store (R306): bodies by slot. -/
  scenes : Tbl Bytes
  deriving DecidableEq, Repr

/-! ### Streams -/

/-- A fetched buffer descriptor that has not retired (R317). -/
structure Desc where
  first : Nat
  n : Nat
  addr : Nat
  irq : Bool
  phase : Bool
  /-- Every frame was past at the fetch, the overlapping ones among them (R317). -/
  expired : Bool
  /-- Frames that the previous descriptor carries: the first, and the end (R320). -/
  overlap : Nat × Nat
  done : Nat
  missed : Nat
  deriving DecidableEq, Repr

/-- States of R326. -/
inductive CtxState where
  | disabled | armed | running | halted
  deriving DecidableEq, Repr

/-- A stream context (R311–R337); its settings are in the register file. -/
structure Ctx where
  st : CtxState
  lastErr : Nat
  prod : Nat
  cons : Nat
  /-- Next descriptor to fetch, and the phase it must carry. -/
  fetch : Nat
  phase : Bool
  descs : List Desc
  /-- First frame and end of the descriptor fetched last. -/
  prev : Nat × Nat
  /-- The first frame that counts (R318), and the first that is captured or stored: a context that joins a running group
  late counts the frames between them as missed (R330). -/
  start : Nat
  enter : Nat
  /-- A join of a running group waits for this frame (R330). -/
  join : Option Nat
  /-- Playback frames landed and not captured; record frames held and not written; record frames written and still held
  (R325, R451). -/
  store : List (Nat × List Int)
  kept : List (Nat × List Int)
  /-- Playback frames replaced whose data have not landed yet (R323). -/
  lateDue : List Nat
  /-- Samples presented at the last strobe. -/
  shown : List Int
  /-- Length of the run of replaced or lost frames. -/
  run : Nat
  pos : Nat
  posHi : Nat
  under : Nat
  late : Nat
  /-- FN + 1 at which STREAM_LATE was last raised. -/
  lateAt : Nat
  /-- Ring index at which the context failed (R335), and PHASE as read of a descriptor that failed its check. -/
  errIdx : Nat
  errPhase : Option Bool
  /-- A failure has been detected and its boundary not come: the cause (R335). -/
  fail : Option Nat
  deriving DecidableEq, Repr

def Ctx.reset : Ctx :=
  { st := .disabled, lastErr := 0, prod := 0, cons := 0, fetch := 0, phase := true, descs := [],
    prev := (0, 0), start := 0, enter := 0, join := none, store := [], kept := [], lateDue := [], shown := [], run := 0, pos := 0,
    posHi := 0, under := 0, late := 0, lateAt := 0, errIdx := 0, errPhase := none, fail := none }

/-- Group states of STR_GROUP_HI. -/
inductive GroupState where
  | idle | starting | running
  deriving DecidableEq, Repr

structure Group where
  st : GroupState
  start : Nat
  deriving DecidableEq, Repr

def Group.reset : Group := { st := .idle, start := 0 }

structure Streams where
  ctx : Tbl Ctx
  grp : Tbl Group
  /-- Per vector: FN + 1 of the frame of its last message, and a retirement not signalled yet (R336). -/
  vecAt : Tbl Nat
  vecWait : Tbl Bool
  /-- P of the last LTR message, 0 for no requirement (R324). -/
  ltr : Nat
  deriving DecidableEq, Repr


/-! ### Two-wire bus -/

/-- The record queue, the result, the alert and the controller role (R343–R360). Its settings TW_CFG and
TW_EV_MASK are in the register file. -/
structure TwoWire where
  /-- The 64 KiB buffer (R347), listed where it is not 0. [log: DESIGN CHOICE 13] -/
  buf : List Host.Cell
  queue : List Event
  /-- Copies dropped and not yet reported, with the FN of the first and the last (R351). -/
  lost : Nat
  lostFirst : Nat
  lostLast : Nat
  evLost : Nat
  lastWr : Nat
  cmdPend : Bool
  resultReady : Bool
  result : Option Completion
  resultPhase : Bool
  /-- The alert is armed; attention was wanted after the last command. -/
  armed : Bool
  wanted : Bool
  /-- A Host Notify may be sent: none has failed since attention began (R354). -/
  notifyOk : Bool
  /-- Entry of an accepted CMD that the command processor has not taken (R346). -/
  cmd : Option Bytes
  /-- Entries of the command ring announced before that CMD and not fetched yet (R486). -/
  cmdAfter : Nat
  /-- Writes acknowledged in STANDBY, applied once ACTIVE (R401): code and data. [log: DEDUCED 17] -/
  late : List (Nat × Bytes)
  /-- A Host Notify in hand, with its NACKed attempts; the level of a VCORE request in hand (R477); and the
  SDA-stuck attempts of each (R356). -/
  notify : Option Nat
  /-- [log: DESIGN CHOICE 27] -/
  vmsg : Option Nat
  stuck : Nat
  vstuck : Nat
  /-- The bus as the last read of TW_STATUS found it (R362). [log: DEDUCED 16] -/
  bus : BusUse
  /-- TW_FLAGS. -/
  flags : Nat
  arbCount : Nat
  arbByte : Nat
  arbBit : Nat
  pecErrors : Nat
  /-- Time of the last TW_PEC_ERROR, plus one. -/
  pecAt : Nat
  busyNacks : Nat
  stretchResets : Nat
  addrNacks : Nat
  deriving DecidableEq, Repr

/-! ### Larder and Pantry -/

/-- States of SV_OWNER. -/
inductive OwnerState where
  | empty | enrolled | revoked
  deriving DecidableEq, Repr

structure OwnerSlot where
  st : OwnerState
  seq : Nat
  hash : Bytes
  /-- Its fuses failed their verification at enrolment (R367). -/
  bad : Bool
  deriving DecidableEq, Repr

def OwnerSlot.reset : OwnerSlot := { st := .empty, seq := 0, hash := [], bad := false }

/-- States of SV_FW. -/
inductive FwState where
  | empty | valid | invalid
  deriving DecidableEq, Repr

/-- A firmware slot (R378): STATE, VERSION, ADVANCE of its container, and its body. -/
structure FwSlot where
  st : FwState
  version : Nat
  advance : Bool
  body : Bytes
  deriving DecidableEq, Repr

def FwSlot.reset : FwSlot := { st := .empty, version := 0, advance := false, body := [] }

/-- SV_STATUS.FW_STATE. -/
inductive FwRun where
  | confirmed | trial | none
  deriving DecidableEq, Repr

/-- SV_PAIR_AUTH.STATE. -/
inductive AuthState where
  | idle | handshaking | authenticated | failed
  deriving DecidableEq, Repr

/-- A container in the ENV region (R374): its bytes, the channels that mark it, the lines it occupies, and whether one of
them is uncorrectable (R376). -/
structure StoredEnv where
  image : Bytes
  marks : List Nat
  lines : List Nat
  lost : Bool
  deriving DecidableEq, Repr

structure Trust where
  /-- CT_BEHAVIOUR.LEVEL, which the stepping fixes (R15). -/
  level : BitVec 16
  /-- Fuses (R364): the device root key, and the hash of the Neroutur firmware key. -/
  drk : Bytes
  fwKey : Bytes
  larderOk : Bool
  owner : Tbl OwnerSlot
  /-- Anti-rollback counters (R373), keyed 32 × slot + index; the firmware counter. -/
  ctr : Tbl Nat
  fwCtr : Nat
  fwA : FwSlot
  fwB : FwSlot
  /-- Slot B is active. -/
  slotB : Bool
  fwRun : FwRun
  /-- Time at which the trial firmware began to run (R379, step 2). -/
  trialAt : Nat
  /-- Cause of the FW_FALLBACK that the CONTROL reset in progress ends with; 0 none, 3 when the end of a wider reset begins
  that one (R379). -/
  fell : Nat
  keygen : Nat
  /-- The private scalar of the DCK, and its record in the SYS region, encrypted under K_STORE (R364, R377). -/
  dck : Nat
  dckRec : Bytes
  /-- The ENV region (R374). -/
  stored : List StoredEnv
  /-- Sense calibration saved (R281): GAIN and OFFSET words by register offset. -/
  cal : Tbl Word
  refused : Nat
  lastStatus : Nat
  lastKind : Nat
  lastStep : Nat
  auth : AuthState
  /-- The handshake in progress (R382): the own HELLO with its ephemeral private scalar, and the peer's HELLO with its
  device certificate, once its checks have passed. -/
  own : Option (Hello × Nat)
  peer : Option (Hello × PeerCert)
  /-- The last handshake ended by its timeout, so that a FINISH is late. -/
  timedOut : Bool
  /-- Session keys and IV bases, 88 bytes, and the frame sequence numbers of the packets sent and received under them
  (R383). -/
  session : Bytes
  txSeq : Nat
  rxSeq : Nat
  fails : Nat
  late : Nat
  tagFails : Nat
  /-- Pantry (R385–R388): corrections, uncorrectable lines, retired lines. -/
  eccCorrected : Nat
  eccUncorrected : Nat
  retired : Nat
  /-- [log: DEDUCED 30] -/
  spareOut : Bool
  /-- The nonvolatile commit that a reset interrupted, and the place of the next journal record (R386, R387). -/
  journal : Option NvCommit
  journalAt : Nat
  /-- The lines that each scene occupies, and which place of the calibration record is in force (R387). -/
  sceneAt : Tbl (List Nat)
  calSide : Bool
  /-- Writes of each line, and the spare line that serves for a retired one (R387). -/
  wear : Tbl Nat
  remap : Tbl Nat
  /-- Steps of R388 that the highest wear has reached. -/
  wearStep : Nat
  deriving DecidableEq, Repr

/-! ### Domains, wake and the real-time clock -/

/-- Domains coming up (R393, R404): the slot of a PD_DOMAIN, the cause of DOMAIN_CHANGED, the boundary, the
domains whose power good is awaited, and the first fault. [log: DEDUCED 32] -/
structure DomJob where
  slot : Option Nat
  cause : Nat
  fn : Nat
  wait : List Nat
  fault : Option Nat
  deriving DecidableEq, Repr

/-- A change to STANDBY or SLEEP in progress (R400): the state sought, steps 2 and 4 done. -/
structure Entry where
  target : ModState
  stopped : Bool
  off : Bool
  deriving DecidableEq, Repr

/-- PD block. PD_WAKE_EN, PD_AWC, PD_RTC_ALARM, PD_RTC_CFG.TRIM and PD_BACKUP[0–29] are in the register file. -/
structure Domains where
  st : ModState
  on : Nat
  job : List DomJob
  entry : Option Entry
  /-- A wake source has come and the wake is in progress (R402): the first source and comparator. -/
  waking : Option (Nat × Nat)
  /-- Domains that were on at the entry of STANDBY (R404). -/
  doms : Nat
  wakeStatus : Nat
  /-- SEC at the wake in progress (R412). -/
  wakeSec : Nat
  wakes : Nat
  pgFaults : Nat
  backup30 : Nat
  backup31 : Nat
  /-- LEVEL of the comparators, the cycle of the 32.768 kHz oscillator at which it last changed, and the cycles counted
  (R409). [log: DESIGN CHOICE 28] -/
  awc : Tbl Bool
  awcAt : Tbl Nat
  /-- [log: DESIGN CHOICE 31] -/
  osc : Nat
  /-- Retained memory by word (R410). -/
  ret : Tbl Word
  /-- RTC (R407): SEC, FRAC, remainder of TRIM in 2^-20 cycles, VALID, OSC_OK, and PD_RTC_SEC_HI captured. -/
  sec : Nat
  frac : Nat
  trimRem : Int
  valid : Bool
  oscOk : Bool
  capSec : Nat
  capFrac : Nat
  /-- TW_WAKE to raise when ready: 1 address match, 2 knock (R341, R342). -/
  twWake : Nat
  /-- WAKE_N driven (R406). -/
  wakeN : Bool
  deriving DecidableEq, Repr

/-! ### Reset and bring-up -/

/-- CT_STATUS.PHASE, and RESET while t1 has not come. -/
inductive Phase where
  | options | ctrl | larder | clk | host | done | recovery
  deriving DecidableEq, Repr

/-- A reset in progress (R413–R428): scope, source, requests merged, and whether halves return (R430). -/
structure Reset where
  scope : Nat
  src : Nat
  merged : Nat
  inA : Bool
  inB : Bool
  deriving DecidableEq, Repr

structure Control where
  phase : Phase
  /-- The reset whose bring-up is in progress: its RESET_DONE is not written. -/
  cur : Option Reset
  /-- A HOST reset that runs alongside (R422): source and merged requests. -/
  hostReset : Option (Nat × Nat)
  /-- A CONTROL reset in progress: source and merged requests. -/
  ctlReset : Option (Nat × Nat)
  lastScope : Nat
  lastSrc : Nat
  cause : Nat
  nCold : Nat
  nWarm : Nat
  nControl : Nat
  nHost : Nat
  /-- Option results (R425–R427). -/
  code : Nat
  range : Nat
  fuseOk : Bool
  trimOk : Bool
  noFw : Bool
  eccCount : Nat
  eccRegion : Nat
  eccWord : Nat
  wdtResets : Nat
  wdtEsc : Nat
  /-- Cycles of the 32.768 kHz oscillator at the watchdog resets of the last 60 s, newest first (R418).
  [log: DEDUCED 86] -/
  wdtTimes : List Nat
  /-- Supply monitors that hold the module in reset. -/
  monVcore : Bool
  monVmem : Bool
  monVioh : Bool
  /-- RST_N: driven by the module, and the reset extended (R421). -/
  rstDriven : Bool
  rstExtended : Bool
  /-- PERST_N is asserted. -/
  perst : Bool
  deriving DecidableEq, Repr

/-! ### Pair -/

/-- Pair states of R439. -/
inductive PairState where
  | solo | linkDown | auth | ready | sync | paired | peerLost
  deriving DecidableEq, Repr

/-- An item this module mirrors (R446) or that waits for its match (R447): sequence number, owner, what is
staged on acceptance, and for a match its kind, unit, identifiers and the frame of its staging. -/
structure Mirror where
  seq : Nat
  owner : Owner
  item : Item
  meet : Option (Nat × Nat × Nat × Nat)
  fn : Nat
  deriving DecidableEq, Repr

structure Pair where
  st : PairState
  role : Nat
  driving : Bool
  fault : Bool
  lanes : Nat
  delay : Nat
  /-- PFN − FN, and OFS_HI captured. -/
  ofs : Int
  ofsHi : Nat
  /-- Last heartbeat taken; PFN of the heartbeat due next; consecutive misses. -/
  hb : Option Heartbeat
  due : Nat
  missRun : Nat
  missed : Nat
  /-- Own digest and flags by PFN of the last frames, newest first: (PFN, digest, flags). -/
  own : List (Nat × Nat × Nat)
  /-- Excused frames (R444) by PFN. -/
  excused : List Nat
  mismatches : Nat
  mismatchRun : Nat
  mismatchAt : Nat
  mirrorMisses : Nat
  splits : Nat
  /-- Digests and flags of the peer's frames that this module has not drained yet, by PFN (R444), and HL_OWNER[g].PEER of the
  peer (R446). -/
  heard : List (Nat × Word × Byte)
  peerBits : Nat
  /-- The latest boundaries whose items this module held back (R448), newest first, and MIRROR_MISS of the frame. -/
  deferredAt : List Nat
  mirrorMiss : Bool
  /-- Channels whose peer LIVE bit has fallen: SOLO at the next boundary (R454). -/
  soloNext : Nat
  failovers : Nat
  linkDowns : Nat
  foPfn : Nat
  foCause : Nat
  refused : Nat
  /-- Own items not yet answered; own operations of R447 to be told to the peer, and the last item it has acknowledged;
  operations of the peer that wait for a match, each with the FN of its staging; answers to send; sequence numbers.
  [log: DEDUCED 82] -/
  mine : List Mirror
  told : List PeerItem
  acked : Nat
  theirs : List (Nat × Nat × Nat × Nat × Nat × Nat)
  answers : List (Nat × Nat × Nat)
  seqOut : Nat
  seqIn : Nat
  /-- Cause of a peer loss that waits for its boundary, and frames to wait (R451, R452). -/
  loss : Option (Nat × Nat)
  yield_ : Bool
  pinLow : Bool
  /-- The configuration copy runs (R442). -/
  copying : Bool
  /-- SHARED = 0 channels wait for RELAY_DELAY (R451). [log: DEDUCED 85] -/
  relayWait : Bool
  /-- Mirrored inputs of the peer for the next strobe, and own samples of the strobe before (R445). -/
  inp : Option (Tbl Int)
  ownInp : Tbl Int
  /-- Results of PL_HALF_TEST: RESULT, PASSED, FAILED and "a test has run since" (R459). -/
  testA : Nat × Nat × Nat × Bool
  testB : Nat × Nat × Nat × Bool
  deriving DecidableEq, Repr

/-! ### VCORE request -/

structure Vcore where
  level : Nat
  /-- The regulator NACKed the first message since a COLD reset: no further message (R477); a message has been sent. -/
  mute : Bool
  sent : Bool
  /-- A frame of the second in progress had a slack below 0x2000; frames since one had a slack below 0x6000. -/
  lowSlack : Bool
  lastLow : Nat
  deriving DecidableEq, Repr

/-! ### Outputs of the latest command -/

/-- What the latest command drove out of the block. -/
inductive Out where
  /-- A value read over the host link or the two-wire bus. -/
  | read (v : Word)
  /-- A record written to the event ring, with its index and phase (R10, R295). -/
  | event (e : Event) (idx : Nat) (phase : Bool)
  /-- An entry written to the completion ring (R293). -/
  | completion (c : Completion) (idx : Nat) (phase : Bool)
  /-- An MSI-X message (R296). -/
  | msix (v : Nat)
  /-- A DMA write. -/
  | dma (addr : Nat) (b : Bytes)
  /-- An LTR message (R324). -/
  | ltr (p : Nat)
  /-- A two-wire transaction NACKed, at the byte given. -/
  | twNack (at_ : Nat)
  /-- Bytes the module sends as target. -/
  | twSend (b : Bytes)
  /-- A message the module sends as controller: 7-bit address with write, and its bytes. -/
  | twCtl (b : Bytes)
  /-- VCORE_VID1:VCORE_VID0 (R476). -/
  | vid (code : Nat)
  /-- A packet to the pair peer (R437), sealed under the nonce given (R383): the heartbeat, the items it carries, the answers
  as (sequence number, status, PFN of acceptance), and the mirrored input block. -/
  | packet (nonce hb : Bytes) (items : List PeerItem) (answers : List (Nat × Nat × Nat)) (inputs : Tbl Int)
  /-- What a port drives from a frame start on: DOUT in each bit clock, `none` where it is released (R213, R215), of which a
  frame start that comes earlier cuts off the rest; the level of FS in each bit clock of a controller port's frame, `none`
  in the target role (R217); and whether both change at the rising edge of BCLK, else at the falling edge. -/
  | port (p : Nat) (dout : List (Option Bool)) (fs : Option (List Bool)) (rising : Bool)
  /-- HELLO on the Strellin link (R382). -/
  | hello (h : Hello)
  /-- The configuration copy of R442. -/
  | copy (x : SyncCopy)
  /-- FINISH: the DIK signature over both HELLOs. -/
  | finish (sig : Bytes)
  /-- A peer reset request (R462). -/
  | peerReset (scope : Nat)
  /-- SL_FAILOVER_N, RST_N, WAKE_N: driven low or released. -/
  | pin (name : String) (low : Bool)
  deriving DecidableEq, Repr

/-! ### The machine -/

/-- The block: each sub-structure belongs to the chapter it is named after. -/
structure State where
  /-- Commands that wait, first in, first out. [log: DESIGN CHOICE 1] -/
  pending : List Instr
  /-- FRAC of the latest command. [log: DESIGN CHOICE 4] -/
  now : Frac
  /-- What the latest command drove out. -/
  out : List Out
  /-- Registers in force whose writable fields differ from reset, by BAR0 offset; pages of BAR2 from 0x100000. -/
  regs : Tbl Word
  /-- Free values drawn (the model's own field, for values the spec leaves open). [log: DESIGN CHOICE 8] -/
  draws : Nat
  fr : Frame
  mx : Mix
  fx : Fx
  ps : Power
  sp : Protect
  ai : Inputs
  aq : Outputs
  dp : Ports
  ck : Clocks
  sc : Sense
  hl : HostSide
  st : Streams
  tw : TwoWire
  sv : Trust
  pd : Domains
  ct : Control
  pl : Pair
  vc : Vcore
  deriving DecidableEq, Repr

/-! ### Reset -/

/-- [log: DESIGN CHOICE 12] -/
def Frame.reset : Frame :=
  { ticks := 0, fn := 0, next := 0, running := false, drained := false, marked := false, markAt := 0, overrun := none, rate := 1,
    timeFn := 0, timeFrac := 0, slackValid := false, slack := 0, slackMin := 0xFFFF, slackMax := 0,
    armed := true, run := 0, clearPend := false, lowCount := 0, overrunCount := 0, deferCount := 0,
    fDeferred := false, fSlackLow := false, fOverrun := false, staged := [] }

def Mix.reset : Mix :=
  { xp := [], queue := [], src := [], res := [], present := [], held := [], glide := [], nk := [], clips := [],
    clipNotes := [], shed := [], sil := [], gen := [], lane := [], laneErrs := [], retire := [], inA := false, inB := false,
    lA := 0, lB := 0, budget := 0, cost := 0, feed := 0, costQueued := 0, refusedReason := 0, refusedCost := 0,
    lastApplyFn := 0, lastApplyTag := 0, eccCorrected := 0, eccUncorrected := 0, found := none,
    damaged := [], healed := [], returned := [] }

def Fx.reset : Fx :=
  { eng := [], pHost := .zero, pTw := .zero, pPeer := .zero, pattr := 3, pmin := 0, pmax := 0,
    pcRefused := false, eccCorrected := 0, eccUncorrected := 0 }

def Power.reset : Power :=
  { ch := [], dieA := .reset, dieB := .reset, clock := false, ready := false, refused := 0 }

def Protect.reset : Protect := { ch := [], refused := 0 }

def Inputs.reset : Inputs :=
  { ch := [], src := [], pdm := [], clk := [], bias := [], jack := [], clear := [], pdmConf := false, biasConf := false }

def Outputs.reset : Outputs := { ch := [], cpRun := false, cpOk := false, cpFault := false, clamp := none, jack := [] }

def Ports.reset : Ports := { port := [], refused := 0 }

def Clocks.reset : Clocks :=
  { xtalOk := false, xtalFreq := false, pll := [], active := 0, sel := .freeRun, phaseLock := false,
    tracking := false, dco := 0, phaseErr := 0, move := none, selAt := 0, ref := [], fsw := 256,
    fswNew := [], suspended := false, spread := 0, gap := none, switches := 0, restarts := 0, xtalFails := 0,
    clamps := 0, clampAt := 0, stopFn := 0, fpStop := [], mclkConf := false, fpConf := [] }

def Sense.reset : Sense :=
  { c0 := .reset, c1 := .reset, ent := [], smux := none, refused := 0, rates := [], refConf := false }

/-- [log: DESIGN CHOICE 11; DEDUCED 23] -/
def HostSide.reset : HostSide :=
  { cmd := .reset, cmp := .reset, evt := .reset, halted := false, cfgErr := false, locked := false, busy := none,
    long := none, captureTold := false, order := [], nextSlot := 0, fetched := none, afterDone := none, dbDropped := 0,
    regDropped := 0, dbBad := 0, evLost := 0, ownerDropped := 0, superseded := 0, lost := 0, lostFirst := 0,
    lostLast := 0, lostAt := 0, orphan := false, held := [], waiting := [], refusedAt := [], supersededAt := [], supersededNow := [],
    writer := [], linkUp := false, speed := 0, width := 0, aspm := 0, dstate := 0, l2 := false, pmeWake := false,
    fn := fnReset, msix := [], pba := [], holdoff := [], irqWait := [],
    rerun := none, scenes := [] }

def Streams.reset : Streams := { ctx := [], grp := [], vecAt := [], vecWait := [], ltr := 0 }

/-- [log: DESIGN CHOICE 12] -/
def TwoWire.reset : TwoWire :=
  { buf := [], queue := [], lost := 0, lostFirst := 0, lostLast := 0, evLost := 0, lastWr := 0, cmdPend := false,
    resultReady := false, result := none, resultPhase := false, armed := true, wanted := false,
    notifyOk := true, cmd := none, cmdAfter := 0, late := [], notify := none, vmsg := none, stuck := 0, vstuck := 0,
    bus := .free, flags := 0, arbCount := 0, arbByte := 0, arbBit := 0,
    pecErrors := 0, pecAt := 0, busyNacks := 0, stretchResets := 0, addrNacks := 0 }

/-- [log: DESIGN CHOICE 11] -/
def Trust.reset : Trust :=
  { level := Config.level, drk := Config.drk, fwKey := Config.nerouturHash, larderOk := false, owner := [], ctr := [], fwCtr := 0,
    fwA := { FwSlot.reset with st := .valid }, fwB := .reset, slotB := false, fwRun := .confirmed, trialAt := 0, fell := 0,
    keygen := 0, dck := Config.dck, dckRec := Config.dckRecord, stored := [], cal := [], refused := 0, lastStatus := 0,
    lastKind := 0, lastStep := 0, auth := .idle, own := none, peer := none, timedOut := false, session := [], txSeq := 0,
    rxSeq := 0, fails := 0, late := 0, tagFails := 0, eccCorrected := 0, eccUncorrected := 0, retired := 0,
    spareOut := false, journal := none, journalAt := 0, sceneAt := [], calSide := false, wear := [], remap := [],
    wearStep := 0 }

/-- [log: DEDUCED 10] -/
def Domains.reset : Domains :=
  { st := .active, on := 0x003, job := [], entry := none, waking := none, doms := 0, wakeStatus := 0, wakeSec := 0,
    wakes := 0, pgFaults := 0, backup30 := 0, backup31 := 0, awc := [], awcAt := [], osc := 0, ret := [], sec := 0, frac := 0,
    trimRem := 0, valid := false, oscOk := false, capSec := 0, capFrac := 0, twWake := 0, wakeN := false }

/-- Right after the power-on of VAON: option loading runs, RST_N is driven, the three monitors hold.
[log: DEDUCED 10] -/
def Control.reset : Control :=
  { phase := .options, cur := some { scope := 0, src := 1, merged := 0, inA := false, inB := false },
    hostReset := none, ctlReset := none, lastScope := 0, lastSrc := 1, cause := 2, nCold := 1, nWarm := 0,
    nControl := 0, nHost := 0, code := 0, range := 0, fuseOk := false, trimOk := false, noFw := false,
    eccCount := 0, eccRegion := 0, eccWord := 0, wdtResets := 0, wdtEsc := 0, wdtTimes := [], monVcore := true, monVmem := true,
    monVioh := true, rstDriven := true, rstExtended := false, perst := true }

/-- [log: DESIGN CHOICE 12] -/
def Pair.reset : Pair :=
  { st := .solo, role := 0, driving := true, fault := false, lanes := 0, delay := 0, ofs := 0, ofsHi := 0,
    hb := none, due := 0, missRun := 0, missed := 0, own := [], excused := [], mismatches := 0,
    mismatchRun := 0, mismatchAt := 0, mirrorMisses := 0, splits := 0, heard := [], peerBits := 0, deferredAt := [],
    mirrorMiss := false, soloNext := 0, failovers := 0, linkDowns := 0, foPfn := 0, foCause := 0,
    refused := 0, mine := [], told := [], acked := 0, theirs := [], answers := [], seqOut := 1, seqIn := 0, loss := none,
    yield_ := false, pinLow := false, copying := false, relayWait := false, inp := none, ownInp := [], testA := (0, 0, 0, false),
    testB := (0, 0, 0, false) }

/-- [log: DESIGN CHOICE 11] -/
def Vcore.reset : Vcore := { level := 1, mute := false, sent := false, lowSlack := false, lastLow := 0 }

/-- The machine right after reset: the power-on of VAON, with which every other reset's state begins.
[log: DESIGN CHOICE 1; DEDUCED 10] -/
def State.reset : State :=
  { pending := [], now := 0, out := [], regs := [], draws := 0, fr := .reset, mx := .reset, fx := .reset,
    ps := .reset, sp := .reset, ai := .reset, aq := .reset, dp := .reset, ck := .reset, sc := .reset,
    hl := .reset, st := .reset, tw := .reset, sv := .reset, pd := .reset, ct := .reset, pl := .reset,
    vc := .reset }

end Sys2Proof.Machine
end

