-- ==== Sys2Proof/Machine/Flags.lean ====
section
/-! DEFINITION. The codes the module reports: STATUS codes of completions (R299), codes of states and causes
in registers and events, and the flag words built of them. -/

namespace Sys2Proof.Machine

open Sys2Proof

/-! ### STATUS codes (R299) -/

def stOk : Nat := 0x0000
def stBadOpcode : Nat := 0x0001
def stBadParam : Nat := 0x0002
def stNotOwner : Nat := 0x0003
def stDmaError : Nat := 0x0004
def stDomainOff : Nat := 0x0005
def stBadTag : Nat := 0x0010
def stBadRecord : Nat := 0x0011
def stQueueFull : Nat := 0x0012
def stOverlap : Nat := 0x0013
def stTableFull : Nat := 0x0014
def stAdmission : Nat := 0x0015
def stEnginesLoaded : Nat := 0x0016
def stHalfState : Nat := 0x0017
def stBadRecipe : Nat := 0x0020
def stBadStage : Nat := 0x0021
def stOverBudget : Nat := 0x0022
def stBadLock : Nat := 0x0023
def stLockUnsigned : Nat := 0x0024
def stDelayFull : Nat := 0x0025
def stEngineState : Nat := 0x0026
def stBadEnvelope : Nat := 0x0030
def stEnvLocked : Nat := 0x0031
def stEnvOwner : Nat := 0x0032
def stChannelsActive : Nat := 0x0040
def stScRunning : Nat := 0x0050
def stNoZero : Nat := 0x0051
def stCalSpan : Nat := 0x0052
def stSceneEmpty : Nat := 0x0060
def stSceneFull : Nat := 0x0061
def stSceneTooBig : Nat := 0x0062
def stBadScene : Nat := 0x0063
def stBadContainer : Nat := 0x0070
def stBadSignature : Nat := 0x0071
def stKeyRevoked : Nat := 0x0072
def stRollback : Nat := 0x0073
def stDecryptFail : Nat := 0x0074
def stNvFail : Nat := 0x0075
def stDomainState : Nat := 0x0080
def stPairState : Nat := 0x0090
def stStreamState : Nat := 0x00A0

/-- RESULT[15:0] of a status that names no record, stage, word or channel (R298). -/
def noIndex : Nat := 0xFFFF

/-- UNIT of an event without an instance (R10). -/
def noUnit : Nat := 0xFFFF

/-! ### Codes -/

/-- Owner codes of R310. -/
def ownerCode : Owner → Nat
  | .host => 1
  | .tw => 2
  | .peer => 3

def halfNum : Half → Nat
  | .a => 0
  | .b => 1

/-- CT_STATUS.PHASE. -/
def phaseCode : Phase → Nat
  | .options => 0
  | .ctrl => 1
  | .larder => 2
  | .clk => 3
  | .host => 4
  | .done => 5
  | .recovery => 6

/-- PD_STATUS.STATE (R397). -/
def modCode : ModState → Nat
  | .active => 0
  | .quiet => 1
  | .standby => 2
  | .sleep => 3

/-- PL_STATUS.STATE (R439). -/
def pairCode : PairState → Nat
  | .solo => 0
  | .linkDown => 1
  | .auth => 2
  | .ready => 3
  | .sync => 4
  | .paired => 5
  | .peerLost => 6

/-- SV_PAIR_AUTH.STATE. -/
def authCode : AuthState → Nat
  | .idle => 0
  | .handshaking => 1
  | .authenticated => 2
  | .failed => 3

/-- SV_OWNER.STATE. -/
def ownerStCode : OwnerState → Nat
  | .empty => 0
  | .enrolled => 1
  | .revoked => 2

/-- SV_FW.STATE. -/
def fwStCode : FwState → Nat
  | .empty => 0
  | .valid => 1
  | .invalid => 2

/-- SV_STATUS.FW_STATE. -/
def fwRunCode : FwRun → Nat
  | .confirmed => 0
  | .trial => 1
  | .none => 2

/-- STR_STATE.STATE (R326). -/
def ctxCode : CtxState → Nat
  | .disabled => 0
  | .armed => 1
  | .running => 2
  | .halted => 3

/-- STR_GROUP_HI.STATE. -/
def groupCode : GroupState → Nat
  | .idle => 0
  | .starting => 1
  | .running => 2

/-- The bit of an owner in HL_OWNER (R302). -/
def ownerBit : Owner → Nat
  | .host => 0
  | .tw => 1
  | .peer => 2

/-- The TW STATUS word (R351). -/
def twStatusWord (queued lastWr flags : Nat) (alert ready pend busy : Bool) : Nat :=
  queued * 256 + (if flags = 0 then 0 else 128) + lastWr * 16 + (if alert then 8 else 0)
    + (if ready then 4 else 0) + (if pend then 2 else 0) + (if busy then 1 else 0)

end Sys2Proof.Machine
end

