-- ==== Sys2Proof/Machine/Operands.lean ====
section
/-! DEFINITION. The operand forms: the registers of the module (their names, addresses, writable fields,
reset values, setting groups and staging, as the register sections of the chapters give them), and the
parameter words of a Hepex command. -/

namespace Sys2Proof.Machine

open Sys2Proof

/-- Registers of the module, one name for each array of registers. -/
inductive RegName where
  | ctId | ctBehaviour | ctStatus | ctRstCfg | ctRstCause | ctRstCount | ctOpt | ctEccCrit
  | ctWdt | ctVid | pdStatus | pdWakeEn | pdWakeStatus | pdAwc | pdRtcSecLo | pdRtcSecHi
  | pdRtcSetLo | pdRtcSetHi | pdRtcAlarmLo | pdRtcAlarmHi | pdRtcCfg | pdRetAddr | pdRetData | pdCount
  | pdBackup | hlStatus | hlLink | hlBaseLo | hlBaseHi | hlCfg | hlIdx | hlIrqMod
  | hlDbDropped | hlRegDropped | hlDbBad | hlEvLost | hlOwnerDropped | hlSuperseded | hlSceneUsed | hlSceneFree
  | hlOwner | hlMsix | hlPba | mxFrameStatus | mxTimeLo | mxTimeHi | mxBudget | mxHalfABudget
  | mxHalfBBudget | mxCost | mxCostFeed | mxCostRefused | mxSlackLast | mxSlackMinmax | mxSlackFloor | mxSlackCtrl
  | mxSlackLowCount | mxOverrunCount | mxDeferCount | mxStageStatus | mxLastApplyFn | mxFrameFlags | mxTableUsed | mxTableCap
  | mxXpQuery | mxXpCur | mxXpPend | mxLastApplyTag | mxShedCount | mxLaneSummary | mxEccCount | mxCostQueued
  | mxLaneStatus | mxSilProf | mxClipClear | mxGenCfg | mxGenFreq | mxShed | mxSinkCfg | mxSinkStat
  | mxSrcSil | mxSrcSilent | fxSummary | fxBudget | fxDelayFree | fxDelayEcc | fxPaddr | fxPdata
  | fxPattr | fxPmin | fxPmax | fxPcommit | fxPcommitStatus | fxEngStatus | fxEngId | fxEngVer
  | fxEngAlloc | fxEngClips | fxEngRefused | fxEngErrors | fxEngBypass | fxStage | psStatus | psPvdd
  | psPvddWarn | psTemp | psTempCfg | psDomIdle | psChSummary | psRefusedCount | psChCtrl | psChCfg
  | psChState | psChDc | psChQuiet | psChCount | psDxCfg | psDxFb | spStatus | spRefusedCount
  | spCtrl | spChCfg | spChPilot | spLimT | spLimX | spLimV | spLimZ | spModRe
  | spModTh1 | spModTh2 | spModX | spModX2 | spModTime | spChCtrl | spChState | spChTemp
  | spChMeas | spChCount | spChPeak | spEnv | aiStatus | aiPdmCfg | aiBiasCfg | aiBiasStat
  | aiPeakClear | aiChCfg | aiChStat | aiPdmCh | aiJack | aiSrcStat | aqStatus | aqOutCfg
  | aqOutStat | aqHpJack | dpStatus | dpRefusedCount | dpCtrl | dpFmt | dpSrcCfg | dpRxMask
  | dpTxMask | dpRxActive | dpTxActive | dpMaskStatus | dpRxMaskPfn | dpTxMaskPfn | dpPfn | dpState
  | dpSrcRatio | dpRate | dpCount | dpCount2 | ckStatus | ckSelCfg | ckSteer | ckDco
  | ckPhaseErr | ckRefQual | ckPllsCfg | ckMclkCfg | ckCacheCtrl | ckCount | ckCount2 | ckFpCfg
  | ckFpOfs | ckPllStat | ckRefCfg | ckRefFreq | ckRefStat | ckRefCount | ckCache | scStatus
  | scCfg | scRefusedCount | scConvCfg | scConvCtrl | scConvHyst | scUrgent | scUrgentRes | scCount
  | scCount2 | scPass | scEntry0 | scEntry1 | scEntry2 | scEntry3 | scResult | twStatus
  | twCfg | twEvMask | twFlags | twArbLost | twCount | twCount2 | twEvLost | svStatus
  | svSerialLo | svSerialHi | svRecipientLo | svRecipientHi | svOwner | svFw | svCtrSel | svCtrVal
  | svWearMax | svWearMean | svPantryLines | svPantryEcc | svRefusedCount | svLastRefusal | svPairAuth | svOwnerHash
  | plStatus | plCfg | plDigest | plFnOfsLo | plFnOfsHi | plLink | plPeerCmd | plCount
  | plCount2 | plCount3 | plLastFailoverLo | plLastFailoverHi | plRefusedCount | plHalfTest | strDb | strIdx
  | strPosLo | strPosHi | strRingLo | strRingHi | strCfg | strMap | strPrefetch | strState
  | strUnder | strLate | strGroupLo | strGroupHi | strLoad
  deriving DecidableEq, Repr


/-- Offset of the first register of each array, and the distance to the next. BAR2 page registers stand at
0x100000 plus their BAR2 offset. -/
def regPlace (n : RegName) : Nat × Nat :=
  match n with
  | .ctId => (0x0, 0x4)
  | .ctBehaviour => (0x4, 0x4)
  | .ctStatus => (0x8, 0x4)
  | .ctRstCfg => (0xC, 0x4)
  | .ctRstCause => (0x10, 0x4)
  | .ctRstCount => (0x14, 0x4)
  | .ctOpt => (0x18, 0x4)
  | .ctEccCrit => (0x1C, 0x4)
  | .ctWdt => (0x20, 0x4)
  | .ctVid => (0x24, 0x4)
  | .pdStatus => (0x4000, 0x4)
  | .pdWakeEn => (0x4004, 0x4)
  | .pdWakeStatus => (0x4008, 0x4)
  | .pdAwc => (0x4020, 0x4)
  | .pdRtcSecLo => (0x4040, 0x4)
  | .pdRtcSecHi => (0x4044, 0x4)
  | .pdRtcSetLo => (0x4048, 0x4)
  | .pdRtcSetHi => (0x404C, 0x4)
  | .pdRtcAlarmLo => (0x4050, 0x4)
  | .pdRtcAlarmHi => (0x4054, 0x4)
  | .pdRtcCfg => (0x4058, 0x4)
  | .pdRetAddr => (0x4060, 0x4)
  | .pdRetData => (0x4064, 0x4)
  | .pdCount => (0x4068, 0x4)
  | .pdBackup => (0x4100, 0x4)
  | .hlStatus => (0x8000, 0x4)
  | .hlLink => (0x8004, 0x4)
  | .hlBaseLo => (0x8010, 0x10)
  | .hlBaseHi => (0x8014, 0x10)
  | .hlCfg => (0x8018, 0x10)
  | .hlIdx => (0x801C, 0x10)
  | .hlIrqMod => (0x8040, 0x4)
  | .hlDbDropped => (0x8044, 0x4)
  | .hlRegDropped => (0x8048, 0x4)
  | .hlDbBad => (0x804C, 0x4)
  | .hlEvLost => (0x8050, 0x4)
  | .hlOwnerDropped => (0x8054, 0x4)
  | .hlSuperseded => (0x8058, 0x4)
  | .hlSceneUsed => (0x8060, 0x4)
  | .hlSceneFree => (0x8070, 0x4)
  | .hlOwner => (0x8400, 0x4)
  | .hlMsix => (0xC000, 0x4)
  | .hlPba => (0xD000, 0x4)
  | .mxFrameStatus => (0x10000, 0x4)
  | .mxTimeLo => (0x10004, 0x4)
  | .mxTimeHi => (0x10008, 0x4)
  | .mxBudget => (0x1000C, 0x4)
  | .mxHalfABudget => (0x10010, 0x4)
  | .mxHalfBBudget => (0x10014, 0x4)
  | .mxCost => (0x10018, 0x4)
  | .mxCostFeed => (0x1001C, 0x4)
  | .mxCostRefused => (0x10020, 0x4)
  | .mxSlackLast => (0x10024, 0x4)
  | .mxSlackMinmax => (0x10028, 0x4)
  | .mxSlackFloor => (0x1002C, 0x4)
  | .mxSlackCtrl => (0x10030, 0x4)
  | .mxSlackLowCount => (0x10034, 0x4)
  | .mxOverrunCount => (0x10038, 0x4)
  | .mxDeferCount => (0x1003C, 0x4)
  | .mxStageStatus => (0x10040, 0x4)
  | .mxLastApplyFn => (0x10044, 0x4)
  | .mxFrameFlags => (0x10048, 0x4)
  | .mxTableUsed => (0x10080, 0x4)
  | .mxTableCap => (0x10084, 0x4)
  | .mxXpQuery => (0x10088, 0x4)
  | .mxXpCur => (0x1008C, 0x4)
  | .mxXpPend => (0x10090, 0x4)
  | .mxLastApplyTag => (0x10094, 0x4)
  | .mxShedCount => (0x10098, 0x4)
  | .mxLaneSummary => (0x1009C, 0x4)
  | .mxEccCount => (0x100A0, 0x4)
  | .mxCostQueued => (0x100A4, 0x4)
  | .mxLaneStatus => (0x10100, 0x4)
  | .mxSilProf => (0x10200, 0x4)
  | .mxClipClear => (0x10210, 0x4)
  | .mxGenCfg => (0x10300, 0x8)
  | .mxGenFreq => (0x10304, 0x8)
  | .mxShed => (0x10400, 0x4)
  | .mxSinkCfg => (0x14000, 0x4)
  | .mxSinkStat => (0x18000, 0x4)
  | .mxSrcSil => (0x1C000, 0x4)
  | .mxSrcSilent => (0x1D000, 0x4)
  | .fxSummary => (0x20000, 0x4)
  | .fxBudget => (0x20004, 0x4)
  | .fxDelayFree => (0x20008, 0x4)
  | .fxDelayEcc => (0x2000C, 0x4)
  | .fxPaddr => (0x20010, 0x4)
  | .fxPdata => (0x20014, 0x4)
  | .fxPattr => (0x20018, 0x4)
  | .fxPmin => (0x2001C, 0x4)
  | .fxPmax => (0x20020, 0x4)
  | .fxPcommit => (0x20024, 0x4)
  | .fxPcommitStatus => (0x20028, 0x4)
  | .fxEngStatus => (0x20100, 0x20)
  | .fxEngId => (0x20104, 0x20)
  | .fxEngVer => (0x20108, 0x20)
  | .fxEngAlloc => (0x2010C, 0x20)
  | .fxEngClips => (0x20110, 0x20)
  | .fxEngRefused => (0x20114, 0x20)
  | .fxEngErrors => (0x20118, 0x20)
  | .fxEngBypass => (0x2011C, 0x20)
  | .fxStage => (0x21000, 0x4)
  | .psStatus => (0x30000, 0x4)
  | .psPvdd => (0x30004, 0x4)
  | .psPvddWarn => (0x30008, 0x4)
  | .psTemp => (0x3000C, 0x4)
  | .psTempCfg => (0x30010, 0x4)
  | .psDomIdle => (0x30014, 0x4)
  | .psChSummary => (0x30018, 0x4)
  | .psRefusedCount => (0x3001C, 0x4)
  | .psChCtrl => (0x30100, 0x20)
  | .psChCfg => (0x30104, 0x20)
  | .psChState => (0x30108, 0x20)
  | .psChDc => (0x3010C, 0x20)
  | .psChQuiet => (0x30110, 0x20)
  | .psChCount => (0x30114, 0x20)
  | .psDxCfg => (0x30218, 0x20)
  | .psDxFb => (0x3021C, 0x20)
  | .spStatus => (0x38000, 0x4)
  | .spRefusedCount => (0x38004, 0x4)
  | .spCtrl => (0x38008, 0x4)
  | .spChCfg => (0x38100, 0x40)
  | .spChPilot => (0x38104, 0x40)
  | .spLimT => (0x38108, 0x40)
  | .spLimX => (0x3810C, 0x40)
  | .spLimV => (0x38110, 0x40)
  | .spLimZ => (0x38114, 0x40)
  | .spModRe => (0x38118, 0x40)
  | .spModTh1 => (0x3811C, 0x40)
  | .spModTh2 => (0x38120, 0x40)
  | .spModX => (0x38124, 0x40)
  | .spModX2 => (0x38128, 0x40)
  | .spModTime => (0x3812C, 0x40)
  | .spChCtrl => (0x38130, 0x40)
  | .spChState => (0x38134, 0x40)
  | .spChTemp => (0x38138, 0x40)
  | .spChMeas => (0x3813C, 0x40)
  | .spChCount => (0x38400, 0x8)
  | .spChPeak => (0x38404, 0x8)
  | .spEnv => (0x38800, 0x4)
  | .aiStatus => (0x40000, 0x4)
  | .aiPdmCfg => (0x40004, 0x4)
  | .aiBiasCfg => (0x40008, 0x4)
  | .aiBiasStat => (0x4000C, 0x4)
  | .aiPeakClear => (0x40010, 0x4)
  | .aiChCfg => (0x40100, 0x10)
  | .aiChStat => (0x40104, 0x10)
  | .aiPdmCh => (0x40200, 0x4)
  | .aiJack => (0x40300, 0x4)
  | .aiSrcStat => (0x40400, 0x4)
  | .aqStatus => (0x48000, 0x4)
  | .aqOutCfg => (0x48100, 0x8)
  | .aqOutStat => (0x48104, 0x8)
  | .aqHpJack => (0x48300, 0x4)
  | .dpStatus => (0x50000, 0x4)
  | .dpRefusedCount => (0x50004, 0x4)
  | .dpCtrl => (0x50100, 0x40)
  | .dpFmt => (0x50104, 0x40)
  | .dpSrcCfg => (0x50108, 0x40)
  | .dpRxMask => (0x5010C, 0x40)
  | .dpTxMask => (0x50110, 0x40)
  | .dpRxActive => (0x50114, 0x40)
  | .dpTxActive => (0x50118, 0x40)
  | .dpMaskStatus => (0x5011C, 0x40)
  | .dpRxMaskPfn => (0x50120, 0x40)
  | .dpTxMaskPfn => (0x50124, 0x40)
  | .dpPfn => (0x50128, 0x40)
  | .dpState => (0x5012C, 0x40)
  | .dpSrcRatio => (0x50130, 0x40)
  | .dpRate => (0x50134, 0x40)
  | .dpCount => (0x50138, 0x40)
  | .dpCount2 => (0x5013C, 0x40)
  | .ckStatus => (0x58000, 0x4)
  | .ckSelCfg => (0x58004, 0x4)
  | .ckSteer => (0x58008, 0x4)
  | .ckDco => (0x5800C, 0x4)
  | .ckPhaseErr => (0x58010, 0x4)
  | .ckRefQual => (0x58014, 0x4)
  | .ckPllsCfg => (0x58018, 0x4)
  | .ckMclkCfg => (0x5801C, 0x4)
  | .ckCacheCtrl => (0x58020, 0x4)
  | .ckCount => (0x58024, 0x4)
  | .ckCount2 => (0x58028, 0x4)
  | .ckFpCfg => (0x58040, 0x8)
  | .ckFpOfs => (0x58044, 0x8)
  | .ckPllStat => (0x58060, 0x4)
  | .ckRefCfg => (0x58110, 0x10)
  | .ckRefFreq => (0x58114, 0x10)
  | .ckRefStat => (0x58118, 0x10)
  | .ckRefCount => (0x5811C, 0x10)
  | .ckCache => (0x58200, 0x4)
  | .scStatus => (0x60000, 0x4)
  | .scCfg => (0x60004, 0x4)
  | .scRefusedCount => (0x60008, 0x4)
  | .scConvCfg => (0x60010, 0x20)
  | .scConvCtrl => (0x60014, 0x20)
  | .scConvHyst => (0x60018, 0x20)
  | .scUrgent => (0x6001C, 0x20)
  | .scUrgentRes => (0x60020, 0x20)
  | .scCount => (0x60024, 0x20)
  | .scCount2 => (0x60028, 0x20)
  | .scPass => (0x6002C, 0x20)
  | .scEntry0 => (0x61000, 0x10)
  | .scEntry1 => (0x61004, 0x10)
  | .scEntry2 => (0x61008, 0x10)
  | .scEntry3 => (0x6100C, 0x10)
  | .scResult => (0x64000, 0x4)
  | .twStatus => (0x68000, 0x4)
  | .twCfg => (0x68004, 0x4)
  | .twEvMask => (0x68008, 0x4)
  | .twFlags => (0x6800C, 0x4)
  | .twArbLost => (0x68010, 0x4)
  | .twCount => (0x68014, 0x4)
  | .twCount2 => (0x68018, 0x4)
  | .twEvLost => (0x6801C, 0x4)
  | .svStatus => (0x70000, 0x4)
  | .svSerialLo => (0x70004, 0x4)
  | .svSerialHi => (0x70008, 0x4)
  | .svRecipientLo => (0x7000C, 0x4)
  | .svRecipientHi => (0x70010, 0x4)
  | .svOwner => (0x70020, 0x4)
  | .svFw => (0x70030, 0x4)
  | .svCtrSel => (0x70038, 0x4)
  | .svCtrVal => (0x7003C, 0x4)
  | .svWearMax => (0x70040, 0x4)
  | .svWearMean => (0x70044, 0x4)
  | .svPantryLines => (0x70048, 0x4)
  | .svPantryEcc => (0x7004C, 0x4)
  | .svRefusedCount => (0x70050, 0x4)
  | .svLastRefusal => (0x70054, 0x4)
  | .svPairAuth => (0x70058, 0x4)
  | .svOwnerHash => (0x70100, 0x4)
  | .plStatus => (0x78000, 0x4)
  | .plCfg => (0x78004, 0x4)
  | .plDigest => (0x78008, 0x4)
  | .plFnOfsLo => (0x7800C, 0x4)
  | .plFnOfsHi => (0x78010, 0x4)
  | .plLink => (0x78014, 0x4)
  | .plPeerCmd => (0x78018, 0x4)
  | .plCount => (0x7801C, 0x4)
  | .plCount2 => (0x78020, 0x4)
  | .plCount3 => (0x78024, 0x4)
  | .plLastFailoverLo => (0x78028, 0x4)
  | .plLastFailoverHi => (0x7802C, 0x4)
  | .plRefusedCount => (0x78030, 0x4)
  | .plHalfTest => (0x78040, 0x4)
  | .strDb => (0x100000, 0x1000)
  | .strIdx => (0x100004, 0x1000)
  | .strPosLo => (0x100008, 0x1000)
  | .strPosHi => (0x10000C, 0x1000)
  | .strRingLo => (0x100010, 0x1000)
  | .strRingHi => (0x100014, 0x1000)
  | .strCfg => (0x100018, 0x1000)
  | .strMap => (0x10001C, 0x1000)
  | .strPrefetch => (0x100020, 0x1000)
  | .strState => (0x100024, 0x1000)
  | .strUnder => (0x100028, 0x1000)
  | .strLate => (0x10002C, 0x1000)
  | .strGroupLo => (0x100040, 0x1000)
  | .strGroupHi => (0x100044, 0x1000)
  | .strLoad => (0x100080, 0x1000)

/-- A row of the register map: an array of `count` registers, their RW and RWL bits, and whether a write of
them is frame-staged. -/
structure RegRow where
  name : RegName
  count : Nat
  mask : Nat
  staged : Bool
  deriving DecidableEq, Repr

/-- Registers of the CT block (R14, R15, R433, R478). -/
def regsCT : List RegRow := [
  ⟨.ctId, 1, 0x0, false⟩,
  ⟨.ctBehaviour, 1, 0x0, false⟩,
  ⟨.ctStatus, 1, 0x0, false⟩,
  ⟨.ctRstCfg, 1, 0x3F, false⟩,
  ⟨.ctRstCause, 1, 0x0, false⟩,
  ⟨.ctRstCount, 1, 0x0, false⟩,
  ⟨.ctOpt, 1, 0x0, false⟩,
  ⟨.ctEccCrit, 1, 0x0, false⟩,
  ⟨.ctWdt, 1, 0x0, false⟩,
  ⟨.ctVid, 1, 0x300, false⟩]

/-- Registers of the PD block (R411). -/
def regsPD : List RegRow := [
  ⟨.pdStatus, 1, 0x0, false⟩,
  ⟨.pdWakeEn, 1, 0x800003FF, false⟩,
  ⟨.pdWakeStatus, 1, 0x0, false⟩,
  ⟨.pdAwc, 8, 0xB803003F, false⟩,
  ⟨.pdRtcSecLo, 1, 0x0, false⟩,
  ⟨.pdRtcSecHi, 1, 0x0, false⟩,
  ⟨.pdRtcSetLo, 1, 0xFFFFFFFF, false⟩,
  ⟨.pdRtcSetHi, 1, 0xFFFF, false⟩,
  ⟨.pdRtcAlarmLo, 1, 0xFFFFFFFF, false⟩,
  ⟨.pdRtcAlarmHi, 1, 0x8000FFFF, false⟩,
  ⟨.pdRtcCfg, 1, 0xFF, false⟩,
  ⟨.pdRetAddr, 1, 0x80000FFF, false⟩,
  ⟨.pdRetData, 1, 0x0, false⟩,
  ⟨.pdCount, 1, 0x0, false⟩,
  ⟨.pdBackup, 32, 0xFFFFFFFF, false⟩]

/-- Registers of the HL block (R309). -/
def regsHL : List RegRow := [
  ⟨.hlStatus, 1, 0x0, false⟩,
  ⟨.hlLink, 1, 0x0, false⟩,
  ⟨.hlBaseLo, 3, 0xFFFFF000, false⟩,
  ⟨.hlBaseHi, 3, 0xFFFFFFFF, false⟩,
  ⟨.hlCfg, 3, 0x0, false⟩,
  ⟨.hlIdx, 3, 0x0, false⟩,
  ⟨.hlIrqMod, 1, 0xFFFF, false⟩,
  ⟨.hlDbDropped, 1, 0x0, false⟩,
  ⟨.hlRegDropped, 1, 0x0, false⟩,
  ⟨.hlDbBad, 1, 0x0, false⟩,
  ⟨.hlEvLost, 1, 0x0, false⟩,
  ⟨.hlOwnerDropped, 1, 0x0, false⟩,
  ⟨.hlSuperseded, 1, 0x0, false⟩,
  ⟨.hlSceneUsed, 4, 0x0, false⟩,
  ⟨.hlSceneFree, 1, 0x0, false⟩,
  ⟨.hlOwner, 58, 0x7, false⟩,
  ⟨.hlMsix, 256, 0x0, false⟩,
  ⟨.hlPba, 2, 0x0, false⟩]

/-- Registers of the MX block (R43, R75). -/
def regsMX : List RegRow := [
  ⟨.mxFrameStatus, 1, 0x0, false⟩,
  ⟨.mxTimeLo, 1, 0x0, false⟩,
  ⟨.mxTimeHi, 1, 0x0, false⟩,
  ⟨.mxBudget, 1, 0x0, false⟩,
  ⟨.mxHalfABudget, 1, 0x0, false⟩,
  ⟨.mxHalfBBudget, 1, 0x0, false⟩,
  ⟨.mxCost, 1, 0x0, false⟩,
  ⟨.mxCostFeed, 1, 0x0, false⟩,
  ⟨.mxCostRefused, 1, 0x0, false⟩,
  ⟨.mxSlackLast, 1, 0x0, false⟩,
  ⟨.mxSlackMinmax, 1, 0x0, false⟩,
  ⟨.mxSlackFloor, 1, 0xFFFF, false⟩,
  ⟨.mxSlackCtrl, 1, 0x0, false⟩,
  ⟨.mxSlackLowCount, 1, 0x0, false⟩,
  ⟨.mxOverrunCount, 1, 0x0, false⟩,
  ⟨.mxDeferCount, 1, 0x0, false⟩,
  ⟨.mxStageStatus, 1, 0x0, false⟩,
  ⟨.mxLastApplyFn, 1, 0x0, false⟩,
  ⟨.mxFrameFlags, 1, 0x0, false⟩,
  ⟨.mxTableUsed, 1, 0x0, false⟩,
  ⟨.mxTableCap, 1, 0x0, false⟩,
  ⟨.mxXpQuery, 1, 0x1FFF0FFF, false⟩,
  ⟨.mxXpCur, 1, 0x0, false⟩,
  ⟨.mxXpPend, 1, 0x0, false⟩,
  ⟨.mxLastApplyTag, 1, 0x0, false⟩,
  ⟨.mxShedCount, 1, 0x0, false⟩,
  ⟨.mxLaneSummary, 1, 0x0, false⟩,
  ⟨.mxEccCount, 1, 0x0, false⟩,
  ⟨.mxCostQueued, 1, 0x0, false⟩,
  ⟨.mxLaneStatus, 64, 0x0, false⟩,
  ⟨.mxSilProf, 4, 0x1FFFFF, true⟩,
  ⟨.mxClipClear, 1, 0x0, false⟩,
  ⟨.mxGenCfg, 32, 0xFFFFFF03, true⟩,
  ⟨.mxGenFreq, 32, 0xFFFFFFFF, true⟩,
  ⟨.mxShed, 128, 0x0, false⟩,
  ⟨.mxSinkCfg, 4096, 0x33, true⟩,
  ⟨.mxSinkStat, 4096, 0x0, false⟩,
  ⟨.mxSrcSil, 1024, 0xBBBBBBBB, true⟩,
  ⟨.mxSrcSilent, 256, 0x0, false⟩]

/-- Registers of the FX block (R107). -/
def regsFX : List RegRow := [
  ⟨.fxSummary, 1, 0x0, false⟩,
  ⟨.fxBudget, 1, 0x0, false⟩,
  ⟨.fxDelayFree, 1, 0x0, false⟩,
  ⟨.fxDelayEcc, 1, 0x0, false⟩,
  ⟨.fxPaddr, 1, 0x0, false⟩,
  ⟨.fxPdata, 1, 0x0, false⟩,
  ⟨.fxPattr, 1, 0x0, false⟩,
  ⟨.fxPmin, 1, 0x0, false⟩,
  ⟨.fxPmax, 1, 0x0, false⟩,
  ⟨.fxPcommit, 1, 0x0, false⟩,
  ⟨.fxPcommitStatus, 1, 0x0, false⟩,
  ⟨.fxEngStatus, 16, 0x0, false⟩,
  ⟨.fxEngId, 16, 0x0, false⟩,
  ⟨.fxEngVer, 16, 0x0, false⟩,
  ⟨.fxEngAlloc, 16, 0x0, false⟩,
  ⟨.fxEngClips, 16, 0x0, false⟩,
  ⟨.fxEngRefused, 16, 0x0, false⟩,
  ⟨.fxEngErrors, 16, 0x0, false⟩,
  ⟨.fxEngBypass, 16, 0xFFFFFFFF, true⟩,
  ⟨.fxStage, 1024, 0x0, false⟩]

/-- Registers of the PS block (R141). -/
def regsPS : List RegRow := [
  ⟨.psStatus, 1, 0x0, false⟩,
  ⟨.psPvdd, 1, 0x0, false⟩,
  ⟨.psPvddWarn, 1, 0xFFFF, true⟩,
  ⟨.psTemp, 1, 0x0, false⟩,
  ⟨.psTempCfg, 1, 0xFF, true⟩,
  ⟨.psDomIdle, 1, 0xFF03, true⟩,
  ⟨.psChSummary, 1, 0x0, false⟩,
  ⟨.psRefusedCount, 1, 0x0, false⟩,
  ⟨.psChCtrl, 12, 0x3, true⟩,
  ⟨.psChCfg, 12, 0x3FF0F100, false⟩,
  ⟨.psChState, 12, 0x0, false⟩,
  ⟨.psChDc, 12, 0x3F3F, true⟩,
  ⟨.psChQuiet, 12, 0x801FFFFF, true⟩,
  ⟨.psChCount, 12, 0x0, false⟩,
  ⟨.psDxCfg, 4, 0xFFFFFF7F, false⟩,
  ⟨.psDxFb, 4, 0xFF, false⟩]

/-- Registers of the SP block (R169). -/
def regsSP : List RegRow := [
  ⟨.spStatus, 1, 0x0, false⟩,
  ⟨.spRefusedCount, 1, 0x0, false⟩,
  ⟨.spCtrl, 1, 0x0, true⟩,
  ⟨.spChCfg, 12, 0xFFFF001F, true⟩,
  ⟨.spChPilot, 12, 0xFFFF007F, true⟩,
  ⟨.spLimT, 12, 0xFFFFFFFF, true⟩,
  ⟨.spLimX, 12, 0xFFFFFF, true⟩,
  ⟨.spLimV, 12, 0xFFFFFFFF, true⟩,
  ⟨.spLimZ, 12, 0xFFFFFFFF, true⟩,
  ⟨.spModRe, 12, 0xFFFFFFFF, true⟩,
  ⟨.spModTh1, 12, 0xFFFFFFFF, true⟩,
  ⟨.spModTh2, 12, 0xFFFFFFFF, true⟩,
  ⟨.spModX, 12, 0xFFFFFFFF, true⟩,
  ⟨.spModX2, 12, 0xFFFFFFFF, true⟩,
  ⟨.spModTime, 12, 0xFFFFFFFF, true⟩,
  ⟨.spChCtrl, 12, 0xFFFF, true⟩,
  ⟨.spChState, 12, 0x0, false⟩,
  ⟨.spChTemp, 12, 0x0, false⟩,
  ⟨.spChMeas, 12, 0x0, false⟩,
  ⟨.spChCount, 12, 0x0, false⟩,
  ⟨.spChPeak, 12, 0x0, false⟩,
  ⟨.spEnv, 192, 0x0, false⟩]

/-- Registers of the AI block (R195). -/
def regsAI : List RegRow := [
  ⟨.aiStatus, 1, 0x0, false⟩,
  ⟨.aiPdmCfg, 1, 0xFF77, true⟩,
  ⟨.aiBiasCfg, 1, 0x83838383, true⟩,
  ⟨.aiBiasStat, 1, 0x0, false⟩,
  ⟨.aiPeakClear, 1, 0x0, false⟩,
  ⟨.aiChCfg, 16, 0xFF00007F, true⟩,
  ⟨.aiChStat, 16, 0x0, false⟩,
  ⟨.aiPdmCh, 32, 0x8F000000, true⟩,
  ⟨.aiJack, 8, 0xCFFFFFFF, true⟩,
  ⟨.aiSrcStat, 48, 0x0, false⟩]

/-- Registers of the AQ block (R210). -/
def regsAQ : List RegRow := [
  ⟨.aqStatus, 1, 0x0, false⟩,
  ⟨.aqOutCfg, 24, 0xCB000000, true⟩,
  ⟨.aqOutStat, 24, 0x0, false⟩,
  ⟨.aqHpJack, 4, 0xC7FFFF00, true⟩]

/-- Registers of the DP block (R234). -/
def regsDP : List RegRow := [
  ⟨.dpStatus, 1, 0x0, false⟩,
  ⟨.dpRefusedCount, 1, 0x0, false⟩,
  ⟨.dpCtrl, 8, 0x1, true⟩,
  ⟨.dpFmt, 8, 0xBFFFF3E0, false⟩,
  ⟨.dpSrcCfg, 8, 0x3, true⟩,
  ⟨.dpRxMask, 8, 0xFFFFFFFF, false⟩,
  ⟨.dpTxMask, 8, 0xFFFFFFFF, false⟩,
  ⟨.dpRxActive, 8, 0x0, false⟩,
  ⟨.dpTxActive, 8, 0x0, false⟩,
  ⟨.dpMaskStatus, 8, 0x0, false⟩,
  ⟨.dpRxMaskPfn, 8, 0x0, false⟩,
  ⟨.dpTxMaskPfn, 8, 0x0, false⟩,
  ⟨.dpPfn, 8, 0x0, false⟩,
  ⟨.dpState, 8, 0x0, false⟩,
  ⟨.dpSrcRatio, 8, 0x0, false⟩,
  ⟨.dpRate, 8, 0x0, false⟩,
  ⟨.dpCount, 8, 0x0, false⟩,
  ⟨.dpCount2, 8, 0x0, false⟩]

/-- Registers of the CK block (R260). -/
def regsCK : List RegRow := [
  ⟨.ckStatus, 1, 0x0, false⟩,
  ⟨.ckSelCfg, 1, 0xCFFF0003, true⟩,
  ⟨.ckSteer, 1, 0xFFFFFFFF, false⟩,
  ⟨.ckDco, 1, 0x0, false⟩,
  ⟨.ckPhaseErr, 1, 0x0, false⟩,
  ⟨.ckRefQual, 1, 0x0, false⟩,
  ⟨.ckPllsCfg, 1, 0xFE000000, true⟩,
  ⟨.ckMclkCfg, 1, 0xC7C7, true⟩,
  ⟨.ckCacheCtrl, 1, 0x0, false⟩,
  ⟨.ckCount, 1, 0x0, false⟩,
  ⟨.ckCount2, 1, 0x0, false⟩,
  ⟨.ckFpCfg, 2, 0xCFFF00FF, true⟩,
  ⟨.ckFpOfs, 2, 0xFFFFFFFF, true⟩,
  ⟨.ckPllStat, 4, 0x0, false⟩,
  ⟨.ckRefCfg, 13, 0xEFFC0000, true⟩,
  ⟨.ckRefFreq, 13, 0xFFFFFFF, false⟩,
  ⟨.ckRefStat, 13, 0x0, false⟩,
  ⟨.ckRefCount, 13, 0x0, false⟩,
  ⟨.ckCache, 32, 0x0, false⟩]

/-- Registers of the SC block (R284). -/
def regsSC : List RegRow := [
  ⟨.scStatus, 1, 0x0, false⟩,
  ⟨.scCfg, 1, 0x3, false⟩,
  ⟨.scRefusedCount, 1, 0x0, false⟩,
  ⟨.scConvCfg, 2, 0xFFFFFFFF, false⟩,
  ⟨.scConvCtrl, 2, 0x0, false⟩,
  ⟨.scConvHyst, 2, 0xFFFF, false⟩,
  ⟨.scUrgent, 2, 0x1FF, false⟩,
  ⟨.scUrgentRes, 2, 0x0, false⟩,
  ⟨.scCount, 2, 0x0, false⟩,
  ⟨.scCount2, 2, 0x0, false⟩,
  ⟨.scPass, 2, 0x0, false⟩,
  ⟨.scEntry0, 512, 0xF780FFBF, false⟩,
  ⟨.scEntry1, 512, 0xFFFFFFFF, false⟩,
  ⟨.scEntry2, 512, 0xFFFFFF, false⟩,
  ⟨.scEntry3, 512, 0xFFFFFFFF, false⟩,
  ⟨.scResult, 512, 0x0, false⟩]

/-- Registers of the TW block (R362). -/
def regsTW : List RegRow := [
  ⟨.twStatus, 1, 0x0, false⟩,
  ⟨.twCfg, 1, 0xFF000331, false⟩,
  ⟨.twEvMask, 1, 0xFFFE, false⟩,
  ⟨.twFlags, 1, 0x0, false⟩,
  ⟨.twArbLost, 1, 0x0, false⟩,
  ⟨.twCount, 1, 0x0, false⟩,
  ⟨.twCount2, 1, 0x0, false⟩,
  ⟨.twEvLost, 1, 0x0, false⟩]

/-- Registers of the SV block (R389). -/
def regsSV : List RegRow := [
  ⟨.svStatus, 1, 0x0, false⟩,
  ⟨.svSerialLo, 1, 0x0, false⟩,
  ⟨.svSerialHi, 1, 0x0, false⟩,
  ⟨.svRecipientLo, 1, 0x0, false⟩,
  ⟨.svRecipientHi, 1, 0x0, false⟩,
  ⟨.svOwner, 4, 0x0, false⟩,
  ⟨.svFw, 2, 0x0, false⟩,
  ⟨.svCtrSel, 1, 0xFF, false⟩,
  ⟨.svCtrVal, 1, 0x0, false⟩,
  ⟨.svWearMax, 1, 0x0, false⟩,
  ⟨.svWearMean, 1, 0x0, false⟩,
  ⟨.svPantryLines, 1, 0x0, false⟩,
  ⟨.svPantryEcc, 1, 0x0, false⟩,
  ⟨.svRefusedCount, 1, 0x0, false⟩,
  ⟨.svLastRefusal, 1, 0x0, false⟩,
  ⟨.svPairAuth, 1, 0x0, false⟩,
  ⟨.svOwnerHash, 64, 0x0, false⟩]

/-- Registers of the PL block (R463). -/
def regsPL : List RegRow := [
  ⟨.plStatus, 1, 0x0, false⟩,
  ⟨.plCfg, 1, 0xFFFFF000, false⟩,
  ⟨.plDigest, 1, 0xFFF0FFF, false⟩,
  ⟨.plFnOfsLo, 1, 0x0, false⟩,
  ⟨.plFnOfsHi, 1, 0x0, false⟩,
  ⟨.plLink, 1, 0x0, false⟩,
  ⟨.plPeerCmd, 1, 0x0, false⟩,
  ⟨.plCount, 1, 0x0, false⟩,
  ⟨.plCount2, 1, 0x0, false⟩,
  ⟨.plCount3, 1, 0x0, false⟩,
  ⟨.plLastFailoverLo, 1, 0x0, false⟩,
  ⟨.plLastFailoverHi, 1, 0x0, false⟩,
  ⟨.plRefusedCount, 1, 0x0, false⟩,
  ⟨.plHalfTest, 4, 0x0, false⟩]

/-- Registers of the STR block (R337). -/
def regsSTR : List RegRow := [
  ⟨.strDb, 256, 0x0, false⟩,
  ⟨.strIdx, 256, 0x0, false⟩,
  ⟨.strPosLo, 256, 0x0, false⟩,
  ⟨.strPosHi, 256, 0x0, false⟩,
  ⟨.strRingLo, 256, 0xFFFFFFFF, false⟩,
  ⟨.strRingHi, 256, 0xFFFFFFFF, false⟩,
  ⟨.strCfg, 256, 0xFFFFFC1F, false⟩,
  ⟨.strMap, 256, 0xFFF, false⟩,
  ⟨.strPrefetch, 256, 0x1FFF, false⟩,
  ⟨.strState, 256, 0x0, false⟩,
  ⟨.strUnder, 256, 0x0, false⟩,
  ⟨.strLate, 256, 0x0, false⟩,
  ⟨.strGroupLo, 256, 0x0, false⟩,
  ⟨.strGroupHi, 256, 0x0, false⟩,
  ⟨.strLoad, 256, 0x0, false⟩]

/-- The rows of the block that a BAR0 offset lies in (R3). -/
def regBlock (off : Nat) : List RegRow :=
  if off < 0x4000 then regsCT else if off < 0x8000 then regsPD else if off < 0x10000 then regsHL
  else if off < 0x20000 then regsMX else if off < 0x30000 then regsFX else if off < 0x38000 then regsPS
  else if off < 0x40000 then regsSP else if off < 0x48000 then regsAI else if off < 0x50000 then regsAQ
  else if off < 0x58000 then regsDP else if off < 0x60000 then regsCK else if off < 0x68000 then regsSC
  else if off < 0x70000 then regsTW else if off < 0x78000 then regsSV else if off < 0x80000 then regsPL
  else if off < 0x100000 then [] else regsSTR

/-- Whether a row holds the register at an offset. -/
def rowHolds (r : RegRow) (off : Nat) : Bool :=
  let p := regPlace r.name
  p.1 ≤ off && (off - p.1) % p.2 == 0 && (off - p.1) / p.2 < r.count

/-- Reserved sources and sinks (R45, R46). -/
def reservedSource (n : Nat) : Bool := (0x19BC ≤ n && n ≤ 0x19BF) || 0x19E0 ≤ n

def reservedSink (k : Nat) : Bool := (0x624 ≤ k && k ≤ 0x62F) || (0x7B0 ≤ k && k ≤ 0x7FF) || 0x1000 ≤ k

/-- The configuration of a reserved sink, or of reserved sources only: no register (R47). -/
def reservedReg (n : RegName) (i : Nat) : Bool :=
  match n with
  | .mxSinkCfg | .mxSinkStat => reservedSink i
  | .mxSrcSil => 0x33C ≤ i
  | _ => false

/-- The row and index of the register at an offset; `none` for an address of no register (R5, R47).
[log: DEDUCED 47] -/
def regAt (off : Nat) : Option (RegRow × Nat) :=
  match (regBlock off).find? (rowHolds · off) with
  | none => none
  | some r =>
    let i := (off - (regPlace r.name).1) / (regPlace r.name).2
    if reservedReg r.name i then none else some (r, i)

/-- Offset of register `i` of an array. -/
def regOff (n : RegName) (i : Nat) : Nat := (regPlace n).1 + (regPlace n).2 * i

/-- RW and RWL bits of register `i` of a row: a few bits are RO for some instances (R47, R141, R260, R309, R411).
[log: DEDUCED 47] -/
def regMask (r : RegRow) (i : Nat) : Nat :=
  match r.name with
  | .psChCfg => if i < 8 then 0x3FF0F100 else 0x3FF03000
  | .mxSrcSil => if i = 0x337 then 0xBBBB else r.mask
  | .spChCfg => if i < 8 then 0x1F else r.mask
  | .ckRefCfg => if i < 2 then 0xEFFC0000 else 0xAFFC0000
  | .ckRefFreq => if i < 10 then r.mask else 0
  | .hlOwner => if i = 0x39 then 0 else r.mask
  | .pdBackup => if i < 30 then r.mask else 0
  | _ => r.mask

/-- Writable bits of register `i` of an array. -/
def regWritable (n : RegName) (i : Nat) : Word :=
  match regAt (regOff n i) with
  | some p => BitVec.ofNat 32 (regMask p.1 p.2)
  | none => 0

/-- A written value merged into the fields in force: what is not writable is left (R4). -/
def mergeReg (n : RegName) (i : Nat) (old v : Word) : Word :=
  (old &&& ~~~(regWritable n i)) ||| (v &&& regWritable n i)

/-- The fields that are RWL: all the writable fields of these registers (R305). -/
def regLockable (n : RegName) : Bool :=
  match n with
  | .ctRstCfg | .ctVid | .hlOwner => true
  | _ => false

/-- Reset value of the writable fields of register `i` (the Reset columns). -/
def regReset (n : RegName) (i : Nat) : Word :=
  match n with
  | .ctRstCfg => 0x3
  | .ctVid => 0x300
  | .pdWakeEn => 0x21F
  | .pdAwc => 0x20020
  | .hlOwner => if i = 0x39 then 0x1 else 0x3
  | .mxSlackFloor => 0x2000
  | .mxSilProf => 0x1412C0
  | .mxSinkCfg => if 0x600 ≤ i ∧ i ≤ 0x623 then 0 else 0x20
  | .psTempCfg => 125
  | .psDomIdle => 0xA00
  | .psChCfg => if i < 8 then 0x11B0D000 else 0x1F401100
  | .psChDc => 0x514
  | .psChQuiet => 0x1012C0
  | .psDxCfg => 0x20780C
  | .psDxFb => 40
  | .spChCfg => if i < 8 then 0 else 0x7D0000
  | .spChPilot => 0x82E0020
  | .spLimT => 0xC80DAC
  | .spLimX => 0xDA1388
  | .spLimV => 0x44C03E8
  | .spLimZ => 0xFA00064
  | .spModRe => 0xFA0FA0
  | .spModTh1 => 0x3E800C8
  | .spModTh2 => 0x2580064
  | .spModX => 0x2C31388
  | .spModX2 => 0xF5A1388
  | .spModTime => 0xBB800C8
  | .spChCtrl => 0xFA
  | .aiPdmCfg => 0x1400
  | .aiChCfg | .aiPdmCh => 0x4000000
  | .aiJack => 0x140000
  | .aqOutCfg => 0x2000000
  | .aqHpJack => 0x140000
  | .dpFmt => 0x25060A0
  | .dpSrcCfg => 1
  | .ckSelCfg => 0x800A0002
  | .ckFpCfg => 1
  | .ckRefCfg => if i = 0 ∨ i = 1 ∨ i = 12 then 0xF640000 else 0x4F640000
  | .ckRefFreq => if i < 10 then 48000 else if i = 10 then 1 else if i = 11 then 48000 else 100000000
  | .scConvHyst => 655
  | .scEntry0 => 0x1000
  | .scEntry1 => 0xFFFF0000
  | .scEntry2 => 0x400000
  | .twCfg => 0xA000110
  | .plCfg => 0x42140000
  | .plDigest => 0x6230600
  | .strCfg => 4
  | .strPrefetch => 32
  | _ => 0

/-- A field lies within a range. -/
def within (lo hi n : Nat) : Bool := lo ≤ n && n ≤ hi

/-- A signed temperature in 0.1 °C lies in −400 to 850 (R159, R169). -/
def tempOk (n : Nat) : Bool := -400 ≤ sext 16 n && sext 16 n ≤ 850

/-- Whether a value may stand in a register: the fields for which a write "leaves the register unchanged".
[log: DEDUCED 25] -/
def regAccept (n : RegName) (i : Nat) (old v : Word) : Bool :=
  match n with
  | .ctRstCfg => fld v 5 4 < 3 && fld v 3 2 < 2
  | .pdAwc => fld v 17 16 < 3 && fld v 5 0 != 0
  | .mxSilProf => 8 ≤ fld v 20 16 && fld v 15 0 != 0
  | .psTempCfg => 100 ≤ fld v 7 0 && fld v 7 0 ≤ 140
  | .psDomIdle => fld v 15 8 != 0
  | .psChCfg => 40 ≤ fld v 29 20 && fld v 29 20 ≤ (if i < 8 then 400 else 1000) && fld v 13 12 != 3
  | .psChDc => 1 ≤ fld v 13 8 && fld v 13 8 ≤ 50 && 5 ≤ fld v 5 0 && fld v 5 0 ≤ 50
  | .psChQuiet => 8 ≤ fld v 20 16 && fld v 15 0 != 0
  | .psDxCfg => 10 ≤ fld v 15 8 && fld v 15 8 ≤ 200 && 4 ≤ fld v 6 0 && fld v 6 0 ≤ 100
      && fld v 19 16 < 2 && fld v 23 20 < 7
  | .psDxFb => 8 ≤ fld v 7 0 && fld v 7 0 ≤ 128
  | .spChCfg => i < 8 || within 10 10000 (fld v 31 16)
  | .spChPilot => within 1 64 (fld v 31 24) && within 40 60 (fld v 23 16) && within 16 80 (fld v 6 0)
  | .spLimT => within 10 1000 (fld v 31 16) && within 500 3500 (fld v 15 0)
  | .spLimX => within 128 255 (fld v 23 16) && within 10 5000 (fld v 15 0)
  | .spLimV => within 10 1100 (fld v 31 16) && within 10 1000 (fld v 15 0)
  | .spLimZ => 100 ≤ fld v 31 16 && within 100 20000 (fld v 15 0)
  | .spModRe => tempOk (fld v 31 16) && 500 ≤ fld v 15 0
  | .spModTh1 | .spModTh2 => 1 ≤ fld v 31 16 && within 1 10000 (fld v 15 0)
  | .spModX => within 200 4000 (fld v 31 16) && within 500 50000 (fld v 15 0)
  | .spModX2 => within 1000 10000 (fld v 31 16) && 1 ≤ fld v 15 0
  | .spModTime => within 10 60000 (fld v 31 16) && within 1 5000 (fld v 15 0)
  | .spChCtrl => tempOk (fld v 15 0)
  | .aiPdmCfg => fld v 15 8 ≤ 100 && fld v 6 4 < 5 && fld v 2 0 < 5
  | .aiChCfg => fld v 29 28 < 3 && fld v 6 0 ≤ 120
      && !(bit old 31 && bit v 31 && (bit old 30 != bit v 30))
  | .aiJack => fld v 23 16 != 0
  | .aqHpJack => fld v 23 16 != 0
  | .dpFmt => fld v 29 28 < 3 && fld v 24 23 < 3 && fld v 22 21 < 3 && fld v 8 5 < 8
  | .ckSelCfg => fld v 27 24 < 14 && fld v 23 16 ≤ 60
  | .ckSteer => -500000000 ≤ sext 32 v.toNat && sext 32 v.toNat ≤ 500000000
  | .ckPllsCfg => fld v 31 30 < 3
  | .ckMclkCfg => fld v 2 0 < 5 && fld v 10 8 < 5
  | .ckFpCfg => fld v 27 24 < 14
  | .scConvCfg => fld v 30 29 < 3 && fld v 5 4 < 3
  | .strCfg => fld v 15 10 != 1
  | .twCfg => fld v 31 24 != 0 && fld v 9 8 < 3
  | .plCfg => fld v 31 30 < 3 && fld v 29 24 != 0
  | .plDigest => fld v 11 0 ≤ fld v 27 16
  | _ => true

/-- Setting group of a register (R302); `none` for the HL block, for FX_PADDR and for registers whose every
field is RO. [log: DEDUCED 20] -/
def regGroup (n : RegName) (i : Nat) : Option Nat :=
  match n with
  | .mxSlackFloor | .mxSlackCtrl | .mxFrameFlags | .mxXpQuery | .mxSilProf | .mxClipClear | .mxGenCfg
  | .mxGenFreq | .mxSinkCfg | .mxSrcSil => some 0
  | .fxEngBypass => some (1 + i)
  | .spChCfg | .spChPilot | .spLimT | .spLimX | .spLimV | .spLimZ | .spModRe | .spModTh1 | .spModTh2
  | .spModX | .spModX2 | .spModTime | .spChCtrl => some (0x11 + i)
  | .psChCtrl | .psChCfg | .psChDc | .psChQuiet => some (0x1D + i)
  | .psDxCfg | .psDxFb => some (0x25 + i)
  | .psPvddWarn | .psTempCfg | .psDomIdle => some 0x29
  | .aiPdmCfg | .aiBiasCfg | .aiPeakClear | .aiChCfg | .aiPdmCh | .aiJack => some 0x2A
  | .aqOutCfg | .aqHpJack => some 0x2B
  | .dpCtrl | .dpFmt | .dpSrcCfg | .dpRxMask | .dpTxMask => some (0x2C + i)
  | .ckSelCfg | .ckSteer | .ckPllsCfg | .ckMclkCfg | .ckCacheCtrl | .ckFpCfg | .ckFpOfs | .ckRefCfg => some 0x34
  | .ckRefFreq => if i < 10 then some 0x34 else none
  | .scCfg | .scConvCfg | .scConvCtrl | .scConvHyst | .scUrgent | .scEntry0 | .scEntry1 | .scEntry2
  | .scEntry3 => some 0x35
  | .pdWakeEn | .pdWakeStatus | .pdAwc | .pdRtcSetLo | .pdRtcSetHi | .pdRtcAlarmLo | .pdRtcAlarmHi
  | .pdRtcCfg | .pdRetAddr | .pdRetData => some 0x36
  | .pdBackup => if i < 30 then some 0x36 else none
  | .twCfg | .twEvMask | .twFlags => some 0x37
  | .ctRstCfg | .ctRstCause | .ctVid | .svCtrSel | .plCfg | .plDigest | .plPeerCmd => some 0x38
  | .strRingLo | .strRingHi | .strCfg | .strMap | .strPrefetch => some 0x39
  | _ => none

/-! ### Parameter words of a command (R291, R297) -/

/-- Parameter word `i`. -/
def pwN (c : Cmd) (i : Nat) : Nat := ((c.pw[i]?).getD 0).toNat

/-- The bits of PW0 to PW6 that a command uses, as (word, mask); the others must be 0. -/
abbrev PwUse := List (Nat × Nat)

/-- The check of R291: FLAGS and PHASE (for the ring; R346 ignores them on the bus), seven words, and every
word or field not used is 0. -/
def fieldsOk (c : Cmd) (u : PwUse) : Bool :=
  (c.src != .host || (c.flags.toNat ≤ 1 && c.phaseLow.toNat == 0)) && c.pw.length == 7
  && (List.range 7).all (fun i =>
    let used := ((u.find? (·.1 == i)).map Prod.snd).getD 0
    (BitVec.ofNat 64 (pwN c i) &&& ~~~(BitVec.ofNat 64 used)) == 0)

/-- NO_IRQ. -/
def noIrqOf (c : Cmd) : Bool := c.src == .host && c.flags.toNat % 2 == 1

/-- All 64 bits of a word. -/
def wordAll : Nat := 0xFFFFFFFFFFFFFFFF

/-- An address parameter with a length (R347): for a two-wire command it must name the buffer. -/
def addrOk (c : Cmd) (i len : Nat) : Bool :=
  c.src != .tw || (bitN (pwN c i) 63 && fldN (pwN c i) 62 16 == 0 && fldN (pwN c i) 15 0 + len ≤ 65536)

end Sys2Proof.Machine
end

