-- ==== Sys2Proof/Machine/Ops.lean ====
section
/-! DEFINITION. The named operations that meanings share: time, registers, events and their two queues,
MSI-X, commands and their completions, ownership, staging and the long operations. -/

namespace Sys2Proof.Machine

open Sys2Proof

/-- What a step answers. -/
abbrev Res := Host.Outcome State Fault Refusal

/-! ### Time -/

/-- Frame rates by RATE code (MX_FRAME_STATUS): period in 1/28,224,000 s. [log: DESIGN CHOICE 5] -/
def framePeriod (code : Nat) : Nat :=
  match code with
  | 0 => 640
  | 1 => 588
  | 2 => 320
  | 3 => 294
  | 4 => 160
  | _ => 147

/-- Frames per second by RATE code. -/
def frameHz (code : Nat) : Nat :=
  match code with
  | 0 => 44100
  | 1 => 48000
  | 2 => 88200
  | 3 => 96000
  | 4 => 176400
  | _ => 192000

/-- The model's clock at the command in hand, in 1/28,224,000 s. [log: DESIGN CHOICE 5] -/
def nowTicks (s : State) : Nat := s.fr.ticks + framePeriod s.fr.rate * s.now.toNat / 65536

/-- Units of the model's clock in a millisecond, and in a second. -/
def tMs : Nat := 28224
def tSec : Nat := 28224000

/-- The state at the instant of a command: its FRAC, and nothing driven out yet. [log: DESIGN CHOICE 4] -/
def atT (s : State) (t : Frac) : State := { s with now := t, out := [] }

/-- Drive something out. -/
def push (s : State) (o : Out) : State := { s with out := s.out ++ [o] }

/-- A read's data. -/
def reading (s : State) (v : Word) : State := push s (.read v)

/-- Draw a value the spec leaves open. [log: DESIGN CHOICE 8, 54, 68, 77] -/
def draw (s : State) : BitVec 64 × State := (Config.free s.draws, { s with draws := s.draws + 1 })

/-- Apply `f` to each element in turn. -/
def each {α : Type} (l : List α) (s : State) (f : State → α → State) : State := l.foldl f s

/-! ### Registers -/

/-- The writable fields of register `i` of an array, as in force. -/
def reg (s : State) (n : RegName) (i : Nat := 0) : Word := tget (regReset n i) s.regs (regOff n i)

/-- Put a value in force. -/
def setReg (s : State) (n : RegName) (i : Nat) (v : Word) : State :=
  { s with regs := tput (regReset n i) s.regs (regOff n i) v }

/-- Field `hi:lo` of a register in force. -/
def rf (s : State) (n : RegName) (i hi lo : Nat) : Nat := fld (reg s n i) hi lo

/-- Bit `b` of a register in force. -/
def rb (s : State) (n : RegName) (i b : Nat) : Bool := bit (reg s n i) b

/-- Set or clear one bit of a register in force. -/
def setBit (s : State) (n : RegName) (i b : Nat) (v : Bool) : State :=
  let m : Word := BitVec.ofNat 32 (2 ^ b)
  setReg s n i (if v then reg s n i ||| m else reg s n i &&& ~~~m)

/-- Whether domain `d` is powered (PD_STATUS.DOM_ON). -/
def domOn (s : State) (d : Nat) : Bool := bitN s.pd.on d

def domMXA : Nat := 2
def domMXB : Nat := 3
def domAIN : Nat := 4
def domAOUT : Nat := 5
def domPORT : Nat := 6
def domCLK : Nat := 7
def domPWRA : Nat := 8
def domPWRB : Nat := 9

/-! ### MSI-X (R296) -/

/-- A vector's control word masks it; every vector is masked at reset. -/
def vecMasked (s : State) (v : Nat) : Bool := tget 1 s.hl.msix (4 * v + 3) &&& 1 == 1

/-- Holdoff of a vector in µs. -/
def vecHoldoff (s : State) (v : Nat) : Nat :=
  if v = 0 then rf s .hlIrqMod 0 7 0 else if v = 1 then rf s .hlIrqMod 0 15 8 else 0

/-- The module may write to host memory: the link is up, the function in D0, and bus mastering on (R295, R308). -/
def ringsOpen (s : State) : Bool := s.hl.linkUp && s.hl.dstate == 0 && s.hl.fn.busMaster

/-- A DMA is issued: the link leaves L1, L1.1 or L1.2 for it (R308). -/
def leaveL1 (s : State) : State := { s with hl := { s.hl with aspm := 0 } }

/-- A DMA write. -/
def dmaWrite (s : State) (addr : Nat) (b : Bytes) : State := push (leaveL1 s) (.dma addr b)

/-- Send a message, or set its pending bit while the vector or the function is masked or the module may not write to host
memory; none while MSI-X is disabled. -/
def sendMsi (s : State) (v : Nat) : State :=
  if !s.hl.fn.msixEn then s
  else if vecMasked s v || s.hl.fn.msixMask || !ringsOpen s then
    { s with hl := { s.hl with pba := tput false s.hl.pba v true } }
  else
    let s := push (leaveL1 s) (.msix v)
    { s with hl := { s.hl with holdoff := tput false s.hl.holdoff v (vecHoldoff s v != 0) } }

/-- Signal a vector: a message at once, or one at the end of the holdoff in progress. -/
def signal (s : State) (v : Nat) : State :=
  if tget false s.hl.holdoff v then { s with hl := { s.hl with irqWait := tput false s.hl.irqWait v true } }
  else sendMsi s v

/-! ### Rings (R289–R295) -/

/-- Entries written and not yet seen consumed, of a ring the module writes. -/
def outstanding (r : Ring) : Nat := (r.prod + 2 ^ r.size - r.cons) % 2 ^ r.size

/-- The ring after the module has written one entry. -/
def ringPut (r : Ring) : Ring :=
  { r with prod := (r.prod + 1) % 2 ^ r.size,
           phase := if r.prod + 1 = 2 ^ r.size then !r.phase else r.phase }

/-- Address of entry `idx`, of `n` bytes, of ring `r`: 0 commands, 1 completions, 2 events (R290). -/
def ringAddr (s : State) (r n idx : Nat) : Nat :=
  (reg s .hlBaseHi r).toNat * 2 ^ 32 + (reg s .hlBaseLo r).toNat + n * idx

/-- Write an entry into host memory, its last `k` bytes, which hold PHASE, after the others (R10, R293). -/
def writeEntry (s : State) (addr : Nat) (b : Bytes) (k : Nat) : State :=
  let n := b.length - k
  dmaWrite (dmaWrite s addr (b.take n)) (addr + n) (b.drop n)

/-- The 32 bytes of an event record (R10). -/
def eventBytes (e : Event) (phase : Bool) : Bytes :=
  toLE 2 e.code ++ toLE 2 e.unit ++ toLE 6 e.fn ++ toLE 2 e.frac.toNat ++ toLE 16 e.payload.toNat
    ++ toLE 4 (b2n phase * 2 ^ 31)

/-- The 16 bytes of a completion (R293). -/
def completionBytes (c : Completion) (phase : Bool) : Bytes :=
  toLE 4 c.id.toNat ++ toLE 2 c.status ++ toLE 2 c.opcode ++ toLE 6 c.result ++ toLE 2 (b2n phase * 32768 + c.idx.toNat)

/-- Two slots of the event ring are free (R295). [log: DEDUCED 22] -/
def evtRoom (s : State) : Bool := s.hl.evt.en && outstanding s.hl.evt + 2 ≤ 2 ^ s.hl.evt.size

/-- Write one record to the event ring and signal vector 1. -/
def putEvent (s : State) (e : Event) : State :=
  let r := s.hl.evt
  let s := writeEntry (push s (.event e r.prod r.phase)) (ringAddr s 2 32 r.prod) (eventBytes e r.phase) 4
  signal { s with hl := { s.hl with evt := ringPut r } } 1

/-- EVENTS_LOST once two slots are free (R295). -/
def flushLost (s : State) : State :=
  if s.hl.lost != 0 && ringsOpen s && evtRoom s then
    let h := s.hl
    let e : Event := { code := 0x0A01, unit := noUnit, fn := s.fr.fn, frac := s.now,
                       payload := pay [(0, 4, h.lost), (4, 6, h.lostFirst), (10, 6, h.lostLast)] }
    putEvent { s with hl := { h with lost := 0, lostFirst := 0, lostLast := 0 } } e
  else s

/-- Drop a record and count it (R290, R295); the report of the drops follows the records that wait now. -/
def dropEvent (s : State) (e : Event) : State :=
  let h := s.hl
  { s with hl := { h with evLost := inc32 h.evLost, lost := inc32 h.lost,
                          lostAt := if h.lost = 0 then h.waiting.length else h.lostAt,
                          lostFirst := if h.lost = 0 then e.fn else h.lostFirst, lostLast := e.fn } }

/-- EVENTS_LOST, where no record that waits comes before it. -/
def flushDue (s : State) : State := if s.hl.lostAt = 0 then flushLost s else s

/-- The records that wait, and EVENTS_LOST in its place among them, are written in the order of their detection as far as
the link and the ring allow (R290, R295). [log: DEDUCED 22] -/
def writeRecords : List Event → State → State
  | [], s => flushLost { s with hl := { s.hl with waiting := [], lostAt := 0 } }
  | e :: r, s =>
    let s := flushDue s
    if ringsOpen s && evtRoom s then
      writeRecords r (putEvent { s with hl := { s.hl with waiting := r, lostAt := s.hl.lostAt - 1 } } e)
    else { s with hl := { s.hl with waiting := e :: r } }

def writeWaiting (s : State) : State := writeRecords s.hl.waiting s

/-- Write a record into the event ring behind what waits, or drop it (R295). [log: DEDUCED 22] -/
def writeEvent (s : State) (e : Event) : State :=
  let s := writeWaiting s
  if evtRoom s && s.hl.waiting.isEmpty then putEvent s e else dropEvent s e

/-- WAKE_N is driven low for an event that waits in L2 while PME_En is 1 (R308). -/
def wakeHost (s : State) : State :=
  if s.hl.fn.pmeEn && s.hl.l2 && !s.hl.waiting.isEmpty && !s.hl.pmeWake then
    push { s with hl := { s.hl with pmeWake := true } } (.pin "WAKE_N" true)
  else s

/-- A record for the event ring: written, or kept until the link allows (R295). -/
def ringEvent (s : State) (e : Event) : State :=
  if s.hl.evt.en && !ringsOpen s then wakeHost { s with hl := { s.hl with waiting := s.hl.waiting ++ [e] } }
  else writeEvent s e

/-! ### The two-wire queue (R351) -/

/-- Attention is wanted. -/
def attention (s : State) : Bool := !s.tw.queue.isEmpty || s.tw.resultReady

/-- Follow attention: a notify becomes possible when it begins to be wanted, and a pending notify is
cancelled when it ends. -/
def followAttention (s : State) : State :=
  let w := attention s
  let tw := s.tw
  let tw := if w && !tw.wanted then { tw with notifyOk := true } else tw
  let tw := if w then tw else { tw with notify := none, stuck := 0 }
  { s with tw := { tw with wanted := w } }

/-- TW_ALERT_N is driven (R352, R353), by logic of domain CTRL. -/
def alertDriven (s : State) : Bool :=
  let m := rf s .twCfg 0 5 4
  domOn s 1 && (m == 1 || m == 2) && attention s && s.tw.armed

/-- TW_EVENTS_LOST for the copies dropped. -/
def twLost (s : State) : Event :=
  { code := 0x0B09, unit := noUnit, fn := s.fr.fn, frac := s.now,
    payload := pay [(0, 4, s.tw.lost), (4, 6, s.tw.lostFirst), (10, 6, s.tw.lostLast)] }

/-- Queue TW_EVENTS_LOST once two records are free. -/
def twFlush (s : State) : State :=
  if s.tw.lost != 0 && s.tw.queue.length + 2 ≤ 64 then
    { s with tw := { s.tw with queue := s.tw.queue ++ [twLost s], lost := 0, lostFirst := 0, lostLast := 0,
                               armed := true } }
  else s

/-- Queue a copy, after TW_EVENTS_LOST if copies were dropped and two records are free. -/
def twQueue (s : State) (e : Event) : State :=
  let s := twFlush s
  if s.tw.lost = 0 && s.tw.queue.length < 64 then
    followAttention { s with tw := { s.tw with queue := s.tw.queue ++ [e], armed := true } }
  else
    let tw := s.tw
    { s with tw := { tw with evLost := inc32 tw.evLost, lost := inc32 tw.lost,
                             lostFirst := if tw.lost = 0 then e.fn else tw.lostFirst, lostLast := e.fn } }

/-- The copy that TW_EV_MASK asks for. -/
def twCopy (s : State) (e : Event) : State :=
  if rb s .twEvMask 0 (e.code / 256) then twQueue s e else s

/-! ### Events -/

/-- Raise an event whose frame number and FRAC are given (R10). -/
def emitAt (s : State) (code unit fn : Nat) (frac : Frac) (p : BitVec 128) : State :=
  let e : Event := { code := code, unit := unit, fn := fn, frac := frac, payload := p }
  ringEvent (twCopy s e) e

/-- Raise an event now. -/
def emit (s : State) (code unit : Nat) (p : BitVec 128) : State := emitAt s code unit s.fr.fn s.now p

/-- A record held for the event ring until the host first enables it (R290, R428), with FN 0 and FRAC 0. -/
def holdEvent (s : State) (code unit : Nat) (p : BitVec 128) : State :=
  let e : Event := { code := code, unit := unit, fn := 0, frac := 0, payload := p }
  let s := twCopy s e
  { s with hl := { s.hl with held := s.hl.held ++ [e] } }

/-! ### Owners (R302–R304) -/

/-- `src` owns group `g`. -/
def owns (s : State) (src : Owner) (g : Nat) : Bool := rb s .hlOwner g (ownerBit src)

/-- OWNER_REFUSED, at most once per group per frame (R303); `tag` is the BAR0 offset, or 0x8000_0000 + opcode.
[log: DESIGN CHOICE 24] -/
def refusedEvent (s : State) (src : Owner) (tag g : Nat) : State :=
  if tget 0 s.hl.refusedAt g = s.fr.fn + 1 then s
  else
    let s := { s with hl := { s.hl with refusedAt := tput 0 s.hl.refusedAt g (s.fr.fn + 1) } }
    emit s 0x0A02 g (pay [(0, 1, ownerCode src), (4, 4, tag), (8, 4, s.hl.ownerDropped)])

/-- Count one discarded write or refused command, and report the groups not owned. [log: DESIGN CHOICE 24] -/
def ownerRefuse (s : State) (src : Owner) (tag : Nat) (gs : List Nat) : State :=
  let s := { s with hl := { s.hl with ownerDropped := inc32 s.hl.ownerDropped } }
  each gs s (fun s g => refusedEvent s src tag g)

/-- WRITE_SUPERSEDED, counted (R304), and raised once per group: per boundary, or for settings that take effect at once
(`now`) per frame. -/
def superseded (s : State) (loser winner : Owner) (tag g : Nat) (now : Bool := false) : State :=
  let s := { s with hl := { s.hl with superseded := inc32 s.hl.superseded } }
  let told := if now then s.hl.supersededNow else s.hl.supersededAt
  if tget 0 told g = s.fr.fn + 1 then s
  else
    let told := tput 0 told g (s.fr.fn + 1)
    let s := { s with hl := if now then { s.hl with supersededNow := told } else { s.hl with supersededAt := told } }
    emit s 0x0A03 g (pay [(0, 1, ownerCode loser), (1, 1, ownerCode winner), (4, 4, tag),
                          (8, 4, s.hl.superseded)])

/-- Codes of owners in the table of last writers. -/
def ownerOfCode (c : Nat) : Owner := if c = 1 then .host else if c = 2 then .tw else .peer

/-- The place of an owner among exactly simultaneous writes (R36): a peer in the STANDBY role, the two-wire bus, the
host, a peer in the PRIMARY role. [log: DESIGN CHOICE 91] -/
def tieRank (s : State) : Owner → Nat
  | .peer => if s.pl.role = 1 then 0 else 3
  | .tw => 1
  | .host => 2

/-- A write that takes effect at once, and whether it does: of two by different owners in one frame the earlier one is
superseded (R304), and at the very same instant the one that R36 orders first. [log: DESIGN CHOICE 91] -/
def noteWrite (s : State) (src : Owner) (off g : Nat) : State × Bool :=
  let last := tget (0, 0, Owner.host) s.hl.writer off
  let met : Bool := last.1 == s.fr.fn + 1 && last.2.2 != src
  if met && last.2.1 == s.now.toNat && tieRank s src < tieRank s last.2.2 then
    (superseded s src last.2.2 off g true, false)
  else
    let s := { s with hl := { s.hl with writer := tput (0, 0, Owner.host) s.hl.writer off (s.fr.fn + 1, s.now.toNat, src) } }
    (if met then superseded s last.2.2 src off g true else s, true)

/-! ### Staging (R31, R32) -/

/-- The boundary that an item staged now is bound to. -/
def bindTo (s : State) : Nat := if s.fr.drained then s.fr.fn + 1 else s.fr.fn

/-- The time of the command in hand, in 2^-16 frame (R8). -/
def frTime (s : State) : Nat := s.fr.fn * 65536 + s.now.toNat

/-- Stage an item bound to a given boundary. -/
def stageAt (s : State) (o : Owner) (b : Nat) (i : Item) : State :=
  { s with fr := { s.fr with staged := s.fr.staged ++ [{ owner := o, bound := b, item := i, at_ := frTime s }] } }

/-- Stage an item. -/
def stage (s : State) (o : Owner) (i : Item) : State := stageAt s o (bindTo s) i

/-- Insert an item ahead of the items staged after it, and of those staged at the same instant by owners of no lower
rank (R36). -/
def tieInsert (rank : Owner → Nat) (x : Staged) : List Staged → List Staged
  | [] => [x]
  | y :: l => if x.at_ = y.at_ ∧ rank y.owner < rank x.owner then y :: tieInsert rank x l else x :: y :: l

/-- Items in arbiter order: as they were staged, and by R36 where that is the same instant. -/
def arbiterOrder (rank : Owner → Nat) (l : List Staged) : List Staged := l.foldr (tieInsert rank) []

/-- The boundary window is open: the drain beat the pre-strobe mark, and the strobe has not come (R20, step 5). -/
def inWindow (s : State) : Bool := s.fr.running && s.fr.drained && !s.fr.marked

/-- What takes effect in a boundary window only (R31): elsewhere nothing happens. [log: DEDUCED 92] -/
def atBoundary (s : State) (f : State → State) : State := if inWindow s then f s else s

/-- PFN of a frame of this module. -/
def pfnOf (s : State) (n : Nat) : Nat := ((n : Int) + s.pl.ofs).toNat

/-- PFN: the PRIMARY's FN (R441). -/
def pfnNow (s : State) : Nat := pfnOf s s.fr.fn

/-- Items of setting group `g` are mirrored to the peer (R446): the pair state, the link, and the PEER bits of both
modules. [log: DEDUCED 82] -/
def mirrors (s : State) (g : Nat) : Bool :=
  (s.pl.st == .sync || s.pl.st == .paired || s.pl.st == .peerLost) && s.sv.auth == .authenticated
    && owns s .peer g && bitN s.pl.peerBits g

/-- Hold an item staged and unbound until the peer answers (R446), or until its match comes (R447). -/
def holdMirror (s : State) (o : Owner) (i : Item) (meet : Option (Nat × Nat × Nat × Nat)) : State :=
  { s with pl := { s.pl with
    mine := s.pl.mine ++ [{ seq := s.pl.seqOut, owner := o, item := i, meet := meet, fn := s.fr.fn }],
    seqOut := (s.pl.seqOut + 1) % 2 ^ 32 } }

/-- Stage an item of group `g`: bound at once (R32), or mirrored (R446). An item from the peer is not sent back. -/
def stageG (s : State) (o : Owner) (g : Nat) (i : Item) : State :=
  if o != .peer && mirrors s g then holdMirror s o i none else stage s o i

/-- Some staged item satisfies `p`. -/
def anyStaged (s : State) (p : Item → Bool) : Bool :=
  s.fr.staged.any (fun i => p i.item) || s.pl.mine.any (fun i => p i.item)

/-- A staged PD_DOMAIN or entry of a module state. -/
def isDomainItem : Item → Bool
  | .domain .. | .enterState => true
  | _ => false

/-- Drop the staged items that satisfy `p`. -/
def unstage (s : State) (p : Item → Bool) : State :=
  { s with fr := { s.fr with staged := s.fr.staged.filter (fun i => !p i.item) },
           pl := { s.pl with mine := s.pl.mine.filter (fun i => !p i.item) } }

/-! ### Completions (R293, R294, R346) -/

/-- Write one completion: to the host's ring, or for the two-wire bus. -/
def writeCompletion (s : State) (c : CmpSlot) (status result : Nat) : State :=
  let e : Completion := { id := c.id, status := status, opcode := c.opcode, result := result % 2 ^ 48, idx := c.idx }
  match c.src with
  | .host =>
    let r := s.hl.cmp
    if r.en then
      let s := writeEntry (push s (.completion e r.prod r.phase)) (ringAddr s 1 16 r.prod) (completionBytes e r.phase) 2
      let s := { s with hl := { s.hl with cmp := ringPut r } }
      if c.noIrq then s else signal s 0
    else s
  | .tw =>
    followAttention { s with tw := { s.tw with
      result := some { e with idx := 0 }, resultPhase := true, resultReady := true, cmdPend := false, armed := true } }
  | .peer => s

/-- The completion of a slot can be written: a host's one waits while the link does not allow it (R308). -/
def canWrite (s : State) (c : CmpSlot) : Bool := c.src != .host || !s.hl.cmp.en || ringsOpen s

/-- Write the completions at the head of the fetch order that are known (R294). -/
def flushOrder : List CmpSlot → State → List CmpSlot × State
  | [], s => ([], s)
  | c :: r, s =>
    match c.done with
    | some d => if canWrite s c then flushOrder r (writeCompletion s c d.1 d.2) else (c :: r, s)
    | none => (c :: r, s)

/-- Microseconds between two times of the model's clock. -/
def usSince (a b : Nat) : Nat := (b - a) * 1000 / tMs

/-- Length of the busy interval in µs (R310). -/
def busyUs (s : State) (b : Busy) : Nat :=
  match b.over_ with
  | some o => o.1 + usSince o.2 (nowTicks s)
  | none => usSince b.since (nowTicks s)

/-- The busy interval ends as the completion is written, or would be (R287, R300): BUSY_DROP when anything was dropped. -/
def busyOver (s : State) : State :=
  match s.hl.busy with
  | none => s
  | some b =>
    if s.hl.long.isSome || s.hl.rerun.isSome || s.hl.nextSlot ≤ b.slot || s.hl.order.any (·.slot == b.slot) then s
    else
      let s := { s with hl := { s.hl with busy := none } }
      if b.doorbells = 0 ∧ b.writes = 0 then s
      else emit s 0x0A05 noUnit (pay [(0, 2, b.op), (4, 4, b.doorbells), (8, 4, b.writes), (12, 4, busyUs s b)])

/-- Write what can be written. -/
def flushCompletions (s : State) : State :=
  let p := flushOrder s.hl.order s
  busyOver { p.2 with hl := { p.2.hl with order := p.1 } }

/-- Complete the command of a slot. -/
def finish (s : State) (slot status result : Nat) : State :=
  let o := s.hl.order.map (fun c => if c.slot = slot then { c with done := some (status, result) } else c)
  flushCompletions { s with hl := { s.hl with order := o } }

/-- OPCODE and the command of an entry of 64 bytes (R291, R346). -/
def entryCmd (src : Owner) (idx : Nat) (b : Bytes) : Fetched :=
  { op := leAt b 0 2,
    cmd := { src := src, flags := BitVec.ofNat 8 (leAt b 2 1), phaseLow := BitVec.ofNat 7 (leAt b 3 1),
             id := BitVec.ofNat 32 (leAt b 4 4), idx := BitVec.ofNat 12 idx,
             pw := (List.range 7).map (fun i => BitVec.ofNat 64 (leAt b (8 + 8 * i) 8)) } }

/-- The command processor can take a command (R486): none is in hand, no long operation runs (one that a CONTROL reset
interrupted is to be fetched again, R423), and bring-up has verified the
firmware (R428, step 3). -/
def processorFree (s : State) : Bool :=
  s.hl.fetched.isNone && (s.hl.busy.isNone || s.hl.rerun.isSome) && s.hl.afterDone.isNone && s.ct.ctlReset.isNone
    && s.ct.phase != .options && s.ct.phase != .ctrl && s.ct.phase != .larder

/-- An announced entry of the command ring can be fetched: the completion ring is enabled and has a free slot for it, the
ring is not halted, bus mastering is on, and the module is neither in STANDBY nor in SLEEP (R292, R294, R308, R401). -/
def ringReady (s : State) : Bool :=
  let c := s.hl.cmd
  let waiting := (s.hl.order.filter (·.src == .host)).length
  c.en && !s.hl.halted && c.cons != c.prod && s.hl.cmp.en
    && outstanding s.hl.cmp + waiting + 1 < 2 ^ s.hl.cmp.size
    && ringsOpen s && s.pd.st != .standby && s.pd.st != .sleep

/-- The command processor takes this command (R486): it is the entry fetched from the ring, or the one that the bus brought
while nothing else is in hand and nothing announced before it can be fetched; not before bring-up has verified the
firmware (R405, R428). -/
def inHand (s : State) (op : Nat) (c : Cmd) : Bool :=
  match c.src with
  | .host => s.hl.fetched == some { op := op, cmd := c }
  | .tw => processorFree s && (s.tw.cmdAfter == 0 || !ringReady s)
      && s.tw.cmd.map (entryCmd .tw 0) == some { op := op, cmd := c }
  | .peer => false

/-- The two-wire bus brings a command (R346): it comes behind the ring's entries announced by now (R486). -/
def acceptCmd (s : State) (b : Bytes) : State :=
  let c := s.hl.cmd
  { s with tw := { s.tw with cmdPend := true, cmd := some b,
                             cmdAfter := if c.en && !s.hl.halted then (c.prod + 2 ^ c.size - c.cons) % 2 ^ c.size else 0 } }

/-- Take a command from the command processor's input: its slot in the fetch order. A command that was in hand at a HOST
reset has no completion to write (R287). -/
def openSlot (s : State) (op : Nat) (c : Cmd) : State × Nat :=
  let n := s.hl.nextSlot
  let sl : CmpSlot := { slot := n, src := c.src, noIrq := noIrqOf c, id := c.id, idx := c.idx, opcode := op,
                        done := none }
  let h := { s.hl with nextSlot := n + 1, order := if s.hl.orphan && c.src = .host then s.hl.order else s.hl.order ++ [sl],
                       orphan := s.hl.orphan && c.src != .host,
                       fetched := if c.src = .host then none else s.hl.fetched }
  let s := { s with hl := h }
  ((if c.src = .tw then { s with tw := { s.tw with cmdPend := true, cmd := none } } else s), n)

/-- Commands that the ROM recovery code completes normally (R431). -/
def recoveryOps : List Nat := [0x0001, 0x0003, 0x0080, 0x0081, 0x0082, 0x0086]

/-- The checks every command shares, in the order of R486: BAD_OPCODE in recovery, NOT_OWNER, BAD_PARAM for the
fields of R291 and for the parameters the row names, then the command's own work on its slot. A command that the processor does not have in hand does nothing.
[log: DESIGN CHOICE 99] -/
def runCmd (s : State) (t : Frac) (op : Nat) (c : Cmd) (gs : List Nat) (use : PwUse) (paramOk : Bool)
    (k : State → Nat → State) : Res :=
  let s := atT s t
  let p := openSlot s op c
  let lack := gs.filter (fun g => !owns p.1 c.src g)
  .next (
    if !inHand s op c then s
    else if p.1.ct.phase == .recovery && !recoveryOps.contains op then finish p.1 p.2 stBadOpcode noIndex
    else if !lack.isEmpty then finish (ownerRefuse p.1 c.src (0x80000000 + op) lack) p.2 stNotOwner noIndex
    else if !(fieldsOk c use && paramOk) then finish p.1 p.2 stBadParam noIndex
    else k p.1 p.2)

/-- What a command begins once its completion is written: now, or when the completions ahead of it are (R294). -/
def thenDo (f : State → AfterDone → State) (s : State) (slot : Nat) (a : AfterDone) : State :=
  if s.hl.order.any (·.slot == slot) then { s with hl := { s.hl with afterDone := some (a, slot) } } else f s a

/-- What waited for a completion that has been written meanwhile begins. -/
def resume (f : State → AfterDone → State) (s : State) : State :=
  match s.hl.afterDone with
  | none => s
  | some a =>
    if s.hl.order.any (·.slot == a.2) then s else f { s with hl := { s.hl with afterDone := none } } a.1

/-- The busy interval of a long operation (R300), which began with its fetch. -/
def startLong (s : State) (op slot : Nat) (l : LongOp) : State :=
  let b : Busy := { op := op, slot := slot, doorbells := 0, writes := 0, since := nowTicks s, over_ := none }
  { s with hl := { s.hl with busy := some (s.hl.busy.getD b), long := some l } }

/-- The operation ends, `us` after its fetch; the busy interval ends with its completion (R300). -/
def endLong (s : State) (us : Word) (status result : Nat) : State :=
  match s.hl.busy, s.hl.long with
  | some b, some _ =>
    let b := { b with over_ := some (us.toNat, nowTicks s) }
    finish { s with hl := { s.hl with busy := some b, long := none } } b.slot status result
  | _, _ => s

/-- HL_STATUS.BUSY. -/
def busy (s : State) : Bool := s.hl.busy.isSome

/-- A write discarded during a long operation (R300); two-wire writes in the entry of a module state too (R400). -/
def dropWrite (s : State) : State :=
  { s with hl := { s.hl with regDropped := inc32 s.hl.regDropped,
                             busy := s.hl.busy.map (fun b => { b with writes := inc32 b.writes }) } }

/-- A module state is being entered: writes are discarded as under R300 (R400, step 1). -/
def entering (s : State) : Bool := s.pd.entry.isSome

/-- The read of a command's data: DMA for the host, the two-wire buffer for the bus (R347). [log: DESIGN CHOICE 13] -/
def bufRead (l : List Host.Cell) (o n : Nat) : Bytes := (List.range n).map (fun i => tget 0 l (o + i))

/-- Write bytes in the two-wire buffer. -/
def bufWrite (l : List Host.Cell) (o : Nat) (b : Bytes) : List Host.Cell :=
  (b.zip (List.range b.length)).foldl (fun l e => tput 0 l (o + e.2) e.1) l

/-- Data of a command: word `i` of it is the address, `n` the length; `none` for a failed read, and for
fewer bytes than asked. -/
def cmdData (s : State) (c : Cmd) (d : Dma) (i n : Nat) : Option Bytes :=
  match c.src with
  | .tw => some (bufRead s.tw.buf (fldN (pwN c i) 15 0) n)
  | _ => match d with
    | some b => if n ≤ b.length then some (b.take n) else none
    | none => none

/-- Bytes a command writes: DMA, or the two-wire buffer. -/
def cmdWrite (s : State) (c : Cmd) (i : Nat) (b : Bytes) : State :=
  match c.src with
  | .tw => { s with tw := { s.tw with buf := bufWrite s.tw.buf (fldN (pwN c i) 15 0) b } }
  | _ => dmaWrite s (pwN c i) b

/-- The canonical form of the two-wire buffer: rising offsets below 65,536, and no byte 0. -/
def bufWf (l : List Host.Cell) : Bool := twf 0 l && l.all (fun e => e.1 < 65536)

end Sys2Proof.Machine
end

