-- ==== Sys2Proof/Machine/HostLink.lean ====
section
/-! DEFINITION. The host link: doorbells, ring registers, the fetch of commands, interrupts, and the commands
that belong to it alone (R286–R310). -/

namespace Sys2Proof.Machine

open Sys2Proof

/-- NOP: RESULT is FN at fetch (R298). -/
def execNop (t : Frac) (c : Cmd) (s : State) : Res :=
  runCmd s t 0x0001 c [0x38] [] true (fun s n => finish s n stOk s.fr.fn)

/-- SETUP_LOCK (R305). -/
def execSetupLock (t : Frac) (c : Cmd) (s : State) : Res :=
  runCmd s t 0x0002 c [0x38] [] true (fun s n =>
    let first := !s.hl.locked
    let s := finish { s with hl := { s.hl with locked := true } } n stOk 0
    if first then emit s 0x0A06 noUnit 0 else s)

/-- The opcodes that R297 lists. -/
def listedOps : List Nat :=
  List.range' 1 3 ++ [0x10, 0x11, 0x20, 0x21, 0x22, 0x30, 0x31, 0x40, 0x41, 0x50] ++ List.range' 0x60 4
    ++ [0x70, 0x71] ++ List.range' 0x80 7 ++ [0x90, 0xA0, 0xA1]

/-- An opcode that R297 does not list completes with BAD_OPCODE. -/
def execUnknownCommand (t : Frac) (op : BitVec 16) (c : Cmd) (s : State) : Res :=
  let s := atT s t
  let p := openSlot s op.toNat c
  .next (
    if listedOps.contains op.toNat || !inHand s op.toNat c then s else finish p.1 p.2 stBadOpcode noIndex)

/-- A doorbell write counted in HL_DB_BAD. -/
def dbBad (s : State) : State := { s with hl := { s.hl with dbBad := inc32 s.hl.dbBad } }

/-- Command doorbell (R289, R300). -/
def commandDoorbell (s : State) (full : Bool) (v : Word) : State :=
  if !full then s
  else if busy s then
    { s with hl := { s.hl with dbDropped := inc32 s.hl.dbDropped,
                               busy := s.hl.busy.map (fun b => { b with doorbells := inc32 b.doorbells }) } }
  else if !s.hl.cmd.en || 2 ^ s.hl.cmd.size ≤ v.toNat then dbBad s
  else { s with hl := { s.hl with cmd := { s.hl.cmd with prod := v.toNat } } }

/-- The host's consumer index lies within the span of entries written and not yet seen consumed (R289). -/
def inSpan (r : Ring) (v : Nat) : Bool :=
  r.en && v < 2 ^ r.size && (v + 2 ^ r.size - r.cons) % 2 ^ r.size ≤ outstanding r

/-- Completion doorbell (R289). -/
def completionDoorbell (s : State) (full : Bool) (v : Word) : State :=
  if !full then s
  else if inSpan s.hl.cmp v.toNat then
    { s with hl := { s.hl with cmp := { s.hl.cmp with cons := v.toNat } } }
  else dbBad s

/-- Completion doorbell as a command. -/
def execCompletionDoorbell (t : Frac) (full : Bool) (v : Word) (s : State) : Res :=
  .next (completionDoorbell (atT s t) full v)

/-- Event doorbell (R289): records that waited for room are written (R295). -/
def eventDoorbell (s : State) (full : Bool) (v : Word) : State :=
  if !full then s
  else if inSpan s.hl.evt v.toNat then
    let s := { s with hl := { s.hl with evt := { s.hl.evt with cons := v.toNat } } }
    if s.hl.waiting.isEmpty then s else writeWaiting s
  else dbBad s

/-- Event doorbell as a command. -/
def execEventDoorbell (t : Frac) (full : Bool) (v : Word) (s : State) : Res :=
  .next (eventDoorbell (atT s t) full v)

/-- A host-link write that a long operation or the entry of a module state discards (R300, R400). -/
def held (s : State) : Bool := busy s || entering s

/-- A fetched ring command has no completion written yet (R290). -/
def uncompleted (s : State) : Bool := s.hl.fetched.isSome || s.hl.order.any (·.src == .host)

def setCfgErr (s : State) : State := { s with hl := { s.hl with cfgErr := true } }

/-- The register takes the value of a write, merged with what it holds. -/
def valueTakes (s : State) (n : RegName) (i : Nat) (v : Word) : Bool :=
  regAccept n i (reg s n i) (mergeReg n i (reg s n i) v)

def setLastWr (s : State) (v : Nat) : State := { s with tw := { s.tw with lastWr := v } }

/-- A byte NACKed; byte 0 is the address, byte 1 the code. -/
def nack (s : State) (n : Nat) : State := push s (.twNack n)

/-- A write code NACKed during a long operation or the entry of a module state (R348, R400). -/
def nackBusy (s : State) : State :=
  nack (setLastWr { s with
    tw := { s.tw with busyNacks := inc16 s.tw.busyNacks },
    hl := { s.hl with busy := s.hl.busy.map (fun b => { b with writes := inc32 b.writes }) } } 4) 1

/-- A write that the busy rule discards: counted, or NACKed at the command code on the two-wire bus (R300). -/
def discard (s : State) (src : Owner) : State := if src = .tw then nackBusy s else dropWrite s

/-- A write that takes effect at once, in the order of R304; `ok` is false of a value that leaves the whole register
unchanged, which takes no part in that order (R36), and of a write that its boundary orders. -/
def inOrder (s : State) (src : Owner) (off g : Nat) (ok : Bool) (f : State → State) : State :=
  let q := noteWrite s src off g
  if !ok then f s else if q.2 then f q.1 else q.1

/-- The shared prefix of a write that takes effect at once: the busy rule (R300), the owner, the order of R304. -/
def directWrite (s : State) (src : Owner) (off g : Nat) (f : State → State) (ok : Bool := true) : State :=
  if held s then discard s src
  else if !owns s src g then ownerRefuse s src off [g]
  else inOrder s src off g ok f

/-- What setting EN of the event ring writes: the held records, then EVENTS_LOST, then what waited (R290). -/
def openEvents (s : State) : State :=
  let h := s.hl.held
  writeWaiting { s with hl := { s.hl with held := [], waiting := h ++ s.hl.waiting, lostAt := h.length } }

/-- The ring a write of its CFG register leaves (R290): indices 0 and phase 1 when EN rises. -/
def cfgRing (r : Ring) (v : Word) : Ring :=
  let en := bit v 31
  if r.en then { r with en := en }
  else if en then { en := true, size := fld v 3 0, prod := 0, cons := 0, phase := true }
  else { r with size := fld v 3 0 }

/-- HL_CMD_CFG, HL_CMP_CFG or HL_EVT_CFG is written (R290). -/
def ringCfg (s : State) (r : Nat) (v : Word) : State :=
  let ring := if r = 0 then s.hl.cmd else if r = 1 then s.hl.cmp else s.hl.evt
  let sizeOk := 4 ≤ fld v 3 0 && fld v 3 0 ≤ 12
  if !ring.en && !sizeOk then s
  else if r = 1 && ring.en && !bit v 31 && uncompleted s then setCfgErr s
  else
    let s := if ring.en && fld v 3 0 != ring.size then setCfgErr s else s
    let rises := !ring.en && bit v 31
    let n := cfgRing ring v
    if r = 0 then
      { s with hl := { s.hl with cmd := n, halted := if rises then false else s.hl.halted },
               tw := { s.tw with cmdAfter := if rises then 0 else s.tw.cmdAfter } }
    else if r = 1 then { s with hl := { s.hl with cmp := n } }
    else
      let s := { s with hl := { s.hl with evt := n } }
      if rises then openEvents s else s

/-- A write of the HL block, which is written through the host link only (R302): from the bus it is refused with LAST_WR 3,
or NACKed during a long operation (R345, R348). -/
def hlOnly (s : State) (src : Owner) (f : State → State) : State :=
  match src with
  | .host => if held s then dropWrite s else f s
  | .tw => if held s then nackBusy s else setLastWr s 3
  | .peer => s

/-- A write of a ring's CFG register. -/
def execRingCfgWrite (t : Frac) (src : Owner) (r : Fin 3) (v : Word) (s : State) : Res :=
  .next (hlOnly (atT s t) src (fun s => ringCfg s r.val v))

/-- A base register is written while EN is 0 (R290). -/
def ringBase (s : State) (r : Nat) (hi : Bool) (v : Word) : State :=
  let ring := if r = 0 then s.hl.cmd else if r = 1 then s.hl.cmp else s.hl.evt
  if ring.en then setCfgErr s
  else if hi then setReg s .hlBaseHi r v else setReg s .hlBaseLo r (v &&& 0xFFFFF000)

/-- A write of a ring's base register. -/
def execRingBaseWrite (t : Frac) (src : Owner) (r : Fin 3) (hi : Bool) (v : Word) (s : State) : Res :=
  .next (hlOnly (atT s t) src (fun s => ringBase s r.val hi v))

/-- A command can be fetched: the ring has one that can be, the processor is free, and no command of the two-wire bus came
before it (R292, R294, R486). -/
def canFetch (s : State) : Bool := ringReady s && processorFree s && (s.tw.cmd.isNone || s.tw.cmdAfter != 0)

/-- The ring halts: CMD_HALTED and CMD_RING_ERROR (R292). -/
def haltRing (s : State) (cause : Nat) : State :=
  emit { s with hl := { s.hl with halted := true } } 0x0A04 noUnit (pay [(0, 1, cause), (2, 2, s.hl.cmd.cons)])

/-- EVENTS_LOST, in its place among the records that wait (R295). -/
def execEventsLost (t : Frac) (s : State) : Res := .next (writeWaiting (atT s t))

/-- The end of a vector's holdoff: one message for the entries written in it (R296). -/
def execIrqHoldoffExpiry (t : Frac) (v : Fin 64) (s : State) : Res :=
  let s := atT s t
  .next (
    if !tget false s.hl.holdoff v.val then s
    else
      let wait := tget false s.hl.irqWait v.val
      let s := { s with hl := { s.hl with holdoff := tput false s.hl.holdoff v.val false,
                                          irqWait := tput false s.hl.irqWait v.val false } }
      if wait then sendMsi s v.val else s)

/-- WAKE_N is released (R308, R406). -/
def releaseWake (s : State) (r308 r406 : Bool) : State :=
  let pme := s.hl.pmeWake && !r308
  let own := s.pd.wakeN && !r406
  if (s.hl.pmeWake || s.pd.wakeN) && !pme && !own then
    push { s with hl := { s.hl with pmeWake := false }, pd := { s.pd with wakeN := false } } (.pin "WAKE_N" false)
  else { s with hl := { s.hl with pmeWake := pme }, pd := { s.pd with wakeN := own } }

/-- What waited for the link is written once it allows (R295, R308): events, completions, and messages that Function Mask
held. -/
def linkOpens (s : State) : State :=
  if !ringsOpen s then s
  else
    let s := flushCompletions (if s.hl.evt.en then writeWaiting s else s)
    if s.hl.fn.msixMask then s
    else each ((List.range 64).filter (fun v => tget false s.hl.pba v && !vecMasked s v)) s (fun s v =>
      sendMsi { s with hl := { s.hl with pba := tput false s.hl.pba v false } } v)

/-- The link may train: PERST_N has risen and HOST is up, step 5 of R428 done (R416, R429). -/
def mayTrain (s : State) : Bool := !s.ct.perst && domOn s 0 && s.ct.cur.isNone && s.ct.hostReset.isNone

/-- The link trains, retrains, goes down, or the D-state changes (R308–R310, R406, R429). -/
def linkChanges (s : State) (x : LinkIn) (what : Nat) : State :=
  if x.up && !s.hl.linkUp && !mayTrain s then s
  else
  let s := { s with hl := { s.hl with
    linkUp := x.up, l2 := x.l2, speed := if x.up then x.speed.val else 0, width := if x.up then x.width.val else 0,
    aspm := if x.up then x.aspm.val else 0, dstate := x.dstate.val, fn := x.fn } }
  let s := linkOpens (wakeHost (if x.up then releaseWake s false true else s))
  if what = 0 then s
  else emit s 0x0A07 noUnit (pay [(0, 1, s.hl.speed), (1, 1, s.hl.width), (2, 1, what), (3, 1, s.hl.dstate)])

/-! ### Configuration space (R286) -/

/-- The words of the configuration header: vendor and device, class and revision, the type bits of the two 64-bit
non-prefetchable BARs, subsystem; the addresses of the BARs are what the host's system software places there.
[log: DESIGN CHOICE 99] -/
def cfgHeader (s : State) (i : Nat) : Word :=
  match i with
  | 0 => 0x91601F6E
  | 2 => 0x04010000 ||| (s.sv.level &&& 0xFF).setWidth 32
  | 4 => 4
  | 6 => 4
  | 11 => Config.subsystem
  | _ => 0

/-- What the function's capabilities declare (R286, R308); where they stand in configuration space the spec does not say. -/
structure FnCaps where
  /-- Highest generation of the link, and the widths it trains to. -/
  gen : Nat
  widths : List Nat
  laneReversal : Bool
  /-- Payload sizes in bytes; size, tag bits and count of outstanding read requests. -/
  payloads : List Nat
  readBytes : Nat
  tagBits : Nat
  outstanding : Nat
  /-- MSI-X vectors, and BAR0 offsets of the table and of the PBA. -/
  vectors : Nat
  msixTable : Nat
  msixPba : Nat
  msi : Bool
  intx : Bool
  /-- No_Soft_Reset, and PME from D3hot and D3cold. -/
  noSoftReset : Bool
  pmeHot : Bool
  pmeCold : Bool
  aspmL1 : Bool
  aspmL0s : Bool
  /-- L1.1 and L1.2, for ASPM and for PCI-PM. -/
  l11 : Bool
  l12 : Bool
  /-- The L1 exit latency lies below this, and T_POWER_ON, in µs. -/
  l1ExitUs : Nat
  tPowerOnUs : Nat
  aer : Bool
  ltr : Bool
  flr : Bool
  ats : Bool
  acs : Bool
  sriov : Bool
  /-- Completion-timeout ranges A and B, and the timeout at reset in ms. -/
  timeoutA : Bool
  timeoutB : Bool
  timeoutMs : Nat
  noSnoop : Bool
  deriving DecidableEq, Repr

def fnCaps : FnCaps :=
  { gen := 3, widths := [1, 2, 4], laneReversal := true, payloads := [128, 256], readBytes := 512, tagBits := 8,
    outstanding := 64, vectors := 64, msixTable := 0xC000, msixPba := 0xD000, msi := false, intx := false,
    noSoftReset := true, pmeHot := true, pmeCold := true, aspmL1 := true, aspmL0s := false, l11 := true, l12 := true,
    l1ExitUs := 8, tPowerOnUs := 70, aer := true, ltr := true, flr := true, ats := false, acs := false, sriov := false,
    timeoutA := true, timeoutB := true, timeoutMs := 50, noSnoop := false }

/-- Sizes of BAR0/1 and BAR2/3 in bytes. -/
def barSizes : List Nat := [0x100000, 0x200000]

/-- The longest payload of a write and of a read request in bytes. -/
def maxPayload (s : State) : Nat := Nat.min 256 (128 * 2 ^ s.hl.fn.mps.toNat)
def maxRead (s : State) : Nat := Nat.min 512 (128 * 2 ^ s.hl.fn.mrrs.toNat)

end Sys2Proof.Machine
end

