-- ==== Sys2Proof/Machine/TwoWire.lean ====
section
/-! DEFINITION. The two-wire bus: the protocol of a transaction, the command codes that reach no register, the
alert, Host Notify, the controller role and the bus timeouts (R339–R363, R487), and the VCORE request that it
carries (R476–R478). -/

namespace Sys2Proof.Machine

open Sys2Proof

/-- The module's target address (R339). -/
def twAddr (s : State) : Nat := 0x34 + s.ct.code % 4

/-- The module ACKs its address (R340): CTRL is powered, option loading has completed, and no reset of scope
COLD, WARM or CONTROL is in progress. CTRL is up from step 2 of R428 on. -/
def twReady (s : State) : Bool :=
  domOn s 1 && s.pd.st != .sleep && s.ct.phase != .options && s.ct.phase != .ctrl && s.ct.ctlReset.isNone

/-- CRC-8 with polynomial x^8 + x^2 + x + 1 (R350): one bit, one byte, a string. -/
def crc8Bit (c : Byte) : Byte := if c.msb then (c <<< 1) ^^^ 7 else c <<< 1

def crc8Byte (c b : Byte) : Byte :=
  crc8Bit (crc8Bit (crc8Bit (crc8Bit (crc8Bit (crc8Bit (crc8Bit (crc8Bit (c ^^^ b))))))))

def crc8 (l : Bytes) : Byte := l.foldl crc8Byte 0

/-- Address byte with the R/W bit. -/
def addrByte (s : State) (read : Bool) : Byte := BitVec.ofNat 8 (2 * twAddr s + b2n read)

/-- LAST_WR for a transaction that ends before its last byte (R344). -/
def endedEarly (f : TwEnd) : Nat :=
  match f with
  | .timeout => 6
  | _ => 3

/-- What the end of a write gives LAST_WR by itself (R344): 6 for a timeout, 3 for a repeated START, 0 for the STOP. -/
def endCode (x : TwTx) : Nat := if x.fin = .timeout then 6 else if x.rd.isSome || x.fin = .restart then 3 else 0

/-- SDA is released for every byte of a read part that follows a write code (R487). -/
def releaseRead (s : State) (x : TwTx) : State :=
  match x.rd with
  | some n => push s (.twSend (List.replicate n 0xFF))
  | none => s

/-- The end of a write for which the bytes alone give LAST_WR `why`: discarded with the highest value that applies, or
applied at its STOP (R344, R487). -/
def endWrite (s : State) (x : TwTx) (why : Nat) (run : State → State) : State :=
  let c := Nat.max why (endCode x)
  let s := releaseRead s x
  if c = 0 then run s else setLastWr s c

/-- The address byte is NACKed (R340); CTRL is off in SLEEP and counts nothing. -/
def nackAddr (s : State) : State :=
  nack (if s.pd.st == .sleep then s
        else { s with tw := { s.tw with addrNacks := inc16 s.tw.addrNacks } }) 0

/-- A PEC byte that does not match (R350): TW_PEC_ERROR for the first in any 1 s. -/
def pecError (s : State) (code : Byte) : State :=
  let s := { s with tw := { s.tw with pecErrors := inc16 s.tw.pecErrors } }
  if s.tw.pecAt = 0 ∨ s.tw.pecAt - 1 + tSec ≤ nowTicks s then
    emit { s with tw := { s.tw with pecAt := nowTicks s + 1 } } 0x0B08 noUnit
      (pay [(0, 1, code.toNat), (2, 2, s.tw.pecErrors)])
  else s

/-- The bytes of a write, after its `n` bytes are known to be wanted (R344, R350, R487): the PEC byte, surplus
bytes, and the STOP. `all` is the transaction from the address byte; `run` applies the data. -/
def writeBody (s : State) (code : Byte) (x : TwTx) (head n : Nat) (run : State → Bytes → State) : State :=
  let body := x.wr.drop head
  let data := body.take n
  let extra := body.drop n
  let want := crc8 (addrByte s false :: code :: x.wr.take (head + n))
  if data.length < n then endWrite s x 3 (fun s => run s data)
  else match extra with
    | [] => endWrite s x (if rb s .twCfg 0 0 then 2 else 0) (fun s => run s data)
    | p :: more =>
      let bad := p != want
      let s := if bad then pecError (nack s (2 + head + n)) code else s
      let s := if more.isEmpty then s else nack s (3 + head + n)
      endWrite s x (if !more.isEmpty then 3 else if bad then 2 else 0) (fun s => run s data)

/-- A write code: readiness and the busy rule (R340, R348), then `k`. -/
def writeCode (s : State) (x : TwTx) (k : State → State) : State :=
  if !twReady s then nackAddr s
  else if (busy s && !x.early) || entering s then nackBusy s
  else k s

/-- A write acknowledged in STANDBY, kept until the module is ACTIVE (R401). [log: DEDUCED 17] -/
def keepLate (s : State) (code : Byte) (d : Bytes) : State :=
  setLastWr { s with tw := { s.tw with late := s.tw.late ++ [(code.toNat, d)] } } 0

/-- A block write whose count byte satisfies `ok` (R487). In STANDBY it is kept until the module is ACTIVE (R401). -/
def blockWrite (s : State) (code : Byte) (x : TwTx) (ok : Nat → Bool) (run : State → Bytes → State) : State :=
  match x.wr with
  | [] => endWrite s x 3 id
  | c :: _ =>
    if !ok c.toNat then endWrite (nack s 2) x 3 id
    else writeBody s code x 1 c.toNat (fun s d =>
      if s.pd.st == .standby then keepLate s code d else run s d)

/-- The answer of a read: count and data, PEC, then SDA released (R350), as far as the controller clocks. -/
def twAnswer (s : State) (code : Byte) (x : TwTx) (n : Nat) (resp : Bytes) : State :=
  let pec := crc8 ([addrByte s false, code] ++ x.wr ++ [addrByte s true] ++ resp)
  push s (.twSend ((resp ++ [pec] ++ List.replicate n 0xFF).take n))

/-- A read code without a write part (R487): `k` gives the answer and the state after it. -/
def blockRead (s : State) (code : Byte) (x : TwTx) (k : State → State × Bytes) : State :=
  if !twReady s then nackAddr s
  else if !x.wr.isEmpty then setLastWr (nack s 2) 3
  else match x.rd with
    | none => setLastWr s (endedEarly x.fin)
    | some n => let p := k s; twAnswer p.1 code x n p.2

/-- A process call whose write part has `w` bytes (R487). -/
def procCall (s : State) (code : Byte) (x : TwTx) (w : Nat) (k : State → Bytes → Bytes) : State :=
  if !twReady s then nackAddr s
  else match x.wr with
    | [] =>
      (match x.rd with
        | none => setLastWr s (endedEarly x.fin)
        | some n => twAnswer (setLastWr s 3) code x n [0])
    | c :: d =>
      if c.toNat != w then setLastWr (nack s 2) 3
      else if w < d.length then setLastWr (nack s (3 + w)) 3
      else match x.rd with
        | none => setLastWr s (endedEarly x.fin)
        | some n => if d.length < w then twAnswer (setLastWr s 3) code x n [0] else twAnswer s code x n (k s d)

/-- An answering read cancels a pending notify; in mode 0b11 none is due until attention next begins (R354). -/
def answered (s : State) : State :=
  { s with tw := { s.tw with notify := none, stuck := 0, notifyOk := s.tw.notifyOk && rf s .twCfg 0 5 4 != 3 } }

/-- CMD_PEND: a two-wire command is accepted and its completion not written, one that waits for the end of STANDBY
included (R346, R401). -/
def cmdPending (s : State) : Bool := s.tw.cmdPend || s.tw.late.any (·.1 == 0x10)

/-- The STATUS word (R351). -/
def twStatus (s : State) : Nat :=
  twStatusWord s.tw.queue.length s.tw.lastWr s.tw.flags (alertDriven s) s.tw.resultReady (cmdPending s) (busy s)

/-! ### Command codes -/

/-- CMD_RESULT (R346). -/
def execTwCmdResult (t : Frac) (x : TwTx) (s : State) : Res :=
  .next (blockRead (atT s t) 0x11 x (fun s =>
    let b := match s.tw.result with
      | some c => completionBytes c s.tw.resultPhase
      | none => List.replicate 16 0
    (followAttention (answered { s with tw := { s.tw with resultPhase := false, resultReady := false } }),
     16 :: b)))

/-- BUF_READ (R343). -/
def execTwBufRead (t : Frac) (x : TwTx) (s : State) : Res :=
  .next (procCall (atT s t) 0x13 x 3 (fun s d =>
    let o := leAt d 0 2
    let n := leAt d 2 1
    if 65536 < o + n then [0] else BitVec.ofNat 8 n :: bufRead s.tw.buf o n))

/-- EVENT_READ (R343); TW_EVENTS_LOST once two records are free (R351). -/
def execTwEventRead (t : Frac) (x : TwTx) (s : State) : Res :=
  .next (blockRead (atT s t) 0x20 x (fun s =>
    match s.tw.queue with
    | [] => (answered s, [0])
    | e :: r => (followAttention (twFlush (answered { s with tw := { s.tw with queue := r } })), 32 :: eventBytes e false)))

/-- STATUS, a read word (R351). -/
def execTwStatusRead (t : Frac) (x : TwTx) (s : State) : Res :=
  .next (blockRead (atT s t) 0x21 x (fun s => (answered s, toLE 2 (twStatus s))))

/-- A code the module does not implement is NACKed (R343). -/
def execTwUnknownCode (t : Frac) (code : Byte) (s : State) : Res :=
  let s := atT s t
  .next (if !twReady s then nackAddr s
    else if [0x02, 0x03, 0x10, 0x11, 0x12, 0x13, 0x20, 0x21, 0x3F].contains code.toNat then s
    else nack (setLastWr s 3) 1)

/-! ### Alert -/

/-- A read at the alert-response address while the line is driven (R353). -/
def execAlertResponse (t : Frac) (lost : Bool) (s : State) : Res :=
  let s := atT s t
  .next (
    if !alertDriven s then s
    else
      let s := push s (.twSend [BitVec.ofNat 8 (2 * twAddr s + b2n s.tw.resultReady)])
      if lost then s else { s with tw := { s.tw with armed := false } })

/-- 100 ms after release, while attention is still wanted (R353). -/
def execAlertRearm (t : Frac) (s : State) : Res :=
  let s := atT s t
  .next (if attention s then { s with tw := { s.tw with armed := true } } else s)

/-! ### The controller role -/

/-- Bytes of a Host Notify (R354). -/
def notifyBytes (s : State) : Bytes :=
  [0x10, BitVec.ofNat 8 (2 * twAddr s)] ++ toLE 2 (twStatus s)

/-- Data word of a VCORE level (R476). -/
def vcoreWord (level : Nat) : Nat :=
  match level with
  | 0 => 0x0B85
  | 1 => 0x0C29
  | 2 => 0x0CCD
  | _ => 0x0D71

/-- Bytes of a VCORE request (R477): write word to 0x4C, code 0x21, with PEC. -/
def vcoreBytes (level : Nat) : Bytes :=
  let b := [0x98, 0x21] ++ toLE 2 (vcoreWord level)
  b ++ [crc8 b]

def setFlag (s : State) (b : Nat) : State :=
  { s with tw := { s.tw with flags := if bitN s.tw.flags b then s.tw.flags else s.tw.flags + 2 ^ b } }

/-- TW_NOTIFY_FAILED; no further notify until attention next begins (R354, R356). -/
def notifyFailed (s : State) (cause : Nat) : State :=
  let s := setFlag { s with tw := { s.tw with notify := none, notifyOk := false } } 5
  emit s 0x0B07 noUnit (pay [(0, 1, cause), (2, 2, twStatus s)])

/-- Arbitration is lost (R357, R358). -/
def arbLost (s : State) (byte bitNo : Nat) (what : Nat) (asTarget : Bool) : State :=
  let s := setFlag { s with tw := { s.tw with arbCount := inc16 s.tw.arbCount, arbByte := byte % 256,
                                              arbBit := bitNo } } 4
  emit s 0x0B02 noUnit (pay [(0, 1, byte), (1, 1, bitNo), (2, 1, what), (3, 1, if asTarget then 2 else 1),
                             (4, 2, s.tw.arbCount)])

/-- SDA still low after the ninth clock of attempt `n` of a message: the flag and TW_SDA_STUCK (R356, step 3). -/
def sdaStuck (s : State) (n : Nat) : State := emit (setFlag s 3) 0x0B06 noUnit (pay [(0, 1, n)])

/-- SDA is stuck before a Host Notify, which the third attempt drops with TW_NOTIFY_FAILED (R356). -/
def notifyStuck (s : State) : State :=
  let n := s.tw.stuck + 1
  let s := sdaStuck s n
  if n < 3 then { s with tw := { s.tw with stuck := n } }
  else notifyFailed { s with tw := { s.tw with stuck := 0 } } 2

/-- SDA is stuck before a VCORE request, which the third attempt drops (R356). -/
def vcoreStuck (s : State) : State :=
  let n := s.tw.vstuck + 1
  let s := sdaStuck s n
  if n < 3 then { s with tw := { s.tw with vstuck := n } }
  else { s with tw := { s.tw with vstuck := 0, vmsg := none } }

/-- SCL held low for more than 25 ms: counted, with the flag and TW_STRETCH_RESET (R359). -/
def stretched (s : State) (target : Bool) (code : Byte) : State :=
  let s := setFlag { s with tw := { s.tw with stretchResets := inc16 s.tw.stretchResets } } 0
  emit s 0x0B03 noUnit (pay [(0, 1, if target then 1 else 2), (1, 1, if target then code.toNat else 0xFF)])

/-- One attempt of a Host Notify with `n` attempts NACKed before (R354–R359). In mode 0b10 another is due after
NOTIFY_WAIT more, in mode 0b11 when attention next begins. -/
def sendNotify (s : State) (n : Nat) (r : CtlResult) : State :=
  if r = .stuck then notifyStuck { s with tw := { s.tw with notify := some n } }
  else
    let s := push { s with tw := { s.tw with stuck := 0 } } (.twCtl (notifyBytes s))
    match r with
    | .nacked _ => if 3 ≤ n + 1 then notifyFailed s 1 else { s with tw := { s.tw with notify := some (n + 1) } }
    | .lost b i a => arbLost { s with tw := { s.tw with notify := some n } } b i.val 1 a
    | .abandoned => stretched { s with tw := { s.tw with notify := some n } } false 0
    | .sent | .stuck =>
      { s with tw := { s.tw with notify := none, notifyOk := s.tw.notifyOk && rf s .twCfg 0 5 4 != 3 } }

/-- One attempt of a VCORE request (R355–R359, R477): a NACK at the address of the first message after a COLD reset
silences the module until the next. -/
def sendVcore (s : State) (level : Nat) (r : CtlResult) : State :=
  if s.vc.mute then { s with tw := { s.tw with vmsg := none, vstuck := 0 } }
  else if r = .stuck then vcoreStuck { s with tw := { s.tw with vmsg := some level } }
  else
    let s := push { s with tw := { s.tw with vstuck := 0 } } (.twCtl (vcoreBytes level))
    match r with
    | .nacked b =>
      { s with tw := { s.tw with vmsg := none },
               vc := { s.vc with mute := b == 0 && !s.vc.sent, sent := true } }
    | .lost b i a => arbLost { s with tw := { s.tw with vmsg := some level } } b i.val 2 a
    | .abandoned => stretched { s with tw := { s.tw with vmsg := some level } } false 0
    | .sent | .stuck => { s with tw := { s.tw with vmsg := none }, vc := { s.vc with sent := true } }

/-- A Host Notify is due (R354). -/
def notifyDue (s : State) : Bool :=
  let m := rf s .twCfg 0 5 4
  s.tw.notifyOk && s.tw.notify.isNone && ((m == 3 && attention s) || (m == 2 && alertDriven s))

/-- HOST_NOTIFY: the first attempt (R354). -/
def execHostNotify (t : Frac) (r : CtlResult) (s : State) : Res :=
  let s := atT s t
  .next (if notifyDue s then sendNotify s 0 r else s)

/-- NOTIFY_RETRY: 10 ms after a NACKed attempt (R354). -/
def execNotifyRetry (t : Frac) (r : CtlResult) (s : State) : Res :=
  let s := atT s t
  .next (match s.tw.notify with
    | some n => sendNotify s n r
    | none => s)

/-- CONTROLLER_RETRY: a message lost to arbitration or abandoned is sent again (R355, R357, R359).
[log: DESIGN CHOICE 27] -/
def execControllerRetry (t : Frac) (r : CtlResult) (s : State) : Res :=
  let s := atT s t
  .next (match s.tw.notify, s.tw.vmsg with
    | some n, _ => sendNotify s n r
    | none, some l => sendVcore s l r
    | none, none => s)

/-- A Host Notify that is due is the message in hand when there is none. -/
def takeNotify (s : State) : State :=
  if s.tw.notify.isNone && s.tw.vmsg.isNone && notifyDue s then { s with tw := { s.tw with notify := some 0 } } else s

/-- TW_SDA_STUCK: step 3 of R356 in a first attempt of the message in hand, or of a notify that is due. -/
def execTwSdaStuck (t : Frac) (s : State) : Res :=
  let s := takeNotify (atT s t)
  .next (
    if s.tw.notify.isSome && s.tw.stuck = 0 then notifyStuck s
    else if s.tw.vmsg.isSome && s.tw.vstuck = 0 then vcoreStuck s
    else s)

/-- SDA_STUCK_RETRY: step 4 of R356; freed, the message is sent. -/
def execSdaStuckRetry (t : Frac) (freed : Option CtlResult) (s : State) : Res :=
  let s := atT s t
  .next (
    match s.tw.notify, s.tw.vmsg with
    | some n, v =>
      if s.tw.stuck != 0 then sendNotify s n (freed.getD .stuck)
      else (match v with
        | some l => if s.tw.vstuck != 0 then sendVcore s l (freed.getD .stuck) else s
        | none => s)
    | none, some l => if s.tw.vstuck != 0 then sendVcore s l (freed.getD .stuck) else s
    | none, none => s)

/-! ### Timeouts -/

/-- TW_STRETCH_RESET (R359): as controller the message in hand, or a notify that is due, is kept for its retry. -/
def execTwStretchReset (t : Frac) (target : Bool) (code : Byte) (write : Bool) (s : State) : Res :=
  let s := atT s t
  let s := if target then (if write then setLastWr s 6 else s) else takeNotify s
  .next (stretched s target code)

/-- TW_SCL_LOW (R360): byte 0 by what the module was doing on the bus, target where it did nothing.
[log: DEDUCED 16] -/
def execTwSclLow (t : Frac) (role : BusUse) (inTx : Bool) (s : State) : Res :=
  let s := atT s t
  let s := if inTx then setLastWr s 6 else s
  .next (emit (setFlag s 1) 0x0B04 noUnit (pay [(0, 1, if role = .controller then 2 else 1)]))

/-- TW_SDA_LOW (R360). -/
def execTwSdaLow (t : Frac) (own inTx : Bool) (s : State) : Res :=
  let s := atT s t
  let s := if inTx then setLastWr s 6 else s
  .next (emit (setFlag s 2) 0x0B05 noUnit (pay [(0, 1, if own then 1 else 2)]))

/-! ### VCORE request -/

/-- CT_VID.MAX. -/
def vidMax (s : State) : Nat := rf s .ctVid 0 9 8

/-- A change of level: the code is driven, and the level sent to the regulator (R477). -/
def setVcore (s : State) (level : Nat) (r : CtlResult) : State :=
  sendVcore (push { s with vc := { s.vc with level := level } } (.vid level)) level r

/-- VCORE_LEVEL_RAISE: the end of a second in which a frame had a slack below 0x2000 (R476). -/
def execVcoreLevelRaise (t : Frac) (r : CtlResult) (s : State) : Res :=
  let s := atT s t
  let low := s.vc.lowSlack
  let s := { s with vc := { s.vc with lowSlack := false } }
  .next (if low && s.vc.level < vidMax s then setVcore s (s.vc.level + 1) r else s)

/-- VCORE_LEVEL_LOWER: every frame of the last 60 s had a slack of at least 0x6000 (R476). [log: DEDUCED 103] -/
def execVcoreLevelLower (t : Frac) (r : CtlResult) (s : State) : Res :=
  let s := atT s t
  .next (if s.vc.lastLow + 60 * tSec ≤ nowTicks s && 0 < s.vc.level then
      setVcore { s with vc := { s.vc with lastLow := nowTicks s } } (s.vc.level - 1) r else s)

/-- The value CT_VID takes from a write, and the request it lowers (R476, R478). -/
def writeVid (s : State) (v : Word) (r : CtlResult) : State :=
  let s := setReg s .ctVid 0 (v &&& 0x300)
  if vidMax s < s.vc.level then setVcore s (vidMax s) r else s

/-- CT_VID_WRITE (R478): owner, busy rule, setup lock. -/
def execCtVidWrite (t : Frac) (src : Owner) (v : Word) (r : CtlResult) (s : State) : Res :=
  let s := atT s t
  .next (directWrite s src 0x24 0x38 (fun s => if s.hl.locked then s else writeVid s v r)
    (!s.hl.locked))

end Sys2Proof.Machine
end

