-- ==== Sys2Proof/Machine/Pantry.lean ====
section
/-! DEFINITION. The lines of the Pantry: regions, wear, retirement, corrections, and what a nonvolatile commit writes
(R384–R388). -/

namespace Sys2Proof.Machine

open Sys2Proof

/-! ### Regions (R384) -/

/-- The region of a line: 0 SYS, 1 CAL, 2 ENV, 3 SPARE, 4 FW_A, 5 FW_B, 6 SCENE (R384, R390). -/
def pantryRegion (line : Nat) : Nat :=
  if line < 0x0800 then 0 else if line < 0x1000 then 1 else if line < 0x1800 then 2 else if line < 0x2000 then 3
  else if line < 0x5000 then 4 else if line < 0x8000 then 5 else 6

/-- First line and number of lines of the regions in which bodies are placed. -/
def envLines : Nat × Nat := (0x1000, 0x0800)
def sceneLines : Nat × Nat := (0x8000, 0x8000)

/-- First line of a firmware slot. -/
def fwLine (b : Bool) : Nat := if b then 0x5000 else 0x2000

/-- Lines that `n` bytes occupy. -/
def linesFor (n : Nat) : Nat := (n + 63) / 64

/-- What SYS and CAL hold, by line: the encrypted DCK in two places that take turns, two copies of the anti-rollback
counters, 16 in a line, two copies of the remap table, 16 entries in a line, the journal ring of 1,024 lines, and the
sense calibration record in two places of 64 lines that take turns. [log: DESIGN CHOICE 107] -/
def dckLine (k : Nat) : Nat := k % 2
def ctrLine (copy i : Nat) : Nat := 0x0010 + 0x10 * copy + i / 16
def remapLine (copy i : Nat) : Nat := 0x0100 + 0x80 * copy + i / 16
def journalLine (i : Nat) : Nat := 0x0400 + i % 1024
def calLine (side : Bool) : Nat := 0x0900 + 64 * b2n side

/-! ### Wear and retirement (R385, R387, R388) -/

/-- The line that serves for a line: itself, or the spare it was remapped to. -/
def servingLine (s : State) (line : Nat) : Nat :=
  let q := tget 0 s.sv.remap line
  if q = 0 then line else q

/-- Writes of the line that serves. -/
def lineWear (s : State) (line : Nat) : Nat := tget 0 s.sv.wear (servingLine s line)

/-- Highest line wear of the Pantry, and the mean over its 65,536 lines, rounded down (R387). [log: DEDUCED 30] -/
def wearMax (s : State) : Nat := s.sv.wear.foldl (fun a e => Nat.max a e.2) 0
def wearMean (s : State) : Nat := s.sv.wear.foldl (fun a e => a + e.2) 0 / 65536

/-- One write of the line that serves is counted. -/
def countWrite (s : State) (line : Nat) : State :=
  { s with sv := { s.sv with wear := tput 0 s.sv.wear (servingLine s line) (inc32 (lineWear s line)) } }

def pantryWear (s : State) (what : Nat) : State := emit s 0x0C0F noUnit (pay [(0, 1, what), (4, 4, wearMax s)])

/-- PANTRY_WEAR for each step that the highest wear newly reaches (R388). -/
def noteWear (s : State) : State :=
  each [(1, 50000000), (2, 75000000), (3, 90000000)] s (fun s k =>
    if s.sv.wearStep < k.1 && k.2 ≤ wearMax s then pantryWear { s with sv := { s.sv with wearStep := k.1 } } k.1
    else s)

/-- A worn or uncorrectable line is retired to a spare, to which its data, if it has any left, is copied; the remap is
recorded in both copies of the table (R387). SPARE_OUT with the last spare (R388).
[log: DEDUCED 30; DESIGN CHOICE 107] -/
def retireLine (s : State) (line : Nat) (copied : Bool) : State :=
  if 2048 ≤ s.sv.retired then s
  else
    let i := s.sv.retired
    let spare := 0x1800 + i
    let wear := lineWear s line
    let s := { s with sv := { s.sv with retired := i + 1, remap := tput 0 s.sv.remap line spare } }
    let s := if copied then countWrite s line else s
    let s := countWrite (countWrite s (remapLine 0 i)) (remapLine 1 i)
    let s := emit s 0x0C0E (pantryRegion line) (pay [(0, 2, line), (2, 2, spare), (4, 4, wear)])
    if s.sv.retired = 2048 && !s.sv.spareOut then pantryWear { s with sv := { s.sv with spareOut := true } } 4 else s

/-- One write of a line; at 90,000,000 it is retired (R387). -/
def writeLine (s : State) (line : Nat) : State :=
  let s := countWrite s line
  noteWear (if lineWear s line = 90000000 then retireLine s line true else s)

/-- Corrections in reads: each is counted, and a line with two or three is written again (R385). -/
def pantryReads (s : State) (l : List Correction) : State :=
  each l s (fun s c =>
    let s := { s with sv := { s.sv with eccCorrected := inc16 s.sv.eccCorrected } }
    if 2 ≤ c.bits.val then writeLine s c.line.toNat else s)

/-! ### Placement (R387) -/

/-- Free lines with wear `w` from line `l` on, `k` of them at most, among the next `n`. -/
def freeAt (s : State) (used : List Nat) (w : Nat) : Nat → Nat → Nat → List Nat
  | 0, _, _ => []
  | _, _, 0 => []
  | n + 1, l, k + 1 =>
    if lineWear s l = w && !used.contains l then l :: freeAt s used w n (l + 1) k else freeAt s used w n (l + 1) (k + 1)

/-- A number among rising numbers, once. -/
def insertUp (x : Nat) : List Nat → List Nat
  | [] => [x]
  | y :: r => if x < y then x :: y :: r else if x = y then y :: r else y :: insertUp x r

/-- `k` free lines of a region, by the levels of wear. -/
def placeBy (s : State) (region : Nat × Nat) (used : List Nat) : List Nat → Nat → List Nat
  | [], _ => []
  | w :: r, k =>
    let l := freeAt s used w region.2 region.1 k
    if l.length = k then l else l ++ placeBy s region used r (k - l.length)

/-- The least-worn free lines of a region for a new body of `k` lines, of equal wear the lowest first (R387); fewer when the
region has not as many. [log: DESIGN CHOICE 107] -/
def place (s : State) (region : Nat × Nat) (used : List Nat) (k : Nat) : List Nat :=
  placeBy s region used ((s.sv.wear.map Prod.snd).foldr insertUp [0]) k

/-! ### Commits (R386) -/

/-- The two lines of the journal ring that the next record takes (R387). -/
def recordLines (s : State) : List Nat := [journalLine s.sv.journalAt, journalLine (s.sv.journalAt + 1)]

/-- A commit writes its new data to the lines given and then its journal record, of two lines; the lines that it replaces
are free from then on (R386). [log: DEDUCED 30] -/
def commitLines (s : State) (l : List Nat) : State :=
  let s := each (recordLines s) (each l s writeLine) writeLine
  { s with sv := { s.sv with journalAt := (s.sv.journalAt + 2) % 1024 } }

end Sys2Proof.Machine
end

