-- ==== Sys2Proof/Machine/Trust.lean ====
section
/-! DEFINITION. Larder and Pantry: containers and their checks, anti-rollback counters, firmware slots, keys,
attestation and the authentication of the Strellin link (R364–R390). -/

namespace Sys2Proof.Machine

open Sys2Proof

/-! ### Keys (R364) -/

/-- `n` times 8 fresh bytes. [log: DESIGN CHOICE 8] -/
def drawBytes (s : State) (n : Nat) : Bytes × State :=
  ((List.range n).flatMap (fun i => toLE 8 (Config.free (s.draws + i)).toNat), { s with draws := s.draws + n })

/-- A fresh private scalar. [log: DESIGN CHOICE 8] -/
def drawKey (s : State) : Nat × State :=
  let d := drawBytes s 6
  (scalar (beNat d.1), d.2)

/-- K_STORE, derived from the device root key. -/
def kStore (s : State) : Bytes := hkdf s.sv.drk [] (ascii "AZN-STORE") 32

/-- The private scalar of DIK: 48 bytes of HKDF, reduced into [1, n − 1]. [log: DESIGN CHOICE 34] -/
def dikKey (s : State) : Nat := scalar (beNat (hkdf s.sv.drk [] (ascii "AZN-DIK") 48))

/-- The record of a content key in the SYS region, number `k` since manufacture: ciphertext and tag under K_STORE. -/
def dckRecord (s : State) (k d : Nat) : Bytes :=
  let c := gcmSeal (kStore s) (toBE 12 (Config.storeIv k).toNat) [] (toBE 48 d)
  c.1 ++ c.2

/-- A signature with DIK, by a fresh number. -/
def signDik (s : State) (m : Bytes) : Bytes × State :=
  let k := drawKey s
  (signWith (dikKey s) k.1 (sha384 m), k.2)

/-! ### Containers -/

def ownerSlot (s : State) (i : Nat) : OwnerSlot := tget OwnerSlot.reset s.sv.owner i

/-- The header fields that the rest of the model uses (R369). -/
structure Header where
  kind : Nat
  signer : Nat
  total : Nat
  bodyLen : Nat
  flags : Nat
  ctr : Nat
  level : Nat
  version : Nat
  recipient : Nat
  deriving DecidableEq, Repr

def header (b : Bytes) : Header :=
  { kind := leAt b 6 1, signer := leAt b 7 1, total := leAt b 8 4, bodyLen := leAt b 12 4, flags := leAt b 16 1,
    ctr := leAt b 17 1, level := leAt b 18 2, version := leAt b 20 4, recipient := leAt b 24 8 }

/-- FLAGS.ENCRYPTED and FLAGS.ADVANCE. -/
def encrypted (h : Header) : Bool := bitN h.flags 0
def advances (h : Header) : Bool := bitN h.flags 1

def allZero (b : Bytes) : Bool := b.all (· == 0)

/-- Step 1 of R371, with the signers of R372. -/
def containerFormOk (s : State) (kind : Nat) (b : Bytes) : Bool :=
  let h := header b
  let signerOk := if kind = 3 then h.signer == 0x80 else h.signer < 4
  let levelOk := if kind = 3 then h.level == s.sv.level.toNat else h.level ≤ s.sv.level.toNat
  256 ≤ b.length && leAt b 0 4 == 0x444E5242 && leAt b 4 2 == 1 && allZero ((b.drop 226).take 30)
    && h.flags < 4 && h.total == b.length && h.total == 256 + h.bodyLen + 16 * b2n (encrypted h) + 96
    && h.kind == kind && signerOk && (kind != 3 || !encrypted h) && levelOk
    && h.ctr < 32 && (kind != 3 || h.ctr == 0)
    && (encrypted h || (h.recipient == 0 && allZero ((b.drop 129).take 97)))

/-- The counter named by SIGNER and CTR_IDX (R373). -/
def rollbackCtr (s : State) (h : Header) : Nat :=
  if h.signer = 0x80 then s.sv.fwCtr else tget 0 s.sv.ctr (32 * h.signer + h.ctr)

/-- RECIPIENT of a content key: the first 8 bytes of SHA-384 of its public key (R369). -/
def recipientOf (dck : Nat) : Nat := leAt (sha384 (pubOf dck)) 0 8

/-- SIGNER_PUB of a container. -/
def signerPub (b : Bytes) : Bytes := (b.drop 32).take 97

/-- The signature of a container holds over every byte that precedes it (R370). -/
def signatureOk (b : Bytes) : Bool :=
  let n := b.length - 96
  verifies (signerPub b) (sha384 (b.take n)) (b.drop n)

/-- The body of a container that bears no encryption. -/
def plainBody (b : Bytes) : Bytes := (b.drop 256).take (header b).bodyLen

/-- The body of an encrypted container, where its tag holds (R370). -/
def decryptBody (s : State) (b : Bytes) : Option Bytes :=
  match ecdh s.sv.dck ((b.drop 129).take 97) with
  | none => none
  | some z =>
    let k := hkdf z ((b.drop 24).take 8) (ascii "AZN-BRND" ++ b.take 32) 44
    gcmOpen (k.take 32) (k.drop 32) (b.take 256) (plainBody b) ((b.drop (256 + (header b).bodyLen)).take 16)

/-- The hash that SIGNER_PUB must have: the Neroutur firmware key's, or the owner slot's (R371, step 3). -/
def signerHash (s : State) (h : Header) : Bytes := if h.signer = 0x80 then s.sv.fwKey else (ownerSlot s h.signer).hash

/-- Steps 1 to 6 of R371 on a whole container: the status and the step of the first failure, or the plaintext
body. A failed Larder self-test fails every container (R366), as step 4. -/
def openContainer (s : State) (kind : Nat) (b : Bytes) : Except (Nat × Nat) Bytes :=
  let h := header b
  let o := ownerSlot s h.signer
  if !s.sv.larderOk then .error (stBadSignature, 4)
  else if !containerFormOk s kind b then .error (stBadContainer, 1)
  else if kind != 3 && o.st == .revoked then .error (stKeyRevoked, 2)
  else if (kind != 3 && o.st != .enrolled) || sha384 (signerPub b) != signerHash s h then .error (stBadSignature, 3)
  else if !signatureOk b then .error (stBadSignature, 4)
  else if h.version < rollbackCtr s h then .error (stRollback, 5)
  else if !encrypted h then .ok (plainBody b)
  else if h.recipient != recipientOf s.sv.dck then .error (stDecryptFail, 6)
  else match decryptBody s b with
    | none => .error (stDecryptFail, 6)
    | some p => .ok p

/-- A container that fails a check is counted, recorded and reported (R371). -/
def refuseImage (s : State) (b : Bytes) (status step : Nat) : State :=
  let h := header b
  let s := { s with sv := { s.sv with refused := inc32 s.sv.refused, lastStatus := status, lastKind := h.kind,
                                      lastStep := step } }
  emit s 0x0C01 noUnit (pay [(0, 2, status), (2, 1, h.kind), (3, 1, h.signer), (4, 1, step), (8, 4, h.version),
                             (12, 4, s.sv.refused)])

/-- ADVANCE raises a counter: it lies below VERSION (R373). -/
def raises (s : State) (h : Header) : Bool := advances h && decide (rollbackCtr s h < h.version)

/-- The counter is raised to VERSION as a nonvolatile commit of its line in both copies (R373, R384). -/
def advanceCtr (s : State) (h : Header) : State :=
  let old := rollbackCtr s h
  if raises s h then
    let i := if h.signer = 0x80 then 128 else 32 * h.signer + h.ctr
    let s := commitLines s [ctrLine 0 i, ctrLine 1 i]
    let sv := if h.signer = 0x80 then { s.sv with fwCtr := h.version }
      else { s.sv with ctr := tput 0 s.sv.ctr (32 * h.signer + h.ctr) h.version }
    emit { s with sv := sv } 0x0C02 noUnit
      (pay [(0, 1, h.signer), (1, 1, h.ctr), (4, 4, old), (8, 4, h.version)])
  else s

/-! ### Firmware -/

/-- Slot `b` of the firmware. -/
def fwSlot (s : State) (b : Bool) : FwSlot := if b then s.sv.fwB else s.sv.fwA

def setFwSlot (s : State) (b : Bool) (f : FwSlot) : State :=
  { s with sv := if b then { s.sv with fwB := f } else { s.sv with fwA := f } }

/-- The header fields of a slot's image that its confirmation uses. -/
def fwHeader (f : FwSlot) : Header :=
  { kind := 3, signer := 0x80, total := 0, bodyLen := 0, flags := 2 * b2n f.advance, ctr := 0, level := 0,
    version := f.version, recipient := 0 }

/-- SV_STATUS.NV_BUSY: a nonvolatile commit runs or is about to, in the long operation in progress, or at the confirmation of
a trial ten seconds after it began (R373, R379). -/
def nvBusy (s : State) : Bool :=
  match s.hl.long with
  | some (.sceneStore _ _) | some (.sceneCapture _ _ _ _) | some (.sceneDelete _) | some (.fwStage _)
  | some (.keygen _) | some (.enrol _ _) | some (.revoke _) => true
  | some (.scCal k _ _ _ _) => k == 3
  | some (.envLoad c _ _) => c
  | some (.fxLoad _ c img _) => c && raises s (header img)
  | some _ => false
  | none => s.sv.fwRun == .trial && s.ct.ctlReset.isNone && s.ct.cur.isNone
      && decide (s.sv.trialAt + 10 * tSec ≤ nowTicks s) && raises s (fwHeader (fwSlot s s.sv.slotB))

/-- The bytes of an image written into a slot. -/
def fwImage (img body : Bytes) : FwSlot :=
  { st := .valid, version := (header img).version, advance := advances (header img), body := body }

/-- The slot SV_FW_STAGE writes: the inactive one; A in recovery when neither is VALID (R378, R431). -/
def stageSlot (s : State) : Bool :=
  if s.ct.phase == .recovery && s.sv.fwA.st != .valid && s.sv.fwB.st != .valid then false else !s.sv.slotB

/-- An image is written into that slot (R378). -/
def fwWrite (s : State) (img body : Bytes) : State :=
  let b := stageSlot s
  setFwSlot (commitLines s (List.range' (fwLine b) (linesFor img.length))) b (fwImage img body)

/-- A command that loads an image: the busy interval begins, whatever the read of its data gives (R486). -/
def longLoad (s : State) (op slot : Nat) (c : Cmd) (d : Dma) (f : Bytes → LongOp) : State :=
  match cmdData s c d 0 (fldN (pwN c 1) 23 0) with
  | some b => startLong s op slot (f b)
  | none => startLong s op slot .dmaFail

/-- SV_FW_STAGE (R378). -/
def execSvFwStage (t : Frac) (c : Cmd) (d : Dma) (s : State) : Res :=
  runCmd s t 0x0080 c [0x38] [(0, wordAll), (1, 0xFFFFFF)] (addrOk c 0 (fldN (pwN c 1) 23 0)) (fun s n =>
    if s.sv.fwRun == .trial then finish s n stBadContainer noIndex
    else longLoad s 0x0080 n c d .fwStage)

/-- The end of SV_FW_STAGE: the image is verified and written into the slot (R371, R378). -/
def fwStaged (s : State) (us : Word) (img : Bytes) (fwOk nvOk : Bool) : State :=
  match openContainer s 3 img with
  | .error e => endLong (refuseImage s img e.1 e.2) us e.1 noIndex
  | .ok body =>
    let h := header img
    if !fwOk || 786080 < h.bodyLen then endLong (refuseImage s img stBadContainer 7) us stBadContainer noIndex
    else if !nvOk then endLong s us stNvFail noIndex
    else
      endLong (emit (fwWrite s img body) 0x0C05 (b2n (stageSlot s)) (pay [(0, 4, h.version)])) us stOk 0

/-- FW_CONFIRMED: ten seconds without a watchdog reset; it waits for a long operation (R379). -/
def execFwConfirmed (t : Frac) (s : State) : Res :=
  let s := atT s t
  .next (
    if s.sv.fwRun != .trial || busy s || s.ct.ctlReset.isSome || s.ct.cur.isSome then s
    else
      let f := fwSlot s s.sv.slotB
      let s := advanceCtr { s with sv := { s.sv with fwRun := .confirmed } } (fwHeader f)
      emit s 0x0C07 (b2n s.sv.slotB) (pay [(0, 4, f.version)]))

/-- The active slot is INVALID, and the other is active and CONFIRMED (R379, step 4). -/
def fwDemote (s : State) : State :=
  let s := setFwSlot s s.sv.slotB { fwSlot s s.sv.slotB with st := .invalid }
  { s with sv := { s.sv with slotB := !s.sv.slotB, fwRun := .confirmed } }

/-- FW_FALLBACK, with the version of the slot left (R379, step 4). -/
def fwFallen (s : State) (cause : Nat) : State :=
  emit { s with sv := { s.sv with fell := 0 } } 0x0C08 (b2n s.sv.slotB)
    (pay [(0, 1, cause), (4, 4, (fwSlot s (!s.sv.slotB)).version)])

/-! ### Keys -/

/-- SV_KEYGEN (R377). -/
def execSvKeygen (t : Frac) (c : Cmd) (s : State) : Res :=
  runCmd s t 0x0083 c [0x38] [(0, 0xFF)] (pwN c 0 % 256 == 1) (fun s n =>
    if !s.sv.larderOk then finish s n stNvFail noIndex
    else
      let d := drawKey s
      startLong d.2 0x0083 n (.keygen d.1))

/-- A new content key is stored, encrypted under K_STORE, and the old one destroyed: KEY_GENERATED (R377). -/
def storeKey (s : State) (d : Nat) : State :=
  let k := inc8 s.sv.keygen
  let s := commitLines s [dckLine k]
  let s := { s with sv := { s.sv with dck := d, dckRec := dckRecord s k d, keygen := k } }
  emit s 0x0C0A noUnit (pay [(0, 8, recipientOf d), (8, 1, k)])

/-- The end of SV_KEYGEN. -/
def keygenDone (s : State) (us : Word) (d : Nat) (nvOk : Bool) : State :=
  if nvOk then endLong (storeKey s d) us stOk 0 else endLong s us stNvFail noIndex

/-- SV_OWNER_ENROL (R367). -/
def execSvOwnerEnrol (t : Frac) (c : Cmd) (d : Dma) (s : State) : Res :=
  runCmd s t 0x0084 c [0x38] [(0, 3), (1, wordAll)] (addrOk c 1 48) (fun s n =>
    let i := pwN c 0 % 4
    match (ownerSlot s i).st with
    | .revoked => finish s n stKeyRevoked noIndex
    | .enrolled => finish s n stBadParam i
    | .empty =>
      match cmdData s c d 1 48 with
      | some h => startLong s 0x0084 n (.enrol i h)
      | none => startLong s 0x0084 n .dmaFail)

/-- Slots enrolled so far, which gives the enrolment order. -/
def enrolled (s : State) : Nat :=
  ((List.range 4).filter (fun i => (ownerSlot s i).hash != [] && !(ownerSlot s i).bad)).length

/-- What the hash fuses of a slot hold after a verification that failed is stated nowhere: 48 free bytes. -/
def badHash (s : State) : Bytes × State := drawBytes s 6

def setOwnerSlot (s : State) (i : Nat) (o : OwnerSlot) : State :=
  { s with sv := { s.sv with owner := tput OwnerSlot.reset s.sv.owner i o } }

def enrolDone (s : State) (us : Word) (i : Nat) (h : Bytes) (nvOk : Bool) : State :=
  if !nvOk then
    let d := badHash s
    endLong (setOwnerSlot d.2 i { ownerSlot s i with st := .revoked, hash := d.1, bad := true }) us stNvFail noIndex
  else
    let q := enrolled s
    let s := setOwnerSlot s i { st := .enrolled, seq := q, hash := h, bad := false }
    endLong (emit s 0x0C03 i (pay [(0, 1, q), (4, 8, leAt h 0 8)])) us stOk 0

/-- SV_OWNER_REVOKE (R368). -/
def execSvOwnerRevoke (t : Frac) (c : Cmd) (s : State) : Res :=
  runCmd s t 0x0085 c [0x38] [(0, 3)] true (fun s n => startLong s 0x0085 n (.revoke (pwN c 0 % 4)))

def revokeDone (s : State) (us : Word) (i : Nat) (nvOk : Bool) : State :=
  if !nvOk then endLong s us stNvFail noIndex
  else
    let o := ownerSlot s i
    let s := setOwnerSlot s i { o with st := .revoked }
    endLong (emit s 0x0C04 i (pay [(0, 1, ownerStCode o.st)])) us stOk 0

/-! ### Attestation -/

/-- The 48 bytes of a slot's hash; 0 for EMPTY. -/
def hashBytes (o : OwnerSlot) : Bytes := (o.hash ++ List.replicate 48 0).take 48

/-- The 12 bytes of an engine in the report (R380). -/
def attestEngine (s : State) (e : Nat) : Bytes :=
  match (tget Engine.reset s.fx.eng e).recipe with
  | some r => toLE 4 r.id ++ toLE 4 r.ver ++ toLE 1 r.signer ++ toLE 1 (b2n r.encrypted) ++ toLE 2 0
  | none => toLE 8 0 ++ toLE 1 0xFF ++ toLE 3 0

/-- The 12 bytes of a channel in the report (R380). -/
def attestChannel (s : State) (c : Nat) : Bytes :=
  match (tget SpCh.reset s.sp.ch c).env with
  | some e => toLE 4 e.id ++ toLE 4 e.ver ++ toLE 1 e.slot ++ toLE 1 (b2n e.locked) ++ toLE 2 0
  | none => toLE 8 0 ++ toLE 1 0xFF ++ toLE 3 0

/-- CT_ID (R14). -/
def ctIdWord : Nat := 0x91600000 + Config.stepMajor.toNat * 256 + Config.stepMinor.toNat

/-- Bytes 0 to 767 of the report (R380). -/
def attestBody (s : State) (challenge : Bytes) : Bytes :=
  let f := fwSlot s s.sv.slotB
  let bits := b2n Config.debugOff + 2 * b2n s.sv.slotB + 4 * b2n (s.sv.fwRun == .trial) + 8 * b2n s.hl.locked
    + 16 * s.pl.role
  toLE 4 0x54535441 ++ toLE 2 1 ++ toLE 2 864 ++ toLE 4 ctIdWord ++ toLE 2 s.sv.level.toNat ++ toLE 2 bits
    ++ toLE 6 s.fr.fn ++ toLE 2 0 ++ toLE 8 Config.serial.toNat ++ challenge ++ sha384 f.body
    ++ toLE 4 f.version ++ (List.range 4).flatMap (fun i => toLE 1 (ownerStCode (ownerSlot s i).st))
    ++ (List.range 4).flatMap (fun i => hashBytes (ownerSlot s i))
    ++ (List.range 16).flatMap (attestEngine s) ++ (List.range 12).flatMap (attestChannel s)
    ++ pubOf s.sv.dck ++ toLE 7 0

/-- SV_ATTEST (R380). -/
def execSvAttest (t : Frac) (c : Cmd) (d : Dma) (s : State) : Res :=
  runCmd s t 0x0082 c [0x38] [(0, wordAll), (1, wordAll), (2, 0xFFFF)]
    (addrOk c 0 48 && addrOk c 1 (pwN c 2 % 65536)) (fun s n =>
    if pwN c 2 % 65536 < 864 then finish s n stBadParam 864
    else if !s.sv.larderOk then finish s n stNvFail noIndex
    else match cmdData s c d 0 48 with
      | none => finish s n stDmaError noIndex
      | some ch =>
        let b := attestBody s ch
        let g := signDik s b
        finish (cmdWrite g.2 c 1 (b ++ g.1)) n stOk 864)

/-- The certificate chain as SV_CERT_READ writes it: a count, then each certificate with its length (R364, R381). -/
def certs : Bytes :=
  toLE 2 2 ++ toLE 2 Config.certDevice.length ++ Config.certDevice ++ toLE 2 Config.certInter.length ++ Config.certInter

/-- SV_CERT_READ (R381). -/
def execSvCertRead (t : Frac) (c : Cmd) (reads : List Correction) (s : State) : Res :=
  runCmd s t 0x0086 c [0x38] [(0, wordAll), (1, 0xFFFF)] (addrOk c 0 (pwN c 1 % 65536)) (fun s n =>
    if pwN c 1 % 65536 < certs.length then finish s n stBadParam certs.length
    else if !s.sv.larderOk then finish s n stNvFail noIndex
    else finish (cmdWrite (pantryReads s reads) c 0 certs) n stOk certs.length)

/-! ### Authentication of the Strellin link -/

/-- A change of the pair state (R439). -/
def setPair (s : State) (n : PairState) : State :=
  if s.pl.st = n then s
  else
    let old := s.pl.st
    emit { s with pl := { s.pl with st := n } } 0x0F01 noUnit
      (pay [(0, 1, pairCode old), (1, 1, pairCode n), (2, 6, pfnNow s)])

/-- PAIR_AUTH_FAIL (R382, step 5). -/
def authFail (s : State) (reason : Nat) : State :=
  let s := { s with sv := { s.sv with auth := .failed, peer := none, timedOut := reason == 6, fails := inc8 s.sv.fails } }
  emit s 0x0C0C noUnit (pay [(0, 1, reason), (1, 1, s.sv.fails)])

/-- Hashes of the ENROLLED slots. -/
def enrolledHashes (s : State) : List Bytes :=
  ((List.range 4).map (ownerSlot s)).filterMap (fun o => if o.st = .enrolled then some o.hash else none)

/-- Step 2 of R382: the reason of the first check that fails. -/
def helloCheck (s : State) (h : Hello) (cert : Option PeerCert) : Option Nat :=
  let own := enrolledHashes s
  if cert.isNone then some 1
  else if h.role.toNat = s.pl.role then some 2
  else if h.debugOff != Config.debugOff then some 3
  else if !(own.any (fun x => h.hashes.contains x) || (own.isEmpty && h.hashes.isEmpty)) then some 4
  else none

/-- The bytes of a HELLO, in the order in which R382 names its fields. [log: DESIGN CHOICE 34] -/
def helloBytes (h : Hello) : Bytes :=
  h.chain ++ h.nonce ++ h.eph ++ [BitVec.ofNat 8 h.role.toNat, BitVec.ofNat 8 (b2n h.debugOff)] ++ h.hashes.flatMap id

/-- What both FINISH messages sign: the PRIMARY's HELLO, then the STANDBY's (R382, step 3). -/
def finishBytes (a b : Hello) : Bytes :=
  if a.role = 1 then helloBytes a ++ helloBytes b else helloBytes b ++ helloBytes a

/-- PAIR_HELLO (R382, steps 2 and 3). -/
def execPairHello (t : Frac) (h : Hello) (cert : Option PeerCert) (s : State) : Res :=
  let s := atT s t
  .next (
    if s.sv.auth != .handshaking then s
    else match helloCheck s h cert, s.sv.own, cert with
      | some r, _, _ => authFail s r
      | none, some o, some c =>
        let g := signDik s (finishBytes o.1 h)
        push { g.2 with sv := { g.2.sv with peer := some (h, c) } } (.finish g.1)
      | none, _, _ => s)

/-- The 88 bytes of R383: the key of the PRIMARY's frames, that of the STANDBY's, and the IV base of each. -/
def sessionOf (z : Bytes) (own peer : Hello) : Bytes :=
  hkdf z (if own.role = 1 then own.nonce ++ peer.nonce else peer.nonce ++ own.nonce) (ascii "AZN-STRL") 88

/-- Key and IV base of the frames that a module with a role sends. -/
def linkKey (session : Bytes) (role : Nat) : Bytes := (session.drop (if role = 1 then 0 else 32)).take 32
def linkIv (session : Bytes) (role : Nat) : Bytes := (session.drop (if role = 1 then 64 else 76)).take 12

/-- The nonce of a frame: the IV base XORed with the frame sequence number in its low 8 bytes (R383).
[log: DESIGN CHOICE 34] -/
def linkNonce (iv : Bytes) (seq : Nat) : Bytes := toBE 12 (beNat iv ^^^ (seq % 2 ^ 64))

/-- PAIR_FINISH (R382, step 4); one that comes after the timeout is late. An ephemeral key that is no point of the curve
fails it like the signature. [log: DESIGN CHOICE 34] -/
def execPairFinish (t : Frac) (sig : Bytes) (s : State) : Res :=
  let s := atT s t
  .next (
    if s.sv.auth == .failed && s.sv.timedOut then { s with sv := { s.sv with late := inc8 s.sv.late } }
    else if s.sv.auth != .handshaking then s
    else match s.sv.own, s.sv.peer with
      | some o, some p =>
        if !verifies p.2.dik (sha384 (finishBytes o.1 p.1)) sig then authFail s 5
        else (match ecdh o.2 p.1.eph with
          | none => authFail s 5
          | some z =>
            let s := { s with sv := { s.sv with auth := .authenticated, txSeq := 0, rxSeq := 0,
                                                session := sessionOf z o.1 p.1 } }
            let s := emit s 0x0C0B noUnit (pay [(0, 1, p.1.role.toNat), (4, 8, p.2.serial.toNat)])
            if s.pl.st == .auth then setPair s .ready else s)
      | _, _ => s)

/-- PAIR_AUTH_TIMEOUT: 100 ms without step 4 (R382). -/
def execPairAuthTimeout (t : Frac) (s : State) : Res :=
  let s := atT s t
  .next (if s.sv.auth == .handshaking then authFail s 6 else s)

/-- Step 1 of R382: HELLO is sent, with a fresh nonce and a fresh ephemeral key. [log: DESIGN CHOICE 8] -/
def startAuth (s : State) : State :=
  let a := drawBytes s 6
  let b := drawKey a.2
  let h : Hello := { chain := certs, nonce := a.1, eph := pubOf b.1, role := BitVec.ofNat 2 s.pl.role,
                     debugOff := Config.debugOff, hashes := enrolledHashes s }
  push { b.2 with sv := { b.2.sv with auth := .handshaking, own := some (h, b.1), peer := none, timedOut := false } } (.hello h)

/-- The lanes of the link change: at link-up the Larders authenticate (R382, R436, R439). -/
def setLanes (s : State) (l : Nat) : State :=
  let was := s.pl.lanes
  if l = was then s
  else
    let s := emit { s with pl := { s.pl with lanes := l } } 0x0F08 noUnit (pay [(0, 1, l), (2, 2, s.pl.delay)])
    if was = 0 then
      let s := startAuth { s with pl := { s.pl with seqIn := 0, acked := 0, answers := [] } }
      if s.pl.st == .linkDown then setPair s .auth else s
    else if l = 0 then
      let s := { s with pl := { s.pl with linkDowns := inc16 s.pl.linkDowns },
                        sv := { s.sv with auth := .idle, peer := none, timedOut := false } }
      if s.pl.st == .auth || s.pl.st == .ready then setPair s .linkDown else s
    else s

/-- STRELLIN_CHANGED (R436). -/
def execStrellinChanged (t : Frac) (lanes : BitVec 2) (s : State) : Res := .next (setLanes (atT s t) lanes.toNat)

/-- PAIR_AUTH_RETRY: 1 s after a failure (R382, step 5). -/
def execPairAuthRetry (t : Frac) (s : State) : Res :=
  let s := atT s t
  .next (if s.sv.auth == .failed && s.pl.lanes != 0 then startAuth s else s)

/-- A frame sequence number has come to where the modules authenticate again, before it would reach 2^32 (R383). -/
def reauthDue (s : State) : Bool := decide (Config.reauthSeq % 2 ^ 32 ≤ Nat.max s.sv.txSeq s.sv.rxSeq)

/-- LINK_REAUTHENTICATION (R383). -/
def execLinkReauthentication (t : Frac) (s : State) : Res :=
  let s := atT s t
  .next (if s.sv.auth == .authenticated && reauthDue s then startAuth s else s)

end Sys2Proof.Machine
end

