-- ==== Sys2Proof/Machine/Mix.lean ====
section
/-! DEFINITION. Stockpot, the crosspoint mixer: cost and admission, commits, sums, autoscale, silence, lanes,
shedding and generators (R23–R30, R45–R76), and the frame engine's register rows (R38, R41, R43). -/

namespace Sys2Proof.Machine

open Sys2Proof

/-! ### Sources, sinks and the table (R45–R50) -/

/-- Sink `k` is an engine input (R46). -/
def engineSink (k : Nat) : Bool := 0x730 ≤ k && k ≤ 0x7AF

/-- Key of a crosspoint, and the two indices a key names. -/
def xpKey (sink source : Nat) : Nat := sink * 8192 + source
def xpSink (key : Nat) : Nat := key / 8192
def xpSource (key : Nat) : Nat := key % 8192

/-- Capacity of the table (R50). -/
def capacity (s : State) : Nat := 393216 * (b2n s.mx.inA + b2n s.mx.inB)

/-! ### Cost, budget and admission (R26–R29) -/

/-- Neighbours that differ, in a list whose equal elements stand together: how many groups there are. -/
def runs : List Nat → Nat
  | [] => 0
  | [_] => 1
  | a :: b :: r => (if a = b then 0 else 1) + runs (b :: r)

/-- C and F of the crosspoints whose keys are listed, rising (R26, R27). -/
def costOf (keys : List Nat) : Nat × Nat :=
  let f := keys.filter (fun k => engineSink (xpSink k))
  (keys.length + 8 * runs (keys.map xpSink) + 4 * (keys.map xpSource).eraseDups.length,
   f.length + 8 * runs (f.map xpSink))

/-- Gain of an entry once the commits of the slots `qs` are applied (R63). -/
def gainAfter (qs : List Nat) (e : Xp) : Int := if e.pend && qs.contains e.qslot then e.gain else e.cur

/-- An entry with gain 0 and PEND clear is free (R50); a lost one waits for its boundary (R51). -/
def freeXp (e : Xp) : Xp := if e.cur = 0 && !e.pend && !e.lost then Xp.none else e

/-- C and F of a table after the commits of the slots `qs`, leaving out the sinks of `shed`. -/
def cfgCost (xp : Tbl Xp) (shed : Nat → Bool) (qs : List Nat) : Nat × Nat :=
  costOf ((xp.filter (fun e => gainAfter qs e.2 != 0 && !shed (xpSink e.1))).map Prod.fst)

def isShed (s : State) (k : Nat) : Bool := tget false s.mx.shed k

/-- Sinks still shed once commits that restore the sinks listed are applied (R73). -/
def shedAfter (s : State) (restore : List Nat) (k : Nat) : Bool := isShed s k && !restore.contains k

/-- B0 per half by RATE code (R28). -/
def b0 (code : Nat) : Nat := if code < 2 then 393216 else if code < 4 then 196608 else 98304

/-- B_half (R28). -/
def halfBudget (code l : Nat) : Nat := b0 code * l / 30

/-- B for a rate and halves in service (R28). -/
def budgetFor (s : State) (code : Nat) (a b : Bool) : Nat :=
  (if a then halfBudget code s.mx.lA else 0) + (if b then halfBudget code s.mx.lB else 0)

/-- An MX_HALF OUT of half `h` is staged (R457). -/
def outStaged (s : State) (h : Nat) : Bool :=
  anyStaged s (fun i => match i with
    | .halfOut x => halfNum x == h
    | _ => false)

/-- B that a request is tested against: what the remaining half gives while an OUT is staged (R29, R457). -/
def testBudget (s : State) (code : Nat) : Nat :=
  budgetFor s code (s.mx.inA && !outStaged s 0) (s.mx.inB && !outStaged s 1)

/-- REASON of a refusal under R29, 0 for none. -/
def admitReason (c f b : Nat) (fxOk : Bool) : Nat :=
  if c > b && f > b / 4 then 4 else if c > b then 1 else if f > b / 4 then 2 else if fxOk then 0 else 3

/-- The refused cost of a REASON (MX_COST_REFUSED). -/
def refusedCostOf (reason c f : Nat) : Nat := if reason = 2 then f else c

/-- Record a refusal (R29). -/
def noteRefusal (s : State) (reason cost : Nat) : State :=
  { s with mx := { s.mx with refusedReason := reason, refusedCost := cost % 2 ^ 24 } }

/-- RESULT of ADMISSION_REFUSED (R298). -/
def refusedResult (cost : Nat) : Nat := cost % 2 ^ 24 * 2 ^ 24 + noIndex

/-- Slots of the queued commits, and the sinks they restore. -/
def queueSlots (s : State) : List Nat := s.mx.queue.map (·.qslot)
def queueRestores (s : State) : List Nat := s.mx.queue.flatMap (·.restore)

/-- C and F of the applied configuration, and of the one after every queued commit (R63). -/
def costNow (s : State) : Nat × Nat := cfgCost s.mx.xp (isShed s) []
def costQueue (s : State) : Nat × Nat := cfgCost s.mx.xp (shedAfter s (queueRestores s)) (queueSlots s)

/-- Bring B up to date, and MX_COST, MX_COST_FEED and MX_COST_QUEUED. -/
def refreshCost (s : State) : State :=
  let c := costNow s
  { s with mx := { s.mx with budget := budgetFor s s.fr.rate s.mx.inA s.mx.inB, cost := c.1, feed := c.2,
                             costQueued := (costQueue s).1 } }

/-- The configuration after every queued commit, tested for a request other than a commit (R29, R63). -/
def admitRequest (s : State) (b : Nat) (fxOk : Bool) : Nat × Nat :=
  let c := costQueue s
  let r := admitReason c.1 c.2 b fxOk
  (r, refusedCostOf r c.1 c.2)

/-! ### Commits (R59–R66) -/

/-- A record of a commit list (R60). -/
structure Rec where
  op : Nat
  source : Nat
  sink : Nat
  rsv : Nat
  gain : Int
  deriving DecidableEq, Repr

def parseRec (b : Bytes) : Rec :=
  let w := leNat b
  { op := fldN w 63 62, source := fldN w 61 49, sink := fldN w 48 37, rsv := fldN w 36 24,
    gain := sext 24 (fldN w 23 0) }

/-- The 8 bytes of a record (R60). -/
def recBytes (op source sink : Nat) (gain : Int) : Bytes :=
  toLE 8 (op * 2 ^ 62 + source * 2 ^ 49 + sink * 2 ^ 37 + toU 24 gain)

/-- A record passes step 2 of R62: SOURCE counts for SET only. -/
def recOk (r : Rec) : Bool :=
  r.op != 3 && r.rsv == 0 && !reservedSink r.sink && !(r.op == 0 && reservedSource r.source)

/-- What a commit is to be: its header, and the scene it belongs to. -/
structure CommitReq where
  tag : Nat
  count : Nat
  notify : Bool
  atFn : Bool
  target : Nat
  scene : Option SceneRef
  deriving DecidableEq, Repr

/-- An occupied crosspoint, as the checks of a commit see it: a lost entry is unoccupied (R51). -/
def occupied (xp : Tbl Xp) (key : Nat) : Bool :=
  let e := tget Xp.none xp key
  e != Xp.none && !e.lost

/-- Pending gains after a record, by crosspoint, with the first record that touched it (R60, R61). -/
def putRec (xp : Tbl Xp) (p : Tbl (Option (Int × Nat))) (i : Nat) (r : Rec) : Tbl (Option (Int × Nat)) :=
  let touch (p : Tbl (Option (Int × Nat))) (key : Nat) (g : Int) :=
    match tget none p key with
    | some q => tput none p key (some (g, q.2))
    | none => tput none p key (some (g, i))
  match r.op with
  | 0 => touch p (xpKey r.sink r.source) r.gain
  | 1 =>
    let keys := ((tkeys xp).filter (fun k => xpSink k == r.sink && occupied xp k))
      ++ (tkeys p).filter (fun k => xpSink k == r.sink)
    keys.foldl (fun p k => touch p k 0) p
  | _ => p

def putRecs (xp : Tbl Xp) : Nat → List Rec → Tbl (Option (Int × Nat)) → Tbl (Option (Int × Nat))
  | _, [], p => p
  | i, r :: l, p => putRecs xp (i + 1) l (putRec xp p i r)

/-- The lowest free queue slot. -/
def freeSlot (s : State) : Nat := ((List.range 8).find? (fun q => !(queueSlots s).contains q)).getD 0

/-- The bound of a mirrored commit that the peer has not answered (R446): no boundary. -/
def unbound : Nat := 2 ^ 64

/-- Entries corrected as they were read (R51): a frame's sums, a lookup, a commit's checks or a boundary. -/
def tableCorrected (s : State) (n : Nat) : State :=
  { s with mx := { s.mx with eccCorrected := satTo 0xFFFF (s.mx.eccCorrected + n) } }

/-- Steps 2 to 6 of R62 on parsed records: STATUS and RESULT of a refusal with the state it leaves, or the
state and the slot. An item that the pair mirrors waits for the peer's answer before it is bound.
[log: DEDUCED 39, 51] -/
def commitRecs (s : State) (o : Owner) (h : CommitReq) (recs : List Rec) : Except (State × Nat × Nat) (State × Nat) :=
  match (recs.zip (List.range recs.length)).find? (fun r => !recOk r.1) with
  | some r => .error (s, stBadRecord, r.2)
  | none =>
    let xp := s.mx.xp
    let p := putRecs xp 0 recs []
    let clash := (p.filter (fun e => occupied xp e.1 && (tget Xp.none xp e.1).pend)).filterMap
      (fun e => e.2.map Prod.snd)
    let p := p.filterMap (fun e => e.2.bind (fun g =>
      if occupied xp e.1 || g.1 != 0 then some (e.1, g.1) else none))
    let fresh := (p.filter (fun e => !occupied xp e.1)).length
    let q := freeSlot s
    let seen := xp.map (fun e => if e.2.lost then (e.1, { e.2 with cur := 0, pend := false }) else e)
    let put (t : Tbl Xp) := p.foldl (fun t e =>
      tmod Xp.none t e.1 (fun x => { x with pend := true, gain := e.2, qslot := q })) t
    let restore := (recs.filter (·.op == 2)).map (·.sink)
    let c := cfgCost (put seen) (shedAfter s (queueRestores s ++ restore)) (q :: queueSlots s)
    let r := admitReason c.1 c.2 (testBudget s s.fr.rate) true
    if s.mx.queue.length ≥ 8 then .error (s, stQueueFull, noIndex)
    else if !clash.isEmpty then .error (s, stOverlap, clash.foldl Nat.min noIndex)
    else if (xp.filter (fun e => occupied xp e.1)).length + fresh > capacity s then .error (s, stTableFull, noIndex)
    else if r != 0 then
      let cost := refusedCostOf r c.1 c.2
      .error (noteRefusal s r cost, stAdmission, refusedResult cost)
    else
      let mir := o != .peer && mirrors s 0
      let cm : Commit :=
        { owner := o, qslot := q, tag := h.tag, count := h.count, notify := h.notify, atFn := h.atFn,
          target := h.target, late := h.atFn && h.target ≤ bindTo s,
          bound := if mir || o == .peer then unbound else bindTo s, restore := restore, recs := recs.flatMap (fun r => recBytes r.op r.source r.sink r.gain),
          scene := h.scene }
      let s := refreshCost { s with mx := { s.mx with xp := put xp, queue := s.mx.queue ++ [cm] } }
      .ok (if mir then holdMirror s o (.commit q) none else s, q)

/-- Step 2 of R62 on a header (R59): BAD_TAG, BAD_RECORD, or nothing. -/
def headerStatus (b : Bytes) : Nat :=
  if leAt b 0 4 = 0 then stBadTag
  else if leAt b 4 2 = 0 || leAt b 4 2 > 32768 || leAt b 6 2 ≥ 4 || leAt b 14 2 != 0 then stBadRecord
  else stOk

def countOk (b : Bytes) : Bool := leAt b 4 2 != 0 && leAt b 4 2 ≤ 32768

/-- A whole commit list from an owner. -/
def mixSubmit (s : State) (o : Owner) (b : Bytes) : Except (State × Nat × Nat) (State × Nat) :=
  let st := headerStatus b
  if st != stOk then .error (s, st, noIndex)
  else
    let n := leAt b 4 2
    commitRecs s o { tag := leAt b 0 4, count := n, notify := bitN (leAt b 6 2) 0, atFn := bitN (leAt b 6 2) 1,
                     target := leAt b 8 6, scene := none } ((chunks 8 n (b.drop 16)).map parseRec)

/-- A commit of the peer: the status of a refusal, or the state and the slot. [log: DEDUCED 40, 41] -/
def mixAccept (s : State) (o : Owner) (b : Bytes) : Except Nat (State × Nat) :=
  match mixSubmit s o b with
  | .error e => .error e.2.1
  | .ok p => .ok p

/-- MIX_COMMIT (R59–R62). -/
def execMixCommit (t : Frac) (c : Cmd) (d : Dma) (corrected : Nat) (s : State) : Res :=
  runCmd s t 0x0010 c [0] [(0, wordAll)] (pwN c 0 % 16 == 0 && addrOk c 0 16) (fun s n =>
    match cmdData s c d 0 16 with
    | none => finish s n stDmaError noIndex
    | some h =>
      let len := if countOk h then 16 + 8 * leAt h 4 2 else 16
      if !addrOk c 0 len then finish s n stBadParam noIndex
      else match cmdData s c d 0 len with
        | none => finish s n stDmaError noIndex
        | some b =>
          match mixSubmit (if headerStatus b = stOk then tableCorrected s corrected else s) c.src b with
          | .error e => finish e.1 n e.2.1 e.2.2
          | .ok p => finish p.1 n stOk (p.1.mx.costQueued % 2 ^ 24 + p.2 * 2 ^ 24))

/-- Rewrite every entry of the table. -/
def mapXp (s : State) (f : Nat → Xp → Xp) : State :=
  { s with mx := { s.mx with xp := tmapv Xp.none f s.mx.xp } }

/-- Apply a commit (R64): its event is given back, to be written in the order of R68. -/
def applyCommit (s : State) (c : Commit) : State :=
  let s := mapXp s (fun _ e =>
    if !(e.pend && e.qslot == c.qslot) then e
    else freeXp { e with cur := if e.lost then e.cur else e.gain, pend := false })
  let mx := s.mx
  refreshCost { s with mx := { mx with
    shed := c.restore.foldl (fun t k => tput false t k false) mx.shed,
    queue := mx.queue.filter (fun x => x.qslot != c.qslot),
    lastApplyFn := s.fr.fn, lastApplyTag := c.tag } }

/-- COMMIT_APPLIED (R76). -/
def commitApplied (s : State) (c : Commit) : State :=
  if c.notify then
    emit s 0x0110 noUnit (pay [(0, 4, c.tag), (4, 2, c.count), (6, 1, b2n c.late), (8, 4, s.mx.cost),
                               (12, 4, s.mx.feed)])
  else s

/-- Remove queued commits without an event: their PEND bits are cleared and entries left without a gain freed. -/
def dropCommits (s : State) (qs : List Nat) : State :=
  let s := mapXp s (fun _ e => if e.pend && qs.contains e.qslot then freeXp { e with pend := false } else e)
  let mine := s.pl.mine.filter (fun m => match m.item with
    | .commit q => !qs.contains q
    | _ => true)
  refreshCost { s with mx := { s.mx with queue := s.mx.queue.filter (fun c => !qs.contains c.qslot) },
                       pl := { s.pl with mine := mine } }

/-- A mirrored commit that the peer refused (R446). -/
def cancelCommit (s : State) (q : Nat) : State := dropCommits s [q]

/-- COMMIT_CANCELLED for commits in queue order: the reason of the first, and of the rest. -/
def cancelledEvents (s : State) (l : List Commit) (first rest : Nat) : State :=
  match l with
  | [] => s
  | c :: r =>
    let ev (s : State) (c : Commit) (why : Nat) :=
      emit s 0x0111 noUnit (pay [(0, 4, c.tag), (4, 1, why), (8, 4, s.mx.budget)])
    each r (ev s c first) (fun s c => ev s c rest)

/-- The configuration after the first commits of the queue fails R29. -/
def failsAfter (s : State) (l : List Commit) : Bool :=
  let c := cfgCost s.mx.xp (shedAfter s (l.flatMap (·.restore))) (l.map (·.qslot))
  admitReason c.1 c.2 s.mx.budget true != 0

/-- Where the queue first fails R29 (R68, step 4): the commits to cancel. -/
def firstFailing (s : State) : List Commit → List Commit → List Commit
  | _, [] => []
  | kept, c :: r => if failsAfter s (kept ++ [c]) then c :: r else firstFailing s (kept ++ [c]) r

/-! ### Sums, autoscale and generators (R52–R57, R74) -/

/-- E[n] of R56: 2^23 / √n rounded, ties up. -/
def eqpow (n : Nat) : Nat := (isqrt (2 ^ 48 / n) + 1) / 2

/-- Target scale of a sink (R56). -/
def scaleTarget (mode n : Nat) : Nat :=
  if n = 0 then 8388608
  else if mode = 1 then 8388608 / 2 ^ clog2 n
  else if mode = 2 then eqpow n
  else 8388608

/-- Scale in use of a glide (R57). -/
def glideScale (g : Glide) : Nat :=
  ((g.ms : Int) + (((g.mt : Int) - g.ms) * g.j).tdiv 64).toNat

def scaleOf (s : State) (k : Nat) : Nat := glideScale (tget Glide.unity s.mx.glide k)

/-- One strobe of a glide (R57). -/
def glideStep (g : Glide) : Glide :=
  if g.j + 1 < 64 then { g with j := g.j + 1 } else { ms := g.mt, mt := g.mt, j := 64 }

/-- A source's sample of the frame. -/
def sourceOf (s : State) (n : Nat) : Int := tget 0 s.mx.src n

/-- The entries of sink `k` that contribute. -/
def contributors (s : State) (k : Nat) : List (Nat × Xp) :=
  s.mx.xp.filter (fun e => xpSink e.1 == k && e.2.cur != 0 && !e.2.lost)

/-- A of R52. -/
def accOf (s : State) (k : Nat) : Int :=
  (contributors s k).foldl (fun a e => a + (sourceOf s (xpSource e.1) * e.2.cur) / 16) 0

/-- (A × M + 2^38) >> 39 of R53. -/
def scaled (a : Int) (m : Nat) : Int := (a * m + 2 ^ 38) / 2 ^ 39

/-- A frame is computing: strobes run, it has not drained and no abort is in progress. -/
def computing (s : State) : Bool := s.fr.running && !s.fr.drained && s.fr.overrun.isNone

def isHeld (s : State) (k : Nat) : Bool := s.mx.held.contains k

/-- Complete sink `k` (R20, R53), unless it is complete, held or shed. A saturated result is noted for the drain. -/
def completeSink (s : State) (k : Nat) : State :=
  if (tget none s.mx.res k).isSome || isHeld s k || isShed s k then s
  else
    let u := scaled (accOf s k) (scaleOf s k)
    let y := sat32 u
    let mx := { s.mx with res := tput none s.mx.res k (some y) }
    { s with mx := if y = u then mx else { mx with clipNotes := mx.clipNotes ++ [(k, toU 32 u)] } }

/-- Sinks with something to compute in the frame. -/
def workSinks (s : State) : List Nat :=
  ((s.mx.xp.filter (fun e => e.2.cur != 0 && !e.2.lost)).map (fun e => xpSink e.1)).eraseDups.filter
    (fun k => !isShed s k)

/-- Sinks of the frame that have work and no result, with those held (R39, R51). -/
def incompleteSinks (s : State) : List Nat :=
  (workSinks s).filter (fun k => isHeld s k || (tget none s.mx.res k).isNone)
    ++ s.mx.held.filter (fun k => !(workSinks s).contains k)

/-- Complete every sink that has work, the engine inputs first (R23). -/
def completeAll (s : State) : State :=
  let l := workSinks s
  each (l.filter engineSink ++ l.filter (fun k => !engineSink k)) s completeSink

/-- An engine-input sink has work left: no other sink is computed yet (R23). -/
def feedPending (s : State) : Bool := (incompleteSinks s).any (fun k => engineSink k && !isHeld s k)

/-- SINK_COMPLETE (R20, R23, R51): nothing happens outside a computing frame, or before the sink's turn. -/
def execSinkComplete (t : Frac) (k : Fin 4096) (corrected : Nat) (s : State) : Res :=
  let s := atT s t
  .next (
    if !computing s || reservedSink k.val || (!engineSink k.val && feedPending s) then s
    else tableCorrected (completeSink s k.val) corrected)

/-- What an engine takes at input sink `k`: the result of the frame, or the value held (R51). -/
def engineInput (s : State) (k : Nat) : Int :=
  if isHeld s k then tget 0 s.mx.present k else (tget none s.mx.res k).getD 0

/-- π × 2^100. -/
def piFix : Nat := 3982441812995697363688351113952

/-- Terms of a sine: the term in hand, its index, and the sum so far, scaled by 2^100. -/
def sinTerms : Nat → Int → Nat → Int → Int → Int
  | 0, _, _, _, acc => acc
  | f + 1, x2, k, term, acc =>
    sinTerms f x2 (k + 2) (-(term * x2 / 2 ^ 100) / ((k + 1) * (k + 2) : Nat)) (acc + term)

/-- sin(π i / 8192) × 2^100 for `i ≤ 4096`. -/
def sinFix (i : Nat) : Int :=
  let x : Int := ((piFix * i / 8192 : Nat) : Int)
  sinTerms 24 (x * x / 2 ^ 100) 1 x 0

/-- S[i] of R74 for a quarter turn, and for the whole one. -/
def sineQuarter (i : Nat) : Int := (2147483647 * sinFix i + 2 ^ 99) / 2 ^ 100

def sine (i : Nat) : Int :=
  if i ≤ 4096 then sineQuarter i
  else if i ≤ 8192 then sineQuarter (8192 - i)
  else if i ≤ 12288 then -sineQuarter (i - 8192)
  else -sineQuarter (16384 - i)

/-- One frame of generator `g`: its sample and its next state (R74). -/
def genStep (cfg freq : Word) (g : Gen) : Int × Gen :=
  let mode := fld cfg 1 0
  let t : Int :=
    if mode = 1 then sine (g.phase / 2 ^ 18) else if mode = 2 then sext 32 g.noise else 0x7FFFFFFF
  let y := if mode = 0 then 0 else sat32 ((t * sext 24 (fld cfg 31 8) + 2 ^ 22) / 2 ^ 23)
  let noise := (BitVec.ofNat 32 (g.noise / 2)) ^^^ (if g.noise % 2 = 1 then 0x80200003 else 0)
  (y, if mode = 1 then { g with phase := (g.phase + freq.toNat) % 2 ^ 32 }
      else if mode = 2 then { g with noise := noise.toNat } else g)

/-- One generator's turn at a strobe. -/
def genTurn (a : Tbl Int × State) (g : Nat) : Tbl Int × State :=
  let r := genStep (reg a.2 .mxGenCfg g) (reg a.2 .mxGenFreq g) (tget Gen.reset a.2.mx.gen g)
  (tput 0 a.1 (0x19C0 + g) r.1, { a.2 with mx := { a.2.mx with gen := tput Gen.reset a.2.mx.gen g r.2 } })

/-- Samples of the generators for the frame, and their next states. -/
def genStrobe (s : State) : Tbl Int × State := (List.range 32).foldl genTurn ([], s)

/-! ### Silence (R58) -/

/-- Sources whose detector is enabled, with their profile. -/
def silSources (s : State) : List (Nat × Nat) :=
  ((tkeys s.regs).filter (fun o => 0x1C000 ≤ o && o < 0x1D000)).flatMap (fun o =>
    let j := (o - 0x1C000) / 4
    (List.range 8).filterMap (fun i =>
      if rb s .mxSrcSil j (4 * i + 3) then some (8 * j + i, rf s .mxSrcSil j (4 * i + 1) (4 * i)) else none))

/-- A detector after a frame: below the threshold for HOLD frames, or at it. -/
def silStep (d : Sil) (below : Bool) (hold : Nat) : Sil :=
  if below then
    let n := satTo 0xFFFF (d.run + 1)
    { run := n, silent := d.silent || hold ≤ n }
  else { run := 0, silent := false }

/-- Every detector after the frame. -/
def silenceFrame (s : State) : State :=
  let t := (silSources s).foldl (fun t e =>
    let below : Bool := (sourceOf s e.1).natAbs < 2 ^ (31 - rf s .mxSilProf e.2 20 16)
    tput { run := 0, silent := false } t e.1
      (silStep (tget { run := 0, silent := false } s.mx.sil e.1) below (rf s .mxSilProf e.2 15 0))) []
  { s with mx := { s.mx with sil := t } }

/-- The flag of a source as it stands after the frame (R55). -/
def silent (s : State) (n : Nat) : Bool := (tget { run := 0, silent := false } s.mx.sil n).silent

/-- MX_SRC_SILENT: a disabled detector never flags its source. -/
def shownSilent (s : State) (n : Nat) : Bool := rb s .mxSrcSil (n / 8) (4 * (n % 8) + 3) && silent s n

/-! ### n_k and glides at a boundary (R55–R57) -/

/-- n_k of a sink. -/
def activeCount (s : State) (k : Nat) : Nat :=
  if isShed s k then 0 else ((contributors s k).filter (fun e => !silent s (xpSource e.1))).length

/-- Evaluate n_k of one sink, and start a glide when its target changes. -/
def evalSink (s : State) (k : Nat) : State :=
  let n := activeCount s k
  let m := scaleTarget (rf s .mxSinkCfg k 1 0) n
  let g := tget Glide.unity s.mx.glide k
  let g := if g.mt = m then g else { ms := glideScale g, mt := m, j := 0 }
  { s with mx := { s.mx with nk := tput 0 s.mx.nk k n, glide := tput Glide.unity s.mx.glide k g } }

/-- Step 5 of R68. -/
def evalSinks (s : State) : State :=
  each (((tkeys s.mx.xp).map xpSink ++ tkeys s.mx.nk ++ tkeys s.mx.glide).eraseDups) s evalSink

/-! ### Lanes (R69–R71) -/

def lane (s : State) (l : Nat) : Lane := tget Lane.off s.mx.lane l

def setLane (s : State) (l : Nat) (x : Lane) : State :=
  { s with mx := { s.mx with lane := tput Lane.off s.mx.lane l x } }

/-- Lanes of half 0 or 1 in a state. -/
def lanesIn (s : State) (h : Nat) (st : LaneState) : List Nat :=
  ((List.range 32).map (· + 32 * h)).filter (fun l => (lane s l).st == st)

/-- L of a half is how many lanes it schedules. -/
def countLanes (s : State) : State :=
  { s with mx := { s.mx with lA := (lanesIn s 0 .scheduled).length, lB := (lanesIn s 1 .scheduled).length } }

/-- The spare that recomputes: the lowest of the half that has not failed. -/
def spareFor (s : State) (h : Nat) : Option Nat :=
  (lanesIn s h .spare).find? (fun l => !s.mx.retire.contains l)

/-- Results of affected sinks are computed again (R71). -/
def discardSinks (s : State) (sinks : List Nat) : State :=
  let mx := s.mx
  { s with mx := { mx with res := sinks.foldl (fun t k => tput none t k none) mx.res,
                           clipNotes := mx.clipNotes.filter (fun c => !sinks.contains c.1) } }

/-- The recomputation of an error is finished. -/
def recomputed (s : State) (e : LaneErr) : Bool := e.sinks.all (fun k => (tget none s.mx.res k).isSome)

/-- Abandon the recomputations not finished (R71, step 3): their sinks present what they presented. -/
def abandonLanes (s : State) : State :=
  let (bad, good) := s.mx.laneErrs.partition (fun e => e.by_.isNone || !recomputed s e)
  let ks := (bad.flatMap (·.sinks)).eraseDups
  let s := discardSinks s ks
  { s with mx := { s.mx with held := s.mx.held ++ ks.filter (fun k => !s.mx.held.contains k),
                             laneErrs := good ++ bad.map (fun e => { e with repeated := true }) } }

/-- The errors of the frame with one more of lane `l`: an earlier one of the lane takes in its sinks, and what `l` was
recomputing passes to the next spare. -/
def addLaneErr (errs : List LaneErr) (l : Nat) (ks : List Nat) (by_ : Option Nat) : List LaneErr :=
  let errs := errs.map (fun e => if e.by_ = some l then { e with by_ := by_ } else e)
  if errs.any (fun e => e.lane == l) then
    errs.map (fun e => if e.lane = l then { e with sinks := (e.sinks ++ ks).eraseDups } else e)
  else errs ++ [{ lane := l, sinks := ks, by_ := by_, repeated := false }]

/-- LANE_ERROR (R71, steps 1 to 3): of a scheduled lane, or of a spare that recomputes; every error counts. Only a sink
with something to compute has a partial sum. After the mark nothing is recomputed. -/
def execLaneError (t : Frac) (l : Fin 64) (sinks : List Nat) (s : State) : Res :=
  let s := atT s t
  let x := lane s l.val
  let mine := s.mx.laneErrs.filter (fun e => e.by_ == some l.val)
  .next (
    if !computing s || !(x.st == .scheduled || (x.st == .spare && !mine.isEmpty)) then s
    else
      let ks := if x.st = .spare then (mine.flatMap (·.sinks)).eraseDups
        else sinks.eraseDups.filter (fun k => (workSinks s).contains k)
      let s := setLane s l.val { x with errors := inc16 x.errors }
      let s := { s with mx := { s.mx with
        retire := if s.mx.retire.contains l.val then s.mx.retire else s.mx.retire ++ [l.val] } }
      let by_ := if s.fr.marked then none else spareFor s (l.val / 32)
      let s := discardSinks { s with mx := { s.mx with laneErrs := addLaneErr s.mx.laneErrs l.val ks by_ } } ks
      if s.fr.marked then abandonLanes s else s)

/-- LANE_ERROR of each error of the frame, lower-numbered lane first (R71, step 4). [log: DESIGN CHOICE 94] -/
def reportLanes (s : State) : State :=
  let l := (List.range 64).flatMap (fun n => s.mx.laneErrs.filter (fun e => e.lane == n))
  each l { s with mx := { s.mx with laneErrs := [] } } (fun s e =>
    emit s 0x0112 e.lane (pay [(0, 2, e.sinks.length), (2, 2, e.sinks.foldl Nat.min 0xFFFF),
                               (4, 1, if e.repeated then 2 else 1), (5, 1, e.by_.getD 0xFF)]))

/-- Retire one lane (R71, step 5), with LANE_RETIRED. -/
def retireLane (s : State) (l : Nat) : State :=
  let x := lane s l
  let h := l / 32
  if x.st != .scheduled && x.st != .spare then s
  else
    let spare := if x.st = .scheduled then spareFor s h else none
    let s := setLane s l { x with st := .retired, bad := true }
    let s := match spare with
      | some j => setLane s j { lane s j with st := .scheduled }
      | none => s
    let s := countLanes s
    let s := { s with mx := { s.mx with budget := budgetFor s s.fr.rate s.mx.inA s.mx.inB } }
    emit s 0x0113 l (pay [(0, 1, spare.getD 0xFF), (1, 1, (lanesIn s h .spare).length),
                          (2, 1, if h = 0 then s.mx.lA else s.mx.lB), (4, 4, s.mx.budget)])

/-- Step 1 of R68: every lane to retire, lower-numbered first. -/
def retireLanes (s : State) : State :=
  let l := (List.range 64).filter s.mx.retire.contains
  let s := each l s retireLane
  { s with mx := { s.mx with retire := [] } }

/-! ### Shedding (R30, R72) -/

/-- The next sink to shed among those counted in S: the lowest class, then the highest index. -/
def shedNext (s : State) (feedOnly : Bool) : Option Nat :=
  let l := (((s.mx.xp.filter (fun e => e.2.cur != 0)).map (fun e => xpSink e.1)).eraseDups).filter
    (fun k => !isShed s k && (!feedOnly || engineSink k))
  l.foldl (fun a k => match a with
    | none => some k
    | some b =>
      let pk := rf s .mxSinkCfg k 5 4
      let pb := rf s .mxSinkCfg b 5 4
      if pk > pb || (pk == pb && k > b) then some k else some b) none

/-- Shed sinks until C and F fit: the sinks in order, each with C and F after it. -/
def shedLoop : Nat → Bool → State → List (Nat × Nat × Nat) → State × List (Nat × Nat × Nat)
  | 0, _, s, l => (s, l)
  | n + 1, feedOnly, s, l =>
    let c := costNow s
    if c.1 ≤ s.mx.budget && c.2 ≤ s.mx.budget / 4 then (s, l)
    else match shedNext s feedOnly with
      | none => (s, l)
      | some k =>
        let s := { s with mx := { s.mx with shed := tput false s.mx.shed k true } }
        let c := costNow s
        shedLoop n feedOnly s (l ++ [(k, c.1, c.2)])

/-- Step 3 of R68: C, F and MX_COST_QUEUED follow. -/
def shedFit (s : State) : State × List (Nat × Nat × Nat) :=
  let r := shedLoop 4096 ((costNow s).1 ≤ s.mx.budget) s []
  (refreshCost r.1, r.2)

/-- SINK_SHED in shedding order. -/
def shedEvents (s : State) (l : List (Nat × Nat × Nat)) : State :=
  each l s (fun s e => emit s 0x0114 e.1 (pay [(0, 1, rf s .mxSinkCfg e.1 5 4), (4, 4, e.2.1), (8, 4, s.mx.budget),
                                               (12, 4, e.2.2)]))

/-- BUDGET_CHANGED when B changed (R44). -/
def budgetEvent (s : State) (old new cause : Nat) : State :=
  if old = new then s
  else emit s 0x0104 noUnit (pay [(0, 4, old), (4, 4, new), (8, 4, s.mx.cost), (12, 1, cause)])

/-! ### Uncorrectable entries (R51) -/

/-- An occupied entry with a double-bit error is lost from now on, until a boundary frees it (R51). -/
def markLost (s : State) (d : Damage) : State :=
  let key := xpKey d.sink.val d.source.val
  let mx := s.mx
  if !occupied mx.xp key then s
  else { s with mx := { mx with xp := tmod Xp.none mx.xp key (fun e => { e with lost := true }),
                                damaged := mx.damaged ++ [(key, d.pos.toNat, d.asRead.toNat)] } }

/-- TABLE_UNCORRECTABLE: the entry is lost at once; read by a computing frame, it leaves its sink incomplete. -/
def execTableUncorrectable (t : Frac) (sink : Fin 4096) (source : Fin 8192) (inFrame : Bool) (pos : Word)
    (asRead : BitVec 16) (s : State) : Res :=
  let s := atT s t
  .next (
    if !occupied s.mx.xp (xpKey sink.val source.val) then s
    else
      let s := markLost s { sink := sink, source := source, pos := pos, asRead := asRead }
      if inFrame && computing s && !isHeld s sink.val then
        let s := discardSinks s [sink.val]
        { s with mx := { s.mx with held := s.mx.held ++ [sink.val] } }
      else s)

/-- Steps 2 and 3 of R51 at a boundary that applies items. [log: DESIGN CHOICE 94] -/
def freeDamaged (s : State) : State :=
  let d := s.mx.damaged
  if d.isEmpty then s
  else
    let q := s.mx.queue
    let s := dropCommits s (q.map (·.qslot))
    let s := cancelledEvents s q 3 3
    let s := { s with mx := { s.mx with damaged := [] } }
    refreshCost (each d s (fun s e =>
      let mx := s.mx
      let s := { s with mx := { mx with xp := tput Xp.none mx.xp e.1 Xp.none,
                                        eccUncorrected := inc16 mx.eccUncorrected } }
      emit s 0x0115 (xpSink e.1) (pay [(0, 4, e.2.1), (4, 2, e.2.2)])))

/-! ### Clips (R54) -/

/-- Count the clips of the sinks whose results are presented, and raise SINK_CLIP for each first one. -/
def reportClips (s : State) : State :=
  let l := s.mx.clipNotes
  each l { s with mx := { s.mx with clipNotes := [] } } (fun s c =>
    let n := tget 0 s.mx.clips c.1
    let s := { s with mx := { s.mx with clips := tput 0 s.mx.clips c.1 (inc16 n) } }
    if n = 0 then emit s 0x0116 c.1 (pay [(0, 4, c.2)]) else s)

/-! ### Register rows -/

/-- MX_TIME_READ (R41). -/
def execMxTimeRead (t : Frac) (s : State) : Res :=
  let s := atT s t
  .next (reading { s with fr := { s.fr with timeFn := s.fr.fn / 2 ^ 32, timeFrac := t } } (BitVec.ofNat 32 s.fr.fn))

/-- The lookup that a write of MX_XP_QUERY starts (R51, R67), with the corrections of its read.
[log: DESIGN CHOICE 94] -/
def lookup (s : State) (v : Word) (corrected : Nat) : State :=
  let s := tableCorrected (setReg s .mxXpQuery 0 (v &&& 0x1FFF0FFF)) corrected
  let key := xpKey (fld v 11 0) (fld v 28 16)
  { s with mx := { s.mx with found := if occupied s.mx.xp key then some (tget Xp.none s.mx.xp key) else none } }

/-- XP_LOOKUP. -/
def execXpLookup (t : Frac) (src : Owner) (v : Word) (corrected : Nat) (s : State) : Res :=
  .next (directWrite (atT s t) src 0x10088 0 (fun s => lookup s v corrected))

/-- REARM and CLEAR of MX_SLACK_CTRL (R43). -/
def rearm (s : State) : State := { s with fr := { s.fr with armed := true } }
def slackClear (s : State) : State := { s with fr := { s.fr with clearPend := true } }

/-- SLACK_REARM. -/
def execSlackRearm (t : Frac) (src : Owner) (s : State) : Res :=
  .next (directWrite (atT s t) src 0x10030 0 rearm)

/-- SLACK_CLEAR. -/
def execSlackClear (t : Frac) (src : Owner) (s : State) : Res :=
  .next (directWrite (atT s t) src 0x10030 0 slackClear)

/-- MX_CLIP_CLEAR (R75). -/
def clipClear (s : State) (v : Word) : State :=
  { s with mx := { s.mx with clips := if bit v 31 then [] else tput 0 s.mx.clips (fld v 11 0) 0 } }

/-- CLIP_CLEAR. -/
def execClipClear (t : Frac) (src : Owner) (v : Word) (s : State) : Res :=
  .next (directWrite (atT s t) src 0x10210 0 (fun s => clipClear s v))

end Sys2Proof.Machine
end

