-- ==== Sys2Proof/Machine/Stages.lean ====
section
/-! DEFINITION. The arithmetic of the effect engines and the ten stage types (R78–R87), with what a load checks
of a stage (R83, R85, R89). -/

namespace Sys2Proof.Machine

open Sys2Proof

/-! ### Stage types (R85) -/

/-- What a TYPE and SIZE give: parameter words, cost, input slots and output slots; `none` when reserved. -/
structure StageSpec where
  words : Nat
  cost : Nat
  nin : Nat
  nout : Nat
  deriving DecidableEq, Repr

def stageSpec (type size : Nat) : Option StageSpec :=
  match type with
  | 1 => if size = 0 then some ⟨5, 6, 1, 1⟩ else none
  | 2 => if size = 0 then some ⟨6, 8, 1, 1⟩ else none
  | 3 => if 1 ≤ size ∧ size ≤ 8 then some ⟨1 + 32 * size, 4 + 16 * size, 1, 1⟩ else none
  | 4 => if size ≤ 3 then some ⟨7, 24, 1, 1⟩ else none
  | 5 => if 1 ≤ size ∧ size ≤ 4 then some ⟨3 + 4 * size, 4 + 6 * size, 1, 1⟩ else none
  | 6 => if 1 ≤ size ∧ size ≤ 16 then some ⟨3 * size, 6 + 8 * size, 1, 1⟩ else none
  | 7 => if size = 0 then some ⟨1026, 10, 1, 1⟩ else none
  | 8 => if size = 0 then some ⟨64, 40, 8, 8⟩ else none
  | 9 => if size ≤ 2 then some ⟨3, 4, if size = 2 then 1 else 0, 1⟩ else none
  | 10 => if size = 2 ∨ size = 3 then some ⟨10 * (size - 1), 24 * (size - 1), 1, size⟩ else none
  | _ => none

/-- Words of a stage marked S, from PBASE. -/
def structuralWords (type size : Nat) : List Nat :=
  match type with
  | 3 => [0]
  | 5 => 0 :: (List.range size).map (fun j => 6 + 4 * j)
  | 6 => (List.range size).map (fun j => 3 * j)
  | _ => []

/-- A structural word in its range (R85, R89). -/
def structuralOk (type size rel v : Nat) : Bool :=
  match type with
  | 3 => v < 32 * size
  | 5 => if rel = 0 then 2 ≤ v && v ≤ 1048576 else v < 0x30 || v == 0xFF
  | 6 => fldN v 30 16 == 0 && fldN v 15 0 != 0
  | _ => true

/-- Word `w` of a recipe is structural. -/
def isStructural (r : Recipe) (w : Nat) : Bool :=
  r.stages.any (fun st => st.pbase ≤ w && (structuralWords st.type st.size).contains (w - st.pbase))

/-- LAT of a stage's FLAGS, and NOBYP. -/
def stageLat (st : Stage) : Bool := bitN st.flags 0
def stageNobyp (st : Stage) : Bool := bitN st.flags 1

/-! ### Rounding (R80) -/

def rnd28 (v : Int) : Int := (v + 2 ^ 27) / 2 ^ 28
def rnd24 (v : Int) : Int := (v + 2 ^ 23) / 2 ^ 24

/-- An assignment marked ←: rounded once and saturated, with the saturation counted. -/
def asg (v : Int) : Int × Nat :=
  let x := rnd28 v
  (sat32 x, b2n (decide (sat32 x ≠ x)))

/-- A signal term without a coefficient. -/
def q28 (x : Int) : Int := x * 2 ^ 28

/-! ### LOG2 and EXP2 (R86) -/

/-- 2^(2^j / 1024) × 2^64, for j = 0 to 9. -/
def expRoots : List Nat :=
  [18459234930309000272, 18471734244850835105, 18496758270674070881, 18546908069882975960,
   18647615946650685158, 18850675170876015534, 19263451207323153961, 20116317054877281741,
   21936999301089678046, 26087635650665564424]

/-- ET[i]. -/
def expTab (i : Nat) : Nat :=
  if i ≥ 1024 then 2 ^ 29
  else
    let a := (expRoots.zip (List.range 10)).foldl
      (fun a e => if bitN i e.2 then a * e.1 / 2 ^ 64 else a) (2 ^ 64)
    (a * 2 ^ 28 + 2 ^ 63) / 2 ^ 64

/-- Bits of a binary logarithm by repeated squaring of a number in [1, 2) × 2^96. -/
def logBits : Nat → Nat → Nat → Nat
  | 0, _, acc => acc
  | n + 1, y, acc =>
    let z := y * y / 2 ^ 96
    if z ≥ 2 ^ 97 then logBits n (z / 2) (2 * acc + 1) else logBits n z (2 * acc)

/-- LT[i]. -/
def logTab (i : Nat) : Nat :=
  if i ≥ 1024 then 2 ^ 24 else (logBits 40 ((1024 + i) * 2 ^ 86) 0 + 2 ^ 15) / 2 ^ 16

def log2Fix (v : Int) : Int :=
  if v ≤ 0 then -(32 * 2 ^ 24)
  else
    let n := v.toNat
    let k := Nat.log2 n
    let f := n * 2 ^ 31 / 2 ^ (k + 1) % 2 ^ 30
    let i := f / 2 ^ 20
    let r := f % 2 ^ 20
    ((k : Int) - 28) * 2 ^ 24 + logTab i + ((((logTab (i + 1) - logTab i) * r + 2 ^ 19) / 2 ^ 20 : Nat) : Int)

/-- EXP2, and whether its result saturates. -/
def exp2Fix (g : Int) : Int × Nat :=
  let g := clampI (-(32 * 2 ^ 24)) (3 * 2 ^ 24 - 1) g
  let q := g / 2 ^ 24
  let f := (g % 2 ^ 24).toNat
  let i := f / 2 ^ 14
  let r := f % 2 ^ 14
  let m : Int := ((expTab i + ((expTab (i + 1) - expTab i) * r + 2 ^ 13) / 2 ^ 14 : Nat) : Int)
  if q ≥ 0 then
    let x := m * 2 ^ q.toNat
    (sat32 x, b2n (decide (sat32 x ≠ x)))
  else ((m + 2 ^ ((-q).toNat - 1)) / 2 ^ (-q).toNat, 0)

/-! ### Stages -/

/-- What a stage gives: its outputs from OUT on, its state, and its saturations. -/
structure StageOut where
  outs : List Int
  st : StageSt
  sat : Nat
  deriving DecidableEq, Repr

/-- A biquad on words from `b` with its history at `k`. -/
def biquad (w : Nat → Int) (b : Nat) (reg : Tbl Int) (k : Nat) (x : Int) : Int × Tbl Int × Nat :=
  let g (i : Nat) := tget 0 reg (k + i)
  let y := asg (w b * x + w (b + 1) * g 0 + w (b + 2) * g 1 - w (b + 3) * g 2 - w (b + 4) * g 3)
  let reg' := tput 0 (tput 0 (tput 0 (tput 0 reg (k + 1) (g 0)) k x) (k + 3) (g 2)) (k + 2) y.1
  (y.1, reg', y.2)

/-- The same filter twice (XOVER). -/
def biquad2 (w : Nat → Int) (b : Nat) (reg : Tbl Int) (k : Nat) (x : Int) : Int × Tbl Int × Nat :=
  let p := biquad w b reg k x
  let q := biquad w b p.2.1 (k + 4) p.1
  (q.1, q.2.1, p.2.2 + q.2.2)

def runBiquad (w : Nat → Int) (s : StageSt) (x : Int) : StageOut :=
  let p := biquad w 0 s.reg 0 x
  { outs := [p.1], st := { s with reg := p.2.1 }, sat := p.2.2 }

def runSvf (w : Nat → Int) (s : StageSt) (x : Int) : StageOut :=
  let c1 := tget 0 s.reg 0
  let c2 := tget 0 s.reg 1
  let v3 := asg (q28 (x - c2))
  let v1 := asg (w 0 * c1 + w 1 * v3.1)
  let v2 := asg (q28 c2 + w 1 * c1 + w 2 * v3.1)
  let d1 := asg (q28 (2 * v1.1 - c1))
  let d2 := asg (q28 (2 * v2.1 - c2))
  let y := asg (w 3 * x + w 4 * v1.1 + w 5 * v2.1)
  { outs := [y.1], st := { s with reg := tput 0 (tput 0 s.reg 0 d1.1) 1 d2.1 },
    sat := v3.2 + v1.2 + v2.2 + d1.2 + d2.2 + y.2 }

/-- FIR: x[n − i] stands at key `i` before the frame, one frame older after it. -/
def runFir (w : Nat → Int) (n : Nat) (s : StageSt) (x : Int) : StageOut :=
  let h : Tbl Int := tput 0 (s.reg.filterMap (fun e => if e.1 + 1 < n then some (e.1 + 1, e.2) else none)) 0 x
  let y := asg (h.foldl (fun a e => a + w (1 + e.1) * e.2) 0)
  { outs := [y.1], st := { s with reg := h }, sat := y.2 }

/-- A line writes a cell with a new sample; the cell is no longer a damaged one (R92). -/
def StageSt.writeCell (s : StageSt) (cell : Nat) (l : Int) : StageSt :=
  { s with line := tput 0 s.line cell l, lost := s.lost.filter (· != cell) }

/-- The detector of DYN, step 1. -/
def detector (att rel env s : Int) : Int × Nat :=
  let a : Int := (s.natAbs : Int)
  asg (q28 env + (if a > env then att else rel) * (a - env))

/-- DYN: words THRESH, SLOPE, ATT, REL, RANGE, MAKEUP, HOLD; state env and h. HOLD ("Integer", R85) is read without a
sign. [log: DESIGN CHOICE 95] -/
def runDyn (w : Nat → Int) (mode : Nat) (s : StageSt) (x side : Int) : StageOut :=
  let env := detector (w 2) (w 3) (tget 0 s.reg 0) side
  let excess := log2Fix env.1 - w 0
  let h := tget 0 s.reg 1
  let hold : Int := w 6 % 2 ^ 32
  let g : Int × Int :=
    match mode with
    | 0 => (-(rnd24 (w 1 * max 0 excess)), h)
    | 1 => (-(max 0 excess), h)
    | 2 => (max (-(w 4)) (-(rnd24 (w 1 * max 0 (-excess)))), h)
    | _ => if excess ≥ 0 then (0, hold) else if h > 0 then (0, h - 1) else (-(w 4), h)
  let e := exp2Fix (g.1 + w 5)
  let y := asg (e.1 * x)
  { outs := [y.1], st := { s with reg := tput 0 (tput 0 s.reg 0 env.1) 1 g.2 }, sat := env.2 + e.2 + y.2 }

/-- One tap of DELAY: its sample (steps 1 to 3). The line position stands in register 0. -/
def delayTap (w : Nat → Int) (slot : Nat → Int) (s : StageSt) (len pos j : Nat) : Int :=
  let ms := (w (6 + 4 * j) % 256).toNat
  let base := w (3 + 4 * j)
  let d := if ms = 0xFF then base else base + (w (4 + 4 * j) * slot ms + 2 ^ 27) / 2 ^ 28
  let d := (clampI 256 (max 256 (256 * ((len : Int) - 2))) d).toNat
  let i := d / 256
  let f : Int := ((d % 256 : Nat) : Int)
  let a := tget 0 s.line ((pos + len - i) % len)
  let b := tget 0 s.line ((pos + 2 * len - i - 1) % len)
  ((256 - f) * a + f * b + 128) / 256

/-- DELAY: words LEN, DRY, FB, then BASE, DEPTH, GAIN and MODSLOT of each tap. -/
def runDelay (w : Nat → Int) (k : Nat) (slot : Nat → Int) (s : StageSt) (x : Int) : StageOut :=
  let len := (w 0).toNat
  let pos := (tget 0 s.reg 0).toNat
  let t := (List.range k).map (delayTap w slot s len pos)
  let y := asg (w 1 * x + (t.zip (List.range k)).foldl (fun a e => a + w (5 + 4 * e.2) * e.1) 0)
  let l := asg (q28 x + w 2 * t.headD 0)
  { outs := [y.1], st := { s with reg := tput 0 s.reg 0 (((pos + 1) % len : Nat) : Int) }.writeCell pos l.1,
    sat := y.2 + l.2 }

/-- DIFFUSE: the sections in series; position of section `j` in register `j`, z in register 16 + j. -/
def diffuse (w : Nat → Int) : Nat → Nat → StageSt → Int → Nat → StageSt × Int × Nat
  | 0, _, s, x, n => (s, x, n)
  | k + 1, j, s, x, n =>
    let ctl := (w (3 * j) % 2 ^ 32).toNat
    let d := ctl % 65536
    let pos := (tget 0 s.reg j).toNat
    let cell := 65536 * j + pos
    let v := tget 0 s.line cell
    let g := w (3 * j + 1)
    let next (s : StageSt) (l : Int) : StageSt :=
      { s with reg := tput 0 s.reg j (((pos + 1) % d : Nat) : Int) }.writeCell cell l
    if bitN ctl 31 then
      let z := asg (q28 v + w (3 * j + 2) * (tget 0 s.reg (16 + j) - v))
      let l := asg (q28 x + g * z.1)
      diffuse w k (j + 1) (next { s with reg := tput 0 s.reg (16 + j) z.1 } l.1) v (n + z.2 + l.2)
    else
      let l := asg (q28 x + g * v)
      let y := asg (q28 v - g * l.1)
      diffuse w k (j + 1) (next s l.1) y.1 (n + l.2 + y.2)

def runDiffuse (w : Nat → Int) (k : Nat) (s : StageSt) (x : Int) : StageOut :=
  let r := diffuse w k 0 s x 0
  { outs := [r.2.1], st := r.1, sat := r.2.2 }

/-- SHAPE: words PRE, POST and T[0] to T[1,023]. -/
def runShape (w : Nat → Int) (s : StageSt) (x : Int) : StageOut :=
  let u := asg (w 0 * x)
  let p := (clampI (-(2 ^ 28)) (2 ^ 28 - 1) u.1 + 2 ^ 28).toNat
  let i := p / 2 ^ 19
  let r : Int := ((p % 2 ^ 19 : Nat) : Int)
  let t (i : Nat) := w (2 + min i 1023)
  let v := t i + ((t (i + 1) - t i) * r + 2 ^ 18) / 2 ^ 19
  let y := asg (w 1 * v)
  { outs := [y.1], st := s, sat := u.2 + y.2 }

/-- MIX8: word 8o + i feeds input i into output o. -/
def runMix8 (w : Nat → Int) (s : StageSt) (ins : List Int) : StageOut :=
  let l := (List.range 8).map (fun o =>
    asg ((ins.zip (List.range 8)).foldl (fun a e => a + w (8 * o + e.2) * e.1) 0))
  { outs := l.map Prod.fst, st := s, sat := (l.map Prod.snd).foldl (· + ·) 0 }

/-- LFOENV: φ, or the envelope, in register 0. -/
def runLfo (w : Nat → Int) (mode : Nat) (s : StageSt) (x : Int) : StageOut :=
  if mode = 2 then
    let env := detector (w 0) (w 1) (tget 0 s.reg 0) x
    let y := asg (w 2 * env.1)
    { outs := [y.1], st := { s with reg := tput 0 s.reg 0 env.1 }, sat := env.2 + y.2 }
  else
    let ph := (tget 0 s.reg 0).toNat
    let v : Int :=
      if mode = 0 then sine (ph / 2 ^ 18) / 8
      else ((((ph : Int) - 2 ^ 31).natAbs / 4 : Nat) : Int) - 2 ^ 28
    let y := asg (w 2 * v)
    { outs := [y.1], st := { s with reg := tput 0 s.reg 0 (((ph : Int) + w 0) % 2 ^ 32) }, sat := y.2 }

/-- XOVER: histories of LP1, HP1, LP2 and HP2 at registers 0, 8, 16 and 24. -/
def runXover (w : Nat → Int) (ways : Nat) (s : StageSt) (x : Int) : StageOut :=
  let lo := biquad2 w 0 s.reg 0 x
  let hi := biquad2 w 5 lo.2.1 8 x
  if ways = 2 then
    { outs := [lo.1, hi.1], st := { s with reg := hi.2.1 }, sat := lo.2.2 + hi.2.2 }
  else
    let mid := biquad2 w 10 hi.2.1 16 hi.1
    let top := biquad2 w 15 mid.2.1 24 hi.1
    { outs := [lo.1, mid.1, top.1], st := { s with reg := top.2.1 },
      sat := lo.2.2 + hi.2.2 + mid.2.2 + top.2.2 }

/-- Parameter word `i` of a stage, signed. -/
def stageWord (r : Recipe) (st : Stage) (i : Nat) : Int := sext 32 (tget 0 r.words (st.pbase + i)).toNat

/-- Run one stage on the slots. -/
def runStage (r : Recipe) (st : Stage) (s : StageSt) (slots : Tbl Int) : StageOut :=
  let w := stageWord r st
  let slot (i : Nat) := tget 0 slots i
  let x := slot st.inp
  match st.type with
  | 1 => runBiquad w s x
  | 2 => runSvf w s x
  | 3 => runFir w (32 * st.size) s x
  | 4 => runDyn w st.size s x (if st.aux = 0xFF then x else slot st.aux)
  | 5 => runDelay w st.size slot s x
  | 6 => runDiffuse w st.size s x
  | 7 => runShape w s x
  | 8 => runMix8 w s ((List.range 8).map (fun i => slot (st.inp + i)))
  | 9 => runLfo w st.size s x
  | 10 => runXover w st.size s x
  | _ => { outs := [], st := s, sat := 0 }

/-- A bypassed stage (R98): its first input to its first output, 0 to the others, its state unchanged. -/
def bypassStage (st : Stage) (s : StageSt) (slots : Tbl Int) : StageOut :=
  let n := ((stageSpec st.type st.size).map (·.nout)).getD 1
  let x := if st.inp = 0xFF then 0 else tget 0 slots st.inp
  { outs := x :: List.replicate (n - 1) 0, st := s, sat := 0 }

/-- Write a stage's outputs to the slots from `o` on. -/
def putSlots : List Int → Nat → Tbl Int → Tbl Int
  | [], _, t => t
  | y :: l, o, t => putSlots l (o + 1) (tput 0 t o y)

/-- The stages in list order (R79): the slots, the states and the saturations. -/
def runStages (r : Recipe) (byp : Nat) : Nat → List Stage → List StageSt → Tbl Int → Tbl Int × List StageSt × Nat
  | _, [], _, slots => (slots, [], 0)
  | k, st :: l, ss, slots =>
    let s := ss.headD StageSt.zero
    let o := if bitN byp k then bypassStage st s slots else runStage r st s slots
    let rest := runStages r byp (k + 1) l (ss.drop 1) (putSlots o.outs st.out slots)
    (rest.1, o.st :: rest.2.1, o.sat + rest.2.2)

/-- The state of a stage at load: 0, and φ at PHASE0 (R87, R100). -/
def stageInit (r : Recipe) (st : Stage) : StageSt :=
  if st.type = 9 ∧ st.size ≠ 2 then
    { StageSt.zero with reg := tput 0 [] 0 (((tget 0 r.words (st.pbase + 1)).toNat : Nat) : Int) }
  else StageSt.zero

def stagesInit (r : Recipe) : List StageSt := r.stages.map (stageInit r)

/-- Declared delay of a stage (FX_ENG_ALLOC.LAT). -/
def stageDelay (r : Recipe) (st : Stage) : Nat :=
  let w := stageWord r st
  if st.type = 3 then (w 0).toNat
  else if st.type = 5 && stageLat st then
    (clampI 256 (max 256 (256 * (w 0 - 2))) (w 3)).toNat / 256
  else 0

def declaredLat (r : Recipe) : Nat := satTo 0xFFFF ((r.stages.map (stageDelay r)).foldl (· + ·) 0)

/-! ### Loading a recipe (R82–R90) -/

/-- The region of a slot (R78). -/
def slotRegion (n : Nat) : Nat := if n < 8 then 0 else if n < 16 then 1 else 2

/-- A span of slots from `lo` up to 0x2F that crosses no region boundary. -/
def spanOk (first n lo : Nat) : Bool :=
  lo ≤ first && first + n ≤ 0x30 && slotRegion first == slotRegion (first + n - 1)

def parseStage (b : Bytes) : Stage :=
  { type := leAt b 0 1, size := leAt b 1 1, inp := leAt b 2 1, out := leAt b 3 1, aux := leAt b 4 1,
    flags := leAt b 5 1, pbase := leAt b 6 2 }

/-- The checks of BAD_STAGE on one stage, the total of FIR taps apart. -/
def stageOk (nparam : Nat) (word : Nat → Nat) (st : Stage) : Bool :=
  match stageSpec st.type st.size with
  | none => false
  | some sp =>
    st.flags < 4 && (!stageLat st || st.type == 5) && st.pbase + sp.words ≤ nparam
    && (if sp.nin = 0 then st.inp == 0xFF else spanOk st.inp sp.nin 0)
    && (st.aux == 0xFF || (st.type == 4 && st.aux < 0x30))
    && spanOk st.out sp.nout 8
    && (structuralWords st.type st.size).all (fun i => structuralOk st.type st.size i (word (st.pbase + i)))

/-- FIR taps of the stages before `k` and of stage `k`. -/
def firTaps (l : List Stage) (k : Nat) : Nat :=
  ((l.take (k + 1)).map (fun st => if st.type = 3 then 32 * st.size else 0)).foldl (· + ·) 0

def stageCost (st : Stage) : Nat := ((stageSpec st.type st.size).map (·.cost)).getD 0

/-- Delay blocks of a stage (R90). -/
def stageBlocks (word : Nat → Nat) (st : Stage) : Nat :=
  if st.type = 5 then (word st.pbase + 1023) / 1024
  else if st.type = 6 then
    (((List.range st.size).map (fun j => word (st.pbase + 3 * j) % 65536)).foldl (· + ·) 0 + 1023) / 1024
  else 0

/-- The cell of a stage's lines at sample `n` of its blocks: the sections of a DIFFUSE stage stand one after another
(ΣD of R90). [log: DESIGN CHOICE 95] -/
def lineCell (word : Nat → Nat) (st : Stage) (n : Nat) : Option Nat :=
  if st.type = 5 then (if n < word st.pbase then some n else none)
  else if st.type = 6 then
    (List.range st.size).foldl (fun (a : Option Nat × Nat) j =>
      let d := word (st.pbase + 3 * j) % 65536
      (if a.2 ≤ n ∧ n < a.2 + d then some (65536 * j + (n - a.2)) else a.1, a.2 + d)) (none, 0) |>.1
  else none

/-- Blocks of the stages of a recipe before stage `k`: where stage `k` begins in the block table (R90). -/
def blockBase (word : Nat → Nat) (l : List Stage) (k : Nat) : Nat :=
  ((l.take k).map (stageBlocks word)).foldl (· + ·) 0

/-- B_E (R88). -/
def engineBudget (code : Nat) : Nat := if code < 2 then 512 else if code < 4 then 256 else 128

/-- The BAD_LOCK checks in the order of R89: the word at fault. -/
def lockFault (nparam : Nat) (code : Nat → Nat) (val : Nat → Int) (rs : List (Nat × Int × Int)) : Option Nat :=
  let n := (nparam + 15) / 16 * 16
  let named (w : Nat) := (rs.filter (·.1 == w)).length
  let ranged (w : Nat) := w < nparam && code w == 1
  let c1 := (List.range n).find? (fun w => code w == 3)
  let c2 := (List.range n).find? (fun w => nparam ≤ w && code w != 0)
  let c3 := (List.range nparam).find? (fun w => code w == 1 && named w != 1)
  let c4 := (rs.find? (fun r => r.2.1 > r.2.2)).map Prod.fst
  let c5 := (rs.find? (fun r => ranged r.1 && !(r.2.1 ≤ val r.1 && val r.1 ≤ r.2.2))).map Prod.fst
  let c6 := (rs.find? (fun r => !ranged r.1)).map Prod.fst
  c1 <|> c2 <|> c3 <|> c4 <|> c5 <|> c6

/-- The checks of R89 that read the body alone, in their order: STATUS and RESULT[15:0], or the recipe. -/
def parseRecipe (b : Bytes) (budget signer : Nat) (enc : Bool) : Except (Nat × Nat) Recipe :=
  let ns := leAt b 6 1
  let np := leAt b 8 2
  let nr := leAt b 12 2
  let nl := (np + 15) / 16
  let po := 32 + 8 * ns
  let lo := po + 4 * np
  let ro := lo + 4 * nl
  let headOk := 32 ≤ b.length && leAt b 0 4 == 0x43525846 && leAt b 4 2 == 1 && leAt b 7 1 == 0
    && leAt b 14 2 == 0 && leAt b 24 8 == 0 && 1 ≤ ns && ns ≤ 32 && np ≤ 4096 && nr ≤ 256
    && b.length == ro + 12 * nr
  let word (w : Nat) := leAt b (po + 4 * w) 4
  let code (w : Nat) := leAt b (lo + 4 * (w / 16)) 4 / 2 ^ (2 * (w % 16)) % 4
  let stages := (chunks 8 ns (b.drop 32)).map parseStage
  let rs := (chunks 12 nr (b.drop ro)).map
    (fun e => (leAt e 0 4, sext 32 (leAt e 4 4), sext 32 (leAt e 8 4)))
  let total := (stages.map stageCost).foldl (· + ·) 0
  let bad := (stages.zip (List.range ns)).find?
    (fun e => !stageOk np word e.1 || firTaps stages e.2 > 1024)
  if !headOk then .error (stBadRecipe, noIndex)
  else match bad with
    | some e => .error (stBadStage, e.2)
    | none =>
      if leAt b 10 2 ≠ total ∨ budget < total then .error (stOverBudget, noIndex)
      else match lockFault np code (fun w => sext 32 (word w)) rs with
        | some w => .error (stBadLock, w % 65536)
        | none =>
          let locked := (List.range np).find? (fun w => code w != 0)
          let nobyp := ((stages.zip (List.range ns)).find? (fun e => stageNobyp e.1)).map Prod.snd
          match (if signer = 0xFF then (locked <|> nobyp) else none) with
          | some w => .error (stLockUnsigned, w)
          | none => .ok
            { stages := stages, nparam := np,
              words := tmk 0 ((List.range np).map (fun w => (w, BitVec.ofNat 32 (word w)))),
              lock := tmk 0 ((List.range np).map (fun w => (w, code w))),
              ranges := tmk (0, 0) (rs.map (fun r => (r.1, r.2.1, r.2.2))),
              id := leAt b 16 4, ver := leAt b 20 4, cost := total,
              blocks := (stages.map (stageBlocks word)).foldl (· + ·) 0, table := [], signer := signer,
              encrypted := enc }

end Sys2Proof.Machine
end

