-- ==== Sys2Proof/Machine/Fx.lean ====
section
/-! DEFINITION. The effect engines: running a frame, loading, clearing and testing, parameter writes and sets,
bypass, failures and the delay store (R77–R108). -/

namespace Sys2Proof.Machine

open Sys2Proof

def eng (s : State) (e : Nat) : Engine := tget Engine.reset s.fx.eng e

def setEng (s : State) (e : Nat) (x : Engine) : State :=
  { s with fx := { s.fx with eng := tput Engine.reset s.fx.eng e x } }

def engines : List Nat := List.range 16

/-- Half of an engine, 0 for MXA. -/
def engHalf (e : Nat) : Nat := e / 8

def halfIn (s : State) (h : Nat) : Bool := if h = 0 then s.mx.inA else s.mx.inB

/-! ### Running a frame (R77–R81) -/

/-- The engine has a frame to run: it is RUNNING and has not failed. -/
def engRuns (x : Engine) : Bool := x.st == .running && x.failure.isNone && x.recipe.isSome

/-- ENGINE_INPUTS_COMPLETE (R23): the engine's input sinks are complete and it begins. -/
def startEngine (s : State) (e : Nat) : State :=
  let s := each ((List.range 8).map (fun i => 0x730 + 8 * e + i)) s completeSink
  setEng s e { eng s e with started := true }

def execEngineInputsComplete (t : Frac) (e : Fin 16) (s : State) : Res :=
  let s := atT s t
  .next (if !computing s || !engRuns (eng s e.val) || (eng s e.val).started then s else startEngine s e.val)

/-- The engine's frame as a whole (R79, R81): outputs, state, saturations and clips. -/
def runEngine (s : State) (e : Nat) : State :=
  let x := eng s e
  match x.recipe with
  | none => s
  | some r =>
    let slots : Tbl Int := tmk 0 ((List.range 8).map (fun i => (i, engineInput s (0x730 + 8 * e + i) / 8)))
    let f := runStages r (reg s .fxEngBypass e).toNat 0 r.stages x.stages slots
    let ys := (List.range 8).map (fun o => tget 0 f.1 (8 + o))
    let clipped := (ys.zip (List.range 8)).filter (fun y => sat32 (8 * y.1) != 8 * y.1)
    let note := match x.clipNote, clipped with
      | none, y :: _ => if x.clips = 0 then some (y.2, y.1) else none
      | n, _ => n
    setEng s e { x with stages := f.2.1, out := ys.map (fun y => sat32 (8 * y)), complete := true,
                        sat := satTo 0xFFFF (x.sat + f.2.2), clips := satTo 0xFFFF (x.clips + clipped.length),
                        clipNote := note }

/-- Single-bit errors of the delay store, corrected and counted (R92). -/
def delayCorrected (s : State) (n : Nat) : State :=
  { s with fx := { s.fx with eccCorrected := satTo 0xFFFF (s.fx.eccCorrected + n) } }

/-- ENGINE_FRAME_COMPLETE (R79, R92). -/
def execEngineFrameComplete (t : Frac) (e : Fin 16) (corrected : Nat) (s : State) : Res :=
  let s := atT s t
  let x := eng s e.val
  .next (
    if !computing s || !engRuns x || !x.started || x.complete then s
    else delayCorrected (runEngine s e.val) corrected)

/-- What remains of the engines' frame at its drain. -/
def finishEngines (s : State) : State :=
  each engines s (fun s e =>
    let x := eng s e
    if !engRuns x || x.complete then s
    else runEngine (if x.started then s else startEngine s e) e)

/-- Engines with work in the frame that have not completed it (R39). -/
def incompleteEngines (s : State) : Nat := maskOf 16 (fun e => engRuns (eng s e) && !(eng s e).complete)

/-- The clip event of one engine's frame. -/
def reportEngineClip (s : State) (e : Nat) : State :=
  match (eng s e).clipNote with
  | none => s
  | some c => emit (setEng s e { eng s e with clipNote := none }) 0x0207 e (pay [(0, 1, c.1), (4, 4, toU 32 c.2)])

/-- ENGINE_CLIP of each engine's first clip (R79). -/
def reportEngineClips (s : State) : State := each engines s reportEngineClip

/-- The samples of the engine sources at a strobe (R77). -/
def engineSources (s : State) : Tbl Int :=
  engines.foldl (fun t e =>
    ((eng s e).out.zip (List.range 8)).foldl (fun t y => tput 0 t (0x1930 + 8 * e + y.2) y.1) t) []

/-- After the capture: a new frame for every engine; one that does not run carries 0 from the next strobe. -/
def engineStrobe (s : State) : State :=
  each engines s (fun s e =>
    let x := eng s e
    setEng s e { x with started := false, complete := false, oldBypass := none, out := if x.st = .running then x.out else [] })

/-- ENGINE_FAILURE (R105, step 1). -/
def execEngineFailure (t : Frac) (e : Fin 16) (cause : FailCause) (stage : Fin 32) (s : State) : Res :=
  let s := atT s t
  let x := eng s e.val
  .next (
    if !computing s || !engRuns x || x.complete then s
    else
      let code := match cause with
        | .residue => 1
        | .recipeMemory => 2
        | .stateMemory => 3
      setEng s e.val { x with failure := some (code, stage.val, s.fr.fn - 1), errors := inc32 x.errors })

/-- The word at sample `n` of the blocks of stage `k` of a recipe: its cell in the stage's lines, and its block and
sample in the half's delay store, through the block table (R90). -/
def delayWord (r : Recipe) (k n : Nat) : Option (Nat × Nat × Nat) :=
  let word (w : Nat) := (tget 0 r.words w).toNat
  match r.stages[k]? with
  | none => none
  | some st => (lineCell word st n).map (fun cell =>
      (cell, r.table.getD (blockBase word r.stages k + n / 1024) 0, n % 1024))

/-- DELAY_UNCORRECTABLE (R92), at the word `n` samples into the blocks of a stage's lines: it reads 0 and is written
back as 0, and is counted and reported once until the line writes it again. -/
def execDelayUncorrectable (t : Frac) (e : Fin 16) (stage : Fin 32) (n : Nat) (s : State) : Res :=
  let s := atT s t
  let x := eng s e.val
  .next (
    match x.recipe.bind (fun r => delayWord r stage.val n), x.stages[stage.val]? with
    | some w, some st =>
      if !engRuns x || !computing s || x.complete || st.lost.contains w.1 || bit (reg s .fxEngBypass e.val) stage.val
      then s
      else
        let st := { st with line := tput 0 st.line w.1 0, lost := st.lost ++ [w.1] }
        let s := setEng s e.val { x with stages := x.stages.set stage.val st }
        let s := { s with fx := { s.fx with eccUncorrected := inc16 s.fx.eccUncorrected } }
        emit s 0x0208 e.val (pay [(0, 2, w.2.1), (2, 2, w.2.2), (4, 1, stage.val)])
    | _, _ => s)

/-! ### Staged operations on engines -/

/-- The item is a swap or a clear of engine `e`; a swap. -/
def onEngine (e : Nat) : Item → Bool
  | .swap n _ => n == e
  | .clear n => n == e
  | _ => false

def isSwap (e : Nat) : Item → Bool
  | .swap n _ => n == e
  | _ => false

/-- Every staged item, bound or held for the pair. -/
def allItems (s : State) : List Item := s.fr.staged.map (·.item) ++ s.pl.mine.map (·.item)

/-- Blocks an engine's recipe holds. -/
def heldBlocks (x : Engine) : Nat := (x.recipe.map (·.blocks)).getD 0

/-- Free blocks of a half (R91). -/
def freeBlocks (s : State) (h : Nat) : Nat :=
  if !halfIn s h then 0
  else
    let used := ((engines.filter (fun e => engHalf e == h)).map (fun e => heldBlocks (eng s e))).foldl (· + ·) 0
    let staged := ((allItems s).map (fun i => match i with
      | .swap e r => if engHalf e = h then r.blocks else 0
      | _ => 0)).foldl (· + ·) 0
    1024 - (used + staged)

/-- Blocks of a half that a loaded recipe or a staged load holds (R91). -/
def takenBlocks (s : State) (h : Nat) : List Nat :=
  (engines.filter (fun e => engHalf e == h)).flatMap (fun e => ((eng s e).recipe.map (·.table)).getD [])
    ++ (allItems s).flatMap (fun i => match i with
      | .swap e r => if engHalf e = h then r.table else []
      | _ => [])

/-- The block table of a load (R90, R91): which free blocks the module takes is the environment's choice, here an
order of preference; blocks that it does not name follow in rising order. [log: DESIGN CHOICE 95] -/
def allocate (s : State) (h : Nat) (prefer : List (Fin 1024)) (n : Nat) : List Nat :=
  let taken := takenBlocks s h
  ((prefer.map (·.val) ++ List.range 1024).foldl
    (fun l b => if l.length < n && !taken.contains b && !l.contains b then l ++ [b] else l) [])

/-- ENGINE_STATE of an FX_LOAD (R89, R103). -/
def loadBarred (s : State) (e : Nat) : Bool :=
  let x := (eng s e).st
  x == .failed || x == .unavailable || x == .testing || outStaged s (engHalf e)

/-- An operation of R447 as the peer is told of it. -/
def meetItem (s : State) (o : Owner) (kind unit id ver : Nat) : PeerItem :=
  { seq := BitVec.ofNat 32 s.pl.seqOut, owner := o,
    body := .meet (Fin.ofNat 4 kind) (BitVec.ofNat 16 unit) (BitVec.ofNat 32 id) (BitVec.ofNat 32 ver)
      (BitVec.ofNat 48 (pfnNow s)) }

/-- Stage a swap, clear, envelope load or envelope clear: in PAIRED it waits for the peer's, unless that has
come (R447). -/
def stageMeet (s : State) (o : Owner) (i : Item) (kind unit id ver : Nat) : State :=
  if s.pl.st != .paired then stage s o i
  else
    let same (x : Nat × Nat × Nat × Nat × Nat × Nat) : Bool :=
      x.2.1 == kind && x.2.2.1 == unit && x.2.2.2.1 == id && x.2.2.2.2.1 == ver
        && s.fr.fn < x.2.2.2.2.2 + 10 * frameHz s.fr.rate
    let s := { s with pl := { s.pl with
      told := s.pl.told ++ [meetItem s o kind unit id ver] } }
    match s.pl.theirs.find? same with
    | none => holdMirror s o i (some (kind, unit, id, ver))
    | some x =>
      stageAt { s with pl := { s.pl with theirs := s.pl.theirs.filter (fun y => !same y),
                                         seqOut := (s.pl.seqOut + 1) % 2 ^ 32 } } o
        (Nat.max s.fr.fn x.2.2.2.2.2 + 2) i

/-! ### Parameter sets (R93–R96) -/

def shadow (x : Engine) : Owner → Shadow
  | .host => x.shHost
  | .tw => x.shTw
  | .peer => x.shPeer

def setShadow (x : Engine) (o : Owner) (h : Shadow) : Engine :=
  match o with
  | .host => { x with shHost := h }
  | .tw => { x with shTw := h }
  | .peer => { x with shPeer := h }

def paddr (s : State) : Owner → Paddr
  | .host => s.fx.pHost
  | .tw => s.fx.pTw
  | .peer => s.fx.pPeer

def setPaddr (s : State) (o : Owner) (p : Paddr) : State :=
  { s with fx := match o with
      | .host => { s.fx with pHost := p }
      | .tw => { s.fx with pTw := p }
      | .peer => { s.fx with pPeer := p } }

/-- A write of FX_PADDR, never refused (R302). -/
def writePaddr (s : State) (o : Owner) (v : Word) : State :=
  setPaddr s o { auto := bit v 31, view := bit v 30, eng := fld v 19 16, word := fld v 11 0 }

/-- ATTR of a word: 3 when there is none. -/
def wordAttr (r : Option Recipe) (w : Nat) : Nat :=
  match r with
  | some r => if w < r.nparam then tget 0 r.lock w else 3
  | none => 3

/-- FX_PATTR of a word. -/
def wordPattr (r : Option Recipe) (w : Nat) : Nat :=
  wordAttr r w + (match r with
    | some q => if w < q.nparam && isStructural q w then 4 else 0
    | none => 0)

/-- The range of a RANGED word. -/
def wordRange (r : Option Recipe) (w : Nat) : Int × Int :=
  match r with
  | some q => if wordAttr r w = 1 then tget (0, 0) q.ranges w else (0, 0)
  | none => (0, 0)

/-- The conditions of R93 on a value for word `w`. -/
def paramOk (r : Option Recipe) (w : Nat) (v : Word) : Bool :=
  let a := wordAttr r w
  let g := wordRange r w
  a != 3 && a != 2 && wordPattr r w < 4
    && (a != 1 || (g.1 ≤ sext 32 v.toNat && sext 32 v.toNat ≤ g.2))

/-- Count refused parameter writes or bypass bits; PARAM_REFUSED once per engine per frame (R93, R98). -/
def refuseParam (s : State) (e n w attr : Nat) : State :=
  let x := eng s e
  let told := x.refusedAt = s.fr.fn + 1
  let s := setEng s e { x with refused := satTo 0xFFFFFFFF (x.refused + n), refusedAt := s.fr.fn + 1 }
  if told then s else emit s 0x0206 e (pay [(0, 2, w), (2, 1, attr), (4, 4, (eng s e).refused)])

/-- Capture the attributes of the word and advance WORD (R96, R107). -/
def accessWord (s : State) (o : Owner) (p : Paddr) : State :=
  let r := (eng s p.eng).recipe
  let g := wordRange r p.word
  let s := { s with fx := { s.fx with pattr := wordPattr r p.word, pmin := BitVec.ofInt 32 g.1,
                                      pmax := BitVec.ofInt 32 g.2 } }
  if p.auto then setPaddr s o { p with word := (p.word + 1) % 4096 } else s

/-- A read through FX_PDATA (R96). -/
def readPdata (s : State) (o : Owner) : State × Word :=
  let p := paddr s o
  let x := eng s p.eng
  let a := wordAttr x.recipe p.word
  let v : Word :=
    if a = 2 ∨ a = 3 then 0
    else if p.view then tget 0 (shadow x o).words p.word
    else (x.recipe.map (fun r => tget 0 r.words p.word)).getD 0
  (accessWord s o p, v)

/-- A write through FX_PDATA by an owner of the engine (R93). -/
def writePdata (s : State) (o : Owner) (v : Word) : State :=
  let p := paddr s o
  let x := eng s p.eng
  let s := accessWord s o p
  if paramOk x.recipe p.word v then
    let h := shadow x o
    setEng s p.eng (setShadow x o { words := tput 0 h.words p.word v,
                                    dirty := if h.dirty.contains p.word then h.dirty else h.dirty ++ [p.word] })
  else refuseParam s p.eng 1 p.word (wordPattr x.recipe p.word)

/-- The busy rule and the owner for a write of the FX window (R99, R303). -/
def windowWrite (s : State) (src : Owner) (off : Nat) (gs : List Nat) (f : State → State) : State :=
  let lack := gs.filter (fun g => !owns s src g)
  if held s then discard s src
  else if !lack.isEmpty then ownerRefuse s src off lack
  else f s

/-- FX_PDATA_ACCESS. -/
def execFxPdataAccess (t : Frac) (src : Owner) (w : Option Word) (s : State) : Res :=
  let s := atT s t
  .next (match w with
    | none =>
      let r := readPdata s src
      reading r.1 r.2
    | some v => windowWrite s src 0x20014 [1 + (paddr s src).eng] (fun s => writePdata s src v))

/-- Engines with a set of an owner staged and not applied, the sets of a recalled scene included (R94, R307). -/
def stagedSets (s : State) (o : Owner) : List Nat :=
  (s.fr.staged.filter (·.owner == o)).flatMap (fun i => match i.item with
      | .params l _ => l.map Prod.fst
      | _ => [])
    ++ (s.pl.mine.filter (·.owner == o)).flatMap (fun i => match i.item with
      | .params l _ => l.map Prod.fst
      | _ => [])
    ++ (s.mx.queue.filter (·.owner == o)).flatMap (fun c => (c.scene.map (fun r => r.sets.map Prod.fst)).getD [])

/-- The words an owner has written to a shadow since its previous commit. -/
def dirtySet (x : Engine) (o : Owner) : Tbl Word :=
  let h := shadow x o
  tmk (0 : Word) [] ++ ((List.range 4096).filter h.dirty.contains).map (fun w => (w, tget 0 h.words w))

/-- A write of FX_PCOMMIT by an owner of every engine it names (R94). Of the 2 µs that staging may take the model takes
none: the set is bound at the write, and FX_PCOMMIT_STATUS.BUSY never reads 1. [log: DESIGN CHOICE 95] -/
def pcommit (s : State) (o : Owner) (v : Word) : State :=
  let es := engines.filter (fun e => bit v e)
  let busyE := stagedSets s o
  if es.isEmpty then s
  else if es.any (fun e => busyE.contains e || (eng s e).st != .running) then
    { s with fx := { s.fx with pcRefused := true } }
  else
    let item : Item := .params (es.map (fun e => (e, dirtySet (eng s e) o))) (bit v 31)
    let s := each es s (fun s e =>
      let x := eng s e
      setEng s e (setShadow x o { shadow x o with dirty := [] }))
    if o != .peer && es.all (fun e => mirrors s (1 + e)) then holdMirror s o item none else stage s o item

/-- FX_PCOMMIT. -/
def execFxPcommit (t : Frac) (src : Owner) (v : Word) (s : State) : Res :=
  .next (windowWrite (atT s t) src 0x20024 ((engines.filter (fun e => bit v e)).map (· + 1))
    (fun s => pcommit s src v))

/-- PARAM_DISCARDED for each set of engine `e` that one item carries. -/
def dropSet (e : Nat) : Item → Option Item
  | .params l n =>
    let r := l.filter (fun x => x.1 != e)
    if r.isEmpty then none else some (.params r n)
  | i => some i

/-- Discard every staged parameter set of an engine (R100, R101, R105, R106). -/
def discardSets (s : State) (e cause : Nat) : State :=
  let has (i : Item) : Bool := match i with
    | .params l _ => l.any (fun x => x.1 == e)
    | _ => false
  let owners := (s.fr.staged.filter (fun i => has i.item)).map (·.owner)
    ++ (s.pl.mine.filter (fun i => has i.item)).map (·.owner)
    ++ (s.mx.queue.filter (fun c => (c.scene.map (fun r => r.sets.any (fun x => x.1 == e))).getD false)).map (·.owner)
  let s := { s with
    fr := { s.fr with staged := s.fr.staged.filterMap (fun i => (dropSet e i.item).map (fun x => { i with item := x })) },
    pl := { s.pl with mine := s.pl.mine.filterMap (fun i => (dropSet e i.item).map (fun x => { i with item := x })) },
    mx := { s.mx with queue := s.mx.queue.map (fun c => { c with scene := c.scene.map (fun r =>
      { r with sets := r.sets.filter (fun x => x.1 != e) }) }) } }
  each owners s (fun s o => emit s 0x0205 e (pay [(0, 1, cause), (1, 1, ownerCode o)]))

/-- Set each owner's shadow to the words of the recipe (R100). -/
def loadShadows (x : Engine) : Engine :=
  let h : Shadow := { words := (x.recipe.map (·.words)).getD [], dirty := [] }
  { x with shHost := h, shTw := h, shPeer := h }

/-! ### Engine items at a boundary (R102) -/

/-- R105, step 2. -/
def failEngine (s : State) (e : Nat) : State :=
  match (eng s e).failure with
  | none => s
  | some f =>
    let s := setEng s e { eng s e with st := .failed, failure := none }
    let s := discardSets s e 2
    let any := (allItems s).any (onEngine e)
    let s := unstage s (onEngine e)
    emit s 0x0203 e (pay [(0, 1, f.1), (1, 1, f.2.1), (2, 1, b2n any), (4, 6, f.2.2)])

def failEngines (s : State) : State := each engines s failEngine

/-- A swap (R100, step 4). On an engine that is neither RUNNING nor EMPTY it does nothing: a load staged on an EMPTY
engine before FX_TEST began is not cancelled and falls away so while the test runs. [log: DESIGN CHOICE 95] -/
def applySwap (s : State) (e : Nat) (r : Recipe) : State :=
  let x := eng s e
  if x.st != .running && x.st != .empty then s
  else
    let s := discardSets s e 1
    let s := setEng s e (loadShadows { x with st := .running, recipe := some r, stages := stagesInit r, clips := 0,
                                              oldBypass := none, sat := 0, clipNote := none, lat := declaredLat r })
    let s := setReg s .fxEngBypass e 0
    emit s 0x0201 e (pay [(0, 4, r.id), (4, 4, r.ver), (8, 2, r.cost), (10, 2, r.blocks),
      (12, 1, b2n (r.signer != 0xFF) + 2 * b2n r.encrypted + 4 * b2n x.recipe.isSome)])

/-- Free an engine's recipe and everything that goes with it. -/
def emptyEngine (s : State) (e : Nat) (st : EngState) : State :=
  let s := setEng s e (loadShadows { eng s e with st := st, recipe := none, stages := [], clips := 0, sat := 0,
                                                  oldBypass := none, clipNote := none, lat := 0 })
  setReg s .fxEngBypass e 0

/-- ENGINE_CLEARED for what an engine held. -/
def clearedEvent (s : State) (e : Nat) (x : Engine) : State :=
  emit s 0x0202 e (pay [(0, 4, (x.recipe.map (·.id)).getD 0), (4, 2, heldBlocks x)])

/-- A clear (R101); a FAILED engine stays FAILED (R106). One that comes due while the engine is TESTING, or UNAVAILABLE
since its half left service, falls away without an event. [log: DESIGN CHOICE 95] -/
def applyClear (s : State) (e : Nat) : State :=
  let x := eng s e
  if x.st == .testing || x.st == .unavailable then s
  else
    let s := discardSets s e 1
    clearedEvent (emptyEngine s e (if x.st = .failed then .failed else .empty)) e x

/-- φ of the stages whose PHASE0 a set writes (R87). -/
def rephase (r : Recipe) (ws : Tbl Word) (ss : List StageSt) : List StageSt :=
  (r.stages.zip ss).map (fun p =>
    let w := p.1.pbase + 1
    if p.1.type = 9 ∧ p.1.size ≠ 2 ∧ (tkeys ws).contains w then
      { p.2 with reg := tput 0 p.2.reg 0 (((tget 0 ws w).toNat : Nat) : Int) }
    else p.2)

/-- Apply one engine's words (R95). -/
def applyWords (s : State) (e : Nat) (ws : Tbl Word) : State :=
  let x := eng s e
  match x.recipe with
  | none => s
  | some r =>
    let r := { r with words := ws.foldl (fun t p => tput 0 t p.1 p.2) r.words }
    setEng s e { x with recipe := some r, stages := rephase r ws x.stages, lat := declaredLat r }

/-- Apply the sets of one FX_PCOMMIT (R95): words of another owner applied at this boundary are superseded.
`seen` lists the words applied so far at the boundary, as (engine, word, owner). -/
def applyParams (s : State) (o : Owner) (sets : List (Nat × Tbl Word)) (notify : Bool)
    (seen : List (Nat × Nat × Owner)) : State × List (Nat × Nat × Owner) :=
  let live := sets.filter (fun e => (eng s e.1).st == .running)
  let words := live.flatMap (fun e => (tkeys e.2).map (fun w => (e.1, w)))
  let lost := words.filterMap (fun p => (seen.find? (fun q => q.1 == p.1 && q.2.1 == p.2 && q.2.2 != o)))
  let s := each lost s (fun s q => superseded s q.2.2 o 0x20014 (1 + q.1))
  let s := each live s (fun s e => applyWords s e.1 e.2)
  let s := if notify && !live.isEmpty then
      emit s 0x0204 noUnit (pay [(0, 2, maskOf 16 (fun e => live.any (fun x => x.1 == e))), (2, 2, words.length),
                                 (4, 1, ownerCode o)])
    else s
  (s, words.map (fun p => (p.1, p.2, o)) ++ seen.filter (fun q => !words.contains (q.1, q.2.1)))

/-- Apply a bypass mask (R98): bits of NOBYP stages and beyond NSTAGE are ignored and counted. PARAM_REFUSED of a bypass
bit names word 0xFFFF, which has no attribute, and its byte 2 is 0. [log: DESIGN CHOICE 95] -/
def applyBypass (s : State) (e : Nat) (v : Word) : State :=
  let stages := ((eng s e).recipe.map (·.stages)).getD []
  let ok (k : Nat) : Bool := match stages[k]? with
    | some st => !stageNobyp st
    | none => false
  let bad := ((List.range 32).filter (fun k => bit v k && !ok k)).length
  let x := eng s e
  let s := setEng s e { x with oldBypass := some (x.oldBypass.getD (reg s .fxEngBypass e)) }
  let s := setReg s .fxEngBypass e (BitVec.ofNat 32 (maskOf 32 (fun k => bit v k && ok k)))
  if bad = 0 then s else refuseParam s e bad 0xFFFF 0

/-- An engine's stages begin anew. -/
def rateEngine (s : State) (e : Nat) : State :=
  let x := eng s e
  match x.recipe with
  | none => s
  | some r => setEng s e { x with stages := stagesInit r }

/-- R104: stage state and lines zeroed, φ at PHASE0, at a frame-rate change. -/
def rateEngines (s : State) : State := each engines s rateEngine

/-- Every loaded recipe, and every staged one, fits B_E at a rate (R29, R63, R88). -/
def recipesFit (s : State) (code : Nat) : Bool :=
  engines.all (fun e => ((eng s e).recipe.map (fun r => decide (r.cost ≤ engineBudget code))).getD true)
    && (allItems s).all (fun i => match i with
      | .swap _ r => r.cost ≤ engineBudget code
      | _ => true)

/-! ### The commands -/

/-- FX_LOAD, step 1 of R100; a state that refuses it holds no busy interval (R486). -/
def execFxLoad (t : Frac) (c : Cmd) (d : Dma) (s : State) : Res :=
  let e := pwN c 2 % 16
  runCmd s t 0x0020 c [1 + e] [(0, wordAll), (1, 0xFFFFFF), (2, 0x10F)] (addrOk c 0 (fldN (pwN c 1) 23 0))
    (fun s n =>
      if loadBarred s e then finish s n stEngineState noIndex
      else longLoad s 0x0020 n c d (fun b => .fxLoad e (bitN (pwN c 2) 8) b c.src))

/-- The stage costs that a body's descriptors name. -/
def namedCost (b : Bytes) : Nat :=
  (((chunks 8 (leAt b 6 1) (b.drop 32)).map parseStage).map stageCost).foldl (· + ·) 0

/-- Steps 2 and 3 of R100 on a body whose container, if any, has passed: the status and index, or the recipe. -/
def checkLoad (s : State) (e : Nat) (body : Bytes) (signer : Nat) (enc : Bool) : Except (Nat × Nat) Recipe :=
  match parseRecipe body (engineBudget s.fr.rate) signer enc with
  | .error x => .error x
  | .ok r =>
    if freeBlocks s (engHalf e) < r.blocks then .error (stDelayFull, noIndex)
    else if loadBarred s e then .error (stEngineState, noIndex)
    else .ok r

/-- What a refused body leaves: the cost when the recipe is over its budget (R29). -/
def noteLoad (s : State) (body : Bytes) (status : Nat) : State :=
  if status = stOverBudget ∧ engineBudget s.fr.rate < namedCost body then noteRefusal s 3 (costQueue s).1 else s

/-- The end of a load (R100, steps 2 and 3; R371): the commit of a counter that it raises may fail (R373). -/
def loadEnd (s : State) (us : Word) (e : Nat) (container : Bool) (img : Bytes) (src : Owner) (nvOk : Bool)
    (prefer : List (Fin 1024)) : State :=
  let accept (s : State) (r : Recipe) : State :=
    let r := { r with table := allocate s (engHalf e) prefer r.blocks }
    endLong (stageMeet s src (.swap e r) 0 e r.id r.ver) us stOk 0
  if container then
    match openContainer s 1 img with
    | .error x => endLong (refuseImage s img x.1 x.2) us x.1 noIndex
    | .ok body =>
      let h := header img
      match checkLoad s e body h.signer (encrypted h) with
      | .error x => endLong (refuseImage (noteLoad s body x.1) img x.1 7) us x.1 x.2
      | .ok r => if raises s h && !nvOk then endLong s us stNvFail noIndex else accept (advanceCtr s h) r
  else
    match checkLoad s e img 0xFF false with
    | .error x => endLong (noteLoad s img x.1) us x.1 x.2
    | .ok r => accept s r

/-- FX_LOAD_STAGED. -/
def execFxLoadStaged (t : Frac) (us : Word) (nvOk : Bool) (blocks : List (Fin 1024)) (s : State) : Res :=
  let s := atT s t
  .next (match s.hl.long with
    | some (.fxLoad e k img src) => loadEnd s us e k img src nvOk blocks
    | _ => s)

/-- FX_CLEAR (R101). -/
def execFxClear (t : Frac) (c : Cmd) (s : State) : Res :=
  let e := pwN c 0 % 16
  runCmd s t 0x0021 c [1 + e] [(0, 0xF)] true (fun s n =>
    let x := eng s e
    if x.st == .testing || x.st == .unavailable then finish s n stEngineState noIndex
    else
      let b := bindTo s
      finish (stageMeet s c.src (.clear e) 1 e ((x.recipe.map (·.id)).getD 0) ((x.recipe.map (·.ver)).getD 0)) n stOk b)

/-- FX_TEST (R106): on an engine that holds a recipe, it is freed first. -/
def execFxTest (t : Frac) (c : Cmd) (s : State) : Res :=
  let e := pwN c 0 % 16
  runCmd s t 0x0022 c [1 + e] [(0, 0xF)] true (fun s n =>
    let x := eng s e
    if x.st != .empty && x.st != .failed then finish s n stEngineState noIndex
    else
      let s :=
        if x.recipe.isSome then
          clearedEvent (unstage (discardSets (emptyEngine s e .failed) e 2) (onEngine e)) e x
        else s
      startLong (setEng s e { eng s e with st := .testing }) 0x0022 n (.fxTest e))

/-- ENGINE_TEST_DONE (R106): a pass leaves EMPTY, a fail FAILED. An engine whose half has left service meanwhile stays
UNAVAILABLE, and returns (R103) as the result says. [log: DESIGN CHOICE 95] -/
def execEngineTestDone (t : Frac) (us : Word) (r : TestResult) (vector : Word) (s : State) : Res :=
  let s := atT s t
  .next (match s.hl.long with
    | some (.fxTest e) =>
      let code := match r with
        | .pass => 0
        | .arithmetic => 1
        | .memory => 2
      let s := setEng s e (
        if halfIn s (engHalf e) then { eng s e with st := if code = 0 then .empty else .failed }
        else { eng s e with st := .unavailable, keepFailed := decide (code ≠ 0) })
      let s := emit s 0x0209 e (pay [(0, 1, code), (4, 4, if code = 0 then 0 else vector.toNat)])
      endLong s us stOk 0
    | _ => s)

end Sys2Proof.Machine
end

