-- ==== Sys2Proof/Machine/Series.lean ====
section
/-! DEFINITION. The elementary functions the rules use (e^x, tan, sin, cos, 10^x, log10): fixed-point sums of their
series with 128 fraction bits, rounded once to binary32, and the second-order filters designed by the bilinear
transform with prewarping (R128, R145–R153, R181). -/

namespace Sys2Proof.Machine.Series

open Sys2Proof Sys2Proof.Machine

/-- One, in units of 2^-128. -/
def unit : Int := 2 ^ 128

/-- π, in units of 2^-128. [log: DEDUCED 35] -/
def pi : Int := 1069028584064966747859680373161870783300

/-- The sum of `n` terms, each the one before times `z` over the divisor of its place `k`. -/
def sum (divisor : Nat → Nat) (z : Int) : Nat → Nat → Int → Int
  | 0, _, _ => 0
  | n + 1, k, term => term + sum divisor z n (k + 1) (term * z / (unit * divisor k))

def sin (x : Int) : Int := sum (fun k => (2 * k + 2) * (2 * k + 3)) (-(x * x / unit)) 24 0 x
def cos (x : Int) : Int := sum (fun k => (2 * k + 1) * (2 * k + 2)) (-(x * x / unit)) 24 0 unit
def tan (x : Int) : Int := sin x * unit / cos x

/-- 1 − e^(−x), without the loss of the subtraction. -/
def decay (x : Int) : Int := sum (fun k => k + 2) (-x) 40 0 x

/-- The sine of a phase in 2^-32 turn, by its quadrant. -/
def sinTurn (phase : Nat) : Int :=
  let a : Int := pi * ((phase % 2 ^ 30 : Nat) : Int) / 2 ^ 31
  match phase / 2 ^ 30 % 4 with
  | 0 => sin a
  | 1 => cos a
  | 2 => -sin a
  | _ => -cos a

/-- A fixed-point value as binary32. -/
def toF32 (x : Int) : Word := F32.ofRatio x (2 ^ 128)

/-- A finite binary32 value in units of 2^-128. -/
def ofF32 (w : Word) : Int := F32.units w / 2 ^ 21

/-- 1 − e^(−x) for x ≥ 0: one rounded result, as the coefficients of R145 need. -/
def decayF (x : Word) : Word := toF32 (decay (ofF32 x))

def tanF (x : Word) : Word := toF32 (tan (ofF32 x))

/-- The sine and the cosine of a pilot phase (R153). -/
def sinPhase (phase : Nat) : Word := toF32 (sinTurn phase)
def cosPhase (phase : Nat) : Word := toF32 (sinTurn (phase + 2 ^ 30))

/-- The largest `r` below 2^n with `r^20 × m ≤ 2^1920`: the 20th root of `1 ÷ m` in units of 2^-96. -/
def rootBits (m : Nat) : Nat → Nat → Nat
  | 0, r => r
  | n + 1, r => rootBits m n (if (r + 2 ^ n) ^ 20 * m ≤ 2 ^ 1920 then r + 2 ^ n else r)

/-- 10^(−d ÷ 20): an attenuation of `d` dB. -/
def attenuation (d : Nat) : Word := F32.ofRatio (rootBits (10 ^ d) 97 0 : Nat) (2 ^ 96)

/-- −80 log10 of a gain from 0 to 1, rounded to nearest and at most 255: quarters of a decibel (R150, R169). -/
def quarterDb (gain : Word) : Nat :=
  let m := F32.mag gain ^ 160
  ((List.range 255).find? (fun n => 2 ^ (149 * 160) ≤ m * 10 ^ (2 * n + 1))).getD 255

/-! ### Second-order sections -/

/-- Coefficients in units of 2^-60, of a filter whose a0 is 1. -/
structure Coef where
  b0 : Int
  b1 : Int
  b2 : Int
  a1 : Int
  a2 : Int
  deriving DecidableEq, Repr

/-- tan(π × corner ÷ fs), the prewarped corner, in units of 2^-128. -/
def warp (corner fs : Nat) : Int := tan (pi * (corner : Int) / (fs : Int))

/-- √2 in units of 2^-128. -/
def rootTwo : Int := ((isqrtAux (2 * 2 ^ 256) 129 0 : Nat) : Int)

/-- A quotient of fixed-point values as a coefficient, rounded to nearest. -/
def coef (n d : Int) : Int := (2 * n * 2 ^ 60 + d) / (2 * d)

/-- The second-order Butterworth low-pass. -/
def lowPass2 (corner fs : Nat) : Coef :=
  let k := warp corner fs
  let k2 := k * k / unit
  let r := rootTwo * k / unit
  let d := unit + r + k2
  { b0 := coef k2 d, b1 := coef (2 * k2) d, b2 := coef k2 d, a1 := coef (2 * (k2 - unit)) d, a2 := coef (unit - r + k2) d }

/-- The second-order Butterworth high-pass. -/
def highPass2 (corner fs : Nat) : Coef :=
  let k := warp corner fs
  let k2 := k * k / unit
  let r := rootTwo * k / unit
  let d := unit + r + k2
  { b0 := coef unit d, b1 := coef (-2 * unit) d, b2 := coef unit d, a1 := coef (2 * (k2 - unit)) d,
    a2 := coef (unit - r + k2) d }

/-- The first-order high-pass. -/
def highPass1 (corner fs : Nat) : Coef :=
  let k := warp corner fs
  let d := unit + k
  { b0 := coef unit d, b1 := coef (-unit) d, b2 := 0, a1 := coef (k - unit) d, a2 := 0 }

/-- A quotient rounded to nearest. -/
def nearest (n d : Int) : Int := (2 * n + d) / (2 * d)

/-- One frame of a filter (R128, R181): outputs carry 24 fraction bits below the LSB and saturate at 64 bits. -/
def filter (k : Coef) (s : Iir) (x : Int) : Iir :=
  let y := nearest (2 ^ 24 * (k.b0 * x + k.b1 * s.x1 + k.b2 * s.x2) - k.a1 * s.y1 - k.a2 * s.y2) (2 ^ 60)
  { x1 := x, x2 := s.x1, y1 := clampI (-(2 ^ 63)) (2 ^ 63 - 1) y, y2 := s.y1 }

end Sys2Proof.Machine.Series
end

