-- ==== Sys2Proof/Machine/Power.lean ====
section
/-! DEFINITION. The power stage: channel states, starts and stops, faults and their recovery, quiet mode and
idle power-down (R109–R142). -/

namespace Sys2Proof.Machine

open Sys2Proof

/-! ### Channels and dies (R109) -/

def psCh (s : State) (c : Nat) : PsCh := tget PsCh.reset s.ps.ch c

/-- Channels of a die; the first four are its bridges. -/
def dieChannels : PowerDie → List Nat
  | .a => [0, 1, 2, 3, 8, 9]
  | .b => [4, 5, 6, 7, 10, 11]

/-- UNIT of a die in power-stage events (R142), and its domain. -/
def dieNum : PowerDie → Nat
  | .a => 0
  | .b => 1

def dieDom (d : PowerDie) : Nat := domPWRA + dieNum d

def dieOf (c : Nat) : PowerDie := if (dieChannels .a).contains c then .a else .b

def die (s : State) : PowerDie → Die
  | .a => s.ps.dieA
  | .b => s.ps.dieB

def setDie (s : State) (d : PowerDie) (x : Die) : State :=
  match d with
  | .a => { s with ps := { s.ps with dieA := x } }
  | .b => { s with ps := { s.ps with dieB := x } }

/-- A channel state that counts toward the idle hold (R135). -/
def idleState : ChState → Bool
  | .quiet | .off | .latched => true
  | _ => false

/-- Every channel of a die is QUIET, OFF or LATCHED (R135). -/
def dieIdle (s : State) (d : PowerDie) : Bool := (dieChannels d).all (fun c => idleState (psCh s c).st)

/-- The idle hold of a die follows its channels (R135). -/
def followIdle (s : State) (d : PowerDie) : State :=
  let x := die s d
  setDie s d { x with idleSince := if dieIdle s d && domOn s (dieDom d) then some (x.idleSince.getD (nowTicks s)) else none }

/-- A channel changes; the idle hold of its die follows. -/
def setPsCh (s : State) (c : Nat) (x : PsCh) : State :=
  followIdle { s with ps := { s.ps with ch := tput PsCh.reset s.ps.ch c x } } (dieOf c)

/-- Sink and output-sense source of a channel (R109). -/
def psSink (c : Nat) : Nat := 0x618 + c
def psSense (c : Nat) : Nat := 0x19B0 + c

/-- PS_CH_STATE.STATE (R118). -/
def chStateCode : ChState → Nat
  | .off => 0
  | .starting => 1
  | .run => 2
  | .quiet => 3
  | .muted => 4
  | .hiccup => 5
  | .latched => 6
  | .domainOff => 7
  | .stopping => 8

/-- Count a discarded write or a refused REARM (R141). -/
def psRefuse (s : State) : State := { s with ps := { s.ps with refused := inc32 s.ps.refused } }

/-! ### Ramps of the channel gain (R120, R121, R136) -/

/-- Gain 1 in units of 2^-30. -/
def gainOne : Int := 2 ^ 30

/-- The value of a slope at time `now`, rounded down. [log: DESIGN CHOICE 105] -/
def Slope.value (r : Slope) (now : Nat) : Int :=
  if now ≤ r.at_ then r.first
  else if r.at_ + r.len ≤ now then r.last
  else (r.first * ((r.at_ + r.len - now : Nat) : Int) + r.last * ((now - r.at_ : Nat) : Int)) / (r.len : Int)

/-- The gain of the start and stop ramps: 1 in RUN and QUIET, 0 where the switches are off. -/
def startGain (x : PsCh) (now : Nat) : Int :=
  match x.st with
  | .run | .quiet => gainOne
  | .starting | .stopping => (x.ramp.map (fun r => r.value now)).getD 0
  | _ => 0

/-- The gain of MUTE. -/
def muteGain (s : State) (c now : Nat) : Int :=
  match (psCh s c).muteRamp with
  | some r => r.value now
  | none => if rb s .psChCtrl c 1 then 0 else gainOne

/-- A soft start to gain 1 that begins now. -/
def riseOver (s : State) (len : Nat) : Slope := { first := 0, last := gainOne, at_ := nowTicks s, len := len }

/-- The time of the next strobe. -/
def nextStrobe (s : State) : Nat := s.fr.ticks + framePeriod s.fr.rate

/-! ### Causes (R125, R130) -/

/-- The codes of the automatic causes present for a channel. -/
def chCauses (s : State) (c : Nat) : List Nat :=
  let x := die s (dieOf c)
  (if s.ps.clock then [4] else []) ++ (if c < 8 && x.uv then [5] else []) ++ (if c < 8 && x.ov then [6] else [])
    ++ (if x.vg then [7] else []) ++ (if x.ot then [8] else [])

/-- The cause a channel enters MUTED with when causes stand already: the one present, or a free choice.
[log: DESIGN CHOICE 54] -/
def presentCause (s : State) (c : Nat) : Nat × State :=
  match chCauses s c with
  | [k] => (k, s)
  | l => let d := draw s; ((l[d.1.toNat % l.length]?).getD 0, d.2)

/-- Enter MUTED. [log: DEDUCED 55] -/
def enterMuted (s : State) (c cause : Nat) : State :=
  let x := psCh s c
  setPsCh s c { x with st := .muted, cause := cause, phase := .idle, ramp := none, startCause := 3, dcSince := none }

/-- Step 2 of R120: switching begins and the gain ramps up over 5 ms. -/
def softStart (s : State) (c cause : Nat) : State :=
  let x := psCh s c
  setPsCh s c { x with st := .starting, phase := .softStart, startCause := cause, ramp := some (riseOver s (5 * tMs)),
                       dcSt := .zero, dc := 0, dcSince := none, limited := 0 }

/-- Step 2 of R120, or MUTED while a cause stands (R126, R127). -/
def startOrMute (s : State) (c cause : Nat) : State :=
  if (chCauses s c).isEmpty then softStart s c cause
  else let p := presentCause s c; enterMuted p.2 c p.1

/-- Enter OFF (R118). [log: DEDUCED 55] -/
def enterOff (s : State) (c : Nat) : State :=
  let x := psCh s c
  setPsCh s c { x with st := .off, phase := .idle, ramp := none, dcSince := none }

/-- The switches turn off in STOPPING: OFF, with CH_STOPPED. -/
def chStopped (s : State) (c : Nat) : State := emit (enterOff s c) 0x0302 c 0

/-- Entry into RUN from STARTING, with CH_STARTED; RETRIES_DONE counts shutdowns since (R127). [log: DEDUCED 55] -/
def chStarted (s : State) (c : Nat) : State :=
  let x := psCh s c
  emit (setPsCh s c { x with st := .run, phase := .idle, ramp := none, retries := 0 }) 0x0301 c
    (pay [(0, 1, x.startCause)])

/-- A channel that switches or starts, which an automatic cause moves to MUTED (R125, R130). -/
def mutable (s : State) (c : Nat) : Bool :=
  match (psCh s c).st with
  | .starting | .run | .quiet => true
  | _ => false

/-- A channel whose switches are on. -/
def switching (s : State) (c : Nat) : Bool := mutable s c || (psCh s c).st == .stopping

/-- An automatic cause arises for one channel (R130). -/
def muteCh (cause : Nat) (s : State) (c : Nat) : State :=
  if mutable s c then enterMuted s c cause else if (psCh s c).st = .stopping then chStopped s c else s

/-- An automatic cause clears: a MUTED channel without another cause starts (R130). -/
def resumeCh (s : State) (c : Nat) : State :=
  if (psCh s c).st = .muted && (chCauses s c).isEmpty then softStart s c 3 else s

/-- The channels of a list that satisfy `p`, as a mask. -/
def chMask (l : List Nat) (p : Nat → Bool) : Nat := maskOf 12 (fun c => l.contains c && p c)

def allCh : List Nat := List.range 12

/-- A latching fault (R130). -/
def latchCh (s : State) (c cause : Nat) : State :=
  let x := psCh s c
  setPsCh s c { x with st := .latched, cause := cause, phase := .idle, ramp := none, dcSince := none, limited := 0 }

/-! ### PS_CH_CTRL at its boundary (R120, R121, R126, R132) -/

/-- The 10 ms of R126 have not passed, at a given time, since a bridge's trip. -/
def within10ms (s : State) (c now : Nat) : Bool :=
  match (psCh s c).tripAt with
  | some a => (psCh s c).cause == 1 && now < a + 10 * tMs
  | none => false

/-- REARM_REFUSED at a time, counted (R126). -/
def rearmRefused (s : State) (c reason fn : Nat) (t : Frac) : State :=
  let s := psRefuse s
  emitAt s 0x0311 c fn t (pay [(0, 1, reason), (4, 4, s.ps.refused)])

/-- VFS ÷ FB_DIV of a drive channel exceeds 2.5 V (R120). -/
def fbOver (s : State) (c : Nat) : Bool :=
  8 ≤ c && 25 * rf s .psDxFb (c - 8) 7 0 < rf s .psChCfg c 29 20

/-- EN = 1 applied (R120, R132). In STOPPING only the bit is set, and the channel ends OFF; in OFF the channel starts
whether or not its die is powered. [log: DESIGN CHOICE 105] -/
def enableCh (s : State) (c : Nat) : State :=
  let on (s : State) := setBit s .psChCtrl c 0 true
  if (psCh s c).st ≠ .off then on s
  else if !s.ps.ready || fbOver s c then psRefuse s
  else if within10ms s c (nowTicks s) then rearmRefused s c 1 s.fr.fn s.now
  else
    let s := on s
    if (chCauses s c).isEmpty then
      let x := psCh s c
      setPsCh s c { x with st := .starting, phase := .bootstrap, startCause := 1, ramp := none, dcSt := .zero, dc := 0,
                           dcSince := none, limited := 0 }
    else let p := presentCause s c; enterMuted p.2 c p.1

/-- The stop ramp: from the gain of its start to 0 over 5 ms, from the next strobe (R120, steps 4 and 5).
[log: DEDUCED 96] -/
def stopSlope (s : State) (x : PsCh) : Slope :=
  { first := startGain x (nextStrobe s), last := 0, at_ := nextStrobe s, len := 5 * tMs }

/-- EN = 0 applied (R120, R132); a channel whose die is unpowered turns OFF at once. A REARM of the same boundary is
ignored without a count. -/
def disableCh (s : State) (c : Nat) : State :=
  let s := setBit s .psChCtrl c 0 false
  let s := setPsCh s c { psCh s c with disabledAt := s.fr.fn + 1, rearm := none }
  let x := psCh s c
  match x.st with
  | .starting | .run | .quiet => setPsCh s c { x with st := .stopping, phase := .idle, ramp := some (stopSlope s x) }
  | .muted | .hiccup | .latched =>
    enterOff (setPsCh s c { x with retries := 0 }) c
  | .domainOff => enterOff s c
  | .off | .stopping => s

/-- MUTE applied: a change ramps over 5 ms from the next strobe, from the gain reached by then (R121). -/
def muteApply (s : State) (c : Nat) (m : Bool) : State :=
  if rb s .psChCtrl c 1 == m then s
  else
    let r : Slope := { first := muteGain s c (nextStrobe s), last := if m then 0 else gainOne,
                       at_ := nextStrobe s, len := 5 * tMs }
    let s := setBit s .psChCtrl c 1 m
    setPsCh s c { psCh s c with muteRamp := some r }

/-- REARM applied (R126, R132): it takes effect as the boundary window closes, unless EN = 0 is applied at the same
boundary, before it or after it. [log: DEDUCED 55] -/
def rearmCh (s : State) (c : Nat) : State :=
  let x := psCh s c
  if x.disabledAt = s.fr.fn + 1 ∧ !rb s .psChCtrl c 0 then s
  else setPsCh s c { x with rearm := some (s.fr.fn, s.now, nowTicks s) }

/-- The effect of a REARM that stood when the window closed (R126, R132). -/
def rearmTakes (s : State) (c : Nat) : State :=
  let x := psCh s c
  match x.rearm with
  | none => s
  | some (fn, t, now) =>
    let s := setPsCh s c { x with rearm := none }
    match x.st with
    | .latched => if c < 8 && within10ms s c now then rearmRefused s c 1 fn t else startOrMute s c 2
    | .hiccup => startOrMute (setPsCh s c { psCh s c with retries := 0 }) c 2
    | _ => rearmRefused s c 2 fn t

/-- A write of PS_CH_CTRL at the boundary that applies it: EN = 0 wins over REARM (R132). [log: DEDUCED 52, 53] -/
def applyChCtrl (s : State) (c : Nat) (v : Word) : State :=
  let s := muteApply s c (bit v 1)
  if bit v 0 then
    let s := enableCh s c
    if bit v 2 then rearmCh s c else s
  else disableCh s c

/-- CH_ENABLE, at its boundary (R31). -/
def execChEnable (t : Frac) (c : Fin 12) (s : State) : Res :=
  .next (atBoundary (atT s t) (fun s => enableCh s c.val))

/-- CH_DISABLE, at its boundary (R31). -/
def execChDisable (t : Frac) (c : Fin 12) (s : State) : Res :=
  .next (atBoundary (atT s t) (fun s => disableCh s c.val))

/-- CH_MUTE, at its boundary (R31). -/
def execChMute (t : Frac) (c : Fin 12) (mute : Bool) (s : State) : Res :=
  .next (atBoundary (atT s t) (fun s => muteApply s c.val mute))

/-- CH_REARM, at its boundary (R31). [log: DESIGN CHOICE 6; DEDUCED 53] -/
def execChRearm (t : Frac) (c : Fin 12) (s : State) : Res :=
  .next (atBoundary (atT s t) (fun s => rearmCh s c.val))

/-! ### Configuration (R119) -/

/-- The register of a PS_CONFIG_WRITE, with its index and its offset in the channel block. -/
def psRegOf (r : PsReg) (c : Nat) : RegName × Nat × Nat :=
  match r with
  | .chCfg => (.psChCfg, c, 0x04)
  | .dxCfg => (.psDxCfg, c - 8, 0x18)
  | .dxFb => (.psDxFb, c - 8, 0x1C)

/-- The write itself, by an owner (R119, R141): PS_DX_CFG and PS_DX_FB of bridges take none. -/
def psConfig (s : State) (c : Nat) (r : PsReg) (v : Word) : State :=
  let p := psRegOf r c
  if c < 8 && r ≠ .chCfg then s
  else if (psCh s c).st ≠ .off then
    let s := psRefuse s
    emit s 0x0312 c (pay [(0, 2, p.2.2), (2, 1, chStateCode (psCh s c).st), (4, 4, s.ps.refused)])
  else
    let w := mergeReg p.1 p.2.1 (reg s p.1 p.2.1) v
    if regAccept p.1 p.2.1 (reg s p.1 p.2.1) w then setReg s p.1 p.2.1 w else s

/-- PS_CONFIG_WRITE. -/
def execPsConfigWrite (t : Frac) (src : Owner) (c : Fin 12) (r : PsReg) (v : Word) (s : State) : Res :=
  .next (directWrite (atT s t) src (0x30100 + 0x20 * c.val + (psRegOf r c.val).2.2) (0x1D + c.val)
    (fun s => psConfig s c.val r v) (valueTakes s (psRegOf r c.val).1 (psRegOf r c.val).2.1 v))

/-! ### Starts and stops in time (R120, R136) -/

/-- BOOTSTRAP_CHARGE_END: step 2 of R120. [log: DESIGN CHOICE 6] -/
def execBootstrapChargeEnd (t : Frac) (c : Fin 12) (s : State) : Res :=
  let s := atT s t
  let x := psCh s c.val
  .next (
    if x.st = .starting ∧ x.phase = .bootstrap then
      setPsCh s c.val { x with phase := .softStart, ramp := some (riseOver s (5 * tMs)) }
    else s)

/-- SOFT_START_END: step 3 of R120. [log: DESIGN CHOICE 6] -/
def execSoftStartEnd (t : Frac) (c : Fin 12) (s : State) : Res :=
  let s := atT s t
  let x := psCh s c.val
  .next (if x.st = .starting ∧ x.phase = .softStart then chStarted s c.val else s)

/-- STOP_RAMP_END: step 5 of R120. -/
def execStopRampEnd (t : Frac) (c : Fin 12) (s : State) : Res :=
  let s := atT s t
  .next (if (psCh s c.val).st = .stopping then chStopped s c.val else s)

/-! ### Faults (R125–R133) -/

/-- BR_OVERCURRENT: the trip of R133. -/
def execBrOvercurrent (t : Frac) (c : Fin 8) (pvdd : BitVec 16) (s : State) : Res :=
  let s := atT s t
  .next (
    if !switching s c.val then s
    else
      let s := latchCh s c.val 1
      let x := psCh s c.val
      let s := setPsCh s c.val { x with trips := inc16 x.trips, tripAt := some (nowTicks s) }
      emit s 0x0303 c.val (pay [(0, 1, rf s .psChCfg c.val 15 14), (2, 2, pvdd.toNat), (4, 2, inc16 x.trips)]))

/-- DX_CYCLE_LIMIT: one more limited cycle; a cycle without a limit between resets the count (R127). -/
def execDxCycleLimit (t : Frac) (d : Fin 4) (consecutive : Bool) (s : State) : Res :=
  let s := atT s t
  let c := 8 + d.val
  .next (
    if !switching s c then s
    else
      let x := psCh s c
      setPsCh s c { x with limited := if consecutive then satTo 64 (x.limited + 1) else 1 })

/-- Hiccup interval in ms (R127). -/
def hiccupMs (code : Nat) : Nat :=
  match code with
  | 0 => 50
  | 1 => 100
  | 2 => 200
  | 3 => 500
  | 4 => 1000
  | 5 => 2000
  | _ => 5000

/-- DX_LIMIT_SHUTDOWN: steps 1 and 4 of R127, at the 64th consecutive limited cycle, of a STOPPING channel as of any that
switches. [log: DESIGN CHOICE 105] -/
def execDxLimitShutdown (t : Frac) (d : Fin 4) (s : State) : Res :=
  let s := atT s t
  let c := 8 + d.val
  .next (
    if !switching s c || (psCh s c).limited < 64 then s
    else
      let s := latchCh s c 2
      let x := psCh s c
      let s := setPsCh s c { x with trips := inc16 x.trips }
      let retry := rf s .psDxCfg d.val 31 24
      if retry = 0 ∨ x.retries < retry then
        let n := inc8 x.retries
        let s := setPsCh s c { psCh s c with st := .hiccup, retries := n }
        emit s 0x0304 c (pay [(0, 1, n), (1, 1, retry), (4, 4, hiccupMs (rf s .psDxCfg d.val 23 20))])
      else emit s 0x0305 c (pay [(0, 1, x.retries)]))

/-- HICCUP_END: step 2 of R127. [log: DESIGN CHOICE 6] -/
def execHiccupEnd (t : Frac) (d : Fin 4) (s : State) : Res :=
  let s := atT s t
  let c := 8 + d.val
  .next (if (psCh s c).st = .hiccup then startOrMute s c 4 else s)

/-- The switching clock is missing or off frequency (R125), unless detection is suspended (R249). -/
def clockMute (s : State) (missing : Bool) : State :=
  if s.ps.clock || s.ck.suspended then s
  else
    let s := { s with ps := { s.ps with clock := true } }
    let s := emit s 0x0307 noUnit (pay [(0, 1, if missing then 1 else 2), (2, 2, chMask allCh (mutable s))])
    each allCh s (muteCh 4)

/-- CLOCK_MUTE (R125). -/
def execClockMute (t : Frac) (missing : Bool) (s : State) : Res := .next (clockMute (atT s t) missing)

/-- CLOCK_RESUME (R125). -/
def execClockResume (t : Frac) (s : State) : Res :=
  let s := atT s t
  .next (
    if !s.ps.clock then s
    else
      let s := { s with ps := { s.ps with clock := false } }
      let m := chMask allCh (fun c => (psCh s c).st == .muted && (chCauses s c).isEmpty)
      each allCh (emit s 0x0308 noUnit (pay [(2, 2, m)])) resumeCh)

/-- DC_FAULT: |DC| has been above THRESH for TIME (R128). [log: DESIGN CHOICE 6] -/
def execDcFault (t : Frac) (c : Fin 12) (s : State) : Res :=
  let s := atT s t
  let x := psCh s c.val
  .next (match x.dcSince with
    | some a =>
      let time := rf s .psChDc c.val 13 8
      if !mutable s c.val || nowTicks s < a + 10 * time * tMs then s
      else emit (latchCh s c.val 3) 0x0306 c.val
        (pay [(0, 2, toU 16 x.dc), (2, 1, rf s .psChDc c.val 5 0), (3, 1, time)])
    | none => s)

/-- Code of a supply cause in SUPPLY_MUTE, and in CAUSE. -/
def supplyCode : SupplyCause → Nat
  | .pvddUnder => 1
  | .pvddOver => 2
  | .vgateUnder => 3

/-- A supply cause is present at a die. -/
def supplyHas (x : Die) : SupplyCause → Bool
  | .pvddUnder => x.uv
  | .pvddOver => x.ov
  | .vgateUnder => x.vg

def supplySet (x : Die) (k : SupplyCause) (v : Bool) : Die :=
  match k with
  | .pvddUnder => { x with uv := v }
  | .pvddOver => { x with ov := v }
  | .vgateUnder => { x with vg := v }

/-- Channels a supply cause mutes (R125). -/
def supplyScope (d : PowerDie) (k : SupplyCause) : List Nat :=
  if k = .vgateUnder then dieChannels d else (dieChannels d).take 4

/-- SUPPLY_MUTE (R125). -/
def execSupplyMute (t : Frac) (d : PowerDie) (cause : SupplyCause) (v : BitVec 16) (s : State) : Res :=
  let s := atT s t
  .next (
    if supplyHas (die s d) cause then s
    else
      let s := setDie s d (supplySet (die s d) cause true)
      let s := emit s 0x0309 (dieNum d) (pay [(0, 1, supplyCode cause), (2, 2, v.toNat)])
      each (supplyScope d cause) s (muteCh (4 + supplyCode cause)))

/-- SUPPLY_RESUME (R125): the event when the last supply cause of the die clears. -/
def execSupplyResume (t : Frac) (d : PowerDie) (cause : SupplyCause) (s : State) : Res :=
  let s := atT s t
  .next (
    if !supplyHas (die s d) cause then s
    else
      let x := supplySet (die s d) cause false
      let s := setDie s d x
      let s := if x.uv || x.ov || x.vg then s
        else emit s 0x030A (dieNum d) (pay [(0, 1, supplyCode cause)])
      each (dieChannels d) s resumeCh)

/-- TEMP_SHUTDOWN: 150 °C (R125). -/
def execTempShutdown (t : Frac) (d : PowerDie) (temp : BitVec 16) (s : State) : Res :=
  let s := atT s t
  .next (
    if (die s d).ot then s
    else
      let s := setDie s d { die s d with ot := true }
      each (dieChannels d) (emit s 0x030D (dieNum d) (pay [(0, 2, temp.toNat)])) (muteCh 8))

/-- TEMP_RESUME: below 130 °C (R125). -/
def execTempResume (t : Frac) (d : PowerDie) (temp : BitVec 16) (s : State) : Res :=
  let s := atT s t
  .next (
    if !(die s d).ot then s
    else
      let s := setDie s d { die s d with ot := false }
      each (dieChannels d) (emit s 0x030E (dieNum d) (pay [(0, 2, temp.toNat)])) resumeCh)

/-- Warning level of a die in 10 mV, 0 for none (PS_PVDD_WARN). -/
def sagLevel (s : State) (d : PowerDie) : Nat :=
  20 * rf s .psPvddWarn 0 (7 + 8 * dieNum d) (8 * dieNum d)

/-- PVDD_SAG (R129): armed, and a lowest voltage below the level. -/
def execPvddSag (t : Frac) (d : PowerDie) (lowest : BitVec 16) (s : State) : Res :=
  let s := atT s t
  let x := die s d
  .next (
    if !x.sagArmed || sagLevel s d ≤ lowest.toNat then s
    else emit (setDie s d { x with sagArmed := false, sagSince := none }) 0x030B (dieNum d)
      (pay [(0, 2, lowest.toNat), (2, 1, sagLevel s d / 20)]))

/-- TEMP_WARN (R129): armed, and at the level or above. -/
def execTempWarn (t : Frac) (d : PowerDie) (temp : BitVec 16) (s : State) : Res :=
  let s := atT s t
  let x := die s d
  .next (
    if !x.warnArmed || sext 16 temp.toNat < 16 * rf s .psTempCfg 0 7 0 then s
    else emit (setDie s d { x with warnArmed := false }) 0x030C (dieNum d) (pay [(0, 2, temp.toNat)]))

/-! ### Quiet mode and idle power-down (R134–R137) -/

/-- A sink sample is below the quiet threshold of channel `c` (R134). -/
def quietBelow (s : State) (c : Nat) (x : Int) : Bool := x.natAbs < 2 ^ (31 - rf s .psChQuiet c 20 16)

/-- QUIET_ENTRY. -/
def execQuietEntry (t : Frac) (c : Fin 12) (s : State) : Res :=
  let s := atT s t
  let x := psCh s c.val
  .next (
    if x.st = .run ∧ rb s .psChQuiet c.val 31 = true ∧ rf s .psChQuiet c.val 15 0 ≤ x.quietRun then
      setPsCh s c.val { x with st := .quiet }
    else s)

/-- DOMAIN_CHANGED (R412): 1 on, 2 off, 3 retention; cause 1 PD_DOMAIN, 2 module state, 3 idle. -/
def domainChanged (s : State) (d what cause : Nat) : State :=
  emit s 0x0D01 d (pay [(0, 1, what), (1, 1, cause)])

/-- A die loses its power: what is measured of it reads 0 (R395). -/
def dieOff (s : State) (d : PowerDie) : State := setDie s d { die s d with pvdd := 0, temp := 0, idleSince := none }

/-- A die has power good (R393): channels in DOMAIN_OFF await their soft start. -/
def dieUp (s : State) (d : PowerDie) : State :=
  setDie s d { die s d with idleOff := false, idleSince := none,
                            waking := (dieChannels d).any (fun c => (psCh s c).st == .domainOff) }

/-- A QUIET channel's sink reached its threshold in the frame that has drained: the trigger came before the switch-off, and
the power-down is abandoned (R137). -/
def triggered (s : State) (d : PowerDie) : Bool :=
  s.fr.drained && (dieChannels d).any (fun c =>
    (psCh s c).st == .quiet && !quietBelow s c (engineInput s (psSink c)))

/-- DOMAIN_IDLE_OFF (R135, R137). [log: DESIGN CHOICE 6] -/
def execDomainIdleOff (t : Frac) (d : PowerDie) (s : State) : Res :=
  let s := atT s t
  let x := die s d
  .next (match x.idleSince with
    | some a =>
      if !rb s .psDomIdle 0 (dieNum d) || !domOn s (dieDom d) || !dieIdle s d || triggered s d
          || nowTicks s < a + rf s .psDomIdle 0 15 8 * tSec then s
      else
        let m := chMask (dieChannels d) (fun c => (psCh s c).st == .quiet)
        let s := each (dieChannels d) s (fun s c =>
          let y := psCh s c
          if y.st = .quiet then setPsCh s c { y with st := .domainOff, dcSince := none } else s)
        let s := setDie s d { die s d with idleOff := true }
        let s := dieOff { s with pd := { s.pd with on := s.pd.on - 2 ^ dieDom d } } d
        domainChanged (emit s 0x030F (dieNum d) (pay [(0, 2, m)])) (dieDom d) 2 3
    | none => s)

/-- Step 1 of R136: the power-up is requested, with the trigger sink. -/
def idleWake (s : State) (d : PowerDie) (sink : Nat) : State :=
  let dom := dieDom d
  if !(die s d).idleOff || s.pd.job.any (·.wait.contains dom) then s
  else
    let j : DomJob := { slot := none, cause := 3, fn := s.fr.fn, wait := [dom], fault := none }
    emit { s with pd := { s.pd with job := s.pd.job ++ [j] } } 0x0310 (dieNum d) (pay [(0, 2, sink)])

/-- The sink that wakes a die: of a DOMAIN_OFF channel, at its quiet threshold in the frame whose sink values are
given (R136). -/
def idleTrigger (s : State) (value : Nat → Int) (d : PowerDie) : Option Nat :=
  ((dieChannels d).find? (fun c => (psCh s c).st == .domainOff && !quietBelow s c (value (psSink c)))).map psSink

/-- The wake of one die from idle power-down. -/
def idleWakeDie (value : Nat → Int) (s : State) (d : PowerDie) : State :=
  match idleTrigger s value d with
  | some k => idleWake s d k
  | none => if rb s .psDomIdle 0 (dieNum d) then s else idleWake s d 0xFFFF

/-- DOMAIN_IDLE_WAKE at the boundary of a frame, by a sink or by EN_A = 0 or EN_B = 0 (R136, R137). -/
def idleWakes (s : State) (value : Nat → Int) : State := each [PowerDie.a, PowerDie.b] s (idleWakeDie value)
/-- IDLE_WAKE_SOFT_START: step 3 of R136. -/
def execIdleWakeSoftStart (t : Frac) (d : PowerDie) (s : State) : Res :=
  let s := atT s t
  .next (
    if !(die s d).waking || !domOn s (dieDom d) then s
    else
      let s := setDie s d { die s d with waking := false }
      each (dieChannels d) s (fun s c =>
        if (psCh s c).st ≠ .domainOff then s
        else
          let s := startOrMute s c 5
          let x := psCh s c
          if x.st = .starting then setPsCh s c { x with phase := .domainWake, ramp := some (riseOver s (tMs / 2)) }
          else s))

/-- IDLE_WAKE_RUN: step 4 of R136. -/
def execIdleWakeRun (t : Frac) (d : PowerDie) (s : State) : Res :=
  .next (each (dieChannels d) (atT s t) (fun s c =>
    let x := psCh s c
    if x.st = .starting ∧ x.phase = .domainWake then chStarted s c else s))

/-! ### The power stage at a strobe -/

/-- What is measured of a die, its re-arms and its idle hold (R129, R135). -/
def dieStrobe (s : State) (d : PowerDie) (pvdd temp : BitVec 16) : State :=
  let on := domOn s (dieDom d)
  let v := if on then pvdd.toNat else 0
  let k : Int := if on then sext 16 temp.toNat else 0
  let now := nowTicks s
  let x := { die s d with pvdd := v, temp := k }
  let since := if v < sagLevel s d then none else some (x.sagSince.getD now)
  let x := { x with sagSince := since,
                    sagArmed := x.sagArmed || (match since with | some a => a + tMs ≤ now | none => false),
                    warnArmed := x.warnArmed || k ≤ 16 * ((rf s .psTempCfg 0 7 0 : Nat) - 5 : Int) }
  followIdle (setDie s d x) d

/-- The output of the DC filter in 10 mV, to the nearest (R128). [log: DESIGN CHOICE 105] -/
def dcOf (s : State) (c : Nat) (f : Iir) : Int :=
  clampI (-32768) 32767 (Series.nearest (f.y1 * (10 * rf s .psChCfg c 29 20 : Nat)) (2 ^ 55))

/-- One channel at a strobe: the loop-clip count (R112), the quiet run and exit (R134), and DC (R128). A channel stays
QUIET when PS_CH_QUIET.EN is cleared, until a sink sample reaches the threshold. [log: DEDUCED 96] -/
def chStrobe (clip : Tbl Word) (s : State) (c : Nat) : State :=
  let x := psCh s c
  let low := quietBelow s c (tget 0 s.mx.present (psSink c))
  let x := { x with
    loopClips := if (tkeys clip).contains c && switching s c then inc16 x.loopClips else x.loopClips,
    quietRun := if low then satTo 0xFFFF (x.quietRun + 1) else 0,
    st := if x.st = .quiet ∧ low = false then .run else x.st }
  let x :=
    if mutable s c then
      let st := Series.filter (Series.lowPass2 1 (frameHz s.fr.rate)) x.dcSt (sourceOf s (psSense c))
      let dc := dcOf s c st
      { x with dcSt := st, dc := dc,
               dcSince := if 10 * rf s .psChDc c 5 0 < dc.natAbs then some (x.dcSince.getD (nowTicks s)) else none }
    else x
  setPsCh s c x

/-- The power stage at the strobe that has presented the sinks and captured the sources; the boundary window has
closed. -/
def powerStrobe (s : State) (x : StrobeIn) : State :=
  let s := dieStrobe s .a x.pvddA x.tempA
  let s := dieStrobe s .b x.pvddB x.tempB
  each allCh (each allCh s rearmTakes) (chStrobe x.loopClip)

end Sys2Proof.Machine
end

