-- ==== Sys2Proof/Machine/Protect.lean ====
section
/-! DEFINITION. Loudspeaker protection: the pass of each frame, the pilot windows, and the envelopes with what
they allow (R143–R170). -/

namespace Sys2Proof.Machine

open Sys2Proof

def spCh (s : State) (c : Nat) : SpCh := tget SpCh.reset s.sp.ch c

def setSpCh (s : State) (c : Nat) (x : SpCh) : State :=
  { s with sp := { s.sp with ch := tput SpCh.reset s.sp.ch c x } }

/-! ### Units and reports -/

/-- An unsigned field of a register in base units: its value over `d`. -/
def spU (s : State) (n : RegName) (c hi lo d : Nat) : Word := F32.ofRatio (rf s n c hi lo : Nat) d

/-- A signed field of 16 bits in base units. -/
def spI (s : State) (n : RegName) (c hi lo d : Nat) : Word := F32.ofRatio (sext 16 (rf s n c hi lo)) d

/-- An unsigned report of a value, saturated. -/
def repSat (w : Nat) (v : Word) : Nat :=
  match F32.toInt v with
  | some x => if x < 0 then Config.outOfRange w (some x) % 2 ^ w else satTo (2 ^ w - 1) x.toNat
  | none => if v = F32.inf then 2 ^ w - 1 else Config.outOfRange w none % 2 ^ w

/-- An unsigned report of a value whose field states no saturation. -/
def repU (w : Nat) (v : Word) : Nat :=
  match F32.toInt v with
  | some x => if 0 ≤ x ∧ x < 2 ^ w then x.toNat else Config.outOfRange w (some x) % 2 ^ w
  | none => Config.outOfRange w none % 2 ^ w

/-- A signed report of 16 bits. -/
def repI (v : Word) : Nat :=
  match F32.toInt v with
  | some x => if -32768 ≤ x ∧ x < 32768 then toU 16 x else Config.outOfRange 16 (some x) % 2 ^ 16
  | none => Config.outOfRange 16 none % 2 ^ 16

/-- `v × k` for a report in finer units. -/
def fTimes (v : Word) (k : Nat) : Word := F32.mul v (F32.ofInt k)

/-- T_EST and T_MEAS in 0.1 °C, R_MEAS in mΩ. -/
def tEstRep (x : SpCh) : Nat := repI (fTimes x.tEst 10)
def tMeasRep (x : SpCh) : Nat := repI (fTimes x.tMeas 10)
def rMeasRep (x : SpCh) : Nat := repSat 16 (fTimes x.rMeas 1000)

/-- GR: −20 log10(gain) in 0.25 dB, 255 for 63.75 dB or more (R150, R169). -/
def grOf (gain : Word) : Nat := Series.quarterDb gain

/-! ### Terms of the models -/

def fFs (s : State) : Word := F32.ofInt (frameHz s.fr.rate)

/-- 1 − e^(−1 ÷ (τ × fs)), τ in seconds. -/
def rateK (s : State) (tau : Word) : Word := Series.decayF (F32.div F32.one (F32.mul tau (fFs s)))

/-- `a + k × (b − a)`. -/
def glideTo (a k b : Word) : Word := F32.add a (F32.mul k (F32.sub b a))

/-- VFS in volts. -/
def vfsOf (s : State) (c : Nat) : Word := spU s .psChCfg c 29 20 10

/-- S_P and S_X (R166). -/
def shareOf (s : State) (c : Nat) : Word :=
  if rb s .spChCfg c 4 && !(spCh s c).soloUsed then F32.ofInt 2 else F32.one

/-- The sample of a channel as it enters protection: the sink's, −6 dB while shared in a pair (R454), 0 on a
standby's unshared channel before failover and in its relay delay (R451), and on a shared one after a yield (R453). -/
def chSample (s : State) (c : Nat) : Int :=
  let y := tget 0 s.mx.present (psSink c)
  let shared := rb s .spChCfg c 4
  if shared then (if s.pl.fault then 0 else if (spCh s c).halved then y / 2 else y)
  else if (s.pl.role == 2 && !s.pl.driving) || s.pl.relayWait then 0 else y

/-- A shared channel is live (R443); one that is DOMAIN_OFF keeps its bit (R454). -/
def liveCh (s : State) (c : Nat) : Bool :=
  rb s .spChCfg c 4 &&
    ((psCh s c).st == .starting || (psCh s c).st == .run || (psCh s c).st == .quiet || (psCh s c).st == .domainOff)

/-- The counterpart of a channel is live as the peer's last heartbeat says; after a fall of the bit it counts as live until the
boundary that sets SOLO (R454). -/
def peerLiveCh (s : State) (c : Nat) : Bool := s.pl.hb.any (fun h => bitN h.live.toNat c) || bitN s.pl.soloNext c

/-- SOLO and the −6 dB as they stand for the frame that begins (R168, R451, R454). [log: DEDUCED 85] -/
def latchShare (s : State) (c : Nat) : State :=
  let x := spCh s c
  setSpCh s c { x with soloUsed := x.solo,
                       halved := s.pl.st == .paired && !x.solo && liveCh s c && peerLiveCh s c }

/-- α per kelvin, RE_REF and T_REF. -/
def alphaOf (s : State) (c : Nat) : Word := spU s .spModX2 c 31 16 1000000
def reRef (s : State) (c : Nat) : Word := spU s .spModRe c 15 0 1000
def tRef (s : State) (c : Nat) : Word := spI s .spModRe c 31 16 10

/-- T_amb (R145); no envelope sets no TAMB_MIN. [log: DEDUCED 56] -/
def tAmb (s : State) (c : Nat) : Word :=
  let a := spI s .spChCtrl c 15 0 10
  match (spCh s c).env with
  | some e => F32.max a (F32.ofRatio e.tambMin 10)
  | none => a

/-- T_model of a thermal state. -/
def tModel (s : State) (c : Nat) (x : SpCh) : Word := F32.add (F32.add (tAmb s c) x.thM) x.thC

/-- This module is one of a pair (R167): its pair is formed, or forms with SYNC, or was and the peer is lost.
[log: DESIGN CHOICE 106] -/
def inPair (s : State) : Bool := s.pl.st == .sync || s.pl.st == .paired || s.pl.st == .peerLost

/-- Pilot frequency in 0.25 Hz units, with the adjustment for pairs (R151, R167). -/
def pilotQ (s : State) (c : Nat) : Nat :=
  let f := rf s .spChPilot c 6 0
  if rb s .spChCfg c 4 && inPair s then (f + 2) / 4 * 4 + (if s.pl.role = 2 then 4 else 0) else f

/-- W: frames of a pilot window (R153, R167). -/
def pilotW (s : State) (c : Nat) : Nat :=
  let hz := frameHz s.fr.rate
  if rb s .spChCfg c 4 && inPair s then hz
  else
    let q := pilotQ s c
    (2 * (4 * rf s .spChPilot c 31 24 * hz) + q) / (2 * q)

/-- A_p = 10^(−LEVEL ÷ 20) (R151). -/
def pilotAmp (s : State) (c : Nat) : Word := Series.attenuation (rf s .spChPilot c 23 16)

/-- The load current of a channel in amperes (R144): a bridge's current sense, or a drive channel's ISP − ISN in volts
over ISENSE × 10^-4 V/A. -/
def loadCurrent (s : State) (c : Nat) (measured : Word) : Word :=
  if c < 8 then measured else F32.div measured (spU s .spChCfg c 31 16 10000)

/-- The output-sense voltage of a channel in the frame (R111, R153). -/
def senseVolts (s : State) (c : Nat) : Word :=
  F32.ofRatio (sourceOf s (psSense c) * (rf s .psChCfg c 29 20 : Nat)) (10 * 2 ^ 31)

/-- √2 in binary32. -/
def fSqrt2 : Word := F32.sqrt (F32.ofInt 2)

/-- π in binary32. -/
def fPi : Word := 0x40490FDB

/-! ### The pass (R143) -/

/-- Step 1: the Butterworth high-pass at 2 × f_p (R152), by the bilinear transform. -/
def highPass (s : State) (c : Nat) (x : SpCh) (u : Word) : SpCh × Word :=
  let k := Series.tanF (F32.div (F32.mul fPi (F32.ofRatio (2 * pilotQ s c : Nat) 4)) (fFs s))
  let k2 := F32.mul k k
  let rk := F32.mul fSqrt2 k
  let n := F32.div F32.one (F32.add (F32.add F32.one rk) k2)
  let a1 := F32.mul (F32.mul (F32.ofInt 2) (F32.sub k2 F32.one)) n
  let a2 := F32.mul (F32.add (F32.sub F32.one rk) k2) n
  let feed := F32.mul n (F32.add (F32.sub u (F32.mul (F32.ofInt 2) x.h1)) x.h2)
  let y := F32.sub (F32.sub feed (F32.mul a1 x.k1)) (F32.mul a2 x.k2)
  ({ x with h1 := u, h2 := x.h1, k1 := y, k2 := x.k1 }, y)

/-- Step 2: the thermal model (R144–R146). -/
def thermal (s : State) (c : Nat) (x : SpCh) (i : Word) : SpCh :=
  let r := if x.valid then x.rMeas
    else F32.mul (reRef s c) (F32.add F32.one (F32.mul (alphaOf s c) (F32.sub x.tEst (tRef s c))))
  let p := F32.mul (F32.mul (shareOf s c) (F32.mul i i)) r
  let x := { x with
    thC := glideTo x.thC (rateK s (spU s .spModTh1 c 31 16 100)) (F32.mul p (spU s .spModTh1 c 15 0 100)),
    thM := glideTo x.thM (rateK s (spU s .spModTh2 c 31 16 1)) (F32.mul p (spU s .spModTh2 c 15 0 100)) }
  let t := tModel s c x
  { x with tEst := if x.valid then F32.max t x.tMeas else t }

/-- The target t of the thermal gain (R147). -/
def thermalTarget (s : State) (c : Nat) (x : SpCh) : Word :=
  let q := F32.div (F32.sub (spU s .spLimT c 15 0 10) x.tEst) (spU s .spLimT c 31 16 10)
  F32.sqrt (F32.min (F32.max q F32.zero) F32.one)

/-- The thermal gain (R147), 1 while THERM_EN is 0, with whether THERMAL_MUTE is raised: once when t reaches 0, whatever
THERM_EN is, until t exceeds 0.5. -/
def thermalGain (s : State) (c : Nat) (x : SpCh) : SpCh × Bool :=
  let t := thermalTarget s c x
  let hit := F32.isZero t && x.thArmed
  let tau := if F32.lt t x.gT then F32.ofRatio 1 100 else F32.one
  ({ x with gT := if rb s .spChCfg c 0 then F32.add x.gT (F32.mul (F32.sub t x.gT) (rateK s tau)) else F32.one,
            thArmed := (x.thArmed && !hit) || F32.lt (F32.ofRatio 1 2) t }, hit)

/-- The excursion for a voltage (R148). -/
def excursion (s : State) (c : Nat) (x : SpCh) (v : Word) : Word :=
  let k := Series.tanF (F32.div (F32.mul fPi (spU s .spModX c 15 0 100)) (fFs s))
  let q := spU s .spModX c 31 16 1000
  let k2 := F32.mul k k
  let kq := F32.div k q
  let w := F32.add (F32.add F32.one kq) k2
  let b0 := F32.div k2 w
  let b1 := F32.mul (F32.ofInt 2) b0
  let a1 := F32.div (F32.mul (F32.ofInt 2) (F32.sub k2 F32.one)) w
  let a2 := F32.div (F32.add (F32.sub F32.one kq) k2) w
  let sum := F32.add (F32.add (F32.mul b0 v) (F32.mul b1 x.v1)) (F32.mul b0 x.v2)
  let scale := F32.mul (spU s .spModX2 c 15 0 10000) (shareOf s c)
  F32.sub (F32.sub (F32.mul scale sum) (F32.mul a1 x.x1)) (F32.mul a2 x.x2)

/-- The mean square after a voltage (R149). -/
def meanSquare (s : State) (c : Nat) (x : SpCh) (v : Word) : Word :=
  glideTo x.ms (rateK s (spU s .spModTime c 31 16 1000)) (F32.mul v v)

/-- A ratio of R150: +∞ with its model disabled or its denominator 0. -/
def ratio (on : Bool) (num den : Word) : Word :=
  if !on || F32.isZero den then F32.inf else F32.div num den

/-- Steps 3 and 4: the fast gain (R150), with the ACT bits of the ratios. -/
def limiter (s : State) (c : Nat) (x : SpCh) (u : Word) : SpCh :=
  let vc := F32.mul (F32.mul (F32.mul x.g x.gT) u) (vfsOf s c)
  let lim := rb s .spChCfg c 2
  let knee := F32.mul (spU s .spLimX c 23 16 256) (spU s .spLimX c 15 0 100)
  let rx := ratio (rb s .spChCfg c 1) knee (F32.abs (excursion s c x vc))
  let rv := ratio lim (spU s .spLimV c 15 0 10) (F32.sqrt (meanSquare s c x vc))
  let rp := ratio lim (spU s .spLimV c 31 16 10) (F32.abs vc)
  let m := F32.min (F32.min rx rv) rp
  let g :=
    if F32.lt m F32.one then F32.mul x.g m
    else F32.add x.g (F32.mul (F32.sub F32.one x.g) (rateK s (spU s .spModTime c 15 0 1000)))
  { x with g := F32.min g F32.one,
           act := b2n (F32.lt x.gT F32.one) + 2 * b2n (F32.lt rx F32.one) + 4 * b2n (F32.lt rv F32.one)
             + 8 * b2n (F32.lt rp F32.one) }

/-- The pilot sample, and the phase after the frame (R151). -/
def pilotStep (s : State) (c : Nat) (x : SpCh) : SpCh × Word :=
  if !rb s .spChCfg c 3 then (x, F32.zero)
  else
    let hz := frameHz s.fr.rate
    let inc := (2 * (pilotQ s c * 2 ^ 30) + hz) / (2 * hz)
    ({ x with phase := (x.phase + inc) % 2 ^ 32, phases := x.phase :: x.phases.take 3 },
     F32.div (F32.mul (pilotAmp s c) (F32.ofInt (sine (x.phase / 2 ^ 18)))) (F32.ofInt 2147483647))

/-- Step 5: the channel sample, and the commit (R148, R149). -/
def commitSample (s : State) (c : Nat) (x : SpCh) (u : Word) : SpCh :=
  let gain := if x.latch then F32.zero else F32.mul (F32.mul x.g x.gT) u
  let p := pilotStep s c x
  let y := F32.add gain p.2
  let v := F32.mul y (vfsOf s c)
  let ex := excursion s c x v
  let ms := meanSquare s c x v
  { p.1 with prog := gain, pilot := p.2, v1 := v, v2 := x.v1, x1 := ex, x2 := x.x1, ms := ms,
             xPeak := Nat.max x.xPeak (repSat 16 (fTimes (F32.abs ex) 100)),
             vrmsPeak := Nat.max x.vrmsPeak (repSat 16 (fTimes (F32.sqrt ms) 10)) }

/-- Some gain is below 1 (R150). -/
def limited (x : SpCh) : Bool := F32.lt x.g F32.one || F32.lt x.gT F32.one

/-- LIMIT_ACTIVE and LIMIT_RELEASED after a frame (R150): the first when a gain is below 1 and `before`, that one was in
the frame before, is false; the second at every return of g × g_T to 0.999, with the frames that had a gain below 1
since the one before it. [log: DEDUCED 57] -/
def limitEvents (s : State) (c : Nat) (before : Bool) : State :=
  let x := spCh s c
  let low := F32.lt (F32.mul x.g x.gT) (F32.ofRatio 999 1000)
  let released := x.dipped && !low
  let s := setSpCh s c { x with dipped := low,
                                limFrames := if released then 0 else if limited x then inc32 x.limFrames else x.limFrames }
  let s := if limited x && !before then emit s 0x0401 c (pay [(0, 1, x.act), (1, 1, x.gr), (2, 2, tEstRep x)]) else s
  if released then emit s 0x0402 c (pay [(0, 4, x.limFrames)]) else s

/-- Committed excursion above XMAX is counted, and reported once in a second (R148). -/
def overExcursion (s : State) (c : Nat) : State :=
  let x := spCh s c
  let xmax := rf s .spLimX c 15 0
  if !F32.lt (F32.ofRatio xmax 100) (F32.abs x.x1) then s
  else
    let n := inc16 x.xOver
    let now := nowTicks s
    if x.xOverAt = 0 ∨ x.xOverAt + tSec ≤ now + 1 then
      emit (setSpCh s c { x with xOver := n, xOverAt := now + 1 }) 0x0403 c
        (pay [(0, 2, repSat 16 (fTimes (F32.abs x.x1) 100)), (2, 2, xmax), (4, 2, n)])
    else setSpCh s c { x with xOver := n }

/-! ### Pilot windows (R153–R157) -/

/-- A pilot window begins: no frames, and the sums are 0. -/
def newWindow (x : SpCh) : SpCh := { x with winFrames := 0, vi := 0, vq := 0, ii := 0, iq := 0 }

/-- What a state other than RUN and QUIET does to the pilot measurement (R157). -/
def noWindow (x : SpCh) : SpCh := { newWindow x with valid := false, lowRun := 0, openRun := 0, validRun := 0 }

/-- One frame of a window (R153): voltage and current against the sine and the cosine of the pilot phase that produced
the sample at the terminals, four frames before. [log: DEDUCED 96] -/
def windowFrame (x : SpCh) (v i : Word) : SpCh :=
  let p := x.phases.getD 3 0
  let sn := Series.sinPhase p
  let cs := Series.cosPhase p
  { x with winFrames := satTo 0xFFFFFFFF (x.winFrames + 1),
           vi := F32.add x.vi (F32.mul v sn), vq := F32.add x.vq (F32.mul v cs),
           ii := F32.add x.ii (F32.mul i sn), iq := F32.add x.iq (F32.mul i cs) }

/-- A window that is not valid. -/
def badWindow (x : SpCh) : SpCh := { newWindow x with valid := false, lowRun := 0, validRun := 0 }

/-- R155 and R156 after a valid window. -/
def validWindow (s : State) (c : Nat) : State :=
  let x := spCh s c
  let low := F32.lt x.rMeas (spU s .spLimZ c 15 0 1000)
  let x := { x with openRun := 0, badRun := 0, lowRun := if low then x.lowRun + 1 else 0,
                    validRun := satTo 2 (x.validRun + 1) }
  let lost := x.lost
  let s := setSpCh s c { x with lost := false }
  let s := if lost then emit s 0x040A c (pay [(0, 2, rMeasRep x), (2, 2, tMeasRep x)]) else s
  let s :=
    if 2 ≤ x.lowRun ∧ x.latch = false then
      emit (setSpCh s c { spCh s c with latch := true, lowRun := 0, impLatches := inc16 x.impLatches }) 0x0405 c
        (pay [(0, 2, rMeasRep x), (2, 2, rf s .spLimZ c 15 0)])
    else s
  if x.open_ && 2 ≤ x.validRun then
    emit (setSpCh s c { spCh s c with open_ := false }) 0x0408 c (pay [(0, 2, rMeasRep x)])
  else s

/-- The size of a pilot component from the two sums of a window (R153). -/
def pilotSize (s : State) (c : Nat) (a b : Word) : Word :=
  F32.div (F32.mul (F32.ofInt 2) (F32.sqrt (F32.add (F32.mul a a) (F32.mul b b)))) (F32.ofInt (pilotW s c))

/-- |V| and |I| of the window. -/
def pilotVolts (s : State) (c : Nat) : Word := pilotSize s c (spCh s c).vi (spCh s c).vq
def pilotAmps (s : State) (c : Nat) : Word := pilotSize s c (spCh s c).ii (spCh s c).iq

/-- A window with too little pilot voltage, and one whose impedance is above ZOPEN (R153). -/
def pilotWeak (s : State) (c : Nat) : Bool :=
  F32.lt (pilotVolts s c) (F32.mul (F32.ofRatio 1 2) (F32.mul (pilotAmp s c) (vfsOf s c)))
def pilotOpen (s : State) (c : Nat) : Bool :=
  F32.lt (F32.mul (pilotAmps s c) (spU s .spLimZ c 31 16 100)) (pilotVolts s c)

/-- R_MEAS, X_MEAS and T_MEAS of a valid window (R153, R154), and the pull on the coil node (R146). -/
def measure (s : State) (c : Nat) : SpCh :=
  let x := spCh s c
  let den := F32.add (F32.mul x.ii x.ii) (F32.mul x.iq x.iq)
  let r := F32.div (F32.add (F32.mul x.vi x.ii) (F32.mul x.vq x.iq)) den
  let tm := F32.add (tRef s c) (F32.div (F32.sub (F32.div r (reRef s c)) F32.one) (alphaOf s c))
  let over_ := F32.sub tm (tModel s c x)
  { newWindow x with
    valid := true, rMeas := r, tMeas := tm,
    xMeas := F32.div (F32.sub (F32.mul x.vq x.ii) (F32.mul x.vi x.iq)) den,
    thC := if F32.lt (F32.ofInt 5) over_ then F32.add x.thC over_ else x.thC }

/-- The end of a window (R153–R157): discarded, invalid, open or valid. -/
def windowEnd (s : State) (c : Nat) : State :=
  let x := spCh s c
  let st := (psCh s c).st
  let v := pilotVolts s c
  if st != .run && st != .quiet then setSpCh s c (noWindow x)
  else if pilotWeak s c then
    let n := x.badRun + 1
    let s := setSpCh s c { badWindow x with openRun := 0, badRun := satTo 4 n, lost := x.lost || n == 4 }
    if n = 4 then emit s 0x0409 c (pay [(0, 2, repU 16 (fTimes v 1000))]) else s
  else if pilotOpen s c then
    let i := pilotAmps s c
    let n := x.openRun + 1
    let s := setSpCh s c { badWindow x with openRun := satTo 2 n, badRun := 0, open_ := x.open_ || 2 ≤ n }
    if 2 ≤ n ∧ x.open_ = false then
      emit s 0x0407 c (pay [(0, 2, repU 16 (fTimes v 1000)), (2, 2, repU 16 (fTimes i 100000))])
    else s
  else validWindow (setSpCh s c (measure s c)) c

/-- A window of W frames has been summed (R153, R167). -/
def windowFull (s : State) (c : Nat) : Bool := rb s .spChCfg c 3 && pilotW s c ≤ (spCh s c).winFrames

/-- PILOT_WINDOW_END, when the window is complete. -/
def execPilotWindowEnd (t : Frac) (c : Fin 12) (s : State) : Res :=
  let s := atT s t
  .next (if windowFull s c.val then windowEnd s c.val else s)

/-- The pilot measurement of one channel at a strobe: a window that has been complete since the strobe before ends, and
the frame is summed while the pilot plays in RUN or QUIET (R153, R157). -/
def windowStrobe (cur : Tbl Word) (s : State) (c : Nat) : State :=
  let s := if windowFull s c then windowEnd s c else s
  let x := spCh s c
  let st := (psCh s c).st
  if st != .run && st != .quiet then setSpCh s c (noWindow x)
  else if !rb s .spChCfg c 3 then setSpCh s c (newWindow x)
  else setSpCh s c (windowFrame x (senseVolts s c) (loadCurrent s c (tget 0 cur c)))

/-! ### The pass at a strobe (R110, R111, R143) -/

/-- A gain in binary32. -/
def gainF (g : Int) : Word := F32.ofRatio g (2 ^ 30)

/-- Values for each frame at the raised rate of 3.072 or 2.8224 MHz (R110). -/
def overRate (s : State) : Nat := 64 / 2 ^ (s.fr.rate / 2)

/-- A voltage no greater than the rail that clips it (R112). -/
def clipRail (rail v : Word) : Word := if F32.lt rail (F32.abs v) then (if F32.sign v then F32.neg (F32.abs rail) else F32.abs rail) else v

/-- What the loop set at the terminals in the frame before: y × VFS half a frame after the interpolator, clipped at the
rail where it could not follow (R110–R112). -/
def loopOut (s : State) (c : Nat) (rail : Option Word) : List Word :=
  let p := psCh s c
  let l := (p.mod_ ++ p.wave.take (overRate s / 2)).map (fun y => F32.mul y (vfsOf s c))
  match rail with
  | some r => l.map (clipRail r)
  | none => l

/-- Step 6 of R143: the sample of the pass goes to the interpolator with the ramps of R120, R121 and R136, of which
MUTE leaves the pilot alone (R151); what leaves it goes to the modulator and the loop (R110, R111).
[log: DESIGN CHOICE 97] -/
def passOn (clip : Tbl Word) (s : State) (c : Nat) : State :=
  let x := spCh s c
  let p := psCh s c
  let now := nowTicks s
  let y := F32.mul (F32.add (F32.mul x.prog (gainF (muteGain s c now))) x.pilot) (gainF (startGain p now))
  let st := Config.interpolatorStep s.fr.rate p.interp y
  if switching s c then
    setPsCh s c { p with interp := st, wave := (List.range (overRate s)).map (Config.interpolatorOut s.fr.rate st),
                         mod_ := p.wave.drop (overRate s / 2),
                         drive := loopOut s c ((clip.find? (fun e => e.1 == c)).map (·.2)) }
  else setPsCh s c { p with interp := st, wave := [], mod_ := [], drive := [] }

/-- THERMAL_MUTE. -/
def thermalMute (s : State) (c : Nat) : State :=
  emit s 0x0404 c (pay [(0, 2, tEstRep (spCh s c)), (2, 2, rf s .spLimT c 15 0)])

/-- The states in which the whole pass runs (R143). -/
def passes : ChState → Bool
  | .starting | .run | .quiet | .stopping | .muted => true
  | _ => false

/-- The pass of one channel at a strobe (R143). -/
def protectCh (cur : Tbl Word) (s : State) (c : Nat) : State :=
  let x := spCh s c
  let before := limited x
  if !passes (psCh s c).st then
    let r := thermalGain s c (thermal s c x F32.zero)
    let s := setSpCh s c { r.1 with gr := grOf (F32.mul r.1.g r.1.gT), act := b2n (F32.lt r.1.gT F32.one),
                                    prog := 0, pilot := 0 }
    if r.2 then thermalMute s c else s
  else
    let u := F32.ofRatio (chSample s c) 2147483648
    let h := if rb s .spChCfg c 3 then highPass s c x u else (x, u)
    let r := thermalGain s c (thermal s c h.1 (loadCurrent s c (tget 0 cur c)))
    let x := limiter s c r.1 h.2
    let s := setSpCh s c (commitSample s c { x with gr := grOf (F32.mul x.g x.gT) } h.2)
    overExcursion (limitEvents (if r.2 then thermalMute s c else s) c before) c

/-- PROTECTION_PASS of every channel. -/
def protectStrobe (s : State) (x : StrobeIn) : State :=
  let s := each allCh (each allCh s (passOn x.loopClip)) (windowStrobe x.current)
  each allCh (each allCh s (protectCh x.current)) latchShare

/-- SP_CH_CTRL.CLEAR at its boundary (R155). -/
def impClear (s : State) (c : Nat) : State :=
  let x := spCh s c
  if x.latch then emit (setSpCh s c { x with latch := false, lowRun := 0 }) 0x0406 c 0 else s

/-- IMP_LATCH_CLEAR, at its boundary (R31). -/
def execImpLatchClear (t : Frac) (c : Fin 12) (s : State) : Res :=
  .next (atBoundary (atT s t) (fun s => impClear s c.val))

/-- SP_CTRL.PEAK_CLEAR of a channel (R169). -/
def peakClear (s : State) (c : Nat) : State := setSpCh s c { spCh s c with vrmsPeak := 0, xPeak := 0 }

/-- PEAK_CLEAR, at its boundary (R31). -/
def execPeakClear (t : Frac) (c : Fin 12) (s : State) : Res :=
  .next (atBoundary (atT s t) (fun s => peakClear s c.val))

/-- SOLO of a channel changes (R168). -/
def setSolo (s : State) (c : Nat) (v : Bool) : State :=
  let x := spCh s c
  if x.solo == v then s
  else emit (setSpCh s c { x with solo := v }) 0x040D c (pay [(0, 1, if v then 1 else 2)])

/-! ### Register writes (R162, R163) -/

/-- The ten registers an envelope sets, in the order of R159. -/
def envRegs : List RegName :=
  [.spLimT, .spLimX, .spLimV, .spLimZ, .spModRe, .spModTh1, .spModTh2, .spModX, .spModX2, .spModTime]

/-- Every writable register of a channel's block. -/
def spRegs : List RegName := [.spChCfg, .spChPilot] ++ envRegs ++ [.spChCtrl]

/-- The envelope's word for a register. -/
def envWord (e : Env) (n : RegName) : Word :=
  (((envRegs.zip e.words).find? (·.1 == n)).map Prod.snd).getD 0

/-- The enables ENFORCE names, as bits of SP_CH_CFG (R158). -/
def enforced (e : Env) : Nat := e.flags / 2 % 16

/-- Every field is at least as strict as the envelope's value (R163); ISENSE against the value in force. -/
def asStrict (e : Env) (n : RegName) (old v : Word) : Bool :=
  let w := envWord e n
  let up (hi lo : Nat) : Bool := fld w hi lo ≤ fld v hi lo
  let down (hi lo : Nat) : Bool := fld v hi lo ≤ fld w hi lo
  let same (hi lo : Nat) : Bool := fld v hi lo == fld w hi lo
  match n with
  | .spChCfg => fld v 31 16 ≤ fld old 31 16 && (List.range 4).all (fun k => !bitN (enforced e) k || bit v k)
  | .spLimT => down 15 0 && up 31 16
  | .spLimX => down 23 16 && down 15 0
  | .spLimV => down 31 16 && down 15 0
  | .spLimZ => up 15 0
  | .spModRe => same 31 16 && down 15 0
  | .spModTh1 | .spModTh2 => same 31 16 && up 15 0
  | .spModX => same 31 16 && same 15 0
  | .spModX2 => same 31 16 && up 15 0
  | .spModTime => same 31 16 && same 15 0
  | .spChCtrl => e.tambMin ≤ sext 16 (fld v 15 0)
  | _ => true

/-- The write that a locked envelope refuses (R163). -/
def limitRefused (s : State) (c off : Nat) : State :=
  let s := { s with sp := { s.sp with refused := inc32 s.sp.refused } }
  emit s 0x040C c (pay [(0, 2, off), (4, 4, s.sp.refused)])

/-- A write of an SP register at the boundary that applies it (R162, R163). -/
def spWrite (s : State) (c : Nat) (n : RegName) (v : Word) : State :=
  let old := reg s n c
  let w := mergeReg n c old v
  let ok := regAccept n c old w
  let apply (s : State) : State :=
    let s := setReg s n c w
    if n = .spChCtrl ∧ bit v 31 = true then impClear s c else s
  match (spCh s c).env with
  | some e =>
    if !e.locked then (if ok then apply s else s)
    else if ok && asStrict e n old w then apply s
    else limitRefused s c (regOff n 0 - 0x38100)
  | none => if ok then apply s else s

/-- SP_REGISTER_WRITE at its boundary (R31): the register at an offset of the channel's block. -/
def execSpRegisterWrite (t : Frac) (_src : Owner) (c : Fin 12) (off : Fin 64) (v : Word) (s : State) : Res :=
  .next (atBoundary (atT s t) (fun s =>
    match spRegs.find? (fun n => regOff n 0 == 0x38100 + off.val) with
    | some n => spWrite s c.val n v
    | none => s))

/-! ### Envelopes (R158–R161) -/

/-- The channels of a mask, ascending. -/
def maskChannels (m : Nat) : List Nat := allCh.filter (bitN m)

/-- The owner slot of a fail-safe envelope, as the report names it (R376, R380). -/
def unknownSlot : Nat := 0xFE

/-- The envelope of one record of a body. -/
def envOf (b : Bytes) (c : Nat) (signer : Nat) (rec : Bytes) : Nat × Env :=
  (c, { id := leAt b 8 4, ver := leAt b 12 4, mask := leAt b 6 2, flags := leAt b 16 2,
        words := (List.range 10).map (fun i => BitVec.ofNat 32 (leAt rec (4 * i) 4)),
        tambMin := sext 16 (leAt rec 40 2), locked := signer != 0xFF, slot := signer })

/-- A record lies within R159: every word is writable bits in range. -/
def recordOk (c : Nat) (rec : Bytes) (e : Env) : Bool :=
  (envRegs.zip e.words).all (fun p => (p.2 &&& ~~~(regWritable p.1 c)) == 0 && regAccept p.1 c p.2 p.2)
    && -400 ≤ e.tambMin && e.tambMin ≤ 850 && allZero ((rec.drop 42).take 22)

/-- The envelopes of a body, when it lies within R158 and R159. -/
def parseEnv (b : Bytes) (signer : Nat) : Except Nat (List (Nat × Env)) :=
  let cs := maskChannels (leAt b 6 2)
  let recs := chunks 64 cs.length (b.drop 32)
  let envs := (cs.zip recs).map (fun p => envOf b p.1 signer p.2)
  if b.length = 32 + 64 * cs.length ∧ leAt b 0 4 = 0x564E4550 ∧ leAt b 4 2 = 1 ∧ leAt b 6 2 < 4096 ∧ cs ≠ []
      ∧ leAt b 16 2 < 32 ∧ allZero ((b.drop 18).take 14) = true
  then match (envs.zip recs).findIdx? (fun p => !recordOk p.1.1 p.2 p.1.2) with
    | some i => .error i
    | none => .ok envs
  else .error noIndex

/-- The checks of R160 on a body: the status and channel, or the envelopes. -/
def checkEnv (s : State) (b : Bytes) (signer : Nat) : Except (Nat × Nat) (List (Nat × Env)) :=
  match parseEnv b signer with
  | .error i => .error (stBadEnvelope, i)
  | .ok envs =>
    let plain := signer == 0xFF
    let lockedBy (c : Nat) : Option Nat := match (spCh s c).env with
      | some e => if e.locked then some e.slot else none
      | none => none
    if plain && leAt b 16 2 != 0 then .error (stLockUnsigned, noIndex)
    else match envs.find? (fun p => plain && (lockedBy p.1).isSome) with
      | some p => .error (stEnvLocked, p.1)
      | none => match envs.find? (fun p => match lockedBy p.1 with
          | some o => o != signer && o != unknownSlot
          | none => false) with
        | some p => .error (stEnvOwner, p.1)
        | none => .ok envs

/-- Apply one channel's envelope (R161). -/
def applyEnvCh (s : State) (p : Nat × Env) : State :=
  let c := p.1
  let e := p.2
  let s := each (envRegs.zip e.words) s (fun s w => setReg s w.1 c w.2)
  let s := each [0, 1, 2, 3] s (fun s k => if bitN (enforced e) k then setBit s .spChCfg c k true else s)
  let s := setSpCh s c { spCh s c with thC := 0, thM := 0, g := f32One, gT := f32One, env := some e }
  emit s 0x040B c (pay [(0, 4, e.id), (4, 4, e.ver), (8, 1, b2n e.locked), (10, 2, e.mask)])

def applyEnv (s : State) (l : List (Nat × Env)) : State := each l s applyEnvCh

/-- SP_ENV_CLEAR at its boundary (R161): channels not locked return to the reset values. -/
def applyEnvClear (s : State) (mask : Nat) : State :=
  each (maskChannels mask) s (fun s c =>
    let x := spCh s c
    if (x.env.map (·.locked)).getD false then s
    else
      let s := each spRegs s (fun s n => setReg s n c (regReset n c))
      setSpCh s c { x with env := none })

/-- Owner groups of the channels of a mask that `src` does not own (R302, R303). -/
def spLack (s : State) (src : Owner) (mask : Nat) : List Nat :=
  ((maskChannels mask).map (· + 0x11)).filter (fun g => !owns s src g)

/-- SP_ENV_LOAD, as far as its data are read. -/
def execSpEnvLoad (t : Frac) (c : Cmd) (d : Dma) (s : State) : Res :=
  runCmd s t 0x0030 c [] [(0, wordAll), (1, 0xFFFFFF), (2, 0x100)] (addrOk c 0 (fldN (pwN c 1) 23 0)) (fun s n =>
    longLoad s 0x0030 n c d (fun b => .envLoad (bitN (pwN c 2) 8) b c.src))

/-- Lines of the ENV region that are in use. -/
def envUsed (s : State) : List Nat := s.sv.stored.flatMap (·.lines)

/-- The free lines that a container takes in the ENV region, when there are enough (R384). -/
def envPlace (s : State) (img : Bytes) : Option (List Nat) :=
  let k := linesFor img.length
  let l := place s envLines (envUsed s) k
  if l.length = k then some l else none

/-- A whole container is stored and marked for its channels; what they marked before loses the mark, and a container that no
channel marks is freed (R374). -/
def storeEnv (s : State) (img : Bytes) (marks lines : List Nat) : State :=
  let s := commitLines s lines
  let old := (s.sv.stored.map (fun x => { x with marks := x.marks.filter (fun c => !marks.contains c) })).filter
    (fun x => !x.marks.isEmpty)
  { s with sv := { s.sv with stored := old ++ [{ image := img, marks := marks, lines := lines, lost := false }] } }

/-- The body of a container as far as the module can read it before the checks of R371: CHMASK in it names the owners'
groups, which R486 checks first. [log: DEDUCED 58] -/
def shownBody (s : State) (img : Bytes) : Bytes :=
  if !containerFormOk s 2 img then []
  else if encrypted (header img) then (decryptBody s img).getD []
  else plainBody img

/-- The end of SP_ENV_LOAD: the checks, and the staging (R160, R371–R374). -/
def envLoaded (s : State) (us : Word) (container : Bool) (img : Bytes) (src : Owner) (nvOk : Bool) : State :=
  let h := header img
  let accept (s : State) (b : Bytes) (envs : List (Nat × Env)) : State :=
    endLong (stageMeet s src (.env envs) 2 (leAt b 6 2) (leAt b 8 4) (leAt b 12 4)) us stOk 0
  let body := if container then shownBody s img else img
  let lack := if body.length < 8 then [] else spLack s src (leAt body 6 2)
  if !lack.isEmpty then endLong (ownerRefuse s src 0x80000030 lack) us stNotOwner noIndex
  else if container then
    match openContainer s 2 img with
    | .error e => endLong (refuseImage s img e.1 e.2) us e.1 noIndex
    | .ok b => match checkEnv s b h.signer with
      | .error e => endLong (refuseImage s img e.1 7) us e.1 e.2
      | .ok envs =>
        let s' := advanceCtr s h
        match envPlace s' img with
        | some l =>
          if nvOk then accept (storeEnv s' img (envs.map Prod.fst) l) b envs else endLong s us stNvFail noIndex
        | none => endLong s us stNvFail noIndex
  else match checkEnv s img 0xFF with
    | .error e => endLong s us e.1 e.2
    | .ok envs => accept s img envs

/-- SP_ENV_CLEAR (R161). [log: DEDUCED 58] -/
def execSpEnvClear (t : Frac) (c : Cmd) (s : State) : Res :=
  let m := pwN c 0 % 4096
  runCmd s t 0x0031 c ((maskChannels m).map (· + 0x11)) [(0, 0xFFF)] true (fun s n =>
    match (maskChannels m).find? (fun k => ((spCh s k).env.map (·.locked)).getD false) with
    | some k => finish s n stEnvLocked k
    | none =>
      let b := bindTo s
      finish (stageMeet s c.src (.envClear m) 3 m 0 0) n stOk b)

/-! ### Stored envelopes at bring-up (R375, R376) -/

/-- A free value within a field's range, for a field without a strictest value. [log: DESIGN CHOICE 59] -/
def drawIn (lo hi : Nat) (s : State) : Nat × State :=
  let d := draw s
  (lo + d.1.toNat % (hi + 1 - lo), d.2)

/-- The fail-safe envelope (R376): strictest values in range; T_REF, TAU_C, TAU_M, QTS, F0, ALPHA, TAU_V, REL
and ZOPEN have none and are free. [log: DESIGN CHOICE 59] -/
def failSafe (s : State) : Env × State :=
  let tRef := drawIn 0 1250 s
  let tauC := drawIn 1 65535 tRef.2
  let tauM := drawIn 1 65535 tauC.2
  let qts := drawIn 200 4000 tauM.2
  let f0 := drawIn 500 50000 qts.2
  let alpha := drawIn 1000 10000 f0.2
  let tauV := drawIn 10 60000 alpha.2
  let rel := drawIn 1 5000 tauV.2
  let zopen := drawIn 100 65535 rel.2
  ({ id := 0, ver := 0, mask := 0, flags := 0x1E,
     words := [mkW [(16, 1000), (0, 500)], mkW [(16, 128), (0, 10)], mkW [(16, 10), (0, 10)],
               mkW [(16, zopen.1), (0, 20000)], mkW [(16, toU 16 ((tRef.1 : Int) - 400)), (0, 500)],
               mkW [(16, tauC.1), (0, 10000)], mkW [(16, tauM.1), (0, 10000)], mkW [(16, qts.1), (0, f0.1)],
               mkW [(16, alpha.1), (0, 65535)], mkW [(16, tauV.1), (0, rel.1)]],
     tambMin := 850, locked := true, slot := unknownSlot }, zopen.2)

/-- A fail-safe envelope is put in force. -/
def applyFailSafe (s : State) (c : Nat) : State :=
  let f := failSafe s
  applyEnvCh f.2 (c, f.1)

/-- The envelopes of a stored container: its signature and its signer's hash are checked again, the counter and the
revocation are not (R375). A container made for an earlier DCK, and any while the Larder's self-test has failed, does not
pass. [log: DEDUCED 29] -/
def openStored (s : State) (x : StoredEnv) : Option (List (Nat × Env)) :=
  let h := header x.image
  if !s.sv.larderOk || sha384 (signerPub x.image) != signerHash s h || !signatureOk x.image then none
  else match (if encrypted h then decryptBody s x.image else some (plainBody x.image)) with
    | none => none
    | some b => match parseEnv b h.signer with
      | .ok envs => some (envs.filter (fun e => x.marks.contains e.1))
      | .error _ => none

/-- One stored container put in force on the channels that mark it: as it says, or fail-safe; with what to report: 0 restored,
1 its check fails, 2 its lines are uncorrectable. -/
def restoreEnvelope (s : State) (x : StoredEnv) : State × Nat :=
  if x.lost then (each x.marks s applyFailSafe, 2)
  else match openStored s x with
    | some envs => (applyEnv s envs, 0)
    | none => (each x.marks s applyFailSafe, 1)

/-- ENV_RESTORED and ENV_RESTORE_FAIL over the channels of the containers reported as `why` (R375, R376). -/
def restoreEvent (s : State) (l : List (StoredEnv × Nat)) (why : Nat) : State :=
  let xs := l.filter (fun p => p.2 == why)
  let mask := maskOf 12 (fun c => xs.any (fun p => p.1.marks.contains c))
  match xs with
  | [] => s
  | p :: _ =>
    if why = 0 then
      let body := if encrypted (header p.1.image) then (decryptBody s p.1.image).getD [] else plainBody p.1.image
      emit s 0x0C10 noUnit (pay [(0, 2, mask), (4, 4, leAt body 8 4)])
    else emit s 0x0C11 noUnit (pay [(0, 2, mask), (2, 1, why)])

/-- The stored containers one after the other, and what to report of each. -/
def restoreAll : List StoredEnv → State → State × List (StoredEnv × Nat)
  | [], s => (s, [])
  | x :: r, s =>
    let p := restoreEnvelope s x
    let q := restoreAll r p.1
    (q.1, (x, p.2) :: q.2)

/-- Stored envelopes re-applied, fail-safe ones for those that fail, and their events. -/
def restoreEnvelopes (s : State) : State :=
  let p := restoreAll s.sv.stored s
  restoreEvent (restoreEvent (restoreEvent p.1 p.2 0) p.2 1) p.2 2

end Sys2Proof.Machine
end

