-- ==== Sys2Proof/Machine/Inputs.lean ====
section
/-! DEFINITION. Analog and PDM inputs: enabling and settling, the PGA, the dual path, biases, jacks, Sieve and
the captured samples (R171–R196). -/

namespace Sys2Proof.Machine

open Sys2Proof

def aiCh (s : State) (n : Nat) : AiCh := tget AiCh.reset s.ai.ch n

def setAiCh (s : State) (n : Nat) (x : AiCh) : State :=
  { s with ai := { s.ai with ch := tput AiCh.reset s.ai.ch n x } }

def pdm (s : State) (m : Nat) : Pdm := tget Pdm.reset s.ai.pdm m

def setPdm (s : State) (m : Nat) (x : Pdm) : State :=
  { s with ai := { s.ai with pdm := tput Pdm.reset s.ai.pdm m x } }

def pdmClk (s : State) (k : Nat) : PdmClock := tget PdmClock.reset s.ai.clk k

def setPdmClk (s : State) (k : Nat) (x : PdmClock) : State :=
  { s with ai := { s.ai with clk := tput PdmClock.reset s.ai.clk k x } }

def bias (s : State) (b : Nat) : Bias := tget Bias.reset s.ai.bias b

def setBias (s : State) (b : Nat) (x : Bias) : State :=
  { s with ai := { s.ai with bias := tput Bias.reset s.ai.bias b x } }

/-- [log: DEDUCED 62] -/
def aiJack (s : State) (j : Nat) : Jack := tget Jack.reset s.ai.jack j

def setAiJack (s : State) (j : Nat) (x : Jack) : State :=
  { s with ai := { s.ai with jack := tput Jack.reset s.ai.jack j x } }

/-- Frames of settling of R187, by FILTER. -/
def settleFrames (linear : Bool) : Nat := if linear then 64 else 16

/-- A settling begins: one that still runs longer is not cut short. -/
def settleFor (linear : Bool) (left : Option Nat) : Option Nat := some (Nat.max (left.getD 0) (settleFrames linear))

/-- Begin the settling of analog input `n`, and of microphone `m` (R187). -/
def settleAi (s : State) (n : Nat) : State :=
  setAiCh s n { aiCh s n with settle := settleFor (rb s .aiChCfg n 27) (aiCh s n).settle }

def settlePdm (s : State) (m : Nat) : State :=
  setPdm s m { pdm s m with settle := settleFor (rb s .aiPdmCh m 27) (pdm s m).settle }

/-! ### Enable and disable (R186, R188) -/

/-- Step 1 of R186, once EN is 1 and AIN is powered. -/
def aiStart (s : State) (n : Nat) : State :=
  if (aiCh s n).st = .off && domOn s domAIN then setAiCh s n { aiCh s n with st := .precharge } else s

/-- EN = 0: the input is off (R188). -/
def aiStop (s : State) (n : Nat) : State :=
  setAiCh s n { aiCh s n with st := .off, settle := none, fade := none, ws := [] }

/-- AI_PRECHARGE_END: step 2 of R186. -/
def execAiPrechargeEnd (t : Frac) (n : Fin 16) (s : State) : Res :=
  let s := atT s t
  .next (
    if (aiCh s n.val).st = .precharge then
      settleAi (setAiCh s n.val { aiCh s n.val with st := .settling }) n.val
    else s)

/-- AI_SETTLE_END: the frames of R187 have passed; step 3 of R186. -/
def execAiSettleEnd (t : Frac) (q : Fin 48) (s : State) : Res :=
  let s := atT s t
  .next (
    if q.val < 16 then
      let x := aiCh s q.val
      if x.settle = some 0 then
        setAiCh s q.val { x with settle := none, st := if x.st = .settling then .running else x.st }
      else s
    else
      let x := pdm s (q.val - 16)
      if x.settle = some 0 then setPdm s (q.val - 16) { x with settle := none } else s)

/-! ### The samples of a frame at 8 × fs (R174) -/

/-- The modulators and filters of an input run (R186). -/
def converts (x : AiCh) : Bool := x.st == .settling || x.st == .running

/-- `k` more samples at 8 × fs, each with the weight of path H and the gain of the PGA: a crossfade moves by one
sixteenth at each (R174). -/
def fadeSteps : Nat → AiCh → AiCh
  | 0, x => x
  | k + 1, x =>
    let w := match x.fade with
      | none => x.weight
      | some up => if up then Nat.min 16 (x.weight + 1) else x.weight - 1
    fadeSteps k { x with weight := w, fade := if w = 0 ∨ w = 16 then none else x.fade, ws := x.ws ++ [(w, x.gain)] }

/-- The samples of the frame up to the one at the time `t` have their weights and gains. -/
def fadeTo (x : AiCh) (t : Frac) (more : Nat) : AiCh :=
  if converts x then fadeSteps (Nat.min 8 (8 * t.toNat / 65536 + more) - x.ws.length) x else x

/-! ### The PGA (R172, R173) -/

/-- The largest `r` below 2^n more with `r^40 ≤ 10^g × 2^1600`: 10^(g ÷ 40) in units of 2^-40. -/
def pgaBits (g : Nat) : Nat → Nat → Nat
  | 0, r => r
  | n + 1, r => pgaBits g n (if (r + 2 ^ n) ^ 40 ≤ 10 ^ g * 2 ^ 1600 then r + 2 ^ n else r)

/-- The gain of the PGA at GAIN `g`, in units of 2^-40 (R172). -/
def pgaGain (g : Nat) : Nat := pgaBits g 51 0

/-- A differential input voltage in µV as a fraction of full scale at GAIN `g`, in Q1.31: ±1.0 at 2.00 Vrms × √2 for
GAIN 0 (R172), or with a further analog gain of `num ÷ 10^12`. [log: DESIGN CHOICE 98] -/
def pgaSample (g : Nat) (num : Nat) (microvolts : Int) : Int :=
  Series.nearest (microvolts * ((pgaGain g * num * 2 ^ 31 : Nat) : Int)) (2828427 * 2 ^ 40 * 10 ^ 12)

/-- Impedance in Ω from each leg of an input to its common mode: 10 kΩ LINE, 1.5 kΩ MIC (R172), and 200 Ω while the
coupling capacitors precharge (R186). -/
def legOhms (s : State) (n : Nat) : Nat :=
  if (aiCh s n).st = .precharge then 200 else if rb s .aiChCfg n 30 then 1500 else 10000

/-- A new GAIN is applied: it waits for a sign change from the next strobe on. -/
def newGain (s : State) (n g : Nat) : State := setAiCh s n { aiCh s n with zc := some (g, nextStrobe s) }

/-- PGA_ZERO_CROSSING: step 2 of R173. -/
def execPgaZeroCrossing (t : Frac) (n : Fin 16) (s : State) : Res :=
  let s := atT s t
  let x := aiCh s n.val
  .next (match x.zc with
    | some g => if nowTicks s < g.2 then s else setAiCh s n.val { fadeTo x t 0 with gain := g.1, zc := none }
    | none => s)

/-- PGA_ZC_TIMEOUT: step 3 of R173, 20 ms after the strobe of step 2. -/
def execPgaZcTimeout (t : Frac) (n : Fin 16) (s : State) : Res :=
  let s := atT s t
  let x := aiCh s n.val
  .next (match x.zc with
    | some g =>
      if nowTicks s < g.2 + 20 * tMs then s
      else
        emit (setAiCh s n.val { fadeTo x t 0 with gain := g.1, zc := none }) 0x0503 n.val
          (pay [(0, 1, x.gain), (1, 1, g.1)])
    | none => s)

/-! ### The dual path (R174–R176) -/

/-- DUAL = 0b00: both paths are in use. -/
def dual (s : State) (n : Nat) : Bool := converts (aiCh s n) && rf s .aiChCfg n 29 28 == 0

/-- PATH_H_TO_L: |H| reaches its threshold; from the next sample a crossfade to L begins, or one to H reverses. -/
def execPathHToL (t : Frac) (n : Fin 16) (s : State) : Res :=
  let s := atT s t
  let x := fadeTo (aiCh s n.val) t 1
  .next (if dual s n.val && x.weight != 0 then setAiCh s n.val { x with fade := some false } else s)

/-- PATH_L_TO_H: |L| has stayed below its threshold for 0.1 s. -/
def execPathLToH (t : Frac) (n : Fin 16) (s : State) : Res :=
  let s := atT s t
  let x := fadeTo (aiCh s n.val) t 1
  .next (if dual s n.val && x.weight != 16 then setAiCh s n.val { x with fade := some true } else s)

/-- PATH_FORCED (R175): the weight is 0 from the sample at which H overloads. -/
def execPathForced (t : Frac) (n : Fin 16) (s : State) : Res :=
  let s := atT s t
  let x := fadeTo (aiCh s n.val) t 0
  .next (
    if !dual s n.val || x.weight = 0 then s
    else
      let f := inc8 x.forced
      let now := nowTicks s
      let x := { x with weight := 0, fade := none, forced := f }
      if x.forcedAt = 0 ∨ x.forcedAt + tSec ≤ now + 1 then
        emit (setAiCh s n.val { x with forcedAt := now + 1 }) 0x0502 n.val (pay [(0, 1, f), (1, 1, x.gain)])
      else setAiCh s n.val x)

/-- Weight of path H for a DUAL (R176), from the weight before. -/
def dualWeight (d w : Nat) : Nat := if d = 1 then 0 else if d = 2 then 16 else w

/-- A channel takes the DUAL of its register, at a strobe or at power-up: without a crossfade (R176). An input that is off
or in precharge has no strobe of its own until it converts. [log: DESIGN CHOICE 106] -/
def takeDual (s : State) (n : Nat) (x : AiCh) : AiCh :=
  let d := rf s .aiChCfg n 29 28
  { x with weight := dualWeight d x.weight, fade := if d = 0 then x.fade else none }

/-- One sample at 8 × fs of the channel: path H, scaled down by 24.0 dB, and path L, by the weight of H (R174); each path
ends at its own full scale, so that H alone clips at −24 dBFS (R176). [log: DESIGN CHOICE 98] -/
def combine (w : Nat) (h l : Int) : Int :=
  Series.nearest ((w : Int) * sat32 h * 63095734448 + (16 - (w : Int)) * sat32 l * 10 ^ 12) (16 * 10 ^ 12)

/-- A sample of a frame, of the voltages that the modulators of paths H and L have measured: the analog gain of H is
24.0 dB above that of L (R174). -/
def channelSample (w g : Nat) (h l : Int) : Int :=
  combine w (pgaSample g 15848931924611 h) (pgaSample g (10 ^ 12) l)

/-- The eight samples of a frame. -/
def channelFrame (x : AiCh) (paths : List (Int × Int)) : List Int :=
  (x.ws.zip paths).map (fun e => channelSample e.1.1 e.1.2 e.2.1 e.2.2)

/-- AI_CH_CFG at the boundary that applies it; while AIN is off the write waits for its power-up (R171). -/
def applyAiChCfg (s : State) (n : Nat) (v : Word) : State :=
  let old := reg s .aiChCfg n
  let s := setReg s .aiChCfg n v
  if !domOn s domAIN then s
  else
    let s := if fld old 6 0 = fld v 6 0 then s else newGain s n (fld v 6 0)
    let s := if bit old 27 == bit v 27 || !converts (aiCh s n) then s else settleAi s n
    if bit v 31 then aiStart s n else if bit old 31 then aiStop s n else s

/-- AI_ENABLE: EN = 1 at its boundary (R31, R186). -/
def execAiEnable (t : Frac) (n : Fin 16) (s : State) : Res :=
  .next (atBoundary (atT s t) (fun s => applyAiChCfg s n.val (reg s .aiChCfg n.val ||| 0x80000000)))

/-- PGA_GAIN_CHANGE: GAIN at its boundary, step 1 of R173 (R31). -/
def execPgaGainChange (t : Frac) (n : Fin 16) (gain : Fin 121) (s : State) : Res :=
  .next (atBoundary (atT s t) (fun s =>
    applyAiChCfg s n.val (reg s .aiChCfg n.val &&& 0xFFFFFF80 ||| BitVec.ofNat 32 gain.val)))

/-! ### PDM microphones (R182–R187) -/

/-- SEL of a clock in AI_PDM_CFG. -/
def pdmSel (s : State) (k : Nat) : Nat := rf s .aiPdmCfg 0 (2 + 4 * k) (4 * k)

/-- SEL is valid at a rate (R182). -/
def pdmValid (sel code : Nat) : Bool :=
  match sel with
  | 1 => code < 2
  | 2 => code < 4
  | 4 => code == 1
  | _ => true

/-- The frequency in Hz that a SEL names, in the family of a rate (R182). -/
def pdmHz (sel code : Nat) : Nat :=
  let hz := match sel with
    | 1 => 1536000
    | 2 => 3072000
    | 3 => 6144000
    | 4 => 1024000
    | _ => 0
  if code % 2 = 1 then hz else hz / 160 * 147

/-- Microphones of a clock. -/
def pdmMics (k : Nat) : List Nat := (List.range 16).map (· + 16 * k)

/-- A clock starts or changes frequency: its enabled microphones wake and settle (R184). -/
def wakeMics (s : State) (k : Nat) : State :=
  let until_ := nowTicks s + rf s .aiPdmCfg 0 15 8 * tMs
  each (pdmMics k) s (fun s m =>
    if rb s .aiPdmCh m 31 then settlePdm (setPdm s m { pdm s m with wake := Nat.max (pdm s m).wake until_ }) m else s)

/-- PDM_CLOCK_STATE. -/
def pdmClockState (s : State) (k what : Nat) : State :=
  emit s 0x0508 k (pay [(0, 1, what), (1, 1, pdmSel s k), (2, 1, s.fr.rate)])

/-- Stop a clock whose SEL is not valid at the rate (R184). -/
def pdmStop (s : State) (k : Nat) : State :=
  if !domOn s domAIN || pdmValid (pdmSel s k) s.fr.rate || (pdmClk s k).invalid then s
  else pdmClockState (setPdmClk s k { pdmClk s k with run := false, invalid := true }) k 1

/-- A clock follows its SEL at a boundary (R182, R184). -/
def pdmFollow (s : State) (k : Nat) : State :=
  let x := pdmClk s k
  let sel := pdmSel s k
  if !domOn s domAIN then s
  else if sel = 0 then setPdmClk s k PdmClock.reset
  else if !pdmValid sel s.fr.rate then pdmStop s k
  else if x.run && x.sel == sel then s
  else
    let s := wakeMics (setPdmClk s k { run := true, invalid := false, sel := sel }) k
    if x.invalid then pdmClockState s k 2 else s

/-- AI_PDM_CFG at the boundary that applies it: the clocks follow. A rate that a gap brings does not count before
FRAME_RATE_APPLIED (R184, R252). -/
def pdmFollowAll (s : State) : State := if s.ck.gap.isSome then s else pdmFollow (pdmFollow s 0) 1

/-- AI_PDM_CH at the boundary that applies it (R187); the settling of an enabled microphone waits for AIN (R171). -/
def applyAiPdmCh (s : State) (m : Nat) (v : Word) : State :=
  let old := reg s .aiPdmCh m
  let s := setReg s .aiPdmCh m v
  if bit v 31 && (!bit old 31 || bit old 27 != bit v 27) then settlePdm s m else s

/-- AI_DISABLE: EN = 0 at its boundary, of an analog input or a microphone (R31, R188). -/
def execAiDisable (t : Frac) (q : Fin 48) (s : State) : Res :=
  .next (atBoundary (atT s t) (fun s =>
    if q.val < 16 then applyAiChCfg s q.val (reg s .aiChCfg q.val &&& 0x7FFFFFFF)
    else applyAiPdmCh s (q.val - 16) (reg s .aiPdmCh (q.val - 16) &&& 0x7FFFFFFF)))

/-- A microphone is clocked and enabled. -/
def pdmLive (s : State) (m : Nat) : Bool := rb s .aiPdmCh m 31 && (pdmClk s (m / 16)).run

/-- PDM_STUCK (R185). -/
def execPdmStuck (t : Frac) (m : Fin 32) (value : Bool) (s : State) : Res :=
  let s := atT s t
  .next (
    if !pdmLive s m.val || (pdm s m.val).stuck then s
    else emit (setPdm s m.val { pdm s m.val with stuck := true, stuckAt := nowTicks s }) 0x0506 (16 + m.val)
      (pay [(0, 1, b2n value)]))

/-- PDM_RECOVERED (R185, R187). -/
def execPdmRecovered (t : Frac) (m : Fin 32) (s : State) : Res :=
  let s := atT s t
  let x := pdm s m.val
  .next (
    if !x.stuck then s
    else
      let s := settlePdm (setPdm s m.val { x with stuck := false, stuckAt := 0 }) m.val
      emit s 0x0507 (16 + m.val) (pay [(0, 4, satTo 0xFFFFFFFF ((nowTicks s - x.stuckAt) / tMs))]))

/-! ### Jacks and biases (R177, R178, R190) -/

/-- The jacks with EN = 1. -/
def liveJacks (s : State) : List Nat := (List.range 8).filter (fun j => rb s .aiJack j 31)

/-- An input is muted by a jack (R190). -/
def jackMuted (s : State) (n : Nat) : Bool :=
  (liveJacks s).any (fun j => rb s .aiJack j n && !(aiJack s j).released)

/-- A bias is to be driven: powered, enabled, not shorted, and no jack that names it reads unplugged. -/
def biasWanted (s : State) (b : Nat) : Bool :=
  domOn s domAIN && rb s .aiBiasCfg 0 (8 * b + 7) && !(bias s b).short
    && (liveJacks s).all (fun j => !rb s .aiJack j (24 + b) || (aiJack s j).biasOk)

/-- VSEL in mV. -/
def vselMv (code : Nat) : Int :=
  match code with
  | 0 => 2000
  | 1 => 2500
  | 2 => 2800
  | _ => 3000

/-- What a bias ball is driven to: a voltage in mV, or held to AGND through 10 kΩ, or high impedance (R177). -/
inductive BiasBall where
  | highZ | held | driven (mv : Int)
  deriving DecidableEq, Repr

/-- The ball of a bias: it is driven while on, and until a ramp to 0 V ends. -/
def biasBall (s : State) (b : Nat) : BiasBall :=
  let x := bias s b
  if !domOn s domAIN then .highZ
  else if x.on || nowTicks s < x.volt.at_ + x.volt.len then .driven (x.volt.value (nowTicks s)) else .held

/-- The voltage slews from where it stands to what is wanted, over 20 ms (R177). [log: DESIGN CHOICE 98] -/
def biasSlew (s : State) (b : Nat) (on : Bool) : Slope :=
  { first := (bias s b).volt.value (nowTicks s),
    last := if on then vselMv (rf s .aiBiasCfg 0 (8 * b + 1) (8 * b)) else 0, at_ := nowTicks s, len := 20 * tMs }

/-- A bias follows what is wanted of it and its VSEL, with a ramp. -/
def biasFollow (s : State) (b : Nat) : State :=
  let x := bias s b
  let w := biasWanted s b
  let r := biasSlew s b w
  if x.on == w && x.volt.last == r.last then s
  else setBias s b { x with on := w, volt := r, current := if w then x.current else 0 }

def biasFollowAll (s : State) : State := each [0, 1, 2, 3] s biasFollow

/-- AI_BIAS_CFG at the boundary that applies it, with AIN on or off: EN = 0 clears SHORT; a change of VSEL slews
(R177, R178). [log: DESIGN CHOICE 106] -/
def applyBiasCfg (s : State) (v : Word) : State :=
  let s := setReg { s with ai := { s.ai with biasConf := true } } .aiBiasCfg 0 v
  biasFollowAll (each [0, 1, 2, 3] s (fun s b =>
    setBias s b { bias s b with short := (bias s b).short && bit v (8 * b + 7) }))

/-- BIAS_ENABLE: EN of one bias at its boundary (R31). -/
def execBiasEnable (t : Frac) (b : Fin 4) (en : Bool) (s : State) : Res :=
  .next (atBoundary (atT s t) (fun s =>
    let m : Word := 1 <<< (8 * b.val + 7)
    applyBiasCfg s (if en then reg s .aiBiasCfg ||| m else reg s .aiBiasCfg &&& ~~~m)))

/-- BIAS_SHORT: 100 ms in current limit (R178): off at once, without a ramp. -/
def execBiasShort (t : Frac) (b : Fin 4) (current : Fin 128) (s : State) : Res :=
  let s := atT s t
  .next (
    if !(bias s b.val).on then s
    else emit (setBias s b.val { Bias.reset with short := true }) 0x0504 b.val
      (pay [(0, 1, rf s .aiBiasCfg 0 (8 * b.val + 1) (8 * b.val)), (1, 1, current.val)]))

/-- CURRENT of the biases, every millisecond (R195). -/
def biasCurrents (s : State) (x : StrobeIn) : State :=
  if s.fr.ticks / tMs = (s.fr.ticks - framePeriod s.fr.rate) / tMs then s
  else each [0, 1, 2, 3] s (fun s b =>
    setBias s b { bias s b with current := if (bias s b).on then ((x.bias[b]?).getD 0).toNat else 0 })

/-- The RTC runs on by `cycles` of its oscillator: TRIM adds TRIM × 2^-20 of a cycle to each (R407). The comparators are
sampled by the same cycles (R409). [log: DESIGN CHOICE 31] -/
def rtcAdvance (s : State) (cycles : Nat) : State :=
  let s := { s with pd := { s.pd with osc := s.pd.osc + cycles } }
  if !s.pd.oscOk then s
  else
    let p := s.pd
    let acc := p.trimRem + (cycles : Int) * sext 8 (rf s .pdRtcCfg 0 7 0)
    let extra := acc / 1048576
    let total := ((p.sec * 32768 + p.frac + cycles : Nat) : Int) + extra
    let n := total.toNat
    { s with pd := { p with trimRem := acc % 1048576, sec := n / 32768 % 2 ^ 48, frac := n % 32768 } }

/-- LEVEL of a comparator, and the cycle of its change (R409). -/
def setAwc (s : State) (i : Nat) (level : Bool) : State :=
  if tget false s.pd.awc i == level then s
  else { s with pd := { s.pd with awc := tput false s.pd.awc i level, awcAt := tput 0 s.pd.awcAt i s.pd.osc } }

/-- The comparator that a jack follows has held, for DEBOUNCE ms, the level of the state the jack is not in: plugged
reads high with POL 0 (R190, R208). The time is that of the comparators' own clock, which runs while there are no
strobes. [log: DEDUCED 62] -/
def jackHeld (s : State) (x : Jack) (comp : Nat) (cfg : Word) : Bool :=
  tget false s.pd.awc comp == (!x.plugged != bit cfg 30)
    && decide (fld cfg 23 16 * 32768 ≤ 1000 * (s.pd.osc - Nat.max x.since (tget 0 s.pd.awcAt comp)))

/-- JACK_CHANGED: the comparator has held the opposite level for DEBOUNCE (R190, step 1). -/
def execJackChanged (t : Frac) (j : Fin 8) (cycles : Nat) (s : State) : Res :=
  let s := rtcAdvance (atT s t) cycles
  let x := aiJack s j.val
  .next (
    if !rb s .aiJack j.val 31 || !jackHeld s x j.val (reg s .aiJack j.val) then s
    else emit (setAiJack s j.val { x with plugged := !x.plugged, pend := true, changedAt := nowTicks s }) 0x0505 j.val
      (pay [(0, 1, b2n !x.plugged), (2, 2, rf s .aiJack j.val 15 0), (4, 1, rf s .aiJack j.val 27 24)]))

/-- The inputs of a plugged jack are released: at once with no bias named, else 50 ms after the change (R190, step 3). -/
def jackDue (s : State) (j : Nat) : Bool :=
  let x := aiJack s j
  rb s .aiJack j 31 && x.plugged && (rf s .aiJack j 27 24 == 0 || x.changedAt + 50 * tMs ≤ nowTicks s)

/-- Steps 2 and 3 of R190 at a boundary: a change that waits reaches the biases, and what is due is released. -/
def jackBoundary (s : State) : State :=
  biasFollowAll (each (List.range 8) s (fun s j =>
    let x := aiJack s j
    setAiJack s j { x with pend := false, biasOk := if x.pend then x.plugged else x.biasOk,
                           released := x.plugged && (x.released || jackDue s j) }))

/-- JACK_PLUG_RELEASE: a boundary at least 50 ms after a plug (R190, step 3). -/
def execJackPlugRelease (t : Frac) (j : Fin 8) (s : State) : Res :=
  .next (atBoundary (atT s t) (fun s =>
    if jackDue s j.val && !(aiJack s j.val).pend then setAiJack s j.val { aiJack s j.val with released := true } else s))

/-- AI_JACK at the boundary that applies it, with AIN on or off: a jack not followed holds nothing, and one newly followed
starts as unplugged. [log: DESIGN CHOICE 106] -/
def applyAiJack (s : State) (j : Nat) (v : Word) : State :=
  let old := reg s .aiJack j
  let s := setReg s .aiJack j v
  biasFollowAll (if bit old 31 == bit v 31 then s else setAiJack s j { Jack.reset with since := s.pd.osc })

/-! ### Clearing peaks (R195) -/

/-- AI_PEAK_CLEAR: PEAK, CLIPS, and FORCED and OVERLOADS, at the next boundary. -/
def peakRequest (s : State) (v : Word) : State :=
  let l := if bit v 31 then List.range 48 else if fld v 5 0 < 48 then [fld v 5 0] else []
  { s with ai := { s.ai with clear := s.ai.clear ++ l } }

/-- AI_PEAK_CLEAR. -/
def execAiPeakClear (t : Frac) (src : Owner) (v : Word) (s : State) : Res :=
  .next (directWrite (atT s t) src 0x40010 0x2A (fun s => peakRequest s v))

/-- The clears that wait, at a boundary, with AIN on or off (R195). [log: DESIGN CHOICE 106] -/
def peakBoundary (s : State) : State :=
  each s.ai.clear { s with ai := { s.ai with clear := [] } } (fun s q =>
    let s := { s with ai := { s.ai with src := tmod AiSrc.reset s.ai.src q (fun x => { x with peak := 0, clips := 0 }) } }
    if q < 16 then setAiCh s q { aiCh s q with forced := 0, overloads := 0 } else s)

/-! ### Domain AIN and rate changes -/

/-- AIN powers up: what the registers hold is applied (R171, R186). -/
def ainUp (s : State) : State :=
  let s := each (List.range 16) s (fun s n =>
    let g := rf s .aiChCfg n 6 0
    let s := setAiCh s n (takeDual s n (aiCh s n))
    let s := if g = (aiCh s n).gain then s else newGain s n g
    if rb s .aiChCfg n 31 then aiStart s n else s)
  biasFollowAll (pdmFollowAll s)

/-- AIN powers down: inputs stop as a step, clocks and biases with them. -/
def ainOff (s : State) : State :=
  let s := each (List.range 16) s (fun s n => setAiCh (aiStop s n) n { aiCh (aiStop s n) n with zc := none, ws := [] })
  let s := each [0, 1] s (fun s k => setPdmClk s k PdmClock.reset)
  each [0, 1, 2, 3] s (fun s b => setBias s b { Bias.reset with short := (bias s b).short })

/-- FRAME_RATE_APPLIED at the inputs (R184, R187). -/
def rateInputs (s : State) (old : Nat) : State :=
  let s := each (List.range 16) s (fun s n =>
    if converts (aiCh s n) then settleAi s n else s)
  let s := each (List.range 32) s (fun s m => if pdmLive s m then settlePdm s m else s)
  let s := each [0, 1] s (fun s k => if (pdmClk s k).run && old % 2 != s.fr.rate % 2 then wakeMics s k else s)
  each [0, 1] s pdmStop

/-! ### Capture (R181, R191–R193) -/

/-- The output of a filter of Sieve, before it saturates. -/
def sieveOut (f : Iir) : Int := Series.nearest f.y1 (2 ^ 24)

/-- The corner of the wind filter for a WIND, in Hz. -/
def windHz (wind : Nat) : Nat := 40 * wind

/-- A sample after the two filters of Sieve, the offset filter and then the wind filter, with the state and whether
something saturated (R181, R192). A filter that is off keeps its state. -/
def sieve (hz : Nat) (off : Bool) (wind : Nat) (x : AiSrc) (v : Int) : Int × AiSrc × Bool :=
  let a := sat32 v
  let o := if off then Series.filter (Series.highPass1 2 hz) x.offset a else x.offset
  let b := if off then sieveOut o else a
  let c := sat32 b
  let w := if wind = 0 then x.wind else Series.filter (Series.highPass2 (windHz wind) hz) x.wind c
  let d := if wind = 0 then c else sieveOut w
  (sat32 d, { x with offset := o, wind := w }, a != v || c != b || sat32 d != d)

/-- INPUT_OVERLOAD, for the first frame in a second (R193). -/
def inputOverload (s : State) (q : Nat) (analog clip : Bool) : State :=
  let x := tget AiSrc.reset s.ai.src q
  let now := nowTicks s
  if !(analog || clip) || (x.overAt != 0 && now + 1 < x.overAt + tSec) then s
  else
    let s := { s with ai := { s.ai with src := tput AiSrc.reset s.ai.src q { x with overAt := now + 1 } } }
    emit s 0x0501 q (pay [(0, 1, b2n analog + 2 * b2n clip), (2, 2, x.peak), (4, 2, x.clips),
                          (6, 1, if q < 16 then (aiCh s q).overloads else 0)])

/-- A decimation filter on the samples of a frame: its state after them and its output (R179, R180), of which the spec
gives the response alone. [log: DESIGN CHOICE 98] -/
def decimate (kind st : Nat) (l : List Int) : Nat × Int :=
  let st := Config.decimatorStep kind st l
  (st, Config.decimatorOut kind st)

/-- Analog input `n` on a frame (R174, R179): the eight samples of the channel and the filter of its rate and FILTER. -/
def decimateAi (s : State) (n st : Nat) (paths : List (Int × Int)) : Nat × Int :=
  decimate (2 * s.fr.rate + b2n (rb s .aiChCfg n 27)) st
    (channelFrame (fadeSteps (8 - (aiCh s n).ws.length) (aiCh s n)) paths)

/-- The bits of microphone `m` on its line: an even one at the rising edge, an odd one at the falling edge; 1 is +1 and 0 is
−1 (R183). -/
def pdmBits (m : Nat) (line : List (Bool × Bool)) : List Int :=
  line.map (fun e => if (if m % 2 = 0 then e.1 else e.2) then 1 else -1)

/-- Clock cycles that begin in a frame, at most (R182). -/
def pdmCycles (s : State) (k : Nat) : Nat :=
  (pdmHz (pdmClk s k).sel s.fr.rate + frameHz s.fr.rate - 1) / frameHz s.fr.rate

/-- Microphone `m` on a frame (R180, R183): the bits of its line and the filter of its rate, clock and FILTER. -/
def decimatePdm (s : State) (m st : Nat) (lines : Tbl (List (Bool × Bool))) : Nat × Int :=
  decimate (16 + 2 * (8 * s.fr.rate + (pdmClk s (m / 16)).sel) + b2n (rb s .aiPdmCh m 27)) st
    (pdmBits m ((tget [] lines (m / 2)).take (pdmCycles s (m / 16))))

/-- The frame of an analog input ends: the weights of its last samples, DUAL for the next frame, its settling and its
overloads (R174, R176, R187, R191). [log: DESIGN CHOICE 106] -/
def endInputFrame (s : State) (n : Nat) (analog : Bool) : State :=
  let c := takeDual s n (fadeSteps (8 - (aiCh s n).ws.length) (aiCh s n))
  setAiCh s n { c with ws := [], settle := c.settle.map (· - 1),
                       overloads := if analog then inc8 c.overloads else c.overloads }

/-- The frame of a microphone ends: its settling counts once it has woken (R184, R187). -/
def endPdmFrame (s : State) (m : Nat) : State :=
  let p := pdm s m
  setPdm s m (if nowTicks s < p.wake then p else { p with settle := p.settle.map (· - 1) })

/-- One input at a strobe: the sample it presents, and what the frame leaves. -/
def captureInput (x : StrobeIn) (a : Tbl Int × State) (q : Nat) : Tbl Int × State :=
  let s := a.2
  let m := q - 16
  let live : Bool := if q < 16 then converts (aiCh s q) else pdmLive s m
  if !live then a
  else
    let cfg := if q < 16 then reg s .aiChCfg q else reg s .aiPdmCh m
    let src := tget AiSrc.reset s.ai.src q
    let d := if q < 16 then decimateAi s q src.dec (tget [] x.paths q) else decimatePdm s m src.dec x.pdmLines
    let r := sieve (frameHz s.fr.rate) (bit cfg 26) (fld cfg 25 24) { src with dec := d.1 } d.2
    let shown : Bool := if q < 16 then (aiCh s q).st == .running && (aiCh s q).settle.isNone && !jackMuted s q
      else (pdm s m).settle.isNone && !(pdm s m).stuck
    let y := if shown then r.1 else 0
    let z := { r.2.1 with peak := Nat.max r.2.1.peak (y.natAbs / 65536),
                          clips := if r.2.2 then inc16 r.2.1.clips else r.2.1.clips }
    let s := { s with ai := { s.ai with src := tput AiSrc.reset s.ai.src q z } }
    let analog := q < 16 && x.overloaded.contains q
    let s := if q < 16 then endInputFrame s q analog else endPdmFrame s m
    (tput 0 a.1 (0x1800 + q) y, inputOverload s q analog r.2.2)

/-- Every input at a strobe. -/
def captureInputs (s : State) (x : StrobeIn) : Tbl Int × State :=
  if !domOn s domAIN then ([], s) else (List.range 48).foldl (captureInput x) ([], biasCurrents s x)

end Sys2Proof.Machine
end

