-- ==== Sys2Proof/Machine/Outputs.lean ====
section
/-! DEFINITION. Line and headphone outputs: starts, stops, ramps, faults, the charge pump and the headphone
jacks (R197–R211). -/

namespace Sys2Proof.Machine

open Sys2Proof

def outp (s : State) (o : Nat) : Outp := tget Outp.reset s.aq.ch o

def setOutp (s : State) (o : Nat) (x : Outp) : State :=
  { s with aq := { s.aq with ch := tput Outp.reset s.aq.ch o x } }

/-- [log: DEDUCED 62] -/
def hpJack (s : State) (h : Nat) : Jack := tget Jack.reset s.aq.jack h

def setHpJack (s : State) (h : Nat) (x : Jack) : State :=
  { s with aq := { s.aq with jack := tput Jack.reset s.aq.jack h x } }

def allOut : List Nat := List.range 24

/-- AQ_OUT_STAT.STATE (R203). -/
def outCode : OutState → Nat
  | .shunted => 0
  | .starting => 1
  | .running => 2
  | .stopping => 3
  | .fault => 4

/-! ### Ramps (R204) -/

/-- Frames of a ramp: round(R × fs). -/
def rampLen (s : State) (o : Nat) : Nat :=
  let ms := match rf s .aqOutCfg o 25 24 with
    | 0 => 2
    | 1 => 5
    | 2 => 10
    | _ => 20
  (2 * ms * frameHz s.fr.rate + 1000) / 2000

/-- Gain 0, and gain 1. -/
def rampAtZero (r : Ramp) : Bool := r.pos == 0
def rampAtOne (r : Ramp) : Bool := r.len ≤ r.pos

/-- Ramp toward gain 1 or 0: a ramp in progress reverses at its own rate, a new one takes `len` frames. -/
def rampTo (r : Ramp) (up : Bool) (len : Nat) : Ramp :=
  if r.moving then { r with up := up }
  else if rampAtZero r then { pos := 0, len := len, up := up, moving := up }
  else { pos := len, len := len, up := up, moving := !up }

/-- One frame of a ramp. -/
def rampStep (r : Ramp) : Ramp :=
  if !r.moving then r
  else if r.up then { r with pos := Nat.min r.len (r.pos + 1), moving := decide (r.pos + 1 < r.len) }
  else { r with pos := r.pos - 1, moving := decide (1 < r.pos) }

/-! ### Starts and stops (R204) -/

/-- Step 2 of R204 at once when CP_OK is 1, else the wait for it. -/
def pumpPhase (s : State) : OutPhase := if s.aq.cpOk then .driver else .pump

/-- No jack holds output `o` muted: it is no headphone channel, or its jack is not followed or has released it. -/
def jackFree (s : State) (o : Nat) : Bool :=
  o < 16 || !rb s .aqHpJack ((o - 16) / 2) 31 || (hpJack s ((o - 16) / 2)).released

/-- The jack's gain of an output that starts (R208): 0 while the jack holds it muted; a ramp back goes on; else 1. -/
def startJack (s : State) (o : Nat) : Ramp :=
  let x := outp s o
  if !x.jackMute then .one else if jackFree s o then x.jack else .zero

/-- Step 1 of R204, and step 2 when CP_OK is already 1. -/
def outBegin (s : State) (o cause : Nat) : State :=
  let s := { s with aq := { s.aq with cpRun := true } }
  setOutp s o { outp s o with st := .starting, phase := pumpPhase s, startCause := cause, gain := .zero,
                              jack := startJack s o }

/-- A jack has reversed the start ramp of an output, whose own jack gain still stands at 1 (R208). -/
def startReversed (x : Outp) : Bool := x.jackMute && rampAtOne x.jack && !x.jack.moving

/-- EN = 1 applied. -/
def outStart (s : State) (o : Nat) : State :=
  let x := outp s o
  match x.st with
  | .shunted => if domOn s domAOUT then outBegin s o 1 else s
  | .stopping =>
    if x.phase = .rampDown then
      setOutp s o { x with st := .starting, phase := .ramp, startCause := 1,
                           gain := rampTo x.gain (!startReversed x) (rampLen s o),
                           jack := if x.jackMute || rampAtOne x.jack then x.jack else rampTo x.jack true (rampLen s o) }
    else outBegin s o 1
  | _ => s

/-- The stop of an output, from step 6 or straight from step 7; EN = 0 in FAULT gives SHUNTED. -/
def outStop (s : State) (o : Nat) : State :=
  let x := outp s o
  match x.st with
  | .running =>
    setOutp s o { x with st := .stopping, phase := .rampDown, gain := rampTo x.gain false (rampLen s o),
                         stopAt := nowTicks s + 1 }
  | .starting =>
    if x.phase = .ramp ∧ rampAtZero x.gain = false then
      setOutp s o { x with st := .stopping, phase := .rampDown, gain := rampTo x.gain false (rampLen s o),
                           stopAt := nowTicks s + 1 }
    else setOutp s o { x with st := .stopping, phase := .closed, gain := .zero, stopAt := nowTicks s + 1 }
  | .fault => setOutp s o { x with st := .shunted, phase := .idle, gain := .zero }
  | _ => s

/-- AQ_OUT_CFG at the boundary that applies it: FILTER changes only while SHUNTED (R202). While AOUT is off the write
waits for its power-up (R197). -/
def applyOutCfg (s : State) (o : Nat) (v : Word) : State :=
  let old := reg s .aqOutCfg o
  if bit old 27 != bit v 27 && (outp s o).st != .shunted then s
  else if !domOn s domAOUT then setReg s .aqOutCfg o v
  else
    let s := setReg s .aqOutCfg o v
    let x := outp s o
    let s := if bit old 30 == bit v 30 then s
      else setOutp s o { x with mute := rampTo x.mute (!bit v 30) (rampLen s o) }
    if bit v 31 then outStart s o else outStop s o

/-- OUT_ENABLE: EN = 1 at its boundary (R31). -/
def execOutEnable (t : Frac) (o : Fin 24) (s : State) : Res :=
  .next (atBoundary (atT s t) (fun s => applyOutCfg s o.val (reg s .aqOutCfg o.val ||| 0x80000000)))

/-- OUT_CONVERTER_START: step 2; the negative rail is good. -/
def execOutConverterStart (t : Frac) (o : Fin 24) (s : State) : Res :=
  let s := atT s t
  let x := outp s o.val
  .next (
    if x.st = .starting ∧ x.phase = .pump ∧ s.aq.cpRun = true then
      let s := { s with aq := { s.aq with cpOk := true } }
      setOutp s o.val { x with phase := .driver }
    else s)

/-- OUT_SHUNT_OPEN: step 3; the ramp begins at the next strobe. -/
def execOutShuntOpen (t : Frac) (o : Fin 24) (s : State) : Res :=
  let s := atT s t
  let x := outp s o.val
  .next (
    if x.st = .starting ∧ x.phase = .driver then
      setOutp s o.val { x with phase := .ramp, gain := rampTo .zero true (rampLen s o.val) }
    else s)

/-- OUT_STARTED: step 5. -/
def execOutStarted (t : Frac) (o : Fin 24) (s : State) : Res :=
  let s := atT s t
  let x := outp s o.val
  .next (
    if x.st = .starting ∧ x.phase = .ramp ∧ rampAtOne x.gain = true then
      emit (setOutp s o.val { x with st := .running, phase := .idle }) 0x0601 o.val (pay [(0, 1, x.startCause)])
    else s)

/-- OUT_DISABLE: EN = 0 at its boundary, step 6 (R31). -/
def execOutDisable (t : Frac) (o : Fin 24) (s : State) : Res :=
  .next (atBoundary (atT s t) (fun s => applyOutCfg s o.val (reg s .aqOutCfg o.val &&& 0x7FFFFFFF)))

/-- OUT_SHUNT_CLOSE: step 7. -/
def execOutShuntClose (t : Frac) (o : Fin 24) (s : State) : Res :=
  let s := atT s t
  let x := outp s o.val
  .next (
    if x.st = .stopping ∧ x.phase = .rampDown ∧ rampAtZero x.gain = true then
      setOutp s o.val { x with phase := .closed }
    else s)

/-- OUT_STOPPED: step 8. -/
def execOutStopped (t : Frac) (o : Fin 24) (s : State) : Res :=
  let s := atT s t
  let x := outp s o.val
  .next (
    if x.st = .stopping ∧ x.phase = .closed then
      emit (setOutp s o.val { x with st := .shunted, phase := .idle }) 0x0602 o.val 0
    else s)

/-! ### Faults (R205–R207) -/

/-- The driver of an output is on. -/
def driving (x : Outp) : Bool :=
  match x.st with
  | .running | .stopping => true
  | .starting => x.phase != .pump
  | _ => false

/-- An output that is neither SHUNTED nor in FAULT. -/
def outLive (s : State) (o : Nat) : Bool :=
  match (outp s o).st with
  | .shunted | .fault => false
  | _ => true

/-- The driver off and the shunt closed at once: FAULT. -/
def outFault (cause : Nat) (s : State) (o : Nat) : State :=
  setOutp s o { outp s o with st := .fault, phase := .idle, cause := cause, gain := .zero }

def outMask (p : Nat → Bool) : Nat := maskOf 24 p

/-- OUT_SHORT (R205). -/
def execOutShort (t : Frac) (o : Fin 24) (leg : ShortLeg) (s : State) : Res :=
  let s := atT s t
  let x := outp s o.val
  let code := match leg with
    | .headphone => 1
    | .lineP => 2
    | .lineN => 3
  .next (
    if !driving x || (leg == .headphone) != (16 ≤ o.val : Bool) then s
    else
      let s := outFault 1 (setOutp s o.val { x with shorts := inc8 x.shorts }) o.val
      emit s 0x0603 o.val (pay [(0, 1, inc8 x.shorts), (1, 1, code)]))

/-- Every output that is neither SHUNTED nor in FAULT goes to FAULT, and recovery awaits the rail (R206, R207). -/
def railFault (s : State) (cause : Nat) : State :=
  let f := s.aq.cpFault || allOut.any (outLive s)
  each (allOut.filter (outLive s)) { s with aq := { s.aq with cpOk := false, cpFault := f } } (outFault cause)

/-- CP_FAULT (R206), raised once: while the pump runs, and not again before a recovery or a new start. -/
def execCpFault (t : Frac) (rail : BitVec 16) (s : State) : Res :=
  let s := atT s t
  .next (
    if !s.aq.cpRun || (s.aq.cpFault && !allOut.any (outLive s)) then s
    else emit (railFault s 2) 0x0605 noUnit (pay [(0, 2, rail.toNat), (4, 4, outMask (outLive s))]))

/-- The outputs that a recovery restarts: in FAULT by the pump or the supply, with EN still 1 (R206, R207). -/
def resumable (s : State) (o : Nat) : Bool :=
  let x := outp s o
  x.st == .fault && (x.cause == 2 || x.cause == 3) && rb s .aqOutCfg o 31

/-- CP_RESUMED: after a fault or a clamp the rail has been good for 10 ms (R206, R207). [log: DEDUCED 64] -/
def execCpResumed (t : Frac) (s : State) : Res :=
  let s := atT s t
  .next (
    if !s.aq.cpFault || !domOn s domAOUT then { s with aq := { s.aq with clamp := none } }
    else
      let l := allOut.filter (resumable s)
      let s := { s with aq := { s.aq with cpOk := true, cpFault := false, clamp := none } }
      let s := each l s (fun s o => outBegin s o 2)
      emit s 0x0606 noUnit (pay [(4, 4, outMask l.contains)]))

/-- SUPPLY_CLAMP (R207): raised as VANA33 falls below 2.9 V; while the clamp lasts a further report follows the voltage
down. [log: DEDUCED 64] -/
def execSupplyClamp (t : Frac) (v : BitVec 16) (s : State) : Res :=
  let s := atT s t
  let f := railFault { s with aq := { s.aq with clamp := some v.toNat } } 3
  .next (
    if s.aq.clamp.isSome then f
    else emit f 0x0607 noUnit (pay [(0, 2, v.toNat), (4, 4, outMask (outLive s))]))

/-- VANA33 is below 1.5 V: the shunts can no longer be held closed (R207). -/
def shuntsLost (s : State) : Bool := s.aq.clamp.any (· < 150)

/-- CP_STOP: every output has been SHUNTED or FAULT for 10 ms (R200). -/
def execCpStop (t : Frac) (s : State) : Res :=
  let s := atT s t
  .next (if allOut.any (outLive s) then s else { s with aq := { s.aq with cpRun := false } })

/-! ### Headphone jacks (R208) -/

/-- The two channels of headphone `h`. -/
def hpOuts (h : Nat) : List Nat := [16 + 2 * h, 17 + 2 * h]

/-- HP_JACK_CHANGED: step 1. -/
def execHpJackChanged (t : Frac) (h : Fin 4) (cycles : Nat) (s : State) : Res :=
  let s := rtcAdvance (atT s t) cycles
  let x := hpJack s h.val
  let cfg := reg s .aqHpJack h.val
  .next (
    if !bit cfg 31 || !jackHeld s x (fld cfg 26 24) cfg then s
    else emit (setHpJack s h.val { x with plugged := !x.plugged, pend := true, changedAt := nowTicks s }) 0x0604 h.val
      (pay [(0, 1, b2n !x.plugged), (1, 1, fld cfg 26 24)]))

/-- A channel is muted by its jack: its start ramp reverses, or its jack gain ramps down. -/
def jackDown (s : State) (o : Nat) : State :=
  let x := outp s o
  let x :=
    if x.st = .starting ∧ x.phase = .ramp then { x with gain := rampTo x.gain false (rampLen s o) }
    else { x with jack := rampTo x.jack false (rampLen s o) }
  setOutp s o { x with jackMute := true }

/-- A channel's jack releases it: what was reversed or ramped down ramps back, of a stopping channel too, but one that
stops at the same boundary takes no ramp: its JACK_MUTE alone follows the jack (R208). [log: DEDUCED 62] -/
def jackUp (s : State) (o : Nat) : State :=
  let x := outp s o
  match x.st with
  | .shunted | .fault => setOutp s o { x with jack := .one, jackMute := false }
  | _ =>
    if x.st = .stopping ∧ x.stopAt = nowTicks s + 1 then
      setOutp s o { x with jackMute := false }
    else
      let gain := if x.st = .starting ∧ x.phase = .ramp then rampTo x.gain true (rampLen s o) else x.gain
      let jack := if rampAtOne x.jack && !x.jack.moving then x.jack else rampTo x.jack true (rampLen s o)
      setOutp s o { x with gain := gain, jack := jack }

/-- The two channels of a headphone follow a jack while AOUT is on; while it is off AQ_OUT_STAT keeps its values (R197). -/
def hpEach (s : State) (h : Nat) (f : State → Nat → State) : State :=
  if domOn s domAOUT then each (hpOuts h) s f else s

/-- A jack that has unplugged mutes its channels; one plugged for PLUG_DELAY releases them (R208, steps 2 and 3). -/
def hpFollow (s : State) (h : Nat) : State :=
  let x := hpJack s h
  let cfg := reg s .aqHpJack h
  if bit cfg 31 && x.pend && !x.plugged then
    hpEach (setHpJack s h { x with pend := false, released := false }) h jackDown
  else if bit cfg 31 && x.plugged && !x.released && x.changedAt + fld cfg 15 8 * tMs ≤ nowTicks s then
    hpEach (setHpJack s h { x with pend := false, released := true }) h jackUp
  else s

/-- Steps 2 and 3 of R208 at a boundary. -/
def hpBoundary (s : State) : State := each (List.range 4) s hpFollow

/-- HP_JACK_UNMUTE: the boundary at least PLUG_DELAY after a plug (R208, step 3). -/
def execHpJackUnmute (t : Frac) (h : Fin 4) (s : State) : Res :=
  .next (atBoundary (atT s t) (fun s => if (hpJack s h.val).plugged then hpFollow s h.val else s))

/-- AQ_HPJACK at the boundary that applies it: one newly followed starts as unplugged, one not followed mutes nothing. -/
def applyHpJack (s : State) (h : Nat) (v : Word) : State :=
  let old := reg s .aqHpJack h
  let s := setReg s .aqHpJack h v
  if bit old 31 == bit v 31 then s
  else hpEach (setHpJack s h { Jack.reset with since := s.pd.osc }) h (if bit v 31 then jackDown else jackUp)

/-- The jack gain and JACK_MUTE of an output as its jack has them, without a ramp. -/
def jackSet (s : State) (o : Nat) : State :=
  let free := jackFree s o
  setOutp s o { outp s o with jack := if free then .one else .zero, jackMute := !free }

/-- CTRL powers up: every jack with EN = 1 starts as unplugged (R190, R208). -/
def ctrlUpJacks (s : State) : State :=
  let fresh : Jack := { Jack.reset with since := s.pd.osc }
  let s := each ((List.range 8).filter (fun j => rb s .aiJack j 31)) { s with ai := { s.ai with jack := [] } }
    (fun s j => setAiJack s j fresh)
  let s := each ((List.range 4).filter (fun h => rb s .aqHpJack h 31)) { s with aq := { s.aq with jack := [] } }
    (fun s h => setHpJack s h fresh)
  each ((List.range 8).map (· + 16)) s jackSet

/-! ### Rates and the domain -/

/-- FRAME_RATE_APPLIED at the outputs: the interpolators are zeroed, and 0 V is presented for a while (R202). -/
def rateOutputs (s : State) : State :=
  each allOut s (fun s o =>
    setOutp s o { outp s o with hold := some (settleFrames (rb s .aqOutCfg o 27)), interp := 0 })

/-- OUT_RATE_SETTLE_END: the frames at 0 V have passed. -/
def execOutRateSettleEnd (t : Frac) (o : Fin 24) (s : State) : Res :=
  let s := atT s t
  let x := outp s o.val
  .next (if x.hold = some 0 then setOutp s o.val { x with hold := none } else s)

/-- AOUT powers up: what the registers and the jacks hold is applied, and outputs with EN = 1 start (R197). -/
def aoutUp (s : State) : State :=
  each allOut s (fun s o =>
    let s := jackSet s o
    let s := setOutp s o { outp s o with mute := if rb s .aqOutCfg o 30 then .zero else .one }
    if rb s .aqOutCfg o 31 then outStart s o else outStop s o)

/-- AOUT powers down: driving outputs stop as a step, as under R207 (R392). -/
def aoutOff (s : State) : State :=
  let s := railFault s 3
  let s := { s with aq := { s.aq with cpRun := false } }
  each allOut s (fun s o => setOutp s o { outp s o with interp := 0, out := 0 })

/-! ### What an output puts out (R198, R199, R201, R202, R204) -/


/-- A sample by the product of the ramps: the start or stop ramp, MUTE and the jack's. [log: DESIGN CHOICE 97] -/
def gained (x : Outp) (y : Int) : Int :=
  Series.nearest (y * ((Nat.min x.gain.pos x.gain.len * Nat.min x.mute.pos x.mute.len * Nat.min x.jack.pos x.jack.len : Nat) : Int))
    ((x.gain.len * x.mute.len * x.jack.len : Nat) : Int)

/-- The driver puts samples out: it is on, and no frames at 0 V are left of a rate change. -/
def sounds (x : Outp) : Bool := driving x && x.phase != .driver && x.phase != .closed && x.hold.getD 0 == 0

/-- One output at a strobe: the sink's sample enters the interpolator of its rate and FILTER, and what leaves it is put
out with the gains as they stand (R201); a frame at 0 V has passed. [log: DESIGN CHOICE 97] -/
def outFrame (s : State) (o : Nat) (x : Outp) : Outp :=
  let kind := 8 + 2 * s.fr.rate + b2n (rb s .aqOutCfg o 27)
  let st := Config.interpolatorStep kind x.interp (BitVec.ofInt 32 (tget 0 s.mx.present (0x600 + o)))
  { x with interp := st, out := if sounds x then gained x (Config.interpolatorOut kind st 0).toInt else 0,
           hold := x.hold.map (· - 1) }

/-- The voltage of an output in µV: differential at a line output, against AGND at a headphone channel (R198, R199). -/
def outMicrovolts (s : State) (o : Nat) : Int :=
  Series.nearest ((outp s o).out * (if o < 16 then 2828427 else 1960000)) (2 ^ 31)

/-- The outputs at a strobe: every ramp advances, and the rail is measured; JACK_MUTE clears when its ramp back ends
(R200, R208). -/
def outputsStrobe (s : State) (rail : Bool) : State :=
  if !domOn s domAOUT then s
  else each allOut { s with aq := { s.aq with cpOk := rail } } (fun s o =>
    let x := outp s o
    let x := { x with gain := rampStep x.gain, mute := rampStep x.mute, jack := rampStep x.jack }
    let back := jackFree s o && rampAtOne x.jack && !(x.st == .starting && x.phase == .ramp && !rampAtOne x.gain)
    setOutp s o (outFrame s o { x with jackMute := x.jackMute && !back }))

end Sys2Proof.Machine
end

