-- ==== Sys2Proof/Machine/Ports.lean ====
section
/-! DEFINITION. Serial ports and their rate converters: formats, states, acquisition, unlocks and slot masks
(R212–R235). -/

namespace Sys2Proof.Machine

open Sys2Proof

def port (s : State) (p : Nat) : Port := tget Port.reset s.dp.port p

def setPort (s : State) (p : Nat) (x : Port) : State :=
  { s with dp := { s.dp with port := tput Port.reset s.dp.port p x } }

def allPorts : List Nat := List.range 8

/-- DP_STATE.STATE (R219). -/
def portCode : PortState → Nat
  | .off => 0
  | .wait => 1
  | .acquire => 2
  | .running => 3

def pll (s : State) (j : Nat) : Pll := tget Pll.reset s.ck.pll j

def setPll (s : State) (j : Nat) (x : Pll) : State :=
  { s with ck := { s.ck with pll := tput Pll.reset s.ck.pll j x } }

/-! ### The PLLs that the ports name (R238) -/

/-- The strobe PLL of a RATE code: 0 PLL_A for the 48 kHz family, 1 PLL_B for the other. -/
def strobePll (code : Nat) : Nat := if code % 2 = 1 then 0 else 1

/-- Port `p` is a controller whose FAMILY names PLL `j`. -/
def portNames (s : State) (j p : Nat) : Bool := rb s .dpFmt p 31 && rf s .dpFmt p 9 9 == j

/-- What runs PLL `j` while CLK is powered (R238). -/
def pllWanted (s : State) (j : Nat) : Bool :=
  match j with
  | 2 => true
  | 3 => s.pl.role != 0
  | _ => strobePll s.fr.rate == j || allPorts.any (portNames s j)
      || [0, 1].any (fun k => rb s .ckMclkCfg 0 (8 * k + 7) && rf s .ckMclkCfg 0 (8 * k + 6) (8 * k + 6) == j)

/-- Start or stop PLL `j` as what names it asks. [log: DEDUCED 74] -/
def pllFollow (s : State) (j : Nat) : State :=
  let p := pll s j
  if !domOn s domCLK || pllWanted s j == p.on then s else setPll s j { p with on := pllWanted s j, lock := false }

def pllFollowAll (s : State) : State := each [0, 1, 2, 3] s pllFollow

/-! ### Formats (R213–R218) -/

/-- WLEN in bits. -/
def wlen (f : Word) : Nat :=
  match fld f 20 19 with
  | 0 => 16
  | 1 => 20
  | 2 => 24
  | _ => 32

/-- SLOT_W in bit clocks. -/
def slotW (f : Word) : Nat :=
  match fld f 22 21 with
  | 0 => 16
  | 1 => 24
  | _ => 32

def slots (f : Word) : Nat := fld f 18 14 + 1

/-- Bit clocks of a port frame of correct length (R218). -/
def frameLen (f : Word) : Nat := if fld f 29 28 = 0 then slots f * slotW f else 2 * slotW f

/-- BDIV × SLOTS × SLOT_W by FAMILY and PRATE; none for a reserved combination (R216). -/
def rootRatio (family prate : Nat) : Option Nat :=
  match family, prate with
  | 0, 0 => some 12288
  | 0, 1 => some 8192
  | 0, 2 => some 6144
  | 0, 3 => some 4096
  | 0, 4 => some 3072
  | 0, 5 => some 2048
  | 0, 6 => some 1024
  | 0, 7 => some 512
  | 1, 0 => some 8192
  | 1, 1 => some 4096
  | 1, 2 => some 2048
  | 1, 3 => some 1024
  | 1, 4 => some 512
  | _, _ => none

/-- FS and DIN of a bit clock at the sampling edge (R213). -/
def bitSample (f : Word) (c : BitClock) : Bool × Bool := if bit f 26 then (c.fsFall, c.dinFall) else (c.fsRise, c.dinRise)

/-- Frame-start level of FS: high, in I2S low, inverted by FS_POL. -/
def startLevel (f : Word) : Bool := (fld f 29 28 != 1) != bit f 27

/-- The frame starts that a run of bit clocks shows, given the level of FS before it. -/
def frameStarts (f : Word) : Bool → List BitClock → List Bool
  | _, [] => []
  | prev, c :: r => let fs := (bitSample f c).1; (fs == startLevel f && prev != fs) :: frameStarts f fs r

/-- The bit clocks end with a frame start, and none stands between their first and their last. -/
def framed (f : Word) (l : List BitClock) : Bool :=
  match l with
  | [] => false
  | c :: r => ((frameStarts f (bitSample f c).1 r).reverse.head? == some true)
      && ((frameStarts f (bitSample f c).1 r).filter id).length == 1

/-- Bit clocks from the frame start to the MSB of slot 0. -/
def msbDelay (f : Word) : Nat := if fld f 29 28 = 0 then fld f 25 25 else if fld f 29 28 = 1 then 1 else 0

/-- The WLEN bits of slot `i` of a frame (R213, R214). -/
def slotBits (f : Word) (l : List BitClock) (i : Nat) : Word :=
  BitVec.ofNat 32 (((l.drop (msbDelay f + i * slotW f)).take (wlen f)).foldl (fun a c => 2 * a + b2n (bitSample f c).2) 0)

/-- Bit clocks for which a controller holds FS in its frame-start level (R213, R217). -/
def fsHeld (f : Word) : Nat :=
  if fld f 29 28 != 0 then slotW f
  else match fld f 24 23 with
    | 0 => 1
    | 1 => slotW f
    | _ => frameLen f / 2

/-- FS of a controller port in each bit clock of a frame (R213, R217). -/
def fsLevels (f : Word) : List Bool :=
  (List.range (frameLen f)).map (fun i => if i < fsHeld f then startLevel f else !startLevel f)

/-- A received slot of WLEN bits as a Q1.31 sample (R214). -/
def rxSample (f w : Word) : Int := sext (wlen f) w.toNat * 2 ^ (32 - wlen f)

/-- The word of WLEN bits sent for a Q1.31 sample (R215). -/
def txWord (f : Word) (y : Int) : Word :=
  let n := wlen f
  let t := if n = 32 then y else (y + 2 ^ (31 - n)) / 2 ^ (32 - n)
  BitVec.ofNat 32 (toU n (clampI (-(2 ^ (n - 1))) (2 ^ (n - 1) - 1) t))

/-- The bit clocks of a transmit slot (R213, R215): the word MSB first, then 0; released throughout without a word. -/
def slotOut (f : Word) : Option Word → List (Option Bool)
  | none => List.replicate (slotW f) none
  | some w => (List.range (slotW f)).map (fun i => some (decide (i < wlen f) && bit w (wlen f - 1 - i)))

/-! ### Slot masks (R227–R229) -/

def rxTx (x : Port) (rx : Bool) : SlotMask := if rx then x.rx else x.tx

def setRxTx (x : Port) (rx : Bool) (m : SlotMask) : Port := if rx then { x with rx := m } else { x with tx := m }

/-- A mask takes effect, with MASK_APPLIED. -/
def maskTake (s : State) (p : Nat) (rx : Bool) (v : Word) (next : Option Word) (pfn : Nat) : State :=
  let x := port s p
  emit (setPort s p (setRxTx x rx { active := v, pend := next, next := none, pfn := pfn })) 0x0703 p
    (pay [(0, 1, if rx then 1 else 2), (4, 4, v.toNat), (8, 4, pfn)])

/-- A write completes: pending, or after the mark of the next frame start (R228); at once while OFF; when PORT powers up
if it is off (R212). -/
def maskComplete (s : State) (p : Nat) (rx : Bool) (v : Word) (late : Bool) : State :=
  let x := port s p
  let m := rxTx x rx
  if !domOn s domPORT then setPort s p (setRxTx x rx { m with pend := some v, next := none })
  else if x.st = .off then maskTake s p rx v none 0
  else if late then
    setPort s p (setRxTx { x with maskLate := inc16 x.maskLate } rx { m with next := some v })
  else setPort s p (setRxTx x rx { m with pend := some v })

/-- A pending mask at a frame start. -/
def maskStart (s : State) (p : Nat) (rx : Bool) : State :=
  let x := port s p
  let m := rxTx x rx
  match m.pend with
  | some v => maskTake s p rx v m.next x.pfn
  | none => setPort s p (setRxTx x rx { m with pend := m.next, next := none })

/-- The name of a mask register. -/
def maskReg (rx : Bool) : RegName := if rx then .dpRxMask else .dpTxMask

/-- A mask is pending (R228): completed and waiting for its frame start, or staged with module timing. -/
def maskPending (s : State) (p : Nat) (rx : Bool) : Bool :=
  (rxTx (port s p) rx).pend.isSome || (rxTx (port s p) rx).next.isSome || anyStaged s (fun i => match i with
    | .reg off _ => off == regOff (maskReg rx) p
    | _ => false)

/-- A write of a mask register: it holds the value, and completes now or with its boundary (R228). -/
def maskWrite (s : State) (src : Owner) (p : Nat) (rx : Bool) (v : Word) (late : Bool) : State :=
  let s := setReg s (maskReg rx) p v
  if rb s .dpFmt p 12 then stageG s src (0x2C + p) (.reg (regOff (maskReg rx) p) v)
  else maskComplete s p rx v late

/-- A write of this register is a slot mask timed in the module domain, which its boundary orders (R31, R36). -/
def maskStaged (s : State) (n : RegName) (p : Nat) : Bool := (n == .dpRxMask || n == .dpTxMask) && rb s .dpFmt p 12

/-- MASK_WRITE. -/
def execMaskWrite (t : Frac) (src : Owner) (p : Fin 8) (rx : Bool) (v : Word) (late : Bool) (s : State) : Res :=
  .next (directWrite (atT s t) src (regOff (maskReg rx) p.val) (0x2C + p.val)
    (fun s => maskWrite s src p.val rx v late) (!maskStaged s (maskReg rx) p.val))

/-! ### States (R219–R224) -/

/-- PORT_CONFIG_REFUSED, counted (R220). -/
def portRefused (s : State) (p off reason : Nat) : State :=
  let s := { s with dp := { s.dp with refused := inc32 s.dp.refused } }
  emit s 0x0706 p (pay [(0, 2, off), (2, 1, reason), (4, 4, s.dp.refused)])

/-- The reason of R220 that refuses an enable. -/
def enableReason (s : State) (p : Nat) : Option Nat :=
  let f := reg s .dpFmt p
  let len := slots f * slotW f
  let ctl := bit f 31
  let fam := fld f 9 9
  let bdiv := rootRatio fam (fld f 8 5)
  if slotW f < wlen f then some 2
  else if fld f 29 28 != 0 && slots f != 2 then some 3
  else if ctl && (bdiv.map (fun n => n % len != 0 || n / len < 2)).getD false then some 4
  else if ctl && bdiv.isNone then some 5
  else if ctl && !(pll s fam).lock then some 6
  else none

/-- Enter WAIT; a controller port whose PLL runs the module awaits the next strobe (R217). -/
def portWait (s : State) (p : Nat) : State :=
  let x := port s p
  setPort s p { x with st := .wait, good := 0, phaseOk := 0, wrong := 0, offPeriod := 0, ratio := 0, missing := false,
                       restart := true, words := [], stopping := false, rxConv := [], txConv := [], fed := [], tail := [],
                       first := if portNames s (strobePll s.fr.rate) p then some (s.fr.fn + 1) else none }

/-- EN = 1 applied (R220): nothing while PORT is off or the port is not OFF. -/
def portEnable (s : State) (p : Nat) : State :=
  let s := setBit s .dpCtrl p 0 true
  if (port s p).st ≠ .off ∨ domOn s domPORT = false then s
  else match enableReason s p with
    | some r => portRefused (setBit s .dpCtrl p 0 false) p 0 r
    | none => portWait s p

/-- Enter OFF, with PORT_STOPPED. -/
def portOffNow (s : State) (p cause : Nat) : State :=
  let x := port s p
  emit (setPort s p { x with st := .off, stopping := false, missing := false, restart := false, ratio := 0, words := [],
                             first := none, rxConv := [], txConv := [], fed := [], tail := [] })
    0x0705 p (pay [(0, 1, cause)])

/-- EN = 0: the port stops at the end of the port frame in progress (R232); with none, at once. -/
def portStop (s : State) (p : Nat) : State :=
  let x := port s p
  match x.st with
  | .off => s
  | .wait => portOffNow s p 1
  | _ => if x.missing then portOffNow s p 1 else setPort s p { x with stopping := true }

/-- DP_CTRL at the boundary that applies it. [log: DEDUCED 66] -/
def applyDpCtrl (s : State) (p : Nat) (v : Word) : State :=
  if bit v 0 then portEnable s p else portStop (setBit s .dpCtrl p 0 false) p


/-- A write of DP_FMT: only while the port is OFF (R220). A PLL that it names starts, so that it can be locked when the
port is enabled (R238). [log: DEDUCED 74] -/
def fmtWrite (s : State) (p : Nat) (v : Word) : State :=
  if (port s p).st ≠ .off then portRefused s p 4 1
  else
    let w := mergeReg .dpFmt p (reg s .dpFmt p) v
    if regAccept .dpFmt p (reg s .dpFmt p) w then pllFollowAll (setReg s .dpFmt p w) else s

/-- PORT_FMT_WRITE. -/
def execPortFmtWrite (t : Frac) (src : Owner) (p : Fin 8) (v : Word) (s : State) : Res :=
  .next (directWrite (atT s t) src (regOff .dpFmt p.val) (0x2C + p.val) (fun s => fmtWrite s p.val v)
    (valueTakes s .dpFmt p.val v))

/-- An unlock (R223); a frame start that is already awaited stays awaited (R224). -/
def unlock (s : State) (p cause : Nat) : State :=
  let x := port s p
  let n := inc16 x.unlocks
  emit (setPort s p { x with st := .acquire, good := 0, phaseOk := 0, wrong := 0, offPeriod := 0, ratio := 0,
                             lastUnlock := cause, unlocks := n, missing := cause == 1 || x.missing, restart := true })
    0x0702 p (pay [(0, 1, cause), (4, 4, x.lastGood), (8, 2, n)])

/-- A port that has seen a frame start. -/
def portTracks (s : State) (p : Nat) : Bool :=
  match (port s p).st with
  | .acquire | .running => true
  | _ => false

/-- SRC_LOCKED: step 3 of R221. -/
def execSrcLocked (t : Frac) (p : Fin 8) (s : State) : Res :=
  let s := atT s t
  let x := port s p.val
  .next (
    if x.st = .acquire ∧ 512 ≤ x.phaseOk then
      emit (setPort s p.val { x with st := .running }) 0x0701 p.val
        (pay [(0, 4, x.ratio.toNat), (4, 4, x.rate), (8, 4, x.pfn)])
    else s)

/-- FS_MISSING_TIMEOUT: the timeout wins (R223, R224). -/
def execFsMissingTimeout (t : Frac) (p : Fin 8) (s : State) : Res :=
  let s := atT s t
  .next (
    if !portTracks s p.val || (port s p.val).missing then s
    else
      let s := unlock s p.val 1
      if (port s p.val).stopping then portOffNow s p.val 1 else s)

/-! ### The rate converters (R221, R222, R227) -/

/-- Entry `i` of a list of 32, `d` beyond its end. -/
def at32 {α : Type} (d : α) (l : List α) (i : Nat) : α := (l[i]?).getD d

/-- Slot `i` feeds its source. -/
def rxLive (s : State) (p i : Nat) : Bool := i < slots (reg s .dpFmt p) && bit (port s p).rx.active i

/-- Give the receive converters the samples of a port frame. -/
def feedRx (s : State) (p : Nat) (phase : Word) : State :=
  let y := port s p
  setPort s p { y with
    rxConv := (List.range 32).map (fun i => Config.converterStep (at32 0 y.rxConv i) y.ratio phase (at32 0 y.words i)),
    fed := (List.range 32).map (fun i => if rxLive s p i then nowTicks s + 1 else at32 0 y.fed i), fedAt := frTime s }

/-- Delay of a receive converter: three module frames and one port frame (R222). -/
def rxDelay (s : State) (p : Nat) : Nat :=
  3 * framePeriod s.fr.rate + framePeriod s.fr.rate * 2 ^ 28 / (port s p).ratio.toNat

/-- Where a strobe stands after the frame start that last fed the receive converters, in 2^-16 frame (R222). -/
def rxPhase (s : State) (p : Nat) : Word := BitVec.ofNat 32 (frTime s - (port s p).fedAt)

/-- The sample that receive slot `i` of a RUNNING port presents: 0 one converter delay after its slot was last active
(R227). -/
def rxSource (s : State) (p i : Nat) : Int :=
  let y := port s p
  let last := at32 0 y.fed i
  if rxLive s p i || (last != 0 && nowTicks s < last - 1 + rxDelay s p) then
    (Config.converterOut (at32 0 y.rxConv i) y.ratio (rxPhase s p)).toInt
  else 0

/-- The receive sources at a strobe (R219): converted samples while RUNNING, else 0. -/
def capturePorts (s : State) : Tbl Int :=
  if !domOn s domPORT then []
  else (allPorts.filter (fun p => (port s p).st == .running)).flatMap (fun p =>
    (List.range 32).map (fun i => (0x1830 + 32 * p + i, rxSource s p i)))

/-- Each transmit converter takes the sample its sink presents (R212, R227). -/
def feedTx (s : State) (p : Nat) : State :=
  let y := port s p
  setPort s p { y with txConv := (List.range 32).map (fun i =>
    Config.converterStep (at32 0 y.txConv i) y.ratio 0 (tget 0 s.mx.present (0x630 + 32 * p + i))) }

/-- A strobe at the ports: the sinks, and the converters whose buffers have slipped (R223, cause 0x5). -/
def portsStrobe (s : State) (slips : List Nat) : State :=
  let s := each (allPorts.filter (fun p => (port s p).st != .off)) s feedTx
  each (allPorts.filter (fun p => slips.contains p && portTracks s p)) s (fun s p => unlock s p 5)

/-! ### A frame start (R213–R225) -/

/-- A controller port holds BCLK and FS low until its PLL is locked (R225, R253, R255). -/
def clockHeld (s : State) (p : Nat) : Bool := rb s .dpFmt p 31 && !(pll s (rf s .dpFmt p 9 9)).lock

/-- The next frame start of the controller ports of the strobe PLL falls on the first strobe after a relock (R225). -/
def holdPorts (s : State) (n : Nat) : State :=
  each (allPorts.filter (fun p => (port s p).st != .off && portNames s (strobePll s.fr.rate) p)) s
    (fun s p => setPort s p { port s p with first := some n })

/-- Now is strobe `n`, within one period of the port clock root (R217). -/
def onStrobe (s : State) (n : Nat) : Bool :=
  let d := 32 * 2 ^ (s.fr.rate / 2)
  frTime s ≤ 65536 * n + d && 65536 * n ≤ frTime s + d

/-- A frame starts: of a target port, where its FS shows it; of a controller port, where it may (R213, R217). -/
def frameBegins (s : State) (p : Nat) (x : PortFrame) : Bool :=
  if rb s .dpFmt p 31 then !clockHeld s p && (port s p).first.all (onStrobe s)
  else framed (reg s .dpFmt p) x.clocks

/-- Bit clocks of the port frame that ends: a controller port's has its length (R217). -/
def countedLen (f : Word) (x : PortFrame) : Nat := if bit f 31 then frameLen f else x.clocks.length - 1

/-- The port frame that ends: its words, or those of the frame before when its length is wrong (R214, R225). -/
def takeFrame (s : State) (p : Nat) (x : PortFrame) : State :=
  let f := reg s .dpFmt p
  let y := port s p
  let len := countedLen f x
  if len = frameLen f then
    let words := (List.range 32).map (fun i => if rxLive s p i then rxSample f (slotBits f x.clocks i) else 0)
    setPort s p { y with flen := len, words := words, lastGood := y.pfn, wrong := 0,
                         good := if y.restart then 0 else satTo 64 (y.good + 1) }
  else
    let n := inc16 y.frameErrors
    let now := nowTicks s
    let y := { y with flen := len, frameErrors := n, wrong := satTo 16 (y.wrong + 1), good := if y.good < 64 then 0 else y.good }
    if y.errorAt = 0 ∨ y.errorAt + tSec ≤ now + 1 then
      emit (setPort s p { y with errorAt := now + 1 }) 0x0704 p
        (pay [(0, 2, len), (2, 2, frameLen f), (4, 2, n)])
    else setPort s p y

/-- The loop after a frame: step 2 of R221, the phase run of step 3, which begins with the frame after `locked` 64, and
the period run of R223. -/
def trackFrame (s : State) (p : Nat) (x : PortFrame) (locked : Nat) : State :=
  let y := port s p
  let two : Bool := 64 ≤ y.good
  setPort s p { y with
    ratio := if two then x.ratio else 0, rate := x.rate.toNat,
    phaseOk := if two && 64 ≤ locked && x.inPhase then satTo 512 (y.phaseOk + 1) else 0,
    offPeriod := if two && x.periodOff then y.offPeriod + 1 else 0 }

/-- The cause that a frame start shows (R223), the lowest of several. [log: DEDUCED 65] -/
def frameCause (y : Port) (x : PortFrame) : Option Nat :=
  if 16 ≤ y.wrong then some 2
  else if 4 ≤ y.offPeriod then some 3
  else if x.outOfRange then some 4
  else if x.slip then some 5
  else none

/-- The module drives its digital outputs: DRIVING, and on a PRIMARY with SL_FAILOVER_N high (R231, R451, R455). -/
def drivesOut (s : State) : Bool := s.pl.driving && !(s.pl.role == 1 && s.pl.pinLow)

/-- What the transmit slots carry (R215, R227): converted samples at the ratio `conv`, else 0; `none` for a slot that is
released. -/
def txSlots (s : State) (p : Nat) (conv : Option Word) (phase : Word) : List (Option Word) :=
  let f := reg s .dpFmt p
  let y := port s p
  (List.range (slots f)).map (fun i =>
    if bit y.tx.active i then
      some (match conv with
        | some r => txWord f (Config.converterOut (at32 0 y.txConv i) r phase).toInt
        | none => 0)
    else if bit f 13 then none else some 0)

/-- What a port drives from a frame start on (R213): the rest of the last slot of the frame before, then the slots, and
nothing beyond the last one; nothing while the module does not drive its digital outputs (R231). -/
def sendFrame (s : State) (p : Nat) (conv : Option Word) (phase : Word) : State :=
  let f := reg s .dpFmt p
  let y := port s p
  let d := msbDelay f
  let l := (txSlots s p conv phase).flatMap (slotOut f)
  if !drivesOut s then setPort s p { y with tail := [] }
  else
    let lead := if y.flen = frameLen f then y.tail ++ List.replicate (d - y.tail.length) none else List.replicate d none
    push (setPort s p { y with tail := l.drop (frameLen f - d) })
      (.port p (lead ++ l) (if bit f 31 then some (fsLevels f) else none) (bit f 26))

/-- The frame that starts: the masks that take effect, and what is sent. -/
def newFrame (s : State) (p : Nat) (conv : Option Word) (phase : Word) : State :=
  sendFrame (maskStart (maskStart s p true) p false) p conv phase

/-- An ordinary frame start: the frame before is taken, and shows a cause to unlock or none. A port found RUNNING still
sends converted samples in the frame that starts (R223). -/
def nextFrame (s : State) (p : Nat) (x : PortFrame) : State :=
  let y := port s p
  let s := feedRx (trackFrame (takeFrame s p x) p x y.good) p x.phase
  let r := (port s p).ratio
  if (port s p).stopping then portOffNow s p 1
  else
    let s := setPort s p { port s p with restart := false }
    let s := match frameCause (port s p) x with
      | some c => unlock s p c
      | none => s
    newFrame (setPort s p { port s p with pfn := (y.pfn + 1) % 2 ^ 32 }) p
      (if y.st = .running then some r else none) x.phase

/-- PORT_FRAME. -/
def execPortFrame (t : Frac) (p : Fin 8) (x : PortFrame) (s : State) : Res :=
  let s := atT s t
  let p := p.val
  let y := port s p
  .next (
    if y.st = .off || !frameBegins s p x then s
    else if y.st = .wait then
      newFrame (setPort s p { y with st := .acquire, pfn := 0, lastGood := 0, restart := false, first := none }) p none
        x.phase
    else if y.missing then
      newFrame (setPort s p { y with missing := false, restart := false, pfn := (y.pfn + 1) % 2 ^ 32, first := none,
                                     flen := countedLen (reg s .dpFmt p) x, lateFs := inc16 y.lateFs,
                                     tail := [] }) p none x.phase
    else nextFrame (setPort s p { y with first := none }) p x)

/-! ### Domain and rates -/

/-- A mask written while PORT was off takes effect (R212). -/
def maskUp (s : State) (p : Nat) (rx : Bool) : State :=
  match (rxTx (port s p) rx).pend with
  | some v => maskTake s p rx v none 0
  | none => s

/-- PORT powers up: what the registers hold is applied, masks and then enables (R212). [log: DEDUCED 66] -/
def portsUp (s : State) : State :=
  let s := each allPorts s (fun s p => maskUp (maskUp s p true) p false)
  each (allPorts.filter (fun p => rb s .dpCtrl p 0)) s portEnable

/-- PORT powers down: every port is OFF as a step (R212, R226). -/
def portsOff (s : State) : State :=
  each (allPorts.filter (fun p => (port s p).st != .off)) s (fun s p => portOffNow s p 2)

/-- FRAME_RATE_APPLIED at the ports: cause 0x6 of R223, and the first frame start of the controller ports whose PLL was
relocked (R225). -/
def ratePorts (s : State) : State :=
  holdPorts (each (allPorts.filter (portTracks s)) s (fun s p => unlock s p 6)) s.fr.fn

/-- A PLL unlocks: controller ports that name it, cause 0x7 of R223. [log: DEDUCED 72] -/
def rootLost (s : State) (j : Nat) : State :=
  each (allPorts.filter (fun p => portTracks s p && portNames s j p)) s (fun s p => unlock s p 7)

end Sys2Proof.Machine
end

