-- ==== Sys2Proof/Machine/Clocks.lean ====
section
/-! DEFINITION. Clocks: PLLs and their band caches, reference sources, selection of the source, the DCO, the
switching clock, rate changes and restarts (R236–R261). The strobes themselves are in `Strobe`. -/

namespace Sys2Proof.Machine

open Sys2Proof

/-! ### PLLs (R238–R240) -/

/-- CLK is powered, or coming up. -/
def clkLive (s : State) : Bool := domOn s domCLK || s.ct.phase == .clk || s.pd.job.any (·.wait.contains domCLK)

/-- Key of a lock (R239): FSW for PLL_S, N for the others. -/
def pllKey (s : State) (j : Nat) : Nat :=
  match j with
  | 2 => (s.ck.fswNew.getLast?.map Prod.fst).getD s.ck.fsw
  | 3 => if s.ck.xtalFreq then 277 else 254
  | _ => 120

def cacheEnt (p : Pll) (i : Nat) : CacheEnt := tget CacheEnt.free p.cache i

/-- The cache entry that holds a key. -/
def cacheFind (p : Pll) (key : Nat) : Option Nat :=
  (List.range 8).find? (fun i => (cacheEnt p i).valid && (cacheEnt p i).key == key)

/-- The entry a new band goes into: a free one, else the least recently used. -/
def cacheSlot (p : Pll) : Nat :=
  match (List.range 8).find? (fun i => !(cacheEnt p i).valid) with
  | some i => i
  | none => (List.range 8).foldl (fun b i => if (cacheEnt p i).use < (cacheEnt p b).use then i else b) 0

def putEnt (p : Pll) (i : Nat) (e : CacheEnt) : Pll := { p with cache := tput CacheEnt.free p.cache i e }

/-- The PLL after a lock (R239): from the cache, or by a search; `none` when the cache holds no such band. -/
def lockPll (p : Pll) (key band : Nat) (cached : Bool) : Option Pll :=
  if cached then
    match cacheFind p key with
    | none => none
    | some i =>
      if (cacheEnt p i).band = band then
        some (putEnt { p with on := true, lock := true, cached := true, band := band, uses := p.uses + 1 } i
          { cacheEnt p i with use := p.uses + 1 })
      else none
  else
    let q := match cacheFind p key with
      | some i => putEnt p i CacheEnt.free
      | none => p
    some (putEnt { q with on := true, lock := true, cached := false, band := band, searches := inc16 p.searches,
                          uses := p.uses + 1 } (cacheSlot q)
      { valid := true, key := key, band := band, use := p.uses + 1 })

/-- Step 2 of R249: FSW changes, clock-error detection resumes, and the commands complete. -/
def fswDone (s : State) : State :=
  let l := s.ck.fswNew
  each l { s with ck := { s.ck with fswNew := [], suspended := false } } (fun s e =>
    let old := s.ck.fsw
    let s := emit { s with ck := { s.ck with fsw := e.1 } } 0x080D noUnit (pay [(0, 2, old), (2, 2, e.1)])
    finish s e.2.1 stOk e.2.2)

/-- PLL `j` has locked: PLL_LOCKED, and a SET_FSW in progress ends with PLL_S. -/
def pllHasLocked (s : State) (j : Nat) (q : Pll) (us : Nat) : State :=
  let s := emit (setPll s j q) 0x0806 j (pay [(0, 1, q.band), (1, 1, b2n q.cached), (2, 2, us)])
  if j = 2 then fswDone s else s

/-- PLL `j` locks in a band, `us` µs after it began to. -/
def pllLocks (s : State) (j band : Nat) (cached : Bool) (us : Nat) : State :=
  let p := pll s j
  if !clkLive s || p.lock || (domOn s domCLK && (!p.on || !s.ck.xtalOk)) then s
  else match lockPll p (pllKey s j) band cached with
    | none => s
    | some q => pllHasLocked s j q us

/-- PLL `j` is found unlocked: PLL_UNLOCKED, and cause 0x7 at the controller ports that name it (R240, R254). -/
def pllLost (s : State) (j : Nat) (phase : Bool) : State :=
  rootLost (emit (setPll s j { pll s j with lock := false }) 0x0807 j (pay [(0, 1, if phase then 1 else 2)])) j

/-- PLL_UNLOCKED: a PLL other than the strobe PLL (R240). PLL_S mutes the power channels, PLL_L takes down the link
(R125, R254). [log: DEDUCED 72] -/
def execPllUnlocked (t : Frac) (j : Fin 4) (phase : Bool) (s : State) : Res :=
  let s := atT s t
  .next (
    if !domOn s domCLK || !(pll s j.val).lock || j.val = strobePll s.fr.rate then s
    else
      let s := pllLost s j.val phase
      if j.val = 2 then clockMute s false else if j.val = 3 then setLanes s 0 else s)

/-- The interpolators of the power channels and of the analog outputs are fed 0 (R252, step 3). -/
def feedZero (s : State) : State :=
  { s with sp := { s.sp with ch := tmapv SpCh.reset (fun _ x => { x with prog := 0, pilot := 0 }) s.sp.ch },
           ps := { s.ps with ch := tmapv PsCh.reset (fun _ x => { x with interp := 0, wave := [], mod_ := [], drive := [] }) s.ps.ch },
           aq := { s.aq with ch := tmapv Outp.reset (fun _ x => { x with interp := 0, out := 0 }) s.aq.ch } }

/-- The strobes stop: at once when frame FN has drained, else with its drain (R253, R255); 0 is fed from then. -/
def stopStrobes (s : State) : State :=
  let g := match s.ck.gap with
    | some g => g
    | none => { old := s.fr.rate, new := s.fr.rate, command := false }
  let s := holdPorts { s with ck := { s.ck with gap := some g } } (s.fr.fn + 1)
  if s.fr.running && s.fr.drained then feedZero { s with fr := { s.fr with running := false } } else s

/-- A restart is counted and reported: 1 PLL unlock, 2 crystal. -/
def strobeRestart (s : State) (cause : Nat) : State :=
  let s := { s with ck := { s.ck with restarts := inc16 s.ck.restarts } }
  emit s 0x0808 noUnit (pay [(0, 1, cause), (4, 4, s.ck.restarts)])

/-- STROBE_RESTART: the strobe PLL unlocks (R240, R253). -/
def execStrobeRestart (t : Frac) (phase : Bool) (s : State) : Res :=
  let s := atT s t
  let j := strobePll s.fr.rate
  .next (
    if !domOn s domCLK || !(pll s j).lock || s.ck.gap.isSome then s
    else stopStrobes (strobeRestart (pllLost s j phase) 1))

/-- The crystal is lost: 1 at bring-up, 2 in service (R236, R255). [log: DEDUCED 73] -/
def xtalLost (s : State) (cause : Nat) : State :=
  emit { s with ck := { s.ck with xtalOk := false } } 0x080A noUnit (pay [(0, 1, cause)])

/-- XTAL_FAIL (R255, steps 1 and 2): every PLL loses its reference; the power channels mute with PLL_S, and the link to the
peer is lost with PLL_L. The line and headphone outputs are fed 0 at once. [log: DEDUCED 73] -/
def execXtalFail (t : Frac) (s : State) : Res :=
  let s := atT s t
  .next (
    if !domOn s domCLK || !s.ck.xtalOk then s
    else
      let s := { s with ck := { s.ck with xtalFails := inc16 s.ck.xtalFails, stopFn := s.fr.fn } }
      let s := stopStrobes (xtalLost s 2)
      let s := { s with aq := { s.aq with ch := tmapv Outp.reset (fun _ x => { x with interp := 0, out := 0 }) s.aq.ch } }
      setLanes (clockMute (each [0, 1, 2, 3] s (fun s j => setPll s j { pll s j with lock := false })) true) 0)

/-- XTAL_RESTORED (R255, steps 3 and 4). -/
def execXtalRestored (t : Frac) (s : State) : Res :=
  let s := atT s t
  .next (
    if !domOn s domCLK || s.ck.xtalOk then s
    else
      let s := emit { s with ck := { s.ck with xtalOk := true } } 0x080B noUnit (pay [(0, 6, s.ck.stopFn)])
      strobeRestart s 2)

/-- CK_CACHE_CTRL.FLUSH (R239). -/
def flushCaches (s : State) (v : Word) : State :=
  each ([0, 1, 2, 3].filter (bit v)) s (fun s j => setPll s j { pll s j with cache := [] })

/-- CACHE_FLUSH. -/
def execCacheFlush (t : Frac) (src : Owner) (v : Word) (s : State) : Res :=
  .next (directWrite (atT s t) src 0x58020 0x34 (fun s => flushCaches s v))

/-! ### Switching clock (R249–R251) -/

/-- SET_FSW: staged; the boundary checks it. [log: DEDUCED 70, 71] -/
def execSetFsw (t : Frac) (c : Cmd) (s : State) : Res :=
  runCmd s t 0x0041 c [0x29] [(0, 0x3FF)] (within 128 512 (pwN c 0)) (fun s n =>
    stageG s c.src 0x29 (.fsw (pwN c 0) n))

/-- The first channel that bars SET_FSW (R117). -/
def fswBar (s : State) : Option Nat := allCh.find? (fun c => (psCh s c).st != .off && (psCh s c).st != .latched)

def fswBusy (s : State) : Bool := (fswBar s).isSome

/-- SET_FSW at its boundary (R117, R249): until PLL_S has been good for 1 ms the power stage sees the clock bad. -/
def applyFsw (s : State) (v slot : Nat) : State :=
  match fswBar s with
  | some c => finish (psRefuse s) slot stChannelsActive c
  | none =>
    let s := { s with ck := { s.ck with fswNew := s.ck.fswNew ++ [(v, slot, s.fr.fn)], suspended := true },
                      ps := { s.ps with clock := true } }
    setPll s 2 { pll s 2 with lock := false }

/-- SPREAD_APPLY: the first triangle period after the boundary (R250). -/
def execSpreadApply (t : Frac) (s : State) : Res :=
  let s := atT s t
  .next { s with ck := { s.ck with spread := rf s .ckPllsCfg 0 31 25 } }

/-! ### Frame rate (R252) -/

/-- Σ NCH of the enabled contexts of a direction (R314). -/
def strChannels (s : State) (dir : Bool) : Nat :=
  s.st.ctx.foldl (fun a e => if e.2.st != .disabled && rb s .strCfg e.1 30 == dir
    then a + rf s .strCfg e.1 27 22 + 1 else a) 0

/-- Channel·Hz of R314: playback, record. -/
def strLimit (dir : Bool) : Nat := if dir then 73728000 else 196608000

/-- The highest-numbered enabled context of a direction that breaks R314 at a rate (R316). -/
def strUnfit (s : State) (code : Nat) : Option Nat :=
  let exceeded := [false, true].find? (fun d => strLimit d < strChannels s d * frameHz code)
  exceeded.map (fun d => s.st.ctx.foldl (fun a e =>
    if e.2.st != .disabled && rb s .strCfg e.1 30 == d then Nat.max a e.1 else a) 0)

/-- SET_FRAME_RATE: steps 1 and 2 of R252; it needs CLK (R486). [log: DEDUCED 50] -/
def execSetFrameRate (t : Frac) (c : Cmd) (s : State) : Res :=
  let code := pwN c 0
  runCmd s t 0x0040 c [0x34] [(0, 0xF)] (code < 6) (fun s n =>
    if !domOn s domCLK then finish s n stDomainOff noIndex
    else if code = s.fr.rate then finish s n stOk 0
    else
      let r := admitRequest s (testBudget s code) (recipesFit s code)
      if r.1 != 0 then finish (noteRefusal s r.1 r.2) n stAdmission (refusedResult r.2)
      else match strUnfit s code with
        | some k => finish s n stAdmission (s.mx.refusedCost * 2 ^ 24 + k)
        | none => stageG (startLong s 0x0040 n (.rate code)) c.src 0x34 (.rate code))


/-- Step 3 of R252 at boundary n; B follows the new rate, and the boundary reports it. [log: DEDUCED 50] -/
def applyRate (s : State) (code : Nat) : State :=
  let was := s.fr.rate
  let own : Bool := match s.hl.long with
    | some (.rate _) => true
    | _ => false
  let s := { s with ck := { s.ck with gap := some { old := was, new := code, command := own } },
                    fr := { s.fr with rate := code, running := false } }
  let s := holdPorts (feedZero (refreshCost s)) (s.fr.fn + 1)
  setPll s (strobePll code) { pll s (strobePll code) with on := true, lock := false }

/-! ### Reference sources (R242–R244) -/

/-- Source r is listed under r − 1. [log: DEDUCED 69] -/
def refOf (s : State) (i : Nat) : Ref := tget Ref.reset s.ck.ref i

def setRef (s : State) (i : Nat) (x : Ref) : State :=
  { s with ck := { s.ck with ref := tput Ref.reset s.ck.ref i x } }

def allRefs : List Nat := List.range 13

/-- Source classes of R242. -/
inductive RefClass where
  | clock | frame | pps | link
  deriving DecidableEq, Repr

def refClass (s : State) (i : Nat) : RefClass :=
  if i < 2 then (if rb s .ckRefCfg i 30 then .frame else .clock)
  else if i < 10 then .frame
  else if i = 10 then .pps
  else if i = 11 then .link
  else .clock

/-- FREQ of a source in hertz (R242). -/
def refFreq (s : State) (i : Nat) : Nat :=
  if i < 10 then rf s .ckRefFreq i 27 0
  else if i = 10 then 1
  else if i = 11 then frameHz s.fr.rate
  else 100000000

/-- Loop bandwidth of R243, in 0.01 Hz. -/
def refBandwidth (k : RefClass) (bw : Nat) : Nat :=
  match k with
  | .clock => 400 * 4 ^ bw
  | .frame => 100 * 4 ^ bw
  | .pps => if bw = 0 then 1 else if bw = 1 then 2 else if bw = 2 then 5 else 10
  | .link => if bw = 3 then 100000 else 1600 * 4 ^ bw

/-- A source that R243 makes INVALID. -/
def refInvalid (s : State) (i : Nat) : Bool :=
  let fc := Nat.gcd (refFreq s i) (frameHz s.fr.rate)
  (10 * fc < refBandwidth (refClass s i) (rf s .ckRefCfg i 23 22))
    || (within 2 9 i && ((port s (i - 2)).st == .off || rb s .dpFmt (i - 2) 31))

/-- A source takes a state other than QUALIFIED; leaving QUALIFIED is counted and reported (R244). -/
def leaveRef (s : State) (i cause : Nat) (n : RefState) : State :=
  let x := refOf s i
  if x.st = .qualified then
    let s := setRef s i { x with st := n, held := false, disquals := inc16 x.disquals }
    emit s 0x0802 (i + 1) (pay [(0, 1, cause), (4, 4, toU 32 x.offset)])
  else setRef s i { x with st := n, held := false }

/-- Evaluate a source at a boundary (R243): a source that becomes enabled or valid starts its qualification.
[log: DESIGN CHOICE 68; DEDUCED 69] -/
def refFollow (s : State) (i : Nat) : State :=
  let x := refOf s i
  if !rb s .ckRefCfg i 31 then
    if x.st = .disabled then s
    else if x.st = .qualified then
      let p := draw s
      leaveRef p.2 i (p.1.toNat % 256) .disabled
    else leaveRef s i 0 .disabled
  else if refInvalid s i then (if x.st = .invalid then s else leaveRef s i 3 .invalid)
  else if x.st = .disabled ∨ x.st = .invalid then setRef s i { x with st := .qualifying }
  else s

def refFollowAll (s : State) : State := each allRefs s refFollow

/-- PORT_ENABLE; a source on DPn_FS follows the port (R243). [log: DEDUCED 92] -/
def execPortEnable (t : Frac) (p : Fin 8) (s : State) : Res :=
  .next (atBoundary (atT s t) (fun s => refFollowAll (applyDpCtrl s p.val 1)))

/-- PORT_DISABLE. [log: DEDUCED 92] -/
def execPortDisable (t : Frac) (p : Fin 8) (s : State) : Res :=
  .next (atBoundary (atT s t) (fun s => refFollowAll (applyDpCtrl s p.val 0)))

/-- WIN in 0.1 ppm. -/
def refWin (s : State) (i : Nat) : Nat := 500 * 2 ^ rf s .ckRefCfg i 21 20

/-- A source that is looked for. -/
def refSeen (x : Ref) : Bool := x.st == .qualifying || x.st == .qualified

/-- REF_EDGE_TIMEOUT: the timeout wins (R244). -/
def execRefEdgeTimeout (t : Frac) (r : RefSource) (s : State) : Res :=
  let s := atT s t
  .next (if domOn s domCLK && refSeen (refOf s r.val) then leaveRef s r.val 1 .absent else s)

/-- REF_EDGE_RETURN: the late edge (R244). -/
def execRefEdgeReturn (t : Frac) (r : RefSource) (s : State) : Res :=
  let s := atT s t
  let x := refOf s r.val
  .next (
    if domOn s domCLK && x.st == .absent then setRef s r.val { x with st := .qualifying, late := inc16 x.late }
    else s)

/-- REF_FREQUENCY_OUT_OF_WINDOW (R244). -/
def execRefFrequencyOutOfWindow (t : Frac) (r : RefSource) (offset : BitVec 24) (s : State) : Res :=
  let s := atT s t
  let x := refOf s r.val
  .next (
    if domOn s domCLK && refSeen x && refWin s r.val < offset.toInt.natAbs then
      leaveRef (setRef s r.val { x with offset := offset.toInt }) r.val 2 .qualifying
    else s)

/-- REF_QUALIFIED (R244). -/
def execRefQualified (t : Frac) (r : RefSource) (offset : BitVec 24) (s : State) : Res :=
  let s := atT s t
  let x := refOf s r.val
  .next (
    if domOn s domCLK && (x.st == .absent || x.st == .qualifying)
        && 5 * offset.toInt.natAbs ≤ 4 * refWin s r.val then
      emit (setRef s r.val { x with st := .qualified, offset := offset.toInt, since := nowTicks s,
                                    held := rf s .ckSelCfg 0 23 16 == 0 })
        0x0801 (r.val + 1) (pay [(0, 4, toU 32 offset.toInt)])
    else s)

/-- REF_HOLDOFF_EXPIRY (R245). -/
def execRefHoldoffExpiry (t : Frac) (r : RefSource) (s : State) : Res :=
  let s := atT s t
  let x := refOf s r.val
  .next (if x.st = .qualified then setRef s r.val { x with held := true } else s)

/-! ### Selection and the DCO (R237, R245–R248) -/

/-- Source r is QUALIFIED. -/
def refGood (s : State) (r : Nat) : Bool := r != 0 && (refOf s (r - 1)).st == .qualified

/-- The source that FORCE names, or that a standby follows (R245, R441). -/
def forcedRef (s : State) : Option Nat :=
  if s.pl.role = 2 && inPair s && s.pl.lanes != 0 then some 12
  else if rb s .ckSelCfg 0 30 then some (rf s .ckSelCfg 0 27 24)
  else none

/-- The QUALIFIED source with the lowest PRIO, the lower r of a tie. -/
def candidate (s : State) : Option Nat :=
  (allRefs.map (· + 1)).foldl (fun a r =>
    if !refGood s r then a
    else match a with
      | none => some r
      | some b => if rf s .ckRefCfg (r - 1) 27 24 < rf s .ckRefCfg (b - 1) 27 24 then some r else a) none

/-- Cause of a selection that follows a loss: 4 when its configuration took the source away. -/
def lossCause (s : State) : Nat :=
  match (refOf s (s.ck.active - 1)).st with
  | .disabled | .invalid => 4
  | _ => 1

/-- The decision of R245: the source to select, and its cause. -/
def decideRef (s : State) : Nat × Nat :=
  let a := s.ck.active
  let lost := a != 0 && !refGood s a
  match forcedRef s with
  | some f => if refGood s f then (f, 3) else (0, if lost then lossCause s else 3)
  | none =>
    match candidate s with
    | none => (0, if lost then lossCause s else 4)
    | some c =>
      if lost then (c, lossCause s)
      else if c != a && rb s .ckSelCfg 0 31 && (refOf s (c - 1)).held then (c, 2)
      else (a, 0)

def steerOf (s : State) : Int := sext 32 (reg s .ckSteer).toNat

/-- Select another source (R245–R247). -/
def selectRef (s : State) (r cause : Nat) : State :=
  let old := s.ck.active
  let ck := { s.ck with active := r, switches := inc16 s.ck.switches, selAt := nowTicks s, phaseLock := false,
                        tracking := false }
  let s := emit { s with ck := ck } 0x0803 r (pay [(0, 1, old), (1, 1, cause)])
  if r = 0 then
    emit { s with ck := { s.ck with sel := .freeRun, phaseErr := 0, move := some (s.ck.dco, nowTicks s) } } 0x0805
      noUnit (pay [(0, 4, toU 32 s.ck.dco), (4, 4, toU 32 (steerOf s))])
  else { s with ck := { s.ck with sel := .freqAcq } }

/-- δ within the clamp of R237, counted and reported when it limits. [log: DEDUCED 75] -/
def setDco (s : State) (d : Int) : State :=
  let c := clampI (-500000000) 500000000 d
  let s := { s with ck := { s.ck with dco := c } }
  if c = d then s
  else
    let s := { s with ck := { s.ck with clamps := inc16 s.ck.clamps } }
    if s.ck.clampAt = 0 ∨ s.ck.clampAt - 1 + tSec ≤ nowTicks s then
      emit { s with ck := { s.ck with clampAt := nowTicks s + 1 } } 0x0809 noUnit (pay [(0, 4, toU 32 d)])
    else s

/-- δ in FREE_RUN: the move of R247 at 100 ppm/s, then STEER. -/
def freeRunStep (s : State) : State :=
  match s.ck.move with
  | none => { s with ck := { s.ck with dco := steerOf s } }
  | some m =>
    let gone : Nat := 100000000 * (nowTicks s - m.2) / tSec
    let diff := steerOf s - m.1
    if diff.natAbs ≤ gone then { s with ck := { s.ck with dco := steerOf s, move := none } }
    else { s with ck := { s.ck with dco := if 0 ≤ diff then m.1 + gone else m.1 - gone } }

/-- The offsets measured since the strobe before (R260): 24 bits, saturating. -/
def measureRefs (s : State) (offsets : Tbl Int) : State :=
  each (offsets.filter (fun e => refSeen (refOf s e.1))) s (fun s e =>
    setRef s e.1 { refOf s e.1 with offset := clampI (-(2 ^ 23)) (2 ^ 23 - 1) e.2 })

/-- PHASE_SLEW in 10^-12 (R246, R260). -/
def phaseSlew (s : State) : Int :=
  match rf s .ckSelCfg 0 1 0 with
  | 0 => 10000000
  | 1 => 25000000
  | 2 => 50000000
  | _ => 100000000

/-- What a strobe does to the clock: the loop's δ once it tracks the source, the phase error and the measured offsets, the
selection, and the free run. -/
def clockStrobe (s : State) (dco phaseErr : Int) (offsets : Tbl Int) : State :=
  let s := measureRefs s offsets
  let s := if s.ck.sel = .freeRun then s else { s with ck := { s.ck with phaseErr := phaseErr } }
  let s := if s.ck.tracking then setDco s dco else s
  let d := decideRef s
  let s := if d.1 = s.ck.active then s else selectRef s d.1 d.2
  if s.ck.sel = .freeRun then freeRunStep s else s

/-- REF_FREQ_ACQ_END: steps 2 and 3 of R246. δ takes the measured offset, and is then held PHASE_SLEW below it to walk the
strobe grid later, or above it to walk it earlier. -/
def execRefFreqAcqEnd (t : Frac) (offset : Int) (later : Bool) (s : State) : Res :=
  let s := atT s t
  .next (
    if s.ck.sel != .freqAcq then s
    else
      let s := setDco s offset
      let s := setDco s (if later then s.ck.dco - phaseSlew s else s.ck.dco + phaseSlew s)
      { s with ck := { s.ck with sel := .phaseWalk, tracking := false } })

/-- REF_PHASE_WALK_END: step 4 of R246, within 20 ns. -/
def execRefPhaseWalkEnd (t : Frac) (err : Word) (s : State) : Res :=
  let s := atT s t
  .next (
    if s.ck.sel == .phaseWalk && !s.ck.tracking && err.toInt.natAbs ≤ 200 then
      { s with ck := { s.ck with tracking := true, phaseErr := err.toInt } }
    else s)

/-- REF_LOCKED: step 5 of R246. -/
def execRefLocked (t : Frac) (err : Word) (s : State) : Res :=
  let s := atT s t
  .next (
    if s.ck.sel == .phaseWalk && s.ck.tracking && err.toInt.natAbs ≤ 200 then
      emit { s with ck := { s.ck with sel := .locked, phaseLock := true, phaseErr := err.toInt } } 0x0804 s.ck.active
        (pay [(0, 4, toU 32 s.ck.dco), (4, 4, (nowTicks s - s.ck.selAt) / tMs)])
    else s)

/-- A write of CK_STEER (R248): a move in progress goes on from where it is. -/
def steerWrite (s : State) (v : Word) : State :=
  if regAccept .ckSteer 0 0 v then
    let s := { s with ck := { s.ck with move := s.ck.move.map (fun _ => (s.ck.dco, s.fr.ticks)) } }
    setReg s .ckSteer 0 v
  else s

/-- CK_STEER_WRITE. -/
def execCkSteerWrite (t : Frac) (src : Owner) (v : Word) (s : State) : Res :=
  .next (directWrite (atT s t) src 0x58008 0x34 (fun s => steerWrite s v) (regAccept .ckSteer 0 0 v))

/-! ### Frame-pulse outputs (R258) -/

/-- The pulses of a frame-pulse output (R258): from the module strobe, every `frames` frames, or from the predicted edges of a
source r; the offset of their rise in 0.5 ns, and their width in periods of the port clock root, 0 for half the pulse
period; high or low. -/
structure FpPulses where
  src : Nat
  frames : Nat
  offset : Int
  width : Nat
  low : Bool
  deriving DecidableEq, Repr

/-- The pulses that the registers of FP_OUTk ask for. -/
def fpPulses (s : State) (k : Nat) : FpPulses :=
  { src := rf s .ckFpCfg k 27 24, frames := rf s .ckFpCfg k 23 16 + 1, offset := (reg s .ckFpOfs k).toInt,
    width := rf s .ckFpCfg k 7 0, low := rb s .ckFpCfg k 30 }

/-- A pulse of FP_OUTk with SRC 0x0 rises OFFSET after the last strobe: its FN is a multiple of DIV + 1. -/
def fpFires (s : State) (k : Nat) : Bool := s.fr.fn % (fpPulses s k).frames == 0

/-- The width of a pulse in port-root periods (R258): half the pulse period for WIDTH 0, with SRC 0x0 2,048 periods a frame
of 48 or 44.1 kHz. -/
def fpWidth (s : State) (k : Nat) : Nat :=
  let p := fpPulses s k
  if p.width = 0 then p.frames * (2048 / 2 ^ (s.fr.rate / 2)) / 2 else p.width

/-- FP_OUT_STATE: two edges missed, or the second edge after. -/
def execFpOutState (t : Frac) (k : Fin 2) (run : Bool) (s : State) : Res :=
  let s := atT s t
  .next (
    if !domOn s domCLK || !rb s .ckFpCfg k.val 31 || rf s .ckFpCfg k.val 27 24 = 0
        || tget false s.ck.fpStop k.val != run then s
    else emit { s with ck := { s.ck with fpStop := tput false s.ck.fpStop k.val (!run) } } 0x080C k.val
      (pay [(0, 1, if run then 2 else 1)]))

/-- What may stand in CK_FP_CFG and CK_REF_FREQ beside their ranges (R242, R258). -/
def clockAccept (s : State) (n : RegName) (i : Nat) (v : Word) : Bool :=
  match n with
  | .ckFpCfg =>
    let src := fld v 27 24
    src = 0 || (src < 14 && refClass s (src - 1) != .clock)
  | .ckRefFreq =>
    match refClass s i with
    | .clock => within 1000 50000000 (fld v 27 0)
    | _ => within 8000 216000 (fld v 27 0)
  | _ => true

/-- A frame-staged CK register at its boundary. A frame pulse that has stopped for want of its source's edges runs again when
it is disabled or takes the module strobe (R258). -/
def applyCk (s : State) (n : RegName) (i : Nat) (v : Word) : State :=
  if !clockAccept s n i v then s
  else
    let s := setReg s n i v
    match n with
    | .ckFpCfg =>
      let s := { s with ck := { s.ck with fpConf := tput false s.ck.fpConf i true } }
      if bit v 31 && fld v 27 24 != 0 then s else { s with ck := { s.ck with fpStop := tput false s.ck.fpStop i false } }
    | .ckMclkCfg => { s with ck := { s.ck with mclkConf := true } }
    | _ => s

/-! ### Domain CLK -/

/-- CLK powers off while a SET_FRAME_RATE awaits its boundary or its first strobe: the command ends, for want of the domain
(R252, R486). [log: DEDUCED 50] -/
def rateLost (s : State) : State :=
  match s.hl.long with
  | some (.rate _) =>
    let keep := s.fr.staged.filter (fun e => match e.item with
      | .rate _ => false
      | _ => true)
    endLong { s with fr := { s.fr with staged := keep } } 0 stDomainOff noIndex
  | _ => s

/-- CLK powers off: no lock, no source, empty caches (R239, R395). -/
def clkOff (s : State) : State :=
  let s := each [0, 1, 2, 3] (rateLost s) (fun s j =>
    setPll s j { pll s j with on := false, lock := false, cache := [] })
  let s := each (allRefs.filter (fun i => refSeen (refOf s i))) s (fun s i => leaveRef s i 1 .absent)
  { s with fr := { s.fr with running := false },
           ck := { s.ck with xtalOk := false, gap := none, fpStop := [], phaseLock := false, tracking := false,
                             sel := if s.ck.active = 0 then .freeRun else .freqAcq } }

/-- Lock PLL `j` at CLK bring-up unless a PLL_LOCKED has come for it: a search whose band and time are open (R239). -/
def clkLock (s : State) (j : Nat) : State :=
  if (pll s j).lock then s
  else
    let d := draw s
    match lockPll (pll s j) (pllKey s j) (d.1.toNat % 64) false with
    | none => s
    | some q => pllHasLocked d.2 j q (d.1.toNat / 64 % 501)

/-- CLK is up: the crystal runs, PLL_A and PLL_B have each locked once and hold their keys, and every PLL in use is
locked (R236, R238, R239). [log: DESIGN CHOICE 8; DEDUCED 74] -/
def clkReady (s : State) : State :=
  let s := { s with ck := { s.ck with xtalOk := true, xtalFreq := Config.crystal22, gap := none } }
  let s := each ([0, 1, 2, 3].filter (fun j => j < 2 || pllWanted s j)) s clkLock
  let s := each [0, 1, 2, 3] s (fun s j =>
    if pllWanted s j then s else setPll s j { pll s j with on := false, lock := false })
  let s := each (allRefs.filter (fun i => (refOf s i).st == .absent)) s (fun s i =>
    setRef s i { refOf s i with st := .qualifying })
  refFollowAll s

end Sys2Proof.Machine
end

