-- ==== Sys2Proof/Machine/Sense.lean ====
section
/-! DEFINITION. Ladle: the sense converters, scan lists, key events, limits, urgent conversions and calibration
(R262–R285). -/

namespace Sys2Proof.Machine

open Sys2Proof

/-! ### Converters and slices -/

def conv (s : State) (k : Nat) : Conv := if k = 0 then s.sc.c0 else s.sc.c1

def setConv (s : State) (k : Nat) (x : Conv) : State :=
  if k = 0 then { s with sc := { s.sc with c0 := x } } else { s with sc := { s.sc with c1 := x } }

def scEnt (s : State) (e : Nat) : ScEntry := tget ScEntry.reset s.sc.ent e

def setScEnt (s : State) (e : Nat) (x : ScEntry) : State :=
  { s with sc := { s.sc with ent := tput ScEntry.reset s.sc.ent e x } }

/-- GANG (R269). -/
def gang (s : State) : Bool := rb s .scCfg 0 1

/-- The converter whose MODE, TRIG and DIV converter `k` uses (R269). -/
def lead (s : State) (k : Nat) : Nat := if gang s then 0 else k

def scBase (s : State) (k : Nat) : Nat := rf s .scConvCfg k 28 20
def scLen (s : State) (k : Nat) : Nat := rf s .scConvCfg k 19 10
def scMode (s : State) (k : Nat) : Nat := rf s .scConvCfg (lead s k) 31 31
def scTrig (s : State) (k : Nat) : Nat := rf s .scConvCfg (lead s k) 30 29

/-- The entry that gives slice position `i` of converter `k` its SETTLE, AVG, MUXA, MUX_EN and place in the pass. -/
def leadEntry (s : State) (k i : Nat) : Nat := scBase s (lead s k) + i

/-- Position `i` of the slice is enabled. -/
def posOn (s : State) (k i : Nat) : Bool := rb s .scEntry0 (leadEntry s k i) 31

/-- The first enabled position from `i` on (R268). -/
def nextPos (s : State) (k i : Nat) : Option Nat :=
  ((List.range (scLen s k)).filter (fun j => i ≤ j)).find? (posOn s k)

/-- SC1 converts its entry at position `i` (R269). [log: DEDUCED 78] -/
def twinOn (s : State) (i : Nat) : Bool := rb s .scEntry0 (scBase s 1 + i) 31

/-- Drive SMUX_A0–A2, while AIN is powered (R262). -/
def driveMux (s : State) (a : Nat) : State :=
  { s with sc := { s.sc with smux := if domOn s domAIN then some a else none } }

/-- The address of entry `e`, for SC0, when its MUX_EN is 1 (R267). -/
def entryMux (s : State) (k e : Nat) : State :=
  if k = 0 && rb s .scEntry0 e 23 then driveMux s (rf s .scEntry0 e 26 24) else s

/-- SMUX follows the entry of SC0 that runs next (R267), once an urgent conversion is done. -/
def followMux (s : State) (k i : Nat) : State :=
  if (conv s k).urgentRun.isSome then s else entryMux s k (scBase s k + i)

/-- The internal 2.048 V reference drives SNS_REF (R262, R264). -/
def snsRefDriven (s : State) : Bool := domOn s domAIN && s.sc.refConf && !rb s .scCfg 0 0

/-- The end of a pass (R268). -/
def passEnd (s : State) (k : Nat) : State :=
  let x := conv s k
  let x := { x with pass := (x.pass + 1) % 2 ^ 32, pos := 0 }
  match scTrig s k with
  | 1 => setConv s k { x with st := .waiting }
  | 2 =>
    let s := setConv s k { x with st := .stopped }
    if k = 0 then driveMux s 0 else s
  | _ => setConv s k { x with st := .running }

/-- Go on to the first enabled position from `i` on, or end the pass; a continuous pass begins again. -/
def advance (s : State) (k i : Nat) : State :=
  match nextPos s k i with
  | some j => followMux (setConv s k { conv s k with st := .running, pos := j }) k j
  | none =>
    let s := passEnd s k
    if scTrig s k = 0 then
      match nextPos s k 0 with
      | some j => followMux (setConv s k { conv s k with pos := j }) k j
      | none => s
    else s

/-- A pass starts. A continuous converter without an enabled entry runs no pass. -/
def passStart (s : State) (k : Nat) : State :=
  match nextPos s k 0 with
  | some j => followMux (setConv s k { conv s k with st := .running, pos := j }) k j
  | none => if scTrig s k = 0 then setConv s k { conv s k with st := .running, pos := 0 } else passEnd s k

/-! ### Starts and stops (R272, R282) -/

/-- Enabled entries of the slice of converter `k`. -/
def sliceOn (s : State) (k : Nat) : List Nat :=
  ((List.range (scLen s k)).map (· + scBase s k)).filter (fun e => rb s .scEntry0 e 31)

/-- The converters that a START of converter `k` starts. -/
def started (s : State) (k : Nat) : List Nat := if gang s then [0, 1] else [k]

/-- The entry breaks reason 0x03. -/
def entryBad (s : State) (e : Nat) : Bool :=
  rf s .scEntry0 e 30 29 == 3 || 4 < rf s .scEntry0 e 9 7 || rf s .scEntry0 e 5 0 == 0x3F

/-- The first reason of R272 that holds, with the first offending entry. -/
def startReason (s : State) (k : Nat) : Option (Nat × Nat) :=
  let ks := started s k
  let other := 1 - k
  let badIn (j : Nat) := (sliceOn s j).find? (entryBad s)
  if ks.any (fun j => scLen s j == 0 || 512 < scBase s j + scLen s j) then some (1, 0xFFFF)
  else if !gang s && (conv s other).st != .stopped && scBase s k < scBase s other + scLen s other
      && scBase s other < scBase s k + scLen s k then some (2, 0xFFFF)
  else match ks.findSome? badIn with
    | some e => some (3, e)
    | none =>
      match (if k = 1 then (sliceOn s 1).find? (fun e => rb s .scEntry0 e 23) else none) with
      | some e => some (4, e)
      | none =>
        if scTrig s k = 1 && scMode s k = 1 then some (5, 0xFFFF)
        else if gang s && scLen s 0 != scLen s 1 then some (6, 0xFFFF)
        else if !domOn s domAIN then some (7, 0xFFFF)
        else none

/-- One converter starts: its run has no previous conversion yet. -/
def convStart (s : State) (k : Nat) : State :=
  let s := each ((List.range (scLen s k)).map (· + scBase s k)) s (fun s e =>
    setScEnt s e { scEnt s e with prev := none })
  if scTrig s k = 1 then setConv s k { conv s k with st := .waiting, pos := 0 } else passStart s k

/-- A write of START (R269, R272). -/
def scanStart (s : State) (k : Nat) : State :=
  if (k = 1 && gang s) || (conv s k).st != .stopped then s
  else match startReason s k with
    | some r => emit s 0x0906 k (pay [(0, 1, r.1), (2, 2, r.2)])
    | none => each (started s k) s convStart

/-- SCAN_START. -/
def execScanStart (t : Frac) (src : Owner) (k : Fin 2) (s : State) : Res :=
  .next (directWrite (atT s t) src (regOff .scConvCtrl k.val) 0x35 (fun s => scanStart s k.val))

/-- A key event (R285); the flags are bit 0 REPEAT, 1 ESTIMATED, 2 INITIAL, 3 STOPPED, 4 RATE. -/
def keyEvent (s : State) (code e at_ dt flags k p : Nat) : State :=
  emit s code e (pay [(0, 6, at_ / 65536), (6, 2, at_), (8, 4, dt), (12, 1, flags), (13, 1, k), (14, 2, p)])

/-- A key event without a crossing: its FN and FRAC are stated nowhere. [log: DESIGN CHOICE 77] -/
def keyNoCross (s : State) (code e flags k p : Nat) : State :=
  let d := draw s
  keyEvent d.2 code e d.1.toNat 0 flags k p

/-- Step 2 and 3 of R282 for one entry. -/
def entryStop (k : Nat) (s : State) (e : Nat) : State :=
  let x := scEnt s e
  let s :=
    if rf s .scEntry0 e 30 29 == 1 && (x.key == .down || x.key == .releasing) then
      keyNoCross s 0x0902 e 8 k ((x.prev.map Prod.fst).getD 0)
    else s
  setScEnt s e { scEnt s e with key := .rest, out := false, prev := none }

/-- A converter stops: 1 STOP written, 2 AIN off (R282). -/
def convStop (cause : Nat) (s : State) (k : Nat) : State :=
  let x := conv s k
  let drops := if x.urgentRun.isSome then inc16 x.urgentDrops else x.urgentDrops
  let x := { x with urgentRun := none, urgent := if x.urgentRun.isSome then 3 else x.urgent, urgentDrops := drops }
  if x.st = .stopped then setConv s k x
  else
    let s := setConv s k { x with st := .stopped, pos := 0 }
    let s := if k = 0 then driveMux s 0 else s
    let s := each ((List.range (scLen s k)).map (· + scBase s k)) s (entryStop k)
    emit s 0x0907 k (pay [(0, 1, cause), (4, 4, (conv s k).pass)])

/-- A write of STOP (R269). -/
def scanStop (s : State) (k : Nat) : State :=
  if (k = 1 && gang s) || (conv s k).st == .stopped then s else each (started s k) s (convStop 1)

/-- SCAN_STOP: a write, or AIN powering off. -/
def execScanStop (t : Frac) (src : Option Owner) (k : Fin 2) (s : State) : Res :=
  let s := atT s t
  .next (match src with
    | some o => directWrite s o (regOff .scConvCtrl k.val) 0x35 (fun s => scanStop s k.val)
    | none => convStop 2 s k.val)

/-- SC_CONV_CTRL: STOP acts on a converter that runs, START on one that is STOPPED. [log: DEDUCED 78] -/
def convCtrl (s : State) (k : Nat) (v : Word) : State :=
  if (conv s k).st = .stopped then (if bit v 0 then scanStart s k else s)
  else if bit v 1 then scanStop s k else s

/-- AIN powers off (R262). -/
def senseOff (s : State) : State := driveMux (each [0, 1] s (convStop 2)) 0

/-- AIN powers up: SC0 is STOPPED, and SMUX_A0–A2 drive 0b000 (R267). -/
def senseUp (s : State) : State := { s with sc := { s.sc with smux := some 0 } }

/-- FRAME triggers of a strobe (R268, R273). -/
def senseStrobe (s : State) : State :=
  each [0, 1] s (fun s k =>
    let x := conv s k
    if scTrig s k != 1 || s.fr.fn % (rf s .scConvCfg (lead s k) 9 6 + 1) != 0 then s
    else if x.st = .waiting then passStart s k
    else if x.st = .running then
      let n := inc16 x.overruns
      if x.overrunAt = 0 ∨ x.overrunAt - 1 + tSec ≤ nowTicks s then
        emit (setConv s k { x with overruns := n, overrunAt := nowTicks s + 1 }) 0x0905 k
          (pay [(0, 2, n), (4, 4, x.pass)])
      else setConv s k { x with overruns := n }
    else s)

/-! ### Results (R264, R266, R270) -/

/-- The raw result of a conversion of converter `k` with 2^`avg` samples (R263): in pipeline mode their sum, shifted left
by 10 − AVG bits. An input above V_REF gives the full scale of the mode (R264). -/
def rawOf (s : State) (k avg : Nat) (x : AdcIn) : Nat :=
  if scMode s k = 1 then (if x.beyond then 2 ^ 24 - 1 else x.integral.toNat)
  else
    let code (i : Nat) : Nat := if x.beyond then 16383 else ((x.samples[i]?).getD 0).toNat
    ((List.range (2 ^ avg)).map code).foldl (· + ·) 0 * 2 ^ (10 - avg)

/-- The result y of a conversion of entry `e` with a raw value. -/
def resultOf (s : State) (e raw : Nat) (trimmed : BitVec 24) : Nat :=
  let src := rf s .scEntry0 e 5 0
  if src < 0x30 then
    let g : Int := rf s .scEntry2 e 23 0
    let o := sext 32 (reg s .scEntry3 e).toNat
    (clampI 0 (2 ^ 24 - 1) ((((raw : Int) - o) * g + 2 ^ 21) / 2 ^ 22)).toNat
  else if (src = 0x37 || src = 0x3C) && !domOn s domPWRA then 0
  else if (src = 0x38 || src = 0x3D) && !domOn s domPWRB then 0
  else trimmed.toNat

/-- p of R275. -/
def posOf (s : State) (e y : Nat) : Nat :=
  let p := fldN y 23 8
  if rb s .scEntry0 e 28 then 65535 - p else p

/-! ### Key logic (R275–R278) -/

/-- num ÷ den rounded half up. -/
def rndDiv (num den : Int) : Int := (2 * num + den) / (2 * den)

/-- A segment between two conversions. -/
structure Seg where
  p0 : Nat
  p1 : Nat
  t0 : Nat
  t1 : Nat
  h : Nat
  deriving DecidableEq, Repr

/-- The stamp of a press crossing of T, if there is one. -/
def Seg.press (g : Seg) (t : Nat) : Option Int :=
  if g.p0 < t ∧ t ≤ g.p1 then
    some (g.t0 + rndDiv (((t : Int) - g.p0) * ((g.t1 : Int) - g.t0)) ((g.p1 : Int) - g.p0))
  else none

/-- The stamp of a release crossing of T, if there is one. -/
def Seg.release (g : Seg) (t : Nat) : Option Int :=
  let th : Int := (t : Int) - g.h
  if th ≤ g.p0 ∧ (g.p1 : Int) < th then
    some (g.t0 + rndDiv (((g.p0 : Int) - th) * ((g.t1 : Int) - g.t0)) ((g.p0 : Int) - g.p1))
  else none

/-- Δt as reported: saturated; a negative difference has no stated form. -/
def deltaRep (d : Int) : Nat := if d < 0 then Config.outOfRange 32 (some d) else Nat.min d.toNat 0xFFFFFFFF

/-- RATE of R278, as its bit of the flags. -/
def rateFlag (s : State) (a b : Int) : Nat :=
  if s.sc.rates.any (fun r => decide (a < (r * 65536 : Nat)) && decide (((r * 65536 : Nat) : Int) ≤ b)) then 16
  else 0

/-- The estimated Δt of R276. -/
def estimate (g : Seg) (a b : Nat) : Int := rndDiv (((b : Int) - a) * ((g.t1 : Int) - g.t0)) ((g.p1 : Int) - g.p0)

def keyTo (s : State) (e : Nat) (k : KeyState) : State := setScEnt s e { scEnt s e with key := k }

/-- KEY_DOWN from a measured pair of stamps. -/
def keyDown (s : State) (e k p : Nat) (ta tb : Int) : State :=
  keyEvent (keyTo s e .down) 0x0901 e tb.toNat (deltaRep (tb - ta)) (rateFlag s ta tb) k p

/-- KEY_DOWN with an estimate. -/
def keyDownEst (s : State) (e k : Nat) (g : Seg) (tb : Int) (flags a b : Nat) : State :=
  keyEvent (keyTo s e .down) 0x0901 e tb.toNat (deltaRep (estimate g a b)) (flags + rateFlag s g.t0 g.t1) k g.p1

/-- One conversion of a KEY entry with a previous one (R276). -/
def keyStep (s : State) (k e : Nat) (g : Seg) : State :=
  let x := scEnt s e
  let a := rf s .scEntry1 e 15 0
  let b := rf s .scEntry1 e 31 16
  match x.key with
  | .rest =>
    match g.press a, g.press b with
    | some ta, some tb => keyDown s e k g.p1 ta tb
    | some ta, none => setScEnt s e { x with key := .armed, stamp := ta.toNat }
    | none, some tb => keyDownEst s e k g tb 2 a b
    | none, none => s
  | .armed =>
    match g.press b with
    | some tb => keyDown s e k g.p1 x.stamp tb
    | none =>
      if (g.p1 : Int) < (a : Int) - g.h then
        let c := conv s k
        keyTo (setConv s k { c with keyAborts := inc16 c.keyAborts }) e .rest
      else s
  | .down =>
    match g.release b with
    | some tb => setScEnt s e { x with key := .releasing, stamp := tb.toNat }
    | none => s
  | .releasing =>
    match g.release a with
    | some ta =>
      keyEvent (keyTo s e .rest) 0x0902 e ta.toNat (deltaRep (ta - x.stamp)) (rateFlag s x.stamp ta) k g.p1
    | none =>
      match g.press b with
      | some tb => keyDownEst s e k g tb 3 a b
      | none => s

/-- The conversion of a KEY entry: the first of a run sets the state (R277). [log: DEDUCED 76] -/
def keyConv (s : State) (k e p t : Nat) : State :=
  let x := scEnt s e
  let s := match x.prev with
    | none =>
      if rf s .scEntry1 e 31 16 ≤ p then keyNoCross (keyTo s e .down) 0x0901 e 4 k p else keyTo s e .rest
    | some q => keyStep s k e { p0 := q.1, p1 := p, t0 := q.2, t1 := t, h := rf s .scConvHyst k 15 0 }
  setScEnt s e { scEnt s e with prev := some (p, t) }

/-- The conversion of a WATCH entry (R279): limits are signed for temperatures. -/
def watchConv (s : State) (k e p : Nat) : State :=
  let x := scEnt s e
  let src := rf s .scEntry0 e 5 0
  let num (n : Nat) : Int := if 0x3B ≤ src && src ≤ 0x3D then sext 16 n else (n : Int)
  let lo := rf s .scEntry1 e 15 0
  let hi := rf s .scEntry1 e 31 16
  let h : Int := rf s .scConvHyst k 15 0
  if !x.out && (num hi < num p || num p < num lo) then
    let above : Bool := num hi < num p
    emit (setScEnt s e { x with out := true }) 0x0903 e
      (pay [(0, 4, x.value), (4, 1, if above then 1 else 2), (6, 2, if above then hi else lo)])
  else if x.out && num lo + h ≤ num p && num p ≤ num hi - h then
    emit (setScEnt s e { x with out := false }) 0x0904 e (pay [(0, 4, x.value)])
  else s

/-- SC_RESULT takes a result. -/
def putResult (s : State) (e y : Nat) : State :=
  let x := scEnt s e
  setScEnt s e { x with value := y, seq := (x.seq + 1) % 16 }

/-- An input above V_REF is counted (R264). -/
def countOver (s : State) (k : Nat) (beyond : Bool) : State :=
  if beyond then setConv s k { conv s k with overrange := inc16 (conv s k).overrange } else s

/-- One conversion of a pass, of entry `e` with 2^`avg` samples at stamp `t`: its result, and KEY or WATCH. -/
def convert (s : State) (k e avg t : Nat) (x : AdcIn) : State :=
  let y := resultOf s e (rawOf s k avg x) x.trimmed
  let s := countOver (putResult s e y) k x.beyond
  let p := posOf s e y
  match rf s .scEntry0 e 30 29 with
  | 1 => keyConv s k e p t
  | 2 => watchConv s k e p
  | _ => s

/-- The conversion at position `i` of a pass of converter `k`, and the way on; under GANG SC1 converts with SC0 (R269). -/
def passConvert (s : State) (k i t : Nat) (x twin : AdcIn) : State :=
  let avg := rf s .scEntry0 (leadEntry s k i) 9 7
  let s := convert s k (scBase s k + i) avg t x
  if !gang s then advance s k (i + 1)
  else
    let s := if twinOn s i then convert s 1 (scBase s 1 + i) avg t twin else s
    advance (advance s 0 (i + 1)) 1 (i + 1)

/-- The end of an urgent conversion of entry `e` (R280): SMUX goes back to what the converter's state asks. -/
def urgentDone (s : State) (k e : Nat) (x : AdcIn) : State :=
  let y := resultOf s e (rawOf s k (rf s .scEntry0 e 9 7) x) x.trimmed
  let s := setConv s k { conv s k with urgentRun := none, urgent := 2, urgentDone := true, urgentVal := y }
  let s := countOver (putResult s e y) k x.beyond
  if (conv s k).st = .running then followMux s k (conv s k).pos
  else if k = 0 ∧ (conv s k).st = .stopped then driveMux s 0
  else s

/-- A conversion of a calibration step (R281): the entries of the step follow one another, each with its MUXA on
SMUX_A0–A2 (R267). -/
def calConvert (s : State) (k first n e : Nat) (x : AdcIn) : State :=
  let c := conv s k
  if c.st != .calibrating || e != first + c.cal.length || n ≤ c.cal.length then s
  else
    let s := countOver (setConv s k { c with cal := c.cal ++ [rawOf s k (rf s .scEntry0 e 9 7) x] }) k x.beyond
    if c.cal.length + 1 < n then entryMux s k (e + 1) else s

/-- SC_CONVERSION_DONE: of a pass, of an urgent conversion or of a calibration step. Under GANG the conversions of SC1 come
with those of SC0. -/
def execScConversionDone (t : Frac) (k : Fin 2) (e : Fin 512) (x : AdcIn) (fn : BitVec 48) (frac : Frac)
    (urgent : Bool) (twin : AdcIn) (s : State) : Res :=
  let s := atT s t
  let c := conv s k.val
  .next (
    if !domOn s domAIN then s
    else if urgent then (if c.urgentRun != some e.val then s else urgentDone s k.val e.val x)
    else if c.st = .calibrating then
      match s.hl.long with
      | some (.scCal _ l first n _) => if l = k.val then calConvert s l first n e.val x else s
      | _ => s
    else if c.st != .running || c.urgentRun.isSome || e.val != scBase s k.val + c.pos || !posOn s k.val c.pos
        || (gang s && (k.val = 1 || (conv s 1).urgentRun.isSome)) then s
    else passConvert s k.val c.pos (fn.toNat * 65536 + frac.toNat) x twin)

/-- A conversion of converter `k` is running: a pass is, and it has entries to convert. -/
def converting (s : State) (k : Nat) : Bool := (conv s k).st == .running && (nextPos s k 0).isSome

/-- A write of SC_URGENT (R280): dropped while a conversion runs, or where the start of a waiting converter wins; else the
conversion waits for its result. [log: DEDUCED 78] -/
def urgentWrite (s : State) (k : Nat) (v : Word) (startWins : Bool) : State :=
  let s := setReg s .scUrgent k (v &&& 0x1FF)
  let x := conv s k
  if converting s k || (x.st == .waiting && startWins) || x.st == .calibrating || x.urgentRun.isSome
      || !domOn s domAIN then
    setConv s k { x with urgentDone := false, urgent := 3, urgentDrops := inc16 x.urgentDrops }
  else entryMux (setConv s k { x with urgentDone := false, urgent := 1, urgentRun := some (fld v 8 0) }) k (fld v 8 0)

/-- URGENT_CONVERSION. -/
def execUrgentConversion (t : Frac) (src : Owner) (k : Fin 2) (v : Word) (startWins : Bool) (s : State) : Res :=
  .next (directWrite (atT s t) src (regOff .scUrgent k.val) 0x35 (fun s => urgentWrite s k.val v startWins))

/-! ### Register writes (R271) -/

/-- The converter that uses an entry is not STOPPED. -/
def entryBusy (s : State) (e : Nat) : Bool :=
  [0, 1].any (fun k => (conv s k).st != .stopped && scBase s k ≤ e && e < scBase s k + scLen s k)

/-- A write of an SC register that R271 governs; the value is merged already. -/
def scWrite (s : State) (n : RegName) (i : Nat) (w : Word) : State :=
  let refuse := { s with sc := { s.sc with refused := inc32 s.sc.refused } }
  let ok := regAccept n i (reg s n i) w
  match n with
  | .scCfg =>
    if (conv s 0).st != .stopped || (conv s 1).st != .stopped then refuse
    else setReg { s with sc := { s.sc with refConf := true } } n i w
  | .scConvCfg => if (conv s i).st != .stopped then refuse else if ok then setReg s n i w else s
  | .scConvHyst => if (conv s i).st != .stopped then s else setReg s n i w
  | .scEntry0 | .scEntry2 | .scEntry3 => if entryBusy s i then refuse else setReg s n i w
  | _ => setReg s n i w

/-! ### SC_CAL (R281) -/

/-- COUNT and the entries named are in range. -/
def calRange (s : State) (k e n : Nat) : Bool :=
  1 ≤ n && e + n ≤ 512 && (if scMode s k = 1 then n = 1 else n ≤ scLen s k)

/-- SC_CAL: the checks of a step, and the start of its busy interval. [log: DEDUCED 78] -/
def scCal (t : Frac) (c : Cmd) (s : State) (step : Nat) : Res :=
  let w := pwN c 0
  let k := fldN w 8 8
  let e := fldN w 24 16
  let n := fldN w 41 32
  let target := fldN (pwN c 1) 23 0
  runCmd s t 0x0050 c [0x35] [(0, 0x3FF01FF0103), (1, 0xFFFFFF)] (w % 4 == step) (fun s slot =>
    let start (s : State) := startLong s 0x0050 slot (.scCal step k e n (target : Int))
    if step = 3 then
      if (conv s k).st != .stopped then finish s slot stScRunning noIndex else start s
    else if !calRange s k e n then finish s slot stBadParam noIndex
    else if !domOn s domAIN then finish s slot stDomainOff noIndex
    else if (conv s k).st != .stopped then finish s slot stScRunning noIndex
    else
      let lack := if step = 2 then ((List.range n).map (· + e)).find? (fun i => (scEnt s i).zero.isNone) else none
      match lack with
      | some _ => finish s slot stNoZero noIndex
      | none => start (entryMux (setConv s k { conv s k with st := .calibrating, cal := [] }) k e))

/-- SC_CAL with STEP ZERO. -/
def execScCalZero (t : Frac) (c : Cmd) (s : State) : Res := scCal t c s 1

/-- SC_CAL with STEP FULL. -/
def execScCalFull (t : Frac) (c : Cmd) (s : State) : Res := scCal t c s 2

/-- SC_CAL with STEP SAVE. -/
def execScCalSave (t : Frac) (c : Cmd) (s : State) : Res := scCal t c s 3

/-- GAIN that a FULL step sets, where F − Z and GAIN are in range. -/
def calGain (target : Int) (z f : Nat) : Option Nat :=
  let d : Int := (f : Int) - z
  if d < 4096 then none
  else
    let g := rndDiv (target * 2 ^ 22) d
    if 2 ^ 24 - 1 < g then none else some g.toNat

/-- Registers of the calibration record. -/
def calReg (off : Nat) : Bool :=
  0x61000 ≤ off && off < 0x63000 && 8 ≤ off % 16

/-- The calibration record is written to its other place in CAL (R281, R386). -/
def saveCal (s : State) (r : Tbl Word) : State :=
  let side := !s.sv.calSide
  let s := commitLines s (List.range' (calLine side) 64)
  { s with sv := { s.sv with cal := r, calSide := side } }

/-- The conversions of a calibration step are over: the converter is STOPPED and SMUX_A0–A2 drive 0b000 (R267). -/
def calIdle (s : State) (k : Nat) : State :=
  if (conv s k).st != .calibrating then s
  else
    let s := setConv s k { conv s k with st := .stopped }
    if k = 0 then driveMux s 0 else s

/-- The end of SC_CAL (R281): of a ZERO or FULL step, once every entry has been converted, or AIN has gone off before.
[log: DEDUCED 78] -/
def scCalDone (s : State) (us : Word) (step k e n : Nat) (target : Int) (nvOk : Bool) : State :=
  let c := (conv s k).cal
  let raw (i : Nat) : Nat := c.getD i 0
  if step != 3 && decide (c.length < n) then
    (if (conv s k).st = .calibrating then s else endLong s us stDomainOff noIndex)
  else if step = 1 then
    let s := each (List.range n) (calIdle s k) (fun s i => setScEnt s (e + i) { scEnt s (e + i) with zero := some (raw i) })
    endLong s us stOk 0
  else if step = 2 then
    let s := calIdle s k
    let z (i : Nat) : Nat := ((scEnt s (e + i)).zero).getD 0
    match (List.range n).find? (fun i => (calGain target (z i) (raw i)).isNone) with
    | some _ => endLong s us stCalSpan noIndex
    | none =>
      let s := each (List.range n) s (fun s i =>
        let g := (calGain target (z i) (raw i)).getD 0
        let s := setReg (setReg s .scEntry2 (e + i) (BitVec.ofNat 32 g)) .scEntry3 (e + i) (BitVec.ofNat 32 (z i))
        setScEnt s (e + i) { scEnt s (e + i) with zero := none })
      endLong s us stOk 0
  else if nvOk then
    endLong (saveCal s (s.regs.filter (fun r => calReg r.1))) us stOk 0
  else endLong s us stNvFail noIndex

/-- A register put in force by its BAR0 offset. -/
def copyReg (s : State) (r : Nat × Word) : State :=
  match regAt r.1 with
  | some w => setReg s w.1.name w.2 r.2
  | none => s

/-- The calibration record is restored (R281). -/
def restoreCal (s : State) : State := each s.sv.cal s copyReg

end Sys2Proof.Machine
end

