-- ==== Sys2Proof/Machine/Scene.lean ====
section
/-! DEFINITION. Scenes: the scene store, capture, recall (R306, R307), what a nonvolatile commit that a reset
interrupts leaves (R386), and what the loss of a line does (R385). -/

namespace Sys2Proof.Machine

open Sys2Proof

/-! ### Bodies -/

def sceneOf (s : State) (k : Nat) : Bytes := tget [] s.hl.scenes k

def setScene (s : State) (k : Nat) (b : Bytes) : State :=
  { s with hl := { s.hl with scenes := tput [] s.hl.scenes k b } }

/-- Bytes of the store that a body occupies: whole lines of 64 bytes (R384). [log: DEDUCED 79] -/
def storeLen (b : Bytes) : Nat := (b.length + 63) / 64 * 64

/-- HL_SCENE_FREE. -/
def sceneFree (s : State) : Nat := 2 ^ 21 - (s.hl.scenes.map (fun e => storeLen e.2)).foldl (· + ·) 0

/-- The parts of a scene body. -/
structure Scene where
  mask : Nat
  nxp : Nat
  npar : Nat
  id : Nat
  deriving DecidableEq, Repr

def sceneHead (b : Bytes) : Scene := { mask := leAt b 6 2, nxp := leAt b 8 4, npar := leAt b 12 2, id := leAt b 16 4 }

/-- Engines of ENG_MASK, ascending. -/
def Scene.engs (h : Scene) : List Nat := engines.filter (bitN h.mask)

/-- Where the crosspoint records and the parameter records begin. -/
def Scene.xpAt (h : Scene) : Nat := 32 + 4 * h.engs.length
def Scene.parAt (h : Scene) : Nat := h.xpAt + 8 * h.nxp

/-- Bytes of the body. -/
def Scene.len (h : Scene) : Nat := h.parAt + 8 * h.npar

def sceneRecs (h : Scene) (b : Bytes) : List Rec := (chunks 8 h.nxp (b.drop h.xpAt)).map parseRec

/-- A parameter record: engine, word, bits 47:32, value. -/
def parRec (b : Bytes) : Nat × Nat × Nat × Word :=
  let w := leNat b
  (fldN w 63 60, fldN w 59 48, fldN w 47 32, BitVec.ofNat 32 w)

def scenePars (h : Scene) (b : Bytes) : List (Nat × Nat × Nat × Word) :=
  (chunks 8 h.npar (b.drop h.parAt)).map parRec

/-- Index of the first record of a list that fails a check. -/
def firstBad {α : Type} (l : List α) (ok : α → Bool) : Option Nat :=
  ((l.zip (List.range l.length)).find? (fun x => !ok x.1)).map Prod.snd

/-- The format of a stored body: BAD_SCENE or SCENE_TOO_BIG, or OK, with the index of the first offending record, counted
over the crosspoint records and then the parameter records (R298). [log: DEDUCED 79] -/
def sceneFault (b : Bytes) : Nat × Nat :=
  let h := sceneHead b
  let bad (i : Nat) : Nat × Nat := (stBadScene, i)
  if b.length < 32 || leAt b 0 4 != 0x454E4353 || leAt b 4 2 != 1 || leAt b 14 2 != 0 || !allZero ((b.drop 20).take 12)
  then bad noIndex
  else if 32768 < h.nxp || 4096 < h.npar then (stSceneTooBig, noIndex)
  else if b.length != h.len then bad noIndex
  else match firstBad (sceneRecs h b) (fun r => r.op < 2 && r.rsv == 0),
      firstBad (scenePars h b) (fun p => bitN h.mask p.1 && p.2.2.1 == 0) with
    | some i, _ => bad i
    | none, some i => bad (h.nxp + i)
    | none, none => (stOk, noIndex)

def sceneStatus (b : Bytes) : Nat := (sceneFault b).1

/-- The words of an engine that a capture writes: OPEN or RANGED, and not structural. -/
def captureWords (r : Option Recipe) : List Nat :=
  match r with
  | none => []
  | some q => (List.range q.nparam).filter (fun w => wordAttr r w ≤ 1 && wordPattr r w < 4)

/-- The body that a capture builds from the applied configuration (R306): SCENE_ID is stated nowhere. -/
def captureBody (s : State) (lo hi engs id : Nat) : Bytes × Nat × Nat :=
  let sinks := (List.range 4096).filter (fun k => lo ≤ k && k ≤ hi && !reservedSink k)
  let ents := s.mx.xp.filter (fun e => lo ≤ xpSink e.1 && xpSink e.1 ≤ hi && !e.2.lost)
  let es := engines.filter (bitN engs)
  let rec_ (e : Nat) : Option Recipe := (eng s e).recipe
  let pars := es.flatMap (fun e => (captureWords (rec_ e)).map (fun w => (e, w)))
  let nxp := sinks.length + ents.length
  let head := toLE 4 0x454E4353 ++ toLE 2 1 ++ toLE 2 (maskOf 16 (bitN engs)) ++ toLE 4 nxp ++ toLE 2 pars.length
    ++ toLE 2 0 ++ toLE 4 id ++ List.replicate 12 0
  (head ++ es.flatMap (fun e => toLE 4 (((rec_ e).map (·.id)).getD 0))
    ++ sinks.flatMap (fun k => recBytes 1 0 k 0)
    ++ ents.flatMap (fun e => recBytes 0 (xpSource e.1) (xpSink e.1) e.2.cur)
    ++ pars.flatMap (fun p =>
      toLE 8 (p.1 * 2 ^ 60 + p.2 * 2 ^ 48 + (((rec_ p.1).map (fun (r : Recipe) => tget 0 r.words p.2)).getD 0).toNat)),
   nxp, pars.length)

/-! ### SCENE_SAVE, SCENE_DELETE and SCENE_READ -/

/-- SCENE_SAVE with MODE 0. [log: DEDUCED 79] -/
def execSceneSaveStore (t : Frac) (c : Cmd) (d : Dma) (s : State) : Res :=
  let len := fldN (pwN c 2) 23 0
  runCmd s t 0x0060 c [0x38] [(0, 0x17F), (1, wordAll), (2, 0xFFFFFF)] (!bitN (pwN c 0) 8 && addrOk c 1 len) (fun s n =>
    match cmdData s c d 1 len with
    | none => startLong s 0x0060 n .dmaFail
    | some b => startLong s 0x0060 n (.sceneStore (fldN (pwN c 0) 6 0) b))

/-- SCENE_SAVE with MODE 1. [log: DEDUCED 79] -/
def execSceneSaveCapture (t : Frac) (c : Cmd) (s : State) : Res :=
  let w := pwN c 3
  runCmd s t 0x0060 c [0x38] [(0, 0x17F), (3, 0xFFFF0FFF0FFF)] (bitN (pwN c 0) 8) (fun s n =>
    let s := startLong s 0x0060 n (.sceneCapture (fldN (pwN c 0) 6 0) (fldN w 11 0) (fldN w 27 16) (fldN w 47 32))
    { s with hl := { s.hl with captureTold := false } })

/-- Lines of the SCENE region that are in use. -/
def sceneUsed (s : State) : List Nat := s.sv.sceneAt.flatMap (·.2)

/-- A slot's body is replaced, an empty one freeing it, as a nonvolatile commit (R306, R386, R387). -/
def commitScene (s : State) (slot : Nat) (b : Bytes) : State :=
  let l := place s sceneLines (sceneUsed s) (linesFor b.length)
  let s := setScene (commitLines s l) slot b
  { s with sv := { s.sv with sceneAt := tput [] s.sv.sceneAt slot l } }

/-- The nonvolatile commit of a body. -/
def storeScene (s : State) (us : Word) (slot : Nat) (b : Bytes) (nvOk : Bool) : State :=
  if sceneFree s < storeLen b then endLong s us stSceneFull noIndex
  else if !nvOk then endLong s us stNvFail noIndex
  else endLong (commitScene s slot b) us stOk 0

/-- The end of SCENE_SAVE with MODE 0. -/
def sceneStored (s : State) (us : Word) (slot : Nat) (b : Bytes) (nvOk : Bool) : State :=
  let f := sceneFault b
  if f.1 != stOk then endLong s us f.1 f.2 else storeScene s us slot b nvOk

/-- The end of SCENE_SAVE with MODE 1. -/
def sceneCaptured (s : State) (us : Word) (slot lo hi engs : Nat) (nvOk : Bool) : State :=
  let p := draw s
  let b := captureBody p.2 lo hi engs (p.1.toNat % 2 ^ 32)
  if 32768 < b.2.1 || 4096 < b.2.2 then endLong p.2 us stSceneTooBig noIndex
  else storeScene p.2 us slot b.1 nvOk

/-- SCENE_DELETE. -/
def execSceneDelete (t : Frac) (c : Cmd) (s : State) : Res :=
  let slot := pwN c 0
  runCmd s t 0x0062 c [0x38] [(0, 0x7F)] true (fun s n =>
    if sceneOf s slot = [] then finish s n stSceneEmpty noIndex else startLong s 0x0062 n (.sceneDelete slot))

/-- The end of SCENE_DELETE. -/
def sceneDeleted (s : State) (us : Word) (slot : Nat) (nvOk : Bool) : State :=
  if nvOk then endLong (commitScene s slot []) us stOk 0 else endLong s us stNvFail noIndex

/-- SCENE_READ. -/
def execSceneRead (t : Frac) (c : Cmd) (reads : List Correction) (s : State) : Res :=
  let len := fldN (pwN c 2) 23 0
  runCmd s t 0x0063 c [0x38] [(0, 0x7F), (1, wordAll), (2, 0xFFFFFF)] (addrOk c 1 len) (fun s n =>
    let b := sceneOf s (pwN c 0)
    let s := if b = [] then s else pantryReads s reads
    if b = [] then finish s n stSceneEmpty noIndex
    else if len < b.length then finish s n stBadParam b.length
    else finish (cmdWrite s c 1 b) n stOk b.length)

/-! ### SCENE_RECALL (R307) -/

/-- RECIPE_ID that the scene holds for its engines, and the engines to skip. -/
def sceneSkips (s : State) (h : Scene) (b : Bytes) : List Nat :=
  ((h.engs.zip (List.range h.engs.length)).filter (fun e =>
    ((eng s e.1).recipe.map (·.id)) != some (leAt b (32 + 4 * e.2) 4))).map Prod.fst

/-- The first parameter record that R93 refuses for the owner, among the engines not skipped. -/
def badPar (s : State) (skip : List Nat) (pars : List (Nat × Nat × Nat × Word)) : Option Nat :=
  ((pars.zip (List.range pars.length)).find? (fun p =>
    !skip.contains p.1.1 && !paramOk (eng s p.1.1).recipe p.1.2.1 p.1.2.2.2)).map Prod.snd

/-- The sets of a scene by engine. -/
def sceneSets (skip : List Nat) (pars : List (Nat × Nat × Nat × Word)) : List (Nat × Tbl Word) :=
  let es := engines.filter (fun e => !skip.contains e && pars.any (fun p => p.1 == e))
  es.map (fun e => (e, tmk (0 : Word) []
    ++ ((List.range 4096).filterMap (fun w =>
      (pars.filter (fun p => p.1 == e && p.2.1 == w)).getLast?.map (fun p => (w, p.2.2.2))))))

/-- The setting groups a recall needs: MIX, and the engines it sets. -/
def recallGroups (s : State) (slot : Nat) : List Nat :=
  let b := sceneOf s slot
  let h := sceneHead b
  if b = [] then [0] else 0 :: (h.engs.filter (fun e => !(sceneSkips s h b).contains e)).map (· + 1)

/-- SCENE_RECALL. [log: DEDUCED 79] -/
def execSceneRecall (t : Frac) (c : Cmd) (reads : List Correction) (s : State) : Res :=
  let slot := fldN (pwN c 0) 6 0
  runCmd s t 0x0061 c (recallGroups s slot) [(0, 0x7F)] true (fun s n =>
    let b := sceneOf s slot
    let h := sceneHead b
    let s := if b = [] then s else pantryReads s reads
    if b = [] then finish s n stSceneEmpty noIndex
    else
      let skip := sceneSkips s h b
      let pars := scenePars h b
      let sets := sceneSets skip pars
      let mask := maskOf 16 skip.contains
      let req : CommitReq :=
        { tag := 0xFFFFFF00 + slot, count := h.nxp, notify := true, atFn := false, target := 0,
          scene := some { slot := slot, id := h.id, skipped := mask, sets := sets } }
      match commitRecs s c.src req (sceneRecs h b) with
      | .error e => finish e.1 n e.2.1 e.2.2
      | .ok p =>
        match badPar s skip pars with
        | some i => finish s n stBadScene (h.nxp + i)
        | none =>
          if h.engs.any (fun e => !skip.contains e && (stagedSets s c.src).contains e) then finish s n stOverlap noIndex
          else finish p.1 n stOk (mask + p.2 * 65536))

/-- SCENE_APPLIED (R310). -/
def sceneApplied (s : State) (r : SceneRef) : State :=
  emit s 0x0A08 r.slot (pay [(0, 4, r.id), (4, 2, r.skipped), (8, 4, s.mx.cost)])

/-! ### An interrupted nonvolatile commit (R386) -/

/-- The nonvolatile commit that a long operation in progress makes, once its checks have passed. [log: DEDUCED 29] -/
def commitOf (s : State) : LongOp → Option NvCommit
  | .sceneStore k b => if sceneStatus b = stOk && storeLen b ≤ sceneFree s then some (.scene k b) else none
  | .sceneCapture k lo hi engs =>
    let b := captureBody s lo hi engs ((draw s).1.toNat % 2 ^ 32)
    if b.2.1 ≤ 32768 && b.2.2 ≤ 4096 && storeLen b.1 ≤ sceneFree s then some (.scene k b.1) else none
  | .sceneDelete k => some (.scene k [])
  | .scCal 3 _ _ _ _ => some (.cal (s.regs.filter (fun r => calReg r.1)))
  | .keygen d => some (.dck d)
  | .fwStage img =>
    match openContainer s 3 img with
    | .ok _ => if (header img).bodyLen ≤ 786080 then some (.fw img) else none
    | .error _ => none
  | .envLoad true img _ =>
    match openContainer s 2 img with
    | .ok b => match checkEnv s b (header img).signer with
      | .ok _ => some (.env img)
      | .error _ => none
    | .error _ => none
  | .fxLoad e true img _ =>
    let h := header img
    match openContainer s 1 img with
    | .ok b => match checkLoad s e b h.signer (encrypted h) with
      | .ok _ => if raises s h then some (.ctr h.signer h.ctr h.version) else none
      | .error _ => none
    | .error _ => none
  | _ => none

/-- What a reset finds of a nonvolatile commit in progress. -/
def interrupted (s : State) : Option NvCommit := s.hl.long.bind (commitOf s)

/-- The new data of an interrupted commit whose journal record is complete is in force (R386). -/
def journalDone (s : State) : State :=
  match s.sv.journal with
  | some (.scene k b) => commitScene s k b
  | some (.cal r) => saveCal s r
  | some (.dck d) => storeKey s d
  | some (.fw img) => fwWrite s img (plainBody img)
  | some (.env img) =>
    let h := header img
    let s := advanceCtr s h
    let body := if encrypted h then (decryptBody s img).getD [] else plainBody img
    match parseEnv body h.signer, envPlace s img with
    | .ok envs, some l => storeEnv s img (envs.map Prod.fst) l
    | _, _ => s
  | some (.ctr g i v) =>
    advanceCtr s { kind := 1, signer := g, total := 0, bodyLen := 0, flags := 2, ctr := i, level := 0, version := v,
                   recipient := 0 }
  | none => s

/-- The region of an interrupted commit (R390). -/
def commitRegion (s : State) : NvCommit → Nat
  | .scene _ _ => 6
  | .cal _ => 1
  | .dck _ | .ctr _ _ _ => 0
  | .fw _ => if stageSlot s then 5 else 4
  | .env _ => 2

/-! ### Lines that are lost (R385) -/

/-- GAIN 0x40_0000 and OFFSET 0 for an entry, in force and in the saved record (R385). [log: DEDUCED 29] -/
def loseCal (s : State) (e : Nat) : State :=
  let cal := s.sv.cal.filter (fun r => r.1 != regOff .scEntry2 e && r.1 != regOff .scEntry3 e)
  setReg (setReg { s with sv := { s.sv with cal := cal } } .scEntry2 e 0x400000) .scEntry3 e 0

/-- The container that occupies a line of ENV is lost: its channels take the fail-safe envelope, and ENV_RESTORE_FAIL
(R376). -/
def loseEnv (s : State) (line : Nat) : State :=
  match s.sv.stored.find? (fun x => x.lines.contains line && !x.lost) with
  | none => s
  | some x =>
    let s := { s with sv := { s.sv with
      stored := s.sv.stored.map (fun y => if y = x then { x with lost := true } else y) } }
    if s.ct.phase = .larder && s.ct.ctlReset.isNone then s
    else emit (each x.marks s applyFailSafe) 0x0C11 noUnit (pay [(0, 2, maskOf 12 x.marks.contains), (2, 1, 2)])

/-- What the loss of a line's data does, by what it held (R385): in SYS the other copy serves, and a line of the record that
an interrupted commit left discards it. -/
def loseLine (s : State) (x : PantryLoss) : State :=
  let line := x.line.toNat
  match pantryRegion line with
  | 0 => if (recordLines s).contains line then { s with sv := { s.sv with journal := none } } else s
  | 1 => each x.entries s (fun s e => loseCal s e.val)
  | 2 => loseEnv s line
  | 3 => s
  | 4 => setFwSlot s false { fwSlot s false with st := .invalid }
  | 5 => setFwSlot s true { fwSlot s true with st := .invalid }
  | _ => match s.sv.sceneAt.find? (fun e => e.2.contains line) with
    | some e => setScene { s with sv := { s.sv with sceneAt := tput [] s.sv.sceneAt e.1 [] } } e.1 []
    | none => s

/-- A line is uncorrectable (R385, R387): counted, retired, reported, and its data lost. -/
def lineLost (s : State) (x : PantryLoss) : State :=
  let line := x.line.toNat
  let s := { s with sv := { s.sv with eccUncorrected := inc16 s.sv.eccUncorrected } }
  let s := retireLine s line false
  let s := emit s 0x0C0D (pantryRegion line) (pay [(0, 2, line), (4, 2, s.sv.eccUncorrected)])
  loseLine s x

end Sys2Proof.Machine
end

