-- ==== Sys2Proof/Machine/Streams.lean ====
section
/-! DEFINITION. Stream contexts and alignment groups (R311–R338). What a boundary does for them is called from
`Boundary`, and what a strobe does from `Strobe`. -/

namespace Sys2Proof.Machine

open Sys2Proof

/-! ### Contexts -/

def ctx (s : State) (k : Nat) : Ctx := tget Ctx.reset s.st.ctx k

def setCtx (s : State) (k : Nat) (x : Ctx) : State := { s with st := { s.st with ctx := tput Ctx.reset s.st.ctx k x } }

def grp (s : State) (g : Nat) : Group := tget Group.reset s.st.grp g

def setGrp (s : State) (g : Nat) (x : Group) : State := { s with st := { s.st with grp := tput Group.reset s.st.grp g x } }

/-- Settings of a context (R311, R337): record, channels, group, ring entries, first channel, PREFETCH. -/
def isRec (s : State) (k : Nat) : Bool := rb s .strCfg k 30
def nch (s : State) (k : Nat) : Nat := rf s .strCfg k 27 22 + 1
def groupOf (s : State) (k : Nat) : Nat := rf s .strCfg k 21 17
def ringLen (s : State) (k : Nat) : Nat := 2 ^ rf s .strCfg k 4 0
def firstCh (s : State) (k : Nat) : Nat := rf s .strMap k 11 0
def prefetch (s : State) (k : Nat) : Nat := rf s .strPrefetch k 12 0

/-- Contexts that differ from reset. -/
def ctxs (s : State) : List Nat := tkeys s.st.ctx

def enabled (s : State) (k : Nat) : Bool := (ctx s k).st != .disabled

/-- ARMED or RUNNING. -/
def live (s : State) (k : Nat) : Bool := (ctx s k).st == .armed || (ctx s k).st == .running

/-- A failure has been detected and waits for its boundary (R335). -/
def failing (s : State) (k : Nat) : Bool := (ctx s k).fail.isSome

/-- Reads and writes of host memory are possible (R333). -/
def busOn (s : State) : Bool := ringsOpen s

/-! ### Formats (R313) -/

/-- B of a format. -/
def sampleLen (fmt : Nat) : Nat := if fmt < 2 then 4 else if fmt = 2 then 3 else 2

/-- A playback word as a Q1.31 sample. -/
def playSample (fmt : Nat) (b : Bytes) : Int :=
  let w := leNat b
  match fmt with
  | 0 => sext 32 w
  | 1 => sext 24 (w / 256) * 256
  | 2 => sext 24 w * 256
  | _ => sext 16 w * 65536

/-- A record sample as bytes. -/
def recSample (fmt : Nat) (y : Int) : Bytes :=
  let cut (w : Nat) : Nat := toU w (clampI (-(2 ^ (w - 1))) (2 ^ (w - 1) - 1) ((y + 2 ^ (31 - w)) / 2 ^ (32 - w)))
  match fmt with
  | 0 => toLE 4 (toU 32 y)
  | 1 => toLE 4 (cut 24 * 256)
  | 2 => toLE 3 (cut 24)
  | _ => toLE 2 (cut 16)

def fmtOf (s : State) (k : Nat) : Nat := rf s .strCfg k 29 28

/-- Bytes of one frame. -/
def frameLenOf (s : State) (k : Nat) : Nat := nch s k * sampleLen (fmtOf s k)

/-- The samples of a landed frame. -/
def playFrame (s : State) (k : Nat) (b : Bytes) : List Int :=
  (chunks (sampleLen (fmtOf s k)) (nch s k) b).map (playSample (fmtOf s k))

/-! ### Loads and LTR (R314, R315, R324) -/

/-- Σ NCH × PREFETCH of the enabled contexts of a direction, but `k`. -/
def storeLoad (s : State) (dir : Bool) (k : Nat) : Nat :=
  ((ctxs s).filter (fun c => c != k && enabled s c && isRec s c == dir)).foldl (fun a c => a + nch s c * prefetch s c) 0

/-- P of R324; 0 without an enabled context. A halted context asks for nothing. -/
def leastPrefetch (s : State) : Nat :=
  (((ctxs s).filter (live s)).map (prefetch s)).foldl (fun a p => if a = 0 then p else Nat.min a p) 0

/-- Latency reported, in ns. -/
def ltrNs (s : State) (p : Nat) : Nat := (p - 2) * 1000000000 / frameHz s.fr.rate

/-- A new LTR message, when P has changed or (`always`) at FRAME_RATE_APPLIED. -/
def ltrUpdate (s : State) (always : Bool) : State :=
  let p := leastPrefetch s
  if p = s.st.ltr && !always then s
  else push { s with st := { s.st with ltr := p } } (.ltr (if p = 0 then 0 else ltrNs s p))

/-! ### Groups -/

/-- Members of a group that are ARMED or RUNNING. -/
def members (s : State) (g : Nat) : List Nat := (ctxs s).filter (fun k => live s k && groupOf s k == g)

def groupEvent (s : State) (g : Nat) (old new : GroupState) (cause start : Nat) : State :=
  emit s 0x0A17 g (pay [(0, 1, groupCode old), (1, 1, groupCode new), (2, 1, cause), (4, 6, start)])

/-- The start of a group. -/
def isStartOf (g : Nat) : Item → Bool
  | .groupStart h _ => h == g
  | _ => false

/-- The start of a group waits for its boundary; for the boundary in hand. -/
def startStaged (s : State) (g : Nat) : Bool := s.fr.staged.any (fun i => isStartOf g i.item)
def startDue (s : State) (g : Nat) : Bool := s.fr.staged.any (fun i => isStartOf g i.item && i.bound ≤ s.fr.fn)

/-- A member has left: a group without members returns to IDLE, unless its start is decided at this boundary (R334). -/
def groupLeave (s : State) (g : Nat) : State :=
  let x := grp s g
  if x.st = .idle || !(members s g).isEmpty || startDue s g then s
  else groupEvent (setGrp s g { x with st := .idle }) g x.st .idle 2 x.start

/-- The largest PREFETCH among the ARMED playback contexts of a group, or 1 (R329). -/
def groupLead (s : State) (g : Nat) : Nat :=
  let l := ((members s g).filter (fun k => (ctx s k).st == .armed && !isRec s k)).map (prefetch s)
  if l.isEmpty then 1 else l.foldl Nat.max 0

/-- GROUP_START (R329). -/
def execGroupStart (t : Frac) (c : Cmd) (s : State) : Res :=
  let g := pwN c 0
  let fn := pwN c 1
  runCmd s t 0x00A0 c [0x39] [(0, 0x1F), (1, 0xFFFFFFFFFFFF)] true (fun s n =>
    let m := bindTo s
    if !(members s g).any (fun k => (ctx s k).st == .armed) || (grp s g).st != .idle || (fn != 0 && fn < m + 1) then
      finish s n stStreamState noIndex
    else
      let start := if fn = 0 then m + 1 + groupLead s g else fn
      let s := setGrp s g { st := .starting, start := start }
      finish (stage s c.src (.groupStart g start)) n stOk m)

/-- A group start at its boundary: without a member left it comes to nothing (R334). -/
def applyGroupStart (s : State) (g : Nat) : State :=
  let x := grp s g
  if x.st != .starting || !(members s g).isEmpty then s
  else groupEvent (setGrp s g { x with st := .idle }) g .starting .idle 3 x.start

/-! ### Interrupts (R336) and retirement (R318) -/

/-- A retirement with IRQ: at most one message per vector per frame. -/
def ctxSignal (s : State) (v : Nat) : State :=
  if v < 2 then s
  else if tget 0 s.st.vecAt v = s.fr.fn + 1 then { s with st := { s.st with vecWait := tput false s.st.vecWait v true } }
  else signal { s with st := { s.st with vecAt := tput 0 s.st.vecAt v (s.fr.fn + 1) } } v

/-- Messages that waited for the next frame. -/
def ctxSignals (s : State) : State :=
  let l := tkeys s.st.vecWait
  each l { s with st := { s.st with vecWait := [] } } ctxSignal

/-- The first frame of a context that counts (R318): of an ARMED one the start frame of its group or the frame of its
join, and while neither is known a frame that is still to come. -/
def startOf (s : State) (k : Nat) : Nat :=
  let x := ctx s k
  let g := grp s (groupOf s k)
  if x.st != .armed || x.join.isSome then x.start
  else if g.st == .starting then g.start
  else s.fr.fn + 1

/-- MISSED_FRAMES of a descriptor: the late or lost ones, and those the descriptor before it carries, not before `start`. -/
def missedOf (start : Nat) (d : Desc) : Nat := d.missed + (d.overlap.2 - Nat.max d.overlap.1 start)

/-- STATUS of a descriptor that retires in service (R317). -/
def descStatus (start : Nat) (d : Desc) : Nat :=
  if d.first + d.n ≤ start then 4 else if d.expired then 2 else if missedOf start d = 0 then 0 else 1

/-- Write descriptor `idx` back: bytes 20–30, then byte 31 with DONE and the PHASE it carries (R318). -/
def writeBack (s : State) (k idx done missed status : Nat) (phase : Bool) : State :=
  let at_ := (reg s .strRingHi k).toNat * 2 ^ 32 + (reg s .strRingLo k).toNat + 32 * idx
  if busOn s then
    dmaWrite (dmaWrite s (at_ + 20) (toLE 4 done ++ toLE 4 missed ++ toLE 2 status ++ toLE 1 0))
      (at_ + 31) (toLE 1 (64 + 128 * b2n phase))
  else s

/-- Retire the head descriptor. -/
def retireHead (s : State) (k status : Nat) : State :=
  let x := ctx s k
  match x.descs with
  | [] => s
  | d :: r =>
    let missed := missedOf (startOf s k) d
    let s := setCtx s k { x with descs := r, cons := (x.cons + 1) % ringLen s k }
    let s := writeBack s k x.cons d.done missed status d.phase
    if d.irq then ctxSignal s (rf s .strCfg k 15 10) else s

/-- A descriptor carries a frame that the one before it does not. -/
def carries (d : Desc) (f : Nat) : Bool :=
  d.first ≤ f && f < d.first + d.n && !(d.overlap.1 ≤ f && f < d.overlap.2)

/-- The first fetched descriptor that carries a frame, with its place. -/
def carrier (x : Ctx) (f : Nat) : Option (Desc × Nat) := (x.descs.zip (List.range x.descs.length)).find? (fun d => carries d.1 f)

/-- Rewrite the descriptor at a place. -/
def modDesc (x : Ctx) (i : Nat) (f : Desc → Desc) : Ctx :=
  { x with descs := (x.descs.zip (List.range x.descs.length)).map (fun d => if d.2 = i then f d.1 else d.1) }

/-- The head descriptor has nothing left to do: its last frame has been captured or passed and every late frame
has landed; a record frame has been written or lost. -/
def headDone (s : State) (k : Nat) : Bool :=
  let x := ctx s k
  match x.descs with
  | [] => false
  | d :: _ =>
    let last := d.first + d.n - 1
    if isRec s k then last + 1 ≤ s.fr.fn && !x.store.any (fun e => carries d e.1)
    else last ≤ s.fr.fn && !x.lateDue.any (carries d)

/-- DESCRIPTOR_RETIRE (R318). [log: DEDUCED 80] -/
def execDescriptorRetire (t : Frac) (k : Fin 256) (s : State) : Res :=
  let s := atT s t
  let k := k.val
  let x := ctx s k
  .next (
    if !live s k || failing s k || !busOn s || !headDone s k then s
    else match x.descs with
      | [] => s
      | d :: _ => retireHead s k (descStatus (startOf s k) d))

/-! ### Failures (R335) -/

def causeCode : StreamCause → Nat
  | .check => 1
  | .errorCompletion => 2
  | .poisoned => 3
  | .timeout => 4

/-- Step 1 of R335: the halt waits for the next boundary. -/
def ctxFail (s : State) (k : Nat) (cause : StreamCause) (idx : Nat) : State :=
  let c := causeCode cause
  setCtx s k { ctx s k with lastErr := 0x80 + c, errIdx := idx, fail := some c }

/-- STREAM_ERROR: detected while a fetch or a read is outstanding. -/
def execStreamError (t : Frac) (k : Fin 256) (cause : StreamCause) (s : State) : Res :=
  let s := atT s t
  let x := ctx s k.val
  .next (
    if !live s k.val || failing s k.val then s
    else ctxFail s k.val cause (if x.fetch = x.prod then x.cons else x.fetch))

/-- The failure that a read result shows. -/
def resultCause : ReadResult → Option StreamCause
  | .ok _ => none
  | .errorCompletion => some .errorCompletion
  | .poisoned => some .poisoned
  | .timeout => some .timeout

/-- Step 2 of R335, at the next boundary whatever that boundary does with its items. -/
def applyHalt (s : State) (k : Nat) : State :=
  let x := ctx s k
  match x.fail with
  | none => s
  | some cause =>
    let s := setCtx s k { x with fail := none }
    if !live s k then s
    else
      let s := setCtx s k { ctx s k with st := .halted, shown := [], join := none, start := startOf s k }
      let s := emit s 0x0A15 k (pay [(0, 1, cause), (2, 2, x.errIdx), (4, 6, x.pos)])
      ltrUpdate (groupLeave s (groupOf s k)) false

def applyHalts (s : State) : State := each (ctxs s) s applyHalt

/-! ### Record data (R325) -/

/-- The value that a sink presents at the strobe after the frame in progress. -/
def sinkValue (s : State) (k : Nat) : Int :=
  if isShed s k then 0 else if isHeld s k then tget 0 s.mx.present k else (tget none s.mx.res k).getD 0

/-- A record frame of samples. -/
def recFrame (s : State) (k : Nat) (value : Nat → Int) : List Int :=
  (List.range (nch s k)).map (fun c => value (firstCh s k + c))

/-- A frame of samples as bytes. -/
def recBytesOf (s : State) (k : Nat) (y : List Int) : Bytes := y.flatMap (recSample (fmtOf s k))

/-- Write one held record frame that a descriptor carries. -/
def writeRec (k : Nat) (s : State) (e : Nat × List Int) : State :=
  let x := ctx s k
  match carrier x e.1 with
  | none => s
  | some d =>
    let s := dmaWrite s (d.1.addr + (e.1 - d.1.first) * frameLenOf s k) (recBytesOf s k e.2)
    let run := x.run
    let x := modDesc x d.2 (fun d => { d with done := d.done + 1 })
    let s := setCtx s k { x with store := x.store.filter (fun y => y.1 != e.1), kept := x.kept ++ [e], run := 0, pos := e.1 }
    if run = 0 then s else emitAt s 0x0A13 k e.1 s.now (pay [(0, 4, run), (4, 1, 2)])

/-- Write again one record frame that a descriptor carries. -/
def rewriteRec (k : Nat) (s : State) (e : Nat × List Int) : State :=
  match carrier (ctx s k) e.1 with
  | none => s
  | some d => dmaWrite s (d.1.addr + (e.1 - d.1.first) * frameLenOf s k) (recBytesOf s k e.2)

/-- A takeover (R451): record frames above a frontier, in FN, that are still held are written again where a descriptor still
carries them. [log: DEDUCED 82] -/
def rewriteAbove (s : State) (fn : Nat) (k : Nat) : State :=
  let x := ctx s k
  if !(busOn s && x.st == .running && isRec s k) then s
  else each (x.kept.filter (fun e => fn < e.1)) s (rewriteRec k)

/-- Write what can be written. -/
def writeHeld (s : State) (k : Nat) : State :=
  if busOn s && (ctx s k).st == .running && !failing s k then each (ctx s k).store s (writeRec k) else s

/-- A record frame is lost (R325): STREAM_LOST, with its cause, for the first of a run. -/
def loseFrame (s : State) (k f cause : Nat) : State :=
  let x := ctx s k
  let x := match carrier x f with
    | some d => modDesc x d.2 (fun d => { d with missed := d.missed + 1 })
    | none => x
  let n := inc32 x.under
  let s' := setCtx s k { x with under := n, run := x.run + 1 }
  if x.run = 0 then emitAt s' 0x0A14 k f s'.now (pay [(0, 1, cause), (4, 4, n)]) else s'

/-- RECORD_DEADLINE: the oldest held frame is lost. -/
def execRecordDeadline (t : Frac) (k : Fin 256) (s : State) : Res :=
  let s := atT s t
  let k := k.val
  let x := ctx s k
  .next (match x.store with
    | [] => s
    | e :: r =>
      if x.st != .running || !isRec s k || s.fr.fn < e.1 + 1 + prefetch s k || ((carrier x e.1).isSome && busOn s) then s
      else loseFrame (setCtx s k { x with store := r }) k e.1 (if busOn s then 1 else 2))

/-! ### Descriptors (R317–R320) -/

/-- Doorbell of a context (R289, R319). -/
def streamDoorbell (s : State) (k : Nat) (full : Bool) (v : Word) : State :=
  let n := fld v 15 0
  if !full then s
  else if !enabled s k || ringLen s k ≤ n then dbBad s
  else setCtx s k { ctx s k with prod := n }

/-- Stream doorbell as a command. -/
def execStreamDoorbell (t : Frac) (k : Fin 256) (full : Bool) (v : Word) (s : State) : Res :=
  .next (streamDoorbell (atT s t) k.val full v)

/-- A descriptor as fetched passes the check of R319. -/
def descOk (x : Ctx) (b : Bytes) : Bool :=
  leAt b 31 1 / 128 == b2n x.phase && leAt b 31 1 % 128 == 0 && leAt b 14 2 < 2 && leAt b 30 1 == 0
    && within 1 1048576 (leAt b 16 4) && leAt b 0 8 % 4 == 0

/-- The frames of a descriptor that count. -/
def descFrames (x : Ctx) (d : Desc) : List Nat := ((List.range d.n).map (· + d.first)).filter (fun f => x.start ≤ f)

/-- Late frames: counted, with STREAM_LATE for the first in any second (R323). -/
def countLate (s : State) (k n first : Nat) : State :=
  if n = 0 then s
  else
    let x := ctx s k
    let m := satTo 0xFFFFFFFF (x.late + n)
    let s := setCtx s k { x with late := m }
    if x.lateAt = 0 ∨ x.lateAt - 1 + tSec ≤ nowTicks s then
      emit (setCtx s k { ctx s k with lateAt := nowTicks s + 1 }) 0x0A18 k (pay [(0, 6, first), (8, 4, m)])
    else s

/-- A frame is past for a context (R320, R325): captured already, or before the strobe at which it joins its group; of a
record context, that it does not hold. -/
def framePast (s : State) (k f : Nat) : Bool :=
  let x := ctx s k
  if x.st = .halted || (x.st = .armed && x.join.isNone) then false
  else if isRec s k then
    (f + 1 ≤ s.fr.fn || x.join.any (fun j => f < j)) && !x.store.any (fun e => e.1 == f)
  else f ≤ s.fr.fn

/-- The frames of a new descriptor that are past already: late on playback; lost on record, with zeros written
under POLICY ZERO (R320, R323, R325). Those that the previous descriptor carries stand there. -/
def takeDesc (s : State) (k : Nat) (d : Desc) : State :=
  let x := ctx s k
  let fs := descFrames x d
  let past := (fs.filter (carries d)).filter (framePast s k)
  let d := { d with missed := past.length, expired := !fs.isEmpty && fs.all (framePast s k) }
  let s := setCtx s k { x with descs := x.descs ++ [d], prev := (d.first, d.first + d.n) }
  if isRec s k then
    let s := if rb s .strCfg k 16 then
        each past s (fun s f =>
          dmaWrite s (d.addr + (f - d.first) * frameLenOf s k) (List.replicate (frameLenOf s k) 0))
      else s
    writeHeld s k
  else countLate s k past.length (past.headD 0)

/-- A context in a running group joins at the first frame of its first descriptor, or at the next strobe (R330). -/
def joinGroup (s : State) (k first : Nat) : State :=
  let x := ctx s k
  if x.st = .armed && x.join.isNone && (grp s (groupOf s k)).st == .running then
    setCtx s k { x with join := some (Nat.max first (s.fr.fn + 1)), start := first }
  else s

/-- The next announced descriptor of a context is read (R319). -/
def fetchDesc (s : State) (k : Nat) (d : ReadResult) : State :=
  let x := ctx s k
  if !live s k || failing s k || !busOn s || x.fetch = x.prod then s
  else
    let s := leaveL1 s
    match d with
    | .ok b =>
      if !descOk x b then ctxFail (setCtx s k { x with errPhase := some (leAt b 31 1 / 128 == 1) }) k .check x.fetch
      else
        let n := (x.fetch + 1) % ringLen s k
        let first := leAt b 8 6
        let len := leAt b 16 4
        let d : Desc :=
          { first := first, n := len, addr := leAt b 0 8, irq := leAt b 14 2 = 1, phase := x.phase, expired := false,
            overlap := (Nat.max first x.prev.1, Nat.min (first + len) x.prev.2), done := 0, missed := 0 }
        let s := setCtx s k { x with fetch := n, phase := if n = 0 then !x.phase else x.phase }
        takeDesc (joinGroup s k first) k d
    | r => match resultCause r with
      | some c => ctxFail s k c x.fetch
      | none => s

/-- DESCRIPTOR_FETCH. [log: DEDUCED 80] -/
def execDescriptorFetch (t : Frac) (k : Fin 256) (d : ReadResult) (s : State) : Res :=
  .next (fetchDesc (atT s t) k.val d)

/-- PLAYBACK_READ_LANDED (R321): before the frame's strobe it is on time, after it late. -/
def execPlaybackReadLanded (t : Frac) (k : Fin 256) (fn : BitVec 48) (d : ReadResult) (s : State) : Res :=
  let s := atT s t
  let k := k.val
  let f := fn.toNat
  let x := ctx s k
  .next (
    if !live s k || failing s k || isRec s k || s.fr.fn + prefetch s k < f then s
    else match carrier x f with
      | none => s
      | some c =>
        let s := leaveL1 s
        let late := x.lateDue.contains f
        if !late && (f ≤ s.fr.fn || x.store.any (fun e => e.1 == f)) then s
        else match d with
          | .ok b =>
            if late then
              let x := modDesc x c.2 (fun d => { d with missed := d.missed + 1 })
              countLate (setCtx s k { x with lateDue := x.lateDue.filter (· != f) }) k 1 f
            else setCtx s k { x with store := x.store ++ [(f, playFrame s k b)] }
          | r => match resultCause r with
            | some e => ctxFail s k e ((x.cons + c.2) % ringLen s k)
            | none => s)

/-! ### A strobe (R321–R325, R330) -/

/-- Samples of one frame held on a channel: 0 after 64 replaced frames (R322). -/
def replacement (s : State) (k : Nat) (x : Ctx) : List Int :=
  if rb s .strCfg k 16 && x.run < 64 then x.shown else []

/-- A frame whose strobe finds the bus off is never read: it is late (R323, R333). [log: DEDUCED 80] -/
def neverRead (s : State) (k n : Nat) : State :=
  let x := ctx s k
  match carrier x n with
  | none => s
  | some d => countLate (setCtx s k (modDesc x d.2 (fun d => { d with missed := d.missed + 1 }))) k 1 n

/-- A RUNNING playback context at a strobe; the store may have lost the frame (R335). -/
def playStrobe (s : State) (k : Nat) (lost : Bool) : State :=
  let x := ctx s k
  let n := s.fr.fn
  let landed := x.store.find? (fun e => e.1 == n)
  match if lost then none else landed with
  | some e =>
    let run := x.run
    let x := match carrier x n with
      | some d => modDesc x d.2 (fun d => { d with done := d.done + 1 })
      | none => x
    let s := setCtx s k { x with shown := e.2, run := 0, pos := n, store := x.store.filter (fun e => n < e.1) }
    if run = 0 then s else emit s 0x0A13 k (pay [(0, 4, run), (4, 1, 1)])
  | none =>
    let u := inc32 x.under
    let s := setCtx s k { x with shown := replacement s k x, run := x.run + 1, under := u,
                                 lateDue := if landed.isNone && busOn s && (carrier x n).isSome then x.lateDue ++ [n]
                                            else x.lateDue,
                                 store := x.store.filter (fun e => n < e.1) }
    let s := if x.run = 0 then emit s 0x0A12 k (pay [(0, 1, rf s .strCfg k 16 16), (4, 4, u)]) else s
    if landed.isNone && !busOn s then neverRead s k n else s

/-- The stream store has lost a record frame that it held (R335). What byte 0 of STREAM_LOST holds then is stated nowhere.
[log: DEDUCED 80] -/
def storeLoses (k : Nat) (s : State) (f : Nat) : State :=
  let x := ctx s k
  if !x.store.any (fun e => e.1 == f) then s
  else
    let d := draw (setCtx s k { x with store := x.store.filter (fun e => e.1 != f) })
    loseFrame d.2 k f (d.1.toNat % 256)

/-- A RUNNING record context at a strobe: the frame before it is available, and the store may have lost frames that it
holds (R335). -/
def recStrobe (s : State) (k : Nat) (lost : List Nat) : State :=
  let x := ctx s k
  let x := { x with kept := x.kept.filter (fun e => s.fr.fn < e.1 + 1 + prefetch s k) }
  let s := setCtx s k x
  let f := s.fr.fn - 1
  let s := if s.fr.fn < x.enter + 1 then s
    else setCtx s k { x with store := x.store ++ [(f, recFrame s k (fun i => tget 0 s.mx.present i))] }
  writeHeld (each lost s (storeLoses k)) k

/-- A context enters RUNNING: 1 with its group, 2 joining it. -/
def ctxRun (s : State) (k start how : Nat) : State :=
  let s := setCtx s k { ctx s k with st := .running, start := start, enter := s.fr.fn, join := none, run := 0 }
  emit s 0x0A10 k (pay [(0, 1, groupOf s k), (1, 1, how)])

/-- One context at a strobe; one that has failed runs on until its boundary (R335). -/
def ctxStrobe (lost : List LostFrame) (s : State) (k : Nat) : State :=
  let x := ctx s k
  let s := if x.st = .armed ∧ x.join.any (· ≤ s.fr.fn) then ctxRun s k x.start 2 else s
  let bad := (lost.filter (fun e => e.ctx.val == k)).map (·.fn.toNat)
  if (ctx s k).st != .running then s
  else if isRec s k then recStrobe s k bad
  else playStrobe s k (bad.contains s.fr.fn)

/-- Every context at a strobe. -/
def streamsStrobe (s : State) (lost : List LostFrame) : State := each (ctxs s) (ctxSignals s) (ctxStrobe lost)

/-- What the playback channels present (R312, R326). -/
def playSources (s : State) : Tbl Int :=
  ((ctxs s).filter (fun k => (ctx s k).st == .running && !isRec s k)).foldl (fun t k =>
    ((ctx s k).shown.zip (List.range (nch s k))).foldl (fun t y => tput 0 t (firstCh s k + y.2) y.1) t) []

/-- The classes of PL_CFG.MIRROR that a source belongs to. -/
def mirrorBit (n : Nat) : Option Nat :=
  if n < 256 then some 15
  else if 0x1800 ≤ n ∧ n < 0x1810 then some 12
  else if 0x1810 ≤ n ∧ n < 0x1830 then some 13
  else if 0x1830 ≤ n ∧ n < 0x1930 then some 14
  else none

/-- The source's class is mirrored. -/
def mirrored (s : State) (n : Nat) : Bool := ((mirrorBit n).map (fun b => rb s .plCfg 0 b)).getD false

/-- A playback sample of the frame in progress: its source, or, of a mirrored class, what the next strobe captures (R445). -/
def startSample (s : State) (e : Nat × Int) : State :=
  let s := if e.1 < 256 then { s with pl := { s.pl with ownInp := tput 0 s.pl.ownInp e.1 e.2 } } else s
  if mirrored s e.1 then s else { s with mx := { s.mx with src := tput 0 s.mx.src e.1 e.2 } }

/-- GROUP_START_FRAME: the strobe of the start frame, or the first one after the start took effect (R330). -/
def execGroupStartFrame (t : Frac) (g : Fin 32) (lost : List (Fin 256)) (s : State) : Res :=
  let s := atT s t
  let g := g.val
  let x := grp s g
  .next (
    if x.st != .starting || startStaged s g || s.fr.fn < x.start || !s.fr.running then s
    else
      let ks := (members s g).filter (fun k => (ctx s k).st == .armed)
      let s := each ks s (fun s k => ctxRun s k s.fr.fn 1)
      let s := groupEvent (setGrp s g { x with st := .running }) g .starting .running 1 x.start
      let s := each (ks.filter (fun k => !isRec s k)) s (fun s k => playStrobe s k (lost.any (·.val == k)))
      each (playSources s) s startSample)

/-! ### Stops (R331, R332) -/

/-- CTX_STOP. -/
def execCtxStop (t : Frac) (c : Cmd) (s : State) : Res :=
  runCmd s t 0x00A1 c [0x39] [(0, 0xFF)] true (fun s n =>
    if !enabled s (pwN c 0) then finish s n stStreamState noIndex
    else
      let b := bindTo s
      finish (stage s c.src (.ctxStop (pwN c 0))) n stOk b)

/-- Retire what is outstanding: STOPPED where frames after boundary `m` are left; the count of those. -/
def retireAll : Nat → State → Nat → Nat → Nat → State × Nat
  | 0, s, _, _, n => (s, n)
  | i + 1, s, k, m, n =>
    let x := ctx s k
    match x.descs with
    | [] => (s, n)
    | d :: _ =>
      let stopped : Bool := x.st == .halted || m < d.first + d.n - 1
      retireAll i (retireHead s k (if stopped then 3 else descStatus (startOf s k) d)) k m (n + b2n stopped)

/-- Retire the announced descriptors that could not be read, in ring order: their frames are unknown to the module, so that
they are STOPPED with counts of 0 and no message; the count of those. [log: DEDUCED 80] -/
def retireUnread : Nat → State → Nat → Nat → State × Nat
  | 0, s, _, n => (s, n)
  | i + 1, s, k, n =>
    let x := ctx s k
    if x.fetch = x.prod then (s, n)
    else
      let at_ := (x.fetch + 1) % ringLen s k
      let phase := x.errPhase.getD x.phase
      let s := writeBack s k x.fetch 0 0 3 phase
      retireUnread i
        (setCtx s k { x with fetch := at_, cons := at_, errPhase := none, phase := if at_ = 0 then !x.phase else x.phase })
        k (n + 1)

/-- CTX_STOP waits for the boundary in hand. -/
def stopDue (s : State) (k : Nat) : Bool := s.fr.staged.any (fun i => i.item == .ctxStop k && i.bound ≤ s.fr.fn)

/-- The announced descriptors of a context that stops are read before it retires them (R331). -/
def readStopped (s : State) (l : List (Fin 256 × ReadResult)) : State :=
  each l s (fun s e => if stopDue s e.1.val then fetchDesc s e.1.val e.2 else s)

/-- CTX_STOP at its boundary: a record context still writes frame m. -/
def applyStop (s : State) (k : Nat) : State :=
  if !enabled s k then s
  else
    let m := s.fr.fn
    let x := ctx s k
    let s := if x.st = .running && isRec s k && !failing s k && x.enter ≤ m then
        writeHeld (setCtx s k { x with store := x.store ++ [(m, recFrame s k (sinkValue s))] }) k
      else s
    let g := groupOf s k
    let was := live s k
    let r := retireAll (ctx s k).descs.length s k m 0
    let r := retireUnread (ringLen s k) r.1 k r.2
    let y := ctx r.1 k
    let s := setCtx (setBit r.1 .strCfg k 31 false) k
      { Ctx.reset with prod := y.prod, cons := y.cons, lastErr := y.lastErr, pos := y.pos, posHi := y.posHi,
                       under := y.under, late := y.late, lateAt := y.lateAt }
    let s := emit s 0x0A11 k (pay [(0, 6, m), (8, 4, r.2)])
    let s := if was then groupLeave s g else s
    ltrUpdate s false

/-- A HOST reset: every context DISABLED, every group IDLE (R332). [log: DEDUCED 80] -/
def streamsReset (s : State) : State :=
  let s := each (ctxs s) s (fun s k =>
    let y := ctx s k
    setCtx (setBit s .strCfg k 31 false) k
      { Ctx.reset with lastErr := y.lastErr, pos := y.pos, posHi := y.posHi, under := y.under, late := y.late,
                       lateAt := y.lateAt })
  let s := each (tkeys s.st.grp) s (fun s g =>
    let x := grp s g
    if x.st = .idle then s else groupEvent (setGrp s g { x with st := .idle }) g x.st .idle 2 x.start)
  let s := unstage s (fun i => match i with
    | .ctxStop _ | .groupStart .. => true
    | _ => false)
  { s with st := { s.st with vecAt := [], vecWait := [], ltr := 0 } }

/-! ### Enabling and the page registers (R327, R337) -/

/-- Channels of two contexts meet. -/
def channelsMeet (s : State) (k c : Nat) : Bool :=
  firstCh s k < firstCh s c + nch s c && firstCh s c < firstCh s k + nch s k

/-- The first check of R327 that fails, with the context's settings in force. -/
def enableFault (s : State) (k : Nat) : Option Nat :=
  let dir := isRec s k
  if (if dir then 1536 else 4096) < firstCh s k + nch s k then some 2
  else if (ctxs s).any (fun c => c != k && enabled s c && isRec s c == dir && channelsMeet s k c) then some 3
  else if strLimit dir < (strChannels s dir + nch s k) * frameHz s.fr.rate then some 4
  else if (if dir then 131072 else 262144) < storeLoad s dir k + nch s k * prefetch s k then some 5
  else if rf s .strRingLo k 11 0 != 0 || !within 4 16 (rf s .strCfg k 4 0) then some 6
  else if !within 4 4096 (prefetch s k) then some 7
  else none

/-- STREAM_CONFIG_REFUSED. -/
def strRefuse (s : State) (k reason off : Nat) : State :=
  emit (setCtx s k { ctx s k with lastErr := reason }) 0x0A16 k (pay [(0, 1, reason), (2, 2, off)])

/-- A setup write of a page register by the owner of STREAM (R327). -/
def strWrite (s : State) (k : Nat) (n : RegName) (v : Word) : State :=
  let off := (regPlace n).1 % 0x1000
  let w := mergeReg n k (reg s n k) v
  if (ctx s k).st != .disabled then strRefuse s k 1 off
  else if !regAccept n k (reg s n k) w then s
  else if n = .strCfg && bit w 31 then
    let s := setReg s n k (w &&& 0x7FFFFFFF)
    match enableFault s k with
    | some r => strRefuse s k r off
    | none =>
      let y := ctx s k
      let s := setCtx (setReg s n k w) k
        { Ctx.reset with st := .armed, lastErr := y.lastErr, pos := y.pos, posHi := y.posHi, under := y.under,
                         late := y.late, lateAt := y.lateAt }
      ltrUpdate s false
  else setReg s n k w

/-- STREAM_ENABLE. [log: DEDUCED 80] -/
def execStreamEnable (t : Frac) (src : Owner) (k : Fin 256) (v : Word) (s : State) : Res :=
  .next (directWrite (atT s t) src (regOff .strCfg k.val) 0x39 (fun s =>
    strWrite s k.val .strCfg (v ||| 0x80000000)) (valueTakes s .strCfg k.val v))

/-- STR_POS_READ (R337). -/
def execStrPosRead (t : Frac) (k : Fin 256) (s : State) : Res :=
  let s := atT s t
  let x := ctx s k.val
  .next (reading (setCtx s k.val { x with posHi := x.pos / 2 ^ 32 }) (BitVec.ofNat 32 x.pos))

end Sys2Proof.Machine
end

