-- ==== Sys2Proof/Machine/Strobe.lean ====
section
/-! DEFINITION. The strobe: what every block presents and captures, the first strobe of a grid, and what a
domain that comes up or goes down does to its block (R20, R21, R39, R252, R393, R395, R404, R430, R445). -/

namespace Sys2Proof.Machine

open Sys2Proof

/-! ### Presenting the frame that ends (R20, R39) -/

/-- Frame FN runs and has not drained: the strobe wins against its drain (R39). -/
def overdue (s : State) : Bool := s.fr.running && !s.fr.drained

/-- Sinks that repeat the sample they presented. -/
def repeats (s : State) : List Nat := if overdue s then incompleteSinks s else s.mx.held

/-- The samples presented at the strobe that ends the frame: results, repeated samples, 0 for a shed sink. -/
def presentNext (s : State) : Tbl Int :=
  let done := s.mx.res.filterMap (fun e => e.2.map (fun y => (e.1, y)))
  let again := (repeats s).map (fun k => (k, tget 0 s.mx.present k))
  tmk 0 ((done ++ again).filter (fun e => !isShed s e.1))

/-- The head commit, when boundary `n` would apply it: it is bound, and its AT_FN does not hold it back (R33, R65). -/
def headBound (s : State) (n : Nat) : Option Commit :=
  match s.mx.queue with
  | [] => none
  | c :: _ => if c.bound ≤ n && (!c.atFn || c.target ≤ n + 1) then some c else none

/-- Items bound to the boundary of frame `n`: staged items, the commit it would apply and the lane retirements
(R31, R33, R34). [log: DEDUCED 93] -/
def boundItems (s : State) (n : Nat) : Nat :=
  (s.fr.staged.filter (fun i => i.bound ≤ n)).length + (headBound s n).toList.length + s.mx.retire.length

/-- What an overrun leaves for abort end (R39, R40). [log: DEDUCED 44] -/
def overrunOf (s : State) : Option Overrun :=
  if overdue s then
    some { sinks := (incompleteSinks s).length, engines := incompleteEngines s, moved := boundItems s s.fr.fn != 0 }
  else none

/-- Errors of the frame that ends, with the outcome of R71, step 4. -/
def settleErrs (s : State) : List LaneErr :=
  if overdue s then s.mx.laneErrs.map (fun e => { e with repeated := e.repeated || e.by_.isNone || !recomputed s e })
  else s.mx.laneErrs

/-- FN and the time move on, and the results of the frame are presented. -/
def beginFrame (s : State) : State :=
  let late := overdue s
  let s := if late then silenceFrame s else s
  let f := s.fr
  let lost := overrunOf s
  let shown := presentNext s
  let errs := settleErrs s
  { s with
    fr := { f with ticks := f.ticks + framePeriod f.rate, fn := f.next, next := (f.next + 1) % 2 ^ 48, running := true,
                   drained := false, marked := false, overrun := lost,
                   slackMin := if f.clearPend then 0xFFFF else f.slackMin,
                   slackMax := if f.clearPend then 0 else f.slackMax, clearPend := false },
    mx := { s.mx with present := shown, res := [], held := [], laneErrs := errs,
                      glide := tmapv Glide.unity (fun _ g => glideStep g) s.mx.glide } }

/-! ### Capture (R21, R445) -/

/-- The module computes and compares as one of a pair. -/
def pairRuns (s : State) : Bool := s.pl.st == .sync || s.pl.st == .paired

/-- The sources of the frame once the mirrored classes are replaced by samples of the strobe before (R445). -/
def mirrorInputs (s : State) (raw : Tbl Int) : State :=
  let own := raw.filter (fun e => (mirrorBit e.1).isSome)
  let follow := s.pl.role == 2 && pairRuns s && rf s .plCfg 0 15 12 != 0
  let prev := if follow then s.pl.inp.getD s.pl.ownInp else s.pl.ownInp
  let miss := follow && s.pl.inp.isNone
  let src := raw.filter (fun e => !mirrored s e.1) ++ prev.filter (fun e => mirrored s e.1)
  { s with mx := { s.mx with src := tmk 0 src },
           pl := { s.pl with ownInp := own, inp := none, mirrorMiss := miss,
                             mirrorMisses := if miss then inc16 s.pl.mirrorMisses else s.pl.mirrorMisses } }

/-- A voltage over VFS in Q1.31, to the nearest and saturated (R111). [log: DESIGN CHOICE 105] -/
def senseSample (s : State) (c : Nat) (v : Word) : Int :=
  let full : Int := (rf s .psChCfg c 29 20 : Nat) * 2 ^ 149
  sat32 (Series.nearest (F32.units v * 10 * 2 ^ 31) full)

/-- Output sense of the channels whose die is powered (R111, R395). -/
def captureSense (s : State) (volts : Tbl Word) : Tbl Int :=
  (volts.filter (fun e => e.1 < 12 && domOn s (dieDom (dieOf e.1)))).map
    (fun e => (psSense e.1, senseSample s e.1 e.2))

/-- One sample per source (R21). -/
def capture (s : State) (x : StrobeIn) : State :=
  let a := captureInputs s x
  let g := genStrobe a.2
  let s := g.2
  let bus := (s.mx.present.filter (fun e => 0x800 ≤ e.1)).map (fun e => (0x800 + e.1, e.2))
  mirrorInputs s (tmk 0 (playSources s ++ bus ++ a.1 ++ capturePorts s ++ engineSources s
    ++ captureSense s x.volts ++ g.1))

/-- A strobe after its frame has begun: playback frames are taken (R321, R322), every source is captured (R21), and
each block does its part of the frame presented. -/
def strobeBody (s : State) (x : StrobeIn) : State :=
  let s := engineStrobe (capture (streamsStrobe s x.storeLost) x)
  let s := protectStrobe (powerStrobe s x) x
  let s := portsStrobe (outputsStrobe s x.railOk) x.slips
  senseStrobe (clockStrobe s x.dco x.phaseErr x.offsets)

/-- FRAME_STROBE (R20, R39). -/
def execFrameStrobe (x : StrobeIn) (s : State) : Res :=
  let s := atT s 0
  .next (
    if !s.fr.running || s.ck.gap.isSome || s.fr.overrun.isSome then s else strobeBody (beginFrame s) x)

/-! ### First strobes (R252, R393, R404, R428) -/

/-- FRAME_RATE_APPLIED and the rules tied to it, before the capture of its strobe. -/
def rateApplied (s : State) (old new : Nat) : State :=
  let s := emit s 0x0105 noUnit (pay [(0, 1, old), (1, 1, new)])
  let s := ratePorts (rateOutputs (rateInputs (rateEngines s) old))
  ltrUpdate { s with sc := { s.sc with rates := s.fr.fn :: s.sc.rates } } true

/-- The first strobe of CLK that comes up in service: equal old and new RATE codes. -/
def firstStrobe (s : State) (x : StrobeIn) : State :=
  strobeBody (rateApplied (beginFrame { s with now := 0 }) s.fr.rate s.fr.rate) x

/-- FRAME_RATE_APPLIED (R252, step 5; R253; R255). -/
def execFrameRateApplied (us : Word) (x : StrobeIn) (s : State) : Res :=
  let s := atT s 0
  .next (
    match s.ck.gap with
    | none => s
    | some g =>
      if s.fr.running || !s.ck.xtalOk || !(pll s (strobePll s.fr.rate)).lock then s
      else
        let s := beginFrame { s with ck := { s.ck with gap := none } }
        let s := strobeBody (rateApplied s g.old g.new) x
        if g.command then endLong s us stOk 0 else s)

/-- CLK at bring-up: the first strobe, with FN 0 (R428). -/
def clkUp (s : State) (x : StrobeIn) : State :=
  let s := clkReady s
  strobeBody (beginFrame { s with now := 0, fr := { s.fr with next := 0 } }) x

/-! ### The packet to the peer (R437, R443, R444) -/

/-- One bit, one byte and a list of bytes through the reflected CRC-32 of IEEE 802.3. -/
def crc32Bit (c : Word) : Word := if c.getLsbD 0 then (c >>> 1) ^^^ 0xEDB88320 else c >>> 1
def crc32Byte (c : Word) (b : Byte) : Word :=
  crc32Bit (crc32Bit (crc32Bit (crc32Bit (crc32Bit (crc32Bit (crc32Bit (crc32Bit (c ^^^ b.setWidth 32))))))))
def crc32 (l : Bytes) : Word := ~~~(l.foldl crc32Byte 0xFFFFFFFF)

/-- The digest of a frame whose sinks present the samples given (R444). -/
def digestOf (s : State) (shown : Tbl Int) : Word :=
  let lo := rf s .plDigest 0 11 0
  let hi := rf s .plDigest 0 27 16
  crc32 ((List.range (hi + 1 - lo)).flatMap (fun i => toLE 4 (toU 32 (tget 0 shown (lo + i)))))

/-- LIVE of this module (R443). -/
def liveMask (s : State) : Nat := maskOf 12 (liveCh s)

/-- REC_FRONTIER (R443): below the oldest frame that an enabled record context still has to write; the data of the frame in
progress are there at the next strobe only (R325). -/
def recFrontier (s : State) : Nat :=
  let l := ((ctxs s).filter (fun k => isRec s k && enabled s k)).map (fun k =>
    ((ctx s k).store.map Prod.fst).foldl (fun a f => Nat.min a (f - 1)) (s.fr.fn - 1))
  ((l.foldl Nat.min (s.fr.fn - 1) : Nat) + s.pl.ofs).toNat

/-- The heartbeat of the frame just drained (R443); the newest two entries of `own` are that frame's and the one before. -/
def heartbeatOf (s : State) (flags : Nat) : Heartbeat :=
  let now := s.pl.own.headD (0, 0, 0)
  let prev := s.pl.own.tail.headD (0, 0, 0)
  { pfn := BitVec.ofNat 48 now.1, flags := BitVec.ofNat 8 flags, state := BitVec.ofNat 8 (pairCode s.pl.st),
    digest := BitVec.ofNat 32 now.2.1, digestPrev := BitVec.ofNat 32 prev.2.1, flagsPrev := BitVec.ofNat 8 prev.2.2,
    live := BitVec.ofNat 16 (liveMask s), rec_ := BitVec.ofNat 48 (recFrontier s), level := s.sv.level,
    ack := BitVec.ofNat 32 s.pl.seqIn }

/-- The 64 bytes of a heartbeat (R443). -/
def heartbeatBytes (h : Heartbeat) : Bytes :=
  toLE 6 h.pfn.toNat ++ [h.flags, h.state] ++ toLE 4 h.digest.toNat ++ toLE 4 h.digestPrev.toNat ++ [h.flagsPrev, 0]
    ++ toLE 2 h.live.toNat ++ toLE 6 h.rec_.toNat ++ toLE 2 h.level.toNat ++ toLE 4 h.ack.toNat ++ toLE 32 0

/-- A commit as the peer receives it: its list with TARGET_FN in PFN (R441), and the parameter sets of a scene. -/
def commitBody (s : State) (c : Commit) : PeerBody :=
  .commit (toLE 4 c.tag ++ toLE 2 (c.recs.length / 8) ++ toLE 2 (b2n c.notify + 2 * b2n c.atFn)
      ++ toLE 6 (pfnOf s c.target) ++ toLE 2 0 ++ c.recs)
    ((c.scene.map (·.sets)).getD [])

/-- What a mirrored item carries to the peer (R446); an operation of R447 is told apart. -/
def peerBody (s : State) (m : Mirror) : Option PeerBody :=
  match m.item with
  | .reg off v => some (.reg (BitVec.ofNat 20 off) v)
  | .params sets n => some (.params sets n)
  | .commit q => (s.mx.queue.find? (·.qslot == q)).map (commitBody s)
  | .rate c => some (.rate (BitVec.ofNat 4 c))
  | .fsw v _ => some (.fsw (BitVec.ofNat 10 v))
  | .pair op => some (.pl (BitVec.ofNat 4 op))
  | _ => none

/-- Put an item behind those of lower sequence numbers. -/
def putItem (l : List PeerItem) (i : PeerItem) : List PeerItem :=
  l.filter (fun x => x.seq.toNat < i.seq.toNat) ++ i :: l.filter (fun x => i.seq.toNat ≤ x.seq.toNat)

/-- Every item that the peer has not acknowledged, in order (R437, R438). -/
def outItems (s : State) : List PeerItem :=
  let mine := (s.pl.mine.filter (·.meet.isNone)).filterMap (fun m => (peerBody s m).map (fun b =>
    ({ seq := BitVec.ofNat 32 m.seq, owner := m.owner, body := b } : PeerItem)))
  (mine.foldl putItem s.pl.told).filter (fun i => s.pl.acked < i.seq.toNat)

/-- One packet, while the link is authenticated (R437, R438). Whether an item has space the spec leaves open: every one is in it.
Where its sequence number would reach 2^32 the modules authenticate again instead (R383). [log: DEDUCED 82] -/
def sendPacket (s : State) (flags : Nat) : State :=
  if s.sv.auth != .authenticated then s
  else if 2 ^ 32 - 1 ≤ s.sv.txSeq then startAuth s
  else
    let inputs := if s.pl.role = 1 ∧ pairRuns s then s.pl.ownInp.filter (fun e => mirrored s e.1) else []
    push { s with sv := { s.sv with txSeq := s.sv.txSeq + 1 } } (.packet
      (linkNonce (linkIv s.sv.session s.pl.role) s.sv.txSeq)
      (heartbeatBytes (heartbeatOf s flags)) (outItems s) s.pl.answers inputs)

/-- The packet of the frame that drained or aborted (R443, R449): SUSPECT, and DEFERRED for the boundary before. -/
def framePacket (s : State) (fn : Nat) (shown : Tbl Int) (suspect : Bool) : State :=
  let flags := b2n suspect + 2 * b2n s.pl.fault + 4 * b2n s.pl.driving
    + 8 * b2n (fn != 0 && s.pl.deferredAt.contains (fn - 1)) + 16 * b2n s.pl.mirrorMiss
  let entry := (pfnOf s fn, (digestOf s shown).toNat, flags)
  sendPacket { s with pl := { s.pl with own := entry :: s.pl.own.take 7 } } flags

/-- The final heartbeat, with FAULT (R453). -/
def lastHeartbeat (s : State) : State :=
  if pairRuns s || s.pl.st == .peerLost then sendPacket s (2 + 4 * b2n s.pl.driving) else s

/-! ### Domains that come up and go down (R393, R395) -/

/-- Lanes of a half leave service: each reads STATE 0b11, a retired one among them (R395, R457, R458). -/
def lanesOut (s : State) (h : Nat) : State :=
  countLanes (each ((List.range 32).map (· + 32 * h)) s (fun s l => setLane s l { lane s l with st := .out }))

/-- PL_HALF_TEST of a half. -/
def halfTest (s : State) (h : Nat) : Nat × Nat × Nat × Bool := if h = 0 then s.pl.testA else s.pl.testB

def setHalfTest (s : State) (h : Nat) (v : Nat × Nat × Nat × Bool) : State :=
  { s with pl := if h = 0 then { s.pl with testA := v } else { s.pl with testB := v } }

/-- The result of a test of half `h`, by TEST or at power-up (R393, R458): a lane that fails is retired, one that passes
is eligible again; each stays out of service with its half. -/
def halfTested (s : State) (h : Nat) (failed : Word) (memBad : Bool) : State :=
  let s := each (List.range 32) s (fun s i =>
    let l := 32 * h + i
    let healed := if !bit failed i && ((lane s l).bad || s.mx.healed.contains l) then [l] else []
    setLane { s with mx := { s.mx with healed := s.mx.healed.filter (· != l) ++ healed } } l
      { lane s l with st := .out, bad := bit failed i })
  let passed := ((List.range 32).filter (fun i => !bit failed i)).length
  let res := if memBad then 3 else if failed = 0 then 1 else 2
  let s := setHalfTest s h (res, passed, failed.toNat, true)
  emit s 0x0F0A h (pay [(0, 1, res), (1, 1, passed), (4, 4, failed.toNat)])

/-- Engines of a half. -/
def halfEngines (h : Nat) : List Nat := (List.range 8).map (· + 8 * h)

/-- Engines of a half leave service: UNAVAILABLE, remembering FAILED (R103). -/
def enginesOut (s : State) (h : Nat) : State :=
  each (halfEngines h) s (fun s e =>
    let x := eng s e
    setEng s e { x with keepFailed := x.st == .failed || x.keepFailed, st := .unavailable, out := [] })

/-- Engines of a half in service again: FAILED if they left so, RUNNING with a recipe kept, else EMPTY (R103, R430). -/
def enginesIn (s : State) (h : Nat) : State :=
  each (halfEngines h) s (fun s e =>
    let x := eng s e
    setEng s e { x with st := if x.keepFailed then .failed else if x.recipe.isSome then .running else .empty,
                        keepFailed := false })

/-- A half's banks and delay store are zeroed: with no half in service the table is empty. -/
def zeroHalf (s : State) (h : Nat) : State :=
  let s := if s.mx.inA || s.mx.inB then s
    else refreshCost { s with mx := { s.mx with xp := [], damaged := [] } }
  each (halfEngines h) s (fun s e => setEng s e { eng s e with recipe := none, stages := [] })

/-- A domain's block once its supply is removed; before CLK goes a paired module sends FAULT (R453). -/
def domainOff (s : State) (d : Nat) : State :=
  if d = 2 ∨ d = 3 then enginesOut (lanesOut s (d - 2)) (d - 2)
  else if d = domAIN then senseOff (ainOff s)
  else if d = domAOUT then aoutOff s
  else if d = domPORT then portsOff s
  else if d = domCLK then clkOff (lastHeartbeat s)
  else if d = domPWRA then dieOff s .a
  else if d = domPWRB then dieOff s .b
  else s

/-- A domain's block at power good. In a wake a half keeps its memories, and outputs and ports start later (R404). -/
def domainUp (s : State) (d : Nat) (wake : Bool) (failed : Word) (memBad : Bool) : State :=
  if d = 2 ∨ d = 3 then (if wake then s else halfTested (zeroHalf s (d - 2)) (d - 2) failed memBad)
  else if d = domAIN then senseUp (ainUp s)
  else if d = domAOUT then (if wake then s else aoutUp s)
  else if d = domPORT then (if wake then s else portsUp s)
  else if d = domCLK then clkReady s
  else if d = domPWRA then dieUp s .a
  else if d = domPWRB then dieUp s .b
  else s

/-- Step 2 of R400: outputs and ports stop with EN kept, and the converters stop. -/
def stopForEntry (s : State) : State :=
  let s := each (allOut.filter (fun o => (outp s o).st != .shunted && (outp s o).st != .fault)) s outStop
  senseOff (each allPorts s portStop)

/-- Step 5 of R404: outputs and ports whose EN is 1 start. -/
def startAfterWake (s : State) : State :=
  let s := if domOn s domAOUT then aoutUp s else s
  if domOn s domPORT then portsUp s else s

/-! ### Halves that enter service (R69, R430, R459) -/

/-- Lanes of half `h` that are not retired. -/
def passingLanes (s : State) (h : Nat) : List Nat :=
  ((List.range 32).map (· + 32 * h)).filter (fun l => !(lane s l).bad)

/-- The half enters service: its two highest passing lanes are spares, up to 30 others are scheduled, and the rest read as
retired. -/
def halfEnters (s : State) (h : Nat) : State :=
  let ok := passingLanes s h
  let n := ok.length - 2
  let s := each (((List.range 32).map (· + 32 * h)).filter (fun l => (lane s l).bad)) s (fun s l =>
    setLane s l { lane s l with st := .retired })
  let s := each (ok.zip (List.range ok.length)) s (fun s p =>
    setLane s p.1 { lane s p.1 with st := if p.2 < n then .scheduled else .spare })
  let s := { s with mx := if h = 0 then { s.mx with inA := true } else { s.mx with inB := true } }
  refreshCost (enginesIn (countLanes s) h)

/-- Step 6 of R428: halves that were in service are powered again, where CLK is (R391); they enter service at the first
boundary with what they kept (R430). -/
def returnHalves (s : State) (inA inB : Bool) : State :=
  let l := (if inA then [0] else []) ++ (if inB then [1] else [])
  if l.isEmpty || !domOn s domCLK then s
  else
    let s := each l s (fun s h => domainChanged { s with pd := { s.pd with
      on := if domOn s (2 + h) then s.pd.on else s.pd.on + 2 ^ (2 + h) } } (2 + h) 1 2)
    { s with mx := { s.mx with returned := l } }

/-! ### Operations of the pair at a boundary (R440, R451–R453) -/

/-- Power channels with SHARED = 1. -/
def sharedCh (s : State) : List Nat := allCh.filter (fun c => rb s .spChCfg c 4)

/-- Drive SL_FAILOVER_N low, or release it: the STANDBY's ball (R451, R455). -/
def failoverPin (s : State) (low : Bool) : State :=
  if s.pl.role = 2 then push s (.pin "SL_FAILOVER_N" low) else s

/-- Mirrored items the peer will not answer any more are bound to this boundary (R451). -/
def bindMine (s : State) : State :=
  let m := s.pl.mine
  let qs := m.filterMap (fun x => match x.item with
    | .commit q => some q
    | _ => none)
  let rest := m.filter (fun x => match x.item with
    | .commit _ => false
    | _ => true)
  { s with
    pl := { s.pl with mine := [] },
    mx := { s.mx with queue := s.mx.queue.map (fun c => if qs.contains c.qslot then { c with bound := s.fr.fn } else c) },
    fr := { s.fr with staged := s.fr.staged ++ rest.map (fun x =>
      { owner := x.owner, bound := s.fr.fn, item := x.item, at_ := frTime s }) } }

/-- FAILOVER (R464). -/
def failoverEvent (s : State) (cause : Nat) : State :=
  let h : Nat × Nat := match s.pl.hb with
    | some h => (h.pfn.toNat, h.rec_.toNat)
    | none => (0, 0)
  emit s 0x0F02 noUnit (pay [(0, 1, cause), (1, 1, s.pl.role), (2, 6, h.1), (8, 6, h.2)])

/-- FN of a frame counted in PFN. -/
def fnOf (s : State) (pfn : Nat) : Nat := ((pfn : Int) - s.pl.ofs).toNat

/-- This module takes over (R451). -/
def takeOver (s : State) (cause : Nat) : State :=
  let s := setPair { s with pl := { s.pl with driving := true, loss := none } } .peerLost
  let s := failoverPin s true
  let s := { s with pl := { s.pl with failovers := inc16 s.pl.failovers, foPfn := pfnNow s, foCause := cause,
                                      relayWait := true } }
  let s := each (ctxs s) s (fun s k => rewriteAbove s (fnOf s ((s.pl.hb.map (·.rec_.toNat)).getD 0)) k)
  each (sharedCh s) (failoverEvent s cause) (fun s c => setSolo s c true)

/-- The PRIMARY keeps DRIVING (R452). -/
def keepDriving (s : State) (cause : Nat) : State :=
  let s := setPair { s with pl := { s.pl with loss := none } } .peerLost
  each (sharedCh s) (failoverEvent s cause) (fun s c => setSolo s c true)

/-- This module yields (R453). -/
def yieldNow (s : State) : State :=
  let s := setPair { s with pl := { s.pl with fault := true, driving := false, loss := none, yield_ := false } } .peerLost
  failoverPin s false

/-- The peer drives the digital outputs, as its last heartbeat says (R443). -/
def peerDrives (s : State) : Bool := s.pl.hb.any (fun h => bitN h.flags.toNat 2)

/-- PL_CONTROL at its boundary (R440); 5 is the end of the copy of R442. A PRIMARY that forms a pair with a STANDBY that
drives leaves DRIVING to it (R456). [log: DEDUCED 84] -/
def applyPair (s : State) (op : Nat) : State :=
  match op with
  | 1 => if s.pl.st = .ready then
      setPair { s with pl := { s.pl with fault := false, missRun := 0, mismatchRun := 0, copying := false,
                                         driving := s.pl.driving && !(s.pl.role == 1 && peerDrives s) } } .sync
    else s
  | 2 =>
    if pairRuns s || s.pl.st == .peerLost then
      let s := each (sharedCh s) s (fun s c => if s.pl.driving then setSolo s c true
        else applyChCtrl s c (reg s .psChCtrl c &&& ~~~(1 : Word)))
      let s := bindMine { s with pl := { s.pl with fault := false, loss := none, yield_ := false, theirs := [], told := [] } }
      setPair s (if s.pl.lanes = 0 then .linkDown else if s.sv.auth = .authenticated then .ready else .auth)
    else s
  | 3 => if s.pl.st ≠ .paired then s else if s.pl.driving then yieldNow s else takeOver s 4
  | 4 =>
    if s.pl.st == .paired || s.pl.st == .peerLost || s.pl.st == .ready then
      let peer := (s.pl.hb.map (fun h => h.live.toNat)).getD 0
      each ((sharedCh s).filter (fun c => bitN peer c && bitN (liveMask s) c)) s (fun s c => setSolo s c false)
    else s
  | 5 => if s.pl.st = .sync then setPair { s with pl := { s.pl with copying := false } } .paired else s
  | _ => s

end Sys2Proof.Machine
end

