-- ==== Sys2Proof/Machine/Domains.lean ====
section
/-! DEFINITION. Power domains, module states, wake, the real-time clock, the comparators and the retained
memory (R391–R412). -/

namespace Sys2Proof.Machine

open Sys2Proof

/-! ### Switching domains -/

/-- Domains a domain needs (R391). -/
def needs (d : Nat) : List Nat :=
  if d = 0 ∨ d = 7 then [1] else if d = 1 then [] else [1, 7]

/-- A channel that keeps its die powered (R392). -/
def chActive (s : State) (c : Nat) : Bool :=
  match (tget PsCh.reset s.ps.ch c).st with
  | .starting | .run | .quiet | .stopping | .muted | .hiccup => true
  | .off | .latched | .domainOff => false

/-- Domain `d` breaks a condition of R392 in a PD_DOMAIN with the two masks. -/
def domainBad (s : State) (up down d : Nat) : Bool :=
  let u := bitN up d
  let w := bitN down d
  (d < 2 && (u || w)) || (u && w)
    || (u && !domOn s d && (needs d).any (fun n => !domOn s n && !bitN up n))
    || (d == 7 && w && domOn s 7
        && (List.range 10).any (fun e => (needs e).contains 7 && domOn s e && !bitN down e))
    || (d == 2 && w && s.mx.inA) || (d == 3 && w && s.mx.inB)
    || (d == 8 && w && domOn s 8 && (dieChannels .a).any (chActive s))
    || (d == 9 && w && domOn s 9 && (dieChannels .b).any (chActive s))

/-- Remove a domain's supply (R393, step 2). [log: DEDUCED 64] -/
def domainDown (s : State) (cause d : Nat) : State :=
  if !domOn s d then s
  else
    let s := domainOff { s with pd := { s.pd with on := s.pd.on - 2 ^ d } } d
    domainChanged s d 2 cause

/-- The order of power-up: CLK first, then ascending (R393, step 3). -/
def upOrder (mask : Nat) : List Nat := ([7] ++ (List.range 10).filter (· != 7)).filter (bitN mask)

/-- Complete the PD_DOMAIN of a job that awaits nothing (R393, step 5; R394). -/
def jobDone (s : State) (j : DomJob) : State :=
  match j.slot with
  | none => s
  | some n =>
    match j.fault with
    | none => finish s n stOk j.fn
    | some d => finish s n stDomainState d

/-- End the jobs that await nothing. -/
def jobEnd (s : State) : State :=
  let l := s.pd.job
  each (l.filter (·.wait.isEmpty)) { s with pd := { s.pd with job := l.filter (fun j => !j.wait.isEmpty) } } jobDone

/-- A domain is coming up. -/
def awaited (s : State) (d : Nat) : Bool := s.pd.job.any (·.wait.contains d)

/-- Every job without domain `d`, with a fault of it recorded. -/
def jobsWithout (s : State) (d : Nat) (fault : Bool) : List DomJob :=
  s.pd.job.map (fun j =>
    if j.wait.contains d then
      { j with wait := j.wait.filter (· != d),
               fault := if fault && j.fault.isNone then some d else j.fault }
    else j)

/-- Domains whose supply goes at the boundary: those named, and with CLK those that need it and have come up since the
fetch (R391). [log: DEDUCED 32] -/
def goesDown (down d : Nat) : Bool := bitN down d || (bitN down 7 && (needs d).contains 7)

/-- Steps 2 and 3 of R393 at the boundary. -/
def applyDomain (s : State) (up down n : Nat) : State :=
  let s := each ((List.range 10).reverse.filter (goesDown down)) s (fun s d => domainDown s 1 d)
  let w := (upOrder up).filter (fun d => !domOn s d)
  jobEnd { s with pd := { s.pd with job := s.pd.job ++ [{ slot := some n, cause := 1, fn := s.fr.fn, wait := w,
                                                          fault := none }] } }

/-- PD_DOMAIN (R392, R393); while no strobes run the boundary is the end of this step. -/
def execPdDomain (t : Frac) (c : Cmd) (s : State) : Res :=
  runCmd s t 0x0070 c [0x36] [(0, 0x3FF03FF)] true (fun s n =>
    let up := fldN (pwN c 0) 9 0
    let down := fldN (pwN c 0) 25 16
    match (List.range 10).find? (domainBad s up down) with
    | some d => finish s n stDomainState d
    | none => if s.fr.running then stage s c.src (.domain up down n) else applyDomain s up down n)

/-- Power good of a domain that is coming up, the domains it needs being powered (R391; R393, steps 4 and 5; R404): its
block, the first strobe of CLK, DOMAIN_CHANGED, and the completion that awaited it. [log: DEDUCED 32] -/
def domainGood (s : State) (d : Nat) (failed : Word) (memBad : Bool) (x : StrobeIn) : State :=
  match s.pd.job.find? (·.wait.contains d) with
  | none => s
  | some j =>
    if !(needs d).all (domOn s) then s
    else
      let wake := j.cause == 2
      let s := { s with pd := { s.pd with on := s.pd.on + 2 ^ d, job := jobsWithout s d false } }
      let s := domainUp s d wake failed memBad
      let s := if d = 7 && !wake then firstStrobe s x else s
      jobEnd (domainChanged s d 1 j.cause)

/-- A domain does not report power good in time (R394); `begun` names the domains whose power-up has begun.
[log: DEDUCED 32] -/
def domainFails (s : State) (d begun : Nat) : State :=
  if !awaited s d then s
  else
    let job := (jobsWithout s d true).map (fun j =>
      if j.fault == some d then { j with wait := j.wait.filter (bitN begun) } else j)
    let s := { s with pd := { s.pd with pgFaults := inc16 s.pd.pgFaults, job := job } }
    jobEnd (emit s 0x0D04 d (pay [(0, 2, s.pd.pgFaults)]))

/-! ### Module states -/

/-- STATE_CHANGED (R412). -/
def setMod (s : State) (n : ModState) : State :=
  if s.pd.st = n then s
  else
    let old := s.pd.st
    emit { s with pd := { s.pd with st := n } } 0x0D02 noUnit (pay [(0, 1, modCode old), (1, 1, modCode n)])

/-- The refusal of PD_STATE (R399). -/
def stateRefused (s : State) : Bool :=
  (List.range 12).any (chActive s) || !s.mx.queue.isEmpty
    || (tkeys s.st.ctx).any (fun k => (tget Ctx.reset s.st.ctx k).st != .disabled)
    || s.pl.st == .sync || s.pl.st == .paired || s.pl.st == .peerLost

/-- Step 2 of R400: outputs, ports and converters stop. -/
def enterStop (s : State) : State :=
  match s.pd.entry with
  | none => s
  | some e => { stopForEntry s with pd := { s.pd with entry := some { e with stopped := true } } }

/-- The entry of a module state begins (R400). -/
def enterState (s : State) (a : AfterDone) : State :=
  match a with
  | .enter m =>
    let s := { s with pd := { s.pd with entry := some { target := m, stopped := false, off := false } } }
    if s.fr.running then stage s .host .enterState else enterStop s
  | .reset _ => s

/-- PD_STATE: the completion is written before the entry (R400). -/
def pdState (t : Frac) (c : Cmd) (s : State) (code : Nat) (m : ModState) : Res :=
  runCmd s t 0x0071 c [0x36] [(0, 3)] (pwN c 0 % 4 == code) (fun s n =>
    if stateRefused s then finish s n stDomainState noIndex
    else thenDo enterState (finish s n stOk 0) n (.enter m))

/-- PD_STATE with STANDBY. -/
def execPdStateStandby (t : Frac) (c : Cmd) (s : State) : Res := pdState t c s 1 .standby

/-- PD_STATE with SLEEP. -/
def execPdStateSleep (t : Frac) (c : Cmd) (s : State) : Res := pdState t c s 2 .sleep

/-- Every output is SHUNTED or FAULT. -/
def outputsDown (s : State) : Bool :=
  (List.range 24).all (fun o =>
    let x := (tget Outp.reset s.aq.ch o).st
    x == .shunted || x == .fault)

/-- The wake from STANDBY begins (R404): CLK, then the domains that were on at entry. -/
def wakeStandby (s : State) : State :=
  { s with pd := { s.pd with job := s.pd.job ++ [{ slot := none, cause := 2, fn := s.fr.fn,
                                                   wait := upOrder (if bitN s.pd.doms 7 then s.pd.doms else s.pd.doms + 128),
                                                   fault := none }] } }

/-- STATE_ENTRY_HALT: steps 3 and 4 of R400, and step 6 for STANDBY. -/
def execStateEntryHalt (t : Frac) (s : State) : Res :=
  let s := atT s t
  .next (
    match s.pd.entry with
    | none => s
    | some e =>
      if !e.stopped || e.off || !outputsDown s || (s.fr.running && !s.fr.drained) then s
      else
        let doms := (List.range 10).filter (fun d => d ≠ 0 ∧ d ≠ 1 ∧ domOn s d
            ∧ ¬(d = 8 ∧ s.ps.dieA.idleOff) ∧ ¬(d = 9 ∧ s.ps.dieB.idleOff))
        let s := { s with pd := { s.pd with doms := doms.foldl (fun a d => a + 2 ^ d) 0 } }
        let s := each [8, 9, 5, 6, 4, 7] s (fun s d => domainDown s 2 d)
        let s :=
          if e.target = .sleep then each [2, 3] s (fun s d => domainDown s 2 d)
          else each ([2, 3].filter (domOn s)) s (fun s d =>
            domainChanged { s with pd := { s.pd with on := s.pd.on - 2 ^ d } } d 3 2)
        if e.target = .sleep then { s with pd := { s.pd with entry := some { e with off := true } } }
        else
          let s := setMod { s with pd := { s.pd with entry := none } } .standby
          if s.pd.waking.isSome then wakeStandby s else s)

/-! ### The real-time clock -/


/-- The alarm value (R407). -/
def alarmAt (s : State) : Nat := rf s .pdRtcAlarmHi 0 15 0 * 2 ^ 32 + (reg s .pdRtcAlarmLo).toNat

/-- The alarm fires on the way from a value of SEC to the state's own: it is armed, and FRAC has wrapped with SEC then the
alarm value (R407). -/
def alarmDue (s : State) (sec : Nat) : Bool :=
  rb s .pdRtcAlarmHi 0 31 && s.pd.sec != sec && s.pd.sec == alarmAt s

/-- RTC_OSC_FAIL: no edge for 1 ms (R408). -/
def execRtcOscFail (t : Frac) (cycles : Nat) (s : State) : Res :=
  let s := atT s t
  .next (
    if !s.pd.oscOk then s
    else
      let s := rtcAdvance s cycles
      emit { s with pd := { s.pd with oscOk := false } } 0x0D07 noUnit (pay [(0, 1, 1), (2, 6, s.pd.sec)]))

/-- RTC_OSC_RESTART (R408). -/
def execRtcOscRestart (t : Frac) (s : State) : Res :=
  let s := atT s t
  .next (
    if s.pd.oscOk then s
    else emit { s with pd := { s.pd with oscOk := true, valid := false } } 0x0D07 noUnit
      (pay [(0, 1, 2), (2, 6, s.pd.sec)]))

/-- The load that GO = 1 of PD_RTC_SET_HI makes (R407). -/
def rtcLoad (s : State) (v : Word) : State :=
  let s := setReg s .pdRtcSetHi 0 (v &&& 0xFFFF)
  if bit v 31 then
    { s with pd := { s.pd with sec := fld v 15 0 * 2 ^ 32 + (reg s .pdRtcSetLo).toNat, frac := 0, trimRem := 0,
                               valid := true } }
  else s

/-- RTC_SET (R407). -/
def execRtcSet (t : Frac) (src : Owner) (v : Word) (cycles : Nat) (s : State) : Res :=
  .next (directWrite (rtcAdvance (atT s t) cycles) src 0x404C 0x36 (fun s => rtcLoad s v))

/-- RTC_READ: SEC[31:0], with SEC[47:32] and FRAC captured (R407). -/
def execRtcRead (t : Frac) (cycles : Nat) (s : State) : Res :=
  let s := rtcAdvance (atT s t) cycles
  .next (reading { s with pd := { s.pd with capSec := s.pd.sec / 2 ^ 32, capFrac := s.pd.frac } }
    (BitVec.ofNat 32 s.pd.sec))

/-! ### Retained memory -/

/-- WORD of PD_RET_ADDR after an access (R411). -/
def retNext (s : State) : State :=
  if rb s .pdRetAddr 0 31 then
    setReg s .pdRetAddr 0 (BitVec.ofNat 32 (2 ^ 31 + (rf s .pdRetAddr 0 11 0 + 1) % 4096))
  else s

/-- RET_DATA_ACCESS: a write, or a read, which an uncorrectable error makes 0 (R410). -/
def execRetDataAccess (t : Frac) (src : Owner) (w : Option Word) (bad : Bool) (s : State) : Res :=
  let s := atT s t
  let a := rf s .pdRetAddr 0 11 0
  .next (match w with
    | some v => directWrite s src 0x4064 0x36 (fun s =>
        retNext { s with pd := { s.pd with ret := tput 0 s.pd.ret a v } })
    | none =>
      let s := reading (retNext s) (if bad then 0 else tget 0 s.pd.ret a)
      if bad then emit s 0x0D08 noUnit (pay [(0, 2, a)]) else s)

end Sys2Proof.Machine
end

