-- ==== Sys2Proof/Machine/Reset.lean ====
section
/-! DEFINITION. Reset scopes, sources and their meeting, option loading, bring-up, wake from SLEEP and from
STANDBY, the watchdog and critical errors (R400–R434). -/

namespace Sys2Proof.Machine

open Sys2Proof

def scCold : Nat := 0
def scWarm : Nat := 1
def scControl : Nat := 2
def scHost : Nat := 3

/-! ### What a scope clears (R413, R414) -/

/-- Registers of domain AON whose RW fields survive every reset (R411). -/
def aonReg (off : Nat) : Bool :=
  off == 0x4004 || (0x4020 ≤ off && off < 0x4040) || off == 0x4050 || off == 0x4054 || off == 0x4058
    || (0x4100 ≤ off && off < 0x4180)

/-- A reset of scope COLD, up to what option loading reloads: everything but AON, the Pantry and the fuses, the
waiting commands and the model's own fields. -/
def coldState (s : State) : State :=
  let r := State.reset
  { r with
    pending := s.pending, now := s.now, out := s.out, draws := s.draws,
    regs := s.regs.filter (fun e => aonReg e.1),
    fr := { r.fr with ticks := s.fr.ticks },
    aq := { r.aq with clamp := s.aq.clamp },
    hl := { r.hl with scenes := s.hl.scenes },
    sv := { s.sv with larderOk := false, refused := 0, lastStatus := 0, lastKind := 0, lastStep := 0, auth := .idle,
                      own := none, peer := none, timedOut := false, session := [], txSeq := 0, rxSeq := 0, fails := 0,
                      late := 0, tagFails := 0, eccCorrected := 0, eccUncorrected := 0,
                      journal := (interrupted s).or s.sv.journal },
    vc := { r.vc with lastLow := nowTicks s },
    pd := { r.pd with wakeStatus := s.pd.wakeStatus, wakeSec := s.pd.wakeSec, wakes := s.pd.wakes, backup30 := s.pd.backup30,
                      backup31 := s.pd.backup31, awc := s.pd.awc, awcAt := s.pd.awcAt, osc := s.pd.osc, ret := s.pd.ret, sec := s.pd.sec,
                      frac := s.pd.frac, trimRem := s.pd.trimRem, valid := s.pd.valid, oscOk := s.pd.oscOk,
                      capSec := s.pd.capSec, capFrac := s.pd.capFrac },
    ct := { r.ct with cur := none, cause := s.ct.cause, nCold := s.ct.nCold, nWarm := s.ct.nWarm,
                      nControl := s.ct.nControl, nHost := s.ct.nHost, eccCount := s.ct.eccCount,
                      eccRegion := s.ct.eccRegion, eccWord := s.ct.eccWord, wdtResets := s.ct.wdtResets,
                      wdtEsc := s.ct.wdtEsc, wdtTimes := s.ct.wdtTimes, monVcore := s.ct.monVcore, monVmem := s.ct.monVmem,
                      monVioh := s.ct.monVioh, perst := s.ct.perst } }

/-- An engine as a WARM reset leaves it: recipe, parameter words; stage state zeroed (R430). The owners' shadows, of
which the rule says nothing, are empty (R93). [log: DESIGN CHOICE 95] -/
def warmEngine (e : Engine) : Engine :=
  { Engine.reset with recipe := e.recipe, keepFailed := e.st == .failed || e.keepFailed,
                      stages := e.stages.map (fun _ => StageSt.zero),
                      lat := (e.recipe.map declaredLat).getD 0 }

/-- The pair state with no link: by role (R439). -/
def pairDown (role : Nat) : PairState := if role = 0 then .solo else .linkDown

/-- A reset of scope WARM: as COLD, but the option results, the crosspoint table, recipes, parameter words and
lane retirements are kept, and CTRL comes up next (R414, R430). [log: DEDUCED 103] -/
def warmState (s : State) : State :=
  let c := coldState s
  { c with
    mx := { c.mx with
      xp := tmapv Xp.none (fun _ x => freeXp { x with pend := false }) s.mx.xp,
      lane := tmapv Lane.off (fun _ l => { Lane.off with bad := l.bad }) s.mx.lane },
    fx := { c.fx with eng := tmapv Engine.reset (fun _ e => warmEngine e) s.fx.eng },
    ct := { c.ct with phase := .ctrl, code := s.ct.code, range := s.ct.range, fuseOk := s.ct.fuseOk,
                      trimOk := s.ct.trimOk },
    vc := { c.vc with mute := s.vc.mute, sent := s.vc.sent },
    pl := { c.pl with role := s.pl.role, driving := s.pl.role != 2, st := pairDown s.pl.role } }

/-- A HOST reset: rings, HL registers, MSI-X table and stream contexts; a command in hand and a long operation run on, their
completions discarded (R287, R332). -/
def hostState (s : State) : State :=
  let h := s.hl
  let s := { s with
    regs := s.regs.filter (fun e => !((0x8010 ≤ e.1 && e.1 < 0x8044))),
    hl := { h with cmd := .reset, cmp := .reset, evt := .reset, halted := false, cfgErr := false,
                   orphan := h.fetched.isSome, rerun := none, busy := if h.rerun.isSome then none else h.busy,
                   order := h.order.filter (fun c => c.src != .host), msix := [], pba := [], holdoff := [],
                   irqWait := [], fn := fnReset },
    tw := { s.tw with cmdAfter := 0 } }
  streamsReset s

/-- The host's commands that are fetched and not completed, from the first of them on (R294, R423). -/
def uncompletedOrder : List CmpSlot → List CmpSlot
  | [] => []
  | c :: r => if c.src == .host && c.done.isNone then c :: r else uncompletedOrder r

/-- A command of the two-wire bus is what the long operation in progress runs. -/
def longOfBus (s : State) : Bool :=
  s.hl.busy.any (fun b => s.hl.order.any (fun c => c.slot == b.slot && c.src == .tw))

/-- Ring indices of the commands to be fetched again, the one in hand last. -/
def fetchAgain (s : State) : List Nat :=
  ((uncompletedOrder s.hl.order).filter (·.src == .host)).map (·.idx.toNat)
    ++ (if s.hl.orphan then [] else (s.hl.fetched.map (·.cmd.idx.toNat)).toList)

/-- Ring index of the long operation to be fetched again: one of the order, or the one in hand. -/
def rerunIdx (s : State) : Option Nat :=
  match s.hl.rerun, s.hl.busy with
  | some i, _ => some i
  | none, none => none
  | none, some b =>
    match s.hl.order.find? (fun c => c.slot == b.slot && c.src == .host) with
    | some c => if c.done.isNone then some c.idx.toNat else none
    | none => if s.hl.orphan || b.slot != s.hl.nextSlot then none else s.hl.fetched.map (·.cmd.idx.toNat)

/-- What a long operation that is not run to its end leaves: a calibration its converter STOPPED (R267), an engine test its
engine FAILED. [log: DEDUCED 89] -/
def undoLong (s : State) : State :=
  match s.hl.long with
  | some (.scCal _ k _ _ _) => calIdle s k
  | some (.fxTest e) => if (eng s e).st = .testing then setEng s e { eng s e with st := .failed } else s
  | _ => s

/-- The command ring from the first command to be fetched again on (R423). -/
def rewind (r : Ring) (l : List Nat) : Ring :=
  match l with
  | [] => r
  | i :: _ => { r with cons := i, phase := if r.cons < i then !r.phase else r.phase }

/-- A CONTROL reset: two-wire buffer, queue and command are cleared, and the ring commands that are not completed are
fetched again, with BUSY kept for a long operation (R414, R423). [log: DEDUCED 89] -/
def controlState (s : State) : State :=
  let twLong := longOfBus s
  let again := rerunIdx s
  let gone := uncompletedOrder s.hl.order
  let indices := fetchAgain s
  let s := if twLong || again.isSome then undoLong s else s
  let h := s.hl
  busyOver { s with
    hl := { h with cmd := rewind h.cmd indices, fetched := if h.orphan then h.fetched else none,
                   order := h.order.filter (fun c => c.src != .tw && !gone.contains c),
                   rerun := again, long := if twLong || again.isSome then none else h.long,
                   afterDone := h.afterDone.filter (fun a => !gone.any (·.slot == a.2)) },
    tw := { s.tw with buf := [], queue := [], cmdPend := false, resultReady := false, result := none,
                      resultPhase := false, wanted := false, cmd := none, cmdAfter := 0,
                      late := s.tw.late.filter (·.1 != 0x10), notify := none, stuck := 0, lost := 0, lostFirst := 0,
                      lostLast := 0 } }

/-! ### Beginning a reset (R415, R420, R422) -/

/-- Count a reset and record its source (R433). -/
def countReset (s : State) (scope src : Nat) : State :=
  let c := s.ct
  let c := if scope = 0 then { c with nCold := inc8 c.nCold } else if scope = 1 then { c with nWarm := inc8 c.nWarm }
    else if scope = 2 then { c with nControl := inc8 c.nControl } else { c with nHost := inc8 c.nHost }
  { s with ct := { c with cause := if bitN c.cause src then c.cause else c.cause + 2 ^ src,
                          lastScope := scope, lastSrc := src } }

/-- A COLD or WARM reset begins. The halves that were in service return after a WARM one (R430). -/
def beginWide (s : State) (scope src merged : Nat) : State :=
  let a := match s.ct.cur with
    | some r => r.inA
    | none => s.mx.inA
  let b := match s.ct.cur with
    | some r => r.inB
    | none => s.mx.inB
  let woke := s.pd.wakeN || s.hl.pmeWake
  let held := s.pl.role == 2 && s.pl.driving
  let s := countReset (lastHeartbeat s) scope src
  let ls := s.ct.lastScope
  let lr := s.ct.lastSrc
  let s := if scope = 0 then coldState s else warmState s
  let s := if woke then push s (.pin "WAKE_N" false) else s
  let s := if held then push s (.pin "SL_FAILOVER_N" false) else s
  push { s with ct := { s.ct with
    cur := some { scope := scope, src := src, merged := merged, inA := scope == 1 && a, inB := scope == 1 && b },
    lastScope := ls, lastSrc := lr, rstDriven := true, rstExtended := false } } (.pin "RST_N" true)

/-- RST_N at a CONTROL or HOST reset, when its register bit asks for it (R420). -/
def pulseRst (s : State) (on : Bool) : State :=
  if on then push { s with ct := { s.ct with rstDriven := true } } (.pin "RST_N" true) else s

/-- A CONTROL reset begins. -/
def beginControl (s : State) (src : Nat) : State :=
  let s := controlState (countReset s 2 src)
  pulseRst { s with ct := { s.ct with ctlReset := some (src, 0), phase := .larder } } (rb s .ctRstCfg 0 0)

/-- A HOST reset begins. -/
def beginHost (s : State) (src : Nat) : State :=
  let s := hostState (countReset s 3 src)
  pulseRst { s with ct := { s.ct with hostReset := some (src, 0) } } (rb s .ctRstCfg 0 1)

/-- One more request during option loading restarts it (R422). -/
def restartOptions (s : State) : State := { s with pd := { s.pd with backup31 := inc8 s.pd.backup31 } }

/-- A reset request (R422). [log: DEDUCED 89] -/
def startReset (s : State) (scope src : Nat) : State :=
  match s.ct.cur with
  | some r =>
    if scope = 0 && s.ct.phase == .options then restartOptions s
    else if scope < r.scope then beginWide s scope src r.merged
    else { s with ct := { s.ct with cur := some { r with merged := inc16 r.merged } } }
  | none =>
    if scope < 2 then beginWide s scope src 0
    else if scope = 2 then
      match s.ct.ctlReset with
      | some c => { s with ct := { s.ct with ctlReset := some (c.1, inc16 c.2) } }
      | none => beginControl s src
    else
      match s.ct.hostReset with
      | some c => { s with ct := { s.ct with hostReset := some (c.1, inc16 c.2) } }
      | none => beginHost s src

/-- A record of this chapter: at once with the event ring enabled, else held until it is first enabled (R417, R428). -/
def heldOrPut (s : State) (code : Nat) (p : BitVec 128) : State :=
  if s.hl.evt.en then emit s code noUnit p else holdEvent s code noUnit p

/-! ### Sources -/

/-- What begins with the completion of a RESET or PD_STATE. -/
def beginAfter (s : State) (a : AfterDone) : State :=
  match a with
  | .reset scope => startReset s scope 6
  | .enter m => enterState s (.enter m)

/-- RESET: the completion is written before the reset begins (R297). -/
def execReset (t : Frac) (c : Cmd) (s : State) : Res :=
  runCmd s t 0x0003 c [0x38] [(0, 3)] true (fun s n => thenDo beginAfter (finish s n stOk 0) n (.reset (pwN c 0 % 4)))

/-! ### Rows that complete commands which others may wait for -/

/-- DOMAIN_POWER_GOOD. -/
def execDomainPowerGood (t : Frac) (d : Fin 10) (failed : Word) (memBad : Bool) (x : StrobeIn) (s : State) : Res :=
  .next (resume beginAfter (domainGood (atT s t) d.val failed memBad x))

/-- DOMAIN_FAULT. -/
def execDomainFault (t : Frac) (d : Fin 10) (begun : BitVec 10) (s : State) : Res :=
  .next (resume beginAfter (domainFails (atT s t) d.val begun.toNat))

/-- PLL_LOCKED. -/
def execPllLocked (t : Frac) (j : Fin 4) (band : Fin 64) (cached : Bool) (us : BitVec 16) (s : State) : Res :=
  .next (resume beginAfter (pllLocks (atT s t) j.val band.val cached us.toNat))

/-- LINK_CHANGED. -/
def execLinkChanged (t : Frac) (x : LinkIn) (what : Fin 4) (s : State) : Res :=
  .next (resume beginAfter (linkChanges (atT s t) x what.val))

/-- VAON rises: every AON field too takes its power-on value (R413); fuses and Pantry keep theirs. -/
def execPowerOnReset (t : Frac) (s : State) : Res :=
  let r := State.reset
  .next (push { r with
    pending := s.pending, now := t, draws := s.draws, hl := { r.hl with scenes := s.hl.scenes },
    sv := { (coldState s).sv with trialAt := 0 } } (.pin "RST_N" true))

/-- A rail falls below its threshold. The monitors are disarmed in SLEEP: no reset begins, and the rail holds the bring-up of
the wake until it is good again (R415, R475). -/
def execSupplyMonitorReset (t : Frac) (r : Rail) (s : State) : Res :=
  let s := atT s t
  let c := s.ct
  let s := { s with ct := match r with
    | .vcore => { c with monVcore := true }
    | .vmem => { c with monVmem := true }
    | .vioh => { c with monVioh := true } }
  .next (if s.pd.st == .sleep then s else startReset s 0 2)

/-- A monitor clears (R415). -/
def execSupplyMonitorClear (t : Frac) (r : Rail) (s : State) : Res :=
  let s := atT s t
  let c := s.ct
  .next { s with ct := match r with
    | .vcore => { c with monVcore := false }
    | .vmem => { c with monVmem := false }
    | .vioh => { c with monVioh := false } }

/-- RST_N driven low from outside; not read while the module drives it (R421). -/
def execRstNAssert (t : Frac) (s : State) : Res :=
  let s := atT s t
  .next (if s.ct.rstDriven || s.ct.rstExtended then s else startReset s (rf s .ctRstCfg 0 3 2) 3)

/-- The module releases RST_N, after option loading when the scope includes it (R420, R421). -/
def execRstNRelease (t : Frac) (stillLow : Bool) (s : State) : Res :=
  let s := atT s t
  .next (
    if !s.ct.rstDriven || s.ct.phase == .options then s
    else push { s with ct := { s.ct with rstDriven := false, rstExtended := stillLow } }
      (.pin "RST_N" false))

/-- RST_N first reads high again (R421). -/
def execRstNExtensionEnd (t : Frac) (s : State) : Res :=
  let s := atT s t
  .next { s with ct := { s.ct with rstExtended := false } }

/-- PERST_SCOPE as a scope (R433). -/
def perstScope (s : State) : Nat :=
  match rf s .ctRstCfg 0 5 4 with
  | 0 => 3
  | 1 => 1
  | _ => 0

/-- PERST_N is asserted (R415, R416). -/
def execPerstAssert (t : Frac) (s : State) : Res :=
  let s := atT s t
  .next (if s.ct.perst then s
    else
      let s := startReset s (perstScope s) 4
      { s with ct := { s.ct with perst := true },
               hl := { s.hl with linkUp := false, l2 := false, speed := 0, width := 0, aspm := 0 } })

/-- FUNCTION_LEVEL_RESET (R415). -/
def execFunctionLevelReset (t : Frac) (s : State) : Res := .next (startReset (atT s t) 3 5)

/-- Cycles of the 32.768 kHz oscillator in 60 s. -/
def minute : Nat := 1966080

/-- The watchdog resets of the last 60 s, this one included (R418). [log: DEDUCED 86] -/
def wdtWindow (s : State) : List Nat := (s.pd.osc :: s.ct.wdtTimes).filter (fun c => s.pd.osc ≤ c + minute)

/-- WATCHDOG_RESET: the fallback of a TRIAL, the escalation of the fourth in 60 s, or CONTROL (R379, R418). -/
def execWatchdogReset (t : Frac) (cycles : Nat) (s : State) : Res :=
  let s := rtcAdvance (atT s t) cycles
  let l := wdtWindow s
  let s := { s with ct := { s.ct with wdtResets := inc16 s.ct.wdtResets, wdtTimes := l } }
  .next (
    if s.sv.fwRun == .trial then
      let s := fwDemote s
      startReset { s with sv := { s.sv with fell := 1 } } 2 8
    else if 4 ≤ l.length then
      let s := startReset s 1 8
      let s := { s with ct := { s.ct with wdtEsc := inc8 s.ct.wdtEsc } }
      holdEvent s 0x0E04 noUnit (pay [(0, 1, Nat.min 255 l.length), (4, 2, s.ct.wdtResets)])
    else startReset s 2 8)

/-- Scope of a critical region (R417). -/
def regionScope (r : Nat) : Nat := if r = 1 then 0 else if r = 5 then 2 else 1

/-- CRITICAL_ERROR (R417): region, word and count; the event waits for the event ring to be enabled. -/
def execCriticalError (t : Frac) (region : Fin 6) (word : BitVec 16) (s : State) : Res :=
  let s := atT s t
  .next (
    if region.val = 0 then s
    else
      let s := { s with ct := { s.ct with eccCount := inc8 s.ct.eccCount, eccRegion := region.val,
                                          eccWord := word.toNat } }
      let s := startReset s (regionScope region.val) 9
      let p := pay [(0, 1, region.val), (2, 2, word.toNat), (4, 1, s.ct.eccCount)]
      heldOrPut s 0x0E03 p)

/-! ### Bring-up (R427, R428) -/

/-- RANGE of CT_OPT for the CFG_SEL resistance (R426). -/
def cfgRange (o : Options) : Nat := if o.ohms < 1500 then 1 else if 170000 < o.ohms then 2 else 0

/-- The code read (R425, R426): 0 on a CFG_SEL fault; between two windows one of the two neighbours. -/
def cfgCode (o : Options) : Nat :=
  if cfgRange o != 0 then 0
  else
    let k := o.ohms / 10000
    let r := o.ohms % 10000
    Nat.min 15 (if r < 1500 && !o.upper then k - 1 else if 8500 < r && o.upper then k + 1 else k)

/-- OPTION_LOADING_DONE (R424–R427); the role follows the boot mode. -/
def execOptionLoadingDone (t : Frac) (o : Options) (s : State) : Res :=
  let s := atT s t
  .next (
    if s.ct.phase != .options then s
    else
      let code := cfgCode o
      let range := cfgRange o
      let role := if code / 4 = 1 then 1 else if code / 4 = 2 then 2 else 0
      let s := { s with
        ct := { s.ct with phase := .ctrl, code := code, range := range, fuseOk := o.fuseOk, trimOk := o.trimOk },
        pl := { s.pl with role := role, driving := role != 2, st := pairDown role } }
      if range != 0 then holdEvent s 0x0E02 noUnit (pay [(0, 1, range), (1, 1, code)]) else s)

/-- No supply monitor holds the module in reset (R415). -/
def monitorsClear (s : State) : Bool := !s.ct.monVcore && !s.ct.monVmem && !s.ct.monVioh

/-- Bring-up may pass step 1: the reset has ended and every monitor has cleared (t1 of R428). A wake from SLEEP waits for the
monitors alone, since it is ready on the two-wire bus within 200 µs (R405, R475). [log: DEDUCED 89] -/
def pastT1 (s : State) : Bool :=
  s.ct.phase == .ctrl && monitorsClear s
    && ((!s.ct.rstDriven && !s.ct.rstExtended) || s.ct.cur.any (fun r => r.src == 0x0B))

/-- The level requested when CTRL comes up (R476). -/
def fusedLevel (s : State) : Nat := Nat.min (if Config.fusedHigh then 2 else 1) (vidMax s)

/-- An interrupted commit is resolved by its journal record, complete or not: NV_COMMIT_RECOVERED (R386). -/
def recoverCommit (s : State) (complete : Bool) : State :=
  match s.sv.journal with
  | none => s
  | some j =>
    let u := if complete then journalDone s else s
    emit { u with sv := { u.sv with journal := none } } 0x0C12 noUnit
      (pay [(0, 1, if complete then 2 else 3), (1, 1, commitRegion s j)])

/-- The level requested as CTRL comes up, which the regulator is told of (R476, R477). [log: DEDUCED 103] -/
def firstLevel (s : State) : State :=
  let s := push { s with vc := { s.vc with level := fusedLevel s } } (.vid (fusedLevel s))
  if s.vc.mute then s else { s with tw := { s.tw with vmsg := some (fusedLevel s) } }

/-- TW_WAKE after a wake over the bus (R341, R342). -/
def twWakeEvent (s : State) : State :=
  let w := s.pd.twWake
  if w = 0 then s else emit { s with pd := { s.pd with twWake := 0 } } 0x0B01 noUnit (pay [(0, 1, w)])

/-- BRINGUP_CTRL_UP: step 2 of R428. -/
def execBringupCtrlUp (t : Frac) (complete : Bool) (s : State) : Res :=
  let s := atT s t
  .next (
    if !pastT1 s then s
    else
      let s := { s with ct := { s.ct with phase := .larder } }
      twWakeEvent (recoverCommit (ctrlUpJacks (firstLevel s)) complete))

/-- RECOVERY_ENTERED (R431). -/
def enterRecovery (s : State) (cause : Nat) : State :=
  heldOrPut { s with ct := { s.ct with phase := .recovery } } 0x0E05 (pay [(0, 1, cause)])

/-- A firmware slot verifies. -/
def slotGood (s : State) (x : LarderIn) (b : Bool) : Bool :=
  (fwSlot s b).st == .valid && (if b then x.fwB else x.fwA)

/-- The active slot fails its verification and the other one passes (R379, step 4). -/
def mustFallBack (s : State) (x : LarderIn) : Bool := !slotGood s x s.sv.slotB && slotGood s x (!s.sv.slotB)

/-- Firmware verification of the active slot, with fallback; FW_NONE when neither verifies (R379, R431). Verified, the firmware
of the slot runs from now on, confirmed where none ran before. -/
def verifyFirmware (s : State) (x : LarderIn) : State :=
  if slotGood s x s.sv.slotB then
    { s with ct := { s.ct with noFw := false },
             sv := { s.sv with fwRun := if s.sv.fwRun = .none then .confirmed else s.sv.fwRun, trialAt := nowTicks s } }
  else if mustFallBack s x then fwDemote { s with ct := { s.ct with noFw := false } }
  else
    emit { s with sv := { s.sv with fwRun := .none }, ct := { s.ct with noFw := true } } 0x0C09 noUnit 0

/-- RESET_DONE (R434): held for the first enable of the ring after a COLD or WARM reset. [log: DEDUCED 86, 89] -/
def resetDone (s : State) (hold : Bool) (scope src merged us : Nat) : State :=
  let p := pay [(0, 1, scope), (1, 1, src), (2, 2, merged), (4, 4, us), (8, 1, s.pd.backup31)]
  if hold then
    let s := holdEvent s 0x0E01 noUnit p
    { s with hl := { s.hl with held := (s.hl.held.filter (·.code == 0x0E01))
                                 ++ s.hl.held.filter (·.code != 0x0E01) } }
  else emit s 0x0E01 noUnit p

/-- The Larder self-test (R366): a known-answer test fails, or a fuse word has failed its ECC check (R427), of which the spec
gives no number. [log: DESIGN CHOICE 8] -/
def selfTest (s : State) (x : LarderIn) : State :=
  match x.failing, s.ct.fuseOk with
  | none, true => { s with sv := { s.sv with larderOk := true } }
  | some b, _ => emit { s with sv := { s.sv with larderOk := false } } 0x0C12 noUnit (pay [(0, 1, 1), (1, 1, b.toNat)])
  | none, false =>
    let d := draw s
    emit { d.2 with sv := { d.2.sv with larderOk := false } } 0x0C12 noUnit (pay [(0, 1, 1), (1, 1, d.1.toNat % 256)])

/-- The further CONTROL reset that a slot which failed its verification makes, whose end raises FW_FALLBACK (R379).
[log: DEDUCED 89] -/
def furtherReset (s : State) (src : Nat) : State := startReset { s with sv := { s.sv with fell := 2 } } 2 src

/-- The FW_FALLBACK that a reset ends with (R379, step 4). -/
def fallbackTold (s : State) : State := if s.sv.fell = 0 then s else fwFallen s s.sv.fell

/-- A CONTROL reset ends (R428). -/
def controlDone (s : State) (c : Nat × Nat) (us : Nat) (fell : Bool) : State :=
  let s := { s with ct := { s.ct with ctlReset := none, phase := .done } }
  let s := if s.ct.code / 4 = 3 then enterRecovery s 1 else if s.ct.noFw then enterRecovery s 2 else s
  let s := fallbackTold (resetDone s false 2 c.1 c.2 us)
  if fell then furtherReset s c.1 else s

/-- BRINGUP_LARDER_DONE: step 3 of R428; after a CONTROL reset without envelopes and PS_READY, and its end. A slot that fails
in a wider bring-up has its further CONTROL reset at the end of that bring-up. [log: DEDUCED 89] -/
def execBringupLarderDone (t : Frac) (x : LarderIn) (s : State) : Res :=
  let s := atT s t
  .next (
    if s.ct.phase != .larder || !monitorsClear s || (s.ct.rstExtended && s.ct.ctlReset.isSome) then s
    else
      let s := pantryReads (each x.lost s lineLost) x.reads
      let fell := mustFallBack s x
      let s := verifyFirmware (selfTest s x) x
      match s.ct.ctlReset with
      | some c => controlDone s c x.us.toNat fell
      | none =>
        let s := if fell then { s with sv := { s.sv with fell := 3 } } else s
        let s := restoreEnvelopes (restoreCal s)
        let s := { s with ps := { s.ps with ready := true } }
        if s.ct.code / 4 = 3 then enterRecovery s 1
        else if s.ct.noFw then enterRecovery s 2
        else { s with ct := { s.ct with phase := .clk } })

/-- BRINGUP_CLK_UP: step 4 of R428. CLK comes up with the first strobe, FN 0; with an XTAL_FAIL (R236), or without power good
(R394, R474), bring-up stops here, and HOST is still brought up. -/
def execBringupClkUp (x : ClkUp) (s : State) : Res :=
  let s := atT s 0
  .next (
    if s.ct.phase != .clk || !monitorsClear s then s
    else
      let s := { s with ct := { s.ct with phase := .host } }
      match x with
      | .xtalFail => xtalLost s 1
      | .fault =>
        let s := { s with pd := { s.pd with pgFaults := inc16 s.pd.pgFaults } }
        emit s 0x0D04 domCLK (pay [(0, 2, s.pd.pgFaults)])
      | .up x =>
        let s := { s with pd := { s.pd with on := if domOn s domCLK then s.pd.on else s.pd.on + 2 ^ domCLK } }
        domainChanged (clkUp s x) domCLK 1 2)

/-- A bring-up ends: step 6 of R428 after a WARM reset, RESET_DONE, and what a failed verification makes (R379). -/
def bringupDone (s : State) (r : Reset) (us : Nat) : State :=
  let s := { s with ct := { s.ct with cur := none, phase := if s.ct.phase = .recovery then .recovery else .done } }
  let s := if r.scope = 1 && s.ct.phase == .done then returnHalves s r.inA r.inB else s
  let s := resetDone s true r.scope r.src r.merged us
  if s.sv.fell = 3 then furtherReset s r.src else fallbackTold s

/-- BRINGUP_HOST_UP: step 5 of R428 and the end of bring-up; or the end of a HOST reset. -/
def execBringupHostUp (t : Frac) (us : Word) (s : State) : Res :=
  let s := atT s t
  .next (
    match s.ct.cur with
    | some r =>
      if (s.ct.phase != .host && s.ct.phase != .recovery) || !monitorsClear s then s else bringupDone s r us.toNat
    | none =>
      match s.ct.hostReset with
      | some c =>
        if s.ct.rstExtended then s else resetDone { s with ct := { s.ct with hostReset := none } } false 3 c.1 c.2 us.toNat
      | none => s)

/-! ### Entry of SLEEP, and wake -/

/-- The WAKE record (R412). -/
def wakePayload (s : State) (src from_ awc : Nat) : BitVec 128 :=
  pay [(0, 1, src), (1, 1, from_), (2, 2, s.pd.wakeStatus), (4, 6, s.pd.wakeSec), (10, 1, awc)]

/-- The wake from SLEEP: bring-up with the scope of COLD, without option loading (R405, R406). -/
def wakeSleep (s : State) (src awc : Nat) : State :=
  let o := s.ct
  let s := beginWide s 0 0x0B 0
  let s := { s with
    ct := { s.ct with phase := .ctrl, code := o.code, range := o.range, fuseOk := o.fuseOk, trimOk := o.trimOk },
    pl := { s.pl with role := if o.code / 4 = 1 then 1 else if o.code / 4 = 2 then 2 else 0 },
    pd := { s.pd with twWake := if src = 3 then 1 else if src = 4 then 2 else 0 } }
  let s := { s with pl := { s.pl with driving := s.pl.role != 2, st := pairDown s.pl.role } }
  let s := holdEvent s 0x0D03 noUnit (wakePayload s src 3 awc)
  if rb s .pdWakeEn 0 31 && src != 0 && src != 1 then
    push { s with pd := { s.pd with wakeN := true } } (.pin "WAKE_N" true)
  else s

/-- SLEEP_POWER_DOWN: step 5 of R400; a wake latched in the entry begins at once (R403). -/
def execSleepPowerDown (t : Frac) (s : State) : Res :=
  let s := atT s t
  .next (
    match s.pd.entry with
    | none => s
    | some e =>
      if !(e.off && e.target == .sleep) || nvBusy s then s
      else
        let s := setMod { s with pd := { s.pd with entry := none } } .sleep
        let s := { s with tw := { s.tw with queue := [], notify := none, stuck := 0, wanted := false, resultReady := false,
                                            result := none, resultPhase := false },
                          pd := { s.pd with on := 0 } }
        match s.pd.waking with
        | some w => wakeSleep s w.1 w.2
        | none => s)

/-- States a source wakes from (R401). [log: DEDUCED 89] -/
def wakesFrom (src : Nat) (m : ModState) : Bool :=
  match m with
  | .standby => src != 4
  | .sleep => src != 2 && src != 9
  | _ => false

/-- The bring-up of a wake from SLEEP is in progress (R405). -/
def wakingUp (s : State) : Bool := s.ct.cur.any (fun r => r.src == 0x0B)

/-- The module state that a source finds, or the one that is being entered (R403), or left (R402). -/
def wakeState (s : State) : ModState :=
  match s.pd.entry with
  | some e => e.target
  | none => if wakingUp s then .sleep else s.pd.st

/-- A source arrives: it is recorded, and the first begins the wake (R401–R403). -/
def wakeArrives (s : State) (src awc : Nat) : State :=
  let target := wakeState s
  if !rb s .pdWakeEn 0 src || !wakesFrom src target then s
  else
    let s := { s with pd := { s.pd with
      wakeStatus := if bitN s.pd.wakeStatus src then s.pd.wakeStatus else s.pd.wakeStatus + 2 ^ src } }
    if s.pd.waking.isSome || wakingUp s then s
    else
      let awc := if src = 5 then awc else 0
      let s := { s with pd := { s.pd with waking := some (src, awc), wakeSec := s.pd.sec, wakes := inc16 s.pd.wakes,
                                          backup30 := src + 256 * modCode target + 65536 * awc } }
      if s.pd.entry.isSome then s
      else if target = .standby then wakeStandby s
      else wakeSleep s src awc

/-- Codes of hysteresis by HYS (R189, R411). -/
def awcHys (code : Nat) : Nat :=
  match code with
  | 0 => 1
  | 1 => 2
  | _ => 4

/-- What a comparator reads for the voltages of its ball and of VAON (R189): high above THR, low below THR − HYS, and
what it read before in between. -/
def awcLevel (s : State) (i ball vaon : Nat) : Bool :=
  let thr := rf s .pdAwc i 5 0
  if thr * vaon < ball * 64 then true
  else if ball * 64 < (thr - awcHys (rf s .pdAwc i 17 16)) * vaon then false
  else tget false s.pd.awc i

/-- The WAKE field of a comparator selects this edge (R409). -/
def awcWakes (s : State) (i : Nat) (level : Bool) : Bool := rb s .pdAwc i (if level then 28 else 29)

/-- AWC_CHANGED (R189, R409): two samples agree on these voltages, in mV, of the comparator's ball and of VAON. A change
that WAKE selects is a wake source (R401). -/
def execAwcChanged (t : Frac) (i : Fin 8) (ball vaon : BitVec 16) (cycles : Nat) (s : State) : Res :=
  let s := rtcAdvance (atT s t) cycles
  let level := awcLevel s i.val ball.toNat vaon.toNat
  .next (
    if !rb s .pdAwc i.val 31 || tget false s.pd.awc i.val == level then s
    else
      let s := setAwc s i.val level
      let s := if rb s .pdAwc i.val 27 then emit s 0x0D05 i.val (pay [(0, 1, b2n level)]) else s
      if awcWakes s i.val level then wakeArrives s 5 i.val else s)

/-- Sixteen rising edges of DP0_FS with no gap above 1 ms (R230): the last fifteen gaps. -/
def fsWakes (gaps : List (BitVec 16)) : Bool :=
  15 ≤ gaps.length && (gaps.drop (gaps.length - 15)).all (fun g => g.toNat ≤ 1000)

/-- The condition of a source holds as far as the state shows it (R401): an enabled comparator whose WAKE selects an edge
(R409), the alarm armed (R407), the sixteenth edge of DP0_FS (R230). -/
def wakeHolds (s : State) (src awc : Nat) (gaps : List (BitVec 16)) : Bool :=
  match src with
  | 5 => rb s .pdAwc awc 31 && rf s .pdAwc awc 29 28 != 0
  | 6 => rb s .pdRtcAlarmHi 0 31
  | 7 => fsWakes gaps
  | _ => true

/-- WAKE_SOURCE (R401). -/
def execWakeSource (t : Frac) (src : Fin 10) (awc : Fin 8) (gaps : List (BitVec 16)) (cycles : Nat) (s : State) : Res :=
  let s := rtcAdvance (atT s t) cycles
  .next (if wakeHolds s src.val awc.val gaps then wakeArrives s src.val awc.val else s)

/-- TW_WAKE_MATCH: the matcher's address in SLEEP (R341). -/
def execTwWakeMatch (t : Frac) (addr : BitVec 7) (cycles : Nat) (s : State) : Res :=
  let s := rtcAdvance (atT s t) cycles
  .next (
    if s.pd.st == .sleep && rb s .pdWakeEn 0 3 && addr.toNat == twAddr s then wakeArrives (nack s 0) 3 0 else s)

/-- TW_WAKE_KNOCK: nine SCL edges with SDA high in SLEEP (R342). -/
def execTwWakeKnock (t : Frac) (edges : Nat) (low : Bool) (cycles : Nat) (s : State) : Res :=
  let s := rtcAdvance (atT s t) cycles
  .next (if s.pd.st == .sleep && 9 ≤ edges && !low then wakeArrives s 4 0 else s)

/-- RTC_ALARM (R407), a wake source (R401). -/
def execRtcAlarm (t : Frac) (cycles : Nat) (s : State) : Res :=
  let was := s.pd.sec
  let s := rtcAdvance (atT s t) cycles
  .next (
    if !alarmDue s was then s
    else
      wakeArrives (emit (setBit s .pdRtcAlarmHi 0 31 false) 0x0D06 noUnit (pay [(0, 6, alarmAt s)])) 6 0)

/-- PERST_RELEASE: PERST_N rises; it releases the link and WAKE_N, and is a wake source (R308, R401, R406, R429). -/
def execPerstRelease (t : Frac) (cycles : Nat) (s : State) : Res :=
  let s := rtcAdvance (atT s t) cycles
  .next (wakeArrives (releaseWake { s with ct := { s.ct with perst := false } } true true) 0 0)

/-- A wake source of a module that is in STANDBY, `cycles` after the last RTC command (R401, R407). -/
def standbyWakes (s : State) (src cycles : Nat) : State :=
  if wakeState s = .standby then wakeArrives (rtcAdvance s cycles) src 0 else s

/-- A write to the command doorbell, a wake source in STANDBY (R401). -/
def ringDoorbell (s : State) (full : Bool) (v : Word) (cycles : Nat) : State :=
  let s := commandDoorbell s full v
  if full then standbyWakes s 9 cycles else s

/-- COMMAND_DOORBELL. -/
def execCommandDoorbell (t : Frac) (full : Bool) (v : Word) (cycles : Nat) (s : State) : Res :=
  .next (ringDoorbell (atT s t) full v cycles)

/-- A two-wire block write; one that is complete in STANDBY is a wake source (R401). -/
def wakingWrite (s : State) (code : Byte) (x : TwTx) (ok : Nat → Bool) (run : State → Bytes → State) : State :=
  let u := blockWrite s code x ok run
  if s.tw.late.length < u.tw.late.length then standbyWakes u 3 x.cycles else u

/-- A two-wire RESET that is in order and not refused (R349). -/
def twResets (s : State) (scope : Nat) : State :=
  if !owns s .tw 0x38 then setLastWr (ownerRefuse s .tw (0x80000000 + 0x0003) [0x38]) 1
  else startReset (setLastWr s 0) scope 7

/-- The two-wire RESET (R349); in STANDBY it wakes the module, and is applied once it is ACTIVE (R401).
[log: DEDUCED 17] -/
def execTwReset (t : Frac) (x : TwTx) (s : State) : Res :=
  .next (writeCode (atT s t) x (fun s =>
    match x.wr with
    | [] => endWrite s x 3 id
    | v :: _ =>
      if v.toNat < 0xA0 || 0xA3 < v.toNat then endWrite (nack s 2) x 3 id
      else writeBody s 0x3F x 0 1 (fun s d =>
        if s.pd.st == .standby then standbyWakes (keepLate s 0x3F d) 3 x.cycles else twResets s (v.toNat - 0xA0))))

/-- CMD (R346); while one is pending the code is NACKed, with LAST_WR 5 also during a long operation (R344). -/
def execTwCmd (t : Frac) (x : TwTx) (s : State) : Res :=
  let s := atT s t
  let u := writeCode s x (fun s =>
    if cmdPending s then nack s 1
    else wakingWrite s 0x10 x (· == 64) (fun s d => setLastWr (acceptCmd s d) 0))
  .next (if twReady s && cmdPending s then setLastWr u 5 else u)

/-- BUF_WRITE (R343, R347). -/
def execTwBufWrite (t : Frac) (x : TwTx) (s : State) : Res :=
  .next (writeCode (atT s t) x (fun s => wakingWrite s 0x12 x (3 ≤ ·) (fun s d =>
    let o := leAt d 0 2
    if 65536 < o + (d.length - 2) then setLastWr s 3
    else setLastWr { s with tw := { s.tw with buf := bufWrite s.tw.buf o (d.drop 2) } } 0)))

/-- STANDBY_WAKE_STROBE: steps 4 and 5 of R404. -/
def standbyStrobe (s : State) (x : StrobeIn) : State :=
  match s.pd.waking with
  | none => s
  | some w =>
    if s.pd.st != .standby || s.pd.job.any (·.slot.isNone) || !domOn s 7 then s
    else
      let s := startAfterWake (firstStrobe s x)
      let s := setMod { s with pd := { s.pd with waking := none } } .active
      emit s 0x0D03 noUnit (wakePayload s w.1 2 w.2)

end Sys2Proof.Machine
end

