-- ==== Sys2Proof/Machine/Pair.lean ====
section
/-! DEFINITION. The redundant pair: the Strellin link, heartbeats, digests, mirrored items, failover
(R435–R464). What the boundary does for the pair is in `Boundary`. -/

namespace Sys2Proof.Machine

open Sys2Proof

/-! ### PL_CONTROL (R440) -/

/-- An operation of PL_CONTROL: forwarded to the peer and bound as a mirrored item; bound here when no peer can
answer. RESULT is the boundary known at staging. [log: DEDUCED 84] -/
def plControl (t : Frac) (c : Cmd) (s : State) (op : Nat) (ok : State → Bool) : Res :=
  runCmd s t 0x0090 c [0x38] [(0, 0xF)] (pwN c 0 % 16 == op) (fun s n =>
    if !ok s then finish s n stPairState noIndex
    else
      let b := bindTo s
      let s := if s.sv.auth == .authenticated then holdMirror s c.src (.pair op) none
        else if s.fr.running then stage s c.src (.pair op) else applyPair s op
      finish s n stOk b)

/-- The states in which this module accepts an operation (R440). -/
def plAccepts (s : State) (op : Nat) : Bool :=
  match op with
  | 1 => s.pl.st == .ready
  | 2 => s.pl.st == .sync || s.pl.st == .paired || s.pl.st == .peerLost
  | 3 => s.pl.st == .paired
  | 4 => s.pl.st == .paired || s.pl.st == .peerLost
  | _ => false

/-- What a peer in PEER_LOST may ask of this module: as its own, and an UNPAIR or RESUME in READY (R439, R440).
[log: DEDUCED 84] -/
def plTakes (s : State) (op : Nat) : Bool := plAccepts s op || ((op == 2 || op == 4) && s.pl.st == .ready)

/-- PEER_LIVE: a heartbeat of one of the last 2 frames has come. -/
def peerLive (s : State) : Bool := s.pl.hb.any (fun h => pfnNow s ≤ h.pfn.toNat + 2)

/-- The peer is in READY, as its last heartbeat says (R443). -/
def peerReady (s : State) : Bool := peerLive s && s.pl.hb.any (fun h => h.state.toNat == pairCode .ready)

/-- PAIR: READY on both modules. -/
def execPlPair (t : Frac) (c : Cmd) (s : State) : Res :=
  plControl t c s 1 (fun s => plAccepts s 1 && peerReady s)

/-- UNPAIR. -/
def execPlUnpair (t : Frac) (c : Cmd) (s : State) : Res :=
  plControl t c s 2 (fun s => plAccepts s 2)

/-- FAILOVER. -/
def execPlFailover (t : Frac) (c : Cmd) (s : State) : Res :=
  plControl t c s 3 (fun s => plAccepts s 3)

/-- RESUME: PAIRED, or PEER_LOST with the peer in READY again. -/
def execPlResume (t : Frac) (c : Cmd) (s : State) : Res :=
  plControl t c s 4 (fun s => plAccepts s 4 && (s.pl.st == .paired || peerReady s))

/-! ### The link -/

/-- LINK_DELAY_MEASURE (R436). -/
def execLinkDelayMeasure (t : Frac) (delay : BitVec 16) (s : State) : Res :=
  let s := atT s t
  .next (if s.pl.lanes = 0 then s else { s with pl := { s.pl with delay := delay.toNat } })

/-! ### Heartbeats and digests -/

/-- The peer is lost: the decision falls at a boundary (R450–R452). -/
def losePeer (s : State) (cause : Nat) : State :=
  if pairRuns s && s.pl.loss.isNone then
    { s with pl := { s.pl with loss := some (cause, if s.pl.role = 1 then 1 else 0) } }
  else s

/-- What POLICY does after MISMATCH_N mismatches (R450); the flags are those of the frame. -/
def digestPolicy (s : State) (ownSuspect peerSuspect : Bool) : State :=
  let p := rf s .plCfg 0 31 30
  if p = 0 then s
  else if ownSuspect && !peerSuspect then { s with pl := { s.pl with yield_ := true } }
  else if peerSuspect && !ownSuspect then losePeer s 3
  else if p = 2 then
    if s.pl.role = 2 then { s with pl := { s.pl with yield_ := true } } else losePeer s 3
  else s

/-- Compare the digests of a frame (R444, R450); the peer's waits while this module has not drained the frame. -/
def compareDigest (s : State) (pfn : Nat) (peer : Word) (peerFlags : Byte) : State :=
  if s.pl.st != .paired then s
  else match s.pl.own.find? (·.1 == pfn) with
    | none => if pfn < (s.pl.own.headD (0, 0, 0)).1 then s
      else { s with pl := { s.pl with heard := (pfn, peer, peerFlags) :: s.pl.heard.take 3 } }
    | some o =>
      if s.pl.excused.contains pfn || bitN o.2.2 4 || bitN peerFlags.toNat 4 then s
      else if o.2.1 = peer.toNat then { s with pl := { s.pl with mismatchRun := 0 } }
      else
        let s := { s with pl := { s.pl with mismatches := inc16 s.pl.mismatches,
                                            mismatchRun := s.pl.mismatchRun + 1 } }
        let s := if s.pl.mismatchAt = 0 ∨ s.pl.mismatchAt - 1 + tSec ≤ nowTicks s then
            emit { s with pl := { s.pl with mismatchAt := nowTicks s + 1 } } 0x0F04 noUnit
              (pay [(0, 6, pfn), (8, 4, o.2.1), (12, 4, peer.toNat)])
          else s
        if rf s .plCfg 0 29 24 ≤ s.pl.mismatchRun then
          digestPolicy s (bitN o.2.2 0) (bitN peerFlags.toNat 0)
        else s

/-- The digests of a frame that this module has just drained, where the peer's came before (R444). -/
def compareHeard (s : State) : State :=
  let n := (s.pl.own.headD (0, 0, 0)).1
  match s.pl.heard.find? (·.1 == n) with
  | none => s
  | some e => compareDigest { s with pl := { s.pl with heard := s.pl.heard.filter (·.1 != n) } } n e.2.1 e.2.2

/-- A boundary that either module held back is split, and the frame after it is excused (R444, R448): counted once, and
reported where neither the boundary before it nor the one after it is known to be split. [log: DEDUCED 83] -/
def splitAt (s : State) (boundary how : Nat) : State :=
  let l := s.pl.excused
  if l.contains (boundary + 1) then s
  else
    let s := { s with pl := { s.pl with splits := inc16 s.pl.splits, excused := (boundary + 1) :: l.take 7 } }
    if l.contains boundary || l.contains (boundary + 2) then s
    else emit s 0x0F05 noUnit (pay [(0, 6, boundary), (6, 1, how)])

/-- DEFERRED of the peer in frame `pfn`, for the boundary before it (R443, R448). -/
def peerSplit (s : State) (pfn : Nat) (flags : Byte) : State :=
  if s.pl.st == .paired && bitN flags.toNat 3 then splitAt s (pfn - 1) 2 else s

/-- Take a heartbeat (R443, R450, R454). [log: DEDUCED 83] -/
def takeHeartbeat (s : State) (h : Heartbeat) : State :=
  let n := h.pfn.toNat
  let gap := s.pl.hb.all (fun o => o.pfn.toNat + 1 < n)
  let was := (s.pl.hb.map (fun o => o.live.toNat)).getD 0
  let fell := if s.pl.st = .paired then maskOf 12 (fun c => rb s .spChCfg c 4 && bitN was c && !bitN h.live.toNat c) else 0
  let s := { s with pl := { s.pl with hb := some h, due := n + 1, missRun := 0,
                                      soloNext := s.pl.soloNext ||| fell } }
  let s := if gap then compareDigest (peerSplit s (n - 1) h.flagsPrev) (n - 1) h.digestPrev h.flagsPrev else s
  let s := peerSplit s n h.flags
  let s := compareDigest s n h.digest h.flags
  if bitN h.flags.toNat 1 then losePeer s 2 else s

/-! ### Mirrored items -/

/-- Bind an item that both modules hold: a commit in the queue, or an item of the boundary. -/
def bindItem (s : State) (o : Owner) (b : Nat) (i : Item) : State :=
  match i with
  | .commit q =>
    { s with mx := { s.mx with queue := s.mx.queue.map (fun c => if c.qslot = q then { c with bound := b } else c) } }
  | _ => stageAt s o b i

/-- PAIR_ITEM_CANCELLED: what the item holds is freed (R446, R447). -/
def cancelMirror (s : State) (m : Mirror) (why status : Nat) : State :=
  let s := { s with pl := { s.pl with mine := s.pl.mine.filter (fun x => x.seq != m.seq) } }
  let s := match m.item with
    | .commit q => cancelCommit s q
    | .fsw _ n => finish s n stPairState noIndex
    | .rate _ =>
      let d := draw s
      endLong d.2 (d.1.setWidth 32) stPairState noIndex
    | _ => s
  emit s 0x0F06 noUnit (pay [(0, 4, m.seq), (4, 1, why), (6, 2, status)])

/-- An answer of the peer: accepted in the frame of its packet, or refused with a status (R446). -/
def takeAnswer (s : State) (a : Word × BitVec 16 × BitVec 48) : State :=
  match s.pl.mine.find? (fun m => m.seq == a.1.toNat && m.meet.isNone) with
  | none => s
  | some m =>
    if a.2.1 = 0 then
      bindItem { s with pl := { s.pl with mine := s.pl.mine.filter (fun x => x.seq != m.seq) } } m.owner
        (fnOf s (a.2.2.toNat + 2)) m.item
    else cancelMirror s m 1 a.2.1.toNat

/-- Bind a held operation whose match has come: two frames after the later staging (R447). -/
def matchMeet (s : State) (k : Nat × Nat × Nat × Nat) (peerFn : Nat) : State :=
  match s.pl.mine.find? (fun m => m.meet == some k) with
  | none => s
  | some m =>
    bindItem { s with pl := { s.pl with
        mine := s.pl.mine.filter (fun x => x.seq != m.seq),
        theirs := s.pl.theirs.filter (fun x => (x.2.1, x.2.2.1, x.2.2.2.1, x.2.2.2.2.1) != k) } }
      m.owner (Nat.max m.fn peerFn + 2) m.item

/-- The status that refuses parameter sets of the peer, 0 for none. -/
def setsStatus (s : State) (o : Owner) (sets : List (Nat × List (Nat × Word))) : Nat :=
  if !sets.all (fun e => owns s .peer (1 + e.1) && owns s o (1 + e.1)) then stNotOwner
  else if sets.any (fun e => (eng s e.1).st != .running) then stEngineState
  else if anyStaged s (fun x => match x with
      | .params q _ => q.any (fun e => sets.any (fun f => f.1 == e.1))
      | _ => false) then stOverlap
  else 0

/-- Stage parameter sets of the peer. -/
def stageSets (s : State) (b : Nat) (sets : List (Nat × List (Nat × Word))) (n : Bool) : State :=
  if sets.isEmpty then s else stageAt s .peer b (.params (sets.map (fun e => (e.1, tmk 0 e.2))) n)

/-- Check an item of the peer as the module's own, under the issuing owner's rules (R446): the status, 0 for
accepted, and the state with the item staged. -/
def acceptPeer (s : State) (i : PeerItem) (b : Nat) : State × Nat :=
  match i.body with
  | .reg off v =>
    match regAt off.toNat with
    | none => (s, stBadParam)
    | some r =>
      match regGroup r.1.name r.2 with
      | none => (s, stBadParam)
      | some g =>
        if !r.1.staged then (s, stBadParam)
        else if !(owns s .peer g && owns s i.owner g) then (s, stNotOwner)
        else (stageAt s .peer b (.reg off.toNat v), 0)
  | .commit l sets =>
    if !(owns s .peer 0 && owns s i.owner 0) then (s, stNotOwner)
    else if setsStatus s i.owner sets != 0 then (s, setsStatus s i.owner sets)
    else match mixAccept s .peer (l.take 8 ++ toLE 6 (fnOf s (leAt l 8 6)) ++ l.drop 14) with
      | .error e => (s, e)
      | .ok p => (stageSets (bindItem p.1 .peer b (.commit p.2)) b sets false, 0)
  | .params sets n =>
    if setsStatus s i.owner sets != 0 then (s, setsStatus s i.owner sets) else (stageSets s b sets n, 0)
  | .rate c =>
    if !(owns s .peer 0x34 && owns s i.owner 0x34) then (s, stNotOwner)
    else if 6 ≤ c.toNat then (s, stBadParam)
    else
      let r := admitRequest s (testBudget s c.toNat) (recipesFit s c.toNat)
      if r.1 != 0 then (noteRefusal s r.1 r.2, stAdmission)
      else if (strUnfit s c.toNat).isSome then (s, stAdmission)
      else (stageAt s .peer b (.rate c.toNat), 0)
  | .fsw v =>
    if !(owns s .peer 0x29 && owns s i.owner 0x29) then (s, stNotOwner)
    else if !within 128 512 v.toNat then (s, stBadParam)
    else (stageAt s .peer b (.fsw v.toNat unbound), 0)
  | .pl op => if plTakes s op.toNat then (stageAt s .peer b (.pair op.toNat), 0) else (s, stPairState)
  | .meet .. => (s, 0)

/-- Take one item of a packet: in order, once, answered (R437, R446, R447). -/
def takeItem (s : State) (i : PeerItem) : State :=
  if i.seq.toNat ≤ s.pl.seqIn then s
  else
    let s := { s with pl := { s.pl with seqIn := i.seq.toNat } }
    match i.body with
    | .meet k u a b p =>
      let key := (k.val, u.toNat, a.toNat, b.toNat)
      let fn := fnOf s p.toNat
      let s := { s with pl := { s.pl with
        theirs := s.pl.theirs ++ [(i.seq.toNat, k.val, u.toNat, a.toNat, b.toNat, fn)] } }
      matchMeet s key fn
    | _ =>
      let p := acceptPeer s i (s.fr.fn + 2)
      let l := p.1.pl.answers ++ [(i.seq.toNat, p.2, pfnNow s)]
      { p.1 with pl := { p.1.pl with answers := l } }

/-- The fields of a heartbeat (R443). -/
def heartbeatAt (b : Bytes) : Heartbeat :=
  { pfn := BitVec.ofNat 48 (leAt b 0 6), flags := BitVec.ofNat 8 (leAt b 6 1), state := BitVec.ofNat 8 (leAt b 7 1),
    digest := BitVec.ofNat 32 (leAt b 8 4), digestPrev := BitVec.ofNat 32 (leAt b 12 4),
    flagsPrev := BitVec.ofNat 8 (leAt b 16 1), live := BitVec.ofNat 16 (leAt b 18 2),
    rec_ := BitVec.ofNat 48 (leAt b 20 6), level := BitVec.ofNat 16 (leAt b 26 2), ack := BitVec.ofNat 32 (leAt b 28 4) }

/-- Answers that the peer has: it sends their items no longer (R438). -/
def dropAnswers (s : State) (items : List PeerItem) : State :=
  { s with pl := { s.pl with answers := s.pl.answers.filter (fun a => items.any (fun i => i.seq.toNat ≤ a.1)) } }

/-- What the heartbeat acknowledges is not sent again (R438). -/
def takeAck (s : State) (ack : Nat) : State :=
  { s with pl := { s.pl with acked := ack, told := s.pl.told.filter (fun i => ack < i.seq.toNat) } }

/-- PAIR_PACKET (R383, R437, R438); the input block serves the strobe after the frame of its packet (R445). -/
def execPairPacket (t : Frac) (p : Packet) (s : State) : Res :=
  let s := atT s t
  .next (
    if s.sv.auth != .authenticated then s
    else if !p.tagOk then { s with sv := { s.sv with tagFails := inc8 s.sv.tagFails } }
    else
      let hb := heartbeatAt p.hb
      let s := { s with sv := { s.sv with rxSeq := p.seq.toNat + 1 }, pl := { s.pl with peerBits := p.peerBits.toNat } }
      let s := dropAnswers (takeAck s hb.ack.toNat) p.items
      let s := if s.pl.role = 2 ∧ s.pl.st ≠ .paired ∧ s.pl.st ≠ .peerLost then { s with pl := { s.pl with ofs := p.ofs } }
        else s
      let s := if !(pairRuns s && hb.pfn.toNat < s.pl.due) then takeHeartbeat s hb
        else if bitN hb.flags.toNat 1 then losePeer s 2 else s
      let s := each p.answers s takeAnswer
      let s := each p.items s takeItem
      if hb.pfn.toNat = pfnNow s then { s with pl := { s.pl with inp := p.inputs } } else s)

/-- HEARTBEAT_MISSED (R443, R450). [log: DEDUCED 83] -/
def execHeartbeatMissed (t : Frac) (pfn : BitVec 48) (s : State) : Res :=
  let s := atT s t
  .next (
    if !pairRuns s || pfn.toNat < s.pl.due then s
    else
      let s := { s with pl := { s.pl with missed := inc16 s.pl.missed, missRun := s.pl.missRun + 1,
                                          due := pfn.toNat + 1 } }
      let s := emit s 0x0F03 noUnit (pay [(0, 6, pfn.toNat), (8, 2, s.pl.missed)])
      if 2 ≤ s.pl.missRun then losePeer s 1 else s)

/-! ### SYNC (R442) -/

/-- State code of an engine, for the comparison of R442. -/
def engCode : EngState → Nat
  | .empty => 0
  | .running => 1
  | .failed => 2
  | .testing => 3
  | .unavailable => 4

/-- [log: DEDUCED 81] -/
def engineKey (s : State) (e : Nat) : Nat × Word × Word :=
  let x := tget Engine.reset s.fx.eng e
  match x.recipe with
  | some r => (engCode x.st, BitVec.ofNat 32 r.id, BitVec.ofNat 32 r.ver)
  | none => (engCode x.st, 0, 0)

/-- [log: DEDUCED 81] -/
def envKey (s : State) (c : Nat) : Word × Word × Bool :=
  match (tget SpCh.reset s.sp.ch c).env with
  | some e => (BitVec.ofNat 32 e.id, BitVec.ofNat 32 e.ver, e.locked)
  | none => (0, 0, false)

/-- Groups of R446 whose PEER bit R442 asks for: every group with frame-staged items. -/
def mirroredGroups : List Nat := List.range 0x36

/-- The first reason of R442 that applies, with its engine or channel. [log: DEDUCED 81] -/
def syncFault (s : State) (v : PeerView) : Option (Nat × Nat) :=
  if v.rate.toNat != s.fr.rate then some (1, 0xFF)
  else if v.fsw.toNat != s.ck.fsw then some (2, 0xFF)
  else if !v.phaseLock then some (3, 0xFF)
  else match (List.range 16).find? (fun e => v.engines[e]? != some (engineKey s e)) with
    | some e => some (4, e)
    | none =>
      match (List.range 12).find? (fun c => v.envs[c]? != some (envKey s c)) with
      | some c => some (5, c)
      | none =>
        if mirroredGroups.all (fun g => owns s .peer g && (v.peerBits[g]?).getD false) then none
        else some (6, 0xFF)

/-- What the PRIMARY copies (R442): the crosspoint table, every OPEN or RANGED parameter word that is not structural, and
the registers of the mirrored groups. -/
def copyOf (s : State) : SyncCopy :=
  { xp := s.mx.xp.filterMap (fun e => if e.2.cur = 0 then none else some (e.1, e.2.cur)),
    params := (List.range 16).flatMap (fun e => match (eng s e).recipe with
      | none => []
      | some r => (captureWords (some r)).map (fun w => (e, w, tget 0 r.words w))),
    regs := (List.range 0x40000).filterMap (fun i => match regAt (4 * i) with
      | none => none
      | some r =>
        if (regGroup r.1.name r.2).any (fun g => mirroredGroups.contains g && owns s .peer g) then
          some (4 * i, reg s r.1.name r.2)
        else none) }

/-- SYNC_CHECK_RETRY: the PRIMARY's checks, at the entry of SYNC and every second after (R442). -/
def execSyncCheckRetry (t : Frac) (v : PeerView) (s : State) : Res :=
  let s := atT s t
  .next (
    if s.pl.st != .sync || s.pl.role != 1 || s.pl.copying then s
    else match syncFault s v with
      | some r => emit s 0x0F07 noUnit (pay [(0, 1, r.1), (1, 1, r.2)])
      | none => push { s with pl := { s.pl with copying := true } } (.copy (copyOf s)))

/-- A parameter word of the copy. -/
def copyParam (s : State) (p : Nat × Nat × Word) : State :=
  let g := tget Engine.reset s.fx.eng p.1
  match g.recipe with
  | none => s
  | some r => setEng s p.1 { g with recipe := some { r with words := tput 0 r.words p.2.1 p.2.2 } }

/-- A register of the copy: a frame-staged one is an item of the boundary that ends the copy. -/
def takeReg (s : State) (r : Nat × Word) : State :=
  match regAt r.1 with
  | none => s
  | some w => if w.1.staged then stage s .peer (.reg r.1 r.2) else setReg s w.1.name w.2 r.2

/-- Put the PRIMARY's configuration in place on the standby. -/
def takeCopy (s : State) (x : SyncCopy) : State :=
  let old := tmapv Xp.none (fun _ e => { e with cur := 0, lost := false }) s.mx.xp
  let new := x.xp.foldl (fun m e => tmod Xp.none m e.1 (fun v => { v with cur := e.2 })) old
  let s := { s with mx := { s.mx with xp := tmapv Xp.none (fun _ e => freeXp e) new } }
  refreshCost (each x.regs (each x.params s copyParam) takeReg)

/-- SYNC_COPY_DONE: both modules enter PAIRED at the boundary bound for it (R442). -/
def execSyncCopyDone (t : Frac) (x : SyncCopy) (s : State) : Res :=
  let s := atT s t
  .next (
    if s.pl.st != .sync || (s.pl.role = 1 && !s.pl.copying) then s
    else
      let s := if s.pl.role = 2 then takeCopy s x else s
      stage { s with pl := { s.pl with copying := false } } .peer (.pair 5))

/-- RENDEZVOUS_TIMEOUT: no match within 10 s (R447). -/
def execRendezvousTimeout (t : Frac) (seq : Word) (s : State) : Res :=
  let s := atT s t
  .next (match s.pl.mine.find? (fun m => m.seq == seq.toNat && m.meet.isSome) with
    | some m => cancelMirror s m 2 0
    | none => s)

/-- RELAY_DELAY_EXPIRY (R451). -/
def execRelayDelayExpiry (t : Frac) (s : State) : Res :=
  let s := atT s t
  .next { s with pl := { s.pl with relayWait := false } }

/-- SL_FAILOVER_N falls (R455). -/
def execFailoverPinLow (t : Frac) (s : State) : Res :=
  let s := atT s t
  .next { s with pl := { s.pl with pinLow := true } }

/-- SL_FAILOVER_N rises (R455). -/
def execFailoverPinHigh (t : Frac) (s : State) : Res :=
  let s := atT s t
  .next { s with pl := { s.pl with pinLow := false } }

/-! ### Peer reset (R419, R462) -/

/-- PEER_RESET (R464). -/
def peerResetEvent (s : State) (outcome scope : Nat) : State :=
  emit s 0x0F0B noUnit (pay [(0, 1, outcome), (1, 1, scope)])

/-- PL_PEER_CMD (R462); nothing crosses the link before it is authenticated (R436). -/
def peerCmd (s : State) (v : Word) : State :=
  let scope := fld v 1 0
  if !bit v 31 || scope = 0 || scope = 3 || s.pl.lanes = 0 || s.sv.auth != .authenticated then s else peerResetEvent (push s (.peerReset scope)) 1 scope

/-- PEER_RESET_SEND: a write of PL_PEER_CMD. -/
def execPeerResetSend (t : Frac) (src : Owner) (v : Word) (s : State) : Res :=
  .next (directWrite (atT s t) src 0x78018 0x38 (fun s => peerCmd s v))

/-- PEER_RESET_REQUEST: accepted only when authenticated and the peer owns SYSTEM (R419). -/
def execPeerResetRequest (t : Frac) (scope : BitVec 2) (s : State) : Res :=
  let s := atT s t
  let n := scope.toNat
  .next (
    if s.sv.auth == .authenticated && owns s .peer 0x38 && (n == 1 || n == 2) then
      startReset (peerResetEvent s 2 n) n 0x0A
    else peerResetEvent (ownerRefuse s .peer (0x80000000 + 0x0003) [0x38]) 3 n)

end Sys2Proof.Machine
end

