-- ==== Sys2Proof/Machine/Repair.lean ====
section
/-! DEFINITION. Repair in service: a half leaves, is tested and returns; firmware activation (R379, R457–R459). -/

namespace Sys2Proof.Machine

open Sys2Proof

/-- HALF_CHANGED: 1 out, 2 in, 3 out cancelled (R464). -/
def halfChanged (s : State) (h what b : Nat) : State :=
  emit s 0x0F09 h (pay [(0, 1, what), (4, 4, b)])

/-- An engine of the half holds a recipe or has a load staged (R103). -/
def halfLoaded (s : State) (h : Nat) : Bool :=
  (halfEngines h).any (fun e => (eng s e).recipe.isSome || anyStaged s (isSwap e))

/-- B of the other half alone. -/
def remainingBudget (s : State) (h : Nat) : Nat :=
  budgetFor s s.fr.rate (h != 0 && s.mx.inA) (h != 1 && s.mx.inB)

/-- B that an OUT is admitted against: none while an OUT of the other half is staged. [log: DEDUCED 87] -/
def outBudget (s : State) (h : Nat) : Nat := if outStaged s (1 - h) then 0 else remainingBudget s h

/-- MX_HALF: the checks its three operations share, DOMAIN_OFF before the command's own (R486). [log: DEDUCED 87] -/
def mxHalf (t : Frac) (c : Cmd) (s : State) (op : Nat) (k : State → Nat → Nat → State) : Res :=
  let h := pwN c 0 % 2
  runCmd s t 0x0011 c [0] [(0, 0x301)] (fldN (pwN c 0) 9 8 == op) (fun s n =>
    if !domOn s (domMXA + h) then finish s n stDomainOff noIndex else k s n h)

def halfOf (h : Nat) : Half := if h = 0 then .a else .b

/-- MX_HALF OUT (R457). -/
def execMxHalfOut (t : Frac) (c : Cmd) (s : State) : Res :=
  mxHalf t c s 1 (fun s n h =>
    let r := admitRequest s (outBudget s h) true
    if !halfIn s h then finish s n stHalfState noIndex
    else if halfLoaded s h then finish s n stEnginesLoaded noIndex
    else if r.1 != 0 then finish (noteRefusal s r.1 r.2) n stAdmission (refusedResult r.2)
    else
      let b := bindTo s
      finish (stage s c.src (.halfOut (halfOf h))) n stOk b)

/-- No test allows the half to enter service (R459). -/
def untested (s : State) (h : Nat) : Bool :=
  let t := halfTest s h
  !t.2.2.2 || t.2.1 < 3 || t.1 == 3

/-- MX_HALF IN (R459). -/
def execMxHalfIn (t : Frac) (c : Cmd) (s : State) : Res :=
  mxHalf t c s 2 (fun s n h =>
    if halfIn s h || untested s h then finish s n stHalfState noIndex
    else
      let b := bindTo s
      finish (stage s c.src (.halfIn (halfOf h))) n stOk b)

/-- A test of half `h` runs. -/
def halfTesting (s : State) (h : Nat) : Bool :=
  match s.hl.long with
  | some (.halfTest x) => halfNum x == h
  | _ => false

/-- MX_HALF TEST (R458). -/
def execMxHalfTest (t : Frac) (c : Cmd) (s : State) : Res :=
  mxHalf t c s 3 (fun s n h =>
    if halfIn s h then finish s n stHalfState noIndex
    else startLong s 0x0011 n (.halfTest (halfOf h)))

/-- HALF_TEST_DONE (R458). -/
def execHalfTestDone (t : Frac) (us : Word) (failed : Word) (memBad : Bool) (s : State) : Res :=
  let s := atT s t
  .next (match s.hl.long with
    | some (.halfTest x) =>
      let h := halfNum x
      endLong (halfTested (zeroHalf s h) h failed memBad) us stOk 0
    | _ => s)

/-- The OUT at its boundary (R457, steps 2 and 3): B before and after, or cancelled. -/
def applyHalfOut (s : State) (h : Nat) : State × Bool :=
  let b := remainingBudget s h
  let c := costNow s
  if !halfIn s h then (s, false)
  else if c.1 > b || c.2 > b / 4 || halfLoaded s h then (halfChanged s h 3 s.mx.budget, false)
  else
    let s := { s with mx := if h = 0 then { s.mx with inA := false } else { s.mx with inB := false } }
    let s := enginesOut (lanesOut s h) h
    let t := halfTest s h
    (refreshCost (setHalfTest s h (t.1, t.2.1, t.2.2.1, false)), true)

/-- The IN at its boundary (R459): whether it enters, and whether a retired lane returned. A half that is under test by then
stays out. [log: DEDUCED 87] -/
def applyHalfIn (s : State) (h : Nat) : State × Bool × Bool :=
  if halfIn s h || !domOn s (domMXA + h) || untested s h || halfTesting s h then (s, false, false)
  else
    let back := s.mx.healed.any (fun l => l / 32 == h)
    let s := { s with mx := { s.mx with healed := s.mx.healed.filter (fun l => l / 32 != h) } }
    (halfEnters s h, true, back)

/-! ### Firmware activation (R379) -/

/-- Step 1 of R379; in recovery a COLD reset follows (R431). [log: DEDUCED 88] -/
def applyFwActivate (s : State) : State :=
  let b := !s.sv.slotB
  let s := { s with sv := { s.sv with slotB := b, fwRun := .trial } }
  let s := emit s 0x0C06 (b2n b) (pay [(0, 4, (fwSlot s b).version)])
  startReset s (if s.ct.phase = .recovery then scCold else scControl) 6

/-- SV_FW_ACTIVATE (R378, R379); while no strobes run, the boundary is the end of this step. -/
def execSvFwActivate (t : Frac) (c : Cmd) (s : State) : Res :=
  runCmd s t 0x0081 c [0x38] [] true (fun s n =>
    if s.sv.fwRun == .trial || (fwSlot s (!s.sv.slotB)).st != .valid then finish s n stBadContainer noIndex
    else
      let b := bindTo s
      let s := finish s n stOk b
      if s.fr.running then stage s c.src .fwActivate else applyFwActivate s)

end Sys2Proof.Machine
end

