-- ==== Sys2Proof/Machine/Boundary.lean ====
section
/-! DEFINITION. The drain and the boundary window, the pre-strobe mark and the end of an abort (R20, R31–R40,
R68, R71, R102, R304, R306, R398, R448–R454). -/

namespace Sys2Proof.Machine

open Sys2Proof

/-! ### Items of the boundary (R31–R36) -/

/-- Take the items bound to this boundary that satisfy `p` out of what is staged, in arbiter order. -/
def takeDue (s : State) (p : Item → Bool) : State × List Staged :=
  let due (i : Staged) : Bool := i.bound ≤ s.fr.fn && p i.item
  ({ s with fr := { s.fr with staged := s.fr.staged.filter (fun i => !due i) } },
   arbiterOrder (tieRank s) (s.fr.staged.filter due))

/-- Apply each of them. -/
def applyDue (s : State) (p : Item → Bool) (f : State → Staged → State) : State :=
  let r := takeDue s p
  each r.2 r.1 f

/-- A scene capture holds commits and parameter sets (R306). -/
def capturing (s : State) : Bool := match s.hl.long with
  | some (.sceneCapture ..) => true
  | _ => false

def isParams : Item → Bool
  | .params .. => true
  | _ => false

/-- A register item of the offsets that satisfy `p`. -/
def regItem (p : Nat → Bool) : Item → Bool
  | .reg off _ => p off
  | _ => false

/-- Items bound to a boundary before `n` move to it, ahead of the items bound there (R34, R39). -/
def moveItems (s : State) (n : Nat) (p : Staged → Bool) : State :=
  let go (i : Staged) : Bool := i.bound < n && p i
  let moved := (s.fr.staged.filter go).map (fun i => { i with bound := n })
  { s with
    fr := { s.fr with staged := moved ++ s.fr.staged.filter (fun i => !go i) },
    mx := { s.mx with queue := s.mx.queue.map (fun c => if c.bound < n then { c with bound := n } else c) } }

/-- Tag of the commit at the head of the queue, 0 if none. -/
def headTag (s : State) : Nat := (s.mx.queue.head?.map (·.tag)).getD 0

/-- The items of boundary `n` were held back: DEFERRED of the heartbeat, and a split of the pair (R39, R448). -/
def noteDeferred (s : State) (n : Nat) : State :=
  let s := { s with pl := { s.pl with deferredAt := n :: s.pl.deferredAt.take 3 } }
  if s.pl.st = .paired then splitAt s (pfnOf s n) 1 else s

/-- A deferral (R34, R306): counted, flagged, and marked for the heartbeat. -/
def countDeferral (s : State) : State :=
  noteDeferred { s with fr := { s.fr with deferCount := inc32 s.fr.deferCount, fDeferred := true } } s.fr.fn

/-- COMMIT_DEFERRED at a FRAC: 1 the pre-strobe mark, 2 a scene capture. -/
def deferredEvent (s : State) (moved cause : Nat) (frac : Frac) : State :=
  emitAt s 0x0103 noUnit s.fr.fn frac (pay [(0, 4, headTag s), (4, 2, moved), (6, 4, s.fr.deferCount), (10, 1, cause)])

/-- What a capture holds back at this boundary (R306): parameter sets, and the commit it would apply (R33, R65). -/
def captureHolds (s : State) : State :=
  let n := (s.fr.staged.filter (fun i => i.bound ≤ s.fr.fn && isParams i.item)).length
    + (headBound s s.fr.fn).toList.length
  if !capturing s || n = 0 then s
  else
    let told := s.hl.captureTold
    let s := countDeferral s
    let s := if told then s else deferredEvent { s with hl := { s.hl with captureTold := true } } n 2 s.now
    moveItems s (s.fr.fn + 1) (fun i => isParams i.item)

/-! ### Frame-staged registers -/

/-- Whether a write of a frame-staged register takes part in the order of R36: it does not when it leaves the
whole register unchanged. -/
def takesPart (s : State) (n : RegName) (i : Nat) (w : Word) : Bool :=
  let old := reg s n i
  regAccept n i old w && clockAccept s n i w
    && !(n == .aqOutCfg && bit old 27 != bit w 27 && (outp s i).st != .shunted)
    && (!spRegs.contains n || (match (spCh s i).env with
      | some e => !e.locked || asStrict e n old w
      | none => true))

/-- A change of MODE restarts a generator (R74). -/
def applyGen (s : State) (g : Nat) (w : Word) : State :=
  let same : Bool := rf s .mxGenCfg g 1 0 == fld w 1 0
  let s := setReg s .mxGenCfg g w
  if same then s else { s with mx := { s.mx with gen := tput Gen.reset s.mx.gen g Gen.reset } }

/-- SCALE 0b11 leaves SCALE as it is (R75). -/
def sinkCfgValue (old w : Word) : Word := if fld w 1 0 = 3 then (w &&& ~~~(3 : Word)) ||| (old &&& 3) else w

/-- A frame-staged register at its boundary: register `n`, index `i`, the value written and that value merged. -/
def applyReg (s : State) (late : List (Nat × Bool)) (n : RegName) (i : Nat) (v w : Word) : State :=
  match n with
  | .mxGenCfg => applyGen s i w
  | .mxSinkCfg => setReg s n i (sinkCfgValue (reg s n i) w)
  | .fxEngBypass => applyBypass s i v
  | .psChCtrl => applyChCtrl s i v
  | .spCtrl => each (maskChannels v.toNat) s peakClear
  | .spChCfg | .spChPilot | .spLimT | .spLimX | .spLimV | .spLimZ | .spModRe | .spModTh1 | .spModTh2
  | .spModX | .spModX2 | .spModTime | .spChCtrl => spWrite s i n v
  | .aiChCfg => applyAiChCfg s i w
  | .aiPdmCfg => setReg { s with ai := { s.ai with pdmConf := true } } n i w
  | .aiPdmCh => applyAiPdmCh s i w
  | .aiBiasCfg => applyBiasCfg s w
  | .aiJack => applyAiJack s i w
  | .aqOutCfg => applyOutCfg s i w
  | .aqHpJack => applyHpJack s i w
  | .dpCtrl => applyDpCtrl s i v
  | .dpRxMask => maskComplete s i true v (late.contains (i, true))
  | .dpTxMask => maskComplete s i false v (late.contains (i, false))
  | .ckSelCfg | .ckPllsCfg | .ckMclkCfg | .ckFpCfg | .ckFpOfs | .ckRefCfg => applyCk s n i w
  | _ => setReg s n i w

/-- What has been written so far at a boundary: the owner, the opcode of a command (0 for a register write), the tag that
WRITE_SUPERSEDED carries of it, and the setting group. -/
structure Written where
  owner : Owner
  op : Nat
  tag : Nat
  group : Nat
  deriving DecidableEq, Repr

/-- A later item overwrites what an earlier one wrote: the same register; of commands, the same group; and SP_ENV_CLEAR
every SP register of its channel, as a write of one overwrites what the clear gave it (R161). [log: DEDUCED 101] -/
def Written.over (m x : Written) : Bool :=
  x.group == m.group &&
    (if m.op = 0 then (x.op == 0 && x.tag == m.tag) || x.op == 0x31 else x.op != 0 || m.op == 0x31)

/-- An item in its turn: what another owner wrote and it overwrites is superseded (R36, R304).
[log: DESIGN CHOICE 91] -/
def overtake (a : State × List Written) (m : Written) : State × List Written :=
  (each (a.2.filter (fun x => m.over x && x.owner != m.owner)) a.1 (fun s x => superseded s x.owner m.owner x.tag x.group),
   m :: a.2.filter (fun x => !m.over x))

/-- One register item in its turn; the list holds what has been written so far at the boundary (R36, R304). -/
def regTurn (late : List (Nat × Bool)) (a : State × List Written) (i : Staged) : State × List Written :=
  match i.item with
  | .reg off v =>
    match regAt off with
    | none => a
    | some p =>
      let n := p.1.name
      let w := mergeReg n p.2 (reg a.1 n p.2) v
      let part := takesPart a.1 n p.2 w
      let a := if part && n != .spCtrl then
          overtake a { owner := i.owner, op := 0, tag := off, group := (regGroup n p.2).getD 0 }
        else a
      (if part || spRegs.contains n then applyReg a.1 late n p.2 v w else a.1, a.2)
  | _ => a

/-- The register items bound to the boundary at the offsets that satisfy `p`. -/
def applyRegs (s : State) (late : List (Nat × Bool)) (p : Nat → Bool) : State :=
  let r := takeDue s (regItem p)
  (r.2.foldl (regTurn late) (r.1, [])).1

def mxOffset (off : Nat) : Bool := 0x10000 ≤ off && off < 0x20000
def bypassOffset (off : Nat) : Bool := 0x20000 ≤ off && off < 0x30000

/-! ### The steps of R68 -/

/-- What step 1 of R68 does: B before and after with the cause of each change, and HALF_CHANGED to raise with B after
the change it reports. -/
structure StepOne where
  budgets : List (Nat × Nat × Nat)
  halves : List (Nat × Nat × Nat)
  deriving DecidableEq, Repr

/-- A half or rate item of step 1. -/
def stepItem (a : State × StepOne) (i : Staged) : State × StepOne :=
  let s := a.1
  let old := s.mx.budget
  let note (t : State) (cause : Nat) (hs : List (Nat × Nat)) : State × StepOne :=
    (t, { budgets := a.2.budgets ++ [(old, t.mx.budget, cause)], halves := a.2.halves ++ hs.map (fun h => (h.1, h.2, t.mx.budget)) })
  match i.item with
  | .halfOut h =>
    let r := applyHalfOut s (halfNum h)
    if r.2 then note r.1 2 [(halfNum h, 1)] else (r.1, a.2)
  | .halfIn h =>
    let r := applyHalfIn s (halfNum h)
    if r.2.1 then note r.1 (if r.2.2 then 5 else 3) [(halfNum h, 2)] else (r.1, a.2)
  | .rate code => note (applyRate s code) 1 []
  | _ => a

def isStepOne : Item → Bool
  | .halfOut _ | .halfIn _ | .rate _ => true
  | _ => false

/-- Halves powered again after a WARM reset enter service at the first boundary (R430). -/
def enterReturned (s : State) : State :=
  each (s.mx.returned.filter (fun h => domOn s (domMXA + h))) { s with mx := { s.mx with returned := [] } } halfEnters

/-- Step 1 of R68: halves that return under R430, retirements, halves and the rate. -/
def stepOne (s : State) : State × StepOne :=
  let u := enterReturned s
  let v := retireLanes u
  let r := takeDue v isStepOne
  r.2.foldl stepItem (r.1, { budgets := [(s.mx.budget, u.mx.budget, 3), (u.mx.budget, v.mx.budget, 4)], halves := [] })

/-- B fell over step 1. -/
def budgetFell (o : StepOne) (s : State) : Bool :=
  match o.budgets with
  | [] => false
  | b :: _ => s.mx.budget < b.1

/-- The head commit, when it is due (R33, R65, R306). -/
def headDue (s : State) : Option Commit := if capturing s then none else headBound s s.fr.fn

/-- What step 2 of R68 did with the head commit. -/
inductive HeadDone where
  | nothing
  | applied (c : Commit)
  | cancelled (l : List Commit)
  deriving DecidableEq, Repr

/-- Step 2 of R68, with the entries found damaged as the head commit is applied (R51). -/
def stepTwo (s : State) (fell : Bool) (bad : List Damage) : State × HeadDone :=
  match headDue s with
  | none => (s, .nothing)
  | some c =>
    if fell && failsAfter s [c] then (dropCommits s (queueSlots s), .cancelled s.mx.queue)
    else (applyCommit (each bad s markLost) c, .applied c)

/-- Step 4 of R68: the commits cancelled. -/
def stepFour (s : State) (fell : Bool) : State × List Commit :=
  let l := if fell then firstFailing s [] s.mx.queue else []
  if l.isEmpty then (s, []) else (dropCommits s (l.map (·.qslot)), l)

/-- The parameter sets of a scene are applied at the boundary of its commit, ahead of the others (R307). -/
def sceneParams (s : State) (c : Commit) : State :=
  match c.scene with
  | none => s
  | some r =>
    if r.sets.isEmpty then s
    else { s with fr := { s.fr with
      staged := { owner := c.owner, bound := s.fr.fn, item := .params r.sets false, at_ := 0 } :: s.fr.staged } }

/-- The events of steps 1 and 2 (R44, R68): one BUDGET_CHANGED for each cause that changed B, in the order in which they
did. [log: DESIGN CHOICE 104] -/
def headEvents (s : State) (o : StepOne) (d : HeadDone) : State :=
  let s := each o.budgets s (fun s b => budgetEvent s b.1 b.2.1 b.2.2)
  let s := each o.halves s (fun s h => halfChanged s h.1 h.2.1 h.2.2)
  match d with
  | .nothing => s
  | .applied c => sceneParams (commitApplied s c) c
  | .cancelled l => cancelledEvents s l 1 2

/-- The mix at a boundary: R51, then the steps of R68 with their events. The scene of the commit applied is
given back. -/
def mixBoundary (s : State) (late : List (Nat × Bool)) (bad : List Damage) : State × Option SceneRef :=
  let s := captureHolds (freeDamaged s)
  let one := stepOne s
  let fell := budgetFell one.2 one.1
  let two := stepTwo one.1 fell bad
  let s := applyRegs two.1 late mxOffset
  let shed := shedFit s
  let four := stepFour shed.1 fell
  let s := headEvents four.1 one.2 two.2
  let s := cancelledEvents (shedEvents s shed.2) four.2 1 2
  (evalSinks s, match two.2 with
    | .applied c => c.scene
    | _ => none)

/-! ### Engine items (R102) and the other blocks -/

/-- The setting groups that an item of a command writes at its boundary, and the command's opcode (R36).
[log: DEDUCED 101] -/
def itemSettings (s : State) : Item → List Nat × Nat
  | .swap e _ => ([1 + e], 0x20)
  | .clear e => ([1 + e], 0x21)
  | .env l => (l.map (fun x => 0x11 + x.1), 0x30)
  | .envClear m => ((maskChannels m).map (0x11 + ·), 0x31)
  | .fsw .. => (if fswBusy s then [] else [0x29], 0x41)
  | _ => ([], 0)

/-- One item of a command in its turn (R36, R304). -/
def cmdTurn (f : State → Staged → State) (a : State × List Written) (i : Staged) : State × List Written :=
  let q := itemSettings a.1 i.item
  let a := q.1.foldl (fun a g => overtake a { owner := i.owner, op := q.2, tag := 0x80000000 + q.2, group := g }) a
  (f a.1 i, a.2)

/-- Apply the due items of commands in arbiter order. -/
def applyCmds (s : State) (p : Item → Bool) (f : State → Staged → State) : State × List Written :=
  let r := takeDue s p
  r.2.foldl (cmdTurn f) (r.1, [])

def isEngineItem : Item → Bool
  | .swap .. | .clear _ => true
  | _ => false

def applyEngineItem (s : State) (i : Staged) : State :=
  match i.item with
  | .swap e r => applySwap s e r
  | .clear e => applyClear s e
  | _ => s

/-- One item of parameter sets in its turn, with the words written so far at the boundary. -/
def paramsTurn (a : State × List (Nat × Nat × Owner)) (i : Staged) : State × List (Nat × Nat × Owner) :=
  match i.item with
  | .params sets notify => applyParams a.1 i.owner sets notify a.2
  | _ => a

/-- Step 3 of R102. -/
def applyAllParams (s : State) : State :=
  if capturing s then s
  else
    let r := takeDue s isParams
    (r.2.foldl paramsTurn (r.1, [])).1

/-- The engines at a boundary (R102, R307). -/
def engineBoundary (s : State) (late : List (Nat × Bool)) (scene : Option SceneRef) : State :=
  let s := applyAllParams (applyCmds (failEngines s) isEngineItem applyEngineItem).1
  let s := match scene with
    | some r => sceneApplied s r
    | none => s
  applyRegs s late bypassOffset

def isEnvLoad : Item → Bool
  | .env _ => true
  | _ => false

def isSetting : Item → Bool
  | .reg .. | .envClear _ | .fsw .. => true
  | _ => false

def applyEnvItem (s : State) (i : Staged) : State :=
  match i.item with
  | .env l => applyEnv s l
  | .envClear m => applyEnvClear s m
  | .fsw v n => applyFsw s v n
  | _ => s

def isStop : Item → Bool
  | .ctxStop _ => true
  | _ => false

def isStart : Item → Bool
  | .groupStart .. => true
  | _ => false

def applyStreamItem (s : State) (i : Staged) : State :=
  match i.item with
  | .ctxStop k => applyStop s k
  | .groupStart g _ => applyGroupStart s g
  | _ => s

def applyDomainItem (s : State) (i : Staged) : State :=
  match i.item with
  | .domain up down n => applyDomain s up down n
  | .enterState => enterStop s
  | _ => s

/-- ACTIVE or QUIET (R398). -/
def followState (s : State) : State :=
  if s.pd.st != .active && s.pd.st != .quiet then s
  else
    let some_ := allCh.any (fun c => (psCh s c).st == .quiet || (psCh s c).st == .domainOff)
    let busy := allCh.any (fun c => (psCh s c).st == .starting || (psCh s c).st == .run || (psCh s c).st == .stopping)
    setMod s (if some_ && !busy then .quiet else .active)

/-- One setting in its turn: a register, or what SP_ENV_CLEAR or SET_FSW staged. -/
def settingTurn (late : List (Nat × Bool)) (a : State × List Written) (i : Staged) : State × List Written :=
  match i.item with
  | .reg .. => regTurn late a i
  | _ => cmdTurn applyEnvItem a i

/-- Envelope loads first (R161), then every other setting in arbiter order (R36). -/
def settingBoundary (s : State) (late : List (Nat × Bool)) : State :=
  let env := applyCmds s isEnvLoad applyEnvItem
  let r := takeDue env.1 isSetting
  let s := (r.2.foldl (settingTurn late) (r.1, env.2)).1
  if s.ck.gap.isSome then s else pllFollowAll s

/-- The stream items of a boundary: halts (R335), stops, then group starts (R334). [log: DEDUCED 80] -/
def streamBoundary (s : State) : State :=
  applyDue (applyDue (applyHalts s) isStop applyStreamItem) isStart applyStreamItem

/-- What follows the settings in the boundary window. -/
def followBoundary (s : State) : State :=
  let s := refFollowAll (applyDue (streamBoundary s) isDomainItem applyDomainItem)
  let s := pdmFollowAll (peakBoundary (hpBoundary (jackBoundary s)))
  followState (idleWakes s (engineInput s))

/-! ### The pair at a boundary (R440, R448–R454) -/

/-- The loss of the peer is decided at this boundary. -/
def lossDue (s : State) : Bool := s.pl.loss.any (fun l => l.2 == 0)

/-- The decisions of R451 to R453. [log: DEDUCED 82, 84] -/
def decideLoss (s : State) : State :=
  if s.pl.yield_ then yieldNow s
  else match s.pl.loss with
    | none => s
    | some (cause, 0) =>
      if s.pl.role = 2 then takeOver s cause else if s.pl.pinLow then yieldNow s else keepDriving s cause
    | some (cause, n + 1) => { s with pl := { s.pl with loss := some (cause, n) } }

def isPair : Item → Bool
  | .pair _ => true
  | _ => false

def applyPairItem (s : State) (i : Staged) : State :=
  match i.item with
  | .pair op => applyPair s op
  | _ => s

/-- SOLO where the peer's LIVE bit has fallen (R454), the operations staged, and a loss of the peer. -/
def pairBoundary (s : State) : State :=
  let m := s.pl.soloNext
  let s := each (maskChannels m) { s with pl := { s.pl with soloNext := 0 } } (fun s c => setSolo s c true)
  decideLoss (applyDue s isPair applyPairItem)

def isFwActivate : Item → Bool
  | .fwActivate => true
  | _ => false

/-- The boundary window (R31, R35): every item bound to boundary FN. [log: DEDUCED 45] -/
def boundary (s : State) (late : List (Nat × Bool)) (bad : List Damage) : State :=
  let s := if lossDue s then bindMine s else s
  let m := mixBoundary s late bad
  let s := pairBoundary (followBoundary (settingBoundary (engineBoundary m.1 late m.2) late))
  applyDue s isFwActivate (fun s _ => applyFwActivate s)

/-! ### Slack (R37, R38, R476) -/

/-- Record a slack and judge it against the floor. -/
def judgeSlack (s : State) (slack : Nat) (drained : Bool) : State :=
  let f := s.fr
  let floor := rf s .mxSlackFloor 0 15 0
  let s := { s with
    fr := { f with slackValid := f.slackValid || drained, slack := slack, slackMin := Nat.min f.slackMin slack,
                   slackMax := Nat.max f.slackMax slack },
    vc := { s.vc with lowSlack := s.vc.lowSlack || slack < 0x2000,
                      lastLow := if slack < 0x6000 then nowTicks s else s.vc.lastLow } }
  if floor = 0 then s
  else if slack < floor then
    let s := { s with fr := { s.fr with lowCount := inc32 s.fr.lowCount, fSlackLow := true, run := 0 } }
    if !s.fr.armed then s
    else emit { s with fr := { s.fr with armed := false } } 0x0102 noUnit
      (pay [(0, 2, slack), (2, 2, floor), (4, 2, s.fr.slackMin), (6, 4, s.fr.lowCount)])
  else
    let n := satTo 4096 (s.fr.run + 1)
    { s with fr := { s.fr with run := n, armed := s.fr.armed || n == 4096 } }

/-- The slack of a frame that drains at a FRAC: at most what the field holds. [log: DEDUCED 38] -/
def slackAt (t : Frac) : Nat := Nat.min (65536 - t.toNat) 0xFFFF

/-! ### Drain, mark and abort end -/

/-- A recomputation for which no spare is left waits for the mark (R71, step 3). -/
def stuckLane (s : State) : Bool := !s.fr.marked && s.mx.laneErrs.any (fun e => e.by_.isNone && !e.repeated)

/-- The events of a drain, or of the abort end of an overrun frame (R40). -/
def frameReports (s : State) : State := reportEngineClips (reportClips (reportLanes s))

/-- A sink repeats, or an engine has failed, in the frame (R449). -/
def suspect (s : State) : Bool := !s.mx.held.isEmpty || engines.any (fun e => (eng s e).failure.isSome)

/-- The strobes stop with this drain (R253, R255). -/
def stopAtDrain (s : State) : State :=
  if s.ck.gap.isSome && s.fr.running then feedZero { s with fr := { s.fr with running := false } } else s

/-- A drain that the mark beat (R34): every item bound to boundary FN, staged before or after the mark, moves, and that is
a deferral, detected at the mark. It is settled at the drain, since a frame that overruns is none (R39).
[log: DEDUCED 93] -/
def settleDeferral (s : State) : State :=
  let n := boundItems s s.fr.fn
  if n = 0 then s
  else moveItems (deferredEvent (countDeferral s) n 1 s.fr.markAt) (s.fr.fn + 1) (fun _ => true)

/-- What happens at boundary FN although the mark took it: engine failures, halted contexts (R335) and the wakes of
R136. -/
def boundaryAlways (s : State) : State := idleWakes (applyHalts (failEngines s)) (engineInput s)

/-- Corrections that the reads of a frame and its boundary met and that no completion has counted (R51, R92). -/
def eccCounts (s : State) (x : EccIn) : State := delayCorrected (tableCorrected s x.table) x.delay

/-- FRAME_DRAIN: the rest of the frame, its slack and events, the boundary window unless the mark came first, and
the packet to the peer. [log: DEDUCED 37, 43, 45] -/
def execFrameDrain (t : Frac) (x : DrainIn) (s : State) : Res :=
  let s := atT s t
  .next (
    if !computing s || stuckLane s then s
    else
      let s := silenceFrame (eccCounts (finishEngines (completeAll s)) x.ecc)
      let bad := suspect s
      let s := { s with fr := { s.fr with drained := true } }
      let s := if s.fr.marked then settleDeferral s else s
      let s := frameReports (judgeSlack s (slackAt t) true)
      let fn := s.fr.fn
      let shown := presentNext s
      let s := if s.fr.marked then boundaryAlways s else boundary (readStopped s x.descs) x.maskLate x.damaged
      resume beginAfter (compareHeard (framePacket (stopAtDrain s) fn shown bad)))

/-- PRE_STROBE_MARK before the drain (R34): recomputations are abandoned, and nothing is applied at the boundary of
the frame. [log: DEDUCED 42, 93] -/
def execPreStrobeMark (t : Frac) (s : State) : Res :=
  let s := atT s t
  .next (
    if !computing s || s.fr.marked || s.ck.gap.isSome then s
    else
      let s := abandonLanes s
      { s with fr := { s.fr with marked := true, markAt := t } })

/-- What boundary n holds always, at the abort end of overrun frame n: engines that failed in it do not run again and
carry 0 from strobe n+2 (R105), failed contexts halt (R335), and a DOMAIN_OFF channel whose sink reached its threshold
wakes its die (R136). -/
def abortAlways (s : State) : State :=
  let s := each engines s (fun s e =>
    if (eng s e).failure.isNone then s
    else
      let s := failEngine s e
      setEng s e { eng s e with out := [] })
  idleWakes (applyHalts s) (fun k => tget 0 s.mx.present k)

/-- ABORT_END (R39, R40). -/
def execAbortEnd (t : Frac) (x : EccIn) (s : State) : Res :=
  let s := eccCounts (atT s t) x
  .next (
    match s.fr.overrun with
    | none => s
    | some o =>
      let s := { s with fr := { s.fr with overrun := none, overrunCount := inc32 s.fr.overrunCount, fOverrun := true } }
      let s := if !o.moved then s else moveItems (noteDeferred s (s.fr.fn - 1)) s.fr.fn (fun _ => true)
      let s := emit s 0x0101 noUnit (pay [(0, 2, o.sinks), (2, 2, t.toNat), (4, 2, o.engines), (6, 4, s.fr.overrunCount)])
      let s := abortAlways (frameReports (judgeSlack s 0 false))
      resume beginAfter (compareHeard (framePacket s (s.fr.fn - 1) s.mx.present true)))

end Sys2Proof.Machine
end

