-- ==== Sys2Proof/Machine/Reads.lean ====
section
/-! DEFINITION. What a read of each register returns (the register sections of the chapters): the fields in force
for RW fields, the state for RO fields, 0 for WO fields; and the reads that act (R41, R96, R407, R410). -/

namespace Sys2Proof.Machine

open Sys2Proof

/-! ### Codes of states -/

def aiCode : AiState → Nat
  | .off => 0
  | .precharge => 1
  | .settling => 2
  | .running => 3

def refCode : RefState → Nat
  | .disabled => 0
  | .absent => 1
  | .qualifying => 2
  | .qualified => 3
  | .invalid => 4

def selCode : SelState → Nat
  | .freeRun => 0
  | .freqAcq => 1
  | .phaseWalk => 2
  | .locked => 3

def convCode : ConvState → Nat
  | .stopped => 0
  | .running => 1
  | .waiting => 2
  | .calibrating => 3

def keyCode : KeyState → Nat
  | .rest => 0
  | .armed => 1
  | .down => 2
  | .releasing => 3

def laneCode : LaneState → Nat
  | .scheduled => 0
  | .spare => 1
  | .retired => 2
  | .out => 3

/-- A word of a bit per instance: bit `b` of word `w` is `p (32 w + b)`. -/
def bitsW (w : Nat) (p : Nat → Bool) : Word := BitVec.ofNat 32 (maskOf 32 (fun b => p (32 * w + b)))

/-! ### One function for each block -/

/-- CT (R14, R15, R433, R478). -/
def readCT (s : State) (n : RegName) (i : Nat) : Word :=
  let c := s.ct
  match n with
  | .ctId => BitVec.ofNat 32 ctIdWord
  | .ctBehaviour => mkW [(0, s.sv.level.toNat)]
  | .ctStatus => mkW [(28, phaseCode c.phase), (26, c.code / 4), (24, c.code % 4), (23, b2n (c.range != 0)),
                      (22, b2n c.noFw), (12, c.lastScope), (0, c.lastSrc)]
  | .ctRstCause => mkW [(0, c.cause)]
  | .ctRstCount => mkW [(24, c.nCold), (16, c.nWarm), (8, c.nControl), (0, c.nHost)]
  | .ctOpt => mkW [(28, c.code), (27, b2n c.fuseOk), (26, b2n c.trimOk), (24, c.range), (0, s.pd.backup31)]
  | .ctEccCrit => mkW [(24, c.eccCount), (20, c.eccRegion), (0, c.eccWord)]
  | .ctWdt => mkW [(16, c.wdtResets), (0, c.wdtEsc)]
  | .ctVid => reg s .ctVid ||| mkW [(4, if Config.fusedHigh then 2 else 1), (0, s.vc.level)]
  | _ => reg s n i

/-- PD_STATUS.BUSY: a PD_DOMAIN, from its staging on, or a change of state is in progress. -/
def pdBusy (s : State) : Bool :=
  anyStaged s isDomainItem || !s.pd.job.isEmpty || entering s || s.pd.waking.isSome

/-- PD (R411). [log: DEDUCED 18; DESIGN CHOICE 28] -/
def readPD (s : State) (n : RegName) (i : Nat) : Word :=
  let p := s.pd
  match n with
  | .pdStatus => mkW [(29, modCode p.st), (28, b2n (pdBusy s)), (0, p.on)]
  | .pdWakeStatus => mkW [(0, p.wakeStatus)]
  | .pdAwc => reg s n i ||| mkW [(30, b2n (tget false p.awc i))]
  | .pdRtcSecLo => mkW [(0, p.sec)]
  | .pdRtcSecHi => mkW [(31, b2n p.valid), (16, p.capFrac), (0, p.capSec)]
  | .pdRtcCfg => reg s n i ||| mkW [(31, b2n p.oscOk)]
  | .pdRetData => tget 0 p.ret (rf s .pdRetAddr 0 11 0)
  | .pdCount => mkW [(16, p.wakes), (0, p.pgFaults)]
  | .pdBackup => if i = 30 then mkW [(0, p.backup30)] else if i = 31 then mkW [(0, p.backup31)] else reg s n i
  | _ => reg s n i

/-- Ring `r` of the HL block. -/
def ringOf (s : State) (r : Nat) : Ring := if r = 0 then s.hl.cmd else if r = 1 then s.hl.cmp else s.hl.evt

/-- What an unwritten word of the MSI-X table reads as: each vector is masked. -/
def msixReset (i : Nat) : Word := if i % 4 = 3 then 1 else 0

/-- HL (R309). -/
def readHL (s : State) (n : RegName) (i : Nat) : Word :=
  let h := s.hl
  match n with
  | .hlStatus => mkW [(31, b2n (busy s)), (30, b2n h.locked), (29, b2n h.halted), (28, b2n h.cfgErr),
                      (0, (h.busy.map (·.op)).getD 0)]
  | .hlLink => mkW [(31, b2n h.linkUp), (24, h.speed), (16, h.width), (4, h.aspm), (0, h.dstate)]
  | .hlCfg => mkW [(31, b2n (ringOf s i).en), (0, (ringOf s i).size)]
  | .hlIdx => mkW [(16, (ringOf s i).cons), (0, (ringOf s i).prod)]
  | .hlDbDropped => mkW [(0, h.dbDropped)]
  | .hlRegDropped => mkW [(0, h.regDropped)]
  | .hlDbBad => mkW [(0, h.dbBad)]
  | .hlEvLost => mkW [(0, h.evLost)]
  | .hlOwnerDropped => mkW [(0, h.ownerDropped)]
  | .hlSuperseded => mkW [(0, h.superseded)]
  | .hlSceneUsed => bitsW i (fun k => sceneOf s k != [])
  | .hlSceneFree => mkW [(0, sceneFree s)]
  | .hlMsix => tget (msixReset i) h.msix i
  | .hlPba => bitsW i (fun v => tget false h.pba v)
  | _ => reg s n i

/-- Lanes of half `h` in a state. -/
def laneCount (s : State) (h : Nat) (st : LaneState) : Nat := (lanesIn s h st).length

/-- Retired lanes of half `h`, those of a half out of service among them (R458). -/
def retiredCount (s : State) (h : Nat) : Nat :=
  (((List.range 32).map (· + 32 * h)).filter (fun l => (lane s l).bad)).length

/-- MX (R43, R75). [log: DEDUCED 19] -/
def readMX (s : State) (n : RegName) (i : Nat) : Word :=
  let f := s.fr
  let m := s.mx
  match n with
  | .mxFrameStatus => mkW [(8, b2n f.running), (5, b2n m.inB), (4, b2n m.inA), (0, f.rate)]
  | .mxTimeLo => mkW [(0, f.fn)]
  | .mxTimeHi => mkW [(16, f.timeFrac.toNat), (0, f.timeFn)]
  | .mxBudget => mkW [(0, m.budget)]
  | .mxHalfABudget => mkW [(24, m.lA), (0, if m.inA then halfBudget f.rate m.lA else 0)]
  | .mxHalfBBudget => mkW [(24, m.lB), (0, if m.inB then halfBudget f.rate m.lB else 0)]
  | .mxCost => mkW [(0, m.cost)]
  | .mxCostFeed => mkW [(0, m.feed)]
  | .mxCostRefused => mkW [(28, m.refusedReason), (0, m.refusedCost)]
  | .mxSlackLast => mkW [(31, b2n f.slackValid), (0, f.slack)]
  | .mxSlackMinmax => mkW [(16, f.slackMax), (0, f.slackMin)]
  | .mxSlackLowCount => mkW [(0, f.lowCount)]
  | .mxOverrunCount => mkW [(0, f.overrunCount)]
  | .mxDeferCount => mkW [(0, f.deferCount)]
  | .mxStageStatus => mkW [(0, (m.queue.filter (·.bound != unbound)).length)]
  | .mxLastApplyFn => mkW [(0, m.lastApplyFn % 2 ^ 32)]
  | .mxFrameFlags => mkW [(2, b2n f.fDeferred), (1, b2n f.fSlackLow), (0, b2n f.fOverrun)]
  | .mxTableUsed => mkW [(0, m.xp.length)]
  | .mxTableCap => mkW [(0, capacity s)]
  | .mxXpCur => mkW [(31, b2n m.found.isSome), (0, ((m.found.map (fun e => toU 24 e.cur)).getD 0))]
  | .mxXpPend =>
    match m.found with
    | some e => mkW [(31, b2n e.pend), (24, e.qslot), (0, if e.pend then toU 24 e.gain else 0)]
    | none => 0
  | .mxLastApplyTag => mkW [(0, m.lastApplyTag)]
  | .mxShedCount => mkW [(0, m.shed.length)]
  | .mxLaneSummary => mkW [(16, retiredCount s 1), (8, retiredCount s 0), (4, laneCount s 1 .spare),
                           (0, laneCount s 0 .spare)]
  | .mxEccCount => mkW [(16, m.eccUncorrected), (0, m.eccCorrected)]
  | .mxCostQueued => mkW [(0, m.costQueued)]
  | .mxLaneStatus => mkW [(30, laneCode (lane s i).st), (0, (lane s i).errors)]
  | .mxShed => bitsW i (isShed s)
  | .mxSinkStat => mkW [(31, b2n (isShed s i)), (16, tget 0 m.nk i), (0, tget 0 m.clips i)]
  | .mxSrcSilent => bitsW i (shownSilent s)
  | _ => reg s n i

/-- FX_STAGE: words 2s and 2s + 1 of stage s, 64 words for each engine. -/
def readStage (s : State) (i : Nat) : Word :=
  match (eng s (i / 64)).recipe with
  | none => 0
  | some r =>
    if r.encrypted then 0
    else match r.stages[i % 64 / 2]? with
      | none => 0
      | some g =>
        if i % 2 = 0 then mkW [(24, g.type), (16, g.size), (8, g.inp), (0, g.out)]
        else mkW [(24, g.aux), (16, g.flags), (0, g.pbase)]

/-- FX_ENG_STATUS. -/
def readEngStatus (x : Engine) : Word :=
  let r := x.recipe
  mkW [(28, engCode x.st), (27, b2n (r.any (·.signer != 0xFF))), (26, b2n (r.any (·.encrypted))),
       (16, (r.map (fun r => r.stages.length - 1)).getD 0), (0, (r.map (·.cost)).getD 0)]

/-- FX (R107), as `o` reads it. -/
def readFX (s : State) (o : Owner) (n : RegName) (i : Nat) : Word :=
  let f := s.fx
  let x := eng s i
  match n with
  | .fxSummary => mkW [(16, maskOf 16 (fun e => (eng s e).st == .failed)), (0, maskOf 16 (fun e => (eng s e).recipe.isSome))]
  | .fxBudget => mkW [(0, engineBudget s.fr.rate)]
  | .fxDelayFree => mkW [(16, freeBlocks s 1), (0, freeBlocks s 0)]
  | .fxDelayEcc => mkW [(16, f.eccUncorrected), (0, f.eccCorrected)]
  | .fxPaddr =>
    let p := paddr s o
    mkW [(31, b2n p.auto), (30, b2n p.view), (16, p.eng), (0, p.word)]
  | .fxPdata => (readPdata s o).2
  | .fxPattr => mkW [(0, f.pattr)]
  | .fxPmin => f.pmin
  | .fxPmax => f.pmax
  | .fxPcommitStatus => mkW [(16, b2n f.pcRefused), (0, maskOf 16 (fun e => (stagedSets s o).contains e))]
  | .fxEngStatus => readEngStatus x
  | .fxEngId => mkW [(0, (x.recipe.map (·.id)).getD 0)]
  | .fxEngVer => mkW [(0, (x.recipe.map (·.ver)).getD 0)]
  | .fxEngAlloc => mkW [(16, heldBlocks x), (0, x.lat)]
  | .fxEngClips => mkW [(16, x.sat), (0, x.clips)]
  | .fxEngRefused => mkW [(0, x.refused)]
  | .fxEngErrors => mkW [(0, x.errors)]
  | .fxStage => readStage s i
  | .fxEngBypass => x.oldBypass.getD (reg s n i)
  | _ => reg s n i

/-- PVDD above 17.5 V and below 37.5 V, in 10 mV units. -/
def pvddOk (d : Die) : Bool := 1750 < d.pvdd && d.pvdd < 3750

/-- PS (R141). -/
def readPS (s : State) (n : RegName) (i : Nat) : Word :=
  let a := s.ps.dieA
  let b := s.ps.dieB
  let x := psCh s i
  match n with
  | .psStatus => mkW [(31, b2n s.ps.ready), (11, b2n b.idleOff), (10, b2n a.idleOff), (9, b2n b.ot), (8, b2n a.ot),
                      (7, b2n (!b.vg)), (6, b2n (!a.vg)), (5, b2n b.ov), (4, b2n a.ov), (3, b2n (pvddOk b)),
                      (2, b2n (pvddOk a)), (1, b2n (domOn s domPWRB)), (0, b2n (domOn s domPWRA))]
  | .psPvdd => mkW [(16, b.pvdd), (0, a.pvdd)]
  | .psTemp => mkW [(16, toU 16 b.temp), (0, toU 16 a.temp)]
  | .psChSummary => mkW [(16, chMask allCh (fun c => (psCh s c).st == .latched)),
                         (0, chMask allCh (fun c => (psCh s c).st == .run || (psCh s c).st == .quiet))]
  | .psRefusedCount => mkW [(0, s.ps.refused)]
  | .psChState => mkW [(28, chStateCode x.st), (24, x.cause), (0, toU 16 x.dc)]
  | .psChCount => mkW [(16, x.trips), (0, x.loopClips)]
  | .psDxFb => reg s n i ||| mkW [(24, (psCh s (8 + i)).retries)]
  | _ => reg s n i

/-- The channel's envelope hides its model parameters (R158, R164). -/
def hidesModel (x : SpCh) : Bool := (x.env.map (fun e => bitN e.flags 0)).getD false

/-- SP_ENV[c]: word `w` of its sixteen; words 6 to 11 mirror SP_MOD_RE to SP_MOD_TIME (R164). -/
def readEnv (x : SpCh) (w : Nat) : Word :=
  match x.env with
  | none => 0
  | some e =>
    if w = 0 then mkW [(0, e.id)] else if w = 1 then mkW [(0, e.ver)]
    else if w < 12 then (if hidesModel x ∧ 6 ≤ w then 0 else (e.words[w - 2]?).getD 0)
    else if w = 12 then mkW [(16, toU 16 e.tambMin), (0, e.flags)] else 0

/-- SP (R169). -/
def readSP (s : State) (n : RegName) (i : Nat) : Word :=
  let x := spCh s i
  match n with
  | .spStatus => mkW [(16, chMask allCh (fun c => (spCh s c).env.any (·.locked))),
                      (0, chMask allCh (fun c => (spCh s c).env.isSome))]
  | .spRefusedCount => mkW [(0, s.sp.refused)]
  | .spChState => mkW [(31, b2n x.latch), (30, b2n x.open_), (29, b2n x.valid), (28, b2n x.solo),
                       (27, b2n (x.env.any (·.locked))), (16, x.gr), (12, x.act)]
  | .spChTemp => mkW [(16, tMeasRep x), (0, tEstRep x)]
  | .spChMeas => mkW [(16, repI (fTimes x.xMeas 1000)), (0, rMeasRep x)]
  | .spChCount => mkW [(16, x.xOver), (0, x.impLatches)]
  | .spChPeak => mkW [(16, x.vrmsPeak), (0, x.xPeak)]
  | .spEnv => readEnv (spCh s (i / 16)) (i % 16)
  | .spModRe | .spModTh1 | .spModTh2 | .spModX | .spModX2 | .spModTime => if hidesModel x then 0 else reg s n i
  | _ => reg s n i

/-- H_PATH: the weight of H is at least one half. -/
def hPath (s : State) (n : Nat) : Bool := 8 ≤ (aiCh s n).weight

/-- AI (R195). -/
def readAI (s : State) (n : RegName) (i : Nat) : Word :=
  let a := aiCh s i
  let q := tget AiSrc.reset s.ai.src i
  match n with
  | .aiStatus => mkW [(31, b2n (domOn s domAIN)), (18, maskOf 2 (fun k => (pdmClk s k).invalid)),
                      (16, maskOf 2 (fun k => (pdmClk s k).run)), (0, maskOf 16 (hPath s))]
  | .aiBiasStat => mkW ((List.range 4).flatMap (fun b =>
      [(8 * b + 7, b2n (bias s b).short), (8 * b, (bias s b).current)]))
  | .aiChStat => mkW [(31, b2n (hPath s i)), (30, b2n a.zc.isSome), (29, b2n (jackMuted s i)), (27, aiCode a.st),
                      (16, a.gain), (8, a.forced), (0, a.overloads)]
  | .aiPdmCh => reg s n i ||| mkW [(30, b2n (pdm s i).stuck)]
  | .aiJack => reg s n i ||| mkW [(29, b2n (aiJack s i).plugged)]
  | .aiSrcStat => mkW [(16, q.peak), (0, q.clips)]
  | _ => reg s n i

/-- AQ (R210). -/
def readAQ (s : State) (n : RegName) (i : Nat) : Word :=
  let o := outp s i
  match n with
  | .aqStatus => mkW [(31, b2n (domOn s domAOUT)), (30, b2n s.aq.cpOk), (29, b2n s.aq.cpRun),
                      (0, outMask (fun o => (outp s o).st == .running))]
  | .aqOutStat => mkW [(29, outCode o.st), (28, b2n o.jackMute), (24, o.cause), (8, o.shorts)]
  | .aqHpJack => reg s n i ||| mkW [(29, b2n (hpJack s i).plugged)]
  | _ => reg s n i

/-- DP (R234). -/
def readDP (s : State) (n : RegName) (i : Nat) : Word :=
  let p := port s i
  match n with
  | .dpStatus => mkW [(31, b2n (domOn s domPORT)), (16, maskOf 8 (fun p => (port s p).st == .running)),
                      (8, maskOf 8 (fun p => (port s p).st != .off))]
  | .dpRefusedCount => mkW [(0, s.dp.refused)]
  | .dpRxActive => p.rx.active
  | .dpTxActive => p.tx.active
  | .dpMaskStatus => mkW [(31, b2n (maskPending s i true)), (30, b2n (maskPending s i false))]
  | .dpRxMaskPfn => mkW [(0, p.rx.pfn)]
  | .dpTxMaskPfn => mkW [(0, p.tx.pfn)]
  | .dpPfn => mkW [(0, p.pfn)]
  | .dpState => mkW [(29, portCode p.st), (25, p.lastUnlock), (0, p.flen)]
  | .dpSrcRatio => p.ratio
  | .dpRate => mkW [(0, p.rate)]
  | .dpCount => mkW [(16, p.unlocks), (0, p.frameErrors)]
  | .dpCount2 => mkW [(16, p.lateFs), (0, p.maskLate)]
  | _ => reg s n i

/-- CK (R260). -/
def readCK (s : State) (n : RegName) (i : Nat) : Word :=
  let c := s.ck
  match n with
  | .ckStatus => mkW [(31, b2n c.xtalOk), (30, b2n c.xtalFreq), (24, maskOf 4 (fun j => (pll s j).lock)),
                      (16, maskOf 4 (fun j => (pll s j).on)), (11, b2n c.phaseLock), (8, selCode c.sel), (0, c.active)]
  | .ckDco => mkW [(0, toU 32 c.dco)]
  | .ckPhaseErr => mkW [(0, if c.sel = .freeRun then 0 else toU 32 c.phaseErr)]
  | .ckRefQual => mkW [(0, 1), (1, maskOf 13 (fun r => (refOf s r).st == .qualified))]
  | .ckPllsCfg => reg s n i ||| mkW [(0, c.fsw)]
  | .ckCount => mkW [(16, c.switches), (0, c.restarts)]
  | .ckCount2 => mkW [(16, c.xtalFails), (0, c.clamps)]
  | .ckPllStat =>
    let p := pll s i
    mkW [(31, b2n p.on), (30, b2n p.lock), (29, b2n p.cached), (16, p.band), (0, p.searches)]
  | .ckRefFreq => mkW [(0, refFreq s i)]
  | .ckRefStat => mkW [(29, refCode (refOf s i).st), (0, toU 24 (refOf s i).offset)]
  | .ckRefCount => mkW [(16, (refOf s i).disquals), (0, (refOf s i).late)]
  | .ckCache =>
    let e := cacheEnt (pll s (i / 8)) (i % 8)
    mkW [(31, b2n e.valid), (16, e.band), (0, e.key)]
  | _ => reg s n i

/-- SC (R284). -/
def readSC (s : State) (n : RegName) (i : Nat) : Word :=
  let c := conv s i
  let e := scEnt s i
  match n with
  | .scStatus => mkW [(31, b2n (domOn s domAIN)), (4, s.sc.smux.getD 0), (2, convCode s.sc.c1.st), (0, convCode s.sc.c0.st)]
  | .scRefusedCount => mkW [(0, s.sc.refused)]
  | .scUrgent => reg s n i ||| mkW [(30, c.urgent)]
  | .scUrgentRes => mkW [(31, b2n c.urgentDone), (0, c.urgentVal)]
  | .scCount => mkW [(16, c.overruns), (0, c.urgentDrops)]
  | .scCount2 => mkW [(16, c.keyAborts), (0, c.overrange)]
  | .scPass => mkW [(0, c.pass)]
  | .scResult => mkW [(30, keyCode e.key), (29, b2n e.out), (24, e.seq), (0, e.value)]
  | _ => reg s n i

/-- TW (R362); a read over the bus finds the bus busy and the module a target. -/
def readTW (s : State) (o : Owner) (n : RegName) (i : Nat) : Word :=
  let t := s.tw
  match n with
  | .twStatus => mkW [(24, b2n (o != .tw && t.bus == .controller)), (23, b2n (o == .tw || t.bus != .free)), (22, b2n (alertDriven s)), (21, b2n (cmdPending s)), (20, b2n t.resultReady),
                      (8, t.queue.length), (4, t.lastWr), (0, 4 + s.ct.code % 4)]
  | .twFlags => mkW [(0, t.flags)]
  | .twArbLost => mkW [(16, t.arbCount), (8, t.arbByte), (0, t.arbBit)]
  | .twCount => mkW [(16, t.pecErrors), (0, t.busyNacks)]
  | .twCount2 => mkW [(16, t.stretchResets), (0, t.addrNacks)]
  | .twEvLost => mkW [(0, t.evLost)]
  | _ => reg s n i

/-- The counter that SV_CTR_SEL names (R373). -/
def ctrSelected (s : State) : Nat :=
  if rb s .svCtrSel 0 7 then s.sv.fwCtr
  else tget 0 s.sv.ctr (32 * rf s .svCtrSel 0 6 5 + rf s .svCtrSel 0 4 0)

/-- SV (R389). [log: DEDUCED 18] -/
def readSV (s : State) (n : RegName) (i : Nat) : Word :=
  let v := s.sv
  match n with
  | .svStatus => mkW [(31, b2n v.larderOk), (30, b2n Config.debugOff), (29, b2n (nvBusy s)), (28, b2n v.slotB),
                      (26, fwRunCode v.fwRun), (0, v.keygen)]
  | .svSerialLo => mkW [(0, Config.serial.toNat)]
  | .svSerialHi => mkW [(0, Config.serial.toNat / 2 ^ 32)]
  | .svRecipientLo => mkW [(0, recipientOf v.dck)]
  | .svRecipientHi => mkW [(0, recipientOf v.dck / 2 ^ 32)]
  | .svOwner => mkW [(30, ownerStCode (ownerSlot s i).st), (0, (ownerSlot s i).seq)]
  | .svFw => mkW [(30, fwStCode (fwSlot s (i == 1)).st), (0, (fwSlot s (i == 1)).version % 65536)]
  | .svCtrVal => mkW [(0, ctrSelected s)]
  | .svWearMax => mkW [(0, wearMax s)]
  | .svWearMean => mkW [(0, wearMean s)]
  | .svPantryLines => mkW [(31, b2n v.spareOut), (16, 2048 - v.retired), (0, v.retired)]
  | .svPantryEcc => mkW [(16, v.eccUncorrected), (0, v.eccCorrected)]
  | .svRefusedCount => mkW [(0, v.refused)]
  | .svLastRefusal => mkW [(16, v.lastStatus), (8, v.lastKind), (0, v.lastStep)]
  | .svPairAuth => mkW [(30, authCode v.auth), (16, v.fails), (8, v.late), (0, v.tagFails)]
  | .svOwnerHash => if i % 16 < 12 then mkW [(0, leAt (hashBytes (ownerSlot s (i / 16))) (4 * (i % 16)) 4)] else 0
  | _ => reg s n i

/-- PL (R463). -/
def readPL (s : State) (n : RegName) (i : Nat) : Word :=
  let p := s.pl
  let ofs := toU 48 p.ofs
  let t := halfTest s (i / 2)
  match n with
  | .plStatus => mkW [(28, pairCode p.st), (26, p.role), (25, b2n p.driving), (24, b2n (peerLive s)),
                      (23, b2n (p.hb.any (·.level != s.sv.level))), (0, ((p.hb.map (·.live.toNat)).getD 0) % 4096)]
  | .plFnOfsLo => mkW [(0, ofs)]
  | .plFnOfsHi => mkW [(0, p.ofsHi)]
  | .plLink => mkW [(30, p.lanes), (0, p.delay)]
  | .plCount => mkW [(16, p.missed), (0, p.mismatches)]
  | .plCount2 => mkW [(16, p.mirrorMisses), (0, p.splits)]
  | .plCount3 => mkW [(16, p.failovers), (0, p.linkDowns)]
  | .plLastFailoverLo => mkW [(0, p.foPfn)]
  | .plLastFailoverHi => mkW [(24, p.foCause), (0, p.foPfn / 2 ^ 32)]
  | .plRefusedCount => mkW [(0, p.refused)]
  | .plHalfTest => if i % 2 = 0 then mkW [(30, t.1), (0, t.2.1)] else mkW [(0, t.2.2.1)]
  | _ => reg s n i

/-- Channels of the enabled contexts of a direction. -/
def loadOf (s : State) (dir : Bool) : Nat :=
  (((ctxs s).filter (fun k => enabled s k && isRec s k == dir)).map (nch s)).foldl (· + ·) 0

/-- The stream pages (R337). -/
def readSTR (s : State) (n : RegName) (i : Nat) : Word :=
  let x := ctx s i
  let g := grp s (groupOf s i)
  match n with
  | .strDb => 0
  | .strIdx => mkW [(16, x.cons), (0, x.prod)]
  | .strPosLo => mkW [(0, x.pos)]
  | .strPosHi => mkW [(0, x.posHi)]
  | .strCfg => (reg s n i &&& 0x7FFFFFFF) ||| mkW [(31, b2n (enabled s i))]
  | .strState => mkW [(29, ctxCode x.st), (16, x.lastErr)]
  | .strUnder => mkW [(0, x.under)]
  | .strLate => mkW [(0, x.late)]
  | .strGroupLo => mkW [(0, g.start)]
  | .strGroupHi => mkW [(30, groupCode g.st), (0, g.start / 2 ^ 32)]
  | .strLoad => mkW [(16, loadOf s true), (0, loadOf s false)]
  | _ => reg s n i

/-- The value of register `i` of an array as owner `o` reads it. -/
def regValue (s : State) (o : Owner) (n : RegName) (i : Nat) : Word :=
  let off := (regPlace n).1
  if off < 0x4000 then readCT s n i else if off < 0x8000 then readPD s n i else if off < 0x10000 then readHL s n i
  else if off < 0x20000 then readMX s n i else if off < 0x30000 then readFX s o n i
  else if off < 0x38000 then readPS s n i else if off < 0x40000 then readSP s n i
  else if off < 0x48000 then readAI s n i else if off < 0x50000 then readAQ s n i
  else if off < 0x58000 then readDP s n i else if off < 0x60000 then readCK s n i
  else if off < 0x68000 then readSC s n i else if off < 0x70000 then readTW s o n i
  else if off < 0x78000 then readSV s n i else if off < 0x80000 then readPL s n i else readSTR s n i

/-- What a read does besides answering: MX_TIME_LO, PL_FN_OFS_LO, PD_RTC_SEC_LO and STR_POS_LO capture, FX_PDATA
and PD_RET_DATA are accesses (R41, R96, R407, R410). -/
def readEffect (s : State) (o : Owner) (r : ReadIn) (n : RegName) (i : Nat) : State :=
  match n with
  | .mxTimeLo => { s with fr := { s.fr with timeFn := s.fr.fn / 2 ^ 32, timeFrac := s.now } }
  | .plFnOfsLo => { s with pl := { s.pl with ofsHi := toU 48 s.pl.ofs / 2 ^ 32 } }
  | .pdRtcSecLo => { s with pd := { s.pd with capSec := s.pd.sec / 2 ^ 32, capFrac := s.pd.frac } }
  | .strPosLo => setCtx s i { ctx s i with posHi := (ctx s i).pos / 2 ^ 32 }
  | .fxPdata => (readPdata s o).1
  | .pdRetData =>
    let a := rf s .pdRetAddr 0 11 0
    let t := retNext s
    if r.retBad then emit t 0x0D08 noUnit (pay [(0, 2, a)]) else t
  | _ => s

/-- A read of the register at an offset: its value, and the state after it; 0 where there is no register (R5). -/
def readAt (s : State) (o : Owner) (r : ReadIn) (off : Nat) : State × Word :=
  match regAt off with
  | none => (s, 0)
  | some p =>
    let s := if p.1.name = .pdRtcSecLo then rtcAdvance s r.cycles else s
    let s := if p.1.name = .twStatus then { s with tw := { s.tw with bus := r.bus } } else s
    let v := if p.1.name = .pdRetData && r.retBad then 0 else regValue s o p.1.name p.2
    (readEffect s o r p.1.name p.2, v)

end Sys2Proof.Machine
end

