-- ==== Sys2Proof/Machine/Regs.lean ====
section
/-! DEFINITION. Writes of registers as the module takes them (R4–R6, R300, R302–R305, R328, R345), the two-wire
codes that reach registers (R343–R348), the end of a wake from STANDBY (R401, R404), the end of the long operations
that have no row of their own (R300), and the Pantry's uncorrectable lines (R385–R388). -/

namespace Sys2Proof.Machine

open Sys2Proof

/-! ### Effects of a write -/

/-- A write of a word of the MSI-X table (R296): a vector that is unmasked sends the message its pending bit
stands for. -/
def msixWrite (s : State) (i : Nat) (v : Word) : State :=
  let w := if i % 4 = 0 then v &&& 0xFFFFFFFC else if i % 4 = 3 then v &&& 1 else v
  let s := { s with hl := { s.hl with msix := tput (msixReset i) s.hl.msix i w } }
  if i % 4 = 3 && w == 0 && tget false s.hl.pba (i / 4) then
    sendMsi { s with hl := { s.hl with pba := tput false s.hl.pba (i / 4) false } } (i / 4)
  else s

/-- A write of a register of the HL block through the host link (R290, R302, R305, R309). [log: DEDUCED 23] -/
def hlWrite (s : State) (n : RegName) (i : Nat) (v : Word) : State :=
  match n with
  | .hlStatus => if bit v 28 then { s with hl := { s.hl with cfgErr := false } } else s
  | .hlBaseLo => ringBase s i false v
  | .hlBaseHi => ringBase s i true v
  | .hlCfg => ringCfg s i v
  | .hlIrqMod => setReg s .hlIrqMod 0 (v &&& 0xFFFF)
  | .hlOwner => if s.hl.locked || i = 0x39 then s else setReg s .hlOwner i (v &&& 7)
  | .hlMsix => msixWrite s i v
  | _ => s

/-- MX_FRAME_FLAGS, W1C. -/
def frameFlagsWrite (s : State) (v : Word) : State :=
  { s with fr := { s.fr with fDeferred := s.fr.fDeferred && !bit v 2, fSlackLow := s.fr.fSlackLow && !bit v 1,
                             fOverrun := s.fr.fOverrun && !bit v 0 } }

/-- MX_SLACK_CTRL: REARM and CLEAR. -/
def slackCtrl (s : State) (v : Word) : State :=
  let s := if bit v 1 then rearm s else s
  if bit v 0 then slackClear s else s

/-- The bits of a number that a W1C write leaves. -/
def w1c (w : Nat) (old : Nat) (v : Word) : Nat := (BitVec.ofNat w old &&& ~~~(v.setWidth w)).toNat

/-- PD_AWC (R409, R411): the LEVEL of a disabled comparator reads 0. -/
def awcWrite (s : State) (i : Nat) (w : Word) : State :=
  if !regAccept .pdAwc i (reg s .pdAwc i) w then s
  else
    let s := setReg s .pdAwc i w
    if bit w 31 then s else setAwc s i false

/-- PD_RET_DATA (R410, R411). -/
def retWrite (s : State) (v : Word) : State :=
  retNext { s with pd := { s.pd with ret := tput 0 s.pd.ret (rf s .pdRetAddr 0 11 0) v } }

/-- CT_VID without a message result in hand: the message is sent by CONTROLLER_RETRY (R476, R477).
[log: DESIGN CHOICE 27] -/
def vidWrite (s : State) (v : Word) : State :=
  let s := setReg s .ctVid 0 (v &&& 0x300)
  if vidMax s < s.vc.level then
    let s := push { s with vc := { s.vc with level := vidMax s } } (.vid (vidMax s))
    if s.vc.mute then s else { s with tw := { s.tw with vmsg := some (vidMax s) } }
  else s

/-- PL_CFG and PL_DIGEST are discarded and counted in SYNC, PAIRED and PEER_LOST (R463). -/
def plWrite (s : State) (n : RegName) (w : Word) : State :=
  if inPair s then { s with pl := { s.pl with refused := inc32 s.pl.refused } }
  else if regAccept n 0 (reg s n) w then setReg s n 0 w else s

/-- The effect of a write that takes effect at once, from an owner of the register's group; `env` is what the arbiters
decide for slot masks and urgent conversions. [log: DEDUCED 20] -/
def writeEffect (s : State) (src : Owner) (env : WriteIn) (n : RegName) (i : Nat) (v : Word) : State :=
  let w := mergeReg n i (reg s n i) v
  match n with
  | .mxSlackCtrl => slackCtrl s v
  | .mxFrameFlags => frameFlagsWrite s v
  | .mxXpQuery => lookup s v env.corrected
  | .mxClipClear => clipClear s v
  | .psChCfg => psConfig s i .chCfg v
  | .psDxCfg => psConfig s (8 + i) .dxCfg v
  | .psDxFb => psConfig s (8 + i) .dxFb v
  | .aiPeakClear => peakRequest s v
  | .dpFmt => fmtWrite s i v
  | .dpRxMask => maskWrite s src i true v env.lateRx
  | .dpTxMask => maskWrite s src i false v env.lateTx
  | .ckSteer => steerWrite s v
  | .ckCacheCtrl => flushCaches s v
  | .ckRefFreq => if clockAccept s n i w then setReg s n i w else s
  | .scConvCtrl => convCtrl s i v
  | .scUrgent => urgentWrite s i v env.startWins
  | .scCfg | .scConvCfg | .scConvHyst | .scEntry0 | .scEntry1 | .scEntry2 | .scEntry3 => scWrite s n i w
  | .pdWakeStatus => { s with pd := { s.pd with wakeStatus := w1c 10 s.pd.wakeStatus v } }
  | .pdAwc => awcWrite s i w
  | .pdRtcSetHi => rtcLoad s v
  | .pdRetData => retWrite s v
  | .twFlags => { s with tw := { s.tw with flags := w1c 6 s.tw.flags v } }
  | .ctRstCause => { s with ct := { s.ct with cause := w1c 12 s.ct.cause v } }
  | .ctVid => vidWrite s v
  | .plPeerCmd => peerCmd s v
  | .plCfg | .plDigest => plWrite s n w
  | .strRingLo | .strRingHi | .strCfg | .strMap | .strPrefetch => strWrite s i n v
  | _ => if regAccept n i (reg s n i) w then setReg s n i w else s

/-- A write of SP_CTRL, judged bit by bit (R302): the bits whose groups `src` owns are staged, the others refused.
[log: DEDUCED 49] -/
def spCtrlWrite (s : State) (src : Owner) (off : Nat) (v : Word) : State × Nat :=
  let cs := maskChannels (fld v 11 0)
  let lack := cs.filter (fun c => !owns s src (0x11 + c))
  let own := cs.filter (fun c => owns s src (0x11 + c))
  let away := own.filter (fun c => src != .peer && mirrors s (0x11 + c))
  let here := own.filter (fun c => !(src != .peer && mirrors s (0x11 + c)))
  let item (l : List Nat) : Item := .reg off (BitVec.ofNat 32 (maskOf 12 l.contains))
  let s := if here.isEmpty then s else stage s src (item here)
  let s := if away.isEmpty then s else holdMirror s src (item away) none
  (each lack s (fun s c => ownerRefuse s src off [0x11 + c]), if lack.isEmpty then 0 else 1)

/-- A write to the parameter window from an owner of the engines named, or refused (R302, R303); LAST_WR of it. -/
def windowTake (s : State) (src : Owner) (off : Nat) (gs : List Nat) (f : State → State) : State × Nat :=
  let lack := gs.filter (fun g => !owns s src g)
  if lack.isEmpty then (f s, 0) else (ownerRefuse s src off lack, 1)

/-- One 32-bit write that no long operation holds back, and what it gives LAST_WR (R344): discarded, staged or applied
under the register's access code, owner mask and lock. [log: DEDUCED 15, 25] -/
def writeReg (s : State) (src : Owner) (env : WriteIn) (off : Nat) (v : Word) : State × Nat :=
  if 0x8000 ≤ off && off < 0x10000 && src != .host then (s, 3)
  else match regAt off with
  | none => (s, 0)
  | some p =>
    let n := p.1.name
    let i := p.2
    if 0x8000 ≤ off && off < 0x10000 then (hlWrite s n i v, 0)
    else match n with
      | .fxPaddr => (writePaddr s src v, 0)
      | .fxPdata => windowTake s src off [1 + (paddr s src).eng] (fun s => writePdata s src v)
      | .fxPcommit =>
        windowTake s src off ((engines.filter (fun e => bit v e)).map (· + 1)) (fun s => pcommit s src v)
      | .fxPcommitStatus => (if bit v 16 then { s with fx := { s.fx with pcRefused := false } } else s, 0)
      | .spCtrl => spCtrlWrite s src off v
      | .strDb => (streamDoorbell s i true v, 0)
      | _ =>
        match regGroup n i with
        | none => (s, 0)
        | some g =>
          if !owns s src g then (ownerRefuse s src off [g], 1)
          else if regLockable n && s.hl.locked then (s, 0)
          else if p.1.staged then (stageG s src g (.reg off v), 0)
          else (inOrder s src off g (valueTakes s n i v && clockAccept s n i v && !maskStaged s n i)
            (fun s => writeEffect s src env n i v), 0)

/-! ### REGISTER_WRITE -/

/-- The writes that R300 does not discard: the MSI-X table and PBA, and the doorbells. -/
def exempt (off : Nat) : Bool :=
  (0xC000 ≤ off && off < 0xC400) || (0xD000 ≤ off && off < 0xD008) || (0x100000 ≤ off && off % 0x1000 == 0)

/-- One 32-bit write with every byte enabled, at its offset: BAR0, or 0x100000 and the offset in BAR2, which the host
alone reaches. From the bus it sets LAST_WR, and is NACKed during a long operation (R345, R348). -/
def barWrite32 (s : State) (src : Owner) (env : WriteIn) (off : Nat) (v : Word) : State :=
  if src != .host then
    if held s then discard s src
    else
      let q := if off < 0x100000 then writeReg s src env off v else (s, 3)
      if src = .tw then setLastWr q.1 q.2 else q.1
  else if 0x203000 ≤ off then s
  else if 0x200000 ≤ off then
    if off % 0x1000 != 0 then s
    else if off = 0x200000 then ringDoorbell s true v env.cycles
    else if off = 0x201000 then completionDoorbell s true v
    else eventDoorbell s true v
  else if held s && !exempt off then discard s src
  else (writeReg s src env off v).1

/-- Offset of an access: in BAR0, or 0x100000 and the offset in BAR2. -/
def barOffset (w : BarWrite) : Nat := w.off.toNat + (if w.bar2 then 0x100000 else 0)

/-- Aligned to its own size (R4). -/
def barAligned (w : BarWrite) : Bool := w.off.toNat % (if w.wide then 8 else 4) == 0

/-- The 32-bit writes of an access (R4): two for a 64-bit access, the lower address first; none for a misaligned one;
a register whose byte enables are not all set is discarded. [log: DEDUCED 14] -/
def barParts (w : BarWrite) : List (Nat × Word) :=
  let o := barOffset w
  let be := w.be.toNat
  let lo : List (Nat × Word) := if be % 16 = 15 then [(o, w.data.setWidth 32)] else []
  let hi : List (Nat × Word) :=
    if w.wide && be / 16 = 15 then [(o + 4, BitVec.ofNat 32 (w.data.toNat / 2 ^ 32))] else []
  if !barAligned w then [] else (lo ++ hi).filter (fun p => w.bar2 || p.1 < 0x100000)

/-- A read access (R4): two 32-bit reads for a 64-bit access, the lower address first; 0 in every byte of a misaligned
one. -/
def barRead (s : State) (src : Owner) (r : ReadIn) (w : BarWrite) : State :=
  each (if w.wide then [0, 4] else [0]) s (fun s k =>
    let q := if barAligned w then readAt s src r (barOffset w + k) else (s, 0)
    reading q.1 q.2)

/-- The RTC runs on to a write of its time, its alarm or its TRIM (R407). -/
def rtcTouched (s : State) (offs : List Nat) (cycles : Nat) : State :=
  if offs.any (fun o => 0x4048 ≤ o && o < 0x405C) then rtcAdvance s cycles else s

/-- REGISTER_WRITE (R4–R6), and the reads that the table has no row for. [log: DEDUCED 14; DESIGN CHOICE 99] -/
def execRegisterWrite (t : Frac) (src : Owner) (w : BarWrite) (s : State) : Res :=
  let s := atT s t
  .next (
    match w.read with
    | some r => barRead s src r w
    | none => each (barParts w) (rtcTouched s ((barParts w).map Prod.fst) w.env.cycles) (fun s p =>
        barWrite32 s src w.env p.1 p.2))

/-! ### Two-wire REG_READ and REG_WRITE -/

/-- Registers read upward from an address, as bytes. -/
def readRegs (o : Owner) (r : ReadIn) : Nat → Nat → State → State × Bytes
  | 0, _, s => (s, [])
  | n + 1, off, s =>
    let p := readAt s o r off
    let q := readRegs o r n (off + 4) p.1
    (q.1, toLE 4 p.2.toNat ++ q.2)

/-- The answer of REG_READ: address and count (R343). -/
def regRead (s : State) (r : ReadIn) (d : Bytes) : State × Bytes :=
  let off := leAt d 0 3
  let n := leAt d 3 1
  if off % 4 != 0 || n = 0 || 8 < n || 0x100000 < off + 4 * n then (s, [0])
  else
    let q := readRegs .tw r n off s
    (q.1, BitVec.ofNat 8 (4 * n) :: q.2)

/-- TW_REG_READ. -/
def execTwRegRead (t : Frac) (x : TwTx) (r : ReadIn) (s : State) : Res :=
  let s := atT s t
  let q := regRead s r (x.wr.drop 1)
  let done := twReady s && x.rd.isSome && x.wr.length == 5 && x.wr.head? == some 4
  let u := procCall s 0x02 x 4 (fun _ _ => q.2)
  .next (if done then { q.1 with out := q.1.out ++ u.out } else u)

/-- One register of a block write, and the highest code of R344 so far. -/
def writeTurn (env : WriteIn) (off : Nat) (a : State × Nat) (p : Word × Nat) : State × Nat :=
  let o := off + 4 * p.2
  let r := if o < 0x100000 then writeReg a.1 .tw env o p.1 else (a.1, 3)
  (r.1, Nat.max a.2 r.2)

/-- The registers of a REG_WRITE from an address upward; LAST_WR is the highest value that applies (R344, R345). -/
def regWrite (s : State) (env : WriteIn) (d : Bytes) : State :=
  let off := leAt d 0 3
  let ws := (chunks 4 ((d.length - 3) / 4) (d.drop 3)).map (fun b => BitVec.ofNat 32 (leNat b))
  if off % 4 != 0 then setLastWr s 3
  else
    let s := rtcTouched s ((List.range ws.length).map (fun i => off + 4 * i)) env.cycles
    let q := (ws.zip (List.range ws.length)).foldl (writeTurn env off) (s, 0)
    setLastWr q.1 q.2

/-- Counts of REG_WRITE: 3 + 4n, n = 1 to 8. -/
def regWriteCount (n : Nat) : Bool := 7 ≤ n && n ≤ 35 && (n - 3) % 4 == 0

/-- TW_REG_WRITE. [log: DEDUCED 15] -/
def execTwRegWrite (t : Frac) (x : TwTx) (w : WriteIn) (s : State) : Res :=
  .next (writeCode (atT s t) x (fun s => wakingWrite s 0x03 x regWriteCount (fun s d => regWrite s w d)))

/-! ### The wake from STANDBY -/

/-- A two-wire write acknowledged in STANDBY is applied (R401). [log: DEDUCED 17] -/
def applyLate (s : State) (c : Nat × Bytes) : State :=
  if c.1 = 0x03 then regWrite s .quiet c.2
  else if c.1 = 0x3F then twResets s (leAt c.2 0 1 - 0xA0)
  else if c.1 = 0x10 then setLastWr (acceptCmd s c.2) 0
  else if c.1 = 0x12 then
    let o := leAt c.2 0 2
    if 65536 < o + (c.2.length - 2) then setLastWr s 3
    else setLastWr { s with tw := { s.tw with buf := bufWrite s.tw.buf o (c.2.drop 2) } } 0
  else s

/-- STANDBY_WAKE_STROBE: steps 4 and 5 of R404, then the two-wire writes taken in STANDBY. -/
def execStandbyWakeStrobe (cycles : Nat) (x : StrobeIn) (s : State) : Res :=
  let s := standbyStrobe (rtcAdvance (atT s 0) cycles) x
  .next (if s.pd.st = .active then each s.tw.late { s with tw := { s.tw with late := [] } } applyLate else s)

/-! ### The Pantry -/

/-- PANTRY_UNCORRECTABLE (R385, R387, R388). [log: DEDUCED 29] -/
def execPantryUncorrectable (t : Frac) (x : PantryLoss) (s : State) : Res := .next (lineLost (atT s t) x)

/-! ### COMMAND_FETCH -/

/-- What the row of a command of class L answers when its data cannot be read: the checks that read none decide it. -/
def longRow (t : Frac) (f : Fetched) (s : State) : Option Res :=
  let c := f.cmd
  match f.op with
  | 0x0011 => if fldN (pwN c 0) 9 8 = 3 then some (execMxHalfTest t c s) else none
  | 0x0020 => some (execFxLoad t c none s)
  | 0x0022 => some (execFxTest t c s)
  | 0x0030 => some (execSpEnvLoad t c none s)
  | 0x0040 => some (execSetFrameRate t c s)
  | 0x0050 => some (scCal t c s (Nat.max 1 (pwN c 0 % 4)))
  | 0x0060 => some (if bitN (pwN c 0) 8 then execSceneSaveCapture t c s else execSceneSaveStore t c none s)
  | 0x0062 => some (execSceneDelete t c s)
  | 0x0080 => some (execSvFwStage t c none s)
  | 0x0083 => some (execSvKeygen t c s)
  | 0x0084 => some (execSvOwnerEnrol t c none s)
  | 0x0085 => some (execSvOwnerRevoke t c s)
  | _ => none

/-- The checks of R486 that read no data pass for a command of class L: its fetch begins the busy interval (R300). -/
def passesEarly (t : Frac) (f : Fetched) (s : State) : Bool :=
  match longRow t f s with
  | some (.next u) => u.hl.busy.isSome
  | _ => false

/-- The entry fetched is in the processor's hand; BUSY from the fetch of a command of class L (R300, R301, R486), and BUSY
kept for the one that a CONTROL reset interrupted (R423). -/
def takeEntry (t : Frac) (s : State) (f : Fetched) : State :=
  let s := { s with hl := { s.hl with fetched := some f } }
  if s.hl.rerun = some f.cmd.idx.toNat then
    { s with hl := { s.hl with rerun := none, busy := s.hl.busy.map (fun b => { b with slot := s.hl.nextSlot }) } }
  else if !passesEarly t f s then s
  else
    let b : Busy :=
      { op := f.op, slot := s.hl.nextSlot, doorbells := 0, writes := 0, since := nowTicks s, over_ := none }
    { s with hl := { s.hl with busy := some b } }

/-- COMMAND_FETCH (R291–R294): one announced entry; its command is the next of the host's to run. -/
def execCommandFetch (t : Frac) (d : Dma) (s : State) : Res :=
  let s := atT s t
  .next (
    if !canFetch s then s
    else
      let s := { leaveL1 s with tw := { s.tw with cmdAfter := s.tw.cmdAfter - 1 } }
      let c := s.hl.cmd
      match d with
      | none => haltRing s 2
      | some b =>
        if b.length != 64 then haltRing s 2
        else if leAt b 3 1 / 128 != b2n c.phase then haltRing s 1
        else
          let n := (c.cons + 1) % 2 ^ c.size
          takeEntry t { s with hl := { s.hl with
            cmd := { c with cons := n, phase := if n = 0 then !c.phase else c.phase } } } (entryCmd .host c.cons b))

/-! ### LONG_OPERATION_DONE -/

/-- The end of the operation itself, by what it is; those with a row of their own end there. -/
def longEnd (s : State) (us : Word) (r : LongDone) : State :=
  match s.hl.long with
  | some (.envLoad c img src) => envLoaded s us c img src r.nvOk
  | some (.scCal step k e n target) => scCalDone s us step k e n target r.nvOk
  | some (.sceneStore k b) => sceneStored s us k b r.nvOk
  | some (.sceneCapture k lo hi engs) => sceneCaptured s us k lo hi engs r.nvOk
  | some (.sceneDelete k) => sceneDeleted s us k r.nvOk
  | some (.fwStage img) => fwStaged s us img r.fwOk r.nvOk
  | some (.keygen d) => keygenDone s us d r.nvOk
  | some (.enrol i h) => enrolDone s us i h r.nvOk
  | some (.revoke i) => revokeDone s us i r.nvOk
  | some .dmaFail => endLong s us stDmaError noIndex
  | some (.fxLoad _ _ _ _) | some (.fxTest _) | some (.halfTest _) | some (.rate _) | none => s

/-- LONG_OPERATION_DONE (R300). [log: DEDUCED 26] -/
def execLongOperationDone (t : Frac) (us : Word) (r : LongDone) (s : State) : Res :=
  .next (longEnd (pantryReads (atT s t) r.reads) us r)

end Sys2Proof.Machine
end

