-- ==== Sys2Proof/Machine/Dispatch.lean ====
section
/-! DEFINITION. One arm per command: each is one call of its meaning. -/

namespace Sys2Proof.Machine

open Sys2Proof

-- Every command has its own meaning; what it does to the queue is the step's (Step.lean).
def exec (i : Instr) (s : State) : Host.Outcome State Fault Refusal :=
  match i with
  | .frameStrobe x => Sys2Proof.Machine.execFrameStrobe x s
  | .frameDrain t x => Sys2Proof.Machine.execFrameDrain t x s
  | .preStrobeMark t => Sys2Proof.Machine.execPreStrobeMark t s
  | .abortEnd t x => Sys2Proof.Machine.execAbortEnd t x s
  | .sinkComplete t k corrected => Sys2Proof.Machine.execSinkComplete t k corrected s
  | .engineInputsComplete t e => Sys2Proof.Machine.execEngineInputsComplete t e s
  | .engineFrameComplete t e corrected => Sys2Proof.Machine.execEngineFrameComplete t e corrected s
  | .engineFailure t e cause stage => Sys2Proof.Machine.execEngineFailure t e cause stage s
  | .delayUncorrectable t e stage n => Sys2Proof.Machine.execDelayUncorrectable t e stage n s
  | .laneError t lane sinks => Sys2Proof.Machine.execLaneError t lane sinks s
  | .tableUncorrectable t sink source inFrame pos asRead => Sys2Proof.Machine.execTableUncorrectable t sink source inFrame pos asRead s
  | .mxTimeRead t => Sys2Proof.Machine.execMxTimeRead t s
  | .xpLookup t src v corrected => Sys2Proof.Machine.execXpLookup t src v corrected s
  | .slackRearm t src => Sys2Proof.Machine.execSlackRearm t src s
  | .slackClear t src => Sys2Proof.Machine.execSlackClear t src s
  | .clipClear t src v => Sys2Proof.Machine.execClipClear t src v s
  | .registerWrite t src w => Sys2Proof.Machine.execRegisterWrite t src w s
  | .mixCommit t c d corrected => Sys2Proof.Machine.execMixCommit t c d corrected s
  | .fxLoad t c d => Sys2Proof.Machine.execFxLoad t c d s
  | .fxLoadStaged t us nvOk blocks => Sys2Proof.Machine.execFxLoadStaged t us nvOk blocks s
  | .fxClear t c => Sys2Proof.Machine.execFxClear t c s
  | .fxTest t c => Sys2Proof.Machine.execFxTest t c s
  | .engineTestDone t us r vector => Sys2Proof.Machine.execEngineTestDone t us r vector s
  | .fxPdataAccess t src w => Sys2Proof.Machine.execFxPdataAccess t src w s
  | .fxPcommit t src v => Sys2Proof.Machine.execFxPcommit t src v s
  | .nop t c => Sys2Proof.Machine.execNop t c s
  | .setupLock t c => Sys2Proof.Machine.execSetupLock t c s
  | .reset t c => Sys2Proof.Machine.execReset t c s
  | .mxHalfOut t c => Sys2Proof.Machine.execMxHalfOut t c s
  | .mxHalfIn t c => Sys2Proof.Machine.execMxHalfIn t c s
  | .mxHalfTest t c => Sys2Proof.Machine.execMxHalfTest t c s
  | .halfTestDone t us failed memBad => Sys2Proof.Machine.execHalfTestDone t us failed memBad s
  | .sceneSaveStore t c d => Sys2Proof.Machine.execSceneSaveStore t c d s
  | .sceneSaveCapture t c => Sys2Proof.Machine.execSceneSaveCapture t c s
  | .sceneRecall t c reads => Sys2Proof.Machine.execSceneRecall t c reads s
  | .sceneDelete t c => Sys2Proof.Machine.execSceneDelete t c s
  | .sceneRead t c reads => Sys2Proof.Machine.execSceneRead t c reads s
  | .pdDomain t c => Sys2Proof.Machine.execPdDomain t c s
  | .domainPowerGood t d failed memBad x => Sys2Proof.Machine.execDomainPowerGood t d failed memBad x s
  | .domainFault t d begun => Sys2Proof.Machine.execDomainFault t d begun s
  | .pdStateStandby t c => Sys2Proof.Machine.execPdStateStandby t c s
  | .pdStateSleep t c => Sys2Proof.Machine.execPdStateSleep t c s
  | .stateEntryHalt t => Sys2Proof.Machine.execStateEntryHalt t s
  | .sleepPowerDown t => Sys2Proof.Machine.execSleepPowerDown t s
  | .svFwStage t c d => Sys2Proof.Machine.execSvFwStage t c d s
  | .svFwActivate t c => Sys2Proof.Machine.execSvFwActivate t c s
  | .fwConfirmed t => Sys2Proof.Machine.execFwConfirmed t s
  | .svAttest t c d => Sys2Proof.Machine.execSvAttest t c d s
  | .svKeygen t c => Sys2Proof.Machine.execSvKeygen t c s
  | .svOwnerEnrol t c d => Sys2Proof.Machine.execSvOwnerEnrol t c d s
  | .svOwnerRevoke t c => Sys2Proof.Machine.execSvOwnerRevoke t c s
  | .svCertRead t c reads => Sys2Proof.Machine.execSvCertRead t c reads s
  | .plPair t c => Sys2Proof.Machine.execPlPair t c s
  | .plUnpair t c => Sys2Proof.Machine.execPlUnpair t c s
  | .plFailover t c => Sys2Proof.Machine.execPlFailover t c s
  | .plResume t c => Sys2Proof.Machine.execPlResume t c s
  | .unknownCommand t op c => Sys2Proof.Machine.execUnknownCommand t op c s
  | .commandDoorbell t full v cycles => Sys2Proof.Machine.execCommandDoorbell t full v cycles s
  | .completionDoorbell t full v => Sys2Proof.Machine.execCompletionDoorbell t full v s
  | .eventDoorbell t full v => Sys2Proof.Machine.execEventDoorbell t full v s
  | .ringCfgWrite t src r v => Sys2Proof.Machine.execRingCfgWrite t src r v s
  | .ringBaseWrite t src r hi v => Sys2Proof.Machine.execRingBaseWrite t src r hi v s
  | .commandFetch t d => Sys2Proof.Machine.execCommandFetch t d s
  | .eventsLost t => Sys2Proof.Machine.execEventsLost t s
  | .irqHoldoffExpiry t v => Sys2Proof.Machine.execIrqHoldoffExpiry t v s
  | .functionLevelReset t => Sys2Proof.Machine.execFunctionLevelReset t s
  | .linkChanged t x what => Sys2Proof.Machine.execLinkChanged t x what s
  | .chEnable t c => Sys2Proof.Machine.execChEnable t c s
  | .chDisable t c => Sys2Proof.Machine.execChDisable t c s
  | .chMute t c mute => Sys2Proof.Machine.execChMute t c mute s
  | .chRearm t c => Sys2Proof.Machine.execChRearm t c s
  | .psConfigWrite t src c r v => Sys2Proof.Machine.execPsConfigWrite t src c r v s
  | .bootstrapChargeEnd t c => Sys2Proof.Machine.execBootstrapChargeEnd t c s
  | .softStartEnd t c => Sys2Proof.Machine.execSoftStartEnd t c s
  | .stopRampEnd t c => Sys2Proof.Machine.execStopRampEnd t c s
  | .brOvercurrent t c pvdd => Sys2Proof.Machine.execBrOvercurrent t c pvdd s
  | .dxCycleLimit t d consecutive => Sys2Proof.Machine.execDxCycleLimit t d consecutive s
  | .dxLimitShutdown t d => Sys2Proof.Machine.execDxLimitShutdown t d s
  | .hiccupEnd t d => Sys2Proof.Machine.execHiccupEnd t d s
  | .clockMute t missing => Sys2Proof.Machine.execClockMute t missing s
  | .clockResume t => Sys2Proof.Machine.execClockResume t s
  | .dcFault t c => Sys2Proof.Machine.execDcFault t c s
  | .supplyMute t d cause v => Sys2Proof.Machine.execSupplyMute t d cause v s
  | .supplyResume t d cause => Sys2Proof.Machine.execSupplyResume t d cause s
  | .tempShutdown t d temp => Sys2Proof.Machine.execTempShutdown t d temp s
  | .tempResume t d temp => Sys2Proof.Machine.execTempResume t d temp s
  | .pvddSag t d lowest => Sys2Proof.Machine.execPvddSag t d lowest s
  | .tempWarn t d temp => Sys2Proof.Machine.execTempWarn t d temp s
  | .quietEntry t c => Sys2Proof.Machine.execQuietEntry t c s
  | .domainIdleOff t d => Sys2Proof.Machine.execDomainIdleOff t d s
  | .idleWakeSoftStart t d => Sys2Proof.Machine.execIdleWakeSoftStart t d s
  | .idleWakeRun t d => Sys2Proof.Machine.execIdleWakeRun t d s
  | .pilotWindowEnd t c => Sys2Proof.Machine.execPilotWindowEnd t c s
  | .impLatchClear t c => Sys2Proof.Machine.execImpLatchClear t c s
  | .peakClear t c => Sys2Proof.Machine.execPeakClear t c s
  | .spRegisterWrite t src c off v => Sys2Proof.Machine.execSpRegisterWrite t src c off v s
  | .spEnvLoad t c d => Sys2Proof.Machine.execSpEnvLoad t c d s
  | .spEnvClear t c => Sys2Proof.Machine.execSpEnvClear t c s
  | .aiEnable t n => Sys2Proof.Machine.execAiEnable t n s
  | .aiPrechargeEnd t n => Sys2Proof.Machine.execAiPrechargeEnd t n s
  | .aiSettleEnd t q => Sys2Proof.Machine.execAiSettleEnd t q s
  | .aiDisable t q => Sys2Proof.Machine.execAiDisable t q s
  | .pgaGainChange t n gain => Sys2Proof.Machine.execPgaGainChange t n gain s
  | .pgaZeroCrossing t n => Sys2Proof.Machine.execPgaZeroCrossing t n s
  | .pgaZcTimeout t n => Sys2Proof.Machine.execPgaZcTimeout t n s
  | .pathHToL t n => Sys2Proof.Machine.execPathHToL t n s
  | .pathLToH t n => Sys2Proof.Machine.execPathLToH t n s
  | .pathForced t n => Sys2Proof.Machine.execPathForced t n s
  | .biasEnable t b en => Sys2Proof.Machine.execBiasEnable t b en s
  | .biasShort t b current => Sys2Proof.Machine.execBiasShort t b current s
  | .pdmStuck t m value => Sys2Proof.Machine.execPdmStuck t m value s
  | .pdmRecovered t m => Sys2Proof.Machine.execPdmRecovered t m s
  | .jackChanged t j cycles => Sys2Proof.Machine.execJackChanged t j cycles s
  | .jackPlugRelease t j => Sys2Proof.Machine.execJackPlugRelease t j s
  | .aiPeakClear t src v => Sys2Proof.Machine.execAiPeakClear t src v s
  | .outEnable t o => Sys2Proof.Machine.execOutEnable t o s
  | .outConverterStart t o => Sys2Proof.Machine.execOutConverterStart t o s
  | .outShuntOpen t o => Sys2Proof.Machine.execOutShuntOpen t o s
  | .outStarted t o => Sys2Proof.Machine.execOutStarted t o s
  | .outDisable t o => Sys2Proof.Machine.execOutDisable t o s
  | .outShuntClose t o => Sys2Proof.Machine.execOutShuntClose t o s
  | .outStopped t o => Sys2Proof.Machine.execOutStopped t o s
  | .outShort t o leg => Sys2Proof.Machine.execOutShort t o leg s
  | .cpFault t rail => Sys2Proof.Machine.execCpFault t rail s
  | .cpResumed t => Sys2Proof.Machine.execCpResumed t s
  | .supplyClamp t v => Sys2Proof.Machine.execSupplyClamp t v s
  | .cpStop t => Sys2Proof.Machine.execCpStop t s
  | .hpJackChanged t h cycles => Sys2Proof.Machine.execHpJackChanged t h cycles s
  | .hpJackUnmute t h => Sys2Proof.Machine.execHpJackUnmute t h s
  | .outRateSettleEnd t o => Sys2Proof.Machine.execOutRateSettleEnd t o s
  | .portEnable t p => Sys2Proof.Machine.execPortEnable t p s
  | .portDisable t p => Sys2Proof.Machine.execPortDisable t p s
  | .portFmtWrite t src p v => Sys2Proof.Machine.execPortFmtWrite t src p v s
  | .portFrame t p x => Sys2Proof.Machine.execPortFrame t p x s
  | .srcLocked t p => Sys2Proof.Machine.execSrcLocked t p s
  | .fsMissingTimeout t p => Sys2Proof.Machine.execFsMissingTimeout t p s
  | .maskWrite t src p rx v late => Sys2Proof.Machine.execMaskWrite t src p rx v late s
  | .setFrameRate t c => Sys2Proof.Machine.execSetFrameRate t c s
  | .frameRateApplied us x => Sys2Proof.Machine.execFrameRateApplied us x s
  | .setFsw t c => Sys2Proof.Machine.execSetFsw t c s
  | .pllLocked t j band cached us => Sys2Proof.Machine.execPllLocked t j band cached us s
  | .pllUnlocked t j phase => Sys2Proof.Machine.execPllUnlocked t j phase s
  | .strobeRestart t phase => Sys2Proof.Machine.execStrobeRestart t phase s
  | .refEdgeTimeout t r => Sys2Proof.Machine.execRefEdgeTimeout t r s
  | .refQualified t r offset => Sys2Proof.Machine.execRefQualified t r offset s
  | .refFrequencyOutOfWindow t r offset => Sys2Proof.Machine.execRefFrequencyOutOfWindow t r offset s
  | .refEdgeReturn t r => Sys2Proof.Machine.execRefEdgeReturn t r s
  | .refHoldoffExpiry t r => Sys2Proof.Machine.execRefHoldoffExpiry t r s
  | .refFreqAcqEnd t offset later => Sys2Proof.Machine.execRefFreqAcqEnd t offset later s
  | .refPhaseWalkEnd t err => Sys2Proof.Machine.execRefPhaseWalkEnd t err s
  | .refLocked t err => Sys2Proof.Machine.execRefLocked t err s
  | .ckSteerWrite t src v => Sys2Proof.Machine.execCkSteerWrite t src v s
  | .spreadApply t => Sys2Proof.Machine.execSpreadApply t s
  | .xtalFail t => Sys2Proof.Machine.execXtalFail t s
  | .xtalRestored t => Sys2Proof.Machine.execXtalRestored t s
  | .fpOutState t k run => Sys2Proof.Machine.execFpOutState t k run s
  | .cacheFlush t src v => Sys2Proof.Machine.execCacheFlush t src v s
  | .scCalZero t c => Sys2Proof.Machine.execScCalZero t c s
  | .scCalFull t c => Sys2Proof.Machine.execScCalFull t c s
  | .scCalSave t c => Sys2Proof.Machine.execScCalSave t c s
  | .scanStart t src k => Sys2Proof.Machine.execScanStart t src k s
  | .scanStop t src k => Sys2Proof.Machine.execScanStop t src k s
  | .scConversionDone t k e x fn frac urgent twin => Sys2Proof.Machine.execScConversionDone t k e x fn frac urgent twin s
  | .urgentConversion t src k v startWins => Sys2Proof.Machine.execUrgentConversion t src k v startWins s
  | .groupStart t c => Sys2Proof.Machine.execGroupStart t c s
  | .ctxStop t c => Sys2Proof.Machine.execCtxStop t c s
  | .streamDoorbell t k full v => Sys2Proof.Machine.execStreamDoorbell t k full v s
  | .streamEnable t src k v => Sys2Proof.Machine.execStreamEnable t src k v s
  | .descriptorFetch t k d => Sys2Proof.Machine.execDescriptorFetch t k d s
  | .playbackReadLanded t k fn d => Sys2Proof.Machine.execPlaybackReadLanded t k fn d s
  | .recordDeadline t k => Sys2Proof.Machine.execRecordDeadline t k s
  | .descriptorRetire t k => Sys2Proof.Machine.execDescriptorRetire t k s
  | .streamError t k cause => Sys2Proof.Machine.execStreamError t k cause s
  | .groupStartFrame t g lost => Sys2Proof.Machine.execGroupStartFrame t g lost s
  | .strPosRead t k => Sys2Proof.Machine.execStrPosRead t k s
  | .twRegRead t x r => Sys2Proof.Machine.execTwRegRead t x r s
  | .twRegWrite t x w => Sys2Proof.Machine.execTwRegWrite t x w s
  | .twCmd t x => Sys2Proof.Machine.execTwCmd t x s
  | .twCmdResult t x => Sys2Proof.Machine.execTwCmdResult t x s
  | .twBufWrite t x => Sys2Proof.Machine.execTwBufWrite t x s
  | .twBufRead t x => Sys2Proof.Machine.execTwBufRead t x s
  | .twEventRead t x => Sys2Proof.Machine.execTwEventRead t x s
  | .twStatusRead t x => Sys2Proof.Machine.execTwStatusRead t x s
  | .twReset t x => Sys2Proof.Machine.execTwReset t x s
  | .twUnknownCode t code => Sys2Proof.Machine.execTwUnknownCode t code s
  | .alertResponse t lost => Sys2Proof.Machine.execAlertResponse t lost s
  | .alertRearm t => Sys2Proof.Machine.execAlertRearm t s
  | .hostNotify t r => Sys2Proof.Machine.execHostNotify t r s
  | .notifyRetry t r => Sys2Proof.Machine.execNotifyRetry t r s
  | .controllerRetry t r => Sys2Proof.Machine.execControllerRetry t r s
  | .twSdaStuck t => Sys2Proof.Machine.execTwSdaStuck t s
  | .sdaStuckRetry t freed => Sys2Proof.Machine.execSdaStuckRetry t freed s
  | .twStretchReset t target code write => Sys2Proof.Machine.execTwStretchReset t target code write s
  | .twSclLow t role inTx => Sys2Proof.Machine.execTwSclLow t role inTx s
  | .twSdaLow t own inTx => Sys2Proof.Machine.execTwSdaLow t own inTx s
  | .twWakeMatch t addr cycles => Sys2Proof.Machine.execTwWakeMatch t addr cycles s
  | .twWakeKnock t edges low cycles => Sys2Proof.Machine.execTwWakeKnock t edges low cycles s
  | .vcoreLevelRaise t r => Sys2Proof.Machine.execVcoreLevelRaise t r s
  | .vcoreLevelLower t r => Sys2Proof.Machine.execVcoreLevelLower t r s
  | .ctVidWrite t src v r => Sys2Proof.Machine.execCtVidWrite t src v r s
  | .pantryUncorrectable t x => Sys2Proof.Machine.execPantryUncorrectable t x s
  | .pairHello t h cert => Sys2Proof.Machine.execPairHello t h cert s
  | .pairFinish t sig => Sys2Proof.Machine.execPairFinish t sig s
  | .pairAuthTimeout t => Sys2Proof.Machine.execPairAuthTimeout t s
  | .pairAuthRetry t => Sys2Proof.Machine.execPairAuthRetry t s
  | .wakeSource t src awc gaps cycles => Sys2Proof.Machine.execWakeSource t src awc gaps cycles s
  | .standbyWakeStrobe cycles x => Sys2Proof.Machine.execStandbyWakeStrobe cycles x s
  | .rtcAlarm t cycles => Sys2Proof.Machine.execRtcAlarm t cycles s
  | .rtcOscFail t cycles => Sys2Proof.Machine.execRtcOscFail t cycles s
  | .rtcOscRestart t => Sys2Proof.Machine.execRtcOscRestart t s
  | .rtcSet t src v cycles => Sys2Proof.Machine.execRtcSet t src v cycles s
  | .rtcRead t cycles => Sys2Proof.Machine.execRtcRead t cycles s
  | .retDataAccess t src w bad => Sys2Proof.Machine.execRetDataAccess t src w bad s
  | .awcChanged t k ball vaon cycles => Sys2Proof.Machine.execAwcChanged t k ball vaon cycles s
  | .powerOnReset t => Sys2Proof.Machine.execPowerOnReset t s
  | .supplyMonitorReset t r => Sys2Proof.Machine.execSupplyMonitorReset t r s
  | .supplyMonitorClear t r => Sys2Proof.Machine.execSupplyMonitorClear t r s
  | .rstNAssert t => Sys2Proof.Machine.execRstNAssert t s
  | .rstNRelease t stillLow => Sys2Proof.Machine.execRstNRelease t stillLow s
  | .rstNExtensionEnd t => Sys2Proof.Machine.execRstNExtensionEnd t s
  | .perstAssert t => Sys2Proof.Machine.execPerstAssert t s
  | .perstRelease t cycles => Sys2Proof.Machine.execPerstRelease t cycles s
  | .watchdogReset t cycles => Sys2Proof.Machine.execWatchdogReset t cycles s
  | .criticalError t region word => Sys2Proof.Machine.execCriticalError t region word s
  | .optionLoadingDone t o => Sys2Proof.Machine.execOptionLoadingDone t o s
  | .bringupCtrlUp t complete => Sys2Proof.Machine.execBringupCtrlUp t complete s
  | .bringupLarderDone t x => Sys2Proof.Machine.execBringupLarderDone t x s
  | .bringupClkUp x => Sys2Proof.Machine.execBringupClkUp x s
  | .bringupHostUp t us => Sys2Proof.Machine.execBringupHostUp t us s
  | .strellinChanged t lanes => Sys2Proof.Machine.execStrellinChanged t lanes s
  | .linkDelayMeasure t delay => Sys2Proof.Machine.execLinkDelayMeasure t delay s
  | .pairPacket t p => Sys2Proof.Machine.execPairPacket t p s
  | .heartbeatMissed t pfn => Sys2Proof.Machine.execHeartbeatMissed t pfn s
  | .syncCheckRetry t v => Sys2Proof.Machine.execSyncCheckRetry t v s
  | .syncCopyDone t x => Sys2Proof.Machine.execSyncCopyDone t x s
  | .rendezvousTimeout t seq => Sys2Proof.Machine.execRendezvousTimeout t seq s
  | .relayDelayExpiry t => Sys2Proof.Machine.execRelayDelayExpiry t s
  | .failoverPinLow t => Sys2Proof.Machine.execFailoverPinLow t s
  | .failoverPinHigh t => Sys2Proof.Machine.execFailoverPinHigh t s
  | .peerResetSend t src v => Sys2Proof.Machine.execPeerResetSend t src v s
  | .peerResetRequest t scope => Sys2Proof.Machine.execPeerResetRequest t scope s
  | .longOperationDone t us r => Sys2Proof.Machine.execLongOperationDone t us r s
  | .linkReauthentication t => Sys2Proof.Machine.execLinkReauthentication t s

end Sys2Proof.Machine
end

