-- ==== Sys2Proof/Machine/Step.lean ====
section
/-! DEFINITION. The step of the block: the command at the front of the queue, and the idle step. -/

namespace Sys2Proof.Machine

open Sys2Proof

/-- The state with a command taken from the front of its queue. -/
def State.dequeue (s : State) (rest : List Instr) : State := { s with pending := rest }

/-- One step: the first waiting command runs on the state with the rest of the queue; an empty queue idles. -/
def step (s : State) : Host.Outcome State Fault Refusal :=
  match s.pending with
  | [] => .next s
  | c :: r => exec c (s.dequeue r)

/-- The state with the command that a word spells put at the front of the queue; the table gives no row a word.
[log: DEDUCED 2] -/
def State.withFetchWord (s : State) (nbits w : Nat) : State :=
  match decodeTableWord nbits w with
  | some c => { s with pending := c :: s.pending }
  | none => s

end Sys2Proof.Machine
end

