-- ==== Sys2Proof/Machine/Balls.lean ====
section
/-! DEFINITION. The balls of the module: which net each one belongs to (R465–R468), and the state that each group of
balls shows outside the block (R396, R432, R469). -/

namespace Sys2Proof.Machine

open Sys2Proof

/-! ### Ball map (R465–R468) -/

/-- A net of the ball map; a signal by its name. -/
inductive Net where
  | signal (name : String)
  | vcore | vmem | vana18 | vana33 | vioH | vioA | vaon | pvddA | pvddB | vgate | pgndA | pgndB | agnd | dgnd
  deriving DecidableEq, Repr

/-- A signal of the `n`-th block of a kind. -/
def sigN (kind : String) (n : Nat) (pin : String) : Net := .signal (kind ++ toString n ++ pin)

/-- Ball `j` of a bridge, 1 to 7, in row A to F (R466). -/
def bridgeBall (n row j : Nat) (pvdd pgnd : Net) : Net :=
  if row ≤ 1 then
    if j ≤ 3 then sigN "BR" n "_OUTP" else if j = 4 then pgnd else sigN "BR" n "_OUTN"
  else if row = 2 then
    match j with
    | 1 => sigN "BR" n "_BSP"
    | 2 => sigN "BR" n "_FBP"
    | 6 => sigN "BR" n "_FBN"
    | 7 => sigN "BR" n "_BSN"
    | _ => pgnd
  else if row = 3 then pgnd else pvdd

/-- Ball `k` of a drive channel, 1 to 4, in row A to F (R466). -/
def driveBall (n row k : Nat) (pgnd : Net) : Net :=
  if row = 0 then sigN "DX" n (["_BST", "_GH", "_SW", "_GL"].getD (k - 1) "")
  else if row = 2 then sigN "DX" n (["_ISP", "_ISN", "_FBP", "_FBN"].getD (k - 1) "")
  else if row ≤ 3 then pgnd else .vgate

/-- A power region, rows counted from the outer edge inwards: P-A, or P-B with its bridges and drive channels. -/
def powerBall (b : Bool) (row col : Nat) : Net :=
  let pvdd := if b then Net.pvddB else .pvddA
  let pgnd := if b then Net.pgndB else .pgndA
  if col ≤ 28 then bridgeBall ((col - 1) / 7 + 4 * b2n b) row ((col - 1) % 7 + 1) pvdd pgnd
  else if col ≤ 36 then driveBall ((col - 29) / 4 + 2 * b2n b) row ((col - 29) % 4 + 1) pgnd
  else if row ≤ 2 then pgnd else .vgate

/-- The four balls of a serial port, in the order of R467. -/
def portBall (p i : Nat) : Net := sigN "DP" p (["_BCLK", "_FS", "_DIN", "_DOUT"].getD i "")

/-- Column 33: `i` is the position of the row in the list of R467, counted from 0. -/
def column33 (i : Nat) : Net :=
  let l := ["PDM_D15", "SMUX_A0", "SMUX_A1", "SMUX_A2", "VCORE_VID0", "VCORE_VID1", "MCLK_OUT0", "MCLK_OUT1",
            "FP_OUT0", "FP_OUT1", "REF_IN0", "REF_IN1", "PPS_IN"]
  if i < 13 then .signal (l.getD i "")
  else if i = 13 then .dgnd
  else if i < 22 then sigN "AWC" (i - 14) ""
  else if i = 22 then .signal "RTC_XIN"
  else if i = 23 then .signal "RTC_XOUT"
  else .vaon

/-- Columns 36 and 37: twelve places of PCI Express, three of the link's control, six of Strellin, four of the bus; an empty
name is DGND. -/
def laneColumn (dir : String) (mid last : List String) (i : Nat) : Net :=
  let lane (kind : String) (i : Nat) : Net :=
    if i % 3 = 2 then .dgnd else sigN (kind ++ dir) (i / 3) (if i % 3 = 0 then "_P" else "_N")
  let named (l : List String) (i : Nat) : Net := if l.getD i "" = "" then .dgnd else .signal (l.getD i "")
  if i < 12 then lane "PCIE_" i
  else if i < 15 then named mid (i - 12)
  else if i < 21 then lane "SL_" (i - 15)
  else named last (i - 21)

/-- Columns 10 to 31 (R467). -/
def coreBall (i col : Nat) : Net :=
  if i ≤ 1 || 23 ≤ i then .dgnd
  else if i = 2 then .vioH
  else if i = 22 then .vmem
  else if (i + 1 + col) % 2 = 0 then .vcore
  else .dgnd

/-- The C-die region (R467). -/
def dieBall (i col : Nat) : Net :=
  if 10 ≤ col && col ≤ 31 then coreBall i col
  else match col with
    | 1 => if i < 16 then sigN "AIN" i "_P" else if i < 20 then sigN "MICBIAS" (i - 16) "" else .agnd
    | 2 => if i < 16 then sigN "AIN" i "_N" else .agnd
    | 4 =>
      if i < 16 then sigN "LOUT" i "_P"
      else if i < 24 then sigN "HP" ((i - 16) / 2) (if i % 2 = 0 then "_L" else "_R")
      else .signal "HP_CPP"
    | 5 => if i < 16 then sigN "LOUT" i "_N" else if i < 24 then .agnd else .signal "HP_CPN"
    | 6 => if i < 8 then .vana33 else if i < 16 then .vana18 else .agnd
    | 7 => sigN "SNS" i ""
    | 8 => if i < 23 then sigN "SNS" (25 + i) "" else if i = 23 then .signal "SNS_REF" else .agnd
    | 9 => if i < 23 then .agnd else .signal (if i = 23 then "XTAL_IN" else "XTAL_OUT")
    | 32 => if i < 8 then .vioA else if i < 16 then .vioH else if i < 18 then .vaon else .dgnd
    | 33 => column33 i
    | 34 =>
      if i < 8 then portBall (6 + i / 4) (i % 4)
      else if i < 10 then sigN "PDM_CLK" (i - 8) ""
      else sigN "PDM_D" (i - 10) ""
    | 35 => if i < 24 then portBall (i / 4) (i % 4) else .vioA
    | 36 => laneColumn "RX" ["PERST_N", "CLKREQ_N", "WAKE_N"] ["TW_SCL", "TW_SDA", "TW_ALERT_N", ""] i
    | 37 => laneColumn "TX" ["PCIE_REFCLK_P", "PCIE_REFCLK_N", ""] ["SL_FAILOVER_N", "RST_N", "CFG_SEL", ""] i
    | _ => .agnd

/-- The net of the ball in row `r` (0 for A, 36 for AW) and column `c`, 1 to 37. -/
def netAt (r c : Nat) : Net :=
  if r < 6 then powerBall false r c else if r < 31 then dieBall (r - 6) c else powerBall true (36 - r) c

/-- Every ball of the module. -/
def ballNets : List Net :=
  (List.range 37).flatMap (fun r => (List.range 37).map (fun c => netAt r (c + 1)))

/-- How many balls satisfy `p` (R468). -/
def ballCount (p : Net → Bool) : Nat := (ballNets.filter p).length

def isSignal : Net → Bool
  | .signal _ => true
  | _ => false

/-! ### States of the balls (R432, R469) -/

/-- The groups of balls that R469 lists. -/
inductive Ball where
  | pcie | perst | strellin | slRx0 | clkreq | wake | rst | failover | twLines | twAlert | cfgSel | ain (n : Fin 16) | sns | snsRef
  | micBias (b : Fin 4) | pdmClk (k : Fin 2) | pdmData | smux (i : Fin 3)
  | output (o : Fin 24) | chargePump | awc
  | bclk (p : Fin 8) | fs (p : Fin 8) | din (p : Fin 8) | dout (p : Fin 8)
  | rtc | xtal | refIn (r : Fin 3) | mclkOut (k : Fin 2) | fpOut (k : Fin 2) | vid (i : Fin 2)
  | bridge (n : Fin 8) | gate (d : Fin 4) | powerSense (d : PowerDie)
  deriving DecidableEq, Repr

/-- What a ball shows: high impedance; an open-drain ball released or low; a level driven; driven as its block's rules
say; in use as an input; without load; electrical idle; shunted to AGND through 100 Ω; held to AGND through 10 kΩ; both
switches off; a gate held through 20 kΩ; stopped; sourcing 5 µA; an input biased to 1.50 V with `ohms` from each leg (R172);
a clock of `hz`; the pulses of a frame-pulse output (R258). -/
inductive BallState where
  | highZ | released | low | level (on : Bool) | driven | input | noLoad | idle | shunted | pulled | switchesOff
  | gateHeld | stopped | sources | biased (ohms : Nat) | clock (hz : Nat) | pulses (p : FpPulses)
  deriving DecidableEq, Repr

/-- A COLD or WARM reset, or the bring-up after it, is in progress. -/
def inReset (s : State) : Bool := s.ct.cur.isSome

/-- `x` while the domain is powered and no reset runs, else `off`. [log: DEDUCED 102] -/
def whileOn (s : State) (d : Nat) (off x : BallState) : BallState := if domOn s d && !inReset s then x else off

/-- A clock or frame ball of a port: driven by a controller that is not OFF, low while the port holds its clocks
(R225), and received otherwise. -/
def portClock (s : State) (p : Nat) : BallState :=
  if (port s p).st == .off then .highZ
  else if !(rb s .dpFmt p 31) then .input
  else if !drivesOut s then .highZ
  else if clockHeld s p then .low
  else .driven

/-- The frequency of MCLK_OUTk: the port clock root of PLL_A or PLL_B over 4, 8, 16, 32 or 64 (R257). -/
def mclkHz (s : State) (k : Nat) : Nat :=
  (if rb s .ckMclkCfg 0 (8 * k + 6) then 90316800 else 98304000) / 2 ^ (2 + rf s .ckMclkCfg 0 (8 * k + 2) (8 * k))

/-- MCLK_OUTk (R254, R257), which only a module that drives its digital outputs drives (R451), once configured (R432). -/
def mclkState (s : State) (k : Nat) : BallState :=
  if !drivesOut s || !s.ck.mclkConf then .highZ
  else if rb s .ckMclkCfg 0 (8 * k + 7) && (pll s (rf s .ckMclkCfg 0 (8 * k + 6) (8 * k + 6))).lock then
    .clock (mclkHz s k)
  else .low

/-- FP_OUTk (R258), in the same way. -/
def fpState (s : State) (k : Nat) : BallState :=
  if !drivesOut s || !tget false s.ck.fpConf k then .highZ
  else if rb s .ckFpCfg k 31 && !tget false s.ck.fpStop k then .pulses (fpPulses s k)
  else .low

/-- MICBIASb while AIN is powered (R177). -/
def biasState (s : State) (b : Nat) : BallState :=
  let x := tget Bias.reset s.ai.bias b
  if !s.ai.biasConf then .highZ
  else if x.on || nowTicks s < x.volt.at_ + x.volt.len then .driven
  else .pulled

/-- PDM_CLKk while AIN is powered (R182). -/
def pdmState (s : State) (k : Nat) : BallState :=
  let x := tget PdmClock.reset s.ai.clk k
  if !s.ai.pdmConf then .highZ else if x.run then .clock (pdmHz x.sel s.fr.rate) else .low

/-- A line or headphone output (R203): shunted unless it drives, and high impedance where VANA33 is too low to hold the shunt
(R207). -/
def outputState (s : State) (o : Nat) : BallState :=
  if shuntsLost s then .highZ else if domOn s domAOUT && !inReset s && driving (outp s o) then .driven else .shunted

/-- SL_TX and SL_RX: high impedance while CLK is off in ACTIVE and QUIET (R396), else at electrical idle. -/
def strellinState (s : State) : BallState :=
  if inReset s || s.pd.st == .standby || s.pd.st == .sleep then .idle
  else if domOn s domCLK then .driven
  else .highZ

/-- WAKE_N: R308 in ACTIVE and QUIET, R406 in SLEEP and from the wake on, and released in STANDBY (R469). -/
def wakeBall (s : State) : BallState :=
  match s.pd.st with
  | .standby => .released
  | .sleep => if s.pd.wakeN then .low else .released
  | _ => if s.pd.wakeN || s.hl.pmeWake then .low else .released

/-- CLKREQ_N: the clock is requested in L0 and L1, and released in L1.1 and L1.2. [log: PRESUMED 108] -/
def clkreqState (s : State) : BallState :=
  if inReset s || s.pd.st == .sleep || !s.hl.linkUp then .input
  else if s.hl.aspm < 2 then .low
  else .released

/-- The state of a ball (R432, R469). [log: DEDUCED 102] -/
def ballState (s : State) (b : Ball) : BallState :=
  match b with
  | .pcie => if s.ct.perst then .idle else whileOn s 0 .idle (if s.hl.linkUp then .driven else .idle)
  | .perst => .input
  | .strellin => strellinState s
  | .slRx0 => if (s.pd.st == .standby || s.pd.st == .sleep) && !inReset s then .input else strellinState s
  | .clkreq => clkreqState s
  | .wake => wakeBall s
  | .rst => if s.ct.rstDriven then .low else .released
  | .failover =>
    if s.pl.role == 2 && s.pl.driving && !inReset s && s.pd.st != .sleep then .low else .released
  | .twLines => .released
  | .twAlert => if alertDriven s && !inReset s then .low else .released
  | .cfgSel => if inReset s && s.ct.phase == .options then .sources else .highZ
  | .ain n => whileOn s domAIN .noLoad (.biased (legOhms s n.val))
  | .sns | .pdmData => whileOn s domAIN .noLoad .input
  | .snsRef =>
    whileOn s domAIN (if inReset s then .highZ else .noLoad)
      (if snsRefDriven s then .driven else if s.sc.refConf then .input else .highZ)
  | .micBias k => whileOn s domAIN .highZ (biasState s k.val)
  | .pdmClk k => whileOn s domAIN .highZ (pdmState s k.val)
  | .smux i => whileOn s domAIN .highZ (match s.sc.smux with
    | some a => .level (bitN a i.val)
    | none => .highZ)
  | .output o => outputState s o.val
  | .chargePump =>
    whileOn s domAOUT .stopped (if s.aq.cpRun then .clock (if s.fr.rate % 2 = 1 then 1536000 else 1411200) else .stopped)
  | .awc | .rtc => .driven
  | .bclk p => whileOn s domPORT .highZ (portClock s p.val)
  | .fs p =>
    if p.val = 0 && (s.pd.st == .standby || s.pd.st == .sleep) && !inReset s && rb s .pdWakeEn 0 7 then .input
    else whileOn s domPORT .highZ (portClock s p.val)
  | .din p => whileOn s domPORT .highZ (if (port s p.val).st == .off then .highZ else .input)
  | .dout p => whileOn s domPORT .highZ (if (port s p.val).st == .off || !drivesOut s then .highZ else .driven)
  | .xtal => if domOn s domCLK || s.ct.phase == .clk then .driven else .stopped
  | .refIn r => whileOn s domCLK .noLoad (if rb s .ckRefCfg (if r.val = 2 then 10 else r.val) 31 then .input else .noLoad)
  | .mclkOut k => whileOn s domCLK .highZ (mclkState s k.val)
  | .fpOut k => whileOn s domCLK .highZ (fpState s k.val)
  | .vid i =>
    if s.ct.phase == .options || s.ct.phase == .ctrl || s.pd.st == .sleep then .highZ else .level (bitN s.vc.level i.val)
  | .bridge n => whileOn s (dieDom (dieOf n.val)) .switchesOff
      (if switching s n.val then .driven else .switchesOff)
  | .gate d => whileOn s (dieDom (dieOf (8 + d.val))) .gateHeld
      (if switching s (8 + d.val) then .driven else .gateHeld)
  | .powerSense d => whileOn s (dieDom d) .noLoad .input

end Sys2Proof.Machine
end

