-- ==== Sys2Proof/Safety.lean ====
section
/-! DEFINITION. The terms in which the statements speak: what an answer is, which parts of the state a command
leaves alone, and the invariants of the block. -/

namespace Sys2Proof.Safety

open Sys2Proof Sys2Proof.Machine

/-- A command answers a next state, and of that state `Q` holds. -/
def Answers (r : Res) (Q : State → Prop) : Prop := ∃ t, r = .next t ∧ Q t

/-- The parts of the state that a frame names. FRAC of the latest command, what it drove out, and the number of
free values drawn are no part. -/
inductive Part where
  | pending | regs | fr | mx | fx | ps | sp | ai | aq | dp | ck | sc | hl | st | tw | sv | pd | ct | pl | vc
  deriving DecidableEq, Repr

/-- The host side without what the writing of events and of their messages moves (R295, R296). -/
def hostRest (a : HostSide) : HostSide :=
  { a with evt := .reset, evLost := 0, lost := 0, lostFirst := 0, lostLast := 0, waiting := [], pba := [],
           holdoff := [], irqWait := [], lostAt := 0, aspm := 0, pmeWake := false }

/-- The two-wire side without the copies of events and the attention they call (R351–R354). -/
def busRest (a : TwoWire) : TwoWire :=
  { a with queue := [], evLost := 0, lost := 0, lostFirst := 0, lostLast := 0, armed := true, wanted := false,
           notifyOk := true, notify := none, stuck := 0 }

/-- The host side without that, and without what taking and completing one command moves (R292–R294). -/
def hostIdle (a : HostSide) : HostSide := { hostRest a with cmp := .reset, nextSlot := 0, fetched := none }

/-- The two-wire side without that, and without what taking and completing one command moves (R346). -/
def busIdle (a : TwoWire) : TwoWire :=
  { busRest a with cmd := none, cmdPend := false, result := none, resultPhase := false, resultReady := false }

/-- A part is as before: exactly, but for the event machinery of the host link and of the two-wire bus. -/
def Part.same (p : Part) (s t : State) : Prop :=
  match p with
  | .pending => t.pending = s.pending
  | .regs => t.regs = s.regs
  | .fr => t.fr = s.fr
  | .mx => t.mx = s.mx
  | .fx => t.fx = s.fx
  | .ps => t.ps = s.ps
  | .sp => t.sp = s.sp
  | .ai => t.ai = s.ai
  | .aq => t.aq = s.aq
  | .dp => t.dp = s.dp
  | .ck => t.ck = s.ck
  | .sc => t.sc = s.sc
  | .hl => hostRest t.hl = hostRest s.hl
  | .st => t.st = s.st
  | .tw => busRest t.tw = busRest s.tw
  | .sv => t.sv = s.sv
  | .pd => t.pd = s.pd
  | .ct => t.ct = s.ct
  | .pl => t.pl = s.pl
  | .vc => t.vc = s.vc

/-- Only the parts listed may differ. -/
def only (l : List Part) (s t : State) : Prop := ∀ p : Part, p ∉ l → p.same s t

/-- A part is as before but for the taking and completing of one command. -/
def Part.done (p : Part) (s t : State) : Prop :=
  match p with
  | .hl => hostIdle t.hl = hostIdle s.hl
  | .tw => busIdle t.tw = busIdle s.tw
  | p => p.same s t

/-- Only the parts listed may differ, but for the taking and completing of one command. -/
def onlyCmd (l : List Part) (s t : State) : Prop := ∀ p : Part, p ∉ l → p.done s t

/-- A command completes as soon as it is answered: nothing fetched earlier waits for its completion (R294), no busy interval
is on (R300), and the host's rings are open for a host's one (R308), which no HOST reset has overtaken (R287). -/
abbrev answerable (s : State) (c : Cmd) : Prop :=
  s.hl.order = [] ∧ s.hl.busy = none ∧ (c.src = .host → ringsOpen s = true ∧ s.hl.orphan = false)

/-- A command with the opcode given is in the hands of the command processor (R486) and can complete at once: no command
fetched earlier waits for its completion (R294), the host's rings are open for a host's one (R308) and no HOST reset has
come since its fetch (R287), the recovery code
admits it (R431) and its sender owns the groups listed (R303). -/
abbrev cmdTaken (s : State) (c : Cmd) (op : Nat) (gs : List Nat) : Prop :=
  inHand s op c = true ∧ s.hl.order = [] ∧ (c.src = .host → ringsOpen s = true ∧ s.hl.orphan = false) ∧
    (s.ct.phase = .recovery → op ∈ recoveryOps) ∧ ∀ g ∈ gs, owns s c.src g = true

/-- The same of a command that holds no busy interval. -/
abbrev cmdReady (s : State) (c : Cmd) (op : Nat) (gs : List Nat) : Prop :=
  cmdTaken s c op gs ∧ s.hl.busy = none

/-- The same of a long operation, whose busy interval may have begun with its fetch (R300); none is to be fetched again
(R423). -/
abbrev longReady (s : State) (c : Cmd) (op : Nat) (gs : List Nat) : Prop :=
  cmdTaken s c op gs ∧ s.hl.rerun = none ∧ (s.hl.busy = none ∨ ∃ n, s.hl.busy =
    some { op := op, slot := s.hl.nextSlot, doorbells := 0, writes := 0, since := n, over_ := none })

/-- A write of the register at an offset, of a group, is taken at once: nothing holds it back (R300, R400), its sender owns the
group (R303), and no exactly simultaneous write goes before it (R36, R304). -/
abbrev writeTaken (s : State) (t : Frac) (o : Owner) (off g : Nat) : Prop :=
  held s = false ∧ owns s o g = true ∧ (noteWrite (atT s t) o off g).2 = true

/-- The completion of a command: the entry written to the completion ring where it is enabled (R293), or the result
that the two-wire bus reads (R346). -/
def reported (src : Owner) (id : Word) (op : Nat) (idx : BitVec 12) (status result : Nat) (s s' : State) : Prop :=
  match src with
  | .host => s.hl.cmp.en = true → Out.completion
      { id := id, status := status, opcode := op, result := result % 2 ^ 48, idx := idx }
      s.hl.cmp.prod s.hl.cmp.phase ∈ s'.out
  | .tw => s'.tw.result = some { id := id, status := status, opcode := op, result := result % 2 ^ 48, idx := 0 } ∧
      s'.tw.resultReady = true ∧ s'.tw.cmdPend = false
  | .peer => True

/-- The completion of the command that the row runs. -/
def completed (c : Cmd) (op status result : Nat) (s s' : State) : Prop :=
  reported c.src c.id op c.idx status result s s'

/-- A long operation holds the command interface, with nothing dropped so far, and its command alone waits for its
completion (R300). -/
abbrev longHeld (s : State) (x : CmpSlot) (op : Nat) (l : LongOp) : Prop :=
  s.hl.order = [x] ∧ x.src ≠ .peer ∧ (x.src = .host → ringsOpen s = true) ∧ (∃ n, s.hl.busy =
      some { op := op, slot := x.slot, doorbells := 0, writes := 0, since := n, over_ := none }) ∧
    s.hl.long = some l ∧ s.hl.rerun = none ∧ x.opcode = op ∧ x.slot < s.hl.nextSlot

/-- The command has become the long operation given, whose completion waits (R300). -/
def begun (c : Cmd) (op : Nat) (l : LongOp) (s' : State) : Prop :=
  ∃ x : CmpSlot, longHeld s' x op l ∧ x.src = c.src ∧ x.id = c.id ∧ x.idx = c.idx

/-- The host side without all that a command or a long operation moves. -/
def hostWork (a : HostSide) : HostSide := { hostIdle a with order := [], busy := none, long := none }

/-- A part is as before but for the beginning or the end of one command or long operation. -/
def Part.worked (p : Part) (s t : State) : Prop :=
  match p with
  | .hl => hostWork t.hl = hostWork s.hl
  | p => p.done s t

/-- Only the parts listed may differ, but for the beginning or the end of one command or long operation. -/
def onlyWork (l : List Part) (s t : State) : Prop := ∀ p : Part, p ∉ l → p.worked s t

/-- A part is exactly as before. -/
def Part.exact (p : Part) (s t : State) : Prop :=
  match p with
  | .hl => t.hl = s.hl
  | .tw => t.tw = s.tw
  | p => p.same s t

/-- Only the parts listed differ, and nothing is driven out: no event, no message. -/
def still (l : List Part) (s t : State) : Prop := t.out = [] ∧ ∀ p : Part, p ∉ l → p.exact s t

/-- The event ring takes the next `k` records: it is enabled, the module may write it, its indices lie in the ring, a slot
more than `k` is free and no loss waits to be reported (R295, R308). -/
abbrev evtOpen (s : State) (k : Nat) : Prop :=
  ringsOpen s = true ∧ s.hl.evt.en = true ∧ s.hl.evt.prod < 2 ^ s.hl.evt.size ∧ s.hl.evt.cons < 2 ^ s.hl.evt.size ∧
    outstanding s.hl.evt + k + 1 ≤ 2 ^ s.hl.evt.size ∧ s.hl.lost = 0 ∧ s.hl.waiting = []

/-- A record with the code, unit and payload given, stamped with FN and FRAC given, was written to the event ring
(R10). -/
def raisedAt (fn : Nat) (t : Frac) (code unit : Nat) (p : BitVec 128) (s' : State) : Prop :=
  ∃ i ph, Out.event { code := code, unit := unit, fn := fn, frac := t, payload := p } i ph ∈ s'.out

/-- The same, stamped with the frame in which the command came. -/
def raised (s : State) (t : Frac) (code unit : Nat) (p : BitVec 128) (s' : State) : Prop :=
  raisedAt s.fr.fn t code unit p s'

/-- What an automatic cause does to the channels of a list: a channel that starts, runs or is quiet is MUTED with the
cause, one that is stopping is OFF, every other channel is as before (R125, R130). -/
def mutesChannels (l : List Nat) (cause : Nat) (s s' : State) : Prop :=
  ∀ k, (k ∈ l → mutable s k = true → psCh s' k = { psCh s k with
        st := .muted, cause := cause, phase := .idle, ramp := none, startCause := 3, dcSince := none }) ∧
    (k ∈ l → (psCh s k).st = .stopping →
      psCh s' k = { psCh s k with st := .off, phase := .idle, ramp := none, dcSince := none }) ∧
    (k ∉ l ∨ (mutable s k = false ∧ (psCh s k).st ≠ .stopping) → psCh s' k = psCh s k)

/-- What the end of an automatic cause does to the channels of a list: a MUTED channel for which `free` holds starts
(step 2 of R120, R130), every other channel is as before. -/
def startsChannels (l : List Nat) (free : Nat → Prop) (t : Frac) (s s' : State) : Prop :=
  ∀ k, (k ∈ l → (psCh s k).st = .muted → free k → psCh s' k = { psCh s k with
        st := .starting, phase := .softStart, startCause := 3, ramp := some (riseOver (atT s t) (5 * tMs)),
        dcSt := .zero, dc := 0, dcSince := none, limited := 0 }) ∧
    (k ∉ l ∨ (psCh s k).st ≠ .muted ∨ ¬ free k → psCh s' k = psCh s k)

/-- The power stage but for the channels and for the idle holds of the dies, which follow them (R135). -/
def powerRest (p : Power) : Power :=
  { p with ch := [], dieA := { p.dieA with idleSince := none }, dieB := { p.dieB with idleSince := none } }

/-- An idle hold stands, ends or begins now as the channels of its die change (R135). -/
def holdsFollow (t : Frac) (s s' : State) : Prop :=
  ∀ d, (die s' d).idleSince ∈ [(die s d).idleSince, none, some (nowTicks (atT s t))]

/-- What a strobe presents of sink `k` (R20, R39): the result of the frame that ends; for a sink that did not complete
it, the sample it presented before; 0 for a shed sink and for one with nothing to compute. -/
def presents (s s' : State) (k : Nat) : Prop :=
  tget 0 s'.mx.present k =
    if isShed s k then 0
    else if k ∈ repeats s then tget 0 s.mx.present k
    else (tget none s.mx.res k).getD 0

/-- A frame that drains at `t` counts as one below the floor (R38). -/
def belowFloor (s : State) (t : Frac) : Bool :=
  rf s .mxSlackFloor 0 15 0 != 0 && decide (slackAt t < rf s .mxSlackFloor 0 15 0)

/-- A drain whose boundary window has no more to do than to apply what is listed: the mark has not passed, nothing else
is staged, and no lane, half, entry, engine or peer waits for the boundary, nor a reset for a completion. -/
def quietBoundary (s : State) (items : List Staged) : Prop :=
  computing s = true ∧ s.fr.marked = false ∧ s.ck.gap = none ∧ s.fr.staged = items ∧ s.mx.laneErrs = [] ∧
    s.mx.retire = [] ∧ s.mx.returned = [] ∧ s.mx.damaged = [] ∧ s.pl.loss = none ∧ s.pl.yield_ = false ∧
    s.pl.soloNext = 0 ∧ (∀ e ∈ engines, (eng s e).failure = none) ∧ s.hl.long = none ∧
    s.hl.afterDone = none

/-- The frame-staged registers that hold what is written to them, whatever state their block is in (R31). -/
def plainStaged : List RegName :=
  [.mxSilProf, .mxGenCfg, .mxGenFreq, .mxSrcSil, .psPvddWarn, .psTempCfg, .psDomIdle, .psChDc, .psChQuiet, .aiPdmCfg,
    .aiBiasCfg, .dpSrcCfg, .ckSelCfg, .ckPllsCfg, .ckMclkCfg, .ckFpCfg, .ckFpOfs, .ckRefCfg]

/-- No line of the Pantry comes near a step of wear by a commit after the corrections given (R387, R388). -/
def littleWorn (s : State) (l : List Correction) : Prop := l.length < 1000 ∧ ∀ e ∈ s.sv.wear, e.2 < 49000000

/-- HELLO is sent with a fresh nonce, the public part of a fresh key, and what the module is (R382). -/
def helloOut (s s' : State) : Prop :=
  ∃ h d, s'.sv.own = some (h, d) ∧ Out.hello h ∈ s'.out ∧ h.chain = certs ∧ h.nonce.length = 48 ∧ h.eph = pubOf d ∧
    h.role = BitVec.ofNat 2 s.pl.role ∧ h.debugOff = Config.debugOff ∧ h.hashes = enrolledHashes s

/-- A handshake begins, and nothing else happens (R382). -/
def helloSent (s s' : State) : Prop :=
  s'.sv = { s.sv with auth := .handshaking, own := s'.sv.own, peer := none, timedOut := false } ∧ helloOut s s' ∧
    s'.out.length = 1 ∧ ∀ p : Part, p ≠ .sv → p.exact s s'

/-- The state after the lines of the Pantry that bring-up reads: those that are lost, then the corrected ones (R385). -/
def larderRead (s : State) (t : Frac) (x : LarderIn) : State := pantryReads (each x.lost (atT s t) lineLost) x.reads

/-- A slot that has verified is what runs from then on, with a Larder that passed its self-test (R366, R379). -/
def verified (s : State) : Trust :=
  { s.sv with larderOk := true, fwRun := if s.sv.fwRun = .none then .confirmed else s.sv.fwRun, trialAt := nowTicks s }

/-- A glide after a number of strobes (R57). -/
def glideAfter : Nat → Glide → Glide
  | 0, g => g
  | n + 1, g => glideAfter n (glideStep g)

/-- A write block sent whole to code `code`, with its PEC and a STOP, while nothing bars a write (R340, R344, R348). -/
abbrev blockSent (s : State) (code : Byte) (x : TwTx) (d : Bytes) : Prop :=
  twReady s = true ∧ busy s = false ∧ entering s = false ∧ d.length < 256 ∧ x.rd = none ∧ x.fin = .stop ∧
    x.wr = (BitVec.ofNat 8 d.length :: d)
      ++ [crc8 ([addrByte s false, code, BitVec.ofNat 8 d.length] ++ d)]

/-- The bytes that a read sends (R343, R350): the answer, its PEC, and released SDA, as far as the controller clocks. -/
abbrev readAnswer (s : State) (code : Byte) (wr resp : Bytes) (n : Nat) : Bytes :=
  (resp ++ [crc8 ([addrByte s false, code] ++ wr ++ [addrByte s true] ++ resp)] ++ List.replicate n 0xFF).take n

/-- The reset has begun as a COLD one (R413, R420): all but domain AON, the Pantry, the fuses and the waiting commands is at
its reset value, RST_N is driven, and the reset is counted and its source recorded (R433). -/
def coldBegun (s s' : State) (src : Nat) : Prop :=
  s'.ct.cur = some { scope := 0, src := src, merged := 0, inA := false, inB := false } ∧ s'.ct.phase = .options ∧
    s'.ct.nCold = inc8 s.ct.nCold ∧ bitN s'.ct.cause src = true ∧ s'.ct.rstDriven = true ∧
    Out.pin "RST_N" true ∈ s'.out ∧ s'.mx = State.reset.mx ∧ s'.fx = State.reset.fx ∧ s'.ps = State.reset.ps ∧
    s'.sp = State.reset.sp ∧ s'.ai = State.reset.ai ∧ s'.aq = { State.reset.aq with clamp := s.aq.clamp } ∧ s'.dp = State.reset.dp ∧
    s'.ck = State.reset.ck ∧ s'.sc = State.reset.sc ∧ s'.st = State.reset.st ∧ s'.tw = State.reset.tw ∧
    s'.pl = State.reset.pl ∧ s'.vc = { State.reset.vc with lastLow := s'.vc.lastLow } ∧ s'.regs = s.regs.filter (fun e => aonReg e.1) ∧
    s'.fr = { State.reset.fr with ticks := s.fr.ticks } ∧ s'.hl.scenes = s.hl.scenes ∧ s'.hl.locked = false ∧
    s'.sv.owner = s.sv.owner ∧ s'.sv.ctr = s.sv.ctr ∧ s'.sv.fwA = s.sv.fwA ∧ s'.sv.fwB = s.sv.fwB ∧
    s'.sv.stored = s.sv.stored ∧ s'.pd.ret = s.pd.ret ∧ s'.pd.sec = s.pd.sec ∧ s'.pending = s.pending

/-- The reset has begun as a CONTROL one (R413, R414): the two-wire side is cleared, and audio is untouched but for a
calibration or an engine test, which is undone to be run again (R423). -/
def controlBegun (s s' : State) (src : Nat) : Prop :=
  s'.ct.ctlReset = some (src, 0) ∧ s'.ct.nControl = inc8 s.ct.nControl ∧ bitN s'.ct.cause src = true ∧
    s'.tw.buf = [] ∧ s'.tw.queue = [] ∧ s'.tw.cmdPend = false ∧ s'.tw.result = none ∧ s'.ct.phase = .larder ∧
    ∀ p : Part, p ≠ .tw → p ≠ .hl → p ≠ .ct → s.hl.long = none ∨ p ∉ [.sc, .fx] → p.exact s s'

/-- The reset has begun as a HOST one (R287, R332, R413): rings, MSI-X table and stream contexts are at reset,
and a long operation in progress runs on. -/
def hostBegun (s s' : State) (src : Nat) : Prop :=
  s'.ct.hostReset = some (src, 0) ∧ s'.ct.nHost = inc8 s.ct.nHost ∧ bitN s'.ct.cause src = true ∧
    s'.hl.cmd = .reset ∧ s'.hl.cmp = .reset ∧ s'.hl.evt = .reset ∧ s'.hl.msix = [] ∧
    (∀ k, (ctx s' k).st = .disabled) ∧ s'.mx = s.mx ∧ s'.fx = s.fx ∧ s'.ps = s.ps ∧ s'.ck = s.ck ∧
    s'.tw = { s.tw with cmdAfter := 0 } ∧ s'.sv = s.sv ∧ s'.pd = s.pd ∧ s'.fr.fn = s.fr.fn ∧ s'.hl.long = s.hl.long ∧
    (s.hl.rerun = none → s'.hl.busy = s.hl.busy)

/-- Every enabled source that R243 makes INVALID is INVALID, and no other one is (R243). -/
def refsFollow (s : State) : Prop :=
  ∀ i ∈ allRefs, rb s .ckRefCfg i 31 = true → ((refOf s i).st = .invalid ↔ refInvalid s i = true)

/-- A bias stands as its registers and its jacks want it (R177). -/
def biasSteady (s : State) (k : Nat) : Prop :=
  (bias s k).on = biasWanted s k ∧ (bias s k).volt.last = (biasSlew s k (biasWanted s k)).last ∧
    ((bias s k).short = true → rb s .aiBiasCfg 0 (8 * k + 7) = true)

/-- The opcodes of class L of R297: only their fetch may begin a busy interval. -/
def longOps : List Nat :=
  [0x0011, 0x0020, 0x0022, 0x0030, 0x0040, 0x0050, 0x0060, 0x0062, 0x0080, 0x0083, 0x0084, 0x0085]

/-- FN is a 48-bit counter, and the strobe after frame FN carries FN + 1 while strobes run (R7). -/
def FnOk (s : State) : Prop :=
  s.fr.fn < 2 ^ 48 ∧ s.fr.next < 2 ^ 48 ∧ (s.fr.running = true → s.fr.next = (s.fr.fn + 1) % 2 ^ 48)

/-- The two-wire bus: the queue holds at most 64 records (R351), LAST_WR is a code of R344, and the buffer is in
its canonical form. -/
def BusOk (s : State) : Prop := s.tw.queue.length ≤ 64 ∧ s.tw.lastWr ≤ 6 ∧ bufWf s.tw.buf = true

/-- A list of commands run in order, each on what the one before it left with the rest of the list in the queue. -/
def runAll : List Instr → State → Res
  | [], s => .next s
  | c :: r, s =>
    match exec c { s with pending := r } with
    | .next t => runAll r t
    | .fault f => .fault f
    | .refused f => .refused f

end Sys2Proof.Safety
end

