-- ==== Sys2Proof/Certificates/Slice0/Obligations.lean ====
section
/-! DEFINITION. The statements for the provers, chapter by chapter: what each command of the block does and leaves alone,
where it completes, and what every step keeps. -/

open Sys2Proof Sys2Proof.Machine Sys2Proof.Safety

/-! ## Frames -/

/-- A strobe begins the next frame (R7, R20, R39): FN, the time and the frame's own flags, the results presented,
every glide one step on; registers, queues of commands, streams' descriptors and staged items stay. The model's
choices in it: log entries 3, 4, 5. It says where this row completes: frameStrobe. -/
def Obligations.StrobeBeginsFrame : Prop :=
  (∀ (x : StrobeIn) (s : State), s.fr.running = true → s.ck.gap = none → s.fr.overrun = none →
    Answers (exec (.frameStrobe x) s) fun s' =>
      s'.fr = { s.fr with
        ticks := s.fr.ticks + framePeriod s.fr.rate, fn := s.fr.next, next := (s.fr.next + 1) % 2 ^ 48,
        drained := false, marked := false, overrun := overrunOf s,
        slackMin := if s.fr.clearPend then 0xFFFF else s.fr.slackMin,
        slackMax := if s.fr.clearPend then 0 else s.fr.slackMax, clearPend := false } ∧
      (twf none s.mx.res = true → ∀ k, presents s s' k) ∧ s'.mx.res = [] ∧
      s'.mx.glide = tmapv Glide.unity (fun _ g => glideStep g) s.mx.glide ∧
      s'.mx.xp = s.mx.xp ∧ s'.mx.queue = s.mx.queue ∧
      only [.fr, .mx, .fx, .ps, .sp, .ai, .aq, .dp, .ck, .sc, .st, .pl] s s') ∧
  (∀ (x : StrobeIn) (s : State), s.fr.running = false ∨ s.ck.gap ≠ none ∨ s.fr.overrun ≠ none →
    Answers (exec (.frameStrobe x) s) fun s' => still [] s s')

/-- The end of a frame (R20, R37, R38), drained before or after the mark: every sink that is left has its scaled sum
(R53), and the slack is recorded and judged. PRE_STROBE_MARK before the drain marks the frame, and nothing is applied
at its boundary (R34): at the drain of a marked frame every item bound to it, staged before or after the mark, moves
to the next boundary, and where there is one, that is one deferral, counted and reported at the FRAC of the mark. The
end of an abort (R39, R40): the overrun is counted and reported with the number of incomplete sinks and the mask of
incomplete engines; items bound to the boundary of the frame move on, which is no deferral. The model's choices in it:
log entries 37, 38, 44, 93, 104. It says where each of these rows completes: frameDrain, preStrobeMark, abortEnd. -/
def Obligations.FrameEnds : Prop :=
  (∀ (t : Frac) (x : DrainIn) (s : State), computing s = true → stuckLane s = false → s.hl.afterDone = none →
    Answers (exec (.frameDrain t x) s) fun s' =>
      s'.fr.drained = true ∧ s'.fr.fn = s.fr.fn ∧ s'.fr.slackValid = true ∧ s'.fr.slack = slackAt t ∧
      s'.fr.slackMin = Nat.min s.fr.slackMin (slackAt t) ∧ s'.fr.slackMax = Nat.max s.fr.slackMax (slackAt t) ∧
      s'.fr.lowCount = (if belowFloor s t then inc32 s.fr.lowCount else s.fr.lowCount) ∧
      s'.fr.fSlackLow = (s.fr.fSlackLow || belowFloor s t) ∧
      s'.fr.run = (if rf s .mxSlackFloor 0 15 0 = 0 then s.fr.run else if belowFloor s t then 0
        else satTo 4096 (s.fr.run + 1)) ∧
      s'.fr.armed = (if belowFloor s t then false
        else s.fr.armed || (rf s .mxSlackFloor 0 15 0 != 0 && satTo 4096 (s.fr.run + 1) == 4096)) ∧
      (s.fr.marked = false → belowFloor s t = true → s.fr.armed = true → evtOpen s 1 →
        raised s t 0x0102 noUnit (pay [(0, 2, slackAt t), (2, 2, rf s .mxSlackFloor 0 15 0),
          (4, 2, Nat.min s.fr.slackMin (slackAt t)), (6, 4, inc32 s.fr.lowCount)]) s') ∧
      (∀ k ∈ workSinks s, isHeld s k = false → tget none s.mx.res k = none →
        tget none s'.mx.res k = some (sat32 (scaled (accOf s k) (scaleOf s k)))) ∧
      (∀ k, tget none s.mx.res k ≠ none → tget none s'.mx.res k = tget none s.mx.res k)) ∧
  (∀ (t : Frac) (x : DrainIn) (s : State), computing s = true → s.fr.marked = true → s.ck.gap = none →
    s.hl.afterDone = none → (∀ e ∈ engines, (eng s e).failure = none) → boundItems s s.fr.fn = 0 →
    Answers (exec (.frameDrain t x) s) fun s' =>
      s'.fr = { s.fr with
        drained := true, slackValid := true, slack := slackAt t,
        slackMin := Nat.min s.fr.slackMin (slackAt t), slackMax := Nat.max s.fr.slackMax (slackAt t),
        lowCount := if belowFloor s t then inc32 s.fr.lowCount else s.fr.lowCount,
        fSlackLow := s.fr.fSlackLow || belowFloor s t,
        run := if rf s .mxSlackFloor 0 15 0 = 0 then s.fr.run else if belowFloor s t then 0
          else satTo 4096 (s.fr.run + 1),
        armed := if belowFloor s t then false
          else s.fr.armed || (rf s .mxSlackFloor 0 15 0 != 0 && satTo 4096 (s.fr.run + 1) == 4096) } ∧
      (belowFloor s t = true → s.fr.armed = true → evtOpen s 1 →
        raised s t 0x0102 noUnit (pay [(0, 2, slackAt t), (2, 2, rf s .mxSlackFloor 0 15 0),
          (4, 2, Nat.min s.fr.slackMin (slackAt t)), (6, 4, inc32 s.fr.lowCount)]) s') ∧
      s'.mx.xp = s.mx.xp ∧ s'.mx.queue = s.mx.queue ∧
      ((∀ k, (ctx s k).fail = none) → s'.st = s.st) ∧ only [.fr, .mx, .fx, .st, .vc, .pl, .sv, .pd] s s') ∧
  (∀ (t : Frac) (x : DrainIn) (s : State), computing s = true → s.fr.marked = true → s.ck.gap = none →
    s.hl.afterDone = none → (∀ e ∈ engines, (eng s e).failure = none) → boundItems s s.fr.fn ≠ 0 →
    s.pl.st ≠ .paired → evtOpen s 1 →
    Answers (exec (.frameDrain t x) s) fun s' =>
      s'.fr.drained = true ∧ s'.fr.deferCount = inc32 s.fr.deferCount ∧ s'.fr.fDeferred = true ∧
      s'.fr.staged = (s.fr.staged.filter (fun i => decide (i.bound ≤ s.fr.fn))).map
            (fun i => { i with bound := s.fr.fn + 1 })
          ++ s.fr.staged.filter (fun i => !decide (i.bound ≤ s.fr.fn)) ∧
      s'.mx.queue = s.mx.queue.map (fun c =>
        if c.bound ≤ s.fr.fn then { c with bound := s.fr.fn + 1 } else c) ∧ s'.mx.xp = s.mx.xp ∧
      raised s s.fr.markAt 0x0103 noUnit (pay [(0, 4, headTag s), (4, 2, boundItems s s.fr.fn),
        (6, 4, inc32 s.fr.deferCount), (10, 1, 1)]) s' ∧
      ((∀ k, (ctx s k).fail = none) → s'.st = s.st) ∧ only [.fr, .mx, .fx, .st, .vc, .pl, .sv, .pd] s s') ∧
  (∀ (t : Frac) (s : State), computing s = true → s.fr.marked = false → s.ck.gap = none → s.mx.laneErrs = [] →
    Answers (exec (.preStrobeMark t) s) fun s' =>
      s'.fr = { s.fr with marked := true, markAt := t } ∧ still [.fr] s s') ∧
  (∀ (t : Frac) (s : State), computing s = true → s.fr.marked = false → s.ck.gap = none →
    Answers (exec (.preStrobeMark t) s) fun s' =>
      s'.fr = { s.fr with marked := true, markAt := t } ∧
      (∀ e ∈ s.mx.laneErrs, e.by_ = none → ∀ k ∈ e.sinks, isHeld s' k = true) ∧ still [.fr, .mx] s s') ∧
  (∀ (t : Frac) (x : EccIn) (o : Overrun) (s : State), s.fr.overrun = some o → s.hl.afterDone = none →
    (∀ e ∈ engines, (eng s e).failure = none) → s.pl.st ≠ .paired → evtOpen s 1 →
    Answers (exec (.abortEnd t x) s) fun s' =>
      s'.fr.overrun = none ∧ s'.fr.overrunCount = inc32 s.fr.overrunCount ∧ s'.fr.fOverrun = true ∧
      s'.fr.slack = 0 ∧ s'.fr.slackMin = 0 ∧ s'.fr.deferCount = s.fr.deferCount ∧
      s'.fr.fDeferred = s.fr.fDeferred ∧
      (o.moved = false → s'.fr.staged = s.fr.staged ∧ s'.mx.queue = s.mx.queue) ∧
      (o.moved = true → s'.fr.staged = (s.fr.staged.filter (fun i => decide (i.bound < s.fr.fn))).map
            (fun i => { i with bound := s.fr.fn })
          ++ s.fr.staged.filter (fun i => !decide (i.bound < s.fr.fn)) ∧
        s'.mx.queue = s.mx.queue.map (fun c => if c.bound < s.fr.fn then { c with bound := s.fr.fn } else c)) ∧
      raised s t 0x0101 noUnit (pay [(0, 2, o.sinks), (2, 2, t.toNat), (4, 2, o.engines),
        (6, 4, inc32 s.fr.overrunCount)]) s' ∧
      ((∀ k, (ctx s k).fail = none) → s'.st = s.st) ∧ only [.fr, .mx, .fx, .st, .vc, .pl, .sv, .pd] s s')

/-! ## Stockpot -/

/-- A register write over the host link or the two-wire bus (R4, R31, R303): a frame-staged register is staged with
its value, another takes its value at once under its mask (one over the two-wire bus leaves LAST_WR 0), a write of a
sender that does not own the group is discarded, counted and reported. The register rows of the frame engine: the read
of MX_TIME_LO captures MX_TIME_HI (R41), REARM arms SLACK_LOW at once and CLEAR waits for the strobe (R43). The
register rows of Stockpot (R67, R75): a lookup answers the crosspoint's gains, CLIP_CLEAR clears one counter or all.
The model's choices in it: log entries 3, 14, 24, 91, 94. It says where each of these rows completes: registerWrite,
mxTimeRead, slackRearm, slackClear, xpLookup, clipClear. -/
def Obligations.RegisterWritesAndRows : Prop :=
  (∀ (t : Frac) (o : Owner) (off : BitVec 21) (d : BitVec 64) (row : RegRow) (i g : Nat) (s : State),
    regAt off.toNat = some (row, i) → row.staged = true → regGroup row.name i = some g → row.name ≠ .spCtrl →
    0x10000 ≤ off.toNat → off.toNat < 0x100000 → off.toNat % 4 = 0 → held s = false → owns s o g = true →
    s.hl.locked = false → mirrors s g = false →
    Answers (exec (.registerWrite t o { bar2 := false, wide := false, off := off, be := 0x0F, data := d }) s) fun s' =>
      s'.fr = { s.fr with staged := s.fr.staged ++
        [{ owner := o, bound := bindTo s, item := .reg off.toNat (d.setWidth 32), at_ := frTime (atT s t) }] } ∧
      s'.tw = (if o = .tw then { s.tw with lastWr := 0 } else s.tw) ∧ still [.fr, .tw] s s') ∧
  (∀ (t : Frac) (o : Owner) (d : BitVec 64) (s : State), writeTaken s t o 0x1002C 0 →
    Answers (exec (.registerWrite t o { bar2 := false, wide := false, off := 0x1002C, be := 0x0F, data := d }) s) fun s' =>
      s'.regs = (setReg s .mxSlackFloor 0 (d.setWidth 32 &&& 0xFFFF)).regs ∧
      busRest s'.tw = busRest (if o = .tw then { s.tw with lastWr := 0 } else s.tw) ∧ only [.regs, .hl, .tw] s s') ∧
  (∀ (t : Frac) (o : Owner) (d : BitVec 64) (s : State), held s = false → owns s o 0 = false →
    tget 0 s.hl.refusedAt 0 ≠ s.fr.fn + 1 → evtOpen s 1 →
    Answers (exec (.registerWrite t o { bar2 := false, wide := false, off := 0x1002C, be := 0x0F, data := d }) s) fun s' =>
      hostRest s'.hl = hostRest { s.hl with
        ownerDropped := inc32 s.hl.ownerDropped, refusedAt := tput 0 s.hl.refusedAt 0 (s.fr.fn + 1) } ∧
      raised s t 0x0A02 0 (pay [(0, 1, ownerCode o), (4, 4, 0x1002C), (8, 4, inc32 s.hl.ownerDropped)]) s' ∧
      busRest s'.tw = busRest (if o = .tw then { s.tw with lastWr := 1 } else s.tw) ∧ only [.hl, .tw] s s') ∧
  (∀ (t : Frac) (o : Owner) (w : BarWrite) (s : State), w.read = none → w.off.toNat % (if w.wide then 8 else 4) ≠ 0 →
    Answers (exec (.registerWrite t o w) s) fun s' => still [] s s') ∧
  (∀ (t : Frac) (s : State),
    Answers (exec (.mxTimeRead t) s) fun s' =>
      s'.out = [.read (BitVec.ofNat 32 s.fr.fn)] ∧
      s'.fr = { s.fr with timeFn := s.fr.fn / 2 ^ 32, timeFrac := t } ∧ ∀ p : Part, p ≠ .fr → p.exact s s') ∧
  (∀ (t : Frac) (o : Owner) (s : State), writeTaken s t o 0x10030 0 →
    Answers (exec (.slackRearm t o) s) fun s' => s'.fr = { s.fr with armed := true } ∧ only [.fr, .hl] s s') ∧
  (∀ (t : Frac) (o : Owner) (s : State), writeTaken s t o 0x10030 0 →
    Answers (exec (.slackClear t o) s) fun s' => s'.fr = { s.fr with clearPend := true } ∧ only [.fr, .hl] s s') ∧
  (∀ (t : Frac) (o : Owner) (v : Word) (n : Nat) (e : Xp) (s : State), writeTaken s t o 0x10088 0 →
    tget Xp.none s.mx.xp (xpKey (fld v 11 0) (fld v 28 16)) = e → e ≠ Xp.none → e.lost = false →
    Answers (exec (.xpLookup t o v n) s) fun s' =>
      s'.mx = { s.mx with found := some e, eccCorrected := satTo 0xFFFF (s.mx.eccCorrected + n) } ∧
      s'.regs = (setReg s .mxXpQuery 0 (v &&& 0x1FFF0FFF)).regs ∧ only [.mx, .regs, .hl] s s') ∧
  (∀ (t : Frac) (o : Owner) (v : Word) (n : Nat) (s : State), writeTaken s t o 0x10088 0 →
    tget Xp.none s.mx.xp (xpKey (fld v 11 0) (fld v 28 16)) = Xp.none →
    Answers (exec (.xpLookup t o v n) s) fun s' =>
      s'.mx = { s.mx with found := none, eccCorrected := satTo 0xFFFF (s.mx.eccCorrected + n) } ∧ only [.mx, .regs, .hl] s s') ∧
  (∀ (t : Frac) (o : Owner) (v : Word) (s : State), writeTaken s t o 0x10210 0 →
    Answers (exec (.clipClear t o v) s) fun s' =>
      s'.mx = { s.mx with clips := if bit v 31 then [] else tput 0 s.mx.clips (fld v 11 0) 0 } ∧ only [.mx, .hl] s s')

/-- The completion of a sink (R20, R52, R53): the scaled sum saturates to 32 bits, a saturated sum is noted for the
drain, and two sinks give the same results in either order (R24). It says where this row completes: sinkComplete. -/
def Obligations.SinkSums : Prop :=
  (∀ (t : Frac) (k : Fin 4096) (n : Nat) (s : State), computing s = true → reservedSink k.val = false →
    (engineSink k.val = true ∨ feedPending s = false) → tget none s.mx.res k.val = none → isHeld s k.val = false →
    isShed s k.val = false →
    Answers (exec (.sinkComplete t k n) s) fun s' =>
      s'.mx = { s.mx with
        res := tput none s.mx.res k.val (some (sat32 ((accOf s k.val * (scaleOf s k.val : Int) + 2 ^ 38) / 2 ^ 39)))
        clipNotes := if sat32 ((accOf s k.val * (scaleOf s k.val : Int) + 2 ^ 38) / 2 ^ 39)
            = (accOf s k.val * (scaleOf s k.val : Int) + 2 ^ 38) / 2 ^ 39 then s.mx.clipNotes
          else s.mx.clipNotes ++ [(k.val, toU 32 ((accOf s k.val * (scaleOf s k.val : Int) + 2 ^ 38) / 2 ^ 39))]
        eccCorrected := satTo 0xFFFF (s.mx.eccCorrected + n) } ∧ still [.mx] s s') ∧
  (∀ (j k : Nat) (s : State), j ≠ k →
    ∀ i, tget none (completeSink (completeSink s j) k).mx.res i = tget none (completeSink (completeSink s k) j).mx.res i) ∧
  (∀ x : Int, sat32 x = max (-2 ^ 31) (min x (2 ^ 31 - 1)))

/-- Errors in the fabric (R51, R71): a lane error discards the results through the lane, a spare computes them again,
and the lane retires; an uncorrectable entry is lost at once. The model's choices in it: log entries 42, 94. It says
where each of these rows completes: laneError, tableUncorrectable. -/
def Obligations.FabricErrors : Prop :=
  (∀ (t : Frac) (l : Fin 64) (sinks : List Nat) (s : State), computing s = true → (lane s l.val).st = .scheduled →
    s.mx.laneErrs = [] → s.mx.retire = [] → s.fr.marked = false →
    Answers (exec (.laneError t l sinks) s) fun s' =>
      (lane s' l.val) = { lane s l.val with errors := inc16 (lane s l.val).errors } ∧
      (∀ j, j ≠ l.val → lane s' j = lane s j) ∧ s'.mx.retire = [l.val] ∧
      s'.mx.laneErrs = [{ lane := l.val, sinks := sinks.eraseDups.filter (fun k => (workSinks s).contains k),
                          by_ := (lanesIn s (l.val / 32) .spare).find? (fun j => j != l.val), repeated := false }] ∧
      (∀ k ∈ sinks, k ∈ workSinks s → tget none s'.mx.res k = none) ∧ s'.mx.xp = s.mx.xp ∧ still [.mx] s s') ∧
  (∀ (t : Frac) (k : Fin 4096) (n : Fin 8192) (pos : Word) (r : BitVec 16) (s : State),
    occupied s.mx.xp (xpKey k.val n.val) = true →
    Answers (exec (.tableUncorrectable t k n false pos r) s) fun s' =>
      s'.mx = { s.mx with
        xp := tmod Xp.none s.mx.xp (xpKey k.val n.val) (fun e => { e with lost := true }),
        damaged := s.mx.damaged ++ [(xpKey k.val n.val, pos.toNat, r.toNat)] } ∧ still [.mx] s s') ∧
  (∀ (t : Frac) (k : Fin 4096) (n : Fin 8192) (pos : Word) (r : BitVec 16) (s : State),
    occupied s.mx.xp (xpKey k.val n.val) = true → computing s = true →
    Answers (exec (.tableUncorrectable t k n true pos r) s) fun s' =>
      isHeld s' k.val = true ∧ (isHeld s k.val = false → tget none s'.mx.res k.val = none) ∧
      (tget Xp.none s'.mx.xp (xpKey k.val n.val)).lost = true ∧ still [.mx] s s')

/-- A commit (R59, R62): accepted, it completes with the cost after every queued commit and its queue slot; with a TAG
of 0 or a bad header, or when a check of R62 refuses it, it completes with the status and leaves the table. Admission
(R29, R33, R62, R63): an accepted commit takes a free slot at the end of a queue of at most 8, and with no entry lost
the configuration after every queued commit fits the budget; a commit on a full queue is refused. The model's choices
in it: log entries 40, 41, 51, 99. It says where this row completes: mixCommit. -/
def Obligations.CommitsAccepted : Prop :=
  (∀ (t : Frac) (c : Cmd) (d : Dma) (n : Nat) (h b : Bytes) (p : State × Nat) (s : State), cmdReady s c 0x0010 [0] →
    fieldsOk c [(0, wordAll)] = true → pwN c 0 % 16 = 0 → addrOk c 0 16 = true →
    cmdData s c d 0 16 = some h → countOk h = true → addrOk c 0 (16 + 8 * leAt h 4 2) = true →
    cmdData s c d 0 (16 + 8 * leAt h 4 2) = some b → mixSubmit (tableCorrected (atT s t) n) c.src b = .ok p →
    Answers (exec (.mixCommit t c d n) s) fun s' =>
      s'.mx = p.1.mx ∧ s'.pl = p.1.pl ∧
      completed c 0x0010 stOk (p.1.mx.costQueued % 2 ^ 24 + p.2 * 2 ^ 24) s s' ∧ onlyCmd [.mx, .pl] s s') ∧
  (∀ (t : Frac) (c : Cmd) (d : Dma) (n : Nat) (h : Bytes) (s : State), cmdReady s c 0x0010 [0] →
    fieldsOk c [(0, wordAll)] = true → pwN c 0 % 16 = 0 → addrOk c 0 16 = true →
    cmdData s c d 0 16 = some h → countOk h = false → h.length = 16 →
    Answers (exec (.mixCommit t c d n) s) fun s' =>
      completed c 0x0010 (if leAt h 0 4 = 0 then stBadTag else stBadRecord) noIndex s s' ∧ onlyCmd [] s s') ∧
  (∀ (o : Owner) (h : CommitReq) (recs : List Rec) (s s' : State) (q : Nat),
    commitRecs s o h recs = .ok (s', q) →
    q ∉ queueSlots s ∧ q < 8 ∧ s.mx.queue.length < 8 ∧ queueSlots s' = queueSlots s ++ [q] ∧
      (∀ k, (tget Xp.none s'.mx.xp k).cur = (tget Xp.none s.mx.xp k).cur) ∧
      ((∀ e ∈ s.mx.xp, e.2.lost = false) → s'.mx.costQueued ≤ testBudget s s.fr.rate)) ∧
  (∀ (o : Owner) (h : CommitReq) (recs : List Rec) (s : State), (∀ r ∈ recs, recOk r = true) → 8 ≤ s.mx.queue.length →
    commitRecs s o h recs = .error (s, stQueueFull, noIndex))

/-- The boundary of a commit (R33, R51, R64): the head of the queue alone is applied, its pending gains become current
but for those of entries lost by then, also of entries found damaged as it is applied, and MX_LAST_APPLY_FN names the
frame. It says where this row completes: frameDrain. -/
def Obligations.CommitApplied : Prop :=
  ∀ (t : Frac) (x : DrainIn) (c : Commit) (r : List Commit) (s : State), quietBoundary s [] → s.mx.queue = c :: r →
    (∀ b ∈ r, b.qslot ≠ c.qslot) → c.bound ≤ s.fr.fn → (c.atFn = true → c.target ≤ s.fr.fn + 1) → c.scene = none →
    s.mx.budget = budgetFor s s.fr.rate s.mx.inA s.mx.inB → twf Xp.none s.mx.xp = true →
    Answers (exec (.frameDrain t x) s) fun s' =>
      s'.mx.queue = r ∧ s'.mx.lastApplyFn = s.fr.fn ∧ s'.mx.lastApplyTag = c.tag ∧ s'.fr.drained = true ∧
      (∀ k, tget Xp.none s'.mx.xp k =
        let e := tget Xp.none (x.damaged.foldl markLost s).mx.xp k
        if e.pend = true ∧ e.qslot = c.qslot
        then freeXp { e with cur := if e.lost then e.cur else e.gain, pend := false } else e)

/-- The arithmetic of R56 and R57: scale targets, and a glide that reaches its target in 64 strobes and stays. -/
def Obligations.ScaleAndGlide : Prop :=
  (∀ n, 0 < n → n ≤ 8192 → (2 * eqpow n - 1) ^ 2 * n ≤ 2 ^ 48 ∧ 2 ^ 48 < (2 * eqpow n + 1) ^ 2 * n) ∧
  (∀ n, 0 < n → scaleTarget 1 n = 8388608 / 2 ^ clog2 n) ∧ (∀ m, scaleTarget m 0 = 8388608) ∧
  (∀ (g : Glide) (n : Nat), g.j = 0 → n ≤ 63 →
    glideScale (glideAfter n g) = ((g.ms : Int) + (((g.mt : Int) - g.ms) * n).tdiv 64).toNat) ∧
  (∀ (g : Glide) (n : Nat), g.j = 0 → 64 ≤ n → glideScale (glideAfter n g) = g.mt)

/-! ## Effect engines -/

/-- An engine's frame (R23, R77, R79, R92, R105): it starts once its eight input sinks are complete; its eight outputs
are in range when it completes; a failure is kept for the boundary; a delay word that cannot be corrected reads 0. The
parameter window (R93, R94, R96): a write that the word's attributes allow goes to the owner's shadow, another is
counted and reported; a read captures the attributes; FX_PCOMMIT stages the words written since the last one. The
model's choices in it: log entries 21, 95. It says where each of these rows completes: engineInputsComplete,
engineFrameComplete, engineFailure, delayUncorrectable, fxPdataAccess, fxPcommit. -/
def Obligations.EngineFramesAndParameters : Prop :=
  (∀ (t : Frac) (e : Fin 16) (s : State), computing s = true → engRuns (eng s e.val) = true →
    (eng s e.val).started = false →
    Answers (exec (.engineInputsComplete t e) s) fun s' =>
      s'.fx = (setEng s e.val { eng s e.val with started := true }).fx ∧
      (∀ i, i < 8 → (tget none s'.mx.res (0x730 + 8 * e.val + i)).isSome = true ∨
        isHeld s (0x730 + 8 * e.val + i) = true ∨ isShed s (0x730 + 8 * e.val + i) = true) ∧
      s'.mx.xp = s.mx.xp ∧ s'.mx.present = s.mx.present ∧ still [.mx, .fx] s s') ∧
  (∀ (t : Frac) (e : Fin 16) (n : Nat) (s : State), computing s = true → engRuns (eng s e.val) = true →
    (eng s e.val).started = true → (eng s e.val).complete = false →
    Answers (exec (.engineFrameComplete t e n) s) fun s' =>
      (eng s' e.val).complete = true ∧ (eng s' e.val).out.length = 8 ∧
      (∀ y ∈ (eng s' e.val).out, -(2 ^ 31 : Int) ≤ y ∧ y < 2 ^ 31) ∧
      (eng s' e.val).recipe = (eng s e.val).recipe ∧ (eng s' e.val).st = .running ∧
      (∀ k, k ≠ e.val → eng s' k = eng s k) ∧
      s'.fx.eccCorrected = satTo 0xFFFF (s.fx.eccCorrected + n) ∧ still [.fx] s s') ∧
  (∀ (t : Frac) (e : Fin 16) (k : Fin 32) (s : State), computing s = true → engRuns (eng s e.val) = true →
    (eng s e.val).complete = false →
    Answers (exec (.engineFailure t e .residue k) s) fun s' =>
      s'.fx = (setEng s e.val { eng s e.val with
        failure := some (1, k.val, s.fr.fn - 1), errors := inc32 (eng s e.val).errors }).fx ∧ still [.fx] s s') ∧
  (∀ (t : Frac) (e : Fin 16) (k : Fin 32) (n cell block off : Nat) (r : Recipe) (st : StageSt) (s : State),
    computing s = true → engRuns (eng s e.val) = true → (eng s e.val).complete = false →
    (eng s e.val).recipe = some r → delayWord r k.val n = some (cell, block, off) →
    (eng s e.val).stages[k.val]? = some st → cell ∉ st.lost → bit (reg s .fxEngBypass e.val) k.val = false →
    evtOpen s 1 →
    Answers (exec (.delayUncorrectable t e k n) s) fun s' =>
      s'.fx = { (setEng s e.val { eng s e.val with
          stages := (eng s e.val).stages.set k.val
            { st with line := tput 0 st.line cell 0, lost := st.lost ++ [cell] } }).fx with
        eccUncorrected := inc16 s.fx.eccUncorrected } ∧
      raised s t 0x0208 e.val (pay [(0, 2, block), (2, 2, off), (4, 1, k.val)]) s' ∧ only [.fx] s s') ∧
  (∀ (t : Frac) (o : Owner) (v : Word) (s : State), held s = false → owns s o (1 + (paddr s o).eng) = true →
    (paddr s o).auto = false → paramOk (eng s (paddr s o).eng).recipe (paddr s o).word v = true →
    Answers (exec (.fxPdataAccess t o (some v)) s) fun s' =>
      tget 0 (shadow (eng s' (paddr s o).eng) o).words (paddr s o).word = v ∧
      (paddr s o).word ∈ (shadow (eng s' (paddr s o).eng) o).dirty ∧
      (∀ w, w ≠ (paddr s o).word → tget 0 (shadow (eng s' (paddr s o).eng) o).words w =
        tget 0 (shadow (eng s (paddr s o).eng) o).words w) ∧
      (eng s' (paddr s o).eng).recipe = (eng s (paddr s o).eng).recipe ∧
      (∀ p, p ≠ o → shadow (eng s' (paddr s o).eng) p = shadow (eng s (paddr s o).eng) p) ∧
      (∀ e, e ≠ (paddr s o).eng → eng s' e = eng s e) ∧ still [.fx] s s') ∧
  (∀ (t : Frac) (o : Owner) (v : Word) (s : State), held s = false → owns s o (1 + (paddr s o).eng) = true →
    paramOk (eng s (paddr s o).eng).recipe (paddr s o).word v = false →
    (eng s (paddr s o).eng).refusedAt ≠ s.fr.fn + 1 → evtOpen s 1 →
    Answers (exec (.fxPdataAccess t o (some v)) s) fun s' =>
      eng s' (paddr s o).eng = { eng s (paddr s o).eng with
        refused := satTo 0xFFFFFFFF ((eng s (paddr s o).eng).refused + 1), refusedAt := s.fr.fn + 1 } ∧
      raised s t 0x0206 (paddr s o).eng (pay [(0, 2, (paddr s o).word),
        (2, 1, wordPattr (eng s (paddr s o).eng).recipe (paddr s o).word),
        (4, 4, satTo 0xFFFFFFFF ((eng s (paddr s o).eng).refused + 1))]) s' ∧ only [.fx] s s') ∧
  (∀ (t : Frac) (o : Owner) (r : Recipe) (s : State), (eng s (paddr s o).eng).recipe = some r →
    (paddr s o).word < r.nparam → tget 0 r.lock (paddr s o).word < 2 → (paddr s o).view = false →
    Answers (exec (.fxPdataAccess t o none) s) fun s' =>
      s'.out = [.read (tget 0 r.words (paddr s o).word)] ∧ s'.fx.eng = s.fx.eng ∧
      s'.fx.pattr = wordPattr (some r) (paddr s o).word ∧
      paddr s' o = { paddr s o with
        word := if (paddr s o).auto then ((paddr s o).word + 1) % 4096 else (paddr s o).word } ∧
      ∀ p : Part, p ≠ .fx → p.exact s s') ∧
  (∀ (t : Frac) (o : Owner) (e : Fin 16) (s : State), held s = false → owns s o (1 + e.val) = true →
    (eng s e.val).st = .running → e.val ∉ stagedSets s o → mirrors s (1 + e.val) = false →
    Answers (exec (.fxPcommit t o (BitVec.ofNat 32 (2 ^ e.val))) s) fun s' =>
      s'.fr = { s.fr with staged := s.fr.staged ++
        [{ owner := o, bound := bindTo s, item := .params [(e.val, dirtySet (eng s e.val) o)] false, at_ := frTime (atT s t) }] } ∧
      s'.fx = (setEng s e.val (setShadow (eng s e.val) o { shadow (eng s e.val) o with dirty := [] })).fx ∧
      still [.fx, .fr] s s') ∧
  (∀ (t : Frac) (o : Owner) (e : Fin 16) (s : State), held s = false → owns s o (1 + e.val) = true →
    (eng s e.val).st ≠ .running ∨ e.val ∈ stagedSets s o →
    Answers (exec (.fxPcommit t o (BitVec.ofNat 32 (2 ^ e.val))) s) fun s' =>
      s'.fx = { s.fx with pcRefused := true } ∧ still [.fx] s s')

/-- FX_LOAD (R100): the command becomes a long operation; its end stages the recipe, or completes with the check that
failed; an engine in a state that bars the load refuses it at once. FX_CLEAR and FX_TEST (R101, R106): a clear is
staged and answers its boundary; a test takes an EMPTY or FAILED engine to TESTING until it is done, and its result
decides EMPTY or FAILED. The model's choices in it: log entries 7, 95. It says where each of these rows completes:
fxLoad, fxLoadStaged, fxClear, fxTest, engineTestDone. -/
def Obligations.EngineLoadsAndTests : Prop :=
  (∀ (t : Frac) (c : Cmd) (d : Dma) (b : Bytes) (s : State), longReady s c 0x0020 [1 + pwN c 2 % 16] →
    fieldsOk c [(0, wordAll), (1, 0xFFFFFF), (2, 0x10F)] = true → addrOk c 0 (fldN (pwN c 1) 23 0) = true →
    loadBarred s (pwN c 2 % 16) = false → cmdData s c d 0 (fldN (pwN c 1) 23 0) = some b →
    Answers (exec (.fxLoad t c d) s) fun s' =>
      begun c 0x0020 (.fxLoad (pwN c 2 % 16) (bitN (pwN c 2) 8) b c.src) s' ∧ onlyWork [] s s') ∧
  (∀ (t : Frac) (c : Cmd) (d : Dma) (s : State), cmdReady s c 0x0020 [1 + pwN c 2 % 16] →
    fieldsOk c [(0, wordAll), (1, 0xFFFFFF), (2, 0x10F)] = true → addrOk c 0 (fldN (pwN c 1) 23 0) = true →
    loadBarred s (pwN c 2 % 16) = true →
    Answers (exec (.fxLoad t c d) s) fun s' => completed c 0x0020 stEngineState noIndex s s' ∧ onlyCmd [] s s') ∧
  (∀ (t : Frac) (us : Word) (nv : Bool) (bl : List (Fin 1024)) (e : Nat) (img : Bytes) (r : Recipe) (x : CmpSlot)
    (s : State), longHeld s x 0x0020 (.fxLoad e false img x.src) → checkLoad s e img 0xFF false = .ok r →
    s.pl.st ≠ .paired →
    Answers (exec (.fxLoadStaged t us nv bl) s) fun s' =>
      s'.fr = { s.fr with staged := s.fr.staged ++ [{
        owner := x.src, bound := bindTo s, at_ := frTime (atT s t)
        item := .swap e { r with table := allocate s (engHalf e) bl r.blocks } }] } ∧
      s'.hl.busy = none ∧ s'.hl.long = none ∧ reported x.src x.id 0x0020 x.idx stOk 0 s s' ∧ onlyWork [.fr] s s') ∧
  (∀ (t : Frac) (us : Word) (nv : Bool) (bl : List (Fin 1024)) (e : Nat) (img : Bytes) (st i : Nat) (x : CmpSlot) (s : State),
    longHeld s x 0x0020 (.fxLoad e false img x.src) → checkLoad s e img 0xFF false = .error (st, i) →
    st ≠ stOverBudget →
    Answers (exec (.fxLoadStaged t us nv bl) s) fun s' =>
      s'.hl.busy = none ∧ s'.hl.long = none ∧ reported x.src x.id 0x0020 x.idx st i s s' ∧ onlyWork [] s s') ∧
  (∀ (t : Frac) (c : Cmd) (s : State), cmdReady s c 0x0021 [1 + pwN c 0 % 16] → fieldsOk c [(0, 0xF)] = true →
    (eng s (pwN c 0 % 16)).st ≠ .testing → (eng s (pwN c 0 % 16)).st ≠ .unavailable → s.pl.st ≠ .paired →
    Answers (exec (.fxClear t c) s) fun s' =>
      s'.fr = { s.fr with staged := s.fr.staged ++
        [{ owner := c.src, bound := bindTo s, item := .clear (pwN c 0 % 16), at_ := frTime (atT s t) }] } ∧
      completed c 0x0021 stOk (bindTo s) s s' ∧ onlyCmd [.fr] s s') ∧
  (∀ (t : Frac) (c : Cmd) (s : State), longReady s c 0x0022 [1 + pwN c 0 % 16] → fieldsOk c [(0, 0xF)] = true →
    (eng s (pwN c 0 % 16)).st = .empty ∨ (eng s (pwN c 0 % 16)).st = .failed →
    (eng s (pwN c 0 % 16)).recipe = none →
    Answers (exec (.fxTest t c) s) fun s' =>
      s'.fx = (setEng s (pwN c 0 % 16) { eng s (pwN c 0 % 16) with st := .testing }).fx ∧
      begun c 0x0022 (.fxTest (pwN c 0 % 16)) s' ∧ onlyWork [.fx] s s') ∧
  (∀ (t : Frac) (c : Cmd) (s : State), cmdReady s c 0x0022 [1 + pwN c 0 % 16] → fieldsOk c [(0, 0xF)] = true →
    (eng s (pwN c 0 % 16)).st ≠ .empty → (eng s (pwN c 0 % 16)).st ≠ .failed →
    Answers (exec (.fxTest t c) s) fun s' => completed c 0x0022 stEngineState noIndex s s' ∧ onlyCmd [] s s') ∧
  (∀ (t : Frac) (us : Word) (r : TestResult) (v : Word) (e : Nat) (x : CmpSlot) (s : State),
    longHeld s x 0x0022 (.fxTest e) → evtOpen s 1 →
    Answers (exec (.engineTestDone t us r v) s) fun s' =>
      s'.fx = (setEng s e (if halfIn s (engHalf e) = true
        then { eng s e with st := if r = .pass then .empty else .failed }
        else { eng s e with st := .unavailable, keepFailed := decide (r ≠ .pass) })).fx ∧
      raised s t 0x0209 e (pay [(0, 1, if r = .pass then 0 else if r = .arithmetic then 1 else 2),
        (4, 4, if r = .pass then 0 else v.toNat)]) s' ∧
      reported x.src x.id 0x0022 x.idx stOk 0 s s' ∧ onlyWork [.fx] s s')

/-- MX_HALF (R457–R459): OUT and IN are staged and answer their boundary, TEST becomes a long operation and its end
records the lanes that passed. The model's choices in it: log entries 87, 99, 104. It says where each of these rows
completes: mxHalfOut, mxHalfIn, mxHalfTest, halfTestDone. -/
def Obligations.HalfCommands : Prop :=
  (∀ (t : Frac) (c : Cmd) (s : State), cmdReady s c 0x0011 [0] → fieldsOk c [(0, 0x301)] = true →
    fldN (pwN c 0) 9 8 = 1 → domOn s (domMXA + pwN c 0 % 2) = true → halfIn s (pwN c 0 % 2) = true →
    halfLoaded s (pwN c 0 % 2) = false → (admitRequest s (outBudget s (pwN c 0 % 2)) true).1 = 0 →
    Answers (exec (.mxHalfOut t c) s) fun s' =>
      s'.fr = { s.fr with staged := s.fr.staged ++
        [{ owner := c.src, bound := bindTo s, item := .halfOut (halfOf (pwN c 0 % 2)), at_ := frTime (atT s t) }] } ∧
      completed c 0x0011 stOk (bindTo s) s s' ∧ onlyCmd [.fr] s s') ∧
  (∀ (t : Frac) (c : Cmd) (s : State), cmdReady s c 0x0011 [0] → fieldsOk c [(0, 0x301)] = true →
    fldN (pwN c 0) 9 8 = 1 → domOn s (domMXA + pwN c 0 % 2) = true → halfIn s (pwN c 0 % 2) = true →
    halfLoaded s (pwN c 0 % 2) = false → (admitRequest s (outBudget s (pwN c 0 % 2)) true).1 ≠ 0 →
    Answers (exec (.mxHalfOut t c) s) fun s' =>
      s'.mx = { s.mx with
        refusedReason := (admitRequest s (outBudget s (pwN c 0 % 2)) true).1,
        refusedCost := (admitRequest s (outBudget s (pwN c 0 % 2)) true).2 % 2 ^ 24 } ∧
      completed c 0x0011 stAdmission (refusedResult (admitRequest s (outBudget s (pwN c 0 % 2)) true).2) s s' ∧
      onlyCmd [.mx] s s') ∧
  (∀ (t : Frac) (c : Cmd) (s : State), cmdReady s c 0x0011 [0] → fieldsOk c [(0, 0x301)] = true →
    fldN (pwN c 0) 9 8 = 2 → domOn s (domMXA + pwN c 0 % 2) = true → halfIn s (pwN c 0 % 2) = false →
    untested s (pwN c 0 % 2) = false →
    Answers (exec (.mxHalfIn t c) s) fun s' =>
      s'.fr = { s.fr with staged := s.fr.staged ++
        [{ owner := c.src, bound := bindTo s, item := .halfIn (halfOf (pwN c 0 % 2)), at_ := frTime (atT s t) }] } ∧
      completed c 0x0011 stOk (bindTo s) s s' ∧ onlyCmd [.fr] s s') ∧
  (∀ (t : Frac) (c : Cmd) (s : State), longReady s c 0x0011 [0] → fieldsOk c [(0, 0x301)] = true →
    fldN (pwN c 0) 9 8 = 3 → domOn s (domMXA + pwN c 0 % 2) = true → halfIn s (pwN c 0 % 2) = false →
    Answers (exec (.mxHalfTest t c) s) fun s' =>
      begun c 0x0011 (.halfTest (halfOf (pwN c 0 % 2))) s' ∧ onlyWork [] s s') ∧
  (∀ (t : Frac) (us failed : Word) (bad : Bool) (h : Half) (x : CmpSlot) (s : State),
    longHeld s x 0x0011 (.halfTest h) → evtOpen s 1 →
    Answers (exec (.halfTestDone t us failed bad) s) fun s' =>
      halfTest s' (halfNum h) = (if bad then 3 else if failed = 0 then 1 else 2,
        ((List.range 32).filter (fun i => !bit failed i)).length, failed.toNat, true) ∧
      (∀ i, i < 32 → (lane s' (32 * halfNum h + i)).st = .out ∧
        (lane s' (32 * halfNum h + i)).bad = bit failed i) ∧
      (∀ l, l / 32 ≠ halfNum h → lane s' l = lane s l) ∧
      raised s t 0x0F0A (halfNum h) (pay [(0, 1, if bad then 3 else if failed = 0 then 1 else 2),
        (1, 1, ((List.range 32).filter (fun i => !bit failed i)).length), (4, 4, failed.toNat)]) s' ∧
      reported x.src x.id 0x0011 x.idx stOk 0 s s' ∧ onlyWork [.mx, .fx, .pl] s s')

/-! ## Staged items at their boundary -/

/-- What a boundary puts in force (R31, R35) of an item staged for it, in an otherwise quiet boundary window: a
frame-staged register takes the value written under its mask (R4), a set of parameters its words (R95), an engine a
recipe or nothing (R100, R101), a channel its envelope or the reset values (R161), a half leaves or enters service
with B (R457, R459), the strobes stop for a new rate (R252), and domains go down or wait for power good (R393). The
model's choices in it: log entries 95, 104. It says where this row completes: frameDrain. -/
def Obligations.StagedItemsApply : Prop :=
  (∀ (t : Frac) (x : DrainIn) (o : Owner) (b n off k : Nat) (v : Word) (row : RegRow) (s : State),
    quietBoundary s [{ owner := o, bound := b, item := .reg off v, at_ := n }] → b ≤ s.fr.fn →
    regAt off = some (row, k) → row.staged = true → row.name ∈ plainStaged →
    regAccept row.name k (reg s row.name k) (mergeReg row.name k (reg s row.name k) v) = true →
    clockAccept s row.name k (mergeReg row.name k (reg s row.name k) v) = true →
    Answers (exec (.frameDrain t x) s) fun s' =>
      reg s' row.name k = (reg s row.name k &&& ~~~(regWritable row.name k)) ||| (v &&& regWritable row.name k) ∧
      (∀ m j, regOff m j ≠ regOff row.name k → reg s' m j = reg s m j) ∧ s'.fr.staged = []) ∧
  (∀ (t : Frac) (x : DrainIn) (o : Owner) (b n e : Nat) (ws : Tbl Word) (notify : Bool) (r : Recipe) (s : State),
    quietBoundary s [{ owner := o, bound := b, item := .params [(e, ws)] notify, at_ := n }] → b ≤ s.fr.fn →
    (eng s e).st = .running → (eng s e).recipe = some r → (ws.map Prod.fst).Nodup →
    Answers (exec (.frameDrain t x) s) fun s' =>
      ∃ r', (eng s' e).recipe = some r' ∧ (∀ p ∈ ws, tget 0 r'.words p.1 = p.2) ∧
        (∀ w, w ∉ ws.map Prod.fst → tget 0 r'.words w = tget 0 r.words w) ∧ r'.stages = r.stages ∧
        (eng s' e).st = .running ∧ s'.fr.staged = []) ∧
  (∀ (t : Frac) (x : DrainIn) (o : Owner) (b n e : Nat) (r : Recipe) (s : State), e < 16 →
    quietBoundary s [{ owner := o, bound := b, item := .swap e r, at_ := n }] → b ≤ s.fr.fn →
    (eng s e).st = .running ∨ (eng s e).st = .empty →
    Answers (exec (.frameDrain t x) s) fun s' =>
      (eng s' e).st = .running ∧ (eng s' e).recipe = some r ∧ (eng s' e).stages = stagesInit r ∧
      reg s' .fxEngBypass e = 0 ∧ (∀ k, k ≠ e → (eng s' k).recipe = (eng s k).recipe) ∧ s'.fr.staged = []) ∧
  (∀ (t : Frac) (x : DrainIn) (o : Owner) (b n e : Nat) (s : State), e < 16 →
    quietBoundary s [{ owner := o, bound := b, item := .clear e, at_ := n }] → b ≤ s.fr.fn →
    (eng s e).st = .running ∨ (eng s e).st = .empty ∨ (eng s e).st = .failed →
    Answers (exec (.frameDrain t x) s) fun s' =>
      (eng s' e).st = (if (eng s e).st = .failed then .failed else .empty) ∧ (eng s' e).recipe = none ∧
      (eng s' e).stages = [] ∧ reg s' .fxEngBypass e = 0 ∧
      (∀ k, k ≠ e → (eng s' k).recipe = (eng s k).recipe) ∧ s'.fr.staged = []) ∧
  (∀ (t : Frac) (x : DrainIn) (o : Owner) (b n c : Nat) (e : Env) (s : State), c < 12 →
    quietBoundary s [{ owner := o, bound := b, item := .env [(c, e)], at_ := n }] → b ≤ s.fr.fn →
    Answers (exec (.frameDrain t x) s) fun s' =>
      (spCh s' c).env = some e ∧ (spCh s' c).thC = 0 ∧ (spCh s' c).thM = 0 ∧ (spCh s' c).g = f32One ∧
      (∀ p ∈ envRegs.zip e.words, reg s' p.1 c = p.2) ∧
      (∀ j, j < 4 → bitN (enforced e) j = true → rb s' .spChCfg c j = true) ∧
      (∀ k, k ≠ c → (spCh s' k).env = (spCh s k).env) ∧ s'.fr.staged = []) ∧
  (∀ (t : Frac) (x : DrainIn) (o : Owner) (b n m : Nat) (s : State),
    quietBoundary s [{ owner := o, bound := b, item := .envClear m, at_ := n }] → b ≤ s.fr.fn →
    Answers (exec (.frameDrain t x) s) fun s' =>
      (∀ c, c < 12 → bitN m c = true → ((spCh s c).env.map (·.locked)).getD false = false →
        (spCh s' c).env = none ∧ ∀ r ∈ spRegs, reg s' r c = regReset r c) ∧
      (∀ c, c < 12 → bitN m c = false ∨ ((spCh s c).env.map (·.locked)).getD false = true →
        (spCh s' c).env = (spCh s c).env ∧ ∀ r ∈ spRegs, reg s' r c = reg s r c) ∧ s'.fr.staged = []) ∧
  (∀ (t : Frac) (x : DrainIn) (o : Owner) (b n : Nat) (h : Half) (s : State),
    quietBoundary s [{ owner := o, bound := b, item := .halfOut h, at_ := n }] → b ≤ s.fr.fn →
    halfIn s (halfNum h) = true → halfLoaded s (halfNum h) = false → s.mx.queue = [] →
    (costNow s).1 ≤ remainingBudget s (halfNum h) → (costNow s).2 ≤ remainingBudget s (halfNum h) / 4 →
    Answers (exec (.frameDrain t x) s) fun s' =>
      halfIn s' (halfNum h) = false ∧ halfIn s' (1 - halfNum h) = halfIn s (1 - halfNum h) ∧
      s'.mx.budget = budgetFor s' s.fr.rate s'.mx.inA s'.mx.inB ∧
      (∀ i, i < 32 → (lane s' (32 * halfNum h + i)).st = .out) ∧
      (∀ e ∈ halfEngines (halfNum h), (eng s' e).st = .unavailable) ∧ s'.fr.staged = []) ∧
  (∀ (t : Frac) (x : DrainIn) (o : Owner) (b n : Nat) (h : Half) (s : State),
    quietBoundary s [{ owner := o, bound := b, item := .halfIn h, at_ := n }] → b ≤ s.fr.fn →
    halfIn s (halfNum h) = false → domOn s (domMXA + halfNum h) = true → untested s (halfNum h) = false →
    2 ≤ (passingLanes s (halfNum h)).length → s.mx.queue = [] →
    Answers (exec (.frameDrain t x) s) fun s' =>
      halfIn s' (halfNum h) = true ∧ halfIn s' (1 - halfNum h) = halfIn s (1 - halfNum h) ∧
      (∀ l ∈ passingLanes s (halfNum h), (lane s' l).st = .scheduled ∨ (lane s' l).st = .spare) ∧
      ((passingLanes s (halfNum h)).filter (fun l => (lane s' l).st == .spare)).length = 2 ∧
      s'.mx.budget = budgetFor s' s.fr.rate s'.mx.inA s'.mx.inB ∧ s'.fr.staged = []) ∧
  (∀ (t : Frac) (x : DrainIn) (o : Owner) (b n code : Nat) (s : State),
    quietBoundary s [{ owner := o, bound := b, item := .rate code, at_ := n }] → b ≤ s.fr.fn → s.mx.queue = [] →
    Answers (exec (.frameDrain t x) s) fun s' =>
      s'.fr.rate = code ∧ s'.fr.running = false ∧ s'.fr.fn = s.fr.fn ∧
      s'.ck.gap = some { old := s.fr.rate, new := code, command := false } ∧
      s'.mx.budget = budgetFor s code s.mx.inA s.mx.inB ∧ s'.mx.xp = s.mx.xp ∧ s'.fr.staged = []) ∧
  (∀ (t : Frac) (x : DrainIn) (o : Owner) (b n up down j : Nat) (s : State),
    quietBoundary s [{ owner := o, bound := b, item := .domain up down j, at_ := n }] → b ≤ s.fr.fn →
    Answers (exec (.frameDrain t x) s) fun s' =>
      (∀ d, d < 10 → goesDown down d = true → domOn s' d = false) ∧
      (∀ d, d < 10 → goesDown down d = false → domOn s' d = domOn s d) ∧
      (∀ d ∈ upOrder up, domOn s' d = false → awaited s' d = true))

/-! ## The power stage -/

/-- The start and the stop of a power channel step by step, its mute and its re-arm in an open boundary window, which
alone puts them in force (R31; a re-arm that stands as the window closes takes effect at the strobe), and the
configuration that is written only while it is OFF (R119–R121, R126, R132): the channel's new state, its ramps, and no
other channel's. The model's choices in it: log entries 6, 53, 55, 92, 96, 105. It says where each of these rows
completes: chEnable, chDisable, chMute, chRearm, psConfigWrite, bootstrapChargeEnd, softStartEnd, stopRampEnd,
frameStrobe. -/
def Obligations.ChannelStartsAndStops : Prop :=
  (∀ (t : Frac) (c : Fin 12) (s : State), inWindow s = true → (psCh s c.val).st = .off → s.ps.ready = true → fbOver s c.val = false →
    within10ms (atT s t) c.val (nowTicks (atT s t)) = false → chCauses s c.val = [] →
    Answers (exec (.chEnable t c) s) fun s' =>
      s'.ps = (setPsCh (atT s t) c.val { psCh s c.val with
        st := .starting, phase := .bootstrap, startCause := 1, ramp := none,
        dcSt := .zero, dc := 0, dcSince := none, limited := 0 }).ps ∧
      s'.regs = (setBit s .psChCtrl c.val 0 true).regs ∧ still [.ps, .regs] s s') ∧
  (∀ (t : Frac) (c : Fin 12) (s : State), inWindow s = true → (psCh s c.val).st = .off → s.ps.ready = false →
    Answers (exec (.chEnable t c) s) fun s' =>
      s'.ps = { s.ps with refused := inc32 s.ps.refused } ∧ still [.ps] s s') ∧
  (∀ (t : Frac) (c : Fin 12) (s : State), inWindow s = true →
    (psCh s c.val).st = .starting ∨ (psCh s c.val).st = .run ∨ (psCh s c.val).st = .quiet →
    Answers (exec (.chDisable t c) s) fun s' =>
      s'.ps = (setPsCh (atT s t) c.val { psCh s c.val with
        st := .stopping, phase := .idle, disabledAt := s.fr.fn + 1, rearm := none,
        ramp := some (stopSlope s (psCh s c.val)) }).ps ∧
      s'.regs = (setBit s .psChCtrl c.val 0 false).regs ∧ still [.ps, .regs] s s') ∧
  (∀ (t : Frac) (c : Fin 12) (m : Bool) (s : State), inWindow s = true → rb s .psChCtrl c.val 1 ≠ m →
    Answers (exec (.chMute t c m) s) fun s' =>
      s'.ps = (setPsCh (atT s t) c.val { psCh s c.val with
        muteRamp := some { first := muteGain s c.val (nextStrobe s), last := if m then 0 else gainOne,
                           at_ := nextStrobe s, len := 5 * tMs } }).ps ∧
      s'.regs = (setBit s .psChCtrl c.val 1 m).regs ∧ still [.ps, .regs] s s') ∧
  (∀ (t : Frac) (c : Fin 12) (s : State), inWindow s = true → (psCh s c.val).disabledAt ≠ s.fr.fn + 1 →
    Answers (exec (.chRearm t c) s) fun s' =>
      s'.ps = (setPsCh (atT s t) c.val { psCh s c.val with
        rearm := some (s.fr.fn, (atT s t).now, nowTicks (atT s t)) }).ps ∧ still [.ps] s s') ∧
  (∀ (t : Frac) (c : Fin 12) (m : Bool) (s : State), inWindow s = false →
    Answers (exec (.chEnable t c) s) (still [] s) ∧ Answers (exec (.chDisable t c) s) (still [] s) ∧
    Answers (exec (.chMute t c m) s) (still [] s) ∧ Answers (exec (.chRearm t c) s) (still [] s)) ∧
  (∀ (t : Frac) (c : Fin 12) (s : State), inWindow s = true → rb s .psChCtrl c.val 0 = false →
    (psCh s c.val).disabledAt = s.fr.fn + 1 → Answers (exec (.chRearm t c) s) (still [] s)) ∧
  (∀ (t : Frac) (src : Owner) (c : Fin 12) (v : Word) (s : State),
    writeTaken s t src (0x30104 + 0x20 * c.val) (0x1D + c.val) →
    (psCh s c.val).st = .off → regAccept .psChCfg c.val (reg s .psChCfg c.val)
      (mergeReg .psChCfg c.val (reg s .psChCfg c.val) v) = true →
    Answers (exec (.psConfigWrite t src c .chCfg v) s) fun s' =>
      s'.regs = (setReg s .psChCfg c.val (mergeReg .psChCfg c.val (reg s .psChCfg c.val) v)).regs ∧
      only [.regs, .hl] s s') ∧
  (∀ (t : Frac) (c : Fin 12) (s : State), (psCh s c.val).st = .starting → (psCh s c.val).phase = .bootstrap →
    Answers (exec (.bootstrapChargeEnd t c) s) fun s' =>
      s'.ps = (setPsCh (atT s t) c.val { psCh s c.val with phase := .softStart, ramp := some (riseOver (atT s t) (5 * tMs)) }).ps ∧
      still [.ps] s s') ∧
  (∀ (t : Frac) (c : Fin 12) (s : State), (psCh s c.val).st = .starting → (psCh s c.val).phase = .softStart →
    evtOpen s 1 →
    Answers (exec (.softStartEnd t c) s) fun s' =>
      s'.ps = (setPsCh (atT s t) c.val { psCh s c.val with st := .run, phase := .idle, ramp := none, retries := 0 }).ps ∧
      raised s t 0x0301 c.val (pay [(0, 1, (psCh s c.val).startCause)]) s' ∧ only [.ps] s s') ∧
  (∀ (t : Frac) (c : Fin 12) (s : State), (psCh s c.val).st = .stopping → evtOpen s 1 →
    Answers (exec (.stopRampEnd t c) s) fun s' =>
      s'.ps = (setPsCh (atT s t) c.val { psCh s c.val with st := .off, phase := .idle, ramp := none, dcSince := none }).ps ∧
      raised s t 0x0302 c.val 0 s' ∧ only [.ps] s s') ∧
  (∀ (x : StrobeIn) (c : Fin 12) (r : Nat × Frac × Nat) (s : State), s.fr.running = true → s.ck.gap = none →
    s.fr.overrun = none → (psCh s c.val).rearm = some r →
    Answers (exec (.frameStrobe x) s) fun s' => (psCh s' c.val).rearm = none ∧
      ((psCh s c.val).st = .latched → within10ms s c.val r.2.2 = false → chCauses s c.val = [] →
        (psCh s' c.val).st = .starting ∧ (psCh s' c.val).phase = .softStart ∧ (psCh s' c.val).startCause = 2) ∧
      ((psCh s c.val).st ≠ .latched → (psCh s c.val).st ≠ .hiccup → (∀ k, k ≠ c.val → (psCh s k).rearm = none) →
        s'.ps.refused = inc32 s.ps.refused))

/-- The faults of one channel (R125, R127, R128, R133): the trip of a bridge, the limited cycles of a drive channel
and the shutdown at the 64th, the retry, and DC at the output. The model's choices in it: log entries 6, 55, 105. It
says where each of these rows completes: brOvercurrent, dxCycleLimit, dxLimitShutdown, hiccupEnd, dcFault. -/
def Obligations.ChannelFaults : Prop :=
  (∀ (t : Frac) (c : Fin 8) (v : BitVec 16) (s : State), switching s c.val = true → evtOpen s 1 →
    Answers (exec (.brOvercurrent t c v) s) fun s' =>
      s'.ps = (setPsCh (atT s t) c.val { psCh s c.val with
        st := .latched, cause := 1, phase := .idle, ramp := none,
        dcSince := none, limited := 0, trips := inc16 (psCh s c.val).trips, tripAt := some (nowTicks (atT s t)) }).ps ∧
      raised s t 0x0303 c.val (pay [(0, 1, rf s .psChCfg c.val 15 14), (2, 2, v.toNat),
        (4, 2, inc16 (psCh s c.val).trips)]) s' ∧ only [.ps] s s') ∧
  (∀ (t : Frac) (d : Fin 4) (k : Bool) (s : State), switching s (8 + d.val) = true →
    Answers (exec (.dxCycleLimit t d k) s) fun s' =>
      s'.ps = (setPsCh (atT s t) (8 + d.val) { psCh s (8 + d.val) with
        limited := if k then satTo 64 ((psCh s (8 + d.val)).limited + 1) else 1 }).ps ∧ still [.ps] s s') ∧
  (∀ (t : Frac) (d : Fin 4) (s : State), switching s (8 + d.val) = true → 64 ≤ (psCh s (8 + d.val)).limited →
    rf s .psDxCfg d.val 31 24 = 0 ∨ (psCh s (8 + d.val)).retries < rf s .psDxCfg d.val 31 24 → evtOpen s 1 →
    Answers (exec (.dxLimitShutdown t d) s) fun s' =>
      s'.ps = (setPsCh (atT s t) (8 + d.val) { psCh s (8 + d.val) with
        st := .hiccup, cause := 2, phase := .idle,
        ramp := none, dcSince := none, limited := 0, trips := inc16 (psCh s (8 + d.val)).trips,
        retries := inc8 (psCh s (8 + d.val)).retries }).ps ∧
      raised s t 0x0304 (8 + d.val) (pay [(0, 1, inc8 (psCh s (8 + d.val)).retries),
        (1, 1, rf s .psDxCfg d.val 31 24), (4, 4, hiccupMs (rf s .psDxCfg d.val 23 20))]) s' ∧ only [.ps] s s') ∧
  (∀ (t : Frac) (d : Fin 4) (s : State), switching s (8 + d.val) = true → 64 ≤ (psCh s (8 + d.val)).limited →
    rf s .psDxCfg d.val 31 24 ≠ 0 → rf s .psDxCfg d.val 31 24 ≤ (psCh s (8 + d.val)).retries → evtOpen s 1 →
    Answers (exec (.dxLimitShutdown t d) s) fun s' =>
      s'.ps = (setPsCh (atT s t) (8 + d.val) { psCh s (8 + d.val) with
        st := .latched, cause := 2, phase := .idle,
        ramp := none, dcSince := none, limited := 0, trips := inc16 (psCh s (8 + d.val)).trips }).ps ∧
      raised s t 0x0305 (8 + d.val) (pay [(0, 1, (psCh s (8 + d.val)).retries)]) s' ∧ only [.ps] s s') ∧
  (∀ (t : Frac) (d : Fin 4) (s : State), (psCh s (8 + d.val)).st = .hiccup → chCauses s (8 + d.val) = [] →
    Answers (exec (.hiccupEnd t d) s) fun s' =>
      s'.ps = (setPsCh (atT s t) (8 + d.val) { psCh s (8 + d.val) with
        st := .starting, phase := .softStart, startCause := 4,
        ramp := some (riseOver (atT s t) (5 * tMs)), dcSt := .zero, dc := 0, dcSince := none, limited := 0 }).ps ∧
      still [.ps] s s') ∧
  (∀ (t : Frac) (c : Fin 12) (a : Nat) (s : State), mutable s c.val = true → (psCh s c.val).dcSince = some a →
    a + 10 * rf s .psChDc c.val 13 8 * tMs ≤ nowTicks (atT s t) → evtOpen s 1 →
    Answers (exec (.dcFault t c) s) fun s' =>
      s'.ps = (setPsCh (atT s t) c.val { psCh s c.val with
        st := .latched, cause := 3, phase := .idle, ramp := none,
        dcSince := none, limited := 0 }).ps ∧
      raised s t 0x0306 c.val (pay [(0, 2, toU 16 (psCh s c.val).dc), (2, 1, rf s .psChDc c.val 5 0),
        (3, 1, rf s .psChDc c.val 13 8)]) s' ∧ only [.ps] s s')

/-- The automatic causes of the clock, the supplies and the temperature (R125, R129, R130): the cause stands, the
event is raised, the channels in its scope are muted; when it clears, the MUTED channels without another cause start.
Quiet mode and idle power-down (R134–R136): RUN to QUIET, the power-down of a die whose channels rest, the soft start
of its channels after the wake and their entry into RUN. The model's choices in it: log entries 6, 105. It says where
each of these rows completes: clockMute, clockResume, supplyMute, supplyResume, tempShutdown, tempResume, pvddSag,
tempWarn, quietEntry, domainIdleOff, idleWakeSoftStart, idleWakeRun. -/
def Obligations.AutomaticCausesAndIdle : Prop :=
  (∀ (t : Frac) (m : Bool) (s : State), s.ps.clock = false → s.ck.suspended = false → evtOpen s 1 →
    Answers (exec (.clockMute t m) s) fun s' =>
      powerRest s'.ps = powerRest { s.ps with clock := true } ∧ holdsFollow t s s' ∧ mutesChannels allCh 4 s s' ∧
      raised s t 0x0307 noUnit (pay [(0, 1, if m then 1 else 2), (2, 2, chMask allCh (mutable s))]) s' ∧
      only [.ps] s s') ∧
  (∀ (t : Frac) (s : State), s.ps.clock = true → evtOpen s 1 →
    Answers (exec (.clockResume t) s) fun s' =>
      powerRest s'.ps = powerRest { s.ps with clock := false } ∧ holdsFollow t s s' ∧
      startsChannels allCh (fun k => chCauses s k = [4]) t s s' ∧
      raised s t 0x0308 noUnit (pay [(2, 2, chMask allCh
        (fun c => (psCh s c).st == .muted && decide (chCauses s c = [4])))]) s' ∧ only [.ps] s s') ∧
  (∀ (t : Frac) (d : PowerDie) (k : SupplyCause) (v : BitVec 16) (s : State), supplyHas (die s d) k = false →
    evtOpen s 1 →
    Answers (exec (.supplyMute t d k v) s) fun s' =>
      powerRest s'.ps = powerRest (setDie s d (supplySet (die s d) k true)).ps ∧ holdsFollow t s s' ∧
      mutesChannels (supplyScope d k) (4 + supplyCode k) s s' ∧
      raised s t 0x0309 (dieNum d) (pay [(0, 1, supplyCode k), (2, 2, v.toNat)]) s' ∧ only [.ps] s s') ∧
  (∀ (t : Frac) (d : PowerDie) (k : SupplyCause) (s : State), supplyHas (die s d) k = true →
    Answers (exec (.supplyResume t d k) s) fun s' =>
      powerRest s'.ps = powerRest (setDie s d (supplySet (die s d) k false)).ps ∧ holdsFollow t s s' ∧
      startsChannels (dieChannels d)
        (fun c => chCauses (setDie s d (supplySet (die s d) k false)) c = []) t s s' ∧
      ((supplySet (die s d) k false).uv = false → (supplySet (die s d) k false).ov = false →
        (supplySet (die s d) k false).vg = false → evtOpen s 1 →
        raised s t 0x030A (dieNum d) (pay [(0, 1, supplyCode k)]) s') ∧ only [.ps] s s') ∧
  (∀ (t : Frac) (d : PowerDie) (v : BitVec 16) (s : State), (die s d).ot = false → evtOpen s 1 →
    Answers (exec (.tempShutdown t d v) s) fun s' =>
      powerRest s'.ps = powerRest (setDie s d { die s d with ot := true }).ps ∧ holdsFollow t s s' ∧
      mutesChannels (dieChannels d) 8 s s' ∧
      raised s t 0x030D (dieNum d) (pay [(0, 2, v.toNat)]) s' ∧ only [.ps] s s') ∧
  (∀ (t : Frac) (d : PowerDie) (v : BitVec 16) (s : State), (die s d).ot = true → evtOpen s 1 →
    Answers (exec (.tempResume t d v) s) fun s' =>
      powerRest s'.ps = powerRest (setDie s d { die s d with ot := false }).ps ∧ holdsFollow t s s' ∧
      startsChannels (dieChannels d) (fun c => chCauses (setDie s d { die s d with ot := false }) c = []) t s s' ∧
      raised s t 0x030E (dieNum d) (pay [(0, 2, v.toNat)]) s' ∧ only [.ps] s s') ∧
  (∀ (t : Frac) (d : PowerDie) (v : BitVec 16) (s : State), (die s d).sagArmed = true → v.toNat < sagLevel s d →
    evtOpen s 1 →
    Answers (exec (.pvddSag t d v) s) fun s' =>
      s'.ps = (setDie s d { die s d with sagArmed := false, sagSince := none }).ps ∧
      raised s t 0x030B (dieNum d) (pay [(0, 2, v.toNat), (2, 1, sagLevel s d / 20)]) s' ∧ only [.ps] s s') ∧
  (∀ (t : Frac) (d : PowerDie) (v : BitVec 16) (s : State), (die s d).warnArmed = true →
    (16 * rf s .psTempCfg 0 7 0 : Int) ≤ sext 16 v.toNat → evtOpen s 1 →
    Answers (exec (.tempWarn t d v) s) fun s' =>
      s'.ps = (setDie s d { die s d with warnArmed := false }).ps ∧
      raised s t 0x030C (dieNum d) (pay [(0, 2, v.toNat)]) s' ∧ only [.ps] s s') ∧
  (∀ (t : Frac) (c : Fin 12) (s : State), (psCh s c.val).st = .run → rb s .psChQuiet c.val 31 = true →
    rf s .psChQuiet c.val 15 0 ≤ (psCh s c.val).quietRun →
    Answers (exec (.quietEntry t c) s) fun s' =>
      s'.ps = (setPsCh (atT s t) c.val { psCh s c.val with st := .quiet }).ps ∧ still [.ps] s s') ∧
  (∀ (t : Frac) (d : PowerDie) (a : Nat) (s : State), (die s d).idleSince = some a →
    rb s .psDomIdle 0 (dieNum d) = true → domOn s (dieDom d) = true → dieIdle s d = true →
    a + rf s .psDomIdle 0 15 8 * tSec ≤ nowTicks (atT s t) → evtOpen s 2 →
    Answers (exec (.domainIdleOff t d) s) fun s' =>
      s'.pd = { s.pd with on := s.pd.on - 2 ^ dieDom d } ∧
      die s' d = { die s d with idleOff := true, pvdd := 0, temp := 0, idleSince := none } ∧
      (∀ k, psCh s' k = if k ∈ dieChannels d ∧ (psCh s k).st = .quiet
        then { psCh s k with st := .domainOff, dcSince := none } else psCh s k) ∧
      raised s t 0x030F (dieNum d) (pay [(0, 2, chMask (dieChannels d) (fun c => (psCh s c).st == .quiet))]) s' ∧
      raised s t 0x0D01 (dieDom d) (pay [(0, 1, 2), (1, 1, 3)]) s' ∧ only [.ps, .pd] s s') ∧
  (∀ (t : Frac) (d : PowerDie) (s : State), (die s d).waking = true → domOn s (dieDom d) = true →
    (∀ c ∈ dieChannels d, chCauses s c = []) →
    Answers (exec (.idleWakeSoftStart t d) s) fun s' =>
      powerRest s'.ps = powerRest (setDie s d { die s d with waking := false }).ps ∧
      (∀ k, psCh s' k = if k ∈ dieChannels d ∧ (psCh s k).st = .domainOff
        then { psCh s k with
               st := .starting, phase := .domainWake, startCause := 5,
               ramp := some (riseOver (atT s t) (tMs / 2)), dcSt := .zero, dc := 0, dcSince := none, limited := 0 }
        else psCh s k) ∧ holdsFollow t s s' ∧ still [.ps] s s') ∧
  (∀ (t : Frac) (d : PowerDie) (s : State),
    Answers (exec (.idleWakeRun t d) s) fun s' =>
      powerRest s'.ps = powerRest s.ps ∧ holdsFollow t s s' ∧
      (∀ k, psCh s' k = if k ∈ dieChannels d ∧ (psCh s k).st = .starting ∧ (psCh s k).phase = .domainWake
        then { psCh s k with st := .run, phase := .idle, ramp := none, retries := 0 } else psCh s k) ∧
      only [.ps] s s')

/-! ## Speaker protection -/

/-- The pilot windows (R153–R157): a window of an idle channel counts nothing, the fourth weak one in a row reports
the pilot lost, the second open one in a row reports an open load, and a valid one gives the measured resistance from
the sums of its frames; a window that is not complete goes on. The writable side of speaker protection, put in force
in an open boundary window alone (R31, R155, R161–R163, R169): the latch and the peaks are cleared; a register takes a
value in range, but with a locked envelope only one at least as strict, and a looser one is refused and counted;
SP_ENV_CLEAR is staged unless a channel's envelope is locked. The model's choices in it: log entries 35, 58, 92, 96.
It says where each of these rows completes: pilotWindowEnd, impLatchClear, peakClear, spRegisterWrite, spEnvLoad,
spEnvClear. -/
def Obligations.PilotAndProtection : Prop :=
  (∀ (t : Frac) (c : Fin 12) (s : State), windowFull s c.val = true →
    (psCh s c.val).st ≠ .run → (psCh s c.val).st ≠ .quiet →
    Answers (exec (.pilotWindowEnd t c) s) fun s' =>
      s'.sp = (setSpCh s c.val (noWindow (spCh s c.val))).sp ∧ still [.sp] s s') ∧
  (∀ (t : Frac) (c : Fin 12) (s : State), windowFull s c.val = true →
    (psCh s c.val).st = .run ∨ (psCh s c.val).st = .quiet → pilotWeak s c.val = true → (spCh s c.val).badRun = 3 →
    evtOpen s 1 →
    Answers (exec (.pilotWindowEnd t c) s) fun s' =>
      s'.sp = (setSpCh s c.val { badWindow (spCh s c.val) with openRun := 0, badRun := 4, lost := true }).sp ∧
      raised s t 0x0409 c.val (pay [(0, 2, repU 16 (fTimes (pilotVolts s c.val) 1000))]) s' ∧ only [.sp] s s') ∧
  (∀ (t : Frac) (c : Fin 12) (s : State), windowFull s c.val = true →
    (psCh s c.val).st = .run ∨ (psCh s c.val).st = .quiet → pilotWeak s c.val = false → pilotOpen s c.val = true →
    (spCh s c.val).openRun = 1 → (spCh s c.val).open_ = false → evtOpen s 1 →
    Answers (exec (.pilotWindowEnd t c) s) fun s' =>
      s'.sp = (setSpCh s c.val { badWindow (spCh s c.val) with openRun := 2, badRun := 0, open_ := true }).sp ∧
      raised s t 0x0407 c.val (pay [(0, 2, repU 16 (fTimes (pilotVolts s c.val) 1000)),
        (2, 2, repU 16 (fTimes (pilotAmps s c.val) 100000))]) s' ∧ only [.sp] s s') ∧
  (∀ (t : Frac) (c : Fin 12) (s : State), windowFull s c.val = true →
    (psCh s c.val).st = .run ∨ (psCh s c.val).st = .quiet → pilotWeak s c.val = false → pilotOpen s c.val = false →
    Answers (exec (.pilotWindowEnd t c) s) fun s' =>
      (spCh s' c.val).valid = true ∧ (spCh s' c.val).winFrames = 0 ∧ (spCh s' c.val).badRun = 0 ∧
      (spCh s' c.val).openRun = 0 ∧ (spCh s' c.val).vi = 0 ∧ (spCh s' c.val).iq = 0 ∧
      (spCh s' c.val).rMeas = F32.div (F32.add (F32.mul (spCh s c.val).vi (spCh s c.val).ii)
          (F32.mul (spCh s c.val).vq (spCh s c.val).iq))
        (F32.add (F32.mul (spCh s c.val).ii (spCh s c.val).ii) (F32.mul (spCh s c.val).iq (spCh s c.val).iq)) ∧
      (∀ k, k ≠ c.val → spCh s' k = spCh s k) ∧ only [.sp] s s') ∧
  (∀ (t : Frac) (c : Fin 12) (s : State), windowFull s c.val = false →
    Answers (exec (.pilotWindowEnd t c) s) fun s' => still [] s s') ∧
  (∀ (t : Frac) (c : Fin 12) (s : State), inWindow s = true → (spCh s c.val).latch = true → evtOpen s 1 →
    Answers (exec (.impLatchClear t c) s) fun s' =>
      s'.sp = (setSpCh s c.val { spCh s c.val with latch := false, lowRun := 0 }).sp ∧
      raised s t 0x0406 c.val 0 s' ∧ only [.sp] s s') ∧
  (∀ (t : Frac) (c : Fin 12) (s : State), inWindow s = true →
    Answers (exec (.peakClear t c) s) fun s' =>
      s'.sp = (setSpCh s c.val { spCh s c.val with vrmsPeak := 0, xPeak := 0 }).sp ∧ still [.sp] s s') ∧
  (∀ (t : Frac) (o : Owner) (c : Fin 12) (off : Fin 64) (n : RegName) (v : Word) (s : State),
    inWindow s = true → spRegs.find? (fun n => regOff n 0 == 0x38100 + off.val) = some n →
    (n = .spChCtrl → bit v 31 = false) →
    regAccept n c.val (reg s n c.val) (mergeReg n c.val (reg s n c.val) v) = true →
    (∀ e, (spCh s c.val).env = some e → e.locked = false ∨
      asStrict e n (reg s n c.val) (mergeReg n c.val (reg s n c.val) v) = true) →
    Answers (exec (.spRegisterWrite t o c off v) s) fun s' =>
      s'.regs = (setReg s n c.val (mergeReg n c.val (reg s n c.val) v)).regs ∧ still [.regs] s s') ∧
  (∀ (t : Frac) (o : Owner) (c : Fin 12) (off : Fin 64) (n : RegName) (v : Word) (e : Env) (s : State),
    inWindow s = true → spRegs.find? (fun n => regOff n 0 == 0x38100 + off.val) = some n →
    (spCh s c.val).env = some e → e.locked = true →
    asStrict e n (reg s n c.val) (mergeReg n c.val (reg s n c.val) v) = false → evtOpen s 1 →
    Answers (exec (.spRegisterWrite t o c off v) s) fun s' =>
      s'.sp = { s.sp with refused := inc32 s.sp.refused } ∧
      raised s t 0x040C c.val (pay [(0, 2, regOff n 0 - 0x38100), (4, 4, inc32 s.sp.refused)]) s' ∧ only [.sp] s s') ∧
  (∀ (t : Frac) (o : Owner) (c : Fin 12) (off : Fin 64) (v : Word) (s : State), inWindow s = false →
    Answers (exec (.impLatchClear t c) s) (still [] s) ∧ Answers (exec (.peakClear t c) s) (still [] s) ∧
    Answers (exec (.spRegisterWrite t o c off v) s) (still [] s)) ∧
  (∀ (t : Frac) (c : Cmd) (d : Dma) (b : Bytes) (s : State), longReady s c 0x0030 [] →
    fieldsOk c [(0, wordAll), (1, 0xFFFFFF), (2, 0x100)] = true → addrOk c 0 (fldN (pwN c 1) 23 0) = true →
    cmdData s c d 0 (fldN (pwN c 1) 23 0) = some b →
    Answers (exec (.spEnvLoad t c d) s) fun s' =>
      begun c 0x0030 (.envLoad (bitN (pwN c 2) 8) b c.src) s' ∧ onlyWork [] s s') ∧
  (∀ (t : Frac) (c : Cmd) (s : State),
    cmdReady s c 0x0031 ((maskChannels (pwN c 0 % 4096)).map (· + 0x11)) → fieldsOk c [(0, 0xFFF)] = true →
    (∀ k ∈ maskChannels (pwN c 0 % 4096), ((spCh s k).env.map (·.locked)).getD false = false) → s.pl.st ≠ .paired →
    Answers (exec (.spEnvClear t c) s) fun s' =>
      s'.fr = { s.fr with staged := s.fr.staged ++
        [{ owner := c.src, bound := bindTo s, item := .envClear (pwN c 0 % 4096), at_ := frTime (atT s t) }] } ∧
      completed c 0x0031 stOk (bindTo s) s s' ∧ onlyCmd [.fr] s s') ∧
  (∀ (t : Frac) (c : Cmd) (k : Nat) (s : State),
    cmdReady s c 0x0031 ((maskChannels (pwN c 0 % 4096)).map (· + 0x11)) → fieldsOk c [(0, 0xFFF)] = true →
    (maskChannels (pwN c 0 % 4096)).find? (fun k => ((spCh s k).env.map (·.locked)).getD false) = some k →
    Answers (exec (.spEnvClear t c) s) fun s' => completed c 0x0031 stEnvLocked k s s' ∧ onlyCmd [] s s')

/-! ## Analog and PDM inputs -/

/-- The start of an analog input step by step, its end, and the end of a settling (R186–R188): OFF, PRECHARGE,
SETTLING, RUNNING; EN = 0 leaves OFF from any of them. What a register field commands happens in an open boundary
window alone (R31), and what is written while AIN is off waits for it (R171). The model's choices in it: log entries
6, 92, 106. It says where each of these rows completes: aiEnable, aiPrechargeEnd, aiSettleEnd, aiDisable,
pgaGainChange, biasEnable, jackPlugRelease. -/
def Obligations.InputStarts : Prop :=
  (∀ (t : Frac) (n : Fin 16) (s : State), inWindow s = true → (aiCh s n.val).st = .off →
    domOn s domAIN = true →
    Answers (exec (.aiEnable t n) s) fun s' =>
      s'.ai = (setAiCh s n.val { aiCh s n.val with st := .precharge }).ai ∧
      s'.regs = (setBit s .aiChCfg n.val 31 true).regs ∧ still [.ai, .regs] s s') ∧
  (∀ (t : Frac) (n : Fin 16) (s : State), inWindow s = true → domOn s domAIN = false →
    Answers (exec (.aiEnable t n) s) fun s' =>
      s'.regs = (setBit s .aiChCfg n.val 31 true).regs ∧ still [.regs] s s') ∧
  (∀ (t : Frac) (n : Fin 16) (s : State), (aiCh s n.val).st = .precharge →
    Answers (exec (.aiPrechargeEnd t n) s) fun s' =>
      s'.ai = (setAiCh s n.val { aiCh s n.val with
        st := .settling, settle := settleFor (rb s .aiChCfg n.val 27) (aiCh s n.val).settle }).ai ∧ still [.ai] s s') ∧
  (∀ (t : Frac) (q : Fin 48) (s : State), q.val < 16 → (aiCh s q.val).st = .settling →
    (aiCh s q.val).settle = some 0 →
    Answers (exec (.aiSettleEnd t q) s) fun s' =>
      s'.ai = (setAiCh s q.val { aiCh s q.val with st := .running, settle := none }).ai ∧ still [.ai] s s') ∧
  (∀ (t : Frac) (q : Fin 48) (s : State), 16 ≤ q.val → (pdm s (q.val - 16)).settle = some 0 →
    Answers (exec (.aiSettleEnd t q) s) fun s' =>
      s'.ai = (setPdm s (q.val - 16) { pdm s (q.val - 16) with settle := none }).ai ∧ still [.ai] s s') ∧
  (∀ (t : Frac) (q : Fin 48) (s : State), inWindow s = true → q.val < 16 → domOn s domAIN = true →
    rb s .aiChCfg q.val 31 = true →
    Answers (exec (.aiDisable t q) s) fun s' =>
      s'.ai = (setAiCh s q.val { aiCh s q.val with st := .off, settle := none, fade := none, ws := [] }).ai ∧
      s'.regs = (setBit s .aiChCfg q.val 31 false).regs ∧ still [.ai, .regs] s s') ∧
  (∀ (t : Frac) (q : Fin 48) (s : State), inWindow s = true → q.val < 16 →
    domOn s domAIN = false ∨ rb s .aiChCfg q.val 31 = false →
    Answers (exec (.aiDisable t q) s) fun s' =>
      s'.regs = (setBit s .aiChCfg q.val 31 false).regs ∧ still [.regs] s s') ∧
  (∀ (t : Frac) (q : Fin 48) (s : State), inWindow s = true → 16 ≤ q.val →
    Answers (exec (.aiDisable t q) s) fun s' =>
      s'.regs = (setBit s .aiPdmCh (q.val - 16) 31 false).regs ∧ still [.regs] s s') ∧
  (∀ (t : Frac) (n : Fin 16) (q : Fin 48) (g : Fin 121) (b : Fin 4) (en : Bool) (j : Fin 8) (s : State),
    inWindow s = false →
    Answers (exec (.aiEnable t n) s) (still [] s) ∧ Answers (exec (.aiDisable t q) s) (still [] s) ∧
    Answers (exec (.pgaGainChange t n g) s) (still [] s) ∧ Answers (exec (.biasEnable t b en) s) (still [] s) ∧
    Answers (exec (.jackPlugRelease t j) s) (still [] s))

/-- The gain and the two paths of an input (R173–R175): a new gain waits for a sign change and is switched at it, or
after the timeout with a report; the paths fade toward L or H, and an overload of H forces L at once. The model's
choices in it: log entries 92, 98. It says where each of these rows completes: pgaGainChange, pgaZeroCrossing,
pgaZcTimeout, pathHToL, pathLToH, pathForced, aiPeakClear. -/
def Obligations.GainAndPaths : Prop :=
  (∀ (t : Frac) (n : Fin 16) (g : Fin 121) (s : State), inWindow s = true → domOn s domAIN = true →
    rf s .aiChCfg n.val 6 0 ≠ g.val → (rb s .aiChCfg n.val 31 = true → (aiCh s n.val).st ≠ .off) →
    Answers (exec (.pgaGainChange t n g) s) fun s' =>
      s'.ai = (setAiCh s n.val { aiCh s n.val with zc := some (g.val, nextStrobe s) }).ai ∧
      rf s' .aiChCfg n.val 6 0 = g.val ∧ rf s' .aiChCfg n.val 31 7 = rf s .aiChCfg n.val 31 7 ∧
      still [.ai, .regs] s s') ∧
  (∀ (t : Frac) (n : Fin 16) (g a : Nat) (s : State), (aiCh s n.val).zc = some (g, a) → a ≤ nowTicks (atT s t) →
    Answers (exec (.pgaZeroCrossing t n) s) fun s' =>
      s'.ai = (setAiCh s n.val { aiCh s n.val with gain := g, zc := none }).ai ∧ still [.ai] s s') ∧
  (∀ (t : Frac) (n : Fin 16) (g a : Nat) (s : State), (aiCh s n.val).zc = some (g, a) →
    a + 20 * tMs ≤ nowTicks (atT s t) → evtOpen s 1 →
    Answers (exec (.pgaZcTimeout t n) s) fun s' =>
      s'.ai = (setAiCh s n.val { aiCh s n.val with gain := g, zc := none }).ai ∧
      raised s t 0x0503 n.val (pay [(0, 1, (aiCh s n.val).gain), (1, 1, g)]) s' ∧ only [.ai] s s') ∧
  (∀ (t : Frac) (n : Fin 16) (s : State), dual s n.val = true → (fadeTo (aiCh s n.val) t 1).weight ≠ 0 →
    Answers (exec (.pathHToL t n) s) fun s' =>
      s'.ai = (setAiCh s n.val { fadeTo (aiCh s n.val) t 1 with fade := some false }).ai ∧ still [.ai] s s') ∧
  (∀ (t : Frac) (n : Fin 16) (s : State), dual s n.val = true → (fadeTo (aiCh s n.val) t 1).weight ≠ 16 →
    Answers (exec (.pathLToH t n) s) fun s' =>
      s'.ai = (setAiCh s n.val { fadeTo (aiCh s n.val) t 1 with fade := some true }).ai ∧ still [.ai] s s') ∧
  (∀ (t : Frac) (n : Fin 16) (s : State), dual s n.val = true → (fadeTo (aiCh s n.val) t 0).weight ≠ 0 →
    (aiCh s n.val).forcedAt = 0 → evtOpen s 1 →
    Answers (exec (.pathForced t n) s) fun s' =>
      s'.ai = (setAiCh s n.val { fadeTo (aiCh s n.val) t 0 with
        weight := 0, fade := none, forced := inc8 (aiCh s n.val).forced,
        forcedAt := nowTicks (atT s t) + 1 }).ai ∧
      raised s t 0x0502 n.val (pay [(0, 1, inc8 (aiCh s n.val).forced), (1, 1, (aiCh s n.val).gain)]) s' ∧
      only [.ai] s s') ∧
  (∀ (t : Frac) (o : Owner) (v : Word) (s : State), writeTaken s t o 0x40010 0x2A → bit v 31 = false →
    fld v 5 0 < 48 →
    Answers (exec (.aiPeakClear t o v) s) fun s' =>
      s'.ai = { s.ai with clear := s.ai.clear ++ [fld v 5 0] } ∧ only [.ai, .hl] s s')

/-- Microphones, biases and jacks (R177, R178, R185, R190). The model's choices in it: log entries 6, 62, 92, 98, 106.
It says where each of these rows completes: pdmStuck, pdmRecovered, biasEnable, biasShort, jackChanged,
jackPlugRelease. -/
def Obligations.MicsAndJacks : Prop :=
  (∀ (t : Frac) (m : Fin 32) (v : Bool) (s : State), pdmLive s m.val = true → (pdm s m.val).stuck = false → evtOpen s 1 →
    Answers (exec (.pdmStuck t m v) s) fun s' =>
      s'.ai = (setPdm s m.val { pdm s m.val with stuck := true, stuckAt := nowTicks (atT s t) }).ai ∧
      raised s t 0x0506 (16 + m.val) (pay [(0, 1, b2n v)]) s' ∧ only [.ai] s s') ∧
  (∀ (t : Frac) (m : Fin 32) (s : State), (pdm s m.val).stuck = true → evtOpen s 1 →
    Answers (exec (.pdmRecovered t m) s) fun s' =>
      s'.ai = (setPdm s m.val { pdm s m.val with
        stuck := false, stuckAt := 0, settle := settleFor (rb s .aiPdmCh m.val 27) (pdm s m.val).settle }).ai ∧
      raised s t 0x0507 (16 + m.val)
        (pay [(0, 4, satTo 0xFFFFFFFF ((nowTicks (atT s t) - (pdm s m.val).stuckAt) / tMs))]) s' ∧ only [.ai] s s') ∧
  (∀ (t : Frac) (b : Fin 4) (s : State), inWindow s = true → domOn s domAIN = true → (bias s b.val).on = false →
    (bias s b.val).short = false → (∀ j, j ∈ liveJacks s → rb s .aiJack j (24 + b.val) = false) →
    Answers (exec (.biasEnable t b true) s) fun s' =>
      bias s' b.val = { bias s b.val with
        on := true
        volt := { first := (bias s b.val).volt.value (nowTicks (atT s t)),
                  last := vselMv (rf s .aiBiasCfg 0 (8 * b.val + 1) (8 * b.val)), at_ := nowTicks (atT s t),
                  len := 20 * tMs } } ∧
      (∀ k, k ≠ b.val → k < 4 → biasSteady s k → bias s' k = bias s k) ∧
      s'.ai = { s.ai with bias := s'.ai.bias, biasConf := true } ∧
      s'.regs = (setBit s .aiBiasCfg 0 (8 * b.val + 7) true).regs ∧ still [.ai, .regs] s s') ∧
  (∀ (t : Frac) (b : Fin 4) (s : State), inWindow s = true → (bias s b.val).on = true →
    Answers (exec (.biasEnable t b false) s) fun s' =>
      bias s' b.val = {
        on := false, short := false, current := 0
        volt := { first := (bias s b.val).volt.value (nowTicks (atT s t)), last := 0, at_ := nowTicks (atT s t),
                  len := 20 * tMs } } ∧
      (∀ k, k ≠ b.val → k < 4 → biasSteady s k → bias s' k = bias s k) ∧
      s'.ai = { s.ai with bias := s'.ai.bias, biasConf := true } ∧
      s'.regs = (setBit s .aiBiasCfg 0 (8 * b.val + 7) false).regs ∧ still [.ai, .regs] s s') ∧
  (∀ (t : Frac) (b : Fin 4) (i : Fin 128) (s : State), (bias s b.val).on = true → evtOpen s 1 →
    Answers (exec (.biasShort t b i) s) fun s' =>
      s'.ai = (setBias s b.val { Bias.reset with short := true }).ai ∧
      raised s t 0x0504 b.val (pay [(0, 1, rf s .aiBiasCfg 0 (8 * b.val + 1) (8 * b.val)), (1, 1, i.val)]) s' ∧
      only [.ai] s s') ∧
  (∀ (t : Frac) (j : Fin 8) (n : Nat) (s : State), rb s .aiJack j.val 31 = true →
    jackHeld (rtcAdvance s n) (aiJack s j.val) j.val (reg s .aiJack j.val) = true → evtOpen s 1 →
    Answers (exec (.jackChanged t j n) s) fun s' =>
      s'.pd = (rtcAdvance s n).pd ∧
      s'.ai = (setAiJack s j.val { aiJack s j.val with 
        plugged := !(aiJack s j.val).plugged, pend := true, changedAt := nowTicks (atT s t) }).ai ∧
      raised s t 0x0505 j.val (pay [(0, 1, b2n !(aiJack s j.val).plugged), (2, 2, rf s .aiJack j.val 15 0),
        (4, 1, rf s .aiJack j.val 27 24)]) s' ∧ only [.ai, .pd] s s') ∧
  (∀ (t : Frac) (j : Fin 8) (s : State), inWindow s = true → jackDue (atT s t) j.val = true →
    (aiJack s j.val).pend = false →
    Answers (exec (.jackPlugRelease t j) s) fun s' =>
      s'.ai = (setAiJack s j.val { aiJack s j.val with released := true }).ai ∧ still [.ai] s s')

/-! ## Analog outputs -/

/-- The start and the stop of an output step by step (R204): pump, driver, ramp, RUNNING; ramp down, shunt, SHUNTED;
and the end of the wait after a rate change (R202). EN is put in force in an open boundary window alone (R31), and
waits for AOUT (R197). The model's choices in it: log entries 6, 92. It says where each of these rows completes:
outEnable, outDisable, hpJackUnmute, outConverterStart, outShuntOpen, outStarted, outShuntClose, outStopped,
outRateSettleEnd. -/
def Obligations.OutputStartsAndStops : Prop :=
  (∀ (t : Frac) (o : Fin 24) (s : State), inWindow s = true → (outp s o.val).st = .shunted →
    domOn s domAOUT = true →
    Answers (exec (.outEnable t o) s) fun s' =>
      s'.aq = { (setOutp s o.val { outp s o.val with
          st := .starting, phase := pumpPhase s, startCause := 1, gain := .zero,
          jack := startJack s o.val }).aq with
        cpRun := true } ∧
      s'.regs = (setBit s .aqOutCfg o.val 31 true).regs ∧ still [.aq, .regs] s s') ∧
  (∀ (t : Frac) (o : Fin 24) (s : State), inWindow s = true → domOn s domAOUT = false →
    Answers (exec (.outEnable t o) s) fun s' =>
      s'.regs = (setBit s .aqOutCfg o.val 31 true).regs ∧ still [.regs] s s') ∧
  (∀ (t : Frac) (o : Fin 24) (h : Fin 4) (s : State), inWindow s = false →
    Answers (exec (.outEnable t o) s) (still [] s) ∧ Answers (exec (.outDisable t o) s) (still [] s) ∧
    Answers (exec (.hpJackUnmute t h) s) (still [] s)) ∧
  (∀ (t : Frac) (o : Fin 24) (s : State), (outp s o.val).st = .starting → (outp s o.val).phase = .pump →
    s.aq.cpRun = true →
    Answers (exec (.outConverterStart t o) s) fun s' =>
      s'.aq = { (setOutp s o.val { outp s o.val with phase := .driver }).aq with cpOk := true } ∧ still [.aq] s s') ∧
  (∀ (t : Frac) (o : Fin 24) (s : State), (outp s o.val).st = .starting → (outp s o.val).phase = .driver →
    Answers (exec (.outShuntOpen t o) s) fun s' =>
      s'.aq = (setOutp s o.val { outp s o.val with
        phase := .ramp, gain := { pos := 0, len := rampLen s o.val, up := true, moving := true } }).aq ∧
      still [.aq] s s') ∧
  (∀ (t : Frac) (o : Fin 24) (s : State), (outp s o.val).st = .starting → (outp s o.val).phase = .ramp →
    rampAtOne (outp s o.val).gain = true → evtOpen s 1 →
    Answers (exec (.outStarted t o) s) fun s' =>
      s'.aq = (setOutp s o.val { outp s o.val with st := .running, phase := .idle }).aq ∧
      raised s t 0x0601 o.val (pay [(0, 1, (outp s o.val).startCause)]) s' ∧ only [.aq] s s') ∧
  (∀ (t : Frac) (o : Fin 24) (s : State), inWindow s = true → domOn s domAOUT = true →
    (outp s o.val).st = .running →
    Answers (exec (.outDisable t o) s) fun s' =>
      s'.aq = (setOutp s o.val { outp s o.val with
        st := .stopping, phase := .rampDown, gain := rampTo (outp s o.val).gain false (rampLen s o.val),
        stopAt := nowTicks (atT s t) + 1 }).aq ∧
      s'.regs = (setBit s .aqOutCfg o.val 31 false).regs ∧ still [.aq, .regs] s s') ∧
  (∀ (t : Frac) (o : Fin 24) (s : State), (outp s o.val).st = .stopping → (outp s o.val).phase = .rampDown →
    rampAtZero (outp s o.val).gain = true →
    Answers (exec (.outShuntClose t o) s) fun s' =>
      s'.aq = (setOutp s o.val { outp s o.val with phase := .closed }).aq ∧ still [.aq] s s') ∧
  (∀ (t : Frac) (o : Fin 24) (s : State), (outp s o.val).st = .stopping → (outp s o.val).phase = .closed →
    evtOpen s 1 →
    Answers (exec (.outStopped t o) s) fun s' =>
      s'.aq = (setOutp s o.val { outp s o.val with st := .shunted, phase := .idle }).aq ∧
      raised s t 0x0602 o.val 0 s' ∧ only [.aq] s s') ∧
  (∀ (t : Frac) (o : Fin 24) (s : State), (outp s o.val).hold = some 0 →
    Answers (exec (.outRateSettleEnd t o) s) fun s' =>
      s'.aq = (setOutp s o.val { outp s o.val with hold := none }).aq ∧ still [.aq] s s')

/-- Shorts, the charge pump and the supply clamp (R200, R205–R207): the outputs that fault, and those that start again
when the rail is good. The headphone jacks (R208): the change is reported at once and its mute waits for a boundary;
the unmute releases the jack and ramps the gain of its two channels back. The model's choices in it: log entries 62,
64. It says where each of these rows completes: outShort, cpFault, cpResumed, supplyClamp, cpStop, hpJackChanged,
hpJackUnmute. -/
def Obligations.OutputFaultsAndJacks : Prop :=
  (∀ (t : Frac) (o : Fin 24) (l : ShortLeg) (s : State), driving (outp s o.val) = true →
    (l = .headphone ↔ 16 ≤ o.val) → evtOpen s 1 →
    Answers (exec (.outShort t o l) s) fun s' =>
      s'.aq = (setOutp s o.val { outp s o.val with
        st := .fault, phase := .idle, cause := 1, gain := .zero, shorts := inc8 (outp s o.val).shorts }).aq ∧
      raised s t 0x0603 o.val (pay [(0, 1, inc8 (outp s o.val).shorts),
        (1, 1, if l = .headphone then 1 else if l = .lineP then 2 else 3)]) s' ∧ only [.aq] s s') ∧
  (∀ (t : Frac) (v : BitVec 16) (s : State), s.aq.cpRun = true →
    s.aq.cpFault = false ∨ allOut.any (outLive s) = true → evtOpen s 1 →
    Answers (exec (.cpFault t v) s) fun s' =>
      s'.aq = { s.aq with cpOk := false, cpFault := s.aq.cpFault || allOut.any (outLive s), ch := s'.aq.ch } ∧
      (∀ o, outp s' o = if o < 24 ∧ outLive s o = true
        then { outp s o with st := .fault, phase := .idle, cause := 2, gain := .zero } else outp s o) ∧
      raised s t 0x0605 noUnit (pay [(0, 2, v.toNat), (4, 4, outMask (outLive s))]) s' ∧ only [.aq] s s') ∧
  (∀ (t : Frac) (s : State), s.aq.cpFault = true → domOn s domAOUT = true → evtOpen s 1 →
    Answers (exec (.cpResumed t) s) fun s' =>
      s'.aq = { s.aq with
        cpRun := s.aq.cpRun || allOut.any (resumable s), cpOk := true, cpFault := false, clamp := none,
        ch := s'.aq.ch } ∧
      (∀ o, outp s' o = if o < 24 ∧ (outp s o).st = .fault ∧ ((outp s o).cause = 2 ∨ (outp s o).cause = 3) ∧
          rb s .aqOutCfg o 31 = true
        then { outp s o with
               st := .starting, phase := .driver, startCause := 2, gain := .zero,
               jack := startJack s o } else outp s o) ∧
      raised s t 0x0606 noUnit (pay [(4, 4, outMask (fun o => (outp s o).st == .fault &&
        ((outp s o).cause == 2 || (outp s o).cause == 3) && rb s .aqOutCfg o 31))]) s' ∧ only [.aq] s s') ∧
  (∀ (t : Frac) (v : BitVec 16) (s : State), evtOpen s 1 →
    Answers (exec (.supplyClamp t v) s) fun s' =>
      s'.aq = { s.aq with
        cpOk := false, cpFault := s.aq.cpFault || allOut.any (outLive s), clamp := some v.toNat, ch := s'.aq.ch } ∧
      (∀ o, outp s' o = if o < 24 ∧ outLive s o = true
        then { outp s o with st := .fault, phase := .idle, cause := 3, gain := .zero } else outp s o) ∧
      (s.aq.clamp = none → raised s t 0x0607 noUnit (pay [(0, 2, v.toNat), (4, 4, outMask (outLive s))]) s') ∧ only [.aq] s s') ∧
  (∀ (t : Frac) (s : State), (∀ o, o < 24 → outLive s o = false) →
    Answers (exec (.cpStop t) s) fun s' =>
      s'.aq = { s.aq with cpRun := false } ∧ still [.aq] s s') ∧
  (∀ (t : Frac) (h : Fin 4) (n : Nat) (s : State), rb s .aqHpJack h.val 31 = true →
    jackHeld (rtcAdvance s n) (hpJack s h.val) (rf s .aqHpJack h.val 26 24) (reg s .aqHpJack h.val) = true →
    evtOpen s 1 →
    Answers (exec (.hpJackChanged t h n) s) fun s' =>
      s'.pd = (rtcAdvance s n).pd ∧
      s'.aq = (setHpJack s h.val { hpJack s h.val with 
        plugged := !(hpJack s h.val).plugged, pend := true, changedAt := nowTicks (atT s t) }).aq ∧
      raised s t 0x0604 h.val (pay [(0, 1, b2n !(hpJack s h.val).plugged), (1, 1, rf s .aqHpJack h.val 26 24)]) s' ∧
      only [.aq, .pd] s s') ∧
  (∀ (t : Frac) (h : Fin 4) (s : State), inWindow s = true → domOn s domAOUT = true → rb s .aqHpJack h.val 31 = true →
    (hpJack s h.val).plugged = true → (hpJack s h.val).released = false →
    (hpJack s h.val).changedAt + rf s .aqHpJack h.val 15 8 * tMs ≤ nowTicks (atT s t) →
    Answers (exec (.hpJackUnmute t h) s) fun s' =>
      hpJack s' h.val = { hpJack s h.val with pend := false, released := true } ∧
      (∀ o, o ∉ hpOuts h.val → outp s' o = outp s o) ∧
      (∀ o, o ∈ hpOuts h.val → (outp s o).st = .running → (outp s o).jack.moving = false →
        rampAtOne (outp s o).jack = false →
        outp s' o = { outp s o with jack := rampTo (outp s o).jack true (rampLen s o) }) ∧
      still [.aq] s s') ∧
  (∀ (t : Frac) (h : Fin 4) (s : State), inWindow s = true → domOn s domAOUT = false →
    rb s .aqHpJack h.val 31 = true → (hpJack s h.val).plugged = true → (hpJack s h.val).released = false →
    (hpJack s h.val).changedAt + rf s .aqHpJack h.val 15 8 * tMs ≤ nowTicks (atT s t) →
    Answers (exec (.hpJackUnmute t h) s) fun s' =>
      s'.aq = (setHpJack s h.val { hpJack s h.val with pend := false, released := true }).aq ∧ still [.aq] s s')

/-! ## Serial ports -/

/-- A port's enable, its formats and its end (R219–R224, R232): EN takes an OFF port to WAIT or is refused with a
reason; DP_FMT is written only while OFF; a port in WAIT stops at once, one that tracks frames at the end of its
frame; a missing frame sync unlocks; the 512th frame in phase locks. EN is put in force in an open boundary window
alone (R31). The model's choices in it: log entries 65, 66, 92. It says where each of these rows completes:
portEnable, portDisable, portFmtWrite, srcLocked, fsMissingTimeout. -/
def Obligations.PortStates : Prop :=
  (∀ (t : Frac) (p : Fin 8) (s : State), inWindow s = true → (port s p.val).st = .off → domOn s domPORT = true →
    enableReason s p.val = none →
    Answers (exec (.portEnable t p) s) fun s' =>
      s'.dp = (setPort s p.val { port s p.val with
        st := .wait, good := 0, phaseOk := 0, wrong := 0, offPeriod := 0, ratio := 0,
        missing := false, restart := true, words := [], stopping := false, rxConv := [], txConv := [], fed := [], tail := []
        first := if portNames s (strobePll s.fr.rate) p.val then some (s.fr.fn + 1) else none }).dp ∧
      s'.regs = (setBit s .dpCtrl p.val 0 true).regs ∧ refsFollow s' ∧ only [.dp, .regs, .ck] s s') ∧
  (∀ (t : Frac) (p : Fin 8) (r : Nat) (s : State), inWindow s = true → (port s p.val).st = .off → domOn s domPORT = true →
    enableReason s p.val = some r → evtOpen s 1 →
    Answers (exec (.portEnable t p) s) fun s' =>
      s'.dp = { s.dp with refused := inc32 s.dp.refused } ∧ rb s' .dpCtrl p.val 0 = false ∧
      raised s t 0x0706 p.val (pay [(0, 2, 0), (2, 1, r), (4, 4, inc32 s.dp.refused)]) s' ∧
      refsFollow s' ∧ only [.dp, .regs, .ck] s s') ∧
  (∀ (t : Frac) (p : Fin 8) (s : State), inWindow s = true → (port s p.val).st = .wait → evtOpen s 1 →
    Answers (exec (.portDisable t p) s) fun s' =>
      s'.dp = (setPort s p.val { port s p.val with
        st := .off, stopping := false, missing := false, restart := false, ratio := 0, words := [],
        first := none, rxConv := [], txConv := [], fed := [], tail := [] }).dp ∧
      s'.regs = (setBit s .dpCtrl p.val 0 false).regs ∧
      raised s t 0x0705 p.val (pay [(0, 1, 1)]) s' ∧ refsFollow s' ∧ only [.dp, .regs, .ck] s s') ∧
  (∀ (t : Frac) (p : Fin 8) (s : State), inWindow s = true → portTracks s p.val = true →
    (port s p.val).missing = false →
    Answers (exec (.portDisable t p) s) fun s' =>
      s'.dp = (setPort s p.val { port s p.val with stopping := true }).dp ∧
      s'.regs = (setBit s .dpCtrl p.val 0 false).regs ∧ refsFollow s' ∧ only [.dp, .regs, .ck] s s') ∧
  (∀ (t : Frac) (o : Owner) (p : Fin 8) (v : Word) (s : State), writeTaken s t o (regOff .dpFmt p.val) (0x2C + p.val) →
    (port s p.val).st = .off →
    regAccept .dpFmt p.val (reg s .dpFmt p.val) (mergeReg .dpFmt p.val (reg s .dpFmt p.val) v) = true →
    Answers (exec (.portFmtWrite t o p v) s) fun s' =>
      s'.regs = (setReg s .dpFmt p.val (mergeReg .dpFmt p.val (reg s .dpFmt p.val) v)).regs ∧
      s'.ck = (pllFollowAll (setReg s .dpFmt p.val (mergeReg .dpFmt p.val (reg s .dpFmt p.val) v))).ck ∧
      only [.regs, .ck, .hl] s s') ∧
  (∀ (t : Frac) (o : Owner) (p : Fin 8) (v : Word) (s : State), writeTaken s t o (regOff .dpFmt p.val) (0x2C + p.val) →
    (port s p.val).st ≠ .off →
    Answers (exec (.portFmtWrite t o p v) s) fun s' =>
      s'.dp = { s.dp with refused := inc32 s.dp.refused } ∧
      (evtOpen s 2 → raised s t 0x0706 p.val (pay [(0, 2, 4), (2, 1, 1), (4, 4, inc32 s.dp.refused)]) s') ∧
      only [.dp, .hl] s s') ∧
  (∀ (t : Frac) (p : Fin 8) (s : State), inWindow s = false →
    Answers (exec (.portEnable t p) s) (still [] s) ∧ Answers (exec (.portDisable t p) s) (still [] s)) ∧
  (∀ (t : Frac) (p : Fin 8) (s : State), (port s p.val).st = .acquire → 512 ≤ (port s p.val).phaseOk → evtOpen s 1 →
    Answers (exec (.srcLocked t p) s) fun s' =>
      s'.dp = (setPort s p.val { port s p.val with st := .running }).dp ∧
      raised s t 0x0701 p.val (pay [(0, 4, (port s p.val).ratio.toNat), (4, 4, (port s p.val).rate),
        (8, 4, (port s p.val).pfn)]) s' ∧ only [.dp] s s') ∧
  (∀ (t : Frac) (p : Fin 8) (s : State), portTracks s p.val = true → (port s p.val).missing = false →
    (port s p.val).stopping = false → evtOpen s 1 →
    Answers (exec (.fsMissingTimeout t p) s) fun s' =>
      s'.dp = (setPort s p.val { port s p.val with
        st := .acquire, good := 0, phaseOk := 0, wrong := 0, offPeriod := 0, ratio := 0,
        lastUnlock := 1, unlocks := inc16 (port s p.val).unlocks, missing := true, restart := true }).dp ∧
      raised s t 0x0702 p.val (pay [(0, 1, 1), (4, 4, (port s p.val).lastGood),
        (8, 2, inc16 (port s p.val).unlocks)]) s' ∧ only [.dp] s s')

/-- A frame start (R213–R215, R221, R224, R225, R232): the first takes WAIT to ACQUIRE with port frame 0; later ones
count up and take the words of the frame that ends out of its bit clocks, or keep the words before when its length is
wrong; one that was missed is counted late; a stopping port is OFF at the end of the frame. A slot mask (R212, R228,
R229): when PORT powers up if it is off, at once while the port is OFF, at the next frame start otherwise, at the one
after when the write completed after its mark, and at a boundary when DP_FMT.TIMED is set. The model's choices in it:
log entry 67. It says where each of these rows completes: portFrame, maskWrite. -/
def Obligations.PortFramesAndMasks : Prop :=
  (∀ (t : Frac) (p : Fin 8) (x : PortFrame) (s : State), (port s p.val).st = .wait →
    frameBegins (atT s t) p.val x = true → (port s p.val).rx.pend = none → (port s p.val).tx.pend = none →
    Answers (exec (.portFrame t p x) s) fun s' =>
      (port s' p.val).st = .acquire ∧ (port s' p.val).pfn = 0 ∧ (port s' p.val).words = (port s p.val).words ∧
      (∀ q, q ≠ p.val → port s' q = port s q) ∧ only [.dp] s s') ∧
  (∀ (t : Frac) (p : Fin 8) (x : PortFrame) (s : State), portTracks s p.val = true →
    frameBegins (atT s t) p.val x = true → (port s p.val).missing = false → (port s p.val).stopping = false →
    (port s p.val).rx.pend = none → (port s p.val).tx.pend = none →
    countedLen (reg s .dpFmt p.val) x = frameLen (reg s .dpFmt p.val) → x.periodOff = false → x.outOfRange = false →
    x.slip = false →
    Answers (exec (.portFrame t p x) s) fun s' =>
      (port s' p.val).st = (port s p.val).st ∧ (port s' p.val).pfn = ((port s p.val).pfn + 1) % 2 ^ 32 ∧
      (port s' p.val).lastGood = (port s p.val).pfn ∧
      (port s' p.val).words = (List.range 32).map (fun i =>
        if i < slots (reg s .dpFmt p.val) && bit (port s p.val).rx.active i
        then rxSample (reg s .dpFmt p.val) (slotBits (reg s .dpFmt p.val) x.clocks i) else 0) ∧
      (∀ q, q ≠ p.val → port s' q = port s q) ∧ only [.dp] s s') ∧
  (∀ (t : Frac) (p : Fin 8) (x : PortFrame) (s : State), portTracks s p.val = true →
    frameBegins (atT s t) p.val x = true → (port s p.val).missing = false → (port s p.val).stopping = false →
    (port s p.val).rx.pend = none → (port s p.val).tx.pend = none →
    countedLen (reg s .dpFmt p.val) x ≠ frameLen (reg s .dpFmt p.val) → (port s p.val).wrong < 15 →
    x.periodOff = false → x.outOfRange = false → x.slip = false →
    Answers (exec (.portFrame t p x) s) fun s' =>
      (port s' p.val).words = (port s p.val).words ∧
      (port s' p.val).frameErrors = inc16 (port s p.val).frameErrors ∧
      (port s' p.val).lastGood = (port s p.val).lastGood ∧ (port s' p.val).st = (port s p.val).st ∧
      (∀ q, q ≠ p.val → port s' q = port s q) ∧ only [.dp] s s') ∧
  (∀ (t : Frac) (p : Fin 8) (x : PortFrame) (s : State), portTracks s p.val = true →
    frameBegins (atT s t) p.val x = true → (port s p.val).missing = true → (port s p.val).rx.pend = none →
    (port s p.val).tx.pend = none →
    Answers (exec (.portFrame t p x) s) fun s' =>
      (port s' p.val).missing = false ∧ (port s' p.val).lateFs = inc16 (port s p.val).lateFs ∧
      (port s' p.val).pfn = ((port s p.val).pfn + 1) % 2 ^ 32 ∧ (port s' p.val).words = (port s p.val).words ∧
      (∀ q, q ≠ p.val → port s' q = port s q) ∧ only [.dp] s s') ∧
  (∀ (t : Frac) (p : Fin 8) (x : PortFrame) (s : State), portTracks s p.val = true →
    frameBegins (atT s t) p.val x = true → (port s p.val).missing = false → (port s p.val).stopping = true →
    Answers (exec (.portFrame t p x) s) fun s' =>
      (port s' p.val).st = .off ∧ (∀ q, q ≠ p.val → port s' q = port s q) ∧ only [.dp] s s') ∧
  (∀ (t : Frac) (p : Fin 8) (x : PortFrame) (s : State),
    (port s p.val).st = .off ∨ frameBegins (atT s t) p.val x = false →
    Answers (exec (.portFrame t p x) s) fun s' => still [] s s') ∧
  (∀ f w : Word, w.toNat < 2 ^ wlen f → txWord f (rxSample f w) = w) ∧
  (∀ (t : Frac) (o : Owner) (p : Fin 8) (rx l : Bool) (v : Word) (s : State),
    writeTaken s t o (regOff (maskReg rx) p.val) (0x2C + p.val) → rb s .dpFmt p.val 12 = false → domOn s domPORT = true → (port s p.val).st = .off →
    Answers (exec (.maskWrite t o p rx v l) s) fun s' =>
      rxTx (port s' p.val) rx = { active := v, pend := none, next := none, pfn := 0 } ∧
      rxTx (port s' p.val) (!rx) = rxTx (port s p.val) (!rx) ∧
      s'.regs = (setReg s (maskReg rx) p.val v).regs ∧ only [.dp, .regs, .hl] s s') ∧
  (∀ (t : Frac) (o : Owner) (p : Fin 8) (rx : Bool) (v : Word) (s : State),
    writeTaken s t o (regOff (maskReg rx) p.val) (0x2C + p.val) → rb s .dpFmt p.val 12 = false → domOn s domPORT = true → (port s p.val).st ≠ .off →
    Answers (exec (.maskWrite t o p rx v false) s) fun s' =>
      s'.dp = (setPort s p.val (setRxTx (port s p.val) rx { rxTx (port s p.val) rx with pend := some v })).dp ∧
      s'.regs = (setReg s (maskReg rx) p.val v).regs ∧ only [.dp, .regs, .hl] s s') ∧
  (∀ (t : Frac) (o : Owner) (p : Fin 8) (rx : Bool) (v : Word) (s : State),
    writeTaken s t o (regOff (maskReg rx) p.val) (0x2C + p.val) → rb s .dpFmt p.val 12 = false → domOn s domPORT = true → (port s p.val).st ≠ .off →
    Answers (exec (.maskWrite t o p rx v true) s) fun s' =>
      s'.dp = (setPort s p.val (setRxTx { port s p.val with maskLate := inc16 (port s p.val).maskLate } rx
        { rxTx (port s p.val) rx with next := some v })).dp ∧ only [.dp, .regs, .hl] s s') ∧
  (∀ (t : Frac) (o : Owner) (p : Fin 8) (rx l : Bool) (v : Word) (s : State),
    writeTaken s t o (regOff (maskReg rx) p.val) (0x2C + p.val) → rb s .dpFmt p.val 12 = false →
    domOn s domPORT = false →
    Answers (exec (.maskWrite t o p rx v l) s) fun s' =>
      s'.dp = (setPort s p.val (setRxTx (port s p.val) rx
        { rxTx (port s p.val) rx with pend := some v, next := none })).dp ∧
      s'.regs = (setReg s (maskReg rx) p.val v).regs ∧ only [.dp, .regs, .hl] s s') ∧
  (∀ (t : Frac) (o : Owner) (p : Fin 8) (rx l : Bool) (v : Word) (s : State),
    writeTaken s t o (regOff (maskReg rx) p.val) (0x2C + p.val) → rb s .dpFmt p.val 12 = true → mirrors s (0x2C + p.val) = false →
    Answers (exec (.maskWrite t o p rx v l) s) fun s' =>
      s'.fr = { s.fr with staged := s.fr.staged ++
        [{ owner := o, bound := bindTo s, item := .reg (regOff (maskReg rx) p.val) v, at_ := frTime (atT s t) }] } ∧ only [.fr, .regs, .hl] s s')

/-! ## Clocks -/

/-- The PLLs and the crystal (R125, R238–R240, R249, R253–R255): a lock is reported and kept in the band cache, and
that of PLL_S ends a SET_FSW; an unlock is reported, that of PLL_S mutes the power channels, that of PLL_L takes down
the lanes, and that of the strobe PLL stops the strobes; the crystal's failure clears every lock and mutes; a flush
empties caches. The model's choices in it: log entries 73, 74. It says where each of these rows completes: pllLocked,
pllUnlocked, strobeRestart, xtalFail, xtalRestored, cacheFlush. -/
def Obligations.PllsAndCrystal : Prop :=
  (∀ (t : Frac) (j : Fin 4) (b : Fin 64) (us : BitVec 16) (q : Pll) (s : State), domOn s domCLK = true →
    (pll s j.val).lock = false → (pll s j.val).on = true → s.ck.xtalOk = true → j.val ≠ 2 → s.hl.afterDone = none →
    lockPll (pll s j.val) (pllKey s j.val) b.val false = some q → evtOpen s 1 →
    Answers (exec (.pllLocked t j b false us) s) fun s' =>
      s'.ck = (setPll s j.val q).ck ∧
      raised s t 0x0806 j.val (pay [(0, 1, b.val), (1, 1, 0), (2, 2, us.toNat)]) s' ∧ only [.ck] s s') ∧
  (∀ (t : Frac) (b : Fin 64) (us : BitVec 16) (q : Pll) (v fn : Nat) (x : CmpSlot) (s : State), domOn s domCLK = true →
    (pll s 2).lock = false → (pll s 2).on = true → s.ck.xtalOk = true → s.hl.afterDone = none →
    lockPll (pll s 2) (pllKey s 2) b.val false = some q → s.ck.fswNew = [(v, x.slot, fn)] → s.hl.order = [x] →
    x.src ≠ .peer → (x.src = .host → ringsOpen s = true) → s.hl.busy = none → x.done = none → evtOpen s 2 →
    Answers (exec (.pllLocked t 2 b false us) s) fun s' =>
      s'.ck = { (setPll s 2 q).ck with fswNew := [], suspended := false, fsw := v } ∧ s'.hl.order = [] ∧
      raised s t 0x080D noUnit (pay [(0, 2, s.ck.fsw), (2, 2, v)]) s' ∧
      reported x.src x.id x.opcode x.idx stOk fn s s' ∧ onlyWork [.ck] s s') ∧
  (∀ (p : Pll) (key band : Nat), ∃ q, lockPll p key band false = some q ∧ q.lock = true ∧ q.band = band ∧
    cacheFind q key ≠ none ∧ q.searches = inc16 p.searches) ∧
  (∀ (t : Frac) (j : Fin 4) (ph : Bool) (s : State), domOn s domCLK = true → (pll s j.val).lock = true →
    j.val ≠ strobePll s.fr.rate → evtOpen s 1 →
    Answers (exec (.pllUnlocked t j ph) s) fun s' =>
      s'.ck = (setPll s j.val { pll s j.val with lock := false }).ck ∧
      raised s t 0x0807 j.val (pay [(0, 1, if ph then 1 else 2)]) s' ∧
      (j.val < 2 → only [.ck, .dp] s s') ∧
      (j.val = 2 → only [.ck, .dp, .ps] s s' ∧
        (s.ps.clock = false → s.ck.suspended = false → s'.ps.clock = true ∧ mutesChannels allCh 4 s s')) ∧
      (j.val = 3 → s'.pl.lanes = 0 ∧ only [.ck, .dp, .pl, .sv] s s')) ∧
  (∀ (t : Frac) (ph : Bool) (s : State), domOn s domCLK = true → (pll s (strobePll s.fr.rate)).lock = true →
    s.ck.gap = none → evtOpen s 1 →
    Answers (exec (.strobeRestart t ph) s) fun s' =>
      s'.ck = { (setPll s (strobePll s.fr.rate) { pll s (strobePll s.fr.rate) with lock := false }).ck with
        restarts := inc16 s.ck.restarts, gap := some { old := s.fr.rate, new := s.fr.rate, command := false } } ∧
      s'.fr = { s.fr with running := s.fr.running && !s.fr.drained } ∧
      (s.fr.running = true → s.fr.drained = true → ∀ k, (outp s' k).out = 0 ∧ (psCh s' k).drive = []) ∧
      raised s t 0x0807 (strobePll s.fr.rate) (pay [(0, 1, if ph then 1 else 2)]) s' ∧
      ((∀ p ∈ allPorts, portTracks s p = false) → evtOpen s 2 →
        raised s t 0x0808 noUnit (pay [(0, 1, 1), (4, 4, inc16 s.ck.restarts)]) s') ∧
      only [.aq, .ck, .dp, .fr, .ps, .sp] s s') ∧
  (∀ (t : Frac) (s : State), domOn s domCLK = true → s.ck.xtalOk = true → evtOpen s 1 →
    Answers (exec (.xtalFail t) s) fun s' =>
      s'.ck.xtalOk = false ∧ s'.ck.xtalFails = inc16 s.ck.xtalFails ∧ s'.ck.stopFn = s.fr.fn ∧ s'.ck.gap ≠ none ∧
      (∀ j, j < 4 → pll s' j = { pll s j with lock := false }) ∧ s'.pl.lanes = 0 ∧
      s'.fr = { s.fr with running := s.fr.running && !s.fr.drained } ∧ (∀ k, (outp s' k).out = 0) ∧
      raised s t 0x080A noUnit (pay [(0, 1, 2)]) s' ∧ only [.aq, .ck, .fr, .pl, .ps, .sp, .sv] s s') ∧
  (∀ (t : Frac) (s : State), domOn s domCLK = true → s.ck.xtalOk = false → evtOpen s 2 →
    Answers (exec (.xtalRestored t) s) fun s' =>
      s'.ck = { s.ck with xtalOk := true, restarts := inc16 s.ck.restarts } ∧
      raised s t 0x080B noUnit (pay [(0, 6, s.ck.stopFn)]) s' ∧
      raised s t 0x0808 noUnit (pay [(0, 1, 2), (4, 4, inc16 s.ck.restarts)]) s' ∧ only [.ck] s s') ∧
  (∀ (t : Frac) (o : Owner) (v : Word) (s : State), writeTaken s t o 0x58020 0x34 →
    Answers (exec (.cacheFlush t o v) s) fun s' =>
      (∀ j, pll s' j = if j < 4 ∧ bit v j = true then { pll s j with cache := [] } else pll s j) ∧
      s'.ck = { s.ck with pll := s'.ck.pll } ∧ only [.ck, .hl] s s')

/-- The reference sources (R243, R244): found, qualified, out of its window, missing and back; leaving QUALIFIED is
counted and reported with its cause. Lock to a source and the free run (R237, R246–R248): acquisition, the phase walk
at PHASE_SLEW, tracking and lock; δ is clamped to ±500 ppm; a steer in range is taken and a move in progress goes on
from where it is. The model's choices in it: log entries 69, 75. It says where each of these rows completes:
refEdgeTimeout, refEdgeReturn, refQualified, refFrequencyOutOfWindow, refHoldoffExpiry, refFreqAcqEnd,
refPhaseWalkEnd, refLocked, ckSteerWrite, fpOutState. -/
def Obligations.ReferencesAndLock : Prop :=
  (∀ (t : Frac) (r : RefSource) (s : State), domOn s domCLK = true → (refOf s r.val).st = .qualified → evtOpen s 1 →
    Answers (exec (.refEdgeTimeout t r) s) fun s' =>
      s'.ck = (setRef s r.val { refOf s r.val with
        st := .absent, held := false, disquals := inc16 (refOf s r.val).disquals }).ck ∧
      raised s t 0x0802 (r.val + 1) (pay [(0, 1, 1), (4, 4, toU 32 (refOf s r.val).offset)]) s' ∧ only [.ck] s s') ∧
  (∀ (t : Frac) (r : RefSource) (s : State), domOn s domCLK = true → (refOf s r.val).st = .qualifying →
    Answers (exec (.refEdgeTimeout t r) s) fun s' =>
      s'.ck = (setRef s r.val { refOf s r.val with st := .absent, held := false }).ck ∧ still [.ck] s s') ∧
  (∀ (t : Frac) (r : RefSource) (s : State), domOn s domCLK = true → (refOf s r.val).st = .absent →
    Answers (exec (.refEdgeReturn t r) s) fun s' =>
      s'.ck = (setRef s r.val { refOf s r.val with st := .qualifying, late := inc16 (refOf s r.val).late }).ck ∧
      still [.ck] s s') ∧
  (∀ (t : Frac) (r : RefSource) (o : BitVec 24) (s : State), domOn s domCLK = true →
    (refOf s r.val).st = .absent ∨ (refOf s r.val).st = .qualifying → 5 * o.toInt.natAbs ≤ 4 * refWin s r.val →
    evtOpen s 1 →
    Answers (exec (.refQualified t r o) s) fun s' =>
      s'.ck = (setRef s r.val { refOf s r.val with
        st := .qualified, offset := o.toInt, since := nowTicks (atT s t), held := rf s .ckSelCfg 0 23 16 == 0 }).ck ∧
      raised s t 0x0801 (r.val + 1) (pay [(0, 4, toU 32 o.toInt)]) s' ∧ only [.ck] s s') ∧
  (∀ (t : Frac) (r : RefSource) (o : BitVec 24) (s : State), domOn s domCLK = true → (refOf s r.val).st = .qualified →
    refWin s r.val < o.toInt.natAbs → evtOpen s 1 →
    Answers (exec (.refFrequencyOutOfWindow t r o) s) fun s' =>
      s'.ck = (setRef s r.val { refOf s r.val with
        st := .qualifying, offset := o.toInt, held := false, disquals := inc16 (refOf s r.val).disquals }).ck ∧
      raised s t 0x0802 (r.val + 1) (pay [(0, 1, 2), (4, 4, toU 32 o.toInt)]) s' ∧ only [.ck] s s') ∧
  (∀ (t : Frac) (r : RefSource) (s : State), (refOf s r.val).st = .qualified →
    Answers (exec (.refHoldoffExpiry t r) s) fun s' =>
      s'.ck = (setRef s r.val { refOf s r.val with held := true }).ck ∧ still [.ck] s s') ∧
  (∀ (t : Frac) (o : Int) (l : Bool) (s : State), s.ck.sel = .freqAcq → -400000000 ≤ o → o ≤ 400000000 →
    Answers (exec (.refFreqAcqEnd t o l) s) fun s' =>
      s'.ck = { s.ck with
        dco := if l then o - phaseSlew s else o + phaseSlew s, sel := .phaseWalk, tracking := false } ∧
      still [.ck] s s') ∧
  (∀ (t : Frac) (o : Int) (s : State), s.ck.sel = .freqAcq → 500000000 < o → s.ck.clampAt = 0 → evtOpen s 1 →
    Answers (exec (.refFreqAcqEnd t o true) s) fun s' =>
      s'.ck = { s.ck with
        dco := 500000000 - phaseSlew s, sel := .phaseWalk, tracking := false, clamps := inc16 s.ck.clamps,
        clampAt := nowTicks (atT s t) + 1 } ∧
      raised s t 0x0809 noUnit (pay [(0, 4, toU 32 o)]) s' ∧ only [.ck] s s') ∧
  (∀ (t : Frac) (e : Word) (s : State), s.ck.sel = .phaseWalk → s.ck.tracking = false → e.toInt.natAbs ≤ 200 →
    Answers (exec (.refPhaseWalkEnd t e) s) fun s' =>
      s'.ck = { s.ck with tracking := true, phaseErr := e.toInt } ∧ still [.ck] s s') ∧
  (∀ (t : Frac) (e : Word) (s : State), s.ck.sel = .phaseWalk → s.ck.tracking = true → e.toInt.natAbs ≤ 200 →
    evtOpen s 1 →
    Answers (exec (.refLocked t e) s) fun s' =>
      s'.ck = { s.ck with sel := .locked, phaseLock := true, phaseErr := e.toInt } ∧
      raised s t 0x0804 s.ck.active (pay [(0, 4, toU 32 s.ck.dco), (4, 4, (nowTicks (atT s t) - s.ck.selAt) / tMs)]) s' ∧ only [.ck] s s') ∧
  (∀ (t : Frac) (o : Owner) (v : Word) (s : State), writeTaken s t o 0x58008 0x34 →
    regAccept .ckSteer 0 0 v = true →
    Answers (exec (.ckSteerWrite t o v) s) fun s' =>
      s'.regs = (setReg s .ckSteer 0 v).regs ∧
      s'.ck = { s.ck with move := s.ck.move.map (fun _ => (s.ck.dco, s.fr.ticks)) } ∧ only [.ck, .regs, .hl] s s') ∧
  (∀ (t : Frac) (k : Fin 2) (r : Bool) (s : State), domOn s domCLK = true → rb s .ckFpCfg k.val 31 = true →
    rf s .ckFpCfg k.val 27 24 ≠ 0 → tget false s.ck.fpStop k.val = r → evtOpen s 1 →
    Answers (exec (.fpOutState t k r) s) fun s' =>
      s'.ck = { s.ck with fpStop := tput false s.ck.fpStop k.val (!r) } ∧
      raised s t 0x080C k.val (pay [(0, 1, if r then 2 else 1)]) s' ∧ only [.ck] s s')

/-- The rates (R249, R250, R252): SET_FRAME_RATE and SET_FSW wait for their boundary, a rate that does not fit is
refused, and so is any while CLK is off; the first strobe of the new rate carries the next FN, reports the rates and
completes the command. The model's choices in it: log entries 50, 71. It says where each of these rows completes:
setFrameRate, frameRateApplied, setFsw, spreadApply. -/
def Obligations.RateChanges : Prop :=
  (∀ (t : Frac) (c : Cmd) (s : State), longReady s c 0x0040 [0x34] → fieldsOk c [(0, 0xF)] = true → pwN c 0 < 6 →
    domOn s domCLK = true → pwN c 0 ≠ s.fr.rate → (admitRequest s (testBudget s (pwN c 0)) (recipesFit s (pwN c 0))).1 = 0 →
    strUnfit s (pwN c 0) = none → mirrors s 0x34 = false →
    Answers (exec (.setFrameRate t c) s) fun s' =>
      s'.fr = { s.fr with staged := s.fr.staged ++
        [{ owner := c.src, bound := bindTo s, item := .rate (pwN c 0), at_ := frTime (atT s t) }] } ∧
      begun c 0x0040 (.rate (pwN c 0)) s' ∧ onlyWork [.fr] s s') ∧
  (∀ (t : Frac) (c : Cmd) (s : State), cmdReady s c 0x0040 [0x34] → fieldsOk c [(0, 0xF)] = true → pwN c 0 < 6 →
    domOn s domCLK = false →
    Answers (exec (.setFrameRate t c) s) fun s' => completed c 0x0040 stDomainOff noIndex s s' ∧ onlyCmd [] s s') ∧
  (∀ (t : Frac) (c : Cmd) (s : State), cmdReady s c 0x0040 [0x34] → fieldsOk c [(0, 0xF)] = true → pwN c 0 < 6 →
    domOn s domCLK = true → pwN c 0 = s.fr.rate →
    Answers (exec (.setFrameRate t c) s) fun s' => completed c 0x0040 stOk 0 s s' ∧ onlyCmd [] s s') ∧
  (∀ (t : Frac) (c : Cmd) (s : State), cmdReady s c 0x0040 [0x34] → fieldsOk c [(0, 0xF)] = true → pwN c 0 < 6 →
    domOn s domCLK = true → pwN c 0 ≠ s.fr.rate → (admitRequest s (testBudget s (pwN c 0)) (recipesFit s (pwN c 0))).1 ≠ 0 →
    Answers (exec (.setFrameRate t c) s) fun s' =>
      s'.mx = { s.mx with
        refusedReason := (admitRequest s (testBudget s (pwN c 0)) (recipesFit s (pwN c 0))).1,
        refusedCost := (admitRequest s (testBudget s (pwN c 0)) (recipesFit s (pwN c 0))).2 % 2 ^ 24 } ∧
      completed c 0x0040 stAdmission
        (refusedResult (admitRequest s (testBudget s (pwN c 0)) (recipesFit s (pwN c 0))).2) s s' ∧
      onlyCmd [.mx] s s') ∧
  (∀ (us : Word) (x : StrobeIn) (g : Gap) (s : State), s.ck.gap = some g → s.fr.running = false → s.ck.xtalOk = true →
    (pll s (strobePll s.fr.rate)).lock = true → g.command = false → evtOpen s 1 →
    Answers (exec (.frameRateApplied us x) s) fun s' =>
      s'.fr.fn = s.fr.next ∧ s'.fr.running = true ∧ s'.fr.next = (s.fr.next + 1) % 2 ^ 48 ∧ s'.ck.gap = none ∧
      raisedAt s.fr.next 0 0x0105 noUnit (pay [(0, 1, g.old), (1, 1, g.new)]) s' ∧
      s'.mx.xp = s.mx.xp ∧ s'.mx.queue = s.mx.queue ∧ s'.regs = s.regs ∧ s'.fr.staged = s.fr.staged) ∧
  (∀ (t : Frac) (c : Cmd) (s : State), cmdReady s c 0x0041 [0x29] → fieldsOk c [(0, 0x3FF)] = true → within 128 512 (pwN c 0) = true → mirrors s 0x29 = false →
    Answers (exec (.setFsw t c) s) fun s' =>
      s'.fr = { s.fr with staged := s.fr.staged ++
        [{ owner := c.src, bound := bindTo s, item := .fsw (pwN c 0) s.hl.nextSlot, at_ := frTime (atT s t) }] } ∧
      s'.hl.order.map (·.id) = [c.id] ∧ s'.out = [] ∧ onlyWork [.fr] s s') ∧
  (∀ (t : Frac) (s : State),
    Answers (exec (.spreadApply t) s) fun s' =>
      s'.ck = { s.ck with spread := rf s .ckPllsCfg 0 31 25 } ∧ still [.ck] s s')

/-! ## Ladle, the sense converters -/

/-- A converter's start and stop (R268, R269, R272, R282): a start with nothing against it waits for its frame, or
runs from the first enabled entry; a start that a reason forbids is reported; a stop puts every key of the slice at
rest. Under GANG the bits of SC0 start and stop both converters, and those of SC1 do nothing. A conversion (R263,
R264, R266, R268, R269, R276, R280): its result and sequence number; a KEY entry at rest that crosses both thresholds
is down, with the stamps interpolated; under GANG SC1 converts with SC0; an urgent conversion answers its own result;
a raw result has 24 bits. The model's choices in it: log entries 77, 78. It says where each of these rows completes:
scanStart, scanStop, scConversionDone, urgentConversion. -/
def Obligations.ScansAndConversions : Prop :=
  (∀ (t : Frac) (o : Owner) (k : Fin 2) (s : State), writeTaken s t o (regOff .scConvCtrl k.val) 0x35 →
    gang s = false →
    (conv s k.val).st = .stopped → startReason s k.val = none → scTrig s k.val = 1 →
    Answers (exec (.scanStart t o k) s) fun s' =>
      conv s' k.val = { conv s k.val with st := .waiting, pos := 0 } ∧ conv s' (1 - k.val) = conv s (1 - k.val) ∧
      (∀ e, scEnt s' e = if scBase s k.val ≤ e ∧ e < scBase s k.val + scLen s k.val
        then { scEnt s e with prev := none } else scEnt s e) ∧ only [.sc, .hl] s s') ∧
  (∀ (t : Frac) (o : Owner) (k : Fin 2) (j : Nat) (s : State), writeTaken s t o (regOff .scConvCtrl k.val) 0x35 →
    gang s = false → (conv s k.val).st = .stopped → startReason s k.val = none → scTrig s k.val ≠ 1 →
    nextPos s k.val 0 = some j →
    Answers (exec (.scanStart t o k) s) fun s' =>
      conv s' k.val = { conv s k.val with st := .running, pos := j } ∧ conv s' (1 - k.val) = conv s (1 - k.val) ∧
      only [.sc, .hl] s s') ∧
  (∀ (t : Frac) (o : Owner) (k : Fin 2) (r : Nat × Nat) (s : State), writeTaken s t o (regOff .scConvCtrl k.val) 0x35 →
    gang s = false → (conv s k.val).st = .stopped → startReason s k.val = some r → evtOpen s 2 →
    Answers (exec (.scanStart t o k) s) fun s' =>
      raised s t 0x0906 k.val (pay [(0, 1, r.1), (2, 2, r.2)]) s' ∧ only [.hl] s s') ∧
  (∀ (t : Frac) (o : Owner) (k : Fin 2) (s : State), writeTaken s t o (regOff .scConvCtrl k.val) 0x35 →
    gang s = false →
    (conv s k.val).st ≠ .stopped → (conv s k.val).urgentRun = none →
    Answers (exec (.scanStop t (some o) k) s) fun s' =>
      conv s' k.val = { conv s k.val with st := .stopped, pos := 0 } ∧ conv s' (1 - k.val) = conv s (1 - k.val) ∧
      (∀ e, scEnt s' e = if scBase s k.val ≤ e ∧ e < scBase s k.val + scLen s k.val
        then { scEnt s e with key := .rest, out := false, prev := none } else scEnt s e) ∧ only [.sc, .hl] s s') ∧
  (∀ (t : Frac) (k : Fin 2) (s : State), (conv s k.val).st ≠ .stopped → (conv s k.val).urgentRun = none →
    Answers (exec (.scanStop t none k) s) fun s' =>
      conv s' k.val = { conv s k.val with st := .stopped, pos := 0 } ∧ conv s' (1 - k.val) = conv s (1 - k.val) ∧
      only [.sc] s s') ∧
  (∀ (t : Frac) (o : Owner) (s : State), writeTaken s t o (regOff .scConvCtrl 0) 0x35 → gang s = true →
    (conv s 0).st = .stopped → startReason s 0 = none → scTrig s 0 = 1 →
    Answers (exec (.scanStart t o 0) s) fun s' =>
      conv s' 0 = { conv s 0 with st := .waiting, pos := 0 } ∧ conv s' 1 = { conv s 1 with st := .waiting, pos := 0 } ∧
      only [.sc, .hl] s s') ∧
  (∀ (t : Frac) (o : Owner) (s : State), writeTaken s t o (regOff .scConvCtrl 1) 0x35 → gang s = true →
    Answers (exec (.scanStart t o 1) s) (only [.hl] s) ∧ Answers (exec (.scanStop t (some o) 1) s) (only [.hl] s)) ∧
  (∀ (t : Frac) (k : Fin 2) (e : Fin 512) (x y : AdcIn) (fn : BitVec 48) (fr : Frac) (s : State),
    domOn s domAIN = true → gang s = false → (conv s k.val).st = .running → (conv s k.val).urgentRun = none →
    e.val = scBase s k.val + (conv s k.val).pos → posOn s k.val (conv s k.val).pos = true →
    rf s .scEntry0 e.val 30 29 = 0 →
    Answers (exec (.scConversionDone t k e x fn fr false y) s) fun s' =>
      scEnt s' e.val = { scEnt s e.val with
        value := resultOf s e.val (rawOf s k.val (rf s .scEntry0 e.val 9 7) x) x.trimmed,
        seq := ((scEnt s e.val).seq + 1) % 16 } ∧
      (∀ j, j ≠ e.val → scEnt s' j = scEnt s j) ∧ conv s' (1 - k.val) = conv s (1 - k.val) ∧
      (∀ j, nextPos s k.val ((conv s k.val).pos + 1) = some j →
        conv s' k.val = { conv s k.val with
          st := .running, pos := j
          overrange := if x.beyond then inc16 (conv s k.val).overrange else (conv s k.val).overrange }) ∧
      still [.sc] s s') ∧
  (∀ (t : Frac) (x y : AdcIn) (fn : BitVec 48) (fr : Frac) (e f : Fin 512) (j : Nat) (s : State),
    domOn s domAIN = true → gang s = true → (conv s 0).st = .running → (conv s 0).urgentRun = none →
    (conv s 1).urgentRun = none → scBase s 0 + scLen s 0 ≤ scBase s 1 → e.val = scBase s 0 + (conv s 0).pos →
    f.val = scBase s 1 + (conv s 0).pos → (conv s 0).pos < scLen s 0 → posOn s 0 (conv s 0).pos = true →
    twinOn s (conv s 0).pos = true → rf s .scEntry0 e.val 30 29 = 0 → rf s .scEntry0 f.val 30 29 = 0 →
    scLen s 0 = scLen s 1 → nextPos s 0 ((conv s 0).pos + 1) = some j →
    Answers (exec (.scConversionDone t 0 e x fn fr false y) s) fun s' =>
      scEnt s' e.val = { scEnt s e.val with
        value := resultOf s e.val (rawOf s 0 (rf s .scEntry0 e.val 9 7) x) x.trimmed
        seq := ((scEnt s e.val).seq + 1) % 16 } ∧
      scEnt s' f.val = { scEnt s f.val with
        value := resultOf s f.val (rawOf s 1 (rf s .scEntry0 e.val 9 7) y) y.trimmed
        seq := ((scEnt s f.val).seq + 1) % 16 } ∧
      (conv s' 0).pos = j ∧ (conv s' 1).pos = j ∧ still [.sc] s s') ∧
  (∀ (t : Frac) (k : Fin 2) (e : Fin 512) (x y : AdcIn) (fn : BitVec 48) (fr : Frac) (q : Nat × Nat) (g : Seg)
    (ta tb : Int) (s : State),
    domOn s domAIN = true → gang s = false → (conv s k.val).st = .running → (conv s k.val).urgentRun = none →
    e.val = scBase s k.val + (conv s k.val).pos → posOn s k.val (conv s k.val).pos = true →
    rf s .scEntry0 e.val 30 29 = 1 → (scEnt s e.val).key = .rest → (scEnt s e.val).prev = some q →
    g = { p0 := q.1, p1 := posOf s e.val (resultOf s e.val (rawOf s k.val (rf s .scEntry0 e.val 9 7) x) x.trimmed), t0 := q.2,
          t1 := fn.toNat * 65536 + fr.toNat, h := rf s .scConvHyst k.val 15 0 } →
    g.press (rf s .scEntry1 e.val 15 0) = some ta → g.press (rf s .scEntry1 e.val 31 16) = some tb → evtOpen s 1 →
    Answers (exec (.scConversionDone t k e x fn fr false y) s) fun s' =>
      (scEnt s' e.val).key = .down ∧ (scEnt s' e.val).prev = some (g.p1, g.t1) ∧
      raised s t 0x0901 e.val (pay [(0, 6, tb.toNat / 65536), (6, 2, tb.toNat), (8, 4, deltaRep (tb - ta)),
        (12, 1, rateFlag s ta tb), (13, 1, k.val), (14, 2, g.p1)]) s' ∧ only [.sc] s s') ∧
  (∀ (t : Frac) (k : Fin 2) (e : Fin 512) (x y : AdcIn) (fn : BitVec 48) (fr : Frac) (s : State),
    domOn s domAIN = true → (conv s k.val).urgentRun = some e.val →
    Answers (exec (.scConversionDone t k e x fn fr true y) s) fun s' =>
      conv s' k.val = { conv s k.val with
        urgentRun := none, urgent := 2, urgentDone := true
        urgentVal := resultOf s e.val (rawOf s k.val (rf s .scEntry0 e.val 9 7) x) x.trimmed
        overrange := if x.beyond then inc16 (conv s k.val).overrange else (conv s k.val).overrange } ∧
      scEnt s' e.val = { scEnt s e.val with
        value := resultOf s e.val (rawOf s k.val (rf s .scEntry0 e.val 9 7) x) x.trimmed,
        seq := ((scEnt s e.val).seq + 1) % 16 } ∧ still [.sc] s s') ∧
  (∀ (t : Frac) (o : Owner) (k : Fin 2) (v : Word) (s : State), writeTaken s t o (regOff .scUrgent k.val) 0x35 →
    converting s k.val = false → (conv s k.val).st ≠ .calibrating → (conv s k.val).urgentRun = none →
    domOn s domAIN = true →
    Answers (exec (.urgentConversion t o k v false) s) fun s' =>
      conv s' k.val = { conv s k.val with urgentDone := false, urgent := 1, urgentRun := some (fld v 8 0) } ∧
      s'.regs = (setReg s .scUrgent k.val (v &&& 0x1FF)).regs ∧ only [.sc, .regs, .hl] s s') ∧
  (∀ (t : Frac) (o : Owner) (k : Fin 2) (v : Word) (l : Bool) (s : State), writeTaken s t o (regOff .scUrgent k.val) 0x35 →
    (conv s k.val).urgentRun ≠ none ∨ converting s k.val = true ∨ ((conv s k.val).st = .waiting ∧ l = true) →
    Answers (exec (.urgentConversion t o k v l) s) fun s' =>
      conv s' k.val = { conv s k.val with
        urgentDone := false, urgent := 3, urgentDrops := inc16 (conv s k.val).urgentDrops } ∧
      only [.sc, .regs, .hl] s s') ∧
  (∀ (k avg : Nat) (x : AdcIn) (s : State), avg ≤ 4 → rawOf s k avg x < 2 ^ 24)

/-- SC_CAL (R281): each step with nothing against it becomes a long operation, ZERO and FULL in CALIBRATING; a FULL
step of a slice in which an entry has no zero is refused. The model's choices in it: log entry 78. It says where each
of these rows completes: scCalZero, scCalFull, scCalSave. -/
def Obligations.Calibrations : Prop :=
  (∀ (t : Frac) (c : Cmd) (s : State), longReady s c 0x0050 [0x35] →
    fieldsOk c [(0, 0x3FF01FF0103), (1, 0xFFFFFF)] = true → pwN c 0 % 4 = 1 →
    calRange s (fldN (pwN c 0) 8 8) (fldN (pwN c 0) 24 16) (fldN (pwN c 0) 41 32) = true → domOn s domAIN = true →
    (conv s (fldN (pwN c 0) 8 8)).st = .stopped →
    Answers (exec (.scCalZero t c) s) fun s' =>
      s'.sc = (entryMux (setConv s (fldN (pwN c 0) 8 8)
        { conv s (fldN (pwN c 0) 8 8) with st := .calibrating, cal := [] }) (fldN (pwN c 0) 8 8) (fldN (pwN c 0) 24 16)).sc ∧
      begun c 0x0050 (.scCal 1 (fldN (pwN c 0) 8 8) (fldN (pwN c 0) 24 16) (fldN (pwN c 0) 41 32)
        (fldN (pwN c 1) 23 0)) s' ∧ onlyWork [.sc] s s') ∧
  (∀ (t : Frac) (c : Cmd) (s : State), longReady s c 0x0050 [0x35] →
    fieldsOk c [(0, 0x3FF01FF0103), (1, 0xFFFFFF)] = true → pwN c 0 % 4 = 2 →
    calRange s (fldN (pwN c 0) 8 8) (fldN (pwN c 0) 24 16) (fldN (pwN c 0) 41 32) = true → domOn s domAIN = true →
    (conv s (fldN (pwN c 0) 8 8)).st = .stopped →
    (∀ i, i < fldN (pwN c 0) 41 32 → (scEnt s (i + fldN (pwN c 0) 24 16)).zero ≠ none) →
    Answers (exec (.scCalFull t c) s) fun s' =>
      s'.sc = (entryMux (setConv s (fldN (pwN c 0) 8 8)
        { conv s (fldN (pwN c 0) 8 8) with st := .calibrating, cal := [] }) (fldN (pwN c 0) 8 8) (fldN (pwN c 0) 24 16)).sc ∧
      begun c 0x0050 (.scCal 2 (fldN (pwN c 0) 8 8) (fldN (pwN c 0) 24 16) (fldN (pwN c 0) 41 32)
        (fldN (pwN c 1) 23 0)) s' ∧ onlyWork [.sc] s s') ∧
  (∀ (t : Frac) (c : Cmd) (i : Nat) (s : State), cmdReady s c 0x0050 [0x35] →
    fieldsOk c [(0, 0x3FF01FF0103), (1, 0xFFFFFF)] = true → pwN c 0 % 4 = 2 →
    calRange s (fldN (pwN c 0) 8 8) (fldN (pwN c 0) 24 16) (fldN (pwN c 0) 41 32) = true → domOn s domAIN = true →
    (conv s (fldN (pwN c 0) 8 8)).st = .stopped → i < fldN (pwN c 0) 41 32 →
    (scEnt s (i + fldN (pwN c 0) 24 16)).zero = none →
    Answers (exec (.scCalFull t c) s) fun s' =>
      completed c 0x0050 stNoZero noIndex s s' ∧ onlyCmd [] s s') ∧
  (∀ (t : Frac) (c : Cmd) (s : State), longReady s c 0x0050 [0x35] →
    fieldsOk c [(0, 0x3FF01FF0103), (1, 0xFFFFFF)] = true → pwN c 0 % 4 = 3 →
    (conv s (fldN (pwN c 0) 8 8)).st = .stopped →
    Answers (exec (.scCalSave t c) s) fun s' =>
      begun c 0x0050 (.scCal 3 (fldN (pwN c 0) 8 8) (fldN (pwN c 0) 24 16) (fldN (pwN c 0) 41 32)
        (fldN (pwN c 1) 23 0)) s' ∧ onlyWork [] s s')

/-! ## The host link -/

/-- NOP answers FN (R298); SETUP_LOCK sets LOCKED, and the first one raises SETUP_LOCKED (R305); an opcode that R297
does not list completes with BAD_OPCODE. Each changes nothing else, and a row of an opcode that R297 lists is not such
a command. EVENTS_LOST is written once two slots are free, with the number lost and FN of the first and the last
(R295); the end of a holdoff sends the one message that waited (R296); the state of the link is followed and reported,
at once while the rings may be written, else once they may (R308, R310). The model's choices in it: log entries 22,
99. It says where each of these rows completes: nop, setupLock, unknownCommand, eventsLost, irqHoldoffExpiry,
linkChanged. -/
def Obligations.LinkCommandsAndLink : Prop :=
  (∀ (t : Frac) (c : Cmd) (s : State), cmdReady s c 0x0001 [0x38] → fieldsOk c [] = true →
    Answers (exec (.nop t c) s) fun s' => completed c 0x0001 stOk s.fr.fn s s' ∧ onlyCmd [] s s') ∧
  (∀ (t : Frac) (c : Cmd) (s : State), cmdReady s c 0x0002 [0x38] → fieldsOk c [] = true →
    Answers (exec (.setupLock t c) s) fun s' => completed c 0x0002 stOk 0 s s' ∧
      hostIdle s'.hl = hostIdle { s.hl with locked := true } ∧ onlyCmd [.hl] s s' ∧
      (s.hl.locked = false → evtOpen s 1 → raised s t 0x0A06 noUnit 0 s')) ∧
  (∀ (t : Frac) (op : BitVec 16) (c : Cmd) (s : State), op.toNat ∉ listedOps → inHand s op.toNat c = true →
    s.hl.order = [] → (c.src = .host → ringsOpen s = true ∧ s.hl.orphan = false) → s.hl.busy = none →
    Answers (exec (.unknownCommand t op c) s) fun s' =>
      completed c op.toNat stBadOpcode noIndex s s' ∧ onlyCmd [] s s') ∧
  (∀ (t : Frac) (op : BitVec 16) (c : Cmd) (s : State), op.toNat ∈ listedOps ∨ inHand s op.toNat c = false →
    Answers (exec (.unknownCommand t op c) s) (still [] s)) ∧
  (∀ (t : Frac) (s : State), s.hl.lost ≠ 0 → ringsOpen s = true → evtRoom s = true →
    Answers (exec (.eventsLost t) s) fun s' =>
      raised s t 0x0A01 noUnit (pay [(0, 4, s.hl.lost), (4, 6, s.hl.lostFirst), (10, 6, s.hl.lostLast)]) s' ∧
      s'.hl.lost = 0 ∧ s'.tw = s.tw ∧ only [] s s') ∧
  (∀ (t : Frac) (v : Fin 64) (s : State), tget false s.hl.holdoff v.val = true → tget false s.hl.irqWait v.val = true →
    vecMasked s v.val = false → s.hl.fn.msixEn = true → s.hl.fn.msixMask = false → ringsOpen s = true →
    Answers (exec (.irqHoldoffExpiry t v) s) fun s' =>
      s'.out = [.msix v.val] ∧ s'.tw = s.tw ∧ only [.hl] s s' ∧ ∃ h : Tbl Bool, tget false h v.val = (vecHoldoff s v.val != 0) ∧
      (∀ k, k ≠ v.val → tget false h k = tget false s.hl.holdoff k) ∧
      s'.hl = { s.hl with irqWait := tput false s.hl.irqWait v.val false, holdoff := h, aspm := 0 }) ∧
  (∀ (t : Frac) (x : LinkIn) (what : Fin 4) (s : State), x.up = true → x.dstate = 0 → x.fn.busMaster = true →
    what.val ≠ 0 → s.hl.waiting = [] → s.pd.wakeN = false → s.hl.order = [] → s.hl.busy = none →
    s.hl.afterDone = none → evtOpen s 1 →
    Answers (exec (.linkChanged t x what) s) fun s' =>
      raised s t 0x0A07 noUnit (pay [(0, 1, x.speed.val), (1, 1, x.width.val), (2, 1, what.val), (3, 1, 0)]) s' ∧
      hostRest s'.hl = hostRest { s.hl with
        linkUp := true, l2 := x.l2, speed := x.speed.val, width := x.width.val, aspm := x.aspm.val, dstate := 0,
        fn := x.fn } ∧ only [.hl] s s') ∧
  (∀ (t : Frac) (x : LinkIn) (what : Fin 4) (s : State), x.up = false → x.l2 = false → what.val ≠ 0 →
    s.hl.evt.en = true → s.hl.afterDone = none →
    Answers (exec (.linkChanged t x what) s) fun s' =>
      s'.hl = { s.hl with
        linkUp := false, l2 := false, speed := 0, width := 0, aspm := 0, dstate := x.dstate.val, fn := x.fn,
        waiting := s.hl.waiting ++ [{
          code := 0x0A07, unit := noUnit, fn := s.fr.fn, frac := t,
          payload := pay [(0, 1, 0), (1, 1, 0), (2, 1, what.val), (3, 1, x.dstate.val)] }] } ∧ only [.hl] s s')

/-- The doorbells of the three rings and the write of a ring's configuration and base (R289, R290): the index or the
field written, and nothing else; that of the commands is a wake source in STANDBY (R401). The fetch of a command takes
the next announced entry, whose 64 bytes give the opcode and the command (R291), and advances the consumer index,
whose wrap turns the phase (R292); a long operation that passes the checks is busy from its fetch (R300), and nothing
else is but one that a CONTROL reset had interrupted, which keeps its busy interval (R423); an entry of the wrong
phase, or one that could not be read, halts the ring. The model's choices in it: log entries 22, 99. It says where
each of these rows completes: commandDoorbell, completionDoorbell, eventDoorbell, ringCfgWrite, ringBaseWrite,
commandFetch. -/
def Obligations.RingsAndFetch : Prop :=
  (∀ (t : Frac) (v : Word) (n : Nat) (s : State), busy s = false → s.hl.cmd.en = true → v.toNat < 2 ^ s.hl.cmd.size →
    Answers (exec (.commandDoorbell t true v n) s) fun s' =>
      s'.hl = { s.hl with cmd := { s.hl.cmd with prod := v.toNat } } ∧ s'.out = [] ∧
      (s.pd.st ≠ .standby → s.pd.entry = none → s'.pd = s.pd) ∧
      (s.pd.st = .standby → s.pd.entry = none → rb s .pdWakeEn 0 9 = true → bitN s'.pd.wakeStatus 9 = true) ∧
      ∀ p : Part, p ≠ .hl → p ≠ .pd → p.exact s s') ∧
  (∀ (t : Frac) (v : Word) (s : State), s.hl.cmp.en = true → v.toNat < 2 ^ s.hl.cmp.size →
    (v.toNat + 2 ^ s.hl.cmp.size - s.hl.cmp.cons) % 2 ^ s.hl.cmp.size ≤ outstanding s.hl.cmp →
    Answers (exec (.completionDoorbell t true v) s) fun s' =>
      s'.hl = { s.hl with cmp := { s.hl.cmp with cons := v.toNat } } ∧ still [.hl] s s') ∧
  (∀ (t : Frac) (v : Word) (s : State), s.hl.evt.en = true → v.toNat < 2 ^ s.hl.evt.size →
    (v.toNat + 2 ^ s.hl.evt.size - s.hl.evt.cons) % 2 ^ s.hl.evt.size ≤ outstanding s.hl.evt → s.hl.waiting = [] →
    Answers (exec (.eventDoorbell t true v) s) fun s' =>
      s'.hl = { s.hl with evt := { s.hl.evt with cons := v.toNat } } ∧ still [.hl] s s') ∧
  (∀ (t : Frac) (v : Word) (s : State), busy s = false → s.pd.entry = none → s.hl.cmd.en = false →
    bit v 31 = true → 4 ≤ fld v 3 0 → fld v 3 0 ≤ 12 →
    Answers (exec (.ringCfgWrite t .host 0 v) s) fun s' =>
      s'.hl = { s.hl with cmd := { en := true, size := fld v 3 0, prod := 0, cons := 0, phase := true },
                          halted := false } ∧ s'.tw = { s.tw with cmdAfter := 0 } ∧ still [.hl, .tw] s s') ∧
  (∀ (t : Frac) (v : Word) (s : State), busy s = false → s.pd.entry = none → s.hl.cmd.en = true →
    bit v 31 = false → fld v 3 0 = s.hl.cmd.size →
    Answers (exec (.ringCfgWrite t .host 0 v) s) fun s' =>
      s'.hl = { s.hl with cmd := { s.hl.cmd with en := false } } ∧ still [.hl] s s') ∧
  (∀ (t : Frac) (v : Word) (s : State), busy s = false → s.pd.entry = none → s.hl.evt.en = false →
    Answers (exec (.ringBaseWrite t .host 2 false v) s) fun s' =>
      s'.regs = (setReg s .hlBaseLo 2 (v &&& 0xFFFFF000)).regs ∧ still [.regs] s s') ∧
  (∀ (t : Frac) (r : Fin 3) (hi : Bool) (v : Word) (s : State), busy s = false → s.pd.entry = none →
    (if r.val = 0 then s.hl.cmd else if r.val = 1 then s.hl.cmp else s.hl.evt).en = true →
    Answers (exec (.ringBaseWrite t .host r hi v) s) fun s' =>
      s'.hl = { s.hl with cfgErr := true } ∧ still [.hl] s s') ∧
  (∀ (t : Frac) (b : Bytes) (s : State), canFetch s = true → b.length = 64 →
    leAt b 3 1 / 128 = b2n s.hl.cmd.phase →
    Answers (exec (.commandFetch t (some b)) s) fun s' =>
      s'.hl = { s.hl with
        fetched := some (entryCmd .host s.hl.cmd.cons b), busy := s'.hl.busy, rerun := s'.hl.rerun, aspm := 0,
        cmd := { s.hl.cmd with cons := (s.hl.cmd.cons + 1) % 2 ^ s.hl.cmd.size,
                               phase := if (s.hl.cmd.cons + 1) % 2 ^ s.hl.cmd.size = 0 then !s.hl.cmd.phase
                                 else s.hl.cmd.phase } } ∧
      (s.hl.rerun = none → s'.hl.rerun = none) ∧
      (s.hl.rerun = none → leAt b 0 2 ∉ longOps → s'.hl.busy = none) ∧
      (s.hl.rerun = some (entryCmd .host s.hl.cmd.cons b).cmd.idx.toNat →
        s'.hl.rerun = none ∧ s'.hl.busy = s.hl.busy.map (fun u => { u with slot := s.hl.nextSlot })) ∧
      (s.hl.rerun = none → leAt b 0 2 = 0x0062 → s.ct.phase ≠ .recovery → owns s .host 0x38 = true →
        fieldsOk (entryCmd .host s.hl.cmd.cons b).cmd [(0, 0x7F)] = true →
        sceneOf s (pwN (entryCmd .host s.hl.cmd.cons b).cmd 0) ≠ [] →
        s'.hl.busy = some { op := 0x0062, slot := s.hl.nextSlot, doorbells := 0, writes := 0,
                            since := nowTicks (atT s t), over_ := none }) ∧
      s'.tw = { s.tw with cmdAfter := s.tw.cmdAfter - 1 } ∧ still [.hl, .tw] s s') ∧
  (∀ (t : Frac) (b : Bytes) (s : State), canFetch s = true → b.length = 64 → leAt b 3 1 / 128 ≠ b2n s.hl.cmd.phase → evtOpen s 1 →
    Answers (exec (.commandFetch t (some b)) s) fun s' =>
      hostRest s'.hl = hostRest { s.hl with halted := true } ∧
      busRest s'.tw = busRest { s.tw with cmdAfter := s.tw.cmdAfter - 1 } ∧
      raised s t 0x0A04 noUnit (pay [(0, 1, 1), (2, 2, s.hl.cmd.cons)]) s' ∧ only [.hl, .tw] s s') ∧
  (∀ (t : Frac) (d : Dma) (s : State), canFetch s = true → (∀ b, d = some b → b.length ≠ 64) → evtOpen s 1 →
    Answers (exec (.commandFetch t d) s) fun s' =>
      hostRest s'.hl = hostRest { s.hl with halted := true } ∧
      busRest s'.tw = busRest { s.tw with cmdAfter := s.tw.cmdAfter - 1 } ∧
      raised s t 0x0A04 noUnit (pay [(0, 1, 2), (2, 2, s.hl.cmd.cons)]) s' ∧ only [.hl, .tw] s s')

/-! ## Scenes -/

/-- Scenes (R306): SCENE_SAVE and SCENE_DELETE become long operations; a stored body replaces the slot's scene once it
passes its check, and one that fails leaves the slot as it was; SCENE_READ gives the body out. SCENE_RECALL (R307): a
stored scene whose mixer records MIX_COMMIT would admit, and whose parameters the engines take, is queued as a commit
with its sets; an empty slot is refused. The model's choices in it: log entry 79. It says where each of these rows
completes: sceneSaveStore, sceneSaveCapture, longOperationDone, sceneDelete, sceneRead, sceneRecall. -/
def Obligations.Scenes : Prop :=
  (∀ (t : Frac) (c : Cmd) (d : Dma) (b : Bytes) (s : State), longReady s c 0x0060 [0x38] →
    fieldsOk c [(0, 0x17F), (1, wordAll), (2, 0xFFFFFF)] = true → bitN (pwN c 0) 8 = false →
    addrOk c 1 (pwN c 2) = true → cmdData s c d 1 (pwN c 2) = some b →
    Answers (exec (.sceneSaveStore t c d) s) fun s' =>
      begun c 0x0060 (.sceneStore (pwN c 0 % 128) b) s' ∧ sceneOf s' (pwN c 0 % 128) = sceneOf s (pwN c 0 % 128) ∧
      onlyWork [] s s') ∧
  (∀ (t : Frac) (c : Cmd) (s : State), longReady s c 0x0060 [0x38] →
    fieldsOk c [(0, 0x17F), (3, 0xFFFF0FFF0FFF)] = true → bitN (pwN c 0) 8 = true →
    Answers (exec (.sceneSaveCapture t c) s) fun s' =>
      begun c 0x0060 (.sceneCapture (pwN c 0 % 128) (fldN (pwN c 3) 11 0) (fldN (pwN c 3) 27 16)
        (fldN (pwN c 3) 47 32)) s' ∧ s'.hl.captureTold = false ∧ s'.hl.scenes = s.hl.scenes ∧ onlyWork [.hl] s s') ∧
  (∀ (t : Frac) (us : Word) (r : LongDone) (slot : Nat) (b : Bytes) (x : CmpSlot) (s : State),
    longHeld s x 0x0060 (.sceneStore slot b) → sceneStatus b = stOk → storeLen b ≤ sceneFree s → r.nvOk = true →
    Answers (exec (.longOperationDone t us r) s) fun s' =>
      hostWork s'.hl = hostWork { s.hl with scenes := tput [] s.hl.scenes slot b } ∧
      reported x.src x.id 0x0060 x.idx stOk 0 s s' ∧ s'.hl.long = none ∧ onlyWork [.hl, .sv] s s') ∧
  (∀ (t : Frac) (us : Word) (r : LongDone) (slot : Nat) (b : Bytes) (x : CmpSlot) (s : State),
    longHeld s x 0x0060 (.sceneStore slot b) → sceneStatus b ≠ stOk →
    Answers (exec (.longOperationDone t us r) s) fun s' =>
      reported x.src x.id 0x0060 x.idx (sceneStatus b) (sceneFault b).2 s s' ∧ s'.hl.long = none ∧ onlyWork [.sv] s s') ∧
  (∀ (t : Frac) (c : Cmd) (s : State), longReady s c 0x0062 [0x38] → fieldsOk c [(0, 0x7F)] = true →
    sceneOf s (pwN c 0) ≠ [] →
    Answers (exec (.sceneDelete t c) s) fun s' => begun c 0x0062 (.sceneDelete (pwN c 0)) s' ∧ onlyWork [] s s') ∧
  (∀ (t : Frac) (us : Word) (r : LongDone) (slot : Nat) (x : CmpSlot) (s : State),
    longHeld s x 0x0062 (.sceneDelete slot) → r.nvOk = true →
    Answers (exec (.longOperationDone t us r) s) fun s' =>
      hostWork s'.hl = hostWork { s.hl with scenes := tput [] s.hl.scenes slot [] } ∧
      reported x.src x.id 0x0062 x.idx stOk 0 s s' ∧ s'.hl.long = none ∧ onlyWork [.hl, .sv] s s') ∧
  (∀ (t : Frac) (c : Cmd) (l : List Correction) (s : State), cmdReady s c 0x0063 [0x38] → c.src = .host →
    fieldsOk c [(0, 0x7F), (1, wordAll), (2, 0xFFFFFF)] = true → sceneOf s (pwN c 0) ≠ [] →
    (sceneOf s (pwN c 0)).length ≤ pwN c 2 →
    Answers (exec (.sceneRead t c l) s) fun s' =>
      s'.sv = (pantryReads s l).sv ∧ Out.dma (pwN c 1) (sceneOf s (pwN c 0)) ∈ s'.out ∧
      completed c 0x0063 stOk (sceneOf s (pwN c 0)).length s s' ∧ onlyCmd [.sv] s s') ∧
  (∀ (t : Frac) (c : Cmd) (b : Bytes) (skip : List Nat) (pars : List (Nat × Nat × Nat × Word)) (u : State) (q : Nat)
      (l : List Correction) (s : State), cmdReady s c 0x0061 (recallGroups s (pwN c 0)) → fieldsOk c [(0, 0x7F)] = true →
    b = sceneOf s (pwN c 0) → b ≠ [] → skip = sceneSkips s (sceneHead b) b → pars = scenePars (sceneHead b) b →
    commitRecs (pantryReads s l) c.src
      { tag := 0xFFFFFF00 + pwN c 0, count := (sceneHead b).nxp, notify := true, atFn := false, target := 0,
        scene := some { slot := pwN c 0, id := (sceneHead b).id, skipped := maskOf 16 skip.contains,
                        sets := sceneSets skip pars } } (sceneRecs (sceneHead b) b) = .ok (u, q) →
    badPar s skip pars = none → (∀ e ∈ (sceneHead b).engs, e ∉ skip → e ∉ stagedSets s c.src) →
    Answers (exec (.sceneRecall t c l) s) fun s' =>
      s'.mx = u.mx ∧ s'.sv = (pantryReads s l).sv ∧ completed c 0x0061 stOk (maskOf 16 skip.contains + q * 65536) s s' ∧
      onlyCmd [.mx, .fr, .pl, .sv] s s') ∧
  (∀ (t : Frac) (c : Cmd) (l : List Correction) (s : State), cmdReady s c 0x0061 [0] → fieldsOk c [(0, 0x7F)] = true →
    sceneOf s (pwN c 0) = [] →
    Answers (exec (.sceneRecall t c l) s) fun s' => completed c 0x0061 stSceneEmpty noIndex s s' ∧ onlyCmd [] s s')

/-- What a capture builds passes the check that a recall and a store make (R306): the body of any applied
configuration within the limits is well formed. The model's choices in it: log entry 79. -/
def Obligations.CaptureIsWellFormed : Prop :=
  ∀ (lo hi engs id : Nat) (s : State), hi < 4096 →
    (∀ e ∈ s.mx.xp, -(2 ^ 23 : Int) ≤ e.2.cur ∧ e.2.cur < 2 ^ 23) →
    (∀ e r, (eng s e).recipe = some r → r.nparam ≤ 4096) →
    (captureBody s lo hi engs id).2.1 ≤ 32768 → (captureBody s lo hi engs id).2.2 ≤ 4096 →
    sceneStatus (captureBody s lo hi engs id).1 = stOk

/-! ## Streams -/

/-- A context's setup (R289, R319, R327, R337): an enable that passes the checks arms it, one that fails is refused
with the reason; the doorbell moves its producer index; the position is read with its upper half captured. The model's
choices in it: log entry 80. It says where each of these rows completes: streamEnable, streamDoorbell, strPosRead. -/
def Obligations.ContextSetup : Prop :=
  (∀ (t : Frac) (o : Owner) (k : Fin 256) (v w : Word) (s : State), writeTaken s t o (regOff .strCfg k.val) 0x39 →
    (ctx s k.val).st = .disabled → w = mergeReg .strCfg k.val (reg s .strCfg k.val) (v ||| 0x80000000) →
    regAccept .strCfg k.val (reg s .strCfg k.val) w = true → bit w 31 = true →
    enableFault (setReg s .strCfg k.val (w &&& 0x7FFFFFFF)) k.val = none →
    Answers (exec (.streamEnable t o k v) s) fun s' =>
      ctx s' k.val = { Ctx.reset with
        st := .armed, lastErr := (ctx s k.val).lastErr, pos := (ctx s k.val).pos, posHi := (ctx s k.val).posHi,
        under := (ctx s k.val).under, late := (ctx s k.val).late, lateAt := (ctx s k.val).lateAt } ∧
      (∀ j, j ≠ k.val → ctx s' j = ctx s j) ∧ s'.regs = (setReg s .strCfg k.val w).regs ∧
      only [.st, .regs, .hl] s s') ∧
  (∀ (t : Frac) (o : Owner) (k : Fin 256) (v w : Word) (r : Nat) (s : State), writeTaken s t o (regOff .strCfg k.val) 0x39 →
    (ctx s k.val).st = .disabled → w = mergeReg .strCfg k.val (reg s .strCfg k.val) (v ||| 0x80000000) →
    regAccept .strCfg k.val (reg s .strCfg k.val) w = true → bit w 31 = true →
    enableFault (setReg s .strCfg k.val (w &&& 0x7FFFFFFF)) k.val = some r → evtOpen s 2 →
    Answers (exec (.streamEnable t o k v) s) fun s' =>
      ctx s' k.val = { ctx s k.val with lastErr := r } ∧ (∀ j, j ≠ k.val → ctx s' j = ctx s j) ∧
      raised s t 0x0A16 k.val (pay [(0, 1, r), (2, 2, (regPlace .strCfg).1 % 0x1000)]) s' ∧
      only [.st, .regs, .hl] s s') ∧
  (∀ (t : Frac) (k : Fin 256) (v : Word) (s : State), enabled s k.val = true → fld v 15 0 < ringLen s k.val →
    Answers (exec (.streamDoorbell t k true v) s) fun s' =>
      s'.st = (setCtx s k.val { ctx s k.val with prod := fld v 15 0 }).st ∧ still [.st] s s') ∧
  (∀ (t : Frac) (k : Fin 256) (s : State),
    Answers (exec (.strPosRead t k) s) fun s' =>
      s'.out = [.read (BitVec.ofNat 32 (ctx s k.val).pos)] ∧
      s'.st = (setCtx s k.val { ctx s k.val with posHi := (ctx s k.val).pos / 2 ^ 32 }).st ∧
      ∀ p : Part, p ≠ .st → p.exact s s')

/-- A context's data (R317–R321, R325, R335): a descriptor that passes its check is taken and one that fails halts the
context at the next boundary; a playback frame that lands in time is stored; a record frame past its deadline is lost
and counted; the head descriptor retires with its status. The model's choices in it: log entries 7, 80. It says where
each of these rows completes: descriptorFetch, playbackReadLanded, recordDeadline, descriptorRetire, streamError,
frameDrain. -/
def Obligations.ContextData : Prop :=
  (∀ (t : Frac) (k : Fin 256) (b : Bytes) (s : State), (ctx s k.val).st = .armed → (ctx s k.val).join = none →
    (grp s (groupOf s k.val)).st ≠ .running → failing s k.val = false → busOn s = true → isRec s k.val = false →
    (ctx s k.val).fetch ≠ (ctx s k.val).prod → descOk (ctx s k.val) b = true →
    Answers (exec (.descriptorFetch t k (.ok b)) s) fun s' =>
      (ctx s' k.val).fetch = ((ctx s k.val).fetch + 1) % ringLen s k.val ∧
      (ctx s' k.val).phase = (if ((ctx s k.val).fetch + 1) % ringLen s k.val = 0 then !(ctx s k.val).phase
        else (ctx s k.val).phase) ∧
      (ctx s' k.val).descs.map (fun d => (d.first, d.n, d.addr)) =
        (ctx s k.val).descs.map (fun d => (d.first, d.n, d.addr)) ++ [(leAt b 8 6, leAt b 16 4, leAt b 0 8)] ∧
      (∀ j, j ≠ k.val → ctx s' j = ctx s j) ∧ s'.hl = { s.hl with aspm := 0 } ∧ still [.st, .hl] s s') ∧
  (∀ (t : Frac) (k : Fin 256) (b : Bytes) (s : State), live s k.val = true → failing s k.val = false →
    busOn s = true → (ctx s k.val).fetch ≠ (ctx s k.val).prod → descOk (ctx s k.val) b = false →
    Answers (exec (.descriptorFetch t k (.ok b)) s) fun s' =>
      ctx s' k.val = { ctx s k.val with
        lastErr := 0x81, errIdx := (ctx s k.val).fetch, errPhase := some (leAt b 31 1 / 128 == 1), fail := some 1 } ∧
      (∀ j, j ≠ k.val → ctx s' j = ctx s j) ∧ s'.hl = { s.hl with aspm := 0 } ∧ still [.st, .hl] s s') ∧
  (∀ (t : Frac) (k : Fin 256) (fn : BitVec 48) (b : Bytes) (d : Desc × Nat) (s : State), live s k.val = true →
    failing s k.val = false → isRec s k.val = false → s.fr.fn < fn.toNat → fn.toNat ≤ s.fr.fn + prefetch s k.val →
    carrier (ctx s k.val) fn.toNat = some d → fn.toNat ∉ (ctx s k.val).lateDue →
    (∀ e ∈ (ctx s k.val).store, e.1 ≠ fn.toNat) →
    Answers (exec (.playbackReadLanded t k fn (.ok b)) s) fun s' =>
      s'.st = (setCtx s k.val { ctx s k.val with
        store := (ctx s k.val).store ++ [(fn.toNat, playFrame s k.val b)] }).st ∧
      s'.hl = { s.hl with aspm := 0 } ∧ still [.st, .hl] s s') ∧
  (∀ (t : Frac) (k : Fin 256) (e : Nat × List Int) (r : List (Nat × List Int)) (s : State),
    (ctx s k.val).store = e :: r → (ctx s k.val).st = .running → isRec s k.val = true →
    e.1 + 1 + prefetch s k.val ≤ s.fr.fn → carrier (ctx s k.val) e.1 = none → (ctx s k.val).run = 0 → evtOpen s 1 →
    Answers (exec (.recordDeadline t k) s) fun s' =>
      s'.st = (setCtx s k.val { ctx s k.val with
        store := r, under := inc32 (ctx s k.val).under, run := 1 }).st ∧
      raisedAt e.1 t 0x0A14 k.val (pay [(0, 1, if busOn s then 1 else 2), (4, 4, inc32 (ctx s k.val).under)]) s' ∧
      only [.st] s s') ∧
  (∀ (t : Frac) (k : Fin 256) (d : Desc) (r : List Desc) (s : State), live s k.val = true → failing s k.val = false →
    busOn s = true → (ctx s k.val).descs = d :: r → headDone s k.val = true → d.irq = false →
    Answers (exec (.descriptorRetire t k) s) fun s' =>
      s'.st = (setCtx s k.val { ctx s k.val with
        descs := r, cons := ((ctx s k.val).cons + 1) % ringLen s k.val }).st ∧
      s'.out = [.dma ((reg s .strRingHi k.val).toNat * 2 ^ 32 + (reg s .strRingLo k.val).toNat
            + 32 * (ctx s k.val).cons + 20)
          (toLE 4 d.done ++ toLE 4 (missedOf (startOf s k.val) d) ++ toLE 2 (descStatus (startOf s k.val) d) ++ toLE 1 0),
        .dma ((reg s .strRingHi k.val).toNat * 2 ^ 32 + (reg s .strRingLo k.val).toNat
            + 32 * (ctx s k.val).cons + 31) (toLE 1 (64 + 128 * b2n d.phase))] ∧
      s'.hl = { s.hl with aspm := 0 } ∧ ∀ p : Part, p ≠ .st → p ≠ .hl → p.exact s s') ∧
  (∀ (t : Frac) (k : Fin 256) (c : StreamCause) (s : State), live s k.val = true → failing s k.val = false →
    Answers (exec (.streamError t k c) s) fun s' =>
      ctx s' k.val = { ctx s k.val with
        lastErr := 0x80 + causeCode c, fail := some (causeCode c)
        errIdx := if (ctx s k.val).fetch = (ctx s k.val).prod then (ctx s k.val).cons else (ctx s k.val).fetch } ∧
      (∀ j, j ≠ k.val → ctx s' j = ctx s j) ∧ still [.st] s s') ∧
  (∀ (t : Frac) (x : DrainIn) (k c : Nat) (s : State), k < 256 →
    (quietBoundary s [] ∨ (computing s = true ∧ stuckLane s = false ∧ s.fr.marked = true)) →
    live s k = true → (ctx s k).fail = some c →
    Answers (exec (.frameDrain t x) s) fun s' =>
      (ctx s' k).st = .halted ∧ (ctx s' k).fail = none ∧ (ctx s' k).lastErr = (ctx s k).lastErr)

/-- Groups and stops (R329–R331): GROUP_START binds the start and answers its boundary, the start frame takes every
armed member to RUNNING, and CTX_STOP is staged for an enabled context alone. The model's choices in it: log entry 80.
It says where each of these rows completes: groupStart, groupStartFrame, ctxStop. -/
def Obligations.GroupsAndStops : Prop :=
  (∀ (t : Frac) (c : Cmd) (s : State), cmdReady s c 0x00A0 [0x39] →
    fieldsOk c [(0, 0x1F), (1, 0xFFFFFFFFFFFF)] = true →
    (∃ k ∈ members s (pwN c 0), (ctx s k).st = .armed) → (grp s (pwN c 0)).st = .idle →
    (pwN c 1 = 0 ∨ bindTo s < pwN c 1) →
    Answers (exec (.groupStart t c) s) fun s' =>
      s'.st = (setGrp s (pwN c 0) { st := .starting, start := (if pwN c 1 = 0
        then bindTo s + 1 + groupLead s (pwN c 0) else pwN c 1) }).st ∧
      s'.fr = { s.fr with staged := s.fr.staged ++ [{
        owner := c.src, bound := bindTo s, at_ := frTime (atT s t)
        item := .groupStart (pwN c 0) (if pwN c 1 = 0 then bindTo s + 1 + groupLead s (pwN c 0) else pwN c 1) }] } ∧
      completed c 0x00A0 stOk (bindTo s) s s' ∧ onlyCmd [.st, .fr] s s') ∧
  (∀ (t : Frac) (c : Cmd) (s : State), cmdReady s c 0x00A0 [0x39] →
    fieldsOk c [(0, 0x1F), (1, 0xFFFFFFFFFFFF)] = true → (grp s (pwN c 0)).st ≠ .idle →
    Answers (exec (.groupStart t c) s) fun s' => completed c 0x00A0 stStreamState noIndex s s' ∧ onlyCmd [] s s') ∧
  (∀ (t : Frac) (g : Fin 32) (l : List (Fin 256)) (s : State), (grp s g.val).st = .starting → startStaged s g.val = false →
    (grp s g.val).start ≤ s.fr.fn → s.fr.running = true →
    Answers (exec (.groupStartFrame t g l) s) fun s' =>
      grp s' g.val = { grp s g.val with st := .running } ∧
      (∀ k, k ∈ members s g.val → (ctx s k).st = .armed →
        (ctx s' k).st = .running ∧ (ctx s' k).start = s.fr.fn ∧ (ctx s' k).join = none) ∧
      (∀ k, k ∉ members s g.val → ctx s' k = ctx s k) ∧ only [.st, .mx] s s') ∧
  (∀ (t : Frac) (c : Cmd) (s : State), cmdReady s c 0x00A1 [0x39] → fieldsOk c [(0, 0xFF)] = true →
    enabled s (pwN c 0) = true →
    Answers (exec (.ctxStop t c) s) fun s' =>
      s'.fr = { s.fr with staged := s.fr.staged ++
        [{ owner := c.src, bound := bindTo s, item := .ctxStop (pwN c 0), at_ := frTime (atT s t) }] } ∧
      completed c 0x00A1 stOk (bindTo s) s s' ∧ onlyCmd [.fr] s s') ∧
  (∀ (t : Frac) (c : Cmd) (s : State), cmdReady s c 0x00A1 [0x39] → fieldsOk c [(0, 0xFF)] = true →
    enabled s (pwN c 0) = false →
    Answers (exec (.ctxStop t c) s) fun s' => completed c 0x00A1 stStreamState noIndex s s' ∧ onlyCmd [] s s')

/-! ## The two-wire bus -/

/-- Block writes (R342–R347, R350, R401): each leaves LAST_WR 0 and its effect; in STANDBY it is kept, and is a wake
source; a PEC byte that does not match leaves the state and LAST_WR 2. The model's choices in it: log entries 15, 17.
It says where each of these rows completes: twCmd, twBufWrite, twRegWrite. -/
def Obligations.BlockWrites : Prop :=
  (∀ (t : Frac) (x : TwTx) (d : Bytes) (s : State), blockSent s 0x10 x d → d.length = 64 → cmdPending s = false →
    s.pd.st ≠ .standby →
    Answers (exec (.twCmd t x) s) fun s' =>
      s'.tw = { (acceptCmd s d).tw with lastWr := 0 } ∧ s'.tw.cmd = some d ∧ s'.tw.cmdPend = true ∧ still [.tw] s s') ∧
  (∀ (t : Frac) (x : TwTx) (d : Bytes) (s : State), blockSent s 0x10 x d → cmdPending s = true →
    Answers (exec (.twCmd t x) s) fun s' =>
      s'.out = [.twNack 1] ∧ s'.tw = { s.tw with lastWr := 5 } ∧ ∀ p : Part, p ≠ .tw → p.exact s s') ∧
  (∀ (t : Frac) (x : TwTx) (o : Nat) (b : Bytes) (s : State), blockSent s 0x12 x (toLE 2 o ++ b) → b ≠ [] →
    o + b.length ≤ 65536 → o < 65536 → s.pd.st ≠ .standby →
    Answers (exec (.twBufWrite t x) s) fun s' =>
      s'.tw = { s.tw with buf := bufWrite s.tw.buf o b, lastWr := 0 } ∧ still [.tw] s s') ∧
  (∀ (t : Frac) (x : TwTx) (w : WriteIn) (o : Nat) (v : Word) (s : State),
    blockSent s 0x03 x (toLE 3 o ++ toLE 4 v.toNat) → o % 4 = 0 → o < 0x100000 → s.pd.st ≠ .standby →
    Answers (exec (.twRegWrite t x w) s) fun s' =>
      s' = { (writeReg (atT s t) .tw w o v).1 with
        tw := { (writeReg (atT s t) .tw w o v).1.tw with lastWr := (writeReg (atT s t) .tw w o v).2 } }) ∧
  (∀ (t : Frac) (x : TwTx) (w : WriteIn) (d : Bytes) (s : State), blockSent s 0x03 x d → regWriteCount d.length = true →
    s.pd.st = .standby →
    Answers (exec (.twRegWrite t x w) s) fun s' =>
      s'.tw = { s.tw with late := s.tw.late ++ [(0x03, d)], lastWr := 0 } ∧ s'.out = [] ∧
      (rb s .pdWakeEn 0 3 = false → s'.pd = s.pd) ∧
      (rb s .pdWakeEn 0 3 = true → bitN s'.pd.wakeStatus 3 = true ∧ s'.pd.waking.isSome = true) ∧
      ∀ p : Part, p ≠ .tw → p ≠ .pd → p.exact s s') ∧
  (∀ (t : Frac) (x : TwTx) (w : WriteIn) (n : Byte) (d : Bytes) (p : Byte) (s : State), twReady s = true →
    busy s = false → entering s = false → x.rd = none → x.fin = .stop → d.length = n.toNat →
    regWriteCount n.toNat = true → x.wr = (n :: d) ++ [p] → p ≠ crc8 ([addrByte s false, 0x03, n] ++ d) →
    Answers (exec (.twRegWrite t x w) s) fun s' =>
      Out.twNack (3 + n.toNat) ∈ s'.out ∧ s'.tw.lastWr = 2 ∧ s'.tw.pecErrors = inc16 s.tw.pecErrors ∧
      only [.tw] s s')

/-- Reads (R343, R346, R351): each answers its bytes; EVENT_READ takes the oldest copy out of the queue, and once two
records are free TW_EVENTS_LOST follows for copies dropped; CMD_RESULT marks the result as read; the others change
nothing but what an answering read cancels. The model's choices in it: log entries 13, 16. It says where each of these
rows completes: twStatusRead, twEventRead, twCmdResult, twBufRead, twRegRead, twUnknownCode. -/
def Obligations.BusReads : Prop :=
  (∀ (t : Frac) (x : TwTx) (n : Nat) (s : State), twReady s = true → x.wr = [] → x.rd = some n →
    Answers (exec (.twStatusRead t x) s) fun s' =>
      s'.out = [.twSend (readAnswer s 0x21 [] (toLE 2 (twStatus s)) n)] ∧ busRest s'.tw = busRest s.tw ∧
      s'.tw.queue = s.tw.queue ∧ s'.tw.notify = none ∧ ∀ p : Part, p ≠ .tw → p.exact s s') ∧
  (∀ (t : Frac) (x : TwTx) (n : Nat) (e : Event) (r : List Event) (s : State), twReady s = true → x.wr = [] →
    x.rd = some n → s.tw.queue = e :: r → (s.tw.lost = 0 ∨ 63 ≤ r.length) →
    Answers (exec (.twEventRead t x) s) fun s' =>
      s'.out = [.twSend (readAnswer s 0x20 [] (32 :: eventBytes e false) n)] ∧ s'.tw.queue = r ∧
      busRest s'.tw = busRest s.tw ∧ ∀ p : Part, p ≠ .tw → p.exact s s') ∧
  (∀ (t : Frac) (x : TwTx) (n : Nat) (e : Event) (r : List Event) (s : State), twReady s = true → x.wr = [] →
    x.rd = some n → s.tw.queue = e :: r → s.tw.lost ≠ 0 → r.length ≤ 62 →
    Answers (exec (.twEventRead t x) s) fun s' =>
      s'.out = [.twSend (readAnswer s 0x20 [] (32 :: eventBytes e false) n)] ∧
      s'.tw.queue = r ++ [{
        code := 0x0B09, unit := noUnit, fn := s.fr.fn, frac := t
        payload := pay [(0, 4, s.tw.lost), (4, 6, s.tw.lostFirst), (10, 6, s.tw.lostLast)] }] ∧
      s'.tw.lost = 0 ∧ busRest s'.tw = busRest s.tw ∧ ∀ p : Part, p ≠ .tw → p.exact s s') ∧
  (∀ (t : Frac) (x : TwTx) (n : Nat) (s : State), twReady s = true → x.wr = [] → x.rd = some n → s.tw.queue = [] →
    Answers (exec (.twEventRead t x) s) fun s' =>
      s'.out = [.twSend (readAnswer s 0x20 [] [0] n)] ∧ busRest s'.tw = busRest s.tw ∧ s'.tw.queue = [] ∧
      ∀ p : Part, p ≠ .tw → p.exact s s') ∧
  (∀ (t : Frac) (x : TwTx) (n : Nat) (c : Completion) (s : State), twReady s = true → x.wr = [] → x.rd = some n →
    s.tw.result = some c →
    Answers (exec (.twCmdResult t x) s) fun s' =>
      s'.out = [.twSend (readAnswer s 0x11 [] (16 :: completionBytes c s.tw.resultPhase) n)] ∧
      busRest s'.tw = busRest { s.tw with resultPhase := false, resultReady := false } ∧ s'.tw.queue = s.tw.queue ∧
      ∀ p : Part, p ≠ .tw → p.exact s s') ∧
  (∀ (t : Frac) (x : TwTx) (n o k : Nat) (s : State), twReady s = true → o < 65536 → k < 256 → o + k ≤ 65536 →
    x.wr = 3 :: (toLE 2 o ++ toLE 1 k) → x.rd = some n →
    Answers (exec (.twBufRead t x) s) fun s' =>
      s'.out = [.twSend (readAnswer s 0x13 x.wr (BitVec.ofNat 8 k :: bufRead s.tw.buf o k) n)] ∧
      ∀ p : Part, p.exact s s') ∧
  (∀ (t : Frac) (x : TwTx) (r : ReadIn) (n o : Nat) (s : State), twReady s = true → o % 4 = 0 → o < 0x100000 →
    x.wr = 4 :: (toLE 3 o ++ [1]) → x.rd = some n →
    Answers (exec (.twRegRead t x r) s) fun s' =>
      s' = { (readAt (atT s t) .tw r o).1 with
        out := (readAt (atT s t) .tw r o).1.out
          ++ [.twSend (readAnswer s 0x02 x.wr (4 :: toLE 4 (readAt (atT s t) .tw r o).2.toNat) n)] }) ∧
  (∀ (t : Frac) (code : Byte) (s : State), twReady s = true →
    code.toNat ∉ [0x02, 0x03, 0x10, 0x11, 0x12, 0x13, 0x20, 0x21, 0x3F] →
    Answers (exec (.twUnknownCode t code) s) fun s' =>
      s'.out = [.twNack 1] ∧ s'.tw = { s.tw with lastWr := 3 } ∧ ∀ p : Part, p ≠ .tw → p.exact s s') ∧
  (∀ (o : Nat) (b : Bytes) (l : List Host.Cell) (k : Nat), o + b.length ≤ 65536 →
    bufRead (bufWrite l o b) o b.length = b ∧
      (k + 1 ≤ o ∨ o + b.length ≤ k → bufRead (bufWrite l o b) k 1 = bufRead l k 1))

/-- The alert, Host Notify and the messages of the controller role (R352–R358, R477): what goes out, and what is left
in hand after a delivery, a NACK and lost arbitration. A bus that is stuck (R356, R359, R360): the flag, the event,
and LAST_WR for a transaction cut short. The model's choices in it: log entry 7. It says where each of these rows
completes: alertResponse, alertRearm, hostNotify, notifyRetry, controllerRetry, twSdaStuck, sdaStuckRetry,
twStretchReset, twSclLow, twSdaLow. -/
def Obligations.NotifyAndTimeouts : Prop :=
  (∀ (t : Frac) (s : State), alertDriven s = true →
    Answers (exec (.alertResponse t false) s) fun s' =>
      s'.out = [.twSend [BitVec.ofNat 8 (2 * twAddr s + b2n s.tw.resultReady)]] ∧
      s'.tw = { s.tw with armed := false } ∧ alertDriven s' = false ∧ ∀ p : Part, p ≠ .tw → p.exact s s') ∧
  (∀ (t : Frac) (s : State), attention s = true →
    Answers (exec (.alertRearm t) s) fun s' => s'.tw = { s.tw with armed := true } ∧ still [.tw] s s') ∧
  (∀ (t : Frac) (s : State), notifyDue s = true →
    Answers (exec (.hostNotify t .sent) s) fun s' =>
      s'.out = [.twCtl (notifyBytes s)] ∧ s'.tw = { s.tw with stuck := 0, notify := none, notifyOk := rf s .twCfg 0 5 4 != 3 } ∧
      ∀ p : Part, p ≠ .tw → p.exact s s') ∧
  (∀ (t : Frac) (b n : Nat) (s : State), s.tw.notify = some n → n < 2 →
    Answers (exec (.notifyRetry t (.nacked b)) s) fun s' =>
      s'.out = [.twCtl (notifyBytes s)] ∧ s'.tw = { s.tw with stuck := 0, notify := some (n + 1) } ∧
      ∀ p : Part, p ≠ .tw → p.exact s s') ∧
  (∀ (t : Frac) (b n : Nat) (s : State), s.tw.notify = some n → 2 ≤ n → evtOpen s 1 →
    Answers (exec (.notifyRetry t (.nacked b)) s) fun s' =>
      Out.twCtl (notifyBytes s) ∈ s'.out ∧ bitN s'.tw.flags 5 = true ∧
      (∃ w, raised s t 0x0B07 noUnit (pay [(0, 1, 1), (2, 2, w)]) s') ∧ only [.tw] s s') ∧
  (∀ (t : Frac) (l : Nat) (s : State), s.tw.notify = none → s.tw.vmsg = some l → s.vc.mute = false →
    Answers (exec (.controllerRetry t .sent) s) fun s' =>
      s'.out = [.twCtl (vcoreBytes l)] ∧ s'.tw = { s.tw with vstuck := 0, vmsg := none } ∧
      s'.vc = { s.vc with sent := true } ∧ ∀ p : Part, p ≠ .tw → p ≠ .vc → p.exact s s') ∧
  (∀ (t : Frac) (l b : Nat) (i : Fin 8) (a : Bool) (s : State), s.tw.notify = none → s.tw.vmsg = some l →
    s.vc.mute = false → evtOpen s 1 →
    Answers (exec (.controllerRetry t (.lost b i a)) s) fun s' =>
      Out.twCtl (vcoreBytes l) ∈ s'.out ∧ s'.tw.vmsg = some l ∧ s'.tw.arbCount = inc16 s.tw.arbCount ∧
      s'.tw.arbByte = b % 256 ∧ s'.tw.arbBit = i.val ∧ bitN s'.tw.flags 4 = true ∧
      raised s t 0x0B02 noUnit (pay [(0, 1, b), (1, 1, i.val), (2, 1, 2), (3, 1, if a then 2 else 1),
        (4, 2, inc16 s.tw.arbCount)]) s' ∧ only [.tw] s s') ∧
  (∀ (t : Frac) (s : State), s.tw.notify.isSome = true → s.tw.stuck = 0 → evtOpen s 1 →
    Answers (exec (.twSdaStuck t) s) fun s' =>
      s'.tw.stuck = 1 ∧ bitN s'.tw.flags 3 = true ∧ s'.tw.vmsg = s.tw.vmsg ∧ s'.tw.vstuck = s.tw.vstuck ∧
      raised s t 0x0B06 noUnit (pay [(0, 1, 1)]) s' ∧ only [.tw] s s') ∧
  (∀ (t : Frac) (s : State), s.tw.notify = none → s.tw.vmsg.isSome = true → s.tw.vstuck = 0 → evtOpen s 1 →
    Answers (exec (.twSdaStuck t) s) fun s' =>
      s'.tw.vstuck = 1 ∧ bitN s'.tw.flags 3 = true ∧ s'.tw.vmsg = s.tw.vmsg ∧
      raised s t 0x0B06 noUnit (pay [(0, 1, 1)]) s' ∧ only [.tw] s s') ∧
  (∀ (t : Frac) (s : State), s.tw.notify.isSome = true → s.tw.stuck = 1 → evtOpen s 1 →
    Answers (exec (.sdaStuckRetry t none) s) fun s' =>
      s'.tw.stuck = 2 ∧ bitN s'.tw.flags 3 = true ∧ s'.tw.vmsg = s.tw.vmsg ∧ s'.tw.vstuck = s.tw.vstuck ∧
      raised s t 0x0B06 noUnit (pay [(0, 1, 2)]) s' ∧ only [.tw] s s') ∧
  (∀ (t : Frac) (n l : Nat) (s : State), s.tw.notify = none → s.tw.vmsg = some l → s.tw.vstuck = n → n = 1 ∨ n = 2 →
    s.vc.mute = false → evtOpen s 1 →
    Answers (exec (.sdaStuckRetry t none) s) fun s' =>
      s'.tw.vstuck = (if n = 1 then 2 else 0) ∧ s'.tw.vmsg = (if n = 1 then some l else none) ∧
      bitN s'.tw.flags 3 = true ∧ raised s t 0x0B06 noUnit (pay [(0, 1, n + 1)]) s' ∧ only [.tw] s s') ∧
  (∀ (t : Frac) (l : Nat) (s : State), s.tw.vstuck ≠ 0 → s.tw.notify = none → s.tw.vmsg = some l → s.vc.mute = false →
    Answers (exec (.sdaStuckRetry t (some .sent)) s) fun s' =>
      s'.out = [.twCtl (vcoreBytes l)] ∧ s'.tw = { s.tw with vstuck := 0, vmsg := none } ∧
      s'.vc = { s.vc with sent := true } ∧ ∀ p : Part, p ≠ .tw → p ≠ .vc → p.exact s s') ∧
  (∀ (t : Frac) (target : Bool) (code : Byte) (write : Bool) (s : State), evtOpen s 1 →
    Answers (exec (.twStretchReset t target code write) s) fun s' =>
      s'.tw.stretchResets = inc16 s.tw.stretchResets ∧ bitN s'.tw.flags 0 = true ∧
      s'.tw.lastWr = (if target && write then 6 else s.tw.lastWr) ∧
      raised s t 0x0B03 noUnit (pay [(0, 1, if target then 1 else 2), (1, 1, if target then code.toNat else 0xFF)]) s' ∧
      only [.tw] s s') ∧
  (∀ (t : Frac) (r : BusUse) (inTx : Bool) (s : State), evtOpen s 1 →
    Answers (exec (.twSclLow t r inTx) s) fun s' =>
      bitN s'.tw.flags 1 = true ∧ s'.tw.lastWr = (if inTx then 6 else s.tw.lastWr) ∧
      raised s t 0x0B04 noUnit (pay [(0, 1, if r = .controller then 2 else 1)]) s' ∧ only [.tw] s s') ∧
  (∀ (t : Frac) (own inTx : Bool) (s : State), evtOpen s 1 →
    Answers (exec (.twSdaLow t own inTx) s) fun s' =>
      bitN s'.tw.flags 2 = true ∧ s'.tw.lastWr = (if inTx then 6 else s.tw.lastWr) ∧
      raised s t 0x0B05 noUnit (pay [(0, 1, if own then 1 else 2)]) s' ∧ only [.tw] s s')

/-- The VCORE request (R476–R478): one level up after a second with a low slack, never above CT_VID.MAX, and one level
down after 60 s; each change is driven and sent to the regulator; a lower MAX lowers the level at once. The model's
choices in it: log entries 3, 27, 103. It says where each of these rows completes: vcoreLevelRaise, vcoreLevelLower,
ctVidWrite. -/
def Obligations.VcoreRequest : Prop :=
  (∀ (t : Frac) (s : State), s.vc.lowSlack = true → s.vc.level < vidMax s → s.vc.mute = false →
    Answers (exec (.vcoreLevelRaise t .sent) s) fun s' =>
      s'.out = [.vid (s.vc.level + 1), .twCtl (vcoreBytes (s.vc.level + 1))] ∧
      s'.vc = { s.vc with level := s.vc.level + 1, lowSlack := false, sent := true } ∧
      s'.tw = { s.tw with vstuck := 0, vmsg := none } ∧ ∀ p : Part, p ≠ .tw → p ≠ .vc → p.exact s s') ∧
  (∀ (t : Frac) (r : CtlResult) (s : State), s.vc.lowSlack = false ∨ vidMax s ≤ s.vc.level →
    Answers (exec (.vcoreLevelRaise t r) s) fun s' => s'.vc = { s.vc with lowSlack := false } ∧ still [.vc] s s') ∧
  (∀ (t : Frac) (s : State), s.vc.lastLow + 60 * tSec ≤ nowTicks (atT s t) → 0 < s.vc.level → s.vc.mute = false →
    Answers (exec (.vcoreLevelLower t .sent) s) fun s' =>
      s'.out = [.vid (s.vc.level - 1), .twCtl (vcoreBytes (s.vc.level - 1))] ∧
      s'.vc = { s.vc with level := s.vc.level - 1, lastLow := nowTicks (atT s t), sent := true } ∧
      s'.tw = { s.tw with vstuck := 0, vmsg := none } ∧ ∀ p : Part, p ≠ .tw → p ≠ .vc → p.exact s s') ∧
  (∀ (t : Frac) (o : Owner) (v : Word) (s : State), writeTaken s t o 0x24 0x38 → s.hl.locked = false →
    fld v 9 8 < s.vc.level → s.vc.mute = false →
    Answers (exec (.ctVidWrite t o v .sent) s) fun s' =>
      s'.regs = (setReg s .ctVid 0 (v &&& 0x300)).regs ∧ vidMax s' = fld v 9 8 ∧ s'.vc.level = fld v 9 8 ∧
      Out.vid (fld v 9 8) ∈ s'.out ∧ Out.twCtl (vcoreBytes (fld v 9 8)) ∈ s'.out ∧
      only [.regs, .vc, .tw, .hl] s s') ∧
  (∀ (t : Frac) (o : Owner) (v : Word) (r : CtlResult) (s : State), held s = false → owns s o 0x38 = true →
    s.hl.locked = true →
    Answers (exec (.ctVidWrite t o v r) s) fun s' => still [] s s')

/-! ## The Larder and the Pantry -/

/-- Firmware (R371, R378, R379): SV_FW_STAGE becomes a long operation, whose end makes the inactive slot VALID or
refuses the image; SV_FW_ACTIVATE is staged when that slot is VALID; a TRIAL that is confirmed becomes CONFIRMED. The
model's choices in it: log entries 7, 34, 88, 107. It says where each of these rows completes: svFwStage,
longOperationDone, svFwActivate, fwConfirmed. -/
def Obligations.FirmwareUpdate : Prop :=
  (∀ (t : Frac) (c : Cmd) (d : Dma) (b : Bytes) (s : State), longReady s c 0x0080 [0x38] →
    fieldsOk c [(0, wordAll), (1, 0xFFFFFF)] = true → addrOk c 0 (fldN (pwN c 1) 23 0) = true →
    s.sv.fwRun ≠ .trial → cmdData s c d 0 (fldN (pwN c 1) 23 0) = some b →
    Answers (exec (.svFwStage t c d) s) fun s' => begun c 0x0080 (.fwStage b) s' ∧ onlyWork [] s s') ∧
  (∀ (t : Frac) (us : Word) (r : LongDone) (img body : Bytes) (x : CmpSlot) (s : State),
    longHeld s x 0x0080 (.fwStage img) → openContainer s 3 img = .ok body → r.fwOk = true →
    (header img).bodyLen ≤ 786080 → r.nvOk = true → littleWorn s r.reads → evtOpen s 1 →
    Answers (exec (.longOperationDone t us r) s) fun s' =>
      fwSlot s' (stageSlot s) = { st := .valid, version := (header img).version, advance := advances (header img), body := body } ∧
      fwSlot s' (!stageSlot s) = fwSlot s (!stageSlot s) ∧ s'.sv.slotB = s.sv.slotB ∧ s'.sv.fwRun = s.sv.fwRun ∧
      raised s t 0x0C05 (b2n (stageSlot s)) (pay [(0, 4, (header img).version)]) s' ∧
      reported x.src x.id 0x0080 x.idx stOk 0 s s' ∧ s'.hl.long = none ∧ onlyWork [.sv] s s') ∧
  (∀ (t : Frac) (us : Word) (r : LongDone) (img : Bytes) (e : Nat × Nat) (x : CmpSlot) (s : State),
    longHeld s x 0x0080 (.fwStage img) → openContainer s 3 img = .error e → littleWorn s r.reads → evtOpen s 1 →
    Answers (exec (.longOperationDone t us r) s) fun s' =>
      (∀ b, fwSlot s' b = fwSlot s b) ∧ s'.sv.refused = inc32 s.sv.refused ∧ s'.sv.lastStatus = e.1 ∧
      s'.sv.lastStep = e.2 ∧
      raised s t 0x0C01 noUnit (pay [(0, 2, e.1), (2, 1, (header img).kind), (3, 1, (header img).signer), (4, 1, e.2),
        (8, 4, (header img).version), (12, 4, inc32 s.sv.refused)]) s' ∧
      reported x.src x.id 0x0080 x.idx e.1 noIndex s s' ∧ onlyWork [.sv] s s') ∧
  (∀ (t : Frac) (c : Cmd) (s : State), cmdReady s c 0x0081 [0x38] → fieldsOk c [] = true → s.sv.fwRun ≠ .trial →
    (fwSlot s (!s.sv.slotB)).st = .valid → s.fr.running = true →
    Answers (exec (.svFwActivate t c) s) fun s' =>
      s'.fr = { s.fr with staged := s.fr.staged ++ [{ owner := c.src, bound := bindTo s, item := .fwActivate, at_ := frTime (atT s t) }] } ∧
      completed c 0x0081 stOk (bindTo s) s s' ∧ onlyCmd [.fr] s s') ∧
  (∀ (t : Frac) (c : Cmd) (s : State), cmdReady s c 0x0081 [0x38] → fieldsOk c [] = true →
    s.sv.fwRun = .trial ∨ (fwSlot s (!s.sv.slotB)).st ≠ .valid →
    Answers (exec (.svFwActivate t c) s) fun s' => completed c 0x0081 stBadContainer noIndex s s' ∧ onlyCmd [] s s') ∧
  (∀ (t : Frac) (s : State), s.sv.fwRun = .trial → busy s = false → s.ct.ctlReset = none →
    s.ct.cur = none → littleWorn s [] → evtOpen s 2 →
    Answers (exec (.fwConfirmed t) s) fun s' =>
      s'.sv.fwRun = .confirmed ∧ s'.sv.slotB = s.sv.slotB ∧ (∀ b, fwSlot s' b = fwSlot s b) ∧
      s'.sv.fwCtr = (if (fwSlot s s.sv.slotB).advance then Nat.max s.sv.fwCtr (fwSlot s s.sv.slotB).version
        else s.sv.fwCtr) ∧
      raised s t 0x0C07 (b2n s.sv.slotB) (pay [(0, 4, (fwSlot s s.sv.slotB).version)]) s' ∧ only [.sv] s s')

/-- Keys, owners and reports (R367, R368, R377, R380, R381): each command becomes its long operation and its end has
the effect; the report and the certificates are written to memory. An uncorrectable Pantry line (R385, R387): counted
and reported, served by the next spare while there is one, and its data is lost by what it held: calibration entries,
a firmware slot, a scene. The model's choices in it: log entries 29, 34, 107. It says where each of these rows
completes: svKeygen, longOperationDone, svOwnerEnrol, svOwnerRevoke, svAttest, svCertRead, pantryUncorrectable. -/
def Obligations.KeysOwnersAndPantry : Prop :=
  (∀ (t : Frac) (c : Cmd) (s : State), longReady s c 0x0083 [0x38] → fieldsOk c [(0, 0xFF)] = true →
    pwN c 0 = 1 → s.sv.larderOk = true →
    Answers (exec (.svKeygen t c) s) fun s' => begun c 0x0083 (.keygen (drawKey s).1) s' ∧ onlyWork [] s s') ∧
  (∀ (t : Frac) (us : Word) (r : LongDone) (d : Nat) (x : CmpSlot) (s : State), longHeld s x 0x0083 (.keygen d) →
    r.nvOk = true → littleWorn s r.reads → evtOpen s 1 →
    Answers (exec (.longOperationDone t us r) s) fun s' =>
      s'.sv.dck = d ∧ s'.sv.dckRec = dckRecord s (inc8 s.sv.keygen) d ∧ s'.sv.keygen = inc8 s.sv.keygen ∧
      raised s t 0x0C0A noUnit (pay [(0, 8, recipientOf d), (8, 1, inc8 s.sv.keygen)]) s' ∧
      reported x.src x.id 0x0083 x.idx stOk 0 s s' ∧ s'.hl.long = none ∧ onlyWork [.sv] s s') ∧
  (∀ (t : Frac) (c : Cmd) (d : Dma) (h : Bytes) (s : State), longReady s c 0x0084 [0x38] →
    fieldsOk c [(0, 3), (1, wordAll)] = true → addrOk c 1 48 = true → (ownerSlot s (pwN c 0)).st = .empty →
    cmdData s c d 1 48 = some h →
    Answers (exec (.svOwnerEnrol t c d) s) fun s' => begun c 0x0084 (.enrol (pwN c 0) h) s' ∧ onlyWork [] s s') ∧
  (∀ (t : Frac) (us : Word) (r : LongDone) (n : Nat) (h : Bytes) (x : CmpSlot) (s : State),
    longHeld s x 0x0084 (.enrol n h) → r.nvOk = true → littleWorn s r.reads → evtOpen s 1 →
    Answers (exec (.longOperationDone t us r) s) fun s' =>
      ownerSlot s' n = { st := .enrolled, seq := enrolled s, hash := h, bad := false } ∧
      (∀ k, k ≠ n → ownerSlot s' k = ownerSlot s k) ∧
      raised s t 0x0C03 n (pay [(0, 1, enrolled s), (4, 8, leAt h 0 8)]) s' ∧
      reported x.src x.id 0x0084 x.idx stOk 0 s s' ∧ onlyWork [.sv] s s') ∧
  (∀ (t : Frac) (c : Cmd) (s : State), longReady s c 0x0085 [0x38] → fieldsOk c [(0, 3)] = true →
    Answers (exec (.svOwnerRevoke t c) s) fun s' => begun c 0x0085 (.revoke (pwN c 0)) s' ∧ onlyWork [] s s') ∧
  (∀ (t : Frac) (us : Word) (r : LongDone) (n : Nat) (x : CmpSlot) (s : State),
    longHeld s x 0x0085 (.revoke n) → r.nvOk = true → littleWorn s r.reads → evtOpen s 1 →
    Answers (exec (.longOperationDone t us r) s) fun s' =>
      ownerSlot s' n = { ownerSlot s n with st := .revoked } ∧ (∀ k, k ≠ n → ownerSlot s' k = ownerSlot s k) ∧
      raised s t 0x0C04 n (pay [(0, 1, ownerStCode (ownerSlot s n).st)]) s' ∧
      reported x.src x.id 0x0085 x.idx stOk 0 s s' ∧ onlyWork [.sv] s s') ∧
  (∀ (t : Frac) (c : Cmd) (d : Dma) (ch : Bytes) (s : State), cmdReady s c 0x0082 [0x38] → c.src = .host →
    fieldsOk c [(0, wordAll), (1, wordAll), (2, 0xFFFF)] = true → 864 ≤ pwN c 2 → s.sv.larderOk = true →
    cmdData s c d 0 48 = some ch →
    Answers (exec (.svAttest t c d) s) fun s' =>
      Out.dma (pwN c 1) (attestBody s ch ++ (signDik s (attestBody s ch)).1) ∈ s'.out ∧
      (ch.length = 48 → (attestBody s ch ++ (signDik s (attestBody s ch)).1).length = 864) ∧
      completed c 0x0082 stOk 864 s s' ∧ onlyCmd [] s s') ∧
  (∀ (t : Frac) (c : Cmd) (l : List Correction) (s : State), cmdReady s c 0x0086 [0x38] → c.src = .host →
    fieldsOk c [(0, wordAll), (1, 0xFFFF)] = true → s.sv.larderOk = true →
    Answers (exec (.svCertRead t c l) s) fun s' =>
      (certs.length ≤ pwN c 1 → Out.dma (pwN c 0) certs ∈ s'.out ∧ s'.sv = (pantryReads s l).sv ∧
        completed c 0x0086 stOk certs.length s s') ∧
      (pwN c 1 < certs.length → completed c 0x0086 stBadParam certs.length s s') ∧ onlyCmd [.sv] s s') ∧
  (∀ (t : Frac) (x : PantryLoss) (s : State), evtOpen s 4 →
    Answers (exec (.pantryUncorrectable t x) s) fun s' =>
      s'.sv.eccUncorrected = inc16 s.sv.eccUncorrected ∧
      (s.sv.retired < 2048 → s'.sv.retired = s.sv.retired + 1 ∧ servingLine s' x.line.toNat = 0x1800 + s.sv.retired ∧
        raised s t 0x0C0E (pantryRegion x.line.toNat)
          (pay [(0, 2, x.line.toNat), (2, 2, 0x1800 + s.sv.retired), (4, 4, lineWear s x.line.toNat)]) s') ∧
      (2048 ≤ s.sv.retired → s'.sv.retired = s.sv.retired ∧ s'.sv.remap = s.sv.remap ∧ s'.sv.wear = s.sv.wear) ∧
      raised s t 0x0C0D (pantryRegion x.line.toNat)
        (pay [(0, 2, x.line.toNat), (4, 2, inc16 s.sv.eccUncorrected)]) s') ∧
  (∀ (t : Frac) (x : PantryLoss) (s : State), pantryRegion x.line.toNat = 0 ∨ pantryRegion x.line.toNat = 3 →
    Answers (exec (.pantryUncorrectable t x) s) fun s' => only [.sv] s s') ∧
  (∀ (t : Frac) (x : PantryLoss) (e : Fin 512) (s : State), pantryRegion x.line.toNat = 1 → x.entries = [e] →
    Answers (exec (.pantryUncorrectable t x) s) fun s' =>
      s'.regs = (setReg (setReg s .scEntry2 e.val 0x400000) .scEntry3 e.val 0).regs ∧ only [.sv, .regs] s s') ∧
  (∀ (t : Frac) (x : PantryLoss) (b : Bool) (s : State), pantryRegion x.line.toNat = 4 + b2n b →
    Answers (exec (.pantryUncorrectable t x) s) fun s' =>
      fwSlot s' b = { fwSlot s b with st := .invalid } ∧ fwSlot s' (!b) = fwSlot s (!b) ∧ only [.sv] s s') ∧
  (∀ (t : Frac) (x : PantryLoss) (k : Nat) (l : List Nat) (s : State), pantryRegion x.line.toNat = 6 →
    s.sv.sceneAt.find? (fun e => e.2.contains x.line.toNat) = some (k, l) →
    Answers (exec (.pantryUncorrectable t x) s) fun s' =>
      sceneOf s' k = [] ∧ (∀ j, j ≠ k → sceneOf s' j = sceneOf s j) ∧ only [.sv, .hl] s s') ∧
  (∀ (t : Frac) (x : PantryLoss) (s : State), pantryRegion x.line.toNat = 6 →
    s.sv.sceneAt.find? (fun e => e.2.contains x.line.toNat) = none →
    Answers (exec (.pantryUncorrectable t x) s) fun s' => only [.sv] s s')

/-- Authentication of the Strellin link (R382, R383): a HELLO that fails a check fails the handshake with its reason,
as do a bad signature and the timeout; one that passes is answered by a signature over both HELLOs, and a good
signature authenticates the peer and derives the session; a retry starts again with a fresh key. The model's choices
in it: log entries 7, 34. It says where each of these rows completes: pairHello, pairFinish, pairAuthTimeout,
pairAuthRetry, linkReauthentication. -/
def Obligations.PairAuthentication : Prop :=
  (∀ (t : Frac) (h : Hello) (c : PeerCert) (o : Hello × Nat) (s : State), s.sv.auth = .handshaking →
    helloCheck s h (some c) = none → s.sv.own = some o →
    Answers (exec (.pairHello t h (some c)) s) fun s' =>
      s'.sv = { s.sv with peer := some (h, c) } ∧
      s'.out = [.finish (signWith (dikKey s) (drawKey s).1 (sha384 (finishBytes o.1 h)))] ∧
      ∀ p : Part, p ≠ .sv → p.exact s s') ∧
  (∀ (t : Frac) (h : Hello) (c : Option PeerCert) (r : Nat) (s : State), s.sv.auth = .handshaking →
    helloCheck s h c = some r → evtOpen s 1 →
    Answers (exec (.pairHello t h c) s) fun s' =>
      s'.sv = { s.sv with auth := .failed, peer := none, timedOut := false, fails := inc8 s.sv.fails } ∧
      raised s t 0x0C0C noUnit (pay [(0, 1, r), (1, 1, inc8 s.sv.fails)]) s' ∧ only [.sv] s s') ∧
  (∀ (t : Frac) (sig z : Bytes) (o : Hello × Nat) (p : Hello × PeerCert) (s : State), s.sv.auth = .handshaking →
    s.sv.own = some o → s.sv.peer = some p → verifies p.2.dik (sha384 (finishBytes o.1 p.1)) sig = true →
    ecdh o.2 p.1.eph = some z → s.pl.st = .auth → evtOpen s 2 →
    Answers (exec (.pairFinish t sig) s) fun s' =>
      s'.sv = { s.sv with auth := .authenticated, txSeq := 0, rxSeq := 0, session := sessionOf z o.1 p.1 } ∧
      s'.pl = { s.pl with st := .ready } ∧
      raised s t 0x0C0B noUnit (pay [(0, 1, p.1.role.toNat), (4, 8, p.2.serial.toNat)]) s' ∧
      raised s t 0x0F01 noUnit (pay [(0, 1, pairCode .auth), (1, 1, pairCode .ready), (2, 6, pfnNow s)]) s' ∧
      only [.sv, .pl] s s') ∧
  (∀ (t : Frac) (sig : Bytes) (o : Hello × Nat) (p : Hello × PeerCert) (s : State), s.sv.auth = .handshaking →
    s.sv.own = some o → s.sv.peer = some p → verifies p.2.dik (sha384 (finishBytes o.1 p.1)) sig = false →
    evtOpen s 1 →
    Answers (exec (.pairFinish t sig) s) fun s' =>
      s'.sv = { s.sv with auth := .failed, peer := none, timedOut := false, fails := inc8 s.sv.fails } ∧
      raised s t 0x0C0C noUnit (pay [(0, 1, 5), (1, 1, inc8 s.sv.fails)]) s' ∧ only [.sv] s s') ∧
  (∀ (t : Frac) (sig : Bytes) (s : State), s.sv.auth = .failed → s.sv.timedOut = true →
    Answers (exec (.pairFinish t sig) s) fun s' => s'.sv = { s.sv with late := inc8 s.sv.late } ∧ still [.sv] s s') ∧
  (∀ (t : Frac) (sig : Bytes) (s : State), s.sv.auth = .idle ∨ s.sv.auth = .authenticated →
    Answers (exec (.pairFinish t sig) s) (still [] s)) ∧
  (∀ (t : Frac) (s : State), s.sv.auth = .handshaking → evtOpen s 1 →
    Answers (exec (.pairAuthTimeout t) s) fun s' =>
      s'.sv = { s.sv with auth := .failed, peer := none, timedOut := true, fails := inc8 s.sv.fails } ∧
      raised s t 0x0C0C noUnit (pay [(0, 1, 6), (1, 1, inc8 s.sv.fails)]) s' ∧ only [.sv] s s') ∧
  (∀ (t : Frac) (s : State), s.sv.auth = .failed → s.pl.lanes ≠ 0 →
    Answers (exec (.pairAuthRetry t) s) (helloSent s)) ∧
  (∀ (t : Frac) (s : State), s.sv.auth = .authenticated → reauthDue s = true →
    Answers (exec (.linkReauthentication t) s) (helloSent s)) ∧
  (∀ (t : Frac) (s : State), s.sv.auth ≠ .authenticated ∨ reauthDue s = false →
    Answers (exec (.linkReauthentication t) s) (still [] s))

/-! ## Domains, module states, the real-time clock -/

/-- PD_DOMAIN and its end (R391–R394): staged when no condition of R392 is broken and refused with the lowest domain
that breaks one; a domain with power good is on; one that faults is reported, ends the power-up of those that have not
begun theirs, and completes the command once no other is awaited. Module states (R399, R400): the command completes
and the entry begins, or is refused; the halt takes the domains down and reaches STANDBY; the power-down reaches
SLEEP. The model's choices in it: log entry 32. It says where each of these rows completes: pdDomain, domainPowerGood,
domainFault, pdStateStandby, pdStateSleep, stateEntryHalt, sleepPowerDown. -/
def Obligations.DomainsAndStates : Prop :=
  (∀ (t : Frac) (c : Cmd) (s : State), cmdReady s c 0x0070 [0x36] → fieldsOk c [(0, 0x3FF03FF)] = true →
    (∀ d, d < 10 → domainBad s (fldN (pwN c 0) 9 0) (fldN (pwN c 0) 25 16) d = false) → s.fr.running = true →
    Answers (exec (.pdDomain t c) s) fun s' =>
      s'.fr = { s.fr with staged := s.fr.staged ++
        [{ owner := c.src, bound := bindTo s,
           item := .domain (fldN (pwN c 0) 9 0) (fldN (pwN c 0) 25 16) s.hl.nextSlot, at_ := frTime (atT s t) }] } ∧
      s'.pd = s.pd ∧ (∃ x, s'.hl.order = [x] ∧ x.slot = s.hl.nextSlot ∧ x.done = none) ∧ onlyCmd [.fr, .hl] s s') ∧
  (∀ (t : Frac) (c : Cmd) (d : Nat) (s : State), cmdReady s c 0x0070 [0x36] →
    fieldsOk c [(0, 0x3FF03FF)] = true → d < 10 →
    domainBad s (fldN (pwN c 0) 9 0) (fldN (pwN c 0) 25 16) d = true →
    (∀ e, e < d → domainBad s (fldN (pwN c 0) 9 0) (fldN (pwN c 0) 25 16) e = false) →
    Answers (exec (.pdDomain t c) s) fun s' => completed c 0x0070 stDomainState d s s' ∧ onlyCmd [] s s') ∧
  (∀ (t : Frac) (d : Fin 10) (failed : Word) (m : Bool) (x : StrobeIn) (s : State), awaited s d.val = true →
    domOn s d.val = false → d.val ≠ 7 → (needs d.val).all (domOn s) = true → s.hl.afterDone = none →
    Answers (exec (.domainPowerGood t d failed m x) s) fun s' =>
      domOn s' d.val = true ∧ (∀ e, e ≠ d.val → domOn s' e = domOn s e) ∧ awaited s' d.val = false ∧
      s'.fr = s.fr ∧ s'.sv = s.sv ∧ s'.ct = s.ct ∧ s'.st = s.st ∧ s'.sp = s.sp) ∧
  (∀ (t : Frac) (d : Fin 10) (b : BitVec 10) (n : Option Nat) (fn : Nat) (w : List Nat) (s : State),
    s.pd.job = [{ slot := n, cause := 1, fn := fn, wait := w, fault := none }] → d.val ∈ w →
    (w.filter (· != d.val)).filter (bitN b.toNat) ≠ [] → s.hl.afterDone = none → evtOpen s 1 →
    Answers (exec (.domainFault t d b) s) fun s' =>
      s'.pd = { s.pd with
        pgFaults := inc16 s.pd.pgFaults
        job := [{ slot := n, cause := 1, fn := fn, wait := (w.filter (· != d.val)).filter (bitN b.toNat)
                  fault := some d.val }] } ∧
      raised s t 0x0D04 d.val (pay [(0, 2, inc16 s.pd.pgFaults)]) s' ∧ only [.pd] s s') ∧
  (∀ (t : Frac) (d : Fin 10) (b : BitVec 10) (x : CmpSlot) (fn : Nat) (s : State),
    s.pd.job = [{ slot := some x.slot, cause := 1, fn := fn, wait := [d.val], fault := none }] → s.hl.order = [x] →
    x.src ≠ .peer → s.hl.afterDone = none → evtOpen s 1 →
    Answers (exec (.domainFault t d b) s) fun s' =>
      s'.pd = { s.pd with pgFaults := inc16 s.pd.pgFaults, job := [] } ∧
      raised s t 0x0D04 d.val (pay [(0, 2, inc16 s.pd.pgFaults)]) s' ∧
      reported x.src x.id x.opcode x.idx stDomainState d.val s s' ∧ onlyWork [.pd] s s') ∧
  (∀ (t : Frac) (c : Cmd) (s : State), cmdReady s c 0x0071 [0x36] → fieldsOk c [(0, 3)] = true → pwN c 0 = 1 →
    stateRefused s = false → s.fr.running = true →
    Answers (exec (.pdStateStandby t c) s) fun s' =>
      s'.pd = { s.pd with entry := some { target := .standby, stopped := false, off := false } } ∧
      s'.fr = { s.fr with staged := s.fr.staged ++ [{ owner := .host, bound := bindTo s, item := .enterState, at_ := frTime (atT s t) }] } ∧
      completed c 0x0071 stOk 0 s s' ∧ onlyCmd [.pd, .fr] s s') ∧
  (∀ (t : Frac) (c : Cmd) (s : State), cmdReady s c 0x0071 [0x36] → fieldsOk c [(0, 3)] = true → pwN c 0 = 2 →
    stateRefused s = false → s.fr.running = true →
    Answers (exec (.pdStateSleep t c) s) fun s' =>
      s'.pd = { s.pd with entry := some { target := .sleep, stopped := false, off := false } } ∧
      s'.fr = { s.fr with staged := s.fr.staged ++ [{ owner := .host, bound := bindTo s, item := .enterState, at_ := frTime (atT s t) }] } ∧
      completed c 0x0071 stOk 0 s s' ∧ onlyCmd [.pd, .fr] s s') ∧
  (∀ (t : Frac) (c : Cmd) (s : State), cmdReady s c 0x0071 [0x36] → fieldsOk c [(0, 3)] = true → pwN c 0 = 2 →
    stateRefused s = true →
    Answers (exec (.pdStateSleep t c) s) fun s' => completed c 0x0071 stDomainState noIndex s s' ∧ onlyCmd [] s s') ∧
  (∀ (t : Frac) (e : Entry) (s : State), s.pd.entry = some e → e.stopped = true → e.off = false →
    outputsDown s = true → (s.fr.running = true → s.fr.drained = true) → e.target = .standby → s.pd.waking = none →
    s.pd.st = .active →
    Answers (exec (.stateEntryHalt t) s) fun s' =>
      s'.pd.st = .standby ∧ s'.pd.entry = none ∧ (∀ d, 2 ≤ d → d ≤ 9 → domOn s' d = false) ∧
      domOn s' 0 = domOn s 0 ∧ domOn s' 1 = domOn s 1 ∧ s'.sv = s.sv ∧ s'.ct = s.ct ∧ s'.regs = s.regs) ∧
  (∀ (t : Frac) (s : State), s.pd.entry = some { target := .sleep, stopped := true, off := true } →
    s.pd.waking = none → s.pd.st = .active → nvBusy s = false → evtOpen s 1 →
    Answers (exec (.sleepPowerDown t) s) fun s' =>
      s'.pd = { s.pd with entry := none, st := .sleep, on := 0 } ∧ s'.tw.queue = [] ∧
      busRest s'.tw = busRest { s.tw with result := none, resultPhase := false, resultReady := false } ∧
      raised s t 0x0D02 noUnit (pay [(0, 1, modCode .active), (1, 1, modCode .sleep)]) s' ∧ only [.pd, .tw] s s')

/-- Wake (R230, R341, R342, R401–R404): an enabled source in STANDBY is recorded and begins the wake, at whose strobe
the module is ACTIVE; in SLEEP a source begins a bring-up with the scope of COLD; one that is not enabled, or whose
condition does not hold (a comparator or an alarm not enabled, a frame sync with fewer than sixteen edges), does
nothing. The model's choices in it: log entries 3, 89. It says where each of these rows completes: wakeSource,
twWakeMatch, twWakeKnock, standbyWakeStrobe. -/
def Obligations.Wake : Prop :=
  (∀ (t : Frac) (src : Fin 10) (awc : Fin 8) (g : List (BitVec 16)) (n : Nat) (s : State), s.pd.st = .standby →
    s.pd.entry = none → s.pd.waking = none → wakingUp s = false →
    rb s .pdWakeEn 0 src.val = true → src.val ≠ 4 →
    wakeHolds s src.val awc.val g = true →
    Answers (exec (.wakeSource t src awc g n) s) fun s' =>
      s'.pd.waking = some (src.val, if src.val = 5 then awc.val else 0) ∧ s'.pd.wakeSec = (rtcAdvance s n).pd.sec ∧
      s'.pd.wakes = inc16 s.pd.wakes ∧
      bitN s'.pd.wakeStatus src.val = true ∧ s'.pd.st = .standby ∧ s'.pd.on = s.pd.on ∧
      s'.pd.job.length = s.pd.job.length + 1 ∧ still [.pd] s s') ∧
  (∀ (t : Frac) (src : Fin 10) (awc : Fin 8) (g : List (BitVec 16)) (n : Nat) (s : State), s.pd.st = .sleep →
    s.pd.entry = none → s.pd.waking = none → wakingUp s = false →
    rb s .pdWakeEn 0 src.val = true → src.val ≠ 2 → src.val ≠ 9 →
    wakeHolds s src.val awc.val g = true →
    Answers (exec (.wakeSource t src awc g n) s) fun s' =>
      s'.ct.phase = .ctrl ∧ s'.ct.nCold = inc8 s.ct.nCold ∧ s'.ct.code = s.ct.code ∧ s'.pd.st = .active ∧
      s'.mx = State.reset.mx ∧ s'.fx = State.reset.fx ∧ s'.pd.ret = s.pd.ret ∧
      bitN s'.pd.wakeStatus src.val = true ∧ s'.sv.owner = s.sv.owner ∧ s'.hl.scenes = s.hl.scenes) ∧
  (∀ (t : Frac) (src : Fin 10) (awc : Fin 8) (g : List (BitVec 16)) (n : Nat) (s : State),
    rb s .pdWakeEn 0 src.val = false ∨ wakeHolds s src.val awc.val g = false →
    Answers (exec (.wakeSource t src awc g n) s) fun s' => still [.pd] s s' ∧ s'.pd.waking = s.pd.waking ∧
      s'.pd.wakeStatus = s.pd.wakeStatus ∧ s'.pd.st = s.pd.st) ∧
  (∀ (t : Frac) (a : BitVec 7) (n : Nat) (s : State), s.pd.st = .sleep → s.pd.entry = none → s.pd.waking = none → wakingUp s = false →
    rb s .pdWakeEn 0 3 = true → a.toNat = twAddr s →
    Answers (exec (.twWakeMatch t a n) s) fun s' =>
      Out.twNack 0 ∈ s'.out ∧ s'.ct.phase = .ctrl ∧ s'.pd.twWake = 1 ∧ bitN s'.pd.wakeStatus 3 = true ∧
      s'.pd.st = .active) ∧
  (∀ (t : Frac) (n m : Nat) (s : State), s.pd.st = .sleep → s.pd.entry = none → s.pd.waking = none → wakingUp s = false →
    rb s .pdWakeEn 0 4 = true → 9 ≤ n →
    Answers (exec (.twWakeKnock t n false m) s) fun s' =>
      s'.ct.phase = .ctrl ∧ s'.pd.twWake = 2 ∧ bitN s'.pd.wakeStatus 4 = true ∧ s'.pd.st = .active) ∧
  (∀ (n : Nat) (x : StrobeIn) (w : Nat × Nat) (s : State), s.pd.st = .standby → s.pd.waking = some w →
    (∀ j ∈ s.pd.job, j.slot ≠ none) → domOn s 7 = true → s.tw.late = [] →
    Answers (exec (.standbyWakeStrobe n x) s) fun s' =>
      s'.pd = { (rtcAdvance s n).pd with st := .active, waking := none } ∧ s'.fr.running = true ∧ s'.sv = s.sv ∧ s'.ct = s.ct ∧
      s'.vc = s.vc)

/-- The real-time clock (R407): the seconds that pass, the load, the read with its capture, and the alarm, which is a
wake source. The comparators and the retained memory (R189, R409–R411): a comparator's level follows the voltage of
its ball with hysteresis, and is reported where asked for; a change that WAKE selects wakes; an access to the memory
reads or writes the word addressed, which moves on with AUTO. The oscillator of the real-time clock (R408): its
failure clears OSC_OK and is reported, SEC stops, and its restart lets SEC continue from its last value, clears VALID
and is reported with the restart code. The model's choices in it: log entries 3, 28, 31. It says where each of these
rows completes: rtcRead, rtcSet, rtcAlarm, awcChanged, retDataAccess, rtcOscFail, wakeSource, rtcOscRestart. -/
def Obligations.ClockComparatorsRetained : Prop :=
  (∀ (t : Frac) (n : Nat) (s : State), s.pd.oscOk = true → rf s .pdRtcCfg 0 7 0 = 0 → s.pd.trimRem = 0 →
    s.pd.frac + n < 2 ^ 48 →
    Answers (exec (.rtcRead t n) s) fun s' =>
      s'.pd.sec = (s.pd.sec + (s.pd.frac + n) / 32768) % 2 ^ 48 ∧ s'.pd.frac = (s.pd.frac + n) % 32768 ∧
      s'.out = [.read (BitVec.ofNat 32 s'.pd.sec)] ∧ s'.pd.capSec = s'.pd.sec / 2 ^ 32 ∧ s'.pd.capFrac = s'.pd.frac ∧
      ∀ p : Part, p ≠ .pd → p.exact s s') ∧
  (∀ (t : Frac) (o : Owner) (v : Word) (n : Nat) (s : State), writeTaken s t o 0x404C 0x36 →
    Answers (exec (.rtcSet t o v n) s) fun s' =>
      (bit v 31 = false → s'.pd = (rtcAdvance s n).pd) ∧
      (bit v 31 = true → s'.pd = { (rtcAdvance s n).pd with
        sec := fld v 15 0 * 2 ^ 32 + (reg s .pdRtcSetLo).toNat, frac := 0, trimRem := 0, valid := true }) ∧
      s'.regs = (setReg s .pdRtcSetHi 0 (v &&& 0xFFFF)).regs ∧ only [.pd, .regs, .hl] s s') ∧
  (∀ (t : Frac) (n : Nat) (s : State), alarmDue (rtcAdvance s n) s.pd.sec = true → s.pd.st = .active →
    s.pd.entry = none → wakingUp s = false → evtOpen s 1 →
    Answers (exec (.rtcAlarm t n) s) fun s' =>
      rb s' .pdRtcAlarmHi 0 31 = false ∧ s'.pd = (rtcAdvance s n).pd ∧ s'.pd.sec = alarmAt s ∧
      raised s t 0x0D06 noUnit (pay [(0, 6, alarmAt s)]) s' ∧ only [.pd, .regs] s s') ∧
  (∀ (t : Frac) (n : Nat) (s : State), alarmDue (rtcAdvance s n) s.pd.sec = true → s.pd.st = .standby → s.pd.entry = none → s.pd.waking = none → wakingUp s = false →
    rb s .pdWakeEn 0 6 = true → evtOpen s 1 →
    Answers (exec (.rtcAlarm t n) s) fun s' =>
      rb s' .pdRtcAlarmHi 0 31 = false ∧ s'.pd.waking = some (6, 0) ∧ bitN s'.pd.wakeStatus 6 = true ∧
      s'.pd.sec = alarmAt s ∧ only [.pd, .regs] s s') ∧
  (∀ (t : Frac) (n : Nat) (s : State), alarmDue (rtcAdvance s n) s.pd.sec = false →
    Answers (exec (.rtcAlarm t n) s) fun s' => s'.pd = (rtcAdvance s n).pd ∧ still [.pd] s s') ∧
  (∀ (t : Frac) (n : Fin 8) (l : Bool) (v a : BitVec 16) (m : Nat) (s : State), rb s .pdAwc n.val 31 = true →
    awcLevel s n.val v.toNat a.toNat = l → tget false s.pd.awc n.val ≠ l → awcWakes s n.val l = false →
    Answers (exec (.awcChanged t n v a m) s) fun s' =>
      s'.pd = (setAwc (rtcAdvance (atT s t) m) n.val l).pd ∧ tget false s'.pd.awc n.val = l ∧
      (∀ k, k ≠ n.val → tget false s'.pd.awc k = tget false s.pd.awc k) ∧
      (rb s .pdAwc n.val 27 = true → evtOpen s 1 → raised s t 0x0D05 n.val (pay [(0, 1, b2n l)]) s') ∧
      (rb s .pdAwc n.val 27 = false → s'.out = []) ∧ only [.pd] s s') ∧
  (∀ (t : Frac) (n : Fin 8) (l : Bool) (v a : BitVec 16) (m : Nat) (s : State), rb s .pdAwc n.val 31 = true →
    awcLevel s n.val v.toNat a.toNat = l → tget false s.pd.awc n.val ≠ l → awcWakes s n.val l = true →
    s.pd.st = .standby → s.pd.entry = none → s.pd.waking = none → wakingUp s = false → rb s .pdWakeEn 0 5 = true →
    Answers (exec (.awcChanged t n v a m) s) fun s' =>
      tget false s'.pd.awc n.val = l ∧ s'.pd.waking = some (5, n.val) ∧ bitN s'.pd.wakeStatus 5 = true ∧
      only [.pd] s s') ∧
  (∀ (t : Frac) (n : Fin 8) (v a : BitVec 16) (m : Nat) (s : State),
    rb s .pdAwc n.val 31 = false ∨ awcLevel s n.val v.toNat a.toNat = tget false s.pd.awc n.val →
    Answers (exec (.awcChanged t n v a m) s) fun s' => s'.pd = (rtcAdvance s m).pd ∧ still [.pd] s s') ∧
  (∀ (t : Frac) (o : Owner) (v : Word) (b : Bool) (s : State), writeTaken s t o 0x4064 0x36 →
    rb s .pdRetAddr 0 31 = false →
    Answers (exec (.retDataAccess t o (some v) b) s) fun s' =>
      s'.pd = { s.pd with ret := tput 0 s.pd.ret (rf s .pdRetAddr 0 11 0) v } ∧ s'.regs = s.regs ∧
      only [.pd, .hl] s s') ∧
  (∀ (t : Frac) (o : Owner) (v : Word) (b : Bool) (s : State), writeTaken s t o 0x4064 0x36 →
    rb s .pdRetAddr 0 31 = true →
    Answers (exec (.retDataAccess t o (some v) b) s) fun s' =>
      s'.pd = { s.pd with ret := tput 0 s.pd.ret (rf s .pdRetAddr 0 11 0) v } ∧
      rf s' .pdRetAddr 0 11 0 = (rf s .pdRetAddr 0 11 0 + 1) % 4096 ∧ rb s' .pdRetAddr 0 31 = true ∧
      only [.pd, .regs, .hl] s s') ∧
  (∀ (t : Frac) (o : Owner) (s : State), rb s .pdRetAddr 0 31 = false →
    Answers (exec (.retDataAccess t o none false) s) fun s' =>
      s'.out = [.read (tget 0 s.pd.ret (rf s .pdRetAddr 0 11 0))] ∧ ∀ p : Part, p.exact s s') ∧
  (∀ (t : Frac) (o : Owner) (s : State), rb s .pdRetAddr 0 31 = true →
    Answers (exec (.retDataAccess t o none false) s) fun s' =>
      s'.out = [.read (tget 0 s.pd.ret (rf s .pdRetAddr 0 11 0))] ∧
      rf s' .pdRetAddr 0 11 0 = (rf s .pdRetAddr 0 11 0 + 1) % 4096 ∧ rb s' .pdRetAddr 0 31 = true ∧
      ∀ p : Part, p ≠ .regs → p.exact s s') ∧
  (∀ (t : Frac) (o : Owner) (s : State), rb s .pdRetAddr 0 31 = false → evtOpen s 1 →
    Answers (exec (.retDataAccess t o none true) s) fun s' =>
      Out.read 0 ∈ s'.out ∧ raised s t 0x0D08 noUnit (pay [(0, 2, rf s .pdRetAddr 0 11 0)]) s' ∧ only [] s s') ∧
  (∀ (t : Frac) (n : Nat) (s : State), s.pd.oscOk = true → evtOpen s 1 →
    Answers (exec (.rtcOscFail t n) s) fun s' =>
      s'.pd = { (rtcAdvance s n).pd with oscOk := false } ∧
      raised s t 0x0D07 noUnit (pay [(0, 1, 1), (2, 6, (rtcAdvance s n).pd.sec)]) s' ∧ only [.pd] s s') ∧
  (∀ (t : Frac) (n : Nat) (s : State), s.pd.oscOk = false →
    Answers (exec (.rtcRead t n) s) fun s' =>
      s'.pd = { s.pd with osc := s.pd.osc + n, capSec := s.pd.sec / 2 ^ 32, capFrac := s.pd.frac } ∧
      s'.out = [.read (BitVec.ofNat 32 s.pd.sec)] ∧ ∀ p : Part, p ≠ .pd → p.exact s s') ∧
  (∀ (t : Frac) (src : Fin 10) (awc : Fin 8) (g : List (BitVec 16)) (n : Nat) (s : State), s.pd.oscOk = false →
    rb s .pdWakeEn 0 src.val = false →
    Answers (exec (.wakeSource t src awc g n) s) fun s' =>
      s'.pd = { s.pd with osc := s.pd.osc + n } ∧ still [.pd] s s') ∧
  (∀ (t : Frac) (s : State), s.pd.oscOk = false → evtOpen s 1 →
    Answers (exec (.rtcOscRestart t) s) fun s' =>
      s'.pd = { s.pd with oscOk := true, valid := false } ∧
      raised s t 0x0D07 noUnit (pay [(0, 1, 2), (2, 6, s.pd.sec)]) s' ∧ only [.pd] s s')

/-! ## Reset and bring-up -/

/-- The command RESET (R297, R413–R415, R422): a scope begins when no reset is in progress, and a request that a wider
one in progress covers is merged. The model's choices in it: log entry 89. It says where this row completes: reset. -/
def Obligations.ResetCommands : Prop :=
  (∀ (t : Frac) (c : Cmd) (s : State), cmdReady s c 0x0003 [0x38] → fieldsOk c [(0, 3)] = true → c.src = .host →
    pwN c 0 = 0 → s.ct.cur = none →
    Answers (exec (.reset t c) s) fun s' => coldBegun s s' 6 ∧ completed c 0x0003 stOk 0 s s') ∧
  (∀ (t : Frac) (c : Cmd) (s : State), cmdReady s c 0x0003 [0x38] → fieldsOk c [(0, 3)] = true → c.src = .host →
    pwN c 0 = 1 → s.ct.cur = none →
    Answers (exec (.reset t c) s) fun s' =>
      s'.ct.nWarm = inc8 s.ct.nWarm ∧ bitN s'.ct.cause 6 = true ∧ s'.ct.phase = .ctrl ∧ s'.ct.code = s.ct.code ∧
      s'.mx.xp = tmapv Xp.none (fun _ x => freeXp { x with pend := false }) s.mx.xp ∧ s'.mx.queue = [] ∧
      (∀ e r, (eng s e).recipe = some r → (eng s' e).recipe = some r) ∧
      (∀ l, lane s' l = { Lane.off with bad := (lane s l).bad }) ∧ s'.ps = State.reset.ps ∧
      completed c 0x0003 stOk 0 s s') ∧
  (∀ (t : Frac) (c : Cmd) (s : State), cmdReady s c 0x0003 [0x38] → fieldsOk c [(0, 3)] = true → c.src = .host →
    pwN c 0 = 2 → s.ct.cur = none → s.ct.ctlReset = none →
    Answers (exec (.reset t c) s) fun s' => controlBegun s s' 6 ∧ completed c 0x0003 stOk 0 s s') ∧
  (∀ (t : Frac) (c : Cmd) (s : State), cmdReady s c 0x0003 [0x38] → fieldsOk c [(0, 3)] = true → c.src = .host →
    pwN c 0 = 3 → s.ct.cur = none → s.ct.hostReset = none →
    Answers (exec (.reset t c) s) fun s' => hostBegun s s' 6 ∧ completed c 0x0003 stOk 0 s s') ∧
  (∀ (t : Frac) (c : Cmd) (r : Reset) (s : State), cmdReady s c 0x0003 [0x38] → fieldsOk c [(0, 3)] = true →
    s.ct.cur = some r → r.scope ≤ pwN c 0 → (pwN c 0 = 0 → s.ct.phase ≠ .options) →
    Answers (exec (.reset t c) s) fun s' =>
      s'.ct = { s.ct with cur := some { r with merged := inc16 r.merged } } ∧ completed c 0x0003 stOk 0 s s' ∧
      onlyCmd [.ct] s s')

/-- The two-wire RESET (R349): data 0xA0 to 0xA3 starts a reset of the scope at the STOP, any other data is NACKed and
sets LAST_WR to 3, and a sender that does not own SYSTEM is refused. What the start of each scope does is said beside
it. It says where this row completes: twReset. -/
def Obligations.BusReset : Prop :=
  (∀ (t : Frac) (x : TwTx) (v : Byte) (s : State), twReady s = true → busy s = false → entering s = false →
    x.rd = none → x.fin = .stop → x.wr = [v, crc8 [addrByte s false, 0x3F, v]] → 0xA0 ≤ v.toNat → v.toNat ≤ 0xA3 →
    s.pd.st ≠ .standby → owns s .tw 0x38 = true →
    Answers (exec (.twReset t x) s) fun s' =>
      s' = startReset { s with now := t, out := [], tw := { s.tw with lastWr := 0 } } (v.toNat - 0xA0) 7) ∧
  (∀ (t : Frac) (x : TwTx) (v : Byte) (r : Bytes) (s : State), twReady s = true → busy s = false →
    entering s = false → x.rd = none → x.fin ≠ .timeout → x.wr = v :: r → v.toNat < 0xA0 ∨ 0xA3 < v.toNat →
    Answers (exec (.twReset t x) s) fun s' =>
      s'.out = [.twNack 2] ∧ s'.tw = { s.tw with lastWr := 3 } ∧ ∀ p : Part, p ≠ .tw → p.exact s s') ∧
  (∀ (t : Frac) (x : TwTx) (v : Byte) (s : State), twReady s = true → busy s = false → entering s = false →
    x.rd = none → x.fin = .stop → x.wr = [v, crc8 [addrByte s false, 0x3F, v]] → 0xA0 ≤ v.toNat → v.toNat ≤ 0xA3 →
    s.pd.st ≠ .standby → owns s .tw 0x38 = false →
    Answers (exec (.twReset t x) s) fun s' =>
      s'.hl.ownerDropped = inc32 s.hl.ownerDropped ∧ s'.tw.lastWr = 1 ∧ s'.ct = s.ct ∧ only [.hl, .tw] s s') ∧
  (∀ (t : Frac) (x : TwTx) (v : Byte) (s : State), twReady s = true → busy s = false → entering s = false →
    x.rd = none → x.fin = .stop → x.wr = [v, crc8 [addrByte s false, 0x3F, v]] → 0xA0 ≤ v.toNat → v.toNat ≤ 0xA3 →
    s.pd.st = .standby → rb s .pdWakeEn 0 3 = true →
    Answers (exec (.twReset t x) s) fun s' =>
      s'.tw.late = s.tw.late ++ [(0x3F, [v])] ∧ bitN s'.pd.wakeStatus 3 = true ∧ s'.pd.waking.isSome = true ∧
      s'.ct = s.ct) ∧
  (∀ (src : Nat) (s : State), s.ct.cur = none → coldBegun s (startReset s 0 src) src) ∧
  (∀ (src : Nat) (s : State), s.ct.cur = none → s.ct.ctlReset = none → controlBegun s (startReset s 2 src) src) ∧
  (∀ (src : Nat) (s : State), s.ct.cur = none → s.ct.hostReset = none → hostBegun s (startReset s 3 src) src ∧
    (startReset s 3 src).hl.fetched = s.hl.fetched ∧ (startReset s 3 src).hl.orphan = s.hl.fetched.isSome)

/-- The other sources of a reset (R379, R415–R419, R421, R433): each begins its scope, with its source recorded. The
model's choices in it: log entries 10, 86, 88, 89. It says where each of these rows completes: powerOnReset,
supplyMonitorReset, supplyMonitorClear, rstNAssert, rstNRelease, rstNExtensionEnd, perstAssert, perstRelease,
functionLevelReset, watchdogReset, criticalError. -/
def Obligations.ResetSources : Prop :=
  (∀ (t : Frac) (s : State),
    Answers (exec (.powerOnReset t) s) fun s' =>
      s'.mx = State.reset.mx ∧ s'.pd = State.reset.pd ∧ s'.ct = State.reset.ct ∧ s'.regs = State.reset.regs ∧
      s'.hl.scenes = s.hl.scenes ∧ s'.sv.owner = s.sv.owner ∧ s'.sv.fwCtr = s.sv.fwCtr ∧ s'.pending = s.pending) ∧
  (∀ (t : Frac) (s : State), s.pd.st ≠ .sleep → s.ct.cur = none →
    Answers (exec (.supplyMonitorReset t .vcore) s) fun s' => coldBegun s s' 2 ∧ s'.ct.monVcore = true) ∧
  (∀ (t : Frac) (s : State), s.pd.st = .sleep →
    Answers (exec (.supplyMonitorReset t .vioh) s) fun s' => s'.ct = { s.ct with monVioh := true } ∧ still [.ct] s s') ∧
  (∀ (t : Frac) (s : State),
    Answers (exec (.supplyMonitorClear t .vmem) s) fun s' => s'.ct = { s.ct with monVmem := false } ∧ still [.ct] s s') ∧
  (∀ (t : Frac) (s : State), s.ct.rstDriven = false → s.ct.rstExtended = false → rf s .ctRstCfg 0 3 2 = 0 →
    s.ct.cur = none →
    Answers (exec (.rstNAssert t) s) fun s' => coldBegun s s' 3) ∧
  (∀ (t : Frac) (low : Bool) (s : State), s.ct.rstDriven = true → s.ct.phase ≠ .options →
    Answers (exec (.rstNRelease t low) s) fun s' =>
      s'.ct = { s.ct with rstDriven := false, rstExtended := low } ∧
      s'.out = [.pin "RST_N" false] ∧ ∀ p : Part, p ≠ .ct → p.exact s s') ∧
  (∀ (t : Frac) (s : State),
    Answers (exec (.rstNExtensionEnd t) s) fun s' => s'.ct = { s.ct with rstExtended := false } ∧ still [.ct] s s') ∧
  (∀ (t : Frac) (s : State), s.ct.perst = false → perstScope s = 3 → s.ct.cur = none → s.ct.hostReset = none →
    Answers (exec (.perstAssert t) s) fun s' => hostBegun s s' 4 ∧ s'.ct.perst = true) ∧
  (∀ (t : Frac) (n : Nat) (s : State), s.pd.st = .active → s.pd.entry = none →
    Answers (exec (.perstRelease t n) s) fun s' =>
      s'.ct = { s.ct with perst := false } ∧ s'.pd = { (rtcAdvance s n).pd with wakeN := false } ∧
      s'.hl = { s.hl with pmeWake := false } ∧
      s'.out = (if s.pd.wakeN || s.hl.pmeWake then [.pin "WAKE_N" false] else []) ∧
      ∀ p : Part, p ≠ .ct → p ≠ .pd → p ≠ .hl → p.exact s s') ∧
  (∀ (t : Frac) (n : Nat) (s : State), s.pd.st = .sleep → s.pd.entry = none → s.pd.waking = none →
    rb s .pdWakeEn 0 0 = true →
    Answers (exec (.perstRelease t n) s) fun s' =>
      s'.ct.phase = .ctrl ∧ s'.ct.nCold = inc8 s.ct.nCold ∧ bitN s'.pd.wakeStatus 0 = true ∧ s'.pd.st = .active) ∧
  (∀ (t : Frac) (s : State), s.ct.cur = none → s.ct.hostReset = none →
    Answers (exec (.functionLevelReset t) s) fun s' => hostBegun s s' 5) ∧
  (∀ (t : Frac) (n : Nat) (s : State), s.sv.fwRun ≠ .trial → (wdtWindow (rtcAdvance s n)).length < 4 →
    s.ct.cur = none → s.ct.ctlReset = none →
    Answers (exec (.watchdogReset t n) s) fun s' =>
      controlBegun (rtcAdvance (atT s t) n) s' 8 ∧ s'.ct.wdtResets = inc16 s.ct.wdtResets ∧
      s'.ct.wdtTimes = wdtWindow (rtcAdvance s n)) ∧
  (∀ (t : Frac) (n : Nat) (s : State), s.sv.fwRun ≠ .trial → 4 ≤ (wdtWindow (rtcAdvance s n)).length →
    s.ct.cur = none →
    Answers (exec (.watchdogReset t n) s) fun s' =>
      s'.ct.nWarm = inc8 s.ct.nWarm ∧ bitN s'.ct.cause 8 = true ∧ s'.ct.phase = .ctrl ∧
      s'.ct.wdtEsc = inc8 s.ct.wdtEsc ∧ s'.ct.wdtResets = inc16 s.ct.wdtResets) ∧
  (∀ (t : Frac) (w : BitVec 16) (s : State), s.ct.cur = none →
    Answers (exec (.criticalError t 1 w) s) fun s' =>
      coldBegun s s' 9 ∧ s'.ct.eccCount = inc8 s.ct.eccCount ∧ s'.ct.eccRegion = 1 ∧ s'.ct.eccWord = w.toNat) ∧
  (∀ (t : Frac) (w : BitVec 16) (s : State), s.ct.cur = none → s.ct.ctlReset = none → s.hl.evt.en = true → evtOpen s 1 →
    Answers (exec (.criticalError t 5 w) s) fun s' =>
      s'.ct.nControl = inc8 s.ct.nControl ∧ bitN s'.ct.cause 9 = true ∧ s'.mx = s.mx ∧
      raised s t 0x0E03 noUnit (pay [(0, 1, 5), (2, 2, w.toNat), (4, 1, inc8 s.ct.eccCount)]) s')

/-- Bring-up (R424–R434): the option results and the role, the core voltage code, the Larder's step, the first strobe
with FN 0, and RESET_DONE at its end. The model's choices in it: log entries 8, 10, 86, 103. It says where each of
these rows completes: optionLoadingDone, bringupCtrlUp, bringupLarderDone, bringupClkUp, bringupHostUp. -/
def Obligations.BringUp : Prop :=
  (∀ (o : Options) (k : Nat), k ≤ 15 → 10000 * k + 1500 ≤ o.ohms → o.ohms + 1500 ≤ 10000 * (k + 1) →
    cfgCode o = k ∧ cfgRange o = 0) ∧
  (∀ (t : Frac) (o : Options) (s : State), s.ct.phase = .options → 1500 ≤ o.ohms → o.ohms ≤ 170000 →
    Answers (exec (.optionLoadingDone t o) s) fun s' =>
      s'.ct = { s.ct with phase := .ctrl, code := cfgCode o, range := 0, fuseOk := o.fuseOk, trimOk := o.trimOk } ∧
      s'.pl.role = (if cfgCode o / 4 = 1 then 1 else if cfgCode o / 4 = 2 then 2 else 0) ∧ still [.ct, .pl] s s') ∧
  (∀ (t : Frac) (o : Options) (s : State), s.ct.phase = .options → o.ohms < 1500 →
    Answers (exec (.optionLoadingDone t o) s) fun s' =>
      s'.ct.code = 0 ∧ s'.ct.range = 1 ∧ s'.pl.role = 0 ∧
      { code := 0x0E02, unit := noUnit, fn := 0, frac := 0, payload := pay [(0, 1, 1), (1, 1, 0)] } ∈ s'.hl.held) ∧
  (∀ (t : Frac) (c : Bool) (s : State), pastT1 s = true → s.pd.twWake = 0 → s.sv.journal = none →
    Answers (exec (.bringupCtrlUp t c) s) fun s' =>
      s'.ct = { s.ct with phase := .larder } ∧ s'.vc = { s.vc with level := fusedLevel s } ∧
      s'.out = [.vid (fusedLevel s)] ∧
      s'.tw = (if s.vc.mute then s.tw else { s.tw with vmsg := some (fusedLevel s) }) ∧
      ∀ p : Part, p ∉ [.ct, .vc, .ai, .aq, .tw] → p.exact s s') ∧
  (∀ (t : Frac) (c : Bool) (slot : Nat) (d : Bytes) (s : State), pastT1 s = true → s.pd.twWake = 0 →
    s.sv.journal = some (.scene slot d) → littleWorn s [] → evtOpen s 1 →
    Answers (exec (.bringupCtrlUp t c) s) fun s' =>
      sceneOf s' slot = (if c then d else sceneOf s slot) ∧ (∀ j, j ≠ slot → sceneOf s' j = sceneOf s j) ∧
      s'.sv.journal = none ∧ raised s t 0x0C12 noUnit (pay [(0, 1, if c then 2 else 3), (1, 1, 6)]) s') ∧
  (∀ (t : Frac) (x : LarderIn) (k : Nat × Nat) (s : State), s.ct.phase = .larder → s.ct.ctlReset = some k →
    s.ct.rstExtended = false → monitorsClear s = true → x.failing = none → s.ct.fuseOk = true →
    slotGood (larderRead s t x) x s.sv.slotB = true → s.ct.code / 4 ≠ 3 → s.sv.fell = 0 → evtOpen (larderRead s t x) 1 →
    Answers (exec (.bringupLarderDone t x) s) fun s' =>
      s'.ct.phase = .done ∧ s'.ct.ctlReset = none ∧ s'.sv = verified (larderRead s t x) ∧
      raised s t 0x0E01 noUnit (pay [(0, 1, 2), (1, 1, k.1), (2, 2, k.2), (4, 4, x.us.toNat),
        (8, 1, s.pd.backup31)]) s' ∧
      only [.ct, .sv] (larderRead s t x) s') ∧
  (∀ (t : Frac) (x : LarderIn) (s : State), s.ct.phase = .larder → s.ct.ctlReset = none → x.failing = none →
    monitorsClear s = true → s.ct.fuseOk = true → slotGood (larderRead s t x) x s.sv.slotB = true → s.ct.code / 4 ≠ 3 →
    Answers (exec (.bringupLarderDone t x) s) fun s' =>
      s'.ct = { s.ct with phase := .clk, noFw := false } ∧ s'.ps.ready = true ∧
      s'.sv = verified (larderRead s t x) ∧ s'.fr = s.fr ∧ s'.mx = s.mx) ∧
  (∀ (t : Frac) (x : LarderIn) (b : Byte) (s : State), s.ct.phase = .larder → s.ct.ctlReset = none →
    monitorsClear s = true → x.failing = some b → evtOpen (larderRead s t x) 1 →
    Answers (exec (.bringupLarderDone t x) s) fun s' =>
      s'.sv.larderOk = false ∧ raised s t 0x0C12 noUnit (pay [(0, 1, 1), (1, 1, b.toNat)]) s') ∧
  (∀ (x : StrobeIn) (s : State), s.ct.phase = .clk → monitorsClear s = true →
    Answers (exec (.bringupClkUp (.up x)) s) fun s' =>
      s'.ct = { s.ct with phase := .host } ∧ s'.fr.running = true ∧ s'.fr.fn = 0 ∧ domOn s' 7 = true ∧ s'.sv = s.sv) ∧
  (∀ (s : State), s.ct.phase = .clk → monitorsClear s = true → evtOpen s 1 →
    Answers (exec (.bringupClkUp .fault) s) fun s' =>
      s'.ct = { s.ct with phase := .host } ∧ s'.pd = { s.pd with pgFaults := inc16 s.pd.pgFaults } ∧
      raised s 0 0x0D04 7 (pay [(0, 2, inc16 s.pd.pgFaults)]) s' ∧ only [.ct, .pd] s s') ∧
  (∀ (s : State), s.ct.phase = .clk → monitorsClear s = true → evtOpen s 1 →
    Answers (exec (.bringupClkUp .xtalFail) s) fun s' =>
      s'.ct = { s.ct with phase := .host } ∧ s'.ck = { s.ck with xtalOk := false } ∧
      raised s 0 0x080A noUnit (pay [(0, 1, 1)]) s' ∧ only [.ct, .ck] s s') ∧
  (∀ (t : Frac) (us : Word) (r : Reset) (s : State), s.ct.cur = some r → s.ct.phase = .host → r.scope = 0 →
    monitorsClear s = true → s.sv.fell = 0 →
    Answers (exec (.bringupHostUp t us) s) fun s' =>
      s'.ct = { s.ct with cur := none, phase := .done } ∧
      s'.hl.held.head? = some ((s.hl.held.filter (·.code == 0x0E01)).headD
        { code := 0x0E01, unit := noUnit, fn := 0, frac := 0,
          payload := pay [(0, 1, r.scope), (1, 1, r.src), (2, 2, r.merged), (4, 4, us.toNat), (8, 1, s.pd.backup31)] }) ∧
      only [.ct, .hl] s s') ∧
  (∀ (t : Frac) (us : Word) (k : Nat × Nat) (s : State), s.ct.cur = none → s.ct.hostReset = some k →
    s.ct.rstExtended = false → evtOpen s 1 →
    Answers (exec (.bringupHostUp t us) s) fun s' =>
      s'.ct = { s.ct with hostReset := none } ∧
      raised s t 0x0E01 noUnit
        (pay [(0, 1, 3), (1, 1, k.1), (2, 2, k.2), (4, 4, us.toNat), (8, 1, s.pd.backup31)]) s' ∧ only [.ct] s s')

/-! ## The redundant pair -/

/-- PL_CONTROL (R439, R440, R446): an operation that this module's pair state accepts is held for the peer's answer
and completes; one that it does not accept is refused; at its boundary it moves the pair state. The model's choices in
it: log entry 84. It says where each of these rows completes: plPair, plUnpair, plFailover, plResume. -/
def Obligations.PairControl : Prop :=
  (∀ (t : Frac) (c : Cmd) (s : State), cmdReady s c 0x0090 [0x38] → fieldsOk c [(0, 0xF)] = true → pwN c 0 = 1 →
    s.pl.st = .ready → peerReady s = true → s.sv.auth = .authenticated →
    Answers (exec (.plPair t c) s) fun s' =>
      s'.pl = (holdMirror s c.src (.pair 1) none).pl ∧ completed c 0x0090 stOk (bindTo s) s s' ∧ onlyCmd [.pl] s s') ∧
  (∀ (t : Frac) (c : Cmd) (s : State), cmdReady s c 0x0090 [0x38] → fieldsOk c [(0, 0xF)] = true → pwN c 0 = 2 →
    s.pl.st = .paired ∨ s.pl.st = .sync ∨ s.pl.st = .peerLost → s.sv.auth = .authenticated →
    Answers (exec (.plUnpair t c) s) fun s' =>
      s'.pl = (holdMirror s c.src (.pair 2) none).pl ∧ completed c 0x0090 stOk (bindTo s) s s' ∧ onlyCmd [.pl] s s') ∧
  (∀ (t : Frac) (c : Cmd) (s : State), cmdReady s c 0x0090 [0x38] → fieldsOk c [(0, 0xF)] = true → pwN c 0 = 3 →
    s.pl.st = .paired → s.sv.auth = .authenticated →
    Answers (exec (.plFailover t c) s) fun s' =>
      s'.pl = (holdMirror s c.src (.pair 3) none).pl ∧ completed c 0x0090 stOk (bindTo s) s s' ∧ onlyCmd [.pl] s s') ∧
  (∀ (t : Frac) (c : Cmd) (s : State), cmdReady s c 0x0090 [0x38] → fieldsOk c [(0, 0xF)] = true →
    pwN c 0 = 4 → s.pl.st = .paired ∨ (s.pl.st = .peerLost ∧ peerReady s = true) → s.sv.auth = .authenticated →
    Answers (exec (.plResume t c) s) fun s' =>
      s'.pl = (holdMirror s c.src (.pair 4) none).pl ∧ completed c 0x0090 stOk (bindTo s) s s' ∧ onlyCmd [.pl] s s') ∧
  (∀ (t : Frac) (c : Cmd) (s : State), cmdReady s c 0x0090 [0x38] → fieldsOk c [(0, 0xF)] = true → pwN c 0 = 3 →
    s.pl.st ≠ .paired →
    Answers (exec (.plFailover t c) s) fun s' => completed c 0x0090 stPairState noIndex s s' ∧ onlyCmd [] s s') ∧
  (∀ (s : State), s.pl.st = .ready →
    (applyPair s 1).pl.st = .sync ∧ (applyPair s 1).pl.fault = false ∧ (applyPair s 1).mx = s.mx ∧
      (s.pl.role = 1 → peerDrives s = true → (applyPair s 1).pl.driving = false)) ∧
  (∀ (s : State), s.pl.st = .sync → (applyPair s 5).pl = { s.pl with st := .paired, copying := false }) ∧
  (∀ (c : Nat) (s : State), s.pl.st = .paired ∨ s.pl.st = .peerLost ∨ s.pl.st = .ready → c ∈ sharedCh s →
    s.pl.hb.any (fun h => bitN h.live.toNat c) = true → bitN (liveMask s) c = true →
    (spCh (applyPair s 4) c).solo = false) ∧
  (∀ (s : State), s.pl.st ≠ .sync → s.pl.st ≠ .paired → s.pl.st ≠ .peerLost → applyPair s 2 = s)

/-- The Strellin link (R382, R436, R439): it comes up and the Larders authenticate, it goes down, and its delay is
measured. Heartbeats and packets (R383, R437, R443, R446, R450): a packet whose tag fails is counted and discarded; a
heartbeat of 64 bytes that is taken sets what is due next; a missed one is counted, and the second in a row loses the
peer. The model's choices in it: log entries 3, 82, 83. It says where each of these rows completes: strellinChanged,
linkDelayMeasure, pairPacket, heartbeatMissed. -/
def Obligations.LinkAndHeartbeats : Prop :=
  (∀ (t : Frac) (l : BitVec 2) (s : State), s.pl.lanes = 0 → l.toNat ≠ 0 → s.pl.st = .linkDown → evtOpen s 2 →
    Answers (exec (.strellinChanged t l) s) fun s' =>
      s'.pl = { s.pl with lanes := l.toNat, seqIn := 0, acked := 0, answers := [], st := .auth } ∧
      s'.sv = { s.sv with auth := .handshaking, own := s'.sv.own, peer := none, timedOut := false } ∧ helloOut s s' ∧
      raised s t 0x0F08 noUnit (pay [(0, 1, l.toNat), (2, 2, s.pl.delay)]) s' ∧ only [.pl, .sv] s s') ∧
  (∀ (t : Frac) (s : State), s.pl.lanes ≠ 0 → s.pl.st = .ready → evtOpen s 2 →
    Answers (exec (.strellinChanged t 0) s) fun s' =>
      s'.pl = { s.pl with lanes := 0, linkDowns := inc16 s.pl.linkDowns, st := .linkDown } ∧
      s'.sv = { s.sv with auth := .idle, peer := none, timedOut := false } ∧
      raised s t 0x0F08 noUnit (pay [(0, 1, 0), (2, 2, s.pl.delay)]) s' ∧ only [.pl, .sv] s s') ∧
  (∀ (t : Frac) (d : BitVec 16) (s : State), s.pl.lanes ≠ 0 →
    Answers (exec (.linkDelayMeasure t d) s) fun s' =>
      s'.pl = { s.pl with delay := d.toNat } ∧ still [.pl] s s') ∧
  (∀ (t : Frac) (p : Packet) (s : State), s.sv.auth = .authenticated → p.tagOk = false →
    Answers (exec (.pairPacket t p) s) fun s' =>
      s'.sv = { s.sv with tagFails := inc8 s.sv.tagFails } ∧ still [.sv] s s') ∧
  (∀ (t : Frac) (p : Packet) (s : State), s.sv.auth ≠ .authenticated →
    Answers (exec (.pairPacket t p) s) fun s' => still [] s s') ∧
  (∀ (t : Frac) (p : Packet) (s : State), s.sv.auth = .authenticated → p.tagOk = true → p.answers = [] →
    p.items = [] → s.pl.st = .sync → s.pl.due ≤ (heartbeatAt p.hb).pfn.toNat →
    bitN (heartbeatAt p.hb).flags.toNat 1 = false →
    Answers (exec (.pairPacket t p) s) fun s' =>
      s'.pl.hb = some (heartbeatAt p.hb) ∧ s'.pl.due = (heartbeatAt p.hb).pfn.toNat + 1 ∧ s'.pl.missRun = 0 ∧
      s'.pl.inp = (if (heartbeatAt p.hb).pfn.toNat = pfnNow s' then p.inputs else s.pl.inp) ∧
      s'.pl.acked = (heartbeatAt p.hb).ack.toNat ∧ s'.pl.st = .sync ∧ s'.pl.mine = s.pl.mine ∧ s'.pl.peerBits = p.peerBits.toNat ∧
      s'.sv = { s.sv with rxSeq := p.seq.toNat + 1 } ∧ still [.pl, .sv] s s') ∧
  (∀ h : Heartbeat, heartbeatAt (heartbeatBytes h) = h) ∧
  (∀ (t : Frac) (p : Packet) (m : Mirror) (i : BitVec 48) (s : State), s.sv.auth = .authenticated → p.tagOk = true →
    s.pl.st = .sync → s.pl.due ≤ (heartbeatAt p.hb).pfn.toNat → bitN (heartbeatAt p.hb).flags.toNat 1 = false →
    m.seq < 2 ^ 32 →
    p.answers = [(BitVec.ofNat 32 m.seq, 0, i)] → p.items = [] → s.pl.mine = [m] → m.meet = none →
    (∀ q, m.item ≠ .commit q) →
    Answers (exec (.pairPacket t p) s) fun s' =>
      s'.pl.mine = [] ∧ s'.fr = { s.fr with staged := s.fr.staged ++
        [{ owner := m.owner, bound := fnOf s' (i.toNat + 2), item := m.item, at_ := frTime (atT s t) }] } ∧
      still [.pl, .fr, .sv] s s') ∧
  (∀ (t : Frac) (n : BitVec 48) (s : State), pairRuns s = true → s.pl.due ≤ n.toNat → s.pl.missRun = 0 → evtOpen s 1 →
    Answers (exec (.heartbeatMissed t n) s) fun s' =>
      s'.pl = { s.pl with missed := inc16 s.pl.missed, missRun := 1, due := n.toNat + 1 } ∧
      raised s t 0x0F03 noUnit (pay [(0, 6, n.toNat), (8, 2, inc16 s.pl.missed)]) s' ∧ only [.pl] s s') ∧
  (∀ (t : Frac) (n : BitVec 48) (s : State), pairRuns s = true → s.pl.due ≤ n.toNat → 1 ≤ s.pl.missRun →
    s.pl.loss = none → evtOpen s 1 →
    Answers (exec (.heartbeatMissed t n) s) fun s' =>
      s'.pl.loss = some (1, if s.pl.role = 1 then 1 else 0) ∧ s'.pl.missed = inc16 s.pl.missed ∧
      raised s t 0x0F03 noUnit (pay [(0, 6, n.toNat), (8, 2, inc16 s.pl.missed)]) s' ∧ only [.pl] s s')

/-- SYNC, the rendezvous, the failover pin and peer resets (R419, R442, R447, R451, R455, R462). The model's choices
in it: log entries 81, 84. It says where each of these rows completes: syncCheckRetry, syncCopyDone,
rendezvousTimeout, relayDelayExpiry, failoverPinLow, failoverPinHigh, peerResetSend, peerResetRequest. -/
def Obligations.SyncAndFailover : Prop :=
  (∀ (t : Frac) (v : PeerView) (s : State), s.pl.st = .sync → s.pl.role = 1 → s.pl.copying = false →
    syncFault s v = none →
    Answers (exec (.syncCheckRetry t v) s) fun s' => s'.pl = { s.pl with copying := true } ∧
      s'.out = [.copy (copyOf s)] ∧ ∀ p : Part, p ≠ .pl → p.exact s s') ∧
  (∀ (t : Frac) (v : PeerView) (r : Nat × Nat) (s : State), s.pl.st = .sync → s.pl.role = 1 → s.pl.copying = false →
    syncFault s v = some r → evtOpen s 1 →
    Answers (exec (.syncCheckRetry t v) s) fun s' =>
      raised s t 0x0F07 noUnit (pay [(0, 1, r.1), (1, 1, r.2)]) s' ∧ only [] s s') ∧
  (∀ (t : Frac) (x : SyncCopy) (s : State), s.pl.st = .sync → s.pl.role = 1 → s.pl.copying = true →
    Answers (exec (.syncCopyDone t x) s) fun s' =>
      s'.pl = { s.pl with copying := false } ∧ s'.fr = { s.fr with staged := s.fr.staged ++
        [{ owner := .peer, bound := bindTo s, item := .pair 5, at_ := frTime (atT s t) }] } ∧ still [.pl, .fr] s s') ∧
  (∀ (t : Frac) (q : Word) (m : Mirror) (op : Nat) (s : State), s.pl.mine = [m] → m.seq = q.toNat →
    m.meet.isSome = true → m.item = .pair op → evtOpen s 1 →
    Answers (exec (.rendezvousTimeout t q) s) fun s' =>
      s'.pl = { s.pl with mine := [] } ∧
      raised s t 0x0F06 noUnit (pay [(0, 4, q.toNat), (4, 1, 2), (6, 2, 0)]) s' ∧ only [.pl] s s') ∧
  (∀ (t : Frac) (s : State),
    Answers (exec (.relayDelayExpiry t) s) fun s' => s'.pl = { s.pl with relayWait := false } ∧ still [.pl] s s') ∧
  (∀ (t : Frac) (s : State),
    Answers (exec (.failoverPinLow t) s) fun s' => s'.pl = { s.pl with pinLow := true } ∧ still [.pl] s s') ∧
  (∀ (t : Frac) (s : State),
    Answers (exec (.failoverPinHigh t) s) fun s' => s'.pl = { s.pl with pinLow := false } ∧ still [.pl] s s') ∧
  (∀ (t : Frac) (o : Owner) (v : Word) (s : State), writeTaken s t o 0x78018 0x38 → bit v 31 = true →
    fld v 1 0 ≠ 0 → fld v 1 0 ≠ 3 → s.pl.lanes ≠ 0 → s.sv.auth = .authenticated → evtOpen s 2 →
    Answers (exec (.peerResetSend t o v) s) fun s' =>
      Out.peerReset (fld v 1 0) ∈ s'.out ∧
      raised s t 0x0F0B noUnit (pay [(0, 1, 1), (1, 1, fld v 1 0)]) s' ∧ only [.hl] s s') ∧
  (∀ (t : Frac) (o : Owner) (v : Word) (s : State), writeTaken s t o 0x78018 0x38 →
    s.pl.lanes = 0 ∨ s.sv.auth ≠ .authenticated →
    Answers (exec (.peerResetSend t o v) s) (only [.hl] s)) ∧
  (∀ (t : Frac) (s : State), s.sv.auth = .authenticated → owns s .peer 0x38 = true → s.ct.cur = none → evtOpen s 1 →
    Answers (exec (.peerResetRequest t 1) s) fun s' =>
      raised s t 0x0F0B noUnit (pay [(0, 1, 2), (1, 1, 1)]) s' ∧ s'.ct.nWarm = inc8 s.ct.nWarm ∧
      bitN s'.ct.cause 0x0A = true ∧ s'.ct.phase = .ctrl) ∧
  (∀ (t : Frac) (n : BitVec 2) (s : State), s.sv.auth ≠ .authenticated → evtOpen s 2 →
    Answers (exec (.peerResetRequest t n) s) fun s' =>
      raised s t 0x0F0B noUnit (pay [(0, 1, 3), (1, 1, n.toNat)]) s' ∧ s'.ct = s.ct ∧ only [.hl] s s')

/-! ## The balls -/

/-- What the balls show from the assertion of a COLD or WARM reset and until a write configures them (R432, R469),
what the balls of a switched domain show while it is off (R207, R396), what clocks and inputs show in use (R172, R182,
R257, R258), and how many balls the nets of R468 have. The model's choices in it: log entries 102, 108. -/
def Obligations.BallsShown : Prop :=
  (∀ (s : State) (c : Reset), s.ct.cur = some c → shuntsLost s = false →
    (∀ n, ballState s (.bridge n) = .switchesOff) ∧ (∀ d, ballState s (.gate d) = .gateHeld) ∧
    (∀ o, ballState s (.output o) = .shunted) ∧ (∀ b, ballState s (.micBias b) = .highZ) ∧
    ballState s .chargePump = .stopped ∧ ballState s .pcie = .idle ∧ ballState s .strellin = .idle ∧
    (∀ p, ballState s (.bclk p) = .highZ) ∧ (∀ p, ballState s (.fs p) = .highZ) ∧
    (∀ p, ballState s (.din p) = .highZ) ∧ (∀ p, ballState s (.dout p) = .highZ) ∧
    (∀ k, ballState s (.pdmClk k) = .highZ) ∧ (∀ k, ballState s (.mclkOut k) = .highZ) ∧
    (∀ k, ballState s (.fpOut k) = .highZ) ∧ (∀ i, ballState s (.smux i) = .highZ) ∧
    ballState s .snsRef = .highZ ∧ ballState s .failover = .released ∧ ballState s .clkreq = .input ∧
    ballState s .twAlert = .released ∧ (∀ n, ballState s (.ain n) = .noLoad) ∧ ballState s .sns = .noLoad ∧
    ballState s .pdmData = .noLoad ∧ (∀ r, ballState s (.refIn r) = .noLoad) ∧
    ballState s .cfgSel = if s.ct.phase = .options then .sources else .highZ) ∧
  (∀ (s : State) (k : Fin 2), s.ai.pdmConf = false → ballState s (.pdmClk k) = .highZ) ∧
  (∀ (s : State) (k : Fin 4), s.ai.biasConf = false → ballState s (.micBias k) = .highZ) ∧
  (∀ (s : State) (k : Fin 2), s.ck.mclkConf = false → ballState s (.mclkOut k) = .highZ) ∧
  (∀ (s : State) (k : Fin 2), tget false s.ck.fpConf k.val = false → ballState s (.fpOut k) = .highZ) ∧
  (∀ s : State, domOn s domAIN = false → (∀ n, ballState s (.ain n) = .noLoad) ∧
    (∀ b, ballState s (.micBias b) = .highZ) ∧ (∀ i, ballState s (.smux i) = .highZ) ∧
    (∀ k, ballState s (.pdmClk k) = .highZ)) ∧
  (∀ (s : State) (o : Fin 24), domOn s domAOUT = false → shuntsLost s = false →
    ballState s (.output o) = .shunted) ∧
  (∀ (s : State) (o : Fin 24), shuntsLost s = true → ballState s (.output o) = .highZ) ∧
  (∀ s : State, domOn s domPORT = false → (∀ p, ballState s (.bclk p) = .highZ) ∧
    (∀ p, ballState s (.dout p) = .highZ)) ∧
  (∀ s : State, domOn s domCLK = false → s.ct.cur = none → s.pd.st = .active ∨ s.pd.st = .quiet →
    ballState s .strellin = .highZ ∧ ∀ k, ballState s (.mclkOut k) = .highZ) ∧
  (∀ s : State, domOn s 0 = false → ballState s .pcie = .idle) ∧
  (∀ (s : State) (n : Fin 16), domOn s domAIN = true → s.ct.cur = none → (aiCh s n.val).st ≠ .precharge →
    ballState s (.ain n) = .biased (if rb s .aiChCfg n.val 30 then 1500 else 10000)) ∧
  (∀ (s : State) (k : Fin 2), domOn s domAIN = true → s.ct.cur = none → s.ai.pdmConf = true →
    ballState s (.pdmClk k) =
      if (tget PdmClock.reset s.ai.clk k.val).run then .clock (pdmHz (tget PdmClock.reset s.ai.clk k.val).sel s.fr.rate)
      else .low) ∧
  (∀ s : State, s.pd.st = .standby → ballState s .wake = .released) ∧
  (ballCount isSignal = 396 ∧ ballCount (· == .vcore) = 209 ∧ ballCount (· == .dgnd) = 320 ∧
    ballCount (· == .pgndA) = 67 ∧ ballCount (· == .pvddA) = 56 ∧ ballCount (· == .agnd) = 80 ∧
    ballCount (· == .vgate) = 38)

/-! ## The queue, the checks shared by commands, and the invariants -/

/-- A step takes the command at the front of the queue and runs it on the state with the queue's rest; on an empty
queue the block idles (the model's choice, log entry 1). -/
def Obligations.StepRunsFront : Prop :=
  (∀ (c : Instr) (r : List Instr) (s : State), s.pending = c :: r → step s = exec c { s with pending := r }) ∧
  (∀ s : State, s.pending = [] → step s = .next s)

/-- No command stops the block or touches the queue: every command answers a next state from every state, and a queue
of commands is run whole, first in, first out, each command on what the one before it left. The model's choices in it:
log entries 1, 3, 9. -/
def Obligations.QueueRunsInOrder : Prop :=
  (∀ (c : Instr) (s : State), ∃ t, exec c s = .next t ∧ t.pending = s.pending) ∧
  (∀ (l : List Instr) (s : State), s.pending = l → Host.Core.run core l.length s = runAll l s) ∧
  (∀ (l : List Instr) (s : State), s.pending = l → ∃ t, runAll l s = .next t ∧ t.pending = [])

/-- FN stays a 48-bit counter whose next value is known while strobes run (R7), over every step. The model's choices
in it: log entry 1. -/
def Obligations.FrameNumberInvariant : Prop :=
  ∀ s t : State, FnOk s → step s = .next t → FnOk t

/-- The two-wire queue stays within its 64 records (R351), LAST_WR stays a code of R344, and the 64 KiB buffer (R347)
stays in its canonical form, over every step. The model's choices in it: log entry 13. -/
def Obligations.BusInvariant : Prop :=
  ∀ s t : State, BusOk s → step s = .next t → BusOk t

/-- The state after reset: no command waits, no strobe runs, FN is 0, every register holds its reset value, rings and
stream contexts are disabled, no engine holds a recipe, channels are OFF, the crosspoint table and the two-wire queue
empty; both invariants hold. The model's choices in it: log entries 10, 11, 12, 13. -/
def Obligations.ResetState : Prop :=
  State.reset.pending = [] ∧ State.reset.fr.fn = 0 ∧ State.reset.fr.running = false ∧
  (∀ n k, reg State.reset n k = regReset n k) ∧ State.reset.mx.xp = [] ∧ State.reset.mx.queue = [] ∧
  (∀ e, (eng State.reset e).recipe = none) ∧ (∀ c, (psCh State.reset c).st = .off) ∧
  (∀ o, (outp State.reset o).st = .shunted) ∧ (∀ k, (ctx State.reset k).st = .disabled) ∧
  State.reset.hl.cmd.en = false ∧ State.reset.hl.cmp.en = false ∧ State.reset.hl.evt.en = false ∧
  State.reset.hl.locked = false ∧ State.reset.tw.queue = [] ∧ FnOk State.reset ∧ BusOk State.reset

/-- The setup lock (R305): the first SETUP_LOCK locks and is reported, a second changes nothing; a write of a locked
field is discarded without a count; COLD and WARM resets clear the lock, CONTROL and HOST resets leave it. It says
where each of these rows completes: setupLock, registerWrite, ctVidWrite. -/
def Obligations.SetupLock : Prop :=
  (∀ (t : Frac) (c : Cmd) (s : State), cmdReady s c 0x0002 [0x38] → fieldsOk c [] = true → s.hl.locked = false →
    evtOpen s 1 →
    Answers (exec (.setupLock t c) s) fun s' =>
      s'.hl.locked = true ∧ raised s t 0x0A06 noUnit 0 s' ∧ completed c 0x0002 stOk 0 s s' ∧ onlyCmd [.hl] s s') ∧
  (∀ (t : Frac) (c : Cmd) (s : State), cmdReady s c 0x0002 [0x38] → fieldsOk c [] = true → s.hl.locked = true →
    Answers (exec (.setupLock t c) s) fun s' => completed c 0x0002 stOk 0 s s' ∧ onlyCmd [] s s') ∧
  (∀ (t : Frac) (o : Owner) (off : BitVec 21) (d : BitVec 64) (s : State), s.hl.locked = true → held s = false →
    owns s o 0x38 = true → off.toNat = regOff .ctRstCfg 0 ∨ off.toNat = regOff .ctVid 0 →
    Answers (exec (.registerWrite t o { bar2 := false, wide := false, off := off, be := 0x0F, data := d }) s)
      fun s' => s'.tw = { s.tw with lastWr := if o = .tw then 0 else s.tw.lastWr } ∧ still [.tw] s s') ∧
  (∀ (t : Frac) (g : Fin 0x3A) (off : BitVec 21) (d : BitVec 64) (s : State), s.hl.locked = true → held s = false →
    off.toNat = regOff .hlOwner g.val →
    Answers (exec (.registerWrite t .host { bar2 := false, wide := false, off := off, be := 0x0F, data := d }) s)
      fun s' => still [] s s') ∧
  (∀ (t : Frac) (o : Owner) (v : Word) (r : CtlResult) (s : State), s.hl.locked = true → held s = false →
    owns s o 0x38 = true → Answers (exec (.ctVidWrite t o v r) s) fun s' => still [] s s') ∧
  (∀ (scope src : Nat) (s : State), s.ct.cur = none → scope < 2 → (startReset s scope src).hl.locked = false) ∧
  (∀ (scope src : Nat) (s : State), s.ct.cur = none → 2 ≤ scope → (startReset s scope src).hl.locked = s.hl.locked)

/-- The checks that every Hepex command shares, in their order (R297, R303, R431): in recovery a command outside the
list of R431 completes with BAD_OPCODE; one from a sender that does not own every group it touches completes with
NOT_OWNER and is counted; one with a bad field completes with BAD_PARAM. None of them has any other effect, and a row
whose command the processor does not have in hand has none at all (the model's choice, log entry 99). The model's
choices in it: log entries 24, 99. It says where this row completes: setupLock. -/
def Obligations.CommandChecks : Prop :=
  (∀ (t : Frac) (op : Nat) (c : Cmd) (gs : List Nat) (u : PwUse) (ok : Bool) (k : State → Nat → State) (s : State),
    inHand s op c = true → answerable s c → s.ct.phase = .recovery → op ∉ recoveryOps →
    Answers (runCmd s t op c gs u ok k) fun s' => completed c op stBadOpcode noIndex s s' ∧ onlyCmd [] s s') ∧
  (∀ (t : Frac) (op g : Nat) (c : Cmd) (gs : List Nat) (u : PwUse) (ok : Bool) (k : State → Nat → State) (s : State),
    inHand s op c = true → answerable s c → s.ct.phase ≠ .recovery → g ∈ gs → owns s c.src g = false →
    Answers (runCmd s t op c gs u ok k) fun s' =>
      completed c op stNotOwner noIndex s s' ∧ s'.hl.ownerDropped = inc32 s.hl.ownerDropped ∧ onlyCmd [.hl] s s') ∧
  (∀ (t : Frac) (op : Nat) (c : Cmd) (gs : List Nat) (u : PwUse) (ok : Bool) (k : State → Nat → State) (s : State),
    inHand s op c = true → answerable s c → s.ct.phase ≠ .recovery → (∀ g ∈ gs, owns s c.src g = true) →
    fieldsOk c u = false ∨ ok = false →
    Answers (runCmd s t op c gs u ok k) fun s' => completed c op stBadParam noIndex s s' ∧ onlyCmd [] s s') ∧
  (∀ (t : Frac) (c : Cmd) (s : State), inHand s 0x0002 c = true → answerable s c → s.ct.phase ≠ .recovery →
    owns s c.src 0x38 = false →
    Answers (exec (.setupLock t c) s) fun s' =>
      completed c 0x0002 stNotOwner noIndex s s' ∧ s'.hl.locked = s.hl.locked ∧ onlyCmd [.hl] s s') ∧
  (∀ (t : Frac) (op : Nat) (c : Cmd) (gs : List Nat) (u : PwUse) (ok : Bool) (k : State → Nat → State) (s : State),
    inHand s op c = false → Answers (runCmd s t op c gs u ok k) fun s' => still [] s s')
end

