-- ==== Sys2Proof/Laws/Frame.lean ====
section
/-! SUPPORT. What the operations leave alone: for each, the parts of the state it does not change. -/

namespace Sys2Proof.Laws
open Sys2Proof Sys2Proof.Machine
set_option linter.unusedVariables false
set_option Elab.async false
theorem foldl_keeps_any {σ α β : Type} {l : List α} {s : σ} {f : σ → α → σ} (q : σ → β)
    (h : ∀ s a, q (f s a) = q s) : q (l.foldl f s) = q s := by
  induction l generalizing s with
  | nil => rfl
  | cons a l ih => simp only [List.foldl_cons]; rw [ih, h]
theorem each_keeps {α β : Type} {l : List α} {s : State} {f : State → α → State} (q : State → β)
    (h : ∀ s a, q (f s a) = q s) : q (each l s f) = q s := by
  unfold each
  induction l generalizing s with
  | nil => rfl
  | cons a l ih => simp only [List.foldl_cons]; rw [ih, h]
theorem foldl_keeps {α β : Type} {l : List α} {s : State} {f : State → α → State} (q : State → β)
    (h : ∀ s a, q (f s a) = q s) : q (l.foldl f s) = q s := each_keeps q h
@[simp] theorem each_pending {α : Type} {l : List α} {s : State} {f : State → α → State}
    (h : ∀ s a, (f s a).pending = s.pending) : (each l s f).pending = s.pending := each_keeps (·.pending) h
@[simp] theorem foldl_pending {α : Type} {l : List α} {s : State} {f : State → α → State}
    (h : ∀ s a, (f s a).pending = s.pending) : (l.foldl f s).pending = s.pending := each_keeps (·.pending) h
@[simp] theorem ite_pending {c : Prop} [Decidable c] {s t : State} :
    (if c then s else t).pending = if c then s.pending else t.pending := by split <;> rfl
@[simp] theorem each_now {α : Type} {l : List α} {s : State} {f : State → α → State}
    (h : ∀ s a, (f s a).now = s.now) : (each l s f).now = s.now := each_keeps (·.now) h
@[simp] theorem foldl_now {α : Type} {l : List α} {s : State} {f : State → α → State}
    (h : ∀ s a, (f s a).now = s.now) : (l.foldl f s).now = s.now := each_keeps (·.now) h
@[simp] theorem ite_now {c : Prop} [Decidable c] {s t : State} :
    (if c then s else t).now = if c then s.now else t.now := by split <;> rfl
@[simp] theorem each_out {α : Type} {l : List α} {s : State} {f : State → α → State}
    (h : ∀ s a, (f s a).out = s.out) : (each l s f).out = s.out := each_keeps (·.out) h
@[simp] theorem foldl_out {α : Type} {l : List α} {s : State} {f : State → α → State}
    (h : ∀ s a, (f s a).out = s.out) : (l.foldl f s).out = s.out := each_keeps (·.out) h
@[simp] theorem ite_out {c : Prop} [Decidable c] {s t : State} :
    (if c then s else t).out = if c then s.out else t.out := by split <;> rfl
@[simp] theorem each_regs {α : Type} {l : List α} {s : State} {f : State → α → State}
    (h : ∀ s a, (f s a).regs = s.regs) : (each l s f).regs = s.regs := each_keeps (·.regs) h
@[simp] theorem foldl_regs {α : Type} {l : List α} {s : State} {f : State → α → State}
    (h : ∀ s a, (f s a).regs = s.regs) : (l.foldl f s).regs = s.regs := each_keeps (·.regs) h
@[simp] theorem ite_regs {c : Prop} [Decidable c] {s t : State} :
    (if c then s else t).regs = if c then s.regs else t.regs := by split <;> rfl
@[simp] theorem each_fr {α : Type} {l : List α} {s : State} {f : State → α → State}
    (h : ∀ s a, (f s a).fr = s.fr) : (each l s f).fr = s.fr := each_keeps (·.fr) h
@[simp] theorem foldl_fr {α : Type} {l : List α} {s : State} {f : State → α → State}
    (h : ∀ s a, (f s a).fr = s.fr) : (l.foldl f s).fr = s.fr := each_keeps (·.fr) h
@[simp] theorem ite_fr {c : Prop} [Decidable c] {s t : State} :
    (if c then s else t).fr = if c then s.fr else t.fr := by split <;> rfl
@[simp] theorem each_mx {α : Type} {l : List α} {s : State} {f : State → α → State}
    (h : ∀ s a, (f s a).mx = s.mx) : (each l s f).mx = s.mx := each_keeps (·.mx) h
@[simp] theorem foldl_mx {α : Type} {l : List α} {s : State} {f : State → α → State}
    (h : ∀ s a, (f s a).mx = s.mx) : (l.foldl f s).mx = s.mx := each_keeps (·.mx) h
@[simp] theorem ite_mx {c : Prop} [Decidable c] {s t : State} :
    (if c then s else t).mx = if c then s.mx else t.mx := by split <;> rfl
@[simp] theorem each_fx {α : Type} {l : List α} {s : State} {f : State → α → State}
    (h : ∀ s a, (f s a).fx = s.fx) : (each l s f).fx = s.fx := each_keeps (·.fx) h
@[simp] theorem foldl_fx {α : Type} {l : List α} {s : State} {f : State → α → State}
    (h : ∀ s a, (f s a).fx = s.fx) : (l.foldl f s).fx = s.fx := each_keeps (·.fx) h
@[simp] theorem ite_fx {c : Prop} [Decidable c] {s t : State} :
    (if c then s else t).fx = if c then s.fx else t.fx := by split <;> rfl
@[simp] theorem each_ps {α : Type} {l : List α} {s : State} {f : State → α → State}
    (h : ∀ s a, (f s a).ps = s.ps) : (each l s f).ps = s.ps := each_keeps (·.ps) h
@[simp] theorem foldl_ps {α : Type} {l : List α} {s : State} {f : State → α → State}
    (h : ∀ s a, (f s a).ps = s.ps) : (l.foldl f s).ps = s.ps := each_keeps (·.ps) h
@[simp] theorem ite_ps {c : Prop} [Decidable c] {s t : State} :
    (if c then s else t).ps = if c then s.ps else t.ps := by split <;> rfl
@[simp] theorem each_sp {α : Type} {l : List α} {s : State} {f : State → α → State}
    (h : ∀ s a, (f s a).sp = s.sp) : (each l s f).sp = s.sp := each_keeps (·.sp) h
@[simp] theorem foldl_sp {α : Type} {l : List α} {s : State} {f : State → α → State}
    (h : ∀ s a, (f s a).sp = s.sp) : (l.foldl f s).sp = s.sp := each_keeps (·.sp) h
@[simp] theorem ite_sp {c : Prop} [Decidable c] {s t : State} :
    (if c then s else t).sp = if c then s.sp else t.sp := by split <;> rfl
@[simp] theorem each_ai {α : Type} {l : List α} {s : State} {f : State → α → State}
    (h : ∀ s a, (f s a).ai = s.ai) : (each l s f).ai = s.ai := each_keeps (·.ai) h
@[simp] theorem foldl_ai {α : Type} {l : List α} {s : State} {f : State → α → State}
    (h : ∀ s a, (f s a).ai = s.ai) : (l.foldl f s).ai = s.ai := each_keeps (·.ai) h
@[simp] theorem ite_ai {c : Prop} [Decidable c] {s t : State} :
    (if c then s else t).ai = if c then s.ai else t.ai := by split <;> rfl
@[simp] theorem each_aq {α : Type} {l : List α} {s : State} {f : State → α → State}
    (h : ∀ s a, (f s a).aq = s.aq) : (each l s f).aq = s.aq := each_keeps (·.aq) h
@[simp] theorem foldl_aq {α : Type} {l : List α} {s : State} {f : State → α → State}
    (h : ∀ s a, (f s a).aq = s.aq) : (l.foldl f s).aq = s.aq := each_keeps (·.aq) h
@[simp] theorem ite_aq {c : Prop} [Decidable c] {s t : State} :
    (if c then s else t).aq = if c then s.aq else t.aq := by split <;> rfl
@[simp] theorem each_dp {α : Type} {l : List α} {s : State} {f : State → α → State}
    (h : ∀ s a, (f s a).dp = s.dp) : (each l s f).dp = s.dp := each_keeps (·.dp) h
@[simp] theorem foldl_dp {α : Type} {l : List α} {s : State} {f : State → α → State}
    (h : ∀ s a, (f s a).dp = s.dp) : (l.foldl f s).dp = s.dp := each_keeps (·.dp) h
@[simp] theorem ite_dp {c : Prop} [Decidable c] {s t : State} :
    (if c then s else t).dp = if c then s.dp else t.dp := by split <;> rfl
@[simp] theorem each_ck {α : Type} {l : List α} {s : State} {f : State → α → State}
    (h : ∀ s a, (f s a).ck = s.ck) : (each l s f).ck = s.ck := each_keeps (·.ck) h
@[simp] theorem foldl_ck {α : Type} {l : List α} {s : State} {f : State → α → State}
    (h : ∀ s a, (f s a).ck = s.ck) : (l.foldl f s).ck = s.ck := each_keeps (·.ck) h
@[simp] theorem ite_ck {c : Prop} [Decidable c] {s t : State} :
    (if c then s else t).ck = if c then s.ck else t.ck := by split <;> rfl
@[simp] theorem each_sc {α : Type} {l : List α} {s : State} {f : State → α → State}
    (h : ∀ s a, (f s a).sc = s.sc) : (each l s f).sc = s.sc := each_keeps (·.sc) h
@[simp] theorem foldl_sc {α : Type} {l : List α} {s : State} {f : State → α → State}
    (h : ∀ s a, (f s a).sc = s.sc) : (l.foldl f s).sc = s.sc := each_keeps (·.sc) h
@[simp] theorem ite_sc {c : Prop} [Decidable c] {s t : State} :
    (if c then s else t).sc = if c then s.sc else t.sc := by split <;> rfl
@[simp] theorem each_hl {α : Type} {l : List α} {s : State} {f : State → α → State}
    (h : ∀ s a, (f s a).hl = s.hl) : (each l s f).hl = s.hl := each_keeps (·.hl) h
@[simp] theorem foldl_hl {α : Type} {l : List α} {s : State} {f : State → α → State}
    (h : ∀ s a, (f s a).hl = s.hl) : (l.foldl f s).hl = s.hl := each_keeps (·.hl) h
@[simp] theorem ite_hl {c : Prop} [Decidable c] {s t : State} :
    (if c then s else t).hl = if c then s.hl else t.hl := by split <;> rfl
@[simp] theorem each_st {α : Type} {l : List α} {s : State} {f : State → α → State}
    (h : ∀ s a, (f s a).st = s.st) : (each l s f).st = s.st := each_keeps (·.st) h
@[simp] theorem foldl_st {α : Type} {l : List α} {s : State} {f : State → α → State}
    (h : ∀ s a, (f s a).st = s.st) : (l.foldl f s).st = s.st := each_keeps (·.st) h
@[simp] theorem ite_st {c : Prop} [Decidable c] {s t : State} :
    (if c then s else t).st = if c then s.st else t.st := by split <;> rfl
@[simp] theorem each_tw {α : Type} {l : List α} {s : State} {f : State → α → State}
    (h : ∀ s a, (f s a).tw = s.tw) : (each l s f).tw = s.tw := each_keeps (·.tw) h
@[simp] theorem foldl_tw {α : Type} {l : List α} {s : State} {f : State → α → State}
    (h : ∀ s a, (f s a).tw = s.tw) : (l.foldl f s).tw = s.tw := each_keeps (·.tw) h
@[simp] theorem ite_tw {c : Prop} [Decidable c] {s t : State} :
    (if c then s else t).tw = if c then s.tw else t.tw := by split <;> rfl
@[simp] theorem each_sv {α : Type} {l : List α} {s : State} {f : State → α → State}
    (h : ∀ s a, (f s a).sv = s.sv) : (each l s f).sv = s.sv := each_keeps (·.sv) h
@[simp] theorem foldl_sv {α : Type} {l : List α} {s : State} {f : State → α → State}
    (h : ∀ s a, (f s a).sv = s.sv) : (l.foldl f s).sv = s.sv := each_keeps (·.sv) h
@[simp] theorem ite_sv {c : Prop} [Decidable c] {s t : State} :
    (if c then s else t).sv = if c then s.sv else t.sv := by split <;> rfl
@[simp] theorem each_pd {α : Type} {l : List α} {s : State} {f : State → α → State}
    (h : ∀ s a, (f s a).pd = s.pd) : (each l s f).pd = s.pd := each_keeps (·.pd) h
@[simp] theorem foldl_pd {α : Type} {l : List α} {s : State} {f : State → α → State}
    (h : ∀ s a, (f s a).pd = s.pd) : (l.foldl f s).pd = s.pd := each_keeps (·.pd) h
@[simp] theorem ite_pd {c : Prop} [Decidable c] {s t : State} :
    (if c then s else t).pd = if c then s.pd else t.pd := by split <;> rfl
@[simp] theorem each_ct {α : Type} {l : List α} {s : State} {f : State → α → State}
    (h : ∀ s a, (f s a).ct = s.ct) : (each l s f).ct = s.ct := each_keeps (·.ct) h
@[simp] theorem foldl_ct {α : Type} {l : List α} {s : State} {f : State → α → State}
    (h : ∀ s a, (f s a).ct = s.ct) : (l.foldl f s).ct = s.ct := each_keeps (·.ct) h
@[simp] theorem ite_ct {c : Prop} [Decidable c] {s t : State} :
    (if c then s else t).ct = if c then s.ct else t.ct := by split <;> rfl
@[simp] theorem each_pl {α : Type} {l : List α} {s : State} {f : State → α → State}
    (h : ∀ s a, (f s a).pl = s.pl) : (each l s f).pl = s.pl := each_keeps (·.pl) h
@[simp] theorem foldl_pl {α : Type} {l : List α} {s : State} {f : State → α → State}
    (h : ∀ s a, (f s a).pl = s.pl) : (l.foldl f s).pl = s.pl := each_keeps (·.pl) h
@[simp] theorem ite_pl {c : Prop} [Decidable c] {s t : State} :
    (if c then s else t).pl = if c then s.pl else t.pl := by split <;> rfl
@[simp] theorem each_vc {α : Type} {l : List α} {s : State} {f : State → α → State}
    (h : ∀ s a, (f s a).vc = s.vc) : (each l s f).vc = s.vc := each_keeps (·.vc) h
@[simp] theorem foldl_vc {α : Type} {l : List α} {s : State} {f : State → α → State}
    (h : ∀ s a, (f s a).vc = s.vc) : (l.foldl f s).vc = s.vc := each_keeps (·.vc) h
@[simp] theorem ite_vc {c : Prop} [Decidable c] {s t : State} :
    (if c then s else t).vc = if c then s.vc else t.vc := by split <;> rfl
@[simp] theorem each_fr_fn {α : Type} {l : List α} {s : State} {f : State → α → State}
    (h : ∀ s a, (f s a).fr.fn = s.fr.fn) : (each l s f).fr.fn = s.fr.fn := each_keeps (·.fr.fn) h
@[simp] theorem foldl_fr_fn {α : Type} {l : List α} {s : State} {f : State → α → State}
    (h : ∀ s a, (f s a).fr.fn = s.fr.fn) : (l.foldl f s).fr.fn = s.fr.fn := each_keeps (·.fr.fn) h
@[simp] theorem ite_fr_fn {c : Prop} [Decidable c] {s t : State} :
    (if c then s else t).fr.fn = if c then s.fr.fn else t.fr.fn := by split <;> rfl
@[simp] theorem each_fr_next {α : Type} {l : List α} {s : State} {f : State → α → State}
    (h : ∀ s a, (f s a).fr.next = s.fr.next) : (each l s f).fr.next = s.fr.next := each_keeps (·.fr.next) h
@[simp] theorem foldl_fr_next {α : Type} {l : List α} {s : State} {f : State → α → State}
    (h : ∀ s a, (f s a).fr.next = s.fr.next) : (l.foldl f s).fr.next = s.fr.next := each_keeps (·.fr.next) h
@[simp] theorem ite_fr_next {c : Prop} [Decidable c] {s t : State} :
    (if c then s else t).fr.next = if c then s.fr.next else t.fr.next := by split <;> rfl
@[simp] theorem each_fr_running {α : Type} {l : List α} {s : State} {f : State → α → State}
    (h : ∀ s a, (f s a).fr.running = s.fr.running) : (each l s f).fr.running = s.fr.running := each_keeps (·.fr.running) h
@[simp] theorem foldl_fr_running {α : Type} {l : List α} {s : State} {f : State → α → State}
    (h : ∀ s a, (f s a).fr.running = s.fr.running) : (l.foldl f s).fr.running = s.fr.running := each_keeps (·.fr.running) h
@[simp] theorem ite_fr_running {c : Prop} [Decidable c] {s t : State} :
    (if c then s else t).fr.running = if c then s.fr.running else t.fr.running := by split <;> rfl
@[simp] theorem each_hl_locked {α : Type} {l : List α} {s : State} {f : State → α → State}
    (h : ∀ s a, (f s a).hl.locked = s.hl.locked) : (each l s f).hl.locked = s.hl.locked := each_keeps (·.hl.locked) h
@[simp] theorem foldl_hl_locked {α : Type} {l : List α} {s : State} {f : State → α → State}
    (h : ∀ s a, (f s a).hl.locked = s.hl.locked) : (l.foldl f s).hl.locked = s.hl.locked := each_keeps (·.hl.locked) h
@[simp] theorem ite_hl_locked {c : Prop} [Decidable c] {s t : State} :
    (if c then s else t).hl.locked = if c then s.hl.locked else t.hl.locked := by split <;> rfl
@[simp] theorem foldl_fst_pending {α β : Type} {l : List α} {a : State × β} {f : State × β → α → State × β}
    (h : ∀ a x, (f a x).1.pending = a.1.pending) : (l.foldl f a).1.pending = a.1.pending := foldl_keeps_any (fun a : State × β => a.1.pending) h
@[simp] theorem foldl_snd_pending {α β : Type} {l : List α} {a : β × State} {f : β × State → α → β × State}
    (h : ∀ a x, (f a x).2.pending = a.2.pending) : (l.foldl f a).2.pending = a.2.pending := foldl_keeps_any (fun a : β × State => a.2.pending) h
@[simp] theorem foldl_fst_now {α β : Type} {l : List α} {a : State × β} {f : State × β → α → State × β}
    (h : ∀ a x, (f a x).1.now = a.1.now) : (l.foldl f a).1.now = a.1.now := foldl_keeps_any (fun a : State × β => a.1.now) h
@[simp] theorem foldl_snd_now {α β : Type} {l : List α} {a : β × State} {f : β × State → α → β × State}
    (h : ∀ a x, (f a x).2.now = a.2.now) : (l.foldl f a).2.now = a.2.now := foldl_keeps_any (fun a : β × State => a.2.now) h
@[simp] theorem foldl_fst_out {α β : Type} {l : List α} {a : State × β} {f : State × β → α → State × β}
    (h : ∀ a x, (f a x).1.out = a.1.out) : (l.foldl f a).1.out = a.1.out := foldl_keeps_any (fun a : State × β => a.1.out) h
@[simp] theorem foldl_snd_out {α β : Type} {l : List α} {a : β × State} {f : β × State → α → β × State}
    (h : ∀ a x, (f a x).2.out = a.2.out) : (l.foldl f a).2.out = a.2.out := foldl_keeps_any (fun a : β × State => a.2.out) h
@[simp] theorem foldl_fst_regs {α β : Type} {l : List α} {a : State × β} {f : State × β → α → State × β}
    (h : ∀ a x, (f a x).1.regs = a.1.regs) : (l.foldl f a).1.regs = a.1.regs := foldl_keeps_any (fun a : State × β => a.1.regs) h
@[simp] theorem foldl_snd_regs {α β : Type} {l : List α} {a : β × State} {f : β × State → α → β × State}
    (h : ∀ a x, (f a x).2.regs = a.2.regs) : (l.foldl f a).2.regs = a.2.regs := foldl_keeps_any (fun a : β × State => a.2.regs) h
@[simp] theorem foldl_fst_fr {α β : Type} {l : List α} {a : State × β} {f : State × β → α → State × β}
    (h : ∀ a x, (f a x).1.fr = a.1.fr) : (l.foldl f a).1.fr = a.1.fr := foldl_keeps_any (fun a : State × β => a.1.fr) h
@[simp] theorem foldl_snd_fr {α β : Type} {l : List α} {a : β × State} {f : β × State → α → β × State}
    (h : ∀ a x, (f a x).2.fr = a.2.fr) : (l.foldl f a).2.fr = a.2.fr := foldl_keeps_any (fun a : β × State => a.2.fr) h
@[simp] theorem foldl_fst_mx {α β : Type} {l : List α} {a : State × β} {f : State × β → α → State × β}
    (h : ∀ a x, (f a x).1.mx = a.1.mx) : (l.foldl f a).1.mx = a.1.mx := foldl_keeps_any (fun a : State × β => a.1.mx) h
@[simp] theorem foldl_snd_mx {α β : Type} {l : List α} {a : β × State} {f : β × State → α → β × State}
    (h : ∀ a x, (f a x).2.mx = a.2.mx) : (l.foldl f a).2.mx = a.2.mx := foldl_keeps_any (fun a : β × State => a.2.mx) h
@[simp] theorem foldl_fst_fx {α β : Type} {l : List α} {a : State × β} {f : State × β → α → State × β}
    (h : ∀ a x, (f a x).1.fx = a.1.fx) : (l.foldl f a).1.fx = a.1.fx := foldl_keeps_any (fun a : State × β => a.1.fx) h
@[simp] theorem foldl_snd_fx {α β : Type} {l : List α} {a : β × State} {f : β × State → α → β × State}
    (h : ∀ a x, (f a x).2.fx = a.2.fx) : (l.foldl f a).2.fx = a.2.fx := foldl_keeps_any (fun a : β × State => a.2.fx) h
@[simp] theorem foldl_fst_ps {α β : Type} {l : List α} {a : State × β} {f : State × β → α → State × β}
    (h : ∀ a x, (f a x).1.ps = a.1.ps) : (l.foldl f a).1.ps = a.1.ps := foldl_keeps_any (fun a : State × β => a.1.ps) h
@[simp] theorem foldl_snd_ps {α β : Type} {l : List α} {a : β × State} {f : β × State → α → β × State}
    (h : ∀ a x, (f a x).2.ps = a.2.ps) : (l.foldl f a).2.ps = a.2.ps := foldl_keeps_any (fun a : β × State => a.2.ps) h
@[simp] theorem foldl_fst_sp {α β : Type} {l : List α} {a : State × β} {f : State × β → α → State × β}
    (h : ∀ a x, (f a x).1.sp = a.1.sp) : (l.foldl f a).1.sp = a.1.sp := foldl_keeps_any (fun a : State × β => a.1.sp) h
@[simp] theorem foldl_snd_sp {α β : Type} {l : List α} {a : β × State} {f : β × State → α → β × State}
    (h : ∀ a x, (f a x).2.sp = a.2.sp) : (l.foldl f a).2.sp = a.2.sp := foldl_keeps_any (fun a : β × State => a.2.sp) h
@[simp] theorem foldl_fst_ai {α β : Type} {l : List α} {a : State × β} {f : State × β → α → State × β}
    (h : ∀ a x, (f a x).1.ai = a.1.ai) : (l.foldl f a).1.ai = a.1.ai := foldl_keeps_any (fun a : State × β => a.1.ai) h
@[simp] theorem foldl_snd_ai {α β : Type} {l : List α} {a : β × State} {f : β × State → α → β × State}
    (h : ∀ a x, (f a x).2.ai = a.2.ai) : (l.foldl f a).2.ai = a.2.ai := foldl_keeps_any (fun a : β × State => a.2.ai) h
@[simp] theorem foldl_fst_aq {α β : Type} {l : List α} {a : State × β} {f : State × β → α → State × β}
    (h : ∀ a x, (f a x).1.aq = a.1.aq) : (l.foldl f a).1.aq = a.1.aq := foldl_keeps_any (fun a : State × β => a.1.aq) h
@[simp] theorem foldl_snd_aq {α β : Type} {l : List α} {a : β × State} {f : β × State → α → β × State}
    (h : ∀ a x, (f a x).2.aq = a.2.aq) : (l.foldl f a).2.aq = a.2.aq := foldl_keeps_any (fun a : β × State => a.2.aq) h
@[simp] theorem foldl_fst_dp {α β : Type} {l : List α} {a : State × β} {f : State × β → α → State × β}
    (h : ∀ a x, (f a x).1.dp = a.1.dp) : (l.foldl f a).1.dp = a.1.dp := foldl_keeps_any (fun a : State × β => a.1.dp) h
@[simp] theorem foldl_snd_dp {α β : Type} {l : List α} {a : β × State} {f : β × State → α → β × State}
    (h : ∀ a x, (f a x).2.dp = a.2.dp) : (l.foldl f a).2.dp = a.2.dp := foldl_keeps_any (fun a : β × State => a.2.dp) h
@[simp] theorem foldl_fst_ck {α β : Type} {l : List α} {a : State × β} {f : State × β → α → State × β}
    (h : ∀ a x, (f a x).1.ck = a.1.ck) : (l.foldl f a).1.ck = a.1.ck := foldl_keeps_any (fun a : State × β => a.1.ck) h
@[simp] theorem foldl_snd_ck {α β : Type} {l : List α} {a : β × State} {f : β × State → α → β × State}
    (h : ∀ a x, (f a x).2.ck = a.2.ck) : (l.foldl f a).2.ck = a.2.ck := foldl_keeps_any (fun a : β × State => a.2.ck) h
@[simp] theorem foldl_fst_sc {α β : Type} {l : List α} {a : State × β} {f : State × β → α → State × β}
    (h : ∀ a x, (f a x).1.sc = a.1.sc) : (l.foldl f a).1.sc = a.1.sc := foldl_keeps_any (fun a : State × β => a.1.sc) h
@[simp] theorem foldl_snd_sc {α β : Type} {l : List α} {a : β × State} {f : β × State → α → β × State}
    (h : ∀ a x, (f a x).2.sc = a.2.sc) : (l.foldl f a).2.sc = a.2.sc := foldl_keeps_any (fun a : β × State => a.2.sc) h
@[simp] theorem foldl_fst_hl {α β : Type} {l : List α} {a : State × β} {f : State × β → α → State × β}
    (h : ∀ a x, (f a x).1.hl = a.1.hl) : (l.foldl f a).1.hl = a.1.hl := foldl_keeps_any (fun a : State × β => a.1.hl) h
@[simp] theorem foldl_snd_hl {α β : Type} {l : List α} {a : β × State} {f : β × State → α → β × State}
    (h : ∀ a x, (f a x).2.hl = a.2.hl) : (l.foldl f a).2.hl = a.2.hl := foldl_keeps_any (fun a : β × State => a.2.hl) h
@[simp] theorem foldl_fst_st {α β : Type} {l : List α} {a : State × β} {f : State × β → α → State × β}
    (h : ∀ a x, (f a x).1.st = a.1.st) : (l.foldl f a).1.st = a.1.st := foldl_keeps_any (fun a : State × β => a.1.st) h
@[simp] theorem foldl_snd_st {α β : Type} {l : List α} {a : β × State} {f : β × State → α → β × State}
    (h : ∀ a x, (f a x).2.st = a.2.st) : (l.foldl f a).2.st = a.2.st := foldl_keeps_any (fun a : β × State => a.2.st) h
@[simp] theorem foldl_fst_tw {α β : Type} {l : List α} {a : State × β} {f : State × β → α → State × β}
    (h : ∀ a x, (f a x).1.tw = a.1.tw) : (l.foldl f a).1.tw = a.1.tw := foldl_keeps_any (fun a : State × β => a.1.tw) h
@[simp] theorem foldl_snd_tw {α β : Type} {l : List α} {a : β × State} {f : β × State → α → β × State}
    (h : ∀ a x, (f a x).2.tw = a.2.tw) : (l.foldl f a).2.tw = a.2.tw := foldl_keeps_any (fun a : β × State => a.2.tw) h
@[simp] theorem foldl_fst_sv {α β : Type} {l : List α} {a : State × β} {f : State × β → α → State × β}
    (h : ∀ a x, (f a x).1.sv = a.1.sv) : (l.foldl f a).1.sv = a.1.sv := foldl_keeps_any (fun a : State × β => a.1.sv) h
@[simp] theorem foldl_snd_sv {α β : Type} {l : List α} {a : β × State} {f : β × State → α → β × State}
    (h : ∀ a x, (f a x).2.sv = a.2.sv) : (l.foldl f a).2.sv = a.2.sv := foldl_keeps_any (fun a : β × State => a.2.sv) h
@[simp] theorem foldl_fst_pd {α β : Type} {l : List α} {a : State × β} {f : State × β → α → State × β}
    (h : ∀ a x, (f a x).1.pd = a.1.pd) : (l.foldl f a).1.pd = a.1.pd := foldl_keeps_any (fun a : State × β => a.1.pd) h
@[simp] theorem foldl_snd_pd {α β : Type} {l : List α} {a : β × State} {f : β × State → α → β × State}
    (h : ∀ a x, (f a x).2.pd = a.2.pd) : (l.foldl f a).2.pd = a.2.pd := foldl_keeps_any (fun a : β × State => a.2.pd) h
@[simp] theorem foldl_fst_ct {α β : Type} {l : List α} {a : State × β} {f : State × β → α → State × β}
    (h : ∀ a x, (f a x).1.ct = a.1.ct) : (l.foldl f a).1.ct = a.1.ct := foldl_keeps_any (fun a : State × β => a.1.ct) h
@[simp] theorem foldl_snd_ct {α β : Type} {l : List α} {a : β × State} {f : β × State → α → β × State}
    (h : ∀ a x, (f a x).2.ct = a.2.ct) : (l.foldl f a).2.ct = a.2.ct := foldl_keeps_any (fun a : β × State => a.2.ct) h
@[simp] theorem foldl_fst_pl {α β : Type} {l : List α} {a : State × β} {f : State × β → α → State × β}
    (h : ∀ a x, (f a x).1.pl = a.1.pl) : (l.foldl f a).1.pl = a.1.pl := foldl_keeps_any (fun a : State × β => a.1.pl) h
@[simp] theorem foldl_snd_pl {α β : Type} {l : List α} {a : β × State} {f : β × State → α → β × State}
    (h : ∀ a x, (f a x).2.pl = a.2.pl) : (l.foldl f a).2.pl = a.2.pl := foldl_keeps_any (fun a : β × State => a.2.pl) h
@[simp] theorem foldl_fst_vc {α β : Type} {l : List α} {a : State × β} {f : State × β → α → State × β}
    (h : ∀ a x, (f a x).1.vc = a.1.vc) : (l.foldl f a).1.vc = a.1.vc := foldl_keeps_any (fun a : State × β => a.1.vc) h
@[simp] theorem foldl_snd_vc {α β : Type} {l : List α} {a : β × State} {f : β × State → α → β × State}
    (h : ∀ a x, (f a x).2.vc = a.2.vc) : (l.foldl f a).2.vc = a.2.vc := foldl_keeps_any (fun a : β × State => a.2.vc) h
@[simp] theorem foldl_fst_fr_fn {α β : Type} {l : List α} {a : State × β} {f : State × β → α → State × β}
    (h : ∀ a x, (f a x).1.fr.fn = a.1.fr.fn) : (l.foldl f a).1.fr.fn = a.1.fr.fn := foldl_keeps_any (fun a : State × β => a.1.fr.fn) h
@[simp] theorem foldl_snd_fr_fn {α β : Type} {l : List α} {a : β × State} {f : β × State → α → β × State}
    (h : ∀ a x, (f a x).2.fr.fn = a.2.fr.fn) : (l.foldl f a).2.fr.fn = a.2.fr.fn := foldl_keeps_any (fun a : β × State => a.2.fr.fn) h
@[simp] theorem foldl_fst_fr_next {α β : Type} {l : List α} {a : State × β} {f : State × β → α → State × β}
    (h : ∀ a x, (f a x).1.fr.next = a.1.fr.next) : (l.foldl f a).1.fr.next = a.1.fr.next := foldl_keeps_any (fun a : State × β => a.1.fr.next) h
@[simp] theorem foldl_snd_fr_next {α β : Type} {l : List α} {a : β × State} {f : β × State → α → β × State}
    (h : ∀ a x, (f a x).2.fr.next = a.2.fr.next) : (l.foldl f a).2.fr.next = a.2.fr.next := foldl_keeps_any (fun a : β × State => a.2.fr.next) h
@[simp] theorem foldl_fst_fr_running {α β : Type} {l : List α} {a : State × β} {f : State × β → α → State × β}
    (h : ∀ a x, (f a x).1.fr.running = a.1.fr.running) : (l.foldl f a).1.fr.running = a.1.fr.running := foldl_keeps_any (fun a : State × β => a.1.fr.running) h
@[simp] theorem foldl_snd_fr_running {α β : Type} {l : List α} {a : β × State} {f : β × State → α → β × State}
    (h : ∀ a x, (f a x).2.fr.running = a.2.fr.running) : (l.foldl f a).2.fr.running = a.2.fr.running := foldl_keeps_any (fun a : β × State => a.2.fr.running) h
@[simp] theorem foldl_fst_hl_locked {α β : Type} {l : List α} {a : State × β} {f : State × β → α → State × β}
    (h : ∀ a x, (f a x).1.hl.locked = a.1.hl.locked) : (l.foldl f a).1.hl.locked = a.1.hl.locked := foldl_keeps_any (fun a : State × β => a.1.hl.locked) h
@[simp] theorem foldl_snd_hl_locked {α β : Type} {l : List α} {a : β × State} {f : β × State → α → β × State}
    (h : ∀ a x, (f a x).2.hl.locked = a.2.hl.locked) : (l.foldl f a).2.hl.locked = a.2.hl.locked := foldl_keeps_any (fun a : β × State => a.2.hl.locked) h
@[simp] theorem ite_locked {c : Prop} [Decidable c] {a b : HostSide} :
    (if c then a else b).locked = if c then a.locked else b.locked := by split <;> rfl
@[simp] theorem ite_fn {c : Prop} [Decidable c] {a b : Frame} :
    (if c then a else b).fn = if c then a.fn else b.fn := by split <;> rfl
@[simp] theorem ite_next {c : Prop} [Decidable c] {a b : Frame} :
    (if c then a else b).next = if c then a.next else b.next := by split <;> rfl
@[simp] theorem ite_running {c : Prop} [Decidable c] {a b : Frame} :
    (if c then a else b).running = if c then a.running else b.running := by split <;> rfl

@[simp] theorem atT_keeps {s : State} {t : Frac} :
    (atT s t).pending = s.pending ∧
    (atT s t).regs = s.regs ∧
    (atT s t).fr = s.fr ∧
    (atT s t).mx = s.mx ∧
    (atT s t).fx = s.fx ∧
    (atT s t).ps = s.ps ∧
    (atT s t).sp = s.sp ∧
    (atT s t).ai = s.ai ∧
    (atT s t).aq = s.aq ∧
    (atT s t).dp = s.dp ∧
    (atT s t).ck = s.ck ∧
    (atT s t).sc = s.sc ∧
    (atT s t).hl = s.hl ∧
    (atT s t).st = s.st ∧
    (atT s t).tw = s.tw ∧
    (atT s t).sv = s.sv ∧
    (atT s t).pd = s.pd ∧
    (atT s t).ct = s.ct ∧
    (atT s t).pl = s.pl ∧
    (atT s t).vc = s.vc := by
  unfold Machine.atT; first | (simp; done) | ((repeat' split) <;> simp; done) | (dsimp only; (repeat' split) <;> simp; done)
@[simp] theorem push_keeps {s : State} {o : Out} :
    (push s o).pending = s.pending ∧
    (push s o).now = s.now ∧
    (push s o).regs = s.regs ∧
    (push s o).fr = s.fr ∧
    (push s o).mx = s.mx ∧
    (push s o).fx = s.fx ∧
    (push s o).ps = s.ps ∧
    (push s o).sp = s.sp ∧
    (push s o).ai = s.ai ∧
    (push s o).aq = s.aq ∧
    (push s o).dp = s.dp ∧
    (push s o).ck = s.ck ∧
    (push s o).sc = s.sc ∧
    (push s o).hl = s.hl ∧
    (push s o).st = s.st ∧
    (push s o).tw = s.tw ∧
    (push s o).sv = s.sv ∧
    (push s o).pd = s.pd ∧
    (push s o).ct = s.ct ∧
    (push s o).pl = s.pl ∧
    (push s o).vc = s.vc := by
  unfold Machine.push; first | (simp; done) | ((repeat' split) <;> simp; done) | (dsimp only; (repeat' split) <;> simp; done)
@[simp] theorem reading_keeps {s : State} {v : Word} :
    (reading s v).pending = s.pending ∧
    (reading s v).now = s.now ∧
    (reading s v).regs = s.regs ∧
    (reading s v).fr = s.fr ∧
    (reading s v).mx = s.mx ∧
    (reading s v).fx = s.fx ∧
    (reading s v).ps = s.ps ∧
    (reading s v).sp = s.sp ∧
    (reading s v).ai = s.ai ∧
    (reading s v).aq = s.aq ∧
    (reading s v).dp = s.dp ∧
    (reading s v).ck = s.ck ∧
    (reading s v).sc = s.sc ∧
    (reading s v).hl = s.hl ∧
    (reading s v).st = s.st ∧
    (reading s v).tw = s.tw ∧
    (reading s v).sv = s.sv ∧
    (reading s v).pd = s.pd ∧
    (reading s v).ct = s.ct ∧
    (reading s v).pl = s.pl ∧
    (reading s v).vc = s.vc := by
  unfold Machine.reading; first | (simp; done) | ((repeat' split) <;> simp; done) | (dsimp only; (repeat' split) <;> simp; done)
@[simp] theorem draw_keeps {s : State} :
    (draw s).2.pending = s.pending ∧
    (draw s).2.now = s.now ∧
    (draw s).2.out = s.out ∧
    (draw s).2.regs = s.regs ∧
    (draw s).2.fr = s.fr ∧
    (draw s).2.mx = s.mx ∧
    (draw s).2.fx = s.fx ∧
    (draw s).2.ps = s.ps ∧
    (draw s).2.sp = s.sp ∧
    (draw s).2.ai = s.ai ∧
    (draw s).2.aq = s.aq ∧
    (draw s).2.dp = s.dp ∧
    (draw s).2.ck = s.ck ∧
    (draw s).2.sc = s.sc ∧
    (draw s).2.hl = s.hl ∧
    (draw s).2.st = s.st ∧
    (draw s).2.tw = s.tw ∧
    (draw s).2.sv = s.sv ∧
    (draw s).2.pd = s.pd ∧
    (draw s).2.ct = s.ct ∧
    (draw s).2.pl = s.pl ∧
    (draw s).2.vc = s.vc := by
  unfold Machine.draw; first | (simp; done) | ((repeat' split) <;> simp; done) | (dsimp only; (repeat' split) <;> simp; done)
@[simp] theorem setReg_keeps {s : State} {n : RegName} {i : Nat} {v : Word} :
    (setReg s n i v).pending = s.pending ∧
    (setReg s n i v).now = s.now ∧
    (setReg s n i v).out = s.out ∧
    (setReg s n i v).fr = s.fr ∧
    (setReg s n i v).mx = s.mx ∧
    (setReg s n i v).fx = s.fx ∧
    (setReg s n i v).ps = s.ps ∧
    (setReg s n i v).sp = s.sp ∧
    (setReg s n i v).ai = s.ai ∧
    (setReg s n i v).aq = s.aq ∧
    (setReg s n i v).dp = s.dp ∧
    (setReg s n i v).ck = s.ck ∧
    (setReg s n i v).sc = s.sc ∧
    (setReg s n i v).hl = s.hl ∧
    (setReg s n i v).st = s.st ∧
    (setReg s n i v).tw = s.tw ∧
    (setReg s n i v).sv = s.sv ∧
    (setReg s n i v).pd = s.pd ∧
    (setReg s n i v).ct = s.ct ∧
    (setReg s n i v).pl = s.pl ∧
    (setReg s n i v).vc = s.vc := by
  unfold Machine.setReg; first | (simp; done) | ((repeat' split) <;> simp; done) | (dsimp only; (repeat' split) <;> simp; done)
@[simp] theorem setBit_keeps {s : State} {n : RegName} {i : Nat} {b : Nat} {v : Bool} :
    (setBit s n i b v).pending = s.pending ∧
    (setBit s n i b v).now = s.now ∧
    (setBit s n i b v).out = s.out ∧
    (setBit s n i b v).fr = s.fr ∧
    (setBit s n i b v).mx = s.mx ∧
    (setBit s n i b v).fx = s.fx ∧
    (setBit s n i b v).ps = s.ps ∧
    (setBit s n i b v).sp = s.sp ∧
    (setBit s n i b v).ai = s.ai ∧
    (setBit s n i b v).aq = s.aq ∧
    (setBit s n i b v).dp = s.dp ∧
    (setBit s n i b v).ck = s.ck ∧
    (setBit s n i b v).sc = s.sc ∧
    (setBit s n i b v).hl = s.hl ∧
    (setBit s n i b v).st = s.st ∧
    (setBit s n i b v).tw = s.tw ∧
    (setBit s n i b v).sv = s.sv ∧
    (setBit s n i b v).pd = s.pd ∧
    (setBit s n i b v).ct = s.ct ∧
    (setBit s n i b v).pl = s.pl ∧
    (setBit s n i b v).vc = s.vc := by
  unfold Machine.setBit; first | (simp; done) | ((repeat' split) <;> simp; done) | (dsimp only; (repeat' split) <;> simp; done)
@[simp] theorem leaveL1_keeps {s : State} :
    (leaveL1 s).pending = s.pending ∧
    (leaveL1 s).now = s.now ∧
    (leaveL1 s).out = s.out ∧
    (leaveL1 s).regs = s.regs ∧
    (leaveL1 s).fr = s.fr ∧
    (leaveL1 s).mx = s.mx ∧
    (leaveL1 s).fx = s.fx ∧
    (leaveL1 s).ps = s.ps ∧
    (leaveL1 s).sp = s.sp ∧
    (leaveL1 s).ai = s.ai ∧
    (leaveL1 s).aq = s.aq ∧
    (leaveL1 s).dp = s.dp ∧
    (leaveL1 s).ck = s.ck ∧
    (leaveL1 s).sc = s.sc ∧
    (leaveL1 s).st = s.st ∧
    (leaveL1 s).tw = s.tw ∧
    (leaveL1 s).sv = s.sv ∧
    (leaveL1 s).pd = s.pd ∧
    (leaveL1 s).ct = s.ct ∧
    (leaveL1 s).pl = s.pl ∧
    (leaveL1 s).vc = s.vc ∧
    (leaveL1 s).hl.locked = s.hl.locked := by
  unfold Machine.leaveL1; first | (simp; done) | ((repeat' split) <;> simp; done) | (dsimp only; (repeat' split) <;> simp; done)
@[simp] theorem dmaWrite_keeps {s : State} {addr : Nat} {b : Bytes} :
    (dmaWrite s addr b).pending = s.pending ∧
    (dmaWrite s addr b).now = s.now ∧
    (dmaWrite s addr b).regs = s.regs ∧
    (dmaWrite s addr b).fr = s.fr ∧
    (dmaWrite s addr b).mx = s.mx ∧
    (dmaWrite s addr b).fx = s.fx ∧
    (dmaWrite s addr b).ps = s.ps ∧
    (dmaWrite s addr b).sp = s.sp ∧
    (dmaWrite s addr b).ai = s.ai ∧
    (dmaWrite s addr b).aq = s.aq ∧
    (dmaWrite s addr b).dp = s.dp ∧
    (dmaWrite s addr b).ck = s.ck ∧
    (dmaWrite s addr b).sc = s.sc ∧
    (dmaWrite s addr b).st = s.st ∧
    (dmaWrite s addr b).tw = s.tw ∧
    (dmaWrite s addr b).sv = s.sv ∧
    (dmaWrite s addr b).pd = s.pd ∧
    (dmaWrite s addr b).ct = s.ct ∧
    (dmaWrite s addr b).pl = s.pl ∧
    (dmaWrite s addr b).vc = s.vc ∧
    (dmaWrite s addr b).hl.locked = s.hl.locked := by
  unfold Machine.dmaWrite; first | (simp; done) | ((repeat' split) <;> simp; done) | (dsimp only; (repeat' split) <;> simp; done)
@[simp] theorem sendMsi_keeps {s : State} {v : Nat} :
    (sendMsi s v).pending = s.pending ∧
    (sendMsi s v).now = s.now ∧
    (sendMsi s v).regs = s.regs ∧
    (sendMsi s v).fr = s.fr ∧
    (sendMsi s v).mx = s.mx ∧
    (sendMsi s v).fx = s.fx ∧
    (sendMsi s v).ps = s.ps ∧
    (sendMsi s v).sp = s.sp ∧
    (sendMsi s v).ai = s.ai ∧
    (sendMsi s v).aq = s.aq ∧
    (sendMsi s v).dp = s.dp ∧
    (sendMsi s v).ck = s.ck ∧
    (sendMsi s v).sc = s.sc ∧
    (sendMsi s v).st = s.st ∧
    (sendMsi s v).tw = s.tw ∧
    (sendMsi s v).sv = s.sv ∧
    (sendMsi s v).pd = s.pd ∧
    (sendMsi s v).ct = s.ct ∧
    (sendMsi s v).pl = s.pl ∧
    (sendMsi s v).vc = s.vc ∧
    (sendMsi s v).hl.locked = s.hl.locked := by
  unfold Machine.sendMsi; first | (simp; done) | ((repeat' split) <;> simp; done) | (dsimp only; (repeat' split) <;> simp; done)
@[simp] theorem signal_keeps {s : State} {v : Nat} :
    (signal s v).pending = s.pending ∧
    (signal s v).now = s.now ∧
    (signal s v).regs = s.regs ∧
    (signal s v).fr = s.fr ∧
    (signal s v).mx = s.mx ∧
    (signal s v).fx = s.fx ∧
    (signal s v).ps = s.ps ∧
    (signal s v).sp = s.sp ∧
    (signal s v).ai = s.ai ∧
    (signal s v).aq = s.aq ∧
    (signal s v).dp = s.dp ∧
    (signal s v).ck = s.ck ∧
    (signal s v).sc = s.sc ∧
    (signal s v).st = s.st ∧
    (signal s v).tw = s.tw ∧
    (signal s v).sv = s.sv ∧
    (signal s v).pd = s.pd ∧
    (signal s v).ct = s.ct ∧
    (signal s v).pl = s.pl ∧
    (signal s v).vc = s.vc ∧
    (signal s v).hl.locked = s.hl.locked := by
  unfold Machine.signal; first | (simp; done) | ((repeat' split) <;> simp; done) | (dsimp only; (repeat' split) <;> simp; done)
@[simp] theorem writeEntry_keeps {s : State} {addr : Nat} {b : Bytes} {k : Nat} :
    (writeEntry s addr b k).pending = s.pending ∧
    (writeEntry s addr b k).now = s.now ∧
    (writeEntry s addr b k).regs = s.regs ∧
    (writeEntry s addr b k).fr = s.fr ∧
    (writeEntry s addr b k).mx = s.mx ∧
    (writeEntry s addr b k).fx = s.fx ∧
    (writeEntry s addr b k).ps = s.ps ∧
    (writeEntry s addr b k).sp = s.sp ∧
    (writeEntry s addr b k).ai = s.ai ∧
    (writeEntry s addr b k).aq = s.aq ∧
    (writeEntry s addr b k).dp = s.dp ∧
    (writeEntry s addr b k).ck = s.ck ∧
    (writeEntry s addr b k).sc = s.sc ∧
    (writeEntry s addr b k).st = s.st ∧
    (writeEntry s addr b k).tw = s.tw ∧
    (writeEntry s addr b k).sv = s.sv ∧
    (writeEntry s addr b k).pd = s.pd ∧
    (writeEntry s addr b k).ct = s.ct ∧
    (writeEntry s addr b k).pl = s.pl ∧
    (writeEntry s addr b k).vc = s.vc ∧
    (writeEntry s addr b k).hl.locked = s.hl.locked := by
  unfold Machine.writeEntry; first | (simp; done) | ((repeat' split) <;> simp; done) | (dsimp only; (repeat' split) <;> simp; done)
@[simp] theorem putEvent_keeps {s : State} {e : Event} :
    (putEvent s e).pending = s.pending ∧
    (putEvent s e).now = s.now ∧
    (putEvent s e).regs = s.regs ∧
    (putEvent s e).fr = s.fr ∧
    (putEvent s e).mx = s.mx ∧
    (putEvent s e).fx = s.fx ∧
    (putEvent s e).ps = s.ps ∧
    (putEvent s e).sp = s.sp ∧
    (putEvent s e).ai = s.ai ∧
    (putEvent s e).aq = s.aq ∧
    (putEvent s e).dp = s.dp ∧
    (putEvent s e).ck = s.ck ∧
    (putEvent s e).sc = s.sc ∧
    (putEvent s e).st = s.st ∧
    (putEvent s e).tw = s.tw ∧
    (putEvent s e).sv = s.sv ∧
    (putEvent s e).pd = s.pd ∧
    (putEvent s e).ct = s.ct ∧
    (putEvent s e).pl = s.pl ∧
    (putEvent s e).vc = s.vc ∧
    (putEvent s e).hl.locked = s.hl.locked := by
  unfold Machine.putEvent; first | (simp; done) | ((repeat' split) <;> simp; done) | (dsimp only; (repeat' split) <;> simp; done)
@[simp] theorem flushLost_keeps {s : State} :
    (flushLost s).pending = s.pending ∧
    (flushLost s).now = s.now ∧
    (flushLost s).regs = s.regs ∧
    (flushLost s).fr = s.fr ∧
    (flushLost s).mx = s.mx ∧
    (flushLost s).fx = s.fx ∧
    (flushLost s).ps = s.ps ∧
    (flushLost s).sp = s.sp ∧
    (flushLost s).ai = s.ai ∧
    (flushLost s).aq = s.aq ∧
    (flushLost s).dp = s.dp ∧
    (flushLost s).ck = s.ck ∧
    (flushLost s).sc = s.sc ∧
    (flushLost s).st = s.st ∧
    (flushLost s).tw = s.tw ∧
    (flushLost s).sv = s.sv ∧
    (flushLost s).pd = s.pd ∧
    (flushLost s).ct = s.ct ∧
    (flushLost s).pl = s.pl ∧
    (flushLost s).vc = s.vc ∧
    (flushLost s).hl.locked = s.hl.locked := by
  unfold Machine.flushLost; first | (simp; done) | ((repeat' split) <;> simp; done) | (dsimp only; (repeat' split) <;> simp; done)
@[simp] theorem dropEvent_keeps {s : State} {e : Event} :
    (dropEvent s e).pending = s.pending ∧
    (dropEvent s e).now = s.now ∧
    (dropEvent s e).out = s.out ∧
    (dropEvent s e).regs = s.regs ∧
    (dropEvent s e).fr = s.fr ∧
    (dropEvent s e).mx = s.mx ∧
    (dropEvent s e).fx = s.fx ∧
    (dropEvent s e).ps = s.ps ∧
    (dropEvent s e).sp = s.sp ∧
    (dropEvent s e).ai = s.ai ∧
    (dropEvent s e).aq = s.aq ∧
    (dropEvent s e).dp = s.dp ∧
    (dropEvent s e).ck = s.ck ∧
    (dropEvent s e).sc = s.sc ∧
    (dropEvent s e).st = s.st ∧
    (dropEvent s e).tw = s.tw ∧
    (dropEvent s e).sv = s.sv ∧
    (dropEvent s e).pd = s.pd ∧
    (dropEvent s e).ct = s.ct ∧
    (dropEvent s e).pl = s.pl ∧
    (dropEvent s e).vc = s.vc ∧
    (dropEvent s e).hl.locked = s.hl.locked := by
  unfold Machine.dropEvent; first | (simp; done) | ((repeat' split) <;> simp; done) | (dsimp only; (repeat' split) <;> simp; done)
@[simp] theorem flushDue_keeps {s : State} :
    (flushDue s).pending = s.pending ∧
    (flushDue s).now = s.now ∧
    (flushDue s).regs = s.regs ∧
    (flushDue s).fr = s.fr ∧
    (flushDue s).mx = s.mx ∧
    (flushDue s).fx = s.fx ∧
    (flushDue s).ps = s.ps ∧
    (flushDue s).sp = s.sp ∧
    (flushDue s).ai = s.ai ∧
    (flushDue s).aq = s.aq ∧
    (flushDue s).dp = s.dp ∧
    (flushDue s).ck = s.ck ∧
    (flushDue s).sc = s.sc ∧
    (flushDue s).st = s.st ∧
    (flushDue s).tw = s.tw ∧
    (flushDue s).sv = s.sv ∧
    (flushDue s).pd = s.pd ∧
    (flushDue s).ct = s.ct ∧
    (flushDue s).pl = s.pl ∧
    (flushDue s).vc = s.vc ∧
    (flushDue s).hl.locked = s.hl.locked := by
  unfold Machine.flushDue; first | (simp; done) | ((repeat' split) <;> simp; done) | (dsimp only; (repeat' split) <;> simp; done)
@[simp] theorem writeRecords_keeps {l : List Event} {s : State} :
    (writeRecords l s).pending = s.pending ∧
    (writeRecords l s).now = s.now ∧
    (writeRecords l s).regs = s.regs ∧
    (writeRecords l s).fr = s.fr ∧
    (writeRecords l s).mx = s.mx ∧
    (writeRecords l s).fx = s.fx ∧
    (writeRecords l s).ps = s.ps ∧
    (writeRecords l s).sp = s.sp ∧
    (writeRecords l s).ai = s.ai ∧
    (writeRecords l s).aq = s.aq ∧
    (writeRecords l s).dp = s.dp ∧
    (writeRecords l s).ck = s.ck ∧
    (writeRecords l s).sc = s.sc ∧
    (writeRecords l s).st = s.st ∧
    (writeRecords l s).tw = s.tw ∧
    (writeRecords l s).sv = s.sv ∧
    (writeRecords l s).pd = s.pd ∧
    (writeRecords l s).ct = s.ct ∧
    (writeRecords l s).pl = s.pl ∧
    (writeRecords l s).vc = s.vc ∧
    (writeRecords l s).hl.locked = s.hl.locked := by
  induction l generalizing s with
  | nil => simp [writeRecords]
  | cons e r ih => simp only [writeRecords]; split <;> simp [ih]
@[simp] theorem writeWaiting_keeps {s : State} :
    (writeWaiting s).pending = s.pending ∧
    (writeWaiting s).now = s.now ∧
    (writeWaiting s).regs = s.regs ∧
    (writeWaiting s).fr = s.fr ∧
    (writeWaiting s).mx = s.mx ∧
    (writeWaiting s).fx = s.fx ∧
    (writeWaiting s).ps = s.ps ∧
    (writeWaiting s).sp = s.sp ∧
    (writeWaiting s).ai = s.ai ∧
    (writeWaiting s).aq = s.aq ∧
    (writeWaiting s).dp = s.dp ∧
    (writeWaiting s).ck = s.ck ∧
    (writeWaiting s).sc = s.sc ∧
    (writeWaiting s).st = s.st ∧
    (writeWaiting s).tw = s.tw ∧
    (writeWaiting s).sv = s.sv ∧
    (writeWaiting s).pd = s.pd ∧
    (writeWaiting s).ct = s.ct ∧
    (writeWaiting s).pl = s.pl ∧
    (writeWaiting s).vc = s.vc ∧
    (writeWaiting s).hl.locked = s.hl.locked := by
  unfold Machine.writeWaiting; first | (simp; done) | ((repeat' split) <;> simp; done) | (dsimp only; (repeat' split) <;> simp; done)
@[simp] theorem writeEvent_keeps {s : State} {e : Event} :
    (writeEvent s e).pending = s.pending ∧
    (writeEvent s e).now = s.now ∧
    (writeEvent s e).regs = s.regs ∧
    (writeEvent s e).fr = s.fr ∧
    (writeEvent s e).mx = s.mx ∧
    (writeEvent s e).fx = s.fx ∧
    (writeEvent s e).ps = s.ps ∧
    (writeEvent s e).sp = s.sp ∧
    (writeEvent s e).ai = s.ai ∧
    (writeEvent s e).aq = s.aq ∧
    (writeEvent s e).dp = s.dp ∧
    (writeEvent s e).ck = s.ck ∧
    (writeEvent s e).sc = s.sc ∧
    (writeEvent s e).st = s.st ∧
    (writeEvent s e).tw = s.tw ∧
    (writeEvent s e).sv = s.sv ∧
    (writeEvent s e).pd = s.pd ∧
    (writeEvent s e).ct = s.ct ∧
    (writeEvent s e).pl = s.pl ∧
    (writeEvent s e).vc = s.vc ∧
    (writeEvent s e).hl.locked = s.hl.locked := by
  unfold Machine.writeEvent; first | (simp; done) | ((repeat' split) <;> simp; done) | (dsimp only; (repeat' split) <;> simp; done)
@[simp] theorem wakeHost_keeps {s : State} :
    (wakeHost s).pending = s.pending ∧
    (wakeHost s).now = s.now ∧
    (wakeHost s).regs = s.regs ∧
    (wakeHost s).fr = s.fr ∧
    (wakeHost s).mx = s.mx ∧
    (wakeHost s).fx = s.fx ∧
    (wakeHost s).ps = s.ps ∧
    (wakeHost s).sp = s.sp ∧
    (wakeHost s).ai = s.ai ∧
    (wakeHost s).aq = s.aq ∧
    (wakeHost s).dp = s.dp ∧
    (wakeHost s).ck = s.ck ∧
    (wakeHost s).sc = s.sc ∧
    (wakeHost s).st = s.st ∧
    (wakeHost s).tw = s.tw ∧
    (wakeHost s).sv = s.sv ∧
    (wakeHost s).pd = s.pd ∧
    (wakeHost s).ct = s.ct ∧
    (wakeHost s).pl = s.pl ∧
    (wakeHost s).vc = s.vc ∧
    (wakeHost s).hl.locked = s.hl.locked := by
  unfold Machine.wakeHost; first | (simp; done) | ((repeat' split) <;> simp; done) | (dsimp only; (repeat' split) <;> simp; done)
@[simp] theorem ringEvent_keeps {s : State} {e : Event} :
    (ringEvent s e).pending = s.pending ∧
    (ringEvent s e).now = s.now ∧
    (ringEvent s e).regs = s.regs ∧
    (ringEvent s e).fr = s.fr ∧
    (ringEvent s e).mx = s.mx ∧
    (ringEvent s e).fx = s.fx ∧
    (ringEvent s e).ps = s.ps ∧
    (ringEvent s e).sp = s.sp ∧
    (ringEvent s e).ai = s.ai ∧
    (ringEvent s e).aq = s.aq ∧
    (ringEvent s e).dp = s.dp ∧
    (ringEvent s e).ck = s.ck ∧
    (ringEvent s e).sc = s.sc ∧
    (ringEvent s e).st = s.st ∧
    (ringEvent s e).tw = s.tw ∧
    (ringEvent s e).sv = s.sv ∧
    (ringEvent s e).pd = s.pd ∧
    (ringEvent s e).ct = s.ct ∧
    (ringEvent s e).pl = s.pl ∧
    (ringEvent s e).vc = s.vc ∧
    (ringEvent s e).hl.locked = s.hl.locked := by
  unfold Machine.ringEvent; first | (simp; done) | ((repeat' split) <;> simp; done) | (dsimp only; (repeat' split) <;> simp; done)
@[simp] theorem followAttention_keeps {s : State} :
    (followAttention s).pending = s.pending ∧
    (followAttention s).now = s.now ∧
    (followAttention s).out = s.out ∧
    (followAttention s).regs = s.regs ∧
    (followAttention s).fr = s.fr ∧
    (followAttention s).mx = s.mx ∧
    (followAttention s).fx = s.fx ∧
    (followAttention s).ps = s.ps ∧
    (followAttention s).sp = s.sp ∧
    (followAttention s).ai = s.ai ∧
    (followAttention s).aq = s.aq ∧
    (followAttention s).dp = s.dp ∧
    (followAttention s).ck = s.ck ∧
    (followAttention s).sc = s.sc ∧
    (followAttention s).hl = s.hl ∧
    (followAttention s).st = s.st ∧
    (followAttention s).sv = s.sv ∧
    (followAttention s).pd = s.pd ∧
    (followAttention s).ct = s.ct ∧
    (followAttention s).pl = s.pl ∧
    (followAttention s).vc = s.vc := by
  unfold Machine.followAttention; first | (simp; done) | ((repeat' split) <;> simp; done) | (dsimp only; (repeat' split) <;> simp; done)
@[simp] theorem twFlush_keeps {s : State} :
    (twFlush s).pending = s.pending ∧
    (twFlush s).now = s.now ∧
    (twFlush s).out = s.out ∧
    (twFlush s).regs = s.regs ∧
    (twFlush s).fr = s.fr ∧
    (twFlush s).mx = s.mx ∧
    (twFlush s).fx = s.fx ∧
    (twFlush s).ps = s.ps ∧
    (twFlush s).sp = s.sp ∧
    (twFlush s).ai = s.ai ∧
    (twFlush s).aq = s.aq ∧
    (twFlush s).dp = s.dp ∧
    (twFlush s).ck = s.ck ∧
    (twFlush s).sc = s.sc ∧
    (twFlush s).hl = s.hl ∧
    (twFlush s).st = s.st ∧
    (twFlush s).sv = s.sv ∧
    (twFlush s).pd = s.pd ∧
    (twFlush s).ct = s.ct ∧
    (twFlush s).pl = s.pl ∧
    (twFlush s).vc = s.vc := by
  unfold Machine.twFlush; first | (simp; done) | ((repeat' split) <;> simp; done) | (dsimp only; (repeat' split) <;> simp; done)
@[simp] theorem twQueue_keeps {s : State} {e : Event} :
    (twQueue s e).pending = s.pending ∧
    (twQueue s e).now = s.now ∧
    (twQueue s e).out = s.out ∧
    (twQueue s e).regs = s.regs ∧
    (twQueue s e).fr = s.fr ∧
    (twQueue s e).mx = s.mx ∧
    (twQueue s e).fx = s.fx ∧
    (twQueue s e).ps = s.ps ∧
    (twQueue s e).sp = s.sp ∧
    (twQueue s e).ai = s.ai ∧
    (twQueue s e).aq = s.aq ∧
    (twQueue s e).dp = s.dp ∧
    (twQueue s e).ck = s.ck ∧
    (twQueue s e).sc = s.sc ∧
    (twQueue s e).hl = s.hl ∧
    (twQueue s e).st = s.st ∧
    (twQueue s e).sv = s.sv ∧
    (twQueue s e).pd = s.pd ∧
    (twQueue s e).ct = s.ct ∧
    (twQueue s e).pl = s.pl ∧
    (twQueue s e).vc = s.vc := by
  unfold Machine.twQueue; first | (simp; done) | ((repeat' split) <;> simp; done) | (dsimp only; (repeat' split) <;> simp; done)
@[simp] theorem twCopy_keeps {s : State} {e : Event} :
    (twCopy s e).pending = s.pending ∧
    (twCopy s e).now = s.now ∧
    (twCopy s e).out = s.out ∧
    (twCopy s e).regs = s.regs ∧
    (twCopy s e).fr = s.fr ∧
    (twCopy s e).mx = s.mx ∧
    (twCopy s e).fx = s.fx ∧
    (twCopy s e).ps = s.ps ∧
    (twCopy s e).sp = s.sp ∧
    (twCopy s e).ai = s.ai ∧
    (twCopy s e).aq = s.aq ∧
    (twCopy s e).dp = s.dp ∧
    (twCopy s e).ck = s.ck ∧
    (twCopy s e).sc = s.sc ∧
    (twCopy s e).hl = s.hl ∧
    (twCopy s e).st = s.st ∧
    (twCopy s e).sv = s.sv ∧
    (twCopy s e).pd = s.pd ∧
    (twCopy s e).ct = s.ct ∧
    (twCopy s e).pl = s.pl ∧
    (twCopy s e).vc = s.vc := by
  unfold Machine.twCopy; first | (simp; done) | ((repeat' split) <;> simp; done) | (dsimp only; (repeat' split) <;> simp; done)
@[simp] theorem emitAt_keeps {s : State} {code : Nat} {unit : Nat} {fn : Nat} {frac : Frac} {p : BitVec 128} :
    (emitAt s code unit fn frac p).pending = s.pending ∧
    (emitAt s code unit fn frac p).now = s.now ∧
    (emitAt s code unit fn frac p).regs = s.regs ∧
    (emitAt s code unit fn frac p).fr = s.fr ∧
    (emitAt s code unit fn frac p).mx = s.mx ∧
    (emitAt s code unit fn frac p).fx = s.fx ∧
    (emitAt s code unit fn frac p).ps = s.ps ∧
    (emitAt s code unit fn frac p).sp = s.sp ∧
    (emitAt s code unit fn frac p).ai = s.ai ∧
    (emitAt s code unit fn frac p).aq = s.aq ∧
    (emitAt s code unit fn frac p).dp = s.dp ∧
    (emitAt s code unit fn frac p).ck = s.ck ∧
    (emitAt s code unit fn frac p).sc = s.sc ∧
    (emitAt s code unit fn frac p).st = s.st ∧
    (emitAt s code unit fn frac p).sv = s.sv ∧
    (emitAt s code unit fn frac p).pd = s.pd ∧
    (emitAt s code unit fn frac p).ct = s.ct ∧
    (emitAt s code unit fn frac p).pl = s.pl ∧
    (emitAt s code unit fn frac p).vc = s.vc ∧
    (emitAt s code unit fn frac p).hl.locked = s.hl.locked := by
  unfold Machine.emitAt; first | (simp; done) | ((repeat' split) <;> simp; done) | (dsimp only; (repeat' split) <;> simp; done)
@[simp] theorem emit_keeps {s : State} {code : Nat} {unit : Nat} {p : BitVec 128} :
    (emit s code unit p).pending = s.pending ∧
    (emit s code unit p).now = s.now ∧
    (emit s code unit p).regs = s.regs ∧
    (emit s code unit p).fr = s.fr ∧
    (emit s code unit p).mx = s.mx ∧
    (emit s code unit p).fx = s.fx ∧
    (emit s code unit p).ps = s.ps ∧
    (emit s code unit p).sp = s.sp ∧
    (emit s code unit p).ai = s.ai ∧
    (emit s code unit p).aq = s.aq ∧
    (emit s code unit p).dp = s.dp ∧
    (emit s code unit p).ck = s.ck ∧
    (emit s code unit p).sc = s.sc ∧
    (emit s code unit p).st = s.st ∧
    (emit s code unit p).sv = s.sv ∧
    (emit s code unit p).pd = s.pd ∧
    (emit s code unit p).ct = s.ct ∧
    (emit s code unit p).pl = s.pl ∧
    (emit s code unit p).vc = s.vc ∧
    (emit s code unit p).hl.locked = s.hl.locked := by
  unfold Machine.emit; first | (simp; done) | ((repeat' split) <;> simp; done) | (dsimp only; (repeat' split) <;> simp; done)
@[simp] theorem holdEvent_keeps {s : State} {code : Nat} {unit : Nat} {p : BitVec 128} :
    (holdEvent s code unit p).pending = s.pending ∧
    (holdEvent s code unit p).now = s.now ∧
    (holdEvent s code unit p).out = s.out ∧
    (holdEvent s code unit p).regs = s.regs ∧
    (holdEvent s code unit p).fr = s.fr ∧
    (holdEvent s code unit p).mx = s.mx ∧
    (holdEvent s code unit p).fx = s.fx ∧
    (holdEvent s code unit p).ps = s.ps ∧
    (holdEvent s code unit p).sp = s.sp ∧
    (holdEvent s code unit p).ai = s.ai ∧
    (holdEvent s code unit p).aq = s.aq ∧
    (holdEvent s code unit p).dp = s.dp ∧
    (holdEvent s code unit p).ck = s.ck ∧
    (holdEvent s code unit p).sc = s.sc ∧
    (holdEvent s code unit p).st = s.st ∧
    (holdEvent s code unit p).sv = s.sv ∧
    (holdEvent s code unit p).pd = s.pd ∧
    (holdEvent s code unit p).ct = s.ct ∧
    (holdEvent s code unit p).pl = s.pl ∧
    (holdEvent s code unit p).vc = s.vc ∧
    (holdEvent s code unit p).hl.locked = s.hl.locked := by
  unfold Machine.holdEvent; first | (simp; done) | ((repeat' split) <;> simp; done) | (dsimp only; (repeat' split) <;> simp; done)
@[simp] theorem refusedEvent_keeps {s : State} {src : Owner} {tag : Nat} {g : Nat} :
    (refusedEvent s src tag g).pending = s.pending ∧
    (refusedEvent s src tag g).now = s.now ∧
    (refusedEvent s src tag g).regs = s.regs ∧
    (refusedEvent s src tag g).fr = s.fr ∧
    (refusedEvent s src tag g).mx = s.mx ∧
    (refusedEvent s src tag g).fx = s.fx ∧
    (refusedEvent s src tag g).ps = s.ps ∧
    (refusedEvent s src tag g).sp = s.sp ∧
    (refusedEvent s src tag g).ai = s.ai ∧
    (refusedEvent s src tag g).aq = s.aq ∧
    (refusedEvent s src tag g).dp = s.dp ∧
    (refusedEvent s src tag g).ck = s.ck ∧
    (refusedEvent s src tag g).sc = s.sc ∧
    (refusedEvent s src tag g).st = s.st ∧
    (refusedEvent s src tag g).sv = s.sv ∧
    (refusedEvent s src tag g).pd = s.pd ∧
    (refusedEvent s src tag g).ct = s.ct ∧
    (refusedEvent s src tag g).pl = s.pl ∧
    (refusedEvent s src tag g).vc = s.vc ∧
    (refusedEvent s src tag g).hl.locked = s.hl.locked := by
  unfold Machine.refusedEvent; first | (simp; done) | ((repeat' split) <;> simp; done) | (dsimp only; (repeat' split) <;> simp; done)
@[simp] theorem ownerRefuse_keeps {s : State} {src : Owner} {tag : Nat} {gs : List Nat} :
    (ownerRefuse s src tag gs).pending = s.pending ∧
    (ownerRefuse s src tag gs).now = s.now ∧
    (ownerRefuse s src tag gs).regs = s.regs ∧
    (ownerRefuse s src tag gs).fr = s.fr ∧
    (ownerRefuse s src tag gs).mx = s.mx ∧
    (ownerRefuse s src tag gs).fx = s.fx ∧
    (ownerRefuse s src tag gs).ps = s.ps ∧
    (ownerRefuse s src tag gs).sp = s.sp ∧
    (ownerRefuse s src tag gs).ai = s.ai ∧
    (ownerRefuse s src tag gs).aq = s.aq ∧
    (ownerRefuse s src tag gs).dp = s.dp ∧
    (ownerRefuse s src tag gs).ck = s.ck ∧
    (ownerRefuse s src tag gs).sc = s.sc ∧
    (ownerRefuse s src tag gs).st = s.st ∧
    (ownerRefuse s src tag gs).sv = s.sv ∧
    (ownerRefuse s src tag gs).pd = s.pd ∧
    (ownerRefuse s src tag gs).ct = s.ct ∧
    (ownerRefuse s src tag gs).pl = s.pl ∧
    (ownerRefuse s src tag gs).vc = s.vc ∧
    (ownerRefuse s src tag gs).hl.locked = s.hl.locked := by
  unfold Machine.ownerRefuse; first | (simp; done) | ((repeat' split) <;> simp; done) | (dsimp only; (repeat' split) <;> simp; done)
@[simp] theorem superseded_keeps {s : State} {loser : Owner} {winner : Owner} {tag : Nat} {g : Nat} {now : optParam Bool false} :
    (superseded s loser winner tag g now).pending = s.pending ∧
    (superseded s loser winner tag g now).now = s.now ∧
    (superseded s loser winner tag g now).regs = s.regs ∧
    (superseded s loser winner tag g now).fr = s.fr ∧
    (superseded s loser winner tag g now).mx = s.mx ∧
    (superseded s loser winner tag g now).fx = s.fx ∧
    (superseded s loser winner tag g now).ps = s.ps ∧
    (superseded s loser winner tag g now).sp = s.sp ∧
    (superseded s loser winner tag g now).ai = s.ai ∧
    (superseded s loser winner tag g now).aq = s.aq ∧
    (superseded s loser winner tag g now).dp = s.dp ∧
    (superseded s loser winner tag g now).ck = s.ck ∧
    (superseded s loser winner tag g now).sc = s.sc ∧
    (superseded s loser winner tag g now).st = s.st ∧
    (superseded s loser winner tag g now).sv = s.sv ∧
    (superseded s loser winner tag g now).pd = s.pd ∧
    (superseded s loser winner tag g now).ct = s.ct ∧
    (superseded s loser winner tag g now).pl = s.pl ∧
    (superseded s loser winner tag g now).vc = s.vc ∧
    (superseded s loser winner tag g now).hl.locked = s.hl.locked := by
  unfold Machine.superseded; first | (simp; done) | ((repeat' split) <;> simp; done) | (dsimp only; (repeat' split) <;> simp; done)
@[simp] theorem noteWrite_keeps {s : State} {src : Owner} {off : Nat} {g : Nat} :
    (noteWrite s src off g).1.pending = s.pending ∧
    (noteWrite s src off g).1.now = s.now ∧
    (noteWrite s src off g).1.regs = s.regs ∧
    (noteWrite s src off g).1.fr = s.fr ∧
    (noteWrite s src off g).1.mx = s.mx ∧
    (noteWrite s src off g).1.fx = s.fx ∧
    (noteWrite s src off g).1.ps = s.ps ∧
    (noteWrite s src off g).1.sp = s.sp ∧
    (noteWrite s src off g).1.ai = s.ai ∧
    (noteWrite s src off g).1.aq = s.aq ∧
    (noteWrite s src off g).1.dp = s.dp ∧
    (noteWrite s src off g).1.ck = s.ck ∧
    (noteWrite s src off g).1.sc = s.sc ∧
    (noteWrite s src off g).1.st = s.st ∧
    (noteWrite s src off g).1.sv = s.sv ∧
    (noteWrite s src off g).1.pd = s.pd ∧
    (noteWrite s src off g).1.ct = s.ct ∧
    (noteWrite s src off g).1.pl = s.pl ∧
    (noteWrite s src off g).1.vc = s.vc ∧
    (noteWrite s src off g).1.hl.locked = s.hl.locked := by
  unfold Machine.noteWrite; first | (simp; done) | ((repeat' split) <;> simp; done) | (dsimp only; (repeat' split) <;> simp; done)
@[simp] theorem stageAt_keeps {s : State} {o : Owner} {b : Nat} {i : Item} :
    (stageAt s o b i).pending = s.pending ∧
    (stageAt s o b i).now = s.now ∧
    (stageAt s o b i).out = s.out ∧
    (stageAt s o b i).regs = s.regs ∧
    (stageAt s o b i).mx = s.mx ∧
    (stageAt s o b i).fx = s.fx ∧
    (stageAt s o b i).ps = s.ps ∧
    (stageAt s o b i).sp = s.sp ∧
    (stageAt s o b i).ai = s.ai ∧
    (stageAt s o b i).aq = s.aq ∧
    (stageAt s o b i).dp = s.dp ∧
    (stageAt s o b i).ck = s.ck ∧
    (stageAt s o b i).sc = s.sc ∧
    (stageAt s o b i).hl = s.hl ∧
    (stageAt s o b i).st = s.st ∧
    (stageAt s o b i).tw = s.tw ∧
    (stageAt s o b i).sv = s.sv ∧
    (stageAt s o b i).pd = s.pd ∧
    (stageAt s o b i).ct = s.ct ∧
    (stageAt s o b i).pl = s.pl ∧
    (stageAt s o b i).vc = s.vc ∧
    (stageAt s o b i).fr.fn = s.fr.fn ∧
    (stageAt s o b i).fr.next = s.fr.next ∧
    (stageAt s o b i).fr.running = s.fr.running := by
  unfold Machine.stageAt; first | (simp; done) | ((repeat' split) <;> simp; done) | (dsimp only; (repeat' split) <;> simp; done)
@[simp] theorem stage_keeps {s : State} {o : Owner} {i : Item} :
    (stage s o i).pending = s.pending ∧
    (stage s o i).now = s.now ∧
    (stage s o i).out = s.out ∧
    (stage s o i).regs = s.regs ∧
    (stage s o i).mx = s.mx ∧
    (stage s o i).fx = s.fx ∧
    (stage s o i).ps = s.ps ∧
    (stage s o i).sp = s.sp ∧
    (stage s o i).ai = s.ai ∧
    (stage s o i).aq = s.aq ∧
    (stage s o i).dp = s.dp ∧
    (stage s o i).ck = s.ck ∧
    (stage s o i).sc = s.sc ∧
    (stage s o i).hl = s.hl ∧
    (stage s o i).st = s.st ∧
    (stage s o i).tw = s.tw ∧
    (stage s o i).sv = s.sv ∧
    (stage s o i).pd = s.pd ∧
    (stage s o i).ct = s.ct ∧
    (stage s o i).pl = s.pl ∧
    (stage s o i).vc = s.vc ∧
    (stage s o i).fr.fn = s.fr.fn ∧
    (stage s o i).fr.next = s.fr.next ∧
    (stage s o i).fr.running = s.fr.running := by
  unfold Machine.stage; first | (simp; done) | ((repeat' split) <;> simp; done) | (dsimp only; (repeat' split) <;> simp; done)
@[simp] theorem atBoundary_pending {s : State} {f : State → State}
    (h : ∀ t, (f t).pending = t.pending) : (atBoundary s f).pending = s.pending := by
  unfold atBoundary; split <;> simp [h]
@[simp] theorem atBoundary_now {s : State} {f : State → State}
    (h : ∀ t, (f t).now = t.now) : (atBoundary s f).now = s.now := by
  unfold atBoundary; split <;> simp [h]
@[simp] theorem atBoundary_out {s : State} {f : State → State}
    (h : ∀ t, (f t).out = t.out) : (atBoundary s f).out = s.out := by
  unfold atBoundary; split <;> simp [h]
@[simp] theorem atBoundary_regs {s : State} {f : State → State}
    (h : ∀ t, (f t).regs = t.regs) : (atBoundary s f).regs = s.regs := by
  unfold atBoundary; split <;> simp [h]
@[simp] theorem atBoundary_fr {s : State} {f : State → State}
    (h : ∀ t, (f t).fr = t.fr) : (atBoundary s f).fr = s.fr := by
  unfold atBoundary; split <;> simp [h]
@[simp] theorem atBoundary_mx {s : State} {f : State → State}
    (h : ∀ t, (f t).mx = t.mx) : (atBoundary s f).mx = s.mx := by
  unfold atBoundary; split <;> simp [h]
@[simp] theorem atBoundary_fx {s : State} {f : State → State}
    (h : ∀ t, (f t).fx = t.fx) : (atBoundary s f).fx = s.fx := by
  unfold atBoundary; split <;> simp [h]
@[simp] theorem atBoundary_ps {s : State} {f : State → State}
    (h : ∀ t, (f t).ps = t.ps) : (atBoundary s f).ps = s.ps := by
  unfold atBoundary; split <;> simp [h]
@[simp] theorem atBoundary_sp {s : State} {f : State → State}
    (h : ∀ t, (f t).sp = t.sp) : (atBoundary s f).sp = s.sp := by
  unfold atBoundary; split <;> simp [h]
@[simp] theorem atBoundary_ai {s : State} {f : State → State}
    (h : ∀ t, (f t).ai = t.ai) : (atBoundary s f).ai = s.ai := by
  unfold atBoundary; split <;> simp [h]
@[simp] theorem atBoundary_aq {s : State} {f : State → State}
    (h : ∀ t, (f t).aq = t.aq) : (atBoundary s f).aq = s.aq := by
  unfold atBoundary; split <;> simp [h]
@[simp] theorem atBoundary_dp {s : State} {f : State → State}
    (h : ∀ t, (f t).dp = t.dp) : (atBoundary s f).dp = s.dp := by
  unfold atBoundary; split <;> simp [h]
@[simp] theorem atBoundary_ck {s : State} {f : State → State}
    (h : ∀ t, (f t).ck = t.ck) : (atBoundary s f).ck = s.ck := by
  unfold atBoundary; split <;> simp [h]
@[simp] theorem atBoundary_sc {s : State} {f : State → State}
    (h : ∀ t, (f t).sc = t.sc) : (atBoundary s f).sc = s.sc := by
  unfold atBoundary; split <;> simp [h]
@[simp] theorem atBoundary_hl {s : State} {f : State → State}
    (h : ∀ t, (f t).hl = t.hl) : (atBoundary s f).hl = s.hl := by
  unfold atBoundary; split <;> simp [h]
@[simp] theorem atBoundary_st {s : State} {f : State → State}
    (h : ∀ t, (f t).st = t.st) : (atBoundary s f).st = s.st := by
  unfold atBoundary; split <;> simp [h]
@[simp] theorem atBoundary_tw {s : State} {f : State → State}
    (h : ∀ t, (f t).tw = t.tw) : (atBoundary s f).tw = s.tw := by
  unfold atBoundary; split <;> simp [h]
@[simp] theorem atBoundary_sv {s : State} {f : State → State}
    (h : ∀ t, (f t).sv = t.sv) : (atBoundary s f).sv = s.sv := by
  unfold atBoundary; split <;> simp [h]
@[simp] theorem atBoundary_pd {s : State} {f : State → State}
    (h : ∀ t, (f t).pd = t.pd) : (atBoundary s f).pd = s.pd := by
  unfold atBoundary; split <;> simp [h]
@[simp] theorem atBoundary_ct {s : State} {f : State → State}
    (h : ∀ t, (f t).ct = t.ct) : (atBoundary s f).ct = s.ct := by
  unfold atBoundary; split <;> simp [h]
@[simp] theorem atBoundary_pl {s : State} {f : State → State}
    (h : ∀ t, (f t).pl = t.pl) : (atBoundary s f).pl = s.pl := by
  unfold atBoundary; split <;> simp [h]
@[simp] theorem atBoundary_vc {s : State} {f : State → State}
    (h : ∀ t, (f t).vc = t.vc) : (atBoundary s f).vc = s.vc := by
  unfold atBoundary; split <;> simp [h]
@[simp] theorem atBoundary_fr_fn {s : State} {f : State → State}
    (h : ∀ t, (f t).fr.fn = t.fr.fn) : (atBoundary s f).fr.fn = s.fr.fn := by
  unfold atBoundary; split <;> simp [h]
@[simp] theorem atBoundary_fr_next {s : State} {f : State → State}
    (h : ∀ t, (f t).fr.next = t.fr.next) : (atBoundary s f).fr.next = s.fr.next := by
  unfold atBoundary; split <;> simp [h]
@[simp] theorem atBoundary_fr_running {s : State} {f : State → State}
    (h : ∀ t, (f t).fr.running = t.fr.running) : (atBoundary s f).fr.running = s.fr.running := by
  unfold atBoundary; split <;> simp [h]
@[simp] theorem atBoundary_hl_locked {s : State} {f : State → State}
    (h : ∀ t, (f t).hl.locked = t.hl.locked) : (atBoundary s f).hl.locked = s.hl.locked := by
  unfold atBoundary; split <;> simp [h]
@[simp] theorem holdMirror_keeps {s : State} {o : Owner} {i : Item} {meet : Option (Nat × Nat × Nat × Nat)} :
    (holdMirror s o i meet).pending = s.pending ∧
    (holdMirror s o i meet).now = s.now ∧
    (holdMirror s o i meet).out = s.out ∧
    (holdMirror s o i meet).regs = s.regs ∧
    (holdMirror s o i meet).fr = s.fr ∧
    (holdMirror s o i meet).mx = s.mx ∧
    (holdMirror s o i meet).fx = s.fx ∧
    (holdMirror s o i meet).ps = s.ps ∧
    (holdMirror s o i meet).sp = s.sp ∧
    (holdMirror s o i meet).ai = s.ai ∧
    (holdMirror s o i meet).aq = s.aq ∧
    (holdMirror s o i meet).dp = s.dp ∧
    (holdMirror s o i meet).ck = s.ck ∧
    (holdMirror s o i meet).sc = s.sc ∧
    (holdMirror s o i meet).hl = s.hl ∧
    (holdMirror s o i meet).st = s.st ∧
    (holdMirror s o i meet).tw = s.tw ∧
    (holdMirror s o i meet).sv = s.sv ∧
    (holdMirror s o i meet).pd = s.pd ∧
    (holdMirror s o i meet).ct = s.ct ∧
    (holdMirror s o i meet).vc = s.vc := by
  unfold Machine.holdMirror; first | (simp; done) | ((repeat' split) <;> simp; done) | (dsimp only; (repeat' split) <;> simp; done)
@[simp] theorem stageG_keeps {s : State} {o : Owner} {g : Nat} {i : Item} :
    (stageG s o g i).pending = s.pending ∧
    (stageG s o g i).now = s.now ∧
    (stageG s o g i).out = s.out ∧
    (stageG s o g i).regs = s.regs ∧
    (stageG s o g i).mx = s.mx ∧
    (stageG s o g i).fx = s.fx ∧
    (stageG s o g i).ps = s.ps ∧
    (stageG s o g i).sp = s.sp ∧
    (stageG s o g i).ai = s.ai ∧
    (stageG s o g i).aq = s.aq ∧
    (stageG s o g i).dp = s.dp ∧
    (stageG s o g i).ck = s.ck ∧
    (stageG s o g i).sc = s.sc ∧
    (stageG s o g i).hl = s.hl ∧
    (stageG s o g i).st = s.st ∧
    (stageG s o g i).tw = s.tw ∧
    (stageG s o g i).sv = s.sv ∧
    (stageG s o g i).pd = s.pd ∧
    (stageG s o g i).ct = s.ct ∧
    (stageG s o g i).vc = s.vc ∧
    (stageG s o g i).fr.fn = s.fr.fn ∧
    (stageG s o g i).fr.next = s.fr.next ∧
    (stageG s o g i).fr.running = s.fr.running := by
  unfold Machine.stageG; first | (simp; done) | ((repeat' split) <;> simp; done) | (dsimp only; (repeat' split) <;> simp; done)
@[simp] theorem unstage_keeps {s : State} {p : Item → Bool} :
    (unstage s p).pending = s.pending ∧
    (unstage s p).now = s.now ∧
    (unstage s p).out = s.out ∧
    (unstage s p).regs = s.regs ∧
    (unstage s p).mx = s.mx ∧
    (unstage s p).fx = s.fx ∧
    (unstage s p).ps = s.ps ∧
    (unstage s p).sp = s.sp ∧
    (unstage s p).ai = s.ai ∧
    (unstage s p).aq = s.aq ∧
    (unstage s p).dp = s.dp ∧
    (unstage s p).ck = s.ck ∧
    (unstage s p).sc = s.sc ∧
    (unstage s p).hl = s.hl ∧
    (unstage s p).st = s.st ∧
    (unstage s p).tw = s.tw ∧
    (unstage s p).sv = s.sv ∧
    (unstage s p).pd = s.pd ∧
    (unstage s p).ct = s.ct ∧
    (unstage s p).vc = s.vc ∧
    (unstage s p).fr.fn = s.fr.fn ∧
    (unstage s p).fr.next = s.fr.next ∧
    (unstage s p).fr.running = s.fr.running := by
  unfold Machine.unstage; first | (simp; done) | ((repeat' split) <;> simp; done) | (dsimp only; (repeat' split) <;> simp; done)
@[simp] theorem writeCompletion_keeps {s : State} {c : CmpSlot} {status : Nat} {result : Nat} :
    (writeCompletion s c status result).pending = s.pending ∧
    (writeCompletion s c status result).now = s.now ∧
    (writeCompletion s c status result).regs = s.regs ∧
    (writeCompletion s c status result).fr = s.fr ∧
    (writeCompletion s c status result).mx = s.mx ∧
    (writeCompletion s c status result).fx = s.fx ∧
    (writeCompletion s c status result).ps = s.ps ∧
    (writeCompletion s c status result).sp = s.sp ∧
    (writeCompletion s c status result).ai = s.ai ∧
    (writeCompletion s c status result).aq = s.aq ∧
    (writeCompletion s c status result).dp = s.dp ∧
    (writeCompletion s c status result).ck = s.ck ∧
    (writeCompletion s c status result).sc = s.sc ∧
    (writeCompletion s c status result).st = s.st ∧
    (writeCompletion s c status result).sv = s.sv ∧
    (writeCompletion s c status result).pd = s.pd ∧
    (writeCompletion s c status result).ct = s.ct ∧
    (writeCompletion s c status result).pl = s.pl ∧
    (writeCompletion s c status result).vc = s.vc ∧
    (writeCompletion s c status result).hl.locked = s.hl.locked := by
  unfold Machine.writeCompletion; first | (simp; done) | ((repeat' split) <;> simp; done) | (dsimp only; (repeat' split) <;> simp; done)
@[simp] theorem flushOrder_keeps {l : List CmpSlot} {s : State} :
    (flushOrder l s).2.pending = s.pending ∧
    (flushOrder l s).2.now = s.now ∧
    (flushOrder l s).2.regs = s.regs ∧
    (flushOrder l s).2.fr = s.fr ∧
    (flushOrder l s).2.mx = s.mx ∧
    (flushOrder l s).2.fx = s.fx ∧
    (flushOrder l s).2.ps = s.ps ∧
    (flushOrder l s).2.sp = s.sp ∧
    (flushOrder l s).2.ai = s.ai ∧
    (flushOrder l s).2.aq = s.aq ∧
    (flushOrder l s).2.dp = s.dp ∧
    (flushOrder l s).2.ck = s.ck ∧
    (flushOrder l s).2.sc = s.sc ∧
    (flushOrder l s).2.st = s.st ∧
    (flushOrder l s).2.sv = s.sv ∧
    (flushOrder l s).2.pd = s.pd ∧
    (flushOrder l s).2.ct = s.ct ∧
    (flushOrder l s).2.pl = s.pl ∧
    (flushOrder l s).2.vc = s.vc ∧
    (flushOrder l s).2.hl.locked = s.hl.locked := by
  induction l generalizing s with
  | nil => simp [flushOrder]
  | cons c r ih => unfold flushOrder; (repeat' split) <;> first | rfl | simp [ih]
@[simp] theorem busyOver_keeps {s : State} :
    (busyOver s).pending = s.pending ∧
    (busyOver s).now = s.now ∧
    (busyOver s).regs = s.regs ∧
    (busyOver s).fr = s.fr ∧
    (busyOver s).mx = s.mx ∧
    (busyOver s).fx = s.fx ∧
    (busyOver s).ps = s.ps ∧
    (busyOver s).sp = s.sp ∧
    (busyOver s).ai = s.ai ∧
    (busyOver s).aq = s.aq ∧
    (busyOver s).dp = s.dp ∧
    (busyOver s).ck = s.ck ∧
    (busyOver s).sc = s.sc ∧
    (busyOver s).st = s.st ∧
    (busyOver s).sv = s.sv ∧
    (busyOver s).pd = s.pd ∧
    (busyOver s).ct = s.ct ∧
    (busyOver s).pl = s.pl ∧
    (busyOver s).vc = s.vc ∧
    (busyOver s).hl.locked = s.hl.locked := by
  unfold Machine.busyOver; first | (simp; done) | ((repeat' split) <;> simp; done) | (dsimp only; (repeat' split) <;> simp; done)
@[simp] theorem flushCompletions_keeps {s : State} :
    (flushCompletions s).pending = s.pending ∧
    (flushCompletions s).now = s.now ∧
    (flushCompletions s).regs = s.regs ∧
    (flushCompletions s).fr = s.fr ∧
    (flushCompletions s).mx = s.mx ∧
    (flushCompletions s).fx = s.fx ∧
    (flushCompletions s).ps = s.ps ∧
    (flushCompletions s).sp = s.sp ∧
    (flushCompletions s).ai = s.ai ∧
    (flushCompletions s).aq = s.aq ∧
    (flushCompletions s).dp = s.dp ∧
    (flushCompletions s).ck = s.ck ∧
    (flushCompletions s).sc = s.sc ∧
    (flushCompletions s).st = s.st ∧
    (flushCompletions s).sv = s.sv ∧
    (flushCompletions s).pd = s.pd ∧
    (flushCompletions s).ct = s.ct ∧
    (flushCompletions s).pl = s.pl ∧
    (flushCompletions s).vc = s.vc ∧
    (flushCompletions s).hl.locked = s.hl.locked := by
  unfold Machine.flushCompletions; first | (simp; done) | ((repeat' split) <;> simp; done) | (dsimp only; (repeat' split) <;> simp; done)
@[simp] theorem finish_keeps {s : State} {slot : Nat} {status : Nat} {result : Nat} :
    (finish s slot status result).pending = s.pending ∧
    (finish s slot status result).now = s.now ∧
    (finish s slot status result).regs = s.regs ∧
    (finish s slot status result).fr = s.fr ∧
    (finish s slot status result).mx = s.mx ∧
    (finish s slot status result).fx = s.fx ∧
    (finish s slot status result).ps = s.ps ∧
    (finish s slot status result).sp = s.sp ∧
    (finish s slot status result).ai = s.ai ∧
    (finish s slot status result).aq = s.aq ∧
    (finish s slot status result).dp = s.dp ∧
    (finish s slot status result).ck = s.ck ∧
    (finish s slot status result).sc = s.sc ∧
    (finish s slot status result).st = s.st ∧
    (finish s slot status result).sv = s.sv ∧
    (finish s slot status result).pd = s.pd ∧
    (finish s slot status result).ct = s.ct ∧
    (finish s slot status result).pl = s.pl ∧
    (finish s slot status result).vc = s.vc ∧
    (finish s slot status result).hl.locked = s.hl.locked := by
  unfold Machine.finish; first | (simp; done) | ((repeat' split) <;> simp; done) | (dsimp only; (repeat' split) <;> simp; done)
@[simp] theorem acceptCmd_keeps {s : State} {b : Bytes} :
    (acceptCmd s b).pending = s.pending ∧
    (acceptCmd s b).now = s.now ∧
    (acceptCmd s b).out = s.out ∧
    (acceptCmd s b).regs = s.regs ∧
    (acceptCmd s b).fr = s.fr ∧
    (acceptCmd s b).mx = s.mx ∧
    (acceptCmd s b).fx = s.fx ∧
    (acceptCmd s b).ps = s.ps ∧
    (acceptCmd s b).sp = s.sp ∧
    (acceptCmd s b).ai = s.ai ∧
    (acceptCmd s b).aq = s.aq ∧
    (acceptCmd s b).dp = s.dp ∧
    (acceptCmd s b).ck = s.ck ∧
    (acceptCmd s b).sc = s.sc ∧
    (acceptCmd s b).hl = s.hl ∧
    (acceptCmd s b).st = s.st ∧
    (acceptCmd s b).sv = s.sv ∧
    (acceptCmd s b).pd = s.pd ∧
    (acceptCmd s b).ct = s.ct ∧
    (acceptCmd s b).pl = s.pl ∧
    (acceptCmd s b).vc = s.vc := by
  unfold Machine.acceptCmd; first | (simp; done) | ((repeat' split) <;> simp; done) | (dsimp only; (repeat' split) <;> simp; done)
@[simp] theorem openSlot_keeps {s : State} {op : Nat} {c : Cmd} :
    (openSlot s op c).1.pending = s.pending ∧
    (openSlot s op c).1.now = s.now ∧
    (openSlot s op c).1.out = s.out ∧
    (openSlot s op c).1.regs = s.regs ∧
    (openSlot s op c).1.fr = s.fr ∧
    (openSlot s op c).1.mx = s.mx ∧
    (openSlot s op c).1.fx = s.fx ∧
    (openSlot s op c).1.ps = s.ps ∧
    (openSlot s op c).1.sp = s.sp ∧
    (openSlot s op c).1.ai = s.ai ∧
    (openSlot s op c).1.aq = s.aq ∧
    (openSlot s op c).1.dp = s.dp ∧
    (openSlot s op c).1.ck = s.ck ∧
    (openSlot s op c).1.sc = s.sc ∧
    (openSlot s op c).1.st = s.st ∧
    (openSlot s op c).1.sv = s.sv ∧
    (openSlot s op c).1.pd = s.pd ∧
    (openSlot s op c).1.ct = s.ct ∧
    (openSlot s op c).1.pl = s.pl ∧
    (openSlot s op c).1.vc = s.vc ∧
    (openSlot s op c).1.hl.locked = s.hl.locked := by
  unfold Machine.openSlot; first | (simp; done) | ((repeat' split) <;> simp; done) | (dsimp only; (repeat' split) <;> simp; done)
@[simp] theorem thenDo_pending {f : State → AfterDone → State} {s : State} {slot : Nat} {a : AfterDone}
    (h : ∀ t a, (f t a).pending = t.pending) : (thenDo f s slot a).pending = s.pending := by
  unfold thenDo; split <;> simp [h]
@[simp] theorem thenDo_now {f : State → AfterDone → State} {s : State} {slot : Nat} {a : AfterDone}
    (h : ∀ t a, (f t a).now = t.now) : (thenDo f s slot a).now = s.now := by
  unfold thenDo; split <;> simp [h]
@[simp] theorem thenDo_out {f : State → AfterDone → State} {s : State} {slot : Nat} {a : AfterDone}
    (h : ∀ t a, (f t a).out = t.out) : (thenDo f s slot a).out = s.out := by
  unfold thenDo; split <;> simp [h]
@[simp] theorem thenDo_regs {f : State → AfterDone → State} {s : State} {slot : Nat} {a : AfterDone}
    (h : ∀ t a, (f t a).regs = t.regs) : (thenDo f s slot a).regs = s.regs := by
  unfold thenDo; split <;> simp [h]
@[simp] theorem thenDo_fr {f : State → AfterDone → State} {s : State} {slot : Nat} {a : AfterDone}
    (h : ∀ t a, (f t a).fr = t.fr) : (thenDo f s slot a).fr = s.fr := by
  unfold thenDo; split <;> simp [h]
@[simp] theorem thenDo_mx {f : State → AfterDone → State} {s : State} {slot : Nat} {a : AfterDone}
    (h : ∀ t a, (f t a).mx = t.mx) : (thenDo f s slot a).mx = s.mx := by
  unfold thenDo; split <;> simp [h]
@[simp] theorem thenDo_fx {f : State → AfterDone → State} {s : State} {slot : Nat} {a : AfterDone}
    (h : ∀ t a, (f t a).fx = t.fx) : (thenDo f s slot a).fx = s.fx := by
  unfold thenDo; split <;> simp [h]
@[simp] theorem thenDo_ps {f : State → AfterDone → State} {s : State} {slot : Nat} {a : AfterDone}
    (h : ∀ t a, (f t a).ps = t.ps) : (thenDo f s slot a).ps = s.ps := by
  unfold thenDo; split <;> simp [h]
@[simp] theorem thenDo_sp {f : State → AfterDone → State} {s : State} {slot : Nat} {a : AfterDone}
    (h : ∀ t a, (f t a).sp = t.sp) : (thenDo f s slot a).sp = s.sp := by
  unfold thenDo; split <;> simp [h]
@[simp] theorem thenDo_ai {f : State → AfterDone → State} {s : State} {slot : Nat} {a : AfterDone}
    (h : ∀ t a, (f t a).ai = t.ai) : (thenDo f s slot a).ai = s.ai := by
  unfold thenDo; split <;> simp [h]
@[simp] theorem thenDo_aq {f : State → AfterDone → State} {s : State} {slot : Nat} {a : AfterDone}
    (h : ∀ t a, (f t a).aq = t.aq) : (thenDo f s slot a).aq = s.aq := by
  unfold thenDo; split <;> simp [h]
@[simp] theorem thenDo_dp {f : State → AfterDone → State} {s : State} {slot : Nat} {a : AfterDone}
    (h : ∀ t a, (f t a).dp = t.dp) : (thenDo f s slot a).dp = s.dp := by
  unfold thenDo; split <;> simp [h]
@[simp] theorem thenDo_ck {f : State → AfterDone → State} {s : State} {slot : Nat} {a : AfterDone}
    (h : ∀ t a, (f t a).ck = t.ck) : (thenDo f s slot a).ck = s.ck := by
  unfold thenDo; split <;> simp [h]
@[simp] theorem thenDo_sc {f : State → AfterDone → State} {s : State} {slot : Nat} {a : AfterDone}
    (h : ∀ t a, (f t a).sc = t.sc) : (thenDo f s slot a).sc = s.sc := by
  unfold thenDo; split <;> simp [h]
@[simp] theorem thenDo_st {f : State → AfterDone → State} {s : State} {slot : Nat} {a : AfterDone}
    (h : ∀ t a, (f t a).st = t.st) : (thenDo f s slot a).st = s.st := by
  unfold thenDo; split <;> simp [h]
@[simp] theorem thenDo_tw {f : State → AfterDone → State} {s : State} {slot : Nat} {a : AfterDone}
    (h : ∀ t a, (f t a).tw = t.tw) : (thenDo f s slot a).tw = s.tw := by
  unfold thenDo; split <;> simp [h]
@[simp] theorem thenDo_sv {f : State → AfterDone → State} {s : State} {slot : Nat} {a : AfterDone}
    (h : ∀ t a, (f t a).sv = t.sv) : (thenDo f s slot a).sv = s.sv := by
  unfold thenDo; split <;> simp [h]
@[simp] theorem thenDo_pd {f : State → AfterDone → State} {s : State} {slot : Nat} {a : AfterDone}
    (h : ∀ t a, (f t a).pd = t.pd) : (thenDo f s slot a).pd = s.pd := by
  unfold thenDo; split <;> simp [h]
@[simp] theorem thenDo_ct {f : State → AfterDone → State} {s : State} {slot : Nat} {a : AfterDone}
    (h : ∀ t a, (f t a).ct = t.ct) : (thenDo f s slot a).ct = s.ct := by
  unfold thenDo; split <;> simp [h]
@[simp] theorem thenDo_pl {f : State → AfterDone → State} {s : State} {slot : Nat} {a : AfterDone}
    (h : ∀ t a, (f t a).pl = t.pl) : (thenDo f s slot a).pl = s.pl := by
  unfold thenDo; split <;> simp [h]
@[simp] theorem thenDo_vc {f : State → AfterDone → State} {s : State} {slot : Nat} {a : AfterDone}
    (h : ∀ t a, (f t a).vc = t.vc) : (thenDo f s slot a).vc = s.vc := by
  unfold thenDo; split <;> simp [h]
@[simp] theorem thenDo_hl_locked {f : State → AfterDone → State} {s : State} {slot : Nat} {a : AfterDone}
    (h : ∀ t a, (f t a).hl.locked = t.hl.locked) : (thenDo f s slot a).hl.locked = s.hl.locked := by
  unfold thenDo; split <;> simp [h]
@[simp] theorem thenDo_fr_fn {f : State → AfterDone → State} {s : State} {slot : Nat} {a : AfterDone}
    (h : ∀ t a, (f t a).fr.fn = t.fr.fn) : (thenDo f s slot a).fr.fn = s.fr.fn := by
  unfold thenDo; split <;> simp [h]
@[simp] theorem thenDo_fr_next {f : State → AfterDone → State} {s : State} {slot : Nat} {a : AfterDone}
    (h : ∀ t a, (f t a).fr.next = t.fr.next) : (thenDo f s slot a).fr.next = s.fr.next := by
  unfold thenDo; split <;> simp [h]
@[simp] theorem thenDo_fr_running {f : State → AfterDone → State} {s : State} {slot : Nat} {a : AfterDone}
    (h : ∀ t a, (f t a).fr.running = t.fr.running) : (thenDo f s slot a).fr.running = s.fr.running := by
  unfold thenDo; split <;> simp [h]
@[simp] theorem resume_pending {f : State → AfterDone → State} {s : State}
    (h : ∀ t a, (f t a).pending = t.pending) : (resume f s).pending = s.pending := by
  unfold resume; (repeat' split) <;> simp [h]
@[simp] theorem resume_now {f : State → AfterDone → State} {s : State}
    (h : ∀ t a, (f t a).now = t.now) : (resume f s).now = s.now := by
  unfold resume; (repeat' split) <;> simp [h]
@[simp] theorem resume_out {f : State → AfterDone → State} {s : State}
    (h : ∀ t a, (f t a).out = t.out) : (resume f s).out = s.out := by
  unfold resume; (repeat' split) <;> simp [h]
@[simp] theorem resume_regs {f : State → AfterDone → State} {s : State}
    (h : ∀ t a, (f t a).regs = t.regs) : (resume f s).regs = s.regs := by
  unfold resume; (repeat' split) <;> simp [h]
@[simp] theorem resume_fr {f : State → AfterDone → State} {s : State}
    (h : ∀ t a, (f t a).fr = t.fr) : (resume f s).fr = s.fr := by
  unfold resume; (repeat' split) <;> simp [h]
@[simp] theorem resume_mx {f : State → AfterDone → State} {s : State}
    (h : ∀ t a, (f t a).mx = t.mx) : (resume f s).mx = s.mx := by
  unfold resume; (repeat' split) <;> simp [h]
@[simp] theorem resume_fx {f : State → AfterDone → State} {s : State}
    (h : ∀ t a, (f t a).fx = t.fx) : (resume f s).fx = s.fx := by
  unfold resume; (repeat' split) <;> simp [h]
@[simp] theorem resume_ps {f : State → AfterDone → State} {s : State}
    (h : ∀ t a, (f t a).ps = t.ps) : (resume f s).ps = s.ps := by
  unfold resume; (repeat' split) <;> simp [h]
@[simp] theorem resume_sp {f : State → AfterDone → State} {s : State}
    (h : ∀ t a, (f t a).sp = t.sp) : (resume f s).sp = s.sp := by
  unfold resume; (repeat' split) <;> simp [h]
@[simp] theorem resume_ai {f : State → AfterDone → State} {s : State}
    (h : ∀ t a, (f t a).ai = t.ai) : (resume f s).ai = s.ai := by
  unfold resume; (repeat' split) <;> simp [h]
@[simp] theorem resume_aq {f : State → AfterDone → State} {s : State}
    (h : ∀ t a, (f t a).aq = t.aq) : (resume f s).aq = s.aq := by
  unfold resume; (repeat' split) <;> simp [h]
@[simp] theorem resume_dp {f : State → AfterDone → State} {s : State}
    (h : ∀ t a, (f t a).dp = t.dp) : (resume f s).dp = s.dp := by
  unfold resume; (repeat' split) <;> simp [h]
@[simp] theorem resume_ck {f : State → AfterDone → State} {s : State}
    (h : ∀ t a, (f t a).ck = t.ck) : (resume f s).ck = s.ck := by
  unfold resume; (repeat' split) <;> simp [h]
@[simp] theorem resume_sc {f : State → AfterDone → State} {s : State}
    (h : ∀ t a, (f t a).sc = t.sc) : (resume f s).sc = s.sc := by
  unfold resume; (repeat' split) <;> simp [h]
@[simp] theorem resume_st {f : State → AfterDone → State} {s : State}
    (h : ∀ t a, (f t a).st = t.st) : (resume f s).st = s.st := by
  unfold resume; (repeat' split) <;> simp [h]
@[simp] theorem resume_tw {f : State → AfterDone → State} {s : State}
    (h : ∀ t a, (f t a).tw = t.tw) : (resume f s).tw = s.tw := by
  unfold resume; (repeat' split) <;> simp [h]
@[simp] theorem resume_sv {f : State → AfterDone → State} {s : State}
    (h : ∀ t a, (f t a).sv = t.sv) : (resume f s).sv = s.sv := by
  unfold resume; (repeat' split) <;> simp [h]
@[simp] theorem resume_pd {f : State → AfterDone → State} {s : State}
    (h : ∀ t a, (f t a).pd = t.pd) : (resume f s).pd = s.pd := by
  unfold resume; (repeat' split) <;> simp [h]
@[simp] theorem resume_ct {f : State → AfterDone → State} {s : State}
    (h : ∀ t a, (f t a).ct = t.ct) : (resume f s).ct = s.ct := by
  unfold resume; (repeat' split) <;> simp [h]
@[simp] theorem resume_pl {f : State → AfterDone → State} {s : State}
    (h : ∀ t a, (f t a).pl = t.pl) : (resume f s).pl = s.pl := by
  unfold resume; (repeat' split) <;> simp [h]
@[simp] theorem resume_vc {f : State → AfterDone → State} {s : State}
    (h : ∀ t a, (f t a).vc = t.vc) : (resume f s).vc = s.vc := by
  unfold resume; (repeat' split) <;> simp [h]
@[simp] theorem resume_hl_locked {f : State → AfterDone → State} {s : State}
    (h : ∀ t a, (f t a).hl.locked = t.hl.locked) : (resume f s).hl.locked = s.hl.locked := by
  unfold resume; (repeat' split) <;> simp [h]
@[simp] theorem resume_fr_fn {f : State → AfterDone → State} {s : State}
    (h : ∀ t a, (f t a).fr.fn = t.fr.fn) : (resume f s).fr.fn = s.fr.fn := by
  unfold resume; (repeat' split) <;> simp [h]
@[simp] theorem resume_fr_next {f : State → AfterDone → State} {s : State}
    (h : ∀ t a, (f t a).fr.next = t.fr.next) : (resume f s).fr.next = s.fr.next := by
  unfold resume; (repeat' split) <;> simp [h]
@[simp] theorem resume_fr_running {f : State → AfterDone → State} {s : State}
    (h : ∀ t a, (f t a).fr.running = t.fr.running) : (resume f s).fr.running = s.fr.running := by
  unfold resume; (repeat' split) <;> simp [h]
@[simp] theorem startLong_keeps {s : State} {op : Nat} {slot : Nat} {l : LongOp} :
    (startLong s op slot l).pending = s.pending ∧
    (startLong s op slot l).now = s.now ∧
    (startLong s op slot l).out = s.out ∧
    (startLong s op slot l).regs = s.regs ∧
    (startLong s op slot l).fr = s.fr ∧
    (startLong s op slot l).mx = s.mx ∧
    (startLong s op slot l).fx = s.fx ∧
    (startLong s op slot l).ps = s.ps ∧
    (startLong s op slot l).sp = s.sp ∧
    (startLong s op slot l).ai = s.ai ∧
    (startLong s op slot l).aq = s.aq ∧
    (startLong s op slot l).dp = s.dp ∧
    (startLong s op slot l).ck = s.ck ∧
    (startLong s op slot l).sc = s.sc ∧
    (startLong s op slot l).st = s.st ∧
    (startLong s op slot l).tw = s.tw ∧
    (startLong s op slot l).sv = s.sv ∧
    (startLong s op slot l).pd = s.pd ∧
    (startLong s op slot l).ct = s.ct ∧
    (startLong s op slot l).pl = s.pl ∧
    (startLong s op slot l).vc = s.vc ∧
    (startLong s op slot l).hl.locked = s.hl.locked := by
  unfold Machine.startLong; first | (simp; done) | ((repeat' split) <;> simp; done) | (dsimp only; (repeat' split) <;> simp; done)
@[simp] theorem endLong_keeps {s : State} {us : Word} {status : Nat} {result : Nat} :
    (endLong s us status result).pending = s.pending ∧
    (endLong s us status result).now = s.now ∧
    (endLong s us status result).regs = s.regs ∧
    (endLong s us status result).fr = s.fr ∧
    (endLong s us status result).mx = s.mx ∧
    (endLong s us status result).fx = s.fx ∧
    (endLong s us status result).ps = s.ps ∧
    (endLong s us status result).sp = s.sp ∧
    (endLong s us status result).ai = s.ai ∧
    (endLong s us status result).aq = s.aq ∧
    (endLong s us status result).dp = s.dp ∧
    (endLong s us status result).ck = s.ck ∧
    (endLong s us status result).sc = s.sc ∧
    (endLong s us status result).st = s.st ∧
    (endLong s us status result).sv = s.sv ∧
    (endLong s us status result).pd = s.pd ∧
    (endLong s us status result).ct = s.ct ∧
    (endLong s us status result).pl = s.pl ∧
    (endLong s us status result).vc = s.vc ∧
    (endLong s us status result).hl.locked = s.hl.locked := by
  unfold Machine.endLong; first | (simp; done) | ((repeat' split) <;> simp; done) | (dsimp only; (repeat' split) <;> simp; done)
@[simp] theorem dropWrite_keeps {s : State} :
    (dropWrite s).pending = s.pending ∧
    (dropWrite s).now = s.now ∧
    (dropWrite s).out = s.out ∧
    (dropWrite s).regs = s.regs ∧
    (dropWrite s).fr = s.fr ∧
    (dropWrite s).mx = s.mx ∧
    (dropWrite s).fx = s.fx ∧
    (dropWrite s).ps = s.ps ∧
    (dropWrite s).sp = s.sp ∧
    (dropWrite s).ai = s.ai ∧
    (dropWrite s).aq = s.aq ∧
    (dropWrite s).dp = s.dp ∧
    (dropWrite s).ck = s.ck ∧
    (dropWrite s).sc = s.sc ∧
    (dropWrite s).st = s.st ∧
    (dropWrite s).tw = s.tw ∧
    (dropWrite s).sv = s.sv ∧
    (dropWrite s).pd = s.pd ∧
    (dropWrite s).ct = s.ct ∧
    (dropWrite s).pl = s.pl ∧
    (dropWrite s).vc = s.vc ∧
    (dropWrite s).hl.locked = s.hl.locked := by
  unfold Machine.dropWrite; first | (simp; done) | ((repeat' split) <;> simp; done) | (dsimp only; (repeat' split) <;> simp; done)
@[simp] theorem cmdWrite_keeps {s : State} {c : Cmd} {i : Nat} {b : Bytes} :
    (cmdWrite s c i b).pending = s.pending ∧
    (cmdWrite s c i b).now = s.now ∧
    (cmdWrite s c i b).regs = s.regs ∧
    (cmdWrite s c i b).fr = s.fr ∧
    (cmdWrite s c i b).mx = s.mx ∧
    (cmdWrite s c i b).fx = s.fx ∧
    (cmdWrite s c i b).ps = s.ps ∧
    (cmdWrite s c i b).sp = s.sp ∧
    (cmdWrite s c i b).ai = s.ai ∧
    (cmdWrite s c i b).aq = s.aq ∧
    (cmdWrite s c i b).dp = s.dp ∧
    (cmdWrite s c i b).ck = s.ck ∧
    (cmdWrite s c i b).sc = s.sc ∧
    (cmdWrite s c i b).st = s.st ∧
    (cmdWrite s c i b).sv = s.sv ∧
    (cmdWrite s c i b).pd = s.pd ∧
    (cmdWrite s c i b).ct = s.ct ∧
    (cmdWrite s c i b).pl = s.pl ∧
    (cmdWrite s c i b).vc = s.vc ∧
    (cmdWrite s c i b).hl.locked = s.hl.locked := by
  unfold Machine.cmdWrite; first | (simp; done) | ((repeat' split) <;> simp; done) | (dsimp only; (repeat' split) <;> simp; done)
@[simp] theorem dbBad_keeps {s : State} :
    (dbBad s).pending = s.pending ∧
    (dbBad s).now = s.now ∧
    (dbBad s).out = s.out ∧
    (dbBad s).regs = s.regs ∧
    (dbBad s).fr = s.fr ∧
    (dbBad s).mx = s.mx ∧
    (dbBad s).fx = s.fx ∧
    (dbBad s).ps = s.ps ∧
    (dbBad s).sp = s.sp ∧
    (dbBad s).ai = s.ai ∧
    (dbBad s).aq = s.aq ∧
    (dbBad s).dp = s.dp ∧
    (dbBad s).ck = s.ck ∧
    (dbBad s).sc = s.sc ∧
    (dbBad s).st = s.st ∧
    (dbBad s).tw = s.tw ∧
    (dbBad s).sv = s.sv ∧
    (dbBad s).pd = s.pd ∧
    (dbBad s).ct = s.ct ∧
    (dbBad s).pl = s.pl ∧
    (dbBad s).vc = s.vc ∧
    (dbBad s).hl.locked = s.hl.locked := by
  unfold Machine.dbBad; first | (simp; done) | ((repeat' split) <;> simp; done) | (dsimp only; (repeat' split) <;> simp; done)
@[simp] theorem commandDoorbell_keeps {s : State} {full : Bool} {v : Word} :
    (commandDoorbell s full v).pending = s.pending ∧
    (commandDoorbell s full v).now = s.now ∧
    (commandDoorbell s full v).out = s.out ∧
    (commandDoorbell s full v).regs = s.regs ∧
    (commandDoorbell s full v).fr = s.fr ∧
    (commandDoorbell s full v).mx = s.mx ∧
    (commandDoorbell s full v).fx = s.fx ∧
    (commandDoorbell s full v).ps = s.ps ∧
    (commandDoorbell s full v).sp = s.sp ∧
    (commandDoorbell s full v).ai = s.ai ∧
    (commandDoorbell s full v).aq = s.aq ∧
    (commandDoorbell s full v).dp = s.dp ∧
    (commandDoorbell s full v).ck = s.ck ∧
    (commandDoorbell s full v).sc = s.sc ∧
    (commandDoorbell s full v).st = s.st ∧
    (commandDoorbell s full v).tw = s.tw ∧
    (commandDoorbell s full v).sv = s.sv ∧
    (commandDoorbell s full v).pd = s.pd ∧
    (commandDoorbell s full v).ct = s.ct ∧
    (commandDoorbell s full v).pl = s.pl ∧
    (commandDoorbell s full v).vc = s.vc ∧
    (commandDoorbell s full v).hl.locked = s.hl.locked := by
  unfold Machine.commandDoorbell; first | (simp; done) | ((repeat' split) <;> simp; done) | (dsimp only; (repeat' split) <;> simp; done)
@[simp] theorem completionDoorbell_keeps {s : State} {full : Bool} {v : Word} :
    (completionDoorbell s full v).pending = s.pending ∧
    (completionDoorbell s full v).now = s.now ∧
    (completionDoorbell s full v).out = s.out ∧
    (completionDoorbell s full v).regs = s.regs ∧
    (completionDoorbell s full v).fr = s.fr ∧
    (completionDoorbell s full v).mx = s.mx ∧
    (completionDoorbell s full v).fx = s.fx ∧
    (completionDoorbell s full v).ps = s.ps ∧
    (completionDoorbell s full v).sp = s.sp ∧
    (completionDoorbell s full v).ai = s.ai ∧
    (completionDoorbell s full v).aq = s.aq ∧
    (completionDoorbell s full v).dp = s.dp ∧
    (completionDoorbell s full v).ck = s.ck ∧
    (completionDoorbell s full v).sc = s.sc ∧
    (completionDoorbell s full v).st = s.st ∧
    (completionDoorbell s full v).tw = s.tw ∧
    (completionDoorbell s full v).sv = s.sv ∧
    (completionDoorbell s full v).pd = s.pd ∧
    (completionDoorbell s full v).ct = s.ct ∧
    (completionDoorbell s full v).pl = s.pl ∧
    (completionDoorbell s full v).vc = s.vc ∧
    (completionDoorbell s full v).hl.locked = s.hl.locked := by
  unfold Machine.completionDoorbell; first | (simp; done) | ((repeat' split) <;> simp; done) | (dsimp only; (repeat' split) <;> simp; done)
@[simp] theorem eventDoorbell_keeps {s : State} {full : Bool} {v : Word} :
    (eventDoorbell s full v).pending = s.pending ∧
    (eventDoorbell s full v).now = s.now ∧
    (eventDoorbell s full v).regs = s.regs ∧
    (eventDoorbell s full v).fr = s.fr ∧
    (eventDoorbell s full v).mx = s.mx ∧
    (eventDoorbell s full v).fx = s.fx ∧
    (eventDoorbell s full v).ps = s.ps ∧
    (eventDoorbell s full v).sp = s.sp ∧
    (eventDoorbell s full v).ai = s.ai ∧
    (eventDoorbell s full v).aq = s.aq ∧
    (eventDoorbell s full v).dp = s.dp ∧
    (eventDoorbell s full v).ck = s.ck ∧
    (eventDoorbell s full v).sc = s.sc ∧
    (eventDoorbell s full v).st = s.st ∧
    (eventDoorbell s full v).tw = s.tw ∧
    (eventDoorbell s full v).sv = s.sv ∧
    (eventDoorbell s full v).pd = s.pd ∧
    (eventDoorbell s full v).ct = s.ct ∧
    (eventDoorbell s full v).pl = s.pl ∧
    (eventDoorbell s full v).vc = s.vc ∧
    (eventDoorbell s full v).hl.locked = s.hl.locked := by
  unfold Machine.eventDoorbell; first | (simp; done) | ((repeat' split) <;> simp; done) | (dsimp only; (repeat' split) <;> simp; done)
@[simp] theorem setCfgErr_keeps {s : State} :
    (setCfgErr s).pending = s.pending ∧
    (setCfgErr s).now = s.now ∧
    (setCfgErr s).out = s.out ∧
    (setCfgErr s).regs = s.regs ∧
    (setCfgErr s).fr = s.fr ∧
    (setCfgErr s).mx = s.mx ∧
    (setCfgErr s).fx = s.fx ∧
    (setCfgErr s).ps = s.ps ∧
    (setCfgErr s).sp = s.sp ∧
    (setCfgErr s).ai = s.ai ∧
    (setCfgErr s).aq = s.aq ∧
    (setCfgErr s).dp = s.dp ∧
    (setCfgErr s).ck = s.ck ∧
    (setCfgErr s).sc = s.sc ∧
    (setCfgErr s).st = s.st ∧
    (setCfgErr s).tw = s.tw ∧
    (setCfgErr s).sv = s.sv ∧
    (setCfgErr s).pd = s.pd ∧
    (setCfgErr s).ct = s.ct ∧
    (setCfgErr s).pl = s.pl ∧
    (setCfgErr s).vc = s.vc ∧
    (setCfgErr s).hl.locked = s.hl.locked := by
  unfold Machine.setCfgErr; first | (simp; done) | ((repeat' split) <;> simp; done) | (dsimp only; (repeat' split) <;> simp; done)
@[simp] theorem setLastWr_keeps {s : State} {v : Nat} :
    (setLastWr s v).pending = s.pending ∧
    (setLastWr s v).now = s.now ∧
    (setLastWr s v).out = s.out ∧
    (setLastWr s v).regs = s.regs ∧
    (setLastWr s v).fr = s.fr ∧
    (setLastWr s v).mx = s.mx ∧
    (setLastWr s v).fx = s.fx ∧
    (setLastWr s v).ps = s.ps ∧
    (setLastWr s v).sp = s.sp ∧
    (setLastWr s v).ai = s.ai ∧
    (setLastWr s v).aq = s.aq ∧
    (setLastWr s v).dp = s.dp ∧
    (setLastWr s v).ck = s.ck ∧
    (setLastWr s v).sc = s.sc ∧
    (setLastWr s v).hl = s.hl ∧
    (setLastWr s v).st = s.st ∧
    (setLastWr s v).sv = s.sv ∧
    (setLastWr s v).pd = s.pd ∧
    (setLastWr s v).ct = s.ct ∧
    (setLastWr s v).pl = s.pl ∧
    (setLastWr s v).vc = s.vc := by
  unfold Machine.setLastWr; first | (simp; done) | ((repeat' split) <;> simp; done) | (dsimp only; (repeat' split) <;> simp; done)
@[simp] theorem nack_keeps {s : State} {n : Nat} :
    (nack s n).pending = s.pending ∧
    (nack s n).now = s.now ∧
    (nack s n).regs = s.regs ∧
    (nack s n).fr = s.fr ∧
    (nack s n).mx = s.mx ∧
    (nack s n).fx = s.fx ∧
    (nack s n).ps = s.ps ∧
    (nack s n).sp = s.sp ∧
    (nack s n).ai = s.ai ∧
    (nack s n).aq = s.aq ∧
    (nack s n).dp = s.dp ∧
    (nack s n).ck = s.ck ∧
    (nack s n).sc = s.sc ∧
    (nack s n).hl = s.hl ∧
    (nack s n).st = s.st ∧
    (nack s n).tw = s.tw ∧
    (nack s n).sv = s.sv ∧
    (nack s n).pd = s.pd ∧
    (nack s n).ct = s.ct ∧
    (nack s n).pl = s.pl ∧
    (nack s n).vc = s.vc := by
  unfold Machine.nack; first | (simp; done) | ((repeat' split) <;> simp; done) | (dsimp only; (repeat' split) <;> simp; done)
@[simp] theorem nackBusy_keeps {s : State} :
    (nackBusy s).pending = s.pending ∧
    (nackBusy s).now = s.now ∧
    (nackBusy s).regs = s.regs ∧
    (nackBusy s).fr = s.fr ∧
    (nackBusy s).mx = s.mx ∧
    (nackBusy s).fx = s.fx ∧
    (nackBusy s).ps = s.ps ∧
    (nackBusy s).sp = s.sp ∧
    (nackBusy s).ai = s.ai ∧
    (nackBusy s).aq = s.aq ∧
    (nackBusy s).dp = s.dp ∧
    (nackBusy s).ck = s.ck ∧
    (nackBusy s).sc = s.sc ∧
    (nackBusy s).st = s.st ∧
    (nackBusy s).sv = s.sv ∧
    (nackBusy s).pd = s.pd ∧
    (nackBusy s).ct = s.ct ∧
    (nackBusy s).pl = s.pl ∧
    (nackBusy s).vc = s.vc ∧
    (nackBusy s).hl.locked = s.hl.locked := by
  unfold Machine.nackBusy; first | (simp; done) | ((repeat' split) <;> simp; done) | (dsimp only; (repeat' split) <;> simp; done)
@[simp] theorem discard_keeps {s : State} {src : Owner} :
    (discard s src).pending = s.pending ∧
    (discard s src).now = s.now ∧
    (discard s src).regs = s.regs ∧
    (discard s src).fr = s.fr ∧
    (discard s src).mx = s.mx ∧
    (discard s src).fx = s.fx ∧
    (discard s src).ps = s.ps ∧
    (discard s src).sp = s.sp ∧
    (discard s src).ai = s.ai ∧
    (discard s src).aq = s.aq ∧
    (discard s src).dp = s.dp ∧
    (discard s src).ck = s.ck ∧
    (discard s src).sc = s.sc ∧
    (discard s src).st = s.st ∧
    (discard s src).sv = s.sv ∧
    (discard s src).pd = s.pd ∧
    (discard s src).ct = s.ct ∧
    (discard s src).pl = s.pl ∧
    (discard s src).vc = s.vc ∧
    (discard s src).hl.locked = s.hl.locked := by
  unfold Machine.discard; first | (simp; done) | ((repeat' split) <;> simp; done) | (dsimp only; (repeat' split) <;> simp; done)
@[simp] theorem inOrder_pending {s : State} {src : Owner} {off g : Nat} {ok : Bool} {f : State → State}
    (h : ∀ t, (f t).pending = t.pending) : (inOrder s src off g ok f).pending = s.pending := by
  unfold inOrder; dsimp only; (repeat' split) <;> simp [h]
@[simp] theorem inOrder_now {s : State} {src : Owner} {off g : Nat} {ok : Bool} {f : State → State}
    (h : ∀ t, (f t).now = t.now) : (inOrder s src off g ok f).now = s.now := by
  unfold inOrder; dsimp only; (repeat' split) <;> simp [h]
@[simp] theorem inOrder_regs {s : State} {src : Owner} {off g : Nat} {ok : Bool} {f : State → State}
    (h : ∀ t, (f t).regs = t.regs) : (inOrder s src off g ok f).regs = s.regs := by
  unfold inOrder; dsimp only; (repeat' split) <;> simp [h]
@[simp] theorem inOrder_fr {s : State} {src : Owner} {off g : Nat} {ok : Bool} {f : State → State}
    (h : ∀ t, (f t).fr = t.fr) : (inOrder s src off g ok f).fr = s.fr := by
  unfold inOrder; dsimp only; (repeat' split) <;> simp [h]
@[simp] theorem inOrder_mx {s : State} {src : Owner} {off g : Nat} {ok : Bool} {f : State → State}
    (h : ∀ t, (f t).mx = t.mx) : (inOrder s src off g ok f).mx = s.mx := by
  unfold inOrder; dsimp only; (repeat' split) <;> simp [h]
@[simp] theorem inOrder_fx {s : State} {src : Owner} {off g : Nat} {ok : Bool} {f : State → State}
    (h : ∀ t, (f t).fx = t.fx) : (inOrder s src off g ok f).fx = s.fx := by
  unfold inOrder; dsimp only; (repeat' split) <;> simp [h]
@[simp] theorem inOrder_ps {s : State} {src : Owner} {off g : Nat} {ok : Bool} {f : State → State}
    (h : ∀ t, (f t).ps = t.ps) : (inOrder s src off g ok f).ps = s.ps := by
  unfold inOrder; dsimp only; (repeat' split) <;> simp [h]
@[simp] theorem inOrder_sp {s : State} {src : Owner} {off g : Nat} {ok : Bool} {f : State → State}
    (h : ∀ t, (f t).sp = t.sp) : (inOrder s src off g ok f).sp = s.sp := by
  unfold inOrder; dsimp only; (repeat' split) <;> simp [h]
@[simp] theorem inOrder_ai {s : State} {src : Owner} {off g : Nat} {ok : Bool} {f : State → State}
    (h : ∀ t, (f t).ai = t.ai) : (inOrder s src off g ok f).ai = s.ai := by
  unfold inOrder; dsimp only; (repeat' split) <;> simp [h]
@[simp] theorem inOrder_aq {s : State} {src : Owner} {off g : Nat} {ok : Bool} {f : State → State}
    (h : ∀ t, (f t).aq = t.aq) : (inOrder s src off g ok f).aq = s.aq := by
  unfold inOrder; dsimp only; (repeat' split) <;> simp [h]
@[simp] theorem inOrder_dp {s : State} {src : Owner} {off g : Nat} {ok : Bool} {f : State → State}
    (h : ∀ t, (f t).dp = t.dp) : (inOrder s src off g ok f).dp = s.dp := by
  unfold inOrder; dsimp only; (repeat' split) <;> simp [h]
@[simp] theorem inOrder_ck {s : State} {src : Owner} {off g : Nat} {ok : Bool} {f : State → State}
    (h : ∀ t, (f t).ck = t.ck) : (inOrder s src off g ok f).ck = s.ck := by
  unfold inOrder; dsimp only; (repeat' split) <;> simp [h]
@[simp] theorem inOrder_sc {s : State} {src : Owner} {off g : Nat} {ok : Bool} {f : State → State}
    (h : ∀ t, (f t).sc = t.sc) : (inOrder s src off g ok f).sc = s.sc := by
  unfold inOrder; dsimp only; (repeat' split) <;> simp [h]
@[simp] theorem inOrder_st {s : State} {src : Owner} {off g : Nat} {ok : Bool} {f : State → State}
    (h : ∀ t, (f t).st = t.st) : (inOrder s src off g ok f).st = s.st := by
  unfold inOrder; dsimp only; (repeat' split) <;> simp [h]
@[simp] theorem inOrder_sv {s : State} {src : Owner} {off g : Nat} {ok : Bool} {f : State → State}
    (h : ∀ t, (f t).sv = t.sv) : (inOrder s src off g ok f).sv = s.sv := by
  unfold inOrder; dsimp only; (repeat' split) <;> simp [h]
@[simp] theorem inOrder_pd {s : State} {src : Owner} {off g : Nat} {ok : Bool} {f : State → State}
    (h : ∀ t, (f t).pd = t.pd) : (inOrder s src off g ok f).pd = s.pd := by
  unfold inOrder; dsimp only; (repeat' split) <;> simp [h]
@[simp] theorem inOrder_ct {s : State} {src : Owner} {off g : Nat} {ok : Bool} {f : State → State}
    (h : ∀ t, (f t).ct = t.ct) : (inOrder s src off g ok f).ct = s.ct := by
  unfold inOrder; dsimp only; (repeat' split) <;> simp [h]
@[simp] theorem inOrder_pl {s : State} {src : Owner} {off g : Nat} {ok : Bool} {f : State → State}
    (h : ∀ t, (f t).pl = t.pl) : (inOrder s src off g ok f).pl = s.pl := by
  unfold inOrder; dsimp only; (repeat' split) <;> simp [h]
@[simp] theorem inOrder_vc {s : State} {src : Owner} {off g : Nat} {ok : Bool} {f : State → State}
    (h : ∀ t, (f t).vc = t.vc) : (inOrder s src off g ok f).vc = s.vc := by
  unfold inOrder; dsimp only; (repeat' split) <;> simp [h]
@[simp] theorem inOrder_hl_locked {s : State} {src : Owner} {off g : Nat} {ok : Bool} {f : State → State}
    (h : ∀ t, (f t).hl.locked = t.hl.locked) : (inOrder s src off g ok f).hl.locked = s.hl.locked := by
  unfold inOrder; dsimp only; (repeat' split) <;> simp [h]
@[simp] theorem inOrder_fr_fn {s : State} {src : Owner} {off g : Nat} {ok : Bool} {f : State → State}
    (h : ∀ t, (f t).fr.fn = t.fr.fn) : (inOrder s src off g ok f).fr.fn = s.fr.fn := by
  unfold inOrder; dsimp only; (repeat' split) <;> simp [h]
@[simp] theorem inOrder_fr_next {s : State} {src : Owner} {off g : Nat} {ok : Bool} {f : State → State}
    (h : ∀ t, (f t).fr.next = t.fr.next) : (inOrder s src off g ok f).fr.next = s.fr.next := by
  unfold inOrder; dsimp only; (repeat' split) <;> simp [h]
@[simp] theorem inOrder_fr_running {s : State} {src : Owner} {off g : Nat} {ok : Bool} {f : State → State}
    (h : ∀ t, (f t).fr.running = t.fr.running) : (inOrder s src off g ok f).fr.running = s.fr.running := by
  unfold inOrder; dsimp only; (repeat' split) <;> simp [h]
@[simp] theorem directWrite_pending {s : State} {src : Owner} {off g : Nat} {f : State → State} {ok : Bool}
    (h : ∀ t, (f t).pending = t.pending) : (directWrite s src off g f ok).pending = s.pending := by
  unfold directWrite; (repeat' split) <;> simp [h]
@[simp] theorem directWrite_now {s : State} {src : Owner} {off g : Nat} {f : State → State} {ok : Bool}
    (h : ∀ t, (f t).now = t.now) : (directWrite s src off g f ok).now = s.now := by
  unfold directWrite; (repeat' split) <;> simp [h]
@[simp] theorem directWrite_regs {s : State} {src : Owner} {off g : Nat} {f : State → State} {ok : Bool}
    (h : ∀ t, (f t).regs = t.regs) : (directWrite s src off g f ok).regs = s.regs := by
  unfold directWrite; (repeat' split) <;> simp [h]
@[simp] theorem directWrite_fr {s : State} {src : Owner} {off g : Nat} {f : State → State} {ok : Bool}
    (h : ∀ t, (f t).fr = t.fr) : (directWrite s src off g f ok).fr = s.fr := by
  unfold directWrite; (repeat' split) <;> simp [h]
@[simp] theorem directWrite_mx {s : State} {src : Owner} {off g : Nat} {f : State → State} {ok : Bool}
    (h : ∀ t, (f t).mx = t.mx) : (directWrite s src off g f ok).mx = s.mx := by
  unfold directWrite; (repeat' split) <;> simp [h]
@[simp] theorem directWrite_fx {s : State} {src : Owner} {off g : Nat} {f : State → State} {ok : Bool}
    (h : ∀ t, (f t).fx = t.fx) : (directWrite s src off g f ok).fx = s.fx := by
  unfold directWrite; (repeat' split) <;> simp [h]
@[simp] theorem directWrite_ps {s : State} {src : Owner} {off g : Nat} {f : State → State} {ok : Bool}
    (h : ∀ t, (f t).ps = t.ps) : (directWrite s src off g f ok).ps = s.ps := by
  unfold directWrite; (repeat' split) <;> simp [h]
@[simp] theorem directWrite_sp {s : State} {src : Owner} {off g : Nat} {f : State → State} {ok : Bool}
    (h : ∀ t, (f t).sp = t.sp) : (directWrite s src off g f ok).sp = s.sp := by
  unfold directWrite; (repeat' split) <;> simp [h]
@[simp] theorem directWrite_ai {s : State} {src : Owner} {off g : Nat} {f : State → State} {ok : Bool}
    (h : ∀ t, (f t).ai = t.ai) : (directWrite s src off g f ok).ai = s.ai := by
  unfold directWrite; (repeat' split) <;> simp [h]
@[simp] theorem directWrite_aq {s : State} {src : Owner} {off g : Nat} {f : State → State} {ok : Bool}
    (h : ∀ t, (f t).aq = t.aq) : (directWrite s src off g f ok).aq = s.aq := by
  unfold directWrite; (repeat' split) <;> simp [h]
@[simp] theorem directWrite_dp {s : State} {src : Owner} {off g : Nat} {f : State → State} {ok : Bool}
    (h : ∀ t, (f t).dp = t.dp) : (directWrite s src off g f ok).dp = s.dp := by
  unfold directWrite; (repeat' split) <;> simp [h]
@[simp] theorem directWrite_ck {s : State} {src : Owner} {off g : Nat} {f : State → State} {ok : Bool}
    (h : ∀ t, (f t).ck = t.ck) : (directWrite s src off g f ok).ck = s.ck := by
  unfold directWrite; (repeat' split) <;> simp [h]
@[simp] theorem directWrite_sc {s : State} {src : Owner} {off g : Nat} {f : State → State} {ok : Bool}
    (h : ∀ t, (f t).sc = t.sc) : (directWrite s src off g f ok).sc = s.sc := by
  unfold directWrite; (repeat' split) <;> simp [h]
@[simp] theorem directWrite_st {s : State} {src : Owner} {off g : Nat} {f : State → State} {ok : Bool}
    (h : ∀ t, (f t).st = t.st) : (directWrite s src off g f ok).st = s.st := by
  unfold directWrite; (repeat' split) <;> simp [h]
@[simp] theorem directWrite_sv {s : State} {src : Owner} {off g : Nat} {f : State → State} {ok : Bool}
    (h : ∀ t, (f t).sv = t.sv) : (directWrite s src off g f ok).sv = s.sv := by
  unfold directWrite; (repeat' split) <;> simp [h]
@[simp] theorem directWrite_pd {s : State} {src : Owner} {off g : Nat} {f : State → State} {ok : Bool}
    (h : ∀ t, (f t).pd = t.pd) : (directWrite s src off g f ok).pd = s.pd := by
  unfold directWrite; (repeat' split) <;> simp [h]
@[simp] theorem directWrite_ct {s : State} {src : Owner} {off g : Nat} {f : State → State} {ok : Bool}
    (h : ∀ t, (f t).ct = t.ct) : (directWrite s src off g f ok).ct = s.ct := by
  unfold directWrite; (repeat' split) <;> simp [h]
@[simp] theorem directWrite_pl {s : State} {src : Owner} {off g : Nat} {f : State → State} {ok : Bool}
    (h : ∀ t, (f t).pl = t.pl) : (directWrite s src off g f ok).pl = s.pl := by
  unfold directWrite; (repeat' split) <;> simp [h]
@[simp] theorem directWrite_vc {s : State} {src : Owner} {off g : Nat} {f : State → State} {ok : Bool}
    (h : ∀ t, (f t).vc = t.vc) : (directWrite s src off g f ok).vc = s.vc := by
  unfold directWrite; (repeat' split) <;> simp [h]
@[simp] theorem directWrite_hl_locked {s : State} {src : Owner} {off g : Nat} {f : State → State} {ok : Bool}
    (h : ∀ t, (f t).hl.locked = t.hl.locked) : (directWrite s src off g f ok).hl.locked = s.hl.locked := by
  unfold directWrite; (repeat' split) <;> simp [h]
@[simp] theorem directWrite_fr_fn {s : State} {src : Owner} {off g : Nat} {f : State → State} {ok : Bool}
    (h : ∀ t, (f t).fr.fn = t.fr.fn) : (directWrite s src off g f ok).fr.fn = s.fr.fn := by
  unfold directWrite; (repeat' split) <;> simp [h]
@[simp] theorem directWrite_fr_next {s : State} {src : Owner} {off g : Nat} {f : State → State} {ok : Bool}
    (h : ∀ t, (f t).fr.next = t.fr.next) : (directWrite s src off g f ok).fr.next = s.fr.next := by
  unfold directWrite; (repeat' split) <;> simp [h]
@[simp] theorem directWrite_fr_running {s : State} {src : Owner} {off g : Nat} {f : State → State} {ok : Bool}
    (h : ∀ t, (f t).fr.running = t.fr.running) : (directWrite s src off g f ok).fr.running = s.fr.running := by
  unfold directWrite; (repeat' split) <;> simp [h]
@[simp] theorem openEvents_keeps {s : State} :
    (openEvents s).pending = s.pending ∧
    (openEvents s).now = s.now ∧
    (openEvents s).regs = s.regs ∧
    (openEvents s).fr = s.fr ∧
    (openEvents s).mx = s.mx ∧
    (openEvents s).fx = s.fx ∧
    (openEvents s).ps = s.ps ∧
    (openEvents s).sp = s.sp ∧
    (openEvents s).ai = s.ai ∧
    (openEvents s).aq = s.aq ∧
    (openEvents s).dp = s.dp ∧
    (openEvents s).ck = s.ck ∧
    (openEvents s).sc = s.sc ∧
    (openEvents s).st = s.st ∧
    (openEvents s).tw = s.tw ∧
    (openEvents s).sv = s.sv ∧
    (openEvents s).pd = s.pd ∧
    (openEvents s).ct = s.ct ∧
    (openEvents s).pl = s.pl ∧
    (openEvents s).vc = s.vc ∧
    (openEvents s).hl.locked = s.hl.locked := by
  unfold Machine.openEvents; first | (simp; done) | ((repeat' split) <;> simp; done) | (dsimp only; (repeat' split) <;> simp; done)
@[simp] theorem ringCfg_keeps {s : State} {r : Nat} {v : Word} :
    (ringCfg s r v).pending = s.pending ∧
    (ringCfg s r v).now = s.now ∧
    (ringCfg s r v).regs = s.regs ∧
    (ringCfg s r v).fr = s.fr ∧
    (ringCfg s r v).mx = s.mx ∧
    (ringCfg s r v).fx = s.fx ∧
    (ringCfg s r v).ps = s.ps ∧
    (ringCfg s r v).sp = s.sp ∧
    (ringCfg s r v).ai = s.ai ∧
    (ringCfg s r v).aq = s.aq ∧
    (ringCfg s r v).dp = s.dp ∧
    (ringCfg s r v).ck = s.ck ∧
    (ringCfg s r v).sc = s.sc ∧
    (ringCfg s r v).st = s.st ∧
    (ringCfg s r v).sv = s.sv ∧
    (ringCfg s r v).pd = s.pd ∧
    (ringCfg s r v).ct = s.ct ∧
    (ringCfg s r v).pl = s.pl ∧
    (ringCfg s r v).vc = s.vc ∧
    (ringCfg s r v).hl.locked = s.hl.locked := by
  unfold Machine.ringCfg; first | (simp; done) | ((repeat' split) <;> simp; done) | (dsimp only; (repeat' split) <;> simp; done)
@[simp] theorem hlOnly_pending {s : State} {src : Owner} {f : State → State}
    (h : ∀ t, (f t).pending = t.pending) : (hlOnly s src f).pending = s.pending := by
  unfold hlOnly; (repeat' split) <;> simp [h]
@[simp] theorem hlOnly_now {s : State} {src : Owner} {f : State → State}
    (h : ∀ t, (f t).now = t.now) : (hlOnly s src f).now = s.now := by
  unfold hlOnly; (repeat' split) <;> simp [h]
@[simp] theorem hlOnly_regs {s : State} {src : Owner} {f : State → State}
    (h : ∀ t, (f t).regs = t.regs) : (hlOnly s src f).regs = s.regs := by
  unfold hlOnly; (repeat' split) <;> simp [h]
@[simp] theorem hlOnly_fr {s : State} {src : Owner} {f : State → State}
    (h : ∀ t, (f t).fr = t.fr) : (hlOnly s src f).fr = s.fr := by
  unfold hlOnly; (repeat' split) <;> simp [h]
@[simp] theorem hlOnly_mx {s : State} {src : Owner} {f : State → State}
    (h : ∀ t, (f t).mx = t.mx) : (hlOnly s src f).mx = s.mx := by
  unfold hlOnly; (repeat' split) <;> simp [h]
@[simp] theorem hlOnly_fx {s : State} {src : Owner} {f : State → State}
    (h : ∀ t, (f t).fx = t.fx) : (hlOnly s src f).fx = s.fx := by
  unfold hlOnly; (repeat' split) <;> simp [h]
@[simp] theorem hlOnly_ps {s : State} {src : Owner} {f : State → State}
    (h : ∀ t, (f t).ps = t.ps) : (hlOnly s src f).ps = s.ps := by
  unfold hlOnly; (repeat' split) <;> simp [h]
@[simp] theorem hlOnly_sp {s : State} {src : Owner} {f : State → State}
    (h : ∀ t, (f t).sp = t.sp) : (hlOnly s src f).sp = s.sp := by
  unfold hlOnly; (repeat' split) <;> simp [h]
@[simp] theorem hlOnly_ai {s : State} {src : Owner} {f : State → State}
    (h : ∀ t, (f t).ai = t.ai) : (hlOnly s src f).ai = s.ai := by
  unfold hlOnly; (repeat' split) <;> simp [h]
@[simp] theorem hlOnly_aq {s : State} {src : Owner} {f : State → State}
    (h : ∀ t, (f t).aq = t.aq) : (hlOnly s src f).aq = s.aq := by
  unfold hlOnly; (repeat' split) <;> simp [h]
@[simp] theorem hlOnly_dp {s : State} {src : Owner} {f : State → State}
    (h : ∀ t, (f t).dp = t.dp) : (hlOnly s src f).dp = s.dp := by
  unfold hlOnly; (repeat' split) <;> simp [h]
@[simp] theorem hlOnly_ck {s : State} {src : Owner} {f : State → State}
    (h : ∀ t, (f t).ck = t.ck) : (hlOnly s src f).ck = s.ck := by
  unfold hlOnly; (repeat' split) <;> simp [h]
@[simp] theorem hlOnly_sc {s : State} {src : Owner} {f : State → State}
    (h : ∀ t, (f t).sc = t.sc) : (hlOnly s src f).sc = s.sc := by
  unfold hlOnly; (repeat' split) <;> simp [h]
@[simp] theorem hlOnly_st {s : State} {src : Owner} {f : State → State}
    (h : ∀ t, (f t).st = t.st) : (hlOnly s src f).st = s.st := by
  unfold hlOnly; (repeat' split) <;> simp [h]
@[simp] theorem hlOnly_sv {s : State} {src : Owner} {f : State → State}
    (h : ∀ t, (f t).sv = t.sv) : (hlOnly s src f).sv = s.sv := by
  unfold hlOnly; (repeat' split) <;> simp [h]
@[simp] theorem hlOnly_pd {s : State} {src : Owner} {f : State → State}
    (h : ∀ t, (f t).pd = t.pd) : (hlOnly s src f).pd = s.pd := by
  unfold hlOnly; (repeat' split) <;> simp [h]
@[simp] theorem hlOnly_ct {s : State} {src : Owner} {f : State → State}
    (h : ∀ t, (f t).ct = t.ct) : (hlOnly s src f).ct = s.ct := by
  unfold hlOnly; (repeat' split) <;> simp [h]
@[simp] theorem hlOnly_pl {s : State} {src : Owner} {f : State → State}
    (h : ∀ t, (f t).pl = t.pl) : (hlOnly s src f).pl = s.pl := by
  unfold hlOnly; (repeat' split) <;> simp [h]
@[simp] theorem hlOnly_vc {s : State} {src : Owner} {f : State → State}
    (h : ∀ t, (f t).vc = t.vc) : (hlOnly s src f).vc = s.vc := by
  unfold hlOnly; (repeat' split) <;> simp [h]
@[simp] theorem hlOnly_hl_locked {s : State} {src : Owner} {f : State → State}
    (h : ∀ t, (f t).hl.locked = t.hl.locked) : (hlOnly s src f).hl.locked = s.hl.locked := by
  unfold hlOnly; (repeat' split) <;> simp [h]
@[simp] theorem hlOnly_fr_fn {s : State} {src : Owner} {f : State → State}
    (h : ∀ t, (f t).fr.fn = t.fr.fn) : (hlOnly s src f).fr.fn = s.fr.fn := by
  unfold hlOnly; (repeat' split) <;> simp [h]
@[simp] theorem hlOnly_fr_next {s : State} {src : Owner} {f : State → State}
    (h : ∀ t, (f t).fr.next = t.fr.next) : (hlOnly s src f).fr.next = s.fr.next := by
  unfold hlOnly; (repeat' split) <;> simp [h]
@[simp] theorem hlOnly_fr_running {s : State} {src : Owner} {f : State → State}
    (h : ∀ t, (f t).fr.running = t.fr.running) : (hlOnly s src f).fr.running = s.fr.running := by
  unfold hlOnly; (repeat' split) <;> simp [h]
@[simp] theorem ringBase_keeps {s : State} {r : Nat} {hi : Bool} {v : Word} :
    (ringBase s r hi v).pending = s.pending ∧
    (ringBase s r hi v).now = s.now ∧
    (ringBase s r hi v).out = s.out ∧
    (ringBase s r hi v).fr = s.fr ∧
    (ringBase s r hi v).mx = s.mx ∧
    (ringBase s r hi v).fx = s.fx ∧
    (ringBase s r hi v).ps = s.ps ∧
    (ringBase s r hi v).sp = s.sp ∧
    (ringBase s r hi v).ai = s.ai ∧
    (ringBase s r hi v).aq = s.aq ∧
    (ringBase s r hi v).dp = s.dp ∧
    (ringBase s r hi v).ck = s.ck ∧
    (ringBase s r hi v).sc = s.sc ∧
    (ringBase s r hi v).st = s.st ∧
    (ringBase s r hi v).tw = s.tw ∧
    (ringBase s r hi v).sv = s.sv ∧
    (ringBase s r hi v).pd = s.pd ∧
    (ringBase s r hi v).ct = s.ct ∧
    (ringBase s r hi v).pl = s.pl ∧
    (ringBase s r hi v).vc = s.vc ∧
    (ringBase s r hi v).hl.locked = s.hl.locked := by
  unfold Machine.ringBase; first | (simp; done) | ((repeat' split) <;> simp; done) | (dsimp only; (repeat' split) <;> simp; done)
@[simp] theorem haltRing_keeps {s : State} {cause : Nat} :
    (haltRing s cause).pending = s.pending ∧
    (haltRing s cause).now = s.now ∧
    (haltRing s cause).regs = s.regs ∧
    (haltRing s cause).fr = s.fr ∧
    (haltRing s cause).mx = s.mx ∧
    (haltRing s cause).fx = s.fx ∧
    (haltRing s cause).ps = s.ps ∧
    (haltRing s cause).sp = s.sp ∧
    (haltRing s cause).ai = s.ai ∧
    (haltRing s cause).aq = s.aq ∧
    (haltRing s cause).dp = s.dp ∧
    (haltRing s cause).ck = s.ck ∧
    (haltRing s cause).sc = s.sc ∧
    (haltRing s cause).st = s.st ∧
    (haltRing s cause).sv = s.sv ∧
    (haltRing s cause).pd = s.pd ∧
    (haltRing s cause).ct = s.ct ∧
    (haltRing s cause).pl = s.pl ∧
    (haltRing s cause).vc = s.vc ∧
    (haltRing s cause).hl.locked = s.hl.locked := by
  unfold Machine.haltRing; first | (simp; done) | ((repeat' split) <;> simp; done) | (dsimp only; (repeat' split) <;> simp; done)
@[simp] theorem releaseWake_keeps {s : State} {r308 : Bool} {r406 : Bool} :
    (releaseWake s r308 r406).pending = s.pending ∧
    (releaseWake s r308 r406).now = s.now ∧
    (releaseWake s r308 r406).regs = s.regs ∧
    (releaseWake s r308 r406).fr = s.fr ∧
    (releaseWake s r308 r406).mx = s.mx ∧
    (releaseWake s r308 r406).fx = s.fx ∧
    (releaseWake s r308 r406).ps = s.ps ∧
    (releaseWake s r308 r406).sp = s.sp ∧
    (releaseWake s r308 r406).ai = s.ai ∧
    (releaseWake s r308 r406).aq = s.aq ∧
    (releaseWake s r308 r406).dp = s.dp ∧
    (releaseWake s r308 r406).ck = s.ck ∧
    (releaseWake s r308 r406).sc = s.sc ∧
    (releaseWake s r308 r406).st = s.st ∧
    (releaseWake s r308 r406).tw = s.tw ∧
    (releaseWake s r308 r406).sv = s.sv ∧
    (releaseWake s r308 r406).ct = s.ct ∧
    (releaseWake s r308 r406).pl = s.pl ∧
    (releaseWake s r308 r406).vc = s.vc ∧
    (releaseWake s r308 r406).hl.locked = s.hl.locked := by
  unfold Machine.releaseWake; first | (simp; done) | ((repeat' split) <;> simp; done) | (dsimp only; (repeat' split) <;> simp; done)
@[simp] theorem linkOpens_keeps {s : State} :
    (linkOpens s).pending = s.pending ∧
    (linkOpens s).now = s.now ∧
    (linkOpens s).regs = s.regs ∧
    (linkOpens s).fr = s.fr ∧
    (linkOpens s).mx = s.mx ∧
    (linkOpens s).fx = s.fx ∧
    (linkOpens s).ps = s.ps ∧
    (linkOpens s).sp = s.sp ∧
    (linkOpens s).ai = s.ai ∧
    (linkOpens s).aq = s.aq ∧
    (linkOpens s).dp = s.dp ∧
    (linkOpens s).ck = s.ck ∧
    (linkOpens s).sc = s.sc ∧
    (linkOpens s).st = s.st ∧
    (linkOpens s).sv = s.sv ∧
    (linkOpens s).pd = s.pd ∧
    (linkOpens s).ct = s.ct ∧
    (linkOpens s).pl = s.pl ∧
    (linkOpens s).vc = s.vc ∧
    (linkOpens s).hl.locked = s.hl.locked := by
  unfold Machine.linkOpens; first | (simp; done) | ((repeat' split) <;> simp; done) | (dsimp only; (repeat' split) <;> simp; done)
@[simp] theorem linkChanges_keeps {s : State} {x : LinkIn} {what : Nat} :
    (linkChanges s x what).pending = s.pending ∧
    (linkChanges s x what).now = s.now ∧
    (linkChanges s x what).regs = s.regs ∧
    (linkChanges s x what).fr = s.fr ∧
    (linkChanges s x what).mx = s.mx ∧
    (linkChanges s x what).fx = s.fx ∧
    (linkChanges s x what).ps = s.ps ∧
    (linkChanges s x what).sp = s.sp ∧
    (linkChanges s x what).ai = s.ai ∧
    (linkChanges s x what).aq = s.aq ∧
    (linkChanges s x what).dp = s.dp ∧
    (linkChanges s x what).ck = s.ck ∧
    (linkChanges s x what).sc = s.sc ∧
    (linkChanges s x what).st = s.st ∧
    (linkChanges s x what).sv = s.sv ∧
    (linkChanges s x what).ct = s.ct ∧
    (linkChanges s x what).pl = s.pl ∧
    (linkChanges s x what).vc = s.vc ∧
    (linkChanges s x what).hl.locked = s.hl.locked := by
  unfold Machine.linkChanges; first | (simp; done) | ((repeat' split) <;> simp; done) | (dsimp only; (repeat' split) <;> simp; done)
@[simp] theorem releaseRead_keeps {s : State} {x : TwTx} :
    (releaseRead s x).pending = s.pending ∧
    (releaseRead s x).now = s.now ∧
    (releaseRead s x).regs = s.regs ∧
    (releaseRead s x).fr = s.fr ∧
    (releaseRead s x).mx = s.mx ∧
    (releaseRead s x).fx = s.fx ∧
    (releaseRead s x).ps = s.ps ∧
    (releaseRead s x).sp = s.sp ∧
    (releaseRead s x).ai = s.ai ∧
    (releaseRead s x).aq = s.aq ∧
    (releaseRead s x).dp = s.dp ∧
    (releaseRead s x).ck = s.ck ∧
    (releaseRead s x).sc = s.sc ∧
    (releaseRead s x).hl = s.hl ∧
    (releaseRead s x).st = s.st ∧
    (releaseRead s x).tw = s.tw ∧
    (releaseRead s x).sv = s.sv ∧
    (releaseRead s x).pd = s.pd ∧
    (releaseRead s x).ct = s.ct ∧
    (releaseRead s x).pl = s.pl ∧
    (releaseRead s x).vc = s.vc := by
  unfold Machine.releaseRead; first | (simp; done) | ((repeat' split) <;> simp; done) | (dsimp only; (repeat' split) <;> simp; done)
@[simp] theorem endWrite_pending {s : State} {x : TwTx} {why : Nat} {run : State → State}
    (h : ∀ t, (run t).pending = t.pending) : (endWrite s x why run).pending = s.pending := by
  unfold endWrite; dsimp only; split <;> simp [h]
@[simp] theorem endWrite_now {s : State} {x : TwTx} {why : Nat} {run : State → State}
    (h : ∀ t, (run t).now = t.now) : (endWrite s x why run).now = s.now := by
  unfold endWrite; dsimp only; split <;> simp [h]
@[simp] theorem endWrite_regs {s : State} {x : TwTx} {why : Nat} {run : State → State}
    (h : ∀ t, (run t).regs = t.regs) : (endWrite s x why run).regs = s.regs := by
  unfold endWrite; dsimp only; split <;> simp [h]
@[simp] theorem endWrite_fr {s : State} {x : TwTx} {why : Nat} {run : State → State}
    (h : ∀ t, (run t).fr = t.fr) : (endWrite s x why run).fr = s.fr := by
  unfold endWrite; dsimp only; split <;> simp [h]
@[simp] theorem endWrite_mx {s : State} {x : TwTx} {why : Nat} {run : State → State}
    (h : ∀ t, (run t).mx = t.mx) : (endWrite s x why run).mx = s.mx := by
  unfold endWrite; dsimp only; split <;> simp [h]
@[simp] theorem endWrite_fx {s : State} {x : TwTx} {why : Nat} {run : State → State}
    (h : ∀ t, (run t).fx = t.fx) : (endWrite s x why run).fx = s.fx := by
  unfold endWrite; dsimp only; split <;> simp [h]
@[simp] theorem endWrite_ps {s : State} {x : TwTx} {why : Nat} {run : State → State}
    (h : ∀ t, (run t).ps = t.ps) : (endWrite s x why run).ps = s.ps := by
  unfold endWrite; dsimp only; split <;> simp [h]
@[simp] theorem endWrite_sp {s : State} {x : TwTx} {why : Nat} {run : State → State}
    (h : ∀ t, (run t).sp = t.sp) : (endWrite s x why run).sp = s.sp := by
  unfold endWrite; dsimp only; split <;> simp [h]
@[simp] theorem endWrite_ai {s : State} {x : TwTx} {why : Nat} {run : State → State}
    (h : ∀ t, (run t).ai = t.ai) : (endWrite s x why run).ai = s.ai := by
  unfold endWrite; dsimp only; split <;> simp [h]
@[simp] theorem endWrite_aq {s : State} {x : TwTx} {why : Nat} {run : State → State}
    (h : ∀ t, (run t).aq = t.aq) : (endWrite s x why run).aq = s.aq := by
  unfold endWrite; dsimp only; split <;> simp [h]
@[simp] theorem endWrite_dp {s : State} {x : TwTx} {why : Nat} {run : State → State}
    (h : ∀ t, (run t).dp = t.dp) : (endWrite s x why run).dp = s.dp := by
  unfold endWrite; dsimp only; split <;> simp [h]
@[simp] theorem endWrite_ck {s : State} {x : TwTx} {why : Nat} {run : State → State}
    (h : ∀ t, (run t).ck = t.ck) : (endWrite s x why run).ck = s.ck := by
  unfold endWrite; dsimp only; split <;> simp [h]
@[simp] theorem endWrite_sc {s : State} {x : TwTx} {why : Nat} {run : State → State}
    (h : ∀ t, (run t).sc = t.sc) : (endWrite s x why run).sc = s.sc := by
  unfold endWrite; dsimp only; split <;> simp [h]
@[simp] theorem endWrite_hl {s : State} {x : TwTx} {why : Nat} {run : State → State}
    (h : ∀ t, (run t).hl = t.hl) : (endWrite s x why run).hl = s.hl := by
  unfold endWrite; dsimp only; split <;> simp [h]
@[simp] theorem endWrite_st {s : State} {x : TwTx} {why : Nat} {run : State → State}
    (h : ∀ t, (run t).st = t.st) : (endWrite s x why run).st = s.st := by
  unfold endWrite; dsimp only; split <;> simp [h]
@[simp] theorem endWrite_sv {s : State} {x : TwTx} {why : Nat} {run : State → State}
    (h : ∀ t, (run t).sv = t.sv) : (endWrite s x why run).sv = s.sv := by
  unfold endWrite; dsimp only; split <;> simp [h]
@[simp] theorem endWrite_pd {s : State} {x : TwTx} {why : Nat} {run : State → State}
    (h : ∀ t, (run t).pd = t.pd) : (endWrite s x why run).pd = s.pd := by
  unfold endWrite; dsimp only; split <;> simp [h]
@[simp] theorem endWrite_ct {s : State} {x : TwTx} {why : Nat} {run : State → State}
    (h : ∀ t, (run t).ct = t.ct) : (endWrite s x why run).ct = s.ct := by
  unfold endWrite; dsimp only; split <;> simp [h]
@[simp] theorem endWrite_pl {s : State} {x : TwTx} {why : Nat} {run : State → State}
    (h : ∀ t, (run t).pl = t.pl) : (endWrite s x why run).pl = s.pl := by
  unfold endWrite; dsimp only; split <;> simp [h]
@[simp] theorem endWrite_vc {s : State} {x : TwTx} {why : Nat} {run : State → State}
    (h : ∀ t, (run t).vc = t.vc) : (endWrite s x why run).vc = s.vc := by
  unfold endWrite; dsimp only; split <;> simp [h]
@[simp] theorem endWrite_fr_fn {s : State} {x : TwTx} {why : Nat} {run : State → State}
    (h : ∀ t, (run t).fr.fn = t.fr.fn) : (endWrite s x why run).fr.fn = s.fr.fn := by
  unfold endWrite; dsimp only; split <;> simp [h]
@[simp] theorem endWrite_fr_next {s : State} {x : TwTx} {why : Nat} {run : State → State}
    (h : ∀ t, (run t).fr.next = t.fr.next) : (endWrite s x why run).fr.next = s.fr.next := by
  unfold endWrite; dsimp only; split <;> simp [h]
@[simp] theorem endWrite_fr_running {s : State} {x : TwTx} {why : Nat} {run : State → State}
    (h : ∀ t, (run t).fr.running = t.fr.running) : (endWrite s x why run).fr.running = s.fr.running := by
  unfold endWrite; dsimp only; split <;> simp [h]
@[simp] theorem endWrite_hl_locked {s : State} {x : TwTx} {why : Nat} {run : State → State}
    (h : ∀ t, (run t).hl.locked = t.hl.locked) : (endWrite s x why run).hl.locked = s.hl.locked := by
  unfold endWrite; dsimp only; split <;> simp [h]
@[simp] theorem nackAddr_keeps {s : State} :
    (nackAddr s).pending = s.pending ∧
    (nackAddr s).now = s.now ∧
    (nackAddr s).regs = s.regs ∧
    (nackAddr s).fr = s.fr ∧
    (nackAddr s).mx = s.mx ∧
    (nackAddr s).fx = s.fx ∧
    (nackAddr s).ps = s.ps ∧
    (nackAddr s).sp = s.sp ∧
    (nackAddr s).ai = s.ai ∧
    (nackAddr s).aq = s.aq ∧
    (nackAddr s).dp = s.dp ∧
    (nackAddr s).ck = s.ck ∧
    (nackAddr s).sc = s.sc ∧
    (nackAddr s).hl = s.hl ∧
    (nackAddr s).st = s.st ∧
    (nackAddr s).sv = s.sv ∧
    (nackAddr s).pd = s.pd ∧
    (nackAddr s).ct = s.ct ∧
    (nackAddr s).pl = s.pl ∧
    (nackAddr s).vc = s.vc := by
  unfold Machine.nackAddr; first | (simp; done) | ((repeat' split) <;> simp; done) | (dsimp only; (repeat' split) <;> simp; done)
@[simp] theorem pecError_keeps {s : State} {code : Byte} :
    (pecError s code).pending = s.pending ∧
    (pecError s code).now = s.now ∧
    (pecError s code).regs = s.regs ∧
    (pecError s code).fr = s.fr ∧
    (pecError s code).mx = s.mx ∧
    (pecError s code).fx = s.fx ∧
    (pecError s code).ps = s.ps ∧
    (pecError s code).sp = s.sp ∧
    (pecError s code).ai = s.ai ∧
    (pecError s code).aq = s.aq ∧
    (pecError s code).dp = s.dp ∧
    (pecError s code).ck = s.ck ∧
    (pecError s code).sc = s.sc ∧
    (pecError s code).st = s.st ∧
    (pecError s code).sv = s.sv ∧
    (pecError s code).pd = s.pd ∧
    (pecError s code).ct = s.ct ∧
    (pecError s code).pl = s.pl ∧
    (pecError s code).vc = s.vc ∧
    (pecError s code).hl.locked = s.hl.locked := by
  unfold Machine.pecError; first | (simp; done) | ((repeat' split) <;> simp; done) | (dsimp only; (repeat' split) <;> simp; done)
@[simp] theorem writeBody_pending {s : State} {code : Byte} {x : TwTx} {head n : Nat} {run : State → Bytes → State}
    (h : ∀ t b, (run t b).pending = t.pending) : (writeBody s code x head n run).pending = s.pending := by
  unfold writeBody; dsimp only; (repeat' split) <;> simp [h]
@[simp] theorem writeBody_now {s : State} {code : Byte} {x : TwTx} {head n : Nat} {run : State → Bytes → State}
    (h : ∀ t b, (run t b).now = t.now) : (writeBody s code x head n run).now = s.now := by
  unfold writeBody; dsimp only; (repeat' split) <;> simp [h]
@[simp] theorem writeBody_regs {s : State} {code : Byte} {x : TwTx} {head n : Nat} {run : State → Bytes → State}
    (h : ∀ t b, (run t b).regs = t.regs) : (writeBody s code x head n run).regs = s.regs := by
  unfold writeBody; dsimp only; (repeat' split) <;> simp [h]
@[simp] theorem writeBody_fr {s : State} {code : Byte} {x : TwTx} {head n : Nat} {run : State → Bytes → State}
    (h : ∀ t b, (run t b).fr = t.fr) : (writeBody s code x head n run).fr = s.fr := by
  unfold writeBody; dsimp only; (repeat' split) <;> simp [h]
@[simp] theorem writeBody_mx {s : State} {code : Byte} {x : TwTx} {head n : Nat} {run : State → Bytes → State}
    (h : ∀ t b, (run t b).mx = t.mx) : (writeBody s code x head n run).mx = s.mx := by
  unfold writeBody; dsimp only; (repeat' split) <;> simp [h]
@[simp] theorem writeBody_fx {s : State} {code : Byte} {x : TwTx} {head n : Nat} {run : State → Bytes → State}
    (h : ∀ t b, (run t b).fx = t.fx) : (writeBody s code x head n run).fx = s.fx := by
  unfold writeBody; dsimp only; (repeat' split) <;> simp [h]
@[simp] theorem writeBody_ps {s : State} {code : Byte} {x : TwTx} {head n : Nat} {run : State → Bytes → State}
    (h : ∀ t b, (run t b).ps = t.ps) : (writeBody s code x head n run).ps = s.ps := by
  unfold writeBody; dsimp only; (repeat' split) <;> simp [h]
@[simp] theorem writeBody_sp {s : State} {code : Byte} {x : TwTx} {head n : Nat} {run : State → Bytes → State}
    (h : ∀ t b, (run t b).sp = t.sp) : (writeBody s code x head n run).sp = s.sp := by
  unfold writeBody; dsimp only; (repeat' split) <;> simp [h]
@[simp] theorem writeBody_ai {s : State} {code : Byte} {x : TwTx} {head n : Nat} {run : State → Bytes → State}
    (h : ∀ t b, (run t b).ai = t.ai) : (writeBody s code x head n run).ai = s.ai := by
  unfold writeBody; dsimp only; (repeat' split) <;> simp [h]
@[simp] theorem writeBody_aq {s : State} {code : Byte} {x : TwTx} {head n : Nat} {run : State → Bytes → State}
    (h : ∀ t b, (run t b).aq = t.aq) : (writeBody s code x head n run).aq = s.aq := by
  unfold writeBody; dsimp only; (repeat' split) <;> simp [h]
@[simp] theorem writeBody_dp {s : State} {code : Byte} {x : TwTx} {head n : Nat} {run : State → Bytes → State}
    (h : ∀ t b, (run t b).dp = t.dp) : (writeBody s code x head n run).dp = s.dp := by
  unfold writeBody; dsimp only; (repeat' split) <;> simp [h]
@[simp] theorem writeBody_ck {s : State} {code : Byte} {x : TwTx} {head n : Nat} {run : State → Bytes → State}
    (h : ∀ t b, (run t b).ck = t.ck) : (writeBody s code x head n run).ck = s.ck := by
  unfold writeBody; dsimp only; (repeat' split) <;> simp [h]
@[simp] theorem writeBody_sc {s : State} {code : Byte} {x : TwTx} {head n : Nat} {run : State → Bytes → State}
    (h : ∀ t b, (run t b).sc = t.sc) : (writeBody s code x head n run).sc = s.sc := by
  unfold writeBody; dsimp only; (repeat' split) <;> simp [h]
@[simp] theorem writeBody_st {s : State} {code : Byte} {x : TwTx} {head n : Nat} {run : State → Bytes → State}
    (h : ∀ t b, (run t b).st = t.st) : (writeBody s code x head n run).st = s.st := by
  unfold writeBody; dsimp only; (repeat' split) <;> simp [h]
@[simp] theorem writeBody_sv {s : State} {code : Byte} {x : TwTx} {head n : Nat} {run : State → Bytes → State}
    (h : ∀ t b, (run t b).sv = t.sv) : (writeBody s code x head n run).sv = s.sv := by
  unfold writeBody; dsimp only; (repeat' split) <;> simp [h]
@[simp] theorem writeBody_pd {s : State} {code : Byte} {x : TwTx} {head n : Nat} {run : State → Bytes → State}
    (h : ∀ t b, (run t b).pd = t.pd) : (writeBody s code x head n run).pd = s.pd := by
  unfold writeBody; dsimp only; (repeat' split) <;> simp [h]
@[simp] theorem writeBody_ct {s : State} {code : Byte} {x : TwTx} {head n : Nat} {run : State → Bytes → State}
    (h : ∀ t b, (run t b).ct = t.ct) : (writeBody s code x head n run).ct = s.ct := by
  unfold writeBody; dsimp only; (repeat' split) <;> simp [h]
@[simp] theorem writeBody_pl {s : State} {code : Byte} {x : TwTx} {head n : Nat} {run : State → Bytes → State}
    (h : ∀ t b, (run t b).pl = t.pl) : (writeBody s code x head n run).pl = s.pl := by
  unfold writeBody; dsimp only; (repeat' split) <;> simp [h]
@[simp] theorem writeBody_vc {s : State} {code : Byte} {x : TwTx} {head n : Nat} {run : State → Bytes → State}
    (h : ∀ t b, (run t b).vc = t.vc) : (writeBody s code x head n run).vc = s.vc := by
  unfold writeBody; dsimp only; (repeat' split) <;> simp [h]
@[simp] theorem writeBody_hl_locked {s : State} {code : Byte} {x : TwTx} {head n : Nat} {run : State → Bytes → State}
    (h : ∀ t b, (run t b).hl.locked = t.hl.locked) : (writeBody s code x head n run).hl.locked = s.hl.locked := by
  unfold writeBody; dsimp only; (repeat' split) <;> simp [h]
@[simp] theorem writeBody_fr_fn {s : State} {code : Byte} {x : TwTx} {head n : Nat} {run : State → Bytes → State}
    (h : ∀ t b, (run t b).fr.fn = t.fr.fn) : (writeBody s code x head n run).fr.fn = s.fr.fn := by
  unfold writeBody; dsimp only; (repeat' split) <;> simp [h]
@[simp] theorem writeBody_fr_next {s : State} {code : Byte} {x : TwTx} {head n : Nat} {run : State → Bytes → State}
    (h : ∀ t b, (run t b).fr.next = t.fr.next) : (writeBody s code x head n run).fr.next = s.fr.next := by
  unfold writeBody; dsimp only; (repeat' split) <;> simp [h]
@[simp] theorem writeBody_fr_running {s : State} {code : Byte} {x : TwTx} {head n : Nat} {run : State → Bytes → State}
    (h : ∀ t b, (run t b).fr.running = t.fr.running) : (writeBody s code x head n run).fr.running = s.fr.running := by
  unfold writeBody; dsimp only; (repeat' split) <;> simp [h]
@[simp] theorem writeCode_pending {s : State} {x : TwTx} {k : State → State}
    (h : ∀ t, (k t).pending = t.pending) : (writeCode s x k).pending = s.pending := by
  unfold writeCode; (repeat' split) <;> simp [h]
@[simp] theorem writeCode_now {s : State} {x : TwTx} {k : State → State}
    (h : ∀ t, (k t).now = t.now) : (writeCode s x k).now = s.now := by
  unfold writeCode; (repeat' split) <;> simp [h]
@[simp] theorem writeCode_regs {s : State} {x : TwTx} {k : State → State}
    (h : ∀ t, (k t).regs = t.regs) : (writeCode s x k).regs = s.regs := by
  unfold writeCode; (repeat' split) <;> simp [h]
@[simp] theorem writeCode_fr {s : State} {x : TwTx} {k : State → State}
    (h : ∀ t, (k t).fr = t.fr) : (writeCode s x k).fr = s.fr := by
  unfold writeCode; (repeat' split) <;> simp [h]
@[simp] theorem writeCode_mx {s : State} {x : TwTx} {k : State → State}
    (h : ∀ t, (k t).mx = t.mx) : (writeCode s x k).mx = s.mx := by
  unfold writeCode; (repeat' split) <;> simp [h]
@[simp] theorem writeCode_fx {s : State} {x : TwTx} {k : State → State}
    (h : ∀ t, (k t).fx = t.fx) : (writeCode s x k).fx = s.fx := by
  unfold writeCode; (repeat' split) <;> simp [h]
@[simp] theorem writeCode_ps {s : State} {x : TwTx} {k : State → State}
    (h : ∀ t, (k t).ps = t.ps) : (writeCode s x k).ps = s.ps := by
  unfold writeCode; (repeat' split) <;> simp [h]
@[simp] theorem writeCode_sp {s : State} {x : TwTx} {k : State → State}
    (h : ∀ t, (k t).sp = t.sp) : (writeCode s x k).sp = s.sp := by
  unfold writeCode; (repeat' split) <;> simp [h]
@[simp] theorem writeCode_ai {s : State} {x : TwTx} {k : State → State}
    (h : ∀ t, (k t).ai = t.ai) : (writeCode s x k).ai = s.ai := by
  unfold writeCode; (repeat' split) <;> simp [h]
@[simp] theorem writeCode_aq {s : State} {x : TwTx} {k : State → State}
    (h : ∀ t, (k t).aq = t.aq) : (writeCode s x k).aq = s.aq := by
  unfold writeCode; (repeat' split) <;> simp [h]
@[simp] theorem writeCode_dp {s : State} {x : TwTx} {k : State → State}
    (h : ∀ t, (k t).dp = t.dp) : (writeCode s x k).dp = s.dp := by
  unfold writeCode; (repeat' split) <;> simp [h]
@[simp] theorem writeCode_ck {s : State} {x : TwTx} {k : State → State}
    (h : ∀ t, (k t).ck = t.ck) : (writeCode s x k).ck = s.ck := by
  unfold writeCode; (repeat' split) <;> simp [h]
@[simp] theorem writeCode_sc {s : State} {x : TwTx} {k : State → State}
    (h : ∀ t, (k t).sc = t.sc) : (writeCode s x k).sc = s.sc := by
  unfold writeCode; (repeat' split) <;> simp [h]
@[simp] theorem writeCode_st {s : State} {x : TwTx} {k : State → State}
    (h : ∀ t, (k t).st = t.st) : (writeCode s x k).st = s.st := by
  unfold writeCode; (repeat' split) <;> simp [h]
@[simp] theorem writeCode_sv {s : State} {x : TwTx} {k : State → State}
    (h : ∀ t, (k t).sv = t.sv) : (writeCode s x k).sv = s.sv := by
  unfold writeCode; (repeat' split) <;> simp [h]
@[simp] theorem writeCode_pd {s : State} {x : TwTx} {k : State → State}
    (h : ∀ t, (k t).pd = t.pd) : (writeCode s x k).pd = s.pd := by
  unfold writeCode; (repeat' split) <;> simp [h]
@[simp] theorem writeCode_ct {s : State} {x : TwTx} {k : State → State}
    (h : ∀ t, (k t).ct = t.ct) : (writeCode s x k).ct = s.ct := by
  unfold writeCode; (repeat' split) <;> simp [h]
@[simp] theorem writeCode_pl {s : State} {x : TwTx} {k : State → State}
    (h : ∀ t, (k t).pl = t.pl) : (writeCode s x k).pl = s.pl := by
  unfold writeCode; (repeat' split) <;> simp [h]
@[simp] theorem writeCode_vc {s : State} {x : TwTx} {k : State → State}
    (h : ∀ t, (k t).vc = t.vc) : (writeCode s x k).vc = s.vc := by
  unfold writeCode; (repeat' split) <;> simp [h]
@[simp] theorem writeCode_hl_locked {s : State} {x : TwTx} {k : State → State}
    (h : ∀ t, (k t).hl.locked = t.hl.locked) : (writeCode s x k).hl.locked = s.hl.locked := by
  unfold writeCode; (repeat' split) <;> simp [h]
@[simp] theorem writeCode_fr_fn {s : State} {x : TwTx} {k : State → State}
    (h : ∀ t, (k t).fr.fn = t.fr.fn) : (writeCode s x k).fr.fn = s.fr.fn := by
  unfold writeCode; (repeat' split) <;> simp [h]
@[simp] theorem writeCode_fr_next {s : State} {x : TwTx} {k : State → State}
    (h : ∀ t, (k t).fr.next = t.fr.next) : (writeCode s x k).fr.next = s.fr.next := by
  unfold writeCode; (repeat' split) <;> simp [h]
@[simp] theorem writeCode_fr_running {s : State} {x : TwTx} {k : State → State}
    (h : ∀ t, (k t).fr.running = t.fr.running) : (writeCode s x k).fr.running = s.fr.running := by
  unfold writeCode; (repeat' split) <;> simp [h]
@[simp] theorem keepLate_keeps {s : State} {code : Byte} {d : Bytes} :
    (keepLate s code d).pending = s.pending ∧
    (keepLate s code d).now = s.now ∧
    (keepLate s code d).out = s.out ∧
    (keepLate s code d).regs = s.regs ∧
    (keepLate s code d).fr = s.fr ∧
    (keepLate s code d).mx = s.mx ∧
    (keepLate s code d).fx = s.fx ∧
    (keepLate s code d).ps = s.ps ∧
    (keepLate s code d).sp = s.sp ∧
    (keepLate s code d).ai = s.ai ∧
    (keepLate s code d).aq = s.aq ∧
    (keepLate s code d).dp = s.dp ∧
    (keepLate s code d).ck = s.ck ∧
    (keepLate s code d).sc = s.sc ∧
    (keepLate s code d).hl = s.hl ∧
    (keepLate s code d).st = s.st ∧
    (keepLate s code d).sv = s.sv ∧
    (keepLate s code d).pd = s.pd ∧
    (keepLate s code d).ct = s.ct ∧
    (keepLate s code d).pl = s.pl ∧
    (keepLate s code d).vc = s.vc := by
  unfold Machine.keepLate; first | (simp; done) | ((repeat' split) <;> simp; done) | (dsimp only; (repeat' split) <;> simp; done)
@[simp] theorem blockWrite_pending {s : State} {code : Byte} {x : TwTx} {ok : Nat → Bool} {run : State → Bytes → State}
    (h : ∀ t b, (run t b).pending = t.pending) : (blockWrite s code x ok run).pending = s.pending := by
  unfold blockWrite; (repeat' split) <;> simp [h]
@[simp] theorem blockWrite_now {s : State} {code : Byte} {x : TwTx} {ok : Nat → Bool} {run : State → Bytes → State}
    (h : ∀ t b, (run t b).now = t.now) : (blockWrite s code x ok run).now = s.now := by
  unfold blockWrite; (repeat' split) <;> simp [h]
@[simp] theorem blockWrite_regs {s : State} {code : Byte} {x : TwTx} {ok : Nat → Bool} {run : State → Bytes → State}
    (h : ∀ t b, (run t b).regs = t.regs) : (blockWrite s code x ok run).regs = s.regs := by
  unfold blockWrite; (repeat' split) <;> simp [h]
@[simp] theorem blockWrite_fr {s : State} {code : Byte} {x : TwTx} {ok : Nat → Bool} {run : State → Bytes → State}
    (h : ∀ t b, (run t b).fr = t.fr) : (blockWrite s code x ok run).fr = s.fr := by
  unfold blockWrite; (repeat' split) <;> simp [h]
@[simp] theorem blockWrite_mx {s : State} {code : Byte} {x : TwTx} {ok : Nat → Bool} {run : State → Bytes → State}
    (h : ∀ t b, (run t b).mx = t.mx) : (blockWrite s code x ok run).mx = s.mx := by
  unfold blockWrite; (repeat' split) <;> simp [h]
@[simp] theorem blockWrite_fx {s : State} {code : Byte} {x : TwTx} {ok : Nat → Bool} {run : State → Bytes → State}
    (h : ∀ t b, (run t b).fx = t.fx) : (blockWrite s code x ok run).fx = s.fx := by
  unfold blockWrite; (repeat' split) <;> simp [h]
@[simp] theorem blockWrite_ps {s : State} {code : Byte} {x : TwTx} {ok : Nat → Bool} {run : State → Bytes → State}
    (h : ∀ t b, (run t b).ps = t.ps) : (blockWrite s code x ok run).ps = s.ps := by
  unfold blockWrite; (repeat' split) <;> simp [h]
@[simp] theorem blockWrite_sp {s : State} {code : Byte} {x : TwTx} {ok : Nat → Bool} {run : State → Bytes → State}
    (h : ∀ t b, (run t b).sp = t.sp) : (blockWrite s code x ok run).sp = s.sp := by
  unfold blockWrite; (repeat' split) <;> simp [h]
@[simp] theorem blockWrite_ai {s : State} {code : Byte} {x : TwTx} {ok : Nat → Bool} {run : State → Bytes → State}
    (h : ∀ t b, (run t b).ai = t.ai) : (blockWrite s code x ok run).ai = s.ai := by
  unfold blockWrite; (repeat' split) <;> simp [h]
@[simp] theorem blockWrite_aq {s : State} {code : Byte} {x : TwTx} {ok : Nat → Bool} {run : State → Bytes → State}
    (h : ∀ t b, (run t b).aq = t.aq) : (blockWrite s code x ok run).aq = s.aq := by
  unfold blockWrite; (repeat' split) <;> simp [h]
@[simp] theorem blockWrite_dp {s : State} {code : Byte} {x : TwTx} {ok : Nat → Bool} {run : State → Bytes → State}
    (h : ∀ t b, (run t b).dp = t.dp) : (blockWrite s code x ok run).dp = s.dp := by
  unfold blockWrite; (repeat' split) <;> simp [h]
@[simp] theorem blockWrite_ck {s : State} {code : Byte} {x : TwTx} {ok : Nat → Bool} {run : State → Bytes → State}
    (h : ∀ t b, (run t b).ck = t.ck) : (blockWrite s code x ok run).ck = s.ck := by
  unfold blockWrite; (repeat' split) <;> simp [h]
@[simp] theorem blockWrite_sc {s : State} {code : Byte} {x : TwTx} {ok : Nat → Bool} {run : State → Bytes → State}
    (h : ∀ t b, (run t b).sc = t.sc) : (blockWrite s code x ok run).sc = s.sc := by
  unfold blockWrite; (repeat' split) <;> simp [h]
@[simp] theorem blockWrite_st {s : State} {code : Byte} {x : TwTx} {ok : Nat → Bool} {run : State → Bytes → State}
    (h : ∀ t b, (run t b).st = t.st) : (blockWrite s code x ok run).st = s.st := by
  unfold blockWrite; (repeat' split) <;> simp [h]
@[simp] theorem blockWrite_sv {s : State} {code : Byte} {x : TwTx} {ok : Nat → Bool} {run : State → Bytes → State}
    (h : ∀ t b, (run t b).sv = t.sv) : (blockWrite s code x ok run).sv = s.sv := by
  unfold blockWrite; (repeat' split) <;> simp [h]
@[simp] theorem blockWrite_pd {s : State} {code : Byte} {x : TwTx} {ok : Nat → Bool} {run : State → Bytes → State}
    (h : ∀ t b, (run t b).pd = t.pd) : (blockWrite s code x ok run).pd = s.pd := by
  unfold blockWrite; (repeat' split) <;> simp [h]
@[simp] theorem blockWrite_ct {s : State} {code : Byte} {x : TwTx} {ok : Nat → Bool} {run : State → Bytes → State}
    (h : ∀ t b, (run t b).ct = t.ct) : (blockWrite s code x ok run).ct = s.ct := by
  unfold blockWrite; (repeat' split) <;> simp [h]
@[simp] theorem blockWrite_pl {s : State} {code : Byte} {x : TwTx} {ok : Nat → Bool} {run : State → Bytes → State}
    (h : ∀ t b, (run t b).pl = t.pl) : (blockWrite s code x ok run).pl = s.pl := by
  unfold blockWrite; (repeat' split) <;> simp [h]
@[simp] theorem blockWrite_vc {s : State} {code : Byte} {x : TwTx} {ok : Nat → Bool} {run : State → Bytes → State}
    (h : ∀ t b, (run t b).vc = t.vc) : (blockWrite s code x ok run).vc = s.vc := by
  unfold blockWrite; (repeat' split) <;> simp [h]
@[simp] theorem blockWrite_hl_locked {s : State} {code : Byte} {x : TwTx} {ok : Nat → Bool} {run : State → Bytes → State}
    (h : ∀ t b, (run t b).hl.locked = t.hl.locked) : (blockWrite s code x ok run).hl.locked = s.hl.locked := by
  unfold blockWrite; (repeat' split) <;> simp [h]
@[simp] theorem blockWrite_fr_fn {s : State} {code : Byte} {x : TwTx} {ok : Nat → Bool} {run : State → Bytes → State}
    (h : ∀ t b, (run t b).fr.fn = t.fr.fn) : (blockWrite s code x ok run).fr.fn = s.fr.fn := by
  unfold blockWrite; (repeat' split) <;> simp [h]
@[simp] theorem blockWrite_fr_next {s : State} {code : Byte} {x : TwTx} {ok : Nat → Bool} {run : State → Bytes → State}
    (h : ∀ t b, (run t b).fr.next = t.fr.next) : (blockWrite s code x ok run).fr.next = s.fr.next := by
  unfold blockWrite; (repeat' split) <;> simp [h]
@[simp] theorem blockWrite_fr_running {s : State} {code : Byte} {x : TwTx} {ok : Nat → Bool} {run : State → Bytes → State}
    (h : ∀ t b, (run t b).fr.running = t.fr.running) : (blockWrite s code x ok run).fr.running = s.fr.running := by
  unfold blockWrite; (repeat' split) <;> simp [h]
@[simp] theorem twAnswer_keeps {s : State} {code : Byte} {x : TwTx} {n : Nat} {resp : Bytes} :
    (twAnswer s code x n resp).pending = s.pending ∧
    (twAnswer s code x n resp).now = s.now ∧
    (twAnswer s code x n resp).regs = s.regs ∧
    (twAnswer s code x n resp).fr = s.fr ∧
    (twAnswer s code x n resp).mx = s.mx ∧
    (twAnswer s code x n resp).fx = s.fx ∧
    (twAnswer s code x n resp).ps = s.ps ∧
    (twAnswer s code x n resp).sp = s.sp ∧
    (twAnswer s code x n resp).ai = s.ai ∧
    (twAnswer s code x n resp).aq = s.aq ∧
    (twAnswer s code x n resp).dp = s.dp ∧
    (twAnswer s code x n resp).ck = s.ck ∧
    (twAnswer s code x n resp).sc = s.sc ∧
    (twAnswer s code x n resp).hl = s.hl ∧
    (twAnswer s code x n resp).st = s.st ∧
    (twAnswer s code x n resp).tw = s.tw ∧
    (twAnswer s code x n resp).sv = s.sv ∧
    (twAnswer s code x n resp).pd = s.pd ∧
    (twAnswer s code x n resp).ct = s.ct ∧
    (twAnswer s code x n resp).pl = s.pl ∧
    (twAnswer s code x n resp).vc = s.vc := by
  unfold Machine.twAnswer; first | (simp; done) | ((repeat' split) <;> simp; done) | (dsimp only; (repeat' split) <;> simp; done)
@[simp] theorem blockRead_pending {s : State} {code : Byte} {x : TwTx} {k : State → State × Bytes}
    (h : ∀ t, (k t).1.pending = t.pending) : (blockRead s code x k).pending = s.pending := by
  unfold blockRead; (repeat' split) <;> simp [h]
@[simp] theorem blockRead_now {s : State} {code : Byte} {x : TwTx} {k : State → State × Bytes}
    (h : ∀ t, (k t).1.now = t.now) : (blockRead s code x k).now = s.now := by
  unfold blockRead; (repeat' split) <;> simp [h]
@[simp] theorem blockRead_regs {s : State} {code : Byte} {x : TwTx} {k : State → State × Bytes}
    (h : ∀ t, (k t).1.regs = t.regs) : (blockRead s code x k).regs = s.regs := by
  unfold blockRead; (repeat' split) <;> simp [h]
@[simp] theorem blockRead_fr {s : State} {code : Byte} {x : TwTx} {k : State → State × Bytes}
    (h : ∀ t, (k t).1.fr = t.fr) : (blockRead s code x k).fr = s.fr := by
  unfold blockRead; (repeat' split) <;> simp [h]
@[simp] theorem blockRead_mx {s : State} {code : Byte} {x : TwTx} {k : State → State × Bytes}
    (h : ∀ t, (k t).1.mx = t.mx) : (blockRead s code x k).mx = s.mx := by
  unfold blockRead; (repeat' split) <;> simp [h]
@[simp] theorem blockRead_fx {s : State} {code : Byte} {x : TwTx} {k : State → State × Bytes}
    (h : ∀ t, (k t).1.fx = t.fx) : (blockRead s code x k).fx = s.fx := by
  unfold blockRead; (repeat' split) <;> simp [h]
@[simp] theorem blockRead_ps {s : State} {code : Byte} {x : TwTx} {k : State → State × Bytes}
    (h : ∀ t, (k t).1.ps = t.ps) : (blockRead s code x k).ps = s.ps := by
  unfold blockRead; (repeat' split) <;> simp [h]
@[simp] theorem blockRead_sp {s : State} {code : Byte} {x : TwTx} {k : State → State × Bytes}
    (h : ∀ t, (k t).1.sp = t.sp) : (blockRead s code x k).sp = s.sp := by
  unfold blockRead; (repeat' split) <;> simp [h]
@[simp] theorem blockRead_ai {s : State} {code : Byte} {x : TwTx} {k : State → State × Bytes}
    (h : ∀ t, (k t).1.ai = t.ai) : (blockRead s code x k).ai = s.ai := by
  unfold blockRead; (repeat' split) <;> simp [h]
@[simp] theorem blockRead_aq {s : State} {code : Byte} {x : TwTx} {k : State → State × Bytes}
    (h : ∀ t, (k t).1.aq = t.aq) : (blockRead s code x k).aq = s.aq := by
  unfold blockRead; (repeat' split) <;> simp [h]
@[simp] theorem blockRead_dp {s : State} {code : Byte} {x : TwTx} {k : State → State × Bytes}
    (h : ∀ t, (k t).1.dp = t.dp) : (blockRead s code x k).dp = s.dp := by
  unfold blockRead; (repeat' split) <;> simp [h]
@[simp] theorem blockRead_ck {s : State} {code : Byte} {x : TwTx} {k : State → State × Bytes}
    (h : ∀ t, (k t).1.ck = t.ck) : (blockRead s code x k).ck = s.ck := by
  unfold blockRead; (repeat' split) <;> simp [h]
@[simp] theorem blockRead_sc {s : State} {code : Byte} {x : TwTx} {k : State → State × Bytes}
    (h : ∀ t, (k t).1.sc = t.sc) : (blockRead s code x k).sc = s.sc := by
  unfold blockRead; (repeat' split) <;> simp [h]
@[simp] theorem blockRead_hl {s : State} {code : Byte} {x : TwTx} {k : State → State × Bytes}
    (h : ∀ t, (k t).1.hl = t.hl) : (blockRead s code x k).hl = s.hl := by
  unfold blockRead; (repeat' split) <;> simp [h]
@[simp] theorem blockRead_st {s : State} {code : Byte} {x : TwTx} {k : State → State × Bytes}
    (h : ∀ t, (k t).1.st = t.st) : (blockRead s code x k).st = s.st := by
  unfold blockRead; (repeat' split) <;> simp [h]
@[simp] theorem blockRead_sv {s : State} {code : Byte} {x : TwTx} {k : State → State × Bytes}
    (h : ∀ t, (k t).1.sv = t.sv) : (blockRead s code x k).sv = s.sv := by
  unfold blockRead; (repeat' split) <;> simp [h]
@[simp] theorem blockRead_pd {s : State} {code : Byte} {x : TwTx} {k : State → State × Bytes}
    (h : ∀ t, (k t).1.pd = t.pd) : (blockRead s code x k).pd = s.pd := by
  unfold blockRead; (repeat' split) <;> simp [h]
@[simp] theorem blockRead_ct {s : State} {code : Byte} {x : TwTx} {k : State → State × Bytes}
    (h : ∀ t, (k t).1.ct = t.ct) : (blockRead s code x k).ct = s.ct := by
  unfold blockRead; (repeat' split) <;> simp [h]
@[simp] theorem blockRead_pl {s : State} {code : Byte} {x : TwTx} {k : State → State × Bytes}
    (h : ∀ t, (k t).1.pl = t.pl) : (blockRead s code x k).pl = s.pl := by
  unfold blockRead; (repeat' split) <;> simp [h]
@[simp] theorem blockRead_vc {s : State} {code : Byte} {x : TwTx} {k : State → State × Bytes}
    (h : ∀ t, (k t).1.vc = t.vc) : (blockRead s code x k).vc = s.vc := by
  unfold blockRead; (repeat' split) <;> simp [h]
@[simp] theorem blockRead_fr_fn {s : State} {code : Byte} {x : TwTx} {k : State → State × Bytes}
    (h : ∀ t, (k t).1.fr.fn = t.fr.fn) : (blockRead s code x k).fr.fn = s.fr.fn := by
  unfold blockRead; (repeat' split) <;> simp [h]
@[simp] theorem blockRead_fr_next {s : State} {code : Byte} {x : TwTx} {k : State → State × Bytes}
    (h : ∀ t, (k t).1.fr.next = t.fr.next) : (blockRead s code x k).fr.next = s.fr.next := by
  unfold blockRead; (repeat' split) <;> simp [h]
@[simp] theorem blockRead_fr_running {s : State} {code : Byte} {x : TwTx} {k : State → State × Bytes}
    (h : ∀ t, (k t).1.fr.running = t.fr.running) : (blockRead s code x k).fr.running = s.fr.running := by
  unfold blockRead; (repeat' split) <;> simp [h]
@[simp] theorem blockRead_hl_locked {s : State} {code : Byte} {x : TwTx} {k : State → State × Bytes}
    (h : ∀ t, (k t).1.hl.locked = t.hl.locked) : (blockRead s code x k).hl.locked = s.hl.locked := by
  unfold blockRead; (repeat' split) <;> simp [h]
@[simp] theorem procCall_keeps {s : State} {code : Byte} {x : TwTx} {w : Nat} {k : State → Bytes → Bytes} :
    (procCall s code x w k).pending = s.pending ∧
    (procCall s code x w k).now = s.now ∧
    (procCall s code x w k).regs = s.regs ∧
    (procCall s code x w k).fr = s.fr ∧
    (procCall s code x w k).mx = s.mx ∧
    (procCall s code x w k).fx = s.fx ∧
    (procCall s code x w k).ps = s.ps ∧
    (procCall s code x w k).sp = s.sp ∧
    (procCall s code x w k).ai = s.ai ∧
    (procCall s code x w k).aq = s.aq ∧
    (procCall s code x w k).dp = s.dp ∧
    (procCall s code x w k).ck = s.ck ∧
    (procCall s code x w k).sc = s.sc ∧
    (procCall s code x w k).hl = s.hl ∧
    (procCall s code x w k).st = s.st ∧
    (procCall s code x w k).sv = s.sv ∧
    (procCall s code x w k).pd = s.pd ∧
    (procCall s code x w k).ct = s.ct ∧
    (procCall s code x w k).pl = s.pl ∧
    (procCall s code x w k).vc = s.vc := by
  unfold Machine.procCall; first | (simp; done) | ((repeat' split) <;> simp; done) | (dsimp only; (repeat' split) <;> simp; done)
@[simp] theorem answered_keeps {s : State} :
    (answered s).pending = s.pending ∧
    (answered s).now = s.now ∧
    (answered s).out = s.out ∧
    (answered s).regs = s.regs ∧
    (answered s).fr = s.fr ∧
    (answered s).mx = s.mx ∧
    (answered s).fx = s.fx ∧
    (answered s).ps = s.ps ∧
    (answered s).sp = s.sp ∧
    (answered s).ai = s.ai ∧
    (answered s).aq = s.aq ∧
    (answered s).dp = s.dp ∧
    (answered s).ck = s.ck ∧
    (answered s).sc = s.sc ∧
    (answered s).hl = s.hl ∧
    (answered s).st = s.st ∧
    (answered s).sv = s.sv ∧
    (answered s).pd = s.pd ∧
    (answered s).ct = s.ct ∧
    (answered s).pl = s.pl ∧
    (answered s).vc = s.vc := by
  unfold Machine.answered; first | (simp; done) | ((repeat' split) <;> simp; done) | (dsimp only; (repeat' split) <;> simp; done)
@[simp] theorem setFlag_keeps {s : State} {b : Nat} :
    (setFlag s b).pending = s.pending ∧
    (setFlag s b).now = s.now ∧
    (setFlag s b).out = s.out ∧
    (setFlag s b).regs = s.regs ∧
    (setFlag s b).fr = s.fr ∧
    (setFlag s b).mx = s.mx ∧
    (setFlag s b).fx = s.fx ∧
    (setFlag s b).ps = s.ps ∧
    (setFlag s b).sp = s.sp ∧
    (setFlag s b).ai = s.ai ∧
    (setFlag s b).aq = s.aq ∧
    (setFlag s b).dp = s.dp ∧
    (setFlag s b).ck = s.ck ∧
    (setFlag s b).sc = s.sc ∧
    (setFlag s b).hl = s.hl ∧
    (setFlag s b).st = s.st ∧
    (setFlag s b).sv = s.sv ∧
    (setFlag s b).pd = s.pd ∧
    (setFlag s b).ct = s.ct ∧
    (setFlag s b).pl = s.pl ∧
    (setFlag s b).vc = s.vc := by
  unfold Machine.setFlag; first | (simp; done) | ((repeat' split) <;> simp; done) | (dsimp only; (repeat' split) <;> simp; done)
@[simp] theorem notifyFailed_keeps {s : State} {cause : Nat} :
    (notifyFailed s cause).pending = s.pending ∧
    (notifyFailed s cause).now = s.now ∧
    (notifyFailed s cause).regs = s.regs ∧
    (notifyFailed s cause).fr = s.fr ∧
    (notifyFailed s cause).mx = s.mx ∧
    (notifyFailed s cause).fx = s.fx ∧
    (notifyFailed s cause).ps = s.ps ∧
    (notifyFailed s cause).sp = s.sp ∧
    (notifyFailed s cause).ai = s.ai ∧
    (notifyFailed s cause).aq = s.aq ∧
    (notifyFailed s cause).dp = s.dp ∧
    (notifyFailed s cause).ck = s.ck ∧
    (notifyFailed s cause).sc = s.sc ∧
    (notifyFailed s cause).st = s.st ∧
    (notifyFailed s cause).sv = s.sv ∧
    (notifyFailed s cause).pd = s.pd ∧
    (notifyFailed s cause).ct = s.ct ∧
    (notifyFailed s cause).pl = s.pl ∧
    (notifyFailed s cause).vc = s.vc ∧
    (notifyFailed s cause).hl.locked = s.hl.locked := by
  unfold Machine.notifyFailed; first | (simp; done) | ((repeat' split) <;> simp; done) | (dsimp only; (repeat' split) <;> simp; done)
@[simp] theorem arbLost_keeps {s : State} {byte : Nat} {bitNo : Nat} {what : Nat} {asTarget : Bool} :
    (arbLost s byte bitNo what asTarget).pending = s.pending ∧
    (arbLost s byte bitNo what asTarget).now = s.now ∧
    (arbLost s byte bitNo what asTarget).regs = s.regs ∧
    (arbLost s byte bitNo what asTarget).fr = s.fr ∧
    (arbLost s byte bitNo what asTarget).mx = s.mx ∧
    (arbLost s byte bitNo what asTarget).fx = s.fx ∧
    (arbLost s byte bitNo what asTarget).ps = s.ps ∧
    (arbLost s byte bitNo what asTarget).sp = s.sp ∧
    (arbLost s byte bitNo what asTarget).ai = s.ai ∧
    (arbLost s byte bitNo what asTarget).aq = s.aq ∧
    (arbLost s byte bitNo what asTarget).dp = s.dp ∧
    (arbLost s byte bitNo what asTarget).ck = s.ck ∧
    (arbLost s byte bitNo what asTarget).sc = s.sc ∧
    (arbLost s byte bitNo what asTarget).st = s.st ∧
    (arbLost s byte bitNo what asTarget).sv = s.sv ∧
    (arbLost s byte bitNo what asTarget).pd = s.pd ∧
    (arbLost s byte bitNo what asTarget).ct = s.ct ∧
    (arbLost s byte bitNo what asTarget).pl = s.pl ∧
    (arbLost s byte bitNo what asTarget).vc = s.vc ∧
    (arbLost s byte bitNo what asTarget).hl.locked = s.hl.locked := by
  unfold Machine.arbLost; first | (simp; done) | ((repeat' split) <;> simp; done) | (dsimp only; (repeat' split) <;> simp; done)
@[simp] theorem sdaStuck_keeps {s : State} {n : Nat} :
    (sdaStuck s n).pending = s.pending ∧
    (sdaStuck s n).now = s.now ∧
    (sdaStuck s n).regs = s.regs ∧
    (sdaStuck s n).fr = s.fr ∧
    (sdaStuck s n).mx = s.mx ∧
    (sdaStuck s n).fx = s.fx ∧
    (sdaStuck s n).ps = s.ps ∧
    (sdaStuck s n).sp = s.sp ∧
    (sdaStuck s n).ai = s.ai ∧
    (sdaStuck s n).aq = s.aq ∧
    (sdaStuck s n).dp = s.dp ∧
    (sdaStuck s n).ck = s.ck ∧
    (sdaStuck s n).sc = s.sc ∧
    (sdaStuck s n).st = s.st ∧
    (sdaStuck s n).sv = s.sv ∧
    (sdaStuck s n).pd = s.pd ∧
    (sdaStuck s n).ct = s.ct ∧
    (sdaStuck s n).pl = s.pl ∧
    (sdaStuck s n).vc = s.vc ∧
    (sdaStuck s n).hl.locked = s.hl.locked := by
  unfold Machine.sdaStuck; first | (simp; done) | ((repeat' split) <;> simp; done) | (dsimp only; (repeat' split) <;> simp; done)
@[simp] theorem notifyStuck_keeps {s : State} :
    (notifyStuck s).pending = s.pending ∧
    (notifyStuck s).now = s.now ∧
    (notifyStuck s).regs = s.regs ∧
    (notifyStuck s).fr = s.fr ∧
    (notifyStuck s).mx = s.mx ∧
    (notifyStuck s).fx = s.fx ∧
    (notifyStuck s).ps = s.ps ∧
    (notifyStuck s).sp = s.sp ∧
    (notifyStuck s).ai = s.ai ∧
    (notifyStuck s).aq = s.aq ∧
    (notifyStuck s).dp = s.dp ∧
    (notifyStuck s).ck = s.ck ∧
    (notifyStuck s).sc = s.sc ∧
    (notifyStuck s).st = s.st ∧
    (notifyStuck s).sv = s.sv ∧
    (notifyStuck s).pd = s.pd ∧
    (notifyStuck s).ct = s.ct ∧
    (notifyStuck s).pl = s.pl ∧
    (notifyStuck s).vc = s.vc ∧
    (notifyStuck s).hl.locked = s.hl.locked := by
  unfold Machine.notifyStuck; first | (simp; done) | ((repeat' split) <;> simp; done) | (dsimp only; (repeat' split) <;> simp; done)
@[simp] theorem vcoreStuck_keeps {s : State} :
    (vcoreStuck s).pending = s.pending ∧
    (vcoreStuck s).now = s.now ∧
    (vcoreStuck s).regs = s.regs ∧
    (vcoreStuck s).fr = s.fr ∧
    (vcoreStuck s).mx = s.mx ∧
    (vcoreStuck s).fx = s.fx ∧
    (vcoreStuck s).ps = s.ps ∧
    (vcoreStuck s).sp = s.sp ∧
    (vcoreStuck s).ai = s.ai ∧
    (vcoreStuck s).aq = s.aq ∧
    (vcoreStuck s).dp = s.dp ∧
    (vcoreStuck s).ck = s.ck ∧
    (vcoreStuck s).sc = s.sc ∧
    (vcoreStuck s).st = s.st ∧
    (vcoreStuck s).sv = s.sv ∧
    (vcoreStuck s).pd = s.pd ∧
    (vcoreStuck s).ct = s.ct ∧
    (vcoreStuck s).pl = s.pl ∧
    (vcoreStuck s).vc = s.vc ∧
    (vcoreStuck s).hl.locked = s.hl.locked := by
  unfold Machine.vcoreStuck; first | (simp; done) | ((repeat' split) <;> simp; done) | (dsimp only; (repeat' split) <;> simp; done)
@[simp] theorem stretched_keeps {s : State} {target : Bool} {code : Byte} :
    (stretched s target code).pending = s.pending ∧
    (stretched s target code).now = s.now ∧
    (stretched s target code).regs = s.regs ∧
    (stretched s target code).fr = s.fr ∧
    (stretched s target code).mx = s.mx ∧
    (stretched s target code).fx = s.fx ∧
    (stretched s target code).ps = s.ps ∧
    (stretched s target code).sp = s.sp ∧
    (stretched s target code).ai = s.ai ∧
    (stretched s target code).aq = s.aq ∧
    (stretched s target code).dp = s.dp ∧
    (stretched s target code).ck = s.ck ∧
    (stretched s target code).sc = s.sc ∧
    (stretched s target code).st = s.st ∧
    (stretched s target code).sv = s.sv ∧
    (stretched s target code).pd = s.pd ∧
    (stretched s target code).ct = s.ct ∧
    (stretched s target code).pl = s.pl ∧
    (stretched s target code).vc = s.vc ∧
    (stretched s target code).hl.locked = s.hl.locked := by
  unfold Machine.stretched; first | (simp; done) | ((repeat' split) <;> simp; done) | (dsimp only; (repeat' split) <;> simp; done)
@[simp] theorem sendNotify_keeps {s : State} {n : Nat} {r : CtlResult} :
    (sendNotify s n r).pending = s.pending ∧
    (sendNotify s n r).now = s.now ∧
    (sendNotify s n r).regs = s.regs ∧
    (sendNotify s n r).fr = s.fr ∧
    (sendNotify s n r).mx = s.mx ∧
    (sendNotify s n r).fx = s.fx ∧
    (sendNotify s n r).ps = s.ps ∧
    (sendNotify s n r).sp = s.sp ∧
    (sendNotify s n r).ai = s.ai ∧
    (sendNotify s n r).aq = s.aq ∧
    (sendNotify s n r).dp = s.dp ∧
    (sendNotify s n r).ck = s.ck ∧
    (sendNotify s n r).sc = s.sc ∧
    (sendNotify s n r).st = s.st ∧
    (sendNotify s n r).sv = s.sv ∧
    (sendNotify s n r).pd = s.pd ∧
    (sendNotify s n r).ct = s.ct ∧
    (sendNotify s n r).pl = s.pl ∧
    (sendNotify s n r).vc = s.vc ∧
    (sendNotify s n r).hl.locked = s.hl.locked := by
  unfold Machine.sendNotify; first | (simp; done) | ((repeat' split) <;> simp; done) | (dsimp only; (repeat' split) <;> simp; done)
@[simp] theorem sendVcore_keeps {s : State} {level : Nat} {r : CtlResult} :
    (sendVcore s level r).pending = s.pending ∧
    (sendVcore s level r).now = s.now ∧
    (sendVcore s level r).regs = s.regs ∧
    (sendVcore s level r).fr = s.fr ∧
    (sendVcore s level r).mx = s.mx ∧
    (sendVcore s level r).fx = s.fx ∧
    (sendVcore s level r).ps = s.ps ∧
    (sendVcore s level r).sp = s.sp ∧
    (sendVcore s level r).ai = s.ai ∧
    (sendVcore s level r).aq = s.aq ∧
    (sendVcore s level r).dp = s.dp ∧
    (sendVcore s level r).ck = s.ck ∧
    (sendVcore s level r).sc = s.sc ∧
    (sendVcore s level r).st = s.st ∧
    (sendVcore s level r).sv = s.sv ∧
    (sendVcore s level r).pd = s.pd ∧
    (sendVcore s level r).ct = s.ct ∧
    (sendVcore s level r).pl = s.pl ∧
    (sendVcore s level r).hl.locked = s.hl.locked := by
  unfold Machine.sendVcore; first | (simp; done) | ((repeat' split) <;> simp; done) | (dsimp only; (repeat' split) <;> simp; done)
@[simp] theorem takeNotify_keeps {s : State} :
    (takeNotify s).pending = s.pending ∧
    (takeNotify s).now = s.now ∧
    (takeNotify s).out = s.out ∧
    (takeNotify s).regs = s.regs ∧
    (takeNotify s).fr = s.fr ∧
    (takeNotify s).mx = s.mx ∧
    (takeNotify s).fx = s.fx ∧
    (takeNotify s).ps = s.ps ∧
    (takeNotify s).sp = s.sp ∧
    (takeNotify s).ai = s.ai ∧
    (takeNotify s).aq = s.aq ∧
    (takeNotify s).dp = s.dp ∧
    (takeNotify s).ck = s.ck ∧
    (takeNotify s).sc = s.sc ∧
    (takeNotify s).hl = s.hl ∧
    (takeNotify s).st = s.st ∧
    (takeNotify s).sv = s.sv ∧
    (takeNotify s).pd = s.pd ∧
    (takeNotify s).ct = s.ct ∧
    (takeNotify s).pl = s.pl ∧
    (takeNotify s).vc = s.vc := by
  unfold Machine.takeNotify; first | (simp; done) | ((repeat' split) <;> simp; done) | (dsimp only; (repeat' split) <;> simp; done)
@[simp] theorem setVcore_keeps {s : State} {level : Nat} {r : CtlResult} :
    (setVcore s level r).pending = s.pending ∧
    (setVcore s level r).now = s.now ∧
    (setVcore s level r).regs = s.regs ∧
    (setVcore s level r).fr = s.fr ∧
    (setVcore s level r).mx = s.mx ∧
    (setVcore s level r).fx = s.fx ∧
    (setVcore s level r).ps = s.ps ∧
    (setVcore s level r).sp = s.sp ∧
    (setVcore s level r).ai = s.ai ∧
    (setVcore s level r).aq = s.aq ∧
    (setVcore s level r).dp = s.dp ∧
    (setVcore s level r).ck = s.ck ∧
    (setVcore s level r).sc = s.sc ∧
    (setVcore s level r).st = s.st ∧
    (setVcore s level r).sv = s.sv ∧
    (setVcore s level r).pd = s.pd ∧
    (setVcore s level r).ct = s.ct ∧
    (setVcore s level r).pl = s.pl ∧
    (setVcore s level r).hl.locked = s.hl.locked := by
  unfold Machine.setVcore; first | (simp; done) | ((repeat' split) <;> simp; done) | (dsimp only; (repeat' split) <;> simp; done)
@[simp] theorem writeVid_keeps {s : State} {v : Word} {r : CtlResult} :
    (writeVid s v r).pending = s.pending ∧
    (writeVid s v r).now = s.now ∧
    (writeVid s v r).fr = s.fr ∧
    (writeVid s v r).mx = s.mx ∧
    (writeVid s v r).fx = s.fx ∧
    (writeVid s v r).ps = s.ps ∧
    (writeVid s v r).sp = s.sp ∧
    (writeVid s v r).ai = s.ai ∧
    (writeVid s v r).aq = s.aq ∧
    (writeVid s v r).dp = s.dp ∧
    (writeVid s v r).ck = s.ck ∧
    (writeVid s v r).sc = s.sc ∧
    (writeVid s v r).st = s.st ∧
    (writeVid s v r).sv = s.sv ∧
    (writeVid s v r).pd = s.pd ∧
    (writeVid s v r).ct = s.ct ∧
    (writeVid s v r).pl = s.pl ∧
    (writeVid s v r).hl.locked = s.hl.locked := by
  unfold Machine.writeVid; first | (simp; done) | ((repeat' split) <;> simp; done) | (dsimp only; (repeat' split) <;> simp; done)
@[simp] theorem countWrite_keeps {s : State} {line : Nat} :
    (countWrite s line).pending = s.pending ∧
    (countWrite s line).now = s.now ∧
    (countWrite s line).out = s.out ∧
    (countWrite s line).regs = s.regs ∧
    (countWrite s line).fr = s.fr ∧
    (countWrite s line).mx = s.mx ∧
    (countWrite s line).fx = s.fx ∧
    (countWrite s line).ps = s.ps ∧
    (countWrite s line).sp = s.sp ∧
    (countWrite s line).ai = s.ai ∧
    (countWrite s line).aq = s.aq ∧
    (countWrite s line).dp = s.dp ∧
    (countWrite s line).ck = s.ck ∧
    (countWrite s line).sc = s.sc ∧
    (countWrite s line).hl = s.hl ∧
    (countWrite s line).st = s.st ∧
    (countWrite s line).tw = s.tw ∧
    (countWrite s line).pd = s.pd ∧
    (countWrite s line).ct = s.ct ∧
    (countWrite s line).pl = s.pl ∧
    (countWrite s line).vc = s.vc := by
  unfold Machine.countWrite; first | (simp; done) | ((repeat' split) <;> simp; done) | (dsimp only; (repeat' split) <;> simp; done)
@[simp] theorem pantryWear_keeps {s : State} {what : Nat} :
    (pantryWear s what).pending = s.pending ∧
    (pantryWear s what).now = s.now ∧
    (pantryWear s what).regs = s.regs ∧
    (pantryWear s what).fr = s.fr ∧
    (pantryWear s what).mx = s.mx ∧
    (pantryWear s what).fx = s.fx ∧
    (pantryWear s what).ps = s.ps ∧
    (pantryWear s what).sp = s.sp ∧
    (pantryWear s what).ai = s.ai ∧
    (pantryWear s what).aq = s.aq ∧
    (pantryWear s what).dp = s.dp ∧
    (pantryWear s what).ck = s.ck ∧
    (pantryWear s what).sc = s.sc ∧
    (pantryWear s what).st = s.st ∧
    (pantryWear s what).sv = s.sv ∧
    (pantryWear s what).pd = s.pd ∧
    (pantryWear s what).ct = s.ct ∧
    (pantryWear s what).pl = s.pl ∧
    (pantryWear s what).vc = s.vc ∧
    (pantryWear s what).hl.locked = s.hl.locked := by
  unfold Machine.pantryWear; first | (simp; done) | ((repeat' split) <;> simp; done) | (dsimp only; (repeat' split) <;> simp; done)
@[simp] theorem noteWear_keeps {s : State} :
    (noteWear s).pending = s.pending ∧
    (noteWear s).now = s.now ∧
    (noteWear s).regs = s.regs ∧
    (noteWear s).fr = s.fr ∧
    (noteWear s).mx = s.mx ∧
    (noteWear s).fx = s.fx ∧
    (noteWear s).ps = s.ps ∧
    (noteWear s).sp = s.sp ∧
    (noteWear s).ai = s.ai ∧
    (noteWear s).aq = s.aq ∧
    (noteWear s).dp = s.dp ∧
    (noteWear s).ck = s.ck ∧
    (noteWear s).sc = s.sc ∧
    (noteWear s).st = s.st ∧
    (noteWear s).pd = s.pd ∧
    (noteWear s).ct = s.ct ∧
    (noteWear s).pl = s.pl ∧
    (noteWear s).vc = s.vc ∧
    (noteWear s).hl.locked = s.hl.locked := by
  unfold Machine.noteWear; first | (simp; done) | ((repeat' split) <;> simp; done) | (dsimp only; (repeat' split) <;> simp; done)
@[simp] theorem retireLine_keeps {s : State} {line : Nat} {copied : Bool} :
    (retireLine s line copied).pending = s.pending ∧
    (retireLine s line copied).now = s.now ∧
    (retireLine s line copied).regs = s.regs ∧
    (retireLine s line copied).fr = s.fr ∧
    (retireLine s line copied).mx = s.mx ∧
    (retireLine s line copied).fx = s.fx ∧
    (retireLine s line copied).ps = s.ps ∧
    (retireLine s line copied).sp = s.sp ∧
    (retireLine s line copied).ai = s.ai ∧
    (retireLine s line copied).aq = s.aq ∧
    (retireLine s line copied).dp = s.dp ∧
    (retireLine s line copied).ck = s.ck ∧
    (retireLine s line copied).sc = s.sc ∧
    (retireLine s line copied).st = s.st ∧
    (retireLine s line copied).pd = s.pd ∧
    (retireLine s line copied).ct = s.ct ∧
    (retireLine s line copied).pl = s.pl ∧
    (retireLine s line copied).vc = s.vc ∧
    (retireLine s line copied).hl.locked = s.hl.locked := by
  unfold Machine.retireLine; first | (simp; done) | ((repeat' split) <;> simp; done) | (dsimp only; (repeat' split) <;> simp; done)
@[simp] theorem writeLine_keeps {s : State} {line : Nat} :
    (writeLine s line).pending = s.pending ∧
    (writeLine s line).now = s.now ∧
    (writeLine s line).regs = s.regs ∧
    (writeLine s line).fr = s.fr ∧
    (writeLine s line).mx = s.mx ∧
    (writeLine s line).fx = s.fx ∧
    (writeLine s line).ps = s.ps ∧
    (writeLine s line).sp = s.sp ∧
    (writeLine s line).ai = s.ai ∧
    (writeLine s line).aq = s.aq ∧
    (writeLine s line).dp = s.dp ∧
    (writeLine s line).ck = s.ck ∧
    (writeLine s line).sc = s.sc ∧
    (writeLine s line).st = s.st ∧
    (writeLine s line).pd = s.pd ∧
    (writeLine s line).ct = s.ct ∧
    (writeLine s line).pl = s.pl ∧
    (writeLine s line).vc = s.vc ∧
    (writeLine s line).hl.locked = s.hl.locked := by
  unfold Machine.writeLine; first | (simp; done) | ((repeat' split) <;> simp; done) | (dsimp only; (repeat' split) <;> simp; done)
@[simp] theorem pantryReads_keeps {s : State} {l : List Correction} :
    (pantryReads s l).pending = s.pending ∧
    (pantryReads s l).now = s.now ∧
    (pantryReads s l).regs = s.regs ∧
    (pantryReads s l).fr = s.fr ∧
    (pantryReads s l).mx = s.mx ∧
    (pantryReads s l).fx = s.fx ∧
    (pantryReads s l).ps = s.ps ∧
    (pantryReads s l).sp = s.sp ∧
    (pantryReads s l).ai = s.ai ∧
    (pantryReads s l).aq = s.aq ∧
    (pantryReads s l).dp = s.dp ∧
    (pantryReads s l).ck = s.ck ∧
    (pantryReads s l).sc = s.sc ∧
    (pantryReads s l).st = s.st ∧
    (pantryReads s l).pd = s.pd ∧
    (pantryReads s l).ct = s.ct ∧
    (pantryReads s l).pl = s.pl ∧
    (pantryReads s l).vc = s.vc ∧
    (pantryReads s l).hl.locked = s.hl.locked := by
  unfold Machine.pantryReads; first | (simp; done) | ((repeat' split) <;> simp; done) | (dsimp only; (repeat' split) <;> simp; done)
@[simp] theorem commitLines_keeps {s : State} {l : List Nat} :
    (commitLines s l).pending = s.pending ∧
    (commitLines s l).now = s.now ∧
    (commitLines s l).regs = s.regs ∧
    (commitLines s l).fr = s.fr ∧
    (commitLines s l).mx = s.mx ∧
    (commitLines s l).fx = s.fx ∧
    (commitLines s l).ps = s.ps ∧
    (commitLines s l).sp = s.sp ∧
    (commitLines s l).ai = s.ai ∧
    (commitLines s l).aq = s.aq ∧
    (commitLines s l).dp = s.dp ∧
    (commitLines s l).ck = s.ck ∧
    (commitLines s l).sc = s.sc ∧
    (commitLines s l).st = s.st ∧
    (commitLines s l).pd = s.pd ∧
    (commitLines s l).ct = s.ct ∧
    (commitLines s l).pl = s.pl ∧
    (commitLines s l).vc = s.vc ∧
    (commitLines s l).hl.locked = s.hl.locked := by
  unfold Machine.commitLines; first | (simp; done) | ((repeat' split) <;> simp; done) | (dsimp only; (repeat' split) <;> simp; done)
@[simp] theorem drawBytes_keeps {s : State} {n : Nat} :
    (drawBytes s n).2.pending = s.pending ∧
    (drawBytes s n).2.now = s.now ∧
    (drawBytes s n).2.out = s.out ∧
    (drawBytes s n).2.regs = s.regs ∧
    (drawBytes s n).2.fr = s.fr ∧
    (drawBytes s n).2.mx = s.mx ∧
    (drawBytes s n).2.fx = s.fx ∧
    (drawBytes s n).2.ps = s.ps ∧
    (drawBytes s n).2.sp = s.sp ∧
    (drawBytes s n).2.ai = s.ai ∧
    (drawBytes s n).2.aq = s.aq ∧
    (drawBytes s n).2.dp = s.dp ∧
    (drawBytes s n).2.ck = s.ck ∧
    (drawBytes s n).2.sc = s.sc ∧
    (drawBytes s n).2.hl = s.hl ∧
    (drawBytes s n).2.st = s.st ∧
    (drawBytes s n).2.tw = s.tw ∧
    (drawBytes s n).2.sv = s.sv ∧
    (drawBytes s n).2.pd = s.pd ∧
    (drawBytes s n).2.ct = s.ct ∧
    (drawBytes s n).2.pl = s.pl ∧
    (drawBytes s n).2.vc = s.vc := by
  unfold Machine.drawBytes; first | (simp; done) | ((repeat' split) <;> simp; done) | (dsimp only; (repeat' split) <;> simp; done)
@[simp] theorem drawKey_keeps {s : State} :
    (drawKey s).2.pending = s.pending ∧
    (drawKey s).2.now = s.now ∧
    (drawKey s).2.out = s.out ∧
    (drawKey s).2.regs = s.regs ∧
    (drawKey s).2.fr = s.fr ∧
    (drawKey s).2.mx = s.mx ∧
    (drawKey s).2.fx = s.fx ∧
    (drawKey s).2.ps = s.ps ∧
    (drawKey s).2.sp = s.sp ∧
    (drawKey s).2.ai = s.ai ∧
    (drawKey s).2.aq = s.aq ∧
    (drawKey s).2.dp = s.dp ∧
    (drawKey s).2.ck = s.ck ∧
    (drawKey s).2.sc = s.sc ∧
    (drawKey s).2.hl = s.hl ∧
    (drawKey s).2.st = s.st ∧
    (drawKey s).2.tw = s.tw ∧
    (drawKey s).2.sv = s.sv ∧
    (drawKey s).2.pd = s.pd ∧
    (drawKey s).2.ct = s.ct ∧
    (drawKey s).2.pl = s.pl ∧
    (drawKey s).2.vc = s.vc := by
  unfold Machine.drawKey; first | (simp; done) | ((repeat' split) <;> simp; done) | (dsimp only; (repeat' split) <;> simp; done)
@[simp] theorem signDik_keeps {s : State} {m : Bytes} :
    (signDik s m).2.pending = s.pending ∧
    (signDik s m).2.now = s.now ∧
    (signDik s m).2.out = s.out ∧
    (signDik s m).2.regs = s.regs ∧
    (signDik s m).2.fr = s.fr ∧
    (signDik s m).2.mx = s.mx ∧
    (signDik s m).2.fx = s.fx ∧
    (signDik s m).2.ps = s.ps ∧
    (signDik s m).2.sp = s.sp ∧
    (signDik s m).2.ai = s.ai ∧
    (signDik s m).2.aq = s.aq ∧
    (signDik s m).2.dp = s.dp ∧
    (signDik s m).2.ck = s.ck ∧
    (signDik s m).2.sc = s.sc ∧
    (signDik s m).2.hl = s.hl ∧
    (signDik s m).2.st = s.st ∧
    (signDik s m).2.tw = s.tw ∧
    (signDik s m).2.sv = s.sv ∧
    (signDik s m).2.pd = s.pd ∧
    (signDik s m).2.ct = s.ct ∧
    (signDik s m).2.pl = s.pl ∧
    (signDik s m).2.vc = s.vc := by
  unfold Machine.signDik; first | (simp; done) | ((repeat' split) <;> simp; done) | (dsimp only; (repeat' split) <;> simp; done)
@[simp] theorem refuseImage_keeps {s : State} {b : Bytes} {status : Nat} {step : Nat} :
    (refuseImage s b status step).pending = s.pending ∧
    (refuseImage s b status step).now = s.now ∧
    (refuseImage s b status step).regs = s.regs ∧
    (refuseImage s b status step).fr = s.fr ∧
    (refuseImage s b status step).mx = s.mx ∧
    (refuseImage s b status step).fx = s.fx ∧
    (refuseImage s b status step).ps = s.ps ∧
    (refuseImage s b status step).sp = s.sp ∧
    (refuseImage s b status step).ai = s.ai ∧
    (refuseImage s b status step).aq = s.aq ∧
    (refuseImage s b status step).dp = s.dp ∧
    (refuseImage s b status step).ck = s.ck ∧
    (refuseImage s b status step).sc = s.sc ∧
    (refuseImage s b status step).st = s.st ∧
    (refuseImage s b status step).pd = s.pd ∧
    (refuseImage s b status step).ct = s.ct ∧
    (refuseImage s b status step).pl = s.pl ∧
    (refuseImage s b status step).vc = s.vc ∧
    (refuseImage s b status step).hl.locked = s.hl.locked := by
  unfold Machine.refuseImage; first | (simp; done) | ((repeat' split) <;> simp; done) | (dsimp only; (repeat' split) <;> simp; done)
@[simp] theorem advanceCtr_keeps {s : State} {h : Header} :
    (advanceCtr s h).pending = s.pending ∧
    (advanceCtr s h).now = s.now ∧
    (advanceCtr s h).regs = s.regs ∧
    (advanceCtr s h).fr = s.fr ∧
    (advanceCtr s h).mx = s.mx ∧
    (advanceCtr s h).fx = s.fx ∧
    (advanceCtr s h).ps = s.ps ∧
    (advanceCtr s h).sp = s.sp ∧
    (advanceCtr s h).ai = s.ai ∧
    (advanceCtr s h).aq = s.aq ∧
    (advanceCtr s h).dp = s.dp ∧
    (advanceCtr s h).ck = s.ck ∧
    (advanceCtr s h).sc = s.sc ∧
    (advanceCtr s h).st = s.st ∧
    (advanceCtr s h).pd = s.pd ∧
    (advanceCtr s h).ct = s.ct ∧
    (advanceCtr s h).pl = s.pl ∧
    (advanceCtr s h).vc = s.vc ∧
    (advanceCtr s h).hl.locked = s.hl.locked := by
  unfold Machine.advanceCtr; first | (simp; done) | ((repeat' split) <;> simp; done) | (dsimp only; (repeat' split) <;> simp; done)
@[simp] theorem setFwSlot_keeps {s : State} {b : Bool} {f : FwSlot} :
    (setFwSlot s b f).pending = s.pending ∧
    (setFwSlot s b f).now = s.now ∧
    (setFwSlot s b f).out = s.out ∧
    (setFwSlot s b f).regs = s.regs ∧
    (setFwSlot s b f).fr = s.fr ∧
    (setFwSlot s b f).mx = s.mx ∧
    (setFwSlot s b f).fx = s.fx ∧
    (setFwSlot s b f).ps = s.ps ∧
    (setFwSlot s b f).sp = s.sp ∧
    (setFwSlot s b f).ai = s.ai ∧
    (setFwSlot s b f).aq = s.aq ∧
    (setFwSlot s b f).dp = s.dp ∧
    (setFwSlot s b f).ck = s.ck ∧
    (setFwSlot s b f).sc = s.sc ∧
    (setFwSlot s b f).hl = s.hl ∧
    (setFwSlot s b f).st = s.st ∧
    (setFwSlot s b f).tw = s.tw ∧
    (setFwSlot s b f).pd = s.pd ∧
    (setFwSlot s b f).ct = s.ct ∧
    (setFwSlot s b f).pl = s.pl ∧
    (setFwSlot s b f).vc = s.vc := by
  unfold Machine.setFwSlot; first | (simp; done) | ((repeat' split) <;> simp; done) | (dsimp only; (repeat' split) <;> simp; done)
@[simp] theorem fwWrite_keeps {s : State} {img : Bytes} {body : Bytes} :
    (fwWrite s img body).pending = s.pending ∧
    (fwWrite s img body).now = s.now ∧
    (fwWrite s img body).regs = s.regs ∧
    (fwWrite s img body).fr = s.fr ∧
    (fwWrite s img body).mx = s.mx ∧
    (fwWrite s img body).fx = s.fx ∧
    (fwWrite s img body).ps = s.ps ∧
    (fwWrite s img body).sp = s.sp ∧
    (fwWrite s img body).ai = s.ai ∧
    (fwWrite s img body).aq = s.aq ∧
    (fwWrite s img body).dp = s.dp ∧
    (fwWrite s img body).ck = s.ck ∧
    (fwWrite s img body).sc = s.sc ∧
    (fwWrite s img body).st = s.st ∧
    (fwWrite s img body).pd = s.pd ∧
    (fwWrite s img body).ct = s.ct ∧
    (fwWrite s img body).pl = s.pl ∧
    (fwWrite s img body).vc = s.vc ∧
    (fwWrite s img body).hl.locked = s.hl.locked := by
  unfold Machine.fwWrite; first | (simp; done) | ((repeat' split) <;> simp; done) | (dsimp only; (repeat' split) <;> simp; done)
@[simp] theorem longLoad_keeps {s : State} {op : Nat} {slot : Nat} {c : Cmd} {d : Dma} {f : Bytes → LongOp} :
    (longLoad s op slot c d f).pending = s.pending ∧
    (longLoad s op slot c d f).now = s.now ∧
    (longLoad s op slot c d f).out = s.out ∧
    (longLoad s op slot c d f).regs = s.regs ∧
    (longLoad s op slot c d f).fr = s.fr ∧
    (longLoad s op slot c d f).mx = s.mx ∧
    (longLoad s op slot c d f).fx = s.fx ∧
    (longLoad s op slot c d f).ps = s.ps ∧
    (longLoad s op slot c d f).sp = s.sp ∧
    (longLoad s op slot c d f).ai = s.ai ∧
    (longLoad s op slot c d f).aq = s.aq ∧
    (longLoad s op slot c d f).dp = s.dp ∧
    (longLoad s op slot c d f).ck = s.ck ∧
    (longLoad s op slot c d f).sc = s.sc ∧
    (longLoad s op slot c d f).st = s.st ∧
    (longLoad s op slot c d f).tw = s.tw ∧
    (longLoad s op slot c d f).sv = s.sv ∧
    (longLoad s op slot c d f).pd = s.pd ∧
    (longLoad s op slot c d f).ct = s.ct ∧
    (longLoad s op slot c d f).pl = s.pl ∧
    (longLoad s op slot c d f).vc = s.vc ∧
    (longLoad s op slot c d f).hl.locked = s.hl.locked := by
  unfold Machine.longLoad; first | (simp; done) | ((repeat' split) <;> simp; done) | (dsimp only; (repeat' split) <;> simp; done)
@[simp] theorem fwStaged_keeps {s : State} {us : Word} {img : Bytes} {fwOk : Bool} {nvOk : Bool} :
    (fwStaged s us img fwOk nvOk).pending = s.pending ∧
    (fwStaged s us img fwOk nvOk).now = s.now ∧
    (fwStaged s us img fwOk nvOk).regs = s.regs ∧
    (fwStaged s us img fwOk nvOk).fr = s.fr ∧
    (fwStaged s us img fwOk nvOk).mx = s.mx ∧
    (fwStaged s us img fwOk nvOk).fx = s.fx ∧
    (fwStaged s us img fwOk nvOk).ps = s.ps ∧
    (fwStaged s us img fwOk nvOk).sp = s.sp ∧
    (fwStaged s us img fwOk nvOk).ai = s.ai ∧
    (fwStaged s us img fwOk nvOk).aq = s.aq ∧
    (fwStaged s us img fwOk nvOk).dp = s.dp ∧
    (fwStaged s us img fwOk nvOk).ck = s.ck ∧
    (fwStaged s us img fwOk nvOk).sc = s.sc ∧
    (fwStaged s us img fwOk nvOk).st = s.st ∧
    (fwStaged s us img fwOk nvOk).pd = s.pd ∧
    (fwStaged s us img fwOk nvOk).ct = s.ct ∧
    (fwStaged s us img fwOk nvOk).pl = s.pl ∧
    (fwStaged s us img fwOk nvOk).vc = s.vc ∧
    (fwStaged s us img fwOk nvOk).hl.locked = s.hl.locked := by
  unfold Machine.fwStaged; first | (simp; done) | ((repeat' split) <;> simp; done) | (dsimp only; (repeat' split) <;> simp; done)
@[simp] theorem fwDemote_keeps {s : State} :
    (fwDemote s).pending = s.pending ∧
    (fwDemote s).now = s.now ∧
    (fwDemote s).out = s.out ∧
    (fwDemote s).regs = s.regs ∧
    (fwDemote s).fr = s.fr ∧
    (fwDemote s).mx = s.mx ∧
    (fwDemote s).fx = s.fx ∧
    (fwDemote s).ps = s.ps ∧
    (fwDemote s).sp = s.sp ∧
    (fwDemote s).ai = s.ai ∧
    (fwDemote s).aq = s.aq ∧
    (fwDemote s).dp = s.dp ∧
    (fwDemote s).ck = s.ck ∧
    (fwDemote s).sc = s.sc ∧
    (fwDemote s).hl = s.hl ∧
    (fwDemote s).st = s.st ∧
    (fwDemote s).tw = s.tw ∧
    (fwDemote s).pd = s.pd ∧
    (fwDemote s).ct = s.ct ∧
    (fwDemote s).pl = s.pl ∧
    (fwDemote s).vc = s.vc := by
  unfold Machine.fwDemote; first | (simp; done) | ((repeat' split) <;> simp; done) | (dsimp only; (repeat' split) <;> simp; done)
@[simp] theorem fwFallen_keeps {s : State} {cause : Nat} :
    (fwFallen s cause).pending = s.pending ∧
    (fwFallen s cause).now = s.now ∧
    (fwFallen s cause).regs = s.regs ∧
    (fwFallen s cause).fr = s.fr ∧
    (fwFallen s cause).mx = s.mx ∧
    (fwFallen s cause).fx = s.fx ∧
    (fwFallen s cause).ps = s.ps ∧
    (fwFallen s cause).sp = s.sp ∧
    (fwFallen s cause).ai = s.ai ∧
    (fwFallen s cause).aq = s.aq ∧
    (fwFallen s cause).dp = s.dp ∧
    (fwFallen s cause).ck = s.ck ∧
    (fwFallen s cause).sc = s.sc ∧
    (fwFallen s cause).st = s.st ∧
    (fwFallen s cause).pd = s.pd ∧
    (fwFallen s cause).ct = s.ct ∧
    (fwFallen s cause).pl = s.pl ∧
    (fwFallen s cause).vc = s.vc ∧
    (fwFallen s cause).hl.locked = s.hl.locked := by
  unfold Machine.fwFallen; first | (simp; done) | ((repeat' split) <;> simp; done) | (dsimp only; (repeat' split) <;> simp; done)
@[simp] theorem storeKey_keeps {s : State} {d : Nat} :
    (storeKey s d).pending = s.pending ∧
    (storeKey s d).now = s.now ∧
    (storeKey s d).regs = s.regs ∧
    (storeKey s d).fr = s.fr ∧
    (storeKey s d).mx = s.mx ∧
    (storeKey s d).fx = s.fx ∧
    (storeKey s d).ps = s.ps ∧
    (storeKey s d).sp = s.sp ∧
    (storeKey s d).ai = s.ai ∧
    (storeKey s d).aq = s.aq ∧
    (storeKey s d).dp = s.dp ∧
    (storeKey s d).ck = s.ck ∧
    (storeKey s d).sc = s.sc ∧
    (storeKey s d).st = s.st ∧
    (storeKey s d).pd = s.pd ∧
    (storeKey s d).ct = s.ct ∧
    (storeKey s d).pl = s.pl ∧
    (storeKey s d).vc = s.vc ∧
    (storeKey s d).hl.locked = s.hl.locked := by
  unfold Machine.storeKey; first | (simp; done) | ((repeat' split) <;> simp; done) | (dsimp only; (repeat' split) <;> simp; done)
@[simp] theorem keygenDone_keeps {s : State} {us : Word} {d : Nat} {nvOk : Bool} :
    (keygenDone s us d nvOk).pending = s.pending ∧
    (keygenDone s us d nvOk).now = s.now ∧
    (keygenDone s us d nvOk).regs = s.regs ∧
    (keygenDone s us d nvOk).fr = s.fr ∧
    (keygenDone s us d nvOk).mx = s.mx ∧
    (keygenDone s us d nvOk).fx = s.fx ∧
    (keygenDone s us d nvOk).ps = s.ps ∧
    (keygenDone s us d nvOk).sp = s.sp ∧
    (keygenDone s us d nvOk).ai = s.ai ∧
    (keygenDone s us d nvOk).aq = s.aq ∧
    (keygenDone s us d nvOk).dp = s.dp ∧
    (keygenDone s us d nvOk).ck = s.ck ∧
    (keygenDone s us d nvOk).sc = s.sc ∧
    (keygenDone s us d nvOk).st = s.st ∧
    (keygenDone s us d nvOk).pd = s.pd ∧
    (keygenDone s us d nvOk).ct = s.ct ∧
    (keygenDone s us d nvOk).pl = s.pl ∧
    (keygenDone s us d nvOk).vc = s.vc ∧
    (keygenDone s us d nvOk).hl.locked = s.hl.locked := by
  unfold Machine.keygenDone; first | (simp; done) | ((repeat' split) <;> simp; done) | (dsimp only; (repeat' split) <;> simp; done)
@[simp] theorem badHash_keeps {s : State} :
    (badHash s).2.pending = s.pending ∧
    (badHash s).2.now = s.now ∧
    (badHash s).2.out = s.out ∧
    (badHash s).2.regs = s.regs ∧
    (badHash s).2.fr = s.fr ∧
    (badHash s).2.mx = s.mx ∧
    (badHash s).2.fx = s.fx ∧
    (badHash s).2.ps = s.ps ∧
    (badHash s).2.sp = s.sp ∧
    (badHash s).2.ai = s.ai ∧
    (badHash s).2.aq = s.aq ∧
    (badHash s).2.dp = s.dp ∧
    (badHash s).2.ck = s.ck ∧
    (badHash s).2.sc = s.sc ∧
    (badHash s).2.hl = s.hl ∧
    (badHash s).2.st = s.st ∧
    (badHash s).2.tw = s.tw ∧
    (badHash s).2.sv = s.sv ∧
    (badHash s).2.pd = s.pd ∧
    (badHash s).2.ct = s.ct ∧
    (badHash s).2.pl = s.pl ∧
    (badHash s).2.vc = s.vc := by
  unfold Machine.badHash; first | (simp; done) | ((repeat' split) <;> simp; done) | (dsimp only; (repeat' split) <;> simp; done)
@[simp] theorem setOwnerSlot_keeps {s : State} {i : Nat} {o : OwnerSlot} :
    (setOwnerSlot s i o).pending = s.pending ∧
    (setOwnerSlot s i o).now = s.now ∧
    (setOwnerSlot s i o).out = s.out ∧
    (setOwnerSlot s i o).regs = s.regs ∧
    (setOwnerSlot s i o).fr = s.fr ∧
    (setOwnerSlot s i o).mx = s.mx ∧
    (setOwnerSlot s i o).fx = s.fx ∧
    (setOwnerSlot s i o).ps = s.ps ∧
    (setOwnerSlot s i o).sp = s.sp ∧
    (setOwnerSlot s i o).ai = s.ai ∧
    (setOwnerSlot s i o).aq = s.aq ∧
    (setOwnerSlot s i o).dp = s.dp ∧
    (setOwnerSlot s i o).ck = s.ck ∧
    (setOwnerSlot s i o).sc = s.sc ∧
    (setOwnerSlot s i o).hl = s.hl ∧
    (setOwnerSlot s i o).st = s.st ∧
    (setOwnerSlot s i o).tw = s.tw ∧
    (setOwnerSlot s i o).pd = s.pd ∧
    (setOwnerSlot s i o).ct = s.ct ∧
    (setOwnerSlot s i o).pl = s.pl ∧
    (setOwnerSlot s i o).vc = s.vc := by
  unfold Machine.setOwnerSlot; first | (simp; done) | ((repeat' split) <;> simp; done) | (dsimp only; (repeat' split) <;> simp; done)
@[simp] theorem enrolDone_keeps {s : State} {us : Word} {i : Nat} {h : Bytes} {nvOk : Bool} :
    (enrolDone s us i h nvOk).pending = s.pending ∧
    (enrolDone s us i h nvOk).now = s.now ∧
    (enrolDone s us i h nvOk).regs = s.regs ∧
    (enrolDone s us i h nvOk).fr = s.fr ∧
    (enrolDone s us i h nvOk).mx = s.mx ∧
    (enrolDone s us i h nvOk).fx = s.fx ∧
    (enrolDone s us i h nvOk).ps = s.ps ∧
    (enrolDone s us i h nvOk).sp = s.sp ∧
    (enrolDone s us i h nvOk).ai = s.ai ∧
    (enrolDone s us i h nvOk).aq = s.aq ∧
    (enrolDone s us i h nvOk).dp = s.dp ∧
    (enrolDone s us i h nvOk).ck = s.ck ∧
    (enrolDone s us i h nvOk).sc = s.sc ∧
    (enrolDone s us i h nvOk).st = s.st ∧
    (enrolDone s us i h nvOk).pd = s.pd ∧
    (enrolDone s us i h nvOk).ct = s.ct ∧
    (enrolDone s us i h nvOk).pl = s.pl ∧
    (enrolDone s us i h nvOk).vc = s.vc ∧
    (enrolDone s us i h nvOk).hl.locked = s.hl.locked := by
  unfold Machine.enrolDone; first | (simp; done) | ((repeat' split) <;> simp; done) | (dsimp only; (repeat' split) <;> simp; done)
@[simp] theorem revokeDone_keeps {s : State} {us : Word} {i : Nat} {nvOk : Bool} :
    (revokeDone s us i nvOk).pending = s.pending ∧
    (revokeDone s us i nvOk).now = s.now ∧
    (revokeDone s us i nvOk).regs = s.regs ∧
    (revokeDone s us i nvOk).fr = s.fr ∧
    (revokeDone s us i nvOk).mx = s.mx ∧
    (revokeDone s us i nvOk).fx = s.fx ∧
    (revokeDone s us i nvOk).ps = s.ps ∧
    (revokeDone s us i nvOk).sp = s.sp ∧
    (revokeDone s us i nvOk).ai = s.ai ∧
    (revokeDone s us i nvOk).aq = s.aq ∧
    (revokeDone s us i nvOk).dp = s.dp ∧
    (revokeDone s us i nvOk).ck = s.ck ∧
    (revokeDone s us i nvOk).sc = s.sc ∧
    (revokeDone s us i nvOk).st = s.st ∧
    (revokeDone s us i nvOk).pd = s.pd ∧
    (revokeDone s us i nvOk).ct = s.ct ∧
    (revokeDone s us i nvOk).pl = s.pl ∧
    (revokeDone s us i nvOk).vc = s.vc ∧
    (revokeDone s us i nvOk).hl.locked = s.hl.locked := by
  unfold Machine.revokeDone; first | (simp; done) | ((repeat' split) <;> simp; done) | (dsimp only; (repeat' split) <;> simp; done)
@[simp] theorem setPair_keeps {s : State} {n : PairState} :
    (setPair s n).pending = s.pending ∧
    (setPair s n).now = s.now ∧
    (setPair s n).regs = s.regs ∧
    (setPair s n).fr = s.fr ∧
    (setPair s n).mx = s.mx ∧
    (setPair s n).fx = s.fx ∧
    (setPair s n).ps = s.ps ∧
    (setPair s n).sp = s.sp ∧
    (setPair s n).ai = s.ai ∧
    (setPair s n).aq = s.aq ∧
    (setPair s n).dp = s.dp ∧
    (setPair s n).ck = s.ck ∧
    (setPair s n).sc = s.sc ∧
    (setPair s n).st = s.st ∧
    (setPair s n).sv = s.sv ∧
    (setPair s n).pd = s.pd ∧
    (setPair s n).ct = s.ct ∧
    (setPair s n).vc = s.vc ∧
    (setPair s n).hl.locked = s.hl.locked := by
  unfold Machine.setPair; first | (simp; done) | ((repeat' split) <;> simp; done) | (dsimp only; (repeat' split) <;> simp; done)
@[simp] theorem authFail_keeps {s : State} {reason : Nat} :
    (authFail s reason).pending = s.pending ∧
    (authFail s reason).now = s.now ∧
    (authFail s reason).regs = s.regs ∧
    (authFail s reason).fr = s.fr ∧
    (authFail s reason).mx = s.mx ∧
    (authFail s reason).fx = s.fx ∧
    (authFail s reason).ps = s.ps ∧
    (authFail s reason).sp = s.sp ∧
    (authFail s reason).ai = s.ai ∧
    (authFail s reason).aq = s.aq ∧
    (authFail s reason).dp = s.dp ∧
    (authFail s reason).ck = s.ck ∧
    (authFail s reason).sc = s.sc ∧
    (authFail s reason).st = s.st ∧
    (authFail s reason).pd = s.pd ∧
    (authFail s reason).ct = s.ct ∧
    (authFail s reason).pl = s.pl ∧
    (authFail s reason).vc = s.vc ∧
    (authFail s reason).hl.locked = s.hl.locked := by
  unfold Machine.authFail; first | (simp; done) | ((repeat' split) <;> simp; done) | (dsimp only; (repeat' split) <;> simp; done)
@[simp] theorem startAuth_keeps {s : State} :
    (startAuth s).pending = s.pending ∧
    (startAuth s).now = s.now ∧
    (startAuth s).regs = s.regs ∧
    (startAuth s).fr = s.fr ∧
    (startAuth s).mx = s.mx ∧
    (startAuth s).fx = s.fx ∧
    (startAuth s).ps = s.ps ∧
    (startAuth s).sp = s.sp ∧
    (startAuth s).ai = s.ai ∧
    (startAuth s).aq = s.aq ∧
    (startAuth s).dp = s.dp ∧
    (startAuth s).ck = s.ck ∧
    (startAuth s).sc = s.sc ∧
    (startAuth s).hl = s.hl ∧
    (startAuth s).st = s.st ∧
    (startAuth s).tw = s.tw ∧
    (startAuth s).pd = s.pd ∧
    (startAuth s).ct = s.ct ∧
    (startAuth s).pl = s.pl ∧
    (startAuth s).vc = s.vc := by
  unfold Machine.startAuth; first | (simp; done) | ((repeat' split) <;> simp; done) | (dsimp only; (repeat' split) <;> simp; done)
@[simp] theorem setLanes_keeps {s : State} {l : Nat} :
    (setLanes s l).pending = s.pending ∧
    (setLanes s l).now = s.now ∧
    (setLanes s l).regs = s.regs ∧
    (setLanes s l).fr = s.fr ∧
    (setLanes s l).mx = s.mx ∧
    (setLanes s l).fx = s.fx ∧
    (setLanes s l).ps = s.ps ∧
    (setLanes s l).sp = s.sp ∧
    (setLanes s l).ai = s.ai ∧
    (setLanes s l).aq = s.aq ∧
    (setLanes s l).dp = s.dp ∧
    (setLanes s l).ck = s.ck ∧
    (setLanes s l).sc = s.sc ∧
    (setLanes s l).st = s.st ∧
    (setLanes s l).pd = s.pd ∧
    (setLanes s l).ct = s.ct ∧
    (setLanes s l).vc = s.vc ∧
    (setLanes s l).hl.locked = s.hl.locked := by
  unfold Machine.setLanes; first | (simp; done) | ((repeat' split) <;> simp; done) | (dsimp only; (repeat' split) <;> simp; done)
@[simp] theorem noteRefusal_keeps {s : State} {reason : Nat} {cost : Nat} :
    (noteRefusal s reason cost).pending = s.pending ∧
    (noteRefusal s reason cost).now = s.now ∧
    (noteRefusal s reason cost).out = s.out ∧
    (noteRefusal s reason cost).regs = s.regs ∧
    (noteRefusal s reason cost).fr = s.fr ∧
    (noteRefusal s reason cost).fx = s.fx ∧
    (noteRefusal s reason cost).ps = s.ps ∧
    (noteRefusal s reason cost).sp = s.sp ∧
    (noteRefusal s reason cost).ai = s.ai ∧
    (noteRefusal s reason cost).aq = s.aq ∧
    (noteRefusal s reason cost).dp = s.dp ∧
    (noteRefusal s reason cost).ck = s.ck ∧
    (noteRefusal s reason cost).sc = s.sc ∧
    (noteRefusal s reason cost).hl = s.hl ∧
    (noteRefusal s reason cost).st = s.st ∧
    (noteRefusal s reason cost).tw = s.tw ∧
    (noteRefusal s reason cost).sv = s.sv ∧
    (noteRefusal s reason cost).pd = s.pd ∧
    (noteRefusal s reason cost).ct = s.ct ∧
    (noteRefusal s reason cost).pl = s.pl ∧
    (noteRefusal s reason cost).vc = s.vc := by
  unfold Machine.noteRefusal; first | (simp; done) | ((repeat' split) <;> simp; done) | (dsimp only; (repeat' split) <;> simp; done)
@[simp] theorem refreshCost_keeps {s : State} :
    (refreshCost s).pending = s.pending ∧
    (refreshCost s).now = s.now ∧
    (refreshCost s).out = s.out ∧
    (refreshCost s).regs = s.regs ∧
    (refreshCost s).fr = s.fr ∧
    (refreshCost s).fx = s.fx ∧
    (refreshCost s).ps = s.ps ∧
    (refreshCost s).sp = s.sp ∧
    (refreshCost s).ai = s.ai ∧
    (refreshCost s).aq = s.aq ∧
    (refreshCost s).dp = s.dp ∧
    (refreshCost s).ck = s.ck ∧
    (refreshCost s).sc = s.sc ∧
    (refreshCost s).hl = s.hl ∧
    (refreshCost s).st = s.st ∧
    (refreshCost s).tw = s.tw ∧
    (refreshCost s).sv = s.sv ∧
    (refreshCost s).pd = s.pd ∧
    (refreshCost s).ct = s.ct ∧
    (refreshCost s).pl = s.pl ∧
    (refreshCost s).vc = s.vc := by
  unfold Machine.refreshCost; first | (simp; done) | ((repeat' split) <;> simp; done) | (dsimp only; (repeat' split) <;> simp; done)
@[simp] theorem tableCorrected_keeps {s : State} {n : Nat} :
    (tableCorrected s n).pending = s.pending ∧
    (tableCorrected s n).now = s.now ∧
    (tableCorrected s n).out = s.out ∧
    (tableCorrected s n).regs = s.regs ∧
    (tableCorrected s n).fr = s.fr ∧
    (tableCorrected s n).fx = s.fx ∧
    (tableCorrected s n).ps = s.ps ∧
    (tableCorrected s n).sp = s.sp ∧
    (tableCorrected s n).ai = s.ai ∧
    (tableCorrected s n).aq = s.aq ∧
    (tableCorrected s n).dp = s.dp ∧
    (tableCorrected s n).ck = s.ck ∧
    (tableCorrected s n).sc = s.sc ∧
    (tableCorrected s n).hl = s.hl ∧
    (tableCorrected s n).st = s.st ∧
    (tableCorrected s n).tw = s.tw ∧
    (tableCorrected s n).sv = s.sv ∧
    (tableCorrected s n).pd = s.pd ∧
    (tableCorrected s n).ct = s.ct ∧
    (tableCorrected s n).pl = s.pl ∧
    (tableCorrected s n).vc = s.vc := by
  unfold Machine.tableCorrected; first | (simp; done) | ((repeat' split) <;> simp; done) | (dsimp only; (repeat' split) <;> simp; done)
@[simp] theorem mapXp_keeps {s : State} {f : Nat → Xp → Xp} :
    (mapXp s f).pending = s.pending ∧
    (mapXp s f).now = s.now ∧
    (mapXp s f).out = s.out ∧
    (mapXp s f).regs = s.regs ∧
    (mapXp s f).fr = s.fr ∧
    (mapXp s f).fx = s.fx ∧
    (mapXp s f).ps = s.ps ∧
    (mapXp s f).sp = s.sp ∧
    (mapXp s f).ai = s.ai ∧
    (mapXp s f).aq = s.aq ∧
    (mapXp s f).dp = s.dp ∧
    (mapXp s f).ck = s.ck ∧
    (mapXp s f).sc = s.sc ∧
    (mapXp s f).hl = s.hl ∧
    (mapXp s f).st = s.st ∧
    (mapXp s f).tw = s.tw ∧
    (mapXp s f).sv = s.sv ∧
    (mapXp s f).pd = s.pd ∧
    (mapXp s f).ct = s.ct ∧
    (mapXp s f).pl = s.pl ∧
    (mapXp s f).vc = s.vc := by
  unfold Machine.mapXp; first | (simp; done) | ((repeat' split) <;> simp; done) | (dsimp only; (repeat' split) <;> simp; done)
@[simp] theorem applyCommit_keeps {s : State} {c : Commit} :
    (applyCommit s c).pending = s.pending ∧
    (applyCommit s c).now = s.now ∧
    (applyCommit s c).out = s.out ∧
    (applyCommit s c).regs = s.regs ∧
    (applyCommit s c).fr = s.fr ∧
    (applyCommit s c).fx = s.fx ∧
    (applyCommit s c).ps = s.ps ∧
    (applyCommit s c).sp = s.sp ∧
    (applyCommit s c).ai = s.ai ∧
    (applyCommit s c).aq = s.aq ∧
    (applyCommit s c).dp = s.dp ∧
    (applyCommit s c).ck = s.ck ∧
    (applyCommit s c).sc = s.sc ∧
    (applyCommit s c).hl = s.hl ∧
    (applyCommit s c).st = s.st ∧
    (applyCommit s c).tw = s.tw ∧
    (applyCommit s c).sv = s.sv ∧
    (applyCommit s c).pd = s.pd ∧
    (applyCommit s c).ct = s.ct ∧
    (applyCommit s c).pl = s.pl ∧
    (applyCommit s c).vc = s.vc := by
  unfold Machine.applyCommit; first | (simp; done) | ((repeat' split) <;> simp; done) | (dsimp only; (repeat' split) <;> simp; done)
@[simp] theorem commitApplied_keeps {s : State} {c : Commit} :
    (commitApplied s c).pending = s.pending ∧
    (commitApplied s c).now = s.now ∧
    (commitApplied s c).regs = s.regs ∧
    (commitApplied s c).fr = s.fr ∧
    (commitApplied s c).mx = s.mx ∧
    (commitApplied s c).fx = s.fx ∧
    (commitApplied s c).ps = s.ps ∧
    (commitApplied s c).sp = s.sp ∧
    (commitApplied s c).ai = s.ai ∧
    (commitApplied s c).aq = s.aq ∧
    (commitApplied s c).dp = s.dp ∧
    (commitApplied s c).ck = s.ck ∧
    (commitApplied s c).sc = s.sc ∧
    (commitApplied s c).st = s.st ∧
    (commitApplied s c).sv = s.sv ∧
    (commitApplied s c).pd = s.pd ∧
    (commitApplied s c).ct = s.ct ∧
    (commitApplied s c).pl = s.pl ∧
    (commitApplied s c).vc = s.vc ∧
    (commitApplied s c).hl.locked = s.hl.locked := by
  unfold Machine.commitApplied; first | (simp; done) | ((repeat' split) <;> simp; done) | (dsimp only; (repeat' split) <;> simp; done)
@[simp] theorem dropCommits_keeps {s : State} {qs : List Nat} :
    (dropCommits s qs).pending = s.pending ∧
    (dropCommits s qs).now = s.now ∧
    (dropCommits s qs).out = s.out ∧
    (dropCommits s qs).regs = s.regs ∧
    (dropCommits s qs).fr = s.fr ∧
    (dropCommits s qs).fx = s.fx ∧
    (dropCommits s qs).ps = s.ps ∧
    (dropCommits s qs).sp = s.sp ∧
    (dropCommits s qs).ai = s.ai ∧
    (dropCommits s qs).aq = s.aq ∧
    (dropCommits s qs).dp = s.dp ∧
    (dropCommits s qs).ck = s.ck ∧
    (dropCommits s qs).sc = s.sc ∧
    (dropCommits s qs).hl = s.hl ∧
    (dropCommits s qs).st = s.st ∧
    (dropCommits s qs).tw = s.tw ∧
    (dropCommits s qs).sv = s.sv ∧
    (dropCommits s qs).pd = s.pd ∧
    (dropCommits s qs).ct = s.ct ∧
    (dropCommits s qs).vc = s.vc := by
  unfold Machine.dropCommits; first | (simp; done) | ((repeat' split) <;> simp; done) | (dsimp only; (repeat' split) <;> simp; done)
@[simp] theorem cancelCommit_keeps {s : State} {q : Nat} :
    (cancelCommit s q).pending = s.pending ∧
    (cancelCommit s q).now = s.now ∧
    (cancelCommit s q).out = s.out ∧
    (cancelCommit s q).regs = s.regs ∧
    (cancelCommit s q).fr = s.fr ∧
    (cancelCommit s q).fx = s.fx ∧
    (cancelCommit s q).ps = s.ps ∧
    (cancelCommit s q).sp = s.sp ∧
    (cancelCommit s q).ai = s.ai ∧
    (cancelCommit s q).aq = s.aq ∧
    (cancelCommit s q).dp = s.dp ∧
    (cancelCommit s q).ck = s.ck ∧
    (cancelCommit s q).sc = s.sc ∧
    (cancelCommit s q).hl = s.hl ∧
    (cancelCommit s q).st = s.st ∧
    (cancelCommit s q).tw = s.tw ∧
    (cancelCommit s q).sv = s.sv ∧
    (cancelCommit s q).pd = s.pd ∧
    (cancelCommit s q).ct = s.ct ∧
    (cancelCommit s q).vc = s.vc := by
  unfold Machine.cancelCommit; first | (simp; done) | ((repeat' split) <;> simp; done) | (dsimp only; (repeat' split) <;> simp; done)
@[simp] theorem cancelledEvents_keeps {s : State} {l : List Commit} {first : Nat} {rest : Nat} :
    (cancelledEvents s l first rest).pending = s.pending ∧
    (cancelledEvents s l first rest).now = s.now ∧
    (cancelledEvents s l first rest).regs = s.regs ∧
    (cancelledEvents s l first rest).fr = s.fr ∧
    (cancelledEvents s l first rest).mx = s.mx ∧
    (cancelledEvents s l first rest).fx = s.fx ∧
    (cancelledEvents s l first rest).ps = s.ps ∧
    (cancelledEvents s l first rest).sp = s.sp ∧
    (cancelledEvents s l first rest).ai = s.ai ∧
    (cancelledEvents s l first rest).aq = s.aq ∧
    (cancelledEvents s l first rest).dp = s.dp ∧
    (cancelledEvents s l first rest).ck = s.ck ∧
    (cancelledEvents s l first rest).sc = s.sc ∧
    (cancelledEvents s l first rest).st = s.st ∧
    (cancelledEvents s l first rest).sv = s.sv ∧
    (cancelledEvents s l first rest).pd = s.pd ∧
    (cancelledEvents s l first rest).ct = s.ct ∧
    (cancelledEvents s l first rest).pl = s.pl ∧
    (cancelledEvents s l first rest).vc = s.vc ∧
    (cancelledEvents s l first rest).hl.locked = s.hl.locked := by
  unfold Machine.cancelledEvents; first | (simp; done) | ((repeat' split) <;> simp; done) | (dsimp only; (repeat' split) <;> simp; done)
@[simp] theorem completeSink_keeps {s : State} {k : Nat} :
    (completeSink s k).pending = s.pending ∧
    (completeSink s k).now = s.now ∧
    (completeSink s k).out = s.out ∧
    (completeSink s k).regs = s.regs ∧
    (completeSink s k).fr = s.fr ∧
    (completeSink s k).fx = s.fx ∧
    (completeSink s k).ps = s.ps ∧
    (completeSink s k).sp = s.sp ∧
    (completeSink s k).ai = s.ai ∧
    (completeSink s k).aq = s.aq ∧
    (completeSink s k).dp = s.dp ∧
    (completeSink s k).ck = s.ck ∧
    (completeSink s k).sc = s.sc ∧
    (completeSink s k).hl = s.hl ∧
    (completeSink s k).st = s.st ∧
    (completeSink s k).tw = s.tw ∧
    (completeSink s k).sv = s.sv ∧
    (completeSink s k).pd = s.pd ∧
    (completeSink s k).ct = s.ct ∧
    (completeSink s k).pl = s.pl ∧
    (completeSink s k).vc = s.vc := by
  unfold Machine.completeSink; first | (simp; done) | ((repeat' split) <;> simp; done) | (dsimp only; (repeat' split) <;> simp; done)
@[simp] theorem completeAll_keeps {s : State} :
    (completeAll s).pending = s.pending ∧
    (completeAll s).now = s.now ∧
    (completeAll s).out = s.out ∧
    (completeAll s).regs = s.regs ∧
    (completeAll s).fr = s.fr ∧
    (completeAll s).fx = s.fx ∧
    (completeAll s).ps = s.ps ∧
    (completeAll s).sp = s.sp ∧
    (completeAll s).ai = s.ai ∧
    (completeAll s).aq = s.aq ∧
    (completeAll s).dp = s.dp ∧
    (completeAll s).ck = s.ck ∧
    (completeAll s).sc = s.sc ∧
    (completeAll s).hl = s.hl ∧
    (completeAll s).st = s.st ∧
    (completeAll s).tw = s.tw ∧
    (completeAll s).sv = s.sv ∧
    (completeAll s).pd = s.pd ∧
    (completeAll s).ct = s.ct ∧
    (completeAll s).pl = s.pl ∧
    (completeAll s).vc = s.vc := by
  unfold Machine.completeAll; first | (simp; done) | ((repeat' split) <;> simp; done) | (dsimp only; (repeat' split) <;> simp; done)
@[simp] theorem genTurn_keeps {a : Tbl Int × State} {g : Nat} :
    (genTurn a g).2.pending = a.2.pending ∧
    (genTurn a g).2.now = a.2.now ∧
    (genTurn a g).2.out = a.2.out ∧
    (genTurn a g).2.regs = a.2.regs ∧
    (genTurn a g).2.fr = a.2.fr ∧
    (genTurn a g).2.fx = a.2.fx ∧
    (genTurn a g).2.ps = a.2.ps ∧
    (genTurn a g).2.sp = a.2.sp ∧
    (genTurn a g).2.ai = a.2.ai ∧
    (genTurn a g).2.aq = a.2.aq ∧
    (genTurn a g).2.dp = a.2.dp ∧
    (genTurn a g).2.ck = a.2.ck ∧
    (genTurn a g).2.sc = a.2.sc ∧
    (genTurn a g).2.hl = a.2.hl ∧
    (genTurn a g).2.st = a.2.st ∧
    (genTurn a g).2.tw = a.2.tw ∧
    (genTurn a g).2.sv = a.2.sv ∧
    (genTurn a g).2.pd = a.2.pd ∧
    (genTurn a g).2.ct = a.2.ct ∧
    (genTurn a g).2.pl = a.2.pl ∧
    (genTurn a g).2.vc = a.2.vc := by
  unfold Machine.genTurn; first | (simp; done) | ((repeat' split) <;> simp; done) | (dsimp only; (repeat' split) <;> simp; done)
@[simp] theorem genStrobe_keeps {s : State} :
    (genStrobe s).2.pending = s.pending ∧
    (genStrobe s).2.now = s.now ∧
    (genStrobe s).2.out = s.out ∧
    (genStrobe s).2.regs = s.regs ∧
    (genStrobe s).2.fr = s.fr ∧
    (genStrobe s).2.fx = s.fx ∧
    (genStrobe s).2.ps = s.ps ∧
    (genStrobe s).2.sp = s.sp ∧
    (genStrobe s).2.ai = s.ai ∧
    (genStrobe s).2.aq = s.aq ∧
    (genStrobe s).2.dp = s.dp ∧
    (genStrobe s).2.ck = s.ck ∧
    (genStrobe s).2.sc = s.sc ∧
    (genStrobe s).2.hl = s.hl ∧
    (genStrobe s).2.st = s.st ∧
    (genStrobe s).2.tw = s.tw ∧
    (genStrobe s).2.sv = s.sv ∧
    (genStrobe s).2.pd = s.pd ∧
    (genStrobe s).2.ct = s.ct ∧
    (genStrobe s).2.pl = s.pl ∧
    (genStrobe s).2.vc = s.vc := by
  unfold Machine.genStrobe; first | (simp; done) | ((repeat' split) <;> simp; done) | (dsimp only; (repeat' split) <;> simp; done)
@[simp] theorem silenceFrame_keeps {s : State} :
    (silenceFrame s).pending = s.pending ∧
    (silenceFrame s).now = s.now ∧
    (silenceFrame s).out = s.out ∧
    (silenceFrame s).regs = s.regs ∧
    (silenceFrame s).fr = s.fr ∧
    (silenceFrame s).fx = s.fx ∧
    (silenceFrame s).ps = s.ps ∧
    (silenceFrame s).sp = s.sp ∧
    (silenceFrame s).ai = s.ai ∧
    (silenceFrame s).aq = s.aq ∧
    (silenceFrame s).dp = s.dp ∧
    (silenceFrame s).ck = s.ck ∧
    (silenceFrame s).sc = s.sc ∧
    (silenceFrame s).hl = s.hl ∧
    (silenceFrame s).st = s.st ∧
    (silenceFrame s).tw = s.tw ∧
    (silenceFrame s).sv = s.sv ∧
    (silenceFrame s).pd = s.pd ∧
    (silenceFrame s).ct = s.ct ∧
    (silenceFrame s).pl = s.pl ∧
    (silenceFrame s).vc = s.vc := by
  unfold Machine.silenceFrame; first | (simp; done) | ((repeat' split) <;> simp; done) | (dsimp only; (repeat' split) <;> simp; done)
@[simp] theorem evalSink_keeps {s : State} {k : Nat} :
    (evalSink s k).pending = s.pending ∧
    (evalSink s k).now = s.now ∧
    (evalSink s k).out = s.out ∧
    (evalSink s k).regs = s.regs ∧
    (evalSink s k).fr = s.fr ∧
    (evalSink s k).fx = s.fx ∧
    (evalSink s k).ps = s.ps ∧
    (evalSink s k).sp = s.sp ∧
    (evalSink s k).ai = s.ai ∧
    (evalSink s k).aq = s.aq ∧
    (evalSink s k).dp = s.dp ∧
    (evalSink s k).ck = s.ck ∧
    (evalSink s k).sc = s.sc ∧
    (evalSink s k).hl = s.hl ∧
    (evalSink s k).st = s.st ∧
    (evalSink s k).tw = s.tw ∧
    (evalSink s k).sv = s.sv ∧
    (evalSink s k).pd = s.pd ∧
    (evalSink s k).ct = s.ct ∧
    (evalSink s k).pl = s.pl ∧
    (evalSink s k).vc = s.vc := by
  unfold Machine.evalSink; first | (simp; done) | ((repeat' split) <;> simp; done) | (dsimp only; (repeat' split) <;> simp; done)
@[simp] theorem evalSinks_keeps {s : State} :
    (evalSinks s).pending = s.pending ∧
    (evalSinks s).now = s.now ∧
    (evalSinks s).out = s.out ∧
    (evalSinks s).regs = s.regs ∧
    (evalSinks s).fr = s.fr ∧
    (evalSinks s).fx = s.fx ∧
    (evalSinks s).ps = s.ps ∧
    (evalSinks s).sp = s.sp ∧
    (evalSinks s).ai = s.ai ∧
    (evalSinks s).aq = s.aq ∧
    (evalSinks s).dp = s.dp ∧
    (evalSinks s).ck = s.ck ∧
    (evalSinks s).sc = s.sc ∧
    (evalSinks s).hl = s.hl ∧
    (evalSinks s).st = s.st ∧
    (evalSinks s).tw = s.tw ∧
    (evalSinks s).sv = s.sv ∧
    (evalSinks s).pd = s.pd ∧
    (evalSinks s).ct = s.ct ∧
    (evalSinks s).pl = s.pl ∧
    (evalSinks s).vc = s.vc := by
  unfold Machine.evalSinks; first | (simp; done) | ((repeat' split) <;> simp; done) | (dsimp only; (repeat' split) <;> simp; done)
@[simp] theorem setLane_keeps {s : State} {l : Nat} {x : Lane} :
    (setLane s l x).pending = s.pending ∧
    (setLane s l x).now = s.now ∧
    (setLane s l x).out = s.out ∧
    (setLane s l x).regs = s.regs ∧
    (setLane s l x).fr = s.fr ∧
    (setLane s l x).fx = s.fx ∧
    (setLane s l x).ps = s.ps ∧
    (setLane s l x).sp = s.sp ∧
    (setLane s l x).ai = s.ai ∧
    (setLane s l x).aq = s.aq ∧
    (setLane s l x).dp = s.dp ∧
    (setLane s l x).ck = s.ck ∧
    (setLane s l x).sc = s.sc ∧
    (setLane s l x).hl = s.hl ∧
    (setLane s l x).st = s.st ∧
    (setLane s l x).tw = s.tw ∧
    (setLane s l x).sv = s.sv ∧
    (setLane s l x).pd = s.pd ∧
    (setLane s l x).ct = s.ct ∧
    (setLane s l x).pl = s.pl ∧
    (setLane s l x).vc = s.vc := by
  unfold Machine.setLane; first | (simp; done) | ((repeat' split) <;> simp; done) | (dsimp only; (repeat' split) <;> simp; done)
@[simp] theorem countLanes_keeps {s : State} :
    (countLanes s).pending = s.pending ∧
    (countLanes s).now = s.now ∧
    (countLanes s).out = s.out ∧
    (countLanes s).regs = s.regs ∧
    (countLanes s).fr = s.fr ∧
    (countLanes s).fx = s.fx ∧
    (countLanes s).ps = s.ps ∧
    (countLanes s).sp = s.sp ∧
    (countLanes s).ai = s.ai ∧
    (countLanes s).aq = s.aq ∧
    (countLanes s).dp = s.dp ∧
    (countLanes s).ck = s.ck ∧
    (countLanes s).sc = s.sc ∧
    (countLanes s).hl = s.hl ∧
    (countLanes s).st = s.st ∧
    (countLanes s).tw = s.tw ∧
    (countLanes s).sv = s.sv ∧
    (countLanes s).pd = s.pd ∧
    (countLanes s).ct = s.ct ∧
    (countLanes s).pl = s.pl ∧
    (countLanes s).vc = s.vc := by
  unfold Machine.countLanes; first | (simp; done) | ((repeat' split) <;> simp; done) | (dsimp only; (repeat' split) <;> simp; done)
@[simp] theorem discardSinks_keeps {s : State} {sinks : List Nat} :
    (discardSinks s sinks).pending = s.pending ∧
    (discardSinks s sinks).now = s.now ∧
    (discardSinks s sinks).out = s.out ∧
    (discardSinks s sinks).regs = s.regs ∧
    (discardSinks s sinks).fr = s.fr ∧
    (discardSinks s sinks).fx = s.fx ∧
    (discardSinks s sinks).ps = s.ps ∧
    (discardSinks s sinks).sp = s.sp ∧
    (discardSinks s sinks).ai = s.ai ∧
    (discardSinks s sinks).aq = s.aq ∧
    (discardSinks s sinks).dp = s.dp ∧
    (discardSinks s sinks).ck = s.ck ∧
    (discardSinks s sinks).sc = s.sc ∧
    (discardSinks s sinks).hl = s.hl ∧
    (discardSinks s sinks).st = s.st ∧
    (discardSinks s sinks).tw = s.tw ∧
    (discardSinks s sinks).sv = s.sv ∧
    (discardSinks s sinks).pd = s.pd ∧
    (discardSinks s sinks).ct = s.ct ∧
    (discardSinks s sinks).pl = s.pl ∧
    (discardSinks s sinks).vc = s.vc := by
  unfold Machine.discardSinks; first | (simp; done) | ((repeat' split) <;> simp; done) | (dsimp only; (repeat' split) <;> simp; done)
@[simp] theorem abandonLanes_keeps {s : State} :
    (abandonLanes s).pending = s.pending ∧
    (abandonLanes s).now = s.now ∧
    (abandonLanes s).out = s.out ∧
    (abandonLanes s).regs = s.regs ∧
    (abandonLanes s).fr = s.fr ∧
    (abandonLanes s).fx = s.fx ∧
    (abandonLanes s).ps = s.ps ∧
    (abandonLanes s).sp = s.sp ∧
    (abandonLanes s).ai = s.ai ∧
    (abandonLanes s).aq = s.aq ∧
    (abandonLanes s).dp = s.dp ∧
    (abandonLanes s).ck = s.ck ∧
    (abandonLanes s).sc = s.sc ∧
    (abandonLanes s).hl = s.hl ∧
    (abandonLanes s).st = s.st ∧
    (abandonLanes s).tw = s.tw ∧
    (abandonLanes s).sv = s.sv ∧
    (abandonLanes s).pd = s.pd ∧
    (abandonLanes s).ct = s.ct ∧
    (abandonLanes s).pl = s.pl ∧
    (abandonLanes s).vc = s.vc := by
  unfold Machine.abandonLanes; first | (simp; done) | ((repeat' split) <;> simp; done) | (dsimp only; (repeat' split) <;> simp; done)
@[simp] theorem reportLanes_keeps {s : State} :
    (reportLanes s).pending = s.pending ∧
    (reportLanes s).now = s.now ∧
    (reportLanes s).regs = s.regs ∧
    (reportLanes s).fr = s.fr ∧
    (reportLanes s).fx = s.fx ∧
    (reportLanes s).ps = s.ps ∧
    (reportLanes s).sp = s.sp ∧
    (reportLanes s).ai = s.ai ∧
    (reportLanes s).aq = s.aq ∧
    (reportLanes s).dp = s.dp ∧
    (reportLanes s).ck = s.ck ∧
    (reportLanes s).sc = s.sc ∧
    (reportLanes s).st = s.st ∧
    (reportLanes s).sv = s.sv ∧
    (reportLanes s).pd = s.pd ∧
    (reportLanes s).ct = s.ct ∧
    (reportLanes s).pl = s.pl ∧
    (reportLanes s).vc = s.vc ∧
    (reportLanes s).hl.locked = s.hl.locked := by
  unfold Machine.reportLanes; first | (simp; done) | ((repeat' split) <;> simp; done) | (dsimp only; (repeat' split) <;> simp; done)
@[simp] theorem retireLane_keeps {s : State} {l : Nat} :
    (retireLane s l).pending = s.pending ∧
    (retireLane s l).now = s.now ∧
    (retireLane s l).regs = s.regs ∧
    (retireLane s l).fr = s.fr ∧
    (retireLane s l).fx = s.fx ∧
    (retireLane s l).ps = s.ps ∧
    (retireLane s l).sp = s.sp ∧
    (retireLane s l).ai = s.ai ∧
    (retireLane s l).aq = s.aq ∧
    (retireLane s l).dp = s.dp ∧
    (retireLane s l).ck = s.ck ∧
    (retireLane s l).sc = s.sc ∧
    (retireLane s l).st = s.st ∧
    (retireLane s l).sv = s.sv ∧
    (retireLane s l).pd = s.pd ∧
    (retireLane s l).ct = s.ct ∧
    (retireLane s l).pl = s.pl ∧
    (retireLane s l).vc = s.vc ∧
    (retireLane s l).hl.locked = s.hl.locked := by
  unfold Machine.retireLane; first | (simp; done) | ((repeat' split) <;> simp; done) | (dsimp only; (repeat' split) <;> simp; done)
@[simp] theorem retireLanes_keeps {s : State} :
    (retireLanes s).pending = s.pending ∧
    (retireLanes s).now = s.now ∧
    (retireLanes s).regs = s.regs ∧
    (retireLanes s).fr = s.fr ∧
    (retireLanes s).fx = s.fx ∧
    (retireLanes s).ps = s.ps ∧
    (retireLanes s).sp = s.sp ∧
    (retireLanes s).ai = s.ai ∧
    (retireLanes s).aq = s.aq ∧
    (retireLanes s).dp = s.dp ∧
    (retireLanes s).ck = s.ck ∧
    (retireLanes s).sc = s.sc ∧
    (retireLanes s).st = s.st ∧
    (retireLanes s).sv = s.sv ∧
    (retireLanes s).pd = s.pd ∧
    (retireLanes s).ct = s.ct ∧
    (retireLanes s).pl = s.pl ∧
    (retireLanes s).vc = s.vc ∧
    (retireLanes s).hl.locked = s.hl.locked := by
  unfold Machine.retireLanes; first | (simp; done) | ((repeat' split) <;> simp; done) | (dsimp only; (repeat' split) <;> simp; done)
@[simp] theorem shedLoop_keeps {n : Nat} {f : Bool} {s : State} {l : List (Nat × Nat × Nat)} :
    (shedLoop n f s l).1.pending = s.pending ∧
    (shedLoop n f s l).1.now = s.now ∧
    (shedLoop n f s l).1.out = s.out ∧
    (shedLoop n f s l).1.regs = s.regs ∧
    (shedLoop n f s l).1.fr = s.fr ∧
    (shedLoop n f s l).1.fx = s.fx ∧
    (shedLoop n f s l).1.ps = s.ps ∧
    (shedLoop n f s l).1.sp = s.sp ∧
    (shedLoop n f s l).1.ai = s.ai ∧
    (shedLoop n f s l).1.aq = s.aq ∧
    (shedLoop n f s l).1.dp = s.dp ∧
    (shedLoop n f s l).1.ck = s.ck ∧
    (shedLoop n f s l).1.sc = s.sc ∧
    (shedLoop n f s l).1.hl = s.hl ∧
    (shedLoop n f s l).1.st = s.st ∧
    (shedLoop n f s l).1.tw = s.tw ∧
    (shedLoop n f s l).1.sv = s.sv ∧
    (shedLoop n f s l).1.pd = s.pd ∧
    (shedLoop n f s l).1.ct = s.ct ∧
    (shedLoop n f s l).1.pl = s.pl ∧
    (shedLoop n f s l).1.vc = s.vc := by
  induction n generalizing s l with
  | zero => simp [shedLoop]
  | succ n ih =>
    simp only [shedLoop]
    split
    · simp
    · split <;> simp [ih]
@[simp] theorem shedFit_keeps {s : State} :
    (shedFit s).1.pending = s.pending ∧
    (shedFit s).1.now = s.now ∧
    (shedFit s).1.out = s.out ∧
    (shedFit s).1.regs = s.regs ∧
    (shedFit s).1.fr = s.fr ∧
    (shedFit s).1.fx = s.fx ∧
    (shedFit s).1.ps = s.ps ∧
    (shedFit s).1.sp = s.sp ∧
    (shedFit s).1.ai = s.ai ∧
    (shedFit s).1.aq = s.aq ∧
    (shedFit s).1.dp = s.dp ∧
    (shedFit s).1.ck = s.ck ∧
    (shedFit s).1.sc = s.sc ∧
    (shedFit s).1.hl = s.hl ∧
    (shedFit s).1.st = s.st ∧
    (shedFit s).1.tw = s.tw ∧
    (shedFit s).1.sv = s.sv ∧
    (shedFit s).1.pd = s.pd ∧
    (shedFit s).1.ct = s.ct ∧
    (shedFit s).1.pl = s.pl ∧
    (shedFit s).1.vc = s.vc := by
  unfold Machine.shedFit; first | (simp; done) | ((repeat' split) <;> simp; done) | (dsimp only; (repeat' split) <;> simp; done)
@[simp] theorem shedEvents_keeps {s : State} {l : List (Nat × Nat × Nat)} :
    (shedEvents s l).pending = s.pending ∧
    (shedEvents s l).now = s.now ∧
    (shedEvents s l).regs = s.regs ∧
    (shedEvents s l).fr = s.fr ∧
    (shedEvents s l).mx = s.mx ∧
    (shedEvents s l).fx = s.fx ∧
    (shedEvents s l).ps = s.ps ∧
    (shedEvents s l).sp = s.sp ∧
    (shedEvents s l).ai = s.ai ∧
    (shedEvents s l).aq = s.aq ∧
    (shedEvents s l).dp = s.dp ∧
    (shedEvents s l).ck = s.ck ∧
    (shedEvents s l).sc = s.sc ∧
    (shedEvents s l).st = s.st ∧
    (shedEvents s l).sv = s.sv ∧
    (shedEvents s l).pd = s.pd ∧
    (shedEvents s l).ct = s.ct ∧
    (shedEvents s l).pl = s.pl ∧
    (shedEvents s l).vc = s.vc ∧
    (shedEvents s l).hl.locked = s.hl.locked := by
  unfold Machine.shedEvents; first | (simp; done) | ((repeat' split) <;> simp; done) | (dsimp only; (repeat' split) <;> simp; done)
@[simp] theorem budgetEvent_keeps {s : State} {old : Nat} {new : Nat} {cause : Nat} :
    (budgetEvent s old new cause).pending = s.pending ∧
    (budgetEvent s old new cause).now = s.now ∧
    (budgetEvent s old new cause).regs = s.regs ∧
    (budgetEvent s old new cause).fr = s.fr ∧
    (budgetEvent s old new cause).mx = s.mx ∧
    (budgetEvent s old new cause).fx = s.fx ∧
    (budgetEvent s old new cause).ps = s.ps ∧
    (budgetEvent s old new cause).sp = s.sp ∧
    (budgetEvent s old new cause).ai = s.ai ∧
    (budgetEvent s old new cause).aq = s.aq ∧
    (budgetEvent s old new cause).dp = s.dp ∧
    (budgetEvent s old new cause).ck = s.ck ∧
    (budgetEvent s old new cause).sc = s.sc ∧
    (budgetEvent s old new cause).st = s.st ∧
    (budgetEvent s old new cause).sv = s.sv ∧
    (budgetEvent s old new cause).pd = s.pd ∧
    (budgetEvent s old new cause).ct = s.ct ∧
    (budgetEvent s old new cause).pl = s.pl ∧
    (budgetEvent s old new cause).vc = s.vc ∧
    (budgetEvent s old new cause).hl.locked = s.hl.locked := by
  unfold Machine.budgetEvent; first | (simp; done) | ((repeat' split) <;> simp; done) | (dsimp only; (repeat' split) <;> simp; done)
@[simp] theorem markLost_keeps {s : State} {d : Damage} :
    (markLost s d).pending = s.pending ∧
    (markLost s d).now = s.now ∧
    (markLost s d).out = s.out ∧
    (markLost s d).regs = s.regs ∧
    (markLost s d).fr = s.fr ∧
    (markLost s d).fx = s.fx ∧
    (markLost s d).ps = s.ps ∧
    (markLost s d).sp = s.sp ∧
    (markLost s d).ai = s.ai ∧
    (markLost s d).aq = s.aq ∧
    (markLost s d).dp = s.dp ∧
    (markLost s d).ck = s.ck ∧
    (markLost s d).sc = s.sc ∧
    (markLost s d).hl = s.hl ∧
    (markLost s d).st = s.st ∧
    (markLost s d).tw = s.tw ∧
    (markLost s d).sv = s.sv ∧
    (markLost s d).pd = s.pd ∧
    (markLost s d).ct = s.ct ∧
    (markLost s d).pl = s.pl ∧
    (markLost s d).vc = s.vc := by
  unfold Machine.markLost; first | (simp; done) | ((repeat' split) <;> simp; done) | (dsimp only; (repeat' split) <;> simp; done)
@[simp] theorem freeDamaged_keeps {s : State} :
    (freeDamaged s).pending = s.pending ∧
    (freeDamaged s).now = s.now ∧
    (freeDamaged s).regs = s.regs ∧
    (freeDamaged s).fr = s.fr ∧
    (freeDamaged s).fx = s.fx ∧
    (freeDamaged s).ps = s.ps ∧
    (freeDamaged s).sp = s.sp ∧
    (freeDamaged s).ai = s.ai ∧
    (freeDamaged s).aq = s.aq ∧
    (freeDamaged s).dp = s.dp ∧
    (freeDamaged s).ck = s.ck ∧
    (freeDamaged s).sc = s.sc ∧
    (freeDamaged s).st = s.st ∧
    (freeDamaged s).sv = s.sv ∧
    (freeDamaged s).pd = s.pd ∧
    (freeDamaged s).ct = s.ct ∧
    (freeDamaged s).vc = s.vc ∧
    (freeDamaged s).hl.locked = s.hl.locked := by
  unfold Machine.freeDamaged; first | (simp; done) | ((repeat' split) <;> simp; done) | (dsimp only; (repeat' split) <;> simp; done)
@[simp] theorem reportClips_keeps {s : State} :
    (reportClips s).pending = s.pending ∧
    (reportClips s).now = s.now ∧
    (reportClips s).regs = s.regs ∧
    (reportClips s).fr = s.fr ∧
    (reportClips s).fx = s.fx ∧
    (reportClips s).ps = s.ps ∧
    (reportClips s).sp = s.sp ∧
    (reportClips s).ai = s.ai ∧
    (reportClips s).aq = s.aq ∧
    (reportClips s).dp = s.dp ∧
    (reportClips s).ck = s.ck ∧
    (reportClips s).sc = s.sc ∧
    (reportClips s).st = s.st ∧
    (reportClips s).sv = s.sv ∧
    (reportClips s).pd = s.pd ∧
    (reportClips s).ct = s.ct ∧
    (reportClips s).pl = s.pl ∧
    (reportClips s).vc = s.vc ∧
    (reportClips s).hl.locked = s.hl.locked := by
  unfold Machine.reportClips; first | (simp; done) | ((repeat' split) <;> simp; done) | (dsimp only; (repeat' split) <;> simp; done)
@[simp] theorem lookup_keeps {s : State} {v : Word} {corrected : Nat} :
    (lookup s v corrected).pending = s.pending ∧
    (lookup s v corrected).now = s.now ∧
    (lookup s v corrected).out = s.out ∧
    (lookup s v corrected).fr = s.fr ∧
    (lookup s v corrected).fx = s.fx ∧
    (lookup s v corrected).ps = s.ps ∧
    (lookup s v corrected).sp = s.sp ∧
    (lookup s v corrected).ai = s.ai ∧
    (lookup s v corrected).aq = s.aq ∧
    (lookup s v corrected).dp = s.dp ∧
    (lookup s v corrected).ck = s.ck ∧
    (lookup s v corrected).sc = s.sc ∧
    (lookup s v corrected).hl = s.hl ∧
    (lookup s v corrected).st = s.st ∧
    (lookup s v corrected).tw = s.tw ∧
    (lookup s v corrected).sv = s.sv ∧
    (lookup s v corrected).pd = s.pd ∧
    (lookup s v corrected).ct = s.ct ∧
    (lookup s v corrected).pl = s.pl ∧
    (lookup s v corrected).vc = s.vc := by
  unfold Machine.lookup; first | (simp; done) | ((repeat' split) <;> simp; done) | (dsimp only; (repeat' split) <;> simp; done)
@[simp] theorem rearm_keeps {s : State} :
    (rearm s).pending = s.pending ∧
    (rearm s).now = s.now ∧
    (rearm s).out = s.out ∧
    (rearm s).regs = s.regs ∧
    (rearm s).mx = s.mx ∧
    (rearm s).fx = s.fx ∧
    (rearm s).ps = s.ps ∧
    (rearm s).sp = s.sp ∧
    (rearm s).ai = s.ai ∧
    (rearm s).aq = s.aq ∧
    (rearm s).dp = s.dp ∧
    (rearm s).ck = s.ck ∧
    (rearm s).sc = s.sc ∧
    (rearm s).hl = s.hl ∧
    (rearm s).st = s.st ∧
    (rearm s).tw = s.tw ∧
    (rearm s).sv = s.sv ∧
    (rearm s).pd = s.pd ∧
    (rearm s).ct = s.ct ∧
    (rearm s).pl = s.pl ∧
    (rearm s).vc = s.vc ∧
    (rearm s).fr.fn = s.fr.fn ∧
    (rearm s).fr.next = s.fr.next ∧
    (rearm s).fr.running = s.fr.running := by
  unfold Machine.rearm; first | (simp; done) | ((repeat' split) <;> simp; done) | (dsimp only; (repeat' split) <;> simp; done)
@[simp] theorem slackClear_keeps {s : State} :
    (slackClear s).pending = s.pending ∧
    (slackClear s).now = s.now ∧
    (slackClear s).out = s.out ∧
    (slackClear s).regs = s.regs ∧
    (slackClear s).mx = s.mx ∧
    (slackClear s).fx = s.fx ∧
    (slackClear s).ps = s.ps ∧
    (slackClear s).sp = s.sp ∧
    (slackClear s).ai = s.ai ∧
    (slackClear s).aq = s.aq ∧
    (slackClear s).dp = s.dp ∧
    (slackClear s).ck = s.ck ∧
    (slackClear s).sc = s.sc ∧
    (slackClear s).hl = s.hl ∧
    (slackClear s).st = s.st ∧
    (slackClear s).tw = s.tw ∧
    (slackClear s).sv = s.sv ∧
    (slackClear s).pd = s.pd ∧
    (slackClear s).ct = s.ct ∧
    (slackClear s).pl = s.pl ∧
    (slackClear s).vc = s.vc ∧
    (slackClear s).fr.fn = s.fr.fn ∧
    (slackClear s).fr.next = s.fr.next ∧
    (slackClear s).fr.running = s.fr.running := by
  unfold Machine.slackClear; first | (simp; done) | ((repeat' split) <;> simp; done) | (dsimp only; (repeat' split) <;> simp; done)
@[simp] theorem clipClear_keeps {s : State} {v : Word} :
    (clipClear s v).pending = s.pending ∧
    (clipClear s v).now = s.now ∧
    (clipClear s v).out = s.out ∧
    (clipClear s v).regs = s.regs ∧
    (clipClear s v).fr = s.fr ∧
    (clipClear s v).fx = s.fx ∧
    (clipClear s v).ps = s.ps ∧
    (clipClear s v).sp = s.sp ∧
    (clipClear s v).ai = s.ai ∧
    (clipClear s v).aq = s.aq ∧
    (clipClear s v).dp = s.dp ∧
    (clipClear s v).ck = s.ck ∧
    (clipClear s v).sc = s.sc ∧
    (clipClear s v).hl = s.hl ∧
    (clipClear s v).st = s.st ∧
    (clipClear s v).tw = s.tw ∧
    (clipClear s v).sv = s.sv ∧
    (clipClear s v).pd = s.pd ∧
    (clipClear s v).ct = s.ct ∧
    (clipClear s v).pl = s.pl ∧
    (clipClear s v).vc = s.vc := by
  unfold Machine.clipClear; first | (simp; done) | ((repeat' split) <;> simp; done) | (dsimp only; (repeat' split) <;> simp; done)
@[simp] theorem setEng_keeps {s : State} {e : Nat} {x : Engine} :
    (setEng s e x).pending = s.pending ∧
    (setEng s e x).now = s.now ∧
    (setEng s e x).out = s.out ∧
    (setEng s e x).regs = s.regs ∧
    (setEng s e x).fr = s.fr ∧
    (setEng s e x).mx = s.mx ∧
    (setEng s e x).ps = s.ps ∧
    (setEng s e x).sp = s.sp ∧
    (setEng s e x).ai = s.ai ∧
    (setEng s e x).aq = s.aq ∧
    (setEng s e x).dp = s.dp ∧
    (setEng s e x).ck = s.ck ∧
    (setEng s e x).sc = s.sc ∧
    (setEng s e x).hl = s.hl ∧
    (setEng s e x).st = s.st ∧
    (setEng s e x).tw = s.tw ∧
    (setEng s e x).sv = s.sv ∧
    (setEng s e x).pd = s.pd ∧
    (setEng s e x).ct = s.ct ∧
    (setEng s e x).pl = s.pl ∧
    (setEng s e x).vc = s.vc := by
  unfold Machine.setEng; first | (simp; done) | ((repeat' split) <;> simp; done) | (dsimp only; (repeat' split) <;> simp; done)
@[simp] theorem startEngine_keeps {s : State} {e : Nat} :
    (startEngine s e).pending = s.pending ∧
    (startEngine s e).now = s.now ∧
    (startEngine s e).out = s.out ∧
    (startEngine s e).regs = s.regs ∧
    (startEngine s e).fr = s.fr ∧
    (startEngine s e).ps = s.ps ∧
    (startEngine s e).sp = s.sp ∧
    (startEngine s e).ai = s.ai ∧
    (startEngine s e).aq = s.aq ∧
    (startEngine s e).dp = s.dp ∧
    (startEngine s e).ck = s.ck ∧
    (startEngine s e).sc = s.sc ∧
    (startEngine s e).hl = s.hl ∧
    (startEngine s e).st = s.st ∧
    (startEngine s e).tw = s.tw ∧
    (startEngine s e).sv = s.sv ∧
    (startEngine s e).pd = s.pd ∧
    (startEngine s e).ct = s.ct ∧
    (startEngine s e).pl = s.pl ∧
    (startEngine s e).vc = s.vc := by
  unfold Machine.startEngine; first | (simp; done) | ((repeat' split) <;> simp; done) | (dsimp only; (repeat' split) <;> simp; done)
@[simp] theorem runEngine_keeps {s : State} {e : Nat} :
    (runEngine s e).pending = s.pending ∧
    (runEngine s e).now = s.now ∧
    (runEngine s e).out = s.out ∧
    (runEngine s e).regs = s.regs ∧
    (runEngine s e).fr = s.fr ∧
    (runEngine s e).mx = s.mx ∧
    (runEngine s e).ps = s.ps ∧
    (runEngine s e).sp = s.sp ∧
    (runEngine s e).ai = s.ai ∧
    (runEngine s e).aq = s.aq ∧
    (runEngine s e).dp = s.dp ∧
    (runEngine s e).ck = s.ck ∧
    (runEngine s e).sc = s.sc ∧
    (runEngine s e).hl = s.hl ∧
    (runEngine s e).st = s.st ∧
    (runEngine s e).tw = s.tw ∧
    (runEngine s e).sv = s.sv ∧
    (runEngine s e).pd = s.pd ∧
    (runEngine s e).ct = s.ct ∧
    (runEngine s e).pl = s.pl ∧
    (runEngine s e).vc = s.vc := by
  unfold Machine.runEngine; first | (simp; done) | ((repeat' split) <;> simp; done) | (dsimp only; (repeat' split) <;> simp; done)
@[simp] theorem delayCorrected_keeps {s : State} {n : Nat} :
    (delayCorrected s n).pending = s.pending ∧
    (delayCorrected s n).now = s.now ∧
    (delayCorrected s n).out = s.out ∧
    (delayCorrected s n).regs = s.regs ∧
    (delayCorrected s n).fr = s.fr ∧
    (delayCorrected s n).mx = s.mx ∧
    (delayCorrected s n).ps = s.ps ∧
    (delayCorrected s n).sp = s.sp ∧
    (delayCorrected s n).ai = s.ai ∧
    (delayCorrected s n).aq = s.aq ∧
    (delayCorrected s n).dp = s.dp ∧
    (delayCorrected s n).ck = s.ck ∧
    (delayCorrected s n).sc = s.sc ∧
    (delayCorrected s n).hl = s.hl ∧
    (delayCorrected s n).st = s.st ∧
    (delayCorrected s n).tw = s.tw ∧
    (delayCorrected s n).sv = s.sv ∧
    (delayCorrected s n).pd = s.pd ∧
    (delayCorrected s n).ct = s.ct ∧
    (delayCorrected s n).pl = s.pl ∧
    (delayCorrected s n).vc = s.vc := by
  unfold Machine.delayCorrected; first | (simp; done) | ((repeat' split) <;> simp; done) | (dsimp only; (repeat' split) <;> simp; done)
@[simp] theorem finishEngines_keeps {s : State} :
    (finishEngines s).pending = s.pending ∧
    (finishEngines s).now = s.now ∧
    (finishEngines s).out = s.out ∧
    (finishEngines s).regs = s.regs ∧
    (finishEngines s).fr = s.fr ∧
    (finishEngines s).ps = s.ps ∧
    (finishEngines s).sp = s.sp ∧
    (finishEngines s).ai = s.ai ∧
    (finishEngines s).aq = s.aq ∧
    (finishEngines s).dp = s.dp ∧
    (finishEngines s).ck = s.ck ∧
    (finishEngines s).sc = s.sc ∧
    (finishEngines s).hl = s.hl ∧
    (finishEngines s).st = s.st ∧
    (finishEngines s).tw = s.tw ∧
    (finishEngines s).sv = s.sv ∧
    (finishEngines s).pd = s.pd ∧
    (finishEngines s).ct = s.ct ∧
    (finishEngines s).pl = s.pl ∧
    (finishEngines s).vc = s.vc := by
  unfold Machine.finishEngines; first | (simp; done) | ((repeat' split) <;> simp; done) | (dsimp only; (repeat' split) <;> simp; done)
@[simp] theorem reportEngineClip_keeps {s : State} {e : Nat} :
    (reportEngineClip s e).pending = s.pending ∧
    (reportEngineClip s e).now = s.now ∧
    (reportEngineClip s e).regs = s.regs ∧
    (reportEngineClip s e).fr = s.fr ∧
    (reportEngineClip s e).mx = s.mx ∧
    (reportEngineClip s e).ps = s.ps ∧
    (reportEngineClip s e).sp = s.sp ∧
    (reportEngineClip s e).ai = s.ai ∧
    (reportEngineClip s e).aq = s.aq ∧
    (reportEngineClip s e).dp = s.dp ∧
    (reportEngineClip s e).ck = s.ck ∧
    (reportEngineClip s e).sc = s.sc ∧
    (reportEngineClip s e).st = s.st ∧
    (reportEngineClip s e).sv = s.sv ∧
    (reportEngineClip s e).pd = s.pd ∧
    (reportEngineClip s e).ct = s.ct ∧
    (reportEngineClip s e).pl = s.pl ∧
    (reportEngineClip s e).vc = s.vc ∧
    (reportEngineClip s e).hl.locked = s.hl.locked := by
  unfold Machine.reportEngineClip; first | (simp; done) | ((repeat' split) <;> simp; done) | (dsimp only; (repeat' split) <;> simp; done)
@[simp] theorem reportEngineClips_keeps {s : State} :
    (reportEngineClips s).pending = s.pending ∧
    (reportEngineClips s).now = s.now ∧
    (reportEngineClips s).regs = s.regs ∧
    (reportEngineClips s).fr = s.fr ∧
    (reportEngineClips s).mx = s.mx ∧
    (reportEngineClips s).ps = s.ps ∧
    (reportEngineClips s).sp = s.sp ∧
    (reportEngineClips s).ai = s.ai ∧
    (reportEngineClips s).aq = s.aq ∧
    (reportEngineClips s).dp = s.dp ∧
    (reportEngineClips s).ck = s.ck ∧
    (reportEngineClips s).sc = s.sc ∧
    (reportEngineClips s).st = s.st ∧
    (reportEngineClips s).sv = s.sv ∧
    (reportEngineClips s).pd = s.pd ∧
    (reportEngineClips s).ct = s.ct ∧
    (reportEngineClips s).pl = s.pl ∧
    (reportEngineClips s).vc = s.vc ∧
    (reportEngineClips s).hl.locked = s.hl.locked := by
  unfold Machine.reportEngineClips; first | (simp; done) | ((repeat' split) <;> simp; done) | (dsimp only; (repeat' split) <;> simp; done)
@[simp] theorem engineStrobe_keeps {s : State} :
    (engineStrobe s).pending = s.pending ∧
    (engineStrobe s).now = s.now ∧
    (engineStrobe s).out = s.out ∧
    (engineStrobe s).regs = s.regs ∧
    (engineStrobe s).fr = s.fr ∧
    (engineStrobe s).mx = s.mx ∧
    (engineStrobe s).ps = s.ps ∧
    (engineStrobe s).sp = s.sp ∧
    (engineStrobe s).ai = s.ai ∧
    (engineStrobe s).aq = s.aq ∧
    (engineStrobe s).dp = s.dp ∧
    (engineStrobe s).ck = s.ck ∧
    (engineStrobe s).sc = s.sc ∧
    (engineStrobe s).hl = s.hl ∧
    (engineStrobe s).st = s.st ∧
    (engineStrobe s).tw = s.tw ∧
    (engineStrobe s).sv = s.sv ∧
    (engineStrobe s).pd = s.pd ∧
    (engineStrobe s).ct = s.ct ∧
    (engineStrobe s).pl = s.pl ∧
    (engineStrobe s).vc = s.vc := by
  unfold Machine.engineStrobe; first | (simp; done) | ((repeat' split) <;> simp; done) | (dsimp only; (repeat' split) <;> simp; done)
@[simp] theorem stageMeet_keeps {s : State} {o : Owner} {i : Item} {kind : Nat} {unit : Nat} {id : Nat} {ver : Nat} :
    (stageMeet s o i kind unit id ver).pending = s.pending ∧
    (stageMeet s o i kind unit id ver).now = s.now ∧
    (stageMeet s o i kind unit id ver).out = s.out ∧
    (stageMeet s o i kind unit id ver).regs = s.regs ∧
    (stageMeet s o i kind unit id ver).mx = s.mx ∧
    (stageMeet s o i kind unit id ver).fx = s.fx ∧
    (stageMeet s o i kind unit id ver).ps = s.ps ∧
    (stageMeet s o i kind unit id ver).sp = s.sp ∧
    (stageMeet s o i kind unit id ver).ai = s.ai ∧
    (stageMeet s o i kind unit id ver).aq = s.aq ∧
    (stageMeet s o i kind unit id ver).dp = s.dp ∧
    (stageMeet s o i kind unit id ver).ck = s.ck ∧
    (stageMeet s o i kind unit id ver).sc = s.sc ∧
    (stageMeet s o i kind unit id ver).hl = s.hl ∧
    (stageMeet s o i kind unit id ver).st = s.st ∧
    (stageMeet s o i kind unit id ver).tw = s.tw ∧
    (stageMeet s o i kind unit id ver).sv = s.sv ∧
    (stageMeet s o i kind unit id ver).pd = s.pd ∧
    (stageMeet s o i kind unit id ver).ct = s.ct ∧
    (stageMeet s o i kind unit id ver).vc = s.vc ∧
    (stageMeet s o i kind unit id ver).fr.fn = s.fr.fn ∧
    (stageMeet s o i kind unit id ver).fr.next = s.fr.next ∧
    (stageMeet s o i kind unit id ver).fr.running = s.fr.running := by
  unfold Machine.stageMeet; first | (simp; done) | ((repeat' split) <;> simp; done) | (dsimp only; (repeat' split) <;> simp; done)
@[simp] theorem setPaddr_keeps {s : State} {o : Owner} {p : Paddr} :
    (setPaddr s o p).pending = s.pending ∧
    (setPaddr s o p).now = s.now ∧
    (setPaddr s o p).out = s.out ∧
    (setPaddr s o p).regs = s.regs ∧
    (setPaddr s o p).fr = s.fr ∧
    (setPaddr s o p).mx = s.mx ∧
    (setPaddr s o p).ps = s.ps ∧
    (setPaddr s o p).sp = s.sp ∧
    (setPaddr s o p).ai = s.ai ∧
    (setPaddr s o p).aq = s.aq ∧
    (setPaddr s o p).dp = s.dp ∧
    (setPaddr s o p).ck = s.ck ∧
    (setPaddr s o p).sc = s.sc ∧
    (setPaddr s o p).hl = s.hl ∧
    (setPaddr s o p).st = s.st ∧
    (setPaddr s o p).tw = s.tw ∧
    (setPaddr s o p).sv = s.sv ∧
    (setPaddr s o p).pd = s.pd ∧
    (setPaddr s o p).ct = s.ct ∧
    (setPaddr s o p).pl = s.pl ∧
    (setPaddr s o p).vc = s.vc := by
  unfold Machine.setPaddr; first | (simp; done) | ((repeat' split) <;> simp; done) | (dsimp only; (repeat' split) <;> simp; done)
@[simp] theorem writePaddr_keeps {s : State} {o : Owner} {v : Word} :
    (writePaddr s o v).pending = s.pending ∧
    (writePaddr s o v).now = s.now ∧
    (writePaddr s o v).out = s.out ∧
    (writePaddr s o v).regs = s.regs ∧
    (writePaddr s o v).fr = s.fr ∧
    (writePaddr s o v).mx = s.mx ∧
    (writePaddr s o v).ps = s.ps ∧
    (writePaddr s o v).sp = s.sp ∧
    (writePaddr s o v).ai = s.ai ∧
    (writePaddr s o v).aq = s.aq ∧
    (writePaddr s o v).dp = s.dp ∧
    (writePaddr s o v).ck = s.ck ∧
    (writePaddr s o v).sc = s.sc ∧
    (writePaddr s o v).hl = s.hl ∧
    (writePaddr s o v).st = s.st ∧
    (writePaddr s o v).tw = s.tw ∧
    (writePaddr s o v).sv = s.sv ∧
    (writePaddr s o v).pd = s.pd ∧
    (writePaddr s o v).ct = s.ct ∧
    (writePaddr s o v).pl = s.pl ∧
    (writePaddr s o v).vc = s.vc := by
  unfold Machine.writePaddr; first | (simp; done) | ((repeat' split) <;> simp; done) | (dsimp only; (repeat' split) <;> simp; done)
@[simp] theorem refuseParam_keeps {s : State} {e : Nat} {n : Nat} {w : Nat} {attr : Nat} :
    (refuseParam s e n w attr).pending = s.pending ∧
    (refuseParam s e n w attr).now = s.now ∧
    (refuseParam s e n w attr).regs = s.regs ∧
    (refuseParam s e n w attr).fr = s.fr ∧
    (refuseParam s e n w attr).mx = s.mx ∧
    (refuseParam s e n w attr).ps = s.ps ∧
    (refuseParam s e n w attr).sp = s.sp ∧
    (refuseParam s e n w attr).ai = s.ai ∧
    (refuseParam s e n w attr).aq = s.aq ∧
    (refuseParam s e n w attr).dp = s.dp ∧
    (refuseParam s e n w attr).ck = s.ck ∧
    (refuseParam s e n w attr).sc = s.sc ∧
    (refuseParam s e n w attr).st = s.st ∧
    (refuseParam s e n w attr).sv = s.sv ∧
    (refuseParam s e n w attr).pd = s.pd ∧
    (refuseParam s e n w attr).ct = s.ct ∧
    (refuseParam s e n w attr).pl = s.pl ∧
    (refuseParam s e n w attr).vc = s.vc ∧
    (refuseParam s e n w attr).hl.locked = s.hl.locked := by
  unfold Machine.refuseParam; first | (simp; done) | ((repeat' split) <;> simp; done) | (dsimp only; (repeat' split) <;> simp; done)
@[simp] theorem accessWord_keeps {s : State} {o : Owner} {p : Paddr} :
    (accessWord s o p).pending = s.pending ∧
    (accessWord s o p).now = s.now ∧
    (accessWord s o p).out = s.out ∧
    (accessWord s o p).regs = s.regs ∧
    (accessWord s o p).fr = s.fr ∧
    (accessWord s o p).mx = s.mx ∧
    (accessWord s o p).ps = s.ps ∧
    (accessWord s o p).sp = s.sp ∧
    (accessWord s o p).ai = s.ai ∧
    (accessWord s o p).aq = s.aq ∧
    (accessWord s o p).dp = s.dp ∧
    (accessWord s o p).ck = s.ck ∧
    (accessWord s o p).sc = s.sc ∧
    (accessWord s o p).hl = s.hl ∧
    (accessWord s o p).st = s.st ∧
    (accessWord s o p).tw = s.tw ∧
    (accessWord s o p).sv = s.sv ∧
    (accessWord s o p).pd = s.pd ∧
    (accessWord s o p).ct = s.ct ∧
    (accessWord s o p).pl = s.pl ∧
    (accessWord s o p).vc = s.vc := by
  unfold Machine.accessWord; first | (simp; done) | ((repeat' split) <;> simp; done) | (dsimp only; (repeat' split) <;> simp; done)
@[simp] theorem readPdata_keeps {s : State} {o : Owner} :
    (readPdata s o).1.pending = s.pending ∧
    (readPdata s o).1.now = s.now ∧
    (readPdata s o).1.out = s.out ∧
    (readPdata s o).1.regs = s.regs ∧
    (readPdata s o).1.fr = s.fr ∧
    (readPdata s o).1.mx = s.mx ∧
    (readPdata s o).1.ps = s.ps ∧
    (readPdata s o).1.sp = s.sp ∧
    (readPdata s o).1.ai = s.ai ∧
    (readPdata s o).1.aq = s.aq ∧
    (readPdata s o).1.dp = s.dp ∧
    (readPdata s o).1.ck = s.ck ∧
    (readPdata s o).1.sc = s.sc ∧
    (readPdata s o).1.hl = s.hl ∧
    (readPdata s o).1.st = s.st ∧
    (readPdata s o).1.tw = s.tw ∧
    (readPdata s o).1.sv = s.sv ∧
    (readPdata s o).1.pd = s.pd ∧
    (readPdata s o).1.ct = s.ct ∧
    (readPdata s o).1.pl = s.pl ∧
    (readPdata s o).1.vc = s.vc := by
  unfold Machine.readPdata; first | (simp; done) | ((repeat' split) <;> simp; done) | (dsimp only; (repeat' split) <;> simp; done)
@[simp] theorem writePdata_keeps {s : State} {o : Owner} {v : Word} :
    (writePdata s o v).pending = s.pending ∧
    (writePdata s o v).now = s.now ∧
    (writePdata s o v).regs = s.regs ∧
    (writePdata s o v).fr = s.fr ∧
    (writePdata s o v).mx = s.mx ∧
    (writePdata s o v).ps = s.ps ∧
    (writePdata s o v).sp = s.sp ∧
    (writePdata s o v).ai = s.ai ∧
    (writePdata s o v).aq = s.aq ∧
    (writePdata s o v).dp = s.dp ∧
    (writePdata s o v).ck = s.ck ∧
    (writePdata s o v).sc = s.sc ∧
    (writePdata s o v).st = s.st ∧
    (writePdata s o v).sv = s.sv ∧
    (writePdata s o v).pd = s.pd ∧
    (writePdata s o v).ct = s.ct ∧
    (writePdata s o v).pl = s.pl ∧
    (writePdata s o v).vc = s.vc ∧
    (writePdata s o v).hl.locked = s.hl.locked := by
  unfold Machine.writePdata; first | (simp; done) | ((repeat' split) <;> simp; done) | (dsimp only; (repeat' split) <;> simp; done)
@[simp] theorem windowWrite_pending {s : State} {src : Owner} {off : Nat} {gs : List Nat} {f : State → State}
    (h : ∀ t, (f t).pending = t.pending) : (windowWrite s src off gs f).pending = s.pending := by
  unfold windowWrite; dsimp only; (repeat' split) <;> simp [h]
@[simp] theorem windowWrite_now {s : State} {src : Owner} {off : Nat} {gs : List Nat} {f : State → State}
    (h : ∀ t, (f t).now = t.now) : (windowWrite s src off gs f).now = s.now := by
  unfold windowWrite; dsimp only; (repeat' split) <;> simp [h]
@[simp] theorem windowWrite_regs {s : State} {src : Owner} {off : Nat} {gs : List Nat} {f : State → State}
    (h : ∀ t, (f t).regs = t.regs) : (windowWrite s src off gs f).regs = s.regs := by
  unfold windowWrite; dsimp only; (repeat' split) <;> simp [h]
@[simp] theorem windowWrite_fr {s : State} {src : Owner} {off : Nat} {gs : List Nat} {f : State → State}
    (h : ∀ t, (f t).fr = t.fr) : (windowWrite s src off gs f).fr = s.fr := by
  unfold windowWrite; dsimp only; (repeat' split) <;> simp [h]
@[simp] theorem windowWrite_mx {s : State} {src : Owner} {off : Nat} {gs : List Nat} {f : State → State}
    (h : ∀ t, (f t).mx = t.mx) : (windowWrite s src off gs f).mx = s.mx := by
  unfold windowWrite; dsimp only; (repeat' split) <;> simp [h]
@[simp] theorem windowWrite_fx {s : State} {src : Owner} {off : Nat} {gs : List Nat} {f : State → State}
    (h : ∀ t, (f t).fx = t.fx) : (windowWrite s src off gs f).fx = s.fx := by
  unfold windowWrite; dsimp only; (repeat' split) <;> simp [h]
@[simp] theorem windowWrite_ps {s : State} {src : Owner} {off : Nat} {gs : List Nat} {f : State → State}
    (h : ∀ t, (f t).ps = t.ps) : (windowWrite s src off gs f).ps = s.ps := by
  unfold windowWrite; dsimp only; (repeat' split) <;> simp [h]
@[simp] theorem windowWrite_sp {s : State} {src : Owner} {off : Nat} {gs : List Nat} {f : State → State}
    (h : ∀ t, (f t).sp = t.sp) : (windowWrite s src off gs f).sp = s.sp := by
  unfold windowWrite; dsimp only; (repeat' split) <;> simp [h]
@[simp] theorem windowWrite_ai {s : State} {src : Owner} {off : Nat} {gs : List Nat} {f : State → State}
    (h : ∀ t, (f t).ai = t.ai) : (windowWrite s src off gs f).ai = s.ai := by
  unfold windowWrite; dsimp only; (repeat' split) <;> simp [h]
@[simp] theorem windowWrite_aq {s : State} {src : Owner} {off : Nat} {gs : List Nat} {f : State → State}
    (h : ∀ t, (f t).aq = t.aq) : (windowWrite s src off gs f).aq = s.aq := by
  unfold windowWrite; dsimp only; (repeat' split) <;> simp [h]
@[simp] theorem windowWrite_dp {s : State} {src : Owner} {off : Nat} {gs : List Nat} {f : State → State}
    (h : ∀ t, (f t).dp = t.dp) : (windowWrite s src off gs f).dp = s.dp := by
  unfold windowWrite; dsimp only; (repeat' split) <;> simp [h]
@[simp] theorem windowWrite_ck {s : State} {src : Owner} {off : Nat} {gs : List Nat} {f : State → State}
    (h : ∀ t, (f t).ck = t.ck) : (windowWrite s src off gs f).ck = s.ck := by
  unfold windowWrite; dsimp only; (repeat' split) <;> simp [h]
@[simp] theorem windowWrite_sc {s : State} {src : Owner} {off : Nat} {gs : List Nat} {f : State → State}
    (h : ∀ t, (f t).sc = t.sc) : (windowWrite s src off gs f).sc = s.sc := by
  unfold windowWrite; dsimp only; (repeat' split) <;> simp [h]
@[simp] theorem windowWrite_st {s : State} {src : Owner} {off : Nat} {gs : List Nat} {f : State → State}
    (h : ∀ t, (f t).st = t.st) : (windowWrite s src off gs f).st = s.st := by
  unfold windowWrite; dsimp only; (repeat' split) <;> simp [h]
@[simp] theorem windowWrite_sv {s : State} {src : Owner} {off : Nat} {gs : List Nat} {f : State → State}
    (h : ∀ t, (f t).sv = t.sv) : (windowWrite s src off gs f).sv = s.sv := by
  unfold windowWrite; dsimp only; (repeat' split) <;> simp [h]
@[simp] theorem windowWrite_pd {s : State} {src : Owner} {off : Nat} {gs : List Nat} {f : State → State}
    (h : ∀ t, (f t).pd = t.pd) : (windowWrite s src off gs f).pd = s.pd := by
  unfold windowWrite; dsimp only; (repeat' split) <;> simp [h]
@[simp] theorem windowWrite_ct {s : State} {src : Owner} {off : Nat} {gs : List Nat} {f : State → State}
    (h : ∀ t, (f t).ct = t.ct) : (windowWrite s src off gs f).ct = s.ct := by
  unfold windowWrite; dsimp only; (repeat' split) <;> simp [h]
@[simp] theorem windowWrite_pl {s : State} {src : Owner} {off : Nat} {gs : List Nat} {f : State → State}
    (h : ∀ t, (f t).pl = t.pl) : (windowWrite s src off gs f).pl = s.pl := by
  unfold windowWrite; dsimp only; (repeat' split) <;> simp [h]
@[simp] theorem windowWrite_vc {s : State} {src : Owner} {off : Nat} {gs : List Nat} {f : State → State}
    (h : ∀ t, (f t).vc = t.vc) : (windowWrite s src off gs f).vc = s.vc := by
  unfold windowWrite; dsimp only; (repeat' split) <;> simp [h]
@[simp] theorem windowWrite_hl_locked {s : State} {src : Owner} {off : Nat} {gs : List Nat} {f : State → State}
    (h : ∀ t, (f t).hl.locked = t.hl.locked) : (windowWrite s src off gs f).hl.locked = s.hl.locked := by
  unfold windowWrite; dsimp only; (repeat' split) <;> simp [h]
@[simp] theorem windowWrite_fr_fn {s : State} {src : Owner} {off : Nat} {gs : List Nat} {f : State → State}
    (h : ∀ t, (f t).fr.fn = t.fr.fn) : (windowWrite s src off gs f).fr.fn = s.fr.fn := by
  unfold windowWrite; dsimp only; (repeat' split) <;> simp [h]
@[simp] theorem windowWrite_fr_next {s : State} {src : Owner} {off : Nat} {gs : List Nat} {f : State → State}
    (h : ∀ t, (f t).fr.next = t.fr.next) : (windowWrite s src off gs f).fr.next = s.fr.next := by
  unfold windowWrite; dsimp only; (repeat' split) <;> simp [h]
@[simp] theorem windowWrite_fr_running {s : State} {src : Owner} {off : Nat} {gs : List Nat} {f : State → State}
    (h : ∀ t, (f t).fr.running = t.fr.running) : (windowWrite s src off gs f).fr.running = s.fr.running := by
  unfold windowWrite; dsimp only; (repeat' split) <;> simp [h]
@[simp] theorem pcommit_keeps {s : State} {o : Owner} {v : Word} :
    (pcommit s o v).pending = s.pending ∧
    (pcommit s o v).now = s.now ∧
    (pcommit s o v).out = s.out ∧
    (pcommit s o v).regs = s.regs ∧
    (pcommit s o v).mx = s.mx ∧
    (pcommit s o v).ps = s.ps ∧
    (pcommit s o v).sp = s.sp ∧
    (pcommit s o v).ai = s.ai ∧
    (pcommit s o v).aq = s.aq ∧
    (pcommit s o v).dp = s.dp ∧
    (pcommit s o v).ck = s.ck ∧
    (pcommit s o v).sc = s.sc ∧
    (pcommit s o v).hl = s.hl ∧
    (pcommit s o v).st = s.st ∧
    (pcommit s o v).tw = s.tw ∧
    (pcommit s o v).sv = s.sv ∧
    (pcommit s o v).pd = s.pd ∧
    (pcommit s o v).ct = s.ct ∧
    (pcommit s o v).vc = s.vc ∧
    (pcommit s o v).fr.fn = s.fr.fn ∧
    (pcommit s o v).fr.next = s.fr.next ∧
    (pcommit s o v).fr.running = s.fr.running := by
  unfold Machine.pcommit; first | (simp; done) | ((repeat' split) <;> simp; done) | (dsimp only; (repeat' split) <;> simp; done)
@[simp] theorem discardSets_keeps {s : State} {e : Nat} {cause : Nat} :
    (discardSets s e cause).pending = s.pending ∧
    (discardSets s e cause).now = s.now ∧
    (discardSets s e cause).regs = s.regs ∧
    (discardSets s e cause).fx = s.fx ∧
    (discardSets s e cause).ps = s.ps ∧
    (discardSets s e cause).sp = s.sp ∧
    (discardSets s e cause).ai = s.ai ∧
    (discardSets s e cause).aq = s.aq ∧
    (discardSets s e cause).dp = s.dp ∧
    (discardSets s e cause).ck = s.ck ∧
    (discardSets s e cause).sc = s.sc ∧
    (discardSets s e cause).st = s.st ∧
    (discardSets s e cause).sv = s.sv ∧
    (discardSets s e cause).pd = s.pd ∧
    (discardSets s e cause).ct = s.ct ∧
    (discardSets s e cause).vc = s.vc ∧
    (discardSets s e cause).fr.fn = s.fr.fn ∧
    (discardSets s e cause).fr.next = s.fr.next ∧
    (discardSets s e cause).fr.running = s.fr.running ∧
    (discardSets s e cause).hl.locked = s.hl.locked := by
  unfold Machine.discardSets; first | (simp; done) | ((repeat' split) <;> simp; done) | (dsimp only; (repeat' split) <;> simp; done)
@[simp] theorem failEngine_keeps {s : State} {e : Nat} :
    (failEngine s e).pending = s.pending ∧
    (failEngine s e).now = s.now ∧
    (failEngine s e).regs = s.regs ∧
    (failEngine s e).ps = s.ps ∧
    (failEngine s e).sp = s.sp ∧
    (failEngine s e).ai = s.ai ∧
    (failEngine s e).aq = s.aq ∧
    (failEngine s e).dp = s.dp ∧
    (failEngine s e).ck = s.ck ∧
    (failEngine s e).sc = s.sc ∧
    (failEngine s e).st = s.st ∧
    (failEngine s e).sv = s.sv ∧
    (failEngine s e).pd = s.pd ∧
    (failEngine s e).ct = s.ct ∧
    (failEngine s e).vc = s.vc ∧
    (failEngine s e).fr.fn = s.fr.fn ∧
    (failEngine s e).fr.next = s.fr.next ∧
    (failEngine s e).fr.running = s.fr.running ∧
    (failEngine s e).hl.locked = s.hl.locked := by
  unfold Machine.failEngine; first | (simp; done) | ((repeat' split) <;> simp; done) | (dsimp only; (repeat' split) <;> simp; done)
@[simp] theorem failEngines_keeps {s : State} :
    (failEngines s).pending = s.pending ∧
    (failEngines s).now = s.now ∧
    (failEngines s).regs = s.regs ∧
    (failEngines s).ps = s.ps ∧
    (failEngines s).sp = s.sp ∧
    (failEngines s).ai = s.ai ∧
    (failEngines s).aq = s.aq ∧
    (failEngines s).dp = s.dp ∧
    (failEngines s).ck = s.ck ∧
    (failEngines s).sc = s.sc ∧
    (failEngines s).st = s.st ∧
    (failEngines s).sv = s.sv ∧
    (failEngines s).pd = s.pd ∧
    (failEngines s).ct = s.ct ∧
    (failEngines s).vc = s.vc ∧
    (failEngines s).fr.fn = s.fr.fn ∧
    (failEngines s).fr.next = s.fr.next ∧
    (failEngines s).fr.running = s.fr.running ∧
    (failEngines s).hl.locked = s.hl.locked := by
  unfold Machine.failEngines; first | (simp; done) | ((repeat' split) <;> simp; done) | (dsimp only; (repeat' split) <;> simp; done)
@[simp] theorem applySwap_keeps {s : State} {e : Nat} {r : Recipe} :
    (applySwap s e r).pending = s.pending ∧
    (applySwap s e r).now = s.now ∧
    (applySwap s e r).ps = s.ps ∧
    (applySwap s e r).sp = s.sp ∧
    (applySwap s e r).ai = s.ai ∧
    (applySwap s e r).aq = s.aq ∧
    (applySwap s e r).dp = s.dp ∧
    (applySwap s e r).ck = s.ck ∧
    (applySwap s e r).sc = s.sc ∧
    (applySwap s e r).st = s.st ∧
    (applySwap s e r).sv = s.sv ∧
    (applySwap s e r).pd = s.pd ∧
    (applySwap s e r).ct = s.ct ∧
    (applySwap s e r).vc = s.vc ∧
    (applySwap s e r).fr.fn = s.fr.fn ∧
    (applySwap s e r).fr.next = s.fr.next ∧
    (applySwap s e r).fr.running = s.fr.running ∧
    (applySwap s e r).hl.locked = s.hl.locked := by
  unfold Machine.applySwap; first | (simp; done) | ((repeat' split) <;> simp; done) | (dsimp only; (repeat' split) <;> simp; done)
@[simp] theorem emptyEngine_keeps {s : State} {e : Nat} {st : EngState} :
    (emptyEngine s e st).pending = s.pending ∧
    (emptyEngine s e st).now = s.now ∧
    (emptyEngine s e st).out = s.out ∧
    (emptyEngine s e st).fr = s.fr ∧
    (emptyEngine s e st).mx = s.mx ∧
    (emptyEngine s e st).ps = s.ps ∧
    (emptyEngine s e st).sp = s.sp ∧
    (emptyEngine s e st).ai = s.ai ∧
    (emptyEngine s e st).aq = s.aq ∧
    (emptyEngine s e st).dp = s.dp ∧
    (emptyEngine s e st).ck = s.ck ∧
    (emptyEngine s e st).sc = s.sc ∧
    (emptyEngine s e st).hl = s.hl ∧
    (emptyEngine s e st).st = s.st ∧
    (emptyEngine s e st).tw = s.tw ∧
    (emptyEngine s e st).sv = s.sv ∧
    (emptyEngine s e st).pd = s.pd ∧
    (emptyEngine s e st).ct = s.ct ∧
    (emptyEngine s e st).pl = s.pl ∧
    (emptyEngine s e st).vc = s.vc := by
  unfold Machine.emptyEngine; first | (simp; done) | ((repeat' split) <;> simp; done) | (dsimp only; (repeat' split) <;> simp; done)
@[simp] theorem clearedEvent_keeps {s : State} {e : Nat} {x : Engine} :
    (clearedEvent s e x).pending = s.pending ∧
    (clearedEvent s e x).now = s.now ∧
    (clearedEvent s e x).regs = s.regs ∧
    (clearedEvent s e x).fr = s.fr ∧
    (clearedEvent s e x).mx = s.mx ∧
    (clearedEvent s e x).fx = s.fx ∧
    (clearedEvent s e x).ps = s.ps ∧
    (clearedEvent s e x).sp = s.sp ∧
    (clearedEvent s e x).ai = s.ai ∧
    (clearedEvent s e x).aq = s.aq ∧
    (clearedEvent s e x).dp = s.dp ∧
    (clearedEvent s e x).ck = s.ck ∧
    (clearedEvent s e x).sc = s.sc ∧
    (clearedEvent s e x).st = s.st ∧
    (clearedEvent s e x).sv = s.sv ∧
    (clearedEvent s e x).pd = s.pd ∧
    (clearedEvent s e x).ct = s.ct ∧
    (clearedEvent s e x).pl = s.pl ∧
    (clearedEvent s e x).vc = s.vc ∧
    (clearedEvent s e x).hl.locked = s.hl.locked := by
  unfold Machine.clearedEvent; first | (simp; done) | ((repeat' split) <;> simp; done) | (dsimp only; (repeat' split) <;> simp; done)
@[simp] theorem applyClear_keeps {s : State} {e : Nat} :
    (applyClear s e).pending = s.pending ∧
    (applyClear s e).now = s.now ∧
    (applyClear s e).ps = s.ps ∧
    (applyClear s e).sp = s.sp ∧
    (applyClear s e).ai = s.ai ∧
    (applyClear s e).aq = s.aq ∧
    (applyClear s e).dp = s.dp ∧
    (applyClear s e).ck = s.ck ∧
    (applyClear s e).sc = s.sc ∧
    (applyClear s e).st = s.st ∧
    (applyClear s e).sv = s.sv ∧
    (applyClear s e).pd = s.pd ∧
    (applyClear s e).ct = s.ct ∧
    (applyClear s e).vc = s.vc ∧
    (applyClear s e).fr.fn = s.fr.fn ∧
    (applyClear s e).fr.next = s.fr.next ∧
    (applyClear s e).fr.running = s.fr.running ∧
    (applyClear s e).hl.locked = s.hl.locked := by
  unfold Machine.applyClear; first | (simp; done) | ((repeat' split) <;> simp; done) | (dsimp only; (repeat' split) <;> simp; done)
@[simp] theorem applyWords_keeps {s : State} {e : Nat} {ws : Tbl Word} :
    (applyWords s e ws).pending = s.pending ∧
    (applyWords s e ws).now = s.now ∧
    (applyWords s e ws).out = s.out ∧
    (applyWords s e ws).regs = s.regs ∧
    (applyWords s e ws).fr = s.fr ∧
    (applyWords s e ws).mx = s.mx ∧
    (applyWords s e ws).ps = s.ps ∧
    (applyWords s e ws).sp = s.sp ∧
    (applyWords s e ws).ai = s.ai ∧
    (applyWords s e ws).aq = s.aq ∧
    (applyWords s e ws).dp = s.dp ∧
    (applyWords s e ws).ck = s.ck ∧
    (applyWords s e ws).sc = s.sc ∧
    (applyWords s e ws).hl = s.hl ∧
    (applyWords s e ws).st = s.st ∧
    (applyWords s e ws).tw = s.tw ∧
    (applyWords s e ws).sv = s.sv ∧
    (applyWords s e ws).pd = s.pd ∧
    (applyWords s e ws).ct = s.ct ∧
    (applyWords s e ws).pl = s.pl ∧
    (applyWords s e ws).vc = s.vc := by
  unfold Machine.applyWords; first | (simp; done) | ((repeat' split) <;> simp; done) | (dsimp only; (repeat' split) <;> simp; done)
@[simp] theorem applyParams_keeps {s : State} {o : Owner} {sets : List (Nat × Tbl Word)} {notify : Bool} {seen : List (Nat × Nat × Owner)} :
    (applyParams s o sets notify seen).1.pending = s.pending ∧
    (applyParams s o sets notify seen).1.now = s.now ∧
    (applyParams s o sets notify seen).1.regs = s.regs ∧
    (applyParams s o sets notify seen).1.fr = s.fr ∧
    (applyParams s o sets notify seen).1.mx = s.mx ∧
    (applyParams s o sets notify seen).1.ps = s.ps ∧
    (applyParams s o sets notify seen).1.sp = s.sp ∧
    (applyParams s o sets notify seen).1.ai = s.ai ∧
    (applyParams s o sets notify seen).1.aq = s.aq ∧
    (applyParams s o sets notify seen).1.dp = s.dp ∧
    (applyParams s o sets notify seen).1.ck = s.ck ∧
    (applyParams s o sets notify seen).1.sc = s.sc ∧
    (applyParams s o sets notify seen).1.st = s.st ∧
    (applyParams s o sets notify seen).1.sv = s.sv ∧
    (applyParams s o sets notify seen).1.pd = s.pd ∧
    (applyParams s o sets notify seen).1.ct = s.ct ∧
    (applyParams s o sets notify seen).1.pl = s.pl ∧
    (applyParams s o sets notify seen).1.vc = s.vc ∧
    (applyParams s o sets notify seen).1.hl.locked = s.hl.locked := by
  unfold Machine.applyParams; first | (simp; done) | ((repeat' split) <;> simp; done) | (dsimp only; (repeat' split) <;> simp; done)
@[simp] theorem applyBypass_keeps {s : State} {e : Nat} {v : Word} :
    (applyBypass s e v).pending = s.pending ∧
    (applyBypass s e v).now = s.now ∧
    (applyBypass s e v).fr = s.fr ∧
    (applyBypass s e v).mx = s.mx ∧
    (applyBypass s e v).ps = s.ps ∧
    (applyBypass s e v).sp = s.sp ∧
    (applyBypass s e v).ai = s.ai ∧
    (applyBypass s e v).aq = s.aq ∧
    (applyBypass s e v).dp = s.dp ∧
    (applyBypass s e v).ck = s.ck ∧
    (applyBypass s e v).sc = s.sc ∧
    (applyBypass s e v).st = s.st ∧
    (applyBypass s e v).sv = s.sv ∧
    (applyBypass s e v).pd = s.pd ∧
    (applyBypass s e v).ct = s.ct ∧
    (applyBypass s e v).pl = s.pl ∧
    (applyBypass s e v).vc = s.vc ∧
    (applyBypass s e v).hl.locked = s.hl.locked := by
  unfold Machine.applyBypass; first | (simp; done) | ((repeat' split) <;> simp; done) | (dsimp only; (repeat' split) <;> simp; done)
@[simp] theorem rateEngine_keeps {s : State} {e : Nat} :
    (rateEngine s e).pending = s.pending ∧
    (rateEngine s e).now = s.now ∧
    (rateEngine s e).out = s.out ∧
    (rateEngine s e).regs = s.regs ∧
    (rateEngine s e).fr = s.fr ∧
    (rateEngine s e).mx = s.mx ∧
    (rateEngine s e).ps = s.ps ∧
    (rateEngine s e).sp = s.sp ∧
    (rateEngine s e).ai = s.ai ∧
    (rateEngine s e).aq = s.aq ∧
    (rateEngine s e).dp = s.dp ∧
    (rateEngine s e).ck = s.ck ∧
    (rateEngine s e).sc = s.sc ∧
    (rateEngine s e).hl = s.hl ∧
    (rateEngine s e).st = s.st ∧
    (rateEngine s e).tw = s.tw ∧
    (rateEngine s e).sv = s.sv ∧
    (rateEngine s e).pd = s.pd ∧
    (rateEngine s e).ct = s.ct ∧
    (rateEngine s e).pl = s.pl ∧
    (rateEngine s e).vc = s.vc := by
  unfold Machine.rateEngine; first | (simp; done) | ((repeat' split) <;> simp; done) | (dsimp only; (repeat' split) <;> simp; done)
@[simp] theorem rateEngines_keeps {s : State} :
    (rateEngines s).pending = s.pending ∧
    (rateEngines s).now = s.now ∧
    (rateEngines s).out = s.out ∧
    (rateEngines s).regs = s.regs ∧
    (rateEngines s).fr = s.fr ∧
    (rateEngines s).mx = s.mx ∧
    (rateEngines s).ps = s.ps ∧
    (rateEngines s).sp = s.sp ∧
    (rateEngines s).ai = s.ai ∧
    (rateEngines s).aq = s.aq ∧
    (rateEngines s).dp = s.dp ∧
    (rateEngines s).ck = s.ck ∧
    (rateEngines s).sc = s.sc ∧
    (rateEngines s).hl = s.hl ∧
    (rateEngines s).st = s.st ∧
    (rateEngines s).tw = s.tw ∧
    (rateEngines s).sv = s.sv ∧
    (rateEngines s).pd = s.pd ∧
    (rateEngines s).ct = s.ct ∧
    (rateEngines s).pl = s.pl ∧
    (rateEngines s).vc = s.vc := by
  unfold Machine.rateEngines; first | (simp; done) | ((repeat' split) <;> simp; done) | (dsimp only; (repeat' split) <;> simp; done)
@[simp] theorem noteLoad_keeps {s : State} {body : Bytes} {status : Nat} :
    (noteLoad s body status).pending = s.pending ∧
    (noteLoad s body status).now = s.now ∧
    (noteLoad s body status).out = s.out ∧
    (noteLoad s body status).regs = s.regs ∧
    (noteLoad s body status).fr = s.fr ∧
    (noteLoad s body status).fx = s.fx ∧
    (noteLoad s body status).ps = s.ps ∧
    (noteLoad s body status).sp = s.sp ∧
    (noteLoad s body status).ai = s.ai ∧
    (noteLoad s body status).aq = s.aq ∧
    (noteLoad s body status).dp = s.dp ∧
    (noteLoad s body status).ck = s.ck ∧
    (noteLoad s body status).sc = s.sc ∧
    (noteLoad s body status).hl = s.hl ∧
    (noteLoad s body status).st = s.st ∧
    (noteLoad s body status).tw = s.tw ∧
    (noteLoad s body status).sv = s.sv ∧
    (noteLoad s body status).pd = s.pd ∧
    (noteLoad s body status).ct = s.ct ∧
    (noteLoad s body status).pl = s.pl ∧
    (noteLoad s body status).vc = s.vc := by
  unfold Machine.noteLoad; first | (simp; done) | ((repeat' split) <;> simp; done) | (dsimp only; (repeat' split) <;> simp; done)
@[simp] theorem loadEnd_keeps {s : State} {us : Word} {e : Nat} {container : Bool} {img : Bytes} {src : Owner} {nvOk : Bool} {prefer : List (Fin 1024)} :
    (loadEnd s us e container img src nvOk prefer).pending = s.pending ∧
    (loadEnd s us e container img src nvOk prefer).now = s.now ∧
    (loadEnd s us e container img src nvOk prefer).regs = s.regs ∧
    (loadEnd s us e container img src nvOk prefer).fx = s.fx ∧
    (loadEnd s us e container img src nvOk prefer).ps = s.ps ∧
    (loadEnd s us e container img src nvOk prefer).sp = s.sp ∧
    (loadEnd s us e container img src nvOk prefer).ai = s.ai ∧
    (loadEnd s us e container img src nvOk prefer).aq = s.aq ∧
    (loadEnd s us e container img src nvOk prefer).dp = s.dp ∧
    (loadEnd s us e container img src nvOk prefer).ck = s.ck ∧
    (loadEnd s us e container img src nvOk prefer).sc = s.sc ∧
    (loadEnd s us e container img src nvOk prefer).st = s.st ∧
    (loadEnd s us e container img src nvOk prefer).pd = s.pd ∧
    (loadEnd s us e container img src nvOk prefer).ct = s.ct ∧
    (loadEnd s us e container img src nvOk prefer).vc = s.vc ∧
    (loadEnd s us e container img src nvOk prefer).fr.fn = s.fr.fn ∧
    (loadEnd s us e container img src nvOk prefer).fr.next = s.fr.next ∧
    (loadEnd s us e container img src nvOk prefer).fr.running = s.fr.running ∧
    (loadEnd s us e container img src nvOk prefer).hl.locked = s.hl.locked := by
  unfold Machine.loadEnd; first | (simp; done) | ((repeat' split) <;> simp; done) | (dsimp only; (repeat' split) <;> simp; done)
@[simp] theorem setDie_keeps {s : State} {d : PowerDie} {x : Die} :
    (setDie s d x).pending = s.pending ∧
    (setDie s d x).now = s.now ∧
    (setDie s d x).out = s.out ∧
    (setDie s d x).regs = s.regs ∧
    (setDie s d x).fr = s.fr ∧
    (setDie s d x).mx = s.mx ∧
    (setDie s d x).fx = s.fx ∧
    (setDie s d x).sp = s.sp ∧
    (setDie s d x).ai = s.ai ∧
    (setDie s d x).aq = s.aq ∧
    (setDie s d x).dp = s.dp ∧
    (setDie s d x).ck = s.ck ∧
    (setDie s d x).sc = s.sc ∧
    (setDie s d x).hl = s.hl ∧
    (setDie s d x).st = s.st ∧
    (setDie s d x).tw = s.tw ∧
    (setDie s d x).sv = s.sv ∧
    (setDie s d x).pd = s.pd ∧
    (setDie s d x).ct = s.ct ∧
    (setDie s d x).pl = s.pl ∧
    (setDie s d x).vc = s.vc := by
  unfold Machine.setDie; first | (simp; done) | ((repeat' split) <;> simp; done) | (dsimp only; (repeat' split) <;> simp; done)
@[simp] theorem followIdle_keeps {s : State} {d : PowerDie} :
    (followIdle s d).pending = s.pending ∧
    (followIdle s d).now = s.now ∧
    (followIdle s d).out = s.out ∧
    (followIdle s d).regs = s.regs ∧
    (followIdle s d).fr = s.fr ∧
    (followIdle s d).mx = s.mx ∧
    (followIdle s d).fx = s.fx ∧
    (followIdle s d).sp = s.sp ∧
    (followIdle s d).ai = s.ai ∧
    (followIdle s d).aq = s.aq ∧
    (followIdle s d).dp = s.dp ∧
    (followIdle s d).ck = s.ck ∧
    (followIdle s d).sc = s.sc ∧
    (followIdle s d).hl = s.hl ∧
    (followIdle s d).st = s.st ∧
    (followIdle s d).tw = s.tw ∧
    (followIdle s d).sv = s.sv ∧
    (followIdle s d).pd = s.pd ∧
    (followIdle s d).ct = s.ct ∧
    (followIdle s d).pl = s.pl ∧
    (followIdle s d).vc = s.vc := by
  unfold Machine.followIdle; first | (simp; done) | ((repeat' split) <;> simp; done) | (dsimp only; (repeat' split) <;> simp; done)
@[simp] theorem setPsCh_keeps {s : State} {c : Nat} {x : PsCh} :
    (setPsCh s c x).pending = s.pending ∧
    (setPsCh s c x).now = s.now ∧
    (setPsCh s c x).out = s.out ∧
    (setPsCh s c x).regs = s.regs ∧
    (setPsCh s c x).fr = s.fr ∧
    (setPsCh s c x).mx = s.mx ∧
    (setPsCh s c x).fx = s.fx ∧
    (setPsCh s c x).sp = s.sp ∧
    (setPsCh s c x).ai = s.ai ∧
    (setPsCh s c x).aq = s.aq ∧
    (setPsCh s c x).dp = s.dp ∧
    (setPsCh s c x).ck = s.ck ∧
    (setPsCh s c x).sc = s.sc ∧
    (setPsCh s c x).hl = s.hl ∧
    (setPsCh s c x).st = s.st ∧
    (setPsCh s c x).tw = s.tw ∧
    (setPsCh s c x).sv = s.sv ∧
    (setPsCh s c x).pd = s.pd ∧
    (setPsCh s c x).ct = s.ct ∧
    (setPsCh s c x).pl = s.pl ∧
    (setPsCh s c x).vc = s.vc := by
  unfold Machine.setPsCh; first | (simp; done) | ((repeat' split) <;> simp; done) | (dsimp only; (repeat' split) <;> simp; done)
@[simp] theorem psRefuse_keeps {s : State} :
    (psRefuse s).pending = s.pending ∧
    (psRefuse s).now = s.now ∧
    (psRefuse s).out = s.out ∧
    (psRefuse s).regs = s.regs ∧
    (psRefuse s).fr = s.fr ∧
    (psRefuse s).mx = s.mx ∧
    (psRefuse s).fx = s.fx ∧
    (psRefuse s).sp = s.sp ∧
    (psRefuse s).ai = s.ai ∧
    (psRefuse s).aq = s.aq ∧
    (psRefuse s).dp = s.dp ∧
    (psRefuse s).ck = s.ck ∧
    (psRefuse s).sc = s.sc ∧
    (psRefuse s).hl = s.hl ∧
    (psRefuse s).st = s.st ∧
    (psRefuse s).tw = s.tw ∧
    (psRefuse s).sv = s.sv ∧
    (psRefuse s).pd = s.pd ∧
    (psRefuse s).ct = s.ct ∧
    (psRefuse s).pl = s.pl ∧
    (psRefuse s).vc = s.vc := by
  unfold Machine.psRefuse; first | (simp; done) | ((repeat' split) <;> simp; done) | (dsimp only; (repeat' split) <;> simp; done)
@[simp] theorem presentCause_keeps {s : State} {c : Nat} :
    (presentCause s c).2.pending = s.pending ∧
    (presentCause s c).2.now = s.now ∧
    (presentCause s c).2.out = s.out ∧
    (presentCause s c).2.regs = s.regs ∧
    (presentCause s c).2.fr = s.fr ∧
    (presentCause s c).2.mx = s.mx ∧
    (presentCause s c).2.fx = s.fx ∧
    (presentCause s c).2.ps = s.ps ∧
    (presentCause s c).2.sp = s.sp ∧
    (presentCause s c).2.ai = s.ai ∧
    (presentCause s c).2.aq = s.aq ∧
    (presentCause s c).2.dp = s.dp ∧
    (presentCause s c).2.ck = s.ck ∧
    (presentCause s c).2.sc = s.sc ∧
    (presentCause s c).2.hl = s.hl ∧
    (presentCause s c).2.st = s.st ∧
    (presentCause s c).2.tw = s.tw ∧
    (presentCause s c).2.sv = s.sv ∧
    (presentCause s c).2.pd = s.pd ∧
    (presentCause s c).2.ct = s.ct ∧
    (presentCause s c).2.pl = s.pl ∧
    (presentCause s c).2.vc = s.vc := by
  unfold Machine.presentCause; first | (simp; done) | ((repeat' split) <;> simp; done) | (dsimp only; (repeat' split) <;> simp; done)
@[simp] theorem enterMuted_keeps {s : State} {c : Nat} {cause : Nat} :
    (enterMuted s c cause).pending = s.pending ∧
    (enterMuted s c cause).now = s.now ∧
    (enterMuted s c cause).out = s.out ∧
    (enterMuted s c cause).regs = s.regs ∧
    (enterMuted s c cause).fr = s.fr ∧
    (enterMuted s c cause).mx = s.mx ∧
    (enterMuted s c cause).fx = s.fx ∧
    (enterMuted s c cause).sp = s.sp ∧
    (enterMuted s c cause).ai = s.ai ∧
    (enterMuted s c cause).aq = s.aq ∧
    (enterMuted s c cause).dp = s.dp ∧
    (enterMuted s c cause).ck = s.ck ∧
    (enterMuted s c cause).sc = s.sc ∧
    (enterMuted s c cause).hl = s.hl ∧
    (enterMuted s c cause).st = s.st ∧
    (enterMuted s c cause).tw = s.tw ∧
    (enterMuted s c cause).sv = s.sv ∧
    (enterMuted s c cause).pd = s.pd ∧
    (enterMuted s c cause).ct = s.ct ∧
    (enterMuted s c cause).pl = s.pl ∧
    (enterMuted s c cause).vc = s.vc := by
  unfold Machine.enterMuted; first | (simp; done) | ((repeat' split) <;> simp; done) | (dsimp only; (repeat' split) <;> simp; done)
@[simp] theorem softStart_keeps {s : State} {c : Nat} {cause : Nat} :
    (softStart s c cause).pending = s.pending ∧
    (softStart s c cause).now = s.now ∧
    (softStart s c cause).out = s.out ∧
    (softStart s c cause).regs = s.regs ∧
    (softStart s c cause).fr = s.fr ∧
    (softStart s c cause).mx = s.mx ∧
    (softStart s c cause).fx = s.fx ∧
    (softStart s c cause).sp = s.sp ∧
    (softStart s c cause).ai = s.ai ∧
    (softStart s c cause).aq = s.aq ∧
    (softStart s c cause).dp = s.dp ∧
    (softStart s c cause).ck = s.ck ∧
    (softStart s c cause).sc = s.sc ∧
    (softStart s c cause).hl = s.hl ∧
    (softStart s c cause).st = s.st ∧
    (softStart s c cause).tw = s.tw ∧
    (softStart s c cause).sv = s.sv ∧
    (softStart s c cause).pd = s.pd ∧
    (softStart s c cause).ct = s.ct ∧
    (softStart s c cause).pl = s.pl ∧
    (softStart s c cause).vc = s.vc := by
  unfold Machine.softStart; first | (simp; done) | ((repeat' split) <;> simp; done) | (dsimp only; (repeat' split) <;> simp; done)
@[simp] theorem startOrMute_keeps {s : State} {c : Nat} {cause : Nat} :
    (startOrMute s c cause).pending = s.pending ∧
    (startOrMute s c cause).now = s.now ∧
    (startOrMute s c cause).out = s.out ∧
    (startOrMute s c cause).regs = s.regs ∧
    (startOrMute s c cause).fr = s.fr ∧
    (startOrMute s c cause).mx = s.mx ∧
    (startOrMute s c cause).fx = s.fx ∧
    (startOrMute s c cause).sp = s.sp ∧
    (startOrMute s c cause).ai = s.ai ∧
    (startOrMute s c cause).aq = s.aq ∧
    (startOrMute s c cause).dp = s.dp ∧
    (startOrMute s c cause).ck = s.ck ∧
    (startOrMute s c cause).sc = s.sc ∧
    (startOrMute s c cause).hl = s.hl ∧
    (startOrMute s c cause).st = s.st ∧
    (startOrMute s c cause).tw = s.tw ∧
    (startOrMute s c cause).sv = s.sv ∧
    (startOrMute s c cause).pd = s.pd ∧
    (startOrMute s c cause).ct = s.ct ∧
    (startOrMute s c cause).pl = s.pl ∧
    (startOrMute s c cause).vc = s.vc := by
  unfold Machine.startOrMute; first | (simp; done) | ((repeat' split) <;> simp; done) | (dsimp only; (repeat' split) <;> simp; done)
@[simp] theorem enterOff_keeps {s : State} {c : Nat} :
    (enterOff s c).pending = s.pending ∧
    (enterOff s c).now = s.now ∧
    (enterOff s c).out = s.out ∧
    (enterOff s c).regs = s.regs ∧
    (enterOff s c).fr = s.fr ∧
    (enterOff s c).mx = s.mx ∧
    (enterOff s c).fx = s.fx ∧
    (enterOff s c).sp = s.sp ∧
    (enterOff s c).ai = s.ai ∧
    (enterOff s c).aq = s.aq ∧
    (enterOff s c).dp = s.dp ∧
    (enterOff s c).ck = s.ck ∧
    (enterOff s c).sc = s.sc ∧
    (enterOff s c).hl = s.hl ∧
    (enterOff s c).st = s.st ∧
    (enterOff s c).tw = s.tw ∧
    (enterOff s c).sv = s.sv ∧
    (enterOff s c).pd = s.pd ∧
    (enterOff s c).ct = s.ct ∧
    (enterOff s c).pl = s.pl ∧
    (enterOff s c).vc = s.vc := by
  unfold Machine.enterOff; first | (simp; done) | ((repeat' split) <;> simp; done) | (dsimp only; (repeat' split) <;> simp; done)
@[simp] theorem chStopped_keeps {s : State} {c : Nat} :
    (chStopped s c).pending = s.pending ∧
    (chStopped s c).now = s.now ∧
    (chStopped s c).regs = s.regs ∧
    (chStopped s c).fr = s.fr ∧
    (chStopped s c).mx = s.mx ∧
    (chStopped s c).fx = s.fx ∧
    (chStopped s c).sp = s.sp ∧
    (chStopped s c).ai = s.ai ∧
    (chStopped s c).aq = s.aq ∧
    (chStopped s c).dp = s.dp ∧
    (chStopped s c).ck = s.ck ∧
    (chStopped s c).sc = s.sc ∧
    (chStopped s c).st = s.st ∧
    (chStopped s c).sv = s.sv ∧
    (chStopped s c).pd = s.pd ∧
    (chStopped s c).ct = s.ct ∧
    (chStopped s c).pl = s.pl ∧
    (chStopped s c).vc = s.vc ∧
    (chStopped s c).hl.locked = s.hl.locked := by
  unfold Machine.chStopped; first | (simp; done) | ((repeat' split) <;> simp; done) | (dsimp only; (repeat' split) <;> simp; done)
@[simp] theorem chStarted_keeps {s : State} {c : Nat} :
    (chStarted s c).pending = s.pending ∧
    (chStarted s c).now = s.now ∧
    (chStarted s c).regs = s.regs ∧
    (chStarted s c).fr = s.fr ∧
    (chStarted s c).mx = s.mx ∧
    (chStarted s c).fx = s.fx ∧
    (chStarted s c).sp = s.sp ∧
    (chStarted s c).ai = s.ai ∧
    (chStarted s c).aq = s.aq ∧
    (chStarted s c).dp = s.dp ∧
    (chStarted s c).ck = s.ck ∧
    (chStarted s c).sc = s.sc ∧
    (chStarted s c).st = s.st ∧
    (chStarted s c).sv = s.sv ∧
    (chStarted s c).pd = s.pd ∧
    (chStarted s c).ct = s.ct ∧
    (chStarted s c).pl = s.pl ∧
    (chStarted s c).vc = s.vc ∧
    (chStarted s c).hl.locked = s.hl.locked := by
  unfold Machine.chStarted; first | (simp; done) | ((repeat' split) <;> simp; done) | (dsimp only; (repeat' split) <;> simp; done)
@[simp] theorem muteCh_keeps {cause : Nat} {s : State} {c : Nat} :
    (muteCh cause s c).pending = s.pending ∧
    (muteCh cause s c).now = s.now ∧
    (muteCh cause s c).regs = s.regs ∧
    (muteCh cause s c).fr = s.fr ∧
    (muteCh cause s c).mx = s.mx ∧
    (muteCh cause s c).fx = s.fx ∧
    (muteCh cause s c).sp = s.sp ∧
    (muteCh cause s c).ai = s.ai ∧
    (muteCh cause s c).aq = s.aq ∧
    (muteCh cause s c).dp = s.dp ∧
    (muteCh cause s c).ck = s.ck ∧
    (muteCh cause s c).sc = s.sc ∧
    (muteCh cause s c).st = s.st ∧
    (muteCh cause s c).sv = s.sv ∧
    (muteCh cause s c).pd = s.pd ∧
    (muteCh cause s c).ct = s.ct ∧
    (muteCh cause s c).pl = s.pl ∧
    (muteCh cause s c).vc = s.vc ∧
    (muteCh cause s c).hl.locked = s.hl.locked := by
  unfold Machine.muteCh; first | (simp; done) | ((repeat' split) <;> simp; done) | (dsimp only; (repeat' split) <;> simp; done)
@[simp] theorem resumeCh_keeps {s : State} {c : Nat} :
    (resumeCh s c).pending = s.pending ∧
    (resumeCh s c).now = s.now ∧
    (resumeCh s c).out = s.out ∧
    (resumeCh s c).regs = s.regs ∧
    (resumeCh s c).fr = s.fr ∧
    (resumeCh s c).mx = s.mx ∧
    (resumeCh s c).fx = s.fx ∧
    (resumeCh s c).sp = s.sp ∧
    (resumeCh s c).ai = s.ai ∧
    (resumeCh s c).aq = s.aq ∧
    (resumeCh s c).dp = s.dp ∧
    (resumeCh s c).ck = s.ck ∧
    (resumeCh s c).sc = s.sc ∧
    (resumeCh s c).hl = s.hl ∧
    (resumeCh s c).st = s.st ∧
    (resumeCh s c).tw = s.tw ∧
    (resumeCh s c).sv = s.sv ∧
    (resumeCh s c).pd = s.pd ∧
    (resumeCh s c).ct = s.ct ∧
    (resumeCh s c).pl = s.pl ∧
    (resumeCh s c).vc = s.vc := by
  unfold Machine.resumeCh; first | (simp; done) | ((repeat' split) <;> simp; done) | (dsimp only; (repeat' split) <;> simp; done)
@[simp] theorem latchCh_keeps {s : State} {c : Nat} {cause : Nat} :
    (latchCh s c cause).pending = s.pending ∧
    (latchCh s c cause).now = s.now ∧
    (latchCh s c cause).out = s.out ∧
    (latchCh s c cause).regs = s.regs ∧
    (latchCh s c cause).fr = s.fr ∧
    (latchCh s c cause).mx = s.mx ∧
    (latchCh s c cause).fx = s.fx ∧
    (latchCh s c cause).sp = s.sp ∧
    (latchCh s c cause).ai = s.ai ∧
    (latchCh s c cause).aq = s.aq ∧
    (latchCh s c cause).dp = s.dp ∧
    (latchCh s c cause).ck = s.ck ∧
    (latchCh s c cause).sc = s.sc ∧
    (latchCh s c cause).hl = s.hl ∧
    (latchCh s c cause).st = s.st ∧
    (latchCh s c cause).tw = s.tw ∧
    (latchCh s c cause).sv = s.sv ∧
    (latchCh s c cause).pd = s.pd ∧
    (latchCh s c cause).ct = s.ct ∧
    (latchCh s c cause).pl = s.pl ∧
    (latchCh s c cause).vc = s.vc := by
  unfold Machine.latchCh; first | (simp; done) | ((repeat' split) <;> simp; done) | (dsimp only; (repeat' split) <;> simp; done)
@[simp] theorem rearmRefused_keeps {s : State} {c : Nat} {reason : Nat} {fn : Nat} {t : Frac} :
    (rearmRefused s c reason fn t).pending = s.pending ∧
    (rearmRefused s c reason fn t).now = s.now ∧
    (rearmRefused s c reason fn t).regs = s.regs ∧
    (rearmRefused s c reason fn t).fr = s.fr ∧
    (rearmRefused s c reason fn t).mx = s.mx ∧
    (rearmRefused s c reason fn t).fx = s.fx ∧
    (rearmRefused s c reason fn t).sp = s.sp ∧
    (rearmRefused s c reason fn t).ai = s.ai ∧
    (rearmRefused s c reason fn t).aq = s.aq ∧
    (rearmRefused s c reason fn t).dp = s.dp ∧
    (rearmRefused s c reason fn t).ck = s.ck ∧
    (rearmRefused s c reason fn t).sc = s.sc ∧
    (rearmRefused s c reason fn t).st = s.st ∧
    (rearmRefused s c reason fn t).sv = s.sv ∧
    (rearmRefused s c reason fn t).pd = s.pd ∧
    (rearmRefused s c reason fn t).ct = s.ct ∧
    (rearmRefused s c reason fn t).pl = s.pl ∧
    (rearmRefused s c reason fn t).vc = s.vc ∧
    (rearmRefused s c reason fn t).hl.locked = s.hl.locked := by
  unfold Machine.rearmRefused; first | (simp; done) | ((repeat' split) <;> simp; done) | (dsimp only; (repeat' split) <;> simp; done)
@[simp] theorem enableCh_keeps {s : State} {c : Nat} :
    (enableCh s c).pending = s.pending ∧
    (enableCh s c).now = s.now ∧
    (enableCh s c).fr = s.fr ∧
    (enableCh s c).mx = s.mx ∧
    (enableCh s c).fx = s.fx ∧
    (enableCh s c).sp = s.sp ∧
    (enableCh s c).ai = s.ai ∧
    (enableCh s c).aq = s.aq ∧
    (enableCh s c).dp = s.dp ∧
    (enableCh s c).ck = s.ck ∧
    (enableCh s c).sc = s.sc ∧
    (enableCh s c).st = s.st ∧
    (enableCh s c).sv = s.sv ∧
    (enableCh s c).pd = s.pd ∧
    (enableCh s c).ct = s.ct ∧
    (enableCh s c).pl = s.pl ∧
    (enableCh s c).vc = s.vc ∧
    (enableCh s c).hl.locked = s.hl.locked := by
  unfold Machine.enableCh; first | (simp; done) | ((repeat' split) <;> simp; done) | (dsimp only; (repeat' split) <;> simp; done)
@[simp] theorem disableCh_keeps {s : State} {c : Nat} :
    (disableCh s c).pending = s.pending ∧
    (disableCh s c).now = s.now ∧
    (disableCh s c).out = s.out ∧
    (disableCh s c).fr = s.fr ∧
    (disableCh s c).mx = s.mx ∧
    (disableCh s c).fx = s.fx ∧
    (disableCh s c).sp = s.sp ∧
    (disableCh s c).ai = s.ai ∧
    (disableCh s c).aq = s.aq ∧
    (disableCh s c).dp = s.dp ∧
    (disableCh s c).ck = s.ck ∧
    (disableCh s c).sc = s.sc ∧
    (disableCh s c).hl = s.hl ∧
    (disableCh s c).st = s.st ∧
    (disableCh s c).tw = s.tw ∧
    (disableCh s c).sv = s.sv ∧
    (disableCh s c).pd = s.pd ∧
    (disableCh s c).ct = s.ct ∧
    (disableCh s c).pl = s.pl ∧
    (disableCh s c).vc = s.vc := by
  unfold Machine.disableCh; first | (simp; done) | ((repeat' split) <;> simp; done) | (dsimp only; (repeat' split) <;> simp; done)
@[simp] theorem muteApply_keeps {s : State} {c : Nat} {m : Bool} :
    (muteApply s c m).pending = s.pending ∧
    (muteApply s c m).now = s.now ∧
    (muteApply s c m).out = s.out ∧
    (muteApply s c m).fr = s.fr ∧
    (muteApply s c m).mx = s.mx ∧
    (muteApply s c m).fx = s.fx ∧
    (muteApply s c m).sp = s.sp ∧
    (muteApply s c m).ai = s.ai ∧
    (muteApply s c m).aq = s.aq ∧
    (muteApply s c m).dp = s.dp ∧
    (muteApply s c m).ck = s.ck ∧
    (muteApply s c m).sc = s.sc ∧
    (muteApply s c m).hl = s.hl ∧
    (muteApply s c m).st = s.st ∧
    (muteApply s c m).tw = s.tw ∧
    (muteApply s c m).sv = s.sv ∧
    (muteApply s c m).pd = s.pd ∧
    (muteApply s c m).ct = s.ct ∧
    (muteApply s c m).pl = s.pl ∧
    (muteApply s c m).vc = s.vc := by
  unfold Machine.muteApply; first | (simp; done) | ((repeat' split) <;> simp; done) | (dsimp only; (repeat' split) <;> simp; done)
@[simp] theorem rearmCh_keeps {s : State} {c : Nat} :
    (rearmCh s c).pending = s.pending ∧
    (rearmCh s c).now = s.now ∧
    (rearmCh s c).out = s.out ∧
    (rearmCh s c).regs = s.regs ∧
    (rearmCh s c).fr = s.fr ∧
    (rearmCh s c).mx = s.mx ∧
    (rearmCh s c).fx = s.fx ∧
    (rearmCh s c).sp = s.sp ∧
    (rearmCh s c).ai = s.ai ∧
    (rearmCh s c).aq = s.aq ∧
    (rearmCh s c).dp = s.dp ∧
    (rearmCh s c).ck = s.ck ∧
    (rearmCh s c).sc = s.sc ∧
    (rearmCh s c).hl = s.hl ∧
    (rearmCh s c).st = s.st ∧
    (rearmCh s c).tw = s.tw ∧
    (rearmCh s c).sv = s.sv ∧
    (rearmCh s c).pd = s.pd ∧
    (rearmCh s c).ct = s.ct ∧
    (rearmCh s c).pl = s.pl ∧
    (rearmCh s c).vc = s.vc := by
  unfold Machine.rearmCh; first | (simp; done) | ((repeat' split) <;> simp; done) | (dsimp only; (repeat' split) <;> simp; done)
@[simp] theorem rearmTakes_keeps {s : State} {c : Nat} :
    (rearmTakes s c).pending = s.pending ∧
    (rearmTakes s c).now = s.now ∧
    (rearmTakes s c).regs = s.regs ∧
    (rearmTakes s c).fr = s.fr ∧
    (rearmTakes s c).mx = s.mx ∧
    (rearmTakes s c).fx = s.fx ∧
    (rearmTakes s c).sp = s.sp ∧
    (rearmTakes s c).ai = s.ai ∧
    (rearmTakes s c).aq = s.aq ∧
    (rearmTakes s c).dp = s.dp ∧
    (rearmTakes s c).ck = s.ck ∧
    (rearmTakes s c).sc = s.sc ∧
    (rearmTakes s c).st = s.st ∧
    (rearmTakes s c).sv = s.sv ∧
    (rearmTakes s c).pd = s.pd ∧
    (rearmTakes s c).ct = s.ct ∧
    (rearmTakes s c).pl = s.pl ∧
    (rearmTakes s c).vc = s.vc ∧
    (rearmTakes s c).hl.locked = s.hl.locked := by
  unfold Machine.rearmTakes; first | (simp; done) | ((repeat' split) <;> simp; done) | (dsimp only; (repeat' split) <;> simp; done)
@[simp] theorem applyChCtrl_keeps {s : State} {c : Nat} {v : Word} :
    (applyChCtrl s c v).pending = s.pending ∧
    (applyChCtrl s c v).now = s.now ∧
    (applyChCtrl s c v).fr = s.fr ∧
    (applyChCtrl s c v).mx = s.mx ∧
    (applyChCtrl s c v).fx = s.fx ∧
    (applyChCtrl s c v).sp = s.sp ∧
    (applyChCtrl s c v).ai = s.ai ∧
    (applyChCtrl s c v).aq = s.aq ∧
    (applyChCtrl s c v).dp = s.dp ∧
    (applyChCtrl s c v).ck = s.ck ∧
    (applyChCtrl s c v).sc = s.sc ∧
    (applyChCtrl s c v).st = s.st ∧
    (applyChCtrl s c v).sv = s.sv ∧
    (applyChCtrl s c v).pd = s.pd ∧
    (applyChCtrl s c v).ct = s.ct ∧
    (applyChCtrl s c v).pl = s.pl ∧
    (applyChCtrl s c v).vc = s.vc ∧
    (applyChCtrl s c v).hl.locked = s.hl.locked := by
  unfold Machine.applyChCtrl; first | (simp; done) | ((repeat' split) <;> simp; done) | (dsimp only; (repeat' split) <;> simp; done)
@[simp] theorem psConfig_keeps {s : State} {c : Nat} {r : PsReg} {v : Word} :
    (psConfig s c r v).pending = s.pending ∧
    (psConfig s c r v).now = s.now ∧
    (psConfig s c r v).fr = s.fr ∧
    (psConfig s c r v).mx = s.mx ∧
    (psConfig s c r v).fx = s.fx ∧
    (psConfig s c r v).sp = s.sp ∧
    (psConfig s c r v).ai = s.ai ∧
    (psConfig s c r v).aq = s.aq ∧
    (psConfig s c r v).dp = s.dp ∧
    (psConfig s c r v).ck = s.ck ∧
    (psConfig s c r v).sc = s.sc ∧
    (psConfig s c r v).st = s.st ∧
    (psConfig s c r v).sv = s.sv ∧
    (psConfig s c r v).pd = s.pd ∧
    (psConfig s c r v).ct = s.ct ∧
    (psConfig s c r v).pl = s.pl ∧
    (psConfig s c r v).vc = s.vc ∧
    (psConfig s c r v).hl.locked = s.hl.locked := by
  unfold Machine.psConfig; first | (simp; done) | ((repeat' split) <;> simp; done) | (dsimp only; (repeat' split) <;> simp; done)
@[simp] theorem clockMute_keeps {s : State} {missing : Bool} :
    (clockMute s missing).pending = s.pending ∧
    (clockMute s missing).now = s.now ∧
    (clockMute s missing).regs = s.regs ∧
    (clockMute s missing).fr = s.fr ∧
    (clockMute s missing).mx = s.mx ∧
    (clockMute s missing).fx = s.fx ∧
    (clockMute s missing).sp = s.sp ∧
    (clockMute s missing).ai = s.ai ∧
    (clockMute s missing).aq = s.aq ∧
    (clockMute s missing).dp = s.dp ∧
    (clockMute s missing).ck = s.ck ∧
    (clockMute s missing).sc = s.sc ∧
    (clockMute s missing).st = s.st ∧
    (clockMute s missing).sv = s.sv ∧
    (clockMute s missing).pd = s.pd ∧
    (clockMute s missing).ct = s.ct ∧
    (clockMute s missing).pl = s.pl ∧
    (clockMute s missing).vc = s.vc ∧
    (clockMute s missing).hl.locked = s.hl.locked := by
  unfold Machine.clockMute; first | (simp; done) | ((repeat' split) <;> simp; done) | (dsimp only; (repeat' split) <;> simp; done)
@[simp] theorem domainChanged_keeps {s : State} {d : Nat} {what : Nat} {cause : Nat} :
    (domainChanged s d what cause).pending = s.pending ∧
    (domainChanged s d what cause).now = s.now ∧
    (domainChanged s d what cause).regs = s.regs ∧
    (domainChanged s d what cause).fr = s.fr ∧
    (domainChanged s d what cause).mx = s.mx ∧
    (domainChanged s d what cause).fx = s.fx ∧
    (domainChanged s d what cause).ps = s.ps ∧
    (domainChanged s d what cause).sp = s.sp ∧
    (domainChanged s d what cause).ai = s.ai ∧
    (domainChanged s d what cause).aq = s.aq ∧
    (domainChanged s d what cause).dp = s.dp ∧
    (domainChanged s d what cause).ck = s.ck ∧
    (domainChanged s d what cause).sc = s.sc ∧
    (domainChanged s d what cause).st = s.st ∧
    (domainChanged s d what cause).sv = s.sv ∧
    (domainChanged s d what cause).pd = s.pd ∧
    (domainChanged s d what cause).ct = s.ct ∧
    (domainChanged s d what cause).pl = s.pl ∧
    (domainChanged s d what cause).vc = s.vc ∧
    (domainChanged s d what cause).hl.locked = s.hl.locked := by
  unfold Machine.domainChanged; first | (simp; done) | ((repeat' split) <;> simp; done) | (dsimp only; (repeat' split) <;> simp; done)
@[simp] theorem dieOff_keeps {s : State} {d : PowerDie} :
    (dieOff s d).pending = s.pending ∧
    (dieOff s d).now = s.now ∧
    (dieOff s d).out = s.out ∧
    (dieOff s d).regs = s.regs ∧
    (dieOff s d).fr = s.fr ∧
    (dieOff s d).mx = s.mx ∧
    (dieOff s d).fx = s.fx ∧
    (dieOff s d).sp = s.sp ∧
    (dieOff s d).ai = s.ai ∧
    (dieOff s d).aq = s.aq ∧
    (dieOff s d).dp = s.dp ∧
    (dieOff s d).ck = s.ck ∧
    (dieOff s d).sc = s.sc ∧
    (dieOff s d).hl = s.hl ∧
    (dieOff s d).st = s.st ∧
    (dieOff s d).tw = s.tw ∧
    (dieOff s d).sv = s.sv ∧
    (dieOff s d).pd = s.pd ∧
    (dieOff s d).ct = s.ct ∧
    (dieOff s d).pl = s.pl ∧
    (dieOff s d).vc = s.vc := by
  unfold Machine.dieOff; first | (simp; done) | ((repeat' split) <;> simp; done) | (dsimp only; (repeat' split) <;> simp; done)
@[simp] theorem dieUp_keeps {s : State} {d : PowerDie} :
    (dieUp s d).pending = s.pending ∧
    (dieUp s d).now = s.now ∧
    (dieUp s d).out = s.out ∧
    (dieUp s d).regs = s.regs ∧
    (dieUp s d).fr = s.fr ∧
    (dieUp s d).mx = s.mx ∧
    (dieUp s d).fx = s.fx ∧
    (dieUp s d).sp = s.sp ∧
    (dieUp s d).ai = s.ai ∧
    (dieUp s d).aq = s.aq ∧
    (dieUp s d).dp = s.dp ∧
    (dieUp s d).ck = s.ck ∧
    (dieUp s d).sc = s.sc ∧
    (dieUp s d).hl = s.hl ∧
    (dieUp s d).st = s.st ∧
    (dieUp s d).tw = s.tw ∧
    (dieUp s d).sv = s.sv ∧
    (dieUp s d).pd = s.pd ∧
    (dieUp s d).ct = s.ct ∧
    (dieUp s d).pl = s.pl ∧
    (dieUp s d).vc = s.vc := by
  unfold Machine.dieUp; first | (simp; done) | ((repeat' split) <;> simp; done) | (dsimp only; (repeat' split) <;> simp; done)
@[simp] theorem idleWake_keeps {s : State} {d : PowerDie} {sink : Nat} :
    (idleWake s d sink).pending = s.pending ∧
    (idleWake s d sink).now = s.now ∧
    (idleWake s d sink).regs = s.regs ∧
    (idleWake s d sink).fr = s.fr ∧
    (idleWake s d sink).mx = s.mx ∧
    (idleWake s d sink).fx = s.fx ∧
    (idleWake s d sink).ps = s.ps ∧
    (idleWake s d sink).sp = s.sp ∧
    (idleWake s d sink).ai = s.ai ∧
    (idleWake s d sink).aq = s.aq ∧
    (idleWake s d sink).dp = s.dp ∧
    (idleWake s d sink).ck = s.ck ∧
    (idleWake s d sink).sc = s.sc ∧
    (idleWake s d sink).st = s.st ∧
    (idleWake s d sink).sv = s.sv ∧
    (idleWake s d sink).ct = s.ct ∧
    (idleWake s d sink).pl = s.pl ∧
    (idleWake s d sink).vc = s.vc ∧
    (idleWake s d sink).hl.locked = s.hl.locked := by
  unfold Machine.idleWake; first | (simp; done) | ((repeat' split) <;> simp; done) | (dsimp only; (repeat' split) <;> simp; done)
@[simp] theorem idleWakeDie_keeps {value : Nat → Int} {s : State} {d : PowerDie} :
    (idleWakeDie value s d).pending = s.pending ∧
    (idleWakeDie value s d).now = s.now ∧
    (idleWakeDie value s d).regs = s.regs ∧
    (idleWakeDie value s d).fr = s.fr ∧
    (idleWakeDie value s d).mx = s.mx ∧
    (idleWakeDie value s d).fx = s.fx ∧
    (idleWakeDie value s d).ps = s.ps ∧
    (idleWakeDie value s d).sp = s.sp ∧
    (idleWakeDie value s d).ai = s.ai ∧
    (idleWakeDie value s d).aq = s.aq ∧
    (idleWakeDie value s d).dp = s.dp ∧
    (idleWakeDie value s d).ck = s.ck ∧
    (idleWakeDie value s d).sc = s.sc ∧
    (idleWakeDie value s d).st = s.st ∧
    (idleWakeDie value s d).sv = s.sv ∧
    (idleWakeDie value s d).ct = s.ct ∧
    (idleWakeDie value s d).pl = s.pl ∧
    (idleWakeDie value s d).vc = s.vc ∧
    (idleWakeDie value s d).hl.locked = s.hl.locked := by
  unfold Machine.idleWakeDie; first | (simp; done) | ((repeat' split) <;> simp; done) | (dsimp only; (repeat' split) <;> simp; done)
@[simp] theorem idleWakes_keeps {s : State} {value : Nat → Int} :
    (idleWakes s value).pending = s.pending ∧
    (idleWakes s value).now = s.now ∧
    (idleWakes s value).regs = s.regs ∧
    (idleWakes s value).fr = s.fr ∧
    (idleWakes s value).mx = s.mx ∧
    (idleWakes s value).fx = s.fx ∧
    (idleWakes s value).ps = s.ps ∧
    (idleWakes s value).sp = s.sp ∧
    (idleWakes s value).ai = s.ai ∧
    (idleWakes s value).aq = s.aq ∧
    (idleWakes s value).dp = s.dp ∧
    (idleWakes s value).ck = s.ck ∧
    (idleWakes s value).sc = s.sc ∧
    (idleWakes s value).st = s.st ∧
    (idleWakes s value).sv = s.sv ∧
    (idleWakes s value).ct = s.ct ∧
    (idleWakes s value).pl = s.pl ∧
    (idleWakes s value).vc = s.vc ∧
    (idleWakes s value).hl.locked = s.hl.locked := by
  unfold Machine.idleWakes; first | (simp; done) | ((repeat' split) <;> simp; done) | (dsimp only; (repeat' split) <;> simp; done)
@[simp] theorem dieStrobe_keeps {s : State} {d : PowerDie} {pvdd : BitVec 16} {temp : BitVec 16} :
    (dieStrobe s d pvdd temp).pending = s.pending ∧
    (dieStrobe s d pvdd temp).now = s.now ∧
    (dieStrobe s d pvdd temp).out = s.out ∧
    (dieStrobe s d pvdd temp).regs = s.regs ∧
    (dieStrobe s d pvdd temp).fr = s.fr ∧
    (dieStrobe s d pvdd temp).mx = s.mx ∧
    (dieStrobe s d pvdd temp).fx = s.fx ∧
    (dieStrobe s d pvdd temp).sp = s.sp ∧
    (dieStrobe s d pvdd temp).ai = s.ai ∧
    (dieStrobe s d pvdd temp).aq = s.aq ∧
    (dieStrobe s d pvdd temp).dp = s.dp ∧
    (dieStrobe s d pvdd temp).ck = s.ck ∧
    (dieStrobe s d pvdd temp).sc = s.sc ∧
    (dieStrobe s d pvdd temp).hl = s.hl ∧
    (dieStrobe s d pvdd temp).st = s.st ∧
    (dieStrobe s d pvdd temp).tw = s.tw ∧
    (dieStrobe s d pvdd temp).sv = s.sv ∧
    (dieStrobe s d pvdd temp).pd = s.pd ∧
    (dieStrobe s d pvdd temp).ct = s.ct ∧
    (dieStrobe s d pvdd temp).pl = s.pl ∧
    (dieStrobe s d pvdd temp).vc = s.vc := by
  unfold Machine.dieStrobe; first | (simp; done) | ((repeat' split) <;> simp; done) | (dsimp only; (repeat' split) <;> simp; done)
@[simp] theorem chStrobe_keeps {clip : Tbl Word} {s : State} {c : Nat} :
    (chStrobe clip s c).pending = s.pending ∧
    (chStrobe clip s c).now = s.now ∧
    (chStrobe clip s c).out = s.out ∧
    (chStrobe clip s c).regs = s.regs ∧
    (chStrobe clip s c).fr = s.fr ∧
    (chStrobe clip s c).mx = s.mx ∧
    (chStrobe clip s c).fx = s.fx ∧
    (chStrobe clip s c).sp = s.sp ∧
    (chStrobe clip s c).ai = s.ai ∧
    (chStrobe clip s c).aq = s.aq ∧
    (chStrobe clip s c).dp = s.dp ∧
    (chStrobe clip s c).ck = s.ck ∧
    (chStrobe clip s c).sc = s.sc ∧
    (chStrobe clip s c).hl = s.hl ∧
    (chStrobe clip s c).st = s.st ∧
    (chStrobe clip s c).tw = s.tw ∧
    (chStrobe clip s c).sv = s.sv ∧
    (chStrobe clip s c).pd = s.pd ∧
    (chStrobe clip s c).ct = s.ct ∧
    (chStrobe clip s c).pl = s.pl ∧
    (chStrobe clip s c).vc = s.vc := by
  unfold Machine.chStrobe; first | (simp; done) | ((repeat' split) <;> simp; done) | (dsimp only; (repeat' split) <;> simp; done)
@[simp] theorem powerStrobe_keeps {s : State} {x : StrobeIn} :
    (powerStrobe s x).pending = s.pending ∧
    (powerStrobe s x).now = s.now ∧
    (powerStrobe s x).regs = s.regs ∧
    (powerStrobe s x).fr = s.fr ∧
    (powerStrobe s x).mx = s.mx ∧
    (powerStrobe s x).fx = s.fx ∧
    (powerStrobe s x).sp = s.sp ∧
    (powerStrobe s x).ai = s.ai ∧
    (powerStrobe s x).aq = s.aq ∧
    (powerStrobe s x).dp = s.dp ∧
    (powerStrobe s x).ck = s.ck ∧
    (powerStrobe s x).sc = s.sc ∧
    (powerStrobe s x).st = s.st ∧
    (powerStrobe s x).sv = s.sv ∧
    (powerStrobe s x).pd = s.pd ∧
    (powerStrobe s x).ct = s.ct ∧
    (powerStrobe s x).pl = s.pl ∧
    (powerStrobe s x).vc = s.vc ∧
    (powerStrobe s x).hl.locked = s.hl.locked := by
  unfold Machine.powerStrobe; first | (simp; done) | ((repeat' split) <;> simp; done) | (dsimp only; (repeat' split) <;> simp; done)
@[simp] theorem setSpCh_keeps {s : State} {c : Nat} {x : SpCh} :
    (setSpCh s c x).pending = s.pending ∧
    (setSpCh s c x).now = s.now ∧
    (setSpCh s c x).out = s.out ∧
    (setSpCh s c x).regs = s.regs ∧
    (setSpCh s c x).fr = s.fr ∧
    (setSpCh s c x).mx = s.mx ∧
    (setSpCh s c x).fx = s.fx ∧
    (setSpCh s c x).ps = s.ps ∧
    (setSpCh s c x).ai = s.ai ∧
    (setSpCh s c x).aq = s.aq ∧
    (setSpCh s c x).dp = s.dp ∧
    (setSpCh s c x).ck = s.ck ∧
    (setSpCh s c x).sc = s.sc ∧
    (setSpCh s c x).hl = s.hl ∧
    (setSpCh s c x).st = s.st ∧
    (setSpCh s c x).tw = s.tw ∧
    (setSpCh s c x).sv = s.sv ∧
    (setSpCh s c x).pd = s.pd ∧
    (setSpCh s c x).ct = s.ct ∧
    (setSpCh s c x).pl = s.pl ∧
    (setSpCh s c x).vc = s.vc := by
  unfold Machine.setSpCh; first | (simp; done) | ((repeat' split) <;> simp; done) | (dsimp only; (repeat' split) <;> simp; done)
@[simp] theorem latchShare_keeps {s : State} {c : Nat} :
    (latchShare s c).pending = s.pending ∧
    (latchShare s c).now = s.now ∧
    (latchShare s c).out = s.out ∧
    (latchShare s c).regs = s.regs ∧
    (latchShare s c).fr = s.fr ∧
    (latchShare s c).mx = s.mx ∧
    (latchShare s c).fx = s.fx ∧
    (latchShare s c).ps = s.ps ∧
    (latchShare s c).ai = s.ai ∧
    (latchShare s c).aq = s.aq ∧
    (latchShare s c).dp = s.dp ∧
    (latchShare s c).ck = s.ck ∧
    (latchShare s c).sc = s.sc ∧
    (latchShare s c).hl = s.hl ∧
    (latchShare s c).st = s.st ∧
    (latchShare s c).tw = s.tw ∧
    (latchShare s c).sv = s.sv ∧
    (latchShare s c).pd = s.pd ∧
    (latchShare s c).ct = s.ct ∧
    (latchShare s c).pl = s.pl ∧
    (latchShare s c).vc = s.vc := by
  unfold Machine.latchShare; first | (simp; done) | ((repeat' split) <;> simp; done) | (dsimp only; (repeat' split) <;> simp; done)
@[simp] theorem limitEvents_keeps {s : State} {c : Nat} {before : Bool} :
    (limitEvents s c before).pending = s.pending ∧
    (limitEvents s c before).now = s.now ∧
    (limitEvents s c before).regs = s.regs ∧
    (limitEvents s c before).fr = s.fr ∧
    (limitEvents s c before).mx = s.mx ∧
    (limitEvents s c before).fx = s.fx ∧
    (limitEvents s c before).ps = s.ps ∧
    (limitEvents s c before).ai = s.ai ∧
    (limitEvents s c before).aq = s.aq ∧
    (limitEvents s c before).dp = s.dp ∧
    (limitEvents s c before).ck = s.ck ∧
    (limitEvents s c before).sc = s.sc ∧
    (limitEvents s c before).st = s.st ∧
    (limitEvents s c before).sv = s.sv ∧
    (limitEvents s c before).pd = s.pd ∧
    (limitEvents s c before).ct = s.ct ∧
    (limitEvents s c before).pl = s.pl ∧
    (limitEvents s c before).vc = s.vc ∧
    (limitEvents s c before).hl.locked = s.hl.locked := by
  unfold Machine.limitEvents; first | (simp; done) | ((repeat' split) <;> simp; done) | (dsimp only; (repeat' split) <;> simp; done)
@[simp] theorem overExcursion_keeps {s : State} {c : Nat} :
    (overExcursion s c).pending = s.pending ∧
    (overExcursion s c).now = s.now ∧
    (overExcursion s c).regs = s.regs ∧
    (overExcursion s c).fr = s.fr ∧
    (overExcursion s c).mx = s.mx ∧
    (overExcursion s c).fx = s.fx ∧
    (overExcursion s c).ps = s.ps ∧
    (overExcursion s c).ai = s.ai ∧
    (overExcursion s c).aq = s.aq ∧
    (overExcursion s c).dp = s.dp ∧
    (overExcursion s c).ck = s.ck ∧
    (overExcursion s c).sc = s.sc ∧
    (overExcursion s c).st = s.st ∧
    (overExcursion s c).sv = s.sv ∧
    (overExcursion s c).pd = s.pd ∧
    (overExcursion s c).ct = s.ct ∧
    (overExcursion s c).pl = s.pl ∧
    (overExcursion s c).vc = s.vc ∧
    (overExcursion s c).hl.locked = s.hl.locked := by
  unfold Machine.overExcursion; first | (simp; done) | ((repeat' split) <;> simp; done) | (dsimp only; (repeat' split) <;> simp; done)
@[simp] theorem validWindow_keeps {s : State} {c : Nat} :
    (validWindow s c).pending = s.pending ∧
    (validWindow s c).now = s.now ∧
    (validWindow s c).regs = s.regs ∧
    (validWindow s c).fr = s.fr ∧
    (validWindow s c).mx = s.mx ∧
    (validWindow s c).fx = s.fx ∧
    (validWindow s c).ps = s.ps ∧
    (validWindow s c).ai = s.ai ∧
    (validWindow s c).aq = s.aq ∧
    (validWindow s c).dp = s.dp ∧
    (validWindow s c).ck = s.ck ∧
    (validWindow s c).sc = s.sc ∧
    (validWindow s c).st = s.st ∧
    (validWindow s c).sv = s.sv ∧
    (validWindow s c).pd = s.pd ∧
    (validWindow s c).ct = s.ct ∧
    (validWindow s c).pl = s.pl ∧
    (validWindow s c).vc = s.vc ∧
    (validWindow s c).hl.locked = s.hl.locked := by
  unfold Machine.validWindow; first | (simp; done) | ((repeat' split) <;> simp; done) | (dsimp only; (repeat' split) <;> simp; done)
@[simp] theorem windowEnd_keeps {s : State} {c : Nat} :
    (windowEnd s c).pending = s.pending ∧
    (windowEnd s c).now = s.now ∧
    (windowEnd s c).regs = s.regs ∧
    (windowEnd s c).fr = s.fr ∧
    (windowEnd s c).mx = s.mx ∧
    (windowEnd s c).fx = s.fx ∧
    (windowEnd s c).ps = s.ps ∧
    (windowEnd s c).ai = s.ai ∧
    (windowEnd s c).aq = s.aq ∧
    (windowEnd s c).dp = s.dp ∧
    (windowEnd s c).ck = s.ck ∧
    (windowEnd s c).sc = s.sc ∧
    (windowEnd s c).st = s.st ∧
    (windowEnd s c).sv = s.sv ∧
    (windowEnd s c).pd = s.pd ∧
    (windowEnd s c).ct = s.ct ∧
    (windowEnd s c).pl = s.pl ∧
    (windowEnd s c).vc = s.vc ∧
    (windowEnd s c).hl.locked = s.hl.locked := by
  unfold Machine.windowEnd; first | (simp; done) | ((repeat' split) <;> simp; done) | (dsimp only; (repeat' split) <;> simp; done)
@[simp] theorem windowStrobe_keeps {cur : Tbl Word} {s : State} {c : Nat} :
    (windowStrobe cur s c).pending = s.pending ∧
    (windowStrobe cur s c).now = s.now ∧
    (windowStrobe cur s c).regs = s.regs ∧
    (windowStrobe cur s c).fr = s.fr ∧
    (windowStrobe cur s c).mx = s.mx ∧
    (windowStrobe cur s c).fx = s.fx ∧
    (windowStrobe cur s c).ps = s.ps ∧
    (windowStrobe cur s c).ai = s.ai ∧
    (windowStrobe cur s c).aq = s.aq ∧
    (windowStrobe cur s c).dp = s.dp ∧
    (windowStrobe cur s c).ck = s.ck ∧
    (windowStrobe cur s c).sc = s.sc ∧
    (windowStrobe cur s c).st = s.st ∧
    (windowStrobe cur s c).sv = s.sv ∧
    (windowStrobe cur s c).pd = s.pd ∧
    (windowStrobe cur s c).ct = s.ct ∧
    (windowStrobe cur s c).pl = s.pl ∧
    (windowStrobe cur s c).vc = s.vc ∧
    (windowStrobe cur s c).hl.locked = s.hl.locked := by
  unfold Machine.windowStrobe; first | (simp; done) | ((repeat' split) <;> simp; done) | (dsimp only; (repeat' split) <;> simp; done)
@[simp] theorem passOn_keeps {clip : Tbl Word} {s : State} {c : Nat} :
    (passOn clip s c).pending = s.pending ∧
    (passOn clip s c).now = s.now ∧
    (passOn clip s c).out = s.out ∧
    (passOn clip s c).regs = s.regs ∧
    (passOn clip s c).fr = s.fr ∧
    (passOn clip s c).mx = s.mx ∧
    (passOn clip s c).fx = s.fx ∧
    (passOn clip s c).sp = s.sp ∧
    (passOn clip s c).ai = s.ai ∧
    (passOn clip s c).aq = s.aq ∧
    (passOn clip s c).dp = s.dp ∧
    (passOn clip s c).ck = s.ck ∧
    (passOn clip s c).sc = s.sc ∧
    (passOn clip s c).hl = s.hl ∧
    (passOn clip s c).st = s.st ∧
    (passOn clip s c).tw = s.tw ∧
    (passOn clip s c).sv = s.sv ∧
    (passOn clip s c).pd = s.pd ∧
    (passOn clip s c).ct = s.ct ∧
    (passOn clip s c).pl = s.pl ∧
    (passOn clip s c).vc = s.vc := by
  unfold Machine.passOn; first | (simp; done) | ((repeat' split) <;> simp; done) | (dsimp only; (repeat' split) <;> simp; done)
@[simp] theorem thermalMute_keeps {s : State} {c : Nat} :
    (thermalMute s c).pending = s.pending ∧
    (thermalMute s c).now = s.now ∧
    (thermalMute s c).regs = s.regs ∧
    (thermalMute s c).fr = s.fr ∧
    (thermalMute s c).mx = s.mx ∧
    (thermalMute s c).fx = s.fx ∧
    (thermalMute s c).ps = s.ps ∧
    (thermalMute s c).sp = s.sp ∧
    (thermalMute s c).ai = s.ai ∧
    (thermalMute s c).aq = s.aq ∧
    (thermalMute s c).dp = s.dp ∧
    (thermalMute s c).ck = s.ck ∧
    (thermalMute s c).sc = s.sc ∧
    (thermalMute s c).st = s.st ∧
    (thermalMute s c).sv = s.sv ∧
    (thermalMute s c).pd = s.pd ∧
    (thermalMute s c).ct = s.ct ∧
    (thermalMute s c).pl = s.pl ∧
    (thermalMute s c).vc = s.vc ∧
    (thermalMute s c).hl.locked = s.hl.locked := by
  unfold Machine.thermalMute; first | (simp; done) | ((repeat' split) <;> simp; done) | (dsimp only; (repeat' split) <;> simp; done)
@[simp] theorem protectCh_keeps {cur : Tbl Word} {s : State} {c : Nat} :
    (protectCh cur s c).pending = s.pending ∧
    (protectCh cur s c).now = s.now ∧
    (protectCh cur s c).regs = s.regs ∧
    (protectCh cur s c).fr = s.fr ∧
    (protectCh cur s c).mx = s.mx ∧
    (protectCh cur s c).fx = s.fx ∧
    (protectCh cur s c).ps = s.ps ∧
    (protectCh cur s c).ai = s.ai ∧
    (protectCh cur s c).aq = s.aq ∧
    (protectCh cur s c).dp = s.dp ∧
    (protectCh cur s c).ck = s.ck ∧
    (protectCh cur s c).sc = s.sc ∧
    (protectCh cur s c).st = s.st ∧
    (protectCh cur s c).sv = s.sv ∧
    (protectCh cur s c).pd = s.pd ∧
    (protectCh cur s c).ct = s.ct ∧
    (protectCh cur s c).pl = s.pl ∧
    (protectCh cur s c).vc = s.vc ∧
    (protectCh cur s c).hl.locked = s.hl.locked := by
  unfold Machine.protectCh; first | (simp; done) | ((repeat' split) <;> simp; done) | (dsimp only; (repeat' split) <;> simp; done)
@[simp] theorem protectStrobe_keeps {s : State} {x : StrobeIn} :
    (protectStrobe s x).pending = s.pending ∧
    (protectStrobe s x).now = s.now ∧
    (protectStrobe s x).regs = s.regs ∧
    (protectStrobe s x).fr = s.fr ∧
    (protectStrobe s x).mx = s.mx ∧
    (protectStrobe s x).fx = s.fx ∧
    (protectStrobe s x).ai = s.ai ∧
    (protectStrobe s x).aq = s.aq ∧
    (protectStrobe s x).dp = s.dp ∧
    (protectStrobe s x).ck = s.ck ∧
    (protectStrobe s x).sc = s.sc ∧
    (protectStrobe s x).st = s.st ∧
    (protectStrobe s x).sv = s.sv ∧
    (protectStrobe s x).pd = s.pd ∧
    (protectStrobe s x).ct = s.ct ∧
    (protectStrobe s x).pl = s.pl ∧
    (protectStrobe s x).vc = s.vc ∧
    (protectStrobe s x).hl.locked = s.hl.locked := by
  unfold Machine.protectStrobe; first | (simp; done) | ((repeat' split) <;> simp; done) | (dsimp only; (repeat' split) <;> simp; done)
@[simp] theorem impClear_keeps {s : State} {c : Nat} :
    (impClear s c).pending = s.pending ∧
    (impClear s c).now = s.now ∧
    (impClear s c).regs = s.regs ∧
    (impClear s c).fr = s.fr ∧
    (impClear s c).mx = s.mx ∧
    (impClear s c).fx = s.fx ∧
    (impClear s c).ps = s.ps ∧
    (impClear s c).ai = s.ai ∧
    (impClear s c).aq = s.aq ∧
    (impClear s c).dp = s.dp ∧
    (impClear s c).ck = s.ck ∧
    (impClear s c).sc = s.sc ∧
    (impClear s c).st = s.st ∧
    (impClear s c).sv = s.sv ∧
    (impClear s c).pd = s.pd ∧
    (impClear s c).ct = s.ct ∧
    (impClear s c).pl = s.pl ∧
    (impClear s c).vc = s.vc ∧
    (impClear s c).hl.locked = s.hl.locked := by
  unfold Machine.impClear; first | (simp; done) | ((repeat' split) <;> simp; done) | (dsimp only; (repeat' split) <;> simp; done)
@[simp] theorem peakClear_keeps {s : State} {c : Nat} :
    (peakClear s c).pending = s.pending ∧
    (peakClear s c).now = s.now ∧
    (peakClear s c).out = s.out ∧
    (peakClear s c).regs = s.regs ∧
    (peakClear s c).fr = s.fr ∧
    (peakClear s c).mx = s.mx ∧
    (peakClear s c).fx = s.fx ∧
    (peakClear s c).ps = s.ps ∧
    (peakClear s c).ai = s.ai ∧
    (peakClear s c).aq = s.aq ∧
    (peakClear s c).dp = s.dp ∧
    (peakClear s c).ck = s.ck ∧
    (peakClear s c).sc = s.sc ∧
    (peakClear s c).hl = s.hl ∧
    (peakClear s c).st = s.st ∧
    (peakClear s c).tw = s.tw ∧
    (peakClear s c).sv = s.sv ∧
    (peakClear s c).pd = s.pd ∧
    (peakClear s c).ct = s.ct ∧
    (peakClear s c).pl = s.pl ∧
    (peakClear s c).vc = s.vc := by
  unfold Machine.peakClear; first | (simp; done) | ((repeat' split) <;> simp; done) | (dsimp only; (repeat' split) <;> simp; done)
@[simp] theorem setSolo_keeps {s : State} {c : Nat} {v : Bool} :
    (setSolo s c v).pending = s.pending ∧
    (setSolo s c v).now = s.now ∧
    (setSolo s c v).regs = s.regs ∧
    (setSolo s c v).fr = s.fr ∧
    (setSolo s c v).mx = s.mx ∧
    (setSolo s c v).fx = s.fx ∧
    (setSolo s c v).ps = s.ps ∧
    (setSolo s c v).ai = s.ai ∧
    (setSolo s c v).aq = s.aq ∧
    (setSolo s c v).dp = s.dp ∧
    (setSolo s c v).ck = s.ck ∧
    (setSolo s c v).sc = s.sc ∧
    (setSolo s c v).st = s.st ∧
    (setSolo s c v).sv = s.sv ∧
    (setSolo s c v).pd = s.pd ∧
    (setSolo s c v).ct = s.ct ∧
    (setSolo s c v).pl = s.pl ∧
    (setSolo s c v).vc = s.vc ∧
    (setSolo s c v).hl.locked = s.hl.locked := by
  unfold Machine.setSolo; first | (simp; done) | ((repeat' split) <;> simp; done) | (dsimp only; (repeat' split) <;> simp; done)
@[simp] theorem limitRefused_keeps {s : State} {c : Nat} {off : Nat} :
    (limitRefused s c off).pending = s.pending ∧
    (limitRefused s c off).now = s.now ∧
    (limitRefused s c off).regs = s.regs ∧
    (limitRefused s c off).fr = s.fr ∧
    (limitRefused s c off).mx = s.mx ∧
    (limitRefused s c off).fx = s.fx ∧
    (limitRefused s c off).ps = s.ps ∧
    (limitRefused s c off).ai = s.ai ∧
    (limitRefused s c off).aq = s.aq ∧
    (limitRefused s c off).dp = s.dp ∧
    (limitRefused s c off).ck = s.ck ∧
    (limitRefused s c off).sc = s.sc ∧
    (limitRefused s c off).st = s.st ∧
    (limitRefused s c off).sv = s.sv ∧
    (limitRefused s c off).pd = s.pd ∧
    (limitRefused s c off).ct = s.ct ∧
    (limitRefused s c off).pl = s.pl ∧
    (limitRefused s c off).vc = s.vc ∧
    (limitRefused s c off).hl.locked = s.hl.locked := by
  unfold Machine.limitRefused; first | (simp; done) | ((repeat' split) <;> simp; done) | (dsimp only; (repeat' split) <;> simp; done)
@[simp] theorem spWrite_keeps {s : State} {c : Nat} {n : RegName} {v : Word} :
    (spWrite s c n v).pending = s.pending ∧
    (spWrite s c n v).now = s.now ∧
    (spWrite s c n v).fr = s.fr ∧
    (spWrite s c n v).mx = s.mx ∧
    (spWrite s c n v).fx = s.fx ∧
    (spWrite s c n v).ps = s.ps ∧
    (spWrite s c n v).ai = s.ai ∧
    (spWrite s c n v).aq = s.aq ∧
    (spWrite s c n v).dp = s.dp ∧
    (spWrite s c n v).ck = s.ck ∧
    (spWrite s c n v).sc = s.sc ∧
    (spWrite s c n v).st = s.st ∧
    (spWrite s c n v).sv = s.sv ∧
    (spWrite s c n v).pd = s.pd ∧
    (spWrite s c n v).ct = s.ct ∧
    (spWrite s c n v).pl = s.pl ∧
    (spWrite s c n v).vc = s.vc ∧
    (spWrite s c n v).hl.locked = s.hl.locked := by
  unfold Machine.spWrite; first | (simp; done) | ((repeat' split) <;> simp; done) | (dsimp only; (repeat' split) <;> simp; done)
@[simp] theorem applyEnvCh_keeps {s : State} {p : Nat × Env} :
    (applyEnvCh s p).pending = s.pending ∧
    (applyEnvCh s p).now = s.now ∧
    (applyEnvCh s p).fr = s.fr ∧
    (applyEnvCh s p).mx = s.mx ∧
    (applyEnvCh s p).fx = s.fx ∧
    (applyEnvCh s p).ps = s.ps ∧
    (applyEnvCh s p).ai = s.ai ∧
    (applyEnvCh s p).aq = s.aq ∧
    (applyEnvCh s p).dp = s.dp ∧
    (applyEnvCh s p).ck = s.ck ∧
    (applyEnvCh s p).sc = s.sc ∧
    (applyEnvCh s p).st = s.st ∧
    (applyEnvCh s p).sv = s.sv ∧
    (applyEnvCh s p).pd = s.pd ∧
    (applyEnvCh s p).ct = s.ct ∧
    (applyEnvCh s p).pl = s.pl ∧
    (applyEnvCh s p).vc = s.vc ∧
    (applyEnvCh s p).hl.locked = s.hl.locked := by
  unfold Machine.applyEnvCh; first | (simp; done) | ((repeat' split) <;> simp; done) | (dsimp only; (repeat' split) <;> simp; done)
@[simp] theorem applyEnv_keeps {s : State} {l : List (Nat × Env)} :
    (applyEnv s l).pending = s.pending ∧
    (applyEnv s l).now = s.now ∧
    (applyEnv s l).fr = s.fr ∧
    (applyEnv s l).mx = s.mx ∧
    (applyEnv s l).fx = s.fx ∧
    (applyEnv s l).ps = s.ps ∧
    (applyEnv s l).ai = s.ai ∧
    (applyEnv s l).aq = s.aq ∧
    (applyEnv s l).dp = s.dp ∧
    (applyEnv s l).ck = s.ck ∧
    (applyEnv s l).sc = s.sc ∧
    (applyEnv s l).st = s.st ∧
    (applyEnv s l).sv = s.sv ∧
    (applyEnv s l).pd = s.pd ∧
    (applyEnv s l).ct = s.ct ∧
    (applyEnv s l).pl = s.pl ∧
    (applyEnv s l).vc = s.vc ∧
    (applyEnv s l).hl.locked = s.hl.locked := by
  unfold Machine.applyEnv; first | (simp; done) | ((repeat' split) <;> simp; done) | (dsimp only; (repeat' split) <;> simp; done)
@[simp] theorem applyEnvClear_keeps {s : State} {mask : Nat} :
    (applyEnvClear s mask).pending = s.pending ∧
    (applyEnvClear s mask).now = s.now ∧
    (applyEnvClear s mask).out = s.out ∧
    (applyEnvClear s mask).fr = s.fr ∧
    (applyEnvClear s mask).mx = s.mx ∧
    (applyEnvClear s mask).fx = s.fx ∧
    (applyEnvClear s mask).ps = s.ps ∧
    (applyEnvClear s mask).ai = s.ai ∧
    (applyEnvClear s mask).aq = s.aq ∧
    (applyEnvClear s mask).dp = s.dp ∧
    (applyEnvClear s mask).ck = s.ck ∧
    (applyEnvClear s mask).sc = s.sc ∧
    (applyEnvClear s mask).hl = s.hl ∧
    (applyEnvClear s mask).st = s.st ∧
    (applyEnvClear s mask).tw = s.tw ∧
    (applyEnvClear s mask).sv = s.sv ∧
    (applyEnvClear s mask).pd = s.pd ∧
    (applyEnvClear s mask).ct = s.ct ∧
    (applyEnvClear s mask).pl = s.pl ∧
    (applyEnvClear s mask).vc = s.vc := by
  unfold Machine.applyEnvClear; first | (simp; done) | ((repeat' split) <;> simp; done) | (dsimp only; (repeat' split) <;> simp; done)
@[simp] theorem storeEnv_keeps {s : State} {img : Bytes} {marks : List Nat} {lines : List Nat} :
    (storeEnv s img marks lines).pending = s.pending ∧
    (storeEnv s img marks lines).now = s.now ∧
    (storeEnv s img marks lines).regs = s.regs ∧
    (storeEnv s img marks lines).fr = s.fr ∧
    (storeEnv s img marks lines).mx = s.mx ∧
    (storeEnv s img marks lines).fx = s.fx ∧
    (storeEnv s img marks lines).ps = s.ps ∧
    (storeEnv s img marks lines).sp = s.sp ∧
    (storeEnv s img marks lines).ai = s.ai ∧
    (storeEnv s img marks lines).aq = s.aq ∧
    (storeEnv s img marks lines).dp = s.dp ∧
    (storeEnv s img marks lines).ck = s.ck ∧
    (storeEnv s img marks lines).sc = s.sc ∧
    (storeEnv s img marks lines).st = s.st ∧
    (storeEnv s img marks lines).pd = s.pd ∧
    (storeEnv s img marks lines).ct = s.ct ∧
    (storeEnv s img marks lines).pl = s.pl ∧
    (storeEnv s img marks lines).vc = s.vc ∧
    (storeEnv s img marks lines).hl.locked = s.hl.locked := by
  unfold Machine.storeEnv; first | (simp; done) | ((repeat' split) <;> simp; done) | (dsimp only; (repeat' split) <;> simp; done)
@[simp] theorem envLoaded_keeps {s : State} {us : Word} {container : Bool} {img : Bytes} {src : Owner} {nvOk : Bool} :
    (envLoaded s us container img src nvOk).pending = s.pending ∧
    (envLoaded s us container img src nvOk).now = s.now ∧
    (envLoaded s us container img src nvOk).regs = s.regs ∧
    (envLoaded s us container img src nvOk).mx = s.mx ∧
    (envLoaded s us container img src nvOk).fx = s.fx ∧
    (envLoaded s us container img src nvOk).ps = s.ps ∧
    (envLoaded s us container img src nvOk).sp = s.sp ∧
    (envLoaded s us container img src nvOk).ai = s.ai ∧
    (envLoaded s us container img src nvOk).aq = s.aq ∧
    (envLoaded s us container img src nvOk).dp = s.dp ∧
    (envLoaded s us container img src nvOk).ck = s.ck ∧
    (envLoaded s us container img src nvOk).sc = s.sc ∧
    (envLoaded s us container img src nvOk).st = s.st ∧
    (envLoaded s us container img src nvOk).pd = s.pd ∧
    (envLoaded s us container img src nvOk).ct = s.ct ∧
    (envLoaded s us container img src nvOk).vc = s.vc ∧
    (envLoaded s us container img src nvOk).fr.fn = s.fr.fn ∧
    (envLoaded s us container img src nvOk).fr.next = s.fr.next ∧
    (envLoaded s us container img src nvOk).fr.running = s.fr.running ∧
    (envLoaded s us container img src nvOk).hl.locked = s.hl.locked := by
  unfold Machine.envLoaded; first | (simp; done) | ((repeat' split) <;> simp; done) | (dsimp only; (repeat' split) <;> simp; done)
@[simp] theorem drawIn_keeps {lo : Nat} {hi : Nat} {s : State} :
    (drawIn lo hi s).2.pending = s.pending ∧
    (drawIn lo hi s).2.now = s.now ∧
    (drawIn lo hi s).2.out = s.out ∧
    (drawIn lo hi s).2.regs = s.regs ∧
    (drawIn lo hi s).2.fr = s.fr ∧
    (drawIn lo hi s).2.mx = s.mx ∧
    (drawIn lo hi s).2.fx = s.fx ∧
    (drawIn lo hi s).2.ps = s.ps ∧
    (drawIn lo hi s).2.sp = s.sp ∧
    (drawIn lo hi s).2.ai = s.ai ∧
    (drawIn lo hi s).2.aq = s.aq ∧
    (drawIn lo hi s).2.dp = s.dp ∧
    (drawIn lo hi s).2.ck = s.ck ∧
    (drawIn lo hi s).2.sc = s.sc ∧
    (drawIn lo hi s).2.hl = s.hl ∧
    (drawIn lo hi s).2.st = s.st ∧
    (drawIn lo hi s).2.tw = s.tw ∧
    (drawIn lo hi s).2.sv = s.sv ∧
    (drawIn lo hi s).2.pd = s.pd ∧
    (drawIn lo hi s).2.ct = s.ct ∧
    (drawIn lo hi s).2.pl = s.pl ∧
    (drawIn lo hi s).2.vc = s.vc := by
  unfold Machine.drawIn; first | (simp; done) | ((repeat' split) <;> simp; done) | (dsimp only; (repeat' split) <;> simp; done)
@[simp] theorem failSafe_keeps {s : State} :
    (failSafe s).2.pending = s.pending ∧
    (failSafe s).2.now = s.now ∧
    (failSafe s).2.out = s.out ∧
    (failSafe s).2.regs = s.regs ∧
    (failSafe s).2.fr = s.fr ∧
    (failSafe s).2.mx = s.mx ∧
    (failSafe s).2.fx = s.fx ∧
    (failSafe s).2.ps = s.ps ∧
    (failSafe s).2.sp = s.sp ∧
    (failSafe s).2.ai = s.ai ∧
    (failSafe s).2.aq = s.aq ∧
    (failSafe s).2.dp = s.dp ∧
    (failSafe s).2.ck = s.ck ∧
    (failSafe s).2.sc = s.sc ∧
    (failSafe s).2.hl = s.hl ∧
    (failSafe s).2.st = s.st ∧
    (failSafe s).2.tw = s.tw ∧
    (failSafe s).2.sv = s.sv ∧
    (failSafe s).2.pd = s.pd ∧
    (failSafe s).2.ct = s.ct ∧
    (failSafe s).2.pl = s.pl ∧
    (failSafe s).2.vc = s.vc := by
  unfold Machine.failSafe; first | (simp; done) | ((repeat' split) <;> simp; done) | (dsimp only; (repeat' split) <;> simp; done)
@[simp] theorem applyFailSafe_keeps {s : State} {c : Nat} :
    (applyFailSafe s c).pending = s.pending ∧
    (applyFailSafe s c).now = s.now ∧
    (applyFailSafe s c).fr = s.fr ∧
    (applyFailSafe s c).mx = s.mx ∧
    (applyFailSafe s c).fx = s.fx ∧
    (applyFailSafe s c).ps = s.ps ∧
    (applyFailSafe s c).ai = s.ai ∧
    (applyFailSafe s c).aq = s.aq ∧
    (applyFailSafe s c).dp = s.dp ∧
    (applyFailSafe s c).ck = s.ck ∧
    (applyFailSafe s c).sc = s.sc ∧
    (applyFailSafe s c).st = s.st ∧
    (applyFailSafe s c).sv = s.sv ∧
    (applyFailSafe s c).pd = s.pd ∧
    (applyFailSafe s c).ct = s.ct ∧
    (applyFailSafe s c).pl = s.pl ∧
    (applyFailSafe s c).vc = s.vc ∧
    (applyFailSafe s c).hl.locked = s.hl.locked := by
  unfold Machine.applyFailSafe; first | (simp; done) | ((repeat' split) <;> simp; done) | (dsimp only; (repeat' split) <;> simp; done)
@[simp] theorem restoreEnvelope_keeps {s : State} {x : StoredEnv} :
    (restoreEnvelope s x).1.pending = s.pending ∧
    (restoreEnvelope s x).1.now = s.now ∧
    (restoreEnvelope s x).1.fr = s.fr ∧
    (restoreEnvelope s x).1.mx = s.mx ∧
    (restoreEnvelope s x).1.fx = s.fx ∧
    (restoreEnvelope s x).1.ps = s.ps ∧
    (restoreEnvelope s x).1.ai = s.ai ∧
    (restoreEnvelope s x).1.aq = s.aq ∧
    (restoreEnvelope s x).1.dp = s.dp ∧
    (restoreEnvelope s x).1.ck = s.ck ∧
    (restoreEnvelope s x).1.sc = s.sc ∧
    (restoreEnvelope s x).1.st = s.st ∧
    (restoreEnvelope s x).1.sv = s.sv ∧
    (restoreEnvelope s x).1.pd = s.pd ∧
    (restoreEnvelope s x).1.ct = s.ct ∧
    (restoreEnvelope s x).1.pl = s.pl ∧
    (restoreEnvelope s x).1.vc = s.vc ∧
    (restoreEnvelope s x).1.hl.locked = s.hl.locked := by
  unfold Machine.restoreEnvelope; first | (simp; done) | ((repeat' split) <;> simp; done) | (dsimp only; (repeat' split) <;> simp; done)
@[simp] theorem restoreEvent_keeps {s : State} {l : List (StoredEnv × Nat)} {why : Nat} :
    (restoreEvent s l why).pending = s.pending ∧
    (restoreEvent s l why).now = s.now ∧
    (restoreEvent s l why).regs = s.regs ∧
    (restoreEvent s l why).fr = s.fr ∧
    (restoreEvent s l why).mx = s.mx ∧
    (restoreEvent s l why).fx = s.fx ∧
    (restoreEvent s l why).ps = s.ps ∧
    (restoreEvent s l why).sp = s.sp ∧
    (restoreEvent s l why).ai = s.ai ∧
    (restoreEvent s l why).aq = s.aq ∧
    (restoreEvent s l why).dp = s.dp ∧
    (restoreEvent s l why).ck = s.ck ∧
    (restoreEvent s l why).sc = s.sc ∧
    (restoreEvent s l why).st = s.st ∧
    (restoreEvent s l why).sv = s.sv ∧
    (restoreEvent s l why).pd = s.pd ∧
    (restoreEvent s l why).ct = s.ct ∧
    (restoreEvent s l why).pl = s.pl ∧
    (restoreEvent s l why).vc = s.vc ∧
    (restoreEvent s l why).hl.locked = s.hl.locked := by
  unfold Machine.restoreEvent; first | (simp; done) | ((repeat' split) <;> simp; done) | (dsimp only; (repeat' split) <;> simp; done)
@[simp] theorem restoreAll_keeps {l : List StoredEnv} {s : State} :
    (restoreAll l s).1.pending = s.pending ∧
    (restoreAll l s).1.now = s.now ∧
    (restoreAll l s).1.fr = s.fr ∧
    (restoreAll l s).1.mx = s.mx ∧
    (restoreAll l s).1.fx = s.fx ∧
    (restoreAll l s).1.ps = s.ps ∧
    (restoreAll l s).1.ai = s.ai ∧
    (restoreAll l s).1.aq = s.aq ∧
    (restoreAll l s).1.dp = s.dp ∧
    (restoreAll l s).1.ck = s.ck ∧
    (restoreAll l s).1.sc = s.sc ∧
    (restoreAll l s).1.st = s.st ∧
    (restoreAll l s).1.sv = s.sv ∧
    (restoreAll l s).1.pd = s.pd ∧
    (restoreAll l s).1.ct = s.ct ∧
    (restoreAll l s).1.pl = s.pl ∧
    (restoreAll l s).1.vc = s.vc ∧
    (restoreAll l s).1.hl.locked = s.hl.locked := by
  induction l generalizing s with
  | nil => simp [restoreAll]
  | cons x r ih => simp [restoreAll, ih]
@[simp] theorem restoreEnvelopes_keeps {s : State} :
    (restoreEnvelopes s).pending = s.pending ∧
    (restoreEnvelopes s).now = s.now ∧
    (restoreEnvelopes s).fr = s.fr ∧
    (restoreEnvelopes s).mx = s.mx ∧
    (restoreEnvelopes s).fx = s.fx ∧
    (restoreEnvelopes s).ps = s.ps ∧
    (restoreEnvelopes s).ai = s.ai ∧
    (restoreEnvelopes s).aq = s.aq ∧
    (restoreEnvelopes s).dp = s.dp ∧
    (restoreEnvelopes s).ck = s.ck ∧
    (restoreEnvelopes s).sc = s.sc ∧
    (restoreEnvelopes s).st = s.st ∧
    (restoreEnvelopes s).sv = s.sv ∧
    (restoreEnvelopes s).pd = s.pd ∧
    (restoreEnvelopes s).ct = s.ct ∧
    (restoreEnvelopes s).pl = s.pl ∧
    (restoreEnvelopes s).vc = s.vc ∧
    (restoreEnvelopes s).hl.locked = s.hl.locked := by
  unfold Machine.restoreEnvelopes; first | (simp; done) | ((repeat' split) <;> simp; done) | (dsimp only; (repeat' split) <;> simp; done)
@[simp] theorem setAiCh_keeps {s : State} {n : Nat} {x : AiCh} :
    (setAiCh s n x).pending = s.pending ∧
    (setAiCh s n x).now = s.now ∧
    (setAiCh s n x).out = s.out ∧
    (setAiCh s n x).regs = s.regs ∧
    (setAiCh s n x).fr = s.fr ∧
    (setAiCh s n x).mx = s.mx ∧
    (setAiCh s n x).fx = s.fx ∧
    (setAiCh s n x).ps = s.ps ∧
    (setAiCh s n x).sp = s.sp ∧
    (setAiCh s n x).aq = s.aq ∧
    (setAiCh s n x).dp = s.dp ∧
    (setAiCh s n x).ck = s.ck ∧
    (setAiCh s n x).sc = s.sc ∧
    (setAiCh s n x).hl = s.hl ∧
    (setAiCh s n x).st = s.st ∧
    (setAiCh s n x).tw = s.tw ∧
    (setAiCh s n x).sv = s.sv ∧
    (setAiCh s n x).pd = s.pd ∧
    (setAiCh s n x).ct = s.ct ∧
    (setAiCh s n x).pl = s.pl ∧
    (setAiCh s n x).vc = s.vc := by
  unfold Machine.setAiCh; first | (simp; done) | ((repeat' split) <;> simp; done) | (dsimp only; (repeat' split) <;> simp; done)
@[simp] theorem setPdm_keeps {s : State} {m : Nat} {x : Pdm} :
    (setPdm s m x).pending = s.pending ∧
    (setPdm s m x).now = s.now ∧
    (setPdm s m x).out = s.out ∧
    (setPdm s m x).regs = s.regs ∧
    (setPdm s m x).fr = s.fr ∧
    (setPdm s m x).mx = s.mx ∧
    (setPdm s m x).fx = s.fx ∧
    (setPdm s m x).ps = s.ps ∧
    (setPdm s m x).sp = s.sp ∧
    (setPdm s m x).aq = s.aq ∧
    (setPdm s m x).dp = s.dp ∧
    (setPdm s m x).ck = s.ck ∧
    (setPdm s m x).sc = s.sc ∧
    (setPdm s m x).hl = s.hl ∧
    (setPdm s m x).st = s.st ∧
    (setPdm s m x).tw = s.tw ∧
    (setPdm s m x).sv = s.sv ∧
    (setPdm s m x).pd = s.pd ∧
    (setPdm s m x).ct = s.ct ∧
    (setPdm s m x).pl = s.pl ∧
    (setPdm s m x).vc = s.vc := by
  unfold Machine.setPdm; first | (simp; done) | ((repeat' split) <;> simp; done) | (dsimp only; (repeat' split) <;> simp; done)
@[simp] theorem setPdmClk_keeps {s : State} {k : Nat} {x : PdmClock} :
    (setPdmClk s k x).pending = s.pending ∧
    (setPdmClk s k x).now = s.now ∧
    (setPdmClk s k x).out = s.out ∧
    (setPdmClk s k x).regs = s.regs ∧
    (setPdmClk s k x).fr = s.fr ∧
    (setPdmClk s k x).mx = s.mx ∧
    (setPdmClk s k x).fx = s.fx ∧
    (setPdmClk s k x).ps = s.ps ∧
    (setPdmClk s k x).sp = s.sp ∧
    (setPdmClk s k x).aq = s.aq ∧
    (setPdmClk s k x).dp = s.dp ∧
    (setPdmClk s k x).ck = s.ck ∧
    (setPdmClk s k x).sc = s.sc ∧
    (setPdmClk s k x).hl = s.hl ∧
    (setPdmClk s k x).st = s.st ∧
    (setPdmClk s k x).tw = s.tw ∧
    (setPdmClk s k x).sv = s.sv ∧
    (setPdmClk s k x).pd = s.pd ∧
    (setPdmClk s k x).ct = s.ct ∧
    (setPdmClk s k x).pl = s.pl ∧
    (setPdmClk s k x).vc = s.vc := by
  unfold Machine.setPdmClk; first | (simp; done) | ((repeat' split) <;> simp; done) | (dsimp only; (repeat' split) <;> simp; done)
@[simp] theorem setBias_keeps {s : State} {b : Nat} {x : Bias} :
    (setBias s b x).pending = s.pending ∧
    (setBias s b x).now = s.now ∧
    (setBias s b x).out = s.out ∧
    (setBias s b x).regs = s.regs ∧
    (setBias s b x).fr = s.fr ∧
    (setBias s b x).mx = s.mx ∧
    (setBias s b x).fx = s.fx ∧
    (setBias s b x).ps = s.ps ∧
    (setBias s b x).sp = s.sp ∧
    (setBias s b x).aq = s.aq ∧
    (setBias s b x).dp = s.dp ∧
    (setBias s b x).ck = s.ck ∧
    (setBias s b x).sc = s.sc ∧
    (setBias s b x).hl = s.hl ∧
    (setBias s b x).st = s.st ∧
    (setBias s b x).tw = s.tw ∧
    (setBias s b x).sv = s.sv ∧
    (setBias s b x).pd = s.pd ∧
    (setBias s b x).ct = s.ct ∧
    (setBias s b x).pl = s.pl ∧
    (setBias s b x).vc = s.vc := by
  unfold Machine.setBias; first | (simp; done) | ((repeat' split) <;> simp; done) | (dsimp only; (repeat' split) <;> simp; done)
@[simp] theorem setAiJack_keeps {s : State} {j : Nat} {x : Jack} :
    (setAiJack s j x).pending = s.pending ∧
    (setAiJack s j x).now = s.now ∧
    (setAiJack s j x).out = s.out ∧
    (setAiJack s j x).regs = s.regs ∧
    (setAiJack s j x).fr = s.fr ∧
    (setAiJack s j x).mx = s.mx ∧
    (setAiJack s j x).fx = s.fx ∧
    (setAiJack s j x).ps = s.ps ∧
    (setAiJack s j x).sp = s.sp ∧
    (setAiJack s j x).aq = s.aq ∧
    (setAiJack s j x).dp = s.dp ∧
    (setAiJack s j x).ck = s.ck ∧
    (setAiJack s j x).sc = s.sc ∧
    (setAiJack s j x).hl = s.hl ∧
    (setAiJack s j x).st = s.st ∧
    (setAiJack s j x).tw = s.tw ∧
    (setAiJack s j x).sv = s.sv ∧
    (setAiJack s j x).pd = s.pd ∧
    (setAiJack s j x).ct = s.ct ∧
    (setAiJack s j x).pl = s.pl ∧
    (setAiJack s j x).vc = s.vc := by
  unfold Machine.setAiJack; first | (simp; done) | ((repeat' split) <;> simp; done) | (dsimp only; (repeat' split) <;> simp; done)
@[simp] theorem settleAi_keeps {s : State} {n : Nat} :
    (settleAi s n).pending = s.pending ∧
    (settleAi s n).now = s.now ∧
    (settleAi s n).out = s.out ∧
    (settleAi s n).regs = s.regs ∧
    (settleAi s n).fr = s.fr ∧
    (settleAi s n).mx = s.mx ∧
    (settleAi s n).fx = s.fx ∧
    (settleAi s n).ps = s.ps ∧
    (settleAi s n).sp = s.sp ∧
    (settleAi s n).aq = s.aq ∧
    (settleAi s n).dp = s.dp ∧
    (settleAi s n).ck = s.ck ∧
    (settleAi s n).sc = s.sc ∧
    (settleAi s n).hl = s.hl ∧
    (settleAi s n).st = s.st ∧
    (settleAi s n).tw = s.tw ∧
    (settleAi s n).sv = s.sv ∧
    (settleAi s n).pd = s.pd ∧
    (settleAi s n).ct = s.ct ∧
    (settleAi s n).pl = s.pl ∧
    (settleAi s n).vc = s.vc := by
  unfold Machine.settleAi; first | (simp; done) | ((repeat' split) <;> simp; done) | (dsimp only; (repeat' split) <;> simp; done)
@[simp] theorem settlePdm_keeps {s : State} {m : Nat} :
    (settlePdm s m).pending = s.pending ∧
    (settlePdm s m).now = s.now ∧
    (settlePdm s m).out = s.out ∧
    (settlePdm s m).regs = s.regs ∧
    (settlePdm s m).fr = s.fr ∧
    (settlePdm s m).mx = s.mx ∧
    (settlePdm s m).fx = s.fx ∧
    (settlePdm s m).ps = s.ps ∧
    (settlePdm s m).sp = s.sp ∧
    (settlePdm s m).aq = s.aq ∧
    (settlePdm s m).dp = s.dp ∧
    (settlePdm s m).ck = s.ck ∧
    (settlePdm s m).sc = s.sc ∧
    (settlePdm s m).hl = s.hl ∧
    (settlePdm s m).st = s.st ∧
    (settlePdm s m).tw = s.tw ∧
    (settlePdm s m).sv = s.sv ∧
    (settlePdm s m).pd = s.pd ∧
    (settlePdm s m).ct = s.ct ∧
    (settlePdm s m).pl = s.pl ∧
    (settlePdm s m).vc = s.vc := by
  unfold Machine.settlePdm; first | (simp; done) | ((repeat' split) <;> simp; done) | (dsimp only; (repeat' split) <;> simp; done)
@[simp] theorem aiStart_keeps {s : State} {n : Nat} :
    (aiStart s n).pending = s.pending ∧
    (aiStart s n).now = s.now ∧
    (aiStart s n).out = s.out ∧
    (aiStart s n).regs = s.regs ∧
    (aiStart s n).fr = s.fr ∧
    (aiStart s n).mx = s.mx ∧
    (aiStart s n).fx = s.fx ∧
    (aiStart s n).ps = s.ps ∧
    (aiStart s n).sp = s.sp ∧
    (aiStart s n).aq = s.aq ∧
    (aiStart s n).dp = s.dp ∧
    (aiStart s n).ck = s.ck ∧
    (aiStart s n).sc = s.sc ∧
    (aiStart s n).hl = s.hl ∧
    (aiStart s n).st = s.st ∧
    (aiStart s n).tw = s.tw ∧
    (aiStart s n).sv = s.sv ∧
    (aiStart s n).pd = s.pd ∧
    (aiStart s n).ct = s.ct ∧
    (aiStart s n).pl = s.pl ∧
    (aiStart s n).vc = s.vc := by
  unfold Machine.aiStart; first | (simp; done) | ((repeat' split) <;> simp; done) | (dsimp only; (repeat' split) <;> simp; done)
@[simp] theorem aiStop_keeps {s : State} {n : Nat} :
    (aiStop s n).pending = s.pending ∧
    (aiStop s n).now = s.now ∧
    (aiStop s n).out = s.out ∧
    (aiStop s n).regs = s.regs ∧
    (aiStop s n).fr = s.fr ∧
    (aiStop s n).mx = s.mx ∧
    (aiStop s n).fx = s.fx ∧
    (aiStop s n).ps = s.ps ∧
    (aiStop s n).sp = s.sp ∧
    (aiStop s n).aq = s.aq ∧
    (aiStop s n).dp = s.dp ∧
    (aiStop s n).ck = s.ck ∧
    (aiStop s n).sc = s.sc ∧
    (aiStop s n).hl = s.hl ∧
    (aiStop s n).st = s.st ∧
    (aiStop s n).tw = s.tw ∧
    (aiStop s n).sv = s.sv ∧
    (aiStop s n).pd = s.pd ∧
    (aiStop s n).ct = s.ct ∧
    (aiStop s n).pl = s.pl ∧
    (aiStop s n).vc = s.vc := by
  unfold Machine.aiStop; first | (simp; done) | ((repeat' split) <;> simp; done) | (dsimp only; (repeat' split) <;> simp; done)
@[simp] theorem newGain_keeps {s : State} {n : Nat} {g : Nat} :
    (newGain s n g).pending = s.pending ∧
    (newGain s n g).now = s.now ∧
    (newGain s n g).out = s.out ∧
    (newGain s n g).regs = s.regs ∧
    (newGain s n g).fr = s.fr ∧
    (newGain s n g).mx = s.mx ∧
    (newGain s n g).fx = s.fx ∧
    (newGain s n g).ps = s.ps ∧
    (newGain s n g).sp = s.sp ∧
    (newGain s n g).aq = s.aq ∧
    (newGain s n g).dp = s.dp ∧
    (newGain s n g).ck = s.ck ∧
    (newGain s n g).sc = s.sc ∧
    (newGain s n g).hl = s.hl ∧
    (newGain s n g).st = s.st ∧
    (newGain s n g).tw = s.tw ∧
    (newGain s n g).sv = s.sv ∧
    (newGain s n g).pd = s.pd ∧
    (newGain s n g).ct = s.ct ∧
    (newGain s n g).pl = s.pl ∧
    (newGain s n g).vc = s.vc := by
  unfold Machine.newGain; first | (simp; done) | ((repeat' split) <;> simp; done) | (dsimp only; (repeat' split) <;> simp; done)
@[simp] theorem applyAiChCfg_keeps {s : State} {n : Nat} {v : Word} :
    (applyAiChCfg s n v).pending = s.pending ∧
    (applyAiChCfg s n v).now = s.now ∧
    (applyAiChCfg s n v).out = s.out ∧
    (applyAiChCfg s n v).fr = s.fr ∧
    (applyAiChCfg s n v).mx = s.mx ∧
    (applyAiChCfg s n v).fx = s.fx ∧
    (applyAiChCfg s n v).ps = s.ps ∧
    (applyAiChCfg s n v).sp = s.sp ∧
    (applyAiChCfg s n v).aq = s.aq ∧
    (applyAiChCfg s n v).dp = s.dp ∧
    (applyAiChCfg s n v).ck = s.ck ∧
    (applyAiChCfg s n v).sc = s.sc ∧
    (applyAiChCfg s n v).hl = s.hl ∧
    (applyAiChCfg s n v).st = s.st ∧
    (applyAiChCfg s n v).tw = s.tw ∧
    (applyAiChCfg s n v).sv = s.sv ∧
    (applyAiChCfg s n v).pd = s.pd ∧
    (applyAiChCfg s n v).ct = s.ct ∧
    (applyAiChCfg s n v).pl = s.pl ∧
    (applyAiChCfg s n v).vc = s.vc := by
  unfold Machine.applyAiChCfg; first | (simp; done) | ((repeat' split) <;> simp; done) | (dsimp only; (repeat' split) <;> simp; done)
@[simp] theorem wakeMics_keeps {s : State} {k : Nat} :
    (wakeMics s k).pending = s.pending ∧
    (wakeMics s k).now = s.now ∧
    (wakeMics s k).out = s.out ∧
    (wakeMics s k).regs = s.regs ∧
    (wakeMics s k).fr = s.fr ∧
    (wakeMics s k).mx = s.mx ∧
    (wakeMics s k).fx = s.fx ∧
    (wakeMics s k).ps = s.ps ∧
    (wakeMics s k).sp = s.sp ∧
    (wakeMics s k).aq = s.aq ∧
    (wakeMics s k).dp = s.dp ∧
    (wakeMics s k).ck = s.ck ∧
    (wakeMics s k).sc = s.sc ∧
    (wakeMics s k).hl = s.hl ∧
    (wakeMics s k).st = s.st ∧
    (wakeMics s k).tw = s.tw ∧
    (wakeMics s k).sv = s.sv ∧
    (wakeMics s k).pd = s.pd ∧
    (wakeMics s k).ct = s.ct ∧
    (wakeMics s k).pl = s.pl ∧
    (wakeMics s k).vc = s.vc := by
  unfold Machine.wakeMics; first | (simp; done) | ((repeat' split) <;> simp; done) | (dsimp only; (repeat' split) <;> simp; done)
@[simp] theorem pdmClockState_keeps {s : State} {k : Nat} {what : Nat} :
    (pdmClockState s k what).pending = s.pending ∧
    (pdmClockState s k what).now = s.now ∧
    (pdmClockState s k what).regs = s.regs ∧
    (pdmClockState s k what).fr = s.fr ∧
    (pdmClockState s k what).mx = s.mx ∧
    (pdmClockState s k what).fx = s.fx ∧
    (pdmClockState s k what).ps = s.ps ∧
    (pdmClockState s k what).sp = s.sp ∧
    (pdmClockState s k what).ai = s.ai ∧
    (pdmClockState s k what).aq = s.aq ∧
    (pdmClockState s k what).dp = s.dp ∧
    (pdmClockState s k what).ck = s.ck ∧
    (pdmClockState s k what).sc = s.sc ∧
    (pdmClockState s k what).st = s.st ∧
    (pdmClockState s k what).sv = s.sv ∧
    (pdmClockState s k what).pd = s.pd ∧
    (pdmClockState s k what).ct = s.ct ∧
    (pdmClockState s k what).pl = s.pl ∧
    (pdmClockState s k what).vc = s.vc ∧
    (pdmClockState s k what).hl.locked = s.hl.locked := by
  unfold Machine.pdmClockState; first | (simp; done) | ((repeat' split) <;> simp; done) | (dsimp only; (repeat' split) <;> simp; done)
@[simp] theorem pdmStop_keeps {s : State} {k : Nat} :
    (pdmStop s k).pending = s.pending ∧
    (pdmStop s k).now = s.now ∧
    (pdmStop s k).regs = s.regs ∧
    (pdmStop s k).fr = s.fr ∧
    (pdmStop s k).mx = s.mx ∧
    (pdmStop s k).fx = s.fx ∧
    (pdmStop s k).ps = s.ps ∧
    (pdmStop s k).sp = s.sp ∧
    (pdmStop s k).aq = s.aq ∧
    (pdmStop s k).dp = s.dp ∧
    (pdmStop s k).ck = s.ck ∧
    (pdmStop s k).sc = s.sc ∧
    (pdmStop s k).st = s.st ∧
    (pdmStop s k).sv = s.sv ∧
    (pdmStop s k).pd = s.pd ∧
    (pdmStop s k).ct = s.ct ∧
    (pdmStop s k).pl = s.pl ∧
    (pdmStop s k).vc = s.vc ∧
    (pdmStop s k).hl.locked = s.hl.locked := by
  unfold Machine.pdmStop; first | (simp; done) | ((repeat' split) <;> simp; done) | (dsimp only; (repeat' split) <;> simp; done)
@[simp] theorem pdmFollow_keeps {s : State} {k : Nat} :
    (pdmFollow s k).pending = s.pending ∧
    (pdmFollow s k).now = s.now ∧
    (pdmFollow s k).regs = s.regs ∧
    (pdmFollow s k).fr = s.fr ∧
    (pdmFollow s k).mx = s.mx ∧
    (pdmFollow s k).fx = s.fx ∧
    (pdmFollow s k).ps = s.ps ∧
    (pdmFollow s k).sp = s.sp ∧
    (pdmFollow s k).aq = s.aq ∧
    (pdmFollow s k).dp = s.dp ∧
    (pdmFollow s k).ck = s.ck ∧
    (pdmFollow s k).sc = s.sc ∧
    (pdmFollow s k).st = s.st ∧
    (pdmFollow s k).sv = s.sv ∧
    (pdmFollow s k).pd = s.pd ∧
    (pdmFollow s k).ct = s.ct ∧
    (pdmFollow s k).pl = s.pl ∧
    (pdmFollow s k).vc = s.vc ∧
    (pdmFollow s k).hl.locked = s.hl.locked := by
  unfold Machine.pdmFollow; first | (simp; done) | ((repeat' split) <;> simp; done) | (dsimp only; (repeat' split) <;> simp; done)
@[simp] theorem pdmFollowAll_keeps {s : State} :
    (pdmFollowAll s).pending = s.pending ∧
    (pdmFollowAll s).now = s.now ∧
    (pdmFollowAll s).regs = s.regs ∧
    (pdmFollowAll s).fr = s.fr ∧
    (pdmFollowAll s).mx = s.mx ∧
    (pdmFollowAll s).fx = s.fx ∧
    (pdmFollowAll s).ps = s.ps ∧
    (pdmFollowAll s).sp = s.sp ∧
    (pdmFollowAll s).aq = s.aq ∧
    (pdmFollowAll s).dp = s.dp ∧
    (pdmFollowAll s).ck = s.ck ∧
    (pdmFollowAll s).sc = s.sc ∧
    (pdmFollowAll s).st = s.st ∧
    (pdmFollowAll s).sv = s.sv ∧
    (pdmFollowAll s).pd = s.pd ∧
    (pdmFollowAll s).ct = s.ct ∧
    (pdmFollowAll s).pl = s.pl ∧
    (pdmFollowAll s).vc = s.vc ∧
    (pdmFollowAll s).hl.locked = s.hl.locked := by
  unfold Machine.pdmFollowAll; first | (simp; done) | ((repeat' split) <;> simp; done) | (dsimp only; (repeat' split) <;> simp; done)
@[simp] theorem applyAiPdmCh_keeps {s : State} {m : Nat} {v : Word} :
    (applyAiPdmCh s m v).pending = s.pending ∧
    (applyAiPdmCh s m v).now = s.now ∧
    (applyAiPdmCh s m v).out = s.out ∧
    (applyAiPdmCh s m v).fr = s.fr ∧
    (applyAiPdmCh s m v).mx = s.mx ∧
    (applyAiPdmCh s m v).fx = s.fx ∧
    (applyAiPdmCh s m v).ps = s.ps ∧
    (applyAiPdmCh s m v).sp = s.sp ∧
    (applyAiPdmCh s m v).aq = s.aq ∧
    (applyAiPdmCh s m v).dp = s.dp ∧
    (applyAiPdmCh s m v).ck = s.ck ∧
    (applyAiPdmCh s m v).sc = s.sc ∧
    (applyAiPdmCh s m v).hl = s.hl ∧
    (applyAiPdmCh s m v).st = s.st ∧
    (applyAiPdmCh s m v).tw = s.tw ∧
    (applyAiPdmCh s m v).sv = s.sv ∧
    (applyAiPdmCh s m v).pd = s.pd ∧
    (applyAiPdmCh s m v).ct = s.ct ∧
    (applyAiPdmCh s m v).pl = s.pl ∧
    (applyAiPdmCh s m v).vc = s.vc := by
  unfold Machine.applyAiPdmCh; first | (simp; done) | ((repeat' split) <;> simp; done) | (dsimp only; (repeat' split) <;> simp; done)
@[simp] theorem biasFollow_keeps {s : State} {b : Nat} :
    (biasFollow s b).pending = s.pending ∧
    (biasFollow s b).now = s.now ∧
    (biasFollow s b).out = s.out ∧
    (biasFollow s b).regs = s.regs ∧
    (biasFollow s b).fr = s.fr ∧
    (biasFollow s b).mx = s.mx ∧
    (biasFollow s b).fx = s.fx ∧
    (biasFollow s b).ps = s.ps ∧
    (biasFollow s b).sp = s.sp ∧
    (biasFollow s b).aq = s.aq ∧
    (biasFollow s b).dp = s.dp ∧
    (biasFollow s b).ck = s.ck ∧
    (biasFollow s b).sc = s.sc ∧
    (biasFollow s b).hl = s.hl ∧
    (biasFollow s b).st = s.st ∧
    (biasFollow s b).tw = s.tw ∧
    (biasFollow s b).sv = s.sv ∧
    (biasFollow s b).pd = s.pd ∧
    (biasFollow s b).ct = s.ct ∧
    (biasFollow s b).pl = s.pl ∧
    (biasFollow s b).vc = s.vc := by
  unfold Machine.biasFollow; first | (simp; done) | ((repeat' split) <;> simp; done) | (dsimp only; (repeat' split) <;> simp; done)
@[simp] theorem biasFollowAll_keeps {s : State} :
    (biasFollowAll s).pending = s.pending ∧
    (biasFollowAll s).now = s.now ∧
    (biasFollowAll s).out = s.out ∧
    (biasFollowAll s).regs = s.regs ∧
    (biasFollowAll s).fr = s.fr ∧
    (biasFollowAll s).mx = s.mx ∧
    (biasFollowAll s).fx = s.fx ∧
    (biasFollowAll s).ps = s.ps ∧
    (biasFollowAll s).sp = s.sp ∧
    (biasFollowAll s).aq = s.aq ∧
    (biasFollowAll s).dp = s.dp ∧
    (biasFollowAll s).ck = s.ck ∧
    (biasFollowAll s).sc = s.sc ∧
    (biasFollowAll s).hl = s.hl ∧
    (biasFollowAll s).st = s.st ∧
    (biasFollowAll s).tw = s.tw ∧
    (biasFollowAll s).sv = s.sv ∧
    (biasFollowAll s).pd = s.pd ∧
    (biasFollowAll s).ct = s.ct ∧
    (biasFollowAll s).pl = s.pl ∧
    (biasFollowAll s).vc = s.vc := by
  unfold Machine.biasFollowAll; first | (simp; done) | ((repeat' split) <;> simp; done) | (dsimp only; (repeat' split) <;> simp; done)
@[simp] theorem applyBiasCfg_keeps {s : State} {v : Word} :
    (applyBiasCfg s v).pending = s.pending ∧
    (applyBiasCfg s v).now = s.now ∧
    (applyBiasCfg s v).out = s.out ∧
    (applyBiasCfg s v).fr = s.fr ∧
    (applyBiasCfg s v).mx = s.mx ∧
    (applyBiasCfg s v).fx = s.fx ∧
    (applyBiasCfg s v).ps = s.ps ∧
    (applyBiasCfg s v).sp = s.sp ∧
    (applyBiasCfg s v).aq = s.aq ∧
    (applyBiasCfg s v).dp = s.dp ∧
    (applyBiasCfg s v).ck = s.ck ∧
    (applyBiasCfg s v).sc = s.sc ∧
    (applyBiasCfg s v).hl = s.hl ∧
    (applyBiasCfg s v).st = s.st ∧
    (applyBiasCfg s v).tw = s.tw ∧
    (applyBiasCfg s v).sv = s.sv ∧
    (applyBiasCfg s v).pd = s.pd ∧
    (applyBiasCfg s v).ct = s.ct ∧
    (applyBiasCfg s v).pl = s.pl ∧
    (applyBiasCfg s v).vc = s.vc := by
  unfold Machine.applyBiasCfg; first | (simp; done) | ((repeat' split) <;> simp; done) | (dsimp only; (repeat' split) <;> simp; done)
@[simp] theorem biasCurrents_keeps {s : State} {x : StrobeIn} :
    (biasCurrents s x).pending = s.pending ∧
    (biasCurrents s x).now = s.now ∧
    (biasCurrents s x).out = s.out ∧
    (biasCurrents s x).regs = s.regs ∧
    (biasCurrents s x).fr = s.fr ∧
    (biasCurrents s x).mx = s.mx ∧
    (biasCurrents s x).fx = s.fx ∧
    (biasCurrents s x).ps = s.ps ∧
    (biasCurrents s x).sp = s.sp ∧
    (biasCurrents s x).aq = s.aq ∧
    (biasCurrents s x).dp = s.dp ∧
    (biasCurrents s x).ck = s.ck ∧
    (biasCurrents s x).sc = s.sc ∧
    (biasCurrents s x).hl = s.hl ∧
    (biasCurrents s x).st = s.st ∧
    (biasCurrents s x).tw = s.tw ∧
    (biasCurrents s x).sv = s.sv ∧
    (biasCurrents s x).pd = s.pd ∧
    (biasCurrents s x).ct = s.ct ∧
    (biasCurrents s x).pl = s.pl ∧
    (biasCurrents s x).vc = s.vc := by
  unfold Machine.biasCurrents; first | (simp; done) | ((repeat' split) <;> simp; done) | (dsimp only; (repeat' split) <;> simp; done)
@[simp] theorem rtcAdvance_keeps {s : State} {cycles : Nat} :
    (rtcAdvance s cycles).pending = s.pending ∧
    (rtcAdvance s cycles).now = s.now ∧
    (rtcAdvance s cycles).out = s.out ∧
    (rtcAdvance s cycles).regs = s.regs ∧
    (rtcAdvance s cycles).fr = s.fr ∧
    (rtcAdvance s cycles).mx = s.mx ∧
    (rtcAdvance s cycles).fx = s.fx ∧
    (rtcAdvance s cycles).ps = s.ps ∧
    (rtcAdvance s cycles).sp = s.sp ∧
    (rtcAdvance s cycles).ai = s.ai ∧
    (rtcAdvance s cycles).aq = s.aq ∧
    (rtcAdvance s cycles).dp = s.dp ∧
    (rtcAdvance s cycles).ck = s.ck ∧
    (rtcAdvance s cycles).sc = s.sc ∧
    (rtcAdvance s cycles).hl = s.hl ∧
    (rtcAdvance s cycles).st = s.st ∧
    (rtcAdvance s cycles).tw = s.tw ∧
    (rtcAdvance s cycles).sv = s.sv ∧
    (rtcAdvance s cycles).ct = s.ct ∧
    (rtcAdvance s cycles).pl = s.pl ∧
    (rtcAdvance s cycles).vc = s.vc := by
  unfold Machine.rtcAdvance; first | (simp; done) | ((repeat' split) <;> simp; done) | (dsimp only; (repeat' split) <;> simp; done)
@[simp] theorem setAwc_keeps {s : State} {i : Nat} {level : Bool} :
    (setAwc s i level).pending = s.pending ∧
    (setAwc s i level).now = s.now ∧
    (setAwc s i level).out = s.out ∧
    (setAwc s i level).regs = s.regs ∧
    (setAwc s i level).fr = s.fr ∧
    (setAwc s i level).mx = s.mx ∧
    (setAwc s i level).fx = s.fx ∧
    (setAwc s i level).ps = s.ps ∧
    (setAwc s i level).sp = s.sp ∧
    (setAwc s i level).ai = s.ai ∧
    (setAwc s i level).aq = s.aq ∧
    (setAwc s i level).dp = s.dp ∧
    (setAwc s i level).ck = s.ck ∧
    (setAwc s i level).sc = s.sc ∧
    (setAwc s i level).hl = s.hl ∧
    (setAwc s i level).st = s.st ∧
    (setAwc s i level).tw = s.tw ∧
    (setAwc s i level).sv = s.sv ∧
    (setAwc s i level).ct = s.ct ∧
    (setAwc s i level).pl = s.pl ∧
    (setAwc s i level).vc = s.vc := by
  unfold Machine.setAwc; first | (simp; done) | ((repeat' split) <;> simp; done) | (dsimp only; (repeat' split) <;> simp; done)
@[simp] theorem jackBoundary_keeps {s : State} :
    (jackBoundary s).pending = s.pending ∧
    (jackBoundary s).now = s.now ∧
    (jackBoundary s).out = s.out ∧
    (jackBoundary s).regs = s.regs ∧
    (jackBoundary s).fr = s.fr ∧
    (jackBoundary s).mx = s.mx ∧
    (jackBoundary s).fx = s.fx ∧
    (jackBoundary s).ps = s.ps ∧
    (jackBoundary s).sp = s.sp ∧
    (jackBoundary s).aq = s.aq ∧
    (jackBoundary s).dp = s.dp ∧
    (jackBoundary s).ck = s.ck ∧
    (jackBoundary s).sc = s.sc ∧
    (jackBoundary s).hl = s.hl ∧
    (jackBoundary s).st = s.st ∧
    (jackBoundary s).tw = s.tw ∧
    (jackBoundary s).sv = s.sv ∧
    (jackBoundary s).pd = s.pd ∧
    (jackBoundary s).ct = s.ct ∧
    (jackBoundary s).pl = s.pl ∧
    (jackBoundary s).vc = s.vc := by
  unfold Machine.jackBoundary; first | (simp; done) | ((repeat' split) <;> simp; done) | (dsimp only; (repeat' split) <;> simp; done)
@[simp] theorem applyAiJack_keeps {s : State} {j : Nat} {v : Word} :
    (applyAiJack s j v).pending = s.pending ∧
    (applyAiJack s j v).now = s.now ∧
    (applyAiJack s j v).out = s.out ∧
    (applyAiJack s j v).fr = s.fr ∧
    (applyAiJack s j v).mx = s.mx ∧
    (applyAiJack s j v).fx = s.fx ∧
    (applyAiJack s j v).ps = s.ps ∧
    (applyAiJack s j v).sp = s.sp ∧
    (applyAiJack s j v).aq = s.aq ∧
    (applyAiJack s j v).dp = s.dp ∧
    (applyAiJack s j v).ck = s.ck ∧
    (applyAiJack s j v).sc = s.sc ∧
    (applyAiJack s j v).hl = s.hl ∧
    (applyAiJack s j v).st = s.st ∧
    (applyAiJack s j v).tw = s.tw ∧
    (applyAiJack s j v).sv = s.sv ∧
    (applyAiJack s j v).pd = s.pd ∧
    (applyAiJack s j v).ct = s.ct ∧
    (applyAiJack s j v).pl = s.pl ∧
    (applyAiJack s j v).vc = s.vc := by
  unfold Machine.applyAiJack; first | (simp; done) | ((repeat' split) <;> simp; done) | (dsimp only; (repeat' split) <;> simp; done)
@[simp] theorem peakRequest_keeps {s : State} {v : Word} :
    (peakRequest s v).pending = s.pending ∧
    (peakRequest s v).now = s.now ∧
    (peakRequest s v).out = s.out ∧
    (peakRequest s v).regs = s.regs ∧
    (peakRequest s v).fr = s.fr ∧
    (peakRequest s v).mx = s.mx ∧
    (peakRequest s v).fx = s.fx ∧
    (peakRequest s v).ps = s.ps ∧
    (peakRequest s v).sp = s.sp ∧
    (peakRequest s v).aq = s.aq ∧
    (peakRequest s v).dp = s.dp ∧
    (peakRequest s v).ck = s.ck ∧
    (peakRequest s v).sc = s.sc ∧
    (peakRequest s v).hl = s.hl ∧
    (peakRequest s v).st = s.st ∧
    (peakRequest s v).tw = s.tw ∧
    (peakRequest s v).sv = s.sv ∧
    (peakRequest s v).pd = s.pd ∧
    (peakRequest s v).ct = s.ct ∧
    (peakRequest s v).pl = s.pl ∧
    (peakRequest s v).vc = s.vc := by
  unfold Machine.peakRequest; first | (simp; done) | ((repeat' split) <;> simp; done) | (dsimp only; (repeat' split) <;> simp; done)
@[simp] theorem peakBoundary_keeps {s : State} :
    (peakBoundary s).pending = s.pending ∧
    (peakBoundary s).now = s.now ∧
    (peakBoundary s).out = s.out ∧
    (peakBoundary s).regs = s.regs ∧
    (peakBoundary s).fr = s.fr ∧
    (peakBoundary s).mx = s.mx ∧
    (peakBoundary s).fx = s.fx ∧
    (peakBoundary s).ps = s.ps ∧
    (peakBoundary s).sp = s.sp ∧
    (peakBoundary s).aq = s.aq ∧
    (peakBoundary s).dp = s.dp ∧
    (peakBoundary s).ck = s.ck ∧
    (peakBoundary s).sc = s.sc ∧
    (peakBoundary s).hl = s.hl ∧
    (peakBoundary s).st = s.st ∧
    (peakBoundary s).tw = s.tw ∧
    (peakBoundary s).sv = s.sv ∧
    (peakBoundary s).pd = s.pd ∧
    (peakBoundary s).ct = s.ct ∧
    (peakBoundary s).pl = s.pl ∧
    (peakBoundary s).vc = s.vc := by
  unfold Machine.peakBoundary; first | (simp; done) | ((repeat' split) <;> simp; done) | (dsimp only; (repeat' split) <;> simp; done)
@[simp] theorem ainUp_keeps {s : State} :
    (ainUp s).pending = s.pending ∧
    (ainUp s).now = s.now ∧
    (ainUp s).regs = s.regs ∧
    (ainUp s).fr = s.fr ∧
    (ainUp s).mx = s.mx ∧
    (ainUp s).fx = s.fx ∧
    (ainUp s).ps = s.ps ∧
    (ainUp s).sp = s.sp ∧
    (ainUp s).aq = s.aq ∧
    (ainUp s).dp = s.dp ∧
    (ainUp s).ck = s.ck ∧
    (ainUp s).sc = s.sc ∧
    (ainUp s).st = s.st ∧
    (ainUp s).sv = s.sv ∧
    (ainUp s).pd = s.pd ∧
    (ainUp s).ct = s.ct ∧
    (ainUp s).pl = s.pl ∧
    (ainUp s).vc = s.vc ∧
    (ainUp s).hl.locked = s.hl.locked := by
  unfold Machine.ainUp; first | (simp; done) | ((repeat' split) <;> simp; done) | (dsimp only; (repeat' split) <;> simp; done)
@[simp] theorem ainOff_keeps {s : State} :
    (ainOff s).pending = s.pending ∧
    (ainOff s).now = s.now ∧
    (ainOff s).out = s.out ∧
    (ainOff s).regs = s.regs ∧
    (ainOff s).fr = s.fr ∧
    (ainOff s).mx = s.mx ∧
    (ainOff s).fx = s.fx ∧
    (ainOff s).ps = s.ps ∧
    (ainOff s).sp = s.sp ∧
    (ainOff s).aq = s.aq ∧
    (ainOff s).dp = s.dp ∧
    (ainOff s).ck = s.ck ∧
    (ainOff s).sc = s.sc ∧
    (ainOff s).hl = s.hl ∧
    (ainOff s).st = s.st ∧
    (ainOff s).tw = s.tw ∧
    (ainOff s).sv = s.sv ∧
    (ainOff s).pd = s.pd ∧
    (ainOff s).ct = s.ct ∧
    (ainOff s).pl = s.pl ∧
    (ainOff s).vc = s.vc := by
  unfold Machine.ainOff; first | (simp; done) | ((repeat' split) <;> simp; done) | (dsimp only; (repeat' split) <;> simp; done)
@[simp] theorem rateInputs_keeps {s : State} {old : Nat} :
    (rateInputs s old).pending = s.pending ∧
    (rateInputs s old).now = s.now ∧
    (rateInputs s old).regs = s.regs ∧
    (rateInputs s old).fr = s.fr ∧
    (rateInputs s old).mx = s.mx ∧
    (rateInputs s old).fx = s.fx ∧
    (rateInputs s old).ps = s.ps ∧
    (rateInputs s old).sp = s.sp ∧
    (rateInputs s old).aq = s.aq ∧
    (rateInputs s old).dp = s.dp ∧
    (rateInputs s old).ck = s.ck ∧
    (rateInputs s old).sc = s.sc ∧
    (rateInputs s old).st = s.st ∧
    (rateInputs s old).sv = s.sv ∧
    (rateInputs s old).pd = s.pd ∧
    (rateInputs s old).ct = s.ct ∧
    (rateInputs s old).pl = s.pl ∧
    (rateInputs s old).vc = s.vc ∧
    (rateInputs s old).hl.locked = s.hl.locked := by
  unfold Machine.rateInputs; first | (simp; done) | ((repeat' split) <;> simp; done) | (dsimp only; (repeat' split) <;> simp; done)
@[simp] theorem inputOverload_keeps {s : State} {q : Nat} {analog : Bool} {clip : Bool} :
    (inputOverload s q analog clip).pending = s.pending ∧
    (inputOverload s q analog clip).now = s.now ∧
    (inputOverload s q analog clip).regs = s.regs ∧
    (inputOverload s q analog clip).fr = s.fr ∧
    (inputOverload s q analog clip).mx = s.mx ∧
    (inputOverload s q analog clip).fx = s.fx ∧
    (inputOverload s q analog clip).ps = s.ps ∧
    (inputOverload s q analog clip).sp = s.sp ∧
    (inputOverload s q analog clip).aq = s.aq ∧
    (inputOverload s q analog clip).dp = s.dp ∧
    (inputOverload s q analog clip).ck = s.ck ∧
    (inputOverload s q analog clip).sc = s.sc ∧
    (inputOverload s q analog clip).st = s.st ∧
    (inputOverload s q analog clip).sv = s.sv ∧
    (inputOverload s q analog clip).pd = s.pd ∧
    (inputOverload s q analog clip).ct = s.ct ∧
    (inputOverload s q analog clip).pl = s.pl ∧
    (inputOverload s q analog clip).vc = s.vc ∧
    (inputOverload s q analog clip).hl.locked = s.hl.locked := by
  unfold Machine.inputOverload; first | (simp; done) | ((repeat' split) <;> simp; done) | (dsimp only; (repeat' split) <;> simp; done)
@[simp] theorem endInputFrame_keeps {s : State} {n : Nat} {analog : Bool} :
    (endInputFrame s n analog).pending = s.pending ∧
    (endInputFrame s n analog).now = s.now ∧
    (endInputFrame s n analog).out = s.out ∧
    (endInputFrame s n analog).regs = s.regs ∧
    (endInputFrame s n analog).fr = s.fr ∧
    (endInputFrame s n analog).mx = s.mx ∧
    (endInputFrame s n analog).fx = s.fx ∧
    (endInputFrame s n analog).ps = s.ps ∧
    (endInputFrame s n analog).sp = s.sp ∧
    (endInputFrame s n analog).aq = s.aq ∧
    (endInputFrame s n analog).dp = s.dp ∧
    (endInputFrame s n analog).ck = s.ck ∧
    (endInputFrame s n analog).sc = s.sc ∧
    (endInputFrame s n analog).hl = s.hl ∧
    (endInputFrame s n analog).st = s.st ∧
    (endInputFrame s n analog).tw = s.tw ∧
    (endInputFrame s n analog).sv = s.sv ∧
    (endInputFrame s n analog).pd = s.pd ∧
    (endInputFrame s n analog).ct = s.ct ∧
    (endInputFrame s n analog).pl = s.pl ∧
    (endInputFrame s n analog).vc = s.vc := by
  unfold Machine.endInputFrame; first | (simp; done) | ((repeat' split) <;> simp; done) | (dsimp only; (repeat' split) <;> simp; done)
@[simp] theorem endPdmFrame_keeps {s : State} {m : Nat} :
    (endPdmFrame s m).pending = s.pending ∧
    (endPdmFrame s m).now = s.now ∧
    (endPdmFrame s m).out = s.out ∧
    (endPdmFrame s m).regs = s.regs ∧
    (endPdmFrame s m).fr = s.fr ∧
    (endPdmFrame s m).mx = s.mx ∧
    (endPdmFrame s m).fx = s.fx ∧
    (endPdmFrame s m).ps = s.ps ∧
    (endPdmFrame s m).sp = s.sp ∧
    (endPdmFrame s m).aq = s.aq ∧
    (endPdmFrame s m).dp = s.dp ∧
    (endPdmFrame s m).ck = s.ck ∧
    (endPdmFrame s m).sc = s.sc ∧
    (endPdmFrame s m).hl = s.hl ∧
    (endPdmFrame s m).st = s.st ∧
    (endPdmFrame s m).tw = s.tw ∧
    (endPdmFrame s m).sv = s.sv ∧
    (endPdmFrame s m).pd = s.pd ∧
    (endPdmFrame s m).ct = s.ct ∧
    (endPdmFrame s m).pl = s.pl ∧
    (endPdmFrame s m).vc = s.vc := by
  unfold Machine.endPdmFrame; first | (simp; done) | ((repeat' split) <;> simp; done) | (dsimp only; (repeat' split) <;> simp; done)
@[simp] theorem captureInput_keeps {x : StrobeIn} {a : Tbl Int × State} {q : Nat} :
    (captureInput x a q).2.pending = a.2.pending ∧
    (captureInput x a q).2.now = a.2.now ∧
    (captureInput x a q).2.regs = a.2.regs ∧
    (captureInput x a q).2.fr = a.2.fr ∧
    (captureInput x a q).2.mx = a.2.mx ∧
    (captureInput x a q).2.fx = a.2.fx ∧
    (captureInput x a q).2.ps = a.2.ps ∧
    (captureInput x a q).2.sp = a.2.sp ∧
    (captureInput x a q).2.aq = a.2.aq ∧
    (captureInput x a q).2.dp = a.2.dp ∧
    (captureInput x a q).2.ck = a.2.ck ∧
    (captureInput x a q).2.sc = a.2.sc ∧
    (captureInput x a q).2.st = a.2.st ∧
    (captureInput x a q).2.sv = a.2.sv ∧
    (captureInput x a q).2.pd = a.2.pd ∧
    (captureInput x a q).2.ct = a.2.ct ∧
    (captureInput x a q).2.pl = a.2.pl ∧
    (captureInput x a q).2.vc = a.2.vc ∧
    (captureInput x a q).2.hl.locked = a.2.hl.locked := by
  unfold Machine.captureInput; first | (simp; done) | ((repeat' split) <;> simp; done) | (dsimp only; (repeat' split) <;> simp; done)
@[simp] theorem captureInputs_keeps {s : State} {x : StrobeIn} :
    (captureInputs s x).2.pending = s.pending ∧
    (captureInputs s x).2.now = s.now ∧
    (captureInputs s x).2.regs = s.regs ∧
    (captureInputs s x).2.fr = s.fr ∧
    (captureInputs s x).2.mx = s.mx ∧
    (captureInputs s x).2.fx = s.fx ∧
    (captureInputs s x).2.ps = s.ps ∧
    (captureInputs s x).2.sp = s.sp ∧
    (captureInputs s x).2.aq = s.aq ∧
    (captureInputs s x).2.dp = s.dp ∧
    (captureInputs s x).2.ck = s.ck ∧
    (captureInputs s x).2.sc = s.sc ∧
    (captureInputs s x).2.st = s.st ∧
    (captureInputs s x).2.sv = s.sv ∧
    (captureInputs s x).2.pd = s.pd ∧
    (captureInputs s x).2.ct = s.ct ∧
    (captureInputs s x).2.pl = s.pl ∧
    (captureInputs s x).2.vc = s.vc ∧
    (captureInputs s x).2.hl.locked = s.hl.locked := by
  unfold Machine.captureInputs; first | (simp; done) | ((repeat' split) <;> simp; done) | (dsimp only; (repeat' split) <;> simp; done)
@[simp] theorem setOutp_keeps {s : State} {o : Nat} {x : Outp} :
    (setOutp s o x).pending = s.pending ∧
    (setOutp s o x).now = s.now ∧
    (setOutp s o x).out = s.out ∧
    (setOutp s o x).regs = s.regs ∧
    (setOutp s o x).fr = s.fr ∧
    (setOutp s o x).mx = s.mx ∧
    (setOutp s o x).fx = s.fx ∧
    (setOutp s o x).ps = s.ps ∧
    (setOutp s o x).sp = s.sp ∧
    (setOutp s o x).ai = s.ai ∧
    (setOutp s o x).dp = s.dp ∧
    (setOutp s o x).ck = s.ck ∧
    (setOutp s o x).sc = s.sc ∧
    (setOutp s o x).hl = s.hl ∧
    (setOutp s o x).st = s.st ∧
    (setOutp s o x).tw = s.tw ∧
    (setOutp s o x).sv = s.sv ∧
    (setOutp s o x).pd = s.pd ∧
    (setOutp s o x).ct = s.ct ∧
    (setOutp s o x).pl = s.pl ∧
    (setOutp s o x).vc = s.vc := by
  unfold Machine.setOutp; first | (simp; done) | ((repeat' split) <;> simp; done) | (dsimp only; (repeat' split) <;> simp; done)
@[simp] theorem setHpJack_keeps {s : State} {h : Nat} {x : Jack} :
    (setHpJack s h x).pending = s.pending ∧
    (setHpJack s h x).now = s.now ∧
    (setHpJack s h x).out = s.out ∧
    (setHpJack s h x).regs = s.regs ∧
    (setHpJack s h x).fr = s.fr ∧
    (setHpJack s h x).mx = s.mx ∧
    (setHpJack s h x).fx = s.fx ∧
    (setHpJack s h x).ps = s.ps ∧
    (setHpJack s h x).sp = s.sp ∧
    (setHpJack s h x).ai = s.ai ∧
    (setHpJack s h x).dp = s.dp ∧
    (setHpJack s h x).ck = s.ck ∧
    (setHpJack s h x).sc = s.sc ∧
    (setHpJack s h x).hl = s.hl ∧
    (setHpJack s h x).st = s.st ∧
    (setHpJack s h x).tw = s.tw ∧
    (setHpJack s h x).sv = s.sv ∧
    (setHpJack s h x).pd = s.pd ∧
    (setHpJack s h x).ct = s.ct ∧
    (setHpJack s h x).pl = s.pl ∧
    (setHpJack s h x).vc = s.vc := by
  unfold Machine.setHpJack; first | (simp; done) | ((repeat' split) <;> simp; done) | (dsimp only; (repeat' split) <;> simp; done)
@[simp] theorem outBegin_keeps {s : State} {o : Nat} {cause : Nat} :
    (outBegin s o cause).pending = s.pending ∧
    (outBegin s o cause).now = s.now ∧
    (outBegin s o cause).out = s.out ∧
    (outBegin s o cause).regs = s.regs ∧
    (outBegin s o cause).fr = s.fr ∧
    (outBegin s o cause).mx = s.mx ∧
    (outBegin s o cause).fx = s.fx ∧
    (outBegin s o cause).ps = s.ps ∧
    (outBegin s o cause).sp = s.sp ∧
    (outBegin s o cause).ai = s.ai ∧
    (outBegin s o cause).dp = s.dp ∧
    (outBegin s o cause).ck = s.ck ∧
    (outBegin s o cause).sc = s.sc ∧
    (outBegin s o cause).hl = s.hl ∧
    (outBegin s o cause).st = s.st ∧
    (outBegin s o cause).tw = s.tw ∧
    (outBegin s o cause).sv = s.sv ∧
    (outBegin s o cause).pd = s.pd ∧
    (outBegin s o cause).ct = s.ct ∧
    (outBegin s o cause).pl = s.pl ∧
    (outBegin s o cause).vc = s.vc := by
  unfold Machine.outBegin; first | (simp; done) | ((repeat' split) <;> simp; done) | (dsimp only; (repeat' split) <;> simp; done)
@[simp] theorem outStart_keeps {s : State} {o : Nat} :
    (outStart s o).pending = s.pending ∧
    (outStart s o).now = s.now ∧
    (outStart s o).out = s.out ∧
    (outStart s o).regs = s.regs ∧
    (outStart s o).fr = s.fr ∧
    (outStart s o).mx = s.mx ∧
    (outStart s o).fx = s.fx ∧
    (outStart s o).ps = s.ps ∧
    (outStart s o).sp = s.sp ∧
    (outStart s o).ai = s.ai ∧
    (outStart s o).dp = s.dp ∧
    (outStart s o).ck = s.ck ∧
    (outStart s o).sc = s.sc ∧
    (outStart s o).hl = s.hl ∧
    (outStart s o).st = s.st ∧
    (outStart s o).tw = s.tw ∧
    (outStart s o).sv = s.sv ∧
    (outStart s o).pd = s.pd ∧
    (outStart s o).ct = s.ct ∧
    (outStart s o).pl = s.pl ∧
    (outStart s o).vc = s.vc := by
  unfold Machine.outStart; first | (simp; done) | ((repeat' split) <;> simp; done) | (dsimp only; (repeat' split) <;> simp; done)
@[simp] theorem outStop_keeps {s : State} {o : Nat} :
    (outStop s o).pending = s.pending ∧
    (outStop s o).now = s.now ∧
    (outStop s o).out = s.out ∧
    (outStop s o).regs = s.regs ∧
    (outStop s o).fr = s.fr ∧
    (outStop s o).mx = s.mx ∧
    (outStop s o).fx = s.fx ∧
    (outStop s o).ps = s.ps ∧
    (outStop s o).sp = s.sp ∧
    (outStop s o).ai = s.ai ∧
    (outStop s o).dp = s.dp ∧
    (outStop s o).ck = s.ck ∧
    (outStop s o).sc = s.sc ∧
    (outStop s o).hl = s.hl ∧
    (outStop s o).st = s.st ∧
    (outStop s o).tw = s.tw ∧
    (outStop s o).sv = s.sv ∧
    (outStop s o).pd = s.pd ∧
    (outStop s o).ct = s.ct ∧
    (outStop s o).pl = s.pl ∧
    (outStop s o).vc = s.vc := by
  unfold Machine.outStop; first | (simp; done) | ((repeat' split) <;> simp; done) | (dsimp only; (repeat' split) <;> simp; done)
@[simp] theorem applyOutCfg_keeps {s : State} {o : Nat} {v : Word} :
    (applyOutCfg s o v).pending = s.pending ∧
    (applyOutCfg s o v).now = s.now ∧
    (applyOutCfg s o v).out = s.out ∧
    (applyOutCfg s o v).fr = s.fr ∧
    (applyOutCfg s o v).mx = s.mx ∧
    (applyOutCfg s o v).fx = s.fx ∧
    (applyOutCfg s o v).ps = s.ps ∧
    (applyOutCfg s o v).sp = s.sp ∧
    (applyOutCfg s o v).ai = s.ai ∧
    (applyOutCfg s o v).dp = s.dp ∧
    (applyOutCfg s o v).ck = s.ck ∧
    (applyOutCfg s o v).sc = s.sc ∧
    (applyOutCfg s o v).hl = s.hl ∧
    (applyOutCfg s o v).st = s.st ∧
    (applyOutCfg s o v).tw = s.tw ∧
    (applyOutCfg s o v).sv = s.sv ∧
    (applyOutCfg s o v).pd = s.pd ∧
    (applyOutCfg s o v).ct = s.ct ∧
    (applyOutCfg s o v).pl = s.pl ∧
    (applyOutCfg s o v).vc = s.vc := by
  unfold Machine.applyOutCfg; first | (simp; done) | ((repeat' split) <;> simp; done) | (dsimp only; (repeat' split) <;> simp; done)
@[simp] theorem outFault_keeps {cause : Nat} {s : State} {o : Nat} :
    (outFault cause s o).pending = s.pending ∧
    (outFault cause s o).now = s.now ∧
    (outFault cause s o).out = s.out ∧
    (outFault cause s o).regs = s.regs ∧
    (outFault cause s o).fr = s.fr ∧
    (outFault cause s o).mx = s.mx ∧
    (outFault cause s o).fx = s.fx ∧
    (outFault cause s o).ps = s.ps ∧
    (outFault cause s o).sp = s.sp ∧
    (outFault cause s o).ai = s.ai ∧
    (outFault cause s o).dp = s.dp ∧
    (outFault cause s o).ck = s.ck ∧
    (outFault cause s o).sc = s.sc ∧
    (outFault cause s o).hl = s.hl ∧
    (outFault cause s o).st = s.st ∧
    (outFault cause s o).tw = s.tw ∧
    (outFault cause s o).sv = s.sv ∧
    (outFault cause s o).pd = s.pd ∧
    (outFault cause s o).ct = s.ct ∧
    (outFault cause s o).pl = s.pl ∧
    (outFault cause s o).vc = s.vc := by
  unfold Machine.outFault; first | (simp; done) | ((repeat' split) <;> simp; done) | (dsimp only; (repeat' split) <;> simp; done)
@[simp] theorem railFault_keeps {s : State} {cause : Nat} :
    (railFault s cause).pending = s.pending ∧
    (railFault s cause).now = s.now ∧
    (railFault s cause).out = s.out ∧
    (railFault s cause).regs = s.regs ∧
    (railFault s cause).fr = s.fr ∧
    (railFault s cause).mx = s.mx ∧
    (railFault s cause).fx = s.fx ∧
    (railFault s cause).ps = s.ps ∧
    (railFault s cause).sp = s.sp ∧
    (railFault s cause).ai = s.ai ∧
    (railFault s cause).dp = s.dp ∧
    (railFault s cause).ck = s.ck ∧
    (railFault s cause).sc = s.sc ∧
    (railFault s cause).hl = s.hl ∧
    (railFault s cause).st = s.st ∧
    (railFault s cause).tw = s.tw ∧
    (railFault s cause).sv = s.sv ∧
    (railFault s cause).pd = s.pd ∧
    (railFault s cause).ct = s.ct ∧
    (railFault s cause).pl = s.pl ∧
    (railFault s cause).vc = s.vc := by
  unfold Machine.railFault; first | (simp; done) | ((repeat' split) <;> simp; done) | (dsimp only; (repeat' split) <;> simp; done)
@[simp] theorem jackDown_keeps {s : State} {o : Nat} :
    (jackDown s o).pending = s.pending ∧
    (jackDown s o).now = s.now ∧
    (jackDown s o).out = s.out ∧
    (jackDown s o).regs = s.regs ∧
    (jackDown s o).fr = s.fr ∧
    (jackDown s o).mx = s.mx ∧
    (jackDown s o).fx = s.fx ∧
    (jackDown s o).ps = s.ps ∧
    (jackDown s o).sp = s.sp ∧
    (jackDown s o).ai = s.ai ∧
    (jackDown s o).dp = s.dp ∧
    (jackDown s o).ck = s.ck ∧
    (jackDown s o).sc = s.sc ∧
    (jackDown s o).hl = s.hl ∧
    (jackDown s o).st = s.st ∧
    (jackDown s o).tw = s.tw ∧
    (jackDown s o).sv = s.sv ∧
    (jackDown s o).pd = s.pd ∧
    (jackDown s o).ct = s.ct ∧
    (jackDown s o).pl = s.pl ∧
    (jackDown s o).vc = s.vc := by
  unfold Machine.jackDown; first | (simp; done) | ((repeat' split) <;> simp; done) | (dsimp only; (repeat' split) <;> simp; done)
@[simp] theorem jackUp_keeps {s : State} {o : Nat} :
    (jackUp s o).pending = s.pending ∧
    (jackUp s o).now = s.now ∧
    (jackUp s o).out = s.out ∧
    (jackUp s o).regs = s.regs ∧
    (jackUp s o).fr = s.fr ∧
    (jackUp s o).mx = s.mx ∧
    (jackUp s o).fx = s.fx ∧
    (jackUp s o).ps = s.ps ∧
    (jackUp s o).sp = s.sp ∧
    (jackUp s o).ai = s.ai ∧
    (jackUp s o).dp = s.dp ∧
    (jackUp s o).ck = s.ck ∧
    (jackUp s o).sc = s.sc ∧
    (jackUp s o).hl = s.hl ∧
    (jackUp s o).st = s.st ∧
    (jackUp s o).tw = s.tw ∧
    (jackUp s o).sv = s.sv ∧
    (jackUp s o).pd = s.pd ∧
    (jackUp s o).ct = s.ct ∧
    (jackUp s o).pl = s.pl ∧
    (jackUp s o).vc = s.vc := by
  unfold Machine.jackUp; first | (simp; done) | ((repeat' split) <;> simp; done) | (dsimp only; (repeat' split) <;> simp; done)
@[simp] theorem hpEach_pending {s : State} {h : Nat} {f : State → Nat → State}
    (hf : ∀ t o, (f t o).pending = t.pending) : (hpEach s h f).pending = s.pending := by
  unfold hpEach; split <;> simp [hf]
@[simp] theorem hpEach_now {s : State} {h : Nat} {f : State → Nat → State}
    (hf : ∀ t o, (f t o).now = t.now) : (hpEach s h f).now = s.now := by
  unfold hpEach; split <;> simp [hf]
@[simp] theorem hpEach_out {s : State} {h : Nat} {f : State → Nat → State}
    (hf : ∀ t o, (f t o).out = t.out) : (hpEach s h f).out = s.out := by
  unfold hpEach; split <;> simp [hf]
@[simp] theorem hpEach_regs {s : State} {h : Nat} {f : State → Nat → State}
    (hf : ∀ t o, (f t o).regs = t.regs) : (hpEach s h f).regs = s.regs := by
  unfold hpEach; split <;> simp [hf]
@[simp] theorem hpEach_fr {s : State} {h : Nat} {f : State → Nat → State}
    (hf : ∀ t o, (f t o).fr = t.fr) : (hpEach s h f).fr = s.fr := by
  unfold hpEach; split <;> simp [hf]
@[simp] theorem hpEach_mx {s : State} {h : Nat} {f : State → Nat → State}
    (hf : ∀ t o, (f t o).mx = t.mx) : (hpEach s h f).mx = s.mx := by
  unfold hpEach; split <;> simp [hf]
@[simp] theorem hpEach_fx {s : State} {h : Nat} {f : State → Nat → State}
    (hf : ∀ t o, (f t o).fx = t.fx) : (hpEach s h f).fx = s.fx := by
  unfold hpEach; split <;> simp [hf]
@[simp] theorem hpEach_ps {s : State} {h : Nat} {f : State → Nat → State}
    (hf : ∀ t o, (f t o).ps = t.ps) : (hpEach s h f).ps = s.ps := by
  unfold hpEach; split <;> simp [hf]
@[simp] theorem hpEach_sp {s : State} {h : Nat} {f : State → Nat → State}
    (hf : ∀ t o, (f t o).sp = t.sp) : (hpEach s h f).sp = s.sp := by
  unfold hpEach; split <;> simp [hf]
@[simp] theorem hpEach_ai {s : State} {h : Nat} {f : State → Nat → State}
    (hf : ∀ t o, (f t o).ai = t.ai) : (hpEach s h f).ai = s.ai := by
  unfold hpEach; split <;> simp [hf]
@[simp] theorem hpEach_aq {s : State} {h : Nat} {f : State → Nat → State}
    (hf : ∀ t o, (f t o).aq = t.aq) : (hpEach s h f).aq = s.aq := by
  unfold hpEach; split <;> simp [hf]
@[simp] theorem hpEach_dp {s : State} {h : Nat} {f : State → Nat → State}
    (hf : ∀ t o, (f t o).dp = t.dp) : (hpEach s h f).dp = s.dp := by
  unfold hpEach; split <;> simp [hf]
@[simp] theorem hpEach_ck {s : State} {h : Nat} {f : State → Nat → State}
    (hf : ∀ t o, (f t o).ck = t.ck) : (hpEach s h f).ck = s.ck := by
  unfold hpEach; split <;> simp [hf]
@[simp] theorem hpEach_sc {s : State} {h : Nat} {f : State → Nat → State}
    (hf : ∀ t o, (f t o).sc = t.sc) : (hpEach s h f).sc = s.sc := by
  unfold hpEach; split <;> simp [hf]
@[simp] theorem hpEach_hl {s : State} {h : Nat} {f : State → Nat → State}
    (hf : ∀ t o, (f t o).hl = t.hl) : (hpEach s h f).hl = s.hl := by
  unfold hpEach; split <;> simp [hf]
@[simp] theorem hpEach_st {s : State} {h : Nat} {f : State → Nat → State}
    (hf : ∀ t o, (f t o).st = t.st) : (hpEach s h f).st = s.st := by
  unfold hpEach; split <;> simp [hf]
@[simp] theorem hpEach_tw {s : State} {h : Nat} {f : State → Nat → State}
    (hf : ∀ t o, (f t o).tw = t.tw) : (hpEach s h f).tw = s.tw := by
  unfold hpEach; split <;> simp [hf]
@[simp] theorem hpEach_sv {s : State} {h : Nat} {f : State → Nat → State}
    (hf : ∀ t o, (f t o).sv = t.sv) : (hpEach s h f).sv = s.sv := by
  unfold hpEach; split <;> simp [hf]
@[simp] theorem hpEach_pd {s : State} {h : Nat} {f : State → Nat → State}
    (hf : ∀ t o, (f t o).pd = t.pd) : (hpEach s h f).pd = s.pd := by
  unfold hpEach; split <;> simp [hf]
@[simp] theorem hpEach_ct {s : State} {h : Nat} {f : State → Nat → State}
    (hf : ∀ t o, (f t o).ct = t.ct) : (hpEach s h f).ct = s.ct := by
  unfold hpEach; split <;> simp [hf]
@[simp] theorem hpEach_pl {s : State} {h : Nat} {f : State → Nat → State}
    (hf : ∀ t o, (f t o).pl = t.pl) : (hpEach s h f).pl = s.pl := by
  unfold hpEach; split <;> simp [hf]
@[simp] theorem hpEach_vc {s : State} {h : Nat} {f : State → Nat → State}
    (hf : ∀ t o, (f t o).vc = t.vc) : (hpEach s h f).vc = s.vc := by
  unfold hpEach; split <;> simp [hf]
@[simp] theorem hpEach_fr_fn {s : State} {h : Nat} {f : State → Nat → State}
    (hf : ∀ t o, (f t o).fr.fn = t.fr.fn) : (hpEach s h f).fr.fn = s.fr.fn := by
  unfold hpEach; split <;> simp [hf]
@[simp] theorem hpEach_fr_next {s : State} {h : Nat} {f : State → Nat → State}
    (hf : ∀ t o, (f t o).fr.next = t.fr.next) : (hpEach s h f).fr.next = s.fr.next := by
  unfold hpEach; split <;> simp [hf]
@[simp] theorem hpEach_fr_running {s : State} {h : Nat} {f : State → Nat → State}
    (hf : ∀ t o, (f t o).fr.running = t.fr.running) : (hpEach s h f).fr.running = s.fr.running := by
  unfold hpEach; split <;> simp [hf]
@[simp] theorem hpEach_hl_locked {s : State} {h : Nat} {f : State → Nat → State}
    (hf : ∀ t o, (f t o).hl.locked = t.hl.locked) : (hpEach s h f).hl.locked = s.hl.locked := by
  unfold hpEach; split <;> simp [hf]
@[simp] theorem hpFollow_keeps {s : State} {h : Nat} :
    (hpFollow s h).pending = s.pending ∧
    (hpFollow s h).now = s.now ∧
    (hpFollow s h).out = s.out ∧
    (hpFollow s h).regs = s.regs ∧
    (hpFollow s h).fr = s.fr ∧
    (hpFollow s h).mx = s.mx ∧
    (hpFollow s h).fx = s.fx ∧
    (hpFollow s h).ps = s.ps ∧
    (hpFollow s h).sp = s.sp ∧
    (hpFollow s h).ai = s.ai ∧
    (hpFollow s h).dp = s.dp ∧
    (hpFollow s h).ck = s.ck ∧
    (hpFollow s h).sc = s.sc ∧
    (hpFollow s h).hl = s.hl ∧
    (hpFollow s h).st = s.st ∧
    (hpFollow s h).tw = s.tw ∧
    (hpFollow s h).sv = s.sv ∧
    (hpFollow s h).pd = s.pd ∧
    (hpFollow s h).ct = s.ct ∧
    (hpFollow s h).pl = s.pl ∧
    (hpFollow s h).vc = s.vc := by
  unfold Machine.hpFollow; first | (simp; done) | ((repeat' split) <;> simp; done) | (dsimp only; (repeat' split) <;> simp; done)
@[simp] theorem hpBoundary_keeps {s : State} :
    (hpBoundary s).pending = s.pending ∧
    (hpBoundary s).now = s.now ∧
    (hpBoundary s).out = s.out ∧
    (hpBoundary s).regs = s.regs ∧
    (hpBoundary s).fr = s.fr ∧
    (hpBoundary s).mx = s.mx ∧
    (hpBoundary s).fx = s.fx ∧
    (hpBoundary s).ps = s.ps ∧
    (hpBoundary s).sp = s.sp ∧
    (hpBoundary s).ai = s.ai ∧
    (hpBoundary s).dp = s.dp ∧
    (hpBoundary s).ck = s.ck ∧
    (hpBoundary s).sc = s.sc ∧
    (hpBoundary s).hl = s.hl ∧
    (hpBoundary s).st = s.st ∧
    (hpBoundary s).tw = s.tw ∧
    (hpBoundary s).sv = s.sv ∧
    (hpBoundary s).pd = s.pd ∧
    (hpBoundary s).ct = s.ct ∧
    (hpBoundary s).pl = s.pl ∧
    (hpBoundary s).vc = s.vc := by
  unfold Machine.hpBoundary; first | (simp; done) | ((repeat' split) <;> simp; done) | (dsimp only; (repeat' split) <;> simp; done)
@[simp] theorem applyHpJack_keeps {s : State} {h : Nat} {v : Word} :
    (applyHpJack s h v).pending = s.pending ∧
    (applyHpJack s h v).now = s.now ∧
    (applyHpJack s h v).out = s.out ∧
    (applyHpJack s h v).fr = s.fr ∧
    (applyHpJack s h v).mx = s.mx ∧
    (applyHpJack s h v).fx = s.fx ∧
    (applyHpJack s h v).ps = s.ps ∧
    (applyHpJack s h v).sp = s.sp ∧
    (applyHpJack s h v).ai = s.ai ∧
    (applyHpJack s h v).dp = s.dp ∧
    (applyHpJack s h v).ck = s.ck ∧
    (applyHpJack s h v).sc = s.sc ∧
    (applyHpJack s h v).hl = s.hl ∧
    (applyHpJack s h v).st = s.st ∧
    (applyHpJack s h v).tw = s.tw ∧
    (applyHpJack s h v).sv = s.sv ∧
    (applyHpJack s h v).pd = s.pd ∧
    (applyHpJack s h v).ct = s.ct ∧
    (applyHpJack s h v).pl = s.pl ∧
    (applyHpJack s h v).vc = s.vc := by
  unfold Machine.applyHpJack; first | (simp; done) | ((repeat' split) <;> simp; done) | (dsimp only; (repeat' split) <;> simp; done)
@[simp] theorem jackSet_keeps {s : State} {o : Nat} :
    (jackSet s o).pending = s.pending ∧
    (jackSet s o).now = s.now ∧
    (jackSet s o).out = s.out ∧
    (jackSet s o).regs = s.regs ∧
    (jackSet s o).fr = s.fr ∧
    (jackSet s o).mx = s.mx ∧
    (jackSet s o).fx = s.fx ∧
    (jackSet s o).ps = s.ps ∧
    (jackSet s o).sp = s.sp ∧
    (jackSet s o).ai = s.ai ∧
    (jackSet s o).dp = s.dp ∧
    (jackSet s o).ck = s.ck ∧
    (jackSet s o).sc = s.sc ∧
    (jackSet s o).hl = s.hl ∧
    (jackSet s o).st = s.st ∧
    (jackSet s o).tw = s.tw ∧
    (jackSet s o).sv = s.sv ∧
    (jackSet s o).pd = s.pd ∧
    (jackSet s o).ct = s.ct ∧
    (jackSet s o).pl = s.pl ∧
    (jackSet s o).vc = s.vc := by
  unfold Machine.jackSet; first | (simp; done) | ((repeat' split) <;> simp; done) | (dsimp only; (repeat' split) <;> simp; done)
@[simp] theorem ctrlUpJacks_keeps {s : State} :
    (ctrlUpJacks s).pending = s.pending ∧
    (ctrlUpJacks s).now = s.now ∧
    (ctrlUpJacks s).out = s.out ∧
    (ctrlUpJacks s).regs = s.regs ∧
    (ctrlUpJacks s).fr = s.fr ∧
    (ctrlUpJacks s).mx = s.mx ∧
    (ctrlUpJacks s).fx = s.fx ∧
    (ctrlUpJacks s).ps = s.ps ∧
    (ctrlUpJacks s).sp = s.sp ∧
    (ctrlUpJacks s).dp = s.dp ∧
    (ctrlUpJacks s).ck = s.ck ∧
    (ctrlUpJacks s).sc = s.sc ∧
    (ctrlUpJacks s).hl = s.hl ∧
    (ctrlUpJacks s).st = s.st ∧
    (ctrlUpJacks s).tw = s.tw ∧
    (ctrlUpJacks s).sv = s.sv ∧
    (ctrlUpJacks s).pd = s.pd ∧
    (ctrlUpJacks s).ct = s.ct ∧
    (ctrlUpJacks s).pl = s.pl ∧
    (ctrlUpJacks s).vc = s.vc := by
  unfold Machine.ctrlUpJacks; first | (simp; done) | ((repeat' split) <;> simp; done) | (dsimp only; (repeat' split) <;> simp; done)
@[simp] theorem rateOutputs_keeps {s : State} :
    (rateOutputs s).pending = s.pending ∧
    (rateOutputs s).now = s.now ∧
    (rateOutputs s).out = s.out ∧
    (rateOutputs s).regs = s.regs ∧
    (rateOutputs s).fr = s.fr ∧
    (rateOutputs s).mx = s.mx ∧
    (rateOutputs s).fx = s.fx ∧
    (rateOutputs s).ps = s.ps ∧
    (rateOutputs s).sp = s.sp ∧
    (rateOutputs s).ai = s.ai ∧
    (rateOutputs s).dp = s.dp ∧
    (rateOutputs s).ck = s.ck ∧
    (rateOutputs s).sc = s.sc ∧
    (rateOutputs s).hl = s.hl ∧
    (rateOutputs s).st = s.st ∧
    (rateOutputs s).tw = s.tw ∧
    (rateOutputs s).sv = s.sv ∧
    (rateOutputs s).pd = s.pd ∧
    (rateOutputs s).ct = s.ct ∧
    (rateOutputs s).pl = s.pl ∧
    (rateOutputs s).vc = s.vc := by
  unfold Machine.rateOutputs; first | (simp; done) | ((repeat' split) <;> simp; done) | (dsimp only; (repeat' split) <;> simp; done)
@[simp] theorem aoutUp_keeps {s : State} :
    (aoutUp s).pending = s.pending ∧
    (aoutUp s).now = s.now ∧
    (aoutUp s).out = s.out ∧
    (aoutUp s).regs = s.regs ∧
    (aoutUp s).fr = s.fr ∧
    (aoutUp s).mx = s.mx ∧
    (aoutUp s).fx = s.fx ∧
    (aoutUp s).ps = s.ps ∧
    (aoutUp s).sp = s.sp ∧
    (aoutUp s).ai = s.ai ∧
    (aoutUp s).dp = s.dp ∧
    (aoutUp s).ck = s.ck ∧
    (aoutUp s).sc = s.sc ∧
    (aoutUp s).hl = s.hl ∧
    (aoutUp s).st = s.st ∧
    (aoutUp s).tw = s.tw ∧
    (aoutUp s).sv = s.sv ∧
    (aoutUp s).pd = s.pd ∧
    (aoutUp s).ct = s.ct ∧
    (aoutUp s).pl = s.pl ∧
    (aoutUp s).vc = s.vc := by
  unfold Machine.aoutUp; first | (simp; done) | ((repeat' split) <;> simp; done) | (dsimp only; (repeat' split) <;> simp; done)
@[simp] theorem aoutOff_keeps {s : State} :
    (aoutOff s).pending = s.pending ∧
    (aoutOff s).now = s.now ∧
    (aoutOff s).out = s.out ∧
    (aoutOff s).regs = s.regs ∧
    (aoutOff s).fr = s.fr ∧
    (aoutOff s).mx = s.mx ∧
    (aoutOff s).fx = s.fx ∧
    (aoutOff s).ps = s.ps ∧
    (aoutOff s).sp = s.sp ∧
    (aoutOff s).ai = s.ai ∧
    (aoutOff s).dp = s.dp ∧
    (aoutOff s).ck = s.ck ∧
    (aoutOff s).sc = s.sc ∧
    (aoutOff s).hl = s.hl ∧
    (aoutOff s).st = s.st ∧
    (aoutOff s).tw = s.tw ∧
    (aoutOff s).sv = s.sv ∧
    (aoutOff s).pd = s.pd ∧
    (aoutOff s).ct = s.ct ∧
    (aoutOff s).pl = s.pl ∧
    (aoutOff s).vc = s.vc := by
  unfold Machine.aoutOff; first | (simp; done) | ((repeat' split) <;> simp; done) | (dsimp only; (repeat' split) <;> simp; done)
@[simp] theorem outputsStrobe_keeps {s : State} {rail : Bool} :
    (outputsStrobe s rail).pending = s.pending ∧
    (outputsStrobe s rail).now = s.now ∧
    (outputsStrobe s rail).out = s.out ∧
    (outputsStrobe s rail).regs = s.regs ∧
    (outputsStrobe s rail).fr = s.fr ∧
    (outputsStrobe s rail).mx = s.mx ∧
    (outputsStrobe s rail).fx = s.fx ∧
    (outputsStrobe s rail).ps = s.ps ∧
    (outputsStrobe s rail).sp = s.sp ∧
    (outputsStrobe s rail).ai = s.ai ∧
    (outputsStrobe s rail).dp = s.dp ∧
    (outputsStrobe s rail).ck = s.ck ∧
    (outputsStrobe s rail).sc = s.sc ∧
    (outputsStrobe s rail).hl = s.hl ∧
    (outputsStrobe s rail).st = s.st ∧
    (outputsStrobe s rail).tw = s.tw ∧
    (outputsStrobe s rail).sv = s.sv ∧
    (outputsStrobe s rail).pd = s.pd ∧
    (outputsStrobe s rail).ct = s.ct ∧
    (outputsStrobe s rail).pl = s.pl ∧
    (outputsStrobe s rail).vc = s.vc := by
  unfold Machine.outputsStrobe; first | (simp; done) | ((repeat' split) <;> simp; done) | (dsimp only; (repeat' split) <;> simp; done)
@[simp] theorem setPort_keeps {s : State} {p : Nat} {x : Port} :
    (setPort s p x).pending = s.pending ∧
    (setPort s p x).now = s.now ∧
    (setPort s p x).out = s.out ∧
    (setPort s p x).regs = s.regs ∧
    (setPort s p x).fr = s.fr ∧
    (setPort s p x).mx = s.mx ∧
    (setPort s p x).fx = s.fx ∧
    (setPort s p x).ps = s.ps ∧
    (setPort s p x).sp = s.sp ∧
    (setPort s p x).ai = s.ai ∧
    (setPort s p x).aq = s.aq ∧
    (setPort s p x).ck = s.ck ∧
    (setPort s p x).sc = s.sc ∧
    (setPort s p x).hl = s.hl ∧
    (setPort s p x).st = s.st ∧
    (setPort s p x).tw = s.tw ∧
    (setPort s p x).sv = s.sv ∧
    (setPort s p x).pd = s.pd ∧
    (setPort s p x).ct = s.ct ∧
    (setPort s p x).pl = s.pl ∧
    (setPort s p x).vc = s.vc := by
  unfold Machine.setPort; first | (simp; done) | ((repeat' split) <;> simp; done) | (dsimp only; (repeat' split) <;> simp; done)
@[simp] theorem setPll_keeps {s : State} {j : Nat} {x : Pll} :
    (setPll s j x).pending = s.pending ∧
    (setPll s j x).now = s.now ∧
    (setPll s j x).out = s.out ∧
    (setPll s j x).regs = s.regs ∧
    (setPll s j x).fr = s.fr ∧
    (setPll s j x).mx = s.mx ∧
    (setPll s j x).fx = s.fx ∧
    (setPll s j x).ps = s.ps ∧
    (setPll s j x).sp = s.sp ∧
    (setPll s j x).ai = s.ai ∧
    (setPll s j x).aq = s.aq ∧
    (setPll s j x).dp = s.dp ∧
    (setPll s j x).sc = s.sc ∧
    (setPll s j x).hl = s.hl ∧
    (setPll s j x).st = s.st ∧
    (setPll s j x).tw = s.tw ∧
    (setPll s j x).sv = s.sv ∧
    (setPll s j x).pd = s.pd ∧
    (setPll s j x).ct = s.ct ∧
    (setPll s j x).pl = s.pl ∧
    (setPll s j x).vc = s.vc := by
  unfold Machine.setPll; first | (simp; done) | ((repeat' split) <;> simp; done) | (dsimp only; (repeat' split) <;> simp; done)
@[simp] theorem pllFollow_keeps {s : State} {j : Nat} :
    (pllFollow s j).pending = s.pending ∧
    (pllFollow s j).now = s.now ∧
    (pllFollow s j).out = s.out ∧
    (pllFollow s j).regs = s.regs ∧
    (pllFollow s j).fr = s.fr ∧
    (pllFollow s j).mx = s.mx ∧
    (pllFollow s j).fx = s.fx ∧
    (pllFollow s j).ps = s.ps ∧
    (pllFollow s j).sp = s.sp ∧
    (pllFollow s j).ai = s.ai ∧
    (pllFollow s j).aq = s.aq ∧
    (pllFollow s j).dp = s.dp ∧
    (pllFollow s j).sc = s.sc ∧
    (pllFollow s j).hl = s.hl ∧
    (pllFollow s j).st = s.st ∧
    (pllFollow s j).tw = s.tw ∧
    (pllFollow s j).sv = s.sv ∧
    (pllFollow s j).pd = s.pd ∧
    (pllFollow s j).ct = s.ct ∧
    (pllFollow s j).pl = s.pl ∧
    (pllFollow s j).vc = s.vc := by
  unfold Machine.pllFollow; first | (simp; done) | ((repeat' split) <;> simp; done) | (dsimp only; (repeat' split) <;> simp; done)
@[simp] theorem pllFollowAll_keeps {s : State} :
    (pllFollowAll s).pending = s.pending ∧
    (pllFollowAll s).now = s.now ∧
    (pllFollowAll s).out = s.out ∧
    (pllFollowAll s).regs = s.regs ∧
    (pllFollowAll s).fr = s.fr ∧
    (pllFollowAll s).mx = s.mx ∧
    (pllFollowAll s).fx = s.fx ∧
    (pllFollowAll s).ps = s.ps ∧
    (pllFollowAll s).sp = s.sp ∧
    (pllFollowAll s).ai = s.ai ∧
    (pllFollowAll s).aq = s.aq ∧
    (pllFollowAll s).dp = s.dp ∧
    (pllFollowAll s).sc = s.sc ∧
    (pllFollowAll s).hl = s.hl ∧
    (pllFollowAll s).st = s.st ∧
    (pllFollowAll s).tw = s.tw ∧
    (pllFollowAll s).sv = s.sv ∧
    (pllFollowAll s).pd = s.pd ∧
    (pllFollowAll s).ct = s.ct ∧
    (pllFollowAll s).pl = s.pl ∧
    (pllFollowAll s).vc = s.vc := by
  unfold Machine.pllFollowAll; first | (simp; done) | ((repeat' split) <;> simp; done) | (dsimp only; (repeat' split) <;> simp; done)
@[simp] theorem maskTake_keeps {s : State} {p : Nat} {rx : Bool} {v : Word} {next : Option Word} {pfn : Nat} :
    (maskTake s p rx v next pfn).pending = s.pending ∧
    (maskTake s p rx v next pfn).now = s.now ∧
    (maskTake s p rx v next pfn).regs = s.regs ∧
    (maskTake s p rx v next pfn).fr = s.fr ∧
    (maskTake s p rx v next pfn).mx = s.mx ∧
    (maskTake s p rx v next pfn).fx = s.fx ∧
    (maskTake s p rx v next pfn).ps = s.ps ∧
    (maskTake s p rx v next pfn).sp = s.sp ∧
    (maskTake s p rx v next pfn).ai = s.ai ∧
    (maskTake s p rx v next pfn).aq = s.aq ∧
    (maskTake s p rx v next pfn).ck = s.ck ∧
    (maskTake s p rx v next pfn).sc = s.sc ∧
    (maskTake s p rx v next pfn).st = s.st ∧
    (maskTake s p rx v next pfn).sv = s.sv ∧
    (maskTake s p rx v next pfn).pd = s.pd ∧
    (maskTake s p rx v next pfn).ct = s.ct ∧
    (maskTake s p rx v next pfn).pl = s.pl ∧
    (maskTake s p rx v next pfn).vc = s.vc ∧
    (maskTake s p rx v next pfn).hl.locked = s.hl.locked := by
  unfold Machine.maskTake; first | (simp; done) | ((repeat' split) <;> simp; done) | (dsimp only; (repeat' split) <;> simp; done)
@[simp] theorem maskComplete_keeps {s : State} {p : Nat} {rx : Bool} {v : Word} {late : Bool} :
    (maskComplete s p rx v late).pending = s.pending ∧
    (maskComplete s p rx v late).now = s.now ∧
    (maskComplete s p rx v late).regs = s.regs ∧
    (maskComplete s p rx v late).fr = s.fr ∧
    (maskComplete s p rx v late).mx = s.mx ∧
    (maskComplete s p rx v late).fx = s.fx ∧
    (maskComplete s p rx v late).ps = s.ps ∧
    (maskComplete s p rx v late).sp = s.sp ∧
    (maskComplete s p rx v late).ai = s.ai ∧
    (maskComplete s p rx v late).aq = s.aq ∧
    (maskComplete s p rx v late).ck = s.ck ∧
    (maskComplete s p rx v late).sc = s.sc ∧
    (maskComplete s p rx v late).st = s.st ∧
    (maskComplete s p rx v late).sv = s.sv ∧
    (maskComplete s p rx v late).pd = s.pd ∧
    (maskComplete s p rx v late).ct = s.ct ∧
    (maskComplete s p rx v late).pl = s.pl ∧
    (maskComplete s p rx v late).vc = s.vc ∧
    (maskComplete s p rx v late).hl.locked = s.hl.locked := by
  unfold Machine.maskComplete; first | (simp; done) | ((repeat' split) <;> simp; done) | (dsimp only; (repeat' split) <;> simp; done)
@[simp] theorem maskStart_keeps {s : State} {p : Nat} {rx : Bool} :
    (maskStart s p rx).pending = s.pending ∧
    (maskStart s p rx).now = s.now ∧
    (maskStart s p rx).regs = s.regs ∧
    (maskStart s p rx).fr = s.fr ∧
    (maskStart s p rx).mx = s.mx ∧
    (maskStart s p rx).fx = s.fx ∧
    (maskStart s p rx).ps = s.ps ∧
    (maskStart s p rx).sp = s.sp ∧
    (maskStart s p rx).ai = s.ai ∧
    (maskStart s p rx).aq = s.aq ∧
    (maskStart s p rx).ck = s.ck ∧
    (maskStart s p rx).sc = s.sc ∧
    (maskStart s p rx).st = s.st ∧
    (maskStart s p rx).sv = s.sv ∧
    (maskStart s p rx).pd = s.pd ∧
    (maskStart s p rx).ct = s.ct ∧
    (maskStart s p rx).pl = s.pl ∧
    (maskStart s p rx).vc = s.vc ∧
    (maskStart s p rx).hl.locked = s.hl.locked := by
  unfold Machine.maskStart; first | (simp; done) | ((repeat' split) <;> simp; done) | (dsimp only; (repeat' split) <;> simp; done)
@[simp] theorem maskWrite_keeps {s : State} {src : Owner} {p : Nat} {rx : Bool} {v : Word} {late : Bool} :
    (maskWrite s src p rx v late).pending = s.pending ∧
    (maskWrite s src p rx v late).now = s.now ∧
    (maskWrite s src p rx v late).mx = s.mx ∧
    (maskWrite s src p rx v late).fx = s.fx ∧
    (maskWrite s src p rx v late).ps = s.ps ∧
    (maskWrite s src p rx v late).sp = s.sp ∧
    (maskWrite s src p rx v late).ai = s.ai ∧
    (maskWrite s src p rx v late).aq = s.aq ∧
    (maskWrite s src p rx v late).ck = s.ck ∧
    (maskWrite s src p rx v late).sc = s.sc ∧
    (maskWrite s src p rx v late).st = s.st ∧
    (maskWrite s src p rx v late).sv = s.sv ∧
    (maskWrite s src p rx v late).pd = s.pd ∧
    (maskWrite s src p rx v late).ct = s.ct ∧
    (maskWrite s src p rx v late).vc = s.vc ∧
    (maskWrite s src p rx v late).fr.fn = s.fr.fn ∧
    (maskWrite s src p rx v late).fr.next = s.fr.next ∧
    (maskWrite s src p rx v late).fr.running = s.fr.running ∧
    (maskWrite s src p rx v late).hl.locked = s.hl.locked := by
  unfold Machine.maskWrite; first | (simp; done) | ((repeat' split) <;> simp; done) | (dsimp only; (repeat' split) <;> simp; done)
@[simp] theorem portRefused_keeps {s : State} {p : Nat} {off : Nat} {reason : Nat} :
    (portRefused s p off reason).pending = s.pending ∧
    (portRefused s p off reason).now = s.now ∧
    (portRefused s p off reason).regs = s.regs ∧
    (portRefused s p off reason).fr = s.fr ∧
    (portRefused s p off reason).mx = s.mx ∧
    (portRefused s p off reason).fx = s.fx ∧
    (portRefused s p off reason).ps = s.ps ∧
    (portRefused s p off reason).sp = s.sp ∧
    (portRefused s p off reason).ai = s.ai ∧
    (portRefused s p off reason).aq = s.aq ∧
    (portRefused s p off reason).ck = s.ck ∧
    (portRefused s p off reason).sc = s.sc ∧
    (portRefused s p off reason).st = s.st ∧
    (portRefused s p off reason).sv = s.sv ∧
    (portRefused s p off reason).pd = s.pd ∧
    (portRefused s p off reason).ct = s.ct ∧
    (portRefused s p off reason).pl = s.pl ∧
    (portRefused s p off reason).vc = s.vc ∧
    (portRefused s p off reason).hl.locked = s.hl.locked := by
  unfold Machine.portRefused; first | (simp; done) | ((repeat' split) <;> simp; done) | (dsimp only; (repeat' split) <;> simp; done)
@[simp] theorem portWait_keeps {s : State} {p : Nat} :
    (portWait s p).pending = s.pending ∧
    (portWait s p).now = s.now ∧
    (portWait s p).out = s.out ∧
    (portWait s p).regs = s.regs ∧
    (portWait s p).fr = s.fr ∧
    (portWait s p).mx = s.mx ∧
    (portWait s p).fx = s.fx ∧
    (portWait s p).ps = s.ps ∧
    (portWait s p).sp = s.sp ∧
    (portWait s p).ai = s.ai ∧
    (portWait s p).aq = s.aq ∧
    (portWait s p).ck = s.ck ∧
    (portWait s p).sc = s.sc ∧
    (portWait s p).hl = s.hl ∧
    (portWait s p).st = s.st ∧
    (portWait s p).tw = s.tw ∧
    (portWait s p).sv = s.sv ∧
    (portWait s p).pd = s.pd ∧
    (portWait s p).ct = s.ct ∧
    (portWait s p).pl = s.pl ∧
    (portWait s p).vc = s.vc := by
  unfold Machine.portWait; first | (simp; done) | ((repeat' split) <;> simp; done) | (dsimp only; (repeat' split) <;> simp; done)
@[simp] theorem portEnable_keeps {s : State} {p : Nat} :
    (portEnable s p).pending = s.pending ∧
    (portEnable s p).now = s.now ∧
    (portEnable s p).fr = s.fr ∧
    (portEnable s p).mx = s.mx ∧
    (portEnable s p).fx = s.fx ∧
    (portEnable s p).ps = s.ps ∧
    (portEnable s p).sp = s.sp ∧
    (portEnable s p).ai = s.ai ∧
    (portEnable s p).aq = s.aq ∧
    (portEnable s p).ck = s.ck ∧
    (portEnable s p).sc = s.sc ∧
    (portEnable s p).st = s.st ∧
    (portEnable s p).sv = s.sv ∧
    (portEnable s p).pd = s.pd ∧
    (portEnable s p).ct = s.ct ∧
    (portEnable s p).pl = s.pl ∧
    (portEnable s p).vc = s.vc ∧
    (portEnable s p).hl.locked = s.hl.locked := by
  unfold Machine.portEnable; first | (simp; done) | ((repeat' split) <;> simp; done) | (dsimp only; (repeat' split) <;> simp; done)
@[simp] theorem portOffNow_keeps {s : State} {p : Nat} {cause : Nat} :
    (portOffNow s p cause).pending = s.pending ∧
    (portOffNow s p cause).now = s.now ∧
    (portOffNow s p cause).regs = s.regs ∧
    (portOffNow s p cause).fr = s.fr ∧
    (portOffNow s p cause).mx = s.mx ∧
    (portOffNow s p cause).fx = s.fx ∧
    (portOffNow s p cause).ps = s.ps ∧
    (portOffNow s p cause).sp = s.sp ∧
    (portOffNow s p cause).ai = s.ai ∧
    (portOffNow s p cause).aq = s.aq ∧
    (portOffNow s p cause).ck = s.ck ∧
    (portOffNow s p cause).sc = s.sc ∧
    (portOffNow s p cause).st = s.st ∧
    (portOffNow s p cause).sv = s.sv ∧
    (portOffNow s p cause).pd = s.pd ∧
    (portOffNow s p cause).ct = s.ct ∧
    (portOffNow s p cause).pl = s.pl ∧
    (portOffNow s p cause).vc = s.vc ∧
    (portOffNow s p cause).hl.locked = s.hl.locked := by
  unfold Machine.portOffNow; first | (simp; done) | ((repeat' split) <;> simp; done) | (dsimp only; (repeat' split) <;> simp; done)
@[simp] theorem portStop_keeps {s : State} {p : Nat} :
    (portStop s p).pending = s.pending ∧
    (portStop s p).now = s.now ∧
    (portStop s p).regs = s.regs ∧
    (portStop s p).fr = s.fr ∧
    (portStop s p).mx = s.mx ∧
    (portStop s p).fx = s.fx ∧
    (portStop s p).ps = s.ps ∧
    (portStop s p).sp = s.sp ∧
    (portStop s p).ai = s.ai ∧
    (portStop s p).aq = s.aq ∧
    (portStop s p).ck = s.ck ∧
    (portStop s p).sc = s.sc ∧
    (portStop s p).st = s.st ∧
    (portStop s p).sv = s.sv ∧
    (portStop s p).pd = s.pd ∧
    (portStop s p).ct = s.ct ∧
    (portStop s p).pl = s.pl ∧
    (portStop s p).vc = s.vc ∧
    (portStop s p).hl.locked = s.hl.locked := by
  unfold Machine.portStop; first | (simp; done) | ((repeat' split) <;> simp; done) | (dsimp only; (repeat' split) <;> simp; done)
@[simp] theorem applyDpCtrl_keeps {s : State} {p : Nat} {v : Word} :
    (applyDpCtrl s p v).pending = s.pending ∧
    (applyDpCtrl s p v).now = s.now ∧
    (applyDpCtrl s p v).fr = s.fr ∧
    (applyDpCtrl s p v).mx = s.mx ∧
    (applyDpCtrl s p v).fx = s.fx ∧
    (applyDpCtrl s p v).ps = s.ps ∧
    (applyDpCtrl s p v).sp = s.sp ∧
    (applyDpCtrl s p v).ai = s.ai ∧
    (applyDpCtrl s p v).aq = s.aq ∧
    (applyDpCtrl s p v).ck = s.ck ∧
    (applyDpCtrl s p v).sc = s.sc ∧
    (applyDpCtrl s p v).st = s.st ∧
    (applyDpCtrl s p v).sv = s.sv ∧
    (applyDpCtrl s p v).pd = s.pd ∧
    (applyDpCtrl s p v).ct = s.ct ∧
    (applyDpCtrl s p v).pl = s.pl ∧
    (applyDpCtrl s p v).vc = s.vc ∧
    (applyDpCtrl s p v).hl.locked = s.hl.locked := by
  unfold Machine.applyDpCtrl; first | (simp; done) | ((repeat' split) <;> simp; done) | (dsimp only; (repeat' split) <;> simp; done)
@[simp] theorem fmtWrite_keeps {s : State} {p : Nat} {v : Word} :
    (fmtWrite s p v).pending = s.pending ∧
    (fmtWrite s p v).now = s.now ∧
    (fmtWrite s p v).fr = s.fr ∧
    (fmtWrite s p v).mx = s.mx ∧
    (fmtWrite s p v).fx = s.fx ∧
    (fmtWrite s p v).ps = s.ps ∧
    (fmtWrite s p v).sp = s.sp ∧
    (fmtWrite s p v).ai = s.ai ∧
    (fmtWrite s p v).aq = s.aq ∧
    (fmtWrite s p v).sc = s.sc ∧
    (fmtWrite s p v).st = s.st ∧
    (fmtWrite s p v).sv = s.sv ∧
    (fmtWrite s p v).pd = s.pd ∧
    (fmtWrite s p v).ct = s.ct ∧
    (fmtWrite s p v).pl = s.pl ∧
    (fmtWrite s p v).vc = s.vc ∧
    (fmtWrite s p v).hl.locked = s.hl.locked := by
  unfold Machine.fmtWrite; first | (simp; done) | ((repeat' split) <;> simp; done) | (dsimp only; (repeat' split) <;> simp; done)
@[simp] theorem unlock_keeps {s : State} {p : Nat} {cause : Nat} :
    (unlock s p cause).pending = s.pending ∧
    (unlock s p cause).now = s.now ∧
    (unlock s p cause).regs = s.regs ∧
    (unlock s p cause).fr = s.fr ∧
    (unlock s p cause).mx = s.mx ∧
    (unlock s p cause).fx = s.fx ∧
    (unlock s p cause).ps = s.ps ∧
    (unlock s p cause).sp = s.sp ∧
    (unlock s p cause).ai = s.ai ∧
    (unlock s p cause).aq = s.aq ∧
    (unlock s p cause).ck = s.ck ∧
    (unlock s p cause).sc = s.sc ∧
    (unlock s p cause).st = s.st ∧
    (unlock s p cause).sv = s.sv ∧
    (unlock s p cause).pd = s.pd ∧
    (unlock s p cause).ct = s.ct ∧
    (unlock s p cause).pl = s.pl ∧
    (unlock s p cause).vc = s.vc ∧
    (unlock s p cause).hl.locked = s.hl.locked := by
  unfold Machine.unlock; first | (simp; done) | ((repeat' split) <;> simp; done) | (dsimp only; (repeat' split) <;> simp; done)
@[simp] theorem feedRx_keeps {s : State} {p : Nat} {phase : Word} :
    (feedRx s p phase).pending = s.pending ∧
    (feedRx s p phase).now = s.now ∧
    (feedRx s p phase).out = s.out ∧
    (feedRx s p phase).regs = s.regs ∧
    (feedRx s p phase).fr = s.fr ∧
    (feedRx s p phase).mx = s.mx ∧
    (feedRx s p phase).fx = s.fx ∧
    (feedRx s p phase).ps = s.ps ∧
    (feedRx s p phase).sp = s.sp ∧
    (feedRx s p phase).ai = s.ai ∧
    (feedRx s p phase).aq = s.aq ∧
    (feedRx s p phase).ck = s.ck ∧
    (feedRx s p phase).sc = s.sc ∧
    (feedRx s p phase).hl = s.hl ∧
    (feedRx s p phase).st = s.st ∧
    (feedRx s p phase).tw = s.tw ∧
    (feedRx s p phase).sv = s.sv ∧
    (feedRx s p phase).pd = s.pd ∧
    (feedRx s p phase).ct = s.ct ∧
    (feedRx s p phase).pl = s.pl ∧
    (feedRx s p phase).vc = s.vc := by
  unfold Machine.feedRx; first | (simp; done) | ((repeat' split) <;> simp; done) | (dsimp only; (repeat' split) <;> simp; done)
@[simp] theorem feedTx_keeps {s : State} {p : Nat} :
    (feedTx s p).pending = s.pending ∧
    (feedTx s p).now = s.now ∧
    (feedTx s p).out = s.out ∧
    (feedTx s p).regs = s.regs ∧
    (feedTx s p).fr = s.fr ∧
    (feedTx s p).mx = s.mx ∧
    (feedTx s p).fx = s.fx ∧
    (feedTx s p).ps = s.ps ∧
    (feedTx s p).sp = s.sp ∧
    (feedTx s p).ai = s.ai ∧
    (feedTx s p).aq = s.aq ∧
    (feedTx s p).ck = s.ck ∧
    (feedTx s p).sc = s.sc ∧
    (feedTx s p).hl = s.hl ∧
    (feedTx s p).st = s.st ∧
    (feedTx s p).tw = s.tw ∧
    (feedTx s p).sv = s.sv ∧
    (feedTx s p).pd = s.pd ∧
    (feedTx s p).ct = s.ct ∧
    (feedTx s p).pl = s.pl ∧
    (feedTx s p).vc = s.vc := by
  unfold Machine.feedTx; first | (simp; done) | ((repeat' split) <;> simp; done) | (dsimp only; (repeat' split) <;> simp; done)
@[simp] theorem portsStrobe_keeps {s : State} {slips : List Nat} :
    (portsStrobe s slips).pending = s.pending ∧
    (portsStrobe s slips).now = s.now ∧
    (portsStrobe s slips).regs = s.regs ∧
    (portsStrobe s slips).fr = s.fr ∧
    (portsStrobe s slips).mx = s.mx ∧
    (portsStrobe s slips).fx = s.fx ∧
    (portsStrobe s slips).ps = s.ps ∧
    (portsStrobe s slips).sp = s.sp ∧
    (portsStrobe s slips).ai = s.ai ∧
    (portsStrobe s slips).aq = s.aq ∧
    (portsStrobe s slips).ck = s.ck ∧
    (portsStrobe s slips).sc = s.sc ∧
    (portsStrobe s slips).st = s.st ∧
    (portsStrobe s slips).sv = s.sv ∧
    (portsStrobe s slips).pd = s.pd ∧
    (portsStrobe s slips).ct = s.ct ∧
    (portsStrobe s slips).pl = s.pl ∧
    (portsStrobe s slips).vc = s.vc ∧
    (portsStrobe s slips).hl.locked = s.hl.locked := by
  unfold Machine.portsStrobe; first | (simp; done) | ((repeat' split) <;> simp; done) | (dsimp only; (repeat' split) <;> simp; done)
@[simp] theorem holdPorts_keeps {s : State} {n : Nat} :
    (holdPorts s n).pending = s.pending ∧
    (holdPorts s n).now = s.now ∧
    (holdPorts s n).out = s.out ∧
    (holdPorts s n).regs = s.regs ∧
    (holdPorts s n).fr = s.fr ∧
    (holdPorts s n).mx = s.mx ∧
    (holdPorts s n).fx = s.fx ∧
    (holdPorts s n).ps = s.ps ∧
    (holdPorts s n).sp = s.sp ∧
    (holdPorts s n).ai = s.ai ∧
    (holdPorts s n).aq = s.aq ∧
    (holdPorts s n).ck = s.ck ∧
    (holdPorts s n).sc = s.sc ∧
    (holdPorts s n).hl = s.hl ∧
    (holdPorts s n).st = s.st ∧
    (holdPorts s n).tw = s.tw ∧
    (holdPorts s n).sv = s.sv ∧
    (holdPorts s n).pd = s.pd ∧
    (holdPorts s n).ct = s.ct ∧
    (holdPorts s n).pl = s.pl ∧
    (holdPorts s n).vc = s.vc := by
  unfold Machine.holdPorts; first | (simp; done) | ((repeat' split) <;> simp; done) | (dsimp only; (repeat' split) <;> simp; done)
@[simp] theorem takeFrame_keeps {s : State} {p : Nat} {x : PortFrame} :
    (takeFrame s p x).pending = s.pending ∧
    (takeFrame s p x).now = s.now ∧
    (takeFrame s p x).regs = s.regs ∧
    (takeFrame s p x).fr = s.fr ∧
    (takeFrame s p x).mx = s.mx ∧
    (takeFrame s p x).fx = s.fx ∧
    (takeFrame s p x).ps = s.ps ∧
    (takeFrame s p x).sp = s.sp ∧
    (takeFrame s p x).ai = s.ai ∧
    (takeFrame s p x).aq = s.aq ∧
    (takeFrame s p x).ck = s.ck ∧
    (takeFrame s p x).sc = s.sc ∧
    (takeFrame s p x).st = s.st ∧
    (takeFrame s p x).sv = s.sv ∧
    (takeFrame s p x).pd = s.pd ∧
    (takeFrame s p x).ct = s.ct ∧
    (takeFrame s p x).pl = s.pl ∧
    (takeFrame s p x).vc = s.vc ∧
    (takeFrame s p x).hl.locked = s.hl.locked := by
  unfold Machine.takeFrame; first | (simp; done) | ((repeat' split) <;> simp; done) | (dsimp only; (repeat' split) <;> simp; done)
@[simp] theorem trackFrame_keeps {s : State} {p : Nat} {x : PortFrame} {locked : Nat} :
    (trackFrame s p x locked).pending = s.pending ∧
    (trackFrame s p x locked).now = s.now ∧
    (trackFrame s p x locked).out = s.out ∧
    (trackFrame s p x locked).regs = s.regs ∧
    (trackFrame s p x locked).fr = s.fr ∧
    (trackFrame s p x locked).mx = s.mx ∧
    (trackFrame s p x locked).fx = s.fx ∧
    (trackFrame s p x locked).ps = s.ps ∧
    (trackFrame s p x locked).sp = s.sp ∧
    (trackFrame s p x locked).ai = s.ai ∧
    (trackFrame s p x locked).aq = s.aq ∧
    (trackFrame s p x locked).ck = s.ck ∧
    (trackFrame s p x locked).sc = s.sc ∧
    (trackFrame s p x locked).hl = s.hl ∧
    (trackFrame s p x locked).st = s.st ∧
    (trackFrame s p x locked).tw = s.tw ∧
    (trackFrame s p x locked).sv = s.sv ∧
    (trackFrame s p x locked).pd = s.pd ∧
    (trackFrame s p x locked).ct = s.ct ∧
    (trackFrame s p x locked).pl = s.pl ∧
    (trackFrame s p x locked).vc = s.vc := by
  unfold Machine.trackFrame; first | (simp; done) | ((repeat' split) <;> simp; done) | (dsimp only; (repeat' split) <;> simp; done)
@[simp] theorem sendFrame_keeps {s : State} {p : Nat} {conv : Option Word} {phase : Word} :
    (sendFrame s p conv phase).pending = s.pending ∧
    (sendFrame s p conv phase).now = s.now ∧
    (sendFrame s p conv phase).regs = s.regs ∧
    (sendFrame s p conv phase).fr = s.fr ∧
    (sendFrame s p conv phase).mx = s.mx ∧
    (sendFrame s p conv phase).fx = s.fx ∧
    (sendFrame s p conv phase).ps = s.ps ∧
    (sendFrame s p conv phase).sp = s.sp ∧
    (sendFrame s p conv phase).ai = s.ai ∧
    (sendFrame s p conv phase).aq = s.aq ∧
    (sendFrame s p conv phase).ck = s.ck ∧
    (sendFrame s p conv phase).sc = s.sc ∧
    (sendFrame s p conv phase).hl = s.hl ∧
    (sendFrame s p conv phase).st = s.st ∧
    (sendFrame s p conv phase).tw = s.tw ∧
    (sendFrame s p conv phase).sv = s.sv ∧
    (sendFrame s p conv phase).pd = s.pd ∧
    (sendFrame s p conv phase).ct = s.ct ∧
    (sendFrame s p conv phase).pl = s.pl ∧
    (sendFrame s p conv phase).vc = s.vc := by
  unfold Machine.sendFrame; first | (simp; done) | ((repeat' split) <;> simp; done) | (dsimp only; (repeat' split) <;> simp; done)
@[simp] theorem newFrame_keeps {s : State} {p : Nat} {conv : Option Word} {phase : Word} :
    (newFrame s p conv phase).pending = s.pending ∧
    (newFrame s p conv phase).now = s.now ∧
    (newFrame s p conv phase).regs = s.regs ∧
    (newFrame s p conv phase).fr = s.fr ∧
    (newFrame s p conv phase).mx = s.mx ∧
    (newFrame s p conv phase).fx = s.fx ∧
    (newFrame s p conv phase).ps = s.ps ∧
    (newFrame s p conv phase).sp = s.sp ∧
    (newFrame s p conv phase).ai = s.ai ∧
    (newFrame s p conv phase).aq = s.aq ∧
    (newFrame s p conv phase).ck = s.ck ∧
    (newFrame s p conv phase).sc = s.sc ∧
    (newFrame s p conv phase).st = s.st ∧
    (newFrame s p conv phase).sv = s.sv ∧
    (newFrame s p conv phase).pd = s.pd ∧
    (newFrame s p conv phase).ct = s.ct ∧
    (newFrame s p conv phase).pl = s.pl ∧
    (newFrame s p conv phase).vc = s.vc ∧
    (newFrame s p conv phase).hl.locked = s.hl.locked := by
  unfold Machine.newFrame; first | (simp; done) | ((repeat' split) <;> simp; done) | (dsimp only; (repeat' split) <;> simp; done)
@[simp] theorem nextFrame_keeps {s : State} {p : Nat} {x : PortFrame} :
    (nextFrame s p x).pending = s.pending ∧
    (nextFrame s p x).now = s.now ∧
    (nextFrame s p x).regs = s.regs ∧
    (nextFrame s p x).fr = s.fr ∧
    (nextFrame s p x).mx = s.mx ∧
    (nextFrame s p x).fx = s.fx ∧
    (nextFrame s p x).ps = s.ps ∧
    (nextFrame s p x).sp = s.sp ∧
    (nextFrame s p x).ai = s.ai ∧
    (nextFrame s p x).aq = s.aq ∧
    (nextFrame s p x).ck = s.ck ∧
    (nextFrame s p x).sc = s.sc ∧
    (nextFrame s p x).st = s.st ∧
    (nextFrame s p x).sv = s.sv ∧
    (nextFrame s p x).pd = s.pd ∧
    (nextFrame s p x).ct = s.ct ∧
    (nextFrame s p x).pl = s.pl ∧
    (nextFrame s p x).vc = s.vc ∧
    (nextFrame s p x).hl.locked = s.hl.locked := by
  unfold Machine.nextFrame; first | (simp; done) | ((repeat' split) <;> simp; done) | (dsimp only; (repeat' split) <;> simp; done)
@[simp] theorem maskUp_keeps {s : State} {p : Nat} {rx : Bool} :
    (maskUp s p rx).pending = s.pending ∧
    (maskUp s p rx).now = s.now ∧
    (maskUp s p rx).regs = s.regs ∧
    (maskUp s p rx).fr = s.fr ∧
    (maskUp s p rx).mx = s.mx ∧
    (maskUp s p rx).fx = s.fx ∧
    (maskUp s p rx).ps = s.ps ∧
    (maskUp s p rx).sp = s.sp ∧
    (maskUp s p rx).ai = s.ai ∧
    (maskUp s p rx).aq = s.aq ∧
    (maskUp s p rx).ck = s.ck ∧
    (maskUp s p rx).sc = s.sc ∧
    (maskUp s p rx).st = s.st ∧
    (maskUp s p rx).sv = s.sv ∧
    (maskUp s p rx).pd = s.pd ∧
    (maskUp s p rx).ct = s.ct ∧
    (maskUp s p rx).pl = s.pl ∧
    (maskUp s p rx).vc = s.vc ∧
    (maskUp s p rx).hl.locked = s.hl.locked := by
  unfold Machine.maskUp; first | (simp; done) | ((repeat' split) <;> simp; done) | (dsimp only; (repeat' split) <;> simp; done)
@[simp] theorem portsUp_keeps {s : State} :
    (portsUp s).pending = s.pending ∧
    (portsUp s).now = s.now ∧
    (portsUp s).fr = s.fr ∧
    (portsUp s).mx = s.mx ∧
    (portsUp s).fx = s.fx ∧
    (portsUp s).ps = s.ps ∧
    (portsUp s).sp = s.sp ∧
    (portsUp s).ai = s.ai ∧
    (portsUp s).aq = s.aq ∧
    (portsUp s).ck = s.ck ∧
    (portsUp s).sc = s.sc ∧
    (portsUp s).st = s.st ∧
    (portsUp s).sv = s.sv ∧
    (portsUp s).pd = s.pd ∧
    (portsUp s).ct = s.ct ∧
    (portsUp s).pl = s.pl ∧
    (portsUp s).vc = s.vc ∧
    (portsUp s).hl.locked = s.hl.locked := by
  unfold Machine.portsUp; first | (simp; done) | ((repeat' split) <;> simp; done) | (dsimp only; (repeat' split) <;> simp; done)
@[simp] theorem portsOff_keeps {s : State} :
    (portsOff s).pending = s.pending ∧
    (portsOff s).now = s.now ∧
    (portsOff s).regs = s.regs ∧
    (portsOff s).fr = s.fr ∧
    (portsOff s).mx = s.mx ∧
    (portsOff s).fx = s.fx ∧
    (portsOff s).ps = s.ps ∧
    (portsOff s).sp = s.sp ∧
    (portsOff s).ai = s.ai ∧
    (portsOff s).aq = s.aq ∧
    (portsOff s).ck = s.ck ∧
    (portsOff s).sc = s.sc ∧
    (portsOff s).st = s.st ∧
    (portsOff s).sv = s.sv ∧
    (portsOff s).pd = s.pd ∧
    (portsOff s).ct = s.ct ∧
    (portsOff s).pl = s.pl ∧
    (portsOff s).vc = s.vc ∧
    (portsOff s).hl.locked = s.hl.locked := by
  unfold Machine.portsOff; first | (simp; done) | ((repeat' split) <;> simp; done) | (dsimp only; (repeat' split) <;> simp; done)
@[simp] theorem ratePorts_keeps {s : State} :
    (ratePorts s).pending = s.pending ∧
    (ratePorts s).now = s.now ∧
    (ratePorts s).regs = s.regs ∧
    (ratePorts s).fr = s.fr ∧
    (ratePorts s).mx = s.mx ∧
    (ratePorts s).fx = s.fx ∧
    (ratePorts s).ps = s.ps ∧
    (ratePorts s).sp = s.sp ∧
    (ratePorts s).ai = s.ai ∧
    (ratePorts s).aq = s.aq ∧
    (ratePorts s).ck = s.ck ∧
    (ratePorts s).sc = s.sc ∧
    (ratePorts s).st = s.st ∧
    (ratePorts s).sv = s.sv ∧
    (ratePorts s).pd = s.pd ∧
    (ratePorts s).ct = s.ct ∧
    (ratePorts s).pl = s.pl ∧
    (ratePorts s).vc = s.vc ∧
    (ratePorts s).hl.locked = s.hl.locked := by
  unfold Machine.ratePorts; first | (simp; done) | ((repeat' split) <;> simp; done) | (dsimp only; (repeat' split) <;> simp; done)
@[simp] theorem rootLost_keeps {s : State} {j : Nat} :
    (rootLost s j).pending = s.pending ∧
    (rootLost s j).now = s.now ∧
    (rootLost s j).regs = s.regs ∧
    (rootLost s j).fr = s.fr ∧
    (rootLost s j).mx = s.mx ∧
    (rootLost s j).fx = s.fx ∧
    (rootLost s j).ps = s.ps ∧
    (rootLost s j).sp = s.sp ∧
    (rootLost s j).ai = s.ai ∧
    (rootLost s j).aq = s.aq ∧
    (rootLost s j).ck = s.ck ∧
    (rootLost s j).sc = s.sc ∧
    (rootLost s j).st = s.st ∧
    (rootLost s j).sv = s.sv ∧
    (rootLost s j).pd = s.pd ∧
    (rootLost s j).ct = s.ct ∧
    (rootLost s j).pl = s.pl ∧
    (rootLost s j).vc = s.vc ∧
    (rootLost s j).hl.locked = s.hl.locked := by
  unfold Machine.rootLost; first | (simp; done) | ((repeat' split) <;> simp; done) | (dsimp only; (repeat' split) <;> simp; done)
@[simp] theorem fswDone_keeps {s : State} :
    (fswDone s).pending = s.pending ∧
    (fswDone s).now = s.now ∧
    (fswDone s).regs = s.regs ∧
    (fswDone s).fr = s.fr ∧
    (fswDone s).mx = s.mx ∧
    (fswDone s).fx = s.fx ∧
    (fswDone s).ps = s.ps ∧
    (fswDone s).sp = s.sp ∧
    (fswDone s).ai = s.ai ∧
    (fswDone s).aq = s.aq ∧
    (fswDone s).dp = s.dp ∧
    (fswDone s).sc = s.sc ∧
    (fswDone s).st = s.st ∧
    (fswDone s).sv = s.sv ∧
    (fswDone s).pd = s.pd ∧
    (fswDone s).ct = s.ct ∧
    (fswDone s).pl = s.pl ∧
    (fswDone s).vc = s.vc ∧
    (fswDone s).hl.locked = s.hl.locked := by
  unfold Machine.fswDone; first | (simp; done) | ((repeat' split) <;> simp; done) | (dsimp only; (repeat' split) <;> simp; done)
@[simp] theorem pllHasLocked_keeps {s : State} {j : Nat} {q : Pll} {us : Nat} :
    (pllHasLocked s j q us).pending = s.pending ∧
    (pllHasLocked s j q us).now = s.now ∧
    (pllHasLocked s j q us).regs = s.regs ∧
    (pllHasLocked s j q us).fr = s.fr ∧
    (pllHasLocked s j q us).mx = s.mx ∧
    (pllHasLocked s j q us).fx = s.fx ∧
    (pllHasLocked s j q us).ps = s.ps ∧
    (pllHasLocked s j q us).sp = s.sp ∧
    (pllHasLocked s j q us).ai = s.ai ∧
    (pllHasLocked s j q us).aq = s.aq ∧
    (pllHasLocked s j q us).dp = s.dp ∧
    (pllHasLocked s j q us).sc = s.sc ∧
    (pllHasLocked s j q us).st = s.st ∧
    (pllHasLocked s j q us).sv = s.sv ∧
    (pllHasLocked s j q us).pd = s.pd ∧
    (pllHasLocked s j q us).ct = s.ct ∧
    (pllHasLocked s j q us).pl = s.pl ∧
    (pllHasLocked s j q us).vc = s.vc ∧
    (pllHasLocked s j q us).hl.locked = s.hl.locked := by
  unfold Machine.pllHasLocked; first | (simp; done) | ((repeat' split) <;> simp; done) | (dsimp only; (repeat' split) <;> simp; done)
@[simp] theorem pllLocks_keeps {s : State} {j : Nat} {band : Nat} {cached : Bool} {us : Nat} :
    (pllLocks s j band cached us).pending = s.pending ∧
    (pllLocks s j band cached us).now = s.now ∧
    (pllLocks s j band cached us).regs = s.regs ∧
    (pllLocks s j band cached us).fr = s.fr ∧
    (pllLocks s j band cached us).mx = s.mx ∧
    (pllLocks s j band cached us).fx = s.fx ∧
    (pllLocks s j band cached us).ps = s.ps ∧
    (pllLocks s j band cached us).sp = s.sp ∧
    (pllLocks s j band cached us).ai = s.ai ∧
    (pllLocks s j band cached us).aq = s.aq ∧
    (pllLocks s j band cached us).dp = s.dp ∧
    (pllLocks s j band cached us).sc = s.sc ∧
    (pllLocks s j band cached us).st = s.st ∧
    (pllLocks s j band cached us).sv = s.sv ∧
    (pllLocks s j band cached us).pd = s.pd ∧
    (pllLocks s j band cached us).ct = s.ct ∧
    (pllLocks s j band cached us).pl = s.pl ∧
    (pllLocks s j band cached us).vc = s.vc ∧
    (pllLocks s j band cached us).hl.locked = s.hl.locked := by
  unfold Machine.pllLocks; first | (simp; done) | ((repeat' split) <;> simp; done) | (dsimp only; (repeat' split) <;> simp; done)
@[simp] theorem pllLost_keeps {s : State} {j : Nat} {phase : Bool} :
    (pllLost s j phase).pending = s.pending ∧
    (pllLost s j phase).now = s.now ∧
    (pllLost s j phase).regs = s.regs ∧
    (pllLost s j phase).fr = s.fr ∧
    (pllLost s j phase).mx = s.mx ∧
    (pllLost s j phase).fx = s.fx ∧
    (pllLost s j phase).ps = s.ps ∧
    (pllLost s j phase).sp = s.sp ∧
    (pllLost s j phase).ai = s.ai ∧
    (pllLost s j phase).aq = s.aq ∧
    (pllLost s j phase).sc = s.sc ∧
    (pllLost s j phase).st = s.st ∧
    (pllLost s j phase).sv = s.sv ∧
    (pllLost s j phase).pd = s.pd ∧
    (pllLost s j phase).ct = s.ct ∧
    (pllLost s j phase).pl = s.pl ∧
    (pllLost s j phase).vc = s.vc ∧
    (pllLost s j phase).hl.locked = s.hl.locked := by
  unfold Machine.pllLost; first | (simp; done) | ((repeat' split) <;> simp; done) | (dsimp only; (repeat' split) <;> simp; done)
@[simp] theorem feedZero_keeps {s : State} :
    (feedZero s).pending = s.pending ∧
    (feedZero s).now = s.now ∧
    (feedZero s).out = s.out ∧
    (feedZero s).regs = s.regs ∧
    (feedZero s).fr = s.fr ∧
    (feedZero s).mx = s.mx ∧
    (feedZero s).fx = s.fx ∧
    (feedZero s).ai = s.ai ∧
    (feedZero s).dp = s.dp ∧
    (feedZero s).ck = s.ck ∧
    (feedZero s).sc = s.sc ∧
    (feedZero s).hl = s.hl ∧
    (feedZero s).st = s.st ∧
    (feedZero s).tw = s.tw ∧
    (feedZero s).sv = s.sv ∧
    (feedZero s).pd = s.pd ∧
    (feedZero s).ct = s.ct ∧
    (feedZero s).pl = s.pl ∧
    (feedZero s).vc = s.vc := by
  unfold Machine.feedZero; first | (simp; done) | ((repeat' split) <;> simp; done) | (dsimp only; (repeat' split) <;> simp; done)
@[simp] theorem stopStrobes_keeps {s : State} :
    (stopStrobes s).pending = s.pending ∧
    (stopStrobes s).now = s.now ∧
    (stopStrobes s).out = s.out ∧
    (stopStrobes s).regs = s.regs ∧
    (stopStrobes s).mx = s.mx ∧
    (stopStrobes s).fx = s.fx ∧
    (stopStrobes s).ai = s.ai ∧
    (stopStrobes s).sc = s.sc ∧
    (stopStrobes s).hl = s.hl ∧
    (stopStrobes s).st = s.st ∧
    (stopStrobes s).tw = s.tw ∧
    (stopStrobes s).sv = s.sv ∧
    (stopStrobes s).pd = s.pd ∧
    (stopStrobes s).ct = s.ct ∧
    (stopStrobes s).pl = s.pl ∧
    (stopStrobes s).vc = s.vc ∧
    (stopStrobes s).fr.fn = s.fr.fn ∧
    (stopStrobes s).fr.next = s.fr.next := by
  unfold Machine.stopStrobes; first | (simp; done) | ((repeat' split) <;> simp; done) | (dsimp only; (repeat' split) <;> simp; done)
@[simp] theorem strobeRestart_keeps {s : State} {cause : Nat} :
    (strobeRestart s cause).pending = s.pending ∧
    (strobeRestart s cause).now = s.now ∧
    (strobeRestart s cause).regs = s.regs ∧
    (strobeRestart s cause).fr = s.fr ∧
    (strobeRestart s cause).mx = s.mx ∧
    (strobeRestart s cause).fx = s.fx ∧
    (strobeRestart s cause).ps = s.ps ∧
    (strobeRestart s cause).sp = s.sp ∧
    (strobeRestart s cause).ai = s.ai ∧
    (strobeRestart s cause).aq = s.aq ∧
    (strobeRestart s cause).dp = s.dp ∧
    (strobeRestart s cause).sc = s.sc ∧
    (strobeRestart s cause).st = s.st ∧
    (strobeRestart s cause).sv = s.sv ∧
    (strobeRestart s cause).pd = s.pd ∧
    (strobeRestart s cause).ct = s.ct ∧
    (strobeRestart s cause).pl = s.pl ∧
    (strobeRestart s cause).vc = s.vc ∧
    (strobeRestart s cause).hl.locked = s.hl.locked := by
  unfold Machine.strobeRestart; first | (simp; done) | ((repeat' split) <;> simp; done) | (dsimp only; (repeat' split) <;> simp; done)
@[simp] theorem xtalLost_keeps {s : State} {cause : Nat} :
    (xtalLost s cause).pending = s.pending ∧
    (xtalLost s cause).now = s.now ∧
    (xtalLost s cause).regs = s.regs ∧
    (xtalLost s cause).fr = s.fr ∧
    (xtalLost s cause).mx = s.mx ∧
    (xtalLost s cause).fx = s.fx ∧
    (xtalLost s cause).ps = s.ps ∧
    (xtalLost s cause).sp = s.sp ∧
    (xtalLost s cause).ai = s.ai ∧
    (xtalLost s cause).aq = s.aq ∧
    (xtalLost s cause).dp = s.dp ∧
    (xtalLost s cause).sc = s.sc ∧
    (xtalLost s cause).st = s.st ∧
    (xtalLost s cause).sv = s.sv ∧
    (xtalLost s cause).pd = s.pd ∧
    (xtalLost s cause).ct = s.ct ∧
    (xtalLost s cause).pl = s.pl ∧
    (xtalLost s cause).vc = s.vc ∧
    (xtalLost s cause).hl.locked = s.hl.locked := by
  unfold Machine.xtalLost; first | (simp; done) | ((repeat' split) <;> simp; done) | (dsimp only; (repeat' split) <;> simp; done)
@[simp] theorem flushCaches_keeps {s : State} {v : Word} :
    (flushCaches s v).pending = s.pending ∧
    (flushCaches s v).now = s.now ∧
    (flushCaches s v).out = s.out ∧
    (flushCaches s v).regs = s.regs ∧
    (flushCaches s v).fr = s.fr ∧
    (flushCaches s v).mx = s.mx ∧
    (flushCaches s v).fx = s.fx ∧
    (flushCaches s v).ps = s.ps ∧
    (flushCaches s v).sp = s.sp ∧
    (flushCaches s v).ai = s.ai ∧
    (flushCaches s v).aq = s.aq ∧
    (flushCaches s v).dp = s.dp ∧
    (flushCaches s v).sc = s.sc ∧
    (flushCaches s v).hl = s.hl ∧
    (flushCaches s v).st = s.st ∧
    (flushCaches s v).tw = s.tw ∧
    (flushCaches s v).sv = s.sv ∧
    (flushCaches s v).pd = s.pd ∧
    (flushCaches s v).ct = s.ct ∧
    (flushCaches s v).pl = s.pl ∧
    (flushCaches s v).vc = s.vc := by
  unfold Machine.flushCaches; first | (simp; done) | ((repeat' split) <;> simp; done) | (dsimp only; (repeat' split) <;> simp; done)
@[simp] theorem applyFsw_keeps {s : State} {v : Nat} {slot : Nat} :
    (applyFsw s v slot).pending = s.pending ∧
    (applyFsw s v slot).now = s.now ∧
    (applyFsw s v slot).regs = s.regs ∧
    (applyFsw s v slot).fr = s.fr ∧
    (applyFsw s v slot).mx = s.mx ∧
    (applyFsw s v slot).fx = s.fx ∧
    (applyFsw s v slot).sp = s.sp ∧
    (applyFsw s v slot).ai = s.ai ∧
    (applyFsw s v slot).aq = s.aq ∧
    (applyFsw s v slot).dp = s.dp ∧
    (applyFsw s v slot).sc = s.sc ∧
    (applyFsw s v slot).st = s.st ∧
    (applyFsw s v slot).sv = s.sv ∧
    (applyFsw s v slot).pd = s.pd ∧
    (applyFsw s v slot).ct = s.ct ∧
    (applyFsw s v slot).pl = s.pl ∧
    (applyFsw s v slot).vc = s.vc ∧
    (applyFsw s v slot).hl.locked = s.hl.locked := by
  unfold Machine.applyFsw; first | (simp; done) | ((repeat' split) <;> simp; done) | (dsimp only; (repeat' split) <;> simp; done)
@[simp] theorem applyRate_keeps {s : State} {code : Nat} :
    (applyRate s code).pending = s.pending ∧
    (applyRate s code).now = s.now ∧
    (applyRate s code).out = s.out ∧
    (applyRate s code).regs = s.regs ∧
    (applyRate s code).fx = s.fx ∧
    (applyRate s code).ai = s.ai ∧
    (applyRate s code).sc = s.sc ∧
    (applyRate s code).hl = s.hl ∧
    (applyRate s code).st = s.st ∧
    (applyRate s code).tw = s.tw ∧
    (applyRate s code).sv = s.sv ∧
    (applyRate s code).pd = s.pd ∧
    (applyRate s code).ct = s.ct ∧
    (applyRate s code).pl = s.pl ∧
    (applyRate s code).vc = s.vc ∧
    (applyRate s code).fr.fn = s.fr.fn ∧
    (applyRate s code).fr.next = s.fr.next := by
  unfold Machine.applyRate; first | (simp; done) | ((repeat' split) <;> simp; done) | (dsimp only; (repeat' split) <;> simp; done)
@[simp] theorem setRef_keeps {s : State} {i : Nat} {x : Ref} :
    (setRef s i x).pending = s.pending ∧
    (setRef s i x).now = s.now ∧
    (setRef s i x).out = s.out ∧
    (setRef s i x).regs = s.regs ∧
    (setRef s i x).fr = s.fr ∧
    (setRef s i x).mx = s.mx ∧
    (setRef s i x).fx = s.fx ∧
    (setRef s i x).ps = s.ps ∧
    (setRef s i x).sp = s.sp ∧
    (setRef s i x).ai = s.ai ∧
    (setRef s i x).aq = s.aq ∧
    (setRef s i x).dp = s.dp ∧
    (setRef s i x).sc = s.sc ∧
    (setRef s i x).hl = s.hl ∧
    (setRef s i x).st = s.st ∧
    (setRef s i x).tw = s.tw ∧
    (setRef s i x).sv = s.sv ∧
    (setRef s i x).pd = s.pd ∧
    (setRef s i x).ct = s.ct ∧
    (setRef s i x).pl = s.pl ∧
    (setRef s i x).vc = s.vc := by
  unfold Machine.setRef; first | (simp; done) | ((repeat' split) <;> simp; done) | (dsimp only; (repeat' split) <;> simp; done)
@[simp] theorem leaveRef_keeps {s : State} {i : Nat} {cause : Nat} {n : RefState} :
    (leaveRef s i cause n).pending = s.pending ∧
    (leaveRef s i cause n).now = s.now ∧
    (leaveRef s i cause n).regs = s.regs ∧
    (leaveRef s i cause n).fr = s.fr ∧
    (leaveRef s i cause n).mx = s.mx ∧
    (leaveRef s i cause n).fx = s.fx ∧
    (leaveRef s i cause n).ps = s.ps ∧
    (leaveRef s i cause n).sp = s.sp ∧
    (leaveRef s i cause n).ai = s.ai ∧
    (leaveRef s i cause n).aq = s.aq ∧
    (leaveRef s i cause n).dp = s.dp ∧
    (leaveRef s i cause n).sc = s.sc ∧
    (leaveRef s i cause n).st = s.st ∧
    (leaveRef s i cause n).sv = s.sv ∧
    (leaveRef s i cause n).pd = s.pd ∧
    (leaveRef s i cause n).ct = s.ct ∧
    (leaveRef s i cause n).pl = s.pl ∧
    (leaveRef s i cause n).vc = s.vc ∧
    (leaveRef s i cause n).hl.locked = s.hl.locked := by
  unfold Machine.leaveRef; first | (simp; done) | ((repeat' split) <;> simp; done) | (dsimp only; (repeat' split) <;> simp; done)
@[simp] theorem refFollow_keeps {s : State} {i : Nat} :
    (refFollow s i).pending = s.pending ∧
    (refFollow s i).now = s.now ∧
    (refFollow s i).regs = s.regs ∧
    (refFollow s i).fr = s.fr ∧
    (refFollow s i).mx = s.mx ∧
    (refFollow s i).fx = s.fx ∧
    (refFollow s i).ps = s.ps ∧
    (refFollow s i).sp = s.sp ∧
    (refFollow s i).ai = s.ai ∧
    (refFollow s i).aq = s.aq ∧
    (refFollow s i).dp = s.dp ∧
    (refFollow s i).sc = s.sc ∧
    (refFollow s i).st = s.st ∧
    (refFollow s i).sv = s.sv ∧
    (refFollow s i).pd = s.pd ∧
    (refFollow s i).ct = s.ct ∧
    (refFollow s i).pl = s.pl ∧
    (refFollow s i).vc = s.vc ∧
    (refFollow s i).hl.locked = s.hl.locked := by
  unfold Machine.refFollow; first | (simp; done) | ((repeat' split) <;> simp; done) | (dsimp only; (repeat' split) <;> simp; done)
@[simp] theorem refFollowAll_keeps {s : State} :
    (refFollowAll s).pending = s.pending ∧
    (refFollowAll s).now = s.now ∧
    (refFollowAll s).regs = s.regs ∧
    (refFollowAll s).fr = s.fr ∧
    (refFollowAll s).mx = s.mx ∧
    (refFollowAll s).fx = s.fx ∧
    (refFollowAll s).ps = s.ps ∧
    (refFollowAll s).sp = s.sp ∧
    (refFollowAll s).ai = s.ai ∧
    (refFollowAll s).aq = s.aq ∧
    (refFollowAll s).dp = s.dp ∧
    (refFollowAll s).sc = s.sc ∧
    (refFollowAll s).st = s.st ∧
    (refFollowAll s).sv = s.sv ∧
    (refFollowAll s).pd = s.pd ∧
    (refFollowAll s).ct = s.ct ∧
    (refFollowAll s).pl = s.pl ∧
    (refFollowAll s).vc = s.vc ∧
    (refFollowAll s).hl.locked = s.hl.locked := by
  unfold Machine.refFollowAll; first | (simp; done) | ((repeat' split) <;> simp; done) | (dsimp only; (repeat' split) <;> simp; done)
@[simp] theorem selectRef_keeps {s : State} {r : Nat} {cause : Nat} :
    (selectRef s r cause).pending = s.pending ∧
    (selectRef s r cause).now = s.now ∧
    (selectRef s r cause).regs = s.regs ∧
    (selectRef s r cause).fr = s.fr ∧
    (selectRef s r cause).mx = s.mx ∧
    (selectRef s r cause).fx = s.fx ∧
    (selectRef s r cause).ps = s.ps ∧
    (selectRef s r cause).sp = s.sp ∧
    (selectRef s r cause).ai = s.ai ∧
    (selectRef s r cause).aq = s.aq ∧
    (selectRef s r cause).dp = s.dp ∧
    (selectRef s r cause).sc = s.sc ∧
    (selectRef s r cause).st = s.st ∧
    (selectRef s r cause).sv = s.sv ∧
    (selectRef s r cause).pd = s.pd ∧
    (selectRef s r cause).ct = s.ct ∧
    (selectRef s r cause).pl = s.pl ∧
    (selectRef s r cause).vc = s.vc ∧
    (selectRef s r cause).hl.locked = s.hl.locked := by
  unfold Machine.selectRef; first | (simp; done) | ((repeat' split) <;> simp; done) | (dsimp only; (repeat' split) <;> simp; done)
@[simp] theorem setDco_keeps {s : State} {d : Int} :
    (setDco s d).pending = s.pending ∧
    (setDco s d).now = s.now ∧
    (setDco s d).regs = s.regs ∧
    (setDco s d).fr = s.fr ∧
    (setDco s d).mx = s.mx ∧
    (setDco s d).fx = s.fx ∧
    (setDco s d).ps = s.ps ∧
    (setDco s d).sp = s.sp ∧
    (setDco s d).ai = s.ai ∧
    (setDco s d).aq = s.aq ∧
    (setDco s d).dp = s.dp ∧
    (setDco s d).sc = s.sc ∧
    (setDco s d).st = s.st ∧
    (setDco s d).sv = s.sv ∧
    (setDco s d).pd = s.pd ∧
    (setDco s d).ct = s.ct ∧
    (setDco s d).pl = s.pl ∧
    (setDco s d).vc = s.vc ∧
    (setDco s d).hl.locked = s.hl.locked := by
  unfold Machine.setDco; first | (simp; done) | ((repeat' split) <;> simp; done) | (dsimp only; (repeat' split) <;> simp; done)
@[simp] theorem freeRunStep_keeps {s : State} :
    (freeRunStep s).pending = s.pending ∧
    (freeRunStep s).now = s.now ∧
    (freeRunStep s).out = s.out ∧
    (freeRunStep s).regs = s.regs ∧
    (freeRunStep s).fr = s.fr ∧
    (freeRunStep s).mx = s.mx ∧
    (freeRunStep s).fx = s.fx ∧
    (freeRunStep s).ps = s.ps ∧
    (freeRunStep s).sp = s.sp ∧
    (freeRunStep s).ai = s.ai ∧
    (freeRunStep s).aq = s.aq ∧
    (freeRunStep s).dp = s.dp ∧
    (freeRunStep s).sc = s.sc ∧
    (freeRunStep s).hl = s.hl ∧
    (freeRunStep s).st = s.st ∧
    (freeRunStep s).tw = s.tw ∧
    (freeRunStep s).sv = s.sv ∧
    (freeRunStep s).pd = s.pd ∧
    (freeRunStep s).ct = s.ct ∧
    (freeRunStep s).pl = s.pl ∧
    (freeRunStep s).vc = s.vc := by
  unfold Machine.freeRunStep; first | (simp; done) | ((repeat' split) <;> simp; done) | (dsimp only; (repeat' split) <;> simp; done)
@[simp] theorem measureRefs_keeps {s : State} {offsets : Tbl Int} :
    (measureRefs s offsets).pending = s.pending ∧
    (measureRefs s offsets).now = s.now ∧
    (measureRefs s offsets).out = s.out ∧
    (measureRefs s offsets).regs = s.regs ∧
    (measureRefs s offsets).fr = s.fr ∧
    (measureRefs s offsets).mx = s.mx ∧
    (measureRefs s offsets).fx = s.fx ∧
    (measureRefs s offsets).ps = s.ps ∧
    (measureRefs s offsets).sp = s.sp ∧
    (measureRefs s offsets).ai = s.ai ∧
    (measureRefs s offsets).aq = s.aq ∧
    (measureRefs s offsets).dp = s.dp ∧
    (measureRefs s offsets).sc = s.sc ∧
    (measureRefs s offsets).hl = s.hl ∧
    (measureRefs s offsets).st = s.st ∧
    (measureRefs s offsets).tw = s.tw ∧
    (measureRefs s offsets).sv = s.sv ∧
    (measureRefs s offsets).pd = s.pd ∧
    (measureRefs s offsets).ct = s.ct ∧
    (measureRefs s offsets).pl = s.pl ∧
    (measureRefs s offsets).vc = s.vc := by
  unfold Machine.measureRefs; first | (simp; done) | ((repeat' split) <;> simp; done) | (dsimp only; (repeat' split) <;> simp; done)
@[simp] theorem clockStrobe_keeps {s : State} {dco : Int} {phaseErr : Int} {offsets : Tbl Int} :
    (clockStrobe s dco phaseErr offsets).pending = s.pending ∧
    (clockStrobe s dco phaseErr offsets).now = s.now ∧
    (clockStrobe s dco phaseErr offsets).regs = s.regs ∧
    (clockStrobe s dco phaseErr offsets).fr = s.fr ∧
    (clockStrobe s dco phaseErr offsets).mx = s.mx ∧
    (clockStrobe s dco phaseErr offsets).fx = s.fx ∧
    (clockStrobe s dco phaseErr offsets).ps = s.ps ∧
    (clockStrobe s dco phaseErr offsets).sp = s.sp ∧
    (clockStrobe s dco phaseErr offsets).ai = s.ai ∧
    (clockStrobe s dco phaseErr offsets).aq = s.aq ∧
    (clockStrobe s dco phaseErr offsets).dp = s.dp ∧
    (clockStrobe s dco phaseErr offsets).sc = s.sc ∧
    (clockStrobe s dco phaseErr offsets).st = s.st ∧
    (clockStrobe s dco phaseErr offsets).sv = s.sv ∧
    (clockStrobe s dco phaseErr offsets).pd = s.pd ∧
    (clockStrobe s dco phaseErr offsets).ct = s.ct ∧
    (clockStrobe s dco phaseErr offsets).pl = s.pl ∧
    (clockStrobe s dco phaseErr offsets).vc = s.vc ∧
    (clockStrobe s dco phaseErr offsets).hl.locked = s.hl.locked := by
  unfold Machine.clockStrobe; first | (simp; done) | ((repeat' split) <;> simp; done) | (dsimp only; (repeat' split) <;> simp; done)
@[simp] theorem steerWrite_keeps {s : State} {v : Word} :
    (steerWrite s v).pending = s.pending ∧
    (steerWrite s v).now = s.now ∧
    (steerWrite s v).out = s.out ∧
    (steerWrite s v).fr = s.fr ∧
    (steerWrite s v).mx = s.mx ∧
    (steerWrite s v).fx = s.fx ∧
    (steerWrite s v).ps = s.ps ∧
    (steerWrite s v).sp = s.sp ∧
    (steerWrite s v).ai = s.ai ∧
    (steerWrite s v).aq = s.aq ∧
    (steerWrite s v).dp = s.dp ∧
    (steerWrite s v).sc = s.sc ∧
    (steerWrite s v).hl = s.hl ∧
    (steerWrite s v).st = s.st ∧
    (steerWrite s v).tw = s.tw ∧
    (steerWrite s v).sv = s.sv ∧
    (steerWrite s v).pd = s.pd ∧
    (steerWrite s v).ct = s.ct ∧
    (steerWrite s v).pl = s.pl ∧
    (steerWrite s v).vc = s.vc := by
  unfold Machine.steerWrite; first | (simp; done) | ((repeat' split) <;> simp; done) | (dsimp only; (repeat' split) <;> simp; done)
@[simp] theorem applyCk_keeps {s : State} {n : RegName} {i : Nat} {v : Word} :
    (applyCk s n i v).pending = s.pending ∧
    (applyCk s n i v).now = s.now ∧
    (applyCk s n i v).out = s.out ∧
    (applyCk s n i v).fr = s.fr ∧
    (applyCk s n i v).mx = s.mx ∧
    (applyCk s n i v).fx = s.fx ∧
    (applyCk s n i v).ps = s.ps ∧
    (applyCk s n i v).sp = s.sp ∧
    (applyCk s n i v).ai = s.ai ∧
    (applyCk s n i v).aq = s.aq ∧
    (applyCk s n i v).dp = s.dp ∧
    (applyCk s n i v).sc = s.sc ∧
    (applyCk s n i v).hl = s.hl ∧
    (applyCk s n i v).st = s.st ∧
    (applyCk s n i v).tw = s.tw ∧
    (applyCk s n i v).sv = s.sv ∧
    (applyCk s n i v).pd = s.pd ∧
    (applyCk s n i v).ct = s.ct ∧
    (applyCk s n i v).pl = s.pl ∧
    (applyCk s n i v).vc = s.vc := by
  unfold Machine.applyCk; first | (simp; done) | ((repeat' split) <;> simp; done) | (dsimp only; (repeat' split) <;> simp; done)
@[simp] theorem rateLost_keeps {s : State} :
    (rateLost s).pending = s.pending ∧
    (rateLost s).now = s.now ∧
    (rateLost s).regs = s.regs ∧
    (rateLost s).mx = s.mx ∧
    (rateLost s).fx = s.fx ∧
    (rateLost s).ps = s.ps ∧
    (rateLost s).sp = s.sp ∧
    (rateLost s).ai = s.ai ∧
    (rateLost s).aq = s.aq ∧
    (rateLost s).dp = s.dp ∧
    (rateLost s).ck = s.ck ∧
    (rateLost s).sc = s.sc ∧
    (rateLost s).st = s.st ∧
    (rateLost s).sv = s.sv ∧
    (rateLost s).pd = s.pd ∧
    (rateLost s).ct = s.ct ∧
    (rateLost s).pl = s.pl ∧
    (rateLost s).vc = s.vc ∧
    (rateLost s).fr.fn = s.fr.fn ∧
    (rateLost s).fr.next = s.fr.next ∧
    (rateLost s).fr.running = s.fr.running ∧
    (rateLost s).hl.locked = s.hl.locked := by
  unfold Machine.rateLost; first | (simp; done) | ((repeat' split) <;> simp; done) | (dsimp only; (repeat' split) <;> simp; done)
@[simp] theorem clkOff_keeps {s : State} :
    (clkOff s).pending = s.pending ∧
    (clkOff s).now = s.now ∧
    (clkOff s).regs = s.regs ∧
    (clkOff s).mx = s.mx ∧
    (clkOff s).fx = s.fx ∧
    (clkOff s).ps = s.ps ∧
    (clkOff s).sp = s.sp ∧
    (clkOff s).ai = s.ai ∧
    (clkOff s).aq = s.aq ∧
    (clkOff s).dp = s.dp ∧
    (clkOff s).sc = s.sc ∧
    (clkOff s).st = s.st ∧
    (clkOff s).sv = s.sv ∧
    (clkOff s).pd = s.pd ∧
    (clkOff s).ct = s.ct ∧
    (clkOff s).pl = s.pl ∧
    (clkOff s).vc = s.vc ∧
    (clkOff s).fr.fn = s.fr.fn ∧
    (clkOff s).fr.next = s.fr.next ∧
    (clkOff s).hl.locked = s.hl.locked := by
  unfold Machine.clkOff; first | (simp; done) | ((repeat' split) <;> simp; done) | (dsimp only; (repeat' split) <;> simp; done)
@[simp] theorem clkLock_keeps {s : State} {j : Nat} :
    (clkLock s j).pending = s.pending ∧
    (clkLock s j).now = s.now ∧
    (clkLock s j).regs = s.regs ∧
    (clkLock s j).fr = s.fr ∧
    (clkLock s j).mx = s.mx ∧
    (clkLock s j).fx = s.fx ∧
    (clkLock s j).ps = s.ps ∧
    (clkLock s j).sp = s.sp ∧
    (clkLock s j).ai = s.ai ∧
    (clkLock s j).aq = s.aq ∧
    (clkLock s j).dp = s.dp ∧
    (clkLock s j).sc = s.sc ∧
    (clkLock s j).st = s.st ∧
    (clkLock s j).sv = s.sv ∧
    (clkLock s j).pd = s.pd ∧
    (clkLock s j).ct = s.ct ∧
    (clkLock s j).pl = s.pl ∧
    (clkLock s j).vc = s.vc ∧
    (clkLock s j).hl.locked = s.hl.locked := by
  unfold Machine.clkLock; first | (simp; done) | ((repeat' split) <;> simp; done) | (dsimp only; (repeat' split) <;> simp; done)
@[simp] theorem clkReady_keeps {s : State} :
    (clkReady s).pending = s.pending ∧
    (clkReady s).now = s.now ∧
    (clkReady s).regs = s.regs ∧
    (clkReady s).fr = s.fr ∧
    (clkReady s).mx = s.mx ∧
    (clkReady s).fx = s.fx ∧
    (clkReady s).ps = s.ps ∧
    (clkReady s).sp = s.sp ∧
    (clkReady s).ai = s.ai ∧
    (clkReady s).aq = s.aq ∧
    (clkReady s).dp = s.dp ∧
    (clkReady s).sc = s.sc ∧
    (clkReady s).st = s.st ∧
    (clkReady s).sv = s.sv ∧
    (clkReady s).pd = s.pd ∧
    (clkReady s).ct = s.ct ∧
    (clkReady s).pl = s.pl ∧
    (clkReady s).vc = s.vc ∧
    (clkReady s).hl.locked = s.hl.locked := by
  unfold Machine.clkReady; first | (simp; done) | ((repeat' split) <;> simp; done) | (dsimp only; (repeat' split) <;> simp; done)
@[simp] theorem setConv_keeps {s : State} {k : Nat} {x : Conv} :
    (setConv s k x).pending = s.pending ∧
    (setConv s k x).now = s.now ∧
    (setConv s k x).out = s.out ∧
    (setConv s k x).regs = s.regs ∧
    (setConv s k x).fr = s.fr ∧
    (setConv s k x).mx = s.mx ∧
    (setConv s k x).fx = s.fx ∧
    (setConv s k x).ps = s.ps ∧
    (setConv s k x).sp = s.sp ∧
    (setConv s k x).ai = s.ai ∧
    (setConv s k x).aq = s.aq ∧
    (setConv s k x).dp = s.dp ∧
    (setConv s k x).ck = s.ck ∧
    (setConv s k x).hl = s.hl ∧
    (setConv s k x).st = s.st ∧
    (setConv s k x).tw = s.tw ∧
    (setConv s k x).sv = s.sv ∧
    (setConv s k x).pd = s.pd ∧
    (setConv s k x).ct = s.ct ∧
    (setConv s k x).pl = s.pl ∧
    (setConv s k x).vc = s.vc := by
  unfold Machine.setConv; first | (simp; done) | ((repeat' split) <;> simp; done) | (dsimp only; (repeat' split) <;> simp; done)
@[simp] theorem setScEnt_keeps {s : State} {e : Nat} {x : ScEntry} :
    (setScEnt s e x).pending = s.pending ∧
    (setScEnt s e x).now = s.now ∧
    (setScEnt s e x).out = s.out ∧
    (setScEnt s e x).regs = s.regs ∧
    (setScEnt s e x).fr = s.fr ∧
    (setScEnt s e x).mx = s.mx ∧
    (setScEnt s e x).fx = s.fx ∧
    (setScEnt s e x).ps = s.ps ∧
    (setScEnt s e x).sp = s.sp ∧
    (setScEnt s e x).ai = s.ai ∧
    (setScEnt s e x).aq = s.aq ∧
    (setScEnt s e x).dp = s.dp ∧
    (setScEnt s e x).ck = s.ck ∧
    (setScEnt s e x).hl = s.hl ∧
    (setScEnt s e x).st = s.st ∧
    (setScEnt s e x).tw = s.tw ∧
    (setScEnt s e x).sv = s.sv ∧
    (setScEnt s e x).pd = s.pd ∧
    (setScEnt s e x).ct = s.ct ∧
    (setScEnt s e x).pl = s.pl ∧
    (setScEnt s e x).vc = s.vc := by
  unfold Machine.setScEnt; first | (simp; done) | ((repeat' split) <;> simp; done) | (dsimp only; (repeat' split) <;> simp; done)
@[simp] theorem driveMux_keeps {s : State} {a : Nat} :
    (driveMux s a).pending = s.pending ∧
    (driveMux s a).now = s.now ∧
    (driveMux s a).out = s.out ∧
    (driveMux s a).regs = s.regs ∧
    (driveMux s a).fr = s.fr ∧
    (driveMux s a).mx = s.mx ∧
    (driveMux s a).fx = s.fx ∧
    (driveMux s a).ps = s.ps ∧
    (driveMux s a).sp = s.sp ∧
    (driveMux s a).ai = s.ai ∧
    (driveMux s a).aq = s.aq ∧
    (driveMux s a).dp = s.dp ∧
    (driveMux s a).ck = s.ck ∧
    (driveMux s a).hl = s.hl ∧
    (driveMux s a).st = s.st ∧
    (driveMux s a).tw = s.tw ∧
    (driveMux s a).sv = s.sv ∧
    (driveMux s a).pd = s.pd ∧
    (driveMux s a).ct = s.ct ∧
    (driveMux s a).pl = s.pl ∧
    (driveMux s a).vc = s.vc := by
  unfold Machine.driveMux; first | (simp; done) | ((repeat' split) <;> simp; done) | (dsimp only; (repeat' split) <;> simp; done)
@[simp] theorem entryMux_keeps {s : State} {k : Nat} {e : Nat} :
    (entryMux s k e).pending = s.pending ∧
    (entryMux s k e).now = s.now ∧
    (entryMux s k e).out = s.out ∧
    (entryMux s k e).regs = s.regs ∧
    (entryMux s k e).fr = s.fr ∧
    (entryMux s k e).mx = s.mx ∧
    (entryMux s k e).fx = s.fx ∧
    (entryMux s k e).ps = s.ps ∧
    (entryMux s k e).sp = s.sp ∧
    (entryMux s k e).ai = s.ai ∧
    (entryMux s k e).aq = s.aq ∧
    (entryMux s k e).dp = s.dp ∧
    (entryMux s k e).ck = s.ck ∧
    (entryMux s k e).hl = s.hl ∧
    (entryMux s k e).st = s.st ∧
    (entryMux s k e).tw = s.tw ∧
    (entryMux s k e).sv = s.sv ∧
    (entryMux s k e).pd = s.pd ∧
    (entryMux s k e).ct = s.ct ∧
    (entryMux s k e).pl = s.pl ∧
    (entryMux s k e).vc = s.vc := by
  unfold Machine.entryMux; first | (simp; done) | ((repeat' split) <;> simp; done) | (dsimp only; (repeat' split) <;> simp; done)
@[simp] theorem followMux_keeps {s : State} {k : Nat} {i : Nat} :
    (followMux s k i).pending = s.pending ∧
    (followMux s k i).now = s.now ∧
    (followMux s k i).out = s.out ∧
    (followMux s k i).regs = s.regs ∧
    (followMux s k i).fr = s.fr ∧
    (followMux s k i).mx = s.mx ∧
    (followMux s k i).fx = s.fx ∧
    (followMux s k i).ps = s.ps ∧
    (followMux s k i).sp = s.sp ∧
    (followMux s k i).ai = s.ai ∧
    (followMux s k i).aq = s.aq ∧
    (followMux s k i).dp = s.dp ∧
    (followMux s k i).ck = s.ck ∧
    (followMux s k i).hl = s.hl ∧
    (followMux s k i).st = s.st ∧
    (followMux s k i).tw = s.tw ∧
    (followMux s k i).sv = s.sv ∧
    (followMux s k i).pd = s.pd ∧
    (followMux s k i).ct = s.ct ∧
    (followMux s k i).pl = s.pl ∧
    (followMux s k i).vc = s.vc := by
  unfold Machine.followMux; first | (simp; done) | ((repeat' split) <;> simp; done) | (dsimp only; (repeat' split) <;> simp; done)
@[simp] theorem passEnd_keeps {s : State} {k : Nat} :
    (passEnd s k).pending = s.pending ∧
    (passEnd s k).now = s.now ∧
    (passEnd s k).out = s.out ∧
    (passEnd s k).regs = s.regs ∧
    (passEnd s k).fr = s.fr ∧
    (passEnd s k).mx = s.mx ∧
    (passEnd s k).fx = s.fx ∧
    (passEnd s k).ps = s.ps ∧
    (passEnd s k).sp = s.sp ∧
    (passEnd s k).ai = s.ai ∧
    (passEnd s k).aq = s.aq ∧
    (passEnd s k).dp = s.dp ∧
    (passEnd s k).ck = s.ck ∧
    (passEnd s k).hl = s.hl ∧
    (passEnd s k).st = s.st ∧
    (passEnd s k).tw = s.tw ∧
    (passEnd s k).sv = s.sv ∧
    (passEnd s k).pd = s.pd ∧
    (passEnd s k).ct = s.ct ∧
    (passEnd s k).pl = s.pl ∧
    (passEnd s k).vc = s.vc := by
  unfold Machine.passEnd; first | (simp; done) | ((repeat' split) <;> simp; done) | (dsimp only; (repeat' split) <;> simp; done)
@[simp] theorem advance_keeps {s : State} {k : Nat} {i : Nat} :
    (advance s k i).pending = s.pending ∧
    (advance s k i).now = s.now ∧
    (advance s k i).out = s.out ∧
    (advance s k i).regs = s.regs ∧
    (advance s k i).fr = s.fr ∧
    (advance s k i).mx = s.mx ∧
    (advance s k i).fx = s.fx ∧
    (advance s k i).ps = s.ps ∧
    (advance s k i).sp = s.sp ∧
    (advance s k i).ai = s.ai ∧
    (advance s k i).aq = s.aq ∧
    (advance s k i).dp = s.dp ∧
    (advance s k i).ck = s.ck ∧
    (advance s k i).hl = s.hl ∧
    (advance s k i).st = s.st ∧
    (advance s k i).tw = s.tw ∧
    (advance s k i).sv = s.sv ∧
    (advance s k i).pd = s.pd ∧
    (advance s k i).ct = s.ct ∧
    (advance s k i).pl = s.pl ∧
    (advance s k i).vc = s.vc := by
  unfold Machine.advance; first | (simp; done) | ((repeat' split) <;> simp; done) | (dsimp only; (repeat' split) <;> simp; done)
@[simp] theorem passStart_keeps {s : State} {k : Nat} :
    (passStart s k).pending = s.pending ∧
    (passStart s k).now = s.now ∧
    (passStart s k).out = s.out ∧
    (passStart s k).regs = s.regs ∧
    (passStart s k).fr = s.fr ∧
    (passStart s k).mx = s.mx ∧
    (passStart s k).fx = s.fx ∧
    (passStart s k).ps = s.ps ∧
    (passStart s k).sp = s.sp ∧
    (passStart s k).ai = s.ai ∧
    (passStart s k).aq = s.aq ∧
    (passStart s k).dp = s.dp ∧
    (passStart s k).ck = s.ck ∧
    (passStart s k).hl = s.hl ∧
    (passStart s k).st = s.st ∧
    (passStart s k).tw = s.tw ∧
    (passStart s k).sv = s.sv ∧
    (passStart s k).pd = s.pd ∧
    (passStart s k).ct = s.ct ∧
    (passStart s k).pl = s.pl ∧
    (passStart s k).vc = s.vc := by
  unfold Machine.passStart; first | (simp; done) | ((repeat' split) <;> simp; done) | (dsimp only; (repeat' split) <;> simp; done)
@[simp] theorem convStart_keeps {s : State} {k : Nat} :
    (convStart s k).pending = s.pending ∧
    (convStart s k).now = s.now ∧
    (convStart s k).out = s.out ∧
    (convStart s k).regs = s.regs ∧
    (convStart s k).fr = s.fr ∧
    (convStart s k).mx = s.mx ∧
    (convStart s k).fx = s.fx ∧
    (convStart s k).ps = s.ps ∧
    (convStart s k).sp = s.sp ∧
    (convStart s k).ai = s.ai ∧
    (convStart s k).aq = s.aq ∧
    (convStart s k).dp = s.dp ∧
    (convStart s k).ck = s.ck ∧
    (convStart s k).hl = s.hl ∧
    (convStart s k).st = s.st ∧
    (convStart s k).tw = s.tw ∧
    (convStart s k).sv = s.sv ∧
    (convStart s k).pd = s.pd ∧
    (convStart s k).ct = s.ct ∧
    (convStart s k).pl = s.pl ∧
    (convStart s k).vc = s.vc := by
  unfold Machine.convStart; first | (simp; done) | ((repeat' split) <;> simp; done) | (dsimp only; (repeat' split) <;> simp; done)
@[simp] theorem scanStart_keeps {s : State} {k : Nat} :
    (scanStart s k).pending = s.pending ∧
    (scanStart s k).now = s.now ∧
    (scanStart s k).regs = s.regs ∧
    (scanStart s k).fr = s.fr ∧
    (scanStart s k).mx = s.mx ∧
    (scanStart s k).fx = s.fx ∧
    (scanStart s k).ps = s.ps ∧
    (scanStart s k).sp = s.sp ∧
    (scanStart s k).ai = s.ai ∧
    (scanStart s k).aq = s.aq ∧
    (scanStart s k).dp = s.dp ∧
    (scanStart s k).ck = s.ck ∧
    (scanStart s k).st = s.st ∧
    (scanStart s k).sv = s.sv ∧
    (scanStart s k).pd = s.pd ∧
    (scanStart s k).ct = s.ct ∧
    (scanStart s k).pl = s.pl ∧
    (scanStart s k).vc = s.vc ∧
    (scanStart s k).hl.locked = s.hl.locked := by
  unfold Machine.scanStart; first | (simp; done) | ((repeat' split) <;> simp; done) | (dsimp only; (repeat' split) <;> simp; done)
@[simp] theorem keyEvent_keeps {s : State} {code : Nat} {e : Nat} {at_ : Nat} {dt : Nat} {flags : Nat} {k : Nat} {p : Nat} :
    (keyEvent s code e at_ dt flags k p).pending = s.pending ∧
    (keyEvent s code e at_ dt flags k p).now = s.now ∧
    (keyEvent s code e at_ dt flags k p).regs = s.regs ∧
    (keyEvent s code e at_ dt flags k p).fr = s.fr ∧
    (keyEvent s code e at_ dt flags k p).mx = s.mx ∧
    (keyEvent s code e at_ dt flags k p).fx = s.fx ∧
    (keyEvent s code e at_ dt flags k p).ps = s.ps ∧
    (keyEvent s code e at_ dt flags k p).sp = s.sp ∧
    (keyEvent s code e at_ dt flags k p).ai = s.ai ∧
    (keyEvent s code e at_ dt flags k p).aq = s.aq ∧
    (keyEvent s code e at_ dt flags k p).dp = s.dp ∧
    (keyEvent s code e at_ dt flags k p).ck = s.ck ∧
    (keyEvent s code e at_ dt flags k p).sc = s.sc ∧
    (keyEvent s code e at_ dt flags k p).st = s.st ∧
    (keyEvent s code e at_ dt flags k p).sv = s.sv ∧
    (keyEvent s code e at_ dt flags k p).pd = s.pd ∧
    (keyEvent s code e at_ dt flags k p).ct = s.ct ∧
    (keyEvent s code e at_ dt flags k p).pl = s.pl ∧
    (keyEvent s code e at_ dt flags k p).vc = s.vc ∧
    (keyEvent s code e at_ dt flags k p).hl.locked = s.hl.locked := by
  unfold Machine.keyEvent; first | (simp; done) | ((repeat' split) <;> simp; done) | (dsimp only; (repeat' split) <;> simp; done)
@[simp] theorem keyNoCross_keeps {s : State} {code : Nat} {e : Nat} {flags : Nat} {k : Nat} {p : Nat} :
    (keyNoCross s code e flags k p).pending = s.pending ∧
    (keyNoCross s code e flags k p).now = s.now ∧
    (keyNoCross s code e flags k p).regs = s.regs ∧
    (keyNoCross s code e flags k p).fr = s.fr ∧
    (keyNoCross s code e flags k p).mx = s.mx ∧
    (keyNoCross s code e flags k p).fx = s.fx ∧
    (keyNoCross s code e flags k p).ps = s.ps ∧
    (keyNoCross s code e flags k p).sp = s.sp ∧
    (keyNoCross s code e flags k p).ai = s.ai ∧
    (keyNoCross s code e flags k p).aq = s.aq ∧
    (keyNoCross s code e flags k p).dp = s.dp ∧
    (keyNoCross s code e flags k p).ck = s.ck ∧
    (keyNoCross s code e flags k p).sc = s.sc ∧
    (keyNoCross s code e flags k p).st = s.st ∧
    (keyNoCross s code e flags k p).sv = s.sv ∧
    (keyNoCross s code e flags k p).pd = s.pd ∧
    (keyNoCross s code e flags k p).ct = s.ct ∧
    (keyNoCross s code e flags k p).pl = s.pl ∧
    (keyNoCross s code e flags k p).vc = s.vc ∧
    (keyNoCross s code e flags k p).hl.locked = s.hl.locked := by
  unfold Machine.keyNoCross; first | (simp; done) | ((repeat' split) <;> simp; done) | (dsimp only; (repeat' split) <;> simp; done)
@[simp] theorem entryStop_keeps {k : Nat} {s : State} {e : Nat} :
    (entryStop k s e).pending = s.pending ∧
    (entryStop k s e).now = s.now ∧
    (entryStop k s e).regs = s.regs ∧
    (entryStop k s e).fr = s.fr ∧
    (entryStop k s e).mx = s.mx ∧
    (entryStop k s e).fx = s.fx ∧
    (entryStop k s e).ps = s.ps ∧
    (entryStop k s e).sp = s.sp ∧
    (entryStop k s e).ai = s.ai ∧
    (entryStop k s e).aq = s.aq ∧
    (entryStop k s e).dp = s.dp ∧
    (entryStop k s e).ck = s.ck ∧
    (entryStop k s e).st = s.st ∧
    (entryStop k s e).sv = s.sv ∧
    (entryStop k s e).pd = s.pd ∧
    (entryStop k s e).ct = s.ct ∧
    (entryStop k s e).pl = s.pl ∧
    (entryStop k s e).vc = s.vc ∧
    (entryStop k s e).hl.locked = s.hl.locked := by
  unfold Machine.entryStop; first | (simp; done) | ((repeat' split) <;> simp; done) | (dsimp only; (repeat' split) <;> simp; done)
@[simp] theorem convStop_keeps {cause : Nat} {s : State} {k : Nat} :
    (convStop cause s k).pending = s.pending ∧
    (convStop cause s k).now = s.now ∧
    (convStop cause s k).regs = s.regs ∧
    (convStop cause s k).fr = s.fr ∧
    (convStop cause s k).mx = s.mx ∧
    (convStop cause s k).fx = s.fx ∧
    (convStop cause s k).ps = s.ps ∧
    (convStop cause s k).sp = s.sp ∧
    (convStop cause s k).ai = s.ai ∧
    (convStop cause s k).aq = s.aq ∧
    (convStop cause s k).dp = s.dp ∧
    (convStop cause s k).ck = s.ck ∧
    (convStop cause s k).st = s.st ∧
    (convStop cause s k).sv = s.sv ∧
    (convStop cause s k).pd = s.pd ∧
    (convStop cause s k).ct = s.ct ∧
    (convStop cause s k).pl = s.pl ∧
    (convStop cause s k).vc = s.vc ∧
    (convStop cause s k).hl.locked = s.hl.locked := by
  unfold Machine.convStop; first | (simp; done) | ((repeat' split) <;> simp; done) | (dsimp only; (repeat' split) <;> simp; done)
@[simp] theorem scanStop_keeps {s : State} {k : Nat} :
    (scanStop s k).pending = s.pending ∧
    (scanStop s k).now = s.now ∧
    (scanStop s k).regs = s.regs ∧
    (scanStop s k).fr = s.fr ∧
    (scanStop s k).mx = s.mx ∧
    (scanStop s k).fx = s.fx ∧
    (scanStop s k).ps = s.ps ∧
    (scanStop s k).sp = s.sp ∧
    (scanStop s k).ai = s.ai ∧
    (scanStop s k).aq = s.aq ∧
    (scanStop s k).dp = s.dp ∧
    (scanStop s k).ck = s.ck ∧
    (scanStop s k).st = s.st ∧
    (scanStop s k).sv = s.sv ∧
    (scanStop s k).pd = s.pd ∧
    (scanStop s k).ct = s.ct ∧
    (scanStop s k).pl = s.pl ∧
    (scanStop s k).vc = s.vc ∧
    (scanStop s k).hl.locked = s.hl.locked := by
  unfold Machine.scanStop; first | (simp; done) | ((repeat' split) <;> simp; done) | (dsimp only; (repeat' split) <;> simp; done)
@[simp] theorem convCtrl_keeps {s : State} {k : Nat} {v : Word} :
    (convCtrl s k v).pending = s.pending ∧
    (convCtrl s k v).now = s.now ∧
    (convCtrl s k v).regs = s.regs ∧
    (convCtrl s k v).fr = s.fr ∧
    (convCtrl s k v).mx = s.mx ∧
    (convCtrl s k v).fx = s.fx ∧
    (convCtrl s k v).ps = s.ps ∧
    (convCtrl s k v).sp = s.sp ∧
    (convCtrl s k v).ai = s.ai ∧
    (convCtrl s k v).aq = s.aq ∧
    (convCtrl s k v).dp = s.dp ∧
    (convCtrl s k v).ck = s.ck ∧
    (convCtrl s k v).st = s.st ∧
    (convCtrl s k v).sv = s.sv ∧
    (convCtrl s k v).pd = s.pd ∧
    (convCtrl s k v).ct = s.ct ∧
    (convCtrl s k v).pl = s.pl ∧
    (convCtrl s k v).vc = s.vc ∧
    (convCtrl s k v).hl.locked = s.hl.locked := by
  unfold Machine.convCtrl; first | (simp; done) | ((repeat' split) <;> simp; done) | (dsimp only; (repeat' split) <;> simp; done)
@[simp] theorem senseOff_keeps {s : State} :
    (senseOff s).pending = s.pending ∧
    (senseOff s).now = s.now ∧
    (senseOff s).regs = s.regs ∧
    (senseOff s).fr = s.fr ∧
    (senseOff s).mx = s.mx ∧
    (senseOff s).fx = s.fx ∧
    (senseOff s).ps = s.ps ∧
    (senseOff s).sp = s.sp ∧
    (senseOff s).ai = s.ai ∧
    (senseOff s).aq = s.aq ∧
    (senseOff s).dp = s.dp ∧
    (senseOff s).ck = s.ck ∧
    (senseOff s).st = s.st ∧
    (senseOff s).sv = s.sv ∧
    (senseOff s).pd = s.pd ∧
    (senseOff s).ct = s.ct ∧
    (senseOff s).pl = s.pl ∧
    (senseOff s).vc = s.vc ∧
    (senseOff s).hl.locked = s.hl.locked := by
  unfold Machine.senseOff; first | (simp; done) | ((repeat' split) <;> simp; done) | (dsimp only; (repeat' split) <;> simp; done)
@[simp] theorem senseUp_keeps {s : State} :
    (senseUp s).pending = s.pending ∧
    (senseUp s).now = s.now ∧
    (senseUp s).out = s.out ∧
    (senseUp s).regs = s.regs ∧
    (senseUp s).fr = s.fr ∧
    (senseUp s).mx = s.mx ∧
    (senseUp s).fx = s.fx ∧
    (senseUp s).ps = s.ps ∧
    (senseUp s).sp = s.sp ∧
    (senseUp s).ai = s.ai ∧
    (senseUp s).aq = s.aq ∧
    (senseUp s).dp = s.dp ∧
    (senseUp s).ck = s.ck ∧
    (senseUp s).hl = s.hl ∧
    (senseUp s).st = s.st ∧
    (senseUp s).tw = s.tw ∧
    (senseUp s).sv = s.sv ∧
    (senseUp s).pd = s.pd ∧
    (senseUp s).ct = s.ct ∧
    (senseUp s).pl = s.pl ∧
    (senseUp s).vc = s.vc := by
  unfold Machine.senseUp; first | (simp; done) | ((repeat' split) <;> simp; done) | (dsimp only; (repeat' split) <;> simp; done)
@[simp] theorem senseStrobe_keeps {s : State} :
    (senseStrobe s).pending = s.pending ∧
    (senseStrobe s).now = s.now ∧
    (senseStrobe s).regs = s.regs ∧
    (senseStrobe s).fr = s.fr ∧
    (senseStrobe s).mx = s.mx ∧
    (senseStrobe s).fx = s.fx ∧
    (senseStrobe s).ps = s.ps ∧
    (senseStrobe s).sp = s.sp ∧
    (senseStrobe s).ai = s.ai ∧
    (senseStrobe s).aq = s.aq ∧
    (senseStrobe s).dp = s.dp ∧
    (senseStrobe s).ck = s.ck ∧
    (senseStrobe s).st = s.st ∧
    (senseStrobe s).sv = s.sv ∧
    (senseStrobe s).pd = s.pd ∧
    (senseStrobe s).ct = s.ct ∧
    (senseStrobe s).pl = s.pl ∧
    (senseStrobe s).vc = s.vc ∧
    (senseStrobe s).hl.locked = s.hl.locked := by
  unfold Machine.senseStrobe; first | (simp; done) | ((repeat' split) <;> simp; done) | (dsimp only; (repeat' split) <;> simp; done)
@[simp] theorem keyTo_keeps {s : State} {e : Nat} {k : KeyState} :
    (keyTo s e k).pending = s.pending ∧
    (keyTo s e k).now = s.now ∧
    (keyTo s e k).out = s.out ∧
    (keyTo s e k).regs = s.regs ∧
    (keyTo s e k).fr = s.fr ∧
    (keyTo s e k).mx = s.mx ∧
    (keyTo s e k).fx = s.fx ∧
    (keyTo s e k).ps = s.ps ∧
    (keyTo s e k).sp = s.sp ∧
    (keyTo s e k).ai = s.ai ∧
    (keyTo s e k).aq = s.aq ∧
    (keyTo s e k).dp = s.dp ∧
    (keyTo s e k).ck = s.ck ∧
    (keyTo s e k).hl = s.hl ∧
    (keyTo s e k).st = s.st ∧
    (keyTo s e k).tw = s.tw ∧
    (keyTo s e k).sv = s.sv ∧
    (keyTo s e k).pd = s.pd ∧
    (keyTo s e k).ct = s.ct ∧
    (keyTo s e k).pl = s.pl ∧
    (keyTo s e k).vc = s.vc := by
  unfold Machine.keyTo; first | (simp; done) | ((repeat' split) <;> simp; done) | (dsimp only; (repeat' split) <;> simp; done)
@[simp] theorem keyDown_keeps {s : State} {e : Nat} {k : Nat} {p : Nat} {ta : Int} {tb : Int} :
    (keyDown s e k p ta tb).pending = s.pending ∧
    (keyDown s e k p ta tb).now = s.now ∧
    (keyDown s e k p ta tb).regs = s.regs ∧
    (keyDown s e k p ta tb).fr = s.fr ∧
    (keyDown s e k p ta tb).mx = s.mx ∧
    (keyDown s e k p ta tb).fx = s.fx ∧
    (keyDown s e k p ta tb).ps = s.ps ∧
    (keyDown s e k p ta tb).sp = s.sp ∧
    (keyDown s e k p ta tb).ai = s.ai ∧
    (keyDown s e k p ta tb).aq = s.aq ∧
    (keyDown s e k p ta tb).dp = s.dp ∧
    (keyDown s e k p ta tb).ck = s.ck ∧
    (keyDown s e k p ta tb).st = s.st ∧
    (keyDown s e k p ta tb).sv = s.sv ∧
    (keyDown s e k p ta tb).pd = s.pd ∧
    (keyDown s e k p ta tb).ct = s.ct ∧
    (keyDown s e k p ta tb).pl = s.pl ∧
    (keyDown s e k p ta tb).vc = s.vc ∧
    (keyDown s e k p ta tb).hl.locked = s.hl.locked := by
  unfold Machine.keyDown; first | (simp; done) | ((repeat' split) <;> simp; done) | (dsimp only; (repeat' split) <;> simp; done)
@[simp] theorem keyDownEst_keeps {s : State} {e : Nat} {k : Nat} {g : Seg} {tb : Int} {flags : Nat} {a : Nat} {b : Nat} :
    (keyDownEst s e k g tb flags a b).pending = s.pending ∧
    (keyDownEst s e k g tb flags a b).now = s.now ∧
    (keyDownEst s e k g tb flags a b).regs = s.regs ∧
    (keyDownEst s e k g tb flags a b).fr = s.fr ∧
    (keyDownEst s e k g tb flags a b).mx = s.mx ∧
    (keyDownEst s e k g tb flags a b).fx = s.fx ∧
    (keyDownEst s e k g tb flags a b).ps = s.ps ∧
    (keyDownEst s e k g tb flags a b).sp = s.sp ∧
    (keyDownEst s e k g tb flags a b).ai = s.ai ∧
    (keyDownEst s e k g tb flags a b).aq = s.aq ∧
    (keyDownEst s e k g tb flags a b).dp = s.dp ∧
    (keyDownEst s e k g tb flags a b).ck = s.ck ∧
    (keyDownEst s e k g tb flags a b).st = s.st ∧
    (keyDownEst s e k g tb flags a b).sv = s.sv ∧
    (keyDownEst s e k g tb flags a b).pd = s.pd ∧
    (keyDownEst s e k g tb flags a b).ct = s.ct ∧
    (keyDownEst s e k g tb flags a b).pl = s.pl ∧
    (keyDownEst s e k g tb flags a b).vc = s.vc ∧
    (keyDownEst s e k g tb flags a b).hl.locked = s.hl.locked := by
  unfold Machine.keyDownEst; first | (simp; done) | ((repeat' split) <;> simp; done) | (dsimp only; (repeat' split) <;> simp; done)
@[simp] theorem keyStep_keeps {s : State} {k : Nat} {e : Nat} {g : Seg} :
    (keyStep s k e g).pending = s.pending ∧
    (keyStep s k e g).now = s.now ∧
    (keyStep s k e g).regs = s.regs ∧
    (keyStep s k e g).fr = s.fr ∧
    (keyStep s k e g).mx = s.mx ∧
    (keyStep s k e g).fx = s.fx ∧
    (keyStep s k e g).ps = s.ps ∧
    (keyStep s k e g).sp = s.sp ∧
    (keyStep s k e g).ai = s.ai ∧
    (keyStep s k e g).aq = s.aq ∧
    (keyStep s k e g).dp = s.dp ∧
    (keyStep s k e g).ck = s.ck ∧
    (keyStep s k e g).st = s.st ∧
    (keyStep s k e g).sv = s.sv ∧
    (keyStep s k e g).pd = s.pd ∧
    (keyStep s k e g).ct = s.ct ∧
    (keyStep s k e g).pl = s.pl ∧
    (keyStep s k e g).vc = s.vc ∧
    (keyStep s k e g).hl.locked = s.hl.locked := by
  unfold Machine.keyStep; first | (simp; done) | ((repeat' split) <;> simp; done) | (dsimp only; (repeat' split) <;> simp; done)
@[simp] theorem keyConv_keeps {s : State} {k : Nat} {e : Nat} {p : Nat} {t : Nat} :
    (keyConv s k e p t).pending = s.pending ∧
    (keyConv s k e p t).now = s.now ∧
    (keyConv s k e p t).regs = s.regs ∧
    (keyConv s k e p t).fr = s.fr ∧
    (keyConv s k e p t).mx = s.mx ∧
    (keyConv s k e p t).fx = s.fx ∧
    (keyConv s k e p t).ps = s.ps ∧
    (keyConv s k e p t).sp = s.sp ∧
    (keyConv s k e p t).ai = s.ai ∧
    (keyConv s k e p t).aq = s.aq ∧
    (keyConv s k e p t).dp = s.dp ∧
    (keyConv s k e p t).ck = s.ck ∧
    (keyConv s k e p t).st = s.st ∧
    (keyConv s k e p t).sv = s.sv ∧
    (keyConv s k e p t).pd = s.pd ∧
    (keyConv s k e p t).ct = s.ct ∧
    (keyConv s k e p t).pl = s.pl ∧
    (keyConv s k e p t).vc = s.vc ∧
    (keyConv s k e p t).hl.locked = s.hl.locked := by
  unfold Machine.keyConv; first | (simp; done) | ((repeat' split) <;> simp; done) | (dsimp only; (repeat' split) <;> simp; done)
@[simp] theorem watchConv_keeps {s : State} {k : Nat} {e : Nat} {p : Nat} :
    (watchConv s k e p).pending = s.pending ∧
    (watchConv s k e p).now = s.now ∧
    (watchConv s k e p).regs = s.regs ∧
    (watchConv s k e p).fr = s.fr ∧
    (watchConv s k e p).mx = s.mx ∧
    (watchConv s k e p).fx = s.fx ∧
    (watchConv s k e p).ps = s.ps ∧
    (watchConv s k e p).sp = s.sp ∧
    (watchConv s k e p).ai = s.ai ∧
    (watchConv s k e p).aq = s.aq ∧
    (watchConv s k e p).dp = s.dp ∧
    (watchConv s k e p).ck = s.ck ∧
    (watchConv s k e p).st = s.st ∧
    (watchConv s k e p).sv = s.sv ∧
    (watchConv s k e p).pd = s.pd ∧
    (watchConv s k e p).ct = s.ct ∧
    (watchConv s k e p).pl = s.pl ∧
    (watchConv s k e p).vc = s.vc ∧
    (watchConv s k e p).hl.locked = s.hl.locked := by
  unfold Machine.watchConv; first | (simp; done) | ((repeat' split) <;> simp; done) | (dsimp only; (repeat' split) <;> simp; done)
@[simp] theorem putResult_keeps {s : State} {e : Nat} {y : Nat} :
    (putResult s e y).pending = s.pending ∧
    (putResult s e y).now = s.now ∧
    (putResult s e y).out = s.out ∧
    (putResult s e y).regs = s.regs ∧
    (putResult s e y).fr = s.fr ∧
    (putResult s e y).mx = s.mx ∧
    (putResult s e y).fx = s.fx ∧
    (putResult s e y).ps = s.ps ∧
    (putResult s e y).sp = s.sp ∧
    (putResult s e y).ai = s.ai ∧
    (putResult s e y).aq = s.aq ∧
    (putResult s e y).dp = s.dp ∧
    (putResult s e y).ck = s.ck ∧
    (putResult s e y).hl = s.hl ∧
    (putResult s e y).st = s.st ∧
    (putResult s e y).tw = s.tw ∧
    (putResult s e y).sv = s.sv ∧
    (putResult s e y).pd = s.pd ∧
    (putResult s e y).ct = s.ct ∧
    (putResult s e y).pl = s.pl ∧
    (putResult s e y).vc = s.vc := by
  unfold Machine.putResult; first | (simp; done) | ((repeat' split) <;> simp; done) | (dsimp only; (repeat' split) <;> simp; done)
@[simp] theorem countOver_keeps {s : State} {k : Nat} {beyond : Bool} :
    (countOver s k beyond).pending = s.pending ∧
    (countOver s k beyond).now = s.now ∧
    (countOver s k beyond).out = s.out ∧
    (countOver s k beyond).regs = s.regs ∧
    (countOver s k beyond).fr = s.fr ∧
    (countOver s k beyond).mx = s.mx ∧
    (countOver s k beyond).fx = s.fx ∧
    (countOver s k beyond).ps = s.ps ∧
    (countOver s k beyond).sp = s.sp ∧
    (countOver s k beyond).ai = s.ai ∧
    (countOver s k beyond).aq = s.aq ∧
    (countOver s k beyond).dp = s.dp ∧
    (countOver s k beyond).ck = s.ck ∧
    (countOver s k beyond).hl = s.hl ∧
    (countOver s k beyond).st = s.st ∧
    (countOver s k beyond).tw = s.tw ∧
    (countOver s k beyond).sv = s.sv ∧
    (countOver s k beyond).pd = s.pd ∧
    (countOver s k beyond).ct = s.ct ∧
    (countOver s k beyond).pl = s.pl ∧
    (countOver s k beyond).vc = s.vc := by
  unfold Machine.countOver; first | (simp; done) | ((repeat' split) <;> simp; done) | (dsimp only; (repeat' split) <;> simp; done)
@[simp] theorem convert_keeps {s : State} {k : Nat} {e : Nat} {avg : Nat} {t : Nat} {x : AdcIn} :
    (convert s k e avg t x).pending = s.pending ∧
    (convert s k e avg t x).now = s.now ∧
    (convert s k e avg t x).regs = s.regs ∧
    (convert s k e avg t x).fr = s.fr ∧
    (convert s k e avg t x).mx = s.mx ∧
    (convert s k e avg t x).fx = s.fx ∧
    (convert s k e avg t x).ps = s.ps ∧
    (convert s k e avg t x).sp = s.sp ∧
    (convert s k e avg t x).ai = s.ai ∧
    (convert s k e avg t x).aq = s.aq ∧
    (convert s k e avg t x).dp = s.dp ∧
    (convert s k e avg t x).ck = s.ck ∧
    (convert s k e avg t x).st = s.st ∧
    (convert s k e avg t x).sv = s.sv ∧
    (convert s k e avg t x).pd = s.pd ∧
    (convert s k e avg t x).ct = s.ct ∧
    (convert s k e avg t x).pl = s.pl ∧
    (convert s k e avg t x).vc = s.vc ∧
    (convert s k e avg t x).hl.locked = s.hl.locked := by
  unfold Machine.convert; first | (simp; done) | ((repeat' split) <;> simp; done) | (dsimp only; (repeat' split) <;> simp; done)
@[simp] theorem passConvert_keeps {s : State} {k : Nat} {i : Nat} {t : Nat} {x : AdcIn} {twin : AdcIn} :
    (passConvert s k i t x twin).pending = s.pending ∧
    (passConvert s k i t x twin).now = s.now ∧
    (passConvert s k i t x twin).regs = s.regs ∧
    (passConvert s k i t x twin).fr = s.fr ∧
    (passConvert s k i t x twin).mx = s.mx ∧
    (passConvert s k i t x twin).fx = s.fx ∧
    (passConvert s k i t x twin).ps = s.ps ∧
    (passConvert s k i t x twin).sp = s.sp ∧
    (passConvert s k i t x twin).ai = s.ai ∧
    (passConvert s k i t x twin).aq = s.aq ∧
    (passConvert s k i t x twin).dp = s.dp ∧
    (passConvert s k i t x twin).ck = s.ck ∧
    (passConvert s k i t x twin).st = s.st ∧
    (passConvert s k i t x twin).sv = s.sv ∧
    (passConvert s k i t x twin).pd = s.pd ∧
    (passConvert s k i t x twin).ct = s.ct ∧
    (passConvert s k i t x twin).pl = s.pl ∧
    (passConvert s k i t x twin).vc = s.vc ∧
    (passConvert s k i t x twin).hl.locked = s.hl.locked := by
  unfold Machine.passConvert; first | (simp; done) | ((repeat' split) <;> simp; done) | (dsimp only; (repeat' split) <;> simp; done)
@[simp] theorem urgentDone_keeps {s : State} {k : Nat} {e : Nat} {x : AdcIn} :
    (urgentDone s k e x).pending = s.pending ∧
    (urgentDone s k e x).now = s.now ∧
    (urgentDone s k e x).out = s.out ∧
    (urgentDone s k e x).regs = s.regs ∧
    (urgentDone s k e x).fr = s.fr ∧
    (urgentDone s k e x).mx = s.mx ∧
    (urgentDone s k e x).fx = s.fx ∧
    (urgentDone s k e x).ps = s.ps ∧
    (urgentDone s k e x).sp = s.sp ∧
    (urgentDone s k e x).ai = s.ai ∧
    (urgentDone s k e x).aq = s.aq ∧
    (urgentDone s k e x).dp = s.dp ∧
    (urgentDone s k e x).ck = s.ck ∧
    (urgentDone s k e x).hl = s.hl ∧
    (urgentDone s k e x).st = s.st ∧
    (urgentDone s k e x).tw = s.tw ∧
    (urgentDone s k e x).sv = s.sv ∧
    (urgentDone s k e x).pd = s.pd ∧
    (urgentDone s k e x).ct = s.ct ∧
    (urgentDone s k e x).pl = s.pl ∧
    (urgentDone s k e x).vc = s.vc := by
  unfold Machine.urgentDone; first | (simp; done) | ((repeat' split) <;> simp; done) | (dsimp only; (repeat' split) <;> simp; done)
@[simp] theorem calConvert_keeps {s : State} {k : Nat} {first : Nat} {n : Nat} {e : Nat} {x : AdcIn} :
    (calConvert s k first n e x).pending = s.pending ∧
    (calConvert s k first n e x).now = s.now ∧
    (calConvert s k first n e x).out = s.out ∧
    (calConvert s k first n e x).regs = s.regs ∧
    (calConvert s k first n e x).fr = s.fr ∧
    (calConvert s k first n e x).mx = s.mx ∧
    (calConvert s k first n e x).fx = s.fx ∧
    (calConvert s k first n e x).ps = s.ps ∧
    (calConvert s k first n e x).sp = s.sp ∧
    (calConvert s k first n e x).ai = s.ai ∧
    (calConvert s k first n e x).aq = s.aq ∧
    (calConvert s k first n e x).dp = s.dp ∧
    (calConvert s k first n e x).ck = s.ck ∧
    (calConvert s k first n e x).hl = s.hl ∧
    (calConvert s k first n e x).st = s.st ∧
    (calConvert s k first n e x).tw = s.tw ∧
    (calConvert s k first n e x).sv = s.sv ∧
    (calConvert s k first n e x).pd = s.pd ∧
    (calConvert s k first n e x).ct = s.ct ∧
    (calConvert s k first n e x).pl = s.pl ∧
    (calConvert s k first n e x).vc = s.vc := by
  unfold Machine.calConvert; first | (simp; done) | ((repeat' split) <;> simp; done) | (dsimp only; (repeat' split) <;> simp; done)
@[simp] theorem urgentWrite_keeps {s : State} {k : Nat} {v : Word} {startWins : Bool} :
    (urgentWrite s k v startWins).pending = s.pending ∧
    (urgentWrite s k v startWins).now = s.now ∧
    (urgentWrite s k v startWins).out = s.out ∧
    (urgentWrite s k v startWins).fr = s.fr ∧
    (urgentWrite s k v startWins).mx = s.mx ∧
    (urgentWrite s k v startWins).fx = s.fx ∧
    (urgentWrite s k v startWins).ps = s.ps ∧
    (urgentWrite s k v startWins).sp = s.sp ∧
    (urgentWrite s k v startWins).ai = s.ai ∧
    (urgentWrite s k v startWins).aq = s.aq ∧
    (urgentWrite s k v startWins).dp = s.dp ∧
    (urgentWrite s k v startWins).ck = s.ck ∧
    (urgentWrite s k v startWins).hl = s.hl ∧
    (urgentWrite s k v startWins).st = s.st ∧
    (urgentWrite s k v startWins).tw = s.tw ∧
    (urgentWrite s k v startWins).sv = s.sv ∧
    (urgentWrite s k v startWins).pd = s.pd ∧
    (urgentWrite s k v startWins).ct = s.ct ∧
    (urgentWrite s k v startWins).pl = s.pl ∧
    (urgentWrite s k v startWins).vc = s.vc := by
  unfold Machine.urgentWrite; first | (simp; done) | ((repeat' split) <;> simp; done) | (dsimp only; (repeat' split) <;> simp; done)
@[simp] theorem scWrite_keeps {s : State} {n : RegName} {i : Nat} {w : Word} :
    (scWrite s n i w).pending = s.pending ∧
    (scWrite s n i w).now = s.now ∧
    (scWrite s n i w).out = s.out ∧
    (scWrite s n i w).fr = s.fr ∧
    (scWrite s n i w).mx = s.mx ∧
    (scWrite s n i w).fx = s.fx ∧
    (scWrite s n i w).ps = s.ps ∧
    (scWrite s n i w).sp = s.sp ∧
    (scWrite s n i w).ai = s.ai ∧
    (scWrite s n i w).aq = s.aq ∧
    (scWrite s n i w).dp = s.dp ∧
    (scWrite s n i w).ck = s.ck ∧
    (scWrite s n i w).hl = s.hl ∧
    (scWrite s n i w).st = s.st ∧
    (scWrite s n i w).tw = s.tw ∧
    (scWrite s n i w).sv = s.sv ∧
    (scWrite s n i w).pd = s.pd ∧
    (scWrite s n i w).ct = s.ct ∧
    (scWrite s n i w).pl = s.pl ∧
    (scWrite s n i w).vc = s.vc := by
  unfold Machine.scWrite; first | (simp; done) | ((repeat' split) <;> simp; done) | (dsimp only; (repeat' split) <;> simp; done)
@[simp] theorem saveCal_keeps {s : State} {r : Tbl Word} :
    (saveCal s r).pending = s.pending ∧
    (saveCal s r).now = s.now ∧
    (saveCal s r).regs = s.regs ∧
    (saveCal s r).fr = s.fr ∧
    (saveCal s r).mx = s.mx ∧
    (saveCal s r).fx = s.fx ∧
    (saveCal s r).ps = s.ps ∧
    (saveCal s r).sp = s.sp ∧
    (saveCal s r).ai = s.ai ∧
    (saveCal s r).aq = s.aq ∧
    (saveCal s r).dp = s.dp ∧
    (saveCal s r).ck = s.ck ∧
    (saveCal s r).sc = s.sc ∧
    (saveCal s r).st = s.st ∧
    (saveCal s r).pd = s.pd ∧
    (saveCal s r).ct = s.ct ∧
    (saveCal s r).pl = s.pl ∧
    (saveCal s r).vc = s.vc ∧
    (saveCal s r).hl.locked = s.hl.locked := by
  unfold Machine.saveCal; first | (simp; done) | ((repeat' split) <;> simp; done) | (dsimp only; (repeat' split) <;> simp; done)
@[simp] theorem calIdle_keeps {s : State} {k : Nat} :
    (calIdle s k).pending = s.pending ∧
    (calIdle s k).now = s.now ∧
    (calIdle s k).out = s.out ∧
    (calIdle s k).regs = s.regs ∧
    (calIdle s k).fr = s.fr ∧
    (calIdle s k).mx = s.mx ∧
    (calIdle s k).fx = s.fx ∧
    (calIdle s k).ps = s.ps ∧
    (calIdle s k).sp = s.sp ∧
    (calIdle s k).ai = s.ai ∧
    (calIdle s k).aq = s.aq ∧
    (calIdle s k).dp = s.dp ∧
    (calIdle s k).ck = s.ck ∧
    (calIdle s k).hl = s.hl ∧
    (calIdle s k).st = s.st ∧
    (calIdle s k).tw = s.tw ∧
    (calIdle s k).sv = s.sv ∧
    (calIdle s k).pd = s.pd ∧
    (calIdle s k).ct = s.ct ∧
    (calIdle s k).pl = s.pl ∧
    (calIdle s k).vc = s.vc := by
  unfold Machine.calIdle; first | (simp; done) | ((repeat' split) <;> simp; done) | (dsimp only; (repeat' split) <;> simp; done)
@[simp] theorem scCalDone_keeps {s : State} {us : Word} {step : Nat} {k : Nat} {e : Nat} {n : Nat} {target : Int} {nvOk : Bool} :
    (scCalDone s us step k e n target nvOk).pending = s.pending ∧
    (scCalDone s us step k e n target nvOk).now = s.now ∧
    (scCalDone s us step k e n target nvOk).fr = s.fr ∧
    (scCalDone s us step k e n target nvOk).mx = s.mx ∧
    (scCalDone s us step k e n target nvOk).fx = s.fx ∧
    (scCalDone s us step k e n target nvOk).ps = s.ps ∧
    (scCalDone s us step k e n target nvOk).sp = s.sp ∧
    (scCalDone s us step k e n target nvOk).ai = s.ai ∧
    (scCalDone s us step k e n target nvOk).aq = s.aq ∧
    (scCalDone s us step k e n target nvOk).dp = s.dp ∧
    (scCalDone s us step k e n target nvOk).ck = s.ck ∧
    (scCalDone s us step k e n target nvOk).st = s.st ∧
    (scCalDone s us step k e n target nvOk).pd = s.pd ∧
    (scCalDone s us step k e n target nvOk).ct = s.ct ∧
    (scCalDone s us step k e n target nvOk).pl = s.pl ∧
    (scCalDone s us step k e n target nvOk).vc = s.vc ∧
    (scCalDone s us step k e n target nvOk).hl.locked = s.hl.locked := by
  unfold Machine.scCalDone; first | (simp; done) | ((repeat' split) <;> simp; done) | (dsimp only; (repeat' split) <;> simp; done)
@[simp] theorem copyReg_keeps {s : State} {r : Nat × Word} :
    (copyReg s r).pending = s.pending ∧
    (copyReg s r).now = s.now ∧
    (copyReg s r).out = s.out ∧
    (copyReg s r).fr = s.fr ∧
    (copyReg s r).mx = s.mx ∧
    (copyReg s r).fx = s.fx ∧
    (copyReg s r).ps = s.ps ∧
    (copyReg s r).sp = s.sp ∧
    (copyReg s r).ai = s.ai ∧
    (copyReg s r).aq = s.aq ∧
    (copyReg s r).dp = s.dp ∧
    (copyReg s r).ck = s.ck ∧
    (copyReg s r).sc = s.sc ∧
    (copyReg s r).hl = s.hl ∧
    (copyReg s r).st = s.st ∧
    (copyReg s r).tw = s.tw ∧
    (copyReg s r).sv = s.sv ∧
    (copyReg s r).pd = s.pd ∧
    (copyReg s r).ct = s.ct ∧
    (copyReg s r).pl = s.pl ∧
    (copyReg s r).vc = s.vc := by
  unfold Machine.copyReg; first | (simp; done) | ((repeat' split) <;> simp; done) | (dsimp only; (repeat' split) <;> simp; done)
@[simp] theorem restoreCal_keeps {s : State} :
    (restoreCal s).pending = s.pending ∧
    (restoreCal s).now = s.now ∧
    (restoreCal s).out = s.out ∧
    (restoreCal s).fr = s.fr ∧
    (restoreCal s).mx = s.mx ∧
    (restoreCal s).fx = s.fx ∧
    (restoreCal s).ps = s.ps ∧
    (restoreCal s).sp = s.sp ∧
    (restoreCal s).ai = s.ai ∧
    (restoreCal s).aq = s.aq ∧
    (restoreCal s).dp = s.dp ∧
    (restoreCal s).ck = s.ck ∧
    (restoreCal s).sc = s.sc ∧
    (restoreCal s).hl = s.hl ∧
    (restoreCal s).st = s.st ∧
    (restoreCal s).tw = s.tw ∧
    (restoreCal s).sv = s.sv ∧
    (restoreCal s).pd = s.pd ∧
    (restoreCal s).ct = s.ct ∧
    (restoreCal s).pl = s.pl ∧
    (restoreCal s).vc = s.vc := by
  unfold Machine.restoreCal; first | (simp; done) | ((repeat' split) <;> simp; done) | (dsimp only; (repeat' split) <;> simp; done)
@[simp] theorem setScene_keeps {s : State} {k : Nat} {b : Bytes} :
    (setScene s k b).pending = s.pending ∧
    (setScene s k b).now = s.now ∧
    (setScene s k b).out = s.out ∧
    (setScene s k b).regs = s.regs ∧
    (setScene s k b).fr = s.fr ∧
    (setScene s k b).mx = s.mx ∧
    (setScene s k b).fx = s.fx ∧
    (setScene s k b).ps = s.ps ∧
    (setScene s k b).sp = s.sp ∧
    (setScene s k b).ai = s.ai ∧
    (setScene s k b).aq = s.aq ∧
    (setScene s k b).dp = s.dp ∧
    (setScene s k b).ck = s.ck ∧
    (setScene s k b).sc = s.sc ∧
    (setScene s k b).st = s.st ∧
    (setScene s k b).tw = s.tw ∧
    (setScene s k b).sv = s.sv ∧
    (setScene s k b).pd = s.pd ∧
    (setScene s k b).ct = s.ct ∧
    (setScene s k b).pl = s.pl ∧
    (setScene s k b).vc = s.vc ∧
    (setScene s k b).hl.locked = s.hl.locked := by
  unfold Machine.setScene; first | (simp; done) | ((repeat' split) <;> simp; done) | (dsimp only; (repeat' split) <;> simp; done)
@[simp] theorem commitScene_keeps {s : State} {slot : Nat} {b : Bytes} :
    (commitScene s slot b).pending = s.pending ∧
    (commitScene s slot b).now = s.now ∧
    (commitScene s slot b).regs = s.regs ∧
    (commitScene s slot b).fr = s.fr ∧
    (commitScene s slot b).mx = s.mx ∧
    (commitScene s slot b).fx = s.fx ∧
    (commitScene s slot b).ps = s.ps ∧
    (commitScene s slot b).sp = s.sp ∧
    (commitScene s slot b).ai = s.ai ∧
    (commitScene s slot b).aq = s.aq ∧
    (commitScene s slot b).dp = s.dp ∧
    (commitScene s slot b).ck = s.ck ∧
    (commitScene s slot b).sc = s.sc ∧
    (commitScene s slot b).st = s.st ∧
    (commitScene s slot b).pd = s.pd ∧
    (commitScene s slot b).ct = s.ct ∧
    (commitScene s slot b).pl = s.pl ∧
    (commitScene s slot b).vc = s.vc ∧
    (commitScene s slot b).hl.locked = s.hl.locked := by
  unfold Machine.commitScene; first | (simp; done) | ((repeat' split) <;> simp; done) | (dsimp only; (repeat' split) <;> simp; done)
@[simp] theorem storeScene_keeps {s : State} {us : Word} {slot : Nat} {b : Bytes} {nvOk : Bool} :
    (storeScene s us slot b nvOk).pending = s.pending ∧
    (storeScene s us slot b nvOk).now = s.now ∧
    (storeScene s us slot b nvOk).regs = s.regs ∧
    (storeScene s us slot b nvOk).fr = s.fr ∧
    (storeScene s us slot b nvOk).mx = s.mx ∧
    (storeScene s us slot b nvOk).fx = s.fx ∧
    (storeScene s us slot b nvOk).ps = s.ps ∧
    (storeScene s us slot b nvOk).sp = s.sp ∧
    (storeScene s us slot b nvOk).ai = s.ai ∧
    (storeScene s us slot b nvOk).aq = s.aq ∧
    (storeScene s us slot b nvOk).dp = s.dp ∧
    (storeScene s us slot b nvOk).ck = s.ck ∧
    (storeScene s us slot b nvOk).sc = s.sc ∧
    (storeScene s us slot b nvOk).st = s.st ∧
    (storeScene s us slot b nvOk).pd = s.pd ∧
    (storeScene s us slot b nvOk).ct = s.ct ∧
    (storeScene s us slot b nvOk).pl = s.pl ∧
    (storeScene s us slot b nvOk).vc = s.vc ∧
    (storeScene s us slot b nvOk).hl.locked = s.hl.locked := by
  unfold Machine.storeScene; first | (simp; done) | ((repeat' split) <;> simp; done) | (dsimp only; (repeat' split) <;> simp; done)
@[simp] theorem sceneStored_keeps {s : State} {us : Word} {slot : Nat} {b : Bytes} {nvOk : Bool} :
    (sceneStored s us slot b nvOk).pending = s.pending ∧
    (sceneStored s us slot b nvOk).now = s.now ∧
    (sceneStored s us slot b nvOk).regs = s.regs ∧
    (sceneStored s us slot b nvOk).fr = s.fr ∧
    (sceneStored s us slot b nvOk).mx = s.mx ∧
    (sceneStored s us slot b nvOk).fx = s.fx ∧
    (sceneStored s us slot b nvOk).ps = s.ps ∧
    (sceneStored s us slot b nvOk).sp = s.sp ∧
    (sceneStored s us slot b nvOk).ai = s.ai ∧
    (sceneStored s us slot b nvOk).aq = s.aq ∧
    (sceneStored s us slot b nvOk).dp = s.dp ∧
    (sceneStored s us slot b nvOk).ck = s.ck ∧
    (sceneStored s us slot b nvOk).sc = s.sc ∧
    (sceneStored s us slot b nvOk).st = s.st ∧
    (sceneStored s us slot b nvOk).pd = s.pd ∧
    (sceneStored s us slot b nvOk).ct = s.ct ∧
    (sceneStored s us slot b nvOk).pl = s.pl ∧
    (sceneStored s us slot b nvOk).vc = s.vc ∧
    (sceneStored s us slot b nvOk).hl.locked = s.hl.locked := by
  unfold Machine.sceneStored; first | (simp; done) | ((repeat' split) <;> simp; done) | (dsimp only; (repeat' split) <;> simp; done)
@[simp] theorem sceneCaptured_keeps {s : State} {us : Word} {slot : Nat} {lo : Nat} {hi : Nat} {engs : Nat} {nvOk : Bool} :
    (sceneCaptured s us slot lo hi engs nvOk).pending = s.pending ∧
    (sceneCaptured s us slot lo hi engs nvOk).now = s.now ∧
    (sceneCaptured s us slot lo hi engs nvOk).regs = s.regs ∧
    (sceneCaptured s us slot lo hi engs nvOk).fr = s.fr ∧
    (sceneCaptured s us slot lo hi engs nvOk).mx = s.mx ∧
    (sceneCaptured s us slot lo hi engs nvOk).fx = s.fx ∧
    (sceneCaptured s us slot lo hi engs nvOk).ps = s.ps ∧
    (sceneCaptured s us slot lo hi engs nvOk).sp = s.sp ∧
    (sceneCaptured s us slot lo hi engs nvOk).ai = s.ai ∧
    (sceneCaptured s us slot lo hi engs nvOk).aq = s.aq ∧
    (sceneCaptured s us slot lo hi engs nvOk).dp = s.dp ∧
    (sceneCaptured s us slot lo hi engs nvOk).ck = s.ck ∧
    (sceneCaptured s us slot lo hi engs nvOk).sc = s.sc ∧
    (sceneCaptured s us slot lo hi engs nvOk).st = s.st ∧
    (sceneCaptured s us slot lo hi engs nvOk).pd = s.pd ∧
    (sceneCaptured s us slot lo hi engs nvOk).ct = s.ct ∧
    (sceneCaptured s us slot lo hi engs nvOk).pl = s.pl ∧
    (sceneCaptured s us slot lo hi engs nvOk).vc = s.vc ∧
    (sceneCaptured s us slot lo hi engs nvOk).hl.locked = s.hl.locked := by
  unfold Machine.sceneCaptured; first | (simp; done) | ((repeat' split) <;> simp; done) | (dsimp only; (repeat' split) <;> simp; done)
@[simp] theorem sceneDeleted_keeps {s : State} {us : Word} {slot : Nat} {nvOk : Bool} :
    (sceneDeleted s us slot nvOk).pending = s.pending ∧
    (sceneDeleted s us slot nvOk).now = s.now ∧
    (sceneDeleted s us slot nvOk).regs = s.regs ∧
    (sceneDeleted s us slot nvOk).fr = s.fr ∧
    (sceneDeleted s us slot nvOk).mx = s.mx ∧
    (sceneDeleted s us slot nvOk).fx = s.fx ∧
    (sceneDeleted s us slot nvOk).ps = s.ps ∧
    (sceneDeleted s us slot nvOk).sp = s.sp ∧
    (sceneDeleted s us slot nvOk).ai = s.ai ∧
    (sceneDeleted s us slot nvOk).aq = s.aq ∧
    (sceneDeleted s us slot nvOk).dp = s.dp ∧
    (sceneDeleted s us slot nvOk).ck = s.ck ∧
    (sceneDeleted s us slot nvOk).sc = s.sc ∧
    (sceneDeleted s us slot nvOk).st = s.st ∧
    (sceneDeleted s us slot nvOk).pd = s.pd ∧
    (sceneDeleted s us slot nvOk).ct = s.ct ∧
    (sceneDeleted s us slot nvOk).pl = s.pl ∧
    (sceneDeleted s us slot nvOk).vc = s.vc ∧
    (sceneDeleted s us slot nvOk).hl.locked = s.hl.locked := by
  unfold Machine.sceneDeleted; first | (simp; done) | ((repeat' split) <;> simp; done) | (dsimp only; (repeat' split) <;> simp; done)
@[simp] theorem sceneApplied_keeps {s : State} {r : SceneRef} :
    (sceneApplied s r).pending = s.pending ∧
    (sceneApplied s r).now = s.now ∧
    (sceneApplied s r).regs = s.regs ∧
    (sceneApplied s r).fr = s.fr ∧
    (sceneApplied s r).mx = s.mx ∧
    (sceneApplied s r).fx = s.fx ∧
    (sceneApplied s r).ps = s.ps ∧
    (sceneApplied s r).sp = s.sp ∧
    (sceneApplied s r).ai = s.ai ∧
    (sceneApplied s r).aq = s.aq ∧
    (sceneApplied s r).dp = s.dp ∧
    (sceneApplied s r).ck = s.ck ∧
    (sceneApplied s r).sc = s.sc ∧
    (sceneApplied s r).st = s.st ∧
    (sceneApplied s r).sv = s.sv ∧
    (sceneApplied s r).pd = s.pd ∧
    (sceneApplied s r).ct = s.ct ∧
    (sceneApplied s r).pl = s.pl ∧
    (sceneApplied s r).vc = s.vc ∧
    (sceneApplied s r).hl.locked = s.hl.locked := by
  unfold Machine.sceneApplied; first | (simp; done) | ((repeat' split) <;> simp; done) | (dsimp only; (repeat' split) <;> simp; done)
@[simp] theorem journalDone_keeps {s : State} :
    (journalDone s).pending = s.pending ∧
    (journalDone s).now = s.now ∧
    (journalDone s).regs = s.regs ∧
    (journalDone s).fr = s.fr ∧
    (journalDone s).mx = s.mx ∧
    (journalDone s).fx = s.fx ∧
    (journalDone s).ps = s.ps ∧
    (journalDone s).sp = s.sp ∧
    (journalDone s).ai = s.ai ∧
    (journalDone s).aq = s.aq ∧
    (journalDone s).dp = s.dp ∧
    (journalDone s).ck = s.ck ∧
    (journalDone s).sc = s.sc ∧
    (journalDone s).st = s.st ∧
    (journalDone s).pd = s.pd ∧
    (journalDone s).ct = s.ct ∧
    (journalDone s).pl = s.pl ∧
    (journalDone s).vc = s.vc ∧
    (journalDone s).hl.locked = s.hl.locked := by
  unfold Machine.journalDone; first | (simp; done) | ((repeat' split) <;> simp; done) | (dsimp only; (repeat' split) <;> simp; done)
@[simp] theorem loseCal_keeps {s : State} {e : Nat} :
    (loseCal s e).pending = s.pending ∧
    (loseCal s e).now = s.now ∧
    (loseCal s e).out = s.out ∧
    (loseCal s e).fr = s.fr ∧
    (loseCal s e).mx = s.mx ∧
    (loseCal s e).fx = s.fx ∧
    (loseCal s e).ps = s.ps ∧
    (loseCal s e).sp = s.sp ∧
    (loseCal s e).ai = s.ai ∧
    (loseCal s e).aq = s.aq ∧
    (loseCal s e).dp = s.dp ∧
    (loseCal s e).ck = s.ck ∧
    (loseCal s e).sc = s.sc ∧
    (loseCal s e).hl = s.hl ∧
    (loseCal s e).st = s.st ∧
    (loseCal s e).tw = s.tw ∧
    (loseCal s e).pd = s.pd ∧
    (loseCal s e).ct = s.ct ∧
    (loseCal s e).pl = s.pl ∧
    (loseCal s e).vc = s.vc := by
  unfold Machine.loseCal; first | (simp; done) | ((repeat' split) <;> simp; done) | (dsimp only; (repeat' split) <;> simp; done)
@[simp] theorem loseEnv_keeps {s : State} {line : Nat} :
    (loseEnv s line).pending = s.pending ∧
    (loseEnv s line).now = s.now ∧
    (loseEnv s line).fr = s.fr ∧
    (loseEnv s line).mx = s.mx ∧
    (loseEnv s line).fx = s.fx ∧
    (loseEnv s line).ps = s.ps ∧
    (loseEnv s line).ai = s.ai ∧
    (loseEnv s line).aq = s.aq ∧
    (loseEnv s line).dp = s.dp ∧
    (loseEnv s line).ck = s.ck ∧
    (loseEnv s line).sc = s.sc ∧
    (loseEnv s line).st = s.st ∧
    (loseEnv s line).pd = s.pd ∧
    (loseEnv s line).ct = s.ct ∧
    (loseEnv s line).pl = s.pl ∧
    (loseEnv s line).vc = s.vc ∧
    (loseEnv s line).hl.locked = s.hl.locked := by
  unfold Machine.loseEnv; first | (simp; done) | ((repeat' split) <;> simp; done) | (dsimp only; (repeat' split) <;> simp; done)
@[simp] theorem loseLine_keeps {s : State} {x : PantryLoss} :
    (loseLine s x).pending = s.pending ∧
    (loseLine s x).now = s.now ∧
    (loseLine s x).fr = s.fr ∧
    (loseLine s x).mx = s.mx ∧
    (loseLine s x).fx = s.fx ∧
    (loseLine s x).ps = s.ps ∧
    (loseLine s x).ai = s.ai ∧
    (loseLine s x).aq = s.aq ∧
    (loseLine s x).dp = s.dp ∧
    (loseLine s x).ck = s.ck ∧
    (loseLine s x).sc = s.sc ∧
    (loseLine s x).st = s.st ∧
    (loseLine s x).pd = s.pd ∧
    (loseLine s x).ct = s.ct ∧
    (loseLine s x).pl = s.pl ∧
    (loseLine s x).vc = s.vc ∧
    (loseLine s x).hl.locked = s.hl.locked := by
  unfold Machine.loseLine; first | (simp; done) | ((repeat' split) <;> simp; done) | (dsimp only; (repeat' split) <;> simp; done)
@[simp] theorem lineLost_keeps {s : State} {x : PantryLoss} :
    (lineLost s x).pending = s.pending ∧
    (lineLost s x).now = s.now ∧
    (lineLost s x).fr = s.fr ∧
    (lineLost s x).mx = s.mx ∧
    (lineLost s x).fx = s.fx ∧
    (lineLost s x).ps = s.ps ∧
    (lineLost s x).ai = s.ai ∧
    (lineLost s x).aq = s.aq ∧
    (lineLost s x).dp = s.dp ∧
    (lineLost s x).ck = s.ck ∧
    (lineLost s x).sc = s.sc ∧
    (lineLost s x).st = s.st ∧
    (lineLost s x).pd = s.pd ∧
    (lineLost s x).ct = s.ct ∧
    (lineLost s x).pl = s.pl ∧
    (lineLost s x).vc = s.vc ∧
    (lineLost s x).hl.locked = s.hl.locked := by
  unfold Machine.lineLost; first | (simp; done) | ((repeat' split) <;> simp; done) | (dsimp only; (repeat' split) <;> simp; done)
@[simp] theorem setCtx_keeps {s : State} {k : Nat} {x : Ctx} :
    (setCtx s k x).pending = s.pending ∧
    (setCtx s k x).now = s.now ∧
    (setCtx s k x).out = s.out ∧
    (setCtx s k x).regs = s.regs ∧
    (setCtx s k x).fr = s.fr ∧
    (setCtx s k x).mx = s.mx ∧
    (setCtx s k x).fx = s.fx ∧
    (setCtx s k x).ps = s.ps ∧
    (setCtx s k x).sp = s.sp ∧
    (setCtx s k x).ai = s.ai ∧
    (setCtx s k x).aq = s.aq ∧
    (setCtx s k x).dp = s.dp ∧
    (setCtx s k x).ck = s.ck ∧
    (setCtx s k x).sc = s.sc ∧
    (setCtx s k x).hl = s.hl ∧
    (setCtx s k x).tw = s.tw ∧
    (setCtx s k x).sv = s.sv ∧
    (setCtx s k x).pd = s.pd ∧
    (setCtx s k x).ct = s.ct ∧
    (setCtx s k x).pl = s.pl ∧
    (setCtx s k x).vc = s.vc := by
  unfold Machine.setCtx; first | (simp; done) | ((repeat' split) <;> simp; done) | (dsimp only; (repeat' split) <;> simp; done)
@[simp] theorem setGrp_keeps {s : State} {g : Nat} {x : Group} :
    (setGrp s g x).pending = s.pending ∧
    (setGrp s g x).now = s.now ∧
    (setGrp s g x).out = s.out ∧
    (setGrp s g x).regs = s.regs ∧
    (setGrp s g x).fr = s.fr ∧
    (setGrp s g x).mx = s.mx ∧
    (setGrp s g x).fx = s.fx ∧
    (setGrp s g x).ps = s.ps ∧
    (setGrp s g x).sp = s.sp ∧
    (setGrp s g x).ai = s.ai ∧
    (setGrp s g x).aq = s.aq ∧
    (setGrp s g x).dp = s.dp ∧
    (setGrp s g x).ck = s.ck ∧
    (setGrp s g x).sc = s.sc ∧
    (setGrp s g x).hl = s.hl ∧
    (setGrp s g x).tw = s.tw ∧
    (setGrp s g x).sv = s.sv ∧
    (setGrp s g x).pd = s.pd ∧
    (setGrp s g x).ct = s.ct ∧
    (setGrp s g x).pl = s.pl ∧
    (setGrp s g x).vc = s.vc := by
  unfold Machine.setGrp; first | (simp; done) | ((repeat' split) <;> simp; done) | (dsimp only; (repeat' split) <;> simp; done)
@[simp] theorem ltrUpdate_keeps {s : State} {always : Bool} :
    (ltrUpdate s always).pending = s.pending ∧
    (ltrUpdate s always).now = s.now ∧
    (ltrUpdate s always).regs = s.regs ∧
    (ltrUpdate s always).fr = s.fr ∧
    (ltrUpdate s always).mx = s.mx ∧
    (ltrUpdate s always).fx = s.fx ∧
    (ltrUpdate s always).ps = s.ps ∧
    (ltrUpdate s always).sp = s.sp ∧
    (ltrUpdate s always).ai = s.ai ∧
    (ltrUpdate s always).aq = s.aq ∧
    (ltrUpdate s always).dp = s.dp ∧
    (ltrUpdate s always).ck = s.ck ∧
    (ltrUpdate s always).sc = s.sc ∧
    (ltrUpdate s always).hl = s.hl ∧
    (ltrUpdate s always).tw = s.tw ∧
    (ltrUpdate s always).sv = s.sv ∧
    (ltrUpdate s always).pd = s.pd ∧
    (ltrUpdate s always).ct = s.ct ∧
    (ltrUpdate s always).pl = s.pl ∧
    (ltrUpdate s always).vc = s.vc := by
  unfold Machine.ltrUpdate; first | (simp; done) | ((repeat' split) <;> simp; done) | (dsimp only; (repeat' split) <;> simp; done)
@[simp] theorem groupEvent_keeps {s : State} {g : Nat} {old : GroupState} {new : GroupState} {cause : Nat} {start : Nat} :
    (groupEvent s g old new cause start).pending = s.pending ∧
    (groupEvent s g old new cause start).now = s.now ∧
    (groupEvent s g old new cause start).regs = s.regs ∧
    (groupEvent s g old new cause start).fr = s.fr ∧
    (groupEvent s g old new cause start).mx = s.mx ∧
    (groupEvent s g old new cause start).fx = s.fx ∧
    (groupEvent s g old new cause start).ps = s.ps ∧
    (groupEvent s g old new cause start).sp = s.sp ∧
    (groupEvent s g old new cause start).ai = s.ai ∧
    (groupEvent s g old new cause start).aq = s.aq ∧
    (groupEvent s g old new cause start).dp = s.dp ∧
    (groupEvent s g old new cause start).ck = s.ck ∧
    (groupEvent s g old new cause start).sc = s.sc ∧
    (groupEvent s g old new cause start).st = s.st ∧
    (groupEvent s g old new cause start).sv = s.sv ∧
    (groupEvent s g old new cause start).pd = s.pd ∧
    (groupEvent s g old new cause start).ct = s.ct ∧
    (groupEvent s g old new cause start).pl = s.pl ∧
    (groupEvent s g old new cause start).vc = s.vc ∧
    (groupEvent s g old new cause start).hl.locked = s.hl.locked := by
  unfold Machine.groupEvent; first | (simp; done) | ((repeat' split) <;> simp; done) | (dsimp only; (repeat' split) <;> simp; done)
@[simp] theorem groupLeave_keeps {s : State} {g : Nat} :
    (groupLeave s g).pending = s.pending ∧
    (groupLeave s g).now = s.now ∧
    (groupLeave s g).regs = s.regs ∧
    (groupLeave s g).fr = s.fr ∧
    (groupLeave s g).mx = s.mx ∧
    (groupLeave s g).fx = s.fx ∧
    (groupLeave s g).ps = s.ps ∧
    (groupLeave s g).sp = s.sp ∧
    (groupLeave s g).ai = s.ai ∧
    (groupLeave s g).aq = s.aq ∧
    (groupLeave s g).dp = s.dp ∧
    (groupLeave s g).ck = s.ck ∧
    (groupLeave s g).sc = s.sc ∧
    (groupLeave s g).sv = s.sv ∧
    (groupLeave s g).pd = s.pd ∧
    (groupLeave s g).ct = s.ct ∧
    (groupLeave s g).pl = s.pl ∧
    (groupLeave s g).vc = s.vc ∧
    (groupLeave s g).hl.locked = s.hl.locked := by
  unfold Machine.groupLeave; first | (simp; done) | ((repeat' split) <;> simp; done) | (dsimp only; (repeat' split) <;> simp; done)
@[simp] theorem applyGroupStart_keeps {s : State} {g : Nat} :
    (applyGroupStart s g).pending = s.pending ∧
    (applyGroupStart s g).now = s.now ∧
    (applyGroupStart s g).regs = s.regs ∧
    (applyGroupStart s g).fr = s.fr ∧
    (applyGroupStart s g).mx = s.mx ∧
    (applyGroupStart s g).fx = s.fx ∧
    (applyGroupStart s g).ps = s.ps ∧
    (applyGroupStart s g).sp = s.sp ∧
    (applyGroupStart s g).ai = s.ai ∧
    (applyGroupStart s g).aq = s.aq ∧
    (applyGroupStart s g).dp = s.dp ∧
    (applyGroupStart s g).ck = s.ck ∧
    (applyGroupStart s g).sc = s.sc ∧
    (applyGroupStart s g).sv = s.sv ∧
    (applyGroupStart s g).pd = s.pd ∧
    (applyGroupStart s g).ct = s.ct ∧
    (applyGroupStart s g).pl = s.pl ∧
    (applyGroupStart s g).vc = s.vc ∧
    (applyGroupStart s g).hl.locked = s.hl.locked := by
  unfold Machine.applyGroupStart; first | (simp; done) | ((repeat' split) <;> simp; done) | (dsimp only; (repeat' split) <;> simp; done)
@[simp] theorem ctxSignal_keeps {s : State} {v : Nat} :
    (ctxSignal s v).pending = s.pending ∧
    (ctxSignal s v).now = s.now ∧
    (ctxSignal s v).regs = s.regs ∧
    (ctxSignal s v).fr = s.fr ∧
    (ctxSignal s v).mx = s.mx ∧
    (ctxSignal s v).fx = s.fx ∧
    (ctxSignal s v).ps = s.ps ∧
    (ctxSignal s v).sp = s.sp ∧
    (ctxSignal s v).ai = s.ai ∧
    (ctxSignal s v).aq = s.aq ∧
    (ctxSignal s v).dp = s.dp ∧
    (ctxSignal s v).ck = s.ck ∧
    (ctxSignal s v).sc = s.sc ∧
    (ctxSignal s v).tw = s.tw ∧
    (ctxSignal s v).sv = s.sv ∧
    (ctxSignal s v).pd = s.pd ∧
    (ctxSignal s v).ct = s.ct ∧
    (ctxSignal s v).pl = s.pl ∧
    (ctxSignal s v).vc = s.vc ∧
    (ctxSignal s v).hl.locked = s.hl.locked := by
  unfold Machine.ctxSignal; first | (simp; done) | ((repeat' split) <;> simp; done) | (dsimp only; (repeat' split) <;> simp; done)
@[simp] theorem ctxSignals_keeps {s : State} :
    (ctxSignals s).pending = s.pending ∧
    (ctxSignals s).now = s.now ∧
    (ctxSignals s).regs = s.regs ∧
    (ctxSignals s).fr = s.fr ∧
    (ctxSignals s).mx = s.mx ∧
    (ctxSignals s).fx = s.fx ∧
    (ctxSignals s).ps = s.ps ∧
    (ctxSignals s).sp = s.sp ∧
    (ctxSignals s).ai = s.ai ∧
    (ctxSignals s).aq = s.aq ∧
    (ctxSignals s).dp = s.dp ∧
    (ctxSignals s).ck = s.ck ∧
    (ctxSignals s).sc = s.sc ∧
    (ctxSignals s).tw = s.tw ∧
    (ctxSignals s).sv = s.sv ∧
    (ctxSignals s).pd = s.pd ∧
    (ctxSignals s).ct = s.ct ∧
    (ctxSignals s).pl = s.pl ∧
    (ctxSignals s).vc = s.vc ∧
    (ctxSignals s).hl.locked = s.hl.locked := by
  unfold Machine.ctxSignals; first | (simp; done) | ((repeat' split) <;> simp; done) | (dsimp only; (repeat' split) <;> simp; done)
@[simp] theorem writeBack_keeps {s : State} {k : Nat} {idx : Nat} {done : Nat} {missed : Nat} {status : Nat} {phase : Bool} :
    (writeBack s k idx done missed status phase).pending = s.pending ∧
    (writeBack s k idx done missed status phase).now = s.now ∧
    (writeBack s k idx done missed status phase).regs = s.regs ∧
    (writeBack s k idx done missed status phase).fr = s.fr ∧
    (writeBack s k idx done missed status phase).mx = s.mx ∧
    (writeBack s k idx done missed status phase).fx = s.fx ∧
    (writeBack s k idx done missed status phase).ps = s.ps ∧
    (writeBack s k idx done missed status phase).sp = s.sp ∧
    (writeBack s k idx done missed status phase).ai = s.ai ∧
    (writeBack s k idx done missed status phase).aq = s.aq ∧
    (writeBack s k idx done missed status phase).dp = s.dp ∧
    (writeBack s k idx done missed status phase).ck = s.ck ∧
    (writeBack s k idx done missed status phase).sc = s.sc ∧
    (writeBack s k idx done missed status phase).st = s.st ∧
    (writeBack s k idx done missed status phase).tw = s.tw ∧
    (writeBack s k idx done missed status phase).sv = s.sv ∧
    (writeBack s k idx done missed status phase).pd = s.pd ∧
    (writeBack s k idx done missed status phase).ct = s.ct ∧
    (writeBack s k idx done missed status phase).pl = s.pl ∧
    (writeBack s k idx done missed status phase).vc = s.vc ∧
    (writeBack s k idx done missed status phase).hl.locked = s.hl.locked := by
  unfold Machine.writeBack; first | (simp; done) | ((repeat' split) <;> simp; done) | (dsimp only; (repeat' split) <;> simp; done)
@[simp] theorem retireHead_keeps {s : State} {k : Nat} {status : Nat} :
    (retireHead s k status).pending = s.pending ∧
    (retireHead s k status).now = s.now ∧
    (retireHead s k status).regs = s.regs ∧
    (retireHead s k status).fr = s.fr ∧
    (retireHead s k status).mx = s.mx ∧
    (retireHead s k status).fx = s.fx ∧
    (retireHead s k status).ps = s.ps ∧
    (retireHead s k status).sp = s.sp ∧
    (retireHead s k status).ai = s.ai ∧
    (retireHead s k status).aq = s.aq ∧
    (retireHead s k status).dp = s.dp ∧
    (retireHead s k status).ck = s.ck ∧
    (retireHead s k status).sc = s.sc ∧
    (retireHead s k status).tw = s.tw ∧
    (retireHead s k status).sv = s.sv ∧
    (retireHead s k status).pd = s.pd ∧
    (retireHead s k status).ct = s.ct ∧
    (retireHead s k status).pl = s.pl ∧
    (retireHead s k status).vc = s.vc ∧
    (retireHead s k status).hl.locked = s.hl.locked := by
  unfold Machine.retireHead; first | (simp; done) | ((repeat' split) <;> simp; done) | (dsimp only; (repeat' split) <;> simp; done)
@[simp] theorem ctxFail_keeps {s : State} {k : Nat} {cause : StreamCause} {idx : Nat} :
    (ctxFail s k cause idx).pending = s.pending ∧
    (ctxFail s k cause idx).now = s.now ∧
    (ctxFail s k cause idx).out = s.out ∧
    (ctxFail s k cause idx).regs = s.regs ∧
    (ctxFail s k cause idx).fr = s.fr ∧
    (ctxFail s k cause idx).mx = s.mx ∧
    (ctxFail s k cause idx).fx = s.fx ∧
    (ctxFail s k cause idx).ps = s.ps ∧
    (ctxFail s k cause idx).sp = s.sp ∧
    (ctxFail s k cause idx).ai = s.ai ∧
    (ctxFail s k cause idx).aq = s.aq ∧
    (ctxFail s k cause idx).dp = s.dp ∧
    (ctxFail s k cause idx).ck = s.ck ∧
    (ctxFail s k cause idx).sc = s.sc ∧
    (ctxFail s k cause idx).hl = s.hl ∧
    (ctxFail s k cause idx).tw = s.tw ∧
    (ctxFail s k cause idx).sv = s.sv ∧
    (ctxFail s k cause idx).pd = s.pd ∧
    (ctxFail s k cause idx).ct = s.ct ∧
    (ctxFail s k cause idx).pl = s.pl ∧
    (ctxFail s k cause idx).vc = s.vc := by
  unfold Machine.ctxFail; first | (simp; done) | ((repeat' split) <;> simp; done) | (dsimp only; (repeat' split) <;> simp; done)
@[simp] theorem applyHalt_keeps {s : State} {k : Nat} :
    (applyHalt s k).pending = s.pending ∧
    (applyHalt s k).now = s.now ∧
    (applyHalt s k).regs = s.regs ∧
    (applyHalt s k).fr = s.fr ∧
    (applyHalt s k).mx = s.mx ∧
    (applyHalt s k).fx = s.fx ∧
    (applyHalt s k).ps = s.ps ∧
    (applyHalt s k).sp = s.sp ∧
    (applyHalt s k).ai = s.ai ∧
    (applyHalt s k).aq = s.aq ∧
    (applyHalt s k).dp = s.dp ∧
    (applyHalt s k).ck = s.ck ∧
    (applyHalt s k).sc = s.sc ∧
    (applyHalt s k).sv = s.sv ∧
    (applyHalt s k).pd = s.pd ∧
    (applyHalt s k).ct = s.ct ∧
    (applyHalt s k).pl = s.pl ∧
    (applyHalt s k).vc = s.vc ∧
    (applyHalt s k).hl.locked = s.hl.locked := by
  unfold Machine.applyHalt; first | (simp; done) | ((repeat' split) <;> simp; done) | (dsimp only; (repeat' split) <;> simp; done)
@[simp] theorem applyHalts_keeps {s : State} :
    (applyHalts s).pending = s.pending ∧
    (applyHalts s).now = s.now ∧
    (applyHalts s).regs = s.regs ∧
    (applyHalts s).fr = s.fr ∧
    (applyHalts s).mx = s.mx ∧
    (applyHalts s).fx = s.fx ∧
    (applyHalts s).ps = s.ps ∧
    (applyHalts s).sp = s.sp ∧
    (applyHalts s).ai = s.ai ∧
    (applyHalts s).aq = s.aq ∧
    (applyHalts s).dp = s.dp ∧
    (applyHalts s).ck = s.ck ∧
    (applyHalts s).sc = s.sc ∧
    (applyHalts s).sv = s.sv ∧
    (applyHalts s).pd = s.pd ∧
    (applyHalts s).ct = s.ct ∧
    (applyHalts s).pl = s.pl ∧
    (applyHalts s).vc = s.vc ∧
    (applyHalts s).hl.locked = s.hl.locked := by
  unfold Machine.applyHalts; first | (simp; done) | ((repeat' split) <;> simp; done) | (dsimp only; (repeat' split) <;> simp; done)
@[simp] theorem writeRec_keeps {k : Nat} {s : State} {e : Nat × List Int} :
    (writeRec k s e).pending = s.pending ∧
    (writeRec k s e).now = s.now ∧
    (writeRec k s e).regs = s.regs ∧
    (writeRec k s e).fr = s.fr ∧
    (writeRec k s e).mx = s.mx ∧
    (writeRec k s e).fx = s.fx ∧
    (writeRec k s e).ps = s.ps ∧
    (writeRec k s e).sp = s.sp ∧
    (writeRec k s e).ai = s.ai ∧
    (writeRec k s e).aq = s.aq ∧
    (writeRec k s e).dp = s.dp ∧
    (writeRec k s e).ck = s.ck ∧
    (writeRec k s e).sc = s.sc ∧
    (writeRec k s e).sv = s.sv ∧
    (writeRec k s e).pd = s.pd ∧
    (writeRec k s e).ct = s.ct ∧
    (writeRec k s e).pl = s.pl ∧
    (writeRec k s e).vc = s.vc ∧
    (writeRec k s e).hl.locked = s.hl.locked := by
  unfold Machine.writeRec; first | (simp; done) | ((repeat' split) <;> simp; done) | (dsimp only; (repeat' split) <;> simp; done)
@[simp] theorem rewriteRec_keeps {k : Nat} {s : State} {e : Nat × List Int} :
    (rewriteRec k s e).pending = s.pending ∧
    (rewriteRec k s e).now = s.now ∧
    (rewriteRec k s e).regs = s.regs ∧
    (rewriteRec k s e).fr = s.fr ∧
    (rewriteRec k s e).mx = s.mx ∧
    (rewriteRec k s e).fx = s.fx ∧
    (rewriteRec k s e).ps = s.ps ∧
    (rewriteRec k s e).sp = s.sp ∧
    (rewriteRec k s e).ai = s.ai ∧
    (rewriteRec k s e).aq = s.aq ∧
    (rewriteRec k s e).dp = s.dp ∧
    (rewriteRec k s e).ck = s.ck ∧
    (rewriteRec k s e).sc = s.sc ∧
    (rewriteRec k s e).st = s.st ∧
    (rewriteRec k s e).tw = s.tw ∧
    (rewriteRec k s e).sv = s.sv ∧
    (rewriteRec k s e).pd = s.pd ∧
    (rewriteRec k s e).ct = s.ct ∧
    (rewriteRec k s e).pl = s.pl ∧
    (rewriteRec k s e).vc = s.vc ∧
    (rewriteRec k s e).hl.locked = s.hl.locked := by
  unfold Machine.rewriteRec; first | (simp; done) | ((repeat' split) <;> simp; done) | (dsimp only; (repeat' split) <;> simp; done)
@[simp] theorem rewriteAbove_keeps {s : State} {fn : Nat} {k : Nat} :
    (rewriteAbove s fn k).pending = s.pending ∧
    (rewriteAbove s fn k).now = s.now ∧
    (rewriteAbove s fn k).regs = s.regs ∧
    (rewriteAbove s fn k).fr = s.fr ∧
    (rewriteAbove s fn k).mx = s.mx ∧
    (rewriteAbove s fn k).fx = s.fx ∧
    (rewriteAbove s fn k).ps = s.ps ∧
    (rewriteAbove s fn k).sp = s.sp ∧
    (rewriteAbove s fn k).ai = s.ai ∧
    (rewriteAbove s fn k).aq = s.aq ∧
    (rewriteAbove s fn k).dp = s.dp ∧
    (rewriteAbove s fn k).ck = s.ck ∧
    (rewriteAbove s fn k).sc = s.sc ∧
    (rewriteAbove s fn k).st = s.st ∧
    (rewriteAbove s fn k).tw = s.tw ∧
    (rewriteAbove s fn k).sv = s.sv ∧
    (rewriteAbove s fn k).pd = s.pd ∧
    (rewriteAbove s fn k).ct = s.ct ∧
    (rewriteAbove s fn k).pl = s.pl ∧
    (rewriteAbove s fn k).vc = s.vc ∧
    (rewriteAbove s fn k).hl.locked = s.hl.locked := by
  unfold Machine.rewriteAbove; first | (simp; done) | ((repeat' split) <;> simp; done) | (dsimp only; (repeat' split) <;> simp; done)
@[simp] theorem writeHeld_keeps {s : State} {k : Nat} :
    (writeHeld s k).pending = s.pending ∧
    (writeHeld s k).now = s.now ∧
    (writeHeld s k).regs = s.regs ∧
    (writeHeld s k).fr = s.fr ∧
    (writeHeld s k).mx = s.mx ∧
    (writeHeld s k).fx = s.fx ∧
    (writeHeld s k).ps = s.ps ∧
    (writeHeld s k).sp = s.sp ∧
    (writeHeld s k).ai = s.ai ∧
    (writeHeld s k).aq = s.aq ∧
    (writeHeld s k).dp = s.dp ∧
    (writeHeld s k).ck = s.ck ∧
    (writeHeld s k).sc = s.sc ∧
    (writeHeld s k).sv = s.sv ∧
    (writeHeld s k).pd = s.pd ∧
    (writeHeld s k).ct = s.ct ∧
    (writeHeld s k).pl = s.pl ∧
    (writeHeld s k).vc = s.vc ∧
    (writeHeld s k).hl.locked = s.hl.locked := by
  unfold Machine.writeHeld; first | (simp; done) | ((repeat' split) <;> simp; done) | (dsimp only; (repeat' split) <;> simp; done)
@[simp] theorem loseFrame_keeps {s : State} {k : Nat} {f : Nat} {cause : Nat} :
    (loseFrame s k f cause).pending = s.pending ∧
    (loseFrame s k f cause).now = s.now ∧
    (loseFrame s k f cause).regs = s.regs ∧
    (loseFrame s k f cause).fr = s.fr ∧
    (loseFrame s k f cause).mx = s.mx ∧
    (loseFrame s k f cause).fx = s.fx ∧
    (loseFrame s k f cause).ps = s.ps ∧
    (loseFrame s k f cause).sp = s.sp ∧
    (loseFrame s k f cause).ai = s.ai ∧
    (loseFrame s k f cause).aq = s.aq ∧
    (loseFrame s k f cause).dp = s.dp ∧
    (loseFrame s k f cause).ck = s.ck ∧
    (loseFrame s k f cause).sc = s.sc ∧
    (loseFrame s k f cause).sv = s.sv ∧
    (loseFrame s k f cause).pd = s.pd ∧
    (loseFrame s k f cause).ct = s.ct ∧
    (loseFrame s k f cause).pl = s.pl ∧
    (loseFrame s k f cause).vc = s.vc ∧
    (loseFrame s k f cause).hl.locked = s.hl.locked := by
  unfold Machine.loseFrame; first | (simp; done) | ((repeat' split) <;> simp; done) | (dsimp only; (repeat' split) <;> simp; done)
@[simp] theorem streamDoorbell_keeps {s : State} {k : Nat} {full : Bool} {v : Word} :
    (streamDoorbell s k full v).pending = s.pending ∧
    (streamDoorbell s k full v).now = s.now ∧
    (streamDoorbell s k full v).out = s.out ∧
    (streamDoorbell s k full v).regs = s.regs ∧
    (streamDoorbell s k full v).fr = s.fr ∧
    (streamDoorbell s k full v).mx = s.mx ∧
    (streamDoorbell s k full v).fx = s.fx ∧
    (streamDoorbell s k full v).ps = s.ps ∧
    (streamDoorbell s k full v).sp = s.sp ∧
    (streamDoorbell s k full v).ai = s.ai ∧
    (streamDoorbell s k full v).aq = s.aq ∧
    (streamDoorbell s k full v).dp = s.dp ∧
    (streamDoorbell s k full v).ck = s.ck ∧
    (streamDoorbell s k full v).sc = s.sc ∧
    (streamDoorbell s k full v).tw = s.tw ∧
    (streamDoorbell s k full v).sv = s.sv ∧
    (streamDoorbell s k full v).pd = s.pd ∧
    (streamDoorbell s k full v).ct = s.ct ∧
    (streamDoorbell s k full v).pl = s.pl ∧
    (streamDoorbell s k full v).vc = s.vc ∧
    (streamDoorbell s k full v).hl.locked = s.hl.locked := by
  unfold Machine.streamDoorbell; first | (simp; done) | ((repeat' split) <;> simp; done) | (dsimp only; (repeat' split) <;> simp; done)
@[simp] theorem countLate_keeps {s : State} {k : Nat} {n : Nat} {first : Nat} :
    (countLate s k n first).pending = s.pending ∧
    (countLate s k n first).now = s.now ∧
    (countLate s k n first).regs = s.regs ∧
    (countLate s k n first).fr = s.fr ∧
    (countLate s k n first).mx = s.mx ∧
    (countLate s k n first).fx = s.fx ∧
    (countLate s k n first).ps = s.ps ∧
    (countLate s k n first).sp = s.sp ∧
    (countLate s k n first).ai = s.ai ∧
    (countLate s k n first).aq = s.aq ∧
    (countLate s k n first).dp = s.dp ∧
    (countLate s k n first).ck = s.ck ∧
    (countLate s k n first).sc = s.sc ∧
    (countLate s k n first).sv = s.sv ∧
    (countLate s k n first).pd = s.pd ∧
    (countLate s k n first).ct = s.ct ∧
    (countLate s k n first).pl = s.pl ∧
    (countLate s k n first).vc = s.vc ∧
    (countLate s k n first).hl.locked = s.hl.locked := by
  unfold Machine.countLate; first | (simp; done) | ((repeat' split) <;> simp; done) | (dsimp only; (repeat' split) <;> simp; done)
@[simp] theorem takeDesc_keeps {s : State} {k : Nat} {d : Desc} :
    (takeDesc s k d).pending = s.pending ∧
    (takeDesc s k d).now = s.now ∧
    (takeDesc s k d).regs = s.regs ∧
    (takeDesc s k d).fr = s.fr ∧
    (takeDesc s k d).mx = s.mx ∧
    (takeDesc s k d).fx = s.fx ∧
    (takeDesc s k d).ps = s.ps ∧
    (takeDesc s k d).sp = s.sp ∧
    (takeDesc s k d).ai = s.ai ∧
    (takeDesc s k d).aq = s.aq ∧
    (takeDesc s k d).dp = s.dp ∧
    (takeDesc s k d).ck = s.ck ∧
    (takeDesc s k d).sc = s.sc ∧
    (takeDesc s k d).sv = s.sv ∧
    (takeDesc s k d).pd = s.pd ∧
    (takeDesc s k d).ct = s.ct ∧
    (takeDesc s k d).pl = s.pl ∧
    (takeDesc s k d).vc = s.vc ∧
    (takeDesc s k d).hl.locked = s.hl.locked := by
  unfold Machine.takeDesc; first | (simp; done) | ((repeat' split) <;> simp; done) | (dsimp only; (repeat' split) <;> simp; done)
@[simp] theorem joinGroup_keeps {s : State} {k : Nat} {first : Nat} :
    (joinGroup s k first).pending = s.pending ∧
    (joinGroup s k first).now = s.now ∧
    (joinGroup s k first).out = s.out ∧
    (joinGroup s k first).regs = s.regs ∧
    (joinGroup s k first).fr = s.fr ∧
    (joinGroup s k first).mx = s.mx ∧
    (joinGroup s k first).fx = s.fx ∧
    (joinGroup s k first).ps = s.ps ∧
    (joinGroup s k first).sp = s.sp ∧
    (joinGroup s k first).ai = s.ai ∧
    (joinGroup s k first).aq = s.aq ∧
    (joinGroup s k first).dp = s.dp ∧
    (joinGroup s k first).ck = s.ck ∧
    (joinGroup s k first).sc = s.sc ∧
    (joinGroup s k first).hl = s.hl ∧
    (joinGroup s k first).tw = s.tw ∧
    (joinGroup s k first).sv = s.sv ∧
    (joinGroup s k first).pd = s.pd ∧
    (joinGroup s k first).ct = s.ct ∧
    (joinGroup s k first).pl = s.pl ∧
    (joinGroup s k first).vc = s.vc := by
  unfold Machine.joinGroup; first | (simp; done) | ((repeat' split) <;> simp; done) | (dsimp only; (repeat' split) <;> simp; done)
@[simp] theorem fetchDesc_keeps {s : State} {k : Nat} {d : ReadResult} :
    (fetchDesc s k d).pending = s.pending ∧
    (fetchDesc s k d).now = s.now ∧
    (fetchDesc s k d).regs = s.regs ∧
    (fetchDesc s k d).fr = s.fr ∧
    (fetchDesc s k d).mx = s.mx ∧
    (fetchDesc s k d).fx = s.fx ∧
    (fetchDesc s k d).ps = s.ps ∧
    (fetchDesc s k d).sp = s.sp ∧
    (fetchDesc s k d).ai = s.ai ∧
    (fetchDesc s k d).aq = s.aq ∧
    (fetchDesc s k d).dp = s.dp ∧
    (fetchDesc s k d).ck = s.ck ∧
    (fetchDesc s k d).sc = s.sc ∧
    (fetchDesc s k d).sv = s.sv ∧
    (fetchDesc s k d).pd = s.pd ∧
    (fetchDesc s k d).ct = s.ct ∧
    (fetchDesc s k d).pl = s.pl ∧
    (fetchDesc s k d).vc = s.vc ∧
    (fetchDesc s k d).hl.locked = s.hl.locked := by
  unfold Machine.fetchDesc; first | (simp; done) | ((repeat' split) <;> simp; done) | (dsimp only; (repeat' split) <;> simp; done)
@[simp] theorem neverRead_keeps {s : State} {k : Nat} {n : Nat} :
    (neverRead s k n).pending = s.pending ∧
    (neverRead s k n).now = s.now ∧
    (neverRead s k n).regs = s.regs ∧
    (neverRead s k n).fr = s.fr ∧
    (neverRead s k n).mx = s.mx ∧
    (neverRead s k n).fx = s.fx ∧
    (neverRead s k n).ps = s.ps ∧
    (neverRead s k n).sp = s.sp ∧
    (neverRead s k n).ai = s.ai ∧
    (neverRead s k n).aq = s.aq ∧
    (neverRead s k n).dp = s.dp ∧
    (neverRead s k n).ck = s.ck ∧
    (neverRead s k n).sc = s.sc ∧
    (neverRead s k n).sv = s.sv ∧
    (neverRead s k n).pd = s.pd ∧
    (neverRead s k n).ct = s.ct ∧
    (neverRead s k n).pl = s.pl ∧
    (neverRead s k n).vc = s.vc ∧
    (neverRead s k n).hl.locked = s.hl.locked := by
  unfold Machine.neverRead; first | (simp; done) | ((repeat' split) <;> simp; done) | (dsimp only; (repeat' split) <;> simp; done)
@[simp] theorem playStrobe_keeps {s : State} {k : Nat} {lost : Bool} :
    (playStrobe s k lost).pending = s.pending ∧
    (playStrobe s k lost).now = s.now ∧
    (playStrobe s k lost).regs = s.regs ∧
    (playStrobe s k lost).fr = s.fr ∧
    (playStrobe s k lost).mx = s.mx ∧
    (playStrobe s k lost).fx = s.fx ∧
    (playStrobe s k lost).ps = s.ps ∧
    (playStrobe s k lost).sp = s.sp ∧
    (playStrobe s k lost).ai = s.ai ∧
    (playStrobe s k lost).aq = s.aq ∧
    (playStrobe s k lost).dp = s.dp ∧
    (playStrobe s k lost).ck = s.ck ∧
    (playStrobe s k lost).sc = s.sc ∧
    (playStrobe s k lost).sv = s.sv ∧
    (playStrobe s k lost).pd = s.pd ∧
    (playStrobe s k lost).ct = s.ct ∧
    (playStrobe s k lost).pl = s.pl ∧
    (playStrobe s k lost).vc = s.vc ∧
    (playStrobe s k lost).hl.locked = s.hl.locked := by
  unfold Machine.playStrobe; first | (simp; done) | ((repeat' split) <;> simp; done) | (dsimp only; (repeat' split) <;> simp; done)
@[simp] theorem storeLoses_keeps {k : Nat} {s : State} {f : Nat} :
    (storeLoses k s f).pending = s.pending ∧
    (storeLoses k s f).now = s.now ∧
    (storeLoses k s f).regs = s.regs ∧
    (storeLoses k s f).fr = s.fr ∧
    (storeLoses k s f).mx = s.mx ∧
    (storeLoses k s f).fx = s.fx ∧
    (storeLoses k s f).ps = s.ps ∧
    (storeLoses k s f).sp = s.sp ∧
    (storeLoses k s f).ai = s.ai ∧
    (storeLoses k s f).aq = s.aq ∧
    (storeLoses k s f).dp = s.dp ∧
    (storeLoses k s f).ck = s.ck ∧
    (storeLoses k s f).sc = s.sc ∧
    (storeLoses k s f).sv = s.sv ∧
    (storeLoses k s f).pd = s.pd ∧
    (storeLoses k s f).ct = s.ct ∧
    (storeLoses k s f).pl = s.pl ∧
    (storeLoses k s f).vc = s.vc ∧
    (storeLoses k s f).hl.locked = s.hl.locked := by
  unfold Machine.storeLoses; first | (simp; done) | ((repeat' split) <;> simp; done) | (dsimp only; (repeat' split) <;> simp; done)
@[simp] theorem recStrobe_keeps {s : State} {k : Nat} {lost : List Nat} :
    (recStrobe s k lost).pending = s.pending ∧
    (recStrobe s k lost).now = s.now ∧
    (recStrobe s k lost).regs = s.regs ∧
    (recStrobe s k lost).fr = s.fr ∧
    (recStrobe s k lost).mx = s.mx ∧
    (recStrobe s k lost).fx = s.fx ∧
    (recStrobe s k lost).ps = s.ps ∧
    (recStrobe s k lost).sp = s.sp ∧
    (recStrobe s k lost).ai = s.ai ∧
    (recStrobe s k lost).aq = s.aq ∧
    (recStrobe s k lost).dp = s.dp ∧
    (recStrobe s k lost).ck = s.ck ∧
    (recStrobe s k lost).sc = s.sc ∧
    (recStrobe s k lost).sv = s.sv ∧
    (recStrobe s k lost).pd = s.pd ∧
    (recStrobe s k lost).ct = s.ct ∧
    (recStrobe s k lost).pl = s.pl ∧
    (recStrobe s k lost).vc = s.vc ∧
    (recStrobe s k lost).hl.locked = s.hl.locked := by
  unfold Machine.recStrobe; first | (simp; done) | ((repeat' split) <;> simp; done) | (dsimp only; (repeat' split) <;> simp; done)
@[simp] theorem ctxRun_keeps {s : State} {k : Nat} {start : Nat} {how : Nat} :
    (ctxRun s k start how).pending = s.pending ∧
    (ctxRun s k start how).now = s.now ∧
    (ctxRun s k start how).regs = s.regs ∧
    (ctxRun s k start how).fr = s.fr ∧
    (ctxRun s k start how).mx = s.mx ∧
    (ctxRun s k start how).fx = s.fx ∧
    (ctxRun s k start how).ps = s.ps ∧
    (ctxRun s k start how).sp = s.sp ∧
    (ctxRun s k start how).ai = s.ai ∧
    (ctxRun s k start how).aq = s.aq ∧
    (ctxRun s k start how).dp = s.dp ∧
    (ctxRun s k start how).ck = s.ck ∧
    (ctxRun s k start how).sc = s.sc ∧
    (ctxRun s k start how).sv = s.sv ∧
    (ctxRun s k start how).pd = s.pd ∧
    (ctxRun s k start how).ct = s.ct ∧
    (ctxRun s k start how).pl = s.pl ∧
    (ctxRun s k start how).vc = s.vc ∧
    (ctxRun s k start how).hl.locked = s.hl.locked := by
  unfold Machine.ctxRun; first | (simp; done) | ((repeat' split) <;> simp; done) | (dsimp only; (repeat' split) <;> simp; done)
@[simp] theorem ctxStrobe_keeps {lost : List LostFrame} {s : State} {k : Nat} :
    (ctxStrobe lost s k).pending = s.pending ∧
    (ctxStrobe lost s k).now = s.now ∧
    (ctxStrobe lost s k).regs = s.regs ∧
    (ctxStrobe lost s k).fr = s.fr ∧
    (ctxStrobe lost s k).mx = s.mx ∧
    (ctxStrobe lost s k).fx = s.fx ∧
    (ctxStrobe lost s k).ps = s.ps ∧
    (ctxStrobe lost s k).sp = s.sp ∧
    (ctxStrobe lost s k).ai = s.ai ∧
    (ctxStrobe lost s k).aq = s.aq ∧
    (ctxStrobe lost s k).dp = s.dp ∧
    (ctxStrobe lost s k).ck = s.ck ∧
    (ctxStrobe lost s k).sc = s.sc ∧
    (ctxStrobe lost s k).sv = s.sv ∧
    (ctxStrobe lost s k).pd = s.pd ∧
    (ctxStrobe lost s k).ct = s.ct ∧
    (ctxStrobe lost s k).pl = s.pl ∧
    (ctxStrobe lost s k).vc = s.vc ∧
    (ctxStrobe lost s k).hl.locked = s.hl.locked := by
  unfold Machine.ctxStrobe; first | (simp; done) | ((repeat' split) <;> simp; done) | (dsimp only; (repeat' split) <;> simp; done)
@[simp] theorem streamsStrobe_keeps {s : State} {lost : List LostFrame} :
    (streamsStrobe s lost).pending = s.pending ∧
    (streamsStrobe s lost).now = s.now ∧
    (streamsStrobe s lost).regs = s.regs ∧
    (streamsStrobe s lost).fr = s.fr ∧
    (streamsStrobe s lost).mx = s.mx ∧
    (streamsStrobe s lost).fx = s.fx ∧
    (streamsStrobe s lost).ps = s.ps ∧
    (streamsStrobe s lost).sp = s.sp ∧
    (streamsStrobe s lost).ai = s.ai ∧
    (streamsStrobe s lost).aq = s.aq ∧
    (streamsStrobe s lost).dp = s.dp ∧
    (streamsStrobe s lost).ck = s.ck ∧
    (streamsStrobe s lost).sc = s.sc ∧
    (streamsStrobe s lost).sv = s.sv ∧
    (streamsStrobe s lost).pd = s.pd ∧
    (streamsStrobe s lost).ct = s.ct ∧
    (streamsStrobe s lost).pl = s.pl ∧
    (streamsStrobe s lost).vc = s.vc ∧
    (streamsStrobe s lost).hl.locked = s.hl.locked := by
  unfold Machine.streamsStrobe; first | (simp; done) | ((repeat' split) <;> simp; done) | (dsimp only; (repeat' split) <;> simp; done)
@[simp] theorem startSample_keeps {s : State} {e : Nat × Int} :
    (startSample s e).pending = s.pending ∧
    (startSample s e).now = s.now ∧
    (startSample s e).out = s.out ∧
    (startSample s e).regs = s.regs ∧
    (startSample s e).fr = s.fr ∧
    (startSample s e).fx = s.fx ∧
    (startSample s e).ps = s.ps ∧
    (startSample s e).sp = s.sp ∧
    (startSample s e).ai = s.ai ∧
    (startSample s e).aq = s.aq ∧
    (startSample s e).dp = s.dp ∧
    (startSample s e).ck = s.ck ∧
    (startSample s e).sc = s.sc ∧
    (startSample s e).hl = s.hl ∧
    (startSample s e).st = s.st ∧
    (startSample s e).tw = s.tw ∧
    (startSample s e).sv = s.sv ∧
    (startSample s e).pd = s.pd ∧
    (startSample s e).ct = s.ct ∧
    (startSample s e).vc = s.vc := by
  unfold Machine.startSample; first | (simp; done) | ((repeat' split) <;> simp; done) | (dsimp only; (repeat' split) <;> simp; done)
@[simp] theorem retireAll_keeps {i : Nat} {s : State} {k m n : Nat} :
    (retireAll i s k m n).1.pending = s.pending ∧
    (retireAll i s k m n).1.now = s.now ∧
    (retireAll i s k m n).1.regs = s.regs ∧
    (retireAll i s k m n).1.fr = s.fr ∧
    (retireAll i s k m n).1.mx = s.mx ∧
    (retireAll i s k m n).1.fx = s.fx ∧
    (retireAll i s k m n).1.ps = s.ps ∧
    (retireAll i s k m n).1.sp = s.sp ∧
    (retireAll i s k m n).1.ai = s.ai ∧
    (retireAll i s k m n).1.aq = s.aq ∧
    (retireAll i s k m n).1.dp = s.dp ∧
    (retireAll i s k m n).1.ck = s.ck ∧
    (retireAll i s k m n).1.sc = s.sc ∧
    (retireAll i s k m n).1.tw = s.tw ∧
    (retireAll i s k m n).1.sv = s.sv ∧
    (retireAll i s k m n).1.pd = s.pd ∧
    (retireAll i s k m n).1.ct = s.ct ∧
    (retireAll i s k m n).1.pl = s.pl ∧
    (retireAll i s k m n).1.vc = s.vc ∧
    (retireAll i s k m n).1.hl.locked = s.hl.locked := by
  induction i generalizing s n with
  | zero => simp [retireAll]
  | succ i ih =>
    simp only [retireAll]
    split <;> simp [ih]
@[simp] theorem retireUnread_keeps {i : Nat} {s : State} {k n : Nat} :
    (retireUnread i s k n).1.pending = s.pending ∧
    (retireUnread i s k n).1.now = s.now ∧
    (retireUnread i s k n).1.regs = s.regs ∧
    (retireUnread i s k n).1.fr = s.fr ∧
    (retireUnread i s k n).1.mx = s.mx ∧
    (retireUnread i s k n).1.fx = s.fx ∧
    (retireUnread i s k n).1.ps = s.ps ∧
    (retireUnread i s k n).1.sp = s.sp ∧
    (retireUnread i s k n).1.ai = s.ai ∧
    (retireUnread i s k n).1.aq = s.aq ∧
    (retireUnread i s k n).1.dp = s.dp ∧
    (retireUnread i s k n).1.ck = s.ck ∧
    (retireUnread i s k n).1.sc = s.sc ∧
    (retireUnread i s k n).1.tw = s.tw ∧
    (retireUnread i s k n).1.sv = s.sv ∧
    (retireUnread i s k n).1.pd = s.pd ∧
    (retireUnread i s k n).1.ct = s.ct ∧
    (retireUnread i s k n).1.pl = s.pl ∧
    (retireUnread i s k n).1.vc = s.vc ∧
    (retireUnread i s k n).1.hl.locked = s.hl.locked := by
  induction i generalizing s n with
  | zero => simp [retireUnread]
  | succ i ih =>
    simp only [retireUnread]
    split <;> simp [ih]
@[simp] theorem readStopped_keeps {s : State} {l : List (Fin 256 × ReadResult)} :
    (readStopped s l).pending = s.pending ∧
    (readStopped s l).now = s.now ∧
    (readStopped s l).regs = s.regs ∧
    (readStopped s l).fr = s.fr ∧
    (readStopped s l).mx = s.mx ∧
    (readStopped s l).fx = s.fx ∧
    (readStopped s l).ps = s.ps ∧
    (readStopped s l).sp = s.sp ∧
    (readStopped s l).ai = s.ai ∧
    (readStopped s l).aq = s.aq ∧
    (readStopped s l).dp = s.dp ∧
    (readStopped s l).ck = s.ck ∧
    (readStopped s l).sc = s.sc ∧
    (readStopped s l).sv = s.sv ∧
    (readStopped s l).pd = s.pd ∧
    (readStopped s l).ct = s.ct ∧
    (readStopped s l).pl = s.pl ∧
    (readStopped s l).vc = s.vc ∧
    (readStopped s l).hl.locked = s.hl.locked := by
  unfold Machine.readStopped; first | (simp; done) | ((repeat' split) <;> simp; done) | (dsimp only; (repeat' split) <;> simp; done)
@[simp] theorem applyStop_keeps {s : State} {k : Nat} :
    (applyStop s k).pending = s.pending ∧
    (applyStop s k).now = s.now ∧
    (applyStop s k).fr = s.fr ∧
    (applyStop s k).mx = s.mx ∧
    (applyStop s k).fx = s.fx ∧
    (applyStop s k).ps = s.ps ∧
    (applyStop s k).sp = s.sp ∧
    (applyStop s k).ai = s.ai ∧
    (applyStop s k).aq = s.aq ∧
    (applyStop s k).dp = s.dp ∧
    (applyStop s k).ck = s.ck ∧
    (applyStop s k).sc = s.sc ∧
    (applyStop s k).sv = s.sv ∧
    (applyStop s k).pd = s.pd ∧
    (applyStop s k).ct = s.ct ∧
    (applyStop s k).pl = s.pl ∧
    (applyStop s k).vc = s.vc ∧
    (applyStop s k).hl.locked = s.hl.locked := by
  unfold Machine.applyStop; first | (simp; done) | ((repeat' split) <;> simp; done) | (dsimp only; (repeat' split) <;> simp; done)
@[simp] theorem streamsReset_keeps {s : State} :
    (streamsReset s).pending = s.pending ∧
    (streamsReset s).now = s.now ∧
    (streamsReset s).mx = s.mx ∧
    (streamsReset s).fx = s.fx ∧
    (streamsReset s).ps = s.ps ∧
    (streamsReset s).sp = s.sp ∧
    (streamsReset s).ai = s.ai ∧
    (streamsReset s).aq = s.aq ∧
    (streamsReset s).dp = s.dp ∧
    (streamsReset s).ck = s.ck ∧
    (streamsReset s).sc = s.sc ∧
    (streamsReset s).sv = s.sv ∧
    (streamsReset s).pd = s.pd ∧
    (streamsReset s).ct = s.ct ∧
    (streamsReset s).vc = s.vc ∧
    (streamsReset s).fr.fn = s.fr.fn ∧
    (streamsReset s).fr.next = s.fr.next ∧
    (streamsReset s).fr.running = s.fr.running ∧
    (streamsReset s).hl.locked = s.hl.locked := by
  unfold Machine.streamsReset; first | (simp; done) | ((repeat' split) <;> simp; done) | (dsimp only; (repeat' split) <;> simp; done)
@[simp] theorem strRefuse_keeps {s : State} {k : Nat} {reason : Nat} {off : Nat} :
    (strRefuse s k reason off).pending = s.pending ∧
    (strRefuse s k reason off).now = s.now ∧
    (strRefuse s k reason off).regs = s.regs ∧
    (strRefuse s k reason off).fr = s.fr ∧
    (strRefuse s k reason off).mx = s.mx ∧
    (strRefuse s k reason off).fx = s.fx ∧
    (strRefuse s k reason off).ps = s.ps ∧
    (strRefuse s k reason off).sp = s.sp ∧
    (strRefuse s k reason off).ai = s.ai ∧
    (strRefuse s k reason off).aq = s.aq ∧
    (strRefuse s k reason off).dp = s.dp ∧
    (strRefuse s k reason off).ck = s.ck ∧
    (strRefuse s k reason off).sc = s.sc ∧
    (strRefuse s k reason off).sv = s.sv ∧
    (strRefuse s k reason off).pd = s.pd ∧
    (strRefuse s k reason off).ct = s.ct ∧
    (strRefuse s k reason off).pl = s.pl ∧
    (strRefuse s k reason off).vc = s.vc ∧
    (strRefuse s k reason off).hl.locked = s.hl.locked := by
  unfold Machine.strRefuse; first | (simp; done) | ((repeat' split) <;> simp; done) | (dsimp only; (repeat' split) <;> simp; done)
@[simp] theorem strWrite_keeps {s : State} {k : Nat} {n : RegName} {v : Word} :
    (strWrite s k n v).pending = s.pending ∧
    (strWrite s k n v).now = s.now ∧
    (strWrite s k n v).fr = s.fr ∧
    (strWrite s k n v).mx = s.mx ∧
    (strWrite s k n v).fx = s.fx ∧
    (strWrite s k n v).ps = s.ps ∧
    (strWrite s k n v).sp = s.sp ∧
    (strWrite s k n v).ai = s.ai ∧
    (strWrite s k n v).aq = s.aq ∧
    (strWrite s k n v).dp = s.dp ∧
    (strWrite s k n v).ck = s.ck ∧
    (strWrite s k n v).sc = s.sc ∧
    (strWrite s k n v).sv = s.sv ∧
    (strWrite s k n v).pd = s.pd ∧
    (strWrite s k n v).ct = s.ct ∧
    (strWrite s k n v).pl = s.pl ∧
    (strWrite s k n v).vc = s.vc ∧
    (strWrite s k n v).hl.locked = s.hl.locked := by
  unfold Machine.strWrite; first | (simp; done) | ((repeat' split) <;> simp; done) | (dsimp only; (repeat' split) <;> simp; done)
@[simp] theorem beginFrame_keeps {s : State} :
    (beginFrame s).pending = s.pending ∧
    (beginFrame s).now = s.now ∧
    (beginFrame s).out = s.out ∧
    (beginFrame s).regs = s.regs ∧
    (beginFrame s).fx = s.fx ∧
    (beginFrame s).ps = s.ps ∧
    (beginFrame s).sp = s.sp ∧
    (beginFrame s).ai = s.ai ∧
    (beginFrame s).aq = s.aq ∧
    (beginFrame s).dp = s.dp ∧
    (beginFrame s).ck = s.ck ∧
    (beginFrame s).sc = s.sc ∧
    (beginFrame s).hl = s.hl ∧
    (beginFrame s).st = s.st ∧
    (beginFrame s).tw = s.tw ∧
    (beginFrame s).sv = s.sv ∧
    (beginFrame s).pd = s.pd ∧
    (beginFrame s).ct = s.ct ∧
    (beginFrame s).pl = s.pl ∧
    (beginFrame s).vc = s.vc := by
  unfold Machine.beginFrame; first | (simp; done) | ((repeat' split) <;> simp; done) | (dsimp only; (repeat' split) <;> simp; done)
@[simp] theorem mirrorInputs_keeps {s : State} {raw : Tbl Int} :
    (mirrorInputs s raw).pending = s.pending ∧
    (mirrorInputs s raw).now = s.now ∧
    (mirrorInputs s raw).out = s.out ∧
    (mirrorInputs s raw).regs = s.regs ∧
    (mirrorInputs s raw).fr = s.fr ∧
    (mirrorInputs s raw).fx = s.fx ∧
    (mirrorInputs s raw).ps = s.ps ∧
    (mirrorInputs s raw).sp = s.sp ∧
    (mirrorInputs s raw).ai = s.ai ∧
    (mirrorInputs s raw).aq = s.aq ∧
    (mirrorInputs s raw).dp = s.dp ∧
    (mirrorInputs s raw).ck = s.ck ∧
    (mirrorInputs s raw).sc = s.sc ∧
    (mirrorInputs s raw).hl = s.hl ∧
    (mirrorInputs s raw).st = s.st ∧
    (mirrorInputs s raw).tw = s.tw ∧
    (mirrorInputs s raw).sv = s.sv ∧
    (mirrorInputs s raw).pd = s.pd ∧
    (mirrorInputs s raw).ct = s.ct ∧
    (mirrorInputs s raw).vc = s.vc := by
  unfold Machine.mirrorInputs; first | (simp; done) | ((repeat' split) <;> simp; done) | (dsimp only; (repeat' split) <;> simp; done)
@[simp] theorem capture_keeps {s : State} {x : StrobeIn} :
    (capture s x).pending = s.pending ∧
    (capture s x).now = s.now ∧
    (capture s x).regs = s.regs ∧
    (capture s x).fr = s.fr ∧
    (capture s x).fx = s.fx ∧
    (capture s x).ps = s.ps ∧
    (capture s x).sp = s.sp ∧
    (capture s x).aq = s.aq ∧
    (capture s x).dp = s.dp ∧
    (capture s x).ck = s.ck ∧
    (capture s x).sc = s.sc ∧
    (capture s x).st = s.st ∧
    (capture s x).sv = s.sv ∧
    (capture s x).pd = s.pd ∧
    (capture s x).ct = s.ct ∧
    (capture s x).vc = s.vc ∧
    (capture s x).hl.locked = s.hl.locked := by
  unfold Machine.capture; first | (simp; done) | ((repeat' split) <;> simp; done) | (dsimp only; (repeat' split) <;> simp; done)
@[simp] theorem strobeBody_keeps {s : State} {x : StrobeIn} :
    (strobeBody s x).pending = s.pending ∧
    (strobeBody s x).now = s.now ∧
    (strobeBody s x).regs = s.regs ∧
    (strobeBody s x).fr = s.fr ∧
    (strobeBody s x).sv = s.sv ∧
    (strobeBody s x).pd = s.pd ∧
    (strobeBody s x).ct = s.ct ∧
    (strobeBody s x).vc = s.vc ∧
    (strobeBody s x).hl.locked = s.hl.locked := by
  unfold Machine.strobeBody; first | (simp; done) | ((repeat' split) <;> simp; done) | (dsimp only; (repeat' split) <;> simp; done)
@[simp] theorem rateApplied_keeps {s : State} {old : Nat} {new : Nat} :
    (rateApplied s old new).pending = s.pending ∧
    (rateApplied s old new).now = s.now ∧
    (rateApplied s old new).regs = s.regs ∧
    (rateApplied s old new).fr = s.fr ∧
    (rateApplied s old new).mx = s.mx ∧
    (rateApplied s old new).ps = s.ps ∧
    (rateApplied s old new).sp = s.sp ∧
    (rateApplied s old new).ck = s.ck ∧
    (rateApplied s old new).sv = s.sv ∧
    (rateApplied s old new).pd = s.pd ∧
    (rateApplied s old new).ct = s.ct ∧
    (rateApplied s old new).pl = s.pl ∧
    (rateApplied s old new).vc = s.vc ∧
    (rateApplied s old new).hl.locked = s.hl.locked := by
  unfold Machine.rateApplied; first | (simp; done) | ((repeat' split) <;> simp; done) | (dsimp only; (repeat' split) <;> simp; done)
@[simp] theorem firstStrobe_keeps {s : State} {x : StrobeIn} :
    (firstStrobe s x).pending = s.pending ∧
    (firstStrobe s x).regs = s.regs ∧
    (firstStrobe s x).sv = s.sv ∧
    (firstStrobe s x).pd = s.pd ∧
    (firstStrobe s x).ct = s.ct ∧
    (firstStrobe s x).vc = s.vc ∧
    (firstStrobe s x).hl.locked = s.hl.locked := by
  unfold Machine.firstStrobe; first | (simp; done) | ((repeat' split) <;> simp; done) | (dsimp only; (repeat' split) <;> simp; done)
@[simp] theorem clkUp_keeps {s : State} {x : StrobeIn} :
    (clkUp s x).pending = s.pending ∧
    (clkUp s x).regs = s.regs ∧
    (clkUp s x).sv = s.sv ∧
    (clkUp s x).pd = s.pd ∧
    (clkUp s x).ct = s.ct ∧
    (clkUp s x).vc = s.vc ∧
    (clkUp s x).hl.locked = s.hl.locked := by
  unfold Machine.clkUp; first | (simp; done) | ((repeat' split) <;> simp; done) | (dsimp only; (repeat' split) <;> simp; done)
@[simp] theorem sendPacket_keeps {s : State} {flags : Nat} :
    (sendPacket s flags).pending = s.pending ∧
    (sendPacket s flags).now = s.now ∧
    (sendPacket s flags).regs = s.regs ∧
    (sendPacket s flags).fr = s.fr ∧
    (sendPacket s flags).mx = s.mx ∧
    (sendPacket s flags).fx = s.fx ∧
    (sendPacket s flags).ps = s.ps ∧
    (sendPacket s flags).sp = s.sp ∧
    (sendPacket s flags).ai = s.ai ∧
    (sendPacket s flags).aq = s.aq ∧
    (sendPacket s flags).dp = s.dp ∧
    (sendPacket s flags).ck = s.ck ∧
    (sendPacket s flags).sc = s.sc ∧
    (sendPacket s flags).hl = s.hl ∧
    (sendPacket s flags).st = s.st ∧
    (sendPacket s flags).tw = s.tw ∧
    (sendPacket s flags).pd = s.pd ∧
    (sendPacket s flags).ct = s.ct ∧
    (sendPacket s flags).pl = s.pl ∧
    (sendPacket s flags).vc = s.vc := by
  unfold Machine.sendPacket; first | (simp; done) | ((repeat' split) <;> simp; done) | (dsimp only; (repeat' split) <;> simp; done)
@[simp] theorem framePacket_keeps {s : State} {fn : Nat} {shown : Tbl Int} {suspect : Bool} :
    (framePacket s fn shown suspect).pending = s.pending ∧
    (framePacket s fn shown suspect).now = s.now ∧
    (framePacket s fn shown suspect).regs = s.regs ∧
    (framePacket s fn shown suspect).fr = s.fr ∧
    (framePacket s fn shown suspect).mx = s.mx ∧
    (framePacket s fn shown suspect).fx = s.fx ∧
    (framePacket s fn shown suspect).ps = s.ps ∧
    (framePacket s fn shown suspect).sp = s.sp ∧
    (framePacket s fn shown suspect).ai = s.ai ∧
    (framePacket s fn shown suspect).aq = s.aq ∧
    (framePacket s fn shown suspect).dp = s.dp ∧
    (framePacket s fn shown suspect).ck = s.ck ∧
    (framePacket s fn shown suspect).sc = s.sc ∧
    (framePacket s fn shown suspect).hl = s.hl ∧
    (framePacket s fn shown suspect).st = s.st ∧
    (framePacket s fn shown suspect).tw = s.tw ∧
    (framePacket s fn shown suspect).pd = s.pd ∧
    (framePacket s fn shown suspect).ct = s.ct ∧
    (framePacket s fn shown suspect).vc = s.vc := by
  unfold Machine.framePacket; first | (simp; done) | ((repeat' split) <;> simp; done) | (dsimp only; (repeat' split) <;> simp; done)
@[simp] theorem lastHeartbeat_keeps {s : State} :
    (lastHeartbeat s).pending = s.pending ∧
    (lastHeartbeat s).now = s.now ∧
    (lastHeartbeat s).regs = s.regs ∧
    (lastHeartbeat s).fr = s.fr ∧
    (lastHeartbeat s).mx = s.mx ∧
    (lastHeartbeat s).fx = s.fx ∧
    (lastHeartbeat s).ps = s.ps ∧
    (lastHeartbeat s).sp = s.sp ∧
    (lastHeartbeat s).ai = s.ai ∧
    (lastHeartbeat s).aq = s.aq ∧
    (lastHeartbeat s).dp = s.dp ∧
    (lastHeartbeat s).ck = s.ck ∧
    (lastHeartbeat s).sc = s.sc ∧
    (lastHeartbeat s).hl = s.hl ∧
    (lastHeartbeat s).st = s.st ∧
    (lastHeartbeat s).tw = s.tw ∧
    (lastHeartbeat s).pd = s.pd ∧
    (lastHeartbeat s).ct = s.ct ∧
    (lastHeartbeat s).pl = s.pl ∧
    (lastHeartbeat s).vc = s.vc := by
  unfold Machine.lastHeartbeat; first | (simp; done) | ((repeat' split) <;> simp; done) | (dsimp only; (repeat' split) <;> simp; done)
@[simp] theorem lanesOut_keeps {s : State} {h : Nat} :
    (lanesOut s h).pending = s.pending ∧
    (lanesOut s h).now = s.now ∧
    (lanesOut s h).out = s.out ∧
    (lanesOut s h).regs = s.regs ∧
    (lanesOut s h).fr = s.fr ∧
    (lanesOut s h).fx = s.fx ∧
    (lanesOut s h).ps = s.ps ∧
    (lanesOut s h).sp = s.sp ∧
    (lanesOut s h).ai = s.ai ∧
    (lanesOut s h).aq = s.aq ∧
    (lanesOut s h).dp = s.dp ∧
    (lanesOut s h).ck = s.ck ∧
    (lanesOut s h).sc = s.sc ∧
    (lanesOut s h).hl = s.hl ∧
    (lanesOut s h).st = s.st ∧
    (lanesOut s h).tw = s.tw ∧
    (lanesOut s h).sv = s.sv ∧
    (lanesOut s h).pd = s.pd ∧
    (lanesOut s h).ct = s.ct ∧
    (lanesOut s h).pl = s.pl ∧
    (lanesOut s h).vc = s.vc := by
  unfold Machine.lanesOut; first | (simp; done) | ((repeat' split) <;> simp; done) | (dsimp only; (repeat' split) <;> simp; done)
@[simp] theorem setHalfTest_keeps {s : State} {h : Nat} {v : Nat × Nat × Nat × Bool} :
    (setHalfTest s h v).pending = s.pending ∧
    (setHalfTest s h v).now = s.now ∧
    (setHalfTest s h v).out = s.out ∧
    (setHalfTest s h v).regs = s.regs ∧
    (setHalfTest s h v).fr = s.fr ∧
    (setHalfTest s h v).mx = s.mx ∧
    (setHalfTest s h v).fx = s.fx ∧
    (setHalfTest s h v).ps = s.ps ∧
    (setHalfTest s h v).sp = s.sp ∧
    (setHalfTest s h v).ai = s.ai ∧
    (setHalfTest s h v).aq = s.aq ∧
    (setHalfTest s h v).dp = s.dp ∧
    (setHalfTest s h v).ck = s.ck ∧
    (setHalfTest s h v).sc = s.sc ∧
    (setHalfTest s h v).hl = s.hl ∧
    (setHalfTest s h v).st = s.st ∧
    (setHalfTest s h v).tw = s.tw ∧
    (setHalfTest s h v).sv = s.sv ∧
    (setHalfTest s h v).pd = s.pd ∧
    (setHalfTest s h v).ct = s.ct ∧
    (setHalfTest s h v).vc = s.vc := by
  unfold Machine.setHalfTest; first | (simp; done) | ((repeat' split) <;> simp; done) | (dsimp only; (repeat' split) <;> simp; done)
@[simp] theorem halfTested_keeps {s : State} {h : Nat} {failed : Word} {memBad : Bool} :
    (halfTested s h failed memBad).pending = s.pending ∧
    (halfTested s h failed memBad).now = s.now ∧
    (halfTested s h failed memBad).regs = s.regs ∧
    (halfTested s h failed memBad).fr = s.fr ∧
    (halfTested s h failed memBad).fx = s.fx ∧
    (halfTested s h failed memBad).ps = s.ps ∧
    (halfTested s h failed memBad).sp = s.sp ∧
    (halfTested s h failed memBad).ai = s.ai ∧
    (halfTested s h failed memBad).aq = s.aq ∧
    (halfTested s h failed memBad).dp = s.dp ∧
    (halfTested s h failed memBad).ck = s.ck ∧
    (halfTested s h failed memBad).sc = s.sc ∧
    (halfTested s h failed memBad).st = s.st ∧
    (halfTested s h failed memBad).sv = s.sv ∧
    (halfTested s h failed memBad).pd = s.pd ∧
    (halfTested s h failed memBad).ct = s.ct ∧
    (halfTested s h failed memBad).vc = s.vc ∧
    (halfTested s h failed memBad).hl.locked = s.hl.locked := by
  unfold Machine.halfTested; first | (simp; done) | ((repeat' split) <;> simp; done) | (dsimp only; (repeat' split) <;> simp; done)
@[simp] theorem enginesOut_keeps {s : State} {h : Nat} :
    (enginesOut s h).pending = s.pending ∧
    (enginesOut s h).now = s.now ∧
    (enginesOut s h).out = s.out ∧
    (enginesOut s h).regs = s.regs ∧
    (enginesOut s h).fr = s.fr ∧
    (enginesOut s h).mx = s.mx ∧
    (enginesOut s h).ps = s.ps ∧
    (enginesOut s h).sp = s.sp ∧
    (enginesOut s h).ai = s.ai ∧
    (enginesOut s h).aq = s.aq ∧
    (enginesOut s h).dp = s.dp ∧
    (enginesOut s h).ck = s.ck ∧
    (enginesOut s h).sc = s.sc ∧
    (enginesOut s h).hl = s.hl ∧
    (enginesOut s h).st = s.st ∧
    (enginesOut s h).tw = s.tw ∧
    (enginesOut s h).sv = s.sv ∧
    (enginesOut s h).pd = s.pd ∧
    (enginesOut s h).ct = s.ct ∧
    (enginesOut s h).pl = s.pl ∧
    (enginesOut s h).vc = s.vc := by
  unfold Machine.enginesOut; first | (simp; done) | ((repeat' split) <;> simp; done) | (dsimp only; (repeat' split) <;> simp; done)
@[simp] theorem enginesIn_keeps {s : State} {h : Nat} :
    (enginesIn s h).pending = s.pending ∧
    (enginesIn s h).now = s.now ∧
    (enginesIn s h).out = s.out ∧
    (enginesIn s h).regs = s.regs ∧
    (enginesIn s h).fr = s.fr ∧
    (enginesIn s h).mx = s.mx ∧
    (enginesIn s h).ps = s.ps ∧
    (enginesIn s h).sp = s.sp ∧
    (enginesIn s h).ai = s.ai ∧
    (enginesIn s h).aq = s.aq ∧
    (enginesIn s h).dp = s.dp ∧
    (enginesIn s h).ck = s.ck ∧
    (enginesIn s h).sc = s.sc ∧
    (enginesIn s h).hl = s.hl ∧
    (enginesIn s h).st = s.st ∧
    (enginesIn s h).tw = s.tw ∧
    (enginesIn s h).sv = s.sv ∧
    (enginesIn s h).pd = s.pd ∧
    (enginesIn s h).ct = s.ct ∧
    (enginesIn s h).pl = s.pl ∧
    (enginesIn s h).vc = s.vc := by
  unfold Machine.enginesIn; first | (simp; done) | ((repeat' split) <;> simp; done) | (dsimp only; (repeat' split) <;> simp; done)
@[simp] theorem zeroHalf_keeps {s : State} {h : Nat} :
    (zeroHalf s h).pending = s.pending ∧
    (zeroHalf s h).now = s.now ∧
    (zeroHalf s h).out = s.out ∧
    (zeroHalf s h).regs = s.regs ∧
    (zeroHalf s h).fr = s.fr ∧
    (zeroHalf s h).ps = s.ps ∧
    (zeroHalf s h).sp = s.sp ∧
    (zeroHalf s h).ai = s.ai ∧
    (zeroHalf s h).aq = s.aq ∧
    (zeroHalf s h).dp = s.dp ∧
    (zeroHalf s h).ck = s.ck ∧
    (zeroHalf s h).sc = s.sc ∧
    (zeroHalf s h).hl = s.hl ∧
    (zeroHalf s h).st = s.st ∧
    (zeroHalf s h).tw = s.tw ∧
    (zeroHalf s h).sv = s.sv ∧
    (zeroHalf s h).pd = s.pd ∧
    (zeroHalf s h).ct = s.ct ∧
    (zeroHalf s h).pl = s.pl ∧
    (zeroHalf s h).vc = s.vc := by
  unfold Machine.zeroHalf; first | (simp; done) | ((repeat' split) <;> simp; done) | (dsimp only; (repeat' split) <;> simp; done)
@[simp] theorem domainOff_keeps {s : State} {d : Nat} :
    (domainOff s d).pending = s.pending ∧
    (domainOff s d).now = s.now ∧
    (domainOff s d).regs = s.regs ∧
    (domainOff s d).sp = s.sp ∧
    (domainOff s d).st = s.st ∧
    (domainOff s d).pd = s.pd ∧
    (domainOff s d).ct = s.ct ∧
    (domainOff s d).pl = s.pl ∧
    (domainOff s d).vc = s.vc ∧
    (domainOff s d).fr.fn = s.fr.fn ∧
    (domainOff s d).fr.next = s.fr.next ∧
    (domainOff s d).hl.locked = s.hl.locked := by
  unfold Machine.domainOff; first | (simp; done) | ((repeat' split) <;> simp; done) | (dsimp only; (repeat' split) <;> simp; done)
@[simp] theorem domainUp_keeps {s : State} {d : Nat} {wake : Bool} {failed : Word} {memBad : Bool} :
    (domainUp s d wake failed memBad).pending = s.pending ∧
    (domainUp s d wake failed memBad).now = s.now ∧
    (domainUp s d wake failed memBad).fr = s.fr ∧
    (domainUp s d wake failed memBad).sp = s.sp ∧
    (domainUp s d wake failed memBad).st = s.st ∧
    (domainUp s d wake failed memBad).sv = s.sv ∧
    (domainUp s d wake failed memBad).pd = s.pd ∧
    (domainUp s d wake failed memBad).ct = s.ct ∧
    (domainUp s d wake failed memBad).vc = s.vc ∧
    (domainUp s d wake failed memBad).hl.locked = s.hl.locked := by
  unfold Machine.domainUp; first | (simp; done) | ((repeat' split) <;> simp; done) | (dsimp only; (repeat' split) <;> simp; done)
@[simp] theorem stopForEntry_keeps {s : State} :
    (stopForEntry s).pending = s.pending ∧
    (stopForEntry s).now = s.now ∧
    (stopForEntry s).regs = s.regs ∧
    (stopForEntry s).fr = s.fr ∧
    (stopForEntry s).mx = s.mx ∧
    (stopForEntry s).fx = s.fx ∧
    (stopForEntry s).ps = s.ps ∧
    (stopForEntry s).sp = s.sp ∧
    (stopForEntry s).ai = s.ai ∧
    (stopForEntry s).ck = s.ck ∧
    (stopForEntry s).st = s.st ∧
    (stopForEntry s).sv = s.sv ∧
    (stopForEntry s).pd = s.pd ∧
    (stopForEntry s).ct = s.ct ∧
    (stopForEntry s).pl = s.pl ∧
    (stopForEntry s).vc = s.vc ∧
    (stopForEntry s).hl.locked = s.hl.locked := by
  unfold Machine.stopForEntry; first | (simp; done) | ((repeat' split) <;> simp; done) | (dsimp only; (repeat' split) <;> simp; done)
@[simp] theorem startAfterWake_keeps {s : State} :
    (startAfterWake s).pending = s.pending ∧
    (startAfterWake s).now = s.now ∧
    (startAfterWake s).fr = s.fr ∧
    (startAfterWake s).mx = s.mx ∧
    (startAfterWake s).fx = s.fx ∧
    (startAfterWake s).ps = s.ps ∧
    (startAfterWake s).sp = s.sp ∧
    (startAfterWake s).ai = s.ai ∧
    (startAfterWake s).ck = s.ck ∧
    (startAfterWake s).sc = s.sc ∧
    (startAfterWake s).st = s.st ∧
    (startAfterWake s).sv = s.sv ∧
    (startAfterWake s).pd = s.pd ∧
    (startAfterWake s).ct = s.ct ∧
    (startAfterWake s).pl = s.pl ∧
    (startAfterWake s).vc = s.vc ∧
    (startAfterWake s).hl.locked = s.hl.locked := by
  unfold Machine.startAfterWake; first | (simp; done) | ((repeat' split) <;> simp; done) | (dsimp only; (repeat' split) <;> simp; done)
@[simp] theorem halfEnters_keeps {s : State} {h : Nat} :
    (halfEnters s h).pending = s.pending ∧
    (halfEnters s h).now = s.now ∧
    (halfEnters s h).out = s.out ∧
    (halfEnters s h).regs = s.regs ∧
    (halfEnters s h).fr = s.fr ∧
    (halfEnters s h).ps = s.ps ∧
    (halfEnters s h).sp = s.sp ∧
    (halfEnters s h).ai = s.ai ∧
    (halfEnters s h).aq = s.aq ∧
    (halfEnters s h).dp = s.dp ∧
    (halfEnters s h).ck = s.ck ∧
    (halfEnters s h).sc = s.sc ∧
    (halfEnters s h).hl = s.hl ∧
    (halfEnters s h).st = s.st ∧
    (halfEnters s h).tw = s.tw ∧
    (halfEnters s h).sv = s.sv ∧
    (halfEnters s h).pd = s.pd ∧
    (halfEnters s h).ct = s.ct ∧
    (halfEnters s h).pl = s.pl ∧
    (halfEnters s h).vc = s.vc := by
  unfold Machine.halfEnters; first | (simp; done) | ((repeat' split) <;> simp; done) | (dsimp only; (repeat' split) <;> simp; done)
@[simp] theorem returnHalves_keeps {s : State} {inA : Bool} {inB : Bool} :
    (returnHalves s inA inB).pending = s.pending ∧
    (returnHalves s inA inB).now = s.now ∧
    (returnHalves s inA inB).regs = s.regs ∧
    (returnHalves s inA inB).fr = s.fr ∧
    (returnHalves s inA inB).fx = s.fx ∧
    (returnHalves s inA inB).ps = s.ps ∧
    (returnHalves s inA inB).sp = s.sp ∧
    (returnHalves s inA inB).ai = s.ai ∧
    (returnHalves s inA inB).aq = s.aq ∧
    (returnHalves s inA inB).dp = s.dp ∧
    (returnHalves s inA inB).ck = s.ck ∧
    (returnHalves s inA inB).sc = s.sc ∧
    (returnHalves s inA inB).st = s.st ∧
    (returnHalves s inA inB).sv = s.sv ∧
    (returnHalves s inA inB).ct = s.ct ∧
    (returnHalves s inA inB).pl = s.pl ∧
    (returnHalves s inA inB).vc = s.vc ∧
    (returnHalves s inA inB).hl.locked = s.hl.locked := by
  unfold Machine.returnHalves; first | (simp; done) | ((repeat' split) <;> simp; done) | (dsimp only; (repeat' split) <;> simp; done)
@[simp] theorem failoverPin_keeps {s : State} {low : Bool} :
    (failoverPin s low).pending = s.pending ∧
    (failoverPin s low).now = s.now ∧
    (failoverPin s low).regs = s.regs ∧
    (failoverPin s low).fr = s.fr ∧
    (failoverPin s low).mx = s.mx ∧
    (failoverPin s low).fx = s.fx ∧
    (failoverPin s low).ps = s.ps ∧
    (failoverPin s low).sp = s.sp ∧
    (failoverPin s low).ai = s.ai ∧
    (failoverPin s low).aq = s.aq ∧
    (failoverPin s low).dp = s.dp ∧
    (failoverPin s low).ck = s.ck ∧
    (failoverPin s low).sc = s.sc ∧
    (failoverPin s low).hl = s.hl ∧
    (failoverPin s low).st = s.st ∧
    (failoverPin s low).tw = s.tw ∧
    (failoverPin s low).sv = s.sv ∧
    (failoverPin s low).pd = s.pd ∧
    (failoverPin s low).ct = s.ct ∧
    (failoverPin s low).pl = s.pl ∧
    (failoverPin s low).vc = s.vc := by
  unfold Machine.failoverPin; first | (simp; done) | ((repeat' split) <;> simp; done) | (dsimp only; (repeat' split) <;> simp; done)
@[simp] theorem bindMine_keeps {s : State} :
    (bindMine s).pending = s.pending ∧
    (bindMine s).now = s.now ∧
    (bindMine s).out = s.out ∧
    (bindMine s).regs = s.regs ∧
    (bindMine s).fx = s.fx ∧
    (bindMine s).ps = s.ps ∧
    (bindMine s).sp = s.sp ∧
    (bindMine s).ai = s.ai ∧
    (bindMine s).aq = s.aq ∧
    (bindMine s).dp = s.dp ∧
    (bindMine s).ck = s.ck ∧
    (bindMine s).sc = s.sc ∧
    (bindMine s).hl = s.hl ∧
    (bindMine s).st = s.st ∧
    (bindMine s).tw = s.tw ∧
    (bindMine s).sv = s.sv ∧
    (bindMine s).pd = s.pd ∧
    (bindMine s).ct = s.ct ∧
    (bindMine s).vc = s.vc ∧
    (bindMine s).fr.fn = s.fr.fn ∧
    (bindMine s).fr.next = s.fr.next ∧
    (bindMine s).fr.running = s.fr.running := by
  unfold Machine.bindMine; first | (simp; done) | ((repeat' split) <;> simp; done) | (dsimp only; (repeat' split) <;> simp; done)
@[simp] theorem failoverEvent_keeps {s : State} {cause : Nat} :
    (failoverEvent s cause).pending = s.pending ∧
    (failoverEvent s cause).now = s.now ∧
    (failoverEvent s cause).regs = s.regs ∧
    (failoverEvent s cause).fr = s.fr ∧
    (failoverEvent s cause).mx = s.mx ∧
    (failoverEvent s cause).fx = s.fx ∧
    (failoverEvent s cause).ps = s.ps ∧
    (failoverEvent s cause).sp = s.sp ∧
    (failoverEvent s cause).ai = s.ai ∧
    (failoverEvent s cause).aq = s.aq ∧
    (failoverEvent s cause).dp = s.dp ∧
    (failoverEvent s cause).ck = s.ck ∧
    (failoverEvent s cause).sc = s.sc ∧
    (failoverEvent s cause).st = s.st ∧
    (failoverEvent s cause).sv = s.sv ∧
    (failoverEvent s cause).pd = s.pd ∧
    (failoverEvent s cause).ct = s.ct ∧
    (failoverEvent s cause).pl = s.pl ∧
    (failoverEvent s cause).vc = s.vc ∧
    (failoverEvent s cause).hl.locked = s.hl.locked := by
  unfold Machine.failoverEvent; first | (simp; done) | ((repeat' split) <;> simp; done) | (dsimp only; (repeat' split) <;> simp; done)
@[simp] theorem takeOver_keeps {s : State} {cause : Nat} :
    (takeOver s cause).pending = s.pending ∧
    (takeOver s cause).now = s.now ∧
    (takeOver s cause).regs = s.regs ∧
    (takeOver s cause).fr = s.fr ∧
    (takeOver s cause).mx = s.mx ∧
    (takeOver s cause).fx = s.fx ∧
    (takeOver s cause).ps = s.ps ∧
    (takeOver s cause).ai = s.ai ∧
    (takeOver s cause).aq = s.aq ∧
    (takeOver s cause).dp = s.dp ∧
    (takeOver s cause).ck = s.ck ∧
    (takeOver s cause).sc = s.sc ∧
    (takeOver s cause).st = s.st ∧
    (takeOver s cause).sv = s.sv ∧
    (takeOver s cause).pd = s.pd ∧
    (takeOver s cause).ct = s.ct ∧
    (takeOver s cause).vc = s.vc ∧
    (takeOver s cause).hl.locked = s.hl.locked := by
  unfold Machine.takeOver; first | (simp; done) | ((repeat' split) <;> simp; done) | (dsimp only; (repeat' split) <;> simp; done)
@[simp] theorem keepDriving_keeps {s : State} {cause : Nat} :
    (keepDriving s cause).pending = s.pending ∧
    (keepDriving s cause).now = s.now ∧
    (keepDriving s cause).regs = s.regs ∧
    (keepDriving s cause).fr = s.fr ∧
    (keepDriving s cause).mx = s.mx ∧
    (keepDriving s cause).fx = s.fx ∧
    (keepDriving s cause).ps = s.ps ∧
    (keepDriving s cause).ai = s.ai ∧
    (keepDriving s cause).aq = s.aq ∧
    (keepDriving s cause).dp = s.dp ∧
    (keepDriving s cause).ck = s.ck ∧
    (keepDriving s cause).sc = s.sc ∧
    (keepDriving s cause).st = s.st ∧
    (keepDriving s cause).sv = s.sv ∧
    (keepDriving s cause).pd = s.pd ∧
    (keepDriving s cause).ct = s.ct ∧
    (keepDriving s cause).vc = s.vc ∧
    (keepDriving s cause).hl.locked = s.hl.locked := by
  unfold Machine.keepDriving; first | (simp; done) | ((repeat' split) <;> simp; done) | (dsimp only; (repeat' split) <;> simp; done)
@[simp] theorem yieldNow_keeps {s : State} :
    (yieldNow s).pending = s.pending ∧
    (yieldNow s).now = s.now ∧
    (yieldNow s).regs = s.regs ∧
    (yieldNow s).fr = s.fr ∧
    (yieldNow s).mx = s.mx ∧
    (yieldNow s).fx = s.fx ∧
    (yieldNow s).ps = s.ps ∧
    (yieldNow s).sp = s.sp ∧
    (yieldNow s).ai = s.ai ∧
    (yieldNow s).aq = s.aq ∧
    (yieldNow s).dp = s.dp ∧
    (yieldNow s).ck = s.ck ∧
    (yieldNow s).sc = s.sc ∧
    (yieldNow s).st = s.st ∧
    (yieldNow s).sv = s.sv ∧
    (yieldNow s).pd = s.pd ∧
    (yieldNow s).ct = s.ct ∧
    (yieldNow s).vc = s.vc ∧
    (yieldNow s).hl.locked = s.hl.locked := by
  unfold Machine.yieldNow; first | (simp; done) | ((repeat' split) <;> simp; done) | (dsimp only; (repeat' split) <;> simp; done)
@[simp] theorem applyPair_keeps {s : State} {op : Nat} :
    (applyPair s op).pending = s.pending ∧
    (applyPair s op).now = s.now ∧
    (applyPair s op).fx = s.fx ∧
    (applyPair s op).ai = s.ai ∧
    (applyPair s op).aq = s.aq ∧
    (applyPair s op).dp = s.dp ∧
    (applyPair s op).ck = s.ck ∧
    (applyPair s op).sc = s.sc ∧
    (applyPair s op).st = s.st ∧
    (applyPair s op).sv = s.sv ∧
    (applyPair s op).pd = s.pd ∧
    (applyPair s op).ct = s.ct ∧
    (applyPair s op).vc = s.vc ∧
    (applyPair s op).fr.fn = s.fr.fn ∧
    (applyPair s op).fr.next = s.fr.next ∧
    (applyPair s op).fr.running = s.fr.running ∧
    (applyPair s op).hl.locked = s.hl.locked := by
  unfold Machine.applyPair; first | (simp; done) | ((repeat' split) <;> simp; done) | (dsimp only; (repeat' split) <;> simp; done)
@[simp] theorem domainDown_keeps {s : State} {cause : Nat} {d : Nat} :
    (domainDown s cause d).pending = s.pending ∧
    (domainDown s cause d).now = s.now ∧
    (domainDown s cause d).regs = s.regs ∧
    (domainDown s cause d).sp = s.sp ∧
    (domainDown s cause d).st = s.st ∧
    (domainDown s cause d).ct = s.ct ∧
    (domainDown s cause d).pl = s.pl ∧
    (domainDown s cause d).vc = s.vc ∧
    (domainDown s cause d).fr.fn = s.fr.fn ∧
    (domainDown s cause d).fr.next = s.fr.next ∧
    (domainDown s cause d).hl.locked = s.hl.locked := by
  unfold Machine.domainDown; first | (simp; done) | ((repeat' split) <;> simp; done) | (dsimp only; (repeat' split) <;> simp; done)
@[simp] theorem jobDone_keeps {s : State} {j : DomJob} :
    (jobDone s j).pending = s.pending ∧
    (jobDone s j).now = s.now ∧
    (jobDone s j).regs = s.regs ∧
    (jobDone s j).fr = s.fr ∧
    (jobDone s j).mx = s.mx ∧
    (jobDone s j).fx = s.fx ∧
    (jobDone s j).ps = s.ps ∧
    (jobDone s j).sp = s.sp ∧
    (jobDone s j).ai = s.ai ∧
    (jobDone s j).aq = s.aq ∧
    (jobDone s j).dp = s.dp ∧
    (jobDone s j).ck = s.ck ∧
    (jobDone s j).sc = s.sc ∧
    (jobDone s j).st = s.st ∧
    (jobDone s j).sv = s.sv ∧
    (jobDone s j).pd = s.pd ∧
    (jobDone s j).ct = s.ct ∧
    (jobDone s j).pl = s.pl ∧
    (jobDone s j).vc = s.vc ∧
    (jobDone s j).hl.locked = s.hl.locked := by
  unfold Machine.jobDone; first | (simp; done) | ((repeat' split) <;> simp; done) | (dsimp only; (repeat' split) <;> simp; done)
@[simp] theorem jobEnd_keeps {s : State} :
    (jobEnd s).pending = s.pending ∧
    (jobEnd s).now = s.now ∧
    (jobEnd s).regs = s.regs ∧
    (jobEnd s).fr = s.fr ∧
    (jobEnd s).mx = s.mx ∧
    (jobEnd s).fx = s.fx ∧
    (jobEnd s).ps = s.ps ∧
    (jobEnd s).sp = s.sp ∧
    (jobEnd s).ai = s.ai ∧
    (jobEnd s).aq = s.aq ∧
    (jobEnd s).dp = s.dp ∧
    (jobEnd s).ck = s.ck ∧
    (jobEnd s).sc = s.sc ∧
    (jobEnd s).st = s.st ∧
    (jobEnd s).sv = s.sv ∧
    (jobEnd s).ct = s.ct ∧
    (jobEnd s).pl = s.pl ∧
    (jobEnd s).vc = s.vc ∧
    (jobEnd s).hl.locked = s.hl.locked := by
  unfold Machine.jobEnd; first | (simp; done) | ((repeat' split) <;> simp; done) | (dsimp only; (repeat' split) <;> simp; done)
@[simp] theorem applyDomain_keeps {s : State} {up : Nat} {down : Nat} {n : Nat} :
    (applyDomain s up down n).pending = s.pending ∧
    (applyDomain s up down n).now = s.now ∧
    (applyDomain s up down n).regs = s.regs ∧
    (applyDomain s up down n).sp = s.sp ∧
    (applyDomain s up down n).st = s.st ∧
    (applyDomain s up down n).ct = s.ct ∧
    (applyDomain s up down n).pl = s.pl ∧
    (applyDomain s up down n).vc = s.vc ∧
    (applyDomain s up down n).fr.fn = s.fr.fn ∧
    (applyDomain s up down n).fr.next = s.fr.next ∧
    (applyDomain s up down n).hl.locked = s.hl.locked := by
  unfold Machine.applyDomain; first | (simp; done) | ((repeat' split) <;> simp; done) | (dsimp only; (repeat' split) <;> simp; done)
@[simp] theorem domainGood_keeps {s : State} {d : Nat} {failed : Word} {memBad : Bool} {x : StrobeIn} :
    (domainGood s d failed memBad x).pending = s.pending ∧
    (domainGood s d failed memBad x).sv = s.sv ∧
    (domainGood s d failed memBad x).ct = s.ct ∧
    (domainGood s d failed memBad x).vc = s.vc ∧
    (domainGood s d failed memBad x).hl.locked = s.hl.locked := by
  unfold Machine.domainGood; first | (simp; done) | ((repeat' split) <;> simp; done) | (dsimp only; (repeat' split) <;> simp; done)
@[simp] theorem domainFails_keeps {s : State} {d : Nat} {begun : Nat} :
    (domainFails s d begun).pending = s.pending ∧
    (domainFails s d begun).now = s.now ∧
    (domainFails s d begun).regs = s.regs ∧
    (domainFails s d begun).fr = s.fr ∧
    (domainFails s d begun).mx = s.mx ∧
    (domainFails s d begun).fx = s.fx ∧
    (domainFails s d begun).ps = s.ps ∧
    (domainFails s d begun).sp = s.sp ∧
    (domainFails s d begun).ai = s.ai ∧
    (domainFails s d begun).aq = s.aq ∧
    (domainFails s d begun).dp = s.dp ∧
    (domainFails s d begun).ck = s.ck ∧
    (domainFails s d begun).sc = s.sc ∧
    (domainFails s d begun).st = s.st ∧
    (domainFails s d begun).sv = s.sv ∧
    (domainFails s d begun).ct = s.ct ∧
    (domainFails s d begun).pl = s.pl ∧
    (domainFails s d begun).vc = s.vc ∧
    (domainFails s d begun).hl.locked = s.hl.locked := by
  unfold Machine.domainFails; first | (simp; done) | ((repeat' split) <;> simp; done) | (dsimp only; (repeat' split) <;> simp; done)
@[simp] theorem setMod_keeps {s : State} {n : ModState} :
    (setMod s n).pending = s.pending ∧
    (setMod s n).now = s.now ∧
    (setMod s n).regs = s.regs ∧
    (setMod s n).fr = s.fr ∧
    (setMod s n).mx = s.mx ∧
    (setMod s n).fx = s.fx ∧
    (setMod s n).ps = s.ps ∧
    (setMod s n).sp = s.sp ∧
    (setMod s n).ai = s.ai ∧
    (setMod s n).aq = s.aq ∧
    (setMod s n).dp = s.dp ∧
    (setMod s n).ck = s.ck ∧
    (setMod s n).sc = s.sc ∧
    (setMod s n).st = s.st ∧
    (setMod s n).sv = s.sv ∧
    (setMod s n).ct = s.ct ∧
    (setMod s n).pl = s.pl ∧
    (setMod s n).vc = s.vc ∧
    (setMod s n).hl.locked = s.hl.locked := by
  unfold Machine.setMod; first | (simp; done) | ((repeat' split) <;> simp; done) | (dsimp only; (repeat' split) <;> simp; done)
@[simp] theorem enterStop_keeps {s : State} :
    (enterStop s).pending = s.pending ∧
    (enterStop s).now = s.now ∧
    (enterStop s).regs = s.regs ∧
    (enterStop s).fr = s.fr ∧
    (enterStop s).mx = s.mx ∧
    (enterStop s).fx = s.fx ∧
    (enterStop s).ps = s.ps ∧
    (enterStop s).sp = s.sp ∧
    (enterStop s).ai = s.ai ∧
    (enterStop s).ck = s.ck ∧
    (enterStop s).st = s.st ∧
    (enterStop s).sv = s.sv ∧
    (enterStop s).ct = s.ct ∧
    (enterStop s).pl = s.pl ∧
    (enterStop s).vc = s.vc ∧
    (enterStop s).hl.locked = s.hl.locked := by
  unfold Machine.enterStop; first | (simp; done) | ((repeat' split) <;> simp; done) | (dsimp only; (repeat' split) <;> simp; done)
@[simp] theorem enterState_keeps {s : State} {a : AfterDone} :
    (enterState s a).pending = s.pending ∧
    (enterState s a).now = s.now ∧
    (enterState s a).regs = s.regs ∧
    (enterState s a).mx = s.mx ∧
    (enterState s a).fx = s.fx ∧
    (enterState s a).ps = s.ps ∧
    (enterState s a).sp = s.sp ∧
    (enterState s a).ai = s.ai ∧
    (enterState s a).ck = s.ck ∧
    (enterState s a).st = s.st ∧
    (enterState s a).sv = s.sv ∧
    (enterState s a).ct = s.ct ∧
    (enterState s a).pl = s.pl ∧
    (enterState s a).vc = s.vc ∧
    (enterState s a).fr.fn = s.fr.fn ∧
    (enterState s a).fr.next = s.fr.next ∧
    (enterState s a).fr.running = s.fr.running ∧
    (enterState s a).hl.locked = s.hl.locked := by
  unfold Machine.enterState; first | (simp; done) | ((repeat' split) <;> simp; done) | (dsimp only; (repeat' split) <;> simp; done)
@[simp] theorem wakeStandby_keeps {s : State} :
    (wakeStandby s).pending = s.pending ∧
    (wakeStandby s).now = s.now ∧
    (wakeStandby s).out = s.out ∧
    (wakeStandby s).regs = s.regs ∧
    (wakeStandby s).fr = s.fr ∧
    (wakeStandby s).mx = s.mx ∧
    (wakeStandby s).fx = s.fx ∧
    (wakeStandby s).ps = s.ps ∧
    (wakeStandby s).sp = s.sp ∧
    (wakeStandby s).ai = s.ai ∧
    (wakeStandby s).aq = s.aq ∧
    (wakeStandby s).dp = s.dp ∧
    (wakeStandby s).ck = s.ck ∧
    (wakeStandby s).sc = s.sc ∧
    (wakeStandby s).hl = s.hl ∧
    (wakeStandby s).st = s.st ∧
    (wakeStandby s).tw = s.tw ∧
    (wakeStandby s).sv = s.sv ∧
    (wakeStandby s).ct = s.ct ∧
    (wakeStandby s).pl = s.pl ∧
    (wakeStandby s).vc = s.vc := by
  unfold Machine.wakeStandby; first | (simp; done) | ((repeat' split) <;> simp; done) | (dsimp only; (repeat' split) <;> simp; done)
@[simp] theorem rtcLoad_keeps {s : State} {v : Word} :
    (rtcLoad s v).pending = s.pending ∧
    (rtcLoad s v).now = s.now ∧
    (rtcLoad s v).out = s.out ∧
    (rtcLoad s v).fr = s.fr ∧
    (rtcLoad s v).mx = s.mx ∧
    (rtcLoad s v).fx = s.fx ∧
    (rtcLoad s v).ps = s.ps ∧
    (rtcLoad s v).sp = s.sp ∧
    (rtcLoad s v).ai = s.ai ∧
    (rtcLoad s v).aq = s.aq ∧
    (rtcLoad s v).dp = s.dp ∧
    (rtcLoad s v).ck = s.ck ∧
    (rtcLoad s v).sc = s.sc ∧
    (rtcLoad s v).hl = s.hl ∧
    (rtcLoad s v).st = s.st ∧
    (rtcLoad s v).tw = s.tw ∧
    (rtcLoad s v).sv = s.sv ∧
    (rtcLoad s v).ct = s.ct ∧
    (rtcLoad s v).pl = s.pl ∧
    (rtcLoad s v).vc = s.vc := by
  unfold Machine.rtcLoad; first | (simp; done) | ((repeat' split) <;> simp; done) | (dsimp only; (repeat' split) <;> simp; done)
@[simp] theorem retNext_keeps {s : State} :
    (retNext s).pending = s.pending ∧
    (retNext s).now = s.now ∧
    (retNext s).out = s.out ∧
    (retNext s).fr = s.fr ∧
    (retNext s).mx = s.mx ∧
    (retNext s).fx = s.fx ∧
    (retNext s).ps = s.ps ∧
    (retNext s).sp = s.sp ∧
    (retNext s).ai = s.ai ∧
    (retNext s).aq = s.aq ∧
    (retNext s).dp = s.dp ∧
    (retNext s).ck = s.ck ∧
    (retNext s).sc = s.sc ∧
    (retNext s).hl = s.hl ∧
    (retNext s).st = s.st ∧
    (retNext s).tw = s.tw ∧
    (retNext s).sv = s.sv ∧
    (retNext s).pd = s.pd ∧
    (retNext s).ct = s.ct ∧
    (retNext s).pl = s.pl ∧
    (retNext s).vc = s.vc := by
  unfold Machine.retNext; first | (simp; done) | ((repeat' split) <;> simp; done) | (dsimp only; (repeat' split) <;> simp; done)
@[simp] theorem hostState_keeps {s : State} :
    (hostState s).pending = s.pending ∧
    (hostState s).now = s.now ∧
    (hostState s).mx = s.mx ∧
    (hostState s).fx = s.fx ∧
    (hostState s).ps = s.ps ∧
    (hostState s).sp = s.sp ∧
    (hostState s).ai = s.ai ∧
    (hostState s).aq = s.aq ∧
    (hostState s).dp = s.dp ∧
    (hostState s).ck = s.ck ∧
    (hostState s).sc = s.sc ∧
    (hostState s).sv = s.sv ∧
    (hostState s).pd = s.pd ∧
    (hostState s).ct = s.ct ∧
    (hostState s).vc = s.vc ∧
    (hostState s).fr.fn = s.fr.fn ∧
    (hostState s).fr.next = s.fr.next ∧
    (hostState s).fr.running = s.fr.running ∧
    (hostState s).hl.locked = s.hl.locked := by
  unfold Machine.hostState; first | (simp; done) | ((repeat' split) <;> simp; done) | (dsimp only; (repeat' split) <;> simp; done)
@[simp] theorem undoLong_keeps {s : State} :
    (undoLong s).pending = s.pending ∧
    (undoLong s).now = s.now ∧
    (undoLong s).out = s.out ∧
    (undoLong s).regs = s.regs ∧
    (undoLong s).fr = s.fr ∧
    (undoLong s).mx = s.mx ∧
    (undoLong s).ps = s.ps ∧
    (undoLong s).sp = s.sp ∧
    (undoLong s).ai = s.ai ∧
    (undoLong s).aq = s.aq ∧
    (undoLong s).dp = s.dp ∧
    (undoLong s).ck = s.ck ∧
    (undoLong s).hl = s.hl ∧
    (undoLong s).st = s.st ∧
    (undoLong s).tw = s.tw ∧
    (undoLong s).sv = s.sv ∧
    (undoLong s).pd = s.pd ∧
    (undoLong s).ct = s.ct ∧
    (undoLong s).pl = s.pl ∧
    (undoLong s).vc = s.vc := by
  unfold Machine.undoLong; first | (simp; done) | ((repeat' split) <;> simp; done) | (dsimp only; (repeat' split) <;> simp; done)
@[simp] theorem controlState_keeps {s : State} :
    (controlState s).pending = s.pending ∧
    (controlState s).now = s.now ∧
    (controlState s).regs = s.regs ∧
    (controlState s).fr = s.fr ∧
    (controlState s).mx = s.mx ∧
    (controlState s).ps = s.ps ∧
    (controlState s).sp = s.sp ∧
    (controlState s).ai = s.ai ∧
    (controlState s).aq = s.aq ∧
    (controlState s).dp = s.dp ∧
    (controlState s).ck = s.ck ∧
    (controlState s).st = s.st ∧
    (controlState s).sv = s.sv ∧
    (controlState s).pd = s.pd ∧
    (controlState s).ct = s.ct ∧
    (controlState s).pl = s.pl ∧
    (controlState s).vc = s.vc ∧
    (controlState s).hl.locked = s.hl.locked := by
  unfold Machine.controlState; first | (simp; done) | ((repeat' split) <;> simp; done) | (dsimp only; (repeat' split) <;> simp; done)
@[simp] theorem countReset_keeps {s : State} {scope : Nat} {src : Nat} :
    (countReset s scope src).pending = s.pending ∧
    (countReset s scope src).now = s.now ∧
    (countReset s scope src).out = s.out ∧
    (countReset s scope src).regs = s.regs ∧
    (countReset s scope src).fr = s.fr ∧
    (countReset s scope src).mx = s.mx ∧
    (countReset s scope src).fx = s.fx ∧
    (countReset s scope src).ps = s.ps ∧
    (countReset s scope src).sp = s.sp ∧
    (countReset s scope src).ai = s.ai ∧
    (countReset s scope src).aq = s.aq ∧
    (countReset s scope src).dp = s.dp ∧
    (countReset s scope src).ck = s.ck ∧
    (countReset s scope src).sc = s.sc ∧
    (countReset s scope src).hl = s.hl ∧
    (countReset s scope src).st = s.st ∧
    (countReset s scope src).tw = s.tw ∧
    (countReset s scope src).sv = s.sv ∧
    (countReset s scope src).pd = s.pd ∧
    (countReset s scope src).pl = s.pl ∧
    (countReset s scope src).vc = s.vc := by
  unfold Machine.countReset; first | (simp; done) | ((repeat' split) <;> simp; done) | (dsimp only; (repeat' split) <;> simp; done)
@[simp] theorem pulseRst_keeps {s : State} {on : Bool} :
    (pulseRst s on).pending = s.pending ∧
    (pulseRst s on).now = s.now ∧
    (pulseRst s on).regs = s.regs ∧
    (pulseRst s on).fr = s.fr ∧
    (pulseRst s on).mx = s.mx ∧
    (pulseRst s on).fx = s.fx ∧
    (pulseRst s on).ps = s.ps ∧
    (pulseRst s on).sp = s.sp ∧
    (pulseRst s on).ai = s.ai ∧
    (pulseRst s on).aq = s.aq ∧
    (pulseRst s on).dp = s.dp ∧
    (pulseRst s on).ck = s.ck ∧
    (pulseRst s on).sc = s.sc ∧
    (pulseRst s on).hl = s.hl ∧
    (pulseRst s on).st = s.st ∧
    (pulseRst s on).tw = s.tw ∧
    (pulseRst s on).sv = s.sv ∧
    (pulseRst s on).pd = s.pd ∧
    (pulseRst s on).pl = s.pl ∧
    (pulseRst s on).vc = s.vc := by
  unfold Machine.pulseRst; first | (simp; done) | ((repeat' split) <;> simp; done) | (dsimp only; (repeat' split) <;> simp; done)
@[simp] theorem beginControl_keeps {s : State} {src : Nat} :
    (beginControl s src).pending = s.pending ∧
    (beginControl s src).now = s.now ∧
    (beginControl s src).regs = s.regs ∧
    (beginControl s src).fr = s.fr ∧
    (beginControl s src).mx = s.mx ∧
    (beginControl s src).ps = s.ps ∧
    (beginControl s src).sp = s.sp ∧
    (beginControl s src).ai = s.ai ∧
    (beginControl s src).aq = s.aq ∧
    (beginControl s src).dp = s.dp ∧
    (beginControl s src).ck = s.ck ∧
    (beginControl s src).st = s.st ∧
    (beginControl s src).sv = s.sv ∧
    (beginControl s src).pd = s.pd ∧
    (beginControl s src).pl = s.pl ∧
    (beginControl s src).vc = s.vc ∧
    (beginControl s src).hl.locked = s.hl.locked := by
  unfold Machine.beginControl; first | (simp; done) | ((repeat' split) <;> simp; done) | (dsimp only; (repeat' split) <;> simp; done)
@[simp] theorem beginHost_keeps {s : State} {src : Nat} :
    (beginHost s src).pending = s.pending ∧
    (beginHost s src).now = s.now ∧
    (beginHost s src).mx = s.mx ∧
    (beginHost s src).fx = s.fx ∧
    (beginHost s src).ps = s.ps ∧
    (beginHost s src).sp = s.sp ∧
    (beginHost s src).ai = s.ai ∧
    (beginHost s src).aq = s.aq ∧
    (beginHost s src).dp = s.dp ∧
    (beginHost s src).ck = s.ck ∧
    (beginHost s src).sc = s.sc ∧
    (beginHost s src).sv = s.sv ∧
    (beginHost s src).pd = s.pd ∧
    (beginHost s src).vc = s.vc ∧
    (beginHost s src).fr.fn = s.fr.fn ∧
    (beginHost s src).fr.next = s.fr.next ∧
    (beginHost s src).fr.running = s.fr.running ∧
    (beginHost s src).hl.locked = s.hl.locked := by
  unfold Machine.beginHost; first | (simp; done) | ((repeat' split) <;> simp; done) | (dsimp only; (repeat' split) <;> simp; done)
@[simp] theorem restartOptions_keeps {s : State} :
    (restartOptions s).pending = s.pending ∧
    (restartOptions s).now = s.now ∧
    (restartOptions s).out = s.out ∧
    (restartOptions s).regs = s.regs ∧
    (restartOptions s).fr = s.fr ∧
    (restartOptions s).mx = s.mx ∧
    (restartOptions s).fx = s.fx ∧
    (restartOptions s).ps = s.ps ∧
    (restartOptions s).sp = s.sp ∧
    (restartOptions s).ai = s.ai ∧
    (restartOptions s).aq = s.aq ∧
    (restartOptions s).dp = s.dp ∧
    (restartOptions s).ck = s.ck ∧
    (restartOptions s).sc = s.sc ∧
    (restartOptions s).hl = s.hl ∧
    (restartOptions s).st = s.st ∧
    (restartOptions s).tw = s.tw ∧
    (restartOptions s).sv = s.sv ∧
    (restartOptions s).ct = s.ct ∧
    (restartOptions s).pl = s.pl ∧
    (restartOptions s).vc = s.vc := by
  unfold Machine.restartOptions; first | (simp; done) | ((repeat' split) <;> simp; done) | (dsimp only; (repeat' split) <;> simp; done)
@[simp] theorem heldOrPut_keeps {s : State} {code : Nat} {p : BitVec 128} :
    (heldOrPut s code p).pending = s.pending ∧
    (heldOrPut s code p).now = s.now ∧
    (heldOrPut s code p).regs = s.regs ∧
    (heldOrPut s code p).fr = s.fr ∧
    (heldOrPut s code p).mx = s.mx ∧
    (heldOrPut s code p).fx = s.fx ∧
    (heldOrPut s code p).ps = s.ps ∧
    (heldOrPut s code p).sp = s.sp ∧
    (heldOrPut s code p).ai = s.ai ∧
    (heldOrPut s code p).aq = s.aq ∧
    (heldOrPut s code p).dp = s.dp ∧
    (heldOrPut s code p).ck = s.ck ∧
    (heldOrPut s code p).sc = s.sc ∧
    (heldOrPut s code p).st = s.st ∧
    (heldOrPut s code p).sv = s.sv ∧
    (heldOrPut s code p).pd = s.pd ∧
    (heldOrPut s code p).ct = s.ct ∧
    (heldOrPut s code p).pl = s.pl ∧
    (heldOrPut s code p).vc = s.vc ∧
    (heldOrPut s code p).hl.locked = s.hl.locked := by
  unfold Machine.heldOrPut; first | (simp; done) | ((repeat' split) <;> simp; done) | (dsimp only; (repeat' split) <;> simp; done)
@[simp] theorem recoverCommit_keeps {s : State} {complete : Bool} :
    (recoverCommit s complete).pending = s.pending ∧
    (recoverCommit s complete).now = s.now ∧
    (recoverCommit s complete).regs = s.regs ∧
    (recoverCommit s complete).fr = s.fr ∧
    (recoverCommit s complete).mx = s.mx ∧
    (recoverCommit s complete).fx = s.fx ∧
    (recoverCommit s complete).ps = s.ps ∧
    (recoverCommit s complete).sp = s.sp ∧
    (recoverCommit s complete).ai = s.ai ∧
    (recoverCommit s complete).aq = s.aq ∧
    (recoverCommit s complete).dp = s.dp ∧
    (recoverCommit s complete).ck = s.ck ∧
    (recoverCommit s complete).sc = s.sc ∧
    (recoverCommit s complete).st = s.st ∧
    (recoverCommit s complete).pd = s.pd ∧
    (recoverCommit s complete).ct = s.ct ∧
    (recoverCommit s complete).pl = s.pl ∧
    (recoverCommit s complete).vc = s.vc ∧
    (recoverCommit s complete).hl.locked = s.hl.locked := by
  unfold Machine.recoverCommit; first | (simp; done) | ((repeat' split) <;> simp; done) | (dsimp only; (repeat' split) <;> simp; done)
@[simp] theorem firstLevel_keeps {s : State} :
    (firstLevel s).pending = s.pending ∧
    (firstLevel s).now = s.now ∧
    (firstLevel s).regs = s.regs ∧
    (firstLevel s).fr = s.fr ∧
    (firstLevel s).mx = s.mx ∧
    (firstLevel s).fx = s.fx ∧
    (firstLevel s).ps = s.ps ∧
    (firstLevel s).sp = s.sp ∧
    (firstLevel s).ai = s.ai ∧
    (firstLevel s).aq = s.aq ∧
    (firstLevel s).dp = s.dp ∧
    (firstLevel s).ck = s.ck ∧
    (firstLevel s).sc = s.sc ∧
    (firstLevel s).hl = s.hl ∧
    (firstLevel s).st = s.st ∧
    (firstLevel s).sv = s.sv ∧
    (firstLevel s).pd = s.pd ∧
    (firstLevel s).ct = s.ct ∧
    (firstLevel s).pl = s.pl := by
  unfold Machine.firstLevel; first | (simp; done) | ((repeat' split) <;> simp; done) | (dsimp only; (repeat' split) <;> simp; done)
@[simp] theorem twWakeEvent_keeps {s : State} :
    (twWakeEvent s).pending = s.pending ∧
    (twWakeEvent s).now = s.now ∧
    (twWakeEvent s).regs = s.regs ∧
    (twWakeEvent s).fr = s.fr ∧
    (twWakeEvent s).mx = s.mx ∧
    (twWakeEvent s).fx = s.fx ∧
    (twWakeEvent s).ps = s.ps ∧
    (twWakeEvent s).sp = s.sp ∧
    (twWakeEvent s).ai = s.ai ∧
    (twWakeEvent s).aq = s.aq ∧
    (twWakeEvent s).dp = s.dp ∧
    (twWakeEvent s).ck = s.ck ∧
    (twWakeEvent s).sc = s.sc ∧
    (twWakeEvent s).st = s.st ∧
    (twWakeEvent s).sv = s.sv ∧
    (twWakeEvent s).ct = s.ct ∧
    (twWakeEvent s).pl = s.pl ∧
    (twWakeEvent s).vc = s.vc ∧
    (twWakeEvent s).hl.locked = s.hl.locked := by
  unfold Machine.twWakeEvent; first | (simp; done) | ((repeat' split) <;> simp; done) | (dsimp only; (repeat' split) <;> simp; done)
@[simp] theorem enterRecovery_keeps {s : State} {cause : Nat} :
    (enterRecovery s cause).pending = s.pending ∧
    (enterRecovery s cause).now = s.now ∧
    (enterRecovery s cause).regs = s.regs ∧
    (enterRecovery s cause).fr = s.fr ∧
    (enterRecovery s cause).mx = s.mx ∧
    (enterRecovery s cause).fx = s.fx ∧
    (enterRecovery s cause).ps = s.ps ∧
    (enterRecovery s cause).sp = s.sp ∧
    (enterRecovery s cause).ai = s.ai ∧
    (enterRecovery s cause).aq = s.aq ∧
    (enterRecovery s cause).dp = s.dp ∧
    (enterRecovery s cause).ck = s.ck ∧
    (enterRecovery s cause).sc = s.sc ∧
    (enterRecovery s cause).st = s.st ∧
    (enterRecovery s cause).sv = s.sv ∧
    (enterRecovery s cause).pd = s.pd ∧
    (enterRecovery s cause).pl = s.pl ∧
    (enterRecovery s cause).vc = s.vc ∧
    (enterRecovery s cause).hl.locked = s.hl.locked := by
  unfold Machine.enterRecovery; first | (simp; done) | ((repeat' split) <;> simp; done) | (dsimp only; (repeat' split) <;> simp; done)
@[simp] theorem verifyFirmware_keeps {s : State} {x : LarderIn} :
    (verifyFirmware s x).pending = s.pending ∧
    (verifyFirmware s x).now = s.now ∧
    (verifyFirmware s x).regs = s.regs ∧
    (verifyFirmware s x).fr = s.fr ∧
    (verifyFirmware s x).mx = s.mx ∧
    (verifyFirmware s x).fx = s.fx ∧
    (verifyFirmware s x).ps = s.ps ∧
    (verifyFirmware s x).sp = s.sp ∧
    (verifyFirmware s x).ai = s.ai ∧
    (verifyFirmware s x).aq = s.aq ∧
    (verifyFirmware s x).dp = s.dp ∧
    (verifyFirmware s x).ck = s.ck ∧
    (verifyFirmware s x).sc = s.sc ∧
    (verifyFirmware s x).st = s.st ∧
    (verifyFirmware s x).pd = s.pd ∧
    (verifyFirmware s x).pl = s.pl ∧
    (verifyFirmware s x).vc = s.vc ∧
    (verifyFirmware s x).hl.locked = s.hl.locked := by
  unfold Machine.verifyFirmware; first | (simp; done) | ((repeat' split) <;> simp; done) | (dsimp only; (repeat' split) <;> simp; done)
@[simp] theorem resetDone_keeps {s : State} {hold : Bool} {scope : Nat} {src : Nat} {merged : Nat} {us : Nat} :
    (resetDone s hold scope src merged us).pending = s.pending ∧
    (resetDone s hold scope src merged us).now = s.now ∧
    (resetDone s hold scope src merged us).regs = s.regs ∧
    (resetDone s hold scope src merged us).fr = s.fr ∧
    (resetDone s hold scope src merged us).mx = s.mx ∧
    (resetDone s hold scope src merged us).fx = s.fx ∧
    (resetDone s hold scope src merged us).ps = s.ps ∧
    (resetDone s hold scope src merged us).sp = s.sp ∧
    (resetDone s hold scope src merged us).ai = s.ai ∧
    (resetDone s hold scope src merged us).aq = s.aq ∧
    (resetDone s hold scope src merged us).dp = s.dp ∧
    (resetDone s hold scope src merged us).ck = s.ck ∧
    (resetDone s hold scope src merged us).sc = s.sc ∧
    (resetDone s hold scope src merged us).st = s.st ∧
    (resetDone s hold scope src merged us).sv = s.sv ∧
    (resetDone s hold scope src merged us).pd = s.pd ∧
    (resetDone s hold scope src merged us).ct = s.ct ∧
    (resetDone s hold scope src merged us).pl = s.pl ∧
    (resetDone s hold scope src merged us).vc = s.vc ∧
    (resetDone s hold scope src merged us).hl.locked = s.hl.locked := by
  unfold Machine.resetDone; first | (simp; done) | ((repeat' split) <;> simp; done) | (dsimp only; (repeat' split) <;> simp; done)
@[simp] theorem selfTest_keeps {s : State} {x : LarderIn} :
    (selfTest s x).pending = s.pending ∧
    (selfTest s x).now = s.now ∧
    (selfTest s x).regs = s.regs ∧
    (selfTest s x).fr = s.fr ∧
    (selfTest s x).mx = s.mx ∧
    (selfTest s x).fx = s.fx ∧
    (selfTest s x).ps = s.ps ∧
    (selfTest s x).sp = s.sp ∧
    (selfTest s x).ai = s.ai ∧
    (selfTest s x).aq = s.aq ∧
    (selfTest s x).dp = s.dp ∧
    (selfTest s x).ck = s.ck ∧
    (selfTest s x).sc = s.sc ∧
    (selfTest s x).st = s.st ∧
    (selfTest s x).pd = s.pd ∧
    (selfTest s x).ct = s.ct ∧
    (selfTest s x).pl = s.pl ∧
    (selfTest s x).vc = s.vc ∧
    (selfTest s x).hl.locked = s.hl.locked := by
  unfold Machine.selfTest; first | (simp; done) | ((repeat' split) <;> simp; done) | (dsimp only; (repeat' split) <;> simp; done)
@[simp] theorem fallbackTold_keeps {s : State} :
    (fallbackTold s).pending = s.pending ∧
    (fallbackTold s).now = s.now ∧
    (fallbackTold s).regs = s.regs ∧
    (fallbackTold s).fr = s.fr ∧
    (fallbackTold s).mx = s.mx ∧
    (fallbackTold s).fx = s.fx ∧
    (fallbackTold s).ps = s.ps ∧
    (fallbackTold s).sp = s.sp ∧
    (fallbackTold s).ai = s.ai ∧
    (fallbackTold s).aq = s.aq ∧
    (fallbackTold s).dp = s.dp ∧
    (fallbackTold s).ck = s.ck ∧
    (fallbackTold s).sc = s.sc ∧
    (fallbackTold s).st = s.st ∧
    (fallbackTold s).pd = s.pd ∧
    (fallbackTold s).ct = s.ct ∧
    (fallbackTold s).pl = s.pl ∧
    (fallbackTold s).vc = s.vc ∧
    (fallbackTold s).hl.locked = s.hl.locked := by
  unfold Machine.fallbackTold; first | (simp; done) | ((repeat' split) <;> simp; done) | (dsimp only; (repeat' split) <;> simp; done)
@[simp] theorem standbyStrobe_keeps {s : State} {x : StrobeIn} :
    (standbyStrobe s x).pending = s.pending ∧
    (standbyStrobe s x).sv = s.sv ∧
    (standbyStrobe s x).ct = s.ct ∧
    (standbyStrobe s x).vc = s.vc ∧
    (standbyStrobe s x).hl.locked = s.hl.locked := by
  unfold Machine.standbyStrobe; first | (simp; done) | ((repeat' split) <;> simp; done) | (dsimp only; (repeat' split) <;> simp; done)
@[simp] theorem losePeer_keeps {s : State} {cause : Nat} :
    (losePeer s cause).pending = s.pending ∧
    (losePeer s cause).now = s.now ∧
    (losePeer s cause).out = s.out ∧
    (losePeer s cause).regs = s.regs ∧
    (losePeer s cause).fr = s.fr ∧
    (losePeer s cause).mx = s.mx ∧
    (losePeer s cause).fx = s.fx ∧
    (losePeer s cause).ps = s.ps ∧
    (losePeer s cause).sp = s.sp ∧
    (losePeer s cause).ai = s.ai ∧
    (losePeer s cause).aq = s.aq ∧
    (losePeer s cause).dp = s.dp ∧
    (losePeer s cause).ck = s.ck ∧
    (losePeer s cause).sc = s.sc ∧
    (losePeer s cause).hl = s.hl ∧
    (losePeer s cause).st = s.st ∧
    (losePeer s cause).tw = s.tw ∧
    (losePeer s cause).sv = s.sv ∧
    (losePeer s cause).pd = s.pd ∧
    (losePeer s cause).ct = s.ct ∧
    (losePeer s cause).vc = s.vc := by
  unfold Machine.losePeer; first | (simp; done) | ((repeat' split) <;> simp; done) | (dsimp only; (repeat' split) <;> simp; done)
@[simp] theorem digestPolicy_keeps {s : State} {ownSuspect : Bool} {peerSuspect : Bool} :
    (digestPolicy s ownSuspect peerSuspect).pending = s.pending ∧
    (digestPolicy s ownSuspect peerSuspect).now = s.now ∧
    (digestPolicy s ownSuspect peerSuspect).out = s.out ∧
    (digestPolicy s ownSuspect peerSuspect).regs = s.regs ∧
    (digestPolicy s ownSuspect peerSuspect).fr = s.fr ∧
    (digestPolicy s ownSuspect peerSuspect).mx = s.mx ∧
    (digestPolicy s ownSuspect peerSuspect).fx = s.fx ∧
    (digestPolicy s ownSuspect peerSuspect).ps = s.ps ∧
    (digestPolicy s ownSuspect peerSuspect).sp = s.sp ∧
    (digestPolicy s ownSuspect peerSuspect).ai = s.ai ∧
    (digestPolicy s ownSuspect peerSuspect).aq = s.aq ∧
    (digestPolicy s ownSuspect peerSuspect).dp = s.dp ∧
    (digestPolicy s ownSuspect peerSuspect).ck = s.ck ∧
    (digestPolicy s ownSuspect peerSuspect).sc = s.sc ∧
    (digestPolicy s ownSuspect peerSuspect).hl = s.hl ∧
    (digestPolicy s ownSuspect peerSuspect).st = s.st ∧
    (digestPolicy s ownSuspect peerSuspect).tw = s.tw ∧
    (digestPolicy s ownSuspect peerSuspect).sv = s.sv ∧
    (digestPolicy s ownSuspect peerSuspect).pd = s.pd ∧
    (digestPolicy s ownSuspect peerSuspect).ct = s.ct ∧
    (digestPolicy s ownSuspect peerSuspect).vc = s.vc := by
  unfold Machine.digestPolicy; first | (simp; done) | ((repeat' split) <;> simp; done) | (dsimp only; (repeat' split) <;> simp; done)
@[simp] theorem compareDigest_keeps {s : State} {pfn : Nat} {peer : Word} {peerFlags : Byte} :
    (compareDigest s pfn peer peerFlags).pending = s.pending ∧
    (compareDigest s pfn peer peerFlags).now = s.now ∧
    (compareDigest s pfn peer peerFlags).regs = s.regs ∧
    (compareDigest s pfn peer peerFlags).fr = s.fr ∧
    (compareDigest s pfn peer peerFlags).mx = s.mx ∧
    (compareDigest s pfn peer peerFlags).fx = s.fx ∧
    (compareDigest s pfn peer peerFlags).ps = s.ps ∧
    (compareDigest s pfn peer peerFlags).sp = s.sp ∧
    (compareDigest s pfn peer peerFlags).ai = s.ai ∧
    (compareDigest s pfn peer peerFlags).aq = s.aq ∧
    (compareDigest s pfn peer peerFlags).dp = s.dp ∧
    (compareDigest s pfn peer peerFlags).ck = s.ck ∧
    (compareDigest s pfn peer peerFlags).sc = s.sc ∧
    (compareDigest s pfn peer peerFlags).st = s.st ∧
    (compareDigest s pfn peer peerFlags).sv = s.sv ∧
    (compareDigest s pfn peer peerFlags).pd = s.pd ∧
    (compareDigest s pfn peer peerFlags).ct = s.ct ∧
    (compareDigest s pfn peer peerFlags).vc = s.vc ∧
    (compareDigest s pfn peer peerFlags).hl.locked = s.hl.locked := by
  unfold Machine.compareDigest; first | (simp; done) | ((repeat' split) <;> simp; done) | (dsimp only; (repeat' split) <;> simp; done)
@[simp] theorem compareHeard_keeps {s : State} :
    (compareHeard s).pending = s.pending ∧
    (compareHeard s).now = s.now ∧
    (compareHeard s).regs = s.regs ∧
    (compareHeard s).fr = s.fr ∧
    (compareHeard s).mx = s.mx ∧
    (compareHeard s).fx = s.fx ∧
    (compareHeard s).ps = s.ps ∧
    (compareHeard s).sp = s.sp ∧
    (compareHeard s).ai = s.ai ∧
    (compareHeard s).aq = s.aq ∧
    (compareHeard s).dp = s.dp ∧
    (compareHeard s).ck = s.ck ∧
    (compareHeard s).sc = s.sc ∧
    (compareHeard s).st = s.st ∧
    (compareHeard s).sv = s.sv ∧
    (compareHeard s).pd = s.pd ∧
    (compareHeard s).ct = s.ct ∧
    (compareHeard s).vc = s.vc ∧
    (compareHeard s).hl.locked = s.hl.locked := by
  unfold Machine.compareHeard; first | (simp; done) | ((repeat' split) <;> simp; done) | (dsimp only; (repeat' split) <;> simp; done)
@[simp] theorem splitAt_keeps {s : State} {boundary : Nat} {how : Nat} :
    (splitAt s boundary how).pending = s.pending ∧
    (splitAt s boundary how).now = s.now ∧
    (splitAt s boundary how).regs = s.regs ∧
    (splitAt s boundary how).fr = s.fr ∧
    (splitAt s boundary how).mx = s.mx ∧
    (splitAt s boundary how).fx = s.fx ∧
    (splitAt s boundary how).ps = s.ps ∧
    (splitAt s boundary how).sp = s.sp ∧
    (splitAt s boundary how).ai = s.ai ∧
    (splitAt s boundary how).aq = s.aq ∧
    (splitAt s boundary how).dp = s.dp ∧
    (splitAt s boundary how).ck = s.ck ∧
    (splitAt s boundary how).sc = s.sc ∧
    (splitAt s boundary how).st = s.st ∧
    (splitAt s boundary how).sv = s.sv ∧
    (splitAt s boundary how).pd = s.pd ∧
    (splitAt s boundary how).ct = s.ct ∧
    (splitAt s boundary how).vc = s.vc ∧
    (splitAt s boundary how).hl.locked = s.hl.locked := by
  unfold Machine.splitAt; first | (simp; done) | ((repeat' split) <;> simp; done) | (dsimp only; (repeat' split) <;> simp; done)
@[simp] theorem peerSplit_keeps {s : State} {pfn : Nat} {flags : Byte} :
    (peerSplit s pfn flags).pending = s.pending ∧
    (peerSplit s pfn flags).now = s.now ∧
    (peerSplit s pfn flags).regs = s.regs ∧
    (peerSplit s pfn flags).fr = s.fr ∧
    (peerSplit s pfn flags).mx = s.mx ∧
    (peerSplit s pfn flags).fx = s.fx ∧
    (peerSplit s pfn flags).ps = s.ps ∧
    (peerSplit s pfn flags).sp = s.sp ∧
    (peerSplit s pfn flags).ai = s.ai ∧
    (peerSplit s pfn flags).aq = s.aq ∧
    (peerSplit s pfn flags).dp = s.dp ∧
    (peerSplit s pfn flags).ck = s.ck ∧
    (peerSplit s pfn flags).sc = s.sc ∧
    (peerSplit s pfn flags).st = s.st ∧
    (peerSplit s pfn flags).sv = s.sv ∧
    (peerSplit s pfn flags).pd = s.pd ∧
    (peerSplit s pfn flags).ct = s.ct ∧
    (peerSplit s pfn flags).vc = s.vc ∧
    (peerSplit s pfn flags).hl.locked = s.hl.locked := by
  unfold Machine.peerSplit; first | (simp; done) | ((repeat' split) <;> simp; done) | (dsimp only; (repeat' split) <;> simp; done)
@[simp] theorem takeHeartbeat_keeps {s : State} {h : Heartbeat} :
    (takeHeartbeat s h).pending = s.pending ∧
    (takeHeartbeat s h).now = s.now ∧
    (takeHeartbeat s h).regs = s.regs ∧
    (takeHeartbeat s h).fr = s.fr ∧
    (takeHeartbeat s h).mx = s.mx ∧
    (takeHeartbeat s h).fx = s.fx ∧
    (takeHeartbeat s h).ps = s.ps ∧
    (takeHeartbeat s h).sp = s.sp ∧
    (takeHeartbeat s h).ai = s.ai ∧
    (takeHeartbeat s h).aq = s.aq ∧
    (takeHeartbeat s h).dp = s.dp ∧
    (takeHeartbeat s h).ck = s.ck ∧
    (takeHeartbeat s h).sc = s.sc ∧
    (takeHeartbeat s h).st = s.st ∧
    (takeHeartbeat s h).sv = s.sv ∧
    (takeHeartbeat s h).pd = s.pd ∧
    (takeHeartbeat s h).ct = s.ct ∧
    (takeHeartbeat s h).vc = s.vc ∧
    (takeHeartbeat s h).hl.locked = s.hl.locked := by
  unfold Machine.takeHeartbeat; first | (simp; done) | ((repeat' split) <;> simp; done) | (dsimp only; (repeat' split) <;> simp; done)
@[simp] theorem bindItem_keeps {s : State} {o : Owner} {b : Nat} {i : Item} :
    (bindItem s o b i).pending = s.pending ∧
    (bindItem s o b i).now = s.now ∧
    (bindItem s o b i).out = s.out ∧
    (bindItem s o b i).regs = s.regs ∧
    (bindItem s o b i).fx = s.fx ∧
    (bindItem s o b i).ps = s.ps ∧
    (bindItem s o b i).sp = s.sp ∧
    (bindItem s o b i).ai = s.ai ∧
    (bindItem s o b i).aq = s.aq ∧
    (bindItem s o b i).dp = s.dp ∧
    (bindItem s o b i).ck = s.ck ∧
    (bindItem s o b i).sc = s.sc ∧
    (bindItem s o b i).hl = s.hl ∧
    (bindItem s o b i).st = s.st ∧
    (bindItem s o b i).tw = s.tw ∧
    (bindItem s o b i).sv = s.sv ∧
    (bindItem s o b i).pd = s.pd ∧
    (bindItem s o b i).ct = s.ct ∧
    (bindItem s o b i).pl = s.pl ∧
    (bindItem s o b i).vc = s.vc ∧
    (bindItem s o b i).fr.fn = s.fr.fn ∧
    (bindItem s o b i).fr.next = s.fr.next ∧
    (bindItem s o b i).fr.running = s.fr.running := by
  unfold Machine.bindItem; first | (simp; done) | ((repeat' split) <;> simp; done) | (dsimp only; (repeat' split) <;> simp; done)
@[simp] theorem cancelMirror_keeps {s : State} {m : Mirror} {why : Nat} {status : Nat} :
    (cancelMirror s m why status).pending = s.pending ∧
    (cancelMirror s m why status).now = s.now ∧
    (cancelMirror s m why status).regs = s.regs ∧
    (cancelMirror s m why status).fr = s.fr ∧
    (cancelMirror s m why status).fx = s.fx ∧
    (cancelMirror s m why status).ps = s.ps ∧
    (cancelMirror s m why status).sp = s.sp ∧
    (cancelMirror s m why status).ai = s.ai ∧
    (cancelMirror s m why status).aq = s.aq ∧
    (cancelMirror s m why status).dp = s.dp ∧
    (cancelMirror s m why status).ck = s.ck ∧
    (cancelMirror s m why status).sc = s.sc ∧
    (cancelMirror s m why status).st = s.st ∧
    (cancelMirror s m why status).sv = s.sv ∧
    (cancelMirror s m why status).pd = s.pd ∧
    (cancelMirror s m why status).ct = s.ct ∧
    (cancelMirror s m why status).vc = s.vc ∧
    (cancelMirror s m why status).hl.locked = s.hl.locked := by
  unfold Machine.cancelMirror; first | (simp; done) | ((repeat' split) <;> simp; done) | (dsimp only; (repeat' split) <;> simp; done)
@[simp] theorem takeAnswer_keeps {s : State} {a : Word × BitVec 16 × BitVec 48} :
    (takeAnswer s a).pending = s.pending ∧
    (takeAnswer s a).now = s.now ∧
    (takeAnswer s a).regs = s.regs ∧
    (takeAnswer s a).fx = s.fx ∧
    (takeAnswer s a).ps = s.ps ∧
    (takeAnswer s a).sp = s.sp ∧
    (takeAnswer s a).ai = s.ai ∧
    (takeAnswer s a).aq = s.aq ∧
    (takeAnswer s a).dp = s.dp ∧
    (takeAnswer s a).ck = s.ck ∧
    (takeAnswer s a).sc = s.sc ∧
    (takeAnswer s a).st = s.st ∧
    (takeAnswer s a).sv = s.sv ∧
    (takeAnswer s a).pd = s.pd ∧
    (takeAnswer s a).ct = s.ct ∧
    (takeAnswer s a).vc = s.vc ∧
    (takeAnswer s a).fr.fn = s.fr.fn ∧
    (takeAnswer s a).fr.next = s.fr.next ∧
    (takeAnswer s a).fr.running = s.fr.running ∧
    (takeAnswer s a).hl.locked = s.hl.locked := by
  unfold Machine.takeAnswer; first | (simp; done) | ((repeat' split) <;> simp; done) | (dsimp only; (repeat' split) <;> simp; done)
@[simp] theorem matchMeet_keeps {s : State} {k : Nat × Nat × Nat × Nat} {peerFn : Nat} :
    (matchMeet s k peerFn).pending = s.pending ∧
    (matchMeet s k peerFn).now = s.now ∧
    (matchMeet s k peerFn).out = s.out ∧
    (matchMeet s k peerFn).regs = s.regs ∧
    (matchMeet s k peerFn).fx = s.fx ∧
    (matchMeet s k peerFn).ps = s.ps ∧
    (matchMeet s k peerFn).sp = s.sp ∧
    (matchMeet s k peerFn).ai = s.ai ∧
    (matchMeet s k peerFn).aq = s.aq ∧
    (matchMeet s k peerFn).dp = s.dp ∧
    (matchMeet s k peerFn).ck = s.ck ∧
    (matchMeet s k peerFn).sc = s.sc ∧
    (matchMeet s k peerFn).hl = s.hl ∧
    (matchMeet s k peerFn).st = s.st ∧
    (matchMeet s k peerFn).tw = s.tw ∧
    (matchMeet s k peerFn).sv = s.sv ∧
    (matchMeet s k peerFn).pd = s.pd ∧
    (matchMeet s k peerFn).ct = s.ct ∧
    (matchMeet s k peerFn).vc = s.vc ∧
    (matchMeet s k peerFn).fr.fn = s.fr.fn ∧
    (matchMeet s k peerFn).fr.next = s.fr.next ∧
    (matchMeet s k peerFn).fr.running = s.fr.running := by
  unfold Machine.matchMeet; first | (simp; done) | ((repeat' split) <;> simp; done) | (dsimp only; (repeat' split) <;> simp; done)
@[simp] theorem stageSets_keeps {s : State} {b : Nat} {sets : List (Nat × List (Nat × Word))} {n : Bool} :
    (stageSets s b sets n).pending = s.pending ∧
    (stageSets s b sets n).now = s.now ∧
    (stageSets s b sets n).out = s.out ∧
    (stageSets s b sets n).regs = s.regs ∧
    (stageSets s b sets n).mx = s.mx ∧
    (stageSets s b sets n).fx = s.fx ∧
    (stageSets s b sets n).ps = s.ps ∧
    (stageSets s b sets n).sp = s.sp ∧
    (stageSets s b sets n).ai = s.ai ∧
    (stageSets s b sets n).aq = s.aq ∧
    (stageSets s b sets n).dp = s.dp ∧
    (stageSets s b sets n).ck = s.ck ∧
    (stageSets s b sets n).sc = s.sc ∧
    (stageSets s b sets n).hl = s.hl ∧
    (stageSets s b sets n).st = s.st ∧
    (stageSets s b sets n).tw = s.tw ∧
    (stageSets s b sets n).sv = s.sv ∧
    (stageSets s b sets n).pd = s.pd ∧
    (stageSets s b sets n).ct = s.ct ∧
    (stageSets s b sets n).pl = s.pl ∧
    (stageSets s b sets n).vc = s.vc ∧
    (stageSets s b sets n).fr.fn = s.fr.fn ∧
    (stageSets s b sets n).fr.next = s.fr.next ∧
    (stageSets s b sets n).fr.running = s.fr.running := by
  unfold Machine.stageSets; first | (simp; done) | ((repeat' split) <;> simp; done) | (dsimp only; (repeat' split) <;> simp; done)
theorem commitRecs_ok_keeps {s : State} {o : Owner} {h : CommitReq} {r : List Rec} {p : State × Nat}
    (h : commitRecs s o h r = .ok p) :
    p.1.pending = s.pending ∧
    p.1.now = s.now ∧
    p.1.out = s.out ∧
    p.1.regs = s.regs ∧
    p.1.fr = s.fr ∧
    p.1.fx = s.fx ∧
    p.1.ps = s.ps ∧
    p.1.sp = s.sp ∧
    p.1.ai = s.ai ∧
    p.1.aq = s.aq ∧
    p.1.dp = s.dp ∧
    p.1.ck = s.ck ∧
    p.1.sc = s.sc ∧
    p.1.hl = s.hl ∧
    p.1.st = s.st ∧
    p.1.tw = s.tw ∧
    p.1.sv = s.sv ∧
    p.1.pd = s.pd ∧
    p.1.ct = s.ct ∧
    p.1.vc = s.vc := by
  unfold commitRecs at h
  dsimp only at h
  (repeat' split at h) <;> first | (cases h; done) | (injection h with h; subst h; simp)
theorem commitRecs_error_keeps {s : State} {o : Owner} {h : CommitReq} {r : List Rec} {p : State × Nat × Nat}
    (h : commitRecs s o h r = .error p) :
    p.1.pending = s.pending ∧
    p.1.now = s.now ∧
    p.1.out = s.out ∧
    p.1.regs = s.regs ∧
    p.1.fr = s.fr ∧
    p.1.fx = s.fx ∧
    p.1.ps = s.ps ∧
    p.1.sp = s.sp ∧
    p.1.ai = s.ai ∧
    p.1.aq = s.aq ∧
    p.1.dp = s.dp ∧
    p.1.ck = s.ck ∧
    p.1.sc = s.sc ∧
    p.1.hl = s.hl ∧
    p.1.st = s.st ∧
    p.1.tw = s.tw ∧
    p.1.sv = s.sv ∧
    p.1.pd = s.pd ∧
    p.1.ct = s.ct ∧
    p.1.vc = s.vc := by
  unfold commitRecs at h
  dsimp only at h
  (repeat' split at h) <;> first | (cases h; done) | (injection h with h; subst h; simp)
theorem mixSubmit_keeps {s : State} {o : Owner} {b : Bytes} {p : State × Nat} (h : mixSubmit s o b = .ok p) :
    p.1.pending = s.pending ∧
    p.1.now = s.now ∧
    p.1.out = s.out ∧
    p.1.regs = s.regs ∧
    p.1.fr = s.fr ∧
    p.1.fx = s.fx ∧
    p.1.ps = s.ps ∧
    p.1.sp = s.sp ∧
    p.1.ai = s.ai ∧
    p.1.aq = s.aq ∧
    p.1.dp = s.dp ∧
    p.1.ck = s.ck ∧
    p.1.sc = s.sc ∧
    p.1.hl = s.hl ∧
    p.1.st = s.st ∧
    p.1.tw = s.tw ∧
    p.1.sv = s.sv ∧
    p.1.pd = s.pd ∧
    p.1.ct = s.ct ∧
    p.1.vc = s.vc := by
  unfold mixSubmit at h
  dsimp only at h
  split at h
  · cases h
  · exact commitRecs_ok_keeps h
theorem mixSubmit_error_keeps {s : State} {o : Owner} {b : Bytes} {p : State × Nat × Nat} (h : mixSubmit s o b = .error p) :
    p.1.pending = s.pending ∧
    p.1.now = s.now ∧
    p.1.out = s.out ∧
    p.1.regs = s.regs ∧
    p.1.fr = s.fr ∧
    p.1.fx = s.fx ∧
    p.1.ps = s.ps ∧
    p.1.sp = s.sp ∧
    p.1.ai = s.ai ∧
    p.1.aq = s.aq ∧
    p.1.dp = s.dp ∧
    p.1.ck = s.ck ∧
    p.1.sc = s.sc ∧
    p.1.hl = s.hl ∧
    p.1.st = s.st ∧
    p.1.tw = s.tw ∧
    p.1.sv = s.sv ∧
    p.1.pd = s.pd ∧
    p.1.ct = s.ct ∧
    p.1.vc = s.vc := by
  unfold mixSubmit at h
  dsimp only at h
  split at h
  · cases h; simp
  · exact commitRecs_error_keeps h
theorem mixAccept_keeps {s : State} {o : Owner} {b : Bytes} {p : State × Nat} (h : mixAccept s o b = .ok p) :
    p.1.pending = s.pending ∧
    p.1.now = s.now ∧
    p.1.out = s.out ∧
    p.1.regs = s.regs ∧
    p.1.fr = s.fr ∧
    p.1.fx = s.fx ∧
    p.1.ps = s.ps ∧
    p.1.sp = s.sp ∧
    p.1.ai = s.ai ∧
    p.1.aq = s.aq ∧
    p.1.dp = s.dp ∧
    p.1.ck = s.ck ∧
    p.1.sc = s.sc ∧
    p.1.hl = s.hl ∧
    p.1.st = s.st ∧
    p.1.tw = s.tw ∧
    p.1.sv = s.sv ∧
    p.1.pd = s.pd ∧
    p.1.ct = s.ct ∧
    p.1.vc = s.vc := by
  unfold mixAccept at h
  split at h
  · cases h
  · rename_i q hq
    cases h
    exact mixSubmit_keeps hq
@[simp] theorem acceptPeer_keeps {s : State} {i : PeerItem} {b : Nat} :
    (acceptPeer s i b).1.pending = s.pending ∧
    (acceptPeer s i b).1.now = s.now ∧
    (acceptPeer s i b).1.out = s.out ∧
    (acceptPeer s i b).1.regs = s.regs ∧
    (acceptPeer s i b).1.fx = s.fx ∧
    (acceptPeer s i b).1.ps = s.ps ∧
    (acceptPeer s i b).1.sp = s.sp ∧
    (acceptPeer s i b).1.ai = s.ai ∧
    (acceptPeer s i b).1.aq = s.aq ∧
    (acceptPeer s i b).1.dp = s.dp ∧
    (acceptPeer s i b).1.ck = s.ck ∧
    (acceptPeer s i b).1.sc = s.sc ∧
    (acceptPeer s i b).1.hl = s.hl ∧
    (acceptPeer s i b).1.st = s.st ∧
    (acceptPeer s i b).1.tw = s.tw ∧
    (acceptPeer s i b).1.sv = s.sv ∧
    (acceptPeer s i b).1.pd = s.pd ∧
    (acceptPeer s i b).1.ct = s.ct ∧
    (acceptPeer s i b).1.vc = s.vc ∧
    (acceptPeer s i b).1.fr.fn = s.fr.fn ∧
    (acceptPeer s i b).1.fr.next = s.fr.next ∧
    (acceptPeer s i b).1.fr.running = s.fr.running := by
  unfold acceptPeer
  dsimp only
  (repeat' split) <;> (try simp; done) <;> (have := mixAccept_keeps ‹_›; simp [this])
@[simp] theorem takeItem_keeps {s : State} {i : PeerItem} :
    (takeItem s i).pending = s.pending ∧
    (takeItem s i).now = s.now ∧
    (takeItem s i).out = s.out ∧
    (takeItem s i).regs = s.regs ∧
    (takeItem s i).fx = s.fx ∧
    (takeItem s i).ps = s.ps ∧
    (takeItem s i).sp = s.sp ∧
    (takeItem s i).ai = s.ai ∧
    (takeItem s i).aq = s.aq ∧
    (takeItem s i).dp = s.dp ∧
    (takeItem s i).ck = s.ck ∧
    (takeItem s i).sc = s.sc ∧
    (takeItem s i).hl = s.hl ∧
    (takeItem s i).st = s.st ∧
    (takeItem s i).tw = s.tw ∧
    (takeItem s i).sv = s.sv ∧
    (takeItem s i).pd = s.pd ∧
    (takeItem s i).ct = s.ct ∧
    (takeItem s i).vc = s.vc ∧
    (takeItem s i).fr.fn = s.fr.fn ∧
    (takeItem s i).fr.next = s.fr.next ∧
    (takeItem s i).fr.running = s.fr.running := by
  unfold Machine.takeItem; first | (simp; done) | ((repeat' split) <;> simp; done) | (dsimp only; (repeat' split) <;> simp; done)
@[simp] theorem dropAnswers_keeps {s : State} {items : List PeerItem} :
    (dropAnswers s items).pending = s.pending ∧
    (dropAnswers s items).now = s.now ∧
    (dropAnswers s items).out = s.out ∧
    (dropAnswers s items).regs = s.regs ∧
    (dropAnswers s items).fr = s.fr ∧
    (dropAnswers s items).mx = s.mx ∧
    (dropAnswers s items).fx = s.fx ∧
    (dropAnswers s items).ps = s.ps ∧
    (dropAnswers s items).sp = s.sp ∧
    (dropAnswers s items).ai = s.ai ∧
    (dropAnswers s items).aq = s.aq ∧
    (dropAnswers s items).dp = s.dp ∧
    (dropAnswers s items).ck = s.ck ∧
    (dropAnswers s items).sc = s.sc ∧
    (dropAnswers s items).hl = s.hl ∧
    (dropAnswers s items).st = s.st ∧
    (dropAnswers s items).tw = s.tw ∧
    (dropAnswers s items).sv = s.sv ∧
    (dropAnswers s items).pd = s.pd ∧
    (dropAnswers s items).ct = s.ct ∧
    (dropAnswers s items).vc = s.vc := by
  unfold Machine.dropAnswers; first | (simp; done) | ((repeat' split) <;> simp; done) | (dsimp only; (repeat' split) <;> simp; done)
@[simp] theorem takeAck_keeps {s : State} {ack : Nat} :
    (takeAck s ack).pending = s.pending ∧
    (takeAck s ack).now = s.now ∧
    (takeAck s ack).out = s.out ∧
    (takeAck s ack).regs = s.regs ∧
    (takeAck s ack).fr = s.fr ∧
    (takeAck s ack).mx = s.mx ∧
    (takeAck s ack).fx = s.fx ∧
    (takeAck s ack).ps = s.ps ∧
    (takeAck s ack).sp = s.sp ∧
    (takeAck s ack).ai = s.ai ∧
    (takeAck s ack).aq = s.aq ∧
    (takeAck s ack).dp = s.dp ∧
    (takeAck s ack).ck = s.ck ∧
    (takeAck s ack).sc = s.sc ∧
    (takeAck s ack).hl = s.hl ∧
    (takeAck s ack).st = s.st ∧
    (takeAck s ack).tw = s.tw ∧
    (takeAck s ack).sv = s.sv ∧
    (takeAck s ack).pd = s.pd ∧
    (takeAck s ack).ct = s.ct ∧
    (takeAck s ack).vc = s.vc := by
  unfold Machine.takeAck; first | (simp; done) | ((repeat' split) <;> simp; done) | (dsimp only; (repeat' split) <;> simp; done)
@[simp] theorem copyParam_keeps {s : State} {p : Nat × Nat × Word} :
    (copyParam s p).pending = s.pending ∧
    (copyParam s p).now = s.now ∧
    (copyParam s p).out = s.out ∧
    (copyParam s p).regs = s.regs ∧
    (copyParam s p).fr = s.fr ∧
    (copyParam s p).mx = s.mx ∧
    (copyParam s p).ps = s.ps ∧
    (copyParam s p).sp = s.sp ∧
    (copyParam s p).ai = s.ai ∧
    (copyParam s p).aq = s.aq ∧
    (copyParam s p).dp = s.dp ∧
    (copyParam s p).ck = s.ck ∧
    (copyParam s p).sc = s.sc ∧
    (copyParam s p).hl = s.hl ∧
    (copyParam s p).st = s.st ∧
    (copyParam s p).tw = s.tw ∧
    (copyParam s p).sv = s.sv ∧
    (copyParam s p).pd = s.pd ∧
    (copyParam s p).ct = s.ct ∧
    (copyParam s p).pl = s.pl ∧
    (copyParam s p).vc = s.vc := by
  unfold Machine.copyParam; first | (simp; done) | ((repeat' split) <;> simp; done) | (dsimp only; (repeat' split) <;> simp; done)
@[simp] theorem takeReg_keeps {s : State} {r : Nat × Word} :
    (takeReg s r).pending = s.pending ∧
    (takeReg s r).now = s.now ∧
    (takeReg s r).out = s.out ∧
    (takeReg s r).mx = s.mx ∧
    (takeReg s r).fx = s.fx ∧
    (takeReg s r).ps = s.ps ∧
    (takeReg s r).sp = s.sp ∧
    (takeReg s r).ai = s.ai ∧
    (takeReg s r).aq = s.aq ∧
    (takeReg s r).dp = s.dp ∧
    (takeReg s r).ck = s.ck ∧
    (takeReg s r).sc = s.sc ∧
    (takeReg s r).hl = s.hl ∧
    (takeReg s r).st = s.st ∧
    (takeReg s r).tw = s.tw ∧
    (takeReg s r).sv = s.sv ∧
    (takeReg s r).pd = s.pd ∧
    (takeReg s r).ct = s.ct ∧
    (takeReg s r).pl = s.pl ∧
    (takeReg s r).vc = s.vc ∧
    (takeReg s r).fr.fn = s.fr.fn ∧
    (takeReg s r).fr.next = s.fr.next ∧
    (takeReg s r).fr.running = s.fr.running := by
  unfold Machine.takeReg; first | (simp; done) | ((repeat' split) <;> simp; done) | (dsimp only; (repeat' split) <;> simp; done)
@[simp] theorem takeCopy_keeps {s : State} {x : SyncCopy} :
    (takeCopy s x).pending = s.pending ∧
    (takeCopy s x).now = s.now ∧
    (takeCopy s x).out = s.out ∧
    (takeCopy s x).ps = s.ps ∧
    (takeCopy s x).sp = s.sp ∧
    (takeCopy s x).ai = s.ai ∧
    (takeCopy s x).aq = s.aq ∧
    (takeCopy s x).dp = s.dp ∧
    (takeCopy s x).ck = s.ck ∧
    (takeCopy s x).sc = s.sc ∧
    (takeCopy s x).hl = s.hl ∧
    (takeCopy s x).st = s.st ∧
    (takeCopy s x).tw = s.tw ∧
    (takeCopy s x).sv = s.sv ∧
    (takeCopy s x).pd = s.pd ∧
    (takeCopy s x).ct = s.ct ∧
    (takeCopy s x).pl = s.pl ∧
    (takeCopy s x).vc = s.vc ∧
    (takeCopy s x).fr.fn = s.fr.fn ∧
    (takeCopy s x).fr.next = s.fr.next ∧
    (takeCopy s x).fr.running = s.fr.running := by
  unfold Machine.takeCopy; first | (simp; done) | ((repeat' split) <;> simp; done) | (dsimp only; (repeat' split) <;> simp; done)
@[simp] theorem peerResetEvent_keeps {s : State} {outcome : Nat} {scope : Nat} :
    (peerResetEvent s outcome scope).pending = s.pending ∧
    (peerResetEvent s outcome scope).now = s.now ∧
    (peerResetEvent s outcome scope).regs = s.regs ∧
    (peerResetEvent s outcome scope).fr = s.fr ∧
    (peerResetEvent s outcome scope).mx = s.mx ∧
    (peerResetEvent s outcome scope).fx = s.fx ∧
    (peerResetEvent s outcome scope).ps = s.ps ∧
    (peerResetEvent s outcome scope).sp = s.sp ∧
    (peerResetEvent s outcome scope).ai = s.ai ∧
    (peerResetEvent s outcome scope).aq = s.aq ∧
    (peerResetEvent s outcome scope).dp = s.dp ∧
    (peerResetEvent s outcome scope).ck = s.ck ∧
    (peerResetEvent s outcome scope).sc = s.sc ∧
    (peerResetEvent s outcome scope).st = s.st ∧
    (peerResetEvent s outcome scope).sv = s.sv ∧
    (peerResetEvent s outcome scope).pd = s.pd ∧
    (peerResetEvent s outcome scope).ct = s.ct ∧
    (peerResetEvent s outcome scope).pl = s.pl ∧
    (peerResetEvent s outcome scope).vc = s.vc ∧
    (peerResetEvent s outcome scope).hl.locked = s.hl.locked := by
  unfold Machine.peerResetEvent; first | (simp; done) | ((repeat' split) <;> simp; done) | (dsimp only; (repeat' split) <;> simp; done)
@[simp] theorem peerCmd_keeps {s : State} {v : Word} :
    (peerCmd s v).pending = s.pending ∧
    (peerCmd s v).now = s.now ∧
    (peerCmd s v).regs = s.regs ∧
    (peerCmd s v).fr = s.fr ∧
    (peerCmd s v).mx = s.mx ∧
    (peerCmd s v).fx = s.fx ∧
    (peerCmd s v).ps = s.ps ∧
    (peerCmd s v).sp = s.sp ∧
    (peerCmd s v).ai = s.ai ∧
    (peerCmd s v).aq = s.aq ∧
    (peerCmd s v).dp = s.dp ∧
    (peerCmd s v).ck = s.ck ∧
    (peerCmd s v).sc = s.sc ∧
    (peerCmd s v).st = s.st ∧
    (peerCmd s v).sv = s.sv ∧
    (peerCmd s v).pd = s.pd ∧
    (peerCmd s v).ct = s.ct ∧
    (peerCmd s v).pl = s.pl ∧
    (peerCmd s v).vc = s.vc ∧
    (peerCmd s v).hl.locked = s.hl.locked := by
  unfold Machine.peerCmd; first | (simp; done) | ((repeat' split) <;> simp; done) | (dsimp only; (repeat' split) <;> simp; done)
@[simp] theorem halfChanged_keeps {s : State} {h : Nat} {what : Nat} {b : Nat} :
    (halfChanged s h what b).pending = s.pending ∧
    (halfChanged s h what b).now = s.now ∧
    (halfChanged s h what b).regs = s.regs ∧
    (halfChanged s h what b).fr = s.fr ∧
    (halfChanged s h what b).mx = s.mx ∧
    (halfChanged s h what b).fx = s.fx ∧
    (halfChanged s h what b).ps = s.ps ∧
    (halfChanged s h what b).sp = s.sp ∧
    (halfChanged s h what b).ai = s.ai ∧
    (halfChanged s h what b).aq = s.aq ∧
    (halfChanged s h what b).dp = s.dp ∧
    (halfChanged s h what b).ck = s.ck ∧
    (halfChanged s h what b).sc = s.sc ∧
    (halfChanged s h what b).st = s.st ∧
    (halfChanged s h what b).sv = s.sv ∧
    (halfChanged s h what b).pd = s.pd ∧
    (halfChanged s h what b).ct = s.ct ∧
    (halfChanged s h what b).pl = s.pl ∧
    (halfChanged s h what b).vc = s.vc ∧
    (halfChanged s h what b).hl.locked = s.hl.locked := by
  unfold Machine.halfChanged; first | (simp; done) | ((repeat' split) <;> simp; done) | (dsimp only; (repeat' split) <;> simp; done)
@[simp] theorem applyHalfOut_keeps {s : State} {h : Nat} :
    (applyHalfOut s h).1.pending = s.pending ∧
    (applyHalfOut s h).1.now = s.now ∧
    (applyHalfOut s h).1.regs = s.regs ∧
    (applyHalfOut s h).1.fr = s.fr ∧
    (applyHalfOut s h).1.ps = s.ps ∧
    (applyHalfOut s h).1.sp = s.sp ∧
    (applyHalfOut s h).1.ai = s.ai ∧
    (applyHalfOut s h).1.aq = s.aq ∧
    (applyHalfOut s h).1.dp = s.dp ∧
    (applyHalfOut s h).1.ck = s.ck ∧
    (applyHalfOut s h).1.sc = s.sc ∧
    (applyHalfOut s h).1.st = s.st ∧
    (applyHalfOut s h).1.sv = s.sv ∧
    (applyHalfOut s h).1.pd = s.pd ∧
    (applyHalfOut s h).1.ct = s.ct ∧
    (applyHalfOut s h).1.vc = s.vc ∧
    (applyHalfOut s h).1.hl.locked = s.hl.locked := by
  unfold Machine.applyHalfOut; first | (simp; done) | ((repeat' split) <;> simp; done) | (dsimp only; (repeat' split) <;> simp; done)
@[simp] theorem applyHalfIn_keeps {s : State} {h : Nat} :
    (applyHalfIn s h).1.pending = s.pending ∧
    (applyHalfIn s h).1.now = s.now ∧
    (applyHalfIn s h).1.out = s.out ∧
    (applyHalfIn s h).1.regs = s.regs ∧
    (applyHalfIn s h).1.fr = s.fr ∧
    (applyHalfIn s h).1.ps = s.ps ∧
    (applyHalfIn s h).1.sp = s.sp ∧
    (applyHalfIn s h).1.ai = s.ai ∧
    (applyHalfIn s h).1.aq = s.aq ∧
    (applyHalfIn s h).1.dp = s.dp ∧
    (applyHalfIn s h).1.ck = s.ck ∧
    (applyHalfIn s h).1.sc = s.sc ∧
    (applyHalfIn s h).1.hl = s.hl ∧
    (applyHalfIn s h).1.st = s.st ∧
    (applyHalfIn s h).1.tw = s.tw ∧
    (applyHalfIn s h).1.sv = s.sv ∧
    (applyHalfIn s h).1.pd = s.pd ∧
    (applyHalfIn s h).1.ct = s.ct ∧
    (applyHalfIn s h).1.pl = s.pl ∧
    (applyHalfIn s h).1.vc = s.vc := by
  unfold Machine.applyHalfIn; first | (simp; done) | ((repeat' split) <;> simp; done) | (dsimp only; (repeat' split) <;> simp; done)
@[simp] theorem takeDue_keeps {s : State} {p : Item → Bool} :
    (takeDue s p).1.pending = s.pending ∧
    (takeDue s p).1.now = s.now ∧
    (takeDue s p).1.out = s.out ∧
    (takeDue s p).1.regs = s.regs ∧
    (takeDue s p).1.mx = s.mx ∧
    (takeDue s p).1.fx = s.fx ∧
    (takeDue s p).1.ps = s.ps ∧
    (takeDue s p).1.sp = s.sp ∧
    (takeDue s p).1.ai = s.ai ∧
    (takeDue s p).1.aq = s.aq ∧
    (takeDue s p).1.dp = s.dp ∧
    (takeDue s p).1.ck = s.ck ∧
    (takeDue s p).1.sc = s.sc ∧
    (takeDue s p).1.hl = s.hl ∧
    (takeDue s p).1.st = s.st ∧
    (takeDue s p).1.tw = s.tw ∧
    (takeDue s p).1.sv = s.sv ∧
    (takeDue s p).1.pd = s.pd ∧
    (takeDue s p).1.ct = s.ct ∧
    (takeDue s p).1.pl = s.pl ∧
    (takeDue s p).1.vc = s.vc ∧
    (takeDue s p).1.fr.fn = s.fr.fn ∧
    (takeDue s p).1.fr.next = s.fr.next ∧
    (takeDue s p).1.fr.running = s.fr.running := by
  unfold Machine.takeDue; first | (simp; done) | ((repeat' split) <;> simp; done) | (dsimp only; (repeat' split) <;> simp; done)
@[simp] theorem applyDue_pending {s : State} {p : Item → Bool} {f : State → Staged → State}
    (h : ∀ t i, (f t i).pending = t.pending) : (applyDue s p f).pending = s.pending := by
  unfold applyDue; simp [h]
@[simp] theorem applyDue_now {s : State} {p : Item → Bool} {f : State → Staged → State}
    (h : ∀ t i, (f t i).now = t.now) : (applyDue s p f).now = s.now := by
  unfold applyDue; simp [h]
@[simp] theorem applyDue_out {s : State} {p : Item → Bool} {f : State → Staged → State}
    (h : ∀ t i, (f t i).out = t.out) : (applyDue s p f).out = s.out := by
  unfold applyDue; simp [h]
@[simp] theorem applyDue_regs {s : State} {p : Item → Bool} {f : State → Staged → State}
    (h : ∀ t i, (f t i).regs = t.regs) : (applyDue s p f).regs = s.regs := by
  unfold applyDue; simp [h]
@[simp] theorem applyDue_mx {s : State} {p : Item → Bool} {f : State → Staged → State}
    (h : ∀ t i, (f t i).mx = t.mx) : (applyDue s p f).mx = s.mx := by
  unfold applyDue; simp [h]
@[simp] theorem applyDue_fx {s : State} {p : Item → Bool} {f : State → Staged → State}
    (h : ∀ t i, (f t i).fx = t.fx) : (applyDue s p f).fx = s.fx := by
  unfold applyDue; simp [h]
@[simp] theorem applyDue_ps {s : State} {p : Item → Bool} {f : State → Staged → State}
    (h : ∀ t i, (f t i).ps = t.ps) : (applyDue s p f).ps = s.ps := by
  unfold applyDue; simp [h]
@[simp] theorem applyDue_sp {s : State} {p : Item → Bool} {f : State → Staged → State}
    (h : ∀ t i, (f t i).sp = t.sp) : (applyDue s p f).sp = s.sp := by
  unfold applyDue; simp [h]
@[simp] theorem applyDue_ai {s : State} {p : Item → Bool} {f : State → Staged → State}
    (h : ∀ t i, (f t i).ai = t.ai) : (applyDue s p f).ai = s.ai := by
  unfold applyDue; simp [h]
@[simp] theorem applyDue_aq {s : State} {p : Item → Bool} {f : State → Staged → State}
    (h : ∀ t i, (f t i).aq = t.aq) : (applyDue s p f).aq = s.aq := by
  unfold applyDue; simp [h]
@[simp] theorem applyDue_dp {s : State} {p : Item → Bool} {f : State → Staged → State}
    (h : ∀ t i, (f t i).dp = t.dp) : (applyDue s p f).dp = s.dp := by
  unfold applyDue; simp [h]
@[simp] theorem applyDue_ck {s : State} {p : Item → Bool} {f : State → Staged → State}
    (h : ∀ t i, (f t i).ck = t.ck) : (applyDue s p f).ck = s.ck := by
  unfold applyDue; simp [h]
@[simp] theorem applyDue_sc {s : State} {p : Item → Bool} {f : State → Staged → State}
    (h : ∀ t i, (f t i).sc = t.sc) : (applyDue s p f).sc = s.sc := by
  unfold applyDue; simp [h]
@[simp] theorem applyDue_hl {s : State} {p : Item → Bool} {f : State → Staged → State}
    (h : ∀ t i, (f t i).hl = t.hl) : (applyDue s p f).hl = s.hl := by
  unfold applyDue; simp [h]
@[simp] theorem applyDue_st {s : State} {p : Item → Bool} {f : State → Staged → State}
    (h : ∀ t i, (f t i).st = t.st) : (applyDue s p f).st = s.st := by
  unfold applyDue; simp [h]
@[simp] theorem applyDue_tw {s : State} {p : Item → Bool} {f : State → Staged → State}
    (h : ∀ t i, (f t i).tw = t.tw) : (applyDue s p f).tw = s.tw := by
  unfold applyDue; simp [h]
@[simp] theorem applyDue_sv {s : State} {p : Item → Bool} {f : State → Staged → State}
    (h : ∀ t i, (f t i).sv = t.sv) : (applyDue s p f).sv = s.sv := by
  unfold applyDue; simp [h]
@[simp] theorem applyDue_pd {s : State} {p : Item → Bool} {f : State → Staged → State}
    (h : ∀ t i, (f t i).pd = t.pd) : (applyDue s p f).pd = s.pd := by
  unfold applyDue; simp [h]
@[simp] theorem applyDue_ct {s : State} {p : Item → Bool} {f : State → Staged → State}
    (h : ∀ t i, (f t i).ct = t.ct) : (applyDue s p f).ct = s.ct := by
  unfold applyDue; simp [h]
@[simp] theorem applyDue_pl {s : State} {p : Item → Bool} {f : State → Staged → State}
    (h : ∀ t i, (f t i).pl = t.pl) : (applyDue s p f).pl = s.pl := by
  unfold applyDue; simp [h]
@[simp] theorem applyDue_vc {s : State} {p : Item → Bool} {f : State → Staged → State}
    (h : ∀ t i, (f t i).vc = t.vc) : (applyDue s p f).vc = s.vc := by
  unfold applyDue; simp [h]
@[simp] theorem applyDue_fr_fn {s : State} {p : Item → Bool} {f : State → Staged → State}
    (h : ∀ t i, (f t i).fr.fn = t.fr.fn) : (applyDue s p f).fr.fn = s.fr.fn := by
  unfold applyDue; simp [h]
@[simp] theorem applyDue_fr_next {s : State} {p : Item → Bool} {f : State → Staged → State}
    (h : ∀ t i, (f t i).fr.next = t.fr.next) : (applyDue s p f).fr.next = s.fr.next := by
  unfold applyDue; simp [h]
@[simp] theorem applyDue_fr_running {s : State} {p : Item → Bool} {f : State → Staged → State}
    (h : ∀ t i, (f t i).fr.running = t.fr.running) : (applyDue s p f).fr.running = s.fr.running := by
  unfold applyDue; simp [h]
@[simp] theorem applyDue_hl_locked {s : State} {p : Item → Bool} {f : State → Staged → State}
    (h : ∀ t i, (f t i).hl.locked = t.hl.locked) : (applyDue s p f).hl.locked = s.hl.locked := by
  unfold applyDue; simp [h]
@[simp] theorem moveItems_keeps {s : State} {n : Nat} {p : Staged → Bool} :
    (moveItems s n p).pending = s.pending ∧
    (moveItems s n p).now = s.now ∧
    (moveItems s n p).out = s.out ∧
    (moveItems s n p).regs = s.regs ∧
    (moveItems s n p).fx = s.fx ∧
    (moveItems s n p).ps = s.ps ∧
    (moveItems s n p).sp = s.sp ∧
    (moveItems s n p).ai = s.ai ∧
    (moveItems s n p).aq = s.aq ∧
    (moveItems s n p).dp = s.dp ∧
    (moveItems s n p).ck = s.ck ∧
    (moveItems s n p).sc = s.sc ∧
    (moveItems s n p).hl = s.hl ∧
    (moveItems s n p).st = s.st ∧
    (moveItems s n p).tw = s.tw ∧
    (moveItems s n p).sv = s.sv ∧
    (moveItems s n p).pd = s.pd ∧
    (moveItems s n p).ct = s.ct ∧
    (moveItems s n p).pl = s.pl ∧
    (moveItems s n p).vc = s.vc ∧
    (moveItems s n p).fr.fn = s.fr.fn ∧
    (moveItems s n p).fr.next = s.fr.next ∧
    (moveItems s n p).fr.running = s.fr.running := by
  unfold Machine.moveItems; first | (simp; done) | ((repeat' split) <;> simp; done) | (dsimp only; (repeat' split) <;> simp; done)
@[simp] theorem noteDeferred_keeps {s : State} {n : Nat} :
    (noteDeferred s n).pending = s.pending ∧
    (noteDeferred s n).now = s.now ∧
    (noteDeferred s n).regs = s.regs ∧
    (noteDeferred s n).fr = s.fr ∧
    (noteDeferred s n).mx = s.mx ∧
    (noteDeferred s n).fx = s.fx ∧
    (noteDeferred s n).ps = s.ps ∧
    (noteDeferred s n).sp = s.sp ∧
    (noteDeferred s n).ai = s.ai ∧
    (noteDeferred s n).aq = s.aq ∧
    (noteDeferred s n).dp = s.dp ∧
    (noteDeferred s n).ck = s.ck ∧
    (noteDeferred s n).sc = s.sc ∧
    (noteDeferred s n).st = s.st ∧
    (noteDeferred s n).sv = s.sv ∧
    (noteDeferred s n).pd = s.pd ∧
    (noteDeferred s n).ct = s.ct ∧
    (noteDeferred s n).vc = s.vc ∧
    (noteDeferred s n).hl.locked = s.hl.locked := by
  unfold Machine.noteDeferred; first | (simp; done) | ((repeat' split) <;> simp; done) | (dsimp only; (repeat' split) <;> simp; done)
@[simp] theorem countDeferral_keeps {s : State} :
    (countDeferral s).pending = s.pending ∧
    (countDeferral s).now = s.now ∧
    (countDeferral s).regs = s.regs ∧
    (countDeferral s).mx = s.mx ∧
    (countDeferral s).fx = s.fx ∧
    (countDeferral s).ps = s.ps ∧
    (countDeferral s).sp = s.sp ∧
    (countDeferral s).ai = s.ai ∧
    (countDeferral s).aq = s.aq ∧
    (countDeferral s).dp = s.dp ∧
    (countDeferral s).ck = s.ck ∧
    (countDeferral s).sc = s.sc ∧
    (countDeferral s).st = s.st ∧
    (countDeferral s).sv = s.sv ∧
    (countDeferral s).pd = s.pd ∧
    (countDeferral s).ct = s.ct ∧
    (countDeferral s).vc = s.vc ∧
    (countDeferral s).fr.fn = s.fr.fn ∧
    (countDeferral s).fr.next = s.fr.next ∧
    (countDeferral s).fr.running = s.fr.running ∧
    (countDeferral s).hl.locked = s.hl.locked := by
  unfold Machine.countDeferral; first | (simp; done) | ((repeat' split) <;> simp; done) | (dsimp only; (repeat' split) <;> simp; done)
@[simp] theorem deferredEvent_keeps {s : State} {moved : Nat} {cause : Nat} {frac : Frac} :
    (deferredEvent s moved cause frac).pending = s.pending ∧
    (deferredEvent s moved cause frac).now = s.now ∧
    (deferredEvent s moved cause frac).regs = s.regs ∧
    (deferredEvent s moved cause frac).fr = s.fr ∧
    (deferredEvent s moved cause frac).mx = s.mx ∧
    (deferredEvent s moved cause frac).fx = s.fx ∧
    (deferredEvent s moved cause frac).ps = s.ps ∧
    (deferredEvent s moved cause frac).sp = s.sp ∧
    (deferredEvent s moved cause frac).ai = s.ai ∧
    (deferredEvent s moved cause frac).aq = s.aq ∧
    (deferredEvent s moved cause frac).dp = s.dp ∧
    (deferredEvent s moved cause frac).ck = s.ck ∧
    (deferredEvent s moved cause frac).sc = s.sc ∧
    (deferredEvent s moved cause frac).st = s.st ∧
    (deferredEvent s moved cause frac).sv = s.sv ∧
    (deferredEvent s moved cause frac).pd = s.pd ∧
    (deferredEvent s moved cause frac).ct = s.ct ∧
    (deferredEvent s moved cause frac).pl = s.pl ∧
    (deferredEvent s moved cause frac).vc = s.vc ∧
    (deferredEvent s moved cause frac).hl.locked = s.hl.locked := by
  unfold Machine.deferredEvent; first | (simp; done) | ((repeat' split) <;> simp; done) | (dsimp only; (repeat' split) <;> simp; done)
@[simp] theorem captureHolds_keeps {s : State} :
    (captureHolds s).pending = s.pending ∧
    (captureHolds s).now = s.now ∧
    (captureHolds s).regs = s.regs ∧
    (captureHolds s).fx = s.fx ∧
    (captureHolds s).ps = s.ps ∧
    (captureHolds s).sp = s.sp ∧
    (captureHolds s).ai = s.ai ∧
    (captureHolds s).aq = s.aq ∧
    (captureHolds s).dp = s.dp ∧
    (captureHolds s).ck = s.ck ∧
    (captureHolds s).sc = s.sc ∧
    (captureHolds s).st = s.st ∧
    (captureHolds s).sv = s.sv ∧
    (captureHolds s).pd = s.pd ∧
    (captureHolds s).ct = s.ct ∧
    (captureHolds s).vc = s.vc ∧
    (captureHolds s).fr.fn = s.fr.fn ∧
    (captureHolds s).fr.next = s.fr.next ∧
    (captureHolds s).fr.running = s.fr.running ∧
    (captureHolds s).hl.locked = s.hl.locked := by
  unfold Machine.captureHolds; first | (simp; done) | ((repeat' split) <;> simp; done) | (dsimp only; (repeat' split) <;> simp; done)
@[simp] theorem applyGen_keeps {s : State} {g : Nat} {w : Word} :
    (applyGen s g w).pending = s.pending ∧
    (applyGen s g w).now = s.now ∧
    (applyGen s g w).out = s.out ∧
    (applyGen s g w).fr = s.fr ∧
    (applyGen s g w).fx = s.fx ∧
    (applyGen s g w).ps = s.ps ∧
    (applyGen s g w).sp = s.sp ∧
    (applyGen s g w).ai = s.ai ∧
    (applyGen s g w).aq = s.aq ∧
    (applyGen s g w).dp = s.dp ∧
    (applyGen s g w).ck = s.ck ∧
    (applyGen s g w).sc = s.sc ∧
    (applyGen s g w).hl = s.hl ∧
    (applyGen s g w).st = s.st ∧
    (applyGen s g w).tw = s.tw ∧
    (applyGen s g w).sv = s.sv ∧
    (applyGen s g w).pd = s.pd ∧
    (applyGen s g w).ct = s.ct ∧
    (applyGen s g w).pl = s.pl ∧
    (applyGen s g w).vc = s.vc := by
  unfold Machine.applyGen; first | (simp; done) | ((repeat' split) <;> simp; done) | (dsimp only; (repeat' split) <;> simp; done)
@[simp] theorem applyReg_keeps {s : State} {late : List (Nat × Bool)} {n : RegName} {i : Nat} {v : Word} {w : Word} :
    (applyReg s late n i v w).pending = s.pending ∧
    (applyReg s late n i v w).now = s.now ∧
    (applyReg s late n i v w).fr = s.fr ∧
    (applyReg s late n i v w).sc = s.sc ∧
    (applyReg s late n i v w).st = s.st ∧
    (applyReg s late n i v w).sv = s.sv ∧
    (applyReg s late n i v w).pd = s.pd ∧
    (applyReg s late n i v w).ct = s.ct ∧
    (applyReg s late n i v w).pl = s.pl ∧
    (applyReg s late n i v w).vc = s.vc ∧
    (applyReg s late n i v w).hl.locked = s.hl.locked := by
  unfold Machine.applyReg; first | (simp; done) | ((repeat' split) <;> simp; done) | (dsimp only; (repeat' split) <;> simp; done)
@[simp] theorem overtake_keeps {a : State × List Written} {m : Written} :
    (overtake a m).1.pending = a.1.pending ∧
    (overtake a m).1.now = a.1.now ∧
    (overtake a m).1.regs = a.1.regs ∧
    (overtake a m).1.fr = a.1.fr ∧
    (overtake a m).1.mx = a.1.mx ∧
    (overtake a m).1.fx = a.1.fx ∧
    (overtake a m).1.ps = a.1.ps ∧
    (overtake a m).1.sp = a.1.sp ∧
    (overtake a m).1.ai = a.1.ai ∧
    (overtake a m).1.aq = a.1.aq ∧
    (overtake a m).1.dp = a.1.dp ∧
    (overtake a m).1.ck = a.1.ck ∧
    (overtake a m).1.sc = a.1.sc ∧
    (overtake a m).1.st = a.1.st ∧
    (overtake a m).1.sv = a.1.sv ∧
    (overtake a m).1.pd = a.1.pd ∧
    (overtake a m).1.ct = a.1.ct ∧
    (overtake a m).1.pl = a.1.pl ∧
    (overtake a m).1.vc = a.1.vc ∧
    (overtake a m).1.hl.locked = a.1.hl.locked := by
  unfold Machine.overtake; first | (simp; done) | ((repeat' split) <;> simp; done) | (dsimp only; (repeat' split) <;> simp; done)
@[simp] theorem regTurn_keeps {late : List (Nat × Bool)} {a : State × List Written} {i : Staged} :
    (regTurn late a i).1.pending = a.1.pending ∧
    (regTurn late a i).1.now = a.1.now ∧
    (regTurn late a i).1.fr = a.1.fr ∧
    (regTurn late a i).1.sc = a.1.sc ∧
    (regTurn late a i).1.st = a.1.st ∧
    (regTurn late a i).1.sv = a.1.sv ∧
    (regTurn late a i).1.pd = a.1.pd ∧
    (regTurn late a i).1.ct = a.1.ct ∧
    (regTurn late a i).1.pl = a.1.pl ∧
    (regTurn late a i).1.vc = a.1.vc ∧
    (regTurn late a i).1.hl.locked = a.1.hl.locked := by
  unfold Machine.regTurn; first | (simp; done) | ((repeat' split) <;> simp; done) | (dsimp only; (repeat' split) <;> simp; done)
@[simp] theorem applyRegs_keeps {s : State} {late : List (Nat × Bool)} {p : Nat → Bool} :
    (applyRegs s late p).pending = s.pending ∧
    (applyRegs s late p).now = s.now ∧
    (applyRegs s late p).sc = s.sc ∧
    (applyRegs s late p).st = s.st ∧
    (applyRegs s late p).sv = s.sv ∧
    (applyRegs s late p).pd = s.pd ∧
    (applyRegs s late p).ct = s.ct ∧
    (applyRegs s late p).pl = s.pl ∧
    (applyRegs s late p).vc = s.vc ∧
    (applyRegs s late p).fr.fn = s.fr.fn ∧
    (applyRegs s late p).fr.next = s.fr.next ∧
    (applyRegs s late p).fr.running = s.fr.running ∧
    (applyRegs s late p).hl.locked = s.hl.locked := by
  unfold Machine.applyRegs; first | (simp; done) | ((repeat' split) <;> simp; done) | (dsimp only; (repeat' split) <;> simp; done)
@[simp] theorem stepItem_keeps {a : State × StepOne} {i : Staged} :
    (stepItem a i).1.pending = a.1.pending ∧
    (stepItem a i).1.now = a.1.now ∧
    (stepItem a i).1.regs = a.1.regs ∧
    (stepItem a i).1.ai = a.1.ai ∧
    (stepItem a i).1.sc = a.1.sc ∧
    (stepItem a i).1.st = a.1.st ∧
    (stepItem a i).1.sv = a.1.sv ∧
    (stepItem a i).1.pd = a.1.pd ∧
    (stepItem a i).1.ct = a.1.ct ∧
    (stepItem a i).1.vc = a.1.vc ∧
    (stepItem a i).1.fr.fn = a.1.fr.fn ∧
    (stepItem a i).1.fr.next = a.1.fr.next ∧
    (stepItem a i).1.hl.locked = a.1.hl.locked := by
  unfold Machine.stepItem; first | (simp; done) | ((repeat' split) <;> simp; done) | (dsimp only; (repeat' split) <;> simp; done)
@[simp] theorem enterReturned_keeps {s : State} :
    (enterReturned s).pending = s.pending ∧
    (enterReturned s).now = s.now ∧
    (enterReturned s).out = s.out ∧
    (enterReturned s).regs = s.regs ∧
    (enterReturned s).fr = s.fr ∧
    (enterReturned s).ps = s.ps ∧
    (enterReturned s).sp = s.sp ∧
    (enterReturned s).ai = s.ai ∧
    (enterReturned s).aq = s.aq ∧
    (enterReturned s).dp = s.dp ∧
    (enterReturned s).ck = s.ck ∧
    (enterReturned s).sc = s.sc ∧
    (enterReturned s).hl = s.hl ∧
    (enterReturned s).st = s.st ∧
    (enterReturned s).tw = s.tw ∧
    (enterReturned s).sv = s.sv ∧
    (enterReturned s).pd = s.pd ∧
    (enterReturned s).ct = s.ct ∧
    (enterReturned s).pl = s.pl ∧
    (enterReturned s).vc = s.vc := by
  unfold Machine.enterReturned; first | (simp; done) | ((repeat' split) <;> simp; done) | (dsimp only; (repeat' split) <;> simp; done)
@[simp] theorem stepOne_keeps {s : State} :
    (stepOne s).1.pending = s.pending ∧
    (stepOne s).1.now = s.now ∧
    (stepOne s).1.regs = s.regs ∧
    (stepOne s).1.ai = s.ai ∧
    (stepOne s).1.sc = s.sc ∧
    (stepOne s).1.st = s.st ∧
    (stepOne s).1.sv = s.sv ∧
    (stepOne s).1.pd = s.pd ∧
    (stepOne s).1.ct = s.ct ∧
    (stepOne s).1.vc = s.vc ∧
    (stepOne s).1.fr.fn = s.fr.fn ∧
    (stepOne s).1.fr.next = s.fr.next ∧
    (stepOne s).1.hl.locked = s.hl.locked := by
  unfold Machine.stepOne; first | (simp; done) | ((repeat' split) <;> simp; done) | (dsimp only; (repeat' split) <;> simp; done)
@[simp] theorem stepTwo_keeps {s : State} {fell : Bool} {bad : List Damage} :
    (stepTwo s fell bad).1.pending = s.pending ∧
    (stepTwo s fell bad).1.now = s.now ∧
    (stepTwo s fell bad).1.out = s.out ∧
    (stepTwo s fell bad).1.regs = s.regs ∧
    (stepTwo s fell bad).1.fr = s.fr ∧
    (stepTwo s fell bad).1.fx = s.fx ∧
    (stepTwo s fell bad).1.ps = s.ps ∧
    (stepTwo s fell bad).1.sp = s.sp ∧
    (stepTwo s fell bad).1.ai = s.ai ∧
    (stepTwo s fell bad).1.aq = s.aq ∧
    (stepTwo s fell bad).1.dp = s.dp ∧
    (stepTwo s fell bad).1.ck = s.ck ∧
    (stepTwo s fell bad).1.sc = s.sc ∧
    (stepTwo s fell bad).1.hl = s.hl ∧
    (stepTwo s fell bad).1.st = s.st ∧
    (stepTwo s fell bad).1.tw = s.tw ∧
    (stepTwo s fell bad).1.sv = s.sv ∧
    (stepTwo s fell bad).1.pd = s.pd ∧
    (stepTwo s fell bad).1.ct = s.ct ∧
    (stepTwo s fell bad).1.vc = s.vc := by
  unfold Machine.stepTwo; first | (simp; done) | ((repeat' split) <;> simp; done) | (dsimp only; (repeat' split) <;> simp; done)
@[simp] theorem stepFour_keeps {s : State} {fell : Bool} :
    (stepFour s fell).1.pending = s.pending ∧
    (stepFour s fell).1.now = s.now ∧
    (stepFour s fell).1.out = s.out ∧
    (stepFour s fell).1.regs = s.regs ∧
    (stepFour s fell).1.fr = s.fr ∧
    (stepFour s fell).1.fx = s.fx ∧
    (stepFour s fell).1.ps = s.ps ∧
    (stepFour s fell).1.sp = s.sp ∧
    (stepFour s fell).1.ai = s.ai ∧
    (stepFour s fell).1.aq = s.aq ∧
    (stepFour s fell).1.dp = s.dp ∧
    (stepFour s fell).1.ck = s.ck ∧
    (stepFour s fell).1.sc = s.sc ∧
    (stepFour s fell).1.hl = s.hl ∧
    (stepFour s fell).1.st = s.st ∧
    (stepFour s fell).1.tw = s.tw ∧
    (stepFour s fell).1.sv = s.sv ∧
    (stepFour s fell).1.pd = s.pd ∧
    (stepFour s fell).1.ct = s.ct ∧
    (stepFour s fell).1.vc = s.vc := by
  unfold Machine.stepFour; first | (simp; done) | ((repeat' split) <;> simp; done) | (dsimp only; (repeat' split) <;> simp; done)
@[simp] theorem sceneParams_keeps {s : State} {c : Commit} :
    (sceneParams s c).pending = s.pending ∧
    (sceneParams s c).now = s.now ∧
    (sceneParams s c).out = s.out ∧
    (sceneParams s c).regs = s.regs ∧
    (sceneParams s c).mx = s.mx ∧
    (sceneParams s c).fx = s.fx ∧
    (sceneParams s c).ps = s.ps ∧
    (sceneParams s c).sp = s.sp ∧
    (sceneParams s c).ai = s.ai ∧
    (sceneParams s c).aq = s.aq ∧
    (sceneParams s c).dp = s.dp ∧
    (sceneParams s c).ck = s.ck ∧
    (sceneParams s c).sc = s.sc ∧
    (sceneParams s c).hl = s.hl ∧
    (sceneParams s c).st = s.st ∧
    (sceneParams s c).tw = s.tw ∧
    (sceneParams s c).sv = s.sv ∧
    (sceneParams s c).pd = s.pd ∧
    (sceneParams s c).ct = s.ct ∧
    (sceneParams s c).pl = s.pl ∧
    (sceneParams s c).vc = s.vc ∧
    (sceneParams s c).fr.fn = s.fr.fn ∧
    (sceneParams s c).fr.next = s.fr.next ∧
    (sceneParams s c).fr.running = s.fr.running := by
  unfold Machine.sceneParams; first | (simp; done) | ((repeat' split) <;> simp; done) | (dsimp only; (repeat' split) <;> simp; done)
@[simp] theorem headEvents_keeps {s : State} {o : StepOne} {d : HeadDone} :
    (headEvents s o d).pending = s.pending ∧
    (headEvents s o d).now = s.now ∧
    (headEvents s o d).regs = s.regs ∧
    (headEvents s o d).mx = s.mx ∧
    (headEvents s o d).fx = s.fx ∧
    (headEvents s o d).ps = s.ps ∧
    (headEvents s o d).sp = s.sp ∧
    (headEvents s o d).ai = s.ai ∧
    (headEvents s o d).aq = s.aq ∧
    (headEvents s o d).dp = s.dp ∧
    (headEvents s o d).ck = s.ck ∧
    (headEvents s o d).sc = s.sc ∧
    (headEvents s o d).st = s.st ∧
    (headEvents s o d).sv = s.sv ∧
    (headEvents s o d).pd = s.pd ∧
    (headEvents s o d).ct = s.ct ∧
    (headEvents s o d).pl = s.pl ∧
    (headEvents s o d).vc = s.vc ∧
    (headEvents s o d).fr.fn = s.fr.fn ∧
    (headEvents s o d).fr.next = s.fr.next ∧
    (headEvents s o d).fr.running = s.fr.running ∧
    (headEvents s o d).hl.locked = s.hl.locked := by
  unfold Machine.headEvents; first | (simp; done) | ((repeat' split) <;> simp; done) | (dsimp only; (repeat' split) <;> simp; done)
@[simp] theorem mixBoundary_keeps {s : State} {late : List (Nat × Bool)} {bad : List Damage} :
    (mixBoundary s late bad).1.pending = s.pending ∧
    (mixBoundary s late bad).1.now = s.now ∧
    (mixBoundary s late bad).1.sc = s.sc ∧
    (mixBoundary s late bad).1.st = s.st ∧
    (mixBoundary s late bad).1.sv = s.sv ∧
    (mixBoundary s late bad).1.pd = s.pd ∧
    (mixBoundary s late bad).1.ct = s.ct ∧
    (mixBoundary s late bad).1.vc = s.vc ∧
    (mixBoundary s late bad).1.fr.fn = s.fr.fn ∧
    (mixBoundary s late bad).1.fr.next = s.fr.next ∧
    (mixBoundary s late bad).1.hl.locked = s.hl.locked := by
  unfold Machine.mixBoundary; first | (simp; done) | ((repeat' split) <;> simp; done) | (dsimp only; (repeat' split) <;> simp; done)
@[simp] theorem cmdTurn_pending {f : State → Staged → State} {a : State × List Written} {i : Staged}
    (h : ∀ t i, (f t i).pending = t.pending) : (cmdTurn f a i).1.pending = a.1.pending := by
  unfold cmdTurn; simp [h]
@[simp] theorem cmdTurn_now {f : State → Staged → State} {a : State × List Written} {i : Staged}
    (h : ∀ t i, (f t i).now = t.now) : (cmdTurn f a i).1.now = a.1.now := by
  unfold cmdTurn; simp [h]
@[simp] theorem cmdTurn_regs {f : State → Staged → State} {a : State × List Written} {i : Staged}
    (h : ∀ t i, (f t i).regs = t.regs) : (cmdTurn f a i).1.regs = a.1.regs := by
  unfold cmdTurn; simp [h]
@[simp] theorem cmdTurn_fr {f : State → Staged → State} {a : State × List Written} {i : Staged}
    (h : ∀ t i, (f t i).fr = t.fr) : (cmdTurn f a i).1.fr = a.1.fr := by
  unfold cmdTurn; simp [h]
@[simp] theorem cmdTurn_mx {f : State → Staged → State} {a : State × List Written} {i : Staged}
    (h : ∀ t i, (f t i).mx = t.mx) : (cmdTurn f a i).1.mx = a.1.mx := by
  unfold cmdTurn; simp [h]
@[simp] theorem cmdTurn_fx {f : State → Staged → State} {a : State × List Written} {i : Staged}
    (h : ∀ t i, (f t i).fx = t.fx) : (cmdTurn f a i).1.fx = a.1.fx := by
  unfold cmdTurn; simp [h]
@[simp] theorem cmdTurn_ps {f : State → Staged → State} {a : State × List Written} {i : Staged}
    (h : ∀ t i, (f t i).ps = t.ps) : (cmdTurn f a i).1.ps = a.1.ps := by
  unfold cmdTurn; simp [h]
@[simp] theorem cmdTurn_sp {f : State → Staged → State} {a : State × List Written} {i : Staged}
    (h : ∀ t i, (f t i).sp = t.sp) : (cmdTurn f a i).1.sp = a.1.sp := by
  unfold cmdTurn; simp [h]
@[simp] theorem cmdTurn_ai {f : State → Staged → State} {a : State × List Written} {i : Staged}
    (h : ∀ t i, (f t i).ai = t.ai) : (cmdTurn f a i).1.ai = a.1.ai := by
  unfold cmdTurn; simp [h]
@[simp] theorem cmdTurn_aq {f : State → Staged → State} {a : State × List Written} {i : Staged}
    (h : ∀ t i, (f t i).aq = t.aq) : (cmdTurn f a i).1.aq = a.1.aq := by
  unfold cmdTurn; simp [h]
@[simp] theorem cmdTurn_dp {f : State → Staged → State} {a : State × List Written} {i : Staged}
    (h : ∀ t i, (f t i).dp = t.dp) : (cmdTurn f a i).1.dp = a.1.dp := by
  unfold cmdTurn; simp [h]
@[simp] theorem cmdTurn_ck {f : State → Staged → State} {a : State × List Written} {i : Staged}
    (h : ∀ t i, (f t i).ck = t.ck) : (cmdTurn f a i).1.ck = a.1.ck := by
  unfold cmdTurn; simp [h]
@[simp] theorem cmdTurn_sc {f : State → Staged → State} {a : State × List Written} {i : Staged}
    (h : ∀ t i, (f t i).sc = t.sc) : (cmdTurn f a i).1.sc = a.1.sc := by
  unfold cmdTurn; simp [h]
@[simp] theorem cmdTurn_st {f : State → Staged → State} {a : State × List Written} {i : Staged}
    (h : ∀ t i, (f t i).st = t.st) : (cmdTurn f a i).1.st = a.1.st := by
  unfold cmdTurn; simp [h]
@[simp] theorem cmdTurn_sv {f : State → Staged → State} {a : State × List Written} {i : Staged}
    (h : ∀ t i, (f t i).sv = t.sv) : (cmdTurn f a i).1.sv = a.1.sv := by
  unfold cmdTurn; simp [h]
@[simp] theorem cmdTurn_pd {f : State → Staged → State} {a : State × List Written} {i : Staged}
    (h : ∀ t i, (f t i).pd = t.pd) : (cmdTurn f a i).1.pd = a.1.pd := by
  unfold cmdTurn; simp [h]
@[simp] theorem cmdTurn_ct {f : State → Staged → State} {a : State × List Written} {i : Staged}
    (h : ∀ t i, (f t i).ct = t.ct) : (cmdTurn f a i).1.ct = a.1.ct := by
  unfold cmdTurn; simp [h]
@[simp] theorem cmdTurn_pl {f : State → Staged → State} {a : State × List Written} {i : Staged}
    (h : ∀ t i, (f t i).pl = t.pl) : (cmdTurn f a i).1.pl = a.1.pl := by
  unfold cmdTurn; simp [h]
@[simp] theorem cmdTurn_vc {f : State → Staged → State} {a : State × List Written} {i : Staged}
    (h : ∀ t i, (f t i).vc = t.vc) : (cmdTurn f a i).1.vc = a.1.vc := by
  unfold cmdTurn; simp [h]
@[simp] theorem cmdTurn_hl_locked {f : State → Staged → State} {a : State × List Written} {i : Staged}
    (h : ∀ t i, (f t i).hl.locked = t.hl.locked) : (cmdTurn f a i).1.hl.locked = a.1.hl.locked := by
  unfold cmdTurn; simp [h]
@[simp] theorem cmdTurn_fr_fn {f : State → Staged → State} {a : State × List Written} {i : Staged}
    (h : ∀ t i, (f t i).fr.fn = t.fr.fn) : (cmdTurn f a i).1.fr.fn = a.1.fr.fn := by
  unfold cmdTurn; simp [h]
@[simp] theorem cmdTurn_fr_next {f : State → Staged → State} {a : State × List Written} {i : Staged}
    (h : ∀ t i, (f t i).fr.next = t.fr.next) : (cmdTurn f a i).1.fr.next = a.1.fr.next := by
  unfold cmdTurn; simp [h]
@[simp] theorem cmdTurn_fr_running {f : State → Staged → State} {a : State × List Written} {i : Staged}
    (h : ∀ t i, (f t i).fr.running = t.fr.running) : (cmdTurn f a i).1.fr.running = a.1.fr.running := by
  unfold cmdTurn; simp [h]
@[simp] theorem applyCmds_pending {s : State} {p : Item → Bool} {f : State → Staged → State}
    (h : ∀ t i, (f t i).pending = t.pending) : (applyCmds s p f).1.pending = s.pending := by
  unfold applyCmds; simp [h]
@[simp] theorem applyCmds_now {s : State} {p : Item → Bool} {f : State → Staged → State}
    (h : ∀ t i, (f t i).now = t.now) : (applyCmds s p f).1.now = s.now := by
  unfold applyCmds; simp [h]
@[simp] theorem applyCmds_regs {s : State} {p : Item → Bool} {f : State → Staged → State}
    (h : ∀ t i, (f t i).regs = t.regs) : (applyCmds s p f).1.regs = s.regs := by
  unfold applyCmds; simp [h]
@[simp] theorem applyCmds_mx {s : State} {p : Item → Bool} {f : State → Staged → State}
    (h : ∀ t i, (f t i).mx = t.mx) : (applyCmds s p f).1.mx = s.mx := by
  unfold applyCmds; simp [h]
@[simp] theorem applyCmds_fx {s : State} {p : Item → Bool} {f : State → Staged → State}
    (h : ∀ t i, (f t i).fx = t.fx) : (applyCmds s p f).1.fx = s.fx := by
  unfold applyCmds; simp [h]
@[simp] theorem applyCmds_ps {s : State} {p : Item → Bool} {f : State → Staged → State}
    (h : ∀ t i, (f t i).ps = t.ps) : (applyCmds s p f).1.ps = s.ps := by
  unfold applyCmds; simp [h]
@[simp] theorem applyCmds_sp {s : State} {p : Item → Bool} {f : State → Staged → State}
    (h : ∀ t i, (f t i).sp = t.sp) : (applyCmds s p f).1.sp = s.sp := by
  unfold applyCmds; simp [h]
@[simp] theorem applyCmds_ai {s : State} {p : Item → Bool} {f : State → Staged → State}
    (h : ∀ t i, (f t i).ai = t.ai) : (applyCmds s p f).1.ai = s.ai := by
  unfold applyCmds; simp [h]
@[simp] theorem applyCmds_aq {s : State} {p : Item → Bool} {f : State → Staged → State}
    (h : ∀ t i, (f t i).aq = t.aq) : (applyCmds s p f).1.aq = s.aq := by
  unfold applyCmds; simp [h]
@[simp] theorem applyCmds_dp {s : State} {p : Item → Bool} {f : State → Staged → State}
    (h : ∀ t i, (f t i).dp = t.dp) : (applyCmds s p f).1.dp = s.dp := by
  unfold applyCmds; simp [h]
@[simp] theorem applyCmds_ck {s : State} {p : Item → Bool} {f : State → Staged → State}
    (h : ∀ t i, (f t i).ck = t.ck) : (applyCmds s p f).1.ck = s.ck := by
  unfold applyCmds; simp [h]
@[simp] theorem applyCmds_sc {s : State} {p : Item → Bool} {f : State → Staged → State}
    (h : ∀ t i, (f t i).sc = t.sc) : (applyCmds s p f).1.sc = s.sc := by
  unfold applyCmds; simp [h]
@[simp] theorem applyCmds_st {s : State} {p : Item → Bool} {f : State → Staged → State}
    (h : ∀ t i, (f t i).st = t.st) : (applyCmds s p f).1.st = s.st := by
  unfold applyCmds; simp [h]
@[simp] theorem applyCmds_sv {s : State} {p : Item → Bool} {f : State → Staged → State}
    (h : ∀ t i, (f t i).sv = t.sv) : (applyCmds s p f).1.sv = s.sv := by
  unfold applyCmds; simp [h]
@[simp] theorem applyCmds_pd {s : State} {p : Item → Bool} {f : State → Staged → State}
    (h : ∀ t i, (f t i).pd = t.pd) : (applyCmds s p f).1.pd = s.pd := by
  unfold applyCmds; simp [h]
@[simp] theorem applyCmds_ct {s : State} {p : Item → Bool} {f : State → Staged → State}
    (h : ∀ t i, (f t i).ct = t.ct) : (applyCmds s p f).1.ct = s.ct := by
  unfold applyCmds; simp [h]
@[simp] theorem applyCmds_pl {s : State} {p : Item → Bool} {f : State → Staged → State}
    (h : ∀ t i, (f t i).pl = t.pl) : (applyCmds s p f).1.pl = s.pl := by
  unfold applyCmds; simp [h]
@[simp] theorem applyCmds_vc {s : State} {p : Item → Bool} {f : State → Staged → State}
    (h : ∀ t i, (f t i).vc = t.vc) : (applyCmds s p f).1.vc = s.vc := by
  unfold applyCmds; simp [h]
@[simp] theorem applyCmds_fr_fn {s : State} {p : Item → Bool} {f : State → Staged → State}
    (h : ∀ t i, (f t i).fr.fn = t.fr.fn) : (applyCmds s p f).1.fr.fn = s.fr.fn := by
  unfold applyCmds; simp [h]
@[simp] theorem applyCmds_fr_next {s : State} {p : Item → Bool} {f : State → Staged → State}
    (h : ∀ t i, (f t i).fr.next = t.fr.next) : (applyCmds s p f).1.fr.next = s.fr.next := by
  unfold applyCmds; simp [h]
@[simp] theorem applyCmds_fr_running {s : State} {p : Item → Bool} {f : State → Staged → State}
    (h : ∀ t i, (f t i).fr.running = t.fr.running) : (applyCmds s p f).1.fr.running = s.fr.running := by
  unfold applyCmds; simp [h]
@[simp] theorem applyCmds_hl_locked {s : State} {p : Item → Bool} {f : State → Staged → State}
    (h : ∀ t i, (f t i).hl.locked = t.hl.locked) : (applyCmds s p f).1.hl.locked = s.hl.locked := by
  unfold applyCmds; simp [h]
@[simp] theorem applyEngineItem_keeps {s : State} {i : Staged} :
    (applyEngineItem s i).pending = s.pending ∧
    (applyEngineItem s i).now = s.now ∧
    (applyEngineItem s i).ps = s.ps ∧
    (applyEngineItem s i).sp = s.sp ∧
    (applyEngineItem s i).ai = s.ai ∧
    (applyEngineItem s i).aq = s.aq ∧
    (applyEngineItem s i).dp = s.dp ∧
    (applyEngineItem s i).ck = s.ck ∧
    (applyEngineItem s i).sc = s.sc ∧
    (applyEngineItem s i).st = s.st ∧
    (applyEngineItem s i).sv = s.sv ∧
    (applyEngineItem s i).pd = s.pd ∧
    (applyEngineItem s i).ct = s.ct ∧
    (applyEngineItem s i).vc = s.vc ∧
    (applyEngineItem s i).fr.fn = s.fr.fn ∧
    (applyEngineItem s i).fr.next = s.fr.next ∧
    (applyEngineItem s i).fr.running = s.fr.running ∧
    (applyEngineItem s i).hl.locked = s.hl.locked := by
  unfold Machine.applyEngineItem; first | (simp; done) | ((repeat' split) <;> simp; done) | (dsimp only; (repeat' split) <;> simp; done)
@[simp] theorem paramsTurn_keeps {a : State × List (Nat × Nat × Owner)} {i : Staged} :
    (paramsTurn a i).1.pending = a.1.pending ∧
    (paramsTurn a i).1.now = a.1.now ∧
    (paramsTurn a i).1.regs = a.1.regs ∧
    (paramsTurn a i).1.fr = a.1.fr ∧
    (paramsTurn a i).1.mx = a.1.mx ∧
    (paramsTurn a i).1.ps = a.1.ps ∧
    (paramsTurn a i).1.sp = a.1.sp ∧
    (paramsTurn a i).1.ai = a.1.ai ∧
    (paramsTurn a i).1.aq = a.1.aq ∧
    (paramsTurn a i).1.dp = a.1.dp ∧
    (paramsTurn a i).1.ck = a.1.ck ∧
    (paramsTurn a i).1.sc = a.1.sc ∧
    (paramsTurn a i).1.st = a.1.st ∧
    (paramsTurn a i).1.sv = a.1.sv ∧
    (paramsTurn a i).1.pd = a.1.pd ∧
    (paramsTurn a i).1.ct = a.1.ct ∧
    (paramsTurn a i).1.pl = a.1.pl ∧
    (paramsTurn a i).1.vc = a.1.vc ∧
    (paramsTurn a i).1.hl.locked = a.1.hl.locked := by
  unfold Machine.paramsTurn; first | (simp; done) | ((repeat' split) <;> simp; done) | (dsimp only; (repeat' split) <;> simp; done)
@[simp] theorem applyAllParams_keeps {s : State} :
    (applyAllParams s).pending = s.pending ∧
    (applyAllParams s).now = s.now ∧
    (applyAllParams s).regs = s.regs ∧
    (applyAllParams s).mx = s.mx ∧
    (applyAllParams s).ps = s.ps ∧
    (applyAllParams s).sp = s.sp ∧
    (applyAllParams s).ai = s.ai ∧
    (applyAllParams s).aq = s.aq ∧
    (applyAllParams s).dp = s.dp ∧
    (applyAllParams s).ck = s.ck ∧
    (applyAllParams s).sc = s.sc ∧
    (applyAllParams s).st = s.st ∧
    (applyAllParams s).sv = s.sv ∧
    (applyAllParams s).pd = s.pd ∧
    (applyAllParams s).ct = s.ct ∧
    (applyAllParams s).pl = s.pl ∧
    (applyAllParams s).vc = s.vc ∧
    (applyAllParams s).fr.fn = s.fr.fn ∧
    (applyAllParams s).fr.next = s.fr.next ∧
    (applyAllParams s).fr.running = s.fr.running ∧
    (applyAllParams s).hl.locked = s.hl.locked := by
  unfold Machine.applyAllParams; first | (simp; done) | ((repeat' split) <;> simp; done) | (dsimp only; (repeat' split) <;> simp; done)
@[simp] theorem engineBoundary_keeps {s : State} {late : List (Nat × Bool)} {scene : Option SceneRef} :
    (engineBoundary s late scene).pending = s.pending ∧
    (engineBoundary s late scene).now = s.now ∧
    (engineBoundary s late scene).sc = s.sc ∧
    (engineBoundary s late scene).st = s.st ∧
    (engineBoundary s late scene).sv = s.sv ∧
    (engineBoundary s late scene).pd = s.pd ∧
    (engineBoundary s late scene).ct = s.ct ∧
    (engineBoundary s late scene).vc = s.vc ∧
    (engineBoundary s late scene).fr.fn = s.fr.fn ∧
    (engineBoundary s late scene).fr.next = s.fr.next ∧
    (engineBoundary s late scene).fr.running = s.fr.running ∧
    (engineBoundary s late scene).hl.locked = s.hl.locked := by
  unfold Machine.engineBoundary; first | (simp; done) | ((repeat' split) <;> simp; done) | (dsimp only; (repeat' split) <;> simp; done)
@[simp] theorem applyEnvItem_keeps {s : State} {i : Staged} :
    (applyEnvItem s i).pending = s.pending ∧
    (applyEnvItem s i).now = s.now ∧
    (applyEnvItem s i).fr = s.fr ∧
    (applyEnvItem s i).mx = s.mx ∧
    (applyEnvItem s i).fx = s.fx ∧
    (applyEnvItem s i).ai = s.ai ∧
    (applyEnvItem s i).aq = s.aq ∧
    (applyEnvItem s i).dp = s.dp ∧
    (applyEnvItem s i).sc = s.sc ∧
    (applyEnvItem s i).st = s.st ∧
    (applyEnvItem s i).sv = s.sv ∧
    (applyEnvItem s i).pd = s.pd ∧
    (applyEnvItem s i).ct = s.ct ∧
    (applyEnvItem s i).pl = s.pl ∧
    (applyEnvItem s i).vc = s.vc ∧
    (applyEnvItem s i).hl.locked = s.hl.locked := by
  unfold Machine.applyEnvItem; first | (simp; done) | ((repeat' split) <;> simp; done) | (dsimp only; (repeat' split) <;> simp; done)
@[simp] theorem applyStreamItem_keeps {s : State} {i : Staged} :
    (applyStreamItem s i).pending = s.pending ∧
    (applyStreamItem s i).now = s.now ∧
    (applyStreamItem s i).fr = s.fr ∧
    (applyStreamItem s i).mx = s.mx ∧
    (applyStreamItem s i).fx = s.fx ∧
    (applyStreamItem s i).ps = s.ps ∧
    (applyStreamItem s i).sp = s.sp ∧
    (applyStreamItem s i).ai = s.ai ∧
    (applyStreamItem s i).aq = s.aq ∧
    (applyStreamItem s i).dp = s.dp ∧
    (applyStreamItem s i).ck = s.ck ∧
    (applyStreamItem s i).sc = s.sc ∧
    (applyStreamItem s i).sv = s.sv ∧
    (applyStreamItem s i).pd = s.pd ∧
    (applyStreamItem s i).ct = s.ct ∧
    (applyStreamItem s i).pl = s.pl ∧
    (applyStreamItem s i).vc = s.vc ∧
    (applyStreamItem s i).hl.locked = s.hl.locked := by
  unfold Machine.applyStreamItem; first | (simp; done) | ((repeat' split) <;> simp; done) | (dsimp only; (repeat' split) <;> simp; done)
@[simp] theorem applyDomainItem_keeps {s : State} {i : Staged} :
    (applyDomainItem s i).pending = s.pending ∧
    (applyDomainItem s i).now = s.now ∧
    (applyDomainItem s i).regs = s.regs ∧
    (applyDomainItem s i).sp = s.sp ∧
    (applyDomainItem s i).st = s.st ∧
    (applyDomainItem s i).ct = s.ct ∧
    (applyDomainItem s i).pl = s.pl ∧
    (applyDomainItem s i).vc = s.vc ∧
    (applyDomainItem s i).fr.fn = s.fr.fn ∧
    (applyDomainItem s i).fr.next = s.fr.next ∧
    (applyDomainItem s i).hl.locked = s.hl.locked := by
  unfold Machine.applyDomainItem; first | (simp; done) | ((repeat' split) <;> simp; done) | (dsimp only; (repeat' split) <;> simp; done)
@[simp] theorem followState_keeps {s : State} :
    (followState s).pending = s.pending ∧
    (followState s).now = s.now ∧
    (followState s).regs = s.regs ∧
    (followState s).fr = s.fr ∧
    (followState s).mx = s.mx ∧
    (followState s).fx = s.fx ∧
    (followState s).ps = s.ps ∧
    (followState s).sp = s.sp ∧
    (followState s).ai = s.ai ∧
    (followState s).aq = s.aq ∧
    (followState s).dp = s.dp ∧
    (followState s).ck = s.ck ∧
    (followState s).sc = s.sc ∧
    (followState s).st = s.st ∧
    (followState s).sv = s.sv ∧
    (followState s).ct = s.ct ∧
    (followState s).pl = s.pl ∧
    (followState s).vc = s.vc ∧
    (followState s).hl.locked = s.hl.locked := by
  unfold Machine.followState; first | (simp; done) | ((repeat' split) <;> simp; done) | (dsimp only; (repeat' split) <;> simp; done)
@[simp] theorem settingTurn_keeps {late : List (Nat × Bool)} {a : State × List Written} {i : Staged} :
    (settingTurn late a i).1.pending = a.1.pending ∧
    (settingTurn late a i).1.now = a.1.now ∧
    (settingTurn late a i).1.fr = a.1.fr ∧
    (settingTurn late a i).1.sc = a.1.sc ∧
    (settingTurn late a i).1.st = a.1.st ∧
    (settingTurn late a i).1.sv = a.1.sv ∧
    (settingTurn late a i).1.pd = a.1.pd ∧
    (settingTurn late a i).1.ct = a.1.ct ∧
    (settingTurn late a i).1.pl = a.1.pl ∧
    (settingTurn late a i).1.vc = a.1.vc ∧
    (settingTurn late a i).1.hl.locked = a.1.hl.locked := by
  unfold Machine.settingTurn; first | (simp; done) | ((repeat' split) <;> simp; done) | (dsimp only; (repeat' split) <;> simp; done)
@[simp] theorem settingBoundary_keeps {s : State} {late : List (Nat × Bool)} :
    (settingBoundary s late).pending = s.pending ∧
    (settingBoundary s late).now = s.now ∧
    (settingBoundary s late).sc = s.sc ∧
    (settingBoundary s late).st = s.st ∧
    (settingBoundary s late).sv = s.sv ∧
    (settingBoundary s late).pd = s.pd ∧
    (settingBoundary s late).ct = s.ct ∧
    (settingBoundary s late).pl = s.pl ∧
    (settingBoundary s late).vc = s.vc ∧
    (settingBoundary s late).fr.fn = s.fr.fn ∧
    (settingBoundary s late).fr.next = s.fr.next ∧
    (settingBoundary s late).fr.running = s.fr.running ∧
    (settingBoundary s late).hl.locked = s.hl.locked := by
  unfold Machine.settingBoundary; first | (simp; done) | ((repeat' split) <;> simp; done) | (dsimp only; (repeat' split) <;> simp; done)
@[simp] theorem streamBoundary_keeps {s : State} :
    (streamBoundary s).pending = s.pending ∧
    (streamBoundary s).now = s.now ∧
    (streamBoundary s).mx = s.mx ∧
    (streamBoundary s).fx = s.fx ∧
    (streamBoundary s).ps = s.ps ∧
    (streamBoundary s).sp = s.sp ∧
    (streamBoundary s).ai = s.ai ∧
    (streamBoundary s).aq = s.aq ∧
    (streamBoundary s).dp = s.dp ∧
    (streamBoundary s).ck = s.ck ∧
    (streamBoundary s).sc = s.sc ∧
    (streamBoundary s).sv = s.sv ∧
    (streamBoundary s).pd = s.pd ∧
    (streamBoundary s).ct = s.ct ∧
    (streamBoundary s).pl = s.pl ∧
    (streamBoundary s).vc = s.vc ∧
    (streamBoundary s).fr.fn = s.fr.fn ∧
    (streamBoundary s).fr.next = s.fr.next ∧
    (streamBoundary s).fr.running = s.fr.running ∧
    (streamBoundary s).hl.locked = s.hl.locked := by
  unfold Machine.streamBoundary; first | (simp; done) | ((repeat' split) <;> simp; done) | (dsimp only; (repeat' split) <;> simp; done)
@[simp] theorem followBoundary_keeps {s : State} :
    (followBoundary s).pending = s.pending ∧
    (followBoundary s).now = s.now ∧
    (followBoundary s).sp = s.sp ∧
    (followBoundary s).ct = s.ct ∧
    (followBoundary s).pl = s.pl ∧
    (followBoundary s).vc = s.vc ∧
    (followBoundary s).fr.fn = s.fr.fn ∧
    (followBoundary s).fr.next = s.fr.next ∧
    (followBoundary s).hl.locked = s.hl.locked := by
  unfold Machine.followBoundary; first | (simp; done) | ((repeat' split) <;> simp; done) | (dsimp only; (repeat' split) <;> simp; done)
@[simp] theorem decideLoss_keeps {s : State} :
    (decideLoss s).pending = s.pending ∧
    (decideLoss s).now = s.now ∧
    (decideLoss s).regs = s.regs ∧
    (decideLoss s).fr = s.fr ∧
    (decideLoss s).mx = s.mx ∧
    (decideLoss s).fx = s.fx ∧
    (decideLoss s).ps = s.ps ∧
    (decideLoss s).ai = s.ai ∧
    (decideLoss s).aq = s.aq ∧
    (decideLoss s).dp = s.dp ∧
    (decideLoss s).ck = s.ck ∧
    (decideLoss s).sc = s.sc ∧
    (decideLoss s).st = s.st ∧
    (decideLoss s).sv = s.sv ∧
    (decideLoss s).pd = s.pd ∧
    (decideLoss s).ct = s.ct ∧
    (decideLoss s).vc = s.vc ∧
    (decideLoss s).hl.locked = s.hl.locked := by
  unfold Machine.decideLoss; first | (simp; done) | ((repeat' split) <;> simp; done) | (dsimp only; (repeat' split) <;> simp; done)
@[simp] theorem applyPairItem_keeps {s : State} {i : Staged} :
    (applyPairItem s i).pending = s.pending ∧
    (applyPairItem s i).now = s.now ∧
    (applyPairItem s i).fx = s.fx ∧
    (applyPairItem s i).ai = s.ai ∧
    (applyPairItem s i).aq = s.aq ∧
    (applyPairItem s i).dp = s.dp ∧
    (applyPairItem s i).ck = s.ck ∧
    (applyPairItem s i).sc = s.sc ∧
    (applyPairItem s i).st = s.st ∧
    (applyPairItem s i).sv = s.sv ∧
    (applyPairItem s i).pd = s.pd ∧
    (applyPairItem s i).ct = s.ct ∧
    (applyPairItem s i).vc = s.vc ∧
    (applyPairItem s i).fr.fn = s.fr.fn ∧
    (applyPairItem s i).fr.next = s.fr.next ∧
    (applyPairItem s i).fr.running = s.fr.running ∧
    (applyPairItem s i).hl.locked = s.hl.locked := by
  unfold Machine.applyPairItem; first | (simp; done) | ((repeat' split) <;> simp; done) | (dsimp only; (repeat' split) <;> simp; done)
@[simp] theorem pairBoundary_keeps {s : State} :
    (pairBoundary s).pending = s.pending ∧
    (pairBoundary s).now = s.now ∧
    (pairBoundary s).fx = s.fx ∧
    (pairBoundary s).ai = s.ai ∧
    (pairBoundary s).aq = s.aq ∧
    (pairBoundary s).dp = s.dp ∧
    (pairBoundary s).ck = s.ck ∧
    (pairBoundary s).sc = s.sc ∧
    (pairBoundary s).st = s.st ∧
    (pairBoundary s).sv = s.sv ∧
    (pairBoundary s).pd = s.pd ∧
    (pairBoundary s).ct = s.ct ∧
    (pairBoundary s).vc = s.vc ∧
    (pairBoundary s).fr.fn = s.fr.fn ∧
    (pairBoundary s).fr.next = s.fr.next ∧
    (pairBoundary s).fr.running = s.fr.running ∧
    (pairBoundary s).hl.locked = s.hl.locked := by
  unfold Machine.pairBoundary; first | (simp; done) | ((repeat' split) <;> simp; done) | (dsimp only; (repeat' split) <;> simp; done)
@[simp] theorem judgeSlack_keeps {s : State} {slack : Nat} {drained : Bool} :
    (judgeSlack s slack drained).pending = s.pending ∧
    (judgeSlack s slack drained).now = s.now ∧
    (judgeSlack s slack drained).regs = s.regs ∧
    (judgeSlack s slack drained).mx = s.mx ∧
    (judgeSlack s slack drained).fx = s.fx ∧
    (judgeSlack s slack drained).ps = s.ps ∧
    (judgeSlack s slack drained).sp = s.sp ∧
    (judgeSlack s slack drained).ai = s.ai ∧
    (judgeSlack s slack drained).aq = s.aq ∧
    (judgeSlack s slack drained).dp = s.dp ∧
    (judgeSlack s slack drained).ck = s.ck ∧
    (judgeSlack s slack drained).sc = s.sc ∧
    (judgeSlack s slack drained).st = s.st ∧
    (judgeSlack s slack drained).sv = s.sv ∧
    (judgeSlack s slack drained).pd = s.pd ∧
    (judgeSlack s slack drained).ct = s.ct ∧
    (judgeSlack s slack drained).pl = s.pl ∧
    (judgeSlack s slack drained).fr.fn = s.fr.fn ∧
    (judgeSlack s slack drained).fr.next = s.fr.next ∧
    (judgeSlack s slack drained).fr.running = s.fr.running ∧
    (judgeSlack s slack drained).hl.locked = s.hl.locked := by
  unfold Machine.judgeSlack; first | (simp; done) | ((repeat' split) <;> simp; done) | (dsimp only; (repeat' split) <;> simp; done)
@[simp] theorem frameReports_keeps {s : State} :
    (frameReports s).pending = s.pending ∧
    (frameReports s).now = s.now ∧
    (frameReports s).regs = s.regs ∧
    (frameReports s).fr = s.fr ∧
    (frameReports s).ps = s.ps ∧
    (frameReports s).sp = s.sp ∧
    (frameReports s).ai = s.ai ∧
    (frameReports s).aq = s.aq ∧
    (frameReports s).dp = s.dp ∧
    (frameReports s).ck = s.ck ∧
    (frameReports s).sc = s.sc ∧
    (frameReports s).st = s.st ∧
    (frameReports s).sv = s.sv ∧
    (frameReports s).pd = s.pd ∧
    (frameReports s).ct = s.ct ∧
    (frameReports s).pl = s.pl ∧
    (frameReports s).vc = s.vc ∧
    (frameReports s).hl.locked = s.hl.locked := by
  unfold Machine.frameReports; first | (simp; done) | ((repeat' split) <;> simp; done) | (dsimp only; (repeat' split) <;> simp; done)
@[simp] theorem stopAtDrain_keeps {s : State} :
    (stopAtDrain s).pending = s.pending ∧
    (stopAtDrain s).now = s.now ∧
    (stopAtDrain s).out = s.out ∧
    (stopAtDrain s).regs = s.regs ∧
    (stopAtDrain s).mx = s.mx ∧
    (stopAtDrain s).fx = s.fx ∧
    (stopAtDrain s).ai = s.ai ∧
    (stopAtDrain s).dp = s.dp ∧
    (stopAtDrain s).ck = s.ck ∧
    (stopAtDrain s).sc = s.sc ∧
    (stopAtDrain s).hl = s.hl ∧
    (stopAtDrain s).st = s.st ∧
    (stopAtDrain s).tw = s.tw ∧
    (stopAtDrain s).sv = s.sv ∧
    (stopAtDrain s).pd = s.pd ∧
    (stopAtDrain s).ct = s.ct ∧
    (stopAtDrain s).pl = s.pl ∧
    (stopAtDrain s).vc = s.vc ∧
    (stopAtDrain s).fr.fn = s.fr.fn ∧
    (stopAtDrain s).fr.next = s.fr.next := by
  unfold Machine.stopAtDrain; first | (simp; done) | ((repeat' split) <;> simp; done) | (dsimp only; (repeat' split) <;> simp; done)
@[simp] theorem settleDeferral_keeps {s : State} :
    (settleDeferral s).pending = s.pending ∧
    (settleDeferral s).now = s.now ∧
    (settleDeferral s).regs = s.regs ∧
    (settleDeferral s).fx = s.fx ∧
    (settleDeferral s).ps = s.ps ∧
    (settleDeferral s).sp = s.sp ∧
    (settleDeferral s).ai = s.ai ∧
    (settleDeferral s).aq = s.aq ∧
    (settleDeferral s).dp = s.dp ∧
    (settleDeferral s).ck = s.ck ∧
    (settleDeferral s).sc = s.sc ∧
    (settleDeferral s).st = s.st ∧
    (settleDeferral s).sv = s.sv ∧
    (settleDeferral s).pd = s.pd ∧
    (settleDeferral s).ct = s.ct ∧
    (settleDeferral s).vc = s.vc ∧
    (settleDeferral s).fr.fn = s.fr.fn ∧
    (settleDeferral s).fr.next = s.fr.next ∧
    (settleDeferral s).fr.running = s.fr.running ∧
    (settleDeferral s).hl.locked = s.hl.locked := by
  unfold Machine.settleDeferral; first | (simp; done) | ((repeat' split) <;> simp; done) | (dsimp only; (repeat' split) <;> simp; done)
@[simp] theorem boundaryAlways_keeps {s : State} :
    (boundaryAlways s).pending = s.pending ∧
    (boundaryAlways s).now = s.now ∧
    (boundaryAlways s).regs = s.regs ∧
    (boundaryAlways s).ps = s.ps ∧
    (boundaryAlways s).sp = s.sp ∧
    (boundaryAlways s).ai = s.ai ∧
    (boundaryAlways s).aq = s.aq ∧
    (boundaryAlways s).dp = s.dp ∧
    (boundaryAlways s).ck = s.ck ∧
    (boundaryAlways s).sc = s.sc ∧
    (boundaryAlways s).sv = s.sv ∧
    (boundaryAlways s).ct = s.ct ∧
    (boundaryAlways s).vc = s.vc ∧
    (boundaryAlways s).fr.fn = s.fr.fn ∧
    (boundaryAlways s).fr.next = s.fr.next ∧
    (boundaryAlways s).fr.running = s.fr.running ∧
    (boundaryAlways s).hl.locked = s.hl.locked := by
  unfold Machine.boundaryAlways; first | (simp; done) | ((repeat' split) <;> simp; done) | (dsimp only; (repeat' split) <;> simp; done)
@[simp] theorem eccCounts_keeps {s : State} {x : EccIn} :
    (eccCounts s x).pending = s.pending ∧
    (eccCounts s x).now = s.now ∧
    (eccCounts s x).out = s.out ∧
    (eccCounts s x).regs = s.regs ∧
    (eccCounts s x).fr = s.fr ∧
    (eccCounts s x).ps = s.ps ∧
    (eccCounts s x).sp = s.sp ∧
    (eccCounts s x).ai = s.ai ∧
    (eccCounts s x).aq = s.aq ∧
    (eccCounts s x).dp = s.dp ∧
    (eccCounts s x).ck = s.ck ∧
    (eccCounts s x).sc = s.sc ∧
    (eccCounts s x).hl = s.hl ∧
    (eccCounts s x).st = s.st ∧
    (eccCounts s x).tw = s.tw ∧
    (eccCounts s x).sv = s.sv ∧
    (eccCounts s x).pd = s.pd ∧
    (eccCounts s x).ct = s.ct ∧
    (eccCounts s x).pl = s.pl ∧
    (eccCounts s x).vc = s.vc := by
  unfold Machine.eccCounts; first | (simp; done) | ((repeat' split) <;> simp; done) | (dsimp only; (repeat' split) <;> simp; done)
@[simp] theorem abortAlways_keeps {s : State} :
    (abortAlways s).pending = s.pending ∧
    (abortAlways s).now = s.now ∧
    (abortAlways s).regs = s.regs ∧
    (abortAlways s).ps = s.ps ∧
    (abortAlways s).sp = s.sp ∧
    (abortAlways s).ai = s.ai ∧
    (abortAlways s).aq = s.aq ∧
    (abortAlways s).dp = s.dp ∧
    (abortAlways s).ck = s.ck ∧
    (abortAlways s).sc = s.sc ∧
    (abortAlways s).sv = s.sv ∧
    (abortAlways s).ct = s.ct ∧
    (abortAlways s).vc = s.vc ∧
    (abortAlways s).fr.fn = s.fr.fn ∧
    (abortAlways s).fr.next = s.fr.next ∧
    (abortAlways s).fr.running = s.fr.running ∧
    (abortAlways s).hl.locked = s.hl.locked := by
  unfold Machine.abortAlways; first | (simp; done) | ((repeat' split) <;> simp; done) | (dsimp only; (repeat' split) <;> simp; done)
@[simp] theorem readEffect_keeps {s : State} {o : Owner} {r : ReadIn} {n : RegName} {i : Nat} :
    (readEffect s o r n i).pending = s.pending ∧
    (readEffect s o r n i).now = s.now ∧
    (readEffect s o r n i).mx = s.mx ∧
    (readEffect s o r n i).ps = s.ps ∧
    (readEffect s o r n i).sp = s.sp ∧
    (readEffect s o r n i).ai = s.ai ∧
    (readEffect s o r n i).aq = s.aq ∧
    (readEffect s o r n i).dp = s.dp ∧
    (readEffect s o r n i).ck = s.ck ∧
    (readEffect s o r n i).sc = s.sc ∧
    (readEffect s o r n i).sv = s.sv ∧
    (readEffect s o r n i).ct = s.ct ∧
    (readEffect s o r n i).vc = s.vc ∧
    (readEffect s o r n i).fr.fn = s.fr.fn ∧
    (readEffect s o r n i).fr.next = s.fr.next ∧
    (readEffect s o r n i).fr.running = s.fr.running ∧
    (readEffect s o r n i).hl.locked = s.hl.locked := by
  unfold Machine.readEffect; first | (simp; done) | ((repeat' split) <;> simp; done) | (dsimp only; (repeat' split) <;> simp; done)
@[simp] theorem readAt_keeps {s : State} {o : Owner} {r : ReadIn} {off : Nat} :
    (readAt s o r off).1.pending = s.pending ∧
    (readAt s o r off).1.now = s.now ∧
    (readAt s o r off).1.mx = s.mx ∧
    (readAt s o r off).1.ps = s.ps ∧
    (readAt s o r off).1.sp = s.sp ∧
    (readAt s o r off).1.ai = s.ai ∧
    (readAt s o r off).1.aq = s.aq ∧
    (readAt s o r off).1.dp = s.dp ∧
    (readAt s o r off).1.ck = s.ck ∧
    (readAt s o r off).1.sc = s.sc ∧
    (readAt s o r off).1.sv = s.sv ∧
    (readAt s o r off).1.ct = s.ct ∧
    (readAt s o r off).1.vc = s.vc ∧
    (readAt s o r off).1.fr.fn = s.fr.fn ∧
    (readAt s o r off).1.fr.next = s.fr.next ∧
    (readAt s o r off).1.fr.running = s.fr.running ∧
    (readAt s o r off).1.hl.locked = s.hl.locked := by
  unfold Machine.readAt; first | (simp; done) | ((repeat' split) <;> simp; done) | (dsimp only; (repeat' split) <;> simp; done)
@[simp] theorem msixWrite_keeps {s : State} {i : Nat} {v : Word} :
    (msixWrite s i v).pending = s.pending ∧
    (msixWrite s i v).now = s.now ∧
    (msixWrite s i v).regs = s.regs ∧
    (msixWrite s i v).fr = s.fr ∧
    (msixWrite s i v).mx = s.mx ∧
    (msixWrite s i v).fx = s.fx ∧
    (msixWrite s i v).ps = s.ps ∧
    (msixWrite s i v).sp = s.sp ∧
    (msixWrite s i v).ai = s.ai ∧
    (msixWrite s i v).aq = s.aq ∧
    (msixWrite s i v).dp = s.dp ∧
    (msixWrite s i v).ck = s.ck ∧
    (msixWrite s i v).sc = s.sc ∧
    (msixWrite s i v).st = s.st ∧
    (msixWrite s i v).tw = s.tw ∧
    (msixWrite s i v).sv = s.sv ∧
    (msixWrite s i v).pd = s.pd ∧
    (msixWrite s i v).ct = s.ct ∧
    (msixWrite s i v).pl = s.pl ∧
    (msixWrite s i v).vc = s.vc ∧
    (msixWrite s i v).hl.locked = s.hl.locked := by
  unfold Machine.msixWrite; first | (simp; done) | ((repeat' split) <;> simp; done) | (dsimp only; (repeat' split) <;> simp; done)
@[simp] theorem hlWrite_keeps {s : State} {n : RegName} {i : Nat} {v : Word} :
    (hlWrite s n i v).pending = s.pending ∧
    (hlWrite s n i v).now = s.now ∧
    (hlWrite s n i v).fr = s.fr ∧
    (hlWrite s n i v).mx = s.mx ∧
    (hlWrite s n i v).fx = s.fx ∧
    (hlWrite s n i v).ps = s.ps ∧
    (hlWrite s n i v).sp = s.sp ∧
    (hlWrite s n i v).ai = s.ai ∧
    (hlWrite s n i v).aq = s.aq ∧
    (hlWrite s n i v).dp = s.dp ∧
    (hlWrite s n i v).ck = s.ck ∧
    (hlWrite s n i v).sc = s.sc ∧
    (hlWrite s n i v).st = s.st ∧
    (hlWrite s n i v).sv = s.sv ∧
    (hlWrite s n i v).pd = s.pd ∧
    (hlWrite s n i v).ct = s.ct ∧
    (hlWrite s n i v).pl = s.pl ∧
    (hlWrite s n i v).vc = s.vc ∧
    (hlWrite s n i v).hl.locked = s.hl.locked := by
  unfold Machine.hlWrite; first | (simp; done) | ((repeat' split) <;> simp; done) | (dsimp only; (repeat' split) <;> simp; done)
@[simp] theorem frameFlagsWrite_keeps {s : State} {v : Word} :
    (frameFlagsWrite s v).pending = s.pending ∧
    (frameFlagsWrite s v).now = s.now ∧
    (frameFlagsWrite s v).out = s.out ∧
    (frameFlagsWrite s v).regs = s.regs ∧
    (frameFlagsWrite s v).mx = s.mx ∧
    (frameFlagsWrite s v).fx = s.fx ∧
    (frameFlagsWrite s v).ps = s.ps ∧
    (frameFlagsWrite s v).sp = s.sp ∧
    (frameFlagsWrite s v).ai = s.ai ∧
    (frameFlagsWrite s v).aq = s.aq ∧
    (frameFlagsWrite s v).dp = s.dp ∧
    (frameFlagsWrite s v).ck = s.ck ∧
    (frameFlagsWrite s v).sc = s.sc ∧
    (frameFlagsWrite s v).hl = s.hl ∧
    (frameFlagsWrite s v).st = s.st ∧
    (frameFlagsWrite s v).tw = s.tw ∧
    (frameFlagsWrite s v).sv = s.sv ∧
    (frameFlagsWrite s v).pd = s.pd ∧
    (frameFlagsWrite s v).ct = s.ct ∧
    (frameFlagsWrite s v).pl = s.pl ∧
    (frameFlagsWrite s v).vc = s.vc ∧
    (frameFlagsWrite s v).fr.fn = s.fr.fn ∧
    (frameFlagsWrite s v).fr.next = s.fr.next ∧
    (frameFlagsWrite s v).fr.running = s.fr.running := by
  unfold Machine.frameFlagsWrite; first | (simp; done) | ((repeat' split) <;> simp; done) | (dsimp only; (repeat' split) <;> simp; done)
@[simp] theorem slackCtrl_keeps {s : State} {v : Word} :
    (slackCtrl s v).pending = s.pending ∧
    (slackCtrl s v).now = s.now ∧
    (slackCtrl s v).out = s.out ∧
    (slackCtrl s v).regs = s.regs ∧
    (slackCtrl s v).mx = s.mx ∧
    (slackCtrl s v).fx = s.fx ∧
    (slackCtrl s v).ps = s.ps ∧
    (slackCtrl s v).sp = s.sp ∧
    (slackCtrl s v).ai = s.ai ∧
    (slackCtrl s v).aq = s.aq ∧
    (slackCtrl s v).dp = s.dp ∧
    (slackCtrl s v).ck = s.ck ∧
    (slackCtrl s v).sc = s.sc ∧
    (slackCtrl s v).hl = s.hl ∧
    (slackCtrl s v).st = s.st ∧
    (slackCtrl s v).tw = s.tw ∧
    (slackCtrl s v).sv = s.sv ∧
    (slackCtrl s v).pd = s.pd ∧
    (slackCtrl s v).ct = s.ct ∧
    (slackCtrl s v).pl = s.pl ∧
    (slackCtrl s v).vc = s.vc ∧
    (slackCtrl s v).fr.fn = s.fr.fn ∧
    (slackCtrl s v).fr.next = s.fr.next ∧
    (slackCtrl s v).fr.running = s.fr.running := by
  unfold Machine.slackCtrl; first | (simp; done) | ((repeat' split) <;> simp; done) | (dsimp only; (repeat' split) <;> simp; done)
@[simp] theorem awcWrite_keeps {s : State} {i : Nat} {w : Word} :
    (awcWrite s i w).pending = s.pending ∧
    (awcWrite s i w).now = s.now ∧
    (awcWrite s i w).out = s.out ∧
    (awcWrite s i w).fr = s.fr ∧
    (awcWrite s i w).mx = s.mx ∧
    (awcWrite s i w).fx = s.fx ∧
    (awcWrite s i w).ps = s.ps ∧
    (awcWrite s i w).sp = s.sp ∧
    (awcWrite s i w).ai = s.ai ∧
    (awcWrite s i w).aq = s.aq ∧
    (awcWrite s i w).dp = s.dp ∧
    (awcWrite s i w).ck = s.ck ∧
    (awcWrite s i w).sc = s.sc ∧
    (awcWrite s i w).hl = s.hl ∧
    (awcWrite s i w).st = s.st ∧
    (awcWrite s i w).tw = s.tw ∧
    (awcWrite s i w).sv = s.sv ∧
    (awcWrite s i w).ct = s.ct ∧
    (awcWrite s i w).pl = s.pl ∧
    (awcWrite s i w).vc = s.vc := by
  unfold Machine.awcWrite; first | (simp; done) | ((repeat' split) <;> simp; done) | (dsimp only; (repeat' split) <;> simp; done)
@[simp] theorem retWrite_keeps {s : State} {v : Word} :
    (retWrite s v).pending = s.pending ∧
    (retWrite s v).now = s.now ∧
    (retWrite s v).out = s.out ∧
    (retWrite s v).fr = s.fr ∧
    (retWrite s v).mx = s.mx ∧
    (retWrite s v).fx = s.fx ∧
    (retWrite s v).ps = s.ps ∧
    (retWrite s v).sp = s.sp ∧
    (retWrite s v).ai = s.ai ∧
    (retWrite s v).aq = s.aq ∧
    (retWrite s v).dp = s.dp ∧
    (retWrite s v).ck = s.ck ∧
    (retWrite s v).sc = s.sc ∧
    (retWrite s v).hl = s.hl ∧
    (retWrite s v).st = s.st ∧
    (retWrite s v).tw = s.tw ∧
    (retWrite s v).sv = s.sv ∧
    (retWrite s v).ct = s.ct ∧
    (retWrite s v).pl = s.pl ∧
    (retWrite s v).vc = s.vc := by
  unfold Machine.retWrite; first | (simp; done) | ((repeat' split) <;> simp; done) | (dsimp only; (repeat' split) <;> simp; done)
@[simp] theorem vidWrite_keeps {s : State} {v : Word} :
    (vidWrite s v).pending = s.pending ∧
    (vidWrite s v).now = s.now ∧
    (vidWrite s v).fr = s.fr ∧
    (vidWrite s v).mx = s.mx ∧
    (vidWrite s v).fx = s.fx ∧
    (vidWrite s v).ps = s.ps ∧
    (vidWrite s v).sp = s.sp ∧
    (vidWrite s v).ai = s.ai ∧
    (vidWrite s v).aq = s.aq ∧
    (vidWrite s v).dp = s.dp ∧
    (vidWrite s v).ck = s.ck ∧
    (vidWrite s v).sc = s.sc ∧
    (vidWrite s v).hl = s.hl ∧
    (vidWrite s v).st = s.st ∧
    (vidWrite s v).sv = s.sv ∧
    (vidWrite s v).pd = s.pd ∧
    (vidWrite s v).ct = s.ct ∧
    (vidWrite s v).pl = s.pl := by
  unfold Machine.vidWrite; first | (simp; done) | ((repeat' split) <;> simp; done) | (dsimp only; (repeat' split) <;> simp; done)
@[simp] theorem plWrite_keeps {s : State} {n : RegName} {w : Word} :
    (plWrite s n w).pending = s.pending ∧
    (plWrite s n w).now = s.now ∧
    (plWrite s n w).out = s.out ∧
    (plWrite s n w).fr = s.fr ∧
    (plWrite s n w).mx = s.mx ∧
    (plWrite s n w).fx = s.fx ∧
    (plWrite s n w).ps = s.ps ∧
    (plWrite s n w).sp = s.sp ∧
    (plWrite s n w).ai = s.ai ∧
    (plWrite s n w).aq = s.aq ∧
    (plWrite s n w).dp = s.dp ∧
    (plWrite s n w).ck = s.ck ∧
    (plWrite s n w).sc = s.sc ∧
    (plWrite s n w).hl = s.hl ∧
    (plWrite s n w).st = s.st ∧
    (plWrite s n w).tw = s.tw ∧
    (plWrite s n w).sv = s.sv ∧
    (plWrite s n w).pd = s.pd ∧
    (plWrite s n w).ct = s.ct ∧
    (plWrite s n w).vc = s.vc := by
  unfold Machine.plWrite; first | (simp; done) | ((repeat' split) <;> simp; done) | (dsimp only; (repeat' split) <;> simp; done)
@[simp] theorem writeEffect_keeps {s : State} {src : Owner} {env : WriteIn} {n : RegName} {i : Nat} {v : Word} :
    (writeEffect s src env n i v).pending = s.pending ∧
    (writeEffect s src env n i v).now = s.now ∧
    (writeEffect s src env n i v).fx = s.fx ∧
    (writeEffect s src env n i v).sp = s.sp ∧
    (writeEffect s src env n i v).aq = s.aq ∧
    (writeEffect s src env n i v).sv = s.sv ∧
    (writeEffect s src env n i v).fr.fn = s.fr.fn ∧
    (writeEffect s src env n i v).fr.next = s.fr.next ∧
    (writeEffect s src env n i v).fr.running = s.fr.running ∧
    (writeEffect s src env n i v).hl.locked = s.hl.locked := by
  unfold Machine.writeEffect; first | (simp; done) | ((repeat' split) <;> simp; done) | (dsimp only; (repeat' split) <;> simp; done)
@[simp] theorem spCtrlWrite_keeps {s : State} {src : Owner} {off : Nat} {v : Word} :
    (spCtrlWrite s src off v).1.pending = s.pending ∧
    (spCtrlWrite s src off v).1.now = s.now ∧
    (spCtrlWrite s src off v).1.regs = s.regs ∧
    (spCtrlWrite s src off v).1.mx = s.mx ∧
    (spCtrlWrite s src off v).1.fx = s.fx ∧
    (spCtrlWrite s src off v).1.ps = s.ps ∧
    (spCtrlWrite s src off v).1.sp = s.sp ∧
    (spCtrlWrite s src off v).1.ai = s.ai ∧
    (spCtrlWrite s src off v).1.aq = s.aq ∧
    (spCtrlWrite s src off v).1.dp = s.dp ∧
    (spCtrlWrite s src off v).1.ck = s.ck ∧
    (spCtrlWrite s src off v).1.sc = s.sc ∧
    (spCtrlWrite s src off v).1.st = s.st ∧
    (spCtrlWrite s src off v).1.sv = s.sv ∧
    (spCtrlWrite s src off v).1.pd = s.pd ∧
    (spCtrlWrite s src off v).1.ct = s.ct ∧
    (spCtrlWrite s src off v).1.vc = s.vc ∧
    (spCtrlWrite s src off v).1.fr.fn = s.fr.fn ∧
    (spCtrlWrite s src off v).1.fr.next = s.fr.next ∧
    (spCtrlWrite s src off v).1.fr.running = s.fr.running ∧
    (spCtrlWrite s src off v).1.hl.locked = s.hl.locked := by
  unfold Machine.spCtrlWrite; first | (simp; done) | ((repeat' split) <;> simp; done) | (dsimp only; (repeat' split) <;> simp; done)
@[simp] theorem windowTake_pending {s : State} {src : Owner} {off : Nat} {gs : List Nat} {f : State → State}
    (h : ∀ t, (f t).pending = t.pending) : (windowTake s src off gs f).1.pending = s.pending := by
  unfold windowTake; dsimp only; (repeat' split) <;> simp [h]
@[simp] theorem windowTake_now {s : State} {src : Owner} {off : Nat} {gs : List Nat} {f : State → State}
    (h : ∀ t, (f t).now = t.now) : (windowTake s src off gs f).1.now = s.now := by
  unfold windowTake; dsimp only; (repeat' split) <;> simp [h]
@[simp] theorem windowTake_regs {s : State} {src : Owner} {off : Nat} {gs : List Nat} {f : State → State}
    (h : ∀ t, (f t).regs = t.regs) : (windowTake s src off gs f).1.regs = s.regs := by
  unfold windowTake; dsimp only; (repeat' split) <;> simp [h]
@[simp] theorem windowTake_fr {s : State} {src : Owner} {off : Nat} {gs : List Nat} {f : State → State}
    (h : ∀ t, (f t).fr = t.fr) : (windowTake s src off gs f).1.fr = s.fr := by
  unfold windowTake; dsimp only; (repeat' split) <;> simp [h]
@[simp] theorem windowTake_mx {s : State} {src : Owner} {off : Nat} {gs : List Nat} {f : State → State}
    (h : ∀ t, (f t).mx = t.mx) : (windowTake s src off gs f).1.mx = s.mx := by
  unfold windowTake; dsimp only; (repeat' split) <;> simp [h]
@[simp] theorem windowTake_fx {s : State} {src : Owner} {off : Nat} {gs : List Nat} {f : State → State}
    (h : ∀ t, (f t).fx = t.fx) : (windowTake s src off gs f).1.fx = s.fx := by
  unfold windowTake; dsimp only; (repeat' split) <;> simp [h]
@[simp] theorem windowTake_ps {s : State} {src : Owner} {off : Nat} {gs : List Nat} {f : State → State}
    (h : ∀ t, (f t).ps = t.ps) : (windowTake s src off gs f).1.ps = s.ps := by
  unfold windowTake; dsimp only; (repeat' split) <;> simp [h]
@[simp] theorem windowTake_sp {s : State} {src : Owner} {off : Nat} {gs : List Nat} {f : State → State}
    (h : ∀ t, (f t).sp = t.sp) : (windowTake s src off gs f).1.sp = s.sp := by
  unfold windowTake; dsimp only; (repeat' split) <;> simp [h]
@[simp] theorem windowTake_ai {s : State} {src : Owner} {off : Nat} {gs : List Nat} {f : State → State}
    (h : ∀ t, (f t).ai = t.ai) : (windowTake s src off gs f).1.ai = s.ai := by
  unfold windowTake; dsimp only; (repeat' split) <;> simp [h]
@[simp] theorem windowTake_aq {s : State} {src : Owner} {off : Nat} {gs : List Nat} {f : State → State}
    (h : ∀ t, (f t).aq = t.aq) : (windowTake s src off gs f).1.aq = s.aq := by
  unfold windowTake; dsimp only; (repeat' split) <;> simp [h]
@[simp] theorem windowTake_dp {s : State} {src : Owner} {off : Nat} {gs : List Nat} {f : State → State}
    (h : ∀ t, (f t).dp = t.dp) : (windowTake s src off gs f).1.dp = s.dp := by
  unfold windowTake; dsimp only; (repeat' split) <;> simp [h]
@[simp] theorem windowTake_ck {s : State} {src : Owner} {off : Nat} {gs : List Nat} {f : State → State}
    (h : ∀ t, (f t).ck = t.ck) : (windowTake s src off gs f).1.ck = s.ck := by
  unfold windowTake; dsimp only; (repeat' split) <;> simp [h]
@[simp] theorem windowTake_sc {s : State} {src : Owner} {off : Nat} {gs : List Nat} {f : State → State}
    (h : ∀ t, (f t).sc = t.sc) : (windowTake s src off gs f).1.sc = s.sc := by
  unfold windowTake; dsimp only; (repeat' split) <;> simp [h]
@[simp] theorem windowTake_st {s : State} {src : Owner} {off : Nat} {gs : List Nat} {f : State → State}
    (h : ∀ t, (f t).st = t.st) : (windowTake s src off gs f).1.st = s.st := by
  unfold windowTake; dsimp only; (repeat' split) <;> simp [h]
@[simp] theorem windowTake_sv {s : State} {src : Owner} {off : Nat} {gs : List Nat} {f : State → State}
    (h : ∀ t, (f t).sv = t.sv) : (windowTake s src off gs f).1.sv = s.sv := by
  unfold windowTake; dsimp only; (repeat' split) <;> simp [h]
@[simp] theorem windowTake_pd {s : State} {src : Owner} {off : Nat} {gs : List Nat} {f : State → State}
    (h : ∀ t, (f t).pd = t.pd) : (windowTake s src off gs f).1.pd = s.pd := by
  unfold windowTake; dsimp only; (repeat' split) <;> simp [h]
@[simp] theorem windowTake_ct {s : State} {src : Owner} {off : Nat} {gs : List Nat} {f : State → State}
    (h : ∀ t, (f t).ct = t.ct) : (windowTake s src off gs f).1.ct = s.ct := by
  unfold windowTake; dsimp only; (repeat' split) <;> simp [h]
@[simp] theorem windowTake_pl {s : State} {src : Owner} {off : Nat} {gs : List Nat} {f : State → State}
    (h : ∀ t, (f t).pl = t.pl) : (windowTake s src off gs f).1.pl = s.pl := by
  unfold windowTake; dsimp only; (repeat' split) <;> simp [h]
@[simp] theorem windowTake_vc {s : State} {src : Owner} {off : Nat} {gs : List Nat} {f : State → State}
    (h : ∀ t, (f t).vc = t.vc) : (windowTake s src off gs f).1.vc = s.vc := by
  unfold windowTake; dsimp only; (repeat' split) <;> simp [h]
@[simp] theorem windowTake_hl_locked {s : State} {src : Owner} {off : Nat} {gs : List Nat} {f : State → State}
    (h : ∀ t, (f t).hl.locked = t.hl.locked) : (windowTake s src off gs f).1.hl.locked = s.hl.locked := by
  unfold windowTake; dsimp only; (repeat' split) <;> simp [h]
@[simp] theorem windowTake_fr_fn {s : State} {src : Owner} {off : Nat} {gs : List Nat} {f : State → State}
    (h : ∀ t, (f t).fr.fn = t.fr.fn) : (windowTake s src off gs f).1.fr.fn = s.fr.fn := by
  unfold windowTake; dsimp only; (repeat' split) <;> simp [h]
@[simp] theorem windowTake_fr_next {s : State} {src : Owner} {off : Nat} {gs : List Nat} {f : State → State}
    (h : ∀ t, (f t).fr.next = t.fr.next) : (windowTake s src off gs f).1.fr.next = s.fr.next := by
  unfold windowTake; dsimp only; (repeat' split) <;> simp [h]
@[simp] theorem windowTake_fr_running {s : State} {src : Owner} {off : Nat} {gs : List Nat} {f : State → State}
    (h : ∀ t, (f t).fr.running = t.fr.running) : (windowTake s src off gs f).1.fr.running = s.fr.running := by
  unfold windowTake; dsimp only; (repeat' split) <;> simp [h]
@[simp] theorem writeReg_keeps {s : State} {src : Owner} {env : WriteIn} {off : Nat} {v : Word} :
    (writeReg s src env off v).1.pending = s.pending ∧
    (writeReg s src env off v).1.now = s.now ∧
    (writeReg s src env off v).1.sp = s.sp ∧
    (writeReg s src env off v).1.aq = s.aq ∧
    (writeReg s src env off v).1.sv = s.sv ∧
    (writeReg s src env off v).1.fr.fn = s.fr.fn ∧
    (writeReg s src env off v).1.fr.next = s.fr.next ∧
    (writeReg s src env off v).1.fr.running = s.fr.running ∧
    (writeReg s src env off v).1.hl.locked = s.hl.locked := by
  unfold Machine.writeReg; first | (simp; done) | ((repeat' split) <;> simp; done) | (dsimp only; (repeat' split) <;> simp; done)
@[simp] theorem barRead_keeps {s : State} {src : Owner} {r : ReadIn} {w : BarWrite} :
    (barRead s src r w).pending = s.pending ∧
    (barRead s src r w).now = s.now ∧
    (barRead s src r w).mx = s.mx ∧
    (barRead s src r w).ps = s.ps ∧
    (barRead s src r w).sp = s.sp ∧
    (barRead s src r w).ai = s.ai ∧
    (barRead s src r w).aq = s.aq ∧
    (barRead s src r w).dp = s.dp ∧
    (barRead s src r w).ck = s.ck ∧
    (barRead s src r w).sc = s.sc ∧
    (barRead s src r w).sv = s.sv ∧
    (barRead s src r w).ct = s.ct ∧
    (barRead s src r w).vc = s.vc ∧
    (barRead s src r w).fr.fn = s.fr.fn ∧
    (barRead s src r w).fr.next = s.fr.next ∧
    (barRead s src r w).fr.running = s.fr.running ∧
    (barRead s src r w).hl.locked = s.hl.locked := by
  unfold Machine.barRead; first | (simp; done) | ((repeat' split) <;> simp; done) | (dsimp only; (repeat' split) <;> simp; done)
@[simp] theorem rtcTouched_keeps {s : State} {offs : List Nat} {cycles : Nat} :
    (rtcTouched s offs cycles).pending = s.pending ∧
    (rtcTouched s offs cycles).now = s.now ∧
    (rtcTouched s offs cycles).out = s.out ∧
    (rtcTouched s offs cycles).regs = s.regs ∧
    (rtcTouched s offs cycles).fr = s.fr ∧
    (rtcTouched s offs cycles).mx = s.mx ∧
    (rtcTouched s offs cycles).fx = s.fx ∧
    (rtcTouched s offs cycles).ps = s.ps ∧
    (rtcTouched s offs cycles).sp = s.sp ∧
    (rtcTouched s offs cycles).ai = s.ai ∧
    (rtcTouched s offs cycles).aq = s.aq ∧
    (rtcTouched s offs cycles).dp = s.dp ∧
    (rtcTouched s offs cycles).ck = s.ck ∧
    (rtcTouched s offs cycles).sc = s.sc ∧
    (rtcTouched s offs cycles).hl = s.hl ∧
    (rtcTouched s offs cycles).st = s.st ∧
    (rtcTouched s offs cycles).tw = s.tw ∧
    (rtcTouched s offs cycles).sv = s.sv ∧
    (rtcTouched s offs cycles).ct = s.ct ∧
    (rtcTouched s offs cycles).pl = s.pl ∧
    (rtcTouched s offs cycles).vc = s.vc := by
  unfold Machine.rtcTouched; first | (simp; done) | ((repeat' split) <;> simp; done) | (dsimp only; (repeat' split) <;> simp; done)
@[simp] theorem readRegs_keeps {o : Owner} {r : ReadIn} {n off : Nat} {s : State} :
    (readRegs o r n off s).1.pending = s.pending ∧
    (readRegs o r n off s).1.now = s.now ∧
    (readRegs o r n off s).1.mx = s.mx ∧
    (readRegs o r n off s).1.ps = s.ps ∧
    (readRegs o r n off s).1.sp = s.sp ∧
    (readRegs o r n off s).1.ai = s.ai ∧
    (readRegs o r n off s).1.aq = s.aq ∧
    (readRegs o r n off s).1.dp = s.dp ∧
    (readRegs o r n off s).1.ck = s.ck ∧
    (readRegs o r n off s).1.sc = s.sc ∧
    (readRegs o r n off s).1.sv = s.sv ∧
    (readRegs o r n off s).1.ct = s.ct ∧
    (readRegs o r n off s).1.vc = s.vc ∧
    (readRegs o r n off s).1.fr.fn = s.fr.fn ∧
    (readRegs o r n off s).1.fr.next = s.fr.next ∧
    (readRegs o r n off s).1.fr.running = s.fr.running ∧
    (readRegs o r n off s).1.hl.locked = s.hl.locked := by
  induction n generalizing s off with
  | zero => simp [readRegs]
  | succ n ih => simp [readRegs, ih]
@[simp] theorem regRead_keeps {s : State} {r : ReadIn} {d : Bytes} :
    (regRead s r d).1.pending = s.pending ∧
    (regRead s r d).1.now = s.now ∧
    (regRead s r d).1.mx = s.mx ∧
    (regRead s r d).1.ps = s.ps ∧
    (regRead s r d).1.sp = s.sp ∧
    (regRead s r d).1.ai = s.ai ∧
    (regRead s r d).1.aq = s.aq ∧
    (regRead s r d).1.dp = s.dp ∧
    (regRead s r d).1.ck = s.ck ∧
    (regRead s r d).1.sc = s.sc ∧
    (regRead s r d).1.sv = s.sv ∧
    (regRead s r d).1.ct = s.ct ∧
    (regRead s r d).1.vc = s.vc ∧
    (regRead s r d).1.fr.fn = s.fr.fn ∧
    (regRead s r d).1.fr.next = s.fr.next ∧
    (regRead s r d).1.fr.running = s.fr.running ∧
    (regRead s r d).1.hl.locked = s.hl.locked := by
  unfold Machine.regRead; first | (simp; done) | ((repeat' split) <;> simp; done) | (dsimp only; (repeat' split) <;> simp; done)
@[simp] theorem writeTurn_keeps {env : WriteIn} {off : Nat} {a : State × Nat} {p : Word × Nat} :
    (writeTurn env off a p).1.pending = a.1.pending ∧
    (writeTurn env off a p).1.now = a.1.now ∧
    (writeTurn env off a p).1.sp = a.1.sp ∧
    (writeTurn env off a p).1.aq = a.1.aq ∧
    (writeTurn env off a p).1.sv = a.1.sv ∧
    (writeTurn env off a p).1.fr.fn = a.1.fr.fn ∧
    (writeTurn env off a p).1.fr.next = a.1.fr.next ∧
    (writeTurn env off a p).1.fr.running = a.1.fr.running ∧
    (writeTurn env off a p).1.hl.locked = a.1.hl.locked := by
  unfold Machine.writeTurn; first | (simp; done) | ((repeat' split) <;> simp; done) | (dsimp only; (repeat' split) <;> simp; done)
@[simp] theorem regWrite_keeps {s : State} {env : WriteIn} {d : Bytes} :
    (regWrite s env d).pending = s.pending ∧
    (regWrite s env d).now = s.now ∧
    (regWrite s env d).sp = s.sp ∧
    (regWrite s env d).aq = s.aq ∧
    (regWrite s env d).sv = s.sv ∧
    (regWrite s env d).fr.fn = s.fr.fn ∧
    (regWrite s env d).fr.next = s.fr.next ∧
    (regWrite s env d).fr.running = s.fr.running ∧
    (regWrite s env d).hl.locked = s.hl.locked := by
  unfold Machine.regWrite; first | (simp; done) | ((repeat' split) <;> simp; done) | (dsimp only; (repeat' split) <;> simp; done)
@[simp] theorem takeEntry_keeps {t : Frac} {s : State} {f : Fetched} :
    (takeEntry t s f).pending = s.pending ∧
    (takeEntry t s f).ps = s.ps ∧
    (takeEntry t s f).sp = s.sp ∧
    (takeEntry t s f).ai = s.ai ∧
    (takeEntry t s f).aq = s.aq ∧
    (takeEntry t s f).dp = s.dp ∧
    (takeEntry t s f).ck = s.ck ∧
    (takeEntry t s f).st = s.st ∧
    (takeEntry t s f).sv = s.sv ∧
    (takeEntry t s f).pd = s.pd ∧
    (takeEntry t s f).ct = s.ct ∧
    (takeEntry t s f).vc = s.vc ∧
    (takeEntry t s f).fr.fn = s.fr.fn ∧
    (takeEntry t s f).fr.next = s.fr.next ∧
    (takeEntry t s f).fr.running = s.fr.running ∧
    (takeEntry t s f).hl.locked = s.hl.locked := by
  unfold Machine.takeEntry; first | (simp; done) | ((repeat' split) <;> simp; done) | (dsimp only; (repeat' split) <;> simp; done)
@[simp] theorem longEnd_keeps {s : State} {us : Word} {r : LongDone} :
    (longEnd s us r).pending = s.pending ∧
    (longEnd s us r).now = s.now ∧
    (longEnd s us r).mx = s.mx ∧
    (longEnd s us r).fx = s.fx ∧
    (longEnd s us r).ps = s.ps ∧
    (longEnd s us r).sp = s.sp ∧
    (longEnd s us r).ai = s.ai ∧
    (longEnd s us r).aq = s.aq ∧
    (longEnd s us r).dp = s.dp ∧
    (longEnd s us r).ck = s.ck ∧
    (longEnd s us r).st = s.st ∧
    (longEnd s us r).pd = s.pd ∧
    (longEnd s us r).ct = s.ct ∧
    (longEnd s us r).vc = s.vc ∧
    (longEnd s us r).fr.fn = s.fr.fn ∧
    (longEnd s us r).fr.next = s.fr.next ∧
    (longEnd s us r).fr.running = s.fr.running ∧
    (longEnd s us r).hl.locked = s.hl.locked := by
  unfold Machine.longEnd; first | (simp; done) | ((repeat' split) <;> simp; done) | (dsimp only; (repeat' split) <;> simp; done)
@[simp] theorem State_dequeue_keeps {s : State} {rest : List Instr} :
    (State.dequeue s rest).now = s.now ∧
    (State.dequeue s rest).out = s.out ∧
    (State.dequeue s rest).regs = s.regs ∧
    (State.dequeue s rest).fr = s.fr ∧
    (State.dequeue s rest).mx = s.mx ∧
    (State.dequeue s rest).fx = s.fx ∧
    (State.dequeue s rest).ps = s.ps ∧
    (State.dequeue s rest).sp = s.sp ∧
    (State.dequeue s rest).ai = s.ai ∧
    (State.dequeue s rest).aq = s.aq ∧
    (State.dequeue s rest).dp = s.dp ∧
    (State.dequeue s rest).ck = s.ck ∧
    (State.dequeue s rest).sc = s.sc ∧
    (State.dequeue s rest).hl = s.hl ∧
    (State.dequeue s rest).st = s.st ∧
    (State.dequeue s rest).tw = s.tw ∧
    (State.dequeue s rest).sv = s.sv ∧
    (State.dequeue s rest).pd = s.pd ∧
    (State.dequeue s rest).ct = s.ct ∧
    (State.dequeue s rest).pl = s.pl ∧
    (State.dequeue s rest).vc = s.vc := by
  unfold Machine.State.dequeue; first | (simp; done) | ((repeat' split) <;> simp; done) | (dsimp only; (repeat' split) <;> simp; done)
end Sys2Proof.Laws
end

