-- ==== Sys2Proof/Laws/Events.lean ====
section
/-! SUPPORT. What raising an event does: the record it writes, and the little it moves of the host link and of the
two-wire bus. -/

namespace Sys2Proof.Laws

open Sys2Proof Sys2Proof.Machine Sys2Proof.Safety

set_option Elab.async false

/-! ### The host side of an event -/

@[simp] theorem leaveL1_rest {s : State} : hostRest (leaveL1 s).hl = hostRest s.hl := rfl

@[simp] theorem sendMsi_rest {s : State} {v : Nat} : hostRest (sendMsi s v).hl = hostRest s.hl := by
  unfold sendMsi push
  (repeat' split) <;> rfl

@[simp] theorem signal_rest {s : State} {v : Nat} : hostRest (signal s v).hl = hostRest s.hl := by
  unfold signal
  split
  · rfl
  · exact sendMsi_rest

@[simp] theorem putEvent_rest {s : State} {e : Event} : hostRest (putEvent s e).hl = hostRest s.hl := by
  unfold putEvent
  rw [signal_rest]
  rfl

@[simp] theorem flushLost_rest {s : State} : hostRest (flushLost s).hl = hostRest s.hl := by
  unfold flushLost
  split
  · rw [putEvent_rest]
    rfl
  · rfl

@[simp] theorem flushDue_rest {s : State} : hostRest (flushDue s).hl = hostRest s.hl := by
  unfold flushDue
  split
  · exact flushLost_rest
  · rfl

@[simp] theorem writeRecords_rest {l : List Event} {s : State} :
    hostRest (writeRecords l s).hl = hostRest s.hl := by
  induction l generalizing s with
  | nil => exact flushLost_rest.trans rfl
  | cons e r ih =>
    unfold writeRecords
    dsimp only
    split
    · rw [ih, putEvent_rest]
      exact Eq.trans rfl (flushDue_rest (s := s))
    · exact Eq.trans rfl (flushDue_rest (s := s))

@[simp] theorem writeWaiting_rest {s : State} : hostRest (writeWaiting s).hl = hostRest s.hl := writeRecords_rest

@[simp] theorem dropEvent_rest {s : State} {e : Event} : hostRest (dropEvent s e).hl = hostRest s.hl := rfl

@[simp] theorem writeEvent_rest {s : State} {e : Event} : hostRest (writeEvent s e).hl = hostRest s.hl := by
  unfold writeEvent
  dsimp only
  split
  · rw [putEvent_rest, writeWaiting_rest]
  · rw [dropEvent_rest, writeWaiting_rest]

@[simp] theorem wakeHost_rest {s : State} : hostRest (wakeHost s).hl = hostRest s.hl := by
  unfold wakeHost
  split <;> rfl

@[simp] theorem ringEvent_rest {s : State} {e : Event} : hostRest (ringEvent s e).hl = hostRest s.hl := by
  unfold ringEvent
  split
  · rw [wakeHost_rest]
    rfl
  · exact writeEvent_rest

@[simp] theorem emitAt_rest {s : State} {code unit fn : Nat} {f : Frac} {p : BitVec 128} :
    hostRest (emitAt s code unit fn f p).hl = hostRest s.hl := by
  simp [emitAt]

@[simp] theorem emit_rest {s : State} {code unit : Nat} {p : BitVec 128} :
    hostRest (emit s code unit p).hl = hostRest s.hl := emitAt_rest

theorem hostIdle_of_rest {a b : HostSide} (h : hostRest a = hostRest b) : hostIdle a = hostIdle b := by
  unfold hostIdle
  rw [h]

@[simp] theorem emitAt_idle {s : State} {code unit fn : Nat} {f : Frac} {p : BitVec 128} :
    hostIdle (emitAt s code unit fn f p).hl = hostIdle s.hl := hostIdle_of_rest emitAt_rest

@[simp] theorem emit_idle {s : State} {code unit : Nat} {p : BitVec 128} :
    hostIdle (emit s code unit p).hl = hostIdle s.hl := hostIdle_of_rest emit_rest

/-! ### The two-wire side of an event -/

@[simp] theorem followAttention_rest {s : State} : busRest (followAttention s).tw = busRest s.tw := by
  unfold followAttention
  dsimp only
  (repeat' split) <;> rfl

@[simp] theorem twFlush_rest {s : State} : busRest (twFlush s).tw = busRest s.tw := by
  unfold twFlush
  split <;> rfl

@[simp] theorem twQueue_rest {s : State} {e : Event} : busRest (twQueue s e).tw = busRest s.tw := by
  unfold twQueue
  dsimp only
  (repeat' split) <;> first | exact twFlush_rest | (rw [followAttention_rest]; exact twFlush_rest (s := s))

@[simp] theorem twCopy_rest {s : State} {e : Event} : busRest (twCopy s e).tw = busRest s.tw := by
  unfold twCopy
  split
  · exact twQueue_rest
  · rfl

@[simp] theorem emitAt_busRest {s : State} {code unit fn : Nat} {f : Frac} {p : BitVec 128} :
    busRest (emitAt s code unit fn f p).tw = busRest s.tw := by
  simp [emitAt]

@[simp] theorem emit_busRest {s : State} {code unit : Nat} {p : BitVec 128} :
    busRest (emit s code unit p).tw = busRest s.tw := emitAt_busRest

theorem busIdle_of_rest {a b : TwoWire} (h : busRest a = busRest b) : busIdle a = busIdle b := by
  unfold busIdle
  rw [h]

@[simp] theorem emitAt_busIdle {s : State} {code unit fn : Nat} {f : Frac} {p : BitVec 128} :
    busIdle (emitAt s code unit fn f p).tw = busIdle s.tw := busIdle_of_rest emitAt_busRest

@[simp] theorem emit_busIdle {s : State} {code unit : Nat} {p : BitVec 128} :
    busIdle (emit s code unit p).tw = busIdle s.tw := busIdle_of_rest emit_busRest

@[simp] theorem superseded_busRest {s : State} {a b : Owner} {tag g : Nat} {now : Bool} :
    busRest (superseded s a b tag g now).tw = busRest s.tw := by
  unfold superseded
  cases now
  all_goals
    dsimp only
    simp only [Bool.false_eq_true, if_false, if_true]
    split
    · rfl
    · simp only [emit_busRest]

@[simp] theorem noteWrite_busRest {s : State} {o : Owner} {off g : Nat} :
    busRest (noteWrite s o off g).1.tw = busRest s.tw := by
  unfold noteWrite
  dsimp only
  (repeat' split) <;> simp

@[simp] theorem refusedEvent_busRest {s : State} {o : Owner} {tag g : Nat} :
    busRest (refusedEvent s o tag g).tw = busRest s.tw := by
  unfold refusedEvent
  split <;> simp

@[simp] theorem ownerRefuse_busRest {s : State} {o : Owner} {tag : Nat} {gs : List Nat} :
    busRest (ownerRefuse s o tag gs).tw = busRest s.tw := by
  unfold ownerRefuse
  exact each_keeps (fun s => busRest s.tw) (fun _ _ => refusedEvent_busRest)

/-! ### The record -/

theorem mod_below {a n : Nat} (h : a < 2 * n) : a % n = if a < n then a else a - n := by
  split
  · exact Nat.mod_eq_of_lt ‹_›
  · rw [Nat.mod_eq_sub_mod (by omega), Nat.mod_eq_of_lt (by omega)]

theorem outstanding_put {r : Ring} (hp : r.prod < 2 ^ r.size) (hc : r.cons < 2 ^ r.size)
    (h : outstanding r + 1 < 2 ^ r.size) : outstanding (ringPut r) = outstanding r + 1 := by
  simp only [outstanding, ringPut] at *
  generalize 2 ^ r.size = n at *
  have a1 : (r.prod + 1) % n = if r.prod + 1 < n then r.prod + 1 else r.prod + 1 - n := mod_below (by omega)
  have a2 : (r.prod + n - r.cons) % n =
      if r.prod + n - r.cons < n then r.prod + n - r.cons else r.prod + n - r.cons - n := mod_below (by omega)
  rw [a2] at h ⊢
  rw [a1]
  split
  · rw [mod_below (by omega)]
    (repeat' split at *) <;> omega
  · rw [mod_below (by omega)]
    (repeat' split at *) <;> omega

/-- The messages that follow the record: none within a holdoff, while vector 1 or the function is masked, or while MSI-X is
disabled. -/
def eventMsg (s : State) : List Out :=
  if tget false s.hl.holdoff 1 || !s.hl.fn.msixEn || (vecMasked s 1 || s.hl.fn.msixMask || !ringsOpen s) then []
  else [.msix 1]

/-- The writes of the record's 32 bytes into host memory. -/
def eventWrites (s : State) (e : Event) : List Out :=
  let a := ringAddr s 2 32 s.hl.evt.prod
  let b := eventBytes e s.hl.evt.phase
  [.dma a (b.take (b.length - 4)), .dma (a + (b.length - 4)) (b.drop (b.length - 4))]

theorem signal_out (s : State) : (signal s 1).out = s.out ++ eventMsg s := by
  unfold signal eventMsg sendMsi push
  (repeat' split) <;> simp_all [leaveL1]

theorem sendMsi_evt (s : State) (v : Nat) : (sendMsi s v).hl.evt = s.hl.evt ∧
    ringsOpen (sendMsi s v) = ringsOpen s ∧ (sendMsi s v).hl.lost = s.hl.lost ∧
    (sendMsi s v).hl.waiting = s.hl.waiting := by
  unfold sendMsi push
  (repeat' split) <;> simp [ringsOpen, leaveL1]

theorem signal_evt (s : State) (v : Nat) : (signal s v).hl.evt = s.hl.evt ∧
    ringsOpen (signal s v) = ringsOpen s ∧ (signal s v).hl.lost = s.hl.lost ∧
    (signal s v).hl.waiting = s.hl.waiting := by
  unfold signal
  split
  · simp [ringsOpen]
  · exact sendMsi_evt s v

/-- Nothing waits and nothing was lost: the record is written at once. -/
theorem writeEvent_now {s : State} {e : Event} (h6 : s.hl.lost = 0) (h7 : s.hl.waiting = [])
    (hr : evtRoom s = true) : writeEvent s e = putEvent { s with hl := { s.hl with waiting := [], lostAt := 0 } } e := by
  have hw : writeWaiting s = { s with hl := { s.hl with waiting := [], lostAt := 0 } } := by
    unfold writeWaiting
    rw [h7]
    unfold writeRecords flushLost
    simp [h6]
  unfold writeEvent
  rw [hw]
  simp [evtRoom] at hr
  simp [evtRoom, hr]

/-- One record into an open ring. -/
theorem emitAt_open {s : State} {k : Nat} (h : evtOpen s (k + 1)) (code unit fn : Nat) (f : Frac) (p : BitVec 128) :
    (emitAt s code unit fn f p).out = s.out ++
        .event { code := code, unit := unit, fn := fn, frac := f, payload := p } s.hl.evt.prod s.hl.evt.phase
        :: (eventWrites s { code := code, unit := unit, fn := fn, frac := f, payload := p } ++ eventMsg s) ∧
      evtOpen (emitAt s code unit fn f p) k := by
  obtain ⟨h1, h2, h3, h4, h5, h6, h7⟩ := h
  have hr : ∀ t : State, t.hl = s.hl → evtRoom t = true := by
    intro t ht
    simp only [evtRoom, ht, h2, Bool.true_and, decide_eq_true_eq]
    omega
  have ho : ringsOpen (twCopy s ⟨code, unit, fn, f, p⟩) = true := by simpa [ringsOpen] using h1
  have he : emitAt s code unit fn f p =
      putEvent { twCopy s ⟨code, unit, fn, f, p⟩ with hl := { s.hl with waiting := [], lostAt := 0 } }
        ⟨code, unit, fn, f, p⟩ := by
    have hh : (twCopy s ⟨code, unit, fn, f, p⟩).hl = s.hl := by simp
    have hw := writeEvent_now (e := ⟨code, unit, fn, f, p⟩) (hh ▸ h6) (hh ▸ h7) (hr _ hh)
    unfold emitAt ringEvent
    dsimp only
    rw [ho, hw, hh]
    simp
  rw [he]
  unfold putEvent
  constructor
  · simp [signal_out, writeEntry, dmaWrite, leaveL1, push, eventMsg, eventWrites, vecMasked, ringAddr, reg, ringsOpen]
  · unfold evtOpen
    simp only [signal_evt, writeEntry, dmaWrite, leaveL1, push, twCopy_keeps]
    have hs : (ringPut s.hl.evt).size = s.hl.evt.size := rfl
    refine ⟨h1, h2, ?_, h4, ?_, h6, trivial⟩
    · exact Nat.mod_lt _ (Nat.two_pow_pos _)
    · rw [outstanding_put h3 h4 (by omega), hs]
      omega

theorem emit_open {s : State} {k : Nat} (h : evtOpen s (k + 1)) (code unit : Nat) (p : BitVec 128) :
    (emit s code unit p).out = s.out ++
        .event { code := code, unit := unit, fn := s.fr.fn, frac := s.now, payload := p } s.hl.evt.prod s.hl.evt.phase
        :: (eventWrites s { code := code, unit := unit, fn := s.fr.fn, frac := s.now, payload := p } ++ eventMsg s) ∧
      evtOpen (emit s code unit p) k := emitAt_open h code unit s.fr.fn s.now p

theorem evtOpen_mono {s : State} {k j : Nat} (h : evtOpen s k) (hj : j ≤ k) : evtOpen s j := by
  obtain ⟨h1, h2, h3, h4, h5, h6, h7⟩ := h
  exact ⟨h1, h2, h3, h4, by omega, h6, h7⟩

/-- The ring is as open in a state that agrees on what openness reads. -/
theorem evtOpen_of {s t : State} {k : Nat} (h : evtOpen s k) (e : t.hl.evt = s.hl.evt)
    (u : ringsOpen t = ringsOpen s) (l : t.hl.lost = s.hl.lost)
    (w : t.hl.waiting = s.hl.waiting) : evtOpen t k := by
  unfold evtOpen at *
  rw [e, u, l, w]
  exact h

/-- The last event of a command was raised. -/
theorem raised_emit {s t : State} {f : Frac} {code unit : Nat} {p : BitVec 128} (h : evtOpen t 1)
    (hf : t.fr.fn = s.fr.fn) (hn : t.now = f) : raised s f code unit p (emit t code unit p) := by
  refine ⟨t.hl.evt.prod, t.hl.evt.phase, ?_⟩
  rw [(emit_open (k := 0) h code unit p).1]
  simp [hf, hn]

end Sys2Proof.Laws
end

