-- ==== Sys2Proof/Laws/Rest.lean ====
section
/-! SUPPORT. Operations that touch the host link or the two-wire bus only by raising events. -/

namespace Sys2Proof.Laws

open Sys2Proof Sys2Proof.Machine Sys2Proof.Safety

set_option linter.unusedVariables false
set_option Elab.async false

@[simp] theorem each_rest {α : Type} {l : List α} {s : State} {f : State → α → State}
    (h : ∀ s a, hostRest (f s a).hl = hostRest s.hl) : hostRest (each l s f).hl = hostRest s.hl :=
  each_keeps (fun s => hostRest s.hl) h

@[simp] theorem each_busRest {α : Type} {l : List α} {s : State} {f : State → α → State}
    (h : ∀ s a, busRest (f s a).tw = busRest s.tw) : busRest (each l s f).tw = busRest s.tw :=
  each_keeps (fun s => busRest s.tw) h

@[simp] theorem foldl_fst_rest {α β : Type} {l : List α} {a : State × β} {f : State × β → α → State × β}
    (h : ∀ a x, hostRest (f a x).1.hl = hostRest a.1.hl) : hostRest (l.foldl f a).1.hl = hostRest a.1.hl :=
  foldl_keeps_any (fun a : State × β => hostRest a.1.hl) h

@[simp] theorem foldl_fst_busRest {α β : Type} {l : List α} {a : State × β} {f : State × β → α → State × β}
    (h : ∀ a x, busRest (f a x).1.tw = busRest a.1.tw) : busRest (l.foldl f a).1.tw = busRest a.1.tw :=
  foldl_keeps_any (fun a : State × β => busRest a.1.tw) h

@[simp] theorem foldl_snd_rest {α β : Type} {l : List α} {a : β × State} {f : β × State → α → β × State}
    (h : ∀ a x, hostRest (f a x).2.hl = hostRest a.2.hl) : hostRest (l.foldl f a).2.hl = hostRest a.2.hl :=
  foldl_keeps_any (fun a : β × State => hostRest a.2.hl) h

@[simp] theorem foldl_snd_busRest {α β : Type} {l : List α} {a : β × State} {f : β × State → α → β × State}
    (h : ∀ a x, busRest (f a x).2.tw = busRest a.2.tw) : busRest (l.foldl f a).2.tw = busRest a.2.tw :=
  foldl_keeps_any (fun a : β × State => busRest a.2.tw) h

@[simp] theorem dmaWrite_hostRest {s : State} {addr : Nat} {b : Bytes} :
    hostRest (dmaWrite s addr b).hl = hostRest s.hl := by
  unfold dmaWrite; first | (simp; done) | ((repeat' split) <;> simp; done) | (dsimp only; (repeat' split) <;> simp; done)

@[simp] theorem writeEntry_hostRest {s : State} {addr : Nat} {b : Bytes} {k : Nat} :
    hostRest (writeEntry s addr b k).hl = hostRest s.hl := by
  unfold writeEntry; first | (simp; done) | ((repeat' split) <;> simp; done) | (dsimp only; (repeat' split) <;> simp; done)

@[simp] theorem holdEvent_busRest {s : State} {code : Nat} {unit : Nat} {p : BitVec 128} :
    busRest (holdEvent s code unit p).tw = busRest s.tw := by
  unfold holdEvent; first | (simp; done) | ((repeat' split) <;> simp; done) | (dsimp only; (repeat' split) <;> simp; done)

@[simp] theorem busyOver_busRest {s : State} :
    busRest (busyOver s).tw = busRest s.tw := by
  unfold busyOver; first | (simp; done) | ((repeat' split) <;> simp; done) | (dsimp only; (repeat' split) <;> simp; done)

@[simp] theorem cmdWrite_hostRest {s : State} {c : Cmd} {i : Nat} {b : Bytes} :
    hostRest (cmdWrite s c i b).hl = hostRest s.hl := by
  unfold cmdWrite; first | (simp; done) | ((repeat' split) <;> simp; done) | (dsimp only; (repeat' split) <;> simp; done)

@[simp] theorem haltRing_busRest {s : State} {cause : Nat} :
    busRest (haltRing s cause).tw = busRest s.tw := by
  unfold haltRing; first | (simp; done) | ((repeat' split) <;> simp; done) | (dsimp only; (repeat' split) <;> simp; done)

@[simp] theorem pecError_hostRest {s : State} {code : Byte} :
    hostRest (pecError s code).hl = hostRest s.hl := by
  unfold pecError; first | (simp; done) | ((repeat' split) <;> simp; done) | (dsimp only; (repeat' split) <;> simp; done)

@[simp] theorem notifyFailed_hostRest {s : State} {cause : Nat} :
    hostRest (notifyFailed s cause).hl = hostRest s.hl := by
  unfold notifyFailed; first | (simp; done) | ((repeat' split) <;> simp; done) | (dsimp only; (repeat' split) <;> simp; done)

@[simp] theorem arbLost_hostRest {s : State} {byte : Nat} {bitNo : Nat} {what : Nat} {asTarget : Bool} :
    hostRest (arbLost s byte bitNo what asTarget).hl = hostRest s.hl := by
  unfold arbLost; first | (simp; done) | ((repeat' split) <;> simp; done) | (dsimp only; (repeat' split) <;> simp; done)

@[simp] theorem sdaStuck_hostRest {s : State} {n : Nat} :
    hostRest (sdaStuck s n).hl = hostRest s.hl := by
  unfold sdaStuck; first | (simp; done) | ((repeat' split) <;> simp; done) | (dsimp only; (repeat' split) <;> simp; done)

@[simp] theorem notifyStuck_hostRest {s : State} :
    hostRest (notifyStuck s).hl = hostRest s.hl := by
  unfold notifyStuck; first | (simp; done) | ((repeat' split) <;> simp; done) | (dsimp only; (repeat' split) <;> simp; done)

@[simp] theorem vcoreStuck_hostRest {s : State} :
    hostRest (vcoreStuck s).hl = hostRest s.hl := by
  unfold vcoreStuck; first | (simp; done) | ((repeat' split) <;> simp; done) | (dsimp only; (repeat' split) <;> simp; done)

@[simp] theorem stretched_hostRest {s : State} {target : Bool} {code : Byte} :
    hostRest (stretched s target code).hl = hostRest s.hl := by
  unfold stretched; first | (simp; done) | ((repeat' split) <;> simp; done) | (dsimp only; (repeat' split) <;> simp; done)

@[simp] theorem sendNotify_hostRest {s : State} {n : Nat} {r : CtlResult} :
    hostRest (sendNotify s n r).hl = hostRest s.hl := by
  unfold sendNotify; first | (simp; done) | ((repeat' split) <;> simp; done) | (dsimp only; (repeat' split) <;> simp; done)

@[simp] theorem sendVcore_hostRest {s : State} {level : Nat} {r : CtlResult} :
    hostRest (sendVcore s level r).hl = hostRest s.hl := by
  unfold sendVcore; first | (simp; done) | ((repeat' split) <;> simp; done) | (dsimp only; (repeat' split) <;> simp; done)

@[simp] theorem takeNotify_busRest {s : State} :
    busRest (takeNotify s).tw = busRest s.tw := by
  unfold takeNotify; split <;> rfl

@[simp] theorem setVcore_hostRest {s : State} {level : Nat} {r : CtlResult} :
    hostRest (setVcore s level r).hl = hostRest s.hl := by
  unfold setVcore; first | (simp; done) | ((repeat' split) <;> simp; done) | (dsimp only; (repeat' split) <;> simp; done)

@[simp] theorem writeVid_hostRest {s : State} {v : Word} {r : CtlResult} :
    hostRest (writeVid s v r).hl = hostRest s.hl := by
  unfold writeVid; first | (simp; done) | ((repeat' split) <;> simp; done) | (dsimp only; (repeat' split) <;> simp; done)

@[simp] theorem pantryWear_hostRest {s : State} {what : Nat} :
    hostRest (pantryWear s what).hl = hostRest s.hl := by
  unfold pantryWear; first | (simp; done) | ((repeat' split) <;> simp; done) | (dsimp only; (repeat' split) <;> simp; done)

@[simp] theorem pantryWear_busRest {s : State} {what : Nat} :
    busRest (pantryWear s what).tw = busRest s.tw := by
  unfold pantryWear; first | (simp; done) | ((repeat' split) <;> simp; done) | (dsimp only; (repeat' split) <;> simp; done)

@[simp] theorem noteWear_hostRest {s : State} :
    hostRest (noteWear s).hl = hostRest s.hl := by
  unfold noteWear
  refine (each_rest ?_).trans (by simp)
  intro s a; split <;> simp

@[simp] theorem noteWear_busRest {s : State} :
    busRest (noteWear s).tw = busRest s.tw := by
  unfold noteWear
  refine (each_busRest ?_).trans (by simp)
  intro s a; split <;> simp

@[simp] theorem retireLine_hostRest {s : State} {line : Nat} {copied : Bool} :
    hostRest (retireLine s line copied).hl = hostRest s.hl := by
  unfold retireLine; first | (simp; done) | ((repeat' split) <;> simp; done) | (dsimp only; (repeat' split) <;> simp; done)

@[simp] theorem retireLine_busRest {s : State} {line : Nat} {copied : Bool} :
    busRest (retireLine s line copied).tw = busRest s.tw := by
  unfold retireLine; first | (simp; done) | ((repeat' split) <;> simp; done) | (dsimp only; (repeat' split) <;> simp; done)

@[simp] theorem writeLine_hostRest {s : State} {line : Nat} :
    hostRest (writeLine s line).hl = hostRest s.hl := by
  unfold writeLine; first | (simp; done) | ((repeat' split) <;> simp; done) | (dsimp only; (repeat' split) <;> simp; done)

@[simp] theorem writeLine_busRest {s : State} {line : Nat} :
    busRest (writeLine s line).tw = busRest s.tw := by
  unfold writeLine; first | (simp; done) | ((repeat' split) <;> simp; done) | (dsimp only; (repeat' split) <;> simp; done)

@[simp] theorem pantryReads_hostRest {s : State} {l : List Correction} :
    hostRest (pantryReads s l).hl = hostRest s.hl := by
  unfold pantryReads
  refine each_rest ?_
  intro s a; dsimp only; split <;> simp

@[simp] theorem pantryReads_busRest {s : State} {l : List Correction} :
    busRest (pantryReads s l).tw = busRest s.tw := by
  unfold pantryReads
  refine each_busRest ?_
  intro s a; dsimp only; split <;> simp

@[simp] theorem commitLines_hostRest {s : State} {l : List Nat} :
    hostRest (commitLines s l).hl = hostRest s.hl := by
  unfold commitLines; first | (simp; done) | ((repeat' split) <;> simp; done) | (dsimp only; (repeat' split) <;> simp; done)

@[simp] theorem commitLines_busRest {s : State} {l : List Nat} :
    busRest (commitLines s l).tw = busRest s.tw := by
  unfold commitLines; first | (simp; done) | ((repeat' split) <;> simp; done) | (dsimp only; (repeat' split) <;> simp; done)

@[simp] theorem refuseImage_hostRest {s : State} {b : Bytes} {status : Nat} {step : Nat} :
    hostRest (refuseImage s b status step).hl = hostRest s.hl := by
  unfold refuseImage; first | (simp; done) | ((repeat' split) <;> simp; done) | (dsimp only; (repeat' split) <;> simp; done)

@[simp] theorem refuseImage_busRest {s : State} {b : Bytes} {status : Nat} {step : Nat} :
    busRest (refuseImage s b status step).tw = busRest s.tw := by
  unfold refuseImage; first | (simp; done) | ((repeat' split) <;> simp; done) | (dsimp only; (repeat' split) <;> simp; done)

@[simp] theorem advanceCtr_hostRest {s : State} {h : Header} :
    hostRest (advanceCtr s h).hl = hostRest s.hl := by
  unfold advanceCtr; first | (simp; done) | ((repeat' split) <;> simp; done) | (dsimp only; (repeat' split) <;> simp; done)

@[simp] theorem advanceCtr_busRest {s : State} {h : Header} :
    busRest (advanceCtr s h).tw = busRest s.tw := by
  unfold advanceCtr; first | (simp; done) | ((repeat' split) <;> simp; done) | (dsimp only; (repeat' split) <;> simp; done)

@[simp] theorem fwWrite_hostRest {s : State} {img : Bytes} {body : Bytes} :
    hostRest (fwWrite s img body).hl = hostRest s.hl := by
  unfold fwWrite; first | (simp; done) | ((repeat' split) <;> simp; done) | (dsimp only; (repeat' split) <;> simp; done)

@[simp] theorem fwWrite_busRest {s : State} {img : Bytes} {body : Bytes} :
    busRest (fwWrite s img body).tw = busRest s.tw := by
  unfold fwWrite; first | (simp; done) | ((repeat' split) <;> simp; done) | (dsimp only; (repeat' split) <;> simp; done)

@[simp] theorem fwFallen_hostRest {s : State} {cause : Nat} :
    hostRest (fwFallen s cause).hl = hostRest s.hl := by
  unfold fwFallen; first | (simp; done) | ((repeat' split) <;> simp; done) | (dsimp only; (repeat' split) <;> simp; done)

@[simp] theorem fwFallen_busRest {s : State} {cause : Nat} :
    busRest (fwFallen s cause).tw = busRest s.tw := by
  unfold fwFallen; first | (simp; done) | ((repeat' split) <;> simp; done) | (dsimp only; (repeat' split) <;> simp; done)

@[simp] theorem storeKey_hostRest {s : State} {d : Nat} :
    hostRest (storeKey s d).hl = hostRest s.hl := by
  unfold storeKey; first | (simp; done) | ((repeat' split) <;> simp; done) | (dsimp only; (repeat' split) <;> simp; done)

@[simp] theorem storeKey_busRest {s : State} {d : Nat} :
    busRest (storeKey s d).tw = busRest s.tw := by
  unfold storeKey; first | (simp; done) | ((repeat' split) <;> simp; done) | (dsimp only; (repeat' split) <;> simp; done)

@[simp] theorem setPair_hostRest {s : State} {n : PairState} :
    hostRest (setPair s n).hl = hostRest s.hl := by
  unfold setPair; first | (simp; done) | ((repeat' split) <;> simp; done) | (dsimp only; (repeat' split) <;> simp; done)

@[simp] theorem setPair_busRest {s : State} {n : PairState} :
    busRest (setPair s n).tw = busRest s.tw := by
  unfold setPair; first | (simp; done) | ((repeat' split) <;> simp; done) | (dsimp only; (repeat' split) <;> simp; done)

@[simp] theorem authFail_hostRest {s : State} {reason : Nat} :
    hostRest (authFail s reason).hl = hostRest s.hl := by
  unfold authFail; first | (simp; done) | ((repeat' split) <;> simp; done) | (dsimp only; (repeat' split) <;> simp; done)

@[simp] theorem authFail_busRest {s : State} {reason : Nat} :
    busRest (authFail s reason).tw = busRest s.tw := by
  unfold authFail; first | (simp; done) | ((repeat' split) <;> simp; done) | (dsimp only; (repeat' split) <;> simp; done)

@[simp] theorem setLanes_hostRest {s : State} {l : Nat} :
    hostRest (setLanes s l).hl = hostRest s.hl := by
  unfold setLanes; first | (simp; done) | ((repeat' split) <;> simp; done) | (dsimp only; (repeat' split) <;> simp; done)

@[simp] theorem setLanes_busRest {s : State} {l : Nat} :
    busRest (setLanes s l).tw = busRest s.tw := by
  unfold setLanes; first | (simp; done) | ((repeat' split) <;> simp; done) | (dsimp only; (repeat' split) <;> simp; done)

@[simp] theorem commitApplied_hostRest {s : State} {c : Commit} :
    hostRest (commitApplied s c).hl = hostRest s.hl := by
  unfold commitApplied; first | (simp; done) | ((repeat' split) <;> simp; done) | (dsimp only; (repeat' split) <;> simp; done)

@[simp] theorem commitApplied_busRest {s : State} {c : Commit} :
    busRest (commitApplied s c).tw = busRest s.tw := by
  unfold commitApplied; first | (simp; done) | ((repeat' split) <;> simp; done) | (dsimp only; (repeat' split) <;> simp; done)

@[simp] theorem cancelledEvents_hostRest {s : State} {l : List Commit} {first : Nat} {rest : Nat} :
    hostRest (cancelledEvents s l first rest).hl = hostRest s.hl := by
  unfold cancelledEvents; first | (simp; done) | ((repeat' split) <;> simp; done) | (dsimp only; (repeat' split) <;> simp; done)

@[simp] theorem cancelledEvents_busRest {s : State} {l : List Commit} {first : Nat} {rest : Nat} :
    busRest (cancelledEvents s l first rest).tw = busRest s.tw := by
  unfold cancelledEvents; first | (simp; done) | ((repeat' split) <;> simp; done) | (dsimp only; (repeat' split) <;> simp; done)

@[simp] theorem reportLanes_hostRest {s : State} :
    hostRest (reportLanes s).hl = hostRest s.hl := by
  unfold reportLanes; first | (simp; done) | ((repeat' split) <;> simp; done) | (dsimp only; (repeat' split) <;> simp; done)

@[simp] theorem reportLanes_busRest {s : State} :
    busRest (reportLanes s).tw = busRest s.tw := by
  unfold reportLanes; first | (simp; done) | ((repeat' split) <;> simp; done) | (dsimp only; (repeat' split) <;> simp; done)

@[simp] theorem retireLane_hostRest {s : State} {l : Nat} :
    hostRest (retireLane s l).hl = hostRest s.hl := by
  unfold retireLane; first | (simp; done) | ((repeat' split) <;> simp; done) | (dsimp only; (repeat' split) <;> simp; done)

@[simp] theorem retireLane_busRest {s : State} {l : Nat} :
    busRest (retireLane s l).tw = busRest s.tw := by
  unfold retireLane; first | (simp; done) | ((repeat' split) <;> simp; done) | (dsimp only; (repeat' split) <;> simp; done)

@[simp] theorem retireLanes_hostRest {s : State} :
    hostRest (retireLanes s).hl = hostRest s.hl := by
  unfold retireLanes; first | (simp; done) | ((repeat' split) <;> simp; done) | (dsimp only; (repeat' split) <;> simp; done)

@[simp] theorem retireLanes_busRest {s : State} :
    busRest (retireLanes s).tw = busRest s.tw := by
  unfold retireLanes; first | (simp; done) | ((repeat' split) <;> simp; done) | (dsimp only; (repeat' split) <;> simp; done)

@[simp] theorem shedEvents_hostRest {s : State} {l : List (Nat × Nat × Nat)} :
    hostRest (shedEvents s l).hl = hostRest s.hl := by
  unfold shedEvents; first | (simp; done) | ((repeat' split) <;> simp; done) | (dsimp only; (repeat' split) <;> simp; done)

@[simp] theorem shedEvents_busRest {s : State} {l : List (Nat × Nat × Nat)} :
    busRest (shedEvents s l).tw = busRest s.tw := by
  unfold shedEvents; first | (simp; done) | ((repeat' split) <;> simp; done) | (dsimp only; (repeat' split) <;> simp; done)

@[simp] theorem budgetEvent_hostRest {s : State} {old : Nat} {new : Nat} {cause : Nat} :
    hostRest (budgetEvent s old new cause).hl = hostRest s.hl := by
  unfold budgetEvent; first | (simp; done) | ((repeat' split) <;> simp; done) | (dsimp only; (repeat' split) <;> simp; done)

@[simp] theorem budgetEvent_busRest {s : State} {old : Nat} {new : Nat} {cause : Nat} :
    busRest (budgetEvent s old new cause).tw = busRest s.tw := by
  unfold budgetEvent; first | (simp; done) | ((repeat' split) <;> simp; done) | (dsimp only; (repeat' split) <;> simp; done)

@[simp] theorem freeDamaged_hostRest {s : State} :
    hostRest (freeDamaged s).hl = hostRest s.hl := by
  unfold freeDamaged; first | (simp; done) | ((repeat' split) <;> simp; done) | (dsimp only; (repeat' split) <;> simp; done)

@[simp] theorem freeDamaged_busRest {s : State} :
    busRest (freeDamaged s).tw = busRest s.tw := by
  unfold freeDamaged; first | (simp; done) | ((repeat' split) <;> simp; done) | (dsimp only; (repeat' split) <;> simp; done)

@[simp] theorem reportClips_hostRest {s : State} :
    hostRest (reportClips s).hl = hostRest s.hl := by
  unfold reportClips
  refine (each_rest ?_).trans (by simp)
  intro s a; dsimp only; split <;> simp

@[simp] theorem reportClips_busRest {s : State} :
    busRest (reportClips s).tw = busRest s.tw := by
  unfold reportClips
  refine (each_busRest ?_).trans (by simp)
  intro s a; dsimp only; split <;> simp

@[simp] theorem reportEngineClip_hostRest {s : State} {e : Nat} :
    hostRest (reportEngineClip s e).hl = hostRest s.hl := by
  unfold reportEngineClip; first | (simp; done) | ((repeat' split) <;> simp; done) | (dsimp only; (repeat' split) <;> simp; done)

@[simp] theorem reportEngineClip_busRest {s : State} {e : Nat} :
    busRest (reportEngineClip s e).tw = busRest s.tw := by
  unfold reportEngineClip; first | (simp; done) | ((repeat' split) <;> simp; done) | (dsimp only; (repeat' split) <;> simp; done)

@[simp] theorem reportEngineClips_hostRest {s : State} :
    hostRest (reportEngineClips s).hl = hostRest s.hl := by
  unfold reportEngineClips; first | (simp; done) | ((repeat' split) <;> simp; done) | (dsimp only; (repeat' split) <;> simp; done)

@[simp] theorem reportEngineClips_busRest {s : State} :
    busRest (reportEngineClips s).tw = busRest s.tw := by
  unfold reportEngineClips; first | (simp; done) | ((repeat' split) <;> simp; done) | (dsimp only; (repeat' split) <;> simp; done)

@[simp] theorem refuseParam_hostRest {s : State} {e : Nat} {n : Nat} {w : Nat} {attr : Nat} :
    hostRest (refuseParam s e n w attr).hl = hostRest s.hl := by
  unfold refuseParam; first | (simp; done) | ((repeat' split) <;> simp; done) | (dsimp only; (repeat' split) <;> simp; done)

@[simp] theorem refuseParam_busRest {s : State} {e : Nat} {n : Nat} {w : Nat} {attr : Nat} :
    busRest (refuseParam s e n w attr).tw = busRest s.tw := by
  unfold refuseParam; first | (simp; done) | ((repeat' split) <;> simp; done) | (dsimp only; (repeat' split) <;> simp; done)

@[simp] theorem writePdata_hostRest {s : State} {o : Owner} {v : Word} :
    hostRest (writePdata s o v).hl = hostRest s.hl := by
  unfold writePdata; first | (simp; done) | ((repeat' split) <;> simp; done) | (dsimp only; (repeat' split) <;> simp; done)

@[simp] theorem writePdata_busRest {s : State} {o : Owner} {v : Word} :
    busRest (writePdata s o v).tw = busRest s.tw := by
  unfold writePdata; first | (simp; done) | ((repeat' split) <;> simp; done) | (dsimp only; (repeat' split) <;> simp; done)

@[simp] theorem discardSets_hostRest {s : State} {e : Nat} {cause : Nat} :
    hostRest (discardSets s e cause).hl = hostRest s.hl := by
  unfold discardSets; first | (simp; done) | ((repeat' split) <;> simp; done) | (dsimp only; (repeat' split) <;> simp; done)

@[simp] theorem discardSets_busRest {s : State} {e : Nat} {cause : Nat} :
    busRest (discardSets s e cause).tw = busRest s.tw := by
  unfold discardSets; first | (simp; done) | ((repeat' split) <;> simp; done) | (dsimp only; (repeat' split) <;> simp; done)

@[simp] theorem failEngine_hostRest {s : State} {e : Nat} :
    hostRest (failEngine s e).hl = hostRest s.hl := by
  unfold failEngine; first | (simp; done) | ((repeat' split) <;> simp; done) | (dsimp only; (repeat' split) <;> simp; done)

@[simp] theorem failEngine_busRest {s : State} {e : Nat} :
    busRest (failEngine s e).tw = busRest s.tw := by
  unfold failEngine; first | (simp; done) | ((repeat' split) <;> simp; done) | (dsimp only; (repeat' split) <;> simp; done)

@[simp] theorem failEngines_hostRest {s : State} :
    hostRest (failEngines s).hl = hostRest s.hl := by
  unfold failEngines; first | (simp; done) | ((repeat' split) <;> simp; done) | (dsimp only; (repeat' split) <;> simp; done)

@[simp] theorem failEngines_busRest {s : State} :
    busRest (failEngines s).tw = busRest s.tw := by
  unfold failEngines; first | (simp; done) | ((repeat' split) <;> simp; done) | (dsimp only; (repeat' split) <;> simp; done)

@[simp] theorem applySwap_hostRest {s : State} {e : Nat} {r : Recipe} :
    hostRest (applySwap s e r).hl = hostRest s.hl := by
  unfold applySwap; first | (simp; done) | ((repeat' split) <;> simp; done) | (dsimp only; (repeat' split) <;> simp; done)

@[simp] theorem applySwap_busRest {s : State} {e : Nat} {r : Recipe} :
    busRest (applySwap s e r).tw = busRest s.tw := by
  unfold applySwap; first | (simp; done) | ((repeat' split) <;> simp; done) | (dsimp only; (repeat' split) <;> simp; done)

@[simp] theorem clearedEvent_hostRest {s : State} {e : Nat} {x : Engine} :
    hostRest (clearedEvent s e x).hl = hostRest s.hl := by
  unfold clearedEvent; first | (simp; done) | ((repeat' split) <;> simp; done) | (dsimp only; (repeat' split) <;> simp; done)

@[simp] theorem clearedEvent_busRest {s : State} {e : Nat} {x : Engine} :
    busRest (clearedEvent s e x).tw = busRest s.tw := by
  unfold clearedEvent; first | (simp; done) | ((repeat' split) <;> simp; done) | (dsimp only; (repeat' split) <;> simp; done)

@[simp] theorem applyClear_hostRest {s : State} {e : Nat} :
    hostRest (applyClear s e).hl = hostRest s.hl := by
  unfold applyClear; first | (simp; done) | ((repeat' split) <;> simp; done) | (dsimp only; (repeat' split) <;> simp; done)

@[simp] theorem applyClear_busRest {s : State} {e : Nat} :
    busRest (applyClear s e).tw = busRest s.tw := by
  unfold applyClear; first | (simp; done) | ((repeat' split) <;> simp; done) | (dsimp only; (repeat' split) <;> simp; done)

@[simp] theorem applyParams_busRest {s : State} {o : Owner} {sets : List (Nat × Tbl Word)} {notify : Bool} {seen : List (Nat × Nat × Owner)} :
    busRest (applyParams s o sets notify seen).1.tw = busRest s.tw := by
  unfold applyParams; first | (simp; done) | ((repeat' split) <;> simp; done) | (dsimp only; (repeat' split) <;> simp; done)

@[simp] theorem applyBypass_hostRest {s : State} {e : Nat} {v : Word} :
    hostRest (applyBypass s e v).hl = hostRest s.hl := by
  unfold applyBypass; first | (simp; done) | ((repeat' split) <;> simp; done) | (dsimp only; (repeat' split) <;> simp; done)

@[simp] theorem applyBypass_busRest {s : State} {e : Nat} {v : Word} :
    busRest (applyBypass s e v).tw = busRest s.tw := by
  unfold applyBypass; first | (simp; done) | ((repeat' split) <;> simp; done) | (dsimp only; (repeat' split) <;> simp; done)

@[simp] theorem chStopped_hostRest {s : State} {c : Nat} :
    hostRest (chStopped s c).hl = hostRest s.hl := by
  unfold chStopped; first | (simp; done) | ((repeat' split) <;> simp; done) | (dsimp only; (repeat' split) <;> simp; done)

@[simp] theorem chStopped_busRest {s : State} {c : Nat} :
    busRest (chStopped s c).tw = busRest s.tw := by
  unfold chStopped; first | (simp; done) | ((repeat' split) <;> simp; done) | (dsimp only; (repeat' split) <;> simp; done)

@[simp] theorem chStarted_hostRest {s : State} {c : Nat} :
    hostRest (chStarted s c).hl = hostRest s.hl := by
  unfold chStarted; first | (simp; done) | ((repeat' split) <;> simp; done) | (dsimp only; (repeat' split) <;> simp; done)

@[simp] theorem chStarted_busRest {s : State} {c : Nat} :
    busRest (chStarted s c).tw = busRest s.tw := by
  unfold chStarted; first | (simp; done) | ((repeat' split) <;> simp; done) | (dsimp only; (repeat' split) <;> simp; done)

@[simp] theorem muteCh_hostRest {cause : Nat} {s : State} {c : Nat} :
    hostRest (muteCh cause s c).hl = hostRest s.hl := by
  unfold muteCh; first | (simp; done) | ((repeat' split) <;> simp; done) | (dsimp only; (repeat' split) <;> simp; done)

@[simp] theorem muteCh_busRest {cause : Nat} {s : State} {c : Nat} :
    busRest (muteCh cause s c).tw = busRest s.tw := by
  unfold muteCh; first | (simp; done) | ((repeat' split) <;> simp; done) | (dsimp only; (repeat' split) <;> simp; done)

@[simp] theorem rearmRefused_hostRest {s : State} {c : Nat} {reason : Nat} {fn : Nat} {t : Frac} :
    hostRest (rearmRefused s c reason fn t).hl = hostRest s.hl := by
  unfold rearmRefused; first | (simp; done) | ((repeat' split) <;> simp; done) | (dsimp only; (repeat' split) <;> simp; done)

@[simp] theorem rearmRefused_busRest {s : State} {c : Nat} {reason : Nat} {fn : Nat} {t : Frac} :
    busRest (rearmRefused s c reason fn t).tw = busRest s.tw := by
  unfold rearmRefused; first | (simp; done) | ((repeat' split) <;> simp; done) | (dsimp only; (repeat' split) <;> simp; done)

@[simp] theorem enableCh_hostRest {s : State} {c : Nat} :
    hostRest (enableCh s c).hl = hostRest s.hl := by
  unfold enableCh; first | (simp; done) | ((repeat' split) <;> simp; done) | (dsimp only; (repeat' split) <;> simp; done)

@[simp] theorem enableCh_busRest {s : State} {c : Nat} :
    busRest (enableCh s c).tw = busRest s.tw := by
  unfold enableCh; first | (simp; done) | ((repeat' split) <;> simp; done) | (dsimp only; (repeat' split) <;> simp; done)

@[simp] theorem rearmTakes_hostRest {s : State} {c : Nat} :
    hostRest (rearmTakes s c).hl = hostRest s.hl := by
  unfold rearmTakes; first | (simp; done) | ((repeat' split) <;> simp; done) | (dsimp only; (repeat' split) <;> simp; done)

@[simp] theorem rearmTakes_busRest {s : State} {c : Nat} :
    busRest (rearmTakes s c).tw = busRest s.tw := by
  unfold rearmTakes; first | (simp; done) | ((repeat' split) <;> simp; done) | (dsimp only; (repeat' split) <;> simp; done)

@[simp] theorem applyChCtrl_hostRest {s : State} {c : Nat} {v : Word} :
    hostRest (applyChCtrl s c v).hl = hostRest s.hl := by
  unfold applyChCtrl; first | (simp; done) | ((repeat' split) <;> simp; done) | (dsimp only; (repeat' split) <;> simp; done)

@[simp] theorem applyChCtrl_busRest {s : State} {c : Nat} {v : Word} :
    busRest (applyChCtrl s c v).tw = busRest s.tw := by
  unfold applyChCtrl; first | (simp; done) | ((repeat' split) <;> simp; done) | (dsimp only; (repeat' split) <;> simp; done)

@[simp] theorem psConfig_hostRest {s : State} {c : Nat} {r : PsReg} {v : Word} :
    hostRest (psConfig s c r v).hl = hostRest s.hl := by
  unfold psConfig; first | (simp; done) | ((repeat' split) <;> simp; done) | (dsimp only; (repeat' split) <;> simp; done)

@[simp] theorem psConfig_busRest {s : State} {c : Nat} {r : PsReg} {v : Word} :
    busRest (psConfig s c r v).tw = busRest s.tw := by
  unfold psConfig; first | (simp; done) | ((repeat' split) <;> simp; done) | (dsimp only; (repeat' split) <;> simp; done)

@[simp] theorem clockMute_hostRest {s : State} {missing : Bool} :
    hostRest (clockMute s missing).hl = hostRest s.hl := by
  unfold clockMute; first | (simp; done) | ((repeat' split) <;> simp; done) | (dsimp only; (repeat' split) <;> simp; done)

@[simp] theorem clockMute_busRest {s : State} {missing : Bool} :
    busRest (clockMute s missing).tw = busRest s.tw := by
  unfold clockMute; first | (simp; done) | ((repeat' split) <;> simp; done) | (dsimp only; (repeat' split) <;> simp; done)

@[simp] theorem domainChanged_hostRest {s : State} {d : Nat} {what : Nat} {cause : Nat} :
    hostRest (domainChanged s d what cause).hl = hostRest s.hl := by
  unfold domainChanged; first | (simp; done) | ((repeat' split) <;> simp; done) | (dsimp only; (repeat' split) <;> simp; done)

@[simp] theorem domainChanged_busRest {s : State} {d : Nat} {what : Nat} {cause : Nat} :
    busRest (domainChanged s d what cause).tw = busRest s.tw := by
  unfold domainChanged; first | (simp; done) | ((repeat' split) <;> simp; done) | (dsimp only; (repeat' split) <;> simp; done)

@[simp] theorem idleWake_hostRest {s : State} {d : PowerDie} {sink : Nat} :
    hostRest (idleWake s d sink).hl = hostRest s.hl := by
  unfold idleWake; first | (simp; done) | ((repeat' split) <;> simp; done) | (dsimp only; (repeat' split) <;> simp; done)

@[simp] theorem idleWake_busRest {s : State} {d : PowerDie} {sink : Nat} :
    busRest (idleWake s d sink).tw = busRest s.tw := by
  unfold idleWake; first | (simp; done) | ((repeat' split) <;> simp; done) | (dsimp only; (repeat' split) <;> simp; done)

@[simp] theorem powerStrobe_hostRest {s : State} {x : StrobeIn} :
    hostRest (powerStrobe s x).hl = hostRest s.hl := by
  unfold powerStrobe; first | (simp; done) | ((repeat' split) <;> simp; done) | (dsimp only; (repeat' split) <;> simp; done)

@[simp] theorem powerStrobe_busRest {s : State} {x : StrobeIn} :
    busRest (powerStrobe s x).tw = busRest s.tw := by
  unfold powerStrobe; first | (simp; done) | ((repeat' split) <;> simp; done) | (dsimp only; (repeat' split) <;> simp; done)

@[simp] theorem limitEvents_hostRest {s : State} {c : Nat} {before : Bool} :
    hostRest (limitEvents s c before).hl = hostRest s.hl := by
  unfold limitEvents; first | (simp; done) | ((repeat' split) <;> simp; done) | (dsimp only; (repeat' split) <;> simp; done)

@[simp] theorem limitEvents_busRest {s : State} {c : Nat} {before : Bool} :
    busRest (limitEvents s c before).tw = busRest s.tw := by
  unfold limitEvents; first | (simp; done) | ((repeat' split) <;> simp; done) | (dsimp only; (repeat' split) <;> simp; done)

@[simp] theorem overExcursion_hostRest {s : State} {c : Nat} :
    hostRest (overExcursion s c).hl = hostRest s.hl := by
  unfold overExcursion; first | (simp; done) | ((repeat' split) <;> simp; done) | (dsimp only; (repeat' split) <;> simp; done)

@[simp] theorem overExcursion_busRest {s : State} {c : Nat} :
    busRest (overExcursion s c).tw = busRest s.tw := by
  unfold overExcursion; first | (simp; done) | ((repeat' split) <;> simp; done) | (dsimp only; (repeat' split) <;> simp; done)

@[simp] theorem validWindow_hostRest {s : State} {c : Nat} :
    hostRest (validWindow s c).hl = hostRest s.hl := by
  unfold validWindow; first | (simp; done) | ((repeat' split) <;> simp; done) | (dsimp only; (repeat' split) <;> simp; done)

@[simp] theorem validWindow_busRest {s : State} {c : Nat} :
    busRest (validWindow s c).tw = busRest s.tw := by
  unfold validWindow; first | (simp; done) | ((repeat' split) <;> simp; done) | (dsimp only; (repeat' split) <;> simp; done)

@[simp] theorem windowEnd_hostRest {s : State} {c : Nat} :
    hostRest (windowEnd s c).hl = hostRest s.hl := by
  unfold windowEnd; first | (simp; done) | ((repeat' split) <;> simp; done) | (dsimp only; (repeat' split) <;> simp; done)

@[simp] theorem windowEnd_busRest {s : State} {c : Nat} :
    busRest (windowEnd s c).tw = busRest s.tw := by
  unfold windowEnd; first | (simp; done) | ((repeat' split) <;> simp; done) | (dsimp only; (repeat' split) <;> simp; done)

@[simp] theorem windowStrobe_hostRest {cur : Tbl Word} {s : State} {c : Nat} :
    hostRest (windowStrobe cur s c).hl = hostRest s.hl := by
  unfold windowStrobe; first | (simp; done) | ((repeat' split) <;> simp; done) | (dsimp only; (repeat' split) <;> simp; done)

@[simp] theorem windowStrobe_busRest {cur : Tbl Word} {s : State} {c : Nat} :
    busRest (windowStrobe cur s c).tw = busRest s.tw := by
  unfold windowStrobe; first | (simp; done) | ((repeat' split) <;> simp; done) | (dsimp only; (repeat' split) <;> simp; done)

@[simp] theorem thermalMute_hostRest {s : State} {c : Nat} :
    hostRest (thermalMute s c).hl = hostRest s.hl := by
  unfold thermalMute; first | (simp; done) | ((repeat' split) <;> simp; done) | (dsimp only; (repeat' split) <;> simp; done)

@[simp] theorem thermalMute_busRest {s : State} {c : Nat} :
    busRest (thermalMute s c).tw = busRest s.tw := by
  unfold thermalMute; first | (simp; done) | ((repeat' split) <;> simp; done) | (dsimp only; (repeat' split) <;> simp; done)

@[simp] theorem protectCh_hostRest {cur : Tbl Word} {s : State} {c : Nat} :
    hostRest (protectCh cur s c).hl = hostRest s.hl := by
  unfold protectCh; first | (simp; done) | ((repeat' split) <;> simp; done) | (dsimp only; (repeat' split) <;> simp; done)

@[simp] theorem protectCh_busRest {cur : Tbl Word} {s : State} {c : Nat} :
    busRest (protectCh cur s c).tw = busRest s.tw := by
  unfold protectCh; first | (simp; done) | ((repeat' split) <;> simp; done) | (dsimp only; (repeat' split) <;> simp; done)

@[simp] theorem protectStrobe_hostRest {s : State} {x : StrobeIn} :
    hostRest (protectStrobe s x).hl = hostRest s.hl := by
  unfold protectStrobe; first | (simp; done) | ((repeat' split) <;> simp; done) | (dsimp only; (repeat' split) <;> simp; done)

@[simp] theorem protectStrobe_busRest {s : State} {x : StrobeIn} :
    busRest (protectStrobe s x).tw = busRest s.tw := by
  unfold protectStrobe; first | (simp; done) | ((repeat' split) <;> simp; done) | (dsimp only; (repeat' split) <;> simp; done)

@[simp] theorem impClear_hostRest {s : State} {c : Nat} :
    hostRest (impClear s c).hl = hostRest s.hl := by
  unfold impClear; first | (simp; done) | ((repeat' split) <;> simp; done) | (dsimp only; (repeat' split) <;> simp; done)

@[simp] theorem impClear_busRest {s : State} {c : Nat} :
    busRest (impClear s c).tw = busRest s.tw := by
  unfold impClear; first | (simp; done) | ((repeat' split) <;> simp; done) | (dsimp only; (repeat' split) <;> simp; done)

@[simp] theorem setSolo_hostRest {s : State} {c : Nat} {v : Bool} :
    hostRest (setSolo s c v).hl = hostRest s.hl := by
  unfold setSolo; first | (simp; done) | ((repeat' split) <;> simp; done) | (dsimp only; (repeat' split) <;> simp; done)

@[simp] theorem setSolo_busRest {s : State} {c : Nat} {v : Bool} :
    busRest (setSolo s c v).tw = busRest s.tw := by
  unfold setSolo; first | (simp; done) | ((repeat' split) <;> simp; done) | (dsimp only; (repeat' split) <;> simp; done)

@[simp] theorem limitRefused_hostRest {s : State} {c : Nat} {off : Nat} :
    hostRest (limitRefused s c off).hl = hostRest s.hl := by
  unfold limitRefused; first | (simp; done) | ((repeat' split) <;> simp; done) | (dsimp only; (repeat' split) <;> simp; done)

@[simp] theorem limitRefused_busRest {s : State} {c : Nat} {off : Nat} :
    busRest (limitRefused s c off).tw = busRest s.tw := by
  unfold limitRefused; first | (simp; done) | ((repeat' split) <;> simp; done) | (dsimp only; (repeat' split) <;> simp; done)

@[simp] theorem spWrite_hostRest {s : State} {c : Nat} {n : RegName} {v : Word} :
    hostRest (spWrite s c n v).hl = hostRest s.hl := by
  unfold spWrite; first | (simp; done) | ((repeat' split) <;> simp; done) | (dsimp only; (repeat' split) <;> simp; done)

@[simp] theorem spWrite_busRest {s : State} {c : Nat} {n : RegName} {v : Word} :
    busRest (spWrite s c n v).tw = busRest s.tw := by
  unfold spWrite; first | (simp; done) | ((repeat' split) <;> simp; done) | (dsimp only; (repeat' split) <;> simp; done)

@[simp] theorem applyEnvCh_hostRest {s : State} {p : Nat × Env} :
    hostRest (applyEnvCh s p).hl = hostRest s.hl := by
  unfold applyEnvCh; first | (simp; done) | ((repeat' split) <;> simp; done) | (dsimp only; (repeat' split) <;> simp; done)

@[simp] theorem applyEnvCh_busRest {s : State} {p : Nat × Env} :
    busRest (applyEnvCh s p).tw = busRest s.tw := by
  unfold applyEnvCh; first | (simp; done) | ((repeat' split) <;> simp; done) | (dsimp only; (repeat' split) <;> simp; done)

@[simp] theorem applyEnv_hostRest {s : State} {l : List (Nat × Env)} :
    hostRest (applyEnv s l).hl = hostRest s.hl := by
  unfold applyEnv; first | (simp; done) | ((repeat' split) <;> simp; done) | (dsimp only; (repeat' split) <;> simp; done)

@[simp] theorem applyEnv_busRest {s : State} {l : List (Nat × Env)} :
    busRest (applyEnv s l).tw = busRest s.tw := by
  unfold applyEnv; first | (simp; done) | ((repeat' split) <;> simp; done) | (dsimp only; (repeat' split) <;> simp; done)

@[simp] theorem storeEnv_hostRest {s : State} {img : Bytes} {marks : List Nat} {lines : List Nat} :
    hostRest (storeEnv s img marks lines).hl = hostRest s.hl := by
  unfold storeEnv; first | (simp; done) | ((repeat' split) <;> simp; done) | (dsimp only; (repeat' split) <;> simp; done)

@[simp] theorem storeEnv_busRest {s : State} {img : Bytes} {marks : List Nat} {lines : List Nat} :
    busRest (storeEnv s img marks lines).tw = busRest s.tw := by
  unfold storeEnv; first | (simp; done) | ((repeat' split) <;> simp; done) | (dsimp only; (repeat' split) <;> simp; done)

@[simp] theorem applyFailSafe_hostRest {s : State} {c : Nat} :
    hostRest (applyFailSafe s c).hl = hostRest s.hl := by
  unfold applyFailSafe; first | (simp; done) | ((repeat' split) <;> simp; done) | (dsimp only; (repeat' split) <;> simp; done)

@[simp] theorem applyFailSafe_busRest {s : State} {c : Nat} :
    busRest (applyFailSafe s c).tw = busRest s.tw := by
  unfold applyFailSafe; first | (simp; done) | ((repeat' split) <;> simp; done) | (dsimp only; (repeat' split) <;> simp; done)

@[simp] theorem restoreEnvelope_hostRest {s : State} {x : StoredEnv} :
    hostRest (restoreEnvelope s x).1.hl = hostRest s.hl := by
  unfold restoreEnvelope; first | (simp; done) | ((repeat' split) <;> simp; done) | (dsimp only; (repeat' split) <;> simp; done)

@[simp] theorem restoreEnvelope_busRest {s : State} {x : StoredEnv} :
    busRest (restoreEnvelope s x).1.tw = busRest s.tw := by
  unfold restoreEnvelope; first | (simp; done) | ((repeat' split) <;> simp; done) | (dsimp only; (repeat' split) <;> simp; done)

@[simp] theorem restoreEvent_hostRest {s : State} {l : List (StoredEnv × Nat)} {why : Nat} :
    hostRest (restoreEvent s l why).hl = hostRest s.hl := by
  unfold restoreEvent; first | (simp; done) | ((repeat' split) <;> simp; done) | (dsimp only; (repeat' split) <;> simp; done)

@[simp] theorem restoreEvent_busRest {s : State} {l : List (StoredEnv × Nat)} {why : Nat} :
    busRest (restoreEvent s l why).tw = busRest s.tw := by
  unfold restoreEvent; first | (simp; done) | ((repeat' split) <;> simp; done) | (dsimp only; (repeat' split) <;> simp; done)

@[simp] theorem restoreAll_hostRest {x1 : List StoredEnv} {x2 : State} :
    hostRest (restoreAll x1 x2).1.hl = hostRest x2.hl := by
  induction x1 generalizing x2 with
  | nil => rfl
  | cons x l ih => simp [restoreAll, ih]

@[simp] theorem restoreAll_busRest {x1 : List StoredEnv} {x2 : State} :
    busRest (restoreAll x1 x2).1.tw = busRest x2.tw := by
  induction x1 generalizing x2 with
  | nil => rfl
  | cons x l ih => simp [restoreAll, ih]

@[simp] theorem restoreEnvelopes_hostRest {s : State} :
    hostRest (restoreEnvelopes s).hl = hostRest s.hl := by
  unfold restoreEnvelopes; first | (simp; done) | ((repeat' split) <;> simp; done) | (dsimp only; (repeat' split) <;> simp; done)

@[simp] theorem restoreEnvelopes_busRest {s : State} :
    busRest (restoreEnvelopes s).tw = busRest s.tw := by
  unfold restoreEnvelopes; first | (simp; done) | ((repeat' split) <;> simp; done) | (dsimp only; (repeat' split) <;> simp; done)

@[simp] theorem pdmClockState_hostRest {s : State} {k : Nat} {what : Nat} :
    hostRest (pdmClockState s k what).hl = hostRest s.hl := by
  unfold pdmClockState; first | (simp; done) | ((repeat' split) <;> simp; done) | (dsimp only; (repeat' split) <;> simp; done)

@[simp] theorem pdmClockState_busRest {s : State} {k : Nat} {what : Nat} :
    busRest (pdmClockState s k what).tw = busRest s.tw := by
  unfold pdmClockState; first | (simp; done) | ((repeat' split) <;> simp; done) | (dsimp only; (repeat' split) <;> simp; done)

@[simp] theorem pdmStop_hostRest {s : State} {k : Nat} :
    hostRest (pdmStop s k).hl = hostRest s.hl := by
  unfold pdmStop; first | (simp; done) | ((repeat' split) <;> simp; done) | (dsimp only; (repeat' split) <;> simp; done)

@[simp] theorem pdmStop_busRest {s : State} {k : Nat} :
    busRest (pdmStop s k).tw = busRest s.tw := by
  unfold pdmStop; first | (simp; done) | ((repeat' split) <;> simp; done) | (dsimp only; (repeat' split) <;> simp; done)

@[simp] theorem pdmFollow_hostRest {s : State} {k : Nat} :
    hostRest (pdmFollow s k).hl = hostRest s.hl := by
  unfold pdmFollow; first | (simp; done) | ((repeat' split) <;> simp; done) | (dsimp only; (repeat' split) <;> simp; done)

@[simp] theorem pdmFollow_busRest {s : State} {k : Nat} :
    busRest (pdmFollow s k).tw = busRest s.tw := by
  unfold pdmFollow; first | (simp; done) | ((repeat' split) <;> simp; done) | (dsimp only; (repeat' split) <;> simp; done)

@[simp] theorem pdmFollowAll_hostRest {s : State} :
    hostRest (pdmFollowAll s).hl = hostRest s.hl := by
  unfold pdmFollowAll; first | (simp; done) | ((repeat' split) <;> simp; done) | (dsimp only; (repeat' split) <;> simp; done)

@[simp] theorem pdmFollowAll_busRest {s : State} :
    busRest (pdmFollowAll s).tw = busRest s.tw := by
  unfold pdmFollowAll; first | (simp; done) | ((repeat' split) <;> simp; done) | (dsimp only; (repeat' split) <;> simp; done)

@[simp] theorem ainUp_hostRest {s : State} :
    hostRest (ainUp s).hl = hostRest s.hl := by
  unfold ainUp; first | (simp; done) | ((repeat' split) <;> simp; done) | (dsimp only; (repeat' split) <;> simp; done)

@[simp] theorem ainUp_busRest {s : State} :
    busRest (ainUp s).tw = busRest s.tw := by
  unfold ainUp; first | (simp; done) | ((repeat' split) <;> simp; done) | (dsimp only; (repeat' split) <;> simp; done)

@[simp] theorem rateInputs_hostRest {s : State} {old : Nat} :
    hostRest (rateInputs s old).hl = hostRest s.hl := by
  unfold rateInputs; first | (simp; done) | ((repeat' split) <;> simp; done) | (dsimp only; (repeat' split) <;> simp; done)

@[simp] theorem rateInputs_busRest {s : State} {old : Nat} :
    busRest (rateInputs s old).tw = busRest s.tw := by
  unfold rateInputs; first | (simp; done) | ((repeat' split) <;> simp; done) | (dsimp only; (repeat' split) <;> simp; done)

@[simp] theorem inputOverload_hostRest {s : State} {q : Nat} {analog : Bool} {clip : Bool} :
    hostRest (inputOverload s q analog clip).hl = hostRest s.hl := by
  unfold inputOverload; first | (simp; done) | ((repeat' split) <;> simp; done) | (dsimp only; (repeat' split) <;> simp; done)

@[simp] theorem inputOverload_busRest {s : State} {q : Nat} {analog : Bool} {clip : Bool} :
    busRest (inputOverload s q analog clip).tw = busRest s.tw := by
  unfold inputOverload; first | (simp; done) | ((repeat' split) <;> simp; done) | (dsimp only; (repeat' split) <;> simp; done)

@[simp] theorem captureInput_hostRest {x : StrobeIn} {a : Tbl Int × State} {q : Nat} :
    hostRest (captureInput x a q).2.hl = hostRest a.2.hl := by
  unfold captureInput; first | (simp; done) | ((repeat' split) <;> simp; done) | (dsimp only; (repeat' split) <;> simp; done)

@[simp] theorem captureInput_busRest {x : StrobeIn} {a : Tbl Int × State} {q : Nat} :
    busRest (captureInput x a q).2.tw = busRest a.2.tw := by
  unfold captureInput; first | (simp; done) | ((repeat' split) <;> simp; done) | (dsimp only; (repeat' split) <;> simp; done)

@[simp] theorem captureInputs_hostRest {s : State} {x : StrobeIn} :
    hostRest (captureInputs s x).2.hl = hostRest s.hl := by
  unfold captureInputs; first | (simp; done) | ((repeat' split) <;> simp; done) | (dsimp only; (repeat' split) <;> simp; done)

@[simp] theorem captureInputs_busRest {s : State} {x : StrobeIn} :
    busRest (captureInputs s x).2.tw = busRest s.tw := by
  unfold captureInputs; first | (simp; done) | ((repeat' split) <;> simp; done) | (dsimp only; (repeat' split) <;> simp; done)

@[simp] theorem maskTake_hostRest {s : State} {p : Nat} {rx : Bool} {v : Word} {next : Option Word} {pfn : Nat} :
    hostRest (maskTake s p rx v next pfn).hl = hostRest s.hl := by
  unfold maskTake; first | (simp; done) | ((repeat' split) <;> simp; done) | (dsimp only; (repeat' split) <;> simp; done)

@[simp] theorem maskTake_busRest {s : State} {p : Nat} {rx : Bool} {v : Word} {next : Option Word} {pfn : Nat} :
    busRest (maskTake s p rx v next pfn).tw = busRest s.tw := by
  unfold maskTake; first | (simp; done) | ((repeat' split) <;> simp; done) | (dsimp only; (repeat' split) <;> simp; done)

@[simp] theorem maskComplete_hostRest {s : State} {p : Nat} {rx : Bool} {v : Word} {late : Bool} :
    hostRest (maskComplete s p rx v late).hl = hostRest s.hl := by
  unfold maskComplete; first | (simp; done) | ((repeat' split) <;> simp; done) | (dsimp only; (repeat' split) <;> simp; done)

@[simp] theorem maskComplete_busRest {s : State} {p : Nat} {rx : Bool} {v : Word} {late : Bool} :
    busRest (maskComplete s p rx v late).tw = busRest s.tw := by
  unfold maskComplete; first | (simp; done) | ((repeat' split) <;> simp; done) | (dsimp only; (repeat' split) <;> simp; done)

@[simp] theorem maskStart_hostRest {s : State} {p : Nat} {rx : Bool} :
    hostRest (maskStart s p rx).hl = hostRest s.hl := by
  unfold maskStart; first | (simp; done) | ((repeat' split) <;> simp; done) | (dsimp only; (repeat' split) <;> simp; done)

@[simp] theorem maskStart_busRest {s : State} {p : Nat} {rx : Bool} :
    busRest (maskStart s p rx).tw = busRest s.tw := by
  unfold maskStart; first | (simp; done) | ((repeat' split) <;> simp; done) | (dsimp only; (repeat' split) <;> simp; done)

@[simp] theorem maskWrite_hostRest {s : State} {src : Owner} {p : Nat} {rx : Bool} {v : Word} {late : Bool} :
    hostRest (maskWrite s src p rx v late).hl = hostRest s.hl := by
  unfold maskWrite; first | (simp; done) | ((repeat' split) <;> simp; done) | (dsimp only; (repeat' split) <;> simp; done)

@[simp] theorem maskWrite_busRest {s : State} {src : Owner} {p : Nat} {rx : Bool} {v : Word} {late : Bool} :
    busRest (maskWrite s src p rx v late).tw = busRest s.tw := by
  unfold maskWrite; first | (simp; done) | ((repeat' split) <;> simp; done) | (dsimp only; (repeat' split) <;> simp; done)

@[simp] theorem portRefused_hostRest {s : State} {p : Nat} {off : Nat} {reason : Nat} :
    hostRest (portRefused s p off reason).hl = hostRest s.hl := by
  unfold portRefused; first | (simp; done) | ((repeat' split) <;> simp; done) | (dsimp only; (repeat' split) <;> simp; done)

@[simp] theorem portRefused_busRest {s : State} {p : Nat} {off : Nat} {reason : Nat} :
    busRest (portRefused s p off reason).tw = busRest s.tw := by
  unfold portRefused; first | (simp; done) | ((repeat' split) <;> simp; done) | (dsimp only; (repeat' split) <;> simp; done)

@[simp] theorem portEnable_hostRest {s : State} {p : Nat} :
    hostRest (portEnable s p).hl = hostRest s.hl := by
  unfold portEnable; first | (simp; done) | ((repeat' split) <;> simp; done) | (dsimp only; (repeat' split) <;> simp; done)

@[simp] theorem portEnable_busRest {s : State} {p : Nat} :
    busRest (portEnable s p).tw = busRest s.tw := by
  unfold portEnable; first | (simp; done) | ((repeat' split) <;> simp; done) | (dsimp only; (repeat' split) <;> simp; done)

@[simp] theorem portOffNow_hostRest {s : State} {p : Nat} {cause : Nat} :
    hostRest (portOffNow s p cause).hl = hostRest s.hl := by
  unfold portOffNow; first | (simp; done) | ((repeat' split) <;> simp; done) | (dsimp only; (repeat' split) <;> simp; done)

@[simp] theorem portOffNow_busRest {s : State} {p : Nat} {cause : Nat} :
    busRest (portOffNow s p cause).tw = busRest s.tw := by
  unfold portOffNow; first | (simp; done) | ((repeat' split) <;> simp; done) | (dsimp only; (repeat' split) <;> simp; done)

@[simp] theorem portStop_hostRest {s : State} {p : Nat} :
    hostRest (portStop s p).hl = hostRest s.hl := by
  unfold portStop; first | (simp; done) | ((repeat' split) <;> simp; done) | (dsimp only; (repeat' split) <;> simp; done)

@[simp] theorem portStop_busRest {s : State} {p : Nat} :
    busRest (portStop s p).tw = busRest s.tw := by
  unfold portStop; first | (simp; done) | ((repeat' split) <;> simp; done) | (dsimp only; (repeat' split) <;> simp; done)

@[simp] theorem applyDpCtrl_hostRest {s : State} {p : Nat} {v : Word} :
    hostRest (applyDpCtrl s p v).hl = hostRest s.hl := by
  unfold applyDpCtrl; first | (simp; done) | ((repeat' split) <;> simp; done) | (dsimp only; (repeat' split) <;> simp; done)

@[simp] theorem applyDpCtrl_busRest {s : State} {p : Nat} {v : Word} :
    busRest (applyDpCtrl s p v).tw = busRest s.tw := by
  unfold applyDpCtrl; first | (simp; done) | ((repeat' split) <;> simp; done) | (dsimp only; (repeat' split) <;> simp; done)

@[simp] theorem fmtWrite_hostRest {s : State} {p : Nat} {v : Word} :
    hostRest (fmtWrite s p v).hl = hostRest s.hl := by
  unfold fmtWrite; first | (simp; done) | ((repeat' split) <;> simp; done) | (dsimp only; (repeat' split) <;> simp; done)

@[simp] theorem fmtWrite_busRest {s : State} {p : Nat} {v : Word} :
    busRest (fmtWrite s p v).tw = busRest s.tw := by
  unfold fmtWrite; first | (simp; done) | ((repeat' split) <;> simp; done) | (dsimp only; (repeat' split) <;> simp; done)

@[simp] theorem unlock_hostRest {s : State} {p : Nat} {cause : Nat} :
    hostRest (unlock s p cause).hl = hostRest s.hl := by
  unfold unlock; first | (simp; done) | ((repeat' split) <;> simp; done) | (dsimp only; (repeat' split) <;> simp; done)

@[simp] theorem unlock_busRest {s : State} {p : Nat} {cause : Nat} :
    busRest (unlock s p cause).tw = busRest s.tw := by
  unfold unlock; first | (simp; done) | ((repeat' split) <;> simp; done) | (dsimp only; (repeat' split) <;> simp; done)

@[simp] theorem portsStrobe_hostRest {s : State} {slips : List Nat} :
    hostRest (portsStrobe s slips).hl = hostRest s.hl := by
  unfold portsStrobe; first | (simp; done) | ((repeat' split) <;> simp; done) | (dsimp only; (repeat' split) <;> simp; done)

@[simp] theorem portsStrobe_busRest {s : State} {slips : List Nat} :
    busRest (portsStrobe s slips).tw = busRest s.tw := by
  unfold portsStrobe; first | (simp; done) | ((repeat' split) <;> simp; done) | (dsimp only; (repeat' split) <;> simp; done)

@[simp] theorem takeFrame_hostRest {s : State} {p : Nat} {x : PortFrame} :
    hostRest (takeFrame s p x).hl = hostRest s.hl := by
  unfold takeFrame; first | (simp; done) | ((repeat' split) <;> simp; done) | (dsimp only; (repeat' split) <;> simp; done)

@[simp] theorem takeFrame_busRest {s : State} {p : Nat} {x : PortFrame} :
    busRest (takeFrame s p x).tw = busRest s.tw := by
  unfold takeFrame; first | (simp; done) | ((repeat' split) <;> simp; done) | (dsimp only; (repeat' split) <;> simp; done)

@[simp] theorem newFrame_hostRest {s : State} {p : Nat} {conv : Option Word} {phase : Word} :
    hostRest (newFrame s p conv phase).hl = hostRest s.hl := by
  unfold newFrame; first | (simp; done) | ((repeat' split) <;> simp; done) | (dsimp only; (repeat' split) <;> simp; done)

@[simp] theorem newFrame_busRest {s : State} {p : Nat} {conv : Option Word} {phase : Word} :
    busRest (newFrame s p conv phase).tw = busRest s.tw := by
  unfold newFrame; first | (simp; done) | ((repeat' split) <;> simp; done) | (dsimp only; (repeat' split) <;> simp; done)

@[simp] theorem nextFrame_hostRest {s : State} {p : Nat} {x : PortFrame} :
    hostRest (nextFrame s p x).hl = hostRest s.hl := by
  unfold nextFrame; first | (simp; done) | ((repeat' split) <;> simp; done) | (dsimp only; (repeat' split) <;> simp; done)

@[simp] theorem nextFrame_busRest {s : State} {p : Nat} {x : PortFrame} :
    busRest (nextFrame s p x).tw = busRest s.tw := by
  unfold nextFrame; first | (simp; done) | ((repeat' split) <;> simp; done) | (dsimp only; (repeat' split) <;> simp; done)

@[simp] theorem maskUp_hostRest {s : State} {p : Nat} {rx : Bool} :
    hostRest (maskUp s p rx).hl = hostRest s.hl := by
  unfold maskUp; first | (simp; done) | ((repeat' split) <;> simp; done) | (dsimp only; (repeat' split) <;> simp; done)

@[simp] theorem maskUp_busRest {s : State} {p : Nat} {rx : Bool} :
    busRest (maskUp s p rx).tw = busRest s.tw := by
  unfold maskUp; first | (simp; done) | ((repeat' split) <;> simp; done) | (dsimp only; (repeat' split) <;> simp; done)

@[simp] theorem portsUp_hostRest {s : State} :
    hostRest (portsUp s).hl = hostRest s.hl := by
  unfold portsUp; first | (simp; done) | ((repeat' split) <;> simp; done) | (dsimp only; (repeat' split) <;> simp; done)

@[simp] theorem portsUp_busRest {s : State} :
    busRest (portsUp s).tw = busRest s.tw := by
  unfold portsUp; first | (simp; done) | ((repeat' split) <;> simp; done) | (dsimp only; (repeat' split) <;> simp; done)

@[simp] theorem portsOff_hostRest {s : State} :
    hostRest (portsOff s).hl = hostRest s.hl := by
  unfold portsOff; first | (simp; done) | ((repeat' split) <;> simp; done) | (dsimp only; (repeat' split) <;> simp; done)

@[simp] theorem portsOff_busRest {s : State} :
    busRest (portsOff s).tw = busRest s.tw := by
  unfold portsOff; first | (simp; done) | ((repeat' split) <;> simp; done) | (dsimp only; (repeat' split) <;> simp; done)

@[simp] theorem ratePorts_hostRest {s : State} :
    hostRest (ratePorts s).hl = hostRest s.hl := by
  unfold ratePorts; first | (simp; done) | ((repeat' split) <;> simp; done) | (dsimp only; (repeat' split) <;> simp; done)

@[simp] theorem ratePorts_busRest {s : State} :
    busRest (ratePorts s).tw = busRest s.tw := by
  unfold ratePorts; first | (simp; done) | ((repeat' split) <;> simp; done) | (dsimp only; (repeat' split) <;> simp; done)

@[simp] theorem rootLost_hostRest {s : State} {j : Nat} :
    hostRest (rootLost s j).hl = hostRest s.hl := by
  unfold rootLost; first | (simp; done) | ((repeat' split) <;> simp; done) | (dsimp only; (repeat' split) <;> simp; done)

@[simp] theorem rootLost_busRest {s : State} {j : Nat} :
    busRest (rootLost s j).tw = busRest s.tw := by
  unfold rootLost; first | (simp; done) | ((repeat' split) <;> simp; done) | (dsimp only; (repeat' split) <;> simp; done)

@[simp] theorem pllLost_hostRest {s : State} {j : Nat} {phase : Bool} :
    hostRest (pllLost s j phase).hl = hostRest s.hl := by
  unfold pllLost; first | (simp; done) | ((repeat' split) <;> simp; done) | (dsimp only; (repeat' split) <;> simp; done)

@[simp] theorem pllLost_busRest {s : State} {j : Nat} {phase : Bool} :
    busRest (pllLost s j phase).tw = busRest s.tw := by
  unfold pllLost; first | (simp; done) | ((repeat' split) <;> simp; done) | (dsimp only; (repeat' split) <;> simp; done)

@[simp] theorem strobeRestart_hostRest {s : State} {cause : Nat} :
    hostRest (strobeRestart s cause).hl = hostRest s.hl := by
  unfold strobeRestart; first | (simp; done) | ((repeat' split) <;> simp; done) | (dsimp only; (repeat' split) <;> simp; done)

@[simp] theorem strobeRestart_busRest {s : State} {cause : Nat} :
    busRest (strobeRestart s cause).tw = busRest s.tw := by
  unfold strobeRestart; first | (simp; done) | ((repeat' split) <;> simp; done) | (dsimp only; (repeat' split) <;> simp; done)

@[simp] theorem xtalLost_hostRest {s : State} {cause : Nat} :
    hostRest (xtalLost s cause).hl = hostRest s.hl := by
  unfold xtalLost; first | (simp; done) | ((repeat' split) <;> simp; done) | (dsimp only; (repeat' split) <;> simp; done)

@[simp] theorem xtalLost_busRest {s : State} {cause : Nat} :
    busRest (xtalLost s cause).tw = busRest s.tw := by
  unfold xtalLost; first | (simp; done) | ((repeat' split) <;> simp; done) | (dsimp only; (repeat' split) <;> simp; done)

@[simp] theorem leaveRef_hostRest {s : State} {i : Nat} {cause : Nat} {n : RefState} :
    hostRest (leaveRef s i cause n).hl = hostRest s.hl := by
  unfold leaveRef; first | (simp; done) | ((repeat' split) <;> simp; done) | (dsimp only; (repeat' split) <;> simp; done)

@[simp] theorem leaveRef_busRest {s : State} {i : Nat} {cause : Nat} {n : RefState} :
    busRest (leaveRef s i cause n).tw = busRest s.tw := by
  unfold leaveRef; first | (simp; done) | ((repeat' split) <;> simp; done) | (dsimp only; (repeat' split) <;> simp; done)

@[simp] theorem refFollow_hostRest {s : State} {i : Nat} :
    hostRest (refFollow s i).hl = hostRest s.hl := by
  unfold refFollow; first | (simp; done) | ((repeat' split) <;> simp; done) | (dsimp only; (repeat' split) <;> simp; done)

@[simp] theorem refFollow_busRest {s : State} {i : Nat} :
    busRest (refFollow s i).tw = busRest s.tw := by
  unfold refFollow; first | (simp; done) | ((repeat' split) <;> simp; done) | (dsimp only; (repeat' split) <;> simp; done)

@[simp] theorem refFollowAll_hostRest {s : State} :
    hostRest (refFollowAll s).hl = hostRest s.hl := by
  unfold refFollowAll; first | (simp; done) | ((repeat' split) <;> simp; done) | (dsimp only; (repeat' split) <;> simp; done)

@[simp] theorem refFollowAll_busRest {s : State} :
    busRest (refFollowAll s).tw = busRest s.tw := by
  unfold refFollowAll; first | (simp; done) | ((repeat' split) <;> simp; done) | (dsimp only; (repeat' split) <;> simp; done)

@[simp] theorem selectRef_hostRest {s : State} {r : Nat} {cause : Nat} :
    hostRest (selectRef s r cause).hl = hostRest s.hl := by
  unfold selectRef; first | (simp; done) | ((repeat' split) <;> simp; done) | (dsimp only; (repeat' split) <;> simp; done)

@[simp] theorem selectRef_busRest {s : State} {r : Nat} {cause : Nat} :
    busRest (selectRef s r cause).tw = busRest s.tw := by
  unfold selectRef; first | (simp; done) | ((repeat' split) <;> simp; done) | (dsimp only; (repeat' split) <;> simp; done)

@[simp] theorem setDco_hostRest {s : State} {d : Int} :
    hostRest (setDco s d).hl = hostRest s.hl := by
  unfold setDco; first | (simp; done) | ((repeat' split) <;> simp; done) | (dsimp only; (repeat' split) <;> simp; done)

@[simp] theorem setDco_busRest {s : State} {d : Int} :
    busRest (setDco s d).tw = busRest s.tw := by
  unfold setDco; first | (simp; done) | ((repeat' split) <;> simp; done) | (dsimp only; (repeat' split) <;> simp; done)

@[simp] theorem clockStrobe_hostRest {s : State} {dco : Int} {phaseErr : Int} {offsets : Tbl Int} :
    hostRest (clockStrobe s dco phaseErr offsets).hl = hostRest s.hl := by
  unfold clockStrobe; first | (simp; done) | ((repeat' split) <;> simp; done) | (dsimp only; (repeat' split) <;> simp; done)

@[simp] theorem clockStrobe_busRest {s : State} {dco : Int} {phaseErr : Int} {offsets : Tbl Int} :
    busRest (clockStrobe s dco phaseErr offsets).tw = busRest s.tw := by
  unfold clockStrobe; first | (simp; done) | ((repeat' split) <;> simp; done) | (dsimp only; (repeat' split) <;> simp; done)

@[simp] theorem scanStart_hostRest {s : State} {k : Nat} :
    hostRest (scanStart s k).hl = hostRest s.hl := by
  unfold scanStart; first | (simp; done) | ((repeat' split) <;> simp; done) | (dsimp only; (repeat' split) <;> simp; done)

@[simp] theorem scanStart_busRest {s : State} {k : Nat} :
    busRest (scanStart s k).tw = busRest s.tw := by
  unfold scanStart; first | (simp; done) | ((repeat' split) <;> simp; done) | (dsimp only; (repeat' split) <;> simp; done)

@[simp] theorem keyEvent_hostRest {s : State} {code : Nat} {e : Nat} {at_ : Nat} {dt : Nat} {flags : Nat} {k : Nat} {p : Nat} :
    hostRest (keyEvent s code e at_ dt flags k p).hl = hostRest s.hl := by
  unfold keyEvent; first | (simp; done) | ((repeat' split) <;> simp; done) | (dsimp only; (repeat' split) <;> simp; done)

@[simp] theorem keyEvent_busRest {s : State} {code : Nat} {e : Nat} {at_ : Nat} {dt : Nat} {flags : Nat} {k : Nat} {p : Nat} :
    busRest (keyEvent s code e at_ dt flags k p).tw = busRest s.tw := by
  unfold keyEvent; first | (simp; done) | ((repeat' split) <;> simp; done) | (dsimp only; (repeat' split) <;> simp; done)

@[simp] theorem keyNoCross_hostRest {s : State} {code : Nat} {e : Nat} {flags : Nat} {k : Nat} {p : Nat} :
    hostRest (keyNoCross s code e flags k p).hl = hostRest s.hl := by
  unfold keyNoCross; first | (simp; done) | ((repeat' split) <;> simp; done) | (dsimp only; (repeat' split) <;> simp; done)

@[simp] theorem keyNoCross_busRest {s : State} {code : Nat} {e : Nat} {flags : Nat} {k : Nat} {p : Nat} :
    busRest (keyNoCross s code e flags k p).tw = busRest s.tw := by
  unfold keyNoCross; first | (simp; done) | ((repeat' split) <;> simp; done) | (dsimp only; (repeat' split) <;> simp; done)

@[simp] theorem entryStop_hostRest {k : Nat} {s : State} {e : Nat} :
    hostRest (entryStop k s e).hl = hostRest s.hl := by
  unfold entryStop; first | (simp; done) | ((repeat' split) <;> simp; done) | (dsimp only; (repeat' split) <;> simp; done)

@[simp] theorem entryStop_busRest {k : Nat} {s : State} {e : Nat} :
    busRest (entryStop k s e).tw = busRest s.tw := by
  unfold entryStop; first | (simp; done) | ((repeat' split) <;> simp; done) | (dsimp only; (repeat' split) <;> simp; done)

@[simp] theorem convStop_hostRest {cause : Nat} {s : State} {k : Nat} :
    hostRest (convStop cause s k).hl = hostRest s.hl := by
  unfold convStop; first | (simp; done) | ((repeat' split) <;> simp; done) | (dsimp only; (repeat' split) <;> simp; done)

@[simp] theorem convStop_busRest {cause : Nat} {s : State} {k : Nat} :
    busRest (convStop cause s k).tw = busRest s.tw := by
  unfold convStop; first | (simp; done) | ((repeat' split) <;> simp; done) | (dsimp only; (repeat' split) <;> simp; done)

@[simp] theorem scanStop_hostRest {s : State} {k : Nat} :
    hostRest (scanStop s k).hl = hostRest s.hl := by
  unfold scanStop; first | (simp; done) | ((repeat' split) <;> simp; done) | (dsimp only; (repeat' split) <;> simp; done)

@[simp] theorem scanStop_busRest {s : State} {k : Nat} :
    busRest (scanStop s k).tw = busRest s.tw := by
  unfold scanStop; first | (simp; done) | ((repeat' split) <;> simp; done) | (dsimp only; (repeat' split) <;> simp; done)

@[simp] theorem convCtrl_hostRest {s : State} {k : Nat} {v : Word} :
    hostRest (convCtrl s k v).hl = hostRest s.hl := by
  unfold convCtrl; first | (simp; done) | ((repeat' split) <;> simp; done) | (dsimp only; (repeat' split) <;> simp; done)

@[simp] theorem convCtrl_busRest {s : State} {k : Nat} {v : Word} :
    busRest (convCtrl s k v).tw = busRest s.tw := by
  unfold convCtrl; first | (simp; done) | ((repeat' split) <;> simp; done) | (dsimp only; (repeat' split) <;> simp; done)

@[simp] theorem senseOff_hostRest {s : State} :
    hostRest (senseOff s).hl = hostRest s.hl := by
  unfold senseOff; first | (simp; done) | ((repeat' split) <;> simp; done) | (dsimp only; (repeat' split) <;> simp; done)

@[simp] theorem senseOff_busRest {s : State} :
    busRest (senseOff s).tw = busRest s.tw := by
  unfold senseOff; first | (simp; done) | ((repeat' split) <;> simp; done) | (dsimp only; (repeat' split) <;> simp; done)

@[simp] theorem senseStrobe_hostRest {s : State} :
    hostRest (senseStrobe s).hl = hostRest s.hl := by
  unfold senseStrobe
  refine (each_rest ?_).trans rfl
  intro s a; dsimp only; (repeat' split) <;> simp

@[simp] theorem senseStrobe_busRest {s : State} :
    busRest (senseStrobe s).tw = busRest s.tw := by
  unfold senseStrobe
  refine (each_busRest ?_).trans rfl
  intro s a; dsimp only; (repeat' split) <;> simp

@[simp] theorem keyDown_hostRest {s : State} {e : Nat} {k : Nat} {p : Nat} {ta : Int} {tb : Int} :
    hostRest (keyDown s e k p ta tb).hl = hostRest s.hl := by
  unfold keyDown; first | (simp; done) | ((repeat' split) <;> simp; done) | (dsimp only; (repeat' split) <;> simp; done)

@[simp] theorem keyDown_busRest {s : State} {e : Nat} {k : Nat} {p : Nat} {ta : Int} {tb : Int} :
    busRest (keyDown s e k p ta tb).tw = busRest s.tw := by
  unfold keyDown; first | (simp; done) | ((repeat' split) <;> simp; done) | (dsimp only; (repeat' split) <;> simp; done)

@[simp] theorem keyDownEst_hostRest {s : State} {e : Nat} {k : Nat} {g : Seg} {tb : Int} {flags : Nat} {a : Nat} {b : Nat} :
    hostRest (keyDownEst s e k g tb flags a b).hl = hostRest s.hl := by
  unfold keyDownEst; first | (simp; done) | ((repeat' split) <;> simp; done) | (dsimp only; (repeat' split) <;> simp; done)

@[simp] theorem keyDownEst_busRest {s : State} {e : Nat} {k : Nat} {g : Seg} {tb : Int} {flags : Nat} {a : Nat} {b : Nat} :
    busRest (keyDownEst s e k g tb flags a b).tw = busRest s.tw := by
  unfold keyDownEst; first | (simp; done) | ((repeat' split) <;> simp; done) | (dsimp only; (repeat' split) <;> simp; done)

@[simp] theorem keyStep_hostRest {s : State} {k : Nat} {e : Nat} {g : Seg} :
    hostRest (keyStep s k e g).hl = hostRest s.hl := by
  unfold keyStep; first | (simp; done) | ((repeat' split) <;> simp; done) | (dsimp only; (repeat' split) <;> simp; done)

@[simp] theorem keyStep_busRest {s : State} {k : Nat} {e : Nat} {g : Seg} :
    busRest (keyStep s k e g).tw = busRest s.tw := by
  unfold keyStep; first | (simp; done) | ((repeat' split) <;> simp; done) | (dsimp only; (repeat' split) <;> simp; done)

@[simp] theorem keyConv_hostRest {s : State} {k : Nat} {e : Nat} {p : Nat} {t : Nat} :
    hostRest (keyConv s k e p t).hl = hostRest s.hl := by
  unfold keyConv; first | (simp; done) | ((repeat' split) <;> simp; done) | (dsimp only; (repeat' split) <;> simp; done)

@[simp] theorem keyConv_busRest {s : State} {k : Nat} {e : Nat} {p : Nat} {t : Nat} :
    busRest (keyConv s k e p t).tw = busRest s.tw := by
  unfold keyConv; first | (simp; done) | ((repeat' split) <;> simp; done) | (dsimp only; (repeat' split) <;> simp; done)

@[simp] theorem watchConv_hostRest {s : State} {k : Nat} {e : Nat} {p : Nat} :
    hostRest (watchConv s k e p).hl = hostRest s.hl := by
  unfold watchConv; first | (simp; done) | ((repeat' split) <;> simp; done) | (dsimp only; (repeat' split) <;> simp; done)

@[simp] theorem watchConv_busRest {s : State} {k : Nat} {e : Nat} {p : Nat} :
    busRest (watchConv s k e p).tw = busRest s.tw := by
  unfold watchConv; first | (simp; done) | ((repeat' split) <;> simp; done) | (dsimp only; (repeat' split) <;> simp; done)

@[simp] theorem convert_hostRest {s : State} {k : Nat} {e : Nat} {avg : Nat} {t : Nat} {x : AdcIn} :
    hostRest (convert s k e avg t x).hl = hostRest s.hl := by
  unfold convert; first | (simp; done) | ((repeat' split) <;> simp; done) | (dsimp only; (repeat' split) <;> simp; done)

@[simp] theorem convert_busRest {s : State} {k : Nat} {e : Nat} {avg : Nat} {t : Nat} {x : AdcIn} :
    busRest (convert s k e avg t x).tw = busRest s.tw := by
  unfold convert; first | (simp; done) | ((repeat' split) <;> simp; done) | (dsimp only; (repeat' split) <;> simp; done)

@[simp] theorem passConvert_hostRest {s : State} {k : Nat} {i : Nat} {t : Nat} {x : AdcIn} {twin : AdcIn} :
    hostRest (passConvert s k i t x twin).hl = hostRest s.hl := by
  unfold passConvert; first | (simp; done) | ((repeat' split) <;> simp; done) | (dsimp only; (repeat' split) <;> simp; done)

@[simp] theorem passConvert_busRest {s : State} {k : Nat} {i : Nat} {t : Nat} {x : AdcIn} {twin : AdcIn} :
    busRest (passConvert s k i t x twin).tw = busRest s.tw := by
  unfold passConvert; first | (simp; done) | ((repeat' split) <;> simp; done) | (dsimp only; (repeat' split) <;> simp; done)

@[simp] theorem saveCal_hostRest {s : State} {r : Tbl Word} :
    hostRest (saveCal s r).hl = hostRest s.hl := by
  unfold saveCal; first | (simp; done) | ((repeat' split) <;> simp; done) | (dsimp only; (repeat' split) <;> simp; done)

@[simp] theorem saveCal_busRest {s : State} {r : Tbl Word} :
    busRest (saveCal s r).tw = busRest s.tw := by
  unfold saveCal; first | (simp; done) | ((repeat' split) <;> simp; done) | (dsimp only; (repeat' split) <;> simp; done)

@[simp] theorem commitScene_busRest {s : State} {slot : Nat} {b : Bytes} :
    busRest (commitScene s slot b).tw = busRest s.tw := by
  unfold commitScene; first | (simp; done) | ((repeat' split) <;> simp; done) | (dsimp only; (repeat' split) <;> simp; done)

@[simp] theorem sceneApplied_hostRest {s : State} {r : SceneRef} :
    hostRest (sceneApplied s r).hl = hostRest s.hl := by
  unfold sceneApplied; first | (simp; done) | ((repeat' split) <;> simp; done) | (dsimp only; (repeat' split) <;> simp; done)

@[simp] theorem sceneApplied_busRest {s : State} {r : SceneRef} :
    busRest (sceneApplied s r).tw = busRest s.tw := by
  unfold sceneApplied; first | (simp; done) | ((repeat' split) <;> simp; done) | (dsimp only; (repeat' split) <;> simp; done)

@[simp] theorem journalDone_busRest {s : State} :
    busRest (journalDone s).tw = busRest s.tw := by
  unfold journalDone; first | (simp; done) | ((repeat' split) <;> simp; done) | (dsimp only; (repeat' split) <;> simp; done)

@[simp] theorem loseEnv_hostRest {s : State} {line : Nat} :
    hostRest (loseEnv s line).hl = hostRest s.hl := by
  unfold loseEnv; first | (simp; done) | ((repeat' split) <;> simp; done) | (dsimp only; (repeat' split) <;> simp; done)

@[simp] theorem loseEnv_busRest {s : State} {line : Nat} :
    busRest (loseEnv s line).tw = busRest s.tw := by
  unfold loseEnv; first | (simp; done) | ((repeat' split) <;> simp; done) | (dsimp only; (repeat' split) <;> simp; done)

@[simp] theorem loseLine_busRest {s : State} {x : PantryLoss} :
    busRest (loseLine s x).tw = busRest s.tw := by
  unfold loseLine; first | (simp; done) | ((repeat' split) <;> simp; done) | (dsimp only; (repeat' split) <;> simp; done)

@[simp] theorem lineLost_busRest {s : State} {x : PantryLoss} :
    busRest (lineLost s x).tw = busRest s.tw := by
  unfold lineLost; first | (simp; done) | ((repeat' split) <;> simp; done) | (dsimp only; (repeat' split) <;> simp; done)

@[simp] theorem groupEvent_hostRest {s : State} {g : Nat} {old : GroupState} {new : GroupState} {cause : Nat} {start : Nat} :
    hostRest (groupEvent s g old new cause start).hl = hostRest s.hl := by
  unfold groupEvent; first | (simp; done) | ((repeat' split) <;> simp; done) | (dsimp only; (repeat' split) <;> simp; done)

@[simp] theorem groupEvent_busRest {s : State} {g : Nat} {old : GroupState} {new : GroupState} {cause : Nat} {start : Nat} :
    busRest (groupEvent s g old new cause start).tw = busRest s.tw := by
  unfold groupEvent; first | (simp; done) | ((repeat' split) <;> simp; done) | (dsimp only; (repeat' split) <;> simp; done)

@[simp] theorem groupLeave_hostRest {s : State} {g : Nat} :
    hostRest (groupLeave s g).hl = hostRest s.hl := by
  unfold groupLeave; first | (simp; done) | ((repeat' split) <;> simp; done) | (dsimp only; (repeat' split) <;> simp; done)

@[simp] theorem groupLeave_busRest {s : State} {g : Nat} :
    busRest (groupLeave s g).tw = busRest s.tw := by
  unfold groupLeave; first | (simp; done) | ((repeat' split) <;> simp; done) | (dsimp only; (repeat' split) <;> simp; done)

@[simp] theorem applyGroupStart_hostRest {s : State} {g : Nat} :
    hostRest (applyGroupStart s g).hl = hostRest s.hl := by
  unfold applyGroupStart; first | (simp; done) | ((repeat' split) <;> simp; done) | (dsimp only; (repeat' split) <;> simp; done)

@[simp] theorem applyGroupStart_busRest {s : State} {g : Nat} :
    busRest (applyGroupStart s g).tw = busRest s.tw := by
  unfold applyGroupStart; first | (simp; done) | ((repeat' split) <;> simp; done) | (dsimp only; (repeat' split) <;> simp; done)

@[simp] theorem ctxSignal_hostRest {s : State} {v : Nat} :
    hostRest (ctxSignal s v).hl = hostRest s.hl := by
  unfold ctxSignal; first | (simp; done) | ((repeat' split) <;> simp; done) | (dsimp only; (repeat' split) <;> simp; done)

@[simp] theorem ctxSignals_hostRest {s : State} :
    hostRest (ctxSignals s).hl = hostRest s.hl := by
  unfold ctxSignals; first | (simp; done) | ((repeat' split) <;> simp; done) | (dsimp only; (repeat' split) <;> simp; done)

@[simp] theorem writeBack_hostRest {s : State} {k : Nat} {idx : Nat} {done : Nat} {missed : Nat} {status : Nat} {phase : Bool} :
    hostRest (writeBack s k idx done missed status phase).hl = hostRest s.hl := by
  unfold writeBack; first | (simp; done) | ((repeat' split) <;> simp; done) | (dsimp only; (repeat' split) <;> simp; done)

@[simp] theorem retireHead_hostRest {s : State} {k : Nat} {status : Nat} :
    hostRest (retireHead s k status).hl = hostRest s.hl := by
  unfold retireHead; first | (simp; done) | ((repeat' split) <;> simp; done) | (dsimp only; (repeat' split) <;> simp; done)

@[simp] theorem applyHalt_hostRest {s : State} {k : Nat} :
    hostRest (applyHalt s k).hl = hostRest s.hl := by
  unfold applyHalt; first | (simp; done) | ((repeat' split) <;> simp; done) | (dsimp only; (repeat' split) <;> simp; done)

@[simp] theorem applyHalt_busRest {s : State} {k : Nat} :
    busRest (applyHalt s k).tw = busRest s.tw := by
  unfold applyHalt; first | (simp; done) | ((repeat' split) <;> simp; done) | (dsimp only; (repeat' split) <;> simp; done)

@[simp] theorem applyHalts_hostRest {s : State} :
    hostRest (applyHalts s).hl = hostRest s.hl := by
  unfold applyHalts; first | (simp; done) | ((repeat' split) <;> simp; done) | (dsimp only; (repeat' split) <;> simp; done)

@[simp] theorem applyHalts_busRest {s : State} :
    busRest (applyHalts s).tw = busRest s.tw := by
  unfold applyHalts; first | (simp; done) | ((repeat' split) <;> simp; done) | (dsimp only; (repeat' split) <;> simp; done)

@[simp] theorem writeRec_hostRest {k : Nat} {s : State} {e : Nat × List Int} :
    hostRest (writeRec k s e).hl = hostRest s.hl := by
  unfold writeRec; first | (simp; done) | ((repeat' split) <;> simp; done) | (dsimp only; (repeat' split) <;> simp; done)

@[simp] theorem writeRec_busRest {k : Nat} {s : State} {e : Nat × List Int} :
    busRest (writeRec k s e).tw = busRest s.tw := by
  unfold writeRec; first | (simp; done) | ((repeat' split) <;> simp; done) | (dsimp only; (repeat' split) <;> simp; done)

@[simp] theorem rewriteRec_hostRest {k : Nat} {s : State} {e : Nat × List Int} :
    hostRest (rewriteRec k s e).hl = hostRest s.hl := by
  unfold rewriteRec; first | (simp; done) | ((repeat' split) <;> simp; done) | (dsimp only; (repeat' split) <;> simp; done)

@[simp] theorem rewriteAbove_hostRest {s : State} {fn : Nat} {k : Nat} :
    hostRest (rewriteAbove s fn k).hl = hostRest s.hl := by
  unfold rewriteAbove; first | (simp; done) | ((repeat' split) <;> simp; done) | (dsimp only; (repeat' split) <;> simp; done)

@[simp] theorem writeHeld_hostRest {s : State} {k : Nat} :
    hostRest (writeHeld s k).hl = hostRest s.hl := by
  unfold writeHeld; first | (simp; done) | ((repeat' split) <;> simp; done) | (dsimp only; (repeat' split) <;> simp; done)

@[simp] theorem writeHeld_busRest {s : State} {k : Nat} :
    busRest (writeHeld s k).tw = busRest s.tw := by
  unfold writeHeld; first | (simp; done) | ((repeat' split) <;> simp; done) | (dsimp only; (repeat' split) <;> simp; done)

@[simp] theorem loseFrame_hostRest {s : State} {k : Nat} {f : Nat} {cause : Nat} :
    hostRest (loseFrame s k f cause).hl = hostRest s.hl := by
  unfold loseFrame; first | (simp; done) | ((repeat' split) <;> simp; done) | (dsimp only; (repeat' split) <;> simp; done)

@[simp] theorem loseFrame_busRest {s : State} {k : Nat} {f : Nat} {cause : Nat} :
    busRest (loseFrame s k f cause).tw = busRest s.tw := by
  unfold loseFrame; first | (simp; done) | ((repeat' split) <;> simp; done) | (dsimp only; (repeat' split) <;> simp; done)

@[simp] theorem countLate_hostRest {s : State} {k : Nat} {n : Nat} {first : Nat} :
    hostRest (countLate s k n first).hl = hostRest s.hl := by
  unfold countLate; first | (simp; done) | ((repeat' split) <;> simp; done) | (dsimp only; (repeat' split) <;> simp; done)

@[simp] theorem countLate_busRest {s : State} {k : Nat} {n : Nat} {first : Nat} :
    busRest (countLate s k n first).tw = busRest s.tw := by
  unfold countLate; first | (simp; done) | ((repeat' split) <;> simp; done) | (dsimp only; (repeat' split) <;> simp; done)

@[simp] theorem takeDesc_hostRest {s : State} {k : Nat} {d : Desc} :
    hostRest (takeDesc s k d).hl = hostRest s.hl := by
  unfold takeDesc; first | (simp; done) | ((repeat' split) <;> simp; done) | (dsimp only; (repeat' split) <;> simp; done)

@[simp] theorem takeDesc_busRest {s : State} {k : Nat} {d : Desc} :
    busRest (takeDesc s k d).tw = busRest s.tw := by
  unfold takeDesc; first | (simp; done) | ((repeat' split) <;> simp; done) | (dsimp only; (repeat' split) <;> simp; done)

@[simp] theorem fetchDesc_hostRest {s : State} {k : Nat} {d : ReadResult} :
    hostRest (fetchDesc s k d).hl = hostRest s.hl := by
  unfold fetchDesc; first | (simp; done) | ((repeat' split) <;> simp; done) | (dsimp only; (repeat' split) <;> simp; done)

@[simp] theorem fetchDesc_busRest {s : State} {k : Nat} {d : ReadResult} :
    busRest (fetchDesc s k d).tw = busRest s.tw := by
  unfold fetchDesc; first | (simp; done) | ((repeat' split) <;> simp; done) | (dsimp only; (repeat' split) <;> simp; done)

@[simp] theorem neverRead_hostRest {s : State} {k : Nat} {n : Nat} :
    hostRest (neverRead s k n).hl = hostRest s.hl := by
  unfold neverRead; first | (simp; done) | ((repeat' split) <;> simp; done) | (dsimp only; (repeat' split) <;> simp; done)

@[simp] theorem neverRead_busRest {s : State} {k : Nat} {n : Nat} :
    busRest (neverRead s k n).tw = busRest s.tw := by
  unfold neverRead; first | (simp; done) | ((repeat' split) <;> simp; done) | (dsimp only; (repeat' split) <;> simp; done)

@[simp] theorem playStrobe_hostRest {s : State} {k : Nat} {lost : Bool} :
    hostRest (playStrobe s k lost).hl = hostRest s.hl := by
  unfold playStrobe; first | (simp; done) | ((repeat' split) <;> simp; done) | (dsimp only; (repeat' split) <;> simp; done)

@[simp] theorem playStrobe_busRest {s : State} {k : Nat} {lost : Bool} :
    busRest (playStrobe s k lost).tw = busRest s.tw := by
  unfold playStrobe; first | (simp; done) | ((repeat' split) <;> simp; done) | (dsimp only; (repeat' split) <;> simp; done)

@[simp] theorem storeLoses_hostRest {k : Nat} {s : State} {f : Nat} :
    hostRest (storeLoses k s f).hl = hostRest s.hl := by
  unfold storeLoses; first | (simp; done) | ((repeat' split) <;> simp; done) | (dsimp only; (repeat' split) <;> simp; done)

@[simp] theorem storeLoses_busRest {k : Nat} {s : State} {f : Nat} :
    busRest (storeLoses k s f).tw = busRest s.tw := by
  unfold storeLoses; first | (simp; done) | ((repeat' split) <;> simp; done) | (dsimp only; (repeat' split) <;> simp; done)

@[simp] theorem recStrobe_hostRest {s : State} {k : Nat} {lost : List Nat} :
    hostRest (recStrobe s k lost).hl = hostRest s.hl := by
  unfold recStrobe; first | (simp; done) | ((repeat' split) <;> simp; done) | (dsimp only; (repeat' split) <;> simp; done)

@[simp] theorem recStrobe_busRest {s : State} {k : Nat} {lost : List Nat} :
    busRest (recStrobe s k lost).tw = busRest s.tw := by
  unfold recStrobe; first | (simp; done) | ((repeat' split) <;> simp; done) | (dsimp only; (repeat' split) <;> simp; done)

@[simp] theorem ctxRun_hostRest {s : State} {k : Nat} {start : Nat} {how : Nat} :
    hostRest (ctxRun s k start how).hl = hostRest s.hl := by
  unfold ctxRun; first | (simp; done) | ((repeat' split) <;> simp; done) | (dsimp only; (repeat' split) <;> simp; done)

@[simp] theorem ctxRun_busRest {s : State} {k : Nat} {start : Nat} {how : Nat} :
    busRest (ctxRun s k start how).tw = busRest s.tw := by
  unfold ctxRun; first | (simp; done) | ((repeat' split) <;> simp; done) | (dsimp only; (repeat' split) <;> simp; done)

@[simp] theorem ctxStrobe_hostRest {lost : List LostFrame} {s : State} {k : Nat} :
    hostRest (ctxStrobe lost s k).hl = hostRest s.hl := by
  unfold ctxStrobe; first | (simp; done) | ((repeat' split) <;> simp; done) | (dsimp only; (repeat' split) <;> simp; done)

@[simp] theorem ctxStrobe_busRest {lost : List LostFrame} {s : State} {k : Nat} :
    busRest (ctxStrobe lost s k).tw = busRest s.tw := by
  unfold ctxStrobe; first | (simp; done) | ((repeat' split) <;> simp; done) | (dsimp only; (repeat' split) <;> simp; done)

@[simp] theorem streamsStrobe_hostRest {s : State} {lost : List LostFrame} :
    hostRest (streamsStrobe s lost).hl = hostRest s.hl := by
  unfold streamsStrobe; first | (simp; done) | ((repeat' split) <;> simp; done) | (dsimp only; (repeat' split) <;> simp; done)

@[simp] theorem streamsStrobe_busRest {s : State} {lost : List LostFrame} :
    busRest (streamsStrobe s lost).tw = busRest s.tw := by
  unfold streamsStrobe; first | (simp; done) | ((repeat' split) <;> simp; done) | (dsimp only; (repeat' split) <;> simp; done)

@[simp] theorem retireAll_hostRest {x1 : Nat} {x2 : State} {x3 : Nat} {x4 : Nat} {x5 : Nat} :
    hostRest (retireAll x1 x2 x3 x4 x5).1.hl = hostRest x2.hl := by
  induction x1 generalizing x2 x5 with
  | zero => rfl
  | succ i ih => unfold retireAll; dsimp only; split <;> simp [ih]

@[simp] theorem retireUnread_hostRest {x1 : Nat} {x2 : State} {x3 : Nat} {x4 : Nat} :
    hostRest (retireUnread x1 x2 x3 x4).1.hl = hostRest x2.hl := by
  induction x1 generalizing x2 x4 with
  | zero => rfl
  | succ i ih => unfold retireUnread; dsimp only; split <;> simp [ih]

@[simp] theorem readStopped_hostRest {s : State} {l : List (Fin 256 × ReadResult)} :
    hostRest (readStopped s l).hl = hostRest s.hl := by
  unfold readStopped
  refine each_rest ?_
  intro s a; split <;> simp

@[simp] theorem readStopped_busRest {s : State} {l : List (Fin 256 × ReadResult)} :
    busRest (readStopped s l).tw = busRest s.tw := by
  unfold readStopped
  refine each_busRest ?_
  intro s a; split <;> simp

@[simp] theorem applyStop_hostRest {s : State} {k : Nat} :
    hostRest (applyStop s k).hl = hostRest s.hl := by
  unfold applyStop; first | (simp; done) | ((repeat' split) <;> simp; done) | (dsimp only; (repeat' split) <;> simp; done)

@[simp] theorem applyStop_busRest {s : State} {k : Nat} :
    busRest (applyStop s k).tw = busRest s.tw := by
  unfold applyStop; first | (simp; done) | ((repeat' split) <;> simp; done) | (dsimp only; (repeat' split) <;> simp; done)

@[simp] theorem strRefuse_hostRest {s : State} {k : Nat} {reason : Nat} {off : Nat} :
    hostRest (strRefuse s k reason off).hl = hostRest s.hl := by
  unfold strRefuse; first | (simp; done) | ((repeat' split) <;> simp; done) | (dsimp only; (repeat' split) <;> simp; done)

@[simp] theorem strRefuse_busRest {s : State} {k : Nat} {reason : Nat} {off : Nat} :
    busRest (strRefuse s k reason off).tw = busRest s.tw := by
  unfold strRefuse; first | (simp; done) | ((repeat' split) <;> simp; done) | (dsimp only; (repeat' split) <;> simp; done)

@[simp] theorem strWrite_hostRest {s : State} {k : Nat} {n : RegName} {v : Word} :
    hostRest (strWrite s k n v).hl = hostRest s.hl := by
  unfold strWrite; first | (simp; done) | ((repeat' split) <;> simp; done) | (dsimp only; (repeat' split) <;> simp; done)

@[simp] theorem strWrite_busRest {s : State} {k : Nat} {n : RegName} {v : Word} :
    busRest (strWrite s k n v).tw = busRest s.tw := by
  unfold strWrite; first | (simp; done) | ((repeat' split) <;> simp; done) | (dsimp only; (repeat' split) <;> simp; done)

@[simp] theorem capture_hostRest {s : State} {x : StrobeIn} :
    hostRest (capture s x).hl = hostRest s.hl := by
  unfold capture; first | (simp; done) | ((repeat' split) <;> simp; done) | (dsimp only; (repeat' split) <;> simp; done)

@[simp] theorem capture_busRest {s : State} {x : StrobeIn} :
    busRest (capture s x).tw = busRest s.tw := by
  unfold capture; first | (simp; done) | ((repeat' split) <;> simp; done) | (dsimp only; (repeat' split) <;> simp; done)

@[simp] theorem strobeBody_hostRest {s : State} {x : StrobeIn} :
    hostRest (strobeBody s x).hl = hostRest s.hl := by
  unfold strobeBody; first | (simp; done) | ((repeat' split) <;> simp; done) | (dsimp only; (repeat' split) <;> simp; done)

@[simp] theorem strobeBody_busRest {s : State} {x : StrobeIn} :
    busRest (strobeBody s x).tw = busRest s.tw := by
  unfold strobeBody; first | (simp; done) | ((repeat' split) <;> simp; done) | (dsimp only; (repeat' split) <;> simp; done)

@[simp] theorem rateApplied_hostRest {s : State} {old : Nat} {new : Nat} :
    hostRest (rateApplied s old new).hl = hostRest s.hl := by
  unfold rateApplied; first | (simp; done) | ((repeat' split) <;> simp; done) | (dsimp only; (repeat' split) <;> simp; done)

@[simp] theorem rateApplied_busRest {s : State} {old : Nat} {new : Nat} :
    busRest (rateApplied s old new).tw = busRest s.tw := by
  unfold rateApplied; first | (simp; done) | ((repeat' split) <;> simp; done) | (dsimp only; (repeat' split) <;> simp; done)

@[simp] theorem firstStrobe_hostRest {s : State} {x : StrobeIn} :
    hostRest (firstStrobe s x).hl = hostRest s.hl := by
  unfold firstStrobe; first | (simp; done) | ((repeat' split) <;> simp; done) | (dsimp only; (repeat' split) <;> simp; done)

@[simp] theorem firstStrobe_busRest {s : State} {x : StrobeIn} :
    busRest (firstStrobe s x).tw = busRest s.tw := by
  unfold firstStrobe; first | (simp; done) | ((repeat' split) <;> simp; done) | (dsimp only; (repeat' split) <;> simp; done)

@[simp] theorem halfTested_hostRest {s : State} {h : Nat} {failed : Word} {memBad : Bool} :
    hostRest (halfTested s h failed memBad).hl = hostRest s.hl := by
  unfold halfTested; first | (simp; done) | ((repeat' split) <;> simp; done) | (dsimp only; (repeat' split) <;> simp; done)

@[simp] theorem halfTested_busRest {s : State} {h : Nat} {failed : Word} {memBad : Bool} :
    busRest (halfTested s h failed memBad).tw = busRest s.tw := by
  unfold halfTested; first | (simp; done) | ((repeat' split) <;> simp; done) | (dsimp only; (repeat' split) <;> simp; done)

@[simp] theorem stopForEntry_hostRest {s : State} :
    hostRest (stopForEntry s).hl = hostRest s.hl := by
  unfold stopForEntry; first | (simp; done) | ((repeat' split) <;> simp; done) | (dsimp only; (repeat' split) <;> simp; done)

@[simp] theorem stopForEntry_busRest {s : State} :
    busRest (stopForEntry s).tw = busRest s.tw := by
  unfold stopForEntry; first | (simp; done) | ((repeat' split) <;> simp; done) | (dsimp only; (repeat' split) <;> simp; done)

@[simp] theorem startAfterWake_hostRest {s : State} :
    hostRest (startAfterWake s).hl = hostRest s.hl := by
  unfold startAfterWake; first | (simp; done) | ((repeat' split) <;> simp; done) | (dsimp only; (repeat' split) <;> simp; done)

@[simp] theorem startAfterWake_busRest {s : State} :
    busRest (startAfterWake s).tw = busRest s.tw := by
  unfold startAfterWake; first | (simp; done) | ((repeat' split) <;> simp; done) | (dsimp only; (repeat' split) <;> simp; done)

@[simp] theorem returnHalves_hostRest {s : State} {inA : Bool} {inB : Bool} :
    hostRest (returnHalves s inA inB).hl = hostRest s.hl := by
  unfold returnHalves; first | (simp; done) | ((repeat' split) <;> simp; done) | (dsimp only; (repeat' split) <;> simp; done)

@[simp] theorem returnHalves_busRest {s : State} {inA : Bool} {inB : Bool} :
    busRest (returnHalves s inA inB).tw = busRest s.tw := by
  unfold returnHalves; first | (simp; done) | ((repeat' split) <;> simp; done) | (dsimp only; (repeat' split) <;> simp; done)

@[simp] theorem failoverEvent_hostRest {s : State} {cause : Nat} :
    hostRest (failoverEvent s cause).hl = hostRest s.hl := by
  unfold failoverEvent; first | (simp; done) | ((repeat' split) <;> simp; done) | (dsimp only; (repeat' split) <;> simp; done)

@[simp] theorem failoverEvent_busRest {s : State} {cause : Nat} :
    busRest (failoverEvent s cause).tw = busRest s.tw := by
  unfold failoverEvent; first | (simp; done) | ((repeat' split) <;> simp; done) | (dsimp only; (repeat' split) <;> simp; done)

@[simp] theorem takeOver_hostRest {s : State} {cause : Nat} :
    hostRest (takeOver s cause).hl = hostRest s.hl := by
  unfold takeOver; first | (simp; done) | ((repeat' split) <;> simp; done) | (dsimp only; (repeat' split) <;> simp; done)

@[simp] theorem takeOver_busRest {s : State} {cause : Nat} :
    busRest (takeOver s cause).tw = busRest s.tw := by
  unfold takeOver; first | (simp; done) | ((repeat' split) <;> simp; done) | (dsimp only; (repeat' split) <;> simp; done)

@[simp] theorem keepDriving_hostRest {s : State} {cause : Nat} :
    hostRest (keepDriving s cause).hl = hostRest s.hl := by
  unfold keepDriving; first | (simp; done) | ((repeat' split) <;> simp; done) | (dsimp only; (repeat' split) <;> simp; done)

@[simp] theorem keepDriving_busRest {s : State} {cause : Nat} :
    busRest (keepDriving s cause).tw = busRest s.tw := by
  unfold keepDriving; first | (simp; done) | ((repeat' split) <;> simp; done) | (dsimp only; (repeat' split) <;> simp; done)

@[simp] theorem yieldNow_hostRest {s : State} :
    hostRest (yieldNow s).hl = hostRest s.hl := by
  unfold yieldNow; first | (simp; done) | ((repeat' split) <;> simp; done) | (dsimp only; (repeat' split) <;> simp; done)

@[simp] theorem yieldNow_busRest {s : State} :
    busRest (yieldNow s).tw = busRest s.tw := by
  unfold yieldNow; first | (simp; done) | ((repeat' split) <;> simp; done) | (dsimp only; (repeat' split) <;> simp; done)

@[simp] theorem setMod_hostRest {s : State} {n : ModState} :
    hostRest (setMod s n).hl = hostRest s.hl := by
  unfold setMod; first | (simp; done) | ((repeat' split) <;> simp; done) | (dsimp only; (repeat' split) <;> simp; done)

@[simp] theorem setMod_busRest {s : State} {n : ModState} :
    busRest (setMod s n).tw = busRest s.tw := by
  unfold setMod; first | (simp; done) | ((repeat' split) <;> simp; done) | (dsimp only; (repeat' split) <;> simp; done)

@[simp] theorem enterStop_hostRest {s : State} :
    hostRest (enterStop s).hl = hostRest s.hl := by
  unfold enterStop; first | (simp; done) | ((repeat' split) <;> simp; done) | (dsimp only; (repeat' split) <;> simp; done)

@[simp] theorem enterStop_busRest {s : State} :
    busRest (enterStop s).tw = busRest s.tw := by
  unfold enterStop; first | (simp; done) | ((repeat' split) <;> simp; done) | (dsimp only; (repeat' split) <;> simp; done)

@[simp] theorem enterState_hostRest {s : State} {a : AfterDone} :
    hostRest (enterState s a).hl = hostRest s.hl := by
  unfold enterState; first | (simp; done) | ((repeat' split) <;> simp; done) | (dsimp only; (repeat' split) <;> simp; done)

@[simp] theorem enterState_busRest {s : State} {a : AfterDone} :
    busRest (enterState s a).tw = busRest s.tw := by
  unfold enterState; first | (simp; done) | ((repeat' split) <;> simp; done) | (dsimp only; (repeat' split) <;> simp; done)

@[simp] theorem heldOrPut_busRest {s : State} {code : Nat} {p : BitVec 128} :
    busRest (heldOrPut s code p).tw = busRest s.tw := by
  unfold heldOrPut; first | (simp; done) | ((repeat' split) <;> simp; done) | (dsimp only; (repeat' split) <;> simp; done)

@[simp] theorem recoverCommit_busRest {s : State} {complete : Bool} :
    busRest (recoverCommit s complete).tw = busRest s.tw := by
  unfold recoverCommit; first | (simp; done) | ((repeat' split) <;> simp; done) | (dsimp only; (repeat' split) <;> simp; done)

@[simp] theorem twWakeEvent_hostRest {s : State} :
    hostRest (twWakeEvent s).hl = hostRest s.hl := by
  unfold twWakeEvent; first | (simp; done) | ((repeat' split) <;> simp; done) | (dsimp only; (repeat' split) <;> simp; done)

@[simp] theorem twWakeEvent_busRest {s : State} :
    busRest (twWakeEvent s).tw = busRest s.tw := by
  unfold twWakeEvent; first | (simp; done) | ((repeat' split) <;> simp; done) | (dsimp only; (repeat' split) <;> simp; done)

@[simp] theorem enterRecovery_busRest {s : State} {cause : Nat} :
    busRest (enterRecovery s cause).tw = busRest s.tw := by
  unfold enterRecovery; first | (simp; done) | ((repeat' split) <;> simp; done) | (dsimp only; (repeat' split) <;> simp; done)

@[simp] theorem verifyFirmware_hostRest {s : State} {x : LarderIn} :
    hostRest (verifyFirmware s x).hl = hostRest s.hl := by
  unfold verifyFirmware; first | (simp; done) | ((repeat' split) <;> simp; done) | (dsimp only; (repeat' split) <;> simp; done)

@[simp] theorem verifyFirmware_busRest {s : State} {x : LarderIn} :
    busRest (verifyFirmware s x).tw = busRest s.tw := by
  unfold verifyFirmware; first | (simp; done) | ((repeat' split) <;> simp; done) | (dsimp only; (repeat' split) <;> simp; done)

@[simp] theorem resetDone_busRest {s : State} {hold : Bool} {scope : Nat} {src : Nat} {merged : Nat} {us : Nat} :
    busRest (resetDone s hold scope src merged us).tw = busRest s.tw := by
  unfold resetDone; first | (simp; done) | ((repeat' split) <;> simp; done) | (dsimp only; (repeat' split) <;> simp; done)

@[simp] theorem selfTest_hostRest {s : State} {x : LarderIn} :
    hostRest (selfTest s x).hl = hostRest s.hl := by
  unfold selfTest; first | (simp; done) | ((repeat' split) <;> simp; done) | (dsimp only; (repeat' split) <;> simp; done)

@[simp] theorem selfTest_busRest {s : State} {x : LarderIn} :
    busRest (selfTest s x).tw = busRest s.tw := by
  unfold selfTest; first | (simp; done) | ((repeat' split) <;> simp; done) | (dsimp only; (repeat' split) <;> simp; done)

@[simp] theorem fallbackTold_hostRest {s : State} :
    hostRest (fallbackTold s).hl = hostRest s.hl := by
  unfold fallbackTold; first | (simp; done) | ((repeat' split) <;> simp; done) | (dsimp only; (repeat' split) <;> simp; done)

@[simp] theorem fallbackTold_busRest {s : State} :
    busRest (fallbackTold s).tw = busRest s.tw := by
  unfold fallbackTold; first | (simp; done) | ((repeat' split) <;> simp; done) | (dsimp only; (repeat' split) <;> simp; done)

@[simp] theorem standbyStrobe_hostRest {s : State} {x : StrobeIn} :
    hostRest (standbyStrobe s x).hl = hostRest s.hl := by
  unfold standbyStrobe; first | (simp; done) | ((repeat' split) <;> simp; done) | (dsimp only; (repeat' split) <;> simp; done)

@[simp] theorem standbyStrobe_busRest {s : State} {x : StrobeIn} :
    busRest (standbyStrobe s x).tw = busRest s.tw := by
  unfold standbyStrobe; first | (simp; done) | ((repeat' split) <;> simp; done) | (dsimp only; (repeat' split) <;> simp; done)

@[simp] theorem compareDigest_hostRest {s : State} {pfn : Nat} {peer : Word} {peerFlags : Byte} :
    hostRest (compareDigest s pfn peer peerFlags).hl = hostRest s.hl := by
  unfold compareDigest; first | (simp; done) | ((repeat' split) <;> simp; done) | (dsimp only; (repeat' split) <;> simp; done)

@[simp] theorem compareDigest_busRest {s : State} {pfn : Nat} {peer : Word} {peerFlags : Byte} :
    busRest (compareDigest s pfn peer peerFlags).tw = busRest s.tw := by
  unfold compareDigest; first | (simp; done) | ((repeat' split) <;> simp; done) | (dsimp only; (repeat' split) <;> simp; done)

@[simp] theorem compareHeard_hostRest {s : State} :
    hostRest (compareHeard s).hl = hostRest s.hl := by
  unfold compareHeard; first | (simp; done) | ((repeat' split) <;> simp; done) | (dsimp only; (repeat' split) <;> simp; done)

@[simp] theorem compareHeard_busRest {s : State} :
    busRest (compareHeard s).tw = busRest s.tw := by
  unfold compareHeard; first | (simp; done) | ((repeat' split) <;> simp; done) | (dsimp only; (repeat' split) <;> simp; done)

@[simp] theorem splitAt_hostRest {s : State} {boundary : Nat} {how : Nat} :
    hostRest (splitAt s boundary how).hl = hostRest s.hl := by
  unfold splitAt; first | (simp; done) | ((repeat' split) <;> simp; done) | (dsimp only; (repeat' split) <;> simp; done)

@[simp] theorem splitAt_busRest {s : State} {boundary : Nat} {how : Nat} :
    busRest (splitAt s boundary how).tw = busRest s.tw := by
  unfold splitAt; first | (simp; done) | ((repeat' split) <;> simp; done) | (dsimp only; (repeat' split) <;> simp; done)

@[simp] theorem peerSplit_hostRest {s : State} {pfn : Nat} {flags : Byte} :
    hostRest (peerSplit s pfn flags).hl = hostRest s.hl := by
  unfold peerSplit; first | (simp; done) | ((repeat' split) <;> simp; done) | (dsimp only; (repeat' split) <;> simp; done)

@[simp] theorem peerSplit_busRest {s : State} {pfn : Nat} {flags : Byte} :
    busRest (peerSplit s pfn flags).tw = busRest s.tw := by
  unfold peerSplit; first | (simp; done) | ((repeat' split) <;> simp; done) | (dsimp only; (repeat' split) <;> simp; done)

@[simp] theorem takeHeartbeat_hostRest {s : State} {h : Heartbeat} :
    hostRest (takeHeartbeat s h).hl = hostRest s.hl := by
  unfold takeHeartbeat; first | (simp; done) | ((repeat' split) <;> simp; done) | (dsimp only; (repeat' split) <;> simp; done)

@[simp] theorem takeHeartbeat_busRest {s : State} {h : Heartbeat} :
    busRest (takeHeartbeat s h).tw = busRest s.tw := by
  unfold takeHeartbeat; first | (simp; done) | ((repeat' split) <;> simp; done) | (dsimp only; (repeat' split) <;> simp; done)

@[simp] theorem peerResetEvent_hostRest {s : State} {outcome : Nat} {scope : Nat} :
    hostRest (peerResetEvent s outcome scope).hl = hostRest s.hl := by
  unfold peerResetEvent; first | (simp; done) | ((repeat' split) <;> simp; done) | (dsimp only; (repeat' split) <;> simp; done)

@[simp] theorem peerResetEvent_busRest {s : State} {outcome : Nat} {scope : Nat} :
    busRest (peerResetEvent s outcome scope).tw = busRest s.tw := by
  unfold peerResetEvent; first | (simp; done) | ((repeat' split) <;> simp; done) | (dsimp only; (repeat' split) <;> simp; done)

@[simp] theorem peerCmd_hostRest {s : State} {v : Word} :
    hostRest (peerCmd s v).hl = hostRest s.hl := by
  unfold peerCmd; first | (simp; done) | ((repeat' split) <;> simp; done) | (dsimp only; (repeat' split) <;> simp; done)

@[simp] theorem peerCmd_busRest {s : State} {v : Word} :
    busRest (peerCmd s v).tw = busRest s.tw := by
  unfold peerCmd; first | (simp; done) | ((repeat' split) <;> simp; done) | (dsimp only; (repeat' split) <;> simp; done)

@[simp] theorem halfChanged_hostRest {s : State} {h : Nat} {what : Nat} {b : Nat} :
    hostRest (halfChanged s h what b).hl = hostRest s.hl := by
  unfold halfChanged; first | (simp; done) | ((repeat' split) <;> simp; done) | (dsimp only; (repeat' split) <;> simp; done)

@[simp] theorem halfChanged_busRest {s : State} {h : Nat} {what : Nat} {b : Nat} :
    busRest (halfChanged s h what b).tw = busRest s.tw := by
  unfold halfChanged; first | (simp; done) | ((repeat' split) <;> simp; done) | (dsimp only; (repeat' split) <;> simp; done)

@[simp] theorem applyHalfOut_hostRest {s : State} {h : Nat} :
    hostRest (applyHalfOut s h).1.hl = hostRest s.hl := by
  unfold applyHalfOut; first | (simp; done) | ((repeat' split) <;> simp; done) | (dsimp only; (repeat' split) <;> simp; done)

@[simp] theorem applyHalfOut_busRest {s : State} {h : Nat} :
    busRest (applyHalfOut s h).1.tw = busRest s.tw := by
  unfold applyHalfOut; first | (simp; done) | ((repeat' split) <;> simp; done) | (dsimp only; (repeat' split) <;> simp; done)

@[simp] theorem noteDeferred_hostRest {s : State} {n : Nat} :
    hostRest (noteDeferred s n).hl = hostRest s.hl := by
  unfold noteDeferred; first | (simp; done) | ((repeat' split) <;> simp; done) | (dsimp only; (repeat' split) <;> simp; done)

@[simp] theorem noteDeferred_busRest {s : State} {n : Nat} :
    busRest (noteDeferred s n).tw = busRest s.tw := by
  unfold noteDeferred; first | (simp; done) | ((repeat' split) <;> simp; done) | (dsimp only; (repeat' split) <;> simp; done)

@[simp] theorem countDeferral_hostRest {s : State} :
    hostRest (countDeferral s).hl = hostRest s.hl := by
  unfold countDeferral; first | (simp; done) | ((repeat' split) <;> simp; done) | (dsimp only; (repeat' split) <;> simp; done)

@[simp] theorem countDeferral_busRest {s : State} :
    busRest (countDeferral s).tw = busRest s.tw := by
  unfold countDeferral; first | (simp; done) | ((repeat' split) <;> simp; done) | (dsimp only; (repeat' split) <;> simp; done)

@[simp] theorem deferredEvent_hostRest {s : State} {moved : Nat} {cause : Nat} {frac : Frac} :
    hostRest (deferredEvent s moved cause frac).hl = hostRest s.hl := by
  unfold deferredEvent; first | (simp; done) | ((repeat' split) <;> simp; done) | (dsimp only; (repeat' split) <;> simp; done)

@[simp] theorem deferredEvent_busRest {s : State} {moved : Nat} {cause : Nat} {frac : Frac} :
    busRest (deferredEvent s moved cause frac).tw = busRest s.tw := by
  unfold deferredEvent; first | (simp; done) | ((repeat' split) <;> simp; done) | (dsimp only; (repeat' split) <;> simp; done)

@[simp] theorem captureHolds_busRest {s : State} :
    busRest (captureHolds s).tw = busRest s.tw := by
  unfold captureHolds; first | (simp; done) | ((repeat' split) <;> simp; done) | (dsimp only; (repeat' split) <;> simp; done)

@[simp] theorem applyReg_hostRest {s : State} {late : List (Nat × Bool)} {n : RegName} {i : Nat} {v : Word} {w : Word} :
    hostRest (applyReg s late n i v w).hl = hostRest s.hl := by
  unfold applyReg; first | (simp; done) | ((repeat' split) <;> simp; done) | (dsimp only; (repeat' split) <;> simp; done)

@[simp] theorem applyReg_busRest {s : State} {late : List (Nat × Bool)} {n : RegName} {i : Nat} {v : Word} {w : Word} :
    busRest (applyReg s late n i v w).tw = busRest s.tw := by
  unfold applyReg; first | (simp; done) | ((repeat' split) <;> simp; done) | (dsimp only; (repeat' split) <;> simp; done)

@[simp] theorem overtake_busRest {a : State × List Written} {m : Written} :
    busRest (overtake a m).1.tw = busRest a.1.tw := by
  unfold overtake; first | (simp; done) | ((repeat' split) <;> simp; done) | (dsimp only; (repeat' split) <;> simp; done)

@[simp] theorem regTurn_busRest {late : List (Nat × Bool)} {a : State × List Written} {i : Staged} :
    busRest (regTurn late a i).1.tw = busRest a.1.tw := by
  unfold regTurn; first | (simp; done) | ((repeat' split) <;> simp; done) | (dsimp only; (repeat' split) <;> simp; done)

@[simp] theorem stepItem_hostRest {a : State × StepOne} {i : Staged} :
    hostRest (stepItem a i).1.hl = hostRest a.1.hl := by
  unfold stepItem; first | (simp; done) | ((repeat' split) <;> simp; done) | (dsimp only; (repeat' split) <;> simp; done)

@[simp] theorem stepItem_busRest {a : State × StepOne} {i : Staged} :
    busRest (stepItem a i).1.tw = busRest a.1.tw := by
  unfold stepItem; first | (simp; done) | ((repeat' split) <;> simp; done) | (dsimp only; (repeat' split) <;> simp; done)

@[simp] theorem stepOne_hostRest {s : State} :
    hostRest (stepOne s).1.hl = hostRest s.hl := by
  unfold stepOne; first | (simp; done) | ((repeat' split) <;> simp; done) | (dsimp only; (repeat' split) <;> simp; done)

@[simp] theorem stepOne_busRest {s : State} :
    busRest (stepOne s).1.tw = busRest s.tw := by
  unfold stepOne; first | (simp; done) | ((repeat' split) <;> simp; done) | (dsimp only; (repeat' split) <;> simp; done)

@[simp] theorem headEvents_hostRest {s : State} {o : StepOne} {d : HeadDone} :
    hostRest (headEvents s o d).hl = hostRest s.hl := by
  unfold headEvents; first | (simp; done) | ((repeat' split) <;> simp; done) | (dsimp only; (repeat' split) <;> simp; done)

@[simp] theorem headEvents_busRest {s : State} {o : StepOne} {d : HeadDone} :
    busRest (headEvents s o d).tw = busRest s.tw := by
  unfold headEvents; first | (simp; done) | ((repeat' split) <;> simp; done) | (dsimp only; (repeat' split) <;> simp; done)

@[simp] theorem applyEngineItem_hostRest {s : State} {i : Staged} :
    hostRest (applyEngineItem s i).hl = hostRest s.hl := by
  unfold applyEngineItem; first | (simp; done) | ((repeat' split) <;> simp; done) | (dsimp only; (repeat' split) <;> simp; done)

@[simp] theorem applyEngineItem_busRest {s : State} {i : Staged} :
    busRest (applyEngineItem s i).tw = busRest s.tw := by
  unfold applyEngineItem; first | (simp; done) | ((repeat' split) <;> simp; done) | (dsimp only; (repeat' split) <;> simp; done)

@[simp] theorem paramsTurn_busRest {a : State × List (Nat × Nat × Owner)} {i : Staged} :
    busRest (paramsTurn a i).1.tw = busRest a.1.tw := by
  unfold paramsTurn; first | (simp; done) | ((repeat' split) <;> simp; done) | (dsimp only; (repeat' split) <;> simp; done)

@[simp] theorem applyAllParams_busRest {s : State} :
    busRest (applyAllParams s).tw = busRest s.tw := by
  unfold applyAllParams; first | (simp; done) | ((repeat' split) <;> simp; done) | (dsimp only; (repeat' split) <;> simp; done)

@[simp] theorem applyStreamItem_hostRest {s : State} {i : Staged} :
    hostRest (applyStreamItem s i).hl = hostRest s.hl := by
  unfold applyStreamItem; first | (simp; done) | ((repeat' split) <;> simp; done) | (dsimp only; (repeat' split) <;> simp; done)

@[simp] theorem applyStreamItem_busRest {s : State} {i : Staged} :
    busRest (applyStreamItem s i).tw = busRest s.tw := by
  unfold applyStreamItem; first | (simp; done) | ((repeat' split) <;> simp; done) | (dsimp only; (repeat' split) <;> simp; done)

@[simp] theorem followState_hostRest {s : State} :
    hostRest (followState s).hl = hostRest s.hl := by
  unfold followState; first | (simp; done) | ((repeat' split) <;> simp; done) | (dsimp only; (repeat' split) <;> simp; done)

@[simp] theorem followState_busRest {s : State} :
    busRest (followState s).tw = busRest s.tw := by
  unfold followState; first | (simp; done) | ((repeat' split) <;> simp; done) | (dsimp only; (repeat' split) <;> simp; done)

@[simp] theorem decideLoss_hostRest {s : State} :
    hostRest (decideLoss s).hl = hostRest s.hl := by
  unfold decideLoss; first | (simp; done) | ((repeat' split) <;> simp; done) | (dsimp only; (repeat' split) <;> simp; done)

@[simp] theorem decideLoss_busRest {s : State} :
    busRest (decideLoss s).tw = busRest s.tw := by
  unfold decideLoss; first | (simp; done) | ((repeat' split) <;> simp; done) | (dsimp only; (repeat' split) <;> simp; done)

@[simp] theorem judgeSlack_hostRest {s : State} {slack : Nat} {drained : Bool} :
    hostRest (judgeSlack s slack drained).hl = hostRest s.hl := by
  unfold judgeSlack; first | (simp; done) | ((repeat' split) <;> simp; done) | (dsimp only; (repeat' split) <;> simp; done)

@[simp] theorem judgeSlack_busRest {s : State} {slack : Nat} {drained : Bool} :
    busRest (judgeSlack s slack drained).tw = busRest s.tw := by
  unfold judgeSlack; first | (simp; done) | ((repeat' split) <;> simp; done) | (dsimp only; (repeat' split) <;> simp; done)

@[simp] theorem frameReports_hostRest {s : State} :
    hostRest (frameReports s).hl = hostRest s.hl := by
  unfold frameReports; first | (simp; done) | ((repeat' split) <;> simp; done) | (dsimp only; (repeat' split) <;> simp; done)

@[simp] theorem frameReports_busRest {s : State} :
    busRest (frameReports s).tw = busRest s.tw := by
  unfold frameReports; first | (simp; done) | ((repeat' split) <;> simp; done) | (dsimp only; (repeat' split) <;> simp; done)

@[simp] theorem settleDeferral_hostRest {s : State} :
    hostRest (settleDeferral s).hl = hostRest s.hl := by
  unfold settleDeferral; first | (simp; done) | ((repeat' split) <;> simp; done) | (dsimp only; (repeat' split) <;> simp; done)

@[simp] theorem settleDeferral_busRest {s : State} :
    busRest (settleDeferral s).tw = busRest s.tw := by
  unfold settleDeferral; first | (simp; done) | ((repeat' split) <;> simp; done) | (dsimp only; (repeat' split) <;> simp; done)

@[simp] theorem readEffect_hostRest {s : State} {o : Owner} {r : ReadIn} {n : RegName} {i : Nat} :
    hostRest (readEffect s o r n i).hl = hostRest s.hl := by
  unfold readEffect; first | (simp; done) | ((repeat' split) <;> simp; done) | (dsimp only; (repeat' split) <;> simp; done)

@[simp] theorem readEffect_busRest {s : State} {o : Owner} {r : ReadIn} {n : RegName} {i : Nat} :
    busRest (readEffect s o r n i).tw = busRest s.tw := by
  unfold readEffect; first | (simp; done) | ((repeat' split) <;> simp; done) | (dsimp only; (repeat' split) <;> simp; done)

@[simp] theorem readAt_hostRest {s : State} {o : Owner} {r : ReadIn} {off : Nat} :
    hostRest (readAt s o r off).1.hl = hostRest s.hl := by
  unfold readAt; first | (simp; done) | ((repeat' split) <;> simp; done) | (dsimp only; (repeat' split) <;> simp; done)

@[simp] theorem writeEffect_hostRest {s : State} {src : Owner} {env : WriteIn} {n : RegName} {i : Nat} {v : Word} :
    hostRest (writeEffect s src env n i v).hl = hostRest s.hl := by
  unfold writeEffect; first | (simp; done) | ((repeat' split) <;> simp; done) | (dsimp only; (repeat' split) <;> simp; done)

@[simp] theorem spCtrlWrite_busRest {s : State} {src : Owner} {off : Nat} {v : Word} :
    busRest (spCtrlWrite s src off v).1.tw = busRest s.tw := by
  unfold spCtrlWrite; first | (simp; done) | ((repeat' split) <;> simp; done) | (dsimp only; (repeat' split) <;> simp; done)

@[simp] theorem barRead_hostRest {s : State} {src : Owner} {r : ReadIn} {w : BarWrite} :
    hostRest (barRead s src r w).hl = hostRest s.hl := by
  unfold barRead; first | (simp; done) | ((repeat' split) <;> simp; done) | (dsimp only; (repeat' split) <;> simp; done)

@[simp] theorem readRegs_hostRest {o : Owner} {r : ReadIn} {x1 : Nat} {x2 : Nat} {x3 : State} :
    hostRest (readRegs o r x1 x2 x3).1.hl = hostRest x3.hl := by
  induction x1 generalizing x2 x3 with
  | zero => rfl
  | succ n ih => unfold readRegs; simp [ih]

@[simp] theorem regRead_hostRest {s : State} {r : ReadIn} {d : Bytes} :
    hostRest (regRead s r d).1.hl = hostRest s.hl := by
  unfold regRead; first | (simp; done) | ((repeat' split) <;> simp; done) | (dsimp only; (repeat' split) <;> simp; done)

end Sys2Proof.Laws
end

