-- ==== Sys2Proof/Laws/Commands.lean ====
section
/-! SUPPORT. Hepex commands: the checks they share, and the completion of a command that waits for no other. -/

namespace Sys2Proof.Laws

open Sys2Proof Sys2Proof.Machine Sys2Proof.Safety

set_option Elab.async false

/-- The slot that `openSlot` gives a command. -/
def slotOf (s : State) (op : Nat) (c : Cmd) : CmpSlot :=
  { slot := s.hl.nextSlot, src := c.src, noIrq := noIrqOf c, id := c.id, idx := c.idx, opcode := op, done := none }

/-- A state in which one command is open: what the command's own work is given. -/
structure Opened (s : State) (t : Frac) (op : Nat) (c : Cmd) (u : State) : Prop where
  order : u.hl.order = [slotOf s op c]
  cmp : u.hl.cmp = s.hl.cmp
  host : hostIdle { u.hl with order := [] } = hostIdle { s.hl with order := [] }
  bus : busIdle u.tw = busIdle s.tw
  now : u.now = t
  next : u.hl.nextSlot = s.hl.nextSlot + 1
  open_ : ringsOpen u = ringsOpen s

theorem runCmd_ready {s : State} {t : Frac} {op : Nat} {c : Cmd} {gs : List Nat} {use : PwUse} {ok : Bool}
    {k : State → Nat → State} (h : cmdTaken s c op gs) (hf : fieldsOk c use = true) (hp : ok = true) :
    runCmd s t op c gs use ok k = .next (k (openSlot (atT s t) op c).1 s.hl.nextSlot) := by
  obtain ⟨h1, -, -, h3, h4⟩ := h
  unfold runCmd
  dsimp only
  have hi : inHand (atT s t) op c = true := h1
  have ho : ∀ g, owns (openSlot (atT s t) op c).1 c.src g = owns s c.src g := by
    intro g
    simp [owns, rb, reg]
  have hl : gs.filter (fun g => !owns (openSlot (atT s t) op c).1 c.src g) = [] := by
    rw [List.filter_eq_nil_iff]
    intro g hg
    simp [ho, h4 g hg]
  have hr : ((openSlot (atT s t) op c).1.ct.phase == Phase.recovery && !recoveryOps.contains op) = false := by
    simp only [openSlot_keeps, atT_keeps]
    by_cases h : s.ct.phase = .recovery
    · simp [h3 h]
    · simp [h]
  rw [hi, hr, hl, hf, hp]
  simp [openSlot, atT]

/-- The command processor takes no command of the peer (R486). -/
theorem inHand_peer {s : State} {op : Nat} {c : Cmd} (h : inHand s op c = true) : c.src ≠ .peer := by
  intro hc
  unfold inHand at h
  rw [hc] at h
  cases h

theorem openSlot_opened {s : State} {t : Frac} {op : Nat} {c : Cmd} (h : s.hl.order = [])
    (hq : c.src = .host → s.hl.orphan = false) : Opened s t op c (openSlot (atT s t) op c).1 := by
  have h1 : (s.hl.orphan && decide (c.src = .host)) = false := by
    by_cases hc : c.src = .host
    · simp [hq hc]
    · simp [hc]
  have h2 : (s.hl.orphan && c.src != .host) = s.hl.orphan := by
    by_cases hc : c.src = .host
    · simp [hq hc]
    · simp [hc]
  unfold openSlot atT
  dsimp only
  rw [h1, h2]
  split <;> exact ⟨by simp [h, slotOf], rfl, rfl, rfl, rfl, rfl, rfl⟩

/-! ### What is driven out only grows within a command -/

/-- What was driven out is still there. -/
def Grows (s t : State) : Prop := ∃ l, t.out = s.out ++ l

theorem Grows.refl (s : State) : Grows s s := ⟨[], by simp⟩

theorem Grows.of_eq {s t : State} (h : t.out = s.out) : Grows s t := ⟨[], by simp [h]⟩

theorem Grows.trans {s t u : State} (h : Grows s t) (k : Grows t u) : Grows s u := by
  obtain ⟨l, hl⟩ := h
  obtain ⟨m, hm⟩ := k
  exact ⟨l ++ m, by rw [hm, hl, List.append_assoc]⟩

theorem Grows.of_out {s t u : State} (g : Grows t u) (h : t.out = s.out) : Grows s u := (Grows.of_eq h).trans g

theorem Grows.mem {s t : State} (h : Grows s t) {o : Out} (k : o ∈ s.out) : o ∈ t.out := by
  obtain ⟨l, hl⟩ := h
  rw [hl]
  exact List.mem_append_left l k

theorem signal_grows (s : State) (v : Nat) : Grows s (signal s v) := by
  unfold signal sendMsi leaveL1 push
  (repeat' split) <;> first | exact .of_eq rfl | exact ⟨[.msix v], rfl⟩

theorem push_grows (s : State) (o : Out) : Grows s (push s o) := ⟨[o], rfl⟩

theorem writeEntry_grows (s : State) (a : Nat) (b : Bytes) (k : Nat) : Grows s (writeEntry s a b k) := by
  unfold writeEntry dmaWrite leaveL1 push
  exact ⟨[.dma a (b.take (b.length - k)), .dma (a + (b.length - k)) (b.drop (b.length - k))], by simp⟩

theorem putEvent_grows (s : State) (e : Event) : Grows s (putEvent s e) := by
  unfold putEvent
  exact (push_grows s _).trans ((writeEntry_grows _ _ _ 4).trans ((signal_grows _ 1).of_out (by dsimp only)))

theorem flushLost_grows (s : State) : Grows s (flushLost s) := by
  unfold flushLost
  split
  · exact (putEvent_grows _ _).of_out (by dsimp only)
  · exact .refl s

theorem flushDue_grows (s : State) : Grows s (flushDue s) := by
  unfold flushDue
  split
  · exact flushLost_grows s
  · exact .refl s

theorem writeRecords_grows (l : List Event) (s : State) : Grows s (writeRecords l s) := by
  induction l generalizing s with
  | nil => exact (flushLost_grows _).of_out (by dsimp only)
  | cons e r ih =>
    unfold writeRecords
    dsimp only
    split
    · exact (flushDue_grows s).trans (((putEvent_grows _ e).trans (ih _)).of_out (by dsimp only))
    · exact (flushDue_grows s).trans (.of_eq (by dsimp only))

theorem writeEvent_grows (s : State) (e : Event) : Grows s (writeEvent s e) := by
  unfold writeEvent writeWaiting
  dsimp only
  split
  · exact (writeRecords_grows _ s).trans (putEvent_grows _ e)
  · exact (writeRecords_grows _ s).trans (.of_eq (by unfold dropEvent; dsimp only))

theorem wakeHost_grows (s : State) : Grows s (wakeHost s) := by
  unfold wakeHost push
  split
  · exact ⟨[.pin "WAKE_N" true], rfl⟩
  · exact .refl s

theorem emitAt_grows (s : State) (code unit fn : Nat) (f : Frac) (p : BitVec 128) : Grows s (emitAt s code unit fn f p) := by
  unfold emitAt ringEvent
  dsimp only
  split
  · exact Grows.trans (.of_eq (by simp)) (wakeHost_grows _)
  · exact Grows.trans (.of_eq (by simp)) (writeEvent_grows _ _)

theorem emit_grows (s : State) (code unit : Nat) (p : BitVec 128) : Grows s (emit s code unit p) :=
  emitAt_grows s code unit s.fr.fn s.now p

theorem raisedAt_grows {s t : State} {fn : Nat} {f : Frac} {code unit : Nat} {p : BitVec 128}
    (h : raisedAt fn f code unit p s) (g : Grows s t) : raisedAt fn f code unit p t := by
  obtain ⟨i, ph, hm⟩ := h
  exact ⟨i, ph, g.mem hm⟩

theorem writeCompletion_grows (s : State) (c : CmpSlot) (status result : Nat) :
    Grows s (writeCompletion s c status result) := by
  unfold writeCompletion
  split
  · dsimp only
    split
    · let e : Completion := ⟨c.id, status, c.opcode, result % 2 ^ 48, c.idx⟩
      have h := (push_grows s (.completion e s.hl.cmp.prod s.hl.cmp.phase)).trans
        (writeEntry_grows _ (ringAddr s 1 16 s.hl.cmp.prod) (completionBytes e s.hl.cmp.phase) 2)
      split
      · exact h.trans (.of_eq rfl)
      · exact h.trans (Grows.trans (.of_eq rfl) (signal_grows _ 0))
    · exact .refl s
  · exact .of_eq (by simp)
  · exact .refl s

theorem flushOrder_grows (l : List CmpSlot) (s : State) : Grows s (flushOrder l s).2 := by
  induction l generalizing s with
  | nil => exact .refl s
  | cons c r ih =>
    unfold flushOrder
    (repeat' split) <;> first | exact .refl s | exact (writeCompletion_grows s c _ _).trans (ih _)

theorem busyOver_grows (s : State) : Grows s (busyOver s) := by
  unfold busyOver
  dsimp only
  (repeat' split) <;> first | exact .of_eq rfl | exact Grows.trans (.of_eq rfl) (emit_grows _ _ _ _)

theorem finish_grows (s : State) (n status result : Nat) : Grows s (finish s n status result) := by
  unfold finish flushCompletions
  let o := s.hl.order.map (fun c => if c.slot = n then { c with done := some (status, result) } else c)
  have h := flushOrder_grows o { s with hl := { s.hl with order := o } }
  exact Grows.trans (.of_eq rfl) (h.trans (Grows.trans (.of_eq rfl) (busyOver_grows _)))

/-! ### One completion -/

/-- The busy interval that a completion may end: none, or one that dropped nothing and whose command is completed. -/
def idleAfter (s : State) (n : Nat) : Prop :=
  s.hl.busy = none ∨ (s.hl.long = none ∧ s.hl.rerun = none ∧ n < s.hl.nextSlot ∧
    ∃ b, s.hl.busy = some b ∧ b.slot = n ∧ b.doorbells = 0 ∧ b.writes = 0)

theorem busyOver_quiet {s : State} {n : Nat} (h : idleAfter s n) (ho : s.hl.order = []) :
    busyOver s = { s with hl := { s.hl with busy := none } } := by
  unfold busyOver
  rcases h with h | ⟨h1, h0, h2, b, h3, h4, h5, h6⟩
  · simp only [h]
    rw [← h]
  · simp only [h3, h1, h0, ho, h4, h5, h6]
    simp [Nat.not_le.mpr h2]

theorem signal_tw {s : State} {v : Nat} : (signal s v).tw = s.tw := by simp only [signal_keeps]

theorem writeEntry_idle {s : State} {o : Out} {a k : Nat} {b : Bytes} :
    hostIdle (writeEntry (push s o) a b k).hl = hostIdle s.hl ∧ (writeEntry (push s o) a b k).tw = s.tw :=
  ⟨hostIdle_of_rest (by unfold writeEntry dmaWrite; rfl), by unfold writeEntry dmaWrite; rfl⟩

theorem writeCompletion_idle {s : State} {c : CmpSlot} {status result : Nat} :
    hostIdle (writeCompletion s c status result).hl = hostIdle s.hl ∧
      busIdle (writeCompletion s c status result).tw = busIdle s.tw := by
  unfold writeCompletion
  split
  · dsimp only
    split
    · generalize hy : writeEntry _ _ _ _ = y
      have h : hostIdle y.hl = hostIdle s.hl ∧ y.tw = s.tw := by rw [← hy]; exact writeEntry_idle
      clear hy
      split
      · exact ⟨h.1, congrArg busIdle h.2⟩
      · exact ⟨(hostIdle_of_rest signal_rest).trans h.1, congrArg busIdle (signal_tw.trans h.2)⟩
    · exact ⟨rfl, rfl⟩
  · exact ⟨by simp, (busIdle_of_rest followAttention_rest).trans rfl⟩
  · exact ⟨rfl, rfl⟩

theorem writeCompletion_evt {s : State} {c : CmpSlot} {status result : Nat} :
    (writeCompletion s c status result).hl.evt = s.hl.evt ∧
      ringsOpen (writeCompletion s c status result) = ringsOpen s ∧
      (writeCompletion s c status result).hl.lost = s.hl.lost ∧
      (writeCompletion s c status result).hl.waiting = s.hl.waiting := by
  unfold writeCompletion writeEntry
  split
  · dsimp only
    split
    · split
      · simp [dmaWrite, leaveL1, push, ringsOpen]
      · exact signal_evt _ 0
    · simp [ringsOpen]
  · simp [ringsOpen]
  · simp [ringsOpen]

theorem writeCompletion_slots {s : State} {c : CmpSlot} {status result : Nat} :
    (writeCompletion s c status result).hl.nextSlot = s.hl.nextSlot ∧
      (writeCompletion s c status result).hl.busy = s.hl.busy ∧
      (writeCompletion s c status result).hl.long = s.hl.long ∧
      (writeCompletion s c status result).hl.rerun = s.hl.rerun := by
  unfold writeCompletion writeEntry
  split
  · dsimp only
    split
    · split
      · simp [dmaWrite, leaveL1, push]
      · have e : ∀ y : State, y.hl.nextSlot = (hostRest y.hl).nextSlot ∧ y.hl.busy = (hostRest y.hl).busy ∧
          y.hl.long = (hostRest y.hl).long ∧ y.hl.rerun = (hostRest y.hl).rerun := fun _ => ⟨rfl, rfl, rfl, rfl⟩
        simp only [e (signal _ 0), signal_rest]
        exact ⟨rfl, rfl, rfl, rfl⟩
    · simp
  · simp
  · simp

theorem finish_one {u : State} {x : CmpSlot} {status result : Nat} (h : u.hl.order = [x])
    (hw : x.src = .host → ringsOpen u = true) (hi : idleAfter u x.slot) :
    finish u x.slot status result =
      let w := writeCompletion { u with hl := { u.hl with order := [{ x with done := some (status, result) }] } }
        { x with done := some (status, result) } status result
      { w with hl := { w.hl with order := [], busy := none } } := by
  have hc : ∀ y : State, ringsOpen y = ringsOpen u → canWrite y { x with done := some (status, result) } = true := by
    intro y hy
    unfold canWrite
    dsimp only
    rw [hy]
    cases hx : x.src <;> simp [hw, hx]
  unfold finish flushCompletions
  simp only [h, List.map_cons, List.map_nil, if_true, flushOrder]
  have h1 := hc { u with hl := { u.hl with order := [{ x with done := some (status, result) }] } } rfl
  dsimp only at h1 ⊢
  rw [if_pos h1]
  obtain ⟨e1, e2, e3, e4⟩ := writeCompletion_slots
    (s := { u with hl := { u.hl with order := [{ x with done := some (status, result) }] } })
    (c := { x with done := some (status, result) }) (status := status) (result := result)
  refine busyOver_quiet (n := x.slot) ?_ rfl
  unfold idleAfter
  dsimp only
  rw [e1, e2, e3, e4]
  exact hi

/-- The completion of the only open command. -/
theorem finish_slot {s u : State} {x : CmpSlot} {status result : Nat} (ho : u.hl.order = [x])
    (hw : x.src = .host → ringsOpen u = true) (hi : idleAfter u x.slot)
    (hc : u.hl.cmp = s.hl.cmp) (hs : x.src ≠ .peer) :
    reported x.src x.id x.opcode x.idx status result s (finish u x.slot status result) ∧
      hostIdle (finish u x.slot status result).hl = { hostIdle u.hl with order := [], busy := none } ∧
      busIdle (finish u x.slot status result).tw = busIdle u.tw ∧
      (finish u x.slot status result).hl.order = [] ∧
      (∀ k, evtOpen u k → evtOpen (finish u x.slot status result) k) := by
  rw [finish_one ho hw hi]
  refine ⟨?_, ?_, writeCompletion_idle.2, rfl, ?_⟩
  · unfold reported writeCompletion writeEntry
    cases hx : x.src with
    | peer => exact absurd hx hs
    | tw =>
      have : ∀ y : State, (followAttention y).tw.result = y.tw.result ∧
          (followAttention y).tw.resultReady = y.tw.resultReady ∧
          (followAttention y).tw.cmdPend = y.tw.cmdPend := by
        intro y
        unfold followAttention
        dsimp only
        (repeat' split) <;> simp
      simp [this]
    | host =>
      intro he
      dsimp only
      rw [hc, if_pos he]
      split
      · simp [dmaWrite, leaveL1, push]
      · refine (signal_grows _ 0).mem ?_
        simp [dmaWrite, leaveL1, push]
  · have := (writeCompletion_idle
      (s := { u with hl := { u.hl with order := [{ x with done := some (status, result) }] } })
      (c := { x with done := some (status, result) }) (status := status) (result := result)).1
    have e : ∀ y : HostSide, hostIdle { y with order := [], busy := none } =
        { hostIdle y with order := [], busy := none } := fun _ => rfl
    dsimp only
    rw [e, this]
    rfl
  · intro k h
    obtain ⟨e1, e2, e3, e4⟩ := writeCompletion_evt
      (s := { u with hl := { u.hl with order := [{ x with done := some (status, result) }] } })
      (c := { x with done := some (status, result) }) (status := status) (result := result)
    unfold evtOpen at *
    unfold ringsOpen at *
    dsimp only at *
    rw [e1, e2, e3, e4]
    exact h

/-- The completion of a command that waits for no other. -/
theorem finish_alone {s u : State} {t : Frac} {op status result : Nat} {c : Cmd} {gs : List Nat}
    (h : Opened s t op c u) (hr : cmdTaken s c op gs) (hi : idleAfter u s.hl.nextSlot) :
    completed c op status result s (finish u s.hl.nextSlot status result) ∧
      hostIdle (finish u s.hl.nextSlot status result).hl = { hostIdle s.hl with busy := none } ∧
      busIdle (finish u s.hl.nextSlot status result).tw = busIdle s.tw ∧
      (∀ k, evtOpen u k → evtOpen (finish u s.hl.nextSlot status result) k) := by
  obtain ⟨r1, ho, r3, -, -⟩ := hr
  obtain ⟨h1, h2, h3, h4, h5⟩ := finish_slot (s := s) (u := u) (status := status) (result := result) h.order
    (fun hx => h.open_.trans (r3 hx).1) hi h.cmp (inHand_peer r1)
  refine ⟨h1, ?_, h3.trans h.bus, h5⟩
  refine h2.trans ?_
  have := h.host
  have e : ∀ x : HostSide, hostIdle { x with order := [] } = { hostIdle x with order := [] } := fun _ => rfl
  have e' : ∀ x : HostSide, ({ x with order := [], busy := none } : HostSide) =
    { ({ x with order := [] } : HostSide) with busy := none } := fun _ => rfl
  rw [e, e] at this
  rw [e', this, ← ho]
  rfl

theorem reported_emit {src : Owner} {id : Word} {op : Nat} {idx : BitVec 12} {status result : Nat} {s u : State}
    {code unit : Nat} {p : BitVec 128} (h : reported src id op idx status result s u) :
    reported src id op idx status result s (emit u code unit p) := by
  unfold reported at *
  cases src with
  | peer => trivial
  | host => exact fun he => (emit_grows u code unit p).mem (h he)
  | tw =>
    have hr := emit_busRest (s := u) (code := code) (unit := unit) (p := p)
    have e1 : ∀ x : TwoWire, x.result = (busRest x).result ∧ x.resultReady = (busRest x).resultReady ∧
      x.cmdPend = (busRest x).cmdPend := fun _ => ⟨rfl, rfl, rfl⟩
    simp only [e1 (emit u code unit p).tw, hr]
    exact h

theorem startLong_begun {s u : State} {t : Frac} {op : Nat} {c : Cmd} {gs : List Nat} {l : LongOp}
    (h : Opened s t op c u) (hr : longReady s c op gs) (hb : u.hl.busy = s.hl.busy) :
    begun c op l (startLong u op s.hl.nextSlot l) ∧ hostWork (startLong u op s.hl.nextSlot l).hl = hostWork s.hl ∧
      busIdle (startLong u op s.hl.nextSlot l).tw = busIdle s.tw := by
  obtain ⟨⟨r1, ho, r3, -, -⟩, r6, r5⟩ := hr
  have hz : u.hl.rerun = s.hl.rerun := by
    have := congrArg HostSide.rerun h.host
    exact this
  refine ⟨⟨slotOf s op c, ⟨h.order, inHand_peer r1, fun hx => h.open_.trans (r3 hx).1, ?_, rfl, hz.trans r6, rfl, ?_⟩, rfl, rfl, rfl⟩,
    ?_, h.bus⟩
  · unfold startLong
    dsimp only
    rw [hb]
    rcases r5 with r5 | ⟨n, r5⟩
    · exact ⟨nowTicks u, by rw [r5]; rfl⟩
    · exact ⟨n, by rw [r5]; rfl⟩
  · change s.hl.nextSlot < u.hl.nextSlot
    rw [h.next]
    exact Nat.lt_succ_self _
  · have := h.host
    have e : ∀ x : HostSide, hostWork x = { hostIdle { x with order := [] } with busy := none, long := none } :=
      fun _ => rfl
    rw [e, e]
    unfold startLong
    dsimp only
    rw [← this]
    rfl

/-- The end of a long operation. -/
theorem endLong_alone {s u : State} {x : CmpSlot} {op : Nat} {l : LongOp} {us : Word} {status result : Nat}
    (h : longHeld s x op l) (hb : u.hl.busy = s.hl.busy) (ho : u.hl.order = s.hl.order) (hc : u.hl.cmp = s.hl.cmp)
    (hn : u.hl.nextSlot = s.hl.nextSlot) (hw : ringsOpen u = ringsOpen s) (hz : u.hl.rerun = s.hl.rerun)
    (hl : u.hl.long = s.hl.long) :
    reported x.src x.id x.opcode x.idx status result s (endLong u us status result) ∧
      (endLong u us status result).hl.busy = none ∧ (endLong u us status result).hl.long = none ∧
      (endLong u us status result).hl.order = [] ∧
      hostWork (endLong u us status result).hl = hostWork u.hl ∧
      busIdle (endLong u us status result).tw = busIdle u.tw ∧
      (∀ k, evtOpen u k → evtOpen (endLong u us status result) k) := by
  obtain ⟨a1, a2, a3, ⟨n, a4⟩, a5, a6, -, a7⟩ := h
  unfold endLong
  rw [hb, a4, hl, a5]
  dsimp only
  let b : Busy := { op := op, slot := x.slot, doorbells := 0, writes := 0, since := n,
                    over_ := some (us.toNat, nowTicks u) }
  obtain ⟨h1, h2, h3, h4, h5⟩ := finish_slot (s := s) (u := { u with hl := { u.hl with busy := some b, long := none } })
    (x := x) (status := status) (result := result) (ho.trans a1) (fun hx => hw.trans (a3 hx))
    (.inr ⟨rfl, hz.trans a6, hn ▸ a7, b, rfl, rfl, rfl, rfl⟩) hc a2
  have e : ∀ z : HostSide, z.busy = (hostIdle z).busy ∧ z.long = (hostIdle z).long := fun _ => ⟨rfl, rfl⟩
  refine ⟨h1, ?_, ?_, h4, ?_, h3, fun k hk => h5 k hk⟩
  · rw [(e _).1]
    exact congrArg HostSide.busy h2
  · rw [(e _).2]
    exact congrArg HostSide.long h2
  · unfold hostWork
    rw [h2]
    rfl

end Sys2Proof.Laws
end

