-- ==== Sys2Proof/Laws/Table.lean ====
section
/-! SUPPORT. What the operations on sparse tables do: a read after a write, and the canonical form. -/

namespace Sys2Proof.Laws

open Sys2Proof Sys2Proof.Machine

set_option Elab.async false

variable {α : Type}

@[simp] theorem tget_nil (d : α) (k : Nat) : tget d [] k = d := rfl

theorem tget_cons (d : α) (e : Nat × α) (r : Tbl α) (k : Nat) :
    tget d (e :: r) k = if e.1 = k then e.2 else tget d r k := by
  cases e; rfl

theorem tget_del_same (d : α) (t : Tbl α) (k : Nat) : tget d (tdel t k) k = d := by
  induction t with
  | nil => rfl
  | cons e r ih =>
    by_cases h : e.1 = k
    · simpa [tdel, h] using ih
    · simp [tdel, h, tget_cons] ; simpa [tdel] using ih

theorem tget_del_ne (d : α) (t : Tbl α) {k j : Nat} (h : j ≠ k) : tget d (tdel t k) j = tget d t j := by
  induction t with
  | nil => rfl
  | cons e r ih =>
    by_cases he : e.1 = k
    · simp [tdel, he, tget_cons, Ne.symm h]; simpa [tdel] using ih
    · simp [tdel, he, tget_cons]; simp [tdel] at ih; rw [ih]

theorem tget_ins_same (d : α) (t : Tbl α) (k : Nat) (v : α) (h : ∀ e ∈ t, e.1 ≠ k) :
    tget d (tins t k v) k = v := by
  induction t with
  | nil => simp [tins, tget_cons]
  | cons e r ih =>
    obtain ⟨k', v'⟩ := e
    have hk : k' ≠ k := h (k', v') (by simp)
    simp only [tins]
    split
    · simp [tget_cons]
    · simp [tget_cons, hk, ih (fun e he => h e (by simp [he]))]

theorem tget_ins_ne (d : α) (t : Tbl α) {k j : Nat} (v : α) (h : j ≠ k) :
    tget d (tins t k v) j = tget d t j := by
  induction t with
  | nil => simp [tins, tget_cons, Ne.symm h]
  | cons e r ih =>
    obtain ⟨k', v'⟩ := e
    simp only [tins]
    split
    · simp [tget_cons, Ne.symm h]
    · simp [tget_cons, ih]

/-- A read after a write at the same key gives the value written. -/
@[simp] theorem tget_tput_same [DecidableEq α] (d : α) (t : Tbl α) (k : Nat) (v : α) :
    tget d (tput d t k v) k = v := by
  unfold tput
  split
  · rename_i h; rw [tget_del_same, h]
  · exact tget_ins_same d _ k v (fun e he => by simpa [tdel] using (List.mem_filter.1 he).2)

theorem tdel_tdel (t : Tbl α) (k : Nat) : tdel (tdel t k) k = tdel t k := by
  unfold tdel
  rw [List.filter_filter]
  simp

theorem tdel_ins (t : Tbl α) (k : Nat) (v : α) : tdel (tins t k v) k = tdel t k := by
  unfold tdel
  induction t with
  | nil => simp [tins]
  | cons e r ih =>
    obtain ⟨a, b⟩ := e
    unfold tins
    split
    · simp
    · simp only [List.filter_cons, ih]

/-- The later of two writes of a key stands. -/
@[simp] theorem tput_tput [DecidableEq α] (d : α) (t : Tbl α) (k : Nat) (v w : α) :
    tput d (tput d t k v) k w = tput d t k w := by
  have h : tdel (tput d t k v) k = tdel t k := by
    unfold tput
    split
    · exact tdel_tdel t k
    · rw [tdel_ins, tdel_tdel]
  show (if w = d then tdel (tput d t k v) k else tins (tdel (tput d t k v) k) k w) = _
  rw [h]
  rfl

/-- A write elsewhere, read with any default. -/
theorem tget_tput_other [DecidableEq α] (d d' : α) (t : Tbl α) {k j : Nat} (v : α) (h : j ≠ k) :
    tget d (tput d' t k v) j = tget d t j := by
  unfold tput
  split
  · exact tget_del_ne d t h
  · rw [tget_ins_ne d _ v h, tget_del_ne d t h]

/-- A write leaves every other key alone. -/
theorem tget_tput_ne [DecidableEq α] (d : α) (t : Tbl α) {k j : Nat} (v : α) (h : j ≠ k) :
    tget d (tput d t k v) j = tget d t j := by
  unfold tput
  split
  · exact tget_del_ne d t h
  · rw [tget_ins_ne d _ v h, tget_del_ne d t h]

/-- A read after a write, at any key. -/
theorem tget_tput [DecidableEq α] (d : α) (t : Tbl α) (k j : Nat) (v : α) :
    tget d (tput d t k v) j = if j = k then v else tget d t j := by
  by_cases h : j = k
  · simp [h]
  · simp [h, tget_tput_ne d t v h]

/-! ### The canonical form -/

/-- A bound below every key may be lowered. -/
theorem twfFrom_lower [DecidableEq α] (d : α) {b c : Nat} {t : Tbl α} (h : twfFrom d (some b) t = true) (hc : c ≤ b) :
    twfFrom d (some c) t = true := by
  cases t with
  | nil => rfl
  | cons e r =>
    obtain ⟨k, v⟩ := e
    simp only [twfFrom, Bool.and_eq_true, decide_eq_true_eq] at h ⊢
    exact ⟨⟨by omega, h.1.2⟩, h.2⟩

theorem twfFrom_none [DecidableEq α] (d : α) {b : Nat} {t : Tbl α} (h : twfFrom d (some b) t = true) :
    twfFrom d none t = true := by
  cases t with
  | nil => rfl
  | cons e r =>
    obtain ⟨k, v⟩ := e
    simp only [twfFrom, Bool.and_eq_true, Bool.true_and] at h ⊢
    exact ⟨h.1.2, h.2⟩

theorem twfFrom_del [DecidableEq α] (d : α) (b : Option Nat) (t : Tbl α) (k : Nat) (h : twfFrom d b t = true) :
    twfFrom d b (tdel t k) = true := by
  induction t generalizing b with
  | nil => rfl
  | cons e r ih =>
    obtain ⟨k', v'⟩ := e
    simp only [twfFrom, Bool.and_eq_true] at h
    have hr := ih (some k') h.2
    by_cases he : k' = k
    · have : tdel ((k', v') :: r) k = tdel r k := by simp [tdel, he]
      rw [this]
      cases b with
      | none => exact twfFrom_none d hr
      | some c =>
        have hc : c < k' := by simpa using h.1.1
        exact twfFrom_lower d hr (by omega)
    · have : tdel ((k', v') :: r) k = (k', v') :: tdel r k := by simp [tdel, he]
      rw [this]
      simp only [twfFrom, Bool.and_eq_true]
      exact ⟨h.1, hr⟩

theorem twfFrom_ins [DecidableEq α] (d : α) (b : Option Nat) (t : Tbl α) (k : Nat) (v : α) (hv : v ≠ d)
    (hb : ∀ c, b = some c → c < k) (hk : ∀ e ∈ t, e.1 ≠ k) (h : twfFrom d b t = true) :
    twfFrom d b (tins t k v) = true := by
  induction t generalizing b with
  | nil =>
    cases b with
    | none => simp [tins, twfFrom, hv]
    | some c => simp [tins, twfFrom, hv, hb c rfl]
  | cons e r ih =>
    obtain ⟨k', v'⟩ := e
    simp only [twfFrom, Bool.and_eq_true] at h
    simp only [tins]
    split
    · rename_i hlt
      simp only [twfFrom, Bool.and_eq_true, decide_eq_true_eq]
      refine ⟨⟨?_, by simp [hv]⟩, ⟨hlt, h.1.2⟩, h.2⟩
      cases b with
      | none => rfl
      | some c => simp [hb c rfl]
    · rename_i hlt
      have hne : k' ≠ k := hk (k', v') (by simp)
      simp only [twfFrom, Bool.and_eq_true]
      exact ⟨h.1, ih (some k') (fun c hc => by cases hc; omega) (fun e he => hk e (by simp [he])) h.2⟩

/-- Every write keeps the canonical form. -/
theorem twf_tput [DecidableEq α] (d : α) (t : Tbl α) (k : Nat) (v : α) (h : twf d t = true) :
    twf d (tput d t k v) = true := by
  unfold twf tput at *
  have hd := twfFrom_del d none t k h
  split
  · exact hd
  · rename_i hv
    exact twfFrom_ins d none _ k v hv (fun c hc => by cases hc)
      (fun e he => by simpa [tdel] using (List.mem_filter.1 he).2) hd

end Sys2Proof.Laws
end

