-- ==== Sys2Proof/Laws/Memory.lean ====
section
/-! SUPPORT. The two-wire buffer (R347): every write keeps its canonical form, and the buffer after reset has it. The
other addressed memories of the block are sparse tables, whose law is `twf_tput` of `Laws/Table.lean`. -/

namespace Sys2Proof.Laws

open Sys2Proof Sys2Proof.Machine

/-- Every cell lies in the 65,536 bytes of the buffer (R347). -/
def InBuf (l : List Host.Cell) : Prop := ∀ e ∈ l, e.1 < 65536

theorem bufWf_iff (l : List Host.Cell) : bufWf l = true ↔ twf 0 l = true ∧ InBuf l := by
  simp [bufWf, InBuf]

theorem inBuf_tdel {l : List Host.Cell} (k : Nat) (h : InBuf l) : InBuf (tdel l k) :=
  fun e he => h e (List.mem_filter.1 he).1

theorem inBuf_tins {l : List Host.Cell} {k : Nat} (v : Byte) (hk : k < 65536) (h : InBuf l) : InBuf (tins l k v) := by
  induction l with
  | nil => simpa [tins, InBuf] using hk
  | cons a r ih =>
    unfold tins
    split
    · intro e he
      rcases List.mem_cons.1 he with rfl | he
      · exact hk
      · exact h e he
    · intro e he
      rcases List.mem_cons.1 he with rfl | he
      · exact h _ (by simp)
      · exact ih (fun x hx => h x (by simp [hx])) e he

theorem bufWf_tput {l : List Host.Cell} {k : Nat} (v : Byte) (hk : k < 65536) (h : bufWf l = true) :
    bufWf (tput 0 l k v) = true := by
  rw [bufWf_iff] at *
  refine ⟨twf_tput _ _ _ _ h.1, ?_⟩
  unfold tput
  split
  · exact inBuf_tdel _ h.2
  · exact inBuf_tins _ hk (inBuf_tdel _ h.2)

/-- A write of bytes that fit the buffer keeps its form. -/
theorem bufWf_bufWrite {l : List Host.Cell} {o : Nat} {b : Bytes} (hb : o + b.length ≤ 65536) (h : bufWf l = true) :
    bufWf (bufWrite l o b) = true := by
  have key : ∀ (p : List (Byte × Nat)) (l : List Host.Cell), (∀ e ∈ p, o + e.2 < 65536) → bufWf l = true →
      bufWf (p.foldl (fun l e => tput 0 l (o + e.2) e.1) l) = true := by
    intro p
    induction p with
    | nil => exact fun _ _ h => h
    | cons a r ih =>
      exact fun l hp h => ih _ (fun e he => hp e (by simp [he])) (bufWf_tput _ (hp a (by simp)) h)
  refine key _ l (fun e he => ?_) h
  have := List.mem_range.1 (List.of_mem_zip he).2
  omega

/-- So does what a command leaves there. -/
theorem bufWf_cmdWrite {s : State} {c : Cmd} {i : Nat} {b : Bytes}
    (hb : fldN (pwN c i) 15 0 + b.length ≤ 65536) (h : bufWf s.tw.buf = true) :
    bufWf (cmdWrite s c i b).tw.buf = true := by
  unfold cmdWrite
  split
  · exact bufWf_bufWrite hb h
  · exact h

theorem reset_buffer_canonical : bufWf State.reset.tw.buf = true := rfl

end Sys2Proof.Laws
end

