-- ==== Sys2Proof/Laws/Power.lean ====
section
/-! SUPPORT. Power channels: reading a channel after operations on channels, one by one and over a list. -/

namespace Sys2Proof.Laws

open Sys2Proof Sys2Proof.Machine Sys2Proof.Safety

set_option Elab.async false

theorem psCh_of_ps {s t : State} (h : t.ps = s.ps) (k : Nat) : psCh t k = psCh s k := by
  unfold psCh
  rw [h]

@[simp] theorem psCh_emit {s : State} {code unit : Nat} {p : BitVec 128} {k : Nat} :
    psCh (emit s code unit p) k = psCh s k := psCh_of_ps (by simp) k

@[simp] theorem psCh_setDie {s : State} {d : PowerDie} {x : Die} {k : Nat} : psCh (setDie s d x) k = psCh s k := by
  cases d <;> rfl

@[simp] theorem psCh_followIdle {s : State} {d : PowerDie} {k : Nat} : psCh (followIdle s d) k = psCh s k := psCh_setDie

theorem psCh_setPsCh {s : State} {c k : Nat} {x : PsCh} :
    psCh (setPsCh s c x) k = if k = c then x else psCh s k := by
  unfold setPsCh
  rw [psCh_followIdle]
  unfold psCh
  exact tget_tput _ _ _ _ _

theorem ch_setPsCh {s : State} {c : Nat} {x : PsCh} : (setPsCh s c x).ps.ch = tput PsCh.reset s.ps.ch c x := by
  unfold setPsCh followIdle
  generalize dieOf c = e
  cases e <;> rfl

theorem clock_setPsCh {s : State} {c : Nat} {x : PsCh} : (setPsCh s c x).ps.clock = s.ps.clock := by
  unfold setPsCh followIdle
  generalize dieOf c = e
  cases e <;> rfl

/-- A die keeps all but the start of its idle hold when one of its channels changes (R135). -/
theorem die_setPsCh {s : State} {c : Nat} {x : PsCh} {d : PowerDie} :
    die (setPsCh s c x) d = { die s d with idleSince := (die (setPsCh s c x) d).idleSince } := by
  unfold setPsCh followIdle
  generalize dieOf c = e
  cases d <;> cases e <;> rfl

@[simp] theorem psCh_setPsCh_same {s : State} {c : Nat} {x : PsCh} : psCh (setPsCh s c x) c = x := by
  simp [psCh_setPsCh]

@[simp] theorem nowTicks_setPsCh {s : State} {c : Nat} {x : PsCh} : nowTicks (setPsCh s c x) = nowTicks s := by
  simp [nowTicks]

@[simp] theorem rf_setPsCh {s : State} {c : Nat} {x : PsCh} {n : RegName} {i a b : Nat} :
    rf (setPsCh s c x) n i a b = rf s n i a b := by
  simp [rf, reg]

@[simp] theorem die_setDie {s : State} {d : PowerDie} {x : Die} : die (setDie s d x) d = x := by
  cases d <;> rfl

/-- A pass over a list of channels that rewrites each from its own value, while `I` holds. -/
theorem each_psCh {f : State → Nat → State} {I : State → Prop} {g : Nat → PsCh → PsCh}
    (hI : ∀ t c, I t → I (f t c))
    (hf : ∀ t c k, I t → psCh (f t c) k = if k = c then g c (psCh t c) else psCh t k) :
    ∀ (l : List Nat), l.Nodup → ∀ s, I s → ∀ k,
      psCh (each l s f) k = if k ∈ l then g k (psCh s k) else psCh s k := by
  intro l
  induction l with
  | nil => intro _ s _ k; simp [each]
  | cons c r ih =>
    intro hn s hs k
    have hr := List.nodup_cons.1 hn
    have := ih hr.2 (f s c) (hI s c hs) k
    simp only [each, List.foldl_cons] at this ⊢
    rw [this, hf s c k hs]
    by_cases hk : k = c
    · subst hk
      simp [hr.1]
    · simp [hk]

theorem each_grows {α : Type} {f : State → α → State} (h : ∀ s a, Grows s (f s a)) :
    ∀ (l : List α) (s : State), Grows s (each l s f) := by
  intro l
  induction l with
  | nil => intro s; exact .refl s
  | cons a r ih => intro s; exact (h s a).trans (ih (f s a))

theorem each_invariant {α : Type} {f : State → α → State} {I : State → Prop} (h : ∀ s a, I s → I (f s a)) :
    ∀ (l : List α) (s : State), I s → I (each l s f) := by
  intro l
  induction l with
  | nil => intro s hs; exact hs
  | cons a r ih => intro s hs; exact ih (f s a) (h s a hs)

/-- An event machine that moved only by events. -/
def EventsOnly (s t : State) : Prop := hostRest t.hl = hostRest s.hl ∧ busRest t.tw = busRest s.tw

theorem EventsOnly.refl (s : State) : EventsOnly s s := ⟨rfl, rfl⟩

theorem EventsOnly.trans {s t u : State} (h : EventsOnly s t) (k : EventsOnly t u) : EventsOnly s u :=
  ⟨k.1.trans h.1, k.2.trans h.2⟩

theorem eventsOnly_emit (s : State) (code unit : Nat) (p : BitVec 128) : EventsOnly s (emit s code unit p) := by
  unfold EventsOnly
  simp

theorem each_eventsOnly {α : Type} {f : State → α → State} (h : ∀ s a, EventsOnly s (f s a)) :
    ∀ (l : List α) (s : State), EventsOnly s (each l s f) := by
  intro l
  induction l with
  | nil => intro s; exact .refl s
  | cons a r ih => intro s; exact (h s a).trans (ih (f s a))

/-! ### An automatic cause -/

theorem muteCh_grows (cause : Nat) (s : State) (c : Nat) : Grows s (muteCh cause s c) := by
  unfold muteCh chStopped
  split
  · exact .of_eq (by simp)
  · split
    · exact Grows.trans (.of_eq (by simp)) (emit_grows _ _ _ _)
    · exact .refl s

theorem muteCh_eventsOnly (cause : Nat) (s : State) (c : Nat) : EventsOnly s (muteCh cause s c) := by
  unfold muteCh chStopped
  split
  · exact ⟨by simp, by simp⟩
  · split
    · exact ⟨by simp, by simp⟩
    · exact .refl s

/-- What an automatic cause makes of a channel. -/
def mutedCh (cause : Nat) (x : PsCh) : PsCh :=
  match x.st with
  | .starting | .run | .quiet =>
    { x with st := .muted, cause := cause, phase := .idle, ramp := none, startCause := 3, dcSince := none }
  | .stopping => { x with st := .off, phase := .idle, ramp := none, dcSince := none }
  | _ => x

theorem muteCh_psCh (cause : Nat) (s : State) (c k : Nat) :
    psCh (muteCh cause s c) k = if k = c then mutedCh cause (psCh s c) else psCh s k := by
  have h := fun x => psCh_setPsCh (s := s) (c := c) (k := k) (x := x)
  unfold muteCh mutable mutedCh
  cases hx : (psCh s c).st <;> simp [enterMuted, chStopped, enterOff, h] <;> intro e <;> rw [e]

theorem mutesChannels_each {s t u : State} {l : List Nat} {cause : Nat} (hn : l.Nodup) (h : t.ps.ch = s.ps.ch)
    (hu : u = each l t (muteCh cause)) : mutesChannels l cause s u := by
  have e : ∀ k, psCh t k = psCh s k := fun k => by unfold psCh; rw [h]
  have := each_psCh (I := fun _ => True) (g := fun _ => mutedCh cause) (fun _ _ _ => trivial)
    (fun t c k _ => muteCh_psCh cause t c k) l hn t trivial
  intro k
  subst hu
  rw [this k, e k]
  refine ⟨fun hk hm => ?_, fun hk hs => ?_, ?_⟩
  · unfold mutable at hm
    rw [if_pos hk]
    unfold mutedCh
    cases hx : (psCh s k).st <;> simp_all
  · rw [if_pos hk]
    unfold mutedCh
    rw [hs]
  · rintro (hk | ⟨hm, hs⟩)
    · rw [if_neg hk]
    · unfold mutable at hm
      unfold mutedCh
      cases hx : (psCh s k).st <;> simp_all

/-! ### The end of an automatic cause -/

theorem resumeCh_grows (s : State) (c : Nat) : Grows s (resumeCh s c) := .of_eq (by simp)

theorem resumeCh_eventsOnly (s : State) (c : Nat) : EventsOnly s (resumeCh s c) := ⟨by simp, by simp⟩

/-- Two states agree on what the causes and the time of a channel's start read. -/
def SameCauses (s t : State) : Prop :=
  t.ps.clock = s.ps.clock ∧ (∀ d, die t d = { die s d with idleSince := (die t d).idleSince }) ∧
    nowTicks t = nowTicks s

theorem chCauses_same {s t : State} (h : SameCauses s t) (c : Nat) : chCauses t c = chCauses s c := by
  obtain ⟨h1, h2, -⟩ := h
  unfold chCauses
  rw [h1, h2]

theorem nowTicks_of {s t : State} (h : t.fr = s.fr) (k : t.now = s.now) : nowTicks t = nowTicks s := by
  unfold nowTicks
  rw [h, k]

theorem resumeCh_same (s : State) (c : Nat) : SameCauses s (resumeCh s c) := by
  refine ⟨?_, fun d => ?_, nowTicks_of (by simp) (by simp)⟩ <;> unfold resumeCh softStart
  · split
    · exact clock_setPsCh
    · rfl
  · split
    · exact die_setPsCh
    · rfl

theorem startsChannels_each {s t u : State} {f : Frac} {l : List Nat} {free : Nat → Prop} (hn : l.Nodup)
    (h : t.ps.ch = s.ps.ch) (hf : ∀ k ∈ l, free k ↔ chCauses t k = []) (ht : nowTicks t = nowTicks (atT s f))
    (hu : u = each l t resumeCh) : startsChannels l free f s u := by
  have e : ∀ k, psCh t k = psCh s k := fun k => by unfold psCh; rw [h]
  have step : ∀ v c k, SameCauses t v → psCh (resumeCh v c) k =
      if k = c then (if (psCh v c).st = .muted ∧ chCauses t c = [] then
        { psCh v c with
          st := .starting, phase := .softStart, startCause := 3, ramp := some (riseOver t (5 * tMs)),
          dcSt := .zero, dc := 0, dcSince := none, limited := 0 } else psCh v c) else psCh v k := by
    intro v c k hv
    have hc := chCauses_same hv c
    unfold resumeCh
    rw [hc]
    by_cases hm : (psCh v c).st = .muted <;> by_cases hq : chCauses t c = []
    · simp [hm, hq, softStart, psCh_setPsCh, riseOver, hv.2.2]
    all_goals
      simp [hm, hq]
      intro hk
      rw [hk]
  have tr : ∀ v c, SameCauses t v → SameCauses t (resumeCh v c) := by
    intro v c hv
    obtain ⟨a1, a2, a3⟩ := resumeCh_same v c
    exact ⟨a1.trans hv.1, fun d => by rw [a2 d, hv.2.1 d], a3.trans hv.2.2⟩
  have := each_psCh (I := SameCauses t)
    (g := fun c x => if x.st = .muted ∧ chCauses t c = [] then
        { x with
          st := .starting, phase := .softStart, startCause := 3, ramp := some (riseOver t (5 * tMs)),
          dcSt := .zero, dc := 0, dcSince := none, limited := 0 } else x) tr step l hn t ⟨rfl, fun _ => rfl, rfl⟩
  intro k
  subst hu
  have hr : riseOver (atT s f) (5 * tMs) = riseOver t (5 * tMs) := by unfold riseOver; rw [ht]
  rw [this k, e k, hr]
  refine ⟨fun hk hm hfr => ?_, ?_⟩
  · rw [if_pos hk, if_pos ⟨hm, (hf k hk).1 hfr⟩]
  · rintro (hk | hm | hfr)
    · rw [if_neg hk]
    · by_cases hk : k ∈ l <;> simp [hk, hm]
    · by_cases hk : k ∈ l
      · have hq : ¬ chCauses t k = [] := fun x => hfr ((hf k hk).2 x)
        simp [hk, hq]
      · simp [hk]

end Sys2Proof.Laws
end

