-- ==== Sys2Proof/Laws/State.lean ====
section
/-! SUPPORT. What each named update leaves in each keyed part of `State`: the value just written under its own key, the
old value under every other key, a canonical table, and every other part as it was. `Laws/Frame.lean` says what each
operation leaves of whole parts; this file goes one level down. -/

namespace Sys2Proof.Laws

open Sys2Proof Sys2Proof.Machine

set_option Elab.async false

/-! ### Effect engine -/

theorem eng_congr {s t : State} (h : t.fx = s.fx) (k : Nat) : eng t k = eng s k := by
  simp only [eng, h]

theorem eng_setEng (s : State) (k j : Nat) (x : Engine) :
    eng (setEng s k x) j = if j = k then x else eng s j := by
  simp only [eng, setEng, tget_tput]

@[simp] theorem eng_setEng_same (s : State) (k : Nat) (x : Engine) : eng (setEng s k x) k = x := by
  simp only [eng, setEng, tget_tput_same]

theorem eng_setEng_ne (s : State) {k j : Nat} (x : Engine) (h : j ≠ k) : eng (setEng s k x) j = eng s j := by
  simp only [eng, setEng, tget_tput_ne _ _ _ h]

@[simp] theorem setEng_setEng (s : State) (k : Nat) (x y : Engine) : setEng (setEng s k x) k y = setEng s k y := by
  simp only [setEng, tput_tput]

theorem setEng_canonical {s : State} (k : Nat) (x : Engine) (h : twf Engine.reset s.fx.eng = true) :
    twf Engine.reset (setEng s k x).fx.eng = true := twf_tput _ _ _ _ h

@[simp] theorem eng_setReg (s : State) (n : RegName) (i : Nat) (v : Word) (k : Nat) : eng (setReg s n i v) k = eng s k := rfl

@[simp] theorem reg_setEng (s : State) (k : Nat) (x : Engine) (n : RegName) (i : Nat) : reg (setEng s k x) n i = reg s n i := rfl

@[simp] theorem eng_push (s : State) (v : Out) (k : Nat) : eng (push s v) k = eng s k := rfl

@[simp] theorem eng_emit (s : State) (code unit : Nat) (p : BitVec 128) (k : Nat) :
    eng (emit s code unit p) k = eng s k := by
  simp [eng]

/-! ### Mixing lane -/

theorem lane_congr {s t : State} (h : t.mx = s.mx) (k : Nat) : lane t k = lane s k := by
  simp only [lane, h]

theorem lane_setLane (s : State) (k j : Nat) (x : Lane) :
    lane (setLane s k x) j = if j = k then x else lane s j := by
  simp only [lane, setLane, tget_tput]

@[simp] theorem lane_setLane_same (s : State) (k : Nat) (x : Lane) : lane (setLane s k x) k = x := by
  simp only [lane, setLane, tget_tput_same]

theorem lane_setLane_ne (s : State) {k j : Nat} (x : Lane) (h : j ≠ k) : lane (setLane s k x) j = lane s j := by
  simp only [lane, setLane, tget_tput_ne _ _ _ h]

@[simp] theorem setLane_setLane (s : State) (k : Nat) (x y : Lane) : setLane (setLane s k x) k y = setLane s k y := by
  simp only [setLane, tput_tput]

theorem setLane_canonical {s : State} (k : Nat) (x : Lane) (h : twf Lane.off s.mx.lane = true) :
    twf Lane.off (setLane s k x).mx.lane = true := twf_tput _ _ _ _ h

@[simp] theorem lane_setReg (s : State) (n : RegName) (i : Nat) (v : Word) (k : Nat) : lane (setReg s n i v) k = lane s k := rfl

@[simp] theorem reg_setLane (s : State) (k : Nat) (x : Lane) (n : RegName) (i : Nat) : reg (setLane s k x) n i = reg s n i := rfl

@[simp] theorem lane_push (s : State) (v : Out) (k : Nat) : lane (push s v) k = lane s k := rfl

@[simp] theorem lane_emit (s : State) (code unit : Nat) (p : BitVec 128) (k : Nat) :
    lane (emit s code unit p) k = lane s k := by
  simp [lane]

/-! ### Power channel -/

theorem psCh_setPsCh_ne (s : State) {k j : Nat} (x : PsCh) (h : j ≠ k) : psCh (setPsCh s k x) j = psCh s j := by
  rw [psCh_setPsCh, if_neg h]

theorem setPsCh_canonical {s : State} (k : Nat) (x : PsCh) (h : twf PsCh.reset s.ps.ch = true) :
    twf PsCh.reset (setPsCh s k x).ps.ch = true := by
  rw [ch_setPsCh]
  exact twf_tput _ _ _ _ h

@[simp] theorem reg_setPsCh (s : State) (k : Nat) (x : PsCh) (n : RegName) (i : Nat) :
    reg (setPsCh s k x) n i = reg s n i := by
  simp [reg]

@[simp] theorem psCh_setReg (s : State) (n : RegName) (i : Nat) (v : Word) (k : Nat) : psCh (setReg s n i v) k = psCh s k := rfl

@[simp] theorem psCh_push (s : State) (v : Out) (k : Nat) : psCh (push s v) k = psCh s k := rfl

/-! ### Protection channel -/

theorem spCh_congr {s t : State} (h : t.sp = s.sp) (k : Nat) : spCh t k = spCh s k := by
  simp only [spCh, h]

theorem spCh_setSpCh (s : State) (k j : Nat) (x : SpCh) :
    spCh (setSpCh s k x) j = if j = k then x else spCh s j := by
  simp only [spCh, setSpCh, tget_tput]

@[simp] theorem spCh_setSpCh_same (s : State) (k : Nat) (x : SpCh) : spCh (setSpCh s k x) k = x := by
  simp only [spCh, setSpCh, tget_tput_same]

theorem spCh_setSpCh_ne (s : State) {k j : Nat} (x : SpCh) (h : j ≠ k) : spCh (setSpCh s k x) j = spCh s j := by
  simp only [spCh, setSpCh, tget_tput_ne _ _ _ h]

@[simp] theorem setSpCh_setSpCh (s : State) (k : Nat) (x y : SpCh) : setSpCh (setSpCh s k x) k y = setSpCh s k y := by
  simp only [setSpCh, tput_tput]

theorem setSpCh_canonical {s : State} (k : Nat) (x : SpCh) (h : twf SpCh.reset s.sp.ch = true) :
    twf SpCh.reset (setSpCh s k x).sp.ch = true := twf_tput _ _ _ _ h

@[simp] theorem spCh_setReg (s : State) (n : RegName) (i : Nat) (v : Word) (k : Nat) : spCh (setReg s n i v) k = spCh s k := rfl

@[simp] theorem reg_setSpCh (s : State) (k : Nat) (x : SpCh) (n : RegName) (i : Nat) : reg (setSpCh s k x) n i = reg s n i := rfl

@[simp] theorem spCh_push (s : State) (v : Out) (k : Nat) : spCh (push s v) k = spCh s k := rfl

@[simp] theorem spCh_emit (s : State) (code unit : Nat) (p : BitVec 128) (k : Nat) :
    spCh (emit s code unit p) k = spCh s k := by
  simp [spCh]

/-! ### Analog input -/

theorem aiCh_congr {s t : State} (h : t.ai = s.ai) (k : Nat) : aiCh t k = aiCh s k := by
  simp only [aiCh, h]

theorem aiCh_setAiCh (s : State) (k j : Nat) (x : AiCh) :
    aiCh (setAiCh s k x) j = if j = k then x else aiCh s j := by
  simp only [aiCh, setAiCh, tget_tput]

@[simp] theorem aiCh_setAiCh_same (s : State) (k : Nat) (x : AiCh) : aiCh (setAiCh s k x) k = x := by
  simp only [aiCh, setAiCh, tget_tput_same]

theorem aiCh_setAiCh_ne (s : State) {k j : Nat} (x : AiCh) (h : j ≠ k) : aiCh (setAiCh s k x) j = aiCh s j := by
  simp only [aiCh, setAiCh, tget_tput_ne _ _ _ h]

@[simp] theorem setAiCh_setAiCh (s : State) (k : Nat) (x y : AiCh) : setAiCh (setAiCh s k x) k y = setAiCh s k y := by
  simp only [setAiCh, tput_tput]

theorem setAiCh_canonical {s : State} (k : Nat) (x : AiCh) (h : twf AiCh.reset s.ai.ch = true) :
    twf AiCh.reset (setAiCh s k x).ai.ch = true := twf_tput _ _ _ _ h

@[simp] theorem aiCh_setReg (s : State) (n : RegName) (i : Nat) (v : Word) (k : Nat) : aiCh (setReg s n i v) k = aiCh s k := rfl

@[simp] theorem reg_setAiCh (s : State) (k : Nat) (x : AiCh) (n : RegName) (i : Nat) : reg (setAiCh s k x) n i = reg s n i := rfl

@[simp] theorem aiCh_push (s : State) (v : Out) (k : Nat) : aiCh (push s v) k = aiCh s k := rfl

@[simp] theorem aiCh_emit (s : State) (code unit : Nat) (p : BitVec 128) (k : Nat) :
    aiCh (emit s code unit p) k = aiCh s k := by
  simp [aiCh]

/-! ### PDM microphone -/

theorem pdm_congr {s t : State} (h : t.ai = s.ai) (k : Nat) : pdm t k = pdm s k := by
  simp only [pdm, h]

theorem pdm_setPdm (s : State) (k j : Nat) (x : Pdm) :
    pdm (setPdm s k x) j = if j = k then x else pdm s j := by
  simp only [pdm, setPdm, tget_tput]

@[simp] theorem pdm_setPdm_same (s : State) (k : Nat) (x : Pdm) : pdm (setPdm s k x) k = x := by
  simp only [pdm, setPdm, tget_tput_same]

theorem pdm_setPdm_ne (s : State) {k j : Nat} (x : Pdm) (h : j ≠ k) : pdm (setPdm s k x) j = pdm s j := by
  simp only [pdm, setPdm, tget_tput_ne _ _ _ h]

@[simp] theorem setPdm_setPdm (s : State) (k : Nat) (x y : Pdm) : setPdm (setPdm s k x) k y = setPdm s k y := by
  simp only [setPdm, tput_tput]

theorem setPdm_canonical {s : State} (k : Nat) (x : Pdm) (h : twf Pdm.reset s.ai.pdm = true) :
    twf Pdm.reset (setPdm s k x).ai.pdm = true := twf_tput _ _ _ _ h

@[simp] theorem pdm_setReg (s : State) (n : RegName) (i : Nat) (v : Word) (k : Nat) : pdm (setReg s n i v) k = pdm s k := rfl

@[simp] theorem reg_setPdm (s : State) (k : Nat) (x : Pdm) (n : RegName) (i : Nat) : reg (setPdm s k x) n i = reg s n i := rfl

@[simp] theorem pdm_push (s : State) (v : Out) (k : Nat) : pdm (push s v) k = pdm s k := rfl

@[simp] theorem pdm_emit (s : State) (code unit : Nat) (p : BitVec 128) (k : Nat) :
    pdm (emit s code unit p) k = pdm s k := by
  simp [pdm]

/-! ### PDM clock -/

theorem pdmClk_congr {s t : State} (h : t.ai = s.ai) (k : Nat) : pdmClk t k = pdmClk s k := by
  simp only [pdmClk, h]

theorem pdmClk_setPdmClk (s : State) (k j : Nat) (x : PdmClock) :
    pdmClk (setPdmClk s k x) j = if j = k then x else pdmClk s j := by
  simp only [pdmClk, setPdmClk, tget_tput]

@[simp] theorem pdmClk_setPdmClk_same (s : State) (k : Nat) (x : PdmClock) : pdmClk (setPdmClk s k x) k = x := by
  simp only [pdmClk, setPdmClk, tget_tput_same]

theorem pdmClk_setPdmClk_ne (s : State) {k j : Nat} (x : PdmClock) (h : j ≠ k) : pdmClk (setPdmClk s k x) j = pdmClk s j := by
  simp only [pdmClk, setPdmClk, tget_tput_ne _ _ _ h]

@[simp] theorem setPdmClk_setPdmClk (s : State) (k : Nat) (x y : PdmClock) : setPdmClk (setPdmClk s k x) k y = setPdmClk s k y := by
  simp only [setPdmClk, tput_tput]

theorem setPdmClk_canonical {s : State} (k : Nat) (x : PdmClock) (h : twf PdmClock.reset s.ai.clk = true) :
    twf PdmClock.reset (setPdmClk s k x).ai.clk = true := twf_tput _ _ _ _ h

@[simp] theorem pdmClk_setReg (s : State) (n : RegName) (i : Nat) (v : Word) (k : Nat) : pdmClk (setReg s n i v) k = pdmClk s k := rfl

@[simp] theorem reg_setPdmClk (s : State) (k : Nat) (x : PdmClock) (n : RegName) (i : Nat) : reg (setPdmClk s k x) n i = reg s n i := rfl

@[simp] theorem pdmClk_push (s : State) (v : Out) (k : Nat) : pdmClk (push s v) k = pdmClk s k := rfl

@[simp] theorem pdmClk_emit (s : State) (code unit : Nat) (p : BitVec 128) (k : Nat) :
    pdmClk (emit s code unit p) k = pdmClk s k := by
  simp [pdmClk]

/-! ### Microphone bias -/

theorem bias_congr {s t : State} (h : t.ai = s.ai) (k : Nat) : bias t k = bias s k := by
  simp only [bias, h]

theorem bias_setBias (s : State) (k j : Nat) (x : Bias) :
    bias (setBias s k x) j = if j = k then x else bias s j := by
  simp only [bias, setBias, tget_tput]

@[simp] theorem bias_setBias_same (s : State) (k : Nat) (x : Bias) : bias (setBias s k x) k = x := by
  simp only [bias, setBias, tget_tput_same]

theorem bias_setBias_ne (s : State) {k j : Nat} (x : Bias) (h : j ≠ k) : bias (setBias s k x) j = bias s j := by
  simp only [bias, setBias, tget_tput_ne _ _ _ h]

@[simp] theorem setBias_setBias (s : State) (k : Nat) (x y : Bias) : setBias (setBias s k x) k y = setBias s k y := by
  simp only [setBias, tput_tput]

theorem setBias_canonical {s : State} (k : Nat) (x : Bias) (h : twf Bias.reset s.ai.bias = true) :
    twf Bias.reset (setBias s k x).ai.bias = true := twf_tput _ _ _ _ h

@[simp] theorem bias_setReg (s : State) (n : RegName) (i : Nat) (v : Word) (k : Nat) : bias (setReg s n i v) k = bias s k := rfl

@[simp] theorem reg_setBias (s : State) (k : Nat) (x : Bias) (n : RegName) (i : Nat) : reg (setBias s k x) n i = reg s n i := rfl

@[simp] theorem bias_push (s : State) (v : Out) (k : Nat) : bias (push s v) k = bias s k := rfl

@[simp] theorem bias_emit (s : State) (code unit : Nat) (p : BitVec 128) (k : Nat) :
    bias (emit s code unit p) k = bias s k := by
  simp [bias]

/-! ### Input jack -/

theorem aiJack_congr {s t : State} (h : t.ai = s.ai) (k : Nat) : aiJack t k = aiJack s k := by
  simp only [aiJack, h]

theorem aiJack_setAiJack (s : State) (k j : Nat) (x : Jack) :
    aiJack (setAiJack s k x) j = if j = k then x else aiJack s j := by
  simp only [aiJack, setAiJack, tget_tput]

@[simp] theorem aiJack_setAiJack_same (s : State) (k : Nat) (x : Jack) : aiJack (setAiJack s k x) k = x := by
  simp only [aiJack, setAiJack, tget_tput_same]

theorem aiJack_setAiJack_ne (s : State) {k j : Nat} (x : Jack) (h : j ≠ k) : aiJack (setAiJack s k x) j = aiJack s j := by
  simp only [aiJack, setAiJack, tget_tput_ne _ _ _ h]

@[simp] theorem setAiJack_setAiJack (s : State) (k : Nat) (x y : Jack) : setAiJack (setAiJack s k x) k y = setAiJack s k y := by
  simp only [setAiJack, tput_tput]

theorem setAiJack_canonical {s : State} (k : Nat) (x : Jack) (h : twf Jack.reset s.ai.jack = true) :
    twf Jack.reset (setAiJack s k x).ai.jack = true := twf_tput _ _ _ _ h

@[simp] theorem aiJack_setReg (s : State) (n : RegName) (i : Nat) (v : Word) (k : Nat) : aiJack (setReg s n i v) k = aiJack s k := rfl

@[simp] theorem reg_setAiJack (s : State) (k : Nat) (x : Jack) (n : RegName) (i : Nat) : reg (setAiJack s k x) n i = reg s n i := rfl

@[simp] theorem aiJack_push (s : State) (v : Out) (k : Nat) : aiJack (push s v) k = aiJack s k := rfl

@[simp] theorem aiJack_emit (s : State) (code unit : Nat) (p : BitVec 128) (k : Nat) :
    aiJack (emit s code unit p) k = aiJack s k := by
  simp [aiJack]

/-! ### Analog output -/

theorem outp_congr {s t : State} (h : t.aq = s.aq) (k : Nat) : outp t k = outp s k := by
  simp only [outp, h]

theorem outp_setOutp (s : State) (k j : Nat) (x : Outp) :
    outp (setOutp s k x) j = if j = k then x else outp s j := by
  simp only [outp, setOutp, tget_tput]

@[simp] theorem outp_setOutp_same (s : State) (k : Nat) (x : Outp) : outp (setOutp s k x) k = x := by
  simp only [outp, setOutp, tget_tput_same]

theorem outp_setOutp_ne (s : State) {k j : Nat} (x : Outp) (h : j ≠ k) : outp (setOutp s k x) j = outp s j := by
  simp only [outp, setOutp, tget_tput_ne _ _ _ h]

@[simp] theorem setOutp_setOutp (s : State) (k : Nat) (x y : Outp) : setOutp (setOutp s k x) k y = setOutp s k y := by
  simp only [setOutp, tput_tput]

theorem setOutp_canonical {s : State} (k : Nat) (x : Outp) (h : twf Outp.reset s.aq.ch = true) :
    twf Outp.reset (setOutp s k x).aq.ch = true := twf_tput _ _ _ _ h

@[simp] theorem outp_setReg (s : State) (n : RegName) (i : Nat) (v : Word) (k : Nat) : outp (setReg s n i v) k = outp s k := rfl

@[simp] theorem reg_setOutp (s : State) (k : Nat) (x : Outp) (n : RegName) (i : Nat) : reg (setOutp s k x) n i = reg s n i := rfl

@[simp] theorem outp_push (s : State) (v : Out) (k : Nat) : outp (push s v) k = outp s k := rfl

@[simp] theorem outp_emit (s : State) (code unit : Nat) (p : BitVec 128) (k : Nat) :
    outp (emit s code unit p) k = outp s k := by
  simp [outp]

/-! ### Headphone jack -/

theorem hpJack_congr {s t : State} (h : t.aq = s.aq) (k : Nat) : hpJack t k = hpJack s k := by
  simp only [hpJack, h]

theorem hpJack_setHpJack (s : State) (k j : Nat) (x : Jack) :
    hpJack (setHpJack s k x) j = if j = k then x else hpJack s j := by
  simp only [hpJack, setHpJack, tget_tput]

@[simp] theorem hpJack_setHpJack_same (s : State) (k : Nat) (x : Jack) : hpJack (setHpJack s k x) k = x := by
  simp only [hpJack, setHpJack, tget_tput_same]

theorem hpJack_setHpJack_ne (s : State) {k j : Nat} (x : Jack) (h : j ≠ k) : hpJack (setHpJack s k x) j = hpJack s j := by
  simp only [hpJack, setHpJack, tget_tput_ne _ _ _ h]

@[simp] theorem setHpJack_setHpJack (s : State) (k : Nat) (x y : Jack) : setHpJack (setHpJack s k x) k y = setHpJack s k y := by
  simp only [setHpJack, tput_tput]

theorem setHpJack_canonical {s : State} (k : Nat) (x : Jack) (h : twf Jack.reset s.aq.jack = true) :
    twf Jack.reset (setHpJack s k x).aq.jack = true := twf_tput _ _ _ _ h

@[simp] theorem hpJack_setReg (s : State) (n : RegName) (i : Nat) (v : Word) (k : Nat) : hpJack (setReg s n i v) k = hpJack s k := rfl

@[simp] theorem reg_setHpJack (s : State) (k : Nat) (x : Jack) (n : RegName) (i : Nat) : reg (setHpJack s k x) n i = reg s n i := rfl

@[simp] theorem hpJack_push (s : State) (v : Out) (k : Nat) : hpJack (push s v) k = hpJack s k := rfl

@[simp] theorem hpJack_emit (s : State) (code unit : Nat) (p : BitVec 128) (k : Nat) :
    hpJack (emit s code unit p) k = hpJack s k := by
  simp [hpJack]

/-! ### Serial port -/

theorem port_congr {s t : State} (h : t.dp = s.dp) (k : Nat) : port t k = port s k := by
  simp only [port, h]

theorem port_setPort (s : State) (k j : Nat) (x : Port) :
    port (setPort s k x) j = if j = k then x else port s j := by
  simp only [port, setPort, tget_tput]

@[simp] theorem port_setPort_same (s : State) (k : Nat) (x : Port) : port (setPort s k x) k = x := by
  simp only [port, setPort, tget_tput_same]

theorem port_setPort_ne (s : State) {k j : Nat} (x : Port) (h : j ≠ k) : port (setPort s k x) j = port s j := by
  simp only [port, setPort, tget_tput_ne _ _ _ h]

@[simp] theorem setPort_setPort (s : State) (k : Nat) (x y : Port) : setPort (setPort s k x) k y = setPort s k y := by
  simp only [setPort, tput_tput]

theorem setPort_canonical {s : State} (k : Nat) (x : Port) (h : twf Port.reset s.dp.port = true) :
    twf Port.reset (setPort s k x).dp.port = true := twf_tput _ _ _ _ h

@[simp] theorem port_setReg (s : State) (n : RegName) (i : Nat) (v : Word) (k : Nat) : port (setReg s n i v) k = port s k := rfl

@[simp] theorem reg_setPort (s : State) (k : Nat) (x : Port) (n : RegName) (i : Nat) : reg (setPort s k x) n i = reg s n i := rfl

@[simp] theorem port_push (s : State) (v : Out) (k : Nat) : port (push s v) k = port s k := rfl

@[simp] theorem port_emit (s : State) (code unit : Nat) (p : BitVec 128) (k : Nat) :
    port (emit s code unit p) k = port s k := by
  simp [port]

/-! ### PLL -/

theorem pll_congr {s t : State} (h : t.ck = s.ck) (k : Nat) : pll t k = pll s k := by
  simp only [pll, h]

theorem pll_setPll (s : State) (k j : Nat) (x : Pll) :
    pll (setPll s k x) j = if j = k then x else pll s j := by
  simp only [pll, setPll, tget_tput]

@[simp] theorem pll_setPll_same (s : State) (k : Nat) (x : Pll) : pll (setPll s k x) k = x := by
  simp only [pll, setPll, tget_tput_same]

theorem pll_setPll_ne (s : State) {k j : Nat} (x : Pll) (h : j ≠ k) : pll (setPll s k x) j = pll s j := by
  simp only [pll, setPll, tget_tput_ne _ _ _ h]

@[simp] theorem setPll_setPll (s : State) (k : Nat) (x y : Pll) : setPll (setPll s k x) k y = setPll s k y := by
  simp only [setPll, tput_tput]

theorem setPll_canonical {s : State} (k : Nat) (x : Pll) (h : twf Pll.reset s.ck.pll = true) :
    twf Pll.reset (setPll s k x).ck.pll = true := twf_tput _ _ _ _ h

@[simp] theorem pll_setReg (s : State) (n : RegName) (i : Nat) (v : Word) (k : Nat) : pll (setReg s n i v) k = pll s k := rfl

@[simp] theorem reg_setPll (s : State) (k : Nat) (x : Pll) (n : RegName) (i : Nat) : reg (setPll s k x) n i = reg s n i := rfl

@[simp] theorem pll_push (s : State) (v : Out) (k : Nat) : pll (push s v) k = pll s k := rfl

@[simp] theorem pll_emit (s : State) (code unit : Nat) (p : BitVec 128) (k : Nat) :
    pll (emit s code unit p) k = pll s k := by
  simp [pll]

/-! ### Clock reference -/

theorem refOf_congr {s t : State} (h : t.ck = s.ck) (k : Nat) : refOf t k = refOf s k := by
  simp only [refOf, h]

theorem refOf_setRef (s : State) (k j : Nat) (x : Ref) :
    refOf (setRef s k x) j = if j = k then x else refOf s j := by
  simp only [refOf, setRef, tget_tput]

@[simp] theorem refOf_setRef_same (s : State) (k : Nat) (x : Ref) : refOf (setRef s k x) k = x := by
  simp only [refOf, setRef, tget_tput_same]

theorem refOf_setRef_ne (s : State) {k j : Nat} (x : Ref) (h : j ≠ k) : refOf (setRef s k x) j = refOf s j := by
  simp only [refOf, setRef, tget_tput_ne _ _ _ h]

@[simp] theorem setRef_setRef (s : State) (k : Nat) (x y : Ref) : setRef (setRef s k x) k y = setRef s k y := by
  simp only [setRef, tput_tput]

theorem setRef_canonical {s : State} (k : Nat) (x : Ref) (h : twf Ref.reset s.ck.ref = true) :
    twf Ref.reset (setRef s k x).ck.ref = true := twf_tput _ _ _ _ h

@[simp] theorem refOf_setReg (s : State) (n : RegName) (i : Nat) (v : Word) (k : Nat) : refOf (setReg s n i v) k = refOf s k := rfl

@[simp] theorem reg_setRef (s : State) (k : Nat) (x : Ref) (n : RegName) (i : Nat) : reg (setRef s k x) n i = reg s n i := rfl

@[simp] theorem refOf_push (s : State) (v : Out) (k : Nat) : refOf (push s v) k = refOf s k := rfl

@[simp] theorem refOf_emit (s : State) (code unit : Nat) (p : BitVec 128) (k : Nat) :
    refOf (emit s code unit p) k = refOf s k := by
  simp [refOf]

/-! ### Sense table entry -/

theorem scEnt_congr {s t : State} (h : t.sc = s.sc) (k : Nat) : scEnt t k = scEnt s k := by
  simp only [scEnt, h]

theorem scEnt_setScEnt (s : State) (k j : Nat) (x : ScEntry) :
    scEnt (setScEnt s k x) j = if j = k then x else scEnt s j := by
  simp only [scEnt, setScEnt, tget_tput]

@[simp] theorem scEnt_setScEnt_same (s : State) (k : Nat) (x : ScEntry) : scEnt (setScEnt s k x) k = x := by
  simp only [scEnt, setScEnt, tget_tput_same]

theorem scEnt_setScEnt_ne (s : State) {k j : Nat} (x : ScEntry) (h : j ≠ k) : scEnt (setScEnt s k x) j = scEnt s j := by
  simp only [scEnt, setScEnt, tget_tput_ne _ _ _ h]

@[simp] theorem setScEnt_setScEnt (s : State) (k : Nat) (x y : ScEntry) : setScEnt (setScEnt s k x) k y = setScEnt s k y := by
  simp only [setScEnt, tput_tput]

theorem setScEnt_canonical {s : State} (k : Nat) (x : ScEntry) (h : twf ScEntry.reset s.sc.ent = true) :
    twf ScEntry.reset (setScEnt s k x).sc.ent = true := twf_tput _ _ _ _ h

@[simp] theorem scEnt_setReg (s : State) (n : RegName) (i : Nat) (v : Word) (k : Nat) : scEnt (setReg s n i v) k = scEnt s k := rfl

@[simp] theorem reg_setScEnt (s : State) (k : Nat) (x : ScEntry) (n : RegName) (i : Nat) : reg (setScEnt s k x) n i = reg s n i := rfl

@[simp] theorem scEnt_push (s : State) (v : Out) (k : Nat) : scEnt (push s v) k = scEnt s k := rfl

@[simp] theorem scEnt_emit (s : State) (code unit : Nat) (p : BitVec 128) (k : Nat) :
    scEnt (emit s code unit p) k = scEnt s k := by
  simp [scEnt]

/-! ### Stream context -/

theorem ctx_congr {s t : State} (h : t.st = s.st) (k : Nat) : ctx t k = ctx s k := by
  simp only [ctx, h]

theorem ctx_setCtx (s : State) (k j : Nat) (x : Ctx) :
    ctx (setCtx s k x) j = if j = k then x else ctx s j := by
  simp only [ctx, setCtx, tget_tput]

@[simp] theorem ctx_setCtx_same (s : State) (k : Nat) (x : Ctx) : ctx (setCtx s k x) k = x := by
  simp only [ctx, setCtx, tget_tput_same]

theorem ctx_setCtx_ne (s : State) {k j : Nat} (x : Ctx) (h : j ≠ k) : ctx (setCtx s k x) j = ctx s j := by
  simp only [ctx, setCtx, tget_tput_ne _ _ _ h]

@[simp] theorem setCtx_setCtx (s : State) (k : Nat) (x y : Ctx) : setCtx (setCtx s k x) k y = setCtx s k y := by
  simp only [setCtx, tput_tput]

theorem setCtx_canonical {s : State} (k : Nat) (x : Ctx) (h : twf Ctx.reset s.st.ctx = true) :
    twf Ctx.reset (setCtx s k x).st.ctx = true := twf_tput _ _ _ _ h

@[simp] theorem ctx_setReg (s : State) (n : RegName) (i : Nat) (v : Word) (k : Nat) : ctx (setReg s n i v) k = ctx s k := rfl

@[simp] theorem reg_setCtx (s : State) (k : Nat) (x : Ctx) (n : RegName) (i : Nat) : reg (setCtx s k x) n i = reg s n i := rfl

@[simp] theorem ctx_push (s : State) (v : Out) (k : Nat) : ctx (push s v) k = ctx s k := rfl

@[simp] theorem ctx_emit (s : State) (code unit : Nat) (p : BitVec 128) (k : Nat) :
    ctx (emit s code unit p) k = ctx s k := by
  simp [ctx]

/-! ### Stream group -/

theorem grp_congr {s t : State} (h : t.st = s.st) (k : Nat) : grp t k = grp s k := by
  simp only [grp, h]

theorem grp_setGrp (s : State) (k j : Nat) (x : Group) :
    grp (setGrp s k x) j = if j = k then x else grp s j := by
  simp only [grp, setGrp, tget_tput]

@[simp] theorem grp_setGrp_same (s : State) (k : Nat) (x : Group) : grp (setGrp s k x) k = x := by
  simp only [grp, setGrp, tget_tput_same]

theorem grp_setGrp_ne (s : State) {k j : Nat} (x : Group) (h : j ≠ k) : grp (setGrp s k x) j = grp s j := by
  simp only [grp, setGrp, tget_tput_ne _ _ _ h]

@[simp] theorem setGrp_setGrp (s : State) (k : Nat) (x y : Group) : setGrp (setGrp s k x) k y = setGrp s k y := by
  simp only [setGrp, tput_tput]

theorem setGrp_canonical {s : State} (k : Nat) (x : Group) (h : twf Group.reset s.st.grp = true) :
    twf Group.reset (setGrp s k x).st.grp = true := twf_tput _ _ _ _ h

@[simp] theorem grp_setReg (s : State) (n : RegName) (i : Nat) (v : Word) (k : Nat) : grp (setReg s n i v) k = grp s k := rfl

@[simp] theorem reg_setGrp (s : State) (k : Nat) (x : Group) (n : RegName) (i : Nat) : reg (setGrp s k x) n i = reg s n i := rfl

@[simp] theorem grp_push (s : State) (v : Out) (k : Nat) : grp (push s v) k = grp s k := rfl

@[simp] theorem grp_emit (s : State) (code unit : Nat) (p : BitVec 128) (k : Nat) :
    grp (emit s code unit p) k = grp s k := by
  simp [grp]

/-! ### Owner slot -/

theorem ownerSlot_congr {s t : State} (h : t.sv = s.sv) (k : Nat) : ownerSlot t k = ownerSlot s k := by
  simp only [ownerSlot, h]

theorem ownerSlot_setOwnerSlot (s : State) (k j : Nat) (x : OwnerSlot) :
    ownerSlot (setOwnerSlot s k x) j = if j = k then x else ownerSlot s j := by
  simp only [ownerSlot, setOwnerSlot, tget_tput]

@[simp] theorem ownerSlot_setOwnerSlot_same (s : State) (k : Nat) (x : OwnerSlot) : ownerSlot (setOwnerSlot s k x) k = x := by
  simp only [ownerSlot, setOwnerSlot, tget_tput_same]

theorem ownerSlot_setOwnerSlot_ne (s : State) {k j : Nat} (x : OwnerSlot) (h : j ≠ k) : ownerSlot (setOwnerSlot s k x) j = ownerSlot s j := by
  simp only [ownerSlot, setOwnerSlot, tget_tput_ne _ _ _ h]

@[simp] theorem setOwnerSlot_setOwnerSlot (s : State) (k : Nat) (x y : OwnerSlot) : setOwnerSlot (setOwnerSlot s k x) k y = setOwnerSlot s k y := by
  simp only [setOwnerSlot, tput_tput]

theorem setOwnerSlot_canonical {s : State} (k : Nat) (x : OwnerSlot) (h : twf OwnerSlot.reset s.sv.owner = true) :
    twf OwnerSlot.reset (setOwnerSlot s k x).sv.owner = true := twf_tput _ _ _ _ h

@[simp] theorem ownerSlot_setReg (s : State) (n : RegName) (i : Nat) (v : Word) (k : Nat) : ownerSlot (setReg s n i v) k = ownerSlot s k := rfl

@[simp] theorem reg_setOwnerSlot (s : State) (k : Nat) (x : OwnerSlot) (n : RegName) (i : Nat) : reg (setOwnerSlot s k x) n i = reg s n i := rfl

@[simp] theorem ownerSlot_push (s : State) (v : Out) (k : Nat) : ownerSlot (push s v) k = ownerSlot s k := rfl

@[simp] theorem ownerSlot_emit (s : State) (code unit : Nat) (p : BitVec 128) (k : Nat) :
    ownerSlot (emit s code unit p) k = ownerSlot s k := by
  simp [ownerSlot]

/-! ### Updates of one keyed part and reads of another -/

@[simp] theorem pdm_setAiCh (s : State) (k j : Nat) (x : AiCh) : pdm (setAiCh s k x) j = pdm s j := rfl

@[simp] theorem pdmClk_setAiCh (s : State) (k j : Nat) (x : AiCh) : pdmClk (setAiCh s k x) j = pdmClk s j := rfl

@[simp] theorem bias_setAiCh (s : State) (k j : Nat) (x : AiCh) : bias (setAiCh s k x) j = bias s j := rfl

@[simp] theorem aiJack_setAiCh (s : State) (k j : Nat) (x : AiCh) : aiJack (setAiCh s k x) j = aiJack s j := rfl

@[simp] theorem aiCh_setPdm (s : State) (k j : Nat) (x : Pdm) : aiCh (setPdm s k x) j = aiCh s j := rfl

@[simp] theorem pdmClk_setPdm (s : State) (k j : Nat) (x : Pdm) : pdmClk (setPdm s k x) j = pdmClk s j := rfl

@[simp] theorem bias_setPdm (s : State) (k j : Nat) (x : Pdm) : bias (setPdm s k x) j = bias s j := rfl

@[simp] theorem aiJack_setPdm (s : State) (k j : Nat) (x : Pdm) : aiJack (setPdm s k x) j = aiJack s j := rfl

@[simp] theorem aiCh_setPdmClk (s : State) (k j : Nat) (x : PdmClock) : aiCh (setPdmClk s k x) j = aiCh s j := rfl

@[simp] theorem pdm_setPdmClk (s : State) (k j : Nat) (x : PdmClock) : pdm (setPdmClk s k x) j = pdm s j := rfl

@[simp] theorem bias_setPdmClk (s : State) (k j : Nat) (x : PdmClock) : bias (setPdmClk s k x) j = bias s j := rfl

@[simp] theorem aiJack_setPdmClk (s : State) (k j : Nat) (x : PdmClock) : aiJack (setPdmClk s k x) j = aiJack s j := rfl

@[simp] theorem aiCh_setBias (s : State) (k j : Nat) (x : Bias) : aiCh (setBias s k x) j = aiCh s j := rfl

@[simp] theorem pdm_setBias (s : State) (k j : Nat) (x : Bias) : pdm (setBias s k x) j = pdm s j := rfl

@[simp] theorem pdmClk_setBias (s : State) (k j : Nat) (x : Bias) : pdmClk (setBias s k x) j = pdmClk s j := rfl

@[simp] theorem aiJack_setBias (s : State) (k j : Nat) (x : Bias) : aiJack (setBias s k x) j = aiJack s j := rfl

@[simp] theorem aiCh_setAiJack (s : State) (k j : Nat) (x : Jack) : aiCh (setAiJack s k x) j = aiCh s j := rfl

@[simp] theorem pdm_setAiJack (s : State) (k j : Nat) (x : Jack) : pdm (setAiJack s k x) j = pdm s j := rfl

@[simp] theorem pdmClk_setAiJack (s : State) (k j : Nat) (x : Jack) : pdmClk (setAiJack s k x) j = pdmClk s j := rfl

@[simp] theorem bias_setAiJack (s : State) (k j : Nat) (x : Jack) : bias (setAiJack s k x) j = bias s j := rfl

@[simp] theorem hpJack_setOutp (s : State) (k j : Nat) (x : Outp) : hpJack (setOutp s k x) j = hpJack s j := rfl

@[simp] theorem outp_setHpJack (s : State) (k j : Nat) (x : Jack) : outp (setHpJack s k x) j = outp s j := rfl

@[simp] theorem refOf_setPll (s : State) (k j : Nat) (x : Pll) : refOf (setPll s k x) j = refOf s j := rfl

@[simp] theorem pll_setRef (s : State) (k j : Nat) (x : Ref) : pll (setRef s k x) j = pll s j := rfl

@[simp] theorem grp_setCtx (s : State) (k j : Nat) (x : Ctx) : grp (setCtx s k x) j = grp s j := rfl

@[simp] theorem ctx_setGrp (s : State) (k j : Nat) (x : Group) : ctx (setGrp s k x) j = ctx s j := rfl

/-! ### Registers -/

theorem reg_congr {s t : State} (h : t.regs = s.regs) (n : RegName) (i : Nat) : reg t n i = reg s n i := by
  simp only [reg, h]

@[simp] theorem reg_setReg_same (s : State) (n : RegName) (i : Nat) (v : Word) : reg (setReg s n i v) n i = v := by
  simp only [reg, setReg, tget_tput_same]

theorem reg_setReg_ne (s : State) {n m : RegName} {i j : Nat} (v : Word) (h : regOff m j ≠ regOff n i) :
    reg (setReg s n i v) m j = reg s m j := by
  simp only [reg, setReg, tget_tput_other _ _ _ _ h]

@[simp] theorem setReg_setReg (s : State) (n : RegName) (i : Nat) (v w : Word) :
    setReg (setReg s n i v) n i w = setReg s n i w := by
  simp only [setReg, tput_tput]

@[simp] theorem reg_push (s : State) (v : Out) (n : RegName) (i : Nat) : reg (push s v) n i = reg s n i := rfl

@[simp] theorem reg_emit (s : State) (code unit : Nat) (p : BitVec 128) (n : RegName) (i : Nat) :
    reg (emit s code unit p) n i = reg s n i := by
  simp [reg]

/-! ### Parts that are single fields -/

@[simp] theorem conv_setConv_same (s : State) (k : Nat) (x : Conv) : conv (setConv s k x) k = x := by
  by_cases h : k = 0 <;> simp [conv, setConv, h]

@[simp] theorem fwSlot_setFwSlot (s : State) (b c : Bool) (f : FwSlot) :
    fwSlot (setFwSlot s b f) c = if c = b then f else fwSlot s c := by
  cases b <;> cases c <;> simp [fwSlot, setFwSlot]

@[simp] theorem setLastWr_lastWr (s : State) (v : Nat) : (setLastWr s v).tw.lastWr = v := rfl

@[simp] theorem setCfgErr_cfgErr (s : State) : (setCfgErr s).hl.cfgErr = true := rfl

@[simp] theorem setDie_same (s : State) (x : Die) :
    (setDie s .a x).ps.dieA = x ∧ (setDie s .b x).ps.dieB = x ∧
    (setDie s .a x).ps.dieB = s.ps.dieB ∧ (setDie s .b x).ps.dieA = s.ps.dieA := ⟨rfl, rfl, rfl, rfl⟩

theorem setScene_same (s : State) (k : Nat) (b : Bytes) : tget [] (setScene s k b).hl.scenes k = b := by
  simp only [setScene, tget_tput_same]

theorem setScene_ne (s : State) {k j : Nat} (b : Bytes) (h : j ≠ k) :
    tget [] (setScene s k b).hl.scenes j = tget [] s.hl.scenes j := by
  simp only [setScene, tget_tput_ne _ _ _ h]

/-! ### State after reset -/

theorem reset_pending : State.reset.pending = [] := rfl

end Sys2Proof.Laws
end

