-- ==== Sys2Proof/WellFormed.lean ====
section
/-! DEFINITION. Well-formed commands: operands that the types alone do not bound. A command of the model need not be
well formed to have a meaning; these are the values that the spec lets a sender give. -/

namespace Sys2Proof

/-- A command comes from the command ring or from the two-wire bus, has seven parameter words (R291), and is at index 0
when it comes over the bus (R346). -/
def cmdWf (c : Cmd) : Bool :=
  c.src != .peer && c.pw.length == 7 && (c.src != .tw || c.idx == 0)

/-- Registers are written by the host and over the two-wire bus; what the peer sends comes in packets (R446). -/
def senderWf (o : Owner) : Bool := o != .peer

/-- Offsets within BAR0 (1 MiB) or BAR2 (2 MiB); four byte enables for a 32-bit access (R4, R286). -/
def barWf (w : BarWrite) : Bool :=
  (w.bar2 || decide (w.off.toNat < 0x100000)) && (w.wide || decide (w.be.toNat < 16 ∧ w.data.toNat < 2 ^ 32))

/-- A Q1.31 sample (R2). -/
def sampleWf (x : Int) : Bool := decide (-2147483648 ≤ x ∧ x ≤ 2147483647)

/-- Keys that rise strictly. -/
def keysRise : List Nat → Bool
  | a :: b :: r => decide (a < b) && keysRise (b :: r)
  | _ => true

/-- A sparse table of samples over `n` keys. -/
def samplesWf (n : Nat) (t : Tbl Int) : Bool :=
  keysRise (t.map Prod.fst) && t.all (fun e => decide (e.1 < n) && sampleWf e.2)

/-- Finite binary32 values at the twelve power channels. -/
def measuredWf (t : Tbl Word) : Bool :=
  keysRise (t.map Prod.fst) && t.all (fun e => decide (e.1 < 12) && (e.2 &&& 0x7F800000) != 0x7F800000)

/-- Bits of the sixteen PDM lines, at most 6.144 MHz ÷ 44.1 kHz a frame (R182). -/
def pdmWf (t : Tbl (List (Bool × Bool))) : Bool :=
  keysRise (t.map Prod.fst) && t.all (fun e => decide (e.1 < 16) && decide (e.2.length ≤ 140))

/-- Eight samples of paths H and L for the analog inputs. -/
def pathsWf (t : Tbl (List (Int × Int))) : Bool :=
  keysRise (t.map Prod.fst) && t.all (fun e => decide (e.1 < 16) && e.2.length == 8)

/-- Bits by line; inputs 0 to 15 overload; channels 0 to 11 have a current and clip; four biases; offsets of the
sources 1 to 13 within the field of CK_REF_STAT; eight ports. -/
def strobeWf (x : StrobeIn) : Bool :=
  pdmWf x.pdmLines && pathsWf x.paths && x.overloaded.all (fun n => decide (n < 16)) && measuredWf x.volts
    && measuredWf x.current && measuredWf x.loopClip && x.bias.length == 4
    && keysRise (x.offsets.map Prod.fst) && x.offsets.all (fun e => decide (e.1 < 13) && decide (e.2.natAbs < 2 ^ 23))
    && x.slips.all (fun p => decide (p < 8))

/-- The bit clock of the frame start, the one before it, and no more than FLEN counts. -/
def portFrameWf (x : PortFrame) : Bool := decide (2 ≤ x.clocks.length ∧ x.clocks.length ≤ 0x10000)

/-- Lanes are 1, 2 or 4, the device is in D0 or D3hot, and a link in L2 is down (R309). -/
def linkWf (x : LinkIn) : Bool :=
  x.width.val != 3 && (x.dstate.val == 0 || x.dstate.val == 3) && !(x.up && x.l2)

/-- A transaction carries at most a count byte, 255 bytes and a PEC byte, and surplus bytes are at most as many. -/
def txWf (x : TwTx) : Bool := decide (x.wr.length ≤ 1024)

/-- Arbitration is not lost in the STOP: the message has at most 5 bytes (R354, R477). -/
def ctlWf : CtlResult → Bool
  | .sent | .stuck | .abandoned => true
  | .nacked b => decide (b ≤ 5)
  | .lost b _ _ => decide (b ≤ 5)

/-- A heartbeat of 64 bytes (R443), mirrored samples of sources (R445). -/
def packetWf (p : Packet) : Bool :=
  p.hb.length == 64 && p.inputs.all (samplesWf 8192)

/-- 16 engines, 12 channels and 58 groups (R442). -/
def viewWf (v : PeerView) : Bool := v.engines.length == 16 && v.envs.length == 12 && v.peerBits.length == 58

/-- Crosspoints, parameter words and registers within their ranges. -/
def copyWf (x : SyncCopy) : Bool :=
  x.xp.all (fun e => decide (e.1 < 4096 * 8192 ∧ -8388608 ≤ e.2 ∧ e.2 ≤ 8388607))
    && x.params.all (fun e => decide (e.1 < 16 ∧ e.2.1 < 4096)) && x.regs.all (fun e => decide (e.1 < 0x100000))

/-- A nonce of 48 bytes, an uncompressed point, 48-byte hashes (R364, R382). -/
def helloWf (h : Hello) : Bool := h.nonce.length == 48 && h.eph.length == 97 && h.hashes.all (fun b => b.length == 48)

/-- An uncompressed point as the device's key (R364). -/
def certWf (c : PeerCert) : Bool := c.dik.length == 97

/-- One to three bits of a line are corrected (R385). -/
def readsWf (l : List Correction) : Bool := l.all (fun c => decide (1 ≤ c.bits.val))

/-- How CLK comes up at bring-up. -/
def clkUpWf : ClkUp → Bool
  | .up x => strobeWf x
  | .xtalFail | .fault => true

/-- Every field of a command lies where the spec lets it lie. One arm for each command that carries such a field; the
fields of the others admit every value of their types. -/
def WellFormed (i : Instr) : Bool :=
  match i with
  | .frameStrobe x => strobeWf x
  | .laneError _ _ sinks => sinks.all (fun k => decide (k < 4096))
  | .xpLookup _ src _ _ => senderWf src
  | .slackRearm _ src => senderWf src
  | .slackClear _ src => senderWf src
  | .clipClear _ src _ => senderWf src
  | .registerWrite _ src w => senderWf src && barWf w
  | .mixCommit _ c _ _ => cmdWf c
  | .fxLoad _ c _ => cmdWf c
  | .fxClear _ c => cmdWf c
  | .fxTest _ c => cmdWf c
  | .fxPdataAccess _ src _ => senderWf src
  | .fxPcommit _ src _ => senderWf src
  | .nop _ c => cmdWf c
  | .setupLock _ c => cmdWf c
  | .reset _ c => cmdWf c
  | .mxHalfOut _ c => cmdWf c
  | .mxHalfIn _ c => cmdWf c
  | .mxHalfTest _ c => cmdWf c
  | .sceneSaveStore _ c _ => cmdWf c
  | .sceneSaveCapture _ c => cmdWf c
  | .sceneRecall _ c l => cmdWf c && readsWf l
  | .sceneDelete _ c => cmdWf c
  | .sceneRead _ c l => cmdWf c && readsWf l
  | .pdDomain _ c => cmdWf c
  | .domainPowerGood _ _ _ _ x => strobeWf x
  | .pdStateStandby _ c => cmdWf c
  | .pdStateSleep _ c => cmdWf c
  | .svFwStage _ c _ => cmdWf c
  | .svFwActivate _ c => cmdWf c
  | .svAttest _ c _ => cmdWf c
  | .svKeygen _ c => cmdWf c
  | .svOwnerEnrol _ c _ => cmdWf c
  | .svOwnerRevoke _ c => cmdWf c
  | .svCertRead _ c l => cmdWf c && readsWf l
  | .plPair _ c => cmdWf c
  | .plUnpair _ c => cmdWf c
  | .plFailover _ c => cmdWf c
  | .plResume _ c => cmdWf c
  | .unknownCommand _ _ c => cmdWf c
  | .ringCfgWrite _ src _ _ => senderWf src
  | .ringBaseWrite _ src _ _ _ => senderWf src
  | .linkChanged _ x _ => linkWf x
  | .psConfigWrite _ src _ _ _ => senderWf src
  | .spRegisterWrite _ src _ _ _ => senderWf src
  | .spEnvLoad _ c _ => cmdWf c
  | .spEnvClear _ c => cmdWf c
  | .aiPeakClear _ src _ => senderWf src
  | .portFmtWrite _ src _ _ => senderWf src
  | .portFrame _ _ x => portFrameWf x
  | .maskWrite _ src _ _ _ _ => senderWf src
  | .setFrameRate _ c => cmdWf c
  | .frameRateApplied _ x => strobeWf x
  | .setFsw _ c => cmdWf c
  | .ckSteerWrite _ src _ => senderWf src
  | .cacheFlush _ src _ => senderWf src
  | .scCalZero _ c => cmdWf c
  | .scCalFull _ c => cmdWf c
  | .scCalSave _ c => cmdWf c
  | .scanStart _ src _ => senderWf src
  | .scanStop _ src _ => src.all senderWf
  | .urgentConversion _ src _ _ _ => senderWf src
  | .groupStart _ c => cmdWf c
  | .ctxStop _ c => cmdWf c
  | .streamEnable _ src _ _ => senderWf src
  | .twRegRead _ x _ => txWf x
  | .twRegWrite _ x _ => txWf x
  | .twCmd _ x => txWf x
  | .twCmdResult _ x => txWf x
  | .twBufWrite _ x => txWf x
  | .twBufRead _ x => txWf x
  | .twEventRead _ x => txWf x
  | .twStatusRead _ x => txWf x
  | .twReset _ x => txWf x
  | .hostNotify _ r => ctlWf r
  | .notifyRetry _ r => ctlWf r
  | .controllerRetry _ r => ctlWf r
  | .sdaStuckRetry _ freed => freed.all ctlWf
  | .vcoreLevelRaise _ r => ctlWf r
  | .vcoreLevelLower _ r => ctlWf r
  | .ctVidWrite _ src _ r => senderWf src && ctlWf r
  | .pairHello _ h c => helloWf h && c.all certWf
  | .standbyWakeStrobe _ x => strobeWf x
  | .rtcSet _ src _ _ => senderWf src
  | .retDataAccess _ src _ _ => senderWf src
  | .criticalError _ region _ => decide (1 ≤ region.val)
  | .bringupLarderDone _ x => readsWf x.reads
  | .bringupClkUp x => clkUpWf x
  | .pairPacket _ p => packetWf p
  | .syncCheckRetry _ v => viewWf v
  | .syncCopyDone _ x => copyWf x
  | .peerResetSend _ src _ => senderWf src
  | .longOperationDone _ _ r => readsWf r.reads
  | .frameDrain _ _ | .preStrobeMark _ | .abortEnd _ _ | .sinkComplete _ _ _ | .engineInputsComplete _ _
  | .engineFrameComplete _ _ _ | .engineFailure _ _ _ _ | .delayUncorrectable _ _ _ _
  | .tableUncorrectable _ _ _ _ _ _ | .mxTimeRead _ | .engineTestDone _ _ _ _ | .halfTestDone _ _ _ _
  | .domainFault _ _ _ | .stateEntryHalt _ | .sleepPowerDown _ | .fwConfirmed _ | .fxLoadStaged _ _ _ _
  | .commandDoorbell _ _ _ _   | .completionDoorbell _ _ _ | .eventDoorbell _ _ _ | .commandFetch _ _ | .eventsLost _
  | .irqHoldoffExpiry _ _ | .functionLevelReset _ | .chEnable _ _ | .chDisable _ _ | .chMute _ _ _
  | .chRearm _ _ | .bootstrapChargeEnd _ _ | .softStartEnd _ _ | .stopRampEnd _ _ | .brOvercurrent _ _ _
  | .dxCycleLimit _ _ _ | .dxLimitShutdown _ _ | .hiccupEnd _ _ | .clockMute _ _ | .clockResume _
  | .dcFault _ _ | .supplyMute _ _ _ _ | .supplyResume _ _ _ | .tempShutdown _ _ _ | .tempResume _ _ _
  | .pvddSag _ _ _ | .tempWarn _ _ _ | .quietEntry _ _ | .domainIdleOff _ _ | .idleWakeSoftStart _ _
  | .idleWakeRun _ _ | .pilotWindowEnd _ _ | .impLatchClear _ _ | .peakClear _ _ | .aiEnable _ _
  | .aiPrechargeEnd _ _ | .aiSettleEnd _ _ | .aiDisable _ _ | .pgaGainChange _ _ _ | .pgaZeroCrossing _ _
  | .pgaZcTimeout _ _ | .pathHToL _ _ | .pathLToH _ _ | .pathForced _ _ | .biasEnable _ _ _ | .biasShort _ _ _
  | .pdmStuck _ _ _ | .pdmRecovered _ _ | .jackChanged _ _ _ | .jackPlugRelease _ _ | .outEnable _ _
  | .outConverterStart _ _ | .outShuntOpen _ _ | .outStarted _ _ | .outDisable _ _ | .outShuntClose _ _
  | .outStopped _ _ | .outShort _ _ _ | .cpFault _ _ | .cpResumed _ | .supplyClamp _ _ | .cpStop _
  | .hpJackChanged _ _ _ | .hpJackUnmute _ _ | .outRateSettleEnd _ _ | .portEnable _ _ | .portDisable _ _
  | .srcLocked _ _ | .fsMissingTimeout _ _ | .pllLocked _ _ _ _ _ | .pllUnlocked _ _ _ | .strobeRestart _ _
  | .refEdgeTimeout _ _ | .refQualified _ _ _ | .refFrequencyOutOfWindow _ _ _ | .refEdgeReturn _ _
  | .refHoldoffExpiry _ _ | .refFreqAcqEnd _ _ _ | .refPhaseWalkEnd _ _ | .refLocked _ _ | .spreadApply _
  | .xtalFail _ | .xtalRestored _ | .fpOutState _ _ _ | .scConversionDone _ _ _ _ _ _ _ _
  | .streamDoorbell _ _ _ _ | .descriptorFetch _ _ _ | .playbackReadLanded _ _ _ _ | .recordDeadline _ _
  | .descriptorRetire _ _ | .streamError _ _ _ | .groupStartFrame _ _ _ | .strPosRead _ _ | .twUnknownCode _ _
  | .alertResponse _ _ | .alertRearm _ | .twSdaStuck _ | .twStretchReset _ _ _ _ | .twSclLow _ _ _
  | .twSdaLow _ _ _ | .twWakeMatch _ _ _ | .twWakeKnock _ _ _ _ | .pantryUncorrectable _ _ | .pairFinish _ _
  | .pairAuthTimeout _ | .pairAuthRetry _ | .wakeSource _ _ _ _ _ | .rtcAlarm _ _ | .rtcOscFail _ _
  | .rtcOscRestart _ | .rtcRead _ _ | .awcChanged _ _ _ _ _ | .powerOnReset _ | .supplyMonitorReset _ _
  | .supplyMonitorClear _ _ | .rstNAssert _ | .optionLoadingDone _ _ | .rstNRelease _ _ | .rstNExtensionEnd _ | .perstAssert _
  | .perstRelease _ _ | .watchdogReset _ _ | .bringupCtrlUp _ _ | .bringupHostUp _ _
  | .strellinChanged _ _ | .linkDelayMeasure _ _ | .heartbeatMissed _ _ | .rendezvousTimeout _ _
  | .relayDelayExpiry _ | .failoverPinLow _ | .failoverPinHigh _ | .peerResetRequest _ _
  | .linkReauthentication _ => true

end Sys2Proof
end

