-- ==== Sys2Proof/Tests/Slice0.lean ====
section
/-! SUPPORT. Tests: an ill-formed command for each check of WellFormed, the worked examples of the manual on single
operations, and for every statement a concrete state and operands that meet its hypotheses together. -/

open Sys2Proof Sys2Proof.Machine Sys2Proof.Safety

namespace Sys2Proof.Tests

set_option Elab.async false

/-- A module in service: strobes run in frame 5, every domain is on, both halves schedule 30 lanes, the rings are
enabled. -/
def up : State :=
  let laneAt (l : Nat) : Lane := { Lane.off with st := if l % 32 < 30 then .scheduled else .spare }
  let ring : Ring := { Ring.reset with en := true, size := 8 }
  { State.reset with
    fr := { Frame.reset with running := true, fn := 5, next := 6 }
    mx := { Mix.reset with
      inA := true, inB := true, lA := 30, lB := 30, budget := 786432
      lane := (List.range 64).map (fun l => (l, laneAt l)) }
    hl := { HostSide.reset with
      linkUp := true, fn := { fnReset with busMaster := true, msixEn := true }, cmd := ring, cmp := ring, evt := ring }
    ps := { Power.reset with ready := true }
    pd := { Domains.reset with on := 0xFFF }
    ct := { Control.reset with phase := .done, cur := none, rstDriven := false, perst := false }
    ck := { Clocks.reset with xtalOk := true } }

/-- The command block of a command of the host, with the parameter words given. -/
def cmdOf (pw : List (BitVec 64)) : Cmd :=
  { src := .host, flags := 0, phaseLow := 0, id := 7, idx := 3, pw := pw ++ List.replicate (7 - pw.length) 0 }

/-- The module with a command of the host fetched and not yet taken. -/
def asked (op : Nat) (c : Cmd) (s : State) : State := { s with hl := { s.hl with fetched := some { op := op, cmd := c } } }

/-- The inputs of a strobe with a bit stream on line PDM_D0. -/
def strobeIn : StrobeIn :=
  { pdmLines := [(0, List.replicate 64 (true, false))], paths := [], volts := [], overloaded := [], current := [], loopClip := [], bias := [0, 0, 0, 0],
    railOk := true, pvddA := 2400, pvddB := 2400, tempA := 400, tempB := 400, dco := 0, phaseErr := 0, offsets := [],
    slips := [], storeLost := [] }

/-- A drain at which nothing was corrected and no mask was late. -/
def drainIn : DrainIn := { maskLate := [], ecc := { table := 0, delay := 0 }, damaged := [], descs := [] }

/-- Sink 3 takes source 0x1800 at unity, and has computed its result; sink 4 takes it too, and has not. -/
def mixing : State :=
  { up with
    mx := { up.mx with
      xp := [(xpKey 3 0x1800, { Xp.none with cur := 0x10000 }),
             (xpKey 4 0x1800, { Xp.none with cur := 0x10000 })]
      src := [(0x1800, 500)], res := [(3, some 500)], present := [(3, 9), (4, 8)] } }

/-- A state with its boundary window open: the frame has drained before the pre-strobe mark. -/
def win (s : State) : State := { s with fr := { s.fr with drained := true } }


/-- A long operation that began at tick `n` holds the command interface. -/
theorem held_of {s : State} {x : CmpSlot} {op : Nat} {l : LongOp} (n : Nat)
    (h : s.hl.order = [x] ∧ x.src ≠ .peer ∧ (x.src = .host → ringsOpen s = true) ∧
      s.hl.busy = some { op := op, slot := x.slot, doorbells := 0, writes := 0, since := n, over_ := none } ∧
      s.hl.long = some l ∧ s.hl.rerun = none ∧ x.opcode = op ∧ x.slot < s.hl.nextSlot) : longHeld s x op l :=
  ⟨h.1, h.2.1, h.2.2.1, ⟨n, h.2.2.2.1⟩, h.2.2.2.2⟩

/-- A value that a check admits. -/
theorem ok_of {ε α : Type} [DecidableEq α] {e : Except ε α} {a : α}
    (h : (match e with | .ok x => decide (x = a) | .error _ => false) = true) : e = .ok a := by
  cases e with
  | ok x => simpa using h
  | error x => simp at h

/-- The value that a check admits, read out of its answer. -/
theorem ok_getD {ε α : Type} {e : Except ε α} (d : α) (h : e.toOption.isSome = true) : e = .ok (e.toOption.getD d) := by
  cases e with
  | ok x => rfl
  | error x => simp [Except.toOption] at h

/-- The pair that a check admits, by its two parts. -/
theorem ok_pair {ε α β : Type} {e : Except ε (α × β)} (d : α × β) (h : e.toOption.isSome = true) :
    e = .ok ((e.toOption.getD d).1, (e.toOption.getD d).2) := ok_getD d h

/-- A status that a check refuses with. -/
theorem error_of {ε α : Type} [DecidableEq ε] {e : Except ε α} {a : ε}
    (h : (match e with | .error x => decide (x = a) | .ok _ => false) = true) : e = .error a := by
  cases e with
  | error x => simpa using h
  | ok x => simp at h


/-! ### WellFormed: each check refuses an ill-formed command -/

theorem test_wf_command_from_peer : WellFormed (.nop 0 { cmdOf [] with src := .peer }) = false := by decide
theorem test_wf_command_words : WellFormed (.nop 0 { cmdOf [] with pw := [] }) = false := by decide
theorem test_wf_command_index : WellFormed (.nop 0 { cmdOf [] with src := .tw }) = false := by decide
theorem test_wf_command_good : WellFormed (.nop 0 (cmdOf [])) = true := by decide
theorem test_wf_sender : WellFormed (.slackRearm 0 .peer) = false := by decide
theorem test_wf_bar_offset :
    WellFormed (.registerWrite 0 .host { bar2 := false, wide := true, off := 0x100000, be := 0xFF, data := 0 }) = false
      := by
  decide
theorem test_wf_bar_enables :
    WellFormed (.registerWrite 0 .host { bar2 := false, wide := false, off := 0, be := 0x1F, data := 0 }) = false := by
  decide
theorem test_wf_pdm_length :
    WellFormed (.frameStrobe { strobeIn with pdmLines := [(0, List.replicate 141 (true, false))] }) = false := by
  decide +kernel
theorem test_wf_pdm_line : WellFormed (.frameStrobe { strobeIn with pdmLines := [(16, [])] }) = false := by decide
theorem test_wf_pdm_order : WellFormed (.frameStrobe { strobeIn with pdmLines := [(2, []), (2, [])] }) = false := by
      decide
theorem test_wf_paths : WellFormed (.frameStrobe { strobeIn with paths := [(2, [(0, 0)])] }) = false := by decide
theorem test_wf_bias : WellFormed (.frameStrobe { strobeIn with bias := [1] }) = false := by decide
theorem test_wf_offset : WellFormed (.frameStrobe { strobeIn with offsets := [(13, 0)] }) = false := by decide
theorem test_wf_slip : WellFormed (.frameStrobe { strobeIn with slips := [8] }) = false := by decide
theorem test_wf_overload : WellFormed (.frameStrobe { strobeIn with overloaded := [16] }) = false := by decide
theorem test_wf_current : WellFormed (.frameStrobe { strobeIn with current := [(12, 0)] }) = false := by decide
theorem test_wf_current_order : WellFormed (.frameStrobe { strobeIn with current := [(3, 0), (2, 0)] }) = false := by
      decide
theorem test_wf_loop_clip : WellFormed (.frameStrobe { strobeIn with loopClip := [(12, 0)] }) = false := by decide
theorem test_wf_strobe_good : WellFormed (.frameStrobe strobeIn) = true := by decide
theorem test_wf_port_clocks :
    WellFormed (.portFrame 0 1 { clocks := [], periodOff := false, outOfRange := false, slip := false, inPhase := true,
                                 phase := 0, ratio := 0, rate := 0 }) = false := by decide
theorem test_wf_transaction :
    WellFormed (.twCmd 0 { wr := List.replicate 1025 0, rd := none, fin := .stop, early := false }) = false := by
  decide +kernel
theorem test_wf_nack_byte : WellFormed (.hostNotify 0 (.nacked 6)) = false := by decide
theorem test_wf_lost_byte : WellFormed (.notifyRetry 0 (.lost 6 0 false)) = false := by decide
theorem test_wf_lane_sinks : WellFormed (.laneError 0 3 [4096]) = false := by decide
def linkIn : LinkIn :=
  { up := true, l2 := false, speed := 1, width := 1, aspm := 0, dstate := 0, fn := fnReset }
theorem test_wf_link_width : WellFormed (.linkChanged 0 { linkIn with width := 3 } 1) = false := by decide
theorem test_wf_link_l2 : WellFormed (.linkChanged 0 { linkIn with l2 := true } 1) = false := by decide
theorem test_wf_link_dstate : WellFormed (.linkChanged 0 { linkIn with dstate := 1 } 1) = false := by decide
theorem test_wf_link_good : WellFormed (.linkChanged 0 linkIn 1) = true := by decide
theorem test_wf_region : WellFormed (.criticalError 0 0 0) = false := by decide
theorem test_wf_scan_stop : WellFormed (.scanStop 0 (some .peer) 0) = false := by decide
theorem test_wf_hashes :
    WellFormed (.pairHello 0 { chain := [], nonce := List.replicate 48 0, eph := List.replicate 97 4, role := 1,
                               debugOff := true, hashes := [[1]] } none) = false := by decide +kernel
theorem test_wf_nonce :
    WellFormed (.pairHello 0 { chain := [], nonce := [], eph := List.replicate 97 4, role := 1, debugOff := true,
                               hashes := [] } none) = false := by decide +kernel
theorem test_wf_cert :
    WellFormed (.pairHello 0 { chain := [], nonce := List.replicate 48 0, eph := List.replicate 97 4, role := 1,
                               debugOff := true, hashes := [] } (some { serial := 7, dik := [4] })) = false := by
  decide +kernel
theorem test_wf_reads : WellFormed (.longOperationDone 0 0 { fwOk := true, nvOk := true, reads := [⟨7, 0⟩] }) = false :=
      by
  decide
theorem test_wf_larder :
    WellFormed (.bringupLarderDone 0
      { failing := none, fwA := true, fwB := true, lost := [], reads := [⟨7, 0⟩], us := 9 })
      = false := by decide
theorem test_wf_clk_up : WellFormed (.bringupClkUp (.up { strobeIn with bias := [1] })) = false := by decide
theorem test_wf_clk_fault : WellFormed (.bringupClkUp .fault) = true := by decide
theorem test_wf_packet :
    WellFormed (.pairPacket 0 { tagOk := true, seq := 0, hb := [], answers := [], items := [], inputs := none, ofs := 0,
                                peerBits := 0 })
      = false := by decide
theorem test_wf_packet_inputs :
    WellFormed (.pairPacket 0 { tagOk := true, seq := 0, hb := List.replicate 64 0, answers := [], items := [],
                                inputs := some [(9000, 0)], ofs := 0, peerBits := 0 }) = false := by decide
theorem test_wf_view :
    WellFormed (.syncCheckRetry 0 { rate := 0, fsw := 0, phaseLock := true, engines := [], envs := [], peerBits := [],
                                    ready := true }) = false := by decide
theorem test_wf_copy_gain : WellFormed (.syncCopyDone 0 { xp := [(3, 8388608)], params := [], regs := [] }) = false :=
      by decide
theorem test_wf_copy_word : WellFormed (.syncCopyDone 0 { xp := [], params := [(16, 0, 0)], regs := [] }) = false := by
      decide
theorem test_wf_copy_register :
    WellFormed (.syncCopyDone 0 { xp := [], params := [], regs := [(0x100000, 0)] }) = false := by decide

/-! ### Worked examples of the manual -/

/-- A record of the first chapter: 14 0A 03 00 80 A8 12 01 00 00 00 40. -/
theorem test_event_bytes :
    (eventBytes { code := 0x0A14, unit := 3, fn := 18000000, frac := 0x4000, payload := 0 } false).take 12
      = [0x14, 0x0A, 0x03, 0x00, 0x80, 0xA8, 0x12, 0x01, 0x00, 0x00, 0x00, 0x40] := by decide +kernel

/-- A 48-input mixing core whose half A has lost three lanes: B is 773,324. -/
theorem test_budget_three_lanes_lost :
    budgetFor { up with mx := { up.mx with lA := 29 } } 1 true true = 773324 := by decide +kernel

/-- Half A alone at 192 kHz with 29 lanes: B is 95,027. -/
theorem test_budget_192k : budgetFor { up with mx := { up.mx with lA := 29 } } 5 true false = 95027 := by decide +kernel

/-- Bus 0x800 with AI0 at 0.75 and DP0 slot 0 at 0.5 (one sum, bit by bit), and its scale glided to M. -/
def bus800 (m : Nat) : State :=
  { up with
    mx := { up.mx with
      xp := [(xpKey 0x800 0x1800, { cur := 786432, pend := false, gain := 0, qslot := 0, lost := false }),
             (xpKey 0x800 0x1830, { cur := 524288, pend := false, gain := 0, qslot := 0, lost := false })],
      src := [(0x1800, 305419896), (0x1830, -268435455)], glide := [(0x800, { ms := m, mt := m, j := 64 })] } }

theorem test_eqpow_two : scaleTarget 2 2 = 5931642 := by decide +kernel

theorem test_sum_eqpow :
    tget none (completeSink (bus800 5931642) 0x800).mx.res 0x800 = some 67067099 := by decide +kernel

theorem test_sum_off : tget none (completeSink (bus800 8388608) 0x800).mx.res 0x800 = some 94847195 := by decide +kernel

/-- Two modules notify at once: the module at 0x34 sends 0x10, 0x68, 0x00, 0x01 with one record queued. -/
theorem test_notify_bytes :
    notifyBytes (setReg { State.reset with tw := { TwoWire.reset with
      queue := [{ code := 0x0401, unit := 0, fn := 0, frac := 0, payload := 0 }] } } .twCfg 0 0x30)
      = [0x10, 0x68, 0x00, 0x01] := by
  decide +kernel

/-- CRC-8 of the string "123456789" with polynomial 0x07 (the PEC of SMBus) is 0xF4. -/
theorem test_pec : crc8 [0x31, 0x32, 0x33, 0x34, 0x35, 0x36, 0x37, 0x38, 0x39] = 0xF4 := by decide +kernel

/-- A write over the buffer's end wraps nowhere: bytes past offset 65,535 are no part of it (R347). -/
theorem test_buffer_canonical : bufWf (bufWrite [(3, 9), (7, 1)] 2 [1, 0, 4]) = true := by decide +kernel

/-- A byte of 0 is unlisted. -/
theorem test_buffer_zero : bufWrite [(3, 9)] 3 [0] = [] := by decide +kernel

/-- An idle step leaves the state; a step with a command in front runs it. -/
theorem test_idle : step State.reset = .next State.reset := rfl

theorem test_step_runs : ∃ t, step { up with pending := [.relayDelayExpiry 3] } = .next t ∧ t.pending = [] := ⟨_, rfl,
      rfl⟩

/-! ### Hypotheses that can be met together -/

theorem witness_FrameNumberInvariant :
    ∃ s t : State, FnOk s ∧ step s = .next t ∧ s.pending ≠ [] :=
  ⟨{ up with pending := [.failoverPinLow 3] }, _, by unfold FnOk; decide +kernel, rfl, by decide⟩

theorem witness_BusInvariant : ∃ s t : State, BusOk s ∧ step s = .next t ∧ s.pending ≠ [] :=
  ⟨{ up with pending := [.failoverPinLow 3] }, _, by unfold BusOk; decide +kernel, rfl, by decide⟩

theorem witness_QueueRunsInOrder :
    ∃ (l : List Instr) (s : State), s.pending = l ∧ 2 ≤ l.length :=
  ⟨[.relayDelayExpiry 3, .failoverPinLow 4], { up with pending := [.relayDelayExpiry 3, .failoverPinLow 4] }, rfl, by
      decide⟩

namespace Frames


theorem witness_StrobeBeginsFrame :
    (∃ (s : State), s.fr.running = true ∧ s.ck.gap = none ∧ s.fr.overrun = none) ∧
    (∃ (s : State), (s.fr.running = false ∨ s.ck.gap ≠ none ∨ s.fr.overrun ≠ none)) :=
  ⟨⟨mixing, by decide +kernel⟩,
   ⟨State.reset, by decide +kernel⟩⟩

theorem witness_FrameEnds :
    (∃ (s : State), computing s = true ∧ stuckLane s = false ∧ s.hl.afterDone = none) ∧
    (∃ (s : State), computing s = true ∧ s.fr.marked = true ∧ s.ck.gap = none ∧ s.hl.afterDone = none ∧ (∀ e ∈ engines,
      (eng s e).failure = none) ∧ boundItems s s.fr.fn = 0) ∧
    (∃ (s : State), computing s = true ∧ s.fr.marked = true ∧ s.ck.gap = none ∧ s.hl.afterDone = none ∧ (∀ e ∈ engines,
      (eng s e).failure = none) ∧ boundItems s s.fr.fn ≠ 0 ∧ s.pl.st ≠ .paired ∧ evtOpen s 1) ∧
    (∃ (s : State), computing s = true ∧ s.fr.marked = false ∧ s.ck.gap = none ∧ s.mx.laneErrs = []) ∧
    (∃ (s : State), computing s = true ∧ s.fr.marked = false ∧ s.ck.gap = none) :=
  ⟨⟨mixing, by decide +kernel⟩,
   ⟨{ mixing with fr := { up.fr with marked := true } }, by decide +kernel⟩,
   ⟨{ mixing with fr := { up.fr with marked := true, markAt := 0xFF00, staged := [{ owner := .host, bound := 5, item := .reg 0x11000 1, at_ := 9 }, { owner := .host, bound := 6, item := .reg 0x11000 1, at_ := 9 }] } },
      by decide +kernel⟩,
   ⟨mixing, by decide +kernel⟩,
   ⟨{ mixing with mx := { mixing.mx with laneErrs := [{ lane := 2, sinks := [3, 8], by_ := none, repeated := false }] } },
      by decide +kernel⟩⟩

theorem witness_OverrunReported : ∃ (o : Overrun) (s : State), s.fr.overrun = some o ∧ s.hl.afterDone = none ∧ (∀ e ∈
      engines, (eng s e).failure = none) ∧ s.pl.st ≠ .paired ∧ evtOpen s 1 :=
  ⟨{ sinks := 2, engines := 1, moved := false },
      { mixing with fr := { up.fr with overrun := some { sinks := 2, engines := 1, moved := false } } },
      by decide +kernel⟩

theorem witness_FrameRegisters :
    (∃ (t : Frac) (o : Owner) (s : State), writeTaken s t o 0x10030 0) ∧
    (∃ (t : Frac) (o : Owner) (s : State), writeTaken s t o 0x10030 0) :=
  ⟨⟨5, .host, { up with fr := { up.fr with armed := false } }, by decide +kernel⟩,
   ⟨5, .tw, up, by decide +kernel⟩⟩

end Frames

namespace Mixer

def mixList : Bytes := toLE 4 77 ++ toLE 2 1 ++ toLE 2 1 ++ toLE 6 0 ++ toLE 2 0 ++ toLE 8 (0x1800 * 2^49 + 5 * 2^37 + 0x10000)
def mixReq : CommitReq := {tag := 77, count := 1, notify := true, atFn := false, target := 0, scene := none}
def comm : Commit := { owner := .host, qslot := 2, tag := 5, count := 1, notify := true, atFn := false, target := 0, late := false, bound := 5, restore := [], recs := [], scene := none }

theorem witness_SinkSums :
    (∃ (k : Fin 4096) (s : State), computing s = true ∧ reservedSink k.val = false ∧ (engineSink k.val = true ∨
      feedPending s = false) ∧ tget none s.mx.res k.val = none ∧ isHeld s k.val = false ∧ isShed s k.val = false) ∧
    (∃ (j : Nat) (k : Nat), j ≠ k) :=
  ⟨⟨4, mixing, by decide +kernel⟩,
   ⟨4, 5, by decide +kernel⟩⟩

theorem witness_FabricErrors :
    (∃ (l : Fin 64) (s : State), computing s = true ∧ (lane s l.val).st = .scheduled ∧ s.mx.laneErrs = [] ∧ s.mx.retire
      = [] ∧ s.fr.marked = false) ∧
    (∃ (k : Fin 4096) (n : Fin 8192) (s : State), occupied s.mx.xp (xpKey k.val n.val) = true) ∧
    (∃ (k : Fin 4096) (n : Fin 8192) (s : State), occupied s.mx.xp (xpKey k.val n.val) = true ∧ computing s = true) :=
  ⟨⟨33, mixing, by decide +kernel⟩,
   ⟨3, 0x1800, mixing, by decide +kernel⟩,
   ⟨3, 0x1800, mixing, by decide +kernel⟩⟩

theorem witness_MixRegisters :
    (∃ (t : Frac) (o : Owner) (v : Word) (e : Xp) (s : State), writeTaken s t o 0x10088 0 ∧ tget Xp.none s.mx.xp (xpKey
      (fld v 11 0) (fld v 28 16)) = e ∧ e ≠ Xp.none ∧ e.lost = false) ∧
    (∃ (t : Frac) (o : Owner) (v : Word) (s : State), writeTaken s t o 0x10088 0 ∧ tget Xp.none s.mx.xp (xpKey (fld v
      11 0) (fld v 28 16)) = Xp.none) ∧
    (∃ (t : Frac) (o : Owner) (s : State), writeTaken s t o 0x10210 0) :=
  ⟨⟨5, .host, 0x18000003, { Xp.none with cur := 0x10000 }, mixing, by decide +kernel⟩,
   ⟨5, .tw, 0x18010003, mixing, by decide +kernel⟩,
   ⟨5, .tw, { mixing with mx := { mixing.mx with clips := [(3, 4), (5, 6)] } }, by decide +kernel⟩⟩

theorem witness_RegisterWrites :
    (∃ (o : Owner) (off : BitVec 21) (row : RegRow) (i : Nat) (g : Nat) (s : State), regAt off.toNat = some (row, i) ∧
      row.staged = true ∧ regGroup row.name i = some g ∧ row.name ≠ .spCtrl ∧ 0x10000 ≤ off.toNat ∧ off.toNat < 0x100000
      ∧ off.toNat % 4 = 0 ∧ held s = false ∧ owns s o g = true ∧ s.hl.locked = false ∧ mirrors s g = false) ∧
    (∃ (t : Frac) (o : Owner) (s : State), writeTaken s t o 0x1002C 0) ∧
    (∃ (o : Owner) (s : State), held s = false ∧ owns s o 0 = false ∧ tget 0 s.hl.refusedAt 0 ≠ s.fr.fn + 1 ∧ evtOpen s
      1) ∧
    (∃ (w : BarWrite), w.read = none ∧ w.off.toNat % (if w.wide then 8 else 4) ≠ 0) :=
  ⟨⟨.host, 0x14004, ⟨.mxSinkCfg, 4096, 51, true⟩, 1, 0, up, by decide +kernel⟩,
   ⟨5, .host, up, by decide +kernel⟩,
   ⟨.peer, { up with regs := [(regOff .hlOwner 0, 3)] }, by decide +kernel⟩,
   ⟨{ bar2 := false, wide := false, off := 0x10002, be := 0xF, data := 0 }, by decide +kernel⟩⟩

theorem witness_CommitAnswered :
    (∃ (t : Frac) (c : Cmd) (d : Dma) (n : Nat) (h : Bytes) (b : Bytes) (p : State × Nat) (s : State), (cmdReady s c
      0x0010 [0] ∧ fieldsOk c [(0, wordAll)] = true ∧ pwN c 0 % 16 = 0 ∧ addrOk c 0 16 = true ∧ cmdData s c d 0 16 =
      some h ∧ countOk h = true ∧ addrOk c 0 (16 + 8 * leAt h 4 2) = true ∧ cmdData s c d 0 (16 + 8 * leAt h 4 2) = some
      b) ∧ mixSubmit (tableCorrected (atT s t) n) c.src b = .ok p) ∧
    (∃ (c : Cmd) (d : Dma) (h : Bytes) (s : State), cmdReady s c 0x0010 [0] ∧ fieldsOk c [(0, wordAll)] = true ∧ pwN c
      0 % 16 = 0 ∧ addrOk c 0 16 = true ∧ cmdData s c d 0 16 = some h ∧ countOk h = false ∧ h.length = 16) :=
  ⟨⟨5, cmdOf [0x1000], some mixList, 3, mixList.take 16, mixList, ((mixSubmit (tableCorrected (atT (asked 0x0010 (cmdOf
      [0x1000]) up) 5) 3) .host mixList).toOption.getD (up, 99)), asked 0x0010 (cmdOf [0x1000]) up, by decide +kernel,
      ok_getD (up, 99) (by decide +kernel)⟩,
   ⟨cmdOf [0x1000], some (List.replicate 16 0), List.replicate 16 0, asked 0x0010 (cmdOf [0x1000]) up,
      by decide +kernel⟩⟩

theorem witness_CommitAdmitted :
    (∃ (o : Owner) (h : CommitReq) (recs : List Rec) (s : State) (s' : State) (q : Nat), commitRecs s o h recs = .ok
      (s', q)) ∧
    (∃ (recs : List Rec) (s : State), (∀ r ∈ recs, recOk r = true) ∧ 8 ≤ s.mx.queue.length) :=
  ⟨⟨.host, mixReq, [parseRec (mixList.drop 16)], up, ((commitRecs up .host mixReq [parseRec (mixList.drop
      16)]).toOption.getD (up, 99)).1, ((commitRecs up .host mixReq [parseRec (mixList.drop 16)]).toOption.getD (up,
      99)).2, ok_pair (up, 99) (by decide +kernel)⟩,
   ⟨[parseRec (mixList.drop 16)],
      { mixing with mx := { mixing.mx with queue := (List.range 8).map (fun q => { comm with qslot := q }) } },
      by decide +kernel⟩⟩

theorem witness_CommitApplied : ∃ (c : Commit) (r : List Commit) (s : State), (s.mx.queue = c :: r ∧ (∀ b ∈ r, b.qslot ≠
      c.qslot) ∧ c.bound ≤ s.fr.fn ∧ (c.atFn = true → c.target ≤ s.fr.fn + 1) ∧ c.scene = none ∧ s.mx.budget = budgetFor
      s s.fr.rate s.mx.inA s.mx.inB ∧ twf Xp.none s.mx.xp = true) ∧ quietBoundary s [] :=
  ⟨comm, [{ comm with qslot := 3 }],
      { mixing with mx := { mixing.mx with queue := [comm, { comm with qslot := 3 }], xp := [(3*8192+0x1800, { cur := 1, pend := true, gain := 7, qslot := 2, lost := false }), (4*8192+0x1800, { cur := 1, pend := true, gain := 9, qslot := 3, lost := false })] } },
      by decide +kernel, by unfold quietBoundary; decide +kernel⟩

end Mixer

namespace Engines

def stg : Stage := { type := 0, size := 1, inp := 0, out := 8, aux := 0, flags := 0, pbase := 0 }
def rcp : Recipe := { stages := [stg], nparam := 4, words := [(0, 5), (1, 9)], lock := [(1, 1), (2, 2)], ranges := [(1, (0, 100))], id := 3, ver := 4, cost := 10, blocks := 2, table := [5, 9], signer := 0xFF, encrypted := false }
def fxUp : State := { mixing with fx := { Fx.reset with eng := [(0, { Engine.reset with st := .running, recipe := some rcp, stages := stagesInit rcp, out := List.replicate 8 0 }), (1, { Engine.reset with st := .empty })] } }
def fxSt : State := setEng fxUp 0 { eng fxUp 0 with started := true }
def dlySt : Stage := { type := 5, size := 0, inp := 0, out := 8, aux := 0, flags := 0, pbase := 0 }
def dlyRcp : Recipe := { rcp with stages := [dlySt], words := [(0, 1500), (1, 9)] }
def dlyUp : State := setEng fxUp 0 { eng fxUp 0 with recipe := some dlyRcp, stages := [{ reg := [], line := [(7, 8)], lost := [] }] }
def heldBy (s : State) (op : Nat) (l : LongOp) : State := { s with hl := { s.hl with order := [{ slot := 4, src := .host, noIrq := false, id := 9, idx := 2, opcode := op, done := none }], nextSlot := 5, busy := some { op := op, slot := 4, doorbells := 0, writes := 0, since := 0, over_ := none }, long := some l } }
def xsl (op : Nat) : CmpSlot := { slot := 4, src := .host, noIrq := false, id := 9, idx := 2, opcode := op, done := none }
def stgB : Bytes := [1, 0, 0, 8, 0xFF, 0, 0, 0]
def fxBody : Bytes := toLE 4 0x43525846 ++ toLE 2 1 ++ toLE 1 1 ++ toLE 1 0 ++ toLE 2 16 ++ toLE 2 (stageCost (parseStage stgB)) ++ toLE 2 0 ++ toLE 2 0 ++ toLE 4 3 ++ toLE 4 4 ++ toLE 8 0 ++ stgB ++ List.replicate 68 0
def outA : State := { up with mx := { up.mx with xp := [] } }

theorem witness_EngineFrames :
    (∃ (e : Fin 16) (s : State), computing s = true ∧ engRuns (eng s e.val) = true ∧ (eng s e.val).started = false) ∧
    (∃ (e : Fin 16) (s : State), computing s = true ∧ engRuns (eng s e.val) = true ∧ (eng s e.val).started = true ∧
      (eng s e.val).complete = false) ∧
    (∃ (e : Fin 16) (s : State), computing s = true ∧ engRuns (eng s e.val) = true ∧ (eng s e.val).complete = false) ∧
    (∃ (e : Fin 16) (k : Fin 32) (n : Nat) (cell : Nat) (block : Nat) (off : Nat) (r : Recipe) (st : StageSt) (s :
      State), computing s = true ∧ engRuns (eng s e.val) = true ∧ (eng s e.val).complete = false ∧ (eng s e.val).recipe
      = some r ∧ delayWord r k.val n = some (cell, block, off) ∧ (eng s e.val).stages[k.val]? = some st ∧ cell ∉ st.lost
      ∧ bit (reg s .fxEngBypass e.val) k.val = false ∧ evtOpen s 1) :=
  ⟨⟨0, fxUp, by decide +kernel⟩,
   ⟨0, fxSt, by decide +kernel⟩,
   ⟨0, fxSt, by decide +kernel⟩,
   ⟨0, 0, 1030, ((delayWord dlyRcp 0 1030).getD (0, 0, 0)).1, ((delayWord dlyRcp 0 1030).getD (0, 0, 0)).2.1,
      ((delayWord dlyRcp 0 1030).getD (0, 0, 0)).2.2, dlyRcp, { reg := [], line := [(7, 8)], lost := [] }, dlyUp,
      by decide +kernel⟩⟩

theorem witness_EngineLoads :
    (∃ (c : Cmd) (d : Dma) (b : Bytes) (s : State), (fieldsOk c [(0, wordAll), (1, 0xFFFFFF), (2, 0x10F)] = true ∧
      addrOk c 0 (fldN (pwN c 1) 23 0) = true ∧ loadBarred s (pwN c 2 % 16) = false ∧ cmdData s c d 0 (fldN (pwN c 1) 23
      0) = some b) ∧ longReady s c 0x0020 [1 + pwN c 2 % 16]) ∧
    (∃ (c : Cmd) (s : State), cmdReady s c 0x0020 [1 + pwN c 2 % 16] ∧ fieldsOk c [(0, wordAll), (1, 0xFFFFFF), (2,
      0x10F)] = true ∧ addrOk c 0 (fldN (pwN c 1) 23 0) = true ∧ loadBarred s (pwN c 2 % 16) = true) ∧
    (∃ (e : Nat) (img : Bytes) (r : Recipe) (x : CmpSlot) (s : State), s.pl.st ≠ .paired ∧ longHeld s x 0x0020 (.fxLoad
      e false img x.src) ∧ checkLoad s e img 0xFF false = .ok r) ∧
    (∃ (e : Nat) (img : Bytes) (st : Nat) (i : Nat) (x : CmpSlot) (s : State), st ≠ stOverBudget ∧ longHeld s x 0x0020
      (.fxLoad e false img x.src) ∧ checkLoad s e img 0xFF false = .error (st, i)) :=
  ⟨⟨cmdOf [0x1000, 32, 1], some (List.replicate 40 1), List.replicate 32 1, asked 0x0020 (cmdOf [0x1000, 32, 1]) fxUp,
      by decide +kernel, ⟨by decide +kernel, rfl, .inl rfl⟩⟩,
   ⟨cmdOf [0x1000, 32, 2], asked 0x0020 (cmdOf [0x1000, 32, 2]) fxUp, by decide +kernel⟩,
   ⟨1, fxBody, (checkLoad fxUp 1 fxBody 0xFF false).toOption.getD rcp, xsl 0x20, heldBy fxUp 0x20 (.fxLoad 1 false
      fxBody .host), by decide +kernel, held_of 0 (by decide +kernel), ok_of (by decide +kernel)⟩,
   ⟨1, [1, 2, 3], 0x20, 0xFFFF, xsl 0x20, heldBy fxUp 0x20 (.fxLoad 1 false [1,2,3] .host), by decide +kernel, held_of
      0 (by decide +kernel), error_of (by decide +kernel)⟩⟩

theorem witness_EngineClearAndTest :
    (∃ (c : Cmd) (s : State), cmdReady s c 0x0021 [1 + pwN c 0 % 16] ∧ fieldsOk c [(0, 0xF)] = true ∧ (eng s (pwN c 0 %
      16)).st ≠ .testing ∧ (eng s (pwN c 0 % 16)).st ≠ .unavailable ∧ s.pl.st ≠ .paired) ∧
    (∃ (c : Cmd) (s : State), (fieldsOk c [(0, 0xF)] = true ∧ (eng s (pwN c 0 % 16)).st = .empty ∨ (eng s (pwN c 0 %
      16)).st = .failed ∧ (eng s (pwN c 0 % 16)).recipe = none) ∧ longReady s c 0x0022 [1 + pwN c 0 % 16]) ∧
    (∃ (c : Cmd) (s : State), cmdReady s c 0x0022 [1 + pwN c 0 % 16] ∧ fieldsOk c [(0, 0xF)] = true ∧ (eng s (pwN c 0 %
      16)).st ≠ .empty ∧ (eng s (pwN c 0 % 16)).st ≠ .failed) ∧
    (∃ (e : Nat) (x : CmpSlot) (s : State), evtOpen s 1 ∧ longHeld s x 0x0022 (.fxTest e)) :=
  ⟨⟨cmdOf [0], asked 0x0021 (cmdOf [0]) fxUp, by decide +kernel⟩,
   ⟨cmdOf [1], asked 0x0022 (cmdOf [1]) fxUp, by decide +kernel, ⟨by decide +kernel, rfl, .inl rfl⟩⟩,
   ⟨cmdOf [0], asked 0x0022 (cmdOf [0]) fxUp, by decide +kernel⟩,
   ⟨1, xsl 0x22, heldBy fxUp 0x22 (.fxTest 1), by decide +kernel, held_of 0 (by decide +kernel)⟩⟩

theorem witness_ParameterWindow :
    (∃ (o : Owner) (v : Word) (s : State), held s = false ∧ owns s o (1 + (paddr s o).eng) = true ∧ (paddr s o).auto =
      false ∧ paramOk (eng s (paddr s o).eng).recipe (paddr s o).word v = true) ∧
    (∃ (o : Owner) (v : Word) (s : State), held s = false ∧ owns s o (1 + (paddr s o).eng) = true ∧ paramOk (eng s
      (paddr s o).eng).recipe (paddr s o).word v = false ∧ (eng s (paddr s o).eng).refusedAt ≠ s.fr.fn + 1 ∧ evtOpen s
      1) ∧
    (∃ (o : Owner) (r : Recipe) (s : State), (eng s (paddr s o).eng).recipe = some r ∧ (paddr s o).word < r.nparam ∧
      tget 0 r.lock (paddr s o).word < 2 ∧ (paddr s o).view = false) ∧
    (∃ (o : Owner) (e : Fin 16) (s : State), held s = false ∧ owns s o (1 + e.val) = true ∧ (eng s e.val).st = .running
      ∧ e.val ∉ stagedSets s o ∧ mirrors s (1 + e.val) = false) ∧
    (∃ (o : Owner) (e : Fin 16) (s : State), held s = false ∧ owns s o (1 + e.val) = true ∧ (eng s e.val).st ≠ .running
      ∨ e.val ∈ stagedSets s o) :=
  ⟨⟨.host, 50, setPaddr fxUp .host { auto := false, view := false, eng := 0, word := 1 }, by decide +kernel⟩,
   ⟨.host, 50, setPaddr fxUp .host { auto := true, view := false, eng := 0, word := 2 }, by decide +kernel⟩,
   ⟨.host, rcp, setPaddr fxUp .host { auto := true, view := false, eng := 0, word := 1 }, by decide +kernel⟩,
   ⟨.host, 0, setEng fxUp 0 { eng fxUp 0 with shHost := { words := [(1, 8)], dirty := [1] } }, by decide +kernel⟩,
   ⟨.host, 1, fxUp, by decide +kernel⟩⟩

theorem witness_HalfCommands :
    (∃ (c : Cmd) (s : State), cmdReady s c 0x0011 [0] ∧ fieldsOk c [(0, 0x301)] = true ∧ fldN (pwN c 0) 9 8 = 1 ∧ domOn
      s (domMXA + pwN c 0 % 2) = true ∧ halfIn s (pwN c 0 % 2) = true ∧ halfLoaded s (pwN c 0 % 2) = false ∧
      (admitRequest s (outBudget s (pwN c 0 % 2)) true).1 = 0) ∧
    (∃ (c : Cmd) (s : State), cmdReady s c 0x0011 [0] ∧ fieldsOk c [(0, 0x301)] = true ∧ fldN (pwN c 0) 9 8 = 1 ∧ domOn
      s (domMXA + pwN c 0 % 2) = true ∧ halfIn s (pwN c 0 % 2) = true ∧ halfLoaded s (pwN c 0 % 2) = false ∧
      (admitRequest s (outBudget s (pwN c 0 % 2)) true).1 ≠ 0) ∧
    (∃ (c : Cmd) (s : State), cmdReady s c 0x0011 [0] ∧ fieldsOk c [(0, 0x301)] = true ∧ fldN (pwN c 0) 9 8 = 2 ∧ domOn
      s (domMXA + pwN c 0 % 2) = true ∧ halfIn s (pwN c 0 % 2) = false ∧ untested s (pwN c 0 % 2) = false) ∧
    (∃ (c : Cmd) (s : State), (fieldsOk c [(0, 0x301)] = true ∧ fldN (pwN c 0) 9 8 = 3 ∧ domOn s (domMXA + pwN c 0 % 2)
      = true ∧ halfIn s (pwN c 0 % 2) = false) ∧ longReady s c 0x0011 [0]) ∧
    (∃ (h : Half) (x : CmpSlot) (s : State), evtOpen s 1 ∧ longHeld s x 0x0011 (.halfTest h)) :=
  ⟨⟨cmdOf [0x101], asked 0x0011 (cmdOf [0x101]) (outA), by decide +kernel⟩,
   ⟨cmdOf [0x101], asked 0x0011 (cmdOf [0x101])
      ({ outA with mx := { outA.mx with inA := false, inB := true, xp := (List.range 100).map (fun k => (k * 8192 * 8, { Xp.none with cur := 1 })) } , regs := [] , fr := { outA.fr with staged := [{owner := .host, bound := 5, item := .halfOut .a, at_ := 0}]}}),
      by decide +kernel⟩,
   ⟨cmdOf [0x201], asked 0x0011 (cmdOf [0x201])
      ({ outA with mx := { outA.mx with inB := false }, pl := { outA.pl with testB := (1, 32, 0, true) } }),
      by decide +kernel⟩,
   ⟨cmdOf [0x301], asked 0x0011 (cmdOf [0x301]) ({ outA with mx := { outA.mx with inB := false } }), by decide +kernel,
      ⟨by decide +kernel, rfl, .inl rfl⟩⟩,
   ⟨.b, xsl 0x11, heldBy { outA with mx := { outA.mx with inB := false } } 0x11 (.halfTest .b), by decide +kernel,
      held_of 0 (by decide +kernel)⟩⟩

end Engines

namespace Staged

def bQ (s : State) (i : Item) : State := { s with fr := { s.fr with staged := [{ owner := .host, bound := 5, item := i, at_ := 9 }] } }
def bRow (off : Nat) : RegRow := ((regAt off).map Prod.fst).getD ⟨.mxSilProf, 1, 0, true⟩
def bStg : Stage := { type := 0, size := 1, inp := 0, out := 8, aux := 0, flags := 0, pbase := 0 }
def bRcp : Recipe := { stages := [bStg], nparam := 4, words := [(0, 5), (1, 9)], lock := [(1, 1), (2, 2)], ranges := [(1, (0, 100))], id := 3, ver := 4, cost := 10, blocks := 2, table := [5, 9], signer := 0xFF, encrypted := false }
def bFx : State := { mixing with fx := { Fx.reset with eng := [(0, { Engine.reset with st := .running, recipe := some bRcp, stages := stagesInit bRcp, out := List.replicate 8 0 }), (1, { Engine.reset with st := .empty })] } }
def bEnv : Env := { id := 1, ver := 2, mask := 3, flags := 3, words := List.replicate 10 7, tambMin := 5, locked := false, slot := 0xFF }
def bOut : State := { mixing with mx := { mixing.mx with inB := false, lane := (List.range 32).map (fun l => (l, lane mixing l)), lB := 0, budget := 393216 }, pl := { mixing.pl with testB := (1, 32, 0, true) } }

theorem witness_StagedItemsApply :
    (∃ (o : Owner) (b : Nat) (n : Nat) (off : Nat) (k : Nat) (v : Word) (row : RegRow) (s : State), (b ≤ s.fr.fn ∧
      regAt off = some (row, k) ∧ row.staged = true ∧ row.name ∈ plainStaged ∧ regAccept row.name k (reg s row.name k)
      (mergeReg row.name k (reg s row.name k) v) = true ∧ clockAccept s row.name k (mergeReg row.name k (reg s row.name
      k) v) = true) ∧ quietBoundary s [{ owner := o, bound := b, item := .reg off v, at_ := n }]) ∧
    (∃ (o : Owner) (b : Nat) (n : Nat) (e : Nat) (ws : Tbl Word) (notify : Bool) (r : Recipe) (s : State), (b ≤ s.fr.fn
      ∧ (eng s e).st = .running ∧ (eng s e).recipe = some r ∧ (ws.map Prod.fst).Nodup) ∧ quietBoundary s
      [{ owner := o, bound := b, item := .params [(e, ws)] notify, at_ := n }]) ∧
    (∃ (o : Owner) (b : Nat) (n : Nat) (e : Nat) (r : Recipe) (s : State), (e < 16 ∧ b ≤ s.fr.fn ∧ (eng s e).st =
      .running ∨ (eng s e).st = .empty) ∧ quietBoundary s [{ owner := o, bound := b, item := .swap e r, at_ := n }]) ∧
    (∃ (o : Owner) (b : Nat) (n : Nat) (e : Nat) (s : State), (e < 16 ∧ b ≤ s.fr.fn ∧ (eng s e).st = .running ∨ (eng s
      e).st = .empty ∨ (eng s e).st = .failed) ∧ quietBoundary s
      [{ owner := o, bound := b, item := .clear e, at_ := n }]) ∧
    (∃ (o : Owner) (b : Nat) (n : Nat) (c : Nat) (e : Env) (s : State), (c < 12 ∧ b ≤ s.fr.fn) ∧ quietBoundary s
      [{ owner := o, bound := b, item := .env [(c, e)], at_ := n }]) ∧
    (∃ (o : Owner) (b : Nat) (n : Nat) (m : Nat) (s : State), b ≤ s.fr.fn ∧ quietBoundary s
      [{ owner := o, bound := b, item := .envClear m, at_ := n }]) ∧
    (∃ (o : Owner) (b : Nat) (n : Nat) (h : Half) (s : State), (b ≤ s.fr.fn ∧ halfIn s (halfNum h) = true ∧ halfLoaded
      s (halfNum h) = false ∧ s.mx.queue = [] ∧ (costNow s).1 ≤ remainingBudget s (halfNum h) ∧ (costNow s).2 ≤
      remainingBudget s (halfNum h) / 4) ∧ quietBoundary s [{ owner := o, bound := b, item := .halfOut h, at_ := n }]) ∧
    (∃ (o : Owner) (b : Nat) (n : Nat) (h : Half) (s : State), (b ≤ s.fr.fn ∧ halfIn s (halfNum h) = false ∧ domOn s
      (domMXA + halfNum h) = true ∧ untested s (halfNum h) = false ∧ 2 ≤ (passingLanes s (halfNum h)).length ∧
      s.mx.queue = []) ∧ quietBoundary s [{ owner := o, bound := b, item := .halfIn h, at_ := n }]) ∧
    (∃ (o : Owner) (b : Nat) (n : Nat) (code : Nat) (s : State), (b ≤ s.fr.fn ∧ s.mx.queue = []) ∧ quietBoundary s
      [{ owner := o, bound := b, item := .rate code, at_ := n }]) ∧
    (∃ (o : Owner) (b : Nat) (n : Nat) (up : Nat) (down : Nat) (j : Nat) (s : State), b ≤ s.fr.fn ∧ quietBoundary s
      [{ owner := o, bound := b, item := .domain up down j, at_ := n }]) :=
  ⟨⟨.host, 5, 9, 0x10204, 1, 0xFF120030, bRow 0x10204, bQ mixing (.reg 0x10204 0xFF120030), by decide +kernel,
      by unfold quietBoundary; decide +kernel⟩,
   ⟨.host, 5, 9, 0, [(1, 77), (3, 4)], true, bRcp, bQ bFx (.params [(0, [(1, 77), (3, 4)])] true), by decide +kernel,
      by unfold quietBoundary; decide +kernel⟩,
   ⟨.host, 5, 9, 1, bRcp, bQ bFx (.swap 1 bRcp), by decide +kernel, by unfold quietBoundary; decide +kernel⟩,
   ⟨.host, 5, 9, 0, bQ bFx (.clear 0), by decide +kernel, by unfold quietBoundary; decide +kernel⟩,
   ⟨.host, 5, 9, 2, bEnv, bQ mixing (.env [(2, bEnv)]), by decide +kernel, by unfold quietBoundary; decide +kernel⟩,
   ⟨.host, 5, 9, 5, bQ (setSpCh (setSpCh mixing 2 { spCh mixing 2 with env := some bEnv }) 0
      { spCh mixing 0 with env := some { bEnv with locked := true } }) (.envClear 5), by decide +kernel,
      by unfold quietBoundary; decide +kernel⟩,
   ⟨.host, 5, 9, .a, bQ mixing (.halfOut .a), by decide +kernel, by unfold quietBoundary; decide +kernel⟩,
   ⟨.host, 5, 9, .b, bQ bOut (.halfIn .b), by decide +kernel, by unfold quietBoundary; decide +kernel⟩,
   ⟨.host, 5, 9, 3, bQ mixing (.rate 3), by decide +kernel, by unfold quietBoundary; decide +kernel⟩,
   ⟨.host, 5, 9, 0, 0x90, 7, bQ
      { mixing with hl := { mixing.hl with order := [{ slot := 7, src := .host, noIrq := false, id := 9, idx := 2, opcode := 0x70, done := none }] } }
      (.domain 0 0x90 7), by decide +kernel, by unfold quietBoundary; decide +kernel⟩⟩

end Staged

namespace Power

def pw : State := setDie (setDie up .a { die up .a with uv := false, ov := false, vg := false, ot := false }) .b { die up .b with uv := false, ov := false, vg := false, ot := false }
def chUp (k : Nat) (x : PsCh) : State := setPsCh pw k x
def inSt (k : Nat) (st : ChState) : State := chUp k { PsCh.reset with st := st }
def clk2 : State := { chUp 2 { PsCh.reset with st := .muted, cause := 4 } with ps := { (chUp 2 { PsCh.reset with st := .muted, cause := 4 }).ps with clock := true } }

theorem witness_ChannelStartsAndStops :
    (∃ (t : Frac) (c : Fin 12) (s : State), inWindow s = true ∧ (psCh s c.val).st = .off ∧ s.ps.ready = true ∧ fbOver s
      c.val = false ∧ within10ms (atT s t) c.val (nowTicks (atT s t)) = false ∧ chCauses s c.val = []) ∧
    (∃ (c : Fin 12) (s : State), inWindow s = true ∧ (psCh s c.val).st = .off ∧ s.ps.ready = false) ∧
    (∃ (c : Fin 12) (s : State), inWindow s = true ∧ (psCh s c.val).st = .starting ∨ (psCh s c.val).st = .run ∨ (psCh s
      c.val).st = .quiet) ∧
    (∃ (c : Fin 12) (m : Bool) (s : State), inWindow s = true ∧ rb s .psChCtrl c.val 1 ≠ m) ∧
    (∃ (c : Fin 12) (s : State), inWindow s = true ∧ (psCh s c.val).disabledAt ≠ s.fr.fn + 1) ∧
    (∃ (s : State), inWindow s = false) ∧
    (∃ (c : Fin 12) (s : State), inWindow s = true ∧ rb s .psChCtrl c.val 0 = false ∧ (psCh s c.val).disabledAt =
      s.fr.fn + 1) ∧
    (∃ (t : Frac) (src : Owner) (c : Fin 12) (v : Word) (s : State), writeTaken s t src (0x30104 + 0x20 * c.val) (0x1D
      + c.val) ∧ (psCh s c.val).st = .off ∧ regAccept .psChCfg c.val (reg s .psChCfg c.val) (mergeReg .psChCfg c.val
      (reg s .psChCfg c.val) v) = true) ∧
    (∃ (c : Fin 12) (s : State), (psCh s c.val).st = .starting ∧ (psCh s c.val).phase = .bootstrap) ∧
    (∃ (c : Fin 12) (s : State), (psCh s c.val).st = .starting ∧ (psCh s c.val).phase = .softStart ∧ evtOpen s 1) ∧
    (∃ (c : Fin 12) (s : State), (psCh s c.val).st = .stopping ∧ evtOpen s 1) ∧
    (∃ (c : Fin 12) (r : Nat × Frac × Nat) (s : State), s.fr.running = true ∧ s.ck.gap = none ∧ s.fr.overrun = none ∧
      (psCh s c.val).rearm = some r) :=
  ⟨⟨3, 2, win ({ setReg pw .psChCfg 2 0x100 with fr := { up.fr with ticks := 99999999 } }), by decide +kernel⟩,
   ⟨2, win ({ pw with ps := { pw.ps with ready := false } }), by decide +kernel⟩,
   ⟨2, win (inSt 2 .run), by decide +kernel⟩,
   ⟨2, true, win (inSt 2 .run), by decide +kernel⟩,
   ⟨2, win (inSt 2 .latched), by decide +kernel⟩,
   ⟨inSt 2 .run, by decide +kernel⟩,
   ⟨2, win (chUp 2 { PsCh.reset with st := .off, disabledAt := 6 }), by decide +kernel⟩,
   ⟨3, .host, 2, 0x11B0D000, pw, by decide +kernel⟩,
   ⟨2, chUp 2 { PsCh.reset with st := .starting, phase := .bootstrap }, by decide +kernel⟩,
   ⟨2, chUp 2 { PsCh.reset with st := .starting, phase := .softStart }, by decide +kernel⟩,
   ⟨2, inSt 2 .stopping, by decide +kernel⟩,
   ⟨2, (5, 3, 7), chUp 2 { PsCh.reset with st := .latched, rearm := some (5, 3, 7) }, by decide +kernel⟩⟩

theorem witness_ChannelFaults :
    (∃ (c : Fin 8) (s : State), switching s c.val = true ∧ evtOpen s 1) ∧
    (∃ (d : Fin 4) (s : State), switching s (8 + d.val) = true) ∧
    (∃ (d : Fin 4) (s : State), switching s (8 + d.val) = true ∧ 64 ≤ (psCh s (8 + d.val)).limited ∧ (rf s .psDxCfg
      d.val 31 24 = 0 ∨ (psCh s (8 + d.val)).retries < rf s .psDxCfg d.val 31 24) ∧ evtOpen s 1) ∧
    (∃ (d : Fin 4) (s : State), switching s (8 + d.val) = true ∧ 64 ≤ (psCh s (8 + d.val)).limited ∧ rf s .psDxCfg
      d.val 31 24 ≠ 0 ∧ rf s .psDxCfg d.val 31 24 ≤ (psCh s (8 + d.val)).retries ∧ evtOpen s 1) ∧
    (∃ (d : Fin 4) (s : State), (psCh s (8 + d.val)).st = .hiccup ∧ chCauses s (8 + d.val) = []) ∧
    (∃ (t : Frac) (c : Fin 12) (a : Nat) (s : State), mutable s c.val = true ∧ (psCh s c.val).dcSince = some a ∧ a + 10
      * rf s .psChDc c.val 13 8 * tMs ≤ nowTicks (atT s t) ∧ evtOpen s 1) :=
  ⟨⟨2, inSt 2 .run, by decide +kernel⟩,
   ⟨1, inSt 9 .run, by decide +kernel⟩,
   ⟨1, chUp 9 { PsCh.reset with st := .run, limited := 64 }, by decide +kernel⟩,
   ⟨1, setReg (chUp 9 { PsCh.reset with st := .run, limited := 64, retries := 3 }) .psDxCfg 1 0x03000000,
      by decide +kernel⟩,
   ⟨1, inSt 9 .hiccup, by decide +kernel⟩,
   ⟨3, 2, 5,
      { setReg (chUp 2 { PsCh.reset with st := .run, dcSince := some 5 }) .psChDc 2 0x102 with fr := { up.fr with ticks := 9999999 } },
      by decide +kernel⟩⟩

theorem witness_AutomaticCauses :
    (∃ (s : State), s.ps.clock = false ∧ s.ck.suspended = false ∧ evtOpen s 1) ∧
    (∃ (s : State), s.ps.clock = true ∧ evtOpen s 1) ∧
    (∃ (d : PowerDie) (k : SupplyCause) (s : State), supplyHas (die s d) k = false ∧ evtOpen s 1) ∧
    (∃ (d : PowerDie) (k : SupplyCause) (s : State), supplyHas (die s d) k = true) ∧
    (∃ (d : PowerDie) (s : State), (die s d).ot = false ∧ evtOpen s 1) ∧
    (∃ (d : PowerDie) (s : State), (die s d).ot = true ∧ evtOpen s 1) ∧
    (∃ (d : PowerDie) (v : BitVec 16) (s : State), (die s d).sagArmed = true ∧ v.toNat < sagLevel s d ∧ evtOpen s 1) ∧
    (∃ (d : PowerDie) (v : BitVec 16) (s : State), (die s d).warnArmed = true ∧ (16 * rf s .psTempCfg 0 7 0 : Int) ≤
      sext 16 v.toNat ∧ evtOpen s 1) :=
  ⟨⟨inSt 2 .run, by decide +kernel⟩,
   ⟨clk2, by decide +kernel⟩,
   ⟨.a, .pvddUnder, inSt 2 .run, by decide +kernel⟩,
   ⟨.a, .pvddUnder, setDie (inSt 2 .muted) .a (supplySet (die pw .a) .pvddUnder true), by decide +kernel⟩,
   ⟨.b, inSt 2 .run, by decide +kernel⟩,
   ⟨.b, setDie (inSt 5 .muted) .b { die pw .b with ot := true }, by decide +kernel⟩,
   ⟨.b, 7, setReg (setDie pw .b { die pw .b with sagArmed := true }) .psPvddWarn 0 0xFF00, by decide +kernel⟩,
   ⟨.b, 7000, setDie pw .b { die pw .b with warnArmed := true }, by decide +kernel⟩⟩

theorem witness_QuietAndIdle :
    (∃ (c : Fin 12) (s : State), (psCh s c.val).st = .run ∧ rb s .psChQuiet c.val 31 = true ∧ rf s .psChQuiet c.val 15
      0 ≤ (psCh s c.val).quietRun) ∧
    (∃ (t : Frac) (d : PowerDie) (a : Nat) (s : State), (die s d).idleSince = some a ∧ rb s .psDomIdle 0 (dieNum d) =
      true ∧ domOn s (dieDom d) = true ∧ dieIdle s d = true ∧ a + rf s .psDomIdle 0 15 8 * tSec ≤ nowTicks (atT s t) ∧
      evtOpen s 2) ∧
    (∃ (d : PowerDie) (s : State), (die s d).waking = true ∧ domOn s (dieDom d) = true ∧ (∀ c ∈ dieChannels d, chCauses
      s c = [])) :=
  ⟨⟨2, setReg (chUp 2 { PsCh.reset with st := .run, quietRun := 10 }) .psChQuiet 2 0x80000005, by decide +kernel⟩,
   ⟨3, .a, 5,
      { setReg (setDie (inSt 2 .quiet) .a { die pw .a with idleSince := some 5 }) .psDomIdle 0 0x3 with fr := { up.fr with ticks := 9 * tSec } },
      by decide +kernel⟩,
   ⟨.a, setDie (inSt 2 .domainOff) .a { die pw .a with waking := true }, by decide +kernel⟩⟩

end Power

namespace Protection

def ev1 : Env := { id := 1, ver := 2, mask := 1, flags := 0, words := List.replicate 10 0, tambMin := 0, locked := true, slot := 1 }
def spUp : State := setSpCh (setPsCh (setReg up .spChCfg 0 0xF) 0 { psCh up 0 with st := .run }) 0 { spCh up 0 with winFrames := 999999, badRun := 3, openRun := 1, latch := true }
def spIn (f : SpCh → SpCh) : State := setSpCh spUp 0 (f (spCh spUp 0))

theorem witness_PilotWindows :
    (∃ (c : Fin 12) (s : State), windowFull s c.val = true ∧ (psCh s c.val).st ≠ .run ∧ (psCh s c.val).st ≠ .quiet) ∧
    (∃ (c : Fin 12) (s : State), windowFull s c.val = true ∧ (psCh s c.val).st = .run ∨ (psCh s c.val).st = .quiet ∧
      pilotWeak s c.val = true ∧ (spCh s c.val).badRun = 3 ∧ evtOpen s 1) ∧
    (∃ (c : Fin 12) (s : State), windowFull s c.val = true ∧ (psCh s c.val).st = .run ∨ (psCh s c.val).st = .quiet ∧
      pilotWeak s c.val = false ∧ pilotOpen s c.val = true ∧ (spCh s c.val).openRun = 1 ∧ (spCh s c.val).open_ = false ∧
      evtOpen s 1) ∧
    (∃ (c : Fin 12) (s : State), windowFull s c.val = true ∧ (psCh s c.val).st = .run ∨ (psCh s c.val).st = .quiet ∧
      pilotWeak s c.val = false ∧ pilotOpen s c.val = false) ∧
    (∃ (c : Fin 12) (s : State), windowFull s c.val = false) :=
  ⟨⟨0, setPsCh spUp 0 { psCh up 0 with st := .starting }, by decide +kernel⟩,
   ⟨0, setReg spUp .psChCfg 0 0x0FF00000, by decide +kernel⟩,
   ⟨0, spIn (fun x => { x with vi := 0x7F800000 }), by decide +kernel⟩,
   ⟨0, spIn (fun x => { x with vi := 0x7FC00000, ii := 0x4F800000 }), by decide +kernel⟩,
   ⟨1, spUp, by decide +kernel⟩⟩

theorem witness_ProtectionWrites :
    (∃ (c : Fin 12) (s : State), inWindow s = true ∧ (spCh s c.val).latch = true ∧ evtOpen s 1) ∧
    (∃ (s : State), inWindow s = true) ∧
    (∃ (c : Fin 12) (off : Fin 64) (n : RegName) (v : Word) (s : State), (inWindow s = true ∧ spRegs.find? (fun n =>
      regOff n 0 == 0x38100 + off.val) = some n ∧ (n = .spChCtrl → bit v 31 = false) ∧ regAccept n c.val (reg s n c.val)
      (mergeReg n c.val (reg s n c.val) v) = true) ∧ (∀ e, (spCh s c.val).env = some e → e.locked = false ∨ asStrict e n
      (reg s n c.val) (mergeReg n c.val (reg s n c.val) v) = true)) ∧
    (∃ (c : Fin 12) (off : Fin 64) (n : RegName) (v : Word) (e : Env) (s : State), inWindow s = true ∧ spRegs.find?
      (fun n => regOff n 0 == 0x38100 + off.val) = some n ∧ (spCh s c.val).env = some e ∧ e.locked = true ∧ asStrict e n
      (reg s n c.val) (mergeReg n c.val (reg s n c.val) v) = false ∧ evtOpen s 1) ∧
    (∃ (s : State), inWindow s = false) ∧
    (∃ (c : Cmd) (d : Dma) (b : Bytes) (s : State), (fieldsOk c [(0, wordAll), (1, 0xFFFFFF), (2, 0x100)] = true ∧
      addrOk c 0 (fldN (pwN c 1) 23 0) = true ∧ cmdData s c d 0 (fldN (pwN c 1) 23 0) = some b) ∧ longReady s c 0x0030
      []) ∧
    (∃ (c : Cmd) (s : State), cmdReady s c 0x0031 ((maskChannels (pwN c 0 % 4096)).map (· + 0x11)) ∧ fieldsOk c [(0,
      0xFFF)] = true ∧ (∀ k ∈ maskChannels (pwN c 0 % 4096), ((spCh s k).env.map (·.locked)).getD false = false) ∧
      s.pl.st ≠ .paired) ∧
    (∃ (c : Cmd) (k : Nat) (s : State), cmdReady s c 0x0031 ((maskChannels (pwN c 0 % 4096)).map (· + 0x11)) ∧ fieldsOk
      c [(0, 0xFFF)] = true ∧ (maskChannels (pwN c 0 % 4096)).find? (fun k => ((spCh s k).env.map (·.locked)).getD
      false) = some k) :=
  ⟨⟨0, win spUp, by decide +kernel⟩,
   ⟨win spUp, by decide +kernel⟩,
   ⟨0, ⟨8, by decide⟩, .spLimT, 0x000A0300, win up, by decide +kernel, by rintro _ ⟨⟩⟩,
   ⟨0, ⟨8, by decide⟩, .spLimT, 0x000A0300, ev1, win (setSpCh spUp 0 { spCh spUp 0 with env := some ev1 }),
      by decide +kernel⟩,
   ⟨up, by decide +kernel⟩,
   ⟨cmdOf [0x1000, 32], some (List.replicate 32 0), List.replicate 32 0, asked 0x0030 (cmdOf [0x1000, 32]) up,
      by decide +kernel, ⟨by decide +kernel, rfl, .inl rfl⟩⟩,
   ⟨cmdOf [3], asked 0x0031 (cmdOf [3]) up, by decide +kernel⟩,
   ⟨cmdOf [1], 0, asked 0x0031 (cmdOf [1]) (setSpCh spUp 0 { spCh spUp 0 with env := some ev1 }), by decide +kernel⟩⟩

end Protection

namespace Inputs

def aiIs (n : Nat) (x : AiCh) : State := setAiCh up n x

theorem witness_InputStarts :
    (∃ (n : Fin 16) (s : State), inWindow s = true ∧ (aiCh s n.val).st = .off ∧ domOn s domAIN = true) ∧
    (∃ (s : State), inWindow s = true ∧ domOn s domAIN = false) ∧
    (∃ (n : Fin 16) (s : State), (aiCh s n.val).st = .precharge) ∧
    (∃ (q : Fin 48) (s : State), q.val < 16 ∧ (aiCh s q.val).st = .settling ∧ (aiCh s q.val).settle = some 0) ∧
    (∃ (q : Fin 48) (s : State), 16 ≤ q.val ∧ (pdm s (q.val - 16)).settle = some 0) ∧
    (∃ (q : Fin 48) (s : State), inWindow s = true ∧ q.val < 16 ∧ domOn s domAIN = true ∧ rb s .aiChCfg q.val 31 =
      true) ∧
    (∃ (q : Fin 48) (s : State), inWindow s = true ∧ q.val < 16 ∧ (domOn s domAIN = false ∨ rb s .aiChCfg q.val 31 =
      false)) ∧
    (∃ (q : Fin 48) (s : State), inWindow s = true ∧ 16 ≤ q.val) ∧
    (∃ (s : State), inWindow s = false) :=
  ⟨⟨2, win up, by decide +kernel⟩,
   ⟨win { up with pd := { up.pd with on := 3 } }, by decide +kernel⟩,
   ⟨2, aiIs 2 { AiCh.reset with st := .precharge }, by decide +kernel⟩,
   ⟨2, aiIs 2 { AiCh.reset with st := .settling, settle := some 0 }, by decide +kernel⟩,
   ⟨20, setPdm up 4 { Pdm.reset with settle := some 0 }, by decide +kernel⟩,
   ⟨2, win (setBit (aiIs 2 { AiCh.reset with st := .running }) .aiChCfg 2 31 true), by decide +kernel⟩,
   ⟨2, win up, by decide +kernel⟩,
   ⟨20, win up, by decide +kernel⟩,
   ⟨up, by decide +kernel⟩⟩

theorem witness_GainAndPaths :
    (∃ (n : Fin 16) (g : Fin 121) (s : State), inWindow s = true ∧ domOn s domAIN = true ∧ rf s .aiChCfg n.val 6 0 ≠
      g.val ∧ (rb s .aiChCfg n.val 31 = true → (aiCh s n.val).st ≠ .off)) ∧
    (∃ (t : Frac) (n : Fin 16) (g : Nat) (a : Nat) (s : State), (aiCh s n.val).zc = some (g, a) ∧ a ≤ nowTicks (atT s
      t)) ∧
    (∃ (t : Frac) (n : Fin 16) (g : Nat) (a : Nat) (s : State), (aiCh s n.val).zc = some (g, a) ∧ a + 20 * tMs ≤
      nowTicks (atT s t) ∧ evtOpen s 1) ∧
    (∃ (t : Frac) (n : Fin 16) (s : State), dual s n.val = true ∧ (fadeTo (aiCh s n.val) t 1).weight ≠ 0) ∧
    (∃ (t : Frac) (n : Fin 16) (s : State), dual s n.val = true ∧ (fadeTo (aiCh s n.val) t 1).weight ≠ 16) ∧
    (∃ (t : Frac) (n : Fin 16) (s : State), dual s n.val = true ∧ (fadeTo (aiCh s n.val) t 0).weight ≠ 0 ∧ (aiCh s
      n.val).forcedAt = 0 ∧ evtOpen s 1) ∧
    (∃ (t : Frac) (o : Owner) (v : Word) (s : State), writeTaken s t o 0x40010 0x2A ∧ bit v 31 = false ∧ fld v 5 0 <
      48) :=
  ⟨⟨2, 40, win up, by decide +kernel⟩,
   ⟨3, 2, 40, 0, aiIs 2 { AiCh.reset with zc := some (40, 0) }, by decide +kernel⟩,
   ⟨3, 2, 40, 0, { aiIs 2 { AiCh.reset with zc := some (40, 0) } with fr := { up.fr with ticks := 999999999 } },
      by decide +kernel⟩,
   ⟨3, 2, aiIs 2 { AiCh.reset with st := .running, weight := 16 }, by decide +kernel⟩,
   ⟨3, 2, aiIs 2 { AiCh.reset with st := .running, weight := 8 }, by decide +kernel⟩,
   ⟨3, 2, aiIs 2 { AiCh.reset with st := .running, weight := 8 }, by decide +kernel⟩,
   ⟨3, .host, 5, up, by decide +kernel⟩⟩

theorem witness_MicsAndJacks :
    (∃ (m : Fin 32) (s : State), pdmLive s m.val = true ∧ (pdm s m.val).stuck = false ∧ evtOpen s 1) ∧
    (∃ (m : Fin 32) (s : State), (pdm s m.val).stuck = true ∧ evtOpen s 1) ∧
    (∃ (b : Fin 4) (s : State), inWindow s = true ∧ domOn s domAIN = true ∧ (bias s b.val).on = false ∧ (bias s
      b.val).short = false ∧ (∀ j, j ∈ liveJacks s → rb s .aiJack j (24 + b.val) = false)) ∧
    (∃ (b : Fin 4) (s : State), inWindow s = true ∧ (bias s b.val).on = true) ∧
    (∃ (b : Fin 4) (s : State), (bias s b.val).on = true ∧ evtOpen s 1) ∧
    (∃ (j : Fin 8) (n : Nat) (s : State), rb s .aiJack j.val 31 = true ∧ jackHeld (rtcAdvance s n) (aiJack s j.val)
      j.val (reg s .aiJack j.val) = true ∧ evtOpen s 1) ∧
    (∃ (t : Frac) (j : Fin 8) (s : State), inWindow s = true ∧ jackDue (atT s t) j.val = true ∧ (aiJack s j.val).pend =
      false) :=
  ⟨⟨2, setBit (setPdmClk up 0 { PdmClock.reset with run := true }) .aiPdmCh 2 31 true, by decide +kernel⟩,
   ⟨2, setPdm up 2 { Pdm.reset with stuck := true }, by decide +kernel⟩,
   ⟨2, win up, by decide +kernel⟩,
   ⟨2, win (setBias up 2 { Bias.reset with on := true }), by decide +kernel⟩,
   ⟨2, setBias up 2 { Bias.reset with on := true }, by decide +kernel⟩,
   ⟨2, 9999, { up with regs := (setBit up .aiJack 2 31 true).regs, pd := { up.pd with awc := [(2, true)] } },
      by decide +kernel⟩,
   ⟨3, 2, win (setAiJack (setBit up .aiJack 2 31 true) 2 { Jack.reset with plugged := true, biasOk := true }),
      by decide +kernel⟩⟩

end Inputs

namespace Outputs

def outIs (o : Nat) (x : Outp) : State := let s := setOutp up o x; { s with aq := { s.aq with cpRun := true } }
def outOk : State := let s := outIs 2 { Outp.reset with st := .running }; { s with aq := { s.aq with cpOk := true } }
def outBad : State := let s := setBit (outIs 2 { Outp.reset with st := .fault, cause := 3 }) .aqOutCfg 2 31 true; { s with aq := { s.aq with cpFault := true } }
def hpUp : State := setHpJack (setBit (setOutp up 18 { Outp.reset with st := .running, jack := .zero, jackMute := true }) .aqHpJack 1 31 true) 1 { Jack.reset with plugged := true, pend := true }
def late (s : State) : State := { s with fr := { s.fr with ticks := 999999999 } }

theorem witness_OutputStartsAndStops :
    (∃ (o : Fin 24) (s : State), inWindow s = true ∧ (outp s o.val).st = .shunted ∧ domOn s domAOUT = true) ∧
    (∃ (s : State), inWindow s = true ∧ domOn s domAOUT = false) ∧
    (∃ (s : State), inWindow s = false) ∧
    (∃ (o : Fin 24) (s : State), (outp s o.val).st = .starting ∧ (outp s o.val).phase = .pump ∧ s.aq.cpRun = true) ∧
    (∃ (o : Fin 24) (s : State), (outp s o.val).st = .starting ∧ (outp s o.val).phase = .driver) ∧
    (∃ (o : Fin 24) (s : State), (outp s o.val).st = .starting ∧ (outp s o.val).phase = .ramp ∧ rampAtOne (outp s
      o.val).gain = true ∧ evtOpen s 1) ∧
    (∃ (o : Fin 24) (s : State), inWindow s = true ∧ domOn s domAOUT = true ∧ (outp s o.val).st = .running) ∧
    (∃ (o : Fin 24) (s : State), (outp s o.val).st = .stopping ∧ (outp s o.val).phase = .rampDown ∧ rampAtZero (outp s
      o.val).gain = true) ∧
    (∃ (o : Fin 24) (s : State), (outp s o.val).st = .stopping ∧ (outp s o.val).phase = .closed ∧ evtOpen s 1) ∧
    (∃ (o : Fin 24) (s : State), (outp s o.val).hold = some 0) :=
  ⟨⟨2, win up, by decide +kernel⟩,
   ⟨win { up with pd := { up.pd with on := 3 } }, by decide +kernel⟩,
   ⟨up, by decide +kernel⟩,
   ⟨2, outIs 2 { Outp.reset with st := .starting, phase := .pump }, by decide +kernel⟩,
   ⟨2, outIs 2 { Outp.reset with st := .starting, phase := .driver }, by decide +kernel⟩,
   ⟨2, outIs 2 { Outp.reset with st := .starting, phase := .ramp, gain := .one }, by decide +kernel⟩,
   ⟨2, win (outIs 2 { Outp.reset with st := .running }), by decide +kernel⟩,
   ⟨2, outIs 2 { Outp.reset with st := .stopping, phase := .rampDown, gain := .zero }, by decide +kernel⟩,
   ⟨2, outIs 2 { Outp.reset with st := .stopping, phase := .closed, gain := .zero }, by decide +kernel⟩,
   ⟨2, outIs 2 { Outp.reset with hold := some 0 }, by decide +kernel⟩⟩

theorem witness_OutputFaults :
    (∃ (o : Fin 24) (l : ShortLeg) (s : State), driving (outp s o.val) = true ∧ (l = .headphone ↔ 16 ≤ o.val) ∧ evtOpen
      s 1) ∧
    (∃ (s : State), s.aq.cpRun = true ∧ (s.aq.cpFault = false ∨ allOut.any (outLive s) = true) ∧ evtOpen s 1) ∧
    (∃ (s : State), s.aq.cpFault = true ∧ domOn s domAOUT = true ∧ evtOpen s 1) ∧
    (∃ (s : State), evtOpen s 1) ∧
    (∃ (s : State), (∀ o, o < 24 → outLive s o = false)) :=
  ⟨⟨2, .lineN, outOk, by decide +kernel⟩,
   ⟨outOk, by decide +kernel⟩,
   ⟨outBad, by decide +kernel⟩,
   ⟨outOk, by decide +kernel⟩,
   ⟨outBad, by decide +kernel⟩⟩

theorem witness_HeadphoneJacks :
    (∃ (h : Fin 4) (n : Nat) (s : State), rb s .aqHpJack h.val 31 = true ∧ jackHeld (rtcAdvance s n) (hpJack s h.val)
      (rf s .aqHpJack h.val 26 24) (reg s .aqHpJack h.val) = true ∧ evtOpen s 1) ∧
    (∃ (t : Frac) (h : Fin 4) (s : State), inWindow s = true ∧ domOn s domAOUT = true ∧ rb s .aqHpJack h.val 31 = true
      ∧ (hpJack s h.val).plugged = true ∧ (hpJack s h.val).released = false ∧ (hpJack s h.val).changedAt + rf s
      .aqHpJack h.val 15 8 * tMs ≤ nowTicks (atT s t)) ∧
    (∃ (t : Frac) (h : Fin 4) (s : State), inWindow s = true ∧ domOn s domAOUT = false ∧ rb s .aqHpJack h.val 31 = true
      ∧ (hpJack s h.val).plugged = true ∧ (hpJack s h.val).released = false ∧ (hpJack s h.val).changedAt + rf s
      .aqHpJack h.val 15 8 * tMs ≤ nowTicks (atT s t)) :=
  ⟨⟨1, 9999, late (setReg { hpUp with pd := { hpUp.pd with awc := [(2, false)] } } .aqHpJack 1 0x82000000),
      by decide +kernel⟩,
   ⟨3, 1, win (late hpUp), by decide +kernel⟩,
   ⟨3, 1, { win (late hpUp) with pd := { up.pd with on := 3 } }, by decide +kernel⟩⟩

end Outputs

namespace Ports

def portIs (p : Nat) (x : Port) : State := setPort up p x
def clk (fs din : Bool) : BitClock := { fsRise := fs, dinRise := din, fsFall := fs, dinFall := din }
def pfr : PortFrame := { clocks := [clk false false, clk true true], inPhase := true, ratio := 0x10000000, rate := 48000, phase := 0, periodOff := false, outOfRange := false, slip := false }
def pfrOf (f : Word) (n : Nat) : PortFrame := { pfr with clocks := clk (startLevel f) true :: (List.replicate (n - 1) (clk (!startLevel f) true) ++ [clk (startLevel f) false]) }
def fmt2 : Word := reg up .dpFmt 2

theorem witness_PortStates :
    (∃ (p : Fin 8) (s : State), inWindow s = true ∧ (port s p.val).st = .off ∧ domOn s domPORT = true ∧ enableReason s
      p.val = none) ∧
    (∃ (p : Fin 8) (r : Nat) (s : State), inWindow s = true ∧ (port s p.val).st = .off ∧ domOn s domPORT = true ∧
      enableReason s p.val = some r ∧ evtOpen s 1) ∧
    (∃ (p : Fin 8) (s : State), inWindow s = true ∧ (port s p.val).st = .wait ∧ evtOpen s 1) ∧
    (∃ (p : Fin 8) (s : State), inWindow s = true ∧ portTracks s p.val = true ∧ (port s p.val).missing = false) ∧
    (∃ (t : Frac) (o : Owner) (p : Fin 8) (v : Word) (s : State), writeTaken s t o (regOff .dpFmt p.val) (0x2C + p.val)
      ∧ (port s p.val).st = .off ∧ regAccept .dpFmt p.val (reg s .dpFmt p.val) (mergeReg .dpFmt p.val (reg s .dpFmt
      p.val) v) = true) ∧
    (∃ (t : Frac) (o : Owner) (p : Fin 8) (s : State), writeTaken s t o (regOff .dpFmt p.val) (0x2C + p.val) ∧ (port s
      p.val).st ≠ .off) ∧
    (∃ (s : State), inWindow s = false) ∧
    (∃ (p : Fin 8) (s : State), (port s p.val).st = .acquire ∧ 512 ≤ (port s p.val).phaseOk ∧ evtOpen s 1) ∧
    (∃ (p : Fin 8) (s : State), portTracks s p.val = true ∧ (port s p.val).missing = false ∧ (port s p.val).stopping =
      false ∧ evtOpen s 1) :=
  ⟨⟨2, win (setReg up .dpFmt 2 0x4000), by decide +kernel⟩,
   ⟨2, (enableReason (setReg up .dpFmt 2 0x80004000) 2).getD 0, win (setReg up .dpFmt 2 0x80004000), by decide +kernel⟩,
   ⟨2, win (portIs 2 { Port.reset with st := .wait }), by decide +kernel⟩,
   ⟨2, win (portIs 2 { Port.reset with st := .running }), by decide +kernel⟩,
   ⟨3, .host, 2, 0x4000, up, by decide +kernel⟩,
   ⟨3, .host, 2, portIs 2 { Port.reset with st := .running }, by decide +kernel⟩,
   ⟨up, by decide +kernel⟩,
   ⟨2, portIs 2 { Port.reset with st := .acquire, phaseOk := 512 }, by decide +kernel⟩,
   ⟨2, portIs 2 { Port.reset with st := .running }, by decide +kernel⟩⟩

theorem witness_PortFrames :
    (∃ (t : Frac) (p : Fin 8) (x : PortFrame) (s : State), (port s p.val).st = .wait ∧ frameBegins (atT s t) p.val x =
      true ∧ (port s p.val).rx.pend = none ∧ (port s p.val).tx.pend = none) ∧
    (∃ (t : Frac) (p : Fin 8) (x : PortFrame) (s : State), portTracks s p.val = true ∧ frameBegins (atT s t) p.val x =
      true ∧ (port s p.val).missing = false ∧ (port s p.val).stopping = false ∧ (port s p.val).rx.pend = none ∧ (port s
      p.val).tx.pend = none ∧ countedLen (reg s .dpFmt p.val) x = frameLen (reg s .dpFmt p.val) ∧ x.periodOff = false ∧
      x.outOfRange = false ∧ x.slip = false) ∧
    (∃ (t : Frac) (p : Fin 8) (x : PortFrame) (s : State), portTracks s p.val = true ∧ frameBegins (atT s t) p.val x =
      true ∧ (port s p.val).missing = false ∧ (port s p.val).stopping = false ∧ (port s p.val).rx.pend = none ∧ (port s
      p.val).tx.pend = none ∧ countedLen (reg s .dpFmt p.val) x ≠ frameLen (reg s .dpFmt p.val) ∧ (port s p.val).wrong <
      15 ∧ x.periodOff = false ∧ x.outOfRange = false ∧ x.slip = false) ∧
    (∃ (t : Frac) (p : Fin 8) (x : PortFrame) (s : State), portTracks s p.val = true ∧ frameBegins (atT s t) p.val x =
      true ∧ (port s p.val).missing = true ∧ (port s p.val).rx.pend = none ∧ (port s p.val).tx.pend = none) ∧
    (∃ (t : Frac) (p : Fin 8) (x : PortFrame) (s : State), portTracks s p.val = true ∧ frameBegins (atT s t) p.val x =
      true ∧ (port s p.val).missing = false ∧ (port s p.val).stopping = true) ∧
    (∃ (t : Frac) (p : Fin 8) (x : PortFrame) (s : State), (port s p.val).st = .off ∨ frameBegins (atT s t) p.val x =
      false) :=
  ⟨⟨3, 2, pfrOf fmt2 5, portIs 2 { Port.reset with st := .wait }, by decide +kernel⟩,
   ⟨3, 2, pfrOf fmt2 (frameLen fmt2), portIs 2
      { Port.reset with st := .running, ratio := 0x10000000, rx := { SlotMask.reset with active := 5 } },
      by decide +kernel⟩,
   ⟨3, 2, pfrOf fmt2 5, portIs 2 { Port.reset with st := .running }, by decide +kernel⟩,
   ⟨3, 2, pfrOf fmt2 5, portIs 2 { Port.reset with st := .acquire, missing := true }, by decide +kernel⟩,
   ⟨3, 2, pfrOf fmt2 5, portIs 2 { Port.reset with st := .running, stopping := true }, by decide +kernel⟩,
   ⟨3, 2, { pfr with clocks := [] }, portIs 2 { Port.reset with st := .running }, by decide +kernel⟩⟩

theorem witness_SlotMasks :
    (∃ (t : Frac) (o : Owner) (p : Fin 8) (rx : Bool) (s : State), writeTaken s t o (regOff (maskReg rx) p.val) (0x2C +
      p.val) ∧ rb s .dpFmt p.val 12 = false ∧ domOn s domPORT = true ∧ (port s p.val).st = .off) ∧
    (∃ (t : Frac) (o : Owner) (p : Fin 8) (rx : Bool) (s : State), writeTaken s t o (regOff (maskReg rx) p.val) (0x2C +
      p.val) ∧ rb s .dpFmt p.val 12 = false ∧ domOn s domPORT = true ∧ (port s p.val).st ≠ .off) ∧
    (∃ (t : Frac) (o : Owner) (p : Fin 8) (rx : Bool) (s : State), writeTaken s t o (regOff (maskReg rx) p.val) (0x2C +
      p.val) ∧ rb s .dpFmt p.val 12 = false ∧ domOn s domPORT = true ∧ (port s p.val).st ≠ .off) ∧
    (∃ (t : Frac) (o : Owner) (p : Fin 8) (rx : Bool) (s : State), writeTaken s t o (regOff (maskReg rx) p.val) (0x2C +
      p.val) ∧ rb s .dpFmt p.val 12 = false ∧ domOn s domPORT = false) ∧
    (∃ (t : Frac) (o : Owner) (p : Fin 8) (rx : Bool) (s : State), writeTaken s t o (regOff (maskReg rx) p.val) (0x2C +
      p.val) ∧ rb s .dpFmt p.val 12 = true ∧ mirrors s (0x2C + p.val) = false) :=
  ⟨⟨3, .host, 2, true, up, by decide +kernel⟩,
   ⟨3, .host, 2, false, portIs 2 { Port.reset with st := .running }, by decide +kernel⟩,
   ⟨3, .host, 2, false, portIs 2 { Port.reset with st := .running }, by decide +kernel⟩,
   ⟨3, .host, 2, true, { up with pd := { up.pd with on := 3 } }, by decide +kernel⟩,
   ⟨3, .host, 2, true, setBit up .dpFmt 2 12 true, by decide +kernel⟩⟩

end Ports

namespace Clocks

def pllOn : State := setPll up 0 { Pll.reset with on := true }
def pllLk : State := setPll (setPll up 0 { Pll.reset with on := true, lock := true }) 1 { Pll.reset with on := true, lock := true }
def refIs (x : Ref) : State := setRef up 4 x
def selIs (x : SelState) (b : Bool) : State := { up with ck := { up.ck with sel := x, tracking := b, active := 5 } }
def fswIn : State := let s := setPll up 2 { Pll.reset with on := true }
  { s with hl := { s.hl with order := [{ src := .host, slot := 4, id := 9, opcode := 0x41, idx := 3, noIrq := false, done := none }] }, ck := { s.ck with fswNew := [(200, 4, 7)], suspended := true } }
def lk (j : Nat) : State := { setPll up j { Pll.reset with on := true, lock := true } with pl := { up.pl with lanes := 2 } }

theorem witness_PllsAndCrystal :
    (∃ (j : Fin 4) (b : Fin 64) (q : Pll) (s : State), domOn s domCLK = true ∧ (pll s j.val).lock = false ∧ (pll s
      j.val).on = true ∧ s.ck.xtalOk = true ∧ j.val ≠ 2 ∧ s.hl.afterDone = none ∧ lockPll (pll s j.val) (pllKey s j.val)
      b.val false = some q ∧ evtOpen s 1) ∧
    (∃ (b : Fin 64) (q : Pll) (v : Nat) (fn : Nat) (x : CmpSlot) (s : State), domOn s domCLK = true ∧ (pll s 2).lock =
      false ∧ (pll s 2).on = true ∧ s.ck.xtalOk = true ∧ s.hl.afterDone = none ∧ lockPll (pll s 2) (pllKey s 2) b.val
      false = some q ∧ s.ck.fswNew = [(v, x.slot, fn)] ∧ s.hl.order = [x] ∧ x.src ≠ .peer ∧ (x.src = .host → ringsOpen s
      = true) ∧ s.hl.busy = none ∧ x.done = none ∧ evtOpen s 2) ∧
    (∃ (j : Fin 4) (s : State), domOn s domCLK = true ∧ (pll s j.val).lock = true ∧ j.val ≠ strobePll s.fr.rate ∧
      evtOpen s 1) ∧
    (∃ (s : State), domOn s domCLK = true ∧ (pll s (strobePll s.fr.rate)).lock = true ∧ s.ck.gap = none ∧ evtOpen s 1) ∧
    (∃ (s : State), domOn s domCLK = true ∧ s.ck.xtalOk = true ∧ evtOpen s 1) ∧
    (∃ (s : State), domOn s domCLK = true ∧ s.ck.xtalOk = false ∧ evtOpen s 2) ∧
    (∃ (t : Frac) (o : Owner) (s : State), writeTaken s t o 0x58020 0x34) :=
  ⟨⟨0, 9, (lockPll (pll pllOn 0) (pllKey pllOn 0) 9 false).getD Pll.reset, pllOn, by decide +kernel⟩,
   ⟨9, (lockPll (pll fswIn 2) (pllKey fswIn 2) 9 false).getD Pll.reset, 200, 7,
      { src := .host, slot := 4, id := 9, opcode := 0x41, idx := 3, noIrq := false, done := none }, fswIn,
      by decide +kernel⟩,
   ⟨1, pllLk, by decide +kernel⟩,
   ⟨pllLk, by decide +kernel⟩,
   ⟨pllLk, by decide +kernel⟩,
   ⟨{ up with ck := { up.ck with xtalOk := false } }, by decide +kernel⟩,
   ⟨3, .host, setPll up 0 { Pll.reset with cache := [(0, CacheEnt.free)] }, by decide +kernel⟩⟩

theorem witness_ReferenceSources :
    (∃ (r : RefSource) (s : State), domOn s domCLK = true ∧ (refOf s r.val).st = .qualified ∧ evtOpen s 1) ∧
    (∃ (r : RefSource) (s : State), domOn s domCLK = true ∧ (refOf s r.val).st = .qualifying) ∧
    (∃ (r : RefSource) (s : State), domOn s domCLK = true ∧ (refOf s r.val).st = .absent) ∧
    (∃ (r : RefSource) (o : BitVec 24) (s : State), domOn s domCLK = true ∧ (refOf s r.val).st = .absent ∨ (refOf s
      r.val).st = .qualifying ∧ 5 * o.toInt.natAbs ≤ 4 * refWin s r.val ∧ evtOpen s 1) ∧
    (∃ (r : RefSource) (o : BitVec 24) (s : State), domOn s domCLK = true ∧ (refOf s r.val).st = .qualified ∧ refWin s
      r.val < o.toInt.natAbs ∧ evtOpen s 1) ∧
    (∃ (r : RefSource) (s : State), (refOf s r.val).st = .qualified) :=
  ⟨⟨4, refIs { Ref.reset with st := .qualified, offset := -5 }, by decide +kernel⟩,
   ⟨4, refIs { Ref.reset with st := .qualifying }, by decide +kernel⟩,
   ⟨4, refIs { Ref.reset with st := .absent }, by decide +kernel⟩,
   ⟨4, 7, refIs { Ref.reset with st := .absent }, by decide +kernel⟩,
   ⟨4, 0x7FFFFF, refIs { Ref.reset with st := .qualified }, by decide +kernel⟩,
   ⟨4, refIs { Ref.reset with st := .qualified }, by decide +kernel⟩⟩

theorem witness_LockAndSteer :
    (∃ (o : Int) (s : State), s.ck.sel = .freqAcq ∧ -400000000 ≤ o ∧ o ≤ 400000000) ∧
    (∃ (o : Int) (s : State), s.ck.sel = .freqAcq ∧ 500000000 < o ∧ s.ck.clampAt = 0 ∧ evtOpen s 1) ∧
    (∃ (e : Word) (s : State), s.ck.sel = .phaseWalk ∧ s.ck.tracking = false ∧ e.toInt.natAbs ≤ 200) ∧
    (∃ (e : Word) (s : State), s.ck.sel = .phaseWalk ∧ s.ck.tracking = true ∧ e.toInt.natAbs ≤ 200 ∧ evtOpen s 1) ∧
    (∃ (t : Frac) (o : Owner) (v : Word) (s : State), writeTaken s t o 0x58008 0x34 ∧ regAccept .ckSteer 0 0 v = true) ∧
    (∃ (k : Fin 2) (r : Bool) (s : State), domOn s domCLK = true ∧ rb s .ckFpCfg k.val 31 = true ∧ rf s .ckFpCfg k.val
      27 24 ≠ 0 ∧ tget false s.ck.fpStop k.val = r ∧ evtOpen s 1) :=
  ⟨⟨-77, selIs .freqAcq false, by decide +kernel⟩,
   ⟨500000077, selIs .freqAcq false, by decide +kernel⟩,
   ⟨77, selIs .phaseWalk false, by decide +kernel⟩,
   ⟨77, selIs .phaseWalk true, by decide +kernel⟩,
   ⟨3, .host, 1000, { up with ck := { up.ck with move := some (5, 6) } }, by decide +kernel⟩,
   ⟨1, false, setReg up .ckFpCfg 1 0x83000000, by decide +kernel⟩⟩

theorem witness_RateChanges :
    (∃ (c : Cmd) (s : State), (fieldsOk c [(0, 0xF)] = true ∧ pwN c 0 < 6 ∧ domOn s domCLK = true ∧ pwN c 0 ≠ s.fr.rate
      ∧ (admitRequest s (testBudget s (pwN c 0)) (recipesFit s (pwN c 0))).1 = 0 ∧ strUnfit s (pwN c 0) = none ∧ mirrors
      s 0x34 = false) ∧ longReady s c 0x0040 [0x34]) ∧
    (∃ (c : Cmd) (s : State), cmdReady s c 0x0040 [0x34] ∧ fieldsOk c [(0, 0xF)] = true ∧ pwN c 0 < 6 ∧ domOn s domCLK
      = false) ∧
    (∃ (c : Cmd) (s : State), cmdReady s c 0x0040 [0x34] ∧ fieldsOk c [(0, 0xF)] = true ∧ pwN c 0 < 6 ∧ domOn s domCLK
      = true ∧ pwN c 0 = s.fr.rate) ∧
    (∃ (c : Cmd) (s : State), cmdReady s c 0x0040 [0x34] ∧ fieldsOk c [(0, 0xF)] = true ∧ pwN c 0 < 6 ∧ domOn s domCLK
      = true ∧ pwN c 0 ≠ s.fr.rate ∧ (admitRequest s (testBudget s (pwN c 0)) (recipesFit s (pwN c 0))).1 ≠ 0) ∧
    (∃ (g : Gap) (s : State), s.ck.gap = some g ∧ s.fr.running = false ∧ s.ck.xtalOk = true ∧ (pll s (strobePll
      s.fr.rate)).lock = true ∧ g.command = false ∧ evtOpen s 1) ∧
    (∃ (c : Cmd) (s : State), cmdReady s c 0x0041 [0x29] ∧ fieldsOk c [(0, 0x3FF)] = true ∧ within 128 512 (pwN c 0) =
      true ∧ mirrors s 0x29 = false) :=
  ⟨⟨cmdOf [3], asked 0x0040 (cmdOf [3]) up, by decide +kernel, ⟨by decide +kernel, rfl, .inl rfl⟩⟩,
   ⟨cmdOf [3], asked 0x0040 (cmdOf [3]) { up with pd := { up.pd with on := 3 } }, by decide +kernel⟩,
   ⟨cmdOf [1], asked 0x0040 (cmdOf [1]) up, by decide +kernel⟩,
   ⟨cmdOf [5], asked 0x0040 (cmdOf [5])
      { up with mx := { up.mx with lA := 0, lB := 0, xp := [(5, { Xp.none with cur := 1 })] } }, by decide +kernel⟩,
   ⟨{ old := 1, new := 3, command := false },
      { pllLk with fr := { up.fr with running := false, rate := 3 }, ck := { pllLk.ck with gap := some { old := 1, new := 3, command := false } } },
      by decide +kernel⟩,
   ⟨cmdOf [200], asked 0x0041 (cmdOf [200]) up, by decide +kernel⟩⟩

end Clocks

namespace Sense

def adc : AdcIn := { samples := [0x3C00], integral := 0x123456, beyond := false, trimmed := 0 }
def scOn : State := setReg (setReg (setReg (setReg up .scConvCfg 0 (4 <<< 10)) .scEntry0 1 0xA0000000) .scEntry0 0 0x80000000) .scEntry1 1 0x80004000
def scWait : State := setReg up .scConvCfg 0 ((4 <<< 10) ||| (1 <<< 29))
def scRun (p : Nat) : State := setScEnt (setConv scOn 0 { Conv.reset with st := .running, pos := p }) 1 { ScEntry.reset with prev := some (0x3000, 65536 * 4) }
def sg : Seg := { p0 := 0x3000, p1 := posOf (scRun 1) 1 (resultOf (scRun 1) 1 (rawOf (scRun 1) 0 0 adc) 0), t0 := 65536 * 4, t1 := 5 * 65536 + 3, h := rf (scRun 1) .scConvHyst 0 15 0 }
def scGang : State := setReg (setReg (setReg (setReg (setReg up .scCfg 0 2) .scConvCfg 0 ((4 <<< 10) ||| (1 <<< 29))) .scConvCfg 1 ((8 <<< 20) ||| (4 <<< 10))) .scEntry0 1 0x80000000) .scEntry0 0 0x80000000

theorem witness_ScanStartsAndStops :
    (∃ (t : Frac) (o : Owner) (k : Fin 2) (s : State), writeTaken s t o (regOff .scConvCtrl k.val) 0x35 ∧ gang s =
      false ∧ (conv s k.val).st = .stopped ∧ startReason s k.val = none ∧ scTrig s k.val = 1) ∧
    (∃ (t : Frac) (o : Owner) (k : Fin 2) (j : Nat) (s : State), writeTaken s t o (regOff .scConvCtrl k.val) 0x35 ∧
      gang s = false ∧ (conv s k.val).st = .stopped ∧ startReason s k.val = none ∧ scTrig s k.val ≠ 1 ∧ nextPos s k.val
      0 = some j) ∧
    (∃ (t : Frac) (o : Owner) (k : Fin 2) (r : Nat × Nat) (s : State), writeTaken s t o (regOff .scConvCtrl k.val) 0x35
      ∧ gang s = false ∧ (conv s k.val).st = .stopped ∧ startReason s k.val = some r ∧ evtOpen s 2) ∧
    (∃ (t : Frac) (o : Owner) (k : Fin 2) (s : State), writeTaken s t o (regOff .scConvCtrl k.val) 0x35 ∧ gang s =
      false ∧ (conv s k.val).st ≠ .stopped ∧ (conv s k.val).urgentRun = none) ∧
    (∃ (k : Fin 2) (s : State), (conv s k.val).st ≠ .stopped ∧ (conv s k.val).urgentRun = none) ∧
    (∃ (t : Frac) (o : Owner) (s : State), writeTaken s t o (regOff .scConvCtrl 0) 0x35 ∧ gang s = true ∧ (conv s 0).st
      = .stopped ∧ startReason s 0 = none ∧ scTrig s 0 = 1) ∧
    (∃ (t : Frac) (o : Owner) (s : State), writeTaken s t o (regOff .scConvCtrl 1) 0x35 ∧ gang s = true) :=
  ⟨⟨3, .host, 0, scWait, by decide +kernel⟩,
   ⟨3, .host, 0, 0, scOn, by decide +kernel⟩,
   ⟨3, .host, 0, ((startReason up 0).getD (0, 0)), up, by decide +kernel⟩,
   ⟨3, .host, 0, scRun 0, by decide +kernel⟩,
   ⟨0, scRun 0, by decide +kernel⟩,
   ⟨3, .host, scGang, by decide +kernel⟩,
   ⟨3, .host, scGang, by decide +kernel⟩⟩

theorem witness_Conversions :
    (∃ (k : Fin 2) (e : Fin 512) (s : State), domOn s domAIN = true ∧ gang s = false ∧ (conv s k.val).st = .running ∧
      (conv s k.val).urgentRun = none ∧ e.val = scBase s k.val + (conv s k.val).pos ∧ posOn s k.val (conv s k.val).pos =
      true ∧ rf s .scEntry0 e.val 30 29 = 0) ∧
    (∃ (e : Fin 512) (f : Fin 512) (j : Nat) (s : State), domOn s domAIN = true ∧ gang s = true ∧ (conv s 0).st =
      .running ∧ (conv s 0).urgentRun = none ∧ (conv s 1).urgentRun = none ∧ scBase s 0 + scLen s 0 ≤ scBase s 1 ∧ e.val
      = scBase s 0 + (conv s 0).pos ∧ f.val = scBase s 1 + (conv s 0).pos ∧ (conv s 0).pos < scLen s 0 ∧ posOn s 0 (conv
      s 0).pos = true ∧ twinOn s (conv s 0).pos = true ∧ rf s .scEntry0 e.val 30 29 = 0 ∧ rf s .scEntry0 f.val 30 29 = 0
      ∧ scLen s 0 = scLen s 1 ∧ nextPos s 0 ((conv s 0).pos + 1) = some j) ∧
    (∃ (k : Fin 2) (e : Fin 512) (x : AdcIn) (fn : BitVec 48) (fr : Frac) (q : Nat × Nat) (g : Seg) (ta : Int) (tb :
      Int) (s : State), domOn s domAIN = true ∧ gang s = false ∧ (conv s k.val).st = .running ∧ (conv s k.val).urgentRun
      = none ∧ e.val = scBase s k.val + (conv s k.val).pos ∧ posOn s k.val (conv s k.val).pos = true ∧ rf s .scEntry0
      e.val 30 29 = 1 ∧ (scEnt s e.val).key = .rest ∧ (scEnt s e.val).prev = some q ∧ g =
      { p0 := q.1, p1 := posOf s e.val (resultOf s e.val (rawOf s k.val (rf s .scEntry0 e.val 9 7) x) x.trimmed), t0 := q.2, t1 := fn.toNat * 65536 + fr.toNat, h := rf s .scConvHyst k.val 15 0 }
      ∧ g.press (rf s .scEntry1 e.val 15 0) = some ta ∧ g.press (rf s .scEntry1 e.val 31 16) = some tb ∧ evtOpen s 1) ∧
    (∃ (k : Fin 2) (e : Fin 512) (s : State), domOn s domAIN = true ∧ (conv s k.val).urgentRun = some e.val) ∧
    (∃ (t : Frac) (o : Owner) (k : Fin 2) (s : State), writeTaken s t o (regOff .scUrgent k.val) 0x35 ∧ converting s
      k.val = false ∧ (conv s k.val).st ≠ .calibrating ∧ (conv s k.val).urgentRun = none ∧ domOn s domAIN = true) ∧
    (∃ (t : Frac) (o : Owner) (k : Fin 2) (l : Bool) (s : State), writeTaken s t o (regOff .scUrgent k.val) 0x35 ∧
      (conv s k.val).urgentRun ≠ none ∨ converting s k.val = true ∨ ((conv s k.val).st = .waiting ∧ l = true)) :=
  ⟨⟨0, 0, scRun 0, by decide +kernel⟩,
   ⟨0, 8, 1, setReg (setConv (setConv scGang 0 { Conv.reset with st := .running }) 1
      { Conv.reset with st := .running }) .scEntry0 8 0x80000000, by decide +kernel⟩,
   ⟨0, 1, adc, 5, 3, (0x3000, 65536 * 4), sg, ((sg.press 0x4000).getD 0), ((sg.press 0x8000).getD 0), scRun 1,
      by decide +kernel⟩,
   ⟨0, 1, setConv up 0 { Conv.reset with urgentRun := some 1 }, by decide +kernel⟩,
   ⟨3, .host, 1, up, by decide +kernel⟩,
   ⟨3, .host, 0, false, setConv up 0 { Conv.reset with urgentRun := some 1 }, by decide +kernel⟩⟩

theorem witness_Calibrations :
    (∃ (c : Cmd) (s : State), (fieldsOk c [(0, 0x3FF01FF0103), (1, 0xFFFFFF)] = true ∧ pwN c 0 % 4 = 1 ∧ calRange s
      (fldN (pwN c 0) 8 8) (fldN (pwN c 0) 24 16) (fldN (pwN c 0) 41 32) = true ∧ domOn s domAIN = true ∧ (conv s (fldN
      (pwN c 0) 8 8)).st = .stopped) ∧ longReady s c 0x0050 [0x35]) ∧
    (∃ (c : Cmd) (s : State), (fieldsOk c [(0, 0x3FF01FF0103), (1, 0xFFFFFF)] = true ∧ pwN c 0 % 4 = 2 ∧ calRange s
      (fldN (pwN c 0) 8 8) (fldN (pwN c 0) 24 16) (fldN (pwN c 0) 41 32) = true ∧ domOn s domAIN = true ∧ (conv s (fldN
      (pwN c 0) 8 8)).st = .stopped ∧ (∀ i, i < fldN (pwN c 0) 41 32 → (scEnt s (i + fldN (pwN c 0) 24 16)).zero ≠
      none)) ∧ longReady s c 0x0050 [0x35]) ∧
    (∃ (c : Cmd) (i : Nat) (s : State), cmdReady s c 0x0050 [0x35] ∧ fieldsOk c [(0, 0x3FF01FF0103), (1, 0xFFFFFF)] =
      true ∧ pwN c 0 % 4 = 2 ∧ calRange s (fldN (pwN c 0) 8 8) (fldN (pwN c 0) 24 16) (fldN (pwN c 0) 41 32) = true ∧
      domOn s domAIN = true ∧ (conv s (fldN (pwN c 0) 8 8)).st = .stopped ∧ i < fldN (pwN c 0) 41 32 ∧ (scEnt s (i +
      fldN (pwN c 0) 24 16)).zero = none) ∧
    (∃ (c : Cmd) (s : State), (fieldsOk c [(0, 0x3FF01FF0103), (1, 0xFFFFFF)] = true ∧ pwN c 0 % 4 = 3 ∧ (conv s (fldN
      (pwN c 0) 8 8)).st = .stopped) ∧ longReady s c 0x0050 [0x35]) :=
  ⟨⟨cmdOf [1 + 0x100000000 * 2 + 0x10000], asked 0x0050 (cmdOf [1 + 0x100000000 * 2 + 0x10000]) (setReg up .scConvCfg 0
      (4 <<< 10)), by decide +kernel, ⟨by decide +kernel, rfl, .inl rfl⟩⟩,
   ⟨cmdOf [2 + 0x100000000 * 1 + 0x10000, 5], asked 0x0050 (cmdOf [2 + 0x100000000 * 1 + 0x10000, 5]) (setScEnt (setReg
      up .scConvCfg 0 (4 <<< 10)) 1 { ScEntry.reset with zero := some 4 }), by decide +kernel, ⟨by decide +kernel, rfl,
      .inl rfl⟩⟩,
   ⟨cmdOf [2 + 0x100000000 * 2 + 0x10000, 5], 1, asked 0x0050 (cmdOf [2 + 0x100000000 * 2 + 0x10000, 5]) (setScEnt
      (setReg up .scConvCfg 0 (4 <<< 10)) 1 { ScEntry.reset with zero := some 4 }), by decide +kernel⟩,
   ⟨cmdOf [3], asked 0x0050 (cmdOf [3]) (up), by decide +kernel, ⟨by decide +kernel, rfl, .inl rfl⟩⟩⟩

end Sense

namespace HostLinks

def ringBusy : State := { up with hl := { up.hl with cmp := { up.hl.cmp with prod := 5 }, evt := { up.hl.evt with prod := 5 } } }
def fetchable : State := { up with hl := { up.hl with cmd := { up.hl.cmd with prod := 2 } } }
def ent (op ph : Nat) : Bytes := [BitVec.ofNat 8 op, 0, 0, BitVec.ofNat 8 (128 * ph)] ++ List.replicate 60 0

theorem witness_LinkCommandsComplete :
    (∃ (c : Cmd) (s : State), cmdReady s c 0x0001 [0x38] ∧ fieldsOk c [] = true) ∧
    (∃ (c : Cmd) (s : State), cmdReady s c 0x0002 [0x38] ∧ fieldsOk c [] = true) ∧
    (∃ (op : BitVec 16) (c : Cmd) (s : State), op.toNat ∉ listedOps ∧ inHand s op.toNat c = true ∧ s.hl.order = [] ∧
      (c.src = .host → ringsOpen s = true ∧ s.hl.orphan = false) ∧ s.hl.busy = none) ∧
    (∃ (op : BitVec 16) (c : Cmd) (s : State), (op.toNat ∈ listedOps ∨ inHand s op.toNat c = false)) :=
  ⟨⟨cmdOf [], asked 1 (cmdOf []) up, by decide +kernel⟩,
   ⟨cmdOf [], asked 2 (cmdOf []) up, by decide +kernel⟩,
   ⟨0x7777, cmdOf [], asked 0x7777 (cmdOf []) up, by decide +kernel⟩,
   ⟨0x62, cmdOf [], up, by decide +kernel⟩⟩

theorem witness_RingWrites :
    (∃ (v : Word) (s : State), busy s = false ∧ s.hl.cmd.en = true ∧ v.toNat < 2 ^ s.hl.cmd.size) ∧
    (∃ (v : Word) (s : State), s.hl.cmp.en = true ∧ v.toNat < 2 ^ s.hl.cmp.size ∧ (v.toNat + 2 ^ s.hl.cmp.size -
      s.hl.cmp.cons) % 2 ^ s.hl.cmp.size ≤ outstanding s.hl.cmp) ∧
    (∃ (v : Word) (s : State), s.hl.evt.en = true ∧ v.toNat < 2 ^ s.hl.evt.size ∧ (v.toNat + 2 ^ s.hl.evt.size -
      s.hl.evt.cons) % 2 ^ s.hl.evt.size ≤ outstanding s.hl.evt ∧ s.hl.waiting = []) ∧
    (∃ (v : Word) (s : State), busy s = false ∧ s.pd.entry = none ∧ s.hl.cmd.en = false ∧ bit v 31 = true ∧ 4 ≤ fld v 3
      0 ∧ fld v 3 0 ≤ 12) ∧
    (∃ (v : Word) (s : State), busy s = false ∧ s.pd.entry = none ∧ s.hl.cmd.en = true ∧ bit v 31 = false ∧ fld v 3 0 =
      s.hl.cmd.size) ∧
    (∃ (s : State), busy s = false ∧ s.pd.entry = none ∧ s.hl.evt.en = false) ∧
    (∃ (r : Fin 3) (s : State), busy s = false ∧ s.pd.entry = none ∧ (if r.val = 0 then s.hl.cmd else if r.val = 1 then
      s.hl.cmp else s.hl.evt).en = true) :=
  ⟨⟨5, up, by decide +kernel⟩,
   ⟨4, ringBusy, by decide +kernel⟩,
   ⟨4, ringBusy, by decide +kernel⟩,
   ⟨0x80000008, { up with hl := { up.hl with cmd := .reset } }, by decide +kernel⟩,
   ⟨8, up, by decide +kernel⟩,
   ⟨{ up with hl := { up.hl with evt := .reset } }, by decide +kernel⟩,
   ⟨1, up, by decide +kernel⟩⟩

theorem witness_CommandFetched :
    (∃ (b : Bytes) (s : State), canFetch s = true ∧ b.length = 64 ∧ leAt b 3 1 / 128 = b2n s.hl.cmd.phase) ∧
    (∃ (b : Bytes) (s : State), canFetch s = true ∧ b.length = 64 ∧ leAt b 3 1 / 128 ≠ b2n s.hl.cmd.phase ∧ evtOpen s
      1) ∧
    (∃ (d : Dma) (s : State), (canFetch s = true ∧ evtOpen s 1) ∧ (∀ b, d = some b → b.length ≠ 64)) :=
  ⟨⟨ent 1 1, fetchable, by decide +kernel⟩,
   ⟨ent 1 0, fetchable, by decide +kernel⟩,
   ⟨some [5], fetchable, by decide +kernel, by rintro _ ⟨⟩; decide⟩⟩

theorem witness_LinkFollowed :
    (∃ (s : State), s.hl.lost ≠ 0 ∧ ringsOpen s = true ∧ evtRoom s = true) ∧
    (∃ (v : Fin 64) (s : State), tget false s.hl.holdoff v.val = true ∧ tget false s.hl.irqWait v.val = true ∧
      vecMasked s v.val = false ∧ s.hl.fn.msixEn = true ∧ s.hl.fn.msixMask = false ∧ ringsOpen s = true) ∧
    (∃ (x : LinkIn) (what : Fin 4) (s : State), x.up = true ∧ x.dstate = 0 ∧ x.fn.busMaster = true ∧ what.val ≠ 0 ∧
      s.hl.waiting = [] ∧ s.pd.wakeN = false ∧ s.hl.order = [] ∧ s.hl.busy = none ∧ s.hl.afterDone = none ∧ evtOpen s 1)
      ∧
    (∃ (x : LinkIn) (what : Fin 4) (s : State), x.up = false ∧ x.l2 = false ∧ what.val ≠ 0 ∧ s.hl.evt.en = true ∧
      s.hl.afterDone = none) :=
  ⟨⟨{ up with hl := { up.hl with lost := 3, lostFirst := 4, lostLast := 5 } }, by decide +kernel⟩,
   ⟨5, { up with hl := { up.hl with holdoff := [(5, true)], irqWait := [(5, true)], msix := [(23, 0)] } },
      by decide +kernel⟩,
   ⟨{ up := true, l2 := false, speed := 2, width := 3, aspm := 1, dstate := 0, fn := up.hl.fn }, 2, up,
      by decide +kernel⟩,
   ⟨{ up := false, l2 := false, speed := 2, width := 3, aspm := 1, dstate := 3, fn := up.hl.fn }, 2, up,
      by decide +kernel⟩⟩

end HostLinks

namespace Scenes

def heldBy (s : State) (op : Nat) (l : LongOp) : State := { s with hl := { s.hl with order := [{ slot := 4, src := .host, noIrq := false, id := 9, idx := 2, opcode := op, done := none }], nextSlot := 5, busy := some { op := op, slot := 4, doorbells := 0, writes := 0, since := 0, over_ := none }, long := some l } }
def xsl (op : Nat) : CmpSlot := { slot := 4, src := .host, noIrq := false, id := 9, idx := 2, opcode := op, done := none }
def ld : LongDone := { fwOk := false, nvOk := true, reads := [{ line := 7, bits := 1 }] }
def scn : Bytes := (captureBody mixing 3 4 0 7).1
def scned : State := setScene mixing 5 scn
def rq : CommitReq := { tag := 0xFFFFFF05, count := 4, notify := true, atFn := false, target := 0, scene := some { slot := 5, id := 7, skipped := 0, sets := [] } }

theorem witness_SceneStore :
    (∃ (c : Cmd) (d : Dma) (b : Bytes) (s : State), (fieldsOk c [(0, 0x17F), (1, wordAll), (2, 0xFFFFFF)] = true ∧ bitN
      (pwN c 0) 8 = false ∧ addrOk c 1 (pwN c 2) = true ∧ cmdData s c d 1 (pwN c 2) = some b) ∧ longReady s c 0x0060
      [0x38]) ∧
    (∃ (c : Cmd) (s : State), (fieldsOk c [(0, 0x17F), (3, 0xFFFF0FFF0FFF)] = true ∧ bitN (pwN c 0) 8 = true) ∧
      longReady s c 0x0060 [0x38]) ∧
    (∃ (r : LongDone) (slot : Nat) (b : Bytes) (x : CmpSlot) (s : State), (sceneStatus b = stOk ∧ storeLen b ≤
      sceneFree s ∧ r.nvOk = true) ∧ longHeld s x 0x0060 (.sceneStore slot b)) ∧
    (∃ (slot : Nat) (b : Bytes) (x : CmpSlot) (s : State), sceneStatus b ≠ stOk ∧ longHeld s x 0x0060 (.sceneStore slot
      b)) ∧
    (∃ (c : Cmd) (s : State), (fieldsOk c [(0, 0x7F)] = true ∧ sceneOf s (pwN c 0) ≠ []) ∧ longReady s c 0x0062 [0x38])
      ∧
    (∃ (r : LongDone) (slot : Nat) (x : CmpSlot) (s : State), r.nvOk = true ∧ longHeld s x 0x0062 (.sceneDelete slot)) ∧
    (∃ (c : Cmd) (s : State), cmdReady s c 0x0063 [0x38] ∧ c.src = .host ∧ fieldsOk c [(0, 0x7F), (1, wordAll), (2,
      0xFFFFFF)] = true ∧ sceneOf s (pwN c 0) ≠ [] ∧ (sceneOf s (pwN c 0)).length ≤ pwN c 2) :=
  ⟨⟨cmdOf [5, 0x1000, 4], some [1, 2, 3, 4], [1, 2, 3, 4], asked 0x60 (cmdOf [5, 0x1000, 4]) up, by decide +kernel,
      ⟨by decide +kernel, rfl, .inl rfl⟩⟩,
   ⟨cmdOf [0x105, 0, 0, 0x000100040003], asked 0x60 (cmdOf [0x105, 0, 0, 0x000100040003]) up, by decide +kernel,
      ⟨by decide +kernel, rfl, .inl rfl⟩⟩,
   ⟨ld, 5, scn, xsl 0x60, heldBy up 0x60 (.sceneStore 5 scn), by decide +kernel, held_of 0 (by decide +kernel)⟩,
   ⟨5, [1, 2], xsl 0x60, heldBy scned 0x60 (.sceneStore 5 [1, 2]), by decide +kernel, held_of 0 (by decide +kernel)⟩,
   ⟨cmdOf [5], asked 0x62 (cmdOf [5]) scned, by decide +kernel, ⟨by decide +kernel, rfl, .inl rfl⟩⟩,
   ⟨ld, 5, xsl 0x62, heldBy scned 0x62 (.sceneDelete 5), by decide +kernel, held_of 0 (by decide +kernel)⟩,
   ⟨cmdOf [5, 0x1000, 8000], asked 0x63 (cmdOf [5, 0x1000, 8000]) scned, by decide +kernel⟩⟩

theorem witness_SceneRecall :
    (∃ (c : Cmd) (b : Bytes) (skip : List Nat) (pars : List (Nat × Nat × Nat × Word)) (u : State) (q : Nat) (l : List
      Correction) (s : State), cmdReady s c 0x0061 (recallGroups s (pwN c 0)) ∧ fieldsOk c [(0, 0x7F)] = true ∧ b =
      sceneOf s (pwN c 0) ∧ b ≠ [] ∧ skip = sceneSkips s (sceneHead b) b ∧ pars = scenePars (sceneHead b) b ∧ commitRecs
      (pantryReads s l) c.src
      { tag := 0xFFFFFF00 + pwN c 0, count := (sceneHead b).nxp, notify := true, atFn := false, target := 0, scene := some { slot := pwN c 0, id := (sceneHead b).id, skipped := maskOf 16 skip.contains, sets := sceneSets skip pars } }
      (sceneRecs (sceneHead b) b) = .ok (u, q) ∧ badPar s skip pars = none ∧ (∀ e ∈ (sceneHead b).engs, e ∉ skip → e ∉
      stagedSets s c.src)) ∧
    (∃ (c : Cmd) (s : State), cmdReady s c 0x0061 [0] ∧ fieldsOk c [(0, 0x7F)] = true ∧ sceneOf s (pwN c 0) = []) :=
  ⟨⟨cmdOf [5], scn, [], [], _, _, [], asked 0x61 (cmdOf [5]) scned, by decide +kernel, by decide +kernel,
      by decide +kernel, by decide +kernel, by decide +kernel, by decide +kernel, ok_pair (up, 99) (by decide +kernel),
      by decide +kernel, by decide +kernel⟩,
   ⟨cmdOf [5], asked 0x61 (cmdOf [5]) up, by decide +kernel⟩⟩

theorem witness_CaptureIsWellFormed : ∃ (lo : Nat) (hi : Nat) (engs : Nat) (id : Nat) (s : State), hi < 4096 ∧ (∀ e ∈
      s.mx.xp, -(2 ^ 23 : Int) ≤ e.2.cur ∧ e.2.cur < 2 ^ 23) ∧ (∀ e r, (eng s e).recipe = some r → r.nparam ≤ 4096) ∧
      (captureBody s lo hi engs id).2.1 ≤ 32768 ∧ (captureBody s lo hi engs id).2.2 ≤ 4096 :=
  ⟨3, 4, 0, 7, mixing, by decide +kernel, by decide +kernel, (by intro e r h; cases h), by decide +kernel,
      by decide +kernel⟩

end Scenes

namespace Streams

def ctxIs (x : Ctx) : State := setCtx up 3 x
def cfg3 : Word := 0x80000004
def strUp : State := setReg up .strPrefetch 3 8
def dsc : Bytes := toLE 8 0x2000 ++ toLE 6 9 ++ toLE 2 0 ++ toLE 4 10 ++ List.replicate 11 0 ++ [128]
def arm : State := setReg (setReg (ctxIs { Ctx.reset with st := .armed, prod := 4 }) .strCfg 3 4) .strPrefetch 3 8
def dd : Desc := { first := 5, n := 10, addr := 0x2000, irq := false, phase := true, expired := false, overlap := (0, 0), done := 0, missed := 0 }
def run3 : State := setCtx arm 3 { ctx arm 3 with st := .running, descs := [dd] }
def rec3 : State := setBit (setCtx run3 3 { ctx run3 3 with descs := [], store := [(2, [1])] }) .strCfg 3 30 true

theorem witness_ContextSetup :
    (∃ (t : Frac) (o : Owner) (k : Fin 256) (v : Word) (w : Word) (s : State), writeTaken s t o (regOff .strCfg k.val)
      0x39 ∧ (ctx s k.val).st = .disabled ∧ w = mergeReg .strCfg k.val (reg s .strCfg k.val) (v ||| 0x80000000) ∧
      regAccept .strCfg k.val (reg s .strCfg k.val) w = true ∧ bit w 31 = true ∧ enableFault (setReg s .strCfg k.val (w
      &&& 0x7FFFFFFF)) k.val = none) ∧
    (∃ (t : Frac) (o : Owner) (k : Fin 256) (v : Word) (w : Word) (r : Nat) (s : State), writeTaken s t o (regOff
      .strCfg k.val) 0x39 ∧ (ctx s k.val).st = .disabled ∧ w = mergeReg .strCfg k.val (reg s .strCfg k.val) (v |||
      0x80000000) ∧ regAccept .strCfg k.val (reg s .strCfg k.val) w = true ∧ bit w 31 = true ∧ enableFault (setReg s
      .strCfg k.val (w &&& 0x7FFFFFFF)) k.val = some r ∧ evtOpen s 2) ∧
    (∃ (k : Fin 256) (v : Word) (s : State), enabled s k.val = true ∧ fld v 15 0 < ringLen s k.val) :=
  ⟨⟨3, .host, 3, 4, mergeReg .strCfg 3 (reg strUp .strCfg 3) 0x80000004, strUp, by decide +kernel⟩,
   ⟨3, .host, 3, 0, mergeReg .strCfg 3 (reg strUp .strCfg 3) 0x80000000, ((enableFault (setReg strUp .strCfg 3 0)
      3).getD 0), strUp, by decide +kernel⟩,
   ⟨3, 5, setReg (ctxIs { Ctx.reset with st := .armed }) .strCfg 3 4, by decide +kernel⟩⟩

theorem witness_ContextData :
    (∃ (k : Fin 256) (b : Bytes) (s : State), (ctx s k.val).st = .armed ∧ (ctx s k.val).join = none ∧ (grp s (groupOf s
      k.val)).st ≠ .running ∧ failing s k.val = false ∧ busOn s = true ∧ isRec s k.val = false ∧ (ctx s k.val).fetch ≠
      (ctx s k.val).prod ∧ descOk (ctx s k.val) b = true) ∧
    (∃ (k : Fin 256) (b : Bytes) (s : State), live s k.val = true ∧ failing s k.val = false ∧ busOn s = true ∧ (ctx s
      k.val).fetch ≠ (ctx s k.val).prod ∧ descOk (ctx s k.val) b = false) ∧
    (∃ (k : Fin 256) (fn : BitVec 48) (d : Desc × Nat) (s : State), live s k.val = true ∧ failing s k.val = false ∧
      isRec s k.val = false ∧ s.fr.fn < fn.toNat ∧ fn.toNat ≤ s.fr.fn + prefetch s k.val ∧ carrier (ctx s k.val)
      fn.toNat = some d ∧ fn.toNat ∉ (ctx s k.val).lateDue ∧ (∀ e ∈ (ctx s k.val).store, e.1 ≠ fn.toNat)) ∧
    (∃ (k : Fin 256) (e : Nat × List Int) (r : List (Nat × List Int)) (s : State), (ctx s k.val).store = e :: r ∧ (ctx
      s k.val).st = .running ∧ isRec s k.val = true ∧ e.1 + 1 + prefetch s k.val ≤ s.fr.fn ∧ carrier (ctx s k.val) e.1 =
      none ∧ (ctx s k.val).run = 0 ∧ evtOpen s 1) ∧
    (∃ (k : Fin 256) (d : Desc) (r : List Desc) (s : State), live s k.val = true ∧ failing s k.val = false ∧ busOn s =
      true ∧ (ctx s k.val).descs = d :: r ∧ headDone s k.val = true ∧ d.irq = false) ∧
    (∃ (k : Fin 256) (s : State), live s k.val = true ∧ failing s k.val = false) ∧
    (∃ (k : Nat) (c : Nat) (s : State), (k < 256 ∧ live s k = true ∧ (ctx s k).fail = some c) ∧ (quietBoundary s [] ∨
      (computing s = true ∧ stuckLane s = false ∧ s.fr.marked = true))) :=
  ⟨⟨3, dsc, arm, by decide +kernel⟩,
   ⟨3, [], arm, by decide +kernel⟩,
   ⟨3, 7, (dd, 0), run3, by decide +kernel⟩,
   ⟨3, (2, [1]), [], { rec3 with fr := { up.fr with fn := 20 } }, by decide +kernel⟩,
   ⟨3, dd, [], { run3 with fr := { up.fr with fn := 14 } }, by decide +kernel⟩,
   ⟨3, run3, by decide +kernel⟩,
   ⟨3, 4, setCtx run3 3 { ctx run3 3 with fail := some 4, lastErr := 0x84 }, by decide +kernel, .inl
      (by unfold quietBoundary; decide +kernel)⟩⟩

theorem witness_GroupsAndStops :
    (∃ (c : Cmd) (s : State), cmdReady s c 0x00A0 [0x39] ∧ fieldsOk c [(0, 0x1F), (1, 0xFFFFFFFFFFFF)] = true ∧ (∃ k ∈
      members s (pwN c 0), (ctx s k).st = .armed) ∧ (grp s (pwN c 0)).st = .idle ∧ (pwN c 1 = 0 ∨ bindTo s < pwN c 1)) ∧
    (∃ (c : Cmd) (s : State), cmdReady s c 0x00A0 [0x39] ∧ fieldsOk c [(0, 0x1F), (1, 0xFFFFFFFFFFFF)] = true ∧ (grp s
      (pwN c 0)).st ≠ .idle) ∧
    (∃ (g : Fin 32) (s : State), (grp s g.val).st = .starting ∧ startStaged s g.val = false ∧ (grp s g.val).start ≤
      s.fr.fn ∧ s.fr.running = true) ∧
    (∃ (c : Cmd) (s : State), cmdReady s c 0x00A1 [0x39] ∧ fieldsOk c [(0, 0xFF)] = true ∧ enabled s (pwN c 0) = true) ∧
    (∃ (c : Cmd) (s : State), cmdReady s c 0x00A1 [0x39] ∧ fieldsOk c [(0, 0xFF)] = true ∧ enabled s (pwN c 0) = false)
      :=
  ⟨⟨cmdOf [0, 0], asked 0xA0 (cmdOf [0, 0]) arm, by decide +kernel⟩,
   ⟨cmdOf [0, 0], asked 0xA0 (cmdOf [0, 0]) <| setGrp arm 0 { st := .running, start := 0 }, by decide +kernel⟩,
   ⟨0, setGrp arm 0 { st := .starting, start := 5 }, by decide +kernel⟩,
   ⟨cmdOf [3], asked 0xA1 (cmdOf [3]) arm, by decide +kernel⟩,
   ⟨cmdOf [4], asked 0xA1 (cmdOf [4]) arm, by decide +kernel⟩⟩

end Streams

namespace Bus

def txOf (s : State) (code : Byte) (d : Bytes) : TwTx := { wr := (BitVec.ofNat 8 d.length :: d) ++ [crc8 ([addrByte s false, code, BitVec.ofNat 8 d.length] ++ d)], rd := none, fin := .stop, early := false }
def rdOf (w : Bytes) (n : Nat) : TwTx := { wr := w, rd := some n, fin := .stop, early := false }
def cmp7 : Completion := { id := 7, status := 0, opcode := 1, result := 9, idx := 0 }
def ev7 : Event := { code := 0x0B05, unit := 2, fn := 9, frac := 4, payload := 77 }
def busUp : State := { up with tw := { TwoWire.reset with queue := [ev7], result := some cmp7, resultReady := true, wanted := true, buf := [(3, 9)] } }
def wi : WriteIn := WriteIn.quiet
def alertUp : State := setReg busUp .twCfg 0 0x10
def vm : State := { up with tw := { TwoWire.reset with vmsg := some 2 } }
def ntf : State := { up with tw := { TwoWire.reset with notify := some 0, vmsg := some 2 } }
def vcUp : State := setReg { up with vc := { up.vc with lowSlack := true, level := 1 } } .ctVid 0 0x300

theorem witness_BlockWrites :
    (∃ (x : TwTx) (d : Bytes) (s : State), (d.length = 64 ∧ cmdPending s = false ∧ s.pd.st ≠ .standby) ∧ blockSent s
      0x10 x d) ∧
    (∃ (x : TwTx) (d : Bytes) (s : State), cmdPending s = true ∧ blockSent s 0x10 x d) ∧
    (∃ (x : TwTx) (o : Nat) (b : Bytes) (s : State), (b ≠ [] ∧ o + b.length ≤ 65536 ∧ o < 65536 ∧ s.pd.st ≠ .standby) ∧
      blockSent s 0x12 x (toLE 2 o ++ b)) ∧
    (∃ (x : TwTx) (o : Nat) (v : Word) (s : State), (o % 4 = 0 ∧ o < 0x100000 ∧ s.pd.st ≠ .standby) ∧ blockSent s 0x03
      x (toLE 3 o ++ toLE 4 v.toNat)) ∧
    (∃ (x : TwTx) (d : Bytes) (s : State), (regWriteCount d.length = true ∧ s.pd.st = .standby) ∧ blockSent s 0x03 x d)
      ∧
    (∃ (x : TwTx) (n : Byte) (d : Bytes) (p : Byte) (s : State), twReady s = true ∧ busy s = false ∧ entering s = false
      ∧ x.rd = none ∧ x.fin = .stop ∧ d.length = n.toNat ∧ regWriteCount n.toNat = true ∧ x.wr = (n :: d) ++ [p] ∧ p ≠
      crc8 ([addrByte s false, 0x03, n] ++ d)) :=
  ⟨⟨txOf up 0x10 (List.replicate 64 1), List.replicate 64 1, up, by decide +kernel,
      by unfold blockSent; decide +kernel⟩,
   ⟨txOf up 0x10 (List.replicate 64 1), List.replicate 64 1, { up with tw := { TwoWire.reset with cmdPend := true } },
      by decide +kernel, by unfold blockSent; decide +kernel⟩,
   ⟨txOf up 0x12 [4, 0, 1, 2], 4, [1, 2], up, by decide +kernel, by unfold blockSent; decide +kernel⟩,
   ⟨txOf up 0x03 (toLE 3 0x1002C ++ toLE 4 5), 0x1002C, 5, up, by decide +kernel, by unfold blockSent; decide +kernel⟩,
   ⟨txOf up 0x03 (toLE 3 0x1002C ++ toLE 4 5), (toLE 3 0x1002C ++ toLE 4 5),
      { up with pd := { up.pd with st := .standby } }, by decide +kernel, by unfold blockSent; decide +kernel⟩,
   ⟨{ txOf up 0x03 [] with wr := [7, 0, 0, 0, 0, 0, 0, 0, 1] }, 7, [0, 0, 0, 0, 0, 0, 0], 1, up, by decide +kernel⟩⟩

theorem witness_BusReads :
    (∃ (x : TwTx) (n : Nat) (s : State), twReady s = true ∧ x.wr = [] ∧ x.rd = some n) ∧
    (∃ (x : TwTx) (n : Nat) (e : Event) (r : List Event) (s : State), twReady s = true ∧ x.wr = [] ∧ x.rd = some n ∧
      s.tw.queue = e :: r ∧ (s.tw.lost = 0 ∨ 63 ≤ r.length)) ∧
    (∃ (x : TwTx) (n : Nat) (e : Event) (r : List Event) (s : State), twReady s = true ∧ x.wr = [] ∧ x.rd = some n ∧
      s.tw.queue = e :: r ∧ s.tw.lost ≠ 0 ∧ r.length ≤ 62) ∧
    (∃ (x : TwTx) (n : Nat) (s : State), twReady s = true ∧ x.wr = [] ∧ x.rd = some n ∧ s.tw.queue = []) ∧
    (∃ (x : TwTx) (n : Nat) (c : Completion) (s : State), twReady s = true ∧ x.wr = [] ∧ x.rd = some n ∧ s.tw.result =
      some c) ∧
    (∃ (x : TwTx) (n : Nat) (o : Nat) (k : Nat) (s : State), twReady s = true ∧ o < 65536 ∧ k < 256 ∧ o + k ≤ 65536 ∧
      x.wr = 3 :: (toLE 2 o ++ toLE 1 k) ∧ x.rd = some n) ∧
    (∃ (x : TwTx) (n : Nat) (o : Nat) (s : State), twReady s = true ∧ o % 4 = 0 ∧ o < 0x100000 ∧ x.wr = 4 :: (toLE 3 o
      ++ [1]) ∧ x.rd = some n) ∧
    (∃ (code : Byte) (s : State), twReady s = true ∧ code.toNat ∉ [0x02, 0x03, 0x10, 0x11, 0x12, 0x13, 0x20, 0x21,
      0x3F]) ∧
    (∃ (o : Nat) (b : Bytes), o + b.length ≤ 65536) :=
  ⟨⟨rdOf [] 5, 5, busUp, by decide +kernel⟩,
   ⟨rdOf [] 40, 40, ev7, [], busUp, by decide +kernel⟩,
   ⟨rdOf [] 40, 40, ev7, List.replicate 62 ev7,
      { busUp with tw := { busUp.tw with queue := List.replicate 63 ev7, lost := 1 } }, by decide +kernel⟩,
   ⟨rdOf [] 40, 40, up, by decide +kernel⟩,
   ⟨rdOf [] 40, 40, cmp7, busUp, by decide +kernel⟩,
   ⟨rdOf [3, 2, 0, 4] 7, 7, 2, 4, busUp, by decide +kernel⟩,
   ⟨rdOf [4, 0x2C, 0, 1, 1] 7, 7, 0x1002C, busUp, by decide +kernel⟩,
   ⟨0x55, busUp, by decide +kernel⟩,
   ⟨65534, [1, 2], by decide +kernel⟩⟩

theorem witness_AlertAndNotify :
    (∃ (s : State), alertDriven s = true) ∧
    (∃ (s : State), attention s = true) ∧
    (∃ (s : State), notifyDue s = true) ∧
    (∃ (n : Nat) (s : State), s.tw.notify = some n ∧ n < 2) ∧
    (∃ (n : Nat) (s : State), s.tw.notify = some n ∧ 2 ≤ n ∧ evtOpen s 1) ∧
    (∃ (l : Nat) (s : State), s.tw.notify = none ∧ s.tw.vmsg = some l ∧ s.vc.mute = false) ∧
    (∃ (l : Nat) (s : State), s.tw.notify = none ∧ s.tw.vmsg = some l ∧ s.vc.mute = false ∧ evtOpen s 1) :=
  ⟨⟨alertUp, by decide +kernel⟩,
   ⟨busUp, by decide +kernel⟩,
   ⟨setReg busUp .twCfg 0 0x30, by decide +kernel⟩,
   ⟨1, { busUp with tw := { busUp.tw with notify := some 1 } }, by decide +kernel⟩,
   ⟨2, { busUp with tw := { busUp.tw with notify := some 2 } }, by decide +kernel⟩,
   ⟨2, vm, by decide +kernel⟩,
   ⟨2, vm, by decide +kernel⟩⟩

theorem witness_BusTimeouts :
    (∃ (s : State), s.tw.notify.isSome = true ∧ s.tw.stuck = 0 ∧ evtOpen s 1) ∧
    (∃ (s : State), s.tw.notify = none ∧ s.tw.vmsg.isSome = true ∧ s.tw.vstuck = 0 ∧ evtOpen s 1) ∧
    (∃ (s : State), s.tw.notify.isSome = true ∧ s.tw.stuck = 1 ∧ evtOpen s 1) ∧
    (∃ (n : Nat) (l : Nat) (s : State), s.tw.notify = none ∧ s.tw.vmsg = some l ∧ s.tw.vstuck = n ∧ (n = 1 ∨ n = 2) ∧
      s.vc.mute = false ∧ evtOpen s 1) ∧
    (∃ (l : Nat) (s : State), s.tw.vstuck ≠ 0 ∧ s.tw.notify = none ∧ s.tw.vmsg = some l ∧ s.vc.mute = false) ∧
    (∃ (s : State), evtOpen s 1) ∧
    (∃ (s : State), evtOpen s 1) ∧
    (∃ (s : State), evtOpen s 1) :=
  ⟨⟨ntf, by decide +kernel⟩,
   ⟨vm, by decide +kernel⟩,
   ⟨{ ntf with tw := { ntf.tw with stuck := 1 } }, by decide +kernel⟩,
   ⟨2, 2, { vm with tw := { vm.tw with vstuck := 2 } }, by decide +kernel⟩,
   ⟨2, { vm with tw := { vm.tw with vstuck := 1 } }, by decide +kernel⟩,
   ⟨up, by decide +kernel⟩,
   ⟨up, by decide +kernel⟩,
   ⟨up, by decide +kernel⟩⟩

theorem witness_VcoreRequest :
    (∃ (s : State), s.vc.lowSlack = true ∧ s.vc.level < vidMax s ∧ s.vc.mute = false) ∧
    (∃ (s : State), (s.vc.lowSlack = false ∨ vidMax s ≤ s.vc.level)) ∧
    (∃ (t : Frac) (s : State), s.vc.lastLow + 60 * tSec ≤ nowTicks (atT s t) ∧ 0 < s.vc.level ∧ s.vc.mute = false) ∧
    (∃ (t : Frac) (o : Owner) (v : Word) (s : State), writeTaken s t o 0x24 0x38 ∧ s.hl.locked = false ∧ fld v 9 8 <
      s.vc.level ∧ s.vc.mute = false) ∧
    (∃ (o : Owner) (s : State), held s = false ∧ owns s o 0x38 = true ∧ s.hl.locked = true) :=
  ⟨⟨vcUp, by decide +kernel⟩,
   ⟨{ up with vc := { up.vc with lowSlack := false } }, by decide +kernel⟩,
   ⟨3, { vcUp with fr := { up.fr with ticks := 61 * tSec } }, by decide +kernel⟩,
   ⟨3, .host, 0, vcUp, by decide +kernel⟩,
   ⟨.host, { vcUp with hl := { vcUp.hl with locked := true } }, by decide +kernel⟩⟩

end Bus

namespace Trust

def heldBy (s : State) (op : Nat) (l : LongOp) : State := { s with hl := { s.hl with order := [{ slot := 4, src := .host, noIrq := false, id := 9, idx := 2, opcode := op, done := none }], nextSlot := 5, busy := some { op := op, slot := 4, doorbells := 0, writes := 0, since := 0, over_ := none }, long := some l } }
def xsl (op : Nat) : CmpSlot := { slot := 4, src := .host, noIrq := false, id := 9, idx := 2, opcode := op, done := none }
def ld : LongDone := { fwOk := true, nvOk := true, reads := [{ line := 7, bits := 2 }] }
/-- A key pair of P-384 made for the tests: the public key, and signatures by its private key. -/
def testPub : Bytes := toBE 97 0x04b065fc7bbf341b41aaebf0b790bed7c05fcb9bb57cbc829ab10f65bbf8e68d68f4e728316c6ae1e4cffd04f80611ef4ac53cdd1ca60f05e7ba53cf3725d0d861ddbfb69f9c7afdca22bfe44c7e3b5395364b34a60e1a28af1705448ee590ea67
def imgSig : Bytes := toBE 96 0x4b2476af88605015b5716ae8283cd426ab1f57cbb5df3490d1a1e980bf31eac4533dd879e221049cf9bb0b35fc8f7e1fcf4bb94ff6155a73f9858a2418a5cda59b429093fab44c4b6489e061e772360a7df61477fcb400f0a750912cfcfc4599
def img : Bytes := toLE 4 0x444E5242 ++ toLE 2 1 ++ [3, 0x80] ++ toLE 4 356 ++ toLE 4 4 ++ [0, 0] ++ toLE 2 1 ++ toLE 4 9 ++ List.replicate 8 0 ++ testPub ++ List.replicate 127 0 ++ [1, 2, 3, 4] ++ imgSig
def larder : State := { up with sv := { up.sv with larderOk := true, level := 1, fwKey := toBE 48 0x11e51a4cce8e165e426dc590c1319038e4f20a21696465699620214a7b4d9f125651e3f4b72b6042c46c259be5e2c9b3 } }
def ephG : Bytes := toBE 97 0x04aa87ca22be8b05378eb1c71ef320ad746e1d3b628ba79b9859f741e082542a385502f25dbf55296c3a545e3872760ab73617de4a96262c6f5d9e98bf9292dc29f8f41dbd289a147ce9da3113b5f0b8c00a60b1ce1d7e819d7a431d7c90ea0e5f
def finSig : Bytes := toBE 96 0xbb90b999964687c56413ebfea20f7b944ae0b66a61495e34c0533d22fa60441117b759cab4cb6793f263c9926f60a152f6cbe46b1f3e3f231f7c643937bae874bb1a18eb9535b5319e30d3b928500cdebd4fb9596880b83a802ff6a048709a5b
def trialB : State := { larder with sv := { larder.sv with fwB := { st := .valid, version := 7, advance := true, body := [] } } }
def sceneOn : State := let s := setScene larder 5 [1]; { s with sv := { s.sv with sceneAt := [(5, [0x9000])] } }
def helloOf (role : BitVec 2) (n : Byte) : Hello := { chain := [], nonce := List.replicate 48 n, eph := ephG, role := role, debugOff := true, hashes := [] }
def shaking : State := { larder with sv := { larder.sv with auth := .handshaking, own := some (helloOf 1 7, 1) }, pl := { larder.pl with st := .auth, role := 1, lanes := 3 } }
def peerCert : PeerCert := { serial := 99, dik := testPub }
def hello : Hello := { helloOf 2 8 with debugOff := Config.debugOff }
def helloIn : State := { shaking with sv := { shaking.sv with peer := some (helloOf 2 8, peerCert) } }
def worn : State := { shaking with sv := { shaking.sv with auth := .authenticated, txSeq := 0xFFFFFFFF } }

theorem witness_FirmwareUpdate :
    (∃ (c : Cmd) (d : Dma) (b : Bytes) (s : State), (fieldsOk c [(0, wordAll), (1, 0xFFFFFF)] = true ∧ addrOk c 0 (fldN
      (pwN c 1) 23 0) = true ∧ s.sv.fwRun ≠ .trial ∧ cmdData s c d 0 (fldN (pwN c 1) 23 0) = some b) ∧ longReady s c
      0x0080 [0x38]) ∧
    (∃ (r : LongDone) (img : Bytes) (body : Bytes) (x : CmpSlot) (s : State), (r.fwOk = true ∧ (header img).bodyLen ≤
      786080 ∧ r.nvOk = true ∧ evtOpen s 1) ∧ longHeld s x 0x0080 (.fwStage img) ∧ openContainer s 3 img = .ok body ∧
      littleWorn s r.reads) ∧
    (∃ (r : LongDone) (img : Bytes) (e : Nat × Nat) (x : CmpSlot) (s : State), evtOpen s 1 ∧ longHeld s x 0x0080
      (.fwStage img) ∧ openContainer s 3 img = .error e ∧ littleWorn s r.reads) ∧
    (∃ (c : Cmd) (s : State), cmdReady s c 0x0081 [0x38] ∧ fieldsOk c [] = true ∧ s.sv.fwRun ≠ .trial ∧ (fwSlot s
      (!s.sv.slotB)).st = .valid ∧ s.fr.running = true) ∧
    (∃ (c : Cmd) (s : State), cmdReady s c 0x0081 [0x38] ∧ fieldsOk c [] = true ∧ (s.sv.fwRun = .trial ∨ (fwSlot s
      (!s.sv.slotB)).st ≠ .valid)) ∧
    (∃ (s : State), (s.sv.fwRun = .trial ∧ busy s = false ∧ s.ct.ctlReset = none ∧ s.ct.cur = none ∧ evtOpen s 2) ∧
      littleWorn s []) :=
  ⟨⟨cmdOf [0x1000, 3], some [1, 2, 3], [1, 2, 3], asked 0x80 (cmdOf [0x1000, 3]) larder, by decide +kernel,
      ⟨by decide +kernel, rfl, .inl rfl⟩⟩,
   ⟨ld, img, [1, 2, 3, 4], xsl 0x80, heldBy larder 0x80 (.fwStage img), by decide +kernel, held_of 0
      (by decide +kernel), ok_of (by decide +kernel), by unfold littleWorn; decide +kernel⟩,
   ⟨ld, [1, 2], (stBadContainer, 1), xsl 0x80, heldBy larder 0x80 (.fwStage [1, 2]), by decide +kernel, held_of 0
      (by decide +kernel), error_of (by decide +kernel), by unfold littleWorn; decide +kernel⟩,
   ⟨cmdOf [], asked 0x81 (cmdOf []) trialB, by decide +kernel⟩,
   ⟨cmdOf [], asked 0x81 (cmdOf []) larder, by decide +kernel⟩,
   ⟨{ trialB with sv := { trialB.sv with fwRun := .trial, slotB := true } }, by decide +kernel,
      by unfold littleWorn; decide +kernel⟩⟩

theorem witness_KeysAndOwners :
    (∃ (c : Cmd) (s : State), (fieldsOk c [(0, 0xFF)] = true ∧ pwN c 0 = 1 ∧ s.sv.larderOk = true) ∧ longReady s c
      0x0083 [0x38]) ∧
    (∃ (r : LongDone) (d : Nat) (x : CmpSlot) (s : State), (r.nvOk = true ∧ evtOpen s 1) ∧ longHeld s x 0x0083 (.keygen
      d) ∧ littleWorn s r.reads) ∧
    (∃ (c : Cmd) (d : Dma) (h : Bytes) (s : State), (fieldsOk c [(0, 3), (1, wordAll)] = true ∧ addrOk c 1 48 = true ∧
      (ownerSlot s (pwN c 0)).st = .empty ∧ cmdData s c d 1 48 = some h) ∧ longReady s c 0x0084 [0x38]) ∧
    (∃ (r : LongDone) (n : Nat) (h : Bytes) (x : CmpSlot) (s : State), (r.nvOk = true ∧ evtOpen s 1) ∧ longHeld s x
      0x0084 (.enrol n h) ∧ littleWorn s r.reads) ∧
    (∃ (c : Cmd) (s : State), fieldsOk c [(0, 3)] = true ∧ longReady s c 0x0085 [0x38]) ∧
    (∃ (r : LongDone) (n : Nat) (x : CmpSlot) (s : State), (r.nvOk = true ∧ evtOpen s 1) ∧ longHeld s x 0x0085 (.revoke
      n) ∧ littleWorn s r.reads) ∧
    (∃ (c : Cmd) (d : Dma) (ch : Bytes) (s : State), cmdReady s c 0x0082 [0x38] ∧ c.src = .host ∧ fieldsOk c [(0,
      wordAll), (1, wordAll), (2, 0xFFFF)] = true ∧ 864 ≤ pwN c 2 ∧ s.sv.larderOk = true ∧ cmdData s c d 0 48 = some ch)
      ∧
    (∃ (c : Cmd) (s : State), cmdReady s c 0x0086 [0x38] ∧ c.src = .host ∧ fieldsOk c [(0, wordAll), (1, 0xFFFF)] =
      true ∧ s.sv.larderOk = true) :=
  ⟨⟨cmdOf [1], asked 0x83 (cmdOf [1]) larder, by decide +kernel, ⟨by decide +kernel, rfl, .inl rfl⟩⟩,
   ⟨ld, 1, xsl 0x83, heldBy larder 0x83 (.keygen 1), by decide +kernel, held_of 0 (by decide +kernel),
      by unfold littleWorn; decide +kernel⟩,
   ⟨cmdOf [2, 0x1000], some (List.replicate 48 7), List.replicate 48 7, asked 0x84 (cmdOf [2, 0x1000]) larder,
      by decide +kernel, ⟨by decide +kernel, rfl, .inl rfl⟩⟩,
   ⟨ld, 2, List.replicate 48 7, xsl 0x84, heldBy larder 0x84 (.enrol 2 (List.replicate 48 7)), by decide +kernel,
      held_of 0 (by decide +kernel), by unfold littleWorn; decide +kernel⟩,
   ⟨cmdOf [2], asked 0x85 (cmdOf [2]) larder, by decide +kernel, ⟨by decide +kernel, rfl, .inl rfl⟩⟩,
   ⟨ld, 2, xsl 0x85, heldBy larder 0x85 (.revoke 2), by decide +kernel, held_of 0 (by decide +kernel),
      by unfold littleWorn; decide +kernel⟩,
   ⟨cmdOf [0x1000, 0x2000, 900], some (List.replicate 48 7), List.replicate 48 7, asked 0x82 (cmdOf [0x1000, 0x2000,
      900]) larder, by decide +kernel⟩,
   ⟨cmdOf [0x1000, 900], asked 0x86 (cmdOf [0x1000, 900]) larder, by decide +kernel⟩⟩

theorem witness_PantryLine :
    (∃ (s : State), evtOpen s 4) ∧
    (∃ (x : PantryLoss), (pantryRegion x.line.toNat = 0 ∨ pantryRegion x.line.toNat = 3)) ∧
    (∃ (x : PantryLoss) (e : Fin 512), pantryRegion x.line.toNat = 1 ∧ x.entries = [e]) ∧
    (∃ (x : PantryLoss) (b : Bool), pantryRegion x.line.toNat = 4 + b2n b) ∧
    (∃ (x : PantryLoss) (k : Nat) (l : List Nat) (s : State), pantryRegion x.line.toNat = 6 ∧ s.sv.sceneAt.find? (fun e
      => e.2.contains x.line.toNat) = some (k, l)) ∧
    (∃ (x : PantryLoss) (s : State), pantryRegion x.line.toNat = 6 ∧ s.sv.sceneAt.find? (fun e => e.2.contains
      x.line.toNat) = none) :=
  ⟨⟨larder, by decide +kernel⟩,
   ⟨{ line := 0x1801, entries := [] }, by decide +kernel⟩,
   ⟨{ line := 0x0901, entries := [5] }, 5, by decide +kernel⟩,
   ⟨{ line := 0x6000, entries := [] }, true, by decide +kernel⟩,
   ⟨{ line := 0x9000, entries := [] }, 5, [0x9000], sceneOn, by decide +kernel⟩,
   ⟨{ line := 0x9001, entries := [] }, sceneOn, by decide +kernel⟩⟩

theorem hello_passes : helloCheck shaking hello (some peerCert) = none := by
  have h : enrolledHashes shaking = [] := by decide +kernel
  have hr : ¬2 = shaking.pl.role := by decide +kernel
  unfold helloCheck
  rw [h]
  simp [hr, hello, helloOf]

theorem reauth_due : reauthDue worn = true := by
  have h : Nat.max worn.sv.txSeq worn.sv.rxSeq = 0xFFFFFFFF := by decide +kernel
  unfold reauthDue
  rw [h]
  exact decide_eq_true (by omega)

theorem witness_PairAuthentication :
    (∃ (h : Hello) (c : PeerCert) (o : Hello × Nat) (s : State), s.sv.auth = .handshaking ∧ helloCheck s h (some c) =
      none ∧ s.sv.own = some o) ∧
    (∃ (h : Hello) (c : Option PeerCert) (r : Nat) (s : State), s.sv.auth = .handshaking ∧ helloCheck s h c = some r ∧
      evtOpen s 1) ∧
    (∃ (sig : Bytes) (z : Bytes) (o : Hello × Nat) (p : Hello × PeerCert) (s : State), s.sv.auth = .handshaking ∧
      s.sv.own = some o ∧ s.sv.peer = some p ∧ verifies p.2.dik (sha384 (finishBytes o.1 p.1)) sig = true ∧ ecdh o.2
      p.1.eph = some z ∧ s.pl.st = .auth ∧ evtOpen s 2) ∧
    (∃ (sig : Bytes) (o : Hello × Nat) (p : Hello × PeerCert) (s : State), s.sv.auth = .handshaking ∧ s.sv.own = some o
      ∧ s.sv.peer = some p ∧ verifies p.2.dik (sha384 (finishBytes o.1 p.1)) sig = false ∧ evtOpen s 1) ∧
    (∃ (s : State), s.sv.auth = .failed ∧ s.sv.timedOut = true) ∧
    (∃ (s : State), (s.sv.auth = .idle ∨ s.sv.auth = .authenticated)) ∧
    (∃ (s : State), s.sv.auth = .handshaking ∧ evtOpen s 1) ∧
    (∃ (s : State), s.sv.auth = .failed ∧ s.pl.lanes ≠ 0) ∧
    (∃ (s : State), s.sv.auth = .authenticated ∧ reauthDue s = true) ∧
    (∃ (s : State), (s.sv.auth ≠ .authenticated ∨ reauthDue s = false)) :=
  ⟨⟨hello, peerCert, (helloOf 1 7, 1), shaking, rfl, hello_passes, rfl⟩,
   ⟨{ hello with role := 1 }, some peerCert, 2, shaking, by decide +kernel⟩,
   ⟨finSig, ephG.drop 1 |>.take 48, (helloOf 1 7, 1), (helloOf 2 8, peerCert), helloIn, by decide +kernel⟩,
   ⟨[], (helloOf 1 7, 1), (helloOf 2 8, peerCert), helloIn, by decide +kernel⟩,
   ⟨{ shaking with sv := { shaking.sv with auth := .failed, timedOut := true } }, by decide +kernel⟩,
   ⟨larder, by decide +kernel⟩,
   ⟨shaking, by decide +kernel⟩,
   ⟨{ shaking with sv := { shaking.sv with auth := .failed } }, by decide +kernel⟩,
   ⟨worn, rfl, reauth_due⟩,
   ⟨{ shaking with sv := { shaking.sv with auth := .idle } }, by decide +kernel⟩⟩

end Trust

namespace Domains

def coming (d : Nat) (n : Option Nat) : State := { up with pd := { up.pd with on := 0x083, job := [{ slot := n, cause := 1, fn := 2, wait := [d], fault := none }] } }
def xsl : CmpSlot := { slot := 4, src := .host, noIrq := false, id := 9, idx := 2, opcode := 0x70, done := none }
def asleep (m : ModState) (b : Nat) : State := setReg { up with pd := { up.pd with st := m } } .pdWakeEn 0 (BitVec.ofNat 32 b)
def osc : State := { up with pd := { up.pd with oscOk := true, sec := 0x500000000, frac := 32767 } }
def alarmed (m : ModState) : State := let s := asleep m 0x40; { s with pd := { s.pd with oscOk := true, sec := 0x300000008, frac := 32767 } }

theorem witness_DomainSwitching :
    (∃ (c : Cmd) (s : State), cmdReady s c 0x0070 [0x36] ∧ fieldsOk c [(0, 0x3FF03FF)] = true ∧ (∀ d, d < 10 →
      domainBad s (fldN (pwN c 0) 9 0) (fldN (pwN c 0) 25 16) d = false) ∧ s.fr.running = true) ∧
    (∃ (c : Cmd) (d : Nat) (s : State), cmdReady s c 0x0070 [0x36] ∧ fieldsOk c [(0, 0x3FF03FF)] = true ∧ d < 10 ∧
      domainBad s (fldN (pwN c 0) 9 0) (fldN (pwN c 0) 25 16) d = true ∧ (∀ e, e < d → domainBad s (fldN (pwN c 0) 9 0)
      (fldN (pwN c 0) 25 16) e = false)) ∧
    (∃ (d : Fin 10) (s : State), awaited s d.val = true ∧ domOn s d.val = false ∧ d.val ≠ 7 ∧ (needs d.val).all (domOn
      s) = true ∧ s.hl.afterDone = none) ∧
    (∃ (d : Fin 10) (b : BitVec 10) (n : Option Nat) (fn : Nat) (w : List Nat) (s : State), s.pd.job =
      [{ slot := n, cause := 1, fn := fn, wait := w, fault := none }] ∧ d.val ∈ w ∧ (w.filter (· != d.val)).filter (bitN
      b.toNat) ≠ [] ∧ s.hl.afterDone = none ∧ evtOpen s 1) ∧
    (∃ (d : Fin 10) (x : CmpSlot) (fn : Nat) (s : State), s.pd.job =
      [{ slot := some x.slot, cause := 1, fn := fn, wait := [d.val], fault := none }] ∧ s.hl.order = [x] ∧ x.src ≠ .peer
      ∧ s.hl.afterDone = none ∧ evtOpen s 1) :=
  ⟨⟨cmdOf [0x40], asked 0x70 (cmdOf [0x40]) <| { up with pd := { up.pd with on := 0x083 } }, by decide +kernel⟩,
   ⟨cmdOf [0x2], 1, asked 0x70 (cmdOf [0x2]) up, by decide +kernel⟩,
   ⟨8, coming 8 none, by decide +kernel⟩,
   ⟨8, 0x300, some 4, 2, [8, 9, 5],
      { coming 8 (some 4) with pd := { up.pd with on := 0x083, job := [{ slot := some 4, cause := 1, fn := 2, wait := [8, 9, 5], fault := none }] } },
      by decide +kernel⟩,
   ⟨8, xsl, 2, { coming 8 (some 4) with hl := { up.hl with order := [xsl] } }, by decide +kernel⟩⟩

theorem witness_StateEntry :
    (∃ (c : Cmd) (s : State), cmdReady s c 0x0071 [0x36] ∧ fieldsOk c [(0, 3)] = true ∧ pwN c 0 = 1 ∧ stateRefused s =
      false ∧ s.fr.running = true) ∧
    (∃ (c : Cmd) (s : State), cmdReady s c 0x0071 [0x36] ∧ fieldsOk c [(0, 3)] = true ∧ pwN c 0 = 2 ∧ stateRefused s =
      false ∧ s.fr.running = true) ∧
    (∃ (c : Cmd) (s : State), cmdReady s c 0x0071 [0x36] ∧ fieldsOk c [(0, 3)] = true ∧ pwN c 0 = 2 ∧ stateRefused s =
      true) ∧
    (∃ (e : Entry) (s : State), s.pd.entry = some e ∧ e.stopped = true ∧ e.off = false ∧ outputsDown s = true ∧
      (s.fr.running = true → s.fr.drained = true) ∧ e.target = .standby ∧ s.pd.waking = none ∧ s.pd.st = .active) ∧
    (∃ (s : State), s.pd.entry = some { target := .sleep, stopped := true, off := true } ∧ s.pd.waking = none ∧ s.pd.st
      = .active ∧ nvBusy s = false ∧ evtOpen s 1) :=
  ⟨⟨cmdOf [1], asked 0x71 (cmdOf [1]) <| { up with mx := { up.mx with inA := true } }, by decide +kernel⟩,
   ⟨cmdOf [2], asked 0x71 (cmdOf [2]) <| up, by decide +kernel⟩,
   ⟨cmdOf [2], asked 0x71 (cmdOf [2]) <| { up with pl := { up.pl with st := .sync } }, by decide +kernel⟩,
   ⟨{ target := .standby, stopped := true, off := false },
      { up with fr := { up.fr with drained := true }, pd := { up.pd with entry := some { target := .standby, stopped := true, off := false } } },
      by decide +kernel⟩,
   ⟨{ up with pd := { up.pd with entry := some { target := .sleep, stopped := true, off := true } } },
      by decide +kernel⟩⟩

theorem witness_Wake :
    (∃ (src : Fin 10) (awc : Fin 8) (g : List (BitVec 16)) (s : State), s.pd.st = .standby ∧ s.pd.entry = none ∧
      s.pd.waking = none ∧ wakingUp s = false ∧ rb s .pdWakeEn 0 src.val = true ∧ src.val ≠ 4 ∧ wakeHolds s src.val
      awc.val g = true) ∧
    (∃ (src : Fin 10) (awc : Fin 8) (g : List (BitVec 16)) (s : State), s.pd.st = .sleep ∧ s.pd.entry = none ∧
      s.pd.waking = none ∧ wakingUp s = false ∧ rb s .pdWakeEn 0 src.val = true ∧ src.val ≠ 2 ∧ src.val ≠ 9 ∧ wakeHolds
      s src.val awc.val g = true) ∧
    (∃ (src : Fin 10) (awc : Fin 8) (g : List (BitVec 16)) (s : State), (rb s .pdWakeEn 0 src.val = false ∨ wakeHolds s
      src.val awc.val g = false)) ∧
    (∃ (a : BitVec 7) (s : State), s.pd.st = .sleep ∧ s.pd.entry = none ∧ s.pd.waking = none ∧ wakingUp s = false ∧ rb
      s .pdWakeEn 0 3 = true ∧ a.toNat = twAddr s) ∧
    (∃ (n : Nat) (s : State), s.pd.st = .sleep ∧ s.pd.entry = none ∧ s.pd.waking = none ∧ wakingUp s = false ∧ rb s
      .pdWakeEn 0 4 = true ∧ 9 ≤ n) ∧
    (∃ (w : Nat × Nat) (s : State), s.pd.st = .standby ∧ s.pd.waking = some w ∧ (∀ j ∈ s.pd.job, j.slot ≠ none) ∧ domOn
      s 7 = true ∧ s.tw.late = []) :=
  ⟨⟨5, 2, [], setReg (asleep .standby 0x20) .pdAwc 2 0x90000000, by decide +kernel⟩,
   ⟨5, 2, [], setReg (asleep .sleep 0x20) .pdAwc 2 0x90000000, by decide +kernel⟩,
   ⟨5, 2, [], asleep .sleep 0, by decide +kernel⟩,
   ⟨0x34, asleep .sleep 8, by decide +kernel⟩,
   ⟨9, asleep .sleep 16, by decide +kernel⟩,
   ⟨(5, 2), { asleep .standby 0 with pd := { up.pd with st := .standby, waking := some (5, 2) } }, by decide +kernel⟩⟩

theorem witness_RealTimeClock :
    (∃ (n : Nat) (s : State), s.pd.oscOk = true ∧ rf s .pdRtcCfg 0 7 0 = 0 ∧ s.pd.trimRem = 0 ∧ s.pd.frac + n < 2 ^ 48)
      ∧
    (∃ (t : Frac) (o : Owner) (s : State), writeTaken s t o 0x404C 0x36) ∧
    (∃ (n : Nat) (s : State), alarmDue (rtcAdvance s n) s.pd.sec = true ∧ s.pd.st = .active ∧ s.pd.entry = none ∧
      wakingUp s = false ∧ evtOpen s 1) ∧
    (∃ (n : Nat) (s : State), alarmDue (rtcAdvance s n) s.pd.sec = true ∧ s.pd.st = .standby ∧ s.pd.entry = none ∧
      s.pd.waking = none ∧ wakingUp s = false ∧ rb s .pdWakeEn 0 6 = true ∧ evtOpen s 1) ∧
    (∃ (n : Nat) (s : State), alarmDue (rtcAdvance s n) s.pd.sec = false) :=
  ⟨⟨2, osc, by decide +kernel⟩,
   ⟨3, .host, setReg up .pdRtcSetLo 0 9, by decide +kernel⟩,
   ⟨1, setReg (setReg (alarmed .active) .pdRtcAlarmHi 0 0x80000003) .pdRtcAlarmLo 0 9, by decide +kernel⟩,
   ⟨1, setReg (setReg (alarmed .standby) .pdRtcAlarmHi 0 0x80000003) .pdRtcAlarmLo 0 9, by decide +kernel⟩,
   ⟨1, alarmed .standby, by decide +kernel⟩⟩

theorem witness_RtcOscillator :
    (∃ (s : State), s.pd.oscOk = true ∧ evtOpen s 1) ∧
    (∃ (s : State), s.pd.oscOk = false) ∧
    (∃ (src : Fin 10) (s : State), s.pd.oscOk = false ∧ rb s .pdWakeEn 0 src.val = false) ∧
    (∃ (s : State), s.pd.oscOk = false ∧ evtOpen s 1) :=
  ⟨⟨osc, by decide +kernel⟩,
   ⟨up, by decide +kernel⟩,
   ⟨5, asleep .standby 0, by decide +kernel⟩,
   ⟨up, by decide +kernel⟩⟩

theorem witness_ComparatorsAndRetained :
    (∃ (n : Fin 8) (l : Bool) (v : BitVec 16) (a : BitVec 16) (s : State), rb s .pdAwc n.val 31 = true ∧ awcLevel s
      n.val v.toNat a.toNat = l ∧ tget false s.pd.awc n.val ≠ l ∧ awcWakes s n.val l = false) ∧
    (∃ (n : Fin 8) (l : Bool) (v : BitVec 16) (a : BitVec 16) (s : State), rb s .pdAwc n.val 31 = true ∧ awcLevel s
      n.val v.toNat a.toNat = l ∧ tget false s.pd.awc n.val ≠ l ∧ awcWakes s n.val l = true ∧ s.pd.st = .standby ∧
      s.pd.entry = none ∧ s.pd.waking = none ∧ wakingUp s = false ∧ rb s .pdWakeEn 0 5 = true) ∧
    (∃ (n : Fin 8) (v : BitVec 16) (a : BitVec 16) (s : State), (rb s .pdAwc n.val 31 = false ∨ awcLevel s n.val
      v.toNat a.toNat = tget false s.pd.awc n.val)) ∧
    (∃ (t : Frac) (o : Owner) (s : State), writeTaken s t o 0x4064 0x36 ∧ rb s .pdRetAddr 0 31 = false) ∧
    (∃ (t : Frac) (o : Owner) (s : State), writeTaken s t o 0x4064 0x36 ∧ rb s .pdRetAddr 0 31 = true) ∧
    (∃ (s : State), rb s .pdRetAddr 0 31 = false) ∧
    (∃ (s : State), rb s .pdRetAddr 0 31 = true) ∧
    (∃ (s : State), rb s .pdRetAddr 0 31 = false ∧ evtOpen s 1) :=
  ⟨⟨2, true, 3000, 3300, setReg osc .pdAwc 2 0x88000005, by decide +kernel⟩,
   ⟨2, true, 3000, 3300, setReg (asleep .standby 0x20) .pdAwc 2 0x90000005, by decide +kernel⟩,
   ⟨2, 3000, 3300, osc, by decide +kernel⟩,
   ⟨3, .host, setReg up .pdRetAddr 0 0xFFF, by decide +kernel⟩,
   ⟨3, .host, setReg up .pdRetAddr 0 0x80000FFF, by decide +kernel⟩,
   ⟨{ up with pd := { up.pd with ret := [(0, 5)] } }, by decide +kernel⟩,
   ⟨setReg up .pdRetAddr 0 0x80000FFF, by decide +kernel⟩,
   ⟨up, by decide +kernel⟩⟩

end Domains

namespace Resets

def b16 : State := { mixing with tw := { TwoWire.reset with buf := [(3, 9)] } }
def b16s : State := setReg { b16 with pd := { b16.pd with st := .standby } } .pdWakeEn 0 8
def t1 : State := { up with ct := { up.ct with phase := .ctrl, monVcore := false, monVmem := false, monVioh := false } }
def lrd : LarderIn := { failing := none, fwA := true, fwB := false, lost := [], reads := [⟨1, 2⟩], us := 1234 }
def ph (p : Phase) : State := { up with ct := { up.ct with phase := p, fuseOk := true, monVcore := false, monVmem := false, monVioh := false } }

theorem witness_ResetCommands :
    (∃ (c : Cmd) (s : State), cmdReady s c 0x0003 [0x38] ∧ fieldsOk c [(0, 3)] = true ∧ c.src = .host ∧ pwN c 0 = 0 ∧
      s.ct.cur = none) ∧
    (∃ (c : Cmd) (s : State), cmdReady s c 0x0003 [0x38] ∧ fieldsOk c [(0, 3)] = true ∧ c.src = .host ∧ pwN c 0 = 1 ∧
      s.ct.cur = none) ∧
    (∃ (c : Cmd) (s : State), cmdReady s c 0x0003 [0x38] ∧ fieldsOk c [(0, 3)] = true ∧ c.src = .host ∧ pwN c 0 = 2 ∧
      s.ct.cur = none ∧ s.ct.ctlReset = none) ∧
    (∃ (c : Cmd) (s : State), cmdReady s c 0x0003 [0x38] ∧ fieldsOk c [(0, 3)] = true ∧ c.src = .host ∧ pwN c 0 = 3 ∧
      s.ct.cur = none ∧ s.ct.hostReset = none) ∧
    (∃ (c : Cmd) (r : Reset) (s : State), cmdReady s c 0x0003 [0x38] ∧ fieldsOk c [(0, 3)] = true ∧ s.ct.cur = some r ∧
      r.scope ≤ pwN c 0 ∧ (pwN c 0 = 0 → s.ct.phase ≠ .options)) :=
  ⟨⟨cmdOf [0], asked 3 (cmdOf [0]) mixing, by decide +kernel⟩,
   ⟨cmdOf [1], asked 3 (cmdOf [1]) mixing, by decide +kernel⟩,
   ⟨cmdOf [2], asked 3 (cmdOf [2]) mixing, by decide +kernel⟩,
   ⟨cmdOf [3], asked 3 (cmdOf [3]) mixing, by decide +kernel⟩,
   ⟨cmdOf [2], { scope := 1, src := 3, merged := 5, inA := false, inB := false }, asked 3 (cmdOf [2])
      { mixing with ct := { up.ct with cur := some { scope := 1, src := 3, merged := 5, inA := false, inB := false } } },
      by decide +kernel⟩⟩

theorem witness_BusReset :
    (∃ (x : TwTx) (v : Byte) (s : State), twReady s = true ∧ busy s = false ∧ entering s = false ∧ x.rd = none ∧ x.fin
      = .stop ∧ x.wr = [v, crc8 [addrByte s false, 0x3F, v]] ∧ 0xA0 ≤ v.toNat ∧ v.toNat ≤ 0xA3 ∧ s.pd.st ≠ .standby ∧
      owns s .tw 0x38 = true) ∧
    (∃ (x : TwTx) (v : Byte) (r : Bytes) (s : State), twReady s = true ∧ busy s = false ∧ entering s = false ∧ x.rd =
      none ∧ x.fin ≠ .timeout ∧ x.wr = v :: r ∧ (v.toNat < 0xA0 ∨ 0xA3 < v.toNat)) ∧
    (∃ (x : TwTx) (v : Byte) (s : State), twReady s = true ∧ busy s = false ∧ entering s = false ∧ x.rd = none ∧ x.fin
      = .stop ∧ x.wr = [v, crc8 [addrByte s false, 0x3F, v]] ∧ 0xA0 ≤ v.toNat ∧ v.toNat ≤ 0xA3 ∧ s.pd.st ≠ .standby ∧
      owns s .tw 0x38 = false) ∧
    (∃ (x : TwTx) (v : Byte) (s : State), twReady s = true ∧ busy s = false ∧ entering s = false ∧ x.rd = none ∧ x.fin
      = .stop ∧ x.wr = [v, crc8 [addrByte s false, 0x3F, v]] ∧ 0xA0 ≤ v.toNat ∧ v.toNat ≤ 0xA3 ∧ s.pd.st = .standby ∧ rb
      s .pdWakeEn 0 3 = true) ∧
    (∃ (s : State), s.ct.cur = none) ∧
    (∃ (s : State), s.ct.cur = none ∧ s.ct.ctlReset = none) ∧
    (∃ (s : State), s.ct.cur = none ∧ s.ct.hostReset = none) :=
  ⟨⟨{ wr := [0xA2, crc8 [addrByte b16 false, 0x3F, 0xA2]], rd := none, fin := .stop, early := false }, 0xA2, b16,
      by decide +kernel⟩,
   ⟨{ wr := [0xA4], rd := none, fin := .stop, early := false }, 0xA4, [], b16, by decide +kernel⟩,
   ⟨{ wr := [0xA2, crc8 [addrByte b16 false, 0x3F, 0xA2]], rd := none, fin := .stop, early := false }, 0xA2, setReg b16
      .hlOwner 0x38 0, by decide +kernel⟩,
   ⟨{ wr := [0xA2, crc8 [addrByte b16 false, 0x3F, 0xA2]], rd := none, fin := .stop, early := false }, 0xA2, b16s,
      by decide +kernel⟩,
   ⟨mixing, by decide +kernel⟩,
   ⟨mixing, by decide +kernel⟩,
   ⟨mixing, by decide +kernel⟩⟩

theorem witness_ResetSources :
    (∃ (s : State), s.pd.st ≠ .sleep ∧ s.ct.cur = none) ∧
    (∃ (s : State), s.pd.st = .sleep) ∧
    (∃ (s : State), s.ct.rstDriven = false ∧ s.ct.rstExtended = false ∧ rf s .ctRstCfg 0 3 2 = 0 ∧ s.ct.cur = none) ∧
    (∃ (s : State), s.ct.rstDriven = true ∧ s.ct.phase ≠ .options) ∧
    (∃ (s : State), s.ct.perst = false ∧ perstScope s = 3 ∧ s.ct.cur = none ∧ s.ct.hostReset = none) ∧
    (∃ (s : State), s.pd.st = .active ∧ s.pd.entry = none) ∧
    (∃ (s : State), s.pd.st = .sleep ∧ s.pd.entry = none ∧ s.pd.waking = none ∧ rb s .pdWakeEn 0 0 = true) ∧
    (∃ (s : State), s.ct.cur = none ∧ s.ct.hostReset = none) ∧
    (∃ (n : Nat) (s : State), s.sv.fwRun ≠ .trial ∧ (wdtWindow (rtcAdvance s n)).length < 4 ∧ s.ct.cur = none ∧
      s.ct.ctlReset = none) ∧
    (∃ (n : Nat) (s : State), s.sv.fwRun ≠ .trial ∧ 4 ≤ (wdtWindow (rtcAdvance s n)).length ∧ s.ct.cur = none) ∧
    (∃ (s : State), s.ct.cur = none) ∧
    (∃ (s : State), s.ct.cur = none ∧ s.ct.ctlReset = none ∧ s.hl.evt.en = true ∧ evtOpen s 1) :=
  ⟨⟨mixing, by decide +kernel⟩,
   ⟨{ mixing with pd := { up.pd with st := .sleep } }, by decide +kernel⟩,
   ⟨setReg mixing .ctRstCfg 0 0, by decide +kernel⟩,
   ⟨{ mixing with ct := { up.ct with rstDriven := true } }, by decide +kernel⟩,
   ⟨mixing, by decide +kernel⟩,
   ⟨{ mixing with pd := { up.pd with wakeN := true } }, by decide +kernel⟩,
   ⟨setReg { mixing with pd := { up.pd with st := .sleep } } .pdWakeEn 0 1, by decide +kernel⟩,
   ⟨mixing, by decide +kernel⟩,
   ⟨2, mixing, by decide +kernel⟩,
   ⟨4, { mixing with ct := { up.ct with wdtTimes := [0, 0, 0] } }, by decide +kernel⟩,
   ⟨mixing, by decide +kernel⟩,
   ⟨mixing, by decide +kernel⟩⟩

theorem witness_BringUp :
    (∃ (o : Options) (k : Nat), k ≤ 15 ∧ 10000 * k + 1500 ≤ o.ohms ∧ o.ohms + 1500 ≤ 10000 * (k + 1)) ∧
    (∃ (o : Options) (s : State), s.ct.phase = .options ∧ 1500 ≤ o.ohms ∧ o.ohms ≤ 170000) ∧
    (∃ (o : Options) (s : State), s.ct.phase = .options ∧ o.ohms < 1500) ∧
    (∃ (s : State), pastT1 s = true ∧ s.pd.twWake = 0 ∧ s.sv.journal = none) ∧
    (∃ (slot : Nat) (d : Bytes) (s : State), (pastT1 s = true ∧ s.pd.twWake = 0 ∧ s.sv.journal = some (.scene slot d) ∧
      evtOpen s 1) ∧ littleWorn s []) ∧
    (∃ (t : Frac) (x : LarderIn) (k : Nat × Nat) (s : State), s.ct.phase = .larder ∧ s.ct.ctlReset = some k ∧
      s.ct.rstExtended = false ∧ monitorsClear s = true ∧ x.failing = none ∧ s.ct.fuseOk = true ∧ slotGood (larderRead s
      t x) x s.sv.slotB = true ∧ s.ct.code / 4 ≠ 3 ∧ s.sv.fell = 0 ∧ evtOpen (larderRead s t x) 1) ∧
    (∃ (t : Frac) (x : LarderIn) (s : State), s.ct.phase = .larder ∧ s.ct.ctlReset = none ∧ x.failing = none ∧
      monitorsClear s = true ∧ s.ct.fuseOk = true ∧ slotGood (larderRead s t x) x s.sv.slotB = true ∧ s.ct.code / 4 ≠ 3)
      ∧
    (∃ (t : Frac) (x : LarderIn) (b : Byte) (s : State), s.ct.phase = .larder ∧ s.ct.ctlReset = none ∧ monitorsClear s
      = true ∧ x.failing = some b ∧ evtOpen (larderRead s t x) 1) ∧
    (∃ (s : State), s.ct.phase = .clk ∧ monitorsClear s = true) ∧
    (∃ (s : State), s.ct.phase = .clk ∧ monitorsClear s = true ∧ evtOpen s 1) ∧
    (∃ (s : State), s.ct.phase = .clk ∧ monitorsClear s = true ∧ evtOpen s 1) ∧
    (∃ (r : Reset) (s : State), s.ct.cur = some r ∧ s.ct.phase = .host ∧ r.scope = 0 ∧ monitorsClear s = true ∧
      s.sv.fell = 0) ∧
    (∃ (k : Nat × Nat) (s : State), s.ct.cur = none ∧ s.ct.hostReset = some k ∧ s.ct.rstExtended = false ∧ evtOpen s 1)
      :=
  ⟨⟨{ ohms := 65000, upper := false, fuseOk := true, trimOk := true }, 6, by decide +kernel⟩,
   ⟨{ ohms := 65000, upper := false, fuseOk := true, trimOk := true }, State.reset, by decide +kernel⟩,
   ⟨{ ohms := 1200, upper := false, fuseOk := true, trimOk := true }, State.reset, by decide +kernel⟩,
   ⟨t1, by decide +kernel⟩,
   ⟨5, [1, 2], { t1 with sv := { t1.sv with journal := some (.scene 5 [1, 2]) } }, by decide +kernel,
      by unfold littleWorn; decide +kernel⟩,
   ⟨3, lrd, (6, 1), { ph .larder with ct := { (ph .larder).ct with ctlReset := some (6, 1) } }, by decide +kernel⟩,
   ⟨3, lrd, ph .larder, by decide +kernel⟩,
   ⟨3, { lrd with failing := some 7 }, 7, ph .larder, by decide +kernel⟩,
   ⟨ph .clk, by decide +kernel⟩,
   ⟨ph .clk, by decide +kernel⟩,
   ⟨ph .clk, by decide +kernel⟩,
   ⟨{ scope := 0, src := 3, merged := 5, inA := false, inB := false },
      { up with ct := { up.ct with phase := .host, monVcore := false, monVmem := false, monVioh := false, cur := some { scope := 0, src := 3, merged := 5, inA := false, inB := false } } },
      by decide +kernel⟩,
   ⟨(6, 1), { up with ct := { up.ct with hostReset := some (6, 1) } }, by decide +kernel⟩⟩

end Resets

namespace Pairs

def pr (st : PairState) : State := { up with sv := { up.sv with auth := .authenticated }, pl := { up.pl with st := st, role := 1, lanes := 3 } }
def hb : Heartbeat := { pfn := 9, flags := 0, state := 0, digest := 0, digestPrev := 0, flagsPrev := 0, live := 3, rec_ := 0, level := 0, ack := 0 }
def hbIn : State := { pr .ready with pl := { (pr .ready).pl with hb := some { hb with state := BitVec.ofNat 8 (pairCode .ready) } } }
def soloS : State :=
  let s := setReg (pr .ready) .spChCfg 2 0x10
  let s :=
      { s with sp := { s.sp with ch := tput SpCh.reset s.sp.ch 2 { spCh s 2 with solo := true } }, ps := { s.ps with ch := tput PsCh.reset s.ps.ch 2 { psCh s 2 with st := .run } } }
  { s with pl := { s.pl with hb := some { hb with live := 4 } } }
def pk : Packet := { tagOk := true, seq := 3, hb := heartbeatBytes hb, answers := [], items := [], inputs := some [(3, 4)], ofs := 2, peerBits := 5 }
def mi : Mirror := { seq := 7, owner := .host, item := .pair 2, meet := none, fn := 4 }
def st7 : State := let s := pr .sync
  { (mirroredGroups.foldl (fun s g => setReg s .hlOwner g 7) s) with pending := s.pending }
def view (s : State) : PeerView := { rate := BitVec.ofNat 4 s.fr.rate, fsw := BitVec.ofNat 10 s.ck.fsw, phaseLock := true, engines := (List.range 16).map (engineKey s), envs := (List.range 12).map (envKey s), peerBits := (List.range 64).map (fun g => owns s .peer g), ready := true }

theorem witness_PairControl :
    (∃ (c : Cmd) (s : State), cmdReady s c 0x0090 [0x38] ∧ fieldsOk c [(0, 0xF)] = true ∧ pwN c 0 = 1 ∧ s.pl.st =
      .ready ∧ peerReady s = true ∧ s.sv.auth = .authenticated) ∧
    (∃ (c : Cmd) (s : State), cmdReady s c 0x0090 [0x38] ∧ fieldsOk c [(0, 0xF)] = true ∧ pwN c 0 = 2 ∧ (s.pl.st =
      .paired ∨ s.pl.st = .sync ∨ s.pl.st = .peerLost) ∧ s.sv.auth = .authenticated) ∧
    (∃ (c : Cmd) (s : State), cmdReady s c 0x0090 [0x38] ∧ fieldsOk c [(0, 0xF)] = true ∧ pwN c 0 = 3 ∧ s.pl.st =
      .paired ∧ s.sv.auth = .authenticated) ∧
    (∃ (c : Cmd) (s : State), cmdReady s c 0x0090 [0x38] ∧ fieldsOk c [(0, 0xF)] = true ∧ pwN c 0 = 4 ∧ (s.pl.st =
      .paired ∨ (s.pl.st = .peerLost ∧ peerReady s = true)) ∧ s.sv.auth = .authenticated) ∧
    (∃ (c : Cmd) (s : State), cmdReady s c 0x0090 [0x38] ∧ fieldsOk c [(0, 0xF)] = true ∧ pwN c 0 = 3 ∧ s.pl.st ≠
      .paired) ∧
    (∃ (s : State), s.pl.st = .ready) ∧
    (∃ (s : State), s.pl.st = .sync) ∧
    (∃ (c : Nat) (s : State), (s.pl.st = .paired ∨ s.pl.st = .peerLost ∨ s.pl.st = .ready) ∧ c ∈ sharedCh s ∧
      s.pl.hb.any (fun h => bitN h.live.toNat c) = true ∧ bitN (liveMask s) c = true) ∧
    (∃ (s : State), s.pl.st ≠ .sync ∧ s.pl.st ≠ .paired ∧ s.pl.st ≠ .peerLost) :=
  ⟨⟨cmdOf [1], asked 0x90 (cmdOf [1]) (hbIn), by decide +kernel⟩,
   ⟨cmdOf [2], asked 0x90 (cmdOf [2]) (pr .paired), by decide +kernel⟩,
   ⟨cmdOf [3], asked 0x90 (cmdOf [3]) (pr .paired), by decide +kernel⟩,
   ⟨cmdOf [4], asked 0x90 (cmdOf [4]) (pr .paired), by decide +kernel⟩,
   ⟨cmdOf [3], asked 0x90 (cmdOf [3]) (pr .sync), by decide +kernel⟩,
   ⟨pr .ready, by decide +kernel⟩,
   ⟨pr .sync, by decide +kernel⟩,
   ⟨2, soloS, by decide +kernel⟩,
   ⟨pr .ready, by decide +kernel⟩⟩

theorem witness_StrellinLink :
    (∃ (l : BitVec 2) (s : State), s.pl.lanes = 0 ∧ l.toNat ≠ 0 ∧ s.pl.st = .linkDown ∧ evtOpen s 2) ∧
    (∃ (s : State), s.pl.lanes ≠ 0 ∧ s.pl.st = .ready ∧ evtOpen s 2) ∧
    (∃ (s : State), s.pl.lanes ≠ 0) :=
  ⟨⟨3, { pr .linkDown with pl := { (pr .linkDown).pl with lanes := 0 } }, by decide +kernel⟩,
   ⟨pr .ready, by decide +kernel⟩,
   ⟨pr .ready, by decide +kernel⟩⟩

theorem witness_PairHeartbeats :
    (∃ (p : Packet) (s : State), s.sv.auth = .authenticated ∧ p.tagOk = false) ∧
    (∃ (s : State), s.sv.auth ≠ .authenticated) ∧
    (∃ (p : Packet) (s : State), s.sv.auth = .authenticated ∧ p.tagOk = true ∧ p.answers = [] ∧ p.items = [] ∧ s.pl.st
      = .sync ∧ s.pl.due ≤ (heartbeatAt p.hb).pfn.toNat ∧ bitN (heartbeatAt p.hb).flags.toNat 1 = false) ∧
    (∃ (p : Packet) (m : Mirror) (i : BitVec 48) (s : State), (s.sv.auth = .authenticated ∧ p.tagOk = true ∧ s.pl.st =
      .sync ∧ s.pl.due ≤ (heartbeatAt p.hb).pfn.toNat ∧ bitN (heartbeatAt p.hb).flags.toNat 1 = false ∧ m.seq < 2 ^ 32 ∧
      p.answers = [(BitVec.ofNat 32 m.seq, 0, i)] ∧ p.items = [] ∧ s.pl.mine = [m] ∧ m.meet = none) ∧ (∀ q, m.item ≠
      .commit q)) ∧
    (∃ (n : BitVec 48) (s : State), pairRuns s = true ∧ s.pl.due ≤ n.toNat ∧ s.pl.missRun = 0 ∧ evtOpen s 1) ∧
    (∃ (n : BitVec 48) (s : State), pairRuns s = true ∧ s.pl.due ≤ n.toNat ∧ 1 ≤ s.pl.missRun ∧ s.pl.loss = none ∧
      evtOpen s 1) :=
  ⟨⟨{ pk with tagOk := false }, pr .sync, by decide +kernel⟩,
   ⟨up, by decide +kernel⟩,
   ⟨pk, pr .sync, by decide +kernel⟩,
   ⟨{ pk with answers := [(7, 0, 9)] }, mi, 9, { pr .sync with pl := { (pr .sync).pl with mine := [mi], role := 2 } },
      by decide +kernel, by rintro _ ⟨⟩⟩,
   ⟨9, pr .sync, by decide +kernel⟩,
   ⟨9, { pr .paired with pl := { (pr .paired).pl with missRun := 1 } }, by decide +kernel⟩⟩

theorem witness_SyncAndFailover :
    (∃ (v : PeerView) (s : State), s.pl.st = .sync ∧ s.pl.role = 1 ∧ s.pl.copying = false ∧ syncFault s v = none) ∧
    (∃ (v : PeerView) (r : Nat × Nat) (s : State), s.pl.st = .sync ∧ s.pl.role = 1 ∧ s.pl.copying = false ∧ syncFault s
      v = some r ∧ evtOpen s 1) ∧
    (∃ (s : State), s.pl.st = .sync ∧ s.pl.role = 1 ∧ s.pl.copying = true) ∧
    (∃ (q : Word) (m : Mirror) (op : Nat) (s : State), s.pl.mine = [m] ∧ m.seq = q.toNat ∧ m.meet.isSome = true ∧
      m.item = .pair op ∧ evtOpen s 1) ∧
    (∃ (t : Frac) (o : Owner) (v : Word) (s : State), writeTaken s t o 0x78018 0x38 ∧ bit v 31 = true ∧ fld v 1 0 ≠ 0 ∧
      fld v 1 0 ≠ 3 ∧ s.pl.lanes ≠ 0 ∧ s.sv.auth = .authenticated ∧ evtOpen s 2) ∧
    (∃ (t : Frac) (o : Owner) (s : State), writeTaken s t o 0x78018 0x38 ∧ (s.pl.lanes = 0 ∨ s.sv.auth ≠
      .authenticated)) ∧
    (∃ (s : State), s.sv.auth = .authenticated ∧ owns s .peer 0x38 = true ∧ s.ct.cur = none ∧ evtOpen s 1) ∧
    (∃ (s : State), s.sv.auth ≠ .authenticated ∧ evtOpen s 2) :=
  ⟨⟨view st7, st7, by decide +kernel⟩,
   ⟨{ view st7 with phaseLock := false }, (3, 0xFF), st7, by decide +kernel⟩,
   ⟨{ st7 with pl := { st7.pl with copying := true } }, by decide +kernel⟩,
   ⟨7, { mi with meet := some (0, 0, 0, 0) }, 2,
      { st7 with pl := { st7.pl with mine := [{ mi with meet := some (0, 0, 0, 0) }] } }, by decide +kernel⟩,
   ⟨3, .host, 0x80000001, st7, by decide +kernel⟩,
   ⟨3, .host, { st7 with pl := { st7.pl with lanes := 0 } }, by decide +kernel⟩,
   ⟨setReg st7 .hlOwner 0x38 7, by decide +kernel⟩,
   ⟨up, by decide +kernel⟩⟩

end Pairs

namespace Balls

def resetting : State := { up with ct := { up.ct with cur := State.reset.ct.cur } }

theorem witness_BallsShown :
    (∃ (s : State) (c : Reset), s.ct.cur = some c ∧ shuntsLost s = false) ∧
    (∃ (s : State), s.ai.pdmConf = false) ∧
    (∃ (s : State), s.ai.biasConf = false) ∧
    (∃ (s : State), s.ck.mclkConf = false) ∧
    (∃ (s : State) (k : Fin 2), tget false s.ck.fpConf k.val = false) ∧
    (∃ (s : State), domOn s domAIN = false) ∧
    (∃ (s : State), domOn s domAOUT = false ∧ shuntsLost s = false) ∧
    (∃ (s : State), shuntsLost s = true) ∧
    (∃ (s : State), domOn s domPORT = false) ∧
    (∃ (s : State), domOn s domCLK = false ∧ s.ct.cur = none ∧ (s.pd.st = .active ∨ s.pd.st = .quiet)) ∧
    (∃ (s : State), domOn s 0 = false) ∧
    (∃ (s : State) (n : Fin 16), domOn s domAIN = true ∧ s.ct.cur = none ∧ (aiCh s n.val).st ≠ .precharge) ∧
    (∃ (s : State), domOn s domAIN = true ∧ s.ct.cur = none ∧ s.ai.pdmConf = true) ∧
    (∃ (s : State), s.pd.st = .standby) :=
  ⟨⟨resetting, { scope := 0, src := 1, merged := 0, inA := false, inB := false }, by decide +kernel⟩,
   ⟨up, by decide +kernel⟩,
   ⟨up, by decide +kernel⟩,
   ⟨up, by decide +kernel⟩,
   ⟨up, 1, by decide +kernel⟩,
   ⟨State.reset, by decide +kernel⟩,
   ⟨State.reset, by decide +kernel⟩,
   ⟨{ up with aq := { up.aq with clamp := some 120 } }, by decide +kernel⟩,
   ⟨State.reset, by decide +kernel⟩,
   ⟨{ up with pd := { up.pd with on := 3 } }, by decide +kernel⟩,
   ⟨{ up with pd := { up.pd with on := 0x082 } }, by decide +kernel⟩,
   ⟨up, 3, by decide +kernel⟩,
   ⟨{ up with ai := { up.ai with pdmConf := true } }, by decide +kernel⟩,
   ⟨{ up with pd := { up.pd with st := .standby } }, by decide +kernel⟩⟩

end Balls

namespace Shared

def lockd : State := { up with hl := { up.hl with locked := true } }

theorem witness_StepRunsFront : ∃ (c : Instr) (r : List Instr) (s : State), s.pending = c :: r :=
  ⟨.frameStrobe strobeIn, [], { up with pending := [.frameStrobe strobeIn] }, by decide +kernel⟩

theorem witness_SetupLock :
    (∃ (c : Cmd) (s : State), cmdReady s c 0x0002 [0x38] ∧ fieldsOk c [] = true ∧ s.hl.locked = false ∧ evtOpen s 1) ∧
    (∃ (c : Cmd) (s : State), cmdReady s c 0x0002 [0x38] ∧ fieldsOk c [] = true ∧ s.hl.locked = true) ∧
    (∃ (o : Owner) (off : BitVec 21) (s : State), s.hl.locked = true ∧ held s = false ∧ owns s o 0x38 = true ∧
      (off.toNat = regOff .ctRstCfg 0 ∨ off.toNat = regOff .ctVid 0)) ∧
    (∃ (g : Fin 0x3A) (off : BitVec 21) (s : State), s.hl.locked = true ∧ held s = false ∧ off.toNat = regOff .hlOwner
      g.val) ∧
    (∃ (o : Owner) (s : State), s.hl.locked = true ∧ held s = false ∧ owns s o 0x38 = true) ∧
    (∃ (scope : Nat) (s : State), s.ct.cur = none ∧ scope < 2) ∧
    (∃ (scope : Nat) (s : State), s.ct.cur = none ∧ 2 ≤ scope) :=
  ⟨⟨cmdOf [], asked 2 (cmdOf []) up, by decide +kernel⟩,
   ⟨cmdOf [], asked 2 (cmdOf []) lockd, by decide +kernel⟩,
   ⟨.tw, BitVec.ofNat 21 (regOff .ctVid 0), lockd, by decide +kernel⟩,
   ⟨7, BitVec.ofNat 21 (regOff .hlOwner 7), lockd, by decide +kernel⟩,
   ⟨.host, lockd, by decide +kernel⟩,
   ⟨1, lockd, by decide +kernel⟩,
   ⟨3, lockd, by decide +kernel⟩⟩

theorem witness_CommandChecks :
    (∃ (op : Nat) (c : Cmd) (s : State), inHand s op c = true ∧ answerable s c ∧ s.ct.phase = .recovery ∧ op ∉
      recoveryOps) ∧
    (∃ (op : Nat) (g : Nat) (c : Cmd) (gs : List Nat) (s : State), inHand s op c = true ∧ answerable s c ∧ s.ct.phase ≠
      .recovery ∧ g ∈ gs ∧ owns s c.src g = false) ∧
    (∃ (op : Nat) (c : Cmd) (gs : List Nat) (u : PwUse) (ok : Bool) (s : State), inHand s op c = true ∧ answerable s c
      ∧ s.ct.phase ≠ .recovery ∧ (∀ g ∈ gs, owns s c.src g = true) ∧ (fieldsOk c u = false ∨ ok = false)) ∧
    (∃ (c : Cmd) (s : State), inHand s 0x0002 c = true ∧ answerable s c ∧ s.ct.phase ≠ .recovery ∧ owns s c.src 0x38 =
      false) ∧
    (∃ (op : Nat) (c : Cmd) (s : State), inHand s op c = false) :=
  ⟨⟨0x10, cmdOf [], asked 0x10 (cmdOf []) { up with ct := { up.ct with phase := .recovery } }, by decide +kernel⟩,
   ⟨0x10, 0, cmdOf [], [0], asked 0x10 (cmdOf []) (setReg up .hlOwner 0 0), by decide +kernel⟩,
   ⟨0x10, cmdOf [1], [0], [], true, asked 0x10 (cmdOf [1]) up, by decide +kernel⟩,
   ⟨cmdOf [], asked 2 (cmdOf []) (setReg up .hlOwner 0x38 0), by decide +kernel⟩,
   ⟨0x10, cmdOf [1], up, by decide +kernel⟩⟩

end Shared

end Sys2Proof.Tests
end

/-! The crosspoint matrix: what completing a sink does to its result, and to nothing else (R20, R24, R52, R53). -/

namespace Sys2Proof.Proofs.Sinks

open Sys2Proof Sys2Proof.Machine Sys2Proof.Safety Sys2Proof.Laws

/-! ### One completion -/

/-- The sink is settled for this frame: it has its result, or is held, or is shed. -/
def settled (s : State) (k : Nat) : Bool := (tget none s.mx.res k).isSome || isHeld s k || isShed s k

/-- The sink's entry among the results once its completion was asked for (R53). -/
def resultAfter (s : State) (k : Nat) : Option Int :=
  if settled s k then tget none s.mx.res k else some (sat32 (scaled (accOf s k) (scaleOf s k)))

theorem completeSink_of_settled {s : State} {k : Nat} (h : settled s k = true) : completeSink s k = s :=
  if_pos h

/-- A sink not settled gets the saturated scaled sum as its result, and a sum that saturated is noted (R53). -/
theorem completeSink_of_not_settled {s : State} {k : Nat} (h : settled s k = false) :
    completeSink s k = { s with mx := { s.mx with
      res := tput none s.mx.res k (some (sat32 (scaled (accOf s k) (scaleOf s k))))
      clipNotes := if sat32 (scaled (accOf s k) (scaleOf s k)) = scaled (accOf s k) (scaleOf s k) then s.mx.clipNotes
        else s.mx.clipNotes ++ [(k, toU 32 (scaled (accOf s k) (scaleOf s k)))] } } := by
  have hopen : completeSink s k = _ := if_neg (by simpa [settled] using h)
  rw [hopen]
  split
  · next hexact => simp only [if_pos hexact]
  · next hsat => simp only [if_neg hsat]

/-- Within the mixer a completion writes the results and the notes, and nothing that a sum is taken from. -/
theorem completeSink_mx (s : State) (k : Nat) :
    ∃ r c, (completeSink s k).mx = { s.mx with res := r, clipNotes := c } := by
  cases h : settled s k with
  | true => exact ⟨_, _, by rw [completeSink_of_settled h]⟩
  | false => exact ⟨_, _, by rw [completeSink_of_not_settled h]⟩

@[simp] theorem isHeld_completeSink (s : State) (j k : Nat) : isHeld (completeSink s j) k = isHeld s k := by
  obtain ⟨r, c, h⟩ := completeSink_mx s j
  simp only [isHeld, h]

@[simp] theorem isShed_completeSink (s : State) (j k : Nat) : isShed (completeSink s j) k = isShed s k := by
  obtain ⟨r, c, h⟩ := completeSink_mx s j
  simp only [isShed, h]

@[simp] theorem accOf_completeSink (s : State) (j k : Nat) : accOf (completeSink s j) k = accOf s k := by
  obtain ⟨r, c, h⟩ := completeSink_mx s j
  simp only [accOf, contributors, sourceOf, h]

@[simp] theorem scaleOf_completeSink (s : State) (j k : Nat) : scaleOf (completeSink s j) k = scaleOf s k := by
  obtain ⟨r, c, h⟩ := completeSink_mx s j
  simp only [scaleOf, h]

/-! ### Two completions -/

/-- A completion settles its own sink and leaves every other result. -/
theorem tget_res_completeSink (s : State) (j i : Nat) :
    tget none (completeSink s j).mx.res i = if i = j then resultAfter s j else tget none s.mx.res i := by
  cases h : settled s j with
  | true =>
    rw [completeSink_of_settled h, resultAfter, if_pos h]
    split
    · next hi => rw [hi]
    · rfl
  | false =>
    rw [completeSink_of_not_settled h, resultAfter, if_neg (Bool.eq_false_iff.1 h)]
    simp only [tget_tput]

/-- Only its own completion settles a sink. -/
theorem settled_completeSink_ne {s : State} {j k : Nat} (h : k ≠ j) :
    settled (completeSink s j) k = settled s k := by
  simp only [settled, tget_res_completeSink, if_neg h, isHeld_completeSink, isShed_completeSink]

/-- What a sink's completion gives does not depend on another sink's having completed (R24). -/
theorem resultAfter_completeSink_ne {s : State} {j k : Nat} (h : k ≠ j) :
    resultAfter (completeSink s j) k = resultAfter s k := by
  simp only [resultAfter, settled_completeSink_ne h, tget_res_completeSink, if_neg h, accOf_completeSink,
    scaleOf_completeSink]

/-- Two sinks give the same results in either order (R24). -/
theorem res_completeSink_comm {s : State} {j k : Nat} (h : j ≠ k) (i : Nat) :
    tget none (completeSink (completeSink s j) k).mx.res i = tget none (completeSink (completeSink s k) j).mx.res i := by
  simp only [tget_res_completeSink, resultAfter_completeSink_ne h, resultAfter_completeSink_ne h.symm]
  by_cases hj : i = j
  · simp only [if_pos hj, if_neg (hj ▸ h : i ≠ k)]
  · simp only [if_neg hj]

/-! ### The row -/

/-- A sink whose turn it is completes, and the entries corrected by the way are counted (R20, R23, R51). -/
theorem execSinkComplete_of_turn {t : Frac} {k : Fin 4096} {n : Nat} {s : State} (hc : computing s = true)
    (hr : reservedSink k.val = false) (ht : engineSink k.val = true ∨ feedPending s = false) :
    execSinkComplete t k n s = .next (tableCorrected (completeSink (atT s t) k.val) n) := by
  have hc' : computing (atT s t) = true := hc
  have ht' : engineSink k.val = true ∨ feedPending (atT s t) = false := ht
  have hturn : ¬ (!computing (atT s t) || reservedSink k.val || (!engineSink k.val && feedPending (atT s t))) = true := by
    obtain he | hf := ht'
    · simp [hc', hr, he]
    · simp [hc', hr, hf]
  exact congrArg _ (if_neg hturn)

/-- A step that touches only the mixer drives nothing out and leaves every other part. -/
theorem still_mx (s : State) (t : Frac) (m : Mix) : still [.mx] s { atT s t with mx := m } := by
  refine ⟨rfl, fun p hp => ?_⟩
  cases p with
  | mx => exact absurd (List.mem_singleton.2 rfl) hp
  | _ => rfl

theorem sat32_eq_clamp (x : Int) : sat32 x = max (-2 ^ 31) (min x (2 ^ 31 - 1)) := by
  unfold sat32
  split
  · omega
  · split <;> omega

/-- Settles O4: a sink not settled is completed once, and its completion depends on no other sink's. -/
theorem sinkSums : Obligations.SinkSums := by
  refine ⟨fun t k n s hc hr ht hres hheld hshed => ?_, fun j k s h i => res_completeSink_comm h i, sat32_eq_clamp⟩
  have hopen : settled s k.val = false := by simp [settled, hres, hheld, hshed]
  refine ⟨_, execSinkComplete_of_turn hc hr ht, ?_⟩
  rw [completeSink_of_not_settled (s := atT s t) hopen]
  exact ⟨rfl, still_mx s t _⟩

end Sys2Proof.Proofs.Sinks

/-! The setup lock: what SETUP_LOCK does, what a write of a locked field leaves, and which resets clear the lock
(R305). -/

namespace Sys2Proof.Proofs.SetupLock

open Sys2Proof Sys2Proof.Machine Sys2Proof.Safety Sys2Proof.Laws

/-! ### SETUP_LOCK -/

/-- The state with the RWL fields read-only. -/
def locking (s : State) : State := { s with hl := { s.hl with locked := true } }

theorem locking_of_locked {s : State} (h : s.hl.locked = true) : locking s = s := by
  unfold locking
  rw [← h]

theorem openSlot_locking (s : State) (t : Frac) (op : Nat) (c : Cmd) :
    (openSlot (atT (locking s) t) op c).1 = locking (openSlot (atT s t) op c).1 := by
  simp only [openSlot]
  split <;> rfl

/-- Taking a command in hand leaves the event ring open. -/
theorem openSlot_evtOpen {s : State} {t : Frac} {op : Nat} {c : Cmd} {k : Nat} (h : evtOpen s k) :
    evtOpen (openSlot (atT s t) op c).1 k := by
  simp only [openSlot]
  split <;> exact h

/-- The lock is set and the command completed with OK; the event is not raised yet. -/
def lockDone (s : State) (t : Frac) (c : Cmd) : State :=
  finish (openSlot (atT (locking s) t) 0x0002 c).1 s.hl.nextSlot stOk 0

/-- A SETUP_LOCK that passes the checks locks and completes, and the first one raises SETUP_LOCKED (R305). -/
theorem exec_setupLock {s : State} {t : Frac} {c : Cmd} (h : cmdTaken s c 0x0002 [0x38]) (hf : fieldsOk c [] = true) :
    exec (.setupLock t c) s =
      .next (if s.hl.locked then lockDone s t c else emit (lockDone s t c) 0x0A06 noUnit 0) := by
  have hl : (openSlot (atT s t) 0x0002 c).1.hl.locked = s.hl.locked := by simp
  simp only [exec, execSetupLock, runCmd_ready h hf rfl, hl, lockDone, openSlot_locking]
  cases s.hl.locked <;> rfl

theorem locked_lockDone (s : State) (t : Frac) (c : Cmd) : (lockDone s t c).hl.locked = true := by
  simp [lockDone, locking]

section
variable {s : State} {t : Frac} {c : Cmd} (h : cmdReady s c 0x0002 [0x38])
include h

/-- What the completion reports, what it leaves of the host link and of the bus, and that the event ring stays open. -/
theorem lockDone_alone :
    completed c 0x0002 stOk 0 s (lockDone s t c) ∧ hostIdle (lockDone s t c).hl = hostIdle (locking s).hl ∧
      busIdle (lockDone s t c).tw = busIdle s.tw ∧
      ∀ k, evtOpen (openSlot (atT (locking s) t) 0x0002 c).1 k → evtOpen (lockDone s t c) k := by
  obtain ⟨htaken, hidle⟩ := h
  have htaken' : cmdTaken (locking s) c 0x0002 [0x38] := htaken
  obtain ⟨-, horder, hhost, -⟩ := htaken
  have hopened := openSlot_opened (s := locking s) (t := t) (op := 0x0002) (c := c) horder fun hs => (hhost hs).2
  have hbusy : (openSlot (atT (locking s) t) 0x0002 c).1.hl.busy = none :=
    (congrArg HostSide.busy hopened.host).trans hidle
  obtain ⟨hc, hh, ht, he⟩ := finish_alone (status := stOk) (result := 0) hopened htaken' (.inl hbusy)
  have hnone : ({ hostIdle (locking s).hl with busy := none } : HostSide) = hostIdle (locking s).hl := by
    rw [← hidle]
    rfl
  exact ⟨hc, hh.trans hnone, ht, he⟩

theorem lockDone_onlyCmd : onlyCmd [] (locking s) (lockDone s t c) := by
  obtain ⟨-, hhost, hbus, -⟩ := lockDone_alone (t := t) h
  intro p _
  cases p with
  | hl => exact hhost
  | tw => exact hbus
  | _ => simp [Part.done, Part.same, lockDone]

theorem lockDone_evtOpen {k : Nat} (hk : evtOpen s k) : evtOpen (lockDone s t c) k := by
  obtain ⟨-, -, -, hopen⟩ := lockDone_alone (t := t) h
  exact hopen k (openSlot_evtOpen (s := locking s) hk)

end

/-- Raising an event keeps a frame of a command. -/
theorem onlyCmd_emit {l : List Part} {s u : State} (h : onlyCmd l s u) (code unit : Nat) (p : BitVec 128) :
    onlyCmd l s (emit u code unit p) := by
  intro q hq
  have hu := h q hq
  cases q with
  | hl => exact emit_idle.trans hu
  | tw => exact emit_busIdle.trans hu
  | _ => simpa [Part.done, Part.same] using hu

/-- The lock lies on the host side alone. -/
theorem onlyCmd_of_locking {s u : State} (h : onlyCmd [] (locking s) u) : onlyCmd [.hl] s u := by
  intro p hp
  have hu := h p List.not_mem_nil
  cases p with
  | hl => exact absurd (List.mem_singleton.2 rfl) hp
  | _ => exact hu

theorem setupLock_first {s : State} {t : Frac} {c : Cmd} (h : cmdReady s c 0x0002 [0x38])
    (hf : fieldsOk c [] = true) (hl : s.hl.locked = false) (he : evtOpen s 1) :
    Answers (exec (.setupLock t c) s) fun s' =>
      s'.hl.locked = true ∧ raised s t 0x0A06 noUnit 0 s' ∧ completed c 0x0002 stOk 0 s s' ∧ onlyCmd [.hl] s s' := by
  obtain ⟨hdone, -⟩ := lockDone_alone (t := t) h
  refine ⟨_, exec_setupLock h.1 hf, ?_⟩
  rw [hl, if_neg Bool.false_ne_true]
  refine ⟨?_, ?_, reported_emit hdone, onlyCmd_emit (onlyCmd_of_locking (lockDone_onlyCmd h)) _ _ _⟩
  · simp [locked_lockDone]
  · exact raised_emit (lockDone_evtOpen h he) (by simp [lockDone, locking]) (by simp [lockDone, atT])

theorem setupLock_again {s : State} {t : Frac} {c : Cmd} (h : cmdReady s c 0x0002 [0x38])
    (hf : fieldsOk c [] = true) (hl : s.hl.locked = true) :
    Answers (exec (.setupLock t c) s) fun s' => completed c 0x0002 stOk 0 s s' ∧ onlyCmd [] s s' := by
  obtain ⟨hdone, -⟩ := lockDone_alone (t := t) h
  have honly := lockDone_onlyCmd (t := t) h
  rw [locking_of_locked hl] at honly
  refine ⟨_, exec_setupLock h.1 hf, ?_⟩
  rw [hl, if_pos rfl]
  exact ⟨hdone, honly⟩

/-! ### Writes of a locked field -/

/-- A command that does nothing but take its time. -/
theorem still_atT (s : State) (t : Frac) : still [] s (atT s t) := by
  refine ⟨rfl, fun p _ => ?_⟩
  cases p <;> rfl

/-- A command that touches the two-wire side alone. -/
theorem still_atT_tw (s : State) (t : Frac) (w : TwoWire) : still [.tw] s { atT s t with tw := w } := by
  refine ⟨rfl, fun p hp => ?_⟩
  cases p with
  | tw => exact absurd (List.mem_singleton.2 rfl) hp
  | _ => rfl

/-- A whole 32-bit write of BAR0, aligned and outside the time of the RTC, is one write of a register (R4). -/
theorem exec_registerWrite_word {s : State} {t : Frac} {o : Owner} {off : BitVec 21} {d : BitVec 64}
    (halign : off.toNat % 4 = 0) (hbar : off.toNat < 0x100000) (hrtc : off.toNat < 0x4048 ∨ 0x405C ≤ off.toNat) :
    exec (.registerWrite t o { bar2 := false, wide := false, off := off, be := 0x0F, data := d }) s =
      .next (barWrite32 (atT s t) o .quiet off.toNat (d.setWidth 32)) := by
  have hparts : barParts { bar2 := false, wide := false, off := off, be := 0x0F, data := d } =
      [(off.toNat, d.setWidth 32)] := by
    simp [barParts, barAligned, barOffset, halign, hbar]
  have htouched : rtcTouched (atT s t) [off.toNat] WriteIn.quiet.cycles = atT s t := by
    refine if_neg ?_
    simp only [List.any_cons, List.any_nil, Bool.or_false, Bool.and_eq_true, decide_eq_true_eq]
    omega
  simp only [exec, execRegisterWrite, hparts, List.map_cons, List.map_nil, htouched]
  rfl

/-- A write of BAR0 from the host is the write of the register (R300). -/
theorem barWrite32_host {s : State} {env : WriteIn} {off : Nat} {v : Word} (hheld : held s = false)
    (hbar : off < 0x100000) : barWrite32 s .host env off v = (writeReg s .host env off v).1 := by
  have h1 : ¬ 0x203000 ≤ off := by omega
  have h2 : ¬ 0x200000 ≤ off := by omega
  simp [barWrite32, hheld, h1, h2]

/-- A write of BAR0 that changes nothing gives LAST_WR its code, where it came over the bus (R344). -/
theorem barWrite32_of_discarded {s : State} {o : Owner} {env : WriteIn} {off n : Nat} {v : Word}
    (hheld : held s = false) (hbar : off < 0x100000) (hw : writeReg s o env off v = (s, n)) :
    barWrite32 s o env off v = { s with tw := { s.tw with lastWr := if o = .tw then n else s.tw.lastWr } } := by
  cases o with
  | host => rw [barWrite32_host hheld hbar, hw]; rfl
  | tw => simp [barWrite32, hheld, hbar, hw, setLastWr]
  | peer => simp [barWrite32, hheld, hbar, hw]

theorem regAt_ctRstCfg : (regAt (regOff .ctRstCfg 0)).map (·.1.name) = some .ctRstCfg := by decide

theorem regAt_ctVid : (regAt (regOff .ctVid 0)).map (·.1.name) = some .ctVid := by decide

theorem regAt_hlOwner (g : Fin 0x3A) : (regAt (regOff .hlOwner g.val)).map (·.1.name) = some .hlOwner := by
  revert g
  decide

/-- A write of CT_RST_CFG or CT_VID by an owner of SYSTEM is discarded while the lock is on (R305). -/
theorem writeReg_ct_locked {s : State} {o : Owner} {env : WriteIn} {off : Nat} {v : Word} (hl : s.hl.locked = true)
    (ho : owns s o 0x38 = true) (hoff : off = regOff .ctRstCfg 0 ∨ off = regOff .ctVid 0) :
    writeReg s o env off v = (s, 0) := by
  have hreg : ∃ p, regAt off = some p ∧ (p.1.name = .ctRstCfg ∨ p.1.name = .ctVid) := by
    obtain rfl | rfl := hoff
    · obtain ⟨p, hp, hn⟩ := Option.map_eq_some_iff.1 regAt_ctRstCfg
      exact ⟨p, hp, .inl hn⟩
    · obtain ⟨p, hp, hn⟩ := Option.map_eq_some_iff.1 regAt_ctVid
      exact ⟨p, hp, .inr hn⟩
  have hblock : ¬ 0x8000 ≤ off := by
    obtain rfl | rfl := hoff <;> decide
  obtain ⟨p, hp, hn | hn⟩ := hreg
  · simp [writeReg, hblock, hp, hn, regGroup, regLockable, ho, hl]
  · simp [writeReg, hblock, hp, hn, regGroup, regLockable, ho, hl]

/-- The host's write of an owner mask is discarded while the lock is on (R302, R305). -/
theorem writeReg_hlOwner_locked {s : State} {env : WriteIn} {v : Word} (g : Fin 0x3A) (hl : s.hl.locked = true) :
    writeReg s .host env (regOff .hlOwner g.val) v = (s, 0) := by
  obtain ⟨p, hp, hn⟩ := Option.map_eq_some_iff.1 (regAt_hlOwner g)
  have hlo : 0x8000 ≤ regOff .hlOwner g.val := by simp only [regOff, regPlace]; omega
  have hhi : regOff .hlOwner g.val < 0x10000 := by simp only [regOff, regPlace]; omega
  simp [writeReg, hlo, hhi, hp, hn, hlWrite, hl]

theorem registerWrite_ct_locked {s : State} {t : Frac} {o : Owner} {off : BitVec 21} {d : BitVec 64}
    (hl : s.hl.locked = true) (hheld : held s = false) (ho : owns s o 0x38 = true)
    (hoff : off.toNat = regOff .ctRstCfg 0 ∨ off.toNat = regOff .ctVid 0) :
    Answers (exec (.registerWrite t o { bar2 := false, wide := false, off := off, be := 0x0F, data := d }) s)
      fun s' => s'.tw = { s.tw with lastWr := if o = .tw then 0 else s.tw.lastWr } ∧ still [.tw] s s' := by
  have hplace : off.toNat = 0xC ∨ off.toNat = 0x24 := hoff
  refine ⟨_, exec_registerWrite_word (by omega) (by omega) (by omega), ?_⟩
  rw [barWrite32_of_discarded (s := atT s t) hheld (by omega) (writeReg_ct_locked hl ho hoff)]
  exact ⟨rfl, still_atT_tw s t _⟩

theorem registerWrite_hlOwner_locked {s : State} {t : Frac} {g : Fin 0x3A} {off : BitVec 21} {d : BitVec 64}
    (hl : s.hl.locked = true) (hheld : held s = false) (hoff : off.toNat = regOff .hlOwner g.val) :
    Answers (exec (.registerWrite t .host { bar2 := false, wide := false, off := off, be := 0x0F, data := d }) s)
      fun s' => still [] s s' := by
  have hplace : off.toNat = 0x8400 + 4 * g.val := hoff
  refine ⟨_, exec_registerWrite_word (by omega) (by omega) (by omega), ?_⟩
  rw [barWrite32_host (s := atT s t) hheld (by omega), hoff, writeReg_hlOwner_locked (s := atT s t) g hl]
  exact still_atT s t

theorem ctVidWrite_locked {s : State} {t : Frac} {o : Owner} {v : Word} {r : CtlResult} (hl : s.hl.locked = true)
    (hheld : held s = false) (ho : owns s o 0x38 = true) :
    Answers (exec (.ctVidWrite t o v r) s) fun s' => still [] s s' := by
  have hheld' : held (atT s t) = false := hheld
  have ho' : owns (atT s t) o 0x38 = true := ho
  refine ⟨atT s t, ?_, still_atT s t⟩
  simp [exec, execCtVidWrite, directWrite, inOrder, hheld', ho', hl]

/-! ### Resets -/

/-- A reset of the whole module begins with the lock off, as its scope puts back the host side (R413). -/
theorem locked_beginWide (s : State) (scope src merged : Nat) : (beginWide s scope src merged).hl.locked = false := by
  have hcold : ∀ u : State, (coldState u).hl.locked = false := fun _ => rfl
  have hwarm : ∀ u : State, (warmState u).hl.locked = false := fun _ => rfl
  simp [beginWide, hcold, hwarm]

/-- A COLD or WARM reset clears the lock (R305). -/
theorem locked_startReset_wide {s : State} {scope src : Nat} (hc : s.ct.cur = none) (h : scope < 2) :
    (startReset s scope src).hl.locked = false := by
  have hbegin : startReset s scope src = beginWide s scope src 0 := by simp [startReset, hc, h]
  rw [hbegin, locked_beginWide]

/-- A CONTROL or HOST reset begins, or is merged into the one in progress: neither touches the lock. -/
theorem locked_startReset_narrow {s : State} {scope src : Nat} (hc : s.ct.cur = none) (h : 2 ≤ scope) :
    (startReset s scope src).hl.locked = s.hl.locked := by
  have hwide : ¬ scope < 2 := by omega
  simp only [startReset, hc, if_neg hwide]
  split
  · cases s.ct.ctlReset with
    | some _ => rfl
    | none => simp
  · cases s.ct.hostReset with
    | some _ => rfl
    | none => simp

/-! ### The lock -/

/-- Settles O59: the lock is set once and reported once, discards the writes of its fields without a count, and ends
with a COLD or WARM reset only. -/
theorem setupLock : Obligations.SetupLock :=
  ⟨fun _ _ _ hready hf hl he => setupLock_first hready hf hl he,
   fun _ _ _ hready hf hl => setupLock_again hready hf hl,
   fun _ _ _ _ _ hl hheld ho hoff => registerWrite_ct_locked hl hheld ho hoff,
   fun _ _ _ _ _ hl hheld hoff => registerWrite_hlOwner_locked hl hheld hoff,
   fun _ _ _ _ _ hl hheld ho => ctVidWrite_locked hl hheld ho,
   fun _ _ _ hc h => locked_startReset_wide hc h,
   fun _ _ _ hc h => locked_startReset_narrow hc h⟩

end Sys2Proof.Proofs.SetupLock

/-! The two-wire RESET: a HOST reset does not leave the two-wire side as it was (R332, R334, R351). -/

namespace Sys2Proof.Proofs.BusReset

open Sys2Proof Sys2Proof.Machine Sys2Proof.Safety

/-- A module in service: context 3 plays in stream group 0, which started at frame 4, and TW_EV_MASK asks for a copy of
every event of block 0x0A, to which those of the streams belong (R310, R351). -/
def streaming : State :=
  let served : State := { State.reset with
    fr := { Frame.reset with running := true, fn := 5, next := 6 }
    pd := { Domains.reset with on := 0xFFF }
    ct := { Control.reset with phase := .done, cur := none, rstDriven := false, perst := false } }
  let playing : State := setBit (setCtx served 3 { Ctx.reset with st := .running }) .strCfg 3 31 true
  setReg (setGrp playing 0 { st := .running, start := 4 }) .twEvMask 0 (1 <<< 0x0A)

/-- GROUP_STATE as group 0 goes from RUNNING to IDLE because its last member left, with its start frame 4 (R334). -/
def groupIdle : Event :=
  { code := 0x0A17, unit := 0, fn := 5, frac := 0, payload := pay [(0, 1, 2), (1, 1, 0), (2, 1, 2), (4, 6, 4)] }

theorem streaming_unreset : streaming.ct.cur = none ∧ streaming.ct.hostReset = none := ⟨rfl, rfl⟩

theorem streaming_queue : streaming.tw.queue = [] := rfl

/-- The HOST reset returns the group to IDLE, which raises GROUP_STATE, and the bus queue takes its copy. -/
theorem startReset_host_streaming_queue : (startReset streaming 3 7).tw.queue = [groupIdle] := by
  decide

/-- Refutes O47: its clause on the scope HOST says that nothing of the two-wire side moves but `cmdAfter`, while a HOST
reset returns every stream group to IDLE (R332), and the GROUP_STATE of a group that ran is copied into the two-wire
queue where TW_EV_MASK asks for it (R351). -/
theorem not_busReset : ¬ Obligations.BusReset := by
  unfold Obligations.BusReset
  rintro ⟨-, -, -, -, -, -, hhost⟩
  obtain ⟨hcur, hreset⟩ := streaming_unreset
  obtain ⟨hbegun, -⟩ := hhost 7 streaming hcur hreset
  obtain ⟨-, -, -, -, -, -, -, -, -, -, -, -, htw, -⟩ := hbegun
  have hkept : (startReset streaming 3 7).tw.queue = [] := by rw [htw, streaming_queue]
  exact absurd (startReset_host_streaming_queue ▸ hkept) (List.cons_ne_nil _ _)

end Sys2Proof.Proofs.BusReset

/-! The queue of commands: no operation of a command touches it, so a queue runs whole and in order (R2, R486). -/

namespace Sys2Proof.Proofs.Queue

open Sys2Proof Sys2Proof.Machine Sys2Proof.Safety Sys2Proof.Laws

/-! ### Resets and wakes leave the queue -/

@[simp] theorem coldState_pending (s : State) : (coldState s).pending = s.pending := rfl

@[simp] theorem warmState_pending (s : State) : (warmState s).pending = s.pending := rfl

@[simp] theorem beginWide_pending (s : State) (scope src merged : Nat) :
    (beginWide s scope src merged).pending = s.pending := by
  simp only [beginWide, push]
  (repeat' split) <;> simp

@[simp] theorem startReset_pending (s : State) (scope src : Nat) : (startReset s scope src).pending = s.pending := by
  simp only [startReset]
  (repeat' split) <;> simp

@[simp] theorem beginAfter_pending (s : State) (a : AfterDone) : (beginAfter s a).pending = s.pending := by
  cases a <;> simp [beginAfter]

@[simp] theorem furtherReset_pending (s : State) (src : Nat) : (furtherReset s src).pending = s.pending := by
  simp [furtherReset]

@[simp] theorem controlDone_pending (s : State) (c : Nat × Nat) (us : Nat) (fell : Bool) :
    (controlDone s c us fell).pending = s.pending := by
  simp only [controlDone]
  (repeat' split) <;> simp

@[simp] theorem bringupDone_pending (s : State) (r : Reset) (us : Nat) :
    (bringupDone s r us).pending = s.pending := by
  simp only [bringupDone]
  (repeat' split) <;> simp

@[simp] theorem wakeSleep_pending (s : State) (src awc : Nat) : (wakeSleep s src awc).pending = s.pending := by
  simp only [wakeSleep, push]
  split <;> simp

@[simp] theorem wakeArrives_pending (s : State) (src awc : Nat) : (wakeArrives s src awc).pending = s.pending := by
  simp only [wakeArrives]
  (repeat' split) <;> simp

@[simp] theorem standbyWakes_pending (s : State) (src cycles : Nat) :
    (standbyWakes s src cycles).pending = s.pending := by
  simp only [standbyWakes]
  split <;> simp

@[simp] theorem ringDoorbell_pending (s : State) (full : Bool) (v : Word) (cycles : Nat) :
    (ringDoorbell s full v cycles).pending = s.pending := by
  simp only [ringDoorbell]
  split <;> simp

@[simp] theorem twResets_pending (s : State) (scope : Nat) : (twResets s scope).pending = s.pending := by
  simp only [twResets]
  split <;> simp

/-! ### Operations that are given what to do -/

@[simp] theorem thenDo_pending {f : State → AfterDone → State} (h : ∀ s a, (f s a).pending = s.pending) (s : State)
    (slot : Nat) (a : AfterDone) : (thenDo f s slot a).pending = s.pending := by
  simp only [thenDo]
  split <;> simp [h]

@[simp] theorem resume_pending {f : State → AfterDone → State} (h : ∀ s a, (f s a).pending = s.pending) (s : State) :
    (resume f s).pending = s.pending := by
  simp only [resume]
  (repeat' split) <;> simp [h]

@[simp] theorem endWrite_pending {run : State → State} (h : ∀ s, (run s).pending = s.pending) (s : State) (x : TwTx)
    (why : Nat) : (endWrite s x why run).pending = s.pending := by
  simp only [endWrite]
  split <;> simp [h]

@[simp] theorem writeBody_pending {run : State → Bytes → State} (h : ∀ s d, (run s d).pending = s.pending) (s : State)
    (code : Byte) (x : TwTx) (head n : Nat) : (writeBody s code x head n run).pending = s.pending := by
  simp only [writeBody]
  (repeat' split) <;> simp [h]

@[simp] theorem writeCode_pending {k : State → State} (h : ∀ s, (k s).pending = s.pending) (s : State) (x : TwTx) :
    (writeCode s x k).pending = s.pending := by
  simp only [writeCode]
  (repeat' split) <;> simp [h]

@[simp] theorem blockWrite_pending {run : State → Bytes → State} (h : ∀ s d, (run s d).pending = s.pending) (s : State)
    (code : Byte) (x : TwTx) (ok : Nat → Bool) : (blockWrite s code x ok run).pending = s.pending := by
  simp only [blockWrite]
  (repeat' split) <;> simp [h]

@[simp] theorem wakingWrite_pending {run : State → Bytes → State} (h : ∀ s d, (run s d).pending = s.pending)
    (s : State) (code : Byte) (x : TwTx) (ok : Nat → Bool) : (wakingWrite s code x ok run).pending = s.pending := by
  simp only [wakingWrite]
  split <;> simp [h]

@[simp] theorem windowTake_pending {f : State → State} (h : ∀ s, (f s).pending = s.pending) (s : State) (src : Owner)
    (off : Nat) (gs : List Nat) : (windowTake s src off gs f).1.pending = s.pending := by
  simp only [windowTake]
  split <;> simp [h]

@[simp] theorem applyDue_pending {f : State → Staged → State} (h : ∀ s i, (f s i).pending = s.pending) (s : State)
    (p : Item → Bool) : (applyDue s p f).pending = s.pending := by
  simp [applyDue, h]

/-! ### The boundary, register writes and the end of STANDBY -/

@[simp] theorem applyFwActivate_pending (s : State) : (applyFwActivate s).pending = s.pending := by
  simp [applyFwActivate]

@[simp] theorem boundary_pending (s : State) (late : List (Nat × Bool)) (bad : List Damage) :
    (boundary s late bad).pending = s.pending := by
  simp only [boundary]
  split <;> simp

@[simp] theorem barWrite32_pending (s : State) (src : Owner) (env : WriteIn) (off : Nat) (v : Word) :
    (barWrite32 s src env off v).pending = s.pending := by
  simp only [barWrite32]
  (repeat' split) <;> simp

@[simp] theorem applyLate_pending (s : State) (c : Nat × Bytes) : (applyLate s c).pending = s.pending := by
  simp only [applyLate]
  (repeat' split) <;> simp

end Sys2Proof.Proofs.Queue

/-! The bounds of the two-wire side (R344, R347, R351): every operation of the model keeps them. -/

namespace Sys2Proof.Proofs.Bus

open Sys2Proof Sys2Proof.Machine Sys2Proof.Safety Sys2Proof.Laws

/-- What `BusOk` says of the two-wire side. -/
structure TwOk (w : TwoWire) : Prop where
  queue : w.queue.length ≤ 64
  lastWr : w.lastWr ≤ 6
  buf : bufWf w.buf = true

@[simp] theorem twOk_queue {w : TwoWire} (h : TwOk w) : w.queue.length ≤ 64 := h.queue

@[simp] theorem twOk_lastWr {w : TwoWire} (h : TwOk w) : w.lastWr ≤ 6 := h.lastWr

@[simp] theorem twOk_buf {w : TwoWire} (h : TwOk w) : bufWf w.buf = true := h.buf

@[simp] theorem twOk_mk {buf queue lost lostFirst lostLast evLost lastWr cmdPend resultReady result resultPhase armed wanted notifyOk cmd cmdAfter late notify vmsg stuck vstuck bus flags arbCount arbByte arbBit pecErrors pecAt busyNacks stretchResets addrNacks} :
    TwOk ⟨buf, queue, lost, lostFirst, lostLast, evLost, lastWr, cmdPend, resultReady, result, resultPhase, armed, wanted, notifyOk, cmd, cmdAfter, late, notify, vmsg, stuck, vstuck, bus, flags, arbCount, arbByte, arbBit, pecErrors, pecAt, busyNacks, stretchResets, addrNacks⟩ ↔ queue.length ≤ 64 ∧ lastWr ≤ 6 ∧ bufWf buf = true :=
  ⟨fun h => ⟨h.queue, h.lastWr, h.buf⟩, fun ⟨a, b, c⟩ => ⟨a, b, c⟩⟩

@[simp] theorem ite_twOk {c : Prop} [Decidable c] {v w : TwoWire} (hv : TwOk v) (hw : TwOk w) :
    TwOk (if c then v else w) := by split <;> assumption

@[simp] theorem each_twOk {α : Type} {l : List α} {s : State} {f : State → α → State}
    (h : ∀ s a, TwOk s.tw → TwOk (f s a).tw) (hs : TwOk s.tw) : TwOk (each l s f).tw :=
  each_invariant (I := fun s => TwOk s.tw) h l s hs

@[simp] theorem foldl_twOk {α : Type} {l : List α} {s : State} {f : State → α → State}
    (h : ∀ s a, TwOk s.tw → TwOk (f s a).tw) (hs : TwOk s.tw) : TwOk (l.foldl f s).tw := each_twOk h hs

@[simp] theorem foldl_fst_twOk {α β : Type} {l : List α} {a : State × β} {f : State × β → α → State × β}
    (h : ∀ a x, TwOk a.1.tw → TwOk (f a x).1.tw) (hs : TwOk a.1.tw) : TwOk (l.foldl f a).1.tw := by
  induction l generalizing a with
  | nil => exact hs
  | cons x r ih => exact ih (h a x hs)

@[simp] theorem foldl_snd_twOk {α β : Type} {l : List α} {a : β × State} {f : β × State → α → β × State}
    (h : ∀ a x, TwOk a.2.tw → TwOk (f a x).2.tw) (hs : TwOk a.2.tw) : TwOk (l.foldl f a).2.tw := by
  induction l generalizing a with
  | nil => exact hs
  | cons x r ih => exact ih (h a x hs)

@[simp] theorem followAttention_twOk {s : State} (hb : TwOk s.tw) : TwOk (followAttention s).tw := by
  unfold followAttention
  dsimp only
  (repeat' split) <;> simp [hb]

@[simp] theorem twFlush_twOk {s : State} (hb : TwOk s.tw) : TwOk (twFlush s).tw := by
  unfold twFlush
  obtain ⟨hq, hl, hf⟩ := hb
  split
  · rename_i hc
    simp only [Bool.and_eq_true, decide_eq_true_eq] at hc
    exact ⟨by simp; omega, hl, hf⟩
  · exact ⟨hq, hl, hf⟩

@[simp] theorem twQueue_twOk {s : State} {e : Event} (hb : TwOk s.tw) : TwOk (twQueue s e).tw := by
  unfold twQueue
  have h := twFlush_twOk hb
  generalize twFlush s = u at h
  obtain ⟨hq, hl, hf⟩ := h
  dsimp only
  split
  · rename_i hc
    simp only [Bool.and_eq_true, decide_eq_true_eq] at hc
    exact followAttention_twOk ⟨by simp; omega, hl, hf⟩
  · exact ⟨hq, hl, hf⟩

@[simp] theorem twCopy_twOk {s : State} {e : Event} (hb : TwOk s.tw) : TwOk (twCopy s e).tw := by
  simp [twCopy, hb]

@[simp] theorem emitAt_twOk {s : State} {code : Nat} {unit : Nat} {fn : Nat} {frac : Frac} {p : BitVec 128} (hb : TwOk s.tw) :
    TwOk (emitAt s code unit fn frac p).tw := by
  simp [emitAt, hb]

@[simp] theorem emit_twOk {s : State} {code : Nat} {unit : Nat} {p : BitVec 128} (hb : TwOk s.tw) :
    TwOk (emit s code unit p).tw := by
  simp [emit, hb]

@[simp] theorem holdEvent_twOk {s : State} {code : Nat} {unit : Nat} {p : BitVec 128} (hb : TwOk s.tw) :
    TwOk (holdEvent s code unit p).tw := by
  simp [holdEvent, hb]

@[simp] theorem refusedEvent_twOk {s : State} {src : Owner} {tag : Nat} {g : Nat} (hb : TwOk s.tw) :
    TwOk (refusedEvent s src tag g).tw := by
  simp [refusedEvent, hb]

@[simp] theorem ownerRefuse_twOk {s : State} {src : Owner} {tag : Nat} {gs : List Nat} (hb : TwOk s.tw) :
    TwOk (ownerRefuse s src tag gs).tw := by
  simp +contextual [ownerRefuse, hb]

@[simp] theorem superseded_twOk {s : State} {loser : Owner} {winner : Owner} {tag : Nat} {g : Nat} {now : optParam Bool false} (hb : TwOk s.tw) :
    TwOk (superseded s loser winner tag g now).tw := by
  simp [superseded, hb]

@[simp] theorem noteWrite_twOk {s : State} {src : Owner} {off : Nat} {g : Nat} (hb : TwOk s.tw) :
    TwOk (noteWrite s src off g).1.tw := by
  unfold noteWrite
  dsimp only
  (repeat' split) <;> simp [hb]

@[simp] theorem inOrder_twOk {s : State} {src : Owner} {off g : Nat} {ok : Bool} {f : State → State}
    (h : ∀ s, TwOk s.tw → TwOk (f s).tw) (hb : TwOk s.tw) : TwOk (inOrder s src off g ok f).tw := by
  unfold inOrder
  have hn := noteWrite_twOk (src := src) (off := off) (g := g) hb
  dsimp only
  (repeat' split) <;> simp [h, hb, hn]

@[simp] theorem windowTake_twOk {s : State} {src : Owner} {off : Nat} {gs : List Nat} {f : State → State}
    (h : ∀ s, TwOk s.tw → TwOk (f s).tw) (hb : TwOk s.tw) : TwOk (windowTake s src off gs f).1.tw := by
  unfold windowTake
  dsimp only
  split
  · exact h s hb
  · exact ownerRefuse_twOk hb

@[simp] theorem writeCompletion_twOk {s : State} {c : CmpSlot} {status : Nat} {result : Nat} (hb : TwOk s.tw) :
    TwOk (writeCompletion s c status result).tw := by
  unfold writeCompletion
  (repeat' split) <;> simp [hb]

@[simp] theorem flushOrder_twOk {l : List CmpSlot} {s : State} (hb : TwOk s.tw) : TwOk (flushOrder l s).2.tw := by
  induction l generalizing s with
  | nil => exact hb
  | cons c r ih =>
    unfold flushOrder
    (repeat' split) <;> simp [hb, ih]

@[simp] theorem busyOver_twOk {s : State} (hb : TwOk s.tw) : TwOk (busyOver s).tw := by
  unfold busyOver
  (repeat' split) <;> simp [hb]

@[simp] theorem flushCompletions_twOk {s : State} (hb : TwOk s.tw) : TwOk (flushCompletions s).tw := by
  simp [flushCompletions, hb]

@[simp] theorem finish_twOk {s : State} {slot : Nat} {status : Nat} {result : Nat} (hb : TwOk s.tw) :
    TwOk (finish s slot status result).tw := by
  simp [finish, hb]

@[simp] theorem acceptCmd_twOk {s : State} {b : Bytes} (hb : TwOk s.tw) : TwOk (acceptCmd s b).tw := by
  simp [acceptCmd, hb]

@[simp] theorem openSlot_twOk {s : State} {op : Nat} {c : Cmd} (hb : TwOk s.tw) : TwOk (openSlot s op c).1.tw := by
  simp [openSlot, hb]

@[simp] theorem endLong_twOk {s : State} {us : Word} {status : Nat} {result : Nat} (hb : TwOk s.tw) :
    TwOk (endLong s us status result).tw := by
  unfold endLong
  (repeat' split) <;> simp [hb]

/-- What a command leaves in the buffer fits it when its length passed the check of its address (R347). -/
theorem cmdWrite_twOk {s : State} {c : Cmd} {i : Nat} {b : Bytes} (hl : fldN (pwN c i) 15 0 + b.length ≤ 65536)
    (hb : TwOk s.tw) : TwOk (cmdWrite s c i b).tw := by
  refine ⟨?_, ?_, bufWf_cmdWrite hl hb.buf⟩
  all_goals
    unfold cmdWrite
    split <;> simp [hb]

@[simp] theorem setLastWr_twOk {s : State} {v : Nat} (hv : v ≤ 6) (hb : TwOk s.tw) : TwOk (setLastWr s v).tw := by
  simp [setLastWr, hb, hv]

@[simp] theorem nackBusy_twOk {s : State} (hb : TwOk s.tw) : TwOk (nackBusy s).tw := by
  simp [nackBusy, hb]

@[simp] theorem discard_twOk {s : State} {src : Owner} (hb : TwOk s.tw) : TwOk (discard s src).tw := by
  unfold Machine.discard
  split <;> simp [hb]

@[simp] theorem ringCfg_twOk {s : State} {r : Nat} {v : Word} (hb : TwOk s.tw) : TwOk (ringCfg s r v).tw := by
  unfold ringCfg
  dsimp only
  (repeat' split) <;> simp [hb]

@[simp] theorem haltRing_twOk {s : State} {cause : Nat} (hb : TwOk s.tw) : TwOk (haltRing s cause).tw := by
  simp [haltRing, hb]

@[simp] theorem linkOpens_twOk {s : State} (hb : TwOk s.tw) : TwOk (linkOpens s).tw := by
  simp [linkOpens, hb]

@[simp] theorem linkChanges_twOk {s : State} {x : LinkIn} {what : Nat} (hb : TwOk s.tw) :
    TwOk (linkChanges s x what).tw := by
  unfold linkChanges
  (repeat' split) <;> simp [hb]

@[simp] theorem nackAddr_twOk {s : State} (hb : TwOk s.tw) : TwOk (nackAddr s).tw := by
  simp [nackAddr, hb]

@[simp] theorem pecError_twOk {s : State} {code : Byte} (hb : TwOk s.tw) : TwOk (pecError s code).tw := by
  unfold pecError
  dsimp only
  split
  · exact emit_twOk (by simp [hb])
  · simp [hb]

@[simp] theorem keepLate_twOk {s : State} {code : Byte} {d : Bytes} (hb : TwOk s.tw) :
    TwOk (keepLate s code d).tw := by
  simp [keepLate, hb]

@[simp] theorem procCall_twOk {s : State} {code : Byte} {x : TwTx} {w : Nat} {k : State → Bytes → Bytes} (hb : TwOk s.tw) :
    TwOk (procCall s code x w k).tw := by
  have ha : ∀ (u : State) (n : Nat) (r : Bytes), TwOk u.tw → TwOk (twAnswer u code x n r).tw := by
    intro u n r hu
    simpa using hu
  have he : endedEarly x.fin ≤ 6 := by
    unfold endedEarly
    split <;> decide
  unfold procCall
  (repeat' split) <;> simp [ha, he, hb]

@[simp] theorem answered_twOk {s : State} (hb : TwOk s.tw) : TwOk (answered s).tw := by
  simp [answered, hb]

@[simp] theorem setFlag_twOk {s : State} {b : Nat} (hb : TwOk s.tw) : TwOk (setFlag s b).tw := by
  simp [setFlag, hb]

@[simp] theorem notifyFailed_twOk {s : State} {cause : Nat} (hb : TwOk s.tw) : TwOk (notifyFailed s cause).tw := by
  have h := setFlag_twOk (s := { s with tw := { s.tw with notify := none, notifyOk := false } }) (b := 5) (by simp [hb])
  unfold notifyFailed
  exact emit_twOk h

@[simp] theorem arbLost_twOk {s : State} {byte bitNo what : Nat} {asTarget : Bool} (hb : TwOk s.tw) :
    TwOk (arbLost s byte bitNo what asTarget).tw := by
  unfold arbLost
  exact emit_twOk (setFlag_twOk (by simp [hb]))

@[simp] theorem sdaStuck_twOk {s : State} {n : Nat} (hb : TwOk s.tw) : TwOk (sdaStuck s n).tw := by
  simp [sdaStuck, hb]

@[simp] theorem notifyStuck_twOk {s : State} (hb : TwOk s.tw) : TwOk (notifyStuck s).tw := by
  unfold notifyStuck
  dsimp only
  have h := sdaStuck_twOk (n := s.tw.stuck + 1) hb
  split
  · simp [h]
  · exact notifyFailed_twOk (by simp [h])

@[simp] theorem vcoreStuck_twOk {s : State} (hb : TwOk s.tw) : TwOk (vcoreStuck s).tw := by
  unfold vcoreStuck
  dsimp only
  (repeat' split) <;> simp [hb]

@[simp] theorem stretched_twOk {s : State} {target : Bool} {code : Byte} (hb : TwOk s.tw) :
    TwOk (stretched s target code).tw := by
  unfold stretched
  exact emit_twOk (setFlag_twOk (by simp [hb]))

@[simp] theorem sendNotify_twOk {s : State} {n : Nat} {r : CtlResult} (hb : TwOk s.tw) :
    TwOk (sendNotify s n r).tw := by
  unfold sendNotify
  (repeat' split) <;> simp [hb]

@[simp] theorem sendVcore_twOk {s : State} {level : Nat} {r : CtlResult} (hb : TwOk s.tw) :
    TwOk (sendVcore s level r).tw := by
  unfold sendVcore
  (repeat' split) <;> simp [hb]

@[simp] theorem takeNotify_twOk {s : State} (hb : TwOk s.tw) : TwOk (takeNotify s).tw := by
  simp [takeNotify, hb]

@[simp] theorem setVcore_twOk {s : State} {level : Nat} {r : CtlResult} (hb : TwOk s.tw) :
    TwOk (setVcore s level r).tw := by
  simp [setVcore, hb]

@[simp] theorem writeVid_twOk {s : State} {v : Word} {r : CtlResult} (hb : TwOk s.tw) : TwOk (writeVid s v r).tw := by
  simp [writeVid, hb]

@[simp] theorem pantryWear_twOk {s : State} {what : Nat} (hb : TwOk s.tw) : TwOk (pantryWear s what).tw := by
  simp [pantryWear, hb]

@[simp] theorem noteWear_twOk {s : State} (hb : TwOk s.tw) : TwOk (noteWear s).tw := by
  refine each_twOk (fun s k hs => ?_) hb
  split
  · exact pantryWear_twOk hs
  · exact hs

@[simp] theorem retireLine_twOk {s : State} {line : Nat} {copied : Bool} (hb : TwOk s.tw) :
    TwOk (retireLine s line copied).tw := by
  unfold retireLine
  dsimp only
  (repeat' split) <;> simp [hb]

@[simp] theorem writeLine_twOk {s : State} {line : Nat} (hb : TwOk s.tw) : TwOk (writeLine s line).tw := by
  unfold writeLine
  dsimp only
  (repeat' split) <;> simp [hb]

@[simp] theorem pantryReads_twOk {s : State} {l : List Correction} (hb : TwOk s.tw) : TwOk (pantryReads s l).tw := by
  refine each_twOk (fun s c hs => ?_) hb
  dsimp only
  split
  · exact writeLine_twOk hs
  · exact hs

@[simp] theorem commitLines_twOk {s : State} {l : List Nat} (hb : TwOk s.tw) : TwOk (commitLines s l).tw := by
  have h : ∀ (k : List Nat) (u : State), TwOk u.tw → TwOk (each k u writeLine).tw :=
    fun k u => each_twOk (fun _ _ => writeLine_twOk)
  unfold commitLines
  dsimp only
  exact h _ _ (h _ _ hb)

@[simp] theorem refuseImage_twOk {s : State} {b : Bytes} {status : Nat} {step : Nat} (hb : TwOk s.tw) :
    TwOk (refuseImage s b status step).tw := by
  simp [refuseImage, hb]

@[simp] theorem advanceCtr_twOk {s : State} {h : Header} (hb : TwOk s.tw) : TwOk (advanceCtr s h).tw := by
  unfold advanceCtr
  (repeat' split) <;> simp [hb]

@[simp] theorem fwWrite_twOk {s : State} {img : Bytes} {body : Bytes} (hb : TwOk s.tw) :
    TwOk (fwWrite s img body).tw := by
  simp [fwWrite, hb]

@[simp] theorem fwStaged_twOk {s : State} {us : Word} {img : Bytes} {fwOk : Bool} {nvOk : Bool} (hb : TwOk s.tw) :
    TwOk (fwStaged s us img fwOk nvOk).tw := by
  unfold fwStaged
  have h := fwWrite_twOk (img := img) (body := img) hb
  split
  · exact endLong_twOk (refuseImage_twOk hb)
  · dsimp only
    (repeat' split)
    · exact endLong_twOk (refuseImage_twOk hb)
    · exact endLong_twOk hb
    · exact endLong_twOk (emit_twOk (fwWrite_twOk hb))

@[simp] theorem fwFallen_twOk {s : State} {cause : Nat} (hb : TwOk s.tw) : TwOk (fwFallen s cause).tw := by
  simp [fwFallen, hb]

@[simp] theorem storeKey_twOk {s : State} {d : Nat} (hb : TwOk s.tw) : TwOk (storeKey s d).tw := by
  simp [storeKey, hb]

@[simp] theorem keygenDone_twOk {s : State} {us : Word} {d : Nat} {nvOk : Bool} (hb : TwOk s.tw) :
    TwOk (keygenDone s us d nvOk).tw := by
  unfold keygenDone
  (repeat' split) <;> simp [hb]

@[simp] theorem enrolDone_twOk {s : State} {us : Word} {i : Nat} {h : Bytes} {nvOk : Bool} (hb : TwOk s.tw) :
    TwOk (enrolDone s us i h nvOk).tw := by
  unfold enrolDone
  (repeat' split) <;> simp [hb]

@[simp] theorem revokeDone_twOk {s : State} {us : Word} {i : Nat} {nvOk : Bool} (hb : TwOk s.tw) :
    TwOk (revokeDone s us i nvOk).tw := by
  unfold revokeDone
  (repeat' split) <;> simp [hb]

@[simp] theorem setPair_twOk {s : State} {n : PairState} (hb : TwOk s.tw) : TwOk (setPair s n).tw := by
  simp [setPair, hb]

@[simp] theorem authFail_twOk {s : State} {reason : Nat} (hb : TwOk s.tw) : TwOk (authFail s reason).tw := by
  simp [authFail, hb]

@[simp] theorem setLanes_twOk {s : State} {l : Nat} (hb : TwOk s.tw) : TwOk (setLanes s l).tw := by
  unfold setLanes
  dsimp only
  (repeat' split) <;> simp [hb]

@[simp] theorem commitApplied_twOk {s : State} {c : Commit} (hb : TwOk s.tw) : TwOk (commitApplied s c).tw := by
  simp [commitApplied, hb]

@[simp] theorem cancelledEvents_twOk {s : State} {l : List Commit} {first : Nat} {rest : Nat} (hb : TwOk s.tw) :
    TwOk (cancelledEvents s l first rest).tw := by
  unfold cancelledEvents
  (repeat' split) <;> simp +contextual [*]

@[simp] theorem reportLanes_twOk {s : State} (hb : TwOk s.tw) : TwOk (reportLanes s).tw := by
  simp +contextual [reportLanes, hb]

@[simp] theorem retireLane_twOk {s : State} {l : Nat} (hb : TwOk s.tw) : TwOk (retireLane s l).tw := by
  unfold retireLane
  dsimp only
  (repeat' split) <;> simp [hb]

@[simp] theorem retireLanes_twOk {s : State} (hb : TwOk s.tw) : TwOk (retireLanes s).tw := by
  simp +contextual [retireLanes, hb]

@[simp] theorem shedEvents_twOk {s : State} {l : List (Nat × Nat × Nat)} (hb : TwOk s.tw) :
    TwOk (shedEvents s l).tw := by
  simp +contextual [shedEvents, hb]

@[simp] theorem budgetEvent_twOk {s : State} {old : Nat} {new : Nat} {cause : Nat} (hb : TwOk s.tw) :
    TwOk (budgetEvent s old new cause).tw := by
  simp [budgetEvent, hb]

@[simp] theorem freeDamaged_twOk {s : State} (hb : TwOk s.tw) : TwOk (freeDamaged s).tw := by
  unfold freeDamaged
  dsimp only
  (repeat' split) <;> simp +contextual [*]

@[simp] theorem reportClips_twOk {s : State} (hb : TwOk s.tw) : TwOk (reportClips s).tw := by
  refine each_twOk (fun s c hs => ?_) (by simpa using hb)
  dsimp only
  split
  · exact emit_twOk hs
  · exact hs

@[simp] theorem reportEngineClip_twOk {s : State} {e : Nat} (hb : TwOk s.tw) : TwOk (reportEngineClip s e).tw := by
  unfold reportEngineClip
  (repeat' split) <;> simp [hb]

@[simp] theorem reportEngineClips_twOk {s : State} (hb : TwOk s.tw) : TwOk (reportEngineClips s).tw := by
  simp +contextual [reportEngineClips, hb]

@[simp] theorem refuseParam_twOk {s : State} {e : Nat} {n : Nat} {w : Nat} {attr : Nat} (hb : TwOk s.tw) :
    TwOk (refuseParam s e n w attr).tw := by
  simp [refuseParam, hb]

@[simp] theorem writePdata_twOk {s : State} {o : Owner} {v : Word} (hb : TwOk s.tw) : TwOk (writePdata s o v).tw := by
  simp [writePdata, hb]

@[simp] theorem discardSets_twOk {s : State} {e : Nat} {cause : Nat} (hb : TwOk s.tw) :
    TwOk (discardSets s e cause).tw := by
  simp +contextual [discardSets, hb]

@[simp] theorem failEngine_twOk {s : State} {e : Nat} (hb : TwOk s.tw) : TwOk (failEngine s e).tw := by
  unfold failEngine
  (repeat' split) <;> simp [hb]

@[simp] theorem failEngines_twOk {s : State} (hb : TwOk s.tw) : TwOk (failEngines s).tw := by
  simp +contextual [failEngines, hb]

@[simp] theorem applySwap_twOk {s : State} {e : Nat} {r : Recipe} (hb : TwOk s.tw) : TwOk (applySwap s e r).tw := by
  unfold applySwap
  dsimp only
  (repeat' split) <;> simp [hb]

@[simp] theorem clearedEvent_twOk {s : State} {e : Nat} {x : Engine} (hb : TwOk s.tw) :
    TwOk (clearedEvent s e x).tw := by
  simp [clearedEvent, hb]

@[simp] theorem applyClear_twOk {s : State} {e : Nat} (hb : TwOk s.tw) : TwOk (applyClear s e).tw := by
  unfold applyClear
  dsimp only
  (repeat' split) <;> simp [hb]

@[simp] theorem applyParams_twOk {s : State} {o : Owner} {sets : List (Nat × Tbl Word)} {notify : Bool} {seen : List (Nat × Nat × Owner)} (hb : TwOk s.tw) :
    TwOk (applyParams s o sets notify seen).1.tw := by
  unfold applyParams
  dsimp only
  split
  · refine emit_twOk (each_twOk (fun _ _ h => by simp [h]) (each_twOk (fun _ _ => superseded_twOk) hb))
  · exact each_twOk (fun _ _ h => by simp [h]) (each_twOk (fun _ _ => superseded_twOk) hb)

@[simp] theorem applyBypass_twOk {s : State} {e : Nat} {v : Word} (hb : TwOk s.tw) : TwOk (applyBypass s e v).tw := by
  simp [applyBypass, hb]

@[simp] theorem loadEnd_twOk {s : State} {us : Word} {e : Nat} {container : Bool} {img : Bytes} {src : Owner} {nvOk : Bool} {prefer : List (Fin 1024)} (hb : TwOk s.tw) :
    TwOk (loadEnd s us e container img src nvOk prefer).tw := by
  unfold loadEnd
  dsimp only
  (repeat' split) <;> simp [hb]

@[simp] theorem chStopped_twOk {s : State} {c : Nat} (hb : TwOk s.tw) : TwOk (chStopped s c).tw := by
  simp [chStopped, hb]

@[simp] theorem chStarted_twOk {s : State} {c : Nat} (hb : TwOk s.tw) : TwOk (chStarted s c).tw := by
  simp [chStarted, hb]

@[simp] theorem muteCh_twOk {cause : Nat} {s : State} {c : Nat} (hb : TwOk s.tw) : TwOk (muteCh cause s c).tw := by
  unfold muteCh
  (repeat' split) <;> simp [hb]

@[simp] theorem rearmRefused_twOk {s : State} {c : Nat} {reason : Nat} {fn : Nat} {t : Frac} (hb : TwOk s.tw) :
    TwOk (rearmRefused s c reason fn t).tw := by
  simp [rearmRefused, hb]

@[simp] theorem enableCh_twOk {s : State} {c : Nat} (hb : TwOk s.tw) : TwOk (enableCh s c).tw := by
  unfold enableCh
  (repeat' split) <;> simp [hb]

@[simp] theorem rearmTakes_twOk {s : State} {c : Nat} (hb : TwOk s.tw) : TwOk (rearmTakes s c).tw := by
  unfold rearmTakes
  dsimp only
  (repeat' split) <;> simp [hb]

@[simp] theorem applyChCtrl_twOk {s : State} {c : Nat} {v : Word} (hb : TwOk s.tw) : TwOk (applyChCtrl s c v).tw := by
  simp [applyChCtrl, hb]

@[simp] theorem psConfig_twOk {s : State} {c : Nat} {r : PsReg} {v : Word} (hb : TwOk s.tw) :
    TwOk (psConfig s c r v).tw := by
  unfold psConfig
  (repeat' split) <;> simp [hb]

@[simp] theorem clockMute_twOk {s : State} {missing : Bool} (hb : TwOk s.tw) : TwOk (clockMute s missing).tw := by
  unfold clockMute
  (repeat' split) <;> simp +contextual [*]

@[simp] theorem domainChanged_twOk {s : State} {d : Nat} {what : Nat} {cause : Nat} (hb : TwOk s.tw) :
    TwOk (domainChanged s d what cause).tw := by
  simp [domainChanged, hb]

@[simp] theorem idleWake_twOk {s : State} {d : PowerDie} {sink : Nat} (hb : TwOk s.tw) :
    TwOk (idleWake s d sink).tw := by
  simp [idleWake, hb]

@[simp] theorem idleWakeDie_twOk {value : Nat → Int} {s : State} {d : PowerDie} (hb : TwOk s.tw) :
    TwOk (idleWakeDie value s d).tw := by
  unfold idleWakeDie
  (repeat' split) <;> simp [hb]

@[simp] theorem idleWakes_twOk {s : State} {value : Nat → Int} (hb : TwOk s.tw) : TwOk (idleWakes s value).tw := by
  simp +contextual [idleWakes, hb]

@[simp] theorem powerStrobe_twOk {s : State} {x : StrobeIn} (hb : TwOk s.tw) : TwOk (powerStrobe s x).tw := by
  simp +contextual [powerStrobe, hb]

@[simp] theorem limitEvents_twOk {s : State} {c : Nat} {before : Bool} (hb : TwOk s.tw) :
    TwOk (limitEvents s c before).tw := by
  unfold limitEvents
  dsimp only
  (repeat' split) <;> simp [hb]

@[simp] theorem overExcursion_twOk {s : State} {c : Nat} (hb : TwOk s.tw) : TwOk (overExcursion s c).tw := by
  unfold overExcursion
  dsimp only
  (repeat' split) <;> simp [hb]

@[simp] theorem validWindow_twOk {s : State} {c : Nat} (hb : TwOk s.tw) : TwOk (validWindow s c).tw := by
  unfold validWindow
  dsimp only
  have h : ∀ (b : Bool) (x : SpCh) (p : BitVec 128),
      TwOk (if b = true then emit (setSpCh s c x) 0x040A c p else setSpCh s c x).tw := by
    intro b x p
    split <;> simp [hb]
  have h2 : ∀ (u : State) (b : Prop) [Decidable b] (x : SpCh) (n : Nat) (p : BitVec 128), TwOk u.tw →
      TwOk (if b then emit (setSpCh u c x) n c p else u).tw := by
    intro u b _ x n p hu
    split <;> simp [hu]
  exact h2 _ _ _ _ _ (h2 _ _ _ _ _ (h _ _ _))

@[simp] theorem windowEnd_twOk {s : State} {c : Nat} (hb : TwOk s.tw) : TwOk (windowEnd s c).tw := by
  unfold windowEnd
  dsimp only
  (repeat' split) <;> simp [hb]

@[simp] theorem windowStrobe_twOk {cur : Tbl Word} {s : State} {c : Nat} (hb : TwOk s.tw) :
    TwOk (windowStrobe cur s c).tw := by
  simp [windowStrobe, hb]

@[simp] theorem thermalMute_twOk {s : State} {c : Nat} (hb : TwOk s.tw) : TwOk (thermalMute s c).tw := by
  simp [thermalMute, hb]

@[simp] theorem protectCh_twOk {cur : Tbl Word} {s : State} {c : Nat} (hb : TwOk s.tw) :
    TwOk (protectCh cur s c).tw := by
  unfold protectCh
  dsimp only
  (repeat' split)
  all_goals first
    | exact overExcursion_twOk (limitEvents_twOk (thermalMute_twOk (by simpa using hb)))
    | exact overExcursion_twOk (limitEvents_twOk (by simpa using hb))
    | exact thermalMute_twOk (by simpa using hb)
    | simpa using hb

@[simp] theorem protectStrobe_twOk {s : State} {x : StrobeIn} (hb : TwOk s.tw) : TwOk (protectStrobe s x).tw := by
  unfold protectStrobe
  refine each_twOk (fun _ _ h => by simp [h]) (each_twOk (fun _ _ => protectCh_twOk) ?_)
  exact each_twOk (fun _ _ => windowStrobe_twOk) (each_twOk (fun _ _ h => by simp [h]) hb)

@[simp] theorem impClear_twOk {s : State} {c : Nat} (hb : TwOk s.tw) : TwOk (impClear s c).tw := by
  simp [impClear, hb]

@[simp] theorem setSolo_twOk {s : State} {c : Nat} {v : Bool} (hb : TwOk s.tw) : TwOk (setSolo s c v).tw := by
  simp [setSolo, hb]

@[simp] theorem limitRefused_twOk {s : State} {c : Nat} {off : Nat} (hb : TwOk s.tw) :
    TwOk (limitRefused s c off).tw := by
  simp [limitRefused, hb]

@[simp] theorem spWrite_twOk {s : State} {c : Nat} {n : RegName} {v : Word} (hb : TwOk s.tw) :
    TwOk (spWrite s c n v).tw := by
  unfold spWrite
  (repeat' split) <;> simp [hb]

@[simp] theorem applyEnvCh_twOk {s : State} {p : Nat × Env} (hb : TwOk s.tw) : TwOk (applyEnvCh s p).tw := by
  simp [applyEnvCh, hb]

@[simp] theorem applyEnv_twOk {s : State} {l : List (Nat × Env)} (hb : TwOk s.tw) : TwOk (applyEnv s l).tw := by
  simp +contextual [applyEnv, hb]

@[simp] theorem storeEnv_twOk {s : State} {img : Bytes} {marks : List Nat} {lines : List Nat} (hb : TwOk s.tw) :
    TwOk (storeEnv s img marks lines).tw := by
  simp [storeEnv, hb]

@[simp] theorem envLoaded_twOk {s : State} {us : Word} {container : Bool} {img : Bytes} {src : Owner} {nvOk : Bool} (hb : TwOk s.tw) :
    TwOk (envLoaded s us container img src nvOk).tw := by
  unfold envLoaded
  have hs : ∀ b l, TwOk (storeEnv (advanceCtr s (header img)) img b l).tw :=
    fun b l => storeEnv_twOk (advanceCtr_twOk hb)
  have hr : ∀ st f, TwOk (refuseImage s img st f).tw := fun st f => refuseImage_twOk hb
  have hm : ∀ (u : State) i k a b c, TwOk u.tw → TwOk (stageMeet u src i k a b c).tw := by
    intro u i k a b c hu
    simpa using hu
  have refused : ∀ (l : List Nat) (u : State), TwOk u.tw →
      TwOk (if (!l.isEmpty) = true then endLong (ownerRefuse s src 0x80000030 l) us stNotOwner noIndex else u).tw := by
    intro l u hu
    split
    · exact endLong_twOk (ownerRefuse_twOk hb)
    · exact hu
  refine refused _ _ ?_
  split
  · split
    · exact endLong_twOk (hr _ _)
    · split
      · exact endLong_twOk (hr _ _)
      · dsimp only
        split
        · split
          · exact endLong_twOk (hm _ _ _ _ _ _ (hs _ _))
          · exact endLong_twOk hb
        · exact endLong_twOk hb
  · split
    · exact endLong_twOk hb
    · exact endLong_twOk (hm _ _ _ _ _ _ hb)

@[simp] theorem applyFailSafe_twOk {s : State} {c : Nat} (hb : TwOk s.tw) : TwOk (applyFailSafe s c).tw := by
  simp [applyFailSafe, hb]

@[simp] theorem restoreEnvelope_twOk {s : State} {x : StoredEnv} (hb : TwOk s.tw) :
    TwOk (restoreEnvelope s x).1.tw := by
  unfold restoreEnvelope
  (repeat' split) <;> simp +contextual [*]

@[simp] theorem restoreEvent_twOk {s : State} {l : List (StoredEnv × Nat)} {why : Nat} (hb : TwOk s.tw) :
    TwOk (restoreEvent s l why).tw := by
  unfold restoreEvent
  dsimp only
  (repeat' split) <;> simp [hb]

@[simp] theorem restoreAll_twOk {l : List StoredEnv} {s : State} (hb : TwOk s.tw) : TwOk (restoreAll l s).1.tw := by
  induction l generalizing s with
  | nil => exact hb
  | cons x r ih => exact ih (restoreEnvelope_twOk hb)

@[simp] theorem restoreEnvelopes_twOk {s : State} (hb : TwOk s.tw) : TwOk (restoreEnvelopes s).tw := by
  unfold restoreEnvelopes
  exact restoreEvent_twOk (restoreEvent_twOk (restoreEvent_twOk (restoreAll_twOk hb)))

@[simp] theorem pdmClockState_twOk {s : State} {k : Nat} {what : Nat} (hb : TwOk s.tw) :
    TwOk (pdmClockState s k what).tw := by
  simp [pdmClockState, hb]

@[simp] theorem pdmStop_twOk {s : State} {k : Nat} (hb : TwOk s.tw) : TwOk (pdmStop s k).tw := by
  simp [pdmStop, hb]

@[simp] theorem pdmFollow_twOk {s : State} {k : Nat} (hb : TwOk s.tw) : TwOk (pdmFollow s k).tw := by
  unfold pdmFollow
  dsimp only
  (repeat' split) <;> simp [hb]

@[simp] theorem pdmFollowAll_twOk {s : State} (hb : TwOk s.tw) : TwOk (pdmFollowAll s).tw := by
  unfold pdmFollowAll
  (repeat' split) <;> simp [hb]

@[simp] theorem ainUp_twOk {s : State} (hb : TwOk s.tw) : TwOk (ainUp s).tw := by
  simp [ainUp, hb]

@[simp] theorem rateInputs_twOk {s : State} {old : Nat} (hb : TwOk s.tw) : TwOk (rateInputs s old).tw := by
  simp +contextual [rateInputs, hb]

@[simp] theorem inputOverload_twOk {s : State} {q : Nat} {analog : Bool} {clip : Bool} (hb : TwOk s.tw) :
    TwOk (inputOverload s q analog clip).tw := by
  simp [inputOverload, hb]

@[simp] theorem captureInput_twOk {x : StrobeIn} {a : Tbl Int × State} {q : Nat} (hb : TwOk a.2.tw) :
    TwOk (captureInput x a q).2.tw := by
  unfold captureInput
  dsimp only
  (repeat' split) <;> simp [hb]

@[simp] theorem captureInputs_twOk {s : State} {x : StrobeIn} (hb : TwOk s.tw) : TwOk (captureInputs s x).2.tw := by
  unfold captureInputs
  (repeat' split) <;> simp +contextual [*]

@[simp] theorem maskTake_twOk {s : State} {p : Nat} {rx : Bool} {v : Word} {next : Option Word} {pfn : Nat} (hb : TwOk s.tw) :
    TwOk (maskTake s p rx v next pfn).tw := by
  simp [maskTake, hb]

@[simp] theorem maskComplete_twOk {s : State} {p : Nat} {rx : Bool} {v : Word} {late : Bool} (hb : TwOk s.tw) :
    TwOk (maskComplete s p rx v late).tw := by
  unfold maskComplete
  (repeat' split) <;> simp [hb]

@[simp] theorem maskStart_twOk {s : State} {p : Nat} {rx : Bool} (hb : TwOk s.tw) : TwOk (maskStart s p rx).tw := by
  unfold maskStart
  dsimp only
  (repeat' split) <;> simp [hb]

@[simp] theorem maskWrite_twOk {s : State} {src : Owner} {p : Nat} {rx : Bool} {v : Word} {late : Bool} (hb : TwOk s.tw) :
    TwOk (maskWrite s src p rx v late).tw := by
  simp [maskWrite, hb]

@[simp] theorem portRefused_twOk {s : State} {p : Nat} {off : Nat} {reason : Nat} (hb : TwOk s.tw) :
    TwOk (portRefused s p off reason).tw := by
  simp [portRefused, hb]

@[simp] theorem portEnable_twOk {s : State} {p : Nat} (hb : TwOk s.tw) : TwOk (portEnable s p).tw := by
  unfold portEnable
  dsimp only
  (repeat' split) <;> simp [hb]

@[simp] theorem portOffNow_twOk {s : State} {p : Nat} {cause : Nat} (hb : TwOk s.tw) :
    TwOk (portOffNow s p cause).tw := by
  simp [portOffNow, hb]

@[simp] theorem portStop_twOk {s : State} {p : Nat} (hb : TwOk s.tw) : TwOk (portStop s p).tw := by
  unfold portStop
  dsimp only
  (repeat' split) <;> simp [hb]

@[simp] theorem applyDpCtrl_twOk {s : State} {p : Nat} {v : Word} (hb : TwOk s.tw) : TwOk (applyDpCtrl s p v).tw := by
  simp [applyDpCtrl, hb]

@[simp] theorem fmtWrite_twOk {s : State} {p : Nat} {v : Word} (hb : TwOk s.tw) : TwOk (fmtWrite s p v).tw := by
  simp [fmtWrite, hb]

@[simp] theorem unlock_twOk {s : State} {p : Nat} {cause : Nat} (hb : TwOk s.tw) : TwOk (unlock s p cause).tw := by
  simp [unlock, hb]

@[simp] theorem portsStrobe_twOk {s : State} {slips : List Nat} (hb : TwOk s.tw) : TwOk (portsStrobe s slips).tw := by
  simp +contextual [portsStrobe, hb]

@[simp] theorem takeFrame_twOk {s : State} {p : Nat} {x : PortFrame} (hb : TwOk s.tw) :
    TwOk (takeFrame s p x).tw := by
  unfold takeFrame
  dsimp only
  (repeat' split) <;> simp [hb]

@[simp] theorem newFrame_twOk {s : State} {p : Nat} {conv : Option Word} {phase : Word} (hb : TwOk s.tw) :
    TwOk (newFrame s p conv phase).tw := by
  simp [newFrame, hb]

@[simp] theorem nextFrame_twOk {s : State} {p : Nat} {x : PortFrame} (hb : TwOk s.tw) :
    TwOk (nextFrame s p x).tw := by
  unfold nextFrame
  have h : TwOk (feedRx (trackFrame (takeFrame s p x) p x (port s p).good) p x.phase).tw := by
    simpa using takeFrame_twOk (p := p) (x := x) hb
  dsimp only
  generalize feedRx (trackFrame (takeFrame s p x) p x (port s p).good) p x.phase = u at *
  split
  · exact portOffNow_twOk h
  · refine newFrame_twOk ?_
    split <;> simp [h]

@[simp] theorem maskUp_twOk {s : State} {p : Nat} {rx : Bool} (hb : TwOk s.tw) : TwOk (maskUp s p rx).tw := by
  unfold maskUp
  (repeat' split) <;> simp [hb]

@[simp] theorem portsUp_twOk {s : State} (hb : TwOk s.tw) : TwOk (portsUp s).tw := by
  unfold portsUp
  refine each_twOk (fun _ _ => portEnable_twOk) (each_twOk (fun _ _ hs => ?_) hb)
  exact maskUp_twOk (maskUp_twOk hs)

@[simp] theorem portsOff_twOk {s : State} (hb : TwOk s.tw) : TwOk (portsOff s).tw := by
  simp +contextual [portsOff, hb]

@[simp] theorem ratePorts_twOk {s : State} (hb : TwOk s.tw) : TwOk (ratePorts s).tw := by
  simp +contextual [ratePorts, hb]

@[simp] theorem rootLost_twOk {s : State} {j : Nat} (hb : TwOk s.tw) : TwOk (rootLost s j).tw := by
  simp +contextual [rootLost, hb]

@[simp] theorem fswDone_twOk {s : State} (hb : TwOk s.tw) : TwOk (fswDone s).tw := by
  unfold fswDone
  refine each_twOk (fun _ _ hs => ?_) hb
  exact finish_twOk (emit_twOk hs)

@[simp] theorem pllHasLocked_twOk {s : State} {j : Nat} {q : Pll} {us : Nat} (hb : TwOk s.tw) :
    TwOk (pllHasLocked s j q us).tw := by
  unfold pllHasLocked
  (repeat' split) <;> simp [hb]

@[simp] theorem pllLocks_twOk {s : State} {j : Nat} {band : Nat} {cached : Bool} {us : Nat} (hb : TwOk s.tw) :
    TwOk (pllLocks s j band cached us).tw := by
  unfold pllLocks
  dsimp only
  (repeat' split) <;> simp [hb]

@[simp] theorem pllLost_twOk {s : State} {j : Nat} {phase : Bool} (hb : TwOk s.tw) : TwOk (pllLost s j phase).tw := by
  simp [pllLost, hb]

@[simp] theorem strobeRestart_twOk {s : State} {cause : Nat} (hb : TwOk s.tw) : TwOk (strobeRestart s cause).tw := by
  simp [strobeRestart, hb]

@[simp] theorem xtalLost_twOk {s : State} {cause : Nat} (hb : TwOk s.tw) : TwOk (xtalLost s cause).tw := by
  simp [xtalLost, hb]

@[simp] theorem applyFsw_twOk {s : State} {v : Nat} {slot : Nat} (hb : TwOk s.tw) : TwOk (applyFsw s v slot).tw := by
  unfold applyFsw
  (repeat' split) <;> simp [hb]

@[simp] theorem leaveRef_twOk {s : State} {i : Nat} {cause : Nat} {n : RefState} (hb : TwOk s.tw) :
    TwOk (leaveRef s i cause n).tw := by
  simp [leaveRef, hb]

@[simp] theorem refFollow_twOk {s : State} {i : Nat} (hb : TwOk s.tw) : TwOk (refFollow s i).tw := by
  unfold refFollow
  dsimp only
  (repeat' split) <;> simp [hb]

@[simp] theorem refFollowAll_twOk {s : State} (hb : TwOk s.tw) : TwOk (refFollowAll s).tw := by
  simp +contextual [refFollowAll, hb]

@[simp] theorem selectRef_twOk {s : State} {r : Nat} {cause : Nat} (hb : TwOk s.tw) :
    TwOk (selectRef s r cause).tw := by
  unfold selectRef
  (repeat' split) <;> simp [hb]

@[simp] theorem setDco_twOk {s : State} {d : Int} (hb : TwOk s.tw) : TwOk (setDco s d).tw := by
  unfold setDco
  dsimp only
  (repeat' split) <;> simp [hb]

@[simp] theorem clockStrobe_twOk {s : State} {dco : Int} {phaseErr : Int} {offsets : Tbl Int} (hb : TwOk s.tw) :
    TwOk (clockStrobe s dco phaseErr offsets).tw := by
  unfold clockStrobe
  dsimp only
  (repeat' split) <;> simp [hb]

@[simp] theorem rateLost_twOk {s : State} (hb : TwOk s.tw) : TwOk (rateLost s).tw := by
  unfold rateLost
  (repeat' split) <;> simp [hb]

@[simp] theorem clkOff_twOk {s : State} (hb : TwOk s.tw) : TwOk (clkOff s).tw := by
  simp +contextual [clkOff, hb]

@[simp] theorem clkLock_twOk {s : State} {j : Nat} (hb : TwOk s.tw) : TwOk (clkLock s j).tw := by
  unfold clkLock
  dsimp only
  (repeat' split) <;> simp [hb]

@[simp] theorem clkReady_twOk {s : State} (hb : TwOk s.tw) : TwOk (clkReady s).tw := by
  unfold clkReady
  refine refFollowAll_twOk (each_twOk (fun _ _ h => by simp [h]) (each_twOk (fun s _ hs => ?_) ?_))
  · dsimp only
    split <;> simp [hs]
  · exact each_twOk (fun _ _ => clkLock_twOk) hb

@[simp] theorem scanStart_twOk {s : State} {k : Nat} (hb : TwOk s.tw) : TwOk (scanStart s k).tw := by
  unfold scanStart
  (repeat' split) <;> simp [hb]

@[simp] theorem keyEvent_twOk {s : State} {code : Nat} {e : Nat} {at_ : Nat} {dt : Nat} {flags : Nat} {k : Nat} {p : Nat} (hb : TwOk s.tw) :
    TwOk (keyEvent s code e at_ dt flags k p).tw := by
  simp [keyEvent, hb]

@[simp] theorem keyNoCross_twOk {s : State} {code : Nat} {e : Nat} {flags : Nat} {k : Nat} {p : Nat} (hb : TwOk s.tw) :
    TwOk (keyNoCross s code e flags k p).tw := by
  simp [keyNoCross, hb]

@[simp] theorem entryStop_twOk {k : Nat} {s : State} {e : Nat} (hb : TwOk s.tw) : TwOk (entryStop k s e).tw := by
  simp [entryStop, hb]

@[simp] theorem convStop_twOk {cause : Nat} {s : State} {k : Nat} (hb : TwOk s.tw) :
    TwOk (convStop cause s k).tw := by
  unfold convStop
  dsimp only
  split
  · simp [hb]
  · refine emit_twOk (each_twOk (fun _ _ => entryStop_twOk) ?_)
    split <;> simp [hb]

@[simp] theorem scanStop_twOk {s : State} {k : Nat} (hb : TwOk s.tw) : TwOk (scanStop s k).tw := by
  unfold scanStop
  (repeat' split) <;> simp +contextual [*]

@[simp] theorem convCtrl_twOk {s : State} {k : Nat} {v : Word} (hb : TwOk s.tw) : TwOk (convCtrl s k v).tw := by
  unfold convCtrl
  (repeat' split) <;> simp [hb]

@[simp] theorem senseOff_twOk {s : State} (hb : TwOk s.tw) : TwOk (senseOff s).tw := by
  simp +contextual [senseOff, hb]

@[simp] theorem senseStrobe_twOk {s : State} (hb : TwOk s.tw) : TwOk (senseStrobe s).tw := by
  refine each_twOk (fun s k hs => ?_) hb
  dsimp only
  (repeat' split) <;> simp [hs]

@[simp] theorem keyDown_twOk {s : State} {e : Nat} {k : Nat} {p : Nat} {ta : Int} {tb : Int} (hb : TwOk s.tw) :
    TwOk (keyDown s e k p ta tb).tw := by
  simp [keyDown, hb]

@[simp] theorem keyDownEst_twOk {s : State} {e : Nat} {k : Nat} {g : Seg} {tb : Int} {flags : Nat} {a : Nat} {b : Nat} (hb : TwOk s.tw) :
    TwOk (keyDownEst s e k g tb flags a b).tw := by
  simp [keyDownEst, hb]

@[simp] theorem keyStep_twOk {s : State} {k : Nat} {e : Nat} {g : Seg} (hb : TwOk s.tw) :
    TwOk (keyStep s k e g).tw := by
  unfold keyStep
  dsimp only
  (repeat' split) <;> simp [hb]

@[simp] theorem keyConv_twOk {s : State} {k : Nat} {e : Nat} {p : Nat} {t : Nat} (hb : TwOk s.tw) :
    TwOk (keyConv s k e p t).tw := by
  unfold keyConv
  dsimp only
  (repeat' split) <;> simp [hb]

@[simp] theorem watchConv_twOk {s : State} {k : Nat} {e : Nat} {p : Nat} (hb : TwOk s.tw) :
    TwOk (watchConv s k e p).tw := by
  unfold watchConv
  dsimp only
  (repeat' split) <;> simp [hb]

@[simp] theorem convert_twOk {s : State} {k : Nat} {e : Nat} {avg : Nat} {t : Nat} {x : AdcIn} (hb : TwOk s.tw) :
    TwOk (convert s k e avg t x).tw := by
  unfold convert
  dsimp only
  (repeat' split) <;> simp [hb]

@[simp] theorem passConvert_twOk {s : State} {k : Nat} {i : Nat} {t : Nat} {x : AdcIn} {twin : AdcIn} (hb : TwOk s.tw) :
    TwOk (passConvert s k i t x twin).tw := by
  unfold passConvert
  dsimp only
  (repeat' split) <;> simp [hb]

@[simp] theorem saveCal_twOk {s : State} {r : Tbl Word} (hb : TwOk s.tw) : TwOk (saveCal s r).tw := by
  simp [saveCal, hb]

@[simp] theorem scCalDone_twOk {s : State} {us : Word} {step : Nat} {k : Nat} {e : Nat} {n : Nat} {target : Int} {nvOk : Bool} (hb : TwOk s.tw) :
    TwOk (scCalDone s us step k e n target nvOk).tw := by
  unfold scCalDone
  dsimp only
  (repeat' split) <;> simp [hb]

@[simp] theorem commitScene_twOk {s : State} {slot : Nat} {b : Bytes} (hb : TwOk s.tw) :
    TwOk (commitScene s slot b).tw := by
  simp [commitScene, hb]

@[simp] theorem storeScene_twOk {s : State} {us : Word} {slot : Nat} {b : Bytes} {nvOk : Bool} (hb : TwOk s.tw) :
    TwOk (storeScene s us slot b nvOk).tw := by
  unfold storeScene
  (repeat' split) <;> simp [hb]

@[simp] theorem sceneStored_twOk {s : State} {us : Word} {slot : Nat} {b : Bytes} {nvOk : Bool} (hb : TwOk s.tw) :
    TwOk (sceneStored s us slot b nvOk).tw := by
  simp [sceneStored, hb]

@[simp] theorem sceneCaptured_twOk {s : State} {us : Word} {slot : Nat} {lo : Nat} {hi : Nat} {engs : Nat} {nvOk : Bool} (hb : TwOk s.tw) :
    TwOk (sceneCaptured s us slot lo hi engs nvOk).tw := by
  simp [sceneCaptured, hb]

@[simp] theorem sceneDeleted_twOk {s : State} {us : Word} {slot : Nat} {nvOk : Bool} (hb : TwOk s.tw) :
    TwOk (sceneDeleted s us slot nvOk).tw := by
  unfold sceneDeleted
  (repeat' split) <;> simp [hb]

@[simp] theorem sceneApplied_twOk {s : State} {r : SceneRef} (hb : TwOk s.tw) : TwOk (sceneApplied s r).tw := by
  simp [sceneApplied, hb]

@[simp] theorem journalDone_twOk {s : State} (hb : TwOk s.tw) : TwOk (journalDone s).tw := by
  unfold journalDone
  dsimp only
  (repeat' split) <;> simp [hb]

@[simp] theorem loseEnv_twOk {s : State} {line : Nat} (hb : TwOk s.tw) : TwOk (loseEnv s line).tw := by
  unfold loseEnv
  split
  · exact hb
  · dsimp only
    split
    · exact hb
    · exact emit_twOk (each_twOk (fun _ _ => applyFailSafe_twOk) hb)

@[simp] theorem loseLine_twOk {s : State} {x : PantryLoss} (hb : TwOk s.tw) : TwOk (loseLine s x).tw := by
  unfold loseLine
  dsimp only
  (repeat' split) <;> simp [hb]

@[simp] theorem lineLost_twOk {s : State} {x : PantryLoss} (hb : TwOk s.tw) : TwOk (lineLost s x).tw := by
  unfold lineLost
  exact loseLine_twOk (emit_twOk (retireLine_twOk hb))

@[simp] theorem groupEvent_twOk {s : State} {g : Nat} {old : GroupState} {new : GroupState} {cause : Nat} {start : Nat} (hb : TwOk s.tw) :
    TwOk (groupEvent s g old new cause start).tw := by
  simp [groupEvent, hb]

@[simp] theorem groupLeave_twOk {s : State} {g : Nat} (hb : TwOk s.tw) : TwOk (groupLeave s g).tw := by
  simp [groupLeave, hb]

@[simp] theorem applyGroupStart_twOk {s : State} {g : Nat} (hb : TwOk s.tw) : TwOk (applyGroupStart s g).tw := by
  simp [applyGroupStart, hb]

@[simp] theorem applyHalt_twOk {s : State} {k : Nat} (hb : TwOk s.tw) : TwOk (applyHalt s k).tw := by
  unfold applyHalt
  dsimp only
  (repeat' split) <;> simp [hb]

@[simp] theorem applyHalts_twOk {s : State} (hb : TwOk s.tw) : TwOk (applyHalts s).tw := by
  simp +contextual [applyHalts, hb]

@[simp] theorem writeRec_twOk {k : Nat} {s : State} {e : Nat × List Int} (hb : TwOk s.tw) :
    TwOk (writeRec k s e).tw := by
  unfold writeRec
  dsimp only
  (repeat' split) <;> simp [hb]

@[simp] theorem writeHeld_twOk {s : State} {k : Nat} (hb : TwOk s.tw) : TwOk (writeHeld s k).tw := by
  unfold writeHeld
  (repeat' split) <;> simp +contextual [*]

@[simp] theorem loseFrame_twOk {s : State} {k : Nat} {f : Nat} {cause : Nat} (hb : TwOk s.tw) :
    TwOk (loseFrame s k f cause).tw := by
  simp [loseFrame, hb]

@[simp] theorem countLate_twOk {s : State} {k : Nat} {n : Nat} {first : Nat} (hb : TwOk s.tw) :
    TwOk (countLate s k n first).tw := by
  unfold countLate
  (repeat' split) <;> simp [hb]

@[simp] theorem takeDesc_twOk {s : State} {k : Nat} {d : Desc} (hb : TwOk s.tw) : TwOk (takeDesc s k d).tw := by
  unfold takeDesc
  dsimp only
  (repeat' split) <;> simp [hb]

@[simp] theorem fetchDesc_twOk {s : State} {k : Nat} {d : ReadResult} (hb : TwOk s.tw) :
    TwOk (fetchDesc s k d).tw := by
  unfold fetchDesc
  dsimp only
  (repeat' split) <;> simp [hb]

@[simp] theorem neverRead_twOk {s : State} {k : Nat} {n : Nat} (hb : TwOk s.tw) : TwOk (neverRead s k n).tw := by
  unfold neverRead
  dsimp only
  (repeat' split) <;> simp [hb]

@[simp] theorem playStrobe_twOk {s : State} {k : Nat} {lost : Bool} (hb : TwOk s.tw) :
    TwOk (playStrobe s k lost).tw := by
  unfold playStrobe
  dsimp only
  (repeat' split) <;> simp [hb]

@[simp] theorem storeLoses_twOk {k : Nat} {s : State} {f : Nat} (hb : TwOk s.tw) : TwOk (storeLoses k s f).tw := by
  simp [storeLoses, hb]

@[simp] theorem recStrobe_twOk {s : State} {k : Nat} {lost : List Nat} (hb : TwOk s.tw) :
    TwOk (recStrobe s k lost).tw := by
  unfold recStrobe
  dsimp only
  refine writeHeld_twOk (each_twOk (fun _ _ => storeLoses_twOk) ?_)
  split <;> simp [hb]

@[simp] theorem ctxRun_twOk {s : State} {k : Nat} {start : Nat} {how : Nat} (hb : TwOk s.tw) :
    TwOk (ctxRun s k start how).tw := by
  simp [ctxRun, hb]

@[simp] theorem ctxStrobe_twOk {lost : List LostFrame} {s : State} {k : Nat} (hb : TwOk s.tw) :
    TwOk (ctxStrobe lost s k).tw := by
  unfold ctxStrobe
  dsimp only
  (repeat' split) <;> simp [hb]

@[simp] theorem streamsStrobe_twOk {s : State} {lost : List LostFrame} (hb : TwOk s.tw) :
    TwOk (streamsStrobe s lost).tw := by
  simp +contextual [streamsStrobe, hb]

@[simp] theorem readStopped_twOk {s : State} {l : List (Fin 256 × ReadResult)} (hb : TwOk s.tw) :
    TwOk (readStopped s l).tw := by
  refine each_twOk (fun s e hs => ?_) hb
  split
  · exact fetchDesc_twOk hs
  · exact hs

@[simp] theorem applyStop_twOk {s : State} {k : Nat} (hb : TwOk s.tw) : TwOk (applyStop s k).tw := by
  have held : ∀ b : Prop, [Decidable b] → ∀ x : Ctx, TwOk (if b then writeHeld (setCtx s k x) k else s).tw := by
    intro b _ x
    split <;> simp [hb]
  unfold applyStop
  split
  · exact hb
  · simp only [ltrUpdate_keeps]
    have done : ∀ (b : Bool) (g : Nat) (u : State) (c n : Nat) (p : BitVec 128), TwOk u.tw →
        TwOk (if b = true then groupLeave (emit u c n p) g else emit u c n p).tw := by
      intro b g u c n p hu
      split <;> simp [hu]
    exact done _ _ _ _ _ _ (by simpa using held _ _)

@[simp] theorem streamsReset_twOk {s : State} (hb : TwOk s.tw) : TwOk (streamsReset s).tw := by
  unfold streamsReset
  have h : TwOk (each (ctxs s) s (fun s k =>
      setCtx (setBit s .strCfg k 31 false) k
        { Ctx.reset with lastErr := (ctx s k).lastErr, pos := (ctx s k).pos, posHi := (ctx s k).posHi,
                         under := (ctx s k).under, late := (ctx s k).late, lateAt := (ctx s k).lateAt })).tw :=
    each_twOk (fun _ _ h => by simp [h]) hb
  simp only [unstage_keeps]
  refine each_twOk (fun s g hs => ?_) h
  split
  · exact hs
  · exact groupEvent_twOk (by simp [hs])

@[simp] theorem strRefuse_twOk {s : State} {k : Nat} {reason : Nat} {off : Nat} (hb : TwOk s.tw) :
    TwOk (strRefuse s k reason off).tw := by
  simp [strRefuse, hb]

@[simp] theorem strWrite_twOk {s : State} {k : Nat} {n : RegName} {v : Word} (hb : TwOk s.tw) :
    TwOk (strWrite s k n v).tw := by
  unfold strWrite
  dsimp only
  (repeat' split) <;> simp [hb]

@[simp] theorem capture_twOk {s : State} {x : StrobeIn} (hb : TwOk s.tw) : TwOk (capture s x).tw := by
  simp [capture, hb]

@[simp] theorem strobeBody_twOk {s : State} {x : StrobeIn} (hb : TwOk s.tw) : TwOk (strobeBody s x).tw := by
  unfold strobeBody
  refine senseStrobe_twOk (clockStrobe_twOk (portsStrobe_twOk ?_))
  have h := capture_twOk (x := x) (streamsStrobe_twOk (lost := x.storeLost) hb)
  simpa using protectStrobe_twOk (x := x) (powerStrobe_twOk (x := x) (by simpa using h))

@[simp] theorem rateApplied_twOk {s : State} {old : Nat} {new : Nat} (hb : TwOk s.tw) :
    TwOk (rateApplied s old new).tw := by
  unfold rateApplied
  simp only [ltrUpdate_keeps]
  exact ratePorts_twOk (by simpa using rateInputs_twOk (by simpa using emit_twOk hb))

@[simp] theorem firstStrobe_twOk {s : State} {x : StrobeIn} (hb : TwOk s.tw) : TwOk (firstStrobe s x).tw := by
  simp [firstStrobe, hb]

@[simp] theorem clkUp_twOk {s : State} {x : StrobeIn} (hb : TwOk s.tw) : TwOk (clkUp s x).tw := by
  simp [clkUp, hb]

@[simp] theorem halfTested_twOk {s : State} {h : Nat} {failed : Word} {memBad : Bool} (hb : TwOk s.tw) :
    TwOk (halfTested s h failed memBad).tw := by
  simp [halfTested, hb]

@[simp] theorem domainOff_twOk {s : State} {d : Nat} (hb : TwOk s.tw) : TwOk (domainOff s d).tw := by
  unfold domainOff
  (repeat' split) <;> simp [hb]

@[simp] theorem domainUp_twOk {s : State} {d : Nat} {wake : Bool} {failed : Word} {memBad : Bool} (hb : TwOk s.tw) :
    TwOk (domainUp s d wake failed memBad).tw := by
  unfold domainUp
  (repeat' split) <;> simp [hb]

@[simp] theorem stopForEntry_twOk {s : State} (hb : TwOk s.tw) : TwOk (stopForEntry s).tw := by
  unfold stopForEntry
  refine senseOff_twOk (each_twOk (fun _ _ => portStop_twOk) (each_twOk (fun _ _ h => by simp [h]) hb))

@[simp] theorem startAfterWake_twOk {s : State} (hb : TwOk s.tw) : TwOk (startAfterWake s).tw := by
  simp [startAfterWake, hb]

@[simp] theorem returnHalves_twOk {s : State} {inA : Bool} {inB : Bool} (hb : TwOk s.tw) :
    TwOk (returnHalves s inA inB).tw := by
  unfold returnHalves
  dsimp only
  (repeat' split) <;> simp +contextual [*]

@[simp] theorem failoverEvent_twOk {s : State} {cause : Nat} (hb : TwOk s.tw) : TwOk (failoverEvent s cause).tw := by
  simp [failoverEvent, hb]

@[simp] theorem takeOver_twOk {s : State} {cause : Nat} (hb : TwOk s.tw) : TwOk (takeOver s cause).tw := by
  unfold takeOver
  refine each_twOk (fun _ _ => setSolo_twOk) (failoverEvent_twOk (each_twOk (fun _ _ h => by simp [h]) ?_))
  have h : TwOk (setPair { s with pl := { s.pl with driving := true, loss := none } } .peerLost).tw := setPair_twOk hb
  simpa using h

@[simp] theorem keepDriving_twOk {s : State} {cause : Nat} (hb : TwOk s.tw) : TwOk (keepDriving s cause).tw := by
  unfold keepDriving
  refine each_twOk (fun _ _ => setSolo_twOk) (failoverEvent_twOk (setPair_twOk hb))

@[simp] theorem yieldNow_twOk {s : State} (hb : TwOk s.tw) : TwOk (yieldNow s).tw := by
  simp [yieldNow, hb]

@[simp] theorem applyPair_twOk {s : State} {op : Nat} (hb : TwOk s.tw) : TwOk (applyPair s op).tw := by
  unfold applyPair
  split
  · split
    · exact setPair_twOk hb
    · exact hb
  · split
    · have h : TwOk (each (sharedCh s) s (fun s c => if s.pl.driving then setSolo s c true
          else applyChCtrl s c (reg s .psChCtrl c &&& ~~~(1 : Word)))).tw := by
        refine each_twOk (fun s c hs => ?_) hb
        split <;> simp [hs]
      exact setPair_twOk (by simpa using h)
    · exact hb
  · (repeat' split) <;> simp [hb]
  · dsimp only
    split
    · exact each_twOk (fun _ _ => setSolo_twOk) hb
    · exact hb
  · split
    · exact setPair_twOk hb
    · exact hb
  · exact hb

@[simp] theorem domainDown_twOk {s : State} {cause : Nat} {d : Nat} (hb : TwOk s.tw) :
    TwOk (domainDown s cause d).tw := by
  unfold domainDown
  (repeat' split) <;> simp [hb]

@[simp] theorem jobDone_twOk {s : State} {j : DomJob} (hb : TwOk s.tw) : TwOk (jobDone s j).tw := by
  unfold jobDone
  (repeat' split) <;> simp [hb]

@[simp] theorem jobEnd_twOk {s : State} (hb : TwOk s.tw) : TwOk (jobEnd s).tw := by
  simp +contextual [jobEnd, hb]

@[simp] theorem applyDomain_twOk {s : State} {up : Nat} {down : Nat} {n : Nat} (hb : TwOk s.tw) :
    TwOk (applyDomain s up down n).tw := by
  unfold applyDomain
  exact jobEnd_twOk (each_twOk (fun _ _ => domainDown_twOk) hb)

@[simp] theorem domainGood_twOk {s : State} {d : Nat} {failed : Word} {memBad : Bool} {x : StrobeIn} (hb : TwOk s.tw) :
    TwOk (domainGood s d failed memBad x).tw := by
  unfold domainGood
  split
  · exact hb
  · split
    · exact hb
    · refine jobEnd_twOk (domainChanged_twOk ?_)
      split
      · exact firstStrobe_twOk (domainUp_twOk hb)
      · exact domainUp_twOk hb

@[simp] theorem domainFails_twOk {s : State} {d : Nat} {begun : Nat} (hb : TwOk s.tw) :
    TwOk (domainFails s d begun).tw := by
  unfold domainFails
  (repeat' split) <;> simp [hb]

@[simp] theorem setMod_twOk {s : State} {n : ModState} (hb : TwOk s.tw) : TwOk (setMod s n).tw := by
  simp [setMod, hb]

@[simp] theorem enterStop_twOk {s : State} (hb : TwOk s.tw) : TwOk (enterStop s).tw := by
  unfold enterStop
  (repeat' split) <;> simp [hb]

@[simp] theorem enterState_twOk {s : State} {a : AfterDone} (hb : TwOk s.tw) : TwOk (enterState s a).tw := by
  unfold enterState
  (repeat' split) <;> simp [hb]

@[simp] theorem hostState_twOk {s : State} (hb : TwOk s.tw) : TwOk (hostState s).tw := by
  simp [hostState, hb]

@[simp] theorem controlState_twOk {s : State} (hb : TwOk s.tw) : TwOk (controlState s).tw := by
  unfold controlState
  refine busyOver_twOk ?_
  dsimp only
  split <;> simp [hb, bufWf, twf, twfFrom]

@[simp] theorem beginControl_twOk {s : State} {src : Nat} (hb : TwOk s.tw) : TwOk (beginControl s src).tw := by
  simp [beginControl, hb]

@[simp] theorem beginHost_twOk {s : State} {src : Nat} (hb : TwOk s.tw) : TwOk (beginHost s src).tw := by
  simp [beginHost, hb]

@[simp] theorem heldOrPut_twOk {s : State} {code : Nat} {p : BitVec 128} (hb : TwOk s.tw) :
    TwOk (heldOrPut s code p).tw := by
  simp [heldOrPut, hb]

@[simp] theorem recoverCommit_twOk {s : State} {complete : Bool} (hb : TwOk s.tw) :
    TwOk (recoverCommit s complete).tw := by
  unfold recoverCommit
  (repeat' split) <;> simp [hb]

@[simp] theorem firstLevel_twOk {s : State} (hb : TwOk s.tw) : TwOk (firstLevel s).tw := by
  simp [firstLevel, hb]

@[simp] theorem twWakeEvent_twOk {s : State} (hb : TwOk s.tw) : TwOk (twWakeEvent s).tw := by
  simp [twWakeEvent, hb]

@[simp] theorem enterRecovery_twOk {s : State} {cause : Nat} (hb : TwOk s.tw) : TwOk (enterRecovery s cause).tw := by
  simp [enterRecovery, hb]

@[simp] theorem verifyFirmware_twOk {s : State} {x : LarderIn} (hb : TwOk s.tw) : TwOk (verifyFirmware s x).tw := by
  unfold verifyFirmware
  (repeat' split) <;> simp [hb]

@[simp] theorem resetDone_twOk {s : State} {hold : Bool} {scope : Nat} {src : Nat} {merged : Nat} {us : Nat} (hb : TwOk s.tw) :
    TwOk (resetDone s hold scope src merged us).tw := by
  simp [resetDone, hb]

@[simp] theorem selfTest_twOk {s : State} {x : LarderIn} (hb : TwOk s.tw) : TwOk (selfTest s x).tw := by
  unfold selfTest
  (repeat' split) <;> simp [hb]

@[simp] theorem fallbackTold_twOk {s : State} (hb : TwOk s.tw) : TwOk (fallbackTold s).tw := by
  simp [fallbackTold, hb]

@[simp] theorem standbyStrobe_twOk {s : State} {x : StrobeIn} (hb : TwOk s.tw) : TwOk (standbyStrobe s x).tw := by
  unfold standbyStrobe
  split
  · exact hb
  · split
    · exact hb
    · exact emit_twOk (setMod_twOk (startAfterWake_twOk (firstStrobe_twOk hb)))

@[simp] theorem compareDigest_twOk {s : State} {pfn : Nat} {peer : Word} {peerFlags : Byte} (hb : TwOk s.tw) :
    TwOk (compareDigest s pfn peer peerFlags).tw := by
  unfold compareDigest
  (repeat' split) <;> simp [hb]

@[simp] theorem compareHeard_twOk {s : State} (hb : TwOk s.tw) : TwOk (compareHeard s).tw := by
  unfold compareHeard
  dsimp only
  (repeat' split) <;> simp [hb]

@[simp] theorem splitAt_twOk {s : State} {boundary : Nat} {how : Nat} (hb : TwOk s.tw) :
    TwOk (splitAt s boundary how).tw := by
  unfold splitAt
  dsimp only
  (repeat' split) <;> simp [hb]

@[simp] theorem peerSplit_twOk {s : State} {pfn : Nat} {flags : Byte} (hb : TwOk s.tw) :
    TwOk (peerSplit s pfn flags).tw := by
  simp [peerSplit, hb]

@[simp] theorem takeHeartbeat_twOk {s : State} {h : Heartbeat} (hb : TwOk s.tw) : TwOk (takeHeartbeat s h).tw := by
  unfold takeHeartbeat
  have hp : ∀ (u : State) (a b c d : _), TwOk u.tw → TwOk (compareDigest (peerSplit u a b) c d b).tw :=
    fun _ _ _ _ _ h => compareDigest_twOk (peerSplit_twOk h)
  dsimp only
  have hl : ∀ u : State, TwOk u.tw → TwOk (if bitN h.flags.toNat 1 then losePeer u 2 else u).tw := by
    intro u hu
    split <;> simp [hu]
  refine hl _ (hp _ _ _ _ _ ?_)
  split
  · exact hp _ _ _ _ _ hb
  · exact hb

@[simp] theorem cancelMirror_twOk {s : State} {m : Mirror} {why : Nat} {status : Nat} (hb : TwOk s.tw) :
    TwOk (cancelMirror s m why status).tw := by
  unfold cancelMirror
  (repeat' split) <;> simp [hb]

@[simp] theorem takeAnswer_twOk {s : State} {a : Word × BitVec 16 × BitVec 48} (hb : TwOk s.tw) :
    TwOk (takeAnswer s a).tw := by
  unfold takeAnswer
  (repeat' split) <;> simp [hb]

@[simp] theorem peerResetEvent_twOk {s : State} {outcome : Nat} {scope : Nat} (hb : TwOk s.tw) :
    TwOk (peerResetEvent s outcome scope).tw := by
  simp [peerResetEvent, hb]

@[simp] theorem peerCmd_twOk {s : State} {v : Word} (hb : TwOk s.tw) : TwOk (peerCmd s v).tw := by
  simp [peerCmd, hb]

@[simp] theorem halfChanged_twOk {s : State} {h : Nat} {what : Nat} {b : Nat} (hb : TwOk s.tw) :
    TwOk (halfChanged s h what b).tw := by
  simp [halfChanged, hb]

@[simp] theorem applyHalfOut_twOk {s : State} {h : Nat} (hb : TwOk s.tw) : TwOk (applyHalfOut s h).1.tw := by
  unfold applyHalfOut
  dsimp only
  (repeat' split) <;> simp [hb]

@[simp] theorem noteDeferred_twOk {s : State} {n : Nat} (hb : TwOk s.tw) : TwOk (noteDeferred s n).tw := by
  simp [noteDeferred, hb]

@[simp] theorem countDeferral_twOk {s : State} (hb : TwOk s.tw) : TwOk (countDeferral s).tw := by
  simp [countDeferral, hb]

@[simp] theorem deferredEvent_twOk {s : State} {moved : Nat} {cause : Nat} {frac : Frac} (hb : TwOk s.tw) :
    TwOk (deferredEvent s moved cause frac).tw := by
  simp [deferredEvent, hb]

@[simp] theorem captureHolds_twOk {s : State} (hb : TwOk s.tw) : TwOk (captureHolds s).tw := by
  unfold captureHolds
  dsimp only
  (repeat' split) <;> simp [hb]

@[simp] theorem applyReg_twOk {s : State} {late : List (Nat × Bool)} {n : RegName} {i : Nat} {v : Word} {w : Word} (hb : TwOk s.tw) :
    TwOk (applyReg s late n i v w).tw := by
  unfold applyReg
  (repeat' split) <;> simp [hb]

@[simp] theorem overtake_twOk {a : State × List Written} {m : Written} (hb : TwOk a.1.tw) :
    TwOk (overtake a m).1.tw := by
  simp +contextual [overtake, hb]

@[simp] theorem applyDue_twOk {s : State} {p : Item → Bool} {f : State → Staged → State}
    (h : ∀ s i, TwOk s.tw → TwOk (f s i).tw) (hb : TwOk s.tw) : TwOk (applyDue s p f).tw :=
  each_twOk h (by simpa using hb)

@[simp] theorem cmdTurn_twOk {f : State → Staged → State} {a : State × List Written} {i : Staged}
    (h : ∀ s i, TwOk s.tw → TwOk (f s i).tw) (hb : TwOk a.1.tw) : TwOk (cmdTurn f a i).1.tw :=
  h _ _ (foldl_fst_twOk (fun _ _ => overtake_twOk) hb)

@[simp] theorem applyCmds_twOk {s : State} {p : Item → Bool} {f : State → Staged → State}
    (h : ∀ s i, TwOk s.tw → TwOk (f s i).tw) (hb : TwOk s.tw) : TwOk (applyCmds s p f).1.tw :=
  foldl_fst_twOk (fun _ _ => cmdTurn_twOk h) (by simpa using hb)

@[simp] theorem regTurn_twOk {late : List (Nat × Bool)} {a : State × List Written} {i : Staged} (hb : TwOk a.1.tw) :
    TwOk (regTurn late a i).1.tw := by
  unfold regTurn
  dsimp only
  (repeat' split) <;> simp [hb]

@[simp] theorem applyRegs_twOk {s : State} {late : List (Nat × Bool)} {p : Nat → Bool} (hb : TwOk s.tw) :
    TwOk (applyRegs s late p).tw := by
  simp +contextual [applyRegs, hb]

@[simp] theorem stepItem_twOk {a : State × StepOne} {i : Staged} (hb : TwOk a.1.tw) : TwOk (stepItem a i).1.tw := by
  unfold stepItem
  dsimp only
  (repeat' split) <;> simp [hb]

@[simp] theorem stepOne_twOk {s : State} (hb : TwOk s.tw) : TwOk (stepOne s).1.tw := by
  simp +contextual [stepOne, hb]

@[simp] theorem headEvents_twOk {s : State} {o : StepOne} {d : HeadDone} (hb : TwOk s.tw) :
    TwOk (headEvents s o d).tw := by
  unfold headEvents
  have h : TwOk (each o.halves (each o.budgets s (fun s b => budgetEvent s b.1 b.2.1 b.2.2))
      (fun s h => halfChanged s h.1 h.2.1 h.2.2)).tw :=
    each_twOk (fun _ _ => halfChanged_twOk) (each_twOk (fun _ _ => budgetEvent_twOk) hb)
  dsimp only
  cases d with
  | nothing => exact h
  | applied c => simpa using commitApplied_twOk (c := c) h
  | cancelled l => exact cancelledEvents_twOk h

@[simp] theorem mixBoundary_twOk {s : State} {late : List (Nat × Bool)} {bad : List Damage} (hb : TwOk s.tw) :
    TwOk (mixBoundary s late bad).1.tw := by
  unfold mixBoundary
  have h := stepOne_twOk (captureHolds_twOk (freeDamaged_twOk hb))
  dsimp only
  generalize stepOne (captureHolds (freeDamaged s)) = one at *
  have h2 := applyRegs_twOk (late := late) (p := mxOffset) (s := (stepTwo one.1 (budgetFell one.2 one.1) bad).1) (by simpa using h)
  simp only [evalSinks_keeps]
  refine cancelledEvents_twOk (shedEvents_twOk (headEvents_twOk ?_))
  simpa using h2

@[simp] theorem applyEngineItem_twOk {s : State} {i : Staged} (hb : TwOk s.tw) : TwOk (applyEngineItem s i).tw := by
  unfold applyEngineItem
  (repeat' split) <;> simp [hb]

@[simp] theorem paramsTurn_twOk {a : State × List (Nat × Nat × Owner)} {i : Staged} (hb : TwOk a.1.tw) :
    TwOk (paramsTurn a i).1.tw := by
  unfold paramsTurn
  (repeat' split) <;> simp [hb]

@[simp] theorem applyAllParams_twOk {s : State} (hb : TwOk s.tw) : TwOk (applyAllParams s).tw := by
  unfold applyAllParams
  (repeat' split) <;> simp +contextual [*]

@[simp] theorem engineBoundary_twOk {s : State} {late : List (Nat × Bool)} {scene : Option SceneRef} (hb : TwOk s.tw) :
    TwOk (engineBoundary s late scene).tw := by
  unfold engineBoundary
  have h : TwOk (applyAllParams (applyCmds (failEngines s) isEngineItem applyEngineItem).1).tw :=
    applyAllParams_twOk (applyCmds_twOk (fun _ _ => applyEngineItem_twOk) (failEngines_twOk hb))
  refine applyRegs_twOk ?_
  split
  · exact sceneApplied_twOk h
  · exact h

@[simp] theorem applyEnvItem_twOk {s : State} {i : Staged} (hb : TwOk s.tw) : TwOk (applyEnvItem s i).tw := by
  unfold applyEnvItem
  (repeat' split) <;> simp [hb]

@[simp] theorem applyStreamItem_twOk {s : State} {i : Staged} (hb : TwOk s.tw) : TwOk (applyStreamItem s i).tw := by
  unfold applyStreamItem
  (repeat' split) <;> simp [hb]

@[simp] theorem applyDomainItem_twOk {s : State} {i : Staged} (hb : TwOk s.tw) : TwOk (applyDomainItem s i).tw := by
  unfold applyDomainItem
  (repeat' split) <;> simp [hb]

@[simp] theorem followState_twOk {s : State} (hb : TwOk s.tw) : TwOk (followState s).tw := by
  simp [followState, hb]

@[simp] theorem settingTurn_twOk {late : List (Nat × Bool)} {a : State × List Written} {i : Staged} (hb : TwOk a.1.tw) :
    TwOk (settingTurn late a i).1.tw := by
  unfold settingTurn
  split
  · exact regTurn_twOk hb
  · exact cmdTurn_twOk (fun _ _ => applyEnvItem_twOk) hb

@[simp] theorem settingBoundary_twOk {s : State} {late : List (Nat × Bool)} (hb : TwOk s.tw) :
    TwOk (settingBoundary s late).tw := by
  unfold settingBoundary
  have h : TwOk (applyCmds s isEnvLoad applyEnvItem).1.tw := applyCmds_twOk (fun _ _ => applyEnvItem_twOk) hb
  have h' : TwOk ((takeDue (applyCmds s isEnvLoad applyEnvItem).1 isSetting).2.foldl (settingTurn late)
      ((takeDue (applyCmds s isEnvLoad applyEnvItem).1 isSetting).1, (applyCmds s isEnvLoad applyEnvItem).2)).1.tw :=
    foldl_fst_twOk (fun _ _ => settingTurn_twOk) (by simpa using h)
  dsimp only
  split <;> simpa using h'

@[simp] theorem streamBoundary_twOk {s : State} (hb : TwOk s.tw) : TwOk (streamBoundary s).tw := by
  exact applyDue_twOk (fun _ _ => applyStreamItem_twOk)
    (applyDue_twOk (fun _ _ => applyStreamItem_twOk) (applyHalts_twOk hb))

@[simp] theorem followBoundary_twOk {s : State} (hb : TwOk s.tw) : TwOk (followBoundary s).tw := by
  have h : TwOk (refFollowAll (applyDue (streamBoundary s) isDomainItem applyDomainItem)).tw :=
    refFollowAll_twOk (applyDue_twOk (fun _ _ => applyDomainItem_twOk) (streamBoundary_twOk hb))
  exact followState_twOk (idleWakes_twOk (pdmFollowAll_twOk (by simpa using h)))

@[simp] theorem decideLoss_twOk {s : State} (hb : TwOk s.tw) : TwOk (decideLoss s).tw := by
  unfold decideLoss
  (repeat' split) <;> simp [hb]

@[simp] theorem applyPairItem_twOk {s : State} {i : Staged} (hb : TwOk s.tw) : TwOk (applyPairItem s i).tw := by
  unfold applyPairItem
  (repeat' split) <;> simp [hb]

@[simp] theorem pairBoundary_twOk {s : State} (hb : TwOk s.tw) : TwOk (pairBoundary s).tw := by
  exact decideLoss_twOk (applyDue_twOk (fun _ _ => applyPairItem_twOk) (each_twOk (fun _ _ => setSolo_twOk) hb))

@[simp] theorem judgeSlack_twOk {s : State} {slack : Nat} {drained : Bool} (hb : TwOk s.tw) :
    TwOk (judgeSlack s slack drained).tw := by
  unfold judgeSlack
  dsimp only
  (repeat' split) <;> simp [hb]

@[simp] theorem frameReports_twOk {s : State} (hb : TwOk s.tw) : TwOk (frameReports s).tw := by
  exact reportEngineClips_twOk (reportClips_twOk (reportLanes_twOk hb))

@[simp] theorem settleDeferral_twOk {s : State} (hb : TwOk s.tw) : TwOk (settleDeferral s).tw := by
  unfold settleDeferral
  dsimp only
  (repeat' split) <;> simp [hb]

@[simp] theorem boundaryAlways_twOk {s : State} (hb : TwOk s.tw) : TwOk (boundaryAlways s).tw := by
  exact idleWakes_twOk (applyHalts_twOk (failEngines_twOk hb))

@[simp] theorem abortAlways_twOk {s : State} (hb : TwOk s.tw) : TwOk (abortAlways s).tw := by
  refine idleWakes_twOk (applyHalts_twOk (each_twOk (fun s e hs => ?_) hb))
  dsimp only
  split
  · exact hs
  · simpa using failEngine_twOk (e := e) hs

@[simp] theorem readEffect_twOk {s : State} {o : Owner} {r : ReadIn} {n : RegName} {i : Nat} (hb : TwOk s.tw) :
    TwOk (readEffect s o r n i).tw := by
  unfold readEffect
  (repeat' split) <;> simp [hb]

@[simp] theorem readAt_twOk {s : State} {o : Owner} {r : ReadIn} {off : Nat} (hb : TwOk s.tw) :
    TwOk (readAt s o r off).1.tw := by
  unfold readAt
  (repeat' split) <;> simp [hb]

@[simp] theorem hlWrite_twOk {s : State} {n : RegName} {i : Nat} {v : Word} (hb : TwOk s.tw) :
    TwOk (hlWrite s n i v).tw := by
  unfold hlWrite
  (repeat' split) <;> simp [hb]

@[simp] theorem vidWrite_twOk {s : State} {v : Word} (hb : TwOk s.tw) : TwOk (vidWrite s v).tw := by
  unfold vidWrite
  dsimp only
  (repeat' split) <;> simp [hb]

@[simp] theorem writeEffect_twOk {s : State} {src : Owner} {env : WriteIn} {n : RegName} {i : Nat} {v : Word} (hb : TwOk s.tw) :
    TwOk (writeEffect s src env n i v).tw := by
  unfold writeEffect
  (repeat' split) <;> simp [hb]

@[simp] theorem spCtrlWrite_twOk {s : State} {src : Owner} {off : Nat} {v : Word} (hb : TwOk s.tw) :
    TwOk (spCtrlWrite s src off v).1.tw := by
  simp +contextual [spCtrlWrite, hb]

@[simp] theorem writeReg_twOk {s : State} {src : Owner} {env : WriteIn} {off : Nat} {v : Word} (hb : TwOk s.tw) :
    TwOk (writeReg s src env off v).1.tw := by
  unfold writeReg
  have hs : ∀ g i, TwOk (stageG s src g i).tw := fun g i => by simpa using hb
  dsimp only
  split
  · exact hb
  · split
    · exact hb
    · split
      · exact hlWrite_twOk hb
      · split
        · simpa using hb
        · exact windowTake_twOk (fun _ => writePdata_twOk) hb
        · exact windowTake_twOk (fun _ h => by simp [h]) hb
        · dsimp only
          split <;> exact hb
        · exact spCtrlWrite_twOk hb
        · simpa using hb
        · split
          · exact hb
          · split
            · exact ownerRefuse_twOk hb
            · split
              · exact hb
              · split
                · exact hs _ _
                · exact inOrder_twOk (fun _ => writeEffect_twOk) hb

theorem windowTake_lastWr {s : State} {src : Owner} {off : Nat} {gs : List Nat} {f : State → State} :
    (windowTake s src off gs f).2 ≤ 6 := by
  unfold windowTake
  dsimp only
  split <;> simp

theorem spCtrlWrite_lastWr {s : State} {src : Owner} {off : Nat} {v : Word} : (spCtrlWrite s src off v).2 ≤ 6 := by
  unfold spCtrlWrite
  dsimp only
  split <;> simp

/-- What one register write gives LAST_WR is a code of R344. -/
theorem writeReg_lastWr {s : State} {src : Owner} {env : WriteIn} {off : Nat} {v : Word} :
    (writeReg s src env off v).2 ≤ 6 := by
  unfold writeReg
  dsimp only
  (repeat' split) <;> first | exact windowTake_lastWr | exact spCtrlWrite_lastWr | simp

@[simp] theorem barRead_twOk {s : State} {src : Owner} {r : ReadIn} {w : BarWrite} (hb : TwOk s.tw) :
    TwOk (barRead s src r w).tw := by
  unfold barRead
  (repeat' split) <;> simp +contextual [*]

@[simp] theorem readRegs_twOk {o : Owner} {r : ReadIn} {n off : Nat} {s : State} (hb : TwOk s.tw) :
    TwOk (readRegs o r n off s).1.tw := by
  induction n generalizing off s with
  | zero => exact hb
  | succ n ih => exact ih (readAt_twOk hb)

@[simp] theorem regRead_twOk {s : State} {r : ReadIn} {d : Bytes} (hb : TwOk s.tw) : TwOk (regRead s r d).1.tw := by
  unfold regRead
  dsimp only
  (repeat' split) <;> simp [hb]

@[simp] theorem writeTurn_twOk {env : WriteIn} {off : Nat} {a : State × Nat} {p : Word × Nat} (hb : TwOk a.1.tw) :
    TwOk (writeTurn env off a p).1.tw := by
  unfold writeTurn
  dsimp only
  (repeat' split) <;> simp [hb]

theorem foldl_writeTurn_lastWr {env : WriteIn} {off : Nat} {l : List (Word × Nat)} {a : State × Nat} (h : a.2 ≤ 6) :
    (l.foldl (writeTurn env off) a).2 ≤ 6 := by
  induction l generalizing a with
  | nil => exact h
  | cons p r ih =>
    refine ih (Nat.max_le.mpr ⟨h, ?_⟩)
    split
    · exact writeReg_lastWr
    · simp

@[simp] theorem regWrite_twOk {s : State} {env : WriteIn} {d : Bytes} (hb : TwOk s.tw) :
    TwOk (regWrite s env d).tw := by
  unfold regWrite
  dsimp only
  split
  · exact setLastWr_twOk (by decide) hb
  · refine setLastWr_twOk (foldl_writeTurn_lastWr (by simp)) (foldl_fst_twOk (fun _ _ => writeTurn_twOk) ?_)
    simpa using hb

@[simp] theorem takeEntry_twOk {t : Frac} {s : State} {f : Fetched} (hb : TwOk s.tw) : TwOk (takeEntry t s f).tw := by
  simp [takeEntry, hb]

@[simp] theorem longEnd_twOk {s : State} {us : Word} {r : LongDone} (hb : TwOk s.tw) : TwOk (longEnd s us r).tw := by
  unfold longEnd
  (repeat' split) <;> simp [hb]

end Sys2Proof.Proofs.Bus

/-! The frame counter (R7): a strobe advances it, some operations stop the strobes, a wide reset clears it, and nothing
else moves it. -/

namespace Sys2Proof.Proofs.Counter

open Sys2Proof Sys2Proof.Machine Sys2Proof.Safety Sys2Proof.Laws

/-- The counter stays, and no strobe starts: the strobes run on or stop. -/
def Stays (s t : State) : Prop :=
  t.fr.fn = s.fr.fn ∧ t.fr.next = s.fr.next ∧ (t.fr.running = true → s.fr.running = true)

theorem Stays.refl (s : State) : Stays s s := ⟨rfl, rfl, id⟩

theorem Stays.trans {s t u : State} (h : Stays s t) (k : Stays t u) : Stays s u :=
  ⟨k.1.trans h.1, k.2.1.trans h.2.1, fun r => h.2.2 (k.2.2 r)⟩

theorem Stays.of_eq {s t : State} (h : t.fr.fn = s.fr.fn ∧ t.fr.next = s.fr.next ∧ t.fr.running = s.fr.running) :
    Stays s t := ⟨h.1, h.2.1, fun r => h.2.2 ▸ r⟩

theorem Stays.fnOk {s t : State} (h : Stays s t) (hs : FnOk s) : FnOk t := by
  obtain ⟨hf, hn, hr⟩ := hs
  obtain ⟨ef, en, er⟩ := h
  exact ⟨ef ▸ hf, en ▸ hn, fun r => by rw [en, ef]; exact hr (er r)⟩

theorem each_stays {α : Type} {l : List α} {s : State} {f : State → α → State} (h : ∀ s a, Stays s (f s a)) :
    Stays s (each l s f) :=
  each_invariant (I := fun t => Stays s t) (fun t a ht => ht.trans (h t a)) l s (.refl s)

theorem foldl_fst_stays {α β : Type} {l : List α} {a : State × β} {f : State × β → α → State × β}
    (h : ∀ a x, Stays a.1 (f a x).1) : Stays a.1 (l.foldl f a).1 := by
  induction l generalizing a with
  | nil => exact .refl a.1
  | cons x r ih => exact (h a x).trans ih

/-! ### What stops the strobes -/

theorem stopStrobes_stays (s : State) : Stays s (stopStrobes s) := by
  unfold stopStrobes
  dsimp only
  split
  · exact ⟨by simp, by simp, fun h => by simp at h; exact h.2⟩
  · exact ⟨by simp, by simp, fun h => by simp at h; exact h.2⟩

theorem applyRate_stays (s : State) (code : Nat) : Stays s (applyRate s code) :=
  ⟨by simp, by simp, by simp [applyRate]⟩

theorem clkOff_stays (s : State) : Stays s (clkOff s) := ⟨by simp, by simp, by simp [clkOff]⟩

theorem stopAtDrain_stays (s : State) : Stays s (stopAtDrain s) := by
  unfold stopAtDrain
  split
  · exact ⟨by simp, by simp, by simp⟩
  · exact .refl s

theorem domainOff_stays (s : State) (d : Nat) : Stays s (domainOff s d) := by
  unfold domainOff
  split
  · exact .of_eq (by simp)
  · (repeat' split)
    case isFalse.isFalse.isFalse.isFalse.isTrue => exact Stays.trans (.of_eq (by simp)) (clkOff_stays _)
    all_goals exact .of_eq (by simp)

theorem domainDown_stays (s : State) (cause d : Nat) : Stays s (domainDown s cause d) := by
  unfold domainDown
  split
  · exact .refl s
  · have h := domainOff_stays { s with pd := { s.pd with on := s.pd.on - 2 ^ d } } d
    exact h.trans (.of_eq (by simp))

theorem applyDomain_stays (s : State) (up down n : Nat) : Stays s (applyDomain s up down n) := by
  have h : Stays s (each ((List.range 10).reverse.filter (goesDown down)) s (fun s d => domainDown s 1 d)) :=
    each_stays fun s d => domainDown_stays s 1 d
  exact h.trans (.of_eq (by simp only [applyDomain, jobEnd_keeps, and_self]))

theorem applyDomainItem_stays (s : State) (i : Staged) : Stays s (applyDomainItem s i) := by
  unfold applyDomainItem
  split
  · exact applyDomain_stays _ _ _ _
  · exact .of_eq (by simp)
  · exact .refl s

theorem stepItem_stays (a : State × StepOne) (i : Staged) : Stays a.1 (stepItem a i).1 := by
  unfold stepItem
  dsimp only
  split
  · split <;> exact .of_eq (by simp)
  · split <;> exact .of_eq (by simp)
  · exact applyRate_stays _ _
  · exact .refl _

theorem stepOne_stays (s : State) : Stays s (stepOne s).1 := by
  have h : Stays s (takeDue (retireLanes (enterReturned s)) isStepOne).1 := .of_eq (by simp)
  exact h.trans (foldl_fst_stays stepItem_stays)

theorem mixBoundary_stays (s : State) (late : List (Nat × Bool)) (bad : List Damage) :
    Stays s (mixBoundary s late bad).1 := by
  have h : Stays s (captureHolds (freeDamaged s)) := .of_eq (by simp)
  have h1 := h.trans (stepOne_stays _)
  unfold mixBoundary
  exact h1.trans (.of_eq (by simp))

theorem followBoundary_stays (s : State) : Stays s (followBoundary s) := by
  have h : Stays s (streamBoundary s) := .of_eq (by simp)
  have h1 : Stays s (applyDue (streamBoundary s) isDomainItem applyDomainItem) :=
    h.trans (Stays.trans (.of_eq (by simp)) (each_stays applyDomainItem_stays))
  unfold followBoundary
  exact h1.trans (.of_eq (by simp))

/-! ### A strobe -/

/-- The counter after the strobe that begins a frame (R7). -/
theorem beginFrame_counter (s : State) :
    (beginFrame s).fr.fn = s.fr.next ∧ (beginFrame s).fr.next = (s.fr.next + 1) % 2 ^ 48 := by
  unfold beginFrame
  dsimp only
  split <;> simp

theorem beginFrame_fnOk {s : State} (h : s.fr.next < 2 ^ 48) : FnOk (beginFrame s) := by
  obtain ⟨hf, hn⟩ := beginFrame_counter s
  refine ⟨hf ▸ h, ?_, fun _ => by rw [hn, hf]⟩
  rw [hn]
  exact Nat.mod_lt _ (by decide)

theorem strobeBody_stays (s : State) (x : StrobeIn) : Stays s (strobeBody s x) := .of_eq (by simp)

theorem firstStrobe_fnOk {s : State} (x : StrobeIn) (h : s.fr.next < 2 ^ 48) : FnOk (firstStrobe s x) := by
  have hb : FnOk (beginFrame { s with now := 0 }) := beginFrame_fnOk h
  have hr : Stays (beginFrame { s with now := 0 }) (rateApplied (beginFrame { s with now := 0 }) s.fr.rate s.fr.rate) :=
    .of_eq (by simp)
  exact (hr.trans (strobeBody_stays _ x)).fnOk hb

theorem clkUp_fnOk (s : State) (x : StrobeIn) : FnOk (clkUp s x) :=
  (strobeBody_stays _ x).fnOk (beginFrame_fnOk (by simp))

theorem domainGood_fnOk {s : State} (d : Nat) (failed : Word) (memBad : Bool) (x : StrobeIn) (h : FnOk s) :
    FnOk (domainGood s d failed memBad x) := by
  unfold domainGood
  split
  · exact h
  · dsimp only
    split
    · exact h
    · rename_i j _ _
      have hd : FnOk (domainUp { s with pd := { s.pd with on := s.pd.on + 2 ^ d, job := jobsWithout s d false } } d
          (j.cause == 2) failed memBad) := Stays.fnOk (.of_eq (by simp)) h
      have hs : ∀ (c : Bool) (u : State), FnOk u → FnOk (if c then firstStrobe u x else u) := by
        intro c u hu
        cases c
        · exact hu
        · exact firstStrobe_fnOk x hu.2.1
      have h1 := hs (d = 7 && !(j.cause == 2)) _ hd
      exact Stays.fnOk (.of_eq (by simp only [jobEnd_keeps, domainChanged_keeps, and_self])) h1

theorem standbyStrobe_fnOk {s : State} (x : StrobeIn) (h : FnOk s) : FnOk (standbyStrobe s x) := by
  unfold standbyStrobe
  split
  · exact h
  · split
    · exact h
    · exact Stays.fnOk (.of_eq (by simp)) (firstStrobe_fnOk x h.2.1)

/-! ### Resets -/

theorem resetCounter_fnOk {s : State} (h : s.fr.fn = 0 ∧ s.fr.next = 0 ∧ s.fr.running = false) : FnOk s := by
  obtain ⟨hf, hn, hr⟩ := h
  exact ⟨by rw [hf]; decide, by rw [hn]; decide, fun r => by rw [hr] at r; cases r⟩

theorem beginWide_fnOk (s : State) (scope src merged : Nat) : FnOk (beginWide s scope src merged) := by
  refine resetCounter_fnOk ?_
  simp only [beginWide, push]
  (repeat' split) <;> exact ⟨rfl, rfl, rfl⟩

theorem startReset_fnOk {s : State} (scope src : Nat) (h : FnOk s) : FnOk (startReset s scope src) := by
  unfold startReset
  (repeat' split)
  all_goals first
    | exact beginWide_fnOk _ _ _ _
    | exact Stays.fnOk (.of_eq (by simp)) h

theorem beginAfter_fnOk {s : State} (a : AfterDone) (h : FnOk s) : FnOk (beginAfter s a) := by
  cases a with
  | reset scope => exact startReset_fnOk scope 6 h
  | enter m => exact Stays.fnOk (.of_eq (by simp [beginAfter])) h

theorem furtherReset_fnOk {s : State} (src : Nat) (h : FnOk s) : FnOk (furtherReset s src) :=
  startReset_fnOk 2 src h

theorem controlDone_fnOk {s : State} (c : Nat × Nat) (us : Nat) (fell : Bool) (h : FnOk s) :
    FnOk (controlDone s c us fell) := by
  unfold controlDone
  dsimp only
  split
  · refine furtherReset_fnOk _ (Stays.fnOk (.of_eq ?_) h)
    (repeat' split) <;> simp
  · refine Stays.fnOk (.of_eq ?_) h
    (repeat' split) <;> simp

theorem fellBack_fnOk {s : State} (src : Nat) (h : FnOk s) :
    FnOk (if s.sv.fell = 3 then furtherReset s src else fallbackTold s) := by
  split
  · exact furtherReset_fnOk _ h
  · exact Stays.fnOk (.of_eq (by simp)) h

theorem bringupDone_fnOk {s : State} (r : Reset) (us : Nat) (h : FnOk s) : FnOk (bringupDone s r us) := by
  refine fellBack_fnOk _ (Stays.fnOk (.of_eq ?_) h)
  simp only [resetDone_keeps]
  split <;> simp

theorem wakeSleep_fnOk (s : State) (src awc : Nat) : FnOk (wakeSleep s src awc) := by
  unfold wakeSleep
  have h := beginWide_fnOk s 0 0x0B 0
  dsimp only
  split <;> exact Stays.fnOk (.of_eq (by simp)) h

theorem wakeArrives_fnOk {s : State} (src awc : Nat) (h : FnOk s) : FnOk (wakeArrives s src awc) := by
  unfold wakeArrives
  dsimp only
  (repeat' split)
  all_goals first
    | exact wakeSleep_fnOk _ _ _
    | exact Stays.fnOk (.of_eq (by simp)) h

theorem standbyWakes_fnOk {s : State} (src cycles : Nat) (h : FnOk s) : FnOk (standbyWakes s src cycles) := by
  unfold standbyWakes
  split
  · exact wakeArrives_fnOk _ _ (Stays.fnOk (.of_eq (by simp)) h)
  · exact h

theorem ringDoorbell_fnOk {s : State} (full : Bool) (v : Word) (cycles : Nat) (h : FnOk s) :
    FnOk (ringDoorbell s full v cycles) := by
  have hc : FnOk (commandDoorbell s full v) := Stays.fnOk (.of_eq (by simp)) h
  unfold ringDoorbell
  dsimp only
  split
  · exact standbyWakes_fnOk _ _ hc
  · exact hc

theorem twResets_fnOk {s : State} (scope : Nat) (h : FnOk s) : FnOk (twResets s scope) := by
  unfold twResets
  split
  · exact Stays.fnOk (.of_eq (by simp)) h
  · exact startReset_fnOk _ _ (Stays.fnOk (.of_eq (by simp)) h)

/-! ### Operations that are given what to do -/

theorem thenDo_fnOk {f : State → AfterDone → State} (hf : ∀ s a, FnOk s → FnOk (f s a)) {s : State} (slot : Nat)
    (a : AfterDone) (h : FnOk s) : FnOk (thenDo f s slot a) := by
  unfold thenDo
  split
  · exact h
  · exact hf _ _ h

theorem resume_fnOk {f : State → AfterDone → State} (hf : ∀ s a, FnOk s → FnOk (f s a)) {s : State} (h : FnOk s) :
    FnOk (resume f s) := by
  unfold resume
  (repeat' split)
  · exact h
  · exact h
  · exact hf _ _ h

theorem endWrite_fnOk {run : State → State} (hr : ∀ s, FnOk s → FnOk (run s)) {s : State} (x : TwTx) (why : Nat)
    (h : FnOk s) : FnOk (endWrite s x why run) := by
  have hs : FnOk (releaseRead s x) := Stays.fnOk (.of_eq (by simp)) h
  unfold endWrite
  dsimp only
  split
  · exact hr _ hs
  · exact Stays.fnOk (.of_eq (by simp)) hs

theorem writeBody_fnOk {run : State → Bytes → State} (hr : ∀ s d, FnOk s → FnOk (run s d)) {s : State} (code : Byte)
    (x : TwTx) (head n : Nat) (h : FnOk s) : FnOk (writeBody s code x head n run) := by
  unfold writeBody
  dsimp only
  split
  · exact endWrite_fnOk (fun _ => hr _ _) x _ h
  · split
    · exact endWrite_fnOk (fun _ => hr _ _) x _ h
    · refine endWrite_fnOk (fun _ => hr _ _) x _ (Stays.fnOk (.of_eq ?_) h)
      (repeat' split) <;> simp

theorem writeCode_fnOk {k : State → State} (hk : ∀ s, FnOk s → FnOk (k s)) {s : State} (x : TwTx) (h : FnOk s) :
    FnOk (writeCode s x k) := by
  unfold writeCode
  (repeat' split)
  · exact Stays.fnOk (.of_eq (by simp)) h
  · exact Stays.fnOk (.of_eq (by simp)) h
  · exact hk _ h

theorem blockWrite_fnOk {run : State → Bytes → State} (hr : ∀ s d, FnOk s → FnOk (run s d)) {s : State} (code : Byte)
    (x : TwTx) (ok : Nat → Bool) (h : FnOk s) : FnOk (blockWrite s code x ok run) := by
  unfold blockWrite
  split
  · exact endWrite_fnOk (fun _ => id) x _ h
  · split
    · exact endWrite_fnOk (fun _ => id) x _ (Stays.fnOk (.of_eq (by simp)) h)
    · refine writeBody_fnOk (fun s d hs => ?_) code x _ _ h
      split
      · exact Stays.fnOk (.of_eq (by simp)) hs
      · exact hr s d hs

theorem wakingWrite_fnOk {run : State → Bytes → State} (hr : ∀ s d, FnOk s → FnOk (run s d)) {s : State} (code : Byte)
    (x : TwTx) (ok : Nat → Bool) (h : FnOk s) : FnOk (wakingWrite s code x ok run) := by
  have hb := blockWrite_fnOk hr code x ok h
  unfold wakingWrite
  dsimp only
  split
  · exact standbyWakes_fnOk _ _ hb
  · exact hb

/-! ### The boundary, register writes and the end of STANDBY -/

theorem applyFwActivate_fnOk {s : State} (h : FnOk s) : FnOk (applyFwActivate s) := by
  unfold applyFwActivate
  exact startReset_fnOk _ _ (Stays.fnOk (.of_eq (by simp)) h)

theorem applyDue_fnOk {s : State} {p : Item → Bool} {f : State → Staged → State} (hf : ∀ s i, FnOk s → FnOk (f s i))
    (h : FnOk s) : FnOk (applyDue s p f) :=
  each_invariant (I := FnOk) hf _ _ (Stays.fnOk (.of_eq (by simp)) h)

theorem boundary_fnOk {s : State} (late : List (Nat × Bool)) (bad : List Damage) (h : FnOk s) :
    FnOk (boundary s late bad) := by
  have h1 : Stays s (if lossDue s then bindMine s else s) := by split <;> exact .of_eq (by simp)
  have h2 := h1.trans (mixBoundary_stays _ late bad)
  unfold boundary
  dsimp only
  generalize mixBoundary (if lossDue s then bindMine s else s) late bad = m at *
  have h3 : Stays m.1 (settingBoundary (engineBoundary m.1 late m.2) late) := .of_eq (by simp)
  have h4 : Stays s (pairBoundary (followBoundary (settingBoundary (engineBoundary m.1 late m.2) late))) :=
    ((h2.trans h3).trans (followBoundary_stays _)).trans (.of_eq (by simp))
  exact applyDue_fnOk (fun _ _ => applyFwActivate_fnOk) (h4.fnOk h)

theorem barWrite32_fnOk {s : State} (src : Owner) (env : WriteIn) (off : Nat) (v : Word) (h : FnOk s) :
    FnOk (barWrite32 s src env off v) := by
  unfold barWrite32
  dsimp only
  (repeat' split)
  all_goals first
    | exact ringDoorbell_fnOk _ _ _ h
    | exact Stays.fnOk (.of_eq (by simp)) h

theorem applyLate_fnOk {s : State} (c : Nat × Bytes) (h : FnOk s) : FnOk (applyLate s c) := by
  unfold applyLate
  dsimp only
  (repeat' split)
  all_goals first
    | exact twResets_fnOk _ h
    | exact Stays.fnOk (.of_eq (by simp)) h

end Sys2Proof.Proofs.Counter

/-! The bounds of the two-wire side over resets, over what a transaction is given to do, and over the commands that write
into the buffer. -/

namespace Sys2Proof.Proofs.BusWrites

open Sys2Proof Sys2Proof.Machine Sys2Proof.Safety Sys2Proof.Laws Sys2Proof.Proofs.Bus

/-! ### Resets and wakes -/

@[simp] theorem reset_twOk : TwOk State.reset.tw := ⟨by decide, by decide, reset_buffer_canonical⟩

@[simp] theorem coldState_twOk (s : State) : TwOk (coldState s).tw := reset_twOk

@[simp] theorem warmState_twOk (s : State) : TwOk (warmState s).tw := reset_twOk

@[simp] theorem beginWide_twOk (s : State) (scope src merged : Nat) : TwOk (beginWide s scope src merged).tw := by
  simp only [beginWide, push]
  (repeat' split) <;> exact reset_twOk

@[simp] theorem startReset_twOk {s : State} {scope src : Nat} (hb : TwOk s.tw) : TwOk (startReset s scope src).tw := by
  unfold startReset
  (repeat' split) <;> simp [hb]

@[simp] theorem beginAfter_twOk {s : State} {a : AfterDone} (hb : TwOk s.tw) : TwOk (beginAfter s a).tw := by
  cases a <;> simp [beginAfter, hb]

@[simp] theorem furtherReset_twOk {s : State} {src : Nat} (hb : TwOk s.tw) : TwOk (furtherReset s src).tw := by
  simp [furtherReset, hb]

@[simp] theorem controlDone_twOk {s : State} {c : Nat × Nat} {us : Nat} {fell : Bool} (hb : TwOk s.tw) :
    TwOk (controlDone s c us fell).tw := by
  unfold controlDone
  have hd : ∀ t : State, TwOk t.tw → TwOk (if fell then furtherReset t c.1 else t).tw := by
    intro t ht
    split <;> simp [ht]
  refine hd _ (fallbackTold_twOk (resetDone_twOk ?_))
  (repeat' split) <;> simp [hb]

@[simp] theorem bringupDone_twOk {s : State} {r : Reset} {us : Nat} (hb : TwOk s.tw) : TwOk (bringupDone s r us).tw := by
  unfold bringupDone
  have hd : ∀ t : State, TwOk t.tw → TwOk (if t.sv.fell = 3 then furtherReset t r.src else fallbackTold t).tw := by
    intro t ht
    split <;> simp [ht]
  refine hd _ ?_
  dsimp only
  (repeat' split) <;> simp [hb]

@[simp] theorem wakeSleep_twOk (s : State) (src awc : Nat) : TwOk (wakeSleep s src awc).tw := by
  simp only [wakeSleep, push]
  split <;> simp

@[simp] theorem wakeArrives_twOk {s : State} {src awc : Nat} (hb : TwOk s.tw) : TwOk (wakeArrives s src awc).tw := by
  unfold wakeArrives
  dsimp only
  (repeat' split) <;> simp [hb]

@[simp] theorem standbyWakes_twOk {s : State} {src cycles : Nat} (hb : TwOk s.tw) :
    TwOk (standbyWakes s src cycles).tw := by
  unfold standbyWakes
  split <;> simp [hb]

@[simp] theorem ringDoorbell_twOk {s : State} {full : Bool} {v : Word} {cycles : Nat} (hb : TwOk s.tw) :
    TwOk (ringDoorbell s full v cycles).tw := by
  unfold ringDoorbell
  dsimp only
  split <;> simp [hb]

@[simp] theorem twResets_twOk {s : State} {scope : Nat} (hb : TwOk s.tw) : TwOk (twResets s scope).tw := by
  unfold twResets
  split
  · exact setLastWr_twOk (by decide) (ownerRefuse_twOk hb)
  · exact startReset_twOk (setLastWr_twOk (by decide) hb)

/-! ### Transactions -/

/-- What a transaction's end gives LAST_WR is a code of R344. -/
theorem endCode_le (x : TwTx) : endCode x ≤ 6 := by
  unfold endCode
  (repeat' split) <;> decide

theorem endedEarly_le (f : TwEnd) : endedEarly f ≤ 6 := by cases f <;> decide

theorem endWrite_twOk {run : State → State} (hr : ∀ s, TwOk s.tw → TwOk (run s).tw) {s : State} {x : TwTx} {why : Nat}
    (hw : why ≤ 6) (hb : TwOk s.tw) : TwOk (endWrite s x why run).tw := by
  unfold endWrite
  dsimp only
  split
  · exact hr _ (by simpa using hb)
  · exact setLastWr_twOk (Nat.max_le.mpr ⟨hw, endCode_le x⟩) (by simpa using hb)

theorem writeBody_twOk {run : State → Bytes → State} (hr : ∀ s d, TwOk s.tw → TwOk (run s d).tw) {s : State}
    {code : Byte} {x : TwTx} {head n : Nat} (hb : TwOk s.tw) : TwOk (writeBody s code x head n run).tw := by
  unfold writeBody
  dsimp only
  split
  · exact endWrite_twOk (fun _ => hr _ _) (by decide) hb
  · split
    · refine endWrite_twOk (fun _ => hr _ _) ?_ hb
      split <;> decide
    · refine endWrite_twOk (fun _ => hr _ _) ?_ ?_
      · (repeat' split) <;> decide
      · (repeat' split) <;> simp [hb]

theorem writeCode_twOk {k : State → State} (hk : ∀ s, TwOk s.tw → TwOk (k s).tw) {s : State} {x : TwTx}
    (hb : TwOk s.tw) : TwOk (writeCode s x k).tw := by
  unfold writeCode
  (repeat' split)
  · exact nackAddr_twOk hb
  · exact nackBusy_twOk hb
  · exact hk s hb

theorem blockWrite_twOk {run : State → Bytes → State} (hr : ∀ s d, TwOk s.tw → TwOk (run s d).tw) {s : State}
    {code : Byte} {x : TwTx} {ok : Nat → Bool} (hb : TwOk s.tw) : TwOk (blockWrite s code x ok run).tw := by
  unfold blockWrite
  split
  · exact endWrite_twOk (fun _ => id) (by decide) hb
  · split
    · exact endWrite_twOk (fun _ => id) (by decide) (by simpa using hb)
    · refine writeBody_twOk (fun s d hs => ?_) hb
      split
      · exact keepLate_twOk hs
      · exact hr s d hs

theorem wakingWrite_twOk {run : State → Bytes → State} (hr : ∀ s d, TwOk s.tw → TwOk (run s d).tw) {s : State}
    {code : Byte} {x : TwTx} {ok : Nat → Bool} (hb : TwOk s.tw) : TwOk (wakingWrite s code x ok run).tw := by
  have h := blockWrite_twOk hr (code := code) (x := x) (ok := ok) hb
  unfold wakingWrite
  dsimp only
  split
  · exact standbyWakes_twOk h
  · exact h

theorem blockRead_twOk {k : State → State × Bytes} (hk : ∀ s, TwOk s.tw → TwOk (k s).1.tw) {s : State} {code : Byte}
    {x : TwTx} (hb : TwOk s.tw) : TwOk (blockRead s code x k).tw := by
  unfold blockRead
  (repeat' split)
  · exact nackAddr_twOk hb
  · exact setLastWr_twOk (by decide) (by simpa using hb)
  · exact setLastWr_twOk (endedEarly_le _) hb
  · simpa using hk s hb

/-- A write of the buffer over the bus (R347): one past its end leaves LAST_WR 3. -/
theorem bufWriteRun_twOk {s : State} {d : Bytes} (hb : TwOk s.tw) :
    TwOk (if 65536 < leAt d 0 2 + (d.length - 2) then setLastWr s 3
      else setLastWr { s with tw := { s.tw with buf := bufWrite s.tw.buf (leAt d 0 2) (d.drop 2) } } 0).tw := by
  split
  · exact setLastWr_twOk (by decide) hb
  · rename_i h
    refine setLastWr_twOk (by decide) ⟨hb.queue, hb.lastWr, bufWf_bufWrite ?_ hb.buf⟩
    simp only [List.length_drop]
    omega

/-! ### Commands that write into the buffer -/

theorem toLE_length (n v : Nat) : (toLE n v).length = n := by
  induction n generalizing v with
  | zero => rfl
  | succ n ih => simp [toLE, ih]

theorem toBE_length (n v : Nat) : (toBE n v).length = n := by simp [toBE, toLE_length]

theorem sha384_length (m : Bytes) : (sha384 m).length ≤ 48 := by
  unfold sha384
  exact List.length_take_le _ _

theorem hashBytes_length (o : OwnerSlot) : (hashBytes o).length = 48 := by simp [hashBytes]

theorem attestEngine_length (s : State) (e : Nat) : (attestEngine s e).length = 12 := by
  unfold attestEngine
  split <;> simp [toLE_length]

theorem attestChannel_length (s : State) (c : Nat) : (attestChannel s c).length = 12 := by
  unfold attestChannel
  split <;> simp [toLE_length]

theorem flatMap_length {α : Type} (l : List α) (f : α → Bytes) (n : Nat) (h : ∀ a, (f a).length = n) :
    (l.flatMap f).length = l.length * n := by
  simp [List.length_flatMap, h]

theorem pubOf_length (d : Nat) : (pubOf d).length = 97 := by simp [pubOf, pubBytes, toBE_length]

theorem signWith_length (d k : Nat) (b : Bytes) : (signWith d k b).length = 96 := by simp [signWith, toBE_length]

/-- Bytes 0 to 767 of the report (R380). -/
theorem attestBody_length (s : State) {ch : Bytes} (h : ch.length = 48) : (attestBody s ch).length ≤ 768 := by
  have hs := sha384_length (fwSlot s s.sv.slotB).body
  simp only [attestBody, List.length_append, toLE_length, flatMap_length _ _ _ (attestEngine_length s),
    flatMap_length _ _ _ (attestChannel_length s), flatMap_length _ _ _ (fun i => hashBytes_length (ownerSlot s i)),
    flatMap_length _ _ _ (fun i => toLE_length 1 (ownerStCode (ownerSlot s i).st)), pubOf_length, List.length_range, h]
  omega

theorem cmdData_length {s : State} {c : Cmd} {d : Dma} {i n : Nat} {b : Bytes} (h : cmdData s c d i n = some b) :
    b.length = n := by
  unfold cmdData at h
  split at h
  · cases h
    simp [bufRead]
  · split at h
    · split at h
      · cases h
        simpa
      · cases h
    · cases h

theorem addrOk_fits {c : Cmd} {i len : Nat} (ht : c.src = .tw) (h : addrOk c i len = true) :
    fldN (pwN c i) 15 0 + len ≤ 65536 := by
  simp only [addrOk, ht, bne_self_eq_false, Bool.false_or, Bool.and_eq_true, decide_eq_true_eq] at h
  exact h.2

/-- What a command leaves where it was given room for it. -/
theorem cmdWrite_addrOk_twOk {s : State} {c : Cmd} {i len : Nat} {b : Bytes} (h : addrOk c i len = true)
    (hl : b.length ≤ len) (hb : TwOk s.tw) : TwOk (cmdWrite s c i b).tw := by
  by_cases ht : c.src = .tw
  · have := addrOk_fits ht h
    exact cmdWrite_twOk (by omega) hb
  · unfold cmdWrite
    split
    · contradiction
    · simpa using hb

/-! ### The boundary, register writes and the end of STANDBY -/

@[simp] theorem applyFwActivate_twOk {s : State} (hb : TwOk s.tw) : TwOk (applyFwActivate s).tw := by
  simp [applyFwActivate, hb]

@[simp] theorem boundary_twOk {s : State} {late : List (Nat × Bool)} {bad : List Damage} (hb : TwOk s.tw) :
    TwOk (boundary s late bad).tw := by
  have h0 : TwOk (if lossDue s then bindMine s else s).tw := by split <;> simp [hb]
  have h1 := mixBoundary_twOk (late := late) (bad := bad) h0
  unfold boundary
  exact applyDue_twOk (fun _ _ => applyFwActivate_twOk)
    (pairBoundary_twOk (followBoundary_twOk (settingBoundary_twOk (engineBoundary_twOk h1))))

@[simp] theorem barWrite32_twOk {s : State} {src : Owner} {env : WriteIn} {off : Nat} {v : Word} (hb : TwOk s.tw) :
    TwOk (barWrite32 s src env off v).tw := by
  have hw := writeReg_twOk (src := src) (env := env) (off := off) (v := v) hb
  have hl := writeReg_lastWr (s := s) (src := src) (env := env) (off := off) (v := v)
  unfold barWrite32
  dsimp only
  split
  · split
    · exact discard_twOk hb
    · split <;> split
      · exact setLastWr_twOk hl hw
      · exact setLastWr_twOk (v := 3) (by decide) hb
      · exact hw
      · exact hb
  · (repeat' split) <;> simp [hb]

@[simp] theorem applyLate_twOk {s : State} {c : Nat × Bytes} (hb : TwOk s.tw) : TwOk (applyLate s c).tw := by
  unfold applyLate
  dsimp only
  split
  · exact regWrite_twOk hb
  split
  · exact twResets_twOk hb
  split
  · exact setLastWr_twOk (by decide) (acceptCmd_twOk hb)
  split
  · exact bufWriteRun_twOk hb
  · exact hb

end Sys2Proof.Proofs.BusWrites

/-! Every command answers a next state; it keeps the queue, the bounds of the counter and those of the two-wire side. -/

namespace Sys2Proof.Proofs.Steps

open Sys2Proof Sys2Proof.Machine Sys2Proof.Safety Sys2Proof.Laws
open Sys2Proof.Proofs.Queue Sys2Proof.Proofs.Bus Sys2Proof.Proofs.BusWrites Sys2Proof.Proofs.Counter

/-- What every command keeps: the queue as it is, the counter's bounds and those of the two-wire side. -/
structure Kept (s t : State) : Prop where
  pending : t.pending = s.pending
  counter : FnOk s → FnOk t
  bus : TwOk s.tw → TwOk t.tw

/-- A command's answer is a next state, which keeps what every command keeps. -/
def Keeps (s : State) (r : Res) : Prop := ∃ t, r = .next t ∧ Kept s t

theorem Kept.keeps {s t : State} (h : Kept s t) : Keeps s (.next t) := ⟨t, rfl, h⟩

theorem Kept.refl (s : State) : Kept s s := ⟨rfl, id, id⟩

theorem Kept.trans {s t u : State} (h : Kept s t) (k : Kept t u) : Kept s u :=
  ⟨k.pending.trans h.pending, k.counter ∘ h.counter, k.bus ∘ h.bus⟩

/-- An operation that leaves the counter alone. -/
theorem Kept.quiet {s t : State} (hp : t.pending = s.pending)
    (hf : t.fr.fn = s.fr.fn ∧ t.fr.next = s.fr.next ∧ t.fr.running = s.fr.running)
    (hb : TwOk s.tw → TwOk t.tw) : Kept s t := ⟨hp, (Stays.of_eq hf).fnOk, hb⟩

theorem atT_kept (s : State) (t : Frac) : Kept s (atT s t) := .quiet (by simp) (by simp) (fun hb => by simp [hb])

theorem atBoundary_kept {s : State} {f : State → State} (h : ∀ s, Kept s (f s)) : Kept s (atBoundary s f) := by
  unfold atBoundary
  split
  · exact h s
  · exact .refl s

theorem inOrder_kept {s : State} {src : Owner} {off g : Nat} {ok : Bool} {f : State → State} (h : ∀ s, Kept s (f s)) :
    Kept s (inOrder s src off g ok f) := by
  have hn : Kept s (noteWrite s src off g).1 := .quiet (by simp) (by simp) (fun hb => by simp [hb])
  unfold inOrder
  dsimp only
  (repeat' split)
  · exact h s
  · exact hn.trans (h _)
  · exact hn

/-- A register write keeps what its effect keeps. -/
theorem directWrite_kept {s : State} {src : Owner} {off g : Nat} {f : State → State} {ok : Bool}
    (h : ∀ s, Kept s (f s)) : Kept s (directWrite s src off g f ok) := by
  unfold directWrite
  (repeat' split)
  · exact .quiet (by simp) (by simp) (fun hb => by simp [hb])
  · exact .quiet (by simp) (by simp) (fun hb => by simp [hb])
  · exact inOrder_kept h

theorem openSlot_kept (s : State) (op : Nat) (c : Cmd) : Kept s (openSlot s op c).1 := by
  refine .quiet (by simp) (by simp) fun hb => ?_
  unfold openSlot
  dsimp only
  split
  · exact ⟨hb.queue, hb.lastWr, hb.buf⟩
  · exact hb

/-- A Hepex command keeps what its own meaning keeps: its checks do no more than complete it. -/
theorem runCmd_keeps {s : State} {t : Frac} {op : Nat} {c : Cmd} {gs : List Nat} {use : PwUse} {ok : Bool}
    {k : State → Nat → State} (h : ok = true → ∀ s n, Kept s (k s n)) : Keeps s (runCmd s t op c gs use ok k) := by
  refine ((atT_kept s t).trans ?_).keeps
  have ho := openSlot_kept (atT s t) op c
  split
  · exact .refl _
  split
  · exact ho.trans (.quiet (by simp) (by simp) (fun hb => by simp [hb]))
  split
  · exact ho.trans (.quiet (by simp) (by simp) fun hb => finish_twOk (ownerRefuse_twOk hb))
  split
  · exact ho.trans (.quiet (by simp) (by simp) (fun hb => by simp [hb]))
  · rename_i hk
    simp only [Bool.not_eq_true, Bool.not_eq_false', Bool.and_eq_true] at hk
    exact ho.trans (h hk.2 _ _)


/-! ### Operations that do more than leave the counter alone -/

theorem startReset_kept (s : State) (scope src : Nat) : Kept s (startReset s scope src) :=
  ⟨by simp, startReset_fnOk scope src, fun hb => startReset_twOk hb⟩

theorem resume_kept (s : State) : Kept s (resume beginAfter s) := by
  refine ⟨by simp, resume_fnOk (fun _ a h => beginAfter_fnOk a h), fun hb => ?_⟩
  unfold resume
  (repeat' split) <;> simp [hb]

theorem thenDo_kept {f : State → AfterDone → State} (h : ∀ s a, Kept s (f s a)) (s : State) (n : Nat) (a : AfterDone) :
    Kept s (thenDo f s n a) := by
  unfold thenDo
  split
  · exact .quiet rfl (by simp) id
  · exact h s a

theorem beginAfter_kept (s : State) (a : AfterDone) : Kept s (beginAfter s a) :=
  ⟨by simp, beginAfter_fnOk a, fun hb => beginAfter_twOk hb⟩

theorem enterState_kept (s : State) (a : AfterDone) : Kept s (enterState s a) :=
  .quiet (by simp) (by simp) (fun hb => by simp [hb])

theorem finish_kept (s : State) (n st r : Nat) : Kept s (finish s n st r) :=
  .quiet (by simp) (by simp) (fun hb => by simp [hb])

theorem wakeArrives_kept (s : State) (src awc : Nat) : Kept s (wakeArrives s src awc) :=
  ⟨by simp, wakeArrives_fnOk src awc, fun hb => wakeArrives_twOk hb⟩

theorem rtcAdvance_kept (s : State) (t : Frac) (cycles : Nat) : Kept s (rtcAdvance (atT s t) cycles) :=
  .quiet (by simp) (by simp) (fun hb => by simp [hb])

theorem each_kept {α : Type} {l : List α} {s : State} {f : State → α → State} (h : ∀ s a, Kept s (f s a)) :
    Kept s (each l s f) :=
  each_invariant (I := Kept s) (fun t a ht => ht.trans (h t a)) l s (.refl s)

theorem beginFrame_kept (s : State) : Kept s (beginFrame s) :=
  ⟨by simp, fun h => beginFrame_fnOk h.2.1, fun hb => by simp [hb]⟩

theorem emit_kept (s : State) (code unit : Nat) (p : BitVec 128) : Kept s (emit s code unit p) :=
  .quiet (by simp) (by simp) (fun hb => by simp [hb])

theorem holdEvent_kept (s : State) (code unit : Nat) (p : BitVec 128) : Kept s (holdEvent s code unit p) :=
  .quiet (by simp) (by simp) (fun hb => by simp [hb])

theorem heldOrPut_kept (s : State) (code : Nat) (p : BitVec 128) : Kept s (heldOrPut s code p) := by
  unfold heldOrPut
  split
  · exact emit_kept _ _ _ _
  · exact holdEvent_kept _ _ _ _

theorem abortAlways_kept (s : State) : Kept s (abortAlways s) :=
  .quiet (by simp) (by simp) (fun hb => by simp [hb])

theorem Kept.same {s t : State} (hp : t.pending = s.pending) (hf : t.fr = s.fr) (hw : t.tw = s.tw) : Kept s t :=
  .quiet hp (by rw [hf]; exact ⟨rfl, rfl, rfl⟩) (fun hb => hw ▸ hb)

theorem windowWrite_kept {s : State} {src : Owner} {off : Nat} {gs : List Nat} {f : State → State}
    (h : ∀ s, Kept s (f s)) : Kept s (windowWrite s src off gs f) := by
  unfold windowWrite
  dsimp only
  split
  · exact .quiet (by simp) (by simp) (fun hb => by simp [hb])
  split
  · exact .quiet (by simp) (by simp) (fun hb => ownerRefuse_twOk hb)
  · exact h s

theorem hlOnly_kept {s : State} {src : Owner} {f : State → State} (h : ∀ s, Kept s (f s)) :
    Kept s (hlOnly s src f) := by
  unfold hlOnly
  (repeat' split)
  · exact .quiet (by simp) (by simp) (fun hb => by simp [hb])
  · exact h s
  · exact .quiet (by simp) (by simp) (fun hb => by simp [hb])
  · exact .quiet (by simp) (by simp) (fun hb => setLastWr_twOk (by decide) hb)
  · exact .refl s

theorem stopStrobes_kept (s : State) : Kept s (stopStrobes s) :=
  ⟨by simp, (stopStrobes_stays s).fnOk, fun hb => by simp [hb]⟩

theorem domainDown_kept (s : State) (cause d : Nat) : Kept s (domainDown s cause d) :=
  ⟨by simp, (domainDown_stays s cause d).fnOk, fun hb => by simp [hb]⟩

/-! ### The frame -/

theorem execFrameStrobe_keeps (x : StrobeIn) (s : State) : Keeps s (execFrameStrobe x s) := by
  refine ((atT_kept s 0).trans ?_).keeps
  split
  · exact .refl _
  · exact (beginFrame_kept _).trans (.quiet (by simp) (by simp) strobeBody_twOk)

theorem settledFrame_kept (s : State) : Kept s (if s.fr.marked then settleDeferral s else s) := by
  split
  · exact .quiet (by simp) (by simp) (fun hb => by simp [hb])
  · exact .refl s

theorem boundaries_kept (s : State) (x : DrainIn) :
    Kept s (if s.fr.marked then boundaryAlways s else boundary (readStopped s x.descs) x.maskLate x.damaged) := by
  split
  · exact .quiet (by simp) (by simp) (fun hb => by simp [hb])
  · have hr : Kept s (readStopped s x.descs) := .quiet (by simp) (by simp) (fun hb => by simp [hb])
    exact hr.trans ⟨by simp, boundary_fnOk _ _, fun hb => boundary_twOk hb⟩

theorem stopAtDrain_kept (s : State) : Kept s (stopAtDrain s) :=
  ⟨by simp, (stopAtDrain_stays s).fnOk, fun hb => by simp [hb]⟩

theorem framePacket_kept (s : State) (fn : Nat) (shown : Tbl Int) (bad : Bool) :
    Kept s (compareHeard (framePacket s fn shown bad)) := .quiet (by simp) (by simp) (fun hb => by simp [hb])

theorem frameReports_kept (s : State) (slack : Nat) (drained : Bool) :
    Kept s (frameReports (judgeSlack s slack drained)) := .quiet (by simp) (by simp) (fun hb => by simp [hb])

theorem execFrameDrain_keeps (t : Frac) (x : DrainIn) (s : State) : Keeps s (execFrameDrain t x s) := by
  refine ((atT_kept s t).trans ?_).keeps
  generalize atT s t = s
  split
  · exact .refl s
  · refine .trans ?_ (resume_kept _)
    refine .trans (.trans ?_ (stopAtDrain_kept _)) (framePacket_kept _ _ _ _)
    refine .trans (.trans ?_ (frameReports_kept _ _ _)) (boundaries_kept _ x)
    refine .trans ?_ (settledFrame_kept _)
    exact .quiet (by simp) (by simp) (fun hb => by simp [hb])

theorem movedItems_kept (s : State) (b : Bool) :
    Kept s (if b then s else moveItems (noteDeferred s (s.fr.fn - 1)) s.fr.fn (fun _ => true)) := by
  split
  · exact .refl s
  · exact .quiet (by simp) (by simp) (fun hb => by simp [hb])

theorem execAbortEnd_keeps (t : Frac) (x : EccIn) (s : State) : Keeps s (execAbortEnd t x s) := by
  refine (Kept.trans (t := eccCounts (atT s t) x) (.quiet (by simp) (by simp) fun hb => by simp [hb]) ?_).keeps
  generalize eccCounts (atT s t) x = s
  split
  · exact .refl s
  · refine .trans (.trans ?_ (framePacket_kept _ _ _ _)) (resume_kept _)
    refine .trans (.trans ?_ (frameReports_kept _ _ _)) (abortAlways_kept _)
    refine .trans (.trans ?_ (movedItems_kept _ _)) (emit_kept _ _ _ _)
    exact .quiet rfl ⟨rfl, rfl, rfl⟩ id

/-! ### Commands of the host -/

theorem execMixCommit_keeps (t : Frac) (c : Cmd) (d : Dma) (corrected : Nat) (s : State) :
    Keeps s (execMixCommit t c d corrected s) := by
  refine runCmd_keeps fun _ s n => ?_
  split
  · exact finish_kept s _ _ _
  · rename_i h _
    dsimp only
    generalize (if countOk h = true then 16 + 8 * leAt h 4 2 else 16) = len
    split
    · exact finish_kept s _ _ _
    split
    · exact finish_kept s _ _ _
    · rename_i b _
      have hc : Kept s (if headerStatus b = stOk then tableCorrected s corrected else s) := by
        split
        · exact .quiet (by simp) (by simp) (fun hb => by simp [hb])
        · exact .refl s
      refine hc.trans ?_
      generalize (if headerStatus b = stOk then tableCorrected s corrected else s) = s
      split
      · rename_i e he
        have hk := mixSubmit_error_keeps he
        exact .trans (.same (by simp only [hk]) (by simp only [hk]) (by simp only [hk])) (finish_kept _ _ _ _)
      · rename_i p hp
        have hk := mixSubmit_keeps hp
        exact .trans (.same (by simp only [hk]) (by simp only [hk]) (by simp only [hk])) (finish_kept _ _ _ _)

theorem longLoad_kept (s : State) (op slot : Nat) (c : Cmd) (d : Dma) (f : Bytes → LongOp) :
    Kept s (longLoad s op slot c d f) := .quiet (by simp) (by simp) (fun hb => by simp [hb])

theorem execFxLoad_keeps (t : Frac) (c : Cmd) (d : Dma) (s : State) : Keeps s (execFxLoad t c d s) := by
  unfold execFxLoad
  refine runCmd_keeps fun _ s n => ?_
  split
  · exact finish_kept s _ _ _
  · exact longLoad_kept s _ _ _ _ _

theorem stageMeet_kept (s : State) (o : Owner) (i : Item) (kind unit id ver : Nat) :
    Kept s (stageMeet s o i kind unit id ver) := .quiet (by simp) (by simp) (fun hb => by simp [hb])

theorem execFxClear_keeps (t : Frac) (c : Cmd) (s : State) : Keeps s (execFxClear t c s) := by
  unfold execFxClear
  refine runCmd_keeps fun _ s n => ?_
  dsimp only
  split
  · exact finish_kept s _ _ _
  · exact (stageMeet_kept s _ _ _ _ _ _).trans (finish_kept _ _ _ _)

theorem startLong_kept (s : State) (op slot : Nat) (k : LongOp) : Kept s (startLong s op slot k) :=
  .quiet (by simp) (by simp) (fun hb => by simp [hb])

theorem execFxTest_keeps (t : Frac) (c : Cmd) (s : State) : Keeps s (execFxTest t c s) := by
  unfold execFxTest
  refine runCmd_keeps fun _ s n => ?_
  dsimp only
  split
  · exact finish_kept s _ _ _
  · refine .trans ?_ (startLong_kept _ _ _ _)
    split
    · exact .quiet (by simp) (by simp) (fun hb => by simp [hb])
    · exact .quiet (by simp) (by simp) (fun hb => by simp [hb])

theorem execFxPcommit_keeps (t : Frac) (src : Owner) (v : Word) (s : State) : Keeps s (execFxPcommit t src v s) :=
  ((atT_kept s t).trans (windowWrite_kept fun s =>
    .quiet (by simp) (by simp) (fun hb => by simp [hb]))).keeps

theorem quietWrite_keeps {s : State} {t : Frac} {src : Owner} {off g : Nat} {f : State → State} {ok : Bool}
    (h : ∀ s, Kept s (f s)) : Keeps s (.next (directWrite (atT s t) src off g f ok)) :=
  ((atT_kept s t).trans (directWrite_kept h)).keeps

theorem execFxPdataAccess_keeps (t : Frac) (src : Owner) (w : Option Word) (s : State) :
    Keeps s (execFxPdataAccess t src w s) := by
  refine ((atT_kept s t).trans ?_).keeps
  generalize atT s t = s
  split
  · exact .quiet (by simp) (by simp) (fun hb => by simp [hb])
  · exact windowWrite_kept fun s => .quiet (by simp) (by simp) (fun hb => by simp [hb])

theorem execReset_keeps (t : Frac) (c : Cmd) (s : State) : Keeps s (execReset t c s) :=
  runCmd_keeps fun _ s _ => (finish_kept s _ _ _).trans (thenDo_kept beginAfter_kept _ _ _)

theorem mxHalf_keeps {t : Frac} {c : Cmd} {s : State} {op : Nat} {k : State → Nat → Nat → State}
    (h : ∀ s n m, Kept s (k s n m)) : Keeps s (mxHalf t c s op k) := by
  unfold mxHalf
  refine runCmd_keeps fun _ s n => ?_
  split
  · exact finish_kept s _ _ _
  · exact h s n _

theorem stage_kept (s : State) (o : Owner) (i : Item) : Kept s (stage s o i) :=
  .quiet (by simp) (by simp) (fun hb => by simp [hb])

theorem execMxHalfOut_keeps (t : Frac) (c : Cmd) (s : State) : Keeps s (execMxHalfOut t c s) := by
  refine mxHalf_keeps fun s n m => ?_
  dsimp only
  (repeat' split)
  · exact finish_kept s _ _ _
  · exact finish_kept s _ _ _
  · exact .quiet (by simp) (by simp) (fun hb => by simp [hb])
  · exact (stage_kept s _ _).trans (finish_kept _ _ _ _)

theorem execMxHalfIn_keeps (t : Frac) (c : Cmd) (s : State) : Keeps s (execMxHalfIn t c s) := by
  refine mxHalf_keeps fun s n m => ?_
  dsimp only
  split
  · exact finish_kept s _ _ _
  · exact (stage_kept s _ _).trans (finish_kept _ _ _ _)

theorem execMxHalfTest_keeps (t : Frac) (c : Cmd) (s : State) : Keeps s (execMxHalfTest t c s) := by
  refine mxHalf_keeps fun s n m => ?_
  split
  · exact finish_kept s _ _ _
  · exact startLong_kept s _ _ _

theorem execSceneSaveStore_keeps (t : Frac) (c : Cmd) (d : Dma) (s : State) : Keeps s (execSceneSaveStore t c d s) := by
  unfold execSceneSaveStore
  refine runCmd_keeps fun _ s n => ?_
  split
  · exact startLong_kept s _ _ _
  · exact startLong_kept s _ _ _

theorem captureTold_kept (s : State) : Kept s { s with hl := { s.hl with captureTold := false } } := .same rfl rfl rfl

theorem execSceneSaveCapture_keeps (t : Frac) (c : Cmd) (s : State) : Keeps s (execSceneSaveCapture t c s) := by
  unfold execSceneSaveCapture
  exact runCmd_keeps fun _ s n => (startLong_kept s _ _ _).trans (captureTold_kept _)

theorem execSceneRecall_keeps (t : Frac) (c : Cmd) (reads : List Correction) (s : State) :
    Keeps s (execSceneRecall t c reads s) := by
  unfold execSceneRecall
  refine runCmd_keeps fun _ s n => ?_
  dsimp only
  have hp : Kept s (if sceneOf s (fldN (pwN c 0) 6 0) = [] then s else pantryReads s reads) := by
    split
    · exact .refl s
    · exact .quiet (by simp) (by simp) (fun hb => by simp [hb])
  refine hp.trans ?_
  generalize sceneOf s (fldN (pwN c 0) 6 0) = b
  generalize (if b = [] then s else pantryReads s reads) = s
  split
  · exact finish_kept s _ _ _
  split
  · rename_i e he
    have hk := commitRecs_error_keeps he
    exact .trans (.same (by simp only [hk]) (by simp only [hk]) (by simp only [hk])) (finish_kept _ _ _ _)
  · rename_i p hp
    split
    · exact finish_kept s _ _ _
    split
    · exact finish_kept s _ _ _
    · have hk := commitRecs_ok_keeps hp
      exact .trans (.same (by simp only [hk]) (by simp only [hk]) (by simp only [hk])) (finish_kept _ _ _ _)

theorem execSceneDelete_keeps (t : Frac) (c : Cmd) (s : State) : Keeps s (execSceneDelete t c s) := by
  unfold execSceneDelete
  refine runCmd_keeps fun _ s n => ?_
  split
  · exact finish_kept s _ _ _
  · exact startLong_kept s _ _ _

theorem cmdWrite_kept {s : State} {c : Cmd} {i len : Nat} {b : Bytes} (h : addrOk c i len = true)
    (hl : b.length ≤ len) : Kept s (cmdWrite s c i b) :=
  .quiet (by simp) (by simp) (cmdWrite_addrOk_twOk h hl)

theorem execSceneRead_keeps (t : Frac) (c : Cmd) (reads : List Correction) (s : State) :
    Keeps s (execSceneRead t c reads s) := by
  unfold execSceneRead
  refine runCmd_keeps fun ha s n => ?_
  dsimp only
  have hp : Kept s (if sceneOf s (pwN c 0) = [] then s else pantryReads s reads) := by
    split
    · exact .refl s
    · exact .quiet (by simp) (by simp) (fun hb => by simp [hb])
  refine hp.trans ?_
  generalize sceneOf s (pwN c 0) = b
  generalize (if b = [] then s else pantryReads s reads) = s
  split
  · exact finish_kept s _ _ _
  split
  · exact finish_kept s _ _ _
  · exact (cmdWrite_kept ha (by omega)).trans (finish_kept _ _ _ _)

theorem execSvCertRead_keeps (t : Frac) (c : Cmd) (reads : List Correction) (s : State) :
    Keeps s (execSvCertRead t c reads s) := by
  refine runCmd_keeps fun ha s n => ?_
  split
  · exact finish_kept s _ _ _
  split
  · exact finish_kept s _ _ _
  · have hp : Kept s (pantryReads s reads) := .quiet (by simp) (by simp) (fun hb => by simp [hb])
    exact hp.trans ((cmdWrite_kept ha (by omega)).trans (finish_kept _ _ _ _))

theorem execSvAttest_keeps (t : Frac) (c : Cmd) (d : Dma) (s : State) : Keeps s (execSvAttest t c d s) := by
  refine runCmd_keeps fun ha s n => ?_
  simp only [Bool.and_eq_true] at ha
  split
  · exact finish_kept s _ _ _
  split
  · exact finish_kept s _ _ _
  split
  · exact finish_kept s _ _ _
  · rename_i hn _ ch hc
    have hd : Kept s (signDik s (attestBody s ch)).2 := .quiet (by simp) (by simp) (fun hb => by simp [hb])
    have hl := attestBody_length s (cmdData_length hc)
    refine hd.trans ((cmdWrite_kept ha.2 ?_).trans (finish_kept _ _ _ _))
    simp only [List.length_append, signDik, signWith_length]
    omega

theorem execPdDomain_keeps (t : Frac) (c : Cmd) (s : State) : Keeps s (execPdDomain t c s) := by
  refine runCmd_keeps fun _ s n => ?_
  dsimp only
  split
  · exact finish_kept s _ _ _
  split
  · exact stage_kept s _ _
  · exact ⟨by simp, (applyDomain_stays _ _ _ _).fnOk, fun hb => by simp [hb]⟩

theorem pdState_keeps (t : Frac) (c : Cmd) (s : State) (code : Nat) (m : ModState) : Keeps s (pdState t c s code m) := by
  refine runCmd_keeps fun _ s n => ?_
  split
  · exact finish_kept s _ _ _
  · exact (finish_kept s _ _ _).trans (thenDo_kept enterState_kept _ _ _)

theorem execSvFwActivate_keeps (t : Frac) (c : Cmd) (s : State) : Keeps s (execSvFwActivate t c s) := by
  refine runCmd_keeps fun _ s n => ?_
  dsimp only
  split
  · exact finish_kept s _ _ _
  · refine (finish_kept s n stOk (bindTo s)).trans ?_
    generalize finish s n stOk (bindTo s) = s
    split
    · exact stage_kept s _ _
    · exact ⟨by simp, applyFwActivate_fnOk, applyFwActivate_twOk⟩

theorem plControl_keeps (t : Frac) (c : Cmd) (s : State) (op : Nat) (ok : State → Bool) :
    Keeps s (plControl t c s op ok) := by
  refine runCmd_keeps fun _ s n => ?_
  dsimp only
  split
  · exact finish_kept s _ _ _
  · refine .trans ?_ (finish_kept _ _ _ _)
    (repeat' split) <;> exact .quiet (by simp) (by simp) (fun hb => by simp [hb])

theorem execSpEnvClear_keeps (t : Frac) (c : Cmd) (s : State) : Keeps s (execSpEnvClear t c s) := by
  unfold execSpEnvClear
  refine runCmd_keeps fun _ s n => ?_
  dsimp only
  split
  · exact finish_kept s _ _ _
  · exact (stageMeet_kept s _ _ _ _ _ _).trans (finish_kept _ _ _ _)

theorem stageG_kept (s : State) (o : Owner) (g : Nat) (i : Item) : Kept s (stageG s o g i) :=
  .quiet (by simp) (by simp) (fun hb => by simp [hb])

theorem execSetFrameRate_keeps (t : Frac) (c : Cmd) (s : State) : Keeps s (execSetFrameRate t c s) := by
  unfold execSetFrameRate
  refine runCmd_keeps fun _ s n => ?_
  dsimp only
  (repeat' split)
  · exact finish_kept s _ _ _
  · exact finish_kept s _ _ _
  · exact .quiet (by simp) (by simp) (fun hb => by simp [hb])
  · exact finish_kept s _ _ _
  · exact (startLong_kept s _ _ _).trans (stageG_kept _ _ _ _)

theorem calStart_kept (s : State) (k e : Nat) (x : Conv) : Kept s (entryMux (setConv s k x) k e) :=
  .quiet (by simp) (by simp) (fun hb => by simp [hb])

theorem scCal_keeps (t : Frac) (c : Cmd) (s : State) (step : Nat) : Keeps s (scCal t c s step) := by
  unfold scCal
  refine runCmd_keeps fun _ s n => ?_
  dsimp only
  (repeat' split)
  · exact finish_kept s _ _ _
  · exact startLong_kept s _ _ _
  · exact finish_kept s _ _ _
  · exact finish_kept s _ _ _
  · exact finish_kept s _ _ _
  · exact finish_kept s _ _ _
  · exact (calStart_kept s _ _ _).trans (startLong_kept _ _ _ _)

theorem setGrp_kept (s : State) (g : Nat) (x : Machine.Group) : Kept s (setGrp s g x) := .same rfl rfl rfl

theorem execGroupStart_keeps (t : Frac) (c : Cmd) (s : State) : Keeps s (execGroupStart t c s) := by
  unfold execGroupStart
  refine runCmd_keeps fun _ s n => ?_
  dsimp only
  split
  · exact finish_kept s _ _ _
  · exact (setGrp_kept s _ _).trans ((stage_kept _ _ _).trans (finish_kept _ _ _ _))
theorem barWrite32_kept (s : State) (src : Owner) (env : WriteIn) (off : Nat) (v : Word) :
    Kept s (barWrite32 s src env off v) :=
  ⟨by simp, barWrite32_fnOk src env off v, barWrite32_twOk⟩

/-! ### Register writes and the link -/

theorem execRegisterWrite_keeps (t : Frac) (src : Owner) (w : BarWrite) (s : State) :
    Keeps s (execRegisterWrite t src w s) := by
  refine ((atT_kept s t).trans ?_).keeps
  split
  · exact .quiet (by simp) (by simp) barRead_twOk
  · exact .trans (.quiet (by simp) (by simp) fun hb => by simpa using hb) (each_kept fun s p => barWrite32_kept s _ _ _ _)

theorem execCommandDoorbell_keeps (t : Frac) (full : Bool) (v : Word) (cycles : Nat) (s : State) :
    Keeps s (execCommandDoorbell t full v cycles s) :=
  ((atT_kept s t).trans ⟨by simp, ringDoorbell_fnOk full v cycles, ringDoorbell_twOk⟩).keeps

theorem execRingCfgWrite_keeps (t : Frac) (src : Owner) (r : Fin 3) (v : Word) (s : State) :
    Keeps s (execRingCfgWrite t src r v s) :=
  ((atT_kept s t).trans (hlOnly_kept fun s => .quiet (by simp) (by simp) (fun hb => by simp [hb]))).keeps

theorem execRingBaseWrite_keeps (t : Frac) (src : Owner) (r : Fin 3) (hi : Bool) (v : Word) (s : State) :
    Keeps s (execRingBaseWrite t src r hi v s) :=
  ((atT_kept s t).trans (hlOnly_kept fun s => .quiet (by simp) (by simp) (fun hb => by simp [hb]))).keeps

theorem execLinkChanged_keeps (t : Frac) (x : LinkIn) (what : Fin 4) (s : State) :
    Keeps s (execLinkChanged t x what s) :=
  (Kept.trans (.quiet (by simp) (by simp) fun hb => linkChanges_twOk (by simp [hb])) (resume_kept _)).keeps

theorem execScanStop_keeps (t : Frac) (src : Option Owner) (k : Fin 2) (s : State) :
    Keeps s (execScanStop t src k s) := by
  refine ((atT_kept s t).trans ?_).keeps
  split
  · exact directWrite_kept fun s => .quiet (by simp) (by simp) (fun hb => by simp [hb])
  · exact .quiet (by simp) (by simp) convStop_twOk

theorem execRtcSet_keeps (t : Frac) (src : Owner) (v : Word) (cycles : Nat) (s : State) :
    Keeps s (execRtcSet t src v cycles s) :=
  ((rtcAdvance_kept s t cycles).trans (directWrite_kept fun s =>
    .quiet (by simp) (by simp) (fun hb => by simp [hb]))).keeps

theorem execRetDataAccess_keeps (t : Frac) (src : Owner) (w : Option Word) (bad : Bool) (s : State) :
    Keeps s (execRetDataAccess t src w bad s) := by
  refine ((atT_kept s t).trans ?_).keeps
  split
  · refine directWrite_kept fun s => ?_
    exact .quiet (by simp) (by simp) (fun hb => by simpa using hb)
  · dsimp only
    have hr : ∀ s v, Kept s (reading (retNext s) v) := fun s v =>
      .quiet (by simp) (by simp) (fun hb => by simp [hb])
    split
    · exact (hr _ _).trans (emit_kept _ _ _ _)
    · exact hr _ _

theorem execSpRegisterWrite_keeps (t : Frac) (src : Owner) (c : Fin 12) (off : Fin 64) (v : Word) (s : State) :
    Keeps s (execSpRegisterWrite t src c off v s) := by
  refine ((atT_kept s t).trans (atBoundary_kept fun s => ?_)).keeps
  split
  · exact .quiet (by simp) (by simp) (fun hb => by simp [hb])
  · exact .refl s

/-! ### Power and faults -/

theorem muteCh_kept (cause : Nat) (s : State) (c : Nat) : Kept s (muteCh cause s c) :=
  .quiet (by simp) (by simp) (fun hb => by simp [hb])

theorem execSupplyMute_keeps (t : Frac) (d : PowerDie) (cause : SupplyCause) (v : BitVec 16) (s : State) :
    Keeps s (execSupplyMute t d cause v s) := by
  refine ((atT_kept s t).trans ?_).keeps
  split
  · exact .refl _
  · refine .trans ?_ (each_kept fun s c => muteCh_kept _ s c)
    refine .trans ?_ (emit_kept _ _ _ _)
    exact .same (by simp) (by simp) (by simp)

theorem execTempShutdown_keeps (t : Frac) (d : PowerDie) (temp : BitVec 16) (s : State) :
    Keeps s (execTempShutdown t d temp s) := by
  refine ((atT_kept s t).trans ?_).keeps
  split
  · exact .refl _
  · refine .trans ?_ (each_kept fun s c => muteCh_kept _ s c)
    refine .trans ?_ (emit_kept _ _ _ _)
    exact .same (by simp) (by simp) (by simp)

theorem execIdleWakeRun_keeps (t : Frac) (d : PowerDie) (s : State) : Keeps s (execIdleWakeRun t d s) := by
  refine ((atT_kept s t).trans (each_kept fun s c => ?_)).keeps
  dsimp only
  split
  · exact .quiet (by simp) (by simp) (fun hb => by simp [hb])
  · exact .refl s

/-! ### Clocks -/

theorem execFrameRateApplied_keeps (us : Word) (x : StrobeIn) (s : State) : Keeps s (execFrameRateApplied us x s) := by
  refine ((atT_kept s 0).trans ?_).keeps
  generalize atT s 0 = s
  split
  · exact .refl s
  · split
    · exact .refl s
    · have hq : ∀ s : State, ∀ g h : Nat, Kept s (strobeBody (rateApplied (beginFrame s) g h) x) := fun s g h =>
        (beginFrame_kept s).trans (.quiet (by simp) (by simp) (fun hb => strobeBody_twOk (rateApplied_twOk hb)))
      have he : ∀ (c : Bool) (s : State), Kept s (if c then endLong s us stOk 0 else s) := by
        intro c s
        split
        · exact .quiet (by simp) (by simp) endLong_twOk
        · exact .refl s
      refine .trans (.trans ?_ (hq _ _ _)) (he _ _)
      exact .same rfl rfl rfl

theorem execPllLocked_keeps (t : Frac) (j : Fin 4) (band : Fin 64) (cached : Bool) (us : BitVec 16) (s : State) :
    Keeps s (execPllLocked t j band cached us s) :=
  (Kept.trans (.quiet (by simp) (by simp) fun hb => pllLocks_twOk (by simp [hb])) (resume_kept _)).keeps

theorem execStrobeRestart_keeps (t : Frac) (phase : Bool) (s : State) : Keeps s (execStrobeRestart t phase s) := by
  refine ((atT_kept s t).trans ?_).keeps
  split
  · exact .refl _
  · exact .trans (.quiet (by simp) (by simp) fun hb => strobeRestart_twOk (pllLost_twOk hb)) (stopStrobes_kept _)

theorem execXtalFail_keeps (t : Frac) (s : State) : Keeps s (execXtalFail t s) := by
  refine ((atT_kept s t).trans ?_).keeps
  generalize atT s t = s
  split
  · exact .refl s
  · have h1 : Kept s (xtalLost { s with ck := { s.ck with xtalFails := inc16 s.ck.xtalFails, stopFn := s.fr.fn } } 2) :=
      .quiet (by simp) (by simp) (fun hb => xtalLost_twOk hb)
    refine (h1.trans (stopStrobes_kept _)).trans ?_
    exact .quiet (by simp) (by simp) (fun hb => setLanes_twOk (clockMute_twOk (by simpa using hb)))

/-! ### Streams and the two-wire bus -/

theorem ctxRun_kept (s : State) (k fn cause : Nat) : Kept s (ctxRun s k fn cause) :=
  .quiet (by simp) (by simp) (fun hb => by simp [hb])

theorem groupEvent_kept (s : State) (g : Nat) (old new : GroupState) (cause start : Nat) :
    Kept s (groupEvent s g old new cause start) := .quiet (by simp) (by simp) (fun hb => by simp [hb])

theorem startSample_kept (s : State) (e : Nat × Int) : Kept s (startSample s e) :=
  .quiet (by simp) (by simp) (fun hb => by simpa using hb)

theorem playStrobe_kept (s : State) (k : Nat) (lost : Bool) : Kept s (playStrobe s k lost) :=
  .quiet (by simp) (by simp) (fun hb => by simp [hb])

theorem execGroupStartFrame_keeps (t : Frac) (g : Fin 32) (lost : List (Fin 256)) (s : State) :
    Keeps s (execGroupStartFrame t g lost s) := by
  refine ((atT_kept s t).trans ?_).keeps
  split
  · exact .refl _
  · refine .trans ?_ (each_kept fun s e => startSample_kept s e)
    refine .trans ?_ (each_kept fun s k => playStrobe_kept s k _)
    refine .trans (.trans ?_ (setGrp_kept _ _ _)) (groupEvent_kept _ _ _ _ _ _)
    exact each_kept fun s k => ctxRun_kept s k _ _
theorem writeCode_kept {s : State} {x : TwTx} {k : State → State} (hp : ∀ s, (k s).pending = s.pending)
    (hf : ∀ s, FnOk s → FnOk (k s)) (hb : ∀ s, TwOk s.tw → TwOk (k s).tw) : Kept s (writeCode s x k) :=
  ⟨writeCode_pending hp s x, writeCode_fnOk hf x, writeCode_twOk hb⟩

theorem execTwRegWrite_keeps (t : Frac) (x : TwTx) (w : WriteIn) (s : State) : Keeps s (execTwRegWrite t x w s) := by
  have hq : ∀ s d, FnOk s → FnOk (regWrite s w d) := fun s d => Stays.fnOk (.of_eq (by simp))
  exact ((atT_kept s t).trans (writeCode_kept (fun s => by simp) (fun s => wakingWrite_fnOk hq _ x _)
    (fun s => wakingWrite_twOk fun s d => regWrite_twOk))).keeps

theorem acceptedCmd_fnOk {s : State} {d : Bytes} (h : FnOk s) : FnOk (setLastWr (acceptCmd s d) 0) :=
  Stays.fnOk (.of_eq (by simp)) h

theorem acceptedCmd_twOk {s : State} {d : Bytes} (hb : TwOk s.tw) : TwOk (setLastWr (acceptCmd s d) 0).tw :=
  setLastWr_twOk (by decide) (acceptCmd_twOk hb)

theorem execTwCmd_keeps (t : Frac) (x : TwTx) (s : State) : Keeps s (execTwCmd t x s) := by
  refine ((atT_kept s t).trans ?_).keeps
  have hs : ∀ (b : Bool) (u : State), Kept u (if b then setLastWr u 5 else u) := by
    intro b u
    split
    · exact .quiet (by simp) (by simp) (setLastWr_twOk (by decide))
    · exact .refl u
  refine .trans (writeCode_kept (fun s => ?_) (fun s h => ?_) (fun s hb => ?_)) (hs _ _)
  · split <;> simp
  · split
    · exact Stays.fnOk (.of_eq (by simp)) h
    · exact wakingWrite_fnOk (fun _ _ => acceptedCmd_fnOk) _ x _ h
  · split
    · simpa using hb
    · exact wakingWrite_twOk (fun _ _ => acceptedCmd_twOk) hb

theorem execTwBufWrite_keeps (t : Frac) (x : TwTx) (s : State) : Keeps s (execTwBufWrite t x s) := by
  have hp : ∀ (s : State) (d : Bytes), (if 65536 < leAt d 0 2 + (d.length - 2) then setLastWr s 3
      else setLastWr { s with tw := { s.tw with buf := bufWrite s.tw.buf (leAt d 0 2) (d.drop 2) } } 0).pending
        = s.pending := by
    intro s d
    split <;> simp
  have hf : ∀ (s : State) (d : Bytes), FnOk s → FnOk (if 65536 < leAt d 0 2 + (d.length - 2) then setLastWr s 3
      else setLastWr { s with tw := { s.tw with buf := bufWrite s.tw.buf (leAt d 0 2) (d.drop 2) } } 0) := by
    intro s d h
    split <;> exact Stays.fnOk (.of_eq (by simp)) h
  exact ((atT_kept s t).trans (writeCode_kept (fun s => wakingWrite_pending hp s _ x _)
    (fun s => wakingWrite_fnOk hf _ x _) (fun s => wakingWrite_twOk fun s d => bufWriteRun_twOk))).keeps

theorem blockRead_kept {s : State} {code : Byte} {x : TwTx} {k : State → State × Bytes} (h : ∀ s, Kept s (k s).1) :
    Kept s (blockRead s code x k) := by
  unfold blockRead
  (repeat' split)
  · exact .quiet (by simp) (by simp) (fun hb => by simp [hb])
  · exact .quiet (by simp) (by simp) (fun hb => setLastWr_twOk (by decide) (by simpa using hb))
  · exact .quiet (by simp) (by simp) (fun hb => setLastWr_twOk (endedEarly_le _) hb)
  · exact (h s).trans (.quiet (by simp) (by simp) (fun hb => by simp [hb]))

theorem execTwCmdResult_keeps (t : Frac) (x : TwTx) (s : State) : Keeps s (execTwCmdResult t x s) := by
  refine ((atT_kept s t).trans (blockRead_kept fun s => ?_)).keeps
  exact .quiet (by simp) (by simp) (fun hb => followAttention_twOk (answered_twOk ⟨hb.queue, hb.lastWr, hb.buf⟩))

theorem execTwEventRead_keeps (t : Frac) (x : TwTx) (s : State) : Keeps s (execTwEventRead t x s) := by
  refine ((atT_kept s t).trans (blockRead_kept fun s => ?_)).keeps
  split
  · exact .quiet (by simp) (by simp) answered_twOk
  · rename_i e r hq
    refine .quiet (by simp) (by simp) fun hb => followAttention_twOk (twFlush_twOk (answered_twOk ?_))
    refine ⟨?_, hb.lastWr, hb.buf⟩
    have := hb.queue
    rw [hq, List.length_cons] at this
    exact Nat.le_of_succ_le this

theorem execTwStatusRead_keeps (t : Frac) (x : TwTx) (s : State) : Keeps s (execTwStatusRead t x s) :=
  ((atT_kept s t).trans (blockRead_kept fun _ => .quiet (by simp) (by simp) answered_twOk)).keeps

/-- What RESET over the bus does: kept for the wake in STANDBY, and begun else. -/
theorem busReset_kept (s : State) (d : Bytes) (cycles scope : Nat) :
    Kept s (if s.pd.st == .standby then standbyWakes (keepLate s 0x3F d) 3 cycles else twResets s scope) := by
  split
  · have hl : FnOk s → FnOk (keepLate s 0x3F d) := Stays.fnOk (.of_eq (by simp))
    exact ⟨by simp, fun h => standbyWakes_fnOk _ _ (hl h), fun hb => standbyWakes_twOk (keepLate_twOk hb)⟩
  · exact ⟨by simp, twResets_fnOk _, twResets_twOk⟩

theorem execTwReset_keeps (t : Frac) (x : TwTx) (s : State) : Keeps s (execTwReset t x s) := by
  refine ((atT_kept s t).trans (writeCode_kept (fun s => ?_) (fun s h => ?_) (fun s hb => ?_))).keeps
  · (repeat' split)
    · simp
    · simp
    · exact writeBody_pending (fun s d => (busReset_kept s d _ _).pending) s _ x _ _
  · (repeat' split)
    · exact endWrite_fnOk (fun _ => id) x _ h
    · exact endWrite_fnOk (fun _ => id) x _ (Stays.fnOk (.of_eq (by simp)) h)
    · exact writeBody_fnOk (fun s d => (busReset_kept s d _ _).counter) _ x _ _ h
  · (repeat' split)
    · exact endWrite_twOk (fun _ => id) (by decide) hb
    · exact endWrite_twOk (fun _ => id) (by decide) (by simpa using hb)
    · exact writeBody_twOk (fun s d => (busReset_kept s d _ _).bus) hb

theorem cutShort_kept (s : State) (inTx : Bool) : Kept s (if inTx then setLastWr s 6 else s) := by
  split
  · exact .quiet (by simp) (by simp) (setLastWr_twOk (by decide))
  · exact .refl s

theorem setFlag_kept (s : State) (n : Nat) : Kept s (setFlag s n) := .quiet (by simp) (by simp) setFlag_twOk

theorem execTwSclLow_keeps (t : Frac) (role : BusUse) (inTx : Bool) (s : State) :
    Keeps s (execTwSclLow t role inTx s) :=
  ((atT_kept s t).trans ((cutShort_kept _ _).trans ((setFlag_kept _ _).trans (emit_kept _ _ _ _)))).keeps

theorem execTwSdaLow_keeps (t : Frac) (own inTx : Bool) (s : State) : Keeps s (execTwSdaLow t own inTx s) :=
  ((atT_kept s t).trans ((cutShort_kept _ _).trans ((setFlag_kept _ _).trans (emit_kept _ _ _ _)))).keeps

/-! ### Domains, states and wakes -/

theorem execDomainPowerGood_keeps (t : Frac) (d : Fin 10) (failed : Word) (memBad : Bool) (x : StrobeIn) (s : State) :
    Keeps s (execDomainPowerGood t d failed memBad x s) := by
  have hd : ∀ s, Kept s (domainGood s d failed memBad x) := fun s =>
    ⟨by simp, domainGood_fnOk _ _ _ _, domainGood_twOk⟩
  exact ((atT_kept s t).trans ((hd _).trans (resume_kept _))).keeps

theorem execDomainFault_keeps (t : Frac) (d : Fin 10) (begun : BitVec 10) (s : State) :
    Keeps s (execDomainFault t d begun s) := by
  have hd : ∀ s n, Kept s (domainFails s d n) := fun s n => .quiet (by simp) (by simp) domainFails_twOk
  exact ((atT_kept s t).trans ((hd _ _).trans (resume_kept _))).keeps

theorem wakeStandby_kept (s : State) : Kept s (wakeStandby s) := .quiet (by simp) (by simp) (fun hb => by simp [hb])

theorem setMod_kept (s : State) (m : ModState) : Kept s (setMod s m) :=
  .quiet (by simp) (by simp) (fun hb => by simp [hb])

theorem domainChanged_kept (s : State) (d state cause : Nat) : Kept s (domainChanged s d state cause) :=
  .quiet (by simp) (by simp) (fun hb => by simp [hb])

theorem entry_kept (s : State) (e : Option Entry) : Kept s { s with pd := { s.pd with entry := e } } := .same rfl rfl rfl

theorem execStateEntryHalt_keeps (t : Frac) (s : State) : Keeps s (execStateEntryHalt t s) := by
  refine ((atT_kept s t).trans ?_).keeps
  generalize atT s t = s
  split
  · exact .refl s
  · split
    · exact .refl s
    · have hd : ∀ (l : List Nat) (s : State), Kept s (each l s (fun s d => domainDown s 2 d)) := fun l s =>
        each_kept fun s d => domainDown_kept s 2 d
      have hc : ∀ (l : List Nat) (s : State), Kept s (each l s (fun s d =>
          domainChanged { s with pd := { s.pd with on := s.pd.on - 2 ^ d } } d 3 2)) := by
        refine fun l s => each_kept fun s d => .trans ?_ (domainChanged_kept _ d 3 2)
        exact .same rfl rfl rfl
      have hw : ∀ s : State, Kept s (if s.pd.waking.isSome then wakeStandby s else s) := by
        intro s
        split
        · exact wakeStandby_kept s
        · exact .refl s
      rename_i e _ _
      by_cases ht : e.target = .sleep
      · simp only [ht, if_true]
        refine .trans (.trans (.trans ?_ (hd [8, 9, 5, 6, 4, 7] _)) (hd [2, 3] _)) (entry_kept _ _)
        exact .same rfl rfl rfl
      · simp only [ht, if_false]
        refine .trans (.trans (.trans (.trans (.trans ?_ (hd [8, 9, 5, 6, 4, 7] _)) (hc _ _)) (entry_kept _ _)) (setMod_kept _ _))
          (hw _)
        exact .same rfl rfl rfl

theorem execSleepPowerDown_keeps (t : Frac) (s : State) : Keeps s (execSleepPowerDown t s) := by
  refine ((atT_kept s t).trans ?_).keeps
  generalize atT s t = s
  split
  · exact .refl s
  · split
    · exact .refl s
    · have h : Kept s (setMod { s with pd := { s.pd with entry := none } } .sleep) :=
        .quiet (by simp) (by simp) (fun hb => by simp [hb])
      refine h.trans ?_
      generalize setMod { s with pd := { s.pd with entry := none } } .sleep = s
      dsimp only
      split
      · exact ⟨by simp, fun _ => wakeSleep_fnOk _ _ _, fun _ => wakeSleep_twOk _ _ _⟩
      · exact .quiet rfl ⟨rfl, rfl, rfl⟩ fun hb => ⟨by simp, hb.lastWr, hb.buf⟩

theorem execTwWakeMatch_keeps (t : Frac) (addr : BitVec 7) (cycles : Nat) (s : State) :
    Keeps s (execTwWakeMatch t addr cycles s) := by
  refine ((rtcAdvance_kept s t cycles).trans ?_).keeps
  split
  · exact .trans (.quiet (by simp) (by simp) fun hb => by simpa using hb) (wakeArrives_kept _ _ _)
  · exact .refl _

theorem execTwWakeKnock_keeps (t : Frac) (edges : Nat) (low : Bool) (cycles : Nat) (s : State) :
    Keeps s (execTwWakeKnock t edges low cycles s) := by
  refine ((rtcAdvance_kept s t cycles).trans ?_).keeps
  split
  · exact wakeArrives_kept _ _ _
  · exact .refl _

theorem execWakeSource_keeps (t : Frac) (src : Fin 10) (awc : Fin 8) (gaps : List (BitVec 16)) (cycles : Nat)
    (s : State) : Keeps s (execWakeSource t src awc gaps cycles s) := by
  refine ((rtcAdvance_kept s t cycles).trans ?_).keeps
  split
  · exact wakeArrives_kept _ _ _
  · exact .refl _

theorem execStandbyWakeStrobe_keeps (cycles : Nat) (x : StrobeIn) (s : State) :
    Keeps s (execStandbyWakeStrobe cycles x s) := by
  have hs : Kept s (standbyStrobe (rtcAdvance (atT s 0) cycles) x) :=
    (rtcAdvance_kept s 0 cycles).trans ⟨by simp, standbyStrobe_fnOk x, standbyStrobe_twOk⟩
  refine (hs.trans ?_).keeps
  split
  · refine .trans ?_ (each_kept fun s c => ⟨by simp, applyLate_fnOk c, applyLate_twOk⟩)
    exact .quiet rfl ⟨rfl, rfl, rfl⟩ fun hb => ⟨hb.queue, hb.lastWr, hb.buf⟩
  · exact .refl _

theorem execRtcAlarm_keeps (t : Frac) (cycles : Nat) (s : State) : Keeps s (execRtcAlarm t cycles s) := by
  refine ((rtcAdvance_kept s t cycles).trans ?_).keeps
  split
  · exact .refl _
  · refine .trans (.trans ?_ (emit_kept _ _ _ _)) (wakeArrives_kept _ _ _)
    exact .same rfl rfl rfl

theorem execAwcChanged_keeps (t : Frac) (i : Fin 8) (ball vaon : BitVec 16) (cycles : Nat) (s : State) :
    Keeps s (execAwcChanged t i ball vaon cycles s) := by
  refine ((rtcAdvance_kept s t cycles).trans ?_).keeps
  have hw : ∀ (b : Bool) (s : State), Kept s (if b then wakeArrives s 5 i else s) := by
    intro b s
    split
    · exact wakeArrives_kept _ _ _
    · exact .refl s
  have he : ∀ (b : Bool) (s : State) p, Kept s (if b then emit s 0x0D05 i p else s) := by
    intro b s p
    split
    · exact emit_kept _ _ _ _
    · exact .refl s
  split
  · exact .refl _
  · refine .trans (.trans ?_ (he _ _ _)) (hw _ _)
    exact .same (by simp) (by simp) (by simp)

/-! ### Resets -/

theorem execPowerOnReset_keeps (t : Frac) (s : State) : Keeps s (execPowerOnReset t s) :=
  Kept.keeps ⟨rfl, fun _ => resetCounter_fnOk ⟨rfl, rfl, rfl⟩, fun _ => reset_twOk⟩

theorem execSupplyMonitorReset_keeps (t : Frac) (r : Rail) (s : State) : Keeps s (execSupplyMonitorReset t r s) := by
  have hr : ∀ s : State, Kept s (if s.pd.st == .sleep then s else startReset s 0 2) := by
    intro s
    split
    · exact .refl s
    · exact startReset_kept _ _ _
  refine ((atT_kept s t).trans (.trans ?_ (hr _))).keeps
  cases r <;> exact .same rfl rfl rfl

theorem execRstNAssert_keeps (t : Frac) (s : State) : Keeps s (execRstNAssert t s) := by
  refine ((atT_kept s t).trans ?_).keeps
  split
  · exact .refl _
  · exact startReset_kept _ _ _

theorem execPerstAssert_keeps (t : Frac) (s : State) : Keeps s (execPerstAssert t s) := by
  refine ((atT_kept s t).trans ?_).keeps
  split
  · exact .refl _
  · refine (startReset_kept _ (perstScope (atT s t)) 4).trans ?_
    exact .same rfl rfl rfl

theorem execPerstRelease_keeps (t : Frac) (cycles : Nat) (s : State) : Keeps s (execPerstRelease t cycles s) := by
  refine ((rtcAdvance_kept s t cycles).trans (.trans ?_ (wakeArrives_kept _ _ _))).keeps
  exact .quiet (by simp) (by simp) (fun hb => by simpa using hb)

theorem escalated_kept (s : State) : Kept s { s with ct := { s.ct with wdtEsc := inc8 s.ct.wdtEsc } } := .same rfl rfl rfl

theorem execWatchdogReset_keeps (t : Frac) (cycles : Nat) (s : State) : Keeps s (execWatchdogReset t cycles s) := by
  refine ((rtcAdvance_kept s t cycles).trans ?_).keeps
  generalize rtcAdvance (atT s t) cycles = s
  split
  · refine .trans ?_ (startReset_kept _ _ _)
    exact .quiet (by simp) (by simp) (fun hb => by simpa using hb)
  split
  · refine .trans (.trans (.trans ?_ (startReset_kept _ _ _)) (escalated_kept _)) (holdEvent_kept _ _ _ _)
    exact .same rfl rfl rfl
  · refine .trans ?_ (startReset_kept _ _ _)
    exact .same rfl rfl rfl

theorem execCriticalError_keeps (t : Frac) (region : Fin 6) (word : BitVec 16) (s : State) :
    Keeps s (execCriticalError t region word s) := by
  refine ((atT_kept s t).trans ?_).keeps
  split
  · exact .refl _
  · refine .trans (.trans ?_ (startReset_kept _ _ _)) (heldOrPut_kept _ _ _)
    exact .same rfl rfl rfl

theorem execPeerResetRequest_keeps (t : Frac) (scope : BitVec 2) (s : State) :
    Keeps s (execPeerResetRequest t scope s) := by
  refine ((atT_kept s t).trans ?_).keeps
  split
  · refine .trans ?_ (startReset_kept _ _ _)
    exact .quiet (by simp) (by simp) peerResetEvent_twOk
  · exact .quiet (by simp) (by simp) fun hb => peerResetEvent_twOk (ownerRefuse_twOk hb)

/-! ### Bring-up -/

theorem execBringupCtrlUp_keeps (t : Frac) (complete : Bool) (s : State) : Keeps s (execBringupCtrlUp t complete s) := by
  refine ((atT_kept s t).trans ?_).keeps
  generalize atT s t = s
  split
  · exact .refl s
  · exact .quiet (by simp) (by simp) fun hb => twWakeEvent_twOk (recoverCommit_twOk (by simp [hb]))

theorem enterRecovery_kept (s : State) (cause : Nat) : Kept s (enterRecovery s cause) :=
  .quiet (by simp) (by simp) (fun hb => by simp [hb])

theorem execBringupLarderDone_keeps (t : Frac) (x : LarderIn) (s : State) : Keeps s (execBringupLarderDone t x s) := by
  refine ((atT_kept s t).trans ?_).keeps
  generalize atT s t = s
  split
  · exact .refl s
  · have h1 : Kept s (pantryReads (each x.lost s lineLost) x.reads) :=
      .quiet (by simp) (by simp) (fun hb => pantryReads_twOk (each_twOk (fun _ _ => lineLost_twOk) hb))
    have h2 := h1.trans (u := verifyFirmware (selfTest (pantryReads (each x.lost s lineLost) x.reads) x) x)
      (.quiet (by simp) (by simp) (fun hb => verifyFirmware_twOk (selfTest_twOk hb)))
    refine h2.trans ?_
    dsimp only
    generalize pantryReads (each x.lost s lineLost) x.reads = u
    generalize verifyFirmware (selfTest u x) x = s
    split
    · exact ⟨by simp, controlDone_fnOk _ _ _, controlDone_twOk⟩
    · have hf : Kept s (if mustFallBack u x then { s with sv := { s.sv with fell := 3 } } else s) := by
        split
        · exact .same rfl rfl rfl
        · exact .refl s
      refine hf.trans ?_
      generalize (if mustFallBack u x then { s with sv := { s.sv with fell := 3 } } else s) = s
      have hr : Kept s (restoreEnvelopes (restoreCal s)) :=
        .quiet (by simp) (by simp) (fun hb => restoreEnvelopes_twOk (by simpa using hb))
      refine hr.trans ?_
      generalize restoreEnvelopes (restoreCal s) = s
      have hy : Kept s { s with ps := { s.ps with ready := true } } := .same rfl rfl rfl
      split
      · exact hy.trans (enterRecovery_kept _ _)
      split
      · exact hy.trans (enterRecovery_kept _ _)
      · exact .same rfl rfl rfl

theorem execBringupClkUp_keeps (x : ClkUp) (s : State) : Keeps s (execBringupClkUp x s) := by
  refine ((atT_kept s 0).trans ?_).keeps
  generalize atT s 0 = s
  split
  · exact .refl s
  · refine .trans (t := { s with ct := { s.ct with phase := .host } }) (.same rfl rfl rfl) ?_
    generalize ({ s with ct := { s.ct with phase := .host } } : State) = s
    split
    · exact .quiet (by simp) (by simp) (fun hb => by simp [hb])
    · refine .trans ?_ (emit_kept _ _ _ _)
      exact .same rfl rfl rfl
    · rename_i x
      have hc : ∀ s, Kept s (clkUp s x) := fun s => ⟨by simp, fun _ => clkUp_fnOk s x, clkUp_twOk⟩
      refine .trans (.trans ?_ (hc _)) (domainChanged_kept _ _ _ _)
      exact .same rfl rfl rfl

theorem execBringupHostUp_keeps (t : Frac) (us : Word) (s : State) : Keeps s (execBringupHostUp t us s) := by
  refine ((atT_kept s t).trans ?_).keeps
  generalize atT s t = s
  split
  · split
    · exact .refl s
    · exact ⟨by simp, bringupDone_fnOk _ _, bringupDone_twOk⟩
  · split
    · split
      · exact .refl s
      · exact .quiet (by simp) (by simp) (fun hb => resetDone_twOk hb)
    · exact .refl s

theorem each_takeAnswer_kept (l : List (Word × BitVec 16 × BitVec 48)) (s : State) :
    Kept s (each l s takeAnswer) :=
  each_kept fun s a => .quiet (by simp) (by simp) (fun hb => by simp [hb])

theorem each_takeItem_kept (l : List PeerItem) (s : State) : Kept s (each l s takeItem) :=
  each_kept fun s i => .quiet (by simp) (by simp) (fun hb => by simp [hb])

theorem execPairPacket_keeps (t : Frac) (p : Packet) (s : State) : Keeps s (execPairPacket t p s) := by
  have ho : ∀ (c : Prop) [Decidable c] (s : State), Kept s (if c then { s with pl := { s.pl with ofs := p.ofs } } else s) := by
    intro c _ s
    split <;> exact .same rfl rfl rfl
  have hh : ∀ (c d : Bool) (s : State) (h : Heartbeat),
      Kept s (if c then takeHeartbeat s h else if d then losePeer s 2 else s) := by
    intro c d s h
    (repeat' split)
    · exact .quiet (by simp) (by simp) (fun hb => by simp [hb])
    · exact .quiet (by simp) (by simp) (fun hb => by simpa using hb)
    · exact .refl s
  have hi : ∀ (c : Prop) [Decidable c] (s : State), Kept s (if c then { s with pl := { s.pl with inp := p.inputs } } else s) := by
    intro c _ s
    split <;> exact .same rfl rfl rfl
  have hd : ∀ (s : State) (n : Nat), Kept s (dropAnswers (takeAck s n) p.items) := fun s n => .same rfl rfl rfl
  refine ((atT_kept s t).trans ?_).keeps
  split
  · exact .refl _
  split
  · exact .same rfl rfl rfl
  · refine .trans (.trans (.trans ?_ (each_takeAnswer_kept _ _)) (each_takeItem_kept _ _)) (hi _ _)
    refine .trans (.trans (.trans ?_ (hd _ _)) (ho _ _)) (hh _ _ _ _)
    exact .same rfl rfl rfl


/-! ### Commands in few cases -/

theorem execDelayUncorrectable_keeps (t : Frac) (e : Fin 16) (stage : Fin 32) (n : Nat) (s : State) :
    Keeps s (execDelayUncorrectable t e stage n s) := by
  refine Kept.keeps ?_
  dsimp only
  (repeat' split) <;> exact .quiet (by simp) (by simp) (fun hb => by simp [hb])

theorem execXpLookup_keeps (t : Frac) (src : Owner) (v : Word) (corrected : Nat) (s : State) :
    Keeps s (execXpLookup t src v corrected s) :=
  ((atT_kept s _).trans (directWrite_kept fun s => .quiet (by simp) (by simp) (fun hb => by simp [hb]))).keeps

theorem execSlackRearm_keeps (t : Frac) (src : Owner) (s : State) : Keeps s (execSlackRearm t src s) :=
  ((atT_kept s _).trans (directWrite_kept fun s => .quiet (by simp) (by simp) (fun hb => by simp [hb]))).keeps

theorem execSlackClear_keeps (t : Frac) (src : Owner) (s : State) : Keeps s (execSlackClear t src s) :=
  ((atT_kept s _).trans (directWrite_kept fun s => .quiet (by simp) (by simp) (fun hb => by simp [hb]))).keeps

theorem execClipClear_keeps (t : Frac) (src : Owner) (v : Word) (s : State) : Keeps s (execClipClear t src v s) :=
  ((atT_kept s _).trans (directWrite_kept fun s => .quiet (by simp) (by simp) (fun hb => by simp [hb]))).keeps

theorem execFxLoadStaged_keeps (t : Frac) (us : Word) (nvOk : Bool) (blocks : List (Fin 1024)) (s : State) :
    Keeps s (execFxLoadStaged t us nvOk blocks s) := by
  refine Kept.keeps ?_
  (repeat' split) <;> exact .quiet (by simp) (by simp) (fun hb => by simp [hb])

theorem execEngineTestDone_keeps (t : Frac) (us : Word) (r : TestResult) (vector : Word) (s : State) :
    Keeps s (execEngineTestDone t us r vector s) := by
  refine Kept.keeps ?_
  dsimp only
  (repeat' split) <;> exact .quiet (by simp) (by simp) (fun hb => by simp [hb])

theorem execNop_keeps (t : Frac) (c : Cmd) (s : State) : Keeps s (execNop t c s) :=
  runCmd_keeps fun _ s n => .quiet (by simp) (by simp) (fun hb => by simp [hb])

theorem execSetupLock_keeps (t : Frac) (c : Cmd) (s : State) : Keeps s (execSetupLock t c s) := by
  refine runCmd_keeps fun _ s n => ?_
  dsimp only
  (repeat' split) <;> exact .quiet (by simp) (by simp) (fun hb => by simp [hb])

theorem execHalfTestDone_keeps (t : Frac) (us : Word) (failed : Word) (memBad : Bool) (s : State) :
    Keeps s (execHalfTestDone t us failed memBad s) := by
  refine Kept.keeps ?_
  dsimp only
  (repeat' split) <;> exact .quiet (by simp) (by simp) (fun hb => by simp [hb])

theorem execPdStateStandby_keeps (t : Frac) (c : Cmd) (s : State) : Keeps s (execPdStateStandby t c s) :=
  pdState_keeps _ _ _ _ _

theorem execPdStateSleep_keeps (t : Frac) (c : Cmd) (s : State) : Keeps s (execPdStateSleep t c s) :=
  pdState_keeps _ _ _ _ _

theorem execSvFwStage_keeps (t : Frac) (c : Cmd) (d : Dma) (s : State) : Keeps s (execSvFwStage t c d s) :=
  runCmd_keeps fun _ s n => .quiet (by simp) (by simp) (fun hb => by simp [hb])

theorem execFwConfirmed_keeps (t : Frac) (s : State) : Keeps s (execFwConfirmed t s) := by
  refine Kept.keeps ?_
  dsimp only
  (repeat' split) <;> exact .quiet (by simp) (by simp) (fun hb => by simp [hb])

theorem execSvKeygen_keeps (t : Frac) (c : Cmd) (s : State) : Keeps s (execSvKeygen t c s) :=
  runCmd_keeps fun _ s n => .quiet (by simp) (by simp) (fun hb => by simp [hb])

theorem execSvOwnerEnrol_keeps (t : Frac) (c : Cmd) (d : Dma) (s : State) : Keeps s (execSvOwnerEnrol t c d s) := by
  refine runCmd_keeps fun _ s n => ?_
  dsimp only
  (repeat' split) <;> exact .quiet (by simp) (by simp) (fun hb => by simp [hb])

theorem execSvOwnerRevoke_keeps (t : Frac) (c : Cmd) (s : State) : Keeps s (execSvOwnerRevoke t c s) :=
  runCmd_keeps fun _ s n => .quiet (by simp) (by simp) (fun hb => by simp [hb])

theorem execPlPair_keeps (t : Frac) (c : Cmd) (s : State) : Keeps s (execPlPair t c s) :=
  plControl_keeps _ _ _ _ _

theorem execPlUnpair_keeps (t : Frac) (c : Cmd) (s : State) : Keeps s (execPlUnpair t c s) :=
  plControl_keeps _ _ _ _ _

theorem execPlFailover_keeps (t : Frac) (c : Cmd) (s : State) : Keeps s (execPlFailover t c s) :=
  plControl_keeps _ _ _ _ _

theorem execPlResume_keeps (t : Frac) (c : Cmd) (s : State) : Keeps s (execPlResume t c s) :=
  plControl_keeps _ _ _ _ _

theorem execUnknownCommand_keeps (t : Frac) (op : BitVec 16) (c : Cmd) (s : State) :
    Keeps s (execUnknownCommand t op c s) := by
  refine Kept.keeps ?_
  (repeat' split) <;> exact .quiet (by simp) (by simp) (fun hb => by simp [hb])

theorem execCommandFetch_keeps (t : Frac) (d : Dma) (s : State) : Keeps s (execCommandFetch t d s) := by
  refine Kept.keeps ?_
  dsimp only
  (repeat' split) <;> exact .quiet (by simp) (by simp) (fun hb => by simp [hb])

theorem execFunctionLevelReset_keeps (t : Frac) (s : State) : Keeps s (execFunctionLevelReset t s) :=
  ((atT_kept s _).trans (startReset_kept _ _ _)).keeps

theorem execChEnable_keeps (t : Frac) (c : Fin 12) (s : State) : Keeps s (execChEnable t c s) :=
  ((atT_kept s _).trans (atBoundary_kept fun s => .quiet (by simp) (by simp) (fun hb => by simp [hb]))).keeps

theorem execPsConfigWrite_keeps (t : Frac) (src : Owner) (c : Fin 12) (r : PsReg) (v : Word) (s : State) :
    Keeps s (execPsConfigWrite t src c r v s) :=
  ((atT_kept s _).trans (directWrite_kept fun s => .quiet (by simp) (by simp) (fun hb => by simp [hb]))).keeps

theorem execDxLimitShutdown_keeps (t : Frac) (d : Fin 4) (s : State) : Keeps s (execDxLimitShutdown t d s) := by
  refine Kept.keeps ?_
  dsimp only
  (repeat' split) <;> exact .quiet (by simp) (by simp) (fun hb => by simp [hb])

theorem execDcFault_keeps (t : Frac) (c : Fin 12) (s : State) : Keeps s (execDcFault t c s) := by
  refine Kept.keeps ?_
  dsimp only
  (repeat' split) <;> exact .quiet (by simp) (by simp) (fun hb => by simp [hb])

theorem execSupplyResume_keeps (t : Frac) (d : PowerDie) (cause : SupplyCause) (s : State) :
    Keeps s (execSupplyResume t d cause s) := by
  refine Kept.keeps ?_
  dsimp only
  (repeat' split) <;> exact .quiet (by simp) (by simp) (fun hb => by simp [hb])

theorem execDomainIdleOff_keeps (t : Frac) (d : PowerDie) (s : State) : Keeps s (execDomainIdleOff t d s) := by
  refine Kept.keeps ?_
  dsimp only
  (repeat' split) <;> exact .quiet (by simp) (by simp) (fun hb => by simp [hb])

theorem execImpLatchClear_keeps (t : Frac) (c : Fin 12) (s : State) : Keeps s (execImpLatchClear t c s) :=
  ((atT_kept s _).trans (atBoundary_kept fun s => .quiet (by simp) (by simp) (fun hb => by simp [hb]))).keeps

theorem execSpEnvLoad_keeps (t : Frac) (c : Cmd) (d : Dma) (s : State) : Keeps s (execSpEnvLoad t c d s) :=
  runCmd_keeps fun _ s n => .quiet (by simp) (by simp) (fun hb => by simp [hb])

theorem execPgaZeroCrossing_keeps (t : Frac) (n : Fin 16) (s : State) : Keeps s (execPgaZeroCrossing t n s) := by
  refine Kept.keeps ?_
  dsimp only
  (repeat' split) <;> exact .quiet (by simp) (by simp) (fun hb => by simp [hb])

theorem execPgaZcTimeout_keeps (t : Frac) (n : Fin 16) (s : State) : Keeps s (execPgaZcTimeout t n s) := by
  refine Kept.keeps ?_
  dsimp only
  (repeat' split) <;> exact .quiet (by simp) (by simp) (fun hb => by simp [hb])

theorem execPathForced_keeps (t : Frac) (n : Fin 16) (s : State) : Keeps s (execPathForced t n s) := by
  refine Kept.keeps ?_
  dsimp only
  (repeat' split) <;> exact .quiet (by simp) (by simp) (fun hb => by simp [hb])

theorem execAiPeakClear_keeps (t : Frac) (src : Owner) (v : Word) (s : State) : Keeps s (execAiPeakClear t src v s) :=
  ((atT_kept s _).trans (directWrite_kept fun s => .quiet (by simp) (by simp) (fun hb => by simp [hb]))).keeps

theorem execCpResumed_keeps (t : Frac) (s : State) : Keeps s (execCpResumed t s) := by
  refine Kept.keeps ?_
  dsimp only
  (repeat' split) <;> exact .quiet (by simp) (by simp) (fun hb => by simp [hb])

theorem execPortEnable_keeps (t : Frac) (p : Fin 8) (s : State) : Keeps s (execPortEnable t p s) :=
  ((atT_kept s _).trans (atBoundary_kept fun s => .quiet (by simp) (by simp) (fun hb => by simp [hb]))).keeps

theorem execPortDisable_keeps (t : Frac) (p : Fin 8) (s : State) : Keeps s (execPortDisable t p s) :=
  ((atT_kept s _).trans (atBoundary_kept fun s => .quiet (by simp) (by simp) (fun hb => by simp [hb]))).keeps

theorem execPortFmtWrite_keeps (t : Frac) (src : Owner) (p : Fin 8) (v : Word) (s : State) :
    Keeps s (execPortFmtWrite t src p v s) :=
  ((atT_kept s _).trans (directWrite_kept fun s => .quiet (by simp) (by simp) (fun hb => by simp [hb]))).keeps

theorem execPortFrame_keeps (t : Frac) (p : Fin 8) (x : PortFrame) (s : State) : Keeps s (execPortFrame t p x s) := by
  refine Kept.keeps ?_
  (repeat' split) <;> exact .quiet (by simp) (by simp) (fun hb => by simp [hb])

theorem execFsMissingTimeout_keeps (t : Frac) (p : Fin 8) (s : State) : Keeps s (execFsMissingTimeout t p s) := by
  refine Kept.keeps ?_
  dsimp only
  (repeat' split) <;> exact .quiet (by simp) (by simp) (fun hb => by simp [hb])

theorem execMaskWrite_keeps (t : Frac) (src : Owner) (p : Fin 8) (rx : Bool) (v : Word) (late : Bool) (s : State) :
    Keeps s (execMaskWrite t src p rx v late s) :=
  ((atT_kept s _).trans (directWrite_kept fun s => .quiet (by simp) (by simp) (fun hb => by simp [hb]))).keeps

theorem execSetFsw_keeps (t : Frac) (c : Cmd) (s : State) : Keeps s (execSetFsw t c s) :=
  runCmd_keeps fun _ s n => .quiet (by simp) (by simp) (fun hb => by simp [hb])

theorem execPllUnlocked_keeps (t : Frac) (j : Fin 4) (phase : Bool) (s : State) :
    Keeps s (execPllUnlocked t j phase s) := by
  refine Kept.keeps ?_
  dsimp only
  (repeat' split) <;> exact .quiet (by simp) (by simp) (fun hb => by simp [hb])

theorem execRefFreqAcqEnd_keeps (t : Frac) (offset : Int) (later : Bool) (s : State) :
    Keeps s (execRefFreqAcqEnd t offset later s) := by
  refine Kept.keeps ?_
  dsimp only
  (repeat' split) <;> exact .quiet (by simp) (by simp) (fun hb => by simp [hb])

theorem execCkSteerWrite_keeps (t : Frac) (src : Owner) (v : Word) (s : State) : Keeps s (execCkSteerWrite t src v s) :=
  ((atT_kept s _).trans (directWrite_kept fun s => .quiet (by simp) (by simp) (fun hb => by simp [hb]))).keeps

theorem execXtalRestored_keeps (t : Frac) (s : State) : Keeps s (execXtalRestored t s) := by
  refine Kept.keeps ?_
  dsimp only
  (repeat' split) <;> exact .quiet (by simp) (by simp) (fun hb => by simp [hb])

theorem execCacheFlush_keeps (t : Frac) (src : Owner) (v : Word) (s : State) : Keeps s (execCacheFlush t src v s) :=
  ((atT_kept s _).trans (directWrite_kept fun s => .quiet (by simp) (by simp) (fun hb => by simp [hb]))).keeps

theorem execScCalZero_keeps (t : Frac) (c : Cmd) (s : State) : Keeps s (execScCalZero t c s) :=
  scCal_keeps _ _ _ _

theorem execScCalFull_keeps (t : Frac) (c : Cmd) (s : State) : Keeps s (execScCalFull t c s) :=
  scCal_keeps _ _ _ _

theorem execScCalSave_keeps (t : Frac) (c : Cmd) (s : State) : Keeps s (execScCalSave t c s) :=
  scCal_keeps _ _ _ _

theorem execScanStart_keeps (t : Frac) (src : Owner) (k : Fin 2) (s : State) : Keeps s (execScanStart t src k s) :=
  ((atT_kept s _).trans (directWrite_kept fun s => .quiet (by simp) (by simp) (fun hb => by simp [hb]))).keeps

theorem execScConversionDone_keeps (t : Frac) (k : Fin 2) (e : Fin 512) (x : AdcIn) (fn : BitVec 48) (frac : Frac) (urgent : Bool) (twin : AdcIn) (s : State) :
    Keeps s (execScConversionDone t k e x fn frac urgent twin s) := by
  refine Kept.keeps ?_
  (repeat' split) <;> exact .quiet (by simp) (by simp) (fun hb => by simp [hb])

theorem execUrgentConversion_keeps (t : Frac) (src : Owner) (k : Fin 2) (v : Word) (startWins : Bool) (s : State) :
    Keeps s (execUrgentConversion t src k v startWins s) :=
  ((atT_kept s _).trans (directWrite_kept fun s => .quiet (by simp) (by simp) (fun hb => by simp [hb]))).keeps

theorem execCtxStop_keeps (t : Frac) (c : Cmd) (s : State) : Keeps s (execCtxStop t c s) :=
  runCmd_keeps fun _ s n => .quiet (by simp) (by simp) (fun hb => by simp [hb])

theorem execStreamEnable_keeps (t : Frac) (src : Owner) (k : Fin 256) (v : Word) (s : State) :
    Keeps s (execStreamEnable t src k v s) :=
  ((atT_kept s _).trans (directWrite_kept fun s => .quiet (by simp) (by simp) (fun hb => by simp [hb]))).keeps

theorem execPlaybackReadLanded_keeps (t : Frac) (k : Fin 256) (fn : BitVec 48) (d : ReadResult) (s : State) :
    Keeps s (execPlaybackReadLanded t k fn d s) := by
  refine Kept.keeps ?_
  dsimp only
  (repeat' split) <;> exact .quiet (by simp) (by simp) (fun hb => by simp [hb])

theorem execRecordDeadline_keeps (t : Frac) (k : Fin 256) (s : State) : Keeps s (execRecordDeadline t k s) := by
  refine Kept.keeps ?_
  (repeat' split) <;> exact .quiet (by simp) (by simp) (fun hb => by simp [hb])

theorem execDescriptorRetire_keeps (t : Frac) (k : Fin 256) (s : State) : Keeps s (execDescriptorRetire t k s) := by
  refine Kept.keeps ?_
  (repeat' split) <;> exact .quiet (by simp) (by simp) (fun hb => by simp [hb])

theorem execTwUnknownCode_keeps (t : Frac) (code : Byte) (s : State) : Keeps s (execTwUnknownCode t code s) := by
  refine Kept.keeps ?_
  (repeat' split) <;> exact .quiet (by simp) (by simp) (fun hb => by simp [hb])

theorem execAlertResponse_keeps (t : Frac) (lost : Bool) (s : State) : Keeps s (execAlertResponse t lost s) := by
  refine Kept.keeps ?_
  dsimp only
  (repeat' split) <;> exact .quiet (by simp) (by simp) (fun hb => by simp [hb])

theorem execNotifyRetry_keeps (t : Frac) (r : CtlResult) (s : State) : Keeps s (execNotifyRetry t r s) := by
  refine Kept.keeps ?_
  (repeat' split) <;> exact .quiet (by simp) (by simp) (fun hb => by simp [hb])

theorem execControllerRetry_keeps (t : Frac) (r : CtlResult) (s : State) : Keeps s (execControllerRetry t r s) := by
  refine Kept.keeps ?_
  (repeat' split) <;> exact .quiet (by simp) (by simp) (fun hb => by simp [hb])

theorem execTwSdaStuck_keeps (t : Frac) (s : State) : Keeps s (execTwSdaStuck t s) := by
  refine Kept.keeps ?_
  (repeat' split) <;> exact .quiet (by simp) (by simp) (fun hb => by simp [hb])

theorem execSdaStuckRetry_keeps (t : Frac) (freed : Option CtlResult) (s : State) :
    Keeps s (execSdaStuckRetry t freed s) := by
  refine Kept.keeps ?_
  (repeat' split) <;> exact .quiet (by simp) (by simp) (fun hb => by simp [hb])

theorem execTwStretchReset_keeps (t : Frac) (target : Bool) (code : Byte) (write : Bool) (s : State) :
    Keeps s (execTwStretchReset t target code write s) := by
  refine Kept.keeps ?_
  (repeat' split) <;> exact .quiet (by simp) (by simp) (fun hb => by simp [hb])

theorem execCtVidWrite_keeps (t : Frac) (src : Owner) (v : Word) (r : CtlResult) (s : State) :
    Keeps s (execCtVidWrite t src v r s) :=
  ((atT_kept s _).trans (directWrite_kept fun s => .quiet (by simp) (by simp) (fun hb => by simp [hb]))).keeps

theorem execPairHello_keeps (t : Frac) (h : Hello) (cert : Option PeerCert) (s : State) :
    Keeps s (execPairHello t h cert s) := by
  refine Kept.keeps ?_
  dsimp only
  (repeat' split) <;> exact .quiet (by simp) (by simp) (fun hb => by simp [hb])

theorem execPairFinish_keeps (t : Frac) (sig : Bytes) (s : State) : Keeps s (execPairFinish t sig s) := by
  refine Kept.keeps ?_
  dsimp only
  (repeat' split) <;> exact .quiet (by simp) (by simp) (fun hb => by simp [hb])

theorem execOptionLoadingDone_keeps (t : Frac) (o : Options) (s : State) : Keeps s (execOptionLoadingDone t o s) := by
  refine Kept.keeps ?_
  dsimp only
  (repeat' split) <;> exact .quiet (by simp) (by simp) (fun hb => by simp [hb])

theorem execSyncCheckRetry_keeps (t : Frac) (v : PeerView) (s : State) : Keeps s (execSyncCheckRetry t v s) := by
  refine Kept.keeps ?_
  dsimp only
  (repeat' split) <;> exact .quiet (by simp) (by simp) (fun hb => by simp [hb])

theorem execRendezvousTimeout_keeps (t : Frac) (seq : Word) (s : State) : Keeps s (execRendezvousTimeout t seq s) := by
  refine Kept.keeps ?_
  (repeat' split) <;> exact .quiet (by simp) (by simp) (fun hb => by simp [hb])

theorem execPeerResetSend_keeps (t : Frac) (src : Owner) (v : Word) (s : State) :
    Keeps s (execPeerResetSend t src v s) :=
  ((atT_kept s _).trans (directWrite_kept fun s => .quiet (by simp) (by simp) (fun hb => by simp [hb]))).keeps

theorem exec_keeps (i : Instr) (s : State) : Keeps s (exec i s) := by
  cases i
  case frameStrobe => exact execFrameStrobe_keeps _ _
  case frameDrain => exact execFrameDrain_keeps _ _ _
  case abortEnd => exact execAbortEnd_keeps _ _ _
  case delayUncorrectable => exact execDelayUncorrectable_keeps _ _ _ _ _
  case xpLookup => exact execXpLookup_keeps _ _ _ _ _
  case slackRearm => exact execSlackRearm_keeps _ _ _
  case slackClear => exact execSlackClear_keeps _ _ _
  case clipClear => exact execClipClear_keeps _ _ _ _
  case registerWrite => exact execRegisterWrite_keeps _ _ _ _
  case mixCommit => exact execMixCommit_keeps _ _ _ _ _
  case fxLoad => exact execFxLoad_keeps _ _ _ _
  case fxLoadStaged => exact execFxLoadStaged_keeps _ _ _ _ _
  case fxClear => exact execFxClear_keeps _ _ _
  case fxTest => exact execFxTest_keeps _ _ _
  case engineTestDone => exact execEngineTestDone_keeps _ _ _ _ _
  case fxPdataAccess => exact execFxPdataAccess_keeps _ _ _ _
  case fxPcommit => exact execFxPcommit_keeps _ _ _ _
  case nop => exact execNop_keeps _ _ _
  case setupLock => exact execSetupLock_keeps _ _ _
  case reset => exact execReset_keeps _ _ _
  case mxHalfOut => exact execMxHalfOut_keeps _ _ _
  case mxHalfIn => exact execMxHalfIn_keeps _ _ _
  case mxHalfTest => exact execMxHalfTest_keeps _ _ _
  case halfTestDone => exact execHalfTestDone_keeps _ _ _ _ _
  case sceneSaveStore => exact execSceneSaveStore_keeps _ _ _ _
  case sceneSaveCapture => exact execSceneSaveCapture_keeps _ _ _
  case sceneRecall => exact execSceneRecall_keeps _ _ _ _
  case sceneDelete => exact execSceneDelete_keeps _ _ _
  case sceneRead => exact execSceneRead_keeps _ _ _ _
  case pdDomain => exact execPdDomain_keeps _ _ _
  case domainPowerGood => exact execDomainPowerGood_keeps _ _ _ _ _ _
  case domainFault => exact execDomainFault_keeps _ _ _ _
  case pdStateStandby => exact execPdStateStandby_keeps _ _ _
  case pdStateSleep => exact execPdStateSleep_keeps _ _ _
  case stateEntryHalt => exact execStateEntryHalt_keeps _ _
  case sleepPowerDown => exact execSleepPowerDown_keeps _ _
  case svFwStage => exact execSvFwStage_keeps _ _ _ _
  case svFwActivate => exact execSvFwActivate_keeps _ _ _
  case fwConfirmed => exact execFwConfirmed_keeps _ _
  case svAttest => exact execSvAttest_keeps _ _ _ _
  case svKeygen => exact execSvKeygen_keeps _ _ _
  case svOwnerEnrol => exact execSvOwnerEnrol_keeps _ _ _ _
  case svOwnerRevoke => exact execSvOwnerRevoke_keeps _ _ _
  case svCertRead => exact execSvCertRead_keeps _ _ _ _
  case plPair => exact execPlPair_keeps _ _ _
  case plUnpair => exact execPlUnpair_keeps _ _ _
  case plFailover => exact execPlFailover_keeps _ _ _
  case plResume => exact execPlResume_keeps _ _ _
  case unknownCommand => exact execUnknownCommand_keeps _ _ _ _
  case commandDoorbell => exact execCommandDoorbell_keeps _ _ _ _ _
  case ringCfgWrite => exact execRingCfgWrite_keeps _ _ _ _ _
  case ringBaseWrite => exact execRingBaseWrite_keeps _ _ _ _ _ _
  case commandFetch => exact execCommandFetch_keeps _ _ _
  case functionLevelReset => exact execFunctionLevelReset_keeps _ _
  case linkChanged => exact execLinkChanged_keeps _ _ _ _
  case chEnable => exact execChEnable_keeps _ _ _
  case psConfigWrite => exact execPsConfigWrite_keeps _ _ _ _ _ _
  case dxLimitShutdown => exact execDxLimitShutdown_keeps _ _ _
  case dcFault => exact execDcFault_keeps _ _ _
  case supplyMute => exact execSupplyMute_keeps _ _ _ _ _
  case supplyResume => exact execSupplyResume_keeps _ _ _ _
  case tempShutdown => exact execTempShutdown_keeps _ _ _ _
  case domainIdleOff => exact execDomainIdleOff_keeps _ _ _
  case idleWakeRun => exact execIdleWakeRun_keeps _ _ _
  case impLatchClear => exact execImpLatchClear_keeps _ _ _
  case spRegisterWrite t src c off v => exact execSpRegisterWrite_keeps t src c off v s
  case spEnvLoad => exact execSpEnvLoad_keeps _ _ _ _
  case spEnvClear => exact execSpEnvClear_keeps _ _ _
  case pgaZeroCrossing => exact execPgaZeroCrossing_keeps _ _ _
  case pgaZcTimeout => exact execPgaZcTimeout_keeps _ _ _
  case pathForced => exact execPathForced_keeps _ _ _
  case aiPeakClear => exact execAiPeakClear_keeps _ _ _ _
  case cpResumed => exact execCpResumed_keeps _ _
  case portEnable => exact execPortEnable_keeps _ _ _
  case portDisable => exact execPortDisable_keeps _ _ _
  case portFmtWrite => exact execPortFmtWrite_keeps _ _ _ _ _
  case portFrame => exact execPortFrame_keeps _ _ _ _
  case fsMissingTimeout => exact execFsMissingTimeout_keeps _ _ _
  case maskWrite => exact execMaskWrite_keeps _ _ _ _ _ _ _
  case setFrameRate => exact execSetFrameRate_keeps _ _ _
  case frameRateApplied => exact execFrameRateApplied_keeps _ _ _
  case setFsw => exact execSetFsw_keeps _ _ _
  case pllLocked => exact execPllLocked_keeps _ _ _ _ _ _
  case pllUnlocked => exact execPllUnlocked_keeps _ _ _ _
  case strobeRestart => exact execStrobeRestart_keeps _ _ _
  case refFreqAcqEnd => exact execRefFreqAcqEnd_keeps _ _ _ _
  case ckSteerWrite => exact execCkSteerWrite_keeps _ _ _ _
  case xtalFail => exact execXtalFail_keeps _ _
  case xtalRestored => exact execXtalRestored_keeps _ _
  case cacheFlush => exact execCacheFlush_keeps _ _ _ _
  case scCalZero => exact execScCalZero_keeps _ _ _
  case scCalFull => exact execScCalFull_keeps _ _ _
  case scCalSave => exact execScCalSave_keeps _ _ _
  case scanStart => exact execScanStart_keeps _ _ _ _
  case scanStop => exact execScanStop_keeps _ _ _ _
  case scConversionDone => exact execScConversionDone_keeps _ _ _ _ _ _ _ _ _
  case urgentConversion => exact execUrgentConversion_keeps _ _ _ _ _ _
  case groupStart => exact execGroupStart_keeps _ _ _
  case ctxStop => exact execCtxStop_keeps _ _ _
  case streamEnable => exact execStreamEnable_keeps _ _ _ _ _
  case playbackReadLanded => exact execPlaybackReadLanded_keeps _ _ _ _ _
  case recordDeadline => exact execRecordDeadline_keeps _ _ _
  case descriptorRetire => exact execDescriptorRetire_keeps _ _ _
  case groupStartFrame => exact execGroupStartFrame_keeps _ _ _ _
  case twRegWrite => exact execTwRegWrite_keeps _ _ _ _
  case twCmd => exact execTwCmd_keeps _ _ _
  case twCmdResult => exact execTwCmdResult_keeps _ _ _
  case twBufWrite => exact execTwBufWrite_keeps _ _ _
  case twEventRead => exact execTwEventRead_keeps _ _ _
  case twStatusRead => exact execTwStatusRead_keeps _ _ _
  case twReset => exact execTwReset_keeps _ _ _
  case twUnknownCode => exact execTwUnknownCode_keeps _ _ _
  case alertResponse => exact execAlertResponse_keeps _ _ _
  case notifyRetry => exact execNotifyRetry_keeps _ _ _
  case controllerRetry => exact execControllerRetry_keeps _ _ _
  case twSdaStuck => exact execTwSdaStuck_keeps _ _
  case sdaStuckRetry => exact execSdaStuckRetry_keeps _ _ _
  case twStretchReset => exact execTwStretchReset_keeps _ _ _ _ _
  case twSclLow => exact execTwSclLow_keeps _ _ _ _
  case twSdaLow => exact execTwSdaLow_keeps _ _ _ _
  case twWakeMatch => exact execTwWakeMatch_keeps _ _ _ _
  case twWakeKnock => exact execTwWakeKnock_keeps _ _ _ _ _
  case ctVidWrite => exact execCtVidWrite_keeps _ _ _ _ _
  case pairHello => exact execPairHello_keeps _ _ _ _
  case pairFinish => exact execPairFinish_keeps _ _ _
  case wakeSource => exact execWakeSource_keeps _ _ _ _ _ _
  case standbyWakeStrobe => exact execStandbyWakeStrobe_keeps _ _ _
  case rtcAlarm => exact execRtcAlarm_keeps _ _ _
  case rtcSet => exact execRtcSet_keeps _ _ _ _ _
  case retDataAccess => exact execRetDataAccess_keeps _ _ _ _ _
  case awcChanged => exact execAwcChanged_keeps _ _ _ _ _ _
  case powerOnReset => exact execPowerOnReset_keeps _ _
  case supplyMonitorReset => exact execSupplyMonitorReset_keeps _ _ _
  case rstNAssert => exact execRstNAssert_keeps _ _
  case perstAssert => exact execPerstAssert_keeps _ _
  case perstRelease => exact execPerstRelease_keeps _ _ _
  case watchdogReset => exact execWatchdogReset_keeps _ _ _
  case criticalError => exact execCriticalError_keeps _ _ _ _
  case optionLoadingDone => exact execOptionLoadingDone_keeps _ _ _
  case bringupCtrlUp => exact execBringupCtrlUp_keeps _ _ _
  case bringupLarderDone => exact execBringupLarderDone_keeps _ _ _
  case bringupClkUp => exact execBringupClkUp_keeps _ _
  case bringupHostUp => exact execBringupHostUp_keeps _ _ _
  case pairPacket => exact execPairPacket_keeps _ _ _
  case syncCheckRetry => exact execSyncCheckRetry_keeps _ _ _
  case rendezvousTimeout => exact execRendezvousTimeout_keeps _ _ _
  case peerResetSend => exact execPeerResetSend_keeps _ _ _ _
  case peerResetRequest => exact execPeerResetRequest_keeps _ _ _
  all_goals exact Kept.keeps (.quiet (by simp) (by simp) fun hb => by simp [hb])

end Sys2Proof.Proofs.Steps

/-! The queue and the invariants of a step, and what reset leaves. -/

namespace Sys2Proof.Proofs.Invariants

open Sys2Proof Sys2Proof.Machine Sys2Proof.Safety Sys2Proof.Laws
open Sys2Proof.Proofs.Bus Sys2Proof.Proofs.BusWrites Sys2Proof.Proofs.Counter Sys2Proof.Proofs.Steps

theorem step_front {s : State} {c : Instr} {r : List Instr} (h : s.pending = c :: r) :
    step s = exec c { s with pending := r } := by
  simp only [step, h, State.dequeue]

theorem step_idle {s : State} (h : s.pending = []) : step s = .next s := by
  simp only [step, h]

/-- A step keeps what every command keeps, but for the command it takes from the queue. -/
theorem step_keeps {s t : State} (h : step s = .next t) : (FnOk s → FnOk t) ∧ (TwOk s.tw → TwOk t.tw) := by
  cases hp : s.pending with
  | nil =>
    rw [step_idle hp] at h
    cases h
    exact ⟨id, id⟩
  | cons c r =>
    rw [step_front hp] at h
    obtain ⟨u, hu, hk⟩ := exec_keeps c { s with pending := r }
    rw [hu] at h
    cases h
    exact ⟨hk.counter, hk.bus⟩

theorem busOk_iff (s : State) : BusOk s ↔ TwOk s.tw :=
  ⟨fun ⟨hq, hl, hf⟩ => ⟨hq, hl, hf⟩, fun ⟨hq, hl, hf⟩ => ⟨hq, hl, hf⟩⟩

theorem core_run_succ (k : Nat) (s t : State) (h : step s = .next t) :
    Host.Core.run core (k + 1) s = Host.Core.run core k t := by
  have hs : core.step s = .next t := h
  simp only [Host.Core.run, hs]

/-- A queue is run whole, each command on what the one before it left. -/
theorem run_queue (l : List Instr) (s : State) (h : s.pending = l) :
    Host.Core.run core l.length s = runAll l s ∧ ∃ t, runAll l s = .next t ∧ t.pending = [] := by
  induction l generalizing s with
  | nil => exact ⟨rfl, s, rfl, h⟩
  | cons c r ih =>
    obtain ⟨u, hu, hk⟩ := exec_keeps c { s with pending := r }
    obtain ⟨hr, hn⟩ := ih u hk.pending
    have ha : runAll (c :: r) s = runAll r u := by simp only [runAll, hu]
    rw [ha]
    exact ⟨(core_run_succ _ s u (by rw [step_front h, hu])).trans hr, hn⟩

/-- Settles O55: every command keeps the queue, so a queue is run whole, by induction on it. -/
theorem queueRunsInOrder : Obligations.QueueRunsInOrder := by
  unfold Obligations.QueueRunsInOrder
  refine ⟨fun c s => ?_, fun l s h => (run_queue l s h).1, fun l s h => (run_queue l s h).2⟩
  obtain ⟨t, ht, hk⟩ := exec_keeps c s
  exact ⟨t, ht, hk.pending⟩

/-- Settles O56: a command leaves the counter, stops the strobes, begins the next frame or clears the counter. -/
theorem frameNumberInvariant : Obligations.FrameNumberInvariant := by
  unfold Obligations.FrameNumberInvariant
  exact fun s t hs h => (step_keeps h).1 hs

/-- Settles O57: every operation of the model keeps the bounds of the two-wire side. -/
theorem busInvariant : Obligations.BusInvariant := by
  unfold Obligations.BusInvariant
  exact fun s t hs h => (busOk_iff t).2 ((step_keeps h).2 ((busOk_iff s).1 hs))

/-- Settles O54. -/
theorem stepRunsFront : Obligations.StepRunsFront := by
  unfold Obligations.StepRunsFront
  exact ⟨fun _ _ _ => step_front, fun _ => step_idle⟩

/-- Settles O58: each table after reset is empty, so it answers its default. -/
theorem resetState : Obligations.ResetState := by
  unfold Obligations.ResetState
  refine ⟨rfl, rfl, rfl, fun n k => ?_, rfl, rfl, fun e => ?_, fun c => ?_, fun o => ?_, fun k => ?_, rfl, rfl, rfl, rfl, rfl,
    resetCounter_fnOk ⟨rfl, rfl, rfl⟩, (busOk_iff _).2 reset_twOk⟩
  all_goals rfl

end Sys2Proof.Proofs.Invariants

/-! A HOST reset and the bus queue: the GROUP_STATE of a group that ran is copied where TW_EV_MASK asks for it (R332, R351),
whatever the source of the reset. -/

namespace Sys2Proof.Proofs.HostReset

open Sys2Proof Sys2Proof.Machine Sys2Proof.Safety Sys2Proof.Proofs.BusReset

/-- A HOST reset that has begun leaves the bus queue as it was. -/
theorem hostBegun_queue {s t : State} {src : Nat} (h : hostBegun s t src) : t.tw.queue = s.tw.queue := by
  obtain ⟨-, -, -, -, -, -, -, -, -, -, -, -, htw, -⟩ := h
  rw [htw]

/-- A function level reset of the module in service. -/
theorem functionLevelReset_streaming_queue :
    ∃ t, exec (.functionLevelReset 0) streaming = .next t ∧ t.tw.queue = [groupIdle] := ⟨_, rfl, by decide⟩

/-- Refutes O48: a function level reset is a HOST reset, whose GROUP_STATE moves the bus queue. -/
theorem not_resetSources : ¬ Obligations.ResetSources := by
  unfold Obligations.ResetSources
  rintro ⟨-, -, -, -, -, -, -, -, -, -, hflr, -⟩
  obtain ⟨hcur, hreset⟩ := streaming_unreset
  obtain ⟨t, ht, hbegun⟩ := hflr 0 streaming hcur hreset
  obtain ⟨u, hu, hqueue⟩ := functionLevelReset_streaming_queue
  rw [ht] at hu
  cases hu
  exact absurd (hqueue ▸ hostBegun_queue hbegun) (List.cons_ne_nil _ _)

/-- The command RESET with scope HOST. -/
def resetHost : Cmd := { src := .host, flags := 0, phaseLow := 0, id := 7, idx := 3, pw := [3, 0, 0, 0, 0, 0, 0] }

/-- The module in service with that command fetched and not yet taken. -/
def askedReset : State :=
  { streaming with hl := { streaming.hl with
      linkUp := true, fn := { fnReset with busMaster := true }, fetched := some { op := 0x0003, cmd := resetHost } } }

theorem askedReset_ready : cmdReady askedReset resetHost 0x0003 [0x38] ∧ fieldsOk resetHost [(0, 3)] = true ∧
    resetHost.src = .host ∧ pwN resetHost 0 = 3 ∧ askedReset.ct.cur = none ∧ askedReset.ct.hostReset = none := by
  decide

theorem reset_askedReset_queue : ∃ t, exec (.reset 0 resetHost) askedReset = .next t ∧ t.tw.queue = [groupIdle] :=
  ⟨_, rfl, by decide⟩

/-- Refutes O46: the command RESET with scope HOST moves the bus queue as well. -/
theorem not_resetCommands : ¬ Obligations.ResetCommands := by
  unfold Obligations.ResetCommands
  rintro ⟨-, -, -, hhost, -⟩
  obtain ⟨hready, hfields, hsrc, hscope, hcur, hreset⟩ := askedReset_ready
  obtain ⟨t, ht, hbegun, -⟩ := hhost 0 resetHost askedReset hready hfields hsrc hscope hcur hreset
  obtain ⟨u, hu, hqueue⟩ := reset_askedReset_queue
  rw [ht] at hu
  cases hu
  exact absurd (hqueue ▸ hostBegun_queue hbegun) (List.cons_ne_nil _ _)

end Sys2Proof.Proofs.HostReset

/-! What a frame says, part by part; the shape of the answers. -/

namespace Sys2Proof.Proofs.Frames

open Sys2Proof Sys2Proof.Machine Sys2Proof.Safety Sys2Proof.Laws

theorem answers_next (t : State) (Q : State → Prop) : Answers (.next t) Q ↔ Q t :=
  ⟨fun ⟨_, h, hq⟩ => by cases h; exact hq, fun h => ⟨t, rfl, h⟩⟩

/-- A frame, part by part. -/
theorem parts_iff (P : Part → Prop) : (∀ p, P p) ↔
    P .pending ∧ P .regs ∧ P .fr ∧ P .mx ∧ P .fx ∧ P .ps ∧ P .sp ∧ P .ai ∧ P .aq ∧ P .dp ∧ P .ck ∧ P .sc ∧ P .hl ∧
      P .st ∧ P .tw ∧ P .sv ∧ P .pd ∧ P .ct ∧ P .pl ∧ P .vc := by
  refine ⟨fun h => ⟨h _, h _, h _, h _, h _, h _, h _, h _, h _, h _, h _, h _, h _, h _, h _, h _, h _, h _, h _, h _⟩, ?_⟩
  rintro ⟨h1, h2, h3, h4, h5, h6, h7, h8, h9, h10, h11, h12, h13, h14, h15, h16, h17, h18, h19, h20⟩ p
  cases p <;> assumption

theorem only_iff (l : List Part) (s t : State) : only l s t ↔
    (.pending ∉ l → t.pending = s.pending) ∧ (.regs ∉ l → t.regs = s.regs) ∧ (.fr ∉ l → t.fr = s.fr) ∧
      (.mx ∉ l → t.mx = s.mx) ∧ (.fx ∉ l → t.fx = s.fx) ∧ (.ps ∉ l → t.ps = s.ps) ∧ (.sp ∉ l → t.sp = s.sp) ∧
      (.ai ∉ l → t.ai = s.ai) ∧ (.aq ∉ l → t.aq = s.aq) ∧ (.dp ∉ l → t.dp = s.dp) ∧ (.ck ∉ l → t.ck = s.ck) ∧
      (.sc ∉ l → t.sc = s.sc) ∧ (.hl ∉ l → hostRest t.hl = hostRest s.hl) ∧ (.st ∉ l → t.st = s.st) ∧
      (.tw ∉ l → busRest t.tw = busRest s.tw) ∧ (.sv ∉ l → t.sv = s.sv) ∧ (.pd ∉ l → t.pd = s.pd) ∧
      (.ct ∉ l → t.ct = s.ct) ∧ (.pl ∉ l → t.pl = s.pl) ∧ (.vc ∉ l → t.vc = s.vc) := by
  unfold only
  rw [parts_iff]
  simp only [Part.same]

theorem onlyCmd_iff (l : List Part) (s t : State) : onlyCmd l s t ↔
    (.pending ∉ l → t.pending = s.pending) ∧ (.regs ∉ l → t.regs = s.regs) ∧ (.fr ∉ l → t.fr = s.fr) ∧
      (.mx ∉ l → t.mx = s.mx) ∧ (.fx ∉ l → t.fx = s.fx) ∧ (.ps ∉ l → t.ps = s.ps) ∧ (.sp ∉ l → t.sp = s.sp) ∧
      (.ai ∉ l → t.ai = s.ai) ∧ (.aq ∉ l → t.aq = s.aq) ∧ (.dp ∉ l → t.dp = s.dp) ∧ (.ck ∉ l → t.ck = s.ck) ∧
      (.sc ∉ l → t.sc = s.sc) ∧ (.hl ∉ l → hostIdle t.hl = hostIdle s.hl) ∧ (.st ∉ l → t.st = s.st) ∧
      (.tw ∉ l → busIdle t.tw = busIdle s.tw) ∧ (.sv ∉ l → t.sv = s.sv) ∧ (.pd ∉ l → t.pd = s.pd) ∧
      (.ct ∉ l → t.ct = s.ct) ∧ (.pl ∉ l → t.pl = s.pl) ∧ (.vc ∉ l → t.vc = s.vc) := by
  unfold onlyCmd
  rw [parts_iff]
  simp only [Part.done, Part.same]

theorem onlyWork_iff (l : List Part) (s t : State) : onlyWork l s t ↔
    (.pending ∉ l → t.pending = s.pending) ∧ (.regs ∉ l → t.regs = s.regs) ∧ (.fr ∉ l → t.fr = s.fr) ∧
      (.mx ∉ l → t.mx = s.mx) ∧ (.fx ∉ l → t.fx = s.fx) ∧ (.ps ∉ l → t.ps = s.ps) ∧ (.sp ∉ l → t.sp = s.sp) ∧
      (.ai ∉ l → t.ai = s.ai) ∧ (.aq ∉ l → t.aq = s.aq) ∧ (.dp ∉ l → t.dp = s.dp) ∧ (.ck ∉ l → t.ck = s.ck) ∧
      (.sc ∉ l → t.sc = s.sc) ∧ (.hl ∉ l → hostWork t.hl = hostWork s.hl) ∧ (.st ∉ l → t.st = s.st) ∧
      (.tw ∉ l → busIdle t.tw = busIdle s.tw) ∧ (.sv ∉ l → t.sv = s.sv) ∧ (.pd ∉ l → t.pd = s.pd) ∧
      (.ct ∉ l → t.ct = s.ct) ∧ (.pl ∉ l → t.pl = s.pl) ∧ (.vc ∉ l → t.vc = s.vc) := by
  unfold onlyWork
  rw [parts_iff]
  simp only [Part.worked, Part.done, Part.same]

/-- Every part but some is exactly as before. -/
theorem exact_iff (q : Part → Prop) (s t : State) : (∀ p : Part, q p → p.exact s t) ↔
    (q .pending → t.pending = s.pending) ∧ (q .regs → t.regs = s.regs) ∧ (q .fr → t.fr = s.fr) ∧
      (q .mx → t.mx = s.mx) ∧ (q .fx → t.fx = s.fx) ∧ (q .ps → t.ps = s.ps) ∧ (q .sp → t.sp = s.sp) ∧
      (q .ai → t.ai = s.ai) ∧ (q .aq → t.aq = s.aq) ∧ (q .dp → t.dp = s.dp) ∧ (q .ck → t.ck = s.ck) ∧
      (q .sc → t.sc = s.sc) ∧ (q .hl → t.hl = s.hl) ∧ (q .st → t.st = s.st) ∧
      (q .tw → t.tw = s.tw) ∧ (q .sv → t.sv = s.sv) ∧ (q .pd → t.pd = s.pd) ∧
      (q .ct → t.ct = s.ct) ∧ (q .pl → t.pl = s.pl) ∧ (q .vc → t.vc = s.vc) := by
  rw [parts_iff]
  simp only [Part.exact, Part.same]

theorem exact_one_iff (a : Part) (s t : State) : (∀ p : Part, ¬p = a → p.exact s t) ↔
    (¬a = .pending → t.pending = s.pending) ∧ (¬a = .regs → t.regs = s.regs) ∧ (¬a = .fr → t.fr = s.fr) ∧
      (¬a = .mx → t.mx = s.mx) ∧ (¬a = .fx → t.fx = s.fx) ∧ (¬a = .ps → t.ps = s.ps) ∧
      (¬a = .sp → t.sp = s.sp) ∧ (¬a = .ai → t.ai = s.ai) ∧ (¬a = .aq → t.aq = s.aq) ∧
      (¬a = .dp → t.dp = s.dp) ∧ (¬a = .ck → t.ck = s.ck) ∧ (¬a = .sc → t.sc = s.sc) ∧
      (¬a = .hl → t.hl = s.hl) ∧ (¬a = .st → t.st = s.st) ∧ (¬a = .tw → t.tw = s.tw) ∧
      (¬a = .sv → t.sv = s.sv) ∧ (¬a = .pd → t.pd = s.pd) ∧ (¬a = .ct → t.ct = s.ct) ∧
      (¬a = .pl → t.pl = s.pl) ∧ (¬a = .vc → t.vc = s.vc) := by
  rw [parts_iff]
  simp only [Part.exact, Part.same, eq_comm]

theorem exact_two_iff (a b : Part) (s t : State) : (∀ p : Part, ¬p = a → ¬p = b → p.exact s t) ↔
    (¬a = .pending → ¬b = .pending → t.pending = s.pending) ∧ (¬a = .regs → ¬b = .regs → t.regs = s.regs) ∧
      (¬a = .fr → ¬b = .fr → t.fr = s.fr) ∧ (¬a = .mx → ¬b = .mx → t.mx = s.mx) ∧
      (¬a = .fx → ¬b = .fx → t.fx = s.fx) ∧ (¬a = .ps → ¬b = .ps → t.ps = s.ps) ∧
      (¬a = .sp → ¬b = .sp → t.sp = s.sp) ∧ (¬a = .ai → ¬b = .ai → t.ai = s.ai) ∧
      (¬a = .aq → ¬b = .aq → t.aq = s.aq) ∧ (¬a = .dp → ¬b = .dp → t.dp = s.dp) ∧
      (¬a = .ck → ¬b = .ck → t.ck = s.ck) ∧ (¬a = .sc → ¬b = .sc → t.sc = s.sc) ∧
      (¬a = .hl → ¬b = .hl → t.hl = s.hl) ∧ (¬a = .st → ¬b = .st → t.st = s.st) ∧
      (¬a = .tw → ¬b = .tw → t.tw = s.tw) ∧ (¬a = .sv → ¬b = .sv → t.sv = s.sv) ∧
      (¬a = .pd → ¬b = .pd → t.pd = s.pd) ∧ (¬a = .ct → ¬b = .ct → t.ct = s.ct) ∧
      (¬a = .pl → ¬b = .pl → t.pl = s.pl) ∧ (¬a = .vc → ¬b = .vc → t.vc = s.vc) := by
  rw [parts_iff]
  simp only [Part.exact, Part.same, eq_comm]

theorem exact_three_iff (a b c : Part) (s t : State) : (∀ p : Part, ¬p = a → ¬p = b → ¬p = c → p.exact s t) ↔
    (¬a = .pending → ¬b = .pending → ¬c = .pending → t.pending = s.pending) ∧
      (¬a = .regs → ¬b = .regs → ¬c = .regs → t.regs = s.regs) ∧
      (¬a = .fr → ¬b = .fr → ¬c = .fr → t.fr = s.fr) ∧ (¬a = .mx → ¬b = .mx → ¬c = .mx → t.mx = s.mx) ∧
      (¬a = .fx → ¬b = .fx → ¬c = .fx → t.fx = s.fx) ∧ (¬a = .ps → ¬b = .ps → ¬c = .ps → t.ps = s.ps) ∧
      (¬a = .sp → ¬b = .sp → ¬c = .sp → t.sp = s.sp) ∧ (¬a = .ai → ¬b = .ai → ¬c = .ai → t.ai = s.ai) ∧
      (¬a = .aq → ¬b = .aq → ¬c = .aq → t.aq = s.aq) ∧ (¬a = .dp → ¬b = .dp → ¬c = .dp → t.dp = s.dp) ∧
      (¬a = .ck → ¬b = .ck → ¬c = .ck → t.ck = s.ck) ∧ (¬a = .sc → ¬b = .sc → ¬c = .sc → t.sc = s.sc) ∧
      (¬a = .hl → ¬b = .hl → ¬c = .hl → t.hl = s.hl) ∧ (¬a = .st → ¬b = .st → ¬c = .st → t.st = s.st) ∧
      (¬a = .tw → ¬b = .tw → ¬c = .tw → t.tw = s.tw) ∧ (¬a = .sv → ¬b = .sv → ¬c = .sv → t.sv = s.sv) ∧
      (¬a = .pd → ¬b = .pd → ¬c = .pd → t.pd = s.pd) ∧ (¬a = .ct → ¬b = .ct → ¬c = .ct → t.ct = s.ct) ∧
      (¬a = .pl → ¬b = .pl → ¬c = .pl → t.pl = s.pl) ∧ (¬a = .vc → ¬b = .vc → ¬c = .vc → t.vc = s.vc) := by
  rw [parts_iff]
  simp only [Part.exact, Part.same, eq_comm]

theorem still_iff (l : List Part) (s t : State) : still l s t ↔ t.out = [] ∧
    (.pending ∉ l → t.pending = s.pending) ∧ (.regs ∉ l → t.regs = s.regs) ∧ (.fr ∉ l → t.fr = s.fr) ∧
      (.mx ∉ l → t.mx = s.mx) ∧ (.fx ∉ l → t.fx = s.fx) ∧ (.ps ∉ l → t.ps = s.ps) ∧ (.sp ∉ l → t.sp = s.sp) ∧
      (.ai ∉ l → t.ai = s.ai) ∧ (.aq ∉ l → t.aq = s.aq) ∧ (.dp ∉ l → t.dp = s.dp) ∧ (.ck ∉ l → t.ck = s.ck) ∧
      (.sc ∉ l → t.sc = s.sc) ∧ (.hl ∉ l → t.hl = s.hl) ∧ (.st ∉ l → t.st = s.st) ∧
      (.tw ∉ l → t.tw = s.tw) ∧ (.sv ∉ l → t.sv = s.sv) ∧ (.pd ∉ l → t.pd = s.pd) ∧
      (.ct ∉ l → t.ct = s.ct) ∧ (.pl ∉ l → t.pl = s.pl) ∧ (.vc ∉ l → t.vc = s.vc) := by
  unfold still
  rw [exact_iff]

@[simp] theorem atT_out (s : State) (t : Frac) : (atT s t).out = [] := rfl

@[simp] theorem atT_now (s : State) (t : Frac) : (atT s t).now = t := rfl

/-- What was raised before more was driven out was raised. -/
theorem raised_of_grows {s t u : State} {f : Frac} {code unit : Nat} {p : BitVec 128} (h : raised s f code unit p t)
    (g : Grows t u) : raised s f code unit p u := raisedAt_grows h g

/-- An event raised from a state whose ring is as open as the ring before. -/
theorem raised_emit_of {s t : State} {f : Frac} {code unit : Nat} {p : BitVec 128} {k : Nat} (h : evtOpen s (k + 1))
    (hl : t.hl = s.hl) (hf : t.fr.fn = s.fr.fn) (hn : t.now = f) : raised s f code unit p (emit t code unit p) :=
  raised_emit (evtOpen_of (evtOpen_mono h (by omega)) (by rw [hl]) (by simp [ringsOpen, hl]) (by rw [hl]) (by rw [hl])) hf hn

end Sys2Proof.Proofs.Frames

/-! A register write that is taken (R36, R300, R303, R304): its effect, on the state in which the write is noted. -/

namespace Sys2Proof.Proofs.Writes

open Sys2Proof Sys2Proof.Machine Sys2Proof.Safety Sys2Proof.Laws Sys2Proof.Proofs.Frames

/-- The state in which the effect of a write takes place: the write is noted, but for one that its register does not
take. -/
def noted (s : State) (t : Frac) (o : Owner) (off g : Nat) (ok : Bool) : State :=
  if ok then (noteWrite (atT s t) o off g).1 else atT s t

theorem directWrite_taken {s : State} {t : Frac} {o : Owner} {off g : Nat} (h : writeTaken s t o off g)
    (f : State → State) (ok : Bool) : directWrite (atT s t) o off g f ok = f (noted s t o off g ok) := by
  obtain ⟨hh, ho, hn⟩ := h
  have h1 : held (atT s t) = false := hh
  have h2 : owns (atT s t) o g = true := ho
  cases ok <;> simp [directWrite, inOrder, noted, h1, h2, hn]

/-- A write that its register does not take is not noted. -/
theorem directWrite_idle {s : State} {t : Frac} {o : Owner} {off g : Nat} {f : State → State} (hh : held s = false)
    (ho : owns s o g = true) : directWrite (atT s t) o off g f false = f (atT s t) := by
  have h1 : held (atT s t) = false := hh
  have h2 : owns (atT s t) o g = true := ho
  simp [directWrite, inOrder, h1, h2]

section
variable (s : State) (t : Frac) (o : Owner) (off g : Nat) (ok : Bool)

@[simp] theorem noted_keeps :
    (noted s t o off g ok).pending = s.pending ∧ (noted s t o off g ok).now = t ∧
    (noted s t o off g ok).regs = s.regs ∧ (noted s t o off g ok).fr = s.fr ∧ (noted s t o off g ok).mx = s.mx ∧
    (noted s t o off g ok).fx = s.fx ∧ (noted s t o off g ok).ps = s.ps ∧ (noted s t o off g ok).sp = s.sp ∧
    (noted s t o off g ok).ai = s.ai ∧ (noted s t o off g ok).aq = s.aq ∧ (noted s t o off g ok).dp = s.dp ∧
    (noted s t o off g ok).ck = s.ck ∧ (noted s t o off g ok).sc = s.sc ∧ (noted s t o off g ok).st = s.st ∧
    (noted s t o off g ok).sv = s.sv ∧ (noted s t o off g ok).pd = s.pd ∧ (noted s t o off g ok).ct = s.ct ∧
    (noted s t o off g ok).pl = s.pl ∧ (noted s t o off g ok).vc = s.vc ∧
    (noted s t o off g ok).hl.locked = s.hl.locked := by
  unfold noted
  split <;> simp

@[simp] theorem noted_busRest : busRest (noted s t o off g ok).tw = busRest s.tw := by
  unfold noted
  split <;> simp

end

/-- Noting a write raises at most one event, SUPERSEDED. -/
theorem noteWrite_evtOpen {s : State} {o : Owner} {off g k : Nat} (h : evtOpen s (k + 1)) :
    evtOpen (noteWrite s o off g).1 k := by
  have hs : ∀ (u : State) (a b : Owner), evtOpen u (k + 1) → evtOpen (superseded u a b off g true) k := by
    intro u a b hu
    unfold superseded
    simp only [if_true]
    split
    · exact evtOpen_mono (j := k) hu (by omega)
    · refine (emit_open (k := k) ?_ _ _ _).2
      exact hu
  unfold noteWrite
  dsimp only
  split
  · exact hs s _ _ h
  · split
    · refine hs _ _ _ ?_
      exact h
    · exact evtOpen_mono (j := k) h (by omega)

theorem noted_evtOpen {s : State} {t : Frac} {o : Owner} {off g k : Nat} (ok : Bool) (h : evtOpen s (k + 1)) :
    evtOpen (noted s t o off g ok) k := by
  unfold noted
  split
  · exact noteWrite_evtOpen (s := atT s t) h
  · exact evtOpen_mono (s := atT s t) h (by omega)

end Sys2Proof.Proofs.Writes

/-! Reading registers and their bits after a write of one of them; what happens in a boundary window alone. -/

namespace Sys2Proof.Proofs.Reads

open Sys2Proof Sys2Proof.Machine Sys2Proof.Safety Sys2Proof.Laws Sys2Proof.Proofs.Frames

/-- An answer through the form that the next state takes under the hypotheses. -/
theorem answers_eq {r : Res} {u v : State} {Q : State → Prop} (h : r = .next u) (e : u = v) (q : Q v) : Answers r Q :=
  ⟨v, e ▸ h, q⟩

/-! ### The boundary window -/

theorem atBoundary_open {s : State} {t : Frac} (h : inWindow s = true) (f : State → State) :
    atBoundary (atT s t) f = f (atT s t) := if_pos h

theorem atBoundary_closed {s : State} {t : Frac} (h : inWindow s = false) (f : State → State) :
    atBoundary (atT s t) f = atT s t := if_neg (by rw [show inWindow (atT s t) = false from h]; exact Bool.false_ne_true)

/-! ### Bits -/

theorem bit_eq_getLsbD (w : Word) (b : Nat) : bit w b = w.getLsbD b := by
  have h : w.toNat / 2 ^ b % 2 ^ 1 = (w.toNat >>> b) % 2 := by rw [Nat.shiftRight_eq_div_pow, pow_one]
  simp only [bit, fld, fldN, BitVec.getLsbD, Nat.testBit, show b + 1 - b = 1 by omega, h, Nat.one_and_eq_mod_two]
  obtain h | h := Nat.mod_two_eq_zero_or_one (w.toNat >>> b) <;> simp [h]

theorem testBit_fld (w : Word) (a b j : Nat) :
    (fld w a b).testBit j = (decide (j < a + 1 - b) && w.getLsbD (b + j)) := by
  simp only [fld, fldN, Nat.testBit_mod_two_pow, Nat.testBit_div_two_pow, BitVec.getLsbD, Nat.add_comm j b]

/-- A field is the same where its bits are. -/
theorem fld_congr {v w : Word} {a b : Nat} (h : ∀ j, b ≤ j → j ≤ a → v.getLsbD j = w.getLsbD j) :
    fld v a b = fld w a b := by
  refine Nat.eq_of_testBit_eq fun j => ?_
  rw [testBit_fld, testBit_fld]
  by_cases hj : j < a + 1 - b
  · rw [h (b + j) (by omega) (by omega)]
  · simp [hj]

theorem getLsbD_twoPow {b : Nat} (hb : b < 32) (j : Nat) : (BitVec.ofNat 32 (2 ^ b)).getLsbD j = decide (j = b) := by
  rw [BitVec.getLsbD_ofNat, Nat.testBit_two_pow]
  by_cases h : j = b
  · simp [h, hb]
  · simp [h, Ne.symm h]

section
variable (s : State) (n : RegName) (i : Nat)

theorem reg_setBit_same (b : Nat) (v : Bool) : reg (setBit s n i b v) n i =
    if v then reg s n i ||| BitVec.ofNat 32 (2 ^ b) else reg s n i &&& ~~~BitVec.ofNat 32 (2 ^ b) := by
  simp only [setBit, reg_setReg_same]

theorem reg_setBit_ne {m : RegName} {j : Nat} (b : Nat) (v : Bool) (h : regOff m j ≠ regOff n i) :
    reg (setBit s n i b v) m j = reg s m j := reg_setReg_ne s _ h

theorem rb_setBit_same {b : Nat} (hb : b < 32) (v : Bool) : rb (setBit s n i b v) n i b = v := by
  unfold rb
  rw [reg_setBit_same, bit_eq_getLsbD]
  cases v
  · rw [if_neg Bool.false_ne_true, BitVec.getLsbD_and, BitVec.getLsbD_not, getLsbD_twoPow hb]
    simp
  · rw [if_pos rfl, BitVec.getLsbD_or, getLsbD_twoPow hb]
    simp

/-- A bit that is written leaves the other bits and fields of its register. -/
theorem getLsbD_setBit {b j : Nat} (hb : b < 32) (hj : j ≠ b) (v : Bool) :
    (reg (setBit s n i b v) n i).getLsbD j = (reg s n i).getLsbD j := by
  rw [reg_setBit_same]
  cases v
  · rw [if_neg Bool.false_ne_true, BitVec.getLsbD_and, BitVec.getLsbD_not, getLsbD_twoPow hb]
    by_cases h : j < 32
    · simp [h, hj]
    · simp [BitVec.getLsbD_of_ge (reg s n i) j (by omega)]
  · rw [if_pos rfl, BitVec.getLsbD_or, getLsbD_twoPow hb]
    simp [hj]

theorem rf_setBit {b : Nat} (hb : b < 32) {hi lo : Nat} (h : b < lo ∨ hi < b) (v : Bool) :
    rf (setBit s n i b v) n i hi lo = rf s n i hi lo :=
  fld_congr fun j hlo hhi => getLsbD_setBit s n i hb (by omega) v

theorem rb_setBit_other {b c : Nat} (hb : b < 32) (h : c ≠ b) (v : Bool) :
    rb (setBit s n i b v) n i c = rb s n i c := by
  rw [rb, rb, bit_eq_getLsbD, bit_eq_getLsbD, getLsbD_setBit s n i hb h v]

theorem setBit_setBit_regs {b : Nat} (v w : Bool) :
    (setBit (setBit s n i b v) n i b w).regs = (setBit s n i b w).regs := by
  have hb : ∀ u : Word, (if w then (if v then u ||| BitVec.ofNat 32 (2 ^ b) else u &&& ~~~BitVec.ofNat 32 (2 ^ b)) |||
      BitVec.ofNat 32 (2 ^ b) else (if v then u ||| BitVec.ofNat 32 (2 ^ b) else u &&& ~~~BitVec.ofNat 32 (2 ^ b)) &&&
      ~~~BitVec.ofNat 32 (2 ^ b)) = if w then u ||| BitVec.ofNat 32 (2 ^ b) else u &&& ~~~BitVec.ofNat 32 (2 ^ b) := by
    intro u
    refine BitVec.eq_of_getLsbD_eq fun j hj => ?_
    cases v <;> cases w <;> simp [hj] <;> grind
  rw [show setBit (setBit s n i b v) n i b w = setReg (setBit s n i b v) n i _ from rfl, reg_setBit_same, hb]
  simp only [setBit, setReg_setReg]

end

end Sys2Proof.Proofs.Reads

/-! Reading a keyed part, a register or a domain of a state whose latest command came at another time. -/

namespace Sys2Proof.Proofs.Reads

open Sys2Proof Sys2Proof.Machine Sys2Proof.Safety Sys2Proof.Laws

section
variable (s : State) (t : Frac)

@[simp] theorem eng_atT (k : Nat) : eng (atT s t) k = eng s k := rfl

@[simp] theorem lane_atT (k : Nat) : lane (atT s t) k = lane s k := rfl

@[simp] theorem psCh_atT (k : Nat) : psCh (atT s t) k = psCh s k := rfl

@[simp] theorem spCh_atT (k : Nat) : spCh (atT s t) k = spCh s k := rfl

@[simp] theorem aiCh_atT (k : Nat) : aiCh (atT s t) k = aiCh s k := rfl

@[simp] theorem pdm_atT (k : Nat) : pdm (atT s t) k = pdm s k := rfl

@[simp] theorem pdmClk_atT (k : Nat) : pdmClk (atT s t) k = pdmClk s k := rfl

@[simp] theorem bias_atT (k : Nat) : bias (atT s t) k = bias s k := rfl

@[simp] theorem aiJack_atT (k : Nat) : aiJack (atT s t) k = aiJack s k := rfl

@[simp] theorem outp_atT (k : Nat) : outp (atT s t) k = outp s k := rfl

@[simp] theorem hpJack_atT (k : Nat) : hpJack (atT s t) k = hpJack s k := rfl

@[simp] theorem port_atT (k : Nat) : port (atT s t) k = port s k := rfl

@[simp] theorem pll_atT (k : Nat) : pll (atT s t) k = pll s k := rfl

@[simp] theorem refOf_atT (k : Nat) : refOf (atT s t) k = refOf s k := rfl

@[simp] theorem scEnt_atT (k : Nat) : scEnt (atT s t) k = scEnt s k := rfl

@[simp] theorem ctx_atT (k : Nat) : ctx (atT s t) k = ctx s k := rfl

@[simp] theorem grp_atT (k : Nat) : grp (atT s t) k = grp s k := rfl

@[simp] theorem ownerSlot_atT (k : Nat) : ownerSlot (atT s t) k = ownerSlot s k := rfl

@[simp] theorem conv_atT (k : Nat) : conv (atT s t) k = conv s k := rfl

@[simp] theorem die_atT (d : PowerDie) : die (atT s t) d = die s d := by cases d <;> rfl

@[simp] theorem reg_atT (n : RegName) (i : Nat) : reg (atT s t) n i = reg s n i := rfl

@[simp] theorem rf_atT (n : RegName) (i a b : Nat) : rf (atT s t) n i a b = rf s n i a b := rfl

@[simp] theorem rb_atT (n : RegName) (i b : Nat) : rb (atT s t) n i b = rb s n i b := rfl

@[simp] theorem domOn_atT (d : Nat) : domOn (atT s t) d = domOn s d := rfl

@[simp] theorem inWindow_atT : inWindow (atT s t) = inWindow s := rfl

@[simp] theorem computing_atT : computing (atT s t) = computing s := rfl

@[simp] theorem gang_atT : gang (atT s t) = gang s := rfl

@[simp] theorem owns_atT (o : Owner) (g : Nat) : owns (atT s t) o g = owns s o g := rfl

@[simp] theorem held_atT : held (atT s t) = held s := rfl

@[simp] theorem mirrors_atT (g : Nat) : mirrors (atT s t) g = mirrors s g := rfl

@[simp] theorem ringsOpen_atT : ringsOpen (atT s t) = ringsOpen s := rfl

end

section
variable (s : State) (code unit : Nat) (p : BitVec 128)

@[simp] theorem conv_emit (k : Nat) : conv (emit s code unit p) k = conv s k := by simp [conv]

@[simp] theorem die_emit (d : PowerDie) : die (emit s code unit p) d = die s d := by cases d <;> simp [die]

@[simp] theorem rf_emit (n : RegName) (i a b : Nat) : rf (emit s code unit p) n i a b = rf s n i a b := by simp [rf]

@[simp] theorem rb_emit (n : RegName) (i b : Nat) : rb (emit s code unit p) n i b = rb s n i b := by simp [rb]

@[simp] theorem domOn_emit (d : Nat) : domOn (emit s code unit p) d = domOn s d := by simp [domOn]

@[simp] theorem nowTicks_emit : nowTicks (emit s code unit p) = nowTicks s := nowTicks_of (by simp) (by simp)

end

/-- A pass over a list of keys that rewrites each value from itself, while `I` holds. -/
theorem each_keyed {β : Type} (get : State → Nat → β) {f : State → Nat → State} {I : State → Prop} {g : Nat → β → β}
    (hI : ∀ t c, I t → I (f t c)) (hf : ∀ t c k, I t → get (f t c) k = if k = c then g c (get t c) else get t k) :
    ∀ (l : List Nat), l.Nodup → ∀ s, I s → ∀ k, get (each l s f) k = if k ∈ l then g k (get s k) else get s k := by
  intro l
  induction l with
  | nil => intro _ s _ k; simp [each]
  | cons c r ih =>
    intro hn s hs k
    obtain ⟨hc, hr⟩ := List.nodup_cons.1 hn
    refine (ih hr (f s c) (hI s c hs) k).trans ?_
    rw [hf s c k hs]
    by_cases hk : k = c
    · subst hk
      simp [hc]
    · simp [hk]

end Sys2Proof.Proofs.Reads

/-! The real-time clock moves on in the power domain part alone. -/

namespace Sys2Proof.Proofs.Reads

open Sys2Proof Sys2Proof.Machine Sys2Proof.Safety Sys2Proof.Laws

section
variable (s : State) (t : Frac) (n : Nat)

theorem rtcAdvance_atT : rtcAdvance (atT s t) n = atT (rtcAdvance s n) t := by
  cases h : s.pd.oscOk
  · simp [rtcAdvance, h]
    rfl
  · simp [rtcAdvance, h]
    rfl

theorem rtcAdvance_eq : rtcAdvance s n = { s with pd := (rtcAdvance s n).pd } := by
  unfold rtcAdvance
  dsimp only
  split <;> rfl

@[simp] theorem reg_rtcAdvance (m : RegName) (i : Nat) : reg (rtcAdvance s n) m i = reg s m i := by
  rw [rtcAdvance_eq]
  rfl

@[simp] theorem rb_rtcAdvance (m : RegName) (i b : Nat) : rb (rtcAdvance s n) m i b = rb s m i b := by
  rw [rtcAdvance_eq]
  rfl

@[simp] theorem rf_rtcAdvance (m : RegName) (i a b : Nat) : rf (rtcAdvance s n) m i a b = rf s m i a b := by
  rw [rtcAdvance_eq]
  rfl

@[simp] theorem aiJack_rtcAdvance (j : Nat) : aiJack (rtcAdvance s n) j = aiJack s j := by
  rw [rtcAdvance_eq]
  rfl

@[simp] theorem hpJack_rtcAdvance (j : Nat) : hpJack (rtcAdvance s n) j = hpJack s j := by
  rw [rtcAdvance_eq]
  rfl

@[simp] theorem setAiJack_rtcAdvance_ai (j : Nat) (x : Jack) :
    (setAiJack (rtcAdvance s n) j x).ai = (setAiJack s j x).ai := by
  rw [rtcAdvance_eq]
  rfl

@[simp] theorem setHpJack_rtcAdvance_aq (j : Nat) (x : Jack) :
    (setHpJack (rtcAdvance s n) j x).aq = (setHpJack s j x).aq := by
  rw [rtcAdvance_eq]
  rfl

end

end Sys2Proof.Proofs.Reads

/-! The VCORE request (R476–R478). -/

namespace Sys2Proof.Proofs.Vcore

open Sys2Proof Sys2Proof.Machine Sys2Proof.Safety Sys2Proof.Laws
open Sys2Proof.Proofs.Frames Sys2Proof.Proofs.Writes

/-- A change of level that reaches the regulator: the code is driven, and the level sent. -/
theorem setVcore_sent {s : State} (h : s.vc.mute = false) (level : Nat) :
    setVcore s level .sent = { s with
      out := s.out ++ [.vid level, .twCtl (vcoreBytes level)]
      tw := { s.tw with vstuck := 0, vmsg := none }
      vc := { s.vc with level := level, sent := true } } := by
  simp [setVcore, sendVcore, push, h]

theorem exec_vcoreLevelRaise_high {s : State} {t : Frac} (hl : s.vc.lowSlack = true) (hm : s.vc.level < vidMax s)
    (r : CtlResult) : exec (.vcoreLevelRaise t r) s =
      .next (setVcore { atT s t with vc := { s.vc with lowSlack := false } } (s.vc.level + 1) r) := by
  have h : (s.vc.lowSlack && decide (s.vc.level < vidMax s)) = true := by simp [hl, hm]
  exact congrArg _ (if_pos h)

theorem exec_vcoreLevelRaise_idle {s : State} {t : Frac} (h : s.vc.lowSlack = false ∨ vidMax s ≤ s.vc.level)
    (r : CtlResult) : exec (.vcoreLevelRaise t r) s = .next { atT s t with vc := { s.vc with lowSlack := false } } := by
  have h : ¬ (s.vc.lowSlack && decide (s.vc.level < vidMax s)) = true := by
    obtain h | h := h
    · simp [h]
    · simp [Nat.not_lt.mpr h]
  exact congrArg _ (if_neg h)

theorem exec_vcoreLevelLower_low {s : State} {t : Frac} (hl : s.vc.lastLow + 60 * tSec ≤ nowTicks (atT s t))
    (hp : 0 < s.vc.level) (r : CtlResult) : exec (.vcoreLevelLower t r) s =
      .next (setVcore { atT s t with vc := { s.vc with lastLow := nowTicks (atT s t) } } (s.vc.level - 1) r) := by
  have h : (decide (s.vc.lastLow + 60 * tSec ≤ nowTicks (atT s t)) && decide (0 < s.vc.level)) = true := by simp [hl, hp]
  exact congrArg _ (if_pos h)

theorem fld_and_vidMask (v : Word) : fld (v &&& 0x300) 9 8 = fld v 9 8 := by
  have h : (v.toNat &&& 768) / 256 = v.toNat / 256 % 4 := by
    rw [show 256 = 2 ^ 8 from rfl, Nat.and_div_two_pow]
    exact Nat.and_two_pow_sub_one_eq_mod _ 2
  simp [fld, fldN, h]

/-- A lower MAX lowers the level at once (R478). -/
theorem writeVid_lower {s : State} {v : Word} (h : fld v 9 8 < s.vc.level) (r : CtlResult) :
    writeVid s v r = setVcore (setReg s .ctVid 0 (v &&& 0x300)) (fld v 9 8) r := by
  have hm : vidMax (setReg s .ctVid 0 (v &&& 0x300)) = fld v 9 8 := by
    simp only [vidMax, rf, reg_setReg_same, fld_and_vidMask]
  unfold writeVid
  dsimp only
  rw [hm]
  exact if_pos h

/-- Settles O39. -/
theorem vcoreRequest : Obligations.VcoreRequest := by
  unfold Obligations.VcoreRequest
  refine ⟨fun t s hl hm hu => ?_, fun t r s h => ?_, fun t s hl hp hu => ?_, fun t o v s hw hl hv hu => ?_,
    fun t o v r s hh ho hl => ?_⟩
  · refine ⟨_, exec_vcoreLevelRaise_high hl hm _, ?_⟩
    rw [setVcore_sent (by exact hu)]
    simp [exact_two_iff]
  · refine ⟨_, exec_vcoreLevelRaise_idle h _, ?_⟩
    simp [still_iff]
  · refine ⟨_, exec_vcoreLevelLower_low hl hp _, ?_⟩
    rw [setVcore_sent (by exact hu)]
    simp [exact_two_iff]
  · refine ⟨_, rfl, ?_⟩
    rw [directWrite_taken hw]
    have hlev : fld v 9 8 < (noted s t o 0x24 0x38 (!(atT s t).hl.locked)).vc.level := by simpa using hv
    rw [if_neg (by simp [hl]), writeVid_lower hlev, setVcore_sent (by simpa using hu)]
    simp [only_iff, vidMax, rf, reg, setReg, tget_tput_same]
    exact fld_and_vidMask v
  · refine ⟨_, rfl, ?_⟩
    have he : (!(atT s t).hl.locked) = false := by simp [hl]
    rw [he, directWrite_idle hh ho, if_pos (by simp [hl])]
    simp [still_iff]

end Sys2Proof.Proofs.Vcore

/-! The checks that every Hepex command shares (R302, R303, R431, R486). -/

namespace Sys2Proof.Proofs.Checks

open Sys2Proof Sys2Proof.Machine Sys2Proof.Safety Sys2Proof.Laws Sys2Proof.Proofs.Frames

/-! ### A command that completes at once -/

theorem openSlot_owns (s : State) (t : Frac) (op : Nat) (c : Cmd) (o : Owner) (g : Nat) :
    owns (openSlot (atT s t) op c).1 o g = owns s o g := by
  simp [owns, rb, reg]

theorem hostIdle_busy {a b : HostSide} (h : hostIdle a = hostIdle b) : a.busy = b.busy :=
  show (hostIdle a).busy = (hostIdle b).busy from congrArg HostSide.busy h

theorem opened_busy {s u : State} {t : Frac} {op : Nat} {c : Cmd} (h : Opened s t op c u) : u.hl.busy = s.hl.busy :=
  (congrArg HostSide.busy h.host :)

/-- The completion leaves every part but the host link and the bus. -/
theorem onlyCmd_finish {l : List Part} {s u : State} {n status result : Nat}
    (hu : ∀ p : Part, p ∉ l → p ≠ .hl → p ≠ .tw → p.same s u)
    (hh : .hl ∉ l → hostIdle (finish u n status result).hl = hostIdle s.hl)
    (ht : .tw ∉ l → busIdle (finish u n status result).tw = busIdle s.tw) : onlyCmd l s (finish u n status result) := by
  intro p hp
  cases p with
  | hl => exact hh hp
  | tw => exact ht hp
  | _ => simpa [Part.done, Part.same] using hu _ hp

/-- A command that completes from the state in which it is open. -/
theorem finish_opened {s u : State} {t : Frac} {op : Nat} {c : Cmd} (hi : inHand s op c = true) (ha : answerable s c)
    (h : Opened s t op c u) (hu : ∀ p : Part, p ≠ .hl → p ≠ .tw → p.same s u) (status result : Nat) :
    completed c op status result s (finish u s.hl.nextSlot status result) ∧
      onlyCmd [] s (finish u s.hl.nextSlot status result) := by
  obtain ⟨ho, hb, hr⟩ := ha
  have htaken : inHand s op c = true := hi
  obtain ⟨hc, hh, ht, -, -⟩ := finish_slot (s := s) (u := u) (status := status) (result := result) h.order
    (fun hx => h.open_.trans (hr hx).1) (.inl ((opened_busy h).trans hb)) h.cmp (inHand_peer htaken)
  refine ⟨hc, onlyCmd_finish (fun p _ => hu p) (fun _ => hh.trans ?_) fun _ => ht.trans h.bus⟩
  have hhost : ({ hostIdle u.hl with order := [] } : HostSide) = { hostIdle s.hl with order := [] } := h.host
  calc ({ hostIdle u.hl with order := [], busy := none } : HostSide)
      = { ({ hostIdle u.hl with order := [] } : HostSide) with busy := none } := rfl
    _ = { ({ hostIdle s.hl with order := [] } : HostSide) with busy := none } := by rw [hhost]
    _ = hostIdle s.hl := by rw [← ho, ← hb]; rfl

theorem openSlot_same {s : State} {t : Frac} {op : Nat} {c : Cmd} (p : Part) (hh : p ≠ .hl) (ht : p ≠ .tw) :
    p.same s (openSlot (atT s t) op c).1 := by
  cases p with
  | hl => exact absurd rfl hh
  | tw => exact absurd rfl ht
  | _ => simp [Part.same]

/-- A command that one of the checks answers with a status alone. -/
theorem finish_openSlot {s : State} {t : Frac} {op : Nat} {c : Cmd} (hi : inHand s op c = true) (ha : answerable s c)
    (status result : Nat) :
    completed c op status result s (finish (openSlot (atT s t) op c).1 s.hl.nextSlot status result) ∧
      onlyCmd [] s (finish (openSlot (atT s t) op c).1 s.hl.nextSlot status result) :=
  finish_opened hi ha (openSlot_opened ha.1 fun hc => (ha.2.2 hc).2) openSlot_same status result

/-! ### The checks in their order -/

section
variable {s : State} {t : Frac} {op : Nat} {c : Cmd} {gs : List Nat} {use : PwUse} {ok : Bool}
  {k : State → Nat → State}

theorem runCmd_notInHand (h : inHand s op c = false) : runCmd s t op c gs use ok k = .next (atT s t) := by
  have h' : inHand (atT s t) op c = false := h
  simp [runCmd, h']

theorem runCmd_recovery (h : inHand s op c = true) (hr : s.ct.phase = .recovery) (ho : op ∉ recoveryOps) :
    runCmd s t op c gs use ok k =
      .next (finish (openSlot (atT s t) op c).1 s.hl.nextSlot stBadOpcode noIndex) := by
  have h' : inHand (atT s t) op c = true := h
  simp only [runCmd, h', openSlot_keeps, atT_keeps, hr]
  simp [ho, openSlot, atT]

/-- The groups that a command touches and whose owner its sender is not. -/
def lacking (s : State) (c : Cmd) (gs : List Nat) : List Nat := gs.filter fun g => !owns s c.src g

theorem runCmd_notOwner (h : inHand s op c = true) (hr : s.ct.phase ≠ .recovery) {g : Nat} (hg : g ∈ gs)
    (ho : owns s c.src g = false) :
    runCmd s t op c gs use ok k = .next (finish
      (ownerRefuse (openSlot (atT s t) op c).1 c.src (0x80000000 + op) (lacking s c gs)) s.hl.nextSlot stNotOwner
        noIndex) := by
  have h' : inHand (atT s t) op c = true := h
  have hl : (lacking s c gs).isEmpty = false := by
    rw [List.isEmpty_eq_false_iff_exists_mem]
    exact ⟨g, by simp [lacking, hg, ho]⟩
  simp only [runCmd, h', openSlot_owns, openSlot_keeps, atT_keeps]
  rw [show gs.filter (fun g => !owns s c.src g) = lacking s c gs from rfl, hl]
  simp [hr, openSlot, atT]

theorem runCmd_badField (h : inHand s op c = true) (hr : s.ct.phase ≠ .recovery) (hg : ∀ g ∈ gs, owns s c.src g = true)
    (hf : fieldsOk c use = false ∨ ok = false) :
    runCmd s t op c gs use ok k =
      .next (finish (openSlot (atT s t) op c).1 s.hl.nextSlot stBadParam noIndex) := by
  have h' : inHand (atT s t) op c = true := h
  have hl : gs.filter (fun g => !owns s c.src g) = [] := List.filter_eq_nil_iff.2 fun g hm => by simp [hg g hm]
  have hfield : (fieldsOk c use && ok) = false := by
    obtain hf | hf := hf <;> simp [hf]
  simp only [runCmd, h', openSlot_owns, openSlot_keeps, atT_keeps, hl, hfield]
  simp [hr, openSlot, atT]

end

/-! ### The owner's refusal -/

/-- The host side but for the count of refused writes and commands. -/
def refusalRest (a : HostSide) : HostSide := { hostRest a with ownerDropped := 0, refusedAt := [] }

theorem refusedEvent_rest (s : State) (o : Owner) (tag g : Nat) :
    refusalRest (refusedEvent s o tag g).hl = refusalRest s.hl ∧
      (refusedEvent s o tag g).hl.ownerDropped = s.hl.ownerDropped := by
  have hcount : ∀ a b : HostSide, hostRest a = hostRest b → a.ownerDropped = b.ownerDropped := fun _ _ h =>
    (congrArg HostSide.ownerDropped h :)
  unfold refusedEvent
  split
  · exact ⟨rfl, rfl⟩
  · refine ⟨?_, ?_⟩
    · unfold refusalRest
      rw [emit_rest]
      rfl
    · rw [hcount _ _ emit_rest]

theorem ownerRefuse_rest (s : State) (o : Owner) (tag : Nat) (gs : List Nat) :
    refusalRest (ownerRefuse s o tag gs).hl = refusalRest s.hl ∧
      (ownerRefuse s o tag gs).hl.ownerDropped = inc32 s.hl.ownerDropped := by
  unfold ownerRefuse
  refine ⟨?_, ?_⟩
  · exact each_keeps (fun u : State => refusalRest u.hl) fun u g => (refusedEvent_rest u o tag g).1
  · exact each_keeps (fun u : State => u.hl.ownerDropped) fun u g => (refusedEvent_rest u o tag g).2

/-- A command that a check on its owner answers: its completion, and the count. -/
theorem finish_ownerRefuse {s : State} {t : Frac} {op : Nat} {c : Cmd} (hi : inHand s op c = true) (ha : answerable s c)
    (tag : Nat) (gs : List Nat) (status result : Nat) :
    let s' := finish (ownerRefuse (openSlot (atT s t) op c).1 c.src tag gs) s.hl.nextSlot status result
    completed c op status result s s' ∧ refusalRest (hostIdle s'.hl) = refusalRest (hostIdle s.hl) ∧
      s'.hl.ownerDropped = inc32 s.hl.ownerDropped ∧ onlyCmd [.hl] s s' := by
  intro s'
  obtain ⟨ho, hb, hr⟩ := ha
  have h := openSlot_opened (t := t) (op := op) ho fun hc => (hr hc).2
  obtain ⟨hrest, hcount⟩ := ownerRefuse_rest (openSlot (atT s t) op c).1 c.src tag gs
  have hof : ∀ {β : Type} (f : HostSide → β), (∀ a, f a = f (refusalRest a)) →
      f (ownerRefuse (openSlot (atT s t) op c).1 c.src tag gs).hl = f (openSlot (atT s t) op c).1.hl := by
    intro β f hf
    rw [hf, hrest, ← hf]
  have hopen : ringsOpen (ownerRefuse (openSlot (atT s t) op c).1 c.src tag gs) = ringsOpen s := by
    refine Eq.trans ?_ h.open_
    simp only [ringsOpen]
    rw [hof (·.linkUp) fun _ => rfl, hof (·.dstate) fun _ => rfl, hof (·.fn) fun _ => rfl]
  obtain ⟨hc, hh, ht, -, -⟩ := finish_slot (s := s) (u := ownerRefuse (openSlot (atT s t) op c).1 c.src tag gs)
    (status := status) (result := result) ((hof (·.order) fun _ => rfl).trans h.order)
    (fun hx => hopen.trans (hr hx).1) (.inl ((hof (·.busy) fun _ => rfl).trans ((opened_busy h).trans hb)))
    ((hof (·.cmp) fun _ => rfl).trans h.cmp) (inHand_peer hi)
  refine ⟨hc, ?_, ?_, onlyCmd_finish ?_ (fun hp => absurd (by simp) hp) fun _ => ht.trans ?_⟩
  · have hhost : ({ hostIdle (openSlot (atT s t) op c).1.hl with order := [] } : HostSide) =
        { hostIdle s.hl with order := [] } := h.host
    calc refusalRest (hostIdle s'.hl)
        = { refusalRest (hostIdle (ownerRefuse (openSlot (atT s t) op c).1 c.src tag gs).hl) with
            order := [], busy := none } := congrArg refusalRest hh
      _ = { refusalRest ({ hostIdle (openSlot (atT s t) op c).1.hl with order := [] } : HostSide) with
            order := [], busy := none } :=
          hof (fun a => { refusalRest (hostIdle a) with order := [], busy := none }) fun _ => rfl
      _ = { refusalRest ({ hostIdle s.hl with order := [] } : HostSide) with order := [], busy := none } := by rw [hhost]
      _ = refusalRest (hostIdle s.hl) := by rw [← ho, ← hb]; rfl
  · have hslot : (openSlot (atT s t) op c).1.hl.ownerDropped = s.hl.ownerDropped := by
      unfold openSlot
      dsimp only
      split <;> rfl
    exact (congrArg HostSide.ownerDropped hh).trans (hcount.trans (congrArg inc32 hslot))
  · intro p _ hnh hnt
    cases p with
    | hl => exact absurd rfl hnh
    | tw => exact absurd rfl hnt
    | _ => simp [Part.same]
  · exact (busIdle_of_rest ownerRefuse_busRest).trans h.bus

theorem refusalRest_locked {a b : HostSide} (h : refusalRest (hostIdle a) = refusalRest (hostIdle b)) :
    a.locked = b.locked :=
  show (refusalRest (hostIdle a)).locked = (refusalRest (hostIdle b)).locked from congrArg HostSide.locked h

/-- Settles O60: each check answers with its status and no other effect, and a row whose command is not in hand has
none. -/
theorem commandChecks : Obligations.CommandChecks := by
  unfold Obligations.CommandChecks
  refine ⟨fun t op c gs u ok k s hi ha hr ho => ?_, fun t op g c gs u ok k s hi ha hr hg ho => ?_,
    fun t op c gs u ok k s hi ha hr hg hf => ?_, fun t c s hi ha hr ho => ?_, fun t op c gs u ok k s hi => ?_⟩
  · exact ⟨_, runCmd_recovery hi hr ho, finish_openSlot hi ha _ _⟩
  · obtain ⟨hc, -, hcount, honly⟩ := finish_ownerRefuse (t := t) hi ha (0x80000000 + op) (lacking s c gs) stNotOwner
      noIndex
    exact ⟨_, runCmd_notOwner hi hr hg ho, hc, hcount, honly⟩
  · exact ⟨_, runCmd_badField hi hr hg hf, finish_openSlot hi ha _ _⟩
  · obtain ⟨hc, hrest, -, honly⟩ := finish_ownerRefuse (t := t) hi ha (0x80000000 + 0x0002) (lacking s c [0x38])
      stNotOwner noIndex
    simp only [exec, execSetupLock]
    exact ⟨_, runCmd_notOwner (gs := [0x38]) hi hr (List.mem_singleton.2 rfl) ho, hc, refusalRest_locked hrest, honly⟩
  · exact ⟨_, runCmd_notInHand hi, SetupLock.still_atT s t⟩

end Sys2Proof.Proofs.Checks

/-! EVENTS_LOST behind a record that waits (R295, R308). -/

namespace Sys2Proof.Proofs.EventsLost

open Sys2Proof Sys2Proof.Machine Sys2Proof.Safety

/-- The record that waited first, before the ring filled: LINK_STATE. -/
def waited : Event := { code := 0x0A07, unit := noUnit, fn := 0, frac := 0, payload := 0 }

/-- An event ring of two entries, empty, of which one is always left free: it has room for one record. One record
waits, and after it one event was lost. -/
def backlog : State := { State.reset with
  hl := { HostSide.reset with
    evt := { Ring.reset with en := true, size := 1 }
    linkUp := true, dstate := 0, fn := { HostSide.reset.fn with busMaster := true }
    waiting := [waited], lostAt := 1, lost := 1 } }

theorem backlog_room : backlog.hl.lost ≠ 0 ∧ ringsOpen backlog = true ∧ evtRoom backlog = true := by decide

/-- The record that waits takes the room there is, and the loss is still to be reported. -/
theorem writeWaiting_backlog_lost : (writeWaiting (atT backlog 0)).hl.lost = 1 := by decide

/-- Refutes O29: its clause on EVENTS_LOST says that the loss is reported as soon as the ring has room for a record,
but the records that waited when it happened are written before it, and may take that room. -/
theorem not_linkCommandsAndLink : ¬ Obligations.LinkCommandsAndLink := by
  unfold Obligations.LinkCommandsAndLink
  rintro ⟨-, -, -, -, hlost, -⟩
  obtain ⟨hne, hopen, hroom⟩ := backlog_room
  obtain ⟨_, hs', -, hzero, -⟩ := hlost 0 backlog hne hopen hroom
  cases hs'
  exact absurd (writeWaiting_backlog_lost.symm.trans hzero) (by decide)

end Sys2Proof.Proofs.EventsLost

/-! Commands that pass the checks: they complete, or become a long operation (R293, R300, R486). -/

namespace Sys2Proof.Proofs.Checks

open Sys2Proof Sys2Proof.Machine Sys2Proof.Safety Sys2Proof.Laws Sys2Proof.Proofs.Frames

section
variable {s u v : State} {t : Frac} {op : Nat} {c : Cmd} {gs : List Nat}

theorem opened_taken (h : cmdTaken s c op gs) : Opened s t op c (openSlot (atT s t) op c).1 := by
  obtain ⟨-, ho, hr, -⟩ := h
  exact openSlot_opened ho fun hc => (hr hc).2

/-- What a command does to its own parts leaves it open. -/
theorem opened_of_eq (h : Opened s t op c u) (hh : v.hl = u.hl) (ht : v.tw = u.tw) (hn : v.now = u.now) :
    Opened s t op c v := by
  obtain ⟨h1, h2, h3, h4, h5, h6, h7⟩ := h
  exact ⟨hh ▸ h1, hh ▸ h2, hh ▸ h3, ht ▸ h4, hn ▸ h5, hh ▸ h6, (by simp only [ringsOpen, hh] : ringsOpen v = ringsOpen u).trans h7⟩

/-- A command that completes leaves the host side and the bus as they were, but for the completion. -/
theorem finish_ready (h : cmdReady s c op gs) (hu : Opened s t op c u) (status result : Nat) :
    completed c op status result s (finish u s.hl.nextSlot status result) ∧
      hostIdle (finish u s.hl.nextSlot status result).hl = hostIdle s.hl ∧
      busIdle (finish u s.hl.nextSlot status result).tw = busIdle s.tw := by
  obtain ⟨hr, hb⟩ := h
  obtain ⟨hc, hh, ht, -⟩ := finish_alone (status := status) (result := result) hu hr (.inl ((congrArg HostSide.busy hu.host :).trans hb))
  refine ⟨hc, hh.trans ?_, ht⟩
  rw [show ({ hostIdle s.hl with busy := none } : HostSide) = { hostIdle s.hl with busy := s.hl.busy } by rw [hb]]
  rfl

theorem cmdData_openSlot (s : State) (t : Frac) (op : Nat) (c : Cmd) (d : Dma) (i n : Nat) :
    cmdData (openSlot (atT s t) op c).1 c d i n = cmdData s c d i n := by
  have hbuf : (openSlot (atT s t) op c).1.tw.buf = s.tw.buf := by
    unfold openSlot
    dsimp only
    split <;> rfl
  simp only [cmdData, hbuf]

/-- A command that becomes a long operation. -/
theorem startLong_ready {l : LongOp} (h : longReady s c op gs) :
    begun c op l (startLong (openSlot (atT s t) op c).1 op s.hl.nextSlot l) ∧
      onlyWork [] s (startLong (openSlot (atT s t) op c).1 op s.hl.nextSlot l) := by
  obtain ⟨hb, hh, ht⟩ := startLong_begun (l := l) (opened_taken (t := t) h.1) h (opened_busy (opened_taken (t := t) h.1))
  refine ⟨hb, ?_⟩
  simp only [onlyWork_iff, hh, ht]
  simp

theorem bindTo_openSlot (s : State) (t : Frac) (op : Nat) (c : Cmd) : bindTo (openSlot (atT s t) op c).1 = bindTo s := by
  simp [bindTo]

/-- What a command stages for the next boundary. -/
theorem stage_openSlot_fr (s : State) (t : Frac) (op : Nat) (c : Cmd) (o : Owner) (i : Item) :
    (stage (openSlot (atT s t) op c).1 o i).fr = { s.fr with
      staged := s.fr.staged ++ [{ owner := o, bound := bindTo s, item := i, at_ := frTime (atT s t) }] } := by
  have htime : frTime (openSlot (atT s t) op c).1 = frTime (atT s t) := by simp [frTime]
  simp only [stage, stageAt, bindTo_openSlot, htime]
  simp

/-- A command that stages an item completes with the boundary it is bound to. -/
theorem stage_ready (h : cmdReady s c op gs) (i : Item) (status result : Nat) :
    (finish (stage (openSlot (atT s t) op c).1 c.src i) s.hl.nextSlot status result).fr = { s.fr with
        staged := s.fr.staged ++ [{ owner := c.src, bound := bindTo s, item := i, at_ := frTime (atT s t) }] } ∧
      completed c op status result s (finish (stage (openSlot (atT s t) op c).1 c.src i) s.hl.nextSlot status result) ∧
      onlyCmd [.fr] s (finish (stage (openSlot (atT s t) op c).1 c.src i) s.hl.nextSlot status result) := by
  obtain ⟨hc, hh, ht⟩ := finish_ready h (opened_of_eq (v := stage (openSlot (atT s t) op c).1 c.src i)
    (opened_taken (t := t) h.1) rfl rfl rfl) status result
  refine ⟨?_, hc, ?_⟩
  · rw [← stage_openSlot_fr s t op c]
    simp only [finish_keeps]
  · simp only [onlyCmd_iff, hh, ht]
    simp [stage, stageAt]

/-- A command that is answered with a status and changes nothing else. -/
theorem answer_ready (h : cmdReady s c op gs) (status result : Nat) :
    completed c op status result s (finish (openSlot (atT s t) op c).1 s.hl.nextSlot status result) ∧
      onlyCmd [] s (finish (openSlot (atT s t) op c).1 s.hl.nextSlot status result) :=
  finish_openSlot h.1.1 ⟨h.1.2.1, h.2, h.1.2.2.1⟩ status result

end

end Sys2Proof.Proofs.Checks

/-! Serial ports: their enable and formats, acquisition, loss and end (R218–R224, R243). -/

namespace Sys2Proof.Proofs.Ports

open Sys2Proof Sys2Proof.Machine Sys2Proof.Safety Sys2Proof.Laws
open Sys2Proof.Proofs.Frames Sys2Proof.Proofs.Writes Sys2Proof.Proofs.Reads

/-! ### The clock references follow the ports (R243) -/

/-- Whether a source is invalid is a matter of the ports, the registers and the rate. -/
theorem refInvalid_congr {s u : State} (hd : u.dp = s.dp) (hr : u.regs = s.regs) (hf : u.fr = s.fr) (i : Nat) :
    refInvalid u i = refInvalid s i := by
  rw [show refInvalid u i = refInvalid { s with dp := u.dp, regs := u.regs, fr := u.fr } i from rfl, hd, hr, hf]

theorem refFollow_dp_regs_fr (s : State) (i : Nat) :
    (refFollow s i).dp = s.dp ∧ (refFollow s i).regs = s.regs ∧ (refFollow s i).fr = s.fr := by simp

/-- Leaving a state changes one source alone. -/
theorem refOf_leaveRef (s : State) (i j cause : Nat) (n : RefState) :
    (refOf (leaveRef s i cause n) j).st = if j = i then n else (refOf s j).st := by
  have hck : ∀ (x : Ref) (c u : Nat) (p : BitVec 128), refOf (emit (setRef s i x) c u p) j = refOf (setRef s i x) j :=
    fun x c u p => by simp [refOf]
  unfold leaveRef
  dsimp only
  by_cases hj : j = i
  · subst hj
    split <;> simp [hck]
  · split <;> simp [hck, refOf_setRef_ne, hj]

theorem refOf_refFollow_ne {s : State} {i j : Nat} (h : j ≠ i) : (refOf (refFollow s i) j).st = (refOf s j).st := by
  unfold refFollow draw
  dsimp only
  (repeat' split) <;> (simp [refOf_leaveRef, refOf_setRef_ne, h]; try rfl)

theorem refFollow_invalid_iff {s : State} {i : Nat} (he : rb s .ckRefCfg i 31 = true) :
    (refOf (refFollow s i) i).st = .invalid ↔ refInvalid s i = true := by
  have hst : ∀ u cause n, (refOf (leaveRef u i cause n) i).st = n := fun u cause n => by simp [refOf_leaveRef]
  unfold refFollow
  simp only [he]
  cases hi : refInvalid s i
  · by_cases h : (refOf s i).st = .disabled ∨ (refOf s i).st = .invalid
    · simp [h]
    · simp only [not_or] at h
      simp [h]
  · by_cases h : (refOf s i).st = .invalid <;> simp [h, hst]

theorem refFollow_each (l : List Nat) (hn : l.Nodup) (s : State) {i : Nat} (hi : i ∈ l) (he : rb s .ckRefCfg i 31 = true) :
    (refOf (each l s refFollow) i).st = .invalid ↔ refInvalid s i = true := by
  induction l generalizing s with
  | nil => exact absurd hi List.not_mem_nil
  | cons a r ih =>
    obtain ⟨ha, hr⟩ := List.nodup_cons.1 hn
    obtain ⟨hd, hg, hf⟩ := refFollow_dp_regs_fr s a
    have hstep : each (a :: r) s refFollow = each r (refFollow s a) refFollow := rfl
    rw [hstep]
    obtain rfl | hir := List.mem_cons.1 hi
    · have hkeep : ∀ (l : List Nat), i ∉ l → ∀ u : State,
          (refOf (each l u refFollow) i).st = (refOf u i).st := by
        intro l
        induction l with
        | nil => exact fun _ _ => rfl
        | cons b q ihq =>
          intro hb u
          obtain ⟨hib, hiq⟩ := (not_or.1 fun h => hb (List.mem_cons.2 h) : _ ∧ _)
          exact (ihq hiq (refFollow u b)).trans (refOf_refFollow_ne hib)
      rw [hkeep r ha]
      exact refFollow_invalid_iff he
    · rw [ih hr _ hir (by simpa [rb, reg, hg] using he), refInvalid_congr hd hg hf]

/-- Once the sources have followed, a source is INVALID just where R243 makes it so. -/
theorem refsFollow_refFollowAll (s : State) : refsFollow (refFollowAll s) := by
  intro i hi he
  have hregs : (refFollowAll s).regs = s.regs := by simp
  have he' : rb s .ckRefCfg i 31 = true := by simpa [rb, reg, hregs] using he
  rw [refInvalid_congr (s := s) (by simp) hregs (by simp)]
  exact refFollow_each allRefs (by decide) s hi he'

theorem leaveRef_grows (s : State) (i cause : Nat) (n : RefState) : Grows s (leaveRef s i cause n) := by
  unfold leaveRef
  dsimp only
  split
  · refine Grows.trans ?_ (emit_grows _ _ _ _)
    exact .of_eq rfl
  · exact .of_eq rfl

theorem refFollow_grows (s : State) (i : Nat) : Grows s (refFollow s i) := by
  unfold refFollow draw
  dsimp only
  split
  · split
    · exact .refl s
    · split
      · refine Grows.trans ?_ (leaveRef_grows _ _ _ _)
        exact .of_eq rfl
      · exact leaveRef_grows _ _ _ _
  · split
    · split
      · exact .refl s
      · exact leaveRef_grows _ _ _ _
    · split
      · exact .of_eq rfl
      · exact .refl s

theorem refFollowAll_grows (s : State) : Grows s (refFollowAll s) := each_grows refFollow_grows allRefs s

/-- The sources follow: only the clocks, and the event machinery. -/
theorem only_refFollowAll {l : List Part} {s u : State} (h : only l s u) (hck : .ck ∈ l) :
    only l s (refFollowAll u) := by
  rw [only_iff] at h ⊢
  simpa [hck] using h

/-! ### EN of a port -/

theorem reg_dpFmt_setBit (s : State) (p q : Nat) (v : Bool) : reg (setBit s .dpCtrl p 0 v) .dpFmt q = reg s .dpFmt q := by
  refine reg_setBit_ne s _ _ _ _ ?_
  simp only [regOff, regPlace]
  omega

theorem applyDpCtrl_one (s : State) (p : Nat) : applyDpCtrl s p 1 = portEnable s p := rfl

theorem applyDpCtrl_zero (s : State) (p : Nat) : applyDpCtrl s p 0 = portStop (setBit s .dpCtrl p 0 false) p := rfl

/-- The switch of EN in a boundary window: what the port's own step makes, and the sources that follow it. -/
theorem exec_portEnable {s : State} {t : Frac} {p : Fin 8} (h : inWindow s = true) :
    exec (.portEnable t p) s = .next (refFollowAll (portEnable (atT s t) p.val)) :=
  congrArg _ (atBoundary_open h _)

theorem exec_portDisable {s : State} {t : Frac} {p : Fin 8} (h : inWindow s = true) :
    exec (.portDisable t p) s = .next (refFollowAll (portStop (setBit (atT s t) .dpCtrl p.val 0 false) p.val)) :=
  congrArg _ (atBoundary_open h _)

theorem enableReason_setBit (s : State) (p q : Nat) (v : Bool) :
    enableReason (setBit s .dpCtrl p 0 v) q = enableReason s q := by
  unfold enableReason
  rw [reg_dpFmt_setBit]
  rfl

theorem portNames_setBit (s : State) (p j q : Nat) (v : Bool) :
    portNames (setBit s .dpCtrl p 0 v) j q = portNames s j q := by
  simp only [portNames, rb, rf, reg_dpFmt_setBit]

theorem portEnable_wait {s : State} {p : Nat} (h : (port s p).st = .off) (hd : domOn s domPORT = true)
    (hr : enableReason s p = none) : portEnable s p = portWait (setBit s .dpCtrl p 0 true) p := by
  have h1 : (port (setBit s .dpCtrl p 0 true) p).st = .off := h
  have h2 : domOn (setBit s .dpCtrl p 0 true) domPORT = true := hd
  simp [portEnable, h1, h2, enableReason_setBit, hr]

theorem portEnable_refused {s : State} {p r : Nat} (h : (port s p).st = .off) (hd : domOn s domPORT = true)
    (hr : enableReason s p = some r) :
    portEnable s p = portRefused (setBit (setBit s .dpCtrl p 0 true) .dpCtrl p 0 false) p 0 r := by
  have h1 : (port (setBit s .dpCtrl p 0 true) p).st = .off := h
  have h2 : domOn (setBit s .dpCtrl p 0 true) domPORT = true := hd
  simp [portEnable, h1, h2, enableReason_setBit, hr]

theorem portStop_wait {s : State} {p : Nat} (h : (port s p).st = .wait) : portStop s p = portOffNow s p 1 := by
  simp [portStop, h]

theorem portStop_tracking {s : State} {p : Nat} (h : portTracks s p = true) (hm : (port s p).missing = false) :
    portStop s p = setPort s p { port s p with stopping := true } := by
  unfold portTracks at h
  unfold portStop
  dsimp only
  split at h <;> simp_all

/-! ### DP_FMT -/

/-- Which PLLs run is a matter of the registers, the rate, the domains and the role. -/
theorem pllFollowAll_ck_congr {s u : State} (hr : u.regs = s.regs) (hf : u.fr = s.fr) (hc : u.ck = s.ck)
    (hd : u.pd = s.pd) (hl : u.pl = s.pl) : (pllFollowAll u).ck = (pllFollowAll s).ck := by
  have hstep : ∀ (a b : State) (j : Nat), a.regs = b.regs → a.fr = b.fr → a.ck = b.ck → a.pd = b.pd → a.pl = b.pl →
      (pllFollow a j).ck = (pllFollow b j).ck := by
    intro a b j hr hf hc hd hl
    have hw : pllWanted a j = pllWanted b j := by
      have hn : portNames a j = portNames b j := funext fun q => by simp only [portNames, rb, rf, reg, hr]
      simp only [pllWanted, hn, hf, hl, rb, rf, reg, hr]
    have hp : pll a j = pll b j := by simp only [pll, hc]
    have ho : domOn a domCLK = domOn b domCLK := by simp only [domOn, hd]
    simp only [pllFollow, hw, hp, ho]
    split
    · exact hc
    · simp only [setPll, hc]
  have hall : ∀ (l : List Nat) (a b : State), a.regs = b.regs → a.fr = b.fr → a.ck = b.ck → a.pd = b.pd → a.pl = b.pl →
      (each l a pllFollow).ck = (each l b pllFollow).ck := by
    intro l
    induction l with
    | nil => exact fun a b _ _ hc _ _ => hc
    | cons j r ih =>
      intro a b hr hf hc hd hl
      exact ih _ _ (by simp [hr]) (by simp [hf]) (hstep a b j hr hf hc hd hl) (by simp [hd]) (by simp [hl])
  exact hall _ u s hr hf hc hd hl

theorem fmtWrite_taken {s : State} {p : Nat} {v : Word} (h : (port s p).st = .off)
    (hv : regAccept .dpFmt p (reg s .dpFmt p) (mergeReg .dpFmt p (reg s .dpFmt p) v) = true) :
    fmtWrite s p v = pllFollowAll (setReg s .dpFmt p (mergeReg .dpFmt p (reg s .dpFmt p) v)) := by
  simp [fmtWrite, h, hv]

theorem fmtWrite_refused {s : State} {p : Nat} {v : Word} (h : (port s p).st ≠ .off) :
    fmtWrite s p v = portRefused s p 4 1 := by
  simp [fmtWrite, h]

/-- Settles O22: what EN, DP_FMT, a missing frame sync and the 512th frame in phase make of a port. -/
theorem portStates : Obligations.PortStates := by
  unfold Obligations.PortStates
  refine ⟨fun t p s hw hst hd hr => ?_, fun t p r s hw hst hd hr he => ?_, fun t p s hw hst he => ?_,
    fun t p s hw ht hm => ?_, fun t o p v s hw hst hv => ?_, fun t o p v s hw hst => ?_, fun t p s hw => ?_,
    fun t p s hst hp he => ?_, fun t p s ht hm hs he => ?_⟩
  · refine ⟨_, exec_portEnable hw, ?_⟩
    rw [portEnable_wait (s := atT s t) hst hd hr]
    refine ⟨?_, ?_, refsFollow_refFollowAll _, only_refFollowAll ?_ (by simp)⟩
    · simp [portWait, portNames_setBit]
      rfl
    · simp
      rfl
    · simp [only_iff]
  · refine ⟨_, exec_portEnable hw, ?_⟩
    rw [portEnable_refused (s := atT s t) hst hd hr]
    refine ⟨?_, ?_, ?_, refsFollow_refFollowAll _, only_refFollowAll ?_ (by simp)⟩
    · simp [portRefused]
    · rw [rb, reg_congr (s := setBit (setBit (atT s t) .dpCtrl p.val 0 true) .dpCtrl p.val 0 false) (by simp [portRefused])]
      exact rb_setBit_same _ _ _ (by decide) false
    · refine raised_of_grows ?_ (refFollowAll_grows _)
      exact raised_emit_of he rfl rfl rfl
    · simp [only_iff]
  · refine ⟨_, exec_portDisable hw, ?_⟩
    rw [portStop_wait (show (port (setBit (atT s t) .dpCtrl p.val 0 false) p.val).st = .wait from hst)]
    refine ⟨?_, ?_, ?_, refsFollow_refFollowAll _, only_refFollowAll ?_ (by simp)⟩
    · simp [portOffNow]
      rfl
    · simp [portOffNow]
      rfl
    · refine raised_of_grows ?_ (refFollowAll_grows _)
      exact raised_emit_of he rfl rfl rfl
    · simp [only_iff]
  · refine ⟨_, exec_portDisable hw, ?_⟩
    rw [portStop_tracking (s := setBit (atT s t) .dpCtrl p.val 0 false) ht hm]
    refine ⟨?_, ?_, refsFollow_refFollowAll _, only_refFollowAll ?_ (by simp)⟩
    · simp
      rfl
    · simp
      rfl
    · simp [only_iff]
  · refine ⟨_, rfl, ?_⟩
    rw [directWrite_taken hw, fmtWrite_taken (by simpa [port] using hst) (by simpa [reg] using hv)]
    refine ⟨?_, ?_, ?_⟩
    · simp [setReg, reg]
    · exact pllFollowAll_ck_congr (by simp [setReg, reg]) (by simp) (by simp) (by simp) (by simp)
    · simp [only_iff]
  · refine ⟨_, rfl, ?_⟩
    rw [directWrite_taken hw, fmtWrite_refused (by simpa [port] using hst)]
    refine ⟨?_, fun he => ?_, ?_⟩
    · simp [portRefused]
    · have hopen : evtOpen _ 1 := noted_evtOpen (t := t) (o := o) (off := regOff .dpFmt p.val) (g := 0x2C + p.val)
        (valueTakes (atT s t) .dpFmt p.val v) he
      have hcount : (noted s t o (regOff .dpFmt p.val) (0x2C + p.val) (valueTakes (atT s t) .dpFmt p.val v)).dp.refused =
          s.dp.refused := by simp
      rw [portRefused, ← hcount]
      exact raised_emit (by exact hopen) (by simp) (by simp)
    · simp [only_iff, portRefused]
  · exact ⟨answers_eq rfl (atBoundary_closed hw _) (SetupLock.still_atT s t),
      answers_eq rfl (atBoundary_closed hw _) (SetupLock.still_atT s t)⟩
  · refine answers_eq rfl (if_pos ⟨hst, hp⟩) ?_
    refine ⟨?_, raised_emit_of he rfl rfl rfl, ?_⟩
    · simp
      rfl
    · simp [only_iff]
  · have hmiss : (!portTracks (atT s t) p.val || (port (atT s t) p.val).missing) = false := by
      rw [show portTracks (atT s t) p.val = true from ht, show (port (atT s t) p.val).missing = false from hm]
      rfl
    have hstop : (port (unlock (atT s t) p.val 1) p.val).stopping = false := by
      simpa [unlock] using hs
    refine answers_eq rfl ((if_neg (by rw [hmiss]; exact Bool.false_ne_true)).trans
      (if_neg (by rw [hstop]; exact Bool.false_ne_true))) ⟨?_, ?_, ?_⟩
    · simp [unlock]
      rfl
    · exact raised_emit_of he rfl rfl rfl
    · simp [only_iff, unlock]

end Sys2Proof.Proofs.Ports

/-! Frame starts of a serial port, and its slot masks (R213–R228). -/

namespace Sys2Proof.Proofs.PortFrames

open Sys2Proof Sys2Proof.Machine Sys2Proof.Safety Sys2Proof.Laws
open Sys2Proof.Proofs.Frames Sys2Proof.Proofs.Writes Sys2Proof.Proofs.Reads

/-! ### What concerns one port alone -/

/-- Every other port, and every part but the ports, is as before. -/
def onPort (p : Nat) (s s' : State) : Prop := (∀ q, q ≠ p → port s' q = port s q) ∧ only [.dp] s s'

theorem only_trans {l : List Part} {s t u : State} (h : only l s t) (k : only l t u) : only l s u := by
  intro p hp
  have h' := h p hp
  have k' := k p hp
  cases p <;> exact Eq.trans k' h'

theorem onPort.trans {p : Nat} {s t u : State} (h : onPort p s t) (k : onPort p t u) : onPort p s u :=
  ⟨fun q hq => (k.1 q hq).trans (h.1 q hq), only_trans h.2 k.2⟩

theorem onPort_atT (p : Nat) (s : State) (t : Frac) : onPort p s (atT s t) :=
  ⟨fun _ _ => rfl, by simp [only_iff]⟩

theorem onPort_setPort (p : Nat) (s : State) (x : Port) : onPort p s (setPort s p x) :=
  ⟨fun _ hq => port_setPort_ne s x hq, by simp [only_iff]⟩

theorem onPort_emit (p : Nat) (s : State) (code unit : Nat) (d : BitVec 128) : onPort p s (emit s code unit d) :=
  ⟨fun _ _ => by simp, by simp [only_iff]⟩

theorem onPort_push (p : Nat) (s : State) (o : Out) : onPort p s (push s o) :=
  ⟨fun _ _ => by simp, by simp [only_iff, push]⟩

/-! ### The masks of a frame start -/

theorem maskTake_onPort (s : State) (p : Nat) (rx : Bool) (v : Word) (next : Option Word) (n : Nat) :
    onPort p s (maskTake s p rx v next n) := (onPort_setPort p s _).trans (onPort_emit p _ _ _ _)

theorem maskStart_onPort (s : State) (p : Nat) (rx : Bool) : onPort p s (maskStart s p rx) := by
  unfold maskStart
  dsimp only
  split
  · exact maskTake_onPort s p rx _ _ _
  · exact onPort_setPort p s _

theorem maskStart_idle {s : State} {p : Nat} {rx : Bool} (h : (rxTx (port s p) rx).pend = none) :
    maskStart s p rx = setPort s p (setRxTx (port s p) rx
      { rxTx (port s p) rx with pend := (rxTx (port s p) rx).next, next := none }) := by
  unfold maskStart
  dsimp only
  rw [h]

theorem sendFrame_onPort (s : State) (p : Nat) (conv : Option Word) (phase : Word) :
    onPort p s (sendFrame s p conv phase) := by
  unfold sendFrame
  dsimp only
  split
  · exact onPort_setPort p s _
  · exact (onPort_setPort p s _).trans (onPort_push p _ _)

theorem sendFrame_port (s : State) (p : Nat) (conv : Option Word) (phase : Word) :
    ∃ l, port (sendFrame s p conv phase) p = { port s p with tail := l } := by
  unfold sendFrame
  dsimp only
  split
  · exact ⟨[], by simp⟩
  · exact ⟨_, by rw [port_push, port_setPort_same]⟩

theorem newFrame_onPort (s : State) (p : Nat) (conv : Option Word) (phase : Word) :
    onPort p s (newFrame s p conv phase) :=
  ((maskStart_onPort s p true).trans (maskStart_onPort _ p false)).trans (sendFrame_onPort _ p conv phase)

/-- A frame that starts with no mask pending moves the masks and the rest of the last slot alone. -/
theorem newFrame_port {s : State} {p : Nat} (hrx : (port s p).rx.pend = none) (htx : (port s p).tx.pend = none)
    (conv : Option Word) (phase : Word) :
    ∃ a b l, port (newFrame s p conv phase) p = { port s p with rx := a, tx := b, tail := l } := by
  unfold newFrame
  obtain ⟨l, hl⟩ := sendFrame_port (maskStart (maskStart s p true) p false) p conv phase
  rw [hl, maskStart_idle (rx := true) hrx, maskStart_idle (rx := false) (by simpa [rxTx, setRxTx] using htx)]
  simp only [port_setPort_same]
  exact ⟨_, _, l, rfl⟩

/-! ### The frame that ends -/

theorem takeFrame_onPort (s : State) (p : Nat) (x : PortFrame) : onPort p s (takeFrame s p x) := by
  unfold takeFrame
  dsimp only
  split
  · exact onPort_setPort p s _
  · split
    · exact (onPort_setPort p s _).trans (onPort_emit p _ _ _ _)
    · exact onPort_setPort p s _

/-- The samples that the active slots of a port frame carry. -/
def framedWords (f active : Word) (x : PortFrame) : List Int :=
  (List.range 32).map fun i => if i < slots f && bit active i then rxSample f (slotBits f x.clocks i) else 0

/-- A frame of the right length is taken out of its bit clocks (R214, R218). -/
theorem takeFrame_port_right {s : State} {p : Nat} {x : PortFrame}
    (h : countedLen (reg s .dpFmt p) x = frameLen (reg s .dpFmt p)) : ∃ n, port (takeFrame s p x) p = { port s p with
      flen := countedLen (reg s .dpFmt p) x, lastGood := (port s p).pfn, wrong := 0, good := n
      words := framedWords (reg s .dpFmt p) (port s p).rx.active x } := by
  unfold takeFrame
  dsimp only
  rw [if_pos h, port_setPort_same]
  exact ⟨_, rfl⟩

/-- A frame of another length is an error, and the words before stay (R218). -/
theorem takeFrame_port_wrong {s : State} {p : Nat} {x : PortFrame}
    (h : countedLen (reg s .dpFmt p) x ≠ frameLen (reg s .dpFmt p)) : ∃ n e, port (takeFrame s p x) p = { port s p with
      flen := countedLen (reg s .dpFmt p) x, frameErrors := inc16 (port s p).frameErrors
      wrong := satTo 16 ((port s p).wrong + 1), good := n, errorAt := e } := by
  unfold takeFrame
  dsimp only
  rw [if_neg h]
  split
  · exact ⟨_, _, by rw [port_emit, port_setPort_same]⟩
  · exact ⟨_, _, by rw [port_setPort_same]⟩

theorem takeFrame_stopping (s : State) (p : Nat) (x : PortFrame) :
    (port (takeFrame s p x) p).stopping = (port s p).stopping := by
  by_cases h : countedLen (reg s .dpFmt p) x = frameLen (reg s .dpFmt p)
  · obtain ⟨n, hn⟩ := takeFrame_port_right h
    rw [hn]
  · obtain ⟨n, e, hn⟩ := takeFrame_port_wrong h
    rw [hn]

/-- The loop, the converters and the frame in which a port runs: what the end of a frame does but for taking it. -/
def settled (s : State) (p : Nat) (x : PortFrame) (good : Nat) : State := feedRx (trackFrame s p x good) p x.phase

theorem settled_onPort (s : State) (p : Nat) (x : PortFrame) (good : Nat) : onPort p s (settled s p x good) :=
  (onPort_setPort p s _).trans (onPort_setPort p _ _)

theorem settled_port (s : State) (p : Nat) (x : PortFrame) (good : Nat) : ∃ r k ok n c f g,
    port (settled s p x good) p = { port s p with
      ratio := r, rate := k, phaseOk := ok, offPeriod := n, rxConv := c, fed := f, fedAt := g } ∧
    (x.periodOff = false → n = 0) := by
  unfold settled feedRx trackFrame
  dsimp only
  simp only [port_setPort_same]
  exact ⟨_, _, _, _, _, _, _, rfl, fun h => by simp [h]⟩

theorem nextFrame_stopping {s : State} {p : Nat} {x : PortFrame}
    (h : (port (settled (takeFrame s p x) p x (port s p).good) p).stopping = true) :
    nextFrame s p x = portOffNow (settled (takeFrame s p x) p x (port s p).good) p 1 := if_pos h

/-- The port with a frame begun that shows no cause to unlock. -/
theorem nextFrame_running {s : State} {p : Nat} {x : PortFrame}
    (h : (port (settled (takeFrame s p x) p x (port s p).good) p).stopping = false)
    (hc : frameCause { port (settled (takeFrame s p x) p x (port s p).good) p with restart := false } x = none) :
    ∃ conv, nextFrame s p x = newFrame (setPort (settled (takeFrame s p x) p x (port s p).good) p
      { port (settled (takeFrame s p x) p x (port s p).good) p with
        restart := false, pfn := ((port s p).pfn + 1) % 2 ^ 32 }) p conv x.phase := by
  have hneg : ¬ (port (settled (takeFrame s p x) p x (port s p).good) p).stopping = true := by simp [h]
  unfold nextFrame
  simp only [settled] at hneg hc ⊢
  rw [if_neg hneg, port_setPort_same, hc]
  simp only [port_setPort_same, setPort_setPort]
  exact ⟨_, rfl⟩

/-- A frame starts on a port whose stop has not been asked for, with no mask pending. -/
theorem nextFrame_port {s : State} {p : Nat} {x : PortFrame} {y : Port} (hy : port (takeFrame s p x) p = y)
    (hs : y.stopping = false) (hrx : y.rx.pend = none) (htx : y.tx.pend = none) (hw : y.wrong < 16)
    (hp : x.periodOff = false) (ho : x.outOfRange = false) (hl : x.slip = false) :
    (port (nextFrame s p x) p).st = y.st ∧ (port (nextFrame s p x) p).pfn = ((port s p).pfn + 1) % 2 ^ 32 ∧
      (port (nextFrame s p x) p).lastGood = y.lastGood ∧ (port (nextFrame s p x) p).words = y.words ∧
      (port (nextFrame s p x) p).frameErrors = y.frameErrors ∧ onPort p s (nextFrame s p x) := by
  obtain ⟨r, k, ok, n, c, f, g, hport, hn⟩ := settled_port (takeFrame s p x) p x (port s p).good
  rw [hy] at hport
  have hcause : frameCause { port (settled (takeFrame s p x) p x (port s p).good) p with restart := false } x = none := by
    have hwrong : ¬ 16 ≤ y.wrong := by omega
    simp [frameCause, hport, hn hp, ho, hl, hwrong]
  obtain ⟨conv, hnext⟩ := nextFrame_running (by rw [hport]; exact hs) hcause
  obtain ⟨a, b, l, hnew⟩ := newFrame_port (s := setPort (settled (takeFrame s p x) p x (port s p).good) p
    { port (settled (takeFrame s p x) p x (port s p).good) p with
      restart := false, pfn := ((port s p).pfn + 1) % 2 ^ 32 }) (p := p) (by simp [hport, hrx]) (by simp [hport, htx])
    conv x.phase
  rw [hnext, hnew]
  refine ⟨?_, ?_, ?_, ?_, ?_, ?_⟩
  iterate 5 simp [hport]
  exact (((takeFrame_onPort s p x).trans (settled_onPort _ p x _)).trans (onPort_setPort p _ _)).trans
    (newFrame_onPort _ p conv x.phase)

/-! ### The command -/

/-- The port whose first strobe has come, as the frame starts. -/
def unbound (s : State) (t : Frac) (p : Nat) : State := setPort (atT s t) p { port s p with first := none }

@[simp] theorem port_unbound (s : State) (t : Frac) (p : Nat) :
    port (unbound s t p) p = { port s p with first := none } := port_setPort_same _ _ _

@[simp] theorem reg_unbound (s : State) (t : Frac) (p : Nat) (n : RegName) (i : Nat) :
    reg (unbound s t p) n i = reg s n i := rfl

theorem onPort_unbound (s : State) (t : Frac) (p : Nat) : onPort p s (unbound s t p) :=
  (onPort_atT p s t).trans (onPort_setPort _ _ _)

section
variable {s : State} {t : Frac} {p : Fin 8} {x : PortFrame}

theorem exec_portFrame_idle (h : (port s p.val).st = .off ∨ frameBegins (atT s t) p.val x = false) :
    exec (.portFrame t p x) s = .next (atT s t) := by
  simp only [exec, execPortFrame, port_atT]
  obtain h | h := h <;> simp [h]

theorem exec_portFrame_first (h : (port s p.val).st = .wait) (hb : frameBegins (atT s t) p.val x = true) :
    exec (.portFrame t p x) s = .next (newFrame (setPort (atT s t) p.val
      { port s p.val with st := .acquire, pfn := 0, lastGood := 0, restart := false, first := none }) p.val none
      x.phase) := by
  simp [exec, execPortFrame, h, hb]

theorem portTracks_st (h : portTracks s p.val = true) : (port s p.val).st ≠ .off ∧ (port s p.val).st ≠ .wait := by
  unfold portTracks at h
  split at h <;> simp_all

theorem exec_portFrame_late (h : portTracks s p.val = true) (hb : frameBegins (atT s t) p.val x = true)
    (hm : (port s p.val).missing = true) :
    exec (.portFrame t p x) s = .next (newFrame (setPort (atT s t) p.val
      { port s p.val with missing := false, restart := false, pfn := ((port s p.val).pfn + 1) % 2 ^ 32, first := none
                          flen := countedLen (reg s .dpFmt p.val) x, lateFs := inc16 (port s p.val).lateFs
                          tail := [] }) p.val none x.phase) := by
  obtain ⟨h1, h2⟩ := portTracks_st h
  simp [exec, execPortFrame, h1, h2, hb, hm]

theorem exec_portFrame_next (h : portTracks s p.val = true) (hb : frameBegins (atT s t) p.val x = true)
    (hm : (port s p.val).missing = false) :
    exec (.portFrame t p x) s =
      .next (nextFrame (unbound s t p.val) p.val x) := by
  obtain ⟨h1, h2⟩ := portTracks_st h
  simp [unbound, exec, execPortFrame, h1, h2, hb, hm]

end

/-! ### The samples -/

theorem wlen_cases (f : Word) : wlen f = 16 ∨ wlen f = 20 ∨ wlen f = 24 ∨ wlen f = 32 := by
  unfold wlen
  split <;> simp

/-- A word of the width of a slot, read as a sample and sent again, is the word. -/
theorem txWord_rxSample (f w : Word) (h : w.toNat < 2 ^ wlen f) : txWord f (rxSample f w) = w := by
  have hn := wlen_cases f
  unfold txWord rxSample
  generalize wlen f = n at h hn ⊢
  refine BitVec.eq_of_toNat_eq ?_
  rw [BitVec.toNat_ofNat]
  obtain rfl | rfl | rfl | rfl := hn <;> simp only [sext, clampI, toU] <;> norm_num at h ⊢ <;> split_ifs <;> omega

/-! ### The masks -/

theorem reg_dpFmt_maskReg (s : State) (rx : Bool) (p : Nat) (v : Word) :
    reg (setReg s (maskReg rx) p v) .dpFmt p = reg s .dpFmt p := by
  refine reg_setReg_ne s v ?_
  cases rx <;> simp [maskReg, regOff, regPlace]

theorem maskWrite_once {s : State} {o : Owner} {p : Nat} {rx l : Bool} {v : Word} (h : rb s .dpFmt p 12 = false) :
    maskWrite s o p rx v l = maskComplete (setReg s (maskReg rx) p v) p rx v l := by
  have h' : rb (setReg s (maskReg rx) p v) .dpFmt p 12 = false := by rwa [rb, reg_dpFmt_maskReg]
  simp [maskWrite, h']

theorem maskWrite_timed {s : State} {o : Owner} {p : Nat} {rx l : Bool} {v : Word} (h : rb s .dpFmt p 12 = true) :
    maskWrite s o p rx v l =
      stageG (setReg s (maskReg rx) p v) o (0x2C + p) (.reg (regOff (maskReg rx) p) v) := by
  have h' : rb (setReg s (maskReg rx) p v) .dpFmt p 12 = true := by rwa [rb, reg_dpFmt_maskReg]
  simp [maskWrite, h']

theorem mirrors_maskReg (s : State) (rx : Bool) (p g : Nat) (v : Word) (hg : g < 0x3A) :
    mirrors (setReg s (maskReg rx) p v) g = mirrors s g := by
  have ho : owns (setReg s (maskReg rx) p v) .peer g = owns s .peer g := by
    unfold owns rb
    rw [reg_setReg_ne]
    cases rx <;> simp only [maskReg, regOff, regPlace] <;> simp <;> omega
  simp only [mirrors, ho]
  rfl

/-- What the effect of a mask's write reads of the state in which the write is noted. -/
theorem masked_reads (s : State) (t : Frac) (o : Owner) (p : Fin 8) (rx : Bool) (v : Word) (ok : Bool) :
    let u := noted s t o (regOff (maskReg rx) p.val) (0x2C + p.val) ok
    rb u .dpFmt p.val 12 = rb s .dpFmt p.val 12 ∧ port (setReg u (maskReg rx) p.val v) p.val = port s p.val ∧
      domOn (setReg u (maskReg rx) p.val v) domPORT = domOn s domPORT := by
  simp [rb, reg, port, domOn]

section
variable {s : State} {p : Nat} {rx : Bool} {v : Word}

theorem maskComplete_down (hd : domOn s domPORT = false) (l : Bool) : maskComplete s p rx v l =
    setPort s p (setRxTx (port s p) rx { rxTx (port s p) rx with pend := some v, next := none }) := by
  simp [maskComplete, hd]

theorem maskComplete_off (hd : domOn s domPORT = true) (h : (port s p).st = .off) (l : Bool) :
    maskComplete s p rx v l = maskTake s p rx v none 0 := by
  simp [maskComplete, hd, h]

theorem maskComplete_next (hd : domOn s domPORT = true) (h : (port s p).st ≠ .off) : maskComplete s p rx v false =
    setPort s p (setRxTx (port s p) rx { rxTx (port s p) rx with pend := some v }) := by
  simp [maskComplete, hd, h]

theorem maskComplete_late (hd : domOn s domPORT = true) (h : (port s p).st ≠ .off) : maskComplete s p rx v true =
    setPort s p (setRxTx { port s p with maskLate := inc16 (port s p).maskLate } rx
      { rxTx (port s p) rx with next := some v }) := by
  simp [maskComplete, hd, h]

end

/-- A write that is not noted takes effect on the state as it was. -/
theorem noted_unnoted (s : State) (t : Frac) (o : Owner) (off g : Nat) : noted s t o off g false = atT s t := rfl

/-- Settles O23: what a frame start makes of a port in each of its states, what a sample carries, and where a mask that
is written waits. -/
theorem portFramesAndMasks : Obligations.PortFramesAndMasks := by
  unfold Obligations.PortFramesAndMasks
  refine ⟨fun t p x s hst hb hrx htx => ?_, fun t p x s ht hb hm hs hrx htx hlen hp ho hsl => ?_,
    fun t p x s ht hb hm hs hrx htx hlen hw hp ho hsl => ?_, fun t p x s ht hb hm hrx htx => ?_,
    fun t p x s ht hb hm hs => ?_, fun t p x s h => ⟨_, exec_portFrame_idle h, SetupLock.still_atT s t⟩,
    txWord_rxSample, fun t o p rx l v s hw hf hd hst => ?_, fun t o p rx v s hw hf hd hst => ?_,
    fun t o p rx v s hw hf hd hst => ?_, fun t o p rx l v s hw hf hd => ?_, fun t o p rx l v s hw hf hm => ?_⟩
  · obtain ⟨a, b, l, hnew⟩ := newFrame_port (s := setPort (atT s t) p.val { port s p.val with
      st := .acquire, pfn := 0, lastGood := 0, restart := false, first := none }) (p := p.val) (by simpa using hrx)
      (by simpa using htx) none x.phase
    refine ⟨_, exec_portFrame_first hst hb, (congrArg Port.st hnew).trans (by simp),
      (congrArg Port.pfn hnew).trans (by simp), (congrArg Port.words hnew).trans (by simp), ?_⟩
    exact ((onPort_atT p.val s t).trans (onPort_setPort _ _ _)).trans (newFrame_onPort _ _ _ _)
  · obtain ⟨n, htake⟩ := takeFrame_port_right (s := unbound s t p.val)
      (p := p.val) (x := x) hlen
    obtain ⟨h1, h2, h3, h4, h5, hon⟩ := nextFrame_port htake (by simpa using hs) (by simpa using hrx)
      (by simpa using htx) (by simp) hp ho hsl
    refine ⟨_, exec_portFrame_next ht hb hm, ?_⟩
    refine ⟨h1.trans (by simp), h2.trans (by simp), h3.trans (by simp), h4.trans (by simp only [port_unbound, reg_unbound]; rfl), ?_⟩
    exact (onPort_unbound s t p.val).trans hon
  · obtain ⟨n, e, htake⟩ := takeFrame_port_wrong (s := unbound s t p.val)
      (p := p.val) (x := x) hlen
    have hwrong : satTo 16 ((port s p.val).wrong + 1) < 16 := by simp only [satTo]; split <;> omega
    obtain ⟨h1, h2, h3, h4, h5, hon⟩ := nextFrame_port htake (by simpa using hs) (by simpa using hrx)
      (by simpa using htx) (by simpa using hwrong) hp ho hsl
    refine ⟨_, exec_portFrame_next ht hb hm, ?_⟩
    refine ⟨h4.trans (by simp), h5.trans (by simp), h3.trans (by simp), h1.trans (by simp), ?_⟩
    exact (onPort_unbound s t p.val).trans hon
  · obtain ⟨a, b, l, hnew⟩ := newFrame_port (s := setPort (atT s t) p.val { port s p.val with
      missing := false, restart := false, pfn := ((port s p.val).pfn + 1) % 2 ^ 32, first := none
      flen := countedLen (reg s .dpFmt p.val) x, lateFs := inc16 (port s p.val).lateFs, tail := [] }) (p := p.val)
      (by simpa using hrx) (by simpa using htx) none x.phase
    refine ⟨_, exec_portFrame_late ht hb hm, (congrArg Port.missing hnew).trans (by simp),
      (congrArg Port.lateFs hnew).trans (by simp), (congrArg Port.pfn hnew).trans (by simp),
      (congrArg Port.words hnew).trans (by simp), ?_⟩
    exact ((onPort_atT p.val s t).trans (onPort_setPort _ _ _)).trans (newFrame_onPort _ _ _ _)
  · obtain ⟨r, k, ok, n, c, f, g, hport, -⟩ := settled_port (takeFrame (unbound s t p.val) p.val x) p.val x
      (port (unbound s t p.val) p.val).good
    have hkeep : (port (takeFrame (unbound s t p.val) p.val x) p.val).stopping = true := by
      rw [takeFrame_stopping]
      simpa using hs
    have hstop := nextFrame_stopping (s := unbound s t p.val) (p := p.val) (x := x) (by rw [hport]; exact hkeep)
    refine ⟨_, exec_portFrame_next ht hb hm, ?_⟩
    rw [hstop]
    refine ⟨by simp [portOffNow], ?_⟩
    exact (((onPort_unbound s t p.val).trans (takeFrame_onPort _ _ _)).trans (settled_onPort _ _ _ _)).trans
      ((onPort_setPort _ _ _).trans (onPort_emit _ _ _ _ _))
  · obtain ⟨hreg, hport, hdom⟩ := masked_reads s t o p rx v (!maskStaged s (maskReg rx) p.val)
    refine ⟨_, rfl, ?_⟩
    rw [directWrite_taken hw, maskWrite_once (hreg.trans hf), maskComplete_off (hdom.trans hd) (by rw [hport]; exact hst)]
    refine ⟨?_, ?_, ?_, ?_⟩
    · simp [maskTake, hport, rxTx, setRxTx]
      cases rx <;> rfl
    · simp [maskTake, hport, rxTx, setRxTx]
      cases rx <;> rfl
    · simp [maskTake, setReg]
    · simp [only_iff, maskTake]
  · obtain ⟨hreg, hport, hdom⟩ := masked_reads s t o p rx v (!maskStaged s (maskReg rx) p.val)
    refine ⟨_, rfl, ?_⟩
    rw [directWrite_taken hw, maskWrite_once (hreg.trans hf), maskComplete_next (hdom.trans hd) (by rw [hport]; exact hst)]
    refine ⟨?_, ?_, ?_⟩
    · rw [hport]
      simp [setPort]
    · simp [setReg]
    · simp [only_iff]
  · obtain ⟨hreg, hport, hdom⟩ := masked_reads s t o p rx v (!maskStaged s (maskReg rx) p.val)
    refine ⟨_, rfl, ?_⟩
    rw [directWrite_taken hw, maskWrite_once (hreg.trans hf), maskComplete_late (hdom.trans hd) (by rw [hport]; exact hst)]
    refine ⟨?_, ?_⟩
    · rw [hport]
      simp [setPort]
    · simp [only_iff]
  · obtain ⟨hreg, hport, hdom⟩ := masked_reads s t o p rx v (!maskStaged s (maskReg rx) p.val)
    refine ⟨_, rfl, ?_⟩
    rw [directWrite_taken hw, maskWrite_once (hreg.trans hf), maskComplete_down (hdom.trans hd)]
    refine ⟨?_, ?_, ?_⟩
    · rw [hport]
      simp [setPort]
    · simp [setReg]
    · simp [only_iff]
  · refine ⟨_, rfl, ?_⟩
    have hstaged : (!maskStaged s (maskReg rx) p.val) = false := by
      cases rx <;> simp [maskStaged, maskReg, hf]
    rw [directWrite_taken hw, hstaged, noted_unnoted, maskWrite_timed (by simpa using hf), stageG, mirrors_maskReg _ _ _ _ _ (by omega)]
    have hm' : (o != .peer && mirrors (atT s t) (0x2C + p.val)) = false := by simp [hm]
    rw [hm']
    exact ⟨rfl, by simp [only_iff, stage, stageAt]⟩

end Sys2Proof.Proofs.PortFrames

/-! Clock references: their qualification, the lock to one, and steering (R242–R248). -/

namespace Sys2Proof.Proofs.References

open Sys2Proof Sys2Proof.Machine Sys2Proof.Safety Sys2Proof.Laws
open Sys2Proof.Proofs.Frames Sys2Proof.Proofs.Writes Sys2Proof.Proofs.Reads

theorem leaveRef_qualified {s : State} {i cause : Nat} {n : RefState} (h : (refOf s i).st = .qualified) :
    leaveRef s i cause n = emit (setRef s i { refOf s i with st := n, held := false, disquals := inc16 (refOf s i).disquals })
      0x0802 (i + 1) (pay [(0, 1, cause), (4, 4, toU 32 (refOf s i).offset)]) := if_pos h

theorem leaveRef_other {s : State} {i cause : Nat} {n : RefState} (h : (refOf s i).st ≠ .qualified) :
    leaveRef s i cause n = setRef s i { refOf s i with st := n, held := false } := if_neg h

/-! ### The digital oscillator (R245) -/

theorem setDco_within {s : State} {d : Int} (h1 : -500000000 ≤ d) (h2 : d ≤ 500000000) :
    setDco s d = { s with ck := { s.ck with dco := d } } := by
  have hc : clampI (-500000000) 500000000 d = d := by simp only [clampI]; split_ifs <;> omega
  simp [setDco, hc]

theorem setDco_above {s : State} {d : Int} (h : 500000000 < d) (hz : s.ck.clampAt = 0) :
    setDco s d = emit { s with ck := { s.ck with
      dco := 500000000, clamps := inc16 s.ck.clamps, clampAt := nowTicks s + 1 } } 0x0809 noUnit
      (pay [(0, 4, toU 32 d)]) := by
  have hc : clampI (-500000000) 500000000 d = 500000000 := by simp only [clampI]; split_ifs <;> omega
  have hne : ¬ (500000000 : Int) = d := by omega
  simp [setDco, hc, hne, hz, nowTicks]

theorem phaseSlew_bounds (s : State) : 0 ≤ phaseSlew s ∧ phaseSlew s ≤ 100000000 := by
  unfold phaseSlew
  split <;> decide

theorem phaseSlew_congr {s t : State} (h : t.regs = s.regs) : phaseSlew t = phaseSlew s := by
  simp only [phaseSlew, rf, reg, h]

/-- Settles O25: what each edge, measurement and write makes of a reference source, of the lock to one, and of the
steering. -/
theorem referencesAndLock : Obligations.ReferencesAndLock := by
  unfold Obligations.ReferencesAndLock
  refine ⟨fun t r s hd hst he => ?_, fun t r s hd hst => ?_, fun t r s hd hst => ?_, fun t r o s hd hst hw he => ?_,
    fun t r o s hd hst hw he => ?_, fun t r s hst => ?_, fun t o l s hst h1 h2 => ?_, fun t o s hst h hz he => ?_,
    fun t e s hst ht hn => ?_, fun t e s hst ht hn he => ?_, fun t o v s hw hv => ?_, fun t k r s hd hb hf hs he => ?_⟩
  · refine answers_eq rfl ((if_pos (by simp [hd, refSeen, hst])).trans (leaveRef_qualified (s := atT s t) hst)) ?_
    refine ⟨by simp; rfl, raised_emit_of he rfl rfl rfl, by simp [only_iff]⟩
  · refine answers_eq rfl ((if_pos (by simp [hd, refSeen, hst])).trans (leaveRef_other (s := atT s t) (by simp [hst]))) ?_
    refine ⟨rfl, by simp [still_iff]⟩
  · refine answers_eq rfl (if_pos (by simp [hd, hst])) ?_
    refine ⟨rfl, by simp [still_iff]⟩
  · have hwin : 5 * o.toInt.natAbs ≤ 4 * refWin (atT s t) r.val := hw
    refine answers_eq rfl (if_pos (by obtain hst | hst := hst <;> simp [hd, hst, hwin])) ?_
    refine ⟨by simp; rfl, raised_emit_of he rfl rfl rfl, by simp [only_iff]⟩
  · have hwin : refWin (atT s t) r.val < o.toInt.natAbs := hw
    refine answers_eq rfl ((if_pos (by simp [hd, refSeen, hst, hwin])).trans (leaveRef_qualified (by simp [hst]))) ?_
    refine ⟨by simp; rfl, ?_, by simp [only_iff]⟩
    simp only [refOf_setRef_same]
    exact raised_emit_of he rfl rfl rfl
  · refine answers_eq rfl (if_pos hst) ?_
    refine ⟨rfl, by simp [still_iff]⟩
  · obtain ⟨hlo, hhi⟩ := phaseSlew_bounds s
    have hsel : ¬ ((atT s t).ck.sel != .freqAcq) = true := by simp [hst]
    have hslew : phaseSlew (setDco (atT s t) o) = phaseSlew s := phaseSlew_congr (by simp)
    refine answers_eq rfl (if_neg hsel) ?_
    dsimp only
    rw [hslew, setDco_within (s := atT s t) (d := o) (by omega) (by omega),
      setDco_within (by dsimp only; split <;> omega) (by dsimp only; split <;> omega)]
    refine ⟨rfl, by simp [still_iff]⟩
  · obtain ⟨hlo, hhi⟩ := phaseSlew_bounds s
    have hsel : ¬ ((atT s t).ck.sel != .freqAcq) = true := by simp [hst]
    have hslew : phaseSlew (setDco (atT s t) o) = phaseSlew s := phaseSlew_congr (by simp)
    refine answers_eq rfl (if_neg hsel) ?_
    dsimp only
    rw [hslew, setDco_above (s := atT s t) h hz, if_pos rfl, setDco_within (by simp; omega) (by simp; omega)]
    refine ⟨by simp, ?_, by simp [only_iff]⟩
    exact raised_emit_of he rfl rfl rfl
  · refine answers_eq rfl (if_pos (by simp [hst, ht, hn])) ?_
    refine ⟨rfl, by simp [still_iff]⟩
  · refine answers_eq rfl (if_pos (by simp [hst, ht, hn])) ?_
    refine ⟨by simp, raised_emit_of he rfl rfl rfl, by simp [only_iff]⟩
  · refine ⟨_, rfl, ?_⟩
    rw [directWrite_taken hw, steerWrite, if_pos hv]
    refine ⟨by simp [setReg], by simp, by simp [only_iff]⟩
  · refine answers_eq rfl (if_neg (by simp [hd, hb, hf, hs])) ?_
    refine ⟨by simp, raised_emit_of he rfl rfl rfl, by simp [only_iff]⟩

end Sys2Proof.Proofs.References

/-! The crystal fails while a controller port is in use (R225, R254). -/

namespace Sys2Proof.Proofs.Crystal

open Sys2Proof Sys2Proof.Machine Sys2Proof.Safety

/-- A module whose domains are on, whose host reads events, and whose port 0 waits for its first frame as a controller on
the PLL of the strobes. -/
def controller : State :=
  let served : State := { State.reset with
    pd := { Domains.reset with on := 0xFFF }
    ck := { Clocks.reset with xtalOk := true }
    hl := { HostSide.reset with
      linkUp := true, dstate := 0, fn := { HostSide.reset.fn with busMaster := true }
      evt := { Ring.reset with en := true, size := 4 } } }
  setPort (setReg served .dpFmt 0 (0x80000000 ||| BitVec.ofNat 32 (2 ^ 9 * strobePll State.reset.fr.rate))) 0
    { Port.reset with st := .wait }

theorem controller_ready : domOn controller domCLK = true ∧ controller.ck.xtalOk = true ∧ evtOpen controller 1 := by
  decide

theorem controller_named : portNames controller (strobePll controller.fr.rate) 0 = true ∧
    (port controller 0).st = .wait ∧ (port controller 0).first = none := by decide

/-- The strobes that stop bind the next frame start of the port to the first strobe after them (R225). -/
theorem xtalFail_binds_port : (match exec (.xtalFail 0) controller with
    | .next s' => (port s' 0).first
    | _ => none) = some 1 := by decide

/-- Refutes O24: its clause on the crystal's failure leaves the serial ports as they were, while the strobes that stop
with the crystal bind the frame start of each controller port on the strobe PLL. -/
theorem not_pllsAndCrystal : ¬ Obligations.PllsAndCrystal := by
  unfold Obligations.PllsAndCrystal
  rintro ⟨-, -, -, -, -, hfail, -⟩
  obtain ⟨hd, hx, he⟩ := controller_ready
  obtain ⟨s', hs', -, -, -, -, -, -, -, -, -, honly⟩ := hfail 0 controller hd hx he
  have hdp : s'.dp = controller.dp := honly .dp (by decide)
  have hbound := xtalFail_binds_port
  rw [hs'] at hbound
  have hfree : (port s' 0).first = none := by
    rw [port, hdp]
    exact controller_named.2.2
  exact absurd (hbound.symm.trans hfree) (by decide)

end Sys2Proof.Proofs.Crystal

/-! A gain step of an analog input in the middle of a frame (R173, R174). -/

namespace Sys2Proof.Proofs.GainStep

open Sys2Proof Sys2Proof.Machine Sys2Proof.Safety

/-- Input 0 converts, and a new gain of 5 waits for a sign change. -/
def waiting : State := setAiCh State.reset 0 { AiCh.reset with st := .running, zc := some (5, 0) }

theorem waiting_zc : (aiCh waiting 0).zc = some (5, 0) ∧ (aiCh waiting 0).ws = [] := by decide

/-- Half of the frame has passed at the sign change: four samples have been taken, each with the old gain. -/
theorem zeroCrossing_samples : (match exec (.pgaZeroCrossing 0x8000 0) waiting with
    | .next s' => (aiCh s' 0).ws.length
    | _ => 0) = 4 := by decide

/-- Refutes O18: its clause on the sign change says that the input is as before but for its gain, while the samples of
the frame so far are noted with the gain they were taken with. -/
theorem not_gainAndPaths : ¬ Obligations.GainAndPaths := by
  unfold Obligations.GainAndPaths
  rintro ⟨-, hcross, -⟩
  obtain ⟨hzc, hws⟩ := waiting_zc
  obtain ⟨s', hs', hai, -⟩ := hcross 0x8000 0 5 0 waiting hzc (Nat.zero_le _)
  have hsame : (aiCh s' 0).ws = [] := by
    have h : aiCh s' 0 = { aiCh waiting 0 with gain := 5, zc := none } := by
      rw [aiCh, hai]
      exact Laws.aiCh_setAiCh_same _ _ _
    rw [h]
    exact hws
  have hlen := zeroCrossing_samples
  rw [hs'] at hlen
  exact absurd (hlen.symm.trans (congrArg List.length hsame)) (by decide)

end Sys2Proof.Proofs.GainStep

/-! Analog inputs, PDM inputs, biases and jacks (R173–R190). -/

namespace Sys2Proof.Proofs.Inputs

open Sys2Proof Sys2Proof.Machine Sys2Proof.Safety Sys2Proof.Laws
open Sys2Proof.Proofs.Frames Sys2Proof.Proofs.Writes Sys2Proof.Proofs.Reads

/-! ### EN, the bit 31 of a configuration -/

theorem setReg_or_en (s : State) (n : RegName) (i : Nat) :
    setReg s n i (reg s n i ||| 0x80000000) = setBit s n i 31 true := rfl

theorem setReg_and_en (s : State) (n : RegName) (i : Nat) :
    setReg s n i (reg s n i &&& 0x7FFFFFFF) = setBit s n i 31 false := rfl

/-- The configuration of an input with EN written, AIN on: the gain and the settling are as they were. -/
theorem applyAiChCfg_en {s : State} (n : Nat) (v : Bool) (h : domOn s domAIN = true) :
    applyAiChCfg s n (reg (setBit s .aiChCfg n 31 v) .aiChCfg n) =
      if v then aiStart (setBit s .aiChCfg n 31 v) n
      else if rb s .aiChCfg n 31 then aiStop (setBit s .aiChCfg n 31 v) n else setBit s .aiChCfg n 31 v := by
  have hgain : fld (reg s .aiChCfg n) 6 0 = fld (reg (setBit s .aiChCfg n 31 v) .aiChCfg n) 6 0 :=
    (rf_setBit s .aiChCfg n (by decide) (.inr (by decide)) v).symm
  have hlin : bit (reg s .aiChCfg n) 27 = bit (reg (setBit s .aiChCfg n 31 v) .aiChCfg n) 27 :=
    (rb_setBit_other s .aiChCfg n (by decide) (by decide) v).symm
  have hen : bit (reg (setBit s .aiChCfg n 31 v) .aiChCfg n) 31 = v := rb_setBit_same s .aiChCfg n (by decide) v
  have hset : setReg s .aiChCfg n (reg (setBit s .aiChCfg n 31 v) .aiChCfg n) = setBit s .aiChCfg n 31 v := by
    rw [setBit, reg_setReg_same]
  have hd : domOn (setBit s .aiChCfg n 31 v) domAIN = true := h
  unfold applyAiChCfg
  simp only [hset, hd, ← hgain, ← hlin, hen]
  simp [rb]
  rfl

theorem applyAiChCfg_off {s : State} (n : Nat) (v : Word) (h : domOn s domAIN = false) :
    applyAiChCfg s n v = setReg s .aiChCfg n v := by
  have hd : domOn (setReg s .aiChCfg n v) domAIN = false := h
  simp [applyAiChCfg, hd]

theorem applyAiPdmCh_off {s : State} (m : Nat) {v : Word} (h : bit v 31 = false) :
    applyAiPdmCh s m v = setReg s .aiPdmCh m v := by
  simp [applyAiPdmCh, h]

theorem aiStart_off {s : State} {n : Nat} (h : (aiCh s n).st = .off) (hd : domOn s domAIN = true) :
    aiStart s n = setAiCh s n { aiCh s n with st := .precharge } := by
  simp [aiStart, h, hd]

theorem exec_aiEnable {s : State} {t : Frac} {n : Fin 16} (h : inWindow s = true) : exec (.aiEnable t n) s =
    .next (applyAiChCfg (atT s t) n.val (reg (setBit (atT s t) .aiChCfg n.val 31 true) .aiChCfg n.val)) := by
  rw [setBit, reg_setReg_same]
  exact congrArg Host.Outcome.next (atBoundary_open h _)

theorem exec_aiDisable_analog {s : State} {t : Frac} {q : Fin 48} (h : inWindow s = true) (hq : q.val < 16) :
    exec (.aiDisable t q) s =
      .next (applyAiChCfg (atT s t) q.val (reg (setBit (atT s t) .aiChCfg q.val 31 false) .aiChCfg q.val)) := by
  rw [setBit, reg_setReg_same]
  exact congrArg Host.Outcome.next ((atBoundary_open h _).trans (if_pos hq))

theorem exec_aiDisable_pdm {s : State} {t : Frac} {q : Fin 48} (h : inWindow s = true) (hq : 16 ≤ q.val) :
    exec (.aiDisable t q) s =
      .next (applyAiPdmCh (atT s t) (q.val - 16) (reg (setBit (atT s t) .aiPdmCh (q.val - 16) 31 false) .aiPdmCh
        (q.val - 16))) := by
  rw [setBit, reg_setReg_same]
  exact congrArg Host.Outcome.next ((atBoundary_open h _).trans (if_neg (by omega)))

/-- Settles O17: the start of an input step by step, its end, and that EN is taken in an open window alone. -/
theorem inputStarts : Obligations.InputStarts := by
  unfold Obligations.InputStarts
  refine ⟨fun t n s hw hst hd => ?_, fun t n s hw hd => ?_, fun t n s hst => ?_, fun t q s hq hst hz => ?_,
    fun t q s hq hz => ?_, fun t q s hw hq hd hen => ?_, fun t q s hw hq h => ?_, fun t q s hw hq => ?_,
    fun t n q g b en j s hw => ?_⟩
  · refine answers_eq (exec_aiEnable hw) ((applyAiChCfg_en (s := atT s t) n.val true hd).trans
      ((if_pos rfl).trans (aiStart_off (s := setBit (atT s t) .aiChCfg n.val 31 true) hst hd))) ?_
    exact ⟨rfl, rfl, by simp [still_iff]⟩
  · refine answers_eq (exec_aiEnable hw) (applyAiChCfg_off (s := atT s t) n.val _ hd) ?_
    exact ⟨by rw [reg_setBit_same]; rfl, by simp [still_iff]⟩
  · refine answers_eq rfl (if_pos hst) ?_
    exact ⟨by simp [settleAi]; rfl, by simp [still_iff]⟩
  · refine answers_eq rfl ((if_pos hq).trans (if_pos hz)) ?_
    exact ⟨by simp [hst]; rfl, by simp [still_iff]⟩
  · refine answers_eq rfl ((if_neg (by omega)).trans (if_pos hz)) ?_
    exact ⟨rfl, by simp [still_iff]⟩
  · refine answers_eq (exec_aiDisable_analog hw hq) ((applyAiChCfg_en (s := atT s t) q.val false hd).trans
      ((if_neg Bool.false_ne_true).trans (if_pos hen))) ?_
    exact ⟨rfl, rfl, by simp [still_iff, aiStop]⟩
  · cases hd : domOn s domAIN with
    | false =>
      refine answers_eq (exec_aiDisable_analog hw hq) (applyAiChCfg_off (s := atT s t) q.val _ hd) ?_
      exact ⟨by rw [reg_setBit_same]; rfl, by simp [still_iff]⟩
    | true =>
      have hen : rb s .aiChCfg q.val 31 = false := h.resolve_left (by simp [hd])
      refine answers_eq (exec_aiDisable_analog hw hq) ((applyAiChCfg_en (s := atT s t) q.val false hd).trans
        ((if_neg Bool.false_ne_true).trans (if_neg (by simp [hen])))) ?_
      exact ⟨rfl, by simp [still_iff]⟩
  · refine answers_eq (exec_aiDisable_pdm hw hq) (applyAiPdmCh_off _ (rb_setBit_same _ _ _ (by decide) false)) ?_
    exact ⟨by rw [reg_setBit_same]; rfl, by simp [still_iff]⟩
  · have hstill := SetupLock.still_atT s t
    exact ⟨answers_eq rfl (atBoundary_closed hw _) hstill, answers_eq rfl (atBoundary_closed hw _) hstill,
      answers_eq rfl (atBoundary_closed hw _) hstill, answers_eq rfl (atBoundary_closed hw _) hstill,
      answers_eq rfl (atBoundary_closed hw _) hstill⟩

end Sys2Proof.Proofs.Inputs

/-! Microphones, biases and input jacks (R177, R178, R185, R190). -/

namespace Sys2Proof.Proofs.Mics

open Sys2Proof Sys2Proof.Machine Sys2Proof.Safety Sys2Proof.Laws
open Sys2Proof.Proofs.Frames Sys2Proof.Proofs.Writes Sys2Proof.Proofs.Reads

/-! ### One bias -/

/-- Whether a bias with the short flag given is wanted. -/
def wantedIf (s : State) (b : Nat) (short : Bool) : Bool :=
  domOn s domAIN && rb s .aiBiasCfg 0 (8 * b + 7) && !short
    && (liveJacks s).all (fun j => !rb s .aiJack j (24 + b) || (aiJack s j).biasOk)

/-- The ramp of a bias from the one it is on. -/
def slewFrom (s : State) (b : Nat) (x : Bias) (on : Bool) : Slope :=
  { first := x.volt.value (nowTicks s)
    last := if on then vselMv (rf s .aiBiasCfg 0 (8 * b + 1) (8 * b)) else 0, at_ := nowTicks s, len := 20 * tMs }

/-- What follows of a bias. -/
def followed (s : State) (b : Nat) (x : Bias) : Bias :=
  let w := wantedIf s b x.short
  if x.on == w && x.volt.last == (slewFrom s b x w).last then x
  else { x with on := w, volt := slewFrom s b x w, current := if w then x.current else 0 }

theorem bias_biasFollow (s : State) (b k : Nat) :
    bias (biasFollow s b) k = if k = b then followed s b (bias s b) else bias s k := by
  have hcond : (biasFollow s b) = if (bias s b).on == wantedIf s b (bias s b).short &&
      (bias s b).volt.last == (slewFrom s b (bias s b) (wantedIf s b (bias s b).short)).last then s
      else setBias s b (followed s b (bias s b)) := by
    unfold followed
    dsimp only
    split
    · rename_i h
      exact if_pos h
    · rename_i h
      exact if_neg h
  rw [hcond]
  by_cases hk : k = b
  · subst hk
    rw [if_pos rfl]
    split
    · rename_i h
      exact (if_pos h).symm
    · simp
  · rw [if_neg hk]
    split
    · rfl
    · exact bias_setBias_ne s _ hk

/-- Two states agree on all that a bias follows. -/
def SameBias (s t : State) : Prop :=
  t.regs = s.regs ∧ t.pd = s.pd ∧ t.ai.jack = s.ai.jack ∧ t.fr = s.fr ∧ t.now = s.now

theorem wantedIf_congr {s t : State} (h : SameBias s t) (b : Nat) (short : Bool) : wantedIf t b short = wantedIf s b short := by
  obtain ⟨hr, hp, hj, -, -⟩ := h
  simp only [wantedIf, liveJacks, aiJack, domOn, rb, reg, hr, hp, hj]

theorem followed_congr {s t : State} (h : SameBias s t) (b : Nat) (x : Bias) : followed t b x = followed s b x := by
  have hw := wantedIf_congr h b x.short
  obtain ⟨hr, -, -, hf, hn⟩ := h
  have hs : slewFrom t b x = slewFrom s b x := by
    funext on
    simp only [slewFrom, nowTicks_of hf hn, rf, reg, hr]
  simp only [followed, hw, hs]

theorem sameBias_follow (u t : State) (b : Nat) (h : SameBias u t) : SameBias u (biasFollow t b) := by
  obtain ⟨hr, hp, hj, hf, hn⟩ := h
  refine ⟨by simpa using hr, by simpa using hp, ?_, by simpa using hf, by simpa using hn⟩
  unfold biasFollow
  dsimp only
  split
  · exact hj
  · exact hj

theorem bias_biasFollowAll (s : State) {k : Nat} (hk : k < 4) :
    bias (biasFollowAll s) k = followed s k (bias s k) := by
  have hall := each_keyed bias (I := SameBias s) (g := followed s) (sameBias_follow s)
    (fun t c j ht => by rw [bias_biasFollow, followed_congr ht]) [0, 1, 2, 3] (by decide) s ⟨rfl, rfl, rfl, rfl, rfl⟩ k
  refine hall.trans (if_pos ?_)
  simp only [List.mem_cons, List.not_mem_nil, or_false]
  omega

theorem bias_unshorted (s : State) (v : Word) {k : Nat} (hk : k < 4) :
    bias (each [0, 1, 2, 3] s fun s b => setBias s b { bias s b with short := (bias s b).short && bit v (8 * b + 7) }) k =
      { bias s k with short := (bias s k).short && bit v (8 * k + 7) } := by
  have hall := each_keyed bias (I := fun _ => True)
    (f := fun s b => setBias s b { bias s b with short := (bias s b).short && bit v (8 * b + 7) })
    (g := fun b x => { x with short := x.short && bit v (8 * b + 7) }) (fun _ _ _ => trivial)
    (fun t c j _ => bias_setBias t c j _) [0, 1, 2, 3] (by decide) s trivial k
  refine hall.trans (if_pos ?_)
  simp only [List.mem_cons, List.not_mem_nil, or_false]
  omega

/-- The state in which the biases follow a configuration: EN = 0 has cleared SHORT. -/
def configured (s : State) (v : Word) : State :=
  each [0, 1, 2, 3] (setReg { s with ai := { s.ai with biasConf := true } } .aiBiasCfg 0 v)
    fun s b => setBias s b { bias s b with short := (bias s b).short && bit v (8 * b + 7) }

theorem applyBiasCfg_eq (s : State) (v : Word) : applyBiasCfg s v = biasFollowAll (configured s v) := rfl

theorem configured_same (s : State) (v : Word) :
    SameBias (setReg { s with ai := { s.ai with biasConf := true } } .aiBiasCfg 0 v) (configured s v) := by
  refine each_invariant (I := SameBias _) (fun t b h => ?_) _ _ ⟨rfl, rfl, rfl, rfl, rfl⟩
  obtain ⟨hr, hp, hj, hf, hn⟩ := h
  exact ⟨hr, hp, hj, hf, hn⟩

theorem bias_applyBiasCfg (s : State) (v : Word) {k : Nat} (hk : k < 4) : bias (applyBiasCfg s v) k =
    followed (setReg s .aiBiasCfg 0 v) k { bias s k with short := (bias s k).short && bit v (8 * k + 7) } := by
  rw [applyBiasCfg_eq, bias_biasFollowAll _ hk, followed_congr (configured_same s v), configured, bias_unshorted _ _ hk]
  rfl

/-- Inputs that differ from others in the biases alone. -/
def BiasOnly (a b : Inputs) : Prop := ∃ l, b = { a with bias := l }

theorem biasOnly_setBias {a : Inputs} {t : State} (h : BiasOnly a t.ai) (b : Nat) (x : Bias) :
    BiasOnly a (setBias t b x).ai := by
  obtain ⟨l, hl⟩ := h
  exact ⟨tput Bias.reset l b x, by simp only [setBias, hl]⟩

theorem biasOnly_biasFollow {a : Inputs} (t : State) (b : Nat) (h : BiasOnly a t.ai) : BiasOnly a (biasFollow t b).ai := by
  unfold biasFollow
  dsimp only
  split
  · exact h
  · exact biasOnly_setBias h b _

theorem biasOnly_biasFollowAll {a : Inputs} (t : State) (h : BiasOnly a t.ai) : BiasOnly a (biasFollowAll t).ai :=
  each_invariant (I := fun t => BiasOnly a t.ai) biasOnly_biasFollow [0, 1, 2, 3] t h

theorem biasOnly_configured (s : State) (v : Word) : BiasOnly { s.ai with biasConf := true } (configured s v).ai :=
  each_invariant (I := fun t => BiasOnly { s.ai with biasConf := true } t.ai) (fun _ b ht => biasOnly_setBias ht b _) _ _
    ⟨s.ai.bias, rfl⟩

theorem sameBias_followAll {u t : State} (h : SameBias u t) : SameBias u (biasFollowAll t) :=
  each_invariant (I := SameBias u) (sameBias_follow u) [0, 1, 2, 3] t h

theorem regs_applyBiasCfg (s : State) (v : Word) : (applyBiasCfg s v).regs = (setReg s .aiBiasCfg 0 v).regs := by
  rw [applyBiasCfg_eq]
  exact (sameBias_followAll (configured_same s v)).1

/-- A configuration of the biases changes, of the inputs, the biases alone. -/
theorem applyBiasCfg_ai (s : State) (v : Word) :
    (applyBiasCfg s v).ai = { s.ai with bias := (applyBiasCfg s v).ai.bias, biasConf := true } := by
  rw [applyBiasCfg_eq]
  obtain ⟨l, hl⟩ := biasOnly_biasFollowAll _ (biasOnly_configured s v)
  rw [hl]

/-- A bias that shows what it is to show stays as it is. -/
theorem followed_steady {s : State} {k : Nat} (h : biasSteady s k) : followed s k (bias s k) = bias s k := by
  obtain ⟨hon, hlast, -⟩ := h
  refine if_pos ?_
  rw [Bool.and_eq_true]
  exact ⟨beq_iff_eq.2 hon, beq_iff_eq.2 hlast⟩

theorem shortBit (b : Fin 4) : (1 : Word) <<< (8 * b.val + 7) = BitVec.ofNat 32 (2 ^ (8 * b.val + 7)) := by
  revert b
  decide

/-- The configuration that a bias is switched by. -/
theorem exec_biasEnable {s : State} {t : Frac} {b : Fin 4} {en : Bool} (h : inWindow s = true) :
    exec (.biasEnable t b en) s =
      .next (applyBiasCfg (atT s t) (reg (setBit s .aiBiasCfg 0 (8 * b.val + 7) en) .aiBiasCfg 0)) := by
  rw [reg_setBit_same, ← shortBit]
  exact congrArg Host.Outcome.next (atBoundary_open h _)

section
variable (s : State) (t : Frac) (b : Fin 4) (en : Bool)

/-- The state that a bias follows, its bit written. -/
def switched : State := setBit (atT s t) .aiBiasCfg 0 (8 * b.val + 7) en

theorem bias_switch {k : Nat} (hk : k < 4) :
    bias (applyBiasCfg (atT s t) (reg (setBit s .aiBiasCfg 0 (8 * b.val + 7) en) .aiBiasCfg 0)) k =
      followed (switched s t b en) k { bias s k with
        short := (bias s k).short && rb (switched s t b en) .aiBiasCfg 0 (8 * k + 7) } := by
  rw [bias_applyBiasCfg _ _ hk]
  rw [show setReg (atT s t) .aiBiasCfg 0 (reg (setBit s .aiBiasCfg 0 (8 * b.val + 7) en) .aiBiasCfg 0) =
    switched s t b en by rw [reg_setBit_same]; rfl]
  rfl

theorem liveJacks_switched : liveJacks (switched s t b en) = liveJacks s := by
  refine List.filter_congr fun j _ => congrArg (bit · 31) (reg_setReg_ne _ _ ?_)
  simp [regOff, regPlace]
  omega

theorem rb_aiJack_switched (j c : Nat) : rb (switched s t b en) .aiJack j c = rb s .aiJack j c := by
  refine congrArg (bit · c) (reg_setReg_ne _ _ ?_)
  simp [regOff, regPlace]
  omega

theorem rb_enabled_switched : rb (switched s t b en) .aiBiasCfg 0 (8 * b.val + 7) = en :=
  rb_setBit_same _ _ _ (by omega) en

theorem wantedIf_switched {k : Nat} (short : Bool) : wantedIf (switched s t b en) k short =
    (domOn s domAIN && rb (switched s t b en) .aiBiasCfg 0 (8 * k + 7) && !short
      && (liveJacks s).all (fun j => !rb s .aiJack j (24 + k) || (aiJack s j).biasOk)) := by
  simp only [wantedIf, liveJacks_switched, rb_aiJack_switched]
  rfl

theorem slewFrom_switched (k : Nat) (x : Bias) (on : Bool) (hk : k < 4) :
    slewFrom (switched s t b en) k x on = slewFrom (atT s t) k x on := by
  have hv : rf (switched s t b en) .aiBiasCfg 0 (8 * k + 1) (8 * k) = rf s .aiBiasCfg 0 (8 * k + 1) (8 * k) :=
    rf_setBit _ _ _ (by omega) (by omega) en
  simp only [slewFrom, hv]
  rfl

/-- A bias that is steady, and is not the one switched, stays. -/
theorem bias_switch_other {k : Nat} (hkb : k ≠ b.val) (hk : k < 4) (h : biasSteady s k) :
    bias (applyBiasCfg (atT s t) (reg (setBit s .aiBiasCfg 0 (8 * b.val + 7) en) .aiBiasCfg 0)) k = bias s k := by
  have hbit : rb (switched s t b en) .aiBiasCfg 0 (8 * k + 7) = rb s .aiBiasCfg 0 (8 * k + 7) :=
    rb_setBit_other _ _ _ (by omega) (by omega) en
  obtain ⟨hon, hlast, hshort⟩ := h
  have hx : { bias s k with short := (bias s k).short && rb s .aiBiasCfg 0 (8 * k + 7) } = bias s k := by
    cases hs : (bias s k).short with
    | false => rw [Bool.false_and, ← hs]
    | true => rw [hshort hs, Bool.and_true, ← hs]
  have hw : wantedIf (switched s t b en) k (bias s k).short = biasWanted s k := by rw [wantedIf_switched, hbit]; rfl
  rw [bias_switch s t b en hk, hbit, hx]
  refine if_pos ?_
  rw [Bool.and_eq_true, hw, slewFrom_switched s t b en k _ _ hk]
  exact ⟨beq_iff_eq.2 hon, beq_iff_eq.2 hlast⟩

theorem ai_switch :
    (applyBiasCfg (atT s t) (reg (setBit s .aiBiasCfg 0 (8 * b.val + 7) en) .aiBiasCfg 0)).ai = { s.ai with
      bias := (applyBiasCfg (atT s t) (reg (setBit s .aiBiasCfg 0 (8 * b.val + 7) en) .aiBiasCfg 0)).ai.bias
      biasConf := true } := applyBiasCfg_ai _ _

theorem regs_switch :
    (applyBiasCfg (atT s t) (reg (setBit s .aiBiasCfg 0 (8 * b.val + 7) en) .aiBiasCfg 0)).regs =
      (setBit s .aiBiasCfg 0 (8 * b.val + 7) en).regs := by
  rw [reg_setBit_same, regs_applyBiasCfg]
  rfl

end

/-- A jack that is held changes, at the time that the clock has moved on to. -/
theorem exec_jackChanged (s : State) (t : Frac) (j : Fin 8) (n : Nat) : exec (.jackChanged t j n) s = .next (
    if !rb s .aiJack j.val 31 || !jackHeld (rtcAdvance s n) (aiJack s j.val) j.val (reg s .aiJack j.val) then
      atT (rtcAdvance s n) t
    else emit (setAiJack (atT (rtcAdvance s n) t) j.val { aiJack s j.val with
      plugged := !(aiJack s j.val).plugged, pend := true, changedAt := nowTicks (atT s t) }) 0x0505 j.val
        (pay [(0, 1, b2n !(aiJack s j.val).plugged), (2, 2, rf s .aiJack j.val 15 0), (4, 1, rf s .aiJack j.val 27 24)])) := by
  simp only [exec, execJackChanged, rtcAdvance_atT]
  rw [rtcAdvance_eq]
  rfl

/-- Settles O19: microphones that stick and recover, biases that switch and trip, jacks that change and release. -/
theorem micsAndJacks : Obligations.MicsAndJacks := by
  unfold Obligations.MicsAndJacks
  refine ⟨fun t m v s hlive hst he => ?_, fun t m s hst he => ?_, fun t b s hw hd hon hsh hj => ?_,
    fun t b s hw hon => ?_, fun t b i s hon he => ?_, fun t j n s hen hheld he => ?_, fun t j s hw hdue hp => ?_⟩
  · refine answers_eq rfl (if_neg (by simp [hst]; exact hlive)) ?_
    exact ⟨by simp; rfl, raised_emit_of he rfl rfl rfl, by simp [only_iff]⟩
  · refine answers_eq rfl (if_neg (by simp [hst])) ?_
    exact ⟨by simp [settlePdm]; rfl, raised_emit_of he rfl rfl rfl, by simp [only_iff]⟩
  · refine answers_eq (exec_biasEnable hw) rfl ⟨?_, fun k => bias_switch_other s t b true, ai_switch s t b true,
      regs_switch s t b true, by simp [still_iff]⟩
    have hx : { bias s b.val with short := (bias s b.val).short && rb (switched s t b true) .aiBiasCfg 0 (8 * b.val + 7) } =
        bias s b.val := by rw [hsh, Bool.false_and, ← hsh]
    have hwant : wantedIf (switched s t b true) b.val false = true := by
      simp [wantedIf_switched, hd, rb_enabled_switched]
      exact fun j hlive => .inl (hj j hlive)
    rw [bias_switch s t b true b.isLt, hx, followed, hsh, hwant, if_neg (by simp [hon])]
    rw [slewFrom_switched s t b true _ _ _ b.isLt]
    simp [slewFrom, hsh]
  · refine answers_eq (exec_biasEnable hw) rfl ⟨?_, fun k => bias_switch_other s t b false, ai_switch s t b false,
      regs_switch s t b false, by simp [still_iff]⟩
    have hwant : wantedIf (switched s t b false) b.val false = false := by
      simp [wantedIf_switched, rb_enabled_switched]
    rw [bias_switch s t b false b.isLt, rb_enabled_switched, Bool.and_false, followed, hwant, if_neg (by simp [hon])]
    rw [slewFrom_switched s t b false _ _ _ b.isLt]
    rfl
  · refine answers_eq rfl (if_neg (by simp [hon])) ?_
    exact ⟨by simp; rfl, raised_emit_of he rfl rfl rfl, by simp [only_iff]⟩
  · refine answers_eq (exec_jackChanged s t j n) (if_neg ?_) ?_
    · simp [hen, hheld]
    exact ⟨by simp, by simp [setAiJack], raised_emit_of he (by simp) (by simp) rfl, by simp [only_iff]⟩
  · refine answers_eq rfl ((atBoundary_open hw _).trans (if_pos ?_)) ?_
    · simp [hdue, hp]
    exact ⟨by simp; rfl, by simp [still_iff]⟩

end Sys2Proof.Proofs.Mics

/-! Outputs start and stop, fault and follow their jacks (R203–R210). -/

namespace Sys2Proof.Proofs.Outputs

open Sys2Proof Sys2Proof.Machine Sys2Proof.Safety Sys2Proof.Laws
open Sys2Proof.Proofs.Frames Sys2Proof.Proofs.Writes Sys2Proof.Proofs.Reads

/-! ### EN -/

theorem exec_outEnable {s : State} {t : Frac} {o : Fin 24} (h : inWindow s = true) : exec (.outEnable t o) s =
    .next (applyOutCfg (atT s t) o.val (reg (setBit (atT s t) .aqOutCfg o.val 31 true) .aqOutCfg o.val)) := by
  rw [setBit, reg_setReg_same]
  exact congrArg Host.Outcome.next (atBoundary_open h _)

theorem exec_outDisable {s : State} {t : Frac} {o : Fin 24} (h : inWindow s = true) : exec (.outDisable t o) s =
    .next (applyOutCfg (atT s t) o.val (reg (setBit (atT s t) .aqOutCfg o.val 31 false) .aqOutCfg o.val)) := by
  rw [setBit, reg_setReg_same]
  exact congrArg Host.Outcome.next (atBoundary_open h _)

/-- The configuration of an output with EN written: the other bits are as they were. -/
theorem applyOutCfg_en (s : State) (o : Nat) (v : Bool) : applyOutCfg s o (reg (setBit s .aqOutCfg o 31 v) .aqOutCfg o) =
    if domOn s domAOUT then (if v then outStart (setBit s .aqOutCfg o 31 v) o else outStop (setBit s .aqOutCfg o 31 v) o)
    else setBit s .aqOutCfg o 31 v := by
  have h27 : bit (reg (setBit s .aqOutCfg o 31 v) .aqOutCfg o) 27 = bit (reg s .aqOutCfg o) 27 :=
    rb_setBit_other s .aqOutCfg o (by decide) (by decide) v
  have h30 : bit (reg (setBit s .aqOutCfg o 31 v) .aqOutCfg o) 30 = bit (reg s .aqOutCfg o) 30 :=
    rb_setBit_other s .aqOutCfg o (by decide) (by decide) v
  have hen : bit (reg (setBit s .aqOutCfg o 31 v) .aqOutCfg o) 31 = v := rb_setBit_same s .aqOutCfg o (by decide) v
  have hset : setReg s .aqOutCfg o (reg (setBit s .aqOutCfg o 31 v) .aqOutCfg o) = setBit s .aqOutCfg o 31 v := by
    rw [setBit, reg_setReg_same]
  unfold applyOutCfg
  simp only [hset, h27, h30, hen]
  cases domOn s domAOUT <;> simp

theorem rampLen_setBit_en (s : State) (o : Nat) (v : Bool) : rampLen (setBit s .aqOutCfg o 31 v) o = rampLen s o := by
  have h : rf (setBit s .aqOutCfg o 31 v) .aqOutCfg o 25 24 = rf s .aqOutCfg o 25 24 :=
    rf_setBit s .aqOutCfg o (by decide) (.inr (by decide)) v
  simp only [rampLen, h]
  rfl

theorem startJack_setBit (s : State) {o : Nat} (ho : o < 24) (k : Nat) (v : Bool) :
    startJack (setBit s .aqOutCfg o 31 v) k = startJack s k := by
  have h : rb (setBit s .aqOutCfg o 31 v) .aqHpJack ((k - 16) / 2) 31 = rb s .aqHpJack ((k - 16) / 2) 31 := by
    refine congrArg (bit · 31) (reg_setBit_ne s _ _ _ _ ?_)
    simp [regOff, regPlace]
    omega
  simp only [startJack, jackFree, h]
  rfl

theorem outStart_shunted {s : State} {o : Nat} (h : (outp s o).st = .shunted) (hd : domOn s domAOUT = true) :
    outStart s o = outBegin s o 1 := by
  simp [outStart, h, hd]

theorem outStop_running {s : State} {o : Nat} (h : (outp s o).st = .running) : outStop s o =
    setOutp s o { outp s o with st := .stopping, phase := .rampDown, gain := rampTo (outp s o).gain false (rampLen s o),
                                stopAt := nowTicks s + 1 } := by
  simp [outStop, h]

/-- Settles O20: the start, the stop and the ramps of an output. -/
theorem outputStartsAndStops : Obligations.OutputStartsAndStops := by
  unfold Obligations.OutputStartsAndStops
  refine ⟨fun t o s hw hst hd => ?_, fun t o s hw hd => ?_, fun t o h s hw => ?_, fun t o s hst hph hrun => ?_,
    fun t o s hst hph => ?_, fun t o s hst hph hone he => ?_, fun t o s hw hd hst => ?_, fun t o s hst hph hz => ?_,
    fun t o s hst hph he => ?_, fun t o s hh => ?_⟩
  · refine answers_eq (exec_outEnable hw) ((applyOutCfg_en (atT s t) o.val true).trans ((if_pos hd).trans
      ((if_pos rfl).trans (outStart_shunted (s := setBit (atT s t) .aqOutCfg o.val 31 true) hst hd)))) ?_
    refine ⟨?_, rfl, by simp [still_iff, outBegin]⟩
    have hj : startJack (setBit s .aqOutCfg o.val 31 true) o.val = startJack s o.val := startJack_setBit s o.isLt _ true
    rw [← hj]
    rfl
  · refine answers_eq (exec_outEnable hw) ((applyOutCfg_en (atT s t) o.val true).trans (if_neg (by simp [hd]))) ?_
    exact ⟨rfl, by simp [still_iff]⟩
  · have hstill := SetupLock.still_atT s t
    exact ⟨answers_eq rfl (atBoundary_closed hw _) hstill, answers_eq rfl (atBoundary_closed hw _) hstill,
      answers_eq rfl (atBoundary_closed hw _) hstill⟩
  · refine answers_eq rfl (if_pos ⟨hst, hph, hrun⟩) ?_
    exact ⟨rfl, by simp [still_iff]⟩
  · refine answers_eq rfl (if_pos ⟨hst, hph⟩) ?_
    exact ⟨rfl, by simp [still_iff]⟩
  · refine answers_eq rfl (if_pos ⟨hst, hph, hone⟩) ?_
    exact ⟨by simp; rfl, raised_emit_of he rfl rfl rfl, by simp [only_iff]⟩
  · refine answers_eq (exec_outDisable hw) ((applyOutCfg_en (atT s t) o.val false).trans ((if_pos hd).trans
      ((if_neg Bool.false_ne_true).trans (outStop_running (s := setBit (atT s t) .aqOutCfg o.val 31 false) hst)))) ?_
    refine ⟨?_, rfl, by simp [still_iff]⟩
    rw [rampLen_setBit_en]
    rfl
  · refine answers_eq rfl (if_pos ⟨hst, hph, hz⟩) ?_
    exact ⟨rfl, by simp [still_iff]⟩
  · refine answers_eq rfl (if_pos ⟨hst, hph⟩) ?_
    exact ⟨by simp; rfl, raised_emit_of he rfl rfl rfl, by simp [only_iff]⟩
  · refine answers_eq rfl (if_pos hh) ?_
    exact ⟨rfl, by simp [still_iff]⟩

end Sys2Proof.Proofs.Outputs

/-! Shorts, the charge pump, the supply clamp and the headphone jacks (R206–R210). -/

namespace Sys2Proof.Proofs.OutputFaults

open Sys2Proof Sys2Proof.Machine Sys2Proof.Safety Sys2Proof.Laws
open Sys2Proof.Proofs.Frames Sys2Proof.Proofs.Writes Sys2Proof.Proofs.Reads

/-! ### The outputs that a pass over some of the 24 rewrites -/

/-- Of the outputs' part, a state differs from another in the outputs alone. -/
def OutputsOnly (a b : Outputs) : Prop := ∃ l, b = { a with ch := l }

theorem outputsOnly_setOutp {a : Outputs} {s : State} (h : OutputsOnly a s.aq) (o : Nat) (x : Outp) :
    OutputsOnly a (setOutp s o x).aq := by
  obtain ⟨l, hl⟩ := h
  exact ⟨tput Outp.reset l o x, by simp only [setOutp, hl]⟩

theorem OutputsOnly.eq {a b : Outputs} (h : OutputsOnly a b) : b = { a with ch := b.ch } := by
  obtain ⟨l, rfl⟩ := h
  rfl

theorem mem_allOut_filter {p : Nat → Bool} {o : Nat} : o ∈ allOut.filter p ↔ o < 24 ∧ p o = true := by
  rw [List.mem_filter, allOut, List.mem_range]

theorem nodup_allOut_filter (p : Nat → Bool) : (allOut.filter p).Nodup := List.nodup_range.filter _

/-! ### The rail -/

theorem outp_railFault (s : State) (cause o : Nat) : outp (railFault s cause) o = if o < 24 ∧ outLive s o = true
    then { outp s o with st := .fault, phase := .idle, cause := cause, gain := .zero } else outp s o := by
  have h := each_keyed outp (I := fun _ => True) (f := outFault cause)
    (g := fun _ x => { x with st := .fault, phase := .idle, cause := cause, gain := .zero }) (fun _ _ _ => trivial)
    (fun t c k _ => outp_setOutp t c k _) _ (nodup_allOut_filter (outLive s))
    { s with aq := { s.aq with cpOk := false, cpFault := s.aq.cpFault || allOut.any (outLive s) } } trivial o
  simp only [mem_allOut_filter] at h
  exact h

theorem railFault_aq (s : State) (cause : Nat) : (railFault s cause).aq = { s.aq with
    cpOk := false, cpFault := s.aq.cpFault || allOut.any (outLive s), ch := (railFault s cause).aq.ch } :=
  (each_invariant (I := fun u => OutputsOnly
    { s.aq with cpOk := false, cpFault := s.aq.cpFault || allOut.any (outLive s) } u.aq)
    (fun _ o h => outputsOnly_setOutp h o _) _ _ ⟨s.aq.ch, rfl⟩).eq

/-! ### The rail is good again -/

/-- The rail is good, the outputs not yet started. -/
def railGood (s : State) : State := { s with aq := { s.aq with cpOk := true, cpFault := false, clamp := none } }

/-- The outputs that faulted with the rail start. -/
def restarted (s : State) : State := each (allOut.filter (resumable s)) (railGood s) fun s o => outBegin s o 2

/-- An output that starts with the rail good. -/
def begun (s : State) (o : Nat) (x : Outp) : Outp :=
  { x with st := .starting, phase := .driver, startCause := 2, gain := .zero,
           jack := if !x.jackMute then .one else if jackFree s o then x.jack else .zero }

/-- A state that agrees with another on what lets an output start, the rail good. -/
def SameStart (s t : State) : Prop := t.aq.cpOk = true ∧ t.regs = s.regs ∧ t.aq.jack = s.aq.jack

theorem outp_outBegin {s t : State} (h : SameStart s t) (c k : Nat) :
    outp (outBegin t c 2) k = if k = c then begun s c (outp t c) else outp t k := by
  obtain ⟨hok, hr, hj⟩ := h
  have hphase : pumpPhase { t with aq := { t.aq with cpRun := true } } = .driver := if_pos hok
  have hfree : jackFree { t with aq := { t.aq with cpRun := true } } c = jackFree s c := by
    simp only [jackFree, rb, reg, hr, hpJack, hj]
  simp only [outBegin, startJack, hphase, hfree, outp_setOutp]
  rfl

theorem sameStart_outBegin {s : State} (t : State) (c : Nat) (h : SameStart s t) : SameStart s (outBegin t c 2) := h

theorem outp_restarted (s : State) (o : Nat) :
    outp (restarted s) o = if o < 24 ∧ resumable s o = true then begun s o (outp s o) else outp s o := by
  have h := each_keyed outp (I := SameStart s) (f := fun s o => outBegin s o 2) (g := begun s)
    sameStart_outBegin (fun t c k ht => outp_outBegin ht c k) _ (nodup_allOut_filter (resumable s)) (railGood s)
    ⟨rfl, rfl, rfl⟩ o
  simp only [mem_allOut_filter] at h
  exact h

theorem each_outBegin_aq (l : List Nat) : ∀ s : State, ∃ ch, (each l s fun s o => outBegin s o 2).aq =
    { s.aq with cpRun := s.aq.cpRun || !l.isEmpty, ch := ch } := by
  induction l with
  | nil => exact fun s => ⟨s.aq.ch, by simp [each]⟩
  | cons o l ih =>
    intro s
    obtain ⟨ch, hch⟩ := ih (outBegin s o 2)
    refine ⟨ch, hch.trans ?_⟩
    simp [outBegin, setOutp]

theorem restarted_aq (s : State) : (restarted s).aq = { s.aq with
    cpRun := s.aq.cpRun || allOut.any (resumable s), cpOk := true, cpFault := false, clamp := none,
    ch := (restarted s).aq.ch } := by
  have hany : allOut.any (resumable s) = !(allOut.filter (resumable s)).isEmpty := by
    rw [Bool.eq_iff_iff]
    simp
  obtain ⟨ch, hch⟩ := each_outBegin_aq (allOut.filter (resumable s)) (railGood s)
  have h : (restarted s).aq = { s.aq with
    cpRun := s.aq.cpRun || allOut.any (resumable s), cpOk := true, cpFault := false, clamp := none, ch := ch } := by
    rw [hany]
    exact hch
  rw [h]

@[simp] theorem outLive_atT (s : State) (t : Frac) (o : Nat) : outLive (atT s t) o = outLive s o := rfl

theorem resumable_iff {s : State} {o : Nat} : resumable s o = true ↔
    (outp s o).st = .fault ∧ ((outp s o).cause = 2 ∨ (outp s o).cause = 3) ∧ rb s .aqOutCfg o 31 = true := by
  simp [resumable, and_assoc]

theorem outMask_congr {p q : Nat → Bool} (h : ∀ o, o < 24 → p o = q o) : outMask p = outMask q := by
  unfold outMask maskOf
  refine List.foldl_ext _ _ _ fun a o ho => ?_
  rw [h o (List.mem_range.1 ho)]

/-- The mask of the outputs that start again. -/
theorem outMask_resumable (s : State) : outMask (allOut.filter (resumable s)).contains =
    outMask (fun o => (outp s o).st == .fault && ((outp s o).cause == 2 || (outp s o).cause == 3) &&
      rb s .aqOutCfg o 31) := by
  refine outMask_congr fun o ho => ?_
  rw [Bool.eq_iff_iff, List.contains_iff_mem, mem_allOut_filter]
  exact ⟨fun h => h.2, fun h => ⟨ho, h⟩⟩

theorem legSide {l : ShortLeg} {o : Nat} (h : l = .headphone ↔ 16 ≤ o) : (l == .headphone) = decide (16 ≤ o) := by
  rw [Bool.eq_iff_iff, beq_iff_eq, decide_eq_true_eq, h]

/-! ### A jack that is released -/

theorem jackUp_running {s : State} {o : Nat} (h : (outp s o).st = .running) (hm : (outp s o).jack.moving = false)
    (hone : rampAtOne (outp s o).jack = false) :
    jackUp s o = setOutp s o { outp s o with jack := rampTo (outp s o).jack true (rampLen s o) } := by
  simp [jackUp, h, hm, hone]

theorem outp_jackUp_ne (s : State) {o k : Nat} (h : k ≠ o) : outp (jackUp s o) k = outp s k := by
  unfold jackUp
  dsimp only
  split
  · exact outp_setOutp_ne s _ h
  · exact outp_setOutp_ne s _ h
  · split
    · exact outp_setOutp_ne s _ h
    · exact outp_setOutp_ne s _ h

theorem hpJack_jackUp (s : State) (o h : Nat) : hpJack (jackUp s o) h = hpJack s h := by
  unfold jackUp
  dsimp only
  repeat' split
  all_goals rfl

theorem rampLen_congr {s t : State} (hr : t.regs = s.regs) (hf : t.fr = s.fr) (o : Nat) : rampLen t o = rampLen s o := by
  simp only [rampLen, rf, reg, hr, hf]

/-- The output that runs ramps back, also after the other output of the jack. -/
theorem outp_jackUp_jackUp {s : State} {o c : Nat} (hc : c ≠ o) (h : (outp s o).st = .running)
    (hm : (outp s o).jack.moving = false) (hone : rampAtOne (outp s o).jack = false) :
    outp (jackUp (jackUp s c) o) o = { outp s o with jack := rampTo (outp s o).jack true (rampLen s o) } ∧
    outp (jackUp (jackUp s o) c) o = { outp s o with jack := rampTo (outp s o).jack true (rampLen s o) } := by
  have ho : outp (jackUp s c) o = outp s o := outp_jackUp_ne s (Ne.symm hc)
  constructor
  · rw [jackUp_running (by rw [ho]; exact h) (by rw [ho]; exact hm) (by rw [ho]; exact hone), outp_setOutp_same, ho,
      rampLen_congr (s := s) (by simp) (by simp)]
  · rw [outp_jackUp_ne _ (Ne.symm hc), jackUp_running h hm hone, outp_setOutp_same]

theorem exec_hpJackUnmute {s : State} {t : Frac} {h : Fin 4} (hw : inWindow s = true) (hen : rb s .aqHpJack h.val 31 = true)
    (hpl : (hpJack s h.val).plugged = true) (hre : (hpJack s h.val).released = false)
    (hdue : (hpJack s h.val).changedAt + rf s .aqHpJack h.val 15 8 * tMs ≤ nowTicks (atT s t)) :
    exec (.hpJackUnmute t h) s = .next (hpEach (setHpJack (atT s t) h.val
      { hpJack s h.val with pend := false, released := true }) h.val jackUp) := by
  refine congrArg Host.Outcome.next ((atBoundary_open hw _).trans ((if_pos hpl).trans ?_))
  refine (if_neg ?_).trans (if_pos ?_)
  · simp [hpl]
  · rw [Bool.and_eq_true, Bool.and_eq_true, Bool.and_eq_true, decide_eq_true_eq]
    exact ⟨⟨⟨hen, hpl⟩, by simp [hre]⟩, hdue⟩

/-- A headphone jack that is held changes, at the time that the clock has moved on to. -/
theorem exec_hpJackChanged (s : State) (t : Frac) (h : Fin 4) (n : Nat) : exec (.hpJackChanged t h n) s = .next (
    if !rb s .aqHpJack h.val 31 ||
      !jackHeld (rtcAdvance s n) (hpJack s h.val) (rf s .aqHpJack h.val 26 24) (reg s .aqHpJack h.val) then
      atT (rtcAdvance s n) t
    else emit (setHpJack (atT (rtcAdvance s n) t) h.val { hpJack s h.val with
      plugged := !(hpJack s h.val).plugged, pend := true, changedAt := nowTicks (atT s t) }) 0x0604 h.val
        (pay [(0, 1, b2n !(hpJack s h.val).plugged), (1, 1, rf s .aqHpJack h.val 26 24)])) := by
  simp only [exec, execHpJackChanged, rtcAdvance_atT]
  rw [rtcAdvance_eq]
  rfl

/-- Settles O21: shorts, the pump, the clamp and the headphone jacks. -/
theorem outputFaultsAndJacks : Obligations.OutputFaultsAndJacks := by
  unfold Obligations.OutputFaultsAndJacks
  refine ⟨fun t o l s hd hl he => ?_, fun t v s hrun hf he => ?_, fun t s hf hd he => ?_, fun t v s he => ?_,
    fun t s hl => ?_, fun t h n s hen hheld he => ?_, fun t h s hw hd hen hpl hre hdue => ?_,
    fun t h s hw hd hen hpl hre hdue => ?_⟩
  · refine answers_eq rfl (if_neg ?_) ?_
    · simp [hd, legSide hl]
    refine ⟨?_, ?_, by simp [only_iff]⟩
    · simp [outFault]
      rfl
    · cases l <;> exact raised_emit_of he rfl rfl rfl
  · refine answers_eq rfl (if_neg ?_) ?_
    · simp [hrun]
      exact fun hc => by simpa using hf.resolve_left (by simp [hc])
    exact ⟨by simp; exact railFault_aq (atT s t) 2, fun o => (outp_emit _ _ _ _ _).trans (outp_railFault (atT s t) 2 o),
      raised_emit_of he (by simp) (by simp) (by simp), by simp [only_iff]⟩
  · refine answers_eq (v := emit (restarted (atT s t)) 0x0606 noUnit _) rfl ((if_neg ?_).trans
      (congrArg (fun m => emit (restarted (atT s t)) 0x0606 noUnit (pay [(4, 4, m)])) (outMask_resumable (atT s t)))) ?_
    · simp [hf]
      exact hd
    refine ⟨?_, fun o => ?_, raised_emit_of he (by simp [restarted, railGood]) (by simp [restarted, railGood]) ?_, ?_⟩
    · simp
      exact restarted_aq (atT s t)
    · rw [outp_emit, outp_restarted]
      simp only [resumable_iff]
      rfl
    · simp [restarted, railGood]
    · simp [only_iff, restarted, railGood]
  · have haq : (railFault { atT s t with aq := { s.aq with clamp := some v.toNat } } 3).aq = { s.aq with
        cpOk := false, cpFault := s.aq.cpFault || allOut.any (outLive s), clamp := some v.toNat,
        ch := (railFault { atT s t with aq := { s.aq with clamp := some v.toNat } } 3).aq.ch } := railFault_aq _ _
    have hout : ∀ o, outp (railFault { atT s t with aq := { s.aq with clamp := some v.toNat } } 3) o =
        if o < 24 ∧ outLive s o = true
        then { outp s o with st := .fault, phase := .idle, cause := 3, gain := .zero } else outp s o :=
      outp_railFault _ _
    cases hc : s.aq.clamp with
    | none =>
      refine answers_eq rfl (if_neg (by simp [hc])) ⟨?_, fun o => (outp_emit _ _ _ _ _).trans (hout o), fun _ => ?_, ?_⟩
      · simp
        exact haq
      · exact raised_emit_of he (by simp) (by simp) (by simp)
      · simp [only_iff]
    | some c =>
      refine answers_eq rfl (if_pos (by simp [hc])) ⟨haq, hout, fun h => absurd h (by simp), ?_⟩
      simp [only_iff]
  · refine answers_eq rfl (if_neg ?_) ?_
    · simp [allOut]
      exact hl
    exact ⟨rfl, by simp [still_iff]⟩
  · refine answers_eq (exec_hpJackChanged s t h n) (if_neg ?_) ?_
    · simp [hen, hheld]
    exact ⟨by simp, by simp [setHpJack], raised_emit_of he (by simp) (by simp) rfl, by simp [only_iff]⟩
  · have hj := exec_hpJackUnmute (t := t) hw hen hpl hre hdue
    refine answers_eq hj (if_pos hd) ⟨?_, fun o ho => ?_, fun o ho hst hm hone => ?_, ?_⟩
    · exact (hpJack_jackUp _ _ _).trans ((hpJack_jackUp _ _ _).trans (hpJack_setHpJack_same _ _ _))
    · simp only [hpOuts, List.mem_cons, List.not_mem_nil, or_false, not_or] at ho
      exact (outp_jackUp_ne _ ho.2).trans ((outp_jackUp_ne _ ho.1).trans (outp_setHpJack _ _ _ _))
    · have hpair := fun {c : Nat} (hc : c ≠ o) => outp_jackUp_jackUp
        (s := setHpJack (atT s t) h.val { hpJack s h.val with pend := false, released := true }) hc hst hm hone
      simp only [hpOuts, List.mem_cons, List.not_mem_nil, or_false] at ho
      obtain rfl | rfl := ho
      · exact (hpair (c := 17 + 2 * h.val) (by omega)).2
      · exact (hpair (c := 16 + 2 * h.val) (by omega)).1
    · simp [still_iff]
  · refine answers_eq (exec_hpJackUnmute hw hen hpl hre hdue) (if_neg ?_) ?_
    · simp
      exact hd
    exact ⟨rfl, by simp [still_iff]⟩

end Sys2Proof.Proofs.OutputFaults

/-! The power channels, and the faults of one channel (R126–R128, R142). -/

namespace Sys2Proof.Proofs.Channels

open Sys2Proof Sys2Proof.Machine Sys2Proof.Safety Sys2Proof.Laws
open Sys2Proof.Proofs.Frames Sys2Proof.Proofs.Writes Sys2Proof.Proofs.Reads

/-! ### A channel written twice -/

theorem die_put (s : State) (l : Tbl PsCh) (d : PowerDie) : die { s with ps := { s.ps with ch := l } } d = die s d := by
  cases d <;> rfl

/-- A die whose channels rest still rests when one of them comes to rest in another way. -/
theorem dieIdle_put {s : State} {c : Nat} {x y : PsCh} (h : idleState y.st = true → idleState x.st = true) (d : PowerDie)
    (hd : dieIdle { s with ps := { s.ps with ch := tput PsCh.reset s.ps.ch c y } } d = true) :
    dieIdle { s with ps := { s.ps with ch := tput PsCh.reset s.ps.ch c x } } d = true := by
  unfold dieIdle at hd ⊢
  refine List.all_eq_true.2 fun k hk => ?_
  have hy := List.all_eq_true.1 hd k hk
  simp only [psCh, tget_tput] at hy ⊢
  split
  · rename_i hkc
    rw [if_pos hkc] at hy
    exact h hy
  · rename_i hkc
    rw [if_neg hkc] at hy
    exact hy

/-- The start of the idle hold after a channel is written. -/
theorem setPsCh_eq (s : State) (c : Nat) (x : PsCh) : setPsCh s c x =
    setDie { s with ps := { s.ps with ch := tput PsCh.reset s.ps.ch c x } } (dieOf c) { die s (dieOf c) with
      idleSince := if dieIdle { s with ps := { s.ps with ch := tput PsCh.reset s.ps.ch c x } } (dieOf c) &&
        domOn s (dieDom (dieOf c)) then some ((die s (dieOf c)).idleSince.getD (nowTicks s)) else none } := by
  unfold setPsCh followIdle
  dsimp only
  rw [die_put]
  rfl

/-- A channel written twice is as written the second time, unless the first value kept its die from resting. -/
theorem setPsCh_setPsCh {s : State} {c : Nat} {x y : PsCh} (h : idleState y.st = true → idleState x.st = true) :
    setPsCh (setPsCh s c x) c y = setPsCh s c y := by
  have hm := dieIdle_put (s := s) (c := c) h (dieOf c)
  have hi : ∀ d, dieIdle { setPsCh s c x with ps := { (setPsCh s c x).ps with
      ch := tput PsCh.reset (setPsCh s c x).ps.ch c y } } d =
      dieIdle { s with ps := { s.ps with ch := tput PsCh.reset s.ps.ch c y } } d := by
    intro d
    simp only [ch_setPsCh, tput_tput]
    rfl
  rw [setPsCh_eq (setPsCh s c x) c y, hi, setPsCh_eq s c x, setPsCh_eq s c y]
  generalize dieIdle { s with ps := { s.ps with ch := tput PsCh.reset s.ps.ch c x } } (dieOf c) = ix at hm ⊢
  generalize dieIdle { s with ps := { s.ps with ch := tput PsCh.reset s.ps.ch c y } } (dieOf c) = iy at hm ⊢
  generalize dieOf c = d
  cases d <;> cases iy <;> cases ix <;> simp_all [setDie, die, domOn]

theorem chCauses_of {s t : State} (h : t.ps = s.ps) (c : Nat) : chCauses t c = chCauses s c := by
  have hd : die t (dieOf c) = die s (dieOf c) := by
    cases dieOf c <;> simp only [die, h]
  simp only [chCauses, hd, h]

theorem setPsCh_ps_setBit (s : State) (n : RegName) (i b : Nat) (v : Bool) (c : Nat) (x : PsCh) :
    (setPsCh (setBit s n i b v) c x).ps = (setPsCh s c x).ps := by
  rw [setPsCh_eq, setPsCh_eq]
  cases dieOf c <;> rfl

/-- A channel that is latched by a fault. -/
def latchedBy (x : PsCh) (cause : Nat) : PsCh :=
  { x with st := .latched, cause := cause, phase := .idle, ramp := none, dcSince := none, limited := 0 }

theorem setPsCh_latchCh {s : State} {c k : Nat} {y : PsCh} : setPsCh (latchCh s c k) c y = setPsCh s c y :=
  setPsCh_setPsCh fun _ => rfl

theorem psCh_latchCh (s : State) (c k : Nat) : psCh (latchCh s c k) c = latchedBy (psCh s c) k := psCh_setPsCh_same

@[simp] theorem nowTicks_latchCh (s : State) (c k : Nat) : nowTicks (latchCh s c k) = nowTicks s := nowTicks_setPsCh

theorem exec_brOvercurrent {s : State} {t : Frac} {c : Fin 8} {v : BitVec 16} (h : switching s c.val = true) :
    exec (.brOvercurrent t c v) s = .next (emit (setPsCh (atT s t) c.val { latchedBy (psCh s c.val) 1 with
      trips := inc16 (psCh s c.val).trips, tripAt := some (nowTicks (atT s t)) }) 0x0303 c.val
        (pay [(0, 1, rf s .psChCfg c.val 15 14), (2, 2, v.toNat), (4, 2, inc16 (psCh s c.val).trips)])) := by
  have hsw : (!switching (atT s t) c.val) = false := by rw [show switching (atT s t) c.val = true from h]; rfl
  simp only [exec, execBrOvercurrent, hsw, Bool.false_eq_true, if_false, setPsCh_latchCh, psCh_latchCh, rf_setPsCh,
    nowTicks_latchCh]
  rfl

section
variable {s : State} {t : Frac} {d : Fin 4}

/-- The 64th limited cycle shuts a drive channel down, to be tried again while retries are left. -/
theorem exec_dxLimitShutdown (h : switching s (8 + d.val) = true) (hl : 64 ≤ (psCh s (8 + d.val)).limited) :
    exec (.dxLimitShutdown t d) s = .next (
      if rf s .psDxCfg d.val 31 24 = 0 ∨ (psCh s (8 + d.val)).retries < rf s .psDxCfg d.val 31 24 then
        emit (setPsCh (atT s t) (8 + d.val) { latchedBy (psCh s (8 + d.val)) 2 with
          trips := inc16 (psCh s (8 + d.val)).trips, st := .hiccup, retries := inc8 (psCh s (8 + d.val)).retries })
          0x0304 (8 + d.val) (pay [(0, 1, inc8 (psCh s (8 + d.val)).retries), (1, 1, rf s .psDxCfg d.val 31 24),
            (4, 4, hiccupMs (rf s .psDxCfg d.val 23 20))])
      else emit (setPsCh (atT s t) (8 + d.val) { latchedBy (psCh s (8 + d.val)) 2 with
          trips := inc16 (psCh s (8 + d.val)).trips })
        0x0305 (8 + d.val) (pay [(0, 1, (psCh s (8 + d.val)).retries)])) := by
  have hgo : (!switching (atT s t) (8 + d.val) || decide ((psCh (atT s t) (8 + d.val)).limited < 64)) = false := by
    rw [show switching (atT s t) (8 + d.val) = true from h]
    exact decide_eq_false (Nat.not_lt.2 hl)
  simp only [exec, execDxLimitShutdown, hgo, Bool.false_eq_true, if_false, setPsCh_latchCh, psCh_latchCh, rf_setPsCh,
    psCh_setPsCh_same]
  rw [setPsCh_setPsCh (by simp [idleState])]
  rfl

end

/-- Settles O14: trips, limited cycles, the shutdown at the 64th, the retry, and DC at an output. -/
theorem channelFaults : Obligations.ChannelFaults := by
  unfold Obligations.ChannelFaults
  refine ⟨fun t c v s hsw he => ?_, fun t d k s hsw => ?_, fun t d s hsw hl hr he => ?_, fun t d s hsw hl h0 hr he => ?_,
    fun t d s hst hc => ?_, fun t c a s hm ha hdue he => ?_⟩
  · refine answers_eq (exec_brOvercurrent hsw) rfl ?_
    exact ⟨by simp; rfl, raised_emit_of he (by simp) (by simp) (by simp), by simp [only_iff]⟩
  · refine answers_eq rfl (if_neg (by simp; exact hsw)) ?_
    exact ⟨rfl, by simp [still_iff]⟩
  · refine answers_eq (exec_dxLimitShutdown hsw hl) (if_pos hr) ?_
    exact ⟨by simp; rfl, raised_emit_of he (by simp) (by simp) (by simp), by simp [only_iff]⟩
  · refine answers_eq (exec_dxLimitShutdown hsw hl) (if_neg (by omega)) ?_
    exact ⟨by simp; rfl, raised_emit_of he (by simp) (by simp) (by simp), by simp [only_iff]⟩
  · refine answers_eq rfl ((if_pos hst).trans (if_pos (List.isEmpty_iff.2 hc))) ?_
    exact ⟨rfl, by simp [still_iff]⟩
  · have hexec : exec (.dcFault t c) s = .next (emit (latchCh (atT s t) c.val 3) 0x0306 c.val
        (pay [(0, 2, toU 16 (psCh s c.val).dc), (2, 1, rf s .psChDc c.val 5 0), (3, 1, rf s .psChDc c.val 13 8)])) := by
      have hgo : (!mutable (atT s t) c.val ||
          decide (nowTicks (atT s t) < a + 10 * rf s .psChDc c.val 13 8 * tMs)) = false := by
        rw [show mutable (atT s t) c.val = true from hm]
        exact decide_eq_false (Nat.not_lt.2 hdue)
      simp only [exec, execDcFault, psCh_atT, ha]
      exact congrArg Host.Outcome.next (if_neg (by rw [rf_atT, hgo]; exact Bool.false_ne_true))
    refine answers_eq hexec rfl ?_
    exact ⟨by simp; rfl, raised_emit_of he (by simp) (by simp) (by simp), by simp [only_iff]⟩

end Sys2Proof.Proofs.Channels

/-! The start and the stop of a power channel, its mute and its re-arm (R120, R121, R126, R132). -/

namespace Sys2Proof.Proofs.ChannelStarts

open Sys2Proof Sys2Proof.Machine Sys2Proof.Safety Sys2Proof.Laws
open Sys2Proof.Proofs.Frames Sys2Proof.Proofs.Writes Sys2Proof.Proofs.Reads Sys2Proof.Proofs.Channels

/-! ### The start -/

theorem enableCh_notReady {s : State} {c : Nat} (h : (psCh s c).st = .off) (hr : s.ps.ready = false) :
    enableCh s c = psRefuse s := by
  simp [enableCh, h, hr]

theorem enableCh_off {s : State} {c : Nat} (h : (psCh s c).st = .off) (hr : s.ps.ready = true) (hf : fbOver s c = false)
    (hw : within10ms s c (nowTicks s) = false) (hc : chCauses s c = []) :
    enableCh s c = setPsCh (setBit s .psChCtrl c 0 true) c { psCh s c with
      st := .starting, phase := .bootstrap, startCause := 1, ramp := none, dcSt := .zero, dc := 0,
      dcSince := none, limited := 0 } := by
  have hcb : (chCauses (setBit s .psChCtrl c 0 true) c).isEmpty = true := by
    exact List.isEmpty_iff.2 ((chCauses_of rfl c).trans hc)
  unfold enableCh
  rw [if_neg (fun hn => hn h), if_neg (by simp [hr, hf]), if_neg (by simp [hw])]
  exact if_pos hcb

/-! ### The stop -/

/-- The ramp of a stop starts from where the channel's ramp is, whatever else has been noted of the channel. -/
theorem stopSlope_disabled (s : State) (c i b d : Nat) (v : Bool) (r : Option (Nat × Frac × Nat)) (x y : PsCh)
    (n : RegName) :
    stopSlope (setPsCh (setBit s n i b v) c y) { x with disabledAt := d, rearm := r } = stopSlope s x := by
  simp only [stopSlope, nextStrobe, startGain, setPsCh_keeps]
  rfl

theorem disableCh_on {s : State} {c : Nat}
    (h : (psCh s c).st = .starting ∨ (psCh s c).st = .run ∨ (psCh s c).st = .quiet) :
    disableCh s c = setPsCh (setBit s .psChCtrl c 0 false) c { psCh s c with
      st := .stopping, phase := .idle, disabledAt := s.fr.fn + 1, rearm := none,
      ramp := some (stopSlope s (psCh s c)) } := by
  have hx : disableCh s c = setPsCh (setPsCh (setBit s .psChCtrl c 0 false) c { psCh s c with
      disabledAt := s.fr.fn + 1, rearm := none }) c { psCh s c with
        st := .stopping, phase := .idle, disabledAt := s.fr.fn + 1, rearm := none,
        ramp := some (stopSlope s (psCh s c)) } := by
    unfold disableCh
    dsimp only
    rw [psCh_setPsCh_same]
    rw [stopSlope_disabled]
    obtain h | h | h := h <;> simp only [psCh_setReg, setBit, h] <;> rfl
  rw [hx, setPsCh_setPsCh (by simp [idleState])]

/-! ### The re-arm as the window closes -/

/-- A pass over a list of keys that leaves a property of one key as it was until it comes to that key, and then
establishes another, which it leaves. -/
theorem each_at {α : Type} {f : State → α → State} {P Q : State → Prop} {c : α}
    (hP : ∀ t a, a ≠ c → P t → P (f t a)) (hc : ∀ t, P t → Q (f t c)) (hQ : ∀ t a, a ≠ c → Q t → Q (f t a)) :
    ∀ l : List α, l.Nodup → c ∈ l → ∀ s, P s → Q (each l s f) := by
  intro l
  induction l with
  | nil => exact fun _ h => absurd h (List.not_mem_nil)
  | cons a l ih =>
    intro hn hm s hs
    obtain ⟨ha, hl⟩ := List.nodup_cons.1 hn
    by_cases hac : a = c
    · subst hac
      have hkeep : ∀ m : List α, a ∉ m → ∀ t, Q t → Q (each m t f) := by
        intro m
        induction m with
        | nil => exact fun _ _ ht => ht
        | cons b m ihm =>
          intro hb t ht
          obtain ⟨hab, hm'⟩ := not_or.1 (mt List.mem_cons.2 hb)
          exact ihm hm' _ (hQ t b (Ne.symm hab) ht)
      exact hkeep l ha _ (hc s hs)
    · exact ih hl ((List.mem_cons.1 hm).resolve_left (Ne.symm hac)) _ (hP s a hac hs)

/-- What a re-arm that stood leaves of its channel: a latched channel that may start does. -/
def Rearmed (s : State) (c : Nat) (now : Nat) (t : State) : Prop :=
  (psCh t c).rearm = none ∧ ((psCh s c).st = .latched → within10ms s c now = false → chCauses s c = [] →
    (psCh t c).st = .starting ∧ (psCh t c).phase = .softStart ∧ (psCh t c).startCause = 2)

theorem chCauses_setPsCh (s : State) (c k : Nat) (x : PsCh) : chCauses (setPsCh s c x) k = chCauses s k := by
  rw [chCauses, die_setPsCh, clock_setPsCh]
  rfl

/-- What of a die bars the start of its channels. -/
def dieFlags (x : Die) : Bool × Bool × Bool × Bool := (x.uv, x.ov, x.vg, x.ot)

theorem chCauses_congr {s t : State} (hc : t.ps.clock = s.ps.clock) (hd : ∀ d, dieFlags (die t d) = dieFlags (die s d))
    (k : Nat) : chCauses t k = chCauses s k := by
  obtain ⟨huv, hov, hvg, hot⟩ : (die t (dieOf k)).uv = (die s (dieOf k)).uv ∧ (die t (dieOf k)).ov = (die s (dieOf k)).ov ∧
      (die t (dieOf k)).vg = (die s (dieOf k)).vg ∧ (die t (dieOf k)).ot = (die s (dieOf k)).ot := by
    simpa [dieFlags] using hd (dieOf k)
  simp only [chCauses, hc, huv, hov, hvg, hot]

theorem chCauses_setDie {s : State} {d : PowerDie} {x : Die} (h : dieFlags x = dieFlags (die s d)) (k : Nat) :
    chCauses (setDie s d x) k = chCauses s k := by
  refine chCauses_congr (by cases d <;> rfl) (fun e => ?_) k
  cases d <;> cases e
  · exact h
  · rfl
  · rfl
  · exact h

/-- A state in which a channel is as it was, nothing against its start having changed. -/
def Untouched (s : State) (c : Nat) (t : State) : Prop := psCh t c = psCh s c ∧ chCauses t c = chCauses s c

theorem untouched_setPsCh {s t : State} {c a : Nat} (x : PsCh) (ha : a ≠ c) (h : Untouched s c t) :
    Untouched s c (setPsCh t a x) :=
  ⟨(psCh_setPsCh_ne t x (Ne.symm ha)).trans h.1, (chCauses_setPsCh t a c x).trans h.2⟩

theorem untouched_of {s t u : State} {c : Nat} (h : Untouched s c t) (hu : u.ps = t.ps) : Untouched s c u :=
  ⟨(psCh_of_ps hu c).trans h.1, (chCauses_of hu c).trans h.2⟩

theorem presentCause_ps (s : State) (c : Nat) : (presentCause s c).2.ps = s.ps := by
  unfold presentCause draw
  split <;> rfl

theorem startOrMute_cases (s : State) (c cause : Nat) : ∃ u x, u.ps = s.ps ∧ startOrMute s c cause = setPsCh u c x := by
  unfold startOrMute
  split
  · exact ⟨s, _, rfl, rfl⟩
  · exact ⟨(presentCause s c).2, _, presentCause_ps s c, rfl⟩

theorem rearmRefused_ps (s : State) (c reason fn : Nat) (t : Frac) :
    (rearmRefused s c reason fn t).ps = { s.ps with refused := inc32 s.ps.refused } := by
  simp [rearmRefused, psRefuse]

theorem untouched_dieStrobe {s t : State} {c : Nat} (d : PowerDie) (v k : BitVec 16) (h : Untouched s c t) :
    Untouched s c (dieStrobe t d v k) := by
  have hdie : ∀ {u : State} {x : Die}, Untouched s c u → dieFlags x = dieFlags (die u d) → Untouched s c (setDie u d x) :=
    fun hu hx => ⟨psCh_setDie.trans hu.1, (chCauses_setDie hx c).trans hu.2⟩
  unfold dieStrobe followIdle
  exact hdie (hdie h rfl) rfl

theorem untouched_rearmTakes {s t : State} {c a : Nat} (ha : a ≠ c) (h : Untouched s c t) :
    Untouched s c (rearmTakes t a) := by
  have hstart : ∀ {u : State} (k : Nat), Untouched s c u → Untouched s c (startOrMute u a k) := by
    intro u k hu
    obtain ⟨w, x, hw, hx⟩ := startOrMute_cases u a k
    rw [hx]
    exact untouched_setPsCh x ha (untouched_of hu hw)
  have hrefuse : ∀ {u : State} (k fn : Nat) (f : Frac), Untouched s c u → Untouched s c (rearmRefused u a k fn f) := by
    intro u k fn f hu
    have hp := rearmRefused_ps u a k fn f
    refine untouched_of (t := psRefuse u) ⟨hu.1, ?_⟩ hp
    exact (chCauses_congr rfl (fun d => by cases d <;> rfl) c).trans hu.2
  unfold rearmTakes
  dsimp only
  split
  · exact h
  · rename_i fn f now _
    have hu : ∀ x, Untouched s c (setPsCh t a x) := fun x => untouched_setPsCh x ha h
    split
    · split
      · exact hrefuse _ _ _ (hu _)
      · exact hstart _ (hu _)
    · exact hstart _ (untouched_setPsCh _ ha (hu _))
    · exact hrefuse _ _ _ (hu _)

theorem psCh_rearmTakes_ne (s : State) {a c : Nat} (h : c ≠ a) : psCh (rearmTakes s a) c = psCh s c :=
  (untouched_rearmTakes (s := s) (Ne.symm h) ⟨rfl, rfl⟩).1

theorem rearm_setPsCh (s : State) (c : Nat) (x : PsCh) : (psCh (setPsCh s c x) c).rearm = x.rearm := by
  rw [psCh_setPsCh_same]

theorem rearm_startOrMute (s : State) (c k : Nat) : (psCh (startOrMute s c k) c).rearm = (psCh s c).rearm := by
  unfold startOrMute
  split
  · exact rearm_setPsCh _ _ _
  · refine (rearm_setPsCh _ _ _).trans ?_
    dsimp only
    rw [psCh_of_ps (presentCause_ps s c) c]

theorem psCh_startOrMute_free {s : State} {c : Nat} (k : Nat) (h : chCauses s c = []) :
    psCh (startOrMute s c k) c = { psCh s c with
      st := .starting, phase := .softStart, startCause := k, ramp := some (riseOver s (5 * tMs)),
      dcSt := .zero, dc := 0, dcSince := none, limited := 0 } := by
  unfold startOrMute
  rw [h]
  exact psCh_setPsCh_same

theorem rearm_rearmRefused (s : State) (c reason fn : Nat) (t : Frac) :
    (psCh (rearmRefused s c reason fn t) c).rearm = (psCh s c).rearm :=
  congrArg (fun x : PsCh => x.rearm) (psCh_of_ps (s := psRefuse s) (rearmRefused_ps s c reason fn t) c)

theorem rearmed_rearmTakes {s t : State} {c fn now : Nat} {f : Frac} (hr : (psCh s c).rearm = some (fn, f, now))
    (h : Untouched s c t) : Rearmed s c now (rearmTakes t c) := by
  obtain ⟨hx, hcauses⟩ := h
  have hfree : ∀ x, chCauses (setPsCh t c x) c = chCauses s c := fun x => (chCauses_setPsCh t c c x).trans hcauses
  have hnone : (psCh (setPsCh t c { psCh s c with rearm := none }) c).rearm = none :=
    congrArg PsCh.rearm psCh_setPsCh_same
  have hwithin : within10ms (setPsCh t c { psCh s c with rearm := none }) c now = within10ms s c now := by
    simp only [within10ms, psCh_setPsCh_same]
  unfold rearmTakes
  rw [hx]
  dsimp only
  rw [hr]
  dsimp only
  split
  · split
    · rename_i hw
      refine ⟨(rearm_rearmRefused _ _ _ _ _).trans hnone, fun _ hnot => ?_⟩
      rw [hwithin, hnot, Bool.and_false] at hw
      exact absurd hw Bool.false_ne_true
    · refine ⟨(rearm_startOrMute _ _ _).trans hnone, fun _ _ hc => ?_⟩
      rw [psCh_startOrMute_free 2 ((hfree _).trans hc)]
      exact ⟨rfl, rfl, rfl⟩
  · rename_i hst
    refine ⟨(rearm_startOrMute _ _ _).trans ?_, fun hl => absurd (hl.symm.trans hst) (by decide)⟩
    rw [psCh_setPsCh_same]
    exact hnone
  · rename_i hst _
    refine ⟨(rearm_rearmRefused _ _ _ _ _).trans hnone, fun hl => absurd hl hst⟩

/-- A channel that is re-armed stays so when no more than its protection history and its samples change. -/
theorem Rearmed.of_psCh {s t u : State} {c now : Nat} (h : Rearmed s c now t) (hr : (psCh u c).rearm = (psCh t c).rearm)
    (hst : (psCh t c).st = .starting → (psCh u c).st = .starting) (hp : (psCh u c).phase = (psCh t c).phase)
    (hs : (psCh u c).startCause = (psCh t c).startCause) : Rearmed s c now u := by
  refine ⟨hr.trans h.1, fun hl hw hc => ?_⟩
  obtain ⟨h1, h2, h3⟩ := h.2 hl hw hc
  exact ⟨hst h1, hp.trans h2, hs.trans h3⟩

theorem Rearmed.of_ps {s t u : State} {c now : Nat} (h : Rearmed s c now t) (hu : u.ps = t.ps) : Rearmed s c now u := by
  have hx := psCh_of_ps hu c
  exact h.of_psCh (by rw [hx]) (by rw [hx]; exact id) (by rw [hx]) (by rw [hx])

theorem Rearmed.setPsCh_ne {s t : State} {c a now : Nat} (h : Rearmed s c now t) (ha : a ≠ c) (x : PsCh) :
    Rearmed s c now (setPsCh t a x) := by
  have hx := psCh_setPsCh_ne t x (Ne.symm ha)
  exact h.of_psCh (by rw [hx]) (by rw [hx]; exact id) (by rw [hx]) (by rw [hx])

theorem Rearmed.rearmTakes_ne {s t : State} {c a now : Nat} (h : Rearmed s c now t) (ha : a ≠ c) :
    Rearmed s c now (rearmTakes t a) := by
  have hp := psCh_rearmTakes_ne t (Ne.symm ha)
  exact h.of_psCh (by rw [hp]) (by rw [hp]; exact id) (by rw [hp]) (by rw [hp])

theorem Rearmed.chStrobe {s t : State} {c now : Nat} (h : Rearmed s c now t) (clip : Tbl Word) (a : Nat) :
    Rearmed s c now (chStrobe clip t a) := by
  by_cases ha : a = c
  · subst ha
    unfold Machine.chStrobe
    dsimp only
    split
    all_goals
      refine h.of_psCh (by rw [psCh_setPsCh_same]) (fun hst => ?_) (by rw [psCh_setPsCh_same]) (by rw [psCh_setPsCh_same])
      rw [psCh_setPsCh_same]
      exact (if_neg (by simp [hst])).trans hst
  · exact h.setPsCh_ne ha _

theorem Rearmed.passOn {s t : State} {c now : Nat} (h : Rearmed s c now t) (clip : Tbl Word) (a : Nat) :
    Rearmed s c now (passOn clip t a) := by
  by_cases ha : a = c
  · subst ha
    unfold Machine.passOn
    dsimp only
    split
    all_goals
      refine h.of_psCh (by rw [psCh_setPsCh_same]) (fun hst => ?_) (by rw [psCh_setPsCh_same]) (by rw [psCh_setPsCh_same])
      rw [psCh_setPsCh_same]
      exact hst
  · unfold Machine.passOn
    dsimp only
    split
    · exact h.setPsCh_ne ha _
    · exact h.setPsCh_ne ha _

theorem nodup_allCh : allCh.Nodup := by decide

theorem mem_allCh (c : Fin 12) : c.val ∈ allCh := by
  revert c
  decide

theorem rearmed_powerStrobe {s t : State} {c : Fin 12} {fn now : Nat} {f : Frac}
    (hr : (psCh s c.val).rearm = some (fn, f, now)) (h : Untouched s c.val t) (x : StrobeIn) :
    Rearmed s c.val now (powerStrobe t x) := by
  refine each_invariant (fun t a ht => ht.chStrobe x.loopClip a) _ _ ?_
  refine each_at (P := Untouched s c.val) (fun t a ha ht => untouched_rearmTakes ha ht)
    (fun t ht => rearmed_rearmTakes hr ht) (fun t a ha ht => ht.rearmTakes_ne ha) allCh nodup_allCh (mem_allCh c) _ ?_
  exact untouched_dieStrobe _ _ _ (untouched_dieStrobe _ _ _ h)

theorem rearmed_protectStrobe {s t : State} {c now : Nat} (h : Rearmed s c now t) (x : StrobeIn) :
    Rearmed s c now (protectStrobe t x) := by
  have hpass := each_invariant (I := Rearmed s c now) (fun u a hu => hu.passOn x.loopClip a) allCh t h
  refine hpass.of_ps ?_
  simp [protectStrobe]

/-! ### A re-arm that is refused -/

@[simp] theorem refused_setPsCh (s : State) (c : Nat) (x : PsCh) : (setPsCh s c x).ps.refused = s.ps.refused := by
  rw [setPsCh_eq]
  cases dieOf c <;> rfl

@[simp] theorem refused_dieStrobe (s : State) (d : PowerDie) (v k : BitVec 16) :
    (dieStrobe s d v k).ps.refused = s.ps.refused := by
  cases d <;> rfl

@[simp] theorem refused_chStrobe (s : State) (clip : Tbl Word) (c : Nat) :
    (chStrobe clip s c).ps.refused = s.ps.refused := refused_setPsCh _ _ _

@[simp] theorem refused_passOn (s : State) (clip : Tbl Word) (c : Nat) : (passOn clip s c).ps.refused = s.ps.refused := by
  unfold passOn
  dsimp only
  split <;> exact refused_setPsCh _ _ _

/-- A state in which a re-arm of one channel alone stands, the channel and the count of refusals as before. -/
def AloneArmed (s : State) (c : Nat) (t : State) : Prop :=
  psCh t c = psCh s c ∧ t.ps.refused = s.ps.refused ∧ ∀ k, k ≠ c → (psCh t k).rearm = none

theorem rearmTakes_none {s : State} {c : Nat} (h : (psCh s c).rearm = none) : rearmTakes s c = s := by
  unfold rearmTakes
  dsimp only
  rw [h]

/-- No re-arm stands any more, and one was refused. -/
def OneRefused (s t : State) : Prop := t.ps.refused = inc32 s.ps.refused ∧ ∀ k, (psCh t k).rearm = none

theorem oneRefused_rearmTakes {s t : State} {c fn now : Nat} {f : Frac} (hr : (psCh s c).rearm = some (fn, f, now))
    (hl : (psCh s c).st ≠ .latched) (hh : (psCh s c).st ≠ .hiccup) (h : AloneArmed s c t) :
    OneRefused s (rearmTakes t c) := by
  obtain ⟨hx, href, hothers⟩ := h
  have heq : rearmTakes t c = rearmRefused (setPsCh t c { psCh t c with rearm := none }) c 2 fn f := by
    unfold rearmTakes
    rw [hx]
    dsimp only
    rw [hr]
    dsimp only
    split
    · rename_i hst
      exact absurd hst hl
    · rename_i hst
      exact absurd hst hh
    · rfl
  have hps := rearmRefused_ps (setPsCh t c { psCh t c with rearm := none }) c 2 fn f
  rw [heq]
  refine ⟨?_, fun k => ?_⟩
  · rw [hps]
    dsimp only
    rw [refused_setPsCh, href]
  · rw [psCh_of_ps (s := psRefuse (setPsCh t c { psCh t c with rearm := none })) hps k]
    by_cases hk : k = c
    · subst hk
      exact rearm_setPsCh _ _ _
    · exact (congrArg PsCh.rearm (psCh_setPsCh_ne t _ hk)).trans (hothers k hk)

/-- So many operations of the channels have been refused. -/
def Refusals (n : Nat) (t : State) : Prop := t.ps.refused = n

theorem refusals_chPass {n : Nat} {t : State} (clip : Tbl Word) (h : Refusals n t) :
    Refusals n (each allCh t (chStrobe clip)) :=
  each_invariant (I := Refusals n) (fun u a hu => (refused_chStrobe u clip a).trans hu) allCh t h

theorem refusals_passOn {n : Nat} {t : State} (clip : Tbl Word) (h : Refusals n t) :
    Refusals n (each allCh t (passOn clip)) :=
  each_invariant (I := Refusals n) (fun u a hu => (refused_passOn u clip a).trans hu) allCh t h

theorem aloneArmed_dieStrobe {s t : State} {c : Nat} (d : PowerDie) (v k : BitVec 16) (h : AloneArmed s c t) :
    AloneArmed s c (dieStrobe t d v k) := by
  have hch : ∀ j, psCh (dieStrobe t d v k) j = psCh t j := fun j =>
    (untouched_dieStrobe (s := t) (c := j) d v k ⟨rfl, rfl⟩).1
  obtain ⟨hx, href, hothers⟩ := h
  exact ⟨(hch c).trans hx, (refused_dieStrobe t d v k).trans href, fun j hj => (congrArg PsCh.rearm (hch j)).trans (hothers j hj)⟩

theorem oneRefused_pass {s t : State} {c : Fin 12} {fn now : Nat} {f : Frac}
    (hr : (psCh s c.val).rearm = some (fn, f, now)) (hl : (psCh s c.val).st ≠ .latched)
    (hh : (psCh s c.val).st ≠ .hiccup) (h : AloneArmed s c.val t) : OneRefused s (each allCh t rearmTakes) := by
  refine each_at (P := AloneArmed s c.val) (Q := OneRefused s) (fun u a ha hu => ?_)
    (fun u hu => oneRefused_rearmTakes hr hl hh hu) (fun u a _ hu => ?_) allCh nodup_allCh (mem_allCh c) t h
  · rw [rearmTakes_none (hu.2.2 a ha)]
    exact hu
  · rw [rearmTakes_none (hu.2 a)]
    exact hu

theorem refused_powerStrobe {s t : State} {c : Fin 12} {fn now : Nat} {f : Frac}
    (hr : (psCh s c.val).rearm = some (fn, f, now)) (hl : (psCh s c.val).st ≠ .latched)
    (hh : (psCh s c.val).st ≠ .hiccup) (h : AloneArmed s c.val t) (x : StrobeIn) :
    (powerStrobe t x).ps.refused = inc32 s.ps.refused :=
  refusals_chPass x.loopClip
    (oneRefused_pass hr hl hh (aloneArmed_dieStrobe .b x.pvddB x.tempB (aloneArmed_dieStrobe .a x.pvddA x.tempA h))).1

theorem refused_protectStrobe (s : State) (x : StrobeIn) : (protectStrobe s x).ps.refused = s.ps.refused := by
  have hps : (protectStrobe s x).ps = (each allCh s (passOn x.loopClip)).ps := by simp [protectStrobe]
  rw [hps]
  exact refusals_passOn x.loopClip rfl

/-- The channels are those of before the frame until the power stage takes its strobe, and after it those that the
protection leaves. -/
theorem exec_frameStrobe_ps {s : State} (x : StrobeIn) (hr : s.fr.running = true) (hg : s.ck.gap = none)
    (ho : s.fr.overrun = none) : ∃ u s', exec (.frameStrobe x) s = .next s' ∧ u.ps = s.ps ∧
      s'.ps = (protectStrobe (powerStrobe u x) x).ps := by
  refine ⟨engineStrobe (capture (streamsStrobe (beginFrame (atT s 0)) x.storeLost) x),
    strobeBody (beginFrame (atT s 0)) x, congrArg Host.Outcome.next (if_neg (by simp [hr, hg, ho])), ?_, ?_⟩
  · simp
  · simp [strobeBody]

/-- The configuration of a channel is written while it is OFF (R120). -/
theorem psConfig_off {s : State} {c : Nat} {v : Word} (h : (psCh s c).st = .off)
    (ha : regAccept .psChCfg c (reg s .psChCfg c) (mergeReg .psChCfg c (reg s .psChCfg c) v) = true) :
    psConfig s c .chCfg v = setReg s .psChCfg c (mergeReg .psChCfg c (reg s .psChCfg c) v) := by
  unfold psConfig
  rw [if_neg (by simp), if_neg (by simp [h])]
  exact if_pos ha

theorem exec_psConfigWrite {s : State} {t : Frac} {o : Owner} {c : Fin 12} {v : Word}
    (hw : writeTaken s t o (0x30104 + 0x20 * c.val) (0x1D + c.val)) : exec (.psConfigWrite t o c .chCfg v) s =
      .next (psConfig (noted s t o (0x30104 + 0x20 * c.val) (0x1D + c.val) (valueTakes (atT s t) .psChCfg c.val v)) c.val
        .chCfg v) := by
  have hoff : 0x30100 + 0x20 * c.val + 0x04 = 0x30104 + 0x20 * c.val := by omega
  rw [← directWrite_taken hw (fun s => psConfig s c.val .chCfg v), ← hoff]
  rfl

/-- Settles O13: the start, the stop, the mute and the re-arm of a power channel, and its configuration. -/
theorem channelStartsAndStops : Obligations.ChannelStartsAndStops := by
  unfold Obligations.ChannelStartsAndStops
  refine ⟨fun t c s hw hst hr hf hwin hc => ?_, fun t c s hw hst hr => ?_, fun t c s hw hst => ?_,
    fun t c m s hw hm => ?_, fun t c s hw hd => ?_, fun t c m s hw => ?_, fun t c s hw hen hd => ?_,
    fun t src c v s hw hst ha => ?_, fun t c s hst hph => ?_, fun t c s hst hph he => ?_, fun t c s hst he => ?_,
    fun x c r s hrun hgap hov hr => ?_⟩
  · refine answers_eq rfl ((atBoundary_open hw _).trans (enableCh_off (s := atT s t) hst hr hf hwin hc)) ?_
    exact ⟨setPsCh_ps_setBit _ _ _ _ _ _ _, by simp; rfl, by simp [still_iff]⟩
  · refine answers_eq rfl ((atBoundary_open hw _).trans (enableCh_notReady (s := atT s t) hst hr)) ?_
    exact ⟨rfl, by simp [still_iff, psRefuse]⟩
  · refine answers_eq rfl ((atBoundary_open hw _).trans (disableCh_on (s := atT s t) hst)) ?_
    exact ⟨setPsCh_ps_setBit _ _ _ _ _ _ _, by simp; rfl, by simp [still_iff]⟩
  · refine answers_eq rfl ((atBoundary_open hw _).trans (if_neg (by simpa using hm))) ?_
    exact ⟨setPsCh_ps_setBit _ _ _ _ _ _ _, by simp; rfl, by simp [still_iff]⟩
  · refine answers_eq rfl ((atBoundary_open hw _).trans (if_neg (fun h => hd h.1))) ?_
    exact ⟨rfl, by simp [still_iff]⟩
  · have hstill := SetupLock.still_atT s t
    exact ⟨answers_eq rfl (atBoundary_closed hw _) hstill, answers_eq rfl (atBoundary_closed hw _) hstill,
      answers_eq rfl (atBoundary_closed hw _) hstill, answers_eq rfl (atBoundary_closed hw _) hstill⟩
  · refine answers_eq rfl ((atBoundary_open hw _).trans (if_pos ⟨hd, by simp [hen]⟩)) (SetupLock.still_atT s t)
  · refine answers_eq (exec_psConfigWrite hw) (psConfig_off (by simpa [psCh] using hst) (by simpa [reg] using ha)) ?_
    exact ⟨by simp [setReg, reg], by simp [only_iff]⟩
  · refine answers_eq rfl (if_pos ⟨hst, hph⟩) ?_
    exact ⟨rfl, by simp [still_iff]⟩
  · refine answers_eq rfl (if_pos ⟨hst, hph⟩) ?_
    exact ⟨by simp [chStarted], raised_emit_of he (by simp) (by simp) (by simp), by simp [only_iff]⟩
  · refine answers_eq rfl (if_pos hst) ?_
    exact ⟨by simp [chStopped, enterOff], raised_emit_of he (by simp) (by simp) (by simp), by simp [only_iff]⟩
  · obtain ⟨u, s', hexec, hu, hs'⟩ := exec_frameStrobe_ps x hrun hgap hov
    obtain ⟨fn, f, now⟩ := r
    have hun : Untouched s c.val u := untouched_of ⟨rfl, rfl⟩ hu
    have hre := (rearmed_protectStrobe (rearmed_powerStrobe hr hun x) x).of_ps hs'
    refine ⟨s', hexec, hre.1, hre.2, fun hl hh hothers => ?_⟩
    rw [hs', refused_protectStrobe]
    exact refused_powerStrobe hr hl hh ⟨hun.1, by rw [hu], fun k hk => by rw [psCh_of_ps hu]; exact hothers k hk⟩ x

end Sys2Proof.Proofs.ChannelStarts

/-! A sample above the quiet threshold while the idle hold of a die ends (R134, R135). -/

namespace Sys2Proof.Proofs.IdleHold

open Sys2Proof Sys2Proof.Machine Sys2Proof.Safety

/-- Power die A has rested for as long as its idle hold asks for, its channel 0 in QUIET, and the frame that has drained
brings that channel a sample above its threshold. The host reads events. -/
def sounding : State :=
  let served : State := { State.reset with
    pd := { Domains.reset with on := 0xFFF }
    fr := { State.reset.fr with drained := true }
    mx := { State.reset.mx with res := tput none [] (psSink 0) (some 2147483648) }
    ps := { Power.reset with
      ch := tput PsCh.reset [] 0 { PsCh.reset with st := .quiet }, dieA := { Die.reset with idleSince := some 0 } }
    hl := { HostSide.reset with
      linkUp := true, dstate := 0, fn := { HostSide.reset.fn with busMaster := true }
      evt := { Ring.reset with en := true, size := 4 } } }
  setReg served .psDomIdle 0 1

theorem sounding_rests : (die sounding .a).idleSince = some 0 ∧ rb sounding .psDomIdle 0 (dieNum .a) = true ∧
    domOn sounding (dieDom .a) = true ∧ dieIdle sounding .a = true ∧
    0 + rf sounding .psDomIdle 0 15 8 * tSec ≤ nowTicks (atT sounding 0) ∧ evtOpen sounding 2 := by decide

/-- The sample keeps the die on (R134). -/
theorem domainIdleOff_kept : (match exec (.domainIdleOff 0 .a) sounding with
    | .next s' => s'.pd.on
    | _ => 0) = 0xFFF := by decide

/-- Refutes O15: its clause on the idle power-down takes the domain down also when the drained frame brings a QUIET
channel of the die a sample that ends its rest. -/
theorem not_automaticCausesAndIdle : ¬ Obligations.AutomaticCausesAndIdle := by
  unfold Obligations.AutomaticCausesAndIdle
  rintro ⟨-, -, -, -, -, -, -, -, -, hoff, -⟩
  obtain ⟨hi, hb, hd, hr, ht, he⟩ := sounding_rests
  obtain ⟨s', hs', hpd, -⟩ := hoff 0 .a 0 sounding hi hb hd hr ht he
  have hkept := domainIdleOff_kept
  rw [hs'] at hkept
  exact absurd ((congrArg Domains.on hpd).symm.trans hkept) (by decide)

end Sys2Proof.Proofs.IdleHold

/-! Pilot windows, and the writable side of speaker protection (R147–R160). -/

namespace Sys2Proof.Proofs.Protection

open Sys2Proof Sys2Proof.Machine Sys2Proof.Safety Sys2Proof.Laws
open Sys2Proof.Proofs.Frames Sys2Proof.Proofs.Writes Sys2Proof.Proofs.Reads Sys2Proof.Proofs.Checks

/-! ### The end of a pilot window -/

section
variable {s : State} {c : Nat}

/-- A channel of which a window counts. -/
theorem pilot_counts (h : (psCh s c).st = .run ∨ (psCh s c).st = .quiet) :
    ((psCh s c).st != .run && (psCh s c).st != .quiet) = false := by
  obtain h | h := h <;> rw [h] <;> rfl

theorem windowEnd_idle (h1 : (psCh s c).st ≠ .run) (h2 : (psCh s c).st ≠ .quiet) :
    windowEnd s c = setSpCh s c (noWindow (spCh s c)) :=
  if_pos (by simp [h1, h2])

theorem windowEnd_weak (h : (psCh s c).st = .run ∨ (psCh s c).st = .quiet) (hw : pilotWeak s c = true)
    (hb : (spCh s c).badRun = 3) : windowEnd s c =
    emit (setSpCh s c { badWindow (spCh s c) with openRun := 0, badRun := 4, lost := true }) 0x0409 c
      (pay [(0, 2, repU 16 (fTimes (pilotVolts s c) 1000))]) := by
  unfold windowEnd
  dsimp only
  rw [if_neg (by rw [pilot_counts h]; exact Bool.false_ne_true), if_pos hw, hb, Bool.or_comm]
  rfl

theorem windowEnd_open (h : (psCh s c).st = .run ∨ (psCh s c).st = .quiet) (hw : pilotWeak s c = false)
    (ho : pilotOpen s c = true) (hr : (spCh s c).openRun = 1) (hn : (spCh s c).open_ = false) : windowEnd s c =
    emit (setSpCh s c { badWindow (spCh s c) with openRun := 2, badRun := 0, open_ := true }) 0x0407 c
      (pay [(0, 2, repU 16 (fTimes (pilotVolts s c) 1000)), (2, 2, repU 16 (fTimes (pilotAmps s c) 100000))]) := by
  unfold windowEnd
  dsimp only
  rw [if_neg (by rw [pilot_counts h]; exact Bool.false_ne_true), if_neg (by simp [hw]), if_pos ho, hr, hn]
  rfl

theorem windowEnd_valid (h : (psCh s c).st = .run ∨ (psCh s c).st = .quiet) (hw : pilotWeak s c = false)
    (ho : pilotOpen s c = false) : windowEnd s c = validWindow (setSpCh s c (measure s c)) c := by
  unfold windowEnd
  dsimp only
  rw [if_neg (by rw [pilot_counts h]; exact Bool.false_ne_true), if_neg (by simp [hw]), if_neg (by simp [ho])]

/-- The protection of a channel after a valid window, and that of the others: all but the runs of windows, the latch and
the events is as measured. -/
structure AfterWindow (s : State) (c : Nat) (u : State) : Prop where
  valid : (spCh u c).valid = (spCh s c).valid
  frames : (spCh u c).winFrames = (spCh s c).winFrames
  vi : (spCh u c).vi = (spCh s c).vi
  iq : (spCh u c).iq = (spCh s c).iq
  rMeas : (spCh u c).rMeas = (spCh s c).rMeas
  badRun : (spCh u c).badRun = 0
  openRun : (spCh u c).openRun = 0
  others : ∀ k, k ≠ c → spCh u k = spCh s k

theorem afterWindow_emit {s u : State} {c : Nat} (h : AfterWindow s c u) (code unit : Nat) (p : BitVec 128) :
    AfterWindow s c (emit u code unit p) := by
  obtain ⟨h1, h2, h3, h4, h5, h6, h7, h8⟩ := h
  constructor <;> simpa

theorem afterWindow_set {s u : State} {c : Nat} {x : SpCh} (h : AfterWindow s c u)
    (hx : (x.valid, x.winFrames, x.vi, x.iq, x.rMeas, x.badRun, x.openRun) = ((spCh u c).valid, (spCh u c).winFrames,
      (spCh u c).vi, (spCh u c).iq, (spCh u c).rMeas, (spCh u c).badRun, (spCh u c).openRun)) :
    AfterWindow s c (setSpCh u c x) := by
  obtain ⟨h1, h2, h3, h4, h5, h6, h7, h8⟩ := h
  simp only [Prod.mk.injEq] at hx
  obtain ⟨x1, x2, x3, x4, x5, x6, x7⟩ := hx
  constructor
  case others => exact fun k hk => (spCh_setSpCh_ne u x hk).trans (h8 k hk)
  all_goals rw [spCh_setSpCh_same]
  exacts [x1.trans h1, x2.trans h2, x3.trans h3, x4.trans h4, x5.trans h5, x6.trans h6, x7.trans h7]

theorem afterWindow_validWindow (s : State) (c : Nat) : AfterWindow s c (validWindow s c) := by
  unfold validWindow
  extract_lets x low x' lost s1 s2 y s3
  have h1 : AfterWindow s c s1 := by
    constructor
    case others => exact fun k hk => spCh_setSpCh_ne s _ hk
    all_goals rw [spCh_setSpCh_same]
  have h2 : AfterWindow s c s2 := by
    show AfterWindow s c (if _ then _ else _)
    split
    · exact afterWindow_emit h1 _ _ _
    · exact h1
  have h3 : AfterWindow s c s3 := by
    show AfterWindow s c (if _ then _ else _)
    split
    · refine afterWindow_emit (afterWindow_set h2 ?_) _ _ _
      rfl
    · exact h2
  split
  · refine afterWindow_emit (afterWindow_set h3 ?_) _ _ _
    rfl
  · exact h3

end

/-! ### Writes of the group -/

section
variable {s : State} {c : Nat} {n : RegName} {v : Word}

theorem spWrite_taken (hc : n = .spChCtrl → bit v 31 = false)
    (ha : regAccept n c (reg s n c) (mergeReg n c (reg s n c) v) = true)
    (he : ∀ e, (spCh s c).env = some e → e.locked = false ∨
      asStrict e n (reg s n c) (mergeReg n c (reg s n c) v) = true) :
    spWrite s c n v = setReg s n c (mergeReg n c (reg s n c) v) := by
  have hclear : ¬ (n = .spChCtrl ∧ bit v 31 = true) := fun ⟨hn, hb⟩ => by simp [hc hn] at hb
  unfold spWrite
  simp only [ha, if_neg hclear, if_true, Bool.true_and]
  cases henv : (spCh s c).env with
  | none => rfl
  | some e =>
    dsimp only
    obtain hl | hs := he e henv
    · simp [hl]
    · simp [hs]

theorem spWrite_looser {e : Env} (he : (spCh s c).env = some e) (hl : e.locked = true)
    (hs : asStrict e n (reg s n c) (mergeReg n c (reg s n c) v) = false) :
    spWrite s c n v = limitRefused s c (regOff n 0 - 0x38100) := by
  simp [spWrite, he, hl, hs]

theorem exec_spRegisterWrite {t : Frac} {o : Owner} {c : Fin 12} {off : Fin 64} (hw : inWindow s = true)
    (hn : spRegs.find? (fun n => regOff n 0 == 0x38100 + off.val) = some n) :
    exec (.spRegisterWrite t o c off v) s = .next (spWrite (atT s t) c.val n v) := by
  refine congrArg Host.Outcome.next ((atBoundary_open hw _).trans ?_)
  rw [hn]

end

/-- Settles O16: pilot windows, the writes of protection in an open window alone, and envelopes. -/
theorem pilotAndProtection : Obligations.PilotAndProtection := by
  unfold Obligations.PilotAndProtection
  refine ⟨fun t c s hf h1 h2 => ?_, fun t c s hf hst hw hb he => ?_, fun t c s hf hst hw ho hr hn he => ?_,
    fun t c s hf hst hw ho => ?_, fun t c s hf => ?_, fun t c s hw hl he => ?_, fun t c s hw => ?_,
    fun t o c off n v s hw hn hc ha he => ?_, fun t o c off n v e s hw hn he hl hs hev => ?_, fun t o c off v s hw => ?_,
    fun t c d b s hr hf ha hd => ?_, fun t c s hr hf henv hp => ?_, fun t c k s hr hf hk => ?_⟩
  · refine answers_eq rfl ((if_pos hf).trans (windowEnd_idle (s := atT s t) h1 h2)) ?_
    exact ⟨rfl, by simp [still_iff]⟩
  · refine answers_eq rfl ((if_pos hf).trans (windowEnd_weak (s := atT s t) hst hw hb)) ?_
    exact ⟨by simp; rfl, raised_emit_of he rfl rfl rfl, by simp [only_iff]⟩
  · refine answers_eq rfl ((if_pos hf).trans (windowEnd_open (s := atT s t) hst hw ho hr hn)) ?_
    exact ⟨by simp; rfl, raised_emit_of he rfl rfl rfl, by simp [only_iff]⟩
  · refine answers_eq rfl ((if_pos hf).trans (windowEnd_valid (s := atT s t) hst hw ho)) ?_
    obtain ⟨h1, h2, h3, h4, h5, h6, h7, h8⟩ :=
      afterWindow_validWindow (setSpCh (atT s t) c.val (measure (atT s t) c.val)) c.val
    rw [spCh_setSpCh_same] at h1 h2 h3 h4 h5
    exact ⟨h1, h2, h6, h7, h3, h4, h5, fun k hk => (h8 k hk).trans (spCh_setSpCh_ne _ _ hk), by simp [only_iff]⟩
  · exact answers_eq rfl (if_neg (by simp; exact hf)) (SetupLock.still_atT s t)
  · refine answers_eq rfl ((atBoundary_open hw _).trans (if_pos hl)) ?_
    exact ⟨by simp; rfl, raised_emit_of he rfl rfl rfl, by simp [only_iff]⟩
  · refine answers_eq rfl (atBoundary_open hw _) ?_
    exact ⟨rfl, by simp [still_iff, peakClear]⟩
  · refine answers_eq (exec_spRegisterWrite hw hn) (spWrite_taken (s := atT s t) hc ha he) ?_
    exact ⟨rfl, by simp [still_iff]⟩
  · refine answers_eq (exec_spRegisterWrite hw hn) (spWrite_looser (s := atT s t) he hl hs) ?_
    exact ⟨by simp [limitRefused], raised_emit_of hev rfl rfl rfl, by simp [only_iff, limitRefused]⟩
  · have hstill := SetupLock.still_atT s t
    exact ⟨answers_eq rfl (atBoundary_closed hw _) hstill, answers_eq rfl (atBoundary_closed hw _) hstill,
      answers_eq rfl (atBoundary_closed hw _) hstill⟩
  · simp only [exec, execSpEnvLoad]
    refine ⟨_, runCmd_ready hr.1 hf ha, ?_⟩
    unfold longLoad
    rw [cmdData_openSlot, hd]
    exact startLong_ready hr
  · simp only [exec, execSpEnvClear]
    refine ⟨_, runCmd_ready hr.1 hf rfl, ?_⟩
    have hnone : (maskChannels (pwN c 0 % 4096)).find? (fun k =>
        ((spCh (openSlot (atT s t) 0x0031 c).1 k).env.map (·.locked)).getD false) = none := by
      refine List.find?_eq_none.2 fun k hk => ?_
      rw [spCh_congr (s := s) (by simp), henv k hk]
      exact Bool.false_ne_true
    rw [hnone]
    have hstage : stageMeet (openSlot (atT s t) 0x0031 c).1 c.src (.envClear (pwN c 0 % 4096)) 3 (pwN c 0 % 4096) 0 0 =
        stage (openSlot (atT s t) 0x0031 c).1 c.src (.envClear (pwN c 0 % 4096)) := if_pos (by simpa using hp)
    dsimp only
    rw [hstage]
    rw [bindTo_openSlot]
    exact stage_ready hr _ _ _
  · simp only [exec, execSpEnvClear]
    refine ⟨_, runCmd_ready hr.1 hf rfl, ?_⟩
    have hsome : (maskChannels (pwN c 0 % 4096)).find? (fun k =>
        ((spCh (openSlot (atT s t) 0x0031 c).1 k).env.map (·.locked)).getD false) = some k := by
      rw [← hk]
      simp only [spCh_congr (s := s) (t := (openSlot (atT s t) 0x0031 c).1) (by simp)]
    rw [hsome]
    exact answer_ready hr _ _

end Sys2Proof.Proofs.Protection

/-! The sense converters' parts, and their calibration (R281). -/

namespace Sys2Proof.Proofs.Sensing

open Sys2Proof Sys2Proof.Machine Sys2Proof.Safety Sys2Proof.Laws
open Sys2Proof.Proofs.Frames Sys2Proof.Proofs.Writes Sys2Proof.Proofs.Reads Sys2Proof.Proofs.Checks

/-! ### Converters and entries -/

section
variable (s : State)

theorem conv_setConv_other (k : Fin 2) (x : Conv) : conv (setConv s k.val x) (1 - k.val) = conv s (1 - k.val) := by
  obtain rfl | rfl : k = 0 ∨ k = 1 := by omega
  · rfl
  · rfl

@[simp] theorem scEnt_setConv (k : Nat) (x : Conv) (e : Nat) : scEnt (setConv s k x) e = scEnt s e := by
  unfold setConv
  split <;> rfl

@[simp] theorem conv_setScEnt (e : Nat) (x : ScEntry) (k : Nat) : conv (setScEnt s e x) k = conv s k := rfl

@[simp] theorem conv_driveMux (a k : Nat) : conv (driveMux s a) k = conv s k := rfl

@[simp] theorem scEnt_driveMux (a e : Nat) : scEnt (driveMux s a) e = scEnt s e := rfl

@[simp] theorem conv_entryMux (k e j : Nat) : conv (entryMux s k e) j = conv s j := by
  unfold entryMux
  split <;> rfl

@[simp] theorem scEnt_entryMux (k e j : Nat) : scEnt (entryMux s k e) j = scEnt s j := by
  unfold entryMux
  split <;> rfl

@[simp] theorem conv_followMux (k i j : Nat) : conv (followMux s k i) j = conv s j := by
  unfold followMux
  split
  · rfl
  · exact conv_entryMux s _ _ j

@[simp] theorem scEnt_followMux (k i j : Nat) : scEnt (followMux s k i) j = scEnt s j := by
  unfold followMux
  split
  · rfl
  · exact scEnt_entryMux s _ _ j

end

theorem entryMux_sc_congr {u v : State} (hsc : u.sc = v.sc) (hr : u.regs = v.regs) (hp : u.pd = v.pd) (k e : Nat) :
    (entryMux u k e).sc = (entryMux v k e).sc := by
  have hbit : rb u .scEntry0 e 23 = rb v .scEntry0 e 23 := by simp only [rb, reg, hr]
  have hfield : rf u .scEntry0 e 26 24 = rf v .scEntry0 e 26 24 := by simp only [rf, reg, hr]
  unfold entryMux
  rw [hbit, hfield]
  split
  · simp only [driveMux, domOn, hsc, hp]
    rfl
  · exact hsc

theorem setConv_sc_congr {u v : State} (hsc : u.sc = v.sc) (k : Nat) (x : Conv) :
    (setConv u k x).sc = (setConv v k x).sc := by
  unfold setConv
  split <;> simp only [hsc]

theorem calRange_of_regs {u v : State} (hr : u.regs = v.regs) (k e n : Nat) : calRange u k e n = calRange v k e n := by
  simp only [calRange, scMode, scLen, lead, gang, rf, rb, reg, hr]
  rfl

/-! ### Calibration -/

section
variable {s : State} {t : Frac} {c : Cmd}

/-- The converter, the first entry and the count that a calibration names. -/
abbrev calConv (c : Cmd) : Nat := fldN (pwN c 0) 8 8

abbrev calFirst (c : Cmd) : Nat := fldN (pwN c 0) 24 16

abbrev calCount (c : Cmd) : Nat := fldN (pwN c 0) 41 32

/-- The converter is in calibration, its multiplexer at the first entry. -/
def calibrating (u s : State) (c : Cmd) : State :=
  entryMux (setConv u (calConv c) { conv s (calConv c) with st := .calibrating, cal := [] }) (calConv c) (calFirst c)

/-- A calibration that becomes a long operation. -/
theorem calibrating_begun {l : LongOp} (h : longReady s c 0x0050 [0x35]) :
    (startLong (calibrating (openSlot (atT s t) 0x0050 c).1 s c) 0x0050 s.hl.nextSlot l).sc = (calibrating s s c).sc ∧
      begun c 0x0050 l (startLong (calibrating (openSlot (atT s t) 0x0050 c).1 s c) 0x0050 s.hl.nextSlot l) ∧
      onlyWork [.sc] s (startLong (calibrating (openSlot (atT s t) 0x0050 c).1 s c) 0x0050 s.hl.nextSlot l) := by
  have ho := opened_taken (t := t) h.1
  have hv : Opened s t 0x0050 c (calibrating (openSlot (atT s t) 0x0050 c).1 s c) :=
    opened_of_eq ho (by simp [calibrating]) (by simp [calibrating]) (by simp [calibrating])
  obtain ⟨hb, hh, ht⟩ := startLong_begun (l := l) hv h (opened_busy hv)
  refine ⟨?_, hb, ?_⟩
  · exact entryMux_sc_congr (setConv_sc_congr (by simp) _ _) (by simp) (by simp) _ _
  · simp only [onlyWork_iff, hh, ht]
    simp [calibrating]

theorem scCal_first {l : Nat} (hr : cmdTaken s c 0x0050 [0x35])
    (hf : fieldsOk c [(0, 0x3FF01FF0103), (1, 0xFFFFFF)] = true) (hl : pwN c 0 % 4 = l) (hl3 : l ≠ 3)
    (hrange : calRange s (calConv c) (calFirst c) (calCount c) = true) (hd : domOn s domAIN = true)
    (hst : (conv s (calConv c)).st = .stopped) : scCal t c s l = .next (
      match (if l = 2 then ((List.range (calCount c)).map (· + calFirst c)).find? (fun i => (scEnt s i).zero.isNone)
        else none) with
      | some _ => finish (openSlot (atT s t) 0x0050 c).1 s.hl.nextSlot stNoZero noIndex
      | none => startLong (calibrating (openSlot (atT s t) 0x0050 c).1 s c) 0x0050 s.hl.nextSlot
          (.scCal l (calConv c) (calFirst c) (calCount c) (fldN (pwN c 1) 23 0 : Int))) := by
  have hd' : domOn (openSlot (atT s t) 0x0050 c).1 domAIN = true := by simpa [domOn] using hd
  have hcv : ∀ k, conv (openSlot (atT s t) 0x0050 c).1 k = conv s k := fun k => by simp [conv]
  have hent : ∀ e, scEnt (openSlot (atT s t) 0x0050 c).1 e = scEnt s e := scEnt_congr (by simp)
  have hrange' : calRange (openSlot (atT s t) 0x0050 c).1 (calConv c) (calFirst c) (calCount c) = true := by
    rw [← hrange]
    exact calRange_of_regs (by simp) _ _ _
  simp only [scCal]
  rw [runCmd_ready hr hf (by simp [hl])]
  simp only [if_neg hl3, hrange', hd', hcv, hst, hent]
  rfl

end

/-- Settles O28: each step of a calibration becomes a long operation, and a FULL step without a zero is refused. -/
theorem calibrations : Obligations.Calibrations := by
  unfold Obligations.Calibrations
  refine ⟨fun t c s hr hf h1 hrange hd hst => ?_, fun t c s hr hf h2 hrange hd hst hz => ?_,
    fun t c i s hr hf h2 hrange hd hst hi hz => ?_, fun t c s hr hf h3 hst => ?_⟩
  · refine answers_eq (scCal_first hr.1 hf h1 (by decide) hrange hd hst) rfl ?_
    exact calibrating_begun hr
  · have hnone : ((List.range (calCount c)).map (· + calFirst c)).find? (fun i => (scEnt s i).zero.isNone) = none := by
      refine List.find?_eq_none.2 fun e he => ?_
      obtain ⟨i, hi, rfl⟩ := List.mem_map.1 he
      simpa using hz i (List.mem_range.1 hi)
    refine answers_eq (scCal_first hr.1 hf h2 (by decide) hrange hd hst) ?_ (calibrating_begun (t := t) hr)
    rw [if_pos rfl, hnone]
  · have hsome : (((List.range (calCount c)).map (· + calFirst c)).find? (fun i => (scEnt s i).zero.isNone)).isSome := by
      refine List.find?_isSome.2 ⟨i + calFirst c, List.mem_map.2 ⟨i, List.mem_range.2 hi, rfl⟩, ?_⟩
      simp [hz]
    obtain ⟨e, he⟩ := Option.isSome_iff_exists.1 hsome
    refine answers_eq (scCal_first hr.1 hf h2 (by decide) hrange hd hst) ?_ (answer_ready (t := t) hr _ _)
    rw [if_pos rfl, he]
  · have hcv : conv (openSlot (atT s t) 0x0050 c).1 (calConv c) = conv s (calConv c) := by simp [conv]
    simp only [exec, execScCalSave, scCal]
    refine answers_eq (runCmd_ready hr.1 hf (by simp [h3])) ((if_pos trivial).trans (if_neg ?_)) (startLong_ready hr)
    simp [hcv, hst]

end Sys2Proof.Proofs.Sensing

/-! Sense scans and conversions (R266–R282). -/

namespace Sys2Proof.Proofs.Scans

open Sys2Proof Sys2Proof.Machine Sys2Proof.Safety Sys2Proof.Laws
open Sys2Proof.Proofs.Frames Sys2Proof.Proofs.Writes Sys2Proof.Proofs.Reads Sys2Proof.Proofs.Sensing

/-! ### What the configuration says of a converter -/

section
variable {s t : State}

theorem gang_of_regs (h : t.regs = s.regs) : gang t = gang s := by simp only [gang, rb, reg, h]

theorem scBase_of_regs (h : t.regs = s.regs) (k : Nat) : scBase t k = scBase s k := by simp only [scBase, rf, reg, h]

theorem scLen_of_regs (h : t.regs = s.regs) (k : Nat) : scLen t k = scLen s k := by simp only [scLen, rf, reg, h]

theorem lead_of_regs (h : t.regs = s.regs) (k : Nat) : lead t k = lead s k := by simp only [lead, gang_of_regs h]

theorem scTrig_of_regs (h : t.regs = s.regs) (k : Nat) : scTrig t k = scTrig s k := by
  simp only [scTrig, lead_of_regs h, rf, reg, h]

theorem posOn_of_regs (h : t.regs = s.regs) (k i : Nat) : posOn t k i = posOn s k i := by
  simp only [posOn, leadEntry, lead_of_regs h, scBase_of_regs h, rb, reg, h]

theorem nextPos_of_regs (h : t.regs = s.regs) (k i : Nat) : nextPos t k i = nextPos s k i := by
  simp only [nextPos, scLen_of_regs h, show posOn t k = posOn s k from funext (posOn_of_regs h k)]

theorem started_of_regs (h : t.regs = s.regs) (k : Nat) : started t k = started s k := by
  simp only [started, gang_of_regs h]

end

theorem started_alone {s : State} (h : gang s = false) (k : Nat) : started s k = [k] := by simp [started, h]

theorem started_gang {s : State} (h : gang s = true) (k : Nat) : started s k = [0, 1] := by simp [started, h]

/-! ### The entries of a slice -/

/-- The keys of the entries of a slice. -/
def slice (s : State) (k : Nat) : List Nat := (List.range (scLen s k)).map (· + scBase s k)

theorem mem_slice {s : State} {k e : Nat} : e ∈ slice s k ↔ scBase s k ≤ e ∧ e < scBase s k + scLen s k := by
  simp only [slice, List.mem_map, List.mem_range]
  constructor
  · rintro ⟨i, hi, rfl⟩
    omega
  · rintro ⟨h1, h2⟩
    exact ⟨e - scBase s k, by omega, by omega⟩

theorem nodup_slice (s : State) (k : Nat) : (slice s k).Nodup :=
  List.nodup_range.map fun _ _ h => Nat.add_right_cancel h

/-- The entries of a slice forget the result before. -/
def forgotten (s : State) (k : Nat) : State := each (slice s k) s fun s e => setScEnt s e { scEnt s e with prev := none }

theorem scEnt_forgotten (s : State) (k e : Nat) : scEnt (forgotten s k) e =
    if scBase s k ≤ e ∧ e < scBase s k + scLen s k then { scEnt s e with prev := none } else scEnt s e := by
  have h := each_keyed scEnt (I := fun _ => True) (f := fun s e => setScEnt s e { scEnt s e with prev := none })
    (g := fun _ x => { x with prev := none }) (fun _ _ _ => trivial) (fun t c j _ => scEnt_setScEnt t c j _)
    (slice s k) (nodup_slice s k) s trivial e
  simp only [mem_slice] at h
  exact h

/-- Both converters are as before. -/
def SameConv (s t : State) : Prop := t.regs = s.regs ∧ ∀ k, conv t k = conv s k

theorem sameConv_forgotten (s : State) (k : Nat) : SameConv s (forgotten s k) :=
  each_invariant (I := SameConv s) (f := fun s e => setScEnt s e { scEnt s e with prev := none }) (fun _ _ h => h) _ s
    ⟨rfl, fun _ => rfl⟩

theorem convStart_eq (s : State) (k : Nat) : convStart s k =
    if scTrig s k = 1 then setConv (forgotten s k) k { conv s k with st := .waiting, pos := 0 }
    else passStart (forgotten s k) k := by
  obtain ⟨hr, hc⟩ := sameConv_forgotten s k
  rw [← scTrig_of_regs hr k, ← hc k]
  rfl

theorem passStart_next {s : State} {k j : Nat} (h : nextPos s k 0 = some j) :
    passStart s k = followMux (setConv s k { conv s k with st := .running, pos := j }) k j := by
  unfold passStart
  rw [h]

theorem scanStart_free {s : State} {k : Fin 2} (hg : gang s = false) (hst : (conv s k.val).st = .stopped)
    (hr : startReason s k.val = none) : scanStart s k.val = convStart s k.val := by
  unfold scanStart
  rw [if_neg (by simp [hg, hst]), hr, started_alone hg]
  rfl

/-! ### A stop -/

@[simp] theorem scEnt_keyNoCross (s : State) (code e flags k p j : Nat) :
    scEnt (keyNoCross s code e flags k p) j = scEnt s j := scEnt_emit _ _ _ _ _

@[simp] theorem conv_keyNoCross (s : State) (code e flags k p j : Nat) :
    conv (keyNoCross s code e flags k p) j = conv s j := conv_emit _ _ _ _ _

theorem scEnt_entryStop (k : Nat) (s : State) (e j : Nat) : scEnt (entryStop k s e) j =
    if j = e then { scEnt s e with key := .rest, out := false, prev := none } else scEnt s j := by
  unfold entryStop
  dsimp only
  rw [scEnt_setScEnt]
  split_ifs
  all_goals simp only [scEnt_keyNoCross]

theorem conv_entryStop (k : Nat) (s : State) (e j : Nat) : conv (entryStop k s e) j = conv s j := by
  unfold entryStop
  dsimp only
  rw [conv_setScEnt]
  split
  · exact conv_keyNoCross _ _ _ _ _ _ _
  · rfl

/-- A converter that stops: its multiplexer, and then its entries. -/
def stoppedConv (s : State) (k : Nat) : State :=
  let s := setConv s k { conv s k with st := .stopped, pos := 0 }
  if k = 0 then driveMux s 0 else s

/-- A converter with no urgent conversion in hand drops none. -/
theorem urgent_none {x : Conv} (h : x.urgentRun = none) : { x with
    urgentRun := none, urgent := if x.urgentRun.isSome then 3 else x.urgent,
    urgentDrops := if x.urgentRun.isSome then inc16 x.urgentDrops else x.urgentDrops } = x := by
  cases x
  subst h
  rfl

theorem conv_stopPass (s : State) (k j : Nat) : conv (each (slice s k) (stoppedConv s k) (entryStop k)) j =
    conv (stoppedConv s k) j :=
  each_invariant (I := fun u => conv u j = conv (stoppedConv s k) j) (fun u e hu => (conv_entryStop k u e j).trans hu) _ _ rfl

theorem conv_stoppedConv (s : State) (k : Nat) : conv (stoppedConv s k) k = { conv s k with st := .stopped, pos := 0 } := by
  unfold stoppedConv
  dsimp only
  split
  · rw [conv_driveMux, conv_setConv_same]
  · rw [conv_setConv_same]

theorem conv_stoppedConv_other (s : State) (k : Fin 2) : conv (stoppedConv s k.val) (1 - k.val) = conv s (1 - k.val) := by
  unfold stoppedConv
  dsimp only
  split
  · rw [conv_driveMux, conv_setConv_other]
  · rw [conv_setConv_other]

theorem scEnt_stoppedConv (s : State) (k e : Nat) : scEnt (stoppedConv s k) e = scEnt s e := by
  unfold stoppedConv
  dsimp only
  split
  · rw [scEnt_driveMux, scEnt_setConv]
  · rw [scEnt_setConv]

theorem regs_stoppedConv (s : State) (k : Nat) : (stoppedConv s k).regs = s.regs := by
  unfold stoppedConv
  dsimp only
  split <;> simp

theorem convStop_eq {s : State} {k cause : Nat} (hst : (conv s k).st ≠ .stopped) (hu : (conv s k).urgentRun = none) :
    convStop cause s k = emit (each (slice s k) (stoppedConv s k) (entryStop k)) 0x0907 k
      (pay [(0, 1, cause), (4, 4, (conv s k).pass)]) := by
  have hpass : (conv (each (slice s k) (stoppedConv s k) (entryStop k)) k).pass = (conv s k).pass := by
    rw [conv_stopPass, conv_stoppedConv]
  have hslice : slice (stoppedConv s k) k = slice s k := by
    simp only [slice, scLen_of_regs (regs_stoppedConv s k), scBase_of_regs (regs_stoppedConv s k)]
  have hx : ({ conv s k with
      urgentRun := none, urgent := if (conv s k).urgentRun.isSome then 3 else (conv s k).urgent,
      urgentDrops := if (conv s k).urgentRun.isSome then inc16 (conv s k).urgentDrops else (conv s k).urgentDrops
      st := .stopped, pos := 0 } : Conv) = { conv s k with st := .stopped, pos := 0 } :=
    congrArg (fun y : Conv => { y with st := .stopped, pos := 0 }) (urgent_none hu)
  unfold convStop
  dsimp only
  rw [if_neg hst, hx]
  show emit (each (slice (stoppedConv s k) k) (stoppedConv s k) (entryStop k)) 0x0907 k (pay [(0, 1, cause),
    (4, 4, (conv (each (slice (stoppedConv s k) k) (stoppedConv s k) (entryStop k)) k).pass)]) = _
  rw [hslice, hpass]

/-- The stop of a converter (R272): the converter, the other one, and the entries of its slice. -/
theorem convStop_stops {s : State} {k : Fin 2} {cause : Nat} (hst : (conv s k.val).st ≠ .stopped)
    (hu : (conv s k.val).urgentRun = none) :
    conv (convStop cause s k.val) k.val = { conv s k.val with st := .stopped, pos := 0 } ∧
      conv (convStop cause s k.val) (1 - k.val) = conv s (1 - k.val) ∧
      ∀ e, scEnt (convStop cause s k.val) e = if scBase s k.val ≤ e ∧ e < scBase s k.val + scLen s k.val
        then { scEnt s e with key := .rest, out := false, prev := none } else scEnt s e := by
  rw [convStop_eq hst hu]
  refine ⟨?_, ?_, fun e => ?_⟩
  · rw [conv_emit, conv_stopPass, conv_stoppedConv]
  · rw [conv_emit, conv_stopPass, conv_stoppedConv_other]
  · have h := each_keyed scEnt (I := fun _ => True) (f := entryStop k.val)
      (g := fun _ x => { x with key := .rest, out := false, prev := none }) (fun _ _ _ => trivial)
      (fun t c j _ => scEnt_entryStop k.val t c j) (slice s k.val) (nodup_slice s k.val) (stoppedConv s k.val) trivial e
    simp only [mem_slice, scEnt_stoppedConv] at h
    exact (scEnt_emit _ _ _ _ _).trans h

/-! ### A conversion -/

theorem scEnt_countOver (s : State) (k : Nat) (b : Bool) (e : Nat) : scEnt (countOver s k b) e = scEnt s e := by
  unfold countOver
  split
  · exact scEnt_setConv s _ _ _
  · rfl

/-- A converter that counts a result beyond its range. -/
def counted (x : Conv) (b : Bool) : Conv := { x with overrange := if b then inc16 x.overrange else x.overrange }

theorem conv_countOver (s : State) (k : Nat) (b : Bool) : conv (countOver s k b) k = counted (conv s k) b := by
  unfold countOver counted
  cases b
  · rfl
  · rw [if_pos rfl, if_pos rfl, conv_setConv_same]

theorem conv_countOver_other (s : State) (k : Fin 2) (b : Bool) :
    conv (countOver s k.val b) (1 - k.val) = conv s (1 - k.val) := by
  unfold countOver
  split
  · exact conv_setConv_other s k _
  · rfl

/-- The state once a conversion has given its result. -/
def answered (s : State) (k e y : Nat) (b : Bool) : State := countOver (putResult s e y) k b

theorem scEnt_answered (s : State) (k e y : Nat) (b : Bool) (j : Nat) : scEnt (answered s k e y b) j =
    if j = e then { scEnt s e with value := y, seq := ((scEnt s e).seq + 1) % 16 } else scEnt s j := by
  unfold answered
  rw [scEnt_countOver]
  exact scEnt_setScEnt s _ _ _

theorem conv_answered (s : State) (k e y : Nat) (b : Bool) : conv (answered s k e y b) k = counted (conv s k) b :=
  conv_countOver _ _ _

theorem conv_answered_other (s : State) (k : Fin 2) (e y : Nat) (b : Bool) :
    conv (answered s k.val e y b) (1 - k.val) = conv s (1 - k.val) := conv_countOver_other _ _ _

theorem regs_answered (s : State) (k e y : Nat) (b : Bool) : (answered s k e y b).regs = s.regs := by
  simp [answered]

/-- The conversion of an entry that is neither a key nor watched gives its result alone. -/
theorem convert_plain {s : State} {k e avg u : Nat} {x : AdcIn} (h : rf s .scEntry0 e 30 29 = 0) :
    convert s k e avg u x = answered s k e (resultOf s e (rawOf s k avg x) x.trimmed) x.beyond := by
  have hk : rf (answered s k e (resultOf s e (rawOf s k avg x) x.trimmed) x.beyond) .scEntry0 e 30 29 = 0 := by
    rw [← h]
    simp only [rf, reg, regs_answered]
  unfold convert
  dsimp only
  rw [← answered, hk]
  rfl

/-! ### On to the next entry -/

theorem scEnt_passEnd (s : State) (k e : Nat) : scEnt (passEnd s k) e = scEnt s e := by
  unfold passEnd
  dsimp only
  split
  · exact scEnt_setConv s _ _ _
  · split
    · exact (scEnt_driveMux _ _ _).trans (scEnt_setConv s _ _ _)
    · exact scEnt_setConv s _ _ _
  · exact scEnt_setConv s _ _ _

theorem conv_passEnd_other (s : State) (k : Fin 2) : conv (passEnd s k.val) (1 - k.val) = conv s (1 - k.val) := by
  unfold passEnd
  dsimp only
  split
  · exact conv_setConv_other s k _
  · split
    · exact (conv_driveMux _ _ _).trans (conv_setConv_other s k _)
    · exact conv_setConv_other s k _
  · exact conv_setConv_other s k _

theorem scEnt_advance (s : State) (k i e : Nat) : scEnt (advance s k i) e = scEnt s e := by
  unfold advance
  split
  · rw [scEnt_followMux, scEnt_setConv]
  · dsimp only
    split
    · split
      · rw [scEnt_followMux, scEnt_setConv, scEnt_passEnd]
      · exact scEnt_passEnd s k e
    · exact scEnt_passEnd s k e

theorem conv_advance_other (s : State) (k : Fin 2) (i : Nat) : conv (advance s k.val i) (1 - k.val) = conv s (1 - k.val) := by
  unfold advance
  split
  · rw [conv_followMux, conv_setConv_other]
  · dsimp only
    split
    · split
      · rw [conv_followMux, conv_setConv_other, conv_passEnd_other]
      · exact conv_passEnd_other s k
    · exact conv_passEnd_other s k

theorem conv_advance {s : State} {k i j : Nat} (h : nextPos s k i = some j) :
    conv (advance s k i) k = { conv s k with st := .running, pos := j } := by
  unfold advance
  rw [h]
  dsimp only
  rw [conv_followMux, conv_setConv_same]

/-- A conversion of the entry that a converter which runs is at. -/
theorem exec_scConversionDone {s : State} {t : Frac} {k : Fin 2} {e : Fin 512} {x y : AdcIn} {fn : BitVec 48} {fr : Frac}
    (hd : domOn s domAIN = true) (hst : (conv s k.val).st = .running) (hu : (conv s k.val).urgentRun = none)
    (he : e.val = scBase s k.val + (conv s k.val).pos) (hp : posOn s k.val (conv s k.val).pos = true)
    (hg : gang s = true → k.val = 0 ∧ (conv s 1).urgentRun = none) :
    exec (.scConversionDone t k e x fn fr false y) s =
      .next (passConvert (atT s t) k.val (conv s k.val).pos (fn.toNat * 65536 + fr.toNat) x y) := by
  have hgang : (gang (atT s t) && (decide (k.val = 1) || (conv (atT s t) 1).urgentRun.isSome)) = false := by
    cases hgt : gang s with
    | false => simp [hgt]
    | true => simp [hg hgt]
  simp only [exec, execScConversionDone]
  refine congrArg Host.Outcome.next ((if_neg ?_).trans ((if_neg Bool.false_ne_true).trans ((if_neg ?_).trans (if_neg ?_))))
  · simp [hd]
  · simp [hst]
  · rw [hgang]
    simp [hst, hu, he]
    exact ⟨rfl, hp⟩

theorem passConvert_alone {s : State} {k i u : Nat} {x y : AdcIn} (hg : gang s = false) :
    passConvert s k i u x y =
      advance (convert s k (scBase s k + i) (rf s .scEntry0 (scBase s k + i) 9 7) u x) k (i + 1) := by
  have hlead : leadEntry s k i = scBase s k + i := by simp [leadEntry, lead, hg]
  have hg' : gang (convert s k (scBase s k + i) (rf s .scEntry0 (scBase s k + i) 9 7) u x) = false :=
    (gang_of_regs (by simp)).trans hg
  unfold passConvert
  dsimp only
  rw [hlead]
  exact if_pos (by rw [hg']; rfl)

theorem passConvert_gang {s : State} {i u : Nat} {x y : AdcIn} (hg : gang s = true) (ht : twinOn s i = true) :
    passConvert s 0 i u x y = advance (advance (convert (convert s 0 (scBase s 0 + i)
      (rf s .scEntry0 (scBase s 0 + i) 9 7) u x) 1 (scBase s 1 + i) (rf s .scEntry0 (scBase s 0 + i) 9 7) u y)
        0 (i + 1)) 1 (i + 1) := by
  have hlead : leadEntry s 0 i = scBase s 0 + i := by simp [leadEntry, lead]
  have hregs : (convert s 0 (scBase s 0 + i) (rf s .scEntry0 (scBase s 0 + i) 9 7) u x).regs = s.regs := by simp
  have htwin : twinOn (convert s 0 (scBase s 0 + i) (rf s .scEntry0 (scBase s 0 + i) 9 7) u x) i = true := by
    rw [← ht]
    simp only [twinOn, scBase_of_regs hregs, rb, reg, hregs]
  unfold passConvert
  dsimp only
  rw [hlead, if_neg (by rw [gang_of_regs hregs, hg]; exact Bool.false_ne_true), if_pos htwin, scBase_of_regs hregs]

/-- The code of one sample, at full scale for an input beyond the range. -/
def sampleCode (x : AdcIn) (i : Nat) : Nat := if x.beyond then 16383 else ((x.samples[i]?).getD 0).toNat

theorem sampleCode_le (x : AdcIn) (i : Nat) : sampleCode x i ≤ 16383 := by
  unfold sampleCode
  split
  · exact le_rfl
  · exact Nat.le_of_lt_succ (BitVec.isLt _)

theorem foldl_add_le {b : Nat} (l : List Nat) : ∀ a, (∀ v ∈ l, v ≤ b) → l.foldl (· + ·) a ≤ a + b * l.length := by
  induction l with
  | nil => exact fun a _ => le_rfl
  | cons v l ih =>
    intro a hv
    have hrest := ih (a + v) fun w hw => hv w (List.mem_cons_of_mem _ hw)
    have hv0 := hv v List.mem_cons_self
    simp only [List.foldl_cons, List.length_cons, Nat.mul_add]
    omega

theorem rawOf_lt (s : State) (k avg : Nat) (x : AdcIn) (h : avg ≤ 4) : rawOf s k avg x < 2 ^ 24 := by
  have hs := foldl_add_le (b := 16383) ((List.range (2 ^ avg)).map (sampleCode x)) 0 fun v hv => by
    obtain ⟨i, -, rfl⟩ := List.mem_map.1 hv
    exact sampleCode_le x i
  simp only [List.length_map, List.length_range, Nat.zero_add] at hs
  unfold rawOf
  split
  · split
    · decide
    · exact x.integral.isLt
  · calc ((List.range (2 ^ avg)).map (sampleCode x)).foldl (· + ·) 0 * 2 ^ (10 - avg)
        ≤ 16383 * 2 ^ avg * 2 ^ (10 - avg) := Nat.mul_le_mul_right _ hs
      _ = 16383 * 2 ^ 10 := by rw [Nat.mul_assoc, ← Nat.pow_add, show avg + (10 - avg) = 10 by omega]
      _ < 2 ^ 24 := by decide

/-! ### What a write starts or stops, noted first -/

/-- A state that agrees with another on the registers, the converters and the domains. -/
def SameSense (s u : State) : Prop := u.regs = s.regs ∧ u.sc = s.sc ∧ u.pd = s.pd

theorem sameSense_noted (s : State) (t : Frac) (o : Owner) (off g : Nat) (ok : Bool) :
    SameSense s (noted s t o off g ok) := ⟨by simp, by simp, by simp⟩

theorem conv_congr {s u : State} (h : u.sc = s.sc) (k : Nat) : conv u k = conv s k := by simp only [conv, h]

theorem startReason_congr {s u : State} (h : SameSense s u) (k : Nat) : startReason u k = startReason s k := by
  obtain ⟨hr, hs, hp⟩ := h
  have hbad : entryBad u = entryBad s := by
    funext e
    simp only [entryBad, rf, reg, hr]
    rfl
  have hslice : ∀ j, sliceOn u j = sliceOn s j := by
    intro j
    simp only [sliceOn, scLen_of_regs hr, scBase_of_regs hr, rb, reg, hr]
  have hmode : scMode u k = scMode s k := by simp only [scMode, lead_of_regs hr, rf, reg, hr]
  have hbit : ∀ e, rb u .scEntry0 e 23 = rb s .scEntry0 e 23 := fun e => by simp only [rb, reg, hr]
  simp only [startReason, started_of_regs hr, scLen_of_regs hr, scBase_of_regs hr, gang_of_regs hr, conv_congr hs, hbad,
    hslice, hmode, hbit, scTrig_of_regs hr, domOn, hp]
  rfl

section
variable {s u : State} {k : Fin 2}

theorem scanStart_waits (hu : SameSense s u) (hg : gang s = false) (hst : (conv s k.val).st = .stopped)
    (hr : startReason s k.val = none) (htr : scTrig s k.val = 1) :
    conv (scanStart u k.val) k.val = { conv s k.val with st := .waiting, pos := 0 } ∧
      conv (scanStart u k.val) (1 - k.val) = conv s (1 - k.val) ∧
      ∀ e, scEnt (scanStart u k.val) e = if scBase s k.val ≤ e ∧ e < scBase s k.val + scLen s k.val
        then { scEnt s e with prev := none } else scEnt s e := by
  have hrs := hu.1
  have hc := conv_congr hu.2.1
  rw [scanStart_free ((gang_of_regs hrs).trans hg) (by rw [hc, hst]) ((startReason_congr hu _).trans hr), convStart_eq,
    if_pos ((scTrig_of_regs hrs _).trans htr)]
  refine ⟨?_, ?_, fun e => ?_⟩
  · rw [conv_setConv_same, hc]
  · rw [conv_setConv_other, (sameConv_forgotten u k.val).2, hc]
  · rw [scEnt_setConv, scEnt_forgotten, scEnt_congr hu.2.1, scBase_of_regs hrs, scLen_of_regs hrs]

theorem scanStart_runs {j : Nat} (hu : SameSense s u) (hg : gang s = false) (hst : (conv s k.val).st = .stopped)
    (hr : startReason s k.val = none) (htr : scTrig s k.val ≠ 1) (hj : nextPos s k.val 0 = some j) :
    conv (scanStart u k.val) k.val = { conv s k.val with st := .running, pos := j } ∧
      conv (scanStart u k.val) (1 - k.val) = conv s (1 - k.val) := by
  have hrs := hu.1
  have hc := conv_congr hu.2.1
  obtain ⟨hfr, hfc⟩ := sameConv_forgotten u k.val
  rw [scanStart_free ((gang_of_regs hrs).trans hg) (by rw [hc, hst]) ((startReason_congr hu _).trans hr), convStart_eq,
    if_neg (by rw [scTrig_of_regs hrs]; exact htr), passStart_next ((nextPos_of_regs (hfr.trans hrs) _ _).trans hj)]
  refine ⟨?_, ?_⟩
  · rw [conv_followMux, conv_setConv_same, hfc, hc]
  · rw [conv_followMux, conv_setConv_other, hfc, hc]

theorem scanStart_gang (hu : SameSense s u) (hg : gang s = true) (hst : (conv s 0).st = .stopped)
    (hr : startReason s 0 = none) (htr : scTrig s 0 = 1) :
    conv (scanStart u 0) 0 = { conv s 0 with st := .waiting, pos := 0 } ∧
      conv (scanStart u 0) 1 = { conv s 1 with st := .waiting, pos := 0 } := by
  have hrs := hu.1
  have hc := conv_congr hu.2.1
  have htr1 : ∀ v : State, v.regs = s.regs → ∀ k, k < 2 → scTrig v k = 1 := by
    intro v hv k hk
    rw [scTrig_of_regs hv, ← htr]
    simp only [scTrig, lead, hg, if_true]
  have h0 : convStart u 0 = setConv (forgotten u 0) 0 { conv u 0 with st := .waiting, pos := 0 } := by
    rw [convStart_eq, if_pos (htr1 u hrs 0 (by omega))]
  have hr1 : (convStart u 0).regs = s.regs := (by simp : (convStart u 0).regs = u.regs).trans hrs
  have h1 : convStart (convStart u 0) 1 =
      setConv (forgotten (convStart u 0) 1) 1 { conv (convStart u 0) 1 with st := .waiting, pos := 0 } := by
    rw [convStart_eq, if_pos (htr1 _ hr1 1 (by omega))]
  have heq : scanStart u 0 = convStart (convStart u 0) 1 := by
    unfold scanStart
    rw [if_neg (by simp [hc, hst]), startReason_congr hu, hr, started_gang ((gang_of_regs hrs).trans hg)]
    rfl
  have hother : conv (convStart u 0) 1 = conv s 1 := by
    rw [h0, ← hc]
    exact (conv_setConv_other _ 0 _).trans ((sameConv_forgotten u 0).2 1)
  rw [heq, h1]
  refine ⟨?_, ?_⟩
  · refine (conv_setConv_other _ 1 _).trans (((sameConv_forgotten _ 1).2 0).trans ?_)
    rw [h0, conv_setConv_same, hc]
  · rw [conv_setConv_same, hother]

end

/-! ### Keys and urgent conversions -/

section
variable {s : State} {k e avg u : Nat} {x : AdcIn} {q : Nat × Nat} {ta tb : Int}

theorem posOf_of_regs {v : State} (h : v.regs = s.regs) (e y : Nat) : posOf v e y = posOf s e y := by
  simp only [posOf, rb, reg, h]
  rfl

theorem resultOf_congr {v : State} (hr : v.regs = s.regs) (hp : v.pd = s.pd) (e raw : Nat) (w : BitVec 24) :
    resultOf v e raw w = resultOf s e raw w := by
  simp only [resultOf, rf, reg, domOn, hr, hp]
  rfl

theorem rawOf_congr {v : State} (hr : v.regs = s.regs) (k avg : Nat) (x : AdcIn) : rawOf v k avg x = rawOf s k avg x := by
  have hm : scMode v k = scMode s k := by simp only [scMode, lead_of_regs hr, rf, reg, hr]
  simp only [rawOf, hm]

/-- Under GANG both converters go through the same positions (R282). -/
theorem nextPos_gang (hg : gang s = true) (hl : scLen s 0 = scLen s 1) (i : Nat) : nextPos s 1 i = nextPos s 0 i := by
  have hp : posOn s 1 = posOn s 0 := by
    funext j
    simp only [posOn, leadEntry, lead, hg, if_true]
  simp only [nextPos, hl, hp]

/-- The part of the voltage axis that a key crosses from its result before to this one. -/
def segmentOf (s : State) (k p u : Nat) (q : Nat × Nat) : Seg :=
  { p0 := q.1, p1 := p, t0 := q.2, t1 := u, h := rf s .scConvHyst k 15 0 }

/-- A key at rest that crosses both thresholds is down (R276). -/
theorem keyConv_down {p : Nat} (hrest : (scEnt s e).key = .rest) (hprev : (scEnt s e).prev = some q)
    (hta : (segmentOf s k p u q).press (rf s .scEntry1 e 15 0) = some ta)
    (htb : (segmentOf s k p u q).press (rf s .scEntry1 e 31 16) = some tb) :
    keyConv s k e p u = setScEnt (keyDown s e k p ta tb) e
      { scEnt (keyDown s e k p ta tb) e with prev := some (p, u) } := by
  have hstep : keyStep s k e (segmentOf s k p u q) = keyDown s e k p ta tb := by
    unfold keyStep
    dsimp only
    rw [hrest]
    dsimp only
    rw [hta, htb]
    rfl
  unfold keyConv
  dsimp only
  rw [hprev]
  dsimp only
  rw [← segmentOf, hstep]

theorem scEnt_keyDown (p : Nat) : scEnt (keyDown s e k p ta tb) e = { scEnt s e with key := .down } := by
  simp [keyDown, keyEvent, keyTo]

end

/-- The conversion of a key gives its result, and moves the key. -/
theorem convert_key {s : State} {k e avg u : Nat} {x : AdcIn} (h : rf s .scEntry0 e 30 29 = 1) :
    convert s k e avg u x = keyConv (answered s k e (resultOf s e (rawOf s k avg x) x.trimmed) x.beyond) k e
      (posOf s e (resultOf s e (rawOf s k avg x) x.trimmed)) u := by
  have hk : rf (answered s k e (resultOf s e (rawOf s k avg x) x.trimmed) x.beyond) .scEntry0 e 30 29 = 1 := by
    rw [← h]
    simp only [rf, reg, regs_answered]
  unfold convert
  dsimp only
  rw [← answered, hk, posOf_of_regs (regs_answered s k e _ _)]
  rfl

theorem evtOpen_answered {s : State} {n : Nat} (h : evtOpen s n) (k e y : Nat) (b : Bool) :
    evtOpen (answered s k e y b) n :=
  evtOpen_of h (by simp [answered]) (by simp [answered, ringsOpen]) (by simp [answered]) (by simp [answered])

/-- A key that is down is reported with its stamps (R276, R278). -/
theorem keyDown_raised {s u : State} {t : Frac} {k e p : Nat} {ta tb : Int} (he : evtOpen u 1) (hf : u.fr = s.fr)
    (hn : u.now = t) (hr : u.sc.rates = s.sc.rates) :
    raised s t 0x0901 e (pay [(0, 6, tb.toNat / 65536), (6, 2, tb.toNat), (8, 4, deltaRep (tb - ta)),
      (12, 1, rateFlag s ta tb), (13, 1, k), (14, 2, p)]) (keyDown u e k p ta tb) := by
  have hrate : rateFlag s ta tb = rateFlag u ta tb := by simp only [rateFlag, hr]
  rw [hrate]
  exact raised_emit he (congrArg Frame.fn hf) hn

/-- A key at rest whose result crosses both thresholds is down, whatever entry comes next. -/
theorem keyConverted {s v : State} {t : Frac} {k e p u i : Nat} {q : Nat × Nat} {ta tb : Int}
    (hrest : (scEnt v e).key = .rest) (hprev : (scEnt v e).prev = some q)
    (hta : (segmentOf v k p u q).press (rf v .scEntry1 e 15 0) = some ta)
    (htb : (segmentOf v k p u q).press (rf v .scEntry1 e 31 16) = some tb) (he : evtOpen v 1) (hf : v.fr = s.fr)
    (hn : v.now = t) (hr : v.sc.rates = s.sc.rates) :
    (scEnt (advance (keyConv v k e p u) k i) e).key = .down ∧
      (scEnt (advance (keyConv v k e p u) k i) e).prev = some (p, u) ∧
      raised s t 0x0901 e (pay [(0, 6, tb.toNat / 65536), (6, 2, tb.toNat), (8, 4, deltaRep (tb - ta)),
        (12, 1, rateFlag s ta tb), (13, 1, k), (14, 2, p)]) (advance (keyConv v k e p u) k i) := by
  rw [keyConv_down hrest hprev hta htb, scEnt_advance, scEnt_setScEnt_same, scEnt_keyDown]
  exact ⟨rfl, rfl, raised_of_grows (keyDown_raised he hf hn hr) (.of_eq (by simp))⟩

theorem rates_answered (s : State) (k e y : Nat) (b : Bool) : (answered s k e y b).sc.rates = s.sc.rates := by
  unfold answered countOver setConv
  split
  · split <;> rfl
  · rfl

/-- An urgent conversion that answers (R280). -/
theorem urgentDone_conv (s : State) (k e : Nat) (x : AdcIn) : conv (urgentDone s k e x) k = counted { conv s k with
    urgentRun := none, urgent := 2, urgentDone := true
    urgentVal := resultOf s e (rawOf s k (rf s .scEntry0 e 9 7) x) x.trimmed } x.beyond := by
  have hconv : ∀ y, conv (answered (setConv s k y) k e (resultOf s e (rawOf s k (rf s .scEntry0 e 9 7) x) x.trimmed)
      x.beyond) k = counted y x.beyond := fun y => by rw [conv_answered, conv_setConv_same]
  unfold urgentDone
  dsimp only
  rw [← answered]
  split
  · rw [conv_followMux, hconv]
  · split
    · rw [conv_driveMux, hconv]
    · rw [hconv]

theorem urgentDone_scEnt (s : State) (k e : Nat) (x : AdcIn) : scEnt (urgentDone s k e x) e = { scEnt s e with
    value := resultOf s e (rawOf s k (rf s .scEntry0 e 9 7) x) x.trimmed, seq := ((scEnt s e).seq + 1) % 16 } := by
  unfold urgentDone
  dsimp only
  rw [← answered]
  split
  · rw [scEnt_followMux, scEnt_answered, if_pos rfl, scEnt_setConv]
  · split
    · rw [scEnt_driveMux, scEnt_answered, if_pos rfl, scEnt_setConv]
    · rw [scEnt_answered, if_pos rfl, scEnt_setConv]

theorem converting_congr {s u : State} (hr : u.regs = s.regs) (hs : u.sc = s.sc) (k : Nat) :
    converting u k = converting s k := by
  simp only [converting, conv_congr hs, nextPos_of_regs hr]

/-- The entry of an urgent conversion is no part of what says whether a converter converts. -/
theorem converting_setUrgent (s : State) (k : Fin 2) (w : Word) (j : Nat) :
    converting (setReg s .scUrgent k.val w) j = converting s j := by
  have hcfg : reg (setReg s .scUrgent k.val w) .scCfg 0 = reg s .scCfg 0 :=
    reg_setReg_ne s _ (by simp only [regOff, regPlace]; omega)
  have hconv : ∀ i, reg (setReg s .scUrgent k.val w) .scConvCfg i = reg s .scConvCfg i := fun i =>
    reg_setReg_ne s _ (by simp only [regOff, regPlace]; omega)
  have hent : ∀ i, reg (setReg s .scUrgent k.val w) .scEntry0 i = reg s .scEntry0 i := fun i =>
    reg_setReg_ne s _ (by simp only [regOff, regPlace]; omega)
  have hpos : posOn (setReg s .scUrgent k.val w) j = posOn s j := by
    funext i
    simp only [posOn, leadEntry, scBase, lead, gang, rf, rb, hcfg, hconv, hent]
    rfl
  have hnext : nextPos (setReg s .scUrgent k.val w) j 0 = nextPos s j 0 := by
    simp only [nextPos, scLen, rf, hconv, hpos]
  exact congrArg₂ (fun (x : Conv) (n : Option Nat) => x.st == .running && n.isSome) rfl hnext

section
variable {s : State} {k : Fin 2} {v : Word} {l : Bool}

/-- What keeps an urgent conversion from being taken (R280). -/
def urgentBarred (s : State) (k : Nat) (l : Bool) : Bool :=
  converting s k || ((conv s k).st == .waiting && l) || (conv s k).st == .calibrating || (conv s k).urgentRun.isSome
    || !domOn s domAIN

theorem urgentWrite_eq : urgentWrite s k.val v l =
    if urgentBarred s k.val l then setConv (setReg s .scUrgent k.val (v &&& 0x1FF)) k.val { conv s k.val with
      urgentDone := false, urgent := 3, urgentDrops := inc16 (conv s k.val).urgentDrops }
    else entryMux (setConv (setReg s .scUrgent k.val (v &&& 0x1FF)) k.val { conv s k.val with
      urgentDone := false, urgent := 1, urgentRun := some (fld v 8 0) }) k.val (fld v 8 0) := by
  unfold urgentBarred
  rw [← converting_setUrgent s k (v &&& 0x1FF)]
  rfl

theorem urgentWrite_runs (hc : converting s k.val = false) (hst : (conv s k.val).st ≠ .calibrating)
    (hu : (conv s k.val).urgentRun = none) (hd : domOn s domAIN = true) :
    urgentWrite s k.val v false = entryMux (setConv (setReg s .scUrgent k.val (v &&& 0x1FF)) k.val { conv s k.val with
      urgentDone := false, urgent := 1, urgentRun := some (fld v 8 0) }) k.val (fld v 8 0) := by
  rw [urgentWrite_eq, if_neg]
  simp [urgentBarred, hc, hst, hu, hd]

theorem urgentWrite_dropped (h : (conv s k.val).urgentRun ≠ none ∨ converting s k.val = true ∨
      ((conv s k.val).st = .waiting ∧ l = true)) :
    urgentWrite s k.val v l = setConv (setReg s .scUrgent k.val (v &&& 0x1FF)) k.val { conv s k.val with
      urgentDone := false, urgent := 3, urgentDrops := inc16 (conv s k.val).urgentDrops } := by
  rw [urgentWrite_eq, if_pos]
  obtain h | h | ⟨h, rfl⟩ := h
  · simp [urgentBarred, Option.isSome_iff_ne_none.2 h]
  · simp [urgentBarred, h]
  · simp [urgentBarred, h]

end

/-! ### Both converters of a gang -/

section
variable {s : State} {t : Frac} {x y : AdcIn} {e f : Fin 512} {i j : Nat}

/-- Both converters have converted the entries given, and are on to the next ones. -/
def gangConverted (s : State) (e f i : Nat) (x y : AdcIn) : State :=
  advance (advance (answered
    (answered s 0 e (resultOf s e (rawOf s 0 (rf s .scEntry0 e 9 7) x) x.trimmed) x.beyond)
    1 f (resultOf s f (rawOf s 1 (rf s .scEntry0 e 9 7) y) y.trimmed) y.beyond) 0 i) 1 i

theorem passConvert_gangPlain (hg : gang s = true) (ht : twinOn s i = true) (he : e.val = scBase s 0 + i)
    (hf : f.val = scBase s 1 + i) (hke : rf s .scEntry0 e.val 30 29 = 0) (hkf : rf s .scEntry0 f.val 30 29 = 0) (u : Nat) :
    passConvert (atT s t) 0 i u x y = gangConverted (atT s t) e.val f.val (i + 1) x y := by
  have hfirst : convert (atT s t) 0 e.val (rf s .scEntry0 e.val 9 7) u x =
      answered (atT s t) 0 e.val (resultOf s e.val (rawOf s 0 (rf s .scEntry0 e.val 9 7) x) x.trimmed) x.beyond :=
    convert_plain (s := atT s t) hke
  rw [passConvert_gang (s := atT s t) hg ht, show scBase (atT s t) 0 + i = e.val from he.symm,
    show scBase (atT s t) 1 + i = f.val from hf.symm, show rf (atT s t) .scEntry0 e.val 9 7 = rf s .scEntry0 e.val 9 7 from rfl,
    hfirst]
  generalize hv : answered (atT s t) 0 e.val _ _ = v
  have hregs : v.regs = s.regs := by rw [← hv]; exact regs_answered _ _ _ _ _
  have hpd : v.pd = s.pd := by rw [← hv]; simp [answered]
  rw [convert_plain (s := v) (by rw [← hkf]; simp only [rf, reg, hregs]), resultOf_congr hregs hpd, rawOf_congr hregs, ← hv]
  rfl

theorem gangConverted_answers (hg : gang s = true) (hb : scBase s 0 + scLen s 0 ≤ scBase s 1) (he : e.val = scBase s 0 + i)
    (hf : f.val = scBase s 1 + i) (hl : i < scLen s 0) (hlen : scLen s 0 = scLen s 1)
    (hj : nextPos s 0 (i + 1) = some j) :
    scEnt (gangConverted (atT s t) e.val f.val (i + 1) x y) e.val = { scEnt s e.val with
        value := resultOf s e.val (rawOf s 0 (rf s .scEntry0 e.val 9 7) x) x.trimmed
        seq := ((scEnt s e.val).seq + 1) % 16 } ∧
      scEnt (gangConverted (atT s t) e.val f.val (i + 1) x y) f.val = { scEnt s f.val with
        value := resultOf s f.val (rawOf s 1 (rf s .scEntry0 e.val 9 7) y) y.trimmed
        seq := ((scEnt s f.val).seq + 1) % 16 } ∧
      (conv (gangConverted (atT s t) e.val f.val (i + 1) x y) 0).pos = j ∧
      (conv (gangConverted (atT s t) e.val f.val (i + 1) x y) 1).pos = j := by
  have hef : e.val ≠ f.val := by omega
  have hn1 : nextPos s 1 (i + 1) = some j := (nextPos_gang hg hlen _).trans hj
  unfold gangConverted
  refine ⟨?_, ?_, ?_, ?_⟩
  · rw [scEnt_advance, scEnt_advance, scEnt_answered, if_neg hef, scEnt_answered, if_pos rfl]
    rfl
  · rw [scEnt_advance, scEnt_advance, scEnt_answered, if_pos rfl, scEnt_answered, if_neg (Ne.symm hef)]
    rfl
  · refine (congrArg Conv.pos (conv_advance_other _ 1 _)).trans (congrArg Conv.pos (conv_advance (j := j) ?_))
    rw [← hj]
    exact nextPos_of_regs (by simp [answered]) _ _
  · refine congrArg Conv.pos (conv_advance (j := j) ?_)
    rw [← hn1]
    exact nextPos_of_regs (by simp [answered]) _ _

end

/-- Settles O27: converters start and stop, convert their entries, and press keys. -/
theorem scansAndConversions : Obligations.ScansAndConversions := by
  unfold Obligations.ScansAndConversions
  refine ⟨fun t o k s hw hg hst hr htr => ?_, fun t o k j s hw hg hst hr htr hj => ?_, fun t o k r s hw hg hst hr he => ?_,
    fun t o k s hw hg hst hu => ?_, fun t k s hst hu => ?_, fun t o s hw hg hst hr htr => ?_, fun t o s hw hg => ?_,
    fun t k e x y fn fr s hd hg hst hu he hp hk => ?_,
    fun t x y fn fr e f j s hd hg hst hu hu1 hb he hf hl hp htw hke hkf hlen hj => ?_,
    fun t k e x y fn fr q g ta tb s hd hg hst hu he hp hk hrest hprev hgseg hta htb hev => ?_,
    fun t k e x y fn fr s hd hu => ?_, fun t o k v s hw hcv hst hu hd => ?_, fun t o k v l s hw h => ?_,
    fun k avg x s h => rawOf_lt s k avg x h⟩
  · have hsame := sameSense_noted s t o (regOff .scConvCtrl k.val) 0x35 true
    obtain ⟨h1, h2, h3⟩ := scanStart_waits hsame hg hst hr htr
    exact answers_eq rfl (directWrite_taken hw _ _) ⟨h1, h2, h3, by simp [only_iff]⟩
  · have hsame := sameSense_noted s t o (regOff .scConvCtrl k.val) 0x35 true
    obtain ⟨h1, h2⟩ := scanStart_runs hsame hg hst hr htr hj
    exact answers_eq rfl (directWrite_taken hw _ _) ⟨h1, h2, by simp [only_iff]⟩
  · have hsame := sameSense_noted s t o (regOff .scConvCtrl k.val) 0x35 true
    refine answers_eq rfl ((directWrite_taken hw _ _).trans ?_) (v := emit
      (noted s t o (regOff .scConvCtrl k.val) 0x35 true) 0x0906 k.val (pay [(0, 1, r.1), (2, 2, r.2)])) ?_
    · unfold scanStart
      rw [if_neg ?_, startReason_congr hsame, hr]
      simp [conv_congr hsame.2.1, hst, gang_of_regs hsame.1, hg]
    · exact ⟨raised_emit (noted_evtOpen true he) (by simp) (by simp), by simp [only_iff]⟩
  · have hsame := sameSense_noted s t o (regOff .scConvCtrl k.val) 0x35 true
    have hc := conv_congr hsame.2.1
    have heq : scanStop (noted s t o (regOff .scConvCtrl k.val) 0x35 true) k.val =
        convStop 1 (noted s t o (regOff .scConvCtrl k.val) 0x35 true) k.val := by
      have hg' := (gang_of_regs hsame.1).trans hg
      unfold scanStop
      rw [if_neg (by simp [hg', hc, hst]), started_alone hg']
      rfl
    obtain ⟨h1, h2, h3⟩ := convStop_stops (cause := 1) (by rw [hc]; exact hst) (by rw [hc]; exact hu) (k := k)
    refine answers_eq rfl ((directWrite_taken hw _ _).trans heq) ⟨?_, ?_, fun e => ?_, by simp [only_iff]⟩
    · rw [h1, hc]
    · rw [h2, hc]
    · rw [h3, scEnt_congr hsame.2.1, scBase_of_regs hsame.1, scLen_of_regs hsame.1]
  · obtain ⟨h1, h2, -⟩ := convStop_stops (s := atT s t) (cause := 2) hst hu
    exact answers_eq rfl rfl ⟨h1, h2, by simp [only_iff]⟩
  · have hsame := sameSense_noted s t o (regOff .scConvCtrl 0) 0x35 true
    obtain ⟨h1, h2⟩ := scanStart_gang hsame hg hst hr htr
    exact answers_eq rfl (directWrite_taken hw _ _) ⟨h1, h2, by simp [only_iff]⟩
  · have hgang : ∀ b, (decide ((1 : Nat) = 1) && gang (noted s t o (regOff .scConvCtrl 1) 0x35 true) || b) = true := by
      intro b
      rw [gang_of_regs (s := s) (by simp), hg]
      rfl
    exact ⟨answers_eq rfl ((directWrite_taken hw _ _).trans (if_pos (hgang _))) (by simp [only_iff]),
      answers_eq rfl ((directWrite_taken hw _ _).trans (if_pos (hgang _))) (by simp [only_iff])⟩
  · have hconv : passConvert (atT s t) k.val (conv s k.val).pos (fn.toNat * 65536 + fr.toNat) x y =
        advance (answered (atT s t) k.val e.val (resultOf s e.val (rawOf s k.val (rf s .scEntry0 e.val 9 7) x) x.trimmed)
          x.beyond) k.val ((conv s k.val).pos + 1) := by
      rw [passConvert_alone (s := atT s t) hg, show scBase (atT s t) k.val + (conv s k.val).pos = e.val from he.symm,
        convert_plain (s := atT s t) hk]
      rfl
    refine answers_eq (exec_scConversionDone hd hst hu he hp (fun h => absurd h (by simp [hg]))) hconv ?_
    refine ⟨?_, fun j hj => ?_, ?_, fun j hj => ?_, by simp [still_iff, answered]⟩
    · rw [scEnt_advance, scEnt_answered, if_pos rfl]
      rfl
    · rw [scEnt_advance, scEnt_answered, if_neg hj]
      rfl
    · rw [conv_advance_other, conv_answered_other]
      rfl
    · rw [conv_advance ((nextPos_of_regs (s := s) (regs_answered (atT s t) _ _ _ _) _ _).trans hj), conv_answered]
      rfl
  · obtain ⟨h1, h2, h3, h4⟩ := gangConverted_answers (t := t) (x := x) (y := y) hg hb he hf hl hlen hj
    refine answers_eq (exec_scConversionDone (k := 0) hd hst hu he hp (fun _ => ⟨rfl, hu1⟩))
      (passConvert_gangPlain (t := t) (x := x) (y := y) hg htw he hf hke hkf _) ⟨h1, h2, h3, h4, ?_⟩
    simp [still_iff, gangConverted, answered]
  · have hconv : passConvert (atT s t) k.val (conv s k.val).pos (fn.toNat * 65536 + fr.toNat) x y =
        advance (keyConv (answered (atT s t) k.val e.val
          (resultOf s e.val (rawOf s k.val (rf s .scEntry0 e.val 9 7) x) x.trimmed) x.beyond) k.val e.val g.p1 g.t1)
          k.val ((conv s k.val).pos + 1) := by
      rw [passConvert_alone (s := atT s t) hg, show scBase (atT s t) k.val + (conv s k.val).pos = e.val from he.symm,
        convert_key (s := atT s t) hk, hgseg]
      rfl
    refine answers_eq (exec_scConversionDone hd hst hu he hp (fun h => absurd h (by simp [hg]))) hconv ?_
    generalize hv : answered (atT s t) k.val e.val
      (resultOf s e.val (rawOf s k.val (rf s .scEntry0 e.val 9 7) x) x.trimmed) x.beyond = v
    have hregs : v.regs = s.regs := by rw [← hv]; exact regs_answered _ _ _ _ _
    have hent : scEnt v e.val = { scEnt s e.val with
        value := resultOf s e.val (rawOf s k.val (rf s .scEntry0 e.val 9 7) x) x.trimmed
        seq := ((scEnt s e.val).seq + 1) % 16 } := by
      rw [← hv, scEnt_answered, if_pos rfl]
      rfl
    have hseg : segmentOf v k.val g.p1 g.t1 q = g := by
      simp only [segmentOf, rf, reg, hregs, hgseg]
    have hrf : ∀ a b, rf v .scEntry1 e.val a b = rf s .scEntry1 e.val a b := fun a b => by simp only [rf, reg, hregs]
    obtain ⟨h1, h2, h3⟩ := keyConverted (s := s) (v := v) (t := t) (i := (conv s k.val).pos + 1) (k := k.val) (e := e.val)
      (p := g.p1) (u := g.t1) (by rw [hent]; exact hrest) (by rw [hent]; exact hprev) (by rw [hseg, hrf]; exact hta)
      (by rw [hseg, hrf]; exact htb) (by rw [← hv]; exact evtOpen_answered (s := atT s t) hev _ _ _ _)
      (by rw [← hv]; simp [answered]) (by rw [← hv]; simp [answered]) (by rw [← hv]; exact rates_answered _ _ _ _ _)
    exact ⟨h1, h2, h3, by simp [only_iff, ← hv, answered]⟩
  · refine answers_eq rfl ((if_neg (by simp [hd])).trans ((if_pos rfl).trans (if_neg (by simp [hu])))) ?_
    exact ⟨urgentDone_conv _ _ _ _, urgentDone_scEnt _ _ _ _, by simp [still_iff]⟩
  · have hc := conv_congr (s := s) (u := noted s t o (regOff .scUrgent k.val) 0x35 true) (by simp)
    refine answers_eq rfl ((directWrite_taken hw _ _).trans (urgentWrite_runs ?_ ?_ ?_ ?_)) ⟨?_, ?_, ?_⟩
    · exact (converting_congr (by simp) (by simp) _).trans hcv
    · rw [hc]
      exact hst
    · rw [hc]
      exact hu
    · simpa [domOn] using hd
    · rw [conv_entryMux, conv_setConv_same, hc]
    · simp [setReg]
    · simp [only_iff]
  · have hc := conv_congr (s := s) (u := noted s t o (regOff .scUrgent k.val) 0x35 true) (by simp)
    refine answers_eq rfl ((directWrite_taken hw _ _).trans (urgentWrite_dropped ?_)) ⟨?_, ?_⟩
    · rw [hc, converting_congr (s := s) (by simp) (by simp)]
      exact h
    · rw [conv_setConv_same, hc]
    · simp [only_iff]

end Sys2Proof.Proofs.Scans

/-! Tables built from a list of writes, and what a well-formed table holds under a key. -/

namespace Sys2Proof.Proofs.Tables

open Sys2Proof Sys2Proof.Machine Sys2Proof.Laws

section
variable {α : Type} [DecidableEq α] {d v : α} {k : Nat}

/-- The writes of a list go on from a table, later writes over earlier ones. -/
theorem tget_writes_absent {l : List (Nat × α)} (h : ∀ e ∈ l, e.1 ≠ k) (t : Tbl α) :
    tget d (l.foldl (fun t e => tput d t e.1 e.2) t) k = tget d t k := by
  induction l generalizing t with
  | nil => rfl
  | cons e l ih =>
    rw [List.foldl_cons, ih (fun e he => h e (List.mem_cons_of_mem _ he)), tget_tput_ne d t e.2 (h e List.mem_cons_self).symm]

theorem tget_writes {l : List (Nat × α)} (hv : ∀ e ∈ l, e.1 = k → e.2 = v) (h : ∃ e ∈ l, e.1 = k) (t : Tbl α) :
    tget d (l.foldl (fun t e => tput d t e.1 e.2) t) k = v := by
  induction l generalizing t with
  | nil => simp at h
  | cons e l ih =>
    rw [List.foldl_cons]
    by_cases hl : ∃ e ∈ l, e.1 = k
    · exact ih (fun e he => hv e (List.mem_cons_of_mem _ he)) hl _
    · have hek : e.1 = k := by
        obtain ⟨x, hx, hk⟩ := h
        rcases List.mem_cons.mp hx with rfl | hx
        · exact hk
        · exact absurd ⟨x, hx, hk⟩ hl
      rw [tget_writes_absent (fun x hx hk => hl ⟨x, hx, hk⟩), hek, tget_tput_same]
      exact hv e List.mem_cons_self hek

theorem tget_tmk_absent {l : List (Nat × α)} (h : ∀ e ∈ l, e.1 ≠ k) : tget d (tmk d l) k = d :=
  tget_writes_absent h []

/-- The last writes of a key decide. -/
theorem tget_tmk_append {a b : List (Nat × α)} (hv : ∀ e ∈ b, e.1 = k → e.2 = v) (h : ∃ e ∈ b, e.1 = k) :
    tget d (tmk d (a ++ b)) k = v := by
  unfold tmk
  rw [List.foldl_append]
  exact tget_writes hv h _

theorem tget_tmk {l : List (Nat × α)} (hv : ∀ e ∈ l, e.1 = k → e.2 = v) (h : ∃ e ∈ l, e.1 = k) : tget d (tmk d l) k = v :=
  tget_writes hv h []

omit [DecidableEq α] in
theorem tget_absent {t : Tbl α} (h : ∀ e ∈ t, e.1 ≠ k) : tget d t k = d := by
  induction t with
  | nil => rfl
  | cons e t ih => simp [tget, h e List.mem_cons_self, ih fun x hx => h x (List.mem_cons_of_mem _ hx)]

theorem twfFrom_below {b : Nat} {t : Tbl α} (h : twfFrom d (some b) t = true) : ∀ e ∈ t, b < e.1 := by
  induction t generalizing b with
  | nil => simp
  | cons e t ih =>
    simp only [twfFrom, Bool.and_eq_true, decide_eq_true_eq] at h
    obtain ⟨⟨hb, -⟩, ht⟩ := h
    intro x hx
    rcases List.mem_cons.mp hx with rfl | hx
    · exact hb
    · exact hb.trans (ih ht x hx)

/-- A well-formed table holds each entry under its key. -/
theorem tget_of_mem {b : Option Nat} {t : Tbl α} (h : twfFrom d b t = true) (hm : (k, v) ∈ t) : tget d t k = v := by
  induction t generalizing b with
  | nil => simp at hm
  | cons e t ih =>
    obtain ⟨j, w⟩ := e
    simp only [twfFrom, Bool.and_eq_true] at h
    obtain ⟨-, ht⟩ := h
    rcases List.mem_cons.mp hm with hm | hm
    · cases hm
      simp [tget]
    · have hjk : j ≠ k := (twfFrom_below ht _ hm).ne
      simp [tget, hjk, ih ht hm]

omit [DecidableEq α] in
theorem mem_of_tget_ne {t : Tbl α} (h : tget d t k ≠ d) : (k, tget d t k) ∈ t := by
  induction t with
  | nil => exact absurd rfl h
  | cons e t ih =>
    obtain ⟨j, w⟩ := e
    by_cases hj : j = k
    · simp [tget, hj]
    · have ht : tget d ((j, w) :: t) k = tget d t k := by simp [tget, hj]
      rw [ht] at h ⊢
      exact List.mem_cons_of_mem _ (ih h)

end

end Sys2Proof.Proofs.Tables

/-! A strobe begins the next frame (R20, R21, R39, R40). -/

namespace Sys2Proof.Proofs.Strobe

open Sys2Proof Sys2Proof.Machine Sys2Proof.Safety Sys2Proof.Laws
open Sys2Proof.Proofs.Frames Sys2Proof.Proofs.Reads Sys2Proof.Proofs.Tables

/-- What a frame with results presents at the strobe that ends it (R39, R40). -/
theorem tget_presentNext {s : State} (h : twf none s.mx.res = true) (k : Nat) :
    tget 0 (presentNext s) k =
      if isShed s k then 0
      else if k ∈ repeats s then tget 0 s.mx.present k
      else (tget none s.mx.res k).getD 0 := by
  unfold presentNext
  simp only [List.filter_append]
  split_ifs with hshed hrep
  · refine tget_tmk_absent fun e he hk => ?_
    simp only [← List.filter_append, List.mem_filter, hk, hshed] at he
    simp at he
  · refine tget_tmk_append (fun e he hk => ?_) ⟨(k, tget 0 s.mx.present k), ?_, rfl⟩
    · obtain ⟨j, hj, rfl⟩ := List.mem_map.mp (List.mem_of_mem_filter he)
      rw [show j = k from hk]
    · simp [List.mem_filter, hshed, hrep]
  · cases hres : tget none s.mx.res k with
    | none =>
      refine tget_tmk_absent fun e he hk => ?_
      simp only [List.mem_append, List.mem_filter, List.mem_filterMap, List.mem_map] at he
      obtain ⟨⟨⟨j, w⟩, hm, hw⟩, -⟩ | ⟨⟨j, hj, rfl⟩, -⟩ := he
      · simp only [Option.map_eq_some_iff] at hw
        obtain ⟨y, rfl, rfl⟩ := hw
        rw [show j = k from hk] at hm
        exact absurd ((tget_of_mem h hm).symm.trans hres) (by simp)
      · exact hrep (hk ▸ hj)
    | some y =>
      refine tget_tmk (fun e he hk => ?_) ⟨(k, y), ?_, rfl⟩
      · simp only [List.mem_append, List.mem_filter, List.mem_filterMap, List.mem_map] at he
        obtain ⟨⟨⟨j, w⟩, hm, hw⟩, -⟩ | ⟨⟨j, hj, rfl⟩, -⟩ := he
        · simp only [Option.map_eq_some_iff] at hw
          obtain ⟨z, rfl, rfl⟩ := hw
          rw [show j = k from hk] at hm
          exact Option.some.inj ((tget_of_mem h hm).symm.trans hres)
        · exact absurd (hk ▸ hj) hrep
      · have hm : (k, some y) ∈ s.mx.res := hres ▸ mem_of_tget_ne (by rw [hres]; simp)
        simp only [List.mem_append, List.mem_filter, List.mem_filterMap]
        exact .inl ⟨⟨_, hm, rfl⟩, by simp [hshed]⟩

/-- The strobe of a running frame. -/
theorem exec_frameStrobe {s : State} (x : StrobeIn) (hr : s.fr.running = true) (hg : s.ck.gap = none)
    (ho : s.fr.overrun = none) : exec (.frameStrobe x) s = .next (strobeBody (beginFrame (atT s 0)) x) :=
  congrArg Host.Outcome.next (if_neg (by simp [hr, hg, ho]))

/-- A step of the generators, or a capture, replaces the sources and moves the generators alone. -/
def MixKept (a b : Mix) : Prop := ∃ src gen, b = { a with src := src, gen := gen }

theorem mixKept_genStrobe (s : State) : MixKept s.mx (genStrobe s).2.mx := by
  unfold genStrobe
  refine List.foldlRecOn _ _ (motive := fun a : Tbl Int × State => MixKept s.mx a.2.mx) ⟨s.mx.src, s.mx.gen, rfl⟩ ?_
  rintro a ⟨src, gen, h⟩ g -
  exact ⟨src, (genTurn a g).2.mx.gen, by simp only [genTurn, h]⟩

theorem mixKept_capture (s : State) (x : StrobeIn) : MixKept s.mx (capture s x).mx := by
  obtain ⟨src, gen, h⟩ := mixKept_genStrobe (captureInputs s x).2
  refine ⟨(capture s x).mx.src, gen, ?_⟩
  simp only [capture, mirrorInputs, h, captureInputs_keeps]

theorem mixKept_strobeBody (s : State) (x : StrobeIn) : MixKept s.mx (strobeBody s x).mx := by
  have h := mixKept_capture (streamsStrobe s x.storeLost) x
  simpa [strobeBody] using h

theorem exists_silenceFrame (s : State) : ∃ t, silenceFrame s = { s with mx := { s.mx with sil := t } } := ⟨_, rfl⟩

/-- What is presented and what an overrun leaves do not depend on the silence flags. -/
theorem overrunOf_sil (s : State) (t : Tbl Machine.Sil) : overrunOf { s with mx := { s.mx with sil := t } } = overrunOf s := rfl

theorem presentNext_sil (s : State) (t : Tbl Machine.Sil) : presentNext { s with mx := { s.mx with sil := t } } = presentNext s := rfl

theorem beginFrame_fr (s : State) : (beginFrame s).fr = { s.fr with
    ticks := s.fr.ticks + framePeriod s.fr.rate, fn := s.fr.next, next := (s.fr.next + 1) % 2 ^ 48, running := true,
    drained := false, marked := false, overrun := overrunOf s,
    slackMin := if s.fr.clearPend then 0xFFFF else s.fr.slackMin,
    slackMax := if s.fr.clearPend then 0 else s.fr.slackMax, clearPend := false } := by
  obtain ⟨t, ht⟩ := exists_silenceFrame s
  cases h : overdue s <;> simp only [beginFrame, h, ht, if_true, Bool.false_eq_true, if_false, overrunOf_sil]

theorem beginFrame_mx (s : State) : ∃ sil errs, (beginFrame s).mx = { s.mx with
    sil := sil, present := presentNext s, res := [], held := [], laneErrs := errs,
    glide := tmapv Glide.unity (fun _ g => glideStep g) s.mx.glide } := by
  obtain ⟨t, ht⟩ := exists_silenceFrame s
  cases h : overdue s
  · exact ⟨s.mx.sil, settleErrs s, by simp only [beginFrame, h, Bool.false_eq_true, if_false]⟩
  · exact ⟨t, settleErrs (silenceFrame s), by simp only [beginFrame, h, ht, if_true, presentNext_sil]⟩

/-- Settles O1: the frame begins at once, and what the blocks do at the strobe is theirs. -/
theorem strobeBeginsFrame : Obligations.StrobeBeginsFrame := by
  unfold Obligations.StrobeBeginsFrame
  refine ⟨fun x s hr hg ho => ?_, fun x s h => ?_⟩
  · refine ⟨_, exec_frameStrobe x hr hg ho, ?_⟩
    obtain ⟨src, gen, hmx⟩ := mixKept_strobeBody (beginFrame (atT s 0)) x
    obtain ⟨sil, errs, hmx'⟩ := beginFrame_mx (atT s 0)
    rw [hmx'] at hmx
    refine ⟨?_, fun hwf k => ?_, ?_, ?_, ?_, ?_, ?_⟩
    · rw [(strobeBody_keeps).2.2.2.1, beginFrame_fr]
      simp [hr]; rfl
    · rw [presents, hmx]
      exact tget_presentNext (s := atT s 0) hwf k
    · rw [hmx]
    · rw [hmx]; rfl
    · rw [hmx]; rfl
    · rw [hmx]; rfl
    · simp [only_iff]
  · refine answers_eq rfl (if_pos ?_) (SetupLock.still_atT s 0)
    rcases h with h | h | h <;> simp [h, Option.isSome_iff_ne_none]

end Sys2Proof.Proofs.Strobe

/-! Two frames in which a clause on streams says too little: a start frame that plays, and a drain that a reset ends
(R330, R335, R445). -/

namespace Sys2Proof.Proofs.StreamCounters

open Sys2Proof Sys2Proof.Machine Sys2Proof.Safety

/-- Strobes run in frame 5. -/
def running5 : State := { State.reset with fr := { Frame.reset with running := true, fn := 5, next := 6 } }

/-- Context 0 plays channel 0 in group 0, and the sample of frame 5 has landed. -/
def landed : State :=
  setGrp (setCtx running5 0 { Ctx.reset with st := .armed, store := [(5, [7])] }) 0 { st := .starting, start := 5 }

theorem landed_starts : (grp landed 0).st = .starting ∧ startStaged landed 0 = false ∧
    (grp landed 0).start ≤ landed.fr.fn ∧ landed.fr.running = true := by decide

/-- The first frame of the group is presented, and kept as this module's own input (R445). -/
theorem groupStartFrame_ownInp : (match exec (.groupStartFrame 0 0 []) landed with
    | .next s' => s'.pl.ownInp
    | _ => []) = [(0, 7)] := by decide

/-- Refutes O35: its clause on the start frame leaves the module's own mirrored inputs as they were. -/
theorem not_groupsAndStops : ¬ Obligations.GroupsAndStops := by
  unfold Obligations.GroupsAndStops
  rintro ⟨-, -, hstart, -⟩
  obtain ⟨hst, hstaged, hfn, hrun⟩ := landed_starts
  obtain ⟨s', hs', -, -, -, honly⟩ := hstart 0 0 [] landed hst hstaged hfn hrun
  have hown := groupStartFrame_ownInp
  rw [hs'] at hown
  have hpl : s'.pl = landed.pl := honly .pl (by decide)
  exact absurd (hown.symm.trans (congrArg Pair.ownInp hpl)) (by decide)

/-- Context 0 has failed in the marked frame 5, and a HOST reset waits for a completion that has been written. -/
def resetting : State :=
  let s := setCtx running5 0 { Ctx.reset with st := .running, fail := some 4, lastErr := 0x84 }
  { s with fr := { s.fr with marked := true }, ct := { s.ct with cur := none }, hl := { s.hl with afterDone := some (.reset 3, 0) } }

theorem resetting_fails : computing resetting = true ∧ stuckLane resetting = false ∧ resetting.fr.marked = true ∧
    live resetting 0 = true ∧ (ctx resetting 0).fail = some 4 := by decide

def quietDrain : DrainIn := { maskLate := [], ecc := { table := 0, delay := 0 }, damaged := [], descs := [] }

/-- The reset that follows the drain disables the context (R332). -/
theorem frameDrain_disabled : (match exec (.frameDrain 0 quietDrain) resetting with
    | .next s' => (ctx s' 0).st
    | _ => .halted) = .disabled := by decide +kernel

/-- Refutes O34: its clause on the halt at a boundary also covers a drain after which a HOST reset begins. -/
theorem not_contextData : ¬ Obligations.ContextData := by
  unfold Obligations.ContextData
  rintro ⟨-, -, -, -, -, -, hhalt⟩
  obtain ⟨hc, hl, hm, hlive, hfail⟩ := resetting_fails
  obtain ⟨s', hs', hst, -⟩ := hhalt 0 quietDrain 0 4 resetting (by decide) (.inr ⟨hc, hl, hm⟩) hlive hfail
  have hdis := frameDrain_disabled
  rw [hs'] at hdis
  exact absurd (hst.symm.trans hdis) (by decide)

end Sys2Proof.Proofs.StreamCounters

/-! A drain at whose boundary the firmware of a module in recovery is activated (R37, R379, R431). -/

namespace Sys2Proof.Proofs.RecoveryDrain

open Sys2Proof Sys2Proof.Machine Sys2Proof.Safety

/-- Strobes run in frame 5 of a module in recovery, and SV_FW_ACTIVATE is bound to the boundary of the frame. -/
def activating : State :=
  { State.reset with
    fr := { Frame.reset with
      running := true, fn := 5, next := 6, staged := [{ owner := .host, bound := 5, item := .fwActivate, at_ := 0 }] }
    ct := { State.reset.ct with cur := none, phase := .recovery } }

theorem activating_drains : computing activating = true ∧ stuckLane activating = false ∧
    activating.hl.afterDone = none := by decide

def quietDrain : DrainIn := { maskLate := [], ecc := { table := 0, delay := 0 }, damaged := [], descs := [] }

/-- The COLD reset that the activation begins takes the slack with it (R379). -/
theorem frameDrain_slackValid : (match exec (.frameDrain 0 quietDrain) activating with
    | .next s' => s'.fr.slackValid
    | _ => true) = false := by decide +kernel

/-- Refutes O2: its first clause holds the slack of every drain to be recorded, also where the boundary of the frame
begins a COLD reset. -/
theorem not_frameEnds : ¬ Obligations.FrameEnds := by
  unfold Obligations.FrameEnds
  rintro ⟨hdrain, -⟩
  obtain ⟨hc, hl, ha⟩ := activating_drains
  obtain ⟨s', hs', -, -, hvalid, -⟩ := hdrain 0 quietDrain activating hc hl ha
  have hlost := frameDrain_slackValid
  rw [hs'] at hlost
  exact absurd (hvalid.symm.trans hlost) (by decide)

end Sys2Proof.Proofs.RecoveryDrain

/-! Wake from STANDBY and SLEEP (R401–R406). -/

namespace Sys2Proof.Proofs.Wake

open Sys2Proof Sys2Proof.Machine Sys2Proof.Safety Sys2Proof.Laws
open Sys2Proof.Proofs.Frames Sys2Proof.Proofs.Reads

section
variable {s : State} {t : Frac} {src awc n : Nat}

/-- The clock moves on and leaves the states, the domains and the wake. -/
@[simp] theorem rtcAdvance_pd (s : State) (n : Nat) :
    (rtcAdvance s n).pd.st = s.pd.st ∧ (rtcAdvance s n).pd.entry = s.pd.entry ∧
      (rtcAdvance s n).pd.waking = s.pd.waking ∧ (rtcAdvance s n).pd.wakes = s.pd.wakes ∧
      (rtcAdvance s n).pd.wakeStatus = s.pd.wakeStatus ∧ (rtcAdvance s n).pd.on = s.pd.on ∧
      (rtcAdvance s n).pd.job = s.pd.job ∧ (rtcAdvance s n).pd.ret = s.pd.ret := by
  unfold rtcAdvance
  dsimp only
  split <;> simp

theorem still_rtcAdvance (s : State) (t : Frac) (n : Nat) : still [.pd] s (rtcAdvance (atT s t) n) := by
  rw [rtcAdvance_eq, still_iff]
  simp

/-- What a wake source finds in a module that rests: in a state that it wakes from, with no wake begun. -/
structure Rests (s : State) (src : Nat) (m : ModState) : Prop where
  st : s.pd.st = m
  entry : s.pd.entry = none
  waking : s.pd.waking = none
  up : wakingUp s = false
  en : rb s .pdWakeEn 0 src = true
  from_ : wakesFrom src m = true

/-- A source is recorded and begins the wake. -/
def recorded (s : State) (src awc : Nat) (m : ModState) : State :=
  { s with pd := { s.pd with
      wakeStatus := if bitN s.pd.wakeStatus src then s.pd.wakeStatus else s.pd.wakeStatus + 2 ^ src
      waking := some (src, if src = 5 then awc else 0), wakeSec := s.pd.sec, wakes := inc16 s.pd.wakes
      backup30 := src + 256 * modCode m + 65536 * (if src = 5 then awc else 0) } }

theorem rests_rtcAdvance {m : ModState} (h : Rests s src m) : Rests (rtcAdvance (atT s t) n) src m := by
  obtain ⟨hst, he, hw, hup, hen, hf⟩ := h
  refine ⟨by simp [hst], by simp [he], by simp [hw], ?_, by simp [hen], hf⟩
  rw [rtcAdvance_eq]
  exact hup

theorem wakeHolds_rtcAdvance (g : List (BitVec 16)) :
    wakeHolds (rtcAdvance (atT s t) n) src awc g = wakeHolds s src awc g := by
  simp only [wakeHolds, rb_rtcAdvance, rf_rtcAdvance, rb_atT, rf_atT]

theorem wakeState_rests {m : ModState} (h : Rests s src m) : wakeState s = m := by
  simp [wakeState, h.entry, h.up, h.st]

/-- In ACTIVE no source does anything (R401). -/
theorem wakeArrives_active (hst : s.pd.st = .active) (he : s.pd.entry = none) (hup : wakingUp s = false) :
    wakeArrives s src awc = s := by
  simp [wakeArrives, wakeState, he, hup, hst, wakesFrom]

theorem wakeArrives_standby (h : Rests s src .standby) :
    wakeArrives s src awc = wakeStandby (recorded s src awc .standby) := by
  have hup : ∀ p, wakingUp { s with pd := p } = false := fun _ => h.up
  simp [wakeArrives, wakeState_rests h, h.en, h.from_, h.waking, h.entry, hup, recorded]

theorem wakeArrives_sleep (h : Rests s src .sleep) :
    wakeArrives s src awc = wakeSleep (recorded s src awc .sleep) src (if src = 5 then awc else 0) := by
  have hup : ∀ p, wakingUp { s with pd := p } = false := fun _ => h.up
  simp [wakeArrives, wakeState_rests h, h.en, h.from_, h.waking, h.entry, hup, recorded]

/-- A bit that is clear is set by adding its weight. -/
theorem bitN_add_of_clear {n b : Nat} (h : bitN n b = false) : bitN (n + 2 ^ b) b = true := by
  simp only [bitN, beq_eq_false_iff_ne, beq_iff_eq] at h ⊢
  rw [Nat.add_div_right n (Nat.two_pow_pos b)]
  omega

theorem bitN_recorded (m : ModState) : bitN (recorded s src awc m).pd.wakeStatus src = true := by
  cases h : bitN s.pd.wakeStatus src
  · simpa [recorded, h] using bitN_add_of_clear h
  · simp [recorded, h]

/-- The last heartbeat of a module (R452) leaves the owner key, and what was driven out before it. -/
theorem lastHeartbeat_owner (s : State) : (lastHeartbeat s).sv.owner = s.sv.owner := by
  simp only [lastHeartbeat, sendPacket]
  split_ifs <;> simp [startAuth, push]

theorem out_lastHeartbeat (s : State) {o : Out} (h : o ∈ s.out) : o ∈ (lastHeartbeat s).out := by
  simp only [lastHeartbeat, sendPacket]
  split_ifs <;> simp [startAuth, push, h]

/-- What a COLD reset that begins keeps and what it leaves at its reset value (R413, R405). -/
theorem beginWide_cold (s : State) (src merged : Nat) :
    (beginWide s 0 src merged).mx = State.reset.mx ∧ (beginWide s 0 src merged).fx = State.reset.fx ∧
      (beginWide s 0 src merged).sv.owner = s.sv.owner ∧ (beginWide s 0 src merged).hl.scenes = s.hl.scenes ∧
      (beginWide s 0 src merged).ct.nCold = inc8 s.ct.nCold := by
  have hown := lastHeartbeat_owner s
  refine ⟨?_, ?_, ?_, ?_, ?_⟩ <;> simp only [beginWide, if_true] <;> split_ifs <;>
    simp [coldState, countReset, push, hown]

theorem beginWide_cold_pd (s : State) (src merged : Nat) :
    (beginWide s 0 src merged).pd.st = .active ∧ (beginWide s 0 src merged).pd.ret = s.pd.ret ∧
      (beginWide s 0 src merged).pd.wakeStatus = s.pd.wakeStatus := by
  refine ⟨?_, ?_, ?_⟩ <;> simp only [beginWide, if_true] <;> split_ifs <;>
    simp [coldState, countReset, push] <;> rfl

/-- What is driven out before the bring-up begins stays. -/
theorem out_beginWide_cold (s : State) (src merged : Nat) {o : Out} (h : o ∈ s.out) : o ∈ (beginWide s 0 src merged).out := by
  have hb := out_lastHeartbeat s h
  simp only [beginWide, if_true]
  split_ifs <;> simp [coldState, countReset, push, hb]

/-- What the bring-up of a wake from SLEEP starts from, and what it keeps (R405). -/
theorem wakeSleep_starts (s : State) (src awc : Nat) :
    (wakeSleep s src awc).ct.phase = .ctrl ∧ (wakeSleep s src awc).ct.nCold = inc8 s.ct.nCold ∧
      (wakeSleep s src awc).ct.code = s.ct.code ∧ (wakeSleep s src awc).mx = State.reset.mx ∧
      (wakeSleep s src awc).fx = State.reset.fx ∧ (wakeSleep s src awc).sv.owner = s.sv.owner ∧
      (wakeSleep s src awc).hl.scenes = s.hl.scenes := by
  obtain ⟨hmx, hfx, hsv, hhl, hct⟩ := beginWide_cold s 0x0B 0
  simp only [wakeSleep]
  split_ifs <;> simp [push, holdEvent, hmx, hfx, hsv, hhl, hct]

theorem wakeSleep_pd (s : State) (src awc : Nat) :
    (wakeSleep s src awc).pd.st = .active ∧ (wakeSleep s src awc).pd.ret = s.pd.ret ∧
      (wakeSleep s src awc).pd.wakeStatus = s.pd.wakeStatus ∧
      (wakeSleep s src awc).pd.twWake = (if src = 3 then 1 else if src = 4 then 2 else 0) := by
  obtain ⟨hst, hret, hws⟩ := beginWide_cold_pd s 0x0B 0
  simp only [wakeSleep]
  split_ifs <;> simp [push, hst, hret, hws]

theorem out_wakeSleep (s : State) (src awc : Nat) {o : Out} (h : o ∈ s.out) : o ∈ (wakeSleep s src awc).out := by
  have hb := out_beginWide_cold s 0x0B 0 h
  simp only [wakeSleep]
  split_ifs <;> simp [push, hb]

end

/-- The state of a wake's first strobe, at which the module is ACTIVE (R404). -/
theorem standbyStrobe_wakes {s : State} {w : Nat × Nat} (x : StrobeIn) (hst : s.pd.st = .standby)
    (hw : s.pd.waking = some w) (hj : ∀ j ∈ s.pd.job, j.slot ≠ none) (hd : domOn s 7 = true) :
    (standbyStrobe s x).pd = { s.pd with st := .active, waking := none } ∧ (standbyStrobe s x).fr.running = true ∧
      (standbyStrobe s x).sv = s.sv ∧ (standbyStrobe s x).ct = s.ct ∧ (standbyStrobe s x).vc = s.vc ∧
      busRest (standbyStrobe s x).tw = busRest s.tw := by
  have hjob : s.pd.job.any (·.slot.isNone) = false := by
    rw [List.any_eq_false]
    intro j hj'
    simpa using hj j hj'
  have hrun : (firstStrobe s x).fr.running = true := by
    simp [firstStrobe, beginFrame]
  simp [standbyStrobe, hw, hst, hjob, hd, setMod, hrun]

/-- Settles O44: a source that arrives in a module at rest is recorded, and the wake begins. -/
theorem wake : Obligations.Wake := by
  unfold Obligations.Wake
  refine ⟨fun t src awc g n s hst he hw hup hen h4 hh => ?_, fun t src awc g n s hst he hw hup hen h2 h9 hh => ?_,
    fun t src awc g n s h => ?_, fun t a n s hst he hw hup hen ha => ?_, fun t n m s hst he hw hup hen hn => ?_,
    fun n x w s hst hw hj hd hl => ?_⟩
  · have hr : Rests s src.val .standby := ⟨hst, he, hw, hup, hen, by simpa [wakesFrom] using h4⟩
    refine answers_eq rfl ((if_pos (by rw [wakeHolds_rtcAdvance]; exact hh)).trans (wakeArrives_standby (rests_rtcAdvance hr))) ?_
    refine ⟨rfl, ?_, ?_, bitN_recorded (awc := awc.val) .standby, ?_, ?_, ?_, ?_⟩
    · simp [wakeStandby, recorded, rtcAdvance_atT]
    · simp [wakeStandby, recorded]
    · simp [wakeStandby, recorded, hst]
    · simp [wakeStandby, recorded]
    · simp [wakeStandby, recorded]
    · rw [rtcAdvance_eq, still_iff]
      simp [wakeStandby, recorded]
  · have hr : Rests s src.val .sleep := ⟨hst, he, hw, hup, hen, by simp [wakesFrom, h2, h9]⟩
    refine answers_eq rfl ((if_pos (by rw [wakeHolds_rtcAdvance]; exact hh)).trans (wakeArrives_sleep (rests_rtcAdvance hr))) ?_
    generalize hu : rtcAdvance (atT s t) n = u
    obtain ⟨hph, hn, hcode, hmx, hfx, hown, hsc⟩ := wakeSleep_starts (recorded u src.val awc.val .sleep) src.val (if src.val = 5 then awc.val else 0)
    obtain ⟨hact, hret, hws, -⟩ := wakeSleep_pd (recorded u src.val awc.val .sleep) src.val (if src.val = 5 then awc.val else 0)
    have hu' := rtcAdvance_eq (atT s t) n
    rw [hu] at hu'
    refine ⟨hph, ?_, ?_, hact, hmx, hfx, ?_, by rw [hws]; exact bitN_recorded .sleep, ?_, ?_⟩
    · rw [hn, recorded, hu']; rfl
    · rw [hcode, recorded, hu']; rfl
    · rw [hret, recorded, ← hu]; simp
    · rw [hown, recorded, hu']; rfl
    · rw [hsc, recorded, hu']; rfl
  · have hstill := still_rtcAdvance s t n
    have hpd := rtcAdvance_pd (atT s t) n
    rcases h with h | h
    · have hn : wakeArrives (rtcAdvance (atT s t) n) src.val awc.val = rtcAdvance (atT s t) n := by
        simp [wakeArrives, h]
      refine answers_eq rfl ((ite_congr rfl (fun _ => hn) fun _ => rfl).trans (ite_self _)) ?_
      exact ⟨hstill, hpd.2.2.1, hpd.2.2.2.2.1, hpd.1⟩
    · refine answers_eq rfl (if_neg (by rw [wakeHolds_rtcAdvance, h]; simp)) ?_
      exact ⟨hstill, hpd.2.2.1, hpd.2.2.2.2.1, hpd.1⟩
  · have hr : Rests (nack (rtcAdvance (atT s t) n) 0) 3 .sleep := by
      obtain ⟨h1, h2, h3, h4, h5, h6⟩ : Rests (rtcAdvance (atT s t) n) 3 .sleep :=
        rests_rtcAdvance ⟨hst, he, hw, hup, hen, rfl⟩
      exact ⟨h1, h2, h3, h4, h5, h6⟩
    refine answers_eq rfl ((if_pos ?_).trans (wakeArrives_sleep hr)) ?_
    · simp [hst, hen, ha, twAddr]
    · obtain ⟨hph, -⟩ := wakeSleep_starts (recorded (nack (rtcAdvance (atT s t) n) 0) 3 0 .sleep) 3 0
      obtain ⟨hact, -, hws, htw⟩ := wakeSleep_pd (recorded (nack (rtcAdvance (atT s t) n) 0) 3 0 .sleep) 3 0
      exact ⟨out_wakeSleep _ _ _ (by simp [recorded, nack, push]), hph, htw, by rw [show (if (3 : Nat) = 5 then 0 else 0) = 0 from rfl, hws]; exact bitN_recorded .sleep, hact⟩
  · have hr : Rests (rtcAdvance (atT s t) m) 4 .sleep := rests_rtcAdvance ⟨hst, he, hw, hup, hen, rfl⟩
    refine answers_eq rfl ((if_pos ?_).trans (wakeArrives_sleep hr)) ?_
    · simp [hst, hn]
    · obtain ⟨hph, -⟩ := wakeSleep_starts (recorded (rtcAdvance (atT s t) m) 4 0 .sleep) 4 0
      obtain ⟨hact, -, hws, htw⟩ := wakeSleep_pd (recorded (rtcAdvance (atT s t) m) 4 0 .sleep) 4 0
      exact ⟨hph, htw, by rw [show (if (4 : Nat) = 5 then 0 else 0) = 0 from rfl, hws]; exact bitN_recorded .sleep, hact⟩
  · generalize hu : rtcAdvance (atT s 0) n = u
    have hu' := rtcAdvance_eq (atT s 0) n
    have hpd := rtcAdvance_pd (atT s 0) n
    rw [hu] at hu' hpd
    obtain ⟨pst, -, pw, -, -, pon, pj, -⟩ := hpd
    have hd' : domOn u 7 = true := by simpa [domOn, pon] using hd
    obtain ⟨spd, sfr, ssv, sct, svc, stw⟩ := standbyStrobe_wakes x (pst.trans hst) (pw.trans hw) (pj ▸ hj) hd'
    have hlate : (standbyStrobe u x).tw.late = [] := by
      have h : (busRest (standbyStrobe u x).tw).late = (busRest u.tw).late := congrArg TwoWire.late stw
      rw [hu'] at h ⊢
      exact h.trans hl
    have hexec : exec (.standbyWakeStrobe n x) s =
        .next { standbyStrobe u x with tw := { (standbyStrobe u x).tw with late := [] } } := by
      simp only [exec, execStandbyWakeStrobe, hu, spd, hlate, if_true, each, List.foldl_nil]
    refine answers_eq hexec rfl ⟨?_, sfr, ?_, ?_, ?_⟩
    · rw [spd, ← hu, rtcAdvance_atT]; rfl
    · rw [ssv, hu']; rfl
    · rw [sct, hu']; rfl
    · rw [svc, hu']; rfl

end Sys2Proof.Proofs.Wake

/-! The real-time clock, the comparators and the retained memory (R407–R410). -/

namespace Sys2Proof.Proofs.Clock

open Sys2Proof Sys2Proof.Machine Sys2Proof.Safety Sys2Proof.Laws
open Sys2Proof.Proofs.Frames Sys2Proof.Proofs.Writes Sys2Proof.Proofs.Reads Sys2Proof.Proofs.Wake

section
variable {s : State} {t : Frac} {n : Nat}

/-- Seconds and fraction with no trim and none in hand (R407). -/
theorem rtcAdvance_untrimmed (ho : s.pd.oscOk = true) (hc : rf s .pdRtcCfg 0 7 0 = 0) (hr : s.pd.trimRem = 0) :
    (rtcAdvance s n).pd.sec = (s.pd.sec + (s.pd.frac + n) / 32768) % 2 ^ 48 ∧
      (rtcAdvance s n).pd.frac = (s.pd.frac + n) % 32768 := by
  have hc' : ∀ p, rf { s with pd := p } .pdRtcCfg 0 7 0 = 0 := fun _ => hc
  simp only [rtcAdvance, ho, hc', hr, Bool.not_true, Bool.false_eq_true, if_false]
  have hz : sext 8 0 = 0 := by decide
  simp only [hz, mul_zero, add_zero, EuclideanDomain.zero_div, Int.toNat_natCast]
  constructor <;> omega

/-- With the oscillator stopped only its cycles are counted. -/
theorem rtcAdvance_stopped (ho : s.pd.oscOk = false) :
    (rtcAdvance s n).pd = { s.pd with osc := s.pd.osc + n } := by
  simp [rtcAdvance, ho]

theorem rtcAdvance_atT_eq (s : State) (t : Frac) (n : Nat) :
    rtcAdvance (atT s t) n = { atT s t with pd := (rtcAdvance s n).pd } := by
  rw [rtcAdvance_eq, rtcAdvance_atT]
  rfl

theorem noteWrite_snd_pd (u : State) (p : Domains) (o : Owner) (off g : Nat) :
    (noteWrite { u with pd := p } o off g).2 = (noteWrite u o off g).2 := by
  have ht : tieRank { u with pd := p } = tieRank u := funext fun o => by cases o <;> rfl
  simp only [noteWrite, apply_ite Prod.snd, ht]

/-- The clock that moves on does not hold a write back. -/
theorem writeTaken_rtcAdvance {o : Owner} {off g : Nat} (h : writeTaken s t o off g) :
    writeTaken (rtcAdvance s n) t o off g := by
  obtain ⟨hh, ho, hn⟩ := h
  rw [rtcAdvance_eq]
  exact ⟨by simpa [held, entering, busy] using hh, ho, (noteWrite_snd_pd (atT s t) _ o off g).trans hn⟩

theorem alarmDue_iff (u : State) (sec : Nat) :
    alarmDue u sec = true ↔ rb u .pdRtcAlarmHi 0 31 = true ∧ u.pd.sec ≠ sec ∧ u.pd.sec = alarmAt u := by
  simp [alarmDue, and_assoc]

theorem alarmDue_atT (u : State) (sec : Nat) : alarmDue (atT u t) sec = alarmDue u sec := rfl

theorem alarmAt_rtcAdvance (u : State) : alarmAt (rtcAdvance u n) = alarmAt u := by
  simp [alarmAt]

/-- The alarm disables itself and is reported (R407). -/
def alarmed (s : State) (t : Frac) (n : Nat) : State :=
  emit (setBit (atT (rtcAdvance s n) t) .pdRtcAlarmHi 0 31 false) 0x0D06 noUnit (pay [(0, 6, alarmAt s)])

theorem exec_rtcAlarm_due (h : alarmDue (rtcAdvance s n) s.pd.sec = true) :
    exec (.rtcAlarm t n) s = .next (wakeArrives (alarmed s t n) 6 0) := by
  have ha : alarmAt (atT (rtcAdvance s n) t) = alarmAt s := alarmAt_rtcAdvance s
  simp only [exec, execRtcAlarm, rtcAdvance_atT, alarmDue_atT, h, ha, Bool.not_true, Bool.false_eq_true, if_false,
    alarmed]

@[simp] theorem alarmed_keeps : (alarmed s t n).pd = (rtcAdvance s n).pd ∧ (alarmed s t n).ct = s.ct := by
  rw [alarmed, rtcAdvance_eq]
  simp

theorem only_alarmed : only [.pd, .regs] s (alarmed s t n) := by
  rw [alarmed, rtcAdvance_eq, only_iff]
  simp

theorem rb_alarmed : rb (alarmed s t n) .pdRtcAlarmHi 0 31 = false := by
  have h := rb_setBit_same (atT (rtcAdvance s n) t) .pdRtcAlarmHi 0 (b := 31) (by decide) false
  simpa [alarmed] using h

theorem rb_alarmed_wakeEn (b : Nat) : rb (alarmed s t n) .pdWakeEn 0 b = rb s .pdWakeEn 0 b := by
  have h := reg_setBit_ne (atT (rtcAdvance s n) t) .pdRtcAlarmHi 0 (m := .pdWakeEn) (j := 0) 31 false (by decide)
  simp [rb, alarmed, h]

theorem raised_alarmed (h : evtOpen s 1) : raised s t 0x0D06 noUnit (pay [(0, 6, alarmAt s)]) (alarmed s t n) := by
  rw [alarmed, rtcAdvance_eq]
  exact raised_emit_of (s := s) (k := 0) h rfl rfl rfl

/-! ### Comparators -/

theorem awc_rtcAdvance (u : State) : (rtcAdvance u n).pd.awc = u.pd.awc := by
  unfold rtcAdvance
  dsimp only
  split <;> rfl

theorem awcLevel_rtcAdvance (i ball vaon : Nat) :
    awcLevel (rtcAdvance (atT s t) n) i ball vaon = awcLevel s i ball vaon := by
  simp only [awcLevel, rf_rtcAdvance, rf_atT, awc_rtcAdvance]
  rfl

theorem awc_setAwc (u : State) (i : Nat) (l : Bool) :
    tget false (setAwc u i l).pd.awc i = l ∧ ∀ k, k ≠ i → tget false (setAwc u i l).pd.awc k = tget false u.pd.awc k := by
  unfold setAwc
  split
  · next h => exact ⟨by simpa using h, fun _ _ => rfl⟩
  · exact ⟨tget_tput_same _ _ _ _, fun k hk => tget_tput_ne _ _ _ hk⟩

/-- Only the record of the comparators is moved. -/
theorem setAwc_eq (u : State) (i : Nat) (l : Bool) : setAwc u i l = { u with pd := (setAwc u i l).pd } := by
  unfold setAwc
  split <;> rfl

@[simp] theorem setAwc_pd (u : State) (i : Nat) (l : Bool) :
    (setAwc u i l).pd.st = u.pd.st ∧ (setAwc u i l).pd.entry = u.pd.entry ∧ (setAwc u i l).pd.waking = u.pd.waking := by
  unfold setAwc
  split <;> simp

/-- What a comparator's change leads to before a wake (R408). -/
def awcReported (s : State) (t : Frac) (n i : Nat) (l : Bool) : State :=
  let u := setAwc (rtcAdvance (atT s t) n) i l
  if rb s .pdAwc i 27 then emit u 0x0D05 i (pay [(0, 1, b2n l)]) else u

theorem exec_awcChanged {i : Fin 8} {v a : BitVec 16} {l : Bool} (hen : rb s .pdAwc i.val 31 = true)
    (hl : awcLevel s i.val v.toNat a.toNat = l) (hne : tget false s.pd.awc i.val ≠ l) :
    exec (.awcChanged t i v a n) s = .next (if awcWakes s i.val l then wakeArrives (awcReported s t n i.val l) 5 i.val
      else awcReported s t n i.val l) := by
  have hset : ∀ u m i' b, rb (setAwc u i.val l) m i' b = rb u m i' b := fun u m i' b => by rw [setAwc_eq]; rfl
  have hw : awcWakes (awcReported s t n i.val l) i.val l = awcWakes s i.val l := by
    simp only [awcWakes, awcReported]
    split_ifs <;> simp [hset]
  have hlev : awcLevel (rtcAdvance (atT s t) n) i.val v.toNat a.toNat = l := (awcLevel_rtcAdvance _ _ _).trans hl
  have hne' : (tget false (rtcAdvance (atT s t) n).pd.awc i.val == l) = false := by
    rw [awc_rtcAdvance]
    exact beq_eq_false_iff_ne.mpr hne
  refine congrArg Host.Outcome.next ((if_neg ?_).trans ?_)
  · simp [hen, hlev, hne']
  · simp only [hset, rb_rtcAdvance, rb_atT, hlev]
    rw [show (if rb s .pdAwc i.val 27 = true then emit (setAwc (rtcAdvance (atT s t) n) i.val l) 0x0D05 i.val
      (pay [(0, 1, b2n l)]) else setAwc (rtcAdvance (atT s t) n) i.val l) = awcReported s t n i.val l from rfl, hw]

theorem awcReported_keeps (s : State) (t : Frac) (n i : Nat) (l : Bool) :
    (awcReported s t n i l).pd = (setAwc (rtcAdvance (atT s t) n) i l).pd ∧
      (rb s .pdAwc i 27 = true → evtOpen s 1 → raised s t 0x0D05 i (pay [(0, 1, b2n l)]) (awcReported s t n i l)) ∧
      (rb s .pdAwc i 27 = false → (awcReported s t n i l).out = []) ∧ only [.pd] s (awcReported s t n i l) := by
  have heq : setAwc (rtcAdvance (atT s t) n) i l = { atT s t with pd := (setAwc (rtcAdvance (atT s t) n) i l).pd } := by
    rw [setAwc_eq, rtcAdvance_eq]
  simp only [awcReported]
  refine ⟨?_, fun h he => ?_, fun h => ?_, ?_⟩
  · split_ifs <;> simp
  · rw [if_pos h, heq]
    exact raised_emit_of he rfl rfl rfl
  · rw [if_neg (by simp [h]), heq]
    rfl
  · rw [heq, only_iff]
    split_ifs <;> simp

/-- A wake from STANDBY begins in the power domains' part alone. -/
theorem only_woken {u : State} {l : List Part} {src awc : Nat} {m : ModState} (hl : .pd ∈ l) (h : only l s u) :
    only l s (wakeStandby (recorded u src awc m)) := by
  intro p hp
  have hne : p ≠ .pd := fun e => hp (e ▸ hl)
  have hu := h p hp
  cases p <;> first | exact absurd rfl hne | exact hu

/-! ### Retained memory -/

/-- The address moves on with AUTO (R410). -/
theorem retNext_auto (u : State) (h : rb u .pdRetAddr 0 31 = true) :
    rf (retNext u) .pdRetAddr 0 11 0 = (rf u .pdRetAddr 0 11 0 + 1) % 4096 ∧ rb (retNext u) .pdRetAddr 0 31 = true ∧
      retNext u = { u with regs := (retNext u).regs } := by
  simp only [retNext, h, if_true]
  refine ⟨?_, ?_, rfl⟩
  · simp only [rf, reg_setReg_same, fld, fldN, BitVec.toNat_ofNat]
    omega
  · simp only [rb, reg_setReg_same, bit, fld, fldN, BitVec.toNat_ofNat, beq_iff_eq]
    omega

theorem retNext_fixed (u : State) (h : rb u .pdRetAddr 0 31 = false) : retNext u = u := by
  simp [retNext, h]

end

/-- Settles O45: the clock moves on first in each of these rows, and only the power domains' part with it. -/
theorem clockComparatorsRetained : Obligations.ClockComparatorsRetained := by
  unfold Obligations.ClockComparatorsRetained
  refine ⟨fun t n s ho hc hr hn => ?_, fun t o v n s hw => ?_, fun t n s hd hst he hup hev => ?_,
    fun t n s hd hst he hw hup hen hev => ?_, fun t n s hd => ?_, fun t i l v a m s hen hl hne hw => ?_,
    fun t i l v a m s hen hl hne haw hst he hw hup hwe => ?_, fun t i v a m s h => ?_, fun t o v b s hw h => ?_,
    fun t o v b s hw h => ?_, fun t o s h => ?_, fun t o s h => ?_, fun t o s h hev => ?_, fun t n s ho hev => ?_,
    fun t n s ho => ?_, fun t src awc g n s ho hen => ?_, fun t s ho hev => ?_⟩
  · obtain ⟨hsec, hfrac⟩ := rtcAdvance_untrimmed (s := s) (n := n) ho hc hr
    refine ⟨_, rfl, ?_⟩
    rw [rtcAdvance_atT_eq]
    refine ⟨hsec, hfrac, rfl, rfl, rfl, fun p hp => ?_⟩
    cases p <;> first | exact absurd rfl hp | rfl
  · have hrun : exec (.rtcSet t o v n) s = .next (rtcLoad (noted (rtcAdvance s n) t o 0x404C 0x36 true) v) := by
      simp only [exec, execRtcSet, rtcAdvance_atT, directWrite_taken (writeTaken_rtcAdvance hw)]
    refine answers_eq hrun rfl ?_
    have hreg : reg (noted (rtcAdvance s n) t o 0x404C 0x36 true) .pdRtcSetLo = reg s .pdRtcSetLo := by
      rw [rtcAdvance_eq]
      simp [reg]
    have hset := reg_setReg_ne (noted (rtcAdvance s n) t o 0x404C 0x36 true) (v &&& 0xFFFF) (m := .pdRtcSetLo)
      (n := .pdRtcSetHi) (i := 0) (j := 0) (by decide)
    refine ⟨fun hb => ?_, fun hb => ?_, ?_, ?_⟩
    · simp [rtcLoad, hb]
    · simp only [rtcLoad, hb, if_true, hset, hreg]
      simp
    · simp only [rtcLoad]
      split <;> simp [setReg]
    · rw [rtcLoad, only_iff]
      rw [rtcAdvance_eq]
      split <;> simp
  · obtain ⟨-, -, hsec⟩ := (alarmDue_iff _ _).mp hd
    refine answers_eq (exec_rtcAlarm_due hd) (wakeArrives_active ?_ ?_ ?_)
      ⟨rb_alarmed, alarmed_keeps.1, ?_, raised_alarmed hev, only_alarmed⟩
    · simp [hst]
    · simp [he]
    · simpa [wakingUp] using hup
    · simp [hsec, alarmAt_rtcAdvance]
  · obtain ⟨-, -, hsec⟩ := (alarmDue_iff _ _).mp hd
    have hr : Rests (alarmed s t n) 6 .standby :=
      ⟨by simp [hst], by simp [he], by simp [hw], by simpa [wakingUp] using hup, by rw [rb_alarmed_wakeEn, hen], rfl⟩
    refine answers_eq (exec_rtcAlarm_due hd) (wakeArrives_standby hr)
      ⟨rb_alarmed, rfl, bitN_recorded (awc := 0) .standby, ?_, only_woken (by decide) only_alarmed⟩
    simp [wakeStandby, recorded, hsec, alarmAt_rtcAdvance]
  · refine answers_eq rfl (if_pos ?_) ?_
    · rw [rtcAdvance_atT, alarmDue_atT, hd]; rfl
    · exact ⟨by rw [rtcAdvance_atT]; rfl, still_rtcAdvance s t n⟩
  · refine answers_eq (exec_awcChanged hen hl hne) (if_neg (by simp [hw])) ?_
    obtain ⟨hpd, hraised, hout, honly⟩ := awcReported_keeps s t m i.val l
    obtain ⟨hsame, hother⟩ := awc_setAwc (rtcAdvance (atT s t) m) i.val l
    refine ⟨hpd, by rw [hpd, hsame], fun k hk => ?_, hraised, hout, honly⟩
    rw [hpd, hother k hk, awc_rtcAdvance]
    rfl
  · obtain ⟨hpd, -, -, honly⟩ := awcReported_keeps s t m i.val l
    obtain ⟨hsame, -⟩ := awc_setAwc (rtcAdvance (atT s t) m) i.val l
    obtain ⟨p1, p2, p3⟩ := setAwc_pd (rtcAdvance (atT s t) m) i.val l
    have hr : Rests (awcReported s t m i.val l) 5 .standby := by
      refine ⟨?_, ?_, ?_, ?_, ?_, rfl⟩
      · rw [hpd, p1]; simp [hst]
      · rw [hpd, p2]; simp [he]
      · rw [hpd, p3]; simp [hw]
      · have hct : (awcReported s t m i.val l).ct = s.ct := honly .ct (by decide)
        simpa [wakingUp, hct] using hup
      · have hregs : (awcReported s t m i.val l).regs = s.regs := honly .regs (by decide)
        simpa [rb, reg, hregs] using hwe
    refine answers_eq (exec_awcChanged hen hl hne) ((if_pos haw).trans (wakeArrives_standby hr))
      ⟨?_, rfl, bitN_recorded (awc := i.val) .standby, only_woken (by decide) honly⟩
    exact (congrArg (tget false · i.val) (congrArg Domains.awc hpd)).trans hsame
  · refine answers_eq rfl (if_pos ?_) ⟨by rw [rtcAdvance_atT_eq], still_rtcAdvance s t m⟩
    rw [awcLevel_rtcAdvance, awc_rtcAdvance, rb_rtcAdvance, rb_atT]
    rcases h with h | h <;> simp [h]
  · refine answers_eq (congrArg Host.Outcome.next (directWrite_taken hw _ _)) (retNext_fixed _ ?_) ?_
    · simpa [rb, reg] using h
    · simp [only_iff]
  · have hn := retNext_auto { noted s t o 0x4064 0x36 true with
        pd := { s.pd with ret := tput 0 s.pd.ret (rf s .pdRetAddr 0 11 0) v } } (by simpa [rb, reg] using h)
    obtain ⟨hrf, hrb, heq⟩ := hn
    refine answers_eq (congrArg Host.Outcome.next (directWrite_taken hw _ _)) (v := retNext { noted s t o 0x4064 0x36 true with
      pd := { s.pd with ret := tput 0 s.pd.ret (rf s .pdRetAddr 0 11 0) v } }) ?_ ⟨?_, ?_, hrb, ?_⟩
    · simp
    · rw [heq]
    · rw [hrf]
      simp [rf, reg]
    · rw [heq, only_iff]
      simp
  · refine answers_eq rfl (congrArg (reading · _) (retNext_fixed _ h)) ⟨rfl, fun p => ?_⟩
    cases p <;> rfl
  · obtain ⟨hrf, hrb, heq⟩ := retNext_auto (atT s t) h
    refine ⟨_, rfl, ?_, hrf, hrb, fun p hp => ?_⟩
    · rw [heq]
      rfl
    · rw [heq]
      cases p <;> first | exact absurd rfl hp | rfl
  · refine answers_eq rfl (congrArg (fun u => emit (reading u _) _ _ _) (retNext_fixed _ h)) ⟨?_, ?_, ?_⟩
    · exact (emit_grows _ _ _ _).mem (by simp [reading, push])
    · exact raised_emit_of (s := s) (k := 0) hev rfl rfl rfl
    · simp [only_iff, reading, push]
  · refine answers_eq rfl (if_neg (by simp [ho])) ⟨?_, ?_, ?_⟩
    · simp [rtcAdvance_atT]
    · rw [rtcAdvance_atT_eq]
      exact raised_emit_of (s := s) (k := 0) hev rfl rfl rfl
    · rw [rtcAdvance_atT_eq, only_iff]
      simp
  · refine ⟨_, rfl, ?_⟩
    rw [rtcAdvance_atT_eq, rtcAdvance_stopped ho]
    refine ⟨rfl, rfl, fun p hp => ?_⟩
    cases p <;> first | exact absurd rfl hp | rfl
  · have hn : wakeArrives (rtcAdvance (atT s t) n) src.val awc.val = rtcAdvance (atT s t) n := by
      simp [wakeArrives, hen]
    refine answers_eq rfl ((ite_congr rfl (fun _ => hn) fun _ => rfl).trans (ite_self _)) ⟨?_, still_rtcAdvance s t n⟩
    rw [rtcAdvance_atT_eq, rtcAdvance_stopped ho]
  · exact answers_eq rfl (if_neg (by simp [ho])) ⟨by simp, raised_emit_of (s := s) (k := 0) hev rfl rfl rfl,
      by simp [only_iff]⟩

end Sys2Proof.Proofs.Clock

/-! Little-endian numbers in strings of bytes, and the fields of a heartbeat (R443). -/

namespace Sys2Proof.Proofs.ByteStrings

open Sys2Proof Sys2Proof.Machine Sys2Proof.Safety

@[simp] theorem length_toLE (n v : Nat) : (toLE n v).length = n := by
  induction n generalizing v with
  | zero => rfl
  | succ n ih => simp [toLE, ih]

theorem leNat_toLE (n v : Nat) : leNat (toLE n v) = v % 256 ^ n := by
  induction n generalizing v with
  | zero => simp [toLE, leNat, Nat.mod_one]
  | succ n ih =>
    rw [toLE, leNat, ih, BitVec.toNat_ofNat, pow_succ' 256 n, Nat.mod_mul]

/-- Past a first part of a string. -/
theorem leAt_skip {a b : Bytes} {o n : Nat} (h : a.length ≤ o) : leAt (a ++ b) o n = leAt b (o - a.length) n := by
  simp only [leAt, List.drop_append, List.drop_eq_nil_of_le h, List.nil_append]

/-- The first part of a string. -/
theorem leAt_head {a b : Bytes} {n : Nat} (h : a.length = n) : leAt (a ++ b) 0 n = leNat a := by
  simp only [leAt, List.drop_zero, List.take_append, h, Nat.sub_self, List.take_zero, List.append_nil]
  rw [← h, List.take_length]

theorem leAt_toLE_head {b : Bytes} {n v : Nat} (h : v < 256 ^ n) : leAt (toLE n v ++ b) 0 n = v := by
  rw [leAt_head (length_toLE n v), leNat_toLE, Nat.mod_eq_of_lt h]

theorem leAt_byte_head (x : Byte) (b : Bytes) : leAt (x :: b) 0 1 = x.toNat := by
  simp [leAt, leNat]

theorem leAt_byte_skip {x : Byte} {b : Bytes} {o n : Nat} : leAt (x :: b) (o + 1) n = leAt b o n := by
  simp [leAt]

/-- A word of whole bytes fits its bytes. -/
theorem toNat_lt_bytes {w n : Nat} (v : BitVec w) (h : w = 8 * n) : v.toNat < 256 ^ n := by
  rw [show 256 = 2 ^ 8 from rfl, ← pow_mul, ← h]
  exact v.isLt

/-- A heartbeat is read as it was written (R443). -/
theorem heartbeatAt_heartbeatBytes (h : Heartbeat) : heartbeatAt (heartbeatBytes h) = h := by
  have hp := toNat_lt_bytes h.pfn (n := 6) rfl
  have hd := toNat_lt_bytes h.digest (n := 4) rfl
  have hq := toNat_lt_bytes h.digestPrev (n := 4) rfl
  have hl := toNat_lt_bytes h.live (n := 2) rfl
  have hr := toNat_lt_bytes h.rec_ (n := 6) rfl
  have hv := toNat_lt_bytes h.level (n := 2) rfl
  have ha := toNat_lt_bytes h.ack (n := 4) rfl
  simp only [heartbeatAt, heartbeatBytes, List.append_assoc, List.cons_append, List.nil_append]
  simp [leAt_skip, leAt_byte_head, leAt_byte_skip, leAt_toLE_head hp, leAt_toLE_head hd, leAt_toLE_head hq,
    leAt_toLE_head hl, leAt_toLE_head hr, leAt_toLE_head hv, leAt_toLE_head ha]

end Sys2Proof.Proofs.ByteStrings

/-! The Larders of a pair authenticate (R382). -/

namespace Sys2Proof.Proofs.Handshake

open Sys2Proof Sys2Proof.Machine Sys2Proof.Safety Sys2Proof.Laws
open Sys2Proof.Proofs.Frames Sys2Proof.Proofs.Reads Sys2Proof.Proofs.ByteStrings

section
variable {s : State} {t : Frac}

theorem length_drawBytes (s : State) (n : Nat) : (drawBytes s n).1.length = 8 * n := by
  simp [drawBytes, List.length_flatMap, Nat.mul_comm]

/-- A handshake that begins sends HELLO and keeps its key (R382, step 1). -/
theorem startAuth_sends (s : State) :
    (startAuth s).sv = { s.sv with auth := .handshaking, own := (startAuth s).sv.own, peer := none, timedOut := false } ∧
      helloOut s (startAuth s) ∧ ∃ h, (startAuth s).out = s.out ++ [.hello h] := by
  refine ⟨rfl, ⟨_, _, rfl, ?_, rfl, length_drawBytes s 6, rfl, rfl, rfl, rfl⟩, ⟨_, rfl⟩⟩
  simp [startAuth, push]

theorem startAuth_exact (s : State) (p : Part) (hp : p ≠ .sv) : p.exact s (startAuth s) := by
  cases p <;> first | exact absurd rfl hp | rfl

theorem helloSent_startAuth (s : State) (t : Frac) : helloSent s (startAuth (atT s t)) := by
  obtain ⟨hsv, hhello, h, hout⟩ := startAuth_sends (atT s t)
  refine ⟨hsv, hhello, ?_, fun p hp => ?_⟩
  · rw [hout]; rfl
  · cases p <;> first | exact absurd rfl hp | rfl

/-- A failed handshake is counted and reported (R382, step 5). -/
theorem authFail_keeps {r : Nat} (he : evtOpen s 1) :
    (authFail (atT s t) r).sv =
        { s.sv with auth := .failed, peer := none, timedOut := r == 6, fails := inc8 s.sv.fails } ∧
      raised s t 0x0C0C noUnit (pay [(0, 1, r), (1, 1, inc8 s.sv.fails)]) (authFail (atT s t) r) ∧
      only [.sv] s (authFail (atT s t) r) := by
  refine ⟨by simp [authFail], ?_, by simp [authFail, only_iff]⟩
  exact raised_emit_of (s := s) (k := 0) he rfl rfl rfl

/-- The checks of a HELLO give the reasons 1 to 4. -/
theorem helloCheck_reason {h : Hello} {c : Option PeerCert} {r : Nat} (hc : helloCheck s h c = some r) : (r == 6) = false := by
  unfold helloCheck at hc
  dsimp only at hc
  split_ifs at hc <;> cases hc <;> rfl

/-- A change of the pair state alone. -/
theorem setPair_pl (s : State) (n : PairState) : (setPair s n).pl = { s.pl with st := n } := by
  unfold setPair
  split
  · next h => rw [← h]
  · simp

end

/-- A good signature authenticates the peer (R382, step 4). -/
def authenticated (s : State) (t : Frac) (z : Bytes) (o : Hello) (p : Hello × PeerCert) : State :=
  emit { atT s t with sv := { s.sv with
      auth := .authenticated, txSeq := 0, rxSeq := 0, session := sessionOf z o p.1 } } 0x0C0B noUnit
    (pay [(0, 1, p.1.role.toNat), (4, 8, p.2.serial.toNat)])

theorem setPair_grows (s : State) (n : PairState) : Grows s (setPair s n) := by
  unfold setPair
  split
  · exact .refl s
  · exact (emit_grows _ _ _ _).of_out rfl

theorem raised_setPair {u s : State} {n : PairState} {f : Frac} {k : Nat} (h : evtOpen u (k + 1)) (hne : u.pl.st ≠ n)
    (hf : u.fr.fn = s.fr.fn) (hn : u.now = f) : raised s f 0x0F01 noUnit
      (pay [(0, 1, pairCode u.pl.st), (1, 1, pairCode n), (2, 6, pfnNow u)]) (setPair u n) := by
  unfold setPair
  rw [if_neg hne]
  exact raised_emit (evtOpen_mono (j := 1) h (by omega)) hf hn

theorem authenticated_raised {s : State} {t : Frac} {z : Bytes} {o : Hello} {p : Hello × PeerCert} {k : Nat}
    (h : evtOpen s (k + 1)) : evtOpen (authenticated s t z o p) k ∧
      raised s t 0x0C0B noUnit (pay [(0, 1, p.1.role.toNat), (4, 8, p.2.serial.toNat)]) (authenticated s t z o p) := by
  refine ⟨(emit_open (k := k) ?_ _ _ _).2, raised_emit_of (k := k) h rfl rfl rfl⟩
  exact h

/-- Settles O42: each message ends the handshake, or takes it one step on. -/
theorem pairAuthentication : Obligations.PairAuthentication := by
  unfold Obligations.PairAuthentication
  refine ⟨fun t h c o s ha hc ho => ?_, fun t h c r s ha hc he => ?_, fun t sig z o p s ha ho hp hv hz hst he => ?_,
    fun t sig o p s ha ho hp hv he => ?_, fun t sig s ha hl => ?_, fun t sig s ha => ?_, fun t s ha he => ?_,
    fun t s ha hl => ?_, fun t s ha hr => ?_, fun t s ha => ?_⟩
  · have hc' : helloCheck (atT s t) h (some c) = none := hc
    refine ⟨push { (signDik (atT s t) (finishBytes o.1 h)).2 with
        sv := { (signDik (atT s t) (finishBytes o.1 h)).2.sv with peer := some (h, c) } }
      (.finish (signDik (atT s t) (finishBytes o.1 h)).1), ?_, ?_, ?_, fun p hp => ?_⟩
    · simp [exec, execPairHello, hc', ho, ha]
    · simp
    · simp [push]
      rfl
    · cases p <;> first | exact absurd rfl hp | simp [Part.exact, Part.same]
  · have hc' : helloCheck (atT s t) h c = some r := hc
    have hexec : exec (.pairHello t h c) s = .next (authFail (atT s t) r) := by
      simp only [exec, execPairHello, hc', atT_keeps, ha]
      rfl
    have hf := authFail_keeps (t := t) (r := r) he
    rw [helloCheck_reason hc] at hf
    exact ⟨_, hexec, hf⟩
  · have hexec : exec (.pairFinish t sig) s = .next (setPair (authenticated s t z o.1 p) .ready) := by
      simp only [exec, execPairFinish, atT_keeps, ha, ho, hp, hv, hz]
      simp [authenticated, hst, ho, hp]
    obtain ⟨hopen, hraised⟩ := authenticated_raised (t := t) (z := z) (o := o.1) (p := p) (k := 1) he
    have hpl : (authenticated s t z o.1 p).pl = s.pl := by simp [authenticated]
    have hfr : (authenticated s t z o.1 p).fr = s.fr := by simp [authenticated]
    refine ⟨_, hexec, by simp [authenticated], by rw [setPair_pl, hpl], raised_of_grows hraised (setPair_grows _ _), ?_,
      by simp [only_iff, authenticated]⟩
    have hr := raised_setPair (s := s) (n := .ready) (f := t) hopen (by rw [hpl, hst]; decide) (by rw [hfr])
      (by simp [authenticated])
    rwa [hpl, hst, show pfnNow (authenticated s t z o.1 p) = pfnNow s by simp only [pfnNow, pfnOf, hpl, hfr]] at hr
  · have hexec : exec (.pairFinish t sig) s = .next (authFail (atT s t) 5) := by
      simp only [exec, execPairFinish, atT_keeps, ha, ho, hp, hv]
      rfl
    exact ⟨_, hexec, authFail_keeps he⟩
  · exact answers_eq rfl (if_pos (by simp [ha, hl])) ⟨rfl, by simp [still_iff]⟩
  · refine answers_eq rfl ((if_neg ?_).trans (if_pos ?_)) (SetupLock.still_atT s t)
    · rcases ha with ha | ha <;> simp [ha]
    · rcases ha with ha | ha <;> simp [ha]
  · exact answers_eq rfl (if_pos (by simp [ha])) (authFail_keeps he)
  · exact answers_eq rfl (if_pos (by simp [ha, hl])) (helloSent_startAuth s t)
  · have hr' : reauthDue (atT s t) = true := hr
    exact answers_eq rfl (if_pos (by simp [ha, hr'])) (helloSent_startAuth s t)
  · have hr' : reauthDue (atT s t) = reauthDue s := rfl
    refine answers_eq rfl (if_neg ?_) (SetupLock.still_atT s t)
    rcases ha with ha | ha <;> simp [ha, hr']

end Sys2Proof.Proofs.Handshake

/-! The Strellin link and its heartbeats (R436–R446, R450). -/

namespace Sys2Proof.Proofs.Link

open Sys2Proof Sys2Proof.Machine Sys2Proof.Safety Sys2Proof.Laws
open Sys2Proof.Proofs.Frames Sys2Proof.Proofs.Reads Sys2Proof.Proofs.ByteStrings Sys2Proof.Proofs.Handshake

section
variable {s : State} {t : Frac}

/-- The lanes change, and that is reported (R436). -/
def lanesTold (s : State) (t : Frac) (l : Nat) : State :=
  emit { atT s t with pl := { s.pl with lanes := l } } 0x0F08 noUnit (pay [(0, 1, l), (2, 2, s.pl.delay)])

theorem lanesTold_keeps (l : Nat) : (lanesTold s t l).pl = { s.pl with lanes := l } ∧ (lanesTold s t l).sv = s.sv ∧
    only [.pl] s (lanesTold s t l) := by
  simp [lanesTold, only_iff]

theorem lanesTold_raised {l : Nat} (h : evtOpen s 2) :
    raised s t 0x0F08 noUnit (pay [(0, 1, l), (2, 2, s.pl.delay)]) (lanesTold s t l) :=
  raised_emit_of (s := s) (k := 1) h rfl rfl rfl

theorem exec_strellinChanged_up {l : BitVec 2} (hz : s.pl.lanes = 0) (hl : l.toNat ≠ 0) (hst : s.pl.st = .linkDown) :
    exec (.strellinChanged t l) s = .next (setPair (startAuth { lanesTold s t l.toNat with
      pl := { s.pl with lanes := l.toNat, seqIn := 0, acked := 0, answers := [] } }) .auth) := by
  simp [exec, execStrellinChanged, setLanes, hz, hl, lanesTold, hst]

theorem exec_strellinChanged_down (hz : s.pl.lanes ≠ 0) (hst : s.pl.st = .ready) :
    exec (.strellinChanged t 0) s = .next (setPair { lanesTold s t 0 with
      pl := { s.pl with lanes := 0, linkDowns := inc16 s.pl.linkDowns }
      sv := { s.sv with auth := .idle, peer := none, timedOut := false } } .linkDown) := by
  simp [exec, execStrellinChanged, setLanes, hz, Ne.symm hz, lanesTold, hst]

theorem setPair_sv (s : State) (n : PairState) : (setPair s n).sv = s.sv := by simp

/-- HELLO is sent whatever else is raised after it. -/
theorem helloOut_of {u v w : State} (h : helloOut u v) (hr : u.pl.role = s.pl.role) (hsv : u.sv = s.sv)
    (hw : w.sv = v.sv) (g : Grows v w) : helloOut s w := by
  obtain ⟨h, d, hown, hout, hchain, hn, he, hrole, hdbg, hh⟩ := h
  have hslot : ownerSlot u = ownerSlot s := by
    funext i
    simp only [ownerSlot, hsv]
  refine ⟨h, d, hw ▸ hown, g.mem hout, hchain, hn, he, hr ▸ hrole, hdbg, hh.trans ?_⟩
  simp only [enrolledHashes, hslot]

/-! ### Packets -/

theorem compareDigest_unpaired (h : s.pl.st ≠ .paired) (n : Nat) (w : Word) (b : Byte) : compareDigest s n w b = s := by
  simp [compareDigest, h]

theorem peerSplit_unpaired (h : s.pl.st ≠ .paired) (n : Nat) (b : Byte) : peerSplit s n b = s := by
  simp [peerSplit, h]

/-- A heartbeat of an unpaired driving peer (R443). -/
theorem takeHeartbeat_unpaired (h : s.pl.st ≠ .paired) (b : Heartbeat) (hb : bitN b.flags.toNat 1 = false) :
    takeHeartbeat s b = { s with pl := { s.pl with hb := some b, due := b.pfn.toNat + 1, missRun := 0 } } := by
  have h' : ∀ x : Pair, x.st = s.pl.st → ({ s with pl := x } : State).pl.st ≠ .paired := fun x hx => by
    simpa [hx] using h
  simp [takeHeartbeat, h, hb, peerSplit_unpaired, compareDigest_unpaired]

/-- What a packet without items leaves of an unpaired module before the answers in it are taken (R437, R438). -/
def heard (s : State) (t : Frac) (p : Packet) : State :=
  { atT s t with
    sv := { s.sv with rxSeq := p.seq.toNat + 1 }
    pl := { s.pl with
      peerBits := p.peerBits.toNat, acked := (heartbeatAt p.hb).ack.toNat
      told := s.pl.told.filter (fun i => (heartbeatAt p.hb).ack.toNat < i.seq.toNat), answers := []
      ofs := if s.pl.role = 2 then p.ofs else s.pl.ofs
      hb := some (heartbeatAt p.hb), due := (heartbeatAt p.hb).pfn.toNat + 1, missRun := 0 } }

/-- A missed heartbeat is counted and reported (R443). -/
def missedTold (s : State) (t : Frac) (n : Nat) : State :=
  emit { atT s t with pl := { s.pl with missed := inc16 s.pl.missed, missRun := s.pl.missRun + 1, due := n + 1 } }
    0x0F03 noUnit (pay [(0, 6, n), (8, 2, inc16 s.pl.missed)])

/-- The input block of a packet serves the strobe after its frame (R445). -/
def inputsTaken (s : State) (p : Packet) : State :=
  if (heartbeatAt p.hb).pfn.toNat = pfnNow s then { s with pl := { s.pl with inp := p.inputs } } else s

theorem exec_pairPacket {p : Packet} (ha : s.sv.auth = .authenticated) (htag : p.tagOk = true) (hit : p.items = [])
    (hst : s.pl.st = .sync) (hdue : s.pl.due ≤ (heartbeatAt p.hb).pfn.toNat)
    (hbit : bitN (heartbeatAt p.hb).flags.toNat 1 = false) :
    exec (.pairPacket t p) s = .next (inputsTaken (each p.answers (heard s t p) takeAnswer) p) := by
  have hd : ¬ (heartbeatAt p.hb).pfn.toNat < s.pl.due := by omega
  by_cases hrole : s.pl.role = 2
  · simp [exec, execPairPacket, ha, htag, hit, hst, hd, hrole, takeAck, dropAnswers, heard, inputsTaken, each,
      takeHeartbeat_unpaired, hbit]
  · simp [exec, execPairPacket, ha, htag, hit, hst, hd, hrole, takeAck, dropAnswers, heard, inputsTaken, each,
      takeHeartbeat_unpaired, hbit]

end

/-- Settles O51: what is unpaired compares no digest, so that a heartbeat sets what is due next. -/
theorem linkAndHeartbeats : Obligations.LinkAndHeartbeats := by
  unfold Obligations.LinkAndHeartbeats
  refine ⟨fun t l s hz hl hst he => ?_, fun t s hz hst he => ?_, fun t d s hz => ?_, fun t p s ha htag => ?_,
    fun t p s ha => ?_, fun t p s ha htag hans hit hst hdue hbit => ?_, heartbeatAt_heartbeatBytes,
    fun t p m i s ha htag hst hdue hbit hm hans hit hmine hmeet hq => ?_, fun t n s hp hd hm he => ?_,
    fun t n s hp hd hm hl he => ?_⟩
  · obtain ⟨hsv, hhello, h, hout⟩ := startAuth_sends { lanesTold s t l.toNat with
      pl := { s.pl with lanes := l.toNat, seqIn := 0, acked := 0, answers := [] } }
    refine ⟨_, exec_strellinChanged_up hz hl hst, ?_, ?_, ?_, ?_, ?_⟩
    · simp [setPair_pl]
    · rw [setPair_sv]
      exact hsv.trans (by simp only [(lanesTold_keeps l.toNat).2.1])
    · exact helloOut_of hhello rfl (by simp [lanesTold]) (by simp) (setPair_grows _ _)
    · refine raised_of_grows (lanesTold_raised he) (Grows.trans ?_ (setPair_grows _ _))
      exact ⟨_, hout⟩
    · simp [only_iff, lanesTold]
  · refine ⟨_, exec_strellinChanged_down hz hst, by simp [setPair_pl], by simp, ?_, by simp [only_iff, lanesTold]⟩
    exact raised_of_grows (lanesTold_raised he) ((setPair_grows _ _).of_out rfl)
  · exact answers_eq rfl (if_neg hz) ⟨rfl, by simp [still_iff]⟩
  · refine answers_eq rfl ((if_neg ?_).trans (if_pos ?_)) ⟨rfl, by simp [still_iff]⟩
    · simp [ha]
    · simp [htag]
  · exact answers_eq rfl (if_pos (by simp [ha])) (SetupLock.still_atT s t)
  · have hexec := exec_pairPacket (t := t) ha htag hit hst hdue hbit
    rw [hans, each, List.foldl_nil] at hexec
    by_cases hp : (heartbeatAt p.hb).pfn.toNat = pfnNow (heard s t p)
    · exact answers_eq hexec (if_pos hp)
        ⟨rfl, rfl, rfl, (if_pos hp).symm, rfl, hst, rfl, rfl, rfl, by simp [still_iff, heard]⟩
    · exact answers_eq hexec (if_neg hp)
        ⟨rfl, rfl, rfl, (if_neg hp).symm, rfl, hst, rfl, rfl, rfl, by simp [still_iff, heard]⟩
  · have hexec := exec_pairPacket (t := t) ha htag hit hst hdue hbit
    have hmod : (BitVec.ofNat 32 m.seq).toNat = m.seq := by
      rw [BitVec.toNat_ofNat]
      exact Nat.mod_eq_of_lt hm
    have htake : takeAnswer (heard s t p) (BitVec.ofNat 32 m.seq, 0, i) =
        stageAt { heard s t p with pl := { (heard s t p).pl with mine := [] } } m.owner
          (fnOf (heard s t p) (i.toNat + 2)) m.item := by
      have hmine' : (heard s t p).pl.mine = [m] := hmine
      have hbind : ∀ u o b, bindItem u o b m.item = stageAt u o b m.item := fun u o b => by
        unfold bindItem
        split
        · next q h => exact absurd h (hq q)
        · rfl
      simp [takeAnswer, hmine', hmeet, hmod, hbind]
    rw [hans, each, List.foldl_cons, List.foldl_nil, htake] at hexec
    by_cases hp : (heartbeatAt p.hb).pfn.toNat = pfnNow (heard s t p)
    · exact answers_eq hexec (if_pos hp) ⟨rfl, rfl, by simp [still_iff, heard, stageAt]⟩
    · exact answers_eq hexec (if_neg hp) ⟨rfl, rfl, by simp [still_iff, heard, stageAt]⟩
  · have hnot : ¬ n.toNat < s.pl.due := by omega
    have hexec : exec (.heartbeatMissed t n) s = .next (emit { atT s t with
        pl := { s.pl with missed := inc16 s.pl.missed, missRun := 1, due := n.toNat + 1 } } 0x0F03 noUnit
        (pay [(0, 6, n.toNat), (8, 2, inc16 s.pl.missed)])) := by
      have hp' : pairRuns (atT s t) = true := hp
      simp [exec, execHeartbeatMissed, hp', hnot, hm]
    refine answers_eq hexec rfl ⟨by simp, ?_, by simp [only_iff]⟩
    exact raised_emit_of (s := s) (k := 0) he rfl rfl rfl
  · have hnot : ¬ n.toNat < s.pl.due := by omega
    have hexec : exec (.heartbeatMissed t n) s = .next (losePeer (missedTold s t n.toNat) 1) := by
      have hp'' : pairRuns (atT s t) = true := hp
      have hm2 : 2 ≤ s.pl.missRun + 1 := by omega
      simp [exec, execHeartbeatMissed, hp'', hnot, hm2, missedTold]
    have hlose : losePeer (missedTold s t n.toNat) 1 = { missedTold s t n.toNat with
        pl := { (missedTold s t n.toNat).pl with loss := some (1, if s.pl.role = 1 then 1 else 0) } } := by
      have hpl : (missedTold s t n.toNat).pl = { s.pl with
        missed := inc16 s.pl.missed, missRun := s.pl.missRun + 1, due := n.toNat + 1 } := by simp [missedTold]
      have hr : pairRuns (missedTold s t n.toNat) = true := by
        simpa [pairRuns, hpl] using hp
      simp only [losePeer, hr, hpl, hl, Option.isNone_none, Bool.and_self, if_true]
    refine answers_eq hexec hlose ⟨rfl, ?_, ?_, ?_⟩
    · simp [missedTold]
    · have h : raised s t 0x0F03 noUnit (pay [(0, 6, n.toNat), (8, 2, inc16 s.pl.missed)]) (missedTold s t n.toNat) :=
        raised_emit_of (s := s) (k := 0) he rfl rfl rfl
      exact h
    · simp [missedTold, only_iff]

end Sys2Proof.Proofs.Link

/-! PL_CONTROL, and what it puts in force at its boundary (R440). -/

namespace Sys2Proof.Proofs.PairControl

open Sys2Proof Sys2Proof.Machine Sys2Proof.Safety Sys2Proof.Laws
open Sys2Proof.Proofs.Frames Sys2Proof.Proofs.Reads Sys2Proof.Proofs.Checks Sys2Proof.Proofs.Handshake

section
variable {s : State} {t : Frac} {c : Cmd}

/-- An accepted operation waits for the answer of the peer. -/
theorem plControl_held {op : Nat} {ok : State → Bool} (hr : cmdReady s c 0x0090 [0x38])
    (hf : fieldsOk c [(0, 0xF)] = true) (hop : pwN c 0 = op) (hlt : op < 16)
    (hok : ok (openSlot (atT s t) 0x0090 c).1 = true) (ha : s.sv.auth = .authenticated) :
    Answers (plControl t c s op ok) fun s' => s'.pl = (holdMirror s c.src (.pair op) none).pl ∧
      completed c 0x0090 stOk (bindTo s) s s' ∧ onlyCmd [.pl] s s' := by
  have hpw : (pwN c 0 % 16 == op) = true := by
    rw [hop, Nat.mod_eq_of_lt hlt, beq_self_eq_true]
  obtain ⟨hc, hh, ht⟩ := finish_ready hr (opened_of_eq (v := holdMirror (openSlot (atT s t) 0x0090 c).1 c.src (.pair op) none)
    (opened_taken (t := t) hr.1) rfl rfl rfl) stOk (bindTo s)
  refine answers_eq (runCmd_ready hr.1 hf hpw) ?_ ⟨?_, hc, ?_⟩
  · simp only [hok, bindTo_openSlot]
    simp [ha]
  · simp [holdMirror]
  · simp only [onlyCmd_iff, hh, ht]
    simp [holdMirror]

/-- An operation that this module's pair state does not accept is refused. -/
theorem plControl_refused {op : Nat} {ok : State → Bool} (hr : cmdReady s c 0x0090 [0x38])
    (hf : fieldsOk c [(0, 0xF)] = true) (hop : pwN c 0 = op) (hlt : op < 16)
    (hok : ok (openSlot (atT s t) 0x0090 c).1 = false) :
    Answers (plControl t c s op ok) fun s' => completed c 0x0090 stPairState noIndex s s' ∧ onlyCmd [] s s' := by
  have hpw : (pwN c 0 % 16 == op) = true := by
    rw [hop, Nat.mod_eq_of_lt hlt, beq_self_eq_true]
  refine answers_eq (runCmd_ready hr.1 hf hpw) ?_ (answer_ready (t := t) hr stPairState noIndex)
  simp [hok]

theorem plAccepts_openSlot (op : Nat) (o : Nat) : plAccepts (openSlot (atT s t) o c).1 op = plAccepts s op := by
  simp [plAccepts]

theorem peerReady_openSlot (o : Nat) : peerReady (openSlot (atT s t) o c).1 = peerReady s := by
  simp [peerReady, peerLive, pfnNow, pfnOf]

theorem solo_setSolo (v : Bool) (k : Nat) : (spCh (setSolo s k v) k).solo = v := by
  unfold setSolo
  dsimp only
  split
  · next h => exact beq_iff_eq.mp h
  · simp

theorem spCh_setSolo_ne {k j : Nat} (v : Bool) (h : j ≠ k) : spCh (setSolo s k v) j = spCh s j := by
  unfold setSolo
  dsimp only
  split
  · rfl
  · simp [spCh_setSpCh_ne _ _ h]

/-- RESUME releases the channels that both modules hold live (R454). -/
theorem applyPair_resume {k : Nat} (hst : s.pl.st = .paired ∨ s.pl.st = .peerLost ∨ s.pl.st = .ready)
    (hk : k ∈ sharedCh s) (hhb : s.pl.hb.any (fun h => bitN h.live.toNat k) = true) (hl : bitN (liveMask s) k = true) :
    (spCh (applyPair s 4) k).solo = false := by
  have hcond : (s.pl.st == .paired || s.pl.st == .peerLost || s.pl.st == .ready) = true := by
    rcases hst with h | h | h <;> simp [h]
  have hpeer : bitN ((s.pl.hb.map (fun h => h.live.toNat)).getD 0) k = true := by
    cases hb : s.pl.hb with
    | none => simp [hb] at hhb
    | some h => simpa [hb] using hhb
  simp only [applyPair, hcond, if_true]
  refine ChannelStarts.each_at (c := k) (f := fun s c => setSolo s c false) (P := fun _ => True) (Q := fun u => (spCh u k).solo = false) (fun _ _ _ h => h)
    (fun u _ => solo_setSolo false k) (fun u a ha h => ?_) _ ?_ ?_ _ trivial
  · rw [spCh_setSolo_ne false (Ne.symm ha)]
    exact h
  · exact ((by decide : allCh.Nodup).filter _).filter _
  · exact List.mem_filter.mpr ⟨hk, by simp [hpeer, hl]⟩

end

/-- Settles O50: an accepted operation is held for the peer's answer, and the boundary moves the pair state. -/
theorem pairControl : Obligations.PairControl := by
  unfold Obligations.PairControl
  refine ⟨fun t c s hr hf hop hst hp ha => ?_, fun t c s hr hf hop hst ha => ?_, fun t c s hr hf hop hst ha => ?_,
    fun t c s hr hf hop hst ha => ?_, fun t c s hr hf hop hst => ?_, fun s hst => ⟨?_, ?_, ?_, fun h1 h2 => ?_⟩,
    fun s hst => ?_, fun k s hst hk hhb hl => applyPair_resume hst hk hhb hl, fun s h1 h2 h3 => ?_⟩
  · refine plControl_held (ok := fun s => plAccepts s 1 && peerReady s) hr hf hop (by decide) ?_ ha
    rw [plAccepts_openSlot, peerReady_openSlot, hp]
    simp [plAccepts, hst]
  · refine plControl_held (ok := fun s => plAccepts s 2) hr hf hop (by decide) ?_ ha
    rw [plAccepts_openSlot]
    rcases hst with h | h | h <;> simp [plAccepts, h]
  · refine plControl_held (ok := fun s => plAccepts s 3) hr hf hop (by decide) ?_ ha
    rw [plAccepts_openSlot]
    simp [plAccepts, hst]
  · refine plControl_held (ok := fun s => plAccepts s 4 && (s.pl.st == .paired || peerReady s)) hr hf hop (by decide) ?_ ha
    rw [plAccepts_openSlot, peerReady_openSlot]
    rcases hst with h | ⟨h, hp⟩
    · simp [plAccepts, h]
    · simp [plAccepts, h, hp]
  · refine plControl_refused (ok := fun s => plAccepts s 3) hr hf hop (by decide) ?_
    rw [plAccepts_openSlot]
    simp [plAccepts, hst]
  · simp [applyPair, hst, setPair_pl]
  · simp [applyPair, hst, setPair_pl]
  · simp [applyPair, hst]
  · simp [applyPair, hst, setPair_pl, h1, h2]
  · simp [applyPair, hst, setPair_pl]
  · simp [applyPair, pairRuns, h1, h2, h3]

end Sys2Proof.Proofs.PairControl

/-! The wear of the Pantry's lines (R385–R388): a line that is little worn is written without a report. -/

namespace Sys2Proof.Proofs.Wear

open Sys2Proof Sys2Proof.Machine Sys2Proof.Safety Sys2Proof.Laws
open Sys2Proof.Proofs.Tables

section
variable {s : State} {n : Nat}

/-- No line has been written `n` times. -/
def WearUnder (s : State) (n : Nat) : Prop := 0 < n ∧ ∀ e ∈ s.sv.wear, e.2 < n

theorem WearUnder.mono {m : Nat} (h : WearUnder s n) (hm : n ≤ m) : WearUnder s m :=
  ⟨h.1.trans_le hm, fun e he => (h.2 e he).trans_le hm⟩

theorem lineWear_lt (h : WearUnder s n) (line : Nat) : lineWear s line < n := by
  unfold lineWear
  by_cases hz : tget 0 s.sv.wear (servingLine s line) = 0
  · rw [hz]
    exact h.1
  · exact h.2 _ (mem_of_tget_ne hz)

theorem mem_tins {α : Type} {t : Tbl α} {k : Nat} {v : α} {e : Nat × α} (h : e ∈ tins t k v) : e ∈ t ∨ e = (k, v) := by
  induction t with
  | nil => simpa [tins] using h
  | cons x t ih =>
    simp only [tins] at h
    split at h
    · rcases List.mem_cons.mp h with h | h
      · exact .inr h
      · exact .inl h
    · rcases List.mem_cons.mp h with h | h
      · exact .inl (h ▸ List.mem_cons_self)
      · exact (ih h).imp (List.mem_cons_of_mem _) id

theorem mem_tput {α : Type} [DecidableEq α] {d : α} {t : Tbl α} {k : Nat} {v : α} {e : Nat × α} (h : e ∈ tput d t k v) :
    e ∈ t ∨ e = (k, v) := by
  unfold tput at h
  split at h
  · exact .inl (List.mem_of_mem_filter h)
  · exact (mem_tins h).imp List.mem_of_mem_filter id

theorem wearUnder_countWrite (h : WearUnder s n) (line : Nat) : WearUnder (countWrite s line) (n + 1) := by
  refine ⟨Nat.succ_pos n, fun e he => ?_⟩
  rcases mem_tput he with he | rfl
  · exact (h.2 e he).trans (Nat.lt_succ_self n)
  · have := lineWear_lt h line
    simp only [inc32, satTo]
    split_ifs <;> omega

theorem wearMax_lt (h : WearUnder s n) : wearMax s < n := by
  have go : ∀ (l : List (Nat × Nat)) (a : Nat), a < n → (∀ e ∈ l, e.2 < n) → l.foldl (fun a e => Nat.max a e.2) a < n := by
    intro l
    induction l with
    | nil => exact fun a ha _ => ha
    | cons e l ih =>
      intro a ha hl
      exact ih _ (Nat.max_lt.mpr ⟨ha, hl e List.mem_cons_self⟩) fun x hx => hl x (List.mem_cons_of_mem _ hx)
  exact go _ 0 h.1 h.2

theorem noteWear_quiet (h : WearUnder s 50000000) : noteWear s = s := by
  have hm := wearMax_lt h
  have h1 : ¬ 50000000 ≤ wearMax s := by omega
  have h2 : ¬ 75000000 ≤ wearMax s := by omega
  have h3 : ¬ 90000000 ≤ wearMax s := by omega
  simp [noteWear, each, h1, h2, h3]

theorem writeLine_quiet (h : WearUnder s n) (hn : n < 50000000) (line : Nat) : writeLine s line = countWrite s line := by
  have hc := (wearUnder_countWrite h line).mono hn
  have hw := lineWear_lt hc line
  have hne : ¬ lineWear (countWrite s line) line = 90000000 := by omega
  unfold writeLine
  dsimp only
  rw [if_neg hne]
  exact noteWear_quiet hc

/-- Little-worn lines are written, and only the counts of their wear move. -/
theorem writeLines_quiet (l : List Nat) (h : WearUnder s n) (hn : n + l.length ≤ 50000000) :
    ∃ w, each l s writeLine = { s with sv := { s.sv with wear := w } } ∧ WearUnder (each l s writeLine) (n + l.length) := by
  induction l generalizing s n with
  | nil => exact ⟨s.sv.wear, rfl, h⟩
  | cons x l ih =>
    simp only [List.length_cons] at hn
    have hx : each (x :: l) s writeLine = each l (countWrite s x) writeLine := by
      rw [each, List.foldl_cons, writeLine_quiet h (by omega)]
      rfl
    obtain ⟨w, hw, hu⟩ := ih (wearUnder_countWrite h x) (by omega)
    refine ⟨w, hx.trans (hw.trans rfl), ?_⟩
    rw [hx, List.length_cons, show n + (l.length + 1) = n + 1 + l.length by omega]
    exact hu

/-- A commit of little-worn lines (R386). -/
theorem commitLines_quiet (l : List Nat) (h : WearUnder s n) (hn : n + l.length + 2 ≤ 50000000) :
    ∃ w, commitLines s l = { s with sv := { s.sv with wear := w, journalAt := (s.sv.journalAt + 2) % 1024 } } := by
  obtain ⟨w, hw, hu⟩ := writeLines_quiet l h (by omega)
  have hlen : (recordLines s).length = 2 := rfl
  obtain ⟨w', hw', -⟩ := writeLines_quiet (recordLines s) hu (by omega)
  refine ⟨w', ?_⟩
  unfold commitLines
  dsimp only
  rw [hw', hw]

/-- Corrections of little-worn lines are counted without a report (R385). -/
theorem pantryReads_quiet (l : List Correction) (h : WearUnder s n) (hn : n + l.length ≤ 50000000) :
    ∃ w k, pantryReads s l = { s with sv := { s.sv with wear := w, eccCorrected := k } } ∧
      WearUnder (pantryReads s l) (n + l.length) := by
  induction l generalizing s n with
  | nil => exact ⟨s.sv.wear, s.sv.eccCorrected, rfl, h⟩
  | cons x l ih =>
    simp only [List.length_cons] at hn
    have hstep : ∃ w, (if 2 ≤ x.bits.val then
          writeLine { s with sv := { s.sv with eccCorrected := inc16 s.sv.eccCorrected } } x.line.toNat
        else { s with sv := { s.sv with eccCorrected := inc16 s.sv.eccCorrected } }) =
        { s with sv := { s.sv with wear := w, eccCorrected := inc16 s.sv.eccCorrected } } ∧
        WearUnder { s with sv := { s.sv with wear := w, eccCorrected := inc16 s.sv.eccCorrected } } (n + 1) := by
      have h' : WearUnder { s with sv := { s.sv with eccCorrected := inc16 s.sv.eccCorrected } } n := h
      split
      · rw [writeLine_quiet h' (by omega)]
        exact ⟨_, rfl, wearUnder_countWrite h' _⟩
      · exact ⟨s.sv.wear, rfl, h.mono (Nat.le_succ n)⟩
    obtain ⟨w, hw, hu⟩ := hstep
    have hx : pantryReads s (x :: l) =
        pantryReads { s with sv := { s.sv with wear := w, eccCorrected := inc16 s.sv.eccCorrected } } l := by
      simp only [pantryReads, each, List.foldl_cons]
      rw [← hw]
    obtain ⟨w', k, hw', hu'⟩ := ih hu (by omega)
    refine ⟨w', k, hx.trans hw', ?_⟩
    rw [hx, List.length_cons, show n + (l.length + 1) = n + 1 + l.length by omega]
    exact hu'

/-! ### Placement (R387) -/

theorem mem_freeAt {used : List Nat} {w : Nat} : ∀ {m l k x : Nat}, x ∈ freeAt s used w m l k →
    lineWear s x = w ∧ l ≤ x ∧ x < l + m := by
  intro m
  induction m with
  | zero => intro l k x h; simp [freeAt] at h
  | succ m ih =>
    intro l k x h
    cases k with
    | zero => simp [freeAt] at h
    | succ k =>
      simp only [freeAt] at h
      split at h
      · next hc =>
        rcases List.mem_cons.mp h with rfl | h
        · exact ⟨by simp_all, le_rfl, by omega⟩
        · obtain ⟨h1, h2, h3⟩ := ih h
          exact ⟨h1, by omega, by omega⟩
      · obtain ⟨h1, h2, h3⟩ := ih h
        exact ⟨h1, by omega, by omega⟩

theorem nodup_freeAt {used : List Nat} {w : Nat} : ∀ m l k, (freeAt s used w m l k).Nodup := by
  intro m
  induction m with
  | zero => intro l k; simp [freeAt]
  | succ m ih =>
    intro l k
    cases k with
    | zero => simp [freeAt]
    | succ k =>
      simp only [freeAt]
      split
      · refine List.nodup_cons.mpr ⟨fun h => ?_, ih _ _⟩
        obtain ⟨-, h2, -⟩ := mem_freeAt h
        omega
      · exact ih _ _

theorem mem_placeBy {used : List Nat} {region : Nat × Nat} : ∀ {ws : List Nat} {k x : Nat},
    x ∈ placeBy s region used ws k → lineWear s x ∈ ws ∧ region.1 ≤ x ∧ x < region.1 + region.2 := by
  intro ws
  induction ws with
  | nil => intro k x h; simp [placeBy] at h
  | cons w ws ih =>
    intro k x h
    simp only [placeBy] at h
    have hfree : x ∈ freeAt s used w region.2 region.1 k → lineWear s x ∈ w :: ws ∧ region.1 ≤ x ∧ x < region.1 + region.2 :=
      fun h => by
        obtain ⟨h1, h2, h3⟩ := mem_freeAt h
        exact ⟨h1 ▸ List.mem_cons_self, h2, h3⟩
    split at h
    · exact hfree h
    · rcases List.mem_append.mp h with h | h
      · exact hfree h
      · obtain ⟨h1, h2, h3⟩ := ih h
        exact ⟨List.mem_cons_of_mem _ h1, h2, h3⟩

theorem nodup_placeBy {used : List Nat} {region : Nat × Nat} : ∀ {ws : List Nat} {k : Nat}, ws.Nodup →
    (placeBy s region used ws k).Nodup := by
  intro ws
  induction ws with
  | nil => intro k _; simp [placeBy]
  | cons w ws ih =>
    intro k h
    obtain ⟨hw, hws⟩ := List.nodup_cons.mp h
    simp only [placeBy]
    split
    · exact nodup_freeAt _ _ _
    · refine List.nodup_append'.mpr ⟨nodup_freeAt _ _ _, ih hws, fun x h1 h2 => hw ?_⟩
      rw [← (mem_freeAt h1).1]
      exact (mem_placeBy h2).1

/-- Rising numbers. -/
theorem pairwise_insertUp {x : Nat} {l : List Nat} (h : l.Pairwise (· < ·)) : (insertUp x l).Pairwise (· < ·) := by
  have hmem : ∀ {l : List Nat} {y : Nat}, y ∈ insertUp x l → y = x ∨ y ∈ l := by
    intro l
    induction l with
    | nil => intro y h; simpa [insertUp] using h
    | cons z l ih =>
      intro y h
      simp only [insertUp] at h
      split_ifs at h
      · exact List.mem_cons.mp h
      · exact .inr h
      · rcases List.mem_cons.mp h with rfl | h
        · exact .inr List.mem_cons_self
        · exact (ih h).imp id (List.mem_cons_of_mem _)
  induction l with
  | nil => simp [insertUp]
  | cons z l ih =>
    obtain ⟨hz, hl⟩ := List.pairwise_cons.mp h
    simp only [insertUp]
    split_ifs with h1 h2
    · refine List.pairwise_cons.mpr ⟨fun y hy => ?_, h⟩
      rcases List.mem_cons.mp hy with rfl | hy
      · exact h1
      · exact h1.trans (hz y hy)
    · exact h
    · refine List.pairwise_cons.mpr ⟨fun y hy => ?_, ih hl⟩
      rcases hmem hy with rfl | hy
      · omega
      · exact hz y hy

/-- No more lines are placed than a region has. -/
theorem length_place_le (region : Nat × Nat) (used : List Nat) (k : Nat) : (place s region used k).length ≤ region.2 := by
  have hlev : ((s.sv.wear.map Prod.snd).foldr insertUp [0]).Pairwise (· < ·) := by
    induction s.sv.wear.map Prod.snd with
    | nil => simp
    | cons x l ih => exact pairwise_insertUp ih
  have hnd : (place s region used k).Nodup := nodup_placeBy (hlev.imp fun h => Nat.ne_of_lt h)
  have hsub : place s region used k ⊆ List.range' region.1 region.2 := fun x hx => by
    obtain ⟨-, h2, h3⟩ := mem_placeBy hx
    exact List.mem_range'_1.mpr ⟨h2, h3⟩
  simpa using (hnd.subperm hsub).length_le

theorem wearUnder_littleWorn {l : List Correction} (h : littleWorn s l) : WearUnder s 49000000 := ⟨by decide, h.2⟩

end

end Sys2Proof.Proofs.Wear

/-! Option loading and bring-up (R424–R434). -/

namespace Sys2Proof.Proofs.BringUp

open Sys2Proof Sys2Proof.Machine Sys2Proof.Safety Sys2Proof.Laws
open Sys2Proof.Proofs.Frames Sys2Proof.Proofs.Reads Sys2Proof.Proofs.Wear

section
variable {s : State} {t : Frac}

/-- A resistance well inside a window gives its code (R425). -/
theorem cfgCode_window {o : Options} {k : Nat} (hk : k ≤ 15) (h1 : 10000 * k + 1500 ≤ o.ohms)
    (h2 : o.ohms + 1500 ≤ 10000 * (k + 1)) : cfgCode o = k ∧ cfgRange o = 0 := by
  have hrange : cfgRange o = 0 := by
    unfold cfgRange
    rw [if_neg (by omega), if_neg (by omega)]
  have hq : o.ohms / 10000 = k := by omega
  have hr : ¬ o.ohms % 10000 < 1500 ∧ ¬ 8500 < o.ohms % 10000 := by omega
  refine ⟨?_, hrange⟩
  simp [cfgCode, hrange, hq, hr.1, hr.2]
  omega

theorem cfgRange_ok {o : Options} (h1 : 1500 ≤ o.ohms) (h2 : o.ohms ≤ 170000) : cfgRange o = 0 := by
  unfold cfgRange
  rw [if_neg (by omega), if_neg (by omega)]

theorem cfgRange_low {o : Options} (h : o.ohms < 1500) : cfgRange o = 1 := if_pos h

theorem cfgCode_fault {o : Options} (h : cfgRange o ≠ 0) : cfgCode o = 0 := by
  simp [cfgCode, h]

@[simp] theorem monitorsClear_atT : monitorsClear (atT s t) = monitorsClear s := rfl

/-! ### Steps of the Larder (R428, step 3) -/

theorem selfTest_good {x : LarderIn} (hx : x.failing = none) (hf : s.ct.fuseOk = true) :
    selfTest s x = { s with sv := { s.sv with larderOk := true } } := by
  simp [selfTest, hx, hf]

theorem verifyFirmware_good {x : LarderIn} (h : slotGood s x s.sv.slotB = true) : verifyFirmware s x =
    { s with ct := { s.ct with noFw := false },
             sv := { s.sv with fwRun := if s.sv.fwRun = .none then .confirmed else s.sv.fwRun, trialAt := nowTicks s } } := by
  simp [verifyFirmware, h]

/-- The Larder comes up with a slot that verifies. -/
def larderUp (u : State) : State :=
  { u with sv := verified u, ct := { u.ct with noFw := false } }

theorem verify_selfTest_good {u : State} {x : LarderIn} (hx : x.failing = none) (hf : u.ct.fuseOk = true)
    (hs : slotGood u x u.sv.slotB = true) : verifyFirmware (selfTest u x) x = larderUp u := by
  have hs' : slotGood { u with sv := { u.sv with larderOk := true } } x u.sv.slotB = true := hs
  rw [selfTest_good hx hf, verifyFirmware_good hs']
  rfl

/-- The active slot, and how bring-up came to it. -/
def slotOf (u : State) : Bool × Nat := (u.sv.slotB, u.sv.fell)

theorem slotOf_each {α : Type} {f : State → α → State} (h : ∀ u a, slotOf (f u a) = slotOf u) (l : List α) (u : State) :
    slotOf (each l u f) = slotOf u := by
  induction l generalizing u with
  | nil => rfl
  | cons x l ih => exact (ih _).trans (h u x)

theorem slotOf_noteWear (u : State) : slotOf (noteWear u) = slotOf u := by
  refine slotOf_each (fun u k => ?_) _ u
  dsimp only
  split <;> simp [slotOf, pantryWear]

theorem slotOf_retireLine (u : State) (l : Nat) (c : Bool) : slotOf (retireLine u l c) = slotOf u := by
  unfold retireLine
  dsimp only
  split_ifs <;> simp [slotOf, pantryWear, countWrite]

theorem slotOf_writeLine (u : State) (l : Nat) : slotOf (writeLine u l) = slotOf u := by
  unfold writeLine
  dsimp only
  rw [slotOf_noteWear]
  split
  · rw [slotOf_retireLine]
    rfl
  · rfl

theorem slotOf_loseEnv (u : State) (l : Nat) : slotOf (loseEnv u l) = slotOf u := by
  unfold loseEnv
  split
  · rfl
  · dsimp only
    split <;> simp [slotOf]

theorem slotOf_loseLine (u : State) (x : PantryLoss) : slotOf (loseLine u x) = slotOf u := by
  unfold loseLine
  dsimp only
  split
  · split <;> rfl
  · exact slotOf_each (fun u e => by simp [slotOf, loseCal]) _ _
  · exact slotOf_loseEnv _ _
  · rfl
  · rfl
  · rfl
  · split <;> rfl

theorem slotOf_lineLost (u : State) (x : PantryLoss) : slotOf (lineLost u x) = slotOf u := by
  unfold lineLost
  dsimp only
  rw [slotOf_loseLine]
  refine Eq.trans ?_ (slotOf_retireLine { u with sv := { u.sv with eccUncorrected := inc16 u.sv.eccUncorrected } }
    x.line.toNat false)
  simp [slotOf]

theorem slotOf_larderRead (s : State) (t : Frac) (x : LarderIn) : slotOf (larderRead s t x) = slotOf s := by
  unfold larderRead pantryReads
  rw [slotOf_each fun u c => ?_, slotOf_each slotOf_lineLost]
  · rfl
  · dsimp only
    split
    · exact slotOf_writeLine { u with sv := { u.sv with eccCorrected := inc16 u.sv.eccCorrected } } _
    · rfl

theorem larderRead_ct (s : State) (t : Frac) (x : LarderIn) : (larderRead s t x).ct = s.ct ∧ (larderRead s t x).fr = s.fr ∧
    (larderRead s t x).mx = s.mx ∧ (larderRead s t x).pd = s.pd ∧ (larderRead s t x).now = t := by
  simp [larderRead]

/-! ### What is driven out stays -/

theorem applyEnvCh_grows (s : State) (p : Nat × Env) : Grows s (applyEnvCh s p) := by
  unfold applyEnvCh
  dsimp only
  refine (emit_grows _ _ _ _).of_out ?_
  simp

theorem applyFailSafe_grows (s : State) (c : Nat) : Grows s (applyFailSafe s c) := by
  unfold applyFailSafe
  exact (applyEnvCh_grows _ _).of_out (by simp)

theorem restoreEnvelope_grows (s : State) (x : StoredEnv) : Grows s (restoreEnvelope s x).1 := by
  unfold restoreEnvelope
  split
  · exact each_grows applyFailSafe_grows _ _
  · split
    · exact each_grows applyEnvCh_grows _ _
    · exact each_grows applyFailSafe_grows _ _

theorem restoreAll_grows (l : List StoredEnv) (s : State) : Grows s (restoreAll l s).1 := by
  induction l generalizing s with
  | nil => exact .refl s
  | cons x l ih => exact (restoreEnvelope_grows s x).trans (ih _)

theorem restoreEvent_grows (s : State) (l : List (StoredEnv × Nat)) (why : Nat) : Grows s (restoreEvent s l why) := by
  unfold restoreEvent
  dsimp only
  split
  · exact .refl s
  · split <;> exact emit_grows _ _ _ _

theorem restoreEnvelopes_grows (s : State) : Grows s (restoreEnvelopes s) := by
  unfold restoreEnvelopes
  exact (((restoreAll_grows _ _).trans (restoreEvent_grows _ _ _)).trans (restoreEvent_grows _ _ _)).trans
    (restoreEvent_grows _ _ _)

theorem heldOrPut_grows (s : State) (code : Nat) (p : BitVec 128) : Grows s (heldOrPut s code p) := by
  unfold heldOrPut
  split
  · exact emit_grows _ _ _ _
  · exact .of_eq (by simp)

theorem enterRecovery_grows (s : State) (cause : Nat) : Grows s (enterRecovery s cause) :=
  (heldOrPut_grows _ _ _).of_out rfl

theorem verifyFirmware_grows (s : State) (x : LarderIn) : Grows s (verifyFirmware s x) := by
  unfold verifyFirmware
  split
  · exact .of_eq rfl
  · split
    · exact .of_eq (by simp)
    · exact (emit_grows _ _ _ _).of_out rfl

theorem verifyFirmware_keeps' (u : State) (x : LarderIn) : (verifyFirmware u x).ct.ctlReset = u.ct.ctlReset ∧
    (verifyFirmware u x).sv.larderOk = u.sv.larderOk := by
  unfold verifyFirmware
  split
  · exact ⟨rfl, rfl⟩
  · split
    · refine ⟨by simp, ?_⟩
      unfold fwDemote setFwSlot
      dsimp only
      split <;> rfl
    · exact ⟨by simp, by simp⟩

/-- The envelopes and the calibration come back (R428, step 3). -/
def restored (u : State) (fell : Bool) : State :=
  restoreEnvelopes (restoreCal (if fell then { u with sv := { u.sv with fell := 3 } } else u))

/-- PS_READY, and the step after it. -/
def larderEnd (u : State) : State :=
  if u.ct.code / 4 = 3 then enterRecovery { u with ps := { u.ps with ready := true } } 1
  else if u.ct.noFw then enterRecovery { u with ps := { u.ps with ready := true } } 2
  else { u with ps := { u.ps with ready := true }, ct := { u.ct with phase := .clk } }

theorem restored_grows (u : State) (fell : Bool) : Grows u (restored u fell) := by
  unfold restored
  refine (restoreEnvelopes_grows _).of_out ?_
  cases fell <;> simp

theorem larderEnd_grows (u : State) : Grows u (larderEnd u) := by
  unfold larderEnd
  split_ifs
  · exact (enterRecovery_grows _ _).of_out rfl
  · exact (enterRecovery_grows _ _).of_out rfl
  · exact .of_eq rfl

@[simp] theorem restored_keeps (u : State) : (restored u false).ct = u.ct ∧ (restored u false).sv = u.sv ∧
    (restored u false).fr = u.fr ∧ (restored u false).mx = u.mx := by
  simp [restored]

theorem restored_larderOk (u : State) (fell : Bool) : (restored u fell).sv.larderOk = u.sv.larderOk := by
  cases fell <;> simp [restored]

theorem larderEnd_sv (u : State) : (larderEnd u).sv = u.sv := by
  unfold larderEnd
  split_ifs <;> simp

theorem exec_bringupLarderDone {x : LarderIn} (hp : s.ct.phase = .larder) (hm : monitorsClear s = true)
    (hc : s.ct.ctlReset = none) (hv : (verifyFirmware (selfTest (larderRead s t x) x) x).ct.ctlReset = none) :
    exec (.bringupLarderDone t x) s = .next (larderEnd
      (restored (verifyFirmware (selfTest (larderRead s t x) x) x) (mustFallBack (larderRead s t x) x))) := by
  simp only [exec, execBringupLarderDone]
  refine congrArg Host.Outcome.next ((if_neg ?_).trans ?_)
  · simp [hp, hm, hc]
  · rw [show pantryReads (each x.lost (atT s t) lineLost) x.reads = larderRead s t x from rfl, hv]
    rfl

/-- A slot that verifies is not fallen back from (R379). -/
theorem mustFallBack_good {u : State} {x : LarderIn} (h : slotGood u x u.sv.slotB = true) : mustFallBack u x = false := by
  simp [mustFallBack, h]

/-- The end of a CONTROL reset whose slot verifies (R428). -/
theorem exec_bringupLarderDone_control {x : LarderIn} {k : Nat × Nat} (hp : s.ct.phase = .larder)
    (hm : monitorsClear s = true) (hc : s.ct.ctlReset = some k) (hr : s.ct.rstExtended = false) (hx : x.failing = none)
    (hf : s.ct.fuseOk = true) (hs : slotGood (larderRead s t x) x (larderRead s t x).sv.slotB = true) :
    exec (.bringupLarderDone t x) s = .next (controlDone (larderUp (larderRead s t x)) k x.us.toNat false) := by
  have hct := (larderRead_ct s t x).1
  have hv : verifyFirmware (selfTest (larderRead s t x) x) x = larderUp (larderRead s t x) :=
    verify_selfTest_good hx (by rw [hct]; exact hf) hs
  simp only [exec, execBringupLarderDone]
  refine congrArg Host.Outcome.next ((if_neg ?_).trans ?_)
  · simp [hp, hm, hr]
  · rw [show pantryReads (each x.lost (atT s t) lineLost) x.reads = larderRead s t x from rfl, hv, mustFallBack_good hs]
    have hk : (larderUp (larderRead s t x)).ct.ctlReset = some k := (congrArg Control.ctlReset hct).trans hc
    rw [hk]

/-! ### Interrupted commits (R386) -/

/-- A report leaves every scene. -/
theorem sceneOf_emit (u : State) (code unit : Nat) (p : BitVec 128) (j : Nat) : sceneOf (emit u code unit p) j = sceneOf u j :=
  congrArg (tget [] · j) (congrArg HostSide.scenes (emit_rest (s := u) (code := code) (unit := unit) (p := p)) :)

/-- A scene is committed to little-worn lines without a report. -/
theorem commitScene_quiet {u : State} (slot : Nat) (d : Bytes) (h : WearUnder u 49000000) :
    ∃ x, commitScene u slot d = { setScene u slot d with sv := x } ∧ x.journal = u.sv.journal := by
  have hlen := length_place_le (s := u) sceneLines (sceneUsed u) (linesFor d.length)
  have hreg : sceneLines.2 = 32768 := rfl
  obtain ⟨w, hw⟩ := commitLines_quiet (place u sceneLines (sceneUsed u) (linesFor d.length)) h (by omega)
  refine ⟨{ u.sv with
    wear := w
    journalAt := (u.sv.journalAt + 2) % 1024
    sceneAt := tput [] u.sv.sceneAt slot (place u sceneLines (sceneUsed u) (linesFor d.length)) }, ?_, rfl⟩
  unfold commitScene
  dsimp only
  rw [hw]
  rfl

/-- The state with a scene in its slot, if it was finished, and the Pantry's record beside it. -/
def sceneKept (u : State) (c : Bool) (slot : Nat) (d : Bytes) (x : Trust) : State :=
  { (if c then setScene u slot d else u) with sv := x }

theorem sceneOf_sceneKept_same (u : State) (c : Bool) (slot : Nat) (d : Bytes) (x : Trust) :
    sceneOf (sceneKept u c slot d x) slot = if c then d else sceneOf u slot := by
  cases c
  · rfl
  · exact tget_tput_same _ _ _ _

theorem sceneOf_sceneKept_ne {u : State} {c : Bool} {slot j : Nat} {d : Bytes} {x : Trust} (h : j ≠ slot) :
    sceneOf (sceneKept u c slot d x) j = sceneOf u j := by
  cases c
  · rfl
  · exact tget_tput_ne _ _ _ h

theorem sceneKept_keeps (u : State) (c : Bool) (slot : Nat) (d : Bytes) (x : Trust) :
    (sceneKept u c slot d x).sv = x ∧ (sceneKept u c slot d x).fr = u.fr ∧ (sceneKept u c slot d x).now = u.now := by
  cases c <;> exact ⟨rfl, rfl, rfl⟩

theorem evtOpen_sceneKept {u : State} {k : Nat} (c : Bool) (slot : Nat) (d : Bytes) (x : Trust) (h : evtOpen u k) :
    evtOpen (sceneKept u c slot d x) k := by
  cases c <;> exact h

/-- A scene whose commit was interrupted is there whole or not at all. -/
theorem recoverCommit_scene {u : State} {slot : Nat} {d : Bytes} (c : Bool) (hj : u.sv.journal = some (.scene slot d))
    (hw : WearUnder u 49000000) : ∃ x, x.journal = none ∧ recoverCommit u c =
      emit (sceneKept u c slot d x) 0x0C12 noUnit (pay [(0, 1, if c then 2 else 3), (1, 1, 6)]) := by
  cases c
  · exact ⟨{ u.sv with journal := none }, rfl, by simp [recoverCommit, hj, commitRegion, sceneKept]⟩
  · obtain ⟨x, hx, -⟩ := commitScene_quiet slot d hw
    refine ⟨{ x with journal := none }, rfl, ?_⟩
    simp [recoverCommit, hj, commitRegion, journalDone, hx, sceneKept]

/-! ### CTRL comes up (R428, step 2) -/

theorem firstLevel_vc (u : State) : (firstLevel u).vc = { u.vc with level := fusedLevel u } := by
  unfold firstLevel
  dsimp only
  split <;> rfl

theorem firstLevel_tw (u : State) :
    (firstLevel u).tw = if u.vc.mute then u.tw else { u.tw with vmsg := some (fusedLevel u) } := by
  unfold firstLevel
  cases h : u.vc.mute
  · simp [h]
    rfl
  · simp [h]

/-- The first level is requested, and the jacks are looked at. -/
def ctrlUp (s : State) (t : Frac) : State := ctrlUpJacks (firstLevel { atT s t with ct := { s.ct with phase := .larder } })

theorem exec_bringupCtrlUp {c : Bool} (hp : pastT1 s = true) (hw : s.pd.twWake = 0) :
    exec (.bringupCtrlUp t c) s = .next (recoverCommit (ctrlUp s t) c) ∧ (ctrlUp s t).out = [.vid (fusedLevel s)] := by
  have hp' : pastT1 (atT s t) = true := hp
  have hw' : (recoverCommit (ctrlUp s t) c).pd.twWake = 0 := by simp [ctrlUp, hw]
  refine ⟨?_, ?_⟩
  · simp only [exec, execBringupCtrlUp, hp', Bool.not_true, Bool.false_eq_true, if_false]
    refine congrArg Host.Outcome.next ?_
    have htw : twWakeEvent (recoverCommit (ctrlUp s t) c) = recoverCommit (ctrlUp s t) c := if_pos hw'
    exact htw
  · simp only [ctrlUp, ctrlUpJacks_keeps, firstLevel]
    split <;> rfl

end

/-- Settles O49: every step of the bring-up leaves what the earlier steps have set. -/
theorem bringUp : Obligations.BringUp := by
  unfold Obligations.BringUp
  refine ⟨fun o k hk h1 h2 => cfgCode_window hk h1 h2, fun t o s hp h1 h2 => ?_, fun t o s hp h => ?_,
    fun t c s hp hw hj => ?_, fun t c slot d s hp hw hj hl he => ?_, fun t x k s hp hc hr hm hx hf hs h3 hfell he => ?_,
    fun t x s hp hc hx hm hf hs h3 => ?_, fun t x b s hp hc hm hx he => ?_, fun x s hp hm => ?_, fun s hp hm he => ?_,
    fun s hp hm he => ?_, fun t us r s hc hp hs hm hf => ?_, fun t us k s hc hh hr he => ?_⟩
  · have hexec : exec (.optionLoadingDone t o) s = .next { atT s t with
        ct := { s.ct with phase := .ctrl, code := cfgCode o, range := cfgRange o, fuseOk := o.fuseOk, trimOk := o.trimOk }
        pl := { s.pl with role := if cfgCode o / 4 = 1 then 1 else if cfgCode o / 4 = 2 then 2 else 0
                          driving := (if cfgCode o / 4 = 1 then 1 else if cfgCode o / 4 = 2 then 2 else 0) != 2
                          st := pairDown (if cfgCode o / 4 = 1 then 1 else if cfgCode o / 4 = 2 then 2 else 0) } } := by
      simp [exec, execOptionLoadingDone, hp, cfgRange_ok h1 h2]
    refine answers_eq hexec rfl ⟨?_, rfl, by simp [still_iff]⟩
    rw [cfgRange_ok h1 h2]
  · have hr := cfgRange_low h
    have hc := cfgCode_fault (o := o) (by rw [hr]; decide)
    have hexec : exec (.optionLoadingDone t o) s = .next (holdEvent { atT s t with
        ct := { s.ct with phase := .ctrl, code := 0, range := 1, fuseOk := o.fuseOk, trimOk := o.trimOk }
        pl := { s.pl with role := 0, driving := true, st := pairDown 0 } } 0x0E02 noUnit (pay [(0, 1, 1), (1, 1, 0)])) := by
      simp [exec, execOptionLoadingDone, hp, hr, hc]
    refine answers_eq hexec rfl ⟨by simp, by simp, by simp, ?_⟩
    simp [holdEvent]
  · obtain ⟨hexec, hout⟩ := exec_bringupCtrlUp (t := t) (c := c) hp hw
    have hrec : recoverCommit (ctrlUp s t) c = ctrlUp s t := by
      have hjr : (ctrlUp s t).sv.journal = none := by simp [ctrlUp, hj]
      simp [recoverCommit, hjr]
    rw [hrec] at hexec
    refine answers_eq hexec rfl ⟨by simp [ctrlUp], ?_, hout, ?_, ?_⟩
    · simp only [ctrlUp, ctrlUpJacks_keeps, firstLevel_vc]
      rfl
    · simp only [ctrlUp, ctrlUpJacks_keeps, firstLevel_tw]
      rfl
    · exact (exact_iff (· ∉ [.ct, .vc, .ai, .aq, .tw]) s (ctrlUp s t)).mpr (by simp [ctrlUp])
  · obtain ⟨hexec, -⟩ := exec_bringupCtrlUp (t := t) (c := c) hp hw
    have hsv : (ctrlUp s t).sv = s.sv := by simp [ctrlUp]
    have hhl : (ctrlUp s t).hl = s.hl := by simp [ctrlUp]
    obtain ⟨x, hx, hrec⟩ := recoverCommit_scene (u := ctrlUp s t) (slot := slot) (d := d) c (by rw [hsv]; exact hj)
      (wearUnder_littleWorn (l := []) (by rw [littleWorn, hsv]; exact hl))
    have hsc : ∀ j, sceneOf (ctrlUp s t) j = sceneOf s j := fun j => congrArg (tget [] · j) (congrArg HostSide.scenes hhl)
    obtain ⟨hksv, hkfr, hknow⟩ := sceneKept_keeps (ctrlUp s t) c slot d x
    rw [hrec] at hexec
    refine answers_eq hexec rfl ⟨?_, fun j hj => ?_, ?_, ?_⟩
    · rw [sceneOf_emit, sceneOf_sceneKept_same, hsc]
    · rw [sceneOf_emit, sceneOf_sceneKept_ne hj, hsc]
    · simp only [emit_keeps, hksv, hx]
    · have hup : evtOpen (ctrlUp s t) 1 := evtOpen_of he (congrArg _ hhl) (by rw [ringsOpen, ringsOpen, hhl]) (congrArg _ hhl) (congrArg _ hhl)
      refine raised_emit (evtOpen_sceneKept c slot d x hup) ?_ ?_
      · rw [hkfr]
        simp [ctrlUp]
      · rw [hknow]
        simp [ctrlUp]
  · obtain ⟨hct, -, -, hpd, hnow⟩ := larderRead_ct s t x
    have hslot := slotOf_larderRead s t x
    have hB : (larderRead s t x).sv.slotB = s.sv.slotB := congrArg Prod.fst hslot
    have hF : (larderRead s t x).sv.fell = s.sv.fell := congrArg Prod.snd hslot
    refine answers_eq (exec_bringupLarderDone_control hp hm hc hr hx hf (by rw [hB]; exact hs))
      (v := emit { larderUp (larderRead s t x) with ct := { s.ct with noFw := false, ctlReset := none, phase := .done } }
        0x0E01 noUnit (pay [(0, 1, 2), (1, 1, k.1), (2, 2, k.2), (4, 4, x.us.toNat), (8, 1, s.pd.backup31)])) ?_ ?_
    · simp [controlDone, resetDone, fallbackTold, larderUp, verified, hct, h3, hpd, hF, hfell]
    · refine ⟨by simp, by simp, by simp [larderUp], ?_, by simp [only_iff, larderUp]⟩
      refine raised_emit ?_ ?_ ?_
      · exact he
      · simp [larderUp, larderRead_ct]
      · simp [larderUp, larderRead_ct]
  · have hct := (larderRead_ct s t x).1
    have hB : (larderRead s t x).sv.slotB = s.sv.slotB := congrArg Prod.fst (slotOf_larderRead s t x)
    have hs' : slotGood (larderRead s t x) x (larderRead s t x).sv.slotB = true := by rw [hB]; exact hs
    have hv := verify_selfTest_good (u := larderRead s t x) hx (by rw [hct]; exact hf) hs'
    have hexec := exec_bringupLarderDone (t := t) (x := x) hp hm hc (by rw [hv]; exact (congrArg Control.ctlReset hct).trans hc)
    rw [hv, mustFallBack_good hs'] at hexec
    have hend : larderEnd (restored (larderUp (larderRead s t x)) false) = { restored (larderUp (larderRead s t x)) false with
        ps := { (restored (larderUp (larderRead s t x)) false).ps with ready := true }
        ct := { s.ct with phase := .clk, noFw := false } } := by
      simp [larderEnd, larderUp, hct, h3]
    refine answers_eq hexec hend ⟨rfl, rfl, ?_, ?_, ?_⟩
    · simp [larderUp]
    · simp [larderUp, larderRead_ct]
    · simp [larderUp, larderRead_ct]
  · have hct := (larderRead_ct s t x).1
    have hself : selfTest (larderRead s t x) x = emit { larderRead s t x with
        sv := { (larderRead s t x).sv with larderOk := false } } 0x0C12 noUnit (pay [(0, 1, 1), (1, 1, b.toNat)]) := by
      simp [selfTest, hx]
    have hraised : raised s t 0x0C12 noUnit (pay [(0, 1, 1), (1, 1, b.toNat)]) (selfTest (larderRead s t x) x) := by
      rw [hself]
      exact raised_emit he (by simp [larderRead_ct]) (by simp [larderRead_ct])
    obtain ⟨hreset, hok⟩ := verifyFirmware_keeps' (selfTest (larderRead s t x) x) x
    have hv : (verifyFirmware (selfTest (larderRead s t x) x) x).ct.ctlReset = none := by
      rw [hreset, hself]
      simp [hct, hc]
    refine answers_eq (exec_bringupLarderDone (t := t) hp hm hc hv) rfl ⟨?_, ?_⟩
    · rw [larderEnd_sv, restored_larderOk, hok, hself]
      simp
    · exact raised_of_grows hraised (((verifyFirmware_grows _ _).trans (restored_grows _ _)).trans (larderEnd_grows _))
  · have hexec : exec (.bringupClkUp (.up x)) s = .next (domainChanged (clkUp { atT s 0 with
        ct := { s.ct with phase := .host }
        pd := { s.pd with on := if domOn s domCLK then s.pd.on else s.pd.on + 2 ^ domCLK } } x) domCLK 1 2) :=
      congrArg Host.Outcome.next (if_neg (by simp [hp, hm]))
    refine answers_eq hexec rfl ⟨by simp, ?_, ?_, ?_, by simp⟩
    · simp [clkUp, beginFrame]
    · simp [clkUp, beginFrame]
    · have hon : domOn { s with pd := { s.pd with on := if domOn s domCLK then s.pd.on else s.pd.on + 2 ^ domCLK } } 7 = true := by
        cases h : domOn s domCLK
        · exact Wake.bitN_add_of_clear h
        · exact h
      simpa [domOn] using hon
  · refine answers_eq rfl (if_neg (by simp [hp, hm])) ⟨by simp, by simp, ?_, by simp [only_iff]⟩
    exact raised_emit_of (s := s) (k := 0) he rfl rfl rfl
  · refine answers_eq rfl (if_neg (by simp [hp, hm])) ⟨by simp [xtalLost], by simp [xtalLost], ?_, by simp [only_iff]⟩
    exact raised_emit_of (s := s) (k := 0) he rfl rfl rfl
  · have hexec : exec (.bringupHostUp t us) s = .next (resetDone { atT s t with
        ct := { s.ct with cur := none, phase := .done } } true 0 r.src r.merged us.toNat) := by
      have hm' : monitorsClear (atT s t) = true := hm
      simp only [exec, execBringupHostUp, atT_keeps, hc, hp, hm']
      simp [bringupDone, hs, hp, hf, fallbackTold, resetDone]
    refine answers_eq hexec rfl ⟨by simp, ?_, by simp [only_iff, resetDone]⟩
    rw [hs]
    simp [resetDone, holdEvent, List.filter_append]
  · have hexec : exec (.bringupHostUp t us) s = .next (emit { atT s t with ct := { s.ct with hostReset := none } }
        0x0E01 noUnit (pay [(0, 1, 3), (1, 1, k.1), (2, 2, k.2), (4, 4, us.toNat), (8, 1, s.pd.backup31)])) := by
      simp [exec, execBringupHostUp, hc, hh, hr, resetDone]
    exact answers_eq hexec rfl ⟨by simp, raised_emit_of (s := s) (k := 0) he rfl rfl rfl, by simp [only_iff]⟩

end Sys2Proof.Proofs.BringUp

/-! The balls (R432, R468, R469): what each group shows in a reset, with its domain off, and in use. -/

namespace Sys2Proof.Proofs.Balls

open Sys2Proof Sys2Proof.Machine Sys2Proof.Safety Sys2Proof.Laws

section
variable {s : State} {d : Nat} {off x : BallState}

/-- During a reset a ball shows what it shows without power. -/
theorem whileOn_reset (h : inReset s = true) : whileOn s d off x = off := by simp [whileOn, h]

/-- A ball of a domain that is off shows what it shows without power. -/
theorem whileOn_off (h : domOn s d = false) : whileOn s d off x = off := by simp [whileOn, h]

/-- A ball of a domain that is on, with no reset in progress, shows what its block says. -/
theorem whileOn_on (h : domOn s d = true) (hr : inReset s = false) : whileOn s d off x = x := by simp [whileOn, h, hr]

/-- A ball whose block has nothing to show but what it shows without power shows that. -/
theorem whileOn_self : whileOn s d x x = x := ite_self _

theorem inReset_of_cur {c : Reset} (h : s.ct.cur = some c) : inReset s = true := by simp [inReset, h]

theorem inReset_of_none (h : s.ct.cur = none) : inReset s = false := by simp [inReset, h]

end

/-- The nets of R468, counted over the map of the balls. -/
theorem ballCount_nets :
    ballCount isSignal = 396 ∧ ballCount (· == .vcore) = 209 ∧ ballCount (· == .dgnd) = 320 ∧
    ballCount (· == .pgndA) = 67 ∧ ballCount (· == .pvddA) = 56 ∧ ballCount (· == .agnd) = 80 ∧
    ballCount (· == .vgate) = 38 := by
  decide +kernel

/-- In a reset every switched group shows its state without power (R432, R469). -/
theorem ballState_reset {s : State} (hr : inReset s = true) (hl : shuntsLost s = false) :
    (∀ n, ballState s (.bridge n) = .switchesOff) ∧ (∀ d, ballState s (.gate d) = .gateHeld) ∧
    (∀ o, ballState s (.output o) = .shunted) ∧ (∀ b, ballState s (.micBias b) = .highZ) ∧
    ballState s .chargePump = .stopped ∧ ballState s .pcie = .idle ∧ ballState s .strellin = .idle ∧
    (∀ p, ballState s (.bclk p) = .highZ) ∧ (∀ p, ballState s (.fs p) = .highZ) ∧
    (∀ p, ballState s (.din p) = .highZ) ∧ (∀ p, ballState s (.dout p) = .highZ) ∧
    (∀ k, ballState s (.pdmClk k) = .highZ) ∧ (∀ k, ballState s (.mclkOut k) = .highZ) ∧
    (∀ k, ballState s (.fpOut k) = .highZ) ∧ (∀ i, ballState s (.smux i) = .highZ) ∧
    ballState s .snsRef = .highZ ∧ ballState s .failover = .released ∧ ballState s .clkreq = .input ∧
    ballState s .twAlert = .released ∧ (∀ n, ballState s (.ain n) = .noLoad) ∧ ballState s .sns = .noLoad ∧
    ballState s .pdmData = .noLoad ∧ (∀ r, ballState s (.refIn r) = .noLoad) ∧
    ballState s .cfgSel = if s.ct.phase = .options then .sources else .highZ := by
  refine ⟨fun _ => whileOn_reset hr, fun _ => whileOn_reset hr, fun _ => ?_, fun _ => whileOn_reset hr, whileOn_reset hr, ?_,
    ?_, fun _ => whileOn_reset hr, fun _ => ?_, fun _ => whileOn_reset hr, fun _ => whileOn_reset hr,
    fun _ => whileOn_reset hr, fun _ => whileOn_reset hr, fun _ => whileOn_reset hr, fun _ => whileOn_reset hr, ?_, ?_, ?_, ?_,
    fun _ => whileOn_reset hr, whileOn_reset hr, whileOn_reset hr, fun _ => whileOn_reset hr, ?_⟩
  · simp [ballState, outputState, hl, hr]
  · simp [ballState, whileOn_reset hr]
  · simp [ballState, strellinState, hr]
  · simp [ballState, whileOn_reset hr, hr]
  · simp [ballState, whileOn_reset hr, hr]
  · simp [ballState, hr]
  · simp [ballState, clkreqState, hr]
  · simp [ballState, hr]
  · simp [ballState, hr]

/-- Settles O53: the state of each group of balls, and the number of balls of each net. -/
theorem ballsShown : Obligations.BallsShown := by
  unfold Obligations.BallsShown
  refine ⟨fun s c h hl => ballState_reset (inReset_of_cur h) hl, fun s k h => ?_, fun s k h => ?_, fun s k h => ?_, fun s k h => ?_,
    fun s h => ⟨fun _ => whileOn_off h, fun _ => whileOn_off h, fun _ => whileOn_off h, fun _ => whileOn_off h⟩,
    fun s o h hl => ?_, fun s o hl => ?_, fun s h => ⟨fun _ => whileOn_off h, fun _ => whileOn_off h⟩,
    fun s h hc hst => ⟨?_, fun _ => whileOn_off h⟩, fun s h => ?_, fun s n h hc hst => ?_, fun s k h hc hp => ?_,
    fun s h => ?_, ballCount_nets⟩
  · simp [ballState, pdmState, h, whileOn_self]
  · simp [ballState, biasState, h, whileOn_self]
  · simp [ballState, mclkState, h, whileOn_self]
  · simp [ballState, fpState, h, whileOn_self]
  · simp [ballState, outputState, hl, h]
  · simp [ballState, outputState, hl]
  · rcases hst with hst | hst <;> simp [ballState, strellinState, inReset_of_none hc, hst, h]
  · simp [ballState, whileOn_off h]
  · refine (whileOn_on h (inReset_of_none hc)).trans ?_
    simp [legOhms, hst]
  · refine (whileOn_on h (inReset_of_none hc)).trans ?_
    simp [pdmState, hp]
  · simp [ballState, wakeBall, h]

end Sys2Proof.Proofs.Balls

/-! The alert, the controller role, and a bus that is stuck (R352–R360). -/

namespace Sys2Proof.Proofs.BusTimeouts

open Sys2Proof Sys2Proof.Machine Sys2Proof.Safety Sys2Proof.Laws
open Sys2Proof.Proofs.Frames Sys2Proof.Proofs.Writes Sys2Proof.Proofs.Reads

section
variable {s : State} {t : Frac}

/-- A report leaves what the two-wire side says of its flags, its messages and its last write. -/
@[simp] theorem emit_twSays (u : State) (code unit : Nat) (p : BitVec 128) :
    (emit u code unit p).tw.flags = u.tw.flags ∧ (emit u code unit p).tw.lastWr = u.tw.lastWr ∧
    (emit u code unit p).tw.vmsg = u.tw.vmsg ∧ (emit u code unit p).tw.vstuck = u.tw.vstuck ∧
    (emit u code unit p).tw.arbCount = u.tw.arbCount ∧ (emit u code unit p).tw.arbByte = u.tw.arbByte ∧
    (emit u code unit p).tw.arbBit = u.tw.arbBit ∧ (emit u code unit p).tw.stretchResets = u.tw.stretchResets := by
  have h : busRest (emit u code unit p).tw = busRest u.tw := emit_busRest
  exact ⟨congrArg (·.flags) h, congrArg (·.lastWr) h, congrArg (·.vmsg) h, congrArg (·.vstuck) h, congrArg (·.arbCount) h,
    congrArg (·.arbByte) h, congrArg (·.arbBit) h, congrArg (·.stretchResets) h⟩

/-- A flag is set once it was set. -/
theorem bitN_setFlag (u : State) (b : Nat) : bitN (setFlag u b).tw.flags b = true := by
  unfold setFlag
  dsimp only
  split
  · assumption
  · next h => exact Wake.bitN_add_of_clear (by simpa using h)

/-- Setting a flag leaves the rest of the two-wire side. -/
theorem setFlag_says (u : State) (b : Nat) : setFlag u b = { u with tw := { u.tw with flags := (setFlag u b).tw.flags } } := rfl

theorem twStatus_atT : twStatus (atT s t) = twStatus s := rfl

theorem alertDriven_atT : alertDriven (atT s t) = alertDriven s := rfl

/-- The third NACK drops a Host Notify: the flag and its report (R354). -/
theorem notifyFailed_raises (cause : Nat) {u : State} (he : evtOpen s 1) (hh : u.hl = s.hl) (hf : u.fr.fn = s.fr.fn)
    (hn : u.now = t) : bitN (notifyFailed u cause).tw.flags 5 = true ∧
      ∃ w, raised s t 0x0B07 noUnit (pay [(0, 1, cause), (2, 2, w)]) (notifyFailed u cause) := by
  refine ⟨?_, _, raised_emit_of (s := s) (k := 0) he hh hf hn⟩
  rw [notifyFailed, (emit_twSays _ _ _ _).1]
  exact bitN_setFlag _ 5

/-- SDA stuck: the flag and its report (R356). -/
theorem sdaStuck_raises (n : Nat) {u : State} (he : evtOpen s 1) (hh : u.hl = s.hl) (hf : u.fr.fn = s.fr.fn) (hn : u.now = t) :
    bitN (sdaStuck u n).tw.flags 3 = true ∧ raised s t 0x0B06 noUnit (pay [(0, 1, n)]) (sdaStuck u n) := by
  refine ⟨?_, raised_emit_of (s := s) (k := 0) he hh hf hn⟩
  rw [sdaStuck, (emit_twSays _ _ _ _).1]
  exact bitN_setFlag _ 3

theorem sdaStuck_says (u : State) (n : Nat) : (sdaStuck u n).tw.vmsg = u.tw.vmsg ∧ (sdaStuck u n).tw.vstuck = u.tw.vstuck := by
  obtain ⟨-, -, hv, hs, -⟩ := emit_twSays (setFlag u 3) 0x0B06 noUnit (pay [(0, 1, n)])
  exact ⟨hv, hs⟩

/-! ### One attempt of a message -/

theorem sendNotify_nacked {u : State} {n : Nat} (b : Nat) (h : n < 2) : sendNotify u n (.nacked b) =
    { u with out := u.out ++ [.twCtl (notifyBytes u)], tw := { u.tw with stuck := 0, notify := some (n + 1) } } := by
  have h3 : ¬ 3 ≤ n + 1 := by omega
  simp only [sendNotify, reduceCtorEq, if_false, if_neg h3]
  rfl

theorem sendNotify_dropped {u : State} {n : Nat} (b : Nat) (h : 2 ≤ n) : sendNotify u n (.nacked b) =
    notifyFailed { u with out := u.out ++ [.twCtl (notifyBytes u)], tw := { u.tw with stuck := 0 } } 1 := by
  have h3 : 3 ≤ n + 1 := by omega
  simp only [sendNotify, reduceCtorEq, if_false, if_pos h3]
  rfl

theorem sendVcore_sent {u : State} (l : Nat) (h : u.vc.mute = false) : sendVcore u l .sent =
    { u with out := u.out ++ [.twCtl (vcoreBytes l)], tw := { u.tw with vstuck := 0, vmsg := none },
             vc := { u.vc with sent := true } } :=
  (if_neg (by simp [h])).trans (if_neg (by decide))

theorem sendVcore_lost {u : State} (l b : Nat) (i : Fin 8) (a : Bool) (h : u.vc.mute = false) :
    sendVcore u l (.lost b i a) =
      arbLost { u with out := u.out ++ [.twCtl (vcoreBytes l)], tw := { u.tw with vstuck := 0, vmsg := some l } } b i.val 2 a :=
  (if_neg (by simp [h])).trans (if_neg (by simp))

theorem sendVcore_stuck {u : State} (l : Nat) (h : u.vc.mute = false) :
    sendVcore u l .stuck = vcoreStuck { u with tw := { u.tw with vmsg := some l } } :=
  (if_neg (by simp [h])).trans (if_pos rfl)

theorem notifyStuck_again {u : State} (h : u.tw.stuck < 2) : notifyStuck u =
    { sdaStuck u (u.tw.stuck + 1) with tw := { (sdaStuck u (u.tw.stuck + 1)).tw with stuck := u.tw.stuck + 1 } } :=
  if_pos (show u.tw.stuck + 1 < 3 by omega)

theorem vcoreStuck_again {u : State} (h : u.tw.vstuck < 2) : vcoreStuck u =
    { sdaStuck u (u.tw.vstuck + 1) with tw := { (sdaStuck u (u.tw.vstuck + 1)).tw with vstuck := u.tw.vstuck + 1 } } :=
  if_pos (show u.tw.vstuck + 1 < 3 by omega)

theorem vcoreStuck_dropped {u : State} (h : 2 ≤ u.tw.vstuck) : vcoreStuck u =
    { sdaStuck u (u.tw.vstuck + 1) with tw := { (sdaStuck u (u.tw.vstuck + 1)).tw with vstuck := 0, vmsg := none } } :=
  if_neg (show ¬ u.tw.vstuck + 1 < 3 by omega)

/-! ### Timeouts -/

/-- Taking a due notify in hand leaves what the bus counts. -/
theorem takeNotify_says (u : State) : (takeNotify u).tw.stretchResets = u.tw.stretchResets ∧ (takeNotify u).tw.lastWr = u.tw.lastWr := by
  unfold takeNotify
  split <;> exact ⟨rfl, rfl⟩

theorem stretched_says (u : State) (target : Bool) (code : Byte) :
    (stretched u target code).tw.stretchResets = inc16 u.tw.stretchResets ∧
    bitN (stretched u target code).tw.flags 0 = true ∧ (stretched u target code).tw.lastWr = u.tw.lastWr := by
  unfold stretched
  dsimp only
  simp only [emit_twSays]
  exact ⟨rfl, bitN_setFlag _ 0, rfl⟩

/-- A transaction cut short is noted in LAST_WR, and touches nothing else. -/
def cutShort (u : State) (b : Bool) : State := if b then setLastWr u 6 else u

theorem cutShort_lastWr (u : State) (b : Bool) : (cutShort u b).tw.lastWr = if b then 6 else u.tw.lastWr := by
  cases b <;> rfl

@[simp] theorem cutShort_keeps (u : State) (b : Bool) : (cutShort u b).pending = u.pending ∧ (cutShort u b).now = u.now ∧
    (cutShort u b).regs = u.regs ∧ (cutShort u b).fr = u.fr ∧ (cutShort u b).mx = u.mx ∧ (cutShort u b).fx = u.fx ∧
    (cutShort u b).ps = u.ps ∧ (cutShort u b).sp = u.sp ∧ (cutShort u b).ai = u.ai ∧ (cutShort u b).aq = u.aq ∧
    (cutShort u b).dp = u.dp ∧ (cutShort u b).ck = u.ck ∧ (cutShort u b).sc = u.sc ∧ (cutShort u b).hl = u.hl ∧
    (cutShort u b).st = u.st ∧ (cutShort u b).sv = u.sv ∧ (cutShort u b).pd = u.pd ∧ (cutShort u b).ct = u.ct ∧
    (cutShort u b).pl = u.pl ∧ (cutShort u b).vc = u.vc := by
  cases b <;> simp [cutShort, setLastWr]

/-- A flag raised with its report: the flag, LAST_WR as before, and the report. -/
theorem flagged (f code : Nat) (p : BitVec 128) {u : State} (he : evtOpen s 1) (hh : u.hl = s.hl) (hf : u.fr.fn = s.fr.fn)
    (hn : u.now = t) : bitN (emit (setFlag u f) code noUnit p).tw.flags f = true ∧
      (emit (setFlag u f) code noUnit p).tw.lastWr = u.tw.lastWr ∧ raised s t code noUnit p (emit (setFlag u f) code noUnit p) := by
  simp only [emit_twSays]
  exact ⟨bitN_setFlag _ f, rfl, raised_emit_of (s := s) (k := 0) he hh hf hn⟩

/-- What was driven out before a report is driven out after it. -/
theorem mem_emit_out {u : State} {o : Out} {code unit : Nat} {p : BitVec 128} (h : o ∈ u.out) : o ∈ (emit u code unit p).out :=
  (emit_grows u code unit p).mem h

end

/-- Settles O38: each message and each timeout, by what was in hand. -/
theorem notifyAndTimeouts : Obligations.NotifyAndTimeouts := by
  unfold Obligations.NotifyAndTimeouts
  refine ⟨fun t s ha => ?_, fun t s ha => ?_, fun t s hd => ?_, fun t b n s hn h2 => ?_, fun t b n s hn h2 he => ?_,
    fun t l s hn hv hm => ?_, fun t l b i a s hn hv hm he => ?_, fun t s hn hs he => ?_, fun t s hn hv hs he => ?_,
    fun t s hn hs he => ?_, fun t n l s hn hv hs h12 hm he => ?_, fun t l s hs hn hv hm => ?_,
    fun t target code write s he => ?_, fun t r inTx s he => ?_, fun t own inTx s he => ?_⟩
  · refine answers_eq rfl (if_neg (by simpa [alertDriven_atT] using ha)) ⟨rfl, rfl, ?_, ?_⟩
    · simp [alertDriven]
    · exact (exact_one_iff _ _ _).mpr (by simp)
  · exact answers_eq rfl (if_pos ha) ⟨rfl, by simp [still_iff]⟩
  · have hok : s.tw.notifyOk = true := by
      simp only [notifyDue, Bool.and_eq_true] at hd
      exact hd.1.1
    refine answers_eq rfl (if_pos hd) ⟨rfl, ?_, (exact_one_iff _ _ _).mpr (by simp [sendNotify])⟩
    simp [sendNotify, push, hok]
    rfl
  · have hexec : exec (.notifyRetry t (.nacked b)) s = .next (sendNotify (atT s t) n (.nacked b)) := by
      simp [exec, execNotifyRetry, hn]
    exact answers_eq hexec (sendNotify_nacked b h2) ⟨rfl, rfl, (exact_one_iff _ _ _).mpr (by simp)⟩
  · have hexec : exec (.notifyRetry t (.nacked b)) s = .next (sendNotify (atT s t) n (.nacked b)) := by
      simp [exec, execNotifyRetry, hn]
    obtain ⟨hflag, hraised⟩ := notifyFailed_raises (s := s) (t := t) 1
      (u := { atT s t with out := [.twCtl (notifyBytes s)], tw := { s.tw with stuck := 0 } }) he rfl rfl rfl
    exact answers_eq hexec (sendNotify_dropped b h2) ⟨mem_emit_out (List.mem_singleton.mpr rfl), hflag, hraised,
      by simp [only_iff, notifyFailed]⟩
  · have hexec : exec (.controllerRetry t .sent) s = .next (sendVcore (atT s t) l .sent) := by
      simp [exec, execControllerRetry, hn, hv]
    exact answers_eq hexec (sendVcore_sent l hm) ⟨rfl, rfl, rfl, (exact_two_iff _ _ _ _).mpr (by simp)⟩
  · have hexec : exec (.controllerRetry t (.lost b i a)) s = .next (sendVcore (atT s t) l (.lost b i a)) := by
      simp [exec, execControllerRetry, hn, hv]
    refine answers_eq hexec (sendVcore_lost l b i a hm) ⟨mem_emit_out (List.mem_singleton.mpr rfl), ?_, ?_, ?_, ?_, ?_,
      raised_emit_of (s := s) (k := 0) he rfl rfl rfl, by simp [only_iff, arbLost]⟩
    · simp [arbLost, setFlag]
    · simp [arbLost, setFlag]
    · simp [arbLost, setFlag]
    · simp [arbLost, setFlag]
    · rw [arbLost, (emit_twSays _ _ _ _).1]
      exact bitN_setFlag _ 4
  · have hexec : exec (.twSdaStuck t) s = .next (notifyStuck (atT s t)) := by
      have ht : takeNotify (atT s t) = atT s t := if_neg (by simp [Option.isNone_eq_false_iff.mpr hn])
      simp [exec, execTwSdaStuck, ht, hn, hs]
    obtain ⟨hflag, hraised⟩ := sdaStuck_raises (s := s) (t := t) (u := atT s t) 1 he rfl rfl rfl
    obtain ⟨hvm, hvs⟩ := sdaStuck_says (atT s t) 1
    have hagain := notifyStuck_again (u := atT s t) (by simp [hs])
    rw [show (atT s t).tw.stuck = 0 from hs] at hagain
    exact answers_eq hexec hagain ⟨rfl, hflag, hvm, hvs, hraised, by simp [only_iff, sdaStuck]⟩
  · have hexec : exec (.twSdaStuck t) s = .next (vcoreStuck (atT s t)) := by
      have ht : takeNotify (atT s t) = atT s t := if_neg (by simp [hn, Option.isNone_eq_false_iff.mpr hv])
      simp [exec, execTwSdaStuck, ht, hn, hs, hv]
    obtain ⟨hflag, hraised⟩ := sdaStuck_raises (s := s) (t := t) (u := atT s t) 1 he rfl rfl rfl
    have hagain := vcoreStuck_again (u := atT s t) (by simp [hs])
    rw [show (atT s t).tw.vstuck = 0 from hs] at hagain
    exact answers_eq hexec hagain ⟨rfl, hflag, (sdaStuck_says (atT s t) 1).1, hraised, by simp [only_iff, sdaStuck]⟩
  · obtain ⟨n, hn⟩ := Option.isSome_iff_exists.mp hn
    have hexec : exec (.sdaStuckRetry t none) s = .next (notifyStuck { atT s t with tw := { s.tw with notify := some n } }) := by
      simp [exec, execSdaStuckRetry, hn, hs, sendNotify]
    obtain ⟨hflag, hraised⟩ := sdaStuck_raises (s := s) (t := t) (u := { atT s t with tw := { s.tw with notify := some n } }) 2
      he rfl rfl rfl
    obtain ⟨hvm, hvs⟩ := sdaStuck_says { atT s t with tw := { s.tw with notify := some n } } 2
    have hagain := notifyStuck_again (u := { atT s t with tw := { s.tw with notify := some n } }) (by simp [hs])
    rw [show ({ atT s t with tw := { s.tw with notify := some n } } : State).tw.stuck = 1 from hs] at hagain
    exact answers_eq hexec hagain ⟨rfl, hflag, hvm, hvs, hraised, by simp [only_iff, sdaStuck]⟩
  · have hexec : exec (.sdaStuckRetry t none) s = .next (vcoreStuck { atT s t with tw := { s.tw with vmsg := some l } }) := by
      have hs0 : n ≠ 0 := by omega
      simp [exec, execSdaStuckRetry, hn, hv, hs, hs0, sendVcore_stuck, hm]
    have hvs : ({ atT s t with tw := { s.tw with vmsg := some l } } : State).tw.vstuck = n := hs
    obtain ⟨hflag, hraised⟩ := sdaStuck_raises (s := s) (t := t) (u := { atT s t with tw := { s.tw with vmsg := some l } }) (n + 1)
      he rfl rfl rfl
    obtain rfl | rfl := h12
    · have hagain := vcoreStuck_again (show _ < 2 by rw [hvs]; decide)
      rw [hvs] at hagain
      exact answers_eq hexec hagain ⟨rfl, (sdaStuck_says _ _).1, hflag, hraised, by simp [only_iff, sdaStuck]⟩
    · have hdrop := vcoreStuck_dropped (show 2 ≤ _ by rw [hvs])
      rw [hvs] at hdrop
      exact answers_eq hexec hdrop ⟨rfl, rfl, hflag, hraised, by simp [only_iff, sdaStuck]⟩
  · have hexec : exec (.sdaStuckRetry t (some .sent)) s = .next (sendVcore (atT s t) l .sent) := by
      simp [exec, execSdaStuckRetry, hn, hv, hs]
    exact answers_eq hexec (sendVcore_sent l hm) ⟨rfl, rfl, rfl, (exact_two_iff _ _ _ _).mpr (by simp)⟩
  · cases target
    · have hexec : exec (.twStretchReset t false code write) s = .next (stretched (takeNotify (atT s t)) false code) := rfl
      obtain ⟨hcount, hflag, hlast⟩ := stretched_says (takeNotify (atT s t)) false code
      refine answers_eq hexec rfl ⟨?_, hflag, ?_, ?_, ?_⟩
      · rw [hcount]
        simp [takeNotify_says]
      · rw [hlast]
        simp [takeNotify_says]
      · exact raised_emit_of (s := s) (k := 0) he (by simp) (by simp) (by simp)
      · simp [only_iff, stretched]
    · have hexec : exec (.twStretchReset t true code write) s = .next (stretched (cutShort (atT s t) write) true code) := by
        cases write <;> rfl
      obtain ⟨hcount, hflag, hlast⟩ := stretched_says (cutShort (atT s t) write) true code
      refine answers_eq hexec rfl ⟨?_, hflag, ?_, ?_, ?_⟩
      · rw [hcount]
        cases write <;> rfl
      · rw [hlast, cutShort_lastWr]
        simp
      · exact raised_emit_of (s := s) (k := 0) he (by simp [setFlag]) (by simp [setFlag]) (by simp [setFlag])
      · simp [only_iff, stretched, setFlag]
  · have hexec : exec (.twSclLow t r inTx) s = .next (emit (setFlag (cutShort (atT s t) inTx) 1) 0x0B04 noUnit
        (pay [(0, 1, if r = .controller then 2 else 1)])) := by
      cases inTx <;> rfl
    obtain ⟨hflag, hlast, hraised⟩ := flagged (s := s) (t := t) 1 0x0B04 (pay [(0, 1, if r = .controller then 2 else 1)])
      (u := cutShort (atT s t) inTx) he (by simp) (by simp) (by simp)
    exact answers_eq hexec rfl ⟨hflag, hlast.trans (cutShort_lastWr _ _), hraised, by simp [only_iff, setFlag]⟩
  · have hexec : exec (.twSdaLow t own inTx) s = .next (emit (setFlag (cutShort (atT s t) inTx) 2) 0x0B05 noUnit
        (pay [(0, 1, if own then 1 else 2)])) := by
      cases inTx <;> rfl
    obtain ⟨hflag, hlast, hraised⟩ := flagged (s := s) (t := t) 2 0x0B05 (pay [(0, 1, if own then 1 else 2)])
      (u := cutShort (atT s t) inTx) he (by simp) (by simp) (by simp)
    exact answers_eq hexec rfl ⟨hflag, hlast.trans (cutShort_lastWr _ _), hraised, by simp [only_iff, setFlag]⟩

end Sys2Proof.Proofs.BusTimeouts

/-! A stream context's setup (R289, R319, R327, R337). -/

namespace Sys2Proof.Proofs.Contexts

open Sys2Proof Sys2Proof.Machine Sys2Proof.Safety Sys2Proof.Laws
open Sys2Proof.Proofs.Frames Sys2Proof.Proofs.Writes Sys2Proof.Proofs.Reads

section
variable {s u : State} {k : Nat}

/-- The checks of an enable read the registers, the contexts and the frame rate. -/
theorem enableFault_congr (hr : u.regs = s.regs) (hst : u.st = s.st) (hf : u.fr = s.fr) : enableFault u k = enableFault s k := by
  have h : ∀ a : State, enableFault a k = enableFault { s with regs := a.regs, st := a.st, fr := a.fr } k := fun _ => rfl
  rw [h u, hr, hst, hf]

@[simp] theorem ctx_noted (t : Frac) (o : Owner) (off g : Nat) (ok : Bool) (j : Nat) : ctx (noted s t o off g ok) j = ctx s j :=
  ctx_congr (by simp) j

@[simp] theorem ctx_ltrUpdate (always : Bool) (j : Nat) : ctx (ltrUpdate s always) j = ctx s j := by
  unfold ltrUpdate
  dsimp only
  split <;> rfl

/-- The write of an enable that passes its checks arms the context. -/
theorem strWrite_armed {v w : Word} (hd : (ctx u k).st = .disabled) (hw : mergeReg .strCfg k (reg u .strCfg k) v = w)
    (ha : regAccept .strCfg k (reg u .strCfg k) w = true) (hb : bit w 31 = true)
    (hf : enableFault (setReg u .strCfg k (w &&& 0x7FFFFFFF)) k = none) :
    strWrite u k .strCfg v = ltrUpdate (setCtx (setReg u .strCfg k w) k { Ctx.reset with
      st := .armed, lastErr := (ctx u k).lastErr, pos := (ctx u k).pos, posHi := (ctx u k).posHi,
      under := (ctx u k).under, late := (ctx u k).late, lateAt := (ctx u k).lateAt }) false := by
  have hregs : setReg (setReg u .strCfg k (w &&& 0x7FFFFFFF)) .strCfg k w = setReg u .strCfg k w := by
    simp only [setReg, tput_tput]
  unfold strWrite
  simp only [hd, hw, ha, hb, hf, hregs]
  rfl

/-- The write of an enable that fails a check is refused with the reason. -/
theorem strWrite_refused {v w : Word} {r : Nat} (hd : (ctx u k).st = .disabled) (hw : mergeReg .strCfg k (reg u .strCfg k) v = w)
    (ha : regAccept .strCfg k (reg u .strCfg k) w = true) (hb : bit w 31 = true)
    (hf : enableFault (setReg u .strCfg k (w &&& 0x7FFFFFFF)) k = some r) :
    strWrite u k .strCfg v =
      strRefuse (setReg u .strCfg k (w &&& 0x7FFFFFFF)) k r ((regPlace .strCfg).1 % 0x1000) := by
  unfold strWrite
  simp only [hd, hw, ha, hb, hf]
  rfl

end

/-- Settles O33: an enable that passes and one that fails, the doorbell and the position. -/
theorem contextSetup : Obligations.ContextSetup := by
  unfold Obligations.ContextSetup
  refine ⟨fun t o k v w s hw hd hv ha hb hf => ?_, fun t o k v w r s hw hd hv ha hb hf he => ?_, fun t k v s hen hlt => ?_, fun t k s => ?_⟩
  · have hreg : ∀ b, reg (noted s t o (regOff .strCfg k.val) 0x39 b) .strCfg k.val = reg s .strCfg k.val := fun b => by simp [reg]
    refine answers_eq rfl ((directWrite_taken hw _ _).trans (strWrite_armed (by simpa [ctx] using hd) (by rw [hreg]; exact hv.symm)
      (by rw [hreg]; exact ha) hb ((enableFault_congr (by simp [setReg]) (by simp [setReg]) (by simp [setReg])).trans hf))) ?_
    refine ⟨?_, fun j hj => ?_, ?_, ?_⟩
    · simp
    · simp [ctx_setCtx_ne _ _ hj]
    · simp [setReg, setCtx]
    · simp [only_iff]
  · have hreg : ∀ b, reg (noted s t o (regOff .strCfg k.val) 0x39 b) .strCfg k.val = reg s .strCfg k.val := fun b => by simp [reg]
    refine answers_eq rfl ((directWrite_taken hw _ _).trans (strWrite_refused (by simpa using hd) (by rw [hreg]; exact hv.symm)
      (by rw [hreg]; exact ha) hb ((enableFault_congr (by simp [setReg]) (by simp [setReg]) (by simp [setReg])).trans hf))) ?_
    refine ⟨by simp [strRefuse], fun j hj => by simp [strRefuse, ctx_setCtx_ne _ _ hj], ?_, by simp [only_iff, strRefuse]⟩
    exact raised_emit (noted_evtOpen _ he) (by simp [setCtx]) (by simp [setCtx])
  · have hn : ¬ (!enabled (atT s t) k.val || decide (ringLen (atT s t) k.val ≤ fld v 15 0)) = true := by
      have hen' : enabled (atT s t) k.val = true := hen
      have hlt' : fld v 15 0 < ringLen (atT s t) k.val := hlt
      simp [hen', hlt']
    have hexec : exec (.streamDoorbell t k true v) s =
        .next (setCtx (atT s t) k.val { ctx s k.val with prod := fld v 15 0 }) := congrArg Host.Outcome.next (by
      simp only [streamDoorbell, Bool.not_true, Bool.false_eq_true, if_false, if_neg hn, ctx_atT])
    exact answers_eq hexec rfl ⟨rfl, by simp [still_iff]⟩
  · exact answers_eq rfl rfl ⟨rfl, rfl, (exact_one_iff _ _ _).mpr (by simp)⟩

end Sys2Proof.Proofs.Contexts

/-! The entry of STANDBY in a module whose peer hears it (R400, R453). -/

namespace Sys2Proof.Proofs.StateEntry

open Sys2Proof Sys2Proof.Machine Sys2Proof.Safety Sys2Proof.Laws Sys2Proof.Proofs.Frames

/-- The entry of STANDBY has stopped the outputs of a module that is in SYNC with an authenticated peer. -/
def halting : State :=
  { State.reset with
    fr := { State.reset.fr with running := true, drained := true, fn := 5, next := 6 }
    pd := { State.reset.pd with
      on := 0x3FF, st := .active, waking := none, entry := some { target := .standby, stopped := true, off := false } }
    pl := { State.reset.pl with st := .sync, role := 1, driving := true }
    sv := { State.reset.sv with auth := .authenticated, txSeq := 7 } }

theorem halting_halts : outputsDown halting = true ∧ halting.fr.drained = true ∧ halting.pd.waking = none ∧
    halting.pd.st = .active ∧ halting.sv.txSeq = 7 := by decide +kernel

/-- Before CLK goes down, the last heartbeat takes the next sequence number (R453). -/
theorem stateEntryHalt_txSeq : (match exec (.stateEntryHalt 0) halting with
    | .next s' => s'.sv.txSeq
    | _ => 0) = 8 := by decide +kernel

/-- Refutes O43: a module in SYNC sends its last heartbeat as CLK goes down, and that counts its packets. -/
theorem not_domainsAndStates : ¬ Obligations.DomainsAndStates := by
  unfold Obligations.DomainsAndStates
  rintro ⟨-, -, -, -, -, -, -, -, hhalt, -⟩
  obtain ⟨hdown, hdrained, hwaking, hst, hseq⟩ := halting_halts
  obtain ⟨s', hs', -, -, -, -, -, hsv, -⟩ := hhalt 0 { target := .standby, stopped := true, off := false } halting
    rfl rfl rfl hdown (fun _ => hdrained) rfl hwaking hst
  have hsent := stateEntryHalt_txSeq
  rw [hs'] at hsent
  have hkept : s'.sv.txSeq = 7 := (congrArg Trust.txSeq hsv).trans hseq
  exact absurd (hkept.symm.trans hsent) (by decide)

end Sys2Proof.Proofs.StateEntry

/-! The doorbell of the command ring while a wake from SLEEP is being brought up (R289, R405). -/

namespace Sys2Proof.Proofs.Doorbell

open Sys2Proof Sys2Proof.Machine Sys2Proof.Safety Sys2Proof.Laws Sys2Proof.Proofs.Frames

/-- STANDBY, with the bring-up after a wake from SLEEP (source 0x0B) in progress and the command ring enabled. -/
def waking : State :=
  { State.reset with
    pd := { State.reset.pd with st := .standby, entry := none, wakeStatus := 0 }
    ct := { State.reset.ct with cur := some { scope := 0, src := 0x0B, merged := 0, inA := false, inB := false } }
    hl := { State.reset.hl with cmd := { Ring.reset with en := true, size := 8 } } }

theorem waking_takes : busy waking = false ∧ waking.hl.cmd.en = true ∧ (0 : Word).toNat < 2 ^ waking.hl.cmd.size ∧
    waking.pd.st = .standby ∧ waking.pd.entry = none ∧ rb waking .pdWakeEn 0 9 = true := by decide +kernel

/-- The doorbell records no source: the module is on its way out of SLEEP already. -/
theorem commandDoorbell_wakeStatus : (match exec (.commandDoorbell 0 true 0 0) waking with
    | .next s' => bitN s'.pd.wakeStatus 9
    | _ => true) = false := by decide +kernel

/-- Refutes O30: a doorbell in STANDBY is no wake source while a reset with source 0x0B is in progress. -/
theorem not_ringsAndFetch : ¬ Obligations.RingsAndFetch := by
  unfold Obligations.RingsAndFetch
  rintro ⟨hbell, -⟩
  obtain ⟨hbusy, hen, hv, hst, hentry, hwake⟩ := waking_takes
  obtain ⟨s', hs', -, -, -, hwoken, -⟩ := hbell 0 0 0 waking hbusy hen hv
  have hnone := commandDoorbell_wakeStatus
  rw [hs'] at hnone
  exact absurd ((hwoken hst hentry hwake).symm.trans hnone) (by decide)

end Sys2Proof.Proofs.Doorbell

/-! Errors in the fabric: a lane error, and an uncorrectable entry of the crosspoint table (R71, R73, R76). -/

namespace Sys2Proof.Proofs.FabricErrors

open Sys2Proof Sys2Proof.Machine Sys2Proof.Safety Sys2Proof.Laws
open Sys2Proof.Proofs.Frames Sys2Proof.Proofs.Reads

section
variable {s : State}

/-- A sink whose result is discarded has none, and no other sink gets one. -/
theorem tget_discarded (l : List Nat) (r : Tbl (Option Int)) (k : Nat) :
    tget none (l.foldl (fun t j => tput none t j none) r) k = if k ∈ l then none else tget none r k := by
  induction l generalizing r with
  | nil => simp
  | cons a l ih =>
    rw [List.foldl_cons, ih, tget_tput]
    by_cases h : k = a <;> simp [h]

@[simp] theorem discardSinks_mx (u : State) (l : List Nat) : (discardSinks u l).mx = { u.mx with
    res := l.foldl (fun t j => tput none t j none) u.mx.res
    clipNotes := u.mx.clipNotes.filter (fun c => !l.contains c.1) } := rfl

/-- Counting an error of a lane leaves the lanes that are spare. -/
theorem lanesIn_counted (l h : Nat) (st : LaneState) (n : Nat) :
    lanesIn (setLane s l { lane s l with errors := n }) h st = lanesIn s h st := by
  have hst : ∀ j, (lane (setLane s l { lane s l with errors := n }) j).st = (lane s j).st := fun j => by
    rw [lane_setLane]
    split
    · next hj => rw [hj]
    · rfl
  simp only [lanesIn, hst]

/-- With one lane on its way out, the spare is the first other one. -/
theorem spareFor_single {u : State} {l h : Nat} (hu : u.mx.retire = [l]) (hl : lanesIn u h .spare = lanesIn s h .spare) :
    spareFor u h = (lanesIn s h .spare).find? (fun j => j != l) := by
  unfold spareFor
  rw [hl]
  congr 1
  funext j
  by_cases hj : j = l <;> simp [hu, hj]

/-- The damage of an entry that is in use marks it lost. -/
theorem markLost_occupied {d : Damage} (h : occupied s.mx.xp (xpKey d.sink.val d.source.val) = true) : markLost s d =
    { s with mx := { s.mx with
      xp := tmod Xp.none s.mx.xp (xpKey d.sink.val d.source.val) (fun e => { e with lost := true })
      damaged := s.mx.damaged ++ [(xpKey d.sink.val d.source.val, d.pos.toNat, d.asRead.toNat)] } } :=
  if_neg (by simp [h])

end

/-- A lane error in a frame that computes, before its mark. -/
theorem exec_laneError {t : Frac} {l : Fin 64} {sinks : List Nat} {s : State} (hc : computing s = true)
    (hst : (lane s l.val).st = .scheduled) (herr : s.mx.laneErrs = []) (hret : s.mx.retire = []) (hm : s.fr.marked = false) :
    exec (.laneError t l sinks) s = .next (discardSinks { atT s t with mx := { s.mx with
      lane := (setLane s l.val { lane s l.val with errors := inc16 (lane s l.val).errors }).mx.lane
      retire := [l.val]
      laneErrs := [{ lane := l.val, sinks := sinks.eraseDups.filter (fun k => (workSinks s).contains k),
                     by_ := (lanesIn s (l.val / 32) .spare).find? (fun j => j != l.val), repeated := false }] } }
      (sinks.eraseDups.filter (fun k => (workSinks s).contains k))) := by
  have hwork : workSinks (atT s t) = workSinks s := rfl
  have hspare := spareFor_single (s := s) (l := l.val) (h := l.val / 32)
    (u := { atT s t with mx := { (setLane (atT s t) l.val { lane s l.val with errors := inc16 (lane s l.val).errors }).mx with
      retire := [l.val] } }) rfl (lanesIn_counted (s := atT s t) l.val _ _ _)
  have hcomp : computing (atT s t) = true := hc
  refine congrArg Host.Outcome.next ((if_neg (by simp [hst, hcomp])).trans ?_)
  simp only [lane_atT, hst, reduceCtorEq, if_false, hwork, setLane, atT_keeps, hm, hret, herr, Bool.false_eq_true, addLaneErr]
  simp only [setLane, atT_keeps, atT_now, atT_out, herr, hst] at hspare
  simp [hm, hspare]

/-- Settles O5: the lane counts the error and is on its way out, its sinks lose their results, and an entry that cannot be
corrected is lost. -/
theorem fabricErrors : Obligations.FabricErrors := by
  unfold Obligations.FabricErrors
  refine ⟨fun t l sinks s hc hst herr hret hm => ?_, fun t k n pos r s ho => ?_, fun t k n pos r s ho hc => ?_⟩
  · refine answers_eq (exec_laneError hc hst herr hret hm) rfl ⟨lane_setLane_same _ _ _, fun j hj => lane_setLane_ne _ _ hj,
      rfl, rfl, fun k hk hw => ?_, rfl, by simp [still_iff]⟩
    rw [discardSinks_mx, tget_discarded, if_pos (by simp [hk, hw])]
  · have hmark := markLost_occupied (s := atT s t) (d := { sink := k, source := n, pos := pos, asRead := r }) ho
    refine answers_eq rfl ((if_neg (by simpa using ho)).trans ((if_neg (by simp)).trans hmark)) ⟨rfl, by simp [still_iff]⟩
  · have hmark := markLost_occupied (s := atT s t) (d := { sink := k, source := n, pos := pos, asRead := r }) ho
    have hlost : (tget Xp.none (markLost (atT s t) { sink := k, source := n, pos := pos, asRead := r }).mx.xp
        (xpKey k.val n.val)).lost = true := by
      rw [hmark]
      simp [tmod]
    have hcomp : computing (markLost (atT s t) { sink := k, source := n, pos := pos, asRead := r }) = true := by
      rw [hmark]
      exact hc
    have hheld : isHeld (markLost (atT s t) { sink := k, source := n, pos := pos, asRead := r }) k.val = isHeld s k.val := by
      rw [hmark]
      rfl
    cases hk : isHeld s k.val
    · refine answers_eq rfl ((if_neg (by simpa using ho)).trans (if_pos (by simp [hcomp, hheld, hk]))) ⟨?_, fun _ => ?_, hlost, ?_⟩
      · simp [isHeld]
      · exact (tget_discarded [k.val] _ k.val).trans (if_pos (by simp))
      · simp [still_iff]
    · refine answers_eq rfl ((if_neg (by simpa using ho)).trans (if_neg (by simp [hheld, hk]))) ⟨hheld.trans hk,
        fun h => absurd h (by simp), hlost, by simp [still_iff]⟩

end Sys2Proof.Proofs.FabricErrors

/-! The write of MX_SLACK_FLOOR into a state whose register holds a reserved bit (R3, R4). -/

namespace Sys2Proof.Proofs.SlackFloor

open Sys2Proof Sys2Proof.Machine Sys2Proof.Safety Sys2Proof.Laws Sys2Proof.Proofs.Frames

/-- The register holds bit 16, which it has no field for. -/
def reservedSet : State := setReg State.reset .mxSlackFloor 0 0x10000

/-- The write of 0. -/
def zeroWrite : BarWrite := { bar2 := false, wide := false, off := 0x1002C, be := 0x0F, data := 0 }

theorem reservedSet_takes : writeTaken reservedSet 0 .host 0x1002C 0 := by decide +kernel

/-- A write keeps the bits that it cannot write. -/
theorem registerWrite_keepsReserved : (match exec (.registerWrite 0 .host zeroWrite) reservedSet with
    | .next s' => reg s' .mxSlackFloor 0
    | _ => 0) = 0x10000 := by decide +kernel

/-- Refutes O3: a write takes its value under its mask beside the bits the register held, and those need not be 0. -/
theorem not_registerWritesAndRows : ¬ Obligations.RegisterWritesAndRows := by
  unfold Obligations.RegisterWritesAndRows
  rintro ⟨-, hwrite, -⟩
  obtain ⟨s', hs', hregs, -⟩ := hwrite 0 .host 0 reservedSet reservedSet_takes
  have hkept := registerWrite_keepsReserved
  rw [show exec (.registerWrite 0 .host zeroWrite) reservedSet = .next s' from hs'] at hkept
  have hzero : reg s' .mxSlackFloor 0 = 0 := by
    rw [reg, hregs]
    exact reg_setReg_same _ _ _ _
  exact absurd (hzero.symm.trans hkept) (by decide)

end Sys2Proof.Proofs.SlackFloor

/-! An engine's frame, and the parameter window (R22, R23, R79, R90–R98). -/

namespace Sys2Proof.Proofs.EngineFrames

open Sys2Proof Sys2Proof.Machine Sys2Proof.Safety Sys2Proof.Laws
open Sys2Proof.Proofs.Frames Sys2Proof.Proofs.Reads Sys2Proof.Proofs.Sinks

/-! ### The input sinks of an engine -/

theorem settled_completeSink (s : State) {j k : Nat} (h : settled s k = true ∨ k = j) : settled (completeSink s j) k = true := by
  by_cases hk : k = j
  · subst hk
    cases hs : settled s k with
    | true => rw [completeSink_of_settled hs, hs]
    | false =>
      have hres : tget none (completeSink s k).mx.res k = some (sat32 (scaled (accOf s k) (scaleOf s k))) := by
        rw [tget_res_completeSink, if_pos rfl, resultAfter, if_neg (by simp [hs])]
      simp [settled, hres]
  · rw [settled_completeSink_ne hk]
    exact h.resolve_right hk

/-- Completing a list of sinks settles each of them. -/
theorem settled_completeSinks (l : List Nat) (s : State) {k : Nat} (h : settled s k = true ∨ k ∈ l) :
    settled (each l s completeSink) k = true := by
  induction l generalizing s with
  | nil => simpa [each] using h
  | cons j l ih =>
    refine ih (completeSink s j) ?_
    obtain h | h := h
    · exact .inl (settled_completeSink s (.inl h))
    · exact (List.mem_cons.mp h).imp_left (fun h => settled_completeSink s (.inr h))

/-- Completing sinks writes results and notes alone. -/
theorem completeSinks_mx (l : List Nat) (s : State) :
    ∃ r c, (each l s completeSink).mx = { s.mx with res := r, clipNotes := c } := by
  induction l generalizing s with
  | nil => exact ⟨_, _, rfl⟩
  | cons j l ih =>
    obtain ⟨r, c, h⟩ := completeSink_mx s j
    obtain ⟨r', c', h'⟩ := ih (completeSink s j)
    exact ⟨r', c', h'.trans (by rw [h])⟩

theorem sat32_bounds (x : Int) : -(2 ^ 31 : Int) ≤ sat32 x ∧ sat32 x < 2 ^ 31 := by
  rw [sat32_eq_clamp]
  omega

section
variable {s : State} {t : Frac}

/-- The eight input sinks of an engine (R78). -/
def inputSinks (e : Nat) : List Nat := (List.range 8).map (fun i => 0x730 + 8 * e + i)

theorem mem_inputSinks {e i : Nat} (h : i < 8) : 0x730 + 8 * e + i ∈ inputSinks e :=
  List.mem_map.mpr ⟨i, List.mem_range.mpr h, rfl⟩

theorem startEngine_eq (s : State) (e : Nat) : startEngine s e =
    setEng (each (inputSinks e) s completeSink) e { eng (each (inputSinks e) s completeSink) e with started := true } := rfl

theorem setEng_mx (u : State) (e : Nat) (x : Engine) : (setEng u e x).mx = u.mx := rfl

theorem startEngine_mx (s : State) (e : Nat) : (startEngine s e).mx = (each (inputSinks e) s completeSink).mx := by
  rw [startEngine_eq]
  exact setEng_mx _ _ _

theorem startEngine_fx (s : State) (e : Nat) : (startEngine s e).fx = (setEng s e { eng s e with started := true }).fx := by
  have hfx : (each (inputSinks e) s completeSink).fx = s.fx := by simp
  rw [startEngine_eq]
  simp only [setEng, eng, hfx]

/-- The input sinks of an engine that starts are settled (R23). -/
theorem startEngine_settles {e i : Nat} (hi : i < 8) : (tget none (startEngine s e).mx.res (0x730 + 8 * e + i)).isSome = true ∨
    isHeld s (0x730 + 8 * e + i) = true ∨ isShed s (0x730 + 8 * e + i) = true := by
  obtain ⟨r, c, hmx⟩ := completeSinks_mx (inputSinks e) s
  have hset := settled_completeSinks (inputSinks e) s (.inr (mem_inputSinks hi))
  rw [startEngine_mx]
  simp only [settled, isHeld, isShed, hmx, Bool.or_eq_true, or_assoc] at hset ⊢
  exact hset

/-- What the stages of an engine answer to its eight inputs (R79). -/
def engineAnswers (s : State) (e : Nat) (r : Recipe) : Tbl Int × List StageSt × Nat :=
  runStages r (reg s .fxEngBypass e).toNat 0 r.stages (eng s e).stages
    (tmk 0 ((List.range 8).map (fun i => (i, engineInput s (0x730 + 8 * e + i) / 8))))

/-- An engine's frame gives it outputs, state and counts, and completes it. -/
theorem runEngine_eq {e : Nat} {r : Recipe} (h : (eng s e).recipe = some r) : ∃ note clips, runEngine s e = setEng s e { eng s e with
    stages := (engineAnswers s e r).2.1
    out := ((List.range 8).map (fun o => tget 0 (engineAnswers s e r).1 (8 + o))).map (fun y => sat32 (8 * y))
    complete := true
    sat := satTo 0xFFFF ((eng s e).sat + (engineAnswers s e r).2.2)
    clips := clips
    clipNote := note } := by
  unfold runEngine
  dsimp only
  split
  · next hn => rw [h] at hn; exact absurd hn (by simp)
  · next q hq =>
    obtain rfl : q = r := Option.some.inj (hq.symm.trans h)
    exact ⟨_, _, rfl⟩

theorem length_map_range (f : Nat → Int) : (((List.range 8).map f).map (fun y => sat32 (8 * y))).length = 8 := by simp

theorem mem_sat32 {l : List Int} {y : Int} (h : y ∈ l.map (fun y => sat32 (8 * y))) : -(2 ^ 31 : Int) ≤ y ∧ y < 2 ^ 31 := by
  obtain ⟨z, -, rfl⟩ := List.mem_map.mp h
  exact sat32_bounds _

@[simp] theorem eng_delayCorrected (u : State) (n k : Nat) : eng (delayCorrected u n) k = eng u k := rfl

/-! ### The parameter window -/

/-- An access of the owner of the engines named, with no long operation on. -/
theorem windowWrite_taken {o : Owner} {off : Nat} {gs : List Nat} {f : State → State} (hh : held s = false)
    (ho : ∀ g ∈ gs, owns s o g = true) : windowWrite (atT s t) o off gs f = f (atT s t) := by
  have hl : gs.filter (fun g => !owns (atT s t) o g) = [] := List.filter_eq_nil_iff.mpr fun g hg => by
    have hg' : owns (atT s t) o g = true := ho g hg
    simp [hg']
  have hh' : held (atT s t) = false := hh
  unfold windowWrite
  simp only [hl, hh', List.isEmpty_nil, Bool.not_true, Bool.false_eq_true, if_false]

@[simp] theorem shadow_setShadow_same (x : Engine) (o : Owner) (h : Shadow) : shadow (setShadow x o h) o = h := by cases o <;> rfl

theorem shadow_setShadow_ne (x : Engine) {o p : Owner} (h : Shadow) (hp : p ≠ o) : shadow (setShadow x o h) p = shadow x p := by
  cases o <;> cases p <;> first | rfl | exact absurd rfl hp

@[simp] theorem setShadow_recipe (x : Engine) (o : Owner) (h : Shadow) : (setShadow x o h).recipe = x.recipe := by cases o <;> rfl

@[simp] theorem paddr_atT (o : Owner) : paddr (atT s t) o = paddr s o := by cases o <;> rfl

@[simp] theorem paddr_setPaddr (u : State) (o : Owner) (p : Paddr) : paddr (setPaddr u o p) o = p := by cases o <;> rfl

/-- An access captures the attributes of its word. -/
theorem accessWord_fx (u : State) (o : Owner) (p : Paddr) :
    (accessWord u o p).fx.eng = u.fx.eng ∧ (accessWord u o p).fx.pattr = wordPattr (eng u p.eng).recipe p.word := by
  unfold accessWord
  dsimp only
  split
  · cases o <;> exact ⟨rfl, rfl⟩
  · exact ⟨rfl, rfl⟩

@[simp] theorem eng_accessWord (u : State) (o : Owner) (p : Paddr) (k : Nat) : eng (accessWord u o p) k = eng u k := by
  rw [eng, (accessWord_fx u o p).1, eng]

/-- With AUTO the address moves on to the next word. -/
theorem paddr_accessWord (u : State) (o : Owner) : paddr (accessWord u o (paddr u o)) o =
    { paddr u o with word := if (paddr u o).auto then ((paddr u o).word + 1) % 4096 else (paddr u o).word } := by
  unfold accessWord
  dsimp only
  by_cases h : (paddr u o).auto = true
  · rw [if_pos h, if_pos h, paddr_setPaddr]
  · rw [if_neg h, if_neg h]
    cases o <;> rfl

/-- A write that the word takes goes to the owner's shadow. -/
theorem writePdata_taken {u : State} {o : Owner} {v : Word}
    (h : paramOk (eng u (paddr u o).eng).recipe (paddr u o).word v = true) : writePdata u o v =
      setEng (accessWord u o (paddr u o)) (paddr u o).eng (setShadow (eng u (paddr u o).eng) o
        { words := tput 0 (shadow (eng u (paddr u o).eng) o).words (paddr u o).word v
          dirty := if (shadow (eng u (paddr u o).eng) o).dirty.contains (paddr u o).word then (shadow (eng u (paddr u o).eng) o).dirty
            else (shadow (eng u (paddr u o).eng) o).dirty ++ [(paddr u o).word] }) :=
  if_pos h

/-- A write that the word does not take is counted and, once in a frame, reported. -/
theorem writePdata_refused {u : State} {o : Owner} {v : Word}
    (h : paramOk (eng u (paddr u o).eng).recipe (paddr u o).word v = false) : writePdata u o v =
      refuseParam (accessWord u o (paddr u o)) (paddr u o).eng 1 (paddr u o).word
        (wordPattr (eng u (paddr u o).eng).recipe (paddr u o).word) :=
  if_neg (by simp [h])

theorem refuseParam_tells {u : State} {e n w a : Nat} (h : (eng u e).refusedAt ≠ u.fr.fn + 1) : refuseParam u e n w a =
    emit (setEng u e { eng u e with refused := satTo 0xFFFFFFFF ((eng u e).refused + n), refusedAt := u.fr.fn + 1 }) 0x0206 e
      (pay [(0, 2, w), (2, 1, a), (4, 4, satTo 0xFFFFFFFF ((eng u e).refused + n))]) := by
  unfold refuseParam
  dsimp only
  rw [if_neg h, eng_setEng_same]

/-! ### FX_PCOMMIT -/

/-- A commit of one engine names that engine alone. -/
theorem engines_of_bit (e : Fin 16) : engines.filter (fun k => bit (BitVec.ofNat 32 (2 ^ e.val)) k) = [e.val] ∧
    bit (BitVec.ofNat 32 (2 ^ e.val)) 31 = false := by
  revert e
  decide

theorem stagedSets_atT (o : Owner) : stagedSets (atT s t) o = stagedSets s o := rfl

theorem mirrors_atT (g : Nat) : mirrors (atT s t) g = mirrors s g := rfl

end

/-- Settles O9: an engine's frame from its inputs to its failure, and each access to the parameter window. -/
theorem engineFramesAndParameters : Obligations.EngineFramesAndParameters := by
  unfold Obligations.EngineFramesAndParameters
  refine ⟨fun t e s hc hr hs => ?_, fun t e n s hc hr hs hcomp => ?_, fun t e k s hc hr hcomp => ?_,
    fun t e k n cell block off r st s hc hr hcomp hrec hw hst hlost hbyp he => ?_, fun t o v s hh ho ha hp => ?_,
    fun t o v s hh ho hp hat he => ?_, fun t o r s hrec hw hlock hview => ?_, fun t o e s hh ho hst hset hm => ?_,
    fun t o e s hh ho hbad => ?_⟩
  · have hc' : computing (atT s t) = true := hc
    refine answers_eq rfl (if_neg (by simp [hc', hr, hs])) ⟨?_, fun i hi => startEngine_settles hi, ?_, ?_, by simp [still_iff]⟩
    · rw [startEngine_fx]
      rfl
    · obtain ⟨r, c, hmx⟩ := completeSinks_mx (inputSinks e.val) (atT s t)
      rw [startEngine_mx, hmx]
      rfl
    · obtain ⟨r, c, hmx⟩ := completeSinks_mx (inputSinks e.val) (atT s t)
      rw [startEngine_mx, hmx]
      rfl
  · have hc' : computing (atT s t) = true := hc
    obtain ⟨r, hrec⟩ := Option.isSome_iff_exists.mp (show (eng s e.val).recipe.isSome = true by
      simp only [engRuns, Bool.and_eq_true] at hr
      exact hr.2)
    have hst : (eng s e.val).st = .running := by
      simp only [engRuns, Bool.and_eq_true, beq_iff_eq] at hr
      exact hr.1.1
    obtain ⟨note, clips, hrun⟩ := runEngine_eq (s := atT s t) (e := e.val) (r := r) hrec
    refine answers_eq rfl ((if_neg (by simp [hc', hr, hs, hcomp])).trans (congrArg (delayCorrected · n) hrun)) ⟨?_, ?_, ?_, ?_, ?_, ?_, ?_, ?_⟩
    · rw [eng_delayCorrected, eng_setEng_same]
    · rw [eng_delayCorrected, eng_setEng_same]
      exact length_map_range _
    · rw [eng_delayCorrected, eng_setEng_same]
      exact fun y hy => mem_sat32 hy
    · rw [eng_delayCorrected, eng_setEng_same, eng_atT]
    · rw [eng_delayCorrected, eng_setEng_same, eng_atT]
      exact hst
    · intro k hk
      rw [eng_delayCorrected, eng_setEng_ne _ _ hk, eng_atT]
    · rfl
    · simp [still_iff]
  · have hc' : computing (atT s t) = true := hc
    exact answers_eq rfl (if_neg (by simp [hc', hr, hcomp])) ⟨rfl, by simp [still_iff]⟩
  · have hc' : computing (atT s t) = true := hc
    have hexec : exec (.delayUncorrectable t e k n) s = .next (emit { (setEng (atT s t) e.val { eng s e.val with
          stages := (eng s e.val).stages.set k.val { st with line := tput 0 st.line cell 0, lost := st.lost ++ [cell] } }) with
        fx := { (setEng s e.val { eng s e.val with
          stages := (eng s e.val).stages.set k.val { st with line := tput 0 st.line cell 0, lost := st.lost ++ [cell] } }).fx with
            eccUncorrected := inc16 s.fx.eccUncorrected } } 0x0208 e.val (pay [(0, 2, block), (2, 2, off), (4, 1, k.val)])) := by
      simp only [exec, execDelayUncorrectable, eng_atT, hrec, Option.bind_some, hw, hst]
      exact congrArg Host.Outcome.next (if_neg (by simp [hr, hc', hcomp, hlost, hbyp]))
    exact answers_eq hexec rfl ⟨by simp, raised_emit_of (s := s) (k := 0) he rfl rfl rfl, by simp [only_iff]⟩
  · have hexec := congrArg (Host.Outcome.next : State → Res) ((windowWrite_taken (t := t) (off := 0x20014) (gs := [1 + (paddr s o).eng])
      (f := fun u => writePdata u o v) hh (by simpa using ho)).trans (writePdata_taken (by simpa using hp)))
    refine answers_eq hexec rfl ?_
    simp only [paddr_atT, eng_atT]
    refine ⟨by simp, ?_, fun w hw => ?_, by simp, fun p hp => ?_, fun k hk => ?_, by simp [still_iff]⟩
    · rw [eng_setEng_same, shadow_setShadow_same]
      dsimp only
      split
      · next h => exact List.contains_iff_mem.mp h
      · simp
    · rw [eng_setEng_same, shadow_setShadow_same]
      exact tget_tput_ne _ _ _ hw
    · rw [eng_setEng_same, shadow_setShadow_ne _ _ hp]
    · rw [eng_setEng_ne _ _ hk, eng_accessWord, eng_atT]
  · have hexec := congrArg (Host.Outcome.next : State → Res) ((windowWrite_taken (t := t) (off := 0x20014) (gs := [1 + (paddr s o).eng])
      (f := fun u => writePdata u o v) hh (by simpa using ho)).trans (writePdata_refused (by simpa using hp)))
    simp only [paddr_atT, eng_atT] at hexec
    rw [refuseParam_tells (by simpa using hat)] at hexec
    simp only [eng_accessWord, accessWord_keeps, eng_atT, atT_keeps] at hexec
    refine answers_eq hexec rfl ⟨by simp, ?_, by simp [only_iff]⟩
    exact raised_emit_of (s := s) (k := 0) he (by simp) (by simp) (by simp)
  · have hexec : exec (.fxPdataAccess t o none) s =
        .next (reading (accessWord (atT s t) o (paddr s o)) (tget 0 r.words (paddr s o).word)) := by
      have ha : wordAttr (some r) (paddr s o).word = tget 0 r.lock (paddr s o).word := if_pos hw
      have hlow : ¬ (tget 0 r.lock (paddr s o).word = 2 ∨ tget 0 r.lock (paddr s o).word = 3) := by omega
      simp [exec, execFxPdataAccess, readPdata, hrec, ha, hlow, hview]
    have haddr := paddr_accessWord (atT s t) o
    rw [paddr_atT] at haddr
    refine answers_eq hexec rfl ⟨by simp [reading, push], (accessWord_fx _ _ _).1, ?_, ?_, (exact_one_iff _ _ _).mpr (by simp)⟩
    · exact (accessWord_fx _ _ _).2.trans (by rw [eng_atT, hrec])
    · exact (show paddr (reading _ _) o = paddr (accessWord (atT s t) o (paddr s o)) o by cases o <;> rfl).trans haddr
  · obtain ⟨hes, h31⟩ := engines_of_bit e
    have hgood : [e.val].any (fun k => (stagedSets (atT s t) o).contains k || (eng (atT s t) k).st != .running) = false := by
      simp [stagedSets_atT, hst, hset]
    have hexec : exec (.fxPcommit t o (BitVec.ofNat 32 (2 ^ e.val))) s = .next (stage (setEng (atT s t) e.val
        (setShadow (eng s e.val) o { shadow (eng s e.val) o with dirty := [] })) o
        (.params [(e.val, dirtySet (eng s e.val) o)] false)) := by
      refine congrArg Host.Outcome.next ?_
      rw [hes, windowWrite_taken hh (by simpa [Nat.add_comm] using ho)]
      unfold pcommit
      rw [hes, h31]
      refine (if_neg (by simp)).trans ((if_neg (Bool.not_eq_true _ ▸ hgood)).trans ((if_neg ?_).trans ?_))
      · simp only [each, List.foldl_cons, List.foldl_nil, List.all_cons, List.all_nil, Bool.and_true, Bool.and_eq_true, not_and]
        exact fun _ => Bool.not_eq_true _ ▸ hm
      · rfl
    exact answers_eq hexec rfl ⟨rfl, rfl, by simp [still_iff]⟩
  · obtain ⟨hes, -⟩ := engines_of_bit e
    have hbad' : [e.val].any (fun k => (stagedSets (atT s t) o).contains k || (eng (atT s t) k).st != .running) = true := by
      obtain h | h := hbad
      · simp [h]
      · simp [stagedSets_atT, h]
    have hexec : exec (.fxPcommit t o (BitVec.ofNat 32 (2 ^ e.val))) s =
        .next { atT s t with fx := { s.fx with pcRefused := true } } := by
      refine congrArg Host.Outcome.next ?_
      rw [hes, windowWrite_taken hh (by simpa [Nat.add_comm] using ho)]
      unfold pcommit
      rw [hes]
      exact (if_neg (by simp)).trans (if_pos hbad')
    exact answers_eq hexec rfl ⟨rfl, by simp [still_iff]⟩

end Sys2Proof.Proofs.EngineFrames

/-! The arithmetic of scale targets and glides (R56, R57). -/

namespace Sys2Proof.Proofs.Glides

open Sys2Proof Sys2Proof.Machine Sys2Proof.Safety

/-! ### The integer square root -/

/-- `r` is the integer square root of `n`. -/
def IsRoot (n r : Nat) : Prop := r * r ≤ n ∧ n < (r + 1) * (r + 1)

/-- Bit by bit, the root lies between what is found and what is found plus every bit still to come. -/
theorem isRoot_isqrtAux (n b : Nat) : ∀ r, r * r ≤ n → n < (r + 2 ^ (b + 1)) * (r + 2 ^ (b + 1)) → IsRoot n (isqrtAux n b r) := by
  induction b with
  | zero =>
    intro r hlow hhigh
    unfold isqrtAux
    split
    · next h => exact ⟨h, by simpa [Nat.add_assoc] using hhigh⟩
    · next h => exact ⟨hlow, Nat.lt_of_not_le h⟩
  | succ b ih =>
    intro r hlow hhigh
    have hpow : 2 ^ (b + 1 + 1) = 2 ^ (b + 1) + 2 ^ (b + 1) := by omega
    unfold isqrtAux
    dsimp only
    split
    · next h => exact ih _ h (by rw [Nat.add_assoc, ← hpow]; exact hhigh)
    · next h => exact ih _ hlow (Nat.lt_of_not_le h)

theorem isRoot_isqrt {n : Nat} (h : n < 2 ^ 130) : IsRoot n (isqrt n) :=
  isRoot_isqrtAux n 64 0 (Nat.zero_le _) (by simpa using h)

/-- The equal-power scale of `n` sources is 2^24 over the root of `n`, rounded to the nearest (R56). -/
theorem eqpow_nearest {n : Nat} (h : 0 < n) : (2 * eqpow n - 1) ^ 2 * n ≤ 2 ^ 48 ∧ 2 ^ 48 < (2 * eqpow n + 1) ^ 2 * n := by
  have hquot : 2 ^ 48 / n < 2 ^ 130 := Nat.lt_of_le_of_lt (Nat.div_le_self _ _) (by decide)
  obtain ⟨hlow, hhigh⟩ := isRoot_isqrt hquot
  have hdown : 2 * eqpow n - 1 ≤ isqrt (2 ^ 48 / n) := by
    unfold eqpow
    omega
  have hup : isqrt (2 ^ 48 / n) + 1 ≤ 2 * eqpow n + 1 := by
    unfold eqpow
    omega
  constructor
  · calc (2 * eqpow n - 1) ^ 2 * n ≤ isqrt (2 ^ 48 / n) ^ 2 * n := Nat.mul_le_mul_right _ (Nat.pow_le_pow_left hdown 2)
      _ = isqrt (2 ^ 48 / n) * isqrt (2 ^ 48 / n) * n := by rw [Nat.pow_two]
      _ ≤ 2 ^ 48 / n * n := Nat.mul_le_mul_right _ hlow
      _ ≤ 2 ^ 48 := Nat.div_mul_le_self _ _
  · calc 2 ^ 48 < (2 ^ 48 / n + 1) * n := Nat.mul_comm n _ ▸ Nat.lt_mul_div_succ _ h
      _ ≤ (isqrt (2 ^ 48 / n) + 1) * (isqrt (2 ^ 48 / n) + 1) * n := Nat.mul_le_mul_right _ hhigh
      _ = (isqrt (2 ^ 48 / n) + 1) ^ 2 * n := by rw [Nat.pow_two]
      _ ≤ (2 * eqpow n + 1) ^ 2 * n := Nat.mul_le_mul_right _ (Nat.pow_le_pow_left hup 2)

/-! ### Glides -/

theorem glideAfter_add (m n : Nat) (g : Glide) : glideAfter (m + n) g = glideAfter n (glideAfter m g) := by
  induction m generalizing g with
  | zero => rw [Nat.zero_add]; rfl
  | succ m ih => rw [Nat.succ_add]; exact ih _

/-- Before its 64th strobe a glide is one step on at each. -/
theorem glideAfter_moving (n : Nat) (g : Glide) (h : g.j + n ≤ 63) : glideAfter n g = { g with j := g.j + n } := by
  induction n generalizing g with
  | zero => rfl
  | succ n ih =>
    have hstep : glideStep g = { g with j := g.j + 1 } := if_pos (by omega)
    rw [glideAfter, hstep, ih _ (by dsimp only; omega)]
    simp only [Nat.add_assoc, Nat.add_comm 1]

/-- A glide that has reached its target stays. -/
theorem glideAfter_done (n m : Nat) : glideAfter n { ms := m, mt := m, j := 64 } = { ms := m, mt := m, j := 64 } := by
  induction n with
  | zero => rfl
  | succ n ih => exact ih

/-- The 64th strobe brings a glide to its target. -/
theorem glideAfter_64 {g : Glide} (h : g.j = 0) : glideAfter 64 g = { ms := g.mt, mt := g.mt, j := 64 } := by
  rw [show 64 = 63 + 1 from rfl, glideAfter_add, glideAfter_moving 63 g (by omega), glideAfter, glideAfter]
  exact if_neg (by simp [h])

/-- Settles O8: the scale targets, and a glide that moves for 64 strobes and stays. -/
theorem scaleAndGlide : Obligations.ScaleAndGlide := by
  unfold Obligations.ScaleAndGlide
  refine ⟨fun n h _ => eqpow_nearest h, fun n h => ?_, fun m => rfl, fun g n hj hn => ?_, fun g n hj hn => ?_⟩
  · simp [scaleTarget, Nat.pos_iff_ne_zero.mp h]
  · rw [glideAfter_moving n g (by omega), glideScale, hj, Nat.zero_add]
  · obtain ⟨m, rfl⟩ := Nat.exists_eq_add_of_le hn
    rw [glideAfter_add, glideAfter_64 hj, glideAfter_done, glideScale]
    simp

end Sys2Proof.Proofs.Glides

/-! A write kept in STANDBY while its wake source is not enabled (R401, R407). -/

namespace Sys2Proof.Proofs.StandbyWrite

open Sys2Proof Sys2Proof.Machine Sys2Proof.Safety Sys2Proof.Laws Sys2Proof.Proofs.Frames

/-- STANDBY, with no wake source enabled. -/
def sleeping : State :=
  let s := { State.reset with
    pd := { State.reset.pd with on := 0x003, st := .standby, entry := none, osc := 0 }
    ct := { State.reset.ct with cur := none, phase := .done } }
  setReg s .pdWakeEn 0 0

/-- A REG_WRITE of one register. -/
def oneWrite : Bytes := [0x2C, 0x00, 0x01, 0, 0, 0, 0]

/-- The transaction that carries it, one oscillator cycle after the last access to the clock. -/
def oneTx : TwTx :=
  { wr := (BitVec.ofNat 8 oneWrite.length :: oneWrite) ++ [crc8 ([addrByte sleeping false, 0x03, BitVec.ofNat 8 oneWrite.length] ++ oneWrite)]
    rd := none, fin := .stop, early := false, cycles := 1 }

theorem sleeping_takes : twReady sleeping = true ∧ busy sleeping = false ∧ entering sleeping = false ∧ sleeping.pd.st = .standby ∧
    rb sleeping .pdWakeEn 0 3 = false ∧ regWriteCount oneWrite.length = true ∧ sleeping.pd.osc = 0 := by decide +kernel

/-- The oscillator's cycles up to the write are counted all the same. -/
theorem twRegWrite_osc : (match exec (.twRegWrite 0 oneTx .quiet) sleeping with
    | .next s' => s'.pd.osc
    | _ => 0) = 1 := by decide +kernel

/-- Refutes O36: a write kept in STANDBY brings the real-time clock up to date, also when it wakes nothing. -/
theorem not_blockWrites : ¬ Obligations.BlockWrites := by
  unfold Obligations.BlockWrites
  rintro ⟨-, -, -, -, hstandby, -⟩
  obtain ⟨hready, hbusy, hentry, hst, hwake, hcount, hosc⟩ := sleeping_takes
  obtain ⟨s', hs', -, -, hkept, -⟩ := hstandby 0 oneTx .quiet oneWrite sleeping
    ⟨hready, hbusy, hentry, by decide, rfl, rfl, rfl⟩ hcount hst
  have hcounted := twRegWrite_osc
  rw [hs'] at hcounted
  have hsame : s'.pd.osc = 0 := (congrArg Machine.Domains.osc (hkept hwake)).trans hosc
  exact absurd (hsame.symm.trans hcounted) (by decide)

end Sys2Proof.Proofs.StandbyWrite

/-! Two-wire reads and the two-wire buffer (R343, R346, R350, R351). -/

namespace Sys2Proof.Proofs.BusReads

open Sys2Proof Sys2Proof.Machine Sys2Proof.Safety Sys2Proof.Laws
open Sys2Proof.Proofs.Frames Sys2Proof.Proofs.Reads Sys2Proof.Proofs.ByteStrings

/-! ### The buffer -/

/-- The buffer after a string was written from an offset upward, byte by byte. -/
def bytesAt (l : List Host.Cell) (o : Nat) : Bytes → Nat → List Host.Cell
  | [], _ => l
  | b :: r, i => bytesAt (tput 0 l (o + i) b) o r (i + 1)

theorem bufWrite_eq_bytesAt (o : Nat) (b : Bytes) (l : List Host.Cell) (i : Nat) :
    (b.zip (List.range' i b.length)).foldl (fun l e => tput 0 l (o + e.2) e.1) l = bytesAt l o b i := by
  induction b generalizing l i with
  | nil => rfl
  | cons a b ih =>
    rw [List.length_cons, List.range'_succ, List.zip_cons_cons, List.foldl_cons, ih]
    rfl

/-- A byte of the string is read where it was written, and no other byte changes. -/
theorem tget_bytesAt (o : Nat) (b : Bytes) (l : List Host.Cell) (i k : Nat) :
    tget 0 (bytesAt l o b i) k = if o + i ≤ k ∧ k < o + i + b.length then b.getD (k - (o + i)) 0 else tget 0 l k := by
  induction b generalizing l i with
  | nil =>
    rw [if_neg (by simp)]
    rfl
  | cons a b ih =>
    rw [bytesAt, ih, tget_tput]
    rcases Nat.lt_trichotomy k (o + i) with h | h | h
    · rw [if_neg (by omega), if_neg (by omega), if_neg (by omega)]
    · subst h
      rw [if_neg (by omega), if_pos rfl, if_pos (by simp), Nat.sub_self]
      rfl
    · have hsub : k - (o + i) = (k - (o + (i + 1))) + 1 := by omega
      rw [hsub, List.getD_cons_succ]
      by_cases hin : k < o + i + (b.length + 1)
      · rw [if_pos (by omega), if_pos (by simp; omega)]
      · rw [if_neg (by omega), if_neg (by omega), if_neg (by simp; omega)]

theorem tget_bufWrite (l : List Host.Cell) (o : Nat) (b : Bytes) (k : Nat) :
    tget 0 (bufWrite l o b) k = if o ≤ k ∧ k < o + b.length then b.getD (k - o) 0 else tget 0 l k := by
  rw [bufWrite, List.range_eq_range', bufWrite_eq_bytesAt, tget_bytesAt]
  rfl

theorem bufRead_bufWrite_same (l : List Host.Cell) (o : Nat) (b : Bytes) : bufRead (bufWrite l o b) o b.length = b := by
  refine List.ext_getElem (by simp [bufRead]) fun i hi hb => ?_
  simp only [bufRead, List.getElem_map, List.getElem_range]
  rw [tget_bufWrite, if_pos ⟨Nat.le_add_right o i, Nat.add_lt_add_left hb o⟩, Nat.add_sub_cancel_left]
  exact List.getD_eq_getElem b 0 hb

theorem bufRead_bufWrite_other (l : List Host.Cell) {o k : Nat} {b : Bytes} (h : k + 1 ≤ o ∨ o + b.length ≤ k) :
    bufRead (bufWrite l o b) k 1 = bufRead l k 1 := by
  have hk : tget 0 (bufWrite l o b) k = tget 0 l k := by
    rw [tget_bufWrite, if_neg (by omega)]
  simp only [bufRead, List.range_one, List.map_cons, List.map_nil, Nat.add_zero, hk]

/-! ### Reads -/

section
variable {s u : State} {t : Frac} {x : TwTx} {n : Nat}

/-- What a read answers, from a state at the same address. -/
theorem twAnswer_eq (h : u.ct = s.ct) (code : Byte) (x : TwTx) (n : Nat) (resp : Bytes) :
    twAnswer u code x n resp = push u (.twSend (readAnswer s code x.wr resp n)) := by
  have ha : ∀ r, addrByte u r = addrByte s r := fun r => by simp only [addrByte, twAddr, h]
  simp only [twAnswer, ha]

/-- A read code without a write part answers. -/
theorem blockRead_answers (hr : twReady s = true) (hw : x.wr = []) (hn : x.rd = some n) (code : Byte) {k : State → State × Bytes}
    {resp : Bytes} (hk : k (atT s t) = (u, resp)) (hu : u.ct = s.ct) : blockRead (atT s t) code x k =
      push u (.twSend (readAnswer s code [] resp n)) := by
  have hr' : twReady (atT s t) = true := hr
  unfold blockRead
  simp only [hr', hw, hn, hk, Bool.not_true, Bool.false_eq_true, if_false, List.isEmpty_nil]
  rw [twAnswer_eq hu, hw]

/-- A process call whose write part is whole answers. -/
theorem procCall_answers {c : Byte} {d : Bytes} {w : Nat} (hr : twReady s = true) (hw : x.wr = c :: d) (hc : c.toNat = w)
    (hd : d.length = w) (hn : x.rd = some n) (code : Byte) (k : State → Bytes → Bytes) :
    procCall (atT s t) code x w k = push (atT s t) (.twSend (readAnswer s code x.wr (k (atT s t) d) n)) := by
  have hr' : twReady (atT s t) = true := hr
  unfold procCall
  simp only [hr', hw, hn, hc, hd, Bool.not_true, Bool.false_eq_true, if_false, bne_self_eq_false, Nat.lt_irrefl]
  rw [twAnswer_eq (s := s) (u := atT s t) rfl, hw]

/-- Attention moves what calls it, and the queue and the rest stay. -/
theorem followAttention_tw (u : State) : (followAttention u).tw.queue = u.tw.queue ∧ (followAttention u).tw.lost = u.tw.lost ∧
    busRest (followAttention u).tw = busRest u.tw := by
  unfold followAttention
  dsimp only
  split <;> split <;> exact ⟨rfl, rfl, rfl⟩

theorem twFlush_idle (h : u.tw.lost = 0 ∨ 63 ≤ u.tw.queue.length) : twFlush u = u := by
  refine if_neg ?_
  simp only [Bool.and_eq_true, bne_iff_ne, decide_eq_true_eq, not_and]
  omega

theorem twFlush_lost (h : u.tw.lost ≠ 0) (hl : u.tw.queue.length ≤ 62) : twFlush u = { u with
    tw := { u.tw with queue := u.tw.queue ++ [twLost u], lost := 0, lostFirst := 0, lostLast := 0, armed := true } } :=
  if_pos (by simp [h, hl])

/-- EVENT_READ takes the oldest copy. -/
theorem exec_twEventRead {e : Event} {r : List Event} (hr : twReady s = true) (hw : x.wr = []) (hn : x.rd = some n)
    (hq : s.tw.queue = e :: r) : exec (.twEventRead t x) s = .next (push
      (followAttention (twFlush (answered { atT s t with tw := { s.tw with queue := r } })))
      (.twSend (readAnswer s 0x20 [] (32 :: eventBytes e false) n))) := by
  refine congrArg Host.Outcome.next (blockRead_answers hr hw hn 0x20 ?_ (by simp))
  simp only [atT_keeps, hq]

end

/-- Settles O37: every read by what it answers and what it takes. -/
theorem busReads : Obligations.BusReads := by
  unfold Obligations.BusReads
  refine ⟨fun t x n s hr hw hn => ?_, fun t x n e r s hr hw hn hq hl => ?_, fun t x n e r s hr hw hn hq hl hlen => ?_,
    fun t x n s hr hw hn hq => ?_, fun t x n c s hr hw hn hres => ?_, fun t x n o k s hr ho hk hok hw hn => ?_,
    fun t x r n o s hr h4 ho hw hn => ?_, fun t code s hr hc => ?_,
    fun o b l k hb => ⟨bufRead_bufWrite_same l o b, fun h => bufRead_bufWrite_other l h⟩⟩
  · exact answers_eq rfl (blockRead_answers hr hw hn 0x21 rfl rfl) ⟨rfl, rfl, rfl, rfl, (exact_one_iff _ _ _).mpr (by simp [answered])⟩
  · obtain ⟨hqueue, -, hrest⟩ := followAttention_tw (answered { atT s t with tw := { s.tw with queue := r } })
    have hexec := exec_twEventRead (t := t) hr hw hn hq
    rw [twFlush_idle (by exact hl)] at hexec
    refine answers_eq hexec rfl ⟨by simp [push], hqueue, hrest, (exact_one_iff _ _ _).mpr (by simp [answered])⟩
  · have hexec := exec_twEventRead (t := t) hr hw hn hq
    rw [twFlush_lost (by exact hl) (by exact hlen)] at hexec
    obtain ⟨hqueue, hlost, hrest⟩ := followAttention_tw { answered { atT s t with tw := { s.tw with queue := r } } with
      tw := { (answered { atT s t with tw := { s.tw with queue := r } }).tw with
        queue := r ++ [twLost (answered { atT s t with tw := { s.tw with queue := r } })], lost := 0, lostFirst := 0,
        lostLast := 0, armed := true } }
    refine answers_eq hexec rfl ⟨by simp [push], hqueue, hlost, hrest, (exact_one_iff _ _ _).mpr (by simp [answered])⟩
  · have hk : execTwEventRead t x s = .next (push (answered (atT s t)) (.twSend (readAnswer s 0x20 [] [0] n))) := by
      refine congrArg Host.Outcome.next (blockRead_answers hr hw hn 0x20 ?_ (by simp [answered]))
      simp only [atT_keeps, hq]
    exact answers_eq hk rfl ⟨rfl, rfl, hq, (exact_one_iff _ _ _).mpr (by simp [answered])⟩
  · have hk : execTwCmdResult t x s = .next (push (followAttention (answered { atT s t with
        tw := { s.tw with resultPhase := false, resultReady := false } }))
        (.twSend (readAnswer s 0x11 [] (16 :: completionBytes c s.tw.resultPhase) n))) := by
      refine congrArg Host.Outcome.next (blockRead_answers hr hw hn 0x11 ?_ (by simp))
      simp only [atT_keeps, hres]
    obtain ⟨hqueue, -, hrest⟩ := followAttention_tw (answered { atT s t with
      tw := { s.tw with resultPhase := false, resultReady := false } })
    exact answers_eq hk rfl ⟨by simp [push], hrest, hqueue, (exact_one_iff _ _ _).mpr (by simp [answered])⟩
  · have h0 : leAt (toLE 2 o ++ toLE 1 k) 0 2 = o := leAt_toLE_head ho
    have h2 : leAt (toLE 2 o ++ toLE 1 k) 2 1 = k := by
      rw [leAt_skip (by simp), length_toLE, ← List.append_nil (toLE 1 k)]
      exact leAt_toLE_head hk
    refine answers_eq rfl (procCall_answers hr hw rfl (by simp) hn 0x13 _) ⟨?_, ?_⟩
    · simp only [h0, h2, if_neg (show ¬ 65536 < o + k by omega)]
      rfl
    · exact fun p => by cases p <;> rfl
  · have h0 : leAt (toLE 3 o ++ [1]) 0 3 = o := leAt_toLE_head (by omega)
    have h3 : leAt (toLE 3 o ++ [1]) 3 1 = 1 := by
      rw [leAt_skip (by simp), length_toLE]
      rfl
    have hread : regRead (atT s t) r (toLE 3 o ++ [1]) = ((readAt (atT s t) .tw r o).1, 4 :: toLE 4 (readAt (atT s t) .tw r o).2.toNat) := by
      have hbad : ¬ (o % 4 != 0 || decide (1 = 0) || decide (8 < 1) || decide (0x100000 < o + 4 * 1)) = true := by
        simp [h4]
        omega
      unfold regRead
      simp only [h0, h3]
      exact (if_neg hbad).trans (by simp only [readRegs, List.append_nil]; rfl)
    have hdone : (twReady (atT s t) && x.rd.isSome && x.wr.length == 5 && x.wr.head? == some 4) = true := by
      have hr' : twReady (atT s t) = true := hr
      simp [hr', hn, hw]
    refine answers_eq rfl (if_pos hdone) ?_
    have hcall := procCall_answers (t := t) (w := 4) hr hw rfl (by simp) hn 0x02 (fun _ _ => (regRead (atT s t) r (x.wr.drop 1)).2)
    rw [hcall, hw, List.drop_one, List.tail_cons, hread]
    rfl
  · have hc' : ¬ ([0x02, 0x03, 0x10, 0x11, 0x12, 0x13, 0x20, 0x21, 0x3F].contains code.toNat) = true := by
      rwa [List.contains_iff_mem]
    have hr' : twReady (atT s t) = true := hr
    exact answers_eq rfl ((if_neg (by simp [hr'])).trans (if_neg hc')) ⟨rfl, rfl, (exact_one_iff _ _ _).mpr (by simp)⟩

end Sys2Proof.Proofs.BusReads

/-! The end of a long operation of the Pantry (R300, R385, R386). -/

namespace Sys2Proof.Proofs.LongEnds

open Sys2Proof Sys2Proof.Machine Sys2Proof.Safety Sys2Proof.Laws
open Sys2Proof.Proofs.Frames Sys2Proof.Proofs.Wear

section
variable {s u : State} {t : Frac} {us : Word} {x : CmpSlot} {op : Nat} {l : LongOp} {status result : Nat}

theorem endLong_grows (u : State) (us : Word) (status result : Nat) : Grows u (endLong u us status result) := by
  unfold endLong
  split
  · exact (finish_grows _ _ _ _).of_out rfl
  · exact .refl u

/-- A long operation ends in a state that differs by reports alone from the one in which it was held. -/
theorem endLong_ends (h : longHeld s x op l) (hh : hostRest u.hl = hostRest s.hl) (ht : busRest u.tw = busRest s.tw)
    (us : Word) (status result : Nat) :
    reported x.src x.id x.opcode x.idx status result s (endLong u us status result) ∧
      (endLong u us status result).hl.long = none ∧ hostWork (endLong u us status result).hl = hostWork s.hl ∧
      busIdle (endLong u us status result).tw = busIdle s.tw ∧ (endLong u us status result).hl.busy = none := by
  have e : ∀ z : HostSide, z.busy = (hostRest z).busy ∧ z.order = (hostRest z).order ∧ z.cmp = (hostRest z).cmp ∧
      z.nextSlot = (hostRest z).nextSlot ∧ z.rerun = (hostRest z).rerun ∧ z.long = (hostRest z).long ∧ z.linkUp = (hostRest z).linkUp ∧
      z.dstate = (hostRest z).dstate ∧ z.fn = (hostRest z).fn := fun _ => ⟨rfl, rfl, rfl, rfl, rfl, rfl, rfl, rfl, rfl⟩
  obtain ⟨h1, h2, h3, h4, h5, h6, h7, h8, h9⟩ := e u.hl
  obtain ⟨k1, k2, k3, k4, k5, k6, k7, k8, k9⟩ := e s.hl
  rw [hh] at h1 h2 h3 h4 h5 h6 h7 h8 h9
  obtain ⟨hrep, hbusy, hlong, -, hwork, hidle, -⟩ := endLong_alone (u := u) (us := us) (status := status) (result := result) h
    (h1.trans k1.symm) (h2.trans k2.symm) (h3.trans k3.symm) (h4.trans k4.symm)
    (by simp only [ringsOpen, h7.trans k7.symm, h8.trans k8.symm, h9.trans k9.symm]) (h5.trans k5.symm) (h6.trans k6.symm)
  have hw : ∀ z : HostSide, hostWork z = hostWork (hostRest z) := fun _ => rfl
  have hi : ∀ z : TwoWire, busIdle z = busIdle (busRest z) := fun _ => rfl
  exact ⟨hrep, hlong, hwork.trans (by rw [hw, hh, ← hw]), hidle.trans (by rw [hi, ht, ← hi]), hbusy⟩

/-- Reads of little-worn lines count what they correct, and no more. -/
theorem pantryReads_worn {r : List Correction} (h : littleWorn s r) : ∃ w k, pantryReads (atT s t) r =
    { atT s t with sv := { s.sv with wear := w, eccCorrected := k } } ∧
      WearUnder { atT s t with sv := { s.sv with wear := w, eccCorrected := k } } 49001000 := by
  have hlen := h.1
  obtain ⟨w, k, he, hu⟩ := pantryReads_quiet (s := atT s t) r (wearUnder_littleWorn h) (by omega)
  exact ⟨w, k, he, he ▸ hu.mono (by omega)⟩

end

end Sys2Proof.Proofs.LongEnds

/-! Firmware is staged, activated and confirmed (R371, R373, R378, R379). -/

namespace Sys2Proof.Proofs.Firmware

open Sys2Proof Sys2Proof.Machine Sys2Proof.Safety Sys2Proof.Laws
open Sys2Proof.Proofs.Frames Sys2Proof.Proofs.Reads Sys2Proof.Proofs.Checks Sys2Proof.Proofs.Wear Sys2Proof.Proofs.LongEnds

section
variable {s u : State} {t : Frac} {us : Word} {x : CmpSlot}

/-- The module in whose Pantry only counts of wear and of corrections have moved, at the FRAC of a command. -/
def worn (s : State) (t : Frac) (w : Tbl Nat) (k : Nat) : State := { atT s t with sv := { s.sv with wear := w, eccCorrected := k } }

theorem openContainer_worn (w : Tbl Nat) (k kind : Nat) (b : Bytes) : openContainer (worn s t w k) kind b = openContainer s kind b := rfl

theorem fwSlot_worn (w : Tbl Nat) (k : Nat) (b : Bool) : fwSlot (worn s t w k) b = fwSlot s b := by cases b <;> rfl

theorem stageSlot_worn (w : Tbl Nat) (k : Nat) : stageSlot (worn s t w k) = stageSlot s := rfl

/-- A container that passes its checks is as long as its header says. -/
theorem length_of_openContainer {kind : Nat} {b body : Bytes} (h : openContainer s kind b = .ok body) :
    b.length ≤ (header b).bodyLen + 368 := by
  have hform : containerFormOk s kind b = true := by
    by_contra hn
    unfold openContainer at h
    dsimp only at h
    split at h
    · exact absurd h (by simp)
    · rw [if_pos (by simpa using hn)] at h
      exact absurd h (by simp)
  simp only [containerFormOk, Bool.and_eq_true, beq_iff_eq] at hform
  have h1 : (header b).total = b.length := by tauto
  have h2 : (header b).total = 256 + (header b).bodyLen + 16 * b2n (encrypted (header b)) + 96 := by tauto
  have h3 : b2n (encrypted (header b)) ≤ 1 := by cases encrypted (header b) <;> decide
  omega

/-- The Pantry's own counts beside what a commit changes. -/
def committed (s : State) (t : Frac) (w : Tbl Nat) (k j : Nat) : State :=
  { atT s t with sv := { s.sv with wear := w, eccCorrected := k, journalAt := j } }

theorem fwSlot_committed (w : Tbl Nat) (k j : Nat) (b : Bool) : fwSlot (committed s t w k j) b = fwSlot s b := by cases b <;> rfl

theorem setFwSlot_sv (v : State) (b : Bool) (f : FwSlot) :
    (setFwSlot v b f).sv.slotB = v.sv.slotB ∧ (setFwSlot v b f).sv.fwRun = v.sv.fwRun := by
  cases b <;> exact ⟨rfl, rfl⟩

/-- A commit of lines that bear it moves the Pantry's counts alone. -/
theorem commitLines_worn {w : Tbl Nat} {k n : Nat} {l : List Nat} (h : WearUnder (worn s t w k) n)
    (hn : n + l.length + 2 ≤ 50000000) : ∃ w' j, commitLines (worn s t w k) l = committed s t w' k j := by
  obtain ⟨w', hw⟩ := commitLines_quiet l h hn
  exact ⟨w', _, hw⟩

/-- The image is in its slot, whole, and nothing is reported by the way. -/
theorem fwWrite_worn {w : Tbl Nat} {k : Nat} {img body : Bytes} (h : WearUnder (worn s t w k) 49001000)
    (ho : openContainer s 3 img = .ok body) (hl : (header img).bodyLen ≤ 786080) :
    ∃ w' j, fwWrite (worn s t w k) img body = setFwSlot (committed s t w' k j) (stageSlot s) (fwImage img body) := by
  have hlen := length_of_openContainer ho
  have hlines : (List.range' (fwLine (stageSlot s)) (linesFor img.length)).length ≤ 13000 := by
    rw [List.length_range', linesFor]
    omega
  obtain ⟨w', j, hc⟩ := commitLines_worn (l := List.range' (fwLine (stageSlot s)) (linesFor img.length)) h (by omega)
  exact ⟨w', j, by rw [fwWrite, stageSlot_worn, hc]⟩

/-- The end of SV_FW_STAGE, by what the container gives. -/
theorem fwStaged_written {v : State} {img body : Bytes} (ho : openContainer v 3 img = .ok body) (hl : (header img).bodyLen ≤ 786080) :
    fwStaged v us img true true =
      endLong (emit (fwWrite v img body) 0x0C05 (b2n (stageSlot v)) (pay [(0, 4, (header img).version)])) us stOk 0 := by
  unfold fwStaged
  rw [ho]
  exact (if_neg (by simpa using hl)).trans (if_neg (by simp))

theorem fwStaged_refused {v : State} {img : Bytes} {e : Nat × Nat} (f n : Bool) (ho : openContainer v 3 img = .error e) :
    fwStaged v us img f n = endLong (refuseImage v img e.1 e.2) us e.1 noIndex := by
  unfold fwStaged
  rw [ho]

/-- A long operation of the Pantry ends in the state that its reads leave. -/
theorem exec_longOperationDone {r : LongDone} (h : littleWorn s r.reads) : ∃ w k, WearUnder (worn s t w k) 49001000 ∧
    exec (.longOperationDone t us r) s = .next (longEnd (worn s t w k) us r) := by
  obtain ⟨w, k, he, hu⟩ := pantryReads_worn (t := t) h
  exact ⟨w, k, hu, congrArg (fun v => (Host.Outcome.next (longEnd v us r) : Res)) he⟩

theorem fwHeader_reads (f : FwSlot) : advances (fwHeader f) = f.advance ∧ (fwHeader f).signer = 0x80 ∧
    (fwHeader f).version = f.version := by
  refine ⟨?_, rfl, rfl⟩
  cases h : f.advance <;> simp [advances, fwHeader, h, b2n, bitN]

/-- A counter of the firmware is raised as a commit of its line in both copies (R373, R384). -/
theorem advanceCtr_raised {v : State} {f : FwSlot} (h : raises v (fwHeader f) = true) : advanceCtr v (fwHeader f) =
    emit { commitLines v [ctrLine 0 128, ctrLine 1 128] with
      sv := { (commitLines v [ctrLine 0 128, ctrLine 1 128]).sv with fwCtr := f.version } } 0x0C02 noUnit
      (pay [(0, 1, 0x80), (1, 1, 0), (4, 4, v.sv.fwCtr), (8, 4, f.version)]) := by
  have hs : (fwHeader f).signer = 0x80 := rfl
  have hb : rollbackCtr v (fwHeader f) = v.sv.fwCtr := rfl
  unfold advanceCtr
  dsimp only
  rw [if_pos h, hb]
  simp only [hs, if_true]
  rfl

/-- The confirmation raises the counter of the firmware where the image asks for it (R373), and reports that at most. -/
theorem advanceCtr_confirmed (hw : littleWorn s []) (he : evtOpen s 2) :
    let g := advanceCtr { atT s t with sv := { s.sv with fwRun := .confirmed } } (fwHeader (fwSlot s s.sv.slotB))
    g.sv.fwRun = .confirmed ∧ g.sv.slotB = s.sv.slotB ∧ (∀ b, fwSlot g b = fwSlot s b) ∧
      g.sv.fwCtr = (if (fwSlot s s.sv.slotB).advance then Nat.max s.sv.fwCtr (fwSlot s s.sv.slotB).version else s.sv.fwCtr) ∧
      evtOpen g 1 ∧ g.fr.fn = s.fr.fn ∧ g.now = t := by
  obtain ⟨hadv, -, -⟩ := fwHeader_reads (fwSlot s s.sv.slotB)
  have hrb : rollbackCtr { atT s t with sv := { s.sv with fwRun := .confirmed } } (fwHeader (fwSlot s s.sv.slotB)) = s.sv.fwCtr := rfl
  have hraises : raises { atT s t with sv := { s.sv with fwRun := .confirmed } } (fwHeader (fwSlot s s.sv.slotB)) =
      ((fwSlot s s.sv.slotB).advance && decide (s.sv.fwCtr < (fwSlot s s.sv.slotB).version)) := by
    rw [raises, hadv, hrb]
    rfl
  intro g
  cases hr : ((fwSlot s s.sv.slotB).advance && decide (s.sv.fwCtr < (fwSlot s s.sv.slotB).version))
  · have hg : g = { atT s t with sv := { s.sv with fwRun := .confirmed } } := if_neg (by rw [hraises, hr]; decide)
    rw [hg]
    refine ⟨rfl, rfl, fun b => by cases b <;> rfl, ?_, evtOpen_mono he (by omega), rfl, rfl⟩
    cases ha : (fwSlot s s.sv.slotB).advance
    · rfl
    · have hle : (fwSlot s s.sv.slotB).version ≤ s.sv.fwCtr := by simpa [ha] using hr
      exact (Nat.max_eq_left hle).symm
  · have hworn : WearUnder { atT s t with sv := { s.sv with fwRun := .confirmed } } 49000000 := wearUnder_littleWorn hw
    obtain ⟨w, hc⟩ := commitLines_quiet [ctrLine 0 128, ctrLine 1 128] hworn (by decide)
    have hg : g = emit { atT s t with sv := { s.sv with
          fwRun := .confirmed, wear := w, journalAt := (s.sv.journalAt + 2) % 1024, fwCtr := (fwSlot s s.sv.slotB).version } }
        0x0C02 noUnit (pay [(0, 1, 0x80), (1, 1, 0), (4, 4, s.sv.fwCtr), (8, 4, (fwSlot s s.sv.slotB).version)]) := by
      refine (advanceCtr_raised (hraises.trans hr)).trans ?_
      rw [hc]
    obtain ⟨ha, hlt⟩ := Bool.and_eq_true_iff.mp hr
    rw [hg]
    refine ⟨by simp, by simp, fun b => by cases b <;> simp [fwSlot], ?_, ?_, by simp, by simp⟩
    · rw [if_pos ha]
      simp only [emit_keeps]
      exact (Nat.max_eq_right (Nat.le_of_lt (of_decide_eq_true hlt))).symm
    · exact (emit_open (s := { atT s t with sv := { s.sv with
        fwRun := .confirmed, wear := w, journalAt := (s.sv.journalAt + 2) % 1024, fwCtr := (fwSlot s s.sv.slotB).version } })
        (k := 1) he _ _ _).2

@[simp] theorem fwSlot_openSlot (op : Nat) (c : Cmd) (b : Bool) : fwSlot (openSlot (atT s t) op c).1 b = fwSlot s b := by
  simp [fwSlot]

/-- A command that loads an image which its memory gives becomes the long operation. -/
theorem longLoad_ready {op : Nat} {c : Cmd} {d : Dma} {b : Bytes} (f : Bytes → LongOp)
    (hd : cmdData s c d 0 (fldN (pwN c 1) 23 0) = some b) :
    longLoad (openSlot (atT s t) op c).1 op s.hl.nextSlot c d f = startLong (openSlot (atT s t) op c).1 op s.hl.nextSlot (f b) := by
  rw [longLoad, cmdData_openSlot, hd]

end

/-- Settles O40: the image is staged or refused, the slot is activated or not, and a trial that lasts is confirmed. -/
theorem firmwareUpdate : Obligations.FirmwareUpdate := by
  unfold Obligations.FirmwareUpdate
  refine ⟨fun t c d b s hr hf ha ht hd => ?_, fun t us r img body x s hx ho hok hl hnv hw he => ?_,
    fun t us r img e x s hx ho hw he => ?_, fun t c s hr hf ht hv hrun => ?_, fun t c s hr hf hbad => ?_,
    fun t s ht hb hreset hcur hw he => ?_⟩
  · have hexec : exec (.svFwStage t c d) s = .next (startLong (openSlot (atT s t) 0x0080 c).1 0x0080 s.hl.nextSlot (.fwStage b)) := by
      simp only [exec, execSvFwStage]
      rw [runCmd_ready hr.1 hf ha]
      refine congrArg Host.Outcome.next ((if_neg ?_).trans (longLoad_ready _ hd))
      simpa using ht
    exact answers_eq hexec rfl (startLong_ready hr)
  · obtain ⟨w, k, hu, hexec⟩ := exec_longOperationDone (t := t) (us := us) hw
    have hend : longEnd (worn s t w k) us r = fwStaged (worn s t w k) us img true true := by
      have hlong : (worn s t w k).hl.long = some (.fwStage img) := hx.2.2.2.2.1
      unfold longEnd
      rw [hlong, hok, hnv]
    obtain ⟨w', j, hwr⟩ := fwWrite_worn hu ho hl
    rw [hend, fwStaged_written ((openContainer_worn w k 3 img).trans ho) hl, hwr, stageSlot_worn] at hexec
    obtain ⟨hrep, hlong, hwork, hidle, -⟩ := endLong_ends (us := us) (status := stOk) (result := 0) hx
      (u := emit (setFwSlot (committed s t w' k j) (stageSlot s) (fwImage img body)) 0x0C05 (b2n (stageSlot s))
        (pay [(0, 4, (header img).version)])) (by simp [committed]) (by simp [committed])
    have hraised : raised s t 0x0C05 (b2n (stageSlot s)) (pay [(0, 4, (header img).version)])
        (emit (setFwSlot (committed s t w' k j) (stageSlot s) (fwImage img body)) 0x0C05 (b2n (stageSlot s))
          (pay [(0, 4, (header img).version)])) :=
      raised_emit_of (s := s) (k := 0) he (by simp [committed]) (by simp [committed]) (by simp [committed])
    have hslot : ∀ b, fwSlot (endLong (emit (setFwSlot (committed s t w' k j) (stageSlot s) (fwImage img body)) 0x0C05
        (b2n (stageSlot s)) (pay [(0, 4, (header img).version)])) us stOk 0) b =
        if b = stageSlot s then fwImage img body else fwSlot s b := fun b => by
      rw [← fwSlot_committed (s := s) (t := t) w' k j, ← fwSlot_setFwSlot]
      simp only [fwSlot, endLong_keeps, emit_keeps]
    obtain ⟨hB, hrun⟩ := setFwSlot_sv (committed s t w' k j) (stageSlot s) (fwImage img body)
    refine answers_eq hexec rfl ⟨(hslot _).trans (if_pos rfl), (hslot _).trans (if_neg (by simp)), ?_, ?_,
      raised_of_grows hraised (endLong_grows _ _ _ _), ?_, hlong, ?_⟩
    · simp only [endLong_keeps, emit_keeps, hB]
      rfl
    · simp only [endLong_keeps, emit_keeps, hrun]
      rfl
    · rw [← hx.2.2.2.2.2.2.1]
      exact hrep
    · simp only [onlyWork_iff, hwork, hidle]
      simp [committed]
  · obtain ⟨w, k, hu, hexec⟩ := exec_longOperationDone (t := t) (us := us) hw
    have hend : longEnd (worn s t w k) us r = endLong (refuseImage (worn s t w k) img e.1 e.2) us e.1 noIndex := by
      have hlong : (worn s t w k).hl.long = some (.fwStage img) := hx.2.2.2.2.1
      unfold longEnd
      rw [hlong]
      exact fwStaged_refused _ _ ((openContainer_worn w k 3 img).trans ho)
    rw [hend] at hexec
    obtain ⟨hrep, -, hwork, hidle, -⟩ := endLong_ends (us := us) (status := e.1) (result := noIndex) hx
      (u := refuseImage (worn s t w k) img e.1 e.2) (by simp [worn]) (by simp [worn])
    have hraised : raised s t 0x0C01 noUnit (pay [(0, 2, e.1), (2, 1, (header img).kind), (3, 1, (header img).signer), (4, 1, e.2),
        (8, 4, (header img).version), (12, 4, inc32 s.sv.refused)]) (refuseImage (worn s t w k) img e.1 e.2) :=
      raised_emit_of (s := s) (k := 0) he rfl rfl rfl
    refine answers_eq hexec rfl ⟨fun b => ?_, ?_, ?_, ?_, raised_of_grows hraised (endLong_grows _ _ _ _), ?_, ?_⟩
    · simp [fwSlot, refuseImage, worn]
    · simp [refuseImage, worn]
    · simp [refuseImage, worn]
    · simp [refuseImage, worn]
    · rw [← hx.2.2.2.2.2.2.1]
      exact hrep
    · simp only [onlyWork_iff, hwork, hidle]
      simp [refuseImage, worn]
  · have hexec : exec (.svFwActivate t c) s = .next (stage (finish (openSlot (atT s t) 0x0081 c).1 s.hl.nextSlot stOk (bindTo s))
        c.src .fwActivate) := by
      simp only [exec, execSvFwActivate]
      rw [runCmd_ready hr.1 hf rfl]
      refine congrArg Host.Outcome.next ((if_neg ?_).trans ?_)
      · simp [ht, hv]
      · rw [bindTo_openSlot]
        exact if_pos (by simpa using hrun)
    obtain ⟨hdone, honly⟩ := answer_ready (t := t) hr stOk (bindTo s)
    refine answers_eq hexec rfl ⟨?_, hdone, ?_⟩
    · have htime : frTime (finish (openSlot (atT s t) 0x0081 c).1 s.hl.nextSlot stOk (bindTo s)) = frTime (atT s t) := by
        simp [frTime]
      simp only [stage, stageAt, htime]
      simp [bindTo]
    · rw [onlyCmd_iff] at honly ⊢
      simpa [stage, stageAt] using honly
  · have hexec : exec (.svFwActivate t c) s =
        .next (finish (openSlot (atT s t) 0x0081 c).1 s.hl.nextSlot stBadContainer noIndex) := by
      simp only [exec, execSvFwActivate]
      rw [runCmd_ready hr.1 hf rfl]
      refine congrArg Host.Outcome.next (if_pos ?_)
      simpa using hbad
    exact answers_eq hexec rfl (answer_ready hr _ _)
  · obtain ⟨hrun, hB, hslots, hctr, hopen, hfn, hnow⟩ := advanceCtr_confirmed (t := t) hw he
    have hexec : exec (.fwConfirmed t) s = .next (emit (advanceCtr { atT s t with sv := { s.sv with fwRun := .confirmed } }
        (fwHeader (fwSlot s s.sv.slotB))) 0x0C07 (b2n s.sv.slotB) (pay [(0, 4, (fwSlot s s.sv.slotB).version)])) := by
      have hb' : busy (atT s t) = false := hb
      simp only [exec, execFwConfirmed]
      refine congrArg Host.Outcome.next ((if_neg ?_).trans ?_)
      · simp [ht, hb', hreset, hcur]
      · exact congrArg (fun b => emit _ 0x0C07 (b2n b) _) hB
    refine answers_eq hexec rfl ⟨?_, ?_, fun b => ?_, ?_, raised_emit hopen hfn hnow, by simp [only_iff]⟩
    · simp only [emit_keeps, hrun]
    · simp only [emit_keeps, hB]
    · rw [← hslots b]
      simp only [fwSlot, emit_keeps]
    · simp only [emit_keeps, hctr]

end Sys2Proof.Proofs.Firmware

/-! FX_LOAD, FX_CLEAR and FX_TEST (R100, R101, R106). -/

namespace Sys2Proof.Proofs.EngineLoads

open Sys2Proof Sys2Proof.Machine Sys2Proof.Safety Sys2Proof.Laws
open Sys2Proof.Proofs.Frames Sys2Proof.Proofs.Reads Sys2Proof.Proofs.Checks Sys2Proof.Proofs.LongEnds
open Sys2Proof.Proofs.Firmware (longLoad_ready)

section
variable {s u : State} {t : Frac} {us : Word} {x : CmpSlot} {op e : Nat} {c : Cmd}

@[simp] theorem eng_openSlot (s : State) (t : Frac) (op : Nat) (c : Cmd) (e : Nat) :
    eng (openSlot (atT s t) op c).1 e = eng s e := by
  simp [eng]

theorem outStaged_openSlot (s : State) (t : Frac) (op : Nat) (c : Cmd) (h : Nat) :
    outStaged (openSlot (atT s t) op c).1 h = outStaged s h := by
  simp [outStaged, anyStaged]

theorem loadBarred_openSlot (s : State) (t : Frac) (op : Nat) (c : Cmd) (e : Nat) :
    loadBarred (openSlot (atT s t) op c).1 e = loadBarred s e := by
  simp [loadBarred, outStaged_openSlot]

/-- Outside a pair an item waits for its boundary at once. -/
theorem stageMeet_alone (o : Owner) (i : Item) (kind unit id ver : Nat) (h : s.pl.st ≠ .paired) :
    stageMeet s o i kind unit id ver = stage s o i :=
  if_pos (by simpa using h)

/-- A plain recipe that passes its checks is staged at the end of the load. -/
theorem loadEnd_staged {img : Bytes} {r : Recipe} (src : Owner) (nv : Bool) (bl : List (Fin 1024))
    (hc : checkLoad s e img 0xFF false = .ok r) (h : s.pl.st ≠ .paired) : loadEnd s us e false img src nv bl =
      endLong (stage s src (.swap e { r with table := allocate s (engHalf e) bl r.blocks })) us stOk 0 := by
  simp only [loadEnd, Bool.false_eq_true, if_false, hc, stageMeet_alone _ _ _ _ _ _ h]

/-- One that fails a check other than the budget ends the load with that check. -/
theorem loadEnd_refused {img : Bytes} {st i : Nat} (src : Owner) (nv : Bool) (bl : List (Fin 1024))
    (hc : checkLoad s e img 0xFF false = .error (st, i)) (h : st ≠ stOverBudget) :
    loadEnd s us e false img src nv bl = endLong s us st i := by
  have hn : noteLoad s img st = s := if_neg fun hb => h hb.1
  simp only [loadEnd, Bool.false_eq_true, if_false, hc, hn]

/-- The engine's state once its test has told. -/
def tested (s : State) (e : Nat) (r : TestResult) : Engine :=
  if halfIn s (engHalf e) = true then { eng s e with st := if r = .pass then .empty else .failed }
  else { eng s e with st := .unavailable, keepFailed := decide (r ≠ .pass) }

/-- What ENGINE_TESTED says. -/
def testPay (r : TestResult) (v : Word) : BitVec 128 :=
  pay [(0, 1, if r = .pass then 0 else if r = .arithmetic then 1 else 2), (4, 4, if r = .pass then 0 else v.toNat)]

theorem exec_engineTestDone {r : TestResult} {v : Word} (h : s.hl.long = some (.fxTest e)) :
    exec (.engineTestDone t us r v) s =
      .next (endLong (emit (setEng (atT s t) e (tested s e r)) 0x0209 e (testPay r v)) us stOk 0) := by
  have hlong : (atT s t).hl.long = some (.fxTest e) := h
  have hhalf : halfIn (atT s t) (engHalf e) = halfIn s (engHalf e) := rfl
  simp only [exec, execEngineTestDone, hlong]
  cases r <;> simp [tested, testPay, hhalf]

end

/-- Settles O10: a load or a test becomes a long operation or is refused, a clear is staged, and a long operation ends with
what it has found. -/
theorem engineLoadsAndTests : Obligations.EngineLoadsAndTests := by
  unfold Obligations.EngineLoadsAndTests
  refine ⟨fun t c d b s hr hf ha hb hd => ?_, fun t c d s hr hf ha hb => ?_, fun t us nv bl e img r x s hx hc hp => ?_,
    fun t us nv bl e img st i x s hx hc hst => ?_, fun t c s hr hf ht hu hp => ?_, fun t c s hr hf hst hrec => ?_,
    fun t c s hr hf he hfail => ?_, fun t us r v e x s hx he => ?_⟩
  · have hexec : exec (.fxLoad t c d) s = .next (startLong (openSlot (atT s t) 0x0020 c).1 0x0020 s.hl.nextSlot
        (.fxLoad (pwN c 2 % 16) (bitN (pwN c 2) 8) b c.src)) := by
      simp only [exec, execFxLoad]
      rw [runCmd_ready hr.1 hf ha]
      refine congrArg Host.Outcome.next ((if_neg ?_).trans (longLoad_ready _ hd))
      simp [loadBarred_openSlot, hb]
    exact answers_eq hexec rfl (startLong_ready hr)
  · have hexec : exec (.fxLoad t c d) s =
        .next (finish (openSlot (atT s t) 0x0020 c).1 s.hl.nextSlot stEngineState noIndex) := by
      simp only [exec, execFxLoad]
      rw [runCmd_ready hr.1 hf ha]
      exact congrArg Host.Outcome.next (if_pos ((loadBarred_openSlot s t 0x0020 c _).trans hb))
    exact answers_eq hexec rfl (answer_ready hr _ _)
  · have hlong : (atT s t).hl.long = some (.fxLoad e false img x.src) := hx.2.2.2.2.1
    have hexec : exec (.fxLoadStaged t us nv bl) s = .next (endLong (stage (atT s t) x.src
        (.swap e { r with table := allocate s (engHalf e) bl r.blocks })) us stOk 0) := by
      simp only [exec, execFxLoadStaged, hlong]
      exact congrArg Host.Outcome.next (loadEnd_staged (s := atT s t) x.src nv bl hc hp)
    obtain ⟨hrep, hdone, hwork, hidle, hbusy⟩ := endLong_ends (us := us) (status := stOk) (result := 0) hx
      (u := stage (atT s t) x.src (.swap e { r with table := allocate s (engHalf e) bl r.blocks })) rfl rfl
    rw [hx.2.2.2.2.2.2.1] at hrep
    refine answers_eq hexec rfl ⟨?_, hbusy, hdone, hrep, ?_⟩
    · simp only [endLong_keeps]
      rfl
    · simp only [onlyWork_iff, hwork, hidle]
      simp [stage, stageAt]
  · have hlong : (atT s t).hl.long = some (.fxLoad e false img x.src) := hx.2.2.2.2.1
    have hexec : exec (.fxLoadStaged t us nv bl) s = .next (endLong (atT s t) us st i) := by
      simp only [exec, execFxLoadStaged, hlong]
      exact congrArg Host.Outcome.next (loadEnd_refused (s := atT s t) x.src nv bl hc hst)
    obtain ⟨hrep, hdone, hwork, hidle, hbusy⟩ := endLong_ends (us := us) (status := st) (result := i) hx
      (u := atT s t) rfl rfl
    rw [hx.2.2.2.2.2.2.1] at hrep
    refine answers_eq hexec rfl ⟨hbusy, hdone, hrep, ?_⟩
    simp only [onlyWork_iff, hwork, hidle]
    simp
  · have hexec : exec (.fxClear t c) s = .next (finish (stage (openSlot (atT s t) 0x0021 c).1 c.src
        (.clear (pwN c 0 % 16))) s.hl.nextSlot stOk (bindTo s)) := by
      simp only [exec, execFxClear]
      rw [runCmd_ready hr.1 hf rfl]
      refine congrArg Host.Outcome.next ((if_neg ?_).trans ?_)
      · simp [ht, hu]
      · rw [stageMeet_alone _ _ _ _ _ _ (by simpa using hp), bindTo_openSlot]
    exact answers_eq hexec rfl (stage_ready hr _ _ _)
  · have hexec : exec (.fxTest t c) s = .next (startLong (setEng (openSlot (atT s t) 0x0022 c).1 (pwN c 0 % 16)
        { eng s (pwN c 0 % 16) with st := .testing }) 0x0022 s.hl.nextSlot (.fxTest (pwN c 0 % 16))) := by
      simp only [exec, execFxTest]
      rw [runCmd_ready hr.1 hf rfl]
      refine congrArg Host.Outcome.next ((if_neg ?_).trans ?_)
      · obtain hst | hst := hst <;> simp [hst]
      · simp [hrec]
    have hopen := opened_of_eq (v := setEng (openSlot (atT s t) 0x0022 c).1 (pwN c 0 % 16)
      { eng s (pwN c 0 % 16) with st := .testing }) (opened_taken (t := t) hr.1) rfl rfl rfl
    obtain ⟨hbegun, hwork, hidle⟩ := startLong_begun (l := .fxTest (pwN c 0 % 16)) hopen hr (opened_busy hopen)
    refine answers_eq hexec rfl ⟨?_, hbegun, ?_⟩
    · simp [startLong, setEng]
    · simp only [onlyWork_iff, hwork, hidle]
      simp [startLong, setEng]
  · have hexec : exec (.fxTest t c) s =
        .next (finish (openSlot (atT s t) 0x0022 c).1 s.hl.nextSlot stEngineState noIndex) := by
      simp only [exec, execFxTest]
      rw [runCmd_ready hr.1 hf rfl]
      refine congrArg Host.Outcome.next (if_pos ?_)
      simp [he, hfail]
    exact answers_eq hexec rfl (answer_ready hr _ _)
  · obtain ⟨hrep, hdone, hwork, hidle, hbusy⟩ := endLong_ends (us := us) (status := stOk) (result := 0) hx
      (u := emit (setEng (atT s t) e (tested s e r)) 0x0209 e (testPay r v)) emit_rest emit_busRest
    rw [hx.2.2.2.2.2.2.1] at hrep
    have hraised : raised s t 0x0209 e (testPay r v) (emit (setEng (atT s t) e (tested s e r)) 0x0209 e (testPay r v)) :=
      raised_emit_of (s := s) (k := 0) he rfl rfl rfl
    refine answers_eq (exec_engineTestDone hx.2.2.2.2.1) rfl ⟨?_, raised_of_grows hraised (endLong_grows _ _ _ _), hrep, ?_⟩
    · simp only [endLong_keeps, emit_keeps]
      rfl
    · simp only [onlyWork_iff, hwork, hidle]
      simp [setEng]

end Sys2Proof.Proofs.EngineLoads

/-! MX_HALF: a half leaves, enters or is tested (R457–R460). -/

namespace Sys2Proof.Proofs.Halves

open Sys2Proof Sys2Proof.Machine Sys2Proof.Safety Sys2Proof.Laws
open Sys2Proof.Proofs.Frames Sys2Proof.Proofs.Reads Sys2Proof.Proofs.Checks Sys2Proof.Proofs.LongEnds Sys2Proof.Proofs.EngineLoads

section
variable {s u : State} {t : Frac} {us failed : Word} {x : CmpSlot} {h : Nat} {c : Cmd}

/-! ### What the checks read of a state in which the command is open -/

theorem halfIn_openSlot (s : State) (t : Frac) (op : Nat) (c : Cmd) (h : Nat) :
    halfIn (openSlot (atT s t) op c).1 h = halfIn s h := by
  simp [halfIn]

theorem domOn_openSlot (s : State) (t : Frac) (op : Nat) (c : Cmd) (d : Nat) :
    domOn (openSlot (atT s t) op c).1 d = domOn s d := by
  simp [domOn]

theorem halfLoaded_openSlot (s : State) (t : Frac) (op : Nat) (c : Cmd) (h : Nat) :
    halfLoaded (openSlot (atT s t) op c).1 h = halfLoaded s h := by
  simp [halfLoaded, anyStaged]

theorem untested_openSlot (s : State) (t : Frac) (op : Nat) (c : Cmd) (h : Nat) :
    untested (openSlot (atT s t) op c).1 h = untested s h := by
  have htest : halfTest (openSlot (atT s t) op c).1 h = halfTest s h := by simp [halfTest]
  simp only [untested, htest]

theorem admitRequest_openSlot (s : State) (t : Frac) (op : Nat) (c : Cmd) (b : Nat) (fit : Bool) :
    admitRequest (openSlot (atT s t) op c).1 b fit = admitRequest s b fit := by
  have hshed : shedAfter (openSlot (atT s t) op c).1 = shedAfter s := by
    funext r k
    simp [shedAfter, isShed]
  simp only [admitRequest, costQueue, hshed, queueRestores, queueSlots, openSlot_keeps, atT_keeps]

theorem outBudget_openSlot (s : State) (t : Frac) (op : Nat) (c : Cmd) (h : Nat) :
    outBudget (openSlot (atT s t) op c).1 h = outBudget s h := by
  simp [outBudget, outStaged_openSlot, remainingBudget, budgetFor]

/-- MX_HALF reaches its operation once its half's domain is on. -/
theorem mxHalf_ready {op : Nat} {k : State → Nat → Nat → State} (hr : cmdTaken s c 0x0011 [0]) (hf : fieldsOk c [(0, 0x301)] = true)
    (hop : fldN (pwN c 0) 9 8 = op) (hd : domOn s (domMXA + pwN c 0 % 2) = true) :
    mxHalf t c s op k = .next (k (openSlot (atT s t) 0x0011 c).1 s.hl.nextSlot (pwN c 0 % 2)) := by
  unfold mxHalf
  dsimp only
  rw [runCmd_ready hr hf (by simp [hop])]
  refine congrArg Host.Outcome.next (if_neg ?_)
  simp [domOn_openSlot, hd]

/-! ### The result of a test -/

/-- A lane of a half takes the result of its test. -/
def laneTested (h : Nat) (failed : Word) (s : State) (i : Nat) : State :=
  let l := 32 * h + i
  let healed := if !bit failed i && ((lane s l).bad || s.mx.healed.contains l) then [l] else []
  setLane { s with mx := { s.mx with healed := s.mx.healed.filter (· != l) ++ healed } } l
    { lane s l with st := .out, bad := bit failed i }

/-- The state of a half's lanes and its own, once tested. -/
def halfResult (s : State) (h : Nat) (failed : Word) (bad : Bool) : State :=
  setHalfTest (each (List.range 32) s (laneTested h failed)) h (if bad then 3 else if failed = 0 then 1 else 2,
    ((List.range 32).filter (fun i => !bit failed i)).length, failed.toNat, true)

/-- What HALF_TESTED says. -/
def resultPay (failed : Word) (bad : Bool) : BitVec 128 :=
  pay [(0, 1, if bad then 3 else if failed = 0 then 1 else 2), (1, 1, ((List.range 32).filter (fun i => !bit failed i)).length),
    (4, 4, failed.toNat)]

theorem halfTested_eq (s : State) (h : Nat) (failed : Word) (bad : Bool) :
    halfTested s h failed bad = emit (halfResult s h failed bad) 0x0F0A h (resultPay failed bad) := rfl

theorem lane_laneTested (s : State) (i l : Nat) : lane (laneTested h failed s i) l =
    if l = 32 * h + i then { lane s (32 * h + i) with st := .out, bad := bit failed i } else lane s l :=
  lane_setLane _ _ _ _

theorem lane_tested (s : State) (k : Nat) : lane (each (List.range 32) s (laneTested h failed)) (32 * h + k) =
    if k ∈ List.range 32 then { lane s (32 * h + k) with st := .out, bad := bit failed k } else lane s (32 * h + k) :=
  each_keyed (fun u k => lane u (32 * h + k)) (I := fun _ => True) (g := fun i v => { v with st := .out, bad := bit failed i })
    (fun _ _ _ => trivial) (fun u i k _ => by simp [lane_laneTested]) (List.range 32) List.nodup_range s trivial k

/-- A test of a half leaves the lanes of the other. -/
theorem lane_tested_other {l : Nat} (hl : l / 32 ≠ h) : lane (each (List.range 32) s (laneTested h failed)) l = lane s l := by
  by_cases hlt : l < 32 * h
  · refine each_keeps (fun u => lane u l) fun u i => ?_
    rw [lane_laneTested, if_neg (by omega)]
  · obtain ⟨k, rfl⟩ : ∃ k, l = 32 * h + k := ⟨l - 32 * h, by omega⟩
    rw [lane_tested, if_neg (by simp only [List.mem_range]; omega)]

/-- An engine of a half that loses its memory holds no recipe. -/
def emptied (s : State) (e : Nat) : State := setEng s e { eng s e with recipe := none, stages := [] }

theorem lane_zeroHalf (s : State) (h l : Nat) : lane (zeroHalf s h) l = lane s l := by
  have hz : (zeroHalf s h).mx.lane = s.mx.lane := by
    have hall : ∀ u : State, (each (halfEngines h) u emptied).mx.lane = u.mx.lane := fun u =>
      each_keeps (fun u => u.mx.lane) fun _ _ => rfl
    refine (hall (if s.mx.inA || s.mx.inB then s else refreshCost { s with mx := { s.mx with xp := [], damaged := [] } })).trans ?_
    split <;> rfl
  simp only [lane, hz]

theorem lane_halfResult (bad : Bool) (l : Nat) :
    lane (halfResult s h failed bad) l = lane (each (List.range 32) s (laneTested h failed)) l := rfl

theorem halfTest_halfResult (bad : Bool) (hh : h = 0 ∨ h = 1) : halfTest (halfResult s h failed bad) h =
    (if bad then 3 else if failed = 0 then 1 else 2, ((List.range 32).filter (fun i => !bit failed i)).length, failed.toNat, true) := by
  obtain rfl | rfl := hh <;> rfl

@[simp] theorem tested_keeps (s : State) (h : Nat) (failed : Word) :
    (each (List.range 32) s (laneTested h failed)).hl = s.hl ∧ (each (List.range 32) s (laneTested h failed)).tw = s.tw ∧
      (each (List.range 32) s (laneTested h failed)).fr = s.fr ∧ (each (List.range 32) s (laneTested h failed)).now = s.now :=
  ⟨each_keeps (fun u => u.hl) fun _ _ => rfl, each_keeps (fun u => u.tw) fun _ _ => rfl,
    each_keeps (fun u => u.fr) fun _ _ => rfl, each_keeps (fun u => u.now) fun _ _ => rfl⟩

@[simp] theorem halfResult_keeps (s : State) (h : Nat) (failed : Word) (bad : Bool) :
    (halfResult s h failed bad).hl = s.hl ∧ (halfResult s h failed bad).tw = s.tw ∧
      (halfResult s h failed bad).fr = s.fr ∧ (halfResult s h failed bad).now = s.now := tested_keeps s h failed

theorem exec_halfTestDone {bad : Bool} {w : Half} (hl : s.hl.long = some (.halfTest w)) :
    exec (.halfTestDone t us failed bad) s = .next (endLong (emit (halfResult (zeroHalf (atT s t) (halfNum w)) (halfNum w) failed bad)
      0x0F0A (halfNum w) (resultPay failed bad)) us stOk 0) := by
  have hlong : (atT s t).hl.long = some (.halfTest w) := hl
  simp only [exec, execHalfTestDone, hlong]
  rfl

end

/-- Settles O11: OUT and IN wait for their boundary, a refused OUT is noted, and a test records what its half has passed. -/
theorem halfCommands : Obligations.HalfCommands := by
  unfold Obligations.HalfCommands
  refine ⟨fun t c s hr hf hop hd hin hload hadm => ?_, fun t c s hr hf hop hd hin hload hadm => ?_,
    fun t c s hr hf hop hd hin hun => ?_, fun t c s hr hf hop hd hin => ?_, fun t us failed bad w x s hx he => ?_⟩
  · have hexec : exec (.mxHalfOut t c) s = .next (finish (stage (openSlot (atT s t) 0x0011 c).1 c.src
        (.halfOut (halfOf (pwN c 0 % 2)))) s.hl.nextSlot stOk (bindTo s)) := by
      simp only [exec, execMxHalfOut]
      rw [mxHalf_ready hr.1 hf hop hd, halfIn_openSlot, halfLoaded_openSlot, outBudget_openSlot, admitRequest_openSlot,
        bindTo_openSlot]
      simp [hin, hload, hadm]
    exact answers_eq hexec rfl (stage_ready hr _ _ _)
  · have hexec : exec (.mxHalfOut t c) s = .next (finish (noteRefusal (openSlot (atT s t) 0x0011 c).1
        (admitRequest s (outBudget s (pwN c 0 % 2)) true).1 (admitRequest s (outBudget s (pwN c 0 % 2)) true).2) s.hl.nextSlot
        stAdmission (refusedResult (admitRequest s (outBudget s (pwN c 0 % 2)) true).2)) := by
      simp only [exec, execMxHalfOut]
      rw [mxHalf_ready hr.1 hf hop hd, halfIn_openSlot, halfLoaded_openSlot, outBudget_openSlot, admitRequest_openSlot]
      simp [hin, hload, hadm]
    obtain ⟨hdone, hhost, hbus⟩ := finish_ready hr (opened_of_eq (v := noteRefusal (openSlot (atT s t) 0x0011 c).1
      (admitRequest s (outBudget s (pwN c 0 % 2)) true).1 (admitRequest s (outBudget s (pwN c 0 % 2)) true).2)
      (opened_taken (t := t) hr.1) rfl rfl rfl) stAdmission (refusedResult (admitRequest s (outBudget s (pwN c 0 % 2)) true).2)
    refine answers_eq hexec rfl ⟨?_, hdone, ?_⟩
    · simp [noteRefusal]
    · simp only [onlyCmd_iff, hhost, hbus]
      simp [noteRefusal]
  · have hexec : exec (.mxHalfIn t c) s = .next (finish (stage (openSlot (atT s t) 0x0011 c).1 c.src
        (.halfIn (halfOf (pwN c 0 % 2)))) s.hl.nextSlot stOk (bindTo s)) := by
      simp only [exec, execMxHalfIn]
      rw [mxHalf_ready hr.1 hf hop hd, halfIn_openSlot, untested_openSlot, bindTo_openSlot]
      simp [hin, hun]
    exact answers_eq hexec rfl (stage_ready hr _ _ _)
  · have hexec : exec (.mxHalfTest t c) s = .next (startLong (openSlot (atT s t) 0x0011 c).1 0x0011 s.hl.nextSlot
        (.halfTest (halfOf (pwN c 0 % 2)))) := by
      simp only [exec, execMxHalfTest]
      rw [mxHalf_ready hr.1 hf hop hd, halfIn_openSlot]
      simp [hin]
    exact answers_eq hexec rfl (startLong_ready hr)
  · obtain ⟨hrep, hdone, hwork, hidle, hbusy⟩ := endLong_ends (us := us) (status := stOk) (result := 0) hx
      (u := emit (halfResult (zeroHalf (atT s t) (halfNum w)) (halfNum w) failed bad) 0x0F0A (halfNum w) (resultPay failed bad))
      (by simp) (by simp)
    rw [hx.2.2.2.2.2.2.1] at hrep
    have hraised : raised s t 0x0F0A (halfNum w) (resultPay failed bad) (emit (halfResult (zeroHalf (atT s t) (halfNum w))
        (halfNum w) failed bad) 0x0F0A (halfNum w) (resultPay failed bad)) :=
      raised_emit_of (s := s) (k := 0) he (by simp) (by simp) (by simp)
    have hb : halfNum w = 0 ∨ halfNum w = 1 := by cases w <;> decide
    have hlane : ∀ l, lane (endLong (emit (halfResult (zeroHalf (atT s t) (halfNum w)) (halfNum w) failed bad) 0x0F0A (halfNum w)
        (resultPay failed bad)) us stOk 0) l =
        lane (each (List.range 32) (zeroHalf (atT s t) (halfNum w)) (laneTested (halfNum w) failed)) l := fun l => by
      rw [← lane_halfResult bad]
      simp only [lane, endLong_keeps, emit_keeps]
    refine answers_eq (exec_halfTestDone hx.2.2.2.2.1) rfl ⟨?_, fun i hi => ?_, fun l hl => ?_,
      raised_of_grows hraised (endLong_grows _ _ _ _), hrep, ?_⟩
    · rw [← halfTest_halfResult (s := zeroHalf (atT s t) (halfNum w)) (failed := failed) bad hb]
      simp only [halfTest, endLong_keeps, emit_keeps]
    · rw [hlane, lane_tested, if_pos (List.mem_range.2 hi)]
      exact ⟨rfl, rfl⟩
    · rw [hlane, lane_tested_other hl, lane_zeroHalf]
      rfl
    · simp only [onlyWork_iff, hwork, hidle]
      simp [← halfTested_eq]

end Sys2Proof.Proofs.Halves

/-! MIX_COMMIT is answered, and what an admitted commit leaves (R59–R64). -/

namespace Sys2Proof.Proofs.Commits

open Sys2Proof Sys2Proof.Machine Sys2Proof.Safety Sys2Proof.Laws
open Sys2Proof.Proofs.Frames Sys2Proof.Proofs.Reads Sys2Proof.Proofs.Checks

section
variable {a b s : State} {t : Frac} {c : Cmd} {o : Owner} {h : CommitReq} {recs : List Rec}

/-! ### The steps of R62 by name -/

/-- The records of a list that name a crosspoint with a pending gain already. -/
def clashes (s : State) (recs : List Rec) : List Nat :=
  ((putRecs s.mx.xp 0 recs []).filter (fun e => occupied s.mx.xp e.1 && (tget Xp.none s.mx.xp e.1).pend)).filterMap
    (fun e => e.2.map Prod.snd)

/-- The gains that a list leaves pending, by crosspoint. -/
def newGains (s : State) (recs : List Rec) : List (Nat × Int) :=
  (putRecs s.mx.xp 0 recs []).filterMap (fun e => e.2.bind (fun g =>
    if occupied s.mx.xp e.1 || g.1 != 0 then some (e.1, g.1) else none))

/-- A table in which gains are pending for the queue slot `q`. -/
def pended (q : Nat) (l : List (Nat × Int)) (t : Tbl Xp) : Tbl Xp :=
  l.foldl (fun t e => tmod Xp.none t e.1 (fun x => { x with pend := true, gain := e.2, qslot := q })) t

/-- The table as the checks of a commit see it: a lost entry has no gain. -/
def seenXp (s : State) : Tbl Xp :=
  s.mx.xp.map (fun e => if e.2.lost then (e.1, { e.2 with cur := 0, pend := false }) else e)

/-- The sinks that a list restores. -/
def restoring (recs : List Rec) : List Nat := (recs.filter (·.op == 2)).map (·.sink)

/-- The cost of the configuration after every queued commit and the list. -/
def costWith (s : State) (recs : List Rec) : Nat × Nat :=
  cfgCost (pended (freeSlot s) (newGains s recs) (seenXp s)) (shedAfter s (queueRestores s ++ restoring recs))
    (freeSlot s :: queueSlots s)

/-- REASON of the refusal under R29, 0 for none. -/
def refusal (s : State) (recs : List Rec) : Nat :=
  admitReason (costWith s recs).1 (costWith s recs).2 (testBudget s s.fr.rate) true

/-- A list passes every check of R62. -/
def Admitted (s : State) (recs : List Rec) : Prop :=
  (recs.zip (List.range recs.length)).find? (fun r => !recOk r.1) = none ∧ s.mx.queue.length < 8 ∧
    (clashes s recs).isEmpty = true ∧
    (s.mx.xp.filter (fun e => occupied s.mx.xp e.1)).length +
      ((newGains s recs).filter (fun e => !occupied s.mx.xp e.1)).length ≤ capacity s ∧
    refusal s recs = 0

/-- A commit of an owner that the pair mirrors. -/
def mirrored (s : State) (o : Owner) : Bool := o != .peer && mirrors s 0

/-- The queued commit that an admitted list becomes. -/
def queuedCommit (s : State) (o : Owner) (h : CommitReq) (recs : List Rec) : Commit :=
  { owner := o, qslot := freeSlot s, tag := h.tag, count := h.count, notify := h.notify, atFn := h.atFn, target := h.target,
    late := h.atFn && h.target ≤ bindTo s, bound := if mirrored s o || o == .peer then unbound else bindTo s,
    restore := restoring recs, recs := recs.flatMap (fun r => recBytes r.op r.source r.sink r.gain), scene := h.scene }

/-- The mixer with a commit queued. -/
def queued (s : State) (o : Owner) (h : CommitReq) (recs : List Rec) : State :=
  refreshCost { s with mx := { s.mx with xp := pended (freeSlot s) (newGains s recs) s.mx.xp,
                                         queue := s.mx.queue ++ [queuedCommit s o h recs] } }

/-- What an admitted list leaves. -/
def accepted (s : State) (o : Owner) (h : CommitReq) (recs : List Rec) : State :=
  if mirrored s o then holdMirror (queued s o h recs) o (.commit (freeSlot s)) none else queued s o h recs

theorem commitRecs_eq (hok : (recs.zip (List.range recs.length)).find? (fun r => !recOk r.1) = none) : commitRecs s o h recs =
    if s.mx.queue.length ≥ 8 then .error (s, stQueueFull, noIndex)
    else if !(clashes s recs).isEmpty then .error (s, stOverlap, (clashes s recs).foldl Nat.min noIndex)
    else if (s.mx.xp.filter (fun e => occupied s.mx.xp e.1)).length +
      ((newGains s recs).filter (fun e => !occupied s.mx.xp e.1)).length > capacity s then .error (s, stTableFull, noIndex)
    else if refusal s recs != 0 then
      .error (noteRefusal s (refusal s recs) (refusedCostOf (refusal s recs) (costWith s recs).1 (costWith s recs).2), stAdmission,
        refusedResult (refusedCostOf (refusal s recs) (costWith s recs).1 (costWith s recs).2))
    else .ok (accepted s o h recs, freeSlot s) := by
  unfold commitRecs
  rw [hok]
  rfl

theorem commitRecs_admitted (ha : Admitted s recs) : commitRecs s o h recs = .ok (accepted s o h recs, freeSlot s) := by
  obtain ⟨h1, h2, h3, h4, h5⟩ := ha
  rw [commitRecs_eq h1, if_neg (Nat.not_le.mpr h2), if_neg (by simp [h3]), if_neg (Nat.not_lt.mpr h4), if_neg (by simp [h5])]

theorem admitted_of_ok {p : State × Nat} (hp : commitRecs s o h recs = .ok p) : Admitted s recs := by
  cases h1 : (recs.zip (List.range recs.length)).find? (fun r => !recOk r.1) with
  | some r =>
    unfold commitRecs at hp
    rw [h1] at hp
    cases hp
  | none =>
    rw [commitRecs_eq h1] at hp
    split_ifs at hp with h2 h3 h4 h5
    exact ⟨h1, Nat.not_le.mp h2, by simpa using h3, Nat.not_lt.mp h4, by simpa using h5⟩

theorem commitRecs_ok {p : State × Nat} (hp : commitRecs s o h recs = .ok p) : p = (accepted s o h recs, freeSlot s) :=
  (Except.ok.inj (hp.symm.trans (commitRecs_admitted (admitted_of_ok hp))))

/-! ### What a commit reads, and what it changes -/

/-- The parts of the state that a commit reads. -/
def sharesMix (a b : State) : Prop := b.mx = a.mx ∧ b.fr = a.fr ∧ b.pl = a.pl ∧ b.regs = a.regs ∧ b.sv = a.sv

theorem accepted_parts (s : State) (o : Owner) (h : CommitReq) (recs : List Rec) :
    accepted s o h recs = { s with mx := (accepted s o h recs).mx, pl := (accepted s o h recs).pl } := by
  unfold accepted
  split <;> rfl

theorem commitRecs_shares {p : State × Nat} (hs : sharesMix a b) (hp : commitRecs a o h recs = .ok p) :
    commitRecs b o h recs = .ok ({ b with mx := p.1.mx, pl := p.1.pl }, p.2) := by
  obtain ⟨h1, h2, h3, h4, h5⟩ := hs
  have hb : b = { b with mx := a.mx, fr := a.fr, pl := a.pl, regs := a.regs, sv := a.sv } := by
    rw [← h1, ← h2, ← h3, ← h4, ← h5]
  have had : Admitted b recs := by
    rw [hb]
    exact (admitted_of_ok hp : Admitted a recs)
  have hacc : (accepted b o h recs).mx = (accepted a o h recs).mx ∧ (accepted b o h recs).pl = (accepted a o h recs).pl := by
    have hmir : mirrored b o = mirrored a o := by
      rw [hb]
      rfl
    have hq : (queued b o h recs).mx = (queued a o h recs).mx := by
      rw [hb]
      rfl
    have hpl : (holdMirror (queued b o h recs) o (.commit (freeSlot b)) none).pl =
        (holdMirror (queued a o h recs) o (.commit (freeSlot a)) none).pl := by
      rw [hb]
      rfl
    unfold accepted
    rw [hmir]
    split
    · exact ⟨hq, hpl⟩
    · exact ⟨hq, h3⟩
  have hfree : freeSlot b = freeSlot a := by
    rw [freeSlot, freeSlot, queueSlots, queueSlots, h1]
  rw [commitRecs_ok hp, commitRecs_admitted had, accepted_parts, hacc.1, hacc.2, hfree]

theorem headerStatus_of_ok {l : Bytes} {p : State × Nat} (hp : mixSubmit s o l = .ok p) : headerStatus l = stOk := by
  unfold mixSubmit at hp
  by_contra hn
  simp [hn] at hp

theorem mixSubmit_shares {l : Bytes} {p : State × Nat} (hs : sharesMix a b) (hp : mixSubmit a o l = .ok p) :
    mixSubmit b o l = .ok ({ b with mx := p.1.mx, pl := p.1.pl }, p.2) := by
  have hst := headerStatus_of_ok hp
  unfold mixSubmit at hp ⊢
  simp only [hst, bne_self_eq_false, Bool.false_eq_true, if_false] at hp ⊢
  exact commitRecs_shares hs hp

/-- A header that names no count of records is refused for its TAG or as a bad record. -/
theorem headerStatus_badCount {l : Bytes} (hc : countOk l = false) :
    headerStatus l = (if leAt l 0 4 = 0 then stBadTag else stBadRecord) ∧ headerStatus l ≠ stOk := by
  have hst : headerStatus l = if leAt l 0 4 = 0 then stBadTag else stBadRecord := by
    have hcount : leAt l 4 2 = 0 ∨ 32768 < leAt l 4 2 := by simpa [countOk, or_iff_not_imp_left] using hc
    have hbad : (leAt l 4 2 = 0 || leAt l 4 2 > 32768 || leAt l 6 2 ≥ 4 || leAt l 14 2 != 0) = true := by
      obtain hcount | hcount := hcount <;> simp [hcount]
    unfold headerStatus
    rw [if_pos (c := _ = true) hbad]
  refine ⟨hst, ?_⟩
  rw [hst]
  split <;> decide

theorem mixSubmit_badCount {l : Bytes} (hc : countOk l = false) :
    mixSubmit s o l = .error (s, if leAt l 0 4 = 0 then stBadTag else stBadRecord, noIndex) := by
  obtain ⟨hst, hne⟩ := headerStatus_badCount hc
  rw [← hst]
  exact if_pos (bne_iff_ne.mpr hne)

/-! ### The queue after an admitted commit -/

/-- A queue with a free slot has one among its eight. -/
theorem freeSlot_free (hq : s.mx.queue.length < 8) : freeSlot s ∉ queueSlots s ∧ freeSlot s < 8 := by
  have hex : ∃ x ∈ List.range 8, (!(queueSlots s).contains x) = true := by
    by_contra hn
    simp only [not_exists, not_and, Bool.not_eq_true', List.contains_iff_mem, Bool.not_eq_false] at hn
    have hsub : List.range 8 ⊆ queueSlots s := fun x hx => by simpa using hn x hx
    have hlen := (List.nodup_range.subperm hsub).length_le
    simp only [List.length_range, queueSlots, List.length_map] at hlen
    omega
  obtain ⟨q, hfind⟩ := Option.isSome_iff_exists.mp (List.find?_isSome.mpr hex)
  have hfree : freeSlot s = q := by rw [freeSlot, hfind]; rfl
  have hno := List.find?_some hfind
  have hlt := List.mem_of_find?_eq_some hfind
  rw [hfree]
  exact ⟨by simpa using hno, by simpa using hlt⟩

theorem tget_pended_cur (q : Nat) (l : List (Nat × Int)) (t : Tbl Xp) (k : Nat) :
    (tget Xp.none (pended q l t) k).cur = (tget Xp.none t k).cur := by
  induction l generalizing t with
  | nil => rfl
  | cons e l ih =>
    refine (ih _).trans ?_
    by_cases hk : k = e.1
    · subst hk
      simp [tmod, tget_tput_same]
    · simp [tmod, tget_tput_ne _ _ _ hk]

theorem gainAfter_rotate (q : Nat) (qs : List Nat) (e : Xp) : gainAfter (qs ++ [q]) e = gainAfter (q :: qs) e := by
  have hm : (qs ++ [q]).contains e.qslot = (q :: qs).contains e.qslot := by
    rw [Bool.eq_iff_iff]
    simp [or_comm]
  simp only [gainAfter, hm]

theorem costQueued_queued (hl : ∀ e ∈ s.mx.xp, e.2.lost = false) :
    (queued s o h recs).mx.costQueued = (costWith s recs).1 := by
  have hseen : seenXp s = s.mx.xp := by
    rw [seenXp, List.map_congr_left (g := id) fun e he => by simp [hl e he], List.map_id]
  have hslots : (s.mx.queue ++ [queuedCommit s o h recs]).map (·.qslot) = queueSlots s ++ [freeSlot s] := by
    simp [queueSlots, queuedCommit]
  have hrest : (s.mx.queue ++ [queuedCommit s o h recs]).flatMap (·.restore) = queueRestores s ++ restoring recs := by
    simp [queueRestores, queuedCommit]
  have hcost : ∀ xp f, cfgCost xp f (queueSlots s ++ [freeSlot s]) = cfgCost xp f (freeSlot s :: queueSlots s) := fun xp f => by
    simp only [cfgCost, gainAfter_rotate]
  calc (queued s o h recs).mx.costQueued
      = (cfgCost (pended (freeSlot s) (newGains s recs) s.mx.xp)
          (shedAfter s ((s.mx.queue ++ [queuedCommit s o h recs]).flatMap (·.restore)))
          ((s.mx.queue ++ [queuedCommit s o h recs]).map (·.qslot))).1 := rfl
    _ = (costWith s recs).1 := by rw [hslots, hrest, hcost, costWith, hseen]

theorem accepted_mx (s : State) (o : Owner) (h : CommitReq) (recs : List Rec) : (accepted s o h recs).mx = (queued s o h recs).mx := by
  unfold accepted
  split <;> rfl

theorem cost_le_of_admitReason {x f n : Nat} (hr : admitReason x f n true = 0) : x ≤ n := by
  by_contra hn
  unfold admitReason at hr
  split_ifs at hr
  simp_all

/-- The table's corrections are counted for a command in hand as for none. -/
theorem sharesMix_openSlot (s : State) (t : Frac) (op : Nat) (c : Cmd) (n : Nat) :
    sharesMix (tableCorrected (atT s t) n) (tableCorrected (openSlot (atT s t) op c).1 n) := by
  simp [sharesMix, tableCorrected]

/-- The completion of MIX_COMMIT, by what its checks say. -/
def commitAnswer (slot : Nat) : Except (State × Nat × Nat) (State × Nat) → State
  | .error e => finish e.1 slot e.2.1 e.2.2
  | .ok p => finish p.1 slot stOk (p.1.mx.costQueued % 2 ^ 24 + p.2 * 2 ^ 24)

/-- A commit list that its memory gives, whole, is answered as its checks say. -/
theorem exec_mixCommit {d : Dma} {n : Nat} {l m : Bytes} (hr : cmdTaken s c 0x0010 [0]) (hf : fieldsOk c [(0, wordAll)] = true)
    (ha : pwN c 0 % 16 = 0) (h16 : addrOk c 0 16 = true) (hd : cmdData s c d 0 16 = some l)
    (hlen : addrOk c 0 (if countOk l then 16 + 8 * leAt l 4 2 else 16) = true)
    (hd' : cmdData s c d 0 (if countOk l then 16 + 8 * leAt l 4 2 else 16) = some m) : exec (.mixCommit t c d n) s =
      .next (commitAnswer s.hl.nextSlot (mixSubmit (if headerStatus m = stOk then tableCorrected (openSlot (atT s t) 0x0010 c).1 n
        else (openSlot (atT s t) 0x0010 c).1) c.src m)) := by
  simp only [exec, execMixCommit]
  rw [runCmd_ready hr hf (by simp [ha, h16])]
  simp only [cmdData_openSlot, hd, hlen, hd', Bool.not_true, Bool.false_eq_true, if_false]
  rfl

end

/-- Settles O6: an accepted commit completes with its cost and its slot, a bad header is refused, and what is admitted fits. -/
theorem commitsAccepted : Obligations.CommitsAccepted := by
  unfold Obligations.CommitsAccepted
  refine ⟨fun t c d n l m p s hr hf ha h16 hd hc hlen hd' hp => ?_, fun t c d n l s hr hf ha h16 hd hc hl => ?_,
    fun o h recs s s' q hp => ?_, fun o h recs s hok hq => ?_⟩
  · have hsub := mixSubmit_shares (sharesMix_openSlot s t 0x0010 c n) hp
    have hexec := exec_mixCommit (t := t) (n := n) hr.1 hf ha h16 hd (by rwa [if_pos hc]) (by rwa [if_pos hc])
    rw [if_pos (headerStatus_of_ok hp), hsub, commitAnswer] at hexec
    obtain ⟨hdone, hhost, hbus⟩ := finish_ready hr (opened_of_eq
      (v := { tableCorrected (openSlot (atT s t) 0x0010 c).1 n with mx := p.1.mx, pl := p.1.pl })
      (opened_taken (t := t) hr.1) rfl rfl rfl) stOk (p.1.mx.costQueued % 2 ^ 24 + p.2 * 2 ^ 24)
    refine answers_eq hexec rfl ⟨?_, ?_, hdone, ?_⟩
    · simp only [finish_keeps]
    · simp only [finish_keeps]
    · simp only [onlyCmd_iff, hhost, hbus]
      simp [tableCorrected]
  · have hexec := exec_mixCommit (t := t) (n := n) (m := l) hr.1 hf ha h16 hd (by simpa [hc] using h16) (by simpa [hc] using hd)
    rw [if_neg (headerStatus_badCount hc).2, mixSubmit_badCount hc, commitAnswer] at hexec
    exact answers_eq hexec rfl (answer_ready hr _ _)
  · obtain ⟨h1, h2, h3, h4, h5⟩ := admitted_of_ok hp
    obtain ⟨rfl, rfl⟩ := Prod.mk.inj (commitRecs_ok hp)
    obtain ⟨hfree, hlt⟩ := freeSlot_free h2
    refine ⟨hfree, hlt, h2, ?_, fun k => ?_, fun hl => ?_⟩
    · rw [queueSlots, accepted_mx]
      simp [queued, refreshCost, queueSlots, queuedCommit]
    · rw [accepted_mx]
      exact tget_pended_cur _ _ _ _
    · rw [accepted_mx, costQueued_queued hl]
      exact cost_le_of_admitReason h5
  · have hfind : (recs.zip (List.range recs.length)).find? (fun r => !recOk r.1) = none := by
      refine List.find?_eq_none.mpr fun r hr => ?_
      simp [hok r.1 (List.of_mem_zip hr).1]
    unfold commitRecs
    rw [hfind]
    exact if_pos hq

end Sys2Proof.Proofs.Commits

/-! Scenes are saved, deleted, read and recalled (R306, R307). -/

namespace Sys2Proof.Proofs.Scenes

open Sys2Proof Sys2Proof.Machine Sys2Proof.Safety Sys2Proof.Laws
open Sys2Proof.Proofs.Frames Sys2Proof.Proofs.Reads Sys2Proof.Proofs.Checks Sys2Proof.Proofs.LongEnds
open Sys2Proof.Proofs.Commits
open Sys2Proof.Proofs.EngineLoads (eng_openSlot)

section
variable {a b s u : State} {t : Frac} {us : Word} {x : CmpSlot} {op : Nat} {c : Cmd}

/-! ### The Pantry's record depends on nothing but itself -/

theorem countWrite_sv (h : a.sv = b.sv) (l : Nat) : (countWrite a l).sv = (countWrite b l).sv := by
  simp only [countWrite, lineWear, servingLine, h]

theorem retireLine_sv (h : a.sv = b.sv) (l : Nat) (k : Bool) : (retireLine a l k).sv = (retireLine b l k).sv := by
  unfold retireLine
  rw [h]
  split
  · exact h
  · cases k <;> simp [apply_ite State.sv, countWrite, lineWear, servingLine, h]

theorem each_sv {α : Type} {f : State → α → State} (hf : ∀ a b x, a.sv = b.sv → (f a x).sv = (f b x).sv) (l : List α)
    (h : a.sv = b.sv) : (each l a f).sv = (each l b f).sv := by
  induction l generalizing a b with
  | nil => exact h
  | cons x l ih => exact ih (hf a b x h)

theorem noteWear_sv (h : a.sv = b.sv) : (noteWear a).sv = (noteWear b).sv := by
  refine each_sv (fun a b k h => ?_) _ h
  dsimp only
  rw [wearMax, wearMax, h]
  split
  · simp
  · exact h

theorem writeLine_sv (h : a.sv = b.sv) (l : Nat) : (writeLine a l).sv = (writeLine b l).sv := by
  have hc := countWrite_sv h l
  unfold writeLine
  refine noteWear_sv ?_
  have hw : lineWear (countWrite a l) l = lineWear (countWrite b l) l := by simp only [lineWear, servingLine, hc]
  rw [hw]
  split
  · exact retireLine_sv hc l true
  · exact hc

theorem pantryReads_sv (l : List Correction) (h : a.sv = b.sv) : (pantryReads a l).sv = (pantryReads b l).sv := by
  unfold pantryReads
  refine each_sv (fun a b x h => ?_) l h
  dsimp only
  rw [h]
  by_cases hx : 2 ≤ x.bits.val
  · rw [if_pos hx, if_pos hx]
    exact writeLine_sv (by simp only) _
  · rw [if_neg hx, if_neg hx]

/-! ### What a command reads beside its own parts -/

theorem opened_of_rest (h : Opened s t op c a) (hh : hostRest b.hl = hostRest a.hl) (ht : busRest b.tw = busRest a.tw)
    (hn : b.now = a.now) : Opened s t op c b := by
  have hf : ∀ {β : Type} (f : HostSide → β), (∀ z, f z = f (hostRest z)) → f b.hl = f a.hl := fun f hz => by rw [hz, hh, ← hz]
  have hi : ∀ z : TwoWire, busIdle z = busIdle (busRest z) := fun _ => rfl
  exact ⟨(hf (·.order) fun _ => rfl).trans h.order, (hf (·.cmp) fun _ => rfl).trans h.cmp,
    (hf (fun z => hostIdle { z with order := [] }) fun _ => rfl).trans h.host, ((hi _).trans (by rw [ht, ← hi])).trans h.bus,
    hn.trans h.now, (hf (·.nextSlot) fun _ => rfl).trans h.next,
    (hf (fun z => z.linkUp && z.dstate == 0 && z.fn.busMaster) fun _ => rfl).trans h.open_⟩

theorem sceneOf_opened (h : Opened s t op c u) (k : Nat) : sceneOf u k = sceneOf s k :=
  (congrArg (fun z : HostSide => tget [] z.scenes k) h.host :)

theorem sceneOf_of_rest (h : hostRest a.hl = hostRest b.hl) (k : Nat) : sceneOf a k = sceneOf b k :=
  (congrArg (fun z : HostSide => tget [] z.scenes k) h :)

theorem sceneOf_setScene (s : State) (k j : Nat) (d : Bytes) : sceneOf (setScene s k d) j = if j = k then d else sceneOf s j := by
  by_cases h : j = k
  · rw [if_pos h, h]
    exact tget_tput_same _ _ _ _
  · rw [if_neg h]
    exact tget_tput_ne _ _ _ h

/-- A word whose used bits are its low ones is small. -/
theorem pwN_lt {use : PwUse} {i k : Nat} (hf : fieldsOk c use = true) (hi : i < 7)
    (hu : ((use.find? (·.1 == i)).map Prod.snd).getD 0 = 2 ^ k - 1) : pwN c i < 2 ^ k := by
  simp only [fieldsOk, Bool.and_eq_true, List.all_eq_true, List.mem_range] at hf
  have hz := hf.2 i hi
  rw [hu, beq_iff_eq] at hz
  have hlt : pwN c i < 2 ^ 64 := ((c.pw[i]?).getD 0).isLt
  refine Nat.lt_pow_two_of_testBit _ fun j hj => ?_
  by_cases hj' : j < 64
  · have hbit := congrArg (fun x => BitVec.getLsbD x j) hz
    have hzero : BitVec.getLsbD (0 : BitVec 64) j = false := by simp
    have hno : ¬ j < k := Nat.not_lt.mpr hj
    simpa only [BitVec.getLsbD_and, BitVec.getLsbD_not, BitVec.getLsbD_ofNat, hzero, hj', hno,
      Nat.testBit_two_pow_sub_one, decide_true, decide_false, Bool.true_and, Bool.and_false, Bool.not_false, Bool.and_true]
      using hbit
  · exact Nat.testBit_lt_two_pow (hlt.trans_le (Nat.pow_le_pow_right (by decide) (by omega)))

/-- The low field of a word that is small is the word. -/
theorem fldN_small {n k : Nat} (h : n < 2 ^ (k + 1)) : fldN n k 0 = n := by
  simp [fldN, Nat.mod_eq_of_lt h]

/-! ### The ends of the operations on scenes -/

theorem long_of_rest (h : hostRest a.hl = hostRest b.hl) : a.hl.long = b.hl.long := (congrArg HostSide.long h :)

theorem sceneFree_of_rest (h : hostRest a.hl = hostRest b.hl) : sceneFree a = sceneFree b :=
  (congrArg (fun z : HostSide => 2 ^ 21 - (z.scenes.map (fun e => storeLen e.2)).foldl (· + ·) 0) h :)

/-- A scene is put in its slot on both host sides. -/
theorem setScene_rest (h : hostRest a.hl = hostRest b.hl) (k : Nat) (d : Bytes) :
    hostRest (setScene a k d).hl = hostRest (setScene b k d).hl := by
  have hz : ∀ z : HostSide, hostRest { z with scenes := tput [] z.scenes k d } =
      { hostRest z with scenes := tput [] (hostRest z).scenes k d } := fun _ => rfl
  exact (hz a.hl).trans ((by rw [h] : _ = _).trans (hz b.hl).symm)

theorem commitScene_rest (s : State) (k : Nat) (d : Bytes) : hostRest (commitScene s k d).hl = hostRest (setScene s k d).hl :=
  setScene_rest (a := commitLines s (place s sceneLines (sceneUsed s) (linesFor d.length))) (b := s) commitLines_hostRest k d

theorem exec_longOperationDone_reads (s : State) (t : Frac) (us : Word) (r : LongDone) :
    exec (.longOperationDone t us r) s = .next (longEnd (pantryReads (atT s t) r.reads) us r) := by
  simp only [exec, execLongOperationDone]

theorem reported_of_cmp {src : Owner} {id : Word} {i : BitVec 12} {n m : Nat} (h : a.hl.cmp = b.hl.cmp)
    (hr : reported src id op i n m a u) : reported src id op i n m b u := by
  cases src
  · simpa only [reported, h] using hr
  · exact hr
  · exact hr

/-- A body that fits is committed. -/
theorem sceneStored_fits {k : Nat} {d : Bytes} (hok : sceneStatus d = stOk) (hfit : storeLen d ≤ sceneFree s) :
    sceneStored s us k d true = endLong (commitScene s k d) us stOk 0 :=
  (if_neg (fun h => bne_iff_ne.mp h hok)).trans ((if_neg (Nat.not_lt.mpr hfit)).trans (if_neg (by simp)))

theorem reported_setScene {src : Owner} {id : Word} {i : BitVec 12} {n m k : Nat} {d : Bytes}
    (hr : reported src id op i n m (setScene s k d) u) : reported src id op i n m s u :=
  reported_of_cmp (a := setScene s k d) rfl hr

theorem longHeld_setScene {l : LongOp} (hx : longHeld s x op l) (k : Nat) (d : Bytes) : longHeld (setScene s k d) x op l := hx

/-- The end of an operation that replaces the body of a slot. -/
theorem commitScene_ends {l : LongOp} (hx : longHeld s x op l) (hh : hostRest u.hl = hostRest s.hl)
    (ht : busRest u.tw = busRest s.tw) (k : Nat) (d : Bytes) :
    hostWork (endLong (commitScene u k d) us stOk 0).hl = hostWork { s.hl with scenes := tput [] s.hl.scenes k d } ∧
      reported x.src x.id op x.idx stOk 0 s (endLong (commitScene u k d) us stOk 0) ∧
      (endLong (commitScene u k d) us stOk 0).hl.long = none ∧ busIdle (endLong (commitScene u k d) us stOk 0).tw = busIdle s.tw := by
  obtain ⟨hrep, hdone, hwork, hidle, -⟩ := endLong_ends (us := us) (status := stOk) (result := 0) (longHeld_setScene hx k d)
    ((commitScene_rest u k d).trans (setScene_rest hh k d)) (commitScene_busRest.trans ht)
  rw [hx.2.2.2.2.2.2.1] at hrep
  exact ⟨hwork, reported_setScene hrep, hdone, hidle⟩

/-- A capture has not been told yet. -/
def capturing (s : State) : State := { s with hl := { s.hl with captureTold := false } }

theorem begun_capturing {l : LongOp} (h : begun c op l s) : begun c op l (capturing s) := h

/-- SCENE_READ gives the body out. -/
theorem exec_sceneRead {r : List Correction} (hr : cmdTaken s c 0x0063 [0x38]) (hh : c.src = .host)
    (hf : fieldsOk c [(0, 0x7F), (1, wordAll), (2, 0xFFFFFF)] = true) (hne : sceneOf s (pwN c 0) ≠ [])
    (hlen : (sceneOf s (pwN c 0)).length ≤ pwN c 2) : exec (.sceneRead t c r) s =
      .next (finish (dmaWrite (pantryReads (openSlot (atT s t) 0x0063 c).1 r) (pwN c 1) (sceneOf s (pwN c 0))) s.hl.nextSlot stOk
        (sceneOf s (pwN c 0)).length) := by
  have hw : fldN (pwN c 2) 23 0 = pwN c 2 := fldN_small (pwN_lt (k := 24) hf (by decide) rfl)
  have hopen := opened_taken (t := t) hr
  simp only [exec, execSceneRead]
  rw [runCmd_ready hr hf (by simp [addrOk, hh])]
  refine congrArg Host.Outcome.next ?_
  rw [sceneOf_opened hopen, if_neg hne, if_neg hne, hw, if_neg (Nat.not_lt.mpr hlen)]
  simp only [cmdWrite, hh]

/-! ### SCENE_RECALL -/

@[simp] theorem eng_pantryReads (s : State) (r : List Correction) (e : Nat) : eng (pantryReads s r) e = eng s e := by
  simp [eng]

theorem sceneSkips_reads (s : State) (t : Frac) (c : Cmd) (r : List Correction) (h : Scene) (b : Bytes) :
    sceneSkips (pantryReads (openSlot (atT s t) 0x0061 c).1 r) h b = sceneSkips s h b := by
  simp [sceneSkips]

theorem badPar_reads (s : State) (t : Frac) (c : Cmd) (r : List Correction) (l : List Nat) (p : List (Nat × Nat × Nat × Word)) :
    badPar (pantryReads (openSlot (atT s t) 0x0061 c).1 r) l p = badPar s l p := by
  simp [badPar]

theorem stagedSets_reads (s : State) (t : Frac) (c : Cmd) (r : List Correction) (o : Owner) :
    stagedSets (pantryReads (openSlot (atT s t) 0x0061 c).1 r) o = stagedSets s o := by
  simp [stagedSets]

theorem sharesMix_reads (s : State) (t : Frac) (c : Cmd) (r : List Correction) :
    sharesMix (pantryReads s r) (pantryReads (openSlot (atT s t) 0x0061 c).1 r) := by
  have hsv := pantryReads_sv (a := (openSlot (atT s t) 0x0061 c).1) (b := s) r (by simp)
  simp [sharesMix, hsv]

/-- The commit that a recall asks for. -/
def recallReq (s : State) (k : Nat) : CommitReq :=
  { tag := 0xFFFFFF00 + k, count := (sceneHead (sceneOf s k)).nxp, notify := true, atFn := false, target := 0,
    scene := some { slot := k, id := (sceneHead (sceneOf s k)).id,
                    skipped := maskOf 16 (sceneSkips s (sceneHead (sceneOf s k)) (sceneOf s k)).contains,
                    sets := sceneSets (sceneSkips s (sceneHead (sceneOf s k)) (sceneOf s k))
                      (scenePars (sceneHead (sceneOf s k)) (sceneOf s k)) } }

/-- A recall that every check passes completes with the engines it skips and the slot of its commit. -/
theorem exec_sceneRecall {r : List Correction} {p : State × Nat} (hr : cmdTaken s c 0x0061 (recallGroups s (pwN c 0)))
    (hf : fieldsOk c [(0, 0x7F)] = true) (hne : sceneOf s (pwN c 0) ≠ [])
    (hp : commitRecs (pantryReads s r) c.src (recallReq s (pwN c 0))
      (sceneRecs (sceneHead (sceneOf s (pwN c 0))) (sceneOf s (pwN c 0))) = .ok p)
    (hb : badPar s (sceneSkips s (sceneHead (sceneOf s (pwN c 0))) (sceneOf s (pwN c 0)))
      (scenePars (sceneHead (sceneOf s (pwN c 0))) (sceneOf s (pwN c 0))) = none)
    (hst : ∀ e ∈ (sceneHead (sceneOf s (pwN c 0))).engs,
      e ∉ sceneSkips s (sceneHead (sceneOf s (pwN c 0))) (sceneOf s (pwN c 0)) → e ∉ stagedSets s c.src) :
    exec (.sceneRecall t c r) s = .next (finish
      { pantryReads (openSlot (atT s t) 0x0061 c).1 r with mx := p.1.mx, pl := p.1.pl } s.hl.nextSlot stOk
      (maskOf 16 (sceneSkips s (sceneHead (sceneOf s (pwN c 0))) (sceneOf s (pwN c 0))).contains + p.2 * 65536)) := by
  have hslot : fldN (pwN c 0) 6 0 = pwN c 0 := fldN_small (pwN_lt (k := 7) hf (by decide) rfl)
  have hopen := opened_taken (t := t) hr
  simp only [exec, execSceneRecall, hslot]
  rw [runCmd_ready hr hf rfl]
  refine congrArg Host.Outcome.next ?_
  rw [sceneOf_opened hopen, if_neg hne, if_neg hne, sceneSkips_reads]
  have hcommit := commitRecs_shares (sharesMix_reads s t c r) hp
  have hany : ((sceneHead (sceneOf s (pwN c 0))).engs.any fun e =>
      !(sceneSkips s (sceneHead (sceneOf s (pwN c 0))) (sceneOf s (pwN c 0))).contains e &&
        (stagedSets s c.src).contains e) = false := by
    simpa using hst
  simp only [recallReq] at hcommit
  rw [hcommit]
  dsimp only
  rw [badPar_reads, hb]
  dsimp only
  rw [stagedSets_reads, hany]
  rfl

end

/-- Settles O31: a scene is stored, captured, deleted and read as a long operation or at once, and a recall queues its commit. -/
theorem scenes : Obligations.Scenes := by
  unfold Obligations.Scenes
  refine ⟨fun t c d b s hr hf hm ha hd => ?_, fun t c s hr hf hm => ?_, fun t us r k b x s hx hok hfit hnv => ?_,
    fun t us r k b x s hx hbad => ?_, fun t c s hr hf hne => ?_, fun t us r k x s hx hnv => ?_,
    fun t c l s hr hh hf hne hlen => ?_, fun t c b skip pars u q l s hr hf hbe hne hskip hpars hp hb hst => ?_,
    fun t c l s hr hf he => ?_⟩
  · have hw : fldN (pwN c 2) 23 0 = pwN c 2 := fldN_small (pwN_lt (k := 24) hf (by decide) rfl)
    have hexec : exec (.sceneSaveStore t c d) s =
        .next (startLong (openSlot (atT s t) 0x0060 c).1 0x0060 s.hl.nextSlot (.sceneStore (pwN c 0 % 128) b)) := by
      simp only [exec, execSceneSaveStore, hw]
      rw [runCmd_ready hr.1 hf (by simp [hm, ha])]
      simp only [cmdData_openSlot, hd]
      simp [fldN]
    obtain ⟨hbegun, honly⟩ := startLong_ready (t := t) (l := .sceneStore (pwN c 0 % 128) b) hr
    exact answers_eq hexec rfl ⟨hbegun, sceneOf_opened (opened_taken hr.1) _, honly⟩
  · have hexec : exec (.sceneSaveCapture t c) s = .next (capturing (startLong (openSlot (atT s t) 0x0060 c).1 0x0060 s.hl.nextSlot
        (.sceneCapture (pwN c 0 % 128) (fldN (pwN c 3) 11 0) (fldN (pwN c 3) 27 16) (fldN (pwN c 3) 47 32)))) := by
      simp only [exec, execSceneSaveCapture]
      rw [runCmd_ready hr.1 hf hm]
      simp [capturing, fldN]
    obtain ⟨hbegun, -, -⟩ := startLong_begun (l := .sceneCapture (pwN c 0 % 128) (fldN (pwN c 3) 11 0)
      (fldN (pwN c 3) 27 16) (fldN (pwN c 3) 47 32)) (opened_taken (t := t) hr.1) hr (opened_busy (opened_taken (t := t) hr.1))
    refine answers_eq hexec rfl ⟨begun_capturing hbegun, rfl, ?_, ?_⟩
    · exact (congrArg HostSide.scenes (opened_taken (t := t) hr.1).host :)
    · simp only [onlyWork_iff]
      simp [capturing, startLong, (opened_taken (t := t) hr.1).bus]
  · have hrest := pantryReads_hostRest (s := atT s t) (l := r.reads)
    have hexec : exec (.longOperationDone t us r) s =
        .next (endLong (commitScene (pantryReads (atT s t) r.reads) k b) us stOk 0) := by
      have hlong : (pantryReads (atT s t) r.reads).hl.long = some (.sceneStore k b) := (long_of_rest hrest).trans hx.2.2.2.2.1
      have hfree : sceneFree (pantryReads (atT s t) r.reads) = sceneFree s := sceneFree_of_rest hrest
      rw [exec_longOperationDone_reads, longEnd, hlong]
      dsimp only
      rw [hnv, sceneStored_fits hok (hfree ▸ hfit)]
    obtain ⟨hwork, hrep, hdone, hidle⟩ := commitScene_ends (us := us) hx (pantryReads_hostRest (s := atT s t) (l := r.reads))
      (pantryReads_busRest (s := atT s t)) k b
    refine answers_eq hexec rfl ⟨hwork, hrep, hdone, ?_⟩
    simp only [onlyWork_iff, hidle]
    simp
  · have hrest := pantryReads_hostRest (s := atT s t) (l := r.reads)
    have hexec : exec (.longOperationDone t us r) s =
        .next (endLong (pantryReads (atT s t) r.reads) us (sceneStatus b) (sceneFault b).2) := by
      have hlong : (pantryReads (atT s t) r.reads).hl.long = some (.sceneStore k b) := (long_of_rest hrest).trans hx.2.2.2.2.1
      rw [exec_longOperationDone_reads, longEnd, hlong]
      exact congrArg Host.Outcome.next (if_pos (bne_iff_ne.mpr hbad))
    obtain ⟨hrep, hdone, hwork, hidle, -⟩ := endLong_ends (us := us) (status := sceneStatus b) (result := (sceneFault b).2) hx hrest
      (pantryReads_busRest (s := atT s t))
    rw [hx.2.2.2.2.2.2.1] at hrep
    refine answers_eq hexec rfl ⟨hrep, hdone, ?_⟩
    simp only [onlyWork_iff, hwork, hidle]
    simp
  · have hexec : exec (.sceneDelete t c) s =
        .next (startLong (openSlot (atT s t) 0x0062 c).1 0x0062 s.hl.nextSlot (.sceneDelete (pwN c 0))) := by
      simp only [exec, execSceneDelete]
      rw [runCmd_ready hr.1 hf rfl]
      refine congrArg Host.Outcome.next (if_neg ?_)
      rwa [sceneOf_opened (opened_taken hr.1)]
    exact answers_eq hexec rfl (startLong_ready hr)
  · have hexec : exec (.longOperationDone t us r) s =
        .next (endLong (commitScene (pantryReads (atT s t) r.reads) k []) us stOk 0) := by
      have hlong : (pantryReads (atT s t) r.reads).hl.long = some (.sceneDelete k) :=
        (long_of_rest pantryReads_hostRest).trans hx.2.2.2.2.1
      rw [exec_longOperationDone_reads, longEnd, hlong]
      exact congrArg Host.Outcome.next (if_pos hnv)
    obtain ⟨hwork, hrep, hdone, hidle⟩ := commitScene_ends (us := us) hx (pantryReads_hostRest (s := atT s t) (l := r.reads))
      (pantryReads_busRest (s := atT s t)) k []
    refine answers_eq hexec rfl ⟨hwork, hrep, hdone, ?_⟩
    simp only [onlyWork_iff, hidle]
    simp
  · have hopen := opened_taken (t := t) hr.1
    have hopen' : Opened s t 0x0063 c (dmaWrite (pantryReads (openSlot (atT s t) 0x0063 c).1 l) (pwN c 1) (sceneOf s (pwN c 0))) :=
      opened_of_rest hopen (by simp) (by simp) (by simp)
    obtain ⟨hdone, hhost, hbus⟩ := finish_ready hr hopen' stOk (sceneOf s (pwN c 0)).length
    have hsv := pantryReads_sv (a := (openSlot (atT s t) 0x0063 c).1) (b := s) l (by simp)
    refine answers_eq (exec_sceneRead hr.1 hh hf hne hlen) rfl ⟨?_, ?_, hdone, ?_⟩
    · simp [dmaWrite, hsv]
    · exact (finish_grows _ _ _ _).mem (by simp [dmaWrite, push])
    · simp only [onlyCmd_iff, hhost, hbus]
      simp [dmaWrite]
  · subst hskip hpars hbe
    obtain ⟨hdone, hhost, hbus⟩ := finish_ready hr (opened_of_rest (b := { pantryReads (openSlot (atT s t) 0x0061 c).1 l with
      mx := u.mx, pl := u.pl }) (opened_taken (t := t) hr.1) (by simp) (by simp) (by simp)) stOk
      (maskOf 16 (sceneSkips s (sceneHead (sceneOf s (pwN c 0))) (sceneOf s (pwN c 0))).contains + q * 65536)
    have hsv := pantryReads_sv (a := (openSlot (atT s t) 0x0061 c).1) (b := s) l (by simp)
    refine answers_eq (exec_sceneRecall hr.1 hf hne hp hb hst) rfl ⟨?_, ?_, hdone, ?_⟩
    · simp
    · simp [hsv]
    · simp only [onlyCmd_iff, hhost, hbus]
      simp
  · have hslot : fldN (pwN c 0) 6 0 = pwN c 0 := fldN_small (pwN_lt (k := 7) hf (by decide) rfl)
    have hgroups : recallGroups s (pwN c 0) = [0] := if_pos he
    have hexec : exec (.sceneRecall t c l) s =
        .next (finish (openSlot (atT s t) 0x0061 c).1 s.hl.nextSlot stSceneEmpty noIndex) := by
      simp only [exec, execSceneRecall, hslot, hgroups]
      rw [runCmd_ready hr.1 hf rfl]
      refine congrArg Host.Outcome.next ?_
      rw [sceneOf_opened (opened_taken hr.1), if_pos he, if_pos he]
    exact answers_eq hexec rfl (answer_ready hr _ _)

end Sys2Proof.Proofs.Scenes

/-! What a capture builds passes the check of a scene body (R298, R306). -/

namespace Sys2Proof.Proofs.Capture

open Sys2Proof Sys2Proof.Machine Sys2Proof.Safety
open Sys2Proof.Proofs.ByteStrings

/-! ### Masks -/

theorem maskOf_succ (n : Nat) (p : Nat → Bool) : maskOf (n + 1) p = maskOf n p + if p n then 2 ^ n else 0 := by
  simp only [maskOf, List.range_succ, List.foldl_append, List.foldl_cons, List.foldl_nil]
  split <;> rfl

theorem maskOf_lt (n : Nat) (p : Nat → Bool) : maskOf n p < 2 ^ n := by
  induction n with
  | zero => simp [maskOf]
  | succ n ih =>
    rw [maskOf_succ, pow_succ]
    split <;> omega

theorem bitN_eq_testBit (n b : Nat) : bitN n b = n.testBit b := by
  simp [bitN, Nat.testBit, Nat.shiftRight_eq_div_pow, bne]
  rcases Nat.mod_two_eq_zero_or_one (n / 2 ^ b) with h | h <;> simp [h]

/-- A mask has the bits it was built of. -/
theorem bitN_maskOf {n i : Nat} (p : Nat → Bool) (h : i < n) : bitN (maskOf n p) i = p i := by
  rw [bitN_eq_testBit]
  induction n with
  | zero => omega
  | succ n ih =>
    rw [maskOf_succ]
    by_cases hn : i = n
    · subst hn
      have hz : (maskOf i p).testBit i = false := Nat.testBit_lt_two_pow (maskOf_lt i p)
      cases hp : p i
      · simpa using hz
      · simpa [Nat.add_comm, Nat.testBit_two_pow_add_eq] using hz
    · have hlt : i < n := by omega
      cases hp : p n
      · simpa using ih hlt
      · simpa [Nat.add_comm, Nat.testBit_two_pow_add_gt hlt] using ih hlt

/-! ### Records of 8 bytes -/

/-- Records of equal length are read back as they were written, whatever follows. -/
theorem chunks_flatten {w : Nat} {l : List Bytes} (h : ∀ x ∈ l, x.length = w) (r : Bytes) : chunks w l.length (l.flatten ++ r) = l := by
  induction l with
  | nil => rfl
  | cons x l ih =>
    have hx := h x List.mem_cons_self
    have htake : (x ++ (l.flatten ++ r)).take w = x := by rw [← hx, List.take_left]
    have hdrop : (x ++ (l.flatten ++ r)).drop w = l.flatten ++ r := by rw [← hx, List.drop_left]
    rw [List.flatten_cons, List.append_assoc, List.length_cons, chunks, htake, hdrop,
      ih fun y hy => h y (List.mem_cons_of_mem _ hy)]

theorem length_flatten_of {w : Nat} {l : List Bytes} (h : ∀ x ∈ l, x.length = w) : l.flatten.length = w * l.length := by
  induction l with
  | nil => simp
  | cons x l ih =>
    rw [List.flatten_cons, List.length_append, h x List.mem_cons_self, ih fun y hy => h y (List.mem_cons_of_mem _ hy),
      List.length_cons, Nat.mul_succ, Nat.add_comm]

theorem firstBad_none {α : Type} {l : List α} {ok : α → Bool} (h : ∀ x ∈ l, ok x = true) : firstBad l ok = none := by
  have hf : (l.zip (List.range l.length)).find? (fun x => !ok x.1) = none :=
    List.find?_eq_none.mpr fun x hx => by simp [h x.1 (List.of_mem_zip hx).1]
  rw [firstBad, hf]
  rfl

/-- A crosspoint record of a capture is well formed. -/
theorem parseRec_recBytes {op source sink : Nat} {gain : Int} (ho : op < 2) (hs : source < 8192) (hk : sink < 4096) :
    (parseRec (recBytes op source sink gain)).op = op ∧ (parseRec (recBytes op source sink gain)).rsv = 0 := by
  have hg : toU 24 gain < 16777216 := by
    simp only [toU]
    omega
  have hw : leNat (recBytes op source sink gain) = op * 2 ^ 62 + source * 2 ^ 49 + sink * 2 ^ 37 + toU 24 gain := by
    rw [recBytes, leNat_toLE, Nat.mod_eq_of_lt (by omega)]
  simp only [parseRec, hw, fldN]
  constructor <;> omega

/-- A parameter record of a capture names its engine and has no bit reserved. -/
theorem parRec_toLE {e w v : Nat} (he : e < 16) (hw : w < 4096) (hv : v < 2 ^ 32) :
    (parRec (toLE 8 (e * 2 ^ 60 + w * 2 ^ 48 + v))).1 = e ∧ (parRec (toLE 8 (e * 2 ^ 60 + w * 2 ^ 48 + v))).2.2.1 = 0 := by
  have hn : leNat (toLE 8 (e * 2 ^ 60 + w * 2 ^ 48 + v)) = e * 2 ^ 60 + w * 2 ^ 48 + v := by
    rw [leNat_toLE, Nat.mod_eq_of_lt (by omega)]
  simp only [parRec, hn, fldN]
  constructor <;> omega

/-! ### The format of a body -/

/-- A body of the form that R306 gives, built of its parts. -/
def bodyOf (mask id : Nat) (ids recs pars : List Bytes) : Bytes :=
  toLE 4 0x454E4353 ++ (toLE 2 1 ++ (toLE 2 mask ++ (toLE 4 recs.length ++ (toLE 2 pars.length ++ (toLE 2 0 ++ (toLE 4 id ++
    (List.replicate 12 0 ++ (ids.flatten ++ (recs.flatten ++ pars.flatten)))))))))

section
variable {mask id : Nat} {ids recs pars : List Bytes}

theorem sceneHead_bodyOf (hm : mask < 2 ^ 16) (hr : recs.length ≤ 32768) (hp : pars.length ≤ 4096) :
    (sceneHead (bodyOf mask id ids recs pars)).mask = mask ∧ (sceneHead (bodyOf mask id ids recs pars)).nxp = recs.length ∧
      (sceneHead (bodyOf mask id ids recs pars)).npar = pars.length := by
  have h1 : mask < 256 ^ 2 := hm
  have h2 : recs.length < 256 ^ 4 := by omega
  have h3 : pars.length < 256 ^ 2 := by omega
  simp [sceneHead, bodyOf, leAt_skip, leAt_toLE_head h1, leAt_toLE_head h2, leAt_toLE_head h3]

/-- The fixed fields of a body are as R298 asks. -/
theorem fixed_bodyOf : leAt (bodyOf mask id ids recs pars) 0 4 = 0x454E4353 ∧ leAt (bodyOf mask id ids recs pars) 4 2 = 1 ∧
    leAt (bodyOf mask id ids recs pars) 14 2 = 0 ∧ allZero (((bodyOf mask id ids recs pars).drop 20).take 12) = true := by
  have h1 : (0x454E4353 : Nat) < 256 ^ 4 := by decide
  have h2 : (1 : Nat) < 256 ^ 2 := by decide
  have h3 : (0 : Nat) < 256 ^ 2 := by decide
  refine ⟨leAt_toLE_head h1, ?_, ?_, ?_⟩
  · simp [bodyOf, leAt_skip, leAt_toLE_head h2]
  · simp [bodyOf, leAt_skip, leAt_toLE_head h3]
  · simp [bodyOf, List.take_append, allZero, toLE]

theorem length_bodyOf (hi : ∀ x ∈ ids, x.length = 4) (hr : ∀ x ∈ recs, x.length = 8) (hp : ∀ x ∈ pars, x.length = 8) :
    (bodyOf mask id ids recs pars).length = 32 + 4 * ids.length + 8 * recs.length + 8 * pars.length := by
  simp only [bodyOf, List.length_append, length_toLE, List.length_replicate, length_flatten_of hi, length_flatten_of hr,
    length_flatten_of hp]
  omega

theorem drop_bodyOf (hi : ∀ x ∈ ids, x.length = 4) :
    (bodyOf mask id ids recs pars).drop (32 + 4 * ids.length) = recs.flatten ++ pars.flatten := by
  have hsplit : bodyOf mask id ids recs pars = (toLE 4 0x454E4353 ++ (toLE 2 1 ++ (toLE 2 mask ++ (toLE 4 recs.length ++
      (toLE 2 pars.length ++ (toLE 2 0 ++ (toLE 4 id ++ (List.replicate 12 0 ++ ids.flatten)))))))) ++
        (recs.flatten ++ pars.flatten) := by
    simp only [bodyOf, List.append_assoc]
  rw [hsplit]
  refine List.drop_left' ?_
  simp only [List.length_append, length_toLE, List.length_replicate, length_flatten_of hi]
  omega

/-- A body whose parts are well formed passes its check. -/
theorem sceneStatus_bodyOf (hm : mask < 2 ^ 16) (hi : ∀ x ∈ ids, x.length = 4) (hr : ∀ x ∈ recs, x.length = 8)
    (hp : ∀ x ∈ pars, x.length = 8) (hnr : recs.length ≤ 32768) (hnp : pars.length ≤ 4096)
    (hids : ids.length = (engines.filter (bitN mask)).length)
    (hrec : ∀ x ∈ recs, (parseRec x).op < 2 ∧ (parseRec x).rsv = 0)
    (hpar : ∀ x ∈ pars, bitN mask (parRec x).1 = true ∧ (parRec x).2.2.1 = 0) :
    sceneStatus (bodyOf mask id ids recs pars) = stOk := by
  obtain ⟨f1, f2, f3, f4⟩ := fixed_bodyOf (mask := mask) (id := id) (ids := ids) (recs := recs) (pars := pars)
  obtain ⟨g1, g2, g3⟩ := sceneHead_bodyOf (id := id) (ids := ids) hm hnr hnp
  have hlen := length_bodyOf (mask := mask) (id := id) hi hr hp
  have hxp : (sceneHead (bodyOf mask id ids recs pars)).xpAt = 32 + 4 * ids.length := by
    rw [Scene.xpAt, Scene.engs, g1, hids]
  have hparAt : (sceneHead (bodyOf mask id ids recs pars)).parAt = 32 + 4 * ids.length + 8 * recs.length := by
    rw [Scene.parAt, hxp, g2]
  have hdrop : (bodyOf mask id ids recs pars).drop (32 + 4 * ids.length + 8 * recs.length) = pars.flatten := by
    rw [← List.drop_drop, drop_bodyOf hi]
    exact List.drop_left' (length_flatten_of hr)
  have hrecs : sceneRecs (sceneHead (bodyOf mask id ids recs pars)) (bodyOf mask id ids recs pars) = recs.map parseRec := by
    rw [sceneRecs, g2, hxp, drop_bodyOf hi, chunks_flatten hr]
  have hpars : scenePars (sceneHead (bodyOf mask id ids recs pars)) (bodyOf mask id ids recs pars) = pars.map parRec := by
    have hread := chunks_flatten hp []
    rw [List.append_nil] at hread
    rw [scenePars, g3, hparAt, hdrop, hread]
  have hgood : firstBad (recs.map parseRec) (fun r => r.op < 2 && r.rsv == 0) = none := firstBad_none fun r hm => by
    obtain ⟨x, hx, rfl⟩ := List.mem_map.mp hm
    simp [hrec x hx]
  have hgood' : firstBad (pars.map parRec) (fun p => bitN mask p.1 && p.2.2.1 == 0) = none := firstBad_none fun r hm => by
    obtain ⟨x, hx, rfl⟩ := List.mem_map.mp hm
    simp [hpar x hx]
  have hlen' : (sceneHead (bodyOf mask id ids recs pars)).len = (bodyOf mask id ids recs pars).length := by
    rw [Scene.len, hparAt, g3, hlen]
  unfold sceneStatus sceneFault
  dsimp only
  rw [if_neg, if_neg, if_neg, hrecs, hpars, g1, hgood, hgood']
  · simp [hlen']
  · simp [g2, g3, hnr, hnp]
  · simp [f1, f2, f3, f4, hlen]
    omega

end

/-! ### What a capture builds -/

section
variable {s : State}

/-- The parameters that a capture writes, of the engines listed. -/
def capturedWords (s : State) (es : List Nat) : List (Nat × Nat) :=
  es.flatMap (fun e => (captureWords (eng s e).recipe).map (fun w => (e, w)))

/-- The record of one parameter. -/
def wordBytes (s : State) (p : Nat × Nat) : Bytes :=
  toLE 8 (p.1 * 2 ^ 60 + p.2 * 2 ^ 48 +
    (((eng s p.1).recipe.map (fun (r : Recipe) => tget 0 r.words p.2)).getD 0).toNat)

/-- The crosspoint records of a capture. -/
def capturedRecs (s : State) (lo hi : Nat) : List Bytes :=
  ((List.range 4096).filter (fun k => lo ≤ k && k ≤ hi && !reservedSink k)).map (fun k => recBytes 1 0 k 0) ++
    (s.mx.xp.filter (fun e => lo ≤ xpSink e.1 && xpSink e.1 ≤ hi && !e.2.lost)).map
      (fun e => recBytes 0 (xpSource e.1) (xpSink e.1) e.2.cur)

theorem captureBody_eq (s : State) (lo hi engs id : Nat) : captureBody s lo hi engs id =
    (bodyOf (maskOf 16 (bitN engs)) id ((engines.filter (bitN engs)).map (fun e => toLE 4 (((eng s e).recipe.map (·.id)).getD 0)))
      (capturedRecs s lo hi) ((capturedWords s (engines.filter (bitN engs))).map (wordBytes s)),
     (capturedRecs s lo hi).length, (capturedWords s (engines.filter (bitN engs))).length) := by
  simp only [captureBody, bodyOf, capturedRecs, List.length_append, List.length_map, List.flatMap_def, List.flatten_append,
    List.append_assoc]
  rfl

theorem mem_captureWords {r : Option Recipe} {w : Nat} (h : w ∈ captureWords r) : ∃ q, r = some q ∧ w < q.nparam := by
  cases r with
  | none => simp [captureWords] at h
  | some q =>
    simp only [captureWords, List.mem_filter, List.mem_range] at h
    exact ⟨q, rfl, h.1⟩

theorem capturedRecs_wf {lo hi : Nat} (hh : hi < 4096) {x : Bytes} (hx : x ∈ capturedRecs s lo hi) :
    x.length = 8 ∧ (parseRec x).op < 2 ∧ (parseRec x).rsv = 0 := by
  rcases List.mem_append.mp hx with hx | hx
  · obtain ⟨k, hk, rfl⟩ := List.mem_map.mp hx
    have hlt : k < 4096 := List.mem_range.mp (List.mem_of_mem_filter hk)
    obtain ⟨ho, hv⟩ := parseRec_recBytes (op := 1) (source := 0) (gain := 0) (by decide) (by decide) hlt
    exact ⟨length_toLE _ _, by rw [ho]; decide, hv⟩
  · obtain ⟨e, he, rfl⟩ := List.mem_map.mp hx
    have hsink : xpSink e.1 < 4096 := by
      have := (List.mem_filter.mp he).2
      simp only [Bool.and_eq_true, decide_eq_true_eq] at this
      omega
    obtain ⟨ho, hv⟩ := parseRec_recBytes (op := 0) (source := xpSource e.1) (gain := e.2.cur) (by decide)
      (Nat.mod_lt _ (by decide)) hsink
    exact ⟨length_toLE _ _, by rw [ho]; decide, hv⟩

theorem capturedWords_wf {engs : Nat} (hr : ∀ e r, (eng s e).recipe = some r → r.nparam ≤ 4096) {x : Bytes}
    (hx : x ∈ (capturedWords s (engines.filter (bitN engs))).map (wordBytes s)) :
    x.length = 8 ∧ bitN (maskOf 16 (bitN engs)) (parRec x).1 = true ∧ (parRec x).2.2.1 = 0 := by
  obtain ⟨p, hp, rfl⟩ := List.mem_map.mp hx
  obtain ⟨e, he, hp⟩ := List.mem_flatMap.mp hp
  obtain ⟨w, hw, rfl⟩ := List.mem_map.mp hp
  obtain ⟨q, hq, hlt⟩ := mem_captureWords hw
  obtain ⟨he, hbit⟩ := List.mem_filter.mp he
  have he16 : e < 16 := List.mem_range.mp he
  obtain ⟨h1, h2⟩ := parRec_toLE (v := (((eng s e).recipe.map (fun (r : Recipe) => tget 0 r.words w)).getD 0).toNat) he16
    (hlt.trans_le (hr e q hq)) (BitVec.isLt _)
  refine ⟨length_toLE _ _, ?_, h2⟩
  rw [wordBytes, h1, bitN_maskOf _ he16, hbit]

end

/-- Settles O32: a captured body passes the check of its format. -/
theorem captureIsWellFormed : Obligations.CaptureIsWellFormed := by
  unfold Obligations.CaptureIsWellFormed
  intro lo hi engs id s hh _ hr hnr hnp
  rw [captureBody_eq] at hnr hnp ⊢
  dsimp only at hnr hnp ⊢
  have hmask : engines.filter (bitN (maskOf 16 (bitN engs))) = engines.filter (bitN engs) :=
    List.filter_congr fun e he => bitN_maskOf _ (List.mem_range.mp he)
  refine sceneStatus_bodyOf (maskOf_lt 16 _) (fun x hx => ?_) (fun x hx => (capturedRecs_wf hh hx).1)
    (fun x hx => (capturedWords_wf hr hx).1) hnr (by rwa [List.length_map]) ?_ (fun x hx => (capturedRecs_wf hh hx).2)
    fun x hx => (capturedWords_wf hr hx).2
  · obtain ⟨e, -, rfl⟩ := List.mem_map.mp hx
    exact length_toLE _ _
  · rw [hmask, List.length_map]

end Sys2Proof.Proofs.Capture

/-! An uncorrectable line of the Pantry: its spare, its report and what was in it (R385, R387). -/

namespace Sys2Proof.Proofs.PantryLoss

open Sys2Proof Sys2Proof.Machine Sys2Proof.Safety Sys2Proof.Laws
open Sys2Proof.Proofs.Frames Sys2Proof.Proofs.BringUp

section
variable {s v : State} {t : Frac} {l : Nat} {x : PantryLoss}

/-! ### The spare -/

/-- A line is served by its spare, and the lines of the remap tables are written. -/
def spared (v : State) (l : Nat) : State :=
  countWrite (countWrite { v with sv := { v.sv with retired := v.sv.retired + 1, remap := tput 0 v.sv.remap l (0x1800 + v.sv.retired) } }
    (remapLine 0 v.sv.retired)) (remapLine 1 v.sv.retired)

/-- LINE_RETIRED is reported. -/
def spareTold (v : State) (l : Nat) : State :=
  emit (spared v l) 0x0C0E (pantryRegion l) (pay [(0, 2, l), (2, 2, 0x1800 + v.sv.retired), (4, 4, lineWear v l)])

theorem retireLine_spare (h : v.sv.retired < 2048) : retireLine v l false = spareTold v l ∨
    retireLine v l false = pantryWear { spareTold v l with sv := { (spareTold v l).sv with spareOut := true } } 4 := by
  have hr : retireLine v l false = if (spareTold v l).sv.retired = 2048 && !(spareTold v l).sv.spareOut then
      pantryWear { spareTold v l with sv := { (spareTold v l).sv with spareOut := true } } 4 else spareTold v l :=
    if_neg (Nat.not_le.mpr h)
  rw [hr]
  split
  · exact .inr rfl
  · exact .inl rfl

theorem retireLine_none (h : 2048 ≤ v.sv.retired) : retireLine v l false = v := if_pos h

theorem spareTold_open {k : Nat} (h : evtOpen v (k + 1)) : evtOpen (spareTold v l) k :=
  (emit_open (s := spared v l) h _ _ _).2

/-- A retirement changes the record of the lines alone. -/
theorem retireLine_record (v : State) (l : Nat) : ∃ r m w o,
    (retireLine v l false).sv = { v.sv with retired := r, remap := m, wear := w, spareOut := o } := by
  rcases Nat.lt_or_ge v.sv.retired 2048 with h | h
  · have hsv : (spareTold v l).sv = (spared v l).sv := by simp [spareTold]
    rcases retireLine_spare (l := l) h with he | he
    · exact ⟨_, _, _, v.sv.spareOut, by rw [he, hsv]; rfl⟩
    · refine ⟨v.sv.retired + 1, tput 0 v.sv.remap l (0x1800 + v.sv.retired), (spared v l).sv.wear, true, ?_⟩
      rw [he]
      simp only [pantryWear, emit_keeps]
      rw [hsv]
      rfl
  · exact ⟨_, _, _, _, by rw [retireLine_none h]⟩

theorem retireLine_spared (h : v.sv.retired < 2048) : (retireLine v l false).sv.retired = v.sv.retired + 1 ∧
    (retireLine v l false).sv.remap = tput 0 v.sv.remap l (0x1800 + v.sv.retired) := by
  have hsv : (spareTold v l).sv = (spared v l).sv := by simp [spareTold]
  have hs : (spareTold v l).sv.retired = v.sv.retired + 1 ∧ (spareTold v l).sv.remap = tput 0 v.sv.remap l (0x1800 + v.sv.retired) := by
    rw [hsv]
    exact ⟨rfl, rfl⟩
  rcases retireLine_spare (l := l) h with he | he
  · rwa [he]
  · rw [he]
    simpa only [pantryWear, emit_keeps] using hs

/-- At most two records are written at a retirement. -/
theorem retireLine_open {k : Nat} (h : evtOpen v (k + 2)) : evtOpen (retireLine v l false) k := by
  rcases Nat.lt_or_ge v.sv.retired 2048 with hr | hr
  · have ht : evtOpen (spareTold v l) (k + 1) := spareTold_open h
    rcases retireLine_spare (l := l) hr with he | he
    · rw [he]
      exact evtOpen_mono ht (by omega)
    · rw [he]
      exact (emit_open (s := { spareTold v l with sv := { (spareTold v l).sv with spareOut := true } }) ht _ _ _).2
  · rw [retireLine_none hr]
    exact evtOpen_mono h (by omega)

theorem retireLine_raised (h : v.sv.retired < 2048) (he : evtOpen v 1) (hf : v.fr.fn = s.fr.fn) (hn : v.now = t) :
    raised s t 0x0C0E (pantryRegion l) (pay [(0, 2, l), (2, 2, 0x1800 + v.sv.retired), (4, 4, lineWear v l)])
      (retireLine v l false) := by
  have ht : raised s t 0x0C0E (pantryRegion l) (pay [(0, 2, l), (2, 2, 0x1800 + v.sv.retired), (4, 4, lineWear v l)])
      (spareTold v l) := raised_emit (s := s) (t := spared v l) he hf hn
  rcases retireLine_spare (l := l) h with hr | hr
  · rwa [hr]
  · rw [hr]
    exact raised_of_grows ht ((emit_grows { spareTold v l with sv := { (spareTold v l).sv with spareOut := true } } _ _ _).of_out rfl)

/-! ### What was in the line -/

theorem loseEnv_grows (v : State) (l : Nat) : Grows v (loseEnv v l) := by
  unfold loseEnv
  split
  · exact .refl v
  · dsimp only
    split
    · exact .of_eq rfl
    · exact ((each_grows applyFailSafe_grows _ _).trans (emit_grows _ _ _ _)).of_out rfl

theorem loseLine_grows (v : State) (x : PantryLoss) : Grows v (loseLine v x) := by
  unfold loseLine
  dsimp only
  split
  · split
    · exact .of_eq rfl
    · exact .refl v
  · exact each_grows (fun u e => .of_eq (by simp)) _ _
  · exact loseEnv_grows _ _
  · exact .refl v
  · exact .of_eq rfl
  · exact .of_eq rfl
  · split
    · exact .of_eq rfl
    · exact .refl v

/-- The record of the lines themselves stays. -/
def linesOf (v : State) : Nat × Nat × Tbl Nat × Tbl Nat := (v.sv.eccUncorrected, v.sv.retired, v.sv.remap, v.sv.wear)

theorem loseEnv_lines (v : State) (l : Nat) : linesOf (loseEnv v l) = linesOf v := by
  unfold loseEnv
  split
  · rfl
  · dsimp only
    split
    · rfl
    · simp [linesOf]

theorem loseLine_lines (v : State) (x : PantryLoss) : linesOf (loseLine v x) = linesOf v := by
  unfold loseLine
  dsimp only
  split
  · split <;> rfl
  · exact each_keeps linesOf fun u e => by simp [linesOf, loseCal]
  · exact loseEnv_lines _ _
  · rfl
  · rfl
  · rfl
  · split <;> rfl

/-! ### The report -/

/-- The count of uncorrectable lines. -/
def uncorrectable (s : State) (t : Frac) : State :=
  { atT s t with sv := { s.sv with eccUncorrected := inc16 s.sv.eccUncorrected } }

/-- The line has its spare, and PANTRY_UNCORRECTABLE is reported. -/
def lossTold (s : State) (t : Frac) (l : Nat) : State :=
  emit (retireLine (uncorrectable s t) l false) 0x0C0D (pantryRegion l) (pay [(0, 2, l), (4, 2, inc16 s.sv.eccUncorrected)])

theorem exec_pantryUncorrectable (s : State) (t : Frac) (x : PantryLoss) :
    exec (.pantryUncorrectable t x) s = .next (loseLine (lossTold s t x.line.toNat) x) := by
  obtain ⟨r, m, w, o, hsv⟩ := retireLine_record (uncorrectable s t) x.line.toNat
  have hecc : (retireLine (uncorrectable s t) x.line.toNat false).sv.eccUncorrected = inc16 s.sv.eccUncorrected := by
    rw [hsv]
    rfl
  simp only [exec, execPantryUncorrectable, lineLost, lossTold]
  rw [← hecc]
  rfl

/-- What a line held is as it was when its loss is reported. -/
theorem lossTold_record (s : State) (t : Frac) (l : Nat) : ∃ r m w o,
    (lossTold s t l).sv = { s.sv with eccUncorrected := inc16 s.sv.eccUncorrected, retired := r, remap := m, wear := w,
                                      spareOut := o } := by
  obtain ⟨r, m, w, o, hsv⟩ := retireLine_record (uncorrectable s t) l
  exact ⟨r, m, w, o, by simp only [lossTold, emit_keeps, hsv]; rfl⟩

@[simp] theorem lossTold_keeps (s : State) (t : Frac) (l : Nat) : (lossTold s t l).pending = s.pending ∧
    (lossTold s t l).regs = s.regs ∧ (lossTold s t l).fr = s.fr ∧ (lossTold s t l).mx = s.mx ∧ (lossTold s t l).fx = s.fx ∧
    (lossTold s t l).ps = s.ps ∧ (lossTold s t l).sp = s.sp ∧ (lossTold s t l).ai = s.ai ∧ (lossTold s t l).aq = s.aq ∧
    (lossTold s t l).dp = s.dp ∧ (lossTold s t l).ck = s.ck ∧ (lossTold s t l).sc = s.sc ∧
    hostRest (lossTold s t l).hl = hostRest s.hl ∧ (lossTold s t l).st = s.st ∧ busRest (lossTold s t l).tw = busRest s.tw ∧
    (lossTold s t l).pd = s.pd ∧ (lossTold s t l).ct = s.ct ∧ (lossTold s t l).pl = s.pl ∧ (lossTold s t l).vc = s.vc := by
  simp [lossTold, uncorrectable]

theorem lossTold_ecc (s : State) (t : Frac) (l : Nat) : (lossTold s t l).sv.eccUncorrected = inc16 s.sv.eccUncorrected := by
  obtain ⟨r, m, w, o, hsv⟩ := lossTold_record s t l
  rw [hsv]

theorem lossTold_spared (h : s.sv.retired < 2048) : (lossTold s t l).sv.retired = s.sv.retired + 1 ∧
    (lossTold s t l).sv.remap = tput 0 s.sv.remap l (0x1800 + s.sv.retired) := by
  simp only [lossTold, emit_keeps]
  exact retireLine_spared (v := uncorrectable s t) (l := l) h

theorem lossTold_full (h : 2048 ≤ s.sv.retired) : (lossTold s t l).sv.retired = s.sv.retired ∧
    (lossTold s t l).sv.remap = s.sv.remap ∧ (lossTold s t l).sv.wear = s.sv.wear := by
  have hr : retireLine (uncorrectable s t) l false = uncorrectable s t := retireLine_none h
  simp only [lossTold, emit_keeps, hr]
  exact ⟨rfl, rfl, rfl⟩

theorem lossTold_raised (he : evtOpen s 4) : raised s t 0x0C0D (pantryRegion l)
    (pay [(0, 2, l), (4, 2, inc16 s.sv.eccUncorrected)]) (lossTold s t l) := by
  have hopen : evtOpen (retireLine (uncorrectable s t) l false) 2 := retireLine_open (k := 2) (v := uncorrectable s t) he
  exact raised_emit (t := retireLine (uncorrectable s t) l false) (evtOpen_mono hopen (by omega)) (by simp [uncorrectable])
    (by simp [uncorrectable])

theorem lossTold_spareRaised (h : s.sv.retired < 2048) (he : evtOpen s 4) : raised s t 0x0C0E (pantryRegion l)
    (pay [(0, 2, l), (2, 2, 0x1800 + s.sv.retired), (4, 4, lineWear s l)]) (lossTold s t l) := by
  have hr : raised s t 0x0C0E (pantryRegion l) (pay [(0, 2, l), (2, 2, 0x1800 + s.sv.retired), (4, 4, lineWear s l)])
      (retireLine (uncorrectable s t) l false) :=
    retireLine_raised (v := uncorrectable s t) h (evtOpen_mono (s := s) he (by omega)) rfl rfl
  exact raised_of_grows hr (emit_grows _ _ _ _)

theorem loseLine_record (v : State) (x : PantryLoss) : (loseLine v x).sv.eccUncorrected = v.sv.eccUncorrected ∧
    (loseLine v x).sv.retired = v.sv.retired ∧ (loseLine v x).sv.remap = v.sv.remap ∧ (loseLine v x).sv.wear = v.sv.wear := by
  simpa [linesOf] using loseLine_lines v x

/-- Where a remap table names a spare, it serves the line. -/
theorem servingLine_of_remap {i : Nat} {m : Tbl Nat} (h : v.sv.remap = tput 0 m l (0x1800 + i)) : servingLine v l = 0x1800 + i := by
  unfold servingLine
  dsimp only
  rw [h, tget_tput_same]
  exact if_neg (by omega)

theorem lossTold_held (s : State) (t : Frac) (l : Nat) : (∀ b, fwSlot (lossTold s t l) b = fwSlot s b) ∧
    (lossTold s t l).sv.sceneAt = s.sv.sceneAt := by
  obtain ⟨r, m, w, o, hsv⟩ := lossTold_record s t l
  exact ⟨fun b => by simp only [fwSlot, hsv], by rw [hsv]⟩

theorem loseLine_cal {e : Fin 512} (hr : pantryRegion x.line.toNat = 1) (hx : x.entries = [e]) : loseLine v x = loseCal v e.val := by
  simp only [loseLine, hr, hx]
  rfl

theorem loseLine_fw {b : Bool} (hr : pantryRegion x.line.toNat = 4 + b2n b) :
    loseLine v x = setFwSlot v b { fwSlot v b with st := .invalid } := by
  cases b <;> simp only [loseLine, hr, b2n] <;> rfl

theorem loseLine_scene {e : Nat × List Nat} (hr : pantryRegion x.line.toNat = 6)
    (hf : v.sv.sceneAt.find? (fun e => e.2.contains x.line.toNat) = some e) :
    loseLine v x = setScene { v with sv := { v.sv with sceneAt := tput [] v.sv.sceneAt e.1 [] } } e.1 [] := by
  simp only [loseLine, hr, hf]

theorem loseLine_free (hr : pantryRegion x.line.toNat = 6)
    (hf : v.sv.sceneAt.find? (fun e => e.2.contains x.line.toNat) = none) : loseLine v x = v := by
  simp only [loseLine, hr, hf]

end

end Sys2Proof.Proofs.PantryLoss

/-! Keys, owners, reports and the Pantry (R364–R368, R377, R380, R381, R385). -/

namespace Sys2Proof.Proofs.Keys

open Sys2Proof Sys2Proof.Machine Sys2Proof.Safety Sys2Proof.Laws
open Sys2Proof.Proofs.Frames Sys2Proof.Proofs.Reads Sys2Proof.Proofs.Checks Sys2Proof.Proofs.Wear Sys2Proof.Proofs.LongEnds
open Sys2Proof.Proofs.ByteStrings Sys2Proof.Proofs.PantryLoss
open Sys2Proof.Proofs.Scenes (opened_of_rest pwN_lt fldN_small pantryReads_sv sceneOf_of_rest sceneOf_setScene)
open Sys2Proof.Proofs.Firmware (worn committed exec_longOperationDone commitLines_worn)

/-! ### Lengths -/

@[simp] theorem length_toBE (n v : Nat) : (toBE n v).length = n := by simp [toBE]

theorem strict_eq {α : Type} (n : Nat) (k : Nat → α) : strict n k = k n := by cases n <;> rfl

theorem length_shaRounds : ∀ (ks w : List Nat) (a b c d e f g h : Nat), (shaRounds ks w a b c d e f g h).length = 8 := by
  intro ks
  induction ks with
  | nil => intros; rfl
  | cons k ks ih =>
    intro w a b c d e f g h
    simp only [shaRounds, strict_eq]
    exact ih _ _ _ _ _ _ _ _ _

theorem length_shaBlock {v : List Nat} (h : v.length = 8) (b : Bytes) : (shaBlock v b).length = 8 := by
  simp only [shaBlock, List.length_map, List.length_zip, length_shaRounds, h, min_self]

theorem length_shaBlocks (l : List Bytes) {v : List Nat} (h : v.length = 8) : (l.foldl shaBlock v).length = 8 := by
  induction l generalizing v with
  | nil => exact h
  | cons b l ih => exact ih (length_shaBlock h b)

theorem length_flatMap_of {α β : Type} {f : α → List β} {n : Nat} {l : List α} (h : ∀ x ∈ l, (f x).length = n) :
    (l.flatMap f).length = n * l.length := by
  induction l with
  | nil => simp
  | cons x l ih =>
    rw [List.flatMap_cons, List.length_append, h x List.mem_cons_self, ih fun y hy => h y (List.mem_cons_of_mem _ hy),
      List.length_cons, Nat.mul_succ, Nat.add_comm]

theorem length_sha384 (m : Bytes) : (sha384 m).length = 48 := by
  have hv : shaInit.length = 8 := rfl
  simp only [sha384]
  rw [List.length_take, length_flatMap_of (n := 8) fun x _ => length_toBE 8 x, length_shaBlocks _ hv]
  rfl

theorem length_attestEngine (s : State) (e : Nat) : (attestEngine s e).length = 12 := by
  unfold attestEngine
  split <;> simp

theorem length_attestChannel (s : State) (c : Nat) : (attestChannel s c).length = 12 := by
  unfold attestChannel
  split <;> simp

theorem length_hashBytes (o : OwnerSlot) : (hashBytes o).length = 48 := by
  simp [hashBytes]

theorem length_pubOf (d : Nat) : (pubOf d).length = 97 := by
  simp [pubOf, pubBytes]

theorem length_signWith (d k : Nat) (m : Bytes) : (signWith d k m).length = 96 := by
  simp [signWith]

/-- The report is as long as R380 says. -/
theorem length_attestBody (s : State) {ch : Bytes} (h : ch.length = 48) : (attestBody s ch).length = 768 := by
  simp only [attestBody, List.length_append, length_toLE, length_sha384, h, length_pubOf,
    length_flatMap_of (n := 12) fun e _ => length_attestEngine s e, length_flatMap_of (n := 12) fun c _ => length_attestChannel s c,
    length_flatMap_of (n := 48) fun i _ => length_hashBytes (ownerSlot s i),
    length_flatMap_of (n := 1) fun i _ => length_toLE 1 (ownerStCode (ownerSlot s i).st), List.length_range]

section
variable {a b s : State} {t : Frac} {us : Word} {x : CmpSlot} {c : Cmd}

/-! ### Keys and owners -/

theorem draws_openSlot (s : State) (t : Frac) (op : Nat) (c : Cmd) : (openSlot (atT s t) op c).1.draws = s.draws := by
  unfold openSlot
  dsimp only
  split <;> rfl

theorem drawKey_of_draws (h : a.draws = b.draws) : (drawKey a).1 = (drawKey b).1 := by
  simp only [drawKey, drawBytes, h]

theorem dckRecord_of_drk (h : a.sv.drk = b.sv.drk) (k d : Nat) : dckRecord a k d = dckRecord b k d := by
  simp only [dckRecord, kStore, h]

/-- A new content key in the Pantry. -/
def keyStored (s : State) (t : Frac) (w : Tbl Nat) (k j d : Nat) : State :=
  { committed s t w k j with sv := { (committed s t w k j).sv with
      dck := d, dckRec := dckRecord s (inc8 s.sv.keygen) d, keygen := inc8 s.sv.keygen } }

/-- A key is stored in little-worn lines, and reported. -/
theorem storeKey_worn {w : Tbl Nat} {k d : Nat} (h : WearUnder (worn s t w k) 49001000) : ∃ w' j,
    storeKey (worn s t w k) d = emit (keyStored s t w' k j d) 0x0C0A noUnit
      (pay [(0, 8, recipientOf d), (8, 1, inc8 s.sv.keygen)]) := by
  have hk : (worn s t w k).sv.keygen = s.sv.keygen := rfl
  obtain ⟨w', j, hc⟩ := commitLines_worn (l := [dckLine (inc8 s.sv.keygen)]) h (by simp)
  have hd : dckRecord (committed s t w' k j) (inc8 s.sv.keygen) d = dckRecord s (inc8 s.sv.keygen) d := dckRecord_of_drk rfl _ _
  refine ⟨w', j, ?_⟩
  unfold storeKey
  dsimp only
  rw [hk, hc, hd]
  rfl

/-- The end of an operation that writes an owner's slot. -/
theorem ownerDone {op : Nat} {l : LongOp} {w : Tbl Nat} {k n code : Nat} {o : OwnerSlot} {p : BitVec 128} (hx : longHeld s x op l)
    (he : evtOpen s 1) :
    let s' := endLong (emit (setOwnerSlot (worn s t w k) n o) code n p) us stOk 0
    ownerSlot s' n = o ∧ (∀ k, k ≠ n → ownerSlot s' k = ownerSlot s k) ∧ raised s t code n p s' ∧
      reported x.src x.id op x.idx stOk 0 s s' ∧ onlyWork [.sv] s s' := by
  intro s'
  obtain ⟨hrep, -, hwork, hidle, -⟩ := endLong_ends (us := us) (status := stOk) (result := 0) hx
    (u := emit (setOwnerSlot (worn s t w k) n o) code n p) (by simp [setOwnerSlot, worn]) (by simp [setOwnerSlot, worn])
  have hraised : raised s t code n p (emit (setOwnerSlot (worn s t w k) n o) code n p) :=
    raised_emit_of (s := s) (k := 0) he rfl rfl rfl
  have hslot : ∀ k', ownerSlot s' k' = ownerSlot (setOwnerSlot (worn s t w k) n o) k' := fun k' => by
    simp only [s', ownerSlot, endLong_keeps, emit_keeps]
  rw [hx.2.2.2.2.2.2.1] at hrep
  refine ⟨?_, fun k' hk => ?_, raised_of_grows hraised (endLong_grows _ _ _ _), hrep, ?_⟩
  · rw [hslot, ownerSlot_setOwnerSlot, if_pos rfl]
  · rw [hslot, ownerSlot_setOwnerSlot, if_neg hk]
    rfl
  · simp only [onlyWork_iff, s', hwork, hidle]
    simp [setOwnerSlot, worn]

/-! ### The report and the certificates -/

theorem attestBody_openSlot (s : State) (t : Frac) (op : Nat) (c : Cmd) (ch : Bytes) :
    attestBody (openSlot (atT s t) op c).1 ch = attestBody s ch := by
  have he : attestEngine (openSlot (atT s t) op c).1 = attestEngine s := by
    funext e
    simp only [attestEngine, openSlot_keeps, atT_keeps]
  have hch : attestChannel (openSlot (atT s t) op c).1 = attestChannel s := by
    funext k
    simp only [attestChannel, openSlot_keeps, atT_keeps]
  simp only [attestBody, he, hch, fwSlot, ownerSlot, openSlot_keeps, atT_keeps]

theorem signDik_openSlot (s : State) (t : Frac) (op : Nat) (c : Cmd) (m : Bytes) :
    (signDik (openSlot (atT s t) op c).1 m).1 = (signDik s m).1 := by
  simp only [signDik, dikKey, openSlot_keeps, atT_keeps, drawKey_of_draws (draws_openSlot s t op c)]

/-- A host's command that writes its answer to memory completes with it. -/
theorem dmaWrite_ready {op : Nat} {gs : List Nat} {u : State} (hr : cmdReady s c op gs) (hu : Opened s t op c u) (addr : Nat)
    (m : Bytes) (status result : Nat) :
    Out.dma addr m ∈ (finish (dmaWrite u addr m) s.hl.nextSlot status result).out ∧
      completed c op status result s (finish (dmaWrite u addr m) s.hl.nextSlot status result) ∧
      hostIdle (finish (dmaWrite u addr m) s.hl.nextSlot status result).hl = hostIdle s.hl ∧
      busIdle (finish (dmaWrite u addr m) s.hl.nextSlot status result).tw = busIdle s.tw := by
  obtain ⟨hdone, hhost, hbus⟩ := finish_ready hr (opened_of_rest hu (b := dmaWrite u addr m) (by simp) (by simp) (by simp))
    status result
  exact ⟨(finish_grows _ _ _ _).mem (by simp [dmaWrite, push]), hdone, hhost, hbus⟩

theorem exec_svAttest {d : Dma} {ch : Bytes} (hr : cmdTaken s c 0x0082 [0x38]) (hh : c.src = .host)
    (hf : fieldsOk c [(0, wordAll), (1, wordAll), (2, 0xFFFF)] = true) (hlen : 864 ≤ pwN c 2) (hl : s.sv.larderOk = true)
    (hd : cmdData s c d 0 48 = some ch) : exec (.svAttest t c d) s =
      .next (finish (dmaWrite (signDik (openSlot (atT s t) 0x0082 c).1 (attestBody s ch)).2 (pwN c 1)
        (attestBody s ch ++ (signDik s (attestBody s ch)).1)) s.hl.nextSlot stOk 864) := by
  have hw : pwN c 2 % 65536 = pwN c 2 := Nat.mod_eq_of_lt (pwN_lt (k := 16) hf (by decide) rfl)
  simp only [exec, execSvAttest]
  rw [runCmd_ready hr hf (by simp [addrOk, hh])]
  refine congrArg Host.Outcome.next ?_
  rw [hw, if_neg (Nat.not_lt.mpr hlen), if_neg (by simp [hl]), cmdData_openSlot, hd]
  simp only [cmdWrite, hh, attestBody_openSlot, signDik_openSlot]

theorem exec_svCertRead {l : List Correction} (hr : cmdTaken s c 0x0086 [0x38]) (hh : c.src = .host)
    (hf : fieldsOk c [(0, wordAll), (1, 0xFFFF)] = true) (hl : s.sv.larderOk = true) : exec (.svCertRead t c l) s =
      .next (if pwN c 1 < certs.length then finish (openSlot (atT s t) 0x0086 c).1 s.hl.nextSlot stBadParam certs.length
        else finish (dmaWrite (pantryReads (openSlot (atT s t) 0x0086 c).1 l) (pwN c 0) certs) s.hl.nextSlot stOk certs.length) := by
  have hw : pwN c 1 % 65536 = pwN c 1 := Nat.mod_eq_of_lt (pwN_lt (k := 16) hf (by decide) rfl)
  simp only [exec, execSvCertRead]
  rw [runCmd_ready hr hf (by simp [addrOk, hh])]
  simp only [hw, cmdWrite, hh, openSlot_keeps, atT_keeps, hl, Bool.not_true, Bool.false_eq_true, if_false]

end

/-- Settles O41: keys, owners and reports are made as their operations end, and a lost line is counted, spared and emptied. -/
theorem keysOwnersAndPantry : Obligations.KeysOwnersAndPantry := by
  unfold Obligations.KeysOwnersAndPantry
  refine ⟨fun t c s hr hf hp hl => ?_, fun t us r d x s hx hnv hw he => ?_, fun t c d h s hr hf ha ho hd => ?_,
    fun t us r n h x s hx hnv hw he => ?_, fun t c s hr hf => ?_, fun t us r n x s hx hnv hw he => ?_,
    fun t c d ch s hr hh hf hlen hl hd => ?_, fun t c l s hr hh hf hl => ?_, fun t x s he => ?_, fun t x s hreg => ?_,
    fun t x e s hreg hx => ?_, fun t x b s hreg => ?_, fun t x k l s hreg hfind => ?_, fun t x s hreg hfind => ?_⟩
  · have hexec : exec (.svKeygen t c) s = .next (startLong (drawKey (openSlot (atT s t) 0x0083 c).1).2 0x0083 s.hl.nextSlot
        (.keygen (drawKey s).1)) := by
      simp only [exec, execSvKeygen]
      rw [runCmd_ready hr.1 hf (by simp [hp])]
      refine congrArg Host.Outcome.next ((if_neg (by simp [hl])).trans ?_)
      rw [drawKey_of_draws (draws_openSlot s t 0x0083 c)]
    have hopen := opened_of_eq (v := (drawKey (openSlot (atT s t) 0x0083 c).1).2) (opened_taken (t := t) hr.1) rfl rfl rfl
    obtain ⟨hbegun, hwork, hidle⟩ := startLong_begun (l := .keygen (drawKey s).1) hopen hr (opened_busy hopen)
    refine answers_eq hexec rfl ⟨hbegun, ?_⟩
    simp only [onlyWork_iff, hwork, hidle]
    simp [startLong]
  · obtain ⟨w, k, hu, hexec⟩ := exec_longOperationDone (t := t) (us := us) hw
    obtain ⟨w', j, hstore⟩ := storeKey_worn (d := d) hu
    have hend : longEnd (worn s t w k) us r = endLong (emit (keyStored s t w' k j d) 0x0C0A noUnit
        (pay [(0, 8, recipientOf d), (8, 1, inc8 s.sv.keygen)])) us stOk 0 := by
      have hlong : (worn s t w k).hl.long = some (.keygen d) := hx.2.2.2.2.1
      unfold longEnd
      rw [hlong, ← hstore]
      exact if_pos hnv
    rw [hend] at hexec
    obtain ⟨hrep, hdone, hwork, hidle, -⟩ := endLong_ends (us := us) (status := stOk) (result := 0) hx
      (u := emit (keyStored s t w' k j d) 0x0C0A noUnit (pay [(0, 8, recipientOf d), (8, 1, inc8 s.sv.keygen)]))
      (by simp [keyStored, committed]) (by simp [keyStored, committed])
    have hraised : raised s t 0x0C0A noUnit (pay [(0, 8, recipientOf d), (8, 1, inc8 s.sv.keygen)])
        (emit (keyStored s t w' k j d) 0x0C0A noUnit (pay [(0, 8, recipientOf d), (8, 1, inc8 s.sv.keygen)])) :=
      raised_emit_of (s := s) (k := 0) he rfl rfl rfl
    rw [hx.2.2.2.2.2.2.1] at hrep
    refine answers_eq hexec rfl ⟨?_, ?_, ?_, raised_of_grows hraised (endLong_grows _ _ _ _), hrep, hdone, ?_⟩
    · simp only [endLong_keeps, emit_keeps, keyStored]
    · simp only [endLong_keeps, emit_keeps, keyStored]
    · simp only [endLong_keeps, emit_keeps, keyStored]
    · simp only [onlyWork_iff, hwork, hidle]
      simp [keyStored, committed]
  · have hi : pwN c 0 % 4 = pwN c 0 := Nat.mod_eq_of_lt (pwN_lt (k := 2) hf (by decide) rfl)
    have hslot : ownerSlot (openSlot (atT s t) 0x0084 c).1 (pwN c 0) = ownerSlot s (pwN c 0) := by
      simp only [ownerSlot, openSlot_keeps, atT_keeps]
    have hexec : exec (.svOwnerEnrol t c d) s =
        .next (startLong (openSlot (atT s t) 0x0084 c).1 0x0084 s.hl.nextSlot (.enrol (pwN c 0) h)) := by
      simp only [exec, execSvOwnerEnrol]
      rw [runCmd_ready hr.1 hf ha]
      simp only [hi, hslot, ho, cmdData_openSlot, hd]
    exact answers_eq hexec rfl (startLong_ready hr)
  · obtain ⟨w, k, hu, hexec⟩ := exec_longOperationDone (t := t) (us := us) hw
    have hend : longEnd (worn s t w k) us r = endLong (emit (setOwnerSlot (worn s t w k) n
        { st := .enrolled, seq := enrolled s, hash := h, bad := false }) 0x0C03 n
        (pay [(0, 1, enrolled s), (4, 8, leAt h 0 8)])) us stOk 0 := by
      have hlong : (worn s t w k).hl.long = some (.enrol n h) := hx.2.2.2.2.1
      unfold longEnd
      rw [hlong]
      exact if_neg (by simp [hnv])
    exact answers_eq (hexec.trans (congrArg Host.Outcome.next hend)) rfl (ownerDone hx he)
  · have hi : pwN c 0 % 4 = pwN c 0 := Nat.mod_eq_of_lt (pwN_lt (k := 2) hf (by decide) rfl)
    have hexec : exec (.svOwnerRevoke t c) s =
        .next (startLong (openSlot (atT s t) 0x0085 c).1 0x0085 s.hl.nextSlot (.revoke (pwN c 0))) := by
      simp only [exec, execSvOwnerRevoke, hi]
      rw [runCmd_ready hr.1 hf rfl]
    exact answers_eq hexec rfl (startLong_ready hr)
  · obtain ⟨w, k, hu, hexec⟩ := exec_longOperationDone (t := t) (us := us) hw
    have hend : longEnd (worn s t w k) us r = endLong (emit (setOwnerSlot (worn s t w k) n
        { ownerSlot s n with st := .revoked }) 0x0C04 n (pay [(0, 1, ownerStCode (ownerSlot s n).st)])) us stOk 0 := by
      have hlong : (worn s t w k).hl.long = some (.revoke n) := hx.2.2.2.2.1
      unfold longEnd
      rw [hlong]
      exact if_neg (by simp [hnv])
    exact answers_eq (hexec.trans (congrArg Host.Outcome.next hend)) rfl (ownerDone hx he)
  · have hopen := opened_of_eq (v := (signDik (openSlot (atT s t) 0x0082 c).1 (attestBody s ch)).2) (opened_taken (t := t) hr.1)
      rfl rfl rfl
    obtain ⟨hdma, hdone, hhost, hbus⟩ := dmaWrite_ready hr hopen (pwN c 1) (attestBody s ch ++ (signDik s (attestBody s ch)).1)
      stOk 864
    refine answers_eq (exec_svAttest hr.1 hh hf hlen hl hd) rfl ⟨hdma, fun h48 => ?_, hdone, ?_⟩
    · rw [List.length_append, length_attestBody s h48, signDik, length_signWith]
    · simp only [onlyCmd_iff, hhost, hbus]
      simp
  · have hexec := exec_svCertRead (t := t) (l := l) hr.1 hh hf hl
    by_cases hlt : pwN c 1 < certs.length
    · rw [if_pos hlt] at hexec
      obtain ⟨hdone, honly⟩ := answer_ready (t := t) hr stBadParam certs.length
      exact answers_eq hexec rfl ⟨fun h => absurd hlt (Nat.not_lt.mpr h), fun _ => hdone, fun p _ => honly p (by simp)⟩
    · rw [if_neg hlt] at hexec
      have hopen := opened_of_rest (b := pantryReads (openSlot (atT s t) 0x0086 c).1 l) (opened_taken (t := t) hr.1) (by simp)
        (by simp) (by simp)
      obtain ⟨hdma, hdone, hhost, hbus⟩ := dmaWrite_ready hr hopen (pwN c 0) certs stOk certs.length
      have hsv := pantryReads_sv (a := (openSlot (atT s t) 0x0086 c).1) (b := s) l (by simp)
      refine answers_eq hexec rfl ⟨fun _ => ⟨hdma, ?_, hdone⟩, fun h => absurd h hlt, ?_⟩
      · simp only [finish_keeps, dmaWrite_keeps, hsv]
      · simp only [onlyCmd_iff, hhost, hbus]
        simp
  · obtain ⟨hecc, hret, hmap, hwear⟩ := loseLine_record (lossTold s t x.line.toNat) x
    refine answers_eq (exec_pantryUncorrectable s t x) rfl ⟨hecc.trans (lossTold_ecc _ _ _), fun hlt => ?_, fun hge => ?_,
      raised_of_grows (lossTold_raised he) (loseLine_grows _ _)⟩
    · obtain ⟨h1, h2⟩ := lossTold_spared (t := t) (l := x.line.toNat) hlt
      exact ⟨hret.trans h1, servingLine_of_remap (hmap.trans h2),
        raised_of_grows (lossTold_spareRaised hlt he) (loseLine_grows _ _)⟩
    · obtain ⟨h1, h2, h3⟩ := lossTold_full (t := t) (l := x.line.toNat) hge
      exact ⟨hret.trans h1, hmap.trans h2, hwear.trans h3⟩
  · refine answers_eq (exec_pantryUncorrectable s t x) rfl ?_
    obtain hreg | hreg := hreg
    · simp only [loseLine, hreg, only_iff]
      split <;> simp
    · simp only [loseLine, hreg, only_iff]
      simp
  · refine answers_eq (exec_pantryUncorrectable s t x) rfl ?_
    rw [loseLine_cal hreg hx]
    refine ⟨?_, ?_⟩
    · simp [loseCal, setReg]
    · simp [only_iff]
  · refine answers_eq (exec_pantryUncorrectable s t x) rfl ?_
    obtain ⟨hfw, -⟩ := lossTold_held s t x.line.toNat
    rw [loseLine_fw hreg, fwSlot_setFwSlot, fwSlot_setFwSlot, if_pos rfl, if_neg (by simp), hfw, hfw]
    refine ⟨rfl, rfl, ?_⟩
    simp [only_iff]
  · refine answers_eq (exec_pantryUncorrectable s t x) rfl ?_
    obtain ⟨-, hat⟩ := lossTold_held s t x.line.toNat
    rw [loseLine_scene hreg ((congrArg _ hat).trans hfind)]
    refine ⟨?_, fun j hj => ?_, ?_⟩
    · rw [sceneOf_setScene, if_pos rfl]
    · rw [sceneOf_setScene, if_neg hj]
      exact sceneOf_of_rest (by simp) j
    · simp [only_iff, setScene]
  · refine answers_eq (exec_pantryUncorrectable s t x) rfl ?_
    obtain ⟨-, hat⟩ := lossTold_held s t x.line.toNat
    rw [loseLine_free hreg ((congrArg _ hat).trans hfind)]
    simp [only_iff]

end Sys2Proof.Proofs.Keys

/-! What a strobe drives out comes after what was driven out before (R20, R252). -/

namespace Sys2Proof.Proofs.StrobeGrows

open Sys2Proof Sys2Proof.Machine Sys2Proof.Safety Sys2Proof.Laws
open Sys2Proof.Proofs.Frames

section
variable {s u v w : State}

theorem grows_ite {p : Prop} [Decidable p] (hu : Grows s u) (hv : Grows s v) : Grows s (if p then u else v) := by
  split
  · exact hu
  · exact hv

/-- An event after changes that drive nothing out. -/
theorem grows_emit (code unit : Nat) (p : BitVec 128) (h : u.out = s.out) : Grows s (emit u code unit p) :=
  (emit_grows u code unit p).of_out h

theorem grows_emitAt (code unit fn : Nat) (f : Frac) (p : BitVec 128) (h : u.out = s.out) : Grows s (emitAt u code unit fn f p) :=
  (emitAt_grows u code unit fn f p).of_out h

/-! ### The rate of the inputs and of the ports -/

theorem pdmStop_grows (s : State) (k : Nat) : Grows s (pdmStop s k) :=
  grows_ite (.refl s) (grows_emit _ _ _ rfl)

theorem rateInputs_grows (s : State) (old : Nat) : Grows s (rateInputs s old) := by
  unfold rateInputs
  refine (each_grows (fun u n => ?_) _ _).trans ((each_grows (fun u n => ?_) _ _).trans ((each_grows (fun u n => ?_) _ _).trans
    (each_grows pdmStop_grows _ _)))
  · exact grows_ite (.of_eq rfl) (.refl u)
  · exact grows_ite (.of_eq rfl) (.refl u)
  · exact grows_ite (.of_eq (by simp)) (.refl u)

theorem unlock_grows (s : State) (p cause : Nat) : Grows s (unlock s p cause) := grows_emit _ _ _ rfl

theorem ratePorts_grows (s : State) : Grows s (ratePorts s) := by
  unfold ratePorts
  refine (each_grows (fun u p => unlock_grows u p 6) (allPorts.filter (portTracks s)) s).trans (.of_eq ?_)
  simp

theorem ltrUpdate_grows (s : State) (a : Bool) : Grows s (ltrUpdate s a) :=
  grows_ite (.refl s) ((push_grows _ _).of_out rfl)

/-! ### Streams -/

theorem ctxSignal_grows (s : State) (k : Nat) : Grows s (ctxSignal s k) :=
  grows_ite (.refl s) (grows_ite (.of_eq rfl) ((signal_grows _ _).of_out rfl))

theorem ctxSignals_grows (s : State) : Grows s (ctxSignals s) := (each_grows ctxSignal_grows _ _).of_out rfl

theorem ctxRun_grows (s : State) (k start how : Nat) : Grows s (ctxRun s k start how) := grows_emit _ _ _ rfl

theorem countLate_grows (s : State) (k n first : Nat) : Grows s (countLate s k n first) :=
  grows_ite (.refl s) (grows_ite (grows_emit _ _ _ rfl) (.of_eq rfl))

theorem neverRead_grows (s : State) (k n : Nat) : Grows s (neverRead s k n) := by
  unfold neverRead
  dsimp only
  split
  · exact .refl s
  · exact (countLate_grows _ _ _ _).of_out rfl

theorem playStrobe_grows (s : State) (k : Nat) (lost : Bool) : Grows s (playStrobe s k lost) := by
  unfold playStrobe
  dsimp only
  split
  · exact grows_ite (.of_eq rfl) (grows_emit _ _ _ rfl)
  · generalize hv : setCtx s k _ = v
    have hout : v.out = s.out := by rw [← hv]; rfl
    exact Grows.trans (grows_ite (grows_emit _ _ _ hout) (.of_eq hout)) (grows_ite (neverRead_grows _ _ _) (.refl _))

theorem loseFrame_grows (s : State) (k f cause : Nat) : Grows s (loseFrame s k f cause) :=
  grows_ite (grows_emitAt _ _ _ _ _ rfl) (.of_eq rfl)

theorem storeLoses_grows (k : Nat) (s : State) (f : Nat) : Grows s (storeLoses k s f) :=
  grows_ite (.refl s) ((loseFrame_grows _ _ _ _).of_out rfl)

theorem writeRec_grows (k : Nat) (s : State) (e : Nat × List Int) : Grows s (writeRec k s e) := by
  unfold writeRec
  dsimp only
  split
  · exact .refl s
  · exact ((push_grows _ _).of_out rfl).trans (grows_ite (.of_eq rfl) (grows_emitAt _ _ _ _ _ rfl))

theorem writeHeld_grows (s : State) (k : Nat) : Grows s (writeHeld s k) :=
  grows_ite (each_grows (writeRec_grows k) _ _) (.refl s)

theorem recStrobe_grows (s : State) (k : Nat) (lost : List Nat) : Grows s (recStrobe s k lost) :=
  (Grows.of_eq (by dsimp only; split <;> rfl)).trans ((each_grows (storeLoses_grows k) _ _).trans (writeHeld_grows _ _))

theorem ctxStrobe_grows (lost : List LostFrame) (s : State) (k : Nat) : Grows s (ctxStrobe lost s k) := by
  unfold ctxStrobe
  exact Grows.trans (grows_ite (ctxRun_grows _ _ _ _) (.refl s))
    (grows_ite (.refl _) (grows_ite (recStrobe_grows _ _ _) (playStrobe_grows _ _ _)))

theorem streamsStrobe_grows (s : State) (l : List LostFrame) : Grows s (streamsStrobe s l) :=
  (ctxSignals_grows s).trans (each_grows (ctxStrobe_grows l) _ _)

/-! ### Capture -/

theorem inputOverload_grows (s : State) (q : Nat) (a c : Bool) : Grows s (inputOverload s q a c) :=
  grows_ite (.refl s) (grows_emit _ _ _ rfl)

theorem captureInput_grows (x : StrobeIn) (a : Tbl Int × State) (q : Nat) : Grows a.2 (captureInput x a q).2 := by
  unfold captureInput
  dsimp only
  rw [apply_ite Prod.snd]
  refine grows_ite (.refl _) ((Grows.of_eq ?_).trans (inputOverload_grows _ _ _ _))
  split <;> simp

theorem captureInputs_grows (s : State) (x : StrobeIn) : Grows s (captureInputs s x).2 := by
  unfold captureInputs
  split
  · exact .refl s
  · exact List.foldlRecOn _ _ (motive := fun a : Tbl Int × State => Grows s a.2) (.of_eq (by simp))
      fun a h q _ => h.trans (captureInput_grows x a q)

theorem capture_grows (s : State) (x : StrobeIn) : Grows s (capture s x) := by
  unfold capture
  refine (captureInputs_grows s x).trans (.of_eq ?_)
  simp [mirrorInputs]

/-! ### Power stage and protection -/

theorem rearmRefused_grows (s : State) (c reason fn : Nat) (t : Frac) : Grows s (rearmRefused s c reason fn t) :=
  grows_emitAt _ _ _ _ _ rfl

theorem rearmTakes_grows (s : State) (c : Nat) : Grows s (rearmTakes s c) := by
  unfold rearmTakes
  dsimp only
  split
  · exact .refl s
  · split
    · exact grows_ite ((rearmRefused_grows _ _ _ _ _).of_out (by simp)) (.of_eq (by simp))
    · exact .of_eq (by simp)
    · exact (rearmRefused_grows _ _ _ _ _).of_out (by simp)

theorem powerStrobe_grows (s : State) (x : StrobeIn) : Grows s (powerStrobe s x) :=
  (Grows.of_eq (by simp)).trans ((each_grows rearmTakes_grows _ _).trans (each_grows (fun _ _ => .of_eq (by simp)) _ _))

theorem limitEvents_grows (s : State) (c : Nat) (b : Bool) : Grows s (limitEvents s c b) := by
  unfold limitEvents
  dsimp only
  generalize hv : setSpCh s c _ = v
  have hout : v.out = s.out := by rw [← hv]; rfl
  exact Grows.trans (grows_ite (grows_emit _ _ _ hout) (.of_eq hout)) (grows_ite (emit_grows _ _ _ _) (.refl _))

theorem overExcursion_grows (s : State) (c : Nat) : Grows s (overExcursion s c) :=
  grows_ite (.refl s) (grows_ite (grows_emit _ _ _ rfl) (.of_eq rfl))

theorem thermalMute_grows (s : State) (c : Nat) : Grows s (thermalMute s c) := emit_grows _ _ _ _

theorem protectCh_grows (cur : Tbl Word) (s : State) (c : Nat) : Grows s (protectCh cur s c) := by
  unfold protectCh
  dsimp only
  split
  · generalize hv : setSpCh s c _ = v
    have hout : v.out = s.out := by rw [← hv]; rfl
    exact grows_ite ((thermalMute_grows _ _).of_out hout) (.of_eq hout)
  · generalize hv : setSpCh s c _ = v
    have hout : v.out = s.out := by rw [← hv]; rfl
    exact Grows.trans (grows_ite ((thermalMute_grows _ _).of_out hout) (.of_eq hout))
      ((limitEvents_grows _ _ _).trans (overExcursion_grows _ _))

theorem validWindow_grows (s : State) (c : Nat) : Grows s (validWindow s c) := by
  unfold validWindow
  dsimp only
  generalize hv : setSpCh s c _ = v
  have hout : v.out = s.out := by rw [← hv]; rfl
  exact Grows.trans (grows_ite (grows_emit _ _ _ hout) (.of_eq hout))
    (Grows.trans (grows_ite (grows_emit _ _ _ (by simp)) (.refl _)) (grows_ite (grows_emit _ _ _ (by simp)) (.refl _)))

theorem windowEnd_grows (s : State) (c : Nat) : Grows s (windowEnd s c) :=
  grows_ite (.of_eq rfl) (grows_ite (grows_ite (grows_emit _ _ _ rfl) (.of_eq rfl))
    (grows_ite (grows_ite (grows_emit _ _ _ rfl) (.of_eq rfl)) ((validWindow_grows _ _).of_out rfl)))

theorem windowStrobe_grows (cur : Tbl Word) (s : State) (c : Nat) : Grows s (windowStrobe cur s c) :=
  Grows.trans (grows_ite (windowEnd_grows _ _) (.refl s)) (grows_ite (.of_eq rfl) (grows_ite (.of_eq rfl) (.of_eq rfl)))

theorem protectStrobe_grows (s : State) (x : StrobeIn) : Grows s (protectStrobe s x) :=
  ((each_grows (fun _ _ => .of_eq (by simp)) _ _).trans (each_grows (windowStrobe_grows _) _ _)).trans
    ((each_grows (protectCh_grows _) _ _).trans (each_grows (fun _ _ => .of_eq (by simp)) _ _))

/-! ### Ports, clock and converters -/

theorem portsStrobe_grows (s : State) (l : List Nat) : Grows s (portsStrobe s l) :=
  (each_grows (fun _ _ => .of_eq (by simp)) _ _).trans (each_grows (fun u p => unlock_grows u p 5) _ _)

theorem selectRef_grows (s : State) (r cause : Nat) : Grows s (selectRef s r cause) := by
  unfold selectRef
  dsimp only
  generalize hv : emit _ 0x0803 r _ = v
  have hg : Grows s v := by rw [← hv]; exact grows_emit _ _ _ rfl
  exact hg.trans (grows_ite (grows_emit _ _ _ rfl) (.of_eq rfl))

theorem setDco_grows (s : State) (d : Int) : Grows s (setDco s d) :=
  grows_ite (.of_eq rfl) (grows_ite (grows_emit _ _ _ rfl) (.of_eq rfl))

theorem clockStrobe_grows (s : State) (d e : Int) (o : Tbl Int) : Grows s (clockStrobe s d e o) := by
  unfold clockStrobe
  extract_lets v c w z r y
  have hv : Grows s v := .of_eq (by simp [v])
  have hw : Grows v w := grows_ite (.refl v) (.of_eq rfl)
  have hz : Grows w z := grows_ite (setDco_grows w _) (.refl w)
  have hy : Grows z y := grows_ite (.refl z) (selectRef_grows z _ _)
  exact hv.trans (hw.trans (hz.trans (hy.trans (grows_ite (.of_eq (by simp)) (.refl y)))))

theorem senseStrobe_grows (s : State) : Grows s (senseStrobe s) := by
  unfold senseStrobe
  refine each_grows (fun u k => ?_) _ _
  exact grows_ite (.refl _) (grows_ite (.of_eq (by simp)) (grows_ite (grows_ite (grows_emit _ _ _ (by simp)) (.of_eq (by simp))) (.refl _)))

/-- A strobe after its frame has begun. -/
theorem strobeBody_grows (s : State) (x : StrobeIn) : Grows s (strobeBody s x) := by
  unfold strobeBody
  dsimp only
  refine (streamsStrobe_grows s x.storeLost).trans ((capture_grows _ x).trans ?_)
  generalize capture (streamsStrobe s x.storeLost) x = u
  refine Grows.trans ((powerStrobe_grows (engineStrobe u) x).of_out (s := u) (by simp)) ((protectStrobe_grows _ x).trans ?_)
  generalize protectStrobe (powerStrobe (engineStrobe u) x) x = v
  refine Grows.trans ?_ ((clockStrobe_grows _ _ _ _).trans (senseStrobe_grows _))
  refine (portsStrobe_grows (outputsStrobe v x.railOk) x.slips).of_out ?_
  simp

end

end Sys2Proof.Proofs.StrobeGrows

/-! The module's rates change (R249, R252). -/

namespace Sys2Proof.Proofs.Rates

open Sys2Proof Sys2Proof.Machine Sys2Proof.Safety Sys2Proof.Laws
open Sys2Proof.Proofs.Frames Sys2Proof.Proofs.Reads Sys2Proof.Proofs.Checks Sys2Proof.Proofs.Strobe Sys2Proof.Proofs.StrobeGrows
open Sys2Proof.Proofs.EngineLoads (eng_openSlot outStaged_openSlot)
open Sys2Proof.Proofs.Halves (domOn_openSlot admitRequest_openSlot)

section
variable {s u : State} {t : Frac} {c : Cmd} {op : Nat}

/-! ### What the checks read -/

theorem mirrors_openSlot (s : State) (t : Frac) (op : Nat) (c : Cmd) (g : Nat) :
    mirrors (openSlot (atT s t) op c).1 g = mirrors s g := by
  simp only [mirrors, openSlot_keeps, atT_keeps, openSlot_owns]

/-- An item of a group that the pair does not mirror waits for its boundary at once. -/
theorem stageG_alone (o : Owner) (g : Nat) (i : Item) (h : mirrors s g = false) : stageG s o g i = stage s o i :=
  if_neg (by simp [h])

theorem recipesFit_openSlot (s : State) (t : Frac) (op : Nat) (c : Cmd) (r : Nat) :
    recipesFit (openSlot (atT s t) op c).1 r = recipesFit s r := by
  simp [recipesFit, allItems]

theorem testBudget_openSlot (s : State) (t : Frac) (op : Nat) (c : Cmd) (r : Nat) :
    testBudget (openSlot (atT s t) op c).1 r = testBudget s r := by
  simp [testBudget, budgetFor, outStaged_openSlot]

theorem strUnfit_openSlot (s : State) (t : Frac) (op : Nat) (c : Cmd) (r : Nat) :
    strUnfit (openSlot (atT s t) op c).1 r = strUnfit s r := by
  simp [strUnfit, strChannels, rf, rb, reg]

/-! ### The first strobe of a new rate -/

theorem measureRefs_gap (s : State) (o : Tbl Int) : (measureRefs s o).ck.gap = s.ck.gap :=
  each_keeps (fun u => u.ck.gap) fun _ _ => rfl

theorem setDco_gap (s : State) (d : Int) : (setDco s d).ck.gap = s.ck.gap := by
  unfold setDco
  dsimp only
  split
  · rfl
  · split
    · simp
    · rfl

theorem selectRef_gap (s : State) (r cause : Nat) : (selectRef s r cause).ck.gap = s.ck.gap := by
  unfold selectRef
  dsimp only
  split <;> simp

theorem freeRunStep_gap (s : State) : (freeRunStep s).ck.gap = s.ck.gap := by
  unfold freeRunStep
  dsimp only
  split
  · rfl
  · split <;> rfl

/-- A step of the clock at a strobe leaves the change of rate in progress. -/
theorem clockStrobe_gap (s : State) (d e : Int) (o : Tbl Int) : (clockStrobe s d e o).ck.gap = s.ck.gap := by
  unfold clockStrobe
  extract_lets v c w z r y
  have hw : w.ck.gap = s.ck.gap := by
    refine Eq.trans ?_ (measureRefs_gap s o)
    simp only [w]
    split <;> rfl
  have hz : z.ck.gap = w.ck.gap := by
    simp only [z]
    split
    · exact setDco_gap _ _
    · rfl
  have hy : y.ck.gap = z.ck.gap := by
    simp only [y]
    split
    · rfl
    · exact selectRef_gap _ _ _
  refine Eq.trans ?_ (hy.trans (hz.trans hw))
  split
  · exact freeRunStep_gap y
  · rfl

theorem strobeBody_gap (s : State) (x : StrobeIn) : (strobeBody s x).ck.gap = s.ck.gap := by
  simp [strobeBody, clockStrobe_gap]

theorem rateApplied_grows (s : State) (old new : Nat) :
    Grows (emit s 0x0105 noUnit (pay [(0, 1, old), (1, 1, new)])) (rateApplied s old new) := by
  unfold rateApplied
  dsimp only
  generalize emit s 0x0105 noUnit (pay [(0, 1, old), (1, 1, new)]) = u
  refine Grows.trans (Grows.trans ?_ (ratePorts_grows (rateOutputs (rateInputs (rateEngines u) old)))) ((ltrUpdate_grows _ _).of_out rfl)
  refine ((rateInputs_grows (rateEngines u) old).of_out (by simp)).trans (.of_eq ?_)
  simp

/-- The strobes go on, at the beginning of a frame. -/
def gapClosed (s : State) : State := { atT s 0 with ck := { s.ck with gap := none } }

@[simp] theorem gapClosed_keeps (s : State) : (gapClosed s).fr = s.fr ∧ (gapClosed s).mx = s.mx ∧ (gapClosed s).regs = s.regs ∧
    (gapClosed s).hl = s.hl ∧ (gapClosed s).now = 0 ∧ (gapClosed s).ck.gap = none :=
  ⟨rfl, rfl, rfl, rfl, rfl, rfl⟩

/-- The first strobe of a new rate, of a change that no command waits for. -/
def firstOf (s : State) (g : Gap) (x : StrobeIn) : State := strobeBody (rateApplied (beginFrame (gapClosed s)) g.old g.new) x

theorem exec_frameRateApplied {us : Word} {x : StrobeIn} {g : Gap} (hg : s.ck.gap = some g) (hr : s.fr.running = false)
    (hx : s.ck.xtalOk = true) (hl : (pll s (strobePll s.fr.rate)).lock = true) (hc : g.command = false) :
    exec (.frameRateApplied us x) s = .next (firstOf s g x) := by
  have hg' : (atT s 0).ck.gap = some g := hg
  simp only [exec, execFrameRateApplied, hg']
  refine congrArg Host.Outcome.next ((if_neg ?_).trans (if_neg (by simp [hc])))
  simp only [atT_keeps, hr, hx, Bool.false_or, Bool.not_true, Bool.not_eq_true', Bool.not_eq_false]
  exact hl

theorem firstOf_fr (s : State) (g : Gap) (x : StrobeIn) : (firstOf s g x).fr = (beginFrame (gapClosed s)).fr := by
  simp [firstOf]

theorem firstOf_mx (s : State) (g : Gap) (x : StrobeIn) : (firstOf s g x).mx.xp = s.mx.xp ∧ (firstOf s g x).mx.queue = s.mx.queue := by
  obtain ⟨src, gen, hmx⟩ := mixKept_strobeBody (rateApplied (beginFrame (gapClosed s)) g.old g.new) x
  obtain ⟨sil, errs, hmx'⟩ := beginFrame_mx (gapClosed s)
  have hrate : (rateApplied (beginFrame (gapClosed s)) g.old g.new).mx = (beginFrame (gapClosed s)).mx := by simp
  rw [hrate, hmx'] at hmx
  rw [firstOf, hmx]
  exact ⟨rfl, rfl⟩

/-- FRAME_RATE_APPLIED is the first event of the new frame. -/
theorem firstOf_raised {g : Gap} {x : StrobeIn} (he : evtOpen s 1) :
    raisedAt s.fr.next 0 0x0105 noUnit (pay [(0, 1, g.old), (1, 1, g.new)]) (firstOf s g x) := by
  have hl : (beginFrame (gapClosed s)).hl = s.hl := by simp
  have hopen : evtOpen (beginFrame (gapClosed s)) 1 :=
    evtOpen_of he (by rw [hl]) (by simp only [ringsOpen, hl]) (by rw [hl]) (by rw [hl])
  have hfn : (beginFrame (gapClosed s)).fr.fn = s.fr.next := by
    rw [beginFrame_fr]
    rfl
  have hraised := raised_emit (s := beginFrame (gapClosed s)) (f := 0) (code := 0x0105) (unit := noUnit)
    (p := pay [(0, 1, g.old), (1, 1, g.new)]) hopen rfl (by simp)
  rw [raised, hfn] at hraised
  exact raisedAt_grows hraised ((rateApplied_grows _ _ _).trans (strobeBody_grows _ _))

/-- A command that is open, with nothing else done, changes what a command moves alone. -/
theorem opened_work (h : Opened s t op c u) : hostWork u.hl = hostWork s.hl := by
  have hz : ∀ z : HostSide, hostWork z = { hostIdle { z with order := [] } with busy := none, long := none } := fun _ => rfl
  rw [hz, hz, h.host]

end

/-- Settles O26: a change of rate waits for its boundary or is refused, and its first strobe carries the next FN. -/
theorem rateChanges : Obligations.RateChanges := by
  unfold Obligations.RateChanges
  refine ⟨fun t c s hr hf hlt hd hne hadm hstr hm => ?_, fun t c s hr hf hlt hd => ?_, fun t c s hr hf hlt hd he => ?_,
    fun t c s hr hf hlt hd hne hadm => ?_, fun us x g s hg hrun hx hl hc he => ?_, fun t c s hr hf hw hm => ?_, fun t s => ?_⟩
  · have hexec : exec (.setFrameRate t c) s = .next (stage (startLong (openSlot (atT s t) 0x0040 c).1 0x0040 s.hl.nextSlot
        (.rate (pwN c 0))) c.src (.rate (pwN c 0))) := by
      simp only [exec, execSetFrameRate]
      rw [runCmd_ready hr.1 hf (by simpa using hlt)]
      refine congrArg Host.Outcome.next ?_
      rw [domOn_openSlot, testBudget_openSlot, recipesFit_openSlot, admitRequest_openSlot, strUnfit_openSlot]
      simp only [hd, hadm, hstr, openSlot_keeps, atT_keeps, hne, Bool.not_true, Bool.false_eq_true, if_false, bne_self_eq_false]
      exact stageG_alone _ _ _ ((mirrors_openSlot s t 0x0040 c 0x34).trans hm)
    obtain ⟨hbegun, honly⟩ := startLong_ready (t := t) (l := .rate (pwN c 0)) hr
    refine answers_eq hexec rfl ⟨?_, hbegun, ?_⟩
    · exact stage_openSlot_fr s t 0x0040 c c.src _
    · rw [onlyWork_iff] at honly ⊢
      simpa [stage, stageAt] using honly
  · have hexec : exec (.setFrameRate t c) s =
        .next (finish (openSlot (atT s t) 0x0040 c).1 s.hl.nextSlot stDomainOff noIndex) := by
      simp only [exec, execSetFrameRate]
      rw [runCmd_ready hr.1 hf (by simpa using hlt)]
      refine congrArg Host.Outcome.next (if_pos ?_)
      simp [domOn_openSlot, hd]
    exact answers_eq hexec rfl (answer_ready hr _ _)
  · have hexec : exec (.setFrameRate t c) s = .next (finish (openSlot (atT s t) 0x0040 c).1 s.hl.nextSlot stOk 0) := by
      simp only [exec, execSetFrameRate]
      rw [runCmd_ready hr.1 hf (by simpa using hlt)]
      refine congrArg Host.Outcome.next ((if_neg ?_).trans (if_pos ?_))
      · simp [domOn_openSlot, hd]
      · simpa using he
    exact answers_eq hexec rfl (answer_ready hr _ _)
  · have hexec : exec (.setFrameRate t c) s = .next (finish (noteRefusal (openSlot (atT s t) 0x0040 c).1
        (admitRequest s (testBudget s (pwN c 0)) (recipesFit s (pwN c 0))).1
        (admitRequest s (testBudget s (pwN c 0)) (recipesFit s (pwN c 0))).2) s.hl.nextSlot stAdmission
        (refusedResult (admitRequest s (testBudget s (pwN c 0)) (recipesFit s (pwN c 0))).2)) := by
      simp only [exec, execSetFrameRate]
      rw [runCmd_ready hr.1 hf (by simpa using hlt)]
      refine congrArg Host.Outcome.next ?_
      rw [domOn_openSlot, testBudget_openSlot, recipesFit_openSlot, admitRequest_openSlot]
      simp only [hd, openSlot_keeps, atT_keeps, hne, Bool.not_true, Bool.false_eq_true, if_false]
      exact if_pos (bne_iff_ne.mpr hadm)
    obtain ⟨hdone, hhost, hbus⟩ := finish_ready hr (opened_of_eq (v := noteRefusal (openSlot (atT s t) 0x0040 c).1
        (admitRequest s (testBudget s (pwN c 0)) (recipesFit s (pwN c 0))).1
        (admitRequest s (testBudget s (pwN c 0)) (recipesFit s (pwN c 0))).2) (opened_taken (t := t) hr.1) rfl rfl rfl) stAdmission
      (refusedResult (admitRequest s (testBudget s (pwN c 0)) (recipesFit s (pwN c 0))).2)
    refine answers_eq hexec rfl ⟨?_, hdone, ?_⟩
    · simp [noteRefusal]
    · simp only [onlyCmd_iff, hhost, hbus]
      simp [noteRefusal]
  · refine answers_eq (exec_frameRateApplied hg hrun hx hl hc) rfl ⟨?_, ?_, ?_, ?_, firstOf_raised he, (firstOf_mx s g x).1,
      (firstOf_mx s g x).2, ?_, ?_⟩
    · rw [firstOf_fr, beginFrame_fr]
      rfl
    · rw [firstOf_fr, beginFrame_fr]
    · rw [firstOf_fr, beginFrame_fr]
      rfl
    · simp [firstOf, strobeBody_gap]
    · simp [firstOf]
    · rw [firstOf_fr, beginFrame_fr]
      rfl
  · have hexec : exec (.setFsw t c) s = .next (stage (openSlot (atT s t) 0x0041 c).1 c.src (.fsw (pwN c 0) s.hl.nextSlot)) := by
      simp only [exec, execSetFsw]
      rw [runCmd_ready hr.1 hf hw]
      exact congrArg Host.Outcome.next (stageG_alone _ _ _ ((mirrors_openSlot s t 0x0041 c 0x29).trans hm))
    have hopen := opened_taken (t := t) hr.1
    refine answers_eq hexec rfl ⟨stage_openSlot_fr s t 0x0041 c c.src _, ?_, ?_, ?_⟩
    · exact congrArg (List.map (·.id)) hopen.order
    · simp [stage, stageAt]
    · simp only [onlyWork_iff]
      simp [stage, stageAt, opened_work hopen, hopen.bus]
  · refine answers_eq rfl rfl ⟨rfl, ?_⟩
    rw [still_iff]
    simp

end Sys2Proof.Proofs.Rates

/-! A drain at whose boundary a scene's commit and a staged set of parameters meet (R307, R93). -/

namespace Sys2Proof.Proofs.StagedItems

open Sys2Proof Sys2Proof.Machine Sys2Proof.Safety

/-- A recipe of no stage, every parameter word of which is 0. -/
def plainRecipe : Recipe :=
  { stages := [], nparam := 2, words := [], lock := [], ranges := [], id := 0, ver := 0, cost := 0, blocks := 0,
    table := [], signer := 0xFF, encrypted := false }

/-- The commit of a scene that sets parameter word 1 of engine 1 to 7 (R307). -/
def sceneCommit : Commit :=
  { owner := .host, qslot := 0, tag := 1, count := 0, notify := false, atFn := false, target := 0, late := false,
    bound := 5, restore := [], recs := [], scene := some { slot := 0, id := 0, skipped := 0, sets := [(1, [(1, 7)])] } }

/-- Strobes run in frame 5; a set that writes word 0 of engine 1 is staged for its boundary, and the commit of the scene
waits for the same one. -/
def meeting : State :=
  { State.reset with
    fr := { Frame.reset with
      running := true, fn := 5, next := 6,
      staged := [{ owner := .host, bound := 5, item := .params [(1, [(0, 3)])] false, at_ := 0 }] }
    mx := { Mix.reset with queue := [sceneCommit] }
    fx := { Fx.reset with eng := tput Engine.reset [] 1 { Engine.reset with st := .running, recipe := some plainRecipe } } }

theorem meeting_quiet : quietBoundary meeting
    [{ owner := .host, bound := 5, item := .params [(1, [(0, 3)])] false, at_ := 0 }] := by
  unfold quietBoundary
  decide

def quietDrain : DrainIn := { maskLate := [], ecc := { table := 0, delay := 0 }, damaged := [], descs := [] }

/-- Parameter word 1 of the recipe that engine 1 runs. -/
def wordOne (s : State) : Option Word := (eng s 1).recipe.map (tget 0 ·.words 1)

/-- The scene's set is in force after the drain (R307). -/
theorem frameDrain_wordOne : (match exec (.frameDrain 0 quietDrain) meeting with
    | .next s' => wordOne s'
    | _ => none) = some 7 := by decide +kernel

/-- Refutes O12: its clause on a staged set of parameters holds every word outside the set to stay, also where the
commit of a scene with a set for the same engine is applied at that boundary. -/
theorem not_stagedItemsApply : ¬ Obligations.StagedItemsApply := by
  unfold Obligations.StagedItemsApply
  rintro ⟨-, hparams, -⟩
  obtain ⟨s', hs', r', hr', -, hrest, -⟩ := hparams 0 quietDrain .host 5 0 1 [(0, 3)] false plainRecipe meeting
    meeting_quiet (by decide) (by decide) (by decide) (by decide)
  have hset := frameDrain_wordOne
  rw [hs'] at hset
  have hkept : wordOne s' = some 0 := by
    simp only [wordOne, hr', Option.map_some, hrest 1 (by decide)]
    decide
  exact absurd (hset.symm.trans hkept) (by decide)

end Sys2Proof.Proofs.StagedItems

/-! The drain of a frame whose boundary has nothing staged, in the mixer (R37, R68): what its steps before the boundary
leave of what the boundary turns on, and the boundary's windows that then do nothing. -/

namespace Sys2Proof.Proofs.QuietDrain

open Sys2Proof Sys2Proof.Machine Sys2Proof.Safety Sys2Proof.Laws

/-- The mixer without what a frame computes and reports as it drains, and without the gains in force at the sinks. -/
def mixRest (m : Mix) : Mix :=
  { m with res := [], clips := [], clipNotes := [], glide := [], nk := [], shed := [], sil := [], laneErrs := [],
           budget := 0, cost := 0, feed := 0, costQueued := 0, eccCorrected := 0 }

/-- What a boundary turns on beside the mixer: what is staged, the peer, the gap of a rate change, the host side without
its events, and the engines that fail. -/
structure Rests (s t : State) : Prop where
  mix : mixRest t.mx = mixRest s.mx
  frame : t.fr.staged = s.fr.staged ∧ t.fr.drained = s.fr.drained ∧ t.fr.marked = s.fr.marked ∧ t.fr.fn = s.fr.fn
  gap : t.ck.gap = s.ck.gap
  peer : t.pl = s.pl
  host : hostRest t.hl = hostRest s.hl
  failure : ∀ e, (eng t e).failure = (eng s e).failure

theorem Rests.trans {s t u : State} (h : Rests s t) (k : Rests t u) : Rests s u where
  mix := k.mix.trans h.mix
  frame := by simp only [k.frame, h.frame, and_self]
  gap := k.gap.trans h.gap
  peer := k.peer.trans h.peer
  host := k.host.trans h.host
  failure e := (k.failure e).trans (h.failure e)

/-- A step that leaves the frame, the clocks, the peer and the host side to others. -/
theorem Rests.of_eq {s t : State} (hm : mixRest t.mx = mixRest s.mx) (hf : t.fr = s.fr) (hc : t.ck = s.ck) (hp : t.pl = s.pl)
    (hh : hostRest t.hl = hostRest s.hl) (he : ∀ e, (eng t e).failure = (eng s e).failure) : Rests s t :=
  ⟨hm, by simp [hf], by rw [hc], hp, hh, he⟩

theorem failure_of_fx {s t : State} (h : t.fx = s.fx) (e : Nat) : (eng t e).failure = (eng s e).failure := by
  simp only [eng, h]

/-! ### The frame that ends -/

theorem completeSink_mixRest (s : State) (k : Nat) : mixRest (completeSink s k).mx = mixRest s.mx := by
  unfold completeSink
  dsimp only
  split
  · rfl
  split <;> rfl

theorem completeAll_mixRest (s : State) : mixRest (completeAll s).mx = mixRest s.mx :=
  each_keeps (fun s => mixRest s.mx) completeSink_mixRest

theorem setEng_failure {s : State} {e : Nat} {x : Engine} (h : x.failure = (eng s e).failure) (k : Nat) :
    (eng (setEng s e x) k).failure = (eng s k).failure := by
  by_cases hk : k = e
  · subst hk
    simp [eng, setEng, h]
  · simp [eng, setEng, tget_tput_ne, hk]

theorem startEngine_mixRest (s : State) (e : Nat) : mixRest (startEngine s e).mx = mixRest s.mx := by
  unfold startEngine
  generalize (List.range 8).map (fun i => 0x730 + 8 * e + i) = l
  exact each_keeps (fun s => mixRest s.mx) completeSink_mixRest

theorem startEngine_failure (s : State) (e k : Nat) : (eng (startEngine s e) k).failure = (eng s k).failure := by
  unfold startEngine
  generalize (List.range 8).map (fun i => 0x730 + 8 * e + i) = l
  have hu : (each l s completeSink).fx = s.fx := by simp
  exact (setEng_failure (x := { eng (each l s completeSink) e with started := true }) rfl k).trans (failure_of_fx hu k)

theorem runEngine_failure (s : State) (e k : Nat) : (eng (runEngine s e) k).failure = (eng s k).failure := by
  unfold runEngine
  dsimp only
  split
  · rfl
  · refine setEng_failure ?_ k
    rfl

theorem finishEngines_mixRest (s : State) : mixRest (finishEngines s).mx = mixRest s.mx := by
  refine each_keeps (fun s => mixRest s.mx) fun s e => ?_
  dsimp only
  (repeat' split) <;> simp [startEngine_mixRest]

theorem finishEngines_failure (s : State) (k : Nat) : (eng (finishEngines s) k).failure = (eng s k).failure := by
  refine each_keeps (fun s => (eng s k).failure) fun s e => ?_
  dsimp only
  (repeat' split) <;> simp [startEngine_failure, runEngine_failure]

theorem silenceFrame_mixRest (s : State) : mixRest (silenceFrame s).mx = mixRest s.mx := rfl

theorem eccCounts_mixRest (s : State) (x : EccIn) : mixRest (eccCounts s x).mx = mixRest s.mx := rfl

theorem eccCounts_failure (s : State) (x : EccIn) (e : Nat) : (eng (eccCounts s x) e).failure = (eng s e).failure := rfl

/-- A frame computes all that is left of it (R20). -/
theorem computeFrame_rests (s : State) (x : EccIn) :
    Rests s (silenceFrame (eccCounts (finishEngines (completeAll s)) x)) where
  mix := by rw [silenceFrame_mixRest, eccCounts_mixRest, finishEngines_mixRest, completeAll_mixRest]
  frame := by simp
  gap := by simp
  peer := by simp
  host := by simp
  failure e := by
    rw [failure_of_fx (s := eccCounts (finishEngines (completeAll s)) x) (by simp), eccCounts_failure,
      finishEngines_failure, failure_of_fx (s := s) (by simp)]

theorem judgeSlack_rests (s : State) (slack : Nat) (drained : Bool) : Rests s (judgeSlack s slack drained) where
  mix := by simp
  frame := by
    unfold judgeSlack
    dsimp only
    (repeat' split) <;> simp
  gap := by simp
  peer := by simp
  host := by simp
  failure e := failure_of_fx (by simp) e

theorem reportLanes_rests (s : State) : Rests s (reportLanes s) := by
  refine .of_eq ?_ (by simp) (by simp) (by simp) (by simp) fun e => failure_of_fx (by simp) e
  exact each_keeps (fun s => mixRest s.mx) (by simp)

theorem reportClips_rests (s : State) : Rests s (reportClips s) := by
  refine .of_eq ?_ (by simp) (by simp) (by simp) (by simp) fun e => failure_of_fx (by simp) e
  refine each_keeps (fun s => mixRest s.mx) fun s c => ?_
  dsimp only
  split <;> simp [mixRest]

theorem reportEngineClip_failure (s : State) (e k : Nat) : (eng (reportEngineClip s e) k).failure = (eng s k).failure := by
  unfold reportEngineClip
  split
  · rfl
  · refine Eq.trans (failure_of_fx ?_ k) (setEng_failure (x := { eng s e with clipNote := none }) rfl k)
    simp

theorem frameReports_rests (s : State) : Rests s (frameReports s) := by
  unfold frameReports
  refine ((reportLanes_rests s).trans (reportClips_rests _)).trans
    (.of_eq (by simp) (by simp) (by simp) (by simp) (by simp) fun k => ?_)
  exact each_keeps (fun s => (eng s k).failure) fun s e => reportEngineClip_failure s e k

theorem readStopped_rests (s : State) (l : List (Fin 256 × ReadResult)) : Rests s (readStopped s l) :=
  .of_eq (by simp) (by simp) (by simp) (by simp) (by simp) fun e => failure_of_fx (by simp) e

/-! ### Windows with nothing staged -/

section
variable {s : State}

theorem takeDue_of_unstaged {p : Item → Bool} (h : s.fr.staged = []) : takeDue s p = (s, []) := by
  unfold takeDue
  simp only [h, List.filter_nil]
  exact Prod.ext (by simp [← h]) rfl

theorem applyDue_of_unstaged {p : Item → Bool} {f : State → Staged → State} (h : s.fr.staged = []) : applyDue s p f = s := by
  simp [applyDue, takeDue_of_unstaged h, each]

theorem applyRegs_of_unstaged {late : List (Nat × Bool)} {p : Nat → Bool} (h : s.fr.staged = []) : applyRegs s late p = s := by
  simp [applyRegs, takeDue_of_unstaged h]

theorem applyCmds_of_unstaged {p : Item → Bool} {f : State → Staged → State} (h : s.fr.staged = []) :
    applyCmds s p f = (s, []) := by
  simp [applyCmds, takeDue_of_unstaged h]

/-- A pass in which no turn does anything. -/
theorem each_of_fixed {α : Type} {l : List α} {f : State → α → State} (h : ∀ a ∈ l, f s a = s) : each l s f = s := by
  unfold each
  induction l with
  | nil => rfl
  | cons a l ih => rw [List.foldl_cons, h a List.mem_cons_self, ih fun b hb => h b (List.mem_cons_of_mem _ hb)]

theorem failEngines_of_sound (h : ∀ e ∈ engines, (eng s e).failure = none) : failEngines s = s :=
  each_of_fixed fun e he => by simp [failEngine, h e he]

end

end Sys2Proof.Proofs.QuietDrain

/-! The boundary that applies the commit at the head of the queue (R37, R62, R68). -/

namespace Sys2Proof.Proofs.CommitApplied

open Sys2Proof Sys2Proof.Machine Sys2Proof.Safety Sys2Proof.Laws
open Sys2Proof.Proofs.Tables Sys2Proof.Proofs.QuietDrain

/-! ### The entries -/

/-- A well-formed table after a change of every entry that leaves the absent ones absent. -/
theorem tget_tmapv {α : Type} [DecidableEq α] {d : α} {f : Nat → α → α} (hf : ∀ k, f k d = d) (t : Tbl α) (b : Option Nat)
    (h : twfFrom d b t = true) (k : Nat) : tget d (tmapv d f t) k = f k (tget d t k) := by
  induction t generalizing b with
  | nil => exact (hf k).symm
  | cons e t ih =>
    obtain ⟨j, v⟩ := e
    simp only [twfFrom, Bool.and_eq_true] at h
    obtain ⟨-, ht⟩ := h
    have htail := ih (some j) ht
    by_cases hv : f j v = d
    · have hdrop : tmapv d f ((j, v) :: t) = tmapv d f t := by simp [tmapv, hv]
      rw [hdrop, htail]
      by_cases hjk : j = k
      · subst hjk
        rw [tget_absent fun e he => (twfFrom_below ht e he).ne', hf]
        simp [tget, hv]
      · simp [tget, hjk]
    · have hkeep : tmapv d f ((j, v) :: t) = (j, f j v) :: tmapv d f t := by simp [tmapv, hv]
      rw [hkeep]
      by_cases hjk : j = k
      · subst hjk
        simp [tget]
      · simp [tget, hjk, htail]

/-- An entry as the commit of a queue slot leaves it (R62). -/
def committed (qslot : Nat) (e : Xp) : Xp :=
  if e.pend = true ∧ e.qslot = qslot then freeXp { e with cur := if e.lost then e.cur else e.gain, pend := false } else e

theorem markLost_twf {s : State} {d : Damage} (h : twf Xp.none s.mx.xp = true) : twf Xp.none (markLost s d).mx.xp = true := by
  unfold markLost
  dsimp only
  split
  · exact h
  · exact twf_tput _ _ _ _ h

/-- What damage found leaves of the table turns on the table alone. -/
theorem markLost_xp {s t : State} (h : s.mx.xp = t.mx.xp) (d : Damage) : (markLost s d).mx.xp = (markLost t d).mx.xp := by
  unfold markLost
  dsimp only
  rw [h]
  split
  · exact h
  · rfl

theorem markLosts_xp (l : List Damage) {s t : State} (h : s.mx.xp = t.mx.xp) :
    (l.foldl markLost s).mx.xp = (l.foldl markLost t).mx.xp := by
  induction l generalizing s t with
  | nil => exact h
  | cons d l ih => exact ih (markLost_xp h d)

theorem markLosts_twf (l : List Damage) {s : State} (h : twf Xp.none s.mx.xp = true) :
    twf Xp.none (l.foldl markLost s).mx.xp = true := by
  induction l generalizing s with
  | nil => exact h
  | cons d l ih => exact ih (markLost_twf h)

theorem markLost_queue (s : State) (d : Damage) : (markLost s d).mx.queue = s.mx.queue := by
  unfold markLost
  dsimp only
  split <;> rfl

theorem applyCommit_xp {s : State} {c : Commit} (h : twf Xp.none s.mx.xp = true) (k : Nat) :
    tget Xp.none (applyCommit s c).mx.xp k = committed c.qslot (tget Xp.none s.mx.xp k) := by
  have hentry : (fun (_ : Nat) (e : Xp) => if !(e.pend && e.qslot == c.qslot) then e
      else freeXp { e with cur := if e.lost then e.cur else e.gain, pend := false }) = fun _ e => committed c.qslot e := by
    funext _ e
    unfold committed
    by_cases he : e.pend = true ∧ e.qslot = c.qslot
    · simp [he]
    · rw [if_neg he, if_pos (by cases hp : e.pend <;> simp_all)]
  have htable : (applyCommit s c).mx.xp = tmapv Xp.none (fun _ e => committed c.qslot e) s.mx.xp :=
    congrArg (tmapv Xp.none · s.mx.xp) hentry
  rw [htable]
  exact tget_tmapv (fun _ => by simp [committed, Xp.none]) s.mx.xp none h k

theorem applyCommit_queue {s : State} {c : Commit} {r : List Commit} (hq : s.mx.queue = c :: r)
    (hr : ∀ b ∈ r, b.qslot ≠ c.qslot) : (applyCommit s c).mx.queue = r := by
  have hfilter : (applyCommit s c).mx.queue = s.mx.queue.filter (fun x => x.qslot != c.qslot) := rfl
  rw [hfilter, hq, List.filter_cons_of_neg (by simp), List.filter_eq_self]
  simpa using hr

theorem applyCommit_last (s : State) (c : Commit) :
    (applyCommit s c).mx.lastApplyFn = s.fr.fn ∧ (applyCommit s c).mx.lastApplyTag = c.tag := ⟨rfl, rfl⟩

/-! ### The mixer's window -/

section
variable {s : State} {c : Commit} {r : List Commit} {late : List (Nat × Bool)} {bad : List Damage}

/-- A boundary at which the mixer has the commit at the head of its queue to apply, and nothing else. -/
structure HeadAlone (s : State) (c : Commit) (r : List Commit) : Prop where
  queue : s.mx.queue = c :: r
  unstaged : s.fr.staged = []
  calm : s.mx.retire = [] ∧ s.mx.returned = [] ∧ s.mx.damaged = []
  free : capturing s = false
  due : c.bound ≤ s.fr.fn ∧ (c.atFn = true → c.target ≤ s.fr.fn + 1)
  plain : c.scene = none

theorem HeadAlone.headDue (h : HeadAlone s c r) : headDue s = some c := by
  obtain ⟨hb, ht⟩ := h.due
  have htarget : (!c.atFn || decide (c.target ≤ s.fr.fn + 1)) = true := by
    cases hc : c.atFn <;> simp_all
  simp [Machine.headDue, headBound, h.free, h.queue, hb, htarget]

theorem enterReturned_of_none (h : s.mx.returned = []) : enterReturned s = s := by
  have hs : { s with mx := { s.mx with returned := [] } } = s := by rw [← h]
  simp only [enterReturned, h, List.filter_nil, each, List.foldl_nil, hs]

theorem retireLanes_of_none (h : s.mx.retire = []) : retireLanes s = s := by
  have hs : { s with mx := { s.mx with retire := [] } } = s := by rw [← h]
  have hl : (List.range 64).filter s.mx.retire.contains = [] := by simp [h, List.filter_eq_nil_iff]
  simp only [retireLanes, hl, each, List.foldl_nil, hs]

/-- Steps before the commit: nothing damaged, no half returned, no lane retires, no item is due. -/
theorem HeadAlone.stepOne (h : HeadAlone s c r) : stepOne s = (s,
    { budgets := [(s.mx.budget, s.mx.budget, 3), (s.mx.budget, s.mx.budget, 4)], halves := [] }) := by
  obtain ⟨hretire, hreturned, -⟩ := h.calm
  have hu := enterReturned_of_none hreturned
  have hv := retireLanes_of_none hretire
  unfold Machine.stepOne
  simp [hu, hv, takeDue_of_unstaged h.unstaged]

theorem HeadAlone.captureHolds (h : HeadAlone s c r) : captureHolds (freeDamaged s) = s := by
  obtain ⟨-, -, hdamaged⟩ := h.calm
  have hs : freeDamaged s = s := by simp [freeDamaged, hdamaged]
  simp [hs, Machine.captureHolds, h.free]

theorem shedLoop_mixRest (n : Nat) (feedOnly : Bool) (s : State) (l : List (Nat × Nat × Nat)) :
    mixRest (shedLoop n feedOnly s l).1.mx = mixRest s.mx := by
  induction n generalizing s l with
  | zero => rfl
  | succ n ih =>
    unfold shedLoop
    dsimp only
    split
    · rfl
    split
    · rfl
    · exact ih _ _

theorem refreshCost_mixRest (s : State) : mixRest (refreshCost s).mx = mixRest s.mx := rfl

theorem shedFit_mixRest (s : State) : mixRest (shedFit s).1.mx = mixRest s.mx := by
  simp only [shedFit, refreshCost_mixRest, shedLoop_mixRest]

theorem evalSinks_mixRest (s : State) : mixRest (evalSinks s).mx = mixRest s.mx :=
  each_keeps (fun s => mixRest s.mx) fun _ _ => rfl

theorem each_nil {α : Type} (s : State) (f : State → α → State) : each [] s f = s := rfl

/-- An operation that sends events and no more. -/
theorem rests_of_parts {s t : State} (hm : t.mx = s.mx) (hx : t.fx = s.fx) (hf : t.fr = s.fr) (hc : t.ck = s.ck)
    (hp : t.pl = s.pl) (hh : hostRest t.hl = hostRest s.hl) : Rests s t :=
  .of_eq (by rw [hm]) hf hc hp hh (failure_of_fx hx)

theorem shedFit_rests (s : State) : Rests s (shedFit s).1 :=
  .of_eq (shedFit_mixRest s) (by simp) (by simp) (by simp) (by simp) (failure_of_fx (by simp))

theorem evalSinks_rests (s : State) : Rests s (evalSinks s) :=
  .of_eq (evalSinks_mixRest s) (by simp) (by simp) (by simp) (by simp) (failure_of_fx (by simp))

theorem commitApplied_rests (s : State) (c : Commit) : Rests s (commitApplied s c) := by
  unfold commitApplied
  split <;> exact rests_of_parts (by simp) (by simp) (by simp) (by simp) (by simp) (by simp)

theorem headEvents_rests {s : State} {c : Commit} {o : StepOne} (ho : o.halves = []) (hc : c.scene = none) :
    Rests s (headEvents s o (.applied c)) := by
  have hscene (t : State) : sceneParams t c = t := by simp [sceneParams, hc]
  simp only [headEvents, ho, hscene, each_nil]
  refine (rests_of_parts (by simp) (by simp) (by simp) (by simp) (by simp) ?_).trans (commitApplied_rests _ c)
  exact each_keeps (fun t => hostRest t.hl) fun _ _ => budgetEvent_hostRest

theorem shedEvents_rests (s : State) (l : List (Nat × Nat × Nat)) : Rests s (shedEvents s l) :=
  rests_of_parts (by simp) (by simp) (by simp) (by simp) (by simp) (by simp)

/-- Of the mixer's window, what the boundary turns on is as the commit leaves it, and no scene comes with it (R68). -/
theorem HeadAlone.mixBoundary (h : HeadAlone s c r) :
    Rests (applyCommit (bad.foldl markLost s) c) (mixBoundary s late bad).1 ∧ (mixBoundary s late bad).2 = none := by
  have htwo : stepTwo s false bad = (applyCommit (bad.foldl markLost s) c, .applied c) := by
    simp [stepTwo, h.headDue, each]
  have hstaged : (applyCommit (bad.foldl markLost s) c).fr.staged = [] := by
    have hfr : (bad.foldl markLost s).fr = s.fr := by simp
    simp [hfr, h.unstaged]
  unfold Machine.mixBoundary
  simp only [h.captureHolds, h.stepOne, budgetFell, Nat.lt_irrefl, decide_false, htwo, applyRegs_of_unstaged hstaged,
    stepFour, Bool.false_eq_true, if_false, List.isEmpty_nil, if_true, cancelledEvents, h.plain, and_true]
  exact ((shedFit_rests _).trans (headEvents_rests rfl h.plain)).trans ((shedEvents_rests _ _).trans (evalSinks_rests _))

/-! ### The windows after it -/

/-- What the other windows of a quiet boundary leave: the mixer, the frame, the peer and the host side but its events. -/
structure Passes (s t : State) : Prop where
  mx : t.mx = s.mx
  fr : t.fr = s.fr
  pl : t.pl = s.pl
  host : hostRest t.hl = hostRest s.hl

theorem Passes.trans {s t u : State} (h : Passes s t) (k : Passes t u) : Passes s u :=
  ⟨k.mx.trans h.mx, k.fr.trans h.fr, k.pl.trans h.pl, k.host.trans h.host⟩

theorem engineBoundary_quiet (hs : s.fr.staged = []) (he : ∀ e ∈ engines, (eng s e).failure = none) :
    engineBoundary s late none = s := by
  have hp : applyAllParams s = s := by simp [applyAllParams, takeDue_of_unstaged hs]
  simp [engineBoundary, failEngines_of_sound he, applyCmds_of_unstaged hs, hp, applyRegs_of_unstaged hs]

theorem settingBoundary_passes (hs : s.fr.staged = []) : Passes s (settingBoundary s late) := by
  simp only [settingBoundary, applyCmds_of_unstaged hs, takeDue_of_unstaged hs, List.foldl_nil]
  split
  · exact ⟨rfl, rfl, rfl, rfl⟩
  · exact ⟨by simp, by simp, by simp, by simp⟩

theorem streamBoundary_quiet (hs : s.fr.staged = []) : streamBoundary s = applyHalts s := by
  have ha : (applyHalts s).fr.staged = [] := by simp [hs]
  simp [streamBoundary, applyDue_of_unstaged ha]

theorem idleWakes_hostRest (s : State) (value : Nat → Int) : hostRest (idleWakes s value).hl = hostRest s.hl := by
  refine each_keeps (fun t => hostRest t.hl) fun s d => ?_
  unfold idleWakeDie
  (repeat' split) <;> simp

theorem followBoundary_passes (hs : s.fr.staged = []) : Passes s (followBoundary s) := by
  have ha : (applyHalts s).fr.staged = [] := by simp [hs]
  simp only [followBoundary, streamBoundary_quiet hs, applyDue_of_unstaged ha]
  exact ⟨by simp, by simp, by simp, by simp [idleWakes_hostRest]⟩

theorem pairBoundary_quiet (hs : s.fr.staged = []) (hp : s.pl.loss = none ∧ s.pl.yield_ = false ∧ s.pl.soloNext = 0) :
    pairBoundary s = s := by
  obtain ⟨hloss, hyield, hsolo⟩ := hp
  have hmask : maskChannels 0 = [] := by decide
  have hs' : { s with pl := { s.pl with soloNext := 0 } } = s := by rw [← hsolo]
  have hpair : pairBoundary s = decideLoss (applyDue (each (maskChannels s.pl.soloNext)
      { s with pl := { s.pl with soloNext := 0 } } (fun s c => setSolo s c true)) isPair applyPairItem) := rfl
  rw [hpair, hsolo, hmask, each_nil, hs', applyDue_of_unstaged hs]
  simp [decideLoss, hyield, hloss]

/-- A boundary with nothing staged and nothing wrong leaves the mixer as its own window does (R37). -/
theorem boundary_passes {u : State} (hl : s.pl.loss = none) (hm : (mixBoundary s late bad).2 = none)
    (hu : Rests u (mixBoundary s late bad).1) (hs : u.fr.staged = []) (he : ∀ e ∈ engines, (eng u e).failure = none)
    (hp : u.pl.loss = none ∧ u.pl.yield_ = false ∧ u.pl.soloNext = 0) :
    mixRest (boundary s late bad).mx = mixRest u.mx ∧ (boundary s late bad).fr.drained = u.fr.drained ∧
      hostRest (boundary s late bad).hl = hostRest u.hl := by
  have hb : boundary s late bad = applyDue (pairBoundary (followBoundary (settingBoundary
      (engineBoundary (mixBoundary s late bad).1 late (mixBoundary s late bad).2) late))) isFwActivate
      (fun s _ => applyFwActivate s) := by simp [boundary, lossDue, hl]
  rw [hb, hm]
  generalize (mixBoundary s late bad).1 = m at hu ⊢
  obtain ⟨hmix, ⟨hstaged, hdrained, -, -⟩, -, hpeer, hhost, hfail⟩ := hu
  have hs' : m.fr.staged = [] := hstaged.trans hs
  have hset := settingBoundary_passes (late := late) hs'
  have hpass := hset.trans (followBoundary_passes (by rw [hset.fr]; exact hs'))
  have hquiet := pairBoundary_quiet (s := followBoundary (settingBoundary m late)) (by rw [hpass.fr]; exact hs')
    (by rw [hpass.pl, hpeer]; exact hp)
  rw [engineBoundary_quiet hs' fun e h => (hfail e).trans (he e h), hquiet, applyDue_of_unstaged (by simpa [hpass.fr])]
  exact ⟨by rw [hpass.mx]; exact hmix, by rw [hpass.fr]; exact hdrained, hpass.host.trans hhost⟩

end

/-! ### The drain -/

theorem hostRest_afterDone {a b : HostSide} (h : hostRest a = hostRest b) : a.afterDone = b.afterDone :=
  (congrArg HostSide.afterDone h : (hostRest a).afterDone = (hostRest b).afterDone)

theorem hostRest_long {a b : HostSide} (h : hostRest a = hostRest b) : a.long = b.long :=
  (congrArg HostSide.long h : (hostRest a).long = (hostRest b).long)

/-- What ends a drain after its boundary leaves the mixer and the frame's own mark, when no reset waits (R420). -/
theorem drainEnd_keeps {s : State} {fn : Nat} {shown : Tbl Int} {bad : Bool} (h : s.hl.afterDone = none) :
    (resume beginAfter (compareHeard (framePacket (stopAtDrain s) fn shown bad))).mx = s.mx ∧
      (resume beginAfter (compareHeard (framePacket (stopAtDrain s) fn shown bad))).fr.drained = s.fr.drained := by
  have hafter : (compareHeard (framePacket (stopAtDrain s) fn shown bad)).hl.afterDone = none := by
    rw [hostRest_afterDone compareHeard_hostRest]
    simpa using h
  have hres : resume beginAfter (compareHeard (framePacket (stopAtDrain s) fn shown bad)) =
      compareHeard (framePacket (stopAtDrain s) fn shown bad) := by simp [resume, hafter]
  have hdrained : (stopAtDrain s).fr.drained = s.fr.drained := by
    unfold stopAtDrain
    split <;> rfl
  rw [hres]
  exact ⟨by simp, by simp [hdrained]⟩

/-- A frame that is computed to its end at `t`, and counts as drained (R37). -/
def computed (t : Frac) (x : DrainIn) (s : State) : State :=
  { silenceFrame (eccCounts (finishEngines (completeAll (atT s t))) x.ecc) with
    fr := { (silenceFrame (eccCounts (finishEngines (completeAll (atT s t))) x.ecc)).fr with drained := true } }

/-- Its reports, and what a context that stops reads, before the boundary opens. -/
def reported (t : Frac) (x : DrainIn) (s : State) : State :=
  frameReports (judgeSlack (computed t x s) (slackAt t) true)

theorem reported_rests (t : Frac) (x : DrainIn) (s : State) : Rests (computed t x s) (reported t x s) :=
  (judgeSlack_rests _ _ _).trans (frameReports_rests _)

theorem computed_marked (t : Frac) (x : DrainIn) (s : State) : (computed t x s).fr.marked = s.fr.marked := by
  simp [computed]

/-- The drain of an unmarked frame is its boundary, and what ends it. -/
theorem execFrameDrain_unmarked {t : Frac} {x : DrainIn} {s : State} (hc : computing s = true) (hl : s.mx.laneErrs = [])
    (hm : s.fr.marked = false) : ∃ fn shown bad, execFrameDrain t x s = .next (resume beginAfter (compareHeard (framePacket
      (stopAtDrain (boundary (readStopped (reported t x s) x.descs) x.maskLate x.damaged)) fn shown bad))) := by
  have hc' : computing (atT s t) = true := hc
  have hl' : stuckLane (atT s t) = false := by simp [stuckLane, hl]
  have hm' : (computed t x s).fr.marked = false := (computed_marked t x s).trans hm
  have hr : (reported t x s).fr.marked = false := by
    obtain ⟨-, -, hmarked, -⟩ := (reported_rests t x s).frame
    exact hmarked.trans hm'
  have hu : (silenceFrame (eccCounts (finishEngines (completeAll (atT s t))) x.ecc)).fr.marked = false := by simp [hm]
  unfold execFrameDrain
  simp only [hc', hl', Bool.not_true, Bool.or_self, Bool.false_eq_true, if_false]
  unfold reported computed at *
  generalize silenceFrame (eccCounts (finishEngines (completeAll (atT s t))) x.ecc) = u at *
  rw [if_neg (c := u.fr.marked = true) (by simp [hu]), if_neg (by simp only [hr, Bool.false_eq_true, not_false_eq_true])]
  exact ⟨_, _, _, rfl⟩

/-- What a quiet frame is as its boundary opens: as it was where the boundary turns on it, but drained. -/
structure Opens (s b : State) : Prop where
  mix : mixRest b.mx = mixRest s.mx
  staged : b.fr.staged = s.fr.staged
  fn : b.fr.fn = s.fr.fn
  drained : b.fr.drained = true
  peer : b.pl = s.pl
  host : hostRest b.hl = hostRest s.hl
  failure : ∀ e, (eng b e).failure = (eng s e).failure

theorem opens_of_rests {s u b : State} (h : Rests s u) (k : Rests { u with fr := { u.fr with drained := true } } b) :
    Opens s b := by
  obtain ⟨hmix, ⟨hstaged, -, -, hfn⟩, -, hpl, hhost, hfail⟩ := h
  obtain ⟨kmix, ⟨kstaged, kdrained, -, kfn⟩, -, kpl, khost, kfail⟩ := k
  exact ⟨kmix.trans hmix, kstaged.trans hstaged, kfn.trans hfn, kdrained, kpl.trans hpl, khost.trans hhost,
    fun e => (kfail e).trans (hfail e)⟩

theorem reported_opens (t : Frac) (x : DrainIn) (s : State) :
    Opens (atT s t) (readStopped (reported t x s) x.descs) :=
  opens_of_rests (computeFrame_rests (atT s t) x.ecc) ((reported_rests t x s).trans (readStopped_rests _ x.descs))

theorem mixRest_eq {a b : Mix} (h : mixRest a = mixRest b) : (a.queue = b.queue ∧ a.xp = b.xp) ∧
    (a.retire = b.retire ∧ a.returned = b.returned ∧ a.damaged = b.damaged) ∧
    a.lastApplyFn = b.lastApplyFn ∧ a.lastApplyTag = b.lastApplyTag :=
  ⟨⟨congrArg (fun m => m.queue) h, congrArg (fun m => m.xp) h⟩,
    ⟨congrArg (fun m => m.retire) h, congrArg (fun m => m.returned) h, congrArg (fun m => m.damaged) h⟩,
    congrArg (fun m => m.lastApplyFn) h, congrArg (fun m => m.lastApplyTag) h⟩

/-- The frame comes to its boundary with the commit at the head of the queue, and nothing else, to apply. -/
theorem Opens.headAlone {s b : State} {c : Commit} {r : List Commit} (ho : Opens s b) (h : HeadAlone s c r)
    (hlong : s.hl.long = none) : HeadAlone b c r := by
  obtain ⟨⟨hqueue, -⟩, ⟨hretire, hreturned, hdamaged⟩, -⟩ := mixRest_eq ho.mix
  refine ⟨hqueue.trans h.queue, ho.staged.trans h.unstaged, ?_, ?_, ho.fn ▸ h.due, h.plain⟩
  · rw [hretire, hreturned, hdamaged]
    exact h.calm
  · simp [capturing, (hostRest_long ho.host).trans hlong]

/-- A quiet boundary with the commit alone to apply leaves the mixer as the commit does (R37, R68). -/
theorem boundary_headAlone {b : State} {c : Commit} {r : List Commit} {late : List (Nat × Bool)} {bad : List Damage}
    (h : HeadAlone b c r) (hp : b.pl.loss = none ∧ b.pl.yield_ = false ∧ b.pl.soloNext = 0)
    (he : ∀ e ∈ engines, (eng b e).failure = none) :
    mixRest (boundary b late bad).mx = mixRest (applyCommit (bad.foldl markLost b) c).mx ∧
      (boundary b late bad).fr.drained = b.fr.drained ∧ hostRest (boundary b late bad).hl = hostRest b.hl := by
  obtain ⟨hrests, hnone⟩ := h.mixBoundary (late := late) (bad := bad)
  have hfr : (applyCommit (bad.foldl markLost b) c).fr = b.fr := by simp
  have hpl : (applyCommit (bad.foldl markLost b) c).pl = b.pl := by simp
  have hfx : (applyCommit (bad.foldl markLost b) c).fx = b.fx := by simp
  have hhl : (applyCommit (bad.foldl markLost b) c).hl = b.hl := by simp
  have hpass := boundary_passes hp.1 hnone hrests (by rw [hfr]; exact h.unstaged)
    (fun e hm => (failure_of_fx hfx e).trans (he e hm)) (by rw [hpl]; exact hp)
  rwa [hfr, hhl] at hpass

/-- Settles O7: the frame comes to its boundary with the commit alone to apply, the mixer's window applies it, and no
later window touches the mixer. -/
theorem commitApplied : Obligations.CommitApplied := by
  unfold Obligations.CommitApplied
  rintro t x c r s ⟨hc, hm, -, hstaged, hlane, hretire, hreturned, hdamaged, hloss, hyield, hsolo, hsound, hlong, hafter⟩
    hq hr hb ht hscene - hwf
  obtain ⟨fn, shown, bad, hrun⟩ := execFrameDrain_unmarked (t := t) (x := x) hc hlane hm
  have hs : HeadAlone (atT s t) c r :=
    ⟨hq, hstaged, ⟨hretire, hreturned, hdamaged⟩, by simp [capturing, hlong], ⟨hb, ht⟩, hscene⟩
  have hopen := reported_opens t x s
  refine ⟨_, hrun, ?_⟩
  generalize readStopped (reported t x s) x.descs = b at *
  have hhead := hopen.headAlone hs hlong
  obtain ⟨bmix, bdrained, bhost⟩ := boundary_headAlone (late := x.maskLate) (bad := x.damaged) hhead
    (by rw [hopen.peer]; exact ⟨hloss, hyield, hsolo⟩) fun e he => (hopen.failure e).trans (hsound e he)
  obtain ⟨endMx, endDrained⟩ := drainEnd_keeps (fn := fn) (shown := shown) (bad := bad)
    ((hostRest_afterDone (bhost.trans hopen.host)).trans hafter)
  rw [endMx, endDrained, bdrained]
  obtain ⟨⟨hqueue, hxp⟩, -, hfn, htag⟩ := mixRest_eq bmix
  obtain ⟨⟨-, hbxp⟩, -⟩ := mixRest_eq hopen.mix
  change b.mx.xp = s.mx.xp at hbxp
  have hwell : twf Xp.none (x.damaged.foldl markLost b).mx.xp = true := markLosts_twf x.damaged (hbxp ▸ hwf)
  have hmarked : (x.damaged.foldl markLost b).mx.queue = c :: r :=
    (foldl_keeps (fun s => s.mx.queue) markLost_queue).trans hhead.queue
  have hfr : (x.damaged.foldl markLost b).fr.fn = s.fr.fn := by simpa using hopen.fn
  obtain ⟨lastFn, lastTag⟩ := applyCommit_last (x.damaged.foldl markLost b) c
  refine ⟨hqueue.trans (applyCommit_queue hmarked hr), hfn.trans (lastFn.trans hfr), htag.trans lastTag, hopen.drained,
    fun k => ?_⟩
  rw [hxp, applyCommit_xp hwell, markLosts_xp x.damaged hbxp]
  unfold committed
  rfl

end Sys2Proof.Proofs.CommitApplied
